-- ==== Sys2Proof/Word.lean ====
section
/-!
DEFINITION. The word types of the SF1024 model: vendor registers are 32 bits wide (R5), logical blocks are
4,096 bytes (R48), keys are 256 bits (R183), SHA-384 values are 48 bytes (R317).
-/

namespace Sys2Proof

/-- A vendor register (R5). -/
abbrev Word := BitVec 32

/-- A byte. -/
abbrev Byte := BitVec 8

/-- The content of one logical block of 4,096 bytes, byte 0 in the lowest bits (R48). -/
abbrev Block := BitVec 32768

/-- A 256-bit key (R183). -/
abbrev Key := BitVec 256

/-- A 48-byte digest (R317). -/
abbrev Digest384 := BitVec 384

end Sys2Proof
end

