-- ==== Sys2Proof/Syntax.lean ====
section
/-!
DEFINITION. The commands of the block: one constructor of Instr per row of spec/opcode_table.json, with the operand
types that they use. A command is what arrives from outside (a host command, a register access, a management message)
or a happening of the package (a boundary, a completion, an elapsed time, a fault); both change the state only through
exec.
-/

namespace Sys2Proof

/-- A command as the host names it: controller (CNTLID of R43), submission queue and command identifier. -/
structure Hdr where
  ctrl : Nat
  sq : Nat
  cid : Nat
  deriving DecidableEq, Repr

/-- A unit, cluster, region or slice as TC_FAULT_LAST.UNIT names it (R377, R379): KIND, SLICE and NUMBER. -/
structure UnitId where
  kind : Nat
  slice : Nat
  number : Nat
  deriving DecidableEq, Repr

/-- What a package fault is (R385). -/
inductive PkgFault where
  | clock | hubMemory | romCheck
  deriving DecidableEq, Repr

/-- The controller whose CC.EN the host sets, and what it has programmed there: CC.AMS, CC.MPS and CC.CSS, and the sizes and bases of the admin
queues (AQA, ASQ, ACQ; R44, R45). -/
structure CtrlConfig where
  ctrl : Nat
  ams : Nat
  mps : Nat
  css : Nat
  asqSize : Nat
  acqSize : Nat
  asq : Nat
  acq : Nat
  deriving DecidableEq, Repr

/-- The opcode of a command that no other row is, and its ACTION (R70, R76). -/
structure OpAction where
  opcode : Nat
  action : Nat
  deriving DecidableEq, Repr

/-- One source range of a Copy, descriptor format 0 (R48). -/
structure CopySource where
  nsid : Nat
  slba : Nat
  nlb : Nat
  deriving DecidableEq, Repr

/-- The creation descriptor of R51, bytes 3840 to 3903. -/
structure CreateDesc where
  version : Nat
  placement : Nat
  slice : Nat
  media : Nat
  rate : Nat
  fixity : Nat
  indexLog2 : Nat
  sealedTi : Nat
  reserved : Nat
  deriving DecidableEq, Repr

/-- Resource type of Secondary Controller Assign (R78). -/
inductive AssignRes where
  | vq | vi
  deriving DecidableEq, Repr

/-- A media descriptor (R145): identification, geometry, array times in ns for pSLC, TLC and QLC (nominal and maximum), the pSLC prefix sequence,
the suspend and resume opcodes, the read-retry offset sets 1 to 6 and the soft step (R158), and the rated cycles of the three modes in
hundreds. -/
structure MediaDesc where
  maker : Nat
  model : Nat
  pageKib : Nat
  spare : Nat
  planes : Nat
  pagesPerBlock : Nat
  blocksPerLun : Nat
  lunsPerTarget : Nat
  bits : Nat
  tR : List Nat
  tRMax : List Nat
  tProg : List Nat
  tProgMax : List Nat
  tBers : List Nat
  tBersMax : List Nat
  pslcPrefix : List Nat
  suspendOp : Nat
  resumeOp : Nat
  retry : List (List Int)
  softStep : Int
  rated : List Nat
  deriving DecidableEq, Repr

/-- A seed image as its header and section table give it (R303), with the outcomes of the checks of R304 that need
the signature and hash functions. -/
structure SeedImage where
  magicOk : Bool
  imageLen : Nat
  keyHashOk : Bool
  signatureOk : Bool
  parts : BitVec 8
  svn : Nat
  commitSvn : Bool
  tableOk : Bool
  sectionsOk : Bool
  fwLevel : Nat
  fwRev : BitVec 64
  layout : Nat
  portDual : Bool
  subsysId : Nat
  headerDigest : Digest384
  sectionDigests : List Digest384
  seedConfig : List (Nat × Word)
  media : List MediaDesc
  signers : List Digest384
  deriving DecidableEq, Repr

/-- A piece of an image as Firmware Image Download brings it (R67): whose it is, and its place and length there. -/
structure ImagePiece where
  image : SeedImage
  offset : Nat
  length : Nat
  deriving DecidableEq, Repr

/-- What a volume answers at discovery (R146): its identification and geometry. -/
structure VolumeId where
  maker : Nat
  model : Nat
  crcOk : Bool
  luns : Nat
  deriving DecidableEq, Repr

/-- The bus on which a management message arrives (R53). -/
inductive MiBus where
  | smbus | i3c
  deriving DecidableEq, Repr

/-- An admin command tunnelled by NVMe-MI (R53). -/
inductive TunnelCmd where
  | identify (cns nsid : Nat)
  | getLogPage (lid : Nat)
  | getFeatures (fid nsid : Nat)
  | other (opcode : Nat)
  deriving DecidableEq, Repr

/-- A management request (R53), as In-band NVMe-MI Send carries it. -/
inductive MiReq where
  | readDataStructure (dtyp port ctrl : Nat)
  | subsystemHealth
  | controllerHealth (start max : Nat)
  | configGet (id : Nat)
  | configSet (id value : Nat)
  | vpdRead (offset length : Nat)
  | vpdWrite
  | reset
  | tunnel (cmd : TunnelCmd)
  deriving DecidableEq, Repr

/-- The tenant descriptor (R77). -/
structure TenantDesc where
  valid : Nat
  flags : Nat
  wbq : Nat
  ctxq : Nat
  wiq : Nat
  dgMask : Nat
  keyBase : Nat
  keyCount : Nat
  wearBurst : Nat
  wearRate : Nat
  reserved : Nat
  lunsets : Nat
  deriving DecidableEq, Repr

/-- The state of one queue as a migration blob carries it (R91), with a doorbell recorded under R85. -/
structure BlobQueue where
  port : Nat
  qid : Nat
  base : Nat
  size : Nat
  cqid : Nat
  vector : Nat
  prio : Nat
  head : Nat
  tail : Nat
  phase : Bool
  recorded : Option Nat
  isCq : Bool
  deriving DecidableEq, Repr

/-- A namespace as a migration blob describes it (R91). -/
structure BlobNs where
  nsid : Nat
  size : Nat
  kind : Nat
  media : Nat
  rate : Nat
  through : Bool
  placement : Nat
  deriving DecidableEq, Repr

/-- A migration blob (R90, R91): the header, the body in clear, and under which migration key it was sealed. A key is given as its
place in the key range, its USE and its value wrapped under the migration key. -/
structure Blob where
  magicOk : Bool
  version : Nat
  bodyLen : Nat
  iv : BitVec 96
  srcTi : Nat
  srcId : BitVec 64
  dstId : BitVec 64
  fwLevel : Nat
  generation : BitVec 32
  sealKey : Key
  intact : Bool
  family : Nat
  body : TenantDesc
  sealedMode : Bool
  weights : List Word
  queues : List BlobQueue
  features : List (Nat × Nat × Nat)
  aers : List (Nat × Nat)
  namespaces : List BlobNs
  allowance : Nat
  keys : List (Nat × Nat × List Byte)
  deriving DecidableEq, Repr

/-- The certificate chain of a peer, as far as R90 checks it. -/
structure PeerChain where
  rootsInTilnas : Bool
  sameFamily : Bool
  deviceId : BitVec 64
  deriving DecidableEq, Repr

/-- One SPDM message of a migration session (R90). -/
inductive SpdmMsg where
  | getVersion | getCapabilities | negotiateAlgorithms | getDigests | getCertificate | challenge
  | keyExchange | finish (peer : PeerChain)
  | response (code : Nat) (peer : Option PeerChain)
  | migrationKey (k : Key)
  | other (code : Nat)
  deriving DecidableEq, Repr

/-- The transport of an SPDM request: the DOE mailbox of a port's physical function, or migration (R320). -/
inductive Transport where
  | doe (port : Nat)
  | migration (session : Nat)
  deriving DecidableEq, Repr

/-- The algorithms an SPDM requester offers (R320): does each set hold the one the device supports? -/
structure AlgOffer where
  ecdsaP384 : Bool
  sha384 : Bool
  secp384r1 : Bool
  aes256gcm : Bool
  dmtf : Bool
  deriving DecidableEq, Repr

/-- A Key Value key: its length KL and its bytes (R48, R254). -/
structure KvKey where
  len : Nat
  bytes : List Byte
  deriving DecidableEq, Repr

/-- What a submission queue entry names, as the hub reads it at fetch: the namespace, the block ranges (namespace, first block, blocks), the
key of an object command, and the host buffers (address, bytes) of its data. -/
structure SqEntry where
  nsid : Nat
  spans : List (Nat × Nat × Nat)
  key : Option KvKey
  bufs : List (Nat × Nat)
  deriving DecidableEq, Repr

/-- A command as COMMAND_FETCH takes it: what names it, and its entry. -/
structure FetchCmd where
  h : Hdr
  entry : SqEntry
  deriving DecidableEq, Repr

/-- What a link trains with beside its generation: its width, and the Max_Payload_Size and Max_Read_Request_Size that the host then programs
(R40, R41). -/
structure LinkSize where
  width : Nat
  mps : Nat
  mrrs : Nat
  deriving DecidableEq, Repr

/-- The host memory of an I/O queue: its base address, and whether it is physically contiguous. -/
structure QueueMem where
  base : Nat
  contiguous : Bool
  deriving DecidableEq, Repr

/-- Options of a Key Value Store (R264). -/
inductive StoreOpt where
  | none | mustExist | mustNotExist
  deriving DecidableEq, Repr

/-- Program types that Load Program names (R241). -/
inductive ProgType where
  | ebpf | native | other (code : Nat)
  deriving DecidableEq, Repr

/-- A range of a memory range set (R242). -/
structure MemRange where
  nsid : Nat
  offset : Nat
  length : Nat
  deriving DecidableEq, Repr

/-- How an invocation ended (R244). -/
inductive RunOutcome where
  | returned | fault | timeLimit | engine (status : Nat) | overrun | lengthMismatch (declared arrived : Nat) | fenced | digestBusy | searchBusy
  deriving DecidableEq, Repr

/-- The source of a Memory Copy (R250). -/
inductive CopyFrom where
  | memory (nsid offset length : Nat)
  | blocks (nsid slba nlb : Nat)
  deriving DecidableEq, Repr

/-- An operand of the matching store (R225). -/
structure Operand where
  value : BitVec 64
  aux : BitVec 32
  kind : BitVec 8
  status : BitVec 8
  source : BitVec 16
  deriving DecidableEq, Repr

/-- The running work item that issues a primitive: slice, slice-local cluster and matching-store slot. -/
structure ItemRef where
  slice : Nat
  cluster : Nat
  wslot : Nat
  deriving DecidableEq, Repr

/-- What an EMIT submits (R229): an engine operation, with the slot and index that its ENGINE operand reaches (R225), a slice DMA transfer (R280)
or a host completion. -/
inductive EmitDesc where
  | engine (unit ctx len wslot index : Nat)
  | dma (ch src dst len : Nat)
  | completion (h : Hdr) (sct sc dw0 dw1 : Nat)
  deriving DecidableEq, Repr

/-- What happened to the codewords of a read pass (R157 to R160): the worst codeword's LUN, block, flash page within the block and place in
that page, and how its decoding went. -/
structure ReadPass where
  lun : Nat
  block : Nat
  row : Nat
  pos : Nat
  level : Nat
  erased : Bool
  uncorrectable : Bool
  addrMismatch : Bool
  corrected : Nat
  tagOk : Bool
  poisoned : Bool
  ptr : BitVec 64
  verifySb : Option Nat
  verifyLast : Bool
  deriving DecidableEq, Repr

/-- What a poll reports (R164). -/
inductive PollRes where
  | busy | ready | fail
  deriving DecidableEq, Repr

/-- A cipher operation as it ends (R166 to R174): iv and tag came with a message to decrypt, ghash is the accumulator after the length block. -/
structure CipherOp where
  unit : Nat
  requester : Nat
  slot : Nat
  encrypt : Bool
  keyGen : Nat
  ivBits : Nat
  tagBits : Nat
  keyBits : Nat
  aadDecl : Nat
  payDecl : Nat
  arrived : Nat
  raggedDescriptor : Bool
  iv : BitVec 96
  ghash : BitVec 128
  tag : BitVec 128
  callerIv : Bool
  fenced : Bool
  deriving DecidableEq, Repr

/-- A compression or decompression operation as it ends (R190, R197, R199, R200, R202): its format and level, the bytes declared, arrived, produced
and held back, the window of a stream to decompress, whether it asks for a preset dictionary, where its history ring lies, and its checksum state. -/
structure CompressOp where
  unit : Nat
  format : Nat
  level : Nat
  checksum : Bool
  finalOp : Bool
  decl : Nat
  arrived : Nat
  capacity : Nat
  produced : Nat
  held : Nat
  window : Nat
  dictionary : Bool
  formatError : Bool
  checkFail : Bool
  insideStream : Bool
  ringPtr : Nat
  check : BitVec 64
  fenced : Bool
  deriving DecidableEq, Repr

/-- Causes of a bus error (R275), as HD_ERR.CAUSE codes them. -/
inductive BusCause where
  | ur | ca | timeout | poisoned | ats
  deriving DecidableEq, Repr

/-- How a slice DMA transfer ended (R280): bytes moved before an uncorrectable source, or a fence. -/
structure DmaRes where
  owner : Nat
  src : Nat
  dst : Nat
  len : Nat
  badAt : Option Nat
  discarded : Bool
  fenced : Bool
  deriving DecidableEq, Repr

/-- A digest engine: instance 0 to 15, or the service one (R309). -/
inductive DgRef where
  | inst (i : Nat)
  | service
  deriving DecidableEq, Repr

/-- The destination of a digest (R313). -/
inductive DgDest where
  | buffer (ptr : Nat)
  | slm (slice ptr : Nat)
  | meas (index : Nat)
  | keySlot (slot : Nat)
  | keyRegister
  deriving DecidableEq, Repr

/-- What wakes the package from PS3 or PS4 (R347). -/
inductive WakeCause where
  | doorbell | bar2 | doe | nvmeMi | retraining | patrol
  deriving DecidableEq, Repr

/-- Causes of TC_FAULT_LAST (R377, R378). -/
inductive FenceCause where
  | late | sramUe | verify | train | testFail | power | sensor | link
  deriving DecidableEq, Repr

/-- Boundary-scan instructions (R386). -/
inductive JtagInstr where
  | bypass | idcode | samplePreload | extest | extestPulse | extestTrain | clamp | highz
  deriving DecidableEq, Repr

/-- The commands of the block, in the order of spec/opcode_table.json. -/
inductive Instr where
  | courseBoundary (late : List UnitId)
  | bondPeriodBoundary (hot : List Nat)
  | commitGo
  | syncPulse (phase : Int)
  | syncPulseMissing
  | syncWaitTimeout
  | syncConflict
  | refclkLost
  | packageFault (kind : PkgFault)
  | linkTraining (port gen : Nat) (link : LinkSize)
  | perstAssert (port : Nat)
  | sqTailDoorbell (ctrl qid tail : Nat)
  | cqHeadDoorbell (ctrl qid head : Nat)
  | commandFetch (fetch : FetchCmd)
  | completionPost (h : Hdr)
  | flush (h : Hdr) (nsid : Nat)
  | write (h : Hdr) (nsid slba : Nat) (data : List Block) (fua : Bool)
  | read (h : Hdr) (nsid slba nlb : Nat)
  | compare (h : Hdr) (nsid slba : Nat) (data : List Block)
  | writeZeroes (h : Hdr) (nsid slba nlb : Nat) (deac fua : Bool)
  | datasetManagement (h : Hdr) (nsid : Nat) (ad : Bool) (ranges : List (Nat × Nat))
  | verify (h : Hdr) (nsid slba nlb : Nat)
  | copy (h : Hdr) (nsid format sdlba : Nat) (sources : List CopySource) (fua : Bool)
  | identify (h : Hdr) (cns nsid : Nat)
  | getLogPage (h : Hdr) (lid : Nat)
  | getFeatures (h : Hdr) (fid nsid : Nat)
  | setFeatures (h : Hdr) (fid value : Nat)
  | setFeaturesVolatileWriteCache (h : Hdr) (wce : Bool)
  | setFeaturesInlineCompression (h : Hdr) (nsid : Nat) (enable : Bool)
  | setFeaturesDurability (h : Hdr) (nsid : Nat) (through : Bool)
  | setFeaturesLatencyTolerance (h : Hdr) (cntlid tolerance : Nat)
  | setFeaturesPowerManagement (h : Hdr) (ps : Nat)
  | createIoSubmissionQueue (h : Hdr) (qid size cqid prio : Nat) (mem : QueueMem)
  | createIoCompletionQueue (h : Hdr) (qid size vector : Nat) (mem : QueueMem)
  | deleteIoSubmissionQueue (h : Hdr) (qid : Nat)
  | deleteIoCompletionQueue (h : Hdr) (qid : Nat)
  | abort (h : Hdr) (sqid cid : Nat)
  | asynchronousEventRequest (h : Hdr)
  | namespaceCreate (h : Hdr) (csi nsze ncap flbas : Nat) (desc : CreateDesc)
  | namespaceDelete (h : Hdr) (nsid : Nat)
  | namespaceAttach (h : Hdr) (nsid : Nat) (ctrls : List Nat)
  | namespaceDetach (h : Hdr) (nsid : Nat) (ctrls : List Nat)
  | secondaryControllerOnline (h : Hdr) (cntlid : Nat)
  | secondaryControllerOffline (h : Hdr) (cntlid : Nat)
  | secondaryControllerAssign (h : Hdr) (cntlid : Nat) (res : AssignRes) (count : Nat)
  | formatNvm (h : Hdr) (nsid ses lbaf pi mset : Nat)
  | firmwareImageDownload (h : Hdr) (piece : ImagePiece)
  | firmwareCommit (h : Hdr) (ca fs : Nat)
  | firmwareActivation
  | nvmeMiSend (h : Hdr) (req : MiReq)
  | nvmeMiReceive (h : Hdr)
  | readNvmeMiDataStructure (bus : MiBus) (dtyp port ctrl : Nat)
  | nvmSubsystemHealthStatusPoll (bus : MiBus)
  | controllerHealthStatusPoll (bus : MiBus) (start max : Nat)
  | configurationGet (bus : MiBus) (id : Nat)
  | configurationSet (bus : MiBus) (id value : Nat)
  | vpdRead (bus : MiBus) (offset length : Nat)
  | miAdminTunnel (bus : MiBus) (cmd : TunnelCmd)
  | controllerDisable (ctrl : Nat)
  | controllerEnable (cc : CtrlConfig)
  | shutdown (ctrl : Nat) (abrupt : Bool)
  | shutdownComplete (ctrl : Nat)
  | nvmSubsystemReset
  | functionLevelReset (ctrl : Nat)
  | flrComplete (ctrl : Nat)
  | atsInvalidate (fn addr : Nat)
  | create (h : Hdr) (ti : BitVec 8) (sealedMode : Bool) (desc : TenantDesc)
  | resize (h : Hdr) (ti : BitVec 8) (desc : TenantDesc)
  | setMode (h : Hdr) (ti : BitVec 8) (sealedMode : Bool)
  | quiesce (h : Hdr) (ti : BitVec 8)
  | quiescedReached (ti : Nat)
  | resume (h : Hdr) (ti : BitVec 8)
  | freeze (h : Hdr) (ti : BitVec 8)
  | reset (h : Hdr) (ti : BitVec 8)
  | remove (h : Hdr) (ti : BitVec 8) (migrated : Bool)
  | restore (h : Hdr) (ti : BitVec 8) (session : Nat) (blob : Blob) (desc : TenantDesc) (nsmap : List (Nat × Nat))
  | migSend (h : Hdr) (session : Nat) (msg : SpdmMsg)
  | get (h : Hdr) (ti : BitVec 8)
  | save (h : Hdr) (ti : BitVec 8) (session : Nat)
  | migRecv (h : Hdr) (session : Nat)
  | generate (h : Hdr) (slot use : Nat)
  | importKey (h : Hdr) (slot kek use : Nat) (wrapped : List (BitVec 8))
  | zeroize (h : Hdr) (slot : Nat)
  | bind (h : Hdr) (slot nsid : Nat)
  | importKek (h : Hdr) (kek session : Nat) (authentic : Bool) (key : BitVec 256)
  | status (h : Hdr) (slot : Nat)
  | slotRetiringEnd (slot : Nat)
  | settingsStore (h : Hdr)
  | nvStoreGo
  | storeDone (badPages recordBytes : Nat)
  | storeTokenRefill
  | store (h : Hdr) (nsid : Nat) (key : KvKey) (opt : StoreOpt) (seg : Option Nat) (total : Nat) (value : List (BitVec 8))
  | ingestIdleTimeout (nsid : Nat) (key : KvKey)
  | retrieve (h : Hdr) (nsid : Nat) (key : KvKey) (offset size : Nat) (info : Bool)
  | delete (h : Hdr) (nsid : Nat) (key : KvKey)
  | exist (h : Hdr) (nsid : Nat) (key : KvKey)
  | list (h : Hdr) (nsid : Nat) (key : KvKey) (size : Nat)
  | objectExport (h : Hdr) (nsid size cursor endBucket : Nat)
  | exportPinTimeout (nsid sliceIx endBucket : Nat)
  | loadProgram (h : Hdr) (nsid index : Nat) (ptype : ProgType) (total offset : Nat) (piece : List (BitVec 8))
  | programActivationManagement (h : Hdr) (nsid index : Nat) (activate : Bool)
  | executeProgram (h : Hdr) (nsid index : Nat) (ranges : List MemRange) (limit : Nat) (params : List (BitVec 8))
  | invocationLimitExpiry (inv : Nat)
  | invocationComplete (inv : Nat) (outcome : RunOutcome) (ret : BitVec 32)
  | memoryRead (h : Hdr) (nsid offset length : Nat)
  | memoryWrite (h : Hdr) (nsid offset : Nat) (data : List (BitVec 8))
  | memoryCopy (h : Hdr) (nsid dest : Nat) (src : CopyFrom)
  | doeDiscovery (port index : Nat)
  | getVersion (t : Transport)
  | getCapabilities (t : Transport) (flags : Nat)
  | negotiateAlgorithms (t : Transport) (offer : AlgOffer)
  | getDigests (t : Transport)
  | getCertificate (t : Transport) (slot offset length : Nat)
  | challenge (t : Transport) (slot : Nat) (nonce : BitVec 256)
  | getMeasurements (t : Transport) (index : Nat) (signed : Bool) (nonce : BitVec 256)
  | keyExchange (t : Transport) (peer : BitVec 768)
  | finish (t : Transport) (session : Nat) (macOk : Bool)
  | heartbeat (t : Transport) (session : Nat)
  | keyUpdate (t : Transport) (session op : Nat)
  | endSession (t : Transport) (session : Nat)
  | getEncapsulatedRequest (t : Transport) (session : Nat)
  | deliverEncapsulatedResponse (t : Transport) (session : Nat) (peer : PeerChain)
  | spdmUnsupportedRequest (t : Transport) (code : Nat)
  | sliceFormat (slice muReq : Nat)
  | sliceFormatDone (slice : Nat) (eraseFails : List (Nat × Nat))
  | evacuationGo (slice lun : Nat) (auto : Bool)
  | evacuationDone (slice : Nat)
  | streamAgeTrigger (slice wslot : Nat)
  | flashPageAgeTimeout (slice sb : Nat)
  | programConfirmed (slice lun : Nat)
  | programFailed (slice lun block row : Nat)
  | eraseFailed (slice lun block : Nat)
  | readPassDone (slice cluster wslot index : Nat) (pass : ReadPass)
  | patrolDue (slice sb : Nat) (weak : List (Nat × Nat))
  | lunHealthEval (slice lun : Nat) (retry2 retry4 : Nat)
  | operationTimeout (slice lun : Nat) (ready : Bool)
  | devWearRateUpdate
  | channelDiscovery (slice ch : Nat) (vols : List VolumeId) (trainFails : Nat)
  | flashRetrain (slice ch : Nat) (ok : Bool)
  | flashZqShortDue (slice : Nat)
  | lunPollDue (slice lun : Nat) (res : PollRes)
  | counterGroupStore
  | groupStoreDone
  | entropyFail
  | entropyRetest (pass : Bool)
  | cipherOpDone (slice ctx : Nat) (op : CipherOp)
  | compressOpDone (slice ctx : Nat) (op : CompressOp)
  | search (slice array part requester start : Nat) (key : BitVec 128)
  | searchBatch (slice array part requester start count : Nat) (keys : List (BitVec 128)) (respPtr arrived : Nat)
  | invalidate (slice array part requester offset : Nat)
  | entryWrite (slice array part requester offset : Nat) (key mask : BitVec 128) (result : BitVec 32)
  | validate (slice array part requester offset : Nat)
  | resultWrite (slice array part requester offset : Nat) (result : BitVec 32)
  | entryRead (slice array part requester offset : Nat)
  | searchResponse (slice array cluster wslot index : Nat)
  | alloc (it : ItemRef) (flow entry : Nat) (arg : BitVec 64) (need : BitVec 4) (done : Option (Nat × Nat)) (grant : Nat)
  | send (it : ItemRef) (wslot index : Nat) (value : BitVec 64) (aux : BitVec 32)
  | arm (it : ItemRef) (wslot index delay : Nat)
  | emit (it : ItemRef) (desc : EmitDesc)
  | release (it : ItemRef)
  | continueRun (it : ItemRef) (need : BitVec 4)
  | endRun (it : ItemRef) (code : BitVec 8)
  | ctxAlloc (it : ItemRef) (kind grant : Nat)
  | ctxFree (it : ItemRef) (ctx : Nat)
  | flowOpen (it : ItemRef)
  | flowClose (it : ItemRef) (flow : Nat)
  | operandArrival (slice cluster wslot index : Nat) (op : Operand)
  | budgetExpiry (it : ItemRef)
  | protectionFault (it : ItemRef)
  | delayEntryDue (slice cluster wslot index : Nat)
  | hostDmaBeat (ready : List Nat)
  | busError (ch : Nat) (cause : BusCause) (merged : List Nat)
  | probeComplete (ok : Bool) (cause : BusCause) (ns : Nat)
  | hdChCtlWrite (ch : Nat) (value : BitVec 32)
  | sliceDmaDone (slice ch cluster wslot index : Nat) (dma : DmaRes)
  | dramChannelStart (slice ch trainFails selftest : Nat)
  | dramRefresh (waitNs : Nat)
  | dramZqCal
  | dramRetrainDue (slice ch : Nat)
  | dramRetrain (slice ch : Nat)
  | retrainHoldExpiry (slice ch : Nat)
  | dramRetrainDone (slice ch : Nat) (working : Bool)
  | mergeEntryTimeout (slice ch burst : Nat) (readOk : Bool)
  | scrubGo (slice : Nat)
  | scrubStop (slice : Nat)
  | scrubDone (slice ce : Nat) (ue : List Nat)
  | digestOpen (inst : DgRef) (owner alg : Nat) (hmac : Option Nat) (decl : Nat) (dest : DgDest)
  | digestData (inst : DgRef) (data : List (BitVec 8)) (final : Bool)
  | digestIdleTimeout (inst : DgRef)
  | measExtend
  | measExtendDone
  | sagDetect
  | sagEnd (us : Nat)
  | brownOut
  | surgeRecorded
  | surgeTrip
  | senseFault (input code : Nat)
  | controlLoopSample (meas : List (Nat × Int)) (temps : List (Nat × Int))
  | feTrip (loop : Nat)
  | thermalTrip (sensor : Nat)
  | supervisorStep
  | chargeTimeout
  | holdupClear
  | measureRequest
  | capacitanceMeasureDue
  | capacitanceMeasureEnd (v0 v1 v2 : Nat)
  | flushRateUpdate
  | loopClose (loop : Nat) (meas : Int)
  | loopOpen (loop : Nat)
  | dumpComplete (unlanded : List (Nat × Nat))
  | downSupplyGood
  | bankExhausted
  | powerStateEntry
  | powerStateExit (why : WakeCause)
  | resetNRise
  | resetNFall
  | imageVerified
  | sliceRebuild (slice : Nat)
  | sliceRebuildDone (slice : Nat) (ok : Bool)
  | sliceLate (slice : Nat)
  | startWatchdog
  | hubFault
  | startSuccess
  | minuteTick
  | recorderBinning (samples : List (Nat × Int))
  | recorderFreeze
  | recorderThaw
  | recorderAutoThaw
  | onlineTestGo (kind slice number : Nat)
  | onlineTestDone (pass : Bool)
  | faultFence (u : UnitId) (cause : FenceCause)
  | sliceOfflineRequest (slice : Nat)
  | sliceLinkFail (slice : Nat)
  | jtagInstruction (instr : JtagInstr)
  | tapReset
  | debugUnlock (signed : Bool)
  | loRegisterRead (addr : Nat)
  | unsupportedWidthAccess (addr size : Nat) (isWrite : Bool)
  | reservedAccess (addr : Nat) (isWrite : Bool)
  | registerWrite (addr : Nat) (value : BitVec 32)
  | powerLostWithoutDump
  | unsupportedOpcode (h : Hdr) (op : OpAction)
  | dynamicAddressAssignment (addr : BitVec 7)
  | smbusClockLowTimeout
  | msiXTableWrite (ctrl vector : Nat) (masked : Bool) (addr data : Nat)
  deriving DecidableEq, Repr

end Sys2Proof
end

