-- ==== Sys2Proof/WellFormed.lean ====
section
/-!
DEFINITION. Which commands the outside world can form: every operand within the range that its field or its number
has in the spec (R10, R43, R45, R48, R72, R183, R387). A check says nothing about whether the package accepts the
command: that is the command's meaning.
-/

namespace Sys2Proof

/-- A number below n. -/
def below (n k : Nat) : Bool := decide (k < n)

/-- A field of 8 bits. -/
def byteOk (k : Nat) : Bool := below 256 k

/-- A field of 16 bits. -/
def half (k : Nat) : Bool := below 65536 k

/-- A field of 32 bits. -/
def word32 (k : Nat) : Bool := below 4294967296 k

/-- Command Dword 1, the namespace identifier. -/
def nsidOk (k : Nat) : Bool := word32 k

/-- An LBA of 64 bits. -/
def lbaOk (k : Nat) : Bool := below 18446744073709551616 k

/-- A count of blocks, 1 to 65,536 (a field of 16 bits, 0's based). -/
def countOk (k : Nat) : Bool := decide (1 ≤ k) && below 65537 k

/-- A tenant instance number (R10). -/
def tiOk (k : Nat) : Bool := below 256 k

/-- A slice number (R10). -/
def sliceOk (k : Nat) : Bool := below 8 k

/-- A CNTLID: 0x0001 to 0x0101 on port 0 and 0x0201 to 0x0301 on port 1 (R43). -/
def ctrlOk (k : Nat) : Bool := decide (1 ≤ k ∧ k ≤ 0x101) || decide (0x201 ≤ k ∧ k ≤ 0x301)

/-- An I/O queue identifier that a doorbell addresses (R387): the doorbells lie within 16 KiB of the BAR. -/
def qidOk (k : Nat) : Bool := below 1536 k

/-- An offset of the 64 MiB vendor window (R387). -/
def windowOk (k : Nat) : Bool := below 0x4000000 k

/-- An address of a register (R391). -/
def aligned (k : Nat) : Bool := decide (k % 4 = 0)

/-- A command header: controller, submission queue and command identifier. -/
def Hdr.wf (h : Hdr) : Bool := ctrlOk h.ctrl && half h.sq && half h.cid

/-- KIND, SLICE and NUMBER are bytes (R379). -/
def UnitId.wf (u : UnitId) : Bool := byteOk u.kind && byteOk u.slice && byteOk u.number

/-- A running item: slice, slice-local cluster, matching-store slot (R225). -/
def ItemRef.wf (i : ItemRef) : Bool := sliceOk i.slice && below 4 i.cluster && half i.wslot

/-- A maximum payload or read request size: a power of two from 128 to 4,096 bytes (R41). -/
def payloadOk (k : Nat) : Bool := decide (k ∈ [128, 256, 512, 1024, 2048, 4096])

/-- One host buffer: its address and its length. -/
def bufOk (b : Nat × Nat) : Bool := lbaOk b.1 && word32 b.2

/-- What a submission queue entry names. -/
def SqEntry.wf (e : SqEntry) : Bool := nsidOk e.nsid && e.bufs.all bufOk

/-- CC and the admin queue registers. -/
def CtrlConfig.wf (c : CtrlConfig) : Bool := ctrlOk c.ctrl && below 8 c.ams && below 16 c.mps && below 8 c.css && decide (1 ≤ c.asqSize) && below 4097 c.asqSize &&
  decide (1 ≤ c.acqSize) && below 4097 c.acqSize && lbaOk c.asq && lbaOk c.acq

/-- A source range of a Copy (R48). -/
def CopySource.wf (c : CopySource) : Bool := nsidOk c.nsid && lbaOk c.slba && countOk c.nlb

/-- A range of Dataset Management: first block, blocks (R48). -/
def rangeOk (r : Nat × Nat) : Bool := lbaOk r.1 && word32 r.2

/-- The fields of the creation descriptor (R51). -/
def CreateDesc.wf (d : CreateDesc) : Bool := half d.version && byteOk d.placement && byteOk d.slice && byteOk d.media && byteOk d.rate &&
  byteOk d.fixity && byteOk d.indexLog2 && half d.sealedTi

/-- The fields of the tenant descriptor (R77). -/
def TenantDesc.wf (d : TenantDesc) : Bool := word32 d.valid && byteOk d.flags && half d.wbq && half d.ctxq && half d.wiq && half d.dgMask &&
  half d.keyBase && half d.keyCount && word32 d.wearBurst && word32 d.wearRate && below (2 ^ 256) d.lunsets

/-- A key: a length byte and at most 16 bytes (R48). -/
def KvKey.wf (k : KvKey) : Bool := byteOk k.len && decide (k.bytes.length ≤ 16)

/-- A range of a memory range set (R242). -/
def MemRange.wf (r : MemRange) : Bool := nsidOk r.nsid && lbaOk r.offset && lbaOk r.length

/-- The source of a Memory Copy (R250). -/
def CopyFrom.wf : CopyFrom → Bool
  | .memory nsid offset length => nsidOk nsid && lbaOk offset && lbaOk length
  | .blocks nsid slba nlb => nsidOk nsid && lbaOk slba && countOk nlb

/-- A digest instance (R309). -/
def DgRef.wf : DgRef → Bool
  | .inst i => below 16 i
  | .service => true

/-- A destination of a digest (R313). -/
def DgDest.wf : DgDest → Bool
  | .buffer ptr => lbaOk ptr
  | .slm slice ptr => sliceOk slice && lbaOk ptr
  | .meas index => below 32 index
  | .keySlot slot => below 4608 slot
  | .keyRegister => true

/-- A mailbox or a migration session (R320). -/
def Transport.wf : Transport → Bool
  | .doe port => below 2 port
  | .migration session => byteOk session

/-- A place in flash and the retry level, 0 to 8, at which its decoding went (R158). -/
def ReadPass.wf (p : ReadPass) : Bool := below 512 p.lun && below 9 p.level && half p.pos

/-- A submission of a running item (R229). -/
def EmitDesc.wf : EmitDesc → Bool
  | .engine unit ctx len wslot index => byteOk unit && half ctx && word32 len && half wslot && byteOk index
  | .dma ch src dst len => below 16 ch && lbaOk src && lbaOk dst && word32 len
  | .completion h sct sc dw0 dw1 => h.wf && below 8 sct && byteOk sc && word32 dw0 && word32 dw1

/-- Is every operand within the range of its field? -/
def Instr.wf : Instr → Bool
  | .courseBoundary late => late.all UnitId.wf
  | .bondPeriodBoundary hot => hot.all (below 16)
  | .commitGo => true
  | .syncPulse _ => true
  | .syncPulseMissing => true
  | .syncWaitTimeout => true
  | .syncConflict => true
  | .refclkLost => true
  | .packageFault _ => true
  | .linkTraining port gen link => below 2 port && decide (1 ≤ gen) && below 7 gen &&
      decide (link.width ∈ [1, 2, 4, 8, 16]) && payloadOk link.mps && payloadOk link.mrrs
  | .perstAssert port => below 2 port
  | .sqTailDoorbell ctrl qid tail => ctrlOk ctrl && qidOk qid && half tail
  | .cqHeadDoorbell ctrl qid head => ctrlOk ctrl && qidOk qid && half head
  | .commandFetch fetch => fetch.h.wf && fetch.entry.wf
  | .completionPost h => h.wf
  | .flush h nsid => h.wf && nsidOk nsid
  | .write h nsid slba data _ => h.wf && nsidOk nsid && lbaOk slba && countOk data.length
  | .read h nsid slba nlb => h.wf && nsidOk nsid && lbaOk slba && countOk nlb
  | .compare h nsid slba data => h.wf && nsidOk nsid && lbaOk slba && countOk data.length
  | .writeZeroes h nsid slba nlb _ _ => h.wf && nsidOk nsid && lbaOk slba && countOk nlb
  | .datasetManagement h nsid _ ranges => h.wf && nsidOk nsid && decide (1 ≤ ranges.length) && below 257 ranges.length && ranges.all rangeOk
  | .verify h nsid slba nlb => h.wf && nsidOk nsid && lbaOk slba && countOk nlb
  | .copy h nsid format sdlba sources _ => h.wf && nsidOk nsid && below 16 format && lbaOk sdlba && decide (1 ≤ sources.length) && below 257 sources.length &&
      sources.all CopySource.wf
  | .identify h cns nsid => h.wf && byteOk cns && nsidOk nsid
  | .getLogPage h lid => h.wf && below 256 lid
  | .getFeatures h fid nsid => h.wf && below 256 fid && nsidOk nsid
  | .setFeatures h fid value => h.wf && below 256 fid && word32 value
  | .setFeaturesVolatileWriteCache h _ => h.wf
  | .setFeaturesInlineCompression h nsid _ => h.wf && nsidOk nsid
  | .setFeaturesDurability h nsid _ => h.wf && nsidOk nsid
  | .setFeaturesLatencyTolerance h cntlid _ => h.wf && half cntlid
  | .setFeaturesPowerManagement h _ => h.wf
  | .createIoSubmissionQueue h qid size cqid prio mem => h.wf && qidOk qid && word32 size && lbaOk mem.base && half cqid &&
      below 4 prio
  | .createIoCompletionQueue h qid size vector mem => h.wf && qidOk qid && word32 size && lbaOk mem.base && half vector
  | .deleteIoSubmissionQueue h qid => h.wf && qidOk qid
  | .deleteIoCompletionQueue h qid => h.wf && qidOk qid
  | .abort h sqid cid => h.wf && half sqid && half cid
  | .asynchronousEventRequest h => h.wf
  | .namespaceCreate h csi nsze ncap flbas desc => h.wf && byteOk csi && lbaOk nsze && lbaOk ncap && byteOk flbas && desc.wf
  | .namespaceDelete h nsid => h.wf && nsidOk nsid
  | .namespaceAttach h nsid _ => h.wf && nsidOk nsid
  | .namespaceDetach h nsid _ => h.wf && nsidOk nsid
  | .secondaryControllerOnline h cntlid => h.wf && half cntlid
  | .secondaryControllerOffline h cntlid => h.wf && half cntlid
  | .secondaryControllerAssign h cntlid _ _ => h.wf && half cntlid
  | .formatNvm h nsid _ _ _ _ => h.wf && nsidOk nsid
  | .firmwareImageDownload h piece => h.wf && lbaOk piece.offset && lbaOk piece.length
  | .firmwareCommit h ca fs => h.wf && below 8 ca && below 8 fs
  | .firmwareActivation => true
  | .nvmeMiSend h _ => h.wf
  | .nvmeMiReceive h => h.wf
  | .readNvmeMiDataStructure _ _ port ctrl => byteOk port && half ctrl
  | .nvmSubsystemHealthStatusPoll _ => true
  | .controllerHealthStatusPoll _ _ _ => true
  | .configurationGet _ _ => true
  | .configurationSet _ _ _ => true
  | .vpdRead _ _ _ => true
  | .miAdminTunnel _ _ => true
  | .controllerDisable ctrl => ctrlOk ctrl
  | .controllerEnable cc => cc.wf
  | .shutdown ctrl _ => ctrlOk ctrl
  | .shutdownComplete ctrl => ctrlOk ctrl
  | .nvmSubsystemReset => true
  | .functionLevelReset ctrl => ctrlOk ctrl
  | .flrComplete ctrl => ctrlOk ctrl
  | .atsInvalidate _ _ => true
  | .create h _ _ desc => h.wf && desc.wf
  | .resize h _ desc => h.wf && desc.wf
  | .setMode h _ _ => h.wf
  | .quiesce h _ => h.wf
  | .quiescedReached ti => tiOk ti
  | .resume h _ => h.wf
  | .freeze h _ => h.wf
  | .reset h _ => h.wf
  | .remove h _ _ => h.wf
  | .restore h _ session _ desc _ => h.wf && byteOk session && desc.wf
  | .migSend h session _ => h.wf && byteOk session
  | .get h _ => h.wf
  | .save h _ session => h.wf && byteOk session
  | .migRecv h session => h.wf && byteOk session
  | .generate h slot _ => h.wf && half slot
  | .importKey h slot _ _ _ => h.wf && half slot
  | .zeroize h slot => h.wf && half slot
  | .bind h slot nsid => h.wf && half slot && nsidOk nsid
  | .importKek h _ session _ _ => h.wf && byteOk session
  | .status h slot => h.wf && half slot
  | .slotRetiringEnd slot => below 4608 slot
  | .settingsStore h => h.wf
  | .nvStoreGo => true
  | .storeDone badPages _ => below 321 badPages
  | .storeTokenRefill => true
  | .store h nsid key _ _ _ _ => h.wf && nsidOk nsid && key.wf
  | .ingestIdleTimeout nsid key => nsidOk nsid && key.wf
  | .retrieve h nsid key _ size _ => h.wf && nsidOk nsid && key.wf && word32 size
  | .delete h nsid key => h.wf && nsidOk nsid && key.wf
  | .exist h nsid key => h.wf && nsidOk nsid && key.wf
  | .list h nsid key size => h.wf && nsidOk nsid && key.wf && word32 size
  | .objectExport h nsid size _ _ => h.wf && nsidOk nsid && word32 size
  | .exportPinTimeout nsid _ _ => nsidOk nsid
  | .loadProgram h nsid index _ _ _ _ => h.wf && nsidOk nsid && half index
  | .programActivationManagement h nsid index _ => h.wf && nsidOk nsid && half index
  | .executeProgram h nsid index ranges _ _ => h.wf && nsidOk nsid && half index && ranges.all MemRange.wf
  | .invocationLimitExpiry _ => true
  | .invocationComplete _ _ _ => true
  | .memoryRead h nsid offset length => h.wf && nsidOk nsid && lbaOk offset && lbaOk length
  | .memoryWrite h nsid offset _ => h.wf && nsidOk nsid && lbaOk offset
  | .memoryCopy h nsid offset src => h.wf && nsidOk nsid && lbaOk offset && src.wf
  | .doeDiscovery port index => below 2 port && byteOk index
  | .getVersion t => t.wf
  | .getCapabilities t _ => t.wf
  | .negotiateAlgorithms t _ => t.wf
  | .getDigests t => t.wf
  | .getCertificate t slot _ _ => t.wf && below 16 slot
  | .challenge t slot _ => t.wf && below 16 slot
  | .getMeasurements t index _ _ => t.wf && byteOk index
  | .keyExchange t _ => t.wf
  | .finish t session _ => t.wf && byteOk session
  | .heartbeat t session => t.wf && byteOk session
  | .keyUpdate t session _ => t.wf && byteOk session
  | .endSession t session => t.wf && byteOk session
  | .getEncapsulatedRequest t session => t.wf && byteOk session
  | .deliverEncapsulatedResponse t session _ => t.wf && byteOk session
  | .spdmUnsupportedRequest t _ => t.wf
  | .sliceFormat slice _ => sliceOk slice
  | .sliceFormatDone slice _ => sliceOk slice
  | .evacuationGo slice lun _ => sliceOk slice && below 512 lun
  | .evacuationDone slice => sliceOk slice
  | .streamAgeTrigger slice wslot => sliceOk slice && below 65536 wslot
  | .flashPageAgeTimeout slice _ => sliceOk slice
  | .programConfirmed slice lun => sliceOk slice && below 512 lun
  | .programFailed slice lun block row => sliceOk slice && below 512 lun && half block && half row
  | .eraseFailed slice lun block => sliceOk slice && below 512 lun && half block
  | .readPassDone slice cluster wslot index pass => sliceOk slice && below 4 cluster && below 65536 wslot && below 256 index && pass.wf
  | .patrolDue slice _ _ => sliceOk slice
  | .lunHealthEval slice lun _ _ => sliceOk slice && below 512 lun
  | .operationTimeout slice lun _ => sliceOk slice && below 512 lun
  | .devWearRateUpdate => true
  | .channelDiscovery slice ch _ _ => sliceOk slice && below 8 ch
  | .flashRetrain slice ch _ => sliceOk slice && below 8 ch
  | .flashZqShortDue slice => sliceOk slice
  | .lunPollDue slice lun _ => sliceOk slice && below 512 lun
  | .counterGroupStore => true
  | .groupStoreDone => true
  | .entropyFail => true
  | .entropyRetest _ => true
  | .cipherOpDone slice _ _ => sliceOk slice
  | .compressOpDone slice _ _ => sliceOk slice
  | .search slice array part _ _ _ => sliceOk slice && below 2 array && below 16 part
  | .searchBatch slice array part _ _ _ _ _ _ => sliceOk slice && below 2 array && below 16 part
  | .invalidate slice array part _ _ => sliceOk slice && below 2 array && below 16 part
  | .entryWrite slice array part _ _ _ _ _ => sliceOk slice && below 2 array && below 16 part
  | .validate slice array part _ _ => sliceOk slice && below 2 array && below 16 part
  | .resultWrite slice array part _ _ _ => sliceOk slice && below 2 array && below 16 part
  | .entryRead slice array part _ _ => sliceOk slice && below 2 array && below 16 part
  | .searchResponse slice array cluster wslot index => sliceOk slice && below 2 array && below 4 cluster && below 65536 wslot && below 256 index
  | .alloc it _ _ _ _ _ _ => it.wf
  | .send it wslot index _ _ => it.wf && below 65536 wslot && below 256 index
  | .arm it wslot index _ => it.wf && below 65536 wslot && below 256 index
  | .emit it desc => it.wf && desc.wf
  | .release it => it.wf
  | .continueRun it _ => it.wf
  | .endRun it _ => it.wf
  | .ctxAlloc it _ _ => it.wf
  | .ctxFree it _ => it.wf
  | .flowOpen it => it.wf
  | .flowClose it _ => it.wf
  | .operandArrival slice cluster wslot index _ => sliceOk slice && below 4 cluster && below 65536 wslot && below 256 index
  | .budgetExpiry it => it.wf
  | .protectionFault it => it.wf
  | .delayEntryDue slice cluster wslot index => sliceOk slice && below 4 cluster && below 65536 wslot && below 256 index
  | .hostDmaBeat _ => true
  | .busError ch _ _ => below 32 ch
  | .probeComplete _ _ _ => true
  | .hdChCtlWrite ch _ => below 32 ch
  | .sliceDmaDone slice ch cluster wslot index _ => sliceOk slice && below 16 ch && below 4 cluster && below 65536 wslot && below 256 index
  | .dramChannelStart slice ch _ _ => sliceOk slice && below 2 ch
  | .dramRefresh _ => true
  | .dramZqCal => true
  | .dramRetrainDue slice ch => sliceOk slice && below 2 ch
  | .dramRetrain slice ch => sliceOk slice && below 2 ch
  | .retrainHoldExpiry slice ch => sliceOk slice && below 2 ch
  | .dramRetrainDone slice ch _ => sliceOk slice && below 2 ch
  | .mergeEntryTimeout slice ch _ _ => sliceOk slice && below 2 ch
  | .scrubGo slice => sliceOk slice
  | .scrubStop slice => sliceOk slice
  | .scrubDone slice _ _ => sliceOk slice
  | .digestOpen inst _ alg hmac _ dest => inst.wf && byteOk alg && (hmac.all (below 4608)) && dest.wf
  | .digestData inst _ _ => inst.wf
  | .digestIdleTimeout inst => inst.wf
  | .measExtend => true
  | .measExtendDone => true
  | .sagDetect => true
  | .sagEnd _ => true
  | .brownOut => true
  | .surgeRecorded => true
  | .surgeTrip => true
  | .senseFault _ _ => true
  | .controlLoopSample _ _ => true
  | .feTrip loop => below 16 loop
  | .thermalTrip sensor => below 16 sensor
  | .supervisorStep => true
  | .chargeTimeout => true
  | .holdupClear => true
  | .measureRequest => true
  | .capacitanceMeasureDue => true
  | .capacitanceMeasureEnd _ _ _ => true
  | .flushRateUpdate => true
  | .loopClose loop _ => below 16 loop
  | .loopOpen loop => below 16 loop
  | .dumpComplete _ => true
  | .downSupplyGood => true
  | .bankExhausted => true
  | .powerStateEntry => true
  | .powerStateExit _ => true
  | .resetNRise => true
  | .resetNFall => true
  | .imageVerified => true
  | .sliceRebuild slice => sliceOk slice
  | .sliceRebuildDone slice _ => sliceOk slice
  | .sliceLate slice => sliceOk slice
  | .startWatchdog => true
  | .hubFault => true
  | .startSuccess => true
  | .minuteTick => true
  | .recorderBinning _ => true
  | .recorderFreeze => true
  | .recorderThaw => true
  | .recorderAutoThaw => true
  | .onlineTestGo kind slice number => byteOk kind && byteOk slice && byteOk number
  | .onlineTestDone _ => true
  | .faultFence u _ => u.wf
  | .sliceOfflineRequest slice => sliceOk slice
  | .sliceLinkFail slice => sliceOk slice
  | .jtagInstruction _ => true
  | .tapReset => true
  | .debugUnlock _ => true
  | .loRegisterRead addr => windowOk addr && aligned addr
  | .unsupportedWidthAccess addr _ _ => windowOk addr
  | .reservedAccess addr _ => windowOk addr
  | .registerWrite addr _ => windowOk addr && aligned addr
  | .powerLostWithoutDump => true
  | .unsupportedOpcode h op => h.wf && byteOk op.opcode && byteOk op.action
  | .dynamicAddressAssignment _ => true
  | .smbusClockLowTimeout => true
  | .msiXTableWrite ctrl _ _ _ _ => ctrlOk ctrl

end Sys2Proof
end

