-- ==== Sys2Proof/Decode.lean ====
section
/-!
DEFINITION. The commands that words spell. spec/opcode_table.json gives no row any bits (its "fields" are empty), so no
word spells a command and the answer is always none (log entry 10).
-/

namespace Sys2Proof

/-- A row of the table that gives bits: width, the bits that are fixed, and the command. -/
structure TableRow where
  nbits : Nat
  mask : Nat
  bits : Nat
  cmd : Instr
  deriving DecidableEq, Repr

/-- The rows of the table that give bits: none. -/
def tableRows : List TableRow := []

/-- The command that a word of nbits bits spells by the table's bits. -/
def decodeTableWord (nbits w : Nat) : Option Instr :=
  (tableRows.find? fun r => r.nbits == nbits && (w &&& r.mask) == r.bits).map TableRow.cmd

end Sys2Proof
end

