-- ==== Sys2Proof/Config.lean ====
section
/-!
DEFINITION. The free values of the model: what the spec leaves open, or names by an outside standard without stating
its values. None has a body, so no proof can see what it is.
-/

namespace Sys2Proof

/-- A free value: the n-th value that the spec leaves open (log entry 4). -/
opaque Config.freeNat : Nat → Nat

/-- The n-th 256-bit output of the DRBG of R186 (log entry 5). -/
opaque Config.drbg : Nat → Key

/-- SHA-384 (FIPS 180-4), named by R309 and R317; the spec does not state its values (log entry 6). -/
opaque Config.sha384 : List Byte → Digest384

/-- The digest of ALG over a message (R309); HMAC (R314) when a key is given (log entry 6). -/
opaque Config.digest : Nat → Option Key → List Byte → List Byte

/-- xxh64 with seed 0 (R254); the spec names the function without stating it (log entry 6). -/
opaque Config.xxh64 : List Byte → BitVec 64

/-- RFC 3394 unwrap under a KEK: the key, or nothing when the integrity check fails (R187; log entry 6). -/
opaque Config.unwrap : Key → List Byte → Option Key

/-- RFC 3394 wrap of a key under a key (R91; log entry 6). -/
opaque Config.wrap : Key → Key → List Byte

/-- AES-256 of one block (FIPS 197), named by R166 without being stated (log entry 6). -/
opaque Config.aes256 : Key → BitVec 128 → BitVec 128

/-- A value of the mask generator of a cipher unit from its seed: the spec names no generator (R178; log entry 47). -/
opaque Config.mask : Key → Nat → BitVec 256

/-- What the dummy-round generator of a byte-serial unit draws for a block (R180; log entry 47). -/
opaque Config.dummyDraw : Key → Nat → Nat

/-- The compressed length of a mapping unit as a storage frame (R192); the encoder's output is not stated (log entry 7). -/
opaque Config.frameLen : List Block → Nat

/-- Whether the paired decompressor finds a differing byte in the frame of a unit (R194, R195; log entry 7). -/
opaque Config.verifyDiffers : Nat → List Block → Bool

/-- ECDSA P-384 signature bytes over a message by the Alias key (R320, R321; log entry 6). -/
opaque Config.sign : List Byte → BitVec 768

/-- SHA-384 of a record whose fields the spec names and whose layout it leaves open: the kind of record and its fields (R317;
log entry 6). -/
opaque Config.recordDigest : Nat → List Nat → Digest384

/-- Bytes of slice DRAM that context backing and the device area take; the spec states no size (R249; log entry 16). -/
opaque Config.deviceAreaBytes : Nat

/-- Where a write-buffer slot's copies lie in slice DRAM, as a byte address within a channel: the spec gives the buffer no place (R106; log
entry 31). -/
opaque Config.slotBase : Nat → Nat

/-- Usable data rate per direction of a x16 link of Gen1 to Gen3, in bytes per second, which the spec does not state (R40; log entry
57). -/
opaque Config.linkRate : Nat → Nat

/-- The 99th percentile in ns of the pSLC program times that a slice has measured at a course count (R329; log entry 12). -/
opaque Config.pslcT99 : Nat → Nat → Nat

/-- The Asynchronous Event Request Limit, which the spec does not state (R70; log entry 8). -/
opaque Config.aerl : Nat

/-- The key hash under which the signature of a native image holds, if one does (R248; log entry 6). -/
opaque Config.nativeSigner : List Byte → Option Digest384

/-- Is the header of a native image, whose layout the spec leaves open, valid (R248; log entry 65)? -/
opaque Config.nativeHeaderOk : List Byte → Bool

/-- Bytes of the slot 0 chain, which carries MEAS_00 to MEAS_05; the spec gives neither its bytes nor its length (R321; log entry 6). -/
opaque Config.chainByte : List Digest384 → Nat → Byte

/-- Length of the slot 0 chain (R321; log entry 6). -/
opaque Config.chainLen : Nat

/-- The status code that the Computational Programs command set defines for an index without an activated program (R241; log entry 8). -/
opaque Config.unavailableCode : Nat

/-- The NVMe Qualified Name of the NVM subsystem of a package, as a number of 256 bytes (R43; log entry 8). -/
opaque Config.subNqn : BitVec 64 → Nat

/-- A byte of an answer whose content the spec names by an outside standard only (log entry 8). -/
opaque Config.standardByte : Nat → Nat → Byte

/-- The fields (byte offset, length, value) by which the SMART log reports that the wear quotas exceed DEV_WEAR_RATE by some MiB an hour (R84; log
entry 43). -/
opaque Config.smartWearFall : Nat → List (Nat × Nat × Nat)

/-- Quarter nanoseconds that a DRAM piece costs beyond its data phase when its row is not open, and that closing every bank costs at the end of a
position; the spec names both and states no figure (R288, R289; log entry 54). -/
opaque Config.dramMiss : Nat

/-- Quarter nanoseconds of the precharge that ends a position (R289; log entry 54). -/
opaque Config.dramClose : Nat

/-- Quarter nanoseconds after the data phase of a piece, of a write or a read, before a refresh may follow: write recovery and precharge
(R287, R292; log entry 54). -/
opaque Config.dramTail : Bool → Nat

/-- Where an invocation's copy of the parameters and its stack stand in the addresses of an eBPF program, which the spec leaves open (R246; log entry
51). -/
opaque Config.bpfPlace : Nat → Nat → Nat

/-- A byte of an eBPF stack that nothing has stored to, by invocation and address (R245; log entry 51). -/
opaque Config.bpfByte : Nat → Nat → Byte

/-- Core cycles beyond one of a translated instruction, by its opcode: the spec states no figure (R246; log entry 51). -/
opaque Config.bpfCycles : Nat → Nat

/-- An own parameter of a device-defined program, by index and number of the parameter: the spec names them and gives their places no offset
(R251; log entry 52). -/
opaque Config.ownParam : Nat → Nat → List Byte → Nat

/-- The patterns that the parameters of PATTERN_SEARCH give (R251; log entry 52). -/
opaque Config.patterns : List Byte → List (List Byte)

/-- The bytes of an output whose content the spec leaves open, by program index, the parameters and input it comes from, and a number (R251; log entry
52). -/
opaque Config.programOutput : Nat → List Byte → List Byte → Nat → List Byte

end Sys2Proof
end

