-- ==== Sys2Proof/Machine/Types.lean ====
section
/-!
DEFINITION. The parts of the state, as plain data: one structure for each thing the spec gives the package. A list of
pairs keyed by a number is sparse: it lists only the numbers whose value differs from the one an unlisted number has.
-/

namespace Sys2Proof.Machine

/-- The orderable parts (R1). -/
inductive Part where
  | yarrow | vetch | tansy
  deriving DecidableEq, Repr

/-! ### Host side: controllers, queues, commands -/

/-- A status of a completion (R70, R71, R264). -/
structure Status where
  sct : Nat
  sc : Nat
  dnr : Bool
  deriving DecidableEq, Repr

/-- What a command returns to the host: data fields are (byte offset, length in bytes, value); a block that failed is none. -/
inductive Data where
  | none
  | blocks (bs : List (Option Block))
  | bytes (bs : List Byte)
  | fields (fs : List (Nat × Nat × Nat))
  | words (ws : List Word)
  | blob (b : Blob)
  | spdm (m : SpdmMsg)
  deriving DecidableEq, Repr

/-- The content of a completion; nsid, lba and info are what its Error Information entry gives when it fails (R61, R421). -/
structure Answer where
  status : Status
  dw0 : Nat
  dw1 : Nat
  data : Data
  nsid : Nat
  lba : Nat
  info : Int
  deriving DecidableEq, Repr

/-- What a command in flight still waits for. -/
inductive Cond where
  /-- the version in this write-buffer slot is programmed and its entry switched (R56, R57) -/
  | programmed (slice wslot : Nat)
  /-- the flash pages that it reads in a slice have come (R23, R163) -/
  | sensed (slice : Nat)
  /-- the course count reaches this value (R79, R85) -/
  | course (n : Nat)
  /-- a division or mode is applied at a bond period boundary (R79, R82) -/
  | division
  /-- a key slot leaves RETIRING (R184) -/
  | slotActive (slot : Nat)
  /-- the Store ends (R364) -/
  | store
  /-- an event is reported on it (R61) -/
  | event
  /-- the invocation ends (R244) -/
  | invocation (n : Nat)
  /-- more room: of the buffer (R127, R333), the wear allowance (R83) or a digest place (R260) -/
  | room
  deriving DecidableEq, Repr

/-- The life of a command in a command slot (R47, R69). -/
inductive Phase where
  | fetched | held | dispatched | ended
  deriving DecidableEq, Repr

/-- A block that a write put into a version: its number in the write's data, slice, slot and block within the unit, what was there before and what
the write put there, and the block of a deferred-fault range that it left (R63, R278). -/
structure Undo where
  ix : Nat
  slice : Nat
  wslot : Nat
  block : Nat
  old : Option Block
  new : Block
  range : Option (Nat × Nat)
  deriving DecidableEq, Repr

/-- A command that the hub has fetched and neither completed nor discarded (R47, R86): its order number at fetch, what its entry named,
what its completion still waits for, its answer, the blocks it put into versions (slice, slot, blocks) and what they replaced while its data
arrive (R278), its completion queue, the first
block of the lowest-addressed part that has failed (R55), and whether it is an Abort (R69). -/
structure InFlight where
  hdr : Hdr
  cqid : Nat
  phase : Phase
  fetchedAt : Nat
  entry : SqEntry
  conds : List Cond
  answer : Answer
  wrote : List (Nat × Nat × List Nat)
  undo : List Undo
  failLba : Option Nat
  isAbort : Bool
  deriving DecidableEq, Repr

/-- An entry of the Error Information log (R61, R422). -/
structure ErrEntry where
  count : Nat
  sqid : Nat
  cid : Nat
  status : Status
  lba : Nat
  nsid : Nat
  info : Int
  deriving DecidableEq, Repr

/-- A submission queue: entries fetched up to head, rung up to tail; recorded holds a tail rung while fetch is stopped (R85); base is its
address in host memory. -/
structure SubQ where
  qid : Nat
  size : Nat
  base : Nat
  cqid : Nat
  prio : Nat
  head : Nat
  tail : Nat
  recorded : Option Nat
  deriving DecidableEq, Repr

/-- A completion queue, with the entries posted and not yet released by the head doorbell. -/
structure ComQ where
  qid : Nat
  size : Nat
  base : Nat
  vector : Nat
  head : Nat
  tail : Nat
  phase : Bool
  entries : List (Hdr × Answer)
  deriving DecidableEq, Repr

/-- An asynchronous event: type, information and log page. -/
structure AsyncEvent where
  etype : Nat
  info : Nat
  log : Nat
  deriving DecidableEq, Repr

/-- One MSI-X vector (R388). -/
structure Msix where
  vector : Nat
  masked : Bool
  addr : Nat
  data : Nat
  pending : Bool
  deriving DecidableEq, Repr

/-- The arbitration among a controller's submission queues (R46): the queue served last, the commands left of its burst, and the credits
left of the high, medium and low class in the running round. -/
structure Arb where
  last : Nat
  left : Nat
  high : Nat
  medium : Nat
  low : Nat
  deriving DecidableEq, Repr

/-- One NVMe controller (R43 to R46). flr is the course in which a Function Level Reset of it that is in progress began (R88). -/
structure Ctrl where
  id : Nat
  en : Bool
  rdy : Bool
  shn : Nat
  shst : Nat
  ams : Nat
  mps : Nat
  css : Nat
  arb : Arb
  flr : Option Nat
  wce : Bool
  features : List (Nat × Nat)
  latency : Nat
  sqs : List SubQ
  cqs : List ComQ
  msix : List Msix
  events : List AsyncEvent
  errLog : List ErrEntry
  errCount : Nat
  blocksRead : Nat
  blocksWritten : Nat
  readCmds : Nat
  writeCmds : Nat
  mediaErrors : Nat
  deriving DecidableEq, Repr

/-- A PCIe link of a port (R40), with Max_Payload_Size and Max_Read_Request_Size in bytes as the host programmed them, and the uncorrectable
internal errors that the port has reported (R41). -/
structure Link where
  up : Bool
  gen : Nat
  width : Nat
  mps : Nat
  mrrs : Nat
  nonFatal : Nat
  fatal : Nat
  deriving DecidableEq, Repr

/-- The four namespace kinds (R48). -/
inductive NsKind where
  | block | object | computational | memory
  deriving DecidableEq, Repr

/-- The part of a namespace in one slice: table range (R100), reserved blocks (R132), index range (R255), memory range (R249). -/
structure NsPart where
  slice : Nat
  base : Nat
  len : Nat
  reserved : Nat
  bucketBase : Nat
  memBase : Nat
  deriving DecidableEq, Repr

/-- A downloaded program (R240, R241). -/
structure Program where
  index : Nat
  ptype : ProgType
  total : Nat
  image : List Byte
  verified : Bool
  active : Bool
  deriving DecidableEq, Repr

/-- A namespace (R51) with its metadata: bound key slot (R423), durability (R341), inline compression (R196), attachments (R73); lastOwner
is whom a memory namespace was last attached to (R249). -/
structure Namespace where
  nsid : Nat
  kind : NsKind
  size : Nat
  desc : CreateDesc
  parts : List NsPart
  slot : Option Nat
  through : Bool
  compress : Bool
  attachedTis : List Nat
  attachedPfs : List Nat
  lastOwner : Option Nat
  programs : List Program
  deriving DecidableEq, Repr

/-! ### Tenant instances -/

/-- States of a tenant (R74). -/
inductive TiState where
  | absent | offline | online | quiescing | quiesced | frozen
  deriving DecidableEq, Repr

/-- A tenant (R73, R77, R78, R83). next is a change of state that waits for a course boundary (R74, R85). -/
structure Tenant where
  ti : Nat
  state : TiState
  isSealed : Bool
  wbq : Nat
  ctxq : Nat
  wiq : Nat
  dgMask : Nat
  keyBase : Nat
  keyCount : Nat
  wearBurst : Nat
  wearRate : Nat
  lunsets : Nat
  vq : Nat
  vi : Nat
  saved : Bool
  allowance : Rat
  wearLimited : Bool
  next : Option (Nat × TiState)
  deriving DecidableEq, Repr

/-- A division or mode change that waits for its bond period boundary (R79, R82). -/
inductive TenantAct where
  | create (ti : Nat) (isSealed : Bool) (d : TenantDesc)
  | resize (ti : Nat) (d : TenantDesc)
  | setMode (ti : Nat) (isSealed : Bool)
  deriving DecidableEq, Repr

/-- A pending action: its command, what it does, whether it commits the bond banks, and the course at which it applies. -/
structure Deferred where
  hdr : Hdr
  act : TenantAct
  commits : Bool
  due : Nat
  deriving DecidableEq, Repr

/-- An action on a slot that waits for the end of RETIRING (R184): a new key for Format NVM, or the slot emptied. -/
structure SlotWait where
  slot : Nat
  format : Bool
  deriving DecidableEq, Repr

/-- A migration session of this package (R76, R90). -/
structure MigSession where
  number : Nat
  requester : Bool
  established : Bool
  progress : Nat
  peerId : BitVec 64
  key : Option Key
  outbox : List SpdmMsg
  deriving DecidableEq, Repr

/-! ### Course and bond table -/

/-- The verdict of a bond check (R35). -/
structure Verdict where
  result : Nat
  cell : Nat
  ti : Nat
  tiValid : Bool
  deriving DecidableEq, Repr

/-- A commit that waits for its boundary (R34): course at which it applies, verdict of the check once made. -/
structure Commit where
  due : Nat
  verdict : Option Verdict
  deriving DecidableEq, Repr

/-- The host-DMA row in the running course (R268 to R270, R31): the first hub-fabric cycle that no beat boundary has used, the transfers
that returned to the SLOT channels of entry A and of entry B, the DEVICE beats from and to the host, the beats of each pool user, and the
channel of each that moved last. User none is physical function 0 and the device. -/
structure HostRow where
  cycle : Nat
  backA : Nat
  backB : Nat
  deviceIn : Nat
  deviceOut : Nat
  used : List (Option Nat × Nat)
  last : List (Option Nat × Nat)
  deriving DecidableEq, Repr

/-- The course generator and COURSE_SYNC (R20, R21, R34, R37 to R39). hubSeed is the seed of the generator of the hub byte-serial unit, which a
course boundary renews (R180). trim lengthens or shortens the running course, phase is the phase error
that is left, lastLen the length of the course before, all in steps of 625 ps; refreshed counts the REFab points of the running course
(R292). -/
structure Course where
  running : Bool
  count : Nat
  bondAt : Nat
  commit : Option Commit
  syncCtl : Option Word
  trim : Int
  good : Nat
  phase : Int
  lastLen : Nat
  refreshed : Nat
  devwgt : Word
  devwgtH : Word
  hubSeed : Key
  host : HostRow
  cuts : List (Nat × Nat)
  deriving DecidableEq, Repr

/-! ### Translation layer -/

/-- Cell modes (R101, R104). -/
inductive CellMode where
  | pslc | tlc | qlc
  deriving DecidableEq, Repr

/-- A media pool of a slice: the slice's own, or the LUN sets of one Sealed tenant (R105). -/
inductive Pool where
  | slice
  | tenant (ti : Nat)
  deriving DecidableEq, Repr

/-- A mapping entry (R101). -/
inductive Entry where
  | unmapped
  | flash (lun cw offset span : Nat) (comp : Bool)
  | buffer (wslot : Nat)
  | zero
  | faulted
  | lost (lun cw : Nat)
  deriving DecidableEq, Repr

/-- States of a write-buffer slot (R106). STREAMING has the stages in which the flash blocks that the version lacks are read (R107), it is
compressed and verified (R193, R194), it is encrypted (R167), and it is programmed. -/
inductive WbState where
  | wopen | filling | compressing | sealing | streaming
  deriving DecidableEq, Repr

/-- One version in the write buffer (R106): the blocks it holds, who wrote it, what is acknowledged (R128), the entry it
stands over, and once streaming the local region of its target, its superblock and the place there, counter value, key and stored form (objRec: an
object record, R257). dead: the unit was deallocated or zeroed while the version streamed. -/
structure Version where
  wslot : Nat
  nsid : Nat
  lua : Nat
  index : Nat
  blocks : List (Nat × Block)
  lostMap : Nat
  acked : List Nat
  ackAt : Option Nat
  writer : Nat
  openedAt : Nat
  state : WbState
  through : Bool
  trigger : Bool
  restored : Bool
  attempts : Nat
  tried : List Nat
  grout : Bool
  dead : Bool
  region : Nat
  sb : Nat
  start : Nat
  under : Entry
  wseq : BitVec 64
  keySlot : Nat
  keyGen : Nat
  comp : Bool
  slen : Nat
  objRec : Bool
  chans : List Nat
  deriving DecidableEq, Repr

/-- A stored unit on flash (R111): where it lies (its superblock and its first byte in the data sequence with it), its header, the plaintext that
its ciphertext stands for, who wrote it, and what is wrong with its medium. -/
structure StoredUnit where
  lun : Nat
  cw : Nat
  offset : Nat
  span : Nat
  start : Nat
  writer : Nat
  nsid : Nat
  lua : Nat
  wseq : BitVec 64
  slen : Nat
  format : Nat
  lostMap : Nat
  keySlot : Nat
  keyGen : Nat
  blocks : List (Nat × Block)
  object : Option Nat
  tagOk : Bool
  readable : Bool
  sb : Nat
  deriving DecidableEq, Repr

/-- States of a superblock (R105). -/
inductive SbState where
  | sopen | closed | verifying | verified | victim | recovering
  deriving DecidableEq, Repr

/-- A superblock (R104, R105, R114): group, pool, profile; the active positions, as sets with the row from which each holds; the blocks it took;
the bytes packed into its data sequence; the pages given to the flash (due of them, waiting those not yet confirmed) and those lost (R115); the
grout, as (first byte, bytes) (R112); and the next page that verification reads. -/
structure Superblock where
  seq : Nat
  group : Nat
  pool : Pool
  mode : CellMode
  rate : Nat
  forGc : Bool
  landing : Bool
  state : SbState
  sets : List (Nat × List Nat)
  blocks : List (Nat × Nat)
  rows : Nat
  fill : Nat
  filledAt : Nat
  due : Nat
  waiting : List Nat
  lost : List Nat
  grouts : List (Nat × Nat)
  parityHeld : Bool
  closedAt : Nat
  verifyAt : Nat
  patrolAt : Nat
  deriving DecidableEq, Repr

/-- The parity page of a die stripe (R114): the superblock, the set of positions and the stripe; the LUN and block that hold it, its first pSLC
page and its pSLC pages (R155). -/
structure ParityPage where
  sb : Nat
  seg : Nat
  k : Nat
  lun : Nat
  block : Nat
  page : Nat
  count : Nat
  deriving DecidableEq, Repr

/-- What a block that is kept back serves (R126, R130, R417). -/
inductive ResUse where
  | landing | parity | metadata
  deriving DecidableEq, Repr

/-- A block kept back from ordinary writes: the pSLC pages used since its erase, and whether it is erased (R126, R417). -/
structure ResBlock where
  lun : Nat
  block : Nat
  use : ResUse
  fill : Nat
  ready : Bool
  deriving DecidableEq, Repr

/-- A relocation in progress (R110, R113): the unit, its target superblock and place there once its source is read, and the groups that failed
it (R120). -/
structure Move where
  key : Nat
  unit : StoredUnit
  target : Option (Nat × Nat)
  tried : List Nat
  deriving DecidableEq, Repr

/-- An array operation of a flash channel (R149). -/
inductive FlOp where
  | read | program | erase
  deriving DecidableEq, Repr

/-- What an array operation serves: a page of a superblock, a page of a stripe's parity, the erase of a superblock's block or of a block kept
back, a metadata superblock, a command's read, the fill of a version, a relocation, verification and patrol. -/
inductive FlFor where
  | page (sb page : Nat)
  | parity (sb seg k : Nat)
  | block (sb : Nat)
  | reserve
  | metadata
  | command (h : Hdr)
  | fill (wslot : Nat)
  | move (key : Nat)
  | verify (sb : Nat)
  | patrol (sb : Nat)
  deriving DecidableEq, Repr

/-- Where an array operation stands (R149 to R151, R162, R164): waiting for its command; data being transferred in; the array busy, or
suspended; ended, with what its last poll reported; data being transferred out. -/
inductive FlStage where
  | queued | input | busy | suspended | ended (ok : Bool) | output
  deriving DecidableEq, Repr

/-- An array operation in a channel's queue (R23, R149 to R151, R161 to R164): its number, which is its age, its LUN, block and flash page, cell
mode and LDPC rate, what it serves and for which pool user (none: the device), the course in which it was accepted, the bursts left of its
transfer and the window in which that is paused, when the array's nominal time ends (steps of 1/1152 ns from course 0), the course of its
next poll and what that reports, its suspends, and the read level at which it starts (R159). -/
structure FlWork where
  id : Nat
  lun : Nat
  block : Nat
  row : Nat
  op : FlOp
  mode : CellMode
  rate : Nat
  why : FlFor
  user : Option Nat
  since : Nat
  left : Nat
  stage : FlStage
  pausedIn : Option Nat
  busyAt : Nat
  pollAt : Nat
  polled : Option PollRes
  suspends : Nat
  level : Nat
  deriving DecidableEq, Repr

/-- What a slice's flash channels hold (R145, R146, R150, R165): the queues of array operations, the volumes that discovery found on a channel
and whether it trained, the trained rates, the channels whose retraining is requested, and the pSLC programs seen since the start (R329). -/
structure FlashState where
  works : List FlWork
  nextWork : Nat
  found : List (Nat × List VolumeId × Bool)
  rates : List (Nat × Nat)
  retrain : List Nat
  pslcSeen : Nat
  deriving DecidableEq, Repr

/-- A metadata superblock (R130, R417): its blocks, its fill, and the segments that it holds as (pass, first, last). -/
structure MetaSuper where
  seq : Nat
  blocks : List (Nat × Nat)
  fill : Nat
  spans : List (Nat × Nat × Nat)
  deriving DecidableEq, Repr

/-- States of an index entry (R255). -/
inductive KeyState where
  | live | tomb | pending
  deriving DecidableEq, Repr

/-- An entry of the object index (R255), keyed by 4 × bucket + entry; an unlisted place is FREE. -/
structure IndexEntry where
  nsid : Nat
  key : KvKey
  state : KeyState
  version : BitVec 16
  record : Nat
  deriving DecidableEq, Repr

/-- One appended record of the delta journal (R110, R130, R256): a mapping switch, a place of the object index and what stands there (none: FREE),
an LUA allocated to an ingest. -/
inductive Delta where
  | switch (index : Nat) (e : Entry)
  | indexEntry (place : Nat) (e : Option IndexEntry)
  | ingestLua (ingest index : Nat)
  deriving DecidableEq, Repr

/-- The persisted form of a slice's mapping (R99, R128, R130, R131): the entries of the latest checkpoint segments as they lie in metadata
superblocks, and those of the index, the pass under way and its next segment, those superblocks, what a landing put on flash beside the buffer (the
delta journal), and the table cache of a paged slice: segments, latest use first, hits and lookups of the running second. -/
structure MapStore where
  saved : List (Nat × BitVec 48)
  savedIndex : List (Nat × IndexEntry)
  pass : Nat
  seg : Nat
  supers : List MetaSuper
  landedDeltas : Option (List Delta)
  cache : List Nat
  hits : Nat
  lookups : Nat
  deriving DecidableEq, Repr

/-- A block of a LUN: wear fraction (R123), reads since erase (R124), last mode and rate, the last read level that succeeded (R159),
retirement. -/
structure BlockInfo where
  lun : Nat
  block : Nat
  wear : Rat
  reads : Nat
  mode : Option CellMode
  rate : Nat
  level : Nat
  retired : Bool
  marked : Bool
  deriving DecidableEq, Repr

/-- LUN health (R136). -/
inductive Health where
  | good | watch | warn | failed | evacuated
  deriving DecidableEq, Repr

/-- A LUN: presence, health, its retired blocks and failures, array activity (R136, R147, R148). cause holds CAUSE of its entry in
the exposure log. -/
structure Lun where
  lun : Nat
  active : Bool
  health : Health
  withdrawn : Bool
  goodAtFormat : Nat
  retired : Nat
  failedBlocks : List (Nat × Nat)
  verifyFails : List Nat
  uncorrRun : Nat
  uncorrBlocks : List Nat
  timeouts : Nat
  lostBytes : Nat
  changedAt : Nat
  cause : Nat
  deriving DecidableEq, Repr

/-- An object record (R257). -/
structure ObjRecord where
  id : Nat
  nsid : Nat
  key : KvKey
  alg : Nat
  version : BitVec 16
  value : List Byte
  luas : List Nat
  recordLua : Nat
  digest : List Byte
  commitCourse : Nat
  deriving DecidableEq, Repr

/-- An open ingest (R258). -/
structure Ingest where
  id : Nat
  nsid : Nat
  key : KvKey
  owner : Nat
  ctrl : Nat
  slice : Nat
  total : Nat
  nextSeg : Nat
  value : List Byte
  luas : List Nat
  digestInst : Option Nat
  hadOld : Bool
  deriving DecidableEq, Repr

/-- A pinned version of a bulk export stream (R265, R266): the stream is its namespace, slice index and END_BUCKET; the entry pos
that it is at, its version (an object record, gone when the pin is lost), and the digest instance that it holds (R260). -/
structure Pin where
  nsid : Nat
  sliceIx : Nat
  endBucket : Nat
  pos : Nat
  record : Option Nat
  inst : Option Nat
  lost : Bool
  deriving DecidableEq, Repr

/-- An entry of a search array (R206); an unlisted entry is EMPTY. -/
structure SearchEntry where
  key : BitVec 128
  mask : BitVec 128
  result : BitVec 32
  valid : Bool
  deriving DecidableEq, Repr

/-- What an array operation does (Search operations): a batch with the keys left, the responses written and the bytes that arrive. -/
inductive SearchOp where
  | search (key : BitVec 128)
  | batch (keys : List (BitVec 128)) (respPtr written : Nat)
  | invalidate
  | write (key mask : BitVec 128) (result : BitVec 32)
  | validate
  | resultWrite (result : BitVec 32)
  | read
  deriving DecidableEq, Repr

/-- An operation that an array has accepted: its partition, requester and offset (R213). -/
structure SearchJob where
  part : Nat
  requester : Nat
  offset : Nat
  op : SearchOp
  deriving DecidableEq, Repr

/-- A search array and its shadow (R206, R212), the operations that wait for cycles and the cycles issued in the running course by who pays for them
(R213), responses on their way (R213), how its last operation ended, the responses that the last batch wrote (R214), and what its last READ
returned: state (0 EMPTY, 1 STAGED, 2 VALID) and entry. -/
structure SearchArray where
  entries : List (Nat × SearchEntry)
  shadow : List (Nat × SearchEntry)
  pendingRate : Option Nat
  jobs : List SearchJob
  spent : List (Option Nat × Nat)
  responses : List (BitVec 64)
  lastStatus : Nat
  lastCount : Nat
  readOut : Option (Nat × SearchEntry)
  deriving DecidableEq, Repr

/-! ### Task scheduler -/

/-- A staged emit (R229, R230). -/
inductive Emit where
  | send (wslot index : Nat) (value : BitVec 64) (aux : BitVec 32)
  | arm (wslot index delay : Nat)
  | submit (d : EmitDesc)
  deriving DecidableEq, Repr

/-- States of a matching-store slot (R227); an unlisted slot is FREE. -/
inductive ItemState where
  | waiting | ready | running | held
  deriving DecidableEq, Repr

/-- A matching-store slot (R225, R231). mid: it was dispatched between two boundaries, on a pool core that became free (R24); heldFor: the whole
courses for which it has held its core, in steps of 625 ps (R24); cutAtBudget: its discard was asked for while it ran (R239). -/
structure WorkItem where
  wslot : Nat
  entry : Nat
  arg : BitVec 64
  owner : Nat
  ctrl : Option Nat
  inv : Option Nat
  flow : Option Nat
  seq : BitVec 16
  need : BitVec 4
  have4 : BitVec 4
  operands : List (Nat × Operand)
  done : Option (Nat × Nat)
  emits : List (Emit × Bool)
  releasedAny : Bool
  state : ItemState
  readyAt : Nat
  core : Option Nat
  poolCore : Bool
  startedAt : Nat
  armed : List Nat
  endStatus : Nat
  endCode : BitVec 8
  cutAtBudget : Bool
  mid : Bool
  heldFor : Nat
  deriving DecidableEq, Repr

/-- A flow (R233). -/
structure Flow where
  flow : Nat
  owner : Nat
  next : BitVec 16
  tail : BitVec 16
  closing : Bool
  deriving DecidableEq, Repr

/-- A delay entry (R235). -/
structure Delay where
  due : Nat
  wslot : Nat
  index : Nat
  deriving DecidableEq, Repr

/-- A queued ALLOC or CTX_ALLOC of the item in a slot, with the index that its grant reaches (R229, R230). -/
inductive Waiting where
  | slot (by_ grant : Nat) (flow : Option Nat) (entry : Nat) (arg : BitVec 64) (need : BitVec 4) (done : Option (Nat × Nat))
  | ctx (by_ grant kind : Nat)
  deriving DecidableEq, Repr

/-- The scheduler of a compute cluster (R225 to R235): port holds the status and result of the last primitive (R223). -/
structure Cluster where
  items : List (Nat × WorkItem)
  flows : List (Nat × Flow)
  near : List Delay
  far : List Delay
  waiting : List Waiting
  portStatus : Nat
  portResult : Nat
  deriving DecidableEq, Repr

/-- The cipher part of a context (R175, R178, R236): DIR, the block counter, the GHASH accumulator and E(J0) as two shares each, and the bytes of
additional data and payload done. -/
structure CipherPart where
  encrypt : Bool
  cb : Nat
  ghash : BitVec 128 × BitVec 128
  ej0 : BitVec 128 × BitVec 128
  aadDone : Nat
  payDone : Nat
  deriving DecidableEq, Repr

/-- The stream part of a context (R197, R236): FORMAT, LEVEL, CHECKSUM, FINAL seen, the history ring, the checksum state and the bytes held back
(R199). -/
structure StreamPart where
  format : Nat
  level : Nat
  checksum : Bool
  finalSeen : Bool
  ringSize : Nat
  ringPtr : Nat
  check : BitVec 64
  held : Nat
  deriving DecidableEq, Repr

/-- A context of the slice's context table (R236): the header and the cipher or stream state that operations read. -/
structure Ctx where
  index : Nat
  kind : Nat
  state : Nat
  owner : Nat
  inv : Option Nat
  flow : Nat
  cluster : Nat
  ops : Nat
  keySlot : Nat
  keyGen : Nat
  iv : BitVec 96
  aadDecl : Nat
  payDecl : Nat
  inTotal : Nat
  outTotal : Nat
  phase : Nat
  cipher : CipherPart
  strm : StreamPart
  deriving DecidableEq, Repr

/-- An engine submission that a released EMIT made (R229). -/
structure EngineOp where
  cluster : Nat
  wslot : Nat
  desc : EmitDesc
  deriving DecidableEq, Repr

/-- An open merge-buffer entry (R299): channel, burst, bytes gathered. -/
structure MergeEntry where
  ch : Nat
  burst : Nat
  bytes : List (Nat × Byte)
  openedAt : Nat
  deriving DecidableEq, Repr

/-- A request that waits at a DRAM channel (R286 to R288): its port and owner, the channel address of its next 256-byte piece and the pieces
left, whether it writes, the course in which it was issued, and whether it has been counted at urgency 4. -/
structure DramReq where
  port : Nat
  owner : Nat
  ca : Nat
  pieces : Nat
  write : Bool
  since : Nat
  urg4 : Bool
  deriving DecidableEq, Repr

/-- A DRAM channel beyond its registers (R287, R292, R294, R295, R299): a retraining that is due, and whether its HOLD has run out. -/
structure Dram where
  due : Bool
  dueAt : Nat
  trainedAt : Nat
  poisoned : List Nat
  mrTwice : Bool
  forced : Bool
  queue : List DramReq
  deriving DecidableEq, Repr

/-- One slot of 8 bytes of an eBPF program: opcode, destination, source, offset, immediate (RFC 9669; log entry 8). -/
structure BpfInsn where
  op : Nat
  dst : Nat
  src : Nat
  off : Int
  imm : Nat
  deriving DecidableEq, Repr

/-- A local call of an eBPF program that has not returned: where it returns to, and registers 6 to 9 of its caller. -/
structure BpfFrame where
  ret : Nat
  saved : List (BitVec 64)
  deriving DecidableEq, Repr

/-- An eBPF program that runs, as its registers and its stack are saved (R246): its code, the next instruction, registers 0 to 10, the local
calls that have not returned, the bytes stored to its stack, the helper whose operand it waits for with the operand index and the buffer
slots that the helper waits for (R247), and how it ended: register 0, or none for FAULT. -/
structure Vm where
  code : List BpfInsn
  pc : Nat
  regs : List (BitVec 64)
  frames : List BpfFrame
  stack : List (Nat × Byte)
  call : Option (Nat × Nat)
  awaits : List Nat
  ended : Option (Option (BitVec 64))
  deriving DecidableEq, Repr

/-- An invocation of a program (R242 to R244); vm where the program is a translated one. -/
structure Invocation where
  id : Nat
  hdr : Hdr
  slice : Nat
  owner : Nat
  nsid : Nat
  index : Nat
  ranges : List MemRange
  params : List Byte
  limit : Nat
  startedAt : Nat
  cluster : Nat
  flow : Option Nat
  filters : List (Nat × Nat)
  vm : Option Vm
  deriving DecidableEq, Repr

/-- A write counter of a key context (R170, R171). -/
structure KeyCtr where
  slot : Nat
  ctr : BitVec 64
  waiting : Bool
  deriving DecidableEq, Repr

/-- An entry of a pipe's key cache: the slot, the generation it was loaded under, the Sealed instance that pins it (R179), and the key as two
shares (R178). -/
structure KcEntry where
  slot : Nat
  generation : Nat
  owner : Option Nat
  shares : Key × Key
  deriving DecidableEq, Repr

/-- What an operation of a stream engine serves (R175, R181, R189): a submission on a context, the compression or the sealing of a version, the
opening of a stored unit for a command, for the fill of a version or for an object's read, and a segment of device metadata. -/
inductive EngFor where
  | strm (ctx : Nat)
  | compress (wslot : Nat)
  | sealing (wslot : Nat)
  | opening (h : Hdr)
  | fill (wslot : Nat)
  | segment
  deriving DecidableEq, Repr

/-- An operation of a stream engine (R175, R176, R189, R198): its number, its unit (0 and 1 the main pipes, 2 the byte-serial unit, 3 + e a
compressor, 7 + e a decompressor), the local region whose traffic it is, its owner and its entry of the context table, the operation it follows,
the cycles of loads before its next work, the blocks or cycles left of all of its work, which is its save point, and the cycles until its result. -/
structure EngWork where
  id : Nat
  unit : Nat
  region : Nat
  owner : Nat
  ctx : Option Nat
  why : EngFor
  after : Option Nat
  load : Nat
  left : Nat
  total : Nat
  lag : Nat
  deriving DecidableEq, Repr

/-- The stream engines of a slice: their operations in the order in which the next ones are served, the resident contexts of each unit, the latest
used first (R175, R180, R198), the seeds of the mask and dummy-round generators of units 0 to 2 and the numbers drawn from them (R178, R180), the
blocks of the byte-serial unit since its last one of metadata (R182). -/
structure PipeState where
  works : List EngWork
  nextWork : Nat
  resident : List (Nat × List Nat)
  seeds : List Key
  draws : Nat
  since : Nat
  deriving DecidableEq, Repr

/-- How far a slice is (R129, R350, R382): off until released. -/
inductive SliceMode where
  | off | released | rebuilding | late | online | landing | offline
  deriving DecidableEq, Repr

/-- One slice die. kcache holds the key caches of the two main pipes, the entry used last first (R179), pipe its stream engines. waNow
counts host bytes and programmed bytes of each pool in the running bond period, waFig holds the write amplification × 1,000 of the last one
(R83), waHour and waHourFig the same for the slice pool and the hour (R139). lostSizes holds the stored bytes of the units whose entries
became LOST, by index (R140). bondWait: a late slice that rejoined waits for the boundary at which its bond entries act (R350). -/
structure Slice where
  mode : SliceMode
  descIx : Option Nat
  map : List (Nat × Entry)
  versions : List Version
  nextWslot : Nat
  units : List StoredUnit
  supers : List Superblock
  nextSb : Nat
  blocks : List BlockInfo
  luns : List Lun
  journal : List Delta
  landed : List Version
  landedAcked : Bool
  spareRef : Nat
  goodBlocks : Nat
  turns : List ((Pool × CellMode × Nat) × Nat)
  vfails : List (Nat × Nat)
  gcOn : List Pool
  readOnly : List Pool
  metaBlocks : Nat
  metaLuns : Nat
  formatting : Option Nat
  evacuating : Option Nat
  evacBytes : Nat
  flash : FlashState
  moves : List Move
  relocs : List Entry
  reserve : List ResBlock
  parity : List ParityPage
  lostSizes : List (Nat × Nat)
  store : MapStore
  index : List (Nat × IndexEntry)
  objects : List (Nat × ObjRecord)
  ingests : List Ingest
  pins : List Pin
  arrays : List SearchArray
  clusters : List Cluster
  contexts : List (Nat × Ctx)
  engineOps : List EngineOp
  drams : List Dram
  merges : List MergeEntry
  slm : List Host.Cell
  counters : List KeyCtr
  kcache : List (List KcEntry)
  pipe : PipeState
  waNow : List (Pool × Nat × Nat)
  waFig : List (Pool × Nat)
  waHour : Nat × Nat
  waHourFig : Nat
  bondWait : Bool
  indexLog2 : Option Nat
  muFmt : Option Nat
  deriving DecidableEq, Repr

/-! ### Hub: DMA, digests, measurement, trust -/

/-- A request on a host link (R271): address, bytes, and for a write the byte enables of its first and last double word. -/
structure HostReq where
  addr : Nat
  len : Nat
  firstBe : Nat
  lastBe : Nat
  deriving DecidableEq, Repr

/-- A transfer of the host DMA engine (R267): its kind as a KINDS bit number, its direction, its owner, its command, its requests on the
link, the beats still to move and those confirmed (R277). -/
structure Transfer where
  kind : Nat
  toHost : Bool
  owner : Nat
  hdr : Option Hdr
  reqs : List HostReq
  beatsLeft : Nat
  confirmed : Nat
  deriving DecidableEq, Repr

/-- A host DMA channel beyond its registers (R267 to R279): the transfer it carries, a value of HD_CH_CTL that waits for its
boundary, the credit of each direction, and whether it lost the last beat (R270). -/
structure HdCh where
  cur : Option Transfer
  newCtl : Option Word
  creditIn : Nat
  creditOut : Nat
  lost : Bool
  deriving DecidableEq, Repr

/-- A parked SLOT transfer, of the HIGH or NORMAL channel of its owner (R269). -/
structure Park where
  ti : Nat
  tr : Transfer
  deriving DecidableEq, Repr

/-- A digest message (R310). -/
structure DgMsg where
  owner : Nat
  alg : Nat
  hmac : Option Nat
  decl : Nat
  arrived : Nat
  data : List Byte
  dest : DgDest
  deriving DecidableEq, Repr

/-- An entry of the measurement log (R319). -/
structure MeasLog where
  index : Nat
  source : Nat
  seq : Nat
  course : Nat
  digest : Digest384
  deriving DecidableEq, Repr

/-- The SPDM responder of one transport (R320). -/
structure SpdmPeer where
  transport : Transport
  stage : Nat
  deriving DecidableEq, Repr

/-- An SPDM session (R320). -/
structure SpdmSession where
  number : Nat
  transport : Transport
  established : Bool
  updates : Nat
  deriving DecidableEq, Repr

/-- An SPDM answer as the requester sees it (R320). -/
structure SpdmAnswer where
  transport : Transport
  code : Nat
  error : Nat
  body : Data
  deriving DecidableEq, Repr

/-- Slot states of the key store (R184). -/
inductive SlotState where
  | empty | active | retiring
  deriving DecidableEq, Repr

/-- A key slot (R183, R184). An unlisted slot is EMPTY with USE 0 and GENERATION 0. -/
structure KeySlot where
  state : SlotState
  use : Nat
  generation : Nat
  key : Key
  retireAt : Nat
  deriving DecidableEq, Repr

/-! ### Non-volatile state -/

/-- An entry of the Deferred Write Fault log 0xC1 (R61, R64). -/
structure DeferredFault where
  ti : Nat
  cause : Nat
  nsid : Nat
  slba : Nat
  nlb : Nat
  pending : Bool
  course : Nat
  deriving DecidableEq, Repr

/-- An entry of the Start History log (R357). -/
structure StartEntry where
  cycle : Nat
  minutes : Nat
  slot : Nat
  trial : Bool
  minimal : Bool
  activation : Bool
  stage : Nat
  cause : Nat
  failCnt : Nat
  tLinkUs : Nat
  tReadyMs : Nat
  deriving DecidableEq, Repr

/-- A Store record (R363): layout is its layout version, intact says that its CRC holds (log entry 64). -/
structure StoreRecord where
  seq : Nat
  layout : Nat
  intact : Bool
  tenants : List Tenant
  attachments : List (Nat × List Nat)
  fields : List (Nat × Word)
  bond : List (Nat × Word)
  deriving DecidableEq, Repr

/-- A recorder series (R369, R370). -/
structure Series where
  id : Nat
  bins : List (Nat × Nat)
  least : Option Int
  most : Option Int
  minStamp : Nat × Nat
  maxStamp : Nat × Nat
  samples : Nat
  deriving DecidableEq, Repr

/-- A notice (R371). -/
structure Notice where
  kind : Nat
  source : Nat
  merged : Nat
  minutes : Nat
  cycles : Nat
  first : Nat
  last : Nat
  deriving DecidableEq, Repr

/-- An event sample that waits while the recorder is frozen (R374): of a series, or a notice. -/
inductive EventSample where
  | sample (id : Nat) (v : Int)
  | notice (n : Notice)
  deriving DecidableEq, Repr

/-- An image written to the recorder partition (R370, R373). -/
structure RecImage where
  seq : Nat
  minutes : Nat
  cycles : Nat
  missed : Nat
  dropped : Nat
  series : List Series
  counts : List (Nat × Nat)
  deriving DecidableEq, Repr

/-- The firmware slot record (R352). -/
structure SlotRecord where
  active : Nat
  next : Option Nat
  tried : Bool
  deriving DecidableEq, Repr

/-- A downloaded image as far as it has arrived (R67): the pieces (offset, bytes), and whether pieces of different images were mixed. -/
structure Download where
  image : SeedImage
  pieces : List (Nat × Nat)
  mixed : Bool
  deriving DecidableEq, Repr

/-- The on-chip NVM and the fuses (R306, R361, R362): what survives every reset and power loss. ranges are the
deferred-fault ranges (namespace, first block, blocks), faultPairs the pending faults of R62 (owner, namespace), download the image data
that Firmware Image Download wrote (R67). -/
structure Nvm where
  packageId : BitVec 64
  svnFloor : Nat
  stateValid : Bool
  slots : SlotRecord
  failCnt : Nat
  cycles : Nat
  minutes : Nat
  tokens : Nat
  tokenAt : Nat
  history : List StartEntry
  attempt : Option StartEntry
  lastCause : Nat
  lastStage : Nat
  store0 : Option StoreRecord
  store1 : Option StoreRecord
  bank : Nat
  faults : List DeferredFault
  ranges : List (Nat × Nat × Nat)
  faultPairs : List (Nat × Nat)
  wear : List (Nat × Rat)
  capUf : Nat
  esrMohm : Nat
  sagCnt : Nat
  rideCnt : Nat
  dumpCnt : Nat
  lastDump : Nat
  dumpBegun : Bool
  dumpMark : Bool
  lastEnd : Nat
  keys : List (Nat × KeySlot)
  ctrP : List (Nat × Nat × BitVec 64)
  ringPage : Nat
  ringStores : Nat
  spareLeft : Nat
  lostPages : List (Nat × Nat)
  pageWear : List (Nat × Nat)
  image : Option RecImage
  notices : List Notice
  flash : List (Option SeedImage)
  download : Option Download
  deriving DecidableEq, Repr

/-! ### Power, start, recorder, containment -/

/-- Hold-up and supply beyond the registers (R323 to R347). -/
structure Power where
  sag : Bool
  sagAt : Nat
  surge : Bool
  senseBad : Bool
  thermal : Bool
  unhealthyOpen : Option Nat
  throughPending : Bool
  measuring : Bool
  measureWanted : Bool
  measureRejects : Nat
  chargeAt : Nat
  modeAt : Nat
  dumpAt : Nat
  dumpReason : Nat
  sliceRates : List (Nat × Nat)
  opNext : Option Nat
  stopped : Bool
  sagLong : Bool
  prev : List (Nat × Int)
  deriv : List (Nat × Int)
  hotRuns : List (Nat × Nat)
  deriving DecidableEq, Repr

/-- A start attempt (R348 to R358); switching: an activation waits for the buffer to drain (R68). -/
structure Start where
  switching : Bool
  trial : Bool
  activation : Bool
  slot : Nat
  fwRev : Option (BitVec 64)
  readFail : Nat
  readyAt : Option Nat
  minimalCommit : Bool
  verified : Bool
  svn : Nat
  commitSvn : Bool
  rejects : List Nat
  restore : Bool
  deriving DecidableEq, Repr

/-- The live recorder (R369 to R374). -/
structure Recorder where
  series : List Series
  counts : List (Nat × Nat)
  missed : Nat
  dropped : Nat
  toWrite : List Notice
  queued : List EventSample
  thawAt : Option Nat
  freezeAt : Nat
  intervals : List (Nat × Nat × Nat)
  noticeTotal : Nat
  minuteDue : Bool
  deriving DecidableEq, Repr

/-- Fence state of a unit (R377); an unlisted unit that is built is ACTIVE. -/
inductive Fence where
  | forTest | forFault
  deriving DecidableEq, Repr

/-- The pins that the package drives or samples, as far as commands act on them: wpN lists the flash channels (global numbers) whose
WP_N is high (R141). -/
structure Pins where
  resetN : Bool
  perst0 : Bool
  perst1 : Bool
  courseSync : Bool
  pwmA : Nat
  pwmB : Nat
  wpN : List Nat
  jtagHold : Bool
  powered : Bool
  deriving DecidableEq, Repr

/-- A management response (R53): the Status and the NVMe Management Response of NVMe-MI, and the completion of a tunnelled admin
command or the response data. -/
structure MiReply where
  status : Nat
  detail : Nat
  answer : Answer
  deriving DecidableEq, Repr

/-- The management endpoint (R53, R409): its dynamic address on I3C, its configuration, and the responses that wait to be taken, in band
and on a bus. -/
structure MgmtPort where
  i3cAddr : Option (BitVec 7)
  config : List (Nat × Nat)
  inband : Option MiReply
  out : Option (MiBus × MiReply)
  deriving DecidableEq, Repr

end Sys2Proof.Machine
end

