-- ==== Sys2Proof/Machine/State.lean ====
section
/-!
DEFINITION. The state of the package, plain data, and its value right after package reset (R6, R348): every vendor
register at its Reset value, nothing running, the queue of commands empty. What the spec gives no reset value is named
in the assumption log (entries 2 and 3).
-/

namespace Sys2Proof.Machine

/-- The whole package. The field regs lists the vendor registers that differ from their Reset value (R6), by window
address; latches the values latched for HI registers (R392); pending the commands not yet carried out, first in,
first out. -/
structure State where
  part : Part
  pins : Pins
  regs : List (Nat × Word)
  latches : List (Nat × Word)
  busRead : Word
  course : Course
  dual : Bool
  links : List Link
  ctrls : List Ctrl
  inflight : List InFlight
  order : Nat
  namespaces : List Namespace
  tenants : List Tenant
  leaving : List Tenant
  deferred : List Deferred
  migs : List MigSession
  slotWaits : List SlotWait
  slices : List Slice
  invocations : List Invocation
  nextInv : Nat
  hd : List HdCh
  parks : List Park
  hdQueue : List Transfer
  ats : List (Nat × Nat)
  digests : List (Nat × DgMsg)
  digestWaits : List (Nat × Hdr)
  digestOut : Option (Nat × Nat × List Byte)
  hubKey : Key
  meas : List Digest384
  measLog : List MeasLog
  measSeq : Nat
  staged : List Digest384
  spdmPeers : List SpdmPeer
  spdmSessions : List SpdmSession
  spdmOut : Option SpdmAnswer
  entropyOk : Bool
  groupAt : Nat
  groupRecs : Option (List (Nat × Nat × BitVec 64))
  storeHdr : Option (Option Hdr)
  storeNext : List Hdr
  wearRateMax : Nat
  nvm : Nvm
  power : Power
  start : Start
  recorder : Recorder
  fences : List (UnitId × Fence)
  fenceCounts : List (UnitId × Nat)
  fenceSoon : List (UnitId × FenceCause)
  test : Option UnitId
  unfence : List UnitId
  mgmt : MgmtPort
  fresh : Nat
  pending : List Instr
  deriving DecidableEq, Repr

/-- Why a step stops with a fault. -/
inductive Fault where
  /-- A register access names an address outside the 64 MiB vendor window (R387): no such register exists. Raised by
  the register commands; safe, because such an access never reaches the window. -/
  | outsideWindow
  deriving DecidableEq, Repr

/-- Why a command has no meaning. -/
inductive Refusal where
  /-- The command of this mnemonic is not modelled. Raised by no command of this model; safe. -/
  | notModelled (mnemonic : String)
  deriving DecidableEq, Repr

namespace State

/-- A DRAM channel that is OFF (R294). -/
def dramOff : Dram :=
  { due := false, dueAt := 0, trainedAt := 0, poisoned := [], mrTwice := false, forced := false, queue := [] }

/-- A scheduler with nothing in it (R225, R233, R235). -/
def clusterEmpty : Cluster :=
  { items := [], flows := [], near := [], far := [], waiting := [], portStatus := 0, portResult := 0 }

/-- A search array with no entry (R212). -/
def arrayEmpty : SearchArray :=
  { entries := [], shadow := [], pendingRate := none, jobs := [], spent := [], responses := [], lastStatus := 0, lastCount := 0, readOut := none }

/-- Flash channels that nothing has been asked of. -/
def flashReset : FlashState := { works := [], nextWork := 0, found := [], rates := [], retrain := [], pslcSeen := 0 }

/-- Stream engines with nothing to do, their generators not yet seeded. -/
def pipeReset : PipeState := { works := [], nextWork := 0, resident := [], seeds := [0, 0, 0], draws := 0, since := 0 }

/-- A mapping that was never saved. -/
def storeReset : MapStore :=
  { saved := [], savedIndex := [], pass := 0, seg := 0, supers := [], landedDeltas := none, cache := [], hits := 0, lookups := 0 }

/-- A slice before its release, never formatted (log entry 3). -/
def sliceReset : Slice :=
  { mode := .off, descIx := none, map := [], versions := [], nextWslot := 0, units := [], supers := [], nextSb := 0,
    blocks := [], luns := [], journal := [], landed := [], landedAcked := false,
    spareRef := 0, goodBlocks := 0, turns := [], vfails := [], gcOn := [], readOnly := [], metaBlocks := 0, metaLuns := 0,
    formatting := none, evacuating := none, evacBytes := 0, flash := flashReset, moves := [], relocs := [], reserve := [], parity := [], lostSizes := [],
    store := storeReset, index := [], objects := [], ingests := [], pins := [], arrays := [arrayEmpty, arrayEmpty],
    clusters := [clusterEmpty, clusterEmpty, clusterEmpty, clusterEmpty], contexts := [], engineOps := [],
    drams := [dramOff, dramOff], merges := [], slm := [], counters := [], kcache := [[], []], pipe := pipeReset,
    waNow := [], waFig := [], waHour := (0, 0), waHourFig := 0, bondWait := false, indexLog2 := none, muFmt := none }

/-- A link that is down, with Max_Payload_Size 128 and Max_Read_Request_Size 512 (R41; log entry 18). -/
def linkDown : Link := { up := false, gen := 0, width := 0, mps := 128, mrrs := 512, nonFatal := 0, fatal := 0 }

/-- A controller with CC.EN = 0 and the reset values of its features (R57, R65). -/
def ctrlReset (id : Nat) : Ctrl :=
  { id := id, en := false, rdy := false, shn := 0, shst := 0, ams := 0, mps := 0, css := 0,
    arb := { last := 0, left := 0, high := 0, medium := 0, low := 0 }, flr := none, wce := true, features := [],
    latency := 0xFFFFFFFF, sqs := [], cqs := [], msix := [], events := [], errLog := [], errCount := 0,
    blocksRead := 0, blocksWritten := 0, readCmds := 0, writeCmds := 0, mediaErrors := 0 }

/-- An idle host DMA channel (R267). -/
def hdIdle : HdCh :=
  { cur := none, newCtl := none, creditIn := 0, creditOut := 0, lost := false }

/-- A series without samples (R369). -/
def seriesEmpty (id : Nat) : Series :=
  { id := id, bins := [], least := none, most := none, minStamp := (0, 0), maxStamp := (0, 0), samples := 0 }

/-- The NVM of a package as made: nothing stored, both firmware slots empty, the slice metadata keys present (R418;
log entry 3). -/
def nvmMade : Nvm :=
  { packageId := 0, svnFloor := 0, stateValid := true, slots := { active := 0, next := none, tried := false },
    failCnt := 0, cycles := 0, minutes := 0, tokens := 64, tokenAt := 0, history := [], attempt := none, lastCause := 0, lastStage := 0,
    store0 := none, store1 := none, bank := 0, faults := [], ranges := [], faultPairs := [], wear := [], capUf := 0, esrMohm := 0, sagCnt := 0,
    rideCnt := 0, dumpCnt := 0, lastDump := 0, dumpBegun := false, dumpMark := false, lastEnd := 0,
    keys := (List.range 8).map fun i =>
      (4113 + i, { state := SlotState.active, use := 3, generation := 1, key := 0, retireAt := 0 }),
    ctrP := [], ringPage := 0, ringStores := 0, spareLeft := 320, lostPages := [], pageWear := [], image := none,
    notices := [], flash := [none, none], download := none }

/-- Hold-up OFF, no supply condition (R332). -/
def powerReset : Power :=
  { sag := false, sagAt := 0, surge := false, senseBad := false, thermal := false, unhealthyOpen := none,
    throughPending := false, measuring := false, measureWanted := false, measureRejects := 0, chargeAt := 0, modeAt := 0,
    dumpAt := 0, dumpReason := 0, sliceRates := [], opNext := none, stopped := false, sagLong := false, prev := [], deriv := [],
    hotRuns := [] }

/-- No start attempt open (R348). -/
def startReset : Start :=
  { switching := false, trial := false, activation := false, slot := 0, fwRev := none, readFail := 0, readyAt := none,
    minimalCommit := false, verified := false, svn := 0, commitSvn := false, rejects := [], restore := false }

/-- The recorder with nothing recorded (R369). -/
def recorderReset : Recorder :=
  { series := (List.range 18).map seriesEmpty, counts := [], missed := 0, dropped := 0, toWrite := [], queued := [],
    thawAt := none, freezeAt := 0, intervals := [], noticeTotal := 0, minuteDue := false }

/-- The course generator stopped (R21, R34). -/
def courseReset : Course :=
  { running := false, count := 0, bondAt := 0, commit := none, syncCtl := none, trim := 0, good := 0,
    phase := 0, lastLen := 6240, refreshed := 0, devwgt := 0x20202020, devwgtH := 0x20, hubSeed := 0, cuts := [],
    host := { cycle := 0, backA := 0, backB := 0, deviceIn := 0, deviceOut := 0, used := [], last := [] } }

/-- Pins at package reset: RESET_N low, both PWM pins low (R404), write protect low (R141). -/
def pinsReset : Pins :=
  { resetN := false, perst0 := false, perst1 := false, courseSync := false, pwmA := 0, pwmB := 0, wpN := [],
    jtagHold := false, powered := true }

/-- The package right after package reset (R6): a Yarrow as made (log entry 3), no command waiting. -/
def reset : State :=
  { part := .yarrow, pins := pinsReset, regs := [], latches := [], busRead := 0, course := courseReset,
    dual := false, links := [linkDown, linkDown], ctrls := [],
    inflight := [], order := 0, namespaces := [], tenants := [], leaving := [], deferred := [], migs := [], slotWaits := [],
    slices := List.replicate 8 sliceReset, invocations := [], nextInv := 0, hd := List.replicate 32 hdIdle, parks := [], hdQueue := [],
    ats := [], digests := [], digestWaits := [], digestOut := none, hubKey := 0, meas := List.replicate 32 0, measLog := [], measSeq := 0, staged := [],
    spdmPeers := [], spdmSessions := [], spdmOut := none, entropyOk := true, groupAt := 0, groupRecs := none,
    storeHdr := none, storeNext := [], wearRateMax := 0, nvm := nvmMade, power := powerReset, start := startReset,
    recorder := recorderReset, fences := [], fenceCounts := [], fenceSoon := [], test := none, unfence := [],
    mgmt := { i3cAddr := none, config := [], inband := none, out := none }, fresh := 0, pending := [] }

end State

end Sys2Proof.Machine
end

