-- ==== Sys2Proof/Machine/Regs.lean ====
section
/-!
DEFINITION. The vendor register map (R387 to R396): the window address of every register under its own name, and for
each block the rows of its register tables: offset, how it repeats, Reset value, and which bits are RW, W1C and WO.
A bit in none of the three is RO or reserved (R5, R7).
-/

namespace Sys2Proof.Machine

/-- Address of offset off of the window of slice sl (R390). -/
def sliceAdr (sl off : Nat) : Nat := 0x1000000 + sl * 0x400000 + off

namespace Adr

/-- CK_WEIGHT_ACTIVE: WC [31:24], WS [23:16], WD [15:8], WF [7:0]. -/
def ckWeightActive (ti : Nat) : Nat := 0x91000 + 8 * ti
/-- CK_WEIGHT1_ACTIVE: WH [7:0]. -/
def ckWeight1Active (ti : Nat) : Nat := 0x91004 + 8 * ti
/-- CK_WEIGHT_SHADOW: WC [31:24], WS [23:16], WD [15:8], WF [7:0]. -/
def ckWeightShadow (ti : Nat) : Nat := 0x91800 + 8 * ti
/-- CK_WEIGHT1_SHADOW: WH [7:0]. -/
def ckWeight1Shadow (ti : Nat) : Nat := 0x91804 + 8 * ti
/-- CK_BOND_ACTIVE: B [31:16], A [15:0]. -/
def ckBondActive (i : Nat) : Nat := 0x92000 + 4 * i
/-- CK_BOND_SHADOW: B [31:16], A [15:0]. -/
def ckBondShadow (i : Nat) : Nat := 0x98000 + 4 * i
/-- CK_STS: BOND_COURSE [21:16], LATE [0]. -/
def ckSts : Nat := 0x90000
/-- CK_COURSE_LO: COUNT [31:0]. -/
def ckCourseLo : Nat := 0x90008
/-- CK_COURSE_HI: COUNT [31:0]. -/
def ckCourseHi : Nat := 0x9000C
/-- CK_COMMIT: GO [0]. -/
def ckCommit : Nat := 0x90010
/-- CK_COMMIT_STS: ERR_CELL [28:16], ERR_TI [15:8], PENDING [7], WR_IGNORED [6], ERR_TI_VALID [5], RESULT [3:0]. -/
def ckCommitSts : Nat := 0x90014
/-- CK_DEVWGT: WC [31:24], WS [23:16], WD [15:8], WF [7:0]. -/
def ckDevwgt : Nat := 0x90018
/-- CK_DEVWGT_H: WH [7:0]. -/
def ckDevwgtH : Nat := 0x9001C
/-- CK_SYNC_CTL: DELAY [15:8], ROLE [1:0]. -/
def ckSyncCtl : Nat := 0x90020
/-- CK_SYNC_STS: PHASE_ERR [23:16], CONFLICT [7], LOST [6], STATE [2:0]. -/
def ckSyncSts : Nat := 0x90024
/-- CK_LATE_CNT: COUNT [31:0]. -/
def ckLateCnt : Nat := 0x90028
/-- FN_STS: SEALED [24:16], INSTANCES [8:0]. -/
def fnSts : Nat := 0x10000
/-- FN_EVT: WEAR_LIMITED [3], FLR_DONE [2], QUIESCED [1], RESTORED [0]. -/
def fnEvt : Nat := 0x10004
/-- FN_TI_STS_nnn: SAVED [31], WEAR_LIMITED [30], FAULT_PENDING [29], FLR_P1 [28], FLR_P0 [27], ISOLATION [8], STATE
[2:0]. -/
def fnTiSts (n : Nat) : Nat := 0x11000 + 16 * n
/-- FN_TI_INFLIGHT_nnn: WORK [31:24], COMMANDS [17:0]. -/
def fnTiInflight (n : Nat) : Nat := 0x11004 + 16 * n
/-- FN_TI_GEN_nnn: GENERATION [31:0]. -/
def fnTiGen (n : Nat) : Nat := 0x11008 + 16 * n
/-- FN_TI_WEAR_nnn: ALLOWANCE [31:0]. -/
def fnTiWear (n : Nat) : Nat := 0x1100C + 16 * n
/-- FT_CFG: DEF_MODE [9:8], MU [1:0]. -/
def ftCfg (sl : Nat) : Nat := sliceAdr sl (0x100000)
/-- FT_STS: OPEN_SB [23:16], READ_ONLY [7], MAP_PAGED [6], SPARE_LOW [5], EXPOSED [4], STATE [2:0]. -/
def ftSts (sl : Nat) : Nat := sliceAdr sl (0x100004)
/-- FT_WB: USABLE [31:16], SIZE [15:0]. -/
def ftWb (sl : Nat) : Nat := sliceAdr sl (0x100008)
/-- FT_WB_USED: USED [15:0]. -/
def ftWbUsed (sl : Nat) : Nat := sliceAdr sl (0x10000C)
/-- FT_WB_CFG: AGE_MS [31:16], HIGH_PCT [7:0]. -/
def ftWbCfg (sl : Nat) : Nat := sliceAdr sl (0x100010)
/-- FT_LANDING: TOTAL [31:16], READY [15:0]. -/
def ftLanding (sl : Nat) : Nat := sliceAdr sl (0x100014)
/-- FT_SPARE: MIN_SEALED [15:8], POOL [7:0]. -/
def ftSpare (sl : Nat) : Nat := sliceAdr sl (0x100018)
/-- FT_SPARE_CFG: REF_PERMILLE [23:16], WARN_PCT [15:8], CRIT_PCT [7:0]. -/
def ftSpareCfg (sl : Nat) : Nat := sliceAdr sl (0x10001C)
/-- FT_GC_CFG: HIGH [15:8], LOW [7:0]. -/
def ftGcCfg (sl : Nat) : Nat := sliceAdr sl (0x100020)
/-- FT_REFRESH_CFG: PSLC [31:20], TLC [19:10], QLC [9:0]. -/
def ftRefreshCfg (sl : Nat) : Nat := sliceAdr sl (0x100024)
/-- FT_VERIFY_CFG: PATROL_DAYS [23:16], LIMIT [9:0]. -/
def ftVerifyCfg (sl : Nat) : Nat := sliceAdr sl (0x100028)
/-- FT_PE_CFG: PSLC [29:20], TLC [19:10], QLC [9:0]. -/
def ftPeCfg (sl : Nat) : Nat := sliceAdr sl (0x10002C)
/-- FT_EVAC_CTL: GO [31], AUTO [30], LUN [8:0]. -/
def ftEvacCtl (sl : Nat) : Nat := sliceAdr sl (0x100030)
/-- FT_EVAC_STS: STATE [31:30], PCT [23:16], LUN [8:0]. -/
def ftEvacSts (sl : Nat) : Nat := sliceAdr sl (0x100034)
/-- FT_EXPOSED_LO: BYTES [31:0]. -/
def ftExposedLo (sl : Nat) : Nat := sliceAdr sl (0x100038)
/-- FT_EXPOSED_HI: BYTES [31:0]. -/
def ftExposedHi (sl : Nat) : Nat := sliceAdr sl (0x10003C)
/-- FT_LOST_LO: BYTES [31:0]. -/
def ftLostLo (sl : Nat) : Nat := sliceAdr sl (0x100040)
/-- FT_LOST_HI: BYTES [31:0]. -/
def ftLostHi (sl : Nat) : Nat := sliceAdr sl (0x100044)
/-- FT_MAPCACHE: HIT_PCT [31:24], SIZE_MIB [15:0]. -/
def ftMapcache (sl : Nat) : Nat := sliceAdr sl (0x100048)
/-- FT_WA: POOL_MILLI [15:0]. -/
def ftWa (sl : Nat) : Nat := sliceAdr sl (0x10004C)
/-- FT_EVT: LUN_FAILED [5], LUN_WARN [4], READ_ONLY [3], SPARE_LOW [2], MAP_PAGED [1], VERIFY_FAIL [0]. -/
def ftEvt (sl : Nat) : Nat := sliceAdr sl (0x100050)
/-- FT_FMT_CTL: GO [31], MU_REQ [1:0]. -/
def ftFmtCtl (sl : Nat) : Nat := sliceAdr sl (0x100054)
/-- FT_FMT_STS: RESULT [31:28], PCT [7:0]. -/
def ftFmtSts (sl : Nat) : Nat := sliceAdr sl (0x100058)
/-- FL_CFG: STICKY [20], SUSPEND [19], MAX_SUSPEND [18:16], MAX_ARRAY [5:0]. -/
def flCfg (sl : Nat) : Nat := sliceAdr sl (0x80000)
/-- FL_STS: DESC [26:24], CH_FAULT [23:16], CH_READY [15:8], STATE [1:0]. -/
def flSts (sl : Nat) : Nat := sliceAdr sl (0x80004)
/-- FL_GEOM: PLANES [26:24], BITS [23:21], LUNS [20:19], PAGE_KIB [16:12], SPARE [11:0]. -/
def flGeom (sl : Nat) : Nat := sliceAdr sl (0x80008)
/-- FL_GEOM2: BLOCKS [31:16], PAGES [15:0]. -/
def flGeom2 (sl : Nat) : Nat := sliceAdr sl (0x8000C)
/-- FL_EVT: ADDR_MISMATCH [4], LUN_FAILED [3], TRAIN_FAIL [2], MISMATCH [1], UNCORR [0]. -/
def flEvt (sl : Nat) : Nat := sliceAdr sl (0x80010)
/-- FL_CH_CTL_j: RETRAIN [31], RATE [1:0]. -/
def flChCtl (sl j : Nat) : Nat := sliceAdr sl (0x80100 + 64 * j)
/-- FL_CH_STS_j: TARGETS [31:24], TRAIN_FAILS [15:8], STATE [2:0]. -/
def flChSts (sl j : Nat) : Nat := sliceAdr sl (0x80104 + 64 * j)
/-- FL_CH_HARD_j: COUNT [31:0]. -/
def flChHard (sl j : Nat) : Nat := sliceAdr sl (0x80108 + 64 * j)
/-- FL_CH_RETRY_j: COUNT [31:0]. -/
def flChRetry (sl j : Nat) : Nat := sliceAdr sl (0x8010C + 64 * j)
/-- FL_CH_SOFT_j: COUNT [31:0]. -/
def flChSoft (sl j : Nat) : Nat := sliceAdr sl (0x80110 + 64 * j)
/-- FL_CH_UNCORR_j: COUNT [31:0]. -/
def flChUncorr (sl j : Nat) : Nat := sliceAdr sl (0x80114 + 64 * j)
/-- FL_CH_BUSY_j: READS [15:8], ARRAY [7:0]. -/
def flChBusy (sl j : Nat) : Nat := sliceAdr sl (0x80118 + 64 * j)
/-- FL_TGT_STS_nnn: LUN_STATE [23:16], CAUSE [15:8], STATE [1:0]. -/
def flTgtSts (sl n : Nat) : Nat := sliceAdr sl (0x80400 + 4 * n)
/-- CX_CFG: ROUTE_1 [3:2], ROUTE_0 [1:0]. -/
def cxCfg (sl : Nat) : Nat := sliceAdr sl (0x140000)
/-- CX_STS: PATH_1 [15:14], PATH_0 [13:12], BS_FENCED [8], PIPE_1 [3:2], PIPE_0 [1:0]. -/
def cxSts (sl : Nat) : Nat := sliceAdr sl (0x140004)
/-- CX_EVT: KEY_DENIED [4], LIMIT [3], LENGTH_MISMATCH [2], TAG_FAIL [1], ROUTE_CHANGE [0]. -/
def cxEvt (sl : Nat) : Nat := sliceAdr sl (0x140008)
/-- CX_ERR_STS: VALID [31], UNIT [28:27], STATUS [23:20], CONTEXT [15:0]. -/
def cxErrSts (sl : Nat) : Nat := sliceAdr sl (0x140010)
/-- CX_ERR_SLOT: KEY_SLOT [12:0]. -/
def cxErrSlot (sl : Nat) : Nat := sliceAdr sl (0x140014)
/-- CX_ERR_DECL_LO: BYTES [31:0]. -/
def cxErrDeclLo (sl : Nat) : Nat := sliceAdr sl (0x140018)
/-- CX_ERR_DECL_HI: BYTES [31:0]. -/
def cxErrDeclHi (sl : Nat) : Nat := sliceAdr sl (0x14001C)
/-- CX_ERR_ARR_LO: BYTES [31:0]. -/
def cxErrArrLo (sl : Nat) : Nat := sliceAdr sl (0x140020)
/-- CX_ERR_ARR_HI: BYTES [31:0]. -/
def cxErrArrHi (sl : Nat) : Nat := sliceAdr sl (0x140024)
/-- CX_TAGFAIL: COUNT [31:0]. -/
def cxTagfail (sl : Nat) : Nat := sliceAdr sl (0x140030)
/-- CX_LENERR: COUNT [31:0]. -/
def cxLenerr (sl : Nat) : Nat := sliceAdr sl (0x140034)
/-- CX_KC_MISS_0: COUNT [31:0]. -/
def cxKcMiss0 (sl : Nat) : Nat := sliceAdr sl (0x140040)
/-- CX_KC_MISS_1: COUNT [31:0]. -/
def cxKcMiss1 (sl : Nat) : Nat := sliceAdr sl (0x140044)
/-- KS_STS: ACTIVE_SLOTS [28:16], RESEED_LOST [4], ENTROPY_FAIL [3], DRBG_READY [2]. -/
def ksSts : Nat := 0x30000
/-- KS_EVT: ENTROPY_FAIL [2], UNWRAP_FAIL [1], SLOT_CHANGE [0]. -/
def ksEvt : Nat := 0x30004
/-- KS_RING: NEXT_PAGE [9:0]. -/
def ksRing : Nat := 0x30008
/-- KS_STORES_LO: COUNT [31:0]. -/
def ksStoresLo : Nat := 0x30010
/-- KS_STORES_HI: COUNT [31:0]. -/
def ksStoresHi : Nat := 0x30014
/-- KS_CTR_WAITS: COUNT [31:0]. -/
def ksCtrWaits : Nat := 0x30018
/-- KS_SLOT_nnnn: STATE [31:29], USE [28:27], GENERATION [15:0]. -/
def ksSlot (n : Nat) : Nat := 0x31000 + 4 * n
/-- CZ_CFG: VFAIL_MAX [15:8], SWDEC_EN [0]. -/
def czCfg (sl : Nat) : Nat := sliceAdr sl (0x160000)
/-- CZ_STS: DECOMP [15:8], COMP [7:0]. -/
def czSts (sl : Nat) : Nat := sliceAdr sl (0x160004)
/-- CZ_EVT: OUTPUT_OVERFLOW [5], LENGTH_MISMATCH [4], SWDEC [3], STORED_FORMAT [2], PAIR_FENCED [1], VERIFY_FAIL
[0]. -/
def czEvt (sl : Nat) : Nat := sliceAdr sl (0x160008)
/-- CZ_ERR_STS: VALID [31], UNIT [26:24], STATUS [23:20], CONTEXT [15:0]. -/
def czErrSts (sl : Nat) : Nat := sliceAdr sl (0x160010)
/-- CZ_ERR_DECL_LO: BYTES [31:0]. -/
def czErrDeclLo (sl : Nat) : Nat := sliceAdr sl (0x160018)
/-- CZ_ERR_DECL_HI: BYTES [31:0]. -/
def czErrDeclHi (sl : Nat) : Nat := sliceAdr sl (0x16001C)
/-- CZ_ERR_ARR_LO: BYTES [31:0]. -/
def czErrArrLo (sl : Nat) : Nat := sliceAdr sl (0x160020)
/-- CZ_ERR_ARR_HI: BYTES [31:0]. -/
def czErrArrHi (sl : Nat) : Nat := sliceAdr sl (0x160024)
/-- CZ_IN_LO: BYTES [31:0]. -/
def czInLo (sl : Nat) : Nat := sliceAdr sl (0x160030)
/-- CZ_IN_HI: BYTES [31:0]. -/
def czInHi (sl : Nat) : Nat := sliceAdr sl (0x160034)
/-- CZ_OUT_LO: BYTES [31:0]. -/
def czOutLo (sl : Nat) : Nat := sliceAdr sl (0x160038)
/-- CZ_OUT_HI: BYTES [31:0]. -/
def czOutHi (sl : Nat) : Nat := sliceAdr sl (0x16003C)
/-- CZ_RAW_UNITS: COUNT [31:0]. -/
def czRawUnits (sl : Nat) : Nat := sliceAdr sl (0x160040)
/-- CZ_SWDEC: COUNT [31:0]. -/
def czSwdec (sl : Nat) : Nat := sliceAdr sl (0x160044)
/-- CZ_VFAIL_e: COUNT [31:0]. -/
def czVfail (sl e : Nat) : Nat := sliceAdr sl (0x160050 + 4 * e)
/-- AS_CFG: RESUME_MAX [15:8], FALLBACK_EN [0]. -/
def asCfg (sl : Nat) : Nat := sliceAdr sl (0x180000)
/-- AS_STS: RATE_1 [11:10], RATE_0 [9:8], ARRAY_1 [3:2], ARRAY_0 [1:0]. -/
def asSts (sl : Nat) : Nat := sliceAdr sl (0x180004)
/-- AS_EVT: RELOAD [4], ENTRY_STATE [3], FALLBACK [2], SUSPENDED [1], RATE_CHANGE [0]. -/
def asEvt (sl : Nat) : Nat := sliceAdr sl (0x180008)
/-- AS_ERR_STS: VALID [31], ARRAY [30], STATUS [29:26], PART [25:22], OFFSET [12:0]. -/
def asErrSts (sl : Nat) : Nat := sliceAdr sl (0x180010)
/-- AS_ERR_DECL: BYTES [31:0]. -/
def asErrDecl (sl : Nat) : Nat := sliceAdr sl (0x180014)
/-- AS_ERR_ARR: BYTES [31:0]. -/
def asErrArr (sl : Nat) : Nat := sliceAdr sl (0x180018)
/-- AS_SEARCHES_LO_r: COUNT [31:0]. -/
def asSearchesLo (sl r : Nat) : Nat := sliceAdr sl (0x180020 + 8 * r)
/-- AS_SEARCHES_HI_r: COUNT [31:0]. -/
def asSearchesHi (sl r : Nat) : Nat := sliceAdr sl (0x180024 + 8 * r)
/-- AS_RESUMES_r: COUNT [31:0]. -/
def asResumes (sl r : Nat) : Nat := sliceAdr sl (0x180030 + 4 * r)
/-- AS_FALLBACK_r: COUNT [31:0]. -/
def asFallback (sl r : Nat) : Nat := sliceAdr sl (0x180038 + 4 * r)
/-- AS_THROTTLE_r: COUNT [31:0]. -/
def asThrottle (sl r : Nat) : Nat := sliceAdr sl (0x180040 + 4 * r)
/-- AS_PART_r_pp: KIND [31:29], OWNER [23:16], SIZE [13:8], BASE [4:0]. -/
def asPart (sl r p : Nat) : Nat := sliceAdr sl (0x180100 + 64 * r + 4 * p)
/-- TQ_CFG: RERUN_EN [0]. -/
def tqCfg (sl : Nat) : Nat := sliceAdr sl (0x1C0000)
/-- TQ_EVT: DISCARD [5], FENCED_CUT [4], EMIT_FULL [3], NOT_OWNER [2], STRAY [1], OVERRUN [0]. -/
def tqEvt (sl : Nat) : Nat := sliceAdr sl (0x1C0004)
/-- TQ_OVERRUNS: COUNT [31:0]. -/
def tqOverruns (sl : Nat) : Nat := sliceAdr sl (0x1C0010)
/-- TQ_STRAY: COUNT [31:0]. -/
def tqStray (sl : Nat) : Nat := sliceAdr sl (0x1C0014)
/-- TQ_RERUNS: COUNT [31:0]. -/
def tqReruns (sl : Nat) : Nat := sliceAdr sl (0x1C0018)
/-- TQ_CL_SLOTS_c: USED [26:16], READY [10:0]. -/
def tqClSlots (sl c : Nat) : Nat := sliceAdr sl (0x1C0100 + 64 * c)
/-- TQ_CL_FLOWS_c: OPEN [12:0]. -/
def tqClFlows (sl c : Nat) : Nat := sliceAdr sl (0x1C0104 + 64 * c)
/-- TQ_CL_DELAY_c: FAR [28:16], NEAR [12:0]. -/
def tqClDelay (sl c : Nat) : Nat := sliceAdr sl (0x1C0108 + 64 * c)
/-- TQ_CL_L2_c: B_HELD [17], A_HELD [16], B_OWNER [15:8], A_OWNER [7:0]. -/
def tqClL2 (sl c : Nat) : Nat := sliceAdr sl (0x1C010C + 64 * c)
/-- TQ_CL_DISP_LO_c: COUNT [31:0]. -/
def tqClDispLo (sl c : Nat) : Nat := sliceAdr sl (0x1C0110 + 64 * c)
/-- TQ_CL_DISP_HI_c: COUNT [31:0]. -/
def tqClDispHi (sl c : Nat) : Nat := sliceAdr sl (0x1C0114 + 64 * c)
/-- TQ_TI_nnn: FLOWS [28:16], SLOTS [12:0]. -/
def tqTi (sl n : Nat) : Nat := sliceAdr sl (0x1C1000 + 4 * n)
/-- CT_CFG: DEV_RESERVE [15:0]. -/
def ctCfg (sl : Nat) : Nat := sliceAdr sl (0x240000)
/-- CT_STS: FREE [16:0]. -/
def ctSts (sl : Nat) : Nat := sliceAdr sl (0x240004)
/-- CT_EVT: NOT_OWNER [1], QUEUED [0]. -/
def ctEvt (sl : Nat) : Nat := sliceAdr sl (0x240008)
/-- CT_HDR_IDX: INDEX [15:0]. -/
def ctHdrIdx (sl : Nat) : Nat := sliceAdr sl (0x240010)
/-- CT_HDR_LO: HEADER [31:0]. -/
def ctHdrLo (sl : Nat) : Nat := sliceAdr sl (0x240014)
/-- CT_HDR_HI: HEADER [31:0]. -/
def ctHdrHi (sl : Nat) : Nat := sliceAdr sl (0x240018)
/-- CT_TI_nnn: USED [15:0]. -/
def ctTi (sl n : Nat) : Nat := sliceAdr sl (0x241000 + 4 * n)
/-- HD_CFG: COALESCE_EN [0]. -/
def hdCfg : Nat := 0x20000
/-- HD_STS: STOPPED [31], COURSE_BEATS [28:16], PROBE_CH [4:0]. -/
def hdSts : Nat := 0x20004
/-- HD_EVT: CFG_REJECT [3], CULPRIT [2], STOP_ALL [1], DATA_ERR [0]. -/
def hdEvt : Nat := 0x20008
/-- HD_SUSPECT: CH [31:0]. -/
def hdSuspect : Nat := 0x2000C
/-- HD_STOP_CNT: COUNT [31:0]. -/
def hdStopCnt : Nat := 0x20010
/-- HD_CULPRIT_CNT: COUNT [31:0]. -/
def hdCulpritCnt : Nat := 0x20014
/-- HD_STOP_MAX_NS: COUNT [31:0]. -/
def hdStopMaxNs : Nat := 0x20018
/-- HD_ERR: VALID [31], CAUSE [30:28], CHANNEL [24:20], MERGED [19], OWNER [8:0]. -/
def hdErr : Nat := 0x20020
/-- HD_CH_CTL_nn: HIGH [31], SHARE [24:16], KINDS [4:0]. -/
def hdChCtl (n : Nat) : Nat := 0x20100 + 8 * n
/-- HD_CH_STS_nn: STATE [31:29], OWNER [24:16], CREDIT [12:0]. -/
def hdChSts (n : Nat) : Nat := 0x20104 + 8 * n
/-- SD_STS: FENCED [31:16], ACTIVE [15:0]. -/
def sdSts (sl : Nat) : Nat := sliceAdr sl (0x200004)
/-- SD_EVT: MEMORY [1], FAULT [0]. -/
def sdEvt (sl : Nat) : Nat := sliceAdr sl (0x200008)
/-- SD_CH_STS_kk: STATUS [31:24], OWNER [16:8], STATE [1:0]. -/
def sdChSts (sl k : Nat) : Nat := sliceAdr sl (0x200100 + 4 * k)
/-- DM_CFG: AGE_NS [31:16], RATE [9:8], CONFIG [1:0]. -/
def dmCfg (sl : Nat) : Nat := sliceAdr sl (0x40000)
/-- DM_STS: HT_1 [3], HT_0 [2], BOTH_FENCED [1], DEGRADED [0]. -/
def dmSts (sl : Nat) : Nat := sliceAdr sl (0x40004)
/-- DM_EVT: SCRUB_DONE [4], HT_CHANGE [3], URG4 [2], RETRAINED [1], FENCED [0]. -/
def dmEvt (sl : Nat) : Nat := sliceAdr sl (0x40008)
/-- DM_REF_MAX_NS: NS [15:0]. -/
def dmRefMaxNs (sl : Nat) : Nat := sliceAdr sl (0x4000C)
/-- DM_CH_CTL_c: RETRAIN [31], HOLD [30], RT_HOURS [7:0]. -/
def dmChCtl (sl c : Nat) : Nat := sliceAdr sl (0x40100 + 64 * c)
/-- DM_CH_STS_c: TRAIN_TEMP [31:24], TRAIN_FAILS [23:16], SELFTEST_FAIL [15:8], STATE [2:0]. -/
def dmChSts (sl c : Nat) : Nat := sliceAdr sl (0x40104 + 64 * c)
/-- DM_RMW_CNT_c: COUNT [31:0]. -/
def dmRmwCnt (sl c : Nat) : Nat := sliceAdr sl (0x40108 + 64 * c)
/-- DM_PORT_CFG_pp: CLASS [17:16], TARGET_NS [15:0]. -/
def dmPortCfg (sl p : Nat) : Nat := sliceAdr sl (0x40200 + 4 * p)
/-- DM_URG4_CNT_pp: COUNT [31:0]. -/
def dmUrg4Cnt (sl p : Nat) : Nat := sliceAdr sl (0x40240 + 4 * p)
/-- DM_SCRUB_CTL: GO [31], STOP [30], RATE [7:0]. -/
def dmScrubCtl (sl : Nat) : Nat := sliceAdr sl (0x40300)
/-- DM_SCRUB_STS: STATE [31:30], PCT [7:0]. -/
def dmScrubSts (sl : Nat) : Nat := sliceAdr sl (0x40304)
/-- DM_SCRUB_BASE_LO: BYTES [31:0]. -/
def dmScrubBaseLo (sl : Nat) : Nat := sliceAdr sl (0x40308)
/-- DM_SCRUB_BASE_HI: BYTES [31:0]. -/
def dmScrubBaseHi (sl : Nat) : Nat := sliceAdr sl (0x4030C)
/-- DM_SCRUB_LEN_LO: BYTES [31:0]. -/
def dmScrubLenLo (sl : Nat) : Nat := sliceAdr sl (0x40310)
/-- DM_SCRUB_LEN_HI: BYTES [31:0]. -/
def dmScrubLenHi (sl : Nat) : Nat := sliceAdr sl (0x40314)
/-- DM_SCRUB_CE: COUNT [31:0]. -/
def dmScrubCe (sl : Nat) : Nat := sliceAdr sl (0x40318)
/-- DM_SCRUB_UE: COUNT [31:0]. -/
def dmScrubUe (sl : Nat) : Nat := sliceAdr sl (0x4031C)
/-- DM_SCRUB_ADDR_LO_nn: SA [31:0]. -/
def dmScrubAddrLo (sl n : Nat) : Nat := sliceAdr sl (0x40340 + 8 * n)
/-- DM_SCRUB_ADDR_HI_nn: SA [31:0]. -/
def dmScrubAddrHi (sl n : Nat) : Nat := sliceAdr sl (0x40344 + 8 * n)
/-- EC_SUM: SELFTEST [6], SRAM_UE [5], SRAM_CE [4], DRAM_UE_1 [3], DRAM_CE_1 [2], DRAM_UE_0 [1], DRAM_CE_0 [0]. -/
def ecSum (sl : Nat) : Nat := sliceAdr sl (0x280000)
/-- EC_DRAM_CE_c: COUNT [31:0]. -/
def ecDramCe (sl c : Nat) : Nat := sliceAdr sl (0x280010 + 16 * c)
/-- EC_DRAM_UE_c: COUNT [31:0]. -/
def ecDramUe (sl c : Nat) : Nat := sliceAdr sl (0x280014 + 16 * c)
/-- EC_POISON_c: COUNT [31:0]. -/
def ecPoison (sl c : Nat) : Nat := sliceAdr sl (0x280018 + 16 * c)
/-- EC_SRAM_CE: COUNT [31:0]. -/
def ecSramCe (sl : Nat) : Nat := sliceAdr sl (0x280030)
/-- EC_SRAM_UE: COUNT [31:0]. -/
def ecSramUe (sl : Nat) : Nat := sliceAdr sl (0x280034)
/-- EC_FIRST_SRC: VALID [31], SOURCE [7:0]. -/
def ecFirstSrc (sl : Nat) : Nat := sliceAdr sl (0x280040)
/-- EC_FIRST_ADDR_LO: ADDR [31:0]. -/
def ecFirstAddrLo (sl : Nat) : Nat := sliceAdr sl (0x280044)
/-- EC_FIRST_ADDR_HI: ADDR [31:0]. -/
def ecFirstAddrHi (sl : Nat) : Nat := sliceAdr sl (0x280048)
/-- EC_DEVCE_c_s_dd: COUNT [31:0]. -/
def ecDevce (sl cs d : Nat) : Nat := sliceAdr sl (0x280100 + 40 * cs + 4 * d)
/-- DG_CFG: IDLE_MS [15:0]. -/
def dgCfg : Nat := 0x40000
/-- DG_STS: FENCED [31:16], BUSY [15:0]. -/
def dgSts : Nat := 0x40004
/-- DG_EVT: FENCED [4], ABANDONED [3], KEY [2], LENGTH [1], BUSY_REFUSED [0]. -/
def dgEvt : Nat := 0x40008
/-- DG_ERR_STS: VALID [31], INSTANCE [28:24], STATUS [23:20], OWNER [8:0]. -/
def dgErrSts : Nat := 0x40010
/-- DG_ERR_DECL_LO: BYTES [31:0]. -/
def dgErrDeclLo : Nat := 0x40018
/-- DG_ERR_DECL_HI: BYTES [31:0]. -/
def dgErrDeclHi : Nat := 0x4001C
/-- DG_ERR_ARR_LO: BYTES [31:0]. -/
def dgErrArrLo : Nat := 0x40020
/-- DG_ERR_ARR_HI: BYTES [31:0]. -/
def dgErrArrHi : Nat := 0x40024
/-- DG_BUSY_CNT: COUNT [31:0]. -/
def dgBusyCnt : Nat := 0x40030
/-- DG_ABANDON_CNT: COUNT [31:0]. -/
def dgAbandonCnt : Nat := 0x40034
/-- DG_INST_STS_ii: STATE [31:29], ALG [28:26], HMAC [25], ASSIGNED [17:9], OWNER [8:0]. -/
def dgInstSts (i : Nat) : Nat := 0x40100 + 16 * i
/-- DG_INST_BYTES_LO_ii: BYTES [31:0]. -/
def dgInstBytesLo (i : Nat) : Nat := 0x40108 + 16 * i
/-- DG_INST_BYTES_HI_ii: BYTES [31:0]. -/
def dgInstBytesHi (i : Nat) : Nat := 0x4010C + 16 * i
/-- MS_STS: LOG_COMPLETE [31], LOG_ENTRIES [26:16], ACTIVATIONS [15:8]. -/
def msSts : Nat := 0x50000
/-- MS_EVT: LOG_LOST [1], EXTENDED [0]. -/
def msEvt : Nat := 0x50004
/-- MS_EXT_IDX: INDEX [4:0]. -/
def msExtIdx : Nat := 0x50010
/-- MS_EXT_DATA_ww: DATA [31:0]. -/
def msExtData (w : Nat) : Nat := 0x50020 + 4 * w
/-- MS_EXT_CMD: GO [0]. -/
def msExtCmd : Nat := 0x50050
/-- MS_EXT_STS: BUSY [31], RESULT [3:0]. -/
def msExtSts : Nat := 0x50054
/-- MS_LOG_LOST: COUNT [31:0]. -/
def msLogLost : Nat := 0x50058
/-- MS_VAL_nn_ww: VALUE [31:0]. -/
def msVal (n w : Nat) : Nat := 0x51000 + 64 * n + 4 * w
/-- PW_STS: PSTATE [26:24], OPSTATE [18:16], THROUGH [5], UNHEALTHY [4], ARMED [3], MODE [2:0]. -/
def pwSts : Nat := 0x80000
/-- PW_EVT: CAP_LIMIT [6], PSTATE_CHANGE [5], MEASURED [4], UNHEALTHY [3], RIDE [2], SURGE [1], SAG [0]. -/
def pwEvt : Nat := 0x80004
/-- PW_HU_CTL: CLEAR [31], MEASURE [30], ENABLE [0]. -/
def pwHuCtl : Nat := 0x80008
/-- PW_HU_STS: CAUSE [31:28], LAST_DUMP [23:20], SAG_MS [15:0]. -/
def pwHuSts : Nat := 0x8000C
/-- PW_HU_VCFG: FLOAT_MV [31:16], VMIN_MV [15:0]. -/
def pwHuVcfg : Nat := 0x80010
/-- PW_HU_SCFG: SAG_MV [31:16], SURGE_MV [15:0]. -/
def pwHuScfg : Nat := 0x80014
/-- PW_HU_TCFG: RIDE_MS [31:24], CHG_S [23:16], BAND [15:8], THR_X10 [7:0]. -/
def pwHuTcfg : Nat := 0x80018
/-- PW_HU_FCFG: FLUSH_W [31:16], ETA_PCT [15:8], DUMP_ARRAY [2:0]. -/
def pwHuFcfg : Nat := 0x8001C
/-- PW_HU_MCFG: STEP_MA [31:16], STEP_MS [15:0]. -/
def pwHuMcfg : Nat := 0x80020
/-- PW_HU_CAP_UF: VALUE [31:0]. -/
def pwHuCapUf : Nat := 0x80024
/-- PW_HU_EUSE_MJ: VALUE [31:0]. -/
def pwHuEuseMj : Nat := 0x8002C
/-- PW_HU_ELIVE_MJ: VALUE [31:0]. -/
def pwHuEliveMj : Nat := 0x80030
/-- PW_HU_NEED_MJ: VALUE [31:0]. -/
def pwHuNeedMj : Nat := 0x80034
/-- PW_HU_RATE: VALUE [31:0]. -/
def pwHuRate : Nat := 0x80038
/-- PW_HU_ESR: MOHM [15:0]. -/
def pwHuEsr : Nat := 0x80028
/-- PW_HU_WB: CEIL_MIB [31:16], SIZE_MIB [15:0]. -/
def pwHuWb : Nat := 0x8003C
/-- PW_PWR: VALUE [31:0]. -/
def pwPwr : Nat := 0x80040
/-- PW_LAT: VALUE [31:0]. -/
def pwLat : Nat := 0x80048
/-- PW_PST_CFG: IDLE_MS [31:16], CAP_MARGIN_PCT [15:8], TRIP_C [7:0]. -/
def pwPstCfg : Nat := 0x80044
/-- PW_SENSE_V: SUP_MV [31:16], BANK_MV [15:0]. -/
def pwSenseV : Nat := 0x8004C
/-- PW_SENSE_I: BANK_MA [15:0]. -/
def pwSenseI : Nat := 0x80050
/-- PW_SAG_CNT: COUNT [31:0]. -/
def pwSagCnt : Nat := 0x80054
/-- PW_RIDE_CNT: COUNT [31:0]. -/
def pwRideCnt : Nat := 0x80058
/-- PW_DUMP_CNT: COUNT [31:0]. -/
def pwDumpCnt : Nat := 0x8005C
/-- PW_TJ_gg: TEMP [15:0]. -/
def pwTj (g : Nat) : Nat := 0x80080 + 4 * g
/-- PW_LOOP_CTL_nn: CLOSED [31], FE_MODE [30:29], SINK [23:16], SOURCE [7:0]. -/
def pwLoopCtl (n : Nat) : Nat := 0x80100 + 64 * n
/-- PW_LOOP_STS_nn: FE_TRIP [7], CFG_IGNORED [6], WINDUP [5], SAT_OUT [4], SAT_ARITH [3]. -/
def pwLoopSts (n : Nat) : Nat := 0x80104 + 64 * n
/-- PW_LOOP_SP_nn: VALUE [31:0]. -/
def pwLoopSp (n : Nat) : Nat := 0x80108 + 64 * n
/-- PW_LOOP_KP_nn: VALUE [31:0]. -/
def pwLoopKp (n : Nat) : Nat := 0x8010C + 64 * n
/-- PW_LOOP_KI_nn: VALUE [31:0]. -/
def pwLoopKi (n : Nat) : Nat := 0x80110 + 64 * n
/-- PW_LOOP_KD_nn: VALUE [31:0]. -/
def pwLoopKd (n : Nat) : Nat := 0x80114 + 64 * n
/-- PW_LOOP_ALPHA_nn: VALUE [31:0]. -/
def pwLoopAlpha (n : Nat) : Nat := 0x80118 + 64 * n
/-- PW_LOOP_OMIN_nn: VALUE [31:0]. -/
def pwLoopOmin (n : Nat) : Nat := 0x8011C + 64 * n
/-- PW_LOOP_OMAX_nn: VALUE [31:0]. -/
def pwLoopOmax (n : Nat) : Nat := 0x80120 + 64 * n
/-- PW_RIDE_SP: VALUE [31:0]. -/
def pwRideSp : Nat := 0x80500
/-- PW_RIDE_KP: VALUE [31:0]. -/
def pwRideKp : Nat := 0x80504
/-- PW_RIDE_KI: VALUE [31:0]. -/
def pwRideKi : Nat := 0x80508
/-- PW_RIDE_KD: VALUE [31:0]. -/
def pwRideKd : Nat := 0x8050C
/-- PW_LOOP_MEAS_nn: VALUE [31:0]. -/
def pwLoopMeas (n : Nat) : Nat := 0x80124 + 64 * n
/-- PW_LOOP_OUT_nn: VALUE [31:0]. -/
def pwLoopOut (n : Nat) : Nat := 0x80128 + 64 * n
/-- PW_LOOP_INT_nn: VALUE [31:0]. -/
def pwLoopInt (n : Nat) : Nat := 0x8012C + 64 * n
/-- PW_LOOP_FE_nn: PCT [31:24], TIME_US [15:0]. -/
def pwLoopFe (n : Nat) : Nat := 0x80130 + 64 * n
/-- ST_STS: TRIAL [11], SLOT [10], MINIMAL [7], STAGE [2:0]. -/
def stSts : Nat := 0xA0000
/-- ST_START_REASON: LAST_CAUSE [23:16], LAST_STAGE [10:8], MIN_REASON [7:0]. -/
def stStartReason : Nat := 0xA0004
/-- ST_FAIL_CNT: COUNT [7:0]. -/
def stFailCnt : Nat := 0xA0008
/-- ST_FW_SLOT: NEXT_VALID [7], TRIED [6], NEXT [1], ACTIVE [0]. -/
def stFwSlot : Nat := 0xA000C
/-- ST_CYCLES: VALUE [31:0]. -/
def stCycles : Nat := 0xA0010
/-- ST_MINUTES: VALUE [31:0]. -/
def stMinutes : Nat := 0xA0014
/-- ST_T_LINK_US: VALUE [31:0]. -/
def stTLinkUs : Nat := 0xA0018
/-- ST_T_READY_MS: VALUE [31:0]. -/
def stTReadyMs : Nat := 0xA001C
/-- ST_EVT: SLICE_LATE [3], SUCCESS [2], READY [1], TRIAL_ABANDONED [0]. -/
def stEvt : Nat := 0xA0020
/-- NV_STORE_CMD: GO [0]. -/
def nvStoreCmd : Nat := 0x70000
/-- NV_STORE_STS: BUSY [31], GO_IGNORED [30], TOKENS [22:16], RESULT [3:0]. -/
def nvStoreSts : Nat := 0x70004
/-- NV_STORE_SEQ: SEQ [31:0]. -/
def nvStoreSeq : Nat := 0x70008
/-- NV_STS: BANK [28], SPARE_LEFT [24:16], APPLIED [1], CONFIG_LOST [0]. -/
def nvSts : Nat := 0x7000C
/-- NV_EVT: CONFIG_LOST [2], PAGE_RETIRED [1], STORE_DONE [0]. -/
def nvEvt : Nat := 0x70010
/-- NV_PART_pp: PAGES [26:16], BASE [10:0]. -/
def nvPart (p : Nat) : Nat := 0x70100 + 4 * p
/-- NV_WEAR_pp: CYCLES [31:0]. -/
def nvWear (p : Nat) : Nat := 0x70140 + 4 * p
/-- EV_CTL: THAW [1], FREEZE [0]. -/
def evCtl : Nat := 0x60000
/-- EV_STS: DENIED [2], AUTO_THAW [1], FROZEN [0]. -/
def evSts : Nat := 0x60004
/-- EV_MISSED: COUNT [31:0]. -/
def evMissed : Nat := 0x60008
/-- EV_IMAGE_SEQ: COUNT [31:0]. -/
def evImageSeq : Nat := 0x6000C
/-- EV_NOTICES: COUNT [31:0]. -/
def evNotices : Nat := 0x60010
/-- EV_RD_SEL: WORD [11:0]. -/
def evRdSel : Nat := 0x60014
/-- EV_RD_DATA: DATA [31:0]. -/
def evRdData : Nat := 0x60018
/-- TC_STS: SLICE_OFFLINE [23:16], JTAG [1:0]. -/
def tcSts : Nat := 0xB0000
/-- TC_EVT: SLICE_OFFLINE [3], FAULT_FENCE [2], TEST_FAIL [1], TEST_DONE [0]. -/
def tcEvt : Nat := 0xB0004
/-- TC_TEST_CTL: GO [31], KIND [23:16], SLICE [15:8], NUMBER [7:0]. -/
def tcTestCtl : Nat := 0xB0008
/-- TC_TEST_STS: RESULT [31:28], UNIT [23:0]. -/
def tcTestSts : Nat := 0xB000C
/-- TC_SLICE_CTL: OFFLINE [31], SLICE [2:0]. -/
def tcSliceCtl : Nat := 0xB0010
/-- TC_FAULT_CNT: COUNT [31:0]. -/
def tcFaultCnt : Nat := 0xB0014
/-- TC_FAULT_LAST: VALID [31], CAUSE [27:24], UNIT [23:0]. -/
def tcFaultLast : Nat := 0xB0018
/-- TS_STS: STATE [31:30], FLCL_FENCED [11:10], REGION_FENCED [9:8], CLUSTER_FENCED [3:0]. -/
def tsSts (sl : Nat) : Nat := sliceAdr sl (0x2C0000)
/-- TS_CORE_FENCED: CORES [31:0]. -/
def tsCoreFenced (sl : Nat) : Nat := sliceAdr sl (0x2C0004)
/-- TS_FENCE_CNT: COUNT [31:0]. -/
def tsFenceCnt (sl : Nat) : Nat := sliceAdr sl (0x2C0008)
/-- HUB_ID: DEVICE_ID [31:16], VENDOR_ID [15:0]. -/
def hubId : Nat := 0x0
/-- HUB_PART: SILICON_REV [23:16], PART [7:0]. -/
def hubPart : Nat := 0x4
/-- HUB_PKG_ID_LO: ID [31:0]. -/
def hubPkgIdLo : Nat := 0x8
/-- HUB_PKG_ID_HI: ID [31:0]. -/
def hubPkgIdHi : Nat := 0xC
/-- HUB_FW_LEVEL: LEVEL [31:0]. -/
def hubFwLevel : Nat := 0x10
/-- HUB_ACC_STS: RESERVED [31], WIDTH [30], ASLEEP [29], EARLY [28], ADDR [25:0]. -/
def hubAccSts : Nat := 0x14
/-- HUB_CAP_SLICE: REGIONS_PRESENT [31:16], SLICES_PRESENT [7:0]. -/
def hubCapSlice : Nat := 0x20
/-- HUB_CAP_CZ: CZ_PRESENT [31:0]. -/
def hubCapCz : Nat := 0x24
/-- HUB_CAP_UNITS: DG_PRESENT [31:16], AS_PRESENT [15:0]. -/
def hubCapUnits : Nat := 0x28
/-- HUB_CAP_REV: CORE_REV [31:24], CZ_REV [23:16], MAP_VERSION [7:0]. -/
def hubCapRev : Nat := 0x2C
/-- HUB_CAP_LIMITS: POWER_W [31:16], TI_MAX [8:0]. -/
def hubCapLimits : Nat := 0x30
/-- SL_ID: SILICON_REV [15:8], SLICE [2:0]. -/
def slId (sl : Nat) : Nat := sliceAdr sl (0x0)

end Adr

/-- A register of a block: offset, two repeat counts with their strides, Reset value and write masks (R5). -/
structure RegRow where
  off : Nat
  n1 : Nat
  s1 : Nat
  n2 : Nat
  s2 : Nat
  reset : Nat
  rw : Nat
  w1c : Nat
  wo : Nat
  deriving DecidableEq, Repr

/-- Does the row hold the register at this offset of its block? -/
def RegRow.covers (r : RegRow) (off : Nat) : Bool :=
  let d := off - r.off
  decide (r.off ≤ off) && decide (d / r.s1 < r.n1) && decide (d % r.s1 / r.s2 < r.n2) && decide (d % r.s1 % r.s2 = 0)

/-- The registers of the HUB block. -/
def rowsHub : List RegRow := [
  ⟨0x0, 1, 1, 1, 1, 0x5F102A17, 0x0, 0x0, 0x0⟩,
  ⟨0x4, 1, 1, 1, 1, 0x0, 0x0, 0x0, 0x0⟩,
  ⟨0x8, 1, 1, 1, 1, 0x0, 0x0, 0x0, 0x0⟩,
  ⟨0xC, 1, 1, 1, 1, 0x0, 0x0, 0x0, 0x0⟩,
  ⟨0x10, 1, 1, 1, 1, 0x0, 0x0, 0x0, 0x0⟩,
  ⟨0x14, 1, 1, 1, 1, 0x0, 0x0, 0xF0000000, 0x0⟩,
  ⟨0x20, 1, 1, 1, 1, 0x0, 0x0, 0x0, 0x0⟩,
  ⟨0x24, 1, 1, 1, 1, 0x0, 0x0, 0x0, 0x0⟩,
  ⟨0x28, 1, 1, 1, 1, 0x0, 0x0, 0x0, 0x0⟩,
  ⟨0x2C, 1, 1, 1, 1, 0x1, 0x0, 0x0, 0x0⟩,
  ⟨0x30, 1, 1, 1, 1, 0x100, 0x0, 0x0, 0x0⟩ ]

/-- The registers of the FN block. -/
def rowsFn : List RegRow := [
  ⟨0x0, 1, 1, 1, 1, 0x0, 0x0, 0x0, 0x0⟩,
  ⟨0x4, 1, 1, 1, 1, 0x0, 0x0, 0xF, 0x0⟩,
  ⟨0x1000, 256, 16, 1, 1, 0x0, 0x0, 0x0, 0x0⟩,
  ⟨0x1004, 256, 16, 1, 1, 0x0, 0x0, 0x0, 0x0⟩,
  ⟨0x1008, 256, 16, 1, 1, 0x0, 0x0, 0x0, 0x0⟩,
  ⟨0x100C, 256, 16, 1, 1, 0x0, 0x0, 0x0, 0x0⟩ ]

/-- The registers of the HD block. -/
def rowsHd : List RegRow := [
  ⟨0x0, 1, 1, 1, 1, 0x1, 0x1, 0x0, 0x0⟩,
  ⟨0x4, 1, 1, 1, 1, 0x0, 0x0, 0x0, 0x0⟩,
  ⟨0x8, 1, 1, 1, 1, 0x0, 0x0, 0xF, 0x0⟩,
  ⟨0xC, 1, 1, 1, 1, 0x0, 0x0, 0x0, 0x0⟩,
  ⟨0x10, 1, 1, 1, 1, 0x0, 0x0, 0x0, 0x0⟩,
  ⟨0x14, 1, 1, 1, 1, 0x0, 0x0, 0x0, 0x0⟩,
  ⟨0x18, 1, 1, 1, 1, 0x0, 0x0, 0x0, 0x0⟩,
  ⟨0x20, 1, 1, 1, 1, 0x0, 0x0, 0x80000000, 0x0⟩,
  ⟨0x100, 32, 8, 1, 1, 0x0, 0x81FF001F, 0x0, 0x0⟩,
  ⟨0x104, 32, 8, 1, 1, 0x0, 0x0, 0x0, 0x0⟩ ]

/-- The registers of the KS block. -/
def rowsKs : List RegRow := [
  ⟨0x0, 1, 1, 1, 1, 0x0, 0x0, 0x0, 0x0⟩,
  ⟨0x4, 1, 1, 1, 1, 0x0, 0x0, 0x7, 0x0⟩,
  ⟨0x8, 1, 1, 1, 1, 0x0, 0x0, 0x0, 0x0⟩,
  ⟨0x10, 1, 1, 1, 1, 0x0, 0x0, 0x0, 0x0⟩,
  ⟨0x14, 1, 1, 1, 1, 0x0, 0x0, 0x0, 0x0⟩,
  ⟨0x18, 1, 1, 1, 1, 0x0, 0x0, 0x0, 0x0⟩,
  ⟨0x1000, 4608, 4, 1, 1, 0x0, 0x0, 0x0, 0x0⟩ ]

/-- The registers of the DG block. -/
def rowsDg : List RegRow := [
  ⟨0x0, 1, 1, 1, 1, 0xEA60, 0xFFFF, 0x0, 0x0⟩,
  ⟨0x4, 1, 1, 1, 1, 0x0, 0x0, 0x0, 0x0⟩,
  ⟨0x8, 1, 1, 1, 1, 0x0, 0x0, 0x1F, 0x0⟩,
  ⟨0x10, 1, 1, 1, 1, 0x0, 0x0, 0x80000000, 0x0⟩,
  ⟨0x18, 1, 1, 1, 1, 0x0, 0x0, 0x0, 0x0⟩,
  ⟨0x1C, 1, 1, 1, 1, 0x0, 0x0, 0x0, 0x0⟩,
  ⟨0x20, 1, 1, 1, 1, 0x0, 0x0, 0x0, 0x0⟩,
  ⟨0x24, 1, 1, 1, 1, 0x0, 0x0, 0x0, 0x0⟩,
  ⟨0x30, 1, 1, 1, 1, 0x0, 0x0, 0x0, 0x0⟩,
  ⟨0x34, 1, 1, 1, 1, 0x0, 0x0, 0x0, 0x0⟩,
  ⟨0x100, 16, 16, 1, 1, 0x20000, 0x0, 0x0, 0x0⟩,
  ⟨0x108, 16, 16, 1, 1, 0x0, 0x0, 0x0, 0x0⟩,
  ⟨0x10C, 16, 16, 1, 1, 0x0, 0x0, 0x0, 0x0⟩ ]

/-- The registers of the MS block. -/
def rowsMs : List RegRow := [
  ⟨0x0, 1, 1, 1, 1, 0x80000000, 0x0, 0x0, 0x0⟩,
  ⟨0x4, 1, 1, 1, 1, 0x0, 0x0, 0x3, 0x0⟩,
  ⟨0x10, 1, 1, 1, 1, 0x10, 0x1F, 0x0, 0x0⟩,
  ⟨0x20, 12, 4, 1, 1, 0x0, 0xFFFFFFFF, 0x0, 0x0⟩,
  ⟨0x50, 1, 1, 1, 1, 0x0, 0x0, 0x0, 0x1⟩,
  ⟨0x54, 1, 1, 1, 1, 0x0, 0x0, 0x0, 0x0⟩,
  ⟨0x58, 1, 1, 1, 1, 0x0, 0x0, 0x0, 0x0⟩,
  ⟨0x1000, 32, 64, 12, 4, 0x0, 0x0, 0x0, 0x0⟩ ]

/-- The registers of the EV block. -/
def rowsEv : List RegRow := [
  ⟨0x0, 1, 1, 1, 1, 0x0, 0x0, 0x0, 0x3⟩,
  ⟨0x4, 1, 1, 1, 1, 0x0, 0x0, 0x6, 0x0⟩,
  ⟨0x8, 1, 1, 1, 1, 0x0, 0x0, 0x0, 0x0⟩,
  ⟨0xC, 1, 1, 1, 1, 0x0, 0x0, 0x0, 0x0⟩,
  ⟨0x10, 1, 1, 1, 1, 0x0, 0x0, 0x0, 0x0⟩,
  ⟨0x14, 1, 1, 1, 1, 0x0, 0xFFF, 0x0, 0x0⟩,
  ⟨0x18, 1, 1, 1, 1, 0x0, 0x0, 0x0, 0x0⟩ ]

/-- The registers of the NV block. -/
def rowsNv : List RegRow := [
  ⟨0x0, 1, 1, 1, 1, 0x0, 0x0, 0x0, 0x1⟩,
  ⟨0x4, 1, 1, 1, 1, 0x0, 0x0, 0x40000000, 0x0⟩,
  ⟨0x8, 1, 1, 1, 1, 0x0, 0x0, 0x0, 0x0⟩,
  ⟨0xC, 1, 1, 1, 1, 0x0, 0x0, 0x0, 0x0⟩,
  ⟨0x10, 1, 1, 1, 1, 0x0, 0x0, 0x7, 0x0⟩,
  ⟨0x100, 7, 4, 1, 1, 0x0, 0x0, 0x0, 0x0⟩,
  ⟨0x140, 7, 4, 1, 1, 0x0, 0x0, 0x0, 0x0⟩ ]

/-- The registers of the PW block. -/
def rowsPw : List RegRow := [
  ⟨0x0, 1, 1, 1, 1, 0x0, 0x0, 0x0, 0x0⟩,
  ⟨0x4, 1, 1, 1, 1, 0x0, 0x0, 0x7F, 0x0⟩,
  ⟨0x8, 1, 1, 1, 1, 0x0, 0x1, 0x0, 0xC0000000⟩,
  ⟨0xC, 1, 1, 1, 1, 0x0, 0x0, 0x0, 0x0⟩,
  ⟨0x10, 1, 1, 1, 1, 0x8CA036B0, 0xFFFFFFFF, 0x0, 0x0⟩,
  ⟨0x14, 1, 1, 1, 1, 0x2AF836B0, 0xFFFFFFFF, 0x0, 0x0⟩,
  ⟨0x18, 1, 1, 1, 1, 0x143C320F, 0xFFFFFFFF, 0x0, 0x0⟩,
  ⟨0x1C, 1, 1, 1, 1, 0x1905A02, 0xFFFFFF07, 0x0, 0x0⟩,
  ⟨0x20, 1, 1, 1, 1, 0x7D000C8, 0xFFFFFFFF, 0x0, 0x0⟩,
  ⟨0x24, 1, 1, 1, 1, 0x0, 0x0, 0x0, 0x0⟩,
  ⟨0x2C, 1, 1, 1, 1, 0x0, 0x0, 0x0, 0x0⟩,
  ⟨0x30, 1, 1, 1, 1, 0x0, 0x0, 0x0, 0x0⟩,
  ⟨0x34, 1, 1, 1, 1, 0x0, 0x0, 0x0, 0x0⟩,
  ⟨0x38, 1, 1, 1, 1, 0x0, 0x0, 0x0, 0x0⟩,
  ⟨0x28, 1, 1, 1, 1, 0x0, 0x0, 0x0, 0x0⟩,
  ⟨0x3C, 1, 1, 1, 1, 0x0, 0x0, 0x0, 0x0⟩,
  ⟨0x40, 1, 1, 1, 1, 0x0, 0x0, 0x0, 0x0⟩,
  ⟨0x48, 1, 1, 1, 1, 0x0, 0x0, 0x0, 0x0⟩,
  ⟨0x44, 1, 1, 1, 1, 0x64046E, 0xFFFFFFFF, 0x0, 0x0⟩,
  ⟨0x4C, 1, 1, 1, 1, 0x0, 0x0, 0x0, 0x0⟩,
  ⟨0x50, 1, 1, 1, 1, 0x0, 0x0, 0x0, 0x0⟩,
  ⟨0x54, 1, 1, 1, 1, 0x0, 0x0, 0x0, 0x0⟩,
  ⟨0x58, 1, 1, 1, 1, 0x0, 0x0, 0x0, 0x0⟩,
  ⟨0x5C, 1, 1, 1, 1, 0x0, 0x0, 0x0, 0x0⟩,
  ⟨0x80, 16, 4, 1, 1, 0x0, 0x0, 0x0, 0x0⟩,
  ⟨0x100, 16, 64, 1, 1, 0x0, 0xE0FF00FF, 0x0, 0x0⟩,
  ⟨0x104, 16, 64, 1, 1, 0x0, 0x0, 0xF8, 0x0⟩,
  ⟨0x108, 16, 64, 1, 1, 0x0, 0xFFFFFFFF, 0x0, 0x0⟩,
  ⟨0x10C, 16, 64, 1, 1, 0x0, 0xFFFFFFFF, 0x0, 0x0⟩,
  ⟨0x110, 16, 64, 1, 1, 0x0, 0xFFFFFFFF, 0x0, 0x0⟩,
  ⟨0x114, 16, 64, 1, 1, 0x0, 0xFFFFFFFF, 0x0, 0x0⟩,
  ⟨0x118, 16, 64, 1, 1, 0x0, 0xFFFFFFFF, 0x0, 0x0⟩,
  ⟨0x11C, 16, 64, 1, 1, 0x0, 0xFFFFFFFF, 0x0, 0x0⟩,
  ⟨0x120, 16, 64, 1, 1, 0x0, 0xFFFFFFFF, 0x0, 0x0⟩,
  ⟨0x500, 1, 1, 1, 1, 0xB6666, 0xFFFFFFFF, 0x0, 0x0⟩,
  ⟨0x504, 1, 1, 1, 1, 0x0, 0xFFFFFFFF, 0x0, 0x0⟩,
  ⟨0x508, 1, 1, 1, 1, 0x0, 0xFFFFFFFF, 0x0, 0x0⟩,
  ⟨0x50C, 1, 1, 1, 1, 0x0, 0xFFFFFFFF, 0x0, 0x0⟩,
  ⟨0x124, 16, 64, 1, 1, 0x0, 0x0, 0x0, 0x0⟩,
  ⟨0x128, 16, 64, 1, 1, 0x0, 0x0, 0x0, 0x0⟩,
  ⟨0x12C, 16, 64, 1, 1, 0x0, 0x0, 0x0, 0x0⟩,
  ⟨0x130, 16, 64, 1, 1, 0x50007D0, 0xFF00FFFF, 0x0, 0x0⟩ ]

/-- The registers of the CK block. -/
def rowsCk : List RegRow := [
  ⟨0x1000, 256, 8, 1, 1, 0x10101010, 0x0, 0x0, 0x0⟩,
  ⟨0x1004, 256, 8, 1, 1, 0x10, 0x0, 0x0, 0x0⟩,
  ⟨0x1800, 256, 8, 1, 1, 0x10101010, 0xFFFFFFFF, 0x0, 0x0⟩,
  ⟨0x1804, 256, 8, 1, 1, 0x10, 0xFF, 0x0, 0x0⟩,
  ⟨0x2000, 4160, 4, 1, 1, 0x0, 0x0, 0x0, 0x0⟩,
  ⟨0x8000, 4160, 4, 1, 1, 0x0, 0xFFFFFFFF, 0x0, 0x0⟩,
  ⟨0x0, 1, 1, 1, 1, 0x0, 0x0, 0x1, 0x0⟩,
  ⟨0x8, 1, 1, 1, 1, 0x0, 0x0, 0x0, 0x0⟩,
  ⟨0xC, 1, 1, 1, 1, 0x0, 0x0, 0x0, 0x0⟩,
  ⟨0x10, 1, 1, 1, 1, 0x0, 0x0, 0x0, 0x1⟩,
  ⟨0x14, 1, 1, 1, 1, 0x0, 0x0, 0x40, 0x0⟩,
  ⟨0x18, 1, 1, 1, 1, 0x20202020, 0xFFFFFFFF, 0x0, 0x0⟩,
  ⟨0x1C, 1, 1, 1, 1, 0x20, 0xFF, 0x0, 0x0⟩,
  ⟨0x20, 1, 1, 1, 1, 0x0, 0xFF03, 0x0, 0x0⟩,
  ⟨0x24, 1, 1, 1, 1, 0x0, 0x0, 0xC0, 0x0⟩,
  ⟨0x28, 1, 1, 1, 1, 0x0, 0x0, 0x0, 0x0⟩ ]

/-- The registers of the ST block. -/
def rowsSt : List RegRow := [
  ⟨0x0, 1, 1, 1, 1, 0x0, 0x0, 0x0, 0x0⟩,
  ⟨0x4, 1, 1, 1, 1, 0x0, 0x0, 0x0, 0x0⟩,
  ⟨0x8, 1, 1, 1, 1, 0x0, 0x0, 0x0, 0x0⟩,
  ⟨0xC, 1, 1, 1, 1, 0x0, 0x0, 0x0, 0x0⟩,
  ⟨0x10, 1, 1, 1, 1, 0x0, 0x0, 0x0, 0x0⟩,
  ⟨0x14, 1, 1, 1, 1, 0x0, 0x0, 0x0, 0x0⟩,
  ⟨0x18, 1, 1, 1, 1, 0x0, 0x0, 0x0, 0x0⟩,
  ⟨0x1C, 1, 1, 1, 1, 0x0, 0x0, 0x0, 0x0⟩,
  ⟨0x20, 1, 1, 1, 1, 0x0, 0x0, 0xF, 0x0⟩ ]

/-- The registers of the TC block. -/
def rowsTc : List RegRow := [
  ⟨0x0, 1, 1, 1, 1, 0x0, 0x0, 0x0, 0x0⟩,
  ⟨0x4, 1, 1, 1, 1, 0x0, 0x0, 0xF, 0x0⟩,
  ⟨0x8, 1, 1, 1, 1, 0x0, 0xFFFFFF, 0x0, 0x80000000⟩,
  ⟨0xC, 1, 1, 1, 1, 0x0, 0x0, 0x0, 0x0⟩,
  ⟨0x10, 1, 1, 1, 1, 0x0, 0x7, 0x0, 0x80000000⟩,
  ⟨0x14, 1, 1, 1, 1, 0x0, 0x0, 0x0, 0x0⟩,
  ⟨0x18, 1, 1, 1, 1, 0x0, 0x0, 0x80000000, 0x0⟩ ]

/-- The registers of the SL block. -/
def rowsSl : List RegRow := [
  ⟨0x0, 1, 1, 1, 1, 0x0, 0x0, 0x0, 0x0⟩ ]

/-- The registers of the DM block. Of DM_SCRUB_BASE_HI and DM_SCRUB_LEN_HI the spec says that bits [3:0] only are used; that all 32 bits hold what is
written is the model's choice (R7; DESIGN CHOICE, log entry 45). -/
def rowsDm : List RegRow := [
  ⟨0x0, 1, 1, 1, 1, 0x7D00000, 0xFFFF0303, 0x0, 0x0⟩,
  ⟨0x4, 1, 1, 1, 1, 0x0, 0x0, 0x0, 0x0⟩,
  ⟨0x8, 1, 1, 1, 1, 0x0, 0x0, 0x1F, 0x0⟩,
  ⟨0xC, 1, 1, 1, 1, 0x0, 0x0, 0x0, 0x0⟩,
  ⟨0x100, 2, 64, 1, 1, 0x18, 0x400000FF, 0x0, 0x80000000⟩,
  ⟨0x104, 2, 64, 1, 1, 0x0, 0x0, 0x0, 0x0⟩,
  ⟨0x108, 2, 64, 1, 1, 0x0, 0x0, 0x0, 0x0⟩,
  ⟨0x200, 10, 4, 1, 1, 0x0, 0x3FFFF, 0x0, 0x0⟩,
  ⟨0x240, 10, 4, 1, 1, 0x0, 0x0, 0x0, 0x0⟩,
  ⟨0x300, 1, 1, 1, 1, 0x10, 0xFF, 0x0, 0xC0000000⟩,
  ⟨0x304, 1, 1, 1, 1, 0x0, 0x0, 0x0, 0x0⟩,
  ⟨0x308, 1, 1, 1, 1, 0x0, 0xFFFFFFFF, 0x0, 0x0⟩,
  ⟨0x30C, 1, 1, 1, 1, 0x0, 0xFFFFFFFF, 0x0, 0x0⟩,
  ⟨0x310, 1, 1, 1, 1, 0x0, 0xFFFFFFFF, 0x0, 0x0⟩,
  ⟨0x314, 1, 1, 1, 1, 0x0, 0xFFFFFFFF, 0x0, 0x0⟩,
  ⟨0x318, 1, 1, 1, 1, 0x0, 0x0, 0x0, 0x0⟩,
  ⟨0x31C, 1, 1, 1, 1, 0x0, 0x0, 0x0, 0x0⟩,
  ⟨0x340, 16, 8, 1, 1, 0x0, 0x0, 0x0, 0x0⟩,
  ⟨0x344, 16, 8, 1, 1, 0x0, 0x0, 0x0, 0x0⟩ ]

/-- The registers of the FL block. -/
def rowsFl : List RegRow := [
  ⟨0x0, 1, 1, 1, 1, 0x1C0010, 0x1F003F, 0x0, 0x0⟩,
  ⟨0x4, 1, 1, 1, 1, 0x0, 0x0, 0x0, 0x0⟩,
  ⟨0x8, 1, 1, 1, 1, 0x0, 0x0, 0x0, 0x0⟩,
  ⟨0xC, 1, 1, 1, 1, 0x0, 0x0, 0x0, 0x0⟩,
  ⟨0x10, 1, 1, 1, 1, 0x0, 0x0, 0x1F, 0x0⟩,
  ⟨0x100, 8, 64, 1, 1, 0x3, 0x3, 0x0, 0x80000000⟩,
  ⟨0x104, 8, 64, 1, 1, 0x0, 0x0, 0x0, 0x0⟩,
  ⟨0x108, 8, 64, 1, 1, 0x0, 0x0, 0x0, 0x0⟩,
  ⟨0x10C, 8, 64, 1, 1, 0x0, 0x0, 0x0, 0x0⟩,
  ⟨0x110, 8, 64, 1, 1, 0x0, 0x0, 0x0, 0x0⟩,
  ⟨0x114, 8, 64, 1, 1, 0x0, 0x0, 0x0, 0x0⟩,
  ⟨0x118, 8, 64, 1, 1, 0x0, 0x0, 0x0, 0x0⟩,
  ⟨0x400, 128, 4, 1, 1, 0x0, 0x0, 0x0, 0x0⟩ ]

/-- The registers of the FT block. -/
def rowsFt : List RegRow := [
  ⟨0x0, 1, 1, 1, 1, 0x3, 0x300, 0x0, 0x0⟩,
  ⟨0x4, 1, 1, 1, 1, 0x0, 0x0, 0x0, 0x0⟩,
  ⟨0x8, 1, 1, 1, 1, 0x0, 0x0, 0x0, 0x0⟩,
  ⟨0xC, 1, 1, 1, 1, 0x0, 0x0, 0x0, 0x0⟩,
  ⟨0x10, 1, 1, 1, 1, 0x320032, 0xFFFF00FF, 0x0, 0x0⟩,
  ⟨0x14, 1, 1, 1, 1, 0x0, 0x0, 0x0, 0x0⟩,
  ⟨0x18, 1, 1, 1, 1, 0x0, 0x0, 0x0, 0x0⟩,
  ⟨0x1C, 1, 1, 1, 1, 0x460A05, 0xFFFFFF, 0x0, 0x0⟩,
  ⟨0x20, 1, 1, 1, 1, 0x1008, 0xFFFF, 0x0, 0x0⟩,
  ⟨0x24, 1, 1, 1, 1, 0x3E819014, 0xFFFFFFFF, 0x0, 0x0⟩,
  ⟨0x28, 1, 1, 1, 1, 0x5A003C, 0xFF03FF, 0x0, 0x0⟩,
  ⟨0x2C, 1, 1, 1, 1, 0x1F40C80F, 0x3FFFFFFF, 0x0, 0x0⟩,
  ⟨0x30, 1, 1, 1, 1, 0x40000000, 0x400001FF, 0x0, 0x80000000⟩,
  ⟨0x34, 1, 1, 1, 1, 0x0, 0x0, 0x0, 0x0⟩,
  ⟨0x38, 1, 1, 1, 1, 0x0, 0x0, 0x0, 0x0⟩,
  ⟨0x3C, 1, 1, 1, 1, 0x0, 0x0, 0x0, 0x0⟩,
  ⟨0x40, 1, 1, 1, 1, 0x0, 0x0, 0x0, 0x0⟩,
  ⟨0x44, 1, 1, 1, 1, 0x0, 0x0, 0x0, 0x0⟩,
  ⟨0x48, 1, 1, 1, 1, 0x1000, 0xFFFF, 0x0, 0x0⟩,
  ⟨0x4C, 1, 1, 1, 1, 0x0, 0x0, 0x0, 0x0⟩,
  ⟨0x50, 1, 1, 1, 1, 0x0, 0x0, 0x3F, 0x0⟩,
  ⟨0x54, 1, 1, 1, 1, 0x3, 0x3, 0x0, 0x80000000⟩,
  ⟨0x58, 1, 1, 1, 1, 0x0, 0x0, 0x0, 0x0⟩ ]

/-- The registers of the CX block. -/
def rowsCx : List RegRow := [
  ⟨0x0, 1, 1, 1, 1, 0x0, 0xF, 0x0, 0x0⟩,
  ⟨0x4, 1, 1, 1, 1, 0x0, 0x0, 0x0, 0x0⟩,
  ⟨0x8, 1, 1, 1, 1, 0x0, 0x0, 0x1F, 0x0⟩,
  ⟨0x10, 1, 1, 1, 1, 0x0, 0x0, 0x80000000, 0x0⟩,
  ⟨0x14, 1, 1, 1, 1, 0x0, 0x0, 0x0, 0x0⟩,
  ⟨0x18, 1, 1, 1, 1, 0x0, 0x0, 0x0, 0x0⟩,
  ⟨0x1C, 1, 1, 1, 1, 0x0, 0x0, 0x0, 0x0⟩,
  ⟨0x20, 1, 1, 1, 1, 0x0, 0x0, 0x0, 0x0⟩,
  ⟨0x24, 1, 1, 1, 1, 0x0, 0x0, 0x0, 0x0⟩,
  ⟨0x30, 1, 1, 1, 1, 0x0, 0x0, 0x0, 0x0⟩,
  ⟨0x34, 1, 1, 1, 1, 0x0, 0x0, 0x0, 0x0⟩,
  ⟨0x40, 1, 1, 1, 1, 0x0, 0x0, 0x0, 0x0⟩,
  ⟨0x44, 1, 1, 1, 1, 0x0, 0x0, 0x0, 0x0⟩ ]

/-- The registers of the CZ block. -/
def rowsCz : List RegRow := [
  ⟨0x0, 1, 1, 1, 1, 0x301, 0xFF01, 0x0, 0x0⟩,
  ⟨0x4, 1, 1, 1, 1, 0x0, 0x0, 0x0, 0x0⟩,
  ⟨0x8, 1, 1, 1, 1, 0x0, 0x0, 0x3F, 0x0⟩,
  ⟨0x10, 1, 1, 1, 1, 0x0, 0x0, 0x80000000, 0x0⟩,
  ⟨0x18, 1, 1, 1, 1, 0x0, 0x0, 0x0, 0x0⟩,
  ⟨0x1C, 1, 1, 1, 1, 0x0, 0x0, 0x0, 0x0⟩,
  ⟨0x20, 1, 1, 1, 1, 0x0, 0x0, 0x0, 0x0⟩,
  ⟨0x24, 1, 1, 1, 1, 0x0, 0x0, 0x0, 0x0⟩,
  ⟨0x30, 1, 1, 1, 1, 0x0, 0x0, 0x0, 0x0⟩,
  ⟨0x34, 1, 1, 1, 1, 0x0, 0x0, 0x0, 0x0⟩,
  ⟨0x38, 1, 1, 1, 1, 0x0, 0x0, 0x0, 0x0⟩,
  ⟨0x3C, 1, 1, 1, 1, 0x0, 0x0, 0x0, 0x0⟩,
  ⟨0x40, 1, 1, 1, 1, 0x0, 0x0, 0x0, 0x0⟩,
  ⟨0x44, 1, 1, 1, 1, 0x0, 0x0, 0x0, 0x0⟩,
  ⟨0x50, 4, 4, 1, 1, 0x0, 0x0, 0x0, 0x0⟩ ]

/-- The registers of the AS block. -/
def rowsAs : List RegRow := [
  ⟨0x0, 1, 1, 1, 1, 0x401, 0xFF01, 0x0, 0x0⟩,
  ⟨0x4, 1, 1, 1, 1, 0x0, 0x0, 0x0, 0x0⟩,
  ⟨0x8, 1, 1, 1, 1, 0x0, 0x0, 0x1F, 0x0⟩,
  ⟨0x10, 1, 1, 1, 1, 0x0, 0x0, 0x80000000, 0x0⟩,
  ⟨0x14, 1, 1, 1, 1, 0x0, 0x0, 0x0, 0x0⟩,
  ⟨0x18, 1, 1, 1, 1, 0x0, 0x0, 0x0, 0x0⟩,
  ⟨0x20, 2, 8, 1, 1, 0x0, 0x0, 0x0, 0x0⟩,
  ⟨0x24, 2, 8, 1, 1, 0x0, 0x0, 0x0, 0x0⟩,
  ⟨0x30, 2, 4, 1, 1, 0x0, 0x0, 0x0, 0x0⟩,
  ⟨0x38, 2, 4, 1, 1, 0x0, 0x0, 0x0, 0x0⟩,
  ⟨0x40, 2, 4, 1, 1, 0x0, 0x0, 0x0, 0x0⟩,
  ⟨0x100, 2, 64, 16, 4, 0x0, 0x0, 0x0, 0x0⟩ ]

/-- The registers of the TQ block. -/
def rowsTq : List RegRow := [
  ⟨0x0, 1, 1, 1, 1, 0x1, 0x1, 0x0, 0x0⟩,
  ⟨0x4, 1, 1, 1, 1, 0x0, 0x0, 0x3F, 0x0⟩,
  ⟨0x10, 1, 1, 1, 1, 0x0, 0x0, 0x0, 0x0⟩,
  ⟨0x14, 1, 1, 1, 1, 0x0, 0x0, 0x0, 0x0⟩,
  ⟨0x18, 1, 1, 1, 1, 0x0, 0x0, 0x0, 0x0⟩,
  ⟨0x100, 4, 64, 1, 1, 0x0, 0x0, 0x0, 0x0⟩,
  ⟨0x104, 4, 64, 1, 1, 0x0, 0x0, 0x0, 0x0⟩,
  ⟨0x108, 4, 64, 1, 1, 0x0, 0x0, 0x0, 0x0⟩,
  ⟨0x10C, 4, 64, 1, 1, 0x0, 0x0, 0x0, 0x0⟩,
  ⟨0x110, 4, 64, 1, 1, 0x0, 0x0, 0x0, 0x0⟩,
  ⟨0x114, 4, 64, 1, 1, 0x0, 0x0, 0x0, 0x0⟩,
  ⟨0x1000, 256, 4, 1, 1, 0x0, 0x0, 0x0, 0x0⟩ ]

/-- The registers of the SD block. -/
def rowsSd : List RegRow := [
  ⟨0x4, 1, 1, 1, 1, 0x0, 0x0, 0x0, 0x0⟩,
  ⟨0x8, 1, 1, 1, 1, 0x0, 0x0, 0x3, 0x0⟩,
  ⟨0x100, 16, 4, 1, 1, 0x0, 0x0, 0x0, 0x0⟩ ]

/-- The registers of the CT block. -/
def rowsCt : List RegRow := [
  ⟨0x0, 1, 1, 1, 1, 0x1000, 0xFFFF, 0x0, 0x0⟩,
  ⟨0x4, 1, 1, 1, 1, 0xFFFF, 0x0, 0x0, 0x0⟩,
  ⟨0x8, 1, 1, 1, 1, 0x0, 0x0, 0x3, 0x0⟩,
  ⟨0x10, 1, 1, 1, 1, 0x0, 0xFFFF, 0x0, 0x0⟩,
  ⟨0x14, 1, 1, 1, 1, 0x0, 0x0, 0x0, 0x0⟩,
  ⟨0x18, 1, 1, 1, 1, 0x0, 0x0, 0x0, 0x0⟩,
  ⟨0x1000, 256, 4, 1, 1, 0x0, 0x0, 0x0, 0x0⟩ ]

/-- The registers of the EC block. -/
def rowsEc : List RegRow := [
  ⟨0x0, 1, 1, 1, 1, 0x0, 0x0, 0x7F, 0x0⟩,
  ⟨0x10, 2, 16, 1, 1, 0x0, 0x0, 0x0, 0x0⟩,
  ⟨0x14, 2, 16, 1, 1, 0x0, 0x0, 0x0, 0x0⟩,
  ⟨0x18, 2, 16, 1, 1, 0x0, 0x0, 0x0, 0x0⟩,
  ⟨0x30, 1, 1, 1, 1, 0x0, 0x0, 0x0, 0x0⟩,
  ⟨0x34, 1, 1, 1, 1, 0x0, 0x0, 0x0, 0x0⟩,
  ⟨0x40, 1, 1, 1, 1, 0x0, 0x0, 0x80000000, 0x0⟩,
  ⟨0x44, 1, 1, 1, 1, 0x0, 0x0, 0x0, 0x0⟩,
  ⟨0x48, 1, 1, 1, 1, 0x0, 0x0, 0x0, 0x0⟩,
  ⟨0x100, 4, 40, 10, 4, 0x0, 0x0, 0x0, 0x0⟩ ]

/-- The registers of the TS block. -/
def rowsTs : List RegRow := [
  ⟨0x0, 1, 1, 1, 1, 0x0, 0x0, 0x0, 0x0⟩,
  ⟨0x4, 1, 1, 1, 1, 0x0, 0x0, 0x0, 0x0⟩,
  ⟨0x8, 1, 1, 1, 1, 0x0, 0x0, 0x0, 0x0⟩ ]

/-- The rows of hub block b, in the order of the block index (R390). -/
def hubRows (b : Nat) : List RegRow :=
  match b with

  | 0 => rowsHub
  | 1 => rowsFn
  | 2 => rowsHd
  | 3 => rowsKs
  | 4 => rowsDg
  | 5 => rowsMs
  | 6 => rowsEv
  | 7 => rowsNv
  | 8 => rowsPw
  | 9 => rowsCk
  | 10 => rowsSt
  | 11 => rowsTc
  | _ => []

/-- The block of a slice window that holds an offset: its rows and the offset within it (block index of R390). -/
def sliceRows (off : Nat) : List RegRow × Nat :=
  if off < 0x40000 then (rowsSl, off - 0x0)
  else if off < 0x80000 then (rowsDm, off - 0x40000)
  else if off < 0x100000 then (rowsFl, off - 0x80000)
  else if off < 0x140000 then (rowsFt, off - 0x100000)
  else if off < 0x160000 then (rowsCx, off - 0x140000)
  else if off < 0x180000 then (rowsCz, off - 0x160000)
  else if off < 0x1C0000 then (rowsAs, off - 0x180000)
  else if off < 0x200000 then (rowsTq, off - 0x1C0000)
  else if off < 0x240000 then (rowsSd, off - 0x200000)
  else if off < 0x280000 then (rowsCt, off - 0x240000)
  else if off < 0x2C0000 then (rowsEc, off - 0x280000)
  else if off < 0x300000 then (rowsTs, off - 0x2C0000)
  else ([], 0)

/-- The number of slices a part contains (R1, R2). -/
def Part.slices : Part → Nat
  | .yarrow => 8
  | .vetch => 8
  | .tansy => 4

/-- Hub registers whose number a part of four slices does not have: LOOP_07 to LOOP_10 and PW_TJ_08 to PW_TJ_15 (R2, R326). -/
def absentHalf (a : Nat) : Bool := decide (0x802C0 ≤ a ∧ a < 0x803C0) || decide (0x800A0 ≤ a ∧ a < 0x800C0)

/-- Registers of units that Vetch does not build: DG_INST_BYTES of instances 8 to 15, and in every slice CZ_VFAIL_e, AS_SEARCHES_r,
AS_RESUMES_r and AS_THROTTLE_r. The status registers that code a unit as ABSENT, and AS_FALLBACK_r and AS_PART_r_pp, which serve an
absent array (R222), answer (R1, R4). -/
def absentVetch (a : Nat) : Bool :=
  let off := (a - 0x1000000) % 0x400000
  if a < 0x1000000 then decide (0x40180 ≤ a ∧ a < 0x40200) && decide (8 ≤ a % 16)
  else decide (0x160050 ≤ off ∧ off < 0x160060) || decide (0x180020 ≤ off ∧ off < 0x180038) ||
    decide (0x180040 ≤ off ∧ off < 0x180048)

/-- The registers of units that the part does not build, which are reserved space (R4, R395). -/
def absentReg (p : Part) (a : Nat) : Bool :=
  match p with
  | .yarrow => false
  | .vetch => absentVetch a
  | .tansy => absentHalf a

/-- The register table row of a window address; none in reserved space (R390, R395). -/
def rowOf (p : Part) (a : Nat) : Option RegRow :=
  if absentReg p a then none
  else if a < 0xC0000 then (hubRows (a / 0x10000)).find? (RegRow.covers · (a % 0x10000))
  else if a < 0x1000000 then none
  else
    let n := (a - 0x1000000) / 0x400000
    if n < p.slices then
      let r := sliceRows ((a - 0x1000000) % 0x400000)
      r.1.find? (RegRow.covers · r.2)
    else none

/-- PART, POWER_W and the capability words by part (R396). -/
def Part.code : Part → Nat
  | .yarrow => 1
  | .vetch => 2
  | .tansy => 3

/-- Package power limit in W (R18, R396). -/
def Part.powerW : Part → Nat
  | .yarrow => 0x104
  | .vetch => 0xDC
  | .tansy => 0x8C

/-- HUB_CAP_SLICE (R396). -/
def Part.capSlice : Part → Nat
  | .yarrow => 0xFFFF00FF
  | .vetch => 0xFFFF00FF
  | .tansy => 0x00FF000F

/-- HUB_CAP_CZ (R396). -/
def Part.capCz : Part → Nat
  | .yarrow => 0xFFFFFFFF
  | .vetch => 0
  | .tansy => 0x0000FFFF

/-- AS_PRESENT of HUB_CAP_UNITS (R396). -/
def Part.capAs : Part → Nat
  | .yarrow => 0xFFFF
  | .vetch => 0
  | .tansy => 0x00FF

/-- DG_PRESENT of HUB_CAP_UNITS (R396). -/
def Part.capDg : Part → Nat
  | .yarrow => 0xFFFF
  | .vetch => 0x00FF
  | .tansy => 0xFFFF

/-- Reset values of HD_CH_CTL_nn by channel: HIGH and KINDS (R268). -/
def hdCtlReset (n : Nat) : Nat :=
  if n = 0 ∨ n = 2 ∨ (4 ≤ n ∧ n ≤ 7) then 0x80000003
  else if n = 1 ∨ n = 3 then 0xC
  else 0x1C

/-- Reset values of DM_PORT_CFG_pp (Ports and defaults, R286). -/
def dmPortReset (p : Nat) : Nat :=
  if p = 0 ∨ p = 1 ∨ p = 6 ∨ p = 7 then 500
  else if p < 6 then 0x20000 + 2000
  else 0x10000 + 1000

/-- Reset values of PW_LOOP_CTL_nn: FE_MODE, SINK and SOURCE (Loop slots, R326). -/
def loopCtlReset (n : Nat) : Nat :=
  if n = 0 then 0x20010001
  else if n = 1 then 0x20100002
  else if n = 2 then 0x40020004
  else if n ≤ 10 then 0x40000000 + (0x20 + (n - 3)) * 0x10000 + (0x20 + (n - 3))
  else 0

/-- Reset setpoints, Q16.16 (Loop slots, R326): LOOP_01 the float voltage, LOOP_02 the PS0 cap less the margin. -/
def loopSpReset (p : Part) (n : Nat) : Nat :=
  if n = 1 then 36 * 0x10000
  else if n = 2 then p.powerW * 0x10000 * 96 / 100
  else if 3 ≤ n ∧ n ≤ 10 then 93 * 0x10000
  else 0

/-- Reset lower output limits, Q16.16 (Loop slots, R326). -/
def loopOminReset (n : Nat) : Nat :=
  if n = 0 then 0xFFFF0000
  else if n = 1 then 0xFFD80000
  else if n ≤ 10 then 0x2000
  else 0

/-- Reset upper output limits, Q16.16 (Loop slots, R326). -/
def loopOmaxReset (n : Nat) : Nat :=
  if n = 0 then 0x10000
  else if n = 1 then 0x40000
  else if n ≤ 10 then 0x10000
  else 0

/-- Reset values of NV_PART_pp: PAGES and BASE (NVM partitions, R361). -/
def nvPartReset (p : Nat) : Nat :=
  match p with
  | 0 => 64 * 0x10000 + 0
  | 1 => 64 * 0x20000 + 64
  | 2 => 128 * 0x10000 + 192
  | 3 => 128 * 0x10000 + 320
  | 4 => 1024 * 0x10000 + 448
  | 5 => 256 * 0x10000 + 1472
  | 6 => 320 * 0x10000 + 1728
  | _ => 0

/-- Reset values that a register table gives by part, by number or by another table. -/
def resetByNumber (p : Part) (a : Nat) : Option Nat :=
  if a < 0xC0000 then
    let off := a % 0x10000
    match a / 0x10000 with
    | 0 =>
      match off with
      | 0x4 => some (0x10000 + p.code)
      | 0x20 => some p.capSlice
      | 0x24 => some p.capCz
      | 0x28 => some (p.capDg * 0x10000 + p.capAs)
      | 0x2C => some 0x01010001
      | 0x30 => some (p.powerW * 0x10000 + 0x100)
      | _ => none
    | 2 => if 0x100 ≤ off ∧ off < 0x200 ∧ off % 8 = 0 then some (hdCtlReset ((off - 0x100) / 8)) else none
    | 7 => if 0x100 ≤ off ∧ off < 0x11C then some (nvPartReset ((off - 0x100) / 4)) else none
    | 8 =>
      if 0x100 ≤ off ∧ off < 0x500 then
        let n := (off - 0x100) / 0x40
        match (off - 0x100) % 0x40 with
        | 0x0 => some (loopCtlReset n)
        | 0x8 => some (loopSpReset p n)
        | 0x1C => some (loopOminReset n)
        | 0x20 => some (loopOmaxReset n)
        | _ => none
      else none
    | _ => none
  else if a < 0x1000000 then none
  else
    let off := (a - 0x1000000) % 0x400000
    if off = 0 then some (0x100 + (a - 0x1000000) / 0x400000)
    else if 0x40200 ≤ off ∧ off < 0x40228 then some (dmPortReset ((off - 0x40200) / 4))
    else none

/-- The value of a register after package reset (R6), fused fields 0x01 (R416); 0 in reserved space. -/
def resetWord (p : Part) (a : Nat) : Word :=
  match rowOf p a with
  | none => 0
  | some r => BitVec.ofNat 32 ((resetByNumber p a).getD r.reset)

end Sys2Proof.Machine
end

