-- ==== Sys2Proof/Machine/Maps.lean ====
section
/-!
DEFINITION. Sparse maps from numbers, and lists of records that carry a number: one definition of reading, writing and
the canonical form for each, used for the vendor registers, slice-local memory and every numbered table of the state.
-/

namespace Sys2Proof.Machine

universe u

/-- The value listed under k. -/
def mapGet {α : Type u} : List (Nat × α) → Nat → Option α
  | [], _ => none
  | (j, v) :: l, k => if k = j then some v else mapGet l k

/-- The list without k. -/
def mapErase {α : Type u} : List (Nat × α) → Nat → List (Nat × α)
  | [], _ => []
  | (j, v) :: l, k => if k = j then mapErase l k else (j, v) :: mapErase l k

/-- The list with v under k, kept in rising order. -/
def mapInsert {α : Type u} : List (Nat × α) → Nat → α → List (Nat × α)
  | [], k, v => [(k, v)]
  | (j, w) :: l, k, v =>
    if k < j then (k, v) :: (j, w) :: l
    else if k = j then (k, v) :: l
    else (j, w) :: mapInsert l k v

/-- Writing v under k where an unlisted number reads as d: the default is never listed. -/
def mapPut {α : Type u} [DecidableEq α] (l : List (Nat × α)) (d : α) (k : Nat) (v : α) : List (Nat × α) :=
  if v = d then mapErase l k else mapInsert l k v

/-- Are the numbers strictly rising? -/
def mapSorted {α : Type u} : List (Nat × α) → Bool
  | [] => true
  | (k, _) :: l => l.all (fun p => decide (k < p.1)) && mapSorted l

/-- The canonical form: strictly rising, and no entry equal to what an unlisted number reads as. -/
def mapWf {α : Type u} [DecidableEq α] (d : Nat → α) (l : List (Nat × α)) : Bool :=
  mapSorted l && l.all (fun p => decide (p.2 ≠ d p.1))

/-- The element of a list changed at one position; unchanged past the end. -/
def modAt {α : Type u} : List α → Nat → (α → α) → List α
  | [], _, _ => []
  | a :: l, 0, f => f a :: l
  | a :: l, n + 1, f => a :: modAt l n f

/-- The first record with this number. -/
def recGet {α : Type u} (key : α → Nat) (l : List α) (k : Nat) : Option α :=
  l.find? (fun a => key a == k)

/-- Every record with this number changed. -/
def recMod {α : Type u} (key : α → Nat) (l : List α) (k : Nat) (f : α → α) : List α :=
  l.map (fun a => if key a = k then f a else a)

/-- The record with its number put in the place of the one it replaces, or at its place in rising order. -/
def recPut {α : Type u} (key : α → Nat) : List α → α → List α
  | [], a => [a]
  | b :: l, a =>
    if key a < key b then a :: b :: l
    else if key a = key b then a :: l
    else b :: recPut key l a

/-- The list without the records of this number. -/
def recErase {α : Type u} (key : α → Nat) (l : List α) (k : Nat) : List α :=
  l.filter (fun a => key a != k)

/-- The lowest number below n for which p is false. -/
def lowestFree (n : Nat) (p : Nat → Bool) : Option Nat :=
  (List.range n).find? (fun k => !p k)

/-- Nat number of Bool. -/
def bit01 (b : Bool) : Nat := if b then 1 else 0

/-- The numbers of the set bits of w, below n. -/
def bitsOf (n w : Nat) : List Nat :=
  (List.range n).filter (fun k => w.testBit k)

/-- The word whose set bits are the numbers listed. -/
def maskOf (l : List Nat) : Nat :=
  l.foldl (fun w k => w ||| (1 <<< k)) 0

/-- n rounded up to a multiple of m. -/
def roundUp (n m : Nat) : Nat := (n + m - 1) / m * m

/-- Bytes of a number, lowest first. -/
def leBytes : Nat → Nat → List Byte
  | 0, _ => []
  | n + 1, w => BitVec.ofNat 8 w :: leBytes n (w / 256)

/-- The number that bytes spell, lowest first. -/
def leValue : List Byte → Nat
  | [] => 0
  | b :: l => b.toNat + 256 * leValue l

/-- The runs of consecutive numbers in a list: first number and length. -/
def runs : List Nat → List (Nat × Nat)
  | [] => []
  | a :: l =>
    match runs l with
    | [] => [(a, 1)]
    | (b, n) :: r => if b = a + 1 then (a, n + 1) :: r else (a, 1) :: (b, n) :: r

end Sys2Proof.Machine
end

