-- ==== Sys2Proof/Machine/Ops.lean ====
section
/-!
DEFINITION. The shared operations over the state: registers and their fields, the numbered tables, units and fences, the
recorder, free values, and byte access to slice-local memory.
-/

namespace Sys2Proof.Machine

/-! ### Registers -/

/-- The value a register holds (R6): what regs lists, else its Reset value. -/
def State.rd (s : State) (a : Nat) : Word := (mapGet s.regs a).getD (resetWord s.part a)

/-- A register set to v, whatever its access types: for the device itself. -/
def State.wr (s : State) (a : Nat) (v : Word) : State :=
  { s with regs := mapPut s.regs (resetWord s.part a) a v }

/-- Bits hi to lo of a word, as a number. -/
def bits (w : Word) (hi lo : Nat) : Nat := (w.toNat >>> lo) % 2 ^ (hi - lo + 1)

/-- The word with bits hi to lo replaced by v. -/
def setBits (w : Word) (hi lo v : Nat) : Word :=
  BitVec.ofNat 32 (w.toNat - bits w hi lo * 2 ^ lo + (v % 2 ^ (hi - lo + 1)) * 2 ^ lo)

/-- Bits hi to lo of a register. -/
def State.fld (s : State) (a hi lo : Nat) : Nat := bits (s.rd a) hi lo

/-- Bits hi to lo of a register set to v. -/
def State.putF (s : State) (a hi lo v : Nat) : State := s.wr a (setBits (s.rd a) hi lo v)

/-- Bit k of a register. -/
def State.bit (s : State) (a k : Nat) : Bool := (s.rd a).getLsbD k

/-- Bit k of a register set: how an event flag is raised (R393). -/
def State.setBit (s : State) (a k : Nat) : State := s.wr a (s.rd a ||| BitVec.ofNat 32 (2 ^ k))

/-- Bit k of a register cleared. -/
def State.clrBit (s : State) (a k : Nat) : State := s.wr a (s.rd a &&& ~~~(BitVec.ofNat 32 (2 ^ k)))

/-- Bit k of a register set or cleared. -/
def State.putBit (s : State) (a k : Nat) (b : Bool) : State := if b then s.setBit a k else s.clrBit a k

/-- A field that saturates, raised by n (R393). -/
def State.addF (s : State) (a hi lo n : Nat) : State :=
  s.putF a hi lo (min (2 ^ (hi - lo + 1) - 1) (s.fld a hi lo + n))

/-- A counter of 32 bits that saturates, raised by 1 (R393). -/
def State.inc (s : State) (a : Nat) : State := s.addF a 31 0 1

/-- The 64-bit value of a LO register and the HI register above it. -/
def State.rd64 (s : State) (a : Nat) : Nat := (s.rd a).toNat + (s.rd (a + 4)).toNat * 2 ^ 32

/-- A LO and HI pair set. -/
def State.wr64 (s : State) (a v : Nat) : State :=
  (s.wr a (BitVec.ofNat 32 v)).wr (a + 4) (BitVec.ofNat 32 (v / 2 ^ 32))

/-- A free-running 64-bit LO and HI pair raised by n. -/
def State.add64 (s : State) (a n : Nat) : State := s.wr64 a (min (2 ^ 64 - 1) (s.rd64 a + n))

/-- The signed Q16.16 value of a register, in units of 1/65,536 (R324). -/
def State.q (s : State) (a : Nat) : Int := (s.rd a).toInt

/-- A register set to a signed Q16.16 value, in units of 1/65,536. -/
def State.wrQ (s : State) (a : Nat) (v : Int) : State := s.wr a (BitVec.ofInt 32 v)

/-! ### Time -/

/-- The course count (R21). -/
def State.now (s : State) : Nat := s.course.count

/-- Is hub firmware running: STAGE is HUB or later (R394)? -/
def State.stage (s : State) : Nat := s.fld Adr.stSts 2 0

/-- Is the package in minimal mode (R358)? -/
def State.minimal (s : State) : Bool := s.bit Adr.stSts 7

/-- Courses in n milliseconds, rounded up: 3.9 µs each (R20). -/
def coursesOfMs (n : Nat) : Nat := (n * 10000 + 38) / 39

/-! ### Links -/

/-- Is the port's link up? -/
def State.linkUp (s : State) (port : Nat) : Bool := ((s.links[port]?).map Link.up).getD false

/-! ### Numbered tables -/

/-- Changes slice n. -/
def State.modSlice (s : State) (n : Nat) (f : Slice → Slice) : State := { s with slices := modAt s.slices n f }

/-- Changes every slice. -/
def State.mapSlices (s : State) (f : Slice → Slice) : State := { s with slices := s.slices.map f }

/-- Changes every namespace. -/
def State.mapNs (s : State) (f : Namespace → Namespace) : State := { s with namespaces := s.namespaces.map f }

/-- Changes every tenant. -/
def State.mapTenants (s : State) (f : Tenant → Tenant) : State := { s with tenants := s.tenants.map f }

/-- Changes every command in flight. -/
def State.mapInflight (s : State) (f : InFlight → InFlight) : State := { s with inflight := s.inflight.map f }

/-- Slice n; past the last one a slice that is off. -/
def State.slice (s : State) (n : Nat) : Slice := (s.slices[n]?).getD State.sliceReset

/-- A controller; one that nothing has touched has its reset values (R43). -/
def State.ctrl (s : State) (c : Nat) : Ctrl := (recGet Ctrl.id s.ctrls c).getD (State.ctrlReset c)

/-- Changes a controller. -/
def State.modCtrl (s : State) (c : Nat) (f : Ctrl → Ctrl) : State :=
  { s with ctrls := recPut Ctrl.id s.ctrls { f (s.ctrl c) with id := c } }

/-- The tenant of a number, unless it is ABSENT (R74). -/
def State.tenant (s : State) (ti : Nat) : Option Tenant := recGet Tenant.ti s.tenants ti

/-- Who holds divided resources: the tenants, and the removed ones until the boundary that returns theirs (R74). -/
def State.holders (s : State) : List Tenant := s.tenants ++ s.leaving

/-- Changes a tenant that exists. -/
def State.modTenant (s : State) (ti : Nat) (f : Tenant → Tenant) : State :=
  { s with tenants := recMod Tenant.ti s.tenants ti f }

/-- The namespace of an NSID. -/
def State.ns (s : State) (nsid : Nat) : Option Namespace := recGet Namespace.nsid s.namespaces nsid

/-- Changes a namespace that exists. -/
def State.modNs (s : State) (nsid : Nat) (f : Namespace → Namespace) : State :=
  { s with namespaces := recMod Namespace.nsid s.namespaces nsid f }

/-- State of a tenant, ABSENT when it does not exist (R74). -/
def State.tiState (s : State) (ti : Nat) : TiState := ((s.tenant ti).map Tenant.state).getD .absent

/-- Changes the start attempt. -/
def State.modStart (s : State) (f : Start → Start) : State := { s with start := f s.start }

/-- Changes the on-chip NVM (R361). -/
def State.modNvm (s : State) (f : Nvm → Nvm) : State := { s with nvm := f s.nvm }

/-- Changes the hold-up state. -/
def State.modPower (s : State) (f : Power → Power) : State := { s with power := f s.power }

/-- Changes the course generator. -/
def State.modCourse (s : State) (f : Course → Course) : State := { s with course := f s.course }

/-- Changes the recorder. -/
def State.modRec (s : State) (f : Recorder → Recorder) : State := { s with recorder := f s.recorder }

/-! ### Free values -/

/-- The next free value and the state that has used it (log entry 4). -/
def State.free (s : State) : Nat × State := (Config.freeNat s.fresh, { s with fresh := s.fresh + 1 })

/-- The next DRBG output (R186) and the state that has used it (log entry 5). -/
def State.random (s : State) : Key × State := (Config.drbg s.fresh, { s with fresh := s.fresh + 1 })

/-! ### Content of the package -/

/-- The slices that the part contains (R1). -/
def State.sliceList (s : State) : List Nat := List.range s.part.slices

/-- Is slice n present (R1)? -/
def State.hasSlice (s : State) (n : Nat) : Bool := decide (n < s.part.slices)

/-- Has the slice been released and not gone offline (R129, R350, R382)? -/
def Slice.up (x : Slice) : Bool :=
  match x.mode with
  | .online => true
  | _ => false

/-- Is slice n online: released, rebuilt and not offline (R52, R350, R382)? -/
def State.sliceUp (s : State) (n : Nat) : Bool := s.hasSlice n && (s.slice n).up

/-- SLICES_ONLINE (R52). -/
def State.slicesOnline (s : State) : Nat := maskOf (s.sliceList.filter s.sliceUp)

/-! ### Units and fences (R377 to R380) -/

end Sys2Proof.Machine

namespace Sys2Proof

/-- Kinds of units, as the table Online tests and TC_FAULT_LAST number them. -/
def UnitId.core (sl n : Nat) : UnitId := ⟨1, sl, n⟩
/-- A compute cluster. -/
def UnitId.cluster (sl n : Nat) : UnitId := ⟨2, sl, n⟩
/-- A main cipher pipe. -/
def UnitId.pipe (sl n : Nat) : UnitId := ⟨3, sl, n⟩
/-- A slice byte-serial cipher unit. -/
def UnitId.byteSerial (sl : Nat) : UnitId := ⟨4, sl, 0⟩
/-- A compression pair. -/
def UnitId.pair (sl n : Nat) : UnitId := ⟨5, sl, n⟩
/-- A search array. -/
def UnitId.array (sl n : Nat) : UnitId := ⟨6, sl, n⟩
/-- A slice DMA channel. -/
def UnitId.sdma (sl n : Nat) : UnitId := ⟨7, sl, n⟩
/-- A flash channel. -/
def UnitId.flashCh (sl n : Nat) : UnitId := ⟨8, sl, n⟩
/-- A DRAM channel. -/
def UnitId.dramCh (sl n : Nat) : UnitId := ⟨9, sl, n⟩
/-- A region. -/
def UnitId.region (sl n : Nat) : UnitId := ⟨0xA, sl, n⟩
/-- A flash cluster. -/
def UnitId.flashCluster (sl n : Nat) : UnitId := ⟨0xB, sl, n⟩
/-- A slice. -/
def UnitId.wholeSlice (sl : Nat) : UnitId := ⟨0xC, sl, 0⟩
/-- A digest instance. -/
def UnitId.digest (n : Nat) : UnitId := ⟨0x20, 0xFF, n⟩
/-- A host DMA channel. -/
def UnitId.hdma (n : Nat) : UnitId := ⟨0x21, 0xFF, n⟩

/-- KIND, SLICE and NUMBER as one field of 24 bits (R379). -/
def UnitId.word (u : UnitId) : Nat := u.kind * 65536 + u.slice * 256 + u.number

end Sys2Proof

namespace Sys2Proof.Machine

/-- How many units of a kind a slice, or the hub, has (R10). -/
def kindCount (kind : Nat) : Nat :=
  match kind with
  | 1 => 32
  | 2 => 4
  | 3 => 2
  | 4 => 1
  | 5 => 4
  | 6 => 2
  | 7 => 16
  | 8 => 8
  | 9 => 2
  | 0xA => 2
  | 0xB => 2
  | 0xC => 1
  | 0x20 => 16
  | 0x21 => 32
  | _ => 0

/-- Is the unit built into the part (R1, R396)? -/
def State.built (s : State) (u : UnitId) : Bool :=
  decide (u.number < kindCount u.kind) &&
    (if u.kind = 0x20 then u.slice == 0xFF && s.part.capDg.testBit u.number
     else if u.kind = 0x21 then u.slice == 0xFF
     else if u.kind = 5 ∨ u.kind = 6 then s.hasSlice u.slice && !(s.part == .vetch)
     else s.hasSlice u.slice)

/-- The fence of a unit, if it has one (R377). -/
def State.fenceOf (s : State) (u : UnitId) : Option Fence :=
  (s.fences.find? (fun p => p.1 == u)).map (·.2)

/-- Is the unit built and not fenced (R377)? -/
def State.active (s : State) (u : UnitId) : Bool := s.built u && (s.fenceOf u).isNone

/-- Sets or ends the fence of a unit. -/
def State.setFence (s : State) (u : UnitId) (f : Option Fence) : State :=
  let rest := s.fences.filter (fun p => p.1 != u)
  { s with fences := match f with
      | none => rest
      | some v => rest ++ [(u, v)] }

/-- How often a unit was fenced for fault since package reset (R378). -/
def State.fenceTimes (s : State) (u : UnitId) : Nat :=
  ((s.fenceCounts.find? (fun p => p.1 == u)).map (·.2)).getD 0

/-- An uncorrectable internal error reported on every link that is up: fatal where it stops the hub, else non-fatal (R41). -/
def State.linkError (s : State) (fatal : Bool) : State :=
  { s with links := s.links.map fun l =>
      if !l.up then l else if fatal then { l with fatal := l.fatal + 1 } else { l with nonFatal := l.nonFatal + 1 } }

/-- A fault report for a unit: it is fenced at the next course boundary (R377). -/
def State.report (s : State) (u : UnitId) (c : FenceCause) : State :=
  if s.fenceSoon.any (fun p => p.1 == u) then s else { s with fenceSoon := s.fenceSoon ++ [(u, c)] }

/-! ### The event recorder (R368 to R374) -/

/-- Is the recorder frozen (R374)? -/
def State.frozen (s : State) : Bool := s.bit Adr.evSts 0

/-- The bin of a sample of a series (R369). -/
def binOf (id : Nat) (v : Int) : Nat :=
  let k : Int :=
    if id < 8 then (v + 10240) / 1280
    else if id = 8 then (v - 8000) / 250
    else if id = 9 then (Nat.log2 (v.toNat / 16) : Int)
    else if id = 0xA then v / 10000
    else if id ≤ 0xE then (Nat.log2 (v.toNat / 32) : Int)
    else if id = 0x10 then (v - 1000) / 250
    else v
  min 31 k.toNat

/-- One sample put into a bin; the extremes widen when a value is given (R369, R373). -/
def Series.take (x : Series) (bin : Nat) (v : Option Int) (stamp : Nat × Nat) : Series :=
  let x := { x with bins := mapPut x.bins 0 bin (min (2 ^ 64 - 1) ((mapGet x.bins bin).getD 0 + 1)),
                    samples := min (2 ^ 64 - 1) (x.samples + 1) }
  match v with
  | none => x
  | some v =>
    let x := if x.least.all (fun m => decide (v < m)) then { x with least := some v, minStamp := stamp } else x
    if x.most.all (fun m => decide (m < v)) then { x with most := some v, maxStamp := stamp } else x

/-- The stamp of a recorder record: ST_MINUTES and ST_CYCLES (R368). -/
def State.stamp (s : State) : Nat × Nat := (s.nvm.minutes, s.nvm.cycles)

/-- A sample recorded in a given bin (R369). -/
def State.recordBin (s : State) (id bin : Nat) (v : Option Int) : State :=
  s.modRec fun r => { r with series := modAt r.series id (fun x => x.take bin v s.stamp) }

/-- A sample recorded (R369). -/
def State.record (s : State) (id : Nat) (v : Int) : State := s.recordBin id (binOf id v) (some v)

/-- A notice recorded: its lifetime counter rises at once, and it waits for the minute boundary (R372). -/
def State.recordNotice (s : State) (n : Notice) : State :=
  (s.modRec fun r => { r with
      counts := mapPut r.counts 0 n.kind (min (2 ^ 64 - 1) ((mapGet r.counts n.kind).getD 0 + 1)),
      noticeTotal := r.noticeTotal + 1, toWrite := r.toWrite ++ [n] }).addF Adr.evNotices 31 0 1

/-- An event sample: recorded, or queued while the recorder is frozen; beyond 64 it is missed (R374). -/
def State.event (s : State) (e : EventSample) : State :=
  if s.frozen then
    if s.recorder.queued.length < 64 then s.modRec fun r => { r with queued := r.queued ++ [e] }
    else (s.modRec fun r => { r with missed := r.missed + 1 }).addF Adr.evMissed 31 0 1
  else match e with
    | .sample id v => s.record id v
    | .notice n => s.recordNotice n

/-- A notice of a kind with its source, FIRST and LAST (R371). -/
def State.notice (s : State) (kind source first last : Nat) : State :=
  s.event (.notice { kind := kind, source := source, merged := 0, minutes := s.nvm.minutes, cycles := s.nvm.cycles,
                     first := first, last := last })

/-- An interval notice begins (R371). -/
def State.openInterval (s : State) (kind source : Nat) : State :=
  if s.recorder.intervals.any (fun p => p.1 == kind && p.2.1 == source) then s
  else s.modRec fun r => { r with intervals := r.intervals ++ [(kind, source, s.now)] }

/-- An interval notice ends: the notice is written with its first course and the last course given (R371). -/
def State.endInterval (s : State) (kind source last : Nat) : State :=
  match s.recorder.intervals.find? (fun p => p.1 == kind && p.2.1 == source) with
  | none => s
  | some p =>
    (s.modRec fun r => { r with intervals := r.intervals.filter (fun q => !(q.1 == kind && q.2.1 == source)) }).notice
      kind source p.2.2 last

/-- An interval notice ends in the running course (R371). -/
def State.closeInterval (s : State) (kind source : Nat) : State := s.endInterval kind source s.now

/-- Every open interval ends, as at a Dump's t0 (R371). -/
def State.closeAllIntervals (s : State) : State :=
  s.recorder.intervals.foldl (fun s p => s.closeInterval p.1 p.2.1) s

/-- A SEALED_OUT interval of a global region, or 0x10 for the host-DMA row, begins (R33). -/
def State.sealedOut (s : State) (source : Nat) : State := s.openInterval 1 source

/-- R33 holds again in the course that begins: the interval's last course is the one before (R33). -/
def State.sealedIn (s : State) (source : Nat) : State := s.endInterval 1 source (s.now - 1)

/-! ### Slice-local memory: DRAM is zero-filled at start (R294), so an unlisted byte reads as 0 -/

/-- Memory's canonical form: addresses strictly rising and no listed 0. -/
abbrev Memory.wf (m : List Host.Cell) : Bool := mapWf (fun _ => (0 : Byte)) m

/-- One byte of memory. -/
def memGet (m : List Host.Cell) (a : Nat) : Byte := (mapGet m a).getD 0

/-- One byte of memory written. -/
def memPut (m : List Host.Cell) (a : Nat) (v : Byte) : List Host.Cell := mapPut m 0 a v

/-- n bytes of memory from an address. -/
def memRead (m : List Host.Cell) (a : Nat) : Nat → List Byte
  | 0 => []
  | n + 1 => memGet m a :: memRead m (a + 1) n

/-- Bytes written to memory from an address up. -/
def memWrite (m : List Host.Cell) (a : Nat) : List Byte → List Host.Cell
  | [] => m
  | b :: l => memWrite (memPut m a b) (a + 1) l

/-- n bytes of memory set to 0: the same as listing nothing there. -/
def memClear (m : List Host.Cell) (a n : Nat) : List Host.Cell :=
  m.filter (fun p => !(decide (a ≤ p.1) && decide (p.1 < a + n)))

end Sys2Proof.Machine
end

