-- ==== Sys2Proof/Machine/KeyOps.lean ====
section
/-!
DEFINITION. Shared operations of the key store and the write counters (R169 to R172, R183, R184, R418).
-/

namespace Sys2Proof.Machine

/-- An EMPTY slot that no key was ever loaded into (R184, R418). -/
def slotEmpty : KeySlot := { state := .empty, use := 0, generation := 0, key := 0, retireAt := 0 }

/-- USE of a slot that was never loaded (R418): KEK for the import KEKs, INTERNAL for the other internal slots. -/
def slotUse (n : Nat) : Nat :=
  if n < 4096 ∨ 4160 < n then 0 else if 4097 ≤ n ∧ n ≤ 4112 then 2 else 3

/-- A key slot (R183). -/
def State.keySlot (s : State) (n : Nat) : KeySlot := (mapGet s.nvm.keys n).getD { slotEmpty with use := slotUse n }

/-- A key slot written, in the store and in NVM; KS_EVT.SLOT_CHANGE when its state changes (R184). -/
def State.putKey (s : State) (n : Nat) (k : KeySlot) : State :=
  let old := (s.keySlot n).state
  let s := s.modNvm fun v => { v with keys := mapInsert v.keys n k }
  if old = k.state then s else s.setBit Adr.ksEvt 0

/-- KS_SLOT_nnnn of a slot: STATE, USE and GENERATION (R184). -/
def KeySlot.word (k : KeySlot) : Word :=
  let st := match k.state with
    | .empty => 0
    | .active => 1
    | .retiring => 2
  BitVec.ofNat 32 (st * 2 ^ 29 + k.use * 2 ^ 27 + k.generation)

/-- A tenant slot (R183). -/
def tenantSlot (n : Nat) : Bool := decide (n < 4096)

/-- CTR := 0 and P := 0 for the slot in all 8 slices (R184). -/
def State.zeroCounters (s : State) (n : Nat) : State :=
  let s := s.mapSlices fun x => { x with counters := recErase KeyCtr.slot x.counters n }
  s.modNvm fun v => { v with ctrP := v.ctrP.filter (fun p => p.2.1 != n) }

/-- A new key enters a slot: EMPTY becomes ACTIVE, ACTIVE becomes RETIRING for two courses; the generation rises and the
counters restart (R184). -/
def State.loadKey (s : State) (n use : Nat) (k : Key) : State :=
  let old := s.keySlot n
  let st := match old.state with
    | .empty => SlotState.active
    | _ => SlotState.retiring
  (s.putKey n { state := st, use := use, generation := old.generation + 1, key := k, retireAt := s.now + 2 }).zeroCounters n

/-- An internal slot loaded: ACTIVE at once, the generation rises (R418). -/
def State.loadInternal (s : State) (n use : Nat) (k : Key) : State :=
  s.putKey n { state := .active, use := use, generation := (s.keySlot n).generation + 1, key := k, retireAt := 0 }

/-- A slot emptied: the key overwritten, the generation kept (R184). -/
def State.emptySlot (s : State) (n : Nat) : State :=
  s.putKey n { s.keySlot n with state := .empty, key := 0 }

/-- Is the slot bound to a namespace that is attached (R184)? -/
def State.boundAttached (s : State) (n : Nat) : Bool :=
  s.namespaces.any fun x => x.slot == some n && !(x.attachedTis.isEmpty && x.attachedPfs.isEmpty)

/-- The binding of a slot to any namespace removed (R423). -/
def State.unbind (s : State) (n : Nat) : State :=
  s.mapNs fun x => if x.slot = some n then { x with slot := none } else x

/-- Owner numbers: a tenant instance, or physical function 0 and the device. -/
def ownerPf : Nat := 0x100
/-- The device as an owner. -/
def ownerDev : Nat := 0x101

/-- The tenant whose key range holds the slot (R77, R183). -/
def State.slotTenant (s : State) (n : Nat) : Option Nat :=
  (s.holders.find? fun t => decide (t.keyBase ≤ n ∧ n < t.keyBase + t.keyCount)).map Tenant.ti

/-- May work of an owner use a tenant slot: an instance its own range, physical function 0 and the device the slots that
no instance has (R183)? -/
def State.slotOwned (s : State) (owner n : Nat) : Bool :=
  tenantSlot n &&
    (match s.slotTenant n with
     | some ti => owner == ti
     | none => decide (ownerPf ≤ owner))

/-- The persisted value P of a key context (R171). -/
def State.ctrP (s : State) (sl n : Nat) : Nat :=
  ((s.nvm.ctrP.find? fun p => p.1 == sl && p.2.1 == n).map (fun p => p.2.2.toNat)).getD 0

/-- P of a key context set (R171). -/
def State.setCtrP (s : State) (sl n : Nat) (v : BitVec 64) : State :=
  s.modNvm fun m => { m with ctrP := m.ctrP.filter (fun p => !(p.1 == sl && p.2.1 == n)) ++ [(sl, n, v)] }

/-- The write counter of a key context (R170): one that is not listed has not been used since the slot was loaded. -/
def State.keyCtr (s : State) (sl n : Nat) : KeyCtr :=
  (recGet KeyCtr.slot (s.slice sl).counters n).getD { slot := n, ctr := 0, waiting := false }

/-- May an encryption under this key context take a counter value now: below P + 2^20, the slot's context not waiting for
its first group store, and not the last value of all (R170, R171, R172)? -/
def State.ctrReady (s : State) (sl n : Nat) : Bool :=
  let c := s.keyCtr sl n
  !c.waiting && decide (c.ctr.toNat < s.ctrP sl n + 2 ^ 20) && decide (c.ctr ≠ BitVec.allOnes 64)

/-- A counter value taken: CTR rises by 1 (R170). -/
def State.takeCtr (s : State) (sl n : Nat) : BitVec 64 × State :=
  let c := s.keyCtr sl n
  (c.ctr, s.modSlice sl fun x => { x with counters := recPut KeyCtr.slot x.counters { c with ctr := c.ctr + 1 } })

/-- The IV of a message that the device constructs (R169). -/
def ivOf (sl n : Nat) (ctr : BitVec 64) : BitVec 96 :=
  BitVec.ofNat 96 (sl * 2 ^ 93 + n * 2 ^ 64 + ctr.toNat)

/-- Slots of USE CIPHER or HMAC that hold a key serve operations of that use (R183). -/
def KeySlot.serves (k : KeySlot) (use : Nat) : Bool := k.use == use && !(k.state == .empty)

end Sys2Proof.Machine
end

