-- ==== Sys2Proof/Machine/HostOps.lean ====
section
/-!
DEFINITION. Shared operations of the host port: controllers and their owners, statuses, commands in flight, the Error
Information log, asynchronous events and deferred write faults (R43, R47, R61 to R64, R70, R71).
-/

namespace Sys2Proof.Machine

/-! ### Controllers (R43) -/

/-- The port of a controller. -/
def ctrlPort (c : Nat) : Nat := (c - 1) / 0x200

/-- The function of a controller: 0 for physical function 0, n + 1 for TI n. -/
def ctrlFn (c : Nat) : Nat := (c - 1) % 0x200

/-- CNTLID of a function on a port (R43). -/
def cntlid (port fn : Nat) : Nat := 1 + 0x200 * port + fn

/-- Is the controller physical function 0 of either port? -/
def isPf (c : Nat) : Bool := ctrlFn c == 0

/-- Is the controller the manager's: physical function 0 of port 0 (R42)? -/
def isManager (c : Nat) : Bool := c == 1

/-- The owner that a controller's work counts for: its tenant instance, or physical function 0. -/
def ctrlOwner (c : Nat) : Nat := if isPf c then ownerPf else ctrlFn c - 1

/-- The controllers of an owner: one on each port that the package has (R43). -/
def State.ctrlsOf (s : State) (owner : Nat) : List Nat :=
  let fn := if owner = ownerPf then 0 else owner + 1
  if s.dual then [cntlid 0 fn, cntlid 1 fn] else [cntlid 0 fn]

/-- Does the controller exist: port 1 only in dual mode, no virtual function in minimal mode (R40, R359)? -/
def State.ctrlExists (s : State) (c : Nat) : Bool :=
  decide (1 ≤ c) && decide (ctrlFn c ≤ 256) && (ctrlPort c == 0 || (ctrlPort c == 1 && s.dual)) &&
    (!s.minimal || c == 1)

/-- Is the tenant Sealed (R73)? -/
def State.isSealed (s : State) (ti : Nat) : Bool := ((s.tenant ti).map Tenant.isSealed).getD false

/-! ### Statuses (R70, R71) -/

/-- A status with its DNR bit. -/
def mkSt (sct sc : Nat) (dnr : Bool) : Status := { sct := sct, sc := sc, dnr := dnr }
/-- Success. -/
def stOk : Status := mkSt 0 0 false
/-- Invalid Command Opcode. -/
def stOpcode : Status := mkSt 0 0x01 true
/-- Invalid Field in Command. -/
def stField : Status := mkSt 0 0x02 true
/-- Data Transfer Error. -/
def stTransfer : Status := mkSt 0 0x04 false
/-- Internal Error. -/
def stInternal : Status := mkSt 0 0x06 false
/-- Command Abort Requested. -/
def stAborted : Status := mkSt 0 0x07 false
/-- Command Aborted due to SQ Deletion. -/
def stSqDeleted : Status := mkSt 0 0x08 false
/-- Invalid Namespace or Format. -/
def stNamespace : Status := mkSt 0 0x0B true
/-- Command Sequence Error. -/
def stSequence : Status := mkSt 0 0x0C true
/-- Namespace is Write Protected. -/
def stProtected : Status := mkSt 0 0x20 true
/-- LBA Out of Range. -/
def stRange : Status := mkSt 0 0x80 true
/-- Invalid Firmware Image. -/
def stImage : Status := mkSt 1 0x07 true
/-- Namespace Insufficient Capacity. -/
def stCapacity : Status := mkSt 1 0x15 true
/-- Namespace Already Attached. -/
def stAttached : Status := mkSt 1 0x18 true
/-- Namespace Not Attached. -/
def stNotAttached : Status := mkSt 1 0x1A true
/-- Controller List Invalid. -/
def stCtrlList : Status := mkSt 1 0x1C true
/-- Write Fault. -/
def stWriteFault : Status := mkSt 2 0x80 false
/-- Unrecovered Read Error. -/
def stUnrecovered : Status := mkSt 2 0x81 true
/-- Compare Failure. -/
def stCompare : Status := mkSt 2 0x85 true
/-- Deferred Write Fault. -/
def stDeferred : Status := mkSt 7 0x01 false
/-- Slice Offline. -/
def stOffline : Status := mkSt 7 0x02 false
/-- Length Mismatch. -/
def stLength : Status := mkSt 7 0x03 true
/-- Digest Busy. -/
def stDigestBusy : Status := mkSt 7 0x04 false
/-- Search Busy. -/
def stSearchBusy : Status := mkSt 7 0x05 false
/-- Work Item Overrun. -/
def stOverrun : Status := mkSt 7 0x06 true

/-- Is ACTION, of 8 bits, one that Tenant Management Send (0xC5) or Receive (0xC6) reserves (R76)? -/
def reservedAction (opcode action : Nat) : Bool :=
  let a := action % 256
  (opcode == 0xC5 && !(decide (1 ≤ a) && decide (a ≤ 0xA))) || (opcode == 0xC6 && !(decide (0x10 ≤ a) && decide (a ≤ 0x12)))

/-- Did the command succeed? -/
def Status.good (x : Status) : Bool := x.sct == 0 && x.sc == 0

/-- An answer without data. -/
def ansSt (x : Status) : Answer := { status := x, dw0 := 0, dw1 := 0, data := .none, nsid := 0, lba := 0, info := 0 }

/-- Success with completion DW0. -/
def ansDw0 (n : Nat) : Answer := { ansSt stOk with dw0 := n }

/-- A failure with a reason in completion DW0 (R76, R187). -/
def ansReason (x : Status) (n : Nat) : Answer := { ansSt x with dw0 := n }

/-- Success with data. -/
def ansData (d : Data) : Answer := { ansSt stOk with data := d }

/-! ### Commands in flight (R47, R69) -/

/-- The record of a command that has been fetched. -/
def State.inFlight (s : State) (h : Hdr) : Option InFlight := s.inflight.find? fun x => x.hdr == h

/-- Changes the record of a command. -/
def State.modIn (s : State) (h : Hdr) (f : InFlight → InFlight) : State :=
  s.mapInflight fun x => if x.hdr = h then f x else x

/-- Every transfer of the host DMA engine (R267). -/
def State.transfers (s : State) : List Transfer :=
  s.hd.filterMap HdCh.cur ++ s.parks.map Park.tr ++ s.hdQueue

/-- Is a transfer of the command under way (R267)? -/
def State.moving (s : State) (h : Hdr) : Bool := s.transfers.any fun t => t.hdr == some h

/-- Is the command fetched, or held in the hub, and not yet dispatched (R69)? -/
def InFlight.waits (x : InFlight) : Bool :=
  match x.phase with
  | .fetched => true
  | .held => true
  | _ => false

/-- Is a command fetched and not dispatched (R69)? -/
def State.undispatched (s : State) (h : Hdr) : Bool := (s.inFlight h).any InFlight.waits

/-- May the hub carry the command out: its entry has arrived, and it is not yet dispatched (R46, R69)? -/
def State.runnable (s : State) (h : Hdr) : Bool := s.undispatched h && !s.moving h

/-- The command is dispatched with its answer and what its completion waits for. -/
def State.answer (s : State) (h : Hdr) (a : Answer) (conds : List Cond) : State :=
  s.modIn h fun x => { x with phase := .dispatched, answer := a, conds := conds }

/-- The command is dispatched and only its completion remains to be posted. -/
def State.finish (s : State) (h : Hdr) (a : Answer) : State := s.answer h a []

/-- The command waits in the hub for room (R83, R127, R260, R333). -/
def State.hold (s : State) (h : Hdr) : State :=
  s.modIn h fun x => { x with phase := .held, conds := [.room] }

/-- What a command does, for the record that COMMAND_FETCH made: nothing where there is none (log entry 11). -/
def State.run (s : State) (h : Hdr) (f : State → State) : State := if s.runnable h then f s else s

/-- A condition that no command waits for any more. -/
def State.clearCond (s : State) (c : Cond) : State :=
  s.mapInflight fun x => { x with conds := x.conds.filter (· != c) }

/-- A part of a command fails: the command waits for its other parts, and its answer is that of the lowest-addressed part that has failed
(R55). -/
def InFlight.failPart (x : InFlight) (a : Answer) : InFlight :=
  if x.failLba.any fun l => decide (l ≤ a.lba) then x else { x with answer := a, failLba := some a.lba }

/-- What some commands wait for has failed: each of them waits for the rest of its parts (R55). -/
def State.failCond (s : State) (c : Cond) (a : Answer) : State :=
  s.mapInflight fun x =>
    if c ∈ x.conds then ({ x with conds := x.conds.filter (· != c) } : InFlight).failPart a else x

/-- The commands of a controller discarded without completion (R65). -/
def State.discard (s : State) (c : Nat) : State :=
  { s with inflight := s.inflight.filter fun x => x.hdr.ctrl != c }

/-- Is the command an Asynchronous Event Request that waits for an event? -/
def InFlight.waitsEvent (x : InFlight) : Bool := x.conds.contains .event

/-- The commands in flight of a tenant instance, on both controllers (R86); a held Asynchronous Event Request is none, since R91
carries such requests from a quiesced instance. -/
def State.inflightOf (s : State) (ti : Nat) : Nat :=
  (s.inflight.filter fun x => !isPf x.hdr.ctrl && ctrlOwner x.hdr.ctrl == ti && !x.waitsEvent).length

/-! ### Error Information log and events (R61, R422) -/

/-- An entry written to a controller's Error Information log of 64 entries, newest first (R422). -/
def Ctrl.logError (c : Ctrl) (sqid cid : Nat) (st : Status) (nsid lba : Nat) (info : Int) : Ctrl :=
  { c with
    errCount := c.errCount + 1,
    errLog := ({ count := c.errCount + 1, sqid := sqid, cid := cid, status := st, lba := lba, nsid := nsid,
                 info := info } :: c.errLog).take 64 }

/-- Completion DW0 of an Asynchronous Event Request: type, information and log page. -/
def AsyncEvent.dw0 (e : AsyncEvent) : Nat := e.etype + e.info * 256 + e.log * 65536

/-- An asynchronous event of a controller: reported on a held request, or kept until one is held (R61). -/
def State.raise (s : State) (c : Nat) (e : AsyncEvent) : State :=
  match s.inflight.find? fun x => x.hdr.ctrl == c && x.conds.contains .event with
  | some x => s.modIn x.hdr fun y => { y with phase := .dispatched, answer := ansDw0 e.dw0, conds := [] }
  | none => s.modCtrl c fun k => { k with events := k.events ++ [e] }

/-! ### Deferred write faults (R61 to R64) -/

/-- Does a range hold the block? -/
def inRange (r : Nat × Nat × Nat) (nsid lba : Nat) : Bool :=
  r.1 == nsid && decide (r.2.1 ≤ lba) && decide (lba < r.2.1 + r.2.2)

/-- Is the block in a deferred-fault range (R63)? -/
def State.faulted (s : State) (nsid lba : Nat) : Bool := s.nvm.ranges.any fun r => inRange r nsid lba

/-- A range without one block: the parts before and after it. -/
def cutRange (nsid lba : Nat) (r : Nat × Nat × Nat) : List (Nat × Nat × Nat) :=
  if inRange r nsid lba then
    (if r.2.1 < lba then [(nsid, r.2.1, lba - r.2.1)] else []) ++
      (if lba + 1 < r.2.1 + r.2.2 then [(nsid, lba + 1, r.2.1 + r.2.2 - (lba + 1))] else [])
  else [r]

/-- A block removed from the deferred-fault ranges (R63). -/
def State.unfault (s : State) (nsid lba : Nat) : State :=
  if s.faulted nsid lba then s.modNvm fun v => { v with ranges := v.ranges.flatMap (cutRange nsid lba) } else s

/-- The distance between a block and a range. -/
def rangeGap (r : Nat × Nat × Nat) (lba : Nat) : Nat :=
  if lba < r.2.1 then r.2.1 - lba else lba - (r.2.1 + r.2.2 - 1)

/-- The ranges with a new one; beyond 8,192 it is merged into the nearest of its namespace, which widens (R362). -/
def addRange (l : List (Nat × Nat × Nat)) (nsid slba nlb : Nat) : List (Nat × Nat × Nat) :=
  let own := l.filter (fun r => r.1 == nsid)
  if l.length < 8192 then l ++ [(nsid, slba, nlb)]
  else match own with
    | [] => l ++ [(nsid, slba, nlb)]
    | r0 :: rs =>
      let r := rs.foldl (fun b r => if rangeGap r slba < rangeGap b slba then r else b) r0
      let lo := min r.2.1 slba
      let hi := max (r.2.1 + r.2.2) (slba + nlb)
      l.map fun x => if x = r then (nsid, lo, hi - lo) else x

/-- TI of a log 0xC1 entry: 0xFFFF for physical function 0 (R64). -/
def faultTi (owner : Nat) : Nat := if owner < 0x100 then owner else 0xFFFF

/-- Acknowledged blocks cannot be made durable: the range, log 0xC1, the Error Information logs, the events and the
pending fault of the pair (R61). -/
def State.deferFault (s : State) (owner cause nsid slba nlb : Nat) : State :=
  let s := s.modNvm fun v =>
    { v with
      ranges := addRange v.ranges nsid slba nlb,
      faults := ({ ti := faultTi owner, cause := cause, nsid := nsid, slba := slba, nlb := nlb, pending := true,
                   course := s.now } :: v.faults).take 256,
      faultPairs := if v.faultPairs.contains (owner, nsid) then v.faultPairs else v.faultPairs ++ [(owner, nsid)] }
  (s.ctrlsOf owner).foldl (fun s c =>
    (s.modCtrl c fun k => k.logError 0xFFFF 0xFFFF stDeferred nsid slba nlb).raise c
      { etype := 7, info := 1, log := 0xC1 }) s

/-- The pending fault of a pair reported (R62). -/
def State.clearPending (s : State) (owner nsid : Nat) : State :=
  s.modNvm fun v =>
    { v with
      faultPairs := v.faultPairs.filter (· != (owner, nsid)),
      faults := v.faults.map fun f =>
        if f.ti = faultTi owner ∧ f.nsid = nsid then { f with pending := false } else f }

/-! ### What a controller reports of itself (R44) -/

/-- The fields of CAP (R44). nssrs holds on physical function 0 of port 0 only. -/
structure Cap where
  mqes : Nat
  cqr : Bool
  ams : Nat
  timeout : Nat
  dstrd : Nat
  nssrs : Bool
  css : Nat
  mpsmin : Nat
  mpsmax : Nat
  pmrs : Bool
  cmbs : Bool
  deriving DecidableEq, Repr

/-- CAP of a controller (R44). CSS has a bit for the NVM command set and one for I/O command set support, as NVM Express numbers them (log
entry 8). -/
def capOf (c : Nat) : Cap :=
  { mqes := 0xFFFF, cqr := true, ams := 1, timeout := 0x3C, dstrd := 0, nssrs := c == 1, css := 0x41, mpsmin := 0, mpsmax := 4, pmrs := false,
    cmbs := false }

/-- CAP as the 64-bit register of NVM Express (log entry 8). -/
def Cap.word (k : Cap) : BitVec 64 :=
  let b (x : Bool) : Nat := if x then 1 else 0
  BitVec.ofNat 64 (k.mqes + b k.cqr * 2 ^ 16 + k.ams * 2 ^ 17 + k.timeout * 2 ^ 24 + k.dstrd * 2 ^ 32 + b k.nssrs * 2 ^ 36 + k.css * 2 ^ 37 +
    k.mpsmin * 2 ^ 48 + k.mpsmax * 2 ^ 52 + b k.pmrs * 2 ^ 56 + b k.cmbs * 2 ^ 57)

/-! ### Function Level Reset (R88) -/

/-- Is a Function Level Reset of the controller in progress (R88)? -/
def State.flrOn (s : State) (c : Nat) : Bool := (s.ctrl c).flr.isSome

/-- Has a course boundary passed since a Function Level Reset of the controller began (step 2 of R88)? -/
def State.flrPast (s : State) (c : Nat) : Bool := (s.ctrl c).flr.any fun n => decide (n < s.now)

/-! ### Namespaces of a controller -/

/-- Does the kind store data on flash? -/
def NsKind.stored (k : NsKind) : Bool := k == .block || k == .object

/-- Is the namespace attached to the controller (R73)? -/
def Namespace.attached (x : Namespace) (c : Nat) : Bool :=
  if isPf c then x.attachedPfs.contains c else x.attachedTis.contains (ctrlFn c - 1)

/-- The namespace of an NSID if it is attached to the controller. -/
def State.nsOf (s : State) (c nsid : Nat) : Option Namespace := (s.ns nsid).filter fun x => x.attached c

/-- The slice and slice-local block of an LBA (R54). -/
def Namespace.route (x : Namespace) (lba : Nat) : Nat × Nat × Nat :=
  let n := x.parts.length
  if x.desc.placement = 1 ∧ 0 < n then
    let t := lba / 256
    (((x.parts[t % n]?).map NsPart.slice).getD 0, ((x.parts[t % n]?).map NsPart.base).getD 0,
      t / n * 256 + lba % 256)
  else (((x.parts[0]?).map NsPart.slice).getD 0, ((x.parts[0]?).map NsPart.base).getD 0, lba)

end Sys2Proof.Machine
end

