-- ==== Sys2Proof/Machine/BondTable.lean ====
section
/-!
DEFINITION. The bond table as bits: cells, entries and their fields (R27 to R31).
-/

namespace Sys2Proof.Machine

/-! ### Entries (R28, R29) -/

/-- Entry A of a cell. -/
def entryA (w : Word) : Nat := bits w 15 0
/-- Entry B of a cell. -/
def entryB (w : Word) : Nat := bits w 31 16
/-- KIND: 0 NONE, 1 SLOT, 2 DEVICE, 3 TEST. -/
def entKind (e : Nat) : Nat := e / 2 ^ 14 % 4
/-- SHARE + 1 of an entry that claims capacity, in sixty-fourths; 0 for NONE. -/
def entShare (e : Nat) : Nat := if entKind e = 0 then 0 else e / 256 % 64 + 1
/-- SHARE + 1 as written. -/
def entRaw (e : Nat) : Nat := e / 256 % 64 + 1
/-- OWNER. -/
def entOwner (e : Nat) : Nat := e % 256

/-- The index of a cell (R28). -/
def cellIx (course row : Nat) : Nat := 65 * course + row

/-- A cell of the active bank (R28); the entries of an offline slice, and of a late one until the boundary after it rejoins,
act as NONE (R350, R382). -/
def State.cell (s : State) (course row : Nat) : Word :=
  let x := s.slice (row / 8)
  if row < 64 ∧ (x.mode = .offline ∨ x.mode = .late ∨ x.bondWait) then 0 else s.rd (Adr.ckBondActive (cellIx course row))

/-- A cell of the shadow bank (R28). -/
def State.shadowCell (s : State) (i : Nat) : Word := s.rd (Adr.ckBondShadow i)

/-- The row of a class in a global region; row 64 is the host DMA share (R27, R28). -/
def bondRow (region cls : Nat) : Nat := 4 * region + cls

/-- The length of the running course in steps of 625 ps: 390 reference periods as the trim adjusts them (R20, R38). -/
def State.courseLen (s : State) : Nat := (6240 + s.course.trim).toNat

/-- The course within the bond period (R21). -/
def State.bondCourse (s : State) : Nat := s.now % 64

/-- Is an address that of a cell of the active bank? -/
def bondAdr (a : Nat) : Bool := decide (0x92000 ≤ a) && decide (a < 0x92000 + 4 * 4160)

/-- The cells of the active bank that claim anything: an unlisted one has its Reset value, 0 (R31). -/
def State.bondCells (s : State) : List (Nat × Word) :=
  (s.regs.filter fun p => bondAdr p.1).map fun p => ((p.1 - 0x92000) / 4, s.cell ((p.1 - 0x92000) / 4 / 65) ((p.1 - 0x92000) / 4 % 65))

/-- Is one of a cell's entries a SLOT that satisfies p? -/
def cellSlot (w : Word) (p : Nat → Bool) : Bool :=
  (entKind (entryA w) == 1 && p (entOwner (entryA w))) || (entKind (entryB w) == 1 && p (entOwner (entryB w)))

/-- Does the active table hold a SLOT entry in a row? -/
def State.rowHasSlot (s : State) (row : Nat) : Bool :=
  s.bondCells.any fun q => q.1 % 65 == row && cellSlot q.2 fun _ => true

/-- Does the active table hold a SLOT entry in a row of a region? -/
def State.regionHasSlot (s : State) (g : Nat) : Bool := (List.range 4).any fun k => s.rowHasSlot (bondRow g k)

/-- Does the active table hold a SLOT entry in a row of a region, whether or not the slice is online? -/
def State.regionSlots (s : State) (g : Nat) : Bool :=
  (s.regs.filter fun p => bondAdr p.1).any fun p =>
    (p.1 - 0x92000) / 4 % 65 / 4 == g && decide ((p.1 - 0x92000) / 4 % 65 < 64) && cellSlot p.2 fun _ => true

/-- The cell of a row in the course that follows: of the shadow bank where a commit that passed its check takes effect at the next
boundary, else of the active one (R34). -/
def State.nextCell (s : State) (row : Nat) : Word :=
  if s.course.commit.any fun k => k.due == s.now + 1 && k.verdict.any fun v => v.result == 1 then
    (if (s.slice (row / 8)).mode == .offline && decide (row < 64) then 0 else s.shadowCell (cellIx 0 row))
  else s.cell ((s.bondCourse + 1) % 64) row

/-- W: sixty-fourths of every row of classes 0 to 3 that are withheld in the regions of slice n in the running course, as its boundary set them
(R342). -/
def State.withheld (s : State) (n : Nat) : Nat := (mapGet s.course.cuts n).getD 0

/-- What is left of the capacities of entries A and B when k is taken from those of the kinds told: in proportion, the remainder from B (R342). -/
def cutPair (ofA ofB : Bool) (a b k : Nat) : Nat × Nat :=
  let ta := if ofA then (if ofB then k * a / (a + b) else k) else 0
  (a - ta, b - (if ofB then k - ta else 0))

/-- What is left of the capacities a and b of a cell's entries and p of its pool when k is withheld: first from the pool, then from DEVICE and TEST
entries, only then from SLOT entries (R342). -/
def withhold (w : Word) (a b p k : Nat) : Nat × Nat × Nat :=
  let sa := entKind (entryA w) == 1
  let sb := entKind (entryB w) == 1
  let soft := cutPair (!sa) (!sb) a b (k - p)
  let hard := cutPair sa sb soft.1 soft.2 (k - p - (a - soft.1) - (b - soft.2))
  (hard.1, hard.2, p - k)

/-- Does a SLOT entry of the active table name the tenant (R74)? -/
def State.slotNames (s : State) (ti : Nat) : Bool :=
  (s.regs.filter fun p => bondAdr p.1).any fun p => cellSlot p.2 fun o => o == ti

end Sys2Proof.Machine
end

