-- ==== Sys2Proof/Machine/DramOps.lean ====
section
/-!
DEFINITION. Shared operations of the DRAM controllers: address mapping, the requests of the ports, and the copies of the write buffer (R284 to R291).
-/

namespace Sys2Proof.Machine

/-! ### Addresses (R284, R285) -/

/-- Where a channel address lies: subchannel, bank group, bank, row and column. -/
structure DramCell where
  sub : Nat
  group : Nat
  bank : Nat
  row : Nat
  col : Nat
  deriving DecidableEq, Repr

/-- The place of a channel address in a configuration (Channel address mapping). -/
def dramCell (config ca : Nat) : DramCell :=
  let f (lo n : Nat) : Nat := ca / 2 ^ lo % 2 ^ n
  let sub := f 8 1
  let bank := f 9 2
  match config with
  | 0 => { sub := sub, group := f 11 2, bank := bank, row := f 18 15 + 2 ^ 15 * f 33 1,
           col := 16 * f 6 2 + 64 * f 13 1 + 128 * f 14 3 + 1024 * f 17 1 }
  | 1 => { sub := sub, group := f 11 2, bank := bank, row := f 17 1 + 2 * f 18 15, col := 16 * f 6 2 + 64 * f 13 1 + 128 * f 14 3 }
  | _ => { sub := sub, group := f 11 2 + 4 * f 13 1, bank := bank, row := f 18 15 + 2 ^ 15 * f 33 1,
           col := 16 * f 6 2 + 64 * f 14 3 + 512 * f 17 1 }

/-- Channel and burst of a slice DRAM address in the interleaved view; with one channel fenced the view maps wholly to the other
(R284, R296). -/
def State.burstOf (s : State) (n a : Nat) : Nat × Nat :=
  if (s.fenceOf (UnitId.dramCh n 0)).isSome then (1, a / 64)
  else if (s.fenceOf (UnitId.dramCh n 1)).isSome then (0, a / 64)
  else (a / 256 % 2, (a / 512 * 256 + a % 256) / 64)

/-! ### Ports (R286, R289) -/

/-- The port of the stream group of a local region. -/
def portStream (r : Nat) : Nat := 6 + r
/-- The port of a compute cluster. -/
def portCore (c : Nat) : Nat := 2 + c
/-- The port of the host bridge. -/
def portHost : Nat := 8

/-- A request put into the queue of a channel, unless the channel is fenced or there is nothing to move (R288, R296). -/
def State.dramPut (s : State) (n c port owner ca pieces : Nat) (write : Bool) : State :=
  if pieces = 0 ∨ (s.fenceOf (UnitId.dramCh n c)).isSome then s
  else s.modSlice n fun x => { x with drams := modAt x.drams c fun d => { d with queue := d.queue ++
    [{ port := port, owner := owner, ca := ca / 256 * 256, pieces := pieces, write := write, since := s.now, urg4 := false }] } }

/-- An access in the channel view, as the aligned 256-byte pieces that it touches (R284, R289). -/
def State.dramAt (s : State) (n c port owner ca len : Nat) (write : Bool) : State :=
  s.dramPut n c port owner ca (if len = 0 then 0 else (ca + len - 1) / 256 - ca / 256 + 1) write

/-- An access in the interleaved view: the pieces of each channel; with a channel fenced all in the other (R284, R289, R296). -/
def State.dramAsk (s : State) (n port owner a len : Nat) (write : Bool) : State :=
  if len = 0 then s
  else
    let lo := a / 256
    let hi := (a + len - 1) / 256
    if (s.fenceOf (UnitId.dramCh n 0)).isSome then s.dramAt n 1 port owner a len write
    else if (s.fenceOf (UnitId.dramCh n 1)).isSome then s.dramAt n 0 port owner a len write
    else [0, 1].foldl (fun s c =>
      let first := lo + (lo + c) % 2
      s.dramPut n c port owner (first / 2 * 256) (if hi < first then 0 else (hi - first) / 2 + 1) write) s

/-! ### Copies of the write buffer (R106, R291) -/

/-- Does the active table hold a SLOT entry of a tenant in a row? -/
def State.rowSlotOf (s : State) (row ti : Nat) : Bool := s.bondCells.any fun q => q.1 % 65 == row && cellSlot q.2 fun o => o == ti

/-- The channels that take the copies of an owner's writes: both, but for a Sealed instance whose DRAM SLOT entries lie in the row of one
region of the slice only (R106, R291). -/
def State.copyChans (s : State) (n owner : Nat) : List Nat :=
  if owner < 0x100 ∧ s.isSealed owner then
    match [0, 1].filter fun r => s.rowSlotOf (bondRow (2 * n + r) 1) owner with
    | [r] => [r]
    | _ => [0, 1]
  else [0, 1]

/-- The copies of a block written through the host bridge, each in its own channel (R106, R291). -/
def State.dramCopies (s : State) (n w b owner : Nat) (chans : List Nat) : State :=
  chans.foldl (fun s c => s.dramAt n c portHost owner (Config.slotBase w + 4096 * b) 4096 true) s

/-- A buffered version read for streaming by the stream group of a region: one copy, its own channel's where there is one (R12, R291). -/
def State.dramStream (s : State) (n w r owner bytes : Nat) (chans : List Nat) : State :=
  let c := if chans.contains r && (s.fenceOf (UnitId.dramCh n r)).isNone then r else (chans.find? (· != r)).getD r
  s.dramAt n c (portStream r) owner (Config.slotBase w) bytes false

end Sys2Proof.Machine
end

