-- ==== Sys2Proof/Machine/CtxOps.lean ====
section
/-!
DEFINITION. Shared operations of the context table: floors and quotas, allocation (R78, R236, R238, R420).
-/

namespace Sys2Proof.Machine

/-! ### Floors and quotas (R78, R238, R420) -/

/-- Do the instance's floors apply in slice n: has it an attached namespace with a range there (R420)? -/
def State.floorsApply (s : State) (n ti : Nat) : Bool :=
  s.namespaces.any fun x => x.attachedTis.contains ti && x.parts.any fun p => p.slice == n

/-- An owner's floor of a resource in slice n: dev for the device, f of the tenant where its floors apply. -/
def State.floorOf (s : State) (n owner dev : Nat) (f : Tenant → Nat) : Nat :=
  if owner = ownerDev then dev
  else if s.floorsApply n owner then ((s.tenant owner).map f).getD 0 else 0

/-- May an owner take some more of a resource of a given size: from its floor, or for all but Sealed instances from what
no floor still holds (R78, R230, R238)? used gives what each owner holds. -/
def State.mayTake (s : State) (n owner size more dev : Nat) (f : Tenant → Nat) (used : Nat → Nat) (total : Nat) : Bool :=
  let mine := used owner
  let floor := s.floorOf n owner dev f
  if mine + more ≤ floor then decide (total + more ≤ size)
  else
    let others := (ownerDev :: s.tenants.map Tenant.ti).filter (· != owner)
    let held := (others.map fun o => s.floorOf n o dev f - used o).sum
    !(decide (owner < 0x100) && s.isSealed owner) && decide (total + more + held ≤ size)

/-! ### The context table (R236) -/

/-- Entries that a context kind spans (R236). -/
def ctxSpan (kind : Nat) : Nat := if kind = 2 ∨ kind = 3 then 4 else if kind = 4 then 1 else 2

/-- Context entries of an owner in slice n, counting spans. -/
def Slice.ctxUsed (x : Slice) (owner : Nat) : Nat :=
  ((x.contexts.filter fun p => p.2.owner == owner).map fun p => ctxSpan p.2.kind).sum

/-- Context entries in use in slice n. -/
def Slice.ctxTotal (x : Slice) : Nat := (x.contexts.map fun p => ctxSpan p.2.kind).sum

/-- May an owner take a context of a kind (R238)? -/
def State.mayCtx (s : State) (n owner kind : Nat) : Bool :=
  s.mayTake n owner 65535 (ctxSpan kind) (s.fld (Adr.ctCfg n) 15 0) Tenant.ctxq (s.slice n).ctxUsed (s.slice n).ctxTotal

/-- The lowest free aligned index of a span (R236). -/
def Slice.ctxFree (x : Slice) (span : Nat) : Option Nat :=
  let taken (e : Nat) : Bool := x.contexts.any fun p => decide (p.1 ≤ e) && decide (e < p.1 + ctxSpan p.2.kind)
  ((List.range (65535 / span)).find? fun k => !((List.range span).any fun j => taken (k * span + j))).map (· * span)

/-- The cipher part of a context that nothing has used. -/
def cipherIdle : CipherPart := { encrypt := true, cb := 0, ghash := (0, 0), ej0 := (0, 0), aadDone := 0, payDone := 0 }

/-- The stream part of a context that nothing has used. -/
def streamIdle : StreamPart :=
  { format := 0, level := 0, checksum := false, finalSeen := false, ringSize := 0, ringPtr := 0, check := 0, held := 0 }

/-- A context allocated in IDLE (R236). -/
def State.newCtx (s : State) (n c ix kind owner : Nat) (inv : Option Nat) (flow : Nat) : State :=
  let k : Ctx := { index := ix, kind := kind, state := 0, owner := owner, inv := inv, flow := flow, cluster := c, ops := 0,
                   keySlot := 0, keyGen := 0, iv := 0, aadDecl := 0, payDecl := 0, inTotal := 0, outTotal := 0, phase := 0,
                   cipher := cipherIdle, strm := streamIdle }
  s.modSlice n fun x => { x with contexts := mapInsert x.contexts ix k }

/-- A context removed. -/
def State.dropCtx (s : State) (n ix : Nat) : State :=
  s.modSlice n fun x => { x with contexts := mapErase x.contexts ix }

end Sys2Proof.Machine
end

