-- ==== Sys2Proof/Machine/CipherPath.lean ====
section
/-!
DEFINITION. Which cipher unit carries a region's traffic (R181, R182), the generators and key caches of the cipher units (R178 to R180), and the
operations of the stream engines (R175, R176, R189, R198).
-/

namespace Sys2Proof.Machine

/-- The unit that carries the traffic of a local region: 0 its own pipe, 1 the sibling pipe, 2 the byte-serial unit, 3 none (R182, CX_CFG). A
forced path whose unit is out of service leaves the automatic one. -/
def State.pathFor (s : State) (n r : Nat) : Nat :=
  let sib := s.active (UnitId.pipe n (1 - r))
  let bs := s.active (UnitId.byteSerial n)
  let auto :=
    if s.active (UnitId.pipe n r) then 0
    else if s.fenceOf (UnitId.pipe n r) = some .forTest then (if bs then 2 else if sib then 1 else 3)
    else if sib then 1 else if bs then 2 else 3
  match s.fld (Adr.cxCfg n) (2 * r + 1) (2 * r) with
  | 1 => if sib then 1 else auto
  | 2 => if bs then 2 else auto
  | _ => auto

/-- The path in force, as CX_STS gives it. -/
def State.path (s : State) (n r : Nat) : Nat := s.fld (Adr.cxSts n) (2 * r + 13) (2 * r + 12)

/-- PATH_0 and PATH_1 at a course boundary, with ROUTE_CHANGE where one changes (R182, CX_CFG). -/
def State.evalPaths (s : State) (n : Nat) : State :=
  [0, 1].foldl (fun s r =>
    if s.pathFor n r = s.path n r then s
    else (s.putF (Adr.cxSts n) (2 * r + 13) (2 * r + 12) (s.pathFor n r)).setBit (Adr.cxEvt n) 0) s

/-- Can the slice encrypt and decrypt: some cipher unit is in service (R182)? -/
def State.cipherPath (s : State) (n : Nat) : Bool :=
  s.active (UnitId.pipe n 0) || s.active (UnitId.pipe n 1) || s.active (UnitId.byteSerial n)

/-! ### Generators (R178, R180) -/

/-- A value of the generator of cipher unit u of slice n. -/
def State.maskDraw (s : State) (n u : Nat) : BitVec 256 × State :=
  let x := (s.slice n).pipe
  (Config.mask ((x.seeds[u]?).getD 0) x.draws, s.modSlice n fun x => { x with pipe := { x.pipe with draws := x.pipe.draws + 1 } })

/-- A value as two shares under a mask. -/
def sharesOf {w : Nat} (v m : BitVec w) : BitVec w × BitVec w := (v ^^^ m, m)

/-- A pair of shares under a new mask: what they stand for stays. -/
def reshare {w : Nat} (p : BitVec w × BitVec w) (m : BitVec w) : BitVec w × BitVec w := (p.1 ^^^ m, p.2 ^^^ m)

/-- The generators of a slice take new seeds at a course boundary, unless the DRBG has stopped; entries of the key caches are re-shared (R178, R180,
R186). -/
def State.turnGenerators (s : State) (n : Nat) : State :=
  let s := if !s.entropyOk then s
    else [0, 1, 2].foldl (fun s u =>
      let r := s.random
      r.2.modSlice n fun x => { x with pipe := { x.pipe with seeds := modAt x.pipe.seeds u fun _ => r.1, draws := 0 } }) s
  [0, 1].foldl (fun s u =>
    let m := s.maskDraw n u
    m.2.modSlice n fun x => { x with kcache := modAt x.kcache u fun l => l.map fun (e : KcEntry) => { e with shares := reshare e.shares m.1 } }) s

/-- The hub byte-serial unit's generator takes its new seed (R180, R186). -/
def State.turnHubSeed (s : State) : State :=
  if !s.entropyOk then s
  else
    let r := s.random
    r.2.modCourse fun c => { c with hubSeed := r.1 }

/-! ### Key caches (R179) -/

/-- The Sealed instances that own SLOT entries in the stream-engine row of a region, the 24 lowest ones, who pin entries (R179). -/
def State.pinners (s : State) (n r : Nat) : List Nat :=
  let row := bondRow (2 * n + r) 2
  ((List.range 256).filter fun ti => s.isSealed ti && s.bondCells.any fun q => q.1 % 65 == row && cellSlot q.2 fun o => o == ti).take 24

/-- The first k entries that satisfy p kept, and all the others. -/
def keepFirst (p : KcEntry → Bool) (k : Nat) (l : List KcEntry) : List KcEntry :=
  (l.foldl (fun (a : List KcEntry × Nat) e => if p e then (if a.2 < k then (a.1 ++ [e], a.2 + 1) else a) else (a.1 ++ [e], a.2))
    ([], 0)).1

/-- A use of a key on a pipe of slice n: a hit moves its entry to the front; a miss loads it and counts, replacing the entry of the same
owner, or of the unpinned ones, that was used longest ago (R179). -/
def State.keyUse (s : State) (n r k : Nat) : State :=
  let pipe := match s.path n r with
    | 0 => some r
    | 1 => some (1 - r)
    | _ => none
  match pipe with
  | none => s
  | some p =>
    let gen := (s.keySlot k).generation
    let miss := if p = 0 then Adr.cxKcMiss0 n else Adr.cxKcMiss1 n
    let sealedOwner := (s.slotTenant k).filter fun ti => s.isSealed ti
    let who := sealedOwner.filter fun ti => (s.pinners n p).contains ti
    let cache := ((s.slice n).kcache[p]?).getD []
    if sealedOwner.isSome && who.isNone then s.inc miss
    else
      let m := s.maskDraw n p
      let s := m.2
      let e : KcEntry := { slot := k, generation := gen, owner := who, shares := sharesOf (s.keySlot k).key m.1 }
      let same (q : KcEntry) : Bool := q.slot == k && q.generation == gen && q.owner == who
      let rest := cache.filter fun q => !same q
      let pinned := (rest.filter fun e => e.owner.isSome).length
      let room := match who with
        | some _ => keepFirst (fun e => e.owner == who) 1 rest
        | none => keepFirst (fun e => e.owner.isNone) (63 - pinned) rest
      let s := s.modSlice n fun x => { x with kcache := modAt x.kcache p fun _ => e :: room }
      if cache.any same then s else s.inc miss

/-- Does the pipe that carries a region's traffic load the key of a slot for its next use: 40 stream cycles (R179)? -/
def State.keyMiss (s : State) (n r k : Nat) : Bool :=
  let cache (p : Nat) : Bool := (((s.slice n).kcache[p]?).getD []).any fun e => e.slot == k && e.generation == (s.keySlot k).generation
  match s.path n r with
  | 0 => !cache r
  | 1 => !cache (1 - r)
  | _ => false

/-- Entries of old generations and of emptied slots leave at a course boundary (R184). -/
def State.purgeKeys (s : State) (n : Nat) : State :=
  s.modSlice n fun x =>
    { x with kcache := x.kcache.map fun (l : List KcEntry) =>
        l.filter fun e => decide ((s.keySlot e.slot).generation = e.generation) && !((s.keySlot e.slot).state == .empty) }

/-! ### Operations of the stream engines (R175, R176, R189, R198) -/

/-- Units of a slice's stream engines. -/
def unitCompress (e : Nat) : Nat := 3 + e
/-- The decompressor of an engine number. -/
def unitDecompress (e : Nat) : Nat := 7 + e

/-- The unit's place among the units that are fenced (R10, R377). -/
def engineUnit (n u : Nat) : UnitId :=
  if u < 2 then UnitId.pipe n u else if u = 2 then UnitId.byteSerial n else if u < 7 then UnitId.pair n (u - 3) else UnitId.pair n (u - 7)

/-- The region of a unit; the byte-serial unit is in none (R10). -/
def engineRegion (u : Nat) : Option Nat := if u < 2 then some u else if u = 2 then none else if u < 7 then some ((u - 3) / 2) else some ((u - 7) / 2)

/-- The cipher unit that carries a region's traffic now, if one does (R181, R182). -/
def State.cipherUnit (s : State) (n r : Nat) : Option Nat :=
  match s.path n r with
  | 0 => some r
  | 1 => some (1 - r)
  | 2 => some 2
  | _ => none

/-- Operations that a unit still has to serve. -/
def Slice.queueOn (x : Slice) (u : Nat) : Nat := (x.pipe.works.filter fun w => w.unit == u).length

/-- The ACTIVE engine of a region with the fewest operations, of the two lowest the lower (R189). -/
def State.freeEngine (s : State) (n r : Nat) (unitOf : Nat → Nat) : Option Nat :=
  ([2 * r, 2 * r + 1].filter fun e => s.active (UnitId.pair n e)).foldl (fun best e =>
    match best with
    | none => some e
    | some b => if (s.slice n).queueOn (unitOf e) < (s.slice n).queueOn (unitOf b) then some e else some b) none

/-- The decompressor for a unit read in a region: of the region, else of the sibling region (R205). -/
def State.decompressor (s : State) (n r : Nat) : Option Nat :=
  match s.freeEngine n r unitDecompress with
  | some e => some (unitDecompress e)
  | none => (s.freeEngine n (1 - r) unitDecompress).map unitDecompress

/-- An operation put in a slice's queue of operations; answers its number. -/
def State.addWork (s : State) (n : Nat) (w : EngWork) : Nat × State :=
  let k := (s.slice n).pipe.nextWork
  (k, s.modSlice n fun x => { x with pipe := { x.pipe with works := x.pipe.works ++ [{ w with id := k }], nextWork := k + 1 } })

/-- An operation that nothing has served yet. -/
def engWork (unit region owner : Nat) (ctx : Option Nat) (why : EngFor) (after : Option Nat) (load amount lag : Nat) : EngWork :=
  { id := 0, unit := unit, region := region, owner := owner, ctx := ctx, why := why, after := after, load := load, left := amount,
    total := amount, lag := lag }

/-- Blocks that a cipher unit issues for some bytes: E(J0) and the payload (R178). -/
def cipherBlocks (bytes : Nat) : Nat := 1 + (bytes + 15) / 16

/-- Cycles from a main pipe's last block to its tag (R178). -/
def tagLag : Nat := 35

/-- A context for a stored unit, from the device reserve: none while none is free (R236). -/
def State.transient (s : State) (n : Nat) : Option Nat × State :=
  if !s.mayCtx n ownerDev 5 then (none, s)
  else
    match (s.slice n).ctxFree 2 with
    | none => (none, s)
    | some ix => (some ix, s.newCtx n 0 ix 5 ownerDev none 0xFFFF)

/-- A cipher operation on a stored unit of a region, under a key (R175, R179, R181, R236). -/
def State.cipherWork (s : State) (n r owner key bytes : Nat) (why : EngFor) : Option Nat × State :=
  match s.cipherUnit n r with
  | none => (none, s)
  | some u =>
    let t := s.transient n
    let load := if s.keyMiss n r key then 40 else 0
    let a := t.2.addWork n (engWork u r owner t.1 why none load (cipherBlocks bytes) (if u = 2 then 0 else tagLag))
    (some a.1, a.2.keyUse n r key)

/-- Does an operation for a purpose wait or run? -/
def Slice.engaged (x : Slice) (why : EngFor) : Bool := x.pipe.works.any fun w => w.why == why

/-- Operations leave the queue, with the contexts that stored units took (R236). -/
def Slice.dropEngine (x : Slice) (p : EngWork → Bool) : Slice :=
  let gone := x.pipe.works.filter p
  { x with
    pipe := { x.pipe with works := x.pipe.works.filter fun w => !p w },
    contexts := x.contexts.filter fun q => !(q.2.kind == 5 && gone.any fun w => w.ctx == some q.1) }

end Sys2Proof.Machine
end

