-- ==== Sys2Proof/Machine/MediaOps.lean ====
section
/-!
DEFINITION. Shared operations of the translation layer and the flash: geometry and numbering (R97 to R104, R143, R144,
R153, R155), the formats of mapping entries and stored units (R101, R111, R112), blocks, pools and spares (R123, R126, R133, R135, R417), superblocks,
die stripes and where a stored unit lies (R104, R105, R114), the write buffer (R106 to R110), reading (R13, R60, R102, R115, R124, R159).
-/

namespace Sys2Proof.Machine

/-! ### Geometry and numbering -/

/-- The seed image that runs (R352). -/
def State.image (s : State) : Option SeedImage := ((s.nvm.flash[s.start.slot]?).getD none)

/-- The media descriptor that slice n matched (R145). -/
def State.desc (s : State) (n : Nat) : Option MediaDesc :=
  match s.image, (s.slice n).descIx with
  | some im, some ix => im.media[ix]?
  | _, _ => none

/-- Bits per cell of a mode. -/
def CellMode.bits : CellMode → Nat
  | .pslc => 1
  | .tlc => 3
  | .qlc => 4

/-- Bytes of a codeword at a rate code (R153). -/
def cwBytes (rate : Nat) : Nat := 4096 + 32 + 448 + 64 * rate

end Sys2Proof.Machine

namespace Sys2Proof

open Machine

/-- Codewords per flash page (R155). -/
def MediaDesc.cwPerPage (d : MediaDesc) (m : CellMode) (rate : Nat) : Nat :=
  d.planes * m.bits * (d.pageKib * 1024 + d.spare) / cwBytes rate

/-- User bytes of one block (R132). -/
def MediaDesc.blockBytes (d : MediaDesc) (m : CellMode) (rate : Nat) : Nat :=
  d.pagesPerBlock * d.cwPerPage m rate * 4096

/-- Raw bytes of one LUN: its main area (R98). -/
def MediaDesc.lunBytes (d : MediaDesc) : Nat :=
  d.blocksPerLun * d.pagesPerBlock * d.planes * d.bits * d.pageKib * 1024

/-- The cell mode that uses all bits of the descriptor's cells. -/
def MediaDesc.fullMode (d : MediaDesc) : CellMode := if d.bits = 3 then .tlc else .qlc

/-- Codeword count of a LUN at P448, all bits of its cells used (R144). -/
def MediaDesc.lunCodewords (d : MediaDesc) : Nat := d.blocksPerLun * d.pagesPerBlock * d.cwPerPage d.fullMode 0

/-- Place of a cell mode in the descriptor's lists: pSLC, TLC, QLC. -/
def modeIx : CellMode → Nat
  | .pslc => 0
  | .tlc => 1
  | .qlc => 2

/-- Nominal time in ns of an array operation in a mode (R145). -/
def MediaDesc.nominal (d : MediaDesc) (op : FlOp) (m : CellMode) : Nat :=
  match op with
  | .read => (d.tR[modeIx m]?).getD 0
  | .program => (d.tProg[modeIx m]?).getD 0
  | .erase => (d.tBers[modeIx m]?).getD 0

/-- Maximum time in ns of an array operation in a mode (R145). -/
def MediaDesc.maximum (d : MediaDesc) (op : FlOp) (m : CellMode) : Nat :=
  match op with
  | .read => (d.tRMax[modeIx m]?).getD 0
  | .program => (d.tProgMax[modeIx m]?).getD 0
  | .erase => (d.tBersMax[modeIx m]?).getD 0

end Sys2Proof

namespace Sys2Proof.Machine

/-- The slice-local LUN number of LUN l of volume v on channel c (R103). -/
def lunNo (c v l : Nat) : Nat := 64 * c + 4 * v + l

/-- The channel of a slice-local LUN (R103, R143). -/
def lunCh (k : Nat) : Nat := k / 64

/-- The local region of a slice-local LUN. -/
def lunRegion (k : Nat) : Nat := k / 256

/-- The slice-local target of a LUN: 16 times channel plus volume (R10, R143). -/
def lunTarget (k : Nat) : Nat := k / 4

/-- The slice-local stripe group of a LUN (R103). -/
def lunGroup (k : Nat) : Nat := 16 * (k / 256) + k / 4 % 16

/-- The position of a LUN in its stripe group (R103). -/
def lunPos (k : Nat) : Nat := 4 * (k % 4) + k / 64 % 4

/-- The LUN at a position of a stripe group (R103). -/
def lunAt (g i : Nat) : Nat := lunNo (4 * (g / 16) + i % 4) (g % 16) (i / 4)

/-- The position that die stripe k of a superblock with n positions omits, where its parity page lies (R114). -/
def parityPos (n k : Nat) : Nat := (n - 1) * (k + 1) % n

/-! ### Mapping entries (R101) -/

/-- KIND of a mapping entry. -/
def Entry.kind : Entry → Nat
  | .unmapped => 0
  | .flash _ _ _ _ _ => 1
  | .buffer _ => 2
  | .zero => 3
  | .faulted => 4
  | .lost _ _ => 5

/-- A mapping entry as its 48 bits. -/
def Entry.word (e : Entry) : BitVec 48 :=
  BitVec.ofNat 48 (e.kind * 2 ^ 45 + match e with
    | .flash lun cw off span comp => lun % 2 ^ 9 * 2 ^ 36 + cw % 2 ^ 26 * 2 ^ 10 + off % 16 * 64 + span % 32 * 2 + bit01 comp
    | .buffer w => w % 2 ^ 45
    | .lost lun cw => lun % 2 ^ 9 * 2 ^ 36 + cw % 2 ^ 26 * 2 ^ 10
    | _ => 0)

/-- The mapping entry that 48 bits give; the reserved kinds are never written and read as LOST. -/
def Entry.ofWord (w : BitVec 48) : Entry :=
  let v := w.toNat
  let lun := v / 2 ^ 36 % 2 ^ 9
  let cw := v / 2 ^ 10 % 2 ^ 26
  match v / 2 ^ 45 with
  | 0 => .unmapped
  | 1 => .flash lun cw (v / 64 % 16) (v / 2 % 32) (decide (v % 2 = 1))
  | 2 => .buffer (v % 2 ^ 45)
  | 3 => .zero
  | 4 => .faulted
  | _ => .lost lun cw

/-! ### Stored units as bytes (R111, R112) -/

/-- CRC-16 with polynomial 0x1021 and initial value 0xFFFF. -/
def crc16 (l : List Byte) : BitVec 16 :=
  l.foldl (fun c b => (List.range 8).foldl (fun (c : BitVec 16) _ => if c.msb then (c <<< 1) ^^^ 0x1021 else c <<< 1)
    (c ^^^ BitVec.ofNat 16 (b.toNat * 256))) 0xFFFF

/-- A stored unit header from its fields, with its HCRC (table Stored unit header). -/
def unitHeader (nsid lua : Nat) (wseq : BitVec 64) (slen format lostMap keySlot keyGen : Nat) : List Byte :=
  let l := leBytes 4 nsid ++ leBytes 6 lua ++ leBytes 8 wseq.toNat ++ leBytes 4 slen ++ leBytes 1 format ++ leBytes 2 lostMap ++
    leBytes 2 keySlot ++ leBytes 2 keyGen ++ leBytes 1 0
  l ++ leBytes 2 (crc16 l).toNat

/-- The header of a stored unit, which is also its additional authenticated data (R111, R167). -/
def StoredUnit.header (u : StoredUnit) : List Byte :=
  unitHeader u.nsid u.lua u.wseq u.slen u.format u.lostMap u.keySlot u.keyGen

/-- The header at the start of some grout bytes: FORMAT 0xFF, NSID 0, SLEN the bytes that follow (R112). -/
def groutHeader (bytes : Nat) : List Byte := unitHeader 0 0 0 (bytes - 32) 0xFF 0 0 0

/-- Is a header valid by its HCRC (R111)? -/
def headerOk (l : List Byte) : Bool := l.length == 32 && leValue (l.drop 30) == (crc16 (l.take 30)).toNat

/-- Stored formats (R111). -/
def formatCheckpoint : Nat := 0x10
/-- FORMAT of the delta journal. -/
def formatDelta : Nat := 0x11
/-- FORMAT of superblock, spare and counter state. -/
def formatState : Nat := 0x12

/-- Bytes that a stored unit takes: header, ciphertext and tag, rounded up to 256 (R111). -/
def unitBytes (slen : Nat) : Nat := roundUp (32 + slen + 16) 256

/-! ### Codewords as bytes (R153, R154) -/

/-- One bit of CRC-32C (R370), the reflected form of polynomial 0x1EDC6F41. -/
def crcStep (c : Word) : Word := if c.getLsbD 0 then (c >>> 1) ^^^ 0x82F63B78#32 else c >>> 1

/-- One byte of CRC-32C. -/
def crcByte (c : Word) (b : Byte) : Word :=
  (List.range 8).foldl (fun c _ => crcStep c) (c ^^^ b.zeroExtend 32)

/-- CRC-32C of some bytes (R370). -/
def crc32c (l : List Byte) : Word := (l.foldl crcByte 0xFFFFFFFF#32) ^^^ 0xFFFFFFFF#32

/-- Code of a cell mode in codeword metadata (R153). -/
def modeCode : CellMode → Nat
  | .pslc => 0
  | .tlc => 1
  | .qlc => 2

/-- The 32 metadata bytes of a codeword over its 4,096 user bytes: KIND is 0 data, 1 landing, 2 metadata superblock (table Codeword metadata). -/
def codewordMeta (user : List Byte) (lun cw : Nat) (m : CellMode) (rate kind seq : Nat) : List Byte :=
  let l := leBytes 2 lun ++ leBytes 4 cw ++ leBytes 1 (modeCode m * 64 + rate % 4) ++ leBytes 1 kind ++ leBytes 8 seq ++ List.replicate 12 0
  l ++ leBytes 4 (crc32c (user ++ l)).toNat

/-- Does a codeword that has converged carry the address that was read, and its CRC: is it good (R157)? -/
def codewordGood (lun cw : Nat) (user meta_ : List Byte) : Bool :=
  leValue (meta_.drop 28) == (crc32c (user ++ meta_.take 28)).toNat && leValue (meta_.take 2) == lun && leValue ((meta_.drop 2).take 4) == cw

/-- The scrambler's seed for a codeword (R154). -/
def scrambleSeed (lun cw : Nat) : Nat :=
  let v := (lun * 2 ^ 26 + cw) % (2 ^ 31 - 1)
  if v = 0 then 1 else v

/-- Bits of the PRBS31 sequence x^31 + x^28 + 1 from a state of its register on (R154; which end of the register gives the bit, log entry 46). -/
def prbs31 : Nat → BitVec 31 → List Bool
  | 0, _ => []
  | n + 1, r => (r.getLsbD 30 ^^ r.getLsbD 27) :: prbs31 n ((r <<< 1) ||| if r.getLsbD 30 ^^ r.getLsbD 27 then 1 else 0)

/-- Bytes of a sequence of bits, the first bit in bit 0 of the first byte (log entry 46). -/
def bitsToBytes : Nat → List Bool → List Byte
  | 0, _ => []
  | n + 1, l => ((l.take 8).zipIdx.foldl (fun (b : Byte) q => if q.1 then b ||| BitVec.ofNat 8 (2 ^ q.2) else b) 0) :: bitsToBytes n (l.drop 8)

/-- User and metadata bytes of a codeword scrambled, or descrambled again: XORed with the sequence of its address (R154). -/
def scramble (lun cw : Nat) (bs : List Byte) : List Byte :=
  List.zipWith (· ^^^ ·) bs (bitsToBytes bs.length (prbs31 (8 * bs.length) (BitVec.ofNat 31 (scrambleSeed lun cw))))

/-- Mapping unit in blocks by its code (R97). -/
def muBlocks (code : Nat) : Nat := if code = 0 then 4 else if code = 1 then 8 else 16

/-- The mapping unit of slice n in blocks. -/
def State.mu (s : State) (n : Nat) : Nat := muBlocks (s.fld (Adr.ftCfg n) 1 0)

/-- Is slice n formatted (R97)? -/
def State.formatted (s : State) (n : Nat) : Bool := s.fld (Adr.ftCfg n) 1 0 != 3

/-- Bytes of the mapping table of raw flash bytes with a mapping unit: 6 bytes an entry (R98). -/
def tableBytes (raw mu : Nat) : Nat := 6 * (raw / (mu * 4096))

/-- Installed DRAM bytes of slice n (R281). -/
def State.dramBytes (s : State) (n : Nat) : Nat :=
  if s.fld (Adr.dmCfg n) 1 0 = 1 then 2 * 8 * 2 ^ 30 else 2 * 16 * 2 ^ 30

/-- Does the table of a mapping unit fit in half of the slice's DRAM (R98)? -/
def State.tableFits (s : State) (n mu : Nat) : Bool :=
  match s.desc n with
  | none => false
  | some d => decide (tableBytes ((s.slice n).luns.length * d.lunBytes) mu ≤ s.dramBytes n / 2)

/-- The code of the smallest mapping unit that fits, if any (R98). -/
def State.smallestMu (s : State) (n : Nat) : Option Nat := [0, 1, 2].find? fun c => s.tableFits n (muBlocks c)

/-! ### LUNs, blocks, pools -/

/-- A LUN of the slice. -/
def Slice.lun (x : Slice) (k : Nat) : Option Lun := recGet Lun.lun x.luns k

/-- Is the LUN good: present, not withdrawn, neither failed nor evacuated (R121, R136, R381)? -/
def Lun.good (l : Lun) : Bool :=
  l.active && !l.withdrawn && !(l.health == .failed) && !(l.health == .evacuated)

/-- Is LUN k good? -/
def Slice.lunGood (x : Slice) (k : Nat) : Bool := (x.lun k).any Lun.good

/-- Is LUN k withdrawn (R381)? -/
def Slice.lunWithdrawn (x : Slice) (k : Nat) : Bool := (x.lun k).any Lun.withdrawn

/-- What is known of a block; one never erased has wear 0 (R123). -/
def Slice.block (x : Slice) (lun b : Nat) : BlockInfo :=
  (x.blocks.find? fun i => i.lun == lun && i.block == b).getD
    { lun := lun, block := b, wear := 0, reads := 0, mode := none, rate := 0, level := 0, retired := false, marked := false }

/-- Changes what is known of a block. -/
def Slice.modBlock (x : Slice) (lun b : Nat) (f : BlockInfo → BlockInfo) : Slice :=
  { x with blocks := x.blocks.filter (fun i => !(i.lun == lun && i.block == b)) ++ [f (x.block lun b)] }

/-- Does a superblock, the reserve or a metadata superblock hold the block? -/
def Slice.inUse (x : Slice) (lun b : Nat) : Bool :=
  (x.supers.any fun sb => sb.blocks.contains (lun, b)) || (x.reserve.any fun r => r.lun == lun && r.block == b) ||
    x.store.supers.any fun q => q.blocks.contains (lun, b)

/-- The free blocks of a LUN: in no use, neither retired nor marked (R118, R119). -/
def Slice.freeBlocks (x : Slice) (d : MediaDesc) (lun : Nat) : List Nat :=
  (List.range d.blocksPerLun).filter fun b =>
    !(x.inUse lun b) && !(x.block lun b).retired && !(x.block lun b).marked

/-- The least-worn free block of a LUN, ties to the lowest number (R123). -/
def Slice.leastWorn (x : Slice) (d : MediaDesc) (lun : Nat) : Option Nat :=
  (x.freeBlocks d lun).foldl (fun best b =>
    match best with
    | none => some b
    | some a => if (x.block lun b).wear < (x.block lun a).wear then some b else some a) none

/-- The pool that slice-local group g of slice n belongs to: a tenant's LUN sets, which stay its own when it becomes Shared (R78, R82), or the
slice's own (R105). -/
def State.poolOf (s : State) (n g : Nat) : Pool :=
  match s.holders.find? fun t => t.lunsets.testBit (32 * n + g) with
  | some t => .tenant t.ti
  | none => .slice

/-- The stripe groups of a pool within a slice. -/
def State.poolGroups (s : State) (n : Nat) (p : Pool) : List Nat :=
  (List.range 32).filter fun g => s.poolOf n g == p

/-- The positions of a group whose LUN is good (R104). -/
def Slice.activePos (x : Slice) (g : Nat) : List Nat := (List.range 16).filter fun i => x.lunGood (lunAt g i)

/-- Does a group serve: it has at least 4 good LUNs (R118, R121)? -/
def Slice.groupAlive (x : Slice) (g : Nat) : Bool := decide (4 ≤ (x.activePos g).length)

/-- The positions that a new superblock of a group may take: good LUNs that are not being evacuated (R104, R138). -/
def Slice.openPos (x : Slice) (g : Nat) : List Nat := (x.activePos g).filter fun i => x.evacuating != some (lunAt g i)

/-- Rated cycles of a mode (FT_PE_CFG, R123). -/
def State.rated (s : State) (n : Nat) (m : CellMode) : Nat :=
  100 * (match m with
    | .pslc => s.fld (Adr.ftPeCfg n) 29 20
    | .tlc => s.fld (Adr.ftPeCfg n) 19 10
    | .qlc => s.fld (Adr.ftPeCfg n) 9 0)

/-- An erase of a block in a mode: its wear fraction rises, its reads and its read level restart (R123, R124, R159). -/
def State.erase (s : State) (n lun b : Nat) (m : CellMode) (rate : Nat) : State :=
  s.modSlice n fun x => x.modBlock lun b fun i =>
    { i with wear := i.wear + 1 / (s.rated n m : Rat), reads := 0, mode := some m, rate := rate, level := 0 }

/-- Good blocks of the LUNs of some groups now. -/
def Slice.goodIn (x : Slice) (gs : List Nat) : Nat :=
  ((x.luns.filter fun l => l.good && gs.contains (lunGroup l.lun) && x.groupAlive (lunGroup l.lun)).map
    fun l => l.goodAtFormat - l.retired).sum

/-- Good LUNs of some groups that serve. -/
def Slice.lunsIn (x : Slice) (gs : List Nat) : Nat :=
  (x.luns.filter fun l => l.good && gs.contains (lunGroup l.lun) && x.groupAlive (lunGroup l.lun)).length

/-- The pool in which a namespace lies within its slices (R81). -/
def Namespace.pool (x : Namespace) : Pool := if x.desc.sealedTi < 0x100 then .tenant x.desc.sealedTi else .slice

/-- Blocks reserved for namespaces in a pool of slice n (R132). -/
def State.reserved (s : State) (n : Nat) (p : Pool) : Nat :=
  ((s.namespaces.filter fun x => x.pool == p).map fun x =>
    ((x.parts.filter fun q => q.slice == n).map NsPart.reserved).sum).sum

/-- Blocks of the landing reserve on each good LUN (R126). -/
def landingPerLun (wbMib goodLuns blockBytes : Nat) : Nat :=
  let need := (wbMib + 16 + 32) * 2 ^ 20 * 16 * 5
  max 1 ((need + goodLuns * blockBytes * 60 - 1) / (goodLuns * blockBytes * 60))

/-- Blocks of the metadata superblocks: as sized at format, in proportion to the good LUNs that are left (R417). -/
def Slice.metaNow (x : Slice) : Nat :=
  if x.metaLuns = 0 then x.metaBlocks else x.metaBlocks * (x.luns.filter Lun.good).length / x.metaLuns

/-- Spare blocks of a pool: good blocks less those reserved, the landing reserve, the parity allowance and the metadata
superblocks (R133, R417). -/
def State.spare (s : State) (n : Nat) (p : Pool) : Int :=
  let x := s.slice n
  let gs := s.poolGroups n p
  let landing := match s.desc n with
    | none => 0
    | some d => landingPerLun (s.fld (Adr.ftWb n) 15 0) (x.luns.filter Lun.good).length (d.blockBytes .pslc 0)
  (x.goodIn gs : Int) - s.reserved n p - (landing + 2) * x.lunsIn gs - (if p = .slice then x.metaNow else 0)

/-- The spare reference of a pool: REF_PERMILLE of its good blocks at format (R133). -/
def State.spareRef (s : State) (n : Nat) (p : Pool) : Nat :=
  let x := s.slice n
  let gs := s.poolGroups n p
  x.spareRef * ((x.luns.filter fun l => gs.contains (lunGroup l.lun)).map Lun.goodAtFormat).sum / 1000

/-- Available Spare of a pool, %, saturating at 100 (R133). The spec divides by the spare reference and says nothing of a reference of 0: the
model's choice there is 100 (DESIGN CHOICE, log entry 29). -/
def State.availableSpare (s : State) (n : Nat) (p : Pool) : Nat :=
  if s.spareRef n p = 0 then 100 else min 100 (100 * (s.spare n p).toNat / s.spareRef n p)

/-- The pools that hold groups of slice n. -/
def State.pools (s : State) (n : Nat) : List Pool :=
  .slice :: ((s.holders.filter fun t => (List.range 32).any fun g => t.lunsets.testBit (32 * n + g)).map
    fun t => Pool.tenant t.ti).eraseDups

/-- Spare figures and read-only state evaluated again (R133, R135). -/
def State.evalSpare (s : State) (n : Nat) : State :=
  if !s.formatted n then s else
    let crit := s.fld (Adr.ftSpareCfg n) 7 0
    let warn := s.fld (Adr.ftSpareCfg n) 15 8
    let old := (s.slice n).readOnly
    let ro := (s.pools n).filter fun p =>
      let a := s.availableSpare n p
      decide (a < crit) || (old.contains p && decide (a < 2 * crit))
    let low := decide (s.availableSpare n .slice < warn)
    let was := s.bit (Adr.ftSts n) 5
    let sealedSpares := (s.pools n).filterMap fun p =>
      match p with
      | .slice => none
      | .tenant ti => if s.isSealed ti then some (s.availableSpare n (.tenant ti)) else none
    let minSealed := if sealedSpares = [] then 0xFF else sealedSpares.foldl min 100
    let s := s.modSlice n fun x => { x with readOnly := ro }
    let s := if low && !was then s.setBit (Adr.ftEvt n) 2 else s
    let s := if ro.any (fun p => !old.contains p) then s.setBit (Adr.ftEvt n) 3 else s
    let s := (s.putBit (Adr.ftSts n) 5 low).putBit (Adr.ftSts n) 7 (ro.contains .slice)
    (s.putF (Adr.ftSpare n) 7 0 (s.availableSpare n .slice)).putF (Adr.ftSpare n) 15 8 minSealed

/-- Does the namespace lie in a pool that is read-only (R135)? -/
def State.readOnlyNs (s : State) (x : Namespace) : Bool :=
  x.parts.any fun p => (s.slice p.slice).readOnly.contains x.pool

/-- Retired blocks of a LUN. -/
def Slice.retiredOn (x : Slice) (lun : Nat) : Nat := (x.blocks.filter fun b => b.lun == lun && b.retired).length

/-- Remaining rated erase capacity of slice n in MiB: over its good blocks, the user MiB of a block in the mode of its last erase times
rated cycles times what is left of its wear; a block never erased counts in the default mode at P448 (R140). -/
def State.remainingMib (s : State) (n : Nat) : Rat :=
  match s.desc n with
  | none => 0
  | some d =>
    let x := s.slice n
    let dflt : CellMode := if s.fld (Adr.ftCfg n) 9 8 = 1 then .tlc else .qlc
    let mib (m : CellMode) (rate : Nat) : Rat := (d.blockBytes m rate * s.rated n m : Nat) / (2 ^ 20 : Nat)
    ((x.luns.filter Lun.good).map fun l =>
      let known := x.blocks.filter fun b => b.lun == l.lun
      let used := (known.filter fun b => !b.retired).map fun b => mib (b.mode.getD dflt) (if b.mode.isSome then b.rate else 0) * max 0 (1 - b.wear)
      used.sum + ((d.blocksPerLun - known.length : Nat) : Rat) * mib dflt 0).sum

/-- DEV_WEAR_RATE over the hours that are left of the service life (R84, R140); it is computed when a rebuild ends, then hourly (log entry 40). -/
def State.updateWearRate (s : State) : State :=
  let hours := max 1 (87660 - s.nvm.minutes / 60)
  { s with wearRateMax := ((s.sliceList.map s.remainingMib).sum / (hours : Rat)).floor.toNat }

/-! ### The reserve of kept-back blocks (R126, R417) -/

/-- The landing blocks of a slice. -/
def Slice.landing (x : Slice) : List ResBlock := x.reserve.filter fun r => r.use == .landing

/-- MiB of some pSLC blocks at P448. -/
def State.pslcMib (s : State) (n blocks : Nat) : Nat :=
  match s.desc n with
  | none => 0
  | some d => blocks * d.blockBytes .pslc 0 / 2 ^ 20

/-- Landing reserve capacity in MiB (FT_LANDING.TOTAL). -/
def State.landTotal (s : State) (n : Nat) : Nat := s.pslcMib n (s.slice n).landing.length

/-- Erased landing capacity in MiB (FT_LANDING.READY). -/
def State.landReady (s : State) (n : Nat) : Nat := s.pslcMib n ((s.slice n).landing.filter ResBlock.ready).length

/-- Changes a kept-back block. -/
def Slice.modReserve (x : Slice) (lun b : Nat) (f : ResBlock → ResBlock) : Slice :=
  { x with reserve := x.reserve.map fun r => if r.lun = lun ∧ r.block = b then f r else r }

/-- A block of a LUN kept back: the least-worn free one, if the LUN has one. -/
def Slice.keepBack (x : Slice) (d : MediaDesc) (lun : Nat) (use : ResUse) (ready : Bool) : Slice :=
  match x.leastWorn d lun with
  | none => x
  | some b => { x with reserve := x.reserve ++ [{ lun := lun, block := b, use := use, fill := 0, ready := ready }] }

/-- Blocks that a LUN keeps back for one use. -/
def Slice.keptOn (x : Slice) (lun : Nat) (use : ResUse) : Nat := (x.reserve.filter fun r => r.lun == lun && r.use == use).length

/-- Is every block of a LUN's parity allowance in use: it holds parity of a superblock that is not verified (R417)? -/
def Slice.parityFull (x : Slice) (lun : Nat) : Bool :=
  (x.reserve.filter fun r => r.lun == lun && r.use == .parity).all fun r =>
    x.parity.any fun p => p.lun == lun && p.block == r.block

/-! ### The channel queues: what is put into them (R149, R162) -/

/-- Bursts of 64 bytes that some bytes take (R162). -/
def burstsOf (bytes : Nat) : Nat := (bytes + 63) / 64

/-- An array operation added to the queues: it is the youngest. -/
def Slice.queue (x : Slice) (w : FlWork) : Slice :=
  { x with flash := { x.flash with works := x.flash.works ++ [{ w with id := x.flash.nextWork }], nextWork := x.flash.nextWork + 1 } }

/-- An operation that waits for its command. -/
def flWork (op : FlOp) (lun block row : Nat) (m : CellMode) (rate : Nat) (why : FlFor) (user : Option Nat) (since left level : Nat) : FlWork :=
  { id := 0, lun := lun, block := block, row := row, op := op, mode := m, rate := rate, why := why, user := user, since := since, left := left,
    stage := .queued, pausedIn := none, busyAt := 0, pollAt := 0, polled := none, suspends := 0, level := level }

/-- An erase queued. -/
def State.queueErase (s : State) (n lun b : Nat) (m : CellMode) (rate : Nat) (why : FlFor) : State :=
  s.modSlice n fun x => x.queue (flWork .erase lun b 0 m rate why none s.now 0 0)

/-- A flash page's program queued: all its codewords (R149, R155). -/
def State.queueProgram (s : State) (n : Nat) (d : MediaDesc) (lun b row : Nat) (m : CellMode) (rate : Nat) (why : FlFor) (user : Option Nat) : State :=
  s.modSlice n fun x => x.queue
    (flWork .program lun b row m rate why user s.now (burstsOf (d.cwPerPage m rate * cwBytes rate)) 0)

/-- The level at which a read of a block starts: the last that succeeded, 0 where that is 7 or 8 or FL_CFG.STICKY is 0 (R159). -/
def State.startLevel (s : State) (n lun b : Nat) : Nat :=
  let l := ((s.slice n).block lun b).level
  if s.bit (Adr.flCfg n) 20 && decide (l < 7) then l else 0

/-- A read of some codewords of a flash page queued. -/
def State.queueRead (s : State) (n lun b row : Nat) (m : CellMode) (rate cws : Nat) (why : FlFor) (user : Option Nat) : State :=
  s.modSlice n fun x => x.queue
    (flWork .read lun b row m rate why user s.now (burstsOf (cws * cwBytes rate)) (s.startLevel n lun b))

/-- Does some operation for a purpose remain? -/
def Slice.working (x : Slice) (why : FlFor) : Bool := x.flash.works.any fun w => w.why == why

/-! ### Superblocks (R104, R105) -/

/-- The cell mode of a MEDIA code (R51, R132). -/
def mediaMode (media : Nat) : CellMode := if media = 0 then .qlc else .tlc

/-- The row at which a set of positions ends: where the next one begins, or after the last row. -/
def setEnd (rows : Nat) : List (Nat × List Nat) → Nat
  | [] => rows
  | q :: _ => q.1

/-- The row and the position of a page of the data sequence (R104). -/
def pageIn (rows : Nat) : List (Nat × List Nat) → Nat → Option (Nat × Nat)
  | [], _ => none
  | q :: l, p =>
    let k := q.2.length
    let pages := (setEnd rows l - q.1) * k
    if p < pages then some (q.1 + p / k, (q.2[p % k]?).getD 0) else pageIn rows l (p - pages)

/-- Pages of the data sequence. -/
def pagesIn (rows : Nat) : List (Nat × List Nat) → Nat
  | [] => 0
  | q :: l => (setEnd rows l - q.1) * q.2.length + pagesIn rows l

/-- The first page of the first row from r on that has pages. -/
def rowStart (rows : Nat) : List (Nat × List Nat) → Nat → Nat
  | [], _ => 0
  | q :: l, r => (min r (setEnd rows l) - q.1) * q.2.length + rowStart rows l r

/-- A die stripe (R114): the set of positions it belongs to, its number, its first page and its pages, and the position that it omits. -/
structure Stripe where
  seg : Nat
  k : Nat
  first : Nat
  count : Nat
  pos : Nat
  deriving DecidableEq, Repr

/-- The stripe of a page: n - 1 pages of a set of n positions; the last stripe of a set is closed with the pages that it has (R114). -/
def stripeIn (rows : Nat) : List (Nat × List Nat) → (seg base p : Nat) → Option Stripe
  | [], _, _, _ => none
  | q :: l, seg, base, p =>
    let n := q.2.length
    let pages := (setEnd rows l - q.1) * n
    if p < pages then
      let w := max 1 (n - 1)
      let k := p / w
      some { seg := seg, k := k, first := base + w * k, count := min w (pages - w * k), pos := (q.2[parityPos n k]?).getD 0 }
    else stripeIn rows l (seg + 1) (base + pages) (p - pages)

/-- The positions of the rows that come. -/
def Superblock.positions (sb : Superblock) : List Nat := ((sb.sets.getLast?).map (·.2)).getD []

/-- Flash pages of the data sequence. -/
def Superblock.numPages (sb : Superblock) : Nat := pagesIn sb.rows sb.sets

/-- User bytes of a flash page of the superblock. -/
def Superblock.pageBytes (sb : Superblock) (d : MediaDesc) : Nat := d.cwPerPage sb.mode sb.rate * 4096

/-- User bytes that a superblock holds. -/
def Superblock.cap (sb : Superblock) (d : MediaDesc) : Nat := sb.numPages * sb.pageBytes d

/-- The block that a superblock took on a LUN. -/
def Superblock.blockOn (sb : Superblock) (lun : Nat) : Nat := ((sb.blocks.find? fun q => q.1 == lun).map (·.2)).getD 0

/-- The LUN, block and row of a page of the data sequence. -/
def Superblock.pageAt (sb : Superblock) (p : Nat) : Option (Nat × Nat × Nat) :=
  (pageIn sb.rows sb.sets p).map fun q => let lun := lunAt sb.group q.2; (lun, sb.blockOn lun, q.1)

/-- The stripe of a page of the data sequence. -/
def Superblock.stripe (sb : Superblock) (p : Nat) : Option Stripe := stripeIn sb.rows sb.sets 0 0 p

/-- The place of some bytes at a byte of the data sequence: LUN, codeword, granule, codewords less 1 (R101, R104, R144). -/
def Superblock.place (sb : Superblock) (d : MediaDesc) (start size : Nat) : Nat × Nat × Nat × Nat :=
  let pp := d.cwPerPage sb.mode sb.rate
  let g := start / 4096
  let q := (sb.pageAt (g / pp)).getD (0, 0, 0)
  (q.1, (q.2.1 * d.pagesPerBlock + q.2.2) * pp + g % pp, start % 4096 / 256, (start % 4096 + size - 1) / 4096)

/-- The superblock of a sequence number. -/
def Slice.super (x : Slice) (seq : Nat) : Option Superblock := recGet Superblock.seq x.supers seq

/-- Changes a superblock. -/
def Slice.modSuper (x : Slice) (seq : Nat) (f : Superblock → Superblock) : Slice :=
  { x with supers := recMod Superblock.seq x.supers seq f }

/-- The open superblock of a pool, profile and region for host data or for garbage collection (R105). -/
def Slice.openSuper (x : Slice) (p : Pool) (m : CellMode) (rate region : Nat) (gc : Bool) : Option Superblock :=
  x.supers.find? fun sb => sb.state == .sopen && sb.pool == p && sb.mode == m && sb.rate == rate &&
    sb.group / 16 == region && sb.forGc == gc && !sb.landing

/-- Mean wear of the least-worn free blocks of a group, where at least 4 good LUNs have one and no LUN's parity allowance is all in use (R118,
R123, R417). -/
def Slice.groupWear (x : Slice) (d : MediaDesc) (g : Nat) : Option Rat :=
  let ws := (x.openPos g).filterMap fun i => (x.leastWorn d (lunAt g i)).map fun b => (x.block (lunAt g i) b).wear
  if ws.length < 4 ∨ (x.openPos g).any (fun i => x.parityFull (lunAt g i)) then none else some (ws.sum / (ws.length : Rat))

/-- The group that a new superblock of a pool takes in a region: lowest mean wear, ties to the lowest number (R123). -/
def State.chooseGroup (s : State) (n : Nat) (d : MediaDesc) (p : Pool) (region : Nat) : Option Nat :=
  let x := s.slice n
  let gs := (s.poolGroups n p).filter fun g => g / 16 == region
  (gs.foldl (fun best g =>
    match x.groupWear d g, best with
    | none, _ => best
    | some w, none => some (g, w)
    | some w, some b => if w < b.2 then some (g, w) else some b) (none : Option (Nat × Rat))).map (·.1)

/-- An empty superblock of some blocks, one at each of some positions. -/
def newSuper (seq g : Nat) (p : Pool) (m : CellMode) (rate rows now : Nat) (gc landing : Bool) (picks : List (Nat × Nat)) : Superblock :=
  { seq := seq, group := g, pool := p, mode := m, rate := rate, forGc := gc, landing := landing, state := .sopen,
    sets := [(0, picks.map (·.1))], blocks := picks.map fun q => (lunAt g q.1, q.2), rows := rows, fill := 0, filledAt := now, due := 0,
    waiting := [], lost := [], grouts := [], parityHeld := true, closedAt := 0, verifyAt := 0, patrolAt := 0 }

/-- A superblock allocated from a group: the least-worn free block of each good LUN, to be erased (R105, R123). -/
def State.allocSuper (s : State) (n g : Nat) (d : MediaDesc) (p : Pool) (m : CellMode) (rate : Nat) (gc : Bool) : State :=
  let x := s.slice n
  let picks := (x.openPos g).filterMap fun i => (x.leastWorn d (lunAt g i)).map fun b => (i, b)
  let seq := x.nextSb
  let s := s.modSlice n fun x =>
    { x with supers := x.supers ++ [newSuper seq g p m rate d.pagesPerBlock s.now gc false picks], nextSb := seq + 1 }
  picks.foldl (fun s q => s.queueErase n (lunAt g q.1) q.2 m rate (.block seq)) s

/-- Is the superblock erased, so that it can take data? -/
def Slice.erased (x : Slice) (seq : Nat) : Bool := !(x.working (.block seq))

/-- Is a block marked for retirement (R119)? -/
def Slice.markedAt (x : Slice) (sb : Superblock) (p : Nat) : Bool := (sb.pageAt p).any fun q => (x.block q.1 q.2.1).marked

/-- The first byte at which size bytes fit without a page whose block is marked for retirement, which receives no further program (R119). -/
def Slice.fitFrom (x : Slice) (d : MediaDesc) (sb : Superblock) (size : Nat) : (fuel start : Nat) → Nat
  | 0, start => start
  | fuel + 1, start =>
    let b := sb.pageBytes d
    let first := start / b
    match (List.range ((start + size - 1) / b + 1 - first)).find? fun k => x.markedAt sb (first + k) with
    | none => start
    | some k => x.fitFrom d sb size fuel ((first + k + 1) * b)

/-- Where size bytes would go in a superblock from a byte of its data sequence on, if it can take them: it is erased, and they fit before its
end (R105). -/
def Slice.takes (x : Slice) (d : MediaDesc) (sb : Superblock) (size low : Nat) : Option Nat :=
  let at_ := x.fitFrom d sb size 64 (max sb.fill low)
  if x.erased sb.seq && decide (0 < sb.pageBytes d) && decide (at_ + size ≤ sb.cap d) then some at_ else none

/-- The stripes of a superblock whose pages have all been given to the flash. -/
def Superblock.doneStripes (sb : Superblock) : List Stripe :=
  (List.range sb.due).filterMap fun p => (sb.stripe p).filter fun k => k.first + k.count == p + 1

/-- The parity page of a stripe: into a block of the parity allowance, or where it is full into a further block, on the LUN that the stripe names;
its pSLC pages are queued (R114, R155, R417; log entry 30). -/
def State.parityPage (s : State) (n : Nat) (d : MediaDesc) (sb : Superblock) (k : Stripe) : State :=
  let x := s.slice n
  let lun := lunAt sb.group k.pos
  let per := d.cwPerPage .pslc sb.rate
  let count := if per = 0 then 0 else (d.cwPerPage sb.mode sb.rate + per - 1) / per
  let fits (r : ResBlock) : Bool := r.lun == lun && r.use == .parity && r.ready && decide (r.fill + count ≤ d.pagesPerBlock) &&
    !(x.block r.lun r.block).marked
  let s := if (x.reserve.any fits) || (x.leastWorn d lun).isNone then s
    else
      let t := s.modSlice n fun x => x.keepBack d lun .parity true
      match (t.slice n).reserve.getLast? with
      | some r => t.queueErase n r.lun r.block .pslc sb.rate .reserve
      | none => t
  match (s.slice n).reserve.find? fits with
  | none => s
  | some r =>
    let s := s.modSlice n fun x =>
      { (x.modReserve lun r.block fun r => { r with fill := r.fill + count }) with
        parity := x.parity ++ [{ sb := sb.seq, seg := k.seg, k := k.k, lun := lun, block := r.block, page := r.fill, count := count }] }
    (List.range count).foldl (fun s i => s.queueProgram n d lun r.block (r.fill + i) .pslc sb.rate (.parity sb.seq k.seg k.k) none) s

/-- Every complete stripe that has no parity page yet gets one (R114). -/
def State.parityDue (s : State) (n : Nat) (d : MediaDesc) (seq : Nat) : State :=
  match (s.slice n).super seq with
  | none => s
  | some sb =>
    sb.doneStripes.foldl (fun s k =>
      if (s.slice n).parity.any fun p => p.sb == seq && p.seg == k.seg && p.k == k.k then s else s.parityPage n d sb k) s

/-- The pages of a superblock up to one are given to the flash; a page whose block is marked receives no program (R105, R112, R119). -/
def State.issue (s : State) (n : Nat) (d : MediaDesc) (seq upto : Nat) (user : Option Nat) : State :=
  match (s.slice n).super seq with
  | none => s
  | some sb =>
    let ps := (List.range (min upto sb.numPages - sb.due)).map fun k => sb.due + k
    let live := ps.filter fun p => !(s.slice n).markedAt sb p
    let s := s.modSlice n fun x => x.modSuper seq fun b => { b with due := max b.due (min upto sb.numPages), waiting := b.waiting ++ live }
    let s := live.foldl (fun s p =>
      match sb.pageAt p with
      | none => s
      | some q => s.queueProgram n d q.1 q.2.1 q.2.2 sb.mode sb.rate (.page seq p) user) s
    s.parityDue n d seq

/-- Host bytes and programmed bytes of a pool counted for its write amplification (R83, R112, R139). -/
def Slice.countWa (x : Slice) (p : Pool) (host prog : Nat) : Slice :=
  let old := ((x.waNow.find? fun q => q.1 == p).map (·.2)).getD (0, 0)
  { x with waNow := x.waNow.filter (fun q => q.1 != p) ++ [(p, old.1 + host, old.2 + prog)] }

/-- Grout up to a byte of the data sequence: recorded with its place and counted as written (R112). -/
def State.groutTo (s : State) (n seq stop : Nat) : State :=
  s.modSlice n fun x =>
    match x.super seq with
    | none => x
    | some sb =>
      if stop ≤ sb.fill then x
      else (x.modSuper seq fun b => { b with fill := stop, grouts := b.grouts ++ [(b.fill, stop - b.fill)] }).countWa sb.pool 0 (stop - sb.fill)

/-- The flash page that is being packed completed with grout and given to the flash (R112). -/
def State.groutPage (s : State) (n : Nat) (d : MediaDesc) (seq : Nat) (user : Option Nat) : State :=
  match (s.slice n).super seq with
  | none => s
  | some sb =>
    let stop := min (sb.cap d) (roundUp sb.fill (max 1 (sb.pageBytes d)))
    (s.groutTo n seq stop).issue n d seq (stop / max 1 (sb.pageBytes d)) user

/-- A superblock completed with grout to its last page (R105, R112). -/
def State.finishSuper (s : State) (n : Nat) (d : MediaDesc) (seq : Nat) : State :=
  match (s.slice n).super seq with
  | none => s
  | some sb => (s.groutTo n seq (sb.cap d)).issue n d seq sb.numPages none

/-- Bytes packed at a place of a superblock, the pages that they fill given to the flash; filledAt is when the page that is being packed got its
first unit (R104, R105, R111, R112). -/
def State.pack (s : State) (n : Nat) (d : MediaDesc) (seq start size : Nat) (user : Option Nat) : State :=
  match (s.slice n).super seq with
  | none => s
  | some sb =>
    let bytes := max 1 (sb.pageBytes d)
    let same := start % bytes != 0 && (start + size) / bytes == start / bytes
    let s := (s.groutTo n seq start).modSlice n fun x =>
      (x.modSuper seq fun b => { b with fill := start + size, filledAt := if same then b.filledAt else s.now }).countWa sb.pool 0 size
    s.issue n d seq ((start + size) / bytes) user

/-- The first byte of the row after the last lost page of a superblock (R119). -/
def Superblock.afterLost (sb : Superblock) (d : MediaDesc) : Nat :=
  match (sb.lost.foldl max 0 : Nat), sb.lost with
  | _, [] => 0
  | p, _ => rowStart sb.rows sb.sets (((pageIn sb.rows sb.sets p).map Prod.fst).getD 0 + 1) * sb.pageBytes d

/-- The superblock of a pool, profile and region that takes size bytes, and the place there. One that has no room left is completed with
grout; a new one is opened where none is open and a group can serve (R105, R118). A group that has been tried takes data again only where that is
asked for, in a row after the one that failed (R119; log entry 33). -/
def State.targetSuper (s : State) (n : Nat) (d : MediaDesc) (p : Pool) (m : CellMode) (rate region size : Nat) (gc : Bool) (tried : List Nat)
    (again : Bool) : State × Option (Nat × Nat) :=
  match (s.slice n).openSuper p m rate region gc with
  | some sb =>
    let was := tried.contains sb.group
    if was && !again then (s, none)
    else
      match (s.slice n).takes d sb size (if was then sb.afterLost d else 0) with
      | some start => (s, some (sb.seq, start))
      | none => if (s.slice n).erased sb.seq then (s.finishSuper n d sb.seq, none) else (s, none)
  | none =>
    match s.chooseGroup n d p region with
    | none => (s, none)
    | some g => (s.allocSuper n g d p m rate gc, none)

/-- The pages of the data sequence that some bytes touch. -/
def Superblock.span (sb : Superblock) (d : MediaDesc) (start size : Nat) : List Nat :=
  let b := max 1 (sb.pageBytes d)
  let first := start / b
  (List.range ((start + size - 1) / b + 1 - first)).map fun k => first + k

/-- Is every page that some bytes touch programmed and confirmed? -/
def Superblock.written (sb : Superblock) (d : MediaDesc) (start size : Nat) : Bool :=
  (sb.span d start size).all fun p => decide (p < sb.due) && !sb.waiting.contains p && !sb.lost.contains p

/-- The pages of the data sequence that a unit touches (R104, R111). -/
def StoredUnit.pageIxs (u : StoredUnit) (d : MediaDesc) (sb : Superblock) : List Nat := sb.span d u.start (unitBytes u.slen)

/-- The LUN and block of every flash page that a unit touches (R104, R111). -/
def StoredUnit.pages (u : StoredUnit) (d : MediaDesc) (sb : Superblock) : List (Nat × Nat) :=
  (u.pageIxs d sb).filterMap fun p => (sb.pageAt p).map fun q => (q.1, q.2.1)

/-- Codewords of a unit that lie in a page of the data sequence. -/
def StoredUnit.cwsIn (u : StoredUnit) (d : MediaDesc) (sb : Superblock) (p : Nat) : Nat :=
  let pp := d.cwPerPage sb.mode sb.rate
  min ((u.start + unitBytes u.slen - 1) / 4096 + 1) ((p + 1) * pp) - max (u.start / 4096) (p * pp)

/-- Does a unit touch a LUN? -/
def State.touches (s : State) (n : Nat) (u : StoredUnit) (lun : Nat) : Bool :=
  match s.desc n, (s.slice n).super u.sb with
  | some d, some sb => (u.pages d sb).any fun q => q.1 == lun
  | _, _ => u.lun == lun

/-- The units of slice n that touch a block. -/
def State.unitsOn (s : State) (n lun block : Nat) : List StoredUnit :=
  match s.desc n with
  | none => []
  | some d => (s.slice n).units.filter fun u =>
      ((s.slice n).super u.sb).any fun sb => (u.pages d sb).contains (lun, block)

/-- The units of slice n that touch a page of a superblock. -/
def State.unitsAt (s : State) (n seq p : Nat) : List StoredUnit :=
  match s.desc n, (s.slice n).super seq with
  | some d, some sb => (s.slice n).units.filter fun u => u.sb == seq && (u.pageIxs d sb).contains p
  | _, _ => []

/-! ### Lost pages (R114, R115) -/

/-- Is a page lost: its data cannot be read, or its LUN has failed? -/
def Slice.pageLost (x : Slice) (sb : Superblock) (p : Nat) : Bool :=
  sb.lost.contains p || (sb.pageAt p).any fun q => (x.lun q.1).any fun l => l.health == .failed

/-- Are the pages of a superblock under parity: it is neither VERIFIED nor a victim (R115 to R117)? -/
def Superblock.underParity (sb : Superblock) : Bool :=
  sb.parityHeld && !(sb.state == .verified) && !(sb.state == .victim)

/-- Can a lost page be rebuilt: no other page of its stripe is lost, and the stripe's parity page, once written, is on a LUN that has not failed
(R115)? -/
def Slice.rebuildable (x : Slice) (sb : Superblock) (p : Nat) : Bool :=
  sb.underParity &&
    match sb.stripe p with
    | none => false
    | some k =>
      ((List.range k.count).all fun i => k.first + i == p || !x.pageLost sb (k.first + i)) &&
        !(x.parity.any fun q => q.sb == sb.seq && q.seg == k.seg && q.k == k.k && (x.lun q.lun).any fun l => l.health == .failed)

/-! ### Mapping -/

/-- The entry of an index: UNMAPPED where nothing is listed (R101). -/
def Slice.entry (x : Slice) (i : Nat) : Entry := (mapGet x.map i).getD .unmapped

/-- An entry set. -/
def Slice.setEntry (x : Slice) (i : Nat) (e : Entry) : Slice := { x with map := mapPut x.map .unmapped i e }

/-- A switch: recorded in the delta journal, then made (R110). -/
def Slice.switch (x : Slice) (i : Nat) (e : Entry) : Slice :=
  { (x.setEntry i e) with journal := x.journal ++ [.switch i e] }

/-- The index entries that satisfy p become FREE, each recorded in the delta journal first (R256). -/
def Slice.freeIndex (x : Slice) (p : IndexEntry → Bool) : Slice :=
  { x with
    journal := x.journal ++ (x.index.filter fun q => p q.2).map (fun q => .indexEntry q.1 none),
    index := x.index.filter fun q => !p q.2 }

/-- The segment of 1,024 entries that an index lies in (R130). -/
def segOf (i : Nat) : Nat := i / 1024

/-- The entry that names a unit's place. -/
def StoredUnit.entry (u : StoredUnit) : Entry := .flash u.lun u.cw u.offset u.span (u.format == 0)

/-- The table index of a unit of a namespace (R100). -/
def State.indexOf (s : State) (n nsid lua : Nat) : Nat :=
  match s.ns nsid with
  | none => lua
  | some x => (((x.parts.find? fun p => p.slice == n).map NsPart.base).getD 0) + lua

/-- Is a stored unit current: the entry of its LUA, or the entry a version stands over, names it, and its key generation
is the slot's (R113)? -/
def State.unitValid (s : State) (n : Nat) (u : StoredUnit) : Bool :=
  let i := s.indexOf n u.nsid u.lua
  ((s.slice n).entry i == u.entry || (s.slice n).versions.any fun v => v.index == i && !v.dead && v.under == u.entry) &&
    ((s.keySlot u.keySlot).generation == u.keyGen || decide (4096 ≤ u.keySlot))

/-- The unit at a flash entry. -/
def Slice.unitAt (x : Slice) (e : Entry) : Option StoredUnit := x.units.find? fun u => u.entry == e

/-! ### The write buffer -/

/-- Bytes of buffered versions of slice n (R127). -/
def State.wbUsed (s : State) (n : Nat) : Nat := (s.slice n).versions.length * s.mu n * 4096

/-- FT_WB.USABLE in MiB: the smaller of SIZE and the erased landing capacity less delta_max and 32 MiB (R127). -/
def State.wbUsable (s : State) (n : Nat) : Nat :=
  min (s.fld (Adr.ftWb n) 15 0) (s.landReady n - 48)

/-- The newest version of an index (R106). -/
def Slice.newest (x : Slice) (i : Nat) : Option Version := (x.versions.filter fun v => v.index == i && !v.dead).getLast?

/-- The version in a slot. -/
def Slice.version (x : Slice) (w : Nat) : Option Version := recGet Version.wslot x.versions w

/-- Changes the version in a slot. -/
def Slice.modVersion (x : Slice) (w : Nat) (f : Version → Version) : Slice :=
  { x with versions := recMod Version.wslot x.versions w f }

/-- Is the version still OPEN (R106)? -/
def Version.isOpen (v : Version) : Bool := v.state == .wopen

/-- The DRAM bursts of a block of a write-buffer slot, in either copy. -/
def slotBursts (w b : Nat) : List Nat := (List.range 64).map fun k => (Config.slotBase w + 4096 * b) / 64 + k

/-- Is a block's copy in a DRAM channel uncorrectable: the channel is fenced or a burst of the block is poisoned (R109, R298)? -/
def State.copyBad (s : State) (n c w b : Nat) : Bool :=
  (s.fenceOf (UnitId.dramCh n c)).isSome ||
    (((((s.slice n).drams[c]?).map Dram.poisoned).getD []).any fun k => (slotBursts w b).contains k)

/-- The blocks of a version of which every copy is uncorrectable: both, or the only one (R109, R291, R298). -/
def State.badBlocks (s : State) (n : Nat) (v : Version) : List Nat :=
  (v.blocks.map Prod.fst).filter fun b => v.chans.all fun c => s.copyBad n c v.wslot b

/-- A block of a slot written whole: its bursts are no longer poisoned (R299). -/
def Slice.cleanBlock (x : Slice) (w b : Nat) : Slice :=
  { x with drams := x.drams.map fun d => { d with poisoned := d.poisoned.filter fun k => !(slotBursts w b).contains k } }

/-- A version with nothing in it, OPEN, over an entry; its copies lie in some channels. -/
def newVersion (w nsid lua i writer now : Nat) (under : Entry) (chans : List Nat) : Version :=
  { wslot := w, nsid := nsid, lua := lua, index := i, blocks := [], lostMap := 0, acked := [], ackAt := none, writer := writer,
    openedAt := now, state := .wopen, through := false, trigger := false, restored := false, attempts := 0, tried := [], grout := false,
    dead := false, region := 0, sb := 0, start := 0, under := under, wseq := 0, keySlot := 0, keyGen := 0, comp := false, slen := 0, objRec := false,
    chans := chans }

/-- A block put into the buffer: into the OPEN version of its unit, or into a new version seeded from a STREAMING one
(R106). Answers the slot. -/
def State.bufferBlock (s : State) (n nsid lua i b : Nat) (d : Block) (writer : Nat) : Nat × State :=
  let x := s.slice n
  let chans := s.copyChans n writer
  let put (v : Version) : Version :=
    { v with blocks := mapInsert v.blocks b d, lostMap := v.lostMap &&& ((2 ^ 16 - 1) ^^^ (1 <<< b)), writer := writer }
  let fresh (v : Version) : Nat × State :=
    (v.wslot, (s.modSlice n fun x =>
      ({ (x.setEntry i (.buffer v.wslot)) with versions := x.versions ++ [put v], nextWslot := x.nextWslot + 1 }).cleanBlock v.wslot b).dramCopies
        n v.wslot b writer v.chans)
  match x.newest i with
  | some v =>
    if v.isOpen then
      (v.wslot, (s.modSlice n fun x => (x.modVersion v.wslot put).cleanBlock v.wslot b).dramCopies n v.wslot b writer v.chans)
    else fresh { newVersion x.nextWslot nsid lua i writer s.now v.under chans with
                  blocks := v.blocks, lostMap := v.lostMap, keySlot := v.keySlot, keyGen := v.keyGen, objRec := v.objRec }
  | none => fresh (newVersion x.nextWslot nsid lua i writer s.now (x.entry i) chans)

/-- Plaintext length of the object record whose unit lies at an index, if one does (R257). -/
def Slice.recordLen (x : Slice) (i : Nat) : Option Nat :=
  (x.objects.find? fun o => o.2.recordLua == i).map fun o =>
    if o.2.value.length ≤ 4096 then 128 + o.2.value.length else 128 + 8 * (runs (o.2.luas)).length

/-- The LUAs of an object version UNMAPPED and the version gone: buffered parts of it with it (R259). -/
def Slice.dropRecord (x : Slice) (id : Nat) : Slice :=
  match mapGet x.objects id with
  | none => x
  | some o =>
    let ls := o.recordLua :: o.luas
    let x := ls.foldl (fun x i => x.switch i .unmapped) x
    { x with versions := x.versions.filter (fun (v : Version) => !(ls.contains v.index)), objects := mapErase x.objects id }

/-- A version leaves the buffer; where the entry names it, the entry becomes e, and so does what versions seeded from it stand over
(R106, R110). -/
def Slice.dropVersion (x : Slice) (w : Nat) (e : Entry) : Slice :=
  match x.version w with
  | none => x
  | some v =>
    let y := { x with versions := recErase Version.wslot x.versions w }
    let seeded (z : Version) : Bool := !v.dead && z.index == v.index && decide (w < z.wslot) && z.under == v.under
    let y := { y with versions := y.versions.map fun z => if seeded z then { z with under := e } else z }
    if x.entry v.index = .buffer w then y.switch v.index e else y

/-- A unit deallocated or zeroed: its OPEN version is cancelled, a STREAMING one no longer counts, and the entry becomes e (R134).
Answers the slots that are gone. -/
def State.supersede (s : State) (n i : Nat) (e : Entry) : List Nat × State :=
  let gone := ((s.slice n).versions.filter fun v => v.index == i && v.isOpen).map Version.wslot
  (gone, s.modSlice n fun x =>
    let kill (v : Version) : Version := if v.index = i then { v with dead := true, acked := [] } else v
    let left := (x.versions.filter fun (v : Version) => !(v.index == i && v.isOpen)).map kill
    Slice.switch { x with versions := left } i e)

/-! ### Reading -/

/-- What one block reads as. -/
inductive BlockRead where
  | ok (b : Block)
  | fail (st : Status)
  deriving DecidableEq, Repr

/-- Can the slice decompress a stored unit: an ACTIVE decompressor, or core decoding (R205)? -/
def State.decompPath (s : State) (n : Nat) : Bool :=
  (List.range 4).any (fun e => s.active (UnitId.pair n e)) || s.bit (Adr.czCfg n) 0

/-- Does a unit lie on a lost page that cannot be rebuilt (R115)? -/
def State.unitGone (s : State) (n : Nat) (u : StoredUnit) : Bool :=
  match s.desc n, (s.slice n).super u.sb with
  | some d, some sb => (u.pageIxs d sb).any fun p => (s.slice n).pageLost sb p && !(s.slice n).rebuildable sb p
  | _, _ => false

/-- One block of a stored unit (R102, R115, R158, R160, R167, R168, R381). -/
def State.readStored (s : State) (n : Nat) (u : StoredUnit) (b : Nat) : BlockRead :=
  if (s.slice n).luns.any fun l => l.withdrawn && s.touches n u l.lun then .fail stOffline
  else if (s.keySlot u.keySlot).generation ≠ u.keyGen ∨ (s.keySlot u.keySlot).state = .empty then .fail stUnrecovered
  else if !u.readable || !u.tagOk then .fail stUnrecovered
  else if u.lostMap.testBit b then .fail stUnrecovered
  else if s.unitGone n u then .fail stUnrecovered
  else if !s.cipherPath n then .fail stInternal
  else if u.format = 0 ∧ !s.decompPath n then .fail stInternal
  else .ok ((mapGet u.blocks b).getD 0)

/-- One block as a flash entry gives it (R101, R102). -/
def State.readEntry (s : State) (n : Nat) (e : Entry) (b : Nat) : BlockRead :=
  match e with
  | .unmapped => .ok 0
  | .zero => .ok 0
  | .buffer _ => .ok 0
  | .faulted => .fail stUnrecovered
  | .lost _ _ => .fail stUnrecovered
  | .flash lun cw off span comp =>
    match (s.slice n).unitAt (.flash lun cw off span comp) with
    | none => .fail stUnrecovered
    | some u => s.readStored n u b

/-- One block of a unit: from the buffer where a version holds it, else from flash (R13, R60). -/
def State.readBlock (s : State) (n i b : Nat) : BlockRead :=
  match (s.slice n).newest i with
  | some v =>
    match mapGet v.blocks b with
    | some d => if v.lostMap.testBit b then .fail stUnrecovered else .ok d
    | none => s.readEntry n v.under b
  | none => s.readEntry n ((s.slice n).entry i) b

/-- Does slice n serve a namespace: it is up, and where a Sealed instance's LUN sets are the namespace's media, not all LUNs of those in the slice
are withdrawn (R381, R384; log entry 56)? -/
def State.nsUp (s : State) (x : Namespace) (n : Nat) : Bool :=
  s.sliceUp n &&
    match x.pool with
    | .slice => true
    | .tenant ti =>
      let own := (s.slice n).luns.filter fun l => s.poolOf n (lunGroup l.lun) == .tenant ti
      !(s.isSealed ti && !own.isEmpty && own.all Lun.withdrawn)

/-- One logical block of a namespace: its slice, or a deferred-fault range, may refuse it (R63, R384). -/
def State.readLba (s : State) (x : Namespace) (lba : Nat) : BlockRead :=
  let r := x.route lba
  if !s.nsUp x r.1 then .fail stOffline
  else if s.faulted x.nsid lba then .fail stUnrecovered
  else s.readBlock r.1 (r.2.1 + r.2.2 / s.mu r.1) (r.2.2 % s.mu r.1)

/-- The refresh threshold of a mode, in reads (R124). -/
def State.readLimit (s : State) (n : Nat) (m : CellMode) : Nat :=
  1000 * (match m with
    | .pslc => s.fld (Adr.ftRefreshCfg n) 31 20
    | .tlc => s.fld (Adr.ftRefreshCfg n) 19 10
    | .qlc => s.fld (Adr.ftRefreshCfg n) 9 0)

/-! ### Reads counted, units to be relocated (R113, R124) -/

/-- Stored units put on the list of those to be relocated, by their places. -/
def Slice.relocate (x : Slice) (us : List StoredUnit) : Slice :=
  { x with relocs := x.relocs ++ (us.map StoredUnit.entry).filter fun e => !x.relocs.contains e }

/-- Reads of a block counted; at the threshold of its mode the units that touch it are relocated (R124). -/
def State.countReads (s : State) (n lun block k : Nat) : State :=
  let s := s.modSlice n fun x => x.modBlock lun block fun i => { i with reads := i.reads + k }
  match ((s.slice n).block lun block).mode with
  | none => s
  | some m =>
    if s.readLimit n m ≤ ((s.slice n).block lun block).reads then
      let us := s.unitsOn n lun block
      s.modSlice n fun x => x.relocate us
    else s

/-- The reads of a unit from flash: its pages, or, for a lost page, the other pages and the parity page of its stripe, as (page of the
superblock, codewords), and the parity pages (R115). -/
def State.unitReads (s : State) (n : Nat) (d : MediaDesc) (sb : Superblock) (u : StoredUnit) : List (Nat × Nat) :=
  (u.pageIxs d sb).flatMap fun p =>
    let c := u.cwsIn d sb p
    if (s.slice n).pageLost sb p then
      match sb.stripe p with
      | none => []
      | some k => ((List.range k.count).filter fun i => k.first + i != p).map fun i => (k.first + i, c)
    else [(p, c)]

/-- The reads of a unit counted on their blocks and queued for a purpose (R23, R124). -/
def State.senseUnit (s : State) (n : Nat) (u : StoredUnit) (why : FlFor) (user : Option Nat) : State :=
  match s.desc n, (s.slice n).super u.sb with
  | some d, some sb =>
    (s.unitReads n d sb u).foldl (fun s q =>
      match sb.pageAt q.1 with
      | none => s
      | some a => (s.countReads n a.1 a.2.1 1).queueRead n a.1 a.2.1 a.2.2 sb.mode sb.rate q.2 why user) s
  | _, _ => s

/-- A stored unit opened: decrypted by the cipher unit of its region, then decompressed by an engine, or on the cores, which CZ_SWDEC counts,
where no decompressor is ACTIVE (R167, R179, R181, R205). -/
def State.openUnit (s : State) (n : Nat) (u : StoredUnit) (owner : Nat) (why : EngFor) : State :=
  let r := lunRegion u.lun
  let a := s.cipherWork n r owner u.keySlot u.slen why
  let s := a.2
  if u.format ≠ 0 then s
  else
    match s.decompressor n r with
    | some e => (s.addWork n (engWork e r owner none why a.1 0 ((s.mu n * 4096 + 9) / 10) 0)).2
    | none => if s.bit (Adr.czCfg n) 0 then (s.inc (Adr.czSwdec n)).setBit (Adr.czEvt n) 3 else s

/-- A stored unit read for a command: the flash reads and the engine operations that the command waits for (R23, R124, R163, R168). -/
def State.countRead (s : State) (n : Nat) (u : StoredUnit) (h : Hdr) (user : Option Nat) : State :=
  let s := (s.openUnit n u (ctrlOwner h.ctrl) (.opening h)).senseUnit n u (.command h) user
  if (s.slice n).working (.command h) || (s.slice n).engaged (.opening h) then
    s.modIn h fun x => { x with conds := if x.conds.contains (.sensed n) then x.conds else x.conds ++ [.sensed n] }
  else s

/-- The pool user that a controller's work counts for in slice time: its Shared instance; none for physical function 0 and for Sealed instances,
which use no pool capacity (R31). -/
def State.ctrlUser (s : State) (c : Nat) : Option Nat :=
  if isPf c then none else if s.isSealed (ctrlOwner c) then none else some (ctrlOwner c)

/-! ### The table cache of a paged slice (R131) -/

/-- Segments of 1,024 entries that the table cache holds: 6 KiB each. -/
def State.cacheRoom (s : State) (n : Nat) : Nat := s.fld (Adr.ftMapcache n) 15 0 * 2 ^ 20 / 6144

/-- A lookup of an entry's segment while the table is demand-paged: a hit, or a miss that reads the segment's latest checkpoint copy for the
command that caused it (R131). -/
def State.pagedLookup (s : State) (n i : Nat) (h : Hdr) (user : Option Nat) : State :=
  if !s.bit (Adr.ftSts n) 6 then s
  else
    let g := segOf i
    let hit := (s.slice n).store.cache.contains g
    let room := s.cacheRoom n
    let s := s.modSlice n fun x =>
      { x with store := { x.store with
          cache := (g :: x.store.cache.filter (· != g)).take room, lookups := x.store.lookups + 1, hits := x.store.hits + bit01 hit } }
    if hit then s
    else
      match (s.slice n).store.supers.find? fun q => q.spans.any fun p => decide (p.2.1 ≤ g) && decide (g ≤ p.2.2) with
      | none => s
      | some q =>
        match q.blocks[g % max 1 q.blocks.length]? with
        | none => s
        | some b =>
          let s := s.queueRead n b.1 b.2 (g / max 1 q.blocks.length) .pslc 0 2 (.command h) user
          s.modIn h fun x => { x with conds := if x.conds.contains (.sensed n) then x.conds else x.conds ++ [.sensed n] }

end Sys2Proof.Machine
end

