-- ==== Sys2Proof/Machine/FlashOps.lean ====
section
/-!
DEFINITION. Shared operations of the flash channels: the windows of a course, who is served in them, the bus items and their order, the array
limit, suspends and polls (R23, R29 to R32, R149 to R151, R161 to R165). Times are counted in steps of 1/1152 ns, in which every duration of R162
is exact at every rate.
-/

namespace Sys2Proof.Machine

/-! ### Windows (R30, R161) -/

/-- A window of a course: its place (0 entry A, 1 entry B, 2 the pool), the kind and owner of its entry, and its ends. -/
structure FlWindow where
  ix : Nat
  kind : Nat
  owner : Nat
  start : Nat
  stop : Nat
  deriving DecidableEq, Repr

/-- Steps in a course of 3.9 µs. -/
def courseSteps : Nat := 4492800

/-- The windows of a cell in a course of some steps, of which a nominal course has full: A, then B, then the pool up to the boundary (R30, R161);
of each, what some withheld sixty-fourths take stays idle at its end (R342). Kind 0 is the pool. -/
def cellWindows (w : Word) (full len out : Nat) : List FlWindow :=
  let ea := entShare (entryA w)
  let eb := entShare (entryB w)
  let k := withhold w ea eb (64 - ea - eb) out
  let a := min len (ea * full / 64)
  let b := min len (a + eb * full / 64)
  [⟨0, entKind (entryA w), entOwner (entryA w), 0, min a (k.1 * full / 64)⟩,
   ⟨1, entKind (entryB w), entOwner (entryB w), a, min b (a + k.2.1 * full / 64)⟩,
   ⟨2, 0, 0, b, len - (64 - ea - eb - k.2.2) * full / 64⟩].filter fun q => decide (q.start < q.stop)

/-- The Sealed instance whose LUN set holds a LUN (R81, R161). -/
def State.lunOwner (s : State) (n lun : Nat) : Option Nat :=
  match s.poolOf n (lunGroup lun) with
  | .slice => none
  | .tenant ti => if s.isSealed ti then some ti else none

/-- Is a LUN served in a window: a Sealed instance's LUN in its SLOT windows, a pool LUN in the pool, DEVICE and TEST windows (R161)? -/
def State.lunServed (s : State) (n lun : Nat) (w : FlWindow) : Bool :=
  match s.lunOwner n lun with
  | some ti => w.kind == 1 && w.owner == ti
  | none => w.kind != 1

/-! ### Bus items (R162) -/

/-- Eighths by which durations grow at a trained rate: 1,600, 2,400, 3,200 and 3,600 MT/s (R162). -/
def rateScale (code : Nat) : Nat := if code = 0 then 18 else if code = 1 then 12 else if code = 2 then 9 else 8

/-- Steps of some ns at a scale. -/
def busSteps (ns scale : Nat) : Nat := ns * 144 * scale

/-- Steps of a data burst of 64 bytes, 160/9 ns, at a scale. -/
def burstSteps (scale : Nat) : Nat := 2560 * scale

/-- A bus item of an operation. -/
inductive BusItem where
  | poll | readCmd | programCmd | confirm | eraseCmd | suspend | resume | data
  deriving DecidableEq, Repr

/-- What the controller of a channel sees while it fills a window: the slice's settings and the time. -/
structure BusCtx where
  course : Nat
  scale : Nat
  maxArray : Nat
  suspendOn : Bool
  maxSuspend : Nat
  deriving DecidableEq, Repr

/-- Is the operation's array busy, or suspended? -/
def FlWork.inArray (w : FlWork) : Bool := w.stage == .busy || w.stage == .suspended

/-- Programs and erases whose arrays are at work, or that are being given to them (R150). -/
def arraysBusy (l : List FlWork) : Nat := (l.filter fun w => w.op != .read && (w.inArray || w.stage == .input)).length

/-- Does an operation hold its LUN for others? -/
def FlWork.holds (w : FlWork) : Bool :=
  match w.stage with
  | .queued => false
  | .ended _ => false
  | _ => true

/-- Does a program directly follow another on its LUN: the next row of the same block (cache program, R149)? -/
def FlWork.follows (w v : FlWork) : Bool := v.lun == w.lun && v.block == w.block && w.row == v.row + 1 && v.op == w.op

/-- May a read's command be given: its LUN is free, or does a read of the page before and is past its sense (cache read, R149, R150)? -/
def readMay (l : List FlWork) (w : FlWork) : Bool :=
  let others := l.filter fun v => v.lun == w.lun && v.id != w.id && v.holds && v.stage != .suspended
  others.all fun v => w.follows v && v.stage == .output && others.length == 1

/-- Is every older program and erase of the LUN done, but for one that a cache program may follow (R149)? -/
def inTurn (l : List FlWork) (w : FlWork) : Bool :=
  l.all fun v => v.lun != w.lun || v.op == .read || decide (w.id ≤ v.id) || (w.op == .program && w.follows v && v.inArray)

/-- May a program's or an erase's command be given: in turn, within MAX_ARRAY, its LUN free but for a program that it follows (R149, R150)? -/
def arrayMay (c : BusCtx) (l : List FlWork) (w : FlWork) : Bool :=
  inTurn l w && decide (arraysBusy l < c.maxArray) &&
    (l.all fun v => v.lun != w.lun || v.id == w.id || !v.holds || (w.op == .program && w.follows v && v.stage == .busy))

/-- May the confirm of a program be given: its data are in, and its LUN's array is free? -/
def confirmMay (l : List FlWork) (w : FlWork) : Bool :=
  w.stage == .input && w.left == 0 && l.all fun v => v.lun != w.lun || v.id == w.id || !v.inArray

/-- Does a read wait for its LUN? -/
def readWaits (l : List FlWork) (lun : Nat) : Bool := l.any fun v => v.lun == lun && v.op == .read && v.stage == .queued

/-- Is a read at work on a LUN? -/
def readAtWork (l : List FlWork) (lun : Nat) : Bool := l.any fun v => v.lun == lun && v.op == .read && v.holds

/-- May a busy program or erase be suspended: a read waits for its LUN, and it has suspends left (R151)? -/
def suspendMay (c : BusCtx) (l : List FlWork) (w : FlWork) : Bool :=
  c.suspendOn && w.op != .read && w.stage == .busy && decide (w.suspends < c.maxSuspend) && readWaits l w.lun

/-- May a suspended operation resume: the read that it waits for has ended (R151)? -/
def resumeMay (l : List FlWork) (w : FlWork) : Bool :=
  w.stage == .suspended && !readAtWork l w.lun && !readWaits l w.lun

/-- Is there data of the operation to transfer? -/
def FlWork.hasData (w : FlWork) : Bool := (w.stage == .output || w.stage == .input) && decide (0 < w.left)

/-- The class of R163 in which an operation has an item in a window, and that item: polls, the paused transfer of the window, read commands,
other data, then program, erase, suspend and resume commands. -/
def itemOf (c : BusCtx) (win : Nat) (l : List FlWork) (w : FlWork) : Option (Nat × BusItem) :=
  if w.stage = .busy ∧ w.polled.isSome ∧ w.pollAt ≤ c.course then some (0, .poll)
  else if w.hasData ∧ w.pausedIn = some win then some (1, .data)
  else if w.op = .read ∧ w.stage = .queued ∧ readMay l w ∧ w.since < c.course then some (2, .readCmd)
  else if w.hasData then some (3, .data)
  else if confirmMay l w then some (4, .confirm)
  else if w.op = .program ∧ w.stage = .queued ∧ arrayMay c l w ∧ w.since < c.course then some (4, .programCmd)
  else if w.op = .erase ∧ w.stage = .queued ∧ arrayMay c l w ∧ w.since < c.course then some (4, .eraseCmd)
  else if suspendMay c l w then some (4, .suspend)
  else if resumeMay l w then some (4, .resume)
  else none

/-- Does a transfer of data begin with a resume item: every data output, and a data input that paused (R162)? -/
def FlWork.resumes (w : FlWork) : Bool := w.stage == .output || w.pausedIn.isSome

/-- The least steps that an item needs in one window: a data transfer at least its resume item and one burst, a program command its first burst too
(R162). -/
def itemSteps (scale : Nat) (w : FlWork) : BusItem → Nat
  | .poll => busSteps 80 scale
  | .readCmd => busSteps 120 scale
  | .programCmd => busSteps 100 scale + burstSteps scale
  | .confirm => busSteps 40 scale
  | .eraseCmd => busSteps 90 scale
  | .suspend => busSteps 60 scale
  | .resume => busSteps 60 scale
  | .data => (if w.resumes then busSteps 60 scale else 0) + burstSteps scale

/-- The course of the first poll: the first at or after the nominal time's end (R164). -/
def firstPoll (at_ : Nat) : Nat := (at_ + courseSteps - 1) / courseSteps

/-- The array of an operation becomes busy at a time, for a nominal time in ns. -/
def FlWork.toArray (w : FlWork) (now nominal : Nat) : FlWork :=
  { w with stage := .busy, pausedIn := none, busyAt := now, pollAt := firstPoll (now + nominal * 1152), polled := none }

/-- What a poll's report does: busy is polled again 4 courses later; a read that is ready can give its data; a program or an erase has ended
(R164). -/
def FlWork.takePoll (w : FlWork) (course : Nat) : FlWork :=
  match w.polled with
  | none => w
  | some .busy => { w with pollAt := course + 4, polled := none }
  | some r =>
    if w.op = .read then { w with stage := .output, polled := none }
    else { w with stage := .ended (r == .ready), polled := none }

/-- Bursts moved from a time on, up to the window's end; a transfer that is cut pauses (R162). Answers the operation and the time. -/
def FlWork.move (w : FlWork) (scale win stop t : Nat) : FlWork × Nat :=
  let k := min w.left ((stop - t) / burstSteps scale)
  ({ w with left := w.left - k, pausedIn := if k < w.left then some win else none }, t + k * burstSteps scale)

/-- An item carried out at a time within a window that ends at stop: the operation after it, and the time. base is the course's first step. -/
def doItem (d : MediaDesc) (c : BusCtx) (base win stop t : Nat) (w : FlWork) : BusItem → FlWork × Nat
  | .poll => (w.takePoll c.course, t + busSteps 80 c.scale)
  | .readCmd =>
    let t := t + busSteps 120 c.scale
    (w.toArray (base + t) (d.nominal .read w.mode), t)
  | .programCmd => ({ w with stage := .input } : FlWork).move c.scale win stop (t + busSteps 100 c.scale)
  | .confirm =>
    let t := t + busSteps 40 c.scale
    (w.toArray (base + t) (d.nominal .program w.mode), t)
  | .eraseCmd =>
    let t := t + busSteps 90 c.scale
    (w.toArray (base + t) (d.nominal .erase w.mode), t)
  | .suspend => ({ w with stage := .suspended, suspends := w.suspends + 1 }, t + busSteps 60 c.scale)
  | .resume =>
    let t := t + busSteps 60 c.scale
    (w.toArray (base + t) (d.nominal w.op w.mode), t)
  | .data => w.move c.scale win stop (if w.resumes then t + busSteps 60 c.scale else t)

/-! ### One window of a channel (R31, R163) -/

/-- A channel while a window is filled: its operations, the time, and what each pool user has taken. -/
structure ChanRun where
  works : List FlWork
  time : Nat
  used : List (Option Nat × Nat)
  deriving DecidableEq, Repr

/-- Time that a pool user has taken. -/
def ChanRun.usedBy (r : ChanRun) (u : Option Nat) : Nat := ((r.used.find? fun q => q.1 == u).map (·.2)).getD 0

/-- Does one candidate come before another: by class, then by age (R163)? -/
def itemBefore (a b : FlWork × Nat × BusItem) : Bool := decide (a.2.1 < b.2.1) || (a.2.1 == b.2.1 && decide (a.1.id < b.1.id))

/-- The first of some candidates in the order of R163. -/
def firstItem (l : List (FlWork × Nat × BusItem)) : Option (FlWork × Nat × BusItem) :=
  l.foldl (fun best q =>
    match best with
    | none => some q
    | some b => if itemBefore q b then some q else some b) none

/-- The pool user that is served next: users of positive weight first, the one that has taken least for its weight; the device first of all in a
DEVICE window (R29, R31). -/
def nextUser (weight usedBy : Option Nat → Nat) (device : Bool) (us : List (Option Nat)) : Option (Option Nat) :=
  if device && us.contains none then some none
  else
    let heavy := us.filter fun u => decide (0 < weight u)
    let among := if heavy = [] then us else heavy
    let w (u : Option Nat) : Nat := max 1 (weight u)
    among.foldl (fun best u =>
      match best with
      | none => some u
      | some b => if usedBy u * w b < usedBy b * w u then some u else some b) none

/-- The next item of a window that fits before its end: in a SLOT window the owner's first, else the first of the pool user whose turn it is (R31,
R162, R163; log entry 32). -/
def ChanRun.pick (r : ChanRun) (c : BusCtx) (w : FlWindow) (weight : Option Nat → Nat) (serves : FlWork → Bool) :
    Option (FlWork × Nat × BusItem) :=
  let cand := (r.works.filter serves).filterMap fun v => (itemOf c w.ix r.works v).map fun q => (v, q.1, q.2)
  let fit := cand.filter fun q => decide (r.time + itemSteps c.scale q.1 q.2.2 ≤ w.stop)
  if w.kind = 1 then firstItem fit
  else
    match nextUser weight r.usedBy (w.kind == 2) ((fit.map fun q => q.1.user).eraseDups) with
    | none => none
    | some u => firstItem (fit.filter fun q => q.1.user == u)

/-- One item of a window; nothing where none fits. -/
def ChanRun.turn (r : ChanRun) (d : MediaDesc) (c : BusCtx) (base : Nat) (w : FlWindow) (weight : Option Nat → Nat) (serves : FlWork → Bool) :
    ChanRun :=
  match r.pick c w weight serves with
  | none => r
  | some q =>
    let a := doItem d c base w.ix w.stop r.time q.1 q.2.2
    { works := r.works.map fun v => if v.id = q.1.id then a.1 else v, time := a.2,
      used := r.used.filter (fun p => p.1 != q.1.user) ++ [(q.1.user, r.usedBy q.1.user + (a.2 - r.time))] }

/-- A window filled: items as long as one fits; no window holds 256 items. -/
def ChanRun.fill (r : ChanRun) (d : MediaDesc) (c : BusCtx) (base : Nat) (w : FlWindow) (weight : Option Nat → Nat) (serves : FlWork → Bool) :
    ChanRun :=
  (List.range 256).foldl (fun r _ => r.turn d c base w weight serves) { r with time := w.start }

/-! ### A course of a channel (R23, R161) -/

/-- The flash-channel weight of a pool user: WF of its instance, the active CK_DEVWGT for the device (R31). -/
def State.flashWeight (s : State) (u : Option Nat) : Nat :=
  match u with
  | none => bits s.course.devwgt 7 0
  | some ti => s.fld (Adr.ckWeightActive ti) 7 0

/-- The trained rate code of a channel. -/
def Slice.rateOf (x : Slice) (ch : Nat) : Nat := (mapGet x.flash.rates ch).getD 3

/-- What the controllers of a slice see in the course that ends. -/
def State.busCtx (s : State) (n ch : Nat) : BusCtx :=
  { course := s.now, scale := rateScale ((s.slice n).rateOf ch),
    maxArray := if 4 ≤ s.fld Adr.pwSts 2 0 then max 1 (s.fld Adr.pwHuFcfg 2 0) else max 1 (min 32 (s.fld (Adr.flCfg n) 5 0)),
    suspendOn := s.bit (Adr.flCfg n) 19, maxSuspend := s.fld (Adr.flCfg n) 18 16 }

/-- Does a channel carry bus items: READY, and in service (R146, R377)? -/
def State.channelServes (s : State) (n ch : Nat) : Bool :=
  s.fld (Adr.flChSts n ch) 2 0 == 3 && s.active (UnitId.flashCh n ch)

/-- The windows of a channel in the course that ends, filled in their order (R161 to R163). -/
def State.channelCourse (s : State) (n ch : Nat) : State :=
  match s.desc n with
  | none => s
  | some d =>
    if !s.channelServes n ch then s
    else
      let c := s.busCtx n ch
      let ws := cellWindows (s.cell s.bondCourse (bondRow (2 * n + ch / 4) 0)) courseSteps (s.courseLen * 720) (s.withheld n)
      let r := ws.foldl (fun (r : ChanRun) w =>
        r.fill d c (s.now * courseSteps) w s.flashWeight fun v => s.lunServed n v.lun w)
        { works := (s.slice n).flash.works.filter fun v => lunCh v.lun == ch, time := 0, used := [] }
      s.modSlice n fun x => { x with flash := { x.flash with
        works := x.flash.works.map fun v => (r.works.find? fun u => u.id == v.id).getD v } }

/-- The reads of a slice whose last burst has come. -/
def Slice.readsDone (x : Slice) : List FlWork := x.flash.works.filter fun w => w.op == .read && w.stage == .output && w.left == 0

/-- Some operations leave the queues. -/
def Slice.dropWorks (x : Slice) (p : FlWork → Bool) : Slice := { x with flash := { x.flash with works := x.flash.works.filter fun w => !p w } }

/-- A course of all channels of a slice: the reads that end leave the queues (R23, R163). -/
def State.flashCourse (s : State) (n : Nat) : State :=
  let s := (List.range 8).foldl (fun s ch => s.channelCourse n ch) s
  let done := (s.slice n).readsDone
  s.modSlice n fun x => x.dropWorks fun w => done.any fun v => v.id == w.id

/-- Commands whose pages have all come, and whose units are all open, wait for a slice no more (R163, R168). -/
def State.clearSensed (s : State) (n : Nat) : State :=
  s.mapInflight fun x =>
    if x.conds.contains (.sensed n) && !((s.slice n).working (.command x.hdr)) && !((s.slice n).engaged (.opening x.hdr)) then
      { x with conds := x.conds.filter (· != .sensed n) }
    else x

/-- The oldest operation of a LUN that satisfies p. -/
def Slice.workOn (x : Slice) (lun : Nat) (p : FlWork → Bool) : Option FlWork := x.flash.works.find? fun w => w.lun == lun && p w

/-- LUNs of a channel busy with a program or an erase, or with a read sense (FL_CH_BUSY). -/
def Slice.busyOn (x : Slice) (ch : Nat) (reads : Bool) : Nat :=
  ((x.flash.works.filter fun w => lunCh w.lun == ch && w.stage == .busy && (w.op == .read) == reads).map FlWork.lun).eraseDups.length

end Sys2Proof.Machine
end

