-- ==== Sys2Proof/Machine/PipeOps.lean ====
section
/-!
DEFINITION. Shared operations of the stream engines in a course: the positions of a region's stream-engine row, who is served in them, resident
contexts, save points, and what becomes of operations on a unit that is fenced (R29 to R32, R175, R176, R178, R180, R182, R189, R198, R205). Times are
stream cycles of 625 ps.
-/

namespace Sys2Proof.Machine

/-! ### Costs -/

/-- Contexts that a unit holds resident (R175, R180, R198). -/
def residentRoom (u : Nat) : Nat := if u < 2 then 16 else 4

/-- History bytes that a stream context loads: what the stream has passed, up to its ring and 128 KiB (R197, R198). -/
def Ctx.history (k : Ctx) : Nat := min (min k.strm.ringSize 131072) (if k.kind = 3 then k.outTotal else k.inTotal)

/-- Cycles to load a context that is not resident (R175, R198). -/
def State.loadCost (s : State) (n u : Nat) (ctx : Option Nat) : Nat :=
  if u ≤ 2 then 8
  else
    let h := ((ctx.bind fun ix => mapGet (s.slice n).contexts ix).map Ctx.history).getD 0
    64 + (h + 63) / 64

/-- Cycles of a block on the byte-serial unit: 14 rounds and 2 to 6 dummy rounds of 16 cycles each (R180). -/
def serialBlock (draw : Nat) : Nat := 16 * (14 + (2 + draw % 5))

/-- Blocks that a main pipe issues before another operation's turn comes, of the same user (R175; log entry 48). -/
def pipeTurn : Nat := 64

/-! ### One window of a unit (R176, R189) -/

/-- A unit while a window is filled: the slice's operations, its resident contexts, the time, what each pool user has taken, the values drawn from
its generator and the blocks since the last one of metadata. -/
structure UnitRun where
  works : List EngWork
  resident : List Nat
  time : Nat
  used : List (Option Nat × Nat)
  draws : Nat
  since : Nat
  deriving DecidableEq, Repr

/-- Time that a pool user has taken. -/
def UnitRun.usedBy (r : UnitRun) (u : Option Nat) : Nat := ((r.used.find? fun q => q.1 == u).map (·.2)).getD 0

/-- Does an operation wait for no other, and for no flash read? -/
def EngWork.mayRun (w : EngWork) (x : Slice) (l : List EngWork) : Bool :=
  decide (0 < w.load + w.left) && !(w.after.any fun k => l.any fun v => v.id == k) &&
    (match w.why with
     | .opening h => !x.working (.command h)
     | .fill k => !x.working (.fill k)
     | _ => true)

/-- Is an operation served in a window of a unit: a Sealed instance's in its own SLOT windows of its region, and where other engines carry its traffic
in their pool and DEVICE capacity; any other outside SLOT windows (R31, R32, R182, R205)? -/
def State.engServed (s : State) (u : Nat) (q : FlWindow) (w : EngWork) : Bool :=
  let own := decide (w.owner < 0x100) && s.isSealed w.owner
  let home := engineRegion u == some w.region
  if q.kind = 1 then own && home && q.owner == w.owner else !(own && home)

/-- The operation that a window serves next: on the byte-serial unit one of metadata at least once in four blocks (R182); in a SLOT window the
owner's first; else the first of the pool user whose turn it is, the device's oldest (R31). -/
def UnitRun.pick (r : UnitRun) (x : Slice) (u : Nat) (q : FlWindow) (weight user : Option Nat → Nat) (of : EngWork → Option Nat)
    (serves : EngWork → Bool) : Option EngWork :=
  let cand := r.works.filter fun w => w.unit == u && serves w && w.mayRun x r.works
  let oldest (l : List EngWork) : Option EngWork := l.foldl (fun best w =>
    match best with
    | none => some w
    | some b => if w.id < b.id then some w else some b) none
  let ripe := if u = 2 ∧ 3 ≤ r.since then oldest (cand.filter fun w => w.why == .segment) else none
  match ripe with
  | some w => some w
  | none =>
    if q.kind = 1 then cand.head?
    else
      match nextUser weight user (q.kind == 2) ((cand.map of).eraseDups) with
      | none => none
      | some none => oldest (cand.filter fun w => of w == none)
      | some (some ti) => (cand.filter fun w => of w == some ti).head?

/-- One turn of a window: the context is loaded where it is not resident, blocks are issued as far as the window goes, and the operation goes behind
the others of its unit (R175, R176, R180, R198). Where not even one block fits, the window is over. -/
def UnitRun.turn (r : UnitRun) (u stop : Nat) (seed : Key) (loadCost : Nat) (user : Option Nat) (w : EngWork) : UnitRun :=
  let key := w.ctx.getD (65536 + w.id)
  let fresh := !r.resident.contains key && decide (u ≤ 2 ∨ w.ctx.isSome)
  let load := w.load + if fresh then loadCost else 0
  let spent := min load (stop - r.time)
  let t := r.time + spent
  let block := if u = 2 then serialBlock (Config.dummyDraw seed r.draws) else 1
  let k := if spent < load then 0
    else if u = 2 then (if block ≤ stop - t then min 1 w.left else 0)
    else if u < 2 then min (min w.left pipeTurn) (stop - t)
    else min w.left (stop - t)
  let stuck := u == 2 && decide (spent = load ∧ 0 < w.left ∧ k = 0)
  let t := if stuck then stop else t + k * block
  let left := w.left - k
  let v : EngWork := { w with load := load - spent, left := left, lag := if left = 0 ∧ load = spent then w.lag - (stop - t) else w.lag }
  { works := r.works.filter (fun z => z.id != w.id) ++ [v],
    resident := (key :: r.resident.filter (· != key)).take (residentRoom u),
    time := t,
    used := r.used.filter (fun p => p.1 != user) ++ [(user, r.usedBy user + (t - r.time))],
    draws := if u = 2 then r.draws + k else r.draws,
    since := if u = 2 ∧ 0 < k then (if w.why = .segment then 0 else r.since + 1) else r.since }

/-- The pool user of an operation: its Shared instance, else the device (R31). -/
def State.engUser (s : State) (w : EngWork) : Option Nat := if 0x100 ≤ w.owner ∨ s.isSealed w.owner then none else some w.owner

/-- A window of a unit filled: operations whose work is done come nearer to their result, then turns as long as there is work and time. -/
def State.fillUnitWindow (s : State) (n u : Nat) (weight : Option Nat → Nat) (r : UnitRun) (q : FlWindow) : UnitRun :=
  let x := s.slice n
  let late (w : EngWork) : EngWork :=
    if w.unit = u ∧ w.left = 0 ∧ w.load = 0 ∧ s.engServed u q w then { w with lag := w.lag - (q.stop - q.start) } else w
  let seed := (x.pipe.seeds[u]?).getD 0
  (List.range 512).foldl (fun (r : UnitRun) _ =>
    if q.stop ≤ r.time then r
    else
      match r.pick x u q weight r.usedBy s.engUser (s.engServed u q) with
      | none => { r with time := q.stop }
      | some w => r.turn u q.stop seed (s.loadCost n u w.ctx) (s.engUser w) w)
    { r with time := q.start, works := r.works.map late }

/-- The stream-engine weight of a pool user: WS of its instance, the active CK_DEVWGT for the device (R31). -/
def State.streamWeight (s : State) (u : Option Nat) : Nat :=
  match u with
  | none => bits s.course.devwgt 23 16
  | some ti => s.fld (Adr.ckWeightActive ti) 23 16

/-- The windows of a unit in the course that ends: those of its region's stream-engine row; the byte-serial unit, which is in no region, has the whole
course (R30, R176, R189; log entry 48). -/
def State.unitWindows (s : State) (n u : Nat) : List FlWindow :=
  match engineRegion u with
  | none => [⟨2, 0, 0, 0, s.courseLen⟩]
  | some r => cellWindows (s.cell s.bondCourse (bondRow (2 * n + r) 2)) 6240 s.courseLen (s.withheld n)

/-- A unit's course: its windows in order; the context that each operation leaves stands at its save point (R176). -/
def State.unitCourse (s : State) (n u : Nat) : State :=
  let x := s.slice n
  if !(x.pipe.works.any fun w => w.unit == u) || !s.active (engineUnit n u) then s
  else
    let res := ((x.pipe.resident.find? fun q => q.1 == u).map (·.2)).getD []
    let r := (s.unitWindows n u).foldl (s.fillUnitWindow n u s.streamWeight)
      { works := x.pipe.works, resident := res, time := 0, used := [], draws := x.pipe.draws, since := x.pipe.since }
    s.modSlice n fun x => { x with pipe := { x.pipe with
      works := r.works, resident := x.pipe.resident.filter (fun q => q.1 != u) ++ [(u, r.resident)], draws := r.draws, since := r.since } }

/-! ### Save points (R176, R178, R237) -/

/-- The context of an operation at its save point: its block counter and bytes done; the accumulator and E(J0) lie under new masks, and what the
accumulator stands for between a message's blocks depends on the data (R175, R176, R178, R237; log entry 4). -/
def State.savePoint (s : State) (n : Nat) (w : EngWork) : State :=
  match w.ctx with
  | none => s
  | some ix =>
    if 2 < w.unit ∨ w.left = w.total then s
    else
      let acc := s.free
      let m := acc.2.maskDraw n w.unit
      let done := w.total - w.left
      m.2.modSlice n fun x =>
        match mapGet x.contexts ix with
        | none => x
        | some k =>
          let c := k.cipher
          { x with contexts := mapInsert x.contexts ix { k with
              cipher := { c with cb := done % 2 ^ 32, payDone := 16 * (done - 1), ghash := sharesOf (BitVec.ofNat 128 acc.1) (m.1.truncate 128),
                                 ej0 := reshare c.ej0 (m.1.extractLsb' 128 128) } } }

/-! ### Fenced units (R180, R182, R205) -/

/-- The unit on which an operation goes on when its own is out of service: another path of its region for a stored unit and for metadata; a stream
operation stays (R182, R205). -/
def State.otherUnit (s : State) (n : Nat) (w : EngWork) : Option Nat :=
  match w.why with
  | .strm _ => none
  | .compress _ => none
  | .segment => [2, 0, 1].find? fun u => s.active (engineUnit n u)
  | _ => if w.unit ≤ 2 then s.cipherUnit n w.region else s.decompressor n w.region

/-- Operations on units that are out of service: a stored unit's is repeated on the new path from its source, one without a path is dropped, and so
is a compression, whose unit is streamed again (R182, R205). -/
def State.reroute (s : State) (n : Nat) : State :=
  ((s.slice n).pipe.works.filter fun w => !s.active (engineUnit n w.unit)).foldl (fun s w =>
    match w.why, s.otherUnit n w with
    | .strm _, _ => s
    | _, some u => s.modSlice n fun x => { x with pipe := { x.pipe with works := x.pipe.works.map fun v =>
        if v.id = w.id then { v with unit := u, left := v.total, lag := if u ≤ 1 then tagLag else 0 } else v } }
    | _, none => s.modSlice n fun x => x.dropEngine fun v => v.id == w.id) s

/-- Has an operation given its result? -/
def EngWork.done (w : EngWork) : Bool := w.load == 0 && w.left == 0 && w.lag == 0

/-- Does the end of an operation free its place at once: reads of stored units; writes are taken off by the write path, submissions by the rows that
end them, segments by the checkpoint? -/
def EngFor.ends : EngFor → Bool
  | .opening _ => true
  | .fill _ => true
  | _ => false

/-- A course of all stream engines of a slice: the units' positions, save points, and the end of what is done (R176, R189). -/
def State.engineCourse (s : State) (n : Nat) : State :=
  if (s.slice n).pipe.works = [] then s
  else
    let s := s.reroute n
    let s := (List.range 11).foldl (fun s u => s.unitCourse n u) s
    let s := ((s.slice n).pipe.works).foldl (fun s w => s.savePoint n w) s
    s.modSlice n fun x => x.dropEngine fun w => w.done && w.why.ends

/-- The first operation for a purpose, if there is one. -/
def Slice.engFor (x : Slice) (why : EngFor) : Option EngWork := x.pipe.works.find? fun w => w.why == why

/-- Has the operation for a purpose given its result? -/
def Slice.engDone (x : Slice) (why : EngFor) : Bool := (x.engFor why).any EngWork.done

/-- The operation for a purpose taken off. -/
def Slice.endEngine (x : Slice) (why : EngFor) : Slice := x.dropEngine fun w => w.why == why

end Sys2Proof.Machine
end

