-- ==== Sys2Proof/Machine/StreamOps.lean ====
section
/-!
DEFINITION. Shared operations of the write path: when a version starts streaming, how it is filled, compressed, encrypted and placed; what a
confirmed or failed program of a page does to the versions and moves that lie on it (R105 to R112, R118 to R120, R135, R170, R171, R192 to R196).
-/

namespace Sys2Proof.Machine

/-- Is a unit of this slice acknowledged only under Through rules: the package's override, or a lost mirror (R19)? -/
def State.throughOverride (s : State) (n : Nat) : Bool :=
  s.bit Adr.pwSts 5 || (s.fenceOf (UnitId.dramCh n 0)).isSome || (s.fenceOf (UnitId.dramCh n 1)).isSome

/-- An ACTIVE compression pair of a local region (R10, R196). -/
def State.pairOf (s : State) (n region : Nat) : Option Nat :=
  [2 * region, 2 * region + 1].find? fun e => s.active (UnitId.pair n e)

/-- Courses in 3,600 s (R195). -/
def hourCourses : Nat := 923076924

/-- A verification mismatch of a pair: counted, and at VFAIL_MAX within 3,600 s the pair is fenced and reported (R195). -/
def State.verifyMismatch (s : State) (n e : Nat) : State :=
  let s := (s.inc (Adr.czVfail n e)).setBit (Adr.czEvt n) 0
  let s := s.modSlice n fun x =>
    { x with vfails := (x.vfails.filter fun q => decide (s.now < q.2 + hourCourses)) ++ [(e, s.now)] }
  if max 1 (s.fld (Adr.czCfg n) 15 8) ≤ ((s.slice n).vfails.filter fun q => q.1 == e).length then
    (s.setBit (Adr.czEvt n) 1).report (UnitId.pair n e) .verify
  else s

/-- Cycles of a compressor on a unit of some bytes (R189). -/
def compressCycles (bytes : Nat) : Nat := (bytes + 4) / 5

/-- Cycles from the last input byte to the end of verification: the last block is emitted, then decoded and compared (R194). -/
def verifyLag : Nat := 64 + (16384 + 4) / 5

/-- The stored form of a unit that compressor e has worked on: whether it is compressed, and SLEN. A frame that would reach the unit's size, or that
differs at verification, leaves it raw (R192 to R195). -/
def State.storedForm (s : State) (n e : Nat) (bs : List Block) : State × Bool × Nat :=
  let raw := bs.length * 4096
  let s := s.add64 (Adr.czInLo n) raw
  let len := Config.frameLen bs
  if raw ≤ len then (s.inc (Adr.czRawUnits n), false, raw)
  else if Config.verifyDiffers s.fresh bs then
    (({ s with fresh := s.fresh + 1 }).verifyMismatch n e, false, raw)
  else (({ s with fresh := s.fresh + 1 }).add64 (Adr.czOutLo n) len, true, len)

/-- The pool user that an owner's work counts for in slice time (R31). -/
def State.ownerUser (s : State) (o : Nat) : Option Nat := if 0x100 ≤ o ∨ s.isSealed o then none else some o

/-- The logical block of a block of a unit in slice n (R54). -/
def State.unitLba (s : State) (n : Nat) (x : Namespace) (lua b : Nat) : Nat :=
  let loc := lua * s.mu n + b
  let k := x.parts.length
  if x.desc.placement = 1 ∧ 0 < k then (loc / 256 * k + x.parts.findIdx fun p => p.slice == n) * 256 + loc % 256 else loc

/-- Some blocks of a unit, acknowledged to an owner, become a deferred write fault: a range for each run of them (R61). -/
def State.deferRuns (s : State) (n : Nat) (owner nsid lua : Nat) (bs : List Nat) (cause : Nat) : State :=
  match s.ns nsid with
  | none => s
  | some x =>
    let ls := ((List.range (s.mu n)).filter fun b => bs.contains b).map fun b => s.unitLba n x lua b
    (runs ls).foldl (fun s r => s.deferFault owner cause nsid r.1 r.2) s

/-- The acknowledged blocks of a version become a deferred write fault (R61). -/
def State.deferVersion (s : State) (n : Nat) (v : Version) (cause : Nat) : State := s.deferRuns n v.writer v.nsid v.lua v.acked cause

/-- An answer with a failure at a block of a namespace. -/
def ansAt (st : Status) (nsid lba : Nat) : Answer := { ansSt st with nsid := nsid, lba := lba }

/-! ### Filling and losses (R107, R109) -/

/-- The blocks of a version with the missing ones filled: zeros in a deferred-fault range, else from flash, zeros where there is nothing, zeros
with the LOSTMAP bit where flash cannot be read (R107). -/
def State.fillVersion (s : State) (n : Nat) (x : Namespace) (v : Version) : Version :=
  (List.range (s.mu n)).foldl (fun v b =>
    match mapGet v.blocks b with
    | some _ => v
    | none =>
      let zero : Version := { v with blocks := mapInsert v.blocks b 0 }
      if s.faulted v.nsid (s.unitLba n x v.lua b) then zero
      else
        match s.readEntry n v.under b with
        | .ok d => { v with blocks := mapInsert v.blocks b d }
        | .fail _ => { zero with lostMap := v.lostMap ||| (1 <<< b) }) v

/-- The stored unit from which the missing blocks of a version come, if it lacks any and has one (R107). -/
def State.fillUnit (s : State) (n : Nat) (v : Version) : Option StoredUnit :=
  if s.mu n ≤ v.blocks.length then none else (s.slice n).unitAt v.under

/-- The commands that wrote some blocks of a version and are not acknowledged fail at the first of them (R55, R109). -/
def State.failBlocks (s : State) (n : Nat) (x : Namespace) (v : Version) (bs : List Nat) : State :=
  s.mapInflight fun y =>
    let mine := (y.wrote.filter fun w => w.1 == n && w.2.1 == v.wslot).flatMap fun w => w.2.2
    match bs.filter fun b => mine.contains b && !v.acked.contains b with
    | [] => y
    | b :: l => y.failPart (ansAt stWriteFault v.nsid (s.unitLba n x v.lua (l.foldl min b)))

/-- The blocks of a version of which both copies are uncorrectable leave it: a deferred write fault with CAUSE 1 for those acknowledged, a failed
write for the others. Without a block left the version goes, and the entry is FAULTED where every block of the unit was acknowledged (R58, R61,
R109). -/
def State.losePoisoned (s : State) (n : Nat) (v : Version) : State :=
  match s.badBlocks n v, s.ns v.nsid with
  | [], _ => s
  | _, none => s
  | bad, some x =>
    let s := (s.failBlocks n x v bad).deferRuns n v.writer v.nsid v.lua (v.acked.filter bad.contains) 1
    let left := v.blocks.filter fun q => !bad.contains q.1
    if left = [] then
      let e := if s.mu n ≤ v.acked.length then Entry.faulted else v.under
      (s.modSlice n fun y => y.dropVersion v.wslot e).clearCond (.programmed n v.wslot)
    else s.modSlice n fun y => y.modVersion v.wslot fun v => { v with blocks := left, acked := v.acked.filter fun b => !bad.contains b }

/-! ### Targets of host data (R105, R119, R135) -/

/-- The next local region for host data of a pool and profile, starting with 0 (R105). -/
def Slice.turn (x : Slice) (k : Pool × CellMode × Nat) : Nat :=
  ((x.turns.find? fun q => q.1 == k).map (·.2)).getD 0

/-- The alternation set. -/
def Slice.setTurn (x : Slice) (k : Pool × CellMode × Nat) (r : Nat) : Slice :=
  { x with turns := x.turns.filter (fun q => q.1 != k) ++ [(k, r)] }

/-- Can the stream group of a region serve a pool: it has a cipher path, and for a Sealed instance's pool that is not the sibling pipe (R105,
R182)? -/
def State.regionServes (s : State) (n r : Nat) (p : Pool) : Bool :=
  match s.path n r, p with
  | 3, _ => false
  | 1, .tenant ti => !s.isSealed ti
  | _, _ => true

/-- The place of size bytes of host data in a region (R105). -/
def State.regionTarget (s : State) (n : Nat) (d : MediaDesc) (x : Namespace) (r size : Nat) (tried : List Nat) (again : Bool) :
    State × Option (Nat × Nat × Nat) :=
  if !s.regionServes n r x.pool then (s, none)
  else
    let a := s.targetSuper n d x.pool (mediaMode x.desc.media) x.desc.rate r size false tried again
    (a.1, a.2.map fun q => (q.1, q.2, r))

/-- The first of some choices of region and repetition that gives a place. -/
def State.firstTarget (s : State) (n : Nat) (d : MediaDesc) (x : Namespace) (size : Nat) (tried : List Nat) :
    List (Nat × Bool) → State × Option (Nat × Nat × Nat)
  | [] => (s, none)
  | q :: l =>
    let a := s.regionTarget n d x q.1 size tried q.2
    match a.2 with
    | some _ => a
    | none => a.1.firstTarget n d x size tried l

/-- A superblock opened in the landing reserve: in the lowest group of a pool of which at least 4 positions have an erased landing block (R118,
R135). -/
def State.openLanding (s : State) (n : Nat) (d : MediaDesc) (p : Pool) : State :=
  let x := s.slice n
  let ready (g : Nat) : List (Nat × Nat) := (x.openPos g).filterMap fun i =>
    ((x.landing.filter fun r => r.lun == lunAt g i && r.ready && !(x.block r.lun r.block).marked).head?).map fun r => (i, r.block)
  match (s.poolGroups n p).find? fun g => decide (4 ≤ (ready g).length) with
  | none => s
  | some g =>
    s.modSlice n fun x =>
      let y := (ready g).foldl (fun (y : Slice) q => y.modReserve (lunAt g q.1) q.2 fun r => { r with ready := false }) x
      { y with supers := y.supers ++ [newSuper x.nextSb g p .pslc 0 d.pagesPerBlock s.now false true (ready g)], nextSb := x.nextSb + 1 }

/-- The place of size bytes in the landing reserve (R135). -/
def State.landingTarget (s : State) (n : Nat) (d : MediaDesc) (p : Pool) (size : Nat) : State × Option (Nat × Nat × Nat) :=
  let pick (s : State) : Option (Nat × Nat × Nat) :=
    ((s.slice n).supers.filter fun sb => sb.state == .sopen && sb.landing && sb.pool == p).findSome? fun sb =>
      ((s.slice n).takes d sb size 0).map fun a => (sb.seq, a, sb.group / 16)
  match pick s with
  | some q => (s, some q)
  | none =>
    let full := ((s.slice n).supers.filter fun sb => sb.state == .sopen && sb.landing && sb.pool == p).map Superblock.seq
    let s := (full.foldl (fun s q => s.finishSuper n d q) s).openLanding n d p
    (s, pick s)

/-- The place of host data for a version: in the region whose turn it is, else the other; after a failed program first in a group not yet tried
(R105, R119). Acknowledged data of a read-only pool goes into the landing reserve where no superblock is open or can be opened (R135). -/
def State.hostTarget (s : State) (n : Nat) (d : MediaDesc) (x : Namespace) (v : Version) (size : Nat) :
    State × Option (Nat × Nat × Nat) :=
  let k := (x.pool, mediaMode x.desc.media, x.desc.rate)
  let r := (s.slice n).turn k
  let a := s.firstTarget n d x size v.tried
    ([(r, false), (1 - r, false)] ++ if v.tried = [] then [] else [(r, true), (1 - r, true)])
  match a.2 with
  | some q => (a.1.modSlice n fun y => y.setTurn k (1 - q.2.2), some q)
  | none =>
    let none_ := [0, 1].all fun r => ((a.1.slice n).openSuper k.1 k.2.1 k.2.2 r false).isNone
    if none_ && (s.slice n).readOnly.contains x.pool && !v.acked.isEmpty then a.1.landingTarget n d x.pool size else a

/-! ### Streaming (R105, R107, R108, R170, R171, R182) -/

/-- Does a version end with grout: it was streamed under a Through, FUA, Flush, shutdown or drain condition, or by age (R112, R129)? -/
def State.grouts (s : State) (n : Nat) (v : Version) : Bool := v.through || v.trigger || v.restored || s.throughOverride n

/-- A version starts streaming: the flash reads of the blocks that it lacks are queued (R107, R108). -/
def State.startStream (s : State) (n : Nat) (v : Version) : State :=
  let s := s.losePoisoned n v
  match (s.slice n).version v.wslot with
  | none => s
  | some v =>
    let s := s.modSlice n fun x => x.modVersion v.wslot fun v => { v with state := .filling, slen := 0 }
    match s.fillUnit n v with
    | none => s
    | some u => (s.openUnit n u v.writer (.fill v.wslot)).senseUnit n u (.fill v.wslot) (s.ownerUser v.writer)

/-- A version is encrypted: it takes its counter value, and the cipher unit of its region its blocks. It waits while the slice cannot encrypt or its
counter must wait (R167, R170, R171, R181, R182). -/
def State.sealVersion (s : State) (n : Nat) (v : Version) (k : Nat) : State :=
  if !s.cipherPath n || (s.cipherUnit n v.region).isNone then s
  else if !s.ctrReady n k then s.inc Adr.ksCtrWaits
  else
    let w := (s.cipherWork n v.region v.writer k v.slen (.sealing v.wslot)).2.takeCtr n k
    w.2.modSlice n fun y => y.modVersion v.wslot fun v =>
      { v with state := .sealing, wseq := w.1, keySlot := k, keyGen := (s.keySlot k).generation }

/-- A version whose fill has come: the region of its target is chosen, its missing blocks are filled, and it goes to a compressor of that region, or
to the cipher at once where it is not compressed (R105, R107, R193, R196). It waits while no superblock can take it. -/
def State.formVersion (s : State) (n : Nat) (v : Version) : State :=
  match s.desc n, s.ns v.nsid, (s.ns v.nsid).bind Namespace.slot with
  | some d, some x, some k =>
    if !s.cipherPath n then s
    else
      let t := s.hostTarget n d x v (unitBytes (s.mu n * 4096))
      match t.2 with
      | none => t.1
      | some (_, _, r) =>
        let f := t.1.fillVersion n x v
        let record := (s.slice n).recordLen v.index
        let f : Version := { f with region := r, objRec := record.isSome, comp := false, slen := record.getD (s.mu n * 4096) }
        let e := if x.compress && record.isNone then t.1.freeEngine n r unitCompress else none
        let s := (t.1.modSlice n fun y => y.modVersion v.wslot fun _ => f).dramStream n v.wslot r v.writer (s.mu n * 4096) v.chans
        match e with
        | some e =>
          (s.addWork n (engWork (unitCompress e) r v.writer none (.compress v.wslot) none 0 (compressCycles f.slen) verifyLag)).2.modSlice n
            fun y => y.modVersion v.wslot fun v => { v with state := .compressing }
        | none => s.sealVersion n f k
  | _, _, _ => s

/-- A version whose compressor has ended: its stored form is known, and the cipher takes it (R193 to R195). One whose compressor was fenced streams
again from the buffer (R205). -/
def State.formed (s : State) (n : Nat) (v : Version) : State :=
  match (s.slice n).engFor (.compress v.wslot), (s.ns v.nsid).bind Namespace.slot with
  | none, _ => s.modSlice n fun y => y.modVersion v.wslot fun v => { v with state := .filling, slen := 0 }
  | some _, none => s
  | some w, some k =>
    if !w.done then s
    else
      let c := s.storedForm n (w.unit - 3) (v.blocks.map (·.2))
      let f : Version := { v with state := .filling, comp := c.2.1, slen := c.2.2 }
      let s := c.1.modSlice n fun y => (y.endEngine (.compress v.wslot)).modVersion v.wslot fun _ => f
      s.sealVersion n f k

/-- A version that is encrypted is packed into a superblock: of the region whose engines worked on it, else wherever there is room (R105, R110 to
R112). One whose encryption lost its unit is encrypted again (R182). -/
def State.placeVersion (s : State) (n : Nat) (v : Version) : State :=
  if !(s.slice n).engaged (.sealing v.wslot) then s.modSlice n fun y => y.modVersion v.wslot fun v => { v with state := .filling }
  else if !(s.slice n).engDone (.sealing v.wslot) then s
  else
    match s.desc n, s.ns v.nsid with
    | some d, some x =>
      let a := s.firstTarget n d x (unitBytes v.slen) v.tried [(v.region, false), (v.region, true)]
      let t := match a.2 with
        | some _ => a
        | none => a.1.hostTarget n d x v (unitBytes v.slen)
      match t.2 with
      | none => t.1
      | some (q, start, _) =>
        let grout := s.grouts n v
        let s := t.1.modSlice n fun y => (y.endEngine (.sealing v.wslot)).modVersion v.wslot fun v =>
          { v with state := .streaming, sb := q, start := start, grout := grout }
        let user := s.ownerUser v.writer
        let s := s.pack n d q start (unitBytes v.slen) user
        if grout then s.groutPage n d q user else s
    | _, _ => s

/-- A version goes on by one stage as far as what it waits for has come. -/
def State.advanceVersion (s : State) (n : Nat) (v : Version) : State :=
  match v.state with
  | .filling =>
    if (s.slice n).working (.fill v.wslot) || (s.slice n).engaged (.fill v.wslot) then s
    else if v.slen = 0 then s.formVersion n v
    else
      match (s.ns v.nsid).bind Namespace.slot with
      | some k => s.sealVersion n v k
      | none => s
  | .compressing => s.formed n v
  | .sealing => s.placeVersion n v
  | _ => s

/-- Do data of a version still come from the host? Its blocks are buffered once they have arrived (R106, R278). -/
def State.arriving (s : State) (n w : Nat) : Bool :=
  s.inflight.any fun y => y.undo.any (fun q => q.slice == n && q.wslot == w) && s.moving y.hdr

/-- Does the slice work for a pool in this course: for a Sealed instance's pool only where a core-time row of the slice holds a SLOT entry of the
instance (R32)? -/
def State.poolServed (s : State) (n : Nat) (p : Pool) : Bool :=
  match p with
  | .slice => true
  | .tenant ti =>
    !s.isSealed ti || [0, 1].any fun r => cellSlot (s.cell s.bondCourse (bondRow (2 * n + r) 3)) fun o => o == ti

/-- Does an OPEN version start streaming at this boundary (R32, R106, R108)? -/
def State.dueStream (s : State) (n : Nat) (v : Version) : Bool :=
  v.isOpen && !s.arriving n v.wslot && (s.ns v.nsid).all (fun x => s.poolServed n x.pool) &&
    (decide (s.mu n ≤ v.blocks.length) || v.through || v.trigger || v.restored || s.throughOverride n ||
      decide (s.fld (Adr.ftWbCfg n) 7 0 * s.wbUsable n * 2 ^ 20 < 100 * s.wbUsed n))

/-- Compressions and encryptions of versions that are gone, or that have started again, leave the engines. -/
def Slice.sweepEngines (x : Slice) : Slice :=
  x.dropEngine fun w =>
    match w.why with
    | .compress k => !((x.version k).any fun v => v.state == .compressing)
    | .sealing k => !((x.version k).any fun v => v.state == .sealing)
    | .fill k => (x.version k).isNone
    | _ => false

/-- STREAM_START: every due version of a slice starts, older ones first, and those that stream go on (R108). -/
def State.streamStarts (s : State) (n : Nat) : State :=
  (s.slice n).versions.foldl (fun s v =>
    let s := match (s.slice n).version v.wslot with
      | some w => if s.dueStream n w then s.startStream n w else s
      | none => s
    match (s.slice n).version v.wslot with
    | some w => s.advanceVersion n w
    | none => s) (s.modSlice n Slice.sweepEngines)

/-- A version streams again from its fill on (R119, R381). -/
def Version.again (v : Version) : Version := { v with state := .filling, slen := 0 }

/-- Every version of a slice that has acknowledged blocks is to be streamed at once (R57, R66, R68). -/
def State.drain (s : State) (n : Nat) : State :=
  s.modSlice n fun x => { x with versions := x.versions.map fun v => if v.acked.isEmpty then v else { v with trigger := true } }

/-! ### Confirmed pages (R105, R106, R110) -/

/-- The unit that a streaming version becomes (R111). -/
def Version.unit (v : Version) (d : MediaDesc) (sb : Superblock) : StoredUnit :=
  let a := sb.place d v.start (unitBytes v.slen)
  { lun := a.1, cw := a.2.1, offset := a.2.2.1, span := a.2.2.2, start := v.start, writer := v.writer, nsid := v.nsid, lua := v.lua,
    wseq := v.wseq, slen := v.slen, format := if v.objRec then 0x20 else if v.comp then 0 else 1, lostMap := v.lostMap,
    keySlot := v.keySlot, keyGen := v.keyGen, blocks := v.blocks, object := none, tagOk := true, readable := true, sb := v.sb }

/-- A version is programmed: its unit lies on flash, the entry switches by comparison, the slot is free (R106, R110). -/
def State.confirm (s : State) (n : Nat) (v : Version) : State :=
  match s.desc n, (s.slice n).super v.sb with
  | some d, some sb =>
    let u := v.unit d sb
    let s := s.modSlice n fun x =>
      let y := x.dropVersion v.wslot u.entry
      let kept := y.units.filter fun w =>
        w.nsid != v.nsid || w.lua != v.lua || w.object.isSome || w.entry == y.entry v.index ||
          y.versions.any fun z => z.index == v.index && z.under == w.entry
      { y with units := kept ++ [u] }
    s.clearCond (.programmed n v.wslot)
  | _, _ => s

/-- A move is programmed: the entries that still name the old place switch to the new one; a host write that came between has won (R110). -/
def State.finishMove (s : State) (n : Nat) (m : Move) : State :=
  match s.desc n, m.target.bind fun t => ((s.slice n).super t.1).map fun sb => (sb, t.2) with
  | some d, some (sb, start) =>
    let a := sb.place d start (unitBytes m.unit.slen)
    let old := m.unit.entry
    let u : StoredUnit := { m.unit with lun := a.1, cw := a.2.1, offset := a.2.2.1, span := a.2.2.2, start := start, sb := sb.seq }
    let i := s.indexOf n u.nsid u.lua
    let live := s.unitValid n m.unit
    s.modSlice n fun x =>
      let y := if x.entry i = old then x.switch i u.entry else x
      { y with
        moves := recErase Move.key x.moves m.key,
        versions := y.versions.map fun v => if v.index = i ∧ v.under = old then { v with under := u.entry } else v,
        units := (y.units.filter fun v => v.entry != old) ++ (if live then [u] else []) }
  | _, _ => s.modSlice n fun x => { x with moves := recErase Move.key x.moves m.key }

/-- A superblock whose pages are all programmed is CLOSED (R105). -/
def State.closeDone (s : State) (n seq : Nat) : State :=
  s.modSlice n fun x => x.modSuper seq fun sb =>
    if sb.state = .sopen ∧ sb.numPages ≤ sb.due ∧ sb.waiting = [] then { sb with state := .closed, closedAt := s.now } else sb

/-- The versions and the moves that lie wholly on confirmed pages of a superblock are done. -/
def State.settlePages (s : State) (n : Nat) (d : MediaDesc) (seq : Nat) : State :=
  match (s.slice n).super seq with
  | none => s
  | some sb =>
    let vs := (s.slice n).versions.filter fun v => v.state == .streaming && v.sb == seq && sb.written d v.start (unitBytes v.slen)
    let ms := (s.slice n).moves.filter fun m => m.target.any fun t => t.1 == seq && sb.written d t.2 (unitBytes m.unit.slen)
    ((ms.foldl (fun s m => s.finishMove n m) (vs.foldl (fun s v => s.confirm n v) s))).closeDone n seq

/-- A page of a superblock is programmed (R105, R106, R110). -/
def State.pageDone (s : State) (n seq p : Nat) : State :=
  match s.desc n with
  | none => s
  | some d => (s.modSlice n fun x => x.modSuper seq fun sb => { sb with waiting := sb.waiting.filter (· != p) }).settlePages n d seq

/-! ### Failed pages (R118 to R120) -/

/-- A block retired: its LUN counts it, spares are evaluated again (R118). -/
def State.retireBlock (s : State) (n lun b : Nat) : State :=
  if ((s.slice n).block lun b).retired then s
  else
    (s.modSlice n fun x =>
      { (x.modBlock lun b fun i => { i with retired := true, marked := true }) with
        reserve := x.reserve.filter fun r => !(r.lun == lun && r.block == b),
        luns := recMod Lun.lun x.luns lun fun l => { l with retired := l.retired + 1 } }).evalSpare n

/-- A block marked for retirement; in no superblock it is retired at once (R116, R118, R119). -/
def State.markBlock (s : State) (n lun b : Nat) : State :=
  let s := s.modSlice n fun x => x.modBlock lun b fun i => { i with marked := true }
  if (s.slice n).inUse lun b then s else s.retireBlock n lun b

/-- A superblock without some positions from its next row on: the row after the page that is being packed (R114, R119, R121). -/
def Superblock.without (sb : Superblock) (d : MediaDesc) (p : Nat → Bool) : Superblock :=
  let next := (sb.fill + sb.pageBytes d - 1) / max 1 (sb.pageBytes d)
  let row := match pageIn sb.rows sb.sets next with
    | none => sb.rows
    | some q => if next = rowStart sb.rows sb.sets q.1 then q.1 else q.1 + 1
  let left := sb.positions.filter fun i => !p i
  if left = sb.positions ∨ sb.rows ≤ row then sb
  else { sb with sets := sb.sets.filter (fun q => decide (q.1 < row)) ++ [(row, left)] }

/-- What becomes of the version of a failed program: under Through rules the third failure ends the command with Write Fault, and a version
without acknowledged blocks is discarded; any other is streamed again (R58, R119). -/
def State.failedVersion (s : State) (n group : Nat) (v : Version) : State :=
  let tried := v.tried.filter (· != group) ++ [group]
  if v.through && decide (2 ≤ v.attempts) then
    let lba := match s.ns v.nsid with
      | some x => s.unitLba n x v.lua (((v.blocks.map Prod.fst).head?).getD 0)
      | none => 0
    let s := s.failCond (.programmed n v.wslot) (ansAt stWriteFault v.nsid lba)
    s.modSlice n fun x =>
      if v.acked.isEmpty then x.dropVersion v.wslot v.under
      else x.modVersion v.wslot fun y => { y.again with through := false, attempts := v.attempts + 1, tried := tried }
  else s.modSlice n fun x => x.modVersion v.wslot fun y => { y.again with attempts := v.attempts + 1, tried := tried }

/-- A move whose target failed starts again from its source, to another superblock (R120). -/
def State.failedMove (s : State) (n group : Nat) (m : Move) : State :=
  let s := s.modSlice n fun x =>
    { x with moves := recMod Move.key x.moves m.key fun m => { m with target := none, tried := m.tried.filter (· != group) ++ [group] } }
  s.senseUnit n m.unit (.move m.key) none

/-- What was packed on some pages of a superblock starts again elsewhere (R119, R120). -/
def State.sweepFailed (s : State) (n : Nat) (d : MediaDesc) (sb : Superblock) (ps : List Nat) : State :=
  let hit (start size : Nat) : Bool := (sb.span d start size).any ps.contains
  let vs := (s.slice n).versions.filter fun v => v.state == .streaming && v.sb == sb.seq && hit v.start (unitBytes v.slen)
  let ms := (s.slice n).moves.filter fun m => m.target.any fun t => t.1 == sb.seq && hit t.2 (unitBytes m.unit.slen)
  ms.foldl (fun s m => s.failedMove n sb.group m) (vs.foldl (fun s v => s.failedVersion n sb.group v) s)

/-- A program of a superblock's block failed: the block is marked and receives no further program; its pages that are not confirmed are lost to
the stripes, what lay on them starts again, the units on its earlier pages are relocated, and its position leaves at the next row (R119, R120). -/
def State.failBlock (s : State) (n seq lun b : Nat) : State :=
  match s.desc n, (s.slice n).super seq with
  | some d, some sb =>
    let ps := sb.waiting.filter fun p => (sb.pageAt p).any fun q => q.1 == lun && q.2.1 == b
    let us := s.unitsOn n lun b
    let s := s.modSlice n fun x =>
      ((x.dropWorks fun w => match w.why with
        | .page q p => q == seq && ps.contains p
        | _ => false).modSuper seq fun sb =>
          { (sb.without d fun i => lunAt sb.group i == lun) with
            waiting := sb.waiting.filter fun p => !ps.contains p, lost := sb.lost ++ ps }).relocate us
    ((s.markBlock n lun b).sweepFailed n d sb ps).closeDone n seq
  | _, _ => s

end Sys2Proof.Machine
end

