-- ==== Sys2Proof/Machine/RepairOps.lean ====
section
/-!
DEFINITION. Shared operations of the translation layer on what lies on flash: losses (R115, R117, R121, R137, R148), the blocks kept back (R126,
R135, R417), relocation, verification and garbage collection (R105, R113, R116, R120 to R122, R138), landing (R128, R383), the persisted mapping
(R129 to R131, R256).
-/

namespace Sys2Proof.Machine

/-! ### Losses (R115, R117, R121, R140) -/

/-- Has a superblock a withdrawn position (R381)? -/
def Slice.sbWithdrawn (x : Slice) (sb : Superblock) : Bool := sb.blocks.any fun q => x.lunWithdrawn q.1

/-- A valid unit on a LUN becomes LOST, and its bytes count as lost (R115, R117). -/
def State.loseUnit (s : State) (n lun : Nat) (u : StoredUnit) : State :=
  let i := s.indexOf n u.nsid u.lua
  s.modSlice n fun x =>
    let e := Entry.lost u.lun u.cw
    let y := if x.entry i = u.entry then x.switch i e else x
    { y with
      versions := y.versions.map fun v => if v.index = i ∧ v.under = u.entry then { v with under := e } else v,
      units := y.units.filter fun v => v.entry != u.entry,
      moves := y.moves.filter fun m => m.unit.entry != u.entry,
      lostSizes := mapInsert y.lostSizes i (unitBytes u.slen),
      luns := recMod Lun.lun y.luns lun fun l => { l with lostBytes := l.lostBytes + unitBytes u.slen } }

/-- Stored bytes of the units of a slice that are LOST now (R140). -/
def Slice.lostNow (x : Slice) : Nat :=
  ((x.lostSizes.filter fun q => (x.entry q.1).kind == 5).map Prod.snd).sum

/-- The units that touch a LUN in VERIFIED or VICTIM superblocks, which have no redundancy, become LOST (R117, R121). -/
def State.loseBare (s : State) (n lun : Nat) : State :=
  let bare (u : StoredUnit) : Bool := ((s.slice n).super u.sb).any fun sb => sb.state == .verified || sb.state == .victim
  ((s.slice n).units.filter fun u => bare u && s.touches n u lun && s.unitValid n u).foldl (fun s u => s.loseUnit n lun u) s

/-- Valid units on two lost pages of one stripe: a deferred write fault with CAUSE 2 each, and LOST (R61, R115). -/
def State.settleLost (s : State) (n : Nat) : State :=
  let gone (u : StoredUnit) : Bool := (((s.slice n).super u.sb).any Superblock.underParity) && s.unitGone n u && s.unitValid n u
  ((s.slice n).units.filter gone).foldl (fun s u =>
    (s.deferRuns n u.writer u.nsid u.lua (List.range (s.mu n)) 2).loseUnit n u.lun u) s

/-- A page of a superblock under parity is lost: the units on it are served by rebuilding until they are relocated (R115, R160). -/
def State.losePage (s : State) (n seq p : Nat) : State :=
  match (s.slice n).super seq with
  | none => s
  | some sb =>
    if !sb.underParity || (s.slice n).sbWithdrawn sb then s
    else
      let us := s.unitsAt n seq p
      (s.modSlice n fun x => (x.modSuper seq fun b =>
        { b with lost := if b.lost.contains p then b.lost else b.lost ++ [p] }).relocate us).settleLost n

/-- Exposed bytes of a LUN: valid units that touch it in VERIFIED or VICTIM superblocks (R137). -/
def State.exposed (s : State) (n lun : Nat) : Nat :=
  (((s.slice n).units.filter fun u =>
      s.touches n u lun && s.unitValid n u &&
        ((s.slice n).super u.sb).any fun sb => sb.state == .verified || sb.state == .victim).map
    fun u => unitBytes u.slen).sum

/-- Exposed bytes of the LUNs in WARN (FT_EXPOSED, R137). -/
def State.exposedTotal (s : State) (n : Nat) : Nat :=
  (((s.slice n).luns.filter fun l => l.health == .warn).map fun l => s.exposed n l.lun).sum

/-- Stored bytes of the valid units that touch a LUN. -/
def State.bytesOn (s : State) (n lun : Nat) : Nat :=
  (((s.slice n).units.filter fun u => s.touches n u lun && s.unitValid n u).map fun u => unitBytes u.slen).sum

/-- FT_STS.EXPOSED: a LUN is in WARN (R137). -/
def State.evalExposed (s : State) (n : Nat) : State :=
  s.putBit (Adr.ftSts n) 4 ((s.slice n).luns.any fun l => l.health == .warn)

/-! ### Blocks kept back (R126, R135, R417) -/

/-- The least-worn free blocks of a LUN kept back for a use, k of them. -/
def Slice.keepMore (x : Slice) (d : MediaDesc) (lun : Nat) (use : ResUse) (ready : Bool) (k : Nat) : Slice :=
  (List.range k).foldl (fun x _ => x.keepBack d lun use ready) x

/-- Some landing blocks of a LUN given back: the last erased ones. -/
def Slice.giveBack (x : Slice) (lun k : Nat) : Slice :=
  let drop := ((x.landing.filter fun r => r.lun == lun && r.ready).reverse.take k)
  { x with reserve := x.reserve.filter fun r => !drop.contains r }

/-- The blocks kept back on a LUN: as many landing blocks as are wanted, and 2 parity blocks (R114, R126). -/
def Slice.keepFor (d : MediaDesc) (want : Nat) (ready : Bool) (x : Slice) (l : Lun) : Slice :=
  let kept := x.keptOn l.lun .landing
  let x := (x.keepMore d l.lun .landing ready (want - kept)).giveBack l.lun (kept - want)
  x.keepMore d l.lun .parity ready (2 - x.keptOn l.lun .parity)

/-- The kept-back blocks of each good LUN brought to their number: the landing reserve of R126, 2 blocks of parity allowance (R417). -/
def State.sizeReserve (s : State) (n : Nat) (ready : Bool) : State :=
  match s.desc n with
  | none => s
  | some d =>
    if !s.formatted n then s
    else
      let good := (s.slice n).luns.filter Lun.good
      let want := landingPerLun (s.fld (Adr.ftWb n) 15 0) good.length (d.blockBytes .pslc 0)
      s.modSlice n fun x => good.foldl (Slice.keepFor d want ready) x

/-- The buffer size of slice n set to a number of MiB, with its landing reserve (R126, R336). -/
def State.sizeBuffer (s : State) (n wbMib : Nat) : State :=
  ((s.putF (Adr.ftWb n) 15 0 wbMib).sizeReserve n false).evalSpare n

/-- Is a block kept back to be erased: it is not erased, nothing that is still needed lies in it, and no erase waits? -/
def Slice.reserveDue (x : Slice) (r : ResBlock) : Bool :=
  !r.ready && !(x.block r.lun r.block).marked && !(x.supers.any fun sb => sb.blocks.contains (r.lun, r.block)) &&
    !(x.flash.works.any fun w => w.lun == r.lun && w.block == r.block) &&
    (match r.use with
     | .landing => x.landed.isEmpty && x.store.landedDeltas.isNone
     | .parity => !(x.parity.any fun p => p.lun == r.lun && p.block == r.block)
     | .metadata => false)

/-- The erases of kept-back blocks that are due are queued (R116, R126, R129). -/
def State.eraseReserve (s : State) (n : Nat) : State :=
  ((s.slice n).reserve.filter (s.slice n).reserveDue).foldl (fun s r => s.queueErase n r.lun r.block .pslc 0 .reserve) s

/-- The parity pages of a superblock released: a parity block without pages is erased for reuse, one beyond the allowance is free again, a marked
one is retired and replaced (R116, R119, R417; log entry 30). -/
def State.releaseParity (s : State) (n seq : Nat) : State :=
  let mine := (((s.slice n).parity.filter fun p => p.sb == seq).map fun p => (p.lun, p.block)).eraseDups
  let s := s.modSlice n fun x => { x with parity := x.parity.filter fun p => p.sb != seq }
  mine.foldl (fun s q =>
    if (s.slice n).parity.any fun p => p.lun == q.1 && p.block == q.2 then s
    else if ((s.slice n).block q.1 q.2).marked then
      let s := s.retireBlock n q.1 q.2
      match s.desc n with
      | none => s
      | some d => s.modSlice n fun x => x.keepMore d q.1 .parity false (2 - x.keptOn q.1 .parity)
    else s.modSlice n fun x =>
      if 2 < x.keptOn q.1 .parity then { x with reserve := x.reserve.filter fun r => !(r.lun == q.1 && r.block == q.2) }
      else x.modReserve q.1 q.2 fun r => { r with ready := false, fill := 0 }) s

/-! ### Superblocks that return to FREE (R105, R118, R119) -/

/-- A superblock goes back to FREE: its parity is released, its marked blocks are retired, its units leave (R105, R118, R119). -/
def State.freeSuper (s : State) (n seq : Nat) : State :=
  match (s.slice n).super seq with
  | none => s
  | some sb =>
    let s := s.releaseParity n seq
    let s := s.modSlice n fun x =>
      { (x.dropWorks fun w => match w.why with
          | .page q _ => q == seq
          | .parity q _ _ => q == seq
          | .block q => q == seq
          | .verify q => q == seq
          | .patrol q => q == seq
          | _ => false) with
        supers := recErase Superblock.seq x.supers seq, units := x.units.filter fun u => u.sb != seq }
    let s := sb.blocks.foldl (fun s q => if ((s.slice n).block q.1 q.2).marked then s.retireBlock n q.1 q.2 else s) s
    s.evalSpare n

/-- Valid bytes of a superblock (R122). -/
def State.validBytes (s : State) (n seq : Nat) : Nat :=
  (((s.slice n).units.filter fun u => u.sb == seq && s.unitValid n u).map fun u => unitBytes u.slen).sum

/-- Does a superblock go back to FREE: a victim, one that recovers, one of a retired group or of the landing reserve, of which no valid unit is
left and which nothing streams to (R105, R121, R135)? -/
def State.sbDone (s : State) (n : Nat) (sb : Superblock) : Bool :=
  let x := s.slice n
  let leaves := sb.state == .victim || sb.state == .recovering || (sb.state == .verified && (sb.landing || !x.groupAlive sb.group))
  leaves && !x.sbWithdrawn sb && s.validBytes n sb.seq == 0 &&
    !(x.versions.any fun v => v.state == .streaming && v.sb == sb.seq) && !(x.moves.any fun m => m.target.any fun t => t.1 == sb.seq)

/-- The superblocks that are empty freed. -/
def State.freeDone (s : State) (n : Nat) : State :=
  ((s.slice n).supers.filter (s.sbDone n)).foldl (fun s sb => s.freeSuper n sb.seq) s

/-! ### Relocation (R110, R113, R120 to R122, R138) -/

/-- Is a unit to be relocated: asked for, or in a superblock that is emptied, or on a LUN that is evacuated; never in a superblock with a
withdrawn position (R113, R121, R122, R138, R381)? -/
def State.mustMove (s : State) (n : Nat) (u : StoredUnit) : Bool :=
  let x := s.slice n
  match x.super u.sb with
  | none => false
  | some sb =>
    !x.sbWithdrawn sb && s.poolServed n sb.pool &&
      (x.relocs.contains u.entry || sb.state == .victim || sb.state == .recovering || !x.groupAlive sb.group ||
        x.evacuating.any fun l => s.touches n u l) &&
      s.unitValid n u && !(x.moves.any fun m => m.unit.entry == u.entry)

/-- A relocation starts: the reads of its source are queued. A unit that cannot be read becomes LOST (log entry 35). -/
def State.startMove (s : State) (n : Nat) (u : StoredUnit) : State :=
  if !u.readable then s.loseUnit n u.lun u
  else
    let key := ((s.slice n).moves.map Move.key).foldl max 0 + 1
    let s := s.modSlice n fun x => { x with moves := x.moves ++ [{ key := key, unit := u, target := none, tried := [] }] }
    s.senseUnit n u (.move key) none

/-- The place of a moved unit: in the garbage-collection superblock of its region, of the other one where its own has none or failed it (R105,
R120, R122). -/
def State.moveTarget (s : State) (n : Nat) (d : MediaDesc) (old : Superblock) (size : Nat) (tried : List Nat) : State × Option (Nat × Nat) :=
  let r := old.group / 16
  let one (s : State) (r : Nat) (again : Bool) := s.targetSuper n d old.pool old.mode old.rate r size true tried again
  let shut := ((s.slice n).openSuper old.pool old.mode old.rate r true).isNone && (s.chooseGroup n d old.pool r).isNone
  let a := one s r false
  if a.2.isSome || !(shut || tried != []) then a
  else
    let b := one a.1 (1 - r) false
    if b.2.isSome || tried == [] then b else one b.1 r true

/-- A relocation whose source has been read is packed into its target; a unit that is no longer valid is not moved (R110, R113). -/
def State.placeMove (s : State) (n : Nat) (m : Move) : State :=
  match s.desc n, (s.slice n).super m.unit.sb with
  | some d, some old =>
    if !s.unitValid n m.unit then s.modSlice n fun x => { x with moves := recErase Move.key x.moves m.key }
    else
      let t := s.moveTarget n d old (unitBytes m.unit.slen) m.tried
      match t.2 with
      | none => t.1
      | some q =>
        (t.1.modSlice n fun x => { x with moves := recMod Move.key x.moves m.key fun m => { m with target := some q } }).pack n d q.1 q.2
          (unitBytes m.unit.slen) none
  | _, _ => s.modSlice n fun x => { x with moves := recErase Move.key x.moves m.key }

/-- Relocation at a course boundary: units that must move start, those whose reads have come are packed, superblocks that are empty are freed. -/
def State.pumpMoves (s : State) (n : Nat) : State :=
  let s := ((s.slice n).units.filter (s.mustMove n)).foldl (fun s u => s.startMove n u) s
  let s := s.modSlice n fun x => { x with relocs := x.relocs.filter fun e => (x.unitAt e).isSome && !(x.moves.any fun m => m.unit.entry == e) }
  let ready := (s.slice n).moves.filter fun m => m.target.isNone && !(s.slice n).working (.move m.key)
  (ready.foldl (fun s m => s.placeMove n m) s).freeDone n

/-! ### Verification (R116) -/

/-- Closed superblocks enter verification within one course (R116). -/
def Slice.startVerify (x : Slice) : Slice :=
  { x with supers := x.supers.map fun (sb : Superblock) => if sb.state = .closed then { sb with state := .verifying, verifyAt := 0 } else sb }

/-- The superblock that verification reads in a region: the one that closed first (R116, R381). -/
def Slice.verifying (x : Slice) (region : Nat) : Option Superblock :=
  (x.supers.filter fun sb => sb.state == .verifying && sb.group / 16 == region && !x.sbWithdrawn sb).foldl (fun best sb =>
    match best with
    | none => some sb
    | some b => if sb.closedAt < b.closedAt then some sb else some b) none

/-- The next row of a superblock under verification read: every page of it, counted on its block (R116, R124). -/
def State.verifyRow (s : State) (n : Nat) (d : MediaDesc) (sb : Superblock) : State :=
  let row := (pageIn sb.rows sb.sets sb.verifyAt).map Prod.fst
  let ps := ((List.range 16).map fun k => sb.verifyAt + k).filter fun p =>
    decide (p < sb.due) && (pageIn sb.rows sb.sets p).map Prod.fst == row
  let s := ps.foldl (fun s p =>
    match sb.pageAt p with
    | none => s
    | some a => (s.countReads n a.1 a.2.1 1).queueRead n a.1 a.2.1 a.2.2 sb.mode sb.rate (d.cwPerPage sb.mode sb.rate) (.verify sb.seq) none) s
  s.modSlice n fun x => x.modSuper sb.seq fun b => { b with verifyAt := b.verifyAt + max 1 ps.length }

/-- Verification at a course boundary: in each region the next row of the superblock that closed first (R116). -/
def State.pumpVerify (s : State) (n : Nat) : State :=
  match s.desc n with
  | none => s
  | some d =>
    [0, 1].foldl (fun s r =>
      match (s.slice n).verifying r with
      | none => s
      | some sb =>
        if (s.slice n).working (.verify sb.seq) || decide (sb.due ≤ sb.verifyAt) then s else s.verifyRow n d sb) s

/-- Has every codeword of a superblock been read for its verification? -/
def Slice.verifyRead (x : Slice) (sb : Superblock) : Bool := decide (sb.due ≤ sb.verifyAt) && !x.working (.verify sb.seq)

/-- The last check of a superblock passes: VERIFIED, its parity released (R105, R116). -/
def State.verified (s : State) (n seq : Nat) : State :=
  (s.modSlice n fun x => x.modSuper seq fun sb => { sb with state := .verified, parityHeld := false, patrolAt := s.now }).releaseParity n seq

/-! ### Garbage collection (R122) -/

/-- Free superblocks of a pool: for each group, the free blocks of the good LUN that has fewest (R122). -/
def State.freeSupers (s : State) (n : Nat) (d : MediaDesc) (p : Pool) : Nat :=
  ((s.poolGroups n p).map fun g =>
    let free := ((s.slice n).openPos g).map fun i => ((s.slice n).freeBlocks d (lunAt g i)).length
    if free.length < 4 then 0 else free.foldl min d.blocksPerLun).sum

/-- The victim of a pool and profile: the VERIFIED superblock with the fewest valid bytes, ties to the lowest group, then the
oldest; never one with a withdrawn position, nor one in the landing reserve (R122, R381). -/
def State.victim (s : State) (n : Nat) (p : Pool) (m : CellMode) (rate : Nat) : Option Nat :=
  let x := s.slice n
  let cand := x.supers.filter fun sb => sb.pool == p && sb.mode == m && sb.rate == rate && sb.state == .verified && !sb.landing &&
    !x.sbWithdrawn sb
  let key (sb : Superblock) := (s.validBytes n sb.seq * 32 + sb.group) * 2 ^ 32 + sb.seq
  (cand.foldl (fun best sb =>
    match best with
    | none => some sb
    | some b => if key sb < key b then some sb else some b) (none : Option Superblock)).map Superblock.seq

/-- Garbage collection of one pool: on from LOW, off at HIGH; one victim of each profile at a time (R122). -/
def State.collect (s : State) (n : Nat) (p : Pool) : State :=
  match s.desc n with
  | none => s
  | some d =>
    if !s.poolServed n p then s else
    let free := s.freeSupers n d p
    let on := if free ≤ s.fld (Adr.ftGcCfg n) 7 0 then true
      else if s.fld (Adr.ftGcCfg n) 15 8 ≤ free then false
      else (s.slice n).gcOn.contains p
    let s := s.modSlice n fun x => { x with gcOn := x.gcOn.filter (· != p) ++ (if on then [p] else []) }
    if !on then s else
      let profiles := (((s.slice n).supers.filter fun sb => sb.pool == p && !sb.landing).map fun sb => (sb.mode, sb.rate)).eraseDups
      profiles.foldl (fun s q =>
        if (s.slice n).supers.any fun sb => sb.state == .victim && sb.pool == p && sb.mode == q.1 && sb.rate == q.2 then s
        else match s.victim n p q.1 q.2 with
          | none => s
          | some v => s.modSlice n fun x => x.modSuper v fun sb => { sb with state := .victim }) s

/-! ### Failed LUNs (R121, R148) -/

/-- FL_TGT_STS of the target of a LUN after a failure cause (R147, R148). -/
def State.targetFailed (s : State) (n lun cause : Nat) : State :=
  let a := Adr.flTgtSts n (lunTarget lun)
  let s := (s.putF a 15 8 cause).putF a (17 + 2 * (lun % 4)) (16 + 2 * (lun % 4)) 2
  let here := (s.slice n).luns.filter fun l => lunTarget l.lun == lunTarget lun
  if here.all (fun l => l.health == .failed || l.health == .evacuated) then s.putF a 1 0 3 else s

/-- A superblock leaves its state with what is programmed into it: the programs that satisfy p are dropped and their pages lost to the stripes, and
what lay on them or on pages not yet given to the flash starts again elsewhere (R121, R381). -/
def State.stopSuper (s : State) (n : Nat) (d : MediaDesc) (st : SbState) (p : FlWork → Bool) (sb : Superblock) : State :=
  let cut := (s.slice n).flash.works.filterMap fun w => match w.why with
    | .page q k => if q = sb.seq ∧ p w then some k else none
    | _ => none
  let s := s.modSlice n fun x =>
    (x.dropWorks fun w => match w.why with
      | .page q _ => q == sb.seq && p w
      | .block q => q == sb.seq
      | _ => false).modSuper sb.seq fun b =>
        { b with state := st, closedAt := s.now, waiting := b.waiting.filter fun k => !cut.contains k, lost := b.lost ++ cut }
  s.sweepFailed n d sb (cut ++ (List.range (sb.numPages - sb.due)).map fun k => sb.due + k)

/-- The open die stripe of a superblock closed with the pages written (R114, R381). -/
def State.closeStripe (s : State) (n : Nat) (d : MediaDesc) (seq : Nat) : State :=
  match (s.slice n).super seq with
  | none => s
  | some sb =>
    match if sb.due = 0 then none else sb.stripe (sb.due - 1) with
    | none => s
    | some k =>
      if (s.slice n).parity.any (fun p => p.sb == seq && p.seg == k.seg && p.k == k.k) || (s.slice n).lunWithdrawn (lunAt sb.group k.pos) then s
      else s.parityPage n d sb k

/-- The metadata superblocks that hold a block of a LUN are written again: the checkpoint pass starts over (R121, R130). -/
def Slice.rewind (x : Slice) (lun : Nat) : Slice :=
  if x.store.supers.any fun q => q.blocks.any fun b => b.1 == lun then
    { x with store := { x.store with
        pass := x.store.pass + 1, seg := 0, supers := x.store.supers.filter fun q => !(q.blocks.any fun b => b.1 == lun) } }
  else x

/-- A LUN declared failed: its positions deactivated, superblocks of its group under parity recovered, what lay on it in others lost, the LUN
retired and its kept-back blocks replaced (R115, R121, R148). -/
def State.lunFailed (s : State) (n lun cause : Nat) : State :=
  if !((s.slice n).lun lun).any (fun l => !(l.health == .failed) && !(l.health == .evacuated)) then s else
  let s := s.modSlice n fun x =>
    { x with luns := recMod Lun.lun x.luns lun fun l => { l with health := .failed, changedAt := s.now, cause := l.cause ||| 8 } }
  let s := ((s.targetFailed n lun cause).setBit (Adr.ftEvt n) 5).setBit (Adr.flEvt n) 3
  let s := match s.desc n with
    | none => s
    | some d =>
      ((s.slice n).supers.filter fun (sb : Superblock) => sb.group == lunGroup lun && !(s.slice n).sbWithdrawn sb &&
          (sb.state == SbState.sopen || sb.state == SbState.closed || sb.state == SbState.verifying)).foldl
        (fun s (sb : Superblock) => s.stopSuper n d .recovering (fun w => w.lun == lun) sb) s
  let s := (s.loseBare n lun).modSlice n fun x =>
    { ((x.dropWorks fun w => w.lun == lun).rewind lun) with
      reserve := x.reserve.filter fun r => r.lun != lun,
      evacuating := x.evacuating.filter (· != lun) }
  (((s.settleLost n).sizeReserve n false).evalSpare n).evalExposed n

/-- Courses in 24 h. -/
def dayCourses : Nat := 22153846154

/-- A program or erase failure of a block counts for 24 h, each block once; 16 blocks declare the LUN failed (R148). -/
def State.countFailure (s : State) (n lun b : Nat) : State :=
  let s := s.modSlice n fun x =>
    { x with luns := recMod Lun.lun x.luns lun fun l =>
        { l with failedBlocks :=
            l.failedBlocks.filter (fun q => q.1 != b && decide (s.now < q.2 + dayCourses)) ++ [(b, s.now)] } }
  if ((s.slice n).lun lun).any fun l => decide (16 ≤ l.failedBlocks.length) then s.lunFailed n lun 2 else s

/-! ### Landing (R128, R383) -/

/-- Insertion by first acknowledgement. -/
def byAck (v : Version) : List Version → List Version
  | [] => [v]
  | w :: l => if v.ackAt.getD 0 < w.ackAt.getD 0 then v :: w :: l else w :: byAck v l

/-- The versions that a landing lands: those with an acknowledged block, oldest acknowledgement first (R128). -/
def Slice.toLand (x : Slice) : List Version :=
  (x.versions.filter fun v => !v.acked.isEmpty).foldl (fun l v => byAck v l) []

/-- A version landed as DATA_RAW: under its namespace's key, with a counter value of its own (R128, R170). -/
def State.landVersion (s : State) (n : Nat) (v : Version) : State :=
  match (s.ns v.nsid).bind Namespace.slot with
  | none => s.modSlice n fun x => { x with landed := x.landed ++ [v] }
  | some k =>
    let w := s.takeCtr n k
    w.2.modSlice n fun x => { x with landed := x.landed ++ [{ v with wseq := w.1, keySlot := k, keyGen := (s.keySlot k).generation }] }

/-- Bytes of the delta journal: 16 for a record (R128; log entry 36). -/
def journalBytes (l : List Delta) : Nat := 16 * l.length

/-- Landing blocks that hold what was landed, with the parity of their stripes: no longer erased (R126, R128). -/
def Slice.useLanding (x : Slice) (blocks : Nat) : Slice :=
  ((x.landing.filter ResBlock.ready).take blocks).foldl (fun x r => x.modReserve r.lun r.block fun r => { r with ready := false }) x

/-- The slice lands every acknowledged version but those named, which become deferred write faults with CAUSE 3; then the delta journal and the
state of its superblocks, if every version has landed (R128, R337; log entry 37). -/
def State.landSlice (s : State) (n : Nat) (unlanded : List Nat) : State :=
  let all := (s.slice n).toLand
  let bad := all.filter fun v => unlanded.contains v.wslot
  let good := all.filter fun v => !unlanded.contains v.wslot
  let s := bad.foldl (fun s v => s.deferVersion n v 3) s
  let s := s.modSlice n fun x => { x with landed := x.landed.filter fun v => !(good.any fun w => w.wslot == v.wslot) }
  let s := good.foldl (fun s v => s.landVersion n v) s
  let bytes := good.length * unitBytes (s.mu n * 4096) + (if bad = [] then journalBytes (s.slice n).journal else 0)
  let per := match s.desc n with
    | none => 0
    | some d => d.blockBytes .pslc 0
  s.modSlice n fun x =>
    let y := if per = 0 then x else x.useLanding ((bytes * 16 + per * 15 - 1) / (per * 15))
    { y with landedAcked := true, store := { y.store with landedDeltas := if bad = [] then some y.journal else none } }

/-- Every open ingest gone: its LUAs UNMAPPED, the entries of keys that were not committed FREE (R256, R258). -/
def Slice.dropIngests (x : Slice) : Slice :=
  let ls := x.ingests.flatMap Ingest.luas
  let x := (ls.foldl (fun x i => x.switch i .unmapped) x).freeIndex fun e => e.state == KeyState.pending
  { x with versions := x.versions.filter (fun v => !(ls.contains v.index)), ingests := [] }

/-- The landing blocks are erased back into the reserve once every restored version is programmed (steps 5 and 6 of R129). -/
def State.endLanding (s : State) (n : Nat) : State :=
  let x := s.slice n
  if (x.landed.isEmpty && x.store.landedDeltas.isNone) || x.versions.any Version.restored then s
  else s.modSlice n fun x => { x with landed := [], landedAcked := false, store := { x.store with landedDeltas := none } }

/-! ### The persisted mapping (R130, R131, R256) -/

/-- What an entry is saved as: a buffered one as what its version stands over (R129, R130). -/
def Slice.stable (x : Slice) : Entry → Entry
  | .buffer w => ((x.version w).map Version.under).getD .unmapped
  | e => e

/-- Segments of the table and of the index, those of the index after those of the table (R130, R256). -/
def State.segments (s : State) (n : Nat) : Nat × Nat :=
  match s.desc n with
  | none => (0, 0)
  | some d => ((((s.slice n).luns.length * d.lunBytes) / (s.mu n * 4096) + 1023) / 1024,
      (((s.slice n).indexLog2.map fun k => 2 ^ k).getD 0 + 1023) / 1024)

/-- Is a delta covered by a segment that is saved? -/
def Delta.inSegment (tables : Nat) (open_ : List Nat) (g : Nat) : Delta → Bool
  | .switch i _ => segOf i == g
  | .indexEntry p _ => tables + p / 4 / 1024 == g
  | .ingestLua k _ => !open_.contains k

/-- A segment saved: its entries as they are now, and the deltas that it covers leave the journal (R130). -/
def Slice.saveSegment (x : Slice) (tables g : Nat) : Slice :=
  let store :=
    if g < tables then
      { x.store with saved := x.store.saved.filter (fun q => segOf q.1 != g) ++
          (x.map.filter fun q => segOf q.1 == g).map fun q => (q.1, (x.stable q.2).word) }
    else
      { x.store with savedIndex := x.store.savedIndex.filter (fun q => tables + q.1 / 4 / 1024 != g) ++
          x.index.filter fun q => tables + q.1 / 4 / 1024 == g }
  { x with store := store, journal := x.journal.filter fun r => !r.inSegment tables (x.ingests.map Ingest.id) g }

/-- Blocks for a metadata superblock: the least-worn free block at each position of the slice pool's group of lowest wear (R123, R130). -/
def State.metaPicks (s : State) (n : Nat) (d : MediaDesc) : List (Nat × Nat) :=
  match (s.chooseGroup n d .slice 0).orElse fun _ => s.chooseGroup n d .slice 1 with
  | none => []
  | some g => ((s.slice n).openPos g).filterMap fun i => ((s.slice n).leastWorn d (lunAt g i)).map fun b => (lunAt g i, b)

/-- A metadata superblock opened, its blocks to be erased (R130). -/
def State.openMeta (s : State) (n : Nat) (d : MediaDesc) : State :=
  let picks := s.metaPicks n d
  if picks = [] then s
  else
    let s := s.modSlice n fun x =>
      { x with store := { x.store with supers := x.store.supers ++ [{ seq := x.nextSb, blocks := picks, fill := 0, spans := [] }] },
               nextSb := x.nextSb + 1 }
    picks.foldl (fun s q => s.queueErase n q.1 q.2 .pslc 0 .metadata) s

/-- Bytes of a metadata superblock. -/
def MetaSuper.cap (q : MetaSuper) (d : MediaDesc) : Nat := q.blocks.length * d.blockBytes .pslc 0

/-- The key slot of a slice's metadata (R418). -/
def metaKey (n : Nat) : Nat := 4113 + n

/-- Stored bytes of a segment: 1,024 entries of 6 bytes (R111, R130). -/
def mapSegBytes : Nat := unitBytes 6144

/-- A segment of FORMAT 0x10 written to the open metadata superblock, its flash pages programmed as they fill; the copy of the pass before the
last one is given up when a pass ends (R130; log entry 34). -/
def State.writeSegment (s : State) (n : Nat) (d : MediaDesc) : State :=
  let t := s.segments n
  match (s.slice n).store.supers.getLast? with
  | none => s.openMeta n d
  | some q =>
    if (s.slice n).flash.works.any fun w => w.why == .metadata && w.op == .erase then s
    else if q.cap d < q.fill + mapSegBytes then s.openMeta n d
    else
      let page := max 1 (d.cwPerPage .pslc 0 * 4096)
      let g := (s.slice n).store.seg
      let pass := (s.slice n).store.pass
      let s := (s.takeCtr n (metaKey n)).2
      let s := s.modSlice n fun x =>
        let x := x.saveSegment t.1 g
        let q : MetaSuper := { q with fill := q.fill + mapSegBytes, spans := q.spans ++ [(pass, g, g)] }
        let last := decide (t.1 + t.2 ≤ g + 1)
        let keep := if last then x.store.supers.filter fun m => m.seq == q.seq || m.spans.any fun p => decide (pass ≤ p.1 + 1) else x.store.supers
        { x with store := { x.store with
            supers := recMod MetaSuper.seq keep q.seq fun _ => q, seg := if last then 0 else g + 1, pass := if last then pass + 1 else pass } }
      let pages := (List.range ((q.fill + mapSegBytes) / page - q.fill / page)).map fun k => q.fill / page + k
      pages.foldl (fun s p =>
        match q.blocks[p % max 1 q.blocks.length]? with
        | none => s
        | some b => s.queueProgram n d b.1 b.2 (p / max 1 q.blocks.length) .pslc 0 .metadata none) s

/-- The delta journal written to flash: the persisted mapping and index hold what it records (R130, R347). -/
def Slice.writeJournal (x : Slice) : Slice :=
  let store := x.journal.foldl (fun (m : MapStore) r =>
    match r with
    | .switch i _ => { m with saved := mapInsert m.saved i (x.stable (x.entry i)).word }
    | .indexEntry p _ => { m with savedIndex := match mapGet x.index p with
        | none => mapErase m.savedIndex p
        | some e => mapInsert m.savedIndex p e }
    | .ingestLua _ _ => m) x.store
  { x with store := store, journal := [] }

/-- Records that the delta journal may hold: delta_max (R126, R130; log entry 36). -/
def deltaMax : Nat := 2 ^ 20

/-- The next segment goes through a cipher unit, and is written when that has ended: the byte-serial unit, or a main pipe where that is out of service
(R181; log entry 49). -/
def State.sealSegment (s : State) (n : Nat) (d : MediaDesc) : State :=
  if (s.slice n).engDone .segment then (s.modSlice n fun x => x.endEngine .segment).writeSegment n d
  else if (s.slice n).engaged .segment then s
  else
    match [2, 0, 1].find? fun u => s.active (engineUnit n u) with
    | none => s
    | some u => (s.addWork n (engWork u 0 ownerDev none .segment none 0 (cipherBlocks 6144) 0)).2

/-- The checkpoint at a course boundary: the next segment in order, and more of them while the journal would exceed delta_max, through the
byte-serial unit, or a main pipe where that is out of service (R130). -/
def State.checkpoint (s : State) (n : Nat) : State :=
  match s.desc n with
  | none => s
  | some d =>
    if !s.formatted n || !s.cipherPath n || !s.ctrReady n (metaKey n) then s
    else
      let s := s.sealSegment n d
      if (s.slice n).journal.length ≤ deltaMax then s
      else (List.range ((s.segments n).1 + (s.segments n).2)).foldl (fun s _ =>
        if (s.slice n).journal.length ≤ deltaMax then s else s.writeSegment n d) s

/-- FT_EVAC_STS.PCT: the part of the LUN's bytes at the start of its evacuation that has moved (R138). -/
def State.evacProgress (s : State) (n : Nat) : State :=
  match (s.slice n).evacuating with
  | none => s
  | some lun =>
    let all := (s.slice n).evacBytes
    s.putF (Adr.ftEvacSts n) 23 16 (if all = 0 then 100 else 100 * (all - s.bytesOn n lun) / all)

/-- The hit rate of the table cache over the second that ends; without a lookup the spec gives none, and it is free (R131; log entry 4). -/
def State.cacheSecond (s : State) (n : Nat) : State :=
  if s.now % 256410 ≠ 0 ∨ !s.bit (Adr.ftSts n) 6 then s
  else
    let c := (s.slice n).store
    let r : Nat × State := if c.lookups = 0 then s.free else (100 * c.hits / c.lookups, s)
    (r.2.putF (Adr.ftMapcache n) 31 24 (r.1 % 101)).modSlice n fun x => { x with store := { x.store with hits := 0, lookups := 0 } }

/-! ### The rebuild (R129, R256) -/

/-- Step 1: the mapping and the index as the checkpoint holds them. -/
def Slice.loadCheckpoint (x : Slice) : Slice :=
  { x with
    map := x.store.saved.foldl (fun m q => mapPut m .unmapped q.1 (Entry.ofWord q.2)) [],
    index := x.store.savedIndex.foldl (fun m q => mapInsert m q.1 q.2) [] }

/-- A delta replayed. -/
def Slice.replayOne (x : Slice) : Delta → Slice
  | .switch i e => x.setEntry i e
  | .indexEntry p none => { x with index := mapErase x.index p }
  | .indexEntry p (some e) => { x with index := mapInsert x.index p e }
  | .ingestLua _ _ => x

/-- Step 2: the landed deltas replayed. -/
def Slice.replay (x : Slice) (l : List Delta) : Slice := l.foldl Slice.replayOne x

/-- Step 3: the units of superblocks that were open; of those whose key generation is current, the highest WSEQ of each LUA is its unit where the
mapping has an older one or none (R111, R129). -/
def State.scanHeaders (s : State) (n : Nat) : State :=
  let us := (s.slice n).units.filter fun u =>
    (((s.slice n).super u.sb).any fun sb => sb.state == .sopen) && (s.keySlot u.keySlot).generation == u.keyGen &&
      (s.ns u.nsid).isSome && headerOk u.header
  us.foldl (fun s u =>
    let i := s.indexOf n u.nsid u.lua
    match (s.slice n).unitAt ((s.slice n).entry i) with
    | some w => if w.wseq < u.wseq then s.modSlice n fun x => x.setEntry i u.entry else s
    | none => s.modSlice n fun x => x.setEntry i u.entry) s

/-- Every LUA allocated to an ingest that has no commit delta becomes UNMAPPED (R256). -/
def Slice.dropUncommitted (x : Slice) (l : List Delta) : Slice :=
  let kept := x.index.filter fun q => q.2.state == KeyState.live
  let used := (x.objects.filter fun o => kept.any fun q => q.2.record == o.1).flatMap fun o => o.2.recordLua :: o.2.luas
  let ls := l.filterMap fun r => match r with
    | .ingestLua _ i => if used.contains i then none else some i
    | _ => none
  ls.foldl (fun x i => x.setEntry i .unmapped) x

/-- Index entries and objects that the rebuilt mapping holds: keys that were not committed are FREE (R256, R258). -/
def Slice.keepStored (x : Slice) : Slice :=
  let stored (id : Nat) : Bool :=
    match mapGet x.objects id with
    | none => false
    | some o => (mapGet x.map o.recordLua).isSome || x.landed.any fun v => v.index == o.recordLua
  let index := x.index.filter fun q => q.2.state == KeyState.tomb || (q.2.state == KeyState.live && stored q.2.record)
  { x with index := index, objects := x.objects.filter fun o => index.any fun q => q.2.state == KeyState.live && q.2.record == o.1 }

/-- Open superblocks after a power loss: what was packed and not given to the flash is gone, pages that a program left are lost to their stripes
(R115, R129, R338). -/
def Slice.reopen (x : Slice) (d : MediaDesc) : Slice :=
  { x with supers := x.supers.map fun (sb : Superblock) =>
      if sb.state = .sopen then { sb with fill := sb.due * sb.pageBytes d } else sb }

/-- Landed versions go back into the buffer; their entries name it again (step 4 of R129). -/
def Slice.restoreLanded (x : Slice) : Slice :=
  x.landed.foldl (fun (x : Slice) (v : Version) =>
    let under := match x.newest v.index with
      | some w => w.under
      | none => x.entry v.index
    let w := { v with state := WbState.wopen, restored := true, trigger := false, attempts := 0, tried := [], under := under }
    { (x.setEntry v.index (.buffer v.wslot)) with versions := x.versions ++ [w] }) x

/-- Steps 1 to 4 of the rebuild: the checkpoint, the landed deltas, or where none landed the headers of open superblocks, the landed versions
(R129, R256; log entry 37). -/
def State.rebuildMap (s : State) (n : Nat) : State :=
  let s := s.modSlice n Slice.loadCheckpoint
  let s := match (s.slice n).store.landedDeltas with
    | some l => s.modSlice n fun x => (x.replay l).dropUncommitted l
    | none => s.scanHeaders n
  let s := s.modSlice n fun x => { (x.keepStored) with journal := (x.store.landedDeltas).getD [] }
  let s := match s.desc n with
    | none => s
    | some d => s.modSlice n fun x => x.reopen d
  s.modSlice n Slice.restoreLanded

/-- What stays of a slice through a package reset: what lies on flash. The buffer, the mapping, the contexts and everything in DRAM or in
the die's registers go; withdrawn media may return; superblocks whose blocks were not yet erased are free again, and a program that was cut
leaves its page lost (R129, R338, R381). -/
def Slice.powered (x : Slice) : Slice :=
  let bare (sb : Superblock) : Bool := x.working (.block sb.seq)
  { State.sliceReset with
    nextWslot := x.nextWslot, units := x.units, nextSb := x.nextSb, blocks := x.blocks,
    luns := x.luns.map fun (l : Lun) => { l with active := false, withdrawn := false, uncorrRun := 0, uncorrBlocks := [], timeouts := 0 },
    supers := (x.supers.filter fun sb => !bare sb).map fun (sb : Superblock) => { sb with lost := sb.lost ++ sb.waiting, waiting := [], verifyAt := 0 },
    landed := x.landed, landedAcked := x.landedAcked, spareRef := x.spareRef, goodBlocks := x.goodBlocks, metaBlocks := x.metaBlocks,
    metaLuns := x.metaLuns, reserve := x.reserve, parity := x.parity, lostSizes := x.lostSizes, relocs := x.relocs,
    store := { x.store with cache := [], hits := 0, lookups := 0 }, objects := x.objects,
    indexLog2 := x.indexLog2, muFmt := if x.formatting.isSome then none else x.muFmt }

end Sys2Proof.Machine
end

