-- ==== Sys2Proof/Machine/RecorderOps.lean ====
section
/-!
DEFINITION. Shared operations of the event recorder: its image and notice ring in NVM, and the end of a freeze
(R368 to R375).
-/

namespace Sys2Proof.Machine

/-- Store cycles of pages: each page named is written once more (R361). -/
def Nvm.wearPages (v : Nvm) (pages : List Nat) : Nvm :=
  { v with pageWear := pages.foldl (fun m p => mapPut m 0 p ((mapGet m p).getD 0 + 1)) v.pageWear }

/-- NOTICES_DROPPED raised, saturating (R372). -/
def State.dropNotice (s : State) : State :=
  s.modRec fun r => { r with dropped := min (2 ^ 64 - 1) (r.dropped + 1) }

/-- Is the notice one of an interval (R371)? -/
def Notice.interval (n : Notice) : Bool := n.kind == 1 || n.kind == 2 || n.kind == 0xB

/-- The last notice of the ring with the same KIND and SOURCE extended by an interval notice: its LAST moves and MERGED
rises, saturating (R372). Answers whether there was one; the list is newest first. -/
def mergeNotice (n : Notice) : List Notice → Bool × List Notice
  | [] => (false, [])
  | m :: l =>
    if m.kind = n.kind ∧ m.source = n.source then
      (true, { m with last := n.last, merged := min 0xFFFF (m.merged + 1) } :: l)
    else
      let r := mergeNotice n l
      (r.1, m :: r.2)

/-- An empty entry that fills a page of the notice ring (R371). -/
def noticeEmpty : Notice := { kind := 0, source := 0, merged := 0, minutes := 0, cycles := 0, first := 0, last := 0 }

/-- Notices written to the ring of 192 pages from a fresh page: whole pages of 128 entries, the oldest pages leave
(R372, R373). -/
def ringAdd (ring new : List Notice) : List Notice :=
  if new = [] then ring
  else
    let all := ring ++ new ++ List.replicate ((128 - new.length % 128) % 128) noticeEmpty
    all.drop (all.length - 24576)

/-- The waiting notices written: at most 512; of the rest interval notices are merged, any other is dropped (R372). -/
def State.flushNotices (s : State) : State :=
  let new := s.recorder.toWrite.take 512
  let rest := s.recorder.toWrite.drop 512
  let s := s.modNvm fun v => { v with notices := ringAdd v.notices new }
  let s := s.modRec fun r => { r with toWrite := [] }
  rest.foldl (fun s n =>
    let m := mergeNotice n s.nvm.notices.reverse
    if n.interval && m.1 then s.modNvm fun v => { v with notices := m.2.reverse } else s.dropNotice) s

/-- The live image: what the next write would store (R370, R374). -/
def State.liveImage (s : State) : RecImage :=
  { seq := ((s.nvm.image.map RecImage.seq).getD 0) + 1, minutes := s.nvm.minutes, cycles := s.nvm.cycles,
    missed := s.recorder.missed, dropped := s.recorder.dropped, series := s.recorder.series, counts := s.recorder.counts }

/-- The image written to the next slot of the image ring (R370, R373). -/
def State.writeImage (s : State) : State :=
  let im := s.liveImage
  let s := s.modNvm fun v =>
    { v.wearPages ((List.range 4).map fun k => 1472 + 4 * (im.seq % 16) + k) with image := some im }
  s.wr Adr.evImageSeq (BitVec.ofNat 32 im.seq)

/-- A signed value in n bytes, lowest first. -/
def leSigned (n : Nat) (v : Int) : List Byte := leBytes n (v.emod (2 ^ (8 * n))).toNat

/-- A series record of 512 bytes (R370). -/
def Series.bytes (x : Series) : List Byte :=
  (List.range 32).flatMap (fun k => leBytes 8 ((mapGet x.bins k).getD 0)) ++
    leSigned 4 (x.least.getD 0) ++ leSigned 4 (x.most.getD 0) ++
    leBytes 4 x.minStamp.1 ++ leBytes 4 x.minStamp.2 ++ leBytes 4 x.maxStamp.1 ++ leBytes 4 x.maxStamp.2 ++
    leBytes 8 x.samples ++ List.replicate 224 0

/-- The recorder image of 16 KiB with a given CRC field (R370). -/
def RecImage.bytesWith (im : RecImage) (crc : Nat) : List Byte :=
  leBytes 4 0x53464552 ++ leBytes 2 1 ++ leBytes 2 0 ++ leBytes 8 im.seq ++ leBytes 4 im.minutes ++ leBytes 4 im.cycles ++
    leBytes 8 im.missed ++ leBytes 8 im.dropped ++ leBytes 4 crc ++ List.replicate 20 0 ++
    im.series.flatMap Series.bytes ++
    (List.range 16).flatMap (fun k => leBytes 8 ((mapGet im.counts k).getD 0)) ++
    List.replicate 6976 0

/-- The recorder image as stored: the CRC covers the image with its own field zero (R370). -/
def RecImage.bytes (im : RecImage) : List Byte := im.bytesWith (crc32c (im.bytesWith 0)).toNat

/-- A notice of 32 bytes (R371). -/
def Notice.bytes (n : Notice) : List Byte :=
  leBytes 1 n.kind ++ leBytes 1 n.source ++ leBytes 2 n.merged ++ leBytes 4 n.minutes ++ leBytes 4 n.cycles ++
    leBytes 8 n.first ++ leBytes 8 n.last ++ leBytes 4 0

/-- What a minute boundary, and step 7 of a Dump, write of the recorder (R372, R373). -/
def State.writeRecorder (s : State) : State := (s.flushNotices).writeImage

/-- The freeze ends: the queued event samples apply (R374). -/
def State.thaw (s : State) : State :=
  if !s.frozen then s
  else
    let q := s.recorder.queued
    let s := (s.clrBit Adr.evSts 0).modRec fun r => { r with queued := [], thawAt := some s.now }
    let s := q.foldl (fun s e => s.event e) s
    if s.recorder.minuteDue then (s.modRec fun r => { r with minuteDue := false }).writeRecorder else s

/-- The recorder loaded at a start: the last valid image, and EV_MISSED, EV_IMAGE_SEQ and EV_NOTICES with it (R373). -/
def State.loadRecorder (s : State) : State :=
  match s.nvm.image with
  | none => s
  | some im =>
    let total := (im.counts.map (·.2)).sum
    let s := s.modRec fun r =>
      { r with series := im.series, counts := im.counts, missed := im.missed, dropped := im.dropped,
               noticeTotal := total }
    ((s.wr Adr.evMissed (BitVec.ofNat 32 (min 0xFFFFFFFF im.missed))).wr Adr.evImageSeq (BitVec.ofNat 32 im.seq)).wr
      Adr.evNotices (BitVec.ofNat 32 (min 0xFFFFFFFF total))

end Sys2Proof.Machine
end

