-- ==== Sys2Proof/Machine/PowerOps.lean ====
section
/-!
DEFINITION. Shared operations of supply, hold-up and control loops: signed Q16.16 arithmetic (R325), opening and closing
loops (R327), the energy figures (R329 to R336), hold-up modes, the Through override and entry into a Dump (R332 to
R337).
-/

namespace Sys2Proof.Machine

/-! ### Signed Q16.16 (R325), in units of 1/65,536; the flag says that an operation saturated -/

/-- A result brought into range. -/
def qSat (v : Int) : Int × Bool :=
  if 0x7FFFFFFF < v then (0x7FFFFFFF, true)
  else if v < -0x80000000 then (-0x80000000, true)
  else (v, false)

/-- A product, truncated toward zero, then saturated. -/
def qMul (a b : Int) : Int × Bool := qSat ((a * b).tdiv 65536)

/-- A sum, saturated. -/
def qAdd (a b : Int) : Int × Bool := qSat (a + b)

/-- A difference, saturated. -/
def qSub (a b : Int) : Int × Bool := qSat (a - b)

/-- A value limited to a range. -/
def qClamp (v lo hi : Int) : Int := if hi < v then hi else if v < lo then lo else v

/-! ### Modes and registers -/

/-- Hold-up modes (PW_STS.MODE). -/
def modeOff : Nat := 0
/-- CHARGE. -/
def modeCharge : Nat := 1
/-- FLOAT. -/
def modeFloat : Nat := 2
/-- RIDE. -/
def modeRide : Nat := 3
/-- DUMP. -/
def modeDump : Nat := 4
/-- DOWN. -/
def modeDown : Nat := 5

/-- The hold-up mode (R332). -/
def State.huMode (s : State) : Nat := s.fld Adr.pwSts 2 0

/-- Is hold-up unhealthy (R334)? -/
def State.unhealthy (s : State) : Bool := s.bit Adr.pwSts 4

/-- FLOAT_MV, clamped to 24,000 to 38,000 mV. -/
def State.floatMv (s : State) : Nat := max 24000 (min 38000 (s.fld Adr.pwHuVcfg 31 16))

/-- VMIN_MV. -/
def State.vminMv (s : State) : Nat := s.fld Adr.pwHuVcfg 15 0

/-- BAND in mV. -/
def State.bandMv (s : State) : Nat := 10 * s.fld Adr.pwHuTcfg 15 8

/-- The bank voltage in mV as last sampled. -/
def State.bankMv (s : State) : Nat := s.fld Adr.pwSenseV 15 0

/-- THR_X10; values below 10 act as 10. -/
def State.thrX10 (s : State) : Nat := max 10 (s.fld Adr.pwHuTcfg 7 0)

/-- DUMP_ARRAY; 0 acts as 1. -/
def State.dumpArray (s : State) : Nat := max 1 (s.fld Adr.pwHuFcfg 2 0)

/-- Volts of a millivolt figure as Q16.16. -/
def qOfMilli (n : Int) : Int := (n * 65536).tdiv 1000

/-! ### Loops (R326, R327) -/

/-- Is loop n closed? -/
def State.loopClosed (s : State) (n : Nat) : Bool := s.bit (Adr.pwLoopCtl n) 31

/-- Does loop n exist: LOOP_07 to LOOP_10 belong to slices 4 to 7 (R326)? -/
def State.loopExists (s : State) (n : Nat) : Bool :=
  decide (n < 16) && !(decide (3 ≤ n) && decide (n ≤ 10) && decide (s.part.slices ≤ n - 3))

/-- The pins follow LOOP_00's output; both are low in OFF and DOWN (R324). -/
def State.drivePwm (s : State) : State :=
  let u := s.q (Adr.pwLoopOut 0)
  let on := s.huMode != modeOff && s.huMode != modeDown
  { s with pins := { s.pins with
      pwmA := if on ∧ 0 < u then (u.toNat * 4096) / 65536 else 0,
      pwmB := if on ∧ u < 0 then ((-u).toNat * 4096) / 65536 else 0 } }

/-- A loop opens: its sink goes to a safe value, which its output register shows (R327). -/
def State.openLoop (s : State) (n : Nat) : State :=
  let s := s.clrBit (Adr.pwLoopCtl n) 31
  let sink := s.fld (Adr.pwLoopCtl n) 23 16
  if sink = 1 then (s.wrQ (Adr.pwLoopOut n) 0).drivePwm
  else if sink = 2 ∨ (0x20 ≤ sink ∧ sink ≤ 0x27) then s.wrQ (Adr.pwLoopOut n) (s.q (Adr.pwLoopOmin n))
  else s

/-- A loop closes on a measurement: the output goes on without a step (R327). -/
def State.closeLoop (s : State) (n : Nat) (m : Int) : State :=
  let s := s.setBit (Adr.pwLoopCtl n) 31
  let i := qClamp (s.q (Adr.pwLoopOut n)) (s.q (Adr.pwLoopOmin n)) (s.q (Adr.pwLoopOmax n))
  (s.wrQ (Adr.pwLoopInt n) i).modPower fun p =>
    { p with deriv := mapInsert p.deriv n 0, prev := mapInsert p.prev n m }

/-- KP, KI and KD of a loop; LOOP_01 takes the ride set in RIDE and DUMP (R326). -/
def State.gains (s : State) (n : Nat) : Int × Int × Int :=
  if n = 1 ∧ (s.huMode = modeRide ∨ s.huMode = modeDump) then
    (s.q Adr.pwRideKp, s.q Adr.pwRideKi, s.q Adr.pwRideKd)
  else (s.q (Adr.pwLoopKp n), s.q (Adr.pwLoopKi n), s.q (Adr.pwLoopKd n))

/-- The source of a loop's measurement; SUPPLY_V for LOOP_01 with the ride set (R326). -/
def State.loopSource (s : State) (n : Nat) : Nat :=
  if n = 1 ∧ (s.huMode = modeRide ∨ s.huMode = modeDump) then 3 else s.fld (Adr.pwLoopCtl n) 7 0

/-- The hold-up mode changed: LOOP_01's setpoint and set follow, its integrator preset so that its output stays
(R326, R332). -/
def State.setMode (s : State) (m : Nat) : State :=
  let was := s.huMode
  let s := (s.putF Adr.pwSts 2 0 m).modPower fun p => { p with modeAt := s.now }
  let ride (k : Nat) : Bool := k == modeRide || k == modeDump
  let s := s.wrQ (Adr.pwLoopSp 1) (if ride m then s.q Adr.pwRideSp else qOfMilli s.floatMv)
  let s := if ride m = ride was then s else
    let e := s.q (Adr.pwLoopSp 1) - s.q (Adr.pwLoopMeas 1)
    let d := (mapGet s.power.deriv 1).getD 0
    s.wrQ (Adr.pwLoopInt 1) (qSat (s.q (Adr.pwLoopOut 1) - (qMul (s.gains 1).1 e).1 - d)).1
  s.drivePwm

/-! ### Energy (R329 to R331, R336) -/

/-- Energy in joules that a bank of uf microfarads gives between two voltages in mV at an efficiency in %. -/
def bankEnergy (uf v vmin eta : Nat) : Rat :=
  if v < vmin then 0 else (uf * (v * v - vmin * vmin) * eta : Nat) / (200000000000000 : Rat)

/-- e_live (R331). -/
def State.eLive (s : State) : Rat := bankEnergy s.nvm.capUf s.bankMv s.vminMv (s.fld Adr.pwHuFcfg 15 8)

/-- e_use (R336). -/
def State.eUse (s : State) : Rat := bankEnergy s.nvm.capUf s.floatMv s.vminMv (s.fld Adr.pwHuFcfg 15 8)

/-- Flash channels of a slice that have a LUN in service: those that are READY (R146, R329). -/
def Slice.readyChannels (x : Slice) : Nat :=
  ((List.range 8).filter fun c => x.luns.any fun l => l.active && !l.withdrawn && lunCh l.lun == c).length

/-- t99 of slice n in ns (R329): the descriptor's maximum pSLC program time while fewer than 1,000 pSLC programs have been seen since the start,
then the measured percentile, which no command carries (log entry 12). -/
def State.pslcT99 (s : State) (n : Nat) (d : MediaDesc) : Nat :=
  if (s.slice n).flash.pslcSeen < 1000 then (d.tProgMax[0]?).getD 0 else Config.pslcT99 n s.now

/-- The flush rate of slice n in bytes a second (R329). -/
def State.flushRate (s : State) (n : Nat) : Rat :=
  match s.desc n with
  | none => 0
  | some d =>
    let t : Nat := s.pslcT99 n d
    if t = 0 then 0
    else ((s.slice n).readyChannels * s.dumpArray * d.cwPerPage .pslc 0 * 4096 * 1000000000 : Nat) / (t : Rat)

/-- The flush rate of slice n that the last hourly computation kept. -/
def State.rateOf (s : State) (n : Nat) : Nat := (mapGet s.power.sliceRates n).getD 0

/-- The flush rates computed and kept, and PW_HU_RATE in MB/s (R329). -/
def State.takeRates (s : State) : State :=
  let rs := s.sliceList.map fun n => (n, (s.flushRate n).floor.toNat)
  (s.modPower fun p => { p with sliceRates := rs }).wr Adr.pwHuRate (BitVec.ofNat 32 ((rs.map (·.2)).sum / 1000000))

/-- t_fix in seconds: the longest erase of the online slices' descriptors and 1 ms (R331). -/
def State.tFix (s : State) : Rat :=
  let t := (s.sliceList.filterMap s.desc).foldl (fun m d => d.tBersMax.foldl max m) 0
  (t : Nat) / (1000000000 : Rat) + 1 / 1000

/-- need in joules for given buffered bytes of each slice (R331). -/
def State.needOf (s : State) (used : Nat → Nat) : Rat :=
  let worst := (s.sliceList.filter s.sliceUp).foldl (fun (m : Rat) n =>
    let r := s.rateOf n
    if r = 0 then m else max m ((used n + 50331648 : Nat) / (r : Rat))) 0
  (worst + s.tFix) * (s.fld Adr.pwHuFcfg 31 16 : Rat)

/-- need now (R331). -/
def State.need (s : State) : Rat := s.needOf s.wbUsed

/-- Does the bank hold the threshold energy (R331, R332)? -/
def State.enough (s : State) : Bool := decide (s.need * (s.thrX10 : Rat) / 10 ≤ s.eLive)

/-- CEIL_MIB: the largest occupancy whose need the bank covers, at most SIZE (R333). -/
def State.ceilMib (s : State) : Nat :=
  let size := s.fld Adr.pwHuWb 15 0
  let w := s.fld Adr.pwHuFcfg 31 16
  if w = 0 then size
  else
    let t := s.eLive * 10 / ((s.thrX10 * w : Nat) : Rat) - s.tFix
    (s.sliceList.filter s.sliceUp).foldl (fun m n =>
      min m ((t * (s.rateOf n : Rat) - 50331648) / 1048576).floor.toNat) size

/-- The size in MiB that the stored capacitance supports (R336); a bank that nothing drains supports the cap. -/
def State.sizeMib (s : State) : Nat :=
  let w := s.fld Adr.pwHuFcfg 31 16
  if w = 0 then 1024
  else
    let pkg := s.eUse / (w : Rat) * ((s.sliceList.map s.rateOf).sum : Rat) / 2
    min 1024 (pkg / (s.part.slices : Rat) / 1048576).floor.toNat

/-- The buffer of every present slice sized again: a decrease at once, every WBQ in the same proportion, an increase only after a measurement (R80,
R336). -/
def State.resizeBuffers (s : State) (measured : Bool) : State :=
  let n := s.sizeMib
  let old := s.fld Adr.pwHuWb 15 0
  let s := s.wr Adr.pwHuEuseMj (BitVec.ofNat 32 (s.eUse * 1000).floor.toNat)
  let s := if n < old then s.mapTenants fun t => { t with wbq := t.wbq * n / old } else s
  if n < old ∨ measured then (s.sliceList.foldl (fun s k => s.sizeBuffer k n) (s.putF Adr.pwHuWb 15 0 n)) else s

/-! ### The Through override (R19, R334, R335) -/

/-- Is hold-up armed (R335)? -/
def State.armed (s : State) : Bool :=
  s.bit Adr.pwHuCtl 0 && s.nvm.capUf != 0 && !s.unhealthy &&
    (s.huMode == modeCharge || s.huMode == modeFloat || s.huMode == modeRide)

/-- ARMED and THROUGH evaluated; the override lifts only at a supervisor step (R335). -/
def State.evalArmed (s : State) (atStep : Bool) : State :=
  let need := !s.armed || s.power.throughPending
  let s := s.putBit Adr.pwSts 3 s.armed
  if need then s.setBit Adr.pwSts 5 else if atStep then s.clrBit Adr.pwSts 5 else s

/-- Does any buffer hold an acknowledged version? -/
def State.anyAcked (s : State) : Bool := s.slices.any fun x => x.versions.any fun v => !v.acked.isEmpty

/-- Hold-up declared unhealthy: mode OFF, or a Dump to come when it rides; Through for every namespace (R332, R334). -/
def State.declareUnhealthy (s : State) (cause : Nat) : State :=
  if s.unhealthy then s
  else
    let s := ((s.setBit Adr.pwSts 4).putF Adr.pwHuSts 31 28 cause).setBit Adr.pwEvt 3
    let s := (s.openInterval 2 cause).modPower fun p =>
      { p with throughPending := true, measuring := false, unhealthyOpen := some cause }
    let s := if s.huMode = modeRide then s.modPower fun p => { p with dumpReason := 5 }
      else if s.huMode = modeCharge ∨ s.huMode = modeFloat then s.setMode modeOff
      else s
    s.evalArmed false

/-! ### Power states (R344, R345) -/

/-- The power cap in watts of the selected operational state (R18, R344). -/
def State.capWatts (s : State) : Nat :=
  match s.fld Adr.pwSts 18 16 with
  | 1 => min 180 s.part.powerW
  | 2 => min 100 s.part.powerW
  | _ => s.part.powerW

/-- LOOP_02's setpoint, which the device writes: the cap less its margin (R326). -/
def State.capSetpoint (s : State) : State :=
  s.wrQ (Adr.pwLoopSp 2) ((s.capWatts * 65536 * (100 - s.fld Adr.pwPstCfg 15 8) / 100 : Nat) : Int)

/-! ### Dump (R337, R338) -/

/-- Is a Dump running or over: from the entry into DUMP? -/
def State.dumping (s : State) : Bool := s.huMode == modeDump || s.huMode == modeDown

/-- A scheduler with its work discarded (R243, R337). -/
def Cluster.cleared (c : Cluster) : Cluster :=
  { State.clusterEmpty with portStatus := c.portStatus, portResult := c.portResult }

/-- A host DMA channel whose transfer ended. -/
def HdCh.ended (c : HdCh) : HdCh := { c with cur := none, lost := false }

/-- Steps 1 and 2 of a Dump: fetch stops, what is not complete is discarded, course-bounded work ends, open ingests and
invocations go (R337). A Store under way does not complete (R364). -/
def State.stopWork (s : State) : State :=
  let s := s.modPower fun p => { p with stopped := true }
  let s := { s with
    inflight := s.inflight.filter fun x => (x.phase == Phase.dispatched) && x.conds.isEmpty,
    deferred := [], invocations := [], storeHdr := none, storeNext := [], parks := [], hdQueue := [], digestWaits := [],
    digests := [], hd := s.hd.map HdCh.ended }
  let s := s.mapSlices fun x =>
    { x.dropIngests with clusters := x.clusters.map Cluster.cleared, engineOps := [], contexts := [],
                         flash := { x.flash with works := x.flash.works.filter fun w => w.stage != .queued } }
  s.clrBit Adr.nvStoreSts 31

/-- Entry into DUMP at a supervisor step (R332, R337, R369, R371, R374). -/
def State.enterDump (s : State) (reason : Nat) : State :=
  let s := s.thaw
  let s := s.event (.sample 0xA (s.eLive * 1000).floor)
  let s := s.closeAllIntervals
  let s := (s.setMode modeDump).modPower fun p =>
    { p with dumpReason := reason, dumpAt := s.now, measuring := false }
  let s := s.inc Adr.pwDumpCnt
  let s := s.modNvm fun v => { v with dumpBegun := true, dumpMark := false, dumpCnt := v.dumpCnt + 1 }
  (s.stopWork).evalArmed false

end Sys2Proof.Machine
end

