-- ==== Sys2Proof/Machine/StartOps.lean ====
section
/-!
DEFINITION. Shared operations of the start: measurement (R317, R319), package reset (R6), start attempts and their history
(R348 to R358), minimal mode (R358, R359) and the steps of the start sequence.
-/

namespace Sys2Proof.Machine

/-! ### Measurement registers (R317, R319) -/

/-- The 48 bytes of a digest, byte 0 lowest (MS_VAL). -/
def digestBytes (d : Digest384) : List Byte := leBytes 48 d.toNat

/-- An extend: the register's new value and a log entry, dropped when the log is full (R317, R319). -/
def State.extend (s : State) (ix source : Nat) (d : Digest384) : State :=
  let v := Config.sha384 (digestBytes ((s.meas[ix]?).getD 0) ++ digestBytes d)
  let e : MeasLog := { index := ix, source := source, seq := s.measSeq, course := s.now, digest := d }
  let s := { s with meas := modAt s.meas ix (fun _ => v), measSeq := s.measSeq + 1 }
  let s := s.setBit Adr.msEvt 0
  if s.measLog.length < 1024 then
    let s := { s with measLog := s.measLog ++ [e] }
    s.putF Adr.msSts 26 16 s.measLog.length
  else ((s.inc Adr.msLogLost).clrBit Adr.msSts 31).setBit Adr.msEvt 1

/-- The extends of MEAS_01 to MEAS_05 for an image (R307, R308): header, HUB_FW, SLICE_FW, CONFIG and MEDIA, KEYS. -/
def State.extendImage (s : State) (im : SeedImage) (source : Nat) : State :=
  let d (k : Nat) : Digest384 := (im.sectionDigests[k]?).getD 0
  let s := ((s.extend 1 source im.headerDigest).extend 2 source (d 0)).extend 3 source (d 1)
  (((s.extend 4 source (d 2)).extend 4 source (d 3)).extend 5 source (d 4))

/-- The state record's digest into MEAS_06: slot, slots rejected, SVN floor, JTAG access, start mode (R317). -/
def State.extendMode (s : State) (minimal : Bool) : State :=
  s.extend 6 0 (Config.recordDigest 2
    ([s.start.slot, s.nvm.svnFloor, s.fld Adr.tcSts 1 0, bit01 minimal] ++ s.start.rejects))

/-! ### Attempts (R354 to R357) -/

/-- The end cause of the open attempt written as soon as it is known; the first one stands (R354). -/
def State.noteEnd (s : State) (cause : Nat) : State :=
  s.modNvm fun v => { v with
    attempt := v.attempt.map fun e => if e.cause = 1 then { e with cause := cause } else e }

/-- The open attempt ends: its entry is written, newest first of 32 (R357); a counted failure sets LAST_CAUSE and
LAST_STAGE and is noticed (R354, R371). -/
def State.closeAttempt (s : State) : State :=
  match s.nvm.attempt with
  | none => s
  | some e =>
    let s := s.modNvm fun v => { v with history := (e :: v.history).take 32, attempt := none }
    if e.minimal || e.cause == 0 || e.cause == 6 then s
    else
      let s := s.modNvm fun v => { v with lastCause := e.cause, lastStage := e.stage }
      s.notice 7 e.cause e.cycle 0

/-- ST_STS.STAGE set; the attempt keeps the highest stage reached (R348, R357). -/
def State.setStage (s : State) (k : Nat) : State :=
  (s.putF Adr.stSts 2 0 k).modNvm fun v => { v with
    attempt := v.attempt.map fun e => { e with stage := max e.stage k } }

/-! ### Package reset (R6) -/

/-- NVM as a package reset leaves it: the session slots are EMPTY, and a slot that was RETIRING is ACTIVE (R184, R418). -/
def Nvm.atReset (v : Nvm) : Nvm :=
  { v with keys := v.keys.map fun p =>
      if 4121 ≤ p.1 ∧ p.1 ≤ 4160 then (p.1, { p.2 with state := .empty, key := 0 })
      else if p.2.state = .retiring then (p.1, { p.2 with state := .active })
      else p }

/-- A namespace through a package reset: attachments to instances come back with the stored configuration (R75). -/
def Namespace.powered (x : Namespace) : Namespace := { x with attachedTis := [] }

/-- Package reset: every register, queue and memory that is not on flash or in on-chip NVM takes its reset value (R6). -/
def State.packageReset (s : State) : State :=
  { State.reset with
    part := s.part, pins := { s.pins with pwmA := 0, pwmB := 0, wpN := [] },
    namespaces := s.namespaces.map Namespace.powered, slices := s.slices.map Slice.powered, order := s.order,
    nvm := s.nvm.atReset, fresh := s.fresh, pending := s.pending }

/-! ### Steps 1 and 2 (R348, R353, R354, R358) -/

/-- The image of a slot. -/
def State.slotImage (s : State) (k : Nat) : Option SeedImage := (s.nvm.flash[k]?).getD none

/-- The first of steps 1 to 5 of R304 that an image fails; none when all pass. -/
def State.headerFails (s : State) (im : SeedImage) : Option Nat :=
  if !(im.magicOk && decide (im.imageLen ≤ 64 * 2 ^ 20)) then some 1
  else if !im.keyHashOk then some 2
  else if !im.signatureOk then some 3
  else if !(im.parts.getLsbD (s.part.code - 1) && decide (s.nvm.svnFloor ≤ im.svn)) then some 4
  else if !im.tableOk then some 5
  else none

/-- Is the whole image of a slot valid (R304)? -/
def State.slotValid (s : State) (k : Nat) : Bool :=
  match s.slotImage k with
  | none => false
  | some im => (s.headerFails im).isNone && im.sectionsOk

/-- Does the header of a slot pass steps 1 to 5 (R304)? -/
def State.slotHeader (s : State) (k : Nat) : Bool :=
  match s.slotImage k with
  | none => false
  | some im => (s.headerFails im).isNone

/-- A slot rejected at a step of R304, for the state record (R317). -/
def State.reject (s : State) (k : Nat) : State :=
  let step := match s.slotImage k with
    | none => 1
    | some im => (s.headerFails im).getD 6
  s.modStart fun t => { t with rejects := t.rejects ++ [8 * k + step] }

/-- The slot record written (R352). -/
def State.putSlots (s : State) (r : SlotRecord) : State := s.modNvm fun v => { v with slots := r, stateValid := true }

/-- The slot that the ROM boots, and whether it is a trial (R353). -/
def State.pickSlot (s : State) : State × Nat × Bool :=
  let r := s.nvm.slots
  match r.next with
  | none => (s, r.active, false)
  | some n =>
    if r.tried then
      ((s.putSlots { r with next := none, tried := false }).setBit Adr.stEvt 0,
        if n = r.active then 1 - r.active else r.active, false)
    else (s.putSlots { r with tried := true }, n, true)

/-- Minimal mode: Gen1 x1 on port 0, no course, no slice (R358, R359). -/
def State.enterMinimal (s : State) (reason : Nat) : State :=
  let s := { s with dual := false, ctrls := [], inflight := [] }
  let s := ((s.setBit Adr.stSts 7).putF Adr.stStartReason 7 0 reason).modNvm fun v => { v with
    attempt := v.attempt.map fun e => { e with minimal := true } }
  (s.extendMode true).notice 8 reason 0 0

/-- The slot that starts: its header fixes port mode and identity (R349). -/
def State.bootSlot (s : State) (k : Nat) (trial : Bool) : State :=
  match s.slotImage k with
  | none => s
  | some im =>
    let s := s.modStart fun t => { t with slot := k, trial := trial, svn := im.svn, commitSvn := im.commitSvn }
    let s := s.modNvm fun v => { v with attempt := v.attempt.map fun e => { e with slot := k, trial := trial } }
    (s.putBit Adr.stSts 10 (k == 1)).putBit Adr.stSts 11 trial

/-- How the previous power-on ended, for series 0x11 (R369). -/
def Nvm.endedHow (v : Nvm) : Nat :=
  if v.lastEnd = 7 then 7 else if v.dumpBegun && !v.dumpMark then 6 else v.lastEnd

/-- The start attempt opens: c is read, and c + 1 written if c < 3 (R354). -/
def State.openAttempt (s : State) (c : Nat) : State :=
  let s := s.modStart fun t => { t with readFail := c }
  s.modNvm fun v => { v with
    failCnt := if c < 3 then c + 1 else c,
    attempt := some { cycle := v.cycles, minutes := v.minutes, slot := 0, trial := false, minimal := false,
                      activation := false, stage := 0, cause := 1, failCnt := c, tLinkUs := 0,
                      tReadyMs := 0xFFFFFFFF } }

/-- The header checks of step 2 on the chosen slot, then on the other; with neither, NO_IMAGE with c written back
(R306, R348, R355). -/
def State.chooseImage (s : State) (c : Nat) : State :=
  let p := s.pickSlot
  let s := p.1
  let k := p.2.1
  let go (s : State) (j : Nat) (trial : Bool) : State :=
    let s := (s.bootSlot j trial).setStage 1
    { s with dual := (s.image.map SeedImage.portDual).getD false }
  if s.slotHeader k then go s k p.2.2
  else
    let s := s.reject k
    if s.slotHeader (1 - k) then go s (1 - k) false
    else ((s.reject (1 - k)).modNvm fun v => { v with failCnt := c }).enterMinimal 2

/-- Steps 1 and 2 of the start sequence (R348). -/
def State.beginStart (s : State) : State :=
  let s := s.loadRecorder
  let s := s.closeAttempt
  let s := s.modNvm fun v => { v with cycles := v.cycles + 1 }
  let s := (s.record 0x11 s.nvm.endedHow).modNvm fun v => { v with lastEnd := 0 }
  let s := s.putKey 4096 { state := .active, use := 3, generation := 1, key := 0, retireAt := 0 }
  let s := (s.putF Adr.stStartReason 23 16 s.nvm.lastCause).putF Adr.stStartReason 10 8 s.nvm.lastStage
  let s := (s.extend 0 0 (Config.recordDigest 0 [])).extend 0 0
    (Config.recordDigest 1 [s.nvm.svnFloor, s.part.code])
  let c := s.nvm.failCnt
  if !s.nvm.stateValid then
    ((s.openAttempt 3).modNvm fun v => { v with
      failCnt := 3, slots := { active := 0, next := none, tried := false } }).enterMinimal 4
  else if 3 ≤ c then (s.openAttempt c).enterMinimal 1
  else (s.openAttempt c).chooseImage c

/-- Is the package held in reset: RESET_N low, no power, or a boundary-scan instruction (R386, R406)? -/
def State.held (s : State) : Bool := !s.pins.resetN || !s.pins.powered || s.pins.jtagHold

/-- A package reset that the package performs itself, and the start that follows it (R340, R351, R385). -/
def State.restart (s : State) (cause : Nat) : State :=
  let s := (s.noteEnd cause).packageReset
  if s.held then s else s.beginStart

/-! ### Step 4 to 6 (R348, R366) -/

/-- A configuration value applied to a register's RW fields; an absent unit is ignored (R366). -/
def State.applyField (s : State) (q : Nat × Word) : State :=
  match rowOf s.part q.1 with
  | none => s
  | some r =>
    let m := BitVec.ofNat 32 r.rw
    s.wr q.1 ((s.rd q.1 &&& ~~~m) ||| (q.2 &&& m))

/-- The Store record of the current bank, or of the other where that one's CRC fails (R363, R366). -/
def Nvm.record (v : Nvm) : Option StoreRecord :=
  let ok (r : Option StoreRecord) : Option StoreRecord := r.filter StoreRecord.intact
  if v.bank = 0 then (ok v.store0).or (ok v.store1) else (ok v.store1).or (ok v.store0)

/-- Does the start leave a stored record out: of a later layout version than the image accepts, or two banks that fail their CRC (R366)? -/
def State.recordLost (s : State) : Bool :=
  match s.nvm.record with
  | none => s.nvm.store0.isSome && s.nvm.store1.isSome
  | some r => decide ((s.image.map SeedImage.layout).getD 0 < r.layout)

/-- The record that the start applies (R366). -/
def State.applied (s : State) : Option StoreRecord := if s.recordLost then none else s.nvm.record

/-- The configuration of the hub blocks or of the slice blocks applied: seed CONFIG, then the record (R366). -/
def State.applyConfig (s : State) (slices : Bool) : State :=
  let own (q : Nat × Word) : Bool := decide (0x1000000 ≤ q.1) == slices
  let seed := (s.image.map SeedImage.seedConfig).getD []
  let rec_ := (s.applied.map StoreRecord.fields).getD []
  ((seed ++ rec_).filter own).foldl (fun s q => s.applyField q) s

/-- The bond and weight tables of the record, in both banks, with CK_DEVWGT and CK_DEVWGT_H (R366). The record names cells
by their active address; the shadow bank lies 0x6000 (cells) or 0x800 (weights) above it. -/
def State.applyBond (s : State) : State :=
  match s.applied with
  | none => s
  | some r =>
    let s := r.bond.foldl (fun s q =>
      if q.1 < 0x91000 then s.wr q.1 q.2
      else (s.wr q.1 q.2).wr (q.1 + (if 0x92000 ≤ q.1 then 0x6000 else 0x800)) q.2) s
    s.modCourse fun c => { c with devwgt := s.rd Adr.ckDevwgt, devwgtH := s.rd Adr.ckDevwgtH }

/-- Every key context starts at P + 2^20 and waits for the first group store (R172). -/
def State.startCounters (s : State) : State :=
  let slots := (s.nvm.keys.filter fun q => !(q.2.state == .empty)).map (·.1)
  s.sliceList.foldl (fun s n =>
    let cs := slots.map fun k => ({ slot := k, ctr := BitVec.ofNat 64 (s.ctrP n k + 2 ^ 20), waiting := true } : KeyCtr)
    s.modSlice n fun x => { x with counters := cs }) s

/-- A slice released, its overrides applied (step 6 of R348). -/
def Slice.release (x : Slice) : Slice := { x with mode := .released }

/-- Every search array, an absent one too (R222), starts as one partition, INDEX_POOL (R209; log entry 15). -/
def State.startArrays (s : State) : State :=
  s.sliceList.foldl (fun s n => [0, 1].foldl (fun s r => s.wr (Adr.asPart n r 0) (BitVec.ofNat 32 (2 ^ 29 + 32 * 2 ^ 8))) s) s

/-- The flash channels of a slice begin their discovery, with no descriptor matched (step 1 of R146). -/
def State.startDiscovery (s : State) (n : Nat) : State :=
  let s := (List.range 8).foldl (fun s j => s.putF (Adr.flChSts n j) 2 0 1) s
  (s.putF (Adr.flSts n) 1 0 1).putF (Adr.flSts n) 26 24 7

/-- The slices of the part are released, their flash channels in DISCOVERY, and STAGE is SLICES; the course generator runs (R146, step 6 of
R348). -/
def State.releaseSlices (s : State) : State :=
  let s := s.modCourse fun c => { c with running := true, count := 0 }
  let s := (s.applyConfig true).startArrays
  (s.sliceList.foldl (fun s n => (s.modSlice n Slice.release).startDiscovery n) s).setStage 3

/-- The synchronisation state at the start of the course generator: a follower waits (R37, R38; step 6 of R348). -/
def State.startCourse (s : State) : State :=
  match s.fld Adr.ckSyncCtl 1 0 with
  | 1 => (s.putF Adr.ckSyncSts 2 0 1).releaseSlices
  | 2 => s.putF Adr.ckSyncSts 2 0 2
  | _ => (s.putF Adr.ckSyncSts 2 0 0).releaseSlices

/-- NVM values that registers show from step 5 on (R330, R362). -/
def State.loadNvmRegs (s : State) : State :=
  let v := s.nvm
  let w (n : Nat) : Word := BitVec.ofNat 32 (min 0xFFFFFFFF n)
  let s := ((s.wr Adr.pwHuCapUf (w v.capUf)).putF Adr.pwHuEsr 15 0 v.esrMohm).putF Adr.pwHuSts 23 20 v.lastDump
  ((s.wr Adr.pwSagCnt (w v.sagCnt)).wr Adr.pwRideCnt (w v.rideCnt)).wr Adr.pwDumpCnt (w v.dumpCnt)

/-- LOOP_00 to LOOP_10 of the present slices close (step 5 of R348, R327). -/
def State.closeLoops (s : State) : State :=
  ((List.range 11).filter s.loopExists).foldl (fun s n => s.closeLoop n (s.q (Adr.pwLoopMeas n))) s

/-- Step 5: hub firmware loads NVM, applies the configuration, measures it, and starts hold-up (R348, R366). -/
def State.hubStart (s : State) : State :=
  let s := match s.image with
    | none => s
    | some im => s.wr Adr.hubFwLevel (BitVec.ofNat 32 im.fwLevel)
  let s := (s.loadNvmRegs).startCounters
  let s := (s.wr Adr.ksRing (BitVec.ofNat 32 s.nvm.ringPage)).wr64 Adr.ksStoresLo s.nvm.ringStores
  let s := if s.entropyOk then s.setBit Adr.ksSts 2 else s
  let s := ((s.applyConfig false).applyBond).putBit Adr.nvSts 1 s.applied.isSome
  let s := if s.recordLost then ((s.setBit Adr.nvSts 0).setBit Adr.nvEvt 2).notice 9 0 0 0 else s
  let s := s.extend 7 1 (Config.recordDigest 3 ((s.applied.map fun r => [r.seq]).getD []))
  let s := (s.capSetpoint).closeLoops
  let s := (s.takeRates).resizeBuffers true
  let s := if s.bit Adr.pwHuCtl 0 && !s.unhealthy && !s.power.sag then
      (s.setMode modeCharge).modPower fun p => { p with chargeAt := s.now }
    else s
  (s.evalArmed true).startCourse

/-- Step 4: the image is valid; its measurements are committed and hub firmware runs (R307, R348). -/
def State.imageValid (s : State) : State :=
  match s.image with
  | none => s
  | some im => ((((s.extendImage im 0).extendMode false).modStart fun t => { t with verified := true, fwRev := some im.fwRev }).setStage 2).hubStart

/-- Step 6 of R304 ends: the chosen slot, else the other, or minimal mode with reason SECTION and the link down (R349). -/
def State.imageVerified (s : State) : State :=
  if s.stage ≠ 1 ∨ s.minimal then s
  else
    let k := s.start.slot
    if s.slotValid k then s.imageValid
    else
      let s := s.reject k
      if s.slotValid (1 - k) then (s.bootSlot (1 - k) false).imageValid
      else
        let s := (s.reject (1 - k)).modNvm fun v => { v with failCnt := s.start.readFail }
        let s := { s with links := s.links.map fun _ => State.linkDown }
        let s := ((s.noteEnd 5).enterMinimal 3)
        s.closeAttempt

/-! ### Step 8 (R348, R350) -/

/-- May the controller report ready: the package is READY, and its instance serves (R74, R348, R359)? -/
def State.mayServe (s : State) (c : Nat) : Bool :=
  s.ctrlExists c && (s.minimal || decide (6 ≤ s.stage)) && !s.power.stopped && !s.start.switching &&
    (isPf c ||
      match s.tiState (ctrlFn c - 1) with
      | .absent => false
      | .offline => false
      | _ => true)

/-- CSTS.RDY of every enabled controller that may serve (R348). -/
def State.evalReady (s : State) : State :=
  { s with ctrls := s.ctrls.map fun k => if k.en ∧ s.mayServe k.id then { k with rdy := true } else k }

/-- Has every present slice ended its rebuild, gone offline or been passed over as late? -/
def State.allRebuilt (s : State) : Bool :=
  s.sliceList.all fun n =>
    match (s.slice n).mode with
    | .online => true
    | .offline => true
    | .late => true
    | _ => false

/-- STAGE = TENANTS, then READY: the tenant configuration waits for the next bond period boundary; the time to READY is not
counted by anything the commands carry, so it is a free value (R75, R348; log entries 4 and 13). -/
def State.reachReady (s : State) : State :=
  if s.stage < 3 ∨ 6 ≤ s.stage ∨ !s.allRebuilt then s
  else
    let s := ((s.setStage 5).setStage 6).setBit Adr.stEvt 1
    let f := s.free
    let s := f.2.wr Adr.stTReadyMs (BitVec.ofNat 32 f.1)
    let s := s.modNvm fun v => { v with
      attempt := v.attempt.map fun e => { e with tReadyMs := f.1 % 2 ^ 32 }, dumpBegun := false, dumpMark := false }
    (s.modStart fun t => { t with readyAt := some s.now, restore := true }).evalReady

/-! ### Trials and success (R352 to R355) -/

/-- R355: the count clears, the slot record is updated, the SVN floor rises, the entry is appended. -/
def State.startSuccess (s : State) : State :=
  if s.minimal ∨ s.stage ≠ 6 then s
  else
    let s := (s.setStage 7).setBit Adr.stEvt 2
    let s := s.modNvm fun v => { v with
      failCnt := 0, slots := { active := s.start.slot, next := none, tried := false },
      svnFloor := if s.start.commitSvn then max v.svnFloor s.start.svn else v.svnFloor,
      attempt := v.attempt.map fun e => { e with cause := 0 } }
    s.closeAttempt

end Sys2Proof.Machine
end

