-- ==== Sys2Proof/Machine/BondOps.lean ====
section
/-!
DEFINITION. Shared operations of the bond table: weights, admitted capacity and the commit check (R30 to R35, R342).
-/

namespace Sys2Proof.Machine

/-! ### Admitted capacity (R342) -/

/-- The admit output of a loop whose sink is an admit: PKG_ADMIT, or SLICE_ADMIT of the slice (R326, R342). -/
def State.admitOf (s : State) (loop n : Nat) : Option Int :=
  if !s.loopExists loop then none
  else
    let sink := s.fld (Adr.pwLoopCtl loop) 23 16
    if sink = 2 ∨ sink = 0x20 + n then some (s.q (Adr.pwLoopOut loop)) else none

/-- A: the admitted capacity of the regions of slice n, Q16.16 (R342). -/
def State.admitted (s : State) (n : Nat) : Int :=
  ((List.range 16).filterMap fun k => s.admitOf k n).foldl min 65536

/-- W as the admitted capacity gives it (R342). -/
def State.withheldNow (s : State) (n : Nat) : Nat :=
  let a := max 0 (s.admitted n)
  min 64 (((65536 - a) * 64 + 65535) / 65536).toNat

/-- What the course that begins withholds in every slice (R342). -/
def State.turnCuts (s : State) : State :=
  s.modCourse fun c => { c with cuts := (s.sliceList.map fun n => (n, s.withheldNow n)).filter fun p => p.2 != 0 }

/-- Sixty-fourths of SLOT capacity withheld in a cell: what is left after pool, DEVICE and TEST capacity (R342). -/
def slotWithheld (w : Word) (withheld : Nat) : Nat :=
  let slot (e : Nat) : Nat := if entKind e = 1 then entShare e else 0
  withheld - (64 - slot (entryA w) - slot (entryB w))

/-! ### The commit check (R35) -/

/-- What the check needs of an instance: is it Sealed at the boundary, has it attached namespaces, its LUN sets. -/
structure BondTi where
  ti : Nat
  isSealed : Bool
  attached : Bool
  lunsets : Nat
  deriving DecidableEq, Repr

/-- Is region g of an absent or offline region (R35, R382)? -/
def State.regionOut (s : State) (g : Nat) : Bool :=
  !s.hasSlice (g / 2) || (s.slice (g / 2)).mode == SliceMode.offline || (s.fenceOf (UnitId.region (g / 2) (g % 2))).isSome

/-- BAD_SHARE of an entry (R30, R35). -/
def badShare (row e : Nat) : Bool :=
  (entKind e != 1 && entOwner e != 0) || (entKind e != 0 && row < 64 && row % 4 == 3 && entRaw e % 4 != 0)

/-- A verdict with no instance. -/
def verdictAt (result cell : Nat) : Verdict := { result := result, cell := cell, ti := 0, tiValid := false }

/-- A verdict that names the owner of a SLOT entry. -/
def verdictOf (result cell e : Nat) : Verdict :=
  if entKind e = 1 then { result := result, cell := cell, ti := entOwner e, tiValid := true } else verdictAt result cell

/-- A verdict that names the owner of the cell's first SLOT entry. -/
def verdictFirst (result cell : Nat) (w : Word) : Verdict :=
  if entKind (entryA w) = 1 then verdictOf result cell (entryA w) else verdictOf result cell (entryB w)

/-- The cell-level tests of one cell, in the order of R35. -/
def State.checkCell (s : State) (tis : List BondTi) (i : Nat) : Option Verdict :=
  let w := s.shadowCell i
  let row := i % 65
  let a := entryA w
  let b := entryB w
  let notSealed (e : Nat) : Bool := entKind e == 1 && !(tis.any fun t => t.ti == entOwner e && t.isSealed)
  if w = 0 then none
  else if badShare row a then some (verdictOf 4 i a)
  else if badShare row b then some (verdictOf 4 i b)
  else if notSealed a then some (verdictOf 3 i a)
  else if notSealed b then some (verdictOf 3 i b)
  else if row < 64 ∧ s.regionOut (row / 4) ∧ (entKind a ≠ 0 ∨ entKind b ≠ 0) then some (verdictFirst 7 i w)
  else if 64 < entShare a + entShare b then some (verdictFirst 2 i w)
  else none

/-- NONE and DEVICE capacity of a row over the 64 courses, in 4,096ths (R35). -/
def State.deviceShare (s : State) (row : Nat) : Nat :=
  ((List.range 64).map fun c =>
    let w := s.shadowCell (cellIx c row)
    let take (e : Nat) : Nat := if entKind e = 1 ∨ entKind e = 3 then entShare e else 0
    64 - min 64 (take (entryA w) + take (entryB w))).sum

/-- Does an instance hold a SLOT in a row of the shadow bank? -/
def State.shadowSlot (s : State) (row ti : Nat) : Bool :=
  (List.range 64).any fun c =>
    let w := s.shadowCell (cellIx c row)
    (entKind (entryA w) == 1 && entOwner (entryA w) == ti) || (entKind (entryB w) == 1 && entOwner (entryB w) == ti)

/-- The row-level tests of one row (R35). -/
def State.checkRow (s : State) (tis : List BondTi) (row : Nat) : Option Verdict :=
  if s.deviceShare row < 256 then some (verdictAt 5 row)
  else
    let needs (t : BondTi) : Bool := t.isSealed && t.attached &&
      (row == 64 || t.lunsets / 2 ^ (16 * (row / 4)) % 2 ^ 16 != 0)
    ((tis.filter fun t => needs t && !s.shadowSlot row t.ti).head?).map fun t =>
      { result := 6, cell := row, ti := t.ti, tiValid := true }

/-- The first answer of a list of tests. -/
def firstSome {α β : Type} (f : α → Option β) : List α → Option β
  | [] => none
  | a :: l =>
    match f a with
    | some b => some b
    | none => firstSome f l

/-- The check of the shadow banks (R35): APPLIED when every test passes. -/
def State.bondCheck (s : State) (tis : List BondTi) : Verdict :=
  match firstSome (s.checkCell tis) (List.range 4160) with
  | some v => v
  | none => (firstSome (s.checkRow tis) (List.range 65)).getD (verdictAt 1 0)

/-- The banks take effect: active := shadow, CK_DEVWGT and CK_DEVWGT_H with them (R34). -/
def State.applyBanks (s : State) : State :=
  let keep := s.regs.filter fun p => !(decide (0x91000 ≤ p.1) && decide (p.1 < 0x91800)) &&
    !(decide (0x92000 ≤ p.1) && decide (p.1 < 0x98000))
  let copies := s.regs.filterMap fun p =>
    if 0x91800 ≤ p.1 ∧ p.1 < 0x92000 then some (p.1 - 0x800, p.2)
    else if 0x98000 ≤ p.1 then (if p.1 < 0x98000 + 4 * 4160 then some (p.1 - 0x6000, p.2) else none)
    else none
  let s := { s with regs := keep }
  let s := copies.foldl (fun s p => s.wr p.1 p.2) s
  s.modCourse fun c => { c with devwgt := s.rd Adr.ckDevwgt, devwgtH := s.rd Adr.ckDevwgtH }

/-! ### Weights (R31) -/

/-- WC of a pool user: an instance's own, CK_DEVWGT.WC for physical function 0 and the device together. -/
def State.coreWeight (s : State) (owner : Nat) : Nat :=
  if owner < 0x100 then s.fld (Adr.ckWeightActive owner) 31 24 else bits s.course.devwgt 31 24

/-- WH of a pool user: an instance's own, CK_DEVWGT_H.WH for physical function 0 and device traffic. -/
def State.hostWeight (s : State) (owner : Nat) : Nat :=
  if owner < 0x100 then s.fld (Adr.ckWeight1Active owner) 7 0 else bits s.course.devwgtH 7 0

end Sys2Proof.Machine
end

