-- ==== Sys2Proof/Machine/SchedOps.lean ====
section
/-!
DEFINITION. Shared operations of the task schedulers: matching store, quotas, operands, emits, flows, delay lists,
contexts, dispatch and discard (R223 to R239).
-/

namespace Sys2Proof.Machine

/-! ### Clusters and slots -/

/-- The scheduler of cluster c of slice n. -/
def State.cluster (s : State) (n c : Nat) : Cluster := ((s.slice n).clusters[c]?).getD State.clusterEmpty

/-- Changes a scheduler. -/
def State.modCluster (s : State) (n c : Nat) (f : Cluster → Cluster) : State :=
  s.modSlice n fun x => { x with clusters := modAt x.clusters c f }

/-- The item in a slot. -/
def Cluster.item (k : Cluster) (w : Nat) : Option WorkItem := mapGet k.items w

/-- An item put into its slot. -/
def Cluster.put (k : Cluster) (i : WorkItem) : Cluster := { k with items := mapInsert k.items i.wslot i }

/-- Changes the item in a slot. -/
def State.modItem (s : State) (n c w : Nat) (f : WorkItem → WorkItem) : State :=
  s.modCluster n c fun k =>
    match k.item w with
    | none => k
    | some i => k.put { f i with wslot := w }

/-- The item that issues a primitive: the slot must be RUNNING. -/
def State.running (s : State) (it : ItemRef) : Option WorkItem :=
  ((s.cluster it.slice it.cluster).item it.wslot).filter fun i => i.state == .running

/-- Status and result of a primitive, as the scheduler port returns them (R223). -/
def State.port (s : State) (it : ItemRef) (status result : Nat) : State :=
  let s := s.modCluster it.slice it.cluster fun k => { k with portStatus := status, portResult := result }
  if status = 4 then s.setBit (Adr.tqEvt it.slice) 3
  else if status = 3 then s.setBit (Adr.tqEvt it.slice) 2 else s

/-- Statuses of primitives. -/
def psOk : Nat := 0
/-- QUEUED. -/
def psQueued : Nat := 1
/-- QUOTA. -/
def psQuota : Nat := 2
/-- NOT_OWNER. -/
def psNotOwner : Nat := 3
/-- EMIT_FULL. -/
def psEmitFull : Nat := 4
/-- RANGE. -/
def psRange : Nat := 5

/-- One of the numbers listed, which one left open by the spec (log entry 4). -/
def State.choose (s : State) (l : List Nat) : Option Nat × State :=
  match l with
  | [] => (none, s)
  | _ => (l[s.free.1 % l.length]?, s.free.2)

/-! ### Quotas (R238) -/

/-- Slots of an owner in a scheduler. -/
def Cluster.slotsOf (k : Cluster) (owner : Nat) : Nat := (k.items.filter fun p => p.2.owner == owner).length

/-- Flows of an owner in a scheduler. -/
def Cluster.flowsOf (k : Cluster) (owner : Nat) : Nat := (k.flows.filter fun p => p.2.owner == owner).length

/-- May an owner take a slot of the matching store (R238)? -/
def State.maySlot (s : State) (n c owner : Nat) : Bool :=
  let k := s.cluster n c
  s.mayTake n owner 1024 1 128 Tenant.wiq k.slotsOf k.items.length

/-- May an owner open a flow (R234, R238)? -/
def State.mayFlow (s : State) (n c owner : Nat) : Bool :=
  let k := s.cluster n c
  s.mayTake n owner 4096 1 512 (fun t => 4 * t.wiq) k.flowsOf k.flows.length

/-- A context freed at once, or CLOSING while operations are queued on it (R229, R236). -/
def State.closeCtx (s : State) (n ix : Nat) : State :=
  s.modSlice n fun x =>
    match mapGet x.contexts ix with
    | none => x
    | some k =>
      if k.ops = 0 then { x with contexts := mapErase x.contexts ix }
      else { x with contexts := mapInsert x.contexts ix { k with state := 3 } }

/-! ### Slots (R225, R233) -/

/-- A fresh item in WAITING. -/
def itemNew (w entry : Nat) (arg : BitVec 64) (owner : Nat) (ctrl inv flow : Option Nat) (seq : BitVec 16)
    (need : BitVec 4) (done : Option (Nat × Nat)) : WorkItem :=
  { wslot := w, entry := entry, arg := arg, owner := owner, ctrl := ctrl, inv := inv, flow := flow, seq := seq,
    need := need, have4 := 0, operands := [], done := done, emits := [], releasedAny := false, state := .waiting,
    readyAt := 0, core := none, poolCore := false, startedAt := 0, armed := [], endStatus := 0, endCode := 0,
    cutAtBudget := false, mid := false, heldFor := 0 }

/-- A slot allocated: SEQ := the flow's TAIL, and TAIL + 1 (Slot states). Answers the slot. -/
def State.allocSlot (s : State) (n c entry : Nat) (arg : BitVec 64) (owner : Nat) (ctrl inv flow : Option Nat)
    (need : BitVec 4) (done : Option (Nat × Nat)) : Option Nat × State :=
  let k := s.cluster n c
  let r := s.choose ((List.range 1024).filter fun w => (k.item w).isNone)
  match r.1 with
  | none => (none, r.2)
  | some w =>
    let f := flow.bind fun f => mapGet k.flows f
    let seq := (f.map Flow.tail).getD 0
    (some w, r.2.modCluster n c fun k =>
      let k := match f with
        | none => k
        | some f => { k with flows := mapInsert k.flows f.flow { f with tail := f.tail + 1 } }
      k.put (itemNew w entry arg owner ctrl inv flow seq need done))

/-- A flow opened for an owner: the lowest free number (R229, R233). -/
def State.openFlow (s : State) (n c owner : Nat) : Option Nat × State :=
  match lowestFree 4096 fun f => (mapGet (s.cluster n c).flows f).isSome with
  | none => (none, s)
  | some f =>
    (some f, s.modCluster n c fun k =>
      { k with flows := mapInsert k.flows f { flow := f, owner := owner, next := 0, tail := 0, closing := false } })

/-! ### Operands (R226, R227) -/

/-- An operand or ARM discarded (R227). -/
def State.stray (s : State) (n : Nat) : State := (s.inc (Adr.tqStray n)).setBit (Adr.tqEvt n) 1

/-- Timers of an operand index cancelled (R227). -/
def Cluster.disarm (k : Cluster) (w ix : Nat) : Cluster :=
  let keep (l : List Delay) : List Delay := l.filter fun d => !(d.wslot == w && d.index == ix)
  { k with near := keep k.near, far := keep k.far }

/-- A slot taken out of the store without sending anything, its queued requests cancelled (R230). -/
def Cluster.drop (k : Cluster) (w : Nat) : Cluster :=
  { k with items := mapErase k.items w,
           waiting := k.waiting.filter fun q =>
             match q with
             | .slot by_ _ _ _ _ _ _ => by_ != w
             | .ctx by_ _ _ => by_ != w }

/-- An operand reaches an index: the first one fills it; later ones, and those for a FREE slot, are strays; a grant that
meets a FREE slot returns what it granted (R226, R227). -/
def State.deliver (s : State) (n c w ix : Nat) (op : Operand) : State :=
  match (s.cluster n c).item w with
  | none =>
    let s := if op.kind = 7 then s.modCluster n c fun k => k.drop op.value.toNat
      else if op.kind = 8 then s.dropCtx n op.value.toNat else s
    s.stray n
  | some i =>
    if 4 ≤ ix ∨ i.have4.getLsbD ix then s.stray n
    else
      s.modCluster n c fun k =>
        (k.put { i with operands := mapInsert i.operands ix op, have4 := i.have4 ||| BitVec.ofNat 4 (2 ^ ix),
                        armed := i.armed.filter (· != ix) }).disarm w ix

/-- An operand with a value. -/
def opOf (kind : Nat) (value : BitVec 64) (aux : BitVec 32) (status source : Nat) : Operand :=
  { value := value, aux := aux, kind := BitVec.ofNat 8 kind, status := BitVec.ofNat 8 status,
    source := BitVec.ofNat 16 source }

/-! ### Emits (R230, R233) -/

/-- The operation that a submission gives to a stream engine of its cluster's region, after those queued on its context before (R176, R177, R181,
R189). -/
def State.submitEngine (s : State) (n c unit ix len : Nat) : State :=
  match mapGet (s.slice n).contexts ix with
  | none => s
  | some k =>
    let r := c / 2
    let before := ((s.slice n).pipe.works.filter fun w => w.why == .strm ix).getLast?.map EngWork.id
    let put (u load amount lag : Nat) : State := (s.addWork n (engWork u r k.owner (some ix) (.strm ix) before load amount lag)).2
    match k.kind with
    | 1 =>
      match s.cipherUnit n r with
      | none => s
      | some u => put u (if s.keyMiss n r k.keySlot then 40 else 0) (cipherBlocks len) (if u = 2 then 0 else tagLag)
    | 2 => put (unitCompress (2 * r + unit % 2)) 0 (compressCycles len) 0
    | 3 => put (unitDecompress (2 * r + unit % 2)) 0 ((len + 9) / 10) 0
    | _ => s

/-- A released emit takes effect (R229, R233, R235). -/
def State.emitNow (s : State) (n c w : Nat) (e : Emit) : State :=
  match e with
  | .send t ix value aux => s.deliver n c t ix (opOf 1 value aux 0 w)
  | .arm t ix d =>
    match (s.cluster n c).item t with
    | none => s.stray n
    | some i =>
      if i.have4.getLsbD ix || i.armed.contains ix then s.stray n
      else
        let e : Delay := { due := s.now + d, wslot := t, index := ix }
        s.modCluster n c fun k =>
          let k := k.put { i with armed := i.armed ++ [ix] }
          if d ≤ 4096 then { k with near := k.near ++ [e] } else { k with far := k.far ++ [e] }
  | .submit d =>
    match d with
    | .completion h sct sc dw0 dw1 =>
      s.finish h { ansSt (mkSt sct sc false) with dw0 := dw0, dw1 := dw1 }
    | d =>
      let s := s.modSlice n fun x => { x with engineOps := x.engineOps ++ [{ cluster := c, wslot := w, desc := d }] }
      match d with
      | .engine u ix len _ _ => (s.submitEngine n c u ix len).modSlice n fun x =>
          match mapGet x.contexts ix with
          | none => x
          | some k => { x with contexts := mapInsert x.contexts ix { k with ops := min 255 (k.ops + 1) } }
      | _ => s

/-- Every releasable emit of a slot released, in staging order (R233). -/
def State.releaseEmits (s : State) (n c w : Nat) : State :=
  match (s.cluster n c).item w with
  | none => s
  | some i =>
    let out := i.emits.filter fun e => e.2
    if out = [] then s
    else
      let s := s.modItem n c w fun i => { i with emits := i.emits.filter (fun e => !e.2), releasedAny := true }
      out.foldl (fun s e => s.emitNow n c w e.1) s

/-- A slot freed: ITEM_END goes to its DONE target (R231, R233); a closing flow that holds no slot is freed (R229). -/
def State.freeSlot (s : State) (n c w : Nat) : State :=
  match (s.cluster n c).item w with
  | none => s
  | some i =>
    let s := s.modCluster n c fun k =>
      let k := k.drop w
      { k with flows := k.flows.filter fun p =>
          !(p.2.closing && !(k.items.any fun q => q.2.flow == some p.1)) }
    match i.done with
    | none => s
    | some (t, ix) => s.deliver n c t ix (opOf 9 0 (i.endCode.zeroExtend 32) i.endStatus w)

/-- The release step of one flow (R233). The fuel is one more than the sequence numbers there are. -/
def State.releaseFlow (s : State) (n c f : Nat) : Nat → State
  | 0 => s
  | fuel + 1 =>
    match mapGet (s.cluster n c).flows f with
    | none => s
    | some fl =>
      if fl.next = fl.tail then s
      else
        let step (s : State) : State := s.modCluster n c fun k =>
          match mapGet k.flows f with
          | none => k
          | some g => { k with flows := mapInsert k.flows f { g with next := g.next + 1 } }
        match (s.cluster n c).items.find? fun q => q.2.flow == some f && q.2.seq == fl.next with
        | none => (step s).releaseFlow n c f fuel
        | some q =>
          let s := s.releaseEmits n c q.1
          if q.2.state = .held then ((step s).freeSlot n c q.1).releaseFlow n c f fuel else s

/-- The release step of a cluster: flows, then items without a flow (R233). -/
def State.releaseStep (s : State) (n c : Nat) : State :=
  let s := (s.cluster n c).flows.foldl (fun s p => s.releaseFlow n c p.1 (65537)) s
  ((s.cluster n c).items.filter fun q => q.2.flow.isNone).foldl (fun s q =>
    let s := s.releaseEmits n c q.1
    if q.2.state = .held then s.freeSlot n c q.1 else s) s

/-! ### Delay lists (R235) -/

/-- The delay-list tick: far entries move up, due entries are delivered as TIMER operands (R235). -/
def State.delayTick (s : State) (n c : Nat) : State :=
  let k := s.cluster n c
  let near := k.near ++ k.far.filter fun d => decide (d.due ≤ s.now + 4096)
  let due := near.filter fun d => decide (d.due ≤ s.now)
  let s := s.modCluster n c fun k =>
    { k with near := near.filter (fun d => decide (s.now < d.due)),
             far := k.far.filter fun d => decide (s.now + 4096 < d.due) }
  due.foldl (fun s d =>
    let s := s.modItem n c d.wslot fun i => { i with armed := i.armed.filter (· != d.index) }
    s.deliver n c d.wslot d.index (opOf 6 (BitVec.ofNat 64 s.now) 0 0 0)) s

/-! ### Grants (R230) -/

/-- The slot that queued the request. -/
def Waiting.by : Waiting → Nat
  | .slot b _ _ _ _ _ _ => b
  | .ctx b _ _ => b

/-- One queued request granted if its owner may take it now (R230). Answers whether it was. -/
def State.grant (s : State) (n c : Nat) (q : Waiting) : Bool × State :=
  match (s.cluster n c).item q.by with
  | none => (true, s)
  | some i =>
    match q with
    | .slot b g flow entry arg need done =>
      if s.maySlot n c i.owner then
        let r := s.allocSlot n c entry arg i.owner i.ctrl i.inv flow need done
        match r.1 with
        | none => (false, s)
        | some w => (true, r.2.deliver n c b g (opOf 7 (BitVec.ofNat 64 w) 0 0 0))
      else (false, s)
    | .ctx b g kind =>
      if s.mayCtx n i.owner kind then
        match (s.slice n).ctxFree (ctxSpan kind) with
        | none => (false, s)
        | some ix =>
          (true, (s.newCtx n c ix kind i.owner i.inv (i.flow.getD 0xFFFF)).deliver n c b g
            (opOf 8 (BitVec.ofNat 64 ix) 0 0 0))
      else (false, s)

/-- The queued requests of a cluster, each owner's in order (R230). -/
def State.grants (s : State) (n c : Nat) : State :=
  let owner (s : State) (q : Waiting) : Option Nat := ((s.cluster n c).item q.by).map WorkItem.owner
  ((s.cluster n c).waiting.foldl (fun (a : State × List (Option Nat)) q =>
    let o := owner a.1 q
    if a.2.contains o then a
    else
      let r := a.1.grant n c q
      if r.1 then (r.2.modCluster n c fun k => { k with waiting := k.waiting.erase q }, a.2) else (r.2, a.2 ++ [o]))
    (s, [])).1

/-! ### Ends and discards (R231, R232, R239) -/

/-- An item ends its run and is HELD; emits staged after the last release point are discarded (R231). -/
def State.holdItem (s : State) (n c w status : Nat) (code : BitVec 8) : State :=
  s.modItem n c w fun i =>
    { i with state := .held, emits := i.emits.filter (fun e => e.2), endStatus := status, endCode := code, core := none }

/-- A release point: every staged emit becomes releasable (R229). -/
def WorkItem.releasePoint (i : WorkItem) : WorkItem := { i with emits := i.emits.map fun e => (e.1, true) }

/-- A slot freed with DISCARDED, whatever it still staged (R239). -/
def State.discardSlot (s : State) (n c w : Nat) : State :=
  (s.modItem n c w fun i => { i with emits := [], endStatus := 3, endCode := 0 }).freeSlot n c w

/-- The work of a cluster that satisfies p discarded: RUNNING items at their budget's end (R239). -/
def State.discardItems (s : State) (n c : Nat) (p : WorkItem → Bool) : State :=
  let hit := (s.cluster n c).items.filter fun q => p q.2
  if hit = [] then s
  else
    (hit.foldl (fun s q =>
      if q.2.state = .running then s.modItem n c q.1 fun i => { i with cutAtBudget := true }
      else s.discardSlot n c q.1) s).setBit (Adr.tqEvt n) 5

/-- The work of a whole slice that satisfies p discarded. -/
def State.discardSlice (s : State) (n : Nat) (p : WorkItem → Bool) : State :=
  (List.range 4).foldl (fun s c => s.discardItems n c p) s

/-- The work of every slice that satisfies p discarded (R239). -/
def State.discardAll (s : State) (p : WorkItem → Bool) : State :=
  s.sliceList.foldl (fun s n => s.discardSlice n p) s

/-- Contexts that satisfy p freed once their operations end (R239). -/
def State.closeCtxs (s : State) (p : Ctx → Bool) : State :=
  s.sliceList.foldl (fun s n =>
    ((s.slice n).contexts.filter fun q => p q.2).foldl (fun s q => s.closeCtx n q.1) s) s

/-- A core is fenced while it runs an item: a rerun where nothing was released, else FENCED (R232). -/
def State.cutCore (s : State) (n core : Nat) : State :=
  let c := core / 8
  match (s.cluster n c).items.find? fun q => q.2.core == some core && (q.2.state == .running) with
  | none => s
  | some q =>
    if !q.2.releasedAny && s.bit (Adr.tqCfg n) 0 then
      (s.modItem n c q.1 fun i =>
        { i with state := .ready, readyAt := s.now, core := none, emits := [] }).inc
        (Adr.tqReruns n)
    else (s.holdItem n c q.1 2 0).setBit (Adr.tqEvt n) 4

/-! ### Dispatch (R228, R30, R31, R342) -/

/-- WAITING items whose operands cover their NEED become READY (R226). -/
def State.makeReady (s : State) (n c : Nat) : State :=
  ((s.cluster n c).items.filter fun q => (q.2.state == .waiting) && (q.2.need &&& ~~~q.2.have4 == 0)).foldl (fun s q =>
    s.modItem n c q.1 fun i => { i with state := .ready, readyAt := s.now }) s

/-- READY items that satisfy p, oldest first, then by slot (R228). -/
def Cluster.readyItems (k : Cluster) (p : WorkItem → Bool) : List WorkItem :=
  let l := (k.items.filter fun q => (q.2.state == .ready) && p q.2).map (·.2)
  l.foldl (fun out i =>
    let before := out.takeWhile fun j => decide (j.readyAt < i.readyAt ∨ (j.readyAt = i.readyAt ∧ j.wslot < i.wslot))
    before ++ i :: out.drop before.length) []

/-- An item dispatched on a core (R228), between two boundaries when mid is set (R24). -/
def State.dispatchOn (s : State) (n c w core : Nat) (pool mid : Bool) : State :=
  (s.modItem n c w fun i =>
    { i with state := .running, core := some core, poolCore := pool, startedAt := s.now, releasedAny := false, mid := mid,
             heldFor := 0 }).add64
    (Adr.tqClDispLo n c) 1

/-- The working cores of a region of a slice, lowest first (R30). -/
def State.workingCores (s : State) (n r : Nat) : List Nat :=
  ((List.range 16).map fun k => 16 * r + k).filter fun p =>
    s.active (UnitId.core n p) && s.active (UnitId.cluster n (p / 8))

/-- The cores of a region in this course: for entry A, for entry B, and for the pool (R30), less what is withheld, in
whole cores, from the pool first, then from DEVICE and TEST entries, then from SLOT entries (R342). -/
def State.coreSplit (s : State) (n r : Nat) : List Nat × List Nat × List Nat :=
  let w := s.cell s.bondCourse (bondRow (2 * n + r) 3)
  let cores := s.workingCores n r
  let na := entShare (entryA w) / 4
  let nb := entShare (entryB w) / 4
  let a := cores.take na
  let b := (cores.drop na).take nb
  let p := cores.drop (na + nb)
  let k := withhold w a.length b.length p.length ((s.withheld n + 3) / 4)
  (a.take k.1, b.take k.2.1, p.take k.2.2)

/-- Is a core running nothing? -/
def Cluster.idle (k : Cluster) (core : Nat) : Bool :=
  !(k.items.any fun q => (q.2.state == .running) && q.2.core == some core)

/-- Items of an owner put on the idle cores of a cluster, in order. -/
def State.fillCores (s : State) (n c : Nat) (cores : List Nat) (pool : Bool) (items : List WorkItem) : State :=
  let cs := cores.filter fun p => p / 8 == c && (s.cluster n c).idle p
  (cs.zip items).foldl (fun s q => s.dispatchOn n c q.2.wslot q.1 pool false) s

/-- A pool user's number: an instance, or physical function 0 and the device together (R31). -/
def poolUser (owner : Nat) : Nat := if owner < 0x100 then owner else ownerPf

/-- The pool items of a cluster in the order in which they get cores: each user first its share of k cores by weight, then
the rest, users of positive weight before those of weight 0 (R31, R228; log entry 14). -/
def State.poolOrder (s : State) (n c k : Nat) : List WorkItem :=
  let ready := (s.cluster n c).readyItems fun i => !(decide (i.owner < 0x100) && s.isSealed i.owner)
  let users := (ready.map fun i => poolUser i.owner).eraseDups
  let total := (users.map s.coreWeight).sum
  let share (u : Nat) : Nat := if total = 0 then k / max 1 users.length else k * s.coreWeight u / total
  let first := users.flatMap fun u => (ready.filter fun i => poolUser i.owner == u).take (share u)
  let rest := ready.filter fun i => !(first.any fun j => j.wslot == i.wslot)
  first ++ rest.filter (fun i => decide (0 < s.coreWeight (poolUser i.owner))) ++
    rest.filter (fun i => s.coreWeight (poolUser i.owner) == 0)

/-- The dispatch of a cluster at a course boundary (R228). -/
def State.dispatch (s : State) (n c : Nat) : State :=
  let r := c / 2
  let w := s.cell s.bondCourse (bondRow (2 * n + r) 3)
  let sp := s.coreSplit n r
  let slot (s : State) (e : Nat) (cores : List Nat) : State :=
    if entKind e = 1 then
      s.fillCores n c cores false ((s.cluster n c).readyItems fun i => i.owner == entOwner e)
    else s
  let s := slot s (entryA w) sp.1
  let s := slot s (entryB w) sp.2.1
  let dev (s : State) (e : Nat) (cores : List Nat) : State :=
    if entKind e = 2 then s.fillCores n c cores true ((s.cluster n c).readyItems fun i => i.owner == ownerDev) else s
  let s := dev (dev s (entryA w) sp.1) (entryB w) sp.2.1
  let extra (e : Nat) (cores : List Nat) : List Nat := if entKind e = 1 then [] else cores
  let pool := extra (entryA w) sp.1 ++ extra (entryB w) sp.2.1 ++ sp.2.2
  s.fillCores n c pool true (s.poolOrder n c (pool.filter fun p => p / 8 == c).length)

/-- Is the budget of a RUNNING item over: on a core of a SLOT entry after one course, on a pool core once it has held the core for 9,360 core
cycles, 6,240 steps of 625 ps, which a course that the trim shortened does not give (R24, R38)? -/
def WorkItem.budgetOver (i : WorkItem) (now : Nat) : Bool :=
  (i.state == .running) && (if i.poolCore then decide (6240 ≤ i.heldFor) else decide (i.startedAt < now))

/-- A course of a length ends: a RUNNING item has held its core for it, but for the course within which it was dispatched (R24). -/
def WorkItem.age (len : Nat) (i : WorkItem) : WorkItem :=
  if i.state ≠ .running then i else if i.mid then { i with mid := false } else { i with heldFor := i.heldFor + len }

/-- A course of a length ends for every item of a slice (R24). -/
def Slice.ageItems (len : Nat) (x : Slice) : Slice :=
  { x with clusters := x.clusters.map fun k => { k with items := k.items.map fun q => (q.1, q.2.age len) } }

/-- An item cut at its budget: OVERRUN, or freed where its discard was asked for (R25, R88, R231, R239). -/
def State.cutItem (s : State) (n c w : Nat) : State :=
  match (s.cluster n c).item w with
  | none => s
  | some i =>
    if i.cutAtBudget then s.discardSlot n c w
    else ((s.holdItem n c w 1 0).inc (Adr.tqOverruns n)).setBit (Adr.tqEvt n) 0

/-- Every item whose budget ends at this boundary is cut (R25). -/
def State.cutBudgets (s : State) (n c : Nat) : State :=
  ((s.cluster n c).items.filter fun q => q.2.budgetOver s.now).foldl (fun s q => s.cutItem n c q.1) s

/-- The cores of a region that a cell of its core-time row gives to the pool (R24, R30). -/
def State.poolCores (s : State) (n r : Nat) (w : Word) : List Nat :=
  let cores := s.workingCores n r
  let na := entShare (entryA w) / 4
  let nb := entShare (entryB w) / 4
  let p := cores.drop (na + nb)
  p.take (p.length - (s.withheld n + 3) / 4)

/-- A pool core that an item left between two boundaries may take another READY item, where the bond table gives the core to the pool in
this course and the next; whether it does is left open (R24, R228; log entry 70). -/
def State.refill (s : State) (n c core : Nat) : State :=
  let f := s.free
  let r := c / 2
  let row := bondRow (2 * n + r) 3
  if f.1 % 2 = 0 || !((s.poolCores n r (s.cell s.bondCourse row)).contains core && (s.poolCores n r (s.nextCell row)).contains core) ||
      !((s.cluster n c).idle core) then f.2
  else match (s.poolOrder n c 1).head? with
    | none => f.2
    | some i => f.2.dispatchOn n c i.wslot core true true

/-- What a scheduler does at a course boundary, in this order: items cut at their budget, delay-list tick, release step, grants, READY,
dispatch (R25, R226, R228, R230, R233, R235). -/
def State.clusterBoundary (s : State) (n c : Nat) : State :=
  let s := s.cutBudgets n c
  let s := s.delayTick n c
  let s := s.releaseStep n c
  let s := s.grants n c
  let s := s.makeReady n c
  s.dispatch n c

end Sys2Proof.Machine
end

