-- ==== Sys2Proof/Machine/SearchOps.lean ====
section
/-!
DEFINITION. Shared operations of the associative search arrays: partitions, matching, updates and their shadow (R206 to
R222), and access to Subsystem Local Memory (R249, R250).
-/

namespace Sys2Proof.Machine

/-! ### Subsystem Local Memory (R249, R250) -/

/-- Is the namespace attached to the owner? -/
def Namespace.ownedBy (x : Namespace) (owner : Nat) : Bool :=
  if owner < 0x100 then x.attachedTis.contains owner else owner == ownerPf && !x.attachedPfs.isEmpty

/-- Does a slice-local range lie in one of the owner's memory namespaces of slice n (R250)? The device may use any. -/
def State.ownsMem (s : State) (n owner a len : Nat) : Bool :=
  owner == ownerDev || s.namespaces.any fun x =>
    x.kind == .memory && x.ownedBy owner && x.parts.any fun p =>
      p.slice == n && decide (p.memBase ≤ a) && decide (a + len ≤ p.memBase + x.size * 4096)

/-- A line written whole: nothing of it gathers any more, and it is no longer poisoned (R299). -/
def State.wholeLine (s : State) (n a : Nat) : State :=
  let b := s.burstOf n a
  s.modSlice n fun x =>
    { x with
      merges := x.merges.filter fun m => !(m.ch == b.1 && m.burst == b.2),
      drams := modAt x.drams b.1 fun d => { d with poisoned := d.poisoned.filter (· != b.2) } }

/-- The merge-buffer entries of a channel, oldest first. -/
def Slice.mergesOf (x : Slice) (c : Nat) : List MergeEntry := x.merges.filter fun m => m.ch == c

/-- A part of a line written: it gathers with earlier parts; a complete entry is written, and beyond 64 entries the oldest of the
channel is read-merged at once (R299). -/
def State.gatherLine (s : State) (n a : Nat) (bs : List Byte) : State :=
  let b := s.burstOf n a
  let old := (s.slice n).merges.find? fun m => m.ch == b.1 && m.burst == b.2
  let bytes := ((List.range bs.length).zip bs).foldl (fun l q => mapInsert l (a % 64 + q.1) q.2) ((old.map MergeEntry.bytes).getD [])
  if 64 ≤ bytes.length then s.wholeLine n a
  else
    let e : MergeEntry := { ch := b.1, burst := b.2, bytes := bytes, openedAt := (old.map MergeEntry.openedAt).getD s.now }
    let s := s.modSlice n fun x =>
      { x with merges := match old with
          | some o => x.merges.map fun m => if m = o then e else m
          | none => x.merges ++ [e] }
    match (s.slice n).mergesOf b.1 with
    | [] => s
    | m :: rest =>
      if 64 ≤ rest.length then (s.inc (Adr.dmRmwCnt n b.1)).modSlice n fun x => { x with merges := x.merges.erase m } else s

/-- The merge buffer sees a write of some bytes, line by line (R299). The fuel is more than the lines touched. -/
def State.gather (s : State) (n a : Nat) (bs : List Byte) : Nat → State
  | 0 => s
  | fuel + 1 =>
    match bs with
    | [] => s
    | _ =>
      let k := 64 - a % 64
      let s := if k = 64 ∧ 64 ≤ bs.length then s.wholeLine n a else s.gatherLine n a (bs.take k)
      s.gather n (a + k) (bs.drop k) fuel

/-- Bytes of slice-local memory written: reads are served from the merge buffer at once (R290, R299). -/
def State.memStore (s : State) (n a : Nat) (bs : List Byte) : State :=
  (s.modSlice n fun x => { x with slm := memWrite x.slm a bs }).gather n a bs (bs.length / 64 + 2)

/-- Does a range of slice-local memory touch a poisoned line (R298, R299)? -/
def State.memPoisoned (s : State) (n a len : Nat) : Bool :=
  (List.range ((a % 64 + len + 63) / 64)).any fun k =>
    let b := s.burstOf n (a / 64 * 64 + 64 * k)
    ((((s.slice n).drams[b.1]?).map Dram.poisoned).getD []).contains b.2

/-- Bytes of slice-local memory set to 0. -/
def State.memZero (s : State) (n a len : Nat) : State :=
  s.modSlice n fun x => { x with slm := memClear x.slm a len }

/-! ### Arrays and partitions (R209 to R212) -/

/-- Array r of slice n. -/
def State.array (s : State) (n r : Nat) : SearchArray := ((s.slice n).arrays[r]?).getD State.arrayEmpty

/-- Changes an array. -/
def State.modArray (s : State) (n r : Nat) (f : SearchArray → SearchArray) : State :=
  s.modSlice n fun x => { x with arrays := modAt x.arrays r f }

/-- KIND of a partition: 1 INDEX_POOL, 2 INDEX_SEALED, 3 FILTER, 4 DEVICE, 5 TEST. -/
def State.partKind (s : State) (n r p : Nat) : Nat := s.fld (Adr.asPart n r p) 31 29
/-- OWNER of a partition. -/
def State.partOwner (s : State) (n r p : Nat) : Nat := s.fld (Adr.asPart n r p) 23 16
/-- Entries of a partition. -/
def State.partSize (s : State) (n r p : Nat) : Nat := 256 * s.fld (Adr.asPart n r p) 13 8
/-- First entry of a partition. -/
def State.partBase (s : State) (n r p : Nat) : Nat := 256 * s.fld (Adr.asPart n r p) 4 0

/-- A partition descriptor written by slice firmware (R210). -/
def State.putPart (s : State) (n r p kind owner size base : Nat) : State :=
  s.wr (Adr.asPart n r p) (BitVec.ofNat 32 (kind * 2 ^ 29 + owner * 2 ^ 16 + size * 2 ^ 8 + base))

/-- Is it an index partition? -/
def indexKind (kind : Nat) : Bool := kind == 1 || kind == 2

/-- May the requester use the partition (R211)? -/
def State.mayUse (s : State) (n r p requester : Nat) : Bool :=
  let k := s.partKind n r p
  if requester = ownerDev then k == 1 || k == 4 || k == 5
  else (k == 2 || k == 3) && decide (requester < 0x100) && s.partOwner n r p == requester

/-- Rate step of an array: 0 FULL, 1 HALF, 2 QUARTER, 3 SUSPENDED (R220). -/
def State.searchRate (s : State) (n r : Nat) : Nat := s.fld (Adr.asSts n) (9 + 2 * r) (8 + 2 * r)

/-- The array or its shadow without the entries of a range (R211). -/
def dropRange (l : List (Nat × SearchEntry)) (lo size : Nat) : List (Nat × SearchEntry) :=
  l.filter fun q => !(decide (lo ≤ q.1) && decide (q.1 < lo + size))

/-- The blocks that hold no partition go to INDEX_POOL, which is partition 0 and takes the longest run of free blocks
(R209, R210; log entry 15). -/
def State.poolBlocks (s : State) (n r : Nat) : Nat :=
  32 - ((List.range 16).filter (fun p => p != 0)).foldl (fun m p => m + s.partSize n r p / 256) 0

/-- A partition of some blocks created from the end of INDEX_POOL, which keeps at least 4; its entries start EMPTY (R210,
R211). Answers its number. -/
def State.newPart (s : State) (n r kind owner blocks : Nat) : Option Nat × State :=
  let pool := s.partSize n r 0 / 256
  let base := s.partBase n r 0 / 256
  match ((List.range 16).drop 1).find? fun p => s.partKind n r p == 0 with
  | none => (none, s)
  | some p =>
    if pool < blocks + 4 then (none, s)
    else
      let at_ := base + pool - blocks
      let s := s.putPart n r 0 1 0 (pool - blocks) base
      let s := s.putPart n r p kind owner blocks at_
      (some p, s.modArray n r fun a =>
        { a with entries := dropRange a.entries (256 * at_) (256 * blocks),
                 shadow := dropRange a.shadow (256 * at_) (256 * blocks) })

/-- A partition released: its entries are cleared, and its blocks rejoin INDEX_POOL where they lie at its end (R210,
R211). -/
def State.dropPart (s : State) (n r p : Nat) : State :=
  let base := s.partBase n r p
  let size := s.partSize n r p
  let s := s.modArray n r fun a =>
    { a with entries := dropRange a.entries base size, shadow := dropRange a.shadow base size }
  let s := s.wr (Adr.asPart n r p) 0
  let used := ((List.range 16).drop 1).filter fun q => s.partKind n r q != 0
  let top := used.foldl (fun m q => min m (s.partBase n r q / 256)) 32
  s.putPart n r 0 1 0 (top - s.partBase n r 0 / 256) (s.partBase n r 0 / 256)

/-- Is there an INDEX_SEALED partition of a tenant in array r of slice n? -/
def State.sealedPart (s : State) (n r ti : Nat) : Option Nat :=
  (List.range 16).find? fun p => s.partKind n r p == 2 && s.partOwner n r p == ti

/-- A tenant with object namespaces in slice n receives an INDEX_SEALED partition in both arrays; its size is a free value (R210; log
entry 4). -/
def State.sealPart (s : State) (n ti : Nat) : State :=
  [0, 1].foldl (fun s r =>
    if (s.sealedPart n r ti).isSome then s
    else
      let f := s.free
      (f.2.newPart n r 2 ti (1 + f.1 % 28)).2) s

/-- The INDEX_SEALED partitions of a tenant that has no object namespace left in slice n go back (R210). -/
def State.unsealPart (s : State) (n ti : Nat) : State :=
  if s.namespaces.any fun x => x.kind == NsKind.object && x.desc.sealedTi == ti && x.parts.any fun q => q.slice == n then s
  else [0, 1].foldl (fun s r =>
    match s.sealedPart n r ti with
    | none => s
    | some p => s.dropPart n r p) s

/-- A slice goes online: the tenants with object namespaces there have their partitions (R210). -/
def State.openPools (s : State) (n : Nat) : State :=
  (s.namespaces.filter fun x => x.kind == NsKind.object && decide (x.desc.sealedTi < 0x100) && x.parts.any fun q => q.slice == n).foldl
    (fun s x => s.sealPart n x.desc.sealedTi) s

/-! ### Matching (R207, R208) -/

/-- Does a VALID entry match a key (R207)? -/
def SearchEntry.hits (e : SearchEntry) (key : BitVec 128) : Bool := e.valid && (((key ^^^ e.key) &&& e.mask) == 0)

/-- The matching entries of a partition from an offset on, lowest first (R208). -/
def matchesFrom (l : List (Nat × SearchEntry)) (base size start : Nat) (key : BitVec 128) : List (Nat × SearchEntry) :=
  l.filter fun q => decide (base + start ≤ q.1) && decide (q.1 < base + size) && q.2.hits key

/-- A search response (Search response). -/
def searchWord (status base : Nat) (hits : List (Nat × SearchEntry)) : BitVec 64 :=
  match hits with
  | [] => BitVec.ofNat 64 (status * 2 ^ 56)
  | q :: more =>
    BitVec.ofNat 64 (2 ^ 63 + (if more = [] then 0 else 2 ^ 62) + status * 2 ^ 56 + (q.1 - base) * 2 ^ 32 + q.2.result.toNat)

/-- A failed operation recorded, if the record is armed (AS_ERR_STS). -/
def State.searchError (s : State) (n r p status offset : Nat) : State :=
  if s.bit (Adr.asErrSts n) 31 then s
  else
    s.wr (Adr.asErrSts n) (BitVec.ofNat 32
      (2 ^ 31 + r % 2 * 2 ^ 30 + status % 16 * 2 ^ 26 + p % 16 * 2 ^ 22 + offset % 2 ^ 13))

/-- How an operation ended, kept with its array; a failure is recorded. -/
def State.searchEnd (s : State) (n r p status offset : Nat) : State :=
  let s := s.modArray n r fun a => { a with lastStatus := status }
  if status = 0 then s else s.searchError n r p status offset

/-- The checks that every operation makes: partition, requester, offset (R209, R211). -/
def State.searchCheck (s : State) (n r p requester offset : Nat) : Nat :=
  if s.partKind n r p = 0 then 2
  else if !s.mayUse n r p requester then 1
  else if s.partSize n r p ≤ offset then 2
  else 0

/-- The entries that searches of a partition see, and whether the cores serve them (R222): none when they end with
FENCED. -/
def State.searchView (s : State) (n r : Nat) : Option (List (Nat × SearchEntry) × Bool) :=
  if s.active (UnitId.array n r) then some ((s.array n r).entries, false)
  else if s.bit (Adr.asCfg n) 0 then some ((s.array n r).shadow, true)
  else none

/-- Searches counted: those of the array, or those served on the cores (R222). -/
def State.countSearches (s : State) (n r k : Nat) (onCores : Bool) : State :=
  if onCores then (s.addF (Adr.asFallback n r) 31 0 k).setBit (Adr.asEvt n) 2 else s.add64 (Adr.asSearchesLo n r) k

/-! ### Updates (R206, R212, R215, R221, R222) -/

/-- An update of one entry: f gives the entry it becomes, or the refusal of its transition; none is EMPTY (Entry states). -/
def State.searchUpdate (s : State) (n r p requester offset : Nat)
    (f : Option SearchEntry → Except Nat (Option SearchEntry)) : State :=
  let c := s.searchCheck n r p requester offset
  if c ≠ 0 then s.searchEnd n r p c offset
  else
    let a := s.partBase n r p + offset
    let live := s.active (UnitId.array n r)
    let index := indexKind (s.partKind n r p)
    if live && s.searchRate n r == 3 then
      if index then s.searchEnd n r p 0 offset else s.searchEnd n r p 5 offset
    else
      let old := if live then mapGet (s.array n r).entries a else mapGet (s.array n r).shadow a
      match f old with
      | .error e =>
        let s := if e = 3 then s.setBit (Adr.asEvt n) 3 else s
        s.searchEnd n r p e offset
      | .ok v =>
        let put (l : List (Nat × SearchEntry)) : List (Nat × SearchEntry) :=
          match v with
          | none => mapErase l a
          | some e => mapInsert l a e
        (s.modArray n r fun q =>
          { q with entries := if live then put q.entries else q.entries, shadow := put q.shadow }).searchEnd n r p 0 offset

/-- An array that returns to ACTIVE is reloaded from its shadow; the hot cache starts empty (R212). -/
def State.reloadArray (s : State) (n r : Nat) : State :=
  let ps := (List.range 16).filter fun p => indexKind (s.partKind n r p)
  let inIndex (a : Nat) : Bool := ps.any fun p =>
    decide (s.partBase n r p ≤ a) && decide (a < s.partBase n r p + s.partSize n r p)
  (s.modArray n r fun q =>
    { q with entries := q.shadow.filter fun e => !inIndex e.1, shadow := q.shadow.filter fun e => !inIndex e.1 }).setBit
    (Adr.asEvt n) 4

/-! ### Cycles (R213, R220) -/

/-- Who pays for an operation's cycles: a Sealed instance from its SLOT entries, all others from the rest of the row (R31, R32, R213). -/
def State.cyclePayer (s : State) (requester : Nat) : Option Nat :=
  if requester < 0x100 ∧ s.isSealed requester then some requester else none

/-- Array cycles of a course for a payer: those of its positions in the region's stream-engine row, 800 MHz, cut to the rate step (R213, R220). -/
def State.arrayCycles (s : State) (n r : Nat) (payer : Option Nat) : Nat :=
  let ws := cellWindows (s.cell s.bondCourse (bondRow (2 * n + r) 2)) 3120 (s.courseLen / 2) (s.withheld n)
  let mine := ws.filter fun w => match payer with
    | some ti => w.kind == 1 && w.owner == ti
    | none => w.kind != 1
  (mine.map fun w => w.stop - w.start).sum / 2 ^ s.searchRate n r

/-- Cycles that a payer has left in the running course. -/
def State.cyclesLeft (s : State) (n r : Nat) (payer : Option Nat) : Nat :=
  s.arrayCycles n r payer - (((s.array n r).spent.find? fun q => q.1 == payer).map (·.2)).getD 0

/-- Cycles issued. -/
def State.spendCycles (s : State) (n r k : Nat) (payer : Option Nat) : State :=
  s.modArray n r fun a =>
    { a with spent := a.spent.filter (fun q => q.1 != payer) ++
        [(payer, ((a.spent.find? fun q => q.1 == payer).map (·.2)).getD 0 + k)] }

/-! ### One operation (R206 to R215, R221, R222) -/

/-- A search from an offset on; its response waits to reach the requester (R207, R208). -/
def State.searchOne (s : State) (n r : Nat) (j : SearchJob) (key : BitVec 128) : State :=
  let respond (s : State) (status base : Nat) (hits : List (Nat × SearchEntry)) : State :=
    (s.modArray n r fun a => { a with responses := a.responses ++ [searchWord status base hits] }).searchEnd n r j.part status j.offset
  let c := s.searchCheck n r j.part j.requester j.offset
  if c ≠ 0 then respond s c 0 []
  else
    match s.searchView n r with
    | none => respond s 6 0 []
    | some v =>
      if !v.2 && s.searchRate n r == 3 then respond s 5 0 []
      else
        let base := s.partBase n r j.part
        respond (s.countSearches n r 1 v.2) 0 base (matchesFrom v.1 base (s.partSize n r j.part) j.offset key)

/-- The responses that a batch wrote are reported as it ends (R214). -/
def State.batchEnd (s : State) (n r : Nat) (j : SearchJob) (written status : Nat) : State :=
  (s.modArray n r fun a => { a with lastCount := written }).searchEnd n r j.part status j.offset

/-- Some keys of a batch, one search each, their 8-byte responses written in key order; what is left of it, if anything is: its save point (R213,
R214). -/
def State.searchKeys (s : State) (n r k : Nat) (j : SearchJob) (keys : List (BitVec 128)) (respPtr written : Nat) : Option SearchJob × State :=
  match s.searchView n r with
  | none => (none, s.batchEnd n r j written 6)
  | some v =>
    if !v.2 && s.searchRate n r == 3 then (none, s.batchEnd n r j written 5)
    else
      let base := s.partBase n r j.part
      let words := (keys.take k).map fun key => searchWord 0 base (matchesFrom v.1 base (s.partSize n r j.part) j.offset key)
      let s := (s.countSearches n r words.length v.2).memStore n (respPtr + 8 * written) (words.flatMap fun w => leBytes 8 w.toNat)
      let s := s.dramAsk n (portStream r) j.requester (respPtr + 8 * written) (8 * words.length) true
      match keys.drop k with
      | [] => (none, s.batchEnd n r j (written + words.length) 0)
      | rest => (some { j with op := .batch rest respPtr (written + words.length) }, s)

/-- An entry's state, KEY, MASK and RESULT (Search operations). -/
def State.searchRead (s : State) (n r : Nat) (j : SearchJob) : State :=
  let c := s.searchCheck n r j.part j.requester j.offset
  if c ≠ 0 then s.searchEnd n r j.part c j.offset
  else
    match s.searchView n r with
    | none => s.searchEnd n r j.part 6 j.offset
    | some v =>
      if !v.2 && s.searchRate n r == 3 then s.searchEnd n r j.part 5 j.offset
      else
        let out := match mapGet v.1 (s.partBase n r j.part + j.offset) with
          | none => (0, ({ key := 0, mask := 0, result := 0, valid := false } : SearchEntry))
          | some e => (if e.valid then 2 else 1, e)
        (s.modArray n r fun a => { a with readOut := some out }).searchEnd n r j.part 0 j.offset

/-- What an update makes of an entry, or its refusal (Entry states). VALID has no row for VALIDATE and stays as it is. -/
def entryAfter (op : SearchOp) (old : Option SearchEntry) : Except Nat (Option SearchEntry) :=
  match op, old with
  | .invalidate, _ => .ok none
  | .write key mask result, old =>
    if old.any SearchEntry.valid then .error 3 else .ok (some { key := key &&& mask, mask := mask, result := result, valid := false })
  | .validate, some e => .ok (some { e with valid := true })
  | .resultWrite result, some e => if e.valid then .ok (some { e with result := result }) else .error 3
  | _, _ => .error 3

/-- An operation on k cycles; what is left of it, if anything is. Operations take effect one after the other (R215, R216). -/
def State.searchRun (s : State) (n r k : Nat) (j : SearchJob) : Option SearchJob × State :=
  match j.op with
  | .search key => (none, s.searchOne n r j key)
  | .batch keys respPtr written => s.searchKeys n r k j keys respPtr written
  | .read => (none, s.searchRead n r j)
  | op => (none, s.searchUpdate n r j.part j.requester j.offset (entryAfter op))

/-- Cycles that an operation needs: one a key of a batch (Search operations). -/
def SearchJob.cycles (j : SearchJob) : Nat :=
  match j.op with
  | .batch keys _ _ => keys.length
  | _ => 1

/-- An array that is fenced loses its entries, and the operations in progress end with FENCED (R212, R222). -/
def State.clearArray (s : State) (n r : Nat) : State :=
  (s.array n r).jobs.foldl (fun s j =>
    match j.op with
    | .search _ =>
      (s.modArray n r fun a => { a with responses := a.responses ++ [searchWord 6 0 []] }).searchEnd n r j.part 6 j.offset
    | .batch _ _ w => s.batchEnd n r j w 6
    | _ => s.searchEnd n r j.part 6 j.offset)
    (s.modArray n r fun q => { q with entries := [], responses := [], jobs := [] })

/-- An operation that an array does not carry out on its cycles: one that ends at once with an error, and any while the array is out of service or
SUSPENDED (R211, R221, R222). -/
def State.offArray (s : State) (n r : Nat) (j : SearchJob) : Bool :=
  s.searchCheck n r j.part j.requester j.offset != 0 || !s.active (UnitId.array n r) || s.searchRate n r == 3

/-- An operation reaches an array: it runs as far as its payer's cycles of the course go, behind those of the same payer that wait, and the rest waits
for the next course (R213). -/
def State.searchIssue (s : State) (n r : Nat) (j : SearchJob) : State :=
  let payer := s.cyclePayer j.requester
  if s.offArray n r j then (s.searchRun n r j.cycles j).2
  else
    let wait (s : State) (j : SearchJob) : State := s.modArray n r fun a => { a with jobs := a.jobs ++ [j] }
    let k := min j.cycles (s.cyclesLeft n r payer)
    if k = 0 || (s.array n r).jobs.any (fun q => s.cyclePayer q.requester == payer) then wait s j
    else
      let a := (s.spendCycles n r k payer).searchRun n r k j
      match a.1 with
      | none => a.2
      | some rest => wait a.2 rest

/-- An array at a course boundary: the waiting operations are issued in their order on the new course's cycles (R213). -/
def State.arrayCourse (s : State) (n r : Nat) : State :=
  let jobs := (s.array n r).jobs
  jobs.foldl (fun s j => s.searchIssue n r j) (s.modArray n r fun a => { a with jobs := [], spent := [] })

end Sys2Proof.Machine
end

