-- ==== Sys2Proof/Machine/DigestOps.lean ====
section
/-!
DEFINITION. Shared operations of the digest instances (R309 to R315).
-/

namespace Sys2Proof.Machine

/-- The number under which a digest engine's message is kept: 0 to 15, and 16 for the service instance (R309). -/
def dgNo : DgRef → Nat
  | .inst i => i
  | .service => 16

/-- Bytes of a digest (R309). -/
def digestLen (alg : Nat) : Nat := if alg = 1 ∨ alg = 4 then 32 else if alg = 2 ∨ alg = 5 then 48 else 64

/-- Block bytes of an algorithm (R309). -/
def digestBlock (alg : Nat) : Nat :=
  match alg with
  | 1 => 64
  | 2 => 128
  | 3 => 128
  | 4 => 136
  | 5 => 104
  | _ => 1

/-- Is the algorithm built into the engine (R309)? -/
def digestBuilt (no alg : Nat) : Bool := decide (1 ≤ alg) && decide (alg ≤ (if no = 16 then 3 else 5))

/-- The tenant whose DG_MASK holds an instance (R77). -/
def State.digestTenant (s : State) (i : Nat) : Option Nat := (s.holders.find? fun t => t.dgMask.testBit i).map Tenant.ti

/-- May the requester use the engine (R311)? -/
def State.digestUsable (s : State) (no owner : Nat) : Bool :=
  if no = 16 then owner == ownerDev
  else
    decide (no < 16) && s.active (UnitId.digest no) &&
      (match s.digestTenant no with
       | some ti => owner == ti
       | none => decide (ownerPf ≤ owner))

/-- The message of an engine. -/
def State.digestMsg (s : State) (no : Nat) : Option DgMsg := mapGet s.digests no

/-- A failed request or message recorded, with its declared and arrived bytes, and its event flag (DG_ERR_STS). -/
def State.digestError (s : State) (no owner status decl arrived : Nat) : State :=
  let s := match status with
    | 2 => (s.setBit Adr.dgEvt 0).inc Adr.dgBusyCnt
    | 4 => s.setBit Adr.dgEvt 1
    | 7 => s.setBit Adr.dgEvt 1
    | 5 => s.setBit Adr.dgEvt 2
    | 6 => s.setBit Adr.dgEvt 2
    | 8 => (s.setBit Adr.dgEvt 3).inc Adr.dgAbandonCnt
    | 9 => s.setBit Adr.dgEvt 4
    | _ => s
  if s.bit Adr.dgErrSts 31 then s
  else
    let i := if no = 16 then 0x1F else no
    let s := s.wr Adr.dgErrSts (BitVec.ofNat 32 (2 ^ 31 + i * 2 ^ 24 + status * 2 ^ 20 + owner))
    (s.wr64 Adr.dgErrDeclLo decl).wr64 Adr.dgErrArrLo arrived

/-- A fenced-for-test request waits for the instance's message to end (R380): it is fenced then. -/
def State.freeDigest (s : State) (no : Nat) : State :=
  let s := { s with digests := mapErase s.digests no }
  if no < 16 ∧ s.test = some (UnitId.digest no) ∧ s.fenceOf (UnitId.digest no) = none then s.setFence (UnitId.digest no) (some .forTest) else s

/-- A message ends without a result (R312, R315). -/
def State.endDigest (s : State) (no status : Nat) : State :=
  match s.digestMsg no with
  | none => s
  | some m => (s.digestError no m.owner status m.decl m.arrived).freeDigest no

/-- Is the destination allowed to the request (R313)? -/
def State.digestDest (s : State) (no owner alg : Nat) (d : DgDest) : Bool :=
  match d with
  | .buffer _ => true
  | .slm n p => s.ownsMem n owner p (digestLen alg)
  | .meas ix => owner == ownerDev && decide (ix < 16) && ((no == 0 && decide (s.stage < 6)) || no == 16)
  | .keySlot k => owner == ownerDev && decide (4129 ≤ k) && decide (k ≤ 4160)
  | .keyRegister => owner == ownerDev

/-- The first failing check of an OPEN request; 0 when all pass (R311). -/
def State.digestCheck (s : State) (no owner alg : Nat) (hmac : Option Nat) (decl : Nat) (dest : DgDest) : Nat :=
  if !s.digestUsable no owner then 1
  else if (s.digestMsg no).isSome then 2
  else if !digestBuilt no alg || (hmac.isSome && decide (4 ≤ alg)) || !s.digestDest no owner alg dest || decl == 0 ||
      decide (2 ^ 40 < decl) then 3
  else if decl % digestBlock alg ≠ 0 then 4
  else
    match hmac with
    | none => 0
    | some k =>
      if s.fld Adr.tcSts 1 0 = 2 then 5
      else if !(s.slotOwned owner k && (s.keySlot k).use == 1) && !(owner == ownerDev && decide (4096 ≤ k)) then 5
      else if (s.keySlot k).state = .empty then 6
      else 0

/-- A message opened. -/
def State.openDigest (s : State) (no owner alg : Nat) (hmac : Option Nat) (decl : Nat) (dest : DgDest) : State :=
  let m : DgMsg := { owner := owner, alg := alg, hmac := hmac, decl := decl, arrived := 0, data := [], dest := dest }
  let s := { s with digests := mapInsert s.digests no m }
  if no < 16 then s.wr64 (Adr.dgInstBytesLo no) 0 else s

/-- The key of an HMAC message. -/
def State.digestKey (s : State) (m : DgMsg) : Option Key := m.hmac.map fun k => (s.keySlot k).key

/-- A key from the first 32 bytes of a digest. -/
def keyOf (d : List Byte) : Key := BitVec.ofNat 256 (leValue (d.take 32))

/-- A result delivered to its destination (R307, R313, R317). -/
def State.deliverDigest (s : State) (no : Nat) (m : DgMsg) (d : List Byte) : State :=
  match m.dest with
  | .buffer p => { s with digestOut := some (no, p, d) }
  | .slm n p => (s.memStore n p d).dramAsk n portHost m.owner p d.length true
  | .meas ix =>
    let v : Digest384 := BitVec.ofNat 384 (leValue d)
    if no = 16 then s.extend ix 2 v else { s with staged := s.staged ++ [v] }
  | .keySlot k => s.loadInternal k 3 (keyOf d)
  | .keyRegister => { s with hubKey := keyOf d }

/-- Data absorbed by a message: a whole number of blocks, at most DECL in all; the FINAL descriptor delivers (R312). -/
def State.absorb (s : State) (no : Nat) (data : List Byte) (final : Bool) : State :=
  match s.digestMsg no with
  | none => s
  | some m =>
    let total := m.arrived + data.length
    let s := if no < 16 then s.wr64 (Adr.dgInstBytesLo no) (min total m.decl) else s
    let m := { m with arrived := total, data := m.data ++ data }
    let s := { s with digests := mapInsert s.digests no m }
    if m.decl < total then s.endDigest no 7
    else if final then
      if total ≠ m.decl then s.endDigest no 7
      else (s.deliverDigest no m (Config.digest m.alg (s.digestKey m) m.data)).freeDigest no
    else if data.length % digestBlock m.alg ≠ 0 then s.endDigest no 4
    else s

/-- A free instance of an owner: the lowest-numbered one of its DG_MASK, or of the unassigned ones for physical function 0
(R260). -/
def State.freeInstance (s : State) (owner : Nat) : Option Nat :=
  (List.range 16).find? fun i => s.digestUsable i owner && (s.digestMsg i).isNone

/-- Has the owner any instance (R260)? -/
def State.anyInstance (s : State) (owner : Nat) : Bool :=
  (List.range 16).any fun i => s.built (UnitId.digest i) &&
    (match s.digestTenant i with
     | some ti => owner == ti
     | none => decide (ownerPf ≤ owner))

end Sys2Proof.Machine
end

