-- ==== Sys2Proof/Machine/ContainOps.lean ====
section
/-!
DEFINITION. Shared operations of containment: invocations and ingests that end early (R243, R258), withdrawn media (R381),
fenced DRAM channels (R296), slices going offline (R382, R383), and fences with their escalation (R377, R378).
-/

namespace Sys2Proof.Machine

/-! ### Invocations (R243, R244) -/

/-- An invocation's work discarded, its contexts and FILTER partitions freed, its flow closed (R239, R243). -/
def State.freeInvocation (s : State) (v : Invocation) : State :=
  let s := s.discardSlice v.slice fun i => i.inv == some v.id
  let s := s.closeCtxs fun k => k.inv == some v.id
  let s := match v.flow with
    | none => s
    | some f => s.modCluster v.slice v.cluster fun k =>
        if k.items.any fun q => q.2.flow == some f then
          { k with flows := k.flows.map fun (q : Nat × Flow) => if q.1 = f then (q.1, { q.2 with closing := true }) else q }
        else { k with flows := mapErase k.flows f }
  let s := v.filters.foldl (fun s q => s.dropPart v.slice q.1 q.2) s
  { s with invocations := recErase Invocation.id s.invocations v.id }

/-- An invocation ends and its command completes (R244). -/
def State.endInvocation (s : State) (v : Invocation) (a : Answer) : State := (s.freeInvocation v).finish v.hdr a

/-- The completion of an invocation: a status, the outcome in DW1[7:0], an engine status in DW1[15:8], DW0 (R244). -/
def runAnswer (st : Status) (outcome engine ret : Nat) : Answer :=
  { ansSt st with dw0 := ret, dw1 := outcome + engine * 256 }

/-- The invocations that satisfy p end with an answer. -/
def State.endInvocations (s : State) (p : Invocation → Bool) (a : Answer) : State :=
  (s.invocations.filter p).foldl (fun s v => s.endInvocation v a) s

/-! ### Ingests (R258) -/

/-- An open ingest abandoned: its LUAs become UNMAPPED, its digest instance is free, a new key's entry is FREE again
(R256, R258). -/
def State.abandon (s : State) (n : Nat) (g : Ingest) : State :=
  let s := ((s.slice n).versions.filter fun v => g.luas.contains v.index).foldl (fun s v =>
    s.clearCond (.programmed n v.wslot)) s
  let s := s.modSlice n fun x =>
    let x := (g.luas.foldl (fun x i => x.switch i .unmapped) x).freeIndex fun e => e.nsid == g.nsid && e.key == g.key && e.state == .pending
    { x with
      versions := x.versions.filter fun v => !(g.luas.contains v.index), ingests := recErase Ingest.id x.ingests g.id }
  match g.digestInst with
  | none => s
  | some i => s.freeDigest i

/-- The open ingests that satisfy p abandoned. -/
def State.abandonAll (s : State) (p : Ingest → Bool) : State :=
  s.sliceList.foldl (fun s n => ((s.slice n).ingests.filter p).foldl (fun s g => s.abandon n g) s) s

/-- A pin of an export stream ends: its digest instance is free, and the LUAs of a version that no entry and no other pin names are
UNMAPPED (R259, R266). keep leaves the stream's place behind, marked lost. -/
def State.unpin (s : State) (n : Nat) (p : Pin) (keep : Bool) : State :=
  let s := match p.inst with
    | none => s
    | some i => s.freeDigest i
  s.modSlice n fun x =>
    let rest := x.pins.filter fun q => q != p
    let gone : Pin := { p with record := none, inst := none, lost := true }
    let x := { x with pins := rest ++ (if keep then [gone] else []) }
    match p.record with
    | none => x
    | some r =>
      if rest.any (fun q => q.record == some r) || x.index.any (fun e => e.2.record == r && e.2.state == KeyState.live) then x
      else x.dropRecord r

/-- What waits for versions of some LUAs takes an answer. -/
def State.failParts (s : State) (n : Nat) (ls : List Nat) (a : Answer) : State :=
  ((s.slice n).versions.filter fun v => ls.contains v.index).foldl (fun s v => s.failCond (.programmed n v.wslot) a) s

/-- A digest instance that ends its message without a result: the ingest or the export that it served ends with it (R266, R312,
R315). Stores that wait take the answer. -/
def State.endInstance (s : State) (no status : Nat) (a : Option Answer) : State :=
  let s := s.endDigest no status
  s.sliceList.foldl (fun s n =>
    let s := ((s.slice n).ingests.filter fun g => g.digestInst == some no).foldl (fun s g =>
      let s := match a with
        | none => s
        | some a => s.failParts n g.luas a
      s.abandon n g) s
    ((s.slice n).pins.filter fun p => p.inst == some no).foldl (fun s p => s.unpin n p true) s) s

/-! ### Withdrawn media (R381) -/

/-- The LUNs that satisfy p withdrawn: open superblocks that hold one close at their current row with their open stripe, what was aimed at the
withdrawn media or not yet programmed into those superblocks starts again elsewhere, and nothing reads or moves units there (R381). -/
def State.withdraw (s : State) (n : Nat) (p : Nat → Bool) : State :=
  let s := s.modSlice n fun x =>
    { x with luns := x.luns.map fun (l : Lun) => if p l.lun then { l with withdrawn := true } else l }
  let mine := (s.slice n).supers.filter fun sb => sb.state == .sopen && sb.blocks.any fun q => p q.1
  let begun (w : FlWork) : Bool := w.inArray && !p w.lun
  let s := match s.desc n with
    | none => s
    | some d => mine.foldl (fun s sb => (s.stopSuper n d .closed (fun w => !begun w) sb).closeStripe n d sb.seq) s
  let s := s.modSlice n fun x =>
    let held (m : Move) : Bool := (x.super m.unit.sb).any x.sbWithdrawn
    let moves := x.moves.filter held
    { (x.dropWorks fun w => p w.lun || moves.any fun m => w.why == .move m.key) with moves := x.moves.filter fun m => !held m }
  s.evalSpare n

/-! ### DRAM channels (R296) -/

/-- Bytes of the memory pool of slice n while it has both DRAM channels (R249). -/
def State.memPool (s : State) (n : Nat) : Nat :=
  let table := match s.desc n with
    | none => 0
    | some d => tableBytes ((s.slice n).luns.length * d.lunBytes) (s.mu n)
  let index := ((s.slice n).indexLog2.map fun k => 2 ^ k * 128).getD 0
  s.dramBytes n - table - 2 * 2 ^ 30 - index - Config.deviceAreaBytes

/-- Bytes of the memory pool with one channel fenced: one copy of the buffer and the smallest table cache (R296). -/
def State.memPoolDegraded (s : State) (n : Nat) : Nat := s.dramBytes n / 2 - 2 ^ 30 - 512 * 2 ^ 20 - Config.deviceAreaBytes

/-- Is one DRAM channel of the slice fenced (R296)? -/
def State.dramDegraded (s : State) (n : Nat) : Bool :=
  (s.fenceOf (UnitId.dramCh n 0)).isSome || (s.fenceOf (UnitId.dramCh n 1)).isSome

/-- Bytes of the memory namespaces of slice n up to a namespace, in order of NSID. -/
def State.memUpTo (s : State) (n nsid : Nat) : Nat :=
  ((s.namespaces.filter fun x => x.kind == .memory && decide (x.nsid ≤ nsid) && x.parts.any fun p => p.slice == n).map
    fun x => x.size * 4096).sum

/-- Is a memory namespace out of service: its slice's one channel has no room for it (R296; log entry 17)? -/
def State.memOut (s : State) (x : Namespace) : Bool :=
  x.parts.any fun p => s.dramDegraded p.slice && decide (s.memPoolDegraded p.slice < s.memUpTo p.slice x.nsid)

/-- A DRAM channel fenced: degraded state, Through, demand paging, memory namespaces cleared, invocations discarded
(R296). -/
def State.dramFenced (s : State) (n c : Nat) : State :=
  let s := (s.putF (Adr.dmChSts n c) 2 0 6).setBit (Adr.dmEvt n) 0
  let s := s.setBit (Adr.dmSts n) 0
  let both := (s.fenceOf (UnitId.dramCh n (1 - c))).isSome
  let s := if both then s.setBit (Adr.dmSts n) 1 else s
  let s := (s.setBit (Adr.ftSts n) 6).setBit (Adr.ftEvt n) 1
  let s := if s.fld (Adr.ftSts n) 2 0 = 2 then s.putF (Adr.ftSts n) 2 0 3 else s
  let s := s.notice 6 (2 * n + c) s.now 0
  let s := s.modSlice n fun x =>
    { x with slm := [], merges := x.merges.filter (fun m => m.ch != c), drams := modAt x.drams c fun d => { d with queue := [] } }
  s.endInvocations (fun v => v.slice == n) (runAnswer stInternal 6 0 0)

/-! ### Slice offline (R382, R383) -/

/-- Can the slice land: a buffer copy and a cipher path remain (R383)? -/
def State.canLand (s : State) (n : Nat) : Bool :=
  s.cipherPath n && !((s.fenceOf (UnitId.dramCh n 0)).isSome && (s.fenceOf (UnitId.dramCh n 1)).isSome)

/-- Acknowledged data of some slices is lost without a record of it: hold-up unhealthy with INCOMPLETE_DUMP, and an event on
every controller of the owners whose namespaces lie there (R339, R383). -/
def State.lostData (s : State) (ns : List Nat) : State :=
  let s := s.declareUnhealthy 8
  let hit := s.namespaces.filter fun x => x.parts.any fun p => ns.contains p.slice
  let owners := (hit.flatMap fun x => x.attachedTis ++ (if x.attachedPfs = [] then [] else [ownerPf])).eraseDups
  owners.foldl (fun s o => (s.ctrlsOf o).foldl (fun s c => s.raise c { etype := 1, info := 0, log := 2 }) s) s

/-- A slice goes offline: it lands, its held commands complete with Slice Offline, and nothing of it answers (R382, R383). -/
def State.goOffline (s : State) (n : Nat) : State :=
  if !s.hasSlice n || (s.slice n).mode == SliceMode.offline || (s.slice n).mode == SliceMode.off then s
  else
    let had := (s.slice n).versions.any fun v => !v.acked.isEmpty
    let s := if s.canLand n then s.landSlice n [] else if had then s.lostData [n] else s
    let s := ((s.slice n).ingests).foldl (fun s g => s.abandon n g) s
    let s := s.endInvocations (fun v => v.slice == n) (ansSt stOffline)
    let s := s.mapInflight fun x =>
      if x.conds.any fun q => match q with
          | .programmed m _ => m == n
          | _ => false
      then { x with answer := ansSt stOffline, conds := [] } else x
    let s := s.modSlice n fun x => { x.powered with mode := .offline }
    let s := (s.putF Adr.tcSts 23 16 (s.fld Adr.tcSts 23 16 ||| 2 ^ n)).setBit Adr.tcEvt 3
    let s := s.openLoop (n + 3)
    [2 * n, 2 * n + 1].foldl (fun s g =>
      if (List.range 4).any fun k => (List.range 64).any fun c =>
          let w := s.rd (Adr.ckBondActive (cellIx c (bondRow g k)))
          entKind (entryA w) == 1 || entKind (entryB w) == 1
      then s.sealedOut g else s) s

/-- The conditions of R382 that a fence can bring about, checked for a slice. -/
def State.checkOffline (s : State) (n : Nat) : State :=
  let both (f : Nat → UnitId) : Bool := (s.fenceOf (f 0)).isSome && (s.fenceOf (f 1)).isSome
  if both (UnitId.dramCh n) || both (UnitId.region n) || !s.cipherPath n then s.goOffline n else s

/-! ### Fences (R377, R378) -/

/-- The local region that contains a slice's unit; the byte-serial unit and the slice DMA channels belong to the die, and a hub unit
to none (R11). -/
def regionOf? (u : UnitId) : Option Nat :=
  match u.kind with
  | 1 => some (u.number / 16)
  | 2 => some (u.number / 2)
  | 3 => some u.number
  | 5 => some (u.number / 2)
  | 6 => some u.number
  | 8 => some (u.number / 4)
  | 9 => some u.number
  | 0xA => some u.number
  | 0xB => some u.number
  | _ => none

/-- The local region of a unit that has one. -/
def unitRegion (u : UnitId) : Nat := (regionOf? u).getD 0

/-- Does a fence of the unit move its region's traffic off the region's own units: a pipe, a pair, an array, a DRAM channel or the region
itself (R182, R205, R222, R296; table Fallbacks of R378)? -/
def fenceMoves (u : UnitId) : Bool := [3, 5, 6, 9, 0xA].contains u.kind

/-- A fence opens the SEALED_OUT interval of its region where it moves traffic off the region's own units or the region's rows hold
SLOT entries, and that of the host-DMA row for HD_00 to HD_03 (R33, R378). -/
def State.sealFence (s : State) (u : UnitId) : State :=
  if 8 ≤ u.slice then (if u.kind = 0x21 ∧ u.number < 4 then s.sealedOut 0x10 else s)
  else match regionOf? u with
    | none => s
    | some r => if fenceMoves u || s.regionSlots (2 * u.slice + r) then s.sealedOut (2 * u.slice + r) else s

/-- The code of a cause in TC_FAULT_LAST. -/
def causeCode : FenceCause → Nat
  | .late => 1
  | .sramUe => 2
  | .verify => 3
  | .train => 4
  | .testFail => 5
  | .power => 6
  | .sensor => 7
  | .link => 8

/-- What leaves service with one unit: items, media, entries, messages (R182, R212, R232, R296, R315, R378, R381). -/
def State.takeOut (s : State) (u : UnitId) : State :=
  let n := u.slice
  match u.kind with
  | 1 => s.cutCore n u.number
  | 2 =>
    let s := s.endInvocations (fun v => v.slice == n && v.cluster == u.number) (runAnswer stInternal 6 0 0)
    let s := s.discardItems n u.number fun _ => true
    (List.range 8).foldl (fun s k => s.cutCore n (8 * u.number + k)) s
  | 6 => s.clearArray n u.number
  | 8 => s.withdraw n fun l => lunCh l == u.number
  | 9 => s.dramFenced n u.number
  | 0xA => s.withdraw n fun l => lunRegion l == u.number
  | 0xB => s.withdraw n fun l => lunRegion l == u.number
  | 0x20 => s.endInstance u.number 9 (some (ansSt stInternal))
  | _ => s

/-- A fence for fault recorded: the unit's state, its count, TC and TS registers (R377, R378). -/
def State.markFault (s : State) (u : UnitId) (cause : FenceCause) : State :=
  let s := s.setFence u (some .forFault)
  let s := { s with fenceCounts := s.fenceCounts.filter (fun (p : UnitId × Nat) => p.1 != u) ++ [(u, s.fenceTimes u + 1)] }
  let s := (s.inc Adr.tcFaultCnt).setBit Adr.tcEvt 2
  let s := if u.slice < 8 then s.inc (Adr.tsFenceCnt u.slice) else s
  let s := if s.bit Adr.tcFaultLast 31 then s
    else s.wr Adr.tcFaultLast (BitVec.ofNat 32 (2 ^ 31 + causeCode cause * 2 ^ 24 + u.word))
  (s.linkError false).sealFence u

/-- The units that a fenced region takes with it: its DRAM channel and its engines (R376, R381). -/
def regionUnits (n r : Nat) : List UnitId :=
  [UnitId.dramCh n r, UnitId.cluster n (2 * r), UnitId.cluster n (2 * r + 1), UnitId.pipe n r, UnitId.pair n (2 * r),
    UnitId.pair n (2 * r + 1), UnitId.array n r]

/-- A unit fenced for fault, without escalation; a unit that is fenced for fault already stays so. -/
def State.fenceOne (s : State) (u : UnitId) (cause : FenceCause) : State :=
  if !s.built u || s.fenceOf u == some Fence.forFault then s else (s.markFault u cause).takeOut u

/-- A region fenced for fault: its media, DRAM channel and engines are withdrawn (R376, R378, R381). -/
def State.fenceRegion (s : State) (n r : Nat) (cause : FenceCause) : State :=
  if s.fenceOf (UnitId.region n r) == some Fence.forFault then s
  else
    let s := s.fenceOne (UnitId.region n r) cause
    (regionUnits n r).foldl (fun s u =>
      if s.built u && (s.fenceOf u).isNone then (s.setFence u (some .forFault)).takeOut u else s) s

/-- A unit fenced for fault, with the escalation to cluster, region and slice (R377, R378, R382). -/
def State.fenceFault (s : State) (u : UnitId) (cause : FenceCause) : State :=
  if u.kind = 0xC then
    if !s.built u || (s.slice u.slice).mode == SliceMode.offline then s
    else (s.markFault u cause).goOffline u.slice
  else if u.kind = 0xA then
    if s.built u then (s.fenceRegion u.slice u.number cause).checkOffline u.slice else s
  else
    let s := s.fenceOne u cause
    let n := u.slice
    let s := if u.kind = 1 then
        let c := u.number / 8
        let left := ((List.range 8).filter fun k => s.active (UnitId.core n (8 * c + k))).length
        if s.built u && decide (left < 2) then s.fenceOne (UnitId.cluster n c) cause else s
      else s
    let r := unitRegion u
    let bothOut := u.kind ≤ 2 && s.fenceOf (UnitId.cluster n (2 * r)) == some Fence.forFault &&
      s.fenceOf (UnitId.cluster n (2 * r + 1)) == some Fence.forFault
    let s := if bothOut then s.fenceRegion n r cause else s
    if u.slice < 8 ∧ s.hasSlice u.slice ∧ (s.slice u.slice).mode ≠ .off then s.checkOffline u.slice else s

end Sys2Proof.Machine
end

