-- ==== Sys2Proof/Machine/Power.lean ====
section
/-!
DEFINITION. Meanings of the supply, hold-up, control-loop and Dump commands (R322 to R343, R402, R404).
-/

namespace Sys2Proof.Machine

/-! ### Supply conditions (R323) -/

/-- A measurement step ends without a result, and LOOP_00 follows LOOP_01 again (R330). -/
def State.stopMeasure (s : State) : State :=
  if s.power.measuring then
    (s.modPower fun p => { p with measuring := false }).wrQ (Adr.pwLoopSp 0) (s.q (Adr.pwLoopOut 1))
  else s

/-- A sag is detected: counted, a measurement under way is abandoned, and the next supervisor step acts on it
(R323, R330, R362). -/
def execSagDetect (s : State) : Host.Outcome State Fault Refusal :=
  if s.power.sag || s.dumping then .next s
  else
    let s := (s.setBit Adr.pwEvt 0).inc Adr.pwSagCnt
    let s := s.modNvm fun v => { v with sagCnt := v.sagCnt + 1 }
    let s := (s.stopMeasure).modPower fun p => { p with sag := true, sagLong := false, sagAt := s.now }
    .next (s.putF Adr.pwHuSts 15 0 0)

/-- A sag ends after a number of microseconds: its length goes to SAG_MS and to series 0x09 (R323, R369). -/
def execSagEnd (us : Nat) (s : State) : Host.Outcome State Fault Refusal :=
  if !s.power.sag then .next s
  else
    let s := s.modPower fun p => { p with sag := false, sagLong := false }
    .next ((s.putF Adr.pwHuSts 15 0 (min 65535 (us / 1000))).event (.sample 9 us))

/-- A sag has lasted RIDE_MS: the next supervisor step in RIDE enters DUMP with reason SAG_TIME (R323, R332). -/
def execBrownOut (s : State) : Host.Outcome State Fault Refusal :=
  if s.power.sag then .next (s.modPower fun p => { p with sagLong := true }) else .next s

/-- A recorded surge: the event flag; the recorder's supply series takes the samples themselves (R323, R369). -/
def execSurgeRecorded (s : State) : Host.Outcome State Fault Refusal := .next (s.setBit Adr.pwEvt 1)

/-- A surge trip: the next supervisor step enters DUMP with reason SURGE (R323, R332). -/
def execSurgeTrip (s : State) : Host.Outcome State Fault Refusal :=
  .next (s.modPower fun p => { p with surge := true })

/-- Is the code of a sense input outside its range (R323)? Inputs: 1 HU_VSENSE, 2 HU_ISENSE. -/
def State.senseOut (s : State) (input code : Nat) : Bool :=
  if input = 2 then code == 0 || code == 4095
  else if input = 1 then
    code == 4095 || (code == 0 && s.huMode == modeCharge && decide (s.power.modeAt + coursesOfMs 2000 < s.now))
  else false

/-- A sense input at an out-of-range code for 1 ms: hold-up unhealthy with SENSE_RANGE (R323, R334). -/
def execSenseFault (input code : Nat) (s : State) : Host.Outcome State Fault Refusal :=
  if s.senseOut input code then
    .next ((s.modPower fun p => { p with senseBad := true }).declareUnhealthy 6)
  else .next s

/-- A thermal trip: the next supervisor step enters DUMP with reason THERMAL (R343). -/
def execThermalTrip (sensor : Nat) (s : State) : Host.Outcome State Fault Refusal :=
  if s.hasSlice (sensor / 2) then .next (s.modPower fun p => { p with thermal := true }) else .next s

/-! ### Control loops (R325 to R328) -/

/-- The order in which loops are computed: one whose output is another's setpoint first, else ascending (R325). -/
def State.loopOrder (s : State) : Nat → List Nat → List Nat
  | 0, l => l
  | fuel + 1, l =>
    match l.find? fun n => !(l.any fun m => m != n && s.fld (Adr.pwLoopCtl m) 23 16 == 0x10 + n) with
    | none => l
    | some n => n :: s.loopOrder fuel (l.filter (· != n))

/-- One loop computed on its measurement (R325). -/
def State.loopStep (s : State) (n : Nat) (m : Int) : State :=
  let g := s.gains n
  let d0 := (mapGet s.power.deriv n).getD 0
  let e := qSub (s.q (Adr.pwLoopSp n)) m
  let dm := qSub m ((mapGet s.power.prev n).getD 0)
  let nk := qSub 0 g.2.2
  let p1 := qMul nk.1 dm.1
  let p2 := qSub p1.1 d0
  let p3 := qMul (s.q (Adr.pwLoopAlpha n)) p2.1
  let d := qAdd d0 p3.1
  let i0 := s.q (Adr.pwLoopInt n)
  let u1 := qMul g.1 e.1
  let u2 := qAdd u1.1 i0
  let u3 := qAdd u2.1 d.1
  let hi := s.q (Adr.pwLoopOmax n)
  let lo := s.q (Adr.pwLoopOmin n)
  let ua := if hi < u3.1 then hi else u3.1
  let up := decide (hi < u3.1)
  let ub := if ua < lo then lo else ua
  let down := decide (ua < lo)
  let wind := (up && decide (0 < e.1)) || (down && decide (e.1 < 0))
  let ki := qMul g.2.1 e.1
  let i1 := qAdd i0 ki.1
  let sat := e.2 || dm.2 || nk.2 || p1.2 || p2.2 || p3.2 || d.2 || u1.2 || u2.2 || u3.2 || (!wind && (ki.2 || i1.2))
  let st := Adr.pwLoopSts n
  let s := if sat then s.setBit st 3 else s
  let s := if up || down then s.setBit st 4 else s
  let s := if wind then s.setBit st 5 else s
  let was := s.q (Adr.pwLoopOut n)
  let s := if wind then s else s.wrQ (Adr.pwLoopInt n) (qClamp i1.1 lo hi)
  let s := (s.wrQ (Adr.pwLoopMeas n) m).wrQ (Adr.pwLoopOut n) ub
  let s := s.modPower fun p => { p with deriv := mapInsert p.deriv n d.1, prev := mapInsert p.prev n m }
  let sink := s.fld (Adr.pwLoopCtl n) 23 16
  if 0x10 ≤ sink ∧ sink ≤ 0x1F then
    if sink = 0x10 ∧ s.power.measuring then s else s.wrQ (Adr.pwLoopSp (sink - 0x10)) ub
  else if sink = 2 ∧ 65536 ≤ was ∧ ub < 65536 then s.setBit Adr.pwEvt 6
  else s

/-- The measurement of a loop: its source's value, another loop's output, or the last one where none is given (R322,
R326). -/
def State.loopMeas (s : State) (meas : List (Nat × Int)) (n : Nat) : Int :=
  let c := s.loopSource n
  if 0x30 ≤ c ∧ c ≤ 0x3F then s.q (Adr.pwLoopOut (c - 0x30))
  else ((meas.find? fun p => p.1 == c).map (·.2)).getD (s.q (Adr.pwLoopMeas n))

/-- Millis of a Q16.16 value. -/
def milliOfQ (v : Int) : Int := (v * 1000).tdiv 65536

/-- The sense registers follow the samples: bank current, bank voltage, supply voltage, package power (R322, R326), and
with both bank inputs whether they are in range (R323, R404). -/
def State.takeSense (s : State) (meas : List (Nat × Int)) : State :=
  let get (c : Nat) : Option Int := (meas.find? fun p => p.1 == c).map (·.2)
  let s := match get 1 with
    | none => s
    | some v => s.putF Adr.pwSenseI 15 0 (BitVec.ofInt 16 (milliOfQ v)).toNat
  let s := match get 2 with
    | none => s
    | some v => s.putF Adr.pwSenseV 15 0 (min 65535 (milliOfQ v).toNat)
  let s := match get 3 with
    | none => s
    | some v => s.putF Adr.pwSenseV 31 16 (min 65535 (milliOfQ v).toNat)
  let s := match get 4 with
    | none => s
    | some v => s.wr Adr.pwPwr (BitVec.ofNat 32 (milliOfQ v).toNat)
  match get 1, get 2 with
  | some i, some v =>
    let full : Int := 45 * 65536
    let bad := decide (full * 4095 ≤ v * 4096) || decide (i ≤ -full) || decide (full * 4095 ≤ (i + full) * 2048)
    s.modPower fun p => { p with senseBad := bad }
  | _, _ => s

/-- Junction temperatures of the regions, in 1/256 °C (PW_TJ). -/
def State.takeTemps (s : State) (temps : List (Nat × Int)) : State :=
  temps.foldl (fun s t =>
    if s.hasSlice (t.1 / 2) then s.putF (Adr.pwTj t.1) 15 0 (BitVec.ofInt 16 t.2).toNat else s) s

/-- The junction temperature of a global region, in 1/256 °C. -/
def State.regionTemp (s : State) (g : Nat) : Int := (BitVec.ofNat 16 (s.fld (Adr.pwTj g) 15 0)).toInt

/-- The rate step that a temperature selects for a search array from its present step (R220). -/
def rateStep (now : Nat) (t : Int) : Nat :=
  let c (k : Int) : Int := 256 * k
  match now with
  | 0 => if t < c 95 then 0 else if t < c 100 then 1 else if t < c 105 then 2 else 3
  | 1 => if c 105 ≤ t then 3 else if c 100 ≤ t then 2 else if t < c 92 then 0 else 1
  | 2 => if c 105 ≤ t then 3 else if t < c 92 then 0 else if t < c 97 then 1 else 2
  | _ => if t < c 92 then 0 else if t < c 97 then 1 else if t < c 102 then 2 else 3

/-- The search arrays' rate steps, which apply at the next course boundary (R220). -/
def State.takeRateSteps (s : State) : State :=
  s.sliceList.foldl (fun s n => [0, 1].foldl (fun s r =>
    if !s.built (UnitId.array n r) then s
    else
      let k := rateStep (s.searchRate n r) (s.regionTemp (2 * n + r))
      s.modArray n r fun a => { a with pendingRate := if k = s.searchRate n r then none else some k }) s) s

/-- Every 4 courses: the sense registers, each closed loop, and the search arrays' steps (R26, R220, R322, R325). The
measurements are Q16.16 values by source code, the temperatures 1/256 °C by global region. -/
def execControlLoopSample (meas : List (Nat × Int)) (temps : List (Nat × Int)) (s : State) :
    Host.Outcome State Fault Refusal :=
  if !s.course.running || s.now % 4 != 0 || s.dumping && s.huMode == modeDown then .next s
  else
    let s := (s.takeSense meas).takeTemps temps
    let loops := (List.range 16).filter fun n => s.loopClosed n && s.loopExists n
    let s := (s.loopOrder 16 loops).foldl (fun s n => s.loopStep n (s.loopMeas meas n)) s
    .next s.takeRateSteps

/-- Is the following error of a loop counted now: not in mode OFF, not within 4 ms of a mode change for LOOP_00 and LOOP_01,
not for LOOP_01 in CHARGE (R328)? -/
def State.feCounts (s : State) (n : Nat) : Bool :=
  let m := s.fld (Adr.pwLoopCtl n) 30 29
  s.loopClosed n && (m == 1 || m == 2) &&
    !(decide (n ≤ 1) && decide (s.now < s.power.modeAt + coursesOfMs 4)) && !(n == 1 && s.huMode == modeCharge)

/-- A following-error trip: FE_TRIP is set and the loop opens; LOOP_00 and LOOP_01 declare hold-up unhealthy (R327, R328,
R334). -/
def execFeTrip (loop : Nat) (s : State) : Host.Outcome State Fault Refusal :=
  if !s.feCounts loop then .next s
  else
    let s := (s.setBit (Adr.pwLoopSts loop) 7).openLoop loop
    .next (if loop ≤ 1 then s.declareUnhealthy (loop + 1) else s)

/-- CLOSED written 1 on an open loop (R327). -/
def State.loopClose (s : State) (n : Nat) (m : Int) : State :=
  if s.loopExists n && !s.loopClosed n && !s.minimal then s.closeLoop n m else s

/-- CLOSED written 0 on a closed loop; LOOP_00 and LOOP_01 declare hold-up unhealthy (R327, R334). -/
def State.loopOpen (s : State) (n : Nat) : State :=
  if !s.loopClosed n then s
  else
    let s := s.openLoop n
    if n ≤ 1 then s.declareUnhealthy 3 else s

/-- A loop closes on its present measurement (R327). -/
def execLoopClose (loop : Nat) (meas : Int) (s : State) : Host.Outcome State Fault Refusal := .next (s.loopClose loop meas)

/-- A loop opens (R327). -/
def execLoopOpen (loop : Nat) (s : State) : Host.Outcome State Fault Refusal := .next (s.loopOpen loop)

/-! ### Measurement and energy (R329, R330, R336) -/

/-- A wanted measurement begins in FLOAT: LOOP_00's setpoint is −STEP_MA (R330). -/
def State.beginMeasure (s : State) : State :=
  if s.power.measureWanted && s.huMode == modeFloat && !s.power.measuring && !s.power.sag then
    (s.modPower fun p => { p with measureWanted := false, measuring := true }).wrQ (Adr.pwLoopSp 0)
      (-(qOfMilli (s.fld Adr.pwHuMcfg 31 16)))
  else s

/-- PW_HU_CTL.MEASURE: a measurement in the next FLOAT (R330). -/
def State.wantMeasure (s : State) : State := (s.modPower fun p => { p with measureWanted := true }).beginMeasure

/-- PW_HU_CTL.MEASURE written (R330). -/
def execMeasureRequest (s : State) : Host.Outcome State Fault Refusal := .next s.wantMeasure

/-- A measurement falls due: at the first FLOAT after a start, every 24 h, or 1 h after one was abandoned (R330). -/
def execCapacitanceMeasureDue (s : State) : Host.Outcome State Fault Refusal := .next s.wantMeasure

/-- ENERGY_LOW: the usable energy at FLOAT_MV is below need with an empty buffer, once a measurement exists (R334). -/
def State.checkEnergy (s : State) : State :=
  if s.nvm.capUf ≠ 0 ∧ s.eUse < s.needOf (fun _ => 0) then s.declareUnhealthy 4 else s

/-- Capacitance in µF of a step that reads V1 after 1 ms and V2 at its end, in mV; none where it cannot be computed (R330). -/
def State.stepCap (s : State) (v1 v2 : Nat) : Option Nat :=
  if v1 ≤ v2 then none
  else some (s.fld Adr.pwHuMcfg 31 16 * (s.fld Adr.pwHuMcfg 15 0 - 1) * 1000 / (v1 - v2))

/-- A measurement step ends: C and ESR are stored and the buffer sized, or the result is rejected (R330, R334, R336). -/
def execCapacitanceMeasureEnd (v0 v1 v2 : Nat) (s : State) : Host.Outcome State Fault Refusal :=
  if !s.power.measuring then .next s
  else
    let s := (s.stopMeasure).setBit Adr.pwEvt 4
    let c := (s.stepCap v1 v2).getD 0
    if c < 10000 ∨ 100000000 < c then
      let s := s.modPower fun p => { p with measureRejects := p.measureRejects + 1 }
      .next (if 2 ≤ s.power.measureRejects then s.declareUnhealthy 7 else s)
    else
      let i := s.fld Adr.pwHuMcfg 31 16
      let esr := if i = 0 then 0 else (v0 - v1) * 1000 / i
      let s := s.modPower fun p => { p with measureRejects := 0 }
      let s := s.modNvm fun v => { v with capUf := c, esrMohm := esr }
      let s := (s.wr Adr.pwHuCapUf (BitVec.ofNat 32 c)).putF Adr.pwHuEsr 15 0 (min 65535 esr)
      .next (((s.resizeBuffers true).checkEnergy).evalArmed false)

/-- Pool write amplification of the last hour of a slice's own pool, kept and recorded; nothing where no host byte was
written, for which the spec states no figure, so it is free (R139, R369; log entry 4). -/
def State.takeWaHour (s : State) (n : Nat) : State :=
  let h := (s.slice n).waHour
  if h.1 = 0 then
    let f := s.free
    (f.2.modSlice n fun x => { x with waHour := (0, 0), waHourFig := f.1 % 2 ^ 32 }).event (.sample 0x10 ((f.1 % 2 ^ 31 : Nat) : Int))
  else
    let w := h.2 * 1000 / h.1
    (s.modSlice n fun x => { x with waHour := (0, 0), waHourFig := w }).event (.sample 0x10 w)

/-- Hourly: flush rates, buffer size, ENERGY_LOW, and the write amplification samples (R329, R334, R336, R369). -/
def execFlushRateUpdate (s : State) : Host.Outcome State Fault Refusal :=
  let s := ((s.takeRates).resizeBuffers false).checkEnergy
  .next (s.sliceList.foldl (fun s n => s.takeWaHour n) s)

/-! ### The supervisor (R331 to R335) -/

/-- CHG_S elapsed in CHARGE: unhealthy with CHG_TIMEOUT (R332). -/
def execChargeTimeout (s : State) : Host.Outcome State Fault Refusal :=
  .next (if s.huMode = modeCharge then s.declareUnhealthy 5 else s)

/-- PW_HU_CTL.CLEAR: takes effect only with LOOP_00 and LOOP_01 closed and the sense inputs in range (R334). -/
def State.holdupClear (s : State) : State :=
  if s.unhealthy && s.loopClosed 0 && s.loopClosed 1 && !s.power.senseBad then
    ((s.clrBit Adr.pwSts 4).putF Adr.pwHuSts 31 28 0).evalArmed false
  else s

/-- PW_HU_CTL.CLEAR written (R334). -/
def execHoldupClear (s : State) : Host.Outcome State Fault Refusal := .next s.holdupClear

/-- The energy figures of a supervisor step and CEIL_MIB (R331, R333). -/
def State.superFigures (s : State) : State :=
  let s := (s.wr Adr.pwHuEliveMj (BitVec.ofNat 32 (s.eLive * 1000).floor.toNat)).wr Adr.pwHuNeedMj
    (BitVec.ofNat 32 (s.need * 1000).floor.toNat)
  s.putF Adr.pwHuWb 31 16 s.ceilMib

/-- Entry into CHARGE: the charge timer starts (R332). -/
def State.enterCharge (s : State) : State := (s.setMode modeCharge).modPower fun p => { p with chargeAt := s.now }

/-- The transitions of one supervisor step (R332). Where several rows apply, a surge, a thermal trip and an unhealthy event
come before the rows of RIDE in the table's order. -/
def State.superMove (s : State) : State :=
  let m := s.huMode
  if s.power.surge then s.enterDump 3
  else if s.power.thermal then s.enterDump 4
  else if m = modeOff then
    if s.power.sag then s.enterDump 5
    else if s.bit Adr.pwHuCtl 0 && !s.unhealthy then s.enterCharge
    else s
  else if m = modeCharge ∨ m = modeFloat then
    if s.power.sag then (if s.enough then (s.setMode modeRide) else s.enterDump 2)
    else if m = modeCharge then
      if s.floatMv ≤ s.bankMv + s.bandMv then
        (s.setMode modeFloat).modPower fun p => { p with throughPending := false }
      else s
    else if s.bankMv + 2 * s.bandMv < s.floatMv ∧ ¬ s.power.measuring then s.enterCharge
    else s
  else
    if s.unhealthy then s.enterDump 5
    else if !s.power.sag then
      let s := ((s.setBit Adr.pwEvt 2).inc Adr.pwRideCnt).modNvm fun v => { v with rideCnt := v.rideCnt + 1 }
      s.enterCharge
    else if s.power.sagLong then s.enterDump 1
    else if !s.enough then s.enterDump 2
    else s

/-- The interval notice of an unhealthy hold-up ends once no buffer holds an acknowledged version (R334). -/
def State.closeUnhealthy (s : State) : State :=
  match s.power.unhealthyOpen with
  | none => s
  | some c =>
    if s.anyAcked then s
    else (s.closeInterval 2 c).modPower fun p => { p with unhealthyOpen := none }

/-- LOOP_01's setpoint of the mode (R326). -/
def State.holdSetpoint (s : State) : State :=
  s.wrQ (Adr.pwLoopSp 1) (if s.huMode = modeRide ∨ s.huMode = modeDump then s.q Adr.pwRideSp else qOfMilli s.floatMv)

/-- Every 16 courses the supervisor evaluates the energy and changes the hold-up mode (R26, R331 to R335). -/
def execSupervisorStep (s : State) : Host.Outcome State Fault Refusal :=
  if !s.course.running || s.now % 16 != 0 || s.minimal || s.huMode == modeDown then .next s
  else
    let s := if s.power.sag then
        s.putF Adr.pwHuSts 15 0 (min 65535 ((s.now - s.power.sagAt) * 39 / 10000))
      else s
    let s := s.superFigures
    if s.huMode = modeDump then .next s
    else
      let s := s.superMove
      if s.dumping then .next s
      else .next (((s.holdSetpoint).evalArmed true).closeUnhealthy).beginMeasure

/-! ### The end of a Dump (R337, R340, R356, R373) -/

/-- Step 7 of a Dump records how the attempt ends: SUPPLY with the count restored for SAG_TIME and ENERGY, else DUMP (R354,
R356). -/
def State.dumpCause (s : State) : State :=
  if s.power.dumpReason = 1 ∨ s.power.dumpReason = 2 then
    (s.noteEnd 6).modNvm fun v => { v with failCnt := if v.attempt.isSome then s.start.readFail else v.failCnt }
  else s.noteEnd 2

/-- The allowances of the tenants stored (R83, R362). -/
def State.storeWear (s : State) : State := s.modNvm fun v => { v with wear := s.tenants.map fun t => (t.ti, t.allowance) }

/-- A package reset that a Dump put off takes effect (R386, R406). -/
def State.resetIfLow (s : State) : State := if s.held then s.packageReset else s

/-- A Dump ends: every slice has landed but for the versions named (slice, slot); step 7 writes the mark, the cause, the
DUMP notice and the recorder, and the mode is DOWN (R337, R338, R356, R371, R373). -/
def execDumpComplete (unlanded : List (Nat × Nat)) (s : State) : Host.Outcome State Fault Refusal :=
  if s.huMode ≠ modeDump then .next s
  else
    let s := s.sliceList.foldl (fun s n =>
      s.landSlice n ((unlanded.filter fun u => u.1 == n).map (·.2))) s
    let s := { s with pins := { s.pins with wpN := [] } }
    let s := (s.dumpCause).storeWear
    let s := s.modNvm fun v =>
      { v with dumpMark := true, lastDump := s.power.dumpReason, lastEnd := s.power.dumpReason }
    let s := (s.notice 3 s.power.dumpReason s.power.dumpAt s.now).writeRecorder
    .next (s.setMode modeDown).resetIfLow

/-- In DOWN, a supply good for 100 ms: package reset and a normal start (R340). -/
def execDownSupplyGood (s : State) : Host.Outcome State Fault Refusal :=
  .next (if s.huMode = modeDown then s.restart 1 else s)

/-- In DOWN, the bank falls below VMIN_MV and the hub stops (R340). -/
def execBankExhausted (s : State) : Host.Outcome State Fault Refusal :=
  if s.huMode ≠ modeDown then .next s
  else
    let s := s.packageReset
    .next { s with pins := { s.pins with powered := false } }

end Sys2Proof.Machine
end

