-- ==== Sys2Proof/Machine/Recorder.lean ====
section
/-!
DEFINITION. Meanings of the event-recorder commands (R368 to R374).
-/

namespace Sys2Proof.Machine

/-- A minute boundary: ST_MINUTES rises, the allowances are stored, and the recorder writes its notices and image, or waits
for the thaw (R362, R368, R372 to R374). -/
def execMinuteTick (s : State) : Host.Outcome State Fault Refusal :=
  if s.held then .next s
  else
    let s := (s.modNvm fun v => { v with minutes := v.minutes + 1 }).storeWear
    .next (if s.frozen then s.modRec fun r => { r with minuteDue := true } else s.writeRecorder)

/-- Is the series one of the periodic ones, and of a slice that is present (R369)? -/
def State.periodic (s : State) (id : Nat) : Bool :=
  s.hasSlice id && decide (id < 8) || id == 8 || (decide (0xB ≤ id) && decide (id ≤ 0xE))

/-- Every 256 courses the periodic samples are recorded; a period that the freeze covers is missed (R26, R369, R374). -/
def execRecorderBinning (samples : List (Nat × Int)) (s : State) : Host.Outcome State Fault Refusal :=
  if s.held || !s.course.running || s.now % 256 != 0 then .next s
  else if s.frozen then .next ((s.modRec fun r => { r with missed := r.missed + 1 }).inc Adr.evMissed)
  else .next (samples.foldl (fun s p => if s.periodic p.1 then s.record p.1 p.2 else s) s)

/-- EV_CTL.FREEZE: refused within 10 s of a thaw (R374). -/
def State.freeze (s : State) : State :=
  if s.frozen then s
  else if s.recorder.thawAt.any fun t => decide (s.now < t + coursesOfMs 10000) then s.setBit Adr.evSts 2
  else (s.setBit Adr.evSts 0).modRec fun r => { r with freezeAt := s.now }

/-- EV_CTL.FREEZE written (R374). -/
def execRecorderFreeze (s : State) : Host.Outcome State Fault Refusal := .next s.freeze

/-- EV_CTL.THAW written (R374). -/
def execRecorderThaw (s : State) : Host.Outcome State Fault Refusal := .next s.thaw

/-- A freeze has lasted 1 s: it ends and AUTO_THAW is set (R374). -/
def execRecorderAutoThaw (s : State) : Host.Outcome State Fault Refusal :=
  .next (if s.frozen then (s.thaw).setBit Adr.evSts 1 else s)

end Sys2Proof.Machine
end

