-- ==== Sys2Proof/Machine/Start.lean ====
section
/-!
DEFINITION. Meanings of the start, reset, package-fault and boundary-scan commands (R348 to R360, R385, R386, R401, R405,
R406), and of the rebuild of the slices (R129, R350).
-/

namespace Sys2Proof.Machine

/-! ### RESET_N, power, boundary scan -/

/-- RESET_N rises with the supplies in range: the start sequence begins (R348). -/
def execResetNRise (s : State) : Host.Outcome State Fault Refusal :=
  if s.pins.resetN && s.pins.powered then .next s
  else
    let s := { s with pins := { s.pins with resetN := true, powered := true } }
    .next (if s.held then s else s.beginStart)

/-- RESET_N falls: an external package reset, which a Dump puts off until DOWN (R406). -/
def execResetNFall (s : State) : Host.Outcome State Fault Refusal :=
  let t := { s with pins := { s.pins with resetN := false } }
  .next (if s.huMode = modeDump then t else t.packageReset)

/-- A supply rail leaves its range while RESET_N is high: power is lost without a Dump, or while one runs; the next start
treats the slices under R339 (R354, R369, R401). -/
def execPowerLostWithoutDump (s : State) : Host.Outcome State Fault Refusal :=
  if s.held then .next s
  else
    let s := if s.dumping then s
      else s.modNvm fun v => { v with lastEnd := 7, dumpBegun := true, dumpMark := false }
    .next { s with pins := { s.pins with resetN := false, powered := false } }.packageReset

/-- Does a boundary-scan instruction hold the package in reset (R386)? -/
def JtagHold : JtagInstr → Bool
  | .extest => true
  | .extestPulse => true
  | .extestTrain => true
  | .clamp => true
  | .highz => true
  | .bypass => false
  | .idcode => false
  | .samplePreload => false

/-- TC_STS.JTAG: BSCAN while a boundary-scan instruction is selected, unless private debug is unlocked (R386). -/
def State.jtagField (s : State) (scan : Bool) : State :=
  if s.fld Adr.tcSts 1 0 = 2 then s else s.putF Adr.tcSts 1 0 (if scan then 1 else 0)

/-- A boundary-scan instruction is selected (R386). -/
def execJtagInstruction (instr : JtagInstr) (s : State) : Host.Outcome State Fault Refusal :=
  if JtagHold instr then
    let s := { s with pins := { s.pins with jtagHold := true } }
    .next ((if s.huMode = modeDump then s else s.packageReset).jtagField true)
  else .next (s.jtagField (s.pins.jtagHold || instr == JtagInstr.samplePreload))

/-- A TAP reset releases the package from the reset that an instruction held (R386). -/
def execTapReset (s : State) : Host.Outcome State Fault Refusal :=
  let t := { s with pins := { s.pins with jtagHold := false } }
  let t := t.jtagField false
  .next (if s.pins.jtagHold && !t.held && !t.dumping then t.beginStart else t)

/-- A signed unlock challenge, accepted by the ROM in minimal mode or before image verification (R386). -/
def execDebugUnlock (signed : Bool) (s : State) : Host.Outcome State Fault Refusal :=
  if signed && !s.held && (s.minimal || decide (s.stage ≤ 1)) then
    let s := s.putF Adr.tcSts 1 0 2
    .next (if s.minimal then s.extendMode true else s)
  else .next s

/-! ### Start steps (R348 to R351, R355) -/

/-- Step 6 of R304 ends (R307, R348, R349). -/
def execImageVerified (s : State) : Host.Outcome State Fault Refusal := .next (if s.held then s else s.imageVerified)

/-- LUNs that the format metadata lists and that no ACTIVE target serves have failed; those of a channel in FAULT are withdrawn instead (R147,
R381). -/
def State.missingLuns (s : State) (n : Nat) : State :=
  let gone := (s.slice n).luns.filter fun l =>
    decide (0 < l.goodAtFormat) && !l.active && s.fld (Adr.flChSts n (lunCh l.lun)) 2 0 == 3
  gone.foldl (fun s l => s.lunFailed n l.lun 5) s

/-- The rebuild of a slice (R129, R256): format metadata and mapping are read back, landed versions are restored, LUNs that are missing have
failed, and a Dump without its mark leaves hold-up unhealthy with INCOMPLETE_DUMP (R147, R339). -/
def State.rebuild (s : State) (n : Nat) : State :=
  let s := if s.stage = 3 then s.setStage 4 else s
  let s := (s.putF (Adr.ftCfg n) 1 0 ((s.slice n).muFmt.getD 3)).putF (Adr.ftSts n) 2 0 4
  let s := ((s.rebuildMap n).missingLuns n).sizeReserve n false
  if s.nvm.dumpBegun && !s.nvm.dumpMark then
    let s := if s.unhealthy && s.fld Adr.pwHuSts 31 28 == 8 then s else s.notice 0x0C 0 0 0
    s.lostData [n]
  else s

/-- A released slice starts its rebuild, a late one too (R129, R348, R350). -/
def execSliceRebuild (slice : Nat) (s : State) : Host.Outcome State Fault Refusal :=
  if !s.hasSlice slice then .next s
  else
    match (s.slice slice).mode with
    | .released => .next (((s.modSlice slice fun x => { x with mode := .rebuilding }).rebuild slice))
    | .late => .next (if s.fld (Adr.ftSts slice) 2 0 = 4 then s else s.rebuild slice)
    | _ => .next s

/-- FT_STS.STATE of a slice whose rebuild has ended. -/
def State.settledState (s : State) (n : Nat) : Nat :=
  if s.formatted n then (if s.dramDegraded n then 3 else 2)
  else if (s.smallestMu n).isSome then 0 else 5

/-- A rebuild ends: the slice is online, a late one rejoins, and the start may reach READY; a rebuild that failed takes the
slice offline (R348, R350, R382). -/
def execSliceRebuildDone (slice : Nat) (ok : Bool) (s : State) : Host.Outcome State Fault Refusal :=
  let late := (s.slice slice).mode == SliceMode.late
  if !(s.hasSlice slice && ((s.slice slice).mode == SliceMode.rebuilding || late) && s.fld (Adr.ftSts slice) 2 0 == 4)
  then .next s
  else
    let s := if late then s.closeInterval 0xB slice else s
    let s := if ok then
        let s := s.modSlice slice fun x => { x with mode := .online, bondWait := late }
        (((s.putF (Adr.ftSts slice) 2 0 (s.settledState slice)).evalSpare slice).openPools slice).updateWearRate
      else s.goOffline slice
    .next s.reachReady

/-- At t0 + 25 s a slice that still rebuilds is late, and READY goes on without it (R350). -/
def execSliceLate (slice : Nat) (s : State) : Host.Outcome State Fault Refusal :=
  let m := (s.slice slice).mode
  if s.hasSlice slice && (m == SliceMode.released || m == SliceMode.rebuilding) then
    .next ((((s.modSlice slice fun x => { x with mode := .late }).setBit Adr.stEvt 3).openInterval 0xB slice).reachReady)
  else .next s

/-- READY not reached by t0 + 60 s: a watchdog package reset with cause TIMEOUT (R351). -/
def execStartWatchdog (s : State) : Host.Outcome State Fault Refusal :=
  .next (if !s.held && !s.minimal && !s.dumping && decide (s.stage < 6) && s.nvm.attempt.isSome then s.restart 4 else s)

/-- A fault of hub or slice firmware during a start attempt: a package reset with cause HUB_FAULT (R351). -/
def execHubFault (s : State) : Host.Outcome State Fault Refusal :=
  .next (if !s.held && !s.dumping && s.nvm.attempt.isSome then s.restart 3 else s)

/-- STAGE has been READY for 15,384,616 courses (R355). -/
def execStartSuccess (s : State) : Host.Outcome State Fault Refusal :=
  .next (if !s.dumping && s.start.readyAt.any (fun r => decide (r + 15384616 ≤ s.now)) then s.startSuccess else s)

/-! ### Package faults (R385, R405) -/

/-- A package fault: fetch stops, each slice lands where it can, and the watchdog resets the package with cause HUB_FAULT; a
slice that could not land is treated under R339 at the next start (R385). In a Dump or DOWN the landing that R385 asks for is already
under way, and the reset is that of DOWN (R338, R340; log entry 72). -/
def State.packageFault (s : State) : State :=
  if s.held || s.dumping then s
  else
    let s := (s.linkError true).stopWork
    let lost := s.sliceList.any fun n => !s.canLand n && (s.slice n).versions.any fun v => !v.acked.isEmpty
    let s := s.sliceList.foldl (fun s n => if s.canLand n then s.landSlice n [] else s) s
    let s := if lost then s.modNvm fun v => { v with dumpBegun := true, dumpMark := false } else s
    s.restart 3

/-- The course generator stops when its clock is lost (R21). -/
def State.clockStops (s : State) : State := if s.held then s else s.modCourse fun c => { c with running := false }

/-- The reference clock is lost: the course generator stops, and the loss is a package fault (R21, R405). -/
def execRefclkLost (s : State) : Host.Outcome State Fault Refusal := .next s.clockStops.packageFault

/-- Another package fault (R385). -/
def execPackageFault (kind : PkgFault) (s : State) : Host.Outcome State Fault Refusal :=
  match kind with
  | .clock => .next s.clockStops.packageFault
  | .hubMemory => .next s.packageFault
  | .romCheck => .next s.packageFault

end Sys2Proof.Machine
end

