-- ==== Sys2Proof/Machine/Contain.lean ====
section
/-!
DEFINITION. Meanings of the containment commands: fences, online tests and slices that go offline (R302, R376 to R383).
-/

namespace Sys2Proof.Machine

/-- DIGEST_IDLE_TIMEOUT: no data for IDLE_MS ends the message with ABANDONED; the instance is free, and the ingest or the export
that it served ends with it (R258, R312). -/
def execDigestIdleTimeout (inst : DgRef) (s : State) : Host.Outcome State Fault Refusal :=
  .next (s.endInstance (dgNo inst) 8 none)

/-! ### Fault reports (R302, R377, R378) -/

/-- EC_FIRST_SRC of an uncorrectable SRAM word in a unit. -/
def sramSource (u : UnitId) : Nat :=
  match u.kind with
  | 2 => 0x10 + u.number
  | 3 => 0x21 + unitRegion u
  | 5 => 0x21 + unitRegion u
  | 6 => 0x21 + unitRegion u
  | 8 => 0x23
  | 0xB => 0x23
  | _ => 0x24

/-- An uncorrectable SRAM word of a slice's unit counted; the word's index is not carried, so it is a free value (R302;
log entry 4). -/
def State.countSram (s : State) (u : UnitId) : State :=
  let s := (s.inc (Adr.ecSramUe u.slice)).setBit (Adr.ecSum u.slice) 5
  if s.bit (Adr.ecFirstSrc u.slice) 31 then s
  else
    let f := s.free
    (f.2.wr (Adr.ecFirstSrc u.slice) (BitVec.ofNat 32 (2 ^ 31 + sramSource u))).wr64 (Adr.ecFirstAddrLo u.slice) (f.1 % 2 ^ 64)

/-- A unit fenced for fault at a boundary, its report done with (R302, R377, R378, R381, R382). -/
def State.faultNow (s : State) (u : UnitId) (cause : FenceCause) : State :=
  let s := { s with fenceSoon := s.fenceSoon.filter fun p => p.1 != u }
  let s := if cause == FenceCause.sramUe && decide (u.slice < 8) && s.built u then s.countSram u else s
  s.fenceFault u cause

/-- A fault report fences its unit (R377). -/
def execFaultFence (u : UnitId) (cause : FenceCause) (s : State) : Host.Outcome State Fault Refusal :=
  .next (s.faultNow u cause)

/-! ### Online tests (R379, R380) -/

/-- Is the kind one of the table Online tests? -/
def testable (kind : Nat) : Bool := (decide (1 ≤ kind) && decide (kind ≤ 9)) || kind == 0x20 || kind == 0x21

/-- Tests that leave the unit in service. -/
def inService (u : UnitId) : Bool := u.kind == 8 || u.kind == 9

/-- Would the fence leave traffic without a path (R380)? -/
def State.lastPath (s : State) (u : UnitId) : Bool :=
  let n := u.slice
  let only (l : List UnitId) : Bool := s.active u && !(l.any fun v => v != u && s.active v)
  match u.kind with
  | 3 => only [UnitId.pipe n 0, UnitId.pipe n 1, UnitId.byteSerial n]
  | 4 => only [UnitId.pipe n 0, UnitId.pipe n 1, UnitId.byteSerial n]
  | 5 => !s.bit (Adr.czCfg n) 0 && only ((List.range 4).map (UnitId.pair n))
  | 6 => !s.bit (Adr.asCfg n) 0 && only [UnitId.array n 0, UnitId.array n 1]
  | _ => false

/-- Is the unit there to be tested: of a testable kind, built, its slice released and not offline? -/
def State.testPresent (s : State) (u : UnitId) : Bool :=
  testable u.kind && s.built u &&
    (decide (8 ≤ u.slice) ||
      match (s.slice u.slice).mode with
      | .off => false
      | .offline => false
      | _ => true)

/-- A test request: RESULT at once (R378, R379, R380). -/
def State.testGo (s : State) (u : UnitId) : State :=
  let res (s : State) (r : Nat) : State := s.wr Adr.tcTestSts (BitVec.ofNat 32 (r * 2 ^ 28 + u.word))
  if s.test.isSome then res s 4
  else if !s.testPresent u then res s 5
  else if decide (3 ≤ s.fenceTimes u) && s.fenceOf u == some Fence.forFault then res s 6
  else if s.lastPath u then res s 7
  else if u.kind = 0x21 ∧ u.number < 4 ∧ s.rowHasSlot 64 then res s 8
  else res { s with test := some u } 1

/-- TC_TEST_CTL.GO (R379, R380). -/
def execOnlineTestGo (kind slice number : Nat) (s : State) : Host.Outcome State Fault Refusal :=
  .next (s.testGo ⟨kind, slice, number⟩)

/-- The unit under test is fenced at a bond period boundary, a digest instance once its message has ended (R379, R380). -/
def State.testFence (s : State) : State :=
  match s.test with
  | none => s
  | some u =>
    if inService u || (s.fenceOf u).isSome || (u.kind == 0x20 && (s.digestMsg u.number).isSome) then s
    else
      ((s.setFence u (some .forTest)).takeOut u).sealFence u

/-- Units whose test passed return to ACTIVE at a bond period boundary; an array reloads its entries first (R212, R379). -/
def State.testReturn (s : State) : State :=
  let l := s.unfence
  l.foldl (fun s u =>
    let s := s.setFence u none
    if u.kind = 6 then s.reloadArray u.slice u.number else s) { s with unfence := [] }

/-- A test ends: PASS returns the unit to ACTIVE at the next bond period boundary, FAIL fences it for fault; the media of
an in-service test return only at a package start (R296, R378, R379, R381). -/
def execOnlineTestDone (pass : Bool) (s : State) : Host.Outcome State Fault Refusal :=
  match s.test with
  | none => .next s
  | some u =>
    let s := ({ s with test := none }.setBit Adr.tcEvt 0).putF Adr.tcTestSts 31 28 (if pass then 2 else 3)
    if pass then .next (if inService u then s else { s with unfence := s.unfence ++ [u] })
    else .next ((s.setBit Adr.tcEvt 1).faultNow u .testFail)

/-! ### Slices offline (R382, R383) -/

/-- TC_SLICE_CTL.OFFLINE (R382). -/
def execSliceOfflineRequest (slice : Nat) (s : State) : Host.Outcome State Fault Refusal := .next (s.goOffline slice)

/-- A slice link fails: the slice lands on its own and goes offline (R382, R383). -/
def execSliceLinkFail (slice : Nat) (s : State) : Host.Outcome State Fault Refusal :=
  .next (s.faultNow (UnitId.wholeSlice slice) .link)

end Sys2Proof.Machine
end

