-- ==== Sys2Proof/Machine/Dram.lean ====
section
/-!
DEFINITION. Meanings of the DRAM commands: channel start, refresh, calibration, retraining, the merge buffer and the scrubber
(R282, R292 to R302).
-/

namespace Sys2Proof.Machine

/-- Changes a DRAM channel. -/
def State.modDram (s : State) (n c : Nat) (f : Dram → Dram) : State :=
  s.modSlice n fun x => { x with drams := modAt x.drams c f }

/-- A DRAM channel. -/
def State.dram (s : State) (n c : Nat) : Dram := ((s.slice n).drams[c]?).getD State.dramOff

/-- STATE of a channel (Channel states). -/
def State.dramState (s : State) (n c : Nat) : Nat := s.fld (Adr.dmChSts n c) 2 0

/-- Is the slice's DRAM released: the slice present, released and not offline (R294, R348)? -/
def State.dramThere (s : State) (n c : Nat) : Bool :=
  s.hasSlice n && decide (c < 2) &&
    (match (s.slice n).mode with
     | .off => false
     | .offline => false
     | _ => true)

/-- The junction temperature of the region in whole °C goes into TRAIN_TEMP (DM_CH_STS). -/
def State.noteTraining (s : State) (n c : Nat) : State :=
  let t := s.regionTemp (2 * n + c) / 256
  (s.putF (Adr.dmChSts n c) 31 24 ((BitVec.ofInt 8 t).toNat)).modDram n c fun d => { d with trainedAt := s.now, due := false, forced := false }

/-- The start sequence of a channel ends: READY, or FENCED after three failed trainings or a failed self-test (R294, R300). -/
def execDramChannelStart (slice ch trainFails selftest : Nat) (s : State) : Host.Outcome State Fault Refusal :=
  if !s.dramThere slice ch || s.dramState slice ch ≠ 0 then .next s
  else
    let s := s.putF (Adr.dmChSts slice ch) 23 16 (min 3 trainFails)
    if 3 ≤ trainFails then .next (s.fenceFault (UnitId.dramCh slice ch) .train)
    else if selftest ≠ 0 then
      .next (((s.putF (Adr.dmChSts slice ch) 15 8 selftest).setBit (Adr.ecSum slice) 6).fenceFault
        (UnitId.dramCh slice ch) .train)
    else .next ((s.putF (Adr.dmChSts slice ch) 2 0 4).noteTraining slice ch)

/-- tRFC of a slice's devices in ns: 195 at 8 Gb, 295 at 16 Gb (R281, R292). -/
def State.tRfc (s : State) (n : Nat) : Nat := if s.fld (Adr.dmCfg n) 1 0 = 2 then 295 else 195

/-- The guard window before a refresh point, in ns (R292). -/
def dramGuard : Nat := 80

/-- Is a channel in high-temperature refresh mode (R292)? -/
def State.hotRefresh (s : State) (n c : Nat) : Bool := s.bit (Adr.dmSts n) (2 + c)

/-- DRAM_REFRESH: the REFab of course offset 0, once a course, then that of 1,950 ns for channels in high-temperature refresh mode; the largest
refresh-caused wait is kept, which is at most the guard and tRFC (R26, R292, R293). -/
def execDramRefresh (waitNs : Nat) (s : State) : Host.Outcome State Fault Refusal :=
  .next (if s.held || !s.course.running then s
    else
      let k := s.course.refreshed
      let s := s.modCourse fun c => { c with refreshed := k + 1 }
      s.sliceList.foldl (fun s n =>
        if s.dramThere n 0 && (k == 0 || (k == 1 && (s.hotRefresh n 0 || s.hotRefresh n 1))) then
          s.wr (Adr.dmRefMaxNs n) (BitVec.ofNat 32 (max (min waitNs (dramGuard + s.tRfc n)) (s.fld (Adr.dmRefMaxNs n) 15 0)))
        else s) s)

/-! ### The requests of a course (R287 to R289); times in quarter nanoseconds -/

/-- Quarter nanoseconds of refresh and guard of one refresh point. -/
def State.refreshTime (s : State) (n : Nat) : Nat := 4 * (s.tRfc n + dramGuard)

/-- The data time D of a channel (R287). -/
def State.dramTime (s : State) (n c : Nat) : Nat := 15600 - (if s.hotRefresh n c then 2 else 1) * s.refreshTime n

/-- The course offset of a moment of the data time: after the refresh at offset 0, the second refresh and its guard skipped (R287). -/
def State.dramOffset (s : State) (n c t : Nat) : Nat :=
  let a := t + 4 * s.tRfc n
  if s.hotRefresh n c && decide (7800 - 4 * dramGuard ≤ a) then a + s.refreshTime n else a

/-- The positions of a region's DRAM row over the data time, to the end of the running course (R30, R287). -/
def State.dramWindows (s : State) (n c : Nat) : List FlWindow :=
  let d := s.dramTime n c
  cellWindows (s.cell s.bondCourse (bondRow (2 * n + c) 1)) d (d + s.courseLen * 5 / 2 - 15600) (s.withheld n)

/-- A channel at work in a course: its queue, the moment of the data time, the open rows by bank, the bursts of each pool user, the ports of requests
that reached urgency 4. -/
structure DramRun where
  queue : List DramReq
  time : Nat
  rows : List ((Nat × Nat × Nat) × Nat)
  used : List (Option Nat × Nat)
  late : List Nat

/-- How long a request has waited at a moment of the course. -/
def DramReq.waited (q : DramReq) (now at_ : Nat) : Nat := (now - q.since) * 15600 + at_

/-- Urgency of a request that has waited some time, for a latency target in ns, 0 acting as 1 (R288). -/
def urgency (target waited : Nat) : Nat :=
  let t := 4 * max 1 target
  if t ≤ waited then 4 else if 9 * t ≤ 10 * waited then 3 else if 3 * t ≤ 4 * waited then 2 else if t ≤ 2 * waited then 1 else 0

/-- Urgency of a request at a moment of the course. -/
def State.dramUrgency (s : State) (n at_ : Nat) (q : DramReq) : Nat :=
  urgency (s.fld (Adr.dmPortCfg n q.port) 15 0) (q.waited s.now at_)

/-- Effective class of a request: its port's, or 0 once it is older than AGE_NS (R288). -/
def State.dramClass (s : State) (n at_ : Nat) (q : DramReq) : Nat :=
  if 4 * s.fld (Adr.dmCfg n) 31 16 < q.waited s.now at_ then 0 else s.fld (Adr.dmPortCfg n q.port) 17 16

/-- The bank of a request's next piece and its row (R285). -/
def State.dramBank (s : State) (n : Nat) (q : DramReq) : (Nat × Nat × Nat) × Nat :=
  let a := dramCell (s.fld (Adr.dmCfg n) 1 0) q.ca
  ((a.sub, a.group, a.bank), a.row)

/-- Does a request's next piece hit an open row (R288)? -/
def DramRun.hits (r : DramRun) (b : (Nat × Nat × Nat) × Nat) : Bool := r.rows.contains b

/-- The pool user of a request: physical function 0 and the device are one (R31). -/
def DramReq.user (q : DramReq) : Option Nat := if q.owner < 0x100 then some q.owner else none

/-- WD of a pool user (R31). -/
def State.dramWeight (s : State) (u : Option Nat) : Nat :=
  match u with
  | none => bits s.course.devwgt 15 8
  | some ti => s.fld (Adr.ckWeightActive ti) 15 8

/-- Is a request eligible in a position: of the owner of a SLOT entry there, of all others elsewhere (R29 to R32, R287)? -/
def State.dramServed (s : State) (w : FlWindow) (q : DramReq) : Bool :=
  if w.kind = 1 then q.owner == w.owner else !(decide (q.owner < 0x100) && s.isSealed q.owner)

/-- What a piece takes: 10 ns of data phase, and more where its row is not open (R285, R289). -/
def State.dramCost (s : State) (n : Nat) (r : DramRun) (q : DramReq) : Nat := 40 + if r.hits (s.dramBank n q) then 0 else Config.dramMiss

/-- Does a piece end in time: before a SLOT, DEVICE or TEST position closes every bank; in the pool position before the refresh point, with what must
follow it in the guard window (R287, R289, R292)? -/
def State.dramFits (s : State) (n : Nat) (w : FlWindow) (r : DramRun) (q : DramReq) : Bool :=
  let done := r.time + s.dramCost n r q
  if w.ix = 2 then decide (done ≤ w.stop) || decide (done + Config.dramTail q.write ≤ w.stop + 4 * dramGuard)
  else decide (done + Config.dramClose ≤ w.stop)

/-- The request that is issued next in a position (R288): lowest effective class, the owner whose turn it is in the pool, highest urgency, a row hit
unless at urgency 3 or 4, the oldest. -/
def State.dramPick (s : State) (n c : Nat) (w : FlWindow) (r : DramRun) : Option DramReq :=
  let at_ := s.dramOffset n c r.time
  let cand := r.queue.filter fun q => s.dramServed w q && s.dramFits n w r q
  let low := (cand.map (s.dramClass n at_)).foldl min 3
  let cand := cand.filter fun q => s.dramClass n at_ q == low
  let cand := if w.kind = 1 then cand
    else
      let u := nextUser s.dramWeight (fun u => ((r.used.find? fun p => p.1 == u).map (·.2)).getD 0) (w.kind == 2)
        ((cand.map DramReq.user).eraseDups)
      cand.filter fun q => some q.user == u
  let top := (cand.map (s.dramUrgency n at_)).foldl max 0
  let cand := cand.filter fun q => s.dramUrgency n at_ q == top
  let hit := if 3 ≤ top then [] else cand.filter fun q => r.hits (s.dramBank n q)
  (if hit.isEmpty then cand else hit).head?

/-- A request counted once it has reached urgency 4 (R288). -/
def State.dramNote (s : State) (n at_ : Nat) (r : DramRun) : DramRun :=
  let isLate (q : DramReq) : Bool := !q.urg4 && s.dramUrgency n at_ q == 4
  { r with late := r.late ++ (r.queue.filter isLate).map DramReq.port, queue := r.queue.map fun q => if isLate q then { q with urg4 := true } else q }

/-- Pieces issued one after another in a position, each re-arbitrated (R289); the fuel is more than the pieces of a course. -/
def State.dramFill (s : State) (n c : Nat) (w : FlWindow) : Nat → DramRun → DramRun
  | 0, r => r
  | fuel + 1, r =>
    let r := s.dramNote n (s.dramOffset n c r.time) r
    match s.dramPick n c w r with
    | none => r
    | some q =>
      let b := s.dramBank n q
      let taken : DramReq := { q with ca := q.ca + 256, pieces := q.pieces - 1 }
      let put (l : List DramReq) : List DramReq :=
        if taken.pieces = 0 then l.erase q else l.map fun p => if p = q then taken else p
      s.dramFill n c w fuel
        { r with queue := put r.queue, time := r.time + s.dramCost n r q, rows := r.rows.filter (fun p => p.1 != b.1) ++ [b],
                 used := r.used.filter (fun p => p.1 != q.user) ++ [(q.user, ((r.used.find? fun p => p.1 == q.user).map (·.2)).getD 0 + 4)] }

/-- A READY channel in the course that ends: position by position, every bank closed at the end of each (R287 to R289). A retraining, and PS4, stop it
(R282, R295). -/
def State.dramCourse (s : State) (n c : Nat) : State :=
  let q := (s.dram n c).queue
  if q = [] || s.dramState n c != 4 || s.fld Adr.pwSts 26 24 == 4 then s
  else
    let r := (s.dramWindows n c).foldl (fun (r : DramRun) w =>
      { s.dramFill n c w 400 { r with time := max r.time w.start } with rows := [] })
      { queue := q, time := 0, rows := [], used := [], late := [] }
    let r := s.dramNote n 15600 r
    let s := s.modDram n c fun d => { d with queue := r.queue }
    if r.late = [] then s
    else r.late.foldl (fun s p => s.inc (Adr.dmUrg4Cnt n p)) (s.setBit (Adr.dmEvt n) 2)

/-- The accepted writes of a channel drained, before self-refresh and retraining (R282, R290, R295). -/
def State.drainWrites (s : State) (n c : Nat) : State := s.modDram n c fun d => { d with queue := d.queue.filter fun q => !q.write }

/-- ZQCal Start and Latch: a calibration of the devices' drivers that no register or memory shows (R282). -/
def execDramZqCal (s : State) : Host.Outcome State Fault Refusal := .next s

/-- Retraining becomes due (R295). -/
def State.dueRetrain (s : State) (n c : Nat) : State :=
  if s.dramThere n c && s.dramState n c = 4 then
    s.modDram n c fun d => if d.due then d else { d with due := true, dueAt := s.now }
  else s

/-- Retraining falls due after RT_HOURS or a move of 20 °C; RT_HOURS 0 disables only the first trigger, which the command does
not tell from the second (R295). -/
def execDramRetrainDue (slice ch : Nat) (s : State) : Host.Outcome State Fault Refusal := .next (s.dueRetrain slice ch)

/-- DM_CH_CTL_c.RETRAIN (R295). -/
def execDramRetrain (slice ch : Nat) (s : State) : Host.Outcome State Fault Refusal := .next (s.dueRetrain slice ch)

/-- A retraining held for 3,600 s runs anyway (R295). -/
def execRetrainHoldExpiry (slice ch : Nat) (s : State) : Host.Outcome State Fault Refusal :=
  .next (if (s.dram slice ch).due then s.modDram slice ch fun d => { d with forced := true } else s)

/-- Does the channel's due retraining open at this bond period boundary: not held, and the sibling not retraining (R295)? -/
def State.mayRetrain (s : State) (n c : Nat) : Bool :=
  (s.dram n c).due && s.dramState n c == 4 && s.dramState n (1 - c) != 5 &&
    (!s.bit (Adr.dmChCtl n c) 30 || (s.dram n c).forced)

/-- The retrainings that open at a bond period boundary (R295). -/
def State.openRetrains (s : State) : State :=
  s.sliceList.foldl (fun s n => [0, 1].foldl (fun s c =>
    if s.mayRetrain n c then
      ((s.drainWrites n c).putF (Adr.dmChSts n c) 2 0 5).modDram n c fun d => { d with due := false, forced := false }
    else s) s) s

/-- A retraining ends with a working setting, or with the channel fenced (R295, R296). -/
def execDramRetrainDone (slice ch : Nat) (working : Bool) (s : State) : Host.Outcome State Fault Refusal :=
  if s.dramState slice ch ≠ 5 then .next s
  else if working then
    .next (((s.putF (Adr.dmChSts slice ch) 2 0 4).noteTraining slice ch).setBit (Adr.dmEvt slice) 1)
  else .next ((s.addF (Adr.dmChSts slice ch) 23 16 1).fenceFault (UnitId.dramCh slice ch) .train)

/-- The refresh mode of every channel as its devices' MR4 say it: hot lists the global channels that need twice the rate (R292). -/
def State.refreshModes (s : State) (hot : List Nat) : State :=
  s.sliceList.foldl (fun s n => [0, 1].foldl (fun s c =>
    if !s.dramThere n c then s
    else
      let ht := hot.contains (2 * n + c)
      let s := s.modDram n c fun d => { d with mrTwice := ht }
      if s.bit (Adr.dmSts n) (2 + c) = ht then s else (s.putBit (Adr.dmSts n) (2 + c) ht).setBit (Adr.dmEvt n) 3) s) s

/-- An uncorrectable burst counted (R298, EC registers). -/
def State.countUe (s : State) (n c burst : Nat) : State :=
  let s := (s.inc (Adr.ecDramUe n c)).setBit (Adr.ecSum n) (1 + 2 * c)
  if s.bit (Adr.ecFirstSrc n) 31 then s
  else (s.wr (Adr.ecFirstSrc n) (BitVec.ofNat 32 (2 ^ 31 + c))).wr64 (Adr.ecFirstAddrLo n) (2 ^ 35 + c * 2 ^ 34 + 64 * burst)

/-- A merge-buffer entry incomplete for one course is read, merged and written back; when the read is uncorrectable the line is
poisoned (R299). -/
def execMergeEntryTimeout (slice ch burst : Nat) (readOk : Bool) (s : State) : Host.Outcome State Fault Refusal :=
  match (s.slice slice).merges.find? fun m => m.ch == ch && m.burst == burst with
  | none => .next s
  | some m =>
    let s := (s.inc (Adr.dmRmwCnt slice ch)).modSlice slice fun x => { x with merges := x.merges.erase m }
    if readOk then .next s
    else
      .next (((s.countUe slice ch burst).inc (Adr.ecPoison slice ch)).modDram slice ch fun d =>
        { d with poisoned := if d.poisoned.contains burst then d.poisoned else d.poisoned ++ [burst] })

/-! ### The scrubber (R301) -/

/-- DM_SCRUB_CTL.GO: ignored while the scrubber runs (R301). -/
def State.scrubGo (s : State) (n : Nat) : State :=
  if !s.dramThere n 0 || s.fld (Adr.dmScrubSts n) 31 30 = 1 then s
  else
    let s := ((s.wr (Adr.dmScrubSts n) 0x40000000#32).wr (Adr.dmScrubCe n) 0).wr (Adr.dmScrubUe n) 0
    (List.range 16).foldl (fun s k => s.wr64 (Adr.dmScrubAddrLo n k) 0) s

/-- DM_SCRUB_CTL.GO (R301). -/
def execScrubGo (slice : Nat) (s : State) : Host.Outcome State Fault Refusal := .next (s.scrubGo slice)

/-- DM_SCRUB_CTL.STOP: the pass ends; how many bursts it has read, and what it found in them, no command carries, so the summary's
values are free (R301; log entry 4). -/
def State.scrubStop (s : State) (n : Nat) : State :=
  if s.fld (Adr.dmScrubSts n) 31 30 ≠ 1 then s
  else
    let p := s.free
    let c := p.2.free
    let u := c.2.free
    let s := u.2.wr (Adr.dmScrubSts n) (BitVec.ofNat 32 (0xC0000000 + p.1 % 101))
    let s := (s.wr (Adr.dmScrubCe n) (BitVec.ofNat 32 c.1)).wr (Adr.dmScrubUe n) (BitVec.ofNat 32 u.1)
    let s := (List.range (min 16 (u.1 % 2 ^ 32))).foldl (fun s k =>
      let a := s.free
      a.2.wr64 (Adr.dmScrubAddrLo n k) (a.1 % 2 ^ 30 * 64)) s
    s.setBit (Adr.dmEvt n) 4

/-- DM_SCRUB_CTL.STOP (R301). -/
def execScrubStop (slice : Nat) (s : State) : Host.Outcome State Fault Refusal := .next (s.scrubStop slice)

/-- Corrected bursts counted for their lane groups; how many fell to which of the 40 groups no command carries, so the split is free (R297; log
entry 4). -/
def State.countCe (s : State) (n ce : Nat) : State :=
  ((List.range 40).foldl (fun (a : State × Nat) k =>
    let f := a.1.free
    let v := if k = 39 then a.2 else f.1 % (a.2 + 1)
    if v = 0 then (f.2, a.2)
    else (((f.2.addF (Adr.ecDevce n (k / 10) (k % 10)) 31 0 v).addF (Adr.ecDramCe n (k / 20)) 31 0 v).setBit (Adr.ecSum n) (2 * (k / 20)),
      a.2 - v)) (s, ce)).1

/-- The bursts of a pass: corrected ones counted, uncorrectable ones counted and the first 16 addresses kept (R298, R301). -/
def State.scrubbed (s : State) (n ce : Nat) (ue : List Nat) : State :=
  let s := ((s.wr (Adr.dmScrubCe n) (BitVec.ofNat 32 (min 0xFFFFFFFF ce))).wr (Adr.dmScrubUe n)
    (BitVec.ofNat 32 (min 0xFFFFFFFF ue.length))).countCe n ce
  let s := ((List.range 16).zip ue).foldl (fun s q => s.wr64 (Adr.dmScrubAddrLo n q.1) q.2) s
  ue.foldl (fun s a => s.countUe n (a / 2 ^ 34 % 2) (a % 2 ^ 34 / 64)) s

/-- A scrub pass reads its last burst: ce corrected bursts, ue the channel-view addresses of the uncorrectable ones (R301). -/
def execScrubDone (slice ce : Nat) (ue : List Nat) (s : State) : Host.Outcome State Fault Refusal :=
  if s.fld (Adr.dmScrubSts slice) 31 30 ≠ 1 then .next s
  else
    let s := s.wr (Adr.dmScrubSts slice) (BitVec.ofNat 32 (0x80000000 + 100))
    .next ((s.scrubbed slice ce ue).setBit (Adr.dmEvt slice) 4)

end Sys2Proof.Machine
end

