-- ==== Sys2Proof/Machine/HdOps.lean ====
section
/-!
DEFINITION. Shared operations of the host DMA engine: transfers and their channels, parking, credit, stops and culprits
(R267 to R279).
-/

namespace Sys2Proof.Machine

/-! ### Channels and transfers (R267, R268) -/

/-- A channel. -/
def State.hdCh (s : State) (c : Nat) : HdCh := (s.hd[c]?).getD State.hdIdle

/-- Changes a channel. -/
def State.modHd (s : State) (c : Nat) (f : HdCh → HdCh) : State := { s with hd := modAt s.hd c f }

/-! ### Requests on the link (R271) -/

/-- An address range cut at multiples of 4 KiB and into pieces of at most some bytes. -/
def cutRequests (most : Nat) : Nat → Nat → Nat → List (Nat × Nat)
  | 0, _, _ => []
  | fuel + 1, a, n =>
    if n = 0 then []
    else
      let len := min n (min (max 64 most) (4096 - a % 4096))
      (a, len) :: cutRequests most fuel (a + len) (n - len)

/-- The reads of a host buffer: rounded outward to 64 bytes, cut at 4 KiB and Max_Read_Request_Size (R271). -/
def hostReads (mrrs addr bytes : Nat) : List HostReq :=
  let lo := addr / 64 * 64
  let n := (addr + bytes + 63) / 64 * 64 - lo
  (cutRequests mrrs (n / 64) lo n).map fun p => { addr := p.1, len := p.2, firstBe := 15, lastBe := 15 }

/-- The first byte enables of a write: the bytes of its first double word. -/
def firstBe (addr len : Nat) : Nat := 15 * 2 ^ (addr % 4) % 16 % 2 ^ min 4 (addr % 4 + len)

/-- The last byte enables of a write: the bytes of its last double word, 0 when that is the first one. -/
def lastBe (addr len : Nat) : Nat := if addr % 4 + len ≤ 4 then 0 else 2 ^ ((addr + len - 1) % 4 + 1) - 1

/-- The writes of a host buffer: cut at 4 KiB and Max_Payload_Size, exactly the requested bytes (R271). -/
def hostWrites (mps addr bytes : Nat) : List HostReq :=
  (cutRequests mps (bytes / 64 + 2) addr bytes).map fun p =>
    { addr := p.1, len := p.2, firstBe := firstBe p.1 p.2, lastBe := lastBe p.1 p.2 }

/-- The 64-byte lines that a request touches: its beats (R267). -/
def HostReq.beats (q : HostReq) : Nat := (q.addr + q.len + 63) / 64 - q.addr / 64

/-- The first bytes of some buffers; what they do not hold lies at address 0 (log entry 19). -/
def cutBufs : List (Nat × Nat) → Nat → List (Nat × Nat)
  | [], n => if n = 0 then [] else [(0, n)]
  | b :: l, n => if n = 0 then [] else (b.1, min b.2 n) :: cutBufs l (n - min b.2 n)

/-- A transfer of some requests. -/
def transferOf (kind : Nat) (toHost : Bool) (owner : Nat) (h : Option Hdr) (reqs : List HostReq) : Transfer :=
  { kind := kind, toHost := toHost, owner := owner, hdr := h, reqs := reqs, beatsLeft := max 1 (reqs.map HostReq.beats).sum, confirmed := 0 }

/-- The requests of some buffers behind a port (R41, R271). -/
def State.requests (s : State) (port : Nat) (toHost : Bool) (bufs : List (Nat × Nat)) : List HostReq :=
  let l := (s.links[port]?).getD State.linkDown
  bufs.flatMap fun b => if toHost then hostWrites l.mps b.1 b.2 else hostReads l.mrrs b.1 b.2

/-- Kinds of transfers, as KINDS numbers them. -/
def kFetch : Nat := 0
/-- Completion entries and MSI-X writes. -/
def kComplete : Nat := 1
/-- Command data from host memory. -/
def kDataIn : Nat := 2
/-- Command data to host memory. -/
def kDataOut : Nat := 3
/-- Admin and log data of physical function 0. -/
def kDevice : Nat := 4

/-- Does an owner's transfer run on SLOT channels: is the owner a Sealed instance (R32, R268)? -/
def State.hdSlotOwner (s : State) (owner : Nat) : Bool := decide (owner < 0x100) && s.isSealed owner

/-- The host-DMA cell of this course. -/
def State.hdCell (s : State) : Word := s.cell s.bondCourse 64

/-- The SLOT channel of an owner and kind in this course: 0 and 1 with entry A, 2 and 3 with entry B (R268). -/
def State.hdSlotCh (s : State) (owner kind : Nat) : Option Nat :=
  let w := s.hdCell
  let k := if kind = kFetch ∨ kind = kComplete then 0 else 1
  if entKind (entryA w) = 1 ∧ entOwner (entryA w) = owner then some k
  else if entKind (entryB w) = 1 ∧ entOwner (entryB w) = owner then some (2 + k)
  else none

/-- The pool channel that takes a transfer: the lowest free one whose KINDS includes its kind (R268). -/
def State.hdPoolCh (s : State) (kind : Nat) : Option Nat :=
  (List.range 32).find? fun c =>
    decide (4 ≤ c) && (s.hdCh c).cur.isNone && s.active (UnitId.hdma c) && s.bit (Adr.hdChCtl c) kind

/-- A transfer put on a channel. -/
def State.hdCarry (s : State) (c : Nat) (t : Transfer) : State :=
  s.modHd c fun k => { k with cur := some t, lost := false }

/-- A transfer finds its channel: of a SLOT owner its SLOT channel, or the park entry outside the owner's position; of a pool
user a pool channel, or it waits in age order (R268, R269). -/
def State.hdPlace (s : State) (t : Transfer) : State :=
  if s.hdSlotOwner t.owner then
    match s.hdSlotCh t.owner t.kind with
    | some c =>
      if (s.hdCh c).cur.isNone then s.hdCarry c t else { s with parks := s.parks ++ [{ ti := t.owner, tr := t }] }
    | none => { s with parks := s.parks ++ [{ ti := t.owner, tr := t }] }
  else
    match s.hdPoolCh t.kind with
    | some c => s.hdCarry c t
    | none => { s with hdQueue := s.hdQueue ++ [t] }

/-- Waiting transfers take the channels that are free, oldest first (R268, R269). -/
def State.hdRefill (s : State) : State :=
  let back := s.parks.map Park.tr
  (back ++ s.hdQueue).foldl (fun s t => s.hdPlace t) { s with parks := [], hdQueue := [] }

/-- The transfers on SLOT channels among some numbers. -/
def State.hdSlots (s : State) (l : List Nat) : Nat := (l.filter fun c => (s.hdCh c).cur.isSome).length

/-- The host-DMA row at a course boundary: SLOT transfers whose owner's position has ended are parked, and those of the owners of the new course's
entries return; the beats of the course are counted anew (R31, R269). -/
def State.hdTurn (s : State) : State :=
  let out := (List.range 4).filterMap fun c => (s.hdCh c).cur
  let back := s.parks.map Park.tr
  let s := { s with parks := [], hd := (s.hd.take 4).map HdCh.ended ++ s.hd.drop 4 }
  let s := (out ++ back).foldl (fun s t => s.hdPlace t) s
  s.modCourse fun c => { c with host :=
    { c.host with cycle := 0, backA := s.hdSlots [0, 1], backB := s.hdSlots [2, 3], deviceIn := 0, deviceOut := 0, used := [] } }

/-! ### Ends and stops (R276, R279) -/

/-- The suspects of a stop that are still to be probed, the one being probed among them. -/
def State.hdToProbe (s : State) : List Nat :=
  (bitsOf 32 (s.rd Adr.hdSuspect).toNat).filter fun c => decide (s.fld Adr.hdSts 4 0 ≤ c)

/-- The next suspect is probed; with none left the stop ends and every channel resumes (R277). -/
def State.hdNextProbe (s : State) (c : Nat) : State :=
  match (bitsOf 32 (s.rd Adr.hdSuspect).toNat).find? fun k => decide (c < k) with
  | some k => s.putF Adr.hdSts 4 0 k
  | none => s.clrBit Adr.hdSts 31

/-- A transfer's channel freed by a discard: it leaves HD_SUSPECT without a probe (R279). -/
def State.hdFree (s : State) (c : Nat) : State :=
  let s := s.modHd c HdCh.ended
  if s.bit Adr.hdSts 31 && s.bit Adr.hdSuspect c then
    let s := s.clrBit Adr.hdSuspect c
    if s.fld Adr.hdSts 4 0 = c then s.hdNextProbe c else s
  else s

/-- Every transfer that satisfies p ends: on a channel, parked or waiting (R239, R279). -/
def State.hdDrop (s : State) (p : Transfer → Bool) : State :=
  let s := { s with parks := s.parks.filter fun q => !p q.tr, hdQueue := s.hdQueue.filter fun t => !p t }
  ((List.range 32).filter fun c => (s.hdCh c).cur.any p).foldl (fun s c => s.hdFree c) s

/-- The transfers of a command end, and waiting ones take their place. -/
def State.hdEnd (s : State) (h : Hdr) : State := (s.hdDrop fun t => t.hdr == some h).hdRefill

/-- The translations of some buffers' pages that a function's transfer leaves cached (R41). -/
def State.translate (s : State) (c : Nat) (bufs : List (Nat × Nat)) : State :=
  let pages := bufs.map fun b => (c, b.1 / 4096 * 4096)
  { s with ats := s.ats ++ (pages.eraseDups.filter fun p => !s.ats.contains p) }

/-- A transfer of some host buffers that carries a command now (R267, R271). -/
def State.hdStart (s : State) (h : Hdr) (kind : Nat) (toHost : Bool) (bufs : List (Nat × Nat)) : State :=
  ((s.hdEnd h).translate h.ctrl bufs).hdPlace
    (transferOf kind toHost (ctrlOwner h.ctrl) (some h) (s.requests (ctrlPort h.ctrl) toHost bufs))

/-- The command's data buffers, as its entry named them. -/
def State.buffers (s : State) (h : Hdr) (bytes : Nat) : List (Nat × Nat) :=
  cutBufs (((s.inFlight h).map fun x => x.entry.bufs).getD []) bytes

/-- Command data from host memory; admin data of physical function 0 is DEVICE (R267). -/
def State.dataIn (s : State) (h : Hdr) (bytes : Nat) : State :=
  s.hdStart h (if h.sq = 0 ∧ isPf h.ctrl then kDevice else kDataIn) false (s.buffers h bytes)

/-- Command data to host memory; admin and log data of physical function 0 is DEVICE (R267). -/
def State.dataOut (s : State) (h : Hdr) (bytes : Nat) : State :=
  s.hdStart h (if h.sq = 0 ∧ isPf h.ctrl then kDevice else kDataOut) true (s.buffers h bytes)

/-- May the owner of a controller move a transfer of a kind in this course: a Sealed instance only in its SLOT entries (R32, R46)? -/
def State.hdOpen (s : State) (c kind : Nat) : Bool :=
  !s.hdSlotOwner (ctrlOwner c) || (s.hdSlotCh (ctrlOwner c) kind).isSome

/-! ### Credit (R272) -/

/-- Usable data rate per direction of the links that are up, in bytes per second (R40): stated for Gen4 to Gen6 at x16 and
in proportion to the width. -/
def State.linkRate (s : State) : Nat :=
  ((s.links.filter Link.up).map fun l =>
    (match l.gen with
     | 6 => 110000000000
     | 5 => 56000000000
     | 4 => 28000000000
     | g => Config.linkRate g) * l.width / 16).sum

/-- COURSE_BEATS: beats of one direction in a course (R272). -/
def State.courseBeats (s : State) : Nat := min 8191 (s.linkRate * 39 / 640000000)

/-- Credit of a pool channel: SHARE 0 acts as 256 (R272). -/
def State.hdCredit (s : State) (c : Nat) : Nat :=
  let share := s.fld (Adr.hdChCtl c) 24 16
  (if share = 0 then 256 else share) * s.fld Adr.hdSts 28 16 / 256

/-- RATE_LIMITER_ACCOUNTING at a course boundary (R272). -/
def State.hdAccount (s : State) : State :=
  let s := s.putF Adr.hdSts 28 16 s.courseBeats
  (List.range 32).foldl (fun s c =>
    if c < 4 then s else s.modHd c fun k => { k with creditIn := s.hdCredit c, creditOut := s.hdCredit c }) s

/-! ### Errors (R275, R278) -/

/-- CAUSE of HD_ERR. -/
def busCode : BusCause → Nat
  | .ur => 0
  | .ca => 1
  | .timeout => 2
  | .poisoned => 3
  | .ats => 4

/-- The first culprit or data error since VALID was cleared (HD_ERR). -/
def State.hdRecord (s : State) (c : Nat) (cause : BusCause) (merged : Bool) (owner : Nat) : State :=
  if s.bit Adr.hdErr 31 then s
  else s.wr Adr.hdErr (BitVec.ofNat 32
    (2 ^ 31 + busCode cause * 2 ^ 28 + c * 2 ^ 20 + bit01 merged * 2 ^ 19 + owner))

/-- A block of a write that did not arrive: the version holds again what it held before, and one that holds nothing leaves the buffer. -/
def State.undoBlock (s : State) (q : Undo) : State :=
  match (s.slice q.slice).version q.wslot with
  | none => s
  | some v =>
    if mapGet v.blocks q.block ≠ some q.new then s
    else
      let bs := match q.old with
        | some d => mapInsert v.blocks q.block d
        | none => mapErase v.blocks q.block
      let s := match q.range with
        | none => s
        | some r => s.modNvm fun v => { v with ranges := addRange v.ranges r.1 r.2 1 }
      s.modSlice q.slice fun x =>
        if bs = [] then x.dropVersion q.wslot v.under else x.modVersion q.wslot fun v => { v with blocks := bs }

/-- A write whose data transfer ends with some lines confirmed: the mapping units that arrived whole are written, the others are unchanged (R58,
R278). -/
def State.undoWrite (s : State) (h : Hdr) (lines : Nat) : State :=
  match s.inFlight h with
  | none => s
  | some y =>
    let offset := ((y.entry.bufs.head?).map Prod.fst).getD 0 % 64
    let got := (64 * lines - offset) / 4096
    let lacks (q : Undo) : Bool := y.undo.any fun r => r.slice == q.slice && r.wslot == q.wslot && decide (got ≤ r.ix)
    (y.undo.filter lacks).foldl State.undoBlock s

/-- The transfer of a channel ends with an error, and its command fails with Data Transfer Error (R275, R278). -/
def State.hdFail (s : State) (c : Nat) : State :=
  match (s.hdCh c).cur with
  | none => s
  | some t =>
    let s := s.modHd c HdCh.ended
    (match t.hdr with
     | none => s
     | some h => (s.undoWrite h t.confirmed).finish h (ansSt stTransfer)).hdRefill

/-! ### HD_CH_CTL (R273) -/

/-- KINDS of a pool channel once pending values have taken effect. -/
def State.hdKinds (s : State) (c : Nat) : Nat :=
  match (s.hdCh c).newCtl with
  | some w => bits w 4 0
  | none => s.fld (Adr.hdChCtl c) 4 0

/-- The RW fields of HD_CH_CTL of a value. -/
def hdCtlMask (v : Word) : Word := v &&& 0x81FF001F#32

/-- Would the write leave some kind with no pool channel (R273)? -/
def State.hdCtlBad (s : State) (ch : Nat) (v : Word) : Bool :=
  (List.range 5).any fun k =>
    !((List.range 32).any fun c => decide (4 ≤ c) && (if c = ch then bits v 4 0 else s.hdKinds c).testBit k)

/-- A write of HD_CH_CTL_nn: it waits for the next bond period boundary, or is ignored with CFG_REJECT; RO for 00 to 03
(R273). -/
def State.hdCtlWrite (s : State) (ch : Nat) (v : Word) : State :=
  if ch < 4 ∨ 32 ≤ ch then s
  else if s.hdCtlBad ch v then s.setBit Adr.hdEvt 3
  else s.modHd ch fun k => { k with newCtl := some (hdCtlMask v) }

/-- The pending values take effect at a bond period boundary (R273). -/
def State.hdApplyCtl (s : State) : State :=
  (List.range 32).foldl (fun s c =>
    match (s.hdCh c).newCtl with
    | none => s
    | some w => (s.wr (Adr.hdChCtl c) w).modHd c fun k => { k with newCtl := none }) s

/-! ### Grants (R270) -/

/-- Credit left of a channel in the direction of its transfer; SLOT channels carry no limiter (R272). -/
def HdCh.creditLeft (k : HdCh) : Nat :=
  match k.cur with
  | none => k.creditIn
  | some t => if t.toHost then k.creditOut else k.creditIn

/-- The positions of the host-DMA row in hub-fabric cycles, 7,800 of a nominal course (R30, R267). A SLOT entry's ends 32 cycles sooner for each
transfer to park and begins 32 later for each that returned (R269). Before the generator runs there is one position, of the pool. -/
def State.hdWindows (s : State) : List FlWindow :=
  if !s.course.running then [⟨2, 0, 0, 0, s.course.host.cycle + 1⟩]
  else
    (cellWindows s.hdCell 7800 (s.courseLen * 5 / 4) 0).map fun w =>
      if w.kind ≠ 1 then w
      else
        { w with start := w.start + 32 * (if w.ix = 0 then s.course.host.backA else s.course.host.backB),
                 stop := w.stop - 32 * s.hdSlots (if w.ix = 0 then [0, 1] else [2, 3]) }

/-- Is a transfer DEVICE traffic on the host link (R31, R267)? -/
def Transfer.device (t : Transfer) : Bool := t.kind == kDevice || t.owner == ownerDev

/-- Does a position serve a channel (R29, R268): SLOT channels in their entries, pool channels in every other position? -/
def hdServes (w : FlWindow) (c : Nat) : Bool :=
  if w.kind = 1 then if w.ix = 0 then decide (c < 2) else decide (2 ≤ c) && decide (c < 4) else decide (4 ≤ c)

/-- Has device traffic of a direction taken its 1/64 of the link in this course (R31)? -/
def State.hdDeviceOver (s : State) (toHost : Bool) : Bool :=
  s.course.running &&
    decide (s.fld Adr.hdSts 28 16 / 64 ≤ if toHost then s.course.host.deviceOut else s.course.host.deviceIn)

/-- May the channel move a beat of a direction in some position of this course? -/
def State.hdMay (s : State) (toHost : Bool) (c : Nat) : Bool :=
  match (s.hdCh c).cur with
  | none => false
  | some t =>
    t.toHost == toHost && decide (0 < t.beatsLeft) &&
      (decide (c < 4) ||
        (!s.bit Adr.hdSts 31 && (!s.course.running || decide (0 < (s.hdCh c).creditLeft)) && !(t.device && s.hdDeviceOver toHost)))

/-- Owner of a channel's transfer. -/
def State.hdOwner (s : State) (c : Nat) : Nat := (((s.hdCh c).cur).map Transfer.owner).getD 0

/-- The pool user of a channel's transfer: physical function 0 and the device are one (R31). -/
def State.hdUser (s : State) (c : Nat) : Option Nat := if s.hdOwner c < 0x100 then some (s.hdOwner c) else none

/-- Beats that a pool user has taken in the course. -/
def HostRow.usedBy (r : HostRow) (u : Option Nat) : Nat := ((r.used.find? fun q => q.1 == u).map (·.2)).getD 0

/-- The channel that wins among contenders of one class: device traffic first, then the user that has taken least for its WH, its channels in turn
(R31, R270). -/
def State.hdPick (s : State) (cs : List Nat) : Option Nat :=
  let dev := cs.filter fun c => (s.hdCh c).cur.any Transfer.device
  let weight (u : Option Nat) : Nat := s.hostWeight (u.getD ownerPf)
  match nextUser weight s.course.host.usedBy (!dev.isEmpty) (((if dev.isEmpty then cs else dev).map s.hdUser).eraseDups) with
  | none => none
  | some u =>
    let mine := (if dev.isEmpty then cs else dev).filter fun c => s.hdUser c == u
    let last := ((s.course.host.last.find? fun q => q.1 == u).map (·.2)).getD 32
    (mine.find? fun (c : Nat) => decide (last < c)).orElse fun _ => mine.head?

/-- A beat of a pool channel counted: of its user, and of device traffic (R31). -/
def HostRow.count (r : HostRow) (u : Option Nat) (c : Nat) (t : Transfer) : HostRow :=
  { r with used := r.used.filter (fun q => q.1 != u) ++ [(u, r.usedBy u + 1)], last := r.last.filter (fun q => q.1 != u) ++ [(u, c)],
           deviceIn := if t.device && !t.toHost then r.deviceIn + 1 else r.deviceIn,
           deviceOut := if t.device && t.toHost then r.deviceOut + 1 else r.deviceOut }

/-- A beat of a channel's transfer: confirmed, its credit used; with its last beat the transfer ends (R270, R272, R277). -/
def State.hdMove (s : State) (c : Nat) : State :=
  match (s.hdCh c).cur with
  | none => s
  | some t =>
    let s := if c < 4 then s else s.modCourse fun k => { k with host := k.host.count (s.hdUser c) c t }
    let t := { t with beatsLeft := t.beatsLeft - 1, confirmed := t.confirmed + 1 }
    let s := s.modHd c fun k =>
      { k with cur := if t.beatsLeft = 0 then none else some t, lost := false,
               creditIn := if t.toHost then k.creditIn else k.creditIn - 1,
               creditOut := if t.toHost then k.creditOut - 1 else k.creditOut }
    if t.beatsLeft = 0 then s.hdRefill else s

/-- The grant of one direction at a beat boundary within a position: a HIGH channel wins over every NORMAL one (R270). -/
def State.hdGrant (s : State) (w : FlWindow) (toHost : Bool) (ready : List Nat) : State :=
  let here := ((List.range 32).filter ready.contains).filter fun c => s.hdMay toHost c && hdServes w c
  let high := here.filter fun c => s.bit (Adr.hdChCtl c) 31
  match s.hdPick (if high.isEmpty then here else high) with
  | none => s
  | some c => (here.foldl (fun s k => s.modHd k fun x => { x with lost := true }) s).hdMove c

/-- The position of the next beat boundary at which some channels have a beat ready: the first one that is not over and serves one of them
(R30, R270; log entry 53). -/
def State.hdPosition (s : State) (ready : List Nat) : Option FlWindow :=
  s.hdWindows.find? fun w => decide (max s.course.host.cycle w.start < w.stop) &&
    ready.any fun c => decide (c < 32) && (s.hdMay false c || s.hdMay true c) && hdServes w c

/-- A beat boundary: one hub-fabric cycle, in which the next beat of each direction is granted among the channels of the position (R267, R270). -/
def State.hdBeat (s : State) (ready : List Nat) : State :=
  match s.hdPosition ready with
  | none => s
  | some w =>
    let s := s.modCourse fun c => { c with host := { c.host with cycle := max c.host.cycle w.start + 1 } }
    (s.hdGrant w false ready).hdGrant w true ready

end Sys2Proof.Machine
end

