-- ==== Sys2Proof/Machine/TenantOps.lean ====
section
/-!
DEFINITION. Shared operations of the tenants: controller resets (R65), who may send a management command (R49, R72), the order
of Tenant Management (R364, R419), descriptors and their checks (R76 to R84, R238, R420), and divisions as they take effect
(R78, R79).
-/

namespace Sys2Proof.Machine

/-! ### Management commands -/

/-- A command that only physical function 0 of port 0 may send, and not in minimal mode (R49, R72, R359). -/
def State.managed (s : State) (h : Hdr) (f : State → State) : State :=
  s.run h fun s => if isManager h.ctrl && !s.minimal then f s else s.finish h (ansSt stOpcode)

/-- What a command of R364 may be waiting for. -/
def serialCond : Cond → Bool
  | .course _ => true
  | .division => true
  | .slotActive _ => true
  | .store => true
  | _ => false

/-- Is a Store, Tenant Management, Key Management or Namespace Attachment command under way (R364)? -/
def State.serialBusy (s : State) (h : Hdr) : Bool :=
  s.storeHdr.isSome ||
    s.inflight.any fun x => x.hdr != h && (x.phase == .dispatched) && isManager x.hdr.ctrl && x.conds.any serialCond

/-- A command of R364: it waits while another one is under way. -/
def State.serial (s : State) (h : Hdr) (f : State → State) : State :=
  s.managed h fun s => if s.serialBusy h then s.hold h else f s

/-- The status that goes with a reason (Tenant Management reasons). -/
def reasonSt (k : Nat) : Status := if [1, 2, 7, 8, 9, 0xC, 0xD, 0xF].contains k then stSequence else stField

/-- A Tenant Management action fails with its reason in DW0 (R76). -/
def State.failTm (s : State) (h : Hdr) (k : Nat) : State := s.finish h (ansReason (reasonSt k) k)

/-- Tenant Management reasons. -/
def tmBadState : Nat := 1
/-- NOT_QUIESCED. -/
def tmNotQuiesced : Nat := 2
/-- POOL_SHORT. -/
def tmPoolShort : Nat := 3
/-- BELOW_USE. -/
def tmBelowUse : Nat := 4
/-- WEAR_OVERCOMMIT. -/
def tmWear : Nat := 5
/-- SEALED_INCOMPLETE. -/
def tmSealed : Nat := 6
/-- SLOTS_REMAIN. -/
def tmSlots : Nat := 7
/-- FAULT_PENDING. -/
def tmFault : Nat := 8
/-- FLR_ACTIVE. -/
def tmFlr : Nat := 9
/-- BLOB_AUTH. -/
def tmAuth : Nat := 0xA
/-- BLOB_TARGET. -/
def tmTarget : Nat := 0xB
/-- NOT_SAVED. -/
def tmNotSaved : Nat := 0xC
/-- NO_SESSION. -/
def tmNoSession : Nat := 0xD
/-- NAMESPACE_MAP. -/
def tmMap : Nat := 0xE
/-- BOND_CHECK. -/
def tmBond : Nat := 0xF
/-- ABSENT_UNIT. -/
def tmAbsent : Nat := 0x10
/-- RANGE. -/
def tmRange : Nat := 0x11
/-- ASSIGNED. -/
def tmAssigned : Nat := 0x12

/-- Is a Function Level Reset of the tenant in progress (R89)? -/
def State.flrOf (s : State) (ti : Nat) : Bool := (s.ctrlsOf ti).any s.flrOn

/-- A Tenant Management action on a tenant: first FLR_ACTIVE, then the state rules, which ok gives as the reason of a state
that does not allow the action (R74, R419). -/
def State.tmAct (s : State) (h : Hdr) (ti : Nat) (ok : TiState → Option Nat) (f : State → State) : State :=
  s.serial h fun s =>
    if s.flrOf ti then s.failTm h tmFlr
    else match ok (s.tiState ti) with
      | some k => s.failTm h k
      | none => f s

/-! ### Controller resets (R65, R88) -/

/-- A controller with its register values and its queues as after a controller reset; what survives one stays: a Function Level Reset in
progress, the Error Information log and its count, the latency tolerance, the statistics and the MSI-X table. -/
def Ctrl.cleared (k : Ctrl) : Ctrl :=
  { State.ctrlReset k.id with
    flr := k.flr, latency := k.latency, msix := k.msix, errLog := k.errLog, errCount := k.errCount, blocksRead := k.blocksRead,
    blocksWritten := k.blocksWritten, readCmds := k.readCmds, writeCmds := k.writeCmds, mediaErrors := k.mediaErrors }

/-- What the commands of a controller have under way goes with them: work items, invocations, ingests, transfers, places in
digest queues, divisions that wait for a boundary (R65, R88, R243, R258, R279, R315). A commit of the bond banks that such a division
asked for stays pending, since no controller reset changes a vendor field (R5), and ends at its boundary (R35). -/
def State.dropWork (s : State) (c : Nat) : State :=
  let s := (s.invocations.filter fun v => v.hdr.ctrl == c).foldl (fun s v => s.freeInvocation v) s
  let s := s.discardAll fun i => i.ctrl == some c
  let s := s.abandonAll fun g => g.ctrl == c
  let s := (s.hdDrop fun t => t.hdr.any fun h => h.ctrl == c).hdRefill
  { s with
    digestWaits := s.digestWaits.filter (fun p => p.2.ctrl != c),
    deferred := s.deferred.filter (fun d => d.hdr.ctrl != c),
    storeNext := s.storeNext.filter (fun h => h.ctrl != c),
    storeHdr := s.storeHdr.map fun o => o.filter fun h => h.ctrl != c }

/-- A controller reset: its uncompleted commands are discarded without completion, its queues are gone, its registers have
their reset values (R65). -/
def State.resetCtrl (s : State) (c : Nat) : State := ((s.dropWork c).discard c).modCtrl c Ctrl.cleared

/-- Both controllers of a tenant reset as under R65 (R74). -/
def State.resetTenant (s : State) (ti : Nat) : State := (s.ctrlsOf ti).foldl State.resetCtrl s

/-- GENERATION of a tenant rises, and wraps (R74, R88, R89). -/
def State.nextGen (s : State) (ti : Nat) : State := s.wr (Adr.fnTiGen ti) (s.rd (Adr.fnTiGen ti) + 1)

/-- The work of a tenant's fetched commands: items, operations of its contexts, host DMA transfers (R86). -/
def State.workOf (s : State) (ti : Nat) : Nat :=
  (s.slices.map fun x =>
    (x.clusters.map fun k => (k.items.filter fun q => q.2.owner == ti).length).sum +
      ((x.contexts.filter fun q => q.2.owner == ti).map fun q => q.2.ops).sum).sum +
    (s.transfers.filter fun t => t.owner == ti && t.hdr.any fun h => (s.inFlight h).isSome).length

/-! ### Descriptors (R77) -/

/-- Is field k of a descriptor given? CREATE uses every field (R77). -/
def gives (mask k : Nat) : Bool := mask.testBit k

/-- The mask of every field. -/
def allFields : Nat := 0x7F

/-- A tenant with the given fields of a descriptor. -/
def Tenant.give (t : Tenant) (d : TenantDesc) (mask : Nat) : Tenant :=
  let t := if gives mask 0 then { t with wbq := d.wbq } else t
  let t := if gives mask 1 then { t with ctxq := d.ctxq } else t
  let t := if gives mask 2 then { t with wiq := d.wiq } else t
  let t := if gives mask 3 then { t with dgMask := d.dgMask } else t
  let t := if gives mask 4 then { t with keyBase := d.keyBase, keyCount := d.keyCount } else t
  let t := if gives mask 5 then { t with wearBurst := d.wearBurst, wearRate := d.wearRate } else t
  if gives mask 6 then { t with lunsets := d.lunsets } else t

/-- A tenant with no resources, OFFLINE (R74). -/
def tenantNew (ti : Nat) (isSealed : Bool) : Tenant :=
  { ti := ti, state := .offline, isSealed := isSealed, wbq := 0, ctxq := 0, wiq := 0, dgMask := 0, keyBase := 0, keyCount := 0,
    wearBurst := 0, wearRate := 0, lunsets := 0, vq := 0, vi := 0, saved := false,
    allowance := 0, wearLimited := false, next := none }

/-- The tenant that a CREATE makes (R83). -/
def tenantOf (ti : Nat) (isSealed : Bool) (d : TenantDesc) : Tenant :=
  { (tenantNew ti isSealed).give d allFields with allowance := d.wearBurst }

/-- The descriptor of a tenant (GET). -/
def Tenant.desc (t : Tenant) : TenantDesc :=
  { valid := allFields, flags := 0, wbq := t.wbq, ctxq := t.ctxq, wiq := t.wiq, dgMask := t.dgMask, keyBase := t.keyBase,
    keyCount := t.keyCount, wearBurst := t.wearBurst, wearRate := t.wearRate, reserved := 0, lunsets := t.lunsets }

/-- RANGE: a given field out of its range, the key range above 4,096, a reserved bit set (R77). -/
def descRange (d : TenantDesc) (mask : Nat) : Bool :=
  decide (d.valid / 128 ≠ 0) || decide (d.flags / 2 ≠ 0) || decide (d.reserved ≠ 0) ||
    (gives mask 0 && decide (1024 < d.wbq)) || (gives mask 2 && decide (1024 < d.wiq)) ||
    (gives mask 4 && (decide (4095 < d.keyBase) || decide (4096 < d.keyBase + d.keyCount)))

/-- The slices in which a tenant holds LUN sets. -/
def Tenant.lunSlices (t : Tenant) : List Nat := (List.range 8).filter fun n => t.lunsets / 2 ^ (32 * n) % 2 ^ 32 != 0

/-- ABSENT_UNIT: a digest unit or stripe group that the part does not build (R4, R77). -/
def State.absentUnit (s : State) (t : Tenant) : Bool :=
  decide (t.dgMask &&& (0xFFFF - s.part.capDg) ≠ 0) || t.lunSlices.any fun n => !s.hasSlice n

/-- The other holders of divided resources. -/
def State.others (s : State) (ti : Nat) : List Tenant := s.tenants.filter (fun t => t.ti != ti) ++ s.leaving

/-- ASSIGNED: a digest unit, key slot or stripe group that another tenant holds (R77). -/
def State.assigned (s : State) (t : Tenant) : Bool :=
  (s.others t.ti).any fun o =>
    decide (o.dgMask &&& t.dgMask ≠ 0) || decide (o.lunsets &&& t.lunsets ≠ 0) ||
      (decide (0 < o.keyCount) && decide (0 < t.keyCount) && decide (o.keyBase < t.keyBase + t.keyCount) &&
        decide (t.keyBase < o.keyBase + o.keyCount))

/-- The key slots of a range that a new range no longer holds. -/
def keysLeft (old t : Tenant) : List Nat :=
  ((List.range old.keyCount).map fun i => old.keyBase + i).filter fun k =>
    !(decide (t.keyBase ≤ k) && decide (k < t.keyBase + t.keyCount))

/-- The stripe groups, as (slice, group), that a new LUNSETS no longer holds. -/
def lunsLeft (old t : Tenant) : List (Nat × Nat) :=
  ((List.range 256).filter fun g => old.lunsets.testBit g && !t.lunsets.testBit g).map fun g => (g / 32, g % 32)

/-- Does a stripe group hold stored data (R78)? -/
def State.groupHolds (s : State) (n g : Nat) : Bool :=
  (s.slice n).supers.any fun sb => sb.group == g && decide (0 < s.validBytes n sb.seq)

/-- BELOW_USE: a removed key slot bound to an attached namespace, a removed stripe group that holds the tenant's data, or the
last group of a slice in which its namespaces lie (R78). -/
def State.belowUse (s : State) (old t : Tenant) : Bool :=
  (keysLeft old t).any s.boundAttached ||
    (lunsLeft old t).any fun p =>
      s.groupHolds p.1 p.2 ||
        (!t.lunSlices.contains p.1 && s.namespaces.any fun x =>
          x.desc.sealedTi == t.ti && x.parts.any fun q => q.slice == p.1)

/-! ### Floors and sums (R80, R238, R420) -/

/-- The slices in which the floors of a tenant apply (R420). -/
def State.floorSlices (s : State) (ti : Nat) : List Nat := s.sliceList.filter fun n => s.floorsApply n ti

/-- Do the sums of WBQ, WIQ and CTXQ fit in a slice with this tenant's floors there (R80, R238)? -/
def State.sumsFit (s : State) (t : Tenant) (n : Nat) : Bool :=
  let ts := t :: s.tenants.filter fun o => o.ti != t.ti && s.floorsApply n o.ti
  decide ((ts.map Tenant.wbq).sum ≤ s.fld (Adr.ftWb n) 15 0) && decide ((ts.map Tenant.wiq).sum ≤ 896) &&
    decide ((ts.map Tenant.ctxq).sum ≤ 65535 - s.fld (Adr.ctCfg n) 15 0)

/-- Would the stripe groups that a tenant takes from a slice's own pool leave it without the blocks that its namespaces reserve, or do they hold
stored data of others (R78, R132)? -/
def State.lunsShort (s : State) (t : Tenant) : Bool :=
  s.sliceList.any fun n =>
    let gs := (List.range 32).filter fun g => t.lunsets.testBit (32 * n + g) && s.poolOf n g == .slice
    gs != [] && s.formatted n &&
      (gs.any (s.groupHolds n) || decide (s.spare n .slice < ((s.slice n).goodIn gs : Int)))

/-- WEAR_OVERCOMMIT: the sum of WEAR_RATE would exceed DEV_WEAR_RATE (R84). -/
def State.overcommit (s : State) (t : Tenant) : Bool :=
  decide (s.wearRateMax < t.wearRate + ((s.others t.ti).map Tenant.wearRate).sum)

/-- Step 4 of R419 for CREATE, RESIZE and RESTORE: the first reason that applies. old is the tenant as it is, slices are
those in which its floors will apply. -/
def State.divisionFails (s : State) (d : TenantDesc) (mask : Nat) (old : Option Tenant) (t : Tenant) (slices : List Nat) :
    Option Nat :=
  if descRange d mask then some tmRange
  else if s.absentUnit t then some tmAbsent
  else if t.isSealed ∧ t.lunsets = 0 then some tmSealed
  else if s.assigned t then some tmAssigned
  else if old.any fun o => s.belowUse o t then some tmBelowUse
  else if s.lunsShort t || slices.any fun n => !s.sumsFit t n then some tmPoolShort
  else if gives mask 5 && s.overcommit t then some tmWear
  else none

/-! ### Commits and boundaries (R34, R35, R79) -/

/-- The next bond period boundary; before the course generator runs, the one that begins course 64 (R34). -/
def State.nextBond (s : State) : Nat := (s.now / 64 + 1) * 64

/-- The boundary at which a commit requested now takes effect: in course 63 the one after the next (R34). -/
def State.commitDue (s : State) : Nat := if s.course.running ∧ s.now % 64 = 63 then s.now + 65 else s.nextBond

/-- A commit requested: ignored with WR_IGNORED while one is pending (R34, R35). -/
def State.requestCommit (s : State) : State :=
  if s.bit Adr.ckCommitSts 7 then s.setBit Adr.ckCommitSts 6
  else (s.setBit Adr.ckCommitSts 7).modCourse fun c => { c with commit := some { due := s.commitDue, verdict := none } }

/-- An accepted action waits for its boundary, and with it, if it commits the banks, the commit; refused with BOND_CHECK while
one is pending (R79). -/
def State.deferAct (s : State) (h : Hdr) (act : TenantAct) (commits : Bool) : State :=
  if commits && s.bit Adr.ckCommitSts 7 then (s.setBit Adr.ckCommitSts 6).failTm h tmBond
  else
    let due := if commits then s.commitDue else s.nextBond
    let s : State := if commits then s.requestCommit else s
    let d : Deferred := { hdr := h, act := act, commits := commits, due := due }
    { s with deferred := s.deferred ++ [d] }.answer h (ansSt stOk) [.division]

/-- The tenants of a list with an action applied. -/
def actTenants (l : List Tenant) (act : TenantAct) : List Tenant :=
  match act with
  | .create ti m d => recPut Tenant.ti l (tenantOf ti m d)
  | .resize ti d => recMod Tenant.ti l ti fun t => t.give d d.valid
  | .setMode ti m => recMod Tenant.ti l ti fun t => { t with isSealed := m }

/-- The tenants as the bond check sees them: as they will be at the boundary, with every change that waits for it (R35, R79, R82). -/
def State.bondTis (s : State) (acts : List TenantAct) : List BondTi :=
  (acts.foldl actTenants s.tenants).map fun t =>
    { ti := t.ti, isSealed := t.isSealed, attached := s.namespaces.any fun x => x.attachedTis.contains t.ti, lunsets := t.lunsets }

/-- A slot of a removed range, or of a removed tenant, is emptied; one that is RETIRING when it ends (R184). Answers whether
it waits. -/
def State.zeroizeSlot (s : State) (k : Nat) : State :=
  match (s.keySlot k).state with
  | .empty => s
  | .active => (s.emptySlot k).unbind k
  | .retiring => { s with slotWaits := s.slotWaits ++ [{ slot := k, format := false }] }

/-- The slots of a list that are RETIRING: what their zeroizing waits for (R184). -/
def State.retiringOf (s : State) (ks : List Nat) : List Cond :=
  (ks.filter fun k => (s.keySlot k).state == .retiring).map Cond.slotActive

/-- The allowance of a tenant judged again: FN_EVT.WEAR_LIMITED when it becomes empty (R83). -/
def State.evalWear (s : State) : State :=
  let now (t : Tenant) : Bool := decide (t.allowance ≤ 0)
  let hit := s.tenants.any fun t => now t && !t.wearLimited
  let s := s.mapTenants fun t => { t with wearLimited := now t }
  if hit then s.setBit Adr.fnEvt 3 else s

/-- Superblocks of stripe groups that change pools are given back: they hold no stored data (R78). -/
def State.freeGroups (s : State) (gs : List (Nat × Nat)) : State :=
  let s := gs.foldl (fun s p => ((s.slice p.1).supers.filter fun sb => sb.group == p.2).foldl (fun s sb => s.freeSuper p.1 sb.seq) s) s
  s.sliceList.foldl State.evalSpare s

/-- A waiting action takes effect (R74, R78, R82, R83). Answers the slots whose zeroizing waits. -/
def State.applyAct (s : State) (act : TenantAct) : State × List Cond :=
  match act with
  | .create ti m d =>
    ({ s with tenants := recPut Tenant.ti s.tenants (tenantOf ti m d) }.evalWear, [])
  | .resize ti d =>
    match s.tenant ti with
    | none => (s, [])
    | some old =>
      let t := old.give d d.valid
      let t := { t with allowance := min t.allowance (t.wearBurst : Rat) }
      let ks := keysLeft old t
      let w := s.retiringOf ks
      let s := ks.foldl State.zeroizeSlot s
      ((s.modTenant ti fun _ => t).freeGroups (lunsLeft old t) |>.evalWear, w)
  | .setMode ti m => (s.modTenant ti fun t => { t with isSealed := m }, [])

/-- A division whose boundary has come: applied and its command completed, or failed with BOND_CHECK (R79). -/
def State.settle (s : State) (d : Deferred) (passed : Bool) : State :=
  let s := { s with deferred := s.deferred.filter (· != d) }
  if passed then
    let r := s.applyAct d.act
    r.1.modIn d.hdr fun x => { x with conds := r.2 }
  else s.failTm d.hdr tmBond

/-- The actions that take effect by the boundary of a commit (R35, R79). -/
def State.actsBy (s : State) (due : Nat) : List TenantAct :=
  (s.deferred.filter fun d => d.commits || decide (d.due ≤ due)).map Deferred.act

/-- The check of a pending commit, in course 63 (R35). -/
def State.checkCommit (s : State) : State :=
  s.modCourse fun c => { c with commit := c.commit.map fun k => { k with verdict := some (s.bondCheck (s.bondTis (s.actsBy k.due))) } }

/-- The outcome of a commit becomes visible at its boundary, and passed banks take effect (R34, R35). -/
def State.commitNow (s : State) (v : Verdict) : State :=
  let s := s.modCourse fun c => { c with commit := none }
  let w := v.cell * 2 ^ 16 + v.ti * 2 ^ 8 + bit01 (s.bit Adr.ckCommitSts 6) * 2 ^ 6 + bit01 v.tiValid * 2 ^ 5 + v.result
  let s := s.wr Adr.ckCommitSts (BitVec.ofNat 32 w)
  if v.result = 1 then s.applyBanks else s

/-- The commit and the divisions whose boundary has come (R34, R79). -/
def State.boundaryActs (s : State) : State :=
  let s : State := match s.course.commit with
    | none => s
    | some k =>
      if s.now < k.due then s
      else
        let v := k.verdict.getD (s.bondCheck (s.bondTis (s.actsBy k.due)))
        let s := s.commitNow v
        (s.deferred.filter Deferred.commits).foldl (fun s d => s.settle d (v.result == 1)) s
  (s.deferred.filter fun d => !d.commits && decide (d.due ≤ s.now)).foldl (fun s d => s.settle d true) s

end Sys2Proof.Machine
end

