-- ==== Sys2Proof/Machine/Tenants.lean ====
section
/-!
DEFINITION. Meanings of Tenant Management, Virtualization Management and Namespace Attachment, apart from migration (R72 to
R89, R188, R239, R249, R420).
-/

namespace Sys2Proof.Machine

/-! ### Divisions and modes (R74, R77 to R84) -/

/-- CREATE (R74, R79, R419). -/
def execCreate (h : Hdr) (no : BitVec 8) (sealedMode : Bool) (desc : TenantDesc) (s : State) : Host.Outcome State Fault Refusal :=
  let ti := no.toNat
  .next (s.tmAct h ti (fun st => match st with
      | .absent => none
      | _ => some tmBadState) fun s =>
    match s.divisionFails desc allFields none (tenantOf ti sealedMode desc) (s.floorSlices ti) with
    | some k => s.failTm h k
    | none => s.deferAct h (.create ti sealedMode desc) (desc.flags.testBit 0))

/-- RESIZE: the fields marked in VALID (R77, R79, R419). -/
def execResize (h : Hdr) (no : BitVec 8) (desc : TenantDesc) (s : State) : Host.Outcome State Fault Refusal :=
  let ti := no.toNat
  .next (s.tmAct h ti (fun st => match st with
      | .absent => some tmBadState
      | .frozen => some tmBadState
      | _ => none) fun s =>
    match s.tenant ti with
    | none => s.failTm h tmBadState
    | some old =>
      match s.divisionFails desc desc.valid (some old) (old.give desc desc.valid) (s.floorSlices ti) with
      | some k => s.failTm h k
      | none => s.deferAct h (.resize ti desc) (desc.flags.testBit 0))

/-- SET_MODE: always commits the shadow banks (R82). -/
def execSetMode (h : Hdr) (no : BitVec 8) (sealedMode : Bool) (s : State) : Host.Outcome State Fault Refusal :=
  let ti := no.toNat
  .next (s.tmAct h ti (fun st => match st with
      | .offline => none
      | .quiesced => none
      | _ => some tmBadState) fun s =>
    let bad := sealedMode && (((s.tenant ti).any fun t => t.lunsets == 0) ||
      s.namespaces.any fun x => x.attachedTis.contains ti)
    if bad then s.failTm h tmSealed else s.deferAct h (.setMode ti sealedMode) true)

/-! ### Quiesce, resume, freeze, reset (R74, R85 to R87) -/

/-- A change of state that waits for the next course boundary. -/
def State.turnAt (s : State) (ti : Nat) (st : TiState) : State :=
  s.modTenant ti fun t => { t with next := some (s.now + 1, st) }

/-- QUIESCE: fetch stops at the next course boundary, and the command completes then (R85). -/
def execQuiesce (h : Hdr) (no : BitVec 8) (s : State) : Host.Outcome State Fault Refusal :=
  let ti := no.toNat
  .next (s.tmAct h ti (fun st => match st with
      | .online => none
      | _ => some tmBadState) fun s => (s.turnAt ti .quiescing).answer h (ansSt stOk) [.course (s.now + 1)])

/-- A QUIESCING tenant with nothing in flight is QUIESCED (R74, R86). -/
def execQuiescedReached (ti : Nat) (s : State) : Host.Outcome State Fault Refusal :=
  .next (if s.tiState ti = .quiescing ∧ s.inflightOf ti = 0 ∧ s.workOf ti = 0 then
      (s.modTenant ti fun t => { t with state := .quiesced }).setBit Adr.fnEvt 1
    else s)

/-- RESUME: ONLINE, and fetch resumes, at the next course boundary; from FROZEN it clears SAVED (R74, R85). -/
def execResume (h : Hdr) (no : BitVec 8) (s : State) : Host.Outcome State Fault Refusal :=
  let ti := no.toNat
  .next (s.tmAct h ti (fun st => match st with
      | .quiesced => none
      | .frozen => none
      | _ => some tmBadState) fun s => (s.turnAt ti .online).answer h (ansSt stOk) [.course (s.now + 1)])

/-- Actions that need a quiesced tenant: NOT_QUIESCED while it is ONLINE or QUIESCING (R74). -/
def needQuiet (ok : TiState → Bool) (st : TiState) : Option Nat :=
  if ok st then none
  else match st with
    | .online => some tmNotQuiesced
    | .quiescing => some tmNotQuiesced
    | _ => some tmBadState

/-- FREEZE (R74). -/
def execFreeze (h : Hdr) (no : BitVec 8) (s : State) : Host.Outcome State Fault Refusal :=
  let ti := no.toNat
  .next (s.tmAct h ti (needQuiet fun st => match st with
      | .quiesced => true
      | _ => false) fun s => (s.modTenant ti fun t => { t with state := .frozen }).finish h (ansSt stOk))

/-- RESET: both controllers reset, GENERATION + 1 (R74); a blob saved before it no longer matches, so SAVED is cleared (R93). -/
def execReset (h : Hdr) (no : BitVec 8) (s : State) : Host.Outcome State Fault Refusal :=
  let ti := no.toNat
  .next (s.tmAct h ti (needQuiet fun st => match st with
      | .quiesced => true
      | .frozen => true
      | .offline => true
      | _ => false) fun s =>
    (((s.resetTenant ti).nextGen ti).modTenant ti fun t => { t with saved := false }).finish h (ansSt stOk))

/-! ### REMOVE (R74, R93, R239, R315) -/

/-- The flows of an owner closed: freed at once where they hold no slot (R239). -/
def Cluster.closeFlows (ti : Nat) (k : Cluster) : Cluster :=
  let close (q : Nat × Flow) : Nat × Flow := if q.2.owner = ti then (q.1, { q.2 with closing := true }) else q
  { k with flows := (k.flows.map close).filter fun q => !(q.2.closing && !(k.items.any fun i => i.2.flow == some q.1)) }

/-- A tenant's work discarded: items, contexts, flows, invocations, ingests, digest messages, transfers (R239, R315). -/
def State.discardTenant (s : State) (ti : Nat) : State :=
  let s := (s.invocations.filter fun v => v.owner == ti).foldl (fun s v => s.freeInvocation v) s
  let s := s.discardAll fun i => i.owner == ti
  let s := s.closeCtxs fun k => k.owner == ti
  let s := s.mapSlices fun x => { x with clusters := x.clusters.map (Cluster.closeFlows ti) }
  let s := s.abandonAll fun g => g.owner == ti
  let s := ((s.digests.filter fun q => q.2.owner == ti).map (·.1)).foldl (fun s no => s.endDigest no 8) s
  (s.hdDrop fun t => t.owner == ti).hdRefill

/-- A tenant removed: namespaces detached, work discarded, controllers reset, its resources held until the next bond period
boundary (R74). -/
def State.removeTenant (s : State) (t : Tenant) : State :=
  let s := (s.discardTenant t.ti).resetTenant t.ti
  let s := s.mapNs fun x => { x with attachedTis := x.attachedTis.filter (· != t.ti) }
  let s := (s.ctrlsOf t.ti).foldl (fun s c => { s with ctrls := recErase Ctrl.id s.ctrls c }) s
  { s with tenants := recErase Tenant.ti s.tenants t.ti, leaving := s.leaving ++ [t] }

/-- The key slots of a tenant's range. -/
def Tenant.keySlots (t : Tenant) : List Nat := (List.range t.keyCount).map fun i => t.keyBase + i

/-- REMOVE (R74, R93, R419): it waits for key slots that are RETIRING (R184). -/
def execRemove (h : Hdr) (no : BitVec 8) (migrated : Bool) (s : State) : Host.Outcome State Fault Refusal :=
  let ti := no.toNat
  .next (s.tmAct h ti (needQuiet fun st => match st with
      | .quiesced => true
      | .frozen => true
      | .offline => true
      | _ => false) fun s =>
    match s.tenant ti with
    | none => s.failTm h tmBadState
    | some t =>
      if migrated && !t.saved then s.failTm h tmNotSaved
      else if s.slotNames ti then s.failTm h tmSlots
      else
        let w := s.retiringOf t.keySlots
        let s := s.removeTenant t
        (t.keySlots.foldl State.zeroizeSlot s).answer h (ansSt stOk) w)

/-! ### GET (R76) -/

/-- The bytes of a descriptor, as fields (Tenant descriptor). -/
def descFields (d : TenantDesc) : List (Nat × Nat × Nat) :=
  [(0, 4, d.valid), (4, 1, d.flags), (8, 2, d.wbq), (10, 2, d.ctxq), (12, 2, d.wiq), (14, 2, d.dgMask), (16, 2, d.keyBase),
    (18, 2, d.keyCount), (20, 4, d.wearBurst), (24, 4, d.wearRate), (32, 32, d.lunsets)]

/-- FN_TI_STS of a tenant: SAVED, WEAR_LIMITED, FAULT_PENDING, FLR_P1, FLR_P0, ISOLATION and STATE (FN registers). -/
def State.fnStsWord (s : State) (ti : Nat) : Word :=
  let flr := bit01 (s.flrOn (cntlid 1 (ti + 1))) * 2 ^ 28 + bit01 (s.flrOn (cntlid 0 (ti + 1))) * 2 ^ 27
  match s.tenant ti with
  | none => BitVec.ofNat 32 flr
  | some t =>
    let st := match t.state with
      | .absent => 0
      | .offline => 1
      | .online => 2
      | .quiescing => 3
      | .quiesced => 4
      | .frozen => 5
    BitVec.ofNat 32 (bit01 t.saved * 2 ^ 31 + bit01 t.wearLimited * 2 ^ 30 +
      bit01 (s.nvm.faultPairs.any fun p => p.1 == ti) * 2 ^ 29 + flr + bit01 t.isSealed * 2 ^ 8 + st)

/-- FN_TI_INFLIGHT: WORK and COMMANDS (R86). -/
def State.fnInflightWord (s : State) (ti : Nat) : Word :=
  BitVec.ofNat 32 (min 255 (s.workOf ti) * 2 ^ 24 + s.inflightOf ti)

/-- FN_TI_WEAR: whole MiB that remain (R83). -/
def State.fnWearWord (s : State) (ti : Nat) : Word :=
  match s.tenant ti with
  | none => 0
  | some t => BitVec.ofNat 32 (min 0xFFFFFFFF t.allowance.floor.toNat)

/-- GET: descriptor, usage figures and DEV_WEAR_RATE; the figures are those of the FN registers, and they lie after the
descriptor's 64 bytes, in an order that the spec leaves open (log entry 8). Of an ABSENT instance it gives a descriptor of zeros with
VALID 0x7F, and success (log entry 21). -/
def execGet (h : Hdr) (no : BitVec 8) (s : State) : Host.Outcome State Fault Refusal :=
  let ti := no.toNat
  .next (s.serial h fun s =>
    let d := ((s.tenant ti).map Tenant.desc).getD (tenantNew ti false).desc
    let usage := [(64, 4, (s.fnStsWord ti).toNat), (68, 4, (s.fnInflightWord ti).toNat), (72, 4, (s.rd (Adr.fnTiGen ti)).toNat),
      (76, 4, (s.fnWearWord ti).toNat), (80, 8, s.wearRateMax)]
    (s.dataOut h 88).finish h (ansData (.fields (descFields d ++ usage))))

/-! ### Virtualization Management (R74, R78, R79) -/

/-- A Virtualization Management action on the tenant of a secondary controller; a primary one is no such controller. It waits while a
change of the tenant's state waits for its course boundary, and is judged by the state after it (R74; log entry 20). -/
def State.virt (s : State) (h : Hdr) (c : Nat) (f : Nat → State → State) : State :=
  s.managed h fun s =>
    if isPf c ∨ !s.ctrlExists c then s.finish h (ansSt stField)
    else if (s.tenant (ctrlFn c - 1)).any fun t => t.next.isSome then s.hold h
    else f (ctrlFn c - 1) s

/-- Secondary Controller Online: a controller that the host has enabled meanwhile may be ready (R74, R348). -/
def execSecondaryControllerOnline (h : Hdr) (cntlid : Nat) (s : State) : Host.Outcome State Fault Refusal :=
  .next (s.virt h cntlid fun ti s =>
    match s.tiState ti with
    | .offline => ((s.modTenant ti fun t => { t with state := .online }).evalReady).finish h (ansSt stOk)
    | _ => s.failTm h tmBadState)

/-- Secondary Controller Offline: both controllers reset (R74, R87). -/
def execSecondaryControllerOffline (h : Hdr) (cntlid : Nat) (s : State) : Host.Outcome State Fault Refusal :=
  .next (s.virt h cntlid fun ti s =>
    match needQuiet (fun st => match st with
        | .quiesced => true
        | _ => false) (s.tiState ti) with
    | some k => s.failTm h k
    | none => ((s.resetTenant ti).modTenant ti fun t => { t with state := .offline }).finish h (ansSt stOk))

/-- I/O queue pairs that a controller holds. -/
def Ctrl.pairs (k : Ctrl) : Nat :=
  max (k.sqs.filter fun q => q.qid != 0).length (k.cqs.filter fun q => q.qid != 0).length

/-- I/O queue pairs that both controllers of an owner hold. -/
def State.pairsOf (s : State) (owner : Nat) : Nat := ((s.ctrlsOf owner).map fun c => (s.ctrl c).pairs).sum

/-- Queue pairs of the pool that are not spoken for by another tenant's count or by physical function 0 (R45). -/
def State.pairsLeft (s : State) (ti : Nat) : Nat :=
  4096 - (((s.tenants.filter fun t => t.ti != ti).map Tenant.vq).sum + s.pairsOf ownerPf)

/-- Is a vector beyond a count bound to a completion queue of the tenant (R78)? -/
def State.vectorUsed (s : State) (ti count : Nat) : Bool :=
  (s.ctrlsOf ti).any fun c => (s.ctrl c).cqs.any fun q => decide (count ≤ q.vector)

/-- Secondary Controller Assign of queue pairs or vectors (R45, R78, R79). The division of a FROZEN tenant is held (R74). -/
def execSecondaryControllerAssign (h : Hdr) (cntlid : Nat) (res : AssignRes) (count : Nat) (s : State) :
    Host.Outcome State Fault Refusal :=
  .next (s.virt h cntlid fun ti s =>
    match s.tiState ti with
    | .absent => s.failTm h tmBadState
    | .frozen => s.failTm h tmBadState
    | _ =>
      match res with
      | .vq =>
        if 256 < count then s.failTm h tmRange
        else if count < s.pairsOf ti then s.failTm h tmBelowUse
        else if s.pairsLeft ti < count then s.failTm h tmPoolShort
        else (s.modTenant ti fun t => { t with vq := count }).finish h (ansSt stOk)
      | .vi =>
        if 257 < count then s.failTm h tmRange
        else if s.vectorUsed ti count then s.failTm h tmBelowUse
        else (s.modTenant ti fun t => { t with vi := count }).finish h (ansSt stOk))

/-! ### Namespace Attachment (R73, R82, R188, R249, R420) -/

/-- Does a controller list name only controllers that exist: those of absent tenants do not? -/
def State.listOk (s : State) (cs : List Nat) : Bool :=
  cs.all fun c => s.ctrlExists c && (isPf c || (s.tenant (ctrlFn c - 1)).isSome)

/-- Has a Sealed tenant a SLOT in the host-DMA row and in every class row of the regions that hold its LUN sets in the
namespace's slices (R82)? -/
def State.slotsFor (s : State) (t : Tenant) (x : Namespace) : Bool :=
  let has (row : Nat) : Bool := (List.range 64).any fun c =>
    let w := s.cell c row
    (entKind (entryA w) == 1 && entOwner (entryA w) == t.ti) || (entKind (entryB w) == 1 && entOwner (entryB w) == t.ti)
  has 64 && x.parts.all fun p => [2 * p.slice, 2 * p.slice + 1].all fun g =>
    t.lunsets / 2 ^ (16 * g) % 2 ^ 16 == 0 || (List.range 4).all fun k => has (bondRow g k)

/-- Is the namespace's key slot one that the owner may use (R188)? -/
def State.slotFits (s : State) (owner : Nat) (x : Namespace) : Bool := x.slot.any fun k => s.slotOwned owner k

/-- May the namespace be attached to a tenant (R81, R82, R188, R249, R420)? -/
def State.mayAttachTi (s : State) (t : Tenant) (x : Namespace) : Bool :=
  s.slotFits t.ti x &&
    (if t.isSealed then x.desc.sealedTi == t.ti && s.slotsFor t x else decide (x.desc.sealedTi ≥ 0x100) || x.desc.sealedTi == t.ti) &&
    (x.kind != .memory || (x.attachedTis.isEmpty && x.attachedPfs.isEmpty)) &&
    (x.parts.filter fun p => !s.floorsApply p.slice t.ti).all fun p => s.sumsFit t p.slice

/-- May the namespace be attached to physical function 0 (R188, R249)? -/
def State.mayAttachPf (s : State) (x : Namespace) : Bool :=
  s.slotFits ownerPf x && decide (x.desc.sealedTi ≥ 0x100) && (x.kind != .memory || x.attachedTis.isEmpty)

/-- The memory of a memory namespace set to zero (R249). -/
def State.zeroMem (s : State) (x : Namespace) : State :=
  if x.kind ≠ .memory then s
  else x.parts.foldl (fun s p => s.modSlice p.slice fun y => { y with slm := memClear y.slm p.memBase (x.size * 4096) }) s

/-- The namespace attached to a controller: to both controllers of a tenant (R73); memory is zeroed before a different owner
gets it (R249). -/
def State.attachTo (s : State) (x : Namespace) (c : Nat) : State :=
  let owner := ctrlOwner c
  let s := if x.lastOwner.any fun o => o != owner then s.zeroMem x else s
  s.modNs x.nsid fun x =>
    let x := { x with lastOwner := some owner }
    if isPf c then { x with attachedPfs := if x.attachedPfs.contains c then x.attachedPfs else x.attachedPfs ++ [c] }
    else { x with attachedTis := if x.attachedTis.contains owner then x.attachedTis else x.attachedTis ++ [owner] }

/-- Namespace Attachment, attach (R73, R82, R188, R249, R420): nothing is attached when any check fails. -/
def execNamespaceAttach (h : Hdr) (nsid : Nat) (ctrls : List Nat) (s : State) : Host.Outcome State Fault Refusal :=
  .next (s.serial h fun s =>
    match s.ns nsid with
    | none => s.finish h (ansSt stNamespace)
    | some x =>
      let owners := (ctrls.map ctrlOwner).eraseDups
      let may (o : Nat) : Bool :=
        if o = ownerPf then s.mayAttachPf x else (s.tenant o).any fun t => s.mayAttachTi t x
      if ctrls = [] then s.finish h (ansSt stField)
      else if !s.listOk ctrls then s.finish h (ansSt stCtrlList)
      else if ctrls.any x.attached then s.finish h (ansSt stAttached)
      else if !owners.all may || (x.kind == .memory && decide (1 < owners.length)) then s.finish h (ansSt stField)
      else (ctrls.foldl (fun s c => s.attachTo x c) s).finish h (ansSt stOk))

/-- The namespace detached from a controller: from both controllers of a tenant (R73). -/
def Namespace.detach (x : Namespace) (c : Nat) : Namespace :=
  if isPf c then { x with attachedPfs := x.attachedPfs.filter (· != c) }
  else { x with attachedTis := x.attachedTis.filter (· != ctrlOwner c) }

/-- Namespace Attachment, detach (R70, R78). -/
def execNamespaceDetach (h : Hdr) (nsid : Nat) (ctrls : List Nat) (s : State) : Host.Outcome State Fault Refusal :=
  .next (s.serial h fun s =>
    match s.ns nsid with
    | none => s.finish h (ansSt stNamespace)
    | some x =>
      if ctrls = [] then s.finish h (ansSt stField)
      else if !s.listOk ctrls then s.finish h (ansSt stCtrlList)
      else if !ctrls.all x.attached then s.finish h (ansSt stNotAttached)
      else (s.modNs nsid fun x => ctrls.foldl Namespace.detach x).finish h (ansSt stOk))

end Sys2Proof.Machine
end

