-- ==== Sys2Proof/Machine/Migration.lean ====
section
/-!
DEFINITION. Meanings of the migration actions of Tenant Management (R90 to R92, R183, R186).
-/

namespace Sys2Proof.Machine

/-! ### Sessions (R90, R320) -/

/-- The migration session of a number. -/
def State.mig (s : State) (n : Nat) : Option MigSession := recGet MigSession.number s.migs n

/-- A migration session put in its place. -/
def State.putMig (s : State) (m : MigSession) : State := { s with migs := recPut MigSession.number s.migs m }

/-- Key-schedule secrets of an SPDM session derived into some of its four slots; their values are the key schedule's, a black box
(R316; log entry 5). -/
def State.sessionKeys (s : State) (n : Nat) (which : List Nat) : State :=
  which.foldl (fun s k =>
    let r := s.random
    r.2.loadInternal (4129 + 4 * n + k) 3 r.1) s

/-- The slots of an SPDM session emptied (R316, R418). -/
def State.dropSessionKeys (s : State) (n : Nat) : State :=
  [0, 1, 2, 3].foldl (fun s k => if (s.keySlot (4129 + 4 * n + k)).state = .empty then s else s.emptySlot (4129 + 4 * n + k)) s

/-- A session ends: its migration key is zeroized (R90, R418). -/
def State.endMig (s : State) (n : Nat) : State :=
  let s := ({ s with migs := recErase MigSession.number s.migs n } : State).dropSessionKeys n
  if (s.keySlot (4121 + n)).state = .empty then s else s.emptySlot (4121 + n)

/-- May the session number be opened: 0 to 7 and used by no SPDM session over DOE (R183, R320)? -/
def State.migFree (s : State) (n : Nat) : Bool := decide (n < 8) && !(s.spdmSessions.any fun q => q.number == n)

/-- The messages of the requester, in their order (R90, R320). -/
def migSteps : List SpdmMsg :=
  [.getVersion, .getCapabilities, .negotiateAlgorithms, .getDigests, .getCertificate, .challenge, .keyExchange]

/-- This package's chain, as the peer checks it (R90, R321). -/
def State.ownChain (s : State) : PeerChain := { rootsInTilnas := true, sameFamily := true, deviceId := s.nvm.packageId }

/-- The request of a step. -/
def State.migRequest (s : State) (k : Nat) : SpdmMsg := (migSteps[k]?).getD (.finish s.ownChain)

/-- Response codes of SPDM 1.2, named by R320 without their values (log entry 8). -/
def rspError : Nat := 0x7F

/-- Is a peer accepted: its chain roots in the Tilnas device root and its family is the same (R90)? -/
def PeerOk (p : PeerChain) : Bool := p.rootsInTilnas && p.sameFamily

/-- The responder's progress and answer on a request; none refuses it. -/
def migAnswer (progress : Nat) (m : SpdmMsg) : Option (Nat × Nat) :=
  match m with
  | .getVersion => some (1, 0x04)
  | .getCapabilities => if 1 ≤ progress then some (max progress 2, 0x61) else none
  | .negotiateAlgorithms => if 2 ≤ progress then some (max progress 3, 0x63) else none
  | .getDigests => if 3 ≤ progress then some (progress, 0x01) else none
  | .getCertificate => if 3 ≤ progress then some (progress, 0x02) else none
  | .challenge => if 3 ≤ progress then some (progress, 0x03) else none
  | .keyExchange => if 3 ≤ progress then some (4, 0x64) else none
  | _ => none

/-- A message from the peer on a responder's session (R90). -/
def State.migServe (s : State) (g : MigSession) (m : SpdmMsg) : State :=
  let say (g : MigSession) (code : Nat) (p : Option PeerChain) : State :=
    s.putMig { g with outbox := g.outbox ++ [.response code p] }
  match m with
  | .finish p =>
    if g.progress = 4 ∧ PeerOk p then
      (say { g with progress := 5, established := true, peerId := p.deviceId } 0x65 none).sessionKeys g.number [1]
    else say { g with progress := 0, established := false } rspError none
  | .migrationKey k =>
    if g.established then (s.putMig { g with key := some k }).loadInternal (4121 + g.number) 3 k else s
  | .response _ _ => s
  | .other code => if code = 0xEC then s.endMig g.number else say g rspError none
  | m =>
    match migAnswer g.progress m with
    | some (p, code) =>
      let t := say { g with progress := p } code (if code = 2 then some s.ownChain else none)
      if code = 0x64 then t.sessionKeys g.number [0, 2, 3] else t
    | none => say g rspError none

/-- A response from the peer on a requester's session: the next request follows; a peer that is refused, or an error, ends it
(R90). -/
def State.migTake (s : State) (g : MigSession) (m : SpdmMsg) : State :=
  match m with
  | .response code p =>
    if code = rspError ∨ p.any (fun p => !PeerOk p) ∨ (code = 2 ∧ p = none) then s.endMig g.number
    else
      let g := match p with
        | none => g
        | some p => { g with peerId := p.deviceId }
      if 7 ≤ g.progress then (s.putMig { g with established := true, progress := 8 }).sessionKeys g.number [0, 1, 2, 3]
      else s.putMig { g with progress := g.progress + 1, outbox := g.outbox ++ [s.migRequest (g.progress + 1)] }
  | _ => s

/-- A session opened in a role. -/
def migOpen (n : Nat) (requester : Bool) (out : List SpdmMsg) : MigSession :=
  { number := n, requester := requester, established := false, progress := 0, peerId := 0, key := none, outbox := out }

/-- MIG_SEND: a message from the peer; on a session not in use it opens it as responder (R76, R90). -/
def execMigSend (h : Hdr) (session : Nat) (msg : SpdmMsg) (s : State) : Host.Outcome State Fault Refusal :=
  .next (s.serial h fun s =>
    if !s.migFree session then s.failTm h tmNoSession
    else
      let g := (s.mig session).getD (migOpen session false [])
      (if g.requester then s.migTake g msg else s.migServe g msg).finish h (ansSt stOk))

/-- MIG_RECV: the next message for the peer; on a session not in use it opens it as requester (R76, R90). With no message waiting it completes with
success and no data (log entry 23). -/
def execMigRecv (h : Hdr) (session : Nat) (s : State) : Host.Outcome State Fault Refusal :=
  .next (s.serial h fun s =>
    if !s.migFree session then s.failTm h tmNoSession
    else
      let g := (s.mig session).getD (migOpen session true [.getVersion])
      match g.outbox with
      | [] => (s.putMig g).finish h (ansSt stOk)
      | m :: rest => (s.putMig { g with outbox := rest }).finish h (ansData (.spdm m)))

/-! ### SAVE (R90, R91) -/

/-- The code of the family that a migration compares (R90, R92). -/
def familyCode : Nat := 0x1024

/-- The queues of one controller for a blob (R91). -/
def Ctrl.blobQueues (k : Ctrl) (port : Nat) : List BlobQueue :=
  (k.sqs.map fun q => { port := port, qid := q.qid, base := q.base, size := q.size, cqid := q.cqid, vector := 0, prio := q.prio, head := q.head,
                        tail := q.tail, phase := false, recorded := q.recorded, isCq := false }) ++
    k.cqs.map fun q => { port := port, qid := q.qid, base := q.base, size := q.size, cqid := 0, vector := q.vector, prio := 0, head := q.head,
                         tail := q.tail, phase := q.phase, recorded := none, isCq := true }

/-- Coding of namespace kinds in a blob. -/
def kindCode : NsKind → Nat
  | .block => 0
  | .object => 1
  | .memory => 3
  | .computational => 4

/-- A namespace as a blob describes it (R91). -/
def Namespace.blob (x : Namespace) : BlobNs :=
  { nsid := x.nsid, size := x.size, kind := kindCode x.kind, media := x.desc.media, rate := x.desc.rate, through := x.through,
    placement := x.desc.placement }

/-- The blob of a tenant under a migration key and an IV (R91); the length of the body, whose layout the spec leaves open, is given
(log entry 74). -/
def State.blobOf (s : State) (t : Tenant) (g : MigSession) (k : Key) (iv : BitVec 96) (len : Nat) : Blob :=
  let cs := s.ctrlsOf t.ti
  { magicOk := true, version := 1, bodyLen := len, iv := iv, srcTi := t.ti, srcId := s.nvm.packageId, dstId := g.peerId,
    fwLevel := (s.rd Adr.hubFwLevel).toNat,
    generation := s.rd (Adr.fnTiGen t.ti), sealKey := k, intact := true, family := familyCode, body := t.desc,
    sealedMode := t.isSealed,
    weights := [s.rd (Adr.ckWeightActive t.ti), s.rd (Adr.ckWeight1Active t.ti)],
    queues := cs.flatMap fun c => (s.ctrl c).blobQueues (ctrlPort c),
    features := cs.flatMap fun c => (s.ctrl c).features.map fun q => (ctrlPort c, q.1, q.2),
    aers := (s.inflight.filter fun x => cs.contains x.hdr.ctrl && x.conds.contains .event).map fun x =>
      (ctrlPort x.hdr.ctrl, x.hdr.cid),
    namespaces := (s.namespaces.filter fun x => x.attachedTis.contains t.ti).map Namespace.blob,
    allowance := t.allowance.floor.toNat,
    keys := (t.keySlots.filter fun n => !((s.keySlot n).state == .empty)).map fun n =>
      (n - t.keyBase, (s.keySlot n).use, Config.wrap k (s.keySlot n).key) }

/-- SAVE: a new migration key goes to the peer in the session, and the blob is returned (R90, R91, R186, R419). While the DRBG has failed it
fails with Internal Error; the reason in DW0 is then 6, the code of ENTROPY among the Key Management reasons, since Tenant Management has
none for it (log entry 22). -/
def execSave (h : Hdr) (no : BitVec 8) (session : Nat) (s : State) : Host.Outcome State Fault Refusal :=
  let ti := no.toNat
  .next (s.tmAct h ti (fun st => match st with
      | .frozen => none
      | _ => some tmBadState) fun s =>
    match s.tenant ti, s.mig session with
    | none, _ => s.failTm h tmBadState
    | some _, none => if s.nvm.faultPairs.any fun p => p.1 == ti then s.failTm h tmFault else s.failTm h tmNoSession
    | some t, some g =>
      if s.nvm.faultPairs.any fun p => p.1 == ti then s.failTm h tmFault
      else if !g.established then s.failTm h tmNoSession
      else if !s.entropyOk then s.finish h (ansReason stInternal 6)
      else
        let r := s.random
        let iv := r.2.random
        let len := iv.2.free
        let s := len.2
        let b := s.blobOf t g r.1 (iv.1.setWidth 96) len.1
        let s := s.putMig { g with outbox := g.outbox ++ [.migrationKey r.1] }
        let s := (s.loadInternal (4121 + session) 3 r.1).emptySlot (4121 + session)
        let s := s.modTenant ti fun t => { t with saved := true }
        (s.dataOut h 65536).finish h (ansData (.blob b)))

/-! ### RESTORE (R92) -/

/-- NAMESPACE_MAP: every namespace that the map names exists, is unattached and matches its descriptor in the blob in size and format, which is
its kind, since each kind has one format (R48, R92). -/
def State.mapFits (s : State) (b : Blob) (m : List (Nat × Nat)) : Bool :=
  m.all fun p =>
    match b.namespaces.find? fun d => d.nsid == p.1, s.ns p.2 with
    | some d, some x => x.attachedTis.isEmpty && x.attachedPfs.isEmpty && x.size == d.size && kindCode x.kind == d.kind
    | _, _ => false

/-- May the namespaces of a map lie where they lie: a Sealed tenant's wholly in its LUN sets, none in another tenant's (R81)? -/
def State.mapLies (s : State) (t : Tenant) (m : List (Nat × Nat)) : Bool :=
  (m.filterMap fun p => s.ns p.2).all fun x =>
    if t.isSealed then
      !x.kind.stored || (x.desc.sealedTi == t.ti && x.parts.all fun q => t.lunSlices.contains q.slice)
    else decide (0x100 ≤ x.desc.sealedTi) || x.desc.sealedTi == t.ti

/-- The keys of a blob unwrapped under its migration key, as (place, USE, key); none where one fails (R91). -/
def openKeys (b : Blob) (k : Key) : Option (List (Nat × Nat × Key)) :=
  b.keys.mapM fun q => (Config.unwrap k q.2.2).map fun v => (q.1, q.2.1, v)

/-- The first reason for which RESTORE fails after the state rules (R92, R419). A namespace that would not lie in the Sealed tenant's LUN sets fails
with NAMESPACE_MAP (log entry 24). -/
def State.restoreFails (s : State) (session : Nat) (b : Blob) (d : TenantDesc) (m : List (Nat × Nat)) (t : Tenant) :
    Option Nat :=
  match s.mig session with
  | none => some tmNoSession
  | some g =>
    match g.key with
    | none => some tmNoSession
    | some k =>
      if !g.established then some tmNoSession
      else if !(b.magicOk && b.version == 1 && b.intact && b.sealKey == k && (openKeys b k).isSome) then some tmAuth
      else if b.dstId ≠ s.nvm.packageId ∨ b.family ≠ familyCode ∨ (s.rd Adr.hubFwLevel).toNat < b.fwLevel then some tmTarget
      else if !s.mapFits b m || !s.mapLies t m then some tmMap
      else
        let ns := ((m.filterMap fun p => s.ns p.2).flatMap fun x => x.parts.map NsPart.slice).eraseDups
        s.divisionFails d allFields none t ns

/-- The queues of a blob put into a controller. -/
def Ctrl.withQueues (k : Ctrl) (qs : List BlobQueue) : Ctrl :=
  { k with
    en := !qs.isEmpty,
    sqs := (qs.filter fun q => !q.isCq).map fun (q : BlobQueue) =>
      { qid := q.qid, size := q.size, base := q.base, cqid := q.cqid, prio := q.prio, head := q.head, tail := q.tail, recorded := q.recorded },
    cqs := (qs.filter fun q => q.isCq).map fun (q : BlobQueue) =>
      { qid := q.qid, size := q.size, base := q.base, vector := q.vector, head := q.head, tail := q.tail, phase := q.phase, entries := [] } }

/-- A restored tenant's controllers: queues, features, held event requests (R91, R92). -/
def State.restoreCtrls (s : State) (ti : Nat) (b : Blob) : State :=
  (s.ctrlsOf ti).foldl (fun s c =>
    let p := ctrlPort c
    let s := s.modCtrl c fun k =>
      { k.withQueues (b.queues.filter fun q => q.port == p) with
        features := (b.features.filter fun f => f.1 == p).map fun f => (f.2.1, f.2.2),
        wce := !((b.features.any fun f => f.1 == p && f.2.1 == 6 && f.2.2 % 2 == 0)) }
    let held : List InFlight := (b.aers.filter fun a => a.1 == p).map fun a =>
      { hdr := { ctrl := c, sq := 0, cid := a.2 }, cqid := 0, phase := .held, fetchedAt := s.order,
        entry := { nsid := 0, spans := [], key := none, bufs := [] }, conds := [.event], answer := ansSt stOk, wrote := [], undo := [],
        failLba := none, isAbort := false }
    { s with inflight := s.inflight ++ held }) s

/-- RESTORE rebuilds a tenant as FROZEN (R92): queues, keys unwrapped into the destination's slots, weights, namespaces attached as R249 asks,
allowance (R83); GENERATION + 1. Keys whose place lies beyond the destination's KEY_COUNT find no slot and are dropped (log entry 25). -/
def State.rebuildTenant (s : State) (b : Blob) (keys : List (Nat × Nat × Key)) (m : List (Nat × Nat)) (t : Tenant) : State :=
  let t := { t with state := .frozen, allowance := (min b.allowance t.wearBurst : Nat) }
  let s := { s with tenants := recPut Tenant.ti s.tenants t }
  let s := (keys.filter fun q => decide (q.1 < t.keyCount)).foldl (fun s q => s.loadKey (t.keyBase + q.1) q.2.1 q.2.2) s
  let w (k : Nat) : Word := (b.weights[k]?).getD 0
  let s := ((s.wr (Adr.ckWeightActive t.ti) (w 0)).wr (Adr.ckWeight1Active t.ti) (w 1)).wr (Adr.ckWeightShadow t.ti) (w 0)
  let s := s.wr (Adr.ckWeight1Shadow t.ti) (w 1)
  let s := (m.filterMap fun p => s.ns p.2).foldl (fun s x => s.attachTo x (cntlid 0 (t.ti + 1))) s
  ((s.restoreCtrls t.ti b).evalReady.nextGen t.ti).evalWear

/-- RESTORE (R90, R92): whatever the result, the session ends and its key is zeroized. -/
def execRestore (h : Hdr) (no : BitVec 8) (session : Nat) (blob : Blob) (desc : TenantDesc) (nsmap : List (Nat × Nat)) (s : State) :
    Host.Outcome State Fault Refusal :=
  let ti := no.toNat
  .next (s.serial h fun s =>
    let t := tenantOf ti blob.sealedMode desc
    let bad := if s.flrOf ti then some tmFlr
      else if s.tiState ti ≠ .absent then some tmBadState
      else s.restoreFails session blob desc nsmap t
    let keys := (((s.mig session).bind MigSession.key).bind (openKeys blob)).getD []
    let e := if (s.mig session).isSome then s.endMig session else s
    match bad with
    | some k => e.failTm h k
    | none => ((e.rebuildTenant blob keys nsmap t).setBit Adr.fnEvt 0).finish h (ansSt stOk))

end Sys2Proof.Machine
end

