-- ==== Sys2Proof/Machine/Host.lean ====
section
/-!
DEFINITION. Meanings of the host-port commands that no command set owns: links, doorbells, fetch and completion, controller
enable, shutdown and resets, MSI-X, firmware slots (R40 to R47, R65 to R69, R85, R88, R308, R352, R388, R407).
-/

namespace Sys2Proof.Machine

/-! ### Links (R40, R359, R407) -/

/-- A link of a port set. -/
def State.setLink (s : State) (port : Nat) (l : Link) : State := { s with links := modAt s.links port fun _ => l }

/-- Widths that a port trains (R40). -/
def State.maxWidth (s : State) : Nat := if s.dual then 8 else 16

/-- The first link-up of a start attempt: how long it took no command carries, so it is free (R357; log entry 4). -/
def State.firstLink (s : State) : State :=
  if s.nvm.attempt.any (fun e => e.tLinkUs == 0) then
    let f := s.free
    (f.2.wr Adr.stTLinkUs (BitVec.ofNat 32 f.1)).modNvm fun v => { v with
      attempt := v.attempt.map fun e => { e with tLinkUs := f.1 % 2 ^ 32 } }
  else s

/-- A link trains to what both partners support: Gen1 x1 on port 0 in minimal mode; port 1 only in dual mode (R40, R348, R359). The host then
programs Max_Payload_Size and Max_Read_Request_Size (R41; log entry 18). -/
def execLinkTraining (port gen : Nat) (link : LinkSize) (s : State) : Host.Outcome State Fault Refusal :=
  if s.held || s.stage == 0 && !s.minimal || decide (2 ≤ port) || (port == 1 && !s.dual) || (s.minimal && port != 0) then .next s
  else
    let old := (s.links[port]?).getD State.linkDown
    let l : Link :=
      { old with
        up := true, gen := if s.minimal then 1 else min 6 gen, width := if s.minimal then 1 else min s.maxWidth link.width,
        mps := max 128 (min 512 link.mps), mrrs := max 128 (min 4096 link.mrrs) }
    let s : State := { s with pins :=
      if port = 0 then { s.pins with perst0 := false } else { s.pins with perst1 := false } }
    .next ((s.setLink port l).firstLink)

/-! ### Controller resets (R65, R68, R360) -/

/-- Has a committed image been waiting for a reset of the manager's controller (R68, R352)? -/
def State.imageWaits (s : State) : Bool :=
  !s.minimal && decide (6 ≤ s.stage) && s.nvm.slots.next.isSome && !s.nvm.slots.tried

/-- An activation begins: no controller is ready until it ends, and the whole buffer drains (R68). -/
def State.beginSwitch (s : State) : State :=
  let s := s.modStart fun t => { t with switching := true }
  let s := s.sliceList.foldl State.drain s
  { s with ctrls := s.ctrls.map fun k => { k with rdy := false } }

/-- A controller reset (R65); of the manager's controller it also drops what of an image was downloaded and not committed (log entry 8). Of
physical function 0 on port 0 it starts an activation (R68), or is a package reset after a commit in minimal mode (R360). -/
def State.resetFn (s : State) (c : Nat) : State :=
  if c = 1 ∧ s.minimal ∧ s.start.minimalCommit then s.restart 1
  else
    let s := s.resetCtrl c
    let s := if c = 1 then s.modNvm fun v => { v with download := none } else s
    if c = 1 ∧ s.imageWaits then s.beginSwitch else s

/-- Every controller of some set reset, the manager's last. -/
def State.ctrlResets (s : State) (p : Nat → Bool) : State :=
  let cs := (((s.ctrls.map Ctrl.id) ++ (s.inflight.map fun x => x.hdr.ctrl)).eraseDups).filter fun c => p c && c != 1
  let s := cs.foldl State.resetCtrl s
  if p 1 then s.resetFn 1 else s

/-- PERST: the port's link goes down, and every controller on the port is reset; ignored during a Dump (R407). -/
def execPerstAssert (port : Nat) (s : State) : Host.Outcome State Fault Refusal :=
  if s.held || s.dumping || decide (2 ≤ port) || (port == 1 && !s.dual) then .next s
  else
    let s := s.setLink port State.linkDown
    let s : State := { s with pins :=
      if port = 0 then { s.pins with perst0 := true } else { s.pins with perst1 := true } }
    .next (s.ctrlResets fun c => ctrlPort c == port)

/-- CC.EN from 1 to 0 (R65); ignored while a Function Level Reset is in progress (R88). -/
def execControllerDisable (ctrl : Nat) (s : State) : Host.Outcome State Fault Refusal :=
  .next (if (s.ctrl ctrl).en && !s.flrOn ctrl then s.resetFn ctrl else s)

/-- A value that the host programs, where the spec allows it; outside that range what it selects is free (log entry 4). -/
def State.within (s : State) (lo hi n : Nat) : Nat × State :=
  if lo ≤ n ∧ n ≤ hi then (n, s) else (lo + s.free.1 % (hi + 1 - lo), s.free.2)

/-- The admin queues of a controller, of up to 4,096 entries (R45). -/
def Ctrl.withAdmin (k : Ctrl) (asqSize asq acqSize acq : Nat) : Ctrl :=
  { k with
    sqs := [{ qid := 0, size := asqSize, base := asq, cqid := 0, prio := 0, head := 0, tail := 0, recorded := none }],
    cqs := [{ qid := 0, size := acqSize, base := acq, vector := 0, head := 0, tail := 0, phase := true, entries := [] }] }

/-- CC.EN set, with the arbitration, page size and command sets that CAP allows (R44) and the admin queues that AQA, ASQ and ACQ describe
(R45): CSTS.RDY once the package is READY and the instance serves (R74, R348). -/
def execControllerEnable (cc : CtrlConfig) (s : State) : Host.Outcome State Fault Refusal :=
  let ctrl := cc.ctrl
  if s.held || !s.ctrlExists ctrl || (s.ctrl ctrl).en || s.flrOn ctrl then .next s
  else
    let cap := capOf ctrl
    let ams := s.within 0 cap.ams cc.ams
    let mps := ams.2.within cap.mpsmin cap.mpsmax cc.mps
    let sq := mps.2.within 2 4096 cc.asqSize
    let cq := sq.2.within 2 4096 cc.acqSize
    .next ((cq.2.modCtrl ctrl fun k =>
      { k.withAdmin sq.1 cc.asq cq.1 cc.acq with en := true, shn := 0, shst := 0, ams := ams.1, mps := mps.1, css := cc.css }).evalReady)

/-- NVM Subsystem Reset: every controller is reset (R44, R65, R68). -/
def execNvmSubsystemReset (s : State) : Host.Outcome State Fault Refusal :=
  .next (if s.held || s.dumping then s else s.ctrlResets fun _ => true)

/-! ### Function Level Reset (R88, R89, R315) -/

/-- Step 5 of a Function Level Reset: queues gone, translations invalidated, registers at their reset values (R88). -/
def State.flrClear (s : State) (c : Nat) : State :=
  let s := (s.resetCtrl c).modCtrl c fun k => { k with msix := [] }
  { s with ats := s.ats.filter fun p => p.1 != c }

/-- A Function Level Reset begins: the flag, GENERATION, and SAVED cleared when FROZEN (R88, R89). A physical function has no forced
quiesce: it is reset at once (R65). -/
def execFunctionLevelReset (ctrl : Nat) (s : State) : Host.Outcome State Fault Refusal :=
  if s.held || !s.ctrlExists ctrl then .next s
  else if isPf ctrl then .next ((s.resetFn ctrl).flrClear ctrl)
  else
    let ti := ctrlFn ctrl - 1
    let s := (s.nextGen ti).modCtrl ctrl fun k => { k with flr := some (k.flr.getD s.now) }
    .next (s.modTenant ti fun t => if t.state = .frozen then { t with saved := false } else t)

/-- Versions that only a controller's unacknowledged writes made leave the buffer: the units keep their old data (R58, R88). -/
def State.dropUnacked (s : State) (c : Nat) : State :=
  let mine := (s.inflight.filter fun x => x.hdr.ctrl == c).flatMap InFlight.wrote
  let others := (s.inflight.filter fun x => x.hdr.ctrl != c).flatMap InFlight.wrote
  mine.foldl (fun s w =>
    match (s.slice w.1).version w.2.1 with
    | none => s
    | some v =>
      if v.acked.isEmpty && v.isOpen && !(others.any fun o => o.1 == w.1 && o.2.1 == w.2.1) then
        s.modSlice w.1 fun x =>
          match (x.versions.filter fun o => o.index == v.index && !o.dead && decide (o.wslot < v.wslot)).getLast? with
          | some o => x.dropVersion w.2.1 (.buffer o.wslot)
          | none => x.dropVersion w.2.1 v.under
      else s) s

/-- A Function Level Reset ends (R88, R315). -/
def execFlrComplete (ctrl : Nat) (s : State) : Host.Outcome State Fault Refusal :=
  if !s.flrOn ctrl then .next s
  else
    let ti := ctrlFn ctrl - 1
    let s := s.dropUnacked ctrl
    let s := ((s.digests.filter fun q => q.2.owner == ti).map (·.1)).foldl (fun s no => s.endDigest no 8) s
    .next (((s.flrClear ctrl).modCtrl ctrl fun k => { k with flr := none }).setBit Adr.fnEvt 2)

/-- An ATS invalidation of a function's translation of an address (R41). -/
def execAtsInvalidate (fn addr : Nat) (s : State) : Host.Outcome State Fault Refusal :=
  .next { s with ats := s.ats.filter fun p => !(p.1 == fn && p.2 == addr) }

/-! ### Shutdown (R66) -/

/-- Is a version one that a shutdown of a controller waits for: acknowledged, and for a virtual function written by its tenant? -/
def shutScope (c : Nat) (v : Version) : Bool := !v.acked.isEmpty && (isPf c || v.writer == ctrlOwner c)

/-- CC.SHN: every completed write in scope is programmed from now on (R66). -/
def execShutdown (ctrl : Nat) (abrupt : Bool) (s : State) : Host.Outcome State Fault Refusal :=
  if s.held || !(s.ctrl ctrl).en || s.flrOn ctrl then .next s
  else
    let s := s.modCtrl ctrl fun k => { k with shn := if abrupt then 2 else 1, shst := 1 }
    let f (v : Version) : Version := if shutScope ctrl v then { v with trigger := true } else v
    .next (s.mapSlices fun x => { x with versions := x.versions.map f })

/-- CSTS.SHST = 0b10 once nothing in scope is left in a buffer (R66). -/
def execShutdownComplete (ctrl : Nat) (s : State) : Host.Outcome State Fault Refusal :=
  if (s.ctrl ctrl).shst = 1 ∧ !(s.slices.any fun x => x.versions.any (shutScope ctrl)) then
    .next (s.modCtrl ctrl fun k => { k with shst := 2 })
  else .next s

/-! ### Doorbells (R85, R387) -/

/-- A submission queue of a controller changed. -/
def Ctrl.modSq (k : Ctrl) (qid : Nat) (f : SubQ → SubQ) : Ctrl := { k with sqs := recMod SubQ.qid k.sqs qid f }

/-- A completion queue of a controller changed. -/
def Ctrl.modCq (k : Ctrl) (qid : Nat) (f : ComQ → ComQ) : Ctrl := { k with cqs := recMod ComQ.qid k.cqs qid f }

/-- Does the tenant of a controller fetch no more: QUIESCING, QUIESCED or FROZEN (R85)? -/
def State.fetchStopped (s : State) (c : Nat) : Bool :=
  !isPf c && (match s.tiState (ctrlFn c - 1) with
    | .quiescing => true
    | .quiesced => true
    | .frozen => true
    | _ => false)

/-- SQ y tail doorbell: recorded while fetch is stopped (R85). A value outside the queue changes nothing. -/
def execSqTailDoorbell (ctrl qid tail : Nat) (s : State) : Host.Outcome State Fault Refusal :=
  if s.held || !(s.ctrl ctrl).en || s.flrOn ctrl then .next s
  else .next (s.modCtrl ctrl fun k => k.modSq qid fun q =>
    if q.size ≤ tail then q
    else if s.fetchStopped ctrl then { q with recorded := some tail } else { q with tail := tail })

/-- Entries that a head doorbell releases. -/
def ComQ.freed (q : ComQ) (head : Nat) : Nat := (head + q.size - q.head) % q.size

/-- CQ y head doorbell: the entries up to it are released. A value past what was posted changes nothing. -/
def execCqHeadDoorbell (ctrl qid head : Nat) (s : State) : Host.Outcome State Fault Refusal :=
  if s.held || !(s.ctrl ctrl).en || s.flrOn ctrl then .next s
  else .next (s.modCtrl ctrl fun k => k.modCq qid fun q =>
    if q.size ≤ head ∨ q.entries.length < q.freed head then q
    else { q with head := head, entries := q.entries.drop (q.freed head) })

/-! ### Fetch (R46, R47, R62, R69) -/

/-- Commands of a controller in command slots (R47). -/
def State.slotsUsed (s : State) (c : Nat) : Nat := (s.inflight.filter fun x => x.hdr.ctrl == c).length

/-- The pool of command slots beyond the reserves of 128 of every controller (R47). -/
def State.slotPool (s : State) : Nat :=
  131072 - 128 * (if s.minimal then 1 else if s.dual then 514 else 257)

/-- Pool slots that a pool user holds: an instance, or both physical functions. -/
def State.poolUsed (s : State) (owner : Nat) : Nat := ((s.ctrlsOf owner).map fun c => s.slotsUsed c - 128).sum

/-- A pool user's part of the slot pool: in proportion to the weights of the Shared instances and the physical functions; equal
where all are 0 (R47). -/
def State.slotShare (s : State) (owner : Nat) : Nat :=
  let users := ownerPf :: (s.tenants.filter fun t => !t.isSealed).map Tenant.ti
  let total := (users.map s.hostWeight).sum
  if total = 0 then s.slotPool / users.length else s.slotPool * s.hostWeight owner / total

/-- Has the controller a free command slot (R47)? -/
def State.slotFree (s : State) (c : Nat) : Bool :=
  let o := ctrlOwner c
  decide (s.slotsUsed c < 128) ||
    (!(decide (o < 0x100) && s.isSealed o) && decide (s.poolUsed o < s.slotShare o))

/-- May the hub fetch from the controller: ready, its link up, its tenant ONLINE, no boundary passed in a reset of it (R88), in a SLOT of a
Sealed instance (R46), the package neither dumping nor in a non-operational state? -/
def State.mayFetch (s : State) (c : Nat) : Bool :=
  let k := s.ctrl c
  !s.held && k.en && k.rdy && s.linkUp (ctrlPort c) && !s.flrPast c && !s.power.stopped && decide (s.fld Adr.pwSts 26 24 ≤ 2) &&
    (isPf c || s.tiState (ctrlFn c - 1) == .online) && s.hdOpen c kFetch

/-! ### Arbitration among submission queues (R46), in the terms of NVM Express (log entry 8) -/

/-- Has the queue an entry to fetch? -/
def SubQ.ready (q : SubQ) : Bool := q.head != q.tail

/-- Arbitration Burst of feature 0x01: 2^AB commands, at most 64. -/
def Ctrl.burst (k : Ctrl) : Nat := 2 ^ min 6 ((mapGet k.features 1).getD 0 % 8)

/-- The weight of a priority class: HPW, MPW and LPW of feature 0x01, counted from 0. -/
def Ctrl.weight (k : Ctrl) (prio : Nat) : Nat := (mapGet k.features 1).getD 0 / 2 ^ (32 - 8 * prio) % 256 + 1

/-- The round robin among some queues: the rest of the burst of the queue served last, else the next queue in ascending order. -/
def Arb.turn (a : Arb) (burst : Nat) (qs : List Nat) : Option (Nat × Arb) :=
  if 0 < a.left ∧ a.last ∈ qs then some (a.last, { a with left := a.left - 1 })
  else ((qs.filter (a.last < ·)).min?.orElse fun _ => qs.min?).map fun q => (q, { a with last := q, left := burst - 1 })

/-- Credits left of a weighted class: high, medium and low are priorities 1 to 3. -/
def Arb.credit (a : Arb) (prio : Nat) : Nat := if prio = 1 then a.high else if prio = 2 then a.medium else a.low

/-- A credit of a weighted class used. -/
def Arb.spend (a : Arb) (prio : Nat) : Arb :=
  if prio = 1 then { a with high := a.high - 1 } else if prio = 2 then { a with medium := a.medium - 1 } else { a with low := a.low - 1 }

/-- The queue that the controller serves next: round robin among all, or the admin queue, then the urgent ones, then the weighted classes with
credit left in the round (R46). -/
def Ctrl.pick (k : Ctrl) : Option (Nat × Arb) :=
  let ready (p : SubQ → Bool) : List Nat := (k.sqs.filter fun q => q.ready && p q).map SubQ.qid
  let cls (prio : Nat) : List Nat := ready fun q => q.qid != 0 && q.prio == prio
  if k.ams = 0 then k.arb.turn k.burst (ready fun _ => true)
  else if (ready fun q => q.qid == 0) ≠ [] then some (0, k.arb)
  else if cls 0 ≠ [] then k.arb.turn k.burst (cls 0)
  else
    let some1 (a : Arb) : Option Nat := [1, 2, 3].find? fun p => cls p != [] && decide (0 < a.credit p)
    let a : Arb := if (some1 k.arb).isSome then k.arb
      else { k.arb with high := k.weight 1, medium := k.weight 2, low := k.weight 3 }
    (some1 a).bind fun p => (a.spend p).turn k.burst (cls p)

/-- The record of a fetched command. -/
def fetchedNow (h : Hdr) (cqid order : Nat) (entry : SqEntry) : InFlight :=
  { hdr := h, cqid := cqid, phase := .fetched, fetchedAt := order, entry := entry, conds := [], answer := ansSt stOk, wrote := [], undo := [],
    failLba := none, isAbort := false }

/-- The attached namespaces that an I/O command names: all of them with NSID 0xFFFF_FFFF. -/
def State.namedBy (s : State) (c nsid : Nat) : List Nat :=
  (s.namespaces.filter fun x => x.attached c && (nsid == 0xFFFFFFFF || x.nsid == nsid)).map Namespace.nsid

/-- The first I/O command fetched while a fault is pending for its pair completes unexecuted, and the faults of every pair it covers are
no longer pending (R62). -/
def State.meetFault (s : State) (h : Hdr) (nsid : Nat) : State :=
  let owner := ctrlOwner h.ctrl
  let all := s.namedBy h.ctrl nsid
  match if h.sq = 0 then [] else all.filter fun n => s.nvm.faultPairs.contains (owner, n) with
  | [] => s
  | n :: _ => (all.foldl (fun s k => s.clearPending owner k) s).finish h { ansSt stDeferred with nsid := n }

/-- COMMAND_FETCH: the next entry of the queue that arbitration serves is fetched into a free slot; it waits while there is none (R46, R47). -/
def execCommandFetch (fetch : FetchCmd) (s : State) : Host.Outcome State Fault Refusal :=
  let h := fetch.h
  match (s.ctrl h.ctrl).pick, recGet SubQ.qid (s.ctrl h.ctrl).sqs h.sq with
  | some (qid, arb), some q =>
    if qid != h.sq || !s.mayFetch h.ctrl || (s.inFlight h).isSome || !s.slotFree h.ctrl then .next s
    else
      let s := s.modCtrl h.ctrl fun k => { k.modSq h.sq (fun q => { q with head := (q.head + 1) % q.size }) with arb := arb }
      let s : State := { s with order := s.order + 1, inflight := s.inflight ++ [fetchedNow h q.cqid (s.order + 1) fetch.entry] }
      .next ((s.hdStart h kFetch false [(q.base + 64 * q.head, 64)]).meetFault h fetch.entry.nsid)
  | _, _ => .next s

/-! ### Completion (R56, R61, R388, R422) -/

/-- The blocks of a completed write are acknowledged (R56, R128). -/
def State.acknowledge (s : State) (w : Nat × Nat × List Nat) : State :=
  let o := s.order
  s.modSlice w.1 fun x => x.modVersion w.2.1 fun v =>
    { v with acked := (v.acked ++ w.2.2).eraseDups, ackAt := some (v.ackAt.getD o) }

/-- An entry posted to a completion queue: the phase tag turns at its end. -/
def ComQ.post (q : ComQ) (h : Hdr) (a : Answer) : ComQ :=
  let turned := if q.tail + 1 = q.size then !q.phase else q.phase
  { q with tail := (q.tail + 1) % q.size, phase := turned,
           entries := q.entries ++ [(h, a)] }

/-- A vector of a controller's MSI-X table; masked as after reset where nothing was written. -/
def Ctrl.vector (k : Ctrl) (v : Nat) : Msix :=
  let blank : Msix := { vector := v, masked := true, addr := 0, data := 0, pending := false }
  (recGet Msix.vector k.msix v).getD blank

/-- An interrupt of a vector: sent, or pending while it is masked. -/
def Ctrl.interrupt (k : Ctrl) (v : Nat) : Ctrl :=
  let m := k.vector v
  if m.masked then { k with msix := recPut Msix.vector k.msix { m with pending := true } } else k

/-- A failed completion enters the Error Information log; an Unrecovered Read Error counts as a media error (R139, R422). -/
def Ctrl.noteError (k : Ctrl) (h : Hdr) (a : Answer) : Ctrl :=
  if a.status.good then k
  else
    let k := if a.status = stUnrecovered then { k with mediaErrors := k.mediaErrors + 1 } else k
    k.logError h.sq h.cid a.status a.nsid a.lba a.info

/-- The buffered versions of a command's writes in slices that run under the Through override: all writes that such a slice holds complete
under Through rules (R56). -/
def State.overridden (s : State) (x : InFlight) : List (Nat × Nat) :=
  (x.wrote.filter fun w => s.throughOverride w.1 && ((s.slice w.1).version w.2.1).isSome).map fun w => (w.1, w.2.1)

/-- A command's completion waits for some versions, which are streamed at once (R56, R108). -/
def State.waitThrough (s : State) (h : Hdr) (l : List (Nat × Nat)) : State :=
  l.foldl (fun s w => s.modSlice w.1 fun y => y.modVersion w.2 fun v => { v with through := true })
    (s.modIn h fun x => { x with conds := l.map fun w => Cond.programmed w.1 w.2 })

/-- The host writes of a completion: its entry of 16 bytes, and the message of an unmasked vector (R267). -/
def Ctrl.postBufs (k : Ctrl) (q : ComQ) : List (Nat × Nat) :=
  let m := k.vector q.vector
  (q.base + 16 * q.tail, 16) :: if m.masked then [] else [(m.addr, 4)]

/-- COMPLETION_POST: a command whose conditions are met and whose data has moved leaves its slot, and its entry is posted (R46, R56); not while a
Function Level Reset of the controller is in progress (R65, R88). -/
def execCompletionPost (h : Hdr) (s : State) : Host.Outcome State Fault Refusal :=
  match s.inFlight h with
  | none => .next s
  | some x =>
    match x.phase, x.conds, recGet ComQ.qid (s.ctrl h.ctrl).cqs x.cqid with
    | .dispatched, [], some q =>
      if s.held || q.size ≤ q.entries.length + 1 || s.flrOn h.ctrl || s.moving h || !s.hdOpen h.ctrl kComplete then .next s
      else if x.answer.status.good && s.overridden x != [] then .next (s.waitThrough h (s.overridden x))
      else
        let bufs := (s.ctrl h.ctrl).postBufs q
        let s := (s.translate h.ctrl bufs).hdPlace
          (transferOf kComplete true (ctrlOwner h.ctrl) none (s.requests (ctrlPort h.ctrl) true bufs))
        let s : State := { s with order := s.order + 1, inflight := s.inflight.filter fun y => y.hdr != h }
        let s := if x.answer.status.good then x.wrote.foldl State.acknowledge s else s
        .next (s.modCtrl h.ctrl fun k =>
          ((k.modCq x.cqid fun q => q.post h x.answer).interrupt q.vector).noteError h x.answer)
    | _, _, _ => .next s

/-- A write to an entry of a controller's MSI-X table; on a virtual function one that would unmask a vector beyond its count is
ignored (R388). -/
def execMsiXTableWrite (ctrl vector : Nat) (masked : Bool) (addr data : Nat) (s : State) : Host.Outcome State Fault Refusal :=
  let count := if isPf ctrl then 1025 else min 257 (((s.tenant (ctrlFn ctrl - 1)).map Tenant.vi).getD 0)
  let size := if isPf ctrl then 1025 else 257
  if s.held || s.flrOn ctrl || !s.ctrlExists ctrl || decide (size ≤ vector) || (!masked && decide (count ≤ vector)) then .next s
  else
    let m : Msix := { vector := vector, masked := masked, addr := addr, data := data,
                      pending := ((s.ctrl ctrl).vector vector).pending && masked }
    .next (s.modCtrl ctrl fun k => { k with msix := recPut Msix.vector k.msix m })

/-- A command whose opcode the controller does not support (R70), or a Tenant Management command of physical function 0 on port 0 with a
reserved ACTION (R76). -/
def execUnsupportedOpcode (h : Hdr) (op : OpAction) (s : State) : Host.Outcome State Fault Refusal :=
  .next (s.run h fun s =>
    s.finish h (ansSt (if isManager h.ctrl && !s.minimal && h.sq == 0 && reservedAction op.opcode op.action then stField else stOpcode)))

/-! ### Firmware (R67, R68, R308, R352, R360) -/

/-- A command that only physical function 0 of port 0 accepts, in minimal mode too (R49, R359). -/
def State.firmwareCmd (s : State) (h : Hdr) (f : State → State) : State :=
  s.run h fun s => if isManager h.ctrl then f s else s.finish h (ansSt stOpcode)

/-- Invalid Firmware Slot. -/
def stFwSlot : Status := mkSt 1 0x06 true
/-- Overlapping Range. -/
def stOverlap : Status := mkSt 1 0x14 true

/-- Does a piece overlap one that has arrived? -/
def Download.overlaps (d : Download) (offset length : Nat) : Bool :=
  d.pieces.any fun p => decide (p.1 < offset + length) && decide (offset < p.1 + p.2)

/-- Has the whole image arrived, every byte once? -/
def Download.whole (d : Download) : Bool :=
  !d.mixed && d.pieces.all (fun p => decide (p.1 + p.2 ≤ d.image.imageLen)) && (d.pieces.map Prod.snd).sum == d.image.imageLen

/-- Firmware Image Download: a piece of an image to the boot flash (R67, R70). -/
def execFirmwareImageDownload (h : Hdr) (piece : ImagePiece) (s : State) : Host.Outcome State Fault Refusal :=
  .next (s.firmwareCmd h fun s =>
    let d := s.nvm.download.getD { image := piece.image, pieces := [], mixed := false }
    if d.overlaps piece.offset piece.length then s.finish h (ansSt stOverlap)
    else
      let d : Download := { d with pieces := d.pieces ++ [(piece.offset, piece.length)], mixed := d.mixed || decide (d.image ≠ piece.image) }
      ((s.modNvm fun v => { v with download := some d }).dataIn h piece.length).finish h (ansSt stOk))

/-- Is an image valid as a whole (R304, R305)? -/
def State.imageOk (s : State) (im : SeedImage) : Bool := (s.headerFails im).isNone && im.sectionsOk

/-- The slot record after a commit (R352, R360). -/
def State.commitSlot (s : State) (ca k : Nat) : State :=
  let r := s.nvm.slots
  if ca = 0 ∧ k ≠ r.active then s
  else
    let s := s.putSlots { r with next := some k, tried := false }
    if s.minimal ∧ ca ≠ 0 then
      (s.modNvm fun v => { v with failCnt := 0 }).modStart fun t => { t with minimalCommit := true }
    else s

/-- Firmware Commit (R67, R308, R352, R360). FS 0 leaves the slot to the device, which takes the one that is not ACTIVE. -/
def execFirmwareCommit (h : Hdr) (ca fs : Nat) (s : State) : Host.Outcome State Fault Refusal :=
  .next (s.firmwareCmd h fun s =>
    if 2 < ca then s.finish h (ansSt stField)
    else if 2 < fs then s.finish h (ansSt stFwSlot)
    else
      let k := if fs = 0 then 1 - s.nvm.slots.active else fs - 1
      let im := if ca = 2 then s.slotImage k else (s.nvm.download.filter Download.whole).map Download.image
      match im with
      | none => s.finish h (ansSt stImage)
      | some im =>
        if !s.imageOk im then s.finish h (ansSt stImage)
        else
          let s := if ca = 2 then s
            else s.modNvm fun v => { v with flash := modAt v.flash k fun _ => some im, download := none }
          (s.commitSlot ca k).finish h (ansSt stOk))

/-- An activation ends without a switch, or with it: controllers may be ready again. -/
def State.endSwitch (s : State) : State := (s.modStart fun t => { t with switching := false }).evalReady

/-- The switch (R352): the running attempt ends, the count rises, TRIED is set, the image is measured into MEAS_01 to MEAS_05 and
MEAS_08, and the new firmware runs on the configuration in force (R5, R308). -/
def State.switchTo (s : State) (k : Nat) (im : SeedImage) : State :=
  let old := (s.rd Adr.hubFwLevel).toNat
  let s := s.closeAttempt
  let s := (s.openAttempt s.nvm.failCnt).putSlots { s.nvm.slots with tried := true }
  let s := (s.bootSlot k true).modNvm fun v => { v with
    attempt := v.attempt.map fun e => { e with activation := true } }
  let s := (s.extendImage im 2).extend 8 2 (Config.recordDigest 4 [old, im.fwLevel, k])
  let s := (s.addF Adr.msSts 15 8 1).wr Adr.hubFwLevel (BitVec.ofNat 32 im.fwLevel)
  let s := (s.setStage 6).modStart fun t => { t with activation := true, fwRev := some im.fwRev, readyAt := some s.now }
  (s.setBit Adr.stEvt 1).endSwitch

/-- FIRMWARE_ACTIVATION: a reset of the manager's controller with a committed image; once the buffer is drained the image is
verified, and the firmware switched or the activation refused (R68, R308, R352). -/
def execFirmwareActivation (s : State) : Host.Outcome State Fault Refusal :=
  if s.held || s.dumping then .next s
  else
    let s := if s.start.switching then s else if s.imageWaits then s.resetFn 1 else s
    match s.nvm.slots.next with
    | none => .next s
    | some k =>
      if !s.start.switching || s.anyAcked then .next s
      else
        match s.slotImage k with
        | some im =>
          if s.imageOk im then .next (s.switchTo k im)
          else .next (((s.putSlots { s.nvm.slots with next := none, tried := false }).notice 4 k s.now 0).endSwitch)
        | none => .next (((s.putSlots { s.nvm.slots with next := none, tried := false }).notice 4 k s.now 0).endSwitch)

end Sys2Proof.Machine
end

