-- ==== Sys2Proof/Machine/IoCmd.lean ====
section
/-!
DEFINITION. Meanings of the NVM I/O commands (R48, R54 to R63, R83, R127, R134, R135, R333, R384, R421).
-/

namespace Sys2Proof.Machine

/-! ### What every I/O command meets first (R59, R62) -/

/-- An I/O command to a namespace of a kind: it must be attached to the controller (R70). What a pending fault of its pair does happens at
fetch (R62). -/
def State.ioCmd (s : State) (h : Hdr) (nsid : Nat) (kind : NsKind) (f : Namespace → State → State) : State :=
  s.run h fun s =>
    match s.nsOf h.ctrl nsid with
    | none => s.finish h (ansAt stNamespace nsid 0)
    | some x =>
      if x.kind ≠ kind then s.finish h (ansAt stOpcode nsid 0)
      else f x s

/-- Mapping unit of a namespace in blocks: the largest among its slices (R50). -/
def State.nsMu (s : State) (x : Namespace) : Nat := (x.parts.map fun p => s.mu p.slice).foldl max 4

/-- Do two block ranges of a namespace touch a common mapping unit (R59)? -/
def State.overlap (s : State) (a b : Nat × Nat × Nat) : Bool :=
  let m := ((s.ns a.1).map s.nsMu).getD 1
  a.1 == b.1 && decide (a.2.1 / m * m < b.2.1 + b.2.2) && decide (b.2.1 / m * m < a.2.1 + a.2.2)

/-- Is some earlier command of the same queue, whose entry satisfies p, fetched and not executed (R59)? -/
def State.behindAny (s : State) (h : Hdr) (p : SqEntry → Bool) : Bool :=
  let at_ := ((s.inFlight h).map InFlight.fetchedAt).getD 0
  s.inflight.any fun y => y.hdr.ctrl == h.ctrl && y.hdr.sq == h.sq && decide (y.fetchedAt < at_) && y.waits && p y.entry

/-- Is an earlier command of the same queue that overlaps fetched and not executed (R59)? -/
def State.behind (s : State) (h : Hdr) (spans : List (Nat × Nat × Nat)) : Bool :=
  s.behindAny h fun e => e.spans.any fun a => spans.any (s.overlap a)

/-- A block command over some ranges: within the namespace, and after every earlier overlapping command of its queue (R59, R70). -/
def State.blockCmd (s : State) (h : Hdr) (x : Namespace) (ranges : List (Nat × Nat)) (f : State → State) : State :=
  if ranges.any fun r => decide (x.size < r.1 + r.2) then s.finish h (ansAt stRange x.nsid ((ranges.head?.map Prod.fst).getD 0))
  else
    let spans := ranges.map fun r => (x.nsid, r.1, r.2)
    if s.behind h spans then s.hold h else f s

/-- Read statistics of a controller (R139). -/
def Ctrl.countRead (k : Ctrl) (n : Nat) : Ctrl := { k with readCmds := k.readCmds + 1, blocksRead := k.blocksRead + n }

/-- Write statistics of a controller (R139). -/
def Ctrl.countWrite (k : Ctrl) (n : Nat) : Ctrl := { k with writeCmds := k.writeCmds + 1, blocksWritten := k.blocksWritten + n }

/-! ### Reads (R60, R124) -/

/-- Where a block lies: slice, index and block within its unit (R54, R100). -/
def State.place (s : State) (x : Namespace) (lba : Nat) : Nat × Nat × Nat :=
  let r := x.route lba
  (r.1, r.2.1 + r.2.2 / s.mu r.1, r.2.2 % s.mu r.1)

/-- The LUA of a block within its slice. -/
def State.luaOf (s : State) (x : Namespace) (lba : Nat) : Nat := (x.route lba).2.2 / s.mu (x.route lba).1

/-- The blocks of a range, and the first that fails: lowest address first (R55, R60). -/
def State.readRange (s : State) (x : Namespace) (slba nlb : Nat) : List (Option Block) × Option (Status × Nat) :=
  let rs := (List.range nlb).map fun k => (slba + k, s.readLba x (slba + k))
  (rs.map fun r => match r.2 with
      | .ok b => some b
      | .fail _ => none,
    rs.findSome? fun r => match r.2 with
      | .ok _ => none
      | .fail st => some (st, r.1))

/-- The flash reads of some blocks of a unit for a command: the lookup of its entry, and the stored unit under the blocks that the buffer lacks
(R13, R60, R124, R131). -/
def State.senseBlocks (s : State) (h : Hdr) (n i : Nat) (bs : List Nat) : State :=
  let user := s.ctrlUser h.ctrl
  let s := s.pagedLookup n i h user
  let v := (s.slice n).newest i
  let lacks := bs.filter fun b => ((v.bind fun v => mapGet v.blocks b)).isNone
  match lacks, (s.slice n).unitAt ((v.map Version.under).getD ((s.slice n).entry i)) with
  | _ :: _, some u => s.countRead n u h user
  | _, _ => s

/-- The flash reads of a range of blocks for a command that has its answer (R60, R124). -/
def State.countRange (s : State) (h : Hdr) (x : Namespace) (slba nlb : Nat) : State :=
  let at_ := ((List.range nlb).map fun k => s.place x (slba + k)).filter fun p => s.nsUp x p.1
  ((at_.map fun p => (p.1, p.2.1)).eraseDups).foldl (fun s q =>
    s.senseBlocks h q.1 q.2 ((at_.filter fun p => p.1 == q.1 && p.2.1 == q.2).map fun p => p.2.2)) s

/-- Read (R54, R55, R60). -/
def execRead (h : Hdr) (nsid slba nlb : Nat) (s : State) : Host.Outcome State Fault Refusal :=
  .next (s.ioCmd h nsid .block fun x s =>
    if 256 < nlb then s.finish h (ansAt stField nsid slba)
    else s.blockCmd h x [(slba, nlb)] fun s =>
      let r := s.readRange x slba nlb
      let s := s.modCtrl h.ctrl fun k => k.countRead nlb
      let a : Answer := match r.2 with
        | none => ansSt stOk
        | some e => ansAt e.1 nsid e.2
      ((s.dataOut h (4096 * nlb)).finish h { a with data := .blocks r.1 }).countRange h x slba nlb)

/-- Verify: the checks of a read without a transfer (R48, R63). -/
def execVerify (h : Hdr) (nsid slba nlb : Nat) (s : State) : Host.Outcome State Fault Refusal :=
  .next (s.ioCmd h nsid .block fun x s =>
    s.blockCmd h x [(slba, nlb)] fun s =>
      let r := s.readRange x slba nlb
      let a := match r.2 with
        | none => ansSt stOk
        | some e => ansAt e.1 nsid e.2
      (s.finish h a).countRange h x slba nlb)

/-- The first block of a Compare that cannot be read or differs. -/
def State.firstDiffer (s : State) (x : Namespace) (slba : Nat) (data : List Block) : Option (Status × Nat) :=
  ((List.range data.length).zip data).findSome? fun q =>
    match s.readLba x (slba + q.1) with
    | .fail st => some (st, slba + q.1)
    | .ok b => if b = q.2 then none else some (stCompare, slba + q.1)

/-- Compare (R48, R63, R70). -/
def execCompare (h : Hdr) (nsid slba : Nat) (data : List Block) (s : State) : Host.Outcome State Fault Refusal :=
  .next (s.ioCmd h nsid .block fun x s =>
    if 256 < data.length then s.finish h (ansAt stField nsid slba)
    else s.blockCmd h x [(slba, data.length)] fun s =>
      let e := s.firstDiffer x slba data
      let s := (s.dataIn h (4096 * data.length)).modCtrl h.ctrl fun k => k.countRead data.length
      let a := match e with
        | none => ansSt stOk
        | some e => ansAt e.1 nsid e.2
      (s.finish h a).countRange h x slba data.length)

/-! ### Room and allowance for writes (R78, R80, R83, R127, R333) -/

/-- Does a write to a slice complete under Through rules: also one of a Sealed instance that keeps a single copy (R19, R56, R57, R291)? -/
def State.writesThrough (s : State) (h : Hdr) (x : Namespace) (fua : Bool) (n : Nat) : Bool :=
  fua || x.through || !(s.ctrl h.ctrl).wce || s.throughOverride n || decide ((s.copyChans n (ctrlOwner h.ctrl)).length < 2)

/-- New versions that writing some blocks would make in slice n. -/
def State.newSlots (s : State) (x : Namespace) (n : Nat) (lbas : List Nat) : Nat :=
  let units := (((lbas.map (s.place x)).filter fun p => p.1 == n).map fun p => p.2.1).eraseDups
  (units.filter fun i => !((s.slice n).newest i).any Version.isOpen).length

/-- Bytes of buffered versions that an owner wrote in slice n. -/
def State.wbOf (s : State) (n owner : Nat) : Nat :=
  ((s.slice n).versions.filter fun v => v.writer == owner).length * s.mu n * 4096

/-- Has slice n room for the new versions of a write: within the reserved buffer under Through rules, within USABLE and CEIL_MIB under
Cached rules, and within what the floors of WBQ leave (R78, R80, R127, R333)? -/
def State.roomIn (s : State) (n owner : Nat) (through : Bool) (slots : Nat) : Bool :=
  let more := slots * s.mu n * 4096
  let size := if through then 2 ^ 30 else min (s.wbUsable n) (s.fld Adr.pwHuWb 31 16) * 2 ^ 20
  slots == 0 || s.mayTake n owner size more 0 (fun t => t.wbq * 2 ^ 20) (s.wbOf n) (s.wbUsed n)

/-- Slices that some blocks of a namespace lie in, and that are online. -/
def State.slicesOf (s : State) (x : Namespace) (lbas : List Nat) : List Nat :=
  ((lbas.map fun l => (s.place x l).1).eraseDups).filter (s.nsUp x)

/-- Does the wear allowance of an owner accept a write now: it is not empty, or the replenishment has paid for what was written (R83)? -/
def State.wearOpen (s : State) (owner : Nat) : Bool :=
  (s.tenant owner).all fun t => decide (0 < t.allowance) || (decide (0 ≤ t.allowance) && decide (0 < t.wearRate))

/-- May the write be accepted now: room in every slice, and the allowance (R83, R127)? -/
def State.mayWrite (s : State) (h : Hdr) (x : Namespace) (fua : Bool) (lbas : List Nat) : Bool :=
  let owner := ctrlOwner h.ctrl
  s.wearOpen owner &&
    (s.slicesOf x lbas).all fun n => s.roomIn n owner (s.writesThrough h x fua n) (s.newSlots x n lbas)

/-- Host bytes charged to a tenant at the pool's write amplification; before a pool has one it is free (R83; log entry 4). -/
def State.charge (s : State) (owner n : Nat) (p : Pool) (bytes : Nat) : State :=
  let r : Nat × State := match (s.slice n).waFig.find? fun w => w.1 == p with
    | some w => (w.2, s)
    | none => s.free
  (r.2.modSlice n fun x => x.countWa p bytes 0).modTenant owner fun t =>
    { t with allowance := t.allowance - (bytes * r.1 : Nat) / (1000 * 2 ^ 20 : Nat) }

/-- Charges of the blocks of a write, slice by slice. -/
def State.charges (s : State) (h : Hdr) (x : Namespace) (lbas : List Nat) : State :=
  ((s.slicesOf x lbas).foldl (fun s n =>
    s.charge (ctrlOwner h.ctrl) n x.pool (4096 * ((lbas.filter fun l => (s.place x l).1 == n).length))) s).evalWear

/-! ### Buffering (R56, R58, R106) -/

/-- A block that a command put into a version. -/
def addWrote (l : List (Nat × Nat × List Nat)) (n w b : Nat) : List (Nat × Nat × List Nat) :=
  if l.any fun q => q.1 == n && q.2.1 == w then
    l.map fun q => if q.1 = n ∧ q.2.1 = w then (n, w, q.2.2 ++ [b]) else q
  else l ++ [(n, w, [b])]

/-- One block written: buffered, and out of any deferred-fault range; a block of a slice that is not online is not (R63, R384). -/
def State.writeBlock (s : State) (x : Namespace) (owner lba : Nat) (d : Block) : Option (Nat × Nat × Nat) × State :=
  let p := s.place x lba
  if !s.nsUp x p.1 then (none, s)
  else
    let r := s.bufferBlock p.1 x.nsid (s.luaOf x lba) p.2.1 p.2.2 d owner
    (some (p.1, r.1, p.2.2), r.2.unfault x.nsid lba)

/-- What writing some blocks did: the versions written, what their blocks replaced, the first block that could not be written, the state. -/
structure Written where
  wrote : List (Nat × Nat × List Nat)
  undo : List Undo
  failed : Option Nat
  state : State

/-- What a block of a write replaces, before it is written into a slot (R278). -/
def State.undoOf (s : State) (x : Namespace) (ix lba w : Nat) (d : Block) : Undo :=
  let p := s.place x lba
  { ix := ix, slice := p.1, wslot := w, block := p.2.2, old := ((s.slice p.1).newest p.2.1).bind fun v => mapGet v.blocks p.2.2, new := d,
    range := if s.faulted x.nsid lba then some (x.nsid, lba) else none }

/-- Blocks written, lowest address first (R55). -/
def State.writeBlocks (s : State) (x : Namespace) (owner : Nat) (l : List (Nat × Block)) : Written :=
  l.zipIdx.foldl (fun (a : Written) q =>
    let r := a.state.writeBlock x owner q.1.1 q.1.2
    match r.1 with
    | none => { a with failed := some (a.failed.getD q.1.1), state := r.2 }
    | some p => { a with wrote := addWrote a.wrote p.1 p.2.1 p.2.2, undo := a.undo ++ [a.state.undoOf x q.2 q.1.1 p.2.1 q.1.2], state := r.2 })
    ({ wrote := [], undo := [], failed := none, state := s } : Written)

/-- The versions of a write that completes under Through rules are streamed at once, and its completion waits for them (R56, R108). -/
def State.throughNow (s : State) (h : Hdr) (x : Namespace) (fua : Bool) (wrote : List (Nat × Nat × List Nat)) :
    List Cond × State :=
  let t := wrote.filter fun w => s.writesThrough h x fua w.1
  (t.map fun w => Cond.programmed w.1 w.2.1,
    t.foldl (fun s w => s.modSlice w.1 fun y => y.modVersion w.2.1 fun v => { v with through := true }) s)

/-- A write's blocks go into the buffer and the command is dispatched (R55 to R58). -/
def State.writeOut (s : State) (h : Hdr) (x : Namespace) (fua : Bool) (l : List (Nat × Block)) : State :=
  let lbas := l.map Prod.fst
  let s := s.charges h x lbas
  let w := s.writeBlocks x (ctrlOwner h.ctrl) l
  let t := w.state.throughNow h x fua w.wrote
  let s := (t.2.modIn h fun y => { y with wrote := w.wrote, undo := w.undo, failLba := w.failed }).modCtrl h.ctrl fun k => k.countWrite l.length
  match w.failed with
  | none => s.answer h (ansSt stOk) t.1
  | some lba => s.answer h (ansAt stOffline x.nsid lba) t.1

/-- A write-class command: protected while the pool is read-only, held while there is no room or allowance (R83, R127, R135). -/
def State.writeCmd (s : State) (h : Hdr) (x : Namespace) (fua : Bool) (slba : Nat) (buffered : List Nat) (f : State → State) : State :=
  if s.readOnlyNs x then s.finish h (ansAt stProtected x.nsid slba)
  else if !s.mayWrite h x fua buffered then s.hold h
  else f s

/-- The blocks from an address on. -/
def blocksFrom (slba : Nat) (data : List Block) : List (Nat × Block) :=
  ((List.range data.length).map fun k => slba + k).zip data

/-- Write (R54 to R58). -/
def execWrite (h : Hdr) (nsid slba : Nat) (data : List Block) (fua : Bool) (s : State) : Host.Outcome State Fault Refusal :=
  .next (s.ioCmd h nsid .block fun x s =>
    let n := data.length
    if 256 < n then s.finish h (ansAt stField nsid slba)
    else s.blockCmd h x [(slba, n)] fun s =>
      s.writeCmd h x fua slba ((List.range n).map fun k => slba + k) fun s =>
        (s.dataIn h (4096 * n)).writeOut h x fua (blocksFrom slba data))

/-! ### Write Zeroes and Deallocate (R134) -/

/-- Is the whole unit of a block among the blocks that p covers: within the namespace? -/
def State.unitCovered (s : State) (x : Namespace) (lba : Nat) (p : Nat → Bool) : Bool :=
  let m := s.mu (x.route lba).1
  let first := lba - (s.place x lba).2.2
  (List.range m).all fun k => decide (first + k < x.size) && p (first + k)

/-- A unit superseded: its blocks leave the deferred-fault ranges, and what waited for a cancelled version waits no more. -/
def State.clearUnit (s : State) (x : Namespace) (lba : Nat) (e : Entry) : State :=
  let p := s.place x lba
  let r := s.supersede p.1 p.2.1 e
  let first := lba - p.2.2
  let s := r.1.foldl (fun s w => s.clearCond (.programmed p.1 w)) r.2
  (List.range (s.mu p.1)).foldl (fun s k => s.unfault x.nsid (first + k)) s

/-- The first blocks of the units that a covering holds wholly, in slices that are online. -/
def State.wholeUnits (s : State) (x : Namespace) (lbas : List Nat) (p : Nat → Bool) : List Nat :=
  lbas.filter fun l => (s.place x l).2.2 == 0 && s.nsUp x (s.place x l).1 && s.unitCovered x l p

/-- Write Zeroes: wholly covered units become ZERO whatever DEAC says, others take zeros through the buffer (R134). -/
def execWriteZeroes (h : Hdr) (nsid slba nlb : Nat) (deac fua : Bool) (s : State) : Host.Outcome State Fault Refusal :=
  .next (s.ioCmd h nsid .block fun x s =>
    if 65536 < nlb then s.finish h (ansAt stField nsid slba)
    else s.blockCmd h x [(slba, nlb)] fun s =>
      let lbas := (List.range nlb).map fun k => slba + k
      let p (l : Nat) : Bool := decide (slba ≤ l) && decide (l < slba + nlb)
      let part := lbas.filter fun l => !s.unitCovered x l p
      s.writeCmd h x fua slba part fun s =>
        let whole := s.wholeUnits x lbas p
        let s := whole.foldl (fun s l => s.clearUnit x l .zero) s
        let off := lbas.find? fun l => !s.nsUp x (s.place x l).1
        let s := s.writeOut h x fua (part.map fun l => (l, (0 : Block)))
        match off, deac with
        | none, _ => s
        | some l, _ => s.modIn h fun y => y.failPart (ansAt stOffline nsid l))

/-- Dataset Management: only Deallocate has an effect; a read-only pool completes it without one (R48, R63, R134, R135). -/
def execDatasetManagement (h : Hdr) (nsid : Nat) (ad : Bool) (ranges : List (Nat × Nat)) (s : State) :
    Host.Outcome State Fault Refusal :=
  .next (s.ioCmd h nsid .block fun x s =>
    s.blockCmd h x ranges fun s =>
      let s := s.dataIn h (16 * ranges.length)
      if !ad || s.readOnlyNs x then s.finish h (ansSt stOk)
      else
        let p (l : Nat) : Bool := ranges.any fun r => decide (r.1 ≤ l) && decide (l < r.1 + r.2)
        let lbas := (ranges.flatMap fun r => (List.range r.2).map fun k => r.1 + k).eraseDups
        let s := (s.wholeUnits x lbas p).foldl (fun s l => s.clearUnit x l .unmapped) s
        match lbas.filter fun l => !s.nsUp x (s.place x l).1 with
        | [] => s.finish h (ansSt stOk)
        | l :: ls => s.finish h (ansAt stOffline nsid (ls.foldl min l)))

/-! ### Copy and Flush (R57, R62, R421) -/

/-- The source blocks of a Copy, or its first failing one (R421). -/
def State.copySources (s : State) (x : Namespace) (rs : List CopySource) : Except (Status × Nat) (List Block) :=
  let lbas := rs.flatMap fun r => (List.range r.nlb).map fun k => r.slba + k
  match lbas.findSome? fun l => match s.readLba x l with
      | .ok _ => none
      | .fail st => some (st, l) with
  | some e => .error e
  | none => .ok (lbas.filterMap fun l => match s.readLba x l with
      | .ok b => some b
      | .fail _ => none)

/-- Copy: every source is read before any destination is written (R48, R421). -/
def execCopy (h : Hdr) (nsid format sdlba : Nat) (sources : List CopySource) (fua : Bool) (s : State) :
    Host.Outcome State Fault Refusal :=
  .next (s.ioCmd h nsid .block fun x s =>
    if format ≠ 0 ∨ 128 < sources.length ∨ sources.any (fun r => r.nsid != nsid) then s.finish h (ansAt stField nsid sdlba)
    else
      let n := (sources.map CopySource.nlb).sum
      let rs := (sdlba, n) :: sources.map fun r => (r.slba, r.nlb)
      s.blockCmd h x rs fun s =>
        s.writeCmd h x fua sdlba ((List.range n).map fun k => sdlba + k) fun s =>
          match s.copySources x sources with
          | .error e => s.finish h (ansAt e.1 nsid e.2)
          | .ok bs =>
            let t := s.writeOut h x fua (blocksFrom sdlba bs)
            sources.foldl (fun t r => t.countRange h x r.slba r.nlb) t)

/-- The versions of some namespaces that a Flush covers: acknowledged before it was fetched (R57). -/
def State.flushSlots (s : State) (nsids : List Nat) (order : Nat) : List (Nat × Nat) :=
  s.sliceList.flatMap fun n => ((s.slice n).versions.filter fun v =>
    nsids.contains v.nsid && v.ackAt.any (fun a => decide (a < order)) && !v.acked.isEmpty).map fun v => (n, v.wslot)

/-- A Flush of some namespaces: what it covers is streamed at once, and its completion waits for it (R57, R108). -/
def State.flushOf (s : State) (h : Hdr) (nsids : List Nat) : State :=
  let l := s.flushSlots nsids (((s.inFlight h).map InFlight.fetchedAt).getD 0)
  let s := l.foldl (fun s p => s.modSlice p.1 fun y => y.modVersion p.2 fun v => { v with trigger := true }) s
  s.answer h (ansSt stOk) (l.map fun p => Cond.programmed p.1 p.2)

/-- Flush (R57, R384). -/
def execFlush (h : Hdr) (nsid : Nat) (s : State) : Host.Outcome State Fault Refusal :=
  .next (s.run h fun s =>
    if nsid = 0xFFFFFFFF then s.flushOf h ((s.namespaces.filter fun x => x.attached h.ctrl).map Namespace.nsid)
    else
      match s.nsOf h.ctrl nsid with
      | none => s.finish h (ansAt stNamespace nsid 0)
      | some x =>
        if x.desc.placement = 0 ∧ x.parts.any (fun p => !s.nsUp x p.slice) then s.finish h (ansAt stOffline nsid 0)
        else s.flushOf h [nsid])

end Sys2Proof.Machine
end

