-- ==== Sys2Proof/Machine/LogOps.lean ====
section
/-!
DEFINITION. What Identify, Get Log Page and Get Features return (R50, R52, R57, R64, R139, R196, R319, R341, R344, R346,
R357, R375, R422). Data is given as fields: byte offset, length, value. Offsets of fields that NVM Express defines are that
specification's, and bytes that no field names are its standard content (log entry 8).
-/

namespace Sys2Proof.Machine

/-- Fields shifted by an offset. -/
def fieldsAt (off : Nat) (l : List (Nat × Nat × Nat)) : List (Nat × Nat × Nat) := l.map fun p => (off + p.1, p.2)

/-- Records of a size one after another, from an offset. -/
def recordsAt (off size : Nat) (l : List (List (Nat × Nat × Nat))) : List (Nat × Nat × Nat) :=
  l.zipIdx.flatMap fun p => fieldsAt (off + size * p.2) p.1

/-- A value of n bytes in two's complement. -/
def signedField (n : Nat) (v : Int) : Nat := (v.emod (2 ^ (8 * n))).toNat

/-! ### Identify (R50 to R52, R344) -/

/-- The power states: MP in 0.01 W, NOPS, ENLAT and EXLAT in µs (R18, R344); PS0 only in minimal mode (R359). -/
def State.powerTable (s : State) : List (Nat × Nat × Nat × Nat) :=
  let w := s.part.powerW
  let all := [(100 * w, 0, 0, 0), (100 * min w 180, 0, 0, 0), (100 * min w 100, 0, 0, 0), (2000, 1, 1000, 5000),
    (600, 1, 500000, 400000)]
  if s.minimal then all.take 1 else all

/-- The subsystem ID, which the seed image of the running slot gives (R42). -/
def State.subsysId (s : State) : Nat := ((s.slotImage s.start.slot).map SeedImage.subsysId).getD 0

/-- The identifiers of a function: vendor, device, class code, subsystem vendor and subsystem, and the sizes of BAR0 and BAR2 in bytes (R42). -/
structure PciId where
  vendor : Nat
  device : Nat
  classCode : Nat
  subVendor : Nat
  subsystem : Nat
  bar0 : Nat
  bar2 : Nat
  deriving DecidableEq, Repr

/-- The identifiers of a controller's function (R42). -/
def State.pciId (s : State) (c : Nat) : PciId :=
  { vendor := 0x2A17, device := if s.minimal then 0x5F1F else if isPf c then 0x5F10 else 0x5F11, classCode := 0x010802, subVendor := 0x2A17,
    subsystem := s.subsysId, bar0 := 16384, bar2 := if isManager c && !s.minimal then 67108864 else 0 }

/-- Bytes 3072 to 4095 of Identify Controller (R52). -/
def State.vendorId (s : State) (c : Nat) : List (Nat × Nat × Nat) :=
  let t := if isPf c then none else s.tenant (ctrlFn c - 1)
  [(3072, 2, 1), (3074, 1, s.part.capSlice % 256), (3075, 1, s.slicesOnline), (3076, 2, s.part.capSlice / 65536),
    (3078, 4, s.part.capCz), (3082, 2, s.part.capAs), (3084, 2, s.part.capDg), (3086, 2, (t.map Tenant.dgMask).getD 0),
    (3088, 1, ctrlPort c), (3089, 1, bit01 s.dual), (3090, 2, if isPf c then 0xFFFF else ctrlFn c - 1),
    (3092, 1, if isPf c then 0xFF else bit01 ((t.map Tenant.isSealed).getD false)), (3093, 1, bit01 s.minimal)] ++
  ((List.range 8).map fun n => (3096 + n, 1, if s.hasSlice n && s.formatted n then s.mu n else 0)) ++
  [(3094, 2, 0), (3104, 8, s.nvm.packageId.toNat), (3112, 4, 128), (3116, 4, 131072), (3120, 976, 0)]

/-- SUBNQN: the one NQN of the package's NVM subsystem (R43); how it is formed from the package's identity the spec leaves open (log entry 8). -/
def State.subNqn (s : State) : List (Nat × Nat × Nat) := [(768, 256, Config.subNqn s.nvm.packageId)]

/-- Identify Controller (R42, R43, R48, R50, R52, R57, R66, R69, R303, R344, R422); FR is the running image's FW_REV. -/
def State.idCtrl (s : State) (c : Nat) : List (Nat × Nat × Nat) :=
  [(0, 2, (s.pciId c).vendor), (2, 2, (s.pciId c).subVendor), (77, 1, 8), (78, 2, c), (84, 4, 30000000), (88, 4, 2000000), (258, 1, 3),
    (262, 1, 63), (263, 1, s.powerTable.length - 1), (525, 1, 1), (526, 2, 3), (528, 2, 3)] ++
  (s.start.fwRev.map fun v => (64, 8, v.toNat)).toList ++
  recordsAt 2048 32 (s.powerTable.map fun p => [(0, 2, p.1), (3, 1, 2 * p.2.1), (4, 4, p.2.2.1), (8, 4, p.2.2.2)]) ++
  s.subNqn ++ s.vendorId c

/-- The creation descriptor in bytes 3840 to 3903 (R51). -/
def CreateDescFields (d : CreateDesc) : List (Nat × Nat × Nat) :=
  [(3840, 2, d.version), (3842, 1, d.placement), (3843, 1, d.slice), (3844, 1, d.media), (3845, 1, d.rate),
    (3846, 1, d.fixity), (3847, 1, d.indexLog2), (3848, 2, d.sealedTi)]

/-- Identify Namespace (R50, R51). -/
def State.idNs (s : State) (x : Namespace) : List (Nat × Nat × Nat) :=
  let mu := s.nsMu x - 1
  [(0, 8, x.size), (8, 8, x.size), (33, 1, 0)] ++
  (if x.kind = .block then [(34, 2, mu), (36, 2, mu), (64, 2, mu), (66, 2, mu), (72, 2, mu), (130, 1, 12)] else []) ++
  CreateDescFields x.desc

/-- A list of namespace identifiers above one, at most 1,024 (NVM Express). -/
def nsList (ids : List Nat) (after : Nat) : Data := .fields ((ids.filter (after < ·)).take 1024 |>.zipIdx.map fun p => (4 * p.2, 4, p.1))

/-- Values of CNS whose answers NVM Express alone defines. -/
def standardCns : List Nat := [3, 5, 6, 7, 8, 0x12, 0x13, 0x14, 0x15, 0x16, 0x17, 0x18, 0x1A, 0x1B, 0x1C]

/-- Identify (R50 to R52, R359). Lists of namespaces that are not attached are the manager's. -/
def State.identify (s : State) (c cns nsid : Nat) : Answer :=
  let shown := if s.minimal then [] else s.namespaces
  if cns = 1 then ansData (.fields (s.idCtrl c))
  else if cns = 0 then
    match shown.find? fun x => x.nsid == nsid && x.attached c with
    | none => ansSt stNamespace
    | some x => ansData (.fields (s.idNs x))
  else if cns = 2 then ansData (nsList ((shown.filter fun x => x.attached c).map Namespace.nsid) nsid)
  else if (cns = 0x10 ∨ cns = 0x11) ∧ !isManager c then ansSt stField
  else if cns = 0x10 then ansData (nsList (shown.map Namespace.nsid) nsid)
  else if cns = 0x11 then
    match shown.find? fun x => x.nsid == nsid with
    | none => ansSt stNamespace
    | some x => ansData (.fields (s.idNs x))
  else if cns ∈ standardCns then ansData (.fields [])
  else ansSt stField

/-! ### Log pages -/

/-- Status Field of an Error Information entry: the status above the phase bit. -/
def Status.field (x : Status) : Nat := (x.sc + x.sct * 256 + bit01 x.dnr * 2 ^ 14) * 2

/-- The Error Information log of a controller (R61, R422). -/
def Ctrl.errorLog (k : Ctrl) : List (Nat × Nat × Nat) :=
  recordsAt 0 64 (k.errLog.map fun e =>
    [(0, 8, e.count), (8, 2, e.sqid), (10, 2, e.cid), (12, 2, e.status.field), (16, 8, e.lba), (24, 4, e.nsid),
      (32, 8, signedField 8 e.info)])

/-- Mean wear fraction over the good blocks of some pools, as (sum, blocks). -/
def State.wearSum (s : State) (n : Nat) (p : Pool) : Rat × Nat :=
  let gs := s.poolGroups n p
  let x := s.slice n
  (((x.blocks.filter fun b => !b.retired && gs.contains (lunGroup b.lun) && x.lunGood b.lun).map BlockInfo.wear).sum, x.goodIn gs)

/-- Percentage Used of some pools, saturating at 255 (R139). -/
def pctUsed (l : List (Rat × Nat)) : Nat :=
  let blocks := (l.map (·.2)).sum
  if blocks = 0 then 0 else min 255 (100 * (l.map (·.1)).sum / (blocks : Rat)).floor.toNat

/-- Controllers whose commands a controller's SMART log counts: the package for a physical function, else those of its instance (R43, R139). -/
def State.smartCtrls (s : State) (c : Nat) : List Ctrl := if isPf c then s.ctrls else (s.ctrlsOf (ctrlOwner c)).map s.ctrl

/-- Namespaces in the scope of a controller's SMART log (R139). -/
def State.smartNs (s : State) (c : Nat) : List Namespace :=
  if isPf c then s.namespaces else s.namespaces.filter fun x => x.attached c

/-- Every media pool of the formatted slices, as (slice, pool). -/
def State.allPools (s : State) : List (Nat × Pool) :=
  s.sliceList.flatMap fun n => if s.formatted n then (s.pools n).map fun p => (n, p) else []

/-- The pools in that scope: all of the package, or those of the instance's namespaces and of its own LUN sets (R81, R139). -/
def State.smartPools (s : State) (c : Nat) : List (Nat × Pool) :=
  if isPf c then s.allPools
  else (((s.smartNs c).flatMap fun x => x.parts.map fun q => (q.slice, x.pool)) ++
    s.allPools.filter fun q => q.2 == .tenant (ctrlOwner c)).eraseDups

/-- How far the quotas of wear exceed DEV_WEAR_RATE, which happens where it falls after they were set (R84). -/
def State.wearShort (s : State) : Nat := (s.tenants.map Tenant.wearRate).sum - s.wearRateMax

/-- Does a namespace have data on a LUN in WARN or FAILED (R137)? -/
def State.nsOnWeakLun (s : State) (x : Namespace) : Bool :=
  x.parts.any fun q =>
    ((s.slice q.slice).luns.filter fun l => l.health == .warn || l.health == .failed).any fun l =>
      (s.slice q.slice).units.any fun u => u.nsid == x.nsid && s.touches q.slice u l.lun && s.unitValid q.slice u

/-- SMART Critical Warning: bit 0 spare, bit 2 media or paging, bit 3 read-only, bit 4 hold-up (R135, R137, R139, R334). Which
data a FAILED LUN held is gone, so bit 2 also stays while an entry of the namespace is LOST. -/
def State.criticalWarning (s : State) (c : Nat) : Nat :=
  let nss := s.smartNs c
  let pools := s.smartPools c
  let low := pools.any fun p => decide (s.availableSpare p.1 p.2 < s.fld (Adr.ftSpareCfg p.1) 15 8)
  let lostIn (x : Namespace) : Bool := x.parts.any fun q => (s.slice q.slice).map.any fun e =>
    decide (q.base ≤ e.1) && decide (e.1 < q.base + q.len) && match e.2 with
      | .lost _ _ => true
      | _ => false
  let media := nss.any (fun x => s.nsOnWeakLun x || lostIn x) || (pools.map (·.1)).any fun n => s.bit (Adr.ftSts n) 6
  let ro := nss.any s.readOnlyNs
  bit01 low + 4 * bit01 media + 8 * bit01 ro + 16 * bit01 s.unhealthy

/-- The SMART log (R84, R139, R359, R368). Available Spare Threshold is the largest WARN_PCT among the slices of the pools in scope, 0
without one: a DESIGN CHOICE (log entry 42). Where the package's log reports a fall of DEV_WEAR_RATE the spec does not say (log entry 43).
Composite Temperature is a free value: the spec does not compose it (log entry 4). -/
def State.smartLog (s : State) (c : Nat) : List (Nat × Nat × Nat) × State :=
  let f := s.free
  let base := [(1, 2, f.1 % 65536), (112, 16, s.nvm.cycles), (128, 16, s.nvm.minutes / 60)]
  if s.minimal then (base, f.2)
  else
    let pools := s.smartPools c
    let cs := s.smartCtrls c
    let units (n : Nat) : Nat := (n * 8 + 999) / 1000
    ([(0, 1, s.criticalWarning c), (3, 1, (pools.map fun p => s.availableSpare p.1 p.2).foldl min 100),
      (4, 1, ((pools.map fun p => s.fld (Adr.ftSpareCfg p.1) 15 8).foldl max 0)),
      (5, 1, pctUsed (pools.map fun p => s.wearSum p.1 p.2)),
      (32, 16, units (cs.map Ctrl.blocksRead).sum), (48, 16, units (cs.map Ctrl.blocksWritten).sum),
      (64, 16, (cs.map Ctrl.readCmds).sum), (80, 16, (cs.map Ctrl.writeCmds).sum),
      (160, 16, (cs.map Ctrl.mediaErrors).sum), (176, 16, (s.ctrl c).errCount)] ++ base ++
      (if isPf c then Config.smartWearFall s.wearShort else []), f.2)

/-- The Firmware Slot Information log: the slot that runs and the one that runs next (R67, R352), and each slot's FW_REV (R303). -/
def State.slotLog (s : State) : List (Nat × Nat × Nat) :=
  [(0, 1, s.start.slot + 1 + 16 * ((s.nvm.slots.next.map (· + 1)).getD 0))] ++
    ([0, 1].filterMap fun k => (s.slotImage k).map fun im => (8 + 8 * k, 8, im.fwRev.toNat))

/-- The Media Health log (log 0xC0). -/
def State.mediaLog (s : State) : List (Nat × Nat × Nat) :=
  [(0, 2, 1), (8, 8, s.wearRateMax)] ++ recordsAt 64 64 ((List.range 8).map fun n =>
    if !s.hasSlice n then [(0, 1, 0xFF)]
    else
      let x := s.slice n
      [(0, 1, s.fld (Adr.ftSts n) 2 0), (1, 1, if s.formatted n then s.mu n else 0),
        (2, 1, if s.formatted n then s.availableSpare n .slice else 0), (3, 1, pctUsed [s.wearSum n .slice]),
        (4, 1, (x.luns.filter fun l => l.health == .warn).length),
        (5, 1, (x.luns.filter fun l => l.health == .failed || l.health == .evacuated).length),
        (8, 8, (x.luns.map Lun.retired).sum), (16, 8, s.exposedTotal n), (24, 8, x.lostNow), (32, 4, x.waHourFig), (36, 4, s.landReady n)])

/-- The Deferred Write Fault log as a controller sees it: the manager all of it, others their own entries (R61, R64). -/
def State.faultLog (s : State) (c : Nat) : List (Nat × Nat × Nat) :=
  let mine := if isManager c then s.nvm.faults else s.nvm.faults.filter fun f => f.ti == faultTi (ctrlOwner c)
  recordsAt 0 32 (mine.map fun f =>
    [(0, 2, f.ti), (2, 2, f.cause), (4, 4, f.nsid), (8, 8, f.slba), (16, 4, f.nlb), (20, 1, bit01 f.pending),
      (24, 8, f.course)])

/-- Code of a LUN health state. -/
def Health.code : Health → Nat
  | .good => 0
  | .watch => 1
  | .warn => 2
  | .failed => 3
  | .evacuated => 4

/-- A LUN put among others by its latest change, newest first. -/
def byChange (p : Nat × Lun) : List (Nat × Lun) → List (Nat × Lun)
  | [] => [p]
  | q :: l => if q.2.changedAt < p.2.changedAt then p :: q :: l else q :: byChange p l

/-- The exposure log: LUNs in WARN, FAILED or EVACUATED, the newest change first, at most 256 (R137). -/
def State.exposureLog (s : State) : List (Nat × Nat × Nat) :=
  let all := s.sliceList.flatMap fun n => ((s.slice n).luns.filter fun l => decide (2 ≤ l.health.code)).map fun l => (n, l)
  let sorted := all.foldl (fun l p => byChange p l) []
  recordsAt 0 32 ((sorted.take 256).map fun p =>
    [(0, 2, 512 * p.1 + p.2.lun), (2, 1, p.2.health.code), (3, 1, p.2.cause), (4, 8, s.exposed p.1 p.2.lun),
      (12, 8, p.2.lostBytes), (20, 4, (s.slice p.1).retiredOn p.2.lun), (24, 8, p.2.changedAt)])

/-- The measurement log (R319). -/
def State.measurementLog (s : State) : List (Nat × Nat × Nat) :=
  recordsAt 0 64 (s.measLog.map fun e =>
    [(0, 1, e.index), (1, 1, e.source), (4, 4, e.seq), (8, 8, e.course), (16, 48, e.digest.toNat)])

/-- The Start History log (R357). -/
def State.startLog (s : State) : List (Nat × Nat × Nat) :=
  recordsAt 0 32 (s.nvm.history.map fun e =>
    [(0, 4, e.cycle), (4, 4, e.minutes), (8, 1, e.slot), (9, 1, bit01 e.trial + 2 * bit01 e.minimal + 4 * bit01 e.activation),
      (10, 1, e.stage), (11, 1, e.cause), (12, 1, e.failCnt), (16, 4, e.tLinkUs), (20, 4, e.tReadyMs)])

/-- The Event Recorder log: the last image written, then the notice ring, oldest page first; zeros follow (R375). -/
def State.eventLog (s : State) : List Byte :=
  ((s.nvm.image.map RecImage.bytes).getD (List.replicate 16384 0)) ++ s.nvm.notices.flatMap Notice.bytes

/-- Get Log Page: what a controller may read, in minimal mode too (R139, R319, R357, R359, R375). -/
def State.logPage (s : State) (c lid : Nat) : Answer × State :=
  let whole (l : List (Nat × Nat × Nat)) : Answer × State := (ansData (.fields l), s)
  if lid = 1 then whole (s.ctrl c).errorLog
  else if lid = 2 then
    let l := s.smartLog c
    (ansData (.fields l.1), l.2)
  else if lid = 3 then whole s.slotLog
  else if lid = 0xC1 ∧ !s.minimal then whole (s.faultLog c)
  else if !isManager c then (ansSt stField, s)
  else if lid = 0xC4 then whole s.startLog
  else if lid = 0xC5 then (ansData (.bytes s.eventLog), s)
  else if s.minimal then (ansSt stField, s)
  else if lid = 0xC0 then whole s.mediaLog
  else if lid = 0xC2 then whole s.exposureLog
  else if lid = 0xC3 then whole s.measurementLog
  else (ansSt stField, s)

/-- Bytes of a log page. -/
def logBytes (lid : Nat) : Nat :=
  if lid = 1 then 4096
  else if lid = 2 ∨ lid = 3 then 512
  else if lid = 0xC0 then 576
  else if lid = 0xC1 ∨ lid = 0xC2 then 8192
  else if lid = 0xC3 then 65536
  else if lid = 0xC4 then 1024
  else 802816

/-! ### Features (R49, R57, R196, R341, R345, R346) -/

/-- Does inline compression take effect in the namespace's slices: has one a compressor built in (R196)? -/
def State.canCompress (s : State) (x : Namespace) : Bool :=
  x.parts.any fun q => (List.range 4).any fun e => s.built (UnitId.pair q.slice e)

/-- I/O queue pairs that a controller may hold (R45, R78). -/
def State.allotment (s : State) (c : Nat) : Nat :=
  if isPf c then 1024 else min 256 (((s.tenant (ctrlFn c - 1)).map Tenant.vq).getD 0)

/-- The answer to Number of Queues: the allotment less 1 in both halves (R49). -/
def State.queuesDw0 (s : State) (c : Nat) : Nat := (s.allotment c - 1) * 65537

/-- Features that Set Features stores as they are (R49). -/
def plainFeature (fid : Nat) : Bool := [0x01, 0x08, 0x0B, 0x0C].contains fid

/-- Get Features (R49, R57, R196, R341, R345, R346). -/
def State.feature (s : State) (c fid nsid : Nat) : Answer :=
  let k := s.ctrl c
  if plainFeature fid then ansDw0 ((mapGet k.features fid).getD 0)
  else if fid = 0x02 then ansDw0 (s.fld Adr.pwSts 18 16)
  else if fid = 0x06 then ansDw0 (bit01 k.wce)
  else if fid = 0x07 then ansDw0 (s.queuesDw0 c)
  else if fid = 0xC6 then ansDw0 k.latency
  else if fid = 0xC4 ∨ fid = 0xC5 then
    match s.nsOf c nsid with
    | none => ansSt stNamespace
    | some x =>
      if fid = 0xC4 then ansDw0 (bit01 x.compress + 2 * bit01 (x.compress && s.canCompress x))
      else
        let forced := !k.wce || x.parts.any fun q => s.throughOverride q.slice
        ansDw0 (bit01 x.through + 2 * bit01 (x.through || forced))
  else ansSt stField

end Sys2Proof.Machine
end

