-- ==== Sys2Proof/Machine/Admin.lean ====
section
/-!
DEFINITION. Meanings of the admin commands that every controller accepts (R49): Identify, Get Log Page, features, I/O queues,
Abort and Asynchronous Event Request. In minimal mode only the first two are accepted (R359).
-/

namespace Sys2Proof.Machine

/-- An admin command that minimal mode does not accept (R359). -/
def State.adminCmd (s : State) (h : Hdr) (f : State → State) : State :=
  s.run h fun s => if s.minimal then s.finish h (ansSt stOpcode) else f s

/-- A feature that only physical function 0 of port 0 may set (R49, R196, R341, R345, R346). -/
def State.managerFeature (s : State) (h : Hdr) (f : State → State) : State :=
  s.adminCmd h fun s => if isManager h.ctrl then f s else s.finish h (ansSt stField)

/-- Identify (R50 to R52, R359). -/
def execIdentify (h : Hdr) (cns nsid : Nat) (s : State) : Host.Outcome State Fault Refusal :=
  .next (s.run h fun s =>
    let a := s.identify h.ctrl cns nsid
    (if a.status.good then s.dataOut h 4096 else s).finish h a)

/-- Get Log Page (R139, R359). -/
def execGetLogPage (h : Hdr) (lid : Nat) (s : State) : Host.Outcome State Fault Refusal :=
  .next (s.run h fun s =>
    let a := s.logPage h.ctrl lid
    (if a.1.status.good then a.2.dataOut h (logBytes lid) else a.2).finish h a.1)

/-- Get Features (R49, R57, R196, R341, R346). -/
def execGetFeatures (h : Hdr) (fid nsid : Nat) (s : State) : Host.Outcome State Fault Refusal :=
  .next (s.adminCmd h fun s => s.finish h (s.feature h.ctrl fid nsid))

/-- APST enabled: the EXLAT of its deepest target and its longest idle time come in the table that the command carries
and the row does not, so they are free (R346, R347; log entry 4). -/
def State.takeApst (s : State) (c value : Nat) : State :=
  if value % 2 = 0 then s
  else
    let a := s.free
    let b := a.2.free
    b.2.modCtrl c fun k => { k with features := mapPut (mapPut k.features 0 0x20C a.1) 0 0x30C b.1 }

/-- Set Features of a standard feature: stored for the controller; Number of Queues answers the allotment (R49). -/
def execSetFeatures (h : Hdr) (fid value : Nat) (s : State) : Host.Outcome State Fault Refusal :=
  .next (s.adminCmd h fun s =>
    if fid = 0x07 then s.finish h (ansDw0 (s.queuesDw0 h.ctrl))
    else if fid = 0x06 then (s.modCtrl h.ctrl fun k => { k with wce := value % 2 == 1 }).finish h (ansSt stOk)
    else if plainFeature fid then
      let s := s.modCtrl h.ctrl fun k => { k with features := mapPut k.features 0 fid value }
      (if fid = 0x0C then s.takeApst h.ctrl value else s).finish h (ansSt stOk)
    else s.finish h (ansSt stField))

/-- Set Features 0x06: WCE of the controller (R57). -/
def execSetFeaturesVolatileWriteCache (h : Hdr) (wce : Bool) (s : State) : Host.Outcome State Fault Refusal :=
  .next (s.adminCmd h fun s => (s.modCtrl h.ctrl fun k => { k with wce := wce }).finish h (ansSt stOk))

/-- Set Features 0xC4: inline compression of a namespace, from the units streamed next (R196, R423). -/
def execSetFeaturesInlineCompression (h : Hdr) (nsid : Nat) (enable : Bool) (s : State) : Host.Outcome State Fault Refusal :=
  .next (s.managerFeature h fun s =>
    match s.ns nsid with
    | none => s.finish h (ansSt stNamespace)
    | some _ => (s.modNs nsid fun x => { x with compress := enable }).finish h (ansSt stOk))

/-- Set Features 0xC5: durability of a namespace, for writes fetched after this (R341, R423). -/
def execSetFeaturesDurability (h : Hdr) (nsid : Nat) (through : Bool) (s : State) : Host.Outcome State Fault Refusal :=
  .next (s.managerFeature h fun s =>
    match s.ns nsid with
    | none => s.finish h (ansSt stNamespace)
    | some _ => (s.modNs nsid fun x => { x with through := through }).finish h (ansSt stOk))

/-- Set Features 0xC6: the latency tolerance of a controller (R346). -/
def execSetFeaturesLatencyTolerance (h : Hdr) (cntlid tolerance : Nat) (s : State) : Host.Outcome State Fault Refusal :=
  .next (s.managerFeature h fun s =>
    if !s.ctrlExists cntlid then s.finish h (ansSt stField)
    else (s.modCtrl cntlid fun k => { k with latency := tolerance }).finish h (ansSt stOk))

/-- Set Features 0x02: the operational state from the next bond period boundary on (R345). -/
def execSetFeaturesPowerManagement (h : Hdr) (ps : Nat) (s : State) : Host.Outcome State Fault Refusal :=
  .next (s.managerFeature h fun s =>
    if 2 < ps then s.finish h (ansSt stField)
    else (s.modPower fun w => { w with opNext := some ps }).finish h (ansSt stOk))

/-! ### I/O queues (R44, R45, R70) -/

/-- Completion Queue Invalid. -/
def stCqInvalid : Status := mkSt 1 0 true
/-- Invalid Queue Identifier. -/
def stQid : Status := mkSt 1 1 true
/-- Invalid Queue Size. -/
def stQsize : Status := mkSt 1 2 true
/-- Asynchronous Event Request Limit Exceeded. -/
def stAerLimit : Status := mkSt 1 5 true
/-- Invalid Interrupt Vector. -/
def stVector : Status := mkSt 1 8 true
/-- Invalid Queue Deletion. -/
def stQdelete : Status := mkSt 1 0xC true

/-- I/O queue pairs that a tenant's two controllers, or the one physical function, count against its allotment (R43, R45). -/
def State.pairsHeld (s : State) (c : Nat) : Nat := if isPf c then (s.ctrl c).pairs else s.pairsOf (ctrlOwner c)

/-- Would a queue more, which makes a controller hold k pairs, exceed the allotment, or for a physical function the pool that
the instances' counts leave (R45, R78)? -/
def State.overPairs (s : State) (c k : Nat) : Bool :=
  let more := k - (s.ctrl c).pairs
  decide (s.allotment c < s.pairsHeld c + more) ||
    (isPf c && decide (4096 < (s.tenants.map Tenant.vq).sum + s.pairsOf ownerPf + more))

/-- Interrupt vectors of a controller: its count for an instance (R78, R388), 1,025 for a physical function. -/
def State.vectors (s : State) (c : Nat) : Nat :=
  if isPf c then 1025 else ((s.tenant (ctrlFn c - 1)).map Tenant.vi).getD 0

/-- Create I/O Completion Queue (R44, R45, R70). -/
def execCreateIoCompletionQueue (h : Hdr) (qid size vector : Nat) (mem : QueueMem) (s : State) :
    Host.Outcome State Fault Refusal :=
  .next (s.adminCmd h fun s =>
    let k := s.ctrl h.ctrl
    if (capOf h.ctrl).cqr && !mem.contiguous then s.finish h (ansSt stField)
    else if qid = 0 ∨ k.cqs.any (fun q => q.qid == qid) ∨
        s.overPairs h.ctrl (max (k.sqs.filter fun q => q.qid != 0).length ((k.cqs.filter fun q => q.qid != 0).length + 1)) then
      s.finish h (ansSt stQid)
    else if size < 2 ∨ (capOf h.ctrl).mqes + 1 < size then s.finish h (ansSt stQsize)
    else if s.vectors h.ctrl ≤ vector then s.finish h (ansSt stVector)
    else
      let q : ComQ := { qid := qid, size := size, base := mem.base, vector := vector, head := 0, tail := 0, phase := true, entries := [] }
      (s.modCtrl h.ctrl fun k => { k with cqs := recPut ComQ.qid k.cqs q }).finish h (ansSt stOk))

/-- Create I/O Submission Queue (R44 to R46, R70). -/
def execCreateIoSubmissionQueue (h : Hdr) (qid size cqid prio : Nat) (mem : QueueMem) (s : State) :
    Host.Outcome State Fault Refusal :=
  .next (s.adminCmd h fun s =>
    let k := s.ctrl h.ctrl
    if (capOf h.ctrl).cqr && !mem.contiguous then s.finish h (ansSt stField)
    else if qid = 0 ∨ k.sqs.any (fun q => q.qid == qid) ∨
        s.overPairs h.ctrl (max ((k.sqs.filter fun q => q.qid != 0).length + 1) (k.cqs.filter fun q => q.qid != 0).length) then
      s.finish h (ansSt stQid)
    else if size < 2 ∨ (capOf h.ctrl).mqes + 1 < size then s.finish h (ansSt stQsize)
    else if cqid = 0 then s.finish h (ansSt stQid)
    else if !k.cqs.any (fun q => q.qid == cqid) then s.finish h (ansSt stCqInvalid)
    else
      let q : SubQ := { qid := qid, size := size, base := mem.base, cqid := cqid, prio := prio, head := 0, tail := 0, recorded := none }
      (s.modCtrl h.ctrl fun k => { k with sqs := recPut SubQ.qid k.sqs q }).finish h (ansSt stOk))

/-- Delete I/O Submission Queue: its fetched commands that are not dispatched complete with Command Aborted due to SQ Deletion (R70). -/
def execDeleteIoSubmissionQueue (h : Hdr) (qid : Nat) (s : State) : Host.Outcome State Fault Refusal :=
  .next (s.adminCmd h fun s =>
    if qid = 0 ∨ !(s.ctrl h.ctrl).sqs.any (fun q => q.qid == qid) then s.finish h (ansSt stQid)
    else
      let gone := (s.inflight.filter fun x => x.hdr.ctrl == h.ctrl && x.hdr.sq == qid && x.waits).map InFlight.hdr
      let s := gone.foldl (fun s g => s.finish g (ansSt stSqDeleted)) s
      (s.modCtrl h.ctrl fun k => { k with sqs := recErase SubQ.qid k.sqs qid }).finish h (ansSt stOk))

/-- Delete I/O Completion Queue: not while a submission queue uses it (R70). -/
def execDeleteIoCompletionQueue (h : Hdr) (qid : Nat) (s : State) : Host.Outcome State Fault Refusal :=
  .next (s.adminCmd h fun s =>
    let k := s.ctrl h.ctrl
    if qid = 0 ∨ !k.cqs.any (fun q => q.qid == qid) then s.finish h (ansSt stQid)
    else if k.sqs.any (fun q => q.cqid == qid) then s.finish h (ansSt stQdelete)
    else (s.modCtrl h.ctrl fun k => { k with cqs := recErase ComQ.qid k.cqs qid }).finish h (ansSt stOk))

/-! ### Abort and events (R61, R69, R70) -/

/-- Abort Command Limit Exceeded. -/
def stAbortLimit : Status := mkSt 1 3 true

/-- Abort commands of a controller that have not completed. -/
def State.abortsOpen (s : State) (c : Nat) : Nat := (s.inflight.filter fun x => x.hdr.ctrl == c && x.isAbort).length

/-- Abort: only a command that is fetched and not dispatched; completion DW0 bit 0 says whether it was not (R69). Beyond four that have not
completed, Abort Command Limit Exceeded (R69, R70). -/
def execAbort (h : Hdr) (sqid cid : Nat) (s : State) : Host.Outcome State Fault Refusal :=
  .next (s.adminCmd h fun s =>
    let g : Hdr := { ctrl := h.ctrl, sq := sqid, cid := cid }
    if 4 ≤ s.abortsOpen h.ctrl then s.finish h (ansSt stAbortLimit)
    else
      let s := s.modIn h fun x => { x with isAbort := true }
      if g != h && s.undispatched g then (s.finish g (ansSt stAborted)).finish h (ansDw0 0) else s.finish h (ansDw0 1))

/-- Asynchronous Event Requests that a controller holds. -/
def State.heldRequests (s : State) (c : Nat) : Nat :=
  (s.inflight.filter fun x => x.hdr.ctrl == c && x.waitsEvent).length

/-- Asynchronous Event Request: answered at once by a kept event, else held (R61, R70). -/
def execAsynchronousEventRequest (h : Hdr) (s : State) : Host.Outcome State Fault Refusal :=
  .next (s.adminCmd h fun s =>
    match (s.ctrl h.ctrl).events with
    | e :: rest => (s.modCtrl h.ctrl fun k => { k with events := rest }).finish h (ansDw0 e.dw0)
    | [] =>
      if Config.aerl < s.heldRequests h.ctrl then s.finish h (ansSt stAerLimit)
      else s.modIn h fun x => { x with phase := .held, conds := [.event] })

end Sys2Proof.Machine
end

