-- ==== Sys2Proof/Machine/Namespaces.lean ====
section
/-!
DEFINITION. Meanings of namespace management: create, delete and Format NVM (R51, R63, R100, R105, R132, R133, R185, R249,
R255, R423).
-/

namespace Sys2Proof.Machine

/-! ### Creation (R51) -/

/-- The kind that a Command Set Identifier selects (R48, R51): its codes are NVM Express's (log entry 8). -/
def kindOf (csi : Nat) : Option NsKind :=
  match csi with
  | 0 => some .block
  | 1 => some .object
  | 3 => some .memory
  | 4 => some .computational
  | _ => none

/-- The descriptor in force: version 0 makes every field take its default (R51). -/
def State.descOf (s : State) (k : NsKind) (d : CreateDesc) : CreateDesc :=
  if d.version = 0 then
    { version := 0, placement := if k = .block ∨ k = .object then 1 else 0,
      slice := ((s.sliceList.find? s.sliceUp).getD 8), media := 0, rate := 0, fixity := 0, indexLog2 := 16,
      sealedTi := 0xFFFF, reserved := 0 }
  else d

/-- The slices that a new namespace occupies (R51, R54, R254). -/
def State.newSlices (s : State) (d : CreateDesc) : List Nat := if d.placement = 1 then s.sliceList else [d.slice]

/-- Is every field within its range, and the combination one that the table allows (R51)? -/
def State.descOk (s : State) (k : NsKind) (d : CreateDesc) : Bool :=
  decide (d.version ≤ 1) && d.reserved == 0 && decide (d.placement ≤ 1) && (k.stored || d.placement == 0) &&
    (d.placement == 1 || decide (d.slice < 8)) &&
    (s.newSlices d).all s.sliceUp &&
    (!k.stored || decide (d.media ≤ 1)) && decide (d.rate ≤ 3) &&
    (if k = .object then decide (d.fixity ≤ 5) && decide (10 ≤ d.indexLog2) && decide (d.indexLog2 ≤ 25)
     else d.fixity == 0) &&
    (d.sealedTi == 0xFFFF ||
      (decide (d.sealedTi < 0x100) && (s.tenant d.sealedTi).any fun t =>
        t.isSealed && (s.newSlices d).all fun n => t.lunSlices.contains n))

/-- Media profiles of a pool of slice n: those of its namespaces (R51, R105). -/
def State.profiles (s : State) (n : Nat) (p : Pool) : List (Nat × Nat) :=
  ((s.namespaces.filter fun x => x.kind.stored && x.pool == p && x.parts.any fun q => q.slice == n).map fun x =>
    (x.desc.media, x.desc.rate)).eraseDups

/-- Would a namespace need a fifth profile in a pool (R105)? -/
def State.fifthProfile (s : State) (k : NsKind) (d : CreateDesc) : Bool :=
  let p : Pool := if d.sealedTi < 0x100 then .tenant d.sealedTi else .slice
  k.stored && (s.newSlices d).any fun n =>
    !(s.profiles n p).contains (d.media, d.rate) && decide (4 ≤ (s.profiles n p).length)

/-- Blocks of 4,096 bytes that lie in each slice: all of a confined namespace; of a striped one its stripes, of a distributed one an
even part (R54, R132, R257). -/
def shareBlocks (k : NsKind) (placement size slices : Nat) : Nat :=
  if placement = 0 then size
  else if k = .block then ((size + 255) / 256 + slices - 1) / slices * 256
  else (size + slices - 1) / slices

/-- The first place of a range of some length among ranges in use, below a limit; its address is a multiple of the step. The
candidates are 0 and the ends of the ranges in use. -/
def firstFit (used : List (Nat × Nat)) (len step limit : Nat) : Option Nat :=
  let cands := (0 :: used.map fun u => roundUp (u.1 + u.2) step).filter fun a =>
    decide (a + len ≤ limit) && used.all fun u => decide (u.1 + u.2 ≤ a) || decide (a + len ≤ u.1)
  cands.foldl (fun best a => match best with
    | none => some a
    | some b => some (min a b)) none

/-- The parts of every namespace in slice n. -/
def State.partsIn (s : State) (n : Nat) : List (Namespace × NsPart) :=
  s.namespaces.flatMap fun x => (x.parts.filter fun q => q.slice == n).map fun q => (x, q)

/-- Table entries of slice n: one for each mapping unit of its raw flash (R98). -/
def State.tableEntries (s : State) (n : Nat) : Nat :=
  match s.desc n with
  | none => 0
  | some d => (s.slice n).luns.length * d.lunBytes / (s.mu n * 4096)

/-- The part of a new namespace in slice n, if the slice can hold it: table range, reserved blocks with the spare reference left,
index range, memory range (R100, R132, R133, R249, R255). Of the contiguous free ranges that fit, each takes the one at the lowest address
(R100; log entry 28). -/
def State.newPart? (s : State) (n : Nat) (k : NsKind) (d : CreateDesc) (share : Nat) : Option NsPart :=
  match k with
  | .computational => some { slice := n, base := 0, len := 0, reserved := 0, bucketBase := 0, memBase := 0 }
  | .memory =>
    let used := ((s.partsIn n).filter fun p => p.1.kind == .memory).map fun p => (p.2.memBase, p.1.size * 4096)
    (firstFit used (share * 4096) 2097152 (s.memPool n)).map fun a =>
      { slice := n, base := 0, len := 0, reserved := 0, bucketBase := 0, memBase := a }
  | _ =>
    match s.desc n with
    | none => none
    | some md =>
      if !s.formatted n then none
      else
        let p : Pool := if d.sealedTi < 0x100 then .tenant d.sealedTi else .slice
        let blocks := (share * 4096 + md.blockBytes (mediaMode d.media) d.rate - 1) / md.blockBytes (mediaMode d.media) d.rate
        let len := (share + s.mu n - 1) / s.mu n
        let used := ((s.partsIn n).filter fun q => q.1.kind.stored).map fun q => (q.2.base, q.2.len)
        let buckets := ((s.partsIn n).filter fun q => q.1.kind == .object).map fun q =>
          (q.2.bucketBase, 2 ^ q.1.desc.indexLog2)
        let bucket := if k = .object then
            match (s.slice n).indexLog2 with
            | none => none
            | some l => firstFit buckets (2 ^ d.indexLog2) (2 ^ d.indexLog2) (2 ^ l)
          else some 0
        if s.spare n p - blocks < (s.spareRef n p : Int) then none
        else match firstFit used len 1 (s.tableEntries n), bucket with
          | some b, some c => some { slice := n, base := b, len := len, reserved := blocks, bucketBase := c, memBase := 0 }
          | _, _ => none

/-- Namespace Management, create (R51, R105, R132, R133, R249, R255). Sizes count blocks of 4,096 bytes for every kind (log entry 60). NSIDs are 1 to
4,096 (R10): the lowest free one is taken, and with none free the creation fails with Namespace Insufficient Capacity (log entry 26). A size of 0
fails with Invalid Field in Command: the spec gives no lower limit (log entry 27). -/
def execNamespaceCreate (h : Hdr) (csi nsze ncap flbas : Nat) (desc : CreateDesc) (s : State) :
    Host.Outcome State Fault Refusal :=
  .next (s.managed h fun s =>
    match kindOf csi with
    | none => s.finish h (ansSt stField)
    | some k =>
      let d := s.descOf k desc
      let slices := s.newSlices d
      let share := shareBlocks k d.placement nsze slices.length
      if nsze != ncap || nsze == 0 || (k == .block && flbas != 0) || (k == .memory && nsze % 512 != 0) ||
          !s.descOk k d || s.fifthProfile k d then s.finish h (ansSt stField)
      else
        let parts := slices.map fun n => s.newPart? n k d share
        let ids := s.namespaces.map Namespace.nsid
        let free := lowestFree 4096 fun i => ids.contains (i + 1)
        if parts.any Option.isNone || free.isNone then s.finish h (ansSt stCapacity)
        else
          let nsid := free.getD 0 + 1
          let x : Namespace :=
            { nsid := nsid, kind := k, size := nsze, desc := d, parts := parts.filterMap id, slot := none, through := false,
              compress := true, attachedTis := [], attachedPfs := [], lastOwner := none, programs := [] }
          let s : State := { s with namespaces := recPut Namespace.nsid s.namespaces x }
          let s := slices.foldl State.evalSpare s
          let s := if k = .object ∧ d.sealedTi < 0x100 then slices.foldl (fun s n => s.sealPart n d.sealedTi) s else s
          s.finish h (ansDw0 nsid))

/-! ### Contents dropped (R63, R255) -/

/-- A namespace's versions out of the buffer of slice n, what waited for them waiting no more; entries that named one take what stood
under it. -/
def State.dropVersions (s : State) (n nsid : Nat) : State :=
  let gone := (s.slice n).versions.filter fun v => v.nsid == nsid
  let s := s.modSlice n fun x => gone.foldr (fun v x => x.dropVersion v.wslot v.under) x
  let s := s.modSlice n fun x => { x with landed := x.landed.filter fun v => v.nsid != nsid }
  gone.foldl (fun s v => s.clearCond (.programmed n v.wslot)) s

/-- Every entry of a namespace's table range in slice n UNMAPPED, and its stored units gone. -/
def State.dropEntries (s : State) (n : Nat) (q : NsPart) (nsid : Nat) : State :=
  s.modSlice n fun x =>
    let mine := x.map.filter fun e => decide (q.base ≤ e.1) && decide (e.1 < q.base + q.len)
    let y := mine.foldl (fun (y : Slice) e => y.switch e.1 .unmapped) x
    { y with units := y.units.filter fun u => u.nsid != nsid }

/-- The objects, index entries, ingests and pins of a namespace in slice n gone. -/
def State.dropObjects (s : State) (n nsid : Nat) : State :=
  let s := (((s.slice n).ingests.filter fun g => g.nsid == nsid)).foldl (fun s g => s.abandon n g) s
  let s := (((s.slice n).pins.filter fun p => p.nsid == nsid)).foldl (fun s p => s.unpin n p false) s
  s.modSlice n fun x =>
    { (x.freeIndex fun e => e.nsid == nsid) with
      objects := x.objects.filter (fun e => e.2.nsid != nsid), pins := x.pins.filter fun p => p.nsid != nsid }

/-- The deferred-fault ranges of a namespace removed (R63). -/
def State.dropRanges (s : State) (nsid : Nat) : State :=
  s.modNvm fun v => { v with ranges := v.ranges.filter fun r => r.1 != nsid }

/-- What a namespace holds, dropped: with erase its entries become UNMAPPED; without, units on flash stay where they are, to
be invalid by their key's generation (R63, R113, R185). -/
def State.clearNs (s : State) (x : Namespace) (erase : Bool) : State :=
  let s := x.parts.foldl (fun s q =>
    let s := s.dropObjects q.slice x.nsid
    let s := s.dropVersions q.slice x.nsid
    if erase then s.dropEntries q.slice q x.nsid else s) s
  (s.zeroMem x).dropRanges x.nsid

/-! ### Deletion and format -/

/-- The namespaces that an NSID names for the manager: one, or all with 0xFFFF_FFFF. -/
def State.named (s : State) (nsid : Nat) : List Namespace :=
  if nsid = 0xFFFFFFFF then s.namespaces else (s.ns nsid).toList

/-- A namespace deleted: contents and ranges gone, its pending faults with it, its programs' invocations ended (R249, R255). -/
def State.deleteNs (s : State) (x : Namespace) : State :=
  let s := s.endInvocations (fun v => v.nsid == x.nsid) (ansSt stNamespace)
  let s := s.clearNs x true
  let s := s.modNvm fun v =>
    { v with faultPairs := v.faultPairs.filter (fun p => p.2 != x.nsid),
             faults := v.faults.map fun f => if f.nsid = x.nsid then { f with pending := false } else f }
  let s : State := { s with namespaces := recErase Namespace.nsid s.namespaces x.nsid }
  x.parts.foldl (fun s q => (s.evalSpare q.slice).unsealPart q.slice x.desc.sealedTi) s

/-- Namespace Management, delete (R93, R249, R255). -/
def execNamespaceDelete (h : Hdr) (nsid : Nat) (s : State) : Host.Outcome State Fault Refusal :=
  .next (s.managed h fun s =>
    if s.named nsid = [] then s.finish h (ansSt stNamespace)
    else ((s.named nsid).foldl State.deleteNs s).finish h (ansSt stOk))

/-- The key of a namespace regenerated: at once, or when its slot leaves RETIRING (R184, R185). Answers what it waits for. -/
def State.regenerate (s : State) (x : Namespace) : State × List Cond :=
  match x.slot with
  | none => (s, [])
  | some k =>
    match (s.keySlot k).state with
    | .retiring => ({ s with slotWaits := s.slotWaits ++ [{ slot := k, format := true }] }, [.slotActive k])
    | _ =>
      let r := s.random
      (r.2.loadKey k (s.keySlot k).use r.1, [])

/-- May the slot take a new key: its generation is not the last one, and the DRBG gives output (R184, R186)? The status that says
otherwise. -/
def State.mayRegenerate (s : State) (x : Namespace) : Option Status :=
  match x.slot with
  | none => none
  | some k => if 0xFFFF ≤ (s.keySlot k).generation then some stField else if !s.entropyOk then some stInternal else none

/-- Format NVM (R48, R63, R185): with SES 0b010 the key is destroyed; otherwise every block becomes UNMAPPED. -/
def execFormatNvm (h : Hdr) (nsid ses lbaf pi mset : Nat) (s : State) : Host.Outcome State Fault Refusal :=
  .next (s.managed h fun s =>
    let xs := s.named nsid
    if xs = [] then s.finish h (ansSt stNamespace)
    else if 2 < ses ∨ lbaf ≠ 0 ∨ pi ≠ 0 ∨ mset ≠ 0 then s.finish h (ansSt stField)
    else if ses ≠ 2 then (xs.foldl (fun s x => s.clearNs x true) s).finish h (ansSt stOk)
    else match xs.findSome? s.mayRegenerate with
      | some st => s.finish h (ansSt st)
      | none =>
        let r := xs.foldl (fun (r : State × List Cond) x =>
          let q := (r.1.clearNs x false).regenerate x
          (q.1, r.2 ++ q.2)) (s, [])
        r.1.answer h (ansSt stOk) r.2)

end Sys2Proof.Machine
end

