-- ==== Sys2Proof/Machine/Keys.lean ====
section
/-!
DEFINITION. Meanings of the Key Management commands, of the entropy source and of the counter ring (R170 to R172, R183 to R187,
R418, R423).
-/

namespace Sys2Proof.Machine

/-- The status that goes with a Key Management reason (R187). -/
def keyStatus (k : Nat) : Status :=
  if k = 6 then stInternal else if k = 8 then stNamespace else if k = 2 ∨ k = 4 ∨ k = 7 ∨ k = 9 then stSequence else stField

/-- A Key Management action fails with its reason in DW0 (R187). -/
def State.failKey (s : State) (h : Hdr) (k : Nat) : State := s.finish h (ansReason (keyStatus k) k)

/-- Key Management reasons (R187). -/
def krBadSlot : Nat := 1
/-- BOUND. -/
def krBound : Nat := 2
/-- UNWRAP_FAIL. -/
def krUnwrap : Nat := 3
/-- KEK_EMPTY. -/
def krKekEmpty : Nat := 4
/-- GEN_EXHAUSTED. -/
def krExhausted : Nat := 5
/-- ENTROPY. -/
def krEntropy : Nat := 6
/-- RETIRING. -/
def krRetiring : Nat := 7
/-- NO_NAMESPACE. -/
def krNoNamespace : Nat := 8
/-- SLOT_EMPTY. -/
def krSlotEmpty : Nat := 9

/-- Why a new key may not enter a tenant slot (R184, R187): the checks in this order (log entry 61). -/
def State.keyRefused (s : State) (slot use : Nat) : Option Nat :=
  let k := s.keySlot slot
  if !tenantSlot slot || decide (1 < use) then some krBadSlot
  else if k.state = .retiring then some krRetiring
  else if s.boundAttached slot then some krBound
  else if 0xFFFF ≤ k.generation then some krExhausted
  else none

/-- GENERATE (R184, R186, R187). -/
def execGenerate (h : Hdr) (slot use : Nat) (s : State) : Host.Outcome State Fault Refusal :=
  .next (s.serial h fun s =>
    match s.keyRefused slot use with
    | some k => s.failKey h k
    | none =>
      if !s.entropyOk then s.failKey h krEntropy
      else
        let r := s.random
        (r.2.loadKey slot use r.1).finish h (ansSt stOk))

/-- IMPORT (R184, R187): 40 bytes of RFC 3394 wrap output under an import KEK. -/
def execImportKey (h : Hdr) (slot kek use : Nat) (wrapped : List (BitVec 8)) (s : State) : Host.Outcome State Fault Refusal :=
  .next (s.serial h fun s =>
    match s.keyRefused slot use with
    | some k => s.failKey h k
    | none =>
      let q := s.keySlot (4097 + kek % 16)
      if q.state = .empty then s.failKey h krKekEmpty
      else
        let s := s.dataIn h wrapped.length
        match if wrapped.length = 40 then Config.unwrap q.key wrapped else none with
        | none => (s.setBit Adr.ksEvt 1).failKey h krUnwrap
        | some k => (s.loadKey slot use k).finish h (ansSt stOk))

/-- ZEROIZE (R184, R187, R423). -/
def execZeroize (h : Hdr) (slot : Nat) (s : State) : Host.Outcome State Fault Refusal :=
  .next (s.serial h fun s =>
    if !tenantSlot slot then s.failKey h krBadSlot
    else match (s.keySlot slot).state with
      | .empty => s.finish h (ansSt stOk)
      | .retiring => s.failKey h krRetiring
      | .active =>
        if s.boundAttached slot then s.failKey h krBound
        else ((s.emptySlot slot).unbind slot).finish h (ansSt stOk))

/-- Does a namespace hold data: a mapped unit, a buffered version, an object (R423)? -/
def State.holdsData (s : State) (x : Namespace) : Bool :=
  x.parts.any fun q =>
    (s.slice q.slice).map.any (fun e => decide (q.base ≤ e.1) && decide (e.1 < q.base + q.len)) ||
      (s.slice q.slice).versions.any (fun v => v.nsid == x.nsid) || (s.slice q.slice).index.any fun e => e.2.nsid == x.nsid

/-- The first check of BIND that fails (R423). -/
def State.bindRefused (s : State) (slot nsid : Nat) : Option Nat :=
  match s.ns nsid with
  | none => some krNoNamespace
  | some x =>
    let k := s.keySlot slot
    if !tenantSlot slot || k.use != 0 then some krBadSlot
    else match k.state with
      | .empty => some krSlotEmpty
      | .retiring => some krRetiring
      | .active =>
        if !(x.attachedTis.isEmpty && x.attachedPfs.isEmpty) || s.holdsData x ||
            s.namespaces.any (fun y => y.slot == some slot && y.nsid != nsid) then some krBound
        else none

/-- BIND (R423). -/
def execBind (h : Hdr) (slot nsid : Nat) (s : State) : Host.Outcome State Fault Refusal :=
  .next (s.serial h fun s =>
    match s.bindRefused slot nsid with
    | some k => s.failKey h k
    | none => (s.modNs nsid fun x => { x with slot := some slot }).finish h (ansSt stOk))

/-- Is the SPDM session established over a DOE mailbox (R187, R320)? -/
def State.doeSession (s : State) (session : Nat) : Bool :=
  s.spdmSessions.any fun q => q.number == session && q.established && match q.transport with
    | .doe _ => true
    | _ => false

/-- IMPORT_KEK: the KEK comes as an SPDM secured message of a session over DOE (R186, R187, R418). -/
def execImportKek (h : Hdr) (kek session : Nat) (authentic : Bool) (key : BitVec 256) (s : State) :
    Host.Outcome State Fault Refusal :=
  .next (s.serial h fun s =>
    let n := 4097 + kek % 16
    if 0xFFFF ≤ (s.keySlot n).generation then s.failKey h krExhausted
    else if !s.entropyOk then s.failKey h krEntropy
    else if !s.doeSession session || !authentic then (s.setBit Adr.ksEvt 1).failKey h krUnwrap
    else (s.loadInternal n 2 key).finish h (ansSt stOk))

/-- A slot record as KS_SLOT_nnnn gives it; positions that are reserved or past the store read as 0 (R187, R418). -/
def State.slotWord (s : State) (n : Nat) : Word := if 4160 < n then 0 else (s.keySlot n).word

/-- STATUS: 1,024 records from a slot (R187). -/
def execStatus (h : Hdr) (slot : Nat) (s : State) : Host.Outcome State Fault Refusal :=
  .next (s.serial h fun s =>
    if 4607 < slot then s.failKey h krBadSlot
    else (s.dataOut h 4096).finish h (ansData (.words ((List.range 1024).map fun i => s.slotWord (slot + i)))))

/-- One waiting action on a slot that is ACTIVE again (R184, R185): a new key for Format NVM, else the slot emptied. -/
def State.slotAction (s : State) (w : SlotWait) : State :=
  if w.format then
    if !s.entropyOk then s.failCond (.slotActive w.slot) (ansSt stInternal)
    else
      let r := s.random
      r.2.loadKey w.slot (s.keySlot w.slot).use r.1
  else (s.emptySlot w.slot).unbind w.slot

/-- Two courses after a slot entered RETIRING it is ACTIVE, and what waited for it is carried out (R184). -/
def execSlotRetiringEnd (slot : Nat) (s : State) : Host.Outcome State Fault Refusal :=
  match (s.keySlot slot).state with
  | .retiring =>
    let s := s.putKey slot { s.keySlot slot with state := .active }
    let mine := s.slotWaits.filter fun w => w.slot == slot
    let s : State := { s with slotWaits := s.slotWaits.filter fun w => w.slot != slot }
    .next ((mine.foldl State.slotAction s).clearCond (.slotActive slot))
  | _ => .next s

/-! ### Entropy (R186) -/

/-- A health test fails: the DRBG stops, and the mask generators run on without reseeding (R186). -/
def execEntropyFail (s : State) : Host.Outcome State Fault Refusal :=
  let s : State := { s with entropyOk := false }
  .next ((((s.setBit Adr.ksSts 3).setBit Adr.ksSts 4).clrBit Adr.ksSts 2).setBit Adr.ksEvt 2)

/-- A retest of a failed source: the first pass reseeds the DRBG and clears both bits (R186). -/
def execEntropyRetest (pass : Bool) (s : State) : Host.Outcome State Fault Refusal :=
  if s.entropyOk || !pass then .next s
  else
    let s : State := { s with entropyOk := true }
    .next (((s.clrBit Adr.ksSts 3).clrBit Adr.ksSts 4).setBit Adr.ksSts 2)

/-! ### The counter ring (R171, R172) -/

/-- The records that are due: key contexts that wait for their first store after start, and those whose counter has advanced by
2^17 since their last record (R171, R172). -/
def State.dueRecords (s : State) : List (Nat × Nat × BitVec 64) :=
  s.sliceList.flatMap fun n =>
    ((s.slice n).counters.filter fun c => c.waiting || decide (s.ctrP n c.slot + 2 ^ 17 ≤ c.ctr.toNat)).map fun c =>
      (n, c.slot, c.ctr)

/-- Are 400 ms over since the last group store began, or is it the first one after start (R171, R172)? -/
def State.groupMay (s : State) : Bool :=
  s.groupRecs.isNone &&
    (s.slices.any (fun x => x.counters.any KeyCtr.waiting) || decide (s.groupAt + coursesOfMs 400 ≤ s.now))

/-- COUNTER_GROUP_STORE: the due records go to the next pages of the ring (R171). -/
def execCounterGroupStore (s : State) : Host.Outcome State Fault Refusal :=
  let due := s.dueRecords
  if !s.groupMay || due == [] then .next s
  else .next { s with groupAt := s.now, groupRecs := some due }

/-- GROUP_STORE_DONE: the records are in NVM; encryptions that waited for them go on (R171, R172). -/
def execGroupStoreDone (s : State) : Host.Outcome State Fault Refusal :=
  match s.groupRecs with
  | none => .next s
  | some rs =>
    let pages := (rs.length + 255) / 256
    let s := rs.foldl (fun s r => s.setCtrP r.1 r.2.1 r.2.2) s
    let s := s.mapSlices fun x => { x with counters := x.counters.map fun c => { c with waiting := false } }
    let s := s.modNvm fun v =>
      { v.wearPages ((List.range pages).map fun i => 448 + (v.ringPage + i) % 1024) with
        ringPage := (v.ringPage + pages) % 1024, ringStores := v.ringStores + pages }
    let s : State := { s with groupRecs := none }
    .next ((s.wr Adr.ksRing (BitVec.ofNat 32 s.nvm.ringPage)).wr64 Adr.ksStoresLo s.nvm.ringStores)

end Sys2Proof.Machine
end

