-- ==== Sys2Proof/Machine/Store.lean ====
section
/-!
DEFINITION. Meanings of the Store commands (R363 to R367).
-/

namespace Sys2Proof.Machine

/-- Bits of a register that a Store record does not hold (Fields that Store does not record): all of them, or some. -/
def unstored (a : Nat) : Nat :=
  let off := (a - 0x1000000) % 0x400000
  if a = Adr.evRdSel ∨ a = Adr.msExtIdx ∨ (Adr.msExtData 0 ≤ a ∧ a ≤ Adr.msExtData 11) ∨ (0x98000 ≤ a ∧ a < 0x98000 + 4 * 4160) ∨
      (0x91800 ≤ a ∧ a < 0x92000) ∨ a = Adr.ckDevwgt ∨ a = Adr.ckDevwgtH then 0xFFFFFFFF
  else if 0x80100 ≤ a ∧ a < 0x80500 ∧ (a - 0x80100) % 0x40 = 0 then 2 ^ 31
  else if a < 0x1000000 then 0
  else if off = 0x240010 ∨ (0x40308 ≤ off ∧ off ≤ 0x40314) ∨ off = 0x100000 ∨ off = 0x100054 then 0xFFFFFFFF
  else if off = 0x10001C then 0xFF0000
  else if off = 0x100030 then 0x1FF
  else 0

/-- The RW bits of a register that a Store records. -/
def State.storedMask (s : State) (a : Nat) : Word :=
  match rowOf s.part a with
  | none => 0
  | some r => BitVec.ofNat 32 r.rw &&& ~~~(BitVec.ofNat 32 (unstored a))

/-- The value that a register has from the seed CONFIG section, or its Reset value (R363, R366). -/
def State.seedWord (s : State) (a : Nat) : Word :=
  ((((s.image.map SeedImage.seedConfig).getD []).reverse.find? fun q => q.1 == a).map (·.2)).getD (resetWord s.part a)

/-- The RW fields of the vendor window that differ from the seed (R363); a field that is not recorded keeps its seed value. -/
def State.storeFields (s : State) : List (Nat × Word) :=
  let addrs := (s.regs.map (·.1) ++ ((s.image.map SeedImage.seedConfig).getD []).map (·.1)).eraseDups
  addrs.filterMap fun a =>
    let m := s.storedMask a
    let v := s.rd a &&& m
    if v = s.seedWord a &&& m then none else some (a, v ||| (s.seedWord a &&& ~~~m))

/-- The active bond and weight tables with CK_DEVWGT and CK_DEVWGT_H in force (R363). -/
def State.storeBond (s : State) : List (Nat × Word) :=
  (s.regs.filter fun q => decide (0x91000 ≤ q.1 ∧ q.1 < 0x91800) || decide (0x92000 ≤ q.1 ∧ q.1 < 0x98000)) ++
    [(Adr.ckDevwgt, s.course.devwgt), (Adr.ckDevwgtH, s.course.devwgtH)]

/-- The Store record of the state now (R75, R363). -/
def State.storeRecord (s : State) (seq : Nat) : StoreRecord :=
  { seq := seq, layout := (s.image.map SeedImage.layout).getD 0, intact := true, tenants := s.tenants,
    attachments := s.namespaces.map fun x => (x.nsid, x.attachedTis), fields := s.storeFields, bond := s.storeBond }

/-- The status that goes with a Store result (R365). -/
def storeStatus (k : Nat) : Status :=
  if k = 1 then stOk else if k = 2 then stSequence else if k = 3 then stInternal else stField

/-- A Store ends with a result (R365). -/
def State.endStore (s : State) (o : Option Hdr) (k : Nat) : State :=
  let s : State := { s with storeHdr := none }
  let s := ((s.putF Adr.nvStoreSts 3 0 k).clrBit Adr.nvStoreSts 31).setBit Adr.nvEvt 0
  match o with
  | none => s
  | some h => s.finish h (ansReason (storeStatus k) k)

/-- A Store begins: with a token drawn it is BUSY, without one it ends with RATE at once (R365). -/
def State.beginStore (s : State) (o : Option Hdr) : State :=
  if s.nvm.tokens = 0 then s.endStore o 2
  else
    let s := (s.modNvm fun v => { v with tokens := v.tokens - 1 }).setBit Adr.nvStoreSts 31
    let s : State := { s with storeHdr := some o }
    match o with
    | none => s
    | some h => s.answer h (ansSt stOk) [.store]

/-- The next Settings Store in the queue begins (R364). -/
def State.nextStore (s : State) : State :=
  match s.storeNext with
  | [] => s
  | h :: rest => ({ s with storeNext := rest } : State).beginStore (some h)

/-- Settings Store: while a Store is BUSY it runs next (R363, R364). -/
def execSettingsStore (h : Hdr) (s : State) : Host.Outcome State Fault Refusal :=
  .next (s.managed h fun s =>
    if s.storeHdr.isSome then ({ s with storeNext := s.storeNext ++ [h] } : State).answer h (ansSt stOk) [.store]
    else s.serial h fun s => s.beginStore (some h))

/-- NV_STORE_CMD.GO: ignored while a Store is BUSY (R363, R364). -/
def State.storeGo (s : State) : State :=
  if s.storeHdr.isSome then s.setBit Adr.nvStoreSts 30 else s.beginStore none

/-- A write of 1 to NV_STORE_CMD.GO (R364). -/
def execNvStoreGo (s : State) : Host.Outcome State Fault Refusal := .next s.storeGo

/-- Pages that fail read-back are retired and replaced from SPARE, each with a notice, as far as spare pages go (R367). Answers whether every one
was replaced. -/
def State.retirePages (s : State) (partition first : Nat) : Nat → Bool × State
  | 0 => (true, s)
  | n + 1 =>
    let s := (s.setBit Adr.nvEvt 1).notice 0xA partition (first + n) 0
    if s.nvm.spareLeft = 0 then
      (false, s.modNvm fun v => { v with lostPages := mapPut v.lostPages 0 partition ((mapGet v.lostPages partition).getD 0 + 1) })
    else (s.modNvm fun v => { v with spareLeft := v.spareLeft - 1 }).retirePages partition first n

/-- STORE_DONE: the record lies in the bank that was not current and becomes current, or the Store fails (R363, R365, R367). -/
def execStoreDone (badPages recordBytes : Nat) (s : State) : Host.Outcome State Fault Refusal :=
  match s.storeHdr with
  | none => .next s
  | some o =>
    if 262144 < recordBytes then .next ((s.endStore o 4).nextStore)
    else
      let bank := 1 - s.nvm.bank
      let first := 64 + 64 * bank
      let r := s.retirePages 1 first badPages
      let s := r.2.modNvm fun v => v.wearPages ((List.range ((recordBytes + 4095) / 4096)).map fun i => first + i)
      if !r.1 then .next ((s.endStore o 3).nextStore)
      else
        let rec_ := s.storeRecord (((s.nvm.record.map StoreRecord.seq).getD 0) + 1)
        let s := s.modNvm fun v =>
          if bank = 0 then { v with store0 := some rec_, bank := 0 } else { v with store1 := some rec_, bank := 1 }
        .next ((s.endStore o 1).nextStore)

/-- STORE_TOKEN_REFILL: 300 s of ST_MINUTES time give a token, up to 64 (R365). -/
def execStoreTokenRefill (s : State) : Host.Outcome State Fault Refusal :=
  .next (s.modNvm fun v => { v with tokens := min 64 (v.tokens + 1), tokenAt := v.minutes })

end Sys2Proof.Machine
end

