-- ==== Sys2Proof/Machine/ObjectOps.lean ====
section
/-!
DEFINITION. Shared operations of the object service (chapter 11, R254 to R261): where a key lies, the index and its hot cache, the
content of an object on flash, its commit, and the places and digest instances that a Store takes.
-/

namespace Sys2Proof.Machine

/-! ### Keys and places (R254, R255) -/

/-- A key as it is stored: its KL bytes, zeros where fewer were given. -/
def keyNorm (k : KvKey) : KvKey := { k with bytes := (k.bytes ++ List.replicate k.len 0).take k.len }

/-- Is KL within 1 to 16 (R264)? -/
def keyOk (k : KvKey) : Bool := decide (1 ≤ k.len) && decide (k.len ≤ 16)

/-- The zero-padded key that the hot cache matches (R217). -/
def keyPad (k : KvKey) : BitVec 128 := BitVec.ofNat 128 (leValue (k.bytes.take 16))

/-- Where a key lies: slice, cache region, first bucket and size of its namespace's range in that slice, place in the range (R254). -/
structure KeyPlace where
  slice : Nat
  region : Nat
  base : Nat
  size : Nat
  at_ : Nat
  lua : Nat
  luas : Nat

/-- The placement of a key (R254). -/
def placeKey (x : Namespace) (k : KvKey) : KeyPlace :=
  let h := (Config.xxh64 (leBytes 4 x.nsid ++ k.bytes)).toNat
  let i := if x.desc.placement = 1 then h / 2 ^ 56 % x.parts.length else 0
  let size := 2 ^ x.desc.indexLog2
  match x.parts[i]? with
  | none => { slice := 8, region := 0, base := 0, size := size, at_ := 0, lua := 0, luas := 0 }
  | some p =>
    { slice := p.slice, region := h / 2 ^ 55 % 2, base := p.bucketBase, size := size, at_ := h % size, lua := p.base, luas := p.len }

/-- The index entries that a lookup probes, in its order: 8 buckets of 4, wrapping within the range (R255). -/
def KeyPlace.probes (q : KeyPlace) : List Nat :=
  (List.range 8).flatMap fun k => (List.range 4).map fun e => 4 * (q.base + (q.at_ + k) % q.size) + e

/-- Does an entry hold a key? -/
def IndexEntry.holds (e : IndexEntry) (nsid : Nat) (k : KvKey) : Bool := e.nsid == nsid && e.key == k

/-- The first LIVE entry of a key among some places, unless a FREE one comes first (R255). -/
def probeFor (ix : List (Nat × IndexEntry)) (nsid : Nat) (k : KvKey) : List Nat → Option Nat
  | [] => none
  | p :: l =>
    match mapGet ix p with
    | none => none
    | some e => if e.holds nsid k && e.state == .live then some p else probeFor ix nsid k l

/-- The place that an insertion takes: the first TOMB or FREE entry (R255). -/
def probeFree (ix : List (Nat × IndexEntry)) (l : List Nat) : Option Nat :=
  l.find? fun p => (mapGet ix p).all fun e => e.state == .tomb

/-! ### The hot cache (R217, R218, R221, R222) -/

/-- The partition of array r that caches a namespace's keys. -/
def State.cachePart (s : State) (n r : Nat) (x : Namespace) : Option Nat :=
  if x.desc.sealedTi < 0x100 then s.sealedPart n r x.desc.sealedTi
  else (List.range 16).find? fun p => s.partKind n r p == 1

/-- Does the cache take part: the array is ACTIVE and not SUSPENDED (R221, R222)? -/
def State.cacheOn (s : State) (n r : Nat) : Bool := s.active (UnitId.array n r) && s.searchRate n r != 3

/-- RESULT of a cache entry: the place of an index entry (Index result word). -/
def resultOf (p : Nat) : BitVec 32 := BitVec.ofNat 32 (p % 4 * 2 ^ 25 + p / 4 % 2 ^ 25)

/-- The place that a RESULT names. -/
def placeOf (w : BitVec 32) : Nat := 4 * (w.toNat % 2 ^ 25) + w.toNat / 2 ^ 25 % 4

/-- The verification loop: candidates of the cache, lowest first, at most RESUME_MAX resumptions; searches and resumptions are
counted (R217). -/
def State.cacheLookup (s : State) (q : KeyPlace) (x : Namespace) (k : KvKey) : Option Nat × State :=
  match s.cachePart q.slice q.region x with
  | none => (none, s)
  | some p =>
    if !s.cacheOn q.slice q.region then (none, s)
    else
      let n := q.slice
      let hits := (matchesFrom (s.array n q.region).entries (s.partBase n q.region p) (s.partSize n q.region p) 0 (keyPad k)).take
        (s.fld (Adr.asCfg n) 15 8 + 1)
      let good (e : Nat × SearchEntry) : Bool :=
        (mapGet (s.slice n).index (placeOf e.2.result)).any fun i => i.holds x.nsid k && i.state == .live
      let tried := max 1 (min hits.length (hits.findIdx good + 1))
      let s := (s.countSearches n q.region tried false).addF (Adr.asResumes n q.region) 31 0 (tried - 1)
      ((hits.find? good).map fun e => placeOf e.2.result, s)

/-- An entry of the cache replaced by one for a key after a DRAM lookup that hit; where the clock sweep stands is a free value (R218;
log entry 4). -/
def State.cacheInsert (s : State) (q : KeyPlace) (x : Namespace) (k : KvKey) (place : Nat) : State :=
  match s.cachePart q.slice q.region x with
  | none => s
  | some p =>
    let size := s.partSize q.slice q.region p
    if !s.cacheOn q.slice q.region || size == 0 then s
    else
      let f := s.free
      let a := s.partBase q.slice q.region p + f.1 % size
      let e : SearchEntry := { key := keyPad k, mask := BitVec.allOnes 128, result := resultOf place, valid := true }
      f.2.modArray q.slice q.region fun y => { y with entries := mapInsert y.entries a e, shadow := mapInsert y.shadow a e }

/-- The cache entries of a key that name its place invalidated (R218, R262). -/
def State.cacheDrop (s : State) (q : KeyPlace) (k : KvKey) (place : Nat) : State :=
  if !s.cacheOn q.slice q.region then s
  else
    let keep (e : Nat × SearchEntry) : Bool := !(e.2.key == keyPad k && e.2.result == resultOf place)
    s.modArray q.slice q.region fun y => { y with entries := y.entries.filter keep, shadow := y.shadow.filter keep }

/-- The place of a key's LIVE entry: the cache, then the DRAM index, which fills the cache (R255, R217, R218). -/
def State.lookup (s : State) (q : KeyPlace) (x : Namespace) (k : KvKey) : Option Nat × State :=
  let c := s.cacheLookup q x k
  match c.1 with
  | some _ => c
  | none =>
    match probeFor (c.2.slice q.slice).index x.nsid k q.probes with
    | none => (none, c.2)
    | some p => (some p, c.2.cacheInsert q x k p)

/-- The record that a place names. -/
def Slice.recordAt (x : Slice) (place : Nat) : Option ObjRecord :=
  match mapGet x.index place with
  | none => none
  | some e => mapGet x.objects e.record

/-! ### Content (R257) -/

/-- Bytes of a list cut into logical blocks, the last one filled with zeros. -/
def toBlocks (bs : List Byte) : List Block :=
  (List.range ((bs.length + 4095) / 4096)).map fun k => BitVec.ofNat 32768 (leValue ((bs.drop (4096 * k)).take 4096))

/-- The bytes of some blocks. -/
def fromBlocks (l : List Block) : List Byte := l.flatMap fun b => leBytes 4096 b.toNat

/-- A byte list filled with zeros to n bytes. -/
def fillTo (n : Nat) (bs : List Byte) : List Byte := (bs ++ List.replicate n 0).take n

/-- Is the value inline in the record (R257)? -/
def inlineLen (n : Nat) : Bool := decide (n ≤ 4096)

/-- The extents of a record: first LUA relative to the namespace's range, and MU count (R257). -/
def ObjRecord.extents (o : ObjRecord) (base : Nat) : List (Nat × Nat) := (runs o.luas).map fun r => (r.1 - base, r.2)

/-- Bytes 0 to 127 of an object record (Object record). -/
def ObjRecord.header (o : ObjRecord) : List Byte :=
  leBytes 4 0x53464F52 ++ leBytes 1 o.key.len ++ leBytes 1 (bit01 (inlineLen o.value.length)) ++ leBytes 1 o.alg ++ leBytes 1 0 ++
    fillTo 16 o.key.bytes ++ leBytes 4 o.value.length ++ leBytes 2 o.version.toNat ++ leBytes 2 (runs o.luas).length ++
    fillTo 64 o.digest ++ leBytes 8 o.commitCourse ++ List.replicate 24 0

/-- An object record as its unit holds it (R257). -/
def ObjRecord.bytes (o : ObjRecord) (base : Nat) : List Byte :=
  o.header ++ (if inlineLen o.value.length then o.value
    else (o.extents base).flatMap fun e => leBytes 4 e.1 ++ leBytes 4 e.2)

/-- Blocks of a unit of slice n read, the first failure being the status (R60, R168, R261). -/
def State.readUnit (s : State) (n i count : Nat) : Except Status (List Block) :=
  (List.range count).foldlM (fun (l : List Block) b =>
    match s.readBlock n i b with
    | .ok d => Except.ok (l ++ [d])
    | .fail st => Except.error st) []

/-- The bytes of an object as flash and the buffer give them: record bytes, and the value from an offset on, for some bytes (R261). -/
def State.readObject (s : State) (n : Nat) (o : ObjRecord) (offset len : Nat) : Except Status (List Byte × List Byte) :=
  let mu := s.mu n * 4096
  match s.readUnit n o.recordLua (min (s.mu n) ((128 + o.value.length + 4095) / 4096)) with
  | .error e => .error e
  | .ok r =>
    let rec_ := fromBlocks r
    if inlineLen o.value.length then .ok (rec_.take 128, ((rec_.drop 128).take o.value.length |>.drop offset).take len)
    else
      let units := (List.range o.luas.length).filter fun j => decide (offset < (j + 1) * mu) && decide (j * mu < offset + len)
      match units.foldlM (fun (l : List Byte) j =>
          match s.readUnit n ((o.luas[j]?).getD 0) (s.mu n) with
          | .ok bs => Except.ok (l ++ (fromBlocks bs).take (o.value.length - j * mu))
          | .error e => Except.error e) [] with
      | .error e => .error e
      | .ok bs => .ok (rec_.take 128, (bs.drop (offset - (units.head?.getD 0) * mu)).take len)

/-- The flash reads of a read of an object for a command that has its answer (R124, R131). -/
def State.countObject (s : State) (h : Hdr) (n : Nat) (o : ObjRecord) (offset len : Nat) : State :=
  let mu := s.mu n * 4096
  let units := ((List.range o.luas.length).filter fun j => decide (offset < (j + 1) * mu) && decide (j * mu < offset + len)).map fun j =>
    (o.luas[j]?).getD 0
  (o.recordLua :: units).foldl (fun s i => s.senseBlocks h n i (List.range (s.mu n))) s

/-! ### Digests (R260, R309) -/

/-- A message with the padding and the length that hub firmware supplies (R260; FIPS 180-4 and FIPS 202, log entry 6). -/
def padMessage (alg : Nat) (bs : List Byte) : List Byte :=
  let blk := digestBlock alg
  if 4 ≤ alg then
    let gap := blk - bs.length % blk
    bs ++ (if gap = 1 then [0x86] else [0x06] ++ List.replicate (gap - 2) 0 ++ [0x80])
  else
    let lenBytes := if alg = 1 then 8 else 16
    let zeros := (blk - (bs.length + 1 + lenBytes) % blk) % blk
    bs ++ [0x80] ++ List.replicate zeros 0 ++ (leBytes lenBytes (8 * bs.length)).reverse

/-- The fixity digest of a value; none for algorithm 0 (R260). -/
def fixityOf (alg : Nat) (bs : List Byte) : List Byte := if alg = 0 then [] else Config.digest alg none (padMessage alg bs)

/-- An instance takes an object's message and holds it (R260). -/
def State.takeInstance (s : State) (inst : Option Nat) (owner alg total : Nat) : State :=
  match inst with
  | none => s
  | some i => s.openDigest i owner alg none (padMessage alg (List.replicate total 0)).length (.buffer 0)

/-- Bytes of an object pass an instance (R260, DG_INST_BYTES). -/
def State.feedInstance (s : State) (inst : Option Nat) (bs : List Byte) : State :=
  match inst with
  | none => s
  | some i =>
    match s.digestMsg i with
    | none => s
    | some m =>
      let m := { m with arrived := m.arrived + bs.length, data := m.data ++ bs }
      ({ s with digests := mapInsert s.digests i m } : State).wr64 (Adr.dgInstBytesLo i) (min m.arrived m.decl)

/-- An object's instance is free again. -/
def State.leaveInstance (s : State) (inst : Option Nat) : State :=
  match inst with
  | none => s
  | some i => s.freeDigest i

/-- The open ingests of an owner in slice n (R260). -/
def Slice.ingestsOf (x : Slice) (owner : Nat) : List Ingest := x.ingests.filter fun g => g.owner == owner

/-- The requests of an owner that still wait for an instance or an ingest place, first in first out (R260). -/
def State.waitsOf (s : State) (owner : Nat) : List Hdr :=
  ((s.digestWaits.filter fun w => w.1 == owner).map Prod.snd).filter fun h => (s.inFlight h).any fun y => y.phase == .held

/-- What free place an opening request of an owner takes: without fixity one of 64 ingest places in the slice (when it opens an
ingest or stores), with fixity the lowest free instance (R260). -/
def State.freePlace (s : State) (owner alg n : Nat) (store : Bool) : Option (Option Nat) :=
  if alg = 0 then if !store || decide (((s.slice n).ingestsOf owner).length < 64) then some none else none
  else (s.freeInstance owner).map some

/-- A request takes its place, waits in its owner's FIFO of 256, or finds it full (R260). -/
def State.withPlace (s : State) (h : Hdr) (alg n : Nat) (store : Bool)
    (f : Option Nat → State → State) : State :=
  let owner := ctrlOwner h.ctrl
  let waits := s.waitsOf owner
  let s : State := { s with digestWaits := s.digestWaits.filter fun w => w.1 != owner || waits.contains w.2 }
  let turn := waits.head?.all fun w => w == h
  match if turn then s.freePlace owner alg n store else none with
  | some i => f i { s with digestWaits := s.digestWaits.filter fun w => w.2 != h }
  | none =>
    if waits.contains h then s.hold h
    else if 256 ≤ waits.length then s.finish h (ansSt stDigestBusy)
    else ({ s with digestWaits := s.digestWaits ++ [(owner, h)] } : State).hold h

/-! ### Commands that name a key (R59, R258, R264) -/

/-- Invalid Key Size. -/
def stKeySize : Status := mkSt 1 0x86 true
/-- Invalid Value Size. -/
def stValueSize : Status := mkSt 1 0x85 true
/-- KV Key Does Not Exist. -/
def stNoKey : Status := mkSt 1 0x87 true
/-- Key Exists. -/
def stKeyExists : Status := mkSt 1 0x89 true
/-- Capacity Exceeded. -/
def stCapacityExceeded : Status := mkSt 0 0x81 true

/-- Is an earlier command of the same queue on the same key fetched and not executed (R59, R258)? -/
def State.behindKey (s : State) (h : Hdr) (nsid : Nat) (k : KvKey) : Bool :=
  s.behindAny h fun e => e.nsid == nsid && e.key.any fun g => keyNorm g == k

/-- An object command on a key: KL within 1 to 16, after every earlier one of its queue on the key, in a slice that is online (R59,
R258, R264, R384). -/
def State.keyCmd (s : State) (h : Hdr) (nsid : Nat) (key : KvKey) (f : Namespace → KvKey → KeyPlace → State → State) : State :=
  s.ioCmd h nsid .object fun x s =>
    if !keyOk key then s.finish h (ansAt stKeySize nsid 0)
    else
      let k := keyNorm key
      let q := placeKey x k
      if s.behindKey h nsid k then s.hold h
      else if !s.nsUp x q.slice then s.finish h (ansAt stOffline nsid 0)
      else f x k q s

/-! ### Allocation and commit (R256, R257, R259) -/

/-- LUAs of a range that objects and ingests hold. -/
def Slice.usedLuas (x : Slice) : List Nat :=
  x.objects.flatMap (fun o => o.2.recordLua :: o.2.luas) ++ x.ingests.flatMap Ingest.luas

/-- The lowest free LUAs of a namespace's range in a slice: the value's MUs, then the record's (R257); none where the range is full or
the value needs more extents than a record holds. The order is the model's (log entry 62). -/
def State.allocLuas (s : State) (q : KeyPlace) (len : Nat) : Option (List Nat) :=
  let mu := s.mu q.slice * 4096
  let need := if inlineLen len then 0 else (len + mu - 1) / mu
  let used := (s.slice q.slice).usedLuas
  let free := ((List.range q.luas).map fun k => q.lua + k).filter fun i => !used.contains i
  let got := free.take (need + 1)
  if got.length < need + 1 ∨ (mu - 128) / 8 < (runs (got.take need)).length then none else some got

/-- A unit of slice n written whole: its bytes, then zeros (R257). Answers the version and its blocks. -/
def State.writeUnit (s : State) (q : KeyPlace) (nsid owner i : Nat) (bs : List Byte) : (Nat × Nat × List Nat) × State :=
  let n := q.slice
  let blocks := toBlocks (fillTo (s.mu n * 4096) bs)
  blocks.zipIdx.foldl (fun (a : (Nat × Nat × List Nat) × State) b =>
    let r := a.2.bufferBlock n nsid (i - q.lua) i b.2 b.1 owner
    ((n, r.1, a.1.2.2 ++ [b.2]), r.2)) ((n, 0, []), s)

/-- Some units written, each with its bytes. -/
def State.writeUnits (s : State) (q : KeyPlace) (nsid owner : Nat) (l : List (Nat × List Byte)) : List (Nat × Nat × List Nat) × State :=
  l.foldl (fun (a : List (Nat × Nat × List Nat) × State) u =>
    let r := a.2.writeUnit q nsid owner u.1 u.2
    (a.1 ++ [r.1], r.2)) ([], s)

/-- The units of a part of a value: from MU number first on. -/
def cutUnits (mu first : Nat) (luas : List Nat) (bs : List Byte) : List (Nat × List Byte) :=
  (List.range ((bs.length + mu - 1) / mu)).filterMap fun j =>
    (luas[first + j]?).map fun i => (i, (bs.drop (j * mu)).take mu)

/-- LUAs allocated to an ingest, recorded in the delta journal (R256). -/
def Slice.recordIngest (x : Slice) (id : Nat) (luas : List Nat) : Slice :=
  { x with journal := x.journal ++ luas.map fun i => .ingestLua id i }

/-- An index entry changed, its delta appended first (R256). -/
def Slice.putIndex (x : Slice) (p : Nat) (e : IndexEntry) : Slice :=
  { x with journal := x.journal ++ [.indexEntry p (some e)], index := mapInsert x.index p e }

/-- An object version that no entry names any more: its LUAs become UNMAPPED unless an export holds it (R259, R262, R266). -/
def State.retireRecord (s : State) (n id : Nat) : State :=
  if (s.slice n).pins.any fun p => p.record == some id then s
  else
    let ls := ((mapGet (s.slice n).objects id).map fun o => o.recordLua :: o.luas).getD []
    let s := ((s.slice n).versions.filter fun v => ls.contains v.index).foldl (fun s v => s.clearCond (.programmed n v.wslot)) s
    s.modSlice n fun x => x.dropRecord id

/-- The next object number of a slice. -/
def Slice.nextObject (x : Slice) : Nat := x.objects.foldl (fun m o => max m (o.1 + 1)) 1

/-- An object commits: the record is written and the index entry switches to it, VERSION rises, the old version goes (R255, R257, R259).
Answers what the record's unit wrote. -/
def State.commitObject (s : State) (q : KeyPlace) (x : Namespace) (k : KvKey) (owner place : Nat) (value : List Byte) (luas : List Nat)
    (recordLua : Nat) (digest : List Byte) : List (Nat × Nat × List Nat) × State :=
  let n := q.slice
  let old := (mapGet (s.slice n).index place).filter fun e => e.holds x.nsid k && e.state == .live
  let id := (s.slice n).nextObject
  let version : BitVec 16 := match old with
    | none => 1
    | some e => e.version + 1
  let o : ObjRecord :=
    { id := id, nsid := x.nsid, key := k, alg := x.desc.fixity, version := version, value := value, luas := luas,
      recordLua := recordLua, digest := digest, commitCourse := s.now }
  let s := s.modSlice n fun y => { y with objects := mapInsert y.objects id o }
  let w := s.writeUnits q x.nsid owner [(recordLua, o.bytes q.lua)]
  let s := w.2.modSlice n fun y => y.putIndex place { nsid := x.nsid, key := k, state := .live, version := version, record := id }
  (w.1, match old with
    | none => s
    | some e => s.retireRecord n e.record)

end Sys2Proof.Machine
end

