-- ==== Sys2Proof/Machine/Bpf.lean ====
section
/-!
DEFINITION. eBPF programs (R245 to R247): the verifier, and what the translated code of a verified program does, instruction by instruction (RFC 9669;
log entries 8, 51).
-/

namespace Sys2Proof.Machine

/-! ### The eBPF verifier (R241, R245; instruction encodings of RFC 9669, log entry 8) -/

/-- The slot that 8 bytes spell. -/
def bpfInsn (bs : List Byte) : BpfInsn :=
  let b (k : Nat) : Nat := ((bs[k]?).map BitVec.toNat).getD 0
  { op := b 0, dst := b 1 % 16, src := b 1 / 16, off := (BitVec.ofNat 16 (b 2 + 256 * b 3)).toInt, imm := leValue ((bs.drop 4).take 4) }

/-- The slots of a program. -/
def bpfSlots (bs : List Byte) : List BpfInsn := (List.range (bs.length / 8)).map fun k => bpfInsn ((bs.drop (8 * k)).take 8)

/-- Is the instruction the first slot of a wide one? -/
def BpfInsn.wide (i : BpfInsn) : Bool := i.op == 0x18

/-- Is an arithmetic instruction in base32, base64, divmul32 or divmul64? -/
def BpfInsn.aluOk (i : BpfInsn) : Bool :=
  let code := i.op / 16
  let useReg := i.op / 8 % 2 == 1
  let is64 := i.op % 8 == 7
  let plain := if useReg then i.imm == 0 else i.src == 0
  if code = 8 then !useReg && i.src == 0 && i.imm == 0 && i.off == 0
  else if code = 13 then (!is64 || !useReg) && i.src == 0 && i.off == 0 && [16, 32, 64].contains i.imm
  else if code = 3 ∨ code = 9 then plain && (i.off == 0 || i.off == 1)
  else if code = 11 then plain && (i.off == 0 || (useReg && (i.off == 8 || i.off == 16 || (is64 && i.off == 32))))
  else decide (code ≤ 12) && plain && i.off == 0

/-- Is a jump, call or exit in base32 or base64: callx is not? -/
def BpfInsn.jmpOk (i : BpfInsn) : Bool :=
  let code := i.op / 16
  let useReg := i.op / 8 % 2 == 1
  let is64 := i.op % 8 == 5
  if code = 0 then !useReg && i.src == 0 && (if is64 then i.imm == 0 else i.off == 0)
  else if code = 8 then is64 && !useReg && decide (i.src ≤ 2) && i.off == 0
  else if code = 9 then is64 && !useReg && i.src == 0 && i.imm == 0 && i.off == 0
  else decide (code ≤ 13) && (if useReg then i.imm == 0 else i.src == 0)

/-- Is the instruction in an accepted conformance group: atomic32 and atomic64 too, the legacy packet accesses not (R245)? -/
def BpfInsn.accepted (i : BpfInsn) : Bool :=
  decide (i.dst ≤ 10) && decide (i.src ≤ 10) &&
    (match i.op % 8 with
     | 0 => i.op == 0x18
     | 1 => [0x61, 0x69, 0x71, 0x79, 0x81, 0x89, 0x91].contains i.op && i.imm == 0
     | 2 => [0x62, 0x6A, 0x72, 0x7A].contains i.op && i.src == 0
     | 3 => ([0x63, 0x6B, 0x73, 0x7B].contains i.op && i.imm == 0) ||
        ([0xC3, 0xDB].contains i.op && [0, 1, 0x40, 0x41, 0x50, 0x51, 0xA0, 0xA1, 0xE1, 0xF1].contains i.imm)
     | 4 => i.aluOk
     | 7 => i.aluOk
     | _ => i.jmpOk)

/-- The instructions of a program, each with its slot; the second slot of a wide one is none. -/
def bpfInsns (l : List BpfInsn) : List (Nat × BpfInsn) :=
  (l.zipIdx.foldl (fun (a : List (Nat × BpfInsn) × Bool) p =>
    if a.2 then (a.1, false) else (a.1 ++ [(p.2, p.1)], p.1.wide)) ([], false)).1

/-- Where an instruction jumps or calls to, if it does. -/
def BpfInsn.target (i : BpfInsn) (at_ : Nat) : Option Int :=
  let code := i.op / 16
  let imm : Int := (BitVec.ofNat 32 i.imm).toInt
  if i.op % 8 = 5 then
    if code = 9 then none
    else if code = 8 then if i.src = 1 then some (at_ + 1 + imm) else none
    else some (at_ + 1 + i.off)
  else if i.op % 8 = 6 then if code = 0 then some (at_ + 1 + imm) else some (at_ + 1 + i.off)
  else none

/-- Is the instruction a local call? -/
def BpfInsn.localCall (i : BpfInsn) : Bool := i.op == 0x85 && i.src == 1

/-- The local functions that some functions call: a function runs from its start to the next start. -/
def calledBy (l : List (Nat × BpfInsn)) (starts fs : List Nat) : List Nat :=
  let owner (at_ : Nat) : Nat := (starts.filter fun s => decide (s ≤ at_)).foldl max 0
  ((l.filter fun p => p.2.localCall && fs.contains (owner p.1)).filterMap fun p => (p.2.target p.1).map Int.toNat).eraseDups

/-- The functions at each depth of calls below some functions; those left after n calls. -/
def callsDeep (l : List (Nat × BpfInsn)) (starts : List Nat) : Nat → List Nat → List Nat
  | 0, fs => fs
  | n + 1, fs => callsDeep l starts n (calledBy l starts fs)

/-- Load reasons (R241): 0 when the verifier accepts the program (R245). -/
def bpfReason (bs : List Byte) : Nat :=
  let slots := bpfSlots bs
  let l := bpfInsns slots
  let lands (t : Int) : Bool := decide (0 ≤ t) && l.any fun p => p.1 == t.toNat
  let starts := 0 :: (l.filterMap fun p => if p.2.localCall then (p.2.target p.1).map Int.toNat else none)
  let complete := l.all fun p => !p.2.wide || (slots[p.1 + 1]?).any fun q => q.op == 0
  let last := (l.getLast?).any fun p => p.2.op == 0x95 || p.2.op == 0x05 || p.2.op == 0x06
  if bs.length % 8 ≠ 0 ∨ bs = [] ∨ !complete ∨ l.any (fun p => !p.2.accepted) then 2
  else if !last ∨ l.any fun p => (p.2.target p.1).any fun t => !lands t then 3
  else if l.any fun p => p.2.op == 0x85 && (p.2.src == 2 || (p.2.src == 0 && !(decide (1 ≤ p.2.imm) && decide (p.2.imm ≤ 10)))) then 4
  else if !(callsDeep l starts 9 [0]).isEmpty then 5
  else if l.any fun p => p.2.wide && p.2.src != 0 then 6
  else 0

/-! ### Addresses (R246) -/

/-- Slice and base address of a memory namespace (R249). -/
def Namespace.memPlace (x : Namespace) : Nat × Nat := ((x.parts.head?).map fun p => (p.slice, p.memBase)).getD (8, 0)

/-- Base and length of the ranges of an invocation, which stand at their addresses in slice memory (R246, R250; log entry 51). -/
def State.vmRanges (s : State) (v : Invocation) : List (Nat × Nat) :=
  v.ranges.filterMap fun r => (s.ns r.nsid).map fun x => (x.memPlace.2 + r.offset, r.length)

/-- Address of the read-only copy of the parameters (R246). -/
def Invocation.paramBase (v : Invocation) : Nat := 2 ^ 61 + Config.bpfPlace 0 v.id % 2 ^ 60

/-- Lowest address of the 512 bytes of a stack frame, by its depth (R245). -/
def Invocation.frameBase (v : Invocation) (depth : Nat) : Nat := 2 ^ 62 + Config.bpfPlace 1 v.id % 2 ^ 60 + 512 * depth

/-- Where an access of an eBPF program lies. -/
inductive VmPlace where
  | memory | param | frame | outside
  deriving DecidableEq, Repr

/-- Where the bytes from an address on lie: in a range of the invocation, in the parameter copy, in the current frame, or outside (R246). -/
def State.vmPlace (s : State) (v : Invocation) (m : Vm) (a len : Nat) : VmPlace :=
  let within (base size : Nat) : Bool := decide (base ≤ a) && decide (a + len ≤ base + size)
  if within (v.frameBase m.frames.length) 512 then .frame
  else if within v.paramBase v.params.length then .param
  else if (s.vmRanges v).any (fun r => within r.1 r.2) then .memory
  else .outside

/-- The bytes that a load gives; none where it ends the item with FAULT: an address outside, or a poisoned line (R246, R298). -/
def State.vmLoad (s : State) (v : Invocation) (m : Vm) (a len : Nat) : Option (List Byte) :=
  match s.vmPlace v m a len with
  | .frame => some ((List.range len).map fun k => (mapGet m.stack (a + k)).getD (Config.bpfByte v.id (a + k)))
  | .param => some ((v.params.drop (a - v.paramBase)).take len)
  | .memory => if s.memPoisoned v.slice a len then none else some (memRead (s.slice v.slice).slm a len)
  | .outside => none

/-- Bytes put into a stack. -/
def stackPut (l : List (Nat × Byte)) (a : Nat) : List Byte → List (Nat × Byte)
  | [] => l
  | b :: bs => stackPut (mapInsert l a b) (a + 1) bs

/-- Bytes stored; none where the address is not one to store to, which ends the item with FAULT (R246). -/
def State.vmStore (s : State) (v : Invocation) (m : Vm) (a : Nat) (bs : List Byte) : Option (Vm × State) :=
  match s.vmPlace v m a bs.length with
  | .frame => some ({ m with stack := stackPut m.stack a bs }, s)
  | .memory => some (m, (s.memStore v.slice a bs).dramAsk v.slice (portCore v.cluster) v.owner a bs.length true)
  | _ => none

/-! ### Registers and arithmetic (RFC 9669) -/

/-- A register. -/
def Vm.reg (m : Vm) (k : Nat) : BitVec 64 := (m.regs[k]?).getD 0

/-- A register written. -/
def Vm.put (m : Vm) (k : Nat) (w : BitVec 64) : Vm := { m with regs := modAt m.regs k fun _ => w }

/-- On to the next instruction, a number of slots further. -/
def Vm.skip (m : Vm) (k : Nat) : Vm := { m with pc := m.pc + k }

/-- The immediate, sign-extended. -/
def BpfInsn.value (i : BpfInsn) : BitVec 64 := (BitVec.ofNat 32 i.imm).signExtend 64

/-- Does the instruction take register src, not its immediate? -/
def BpfInsn.useReg (i : BpfInsn) : Bool := i.op / 8 % 2 == 1

/-- Arithmetic of a width: division by zero gives 0, modulo by zero leaves the destination (R246, RFC 9669). -/
def bpfAlu {w : Nat} (code : Nat) (off : Int) (a b : BitVec w) : BitVec w :=
  match code with
  | 0 => a + b
  | 1 => a - b
  | 2 => a * b
  | 3 => if b = 0 then 0 else if off = 1 then a.sdiv b else a / b
  | 4 => a ||| b
  | 5 => a &&& b
  | 6 => a <<< (b.toNat % w)
  | 7 => a >>> (b.toNat % w)
  | 8 => -a
  | 9 => if b = 0 then a else if off = 1 then a.srem b else a % b
  | 10 => a ^^^ b
  | 11 => if off = 0 then b else (b.truncate off.toNat).signExtend w
  | _ => a.sshiftRight (b.toNat % w)

/-- The low bits of a value as they stand, or with their bytes in the other order (RFC 9669, byte swap). -/
def bpfSwap (swap : Bool) (bits : Nat) (a : BitVec 64) : BitVec 64 :=
  let bs := leBytes (bits / 8) a.toNat
  BitVec.ofNat 64 (leValue (if swap then bs.reverse else bs))

/-- An arithmetic instruction. -/
def Vm.alu (m : Vm) (i : BpfInsn) : Vm :=
  let code := i.op / 16
  let is64 := i.op % 8 == 7
  let a := m.reg i.dst
  let b := if i.useReg then m.reg i.src else i.value
  (m.put i.dst (
    if code = 13 then bpfSwap (is64 || i.useReg) i.imm a
    else if is64 then bpfAlu code i.off a b
    else (bpfAlu code i.off (a.truncate 32) (b.truncate 32)).zeroExtend 64)).skip 1

/-- Is a jump of a width taken (RFC 9669)? -/
def bpfTaken {w : Nat} (code : Nat) (a b : BitVec w) : Bool :=
  match code with
  | 0 => true
  | 1 => a == b
  | 2 => decide (b.toNat < a.toNat)
  | 3 => decide (b.toNat ≤ a.toNat)
  | 4 => a &&& b != 0
  | 5 => a != b
  | 6 => decide (b.toInt < a.toInt)
  | 7 => decide (b.toInt ≤ a.toInt)
  | 10 => decide (a.toNat < b.toNat)
  | 11 => decide (a.toNat ≤ b.toNat)
  | 12 => decide (a.toInt < b.toInt)
  | _ => decide (a.toInt ≤ b.toInt)

/-- A jump instruction. -/
def Vm.jump (m : Vm) (i : BpfInsn) : Vm :=
  let code := i.op / 16
  let a := m.reg i.dst
  let b := if i.useReg then m.reg i.src else i.value
  let taken := if i.op % 8 = 5 then bpfTaken code a b else bpfTaken code (a.truncate 32) (b.truncate 32)
  if taken then { m with pc := ((i.target m.pc).getD 0).toNat } else m.skip 1

/-- Bytes of a load or store, by the size field of its opcode. -/
def BpfInsn.size (i : BpfInsn) : Nat :=
  match i.op / 8 % 4 with
  | 0 => 4
  | 1 => 2
  | 2 => 1
  | _ => 8

/-- What an atomic operation makes of the value in memory, from its immediate without FETCH, the source and register 0 (RFC 9669). -/
def bpfAtomic {w : Nat} (imm : Nat) (old src r0 : BitVec w) : BitVec w :=
  match imm / 16 with
  | 0 => old + src
  | 4 => old ||| src
  | 5 => old &&& src
  | 10 => old ^^^ src
  | 14 => src
  | _ => if old = r0 then src else old

/-- A local call: registers 6 to 9 are kept for the caller, and register 10 names the new frame (R245). -/
def Vm.enter (m : Vm) (v : Invocation) (dest : Nat) : Vm :=
  let frames := m.frames ++ [{ ret := m.pc + 1, saved := (m.regs.drop 6).take 4 }]
  ({ m with pc := dest, frames := frames }).put 10 (BitVec.ofNat 64 (v.frameBase frames.length + 512))

/-- The return from a local call; the frame's bytes are gone. -/
def Vm.leave (m : Vm) (v : Invocation) (f : BpfFrame) : Vm :=
  let frames := m.frames.dropLast
  let low := v.frameBase m.frames.length
  ({ m with pc := f.ret, frames := frames, regs := m.regs.take 6 ++ f.saved ++ m.regs.drop 10,
            stack := m.stack.filter fun c => decide (c.1 < low) }).put 10 (BitVec.ofNat 64 (v.frameBase frames.length + 512))

/-! ### One instruction -/

/-- What an instruction comes to: on to the next one, a helper call, the program's exit, or FAULT. -/
inductive VmNext where
  | run (m : Vm) (s : State)
  | helper (number : Nat)
  | exit
  | fault

/-- A load, store or atomic instruction (RFC 9669). -/
def State.vmMemory (s : State) (v : Invocation) (m : Vm) (i : BpfInsn) : VmNext :=
  let at_ (k : Nat) : Nat := (m.reg k + BitVec.ofInt 64 i.off).toNat
  let n := i.size
  let store (w : BitVec 64) (f : Vm → Vm) : VmNext :=
    match s.vmStore v m (at_ i.dst) (leBytes n w.toNat) with
    | none => .fault
    | some (m, s) => .run ((f m).skip 1) s
  match i.op % 8 with
  | 1 =>
    match s.vmLoad v m (at_ i.src) n with
    | none => .fault
    | some bs =>
      let w := BitVec.ofNat 64 (leValue bs)
      .run ((m.put i.dst (if i.op / 32 = 4 then (w.truncate (8 * n)).signExtend 64 else w)).skip 1) s
  | 2 => store i.value id
  | _ =>
    if i.op / 32 = 3 then store (m.reg i.src) id
    else
      match s.vmLoad v m (at_ i.dst) n with
      | none => .fault
      | some bs =>
        let old := BitVec.ofNat 64 (leValue bs)
        let new := if n = 4 then (bpfAtomic i.imm (old.truncate 32) ((m.reg i.src).truncate 32) ((m.reg 0).truncate 32)).zeroExtend 64
          else bpfAtomic i.imm old (m.reg i.src) (m.reg 0)
        store new fun m => if i.imm % 2 = 0 then m else if i.imm = 0xF1 then m.put 0 old else m.put i.src old

/-- One instruction of a verified program (RFC 9669). -/
def State.vmStep (s : State) (v : Invocation) (m : Vm) (i : BpfInsn) : VmNext :=
  match i.op % 8 with
  | 0 => .run ((m.put i.dst (BitVec.ofNat 64 (i.imm + 2 ^ 32 * ((m.code[m.pc + 1]?).map BpfInsn.imm).getD 0))).skip 2) s
  | 4 => .run (m.alu i) s
  | 7 => .run (m.alu i) s
  | 1 => s.vmMemory v m i
  | 2 => s.vmMemory v m i
  | 3 => s.vmMemory v m i
  | _ =>
    if i.op = 0x85 then if i.src = 1 then .run (m.enter v ((i.target m.pc).getD 0).toNat) s else .helper i.imm
    else if i.op = 0x95 then
      match m.frames.getLast? with
      | none => .exit
      | some f => .run (m.leave v f) s
    else .run (m.jump i) s

/-- Is the instruction one at which the budget is tested: a backward jump, a call or a helper call (R246)? -/
def Vm.tests (m : Vm) (i : BpfInsn) : Bool := i.op == 0x85 || (i.target m.pc).any fun t => decide (t ≤ (m.pc : Int))

end Sys2Proof.Machine
end

