-- ==== Sys2Proof/Machine/Sched.lean ====
section
/-!
DEFINITION. Meanings of the scheduler's primitives and of what happens to work items, operands and delay entries (R223 to R239). A
primitive of a slot that is not RUNNING is issued by no core and has no effect.
-/

namespace Sys2Proof.Machine

/-- Does an item run translated code, which issues its primitives itself at the end of a course (R246, R248)? -/
def State.translatedItem (s : State) (i : WorkItem) : Bool :=
  (i.inv.bind fun id => recGet Invocation.id s.invocations id).any fun v => v.vm.isSome

/-- A primitive of the item RUNNING in a slot (R223, R229). -/
def State.primitive (s : State) (it : ItemRef) (f : WorkItem → State → State) : State :=
  match s.running it with
  | none => s
  | some i => if s.translatedItem i then s else f i s

/-- Does an owner hold a slot of its cluster; the device may name any (R229)? -/
def State.holdsSlot (s : State) (it : ItemRef) (owner w : Nat) : Bool :=
  owner == ownerDev || ((s.cluster it.slice it.cluster).item w).any fun j => j.owner == owner

/-- Does an owner hold a flow of its cluster; the device may name any (R229)? -/
def State.holdsFlow (s : State) (it : ItemRef) (owner f : Nat) : Bool :=
  (mapGet (s.cluster it.slice it.cluster).flows f).any fun j => owner == ownerDev || j.owner == owner

/-- Does an owner hold a context of its slice; the device may name any (R229)? -/
def State.holdsCtx (s : State) (it : ItemRef) (owner ix : Nat) : Bool :=
  owner == ownerDev || (mapGet (s.slice it.slice).contexts ix).any fun k => k.owner == owner

/-- A request queued for a grant (R230). -/
def State.queueFor (s : State) (it : ItemRef) (q : Waiting) : State :=
  s.modCluster it.slice it.cluster fun k => { k with waiting := k.waiting ++ [q] }

/-- Does an owner wait for a grant already: its requests are granted in order (R230)? -/
def State.waits (s : State) (it : ItemRef) (owner : Nat) : Bool :=
  (s.cluster it.slice it.cluster).waiting.any fun q =>
    ((s.cluster it.slice it.cluster).item q.by).any fun j => j.owner == owner

/-- An emit staged, unless the buffer holds 8 unreleased ones (R225, R229, R230). -/
def State.stageEmit (s : State) (it : ItemRef) (i : WorkItem) (e : Emit) : State :=
  if 8 ≤ i.emits.length then s.port it psEmitFull 0
  else (s.modItem it.slice it.cluster it.wslot fun i => { i with emits := i.emits ++ [(e, false)] }).port it psOk 0

/-- What follows the end of a run on a core: the slot freed where its discard was asked for (R239), and perhaps another item on the core
(R24). -/
def State.afterRun (s : State) (it : ItemRef) (i : WorkItem) : State :=
  let s := if i.cutAtBudget then s.discardSlot it.slice it.cluster it.wslot else s
  match i.core with
  | some p => if i.poolCore then s.refill it.slice it.cluster p else s
  | none => s

/-- ALLOC (R229, R230, R238, R242). -/
def execAlloc (it : ItemRef) (flow entry : Nat) (arg : BitVec 64) (need : BitVec 4) (done : Option (Nat × Nat)) (grant : Nat)
    (s : State) : Host.Outcome State Fault Refusal :=
  .next (s.primitive it fun i s =>
    let f : Option Nat := if flow = 0xFFFF then none else some flow
    if 4 ≤ grant ∨ done.any fun d => decide (4 ≤ d.2) then s.port it psRange 0
    else if f.any (fun f => !s.holdsFlow it i.owner f) || done.any (fun d => !s.holdsSlot it i.owner d.1) then s.port it psNotOwner 0
    else
      let wait (s : State) : State := (s.queueFor it (.slot it.wslot grant f entry arg need done)).port it psQueued 0
      if s.waits it i.owner || !s.maySlot it.slice it.cluster i.owner then wait s
      else
        let r := s.allocSlot it.slice it.cluster entry arg i.owner i.ctrl i.inv f need done
        match r.1 with
        | none => wait s
        | some w => r.2.port it psOk w)

/-- SEND: a VALUE operand, staged (R229, R230). -/
def execSend (it : ItemRef) (wslot index : Nat) (value : BitVec 64) (aux : BitVec 32) (s : State) : Host.Outcome State Fault Refusal :=
  .next (s.primitive it fun i s =>
    if 4 ≤ index ∨ 1024 ≤ wslot then s.port it psRange 0
    else if !s.holdsSlot it i.owner wslot then s.port it psNotOwner 0
    else s.stageEmit it i (.send wslot index value aux))

/-- ARM: a delay entry, staged (R229, R235). -/
def execArm (it : ItemRef) (wslot index delay : Nat) (s : State) : Host.Outcome State Fault Refusal :=
  .next (s.primitive it fun i s =>
    if 4 ≤ index ∨ 1024 ≤ wslot ∨ delay = 0 ∨ 2 ^ 32 ≤ delay then s.port it psRange 0
    else if !s.holdsSlot it i.owner wslot then s.port it psNotOwner 0
    else s.stageEmit it i (.arm wslot index delay))

/-- Is a descriptor within its ranges: a context of the table, a DMA channel, a length (R236, R280)? -/
def descInRange (d : EmitDesc) : Bool :=
  match d with
  | .engine _ ix _ w i => decide (ix < 65535 ∧ w < 1024 ∧ i < 4)
  | .dma ch _ _ len => decide (ch < 16) && decide (1 ≤ len) && decide (len ≤ 2 ^ 24)
  | .completion _ _ _ _ _ => true

/-- EMIT: an engine, DMA or host-completion descriptor, staged (R229, R230). -/
def execEmit (it : ItemRef) (desc : EmitDesc) (s : State) : Host.Outcome State Fault Refusal :=
  .next (s.primitive it fun i s =>
    if !descInRange desc then s.port it psRange 0
    else
      let held : Bool := match desc with
        | .engine _ ix _ _ _ => s.holdsCtx it i.owner ix
        | _ => true
      if held then s.stageEmit it i (.submit desc)
      else s.port it psNotOwner 0)

/-- RELEASE: the item's release point (R229). -/
def execRelease (it : ItemRef) (s : State) : Host.Outcome State Fault Refusal :=
  .next (s.primitive it fun _ s => (s.modItem it.slice it.cluster it.wslot WorkItem.releasePoint).port it psOk 0)

/-- CONTINUE: a release point, then the slot returns to WAITING with the new NEED (R229, R231). -/
def execContinueRun (it : ItemRef) (need : BitVec 4) (s : State) : Host.Outcome State Fault Refusal :=
  .next (s.primitive it fun i s =>
    ((s.modItem it.slice it.cluster it.wslot fun j =>
      { j.releasePoint with state := .waiting, need := need, core := none }).port it psOk 0).afterRun it i)

/-- END: a release point, then the item is HELD with DONE (R229, R231). -/
def execEndRun (it : ItemRef) (code : BitVec 8) (s : State) : Host.Outcome State Fault Refusal :=
  .next (s.primitive it fun i s =>
    (((s.modItem it.slice it.cluster it.wslot WorkItem.releasePoint).holdItem it.slice it.cluster it.wslot 0 code).port it psOk
      0).afterRun it i)

/-- CTX_ALLOC (R229, R230, R236). -/
def execCtxAlloc (it : ItemRef) (kind grant : Nat) (s : State) : Host.Outcome State Fault Refusal :=
  .next (s.primitive it fun i s =>
    if 4 ≤ grant ∨ kind = 0 ∨ 6 ≤ kind then s.port it psRange 0
    else
      let wait (s : State) : State :=
        ((s.queueFor it (.ctx it.wslot grant kind)).port it psQueued 0).setBit (Adr.ctEvt it.slice) 0
      if s.waits it i.owner || !s.mayCtx it.slice i.owner kind then wait s
      else match (s.slice it.slice).ctxFree (ctxSpan kind) with
        | none => wait s
        | some ix => (s.newCtx it.slice it.cluster ix kind i.owner i.inv (i.flow.getD 0xFFFF)).port it psOk ix)

/-- CTX_FREE: the entries are freed once the operations queued on the context end (R229, R236). -/
def execCtxFree (it : ItemRef) (ctx : Nat) (s : State) : Host.Outcome State Fault Refusal :=
  .next (s.primitive it fun i s =>
    if !s.holdsCtx it i.owner ctx then (s.port it psNotOwner 0).setBit (Adr.ctEvt it.slice) 1
    else (s.closeCtx it.slice ctx).port it psOk 0)

/-- FLOW_OPEN (R229, R234). -/
def execFlowOpen (it : ItemRef) (s : State) : Host.Outcome State Fault Refusal :=
  .next (s.primitive it fun i s =>
    if !s.mayFlow it.slice it.cluster i.owner then s.port it psQuota 0
    else
      let r := s.openFlow it.slice it.cluster i.owner
      match r.1 with
      | none => s.port it psQuota 0
      | some f => r.2.port it psOk f)

/-- FLOW_CLOSE: the flow becomes free once it holds no slot (R229). -/
def execFlowClose (it : ItemRef) (flow : Nat) (s : State) : Host.Outcome State Fault Refusal :=
  .next (s.primitive it fun i s =>
    if !s.holdsFlow it i.owner flow then s.port it psNotOwner 0
    else
      (s.modCluster it.slice it.cluster fun k =>
        if k.items.any fun q => q.2.flow == some flow then
          { k with flows := (mapGet k.flows flow).elim k.flows fun g => mapInsert k.flows flow { g with closing := true } }
        else { k with flows := mapErase k.flows flow }).port it psOk 0)

/-- OPERAND_ARRIVAL: the first operand to reach an index fills it; a slot whose operands cover its NEED becomes READY at the next course
boundary (R226, R227). -/
def execOperandArrival (slice cluster wslot index : Nat) (op : Operand) (s : State) : Host.Outcome State Fault Refusal :=
  .next (if !s.sliceUp slice || decide (4 ≤ cluster) then s else s.deliver slice cluster wslot index op)

/-- BUDGET_EXPIRY: a RUNNING item whose budget is over is cut (R24, R25, R231). The boundary itself cuts every item whose budget ends
there; an item within its budget runs on. -/
def execBudgetExpiry (it : ItemRef) (s : State) : Host.Outcome State Fault Refusal :=
  .next (s.primitive it fun i s => if i.budgetOver s.now then s.cutItem it.slice it.cluster it.wslot else s)

/-- PROTECTION_FAULT: the item ends with FAULT, its unreleased emits discarded (R223, R231). -/
def execProtectionFault (it : ItemRef) (s : State) : Host.Outcome State Fault Refusal :=
  .next (s.primitive it fun i s => (s.holdItem it.slice it.cluster it.wslot 4 0).afterRun it i)

/-- DELAY_ENTRY_DUE: an armed entry whose course has come is delivered as a TIMER operand with the course count (R235). The boundary itself
delivers every entry that is due there; an entry that is not due yet stays armed. -/
def execDelayEntryDue (slice cluster wslot index : Nat) (s : State) : Host.Outcome State Fault Refusal :=
  .next (
    let k := s.cluster slice cluster
    if (k.near ++ k.far).any fun d => d.wslot == wslot && d.index == index && decide (d.due ≤ s.now) then
      let s := s.modCluster slice cluster fun k => k.disarm wslot index
      let s := s.modItem slice cluster wslot fun i => { i with armed := i.armed.filter (· != index) }
      s.deliver slice cluster wslot index (opOf 6 (BitVec.ofNat 64 s.now) 0 0 0)
    else s)

end Sys2Proof.Machine
end

