-- ==== Sys2Proof/Machine/Engines.lean ====
section
/-!
DEFINITION. Meanings of the ends of stream operations: cipher operations (R166 to R177), compression operations (R197 to R205) and slice DMA
transfers (R280).
-/

namespace Sys2Proof.Machine

/-- Is a submission an operation on a context? -/
def EngineOp.onCtx (o : EngineOp) (ix : Nat) : Bool :=
  match o.desc with
  | .engine _ c _ _ _ => c == ix
  | _ => false

/-- Is a submission a given DMA transfer? -/
def EngineOp.isDma (o : EngineOp) (ch src dst len : Nat) : Bool :=
  match o.desc with
  | .dma c a b l => c == ch && a == src && b == dst && l == len
  | _ => false

/-- The submission that waits first on a context (R177). -/
def Slice.firstOp (x : Slice) (ix : Nat) : Option EngineOp := x.engineOps.find? fun o => o.onCtx ix

/-- Has the submission that waits first on a context still blocks or cycles to go (R176, R177, R189)? -/
def State.opRunning (s : State) (n ix : Nat) : Bool := ((s.slice n).engFor (.strm ix)).any fun w => !w.done

/-- The submission that waits first on a context taken off, with its engine operation. -/
def State.takeOp (s : State) (n ix : Nat) : State :=
  s.modSlice n fun x =>
    let y := match x.engFor (.strm ix) with
      | none => x
      | some w => x.dropEngine fun v => v.id == w.id
    match x.firstOp ix with
    | none => y
    | some o => { y with engineOps := y.engineOps.erase o }

/-- The ENGINE operand of a submission: the bytes of its result, its status and its engine (R225; log entry 50). -/
def State.engineDone (s : State) (n : Nat) (o : Option EngineOp) (bytes st unit : Nat) : State :=
  match o with
  | some { cluster := c, desc := .engine _ _ _ w i, .. } => s.deliver n c w i (opOf 3 (BitVec.ofNat 64 bytes) 0 st unit)
  | _ => s

/-- A context after an operation on it: f of it, one operation fewer; freed when it was CLOSING and none is left, or when it serves one
stored unit only (R229, R236). -/
def State.opEnded (s : State) (n ix : Nat) (f : Ctx → Ctx) : State :=
  (s.takeOp n ix).modSlice n fun x =>
    match mapGet x.contexts ix with
    | none => x
    | some k =>
      let g := f { k with ops := k.ops - 1 }
      if g.ops = 0 && (g.state == 3 || g.kind == 5) then { x with contexts := mapErase x.contexts ix }
      else { x with contexts := mapInsert x.contexts ix { g with index := ix } }

/-- The context of a stream operation whose engine was fenced: discarded, with what was still queued on it (R182, R205). -/
def State.opFenced (s : State) (n ix : Nat) : State :=
  s.modSlice n fun x =>
    let y := x.dropEngine fun w => w.why == .strm ix
    { y with contexts := mapErase y.contexts ix, engineOps := y.engineOps.filter fun (o : EngineOp) => !o.onCtx ix }

/-- The kind of a context, 0 for none (R236). -/
def State.ctxKind (s : State) (n ix : Nat) : Nat := ((mapGet (s.slice n).contexts ix).map Ctx.kind).getD 0

/-! ### Cipher operations -/

/-- May a requester use the slot for a stream operation: its range and USE CIPHER, or the slice metadata key for device work (R183)? -/
def State.cipherKeyOk (s : State) (n : Nat) (o : CipherOp) : Bool :=
  (s.slotOwned o.requester o.slot && (s.keySlot o.slot).use == 0) || (o.requester == ownerDev && o.slot == 4113 + n)

/-- Does a cipher operation break a limit (R166, R170, R173)? -/
def State.cipherLimit (s : State) (n : Nat) (o : CipherOp) : Bool :=
  o.ivBits != 96 || o.tagBits != 128 || o.keyBits != 256 || decide (4096 < o.aadDecl) || decide (2 ^ 36 - 32 < o.payDecl) ||
    o.raggedDescriptor || (o.encrypt && (o.callerIv || (s.keyCtr n o.slot).ctr == BitVec.allOnes 64))

/-- E(J0) of a message: J0 is its IV, 31 zeros and a one (R166). -/
def encJ0 (key : Key) (iv : BitVec 96) : BitVec 128 := Config.aes256 key (iv ++ (1 : BitVec 32))

/-- The tag of a message: its GHASH and E(J0) (R178). -/
def gcmTag (key : Key) (iv : BitVec 96) (ghash : BitVec 128) : BitVec 128 := ghash ^^^ encJ0 key iv

/-- The status of a cipher operation (Cipher operation statuses): the checks at submission first, then what happened to the operation. -/
def State.cipherStatus (s : State) (n : Nat) (o : CipherOp) : Nat :=
  if !s.cipherKeyOk n o then 4
  else if (s.keySlot o.slot).state == .empty || (!o.encrypt && o.keyGen != (s.keySlot o.slot).generation) then 5
  else if s.cipherLimit n o then 3
  else if o.fenced then 6
  else if o.arrived ≠ o.aadDecl + o.payDecl then 2
  else if !o.encrypt && o.tag != gcmTag (s.keySlot o.slot).key o.iv o.ghash then 1
  else 0

/-- The first failed operation since VALID was cleared is recorded in CX_ERR_* (R174). -/
def State.cipherRecord (s : State) (n ix st : Nat) (o : CipherOp) : State :=
  if st = 0 || s.bit (Adr.cxErrSts n) 31 then s
  else
    (((s.wr (Adr.cxErrSts n) (BitVec.ofNat 32 (2 ^ 31 + o.unit % 4 * 2 ^ 27 + st * 2 ^ 20 + ix % 65536))).wr (Adr.cxErrSlot n)
      (BitVec.ofNat 32 (o.slot % 8192))).wr64 (Adr.cxErrDeclLo n) (o.aadDecl + o.payDecl)).wr64 (Adr.cxErrArrLo n) o.arrived

/-- The event flag and the counter of a status (CX_EVT, CX_TAGFAIL, CX_LENERR). -/
def State.cipherCount (s : State) (n st : Nat) : State :=
  if st = 1 then (s.inc (Adr.cxTagfail n)).setBit (Adr.cxEvt n) 1
  else if st = 2 then (s.inc (Adr.cxLenerr n)).setBit (Adr.cxEvt n) 2
  else if st = 3 then s.setBit (Adr.cxEvt n) 3
  else if st = 4 then s.setBit (Adr.cxEvt n) 4
  else s

/-- The context after a cipher operation: LIMIT leaves it unchanged (R173); any other keeps what the operation declared and used, the accumulator
and E(J0) under new masks (R178, R236). -/
def Ctx.afterCipher (k : Ctx) (st : Nat) (o : CipherOp) (iv : BitVec 96) (gen : Nat) (key : Key) (m : BitVec 256) : Ctx :=
  if st = 3 then k
  else { k with iv := iv, keySlot := o.slot, keyGen := gen, aadDecl := o.aadDecl, payDecl := o.payDecl, inTotal := o.arrived, phase := 0,
                cipher := { encrypt := o.encrypt, cb := cipherBlocks (o.arrived - o.aadDecl) % 2 ^ 32, aadDone := min o.aadDecl o.arrived,
                            payDone := o.arrived - o.aadDecl, ghash := sharesOf o.ghash (m.truncate 128),
                            ej0 := sharesOf (encJ0 key iv) (m.extractLsb' 128 128) } }

/-- CIPHER_OP_DONE (R166 to R178, R182, R183). An encryption whose counter value must wait for a group store does not end yet
(R171, R172); a submission ends with OK or TAG_FAIL only when its blocks are through the pipe (R176). -/
def execCipherOpDone (slice ctx : Nat) (op : CipherOp) (s : State) : Host.Outcome State Fault Refusal :=
  .next (
    let st := s.cipherStatus slice op
    let takes := op.encrypt && (st == 0 || st == 2 || st == 6)
    if !s.sliceUp slice then s
    else if st ≤ 1 && s.opRunning slice ctx then s
    else if takes && !s.ctrReady slice op.slot then s.inc Adr.ksCtrWaits
    else
      let sub := (s.slice slice).firstOp ctx
      let t : BitVec 64 × State := if takes then s.takeCtr slice op.slot else (0, s)
      let iv : BitVec 96 := if takes then ivOf slice op.slot t.1 else op.iv
      let s := if st != 3 && st != 4 && st != 5 && decide (op.unit < 2) then t.2.keyUse slice op.unit op.slot else t.2
      let s := (s.cipherRecord slice ctx st op).cipherCount slice st
      let m := s.maskDraw slice (op.unit % 3)
      let s := if st = 6 then (if s.ctxKind slice ctx = 5 then s else s.opFenced slice ctx)
        else m.2.opEnded slice ctx fun k =>
          k.afterCipher st op iv (s.keySlot op.slot).generation (s.keySlot op.slot).key m.1
      s.engineDone slice sub (if st = 0 then op.payDecl else 0) st op.unit)

/-! ### Compression operations -/

/-- The most input bytes that a compressor holds back: one block of its format (R199, R203). -/
def heldMost (format : Nat) : Nat := if format = 3 then 131072 else 32768

/-- The most bytes that a compressor gives for n bytes of a stream (Expansion bounds). -/
def expansionBound (format n : Nat) : Nat :=
  let d := max 1 ((n + 32767) / 32768)
  let z := max 1 ((n + 131071) / 131072)
  match format with
  | 0 => n + 5 * d + 1
  | 1 => n + 5 * d + 7
  | 2 => n + 5 * d + 19
  | _ => n + 3 * z + 10

/-- The bytes that an operation produces: of a compressor at most the bound of its input and one block held back (R203). -/
def opOutput (o : CompressOp) : Nat :=
  if 4 ≤ o.unit then o.produced else min o.produced (expansionBound o.format (o.arrived + heldMost o.format))

/-- The least power of two that is at least n, up to 2^23. -/
def powerUp (n : Nat) : Nat := (((List.range 24).map fun k => 2 ^ k).find? fun p => decide (n ≤ p)).getD (2 ^ 23)

/-- Bytes of the history ring of a stream (R197). -/
def opRing (o : CompressOp) : Nat := if o.format ≠ 3 then 32768 else if o.unit < 4 then 131072 else powerUp o.window

/-- Does a stream to decompress ask for what lies outside the limits: a preset dictionary, or a window above 8 MiB (R190)? -/
def opLimit (o : CompressOp) : Bool := o.dictionary || (o.format == 3 && decide (2 ^ 23 < o.window))

/-- The owner of a context. -/
def State.ctxOwner (s : State) (n ix : Nat) : Nat := ((mapGet (s.slice n).contexts ix).map Ctx.owner).getD ownerDev

/-- The status of a stream operation (Compression statuses; R190, R197, R199 to R202, R205). -/
def State.streamStatus (s : State) (n ix : Nat) (o : CompressOp) : Nat :=
  let dec := decide (4 ≤ o.unit)
  if (mapGet (s.slice n).contexts ix).any fun k => k.state == 2 then 8
  else if o.fenced then 9
  else if o.arrived ≠ o.decl then 2
  else if dec && opLimit o then 5
  else if !s.ownsMem n (s.ctxOwner n ix) o.ringPtr (opRing o) then 8
  else if dec && o.formatError then 3
  else if o.capacity < opOutput o then 7
  else if dec && o.checkFail then 4
  else if dec && o.finalOp && o.insideStream then 6
  else 0

/-- The first failed operation since VALID was cleared is recorded in CZ_ERR_* (R200). -/
def State.streamRecord (s : State) (n ix st : Nat) (o : CompressOp) : State :=
  if st = 0 || s.bit (Adr.czErrSts n) 31 then s
  else
    ((s.wr (Adr.czErrSts n) (BitVec.ofNat 32 (2 ^ 31 + o.unit % 8 * 2 ^ 24 + st * 2 ^ 20 + ix % 65536))).wr64 (Adr.czErrDeclLo n)
      o.decl).wr64 (Adr.czErrArrLo n) o.arrived

/-- The context after a stream operation: its counts and its stream state after OK, FAILED after an error of the stream, as at the start of the
operation otherwise (R197, R199, R200, R236). -/
def Ctx.afterStream (k : Ctx) (st : Nat) (o : CompressOp) : Ctx :=
  if st = 0 then
    { k with inTotal := k.inTotal + o.arrived, outTotal := k.outTotal + opOutput o, phase := if o.finalOp then 2 else 1,
             strm := { format := o.format, level := o.level, checksum := o.checksum, finalSeen := o.finalOp, ringSize := opRing o,
                       ringPtr := o.ringPtr, check := o.check, held := if o.finalOp then 0 else min o.held (heldMost o.format) } }
  else if st = 2 ∨ st = 7 then k
  else { k with state := if k.state = 3 then 3 else 2 }

/-- COMPRESS_OP_DONE (R189, R190, R197 to R203, R205): a submission ends with OK only when its cycles are through the engine. -/
def execCompressOpDone (slice ctx : Nat) (op : CompressOp) (s : State) : Host.Outcome State Fault Refusal :=
  .next (
    let st := s.streamStatus slice ctx op
    if !s.sliceUp slice then s
    else if st = 0 && s.opRunning slice ctx then s
    else
      let sub := (s.slice slice).firstOp ctx
      let s := s.streamRecord slice ctx st op
      let s := if st = 7 then s.setBit (Adr.czEvt slice) 5 else if st = 2 then s.setBit (Adr.czEvt slice) 4 else s
      let s := if st = 9 then s.opFenced slice ctx else s.opEnded slice ctx fun k => k.afterStream st op
      s.engineDone slice sub (if st = 0 then opOutput op else 0) st op.unit)

/-! ### Slice DMA -/

/-- Bytes of a source before its first poisoned burst, if it has one (R280, R298). -/
def State.goodBytes (s : State) (n src len : Nat) : Option Nat :=
  ((List.range ((src % 64 + len + 63) / 64)).find? fun k => s.memPoisoned n (src / 64 * 64 + 64 * k) 1).map fun k =>
    64 * k - src % 64

/-- Status, bytes written and state of a slice DMA transfer as it ends (Slice DMA statuses). Where the spec leaves open how much was
written, the number is a free value (log entry 71). -/
def State.dmaEnd (s : State) (n : Nat) (d : DmaRes) : Nat × Nat × State :=
  if !s.ownsMem n d.owner d.src d.len || !s.ownsMem n d.owner d.dst d.len then (1, 0, s)
  else if d.discarded then (3, s.free.1 % (d.len + 1), s.free.2)
  else if d.fenced then (4, s.free.1 % (d.len + 1), s.free.2)
  else
    let told := (d.badAt.filter fun b => decide (b < d.len)).map fun b => (d.src + b) / 64 * 64 - d.src
    match told, s.goodBytes n d.src d.len with
    | none, none => (0, d.len, s)
    | some a, none => (2, a, s)
    | none, some b => (2, b, s)
    | some a, some b => (2, min a b, s)

/-- The submission of a transfer taken off. -/
def State.takeDma (s : State) (n ch : Nat) (d : DmaRes) : State :=
  s.modSlice n fun x =>
    match x.engineOps.find? fun o => o.isDma ch d.src d.dst d.len with
    | none => x
    | some o => { x with engineOps := x.engineOps.erase o }

/-- Does a channel serve an owner in this course: of each region's eight, the first two the owner of its core-time entry A, the next two that of entry
B, the others the pool (R280)? -/
def State.sdServes (s : State) (n ch owner : Nat) : Bool :=
  let w := s.cell s.bondCourse (bondRow (2 * n + ch / 8) 3)
  let of (e : Nat) : Bool := (entKind e == 1 && entOwner e == owner) || (entKind e == 2 && owner == ownerDev)
  if ch % 8 < 2 then of (entryA w) else if ch % 8 < 4 then of (entryB w) else !(decide (owner < 0x100) && s.isSealed owner)

/-- SLICE_DMA_DONE (R250, R280): the bytes that the status says are moved, and a DMA_DONE operand delivered; the source is read before
anything is written. A transfer whose channel does not serve its owner in this course goes on. -/
def execSliceDmaDone (slice ch cluster wslot index : Nat) (dma : DmaRes) (s : State) : Host.Outcome State Fault Refusal :=
  .next (if !s.sliceUp slice || decide (16 ≤ ch) || !(dma.discarded || dma.fenced || s.sdServes slice ch dma.owner) then s
    else
      let r := s.dmaEnd slice dma
      let s := (r.2.2.takeDma slice ch dma).memStore slice dma.dst (memRead (s.slice slice).slm dma.src r.2.1)
      let s := (s.dramAsk slice (portCore cluster) dma.owner dma.src r.2.1 false).dramAsk slice (portCore cluster) dma.owner dma.dst r.2.1 true
      let s := s.wr (Adr.sdChSts slice ch) (BitVec.ofNat 32 (r.1 * 2 ^ 24 + dma.owner % 512 * 2 ^ 8))
      let s := if r.1 = 1 then s.setBit (Adr.sdEvt slice) 0 else if r.1 = 2 then s.setBit (Adr.sdEvt slice) 1 else s
      let aux : Nat := if r.1 = 2 then r.2.1 else 0
      s.deliver slice cluster wslot index (opOf 2 (BitVec.ofNat 64 dma.len) (BitVec.ofNat 32 aux) r.1 ch))

end Sys2Proof.Machine
end

