-- ==== Sys2Proof/Machine/Objects.lean ====
section
/-!
DEFINITION. Meanings of the Key Value commands and of the object service's time-outs (R258 to R266).
-/

namespace Sys2Proof.Machine

/-! ### Store (R256 to R260) -/

/-- May a part of an object of some MUs be accepted now: room in the slice's buffer, and the allowance (R83, R127)? -/
def State.objectRoom (s : State) (h : Hdr) (x : Namespace) (n slots : Nat) : Bool :=
  let owner := ctrlOwner h.ctrl
  s.wearOpen owner && s.roomIn n owner (s.writesThrough h x false n) slots

/-- The open ingest of a key. -/
def Slice.ingestOf (x : Slice) (nsid : Nat) (k : KvKey) : Option Ingest := x.ingests.find? fun g => g.nsid == nsid && g.key == k

/-- What an opening Store has found when nothing refuses it: the place in the index and the LUAs. -/
structure Opening where
  place : Nat
  isNew : Bool
  luas : List Nat

/-- The refusals of an opening Store, in turn: the read-only pool, its option, an open ingest, no digest instance, a full index or
range (R135, R255, R257, R258, R260, R264). -/
def State.openStore (s : State) (x : Namespace) (k : KvKey) (q : KeyPlace) (opt : StoreOpt) (len : Nat) (owner : Nat)
    (live : Option Nat) : Except Status Opening :=
  let y := s.slice q.slice
  if s.readOnlyNs x then .error stProtected
  else if opt = .mustExist ∧ live.isNone then .error stNoKey
  else if opt = .mustNotExist ∧ live.isSome then .error stKeyExists
  else if (y.ingestOf x.nsid k).isSome then .error stSequence
  else if x.desc.fixity ≠ 0 ∧ !s.anyInstance owner then .error stField
  else
    match live.orElse (fun _ => probeFree y.index q.probes), s.allocLuas q len with
    | some p, some l => .ok { place := p, isNew := live.isNone, luas := l }
    | _, _ => .error stCapacityExceeded

/-- The part of a Store that has arrived is buffered and the command is dispatched; conditions of Through rules cover the versions of
some LUAs (R56, R259). -/
def State.storeOut (s : State) (h : Hdr) (x : Namespace) (n bytes : Nat) (wrote : List (Nat × Nat × List Nat)) (luas : List Nat) : State :=
  let all := ((s.slice n).versions.filter fun v => luas.contains v.index).map fun v => (n, v.wslot, [])
  let t := s.throughNow h x false all
  ((t.2.modIn h fun y => { y with wrote := wrote }).modCtrl h.ctrl fun c => c.countWrite ((bytes + 4095) / 4096)).answer h
    (ansSt stOk) t.1

/-- A Store of one command (R257 to R260). -/
def State.storeWhole (s : State) (h : Hdr) (x : Namespace) (k : KvKey) (q : KeyPlace) (opt : StoreOpt) (value : List Byte) : State :=
  let owner := ctrlOwner h.ctrl
  let l := s.lookup q x k
  let s := l.2
  let n := q.slice
  match s.openStore x k q opt value.length owner l.1 with
  | .error st => s.finish h (ansAt st x.nsid 0)
  | .ok o =>
    if !s.objectRoom h x n o.luas.length then s.hold h
    else s.withPlace h x.desc.fixity n true fun inst s =>
      let s := (((s.dataIn h value.length).takeInstance inst owner x.desc.fixity value.length).feedInstance inst value).leaveInstance inst
      let s := (s.charge owner n x.pool value.length).evalWear
      let s := s.modSlice n fun y => y.recordIngest 0 o.luas
      let luas := o.luas.dropLast
      let w := s.writeUnits q x.nsid owner (cutUnits (s.mu n * 4096) 0 luas value)
      let c := w.2.commitObject q x k owner o.place value luas ((o.luas.getLast?).getD 0) (fixityOf x.desc.fixity value)
      c.2.storeOut h x n value.length (w.1 ++ c.1) o.luas

/-- Bytes of a segment (R258). -/
def segBytes : Nat := 1048576

/-- Segments of a value of total bytes. -/
def segCount (total : Nat) : Nat := max 1 ((total + segBytes - 1) / segBytes)

/-- A segment of an open ingest that is next in order (R258, R259): the last one commits, or ends with Length Mismatch. -/
def State.segment (s : State) (h : Hdr) (x : Namespace) (k : KvKey) (q : KeyPlace) (g : Ingest) (value : List Byte) : State :=
  let n := q.slice
  let arrived := g.value ++ value
  let last := g.nextSeg + 1 == segCount g.total
  let s := (s.dataIn h value.length).feedInstance g.digestInst value
  if last && arrived.length != g.total then
    (s.abandon n g).finish h { ansAt stLength x.nsid 0 with info := (arrived.length : Int) - g.total }
  else
    let s := (s.charge g.owner n x.pool value.length).evalWear
    let mu := s.mu n * 4096
    let luas := g.luas.dropLast
    let w := s.writeUnits q x.nsid g.owner (cutUnits mu (g.nextSeg * segBytes / mu) luas value)
    let s := w.2
    if last then
      let y := s.slice n
      let pend := q.probes.find? fun p => (mapGet y.index p).any fun e => e.holds x.nsid k && e.state == .pending
      let place := ((pend.orElse fun _ => probeFor y.index x.nsid k q.probes).orElse fun _ => probeFree y.index q.probes).getD 0
      let s := (s.leaveInstance g.digestInst).modSlice n fun y => { y with ingests := recErase Ingest.id y.ingests g.id }
      let c := s.commitObject q x k g.owner place arrived luas ((g.luas.getLast?).getD 0) (fixityOf x.desc.fixity arrived)
      c.2.storeOut h x n value.length (w.1 ++ c.1) g.luas
    else
      let s := s.modSlice n fun y =>
        { y with ingests := recMod Ingest.id y.ingests g.id fun z => { z with nextSeg := z.nextSeg + 1, value := arrived } }
      s.storeOut h x n value.length w.1 ((cutUnits mu (g.nextSeg * segBytes / mu) luas value).map Prod.fst)

/-- Versions that a segment may need at most: its MUs and the record's. -/
def State.segSlots (s : State) (n : Nat) (value : List Byte) : Nat := (value.length + s.mu n * 4096 - 1) / (s.mu n * 4096) + 1

/-- Segment 0: the ingest opens, the entry of a new key becomes PENDING (R256, R258, R260). -/
def State.openIngest (s : State) (h : Hdr) (x : Namespace) (k : KvKey) (q : KeyPlace) (opt : StoreOpt) (total : Nat) (value : List Byte) :
    State :=
  let owner := ctrlOwner h.ctrl
  let l := s.lookup q x k
  let s := l.2
  let n := q.slice
  match s.openStore x k q opt total owner l.1 with
  | .error st => s.finish h (ansAt st x.nsid 0)
  | .ok o =>
    if !s.objectRoom h x n (s.segSlots n value) then s.hold h
    else s.withPlace h x.desc.fixity n true fun inst s =>
      let s := s.takeInstance inst owner x.desc.fixity total
      let id := (s.slice n).ingests.foldl (fun m g => max m (g.id + 1)) 1
      let g : Ingest :=
        { id := id, nsid := x.nsid, key := k, owner := owner, ctrl := h.ctrl, slice := n, total := total, nextSeg := 0, value := [],
          luas := o.luas, digestInst := inst, hadOld := !o.isNew }
      let s := s.modSlice n fun y =>
        let y := y.recordIngest id o.luas
        let y := { y with ingests := y.ingests ++ [g] }
        if o.isNew then y.putIndex o.place { nsid := x.nsid, key := k, state := .pending, version := 0, record := 0 } else y
      s.segment h x k q g value

/-- A later segment: only the next one in order of an open ingest (R258). -/
def State.laterSegment (s : State) (h : Hdr) (x : Namespace) (k : KvKey) (q : KeyPlace) (seg : Nat) (value : List Byte) : State :=
  match (s.slice q.slice).ingestOf x.nsid k with
  | none => s.finish h (ansAt stSequence x.nsid 0)
  | some g =>
    if g.nextSeg ≠ seg then s.finish h (ansAt stSequence x.nsid 0)
    else if !s.objectRoom h x q.slice (s.segSlots q.slice value) then s.hold h
    else s.segment h x k q g value

/-- Store (R257 to R260, R264). -/
def execStore (h : Hdr) (nsid : Nat) (key : KvKey) (opt : StoreOpt) (seg : Option Nat) (total : Nat) (value : List (BitVec 8)) (s : State) :
    Host.Outcome State Fault Refusal :=
  .next (s.keyCmd h nsid key fun x k q s =>
    match seg with
    | none => if segBytes < value.length then s.finish h (ansAt stValueSize nsid 0) else s.storeWhole h x k q opt value
    | some i =>
      if 2 ^ 32 ≤ total then s.finish h (ansAt stValueSize nsid 0)
      else if segBytes < value.length then s.finish h (ansAt stField nsid 0)
      else if i = 0 then s.openIngest h x k q opt total value
      else s.laterSegment h x k q i value)

/-- INGEST_IDLE_TIMEOUT: no segment for 60 s, the ingest is abandoned (R258). -/
def execIngestIdleTimeout (nsid : Nat) (key : KvKey) (s : State) : Host.Outcome State Fault Refusal :=
  .next (s.abandonAll fun g => g.nsid == nsid && g.key == keyNorm key)

/-! ### Retrieve, Exist, Delete, List (R261 to R263) -/

/-- Retrieve (R261): the value from an offset on, or bytes 0 to 127 of the record. -/
def execRetrieve (h : Hdr) (nsid : Nat) (key : KvKey) (offset size : Nat) (info : Bool) (s : State) : Host.Outcome State Fault Refusal :=
  .next (s.keyCmd h nsid key fun x k q s =>
    if segBytes < size then s.finish h (ansAt stField nsid 0)
    else
      let l := s.lookup q x k
      let s := l.2
      match l.1.bind (s.slice q.slice).recordAt with
      | none => s.finish h (ansAt stNoKey nsid 0)
      | some o =>
        if !info && decide (o.value.length < offset) then s.finish h (ansAt stField nsid 0)
        else
          let len := if info then 0 else min size (o.value.length - offset)
          let r := s.readObject q.slice o offset len
          let s := s.modCtrl h.ctrl fun c => c.countRead ((len + 4095) / 4096)
          let s := match r with
            | .error st => s.finish h (ansAt st nsid 0)
            | .ok (rec_, val) =>
              let bs := if info then rec_.take size else val
              (s.dataOut h bs.length).finish h
                { ansData (.bytes bs) with dw0 := o.value.length, dw1 := o.version.toNat }
          s.countObject h q.slice o offset len)

/-- Exist (R262): present when LIVE. -/
def execExist (h : Hdr) (nsid : Nat) (key : KvKey) (s : State) : Host.Outcome State Fault Refusal :=
  .next (s.keyCmd h nsid key fun x k q s =>
    let l := s.lookup q x k
    l.2.finish h (match l.1 with
      | none => ansAt stNoKey nsid 0
      | some _ => ansSt stOk))

/-- Delete (R262): cache entry, TOMB, deallocation; an open ingest of the key is abandoned too. -/
def execDelete (h : Hdr) (nsid : Nat) (key : KvKey) (s : State) : Host.Outcome State Fault Refusal :=
  .next (s.keyCmd h nsid key fun x k q s =>
    let l := s.lookup q x k
    let s := l.2.abandonAll fun g => g.nsid == nsid && g.key == k
    match l.1 with
    | none => s.finish h (ansAt stNoKey nsid 0)
    | some p =>
      match mapGet (s.slice q.slice).index p with
      | none => s.finish h (ansAt stNoKey nsid 0)
      | some e =>
        let s := (s.cacheDrop q k p).modSlice q.slice fun y => y.putIndex p { e with state := .tomb }
        (s.retireRecord q.slice e.record).finish h (ansSt stOk))

/-- The LIVE entries of a namespace in the order of List: place within the namespace, and entry (R263). -/
def State.liveEntries (s : State) (x : Namespace) : List (Nat × Nat × IndexEntry) :=
  x.parts.flatMap fun p =>
    (((s.slice p.slice).index.filter fun e => e.2.nsid == x.nsid && e.2.state == .live).map fun e => (p.slice, e.1, e.2))

/-- A key as List gives it: its length, its bytes, zeros up to a multiple of 4 (R263; log entry 63). -/
def listKey (k : KvKey) : List Byte := fillTo (roundUp (2 + k.len) 4) (leBytes 2 k.len ++ k.bytes)

/-- As many keys as fit, whole (R263). -/
def fitKeys : Nat → List KvKey → List (List Byte)
  | _, [] => []
  | room, k :: l => if (listKey k).length ≤ room then listKey k :: fitKeys (room - (listKey k).length) l else []

/-- List (R263). -/
def execList (h : Hdr) (nsid : Nat) (key : KvKey) (size : Nat) (s : State) : Host.Outcome State Fault Refusal :=
  .next (s.ioCmd h nsid .object fun x s =>
    let k := keyNorm key
    if 16 < key.len then s.finish h (ansAt stKeySize nsid 0)
    else if key.len ≠ 0 ∧ s.behindKey h nsid k then s.hold h
    else if x.parts.any fun p => !s.nsUp x p.slice then s.finish h (ansAt stOffline nsid 0)
    else
      let all := (s.liveEntries x).map fun e => e.2.2.key
      let from_ := if key.len = 0 then all else all.dropWhile fun j => j != k
      if key.len ≠ 0 ∧ from_ = [] then s.finish h (ansAt stNoKey nsid 0)
      else
        let ks := fitKeys (size - 4) from_
        let bs := leBytes 4 ks.length ++ ks.flatten
        (s.dataOut h bs.length).finish h (ansData (.bytes (bs.take size))))

/-! ### Bulk export (R265, R266) -/

/-- Bytes 0 to 127 of an export entry (Export entry). -/
def ObjRecord.exportHeader (o : ObjRecord) : List Byte :=
  leBytes 4 0x53465845 ++ leBytes 1 o.key.len ++ leBytes 1 o.alg ++ leBytes 2 o.version.toNat ++ fillTo 16 o.key.bytes ++
    leBytes 4 o.value.length ++ leBytes 4 0 ++ fillTo 64 o.digest ++ leBytes 8 o.commitCourse ++ List.replicate 24 0

/-- An export entry whole, its FIXITY, and what reading it gave (R265). -/
def State.exportEntry (s : State) (n : Nat) (o : ObjRecord) : Except Status (Nat × List Byte) :=
  match s.readObject n o 0 o.value.length with
  | .error st => .error st
  | .ok (_, v) =>
    let fix := if o.alg = 0 then 1 else if fixityOf o.alg v = o.digest then 0 else 2
    .ok (fix, o.exportHeader ++ fillTo (roundUp v.length 16) v ++ leBytes 1 fix ++ List.replicate 15 0)

/-- An export under way: bytes delivered, the parts of values read for them (record, offset, length), where the stream stands, the first failure,
the version that is left unfinished. -/
structure Exporting where
  out : List Byte
  reads : List (ObjRecord × Nat × Nat)
  next : Option (Nat × Nat)
  failed : Option Status
  open_ : Option (Nat × Nat)
  state : State

/-- A cursor: slice index, place (4 × bucket + entry, counted from the namespace's range) and byte offset (R265). -/
def cursorOf (sliceIx place offset : Nat) : Nat := sliceIx * 2 ^ 61 + place / 4 * 2 ^ 36 + place % 4 * 2 ^ 34 + offset

/-- The entries from a place on put into the buffer until it is full (R265, R266): place and record of each. -/
def exportRun (n nsid size sliceIx : Nat) : List (Nat × Nat) → Nat → Exporting → Exporting
  | [], _, a => { a with next := none }
  | (place, id) :: l, offset, a =>
    if size ≤ a.out.length then { a with next := some (place, 0) }
    else
      match mapGet (a.state.slice n).objects id with
      | none => exportRun n nsid size sliceIx l 0 a
      | some o =>
        match a.state.exportEntry n o with
        | .error st => { a with next := some (place, offset), failed := some st }
        | .ok (fix, bs) =>
          let part := (bs.drop offset).take (size - a.out.length)
          let a := { a with out := a.out ++ part, reads := a.reads ++ [(o, offset - 128, part.length)] }
          if offset + part.length < bs.length then
            { a with next := some (place, offset + part.length), open_ := some (place, id) }
          else
            let s := if fix = 2 then a.state.notice 5 n nsid (cursorOf sliceIx place 0) else a.state
            exportRun n nsid size sliceIx l 0 { a with state := s }

/-- The pin of a stream (R266). -/
def Slice.pinOf (x : Slice) (nsid sliceIx endBucket : Nat) : Option Pin :=
  x.pins.find? fun p => p.nsid == nsid && p.sliceIx == sliceIx && p.endBucket == endBucket

/-- Where a stream starts: the entries from a place on, the first being the pinned version where it continues one. -/
def State.exportList (s : State) (n : Nat) (x : Namespace) (part : NsPart) (place endBucket : Nat) (pinned : Option Nat) : List (Nat × Nat) :=
  let lo := 4 * part.bucketBase + place
  let hi := 4 * part.bucketBase + 4 * endBucket
  let live := ((s.slice n).index.filter fun e => e.2.nsid == x.nsid && e.2.state == .live && decide (lo ≤ e.1) && decide (e.1 < hi)).map
    fun e => (e.1 - 4 * part.bucketBase, e.2.record)
  match pinned with
  | none => live
  | some r => (place, r) :: live.filter fun e => e.1 != place

/-- A stream's pin replaced; the version that it held is gone when no entry and no other pin names it (R266). -/
def State.repin (s : State) (n : Nat) (old new : Option Pin) : State :=
  let s := s.modSlice n fun y => { y with pins := (y.pins.filter fun z => some z != old) ++ new.toList }
  match old.bind Pin.record with
  | none => s
  | some r =>
    if (s.slice n).index.any fun e => e.2.record == r && e.2.state == .live then s else s.retireRecord n r

/-- OBJECT_EXPORT (R265, R266): a continued entry needs its pin; a new one takes an instance where the namespace has fixity (R260). -/
def execObjectExport (h : Hdr) (nsid size cursor endBucket : Nat) (s : State) : Host.Outcome State Fault Refusal :=
  .next (s.ioCmd h nsid .object fun x s =>
    let sliceIx := cursor / 2 ^ 61 % 8
    let place := 4 * (cursor / 2 ^ 36 % 2 ^ 25) + cursor / 2 ^ 34 % 4
    let offset := cursor % 2 ^ 32
    match x.parts[sliceIx]? with
    | none => s.finish h (ansAt stField nsid 0)
    | some part =>
      let n := part.slice
      let pin := (s.slice n).pinOf nsid sliceIx endBucket
      if segBytes < size ∨ cursor / 2 ^ 32 % 4 ≠ 0 then s.finish h (ansAt stField nsid 0)
      else if !s.nsUp x n then s.finish h (ansAt stOffline nsid 0)
      else if pin.any Pin.lost then
        (match pin with
          | none => s
          | some p => s.unpin n p false).finish h (ansAt stField nsid 0)
      else if offset ≠ 0 ∧ !pin.any (fun p => p.pos == place) then s.finish h (ansAt stField nsid 0)
      else
        let kept := pin.filter fun p => decide (offset ≠ 0) && p.pos == place
        let run (inst : Option Nat) (s : State) : State :=
          let r := exportRun n nsid size sliceIx (s.exportList n x part place endBucket (kept.bind Pin.record)) offset
            { out := [], reads := [], next := none, failed := none, open_ := none, state := s }
          let new : Option Pin := match r.failed, r.open_ with
            | none, some e => some { nsid := nsid, sliceIx := sliceIx, endBucket := endBucket, pos := e.1, record := some e.2,
                                     inst := inst, lost := false }
            | _, _ => none
          let s := r.state.repin n pin new
          let len := ((r.open_.bind fun e => mapGet (s.slice n).objects e.2).map fun o => o.value.length).getD 0
          let s := if new.isNone then s.leaveInstance inst
            else if inst.any fun i => (s.digestMsg i).isNone then s.takeInstance inst (ctrlOwner h.ctrl) x.desc.fixity len
            else s
          let s := match r.failed with
            | some st => s.finish h (ansAt st nsid 0)
            | none =>
              let c := match r.next with
                | none => 2 ^ 64 - 1
                | some e => cursorOf sliceIx e.1 e.2
              (s.dataOut h r.out.length).finish h { ansData (.bytes r.out) with dw0 := c % 2 ^ 32, dw1 := c / 2 ^ 32 }
          r.reads.foldl (fun s q => s.countObject h n q.1 q.2.1 q.2.2) s
        match kept with
        | some p => run p.inst s
        | none =>
          if x.desc.fixity ≠ 0 ∧ !s.anyInstance (ctrlOwner h.ctrl) then s.finish h (ansAt stField nsid 0)
          else if x.desc.fixity = 0 then run none s
          else s.withPlace h x.desc.fixity n false run)

/-- EXPORT_PIN_TIMEOUT: no command of the stream for 60 s; its pin is lost, and its next command will say so (R266). -/
def execExportPinTimeout (nsid sliceIx endBucket : Nat) (s : State) : Host.Outcome State Fault Refusal :=
  .next (match (s.ns nsid).bind fun x => x.parts[sliceIx]? with
    | none => s
    | some part =>
      match (s.slice part.slice).pinOf nsid sliceIx endBucket with
      | none => s
      | some p => s.unpin part.slice p true)

end Sys2Proof.Machine
end

