-- ==== Sys2Proof/Machine/Mgmt.lean ====
section
/-!
DEFINITION. Meanings of the management commands (R53, R409): requests on the two buses, in band through physical function 0 of port 0,
and what they answer. Codes, identifiers and offsets are NVMe-MI's (log entry 8).
-/

namespace Sys2Proof.Machine

/-- A response with a status only. -/
def miStatus (st : Nat) : MiReply := { status := st, detail := 0, answer := ansSt stOk }

/-- A successful response with data. -/
def miData (detail : Nat) (d : List (Nat × Nat × Nat)) : MiReply := { status := 0, detail := detail, answer := ansData (.fields d) }

/-- Invalid Command Opcode of NVMe-MI. -/
def miOpcode : Nat := 3
/-- Invalid Parameter of NVMe-MI. -/
def miParameter : Nat := 4

/-- The controllers of the package: physical function 0 of each port, and the virtual functions of the tenants (R43, R73). -/
def State.ctrlList (s : State) : List Nat :=
  let fns := 0 :: (if s.minimal then [] else s.tenants.map fun t => t.ti + 1)
  (fns.map (cntlid 0)) ++ (if s.dual && !s.minimal then fns.map (cntlid 1) else [])

/-- Composite temperature, which the spec does not compose, is a free value (log entry 4). -/
def State.compositeTemp (s : State) : Nat × State := (s.free.1 % 256, s.free.2)

/-- Percentage Used and Available Spare of a controller's scope (R133, R139). -/
def State.lifeUsed (s : State) (c : Nat) : Nat := pctUsed ((s.smartPools c).map fun p => s.wearSum p.1 p.2)

/-- The least Available Spare of a controller's pools. -/
def State.leastSpare (s : State) (c : Nat) : Nat := ((s.smartPools c).map fun p => s.availableSpare p.1 p.2).foldl min 100

/-- Read NVMe-MI Data Structure: subsystem, port, controller list, controller, supported commands (R53). -/
def State.miStructure (s : State) (dtyp port ctrl : Nat) : MiReply :=
  let pcie := if s.dual then 2 else 1
  match dtyp with
  | 0 => miData 32 [(0, 1, pcie + 1), (1, 1, 2), (2, 1, 0)]
  | 1 =>
    let l := (s.links[port]?).getD State.linkDown
    if port < pcie then miData 32 [(0, 1, 1), (9, 1, l.gen), (10, 1, s.maxWidth), (11, 1, l.width), (12, 1, port)]
    else if port = pcie then miData 32 [(0, 1, 2), (8, 1, 0x1D * 2), (10, 1, 0x1D * 2), (11, 1, 3)]
    else if port = pcie + 1 then miData 32 [(0, 1, 2), (8, 1, ((s.mgmt.i3cAddr.map BitVec.toNat).getD 0) * 2)]
    else miStatus miParameter
  | 2 =>
    let l := s.ctrlList.filter fun c => decide (ctrl ≤ c)
    miData 0 ((0, 2, l.length) :: l.zipIdx.map fun p => (2 + 2 * p.2, 2, p.1))
  | 3 =>
    let i := s.pciId ctrl
    if s.ctrlList.contains ctrl then
      miData 32 [(0, 1, ctrlPort ctrl), (6, 2, ctrlFn ctrl), (8, 2, i.vendor), (10, 2, i.device), (12, 2, i.subVendor), (14, 2, i.subsystem)]
    else miStatus miParameter
  | 4 => miData 0 ((0, 2, 9) :: [0, 1, 2, 3, 4, 5].zipIdx.map (fun p => (2 + 2 * p.2, 2, p.1 * 256 + 8)) ++
      [(14, 2, 6 * 256 + 0x10), (16, 2, 2 * 256 + 0x10), (18, 2, 0xA * 256 + 0x10)])
  | _ => miStatus miParameter

/-- NVM Subsystem Health Status Poll (R53): status, warnings, temperature, life used. The Composite Controller Status is a free value
(log entry 4). -/
def State.miHealth (s : State) : MiReply × State :=
  let t := s.compositeTemp
  let c := t.2.free
  let up (k : Nat) : Nat := bit01 (((s.links[k]?).map Link.up).getD false)
  let nss := (if s.minimal then 0 else 32) + up 0 * 8 + up 1 * 4
  (miData 0 [(0, 1, nss), (1, 1, 255 - s.criticalWarning 1), (2, 1, t.1), (3, 1, s.lifeUsed 1), (4, 2, c.1 % 65536)], c.2)

/-- Controller Health Status Poll (R53): from a controller on, at most so many. -/
def State.miControllers (s : State) (start count : Nat) : MiReply × State :=
  let t := s.compositeTemp
  let l := (s.ctrlList.filter fun c => decide (start ≤ c)).take count
  (miData (l.length * 65536) (recordsAt 0 16 (l.map fun c =>
    [(0, 2, c), (2, 2, bit01 (s.ctrl c).rdy + (s.ctrl c).shst * 4), (4, 2, t.1), (6, 1, s.lifeUsed c), (7, 1, s.leastSpare c),
      (8, 1, s.criticalWarning c)])), t.2)

/-- Configuration identifiers with the value they have before a Set: bus frequency (100 kHz), health status change, transmission unit of
64 bytes. -/
def miConfigs : List (Nat × Nat) := [(1, 1), (2, 0), (3, 64)]

/-- Configuration Get (R53). -/
def State.miGet (s : State) (id : Nat) : MiReply :=
  match (mapGet s.mgmt.config id).orElse fun _ => mapGet miConfigs id with
  | none => miStatus miParameter
  | some v => { miStatus 0 with detail := v }

/-- Configuration Set (R53, R409): the frequencies of R409 only; Health Status Change keeps nothing. -/
def State.miSet (s : State) (id value : Nat) : MiReply × State :=
  if (mapGet miConfigs id).isNone || (id == 1 && !(decide (1 ≤ value) && decide (value ≤ 3))) then (miStatus miParameter, s)
  else if id = 2 then (miStatus 0, s)
  else (miStatus 0, { s with mgmt := { s.mgmt with config := mapInsert s.mgmt.config id value } })

/-- VPD Read (R53): the content is not stated by the spec (log entry 8). -/
def miVpd (offset length : Nat) : MiReply :=
  { miStatus 0 with answer := ansData (.bytes ((List.range length).map fun k => Config.standardByte 0x53 (offset + k))) }

/-- A tunnelled admin command, on physical function 0 (R53). -/
def State.miTunnel (s : State) (cmd : TunnelCmd) : MiReply × State :=
  match cmd with
  | .identify cns nsid => ({ miStatus 0 with answer := s.identify 1 cns nsid }, s)
  | .getLogPage lid => ({ miStatus 0 with answer := (s.logPage 1 lid).1 }, (s.logPage 1 lid).2)
  | .getFeatures fid nsid => ({ miStatus 0 with answer := s.feature 1 fid nsid }, s)
  | .other _ => (miStatus miOpcode, s)

/-- What a management request answers (R53): VPD Write and Reset are not supported. -/
def State.miServe (s : State) (r : MiReq) : MiReply × State :=
  match r with
  | .readDataStructure dtyp port ctrl => (s.miStructure dtyp port ctrl, s)
  | .subsystemHealth => s.miHealth
  | .controllerHealth start count => s.miControllers start count
  | .configGet id => (s.miGet id, s)
  | .configSet id value => s.miSet id value
  | .vpdRead offset length => (miVpd offset length, s)
  | .vpdWrite => (miStatus miOpcode, s)
  | .reset => (miStatus miOpcode, s)
  | .tunnel cmd => s.miTunnel cmd

/-- Does the endpoint answer on a bus: hub firmware runs, in minimal mode too, and on I3C an address is assigned (R53, R359)? -/
def State.miReady (s : State) (bus : MiBus) : Bool :=
  !s.held && (s.minimal || decide (2 ≤ s.stage)) && (bus == .smbus || s.mgmt.i3cAddr.isSome)

/-- A request on a bus: its response waits to be taken. -/
def State.miBus (s : State) (bus : MiBus) (r : MiReq) : State :=
  if !s.miReady bus then s
  else
    let a := s.miServe r
    { a.2 with mgmt := { a.2.mgmt with out := some (bus, a.1) } }

/-- NVMe-MI Send: on physical function 0 of port 0 only (R53). -/
def execNvmeMiSend (h : Hdr) (req : MiReq) (s : State) : Host.Outcome State Fault Refusal :=
  .next (s.run h fun s =>
    if !isManager h.ctrl then s.finish h (ansSt stOpcode)
    else
      let a := s.miServe req
      ({ a.2 with mgmt := { a.2.mgmt with inband := some a.1 } } : State).finish h (ansDw0 a.1.status))

/-- NVMe-MI Receive: the response to the last Send; without one, Command Sequence Error (R53). -/
def execNvmeMiReceive (h : Hdr) (s : State) : Host.Outcome State Fault Refusal :=
  .next (s.run h fun s =>
    if !isManager h.ctrl then s.finish h (ansSt stOpcode)
    else
      match s.mgmt.inband with
      | none => s.finish h (ansSt stSequence)
      | some r =>
        ({ s with mgmt := { s.mgmt with inband := none } } : State).finish h
          { ansDw0 (r.status + r.detail * 256) with data := r.answer.data })

/-- Read NVMe-MI Data Structure (R53). -/
def execReadNvmeMiDataStructure (bus : MiBus) (dtyp port ctrl : Nat) (s : State) : Host.Outcome State Fault Refusal :=
  .next (s.miBus bus (.readDataStructure dtyp port ctrl))

/-- NVM Subsystem Health Status Poll (R53). -/
def execNvmSubsystemHealthStatusPoll (bus : MiBus) (s : State) : Host.Outcome State Fault Refusal :=
  .next (s.miBus bus .subsystemHealth)

/-- Controller Health Status Poll (R53). -/
def execControllerHealthStatusPoll (bus : MiBus) (start max : Nat) (s : State) : Host.Outcome State Fault Refusal :=
  .next (s.miBus bus (.controllerHealth start max))

/-- Configuration Get (R53). -/
def execConfigurationGet (bus : MiBus) (id : Nat) (s : State) : Host.Outcome State Fault Refusal :=
  .next (s.miBus bus (.configGet id))

/-- Configuration Set (R53). -/
def execConfigurationSet (bus : MiBus) (id value : Nat) (s : State) : Host.Outcome State Fault Refusal :=
  .next (s.miBus bus (.configSet id value))

/-- VPD Read (R53). -/
def execVpdRead (bus : MiBus) (offset length : Nat) (s : State) : Host.Outcome State Fault Refusal :=
  .next (s.miBus bus (.vpdRead offset length))

/-- An admin command tunnelled to physical function 0 (R53). -/
def execMiAdminTunnel (bus : MiBus) (cmd : TunnelCmd) (s : State) : Host.Outcome State Fault Refusal :=
  .next (s.miBus bus (.tunnel cmd))

/-- The I3C controller assigns the endpoint's dynamic address (R53). -/
def execDynamicAddressAssignment (addr : BitVec 7) (s : State) : Host.Outcome State Fault Refusal :=
  .next (if s.held then s else { s with mgmt := { s.mgmt with i3cAddr := some addr } })

/-- The clock-low time-out of SMBus: the transaction under way is abandoned (R409). -/
def execSmbusClockLowTimeout (s : State) : Host.Outcome State Fault Refusal :=
  .next (if s.mgmt.out.any fun r => r.1 == .smbus then { s with mgmt := { s.mgmt with out := none } } else s)

end Sys2Proof.Machine
end

