-- ==== Sys2Proof/Machine/ProgOps.lean ====
section
/-!
DEFINITION. What programs do as they run: GCM messages (R166), the helpers and the runs of eBPF programs (R246, R247; log entry 51), and the
device-defined programs (R251 to R253; log entry 52).
-/

namespace Sys2Proof.Machine

/-! ### GCM over a message (R166; NIST SP 800-38D) -/

/-- Product in the field of GHASH. -/
def gfMul (x y : BitVec 128) : BitVec 128 :=
  ((List.range 128).foldl (fun (a : BitVec 128 × BitVec 128) i =>
    (if x.getLsbD (127 - i) then a.1 ^^^ a.2 else a.1,
     if a.2.getLsbD 0 then (a.2 >>> 1) ^^^ (0xE1#128 <<< 120) else a.2 >>> 1)) ((0 : BitVec 128), y)).1

/-- The 16-byte blocks of some bytes, the last one filled with zeros. -/
def gcmBlocks (bs : List Byte) : List (BitVec 128) :=
  (List.range ((bs.length + 15) / 16)).map fun k => BitVec.ofNat 128 (leValue (fillTo 16 (bs.drop (16 * k))).reverse)

/-- GHASH of additional data and ciphertext, the lengths last. -/
def ghashOf (key : Key) (aad ct : List Byte) : BitVec 128 :=
  let h := Config.aes256 key 0
  (gcmBlocks aad ++ gcmBlocks ct ++ [BitVec.ofNat 128 (8 * aad.length * 2 ^ 64 + 8 * ct.length)]).foldl (fun a b => gfMul (a ^^^ b) h) 0

/-- Bytes under the counter blocks of an IV: encryption and decryption alike. -/
def gcmCrypt (key : Key) (iv : BitVec 96) (bs : List Byte) : List Byte :=
  let stream := (List.range ((bs.length + 15) / 16)).flatMap fun k =>
    (leBytes 16 (Config.aes256 key (iv ++ BitVec.ofNat 32 (2 + k))).toNat).reverse
  (bs.zip stream).map fun q => q.1 ^^^ q.2

/-- The tag over additional data and ciphertext, as bytes. -/
def gcmTagBytes (key : Key) (iv : BitVec 96) (aad ct : List Byte) : List Byte :=
  (leBytes 16 (gcmTag key iv (ghashOf key aad ct)).toNat).reverse

/-! ### Helpers (R247; log entry 51) -/

/-- A negative result of a helper. -/
def helperFails : BitVec 64 := BitVec.allOnes 64

/-- Register 0 set to a helper's result; registers 1 to 5 hold nothing that the spec states (log entry 4). -/
def State.helperResult (s : State) (m : Vm) (w : BitVec 64) : Vm × State :=
  ((List.range 5).foldl (fun (a : Vm × State) k =>
    let f := a.2.free
    (a.1.put (k + 1) (BitVec.ofNat 64 f.1), f.2)) ((m.put 0 w).skip 1, s))

/-- Does an address range lie in a range of the invocation (R246)? -/
def State.vmOwns (s : State) (v : Invocation) (a len : Nat) : Bool :=
  (s.vmRanges v).any fun r => decide (r.1 ≤ a) && decide (a + len ≤ r.1 + r.2)

/-- A namespace of the invoking instance all of whose parts that some blocks lie in are in its slice (R247, R251). -/
def State.runNs (s : State) (v : Invocation) (nsid : Nat) (kind : NsKind) (lbas : List Nat) : Option Namespace :=
  (s.ns nsid).filter fun x => x.kind == kind && x.ownedBy v.owner && lbas.all fun l => decide (l < x.size) && (x.route l).1 == v.slice

/-- read_blocks: NSID, first block and count to an address (R247). -/
def State.helpRead (s : State) (v : Invocation) (nsid lba count a : Nat) : BitVec 64 × State :=
  match s.runNs v nsid .block ((List.range count).map fun k => lba + k) with
  | none => (helperFails, s)
  | some x =>
    let r := s.readRange x lba count
    if r.2.isSome || !s.vmOwns v a (4096 * count) then (helperFails, s)
    else (0, (s.memStore v.slice a (fromBlocks (r.1.filterMap id))).countRange v.hdr x lba count)

/-- object_read: NSID, address of a key (its length, then 16 bytes), value offset and length to an address; the bytes read (R247, R261). -/
def State.helpObject (s : State) (v : Invocation) (m : Vm) (nsid key offset a len : Nat) : BitVec 64 × State :=
  match s.runNs v nsid .object [], s.vmLoad v m key 17 with
  | some x, some kb =>
    let k := keyNorm { len := ((kb.head?).map BitVec.toNat).getD 0, bytes := kb.drop 1 }
    let q := placeKey x k
    if !keyOk k || q.slice != v.slice then (helperFails, s)
    else
      let l := s.lookup q x k
      match l.1.bind (l.2.slice v.slice).recordAt with
      | none => (helperFails, l.2)
      | some o =>
        match l.2.readObject v.slice o offset len with
        | .error _ => (helperFails, l.2)
        | .ok (_, bs) =>
          if o.value.length < offset || !l.2.vmOwns v a bs.length then (helperFails, l.2)
          else (BitVec.ofNat 64 bs.length, (l.2.memStore v.slice a bs).countObject v.hdr v.slice o offset len)
  | _, _ => (helperFails, s)

/-- write_blocks: NSID, first block and count from an address, under R56: the result, the buffer slots that it waits for under Through rules, the
state; none while there is no room or allowance (R83, R127). -/
def State.helpWrite (s : State) (v : Invocation) (nsid lba count a : Nat) : Option (BitVec 64 × List Nat × State) :=
  let lbas := (List.range count).map fun k => lba + k
  match s.runNs v nsid .block lbas with
  | none => some (helperFails, [], s)
  | some x =>
    if s.readOnlyNs x || !s.vmOwns v a (4096 * count) || s.memPoisoned v.slice a (4096 * count) then some (helperFails, [], s)
    else if !s.mayWrite v.hdr x false lbas then none
    else
      let data := toBlocks (memRead (s.slice v.slice).slm a (4096 * count))
      let w := (s.charges v.hdr x lbas).writeBlocks x v.owner (blocksFrom lba data)
      let t := w.state.throughNow v.hdr x false w.wrote
      let waits := (w.wrote.filter fun q => w.state.writesThrough v.hdr x false q.1).map fun q => q.2.1
      some (if w.failed.isSome then helperFails else 0, waits, t.2)

/-- A rule of RECORD_FILTER and filter_load: 16-byte key, 16-byte mask, 4-byte result (R252). -/
def ruleEntry (bs : List Byte) : SearchEntry :=
  let mask := BitVec.ofNat 128 (leValue ((bs.drop 16).take 16))
  { key := BitVec.ofNat 128 (leValue (bs.take 16)) &&& mask, mask := mask, result := BitVec.ofNat 32 (leValue ((bs.drop 32).take 4)), valid := true }

/-- The rules that some bytes give. -/
def rulesOf (n : Nat) (bs : List Byte) : List SearchEntry := (List.range n).map fun k => ruleEntry ((bs.drop (36 * k)).take 36)

/-- A FILTER partition of an invocation in a region with its rules, the rule at index i at offset i; none where too few blocks are free (R252). -/
def State.loadFilter (s : State) (n owner r : Nat) (rules : List SearchEntry) : Option Nat × State :=
  let p := s.newPart n r 3 owner ((rules.length + 255) / 256)
  match p.1 with
  | none => p
  | some k =>
    let base := p.2.partBase n r k
    let put (l : List (Nat × SearchEntry)) : List (Nat × SearchEntry) := rules.zipIdx.foldl (fun l e => mapInsert l (base + e.2) e.1) l
    (some k, p.2.modArray n r fun a =>
      { a with entries := if p.2.active (UnitId.array n r) then put a.entries else a.entries, shadow := put a.shadow })

/-- digest: an algorithm over bytes of a range to an address, on a free instance of the owner (R247, R260); none while none is free. -/
def State.helpDigest (s : State) (v : Invocation) (alg src len a : Nat) : Option (BitVec 64 × State) :=
  let d := fixityOf alg (memRead (s.slice v.slice).slm src len)
  if alg = 0 || 5 < alg || !s.anyInstance v.owner || !s.vmOwns v src len || !s.vmOwns v a d.length || s.memPoisoned v.slice src len then
    some (helperFails, s)
  else
    match s.freeInstance v.owner with
    | none => none
    | some i =>
      let s := ((s.takeInstance (some i) v.owner alg len).feedInstance (some i) (memRead (s.slice v.slice).slm src len)).leaveInstance (some i)
      some (BitVec.ofNat 64 d.length, s.memStore v.slice a d)

/-- What a helper call does at once: its result, an operand that it waits for, or a yield (R246, R247). -/
inductive HelperDone where
  | result (w : BitVec 64) (v : Invocation) (s : State)
  | waits (s : State)
  | yields
  | fault

/-- A helper as it is called by the item of a slot of cluster c; ix is the operand that the work which it starts will fill (R247). -/
def State.helperCall (s : State) (v : Invocation) (m : Vm) (c w ix k : Nat) : HelperDone :=
  let a (j : Nat) : Nat := (m.reg j).toNat
  let n := v.slice
  match k with
  | 1 =>
    match (s.vmRanges v)[a 1]? with
    | none => .result helperFails v s
    | some r =>
      match s.vmStore v m (a 2) (leBytes 8 r.1 ++ leBytes 8 r.2) with
      | none => .fault
      | some (m', s) => .result 0 { v with vm := some m' } s
  | 5 =>
    match a 1 with
    | 0 =>
      if a 2 = 0 ∨ 3 < a 2 ∨ !s.mayCtx n v.owner (a 2) then .result helperFails v s
      else
        match (s.slice n).ctxFree (ctxSpan (a 2)) with
        | none => .result helperFails v s
        | some x => .result (BitVec.ofNat 64 x) v (s.newCtx n c x (a 2) v.owner (some v.id) (v.flow.getD 0xFFFF))
    | 1 =>
      if (mapGet (s.slice n).contexts (a 2)).any fun x => x.owner == v.owner then
        .waits (s.emitNow n c w (.submit (.engine (a 3) (a 2) (a 4) w ix)))
      else .result helperFails v s
    | _ =>
      if (mapGet (s.slice n).contexts (a 2)).any fun x => x.owner == v.owner then .result 0 v (s.closeCtx n (a 2))
      else .result helperFails v s
  | 6 =>
    if 0x100 ≤ v.owner ∨ 1 < a 1 ∨ a 3 = 0 ∨ 8192 < a 3 ∨ !s.vmOwns v (a 2) (36 * a 3) then .result helperFails v s
    else
      let p := s.loadFilter n v.owner (a 1) (rulesOf (a 3) (memRead (s.slice n).slm (a 2) (36 * a 3)))
      match p.1 with
      | none => .result helperFails v p.2
      | some j => .result (BitVec.ofNat 64 j) { v with filters := v.filters ++ [(a 1, j)] } p.2
  | 7 =>
    if !v.filters.contains (a 1, a 2) || !s.vmOwns v (a 3) (16 * a 4) || !s.vmOwns v (a 5) (8 * a 4) then .result helperFails v s
    else
      let keys := (List.range (a 4)).map fun j => BitVec.ofNat 128 (leValue (memRead (s.slice n).slm (a 3 + 16 * j) 16))
      .waits (s.searchIssue n (a 1) { part := a 2, requester := v.owner, offset := 0, op := .batch keys (a 5) 0 })
  | 9 => .result (BitVec.ofNat 64 s.now) v s
  | 10 => .yields
  | _ => .waits s

/-- What a helper gives when its operand has arrived; none while it waits on (R247). -/
def State.helperReturn (s : State) (v : Invocation) (m : Vm) (k : Nat) (op : Operand) : Option (BitVec 64 × List Nat × State) :=
  let a (j : Nat) : Nat := (m.reg j).toNat
  if op.status ≠ 0 then some (-(op.status.zeroExtend 64), [], s)
  else
    match k with
    | 2 => let r := s.helpRead v (a 1) (a 2) (a 3) (a 4); some (r.1, [], r.2)
    | 3 => s.helpWrite v (a 1) (a 2) (a 3) (a 4)
    | 4 => let r := s.helpObject v m (a 1) (a 2) (a 3) (a 4) (a 5); some (r.1, [], r.2)
    | 8 => (s.helpDigest v (a 1) (a 2) (a 3) (a 4)).map fun r => (r.1, [], r.2)
    | _ => some (op.value, [], s)

/-! ### Runs of eBPF programs (R24, R246) -/

/-- How a run ends: released and continued with a NEED, still on its core, at the program's exit, or with FAULT. -/
inductive VmEnd where
  | continued (need : BitVec 4)
  | running
  | exited
  | faulted
  deriving DecidableEq, Repr

/-- A run of the item of a slot on some core cycles, with more to come in the next course before its budget ends; first the most instructions that it
can take (R246). A program that would run to the end of its budget without meeting a test is continued there (log entry 51). -/
def vmGo (c w ix more : Nat) : Nat → Nat → Invocation → Vm → State → VmEnd × Invocation × Vm × State
  | 0, _, v, m, s => (if more = 0 then .continued 0 else .running, v, m, s)
  | fuel + 1, left, v, m, s =>
    match m.code[m.pc]? with
    | none => (.faulted, v, m, s)
    | some i =>
      let cost := 1 + Config.bpfCycles i.op
      if m.tests i && decide (left + more < 1000) then (.continued 0, v, m, s)
      else if left < cost then (if more = 0 then .continued 0 else .running, v, m, s)
      else
        match s.vmStep v m i with
        | .run m s => vmGo c w ix more fuel (left - cost) v m s
        | .exit => (.exited, v, m, s)
        | .fault => (.faulted, v, m, s)
        | .helper k =>
          match s.helperCall v m c w ix k with
          | .fault => (.faulted, v, m, s)
          | .yields =>
            let f := s.free
            let r := f.2.helperResult m (BitVec.ofNat 64 f.1)
            (.continued 0, v, r.1, r.2)
          | .waits s => (.continued (BitVec.ofNat 4 (2 ^ ix)), v, { m with call := some (k, ix) }, s)
          | .result x v s =>
            let r := s.helperResult (v.vm.getD m) x
            vmGo c w ix more fuel (left - cost) { v with vm := none } r.1 r.2

/-- The wait of a helper taken up again: none while it goes on (R247). The translated code empties the operand that it has read (log entry 51). -/
def State.vmReturn (s : State) (v : Invocation) (m : Vm) (c : Nat) (i : WorkItem) : Option (Vm × State) :=
  match m.call with
  | none => if m.awaits.any fun w => (s.slice v.slice).versions.any fun x => x.wslot == w then none else some ({ m with awaits := [] }, s)
  | some (k, ix) =>
    match mapGet i.operands ix with
    | none => none
    | some op =>
      match s.helperReturn v m k op with
      | none => none
      | some (x, waits, s) =>
        let s := s.modItem v.slice c i.wslot fun i =>
          { i with operands := mapErase i.operands ix, have4 := i.have4 &&& ~~~(BitVec.ofNat 4 (2 ^ ix)) }
        let r := s.helperResult m x
        some ({ r.1 with call := none, awaits := waits }, r.2)

/-- The lowest operand index of an item that holds nothing. -/
def WorkItem.freeOperand (i : WorkItem) : Nat := (((List.range 4).find? fun k => !i.have4.getLsbD k)).getD 0

/-- A run's end put into the item and the invocation: CONTINUE, END or FAULT (R231, R246). -/
def State.vmEnd (s : State) (c w : Nat) (e : VmEnd) (v : Invocation) (m : Vm) : State :=
  let n := v.slice
  let put (s : State) (m : Vm) : State := { s with invocations := recPut Invocation.id s.invocations { v with vm := some m } }
  match e with
  | .running => put s m
  | .continued need =>
    put (s.modItem n c w fun i => { i.releasePoint with state := .waiting, need := need, core := none }) m
  | .exited => put ((s.modItem n c w WorkItem.releasePoint).holdItem n c w 0 0) { m with ended := some (some (m.reg 0)) }
  | .faulted => put (s.holdItem n c w 4 0) { m with ended := some none }

/-- The item of a translated program that is RUNNING as a course of a length ends has run through that course, unless it was dispatched
within it (R24, R246). -/
def State.vmRun (s : State) (n c len : Nat) (i : WorkItem) : State :=
  match i.inv.bind fun id => recGet Invocation.id s.invocations id with
  | none => s
  | some v =>
    match v.vm with
    | none => s
    | some m =>
      if i.mid || v.slice != n || m.ended.isSome then s
      else
        match s.vmReturn v m c i with
        | none => s.vmEnd c i.wslot (.continued 0) v m
        | some (m, s) =>
          if m.awaits ≠ [] then s.vmEnd c i.wslot (.continued 0) v m
          else
            let cycles := len * 3 / 2
            let more := if i.poolCore && decide (i.heldFor + len < 6240) then 9360 else 0
            let free := (((s.cluster n c).item i.wslot).getD i).freeOperand
            let r := vmGo c i.wslot free more cycles cycles { v with vm := none } m s
            r.2.2.2.vmEnd c i.wslot r.1 r.2.1 r.2.2.1

/-- Every translated program of slice n that is on a core runs through a course that ends (R246). -/
def State.runPrograms (s : State) (n : Nat) : State :=
  (List.range 4).foldl (fun s c =>
    ((s.cluster n c).items.filter fun q => (q.2.state == .running) && q.2.inv.isSome).foldl (fun s q => s.vmRun n c s.courseLen q.2) s) s

/-- A verified program as an invocation starts it: registers 1 to 3 name the parameter copy, its length and the number of ranges (R246), register 10
the top of the frame (R245); what the others hold the spec does not state (log entry 4). -/
def State.startVm (s : State) (v : Invocation) (image : List Byte) : Vm × State :=
  let r := (List.range 11).foldl (fun (a : List (BitVec 64) × State) _ =>
    let f := a.2.free
    (a.1 ++ [BitVec.ofNat 64 f.1], f.2)) ([], s)
  let m : Vm := { code := bpfSlots image, pc := 0, regs := r.1, frames := [], stack := [], call := none, awaits := [], ended := none }
  (((((m.put 1 (BitVec.ofNat 64 v.paramBase)).put 2 (BitVec.ofNat 64 v.params.length)).put 3 (BitVec.ofNat 64 v.ranges.length)).put 10
    (BitVec.ofNat 64 (v.frameBase 0 + 512))), r.2)

/-! ### Device-defined programs: parameters, input and output (R251; log entry 52) -/

/-- The parameter header (Parameter header), little-endian. -/
structure ParamHdr where
  kind : Nat
  inRange : Nat
  outRange : Nat
  nsid : Nat
  start : Nat
  len : Nat
  outOffset : Nat
  key : KvKey

/-- The header that parameters begin with. -/
def paramHdr (ps : List Byte) : ParamHdr :=
  let f (lo n : Nat) : Nat := leValue ((ps.drop lo).take n)
  { kind := f 0 1, inRange := f 1 1, outRange := f 2 1, nsid := f 4 4, start := f 8 8, len := f 16 8, outOffset := f 24 8,
    key := keyNorm { len := f 48 1, bytes := (ps.drop 32).take 16 } }

/-- An own parameter. -/
def Invocation.own (v : Invocation) (k : Nat) : Nat := Config.ownParam v.index k v.params

/-- The bytes of a range from an offset on; none outside it or where a line is poisoned (R250, R298). -/
def State.rangeBytes (s : State) (v : Invocation) (r offset len : Nat) : Option (List Byte) :=
  match (s.vmRanges v)[r]? with
  | none => none
  | some q =>
    if q.2 < offset + len ∨ s.memPoisoned v.slice (q.1 + offset) len then none
    else some (memRead (s.slice v.slice).slm (q.1 + offset) len)

/-- Address and capacity of the output: the rest of its range. -/
def State.outPlace (s : State) (v : Invocation) (p : ParamHdr) : Option (Nat × Nat) :=
  ((s.vmRanges v)[p.outRange]?).bind fun q => if q.2 < p.outOffset then none else some (q.1 + p.outOffset, q.2 - p.outOffset)

/-- The input of a device-defined program, the object that it comes from and the regions whose flash supplies it; none where it cannot be had. -/
def State.progInput (s : State) (v : Invocation) (p : ParamHdr) : Option (List Byte × Option ObjRecord × State) :=
  let n := v.slice
  match p.kind with
  | 0 => (s.rangeBytes v p.inRange p.start p.len).map fun b => (b, none, s)
  | 1 =>
    match s.runNs v p.nsid .block ((List.range p.len).map fun k => p.start + k) with
    | none => none
    | some x =>
      let r := s.readRange x p.start p.len
      if r.2.isSome then none else some (fromBlocks (r.1.filterMap id), none, s.countRange v.hdr x p.start p.len)
  | 2 =>
    match s.runNs v p.nsid .object [] with
    | none => none
    | some x =>
      let q := placeKey x p.key
      if !keyOk p.key || q.slice != n then none
      else
        let l := s.lookup q x p.key
        match l.1.bind (l.2.slice n).recordAt with
        | none => none
        | some o =>
          match l.2.readObject n o p.start p.len with
          | .error _ => none
          | .ok (_, bs) => some (bs, some o, l.2.countObject v.hdr n o p.start p.len)
  | _ => none

/-- The local regions whose flash supplies the input of a program; both where no flash does (R252; log entry 52). -/
def State.inputRegions (s : State) (v : Invocation) (p : ParamHdr) : List Nat :=
  let n := v.slice
  let at_ : List Nat := match p.kind with
    | 1 => ((s.runNs v p.nsid .block ((List.range p.len).map fun k => p.start + k)).map fun x =>
        ((List.range p.len).map fun k => (s.place x (p.start + k)).2.1).eraseDups).getD []
    | 2 => ((s.runNs v p.nsid .object []).bind fun x =>
        ((s.lookup (placeKey x p.key) x p.key).1.bind (s.slice n).recordAt).map fun o => o.recordLua :: o.luas).getD []
    | _ => []
  let rs := (at_.filterMap fun i => ((s.slice n).unitAt ((s.slice n).entry i)).map fun u => lunRegion u.lun).eraseDups
  if rs = [] then [0, 1] else [0, 1].filter rs.contains

/-- How a device-defined program ended: its outcome, DW0, the state; none while it still waits. -/
structure ProgEnd where
  outcome : RunOutcome
  ret : Nat
  state : State

/-- A program that ends with FAULT (log entry 52). -/
def State.progFault (s : State) : ProgEnd := { outcome := .fault, ret := 0, state := s }

/-- An output written, with DW0; FAULT where its range does not hold it. -/
def State.progWrite (s : State) (v : Invocation) (p : ParamHdr) (bs : List Byte) (ret : Nat) : ProgEnd :=
  match s.outPlace v p with
  | none => s.progFault
  | some o => if o.2 < bs.length then s.progFault else { outcome := .returned, ret := ret, state := s.memStore v.slice o.1 bs }

/-! ### RECORD_FILTER and PATTERN_SEARCH (R251, R252) -/

/-- Records examined and kept, in order, until the output has no room for one more (R252). -/
def filterRecords (keep : List Byte → Bool) : Nat → List (List Byte) → Nat × List (List Byte)
  | _, [] => (0, [])
  | 0, _ => (0, [])
  | room + 1, r :: l =>
    if keep r then let a := filterRecords keep room l; (a.1 + 1, r :: a.2)
    else let a := filterRecords keep (room + 1) l; (a.1 + 1, a.2)

/-- The rules that RECORD_FILTER names; none where a parameter lies outside its range (R251). -/
def State.filterRules (s : State) (v : Invocation) : Option (List SearchEntry) :=
  let size := v.own 0
  let rules := v.own 5
  if size < 16 ∨ 4096 < size ∨ size % 16 ≠ 0 ∨ size < v.own 1 + 16 ∨ 2 < v.own 2 ∨ rules = 0 ∨ 8192 < rules then none
  else (s.rangeBytes v (v.own 4) 0 (36 * rules)).map (rulesOf rules)

/-- Is a record kept: MATCH and RESULT of the first rule that its field matches, under MODE and SEL (R208, R252)? -/
def Invocation.keeps (v : Invocation) (rules : List SearchEntry) (record : List Byte) : Bool :=
  let field := BitVec.ofNat 128 (leValue ((record.drop (v.own 1)).take 16))
  let hit := rules.find? fun e => field &&& e.mask == e.key
  match v.own 2 with
  | 0 => hit.isSome
  | 1 => hit.isNone
  | _ => hit.any fun e => e.result &&& BitVec.ofNat 32 (v.own 3) != 0

/-- RECORD_FILTER: the first 16 bytes of the output give the records examined and kept, the kept records follow (R252; log entry 52). -/
def State.recordFilter (s : State) (v : Invocation) (p : ParamHdr) (input : List Byte) : ProgEnd :=
  match s.filterRules v, s.outPlace v p with
  | some rules, some o =>
    if o.2 < 16 then s.progFault
    else
      let size := v.own 0
      let records := (List.range (input.length / size)).map fun k => (input.drop (size * k)).take size
      let r := filterRecords (v.keeps rules) ((o.2 - 16) / size) records
      let s := match v.filters.head? with
        | some f => s.countSearches v.slice f.1 r.1 (!s.active (UnitId.array v.slice f.1))
        | none => s.countSearches v.slice 0 r.1 true
      s.progWrite v p (leBytes 8 r.1 ++ leBytes 8 r.2.length ++ r.2.flatten) r.2.length
  | _, _ => s.progFault

/-- PATTERN_SEARCH: one hit of 16 bytes for each offset at which a pattern stands, lowest offset first, then by pattern, as many as the output holds
(R251; log entry 52). -/
def State.patternSearch (s : State) (v : Invocation) (p : ParamHdr) (input : List Byte) : ProgEnd :=
  let ps := Config.patterns (v.params.drop 64)
  if ps.length > 16 || ps.any (fun q => q.length == 0 || decide (64 < q.length)) then s.progFault
  else
    match s.outPlace v p with
    | none => s.progFault
    | some o =>
      let hits := ((List.range input.length).flatMap fun i =>
        (ps.zipIdx.filter fun q => (input.drop i).take q.1.length == q.1).map fun q => (i, q.2)).take (o.2 / 16)
      s.progWrite v p (hits.flatMap fun q => leBytes 8 q.1 ++ leBytes 1 q.2 ++ List.replicate 7 0) hits.length

/-! ### Streams and digests (R251, R203, R260) -/

/-- COMPRESS and DECOMPRESS: the bytes of the output are a free value, those of a compressor within its bound (R192, R203; log entry 52); an output
above the capacity ends with CAPACITY. -/
def State.streamProgram (s : State) (v : Invocation) (p : ParamHdr) (input : List Byte) : ProgEnd :=
  let f := s.free
  let all := Config.programOutput v.index v.params input f.1
  let bs := if v.index = 2 then all.take (expansionBound (v.own 0) input.length) else all
  match f.2.outPlace v p with
  | none => f.2.progFault
  | some o => if o.2 < bs.length then { outcome := .engine 7, ret := 0, state := f.2 } else f.2.progWrite v p bs bs.length

/-- The instance that a digest of a program takes: some none where none is needed, none while it waits (R260). -/
def State.progInstance (s : State) (v : Invocation) (alg : Nat) : Option (Option Nat) :=
  if alg = 0 then some none else (s.freeInstance v.owner).map some

/-- A digest of bytes passes an instance, which is free again after the last byte (R260). -/
def State.passInstance (s : State) (v : Invocation) (i : Option Nat) (alg : Nat) (bs : List Byte) : State :=
  ((s.takeInstance i v.owner alg bs.length).feedInstance i bs).leaveInstance i

/-- FIXITY: the digest of the input; bit 31 of DW0 where it differs from the object's record (R251, R260). -/
def State.fixityProgram (s : State) (v : Invocation) (p : ParamHdr) (input : List Byte) (o : Option ObjRecord) : Option ProgEnd :=
  let alg := v.own 0
  if alg = 0 ∨ 5 < alg then some s.progFault
  else (s.progInstance v alg).map fun i =>
    let d := fixityOf alg input
    let bad := o.any fun o => o.digest != d
    (s.passInstance v i alg input).progWrite v p d (d.length + if bad then 2 ^ 31 else 0)

/-! ### Sealed containers (R253) -/

/-- Bytes 0 to 127 of a container (Sealed container). -/
def containerHdr (o : ObjRecord) (iv : BitVec 96) : List Byte :=
  leBytes 4 0x53464F53 ++ leBytes 2 1 ++ leBytes 1 o.key.len ++ leBytes 1 o.alg ++ fillTo 16 o.key.bytes ++ leBytes 4 o.value.length ++
    leBytes 4 0 ++ fillTo 64 o.digest ++ leBytes 12 iv.toNat ++ List.replicate 20 0

/-- May the invocation use a key slot: a tenant slot of its owner that holds a key, of USE CIPHER (R183, R253)? -/
def State.sealKeyOk (s : State) (v : Invocation) (slot : Nat) : Bool :=
  s.slotOwned v.owner slot && (s.keySlot slot).use == 0 && !((s.keySlot slot).state == .empty)

/-- OBJECT_SEAL: the value as one GCM message under the named slot, bytes 0 to 127 being its additional data (R253); it waits while the counter does
(R171), and takes no value where the output has no room. -/
def State.objectSeal (s : State) (v : Invocation) (p : ParamHdr) (o : Option ObjRecord) (value : List Byte) : Option ProgEnd :=
  let slot := v.own 0
  let n := v.slice
  match o with
  | none => some s.progFault
  | some o =>
    let room := ((s.outPlace v p).map Prod.snd).getD 0
    if !s.sealKeyOk v slot || decide (room < 128 + value.length + 16) then some s.progFault
    else if !s.ctrReady n slot then none
    else (s.progInstance v o.alg).map fun i =>
      let key := (s.keySlot slot).key
      let t := s.takeCtr n slot
      let iv := ivOf n slot t.1
      let hdr := containerHdr { o with value := value } iv
      let ct := gcmCrypt key iv value
      (t.2.passInstance v i o.alg value).progWrite v p (hdr ++ ct ++ gcmTagBytes key iv hdr ct) (min (144 + value.length) (2 ^ 32 - 1))

/-- A value stored as an object of a namespace of the invocation (R253, R257, R259): the new state, none while there is no room; a store that R255,
R257 or R135 refuses is a negative reason that the spec does not number (log entry 52). -/
def State.unsealStore (s : State) (v : Invocation) (nsid : Nat) (k : KvKey) (value : List Byte) : Option (Nat × State) :=
  let refused (s : State) : Nat × State := let f := s.free; (2 ^ 32 - 3 - f.1 % 256, f.2)
  match (s.runNs v nsid .object []).filter fun _ => keyOk k with
  | none => some (refused s)
  | some x =>
    let q := placeKey x k
    if q.slice ≠ v.slice then some (refused s)
    else
      let l := s.lookup q x k
      match l.2.openStore x k q .none value.length v.owner l.1 with
      | .error _ => some (refused l.2)
      | .ok o =>
        let s := l.2
        let n := q.slice
        if !s.objectRoom v.hdr x n o.luas.length then none
        else (s.progInstance v x.desc.fixity).map fun i =>
          let s := s.passInstance v i x.desc.fixity value
          let s := (s.charge v.owner n x.pool value.length).evalWear
          let s := s.modSlice n fun y => y.recordIngest 0 o.luas
          let luas := o.luas.dropLast
          let w := s.writeUnits q x.nsid v.owner (cutUnits (s.mu n * 4096) 0 luas value)
          let c := w.2.commitObject q x k v.owner o.place value luas ((o.luas.getLast?).getD 0) (fixityOf x.desc.fixity value)
          (0, c.2)

/-- OBJECT_UNSEAL: the tag, then the digest; only then the value is written or stored (R253). A container that is not one fails as its tag does (log
entry 52). -/
def State.objectUnseal (s : State) (v : Invocation) (p : ParamHdr) (input : List Byte) : Option ProgEnd :=
  let f (lo n : Nat) : Nat := leValue ((input.drop lo).take n)
  let slot := v.own 0
  let dest := v.own 1
  let len := f 24 4
  let alg := f 7 1
  let ends (s : State) (r : Nat) : ProgEnd := { outcome := .returned, ret := r, state := s }
  if !s.sealKeyOk v slot then some s.progFault
  else if input.length < 144 + len ∨ f 0 4 ≠ 0x53464F53 ∨ f 4 2 ≠ 1 then some (ends s (2 ^ 32 - 1))
  else
    let key := (s.keySlot slot).key
    let iv := BitVec.ofNat 96 (f 96 12)
    let hdr := input.take 128
    let ct := (input.drop 128).take len
    if (input.drop (128 + len)).take 16 ≠ gcmTagBytes key iv hdr ct then some (ends s (2 ^ 32 - 1))
    else
      match s.progInstance v alg with
      | none => none
      | some i =>
        let value := gcmCrypt key iv ct
        let s := s.passInstance v i alg value
        if alg ≠ 0 ∧ fillTo 64 (fixityOf alg value) ≠ (input.drop 32).take 64 then some (ends s (2 ^ 32 - 2))
        else if dest = 0 then some (s.progWrite v p value 0)
        else (s.unsealStore v dest (keyNorm { len := f 6 1, bytes := (input.drop 8).take 16 }) value).map fun r => ends r.2 r.1

/-! ### The programs -/

/-- INDEX_LOOKUP and INDEX_BUILD: the layout of what they write is open, so the rest of the output range is a free value, and DW0 is what the command
gives (R251; log entry 52). -/
def State.indexProgram (s : State) (v : Invocation) (p : ParamHdr) (input : List Byte) (ret : Nat) : ProgEnd :=
  match s.outPlace v p with
  | none => s.progFault
  | some o =>
    let f := s.free
    f.2.progWrite v p ((Config.programOutput v.index v.params input f.1).take o.2) ret

/-- A device-defined program that has run to its end (R251); none while it waits for a counter, an instance or room. -/
def State.deviceProgram (s : State) (v : Invocation) (ret : Nat) : Option ProgEnd :=
  let p := paramHdr v.params
  match s.progInput v p with
  | none => some s.progFault
  | some (input, o, s) =>
    match v.index with
    | 0 => some (s.recordFilter v p input)
    | 1 => some (s.patternSearch v p input)
    | 2 => some (s.streamProgram v p input)
    | 3 => some (s.streamProgram v p input)
    | 4 => s.fixityProgram v p input o
    | 5 => s.objectSeal v p o input
    | 6 => s.objectUnseal v p input
    | _ => some (s.indexProgram v p input ret)

/-- The FILTER partitions of a RECORD_FILTER, with its rules: one in each region whose flash supplies input and whose searches are served,
where enough blocks are free; the others run on the cores (R222, R252). -/
def State.openFilters (s : State) (v : Invocation) : List (Nat × Nat) × State :=
  match s.filterRules v with
  | none => ([], s)
  | some rules =>
    if v.index ≠ 0 ∨ 0x100 ≤ v.owner then ([], s)
    else (s.inputRegions v (paramHdr v.params)).foldl (fun (a : List (Nat × Nat) × State) r =>
      if !(a.2.active (UnitId.array v.slice r) || a.2.bit (Adr.asCfg v.slice) 0) then a
      else
        let p := a.2.loadFilter v.slice v.owner r rules
        match p.1 with
        | none => (a.1, p.2)
        | some k => (a.1 ++ [(r, k)], p.2)) ([], s)

end Sys2Proof.Machine
end

