-- ==== Sys2Proof/Machine/Programs.lean ====
section
/-!
DEFINITION. Meanings of the Computational Programs commands and of the ends of invocations (R240 to R248).
-/

namespace Sys2Proof.Machine

/-! ### Loading and activation (R240, R241, R248) -/

/-- Bytes that an image of a type may have (R241). -/
def imageLimit (t : ProgType) : Nat :=
  match t with
  | .ebpf => 262144
  | .native => 4194304
  | .other _ => 0

/-- Load reasons of a whole image: its header, signature and key, or the verifier (R241, R245, R248). -/
def State.loadReason (s : State) (t : ProgType) (bs : List Byte) : Nat :=
  match t with
  | .ebpf => bpfReason bs
  | .native =>
    if bs.length < 256 ∨ !Config.nativeHeaderOk (bs.take 256) then 8
    else match Config.nativeSigner bs with
      | none => 7
      | some d => if ((s.image.map SeedImage.signers).getD []).contains d then 0 else 7
  | .other _ => 0

/-- The program of an index. -/
def Namespace.program (x : Namespace) (index : Nat) : Option Program := recGet Program.index x.programs index

/-- An index that holds a program, or none. -/
def State.putProgram (s : State) (nsid index : Nat) (p : Option Program) : State :=
  s.modNs nsid fun x =>
    match p with
    | none => { x with programs := recErase Program.index x.programs index }
    | some p => { x with programs := recPut Program.index x.programs p }

/-- A load that fails leaves no program: Invalid Field with its reason (R241). -/
def State.failLoad (s : State) (h : Hdr) (nsid index reason : Nat) : State :=
  (s.putProgram nsid index none).finish h (ansReason stField reason)

/-- Load Program (R240, R241): a piece in ascending order; the last one is verified before the command completes. -/
def execLoadProgram (h : Hdr) (nsid index : Nat) (ptype : ProgType) (total offset : Nat) (piece : List (BitVec 8)) (s : State) :
    Host.Outcome State Fault Refusal :=
  .next (s.ioCmd h nsid .computational fun x s =>
    match ptype with
    | .other _ => s.finish h (ansSt stField)
    | t =>
      if index < 16 ∨ 63 < index then s.finish h (ansSt stField)
      else
        let s := s.dataIn h piece.length
        let have_ : List Byte := if offset = 0 then [] else ((x.program index).map Program.image).getD []
        let image := have_ ++ piece
        if imageLimit t < total ∨ total < offset + piece.length then s.failLoad h nsid index 1
        else if have_.length ≠ offset ∨ (offset ≠ 0 ∧ !(x.program index).any fun p => p.ptype == t && p.total == total && !p.verified)
        then s.failLoad h nsid index 9
        else
          let p : Program := { index := index, ptype := t, total := total, image := image, verified := false, active := false }
          if image.length < total then (s.putProgram nsid index (some p)).finish h (ansSt stOk)
          else
            let r := s.loadReason t image
            if r ≠ 0 then s.failLoad h nsid index r
            else (s.putProgram nsid index (some { p with verified := true })).finish h (ansSt stOk))

/-- The program-unavailable status (R241). -/
def stUnavailable : Status := mkSt 1 Config.unavailableCode true

/-- Program Activation Management (R241): indexes 16 to 63 that hold a program. -/
def execProgramActivationManagement (h : Hdr) (nsid index : Nat) (activate : Bool) (s : State) : Host.Outcome State Fault Refusal :=
  .next (s.ioCmd h nsid .computational fun x s =>
    if index < 16 ∨ 63 < index then s.finish h (ansSt stField)
    else
      match (x.program index).filter Program.verified with
      | none => s.finish h (ansSt (if activate then stUnavailable else stOk))
      | some p => (s.putProgram nsid index (some { p with active := activate })).finish h (ansSt stOk))

/-! ### Invocation (R242 to R244, R251) -/

/-- May an index be executed: a device-defined program whose units the slice has, or an activated one (R204, R240, R241, R251)? -/
def State.available (s : State) (x : Namespace) (n index : Nat) : Bool :=
  if index < 16 then
    decide (index ≤ 8) &&
      (if index = 2 ∨ index = 3 ∨ index = 5 then s.built (UnitId.pair n 0)
       else if index = 7 then s.built (UnitId.array n 0)
       else true)
  else (x.program index).any Program.active

/-- Does a range lie in a memory namespace of the owner in slice n (R242, R250)? -/
def State.rangeOk (s : State) (n owner : Nat) (r : MemRange) : Bool :=
  (s.ns r.nsid).any fun x => x.kind == .memory && x.ownedBy owner && x.parts.any (fun p => p.slice == n) &&
    decide (r.offset + r.length ≤ x.size * 4096)

/-- The translated code that an invocation of an eBPF program starts (R246). -/
def State.translated (s : State) (x : Namespace) (v : Invocation) : Option Vm × State :=
  match (x.program v.index).filter fun p => p.ptype == .ebpf && decide (16 ≤ v.index) with
  | none => (none, s)
  | some p => let r := s.startVm v p.image; (some r.1, r.2)

/-- Execute Program (R242): the ranges and the index are checked; the flow and the entry item count against the instance, and an owner at
its limit waits. Which cluster and which entry run it is a free value (log entry 4). -/
def execExecuteProgram (h : Hdr) (nsid index : Nat) (ranges : List MemRange) (limit : Nat) (params : List (BitVec 8)) (s : State) :
    Host.Outcome State Fault Refusal :=
  .next (s.ioCmd h nsid .computational fun x s =>
    let n := ((x.parts.head?).map NsPart.slice).getD 8
    let owner := ctrlOwner h.ctrl
    if 16 < ranges.length ∨ 4096 < params.length ∨ 63 < index then s.finish h (ansSt stField)
    else if !s.sliceUp n then s.finish h (ansSt stOffline)
    else if !s.available x n index then s.finish h (ansSt stUnavailable)
    else if !ranges.all (s.rangeOk n owner) then s.finish h (ansSt stField)
    else
      let r := s.choose ((List.range 4).filter fun c =>
        s.active (UnitId.cluster n c) && s.mayFlow n c owner && s.maySlot n c owner)
      match r.1 with
      | none => s.hold h
      | some c =>
        let s := r.2.dataIn h params.length
        let f := s.openFlow n c owner
        let e := f.2.free
        let id := s.nextInv
        let a := e.2.allocSlot n c e.1 (BitVec.ofNat 64 id) owner (some h.ctrl) (some id) f.1 0 none
        let v : Invocation :=
          { id := id, hdr := h, slice := n, owner := owner, nsid := nsid, index := index, ranges := ranges, params := params,
            limit := if limit = 0 then 4096 else limit % 65536, startedAt := s.now, cluster := c, flow := f.1, filters := [], vm := none }
        let p := a.2.openFilters v
        let m := p.2.translated x v
        let s : State := { m.2 with invocations := m.2.invocations ++ [{ v with filters := p.1, vm := m.1 }], nextInv := id + 1 }
        s.answer h (ansSt stOk) [.invocation id])

/-- The completion of an outcome (Runtime outcomes): DW0 is the return value of a program that returned; a Length Mismatch carries the signed
difference, positive for excess (R71). -/
def outcomeAnswer (o : RunOutcome) (ret : Nat) : Answer :=
  match o with
  | .returned => runAnswer stOk 0 0 ret
  | .fault => runAnswer stOk 1 0 0
  | .timeLimit => runAnswer stOk 2 0 0
  | .engine st => runAnswer stOk 3 (st % 256) 0
  | .overrun => runAnswer stOverrun 4 0 0
  | .lengthMismatch declared arrived => { runAnswer stLength 5 0 0 with info := (arrived : Int) - declared }
  | .fenced => runAnswer stInternal 6 0 0
  | .digestBusy => runAnswer stDigestBusy 7 0 0
  | .searchBusy => runAnswer stSearchBusy 8 0 0

/-- The invocation of a number. -/
def State.invocation (s : State) (inv : Nat) : Option Invocation := recGet Invocation.id s.invocations inv

/-- May an invocation end with an outcome now, and with which return value: a translated program returns, or faults, when its code has, with
register 0 at its exit, and is never cut at its budget (R244, R246). -/
def Invocation.ends (v : Invocation) (outcome : RunOutcome) (ret : Nat) : Option (RunOutcome × Nat) :=
  match v.vm with
  | none => some (outcome, ret)
  | some m =>
    if outcome = .returned ∨ outcome = .fault ∨ outcome = .overrun then
      m.ended.map fun r => match r with
        | some w => (.returned, w.toNat % 2 ^ 32)
        | none => (.fault, 0)
    else some (outcome, ret)

/-- INVOCATION_COMPLETE (R244): the invocation ends with its outcome; contexts, partitions and flow are freed. A device-defined program that
returns has its effect (R251); a native one returns what the command says. -/
def execInvocationComplete (inv : Nat) (outcome : RunOutcome) (ret : BitVec 32) (s : State) : Host.Outcome State Fault Refusal :=
  .next (match s.invocation inv with
    | none => s
    | some v =>
      match v.ends outcome ret.toNat with
      | none => s
      | some e =>
        if v.index < 16 ∧ e.1 = .returned then
          match s.deviceProgram v e.2 with
          | none => s
          | some r => r.state.endInvocation v (outcomeAnswer r.outcome r.ret)
        else s.endInvocation v (outcomeAnswer e.1 e.2))

/-- INVOCATION_LIMIT_EXPIRY (R242, R243): the remaining work is discarded with TIME_LIMIT. -/
def execInvocationLimitExpiry (inv : Nat) (s : State) : Host.Outcome State Fault Refusal :=
  .next (match s.invocation inv with
    | none => s
    | some v => s.endInvocation v (outcomeAnswer .timeLimit 0))

end Sys2Proof.Machine
end

