-- ==== Sys2Proof/Machine/Course.lean ====
section
/-!
DEFINITION. Meanings of the course commands: course and bond period boundaries, the commit, and COURSE_SYNC (R20 to R39).
-/

namespace Sys2Proof.Machine

/-! ### What every unit does at a course boundary (R22, R26) -/

/-- A recorded doorbell takes effect (R85). -/
def SubQ.ring (q : SubQ) : SubQ := { q with tail := q.recorded.getD q.tail, recorded := none }

/-- Doorbells recorded for a tenant take effect (R85). -/
def State.ringRecorded (s : State) (ti : Nat) : State :=
  (s.ctrlsOf ti).foldl (fun s c => s.modCtrl c fun k => { k with sqs := k.sqs.map SubQ.ring }) s

/-- A tenant's change of state whose course has come (R74, R85). -/
def State.turnTenant (s : State) (t : Tenant) : State :=
  match t.next with
  | none => s
  | some (due, st) =>
    if s.now < due then s
    else
      let s := s.modTenant t.ti fun t => { t with state := st, next := none, saved := t.saved && !(st == .online) }
      if st = .online then s.ringRecorded t.ti else s

/-- What a Function Level Reset in progress cuts off at the boundary: commands before dispatch, and host DMA for the function (R88). -/
def State.flrDiscard (s : State) : State :=
  let out (x : InFlight) : Bool := s.flrOn x.hdr.ctrl &&
    (match x.phase with
     | .fetched => true
     | .held => true
     | _ => false)
  let t : State := { s with inflight := s.inflight.filter fun x => !out x }
  (t.hdDrop fun q => q.hdr.any fun h => s.flrOn h.ctrl).hdRefill

/-- A unit missed the limit of R22: recorded, and reported to the containment logic. -/
def State.lateUnit (s : State) (u : UnitId) : State :=
  if s.built u then ((s.setBit Adr.ckSts 0).inc Adr.ckLateCnt).report u .late else s

/-- Wear allowances replenished for one course of 3.9 µs, up to WEAR_BURST (R83). -/
def State.replenish (s : State) : State :=
  (s.mapTenants fun t => { t with allowance := min (t.wearBurst : Rat) (t.allowance + (t.wearRate : Rat) * 39 / 36000000000) }).evalWear

/-- A search array's new rate step (R220). -/
def State.turnRate (s : State) (n r : Nat) : State :=
  match (s.array n r).pendingRate with
  | none => s
  | some k =>
    let s := (s.putF (Adr.asSts n) (9 + 2 * r) (8 + 2 * r) k).modArray n r fun a => { a with pendingRate := none }
    let s := s.setBit (Adr.asEvt n) 0
    if k = 3 then s.setBit (Adr.asEvt n) 1 else s

/-- Courses in which an array of the slice runs below FULL (AS_THROTTLE_r). -/
def State.countThrottle (s : State) (n : Nat) : State :=
  [0, 1].foldl (fun s r => if s.active (UnitId.array n r) && s.searchRate n r != 0 then s.inc (Adr.asThrottle n r) else s) s

/-- The erases of a slice that have ended well: the block's wear rises, and a block kept back is erased (R123, R126). -/
def State.endErases (s : State) (n : Nat) : State :=
  let ws := (s.slice n).flash.works.filter fun w => w.op == .erase && w.stage == .ended true
  ws.foldl (fun s w =>
    (s.erase n w.lun w.block w.mode w.rate).modSlice n fun x =>
      let x := x.dropWorks fun v => v.id == w.id
      if w.why = .reserve then x.modReserve w.lun w.block fun r => { r with ready := true, fill := 0 } else x) s

/-- The flash channels and the stream engines of a slice in the course that ends; in PS3 and PS4 they stand still (R23, R161 to R164, R176, R189,
R344). -/
def State.flashTurn (s : State) (n : Nat) : State :=
  if !s.hasSlice n || decide (3 ≤ s.fld Adr.pwSts 26 24) || (s.slice n).mode == .off || (s.slice n).mode == .offline then s
  else (((s.flashCourse n).endErases n).engineCourse n).clearSensed n

/-- What the translation layer of a slice does at a course boundary: streaming, relocation, verification, garbage collection, the checkpoint, the end
of a landing (R108, R113, R116, R122, R129, R130). -/
def State.mediaBoundary (s : State) (n : Nat) : State :=
  let s := (s.streamStarts n).pumpMoves n
  let s := ((s.pumpVerify n).checkpoint n).eraseReserve n
  ((((s.pools n).foldl (fun s p => s.collect n p) s).endLanding n).evacProgress n).cacheSecond n

/-- What a slice does at a course boundary apart from the work that the bond table divides: cipher paths, rate steps, and its media (R182, R220).
Device maintenance pauses in PS3 and PS4, and a Dump starts nothing new (R337, R347). -/
def State.sliceBoundary (s : State) (n : Nat) : State :=
  let s := (((s.modSlice n Slice.startVerify).evalPaths n).purgeKeys n).turnGenerators n
  let s := ((s.turnRate n 0).turnRate n 1).countThrottle n
  if !s.sliceUp n || s.dumping || decide (3 ≤ s.fld Adr.pwSts 26 24) then s else s.mediaBoundary n

/-- The work of a course that the bond table divides: dispatch in every scheduler, search operations, SLOT transfers, rate limiters (R213, R228, R269,
R272). -/
def State.dividedWork (s : State) : State :=
  let s := s.sliceList.foldl (fun s n =>
    if s.sliceUp n then (List.range 4).foldl (fun s c => s.clusterBoundary n c) s else s) s
  let s := s.sliceList.foldl (fun s n => if s.sliceUp n then (s.arrayCourse n 0).arrayCourse n 1 else s) s
  s.hdTurn.hdAccount

/-! ### SEALED_OUT intervals (R33, R371) -/

/-- Is SLOT capacity withheld in some cell of a region (R342)? -/
def State.slotCut (s : State) (g : Nat) : Bool :=
  s.bondCells.any fun q => q.1 % 65 / 4 == g && (decide (q.1 % 65 < 64)) && cellSlot q.2 (fun _ => true) &&
    decide (0 < slotWithheld q.2 (if q.1 % 65 % 4 = 3 then (s.withheld (g / 2) + 3) / 4 * 4 else s.withheld (g / 2)))

/-- Is a region thermally throttled: high-temperature refresh, a search array below FULL, or its slice's admit below 1.0 (R33,
R220, R292, R342)? -/
def State.throttled (s : State) (g : Nat) : Bool :=
  s.bit (Adr.dmSts (g / 2)) (2 + g % 2) || s.searchRate (g / 2) (g % 2) != 0 ||
    (List.range 16).any fun k => s.loopExists k && s.fld (Adr.pwLoopCtl k) 23 16 == 0x20 + g / 2 &&
      decide (s.q (Adr.pwLoopOut k) < 65536)

/-- Has a region a fenced unit that satisfies p? -/
def State.regionFenced (s : State) (g : Nat) (p : UnitId → Bool) : Bool :=
  s.fences.any fun q => q.1.slice == g / 2 && regionOf? q.1 == some (g % 2) && p q.1

/-- Is the slice of a region offline or landing, or fenced as a whole (R382)? -/
def State.regionOffline (s : State) (g : Nat) : Bool :=
  (s.slice (g / 2)).mode == .offline || (s.slice (g / 2)).mode == .landing || (s.fenceOf (UnitId.wholeSlice (g / 2))).isSome

/-- Does R33 fail for a region in the course that begins: a fence that moves its traffic (R378), or one of the conditions of R33 or an
offline slice (R382) in a region whose rows hold SLOT entries? -/
def State.regionUnsealed (s : State) (g : Nat) : Bool :=
  s.regionFenced g fenceMoves || (s.regionSlots g && (s.regionOffline g || s.regionFenced g fun _ => true)) ||
    (s.regionHasSlot g && (s.path (g / 2) (g % 2) != 0 || s.throttled g || s.slotCut g || !(s.huMode == modeCharge || s.huMode == modeFloat) ||
      s.dramState (g / 2) (g % 2) == 5))

/-- The SEALED_OUT intervals of all regions and of the host-DMA row begin and end (R33). -/
def State.sealedIntervals (s : State) : State :=
  let s := (List.range (2 * s.part.slices)).foldl (fun s g =>
    if s.regionUnsealed g then s.sealedOut g else s.sealedIn g) s
  if s.fences.any (fun p => p.1.kind == 0x21 && decide (p.1.number < 4)) then s.sealedOut 0x10 else s.sealedIn 0x10

/-- The trim that closes an error by the shorter way, at most lim steps a course (R38). -/
def trimFor (e lim : Int) : Int := max (-lim) (min lim e)

/-- The limit of the trim in a state of CK_SYNC_STS: 8 steps in ACQUIRE, 1 in LOCKED (R38). -/
def trimLimit (st : Nat) : Int := if st = 3 then 8 else if st = 4 then 1 else 0

/-- The phase error as the trim of the course that ends leaves it, and the trim of the course that begins: what closes the rest in ACQUIRE
and LOCKED, the last one in HOLDOVER, none otherwise (R38). -/
def State.turnTrim (s : State) : State :=
  let st := s.fld Adr.ckSyncSts 2 0
  s.modCourse fun c =>
    let left := c.phase - c.trim
    { c with lastLen := (6240 + c.trim).toNat, phase := left, trim := if st = 5 then c.trim else trimFor left (trimLimit st) }

/-- COURSE_BOUNDARY (R20, R22, R26). What the bond table divides in course 0 of a bond period, and the conditions of R33 there, wait for
the row that applies the tables at the same boundary. -/
def execCourseBoundary (late : List UnitId) (s : State) : Host.Outcome State Fault Refusal :=
  if s.held || !s.course.running then .next s
  else
    let s := s.sliceList.foldl State.flashTurn s
    let s := s.sliceList.foldl (fun s n => (s.dramCourse n 0).dramCourse n 1) s
    let s := s.sliceList.foldl State.runPrograms s
    let s := (s.turnTrim).mapSlices (Slice.ageItems s.courseLen)
    let s := s.modCourse fun c => { c with count := c.count + 1, refreshed := 0 }
    let s : State := { s with pins := { s.pins with courseSync := false } }
    let s := s.fenceSoon.foldl (fun s p => s.faultNow p.1 p.2) s
    let s := late.foldl State.lateUnit s
    let s := s.tenants.foldl State.turnTenant s
    let s := s.mapInflight fun x => { x with conds := x.conds.filter fun c =>
      match c with
      | .course n => decide (s.now < n)
      | _ => true }
    let s := s.flrDiscard
    let s := if s.now % 64 = 63 ∧ s.course.commit.any (fun k => k.due == s.now + 1) then s.checkCommit else s
    let s := s.replenish
    let s := ((s.sliceList.foldl State.sliceBoundary s).turnHubSeed).turnCuts
    .next (if s.now % 64 = 0 then s else s.sealedIntervals.dividedWork)

/-! ### Bond period boundaries (R34, R79, R82) -/

/-- Sources whose rows hold a SLOT entry that differs between two tables: global regions, or 0x10 for the host-DMA row (R33). -/
def slotSources (old new : List (Nat × Word)) : List Nat :=
  let moved (l : List (Nat × Word)) (q : Nat × Word) : Bool :=
    let w := (mapGet l q.1).getD 0
    let keeps (a b : Nat) : Bool := a == b || (entKind a != 1 && entKind b != 1)
    !(keeps (entryA q.2) (entryA w) && keeps (entryB q.2) (entryB w))
  let src (i : Nat) : Nat := if i % 65 = 64 then 0x10 else i % 65 / 4
  (((old.filter (moved new)) ++ (new.filter (moved old))).map fun q => src q.1).eraseDups

/-- A change to SLOT entries takes effect: the course that begins lies outside R33 for their rows (R33). -/
def State.slotsMoved (s : State) (old : List (Nat × Word)) : State :=
  (slotSources old s.bondCells).foldl (fun s k =>
    if s.recorder.intervals.any (fun p => p.1 == 1 && p.2.1 == k) then s else s.notice 1 k s.now s.now) s

/-- The power state selected by Set Features takes effect, with LOOP_02's setpoint (R345). -/
def State.turnPower (s : State) : State :=
  match s.power.opNext with
  | none => s
  | some k =>
    let old := s.fld Adr.pwSts 26 24
    let s := ((s.putF Adr.pwSts 18 16 k).modPower fun p => { p with opNext := none }).capSetpoint
    if old = k ∨ 3 ≤ old then s else (s.putF Adr.pwSts 26 24 k).setBit Adr.pwEvt 5

/-- The write amplification of every pool of a slice over the bond period that ends; a pool to which no host byte was written has
no figure in the spec, so it is free (R83, R139; log entry 4). -/
def State.takeWa (s : State) (n : Nat) : State :=
  let s := (s.pools n).foldl (fun s p =>
    let q := (((s.slice n).waNow.find? fun q => q.1 == p).map (·.2)).getD (0, 0)
    let r : Nat × State := if q.1 = 0 then s.free else (q.2 * 1000 / q.1, s)
    let s := r.2.modSlice n fun x => { x with waFig := x.waFig.filter (fun w => w.1 != p) ++ [(p, r.1)] }
    match p with
    | .slice =>
      (s.putF (Adr.ftWa n) 15 0 (min 65535 r.1)).modSlice n fun x =>
        { x with waHour := (x.waHour.1 + q.1, x.waHour.2 + q.2) }
    | .tenant _ => s) s
  s.modSlice n fun x => { x with waNow := [] }

/-- How a stored tenant comes up (R75). -/
def Tenant.restored (t : Tenant) (wear : List (Nat × Rat)) : Tenant :=
  { t with
    state := (match t.state with
      | .frozen => .frozen
      | .offline => .offline
      | .absent => .offline
      | _ => .online),
    saved := false, next := none,
    allowance := ((wear.find? fun p => p.1 == t.ti).map (·.2)).getD t.allowance }

/-- Does a Sealed tenant's part of the shadow bank fail the bond check (R35, R75)? -/
def State.sealedFails (s : State) (tis : List BondTi) (t : BondTi) : Bool :=
  let own (w : Word) : Bool := cellSlot w fun o => o == t.ti
  let cells := (s.regs.filter fun p => decide (0x98000 ≤ p.1) && decide (p.1 < 0x98000 + 4 * 4160) && own p.2).map
    fun p => (p.1 - 0x98000) / 4
  let needs (row : Nat) : Bool := t.attached && (row == 64 || t.lunsets / 2 ^ (16 * (row / 4)) % 2 ^ 16 != 0)
  t.isSealed && (cells.any (fun i => (s.checkCell tis i).isSome) ||
    (List.range 65).any fun row => needs row && !s.shadowSlot row t.ti)

/-- The stored tenant configuration takes effect (R75, R348, R366). -/
def State.restoreTenants (s : State) : State :=
  if !s.start.restore then s
  else
    let s := s.modStart fun t => { t with restore := false }
    match s.applied with
    | none => s
    | some r =>
      let s : State := { s with tenants := r.tenants.map fun t => t.restored s.nvm.wear }
      let tisOf (x : Namespace) : List Nat :=
        (((r.attachments.find? fun a => a.1 == x.nsid).map (·.2)).getD []).filter fun ti => (s.tenant ti).isSome
      let s := s.mapNs fun x => { x with attachedTis := tisOf x }
      let tis := s.bondTis []
      let s := s.mapTenants fun t =>
        if tis.any (fun b => b.ti == t.ti && s.sealedFails tis b) then { t with state := .offline } else t
      (s.evalWear).evalReady

/-- A changed CK_SYNC_CTL takes effect; a follower of a running generator starts without a lock (R37; CK_SYNC_CTL). -/
def State.turnSync (s : State) : State :=
  match s.course.syncCtl with
  | none => s
  | some w =>
    let old := s.fld Adr.ckSyncCtl 1 0
    let s := (s.wr Adr.ckSyncCtl w).modCourse fun c => { c with syncCtl := none }
    let role := s.fld Adr.ckSyncCtl 1 0
    if role = old then s
    else if role = 1 then s.putF Adr.ckSyncSts 2 0 1
    else if role = 2 then (s.putF Adr.ckSyncSts 2 0 6).modCourse fun c => { c with trim := 0, good := 0 }
    else (s.putF Adr.ckSyncSts 2 0 0).modCourse fun c => { c with trim := 0, good := 0 }

/-- BOND_PERIOD_BOUNDARY: the boundary that begins course 0 of a bond period, once (R21, R34). -/
def execBondPeriodBoundary (hot : List Nat) (s : State) : Host.Outcome State Fault Refusal :=
  if s.held || !s.course.running || s.now % 64 != 0 || s.course.bondAt == s.now then .next s
  else
    let s := s.modCourse fun c => { c with bondAt := c.count }
    let s := s.turnSync
    let s : State := { s with pins := { s.pins with courseSync := s.fld Adr.ckSyncSts 2 0 == 1 } }
    let old := s.bondCells
    let s : State := { s.boundaryActs with leaving := [] }
    let s := s.mapSlices fun x => { x with bondWait := false }
    let s := s.slotsMoved old
    let s := ((s.turnPower.testReturn).testFence).hdApplyCtl
    let s := s.restoreTenants
    let s := s.sliceList.foldl State.takeWa (s.sliceList.foldl State.evalPaths s)
    let s := (s.refreshModes hot).openRetrains
    .next s.sealedIntervals.dividedWork

/-- CK_COMMIT.GO: a write that reaches the CK block, which answers from step 5 of the start sequence through the vendor window (R34, R35,
R394). -/
def execCommitGo (s : State) : Host.Outcome State Fault Refusal :=
  .next (if s.held || s.minimal || !s.linkUp 0 || decide (s.stage < 2) then s else s.requestCommit)

/-! ### COURSE_SYNC (R37 to R39) -/

/-- Steps of 625 ps in 20 ns and in 10 ns. -/
def phaseWide : Int := 32
/-- 10 ns. -/
def phaseNear : Int := 16

/-- Is the package a follower in this state of CK_SYNC_STS? -/
def State.follower (s : State) : Bool := s.fld Adr.ckSyncCtl 1 0 == 2

/-- STATE of CK_SYNC_STS set. -/
def State.setSync (s : State) (k : Nat) : State := s.putF Adr.ckSyncSts 2 0 k

/-- Steps of 625 ps in a bond period. -/
def bondSteps : Int := 399360

/-- A phase error taken the shorter way round: more than half a bond period one way is less than that the other way (R38). -/
def phaseWrap (e : Int) : Int := (e + bondSteps / 2) % bondSteps - bondSteps / 2

/-- A pulse whose edge lies phase steps of 625 ps from the follower's own boundary, less DELAY (R37, R38). -/
def execSyncPulse (phase : Int) (s : State) : Host.Outcome State Fault Refusal :=
  let st := s.fld Adr.ckSyncSts 2 0
  if s.held || !s.follower || st < 2 then .next s
  else if st = 2 then .next ((s.setSync 4).modCourse fun c => { c with trim := 0, good := 0, phase := 0 }).releaseSlices
  else
    let e := phaseWrap (phase - (s.fld Adr.ckSyncCtl 15 8 : Int))
    let far := decide (phaseWide < e.natAbs)
    let near := decide ((e.natAbs : Int) ≤ phaseNear)
    let s := (s.putF Adr.ckSyncSts 23 16 (BitVec.ofInt 8 (max (-128) (min 127 e))).toNat).modCourse fun c => { c with phase := e }
    let good := if st = 3 ∧ near then s.course.good + 1 else 0
    let next := if st = 4 then (if far then 3 else 4)
      else if st = 3 then (if 4 ≤ good then 4 else 3)
      else if st = 5 then (if far then 3 else 4)
      else 3
    let s := if st = 4 ∧ far then s.setBit Adr.ckSyncSts 6 else s
    .next ((s.setSync next).modCourse fun c =>
      { c with good := if next = 3 then good else 0, trim := trimFor e (trimLimit next) })

/-- The second expected pulse is missing: HOLDOVER; in HOLDOVER the 64th: FREE, with no trim (R38). -/
def execSyncPulseMissing (s : State) : Host.Outcome State Fault Refusal :=
  let st := s.fld Adr.ckSyncSts 2 0
  if s.held || !s.follower then .next s
  else if st = 3 ∨ st = 4 then .next ((s.setSync 5).modCourse fun c => { c with good := 0 })
  else if st = 5 then .next ((s.setSync 6).modCourse fun c => { c with trim := 0, good := 0 })
  else .next s

/-- 100 ms in WAIT without a pulse: the course generator free-runs, and LOST is set (R38). -/
def execSyncWaitTimeout (s : State) : Host.Outcome State Fault Refusal :=
  if s.held || !s.follower || s.fld Adr.ckSyncSts 2 0 != 2 then .next s
  else .next ((s.setSync 6).setBit Adr.ckSyncSts 6).releaseSlices

/-- A master sees a level that it does not drive (R39). -/
def execSyncConflict (s : State) : Host.Outcome State Fault Refusal :=
  if s.held || s.fld Adr.ckSyncSts 2 0 != 1 then .next s
  else
    let s : State := { s with pins := { s.pins with courseSync := false } }
    .next ((s.setSync 6).setBit Adr.ckSyncSts 7)

end Sys2Proof.Machine
end

