-- ==== Sys2Proof/Machine/Digest.lean ====
section
/-!
DEFINITION. Meanings of the digest requests and of the manager's extends (R310 to R314, R318, R319).
-/

namespace Sys2Proof.Machine

/-- OPEN: the checks of R311 in order; the message opens when all pass (R310, R311). -/
def execDigestOpen (inst : DgRef) (owner alg : Nat) (hmac : Option Nat) (decl : Nat) (dest : DgDest) (s : State) :
    Host.Outcome State Fault Refusal :=
  let c := s.digestCheck (dgNo inst) owner alg hmac decl dest
  if c = 0 then .next (s.openDigest (dgNo inst) owner alg hmac decl dest)
  else .next (s.digestError (dgNo inst) owner c decl 0)

/-- A data descriptor; the FINAL one delivers the result to its destination (R312 to R314). -/
def execDigestData (inst : DgRef) (data : List (BitVec 8)) (final : Bool) (s : State) :
    Host.Outcome State Fault Refusal :=
  .next (s.absorb (dgNo inst) data final)

/-- The digest that MS_EXT_DATA holds, word 0 lowest. -/
def State.extDigest (s : State) : Digest384 :=
  BitVec.ofNat 384 (((List.range 12).map fun w => (s.rd (Adr.msExtData w)).toNat * 2 ^ (32 * w)).sum)

/-- MS_EXT_CMD.GO: MEAS_16 to MEAS_31 only, with 64 log entries left to the device; ignored while BUSY (R318, R319). -/
def State.measExtend (s : State) : State :=
  let ix := s.fld Adr.msExtIdx 4 0
  if s.bit Adr.msExtSts 31 then s
  else if ix < 16 then s.putF Adr.msExtSts 3 0 2
  else if 1024 < s.measLog.length + 65 then s.putF Adr.msExtSts 3 0 3
  else (s.extend ix 3 s.extDigest).setBit Adr.msExtSts 31

/-- MS_EXT_CMD.GO (R318, R319). -/
def execMeasExtend (s : State) : Host.Outcome State Fault Refusal := .next s.measExtend

/-- The extend core finishes: BUSY clears and RESULT is DONE (R317, R318). -/
def execMeasExtendDone (s : State) : Host.Outcome State Fault Refusal :=
  if s.bit Adr.msExtSts 31 then .next ((s.clrBit Adr.msExtSts 31).putF Adr.msExtSts 3 0 1) else .next s

end Sys2Proof.Machine
end

