-- ==== Sys2Proof/Machine/HostDma.lean ====
section
/-!
DEFINITION. Meanings of the host DMA commands (R270, R273, R275 to R279).
-/

namespace Sys2Proof.Machine

/-- HOST_DMA_BEAT: a beat boundary, at which the next beat of each direction is granted among the ready channels (R270). -/
def execHostDmaBeat (ready : List Nat) (s : State) : Host.Outcome State Fault Refusal := .next (s.hdBeat ready)

/-- A bus error on an unmerged request: the channel's transfer ends and its command fails (R275). -/
def State.hdDataError (s : State) (ch : Nat) (cause : BusCause) : State :=
  match (s.hdCh ch).cur with
  | none => s
  | some t => ((s.setBit Adr.hdEvt 0).hdRecord ch cause false t.owner).hdFail ch

/-- A bus error on a merged list request: every pool channel stops, the channels with lists in the request are the suspects,
and the lowest is probed first; a second one during a stop adds its suspects (R276, R277). -/
def State.hdStop (s : State) (suspects : List Nat) : State :=
  let go := s.bit Adr.hdSts 31
  let old := if go then (s.rd Adr.hdSuspect).toNat else 0
  let m := old ||| maskOf suspects
  let s := s.wr Adr.hdSuspect (BitVec.ofNat 32 m)
  if go then s
  else (((s.setBit Adr.hdSts 31).putF Adr.hdSts 4 0 (((bitsOf 32 m).head?).getD 0)).setBit Adr.hdEvt 1).inc Adr.hdStopCnt

/-- A host read request ends in a bus error: ch names the channel of an unmerged request, merged the pool channels whose
lists a merged one carried. Lists are merged only while COALESCE_EN is 1, and never those of a SLOT owner (R274 to R276). -/
def execBusError (ch : Nat) (cause : BusCause) (merged : List Nat) (s : State) : Host.Outcome State Fault Refusal :=
  let pool := merged.filter fun c => decide (4 ≤ c ∧ c < 32)
  .next (if pool = [] ∨ !s.bit Adr.hdCfg 0 then s.hdDataError ch cause else s.hdStop pool)

/-- The suspect under probe: a culprit's transfer ends, its command fails and HD_ERR records it; then the next suspect is
probed, and after the last every channel resumes. ns is the length of the stop so far (R277, R278). -/
def execProbeComplete (ok : Bool) (cause : BusCause) (ns : Nat) (s : State) : Host.Outcome State Fault Refusal :=
  if !s.bit Adr.hdSts 31 then .next s
  else
    let c := s.fld Adr.hdSts 4 0
    let s := if ok then s
      else (((s.setBit Adr.hdEvt 2).inc Adr.hdCulpritCnt).hdRecord c cause true (s.hdOwner c)).hdFail c
    let s := s.hdNextProbe c
    .next (if s.bit Adr.hdSts 31 then s
      else s.wr Adr.hdStopMaxNs (BitVec.ofNat 32 (min 0xFFFFFFFF (max ns (s.rd Adr.hdStopMaxNs).toNat))))

/-- A write of HD_CH_CTL_nn (R273). -/
def execHdChCtlWrite (ch : Nat) (value : BitVec 32) (s : State) : Host.Outcome State Fault Refusal :=
  .next (s.hdCtlWrite ch value)

end Sys2Proof.Machine
end

