-- ==== Sys2Proof/Machine/Memory.lean ====
section
/-!
DEFINITION. Meanings of the Subsystem Local Memory commands (R249, R250).
-/

namespace Sys2Proof.Machine

/-- A command on a range of a memory namespace of the requester: within it, and its slice online (R250, R384). -/
def State.memCmd (s : State) (h : Hdr) (nsid offset length : Nat) (f : Nat → Nat → State → State) : State :=
  s.ioCmd h nsid .memory fun x s =>
    let p := x.memPlace
    if x.size * 4096 < offset + length then s.finish h (ansAt stField nsid 0)
    else if !s.sliceUp p.1 then s.finish h (ansAt stOffline nsid 0)
    else f p.1 (p.2 + offset) s

/-- Memory Read (R249, R250); a poisoned line is never delivered as good data (R298). -/
def execMemoryRead (h : Hdr) (nsid offset length : Nat) (s : State) : Host.Outcome State Fault Refusal :=
  .next (s.memCmd h nsid offset length fun n a s =>
    if 1048576 < length then s.finish h (ansAt stField nsid 0)
    else if s.memPoisoned n a length then s.finish h (ansAt stUnrecovered nsid 0)
    else
      ((s.dataOut h length).dramAsk n portHost (ctrlOwner h.ctrl) a length false).finish h
        (ansData (.bytes (memRead (s.slice n).slm a length))))

/-- Memory Write (R249, R250). -/
def execMemoryWrite (h : Hdr) (nsid offset : Nat) (data : List (BitVec 8)) (s : State) : Host.Outcome State Fault Refusal :=
  .next (s.memCmd h nsid offset data.length fun n a s =>
    if 1048576 < data.length then s.finish h (ansAt stField nsid 0)
    else
      (((s.dataIn h data.length).memStore n a data).dramAsk n portHost (ctrlOwner h.ctrl) a data.length true).finish h (ansSt stOk))

/-- The bytes that a Memory Copy copies from slice n: from the requester's memory, or from blocks that all lie there (R250). -/
def State.copyBytes (s : State) (h : Hdr) (n : Nat) (src : CopyFrom) : Except Answer (List Byte) :=
  match src with
  | .memory nsid offset length =>
    match s.nsOf h.ctrl nsid with
    | none => .error (ansAt stField nsid 0)
    | some x =>
      let p := x.memPlace
      if x.kind ≠ .memory ∨ p.1 ≠ n ∨ x.size * 4096 < offset + length then .error (ansAt stField nsid 0)
      else if s.memPoisoned n (p.2 + offset) length then .error (ansAt stUnrecovered nsid 0)
      else .ok (memRead (s.slice n).slm (p.2 + offset) length)
  | .blocks nsid slba nlb =>
    match s.nsOf h.ctrl nsid with
    | none => .error (ansAt stNamespace nsid 0)
    | some x =>
      let lbas := (List.range nlb).map fun k => slba + k
      if x.kind ≠ .block then .error (ansAt stField nsid slba)
      else if x.size < slba + nlb then .error (ansAt stRange nsid slba)
      else if lbas.any fun l => (x.route l).1 != n then .error (ansAt stField nsid slba)
      else
        let r := s.readRange x slba nlb
        match r.2 with
        | some e => .error (ansAt e.1 nsid e.2)
        | none => .ok (fromBlocks (r.1.filterMap id))

/-- The flash reads that a Memory Copy makes for source blocks (R124). -/
def State.copySense (s : State) (h : Hdr) (src : CopyFrom) : State :=
  match src with
  | .memory _ _ _ => s
  | .blocks nsid slba nlb =>
    match s.nsOf h.ctrl nsid with
    | none => s
    | some x => s.countRange h x slba nlb

/-- Memory Copy (R250). The source is read before anything is written. -/
def execMemoryCopy (h : Hdr) (nsid dest : Nat) (src : CopyFrom) (s : State) : Host.Outcome State Fault Refusal :=
  .next (s.memCmd h nsid dest 0 fun n a s =>
    match s.copyBytes h n src with
    | .error e => s.finish h e
    | .ok bs =>
      if ((s.ns nsid).map Namespace.size).getD 0 * 4096 < dest + bs.length then s.finish h (ansAt stField nsid 0)
      else (((s.memStore n a bs).dramAsk n portHost (ctrlOwner h.ctrl) a bs.length true).finish h (ansSt stOk)).copySense h src)

end Sys2Proof.Machine
end

