-- ==== Sys2Proof/Machine/Spdm.lean ====
section
/-!
DEFINITION. Meanings of the DOE and SPDM requests (R316, R320, R321). Response and error codes, flag places and layouts are those of
SPDM 1.2 and of PCI Express, which the spec names (log entry 8).
-/

namespace Sys2Proof.Machine

/-! ### Answers -/

/-- Error codes that the responder gives: InvalidRequest. -/
def spdmInvalid : Nat := 1
/-- InvalidSession. -/
def spdmNoSession : Nat := 2
/-- UnexpectedRequest. -/
def spdmUnexpected : Nat := 4
/-- Unspecified. -/
def spdmUnspecified : Nat := 5
/-- DecryptError. -/
def spdmDecrypt : Nat := 6
/-- UnsupportedRequest. -/
def spdmUnsupported : Nat := 7
/-- SessionLimitExceeded. -/
def spdmLimit : Nat := 0x0A

/-- A response goes out on a transport. -/
def State.spdmSay (s : State) (t : Transport) (code : Nat) (body : Data) : State :=
  { s with spdmOut := some { transport := t, code := code, error := 0, body := body } }

/-- An ERROR goes out. -/
def State.spdmError (s : State) (t : Transport) (error : Nat) : State :=
  { s with spdmOut := some { transport := t, code := rspError, error := error, body := .none } }

/-- Does a port's physical function answer: hub firmware runs, and the port exists (R41, R320)? -/
def State.doePort (s : State) (port : Nat) : Bool := !s.held && decide (2 ≤ s.stage) && (port == 0 || (port == 1 && s.dual))

/-- How far the negotiation on a transport is: 1 version, 2 capabilities, 3 algorithms. -/
def State.spdmStage (s : State) (t : Transport) : Nat := ((s.spdmPeers.find? fun p => p.transport == t).map SpdmPeer.stage).getD 0

/-- The negotiation moved on. -/
def State.setSpdmStage (s : State) (t : Transport) (k : Nat) : State :=
  { s with spdmPeers := s.spdmPeers.filter (fun p => p.transport != t) ++ [{ transport := t, stage := k }] }

/-- A request on the migration transport: a responder session takes it as it takes messages of MIG_SEND; its answer waits for MIG_RECV
(R90, R320). -/
def State.spdmMig (s : State) (session : Nat) (f : MigSession → State → State) : State :=
  if s.held || !s.migFree session then s
  else
    let g := (s.mig session).getD (migOpen session false [])
    if g.requester then s else f g (s.putMig g)

/-- An answer of a migration session. -/
def State.migSay (s : State) (g : MigSession) (code : Nat) : State :=
  s.putMig { g with outbox := g.outbox ++ [.response code none] }

/-- A request on either transport: a message for the migration session, or what the DOE responder does once the negotiation has come far
enough. -/
def State.spdm (s : State) (t : Transport) (need : Nat) (m : SpdmMsg) (f : State → State) : State :=
  match t with
  | .migration k => s.spdmMig k fun g s => s.migServe g m
  | .doe port =>
    if !s.doePort port then s
    else if s.spdmStage t < need then s.spdmError t spdmUnexpected
    else f s

/-! ### Discovery and negotiation (R41, R320) -/

/-- DOE Discovery: DOE Discovery itself and CMA/SPDM, each with the next index (R41). -/
def execDoeDiscovery (port index : Nat) (s : State) : Host.Outcome State Fault Refusal :=
  .next (if !s.doePort port then s
    else
      let v := if index = 0 then (1, 0, 1) else if index = 1 then (1, 1, 0) else (0xFFFF, 0, 0)
      s.spdmSay (.doe port) 0 (.fields [(0, 2, v.1), (2, 1, v.2.1), (3, 1, v.2.2)]))

/-- GET_VERSION: 1.2 only (R320). -/
def execGetVersion (t : Transport) (s : State) : Host.Outcome State Fault Refusal :=
  .next (s.spdm t 0 .getVersion fun s => (s.setSpdmStage t 1).spdmSay t 0x04 (.fields [(0, 1, 1), (1, 1, 0x12)]))

/-- Capability flags: CERT, CHAL, MEAS with signature, ENCRYPT, MAC, MUT_AUTH, KEY_EX, ENCAP, HBEAT, KEY_UPD (R320). -/
def spdmFlags : Nat := 0x73D6

/-- GET_CAPABILITIES (R320). -/
def execGetCapabilities (t : Transport) (_flags : Nat) (s : State) : Host.Outcome State Fault Refusal :=
  .next (s.spdm t 1 .getCapabilities fun s =>
    (s.setSpdmStage t (max 2 (s.spdmStage t))).spdmSay t 0x61 (.fields [(0, 4, spdmFlags)]))

/-- NEGOTIATE_ALGORITHMS: an offer without the device's algorithms is refused (R320; log entry 67). -/
def execNegotiateAlgorithms (t : Transport) (offer : AlgOffer) (s : State) : Host.Outcome State Fault Refusal :=
  .next (s.spdm t 2 .negotiateAlgorithms fun s =>
    if offer.ecdsaP384 && offer.sha384 && offer.secp384r1 && offer.aes256gcm && offer.dmtf then
      (s.setSpdmStage t 3).spdmSay t 0x63 (.fields [(0, 4, 0x80), (4, 4, 2), (8, 2, 0x10), (10, 2, 2), (12, 1, 1)])
    else s.spdmError t spdmInvalid)

/-! ### Certificates, challenge, measurements (R320, R321) -/

/-- The values that the Alias certificate carries: MEAS_00 to MEAS_05 (R321). -/
def State.aliasMeas (s : State) : List Digest384 := s.meas.take 6

/-- Some bytes of the slot 0 chain (R321). -/
def State.chainBytes (s : State) (offset length : Nat) : List Byte :=
  (List.range (min length (Config.chainLen - offset))).map fun k => Config.chainByte s.aliasMeas (offset + k)

/-- The digest of the slot 0 chain. -/
def State.chainDigest (s : State) : Digest384 := Config.sha384 (s.chainBytes 0 Config.chainLen)

/-- GET_DIGESTS: slot 0 only (R320). -/
def execGetDigests (t : Transport) (s : State) : Host.Outcome State Fault Refusal :=
  .next (s.spdm t 3 .getDigests fun s => s.spdmSay t 0x01 (.fields [(0, 1, 1), (4, 48, s.chainDigest.toNat)]))

/-- GET_CERTIFICATE: a part of the slot 0 chain (R321). -/
def execGetCertificate (t : Transport) (slot offset length : Nat) (s : State) : Host.Outcome State Fault Refusal :=
  .next (s.spdm t 3 .getCertificate fun s =>
    if slot ≠ 0 ∨ Config.chainLen ≤ offset then s.spdmError t spdmInvalid
    else s.spdmSay t 0x02 (.bytes (s.chainBytes offset length)))

/-- A signature by the Alias key over some values (R321). -/
def signature (l : List Nat) : Nat := (Config.sign (l.flatMap (leBytes 48))).toNat

/-- CHALLENGE: signed with the Alias key (R320, R321); without entropy there is no nonce (R186). -/
def execChallenge (t : Transport) (slot : Nat) (nonce : BitVec 256) (s : State) : Host.Outcome State Fault Refusal :=
  .next (s.spdm t 3 .challenge fun s =>
    if slot ≠ 0 then s.spdmError t spdmInvalid
    else if !s.entropyOk then s.spdmError t spdmUnspecified
    else
      let r := s.random
      r.2.spdmSay t 0x03 (.fields [(0, 48, s.chainDigest.toNat), (48, 32, r.1.toNat),
        (80, 96, signature ([nonce.toNat, r.1.toNat, s.chainDigest.toNat] ++ s.meas.map BitVec.toNat))]))

/-- SPDM value type of a measurement register (Measurement registers). -/
def measType (n : Nat) : Nat :=
  if n = 0 then 0 else if n ≤ 3 ∨ n = 8 then 1 else if n = 6 then 5 else if 16 ≤ n then 4 else 3

/-- One DMTF block in digest form: index, specification, size, type, size, value (R320). -/
def State.measBlock (s : State) (n : Nat) : List (Nat × Nat × Nat) :=
  [(0, 1, n + 1), (1, 1, 1), (2, 2, 51), (4, 1, measType n), (5, 2, 48), (7, 48, ((s.meas[n]?).getD 0).toNat)]

/-- GET_MEASUREMENTS: the count, one register or all, signed on request (R320). -/
def execGetMeasurements (t : Transport) (index : Nat) (signed : Bool) (nonce : BitVec 256) (s : State) : Host.Outcome State Fault Refusal :=
  .next (match t with
    | .migration k => s.spdmMig k fun g s => s.migSay g (if 3 ≤ g.progress then 0x60 else rspError)
    | .doe _ => s.spdm t 3 .getVersion fun s =>
      if 32 < index ∧ index ≠ 0xFF then s.spdmError t spdmInvalid
      else if signed && !s.entropyOk then s.spdmError t spdmUnspecified
      else
        let ns := if index = 0 then [] else if index = 0xFF then List.range 32 else [index - 1]
        let blocks := recordsAt 4 55 (ns.map s.measBlock)
        let head := (0, 1, if index = 0 then 32 else ns.length) :: blocks
        if signed then
          let r := s.random
          let end_ := 4 + 55 * ns.length
          r.2.spdmSay t 0x60 (.fields (head ++ [(end_, 32, r.1.toNat),
            (end_ + 32, 96, signature ([nonce.toNat, r.1.toNat] ++ head.map fun p => p.2.2))]))
        else s.spdmSay t 0x60 (.fields head))

/-! ### Sessions (R316, R320) -/

/-- A session number that neither transport uses (R320). -/
def State.freeSession (s : State) : Option Nat :=
  lowestFree 8 fun n => (s.spdmSessions.any fun q => q.number == n) || (s.mig n).isSome

/-- A session over a transport. -/
def State.session (s : State) (t : Transport) (n : Nat) : Option SpdmSession :=
  s.spdmSessions.find? fun q => q.number == n && q.transport == t

/-- A session ends: its number is free and its slots are EMPTY (R316). -/
def State.endSession (s : State) (n : Nat) : State :=
  ({ s with spdmSessions := recErase SpdmSession.number s.spdmSessions n } : State).dropSessionKeys n

/-- KEY_EXCHANGE: a session of the lowest free number, SessionLimitExceeded beyond 8 (R316, R320). -/
def execKeyExchange (t : Transport) (peer : BitVec 768) (s : State) : Host.Outcome State Fault Refusal :=
  .next (s.spdm t 3 .keyExchange fun s =>
    match s.freeSession with
    | none => s.spdmError t spdmLimit
    | some n =>
      if !s.entropyOk then s.spdmError t spdmUnspecified
      else
        let q : SpdmSession := { number := n, transport := t, established := false, updates := 0 }
        let r := ({ s with spdmSessions := recPut SpdmSession.number s.spdmSessions q } : State).random
        (r.2.sessionKeys n [0, 2, 3]).spdmSay t 0x64
          (.fields [(0, 1, 0), (2, 2, n), (4, 32, r.1.toNat), (36, 96, signature [peer.toNat, r.1.toNat, s.chainDigest.toNat])]))

/-- FINISH: the session is established when the requester's code verifies; otherwise it ends (R320). -/
def execFinish (t : Transport) (session : Nat) (macOk : Bool) (s : State) : Host.Outcome State Fault Refusal :=
  .next (match t with
    | .migration k => s.spdmMig k fun g s =>
        if g.progress = 6 ∧ macOk then (s.migSay { g with progress := 5, established := true } 0x65).sessionKeys k [1]
        else s.migSay { g with progress := 0, established := false } rspError
    | .doe _ => s.spdm t 3 .getVersion fun s =>
      match s.session t session with
      | none => s.spdmError t spdmNoSession
      | some q =>
        if q.established then s.spdmError t spdmUnexpected
        else if !macOk then (s.endSession session).spdmError t spdmDecrypt
        else
          (({ s with spdmSessions := recPut SpdmSession.number s.spdmSessions { q with established := true } } : State).sessionKeys
            session [1]).spdmSay t 0x65 .none)

/-- A request within an established session. -/
def State.inSession (s : State) (t : Transport) (session code : Nat) (f : SpdmSession → State → State) : State :=
  match t with
  | .migration k => s.spdmMig k fun g s => s.migSay g (if g.established then code else rspError)
  | .doe port =>
    if !s.doePort port then s
    else
      match (s.session t session).filter SpdmSession.established with
      | none => s.spdmError t spdmNoSession
      | some q => f q s

/-- HEARTBEAT (R320). -/
def execHeartbeat (t : Transport) (session : Nat) (s : State) : Host.Outcome State Fault Refusal :=
  .next (s.inSession t session 0x68 fun _ s => s.spdmSay t 0x68 .none)

/-- KEY_UPDATE: update, update all, or verify the new key (R320). -/
def execKeyUpdate (t : Transport) (session op : Nat) (s : State) : Host.Outcome State Fault Refusal :=
  .next (s.inSession t session 0x69 fun q s =>
    if op < 1 ∨ 3 < op then s.spdmError t spdmInvalid
    else
      let q := if op = 3 then q else { q with updates := q.updates + 1 }
      ({ s with spdmSessions := recPut SpdmSession.number s.spdmSessions q } : State).spdmSay t 0x69 .none)

/-- END_SESSION: the session's slots are freed (R316, R320). -/
def execEndSession (t : Transport) (session : Nat) (s : State) : Host.Outcome State Fault Refusal :=
  .next (match t with
    | .migration k => if (s.mig k).isSome then s.endMig k else s
    | .doe _ => s.inSession t session 0x6C fun _ s => (s.endSession session).spdmSay t 0x6C .none)

/-! ### Mutual authentication and the rest (R320) -/

/-- GET_ENCAPSULATED_REQUEST: on the migration transport only (R320). -/
def execGetEncapsulatedRequest (t : Transport) (session : Nat) (s : State) : Host.Outcome State Fault Refusal :=
  .next (match t with
    | .migration k => s.spdmMig k fun g s => s.migSay g (if g.progress = 4 && session == k then 0x6A else rspError)
    | .doe port => if s.doePort port then s.spdmError t spdmUnsupported else s)

/-- DELIVER_ENCAPSULATED_RESPONSE: the peer's chain is checked (R90, R320). -/
def execDeliverEncapsulatedResponse (t : Transport) (session : Nat) (peer : PeerChain) (s : State) : Host.Outcome State Fault Refusal :=
  .next (match t with
    | .migration k => s.spdmMig k fun g s =>
        if g.progress = 4 && session == k && PeerOk peer then s.migSay { g with progress := 6, peerId := peer.deviceId } 0x6B
        else s.migSay { g with progress := 0, established := false } rspError
    | .doe port => if s.doePort port then s.spdmError t spdmUnsupported else s)

/-- A request outside the table: ERROR UnsupportedRequest (R320). -/
def execSpdmUnsupportedRequest (t : Transport) (code : Nat) (s : State) : Host.Outcome State Fault Refusal :=
  .next (match t, code with
    | .migration k, _ => s.spdmMig k fun g s => s.migSay g rspError
    | .doe port, _ => if s.doePort port then s.spdmError t spdmUnsupported else s)

end Sys2Proof.Machine
end

