-- ==== Sys2Proof/Machine/Media.lean ====
section
/-!
DEFINITION. Meanings of the flash and translation commands: discovery and training (R145 to R147, R165), programs, erases, reads and
their failures (R105, R110, R112, R116, R118 to R120, R125, R148, R157 to R160, R164), slice format (R99), LUN health and
evacuation (R136, R138), DEV_WEAR_RATE (R140).
-/

namespace Sys2Proof.Machine

/-- Is the package in PS3 or PS4 (R344)? -/
def State.asleep (s : State) : Bool := decide (3 ≤ s.fld Adr.pwSts 26 24)

/-- Does the slice work on its media: released, neither off nor offline, and not paused in PS3 or PS4 (R347, R348, R382)? -/
def State.mediaOn (s : State) (n : Nat) : Bool :=
  s.hasSlice n && !s.asleep && !((s.slice n).mode == .off) && !((s.slice n).mode == .offline)

/-! ### Discovery (R144 to R147) -/

/-- Does a volume match a descriptor: its CRC, its identification, its LUNs and its codeword count (R144, R145)? -/
def VolumeMatches (v : VolumeId) (d : MediaDesc) : Bool :=
  v.crcOk && v.maker == d.maker && v.model == d.model && v.luns == d.lunsPerTarget && decide (d.lunCodewords ≤ 2 ^ 26)

/-- The volumes that discovery found on a channel so far. -/
def Slice.volumes (x : Slice) (ch : Nat) : List VolumeId := ((x.flash.found.find? fun q => q.1 == ch).map fun q => q.2.1).getD []

/-- Did a channel train? -/
def Slice.trained (x : Slice) (ch : Nat) : Bool := x.flash.found.any fun q => q.1 == ch && q.2.2

/-- The descriptor of a slice: the first that its lowest-numbered present target matches (R145). -/
def State.chooseDesc (s : State) (n : Nat) : Option Nat :=
  match s.image, (List.range 8).findSome? fun ch => ((s.slice n).volumes ch).head? with
  | some im, some v => (im.media.zipIdx.find? fun p => VolumeMatches v p.1).map (·.2)
  | _, _ => none

/-- A LUN that has never been formatted. -/
def lunNew (k : Nat) : Lun :=
  { lun := k, active := true, health := .good, withdrawn := false, goodAtFormat := 0, retired := 0, failedBlocks := [], verifyFails := [],
    uncorrRun := 0, uncorrBlocks := [], timeouts := 0, lostBytes := 0, changedAt := 0, cause := 0 }

/-- Is a LUN gone: FAILED or EVACUATED? -/
def Slice.lunGone (x : Slice) (k : Nat) : Bool := (x.lun k).any fun l => l.health == .failed || l.health == .evacuated

/-- FL_TGT_STS of a target: its state, and the states of its LUNs where it is ACTIVE: FAILED for one that has failed (R147). The table gives an
EVACUATED LUN no state of its own: the model's choice is 2, FAILED, and such a LUN counts as one for the target's FAILED (DESIGN CHOICE, log entry
41). -/
def State.putTarget (s : State) (n t st luns : Nat) : State :=
  let a := Adr.flTgtSts n t
  let gone (l : Nat) : Bool := (s.slice n).lunGone (4 * t + l)
  let st := if st = 1 ∧ 0 < luns ∧ (List.range luns).all gone then 3 else st
  let s := s.putF a 1 0 st
  (List.range 4).foldl (fun s l =>
    s.putF a (17 + 2 * l) (16 + 2 * l) (if (st ≠ 1 ∧ st ≠ 3) ∨ luns ≤ l then 0 else if gone l then 2 else 1)) s

/-- FL_STS from the states of the channels. -/
def State.evalFl (s : State) (n : Nat) : State :=
  let st (j : Nat) : Nat := s.fld (Adr.flChSts n j) 2 0
  let ready := maskOf ((List.range 8).filter fun j => st j == 3)
  let fault := maskOf ((List.range 8).filter fun j => st j == 4)
  let all := (List.range 8).all fun j => st j == 3 || st j == 0
  let s := (s.putF (Adr.flSts n) 15 8 ready).putF (Adr.flSts n) 23 16 fault
  let s := s.putF (Adr.flSts n) 26 24 ((((s.slice n).descIx).getD 7) % 8)
  s.putF (Adr.flSts n) 1 0 (if fault ≠ 0 then 3 else if all then 2 else 1)

/-- FL_GEOM and FL_GEOM2 from the descriptor. -/
def State.putGeom (s : State) (n : Nat) : State :=
  match s.desc n with
  | none => s
  | some d =>
    (s.wr (Adr.flGeom n) (BitVec.ofNat 32 (d.planes % 8 * 2 ^ 24 + d.bits % 8 * 2 ^ 21 + (d.lunsPerTarget - 1) % 4 * 2 ^ 19 +
      d.pageKib % 32 * 2 ^ 12 + d.spare % 4096))).wr (Adr.flGeom2 n)
      (BitVec.ofNat 32 (d.blocksPerLun % 65536 * 65536 + d.pagesPerBlock % 65536))

/-- FT_PE_CFG seeded with the rated cycles of the descriptor, in hundreds, where neither the seed image nor the Store gives the register a value
(R145, R366). -/
def State.seedRated (s : State) (n : Nat) : State :=
  let given := (((s.image.map SeedImage.seedConfig).getD []) ++ ((s.applied.map StoreRecord.fields).getD [])).any fun q => q.1 == Adr.ftPeCfg n
  match s.desc n with
  | none => s
  | some d =>
    if given then s
    else
      let r (m : CellMode) : Nat := ((d.rated[modeIx m]?).getD 0) / 100
      ((s.putF (Adr.ftPeCfg n) 29 20 (r .pslc)).putF (Adr.ftPeCfg n) 19 10 (r .tlc)).putF (Adr.ftPeCfg n) 9 0 (r .qlc)

/-- A channel in FAULT: its event flag, and the report to containment (R146, R165). -/
def State.channelFault (s : State) (n j : Nat) : State :=
  let s := (s.putF (Adr.flChSts n j) 2 0 4).setBit (Adr.flEvt n) 2
  (s.evalFl n).report (UnitId.flashCh n j) .train

/-- One volume of a channel that trained: its target ACTIVE where it matches the slice's descriptor, else MISMATCH (R145, R147). -/
def State.foundVolume (s : State) (n ch v : Nat) (id : VolumeId) : State :=
  let t := 16 * ch + v
  match s.desc n with
  | some d =>
    if VolumeMatches id d then
      let ls := (List.range d.lunsPerTarget).map fun l => 4 * t + l
      let s := s.modSlice n fun x =>
        { x with luns := ls.foldl (fun l k => match recGet Lun.lun l k with
            | none => recPut Lun.lun l (lunNew k)
            | some q => recPut Lun.lun l { q with active := true }) x.luns }
      s.putTarget n t 1 d.lunsPerTarget
    else (s.putTarget n t 2 0).setBit (Adr.flEvt n) 1
  | none => (s.putTarget n t 2 0).setBit (Adr.flEvt n) 1

/-- The targets of the channels that have trained, by the descriptor as it stands (R145, R147). -/
def State.settleTargets (s : State) (n : Nat) : State :=
  let s := s.modSlice n fun x => { x with descIx := s.chooseDesc n }
  let s := ((List.range 8).filter (s.slice n).trained).foldl (fun s ch =>
    let s := (((s.slice n).volumes ch).zipIdx.foldl (fun s p => s.foundVolume n ch p.2 p.1) s)
    s.putF (Adr.flChSts n ch) 31 24 ((List.range 16).filter fun v => s.fld (Adr.flTgtSts n (16 * ch + v)) 1 0 == 1).length) s
  ((s.putGeom n).seedRated n).evalFl n

/-- CHANNEL_DISCOVERY (R146): volumes in chain order, descriptor match, training at the rate that FL_CH_CTL selects with at most three
repetitions, then READY with WP_N high, or FAULT. A target of a channel that did not train has no state in the table; the model leaves it ABSENT (log
entry 38). -/
def execChannelDiscovery (slice ch : Nat) (vols : List VolumeId) (trainFails : Nat) (s : State) : Host.Outcome State Fault Refusal :=
  .next (if s.held || !s.mediaOn slice || decide (8 ≤ ch) || s.fld (Adr.flChSts slice ch) 2 0 != 1 then s
    else
      let rate := s.fld (Adr.flChCtl slice ch) 1 0
      let s := s.modSlice slice fun x => { x with flash := { x.flash with
        found := x.flash.found ++ [(ch, vols.take 16, decide (trainFails < 4))], rates := mapInsert x.flash.rates ch rate } }
      let s := s.putF (Adr.flChSts slice ch) 15 8 (min 255 trainFails)
      if 4 ≤ trainFails then (s.settleTargets slice).channelFault slice ch
      else
        let s := s.putF (Adr.flChSts slice ch) 2 0 3
        let k := 8 * slice + ch
        let s := { s with pins := { s.pins with wpN := s.pins.wpN.filter (· != k) ++ [k] } }
        s.settleTargets slice)

/-- FLASH_RETRAIN: a training in DEVICE windows ends, one that FL_CH_CTL_j.RETRAIN requested with the rate that it selects; one that fails puts the
channel in FAULT (R146, R165). -/
def execFlashRetrain (slice ch : Nat) (ok : Bool) (s : State) : Host.Outcome State Fault Refusal :=
  .next (if s.held || !s.mediaOn slice || decide (8 ≤ ch) || s.fld (Adr.flChSts slice ch) 2 0 != 3 then s
    else
      let asked := (s.slice slice).flash.retrain.contains ch
      let rate := s.fld (Adr.flChCtl slice ch) 1 0
      let s := s.modSlice slice fun x => { x with flash := { x.flash with
        retrain := x.flash.retrain.filter (· != ch), rates := if asked && ok then mapInsert x.flash.rates ch rate else x.flash.rates } }
      if ok then s else (s.addF (Adr.flChSts slice ch) 15 8 1).channelFault slice ch)

/-- FLASH_ZQ_SHORT_DUE: a ZQ short calibration of one volume per channel runs in DEVICE windows and changes no state (R165). -/
def execFlashZqShortDue (_slice : Nat) (s : State) : Host.Outcome State Fault Refusal := .next s

/-! ### Streaming and programs (R105, R108, R110, R112, R119) -/

/-- Courses in AGE_MS of a slice (FT_WB_CFG). -/
def State.ageCourses (s : State) (n : Nat) : Nat := coursesOfMs (s.fld (Adr.ftWbCfg n) 31 16)

/-- STREAM_AGE_TRIGGER: a version OPEN for AGE_MS streams at the next boundary (R108). -/
def execStreamAgeTrigger (slice wslot : Nat) (s : State) : Host.Outcome State Fault Refusal :=
  .next (if !s.mediaOn slice then s
    else s.modSlice slice fun x => x.modVersion wslot fun v =>
      if v.isOpen && decide (v.openedAt + s.ageCourses slice ≤ s.now) then { v with trigger := true } else v)

/-- FLASH_PAGE_AGE_TIMEOUT: a page that has held packed data for AGE_MS is completed with grout and programmed (R112). -/
def execFlashPageAgeTimeout (slice sb : Nat) (s : State) : Host.Outcome State Fault Refusal :=
  .next (match s.desc slice, (s.slice slice).super sb with
    | some d, some b =>
      if !s.mediaOn slice || !(b.state == .sopen) || b.fill % max 1 (b.pageBytes d) == 0 ||
          decide (s.now < b.filledAt + s.ageCourses slice) then s
      else s.groutPage slice d sb none
    | _, _ => s)

/-- The operation of a LUN that has ended, or failed. -/
def Slice.endedOn (x : Slice) (lun : Nat) (op : FlOp) (ok : Bool) : Option FlWork :=
  x.workOn lun fun w => w.op == op && w.stage == .ended ok

/-- A pSLC program seen, if the operation is one (R329). -/
def Slice.seePslc (x : Slice) (id : Nat) : Slice :=
  let one := x.flash.works.any fun w => w.id == id && w.op == .program && w.mode == .pslc
  { x with flash := { x.flash with pslcSeen := x.flash.pslcSeen + if one then 1 else 0 } }

/-- An operation leaves the queues. -/
def State.dropWork1 (s : State) (n id : Nat) : State := s.modSlice n fun x => (x.seePslc id).dropWorks fun w => w.id == id

/-- PROGRAM_CONFIRMED: the program of a LUN has ended well; the versions and moves that lie wholly on programmed pages are done, their entries
switch by comparison, their slots are free (R106, R110). -/
def execProgramConfirmed (slice lun : Nat) (s : State) : Host.Outcome State Fault Refusal :=
  .next (match (s.slice slice).endedOn lun .program true with
    | none => s
    | some w =>
      if !s.mediaOn slice then s
      else
        let s := s.dropWork1 slice w.id
        match w.why with
        | .page seq p => s.pageDone slice seq p
        | _ => s)

/-- A parity block whose program failed: marked, its queued programs dropped, the stripes that they served get another parity page (R114, R119). -/
def State.failParity (s : State) (n lun b : Nat) : State :=
  let ws := (s.slice n).flash.works.filter fun w => w.lun == lun && w.block == b && w.op == .program
  let s := s.modSlice n fun x => x.dropWorks fun w => ws.any fun v => v.id == w.id
  let hit (p : ParityPage) : Bool := p.lun == lun && p.block == b && ws.any fun w => w.why == .parity p.sb p.seg p.k
  let redo := (((s.slice n).parity.filter hit).map ParityPage.sb)
  let s := (s.modSlice n fun x => { x with parity := x.parity.filter fun p => !hit p }).markBlock n lun b
  match s.desc n with
  | none => s
  | some d => redo.eraseDups.foldl (fun s q => s.parityDue n d q) s

/-- PROGRAM_FAILED (R119, R120): what lay on the failed page starts again elsewhere, the units on the block move, its position is deactivated and
the block is marked; a failed metadata program starts the checkpoint pass over (log entry 34). The row names the page: LUN, block and row. -/
def execProgramFailed (slice lun block row : Nat) (s : State) : Host.Outcome State Fault Refusal :=
  .next (match (s.slice slice).endedOn lun .program false with
    | none => s
    | some w =>
      if !s.mediaOn slice || w.block != block || w.row != row then s
      else
        let t := s.dropWork1 slice w.id
        let t := match w.why with
          | .page seq _ => t.failBlock slice seq lun w.block
          | .parity seq seg k =>
            let u := t.failParity slice lun w.block
            let u := u.modSlice slice fun x => { x with parity := x.parity.filter fun p => !(p.sb == seq && p.seg == seg && p.k == k && p.block == w.block) }
            match u.desc slice with
            | none => u
            | some d => u.parityDue slice d seq
          | .metadata => (t.modSlice slice fun x => x.rewind lun).markBlock slice lun w.block
          | _ => t
        t.countFailure slice lun w.block)

/-- A superblock whose block failed to erase takes the next least-worn free block of the LUN, or opens without the position; with fewer than 4
positions it is not opened (R118). -/
def State.replaceBlock (s : State) (n seq lun b : Nat) (m : CellMode) (rate : Nat) : State :=
  match s.desc n with
  | none => s
  | some d =>
    match (s.slice n).leastWorn d lun with
    | some c =>
      (s.modSlice n fun x => x.modSuper seq fun q =>
        { q with blocks := q.blocks.map fun p => if p = (lun, b) then (lun, c) else p }).queueErase n lun c m rate (.block seq)
    | none =>
      let s := s.modSlice n fun x => x.modSuper seq fun q =>
        { q with blocks := q.blocks.filter (· != (lun, b)), sets := q.sets.map fun t => (t.1, t.2.filter fun i => lunAt q.group i != lun) }
      if ((s.slice n).super seq).any fun q => decide (q.positions.length < 4) then s.freeSuper n seq else s

/-- ERASE_FAILED (R118): the block is retired; a superblock that was to take it takes another, a kept-back block is replaced. -/
def execEraseFailed (slice lun block : Nat) (s : State) : Host.Outcome State Fault Refusal :=
  .next (match (s.slice slice).endedOn lun .erase false with
    | none => s
    | some w =>
      if !s.mediaOn slice || w.block != block then s
      else
        let t := (s.dropWork1 slice w.id).retireBlock slice lun w.block
        let t := match w.why with
          | .block seq => t.replaceBlock slice seq lun w.block w.mode w.rate
          | .reserve => t.sizeReserve slice false
          | .metadata => t.modSlice slice fun x => x.rewind lun
          | _ => t
        t.countFailure slice lun w.block)

/-! ### Reads (R116, R124, R125, R148, R157 to R160) -/

/-- The register that counts codewords by the level at which they were good (FL_CH_HARD, RETRY, SOFT, UNCORR). -/
def passCounter (n ch : Nat) (p : ReadPass) : Nat :=
  if p.uncorrectable || p.addrMismatch then Adr.flChUncorr n ch
  else if p.level = 0 then Adr.flChHard n ch
  else if p.level ≤ 6 then Adr.flChRetry n ch
  else Adr.flChSoft n ch

/-- Was the codeword not good at any level, and not ERASED (R157, R160)? -/
def badPass (p : ReadPass) : Bool := !p.erased && (p.uncorrectable || p.addrMismatch)

/-- Runs of uncorrectable reads on a LUN: 64 in a row over at least 4 blocks declare it failed (R148). -/
def State.countUncorr (s : State) (n : Nat) (p : ReadPass) : State :=
  if !badPass p then
    s.modSlice n fun x => { x with luns := recMod Lun.lun x.luns p.lun fun l => { l with uncorrRun := 0, uncorrBlocks := [] } }
  else
    let s := (s.setBit (Adr.flEvt n) 0).modSlice n fun x =>
      { x with luns := recMod Lun.lun x.luns p.lun fun l =>
          { l with uncorrRun := l.uncorrRun + 1, uncorrBlocks := l.uncorrBlocks.filter (· != p.block) ++ [p.block] } }
    if ((s.slice n).lun p.lun).any fun l => decide (64 ≤ l.uncorrRun) && decide (4 ≤ l.uncorrBlocks.length) then s.lunFailed n p.lun 4
    else s

/-- The level at which a read of a block succeeded, kept for its next read (R159). -/
def State.keepLevel (s : State) (n : Nat) (p : ReadPass) : State :=
  if badPass p || p.erased || !s.bit (Adr.flCfg n) 20 then s
  else s.modSlice n fun x => x.modBlock p.lun p.block fun i => { i with level := p.level }

/-- The superblock and the page that a codeword lies in. -/
def State.pageOf (s : State) (n : Nat) (p : ReadPass) : Option (Superblock × Nat) :=
  (s.slice n).supers.findSome? fun sb =>
    if sb.blocks.contains (p.lun, p.block) then
      ((List.range sb.numPages).find? fun k => sb.pageAt k == some (p.lun, p.block, p.row)).map fun k => (sb, k)
    else none

/-- The units that a codeword holds bytes of. -/
def State.unitsIn (s : State) (n : Nat) (d : MediaDesc) (sb : Superblock) (k pos : Nat) : List StoredUnit :=
  let g := k * d.cwPerPage sb.mode sb.rate + pos
  (s.slice n).units.filter fun u => u.sb == sb.seq && decide (u.start / 4096 ≤ g) && decide (g ≤ (u.start + unitBytes u.slen - 1) / 4096)

/-- A codeword that is uncorrectable: its page is rebuilt where parity exists, else its units read as lost; and units whose tag does not verify
(R115, R160, R168). -/
def State.spoilUnits (s : State) (n : Nat) (p : ReadPass) : State :=
  match s.desc n, s.pageOf n p with
  | some d, some (sb, k) =>
    let us := s.unitsIn n d sb k p.pos
    let rebuilt := sb.underParity && !(s.slice n).sbWithdrawn sb
    let s := s.modSlice n fun x =>
      { x with units := x.units.map fun (v : StoredUnit) =>
          if us.contains v then { v with readable := v.readable && (rebuilt || !badPass p), tagOk := v.tagOk && p.tagOk } else v }
    if badPass p && rebuilt then s.losePage n sb.seq k else s
  | _, _ => s

/-- A codeword of a superblock under verification: where hard decoding fails, or corrects more than LIMIT bits, the units on its page move and its
block is marked; the last check makes the superblock VERIFIED and releases its parity (R116). -/
def State.verifyPass (s : State) (n seq : Nat) (p : ReadPass) : State :=
  let weak := badPass p || decide (6 < p.level) || decide (s.fld (Adr.ftVerifyCfg n) 9 0 < p.corrected)
  let s := if weak then
      let s := (s.setBit (Adr.ftEvt n) 0).modSlice n fun x =>
        { x with luns := recMod Lun.lun x.luns p.lun fun l => { l with verifyFails := l.verifyFails ++ [s.now] } }
      let s := match s.pageOf n p with
        | none => s
        | some q =>
          let us := s.unitsAt n q.1.seq q.2
          let s := s.modSlice n fun x => x.relocate us
          if badPass p then s.losePage n q.1.seq q.2 else s
      s.markBlock n p.lun p.block
    else s
  match (s.slice n).super seq with
  | none => s
  | some sb => if p.verifyLast && sb.state == .verifying && (s.slice n).verifyRead sb then s.verified n seq else s

/-- A decoded codeword in series 0x0F: by its corrected bits where it was good at level 0, else by its level, an uncorrectable one in bin 31; the
extremes are those at level 0. While the recorder is frozen it belongs to the binning period that is missed (R369, R374; log entry 58). -/
def State.recordPass (s : State) (p : ReadPass) : State :=
  if p.erased || s.frozen then s
  else if badPass p then s.recordBin 0xF 31 none
  else if p.level = 0 then s.recordBin 0xF (min 22 (p.corrected / 4)) (some p.corrected)
  else s.recordBin 0xF (min 30 (22 + p.level)) none

/-- READ_PASS_DONE (R116, R148, R157 to R160, R225): the codeword is counted, but for one found ERASED, which is no error; a verification pass goes
on, any other delivers a READ_DONE operand with its pointer. AUX is the producer's and a free value (log entry 4). -/
def execReadPassDone (slice cluster wslot index : Nat) (pass : ReadPass) (s : State) : Host.Outcome State Fault Refusal :=
  .next (if !s.mediaOn slice then s
    else
      let s := s.recordPass pass
      let s := if pass.erased then s else s.inc (passCounter slice (lunCh pass.lun) pass)
      let s := if pass.addrMismatch then s.setBit (Adr.flEvt slice) 4 else s
      let s := (s.keepLevel slice pass).countUncorr slice pass
      match pass.verifySb with
      | some seq => s.verifyPass slice seq pass
      | none =>
        let s := if badPass pass || !pass.tagOk then s.spoilUnits slice pass else s
        let f := s.free
        f.2.deliver slice cluster wslot index (opOf 4 pass.ptr (BitVec.ofNat 32 f.1) 0 (lunCh pass.lun)))

/-- PATROL_DUE (R125): a VERIFIED superblock is read, page by page; the units on each page with a codeword above LIMIT move. weak gives pages of the
data sequence and the most bits that a codeword of them needed corrected. -/
def execPatrolDue (slice sb : Nat) (weak : List (Nat × Nat)) (s : State) : Host.Outcome State Fault Refusal :=
  .next (match s.desc slice, (s.slice slice).super sb with
    | some d, some b =>
      if !s.mediaOn slice || !(b.state == .verified) || (s.slice slice).sbWithdrawn b then s
      else
        let s := (List.range b.due).foldl (fun s p =>
          match b.pageAt p with
          | none => s
          | some a => (s.countReads slice a.1 a.2.1 1).queueRead slice a.1 a.2.1 a.2.2 b.mode b.rate (d.cwPerPage b.mode b.rate) (.patrol sb) none) s
        let us := (weak.filter fun q => decide (s.fld (Adr.ftVerifyCfg slice) 9 0 < q.2)).flatMap fun q => s.unitsAt slice sb q.1
        s.modSlice slice fun x => (x.relocate us).modSuper sb fun b => { b with patrolAt := s.now }
    | _, _ => s)

/-! ### LUN health, time-outs, evacuation (R136, R138, R148, R164) -/

/-- A request to evacuate a LUN: its position leaves open superblocks at their next row, and its units move (R138). -/
def State.evacuate (s : State) (n lun : Nat) : State :=
  let bad := ((s.slice n).lun lun).all fun l => !l.active || l.health == .failed || l.health == .evacuated
  if (s.slice n).evacuating.isSome || bad then s.putF (Adr.ftEvacSts n) 31 30 3
  else
    let bytes := s.bytesOn n lun
    let s := match s.desc n with
      | none => s
      | some d => s.modSlice n fun x => { x with supers := x.supers.map fun (sb : Superblock) =>
          if sb.state == SbState.sopen then (sb.without d fun i => lunAt sb.group i == lun) else sb }
    let s := s.modSlice n fun x => { x with evacuating := some lun, evacBytes := bytes }
    ((s.putF (Adr.ftEvacSts n) 31 30 1).putF (Adr.ftEvacSts n) 23 16 0).putF (Adr.ftEvacSts n) 8 0 lun

/-- EVACUATION_GO: the manager's request, or the device's own with AUTO (R138). -/
def execEvacuationGo (slice lun : Nat) (auto : Bool) (s : State) : Host.Outcome State Fault Refusal :=
  .next (if !s.sliceUp slice then s
    else if auto then
      if s.bit (Adr.ftEvacCtl slice) 30 && ((s.slice slice).lun lun).any (fun l => l.health == .warn) then s.evacuate slice lun else s
    else (s.putF (Adr.ftEvacCtl slice) 8 0 lun).evacuate slice lun)

/-- EVACUATION_DONE: every valid unit that touches the LUN has moved, and the LUN is retired as EVACUATED with no data lost; its kept-back blocks are
replaced (R121, R138). -/
def execEvacuationDone (slice : Nat) (s : State) : Host.Outcome State Fault Refusal :=
  .next (match (s.slice slice).evacuating with
    | none => s
    | some lun =>
      if !s.sliceUp slice || s.bytesOn slice lun != 0 then s
      else
        let t := s.modSlice slice fun x =>
          { (x.rewind lun) with
            evacuating := none, reserve := x.reserve.filter fun r => r.lun != lun,
            luns := recMod Lun.lun x.luns lun fun l =>
              if l.health = .failed then l else { l with health := .evacuated, changedAt := s.now } }
        let a := Adr.flTgtSts slice (lunTarget lun)
        let t := t.putF a (17 + 2 * (lun % 4)) (16 + 2 * (lun % 4)) 2
        let t := ((t.putF (Adr.ftEvacSts slice) 31 30 2).putF (Adr.ftEvacSts slice) 23 16 100)
        ((t.sizeReserve slice false).evalSpare slice).evalExposed slice)

/-- The health that the thresholds give a LUN, and which of them were reached, as CAUSE of the exposure log gives them (R136, R140): retry
fractions are in hundredths of a percent (log entry 69). -/
def State.healthOf (s : State) (n : Nat) (d : MediaDesc) (l : Lun) (retry2 retry4 : Nat) : Health × Nat :=
  let retired := (s.slice n).retiredOn l.lun
  let fails := (l.verifyFails.filter fun t => decide (s.now < t + 30 * dayCourses)).length
  let r := if d.blocksPerLun * 20 ≤ retired * 1000 then 1 else 0
  let v := if 2 ≤ fails then 4 else 0
  let q := if 100 < retry4 then 2 else 0
  if r + v + q ≠ 0 then (.warn, r + v + q)
  else if d.blocksPerLun * 5 ≤ retired * 1000 ∨ 100 < retry2 then (.watch, (if d.blocksPerLun * 5 ≤ retired * 1000 then 1 else 0) +
    (if 100 < retry2 then 2 else 0))
  else (.good, 0)

/-- LUN_HEALTH_EVAL: a LUN moves forward only; on entry to WARN evacuation starts on its own where AUTO says so (R136 to R138). -/
def execLunHealthEval (slice lun retry2 retry4 : Nat) (s : State) : Host.Outcome State Fault Refusal :=
  .next (match s.desc slice, (s.slice slice).lun lun with
    | some d, some l =>
      if !s.sliceUp slice || !l.good then s
      else
        let h := s.healthOf slice d l retry2 retry4
        let forward := decide (l.health.code < h.1.code)
        let s := s.modSlice slice fun x =>
          { x with luns := recMod Lun.lun x.luns lun fun l =>
              { l with health := if forward then h.1 else l.health, cause := l.cause ||| h.2,
                       changedAt := if forward then s.now else l.changedAt } }
        let s := s.evalExposed slice
        if forward && h.1 == .warn then
          let s := s.setBit (Adr.ftEvt slice) 4
          if s.bit (Adr.ftEvacCtl slice) 30 then s.evacuate slice lun else s
        else s
    | _, _ => s)

/-- Has an operation been busy for twice its descriptor maximum (R148)? -/
def State.overdue (s : State) (d : MediaDesc) (w : FlWork) : Bool :=
  w.stage == .busy && decide (w.busyAt + 2 * d.maximum w.op w.mode * 1152 ≤ s.now * courseSteps)

/-- An operation repeated from its command on (R148). -/
def FlWork.repeated (w : FlWork) (d : MediaDesc) : FlWork :=
  { w with stage := .queued, pausedIn := none, polled := none,
           left := if w.op = .program then burstsOf (d.cwPerPage w.mode w.rate * cwBytes w.rate) else w.left }

/-- OPERATION_TIMEOUT (R148): an operation is not complete at twice its maximum time. LUN Reset and one repetition; not ready after the reset, or a
second time-out, is a failure. -/
def execOperationTimeout (slice lun : Nat) (ready : Bool) (s : State) : Host.Outcome State Fault Refusal :=
  .next (match s.desc slice, (s.slice slice).lun lun with
    | some d, some l =>
      match (s.slice slice).workOn lun (s.overdue d) with
      | none => s
      | some w =>
        if !s.mediaOn slice || l.health == .failed || l.health == .evacuated then s
        else if !ready then s.lunFailed slice lun 3
        else if 1 ≤ l.timeouts then s.lunFailed slice lun 1
        else s.modSlice slice fun x =>
          { x with luns := recMod Lun.lun x.luns lun fun l => { l with timeouts := 1 },
                   flash := { x.flash with works := x.flash.works.map fun v => if v.id = w.id then v.repeated d else v } }
    | _, _ => s)

/-- LUN_POLL_DUE (R164): the status that a LUN drives in a poll that is due; the poll item of the course takes it. An operation that ends without a
time-out clears the count of R148. -/
def execLunPollDue (slice lun : Nat) (res : PollRes) (s : State) : Host.Outcome State Fault Refusal :=
  .next (if !s.mediaOn slice then s
    else
      match (s.slice slice).workOn lun fun w => w.stage == .busy && w.polled.isNone && decide (w.pollAt ≤ s.now) with
      | none => s
      | some w => s.modSlice slice fun x =>
          { x with luns := recMod Lun.lun x.luns lun fun l => if res = .busy then l else { l with timeouts := 0 },
                   flash := { x.flash with works := x.flash.works.map fun v => if v.id = w.id then { v with polled := some res } else v } })

/-- DEV_WEAR_RATE_UPDATE (R140). -/
def execDevWearRateUpdate (s : State) : Host.Outcome State Fault Refusal := .next s.updateWearRate

/-! ### Slice format (R98, R99, R132, R255, R417) -/

/-- The result of a format request; 1 is RUNNING: accepted (Slice format results). -/
def State.formatCheck (s : State) (n muReq : Nat) : Nat :=
  let busy := (List.range 8).any fun j => let st := s.fld (Adr.flChSts n j) 2 0; st == 1 || st == 2
  let inUse := (s.namespaces.any fun x => x.parts.any fun p => p.slice == n) ||
    s.holders.any fun t => (List.range 32).any fun g => t.lunsets.testBit (32 * n + g)
  if !s.sliceUp n || s.fld (Adr.ftSts n) 2 0 == 4 || busy then 5
  else if inUse then 3
  else if (s.smallestMu n).isNone then 6
  else if muReq < 3 ∧ !s.tableFits n (muBlocks muReq) then 4
  else 1

/-- FT_FMT_CTL.GO (R99). -/
def State.startFormat (s : State) (n muReq : Nat) : State :=
  let s := s.putF (Adr.ftFmtCtl n) 1 0 muReq
  if s.fld (Adr.ftFmtSts n) 31 28 = 1 then s
  else
    let r := s.formatCheck n muReq
    let s := s.putF (Adr.ftFmtSts n) 31 28 r
    let s := if r = 6 then s.putF (Adr.ftSts n) 2 0 5 else s
    if r ≠ 1 then s
    else
      let mu := if muReq < 3 then muReq else (s.smallestMu n).getD 2
      ((s.modSlice n fun x => { x with formatting := some mu }).putF (Adr.ftFmtSts n) 7 0 0).putF (Adr.ftSts n) 2 0 1

/-- SLICE_FORMAT: FT_FMT_CTL.GO with a requested mapping unit (R99). -/
def execSliceFormat (slice muReq : Nat) (s : State) : Host.Outcome State Fault Refusal :=
  .next (if s.held || !s.hasSlice slice then s else s.startFormat slice muReq)

/-- Buckets of the index as a power of two: the largest not above 2^25 whose table takes at most one eighth of the DRAM (R255). -/
def indexSize (dram : Nat) : Nat := ((List.range 26).filter fun k => decide (2 ^ k * 128 ≤ dram / 8)).foldl max 0

/-- Blocks of the metadata superblocks (R417). -/
def State.metaBlocksOf (s : State) (n : Nat) (d : MediaDesc) (mu log2 : Nat) : Nat :=
  let x := s.slice n
  let width := ((List.range 32).map fun g => (x.activePos g).length).foldl max 1
  let u := width * d.blockBytes .pslc 0
  let need := 2 * (tableBytes (x.luns.length * d.lunBytes) (muBlocks mu) + 2 ^ log2 * 128 + 16 * 2 ^ 20)
  ((need + u - 1) / u + 2) * width

/-- A slice as a format leaves it: nothing stored, every block erased and free but the retired ones, wear fractions kept (R99, R123). The
spec gives the format's own erase no cell mode: the model's choice is that it adds no wear and leaves the block as one never erased (R140;
DESIGN CHOICE, log entry 39). -/
def Slice.formatted (x : Slice) (d : MediaDesc) (fails : List (Nat × Nat)) : Slice :=
  let x := fails.foldl (fun (x : Slice) q => x.modBlock q.1 q.2 fun i => { i with retired := true }) x
  let x := { x with blocks := x.blocks.map fun (b : BlockInfo) => { b with reads := 0, mode := none, level := 0, marked := b.retired } }
  { x with
    map := [], versions := [], units := [], supers := [], journal := [], landed := [], landedAcked := false, turns := [], gcOn := [],
    readOnly := [], index := [], objects := [], ingests := [], pins := [], evacuating := none, formatting := none, waNow := [],
    waFig := [], moves := [], relocs := [], reserve := [], parity := [], lostSizes := [], store := State.storeReset,
    flash := { x.flash with works := [] },
    luns := x.luns.map fun (l : Lun) =>
      if l.health = .failed ∨ l.health = .evacuated then { l with retired := 0 }
      else { l with health := .good, goodAtFormat := d.blocksPerLun - x.retiredOn l.lun, retired := 0, failedBlocks := [], verifyFails := [],
                    uncorrRun := 0, uncorrBlocks := [], lostBytes := 0, cause := 0 } }

/-- The format metadata and an empty mapping checkpoint, written to a metadata superblock of erased blocks (R99, R130). -/
def State.formatStore (s : State) (n : Nat) (d : MediaDesc) : State :=
  let t := s.segments n
  let picks := s.metaPicks n d
  s.modSlice n fun x =>
    { x with nextSb := x.nextSb + 1, store := { x.store with
        pass := 1, supers := [{ seq := x.nextSb, blocks := picks, fill := mapSegBytes, spans := [(0, 0, t.1 + t.2 - 1)] }] } }

/-- SLICE_FORMAT_DONE (R99): blocks that failed to erase are retired; the spare reference, the index, the landing reserve and the metadata
superblocks are sized; FT_CFG.MU, STATE NORMAL, RESULT DONE. -/
def execSliceFormatDone (slice : Nat) (eraseFails : List (Nat × Nat)) (s : State) : Host.Outcome State Fault Refusal :=
  .next (match (s.slice slice).formatting, s.desc slice with
    | some mu, some d =>
      if s.held then s
      else
        let s := s.modSlice slice fun x => x.formatted d eraseFails
        let log2 := indexSize (s.dramBytes slice)
        let meta_ := s.metaBlocksOf slice d mu log2
        let refs := s.fld (Adr.ftSpareCfg slice) 23 16
        let s := s.modSlice slice fun x =>
          { x with muFmt := some mu, indexLog2 := some log2, metaBlocks := meta_, metaLuns := (x.luns.filter Lun.good).length, spareRef := refs,
                   goodBlocks := ((x.luns.filter Lun.good).map Lun.goodAtFormat).sum }
        let s := (s.putF (Adr.ftCfg slice) 1 0 mu).putF (Adr.ftSts slice) 2 0 2
        let s := (s.putF (Adr.ftFmtSts slice) 31 28 2).putF (Adr.ftFmtSts slice) 7 0 100
        (((s.evalExposed slice).sizeReserve slice true).formatStore slice d).evalSpare slice
    | _, _ => s)

end Sys2Proof.Machine
end

