-- ==== Sys2Proof/Machine/PowerStates.lean ====
section
/-!
DEFINITION. Meanings of the entry into a non-operational power state and of the exit from it (R344 to R347).
-/

namespace Sys2Proof.Machine

/-- The largest EXLAT of the targets of a controller's APST table in µs; 0 with APST disabled. The table is not part of the row, so the
value is free among those there are (R346; log entry 4). -/
def Ctrl.apstExit (k : Ctrl) : Nat :=
  if (mapGet k.features 0x0C).getD 0 % 2 = 0 then 0
  else match (mapGet k.features 0x20C).getD 0 % 3 with
    | 0 => 0
    | 1 => 5000
    | _ => 400000

/-- The smallest effective tolerance of the active controllers in µs, none without one (R346). -/
def State.tolerance (s : State) : Option Nat :=
  ((s.ctrls.filter fun k => k.en && k.rdy).map fun k => min k.latency k.apstExit).min?

/-- The deepest non-operational state whose EXLAT every active controller tolerates (R344, R346). -/
def State.deepState (s : State) : Option Nat :=
  let fits (e : Nat) : Bool := s.tolerance.all fun t => decide (e ≤ t)
  if fits 400000 then some 4 else if fits 5000 then some 3 else none

/-- Is a submission a DMA transfer? -/
def EngineOp.moves (o : EngineOp) : Bool :=
  match o.desc with
  | .dma _ _ _ _ => true
  | _ => false

/-- Is there no work: no Asynchronous Event Request aside, no command, invocation, open ingest, export pin or DMA transfer (R347)? -/
def State.quiet (s : State) : Bool :=
  (s.inflight.all fun y => y.phase == .ended || y.conds.contains .event) && s.invocations.isEmpty && s.transfers.isEmpty &&
    s.slices.all fun x => x.ingests.isEmpty && x.pins.isEmpty && x.engineOps.all fun o => !o.moves

/-- Is maintenance of slice n at rest: no pool below its start point, no verification, no evacuation (R122, R347)? -/
def State.atRest (s : State) (n : Nat) : Bool :=
  ((s.slice n).supers.all fun sb => sb.state != .verifying) && (s.slice n).evacuating.isNone &&
    match s.desc n with
    | none => true
    | some d => (s.pools n).all fun p => decide (s.fld (Adr.ftGcCfg n) 7 0 < s.freeSupers n d p)

/-- May the package enter a non-operational state (R347)? -/
def State.maySleep (s : State) : Bool :=
  !s.held && !s.minimal && !s.power.stopped && !s.asleep && s.course.running &&
    (s.tenants.all fun t => !(t.isSealed && t.state == .online)) && s.quiet &&
    (s.sliceList.all fun n => !s.sliceUp n || s.atRest n) && !s.unhealthy && s.huMode == modeFloat

/-- PSTATE changes (PW_STS, PW_EVT). -/
def State.setPstate (s : State) (k : Nat) : State := (s.putF Adr.pwSts 26 24 k).setBit Adr.pwEvt 5

/-- Every OPEN version streams: how a buffer drains for PS4 (R347). -/
def State.drainForSleep (s : State) : State :=
  s.mapSlices fun x => { x with versions := x.versions.map fun (v : Version) => if v.isOpen then { v with trigger := true } else v }

/-- POWER_STATE_ENTRY (R344, R346, R347). With a version left in a buffer, the entry into PS4 first drains it; the delta journal is
written before the entry. -/
def execPowerStateEntry (s : State) : Host.Outcome State Fault Refusal :=
  .next (if !s.maySleep then s
    else match s.deepState with
      | none => s
      | some 4 =>
        if s.slices.any fun x => !x.versions.isEmpty then s.drainForSleep
        else
          let s := s.sliceList.foldl (fun s n => (s.drainWrites n 0).drainWrites n 1) (s.mapSlices Slice.writeJournal)
          s.setPstate 4
      | some k => s.setPstate k)

/-- POWER_STATE_EXIT: whatever woke it, the package returns to its operational state (R347). -/
def execPowerStateExit (_why : WakeCause) (s : State) : Host.Outcome State Fault Refusal :=
  .next (if s.asleep then s.setPstate (s.fld Adr.pwSts 18 16) else s)

end Sys2Proof.Machine
end

