-- ==== Sys2Proof/Machine/Search.lean ====
section
/-!
DEFINITION. Meanings of the search operations (R206 to R215, R221, R222).
-/

namespace Sys2Proof.Machine

/-- SEARCH (R207, R208, R211, R213, R221, R222): one search from START; its response waits to reach the requester. -/
def execSearch (slice array part requester start : Nat) (key : BitVec 128) (s : State) : Host.Outcome State Fault Refusal :=
  .next (s.searchIssue slice array { part := part, requester := requester, offset := start, op := .search key })

/-- SEARCH_BATCH (R208, R213, R214, R221, R222): one search a key, 8-byte responses written in key order. A batch whose bytes
disagree with COUNT has its responses zeroed. -/
def execSearchBatch (slice array part requester start count : Nat) (keys : List (BitVec 128)) (respPtr arrived : Nat)
    (s : State) : Host.Outcome State Fault Refusal :=
  let c := if count = 0 ∨ 4096 < count then 7 else s.searchCheck slice array part requester start
  if c ≠ 0 then .next (s.searchEnd slice array part c start)
  else if !s.ownsMem slice requester respPtr (8 * count) then
    .next (s.modArray slice array fun a => { a with lastStatus := 0x10 })
  else if arrived ≠ 16 * count then
    let s := if s.bit (Adr.asErrSts slice) 31 then s
      else (s.wr (Adr.asErrDecl slice) (BitVec.ofNat 32 (16 * count))).wr (Adr.asErrArr slice) (BitVec.ofNat 32 arrived)
    .next ((s.memZero slice respPtr (8 * count)).searchEnd slice array part 4 start)
  else .next (s.searchIssue slice array
    { part := part, requester := requester, offset := start, op := .batch (keys.take count) respPtr 0 })

/-- INVALIDATE: STAGED or VALID becomes EMPTY; EMPTY stays, with OK (Entry states). -/
def execInvalidate (slice array part requester offset : Nat) (s : State) : Host.Outcome State Fault Refusal :=
  .next (s.searchIssue slice array { part := part, requester := requester, offset := offset, op := .invalidate })

/-- WRITE: an EMPTY or STAGED entry takes KEY AND MASK, MASK and RESULT and is STAGED; VALID refuses (R206, Entry states). -/
def execEntryWrite (slice array part requester offset : Nat) (key mask : BitVec 128) (result : BitVec 32) (s : State) :
    Host.Outcome State Fault Refusal :=
  .next (s.searchIssue slice array { part := part, requester := requester, offset := offset, op := .write key mask result })

/-- VALIDATE: STAGED becomes VALID; EMPTY refuses (Entry states). -/
def execValidate (slice array part requester offset : Nat) (s : State) : Host.Outcome State Fault Refusal :=
  .next (s.searchIssue slice array { part := part, requester := requester, offset := offset, op := .validate })

/-- RESULT_WRITE: replaces RESULT of a VALID entry; EMPTY and STAGED refuse (Entry states). -/
def execResultWrite (slice array part requester offset : Nat) (result : BitVec 32) (s : State) :
    Host.Outcome State Fault Refusal :=
  .next (s.searchIssue slice array { part := part, requester := requester, offset := offset, op := .resultWrite result })

/-- READ: the entry's state, KEY, MASK and RESULT (Search operations). -/
def execEntryRead (slice array part requester offset : Nat) (s : State) : Host.Outcome State Fault Refusal :=
  .next (s.searchIssue slice array { part := part, requester := requester, offset := offset, op := .read })

/-- SEARCH_RESPONSE (R213): the oldest response of the array reaches the requesting work item as an ENGINE operand. -/
def execSearchResponse (slice array cluster wslot index : Nat) (s : State) : Host.Outcome State Fault Refusal :=
  match (s.array slice array).responses with
  | [] => .next s
  | w :: rest =>
    let s := s.modArray slice array fun a => { a with responses := rest }
    .next (s.deliver slice cluster wslot index (opOf 3 w 0 (w.toNat / 2 ^ 56 % 16) array))

end Sys2Proof.Machine
end

