-- ==== Sys2Proof/Machine/Window.lean ====
section
/-!
DEFINITION. Meanings of the accesses to the vendor window (R4 to R7, R387 to R396): what an address answers, what its registers read as, and
what a write does.
-/

namespace Sys2Proof.Machine

/-! ### What an address answers (R389 to R395) -/

/-- How an access to a window address ends. -/
inductive Access where
  /-- the register of this row answers -/
  | register (r : RegRow)
  /-- reserved space (R395) -/
  | reserved
  /-- the block does not answer yet (R394) -/
  | early
  /-- the window of a slice in PS3 or PS4 (R394) -/
  | asleep
  /-- the window of an offline slice: reads of TS and EC still answer (R394) -/
  | offline (r : RegRow)
  deriving DecidableEq, Repr

/-- What an aligned window address answers (R390, R394, R395). -/
def State.access (s : State) (a : Nat) : Access :=
  match rowOf s.part a with
  | none => .reserved
  | some r =>
    if a < 0x1000000 then
      if a / 0x10000 = 0 ∨ a / 0x10000 = 0xA ∨ 2 ≤ s.stage then .register r else .early
    else
      let n := (a - 0x1000000) / 0x400000
      if (s.slice n).mode == .offline then .offline r
      else if s.stage < 3 ∨ (s.slice n).mode == .off then .early
      else if s.asleep then .asleep
      else .register r

/-- Does the vendor window exist now: link-up of port 0 in a normal start (R42, R389, R394)? -/
def State.windowOpen (s : State) : Bool := !s.held && !s.minimal && s.linkUp 0

/-- The first flagged access since all four flags were last clear is recorded (HUB_ACC_STS). -/
def State.flagAccess (s : State) (bit a : Nat) : State :=
  if s.fld Adr.hubAccSts 31 28 ≠ 0 then s else s.wr Adr.hubAccSts (BitVec.ofNat 32 (2 ^ bit + a % 2 ^ 26))

/-- What an access that reaches no register leaves behind (R394, R395). -/
def State.flagged (s : State) (a : Nat) (x : Access) : State :=
  match x with
  | .reserved => s.flagAccess 31 a
  | .early => s.flagAccess 28 a
  | .asleep => s.flagAccess 29 a
  | _ => s

/-! ### What registers read as: fields that the package keeps elsewhere -/

/-- State of a unit as status registers code it: 0 ACTIVE, 1 FENCED_TEST, 2 FENCED_FAULT, 3 ABSENT (R377). -/
def State.unitCode (s : State) (u : UnitId) : Nat :=
  if !s.built u then 3
  else match s.fenceOf u with
    | none => 0
    | some .forTest => 1
    | some .forFault => 2

/-- Is the unit fenced? -/
def State.isFenced (s : State) (u : UnitId) : Bool := (s.fenceOf u).isSome

/-- The numbers below n that satisfy p, as a mask. -/
def maskFor (n : Nat) (p : Nat → Bool) : Nat := maskOf ((List.range n).filter p)

/-- FN_STS, FN_TI_STS, FN_TI_INFLIGHT, FN_TI_GEN and FN_TI_WEAR. -/
def State.viewFn (s : State) (off : Nat) (w : Word) : Word :=
  if off = 0 then BitVec.ofNat 32 ((s.tenants.filter Tenant.isSealed).length * 2 ^ 16 + s.tenants.length)
  else if off < 0x1000 then w
  else
    let ti := (off - 0x1000) / 16
    match (off - 0x1000) % 16 with
    | 0 => s.fnStsWord ti
    | 4 => s.fnInflightWord ti
    | 0xC => s.fnWearWord ti
    | _ => w

/-- STATE of a host DMA channel (HD_CH_STS): IDLE, ACTIVE, PREEMPTED, THROTTLED, STOPPED, PROBING (R270 to R277). -/
def State.hdState (s : State) (c : Nat) : Nat :=
  let k := s.hdCh c
  if s.bit Adr.hdSts 31 && decide (4 ≤ c) then
    if s.hdToProbe.head? == some c then 5 else if k.cur.isSome then 4 else 0
  else if k.cur.isNone then 0
  else if k.lost then 2
  else if decide (4 ≤ c) && k.creditLeft == 0 then 3
  else 1

/-- HD_STS.COURSE_BEATS, HD_CH_CTL with the value that waits for its boundary (R5, R273), and HD_CH_STS. -/
def State.viewHd (s : State) (off : Nat) (w : Word) : Word :=
  if off = 4 then setBits w 28 16 s.courseBeats
  else if off < 0x100 then w
  else
    let c := (off - 0x100) / 8
    if off % 8 = 0 then (s.hdCh c).newCtl.getD w
    else BitVec.ofNat 32 (s.hdState c * 2 ^ 29 + s.hdOwner c % 512 * 2 ^ 16 + min 8191 (s.hdCh c).creditLeft)

/-- KS_STS.ACTIVE_SLOTS and KS_SLOT_nnnn (R183, R184). -/
def State.viewKs (s : State) (off : Nat) (w : Word) : Word :=
  if off = 0 then setBits w 28 16 ((List.range 4608).filter fun k => !((s.keySlot k).state == .empty)).length
  else if 0x1000 ≤ off then
    let n := (off - 0x1000) / 4
    if 4160 < n then 0 else (s.keySlot n).word
  else w

/-- DG_STS and DG_INST_STS_ii: STATE, ALG, HMAC, ASSIGNED and OWNER. -/
def State.viewDg (s : State) (off : Nat) (w : Word) : Word :=
  if off = 4 then
    BitVec.ofNat 32 (maskFor 16 (fun i => s.isFenced (UnitId.digest i)) * 2 ^ 16 + maskFor 16 fun i => (s.digestMsg i).isSome)
  else if 0x100 ≤ off ∧ off % 16 = 0 then
    let i := (off - 0x100) / 16
    let m := s.digestMsg i
    let st := if !s.built (UnitId.digest i) then 3 else if s.isFenced (UnitId.digest i) then 2 else bit01 m.isSome
    let who := ((s.tenants.find? fun t => t.dgMask.testBit i).map Tenant.ti).getD 0x100
    let msg := match m with
      | none => 0
      | some m => m.alg % 8 * 2 ^ 26 + bit01 m.hmac.isSome * 2 ^ 25 + m.owner % 512
    BitVec.ofNat 32 (st * 2 ^ 29 + who * 2 ^ 9 + msg)
  else w

/-- MS_VAL_nn_ww: the bytes of a measurement register, byte 4w in [7:0]. -/
def State.viewMs (s : State) (off : Nat) (w : Word) : Word :=
  if off < 0x1000 then w
  else
    let n := (off - 0x1000) / 64
    let k := (off - 0x1000) % 64 / 4
    BitVec.ofNat 32 (leValue (((digestBytes ((s.meas[n]?).getD 0)).drop (4 * k)).take 4))

/-- EV_RD_DATA: a word of the live image (R370, R374). -/
def State.viewEv (s : State) (off : Nat) (w : Word) : Word :=
  if off = 0x18 then BitVec.ofNat 32 (leValue ((s.liveImage.bytes.drop (4 * s.fld Adr.evRdSel 11 0)).take 4)) else w

/-- Pages of partition p and its first page (R361). -/
def partPages (p : Nat) : Nat × Nat := (nvPartReset p / 65536, nvPartReset p % 65536)

/-- NV_STORE_STS.TOKENS, NV_STORE_SEQ, NV_STS, NV_PART and NV_WEAR, from NVM. -/
def State.viewNv (s : State) (off : Nat) (w : Word) : Word :=
  if off = 4 then setBits w 22 16 s.nvm.tokens
  else if off = 8 then BitVec.ofNat 32 ((s.nvm.record.map StoreRecord.seq).getD 0)
  else if off = 0xC then setBits (setBits w 28 28 s.nvm.bank) 24 16 s.nvm.spareLeft
  else if 0x140 ≤ off then
    let q := partPages ((off - 0x140) / 4)
    BitVec.ofNat 32 ((s.nvm.pageWear.filter fun p => decide (q.2 ≤ p.1) && decide (p.1 < q.2 + q.1)).foldl (fun m p => max m p.2) 0)
  else if 0x100 ≤ off then
    let p := (off - 0x100) / 4
    setBits w 26 16 ((partPages p).1 - (mapGet s.nvm.lostPages p).getD 0)
  else w

/-- PW_LAT (R346). -/
def State.viewPw (s : State) (off : Nat) (w : Word) : Word :=
  if off = 0x48 then BitVec.ofNat 32 (s.tolerance.getD 0xFFFFFFFF) else w

/-- CK_STS.BOND_COURSE, CK_COURSE and CK_SYNC_CTL with the value that waits for its boundary (R5, R21). -/
def State.viewCk (s : State) (off : Nat) (w : Word) : Word :=
  if off = 0 then setBits w 21 16 s.bondCourse
  else if off = 8 then BitVec.ofNat 32 s.now
  else if off = 0xC then BitVec.ofNat 32 (s.now / 2 ^ 32)
  else if off = 0x20 then s.course.syncCtl.getD w
  else w

/-- ST_FAIL_CNT, ST_FW_SLOT, ST_CYCLES and ST_MINUTES, from NVM (R352, R354, R368). -/
def State.viewSt (s : State) (off : Nat) (w : Word) : Word :=
  match off with
  | 8 => BitVec.ofNat 32 (s.nvm.failCnt % 256)
  | 0xC =>
    let r := s.nvm.slots
    BitVec.ofNat 32 (bit01 r.next.isSome * 128 + bit01 r.tried * 64 + r.next.getD 0 % 2 * 2 + r.active % 2)
  | 0x10 => BitVec.ofNat 32 s.nvm.cycles
  | 0x14 => BitVec.ofNat 32 s.nvm.minutes
  | _ => w

/-- FL_CH_BUSY_j: READS, the LUNs busy with a read sense, and ARRAY, the programs and erases busy (R150). -/
def State.viewFl (s : State) (n off : Nat) (w : Word) : Word :=
  if 0x100 ≤ off ∧ off < 0x300 ∧ off % 64 = 0x18 then
    let ch := (off - 0x100) / 64
    BitVec.ofNat 32 (min 255 ((s.slice n).busyOn ch true) * 256 + min 255 ((s.slice n).busyOn ch false))
  else w

/-- FT_STS.OPEN_SB, FT_WB.USABLE, FT_WB_USED, FT_LANDING, FT_EXPOSED and FT_LOST (R105, R126, R127, R137, R140). -/
def State.viewFt (s : State) (n off : Nat) (w : Word) : Word :=
  match off with
  | 4 => setBits w 23 16 (min 255 ((s.slice n).supers.filter fun b => b.state == .sopen).length)
  | 8 => setBits w 31 16 (s.wbUsable n)
  | 0xC => BitVec.ofNat 32 (min 65535 ((s.wbUsed n + 2 ^ 20 - 1) / 2 ^ 20))
  | 0x14 => BitVec.ofNat 32 (min 65535 (s.landTotal n) * 65536 + min 65535 (s.landReady n))
  | 0x38 => BitVec.ofNat 32 (s.exposedTotal n)
  | 0x3C => BitVec.ofNat 32 (s.exposedTotal n / 2 ^ 32)
  | 0x40 => BitVec.ofNat 32 (s.slice n).lostNow
  | 0x44 => BitVec.ofNat 32 ((s.slice n).lostNow / 2 ^ 32)
  | _ => w

/-- CX_STS: the states of the pipes and of the byte-serial unit beside the paths. -/
def State.viewCx (s : State) (n off : Nat) (w : Word) : Word :=
  if off = 4 then
    setBits (setBits w 8 8 (bit01 (s.isFenced (UnitId.byteSerial n)))) 3 0
      (s.unitCode (UnitId.pipe n 1) * 4 + s.unitCode (UnitId.pipe n 0))
  else w

/-- CZ_STS: the states of the pairs, of which compressor and decompressor are fenced together (R195). -/
def State.viewCz (s : State) (n off : Nat) (w : Word) : Word :=
  if off = 4 then
    let m := ((List.range 4).map fun e => s.unitCode (UnitId.pair n e) * 4 ^ e).sum
    BitVec.ofNat 32 (m * 256 + m)
  else w

/-- AS_STS: the states of the arrays beside their rates. -/
def State.viewAs (s : State) (n off : Nat) (w : Word) : Word :=
  if off = 4 then setBits w 3 0 (s.unitCode (UnitId.array n 1) * 4 + s.unitCode (UnitId.array n 0)) else w

/-- TQ_CL_SLOTS, TQ_CL_FLOWS, TQ_CL_DELAY, TQ_CL_L2 and TQ_TI (R224, R225, R234, R235). FLOWS of TQ_TI has 13 bits for up to 16,384 flows
and stays at its largest value beyond it (R7; log entry 73). -/
def State.viewTq (s : State) (n off : Nat) (w : Word) : Word :=
  if 0x1000 ≤ off then
    let ti := (off - 0x1000) / 4
    let ks := (s.slice n).clusters
    BitVec.ofNat 32 (min 8191 (ks.map fun k => k.flowsOf ti).sum * 65536 + (ks.map fun k => k.slotsOf ti).sum)
  else if 0x100 ≤ off then
    let c := (off - 0x100) / 64
    let k := s.cluster n c
    match (off - 0x100) % 64 with
    | 0 => BitVec.ofNat 32 (k.items.length * 65536 + (k.items.filter fun q => q.2.state == .ready).length)
    | 4 => BitVec.ofNat 32 k.flows.length
    | 8 => BitVec.ofNat 32 (k.far.length * 65536 + k.near.length)
    | 0xC =>
      let e := s.cell s.bondCourse (bondRow (2 * n + c / 2) 3)
      let a := entKind (entryA e) == 1
      let b := entKind (entryB e) == 1
      BitVec.ofNat 32 (bit01 b * 2 ^ 17 + bit01 a * 2 ^ 16 + (if b then entOwner (entryB e) else 0) * 256 +
        (if a then entOwner (entryA e) else 0))
    | _ => w
  else w

/-- SD_STS, and STATE of SD_CH_STS_kk (R280). -/
def State.viewSd (s : State) (n off : Nat) (w : Word) : Word :=
  let busy (k : Nat) : Bool := (s.slice n).engineOps.any fun o =>
    match o.desc with
    | .dma c _ _ _ => c == k
    | _ => false
  let fenced (k : Nat) : Bool := s.isFenced (UnitId.sdma n k)
  if off = 4 then BitVec.ofNat 32 (maskFor 16 fenced * 65536 + maskFor 16 busy)
  else if 0x100 ≤ off then
    let k := (off - 0x100) / 4
    setBits w 1 0 (if fenced k then 2 else bit01 (busy k))
  else w

/-- The header of a context as a 64-bit value (Context header). -/
def Ctx.header (k : Ctx) : Nat :=
  let st := if k.state = 0 ∧ 0 < k.ops then 1 else k.state
  k.kind + st * 2 ^ 8 + k.owner % 65536 * 2 ^ 16 + k.flow % 65536 * 2 ^ 32 + k.cluster % 256 * 2 ^ 48 + min 255 k.ops * 2 ^ 56

/-- CT_STS.FREE, CT_HDR_LO, CT_HDR_HI and CT_TI (R236 to R238). -/
def State.viewCt (s : State) (n off : Nat) (w : Word) : Word :=
  let x := s.slice n
  let hdr := ((mapGet x.contexts (s.fld (Adr.ctHdrIdx n) 15 0)).map Ctx.header).getD 0
  if 0x1000 ≤ off then BitVec.ofNat 32 (x.ctxUsed ((off - 0x1000) / 4))
  else match off with
    | 4 => BitVec.ofNat 32 (65535 - x.ctxTotal)
    | 0x14 => BitVec.ofNat 32 hdr
    | 0x18 => BitVec.ofNat 32 (hdr / 2 ^ 32)
    | _ => w

/-- TS_STS and TS_CORE_FENCED (R381, R382). -/
def State.viewTs (s : State) (n off : Nat) (w : Word) : Word :=
  match off with
  | 0 =>
    let st := match (s.slice n).mode with
      | .offline => 3
      | .landing => 2
      | _ => bit01 (s.dramDegraded n)
    BitVec.ofNat 32 (st * 2 ^ 30 + maskFor 2 (fun r => s.isFenced (UnitId.flashCluster n r)) * 2 ^ 10 +
      maskFor 2 (fun r => s.isFenced (UnitId.region n r)) * 2 ^ 8 + maskFor 4 fun c => s.isFenced (UnitId.cluster n c))
  | 4 => BitVec.ofNat 32 (maskFor 32 fun p => s.isFenced (UnitId.core n p))
  | _ => w

/-- The value of a register that answers. -/
def State.value (s : State) (a : Nat) : Word :=
  let w := s.rd a
  if a < 0x1000000 then
    let off := a % 0x10000
    match a / 0x10000 with
    | 0 =>
      if off = 8 then s.nvm.packageId.setWidth 32
      else if off = 0xC then (s.nvm.packageId >>> 32).setWidth 32
      else w
    | 1 => s.viewFn off w
    | 2 => s.viewHd off w
    | 3 => s.viewKs off w
    | 4 => s.viewDg off w
    | 5 => s.viewMs off w
    | 6 => s.viewEv off w
    | 7 => s.viewNv off w
    | 8 => s.viewPw off w
    | 9 => s.viewCk off w
    | 0xA => s.viewSt off w
    | _ => w
  else
    let n := (a - 0x1000000) / 0x400000
    let off := (a - 0x1000000) % 0x400000
    if off < 0x80000 then w
    else if off < 0x100000 then s.viewFl n (off - 0x80000) w
    else if off < 0x140000 then s.viewFt n (off - 0x100000) w
    else if off < 0x160000 then s.viewCx n (off - 0x140000) w
    else if off < 0x180000 then s.viewCz n (off - 0x160000) w
    else if off < 0x1C0000 then s.viewAs n (off - 0x180000) w
    else if off < 0x200000 then s.viewTq n (off - 0x1C0000) w
    else if off < 0x240000 then s.viewSd n (off - 0x200000) w
    else if off < 0x280000 then s.viewCt n (off - 0x240000) w
    else if off < 0x2C0000 then w
    else s.viewTs n (off - 0x2C0000) w

/-! ### Reads (R392) -/

/-- Is the address that of an _LO register, whose _HI partner lies above it (R392)? -/
def isLo (a : Nat) : Bool :=
  if a < 0x1000000 then
    [0x8, 0x30010, 0x40018, 0x40020, 0x90008].contains a || (decide (0x40100 ≤ a) && decide (a < 0x40200) && a % 16 == 8)
  else
    let off := (a - 0x1000000) % 0x400000
    [0x40308, 0x40310, 0x100038, 0x100040, 0x140018, 0x140020, 0x160018, 0x160020, 0x160030, 0x160038, 0x180020, 0x180028,
      0x1C0110, 0x1C0150, 0x1C0190, 0x1C01D0, 0x240014, 0x280044].contains off ||
      (decide (0x40340 ≤ off) && decide (off < 0x403C0) && off % 8 == 0)

/-- What a read of a register returns: an _HI register the value latched by the last read of its _LO partner, 0 before any (R392); WO bits
0 (R5). R5 gives an RW register its last written value, R392 an _HI register the latched one; for the _HI registers that are RW the model follows
R392 (DESIGN CHOICE, log entry 44). FT_FMT_STS.PCT of a running format is free below 100: how far the erases are nothing here says (log entry 4). -/
def State.readValue (s : State) (a : Nat) (r : RegRow) : State × Word :=
  if 4 ≤ a ∧ isLo (a - 4) then (s, (mapGet s.latches a).getD 0)
  else
    let v := s.value a &&& ~~~(BitVec.ofNat 32 r.wo)
    if 0x1000000 ≤ a ∧ (a - 0x1000000) % 0x400000 = 0x100058 ∧ bits v 31 28 = 1 then
      (s.free.2, setBits v 7 0 (s.free.1 % 100))
    else (s, v)

/-- A read completes with a value. -/
def State.answerRead (s : State) (v : Word) : State := { s with busRead := v }

/-- One register read (R391 to R395). -/
def State.readReg (s : State) (a : Nat) : State :=
  match s.access a with
  | .register r =>
    let q := s.readValue a r
    let t : State := if isLo a then { q.1 with latches := mapInsert q.1.latches (a + 4) (s.value (a + 4)) } else q.1
    t.answerRead q.2
  | .offline r =>
    let off := (a - 0x1000000) % 0x400000
    if 0x280000 ≤ off then
      let q := s.readValue a r
      let t : State := if isLo a then { q.1 with latches := mapInsert q.1.latches (a + 4) (s.value (a + 4)) } else q.1
      t.answerRead q.2
    else s.answerRead 0
  | x => (s.flagged a x).answerRead 0

/-! ### Writes (R5, R35, R327, R392) -/

/-- RW fields stored, W1C bits cleared; everything else of the value is ignored (R5, R7). -/
def RegRow.write (r : RegRow) (old v : Word) : Word :=
  let rw := BitVec.ofNat 32 r.rw
  let w1c := BitVec.ofNat 32 r.w1c
  ((old &&& ~~~rw) ||| (v &&& rw)) &&& ~~~(v &&& w1c)

/-- The plain write of a register. -/
def State.plainWrite (s : State) (a : Nat) (r : RegRow) (v : Word) : State := s.wr a (r.write (s.rd a) v)

/-- CK: the shadow banks, CK_DEVWGT and CK_DEVWGT_H while a commit waits (R35), CK_SYNC_CTL at its boundary, GO (R34). -/
def State.writeCk (s : State) (a off : Nat) (r : RegRow) (v : Word) : State :=
  let shadow : Bool := (decide (0x1800 ≤ off) && decide (off < 0x2000)) || decide (0x8000 ≤ off) || off == 0x18 || off == 0x1C
  if shadow && s.bit Adr.ckCommitSts 7 then s.setBit Adr.ckCommitSts 6
  else if off = 0x10 then (if v.getLsbD 0 then s.requestCommit else s)
  else if off = 0x20 then s.modCourse fun c => { c with syncCtl := some (v &&& BitVec.ofNat 32 r.rw) }
  else s.plainWrite a r v

/-- The loop whose register lies at an offset of the PW block, and its place among the loop's registers; the ride set is LOOP_01's, place
0x100 (R326, R327). -/
def loopReg (off : Nat) : Option (Nat × Nat) :=
  if 0x100 ≤ off ∧ off < 0x500 then some ((off - 0x100) / 64, (off - 0x100) % 64)
  else if 0x500 ≤ off then some (1, 0x100)
  else none

/-- CFG_IGNORED of a loop (R327). -/
def State.cfgIgnored (s : State) (n : Nat) : State := s.setBit (Adr.pwLoopSts n) 6

/-- Is a loop's setpoint written by a sink or by the device: of LOOP_00 to LOOP_02, and of a loop that some other names (R326, R327)? -/
def State.spTaken (s : State) (n : Nat) : Bool :=
  decide (n ≤ 2) || (List.range 16).any fun k => s.loopExists k && s.fld (Adr.pwLoopCtl k) 23 16 == 0x10 + n

/-- Does a chain of setpoint sinks from a loop reach another? -/
def State.sinkReaches (s : State) (to_ : Nat) : Nat → Nat → Bool
  | 0, _ => false
  | fuel + 1, n =>
    if n = to_ then true
    else
      let k := s.fld (Adr.pwLoopCtl n) 23 16
      decide (0x10 ≤ k) && decide (k ≤ 0x1F) && s.sinkReaches to_ fuel (k - 0x10)

/-- May a loop take this sink: NONE, PKG_ADMIT, a SLICE_ADMIT, or the setpoint of LOOP_11 to LOOP_15 without a cycle (R326, R327)? -/
def State.sinkOk (s : State) (n k : Nat) : Bool :=
  k == 0 || k == 2 || (decide (0x20 ≤ k) && decide (k ≤ 0x27)) ||
    (decide (0x1B ≤ k) && decide (k ≤ 0x1F) && !s.sinkReaches n 17 (k - 0x10))

/-- PW_LOOP_CTL_nn: FE_MODE always; SOURCE and SINK of LOOP_11 to LOOP_15 while the loop is open; then CLOSED opens or closes it on its last
measurement (R327). -/
def State.writeLoopCtl (s : State) (n : Nat) (v : Word) : State :=
  let a := Adr.pwLoopCtl n
  let was := s.loopClosed n
  let s := s.putF a 30 29 (bits v 30 29)
  let moved := bits v 23 16 != s.fld a 23 16 || bits v 7 0 != s.fld a 7 0
  let s :=
    if n ≤ 10 || !moved then s
    else if was then s.cfgIgnored n
    else
      let s := s.putF a 7 0 (bits v 7 0)
      if s.sinkOk n (bits v 23 16) then s.putF a 23 16 (bits v 23 16) else s.cfgIgnored n
  if v.getLsbD 31 && !was then s.loopClose n (s.q (Adr.pwLoopMeas n))
  else if !v.getLsbD 31 && was then s.loopOpen n
  else s

/-- A register of a loop (R327): locked while the loop is closed, but for SP of a loop that nothing else sets. -/
def State.writeLoop (s : State) (a n place : Nat) (r : RegRow) (v : Word) : State :=
  match place with
  | 0 => s.writeLoopCtl n v
  | 4 => s.plainWrite a r v
  | 8 => if s.spTaken n then s.cfgIgnored n else s.plainWrite a r v
  | _ => if s.loopClosed n && r.rw != 0 then s.cfgIgnored n else s.plainWrite a r v

/-- PW: the hold-up actions and what depends on a configuration register at once (R326, R330, R334, R335). -/
def State.writePw (s : State) (a off : Nat) (r : RegRow) (v : Word) : State :=
  match loopReg off with
  | some q => s.writeLoop a q.1 q.2 r v
  | none =>
    match off with
    | 0x8 =>
      let s := (s.plainWrite a r v).evalArmed false
      let s := if v.getLsbD 31 then s.holdupClear else s
      if v.getLsbD 30 then s.wantMeasure else s
    | 0x10 =>
      let s := s.plainWrite a r v
      if s.huMode = modeRide ∨ s.huMode = modeDump then s else s.wrQ (Adr.pwLoopSp 1) (qOfMilli s.floatMv)
    | 0x44 => (s.plainWrite a r v).capSetpoint
    | _ => s.plainWrite a r v

/-- A write to a hub block. -/
def State.writeHub (s : State) (a : Nat) (r : RegRow) (v : Word) : State :=
  let off := a % 0x10000
  match a / 0x10000 with
  | 2 => if 0x100 ≤ off ∧ off % 8 = 0 then s.hdCtlWrite ((off - 0x100) / 8) v else s.plainWrite a r v
  | 5 => if off = 0x50 then (if v.getLsbD 0 then s.measExtend else s) else s.plainWrite a r v
  | 6 =>
    if off = 0 then
      let s := if v.getLsbD 0 then s.freeze else s
      if v.getLsbD 1 then s.thaw else s
    else s.plainWrite a r v
  | 7 => if off = 0 then (if v.getLsbD 0 then s.storeGo else s) else s.plainWrite a r v
  | 8 => s.writePw a off r v
  | 9 => s.writeCk a off r v
  | 0xB =>
    let s := s.plainWrite a r v
    if off = 8 ∧ v.getLsbD 31 then s.testGo ⟨bits v 23 16, bits v 15 8, bits v 7 0⟩
    else if off = 0x10 ∧ v.getLsbD 31 then (if s.hasSlice (bits v 2 0) then s.goOffline (bits v 2 0) else s)
    else s
  | _ => s.plainWrite a r v

/-- A retraining of a flash channel is asked for; FLASH_RETRAIN reports what came of it (R165). -/
def State.askRetrain (s : State) (n ch : Nat) : State :=
  s.modSlice n fun x =>
    { x with flash := { x.flash with retrain := if x.flash.retrain.contains ch then x.flash.retrain else x.flash.retrain ++ [ch] } }

/-- A write to the window of a slice. -/
def State.writeSlice (s : State) (a : Nat) (r : RegRow) (v : Word) : State :=
  let n := (a - 0x1000000) / 0x400000
  let off := (a - 0x1000000) % 0x400000
  let s := s.plainWrite a r v
  if (off = 0x40100 ∨ off = 0x40140) ∧ v.getLsbD 31 then s.dueRetrain n ((off - 0x40100) / 64)
  else if 0x80100 ≤ off ∧ off < 0x80300 ∧ off % 64 = 0 ∧ v.getLsbD 31 then s.askRetrain n ((off - 0x80100) / 64)
  else if off = 0x40300 then
    let s := if v.getLsbD 31 then s.scrubGo n else s
    if v.getLsbD 30 then s.scrubStop n else s
  else if off = 0x100030 ∧ v.getLsbD 31 then s.evacuate n (bits v 8 0)
  else if off = 0x100054 ∧ v.getLsbD 31 then s.startFormat n (bits v 1 0)
  else s

/-- One register write (R391 to R395). -/
def State.writeReg (s : State) (a : Nat) (v : Word) : State :=
  match s.access a with
  | .register r => if a < 0x1000000 then s.writeHub a r v else s.writeSlice a r v
  | .offline _ => s
  | x => s.flagged a x

/-! ### The commands -/

/-- An access of an address of the window (R387): outside it no register exists. -/
def State.inWindow (s : State) (a : Nat) (f : State → State) : Host.Outcome State Fault Refusal :=
  if 0x4000000 ≤ a then .fault .outsideWindow else .next (if s.windowOpen then f s else s)

/-- An access of an unsupported width or alignment: it does nothing, a read returns 0, and it is recorded with WIDTH (R391). -/
def State.badWidth (s : State) (a : Nat) (isWrite : Bool) : State :=
  let s := s.flagAccess 30 a
  if isWrite then s else s.answerRead 0

/-- LO_REGISTER_READ: a read of a register; that of an _LO register latches its _HI partner (R392). -/
def execLoRegisterRead (addr : Nat) (s : State) : Host.Outcome State Fault Refusal :=
  s.inWindow addr fun s => if addr % 4 ≠ 0 then s.badWidth addr false else s.readReg addr

/-- UNSUPPORTED_WIDTH_ACCESS (R391). An access of 4 or 8 aligned bytes is none. -/
def execUnsupportedWidthAccess (addr size : Nat) (isWrite : Bool) (s : State) : Host.Outcome State Fault Refusal :=
  s.inWindow addr fun s => if (size = 4 ∨ size = 8) ∧ addr % size = 0 then s else s.badWidth addr isWrite

/-- RESERVED_ACCESS: an access to what does not answer completes and is recorded; a read returns 0 (R394, R395). A register that answers is
read; what a write of it would store this row does not carry. -/
def execReservedAccess (addr : Nat) (isWrite : Bool) (s : State) : Host.Outcome State Fault Refusal :=
  s.inWindow addr fun s =>
    if addr % 4 ≠ 0 then s.badWidth addr isWrite
    else if isWrite then s.flagged addr (s.access addr)
    else s.readReg addr

/-- REGISTER_WRITE (R5, R35, R327, R391 to R395): RW fields are stored, W1C bits cleared, WO bits trigger their action. -/
def execRegisterWrite (addr : Nat) (value : BitVec 32) (s : State) : Host.Outcome State Fault Refusal :=
  s.inWindow addr fun s => if addr % 4 ≠ 0 then s.badWidth addr true else s.writeReg addr value

end Sys2Proof.Machine
end

