-- ==== Sys2Proof/Machine/Dispatch.lean ====
section
/-!
DEFINITION. Which meaning each command has: one arm per constructor of Instr, in the order of spec/opcode_table.json.
-/

namespace Sys2Proof.Machine

def exec (i : Instr) (s : State) : Host.Outcome State Fault Refusal :=
  match i with
  | .courseBoundary late => Sys2Proof.Machine.execCourseBoundary late s
  | .bondPeriodBoundary hot => Sys2Proof.Machine.execBondPeriodBoundary hot s
  | .commitGo => Sys2Proof.Machine.execCommitGo s
  | .syncPulse phase => Sys2Proof.Machine.execSyncPulse phase s
  | .syncPulseMissing => Sys2Proof.Machine.execSyncPulseMissing s
  | .syncWaitTimeout => Sys2Proof.Machine.execSyncWaitTimeout s
  | .syncConflict => Sys2Proof.Machine.execSyncConflict s
  | .refclkLost => Sys2Proof.Machine.execRefclkLost s
  | .packageFault kind => Sys2Proof.Machine.execPackageFault kind s
  | .linkTraining port gen link => Sys2Proof.Machine.execLinkTraining port gen link s
  | .perstAssert port => Sys2Proof.Machine.execPerstAssert port s
  | .sqTailDoorbell ctrl qid tail => Sys2Proof.Machine.execSqTailDoorbell ctrl qid tail s
  | .cqHeadDoorbell ctrl qid head => Sys2Proof.Machine.execCqHeadDoorbell ctrl qid head s
  | .commandFetch fetch => Sys2Proof.Machine.execCommandFetch fetch s
  | .completionPost h => Sys2Proof.Machine.execCompletionPost h s
  | .flush h nsid => Sys2Proof.Machine.execFlush h nsid s
  | .write h nsid slba data fua => Sys2Proof.Machine.execWrite h nsid slba data fua s
  | .read h nsid slba nlb => Sys2Proof.Machine.execRead h nsid slba nlb s
  | .compare h nsid slba data => Sys2Proof.Machine.execCompare h nsid slba data s
  | .writeZeroes h nsid slba nlb deac fua => Sys2Proof.Machine.execWriteZeroes h nsid slba nlb deac fua s
  | .datasetManagement h nsid ad ranges => Sys2Proof.Machine.execDatasetManagement h nsid ad ranges s
  | .verify h nsid slba nlb => Sys2Proof.Machine.execVerify h nsid slba nlb s
  | .copy h nsid format sdlba sources fua => Sys2Proof.Machine.execCopy h nsid format sdlba sources fua s
  | .identify h cns nsid => Sys2Proof.Machine.execIdentify h cns nsid s
  | .getLogPage h lid => Sys2Proof.Machine.execGetLogPage h lid s
  | .getFeatures h fid nsid => Sys2Proof.Machine.execGetFeatures h fid nsid s
  | .setFeatures h fid value => Sys2Proof.Machine.execSetFeatures h fid value s
  | .setFeaturesVolatileWriteCache h wce => Sys2Proof.Machine.execSetFeaturesVolatileWriteCache h wce s
  | .setFeaturesInlineCompression h nsid enable => Sys2Proof.Machine.execSetFeaturesInlineCompression h nsid enable s
  | .setFeaturesDurability h nsid through => Sys2Proof.Machine.execSetFeaturesDurability h nsid through s
  | .setFeaturesLatencyTolerance h cntlid tolerance => Sys2Proof.Machine.execSetFeaturesLatencyTolerance h cntlid tolerance s
  | .setFeaturesPowerManagement h ps => Sys2Proof.Machine.execSetFeaturesPowerManagement h ps s
  | .createIoSubmissionQueue h qid size cqid prio mem => Sys2Proof.Machine.execCreateIoSubmissionQueue h qid size cqid prio mem s
  | .createIoCompletionQueue h qid size vector mem => Sys2Proof.Machine.execCreateIoCompletionQueue h qid size vector mem s
  | .deleteIoSubmissionQueue h qid => Sys2Proof.Machine.execDeleteIoSubmissionQueue h qid s
  | .deleteIoCompletionQueue h qid => Sys2Proof.Machine.execDeleteIoCompletionQueue h qid s
  | .abort h sqid cid => Sys2Proof.Machine.execAbort h sqid cid s
  | .asynchronousEventRequest h => Sys2Proof.Machine.execAsynchronousEventRequest h s
  | .namespaceCreate h csi nsze ncap flbas desc => Sys2Proof.Machine.execNamespaceCreate h csi nsze ncap flbas desc s
  | .namespaceDelete h nsid => Sys2Proof.Machine.execNamespaceDelete h nsid s
  | .namespaceAttach h nsid ctrls => Sys2Proof.Machine.execNamespaceAttach h nsid ctrls s
  | .namespaceDetach h nsid ctrls => Sys2Proof.Machine.execNamespaceDetach h nsid ctrls s
  | .secondaryControllerOnline h cntlid => Sys2Proof.Machine.execSecondaryControllerOnline h cntlid s
  | .secondaryControllerOffline h cntlid => Sys2Proof.Machine.execSecondaryControllerOffline h cntlid s
  | .secondaryControllerAssign h cntlid res count => Sys2Proof.Machine.execSecondaryControllerAssign h cntlid res count s
  | .formatNvm h nsid ses lbaf pi mset => Sys2Proof.Machine.execFormatNvm h nsid ses lbaf pi mset s
  | .firmwareImageDownload h piece => Sys2Proof.Machine.execFirmwareImageDownload h piece s
  | .firmwareCommit h ca fs => Sys2Proof.Machine.execFirmwareCommit h ca fs s
  | .firmwareActivation => Sys2Proof.Machine.execFirmwareActivation s
  | .nvmeMiSend h req => Sys2Proof.Machine.execNvmeMiSend h req s
  | .nvmeMiReceive h => Sys2Proof.Machine.execNvmeMiReceive h s
  | .readNvmeMiDataStructure bus dtyp port ctrl => Sys2Proof.Machine.execReadNvmeMiDataStructure bus dtyp port ctrl s
  | .nvmSubsystemHealthStatusPoll bus => Sys2Proof.Machine.execNvmSubsystemHealthStatusPoll bus s
  | .controllerHealthStatusPoll bus start max => Sys2Proof.Machine.execControllerHealthStatusPoll bus start max s
  | .configurationGet bus id => Sys2Proof.Machine.execConfigurationGet bus id s
  | .configurationSet bus id value => Sys2Proof.Machine.execConfigurationSet bus id value s
  | .vpdRead bus offset length => Sys2Proof.Machine.execVpdRead bus offset length s
  | .miAdminTunnel bus cmd => Sys2Proof.Machine.execMiAdminTunnel bus cmd s
  | .controllerDisable ctrl => Sys2Proof.Machine.execControllerDisable ctrl s
  | .controllerEnable cc => Sys2Proof.Machine.execControllerEnable cc s
  | .shutdown ctrl abrupt => Sys2Proof.Machine.execShutdown ctrl abrupt s
  | .shutdownComplete ctrl => Sys2Proof.Machine.execShutdownComplete ctrl s
  | .nvmSubsystemReset => Sys2Proof.Machine.execNvmSubsystemReset s
  | .functionLevelReset ctrl => Sys2Proof.Machine.execFunctionLevelReset ctrl s
  | .flrComplete ctrl => Sys2Proof.Machine.execFlrComplete ctrl s
  | .atsInvalidate fn addr => Sys2Proof.Machine.execAtsInvalidate fn addr s
  | .create h ti sealedMode desc => Sys2Proof.Machine.execCreate h ti sealedMode desc s
  | .resize h ti desc => Sys2Proof.Machine.execResize h ti desc s
  | .setMode h ti sealedMode => Sys2Proof.Machine.execSetMode h ti sealedMode s
  | .quiesce h ti => Sys2Proof.Machine.execQuiesce h ti s
  | .quiescedReached ti => Sys2Proof.Machine.execQuiescedReached ti s
  | .resume h ti => Sys2Proof.Machine.execResume h ti s
  | .freeze h ti => Sys2Proof.Machine.execFreeze h ti s
  | .reset h ti => Sys2Proof.Machine.execReset h ti s
  | .remove h ti migrated => Sys2Proof.Machine.execRemove h ti migrated s
  | .restore h ti session blob desc nsmap => Sys2Proof.Machine.execRestore h ti session blob desc nsmap s
  | .migSend h session msg => Sys2Proof.Machine.execMigSend h session msg s
  | .get h ti => Sys2Proof.Machine.execGet h ti s
  | .save h ti session => Sys2Proof.Machine.execSave h ti session s
  | .migRecv h session => Sys2Proof.Machine.execMigRecv h session s
  | .generate h slot use => Sys2Proof.Machine.execGenerate h slot use s
  | .importKey h slot kek use wrapped => Sys2Proof.Machine.execImportKey h slot kek use wrapped s
  | .zeroize h slot => Sys2Proof.Machine.execZeroize h slot s
  | .bind h slot nsid => Sys2Proof.Machine.execBind h slot nsid s
  | .importKek h kek session authentic key => Sys2Proof.Machine.execImportKek h kek session authentic key s
  | .status h slot => Sys2Proof.Machine.execStatus h slot s
  | .slotRetiringEnd slot => Sys2Proof.Machine.execSlotRetiringEnd slot s
  | .settingsStore h => Sys2Proof.Machine.execSettingsStore h s
  | .nvStoreGo => Sys2Proof.Machine.execNvStoreGo s
  | .storeDone badPages recordBytes => Sys2Proof.Machine.execStoreDone badPages recordBytes s
  | .storeTokenRefill => Sys2Proof.Machine.execStoreTokenRefill s
  | .store h nsid key opt seg total value => Sys2Proof.Machine.execStore h nsid key opt seg total value s
  | .ingestIdleTimeout nsid key => Sys2Proof.Machine.execIngestIdleTimeout nsid key s
  | .retrieve h nsid key offset size info => Sys2Proof.Machine.execRetrieve h nsid key offset size info s
  | .delete h nsid key => Sys2Proof.Machine.execDelete h nsid key s
  | .exist h nsid key => Sys2Proof.Machine.execExist h nsid key s
  | .list h nsid key size => Sys2Proof.Machine.execList h nsid key size s
  | .objectExport h nsid size cursor endBucket => Sys2Proof.Machine.execObjectExport h nsid size cursor endBucket s
  | .exportPinTimeout nsid sliceIx endBucket => Sys2Proof.Machine.execExportPinTimeout nsid sliceIx endBucket s
  | .loadProgram h nsid index ptype total offset piece => Sys2Proof.Machine.execLoadProgram h nsid index ptype total offset piece s
  | .programActivationManagement h nsid index activate => Sys2Proof.Machine.execProgramActivationManagement h nsid index activate s
  | .executeProgram h nsid index ranges limit params => Sys2Proof.Machine.execExecuteProgram h nsid index ranges limit params s
  | .invocationLimitExpiry inv => Sys2Proof.Machine.execInvocationLimitExpiry inv s
  | .invocationComplete inv outcome ret => Sys2Proof.Machine.execInvocationComplete inv outcome ret s
  | .memoryRead h nsid offset length => Sys2Proof.Machine.execMemoryRead h nsid offset length s
  | .memoryWrite h nsid offset data => Sys2Proof.Machine.execMemoryWrite h nsid offset data s
  | .memoryCopy h nsid dest src => Sys2Proof.Machine.execMemoryCopy h nsid dest src s
  | .doeDiscovery port index => Sys2Proof.Machine.execDoeDiscovery port index s
  | .getVersion t => Sys2Proof.Machine.execGetVersion t s
  | .getCapabilities t flags => Sys2Proof.Machine.execGetCapabilities t flags s
  | .negotiateAlgorithms t offer => Sys2Proof.Machine.execNegotiateAlgorithms t offer s
  | .getDigests t => Sys2Proof.Machine.execGetDigests t s
  | .getCertificate t slot offset length => Sys2Proof.Machine.execGetCertificate t slot offset length s
  | .challenge t slot nonce => Sys2Proof.Machine.execChallenge t slot nonce s
  | .getMeasurements t index signed nonce => Sys2Proof.Machine.execGetMeasurements t index signed nonce s
  | .keyExchange t peer => Sys2Proof.Machine.execKeyExchange t peer s
  | .finish t session macOk => Sys2Proof.Machine.execFinish t session macOk s
  | .heartbeat t session => Sys2Proof.Machine.execHeartbeat t session s
  | .keyUpdate t session op => Sys2Proof.Machine.execKeyUpdate t session op s
  | .endSession t session => Sys2Proof.Machine.execEndSession t session s
  | .getEncapsulatedRequest t session => Sys2Proof.Machine.execGetEncapsulatedRequest t session s
  | .deliverEncapsulatedResponse t session peer => Sys2Proof.Machine.execDeliverEncapsulatedResponse t session peer s
  | .spdmUnsupportedRequest t code => Sys2Proof.Machine.execSpdmUnsupportedRequest t code s
  | .sliceFormat slice muReq => Sys2Proof.Machine.execSliceFormat slice muReq s
  | .sliceFormatDone slice eraseFails => Sys2Proof.Machine.execSliceFormatDone slice eraseFails s
  | .evacuationGo slice lun auto => Sys2Proof.Machine.execEvacuationGo slice lun auto s
  | .evacuationDone slice => Sys2Proof.Machine.execEvacuationDone slice s
  | .streamAgeTrigger slice wslot => Sys2Proof.Machine.execStreamAgeTrigger slice wslot s
  | .flashPageAgeTimeout slice sb => Sys2Proof.Machine.execFlashPageAgeTimeout slice sb s
  | .programConfirmed slice lun => Sys2Proof.Machine.execProgramConfirmed slice lun s
  | .programFailed slice lun block row => Sys2Proof.Machine.execProgramFailed slice lun block row s
  | .eraseFailed slice lun block => Sys2Proof.Machine.execEraseFailed slice lun block s
  | .readPassDone slice cluster wslot index pass => Sys2Proof.Machine.execReadPassDone slice cluster wslot index pass s
  | .patrolDue slice sb weak => Sys2Proof.Machine.execPatrolDue slice sb weak s
  | .lunHealthEval slice lun retry2 retry4 => Sys2Proof.Machine.execLunHealthEval slice lun retry2 retry4 s
  | .operationTimeout slice lun ready => Sys2Proof.Machine.execOperationTimeout slice lun ready s
  | .devWearRateUpdate => Sys2Proof.Machine.execDevWearRateUpdate s
  | .channelDiscovery slice ch vols trainFails => Sys2Proof.Machine.execChannelDiscovery slice ch vols trainFails s
  | .flashRetrain slice ch ok => Sys2Proof.Machine.execFlashRetrain slice ch ok s
  | .flashZqShortDue slice => Sys2Proof.Machine.execFlashZqShortDue slice s
  | .lunPollDue slice lun res => Sys2Proof.Machine.execLunPollDue slice lun res s
  | .counterGroupStore => Sys2Proof.Machine.execCounterGroupStore s
  | .groupStoreDone => Sys2Proof.Machine.execGroupStoreDone s
  | .entropyFail => Sys2Proof.Machine.execEntropyFail s
  | .entropyRetest pass => Sys2Proof.Machine.execEntropyRetest pass s
  | .cipherOpDone slice ctx op => Sys2Proof.Machine.execCipherOpDone slice ctx op s
  | .compressOpDone slice ctx op => Sys2Proof.Machine.execCompressOpDone slice ctx op s
  | .search slice array part requester start key => Sys2Proof.Machine.execSearch slice array part requester start key s
  | .searchBatch slice array part requester start count keys respPtr arrived => Sys2Proof.Machine.execSearchBatch slice array part requester start count keys respPtr arrived s
  | .invalidate slice array part requester offset => Sys2Proof.Machine.execInvalidate slice array part requester offset s
  | .entryWrite slice array part requester offset key mask result => Sys2Proof.Machine.execEntryWrite slice array part requester offset key mask result s
  | .validate slice array part requester offset => Sys2Proof.Machine.execValidate slice array part requester offset s
  | .resultWrite slice array part requester offset result => Sys2Proof.Machine.execResultWrite slice array part requester offset result s
  | .entryRead slice array part requester offset => Sys2Proof.Machine.execEntryRead slice array part requester offset s
  | .searchResponse slice array cluster wslot index => Sys2Proof.Machine.execSearchResponse slice array cluster wslot index s
  | .alloc it flow entry arg need done grant => Sys2Proof.Machine.execAlloc it flow entry arg need done grant s
  | .send it wslot index value aux => Sys2Proof.Machine.execSend it wslot index value aux s
  | .arm it wslot index delay => Sys2Proof.Machine.execArm it wslot index delay s
  | .emit it desc => Sys2Proof.Machine.execEmit it desc s
  | .release it => Sys2Proof.Machine.execRelease it s
  | .continueRun it need => Sys2Proof.Machine.execContinueRun it need s
  | .endRun it code => Sys2Proof.Machine.execEndRun it code s
  | .ctxAlloc it kind grant => Sys2Proof.Machine.execCtxAlloc it kind grant s
  | .ctxFree it ctx => Sys2Proof.Machine.execCtxFree it ctx s
  | .flowOpen it => Sys2Proof.Machine.execFlowOpen it s
  | .flowClose it flow => Sys2Proof.Machine.execFlowClose it flow s
  | .operandArrival slice cluster wslot index op => Sys2Proof.Machine.execOperandArrival slice cluster wslot index op s
  | .budgetExpiry it => Sys2Proof.Machine.execBudgetExpiry it s
  | .protectionFault it => Sys2Proof.Machine.execProtectionFault it s
  | .delayEntryDue slice cluster wslot index => Sys2Proof.Machine.execDelayEntryDue slice cluster wslot index s
  | .hostDmaBeat ready => Sys2Proof.Machine.execHostDmaBeat ready s
  | .busError ch cause merged => Sys2Proof.Machine.execBusError ch cause merged s
  | .probeComplete ok cause ns => Sys2Proof.Machine.execProbeComplete ok cause ns s
  | .hdChCtlWrite ch value => Sys2Proof.Machine.execHdChCtlWrite ch value s
  | .sliceDmaDone slice ch cluster wslot index dma => Sys2Proof.Machine.execSliceDmaDone slice ch cluster wslot index dma s
  | .dramChannelStart slice ch trainFails selftest => Sys2Proof.Machine.execDramChannelStart slice ch trainFails selftest s
  | .dramRefresh waitNs => Sys2Proof.Machine.execDramRefresh waitNs s
  | .dramZqCal => Sys2Proof.Machine.execDramZqCal s
  | .dramRetrainDue slice ch => Sys2Proof.Machine.execDramRetrainDue slice ch s
  | .dramRetrain slice ch => Sys2Proof.Machine.execDramRetrain slice ch s
  | .retrainHoldExpiry slice ch => Sys2Proof.Machine.execRetrainHoldExpiry slice ch s
  | .dramRetrainDone slice ch working => Sys2Proof.Machine.execDramRetrainDone slice ch working s
  | .mergeEntryTimeout slice ch burst readOk => Sys2Proof.Machine.execMergeEntryTimeout slice ch burst readOk s
  | .scrubGo slice => Sys2Proof.Machine.execScrubGo slice s
  | .scrubStop slice => Sys2Proof.Machine.execScrubStop slice s
  | .scrubDone slice ce ue => Sys2Proof.Machine.execScrubDone slice ce ue s
  | .digestOpen inst owner alg hmac decl dest => Sys2Proof.Machine.execDigestOpen inst owner alg hmac decl dest s
  | .digestData inst data final => Sys2Proof.Machine.execDigestData inst data final s
  | .digestIdleTimeout inst => Sys2Proof.Machine.execDigestIdleTimeout inst s
  | .measExtend => Sys2Proof.Machine.execMeasExtend s
  | .measExtendDone => Sys2Proof.Machine.execMeasExtendDone s
  | .sagDetect => Sys2Proof.Machine.execSagDetect s
  | .sagEnd us => Sys2Proof.Machine.execSagEnd us s
  | .brownOut => Sys2Proof.Machine.execBrownOut s
  | .surgeRecorded => Sys2Proof.Machine.execSurgeRecorded s
  | .surgeTrip => Sys2Proof.Machine.execSurgeTrip s
  | .senseFault input code => Sys2Proof.Machine.execSenseFault input code s
  | .controlLoopSample meas temps => Sys2Proof.Machine.execControlLoopSample meas temps s
  | .feTrip loop => Sys2Proof.Machine.execFeTrip loop s
  | .thermalTrip sensor => Sys2Proof.Machine.execThermalTrip sensor s
  | .supervisorStep => Sys2Proof.Machine.execSupervisorStep s
  | .chargeTimeout => Sys2Proof.Machine.execChargeTimeout s
  | .holdupClear => Sys2Proof.Machine.execHoldupClear s
  | .measureRequest => Sys2Proof.Machine.execMeasureRequest s
  | .capacitanceMeasureDue => Sys2Proof.Machine.execCapacitanceMeasureDue s
  | .capacitanceMeasureEnd v0 v1 v2 => Sys2Proof.Machine.execCapacitanceMeasureEnd v0 v1 v2 s
  | .flushRateUpdate => Sys2Proof.Machine.execFlushRateUpdate s
  | .loopClose loop meas => Sys2Proof.Machine.execLoopClose loop meas s
  | .loopOpen loop => Sys2Proof.Machine.execLoopOpen loop s
  | .dumpComplete unlanded => Sys2Proof.Machine.execDumpComplete unlanded s
  | .downSupplyGood => Sys2Proof.Machine.execDownSupplyGood s
  | .bankExhausted => Sys2Proof.Machine.execBankExhausted s
  | .powerStateEntry => Sys2Proof.Machine.execPowerStateEntry s
  | .powerStateExit why => Sys2Proof.Machine.execPowerStateExit why s
  | .resetNRise => Sys2Proof.Machine.execResetNRise s
  | .resetNFall => Sys2Proof.Machine.execResetNFall s
  | .imageVerified => Sys2Proof.Machine.execImageVerified s
  | .sliceRebuild slice => Sys2Proof.Machine.execSliceRebuild slice s
  | .sliceRebuildDone slice ok => Sys2Proof.Machine.execSliceRebuildDone slice ok s
  | .sliceLate slice => Sys2Proof.Machine.execSliceLate slice s
  | .startWatchdog => Sys2Proof.Machine.execStartWatchdog s
  | .hubFault => Sys2Proof.Machine.execHubFault s
  | .startSuccess => Sys2Proof.Machine.execStartSuccess s
  | .minuteTick => Sys2Proof.Machine.execMinuteTick s
  | .recorderBinning samples => Sys2Proof.Machine.execRecorderBinning samples s
  | .recorderFreeze => Sys2Proof.Machine.execRecorderFreeze s
  | .recorderThaw => Sys2Proof.Machine.execRecorderThaw s
  | .recorderAutoThaw => Sys2Proof.Machine.execRecorderAutoThaw s
  | .onlineTestGo kind slice number => Sys2Proof.Machine.execOnlineTestGo kind slice number s
  | .onlineTestDone pass => Sys2Proof.Machine.execOnlineTestDone pass s
  | .faultFence u cause => Sys2Proof.Machine.execFaultFence u cause s
  | .sliceOfflineRequest slice => Sys2Proof.Machine.execSliceOfflineRequest slice s
  | .sliceLinkFail slice => Sys2Proof.Machine.execSliceLinkFail slice s
  | .jtagInstruction instr => Sys2Proof.Machine.execJtagInstruction instr s
  | .tapReset => Sys2Proof.Machine.execTapReset s
  | .debugUnlock signed => Sys2Proof.Machine.execDebugUnlock signed s
  | .loRegisterRead addr => Sys2Proof.Machine.execLoRegisterRead addr s
  | .unsupportedWidthAccess addr size isWrite => Sys2Proof.Machine.execUnsupportedWidthAccess addr size isWrite s
  | .reservedAccess addr isWrite => Sys2Proof.Machine.execReservedAccess addr isWrite s
  | .registerWrite addr value => Sys2Proof.Machine.execRegisterWrite addr value s
  | .powerLostWithoutDump => Sys2Proof.Machine.execPowerLostWithoutDump s
  | .unsupportedOpcode h op => Sys2Proof.Machine.execUnsupportedOpcode h op s
  | .dynamicAddressAssignment addr => Sys2Proof.Machine.execDynamicAddressAssignment addr s
  | .smbusClockLowTimeout => Sys2Proof.Machine.execSmbusClockLowTimeout s
  | .msiXTableWrite ctrl vector masked addr data => Sys2Proof.Machine.execMsiXTableWrite ctrl vector masked addr data s

end Sys2Proof.Machine
end

