-- ==== Sys2Proof/Safety.lean ====
section
/-!
DEFINITION. What counts as a safe run, and the terms in which the claims speak: what a command reaches, which parts of the
state it may change, and what a package reset leaves.
-/

namespace Sys2Proof

/-- A step that neither faults nor is refused. -/
def Safe (s : Machine.State) : Prop := ∃ t, Machine.step s = .next t

/-- n steps from s, all of them safe. -/
def SafeRun : Nat → Machine.State → Prop
  | 0, _ => True
  | n + 1, s => ∃ t, Machine.step s = .next t ∧ SafeRun n t

/-- The command reaches a next state, and P holds of it. -/
def Completes (c : Instr) (s : Machine.State) (P : Machine.State → Prop) : Prop :=
  ∃ t, Machine.exec c s = .next t ∧ P t

/-- The parts of the state: its fields, and the slice-local memory of the slices (R290). -/
inductive Component where
  | part | pins | regs | latches | busRead | course | dual | links | ctrls | inflight
  | order | namespaces | tenants | leaving | deferred | migs | slotWaits | slices | invocations | nextInv
  | hd | parks | hdQueue | ats | digests | digestWaits | digestOut | hubKey | meas | measLog
  | measSeq | staged | spdmPeers | spdmSessions | spdmOut | entropyOk | groupAt | groupRecs | storeHdr | storeNext
  | wearRateMax | nvm | power | start | recorder | fences | fenceCounts | fenceSoon | test | unfence
  | mgmt | fresh | pending | memory
  deriving DecidableEq, Repr

/-- Does a part of the state hold the same in both? -/
def Component.Same (c : Component) (s t : Machine.State) : Prop :=
  match c with
  | .part => t.part = s.part
  | .pins => t.pins = s.pins
  | .regs => t.regs = s.regs
  | .latches => t.latches = s.latches
  | .busRead => t.busRead = s.busRead
  | .course => t.course = s.course
  | .dual => t.dual = s.dual
  | .links => t.links = s.links
  | .ctrls => t.ctrls = s.ctrls
  | .inflight => t.inflight = s.inflight
  | .order => t.order = s.order
  | .namespaces => t.namespaces = s.namespaces
  | .tenants => t.tenants = s.tenants
  | .leaving => t.leaving = s.leaving
  | .deferred => t.deferred = s.deferred
  | .migs => t.migs = s.migs
  | .slotWaits => t.slotWaits = s.slotWaits
  | .slices => t.slices = s.slices
  | .invocations => t.invocations = s.invocations
  | .nextInv => t.nextInv = s.nextInv
  | .hd => t.hd = s.hd
  | .parks => t.parks = s.parks
  | .hdQueue => t.hdQueue = s.hdQueue
  | .ats => t.ats = s.ats
  | .digests => t.digests = s.digests
  | .digestWaits => t.digestWaits = s.digestWaits
  | .digestOut => t.digestOut = s.digestOut
  | .hubKey => t.hubKey = s.hubKey
  | .meas => t.meas = s.meas
  | .measLog => t.measLog = s.measLog
  | .measSeq => t.measSeq = s.measSeq
  | .staged => t.staged = s.staged
  | .spdmPeers => t.spdmPeers = s.spdmPeers
  | .spdmSessions => t.spdmSessions = s.spdmSessions
  | .spdmOut => t.spdmOut = s.spdmOut
  | .entropyOk => t.entropyOk = s.entropyOk
  | .groupAt => t.groupAt = s.groupAt
  | .groupRecs => t.groupRecs = s.groupRecs
  | .storeHdr => t.storeHdr = s.storeHdr
  | .storeNext => t.storeNext = s.storeNext
  | .wearRateMax => t.wearRateMax = s.wearRateMax
  | .nvm => t.nvm = s.nvm
  | .power => t.power = s.power
  | .start => t.start = s.start
  | .recorder => t.recorder = s.recorder
  | .fences => t.fences = s.fences
  | .fenceCounts => t.fenceCounts = s.fenceCounts
  | .fenceSoon => t.fenceSoon = s.fenceSoon
  | .test => t.test = s.test
  | .unfence => t.unfence = s.unfence
  | .mgmt => t.mgmt = s.mgmt
  | .fresh => t.fresh = s.fresh
  | .pending => t.pending = s.pending
  | .memory => t.slices.map Machine.Slice.slm = s.slices.map Machine.Slice.slm

/-- Every part of the state but those listed is unchanged. -/
def OnlyChanges (l : List Component) (s t : Machine.State) : Prop := ∀ c, c ∉ l → c.Same s t

/-- Every vendor register but those listed reads as before. -/
def RegsBut (l : List Nat) (s t : Machine.State) : Prop := ∀ a, a ∉ l → t.rd a = s.rd a

/-- Slice-local memory of every slice is unchanged outside n bytes of slice k from address a (R290). -/
def MemoryBut (k a n : Nat) (s t : Machine.State) : Prop :=
  ∀ j b, j = k ∧ a ≤ b ∧ b < a + n ∨ Machine.memGet (t.slice j).slm b = Machine.memGet (s.slice j).slm b

/-- Slice-local memory of every slice is unchanged. -/
def MemorySame (s t : Machine.State) : Prop :=
  ∀ j b, Machine.memGet (t.slice j).slm b = Machine.memGet (s.slice j).slm b

/-- Everything that a package reset may change: all but which part the package is, and the commands that wait outside it (R6). -/
def Component.resettable : List Component :=
  [.pins, .regs, .latches, .busRead, .course, .dual, .links, .ctrls, .inflight, .order, .namespaces, .tenants,
    .leaving, .deferred, .migs, .slotWaits, .slices, .invocations, .nextInv, .hd, .parks, .hdQueue, .ats, .digests,
    .digestWaits, .digestOut, .hubKey, .meas, .measLog, .measSeq, .staged, .spdmPeers, .spdmSessions, .spdmOut, .entropyOk, .groupAt,
    .groupRecs, .storeHdr, .storeNext, .wearRateMax, .nvm, .power, .start, .recorder, .fences, .fenceCounts, .fenceSoon, .test,
    .unfence, .mgmt, .fresh, .memory]

/-- The parts of the state that a command may change, in any state and with any operands. -/
def footprint : Instr → List Component
  | .courseBoundary _ => [.pins, .regs, .course, .links, .ctrls, .inflight, .tenants, .slices, .invocations, .hd, .parks, .hdQueue, .digests,
      .nvm, .power, .recorder, .fences, .fenceCounts, .fenceSoon, .fresh, .memory]
  | .bondPeriodBoundary _ => [.pins, .regs, .course, .ctrls, .inflight, .namespaces, .tenants, .leaving, .deferred, .slotWaits, .slices,
      .invocations, .hd, .parks, .hdQueue, .digests, .nvm, .power, .start, .recorder, .fences, .unfence, .fresh, .memory]
  | .commitGo => [.regs, .course]
  | .syncPulse _ => [.regs, .course, .slices, .nvm]
  | .syncPulseMissing => [.regs, .course]
  | .syncWaitTimeout => [.regs, .course, .slices, .nvm]
  | .syncConflict => [.pins, .regs]
  | .refclkLost => Component.resettable
  | .packageFault _ => Component.resettable
  | .linkTraining _ _ _ => [.pins, .regs, .links, .nvm, .fresh]
  | .perstAssert _ => Component.resettable
  | .sqTailDoorbell _ _ _ => [.ctrls]
  | .cqHeadDoorbell _ _ _ => [.ctrls]
  | .commandFetch _ => [.regs, .ctrls, .inflight, .order, .hd, .parks, .hdQueue, .ats, .nvm]
  | .completionPost _ => [.ctrls, .inflight, .order, .slices, .hd, .parks, .hdQueue, .ats]
  | .flush _ _ => [.inflight, .slices]
  | .write _ _ _ _ _ => [.regs, .ctrls, .inflight, .tenants, .slices, .hd, .parks, .hdQueue, .ats, .nvm, .fresh]
  | .read _ _ _ _ => [.regs, .ctrls, .inflight, .slices, .hd, .parks, .hdQueue, .ats]
  | .compare _ _ _ _ => [.regs, .ctrls, .inflight, .slices, .hd, .parks, .hdQueue, .ats]
  | .writeZeroes _ _ _ _ _ _ => [.regs, .ctrls, .inflight, .tenants, .slices, .nvm, .fresh]
  | .datasetManagement _ _ _ _ => [.regs, .inflight, .slices, .hd, .parks, .hdQueue, .ats, .nvm]
  | .verify _ _ _ _ => [.regs, .inflight, .slices]
  | .copy _ _ _ _ _ _ => [.regs, .ctrls, .inflight, .tenants, .slices, .nvm, .fresh]
  | .identify _ _ _ => [.regs, .inflight, .hd, .parks, .hdQueue, .ats]
  | .getLogPage _ _ => [.regs, .inflight, .hd, .parks, .hdQueue, .ats, .fresh]
  | .getFeatures _ _ _ => [.inflight]
  | .setFeatures _ _ _ => [.ctrls, .inflight, .fresh]
  | .setFeaturesVolatileWriteCache _ _ => [.ctrls, .inflight]
  | .setFeaturesInlineCompression _ _ _ => [.inflight, .namespaces]
  | .setFeaturesDurability _ _ _ => [.inflight, .namespaces]
  | .setFeaturesLatencyTolerance _ _ _ => [.ctrls, .inflight]
  | .setFeaturesPowerManagement _ _ => [.inflight, .power]
  | .createIoSubmissionQueue _ _ _ _ _ _ => [.ctrls, .inflight]
  | .createIoCompletionQueue _ _ _ _ _ => [.ctrls, .inflight]
  | .deleteIoSubmissionQueue _ _ => [.ctrls, .inflight]
  | .deleteIoCompletionQueue _ _ => [.ctrls, .inflight]
  | .abort _ _ _ => [.inflight]
  | .asynchronousEventRequest _ => [.ctrls, .inflight]
  | .namespaceCreate _ _ _ _ _ _ => [.regs, .inflight, .namespaces, .slices, .fresh]
  | .namespaceDelete _ _ => [.regs, .inflight, .namespaces, .slices, .invocations, .digests, .nvm, .fences, .memory]
  | .namespaceAttach _ _ _ => [.inflight, .namespaces, .slices, .memory]
  | .namespaceDetach _ _ _ => [.inflight, .namespaces]
  | .secondaryControllerOnline _ _ => [.ctrls, .inflight, .tenants]
  | .secondaryControllerOffline _ _ => [.regs, .ctrls, .inflight, .tenants, .deferred, .slices, .invocations, .hd, .parks, .hdQueue, .digests,
      .digestWaits, .storeHdr, .storeNext, .fences]
  | .secondaryControllerAssign _ _ _ _ => [.inflight, .tenants]
  | .formatNvm _ _ _ _ _ _ => [.regs, .inflight, .slotWaits, .slices, .digests, .nvm, .fences, .fresh, .memory]
  | .firmwareImageDownload _ _ => [.regs, .inflight, .hd, .parks, .hdQueue, .ats, .nvm]
  | .firmwareCommit _ _ _ => [.inflight, .nvm, .start]
  | .firmwareActivation => Component.resettable
  | .nvmeMiSend _ _ => [.inflight, .mgmt, .fresh]
  | .nvmeMiReceive _ => [.inflight, .mgmt]
  | .readNvmeMiDataStructure _ _ _ _ => [.mgmt, .fresh]
  | .nvmSubsystemHealthStatusPoll _ => [.mgmt, .fresh]
  | .controllerHealthStatusPoll _ _ _ => [.mgmt, .fresh]
  | .configurationGet _ _ => [.mgmt, .fresh]
  | .configurationSet _ _ _ => [.mgmt, .fresh]
  | .vpdRead _ _ _ => [.mgmt, .fresh]
  | .miAdminTunnel _ _ => [.mgmt, .fresh]
  | .controllerDisable _ => Component.resettable
  | .controllerEnable _ => [.ctrls, .fresh]
  | .shutdown _ _ => [.ctrls, .slices]
  | .shutdownComplete _ => [.ctrls]
  | .nvmSubsystemReset => Component.resettable
  | .functionLevelReset _ => Component.resettable
  | .flrComplete _ => [.regs, .ctrls, .inflight, .deferred, .slices, .invocations, .hd, .parks, .hdQueue, .ats, .digests, .digestWaits, .storeHdr,
      .storeNext, .fences]
  | .atsInvalidate _ _ => [.ats]
  | .create _ _ _ _ => [.regs, .course, .inflight, .deferred]
  | .resize _ _ _ => [.regs, .course, .inflight, .deferred]
  | .setMode _ _ _ => [.regs, .course, .inflight, .deferred]
  | .quiesce _ _ => [.inflight, .tenants]
  | .quiescedReached _ => [.regs, .tenants]
  | .resume _ _ => [.inflight, .tenants]
  | .freeze _ _ => [.inflight, .tenants]
  | .reset _ _ => [.regs, .ctrls, .inflight, .tenants, .deferred, .slices, .invocations, .hd, .parks, .hdQueue, .digests, .digestWaits, .storeHdr,
      .storeNext, .fences]
  | .remove _ _ _ => [.regs, .ctrls, .inflight, .namespaces, .tenants, .leaving, .deferred, .slotWaits, .slices, .invocations, .hd, .parks,
      .hdQueue, .digests, .digestWaits, .storeHdr, .storeNext, .nvm, .fences]
  | .restore _ _ _ _ _ _ => [.regs, .ctrls, .inflight, .namespaces, .tenants, .migs, .slices, .nvm, .memory]
  | .migSend _ _ _ => [.regs, .inflight, .migs, .nvm, .fresh]
  | .get _ _ => [.regs, .inflight, .hd, .parks, .hdQueue, .ats]
  | .save _ _ _ => [.regs, .inflight, .tenants, .migs, .hd, .parks, .hdQueue, .ats, .nvm, .fresh]
  | .migRecv _ _ => [.inflight, .migs]
  | .generate _ _ _ => [.regs, .inflight, .slices, .nvm, .fresh]
  | .importKey _ _ _ _ _ => [.regs, .inflight, .slices, .hd, .parks, .hdQueue, .ats, .nvm]
  | .zeroize _ _ => [.regs, .inflight, .namespaces, .nvm]
  | .bind _ _ _ => [.inflight, .namespaces]
  | .importKek _ _ _ _ _ => [.regs, .inflight, .nvm]
  | .status _ _ => [.regs, .inflight, .hd, .parks, .hdQueue, .ats]
  | .slotRetiringEnd _ => [.regs, .inflight, .namespaces, .slotWaits, .slices, .nvm, .fresh]
  | .settingsStore _ => [.regs, .inflight, .storeHdr, .storeNext, .nvm]
  | .nvStoreGo => [.regs, .inflight, .storeHdr, .nvm]
  | .storeDone _ _ => [.regs, .inflight, .storeHdr, .storeNext, .nvm, .recorder]
  | .storeTokenRefill => [.nvm]
  | .store _ _ _ _ _ _ _ => [.regs, .ctrls, .inflight, .tenants, .slices, .hd, .parks, .hdQueue, .ats, .digests, .digestWaits, .fences, .fresh]
  | .ingestIdleTimeout _ _ => [.inflight, .slices, .digests, .fences]
  | .retrieve _ _ _ _ _ _ => [.regs, .ctrls, .inflight, .slices, .hd, .parks, .hdQueue, .ats, .fresh]
  | .delete _ _ _ => [.regs, .inflight, .slices, .digests, .fences, .fresh]
  | .exist _ _ _ => [.regs, .inflight, .slices, .fresh]
  | .list _ _ _ _ => [.regs, .inflight, .hd, .parks, .hdQueue, .ats]
  | .objectExport _ _ _ _ _ => [.regs, .inflight, .slices, .hd, .parks, .hdQueue, .ats, .digests, .digestWaits, .recorder, .fences]
  | .exportPinTimeout _ _ _ => [.slices, .digests, .fences]
  | .loadProgram _ _ _ _ _ _ _ => [.regs, .inflight, .namespaces, .hd, .parks, .hdQueue, .ats]
  | .programActivationManagement _ _ _ _ => [.inflight, .namespaces]
  | .executeProgram _ _ _ _ _ _ => [.regs, .inflight, .slices, .invocations, .nextInv, .hd, .parks, .hdQueue, .ats, .fresh]
  | .invocationLimitExpiry _ => [.regs, .inflight, .slices, .invocations]
  | .invocationComplete _ _ _ => [.regs, .inflight, .tenants, .slices, .invocations, .digests, .fences, .fresh, .memory]
  | .memoryRead _ _ _ _ => [.regs, .inflight, .slices, .hd, .parks, .hdQueue, .ats]
  | .memoryWrite _ _ _ _ => [.regs, .inflight, .slices, .hd, .parks, .hdQueue, .ats, .memory]
  | .memoryCopy _ _ _ _ => [.regs, .inflight, .slices, .memory]
  | .doeDiscovery _ _ => [.spdmOut]
  | .getVersion _ => [.regs, .migs, .spdmPeers, .spdmOut, .nvm, .fresh]
  | .getCapabilities _ _ => [.regs, .migs, .spdmPeers, .spdmOut, .nvm, .fresh]
  | .negotiateAlgorithms _ _ => [.regs, .migs, .spdmPeers, .spdmOut, .nvm, .fresh]
  | .getDigests _ => [.regs, .migs, .spdmOut, .nvm, .fresh]
  | .getCertificate _ _ _ _ => [.regs, .migs, .spdmOut, .nvm, .fresh]
  | .challenge _ _ _ => [.regs, .migs, .spdmOut, .nvm, .fresh]
  | .getMeasurements _ _ _ _ => [.regs, .migs, .spdmOut, .nvm, .fresh]
  | .keyExchange _ _ => [.regs, .migs, .spdmSessions, .spdmOut, .nvm, .fresh]
  | .finish _ _ _ => [.regs, .migs, .spdmSessions, .spdmOut, .nvm, .fresh]
  | .heartbeat _ _ => [.migs, .spdmOut]
  | .keyUpdate _ _ _ => [.migs, .spdmSessions, .spdmOut]
  | .endSession _ _ => [.regs, .migs, .spdmSessions, .spdmOut, .nvm]
  | .getEncapsulatedRequest _ _ => [.migs, .spdmOut]
  | .deliverEncapsulatedResponse _ _ _ => [.migs, .spdmOut]
  | .spdmUnsupportedRequest _ _ => [.migs, .spdmOut]
  | .sliceFormat _ _ => [.regs, .slices]
  | .sliceFormatDone _ _ => [.regs, .slices]
  | .evacuationGo _ _ _ => [.regs, .slices]
  | .evacuationDone _ => [.regs, .slices]
  | .streamAgeTrigger _ _ => [.slices]
  | .flashPageAgeTimeout _ _ => [.slices]
  | .programConfirmed _ _ => [.inflight, .slices]
  | .programFailed _ _ _ _ => [.regs, .ctrls, .inflight, .slices, .nvm]
  | .eraseFailed _ _ _ => [.regs, .ctrls, .inflight, .slices, .nvm]
  | .readPassDone _ _ _ _ _ => [.regs, .ctrls, .inflight, .slices, .nvm, .recorder, .fresh]
  | .patrolDue _ _ _ => [.slices]
  | .lunHealthEval _ _ _ _ => [.regs, .slices]
  | .operationTimeout _ _ _ => [.regs, .ctrls, .inflight, .slices, .nvm]
  | .devWearRateUpdate => [.wearRateMax]
  | .channelDiscovery _ _ _ _ => [.pins, .regs, .slices, .fenceSoon]
  | .flashRetrain _ _ _ => [.regs, .slices, .fenceSoon]
  | .flashZqShortDue _ => []
  | .lunPollDue _ _ _ => [.slices]
  | .counterGroupStore => [.groupAt, .groupRecs]
  | .groupStoreDone => [.regs, .slices, .groupRecs, .nvm]
  | .entropyFail => [.regs, .entropyOk]
  | .entropyRetest _ => [.regs, .entropyOk]
  | .cipherOpDone _ _ _ => [.regs, .slices]
  | .compressOpDone _ _ _ => [.regs, .slices]
  | .search _ _ _ _ _ _ => [.regs, .slices, .memory]
  | .searchBatch _ _ _ _ _ _ _ _ _ => [.regs, .slices, .memory]
  | .invalidate _ _ _ _ _ => [.regs, .slices, .memory]
  | .entryWrite _ _ _ _ _ _ _ _ => [.regs, .slices, .memory]
  | .validate _ _ _ _ _ => [.regs, .slices, .memory]
  | .resultWrite _ _ _ _ _ _ => [.regs, .slices, .memory]
  | .entryRead _ _ _ _ _ => [.regs, .slices, .memory]
  | .searchResponse _ _ _ _ _ => [.regs, .slices]
  | .alloc _ _ _ _ _ _ _ => [.regs, .slices, .fresh]
  | .send _ _ _ _ _ => [.regs, .slices]
  | .arm _ _ _ _ => [.regs, .slices]
  | .emit _ _ => [.regs, .slices]
  | .release _ => [.regs, .slices]
  | .continueRun _ _ => [.regs, .slices, .fresh]
  | .endRun _ _ => [.regs, .slices, .fresh]
  | .ctxAlloc _ _ _ => [.regs, .slices]
  | .ctxFree _ _ => [.regs, .slices]
  | .flowOpen _ => [.regs, .slices]
  | .flowClose _ _ => [.regs, .slices]
  | .operandArrival _ _ _ _ _ => [.regs, .slices]
  | .budgetExpiry _ => [.regs, .slices]
  | .protectionFault _ => [.regs, .slices, .fresh]
  | .delayEntryDue _ _ _ _ => [.regs, .slices]
  | .hostDmaBeat _ => [.course, .hd, .parks, .hdQueue]
  | .busError _ _ _ => [.regs, .inflight, .slices, .hd, .parks, .hdQueue, .nvm]
  | .probeComplete _ _ _ => [.regs, .inflight, .slices, .hd, .parks, .hdQueue, .nvm]
  | .hdChCtlWrite _ _ => [.regs, .hd]
  | .sliceDmaDone _ _ _ _ _ _ => [.regs, .slices, .fresh, .memory]
  | .dramChannelStart _ _ _ _ => [.pins, .regs, .links, .ctrls, .inflight, .slices, .invocations, .digests, .nvm, .power, .recorder, .fences,
      .fenceCounts, .memory]
  | .dramRefresh _ => [.regs, .course]
  | .dramZqCal => []
  | .dramRetrainDue _ _ => [.slices]
  | .dramRetrain _ _ => [.slices]
  | .retrainHoldExpiry _ _ => [.slices]
  | .dramRetrainDone _ _ _ => [.pins, .regs, .links, .ctrls, .inflight, .slices, .invocations, .digests, .nvm, .power, .recorder, .fences,
      .fenceCounts, .memory]
  | .mergeEntryTimeout _ _ _ _ => [.regs, .slices]
  | .scrubGo _ => [.regs]
  | .scrubStop _ => [.regs, .fresh]
  | .scrubDone _ _ _ => [.regs, .fresh]
  | .digestOpen _ _ _ _ _ _ => [.regs, .digests]
  | .digestData _ _ _ => [.regs, .slices, .digests, .digestOut, .hubKey, .meas, .measLog, .measSeq, .staged, .nvm, .fences, .memory]
  | .digestIdleTimeout _ => [.regs, .inflight, .slices, .digests, .fences]
  | .measExtend => [.regs, .meas, .measLog, .measSeq]
  | .measExtendDone => [.regs]
  | .sagDetect => [.regs, .nvm, .power]
  | .sagEnd _ => [.regs, .power, .recorder]
  | .brownOut => [.power]
  | .surgeRecorded => [.regs]
  | .surgeTrip => [.power]
  | .senseFault _ _ => [.pins, .regs, .power, .recorder]
  | .controlLoopSample _ _ => [.regs, .slices, .power]
  | .feTrip _ => [.pins, .regs, .power, .recorder]
  | .thermalTrip _ => [.power]
  | .supervisorStep => [.pins, .regs, .inflight, .deferred, .slices, .invocations, .hd, .parks, .hdQueue, .digests, .digestWaits, .storeHdr,
      .storeNext, .nvm, .power, .recorder]
  | .chargeTimeout => [.pins, .regs, .power, .recorder]
  | .holdupClear => [.regs]
  | .measureRequest => [.regs, .power]
  | .capacitanceMeasureDue => [.regs, .power]
  | .capacitanceMeasureEnd _ _ _ => [.pins, .regs, .tenants, .slices, .nvm, .power, .recorder]
  | .flushRateUpdate => [.pins, .regs, .tenants, .slices, .power, .recorder, .fresh]
  | .loopClose _ _ => [.regs, .power]
  | .loopOpen _ => [.pins, .regs, .power, .recorder]
  | .dumpComplete _ => Component.resettable
  | .downSupplyGood => Component.resettable
  | .bankExhausted => Component.resettable
  | .powerStateEntry => [.regs, .slices]
  | .powerStateExit _ => [.regs]
  | .resetNRise => [.pins, .regs, .dual, .ctrls, .inflight, .meas, .measLog, .measSeq, .nvm, .start, .recorder]
  | .resetNFall => Component.resettable
  | .imageVerified => [.pins, .regs, .course, .dual, .links, .ctrls, .inflight, .tenants, .slices, .meas, .measLog, .measSeq, .nvm, .power,
      .start, .recorder]
  | .sliceRebuild _ => [.pins, .regs, .ctrls, .inflight, .slices, .nvm, .power, .recorder]
  | .sliceRebuildDone _ _ => [.pins, .regs, .ctrls, .inflight, .slices, .invocations, .digests, .wearRateMax, .nvm, .power, .start, .recorder,
      .fences, .fresh, .memory]
  | .sliceLate _ => [.regs, .ctrls, .slices, .nvm, .start, .recorder, .fresh]
  | .startWatchdog => Component.resettable
  | .hubFault => Component.resettable
  | .startSuccess => [.regs, .nvm, .recorder]
  | .minuteTick => [.regs, .nvm, .recorder]
  | .recorderBinning _ => [.regs, .recorder]
  | .recorderFreeze => [.regs, .recorder]
  | .recorderThaw => [.regs, .nvm, .recorder]
  | .recorderAutoThaw => [.regs, .nvm, .recorder]
  | .onlineTestGo _ _ _ => [.regs, .test]
  | .onlineTestDone _ => [.pins, .regs, .links, .ctrls, .inflight, .slices, .invocations, .digests, .nvm, .power, .recorder, .fences,
      .fenceCounts, .fenceSoon, .test, .unfence, .fresh, .memory]
  | .faultFence _ _ => [.pins, .regs, .links, .ctrls, .inflight, .slices, .invocations, .digests, .nvm, .power, .recorder, .fences, .fenceCounts,
      .fenceSoon, .fresh, .memory]
  | .sliceOfflineRequest _ => [.pins, .regs, .ctrls, .inflight, .slices, .invocations, .digests, .nvm, .power, .recorder, .fences, .memory]
  | .sliceLinkFail _ => [.pins, .regs, .links, .ctrls, .inflight, .slices, .invocations, .digests, .nvm, .power, .recorder, .fences, .fenceCounts,
      .fenceSoon, .fresh, .memory]
  | .jtagInstruction _ => Component.resettable
  | .tapReset => [.pins, .regs, .dual, .ctrls, .inflight, .meas, .measLog, .measSeq, .nvm, .start, .recorder]
  | .debugUnlock _ => [.regs, .meas, .measLog, .measSeq]
  | .loRegisterRead _ => [.regs, .latches, .busRead, .fresh]
  | .unsupportedWidthAccess _ _ _ => [.regs, .busRead]
  | .reservedAccess _ _ => [.regs, .latches, .busRead, .fresh]
  | .registerWrite _ _ => [.pins, .regs, .busRead, .course, .ctrls, .inflight, .slices, .invocations, .hd, .digests, .meas, .measLog, .measSeq,
      .storeHdr, .nvm, .power, .recorder, .fences, .test, .fresh, .memory]
  | .powerLostWithoutDump => Component.resettable
  | .unsupportedOpcode _ _ => [.inflight]
  | .dynamicAddressAssignment _ => [.mgmt]
  | .smbusClockLowTimeout => [.mgmt]
  | .msiXTableWrite _ _ _ _ _ => [.ctrls]

/-- What is gone once a package reset has happened: course generator stopped, no command, tenant, invocation or digest operation
left, hold-up OFF, links down (R6). -/
structure WorkGone (t : Machine.State) : Prop where
  course : t.course = Machine.State.courseReset
  inflight : t.inflight = []
  tenants : t.tenants = []
  invocations : t.invocations = []
  digests : t.digests = []
  power : t.power = Machine.State.powerReset
  links : ∀ l ∈ t.links, l.up = false

/-- The form that every state keeps: the vendor registers are listed in rising order and none at its Reset value, there are as many
slices, host DMA channels, measurement registers and links as the package has, and every slice-local memory is canonical. -/
structure Shape (s : Machine.State) : Prop where
  regs : Machine.mapWf (Machine.resetWord s.part) s.regs = true
  slices : s.slices.length = 8
  hd : s.hd.length = 32
  meas : s.meas.length = 32
  links : s.links.length = 2
  slm : ∀ x ∈ s.slices, Machine.Memory.wf x.slm = true

/-- How a command in flight stands: its phase, its answer and what its completion waits for. -/
def standing (s : Machine.State) (h : Hdr) : Option (Machine.Phase × Machine.Answer × List Machine.Cond) :=
  (s.inFlight h).map fun x => (x.phase, x.answer, x.conds)

/-- The command is dispatched with this answer, and nothing but its completion entry is left (R56). -/
def Answered (s : Machine.State) (h : Hdr) (a : Machine.Answer) : Prop := standing s h = some (.dispatched, a, [])

/-- The command is dispatched and will complete with success (R70). -/
def Succeeds (s : Machine.State) (h : Hdr) : Prop := ∃ a cs, standing s h = some (.dispatched, a, cs) ∧ a.status = Machine.stOk

/-- An I/O command may be carried out on a namespace of its kind: it is in its command slot, and the namespace is attached to its
controller (R70). -/
def Serves (s : Machine.State) (h : Hdr) (nsid : Nat) (x : Machine.Namespace) (kind : Machine.NsKind) : Prop :=
  s.runnable h = true ∧ s.nsOf h.ctrl nsid = some x ∧ x.kind = kind

/-- The blocks lie in the namespace, and no overlapping command of the same queue waits before this one (R59, R70). -/
def Reaches (s : Machine.State) (h : Hdr) (x : Machine.Namespace) (slba nlb : Nat) : Prop :=
  slba + nlb ≤ x.size ∧ s.behind h [(x.nsid, slba, nlb)] = false

/-- A write of the blocks may be accepted now: the pool is writable, there is room and allowance, and their slices are online (R83,
R127, R135, R384). -/
def Accepts (s : Machine.State) (h : Hdr) (x : Machine.Namespace) (fua : Bool) (lbas : List Nat) : Prop :=
  s.readOnlyNs x = false ∧ s.mayWrite h x fua lbas = true ∧ ∀ l ∈ lbas, s.nsUp x (x.route l).1 = true

/-- The command is dispatched with success, and completes once versions that its write went into are programmed (R56). -/
def Written (s : Machine.State) (h : Hdr) : Prop :=
  ∃ cs, standing s h = some (.dispatched, Machine.ansSt Machine.stOk, cs) ∧ ∀ c ∈ cs, ∃ n w, c = .programmed n w

/-- The command is dispatched with this answer, and completes once the flash reads made for it in some slices are over (R23, R60, R131). -/
def Reading (s : Machine.State) (h : Hdr) (a : Machine.Answer) : Prop :=
  ∃ cs, standing s h = some (.dispatched, a, cs) ∧ ∀ c ∈ cs, ∃ n, c = .sensed n

/-- The command is dispatched with success, and completes once versions that it wrote are programmed and flash reads made for it are over
(R56, R421). -/
def Copied (s : Machine.State) (h : Hdr) : Prop :=
  ∃ cs, standing s h = some (.dispatched, Machine.ansSt Machine.stOk, cs) ∧ ∀ c ∈ cs, (∃ n w, c = .programmed n w) ∨ ∃ n, c = .sensed n

/-- A version of slice n that a Flush of some namespaces covers: it holds acknowledged data, and the first of it was acknowledged before the
command was fetched (R57). -/
def FlushCovers (s : Machine.State) (nsids : List Nat) (y : Machine.InFlight) (n : Nat) (v : Machine.Version) : Prop :=
  s.hasSlice n = true ∧ v ∈ (s.slice n).versions ∧ v.nsid ∈ nsids ∧ v.acked ≠ [] ∧ ∃ a, v.ackAt = some a ∧ a < y.fetchedAt

/-- The command is dispatched with success, waits for the versions that a Flush of some namespaces covers and for nothing else, and all of
them are marked for programming (R57, R108). -/
def Flushes (s t : Machine.State) (h : Hdr) (nsids : List Nat) (y : Machine.InFlight) : Prop :=
  (∃ cs, standing t h = some (.dispatched, Machine.ansSt Machine.stOk, cs) ∧
    ∀ c, c ∈ cs ↔ ∃ n v, FlushCovers s nsids y n v ∧ c = .programmed n v.wslot) ∧
  ∀ n v, FlushCovers s nsids y n v → { v with trigger := true } ∈ (t.slice n).versions

/-- An object command on a key may be carried out: its key has 1 to 16 bytes, no earlier command of its queue on the key waits, and the
key's slice is online (R59, R258, R264, R384). -/
def ServesKey (s : Machine.State) (h : Hdr) (nsid : Nat) (x : Machine.Namespace) (key : KvKey) : Prop :=
  Serves s h nsid x .object ∧ Machine.keyOk key = true ∧
    s.behindKey h nsid (Machine.keyNorm key) = false ∧
    s.nsUp x (Machine.placeKey x (Machine.keyNorm key)).slice = true

/-- An opening Store of a key goes through at once: nothing refuses it, there is room and allowance, and its digest instance or ingest
place is free with nobody before it (R83, R127, R255 to R260). -/
def Opens (s : Machine.State) (h : Hdr) (x : Machine.Namespace) (key : KvKey) (opt : StoreOpt) (total slots : Nat) (o : Machine.Opening) : Prop :=
  let k := Machine.keyNorm key
  let q := Machine.placeKey x k
  let l := s.lookup q x k
  l.2.openStore x k q opt total (Machine.ctrlOwner h.ctrl) l.1 = .ok o ∧ l.2.objectRoom h x q.slice slots = true ∧
    l.2.waitsOf (Machine.ctrlOwner h.ctrl) = [] ∧ (l.2.freePlace (Machine.ctrlOwner h.ctrl) x.desc.fixity q.slice true).isSome = true

/-- A search array serves operations itself: it is in service and not suspended (R220, R221, R222). -/
def ServesSearches (s : Machine.State) (n r : Nat) : Prop := s.active (UnitId.array n r) = true ∧ s.searchRate n r ≠ 3

/-- A requester's operation of k cycles is issued whole now: its payer has that many left in this course, and none of its operations waits
(R213). -/
def HasCycles (s : Machine.State) (n r requester k : Nat) : Prop :=
  k ≤ s.cyclesLeft n r (s.cyclePayer requester) ∧
    (s.array n r).jobs.any (fun j => s.cyclePayer j.requester == s.cyclePayer requester) = false

/-- An admin command that every controller accepts outside minimal mode may be carried out (R49, R359). -/
def AdminReady (s : Machine.State) (h : Hdr) : Prop := s.runnable h = true ∧ s.minimal = false

/-- A command of the manager, from physical function 0 of port 0, may be carried out (R49, R72). -/
def ManagerReady (s : Machine.State) (h : Hdr) : Prop := s.runnable h = true ∧ h.ctrl = 1 ∧ s.minimal = false

/-- A manager command of R364 may be carried out: no other one is under way. -/
def ItsTurn (s : Machine.State) (h : Hdr) : Prop := ManagerReady s h ∧ s.serialBusy h = false

/-- A division or a change of mode is accepted: it waits for its bond period boundary; one that commits the shadow banks requests the
commit, or is refused with BOND_CHECK while one is pending (R79). -/
def WaitsForBoundary (s t : Machine.State) (h : Hdr) (act : Machine.TenantAct) (commits : Bool) : Prop :=
  if commits = true ∧ s.bit Machine.Adr.ckCommitSts 7 = true then
    Answered t h (Machine.ansReason Machine.stSequence 0xF) ∧ t.deferred = s.deferred ∧ t.bit Machine.Adr.ckCommitSts 6 = true
  else
    standing t h = some (.dispatched, Machine.ansSt Machine.stOk, [.division]) ∧ t.tenants = s.tenants ∧
      t.deferred = s.deferred ++
        [Machine.Deferred.mk h act commits (if commits then s.commitDue else (s.now / 64 + 1) * 64)] ∧
      (commits = true → t.bit Machine.Adr.ckCommitSts 7 = true ∧ t.course.commit.map Machine.Commit.due = some s.commitDue)

end Sys2Proof
end

