-- ==== Sys2Proof/Certificates/Slice0/Obligations.lean ====
section
/-!
DEFINITION. The statements about the model of the SF1024. Completes c s P says that exec carries command c out on s and that P holds
of the next state; footprint says what any command may change, in any state.
-/

open Sys2Proof Sys2Proof.Machine

/-- A step at a state whose queue begins with a command is that command carried out on the state with the rest of the queue; on
an empty queue the block idles (the queue and the idle step are the model's own: log entry 1) (R22, R69). -/
def Obligations.StepRunsTheFrontCommand : Prop :=
  (∀ (c : Instr) (rest : List Instr) (s : State), step { s with pending := c :: rest } = exec c { s with pending := rest }) ∧
  ∀ s : State, s.pending = [] → step s = .next s

/-- In the state right after package reset of a Yarrow (that part is the model's choice: log entry 3) every vendor register reads its
Reset value, no command, tenant, invocation or digest
operation exists, the course generator is stopped, hold-up is OFF, both links are down, the queue is empty, and the state has
the form that every step keeps (R6). -/
def Obligations.ResetLeavesTheResetValues : Prop :=
  (∀ a, State.reset.rd a = resetWord .yarrow a) ∧ WorkGone State.reset ∧ State.reset.pending = [] ∧ Shape State.reset

/-- From any state of the right form, every command that reaches a next state leaves the form: the vendor registers stay listed
in rising order with none listed at its Reset value, slice-local memory stays canonical in every slice, and the package keeps
its 8 slices, 32 host DMA channels, 32 measurement registers and 2 links (R2, R6, R10, R290). -/
def Obligations.EveryStepKeepsTheShape : Prop :=
  ∀ s t : State, Shape s → step s = .next t → Shape t

/-- For every command, in every state and with every operand: if it reaches a next state, every part of the state outside its
footprint (the fields of the state, and the slice-local memory of the slices) is unchanged; in particular no command changes
which part the package is, or the queue of commands (R2, R5, R8, R290, R419). -/
def Obligations.CommandsChangeOnlyTheirFootprint : Prop :=
  ∀ (c : Instr) (s t : State), exec c s = .next t → OnlyChanges (footprint c) s t

/-- Every command reaches a next state in every state, except that a register read or write, an access of an unsupported width
and an access to a reserved address stop with the fault outsideWindow when their address lies outside the 64 MiB vendor window;
there they always stop (R387). -/
def Obligations.OnlyAccessesOutsideTheWindowStop : Prop :=
  ∀ (c : Instr) (s : State),
    match c with
    | .loRegisterRead a => if a < 0x4000000 then ∃ t, exec c s = .next t else exec c s = .fault .outsideWindow
    | .unsupportedWidthAccess a _ _ => if a < 0x4000000 then ∃ t, exec c s = .next t else exec c s = .fault .outsideWindow
    | .reservedAccess a _ => if a < 0x4000000 then ∃ t, exec c s = .next t else exec c s = .fault .outsideWindow
    | .registerWrite a _ => if a < 0x4000000 then ∃ t, exec c s = .next t else exec c s = .fault .outsideWindow
    | c => ∃ t, exec c s = .next t

/-- Setting a vendor register makes it read that value and leaves every other register; writing a byte of slice-local memory
makes that address read the byte and leaves every other address, and both keep the canonical form (R5, R6, R290, R294). -/
def Obligations.RegisterAndMemoryReadAfterWrite : Prop :=
  (∀ (s : State) (a b : Nat) (v : Word), (s.wr a v).rd a = v ∧ (b ≠ a → (s.wr a v).rd b = s.rd b)) ∧
  ∀ (m : List Host.Cell) (a b : Nat) (v : Byte), Memory.wf m = true →
    memGet (memPut m a v) a = v ∧ (b ≠ a → memGet (memPut m a v) b = memGet m b) ∧ Memory.wf (memPut m a v) = true

/-- While the package runs and the course generator runs, a course boundary raises the course count by exactly 1; while the
generator is stopped it changes nothing. At a course that is a multiple of 64, the bond period boundary is marked as done for
that course, the course count is unchanged, the resources of removed tenants are returned and no restore stays outstanding; a
second one for the same course changes nothing. Making a verdict of the bond check visible ends the commit, and a verdict other than
APPLIED shows in CK_COMMIT_STS.RESULT with PENDING clear and WR_IGNORED as it was, while no other register changes (R20, R21, R22, R34,
R35). -/
def Obligations.CourseAndBondBoundariesCountAndCommit : Prop :=
  (∀ (late : List UnitId) (s : State), s.held = false → s.course.running = true →
    Completes (.courseBoundary late) s fun t => t.course.count = s.course.count + 1 ∧ t.course.bondAt = s.course.bondAt) ∧
  (∀ (late : List UnitId) (s : State), s.course.running = false → exec (.courseBoundary late) s = .next s) ∧
  (∀ (hot : List Nat) (s : State), s.held = false → s.course.running = true → s.now % 64 = 0 → s.course.bondAt ≠ s.now →
    Completes (.bondPeriodBoundary hot) s fun t => t.course.bondAt = s.now ∧ t.course.count = s.course.count ∧ t.leaving = [] ∧
      t.start.restore = false) ∧
  (∀ (hot : List Nat) (s : State), s.course.bondAt = s.now → exec (.bondPeriodBoundary hot) s = .next s) ∧
  ∀ (v : Verdict) (s : State), v.cell < 4160 → v.ti < 256 → v.result < 8 →
    (s.commitNow v).course.commit = none ∧
      (v.result ≠ 1 → (s.commitNow v).fld Adr.ckCommitSts 3 0 = v.result ∧ (s.commitNow v).bit Adr.ckCommitSts 7 = false ∧
        (s.commitNow v).bit Adr.ckCommitSts 6 = s.bit Adr.ckCommitSts 6 ∧ RegsBut [Adr.ckCommitSts] s (s.commitNow v))

/-- When a commit applies, every cell of the active bond table and every active weight reads what its shadow read, CK_DEVWGT and
CK_DEVWGT_H take effect, and the shadow banks and every register outside the active banks read as before (R28, R34). -/
def Obligations.CommitTakesTheShadowBanks : Prop :=
  ∀ s : State, mapWf (resetWord s.part) s.regs = true →
    (∀ i, i < 4160 → s.applyBanks.rd (Adr.ckBondActive i) = s.rd (Adr.ckBondShadow i)) ∧
    (∀ ti, ti < 256 → s.applyBanks.rd (Adr.ckWeightActive ti) = s.rd (Adr.ckWeightShadow ti)) ∧
    (∀ a, a < 0x91000 ∨ 0x91800 ≤ a ∧ a < 0x92000 ∨ 0x98000 ≤ a → s.applyBanks.rd a = s.rd a) ∧
    s.applyBanks.course.devwgt = s.rd Adr.ckDevwgt ∧ s.applyBanks.course.devwgtH = s.rd Adr.ckDevwgtH

/-- Once the CK block answers, from step 5 of the start sequence and outside minimal mode, a GO with none pending sets PENDING and
asks for the commit at the next bond period boundary, and in course 63 of a running generator at the one after it; no other register
changes. A GO while PENDING is 1 only sets WR_IGNORED. Before that a GO changes nothing (R34, R35, R359, R394). -/
def Obligations.CommitRequestsWaitForTheirBoundary : Prop :=
  (∀ s : State, s.held = false → s.minimal = false → s.linkUp 0 = true → 2 ≤ s.stage → s.bit Adr.ckCommitSts 7 = false →
    Completes .commitGo s fun t => t.bit Adr.ckCommitSts 7 = true ∧ RegsBut [Adr.ckCommitSts] s t ∧
      t.course.commit.map Commit.verdict = some none ∧
      t.course.commit.map Commit.due = some (if s.course.running = true ∧ s.now % 64 = 63 then s.now + 65 else (s.now / 64 + 1) * 64) ∧
      { t.course with commit := none } = { s.course with commit := none }) ∧
  (∀ s : State, s.held = false → s.minimal = false → s.linkUp 0 = true → 2 ≤ s.stage → s.bit Adr.ckCommitSts 7 = true →
    Completes .commitGo s fun t => t.bit Adr.ckCommitSts 6 = true ∧ t.course = s.course ∧ RegsBut [Adr.ckCommitSts] s t) ∧
  ∀ s : State, s.held = true ∨ s.minimal = true ∨ s.linkUp 0 = false ∨ s.stage < 2 → exec .commitGo s = .next s

/-- For a follower, with the error taken the shorter way round: in WAIT a pulse starts the course generator at 0 and LOCKS; LOCKED with an
error of more than 32 steps of 625 ps falls back to ACQUIRE, sets LOST and trims by at most 8 steps, and otherwise stays LOCKED and trims by
at most 1; ACQUIRE locks after the fourth error in a row within 16 steps; HOLDOVER returns to LOCKED, or to ACQUIRE when the error is over
32 steps. Two missing pulses lead to HOLDOVER, and the 64th from there to FREE without trim. 100 ms in WAIT without a pulse: FREE, LOST, and
the generator starts (how many pulses each row stands for is log entry 9) (R37, R38). -/
def Obligations.FollowersTrackThePulse : Prop :=
  (∀ (phase : Int) (s : State), s.held = false → s.fld Adr.ckSyncCtl 1 0 = 2 → s.fld Adr.ckSyncSts 2 0 = 2 →
    Completes (.syncPulse phase) s fun t => t.fld Adr.ckSyncSts 2 0 = 4 ∧ t.course.running = true ∧ t.course.count = 0) ∧
  (∀ (phase : Int) (s : State), s.held = false → s.fld Adr.ckSyncCtl 1 0 = 2 → s.fld Adr.ckSyncSts 2 0 = 4 →
    Completes (.syncPulse phase) s fun t =>
      let e := phaseWrap (phase - (s.fld Adr.ckSyncCtl 15 8 : Int))
      (-199680 : Int) ≤ e ∧ e < 199680 ∧ t.course.phase = e ∧ t.course.count = s.course.count ∧ RegsBut [Adr.ckSyncSts] s t ∧
        if 32 < e.natAbs then t.fld Adr.ckSyncSts 2 0 = 3 ∧ t.bit Adr.ckSyncSts 6 = true ∧ t.course.trim.natAbs ≤ 8
        else t.fld Adr.ckSyncSts 2 0 = 4 ∧ t.course.trim.natAbs ≤ 1) ∧
  (∀ (phase : Int) (s : State), s.held = false → s.fld Adr.ckSyncCtl 1 0 = 2 → s.fld Adr.ckSyncSts 2 0 = 3 →
    Completes (.syncPulse phase) s fun t =>
      if (phaseWrap (phase - (s.fld Adr.ckSyncCtl 15 8 : Int))).natAbs ≤ 16 then
        t.fld Adr.ckSyncSts 2 0 = (if 3 ≤ s.course.good then 4 else 3) ∧ (s.course.good < 3 → t.course.good = s.course.good + 1)
      else t.fld Adr.ckSyncSts 2 0 = 3 ∧ t.course.good = 0) ∧
  (∀ (phase : Int) (s : State), s.held = false → s.fld Adr.ckSyncCtl 1 0 = 2 → s.fld Adr.ckSyncSts 2 0 = 5 →
    Completes (.syncPulse phase) s fun t => t.fld Adr.ckSyncSts 2 0 =
      if 32 < (phaseWrap (phase - (s.fld Adr.ckSyncCtl 15 8 : Int))).natAbs then 3 else 4) ∧
  (∀ s : State, s.held = false → s.fld Adr.ckSyncCtl 1 0 = 2 → s.fld Adr.ckSyncSts 2 0 = 3 ∨ s.fld Adr.ckSyncSts 2 0 = 4 →
    Completes .syncPulseMissing s fun t => t.fld Adr.ckSyncSts 2 0 = 5 ∧ t.course.trim = s.course.trim ∧
      RegsBut [Adr.ckSyncSts] s t) ∧
  (∀ s : State, s.held = false → s.fld Adr.ckSyncCtl 1 0 = 2 → s.fld Adr.ckSyncSts 2 0 = 5 →
    Completes .syncPulseMissing s fun t => t.fld Adr.ckSyncSts 2 0 = 6 ∧ t.course.trim = 0 ∧ RegsBut [Adr.ckSyncSts] s t) ∧
  ∀ s : State, s.held = false → s.fld Adr.ckSyncCtl 1 0 = 2 → s.fld Adr.ckSyncSts 2 0 = 2 →
    Completes .syncWaitTimeout s fun t => t.fld Adr.ckSyncSts 2 0 = 6 ∧ t.bit Adr.ckSyncSts 6 = true ∧
      t.course.running = true ∧ t.course.count = 0

/-- In a running package whose CK_SYNC_STS.STATE is MASTER, a mismatch on COURSE_SYNC makes it stop driving the pin, sets
CONFLICT and enters FREE; no other register changes, and the course generator goes on (R39). -/
def Obligations.ASecondMasterLeavesTheLine : Prop :=
  ∀ s : State, s.held = false → s.fld Adr.ckSyncSts 2 0 = 1 →
    Completes .syncConflict s fun t => t.pins = { s.pins with courseSync := false } ∧ t.bit Adr.ckSyncSts 7 = true ∧
      t.fld Adr.ckSyncSts 2 0 = 6 ∧ RegsBut [Adr.ckSyncSts] s t ∧ t.course = s.course

/-- In a package that is neither held in reset nor in a Dump, a lost reference clock and every kind of package fault end in a
package reset: the course generator is stopped, no command, tenant, invocation or digest operation is left, hold-up is OFF and
the links are down. During a Dump a fault of the hub memory or of the ROM check changes nothing, and a lost clock only stops the course
generator (that the landing then under way stands for the one that R385 asks for is log entry 72) (R6, R21, R338, R385). -/
def Obligations.PackageFaultsResetThePackage : Prop :=
  (∀ s : State, s.held = false → s.dumping = false → Completes .refclkLost s fun t => WorkGone t ∧ t.part = s.part) ∧
  (∀ (k : PkgFault) (s : State), s.held = false → s.dumping = false →
    Completes (.packageFault k) s fun t => WorkGone t ∧ t.part = s.part) ∧
  (∀ s : State, s.dumping = true → exec (.packageFault .hubMemory) s = .next s ∧ exec (.packageFault .romCheck) s = .next s) ∧
  ∀ s : State, s.held = false → s.dumping = true → ∀ c ∈ [Instr.refclkLost, .packageFault .clock],
    Completes c s fun t => t.course = { s.course with running := false } ∧ OnlyChanges [.course] s t

/-- Once the start sequence has passed step 2, port 0, and in dual-port mode port 1, comes up at the lesser generation and width
that both partners support, with PERST taken back, and with the Max_Payload_Size and Max_Read_Request_Size that the host programs, at most
512 and 4,096; in minimal mode port 0 comes up as Gen1 x1. A PERST of a port of the package
takes its link down and resets every controller on that port, and leaves the other port's link as it was; during a Dump PERST
changes nothing (the sizes of a link that is down are log entry 18) (R40, R41, R65, R359, R407). -/
def Obligations.LinksTrainAndFall : Prop :=
  (∀ (port gen width mps mrrs : Nat) (s : State) (l : Link), s.held = false → s.stage ≠ 0 → s.minimal = false →
      s.links[port]? = some l → (port = 0 ∨ port = 1 ∧ s.dual = true) →
    Completes (.linkTraining port gen ⟨width, mps, mrrs⟩) s fun t =>
      t.links[port]? = some { l with
        up := true, gen := min 6 gen, width := min (if s.dual then 8 else 16) width, mps := max 128 (min 512 mps),
        mrrs := max 128 (min 4096 mrrs) } ∧
      (∀ k, k ≠ port → t.links[k]? = s.links[k]?) ∧ (if port = 0 then t.pins.perst0 = false else t.pins.perst1 = false)) ∧
  (∀ (gen width mps mrrs : Nat) (s : State), s.held = false → s.minimal = true → 0 < s.links.length →
    Completes (.linkTraining 0 gen ⟨width, mps, mrrs⟩) s fun t =>
      ∃ l, t.links[0]? = some l ∧ l.up = true ∧ l.gen = 1 ∧ l.width = 1 ∧ l.mps ≤ 512 ∧ l.mrrs ≤ 4096) ∧
  (∀ (port : Nat) (s : State), s.held = false → s.dumping = false → s.start.minimalCommit = false → port < s.links.length →
      (port = 0 ∨ port = 1 ∧ s.dual = true) →
    Completes (.perstAssert port) s fun t => t.links[port]? = some State.linkDown ∧ State.linkDown.up = false ∧
      (∀ k, k ≠ port → t.links[k]? = s.links[k]?) ∧ (if port = 0 then t.pins.perst0 = true else t.pins.perst1 = true) ∧
      ∀ c, ctrlPort c = port → (t.ctrl c).en = false ∧ (t.ctrl c).sqs = [] ∧ (t.ctrl c).cqs = []) ∧
  ∀ (port : Nat) (s : State), s.held = false → s.dumping = true → exec (.perstAssert port) s = .next s

/-- A tail doorbell moves the tail of an enabled controller's queue, or is recorded while fetch is stopped for its tenant; a
head doorbell releases the entries up to it. A fetch from the queue that arbitration serves advances the head by one entry and puts the
command into a command slot under the next order number; the first I/O command fetched while a fault is pending for its pair completes
unexecuted with Deferred Write Fault instead, and the fault is pending no more. A command that is dispatched, waits for nothing and has
moved its data leaves its slot, and its completion is the newest entry of its completion queue; a successful write that a slice holds
which has come under the Through override waits until it is programmed. A doorbell changes nothing else (R46, R47, R56, R62, R85). -/
def Obligations.DoorbellsFetchAndCompletion : Prop :=
  (∀ (c qid tail : Nat) (s : State) (q : SubQ), s.held = false → (s.ctrl c).en = true → s.flrOn c = false →
      recGet SubQ.qid (s.ctrl c).sqs qid = some q → tail < q.size →
    Completes (.sqTailDoorbell c qid tail) s fun t => OnlyChanges [.ctrls] s t ∧ (∀ d, d ≠ c → t.ctrl d = s.ctrl d) ∧
      recGet SubQ.qid (t.ctrl c).sqs qid = some
        (if s.fetchStopped c then { q with recorded := some tail } else { q with tail := tail })) ∧
  (∀ (c qid head : Nat) (s : State) (q : ComQ), s.held = false → (s.ctrl c).en = true → s.flrOn c = false →
      recGet ComQ.qid (s.ctrl c).cqs qid = some q → head < q.size → q.freed head ≤ q.entries.length →
    Completes (.cqHeadDoorbell c qid head) s fun t => OnlyChanges [.ctrls] s t ∧ (∀ d, d ≠ c → t.ctrl d = s.ctrl d) ∧
      recGet ComQ.qid (t.ctrl c).cqs qid = some { q with head := head, entries := q.entries.drop (q.freed head) }) ∧
  (∀ (h : Hdr) (e : SqEntry) (s : State) (q : SubQ) (a : Arb), (s.ctrl h.ctrl).pick = some (h.sq, a) →
      recGet SubQ.qid (s.ctrl h.ctrl).sqs h.sq = some q → s.mayFetch h.ctrl = true → s.inFlight h = none → s.slotFree h.ctrl = true →
      (h.sq = 0 ∨ ∀ n ∈ s.namedBy h.ctrl e.nsid, (ctrlOwner h.ctrl, n) ∉ s.nvm.faultPairs) →
    Completes (.commandFetch ⟨h, e⟩) s fun t => t.inFlight h = some (fetchedNow h q.cqid (s.order + 1) e) ∧ t.order = s.order + 1 ∧
      recGet SubQ.qid (t.ctrl h.ctrl).sqs h.sq = some { q with head := (q.head + 1) % q.size } ∧
      ∀ g, g ≠ h → t.inFlight g = s.inFlight g) ∧
  (∀ (h : Hdr) (e : SqEntry) (s : State) (q : SubQ) (a : Arb) (n : Nat), (s.ctrl h.ctrl).pick = some (h.sq, a) →
      recGet SubQ.qid (s.ctrl h.ctrl).sqs h.sq = some q → s.mayFetch h.ctrl = true → s.inFlight h = none → s.slotFree h.ctrl = true →
      h.sq ≠ 0 → e.nsid = n → n ≠ 0xFFFFFFFF → s.namedBy h.ctrl n = [n] → (ctrlOwner h.ctrl, n) ∈ s.nvm.faultPairs →
    Completes (.commandFetch ⟨h, e⟩) s fun t => Answered t h { ansSt stDeferred with nsid := n } ∧
      (ctrlOwner h.ctrl, n) ∉ t.nvm.faultPairs) ∧
  (∀ (h : Hdr) (s : State) (x : InFlight) (q : ComQ), s.held = false → s.inFlight h = some x → x.phase = .dispatched →
      x.conds = [] → recGet ComQ.qid (s.ctrl h.ctrl).cqs x.cqid = some q → q.entries.length + 1 < q.size → s.flrOn h.ctrl = false →
      s.moving h = false → s.hdOpen h.ctrl kComplete = true → (x.answer.status.good = false ∨ s.overridden x = []) →
    Completes (.completionPost h) s fun t => t.inFlight h = none ∧ t.order = s.order + 1 ∧
      (recGet ComQ.qid (t.ctrl h.ctrl).cqs x.cqid).map ComQ.entries = some (q.entries ++ [(h, x.answer)]) ∧
      ∀ g, g ≠ h → t.inFlight g = s.inFlight g) ∧
  ∀ (h : Hdr) (s : State) (x : InFlight) (q : ComQ), s.held = false → s.inFlight h = some x → x.phase = .dispatched →
      x.conds = [] → recGet ComQ.qid (s.ctrl h.ctrl).cqs x.cqid = some q → q.entries.length + 1 < q.size → s.flrOn h.ctrl = false →
      s.moving h = false → s.hdOpen h.ctrl kComplete = true → x.answer.status.good = true → s.overridden x ≠ [] →
    Completes (.completionPost h) s fun t => OnlyChanges [.inflight, .slices] s t ∧
      (t.inFlight h).map InFlight.conds = some ((s.overridden x).map fun w => .programmed w.1 w.2)

/-- Setting CC.EN of a controller that exists enables it, with its admin queues of the sizes that AQA names (2 to 4,096 entries), and makes
it ready when it may serve. Clearing
CC.EN, on a controller for which no firmware activation waits, discards its commands without completion, takes its queues away
and disables it; its Error Information log stays. An NVM Subsystem Reset disables every controller. An ATS invalidation removes
exactly the translation that it names (R41, R45, R65, R348, R422). -/
def Obligations.ControllersAreEnabledAndReset : Prop :=
  (∀ (c : Nat) (cc : CtrlConfig) (s : State), cc.ctrl = c → s.held = false → s.ctrlExists c = true → (s.ctrl c).en = false →
      s.flrOn c = false →
    Completes (.controllerEnable cc) s fun t => (t.ctrl c).en = true ∧ ((t.ctrl c).sqs.map SubQ.qid) = [0] ∧
      ((t.ctrl c).cqs.map ComQ.qid) = [0] ∧ (s.mayServe c = true → (t.ctrl c).rdy = true) ∧ OnlyChanges [.ctrls, .fresh] s t ∧
      (2 ≤ cc.asqSize → cc.asqSize ≤ 4096 → (t.ctrl c).sqs.map SubQ.size = [cc.asqSize]) ∧
      (2 ≤ cc.acqSize → cc.acqSize ≤ 4096 → (t.ctrl c).cqs.map ComQ.size = [cc.acqSize])) ∧
  (∀ (c : Nat) (s : State), (s.ctrl c).en = true → s.flrOn c = false → (c ≠ 1 ∨ s.start.minimalCommit = false ∧ s.nvm.slots.next = none) →
    Completes (.controllerDisable c) s fun t => (t.ctrl c).en = false ∧ (t.ctrl c).rdy = false ∧ (t.ctrl c).sqs = [] ∧
      (t.ctrl c).cqs = [] ∧ (∀ x ∈ t.inflight, x.hdr.ctrl ≠ c) ∧ (t.ctrl c).errLog = (s.ctrl c).errLog ∧
      ∀ d, d ≠ c → t.ctrl d = s.ctrl d) ∧
  (∀ s : State, s.held = false → s.dumping = false → s.start.minimalCommit = false →
    Completes .nvmSubsystemReset s fun t => ∀ c, (t.ctrl c).en = false ∧ (t.ctrl c).sqs = [] ∧ (t.ctrl c).cqs = []) ∧
  ∀ (fn addr : Nat) (s : State),
    Completes (.atsInvalidate fn addr) s fun t => OnlyChanges [.ats] s t ∧ (fn, addr) ∉ t.ats ∧
      ∀ p, p ≠ (fn, addr) → (p ∈ t.ats ↔ p ∈ s.ats)

/-- A Function Level Reset of a virtual function raises GENERATION of its instance by 1, whether the instance is there or not, shows the
reset in progress on its port, and clears SAVED of a frozen tenant. Of a physical function, it disables the controller at once, with its
queues, MSI-X table and translations gone. When it ends, the flag is clear, FLR_DONE is set, and the controller is disabled with
no command, queue, MSI-X entry or translation left. A shutdown makes the slices program every acknowledged version in its scope,
and completes once none is left (R66, R88, R89). -/
def Obligations.FunctionLevelResetsRunInTheirSteps : Prop :=
  (∀ (c : Nat) (s : State), s.held = false → s.ctrlExists c = true → isPf c = false →
    Completes (.functionLevelReset c) s fun t => t.flrOn c = true ∧
      t.rd (Adr.fnTiGen (ctrlFn c - 1)) = s.rd (Adr.fnTiGen (ctrlFn c - 1)) + 1 ∧
      (∀ x, s.tenant (ctrlFn c - 1) = some x → x.state = .frozen → (t.tenant (ctrlFn c - 1)).map Tenant.saved = some false) ∧
      RegsBut [Adr.fnTiGen (ctrlFn c - 1)] s t ∧ OnlyChanges [.regs, .ctrls, .tenants] s t) ∧
  (∀ (c : Nat) (s : State), s.held = false → s.ctrlExists c = true → isPf c = true →
      (c ≠ 1 ∨ s.start.minimalCommit = false ∧ s.nvm.slots.next = none) →
    Completes (.functionLevelReset c) s fun t => (t.ctrl c).en = false ∧ (t.ctrl c).sqs = [] ∧ (t.ctrl c).msix = [] ∧
      (∀ x ∈ t.inflight, x.hdr.ctrl ≠ c) ∧ ∀ p ∈ t.ats, p.1 ≠ c) ∧
  (∀ (c : Nat) (s : State), s.flrOn c = true →
    Completes (.flrComplete c) s fun t => t.flrOn c = false ∧ t.bit Adr.fnEvt 2 = true ∧ (t.ctrl c).en = false ∧
      (t.ctrl c).sqs = [] ∧ (t.ctrl c).msix = [] ∧ (∀ x ∈ t.inflight, x.hdr.ctrl ≠ c) ∧ ∀ p ∈ t.ats, p.1 ≠ c) ∧
  (∀ (c : Nat) (abrupt : Bool) (s : State), s.held = false → (s.ctrl c).en = true → s.flrOn c = false →
    Completes (.shutdown c abrupt) s fun t => (t.ctrl c).shst = 1 ∧ (t.ctrl c).shn = (if abrupt then 2 else 1) ∧
      (∀ x ∈ t.slices, ∀ v ∈ x.versions, v.acked ≠ [] → (isPf c = true ∨ v.writer = ctrlOwner c) → v.trigger = true) ∧
      OnlyChanges [.ctrls, .slices] s t) ∧
  ∀ (c : Nat) (s : State), (s.ctrl c).shst = 1 →
      (∀ x ∈ s.slices, ∀ v ∈ x.versions, v.acked = [] ∨ isPf c = false ∧ v.writer ≠ ctrlOwner c) →
    Completes (.shutdownComplete c) s fun t => (t.ctrl c).shst = 2 ∧ OnlyChanges [.ctrls] s t

/-- A write to an entry of a physical function's MSI-X table, and a masking write to one of a virtual function, gives the entry
its new content; a write that would unmask a vector beyond a virtual function's count is ignored. A command with an unsupported
opcode completes with Invalid Command Opcode, a Tenant Management command of the manager with a reserved ACTION with Invalid Field, and
neither changes anything else (R70, R76, R388). -/
def Obligations.MsiXEntriesAndUnsupportedOpcodes : Prop :=
  (∀ (c v : Nat) (masked : Bool) (addr data : Nat) (s : State), s.held = false → s.ctrlExists c = true → s.flrOn c = false →
      (if isPf c then v < 1025 else v < 257 ∧ masked = true) →
    Completes (.msiXTableWrite c v masked addr data) s fun t => OnlyChanges [.ctrls] s t ∧
      (t.ctrl c).vector v = Msix.mk v masked addr data (((s.ctrl c).vector v).pending && masked)) ∧
  (∀ (c v addr data : Nat) (s : State), isPf c = false → (∀ x, s.tenant (ctrlFn c - 1) = some x → x.vi ≤ v) →
    exec (.msiXTableWrite c v false addr data) s = .next s) ∧
  (∀ (h : Hdr) (opcode action : Nat) (s : State), s.runnable h = true → reservedAction opcode action = false →
    Completes (.unsupportedOpcode h ⟨opcode, action⟩) s fun t => Answered t h (ansSt stOpcode) ∧ OnlyChanges [.inflight] s t) ∧
  ∀ (h : Hdr) (opcode action : Nat) (s : State), ManagerReady s h → h.sq = 0 → reservedAction opcode action = true →
    Completes (.unsupportedOpcode h ⟨opcode, action⟩) s fun t => Answered t h (ansSt stField) ∧ OnlyChanges [.inflight] s t

/-- When a slice that serves the namespace takes a block into its write buffer, that block reads as what was written, and every other block
of its mapping unit reads as it did. A Write of one block that the device accepts completes with success under Cached rules, or
once its version is programmed, and in the next state the block reads as what was written (R13, R56, R58, R60, R106). -/
def Obligations.AWrittenBlockReadsBack : Prop :=
  (∀ (s : State) (x : Namespace) (owner lba : Nat) (d : Block), s.slices.length = 8 → s.nsUp x (x.route lba).1 = true →
    (s.writeBlock x owner lba d).2.readLba x lba = .ok d ∧
      ∀ k, k ≠ lba → (s.place x k).1 = (s.place x lba).1 → (s.place x k).2.1 = (s.place x lba).2.1 →
        (s.place x k).2.2 ≠ (s.place x lba).2.2 → (s.writeBlock x owner lba d).2.readLba x k = s.readLba x k) ∧
  ∀ (h : Hdr) (nsid lba : Nat) (d : Block) (fua : Bool) (s : State) (x : Namespace), s.slices.length = 8 →
      Serves s h nsid x .block → Reaches s h x lba 1 → Accepts s h x fua [lba] →
    Completes (.write h nsid lba [d] fua) s fun t => Written t h ∧ t.readLba x lba = .ok d

/-- For a block namespace attached to the controller, with no overlapping command of the queue before it: a Read of up
to 256 blocks returns every block as it reads, and fails at the lowest block that fails; a Compare of up to 256 blocks succeeds
when every block is equal, and fails with Compare Failure at the first block when that one differs; a Verify of readable blocks
succeeds; Write and Copy that the device accepts succeed. Their completions wait for the flash reads made for them, and those of Write and
Copy for the programs that Through rules ask for. Read and Verify leave namespaces, the NVM and every tenant as they
were (R48, R54, R55, R56, R60, R421). -/
def Obligations.BlockCommandsComplete : Prop :=
  (∀ (h : Hdr) (nsid slba nlb : Nat) (s : State) (x : Namespace), Serves s h nsid x .block → nlb ≤ 256 → Reaches s h x slba nlb →
    Completes (.read h nsid slba nlb) s fun t => t.namespaces = s.namespaces ∧ t.nvm = s.nvm ∧ t.tenants = s.tenants ∧
      ∃ a bs, Reading t h a ∧ a.data = .blocks bs ∧ bs.length = nlb ∧
        (∀ k b, k < nlb → s.readLba x (slba + k) = .ok b → bs[k]? = some (some b)) ∧
        ((∀ k, k < nlb → ∃ b, s.readLba x (slba + k) = .ok b) → a.status = stOk) ∧
        ∀ k st, k < nlb → (∀ j, j < k → ∃ b, s.readLba x (slba + j) = .ok b) → s.readLba x (slba + k) = .fail st →
          a.status = st ∧ a.lba = slba + k) ∧
  (∀ (h : Hdr) (nsid slba : Nat) (data : List Block) (s : State) (x : Namespace), Serves s h nsid x .block →
      data.length ≤ 256 → Reaches s h x slba data.length →
    Completes (.compare h nsid slba data) s fun t =>
      ((∀ k b, data[k]? = some b → s.readLba x (slba + k) = .ok b) → Reading t h (ansSt stOk)) ∧
      ∀ b c l, data = b :: l → s.readLba x slba = .ok c → c ≠ b → Reading t h (ansAt stCompare nsid slba)) ∧
  (∀ (h : Hdr) (nsid slba nlb : Nat) (s : State) (x : Namespace), Serves s h nsid x .block → Reaches s h x slba nlb →
      (∀ k, k < nlb → ∃ b, s.readLba x (slba + k) = .ok b) →
    Completes (.verify h nsid slba nlb) s fun t => Reading t h (ansSt stOk) ∧ t.namespaces = s.namespaces ∧ t.nvm = s.nvm ∧
      t.tenants = s.tenants) ∧
  (∀ (h : Hdr) (nsid slba : Nat) (data : List Block) (fua : Bool) (s : State) (x : Namespace), Serves s h nsid x .block →
      data.length ≤ 256 → Reaches s h x slba data.length →
      Accepts s h x fua ((List.range data.length).map fun k => slba + k) →
    Completes (.write h nsid slba data fua) s fun t => Written t h) ∧
  ∀ (h : Hdr) (nsid sdlba : Nat) (sources : List CopySource) (fua : Bool) (s : State) (x : Namespace),
      Serves s h nsid x .block → sources.length ≤ 128 → (∀ r ∈ sources, r.nsid = nsid ∧ r.slba + r.nlb ≤ x.size) →
      sdlba + (sources.map CopySource.nlb).sum ≤ x.size →
      s.behind h ((sdlba, (sources.map CopySource.nlb).sum) :: sources.map (fun r => (r.slba, r.nlb)) |>.map fun r => (x.nsid, r.1, r.2)) = false →
      Accepts s h x fua ((List.range (sources.map CopySource.nlb).sum).map fun k => sdlba + k) →
      (∀ r ∈ sources, ∀ k, k < r.nlb → ∃ b, s.readLba x (r.slba + k) = .ok b) →
    Completes (.copy h nsid 0 sdlba sources fua) s fun t => Copied t h

/-- A unit that Write Zeroes or Deallocate covers wholly reads as zeros afterwards, and no block of it is in a deferred-fault
range. Write Zeroes of an accepted range succeeds whatever DEAC says, and every block of the range then reads as zeros; Dataset Management
succeeds, and with Deallocate, on a namespace that is not read-only and whose slices serve, every unit that the ranges cover wholly then
reads as zeros, while without it no mapping changes. A Flush, of one namespace or with NSID 0xFFFF_FFFF of every attached one, marks for
programming every version that holds data acknowledged before it was fetched, succeeds, and waits exactly for those; where a slice of
a local namespace does not serve it (for LUN sets: log entry 56), it fails with Slice Offline (R48, R57, R63, R102, R134, R384). -/
def Obligations.ZeroesDeallocateAndFlush : Prop :=
  (∀ (s : State) (x : Namespace) (lba k : Nat) (e : Entry), e = .zero ∨ e = .unmapped → s.slices.length = 8 →
      s.nsUp x (x.route lba).1 = true → (s.place x k).1 = (s.place x lba).1 → (s.place x k).2.1 = (s.place x lba).2.1 →
      lba - (s.place x lba).2.2 ≤ k → k < lba - (s.place x lba).2.2 + s.mu (x.route lba).1 →
    (s.clearUnit x lba e).readLba x k = .ok 0 ∧ (s.clearUnit x lba e).faulted x.nsid k = false) ∧
  (∀ (h : Hdr) (nsid slba nlb : Nat) (deac fua : Bool) (s : State) (x : Namespace), s.slices.length = 8 → Serves s h nsid x .block →
      nlb ≤ 65536 → Reaches s h x slba nlb → s.readOnlyNs x = false →
      s.mayWrite h x fua (((List.range nlb).map fun k => slba + k).filter fun l =>
        !s.unitCovered x l fun b => decide (slba ≤ b) && decide (b < slba + nlb)) = true →
      (∀ k, k < nlb → s.nsUp x (x.route (slba + k)).1 = true) →
    Completes (.writeZeroes h nsid slba nlb deac fua) s fun t => Written t h ∧ ∀ k, k < nlb → t.readLba x (slba + k) = .ok 0) ∧
  (∀ (h : Hdr) (nsid : Nat) (ad : Bool) (ranges : List (Nat × Nat)) (s : State) (x : Namespace), s.slices.length = 8 →
      Serves s h nsid x .block → (∀ r ∈ ranges, r.1 + r.2 ≤ x.size) → s.behind h (ranges.map fun r => (x.nsid, r.1, r.2)) = false →
      (∀ r ∈ ranges, ∀ k, k < r.2 → s.nsUp x (x.route (r.1 + k)).1 = true) →
    Completes (.datasetManagement h nsid ad ranges) s fun t => Answered t h (ansSt stOk) ∧
      (ad = false → t.slices = s.slices ∧ t.nvm = s.nvm) ∧
      (ad = true → s.readOnlyNs x = false → ∀ l, (∃ r ∈ ranges, r.1 ≤ l ∧ l < r.1 + r.2) →
        s.unitCovered x l (fun b => ranges.any fun r => decide (r.1 ≤ b) && decide (b < r.1 + r.2)) = true → t.readLba x l = .ok 0)) ∧
  (∀ (h : Hdr) (nsid : Nat) (s : State) (x : Namespace) (y : InFlight), nsid ≠ 0xFFFFFFFF → s.inFlight h = some y →
      Serves s h nsid x x.kind → (x.desc.placement = 0 → ∀ p ∈ x.parts, s.nsUp x p.slice = true) →
    Completes (.flush h nsid) s fun t => Flushes s t h [nsid] y ∧ OnlyChanges [.inflight, .slices] s t) ∧
  (∀ (h : Hdr) (s : State) (y : InFlight), s.inFlight h = some y → s.runnable h = true →
    Completes (.flush h 0xFFFFFFFF) s fun t =>
      Flushes s t h ((s.namespaces.filter fun x => x.attached h.ctrl).map Namespace.nsid) y ∧ OnlyChanges [.inflight, .slices] s t) ∧
  ∀ (h : Hdr) (nsid : Nat) (s : State) (x : Namespace) (p : NsPart), nsid ≠ 0xFFFFFFFF → Serves s h nsid x x.kind →
      x.desc.placement = 0 → p ∈ x.parts → s.nsUp x p.slice = false →
    Completes (.flush h nsid) s fun t => Answered t h (ansAt stOffline nsid 0) ∧ OnlyChanges [.inflight] s t

/-- Outside minimal mode, creating an I/O completion or submission queue with a free identifier, within the allotment of queue
pairs, of 2 to 65,536 entries, on a vector that the controller has or a completion queue that exists, makes an empty queue of
that shape and completes with success. Deleting a submission queue removes it and completes each of its fetched commands that is
not dispatched with Command Aborted due to SQ Deletion; deleting a completion queue that no submission queue uses removes it.
Other controllers stay as they were (R44, R45, R70, R78). -/
def Obligations.QueuesAreCreatedAndDeleted : Prop :=
  (∀ (h : Hdr) (qid size base vector : Nat) (s : State), AdminReady s h → qid ≠ 0 → (∀ q ∈ (s.ctrl h.ctrl).cqs, q.qid ≠ qid) →
      s.overPairs h.ctrl (max ((s.ctrl h.ctrl).sqs.filter fun q => q.qid != 0).length
        (((s.ctrl h.ctrl).cqs.filter fun q => q.qid != 0).length + 1)) = false →
      2 ≤ size → size ≤ 65536 → vector < s.vectors h.ctrl →
    Completes (.createIoCompletionQueue h qid size vector ⟨base, true⟩) s fun t => Answered t h (ansSt stOk) ∧
      recGet ComQ.qid (t.ctrl h.ctrl).cqs qid = some (ComQ.mk qid size base vector 0 0 true []) ∧
      (∀ c, c ≠ h.ctrl → t.ctrl c = s.ctrl c) ∧ OnlyChanges [.ctrls, .inflight] s t) ∧
  (∀ (h : Hdr) (qid size base cqid prio : Nat) (s : State), AdminReady s h → qid ≠ 0 → (∀ q ∈ (s.ctrl h.ctrl).sqs, q.qid ≠ qid) →
      s.overPairs h.ctrl (max (((s.ctrl h.ctrl).sqs.filter fun q => q.qid != 0).length + 1)
        ((s.ctrl h.ctrl).cqs.filter fun q => q.qid != 0).length) = false →
      2 ≤ size → size ≤ 65536 → cqid ≠ 0 → (∃ q ∈ (s.ctrl h.ctrl).cqs, q.qid = cqid) →
    Completes (.createIoSubmissionQueue h qid size cqid prio ⟨base, true⟩) s fun t => Answered t h (ansSt stOk) ∧
      recGet SubQ.qid (t.ctrl h.ctrl).sqs qid = some (SubQ.mk qid size base cqid prio 0 0 none) ∧
      (∀ c, c ≠ h.ctrl → t.ctrl c = s.ctrl c) ∧ OnlyChanges [.ctrls, .inflight] s t) ∧
  (∀ (h : Hdr) (qid : Nat) (s : State), AdminReady s h → qid ≠ 0 → (∃ q ∈ (s.ctrl h.ctrl).sqs, q.qid = qid) →
    Completes (.deleteIoSubmissionQueue h qid) s fun t => Answered t h (ansSt stOk) ∧
      (∀ q ∈ (t.ctrl h.ctrl).sqs, q.qid ≠ qid) ∧
      (∀ g : Hdr, g ≠ h → g.ctrl = h.ctrl → g.sq = qid → s.undispatched g = true → Answered t g (ansSt stSqDeleted)) ∧
      (∀ g : Hdr, g ≠ h → g.ctrl ≠ h.ctrl ∨ g.sq ≠ qid → t.inFlight g = s.inFlight g) ∧ OnlyChanges [.ctrls, .inflight] s t) ∧
  ∀ (h : Hdr) (qid : Nat) (s : State), AdminReady s h → qid ≠ 0 → (∃ q ∈ (s.ctrl h.ctrl).cqs, q.qid = qid) →
      (∀ q ∈ (s.ctrl h.ctrl).sqs, q.cqid ≠ qid) →
    Completes (.deleteIoCompletionQueue h qid) s fun t => Answered t h (ansSt stOk) ∧
      (∀ q ∈ (t.ctrl h.ctrl).cqs, q.qid ≠ qid) ∧ OnlyChanges [.ctrls, .inflight] s t

/-- Outside minimal mode: arbitration, interrupt vector configuration, asynchronous event configuration and APST are stored for
the controller and read back; WCE is stored and read back; Number of Queues always answers the allotment. The manager sets
inline compression and durability of a namespace, the latency tolerance of a controller, and PS0 to PS2 for the next bond period
boundary, and each shows in Get Features, in the namespace or in what waits for that boundary; from any other controller these four fail with
Invalid Field and change nothing. A feature that the controller does not have, a power state above PS2 and a controller that does not
exist fail with Invalid Field, and a namespace that does not exist with Invalid Namespace or Format; each changes nothing (R49, R57, R196,
R341, R345, R346). -/
def Obligations.FeaturesReadBackAsSet : Prop :=
  (∀ (h : Hdr) (fid nsid : Nat) (s : State), AdminReady s h →
    Completes (.getFeatures h fid nsid) s fun t => Answered t h (s.feature h.ctrl fid nsid) ∧ OnlyChanges [.inflight] s t) ∧
  (∀ (h : Hdr) (fid value : Nat) (s : State), AdminReady s h → plainFeature fid = true →
    Completes (.setFeatures h fid value) s fun t => Answered t h (ansSt stOk) ∧ t.feature h.ctrl fid 0 = ansDw0 value ∧
      (∀ c, c ≠ h.ctrl → t.ctrl c = s.ctrl c) ∧ OnlyChanges [.ctrls, .inflight, .fresh] s t) ∧
  (∀ (h : Hdr) (value : Nat) (s : State), AdminReady s h →
    Completes (.setFeatures h 0x06 value) s fun t => Answered t h (ansSt stOk) ∧ (t.ctrl h.ctrl).wce = decide (value % 2 = 1) ∧
      OnlyChanges [.ctrls, .inflight] s t) ∧
  (∀ (h : Hdr) (fid value : Nat) (s : State), AdminReady s h → plainFeature fid = false → fid ≠ 0x06 → fid ≠ 0x07 →
    Completes (.setFeatures h fid value) s fun t => Answered t h (ansSt stField) ∧ OnlyChanges [.inflight] s t) ∧
  (∀ (h : Hdr) (value : Nat) (s : State), AdminReady s h →
    Completes (.setFeatures h 0x07 value) s fun t => OnlyChanges [.inflight] s t ∧
      Answered t h (ansDw0 ((s.allotment h.ctrl - 1) * 65537))) ∧
  (∀ (h : Hdr) (wce : Bool) (s : State), AdminReady s h →
    Completes (.setFeaturesVolatileWriteCache h wce) s fun t => Answered t h (ansSt stOk) ∧ (t.ctrl h.ctrl).wce = wce ∧
      t.feature h.ctrl 0x06 0 = ansDw0 (if wce then 1 else 0) ∧ OnlyChanges [.ctrls, .inflight] s t) ∧
  (∀ (h : Hdr) (nsid : Nat) (enable : Bool) (s : State) (x : Namespace), ManagerReady s h → s.ns nsid = some x →
    Completes (.setFeaturesInlineCompression h nsid enable) s fun t => Answered t h (ansSt stOk) ∧
      t.ns nsid = some { x with compress := enable } ∧ (∀ k, k ≠ nsid → t.ns k = s.ns k) ∧
      OnlyChanges [.inflight, .namespaces] s t) ∧
  (∀ (h : Hdr) (nsid : Nat) (through : Bool) (s : State) (x : Namespace), ManagerReady s h → s.ns nsid = some x →
    Completes (.setFeaturesDurability h nsid through) s fun t => Answered t h (ansSt stOk) ∧
      t.ns nsid = some { x with through := through } ∧ (∀ k, k ≠ nsid → t.ns k = s.ns k) ∧
      OnlyChanges [.inflight, .namespaces] s t) ∧
  (∀ (h : Hdr) (c tolerance : Nat) (s : State), ManagerReady s h → s.ctrlExists c = true →
    Completes (.setFeaturesLatencyTolerance h c tolerance) s fun t => Answered t h (ansSt stOk) ∧
      t.ctrl c = { s.ctrl c with latency := tolerance, id := c } ∧ (∀ d, d ≠ c → t.ctrl d = s.ctrl d) ∧
      OnlyChanges [.ctrls, .inflight] s t) ∧
  (∀ (h : Hdr) (ps : Nat) (s : State), ManagerReady s h → ps ≤ 2 →
    Completes (.setFeaturesPowerManagement h ps) s fun t => Answered t h (ansSt stOk) ∧
      t.power = { s.power with opNext := some ps } ∧ OnlyChanges [.inflight, .power] s t) ∧
  (∀ (h : Hdr) (ps c tolerance : Nat) (s : State), ManagerReady s h → 2 < ps → s.ctrlExists c = false →
    ∀ i ∈ [Instr.setFeaturesPowerManagement h ps, .setFeaturesLatencyTolerance h c tolerance],
      ∃ t, exec i s = .next t ∧ Answered t h (ansSt stField) ∧ OnlyChanges [.inflight] s t) ∧
  (∀ (h : Hdr) (nsid : Nat) (b : Bool) (s : State), ManagerReady s h → s.ns nsid = none →
    ∀ i ∈ [Instr.setFeaturesInlineCompression h nsid b, .setFeaturesDurability h nsid b],
      ∃ t, exec i s = .next t ∧ Answered t h (ansSt stNamespace) ∧ OnlyChanges [.inflight] s t) ∧
  ∀ (h : Hdr) (nsid c tolerance ps : Nat) (b : Bool) (s : State), AdminReady s h → h.ctrl ≠ 1 →
    ∀ i ∈ [Instr.setFeaturesInlineCompression h nsid b, .setFeaturesDurability h nsid b, .setFeaturesLatencyTolerance h c tolerance,
        .setFeaturesPowerManagement h ps], ∃ t, exec i s = .next t ∧ Answered t h (ansSt stField) ∧ OnlyChanges [.inflight] s t

/-- Identify Controller succeeds on every controller and reports its identifier, the part's slices, those online, the dual-port
bit and minimal mode. Get Log Page answers every controller with its own Error Information log; the Deferred Write Fault log
gives the manager every entry and others those of their own tenant or physical function; the device logs 0xC0, 0xC2, 0xC3, 0xC4
and 0xC5 succeed for the manager and fail with Invalid Field for any other controller (R52, R64, R137, R319, R357, R375, R422).
-/
def Obligations.IdentifyAndLogsReport : Prop :=
  (∀ (h : Hdr) (cns nsid : Nat) (s : State), s.runnable h = true →
    Completes (.identify h cns nsid) s fun t => Answered t h (s.identify h.ctrl cns nsid) ∧
      OnlyChanges (footprint (.identify h cns nsid)) s t) ∧
  (∀ (h : Hdr) (lid : Nat) (s : State), s.runnable h = true →
    Completes (.getLogPage h lid) s fun t => Answered t h (s.logPage h.ctrl lid).1 ∧
      OnlyChanges (footprint (.getLogPage h lid)) s t) ∧
  (∀ (h : Hdr) (nsid : Nat) (s : State), s.runnable h = true →
    Completes (.identify h 1 nsid) s fun t => ∃ fs, Answered t h (ansData (.fields fs)) ∧ (78, 2, h.ctrl) ∈ fs ∧ (3074, 1, s.part.capSlice % 256) ∈ fs ∧
      (3075, 1, s.slicesOnline) ∈ fs ∧ (3089, 1, if s.dual then 1 else 0) ∈ fs ∧ (3093, 1, if s.minimal then 1 else 0) ∈ fs) ∧
  (∀ (h : Hdr) (s : State), s.runnable h = true →
    Completes (.getLogPage h 1) s fun t => Answered t h (ansData (.fields (s.ctrl h.ctrl).errorLog)) ∧ t.ctrls = s.ctrls) ∧
  (∀ (h : Hdr) (s : State), s.runnable h = true → s.minimal = false →
    Completes (.getLogPage h 0xC1) s fun t => ∃ fs, Answered t h (ansData (.fields fs)) ∧
      ∀ k e, (if h.ctrl = 1 then s.nvm.faults else s.nvm.faults.filter fun f => f.ti == faultTi (ctrlOwner h.ctrl))[k]? = some e →
        (32 * k, 2, e.ti) ∈ fs ∧ (32 * k + 4, 4, e.nsid) ∈ fs ∧ (32 * k + 8, 8, e.slba) ∈ fs ∧ (32 * k + 16, 4, e.nlb) ∈ fs) ∧
  (∀ (h : Hdr) (s : State) (lid : Nat), ManagerReady s h → lid ∈ [0xC0, 0xC2, 0xC3, 0xC4, 0xC5] →
    Completes (.getLogPage h lid) s fun t => Succeeds t h ∧ t.nvm = s.nvm ∧ t.measLog = s.measLog) ∧
  ∀ (h : Hdr) (s : State) (lid : Nat), s.runnable h = true → h.ctrl ≠ 1 → lid ∈ [0xC0, 0xC2, 0xC3, 0xC4, 0xC5] →
    Completes (.getLogPage h lid) s fun t => Answered t h (ansSt stField) ∧ OnlyChanges [.inflight] s t

/-- Outside minimal mode, and with fewer than four Aborts of the controller uncompleted, an Abort of another command of the controller that is
fetched or held completes it with Command Abort Requested and itself with DW0 bit 0 clear; of any other it leaves that command alone and
completes with bit 0 set. With four uncompleted it fails with Abort Command Limit Exceeded. An
Asynchronous Event Request takes the oldest kept event of its controller; with none kept, and fewer held than the limit, it is
held for the next; over the limit, an open constant of the model (log entry 8), it fails with Asynchronous Event Request Limit
Exceeded (R61, R69, R70). -/
def Obligations.AbortsAndEventRequests : Prop :=
  (∀ (h : Hdr) (sqid cid : Nat) (s : State), AdminReady s h → s.abortsOpen h.ctrl < 4 → Hdr.mk h.ctrl sqid cid ≠ h →
      s.undispatched (Hdr.mk h.ctrl sqid cid) = true →
    Completes (.abort h sqid cid) s fun t => Answered t (Hdr.mk h.ctrl sqid cid) (ansSt stAborted) ∧ Answered t h (ansDw0 0) ∧
      (∀ g, g ≠ h → g ≠ Hdr.mk h.ctrl sqid cid → t.inFlight g = s.inFlight g) ∧ OnlyChanges [.inflight] s t) ∧
  (∀ (h : Hdr) (sqid cid : Nat) (s : State), AdminReady s h → s.abortsOpen h.ctrl < 4 →
      Hdr.mk h.ctrl sqid cid = h ∨ s.undispatched (Hdr.mk h.ctrl sqid cid) = false →
    Completes (.abort h sqid cid) s fun t => Answered t h (ansDw0 1) ∧ (∀ g, g ≠ h → t.inFlight g = s.inFlight g) ∧
      OnlyChanges [.inflight] s t) ∧
  (∀ (h : Hdr) (sqid cid : Nat) (s : State), AdminReady s h → 4 ≤ s.abortsOpen h.ctrl →
    Completes (.abort h sqid cid) s fun t => Answered t h (ansSt stAbortLimit) ∧ (∀ g, g ≠ h → t.inFlight g = s.inFlight g) ∧
      OnlyChanges [.inflight] s t) ∧
  (∀ (h : Hdr) (e : AsyncEvent) (l : List AsyncEvent) (s : State), AdminReady s h → (s.ctrl h.ctrl).events = e :: l →
    Completes (.asynchronousEventRequest h) s fun t => Answered t h (ansDw0 (e.etype + e.info * 256 + e.log * 65536)) ∧
      (t.ctrl h.ctrl).events = l ∧ OnlyChanges [.ctrls, .inflight] s t) ∧
  ∀ (h : Hdr) (s : State), AdminReady s h → (s.ctrl h.ctrl).events = [] →
    Completes (.asynchronousEventRequest h) s fun t => OnlyChanges [.inflight] s t ∧
      if s.heldRequests h.ctrl ≤ Config.aerl then ∃ a, standing t h = some (.held, a, [.event])
      else Answered t h (ansSt stAerLimit)

/-- The manager creates a namespace of any kind where every check passes and every slice it occupies has room: the completion
gives a free NSID of 1 to 4,096, and the namespace has that size and kind, no key slot and no attachment. Attaching and detaching change
the attachment of exactly the physical functions and the instances of the controllers listed, and nothing is changed of other namespaces.
Deleting one, or all with NSID 0xFFFF_FFFF, removes it, its deferred-fault ranges and its pending faults (R10, R51, R63, R73, R188). -/
def Obligations.NamespacesAreCreatedAttachedAndDeleted : Prop :=
  (∀ (h : Hdr) (csi nsze flbas : Nat) (desc : CreateDesc) (s : State) (k : NsKind), ManagerReady s h → kindOf csi = some k →
      nsze ≠ 0 → (k = .block → flbas = 0) → (k = .memory → nsze % 512 = 0) → s.descOk k (s.descOf k desc) = true →
      s.fifthProfile k (s.descOf k desc) = false →
      (∀ n ∈ s.newSlices (s.descOf k desc), (s.newPart? n k (s.descOf k desc)
        (shareBlocks k (s.descOf k desc).placement nsze (s.newSlices (s.descOf k desc)).length)).isSome = true) →
      (∃ i, i < 4096 ∧ ∀ y ∈ s.namespaces, y.nsid ≠ i + 1) →
    Completes (.namespaceCreate h csi nsze nsze flbas desc) s fun t => ∃ nsid x, 0 < nsid ∧ nsid ≤ 4096 ∧ s.ns nsid = none ∧
      Answered t h (ansDw0 nsid) ∧ t.ns nsid = some x ∧ x.kind = k ∧ x.size = nsze ∧ x.slot = none ∧ x.attachedTis = [] ∧
      x.attachedPfs = [] ∧ x.parts.length = (s.newSlices (s.descOf k desc)).length ∧ ∀ m, m ≠ nsid → t.ns m = s.ns m) ∧
  (∀ (h : Hdr) (nsid : Nat) (ctrls : List Nat) (s : State) (x : Namespace), ItsTurn s h → s.ns nsid = some x → ctrls ≠ [] →
      s.listOk ctrls = true → (∀ c ∈ ctrls, x.attached c = false) →
      (∀ c ∈ ctrls, if isPf c then s.mayAttachPf x = true else ∃ y, s.tenant (ctrlOwner c) = some y ∧ s.mayAttachTi y x = true) →
      (x.kind = .memory → ∀ c ∈ ctrls, ∀ d ∈ ctrls, ctrlOwner c = ctrlOwner d) →
    Completes (.namespaceAttach h nsid ctrls) s fun t => Answered t h (ansSt stOk) ∧
      (∀ m, m ≠ nsid → t.ns m = s.ns m) ∧ ∃ y, t.ns nsid = some y ∧ y.size = x.size ∧ y.slot = x.slot ∧ y.parts = x.parts ∧
        (∀ c ∈ ctrls, y.attached c = true) ∧ (∀ c, x.attached c = true → y.attached c = true) ∧
        ∀ c, y.attached c = true → x.attached c = true ∨ ∃ d ∈ ctrls, d = c ∨ isPf c = false ∧ isPf d = false ∧ ctrlOwner d = ctrlOwner c) ∧
  (∀ (h : Hdr) (nsid : Nat) (ctrls : List Nat) (s : State) (x : Namespace), ItsTurn s h → s.ns nsid = some x → ctrls ≠ [] →
      s.listOk ctrls = true → (∀ c ∈ ctrls, x.attached c = true) →
    Completes (.namespaceDetach h nsid ctrls) s fun t => Answered t h (ansSt stOk) ∧ OnlyChanges [.inflight, .namespaces] s t ∧
      (∀ m, m ≠ nsid → t.ns m = s.ns m) ∧ ∃ y, t.ns nsid = some y ∧ y.size = x.size ∧ y.slot = x.slot ∧ y.parts = x.parts ∧
        (∀ c ∈ ctrls, y.attached c = false) ∧ (∀ c, y.attached c = true → x.attached c = true) ∧
        ∀ c, x.attached c = true → y.attached c = true ∨ ∃ d ∈ ctrls, d = c ∨ isPf c = false ∧ isPf d = false ∧ ctrlOwner d = ctrlOwner c) ∧
  ∀ (h : Hdr) (nsid : Nat) (s : State), ManagerReady s h → s.named nsid ≠ [] →
    Completes (.namespaceDelete h nsid) s fun t => Answered t h (ansSt stOk) ∧
      (∀ x ∈ s.named nsid, t.ns x.nsid = none ∧ (∀ r ∈ t.nvm.ranges, r.1 ≠ x.nsid) ∧ ∀ p ∈ t.nvm.faultPairs, p.2 ≠ x.nsid) ∧
      ∀ m, (∀ x ∈ s.named nsid, x.nsid ≠ m) → t.ns m = s.ns m

/-- Format NVM of one namespace, or of all with NSID 0xFFFF_FFFF, completes with success. With SES 0b000 or 0b001 every table entry of each
namespace is made UNMAPPED, and it leaves the namespaces and the keys as they are; with SES 0b010, where the DRBG gives output and the bound
slot's generation is not the last, that generation rises by 1 when the slot is not RETIRING, so that every unit stored under the old
generation is invalid; while it is RETIRING the command waits for the slot to be ACTIVE; a namespace without a slot keeps every key as it
is. No deferred-fault range of the namespaces is left. Dropping the entries of a range in a slice makes each UNMAPPED
and leaves no stored unit of the namespace (R48, R63, R113, R184, R185). -/
def Obligations.FormatsEraseWithTheKeyOrTheMap : Prop :=
  (∀ (h : Hdr) (nsid ses : Nat) (s : State), ManagerReady s h → s.named nsid ≠ [] → ses ≤ 1 →
    Completes (.formatNvm h nsid ses 0 0 0) s fun t => Answered t h (ansSt stOk) ∧ t.namespaces = s.namespaces ∧ t.nvm.keys = s.nvm.keys ∧
      ∀ x ∈ s.named nsid, (∀ r ∈ t.nvm.ranges, r.1 ≠ x.nsid) ∧
        ∀ q ∈ x.parts, q.slice < s.slices.length → ∀ i, q.base ≤ i → i < q.base + q.len → (t.slice q.slice).entry i = .unmapped) ∧
  (∀ (h : Hdr) (nsid k : Nat) (s : State) (x : Namespace), ManagerReady s h → nsid ≠ 0xFFFFFFFF → s.ns nsid = some x →
      x.slot = some k → (s.keySlot k).generation < 0xFFFF → s.entropyOk = true →
    Completes (.formatNvm h nsid 2 0 0 0) s fun t => (∀ r ∈ t.nvm.ranges, r.1 ≠ nsid) ∧
      if (s.keySlot k).state = .retiring then
        standing t h = some (.dispatched, ansSt stOk, [.slotActive k]) ∧ t.slotWaits = s.slotWaits ++ [SlotWait.mk k true] ∧
          t.nvm.keys = s.nvm.keys
      else Answered t h (ansSt stOk) ∧ (t.keySlot k).generation = (s.keySlot k).generation + 1 ∧
        ∀ n u, u.keySlot = k → k < 4096 → u.keyGen = (s.keySlot k).generation → t.unitValid n u = false) ∧
  (∀ (h : Hdr) (nsid : Nat) (s : State) (x : Namespace), ManagerReady s h → nsid ≠ 0xFFFFFFFF → s.ns nsid = some x → x.slot = none →
    Completes (.formatNvm h nsid 2 0 0 0) s fun t => Answered t h (ansSt stOk) ∧ (∀ r ∈ t.nvm.ranges, r.1 ≠ nsid) ∧
      t.nvm.keys = s.nvm.keys) ∧
  ∀ (s : State) (n i : Nat) (q : NsPart) (nsid : Nat), n < s.slices.length → q.base ≤ i → i < q.base + q.len →
    ((s.dropEntries n q nsid).slice n).entry i = .unmapped ∧ ∀ u ∈ ((s.dropEntries n q nsid).slice n).units, u.nsid ≠ nsid

/-- A CREATE, RESIZE or SET_MODE that passes its checks waits for the next bond period boundary; one that commits the shadow
banks also requests the commit, and fails with BOND_CHECK while one is pending. SET_MODE always commits. When the boundary
comes, a created tenant is OFFLINE with its descriptor and a full wear allowance, a resized one has the fields marked in VALID,
and a changed mode is the new one (R74, R77, R79, R82, R83, R419). -/
def Obligations.DivisionsWaitForTheirBoundary : Prop :=
  (∀ (h : Hdr) (ti : Nat) (m : Bool) (d : TenantDesc) (s : State), ItsTurn s h → ti < 256 → s.tiState ti = .absent → s.flrOf ti = false →
      s.divisionFails d allFields none (tenantOf ti m d) (s.floorSlices ti) = none →
    Completes (.create h ti m d) s fun t => WaitsForBoundary s t h (.create ti m d) (d.flags.testBit 0)) ∧
  (∀ (h : Hdr) (ti : Nat) (d : TenantDesc) (s : State) (x : Tenant), ItsTurn s h → ti < 256 → s.tenant ti = some x → x.state ≠ .frozen →
      x.state ≠ .absent → s.flrOf ti = false →
      s.divisionFails d d.valid (some x) (x.give d d.valid) (s.floorSlices ti) = none →
    Completes (.resize h ti d) s fun t => WaitsForBoundary s t h (.resize ti d) (d.flags.testBit 0)) ∧
  (∀ (h : Hdr) (ti : Nat) (m : Bool) (s : State) (x : Tenant), ItsTurn s h → ti < 256 → s.tenant ti = some x →
      x.state = .offline ∨ x.state = .quiesced → s.flrOf ti = false →
      (m = true → x.lunsets ≠ 0 ∧ ∀ y ∈ s.namespaces, ti ∉ y.attachedTis) →
    Completes (.setMode h ti m) s fun t => WaitsForBoundary s t h (.setMode ti m) true) ∧
  (∀ (ti : Nat) (m : Bool) (d : TenantDesc) (s : State),
    ∃ x, (s.applyAct (.create ti m d)).1.tenant ti = some x ∧ x.state = .offline ∧ x.isSealed = m ∧ x.wbq = d.wbq ∧ x.ctxq = d.ctxq ∧
      x.wiq = d.wiq ∧ x.dgMask = d.dgMask ∧ x.keyBase = d.keyBase ∧ x.keyCount = d.keyCount ∧ x.lunsets = d.lunsets ∧
      x.wearBurst = d.wearBurst ∧ x.wearRate = d.wearRate ∧ x.allowance = d.wearBurst) ∧
  (∀ (ti : Nat) (m : Bool) (s : State) (x : Tenant), s.tenant ti = some x →
    (s.applyAct (.setMode ti m)).1.tenant ti = some { x with isSealed := m }) ∧
  ∀ (ti : Nat) (d : TenantDesc) (s : State) (x : Tenant), s.tenant ti = some x →
    ∃ y, (s.applyAct (.resize ti d)).1.tenant ti = some y ∧ y.state = x.state ∧
      y.wbq = (if d.valid.testBit 0 then d.wbq else x.wbq) ∧ y.ctxq = (if d.valid.testBit 1 then d.ctxq else x.ctxq) ∧
      y.wiq = (if d.valid.testBit 2 then d.wiq else x.wiq) ∧ y.dgMask = (if d.valid.testBit 3 then d.dgMask else x.dgMask) ∧
      y.keyBase = (if d.valid.testBit 4 then d.keyBase else x.keyBase) ∧ y.keyCount = (if d.valid.testBit 4 then d.keyCount else x.keyCount) ∧
      y.wearBurst = (if d.valid.testBit 5 then d.wearBurst else x.wearBurst) ∧
      y.wearRate = (if d.valid.testBit 5 then d.wearRate else x.wearRate) ∧ y.lunsets = (if d.valid.testBit 6 then d.lunsets else x.lunsets)

/-- QUIESCE of an ONLINE tenant and RESUME of a QUIESCED or FROZEN one take effect, and complete, at the next course boundary; a
QUIESCING tenant with nothing in flight and no work becomes QUIESCED and raises its event; FREEZE takes a QUIESCED tenant to
FROZEN; RESET disables both controllers of a QUIESCED, FROZEN or OFFLINE tenant, raises its GENERATION by 1 and clears SAVED. Secondary
Controller Online brings an OFFLINE tenant ONLINE, and Offline takes a QUIESCED one OFFLINE with its controllers reset; Assign
gives it its queue pairs and vectors. On an ONLINE tenant FREEZE, RESET, REMOVE and Secondary Controller Offline fail with
NOT_QUIESCED. While a change of the tenant's state waits for its boundary the three Virtualization Management commands wait in the hub (the
model's own: log entry 20) (R74, R78, R79, R85, R86, R87, R93). -/
def Obligations.TenantsMoveBetweenTheirStates : Prop :=
  (∀ (h : Hdr) (ti : Nat) (s : State) (x : Tenant), ItsTurn s h → ti < 256 → s.tenant ti = some x → s.flrOf ti = false → x.state = .online →
    Completes (.quiesce h ti) s fun t => standing t h = some (.dispatched, ansSt stOk, [.course (s.now + 1)]) ∧
      t.tenant ti = some { x with next := some (s.now + 1, .quiescing) } ∧ OnlyChanges [.inflight, .tenants] s t) ∧
  (∀ (h : Hdr) (ti : Nat) (s : State) (x : Tenant), ItsTurn s h → ti < 256 → s.tenant ti = some x → s.flrOf ti = false →
      x.state = .quiesced ∨ x.state = .frozen →
    Completes (.resume h ti) s fun t => standing t h = some (.dispatched, ansSt stOk, [.course (s.now + 1)]) ∧
      t.tenant ti = some { x with next := some (s.now + 1, .online) } ∧ OnlyChanges [.inflight, .tenants] s t) ∧
  (∀ (s : State) (x : Tenant) (st : TiState), s.tenant x.ti = some x → x.next = some (s.now, st) → st ≠ .online →
    (s.turnTenant x).tenant x.ti = some { x with state := st, next := none }) ∧
  (∀ (ti : Nat) (s : State) (x : Tenant), s.tenant ti = some x → x.state = .quiescing → s.inflightOf ti = 0 → s.workOf ti = 0 →
    Completes (.quiescedReached ti) s fun t => t.tenant ti = some { x with state := .quiesced } ∧ t.bit Adr.fnEvt 1 = true ∧
      RegsBut [Adr.fnEvt] s t ∧ OnlyChanges [.regs, .tenants] s t) ∧
  (∀ (h : Hdr) (ti : Nat) (s : State) (x : Tenant), ItsTurn s h → ti < 256 → s.tenant ti = some x → s.flrOf ti = false → x.state = .quiesced →
    Completes (.freeze h ti) s fun t => Answered t h (ansSt stOk) ∧ t.tenant ti = some { x with state := .frozen } ∧
      OnlyChanges [.inflight, .tenants] s t) ∧
  (∀ (h : Hdr) (ti : Nat) (s : State) (x : Tenant), ItsTurn s h → ti < 256 → s.tenant ti = some x → s.flrOf ti = false →
      x.state = .quiesced ∨ x.state = .frozen ∨ x.state = .offline →
    Completes (.reset h ti) s fun t => Answered t h (ansSt stOk) ∧
      t.rd (Adr.fnTiGen ti) = s.rd (Adr.fnTiGen ti) + 1 ∧ (t.tenant ti).map Tenant.saved = some false ∧
      ∀ c ∈ s.ctrlsOf ti, (t.ctrl c).en = false ∧ (t.ctrl c).sqs = [] ∧ (t.ctrl c).cqs = []) ∧
  (∀ (h : Hdr) (c : Nat) (s : State) (x : Tenant), ManagerReady s h → s.ctrlExists c = true → isPf c = false →
      s.tenant (ctrlFn c - 1) = some x → x.next = none → x.state = .offline →
    Completes (.secondaryControllerOnline h c) s fun t => Answered t h (ansSt stOk) ∧
      t.tenant (ctrlFn c - 1) = some { x with state := .online } ∧ OnlyChanges [.ctrls, .inflight, .tenants] s t) ∧
  (∀ (h : Hdr) (c : Nat) (s : State) (x : Tenant), ManagerReady s h → s.ctrlExists c = true → isPf c = false →
      s.tenant (ctrlFn c - 1) = some x → x.next = none → x.state = .quiesced →
    Completes (.secondaryControllerOffline h c) s fun t => Answered t h (ansSt stOk) ∧
      t.tenant (ctrlFn c - 1) = some { x with state := .offline } ∧ ∀ d ∈ s.ctrlsOf (ctrlFn c - 1), (t.ctrl d).en = false) ∧
  (∀ (h : Hdr) (c count : Nat) (s : State) (x : Tenant), ManagerReady s h → s.ctrlExists c = true → isPf c = false →
      s.tenant (ctrlFn c - 1) = some x → x.next = none → x.state ≠ .frozen → x.state ≠ .absent →
    (count ≤ 256 → s.pairsOf (ctrlFn c - 1) ≤ count → count ≤ s.pairsLeft (ctrlFn c - 1) →
      Completes (.secondaryControllerAssign h c .vq count) s fun t => Answered t h (ansSt stOk) ∧
        t.tenant (ctrlFn c - 1) = some { x with vq := count }) ∧
    (count ≤ 257 → s.vectorUsed (ctrlFn c - 1) count = false →
      Completes (.secondaryControllerAssign h c .vi count) s fun t => Answered t h (ansSt stOk) ∧
        t.tenant (ctrlFn c - 1) = some { x with vi := count })) ∧
  (∀ (h : Hdr) (c : Nat) (s : State) (x : Tenant), ManagerReady s h → s.ctrlExists c = true → isPf c = false →
      s.tenant (ctrlFn c - 1) = some x → x.next = none → x.state = .online →
    Completes (.secondaryControllerOffline h c) s fun t => Answered t h (ansReason stSequence 2) ∧ OnlyChanges [.inflight] s t) ∧
  (∀ (h : Hdr) (c count : Nat) (res : AssignRes) (s : State) (x : Tenant), ManagerReady s h → s.ctrlExists c = true → isPf c = false →
      s.tenant (ctrlFn c - 1) = some x → x.next.isSome = true →
    ∀ i ∈ [Instr.secondaryControllerOnline h c, .secondaryControllerOffline h c, .secondaryControllerAssign h c res count],
      ∃ t, exec i s = .next t ∧ (∃ a, standing t h = some (.held, a, [.room])) ∧ OnlyChanges [.inflight] s t) ∧
  ∀ (h : Hdr) (ti : Nat) (s : State) (x : Tenant), ItsTurn s h → ti < 256 → s.tenant ti = some x → s.flrOf ti = false → x.state = .online →
    ∀ i ∈ [Instr.freeze h ti, .reset h ti, .remove h ti false, .remove h ti true],
      ∃ t, exec i s = .next t ∧ Answered t h (ansReason stSequence 2) ∧ OnlyChanges [.inflight] s t

/-- A REMOVE of a QUIESCED, FROZEN or OFFLINE tenant that no SLOT entry of the active table names, and that is still SAVED where
MIGRATED is given, makes the tenant ABSENT, leaves no namespace attached to it, and hands its resources to the list that waits
for the next bond period boundary. GET returns the descriptor of the tenant and DEV_WEAR_RATE (its place is log entry 8); of an
ABSENT tenant it gives the descriptor of no resources (the model's choice: log entry 21) (R74, R76, R84, R93). -/
def Obligations.RemoveTakesTheTenantAway : Prop :=
  (∀ (h : Hdr) (ti : Nat) (migrated : Bool) (s : State) (x : Tenant), ItsTurn s h → ti < 256 → s.tenant ti = some x →
      s.flrOf ti = false → x.state = .quiesced ∨ x.state = .frozen ∨ x.state = .offline → (migrated = true → x.saved = true) →
      s.slotNames ti = false →
    Completes (.remove h ti migrated) s fun t => t.tenant ti = none ∧ t.leaving = s.leaving ++ [x] ∧
      (∀ y ∈ t.namespaces, ti ∉ y.attachedTis) ∧ ∃ cs, standing t h = some (.dispatched, ansSt stOk, cs)) ∧
  ∀ (h : Hdr) (ti : Nat) (s : State), ItsTurn s h → ti < 256 →
    Completes (.get h ti) s fun t => OnlyChanges (footprint (.get h ti)) s t ∧ ∃ fs, Answered t h (ansData (.fields fs)) ∧
      (80, 8, s.wearRateMax) ∈ fs ∧ (∀ x, s.tenant ti = some x → (8, 2, x.wbq) ∈ fs ∧ (24, 4, x.wearRate) ∈ fs ∧ (32, 32, x.lunsets) ∈ fs) ∧
      (s.tenant ti = none → (8, 2, 0) ∈ fs ∧ (32, 32, 0) ∈ fs)

/-- A REMOVE with MIGRATED = 1 of a tenant in a state that allows REMOVE fails with the reason NOT_SAVED when SAVED is 0, and
changes nothing else; when SAVED is 1 it does not fail with that reason (R93). -/
def Obligations.RemovingAnUnsavedSourceFails : Prop :=
  ∀ (h : Hdr) (ti : Nat) (s : State) (x : Tenant), ItsTurn s h → ti < 256 → s.tenant ti = some x → s.flrOf ti = false →
      x.state = .quiesced ∨ x.state = .frozen ∨ x.state = .offline →
    Completes (.remove h ti true) s fun t =>
      if x.saved then ¬ Answered t h (ansReason stSequence 0xC)
      else Answered t h (ansReason stSequence 0xC) ∧ OnlyChanges [.inflight] s t

/-- MIG_RECV takes the oldest message of a session, and on an unused number opens the session as requester with GET_VERSION; a
GET_VERSION sent to an unused number opens it as responder and is answered. SAVE of a FROZEN tenant with no fault pending, in an
established session, returns a blob sealed under a new migration key, which goes to the peer in the session, and sets SAVED.
RESTORE whose checks pass makes the tenant FROZEN; one whose checks fail gives the first reason and leaves the tenants as they were;
whatever its result, the session ends (R76, R90, R91, R92, R186). -/
def Obligations.MigrationSavesAndRestores : Prop :=
  (∀ (h : Hdr) (n : Nat) (s : State) (g : MigSession) (m : SpdmMsg) (l : List SpdmMsg), ItsTurn s h → s.migFree n = true →
      s.mig n = some g → g.outbox = m :: l →
    Completes (.migRecv h n) s fun t => Answered t h (ansData (.spdm m)) ∧ t.mig n = some { g with outbox := l } ∧
      OnlyChanges [.inflight, .migs] s t) ∧
  (∀ (h : Hdr) (n : Nat) (s : State), ItsTurn s h → s.migFree n = true → s.mig n = none →
    (Completes (.migRecv h n) s fun t => Answered t h (ansData (.spdm .getVersion)) ∧
      (t.mig n).map MigSession.requester = some true) ∧
    Completes (.migSend h n .getVersion) s fun t => Answered t h (ansSt stOk) ∧
      (t.mig n).map MigSession.requester = some false ∧ (t.mig n).map MigSession.outbox = some [.response 4 none]) ∧
  (∀ (h : Hdr) (n : Nat) (msg : SpdmMsg) (s : State), ItsTurn s h → s.migFree n = true →
    Completes (.migSend h n msg) s fun t => Answered t h (ansSt stOk) ∧ t.tenants = s.tenants ∧ t.namespaces = s.namespaces) ∧
  (∀ (h : Hdr) (ti n : Nat) (s : State) (x : Tenant) (g : MigSession), ItsTurn s h → ti < 256 → s.tenant ti = some x → s.flrOf ti = false →
      x.state = .frozen → s.mig n = some g → g.established = true → (∀ p ∈ s.nvm.faultPairs, p.1 ≠ ti) → s.entropyOk = true →
    Completes (.save h ti n) s fun t => ∃ b : Blob, Answered t h (ansData (.blob b)) ∧ b.srcTi = ti ∧ b.intact = true ∧
      b.srcId = s.nvm.packageId ∧ b.dstId = g.peerId ∧ b.body = x.desc ∧
      (t.mig n).map MigSession.outbox = some (g.outbox ++ [.migrationKey b.sealKey]) ∧
      (t.tenant ti).map Tenant.saved = some true ∧ (t.keySlot (4121 + n)).state = .empty) ∧
  (∀ (h : Hdr) (ti n : Nat) (b : Blob) (d : TenantDesc) (m : List (Nat × Nat)) (s : State), ItsTurn s h → ti < 256 → s.flrOf ti = false →
      s.tiState ti = .absent → s.restoreFails n b d m (tenantOf ti b.sealedMode d) = none →
    Completes (.restore h ti n b d m) s fun t => Answered t h (ansSt stOk) ∧ t.tiState ti = .frozen ∧ t.mig n = none) ∧
  (∀ (h : Hdr) (ti n : Nat) (b : Blob) (d : TenantDesc) (m : List (Nat × Nat)) (s : State) (k : Nat), ItsTurn s h → ti < 256 →
      s.flrOf ti = false → s.tiState ti = .absent → s.restoreFails n b d m (tenantOf ti b.sealedMode d) = some k →
    Completes (.restore h ti n b d m) s fun t => Answered t h (ansReason (reasonSt k) k) ∧ t.tenants = s.tenants ∧ t.mig n = none) ∧
  ∀ (h : Hdr) (ti n : Nat) (b : Blob) (d : TenantDesc) (m : List (Nat × Nat)) (s : State), ItsTurn s h →
    Completes (.restore h ti n b d m) s fun t => t.mig n = none

/-- GENERATE and IMPORT into a tenant slot that no check refuses raise the slot's generation by 1, give it the USE, make it ACTIVE from
EMPTY and RETIRING from ACTIVE, and restart its write counters in every slice; where a check refuses they fail with its reason (which check
comes first is the model's choice: log entry 61); an IMPORT of
other than 40 bytes, or whose unwrapping fails, changes no slot. ZEROIZE empties an ACTIVE slot that no attached namespace is bound to,
keeps its generation and unbinds it. BIND whose checks pass binds the slot to that namespace alone. IMPORT_KEK in an established DOE session
makes the KEK slot ACTIVE under the next generation. STATUS returns 1,024 slot records. Two courses after RETIRING began, a slot for which
nothing waits is ACTIVE, and no command waits for it (R170, R183, R184, R187, R418, R423). -/
def Obligations.KeysEnterAndLeaveTheirSlots : Prop :=
  (∀ (h : Hdr) (slot use : Nat) (s : State), ItsTurn s h → s.keyRefused slot use = none → s.entropyOk = true →
    Completes (.generate h slot use) s fun t => Answered t h (ansSt stOk) ∧
      (t.keySlot slot).generation = (s.keySlot slot).generation + 1 ∧ (t.keySlot slot).use = use ∧
      (t.keySlot slot).state = (if (s.keySlot slot).state = .empty then .active else .retiring) ∧
      (∀ n, (t.keyCtr n slot).ctr = 0) ∧ ∀ k, k ≠ slot → t.keySlot k = s.keySlot k) ∧
  (∀ (h : Hdr) (slot kek use : Nat) (w : List (BitVec 8)) (s : State), ItsTurn s h → s.keyRefused slot use = none →
      (s.keySlot (4097 + kek % 16)).state ≠ .empty →
    Completes (.importKey h slot kek use w) s fun t =>
      (∀ k, k ≠ slot → t.keySlot k = s.keySlot k) ∧
      match if w.length = 40 then Config.unwrap (s.keySlot (4097 + kek % 16)).key w else none with
      | none => Answered t h (ansReason stField 3) ∧ t.nvm = s.nvm ∧ t.bit Adr.ksEvt 1 = true
      | some v => Answered t h (ansSt stOk) ∧ (t.keySlot slot).key = v ∧ (t.keySlot slot).use = use ∧
          (t.keySlot slot).generation = (s.keySlot slot).generation + 1) ∧
  (∀ (h : Hdr) (slot kek use k : Nat) (w : List (BitVec 8)) (s : State), ItsTurn s h → s.keyRefused slot use = some k →
    ∀ i ∈ [Instr.generate h slot use, .importKey h slot kek use w],
      ∃ t, exec i s = .next t ∧ Answered t h (ansReason (keyStatus k) k) ∧ OnlyChanges [.inflight] s t) ∧
  (∀ (h : Hdr) (slot : Nat) (s : State), ItsTurn s h → slot < 4096 → (s.keySlot slot).state = .active → s.boundAttached slot = false →
    Completes (.zeroize h slot) s fun t => Answered t h (ansSt stOk) ∧ (t.keySlot slot).state = .empty ∧ (t.keySlot slot).key = 0 ∧
      (t.keySlot slot).generation = (s.keySlot slot).generation ∧ (∀ x ∈ t.namespaces, x.slot ≠ some slot) ∧
      ∀ k, k ≠ slot → t.keySlot k = s.keySlot k) ∧
  (∀ (h : Hdr) (slot nsid : Nat) (s : State) (x : Namespace), ItsTurn s h → s.ns nsid = some x → s.bindRefused slot nsid = none →
    Completes (.bind h slot nsid) s fun t => Answered t h (ansSt stOk) ∧ t.ns nsid = some { x with slot := some slot } ∧
      (∀ y ∈ t.namespaces, y.slot = some slot → y.nsid = nsid) ∧ OnlyChanges [.inflight, .namespaces] s t) ∧
  (∀ (h : Hdr) (kek session : Nat) (key : BitVec 256) (s : State), ItsTurn s h → (s.keySlot (4097 + kek % 16)).generation < 0xFFFF →
      s.entropyOk = true → s.doeSession session = true →
    Completes (.importKek h kek session true key) s fun t => Answered t h (ansSt stOk) ∧
      t.keySlot (4097 + kek % 16) = KeySlot.mk .active 2 ((s.keySlot (4097 + kek % 16)).generation + 1) key 0) ∧
  (∀ (h : Hdr) (slot : Nat) (s : State), ItsTurn s h → slot ≤ 4607 →
    Completes (.status h slot) s fun t => t.nvm = s.nvm ∧ ∃ ws, Answered t h (ansData (.words ws)) ∧ ws.length = 1024 ∧
      ∀ i, i < 1024 → ws[i]? = some (if 4160 < slot + i then 0 else (s.keySlot (slot + i)).word)) ∧
  ∀ (slot : Nat) (s : State), (s.keySlot slot).state = .retiring →
    Completes (.slotRetiringEnd slot) s fun t => (∀ x ∈ t.inflight, .slotActive slot ∉ x.conds) ∧
      ((∀ w ∈ s.slotWaits, w.slot ≠ slot) → t.keySlot slot = { s.keySlot slot with state := .active } ∧
        ∀ k, k ≠ slot → t.keySlot k = s.keySlot k)

/-- When a health test fails the DRBG stops, its failure and event bits are set and READY is clear, and GENERATE then fails with
ENTROPY; a retest that passes clears the failure bits and sets READY. An encryption takes the current counter value and leaves
it one higher. A group store starts when one may be made and a record is due; when it ends, each of its records is the
persistent value of its key context, no context waits any more, and the ring has advanced by the pages written (R170, R171,
R172, R186). -/
def Obligations.EntropyAndTheCounterRing : Prop :=
  (∀ s : State, Completes .entropyFail s fun t => t.entropyOk = false ∧ t.bit Adr.ksSts 2 = false ∧ t.bit Adr.ksSts 3 = true ∧
    t.bit Adr.ksSts 4 = true ∧ t.bit Adr.ksEvt 2 = true ∧ RegsBut [Adr.ksSts, Adr.ksEvt] s t ∧ OnlyChanges [.regs, .entropyOk] s t) ∧
  (∀ (h : Hdr) (slot use : Nat) (s : State), ItsTurn s h → s.keyRefused slot use = none → s.entropyOk = false →
    Completes (.generate h slot use) s fun t => Answered t h (ansReason stInternal 6) ∧ OnlyChanges [.inflight] s t) ∧
  (∀ s : State, s.entropyOk = false → Completes (.entropyRetest true) s fun t => t.entropyOk = true ∧ t.bit Adr.ksSts 2 = true ∧
    t.bit Adr.ksSts 3 = false ∧ t.bit Adr.ksSts 4 = false ∧ RegsBut [Adr.ksSts] s t) ∧
  (∀ s : State, s.entropyOk = false → exec (.entropyRetest false) s = .next s) ∧
  (∀ (s : State) (n k : Nat), n < s.slices.length →
    (s.takeCtr n k).1 = (s.keyCtr n k).ctr ∧ ((s.takeCtr n k).2.keyCtr n k).ctr = (s.keyCtr n k).ctr + 1) ∧
  (∀ s : State, s.groupMay = true → s.dueRecords ≠ [] →
    Completes .counterGroupStore s fun t => t.groupRecs = some s.dueRecords ∧ t.groupAt = s.now ∧
      OnlyChanges [.groupAt, .groupRecs] s t) ∧
  ∀ (s : State) (rs : List (Nat × Nat × BitVec 64)), s.groupRecs = some rs →
    Completes .groupStoreDone s fun t => t.groupRecs = none ∧ (∀ x ∈ t.slices, ∀ c ∈ x.counters, c.waiting = false) ∧
      t.nvm.ringPage = (s.nvm.ringPage + (rs.length + 255) / 256) % 1024 ∧
      t.nvm.ringStores = s.nvm.ringStores + (rs.length + 255) / 256 ∧
      ∀ r ∈ rs, (∀ q ∈ rs, q.1 = r.1 → q.2.1 = r.2.1 → q = r) → t.ctrP r.1 r.2.1 = r.2.2.toNat

/-- A Store from the manager or by GO starts when none is BUSY and a token is left: it draws one and is BUSY; with no token it
ends with RATE. While one is BUSY a GO is ignored with its flag set, and a Settings Store is queued. When a Store of a record
that fits ends with enough spare pages, the record holds the tenants as they are under the next sequence number in the other
bank, which becomes current; a record that is too large, or pages that cannot be replaced, leave both banks as they were. A
refill gives a token up to 64 (R363, R364, R365, R367). -/
def Obligations.StoresWriteTheOtherBank : Prop :=
  (∀ (h : Hdr) (s : State), ItsTurn s h → s.storeHdr = none →
    Completes (.settingsStore h) s fun t =>
      if s.nvm.tokens = 0 then Answered t h (ansReason stSequence 2) ∧ t.nvm = s.nvm ∧ t.storeHdr = none ∧
        t.fld Adr.nvStoreSts 3 0 = 2
      else standing t h = some (.dispatched, ansSt stOk, [.store]) ∧ t.storeHdr = some (some h) ∧
        t.nvm.tokens = s.nvm.tokens - 1 ∧ t.bit Adr.nvStoreSts 31 = true ∧ RegsBut [Adr.nvStoreSts] s t) ∧
  (∀ (h : Hdr) (s : State) (o : Option Hdr), ManagerReady s h → s.storeHdr = some o →
    Completes (.settingsStore h) s fun t => standing t h = some (.dispatched, ansSt stOk, [.store]) ∧
      t.storeNext = s.storeNext ++ [h] ∧ OnlyChanges [.inflight, .storeNext] s t) ∧
  (∀ s : State, s.storeHdr = none → s.nvm.tokens ≠ 0 →
    Completes .nvStoreGo s fun t => t.storeHdr = some none ∧ t.nvm = { s.nvm with tokens := s.nvm.tokens - 1 } ∧
      t.bit Adr.nvStoreSts 31 = true ∧ RegsBut [Adr.nvStoreSts] s t) ∧
  (∀ s : State, s.storeHdr = none → s.nvm.tokens = 0 →
    Completes .nvStoreGo s fun t => t.storeHdr = none ∧ t.nvm = s.nvm ∧ t.fld Adr.nvStoreSts 3 0 = 2) ∧
  (∀ (s : State) (o : Option Hdr), s.storeHdr = some o →
    Completes .nvStoreGo s fun t => t.bit Adr.nvStoreSts 30 = true ∧ RegsBut [Adr.nvStoreSts] s t ∧ OnlyChanges [.regs] s t) ∧
  (∀ (bad bytes : Nat) (s : State) (o : Option Hdr), s.storeHdr = some o → bytes ≤ 262144 → bad ≤ s.nvm.spareLeft →
    Completes (.storeDone bad bytes) s fun t => t.nvm.bank = 1 - s.nvm.bank ∧
      t.nvm.record.map StoreRecord.tenants = some s.tenants ∧
      t.nvm.record.map StoreRecord.seq = some ((s.nvm.record.map StoreRecord.seq).getD 0 + 1) ∧
      t.nvm.spareLeft = s.nvm.spareLeft - bad ∧
      (s.storeNext = [] → t.storeHdr = none ∧ t.fld Adr.nvStoreSts 3 0 = 1 ∧ t.bit Adr.nvStoreSts 31 = false ∧
        ∀ h, o = some h → (s.inFlight h).isSome = true → Answered t h (ansReason stOk 1))) ∧
  (∀ (bad bytes : Nat) (s : State) (o : Option Hdr), s.storeHdr = some o → 262144 < bytes ∨ s.nvm.spareLeft < bad →
    Completes (.storeDone bad bytes) s fun t => t.nvm.store0 = s.nvm.store0 ∧ t.nvm.store1 = s.nvm.store1 ∧
      t.nvm.bank = s.nvm.bank ∧
      (s.storeNext = [] → t.storeHdr = none ∧ t.fld Adr.nvStoreSts 3 0 = if 262144 < bytes then 4 else 3)) ∧
  ∀ s : State, Completes .storeTokenRefill s fun t => t.nvm = { s.nvm with tokens := min 64 (s.nvm.tokens + 1), tokenAt := s.nvm.minutes } ∧
    OnlyChanges [.nvm] s t

/-- An OPEN request that passes every check starts a message at its instance; one that fails a check starts none. A data descriptor that keeps
to the block length and to DECL adds its bytes; the FINAL one that reaches exactly DECL delivers the digest of all the bytes to its
destination and frees the instance; one that passes DECL, a FINAL one that falls short, or another that does not keep to the block length,
frees the instance and delivers nothing. A message
that is idle too long is abandoned without a result (R310, R311, R312, R313, R315). -/
def Obligations.DigestsRunFromOpenToDelivery : Prop :=
  (∀ (inst : DgRef) (owner alg : Nat) (hmac : Option Nat) (decl : Nat) (dest : DgDest) (s : State),
      s.digestCheck (dgNo inst) owner alg hmac decl dest = 0 →
    Completes (.digestOpen inst owner alg hmac decl dest) s fun t =>
      t.digestMsg (dgNo inst) = some (DgMsg.mk owner alg hmac decl 0 [] dest) ∧ OnlyChanges [.regs, .digests] s t ∧
      ∀ k, k ≠ dgNo inst → t.digestMsg k = s.digestMsg k) ∧
  (∀ (inst : DgRef) (owner alg : Nat) (hmac : Option Nat) (decl : Nat) (dest : DgDest) (s : State),
      s.digestCheck (dgNo inst) owner alg hmac decl dest ≠ 0 →
    Completes (.digestOpen inst owner alg hmac decl dest) s fun t => t.bit Adr.dgErrSts 31 = true ∧ OnlyChanges [.regs] s t) ∧
  (∀ (inst : DgRef) (data : List (BitVec 8)) (s : State) (m : DgMsg), s.digestMsg (dgNo inst) = some m →
      m.arrived + data.length ≤ m.decl → data.length % digestBlock m.alg = 0 →
    Completes (.digestData inst data false) s fun t =>
      t.digestMsg (dgNo inst) = some { m with arrived := m.arrived + data.length, data := m.data ++ data } ∧
      OnlyChanges [.regs, .digests] s t) ∧
  (∀ (inst : DgRef) (data : List (BitVec 8)) (s : State) (m : DgMsg), s.digestMsg (dgNo inst) = some m →
      m.arrived + data.length = m.decl →
    Completes (.digestData inst data true) s fun t => t.digestMsg (dgNo inst) = none ∧
      let d := Config.digest m.alg (s.digestKey m) (m.data ++ data)
      match m.dest with
      | .buffer p => t.digestOut = some (dgNo inst, p, d)
      | .slm n p => n < s.slices.length → ∀ i b, d[i]? = some b → memGet (t.slice n).slm (p + i) = b
      | .meas ix => ix < s.meas.length →
          if dgNo inst = 16 then
            t.meas[ix]? = some (Config.sha384 (digestBytes ((s.meas[ix]?).getD 0) ++ digestBytes (BitVec.ofNat 384 (leValue d))))
          else t.staged = s.staged ++ [BitVec.ofNat 384 (leValue d)]
      | .keySlot k => t.keySlot k = KeySlot.mk .active 3 ((s.keySlot k).generation + 1) (keyOf d) 0
      | .keyRegister => t.hubKey = keyOf d) ∧
  (∀ (inst : DgRef) (data : List (BitVec 8)) (final : Bool) (s : State) (m : DgMsg), s.digestMsg (dgNo inst) = some m →
      m.decl < m.arrived + data.length ∨ final = true ∧ m.arrived + data.length ≠ m.decl ∨
        final = false ∧ data.length % digestBlock m.alg ≠ 0 →
    Completes (.digestData inst data final) s fun t => t.digestMsg (dgNo inst) = none ∧ t.digestOut = s.digestOut ∧
      t.meas = s.meas ∧ t.staged = s.staged ∧ t.hubKey = s.hubKey ∧ t.nvm = s.nvm ∧ MemorySame s t ∧ t.bit Adr.dgEvt 1 = true) ∧
  ∀ (inst : DgRef) (s : State) (m : DgMsg), s.digestMsg (dgNo inst) = some m →
    Completes (.digestIdleTimeout inst) s fun t => t.digestMsg (dgNo inst) = none ∧ t.digestOut = s.digestOut ∧ t.meas = s.meas

/-- A GO with an index of 16 to 31, no extend BUSY and log entries left makes that measurement register SHA-384 of its old value and the
digest, leaves every other one, appends a log entry and is BUSY; a lower index ends with its result and extends nothing; with the 64 entries
kept for the device alone left, a GO ends with its result and extends nothing; while BUSY a GO changes nothing. When the core finishes, BUSY
is clear and RESULT is DONE (R317, R318, R319). -/
def Obligations.MeasurementsExtend : Prop :=
  (∀ s : State, s.meas.length = 32 → 16 ≤ s.fld Adr.msExtIdx 4 0 → s.bit Adr.msExtSts 31 = false → s.measLog.length ≤ 959 →
    Completes .measExtend s fun t =>
      t.meas[s.fld Adr.msExtIdx 4 0]? = some (Config.sha384
        (digestBytes ((s.meas[s.fld Adr.msExtIdx 4 0]?).getD 0) ++ digestBytes s.extDigest)) ∧
      (∀ k, k ≠ s.fld Adr.msExtIdx 4 0 → t.meas[k]? = s.meas[k]?) ∧ t.bit Adr.msExtSts 31 = true ∧
      t.measLog = s.measLog ++ [MeasLog.mk (s.fld Adr.msExtIdx 4 0) 3 s.measSeq s.now s.extDigest] ∧
      OnlyChanges [.regs, .meas, .measLog, .measSeq] s t) ∧
  (∀ s : State, s.fld Adr.msExtIdx 4 0 < 16 → s.bit Adr.msExtSts 31 = false →
    Completes .measExtend s fun t => t.fld Adr.msExtSts 3 0 = 2 ∧ RegsBut [Adr.msExtSts] s t ∧ OnlyChanges [.regs] s t) ∧
  (∀ s : State, 16 ≤ s.fld Adr.msExtIdx 4 0 → s.bit Adr.msExtSts 31 = false → 960 ≤ s.measLog.length →
    Completes .measExtend s fun t => t.fld Adr.msExtSts 3 0 = 3 ∧ RegsBut [Adr.msExtSts] s t ∧ OnlyChanges [.regs] s t) ∧
  (∀ s : State, s.bit Adr.msExtSts 31 = true → exec .measExtend s = .next s) ∧
  ∀ s : State, s.bit Adr.msExtSts 31 = true →
    Completes .measExtendDone s fun t => t.bit Adr.msExtSts 31 = false ∧ t.fld Adr.msExtSts 3 0 = 1 ∧
      RegsBut [Adr.msExtSts] s t ∧ OnlyChanges [.regs] s t

/-- For an object command that names a key: Exist succeeds when the probed places hold a LIVE entry of the key, and without a
LIVE entry anywhere in the slice Exist, Retrieve and Delete end with KV Key Does Not Exist. Retrieve of a readable object
returns its bytes from the offset on, its whole length in DW0 and its VERSION in DW1; or the first bytes of its record. Delete
makes the entry a TOMB. List, from the beginning or from a key on, returns the number of keys and the keys of LIVE entries in the order of
slices and places, as many as fit whole; from a key that is not there it ends with KV Key Does Not Exist (R255, R261, R262, R263, R264). -/
def Obligations.ObjectCommandsOnOneKey : Prop :=
  (∀ (h : Hdr) (nsid : Nat) (key : KvKey) (s : State) (x : Namespace), ServesKey s h nsid x key →
    ((probeFor (s.slice (placeKey x (keyNorm key)).slice).index nsid (keyNorm key) (placeKey x (keyNorm key)).probes).isSome = true →
      Completes (.exist h nsid key) s fun t => Answered t h (ansSt stOk) ∧ OnlyChanges (footprint (.exist h nsid key)) s t) ∧
    ((∀ e ∈ (s.slice (placeKey x (keyNorm key)).slice).index, e.2.holds nsid (keyNorm key) = true → e.2.state ≠ .live) →
      Completes (.exist h nsid key) s (fun t => Answered t h (ansAt stNoKey nsid 0)) ∧
      Completes (.delete h nsid key) s (fun t => Answered t h (ansAt stNoKey nsid 0)) ∧
      ∀ (offset size : Nat) (info : Bool), size ≤ 1048576 →
        Completes (.retrieve h nsid key offset size info) s fun t => Answered t h (ansAt stNoKey nsid 0))) ∧
  (∀ (h : Hdr) (nsid : Nat) (key : KvKey) (offset size : Nat) (info : Bool) (s : State) (x : Namespace) (p : Nat) (o : ObjRecord)
      (r v : List (BitVec 8)), ServesKey s h nsid x key → size ≤ 1048576 →
      (s.lookup (placeKey x (keyNorm key)) x (keyNorm key)).1 = some p →
      (s.slice (placeKey x (keyNorm key)).slice).recordAt p = some o → info = true ∨ offset ≤ o.value.length →
      (s.lookup (placeKey x (keyNorm key)) x (keyNorm key)).2.readObject (placeKey x (keyNorm key)).slice o offset
        (if info then 0 else min size (o.value.length - offset)) = .ok (r, v) →
    Completes (.retrieve h nsid key offset size info) s fun t =>
      Reading t h { ansData (.bytes (if info then r.take size else v)) with dw0 := o.value.length, dw1 := o.version.toNat } ∧
      t.namespaces = s.namespaces ∧ t.nvm = s.nvm) ∧
  (∀ (h : Hdr) (nsid : Nat) (key : KvKey) (s : State) (x : Namespace) (p : Nat) (e : IndexEntry), ServesKey s h nsid x key →
      s.slices.length = 8 → (s.lookup (placeKey x (keyNorm key)) x (keyNorm key)).1 = some p →
      mapGet (s.slice (placeKey x (keyNorm key)).slice).index p = some e →
    Completes (.delete h nsid key) s fun t => Answered t h (ansSt stOk) ∧
      mapGet (t.slice (placeKey x (keyNorm key)).slice).index p = some { e with state := .tomb }) ∧
  ∀ (h : Hdr) (nsid size : Nat) (key : KvKey) (s : State) (x : Namespace), Serves s h nsid x .object →
      (∀ p ∈ x.parts, s.nsUp x p.slice = true) → key.len ≤ 16 → key.len = 0 ∨ s.behindKey h nsid (keyNorm key) = false →
    Completes (.list h nsid key size) s fun t =>
      let all := (s.liveEntries x).map fun e => e.2.2.key
      let ks := if key.len = 0 then all else all.dropWhile fun k => k != keyNorm key
      if key.len ≠ 0 ∧ ks = [] then Answered t h (ansAt stNoKey nsid 0) ∧ OnlyChanges [.inflight] s t
      else Answered t h (ansData (.bytes ((leBytes 4 (fitKeys (size - 4) ks).length ++ (fitKeys (size - 4) ks).flatten).take size))) ∧
        t.slices = s.slices ∧ t.nvm = s.nvm

/-- A Store of one command that nothing refuses or delays succeeds: the place of the key holds a LIVE entry of the key, whose VERSION is 1
and whose record holds the value when the key is new, and one above the old VERSION when it replaces. A first segment of several opens an
ingest that expects segment 1; a later one in order that is not the last adds its bytes. A later segment out of order, or without an ingest,
ends with Command Sequence Error and changes nothing. The last segment succeeds when the lengths agree, and ends with Length Mismatch when
they do not. An ingest that is idle too long is abandoned in every slice (R255, R256, R258, R259, R260). -/
def Obligations.StoresCommitTheirObjects : Prop :=
  (∀ (h : Hdr) (nsid : Nat) (key : KvKey) (opt : StoreOpt) (total : Nat) (value : List (BitVec 8)) (s : State) (x : Namespace) (o : Opening),
      ServesKey s h nsid x key → s.slices.length = 8 → value.length ≤ 1048576 → Opens s h x key opt value.length o.luas.length o →
    Completes (.store h nsid key opt none total value) s fun t => Succeeds t h ∧
      ∃ e, mapGet (t.slice (placeKey x (keyNorm key)).slice).index o.place = some e ∧ e.nsid = nsid ∧ e.key = keyNorm key ∧
        e.state = .live ∧
        (o.isNew = true → e.version = 1 ∧
          (mapGet (t.slice (placeKey x (keyNorm key)).slice).objects e.record).map ObjRecord.value = some value) ∧
        (o.isNew = false → ∀ e0, mapGet (s.slice (placeKey x (keyNorm key)).slice).index o.place = some e0 →
          e.version = e0.version + 1)) ∧
  (∀ (h : Hdr) (nsid : Nat) (key : KvKey) (opt : StoreOpt) (total : Nat) (value : List (BitVec 8)) (s : State) (x : Namespace) (o : Opening),
      ServesKey s h nsid x key → s.slices.length = 8 → value.length ≤ 1048576 → 1048576 < total → total < 2 ^ 32 →
      Opens s h x key opt total ((s.lookup (placeKey x (keyNorm key)) x (keyNorm key)).2.segSlots (placeKey x (keyNorm key)).slice value) o →
    Completes (.store h nsid key opt (some 0) total value) s fun t => Succeeds t h ∧
      ∃ g, (t.slice (placeKey x (keyNorm key)).slice).ingestOf nsid (keyNorm key) = some g ∧ g.nextSeg = 1 ∧ g.value = value ∧
        g.total = total) ∧
  (∀ (h : Hdr) (nsid : Nat) (key : KvKey) (opt : StoreOpt) (seg total : Nat) (value : List (BitVec 8)) (s : State) (x : Namespace),
      ServesKey s h nsid x key → value.length ≤ 1048576 → total < 2 ^ 32 → seg ≠ 0 →
      (∀ g, (s.slice (placeKey x (keyNorm key)).slice).ingestOf nsid (keyNorm key) = some g → g.nextSeg ≠ seg) →
    Completes (.store h nsid key opt (some seg) total value) s fun t => Answered t h (ansAt stSequence nsid 0) ∧
      OnlyChanges [.inflight] s t) ∧
  (∀ (h : Hdr) (nsid : Nat) (key : KvKey) (opt : StoreOpt) (seg total : Nat) (value : List (BitVec 8)) (s : State) (x : Namespace)
      (g : Ingest), ServesKey s h nsid x key → value.length ≤ 1048576 → total < 2 ^ 32 → seg ≠ 0 →
      (s.slice (placeKey x (keyNorm key)).slice).ingestOf nsid (keyNorm key) = some g → g.nextSeg = seg → seg + 1 = segCount g.total →
      s.objectRoom h x (placeKey x (keyNorm key)).slice (s.segSlots (placeKey x (keyNorm key)).slice value) = true →
    Completes (.store h nsid key opt (some seg) total value) s fun t =>
      if (g.value ++ value).length = g.total then Succeeds t h
      else Answered t h { ansAt stLength nsid 0 with info := ((g.value ++ value).length : Int) - g.total }) ∧
  (∀ (h : Hdr) (nsid : Nat) (key : KvKey) (opt : StoreOpt) (seg total : Nat) (value : List (BitVec 8)) (s : State) (x : Namespace)
      (g : Ingest), s.slices.length = 8 → ServesKey s h nsid x key → value.length ≤ 1048576 → total < 2 ^ 32 → seg ≠ 0 →
      (s.slice (placeKey x (keyNorm key)).slice).ingestOf nsid (keyNorm key) = some g → g.nextSeg = seg → seg + 1 ≠ segCount g.total →
      s.objectRoom h x (placeKey x (keyNorm key)).slice (s.segSlots (placeKey x (keyNorm key)).slice value) = true →
    Completes (.store h nsid key opt (some seg) total value) s fun t => Succeeds t h ∧
      ∃ g', (t.slice (placeKey x (keyNorm key)).slice).ingestOf nsid (keyNorm key) = some g' ∧ g'.nextSeg = seg + 1 ∧
        g'.value = g.value ++ value ∧ g'.total = g.total) ∧
  ∀ (nsid : Nat) (key : KvKey) (s : State),
    Completes (.ingestIdleTimeout nsid key) s fun t => OnlyChanges (footprint (.ingestIdleTimeout nsid key)) s t ∧
      ∀ n, s.hasSlice n = true → (t.slice n).ingestOf nsid (keyNorm key) = none

/-- An export of readable objects from the start of an entry, with no pin of its stream, in a namespace without fixity or with a digest instance
free and nobody waiting for one, and one that continues the entry that its pin holds,
succeed with at most as many bytes as the buffer has and the next cursor in DW0 and DW1; one whose cursor names no slice of the
namespace, that continues an entry without a pin, or whose pin was lost, fails with Invalid Field. When a stream is idle too long its pin is
left behind marked lost, holding no version and no instance (R260, R265, R266). -/
def Obligations.ExportsStreamObjects : Prop :=
  (∀ (h : Hdr) (nsid size cursor endBucket : Nat) (s : State) (x : Namespace) (part : NsPart), Serves s h nsid x .object →
      x.parts[cursor / 2 ^ 61 % 8]? = some part → size ≤ 1048576 → cursor / 2 ^ 32 % 4 = 0 → s.nsUp x part.slice = true →
      (s.slice part.slice).pinOf nsid (cursor / 2 ^ 61 % 8) endBucket = none →
    (cursor % 2 ^ 32 ≠ 0 →
      Completes (.objectExport h nsid size cursor endBucket) s fun t => Answered t h (ansAt stField nsid 0) ∧ OnlyChanges [.inflight] s t) ∧
    (cursor % 2 ^ 32 = 0 →
      x.desc.fixity = 0 ∨ s.digestWaits = [] ∧ (s.freeInstance (ctrlOwner h.ctrl)).isSome = true →
      (exportRun part.slice nsid size (cursor / 2 ^ 61 % 8)
        (s.exportList part.slice x part (4 * (cursor / 2 ^ 36 % 2 ^ 25) + cursor / 2 ^ 34 % 4) endBucket none) 0
        (Exporting.mk [] [] none none none s)).failed = none →
      Completes (.objectExport h nsid size cursor endBucket) s fun t =>
        ∃ bs c, Reading t h { ansData (.bytes bs) with dw0 := c % 2 ^ 32, dw1 := c / 2 ^ 32 } ∧ bs.length ≤ size)) ∧
  (∀ (h : Hdr) (nsid size cursor endBucket : Nat) (s : State) (x : Namespace) (part : NsPart) (p : Pin), Serves s h nsid x .object →
      x.parts[cursor / 2 ^ 61 % 8]? = some part → size ≤ 1048576 → cursor / 2 ^ 32 % 4 = 0 → s.nsUp x part.slice = true →
      (s.slice part.slice).pinOf nsid (cursor / 2 ^ 61 % 8) endBucket = some p →
    (p.lost = true →
      Completes (.objectExport h nsid size cursor endBucket) s fun t => Answered t h (ansAt stField nsid 0) ∧
        p ∉ (t.slice part.slice).pins) ∧
    (p.lost = false → cursor % 2 ^ 32 ≠ 0 → p.pos = 4 * (cursor / 2 ^ 36 % 2 ^ 25) + cursor / 2 ^ 34 % 4 →
      (exportRun part.slice nsid size (cursor / 2 ^ 61 % 8)
        (s.exportList part.slice x part p.pos endBucket p.record) (cursor % 2 ^ 32) (Exporting.mk [] [] none none none s)).failed = none →
      Completes (.objectExport h nsid size cursor endBucket) s fun t =>
        ∃ bs c, Reading t h { ansData (.bytes bs) with dw0 := c % 2 ^ 32, dw1 := c / 2 ^ 32 } ∧ bs.length ≤ size)) ∧
  (∀ (h : Hdr) (nsid size cursor endBucket : Nat) (s : State) (x : Namespace), Serves s h nsid x .object →
      x.parts[cursor / 2 ^ 61 % 8]? = none →
    Completes (.objectExport h nsid size cursor endBucket) s fun t => Answered t h (ansAt stField nsid 0) ∧ OnlyChanges [.inflight] s t) ∧
  ∀ (nsid sliceIx endBucket : Nat) (s : State) (x : Namespace) (part : NsPart) (p : Pin), s.ns nsid = some x →
      x.parts[sliceIx]? = some part → (s.slice part.slice).pinOf nsid sliceIx endBucket = some p →
    Completes (.exportPinTimeout nsid sliceIx endBucket) s fun t =>
      { p with record := none, inst := none, lost := true } ∈ (t.slice part.slice).pins ∧
      (p.lost = false → p ∉ (t.slice part.slice).pins)

/-- A piece that continues an image extends it; the piece that completes it makes the index hold a verified program, or none
when the verifier gives a reason, which the command reports; an image above its limit is dropped with TOO_LARGE, a piece out of
order with INCOMPLETE. Activation sets the state of a program that is loaded, and of none fails as unavailable. Both take the
indexes 16 to 63 only. Execute Program that passes its checks, when a cluster can take it, starts an invocation under the next
number and completes with it; on an index that holds no activated program it fails as unavailable. When the invocation ends its
command completes with the outcome, or TIME_LIMIT, and the invocation is gone; a device-defined program that returns has its
effect first, and waits while it needs a counter, an instance or room (R240, R241, R242, R243, R244, R251). -/
def Obligations.ProgramsLoadActivateAndRun : Prop :=
  (∀ (h : Hdr) (nsid index : Nat) (ptype : ProgType) (total : Nat) (held piece : List (BitVec 8)) (act : Bool) (s : State) (x : Namespace),
      Serves s h nsid x .computational → 16 ≤ index → index ≤ 63 → ptype = .ebpf ∨ ptype = .native → total ≤ imageLimit ptype →
      held.length + piece.length ≤ total → held = [] ∨ x.program index = some (Program.mk index ptype total held false act) →
    Completes (.loadProgram h nsid index ptype total held.length piece) s fun t =>
      if held.length + piece.length < total then Answered t h (ansSt stOk) ∧
        (t.ns nsid).bind (·.program index) = some (Program.mk index ptype total (held ++ piece) false false)
      else if s.loadReason ptype (held ++ piece) = 0 then Answered t h (ansSt stOk) ∧
        (t.ns nsid).bind (·.program index) = some (Program.mk index ptype total (held ++ piece) true false)
      else Answered t h (ansReason stField (s.loadReason ptype (held ++ piece))) ∧ (t.ns nsid).bind (·.program index) = none) ∧
  (∀ (h : Hdr) (nsid index : Nat) (ptype : ProgType) (total offset : Nat) (piece : List (BitVec 8)) (s : State) (x : Namespace),
      Serves s h nsid x .computational →
    (index < 16 ∨ 63 < index →
      Completes (.loadProgram h nsid index ptype total offset piece) s fun t => Answered t h (ansSt stField) ∧ OnlyChanges [.inflight] s t) ∧
    (16 ≤ index → index ≤ 63 → ptype = .ebpf ∨ ptype = .native → imageLimit ptype < total ∨ total < offset + piece.length →
      Completes (.loadProgram h nsid index ptype total offset piece) s fun t =>
        Answered t h (ansReason stField 1) ∧ (t.ns nsid).bind (·.program index) = none) ∧
    (16 ≤ index → index ≤ 63 → ptype = .ebpf ∨ ptype = .native → total ≤ imageLimit ptype → offset + piece.length ≤ total → offset ≠ 0 →
      (∀ p, x.program index = some p → p.image.length ≠ offset) →
      Completes (.loadProgram h nsid index ptype total offset piece) s fun t =>
        Answered t h (ansReason stField 9) ∧ (t.ns nsid).bind (·.program index) = none)) ∧
  (∀ (h : Hdr) (nsid index : Nat) (activate : Bool) (s : State) (x : Namespace), Serves s h nsid x .computational →
      16 ≤ index → index ≤ 63 →
    (∀ p, x.program index = some p → p.verified = true →
      Completes (.programActivationManagement h nsid index activate) s fun t => Answered t h (ansSt stOk) ∧
        (t.ns nsid).bind (·.program index) = some { p with active := activate } ∧
        OnlyChanges [.inflight, .namespaces] s t) ∧
    ((x.program index).filter Program.verified = none →
      Completes (.programActivationManagement h nsid index activate) s fun t =>
        Answered t h (ansSt (if activate then stUnavailable else stOk)) ∧ OnlyChanges [.inflight] s t)) ∧
  (∀ (h : Hdr) (nsid index : Nat) (activate : Bool) (s : State) (x : Namespace), Serves s h nsid x .computational →
      index < 16 ∨ 63 < index →
    Completes (.programActivationManagement h nsid index activate) s fun t => Answered t h (ansSt stField) ∧ OnlyChanges [.inflight] s t) ∧
  (∀ (h : Hdr) (nsid index : Nat) (ranges : List MemRange) (limit : Nat) (params : List (BitVec 8)) (s : State) (x : Namespace)
      (part : NsPart) (c : Nat), Serves s h nsid x .computational → x.parts.head? = some part → ranges.length ≤ 16 →
      params.length ≤ 4096 → index ≤ 63 → s.sliceUp part.slice = true → s.available x part.slice index = true →
      ranges.all (s.rangeOk part.slice (ctrlOwner h.ctrl)) = true → c < 4 → s.active (UnitId.cluster part.slice c) = true →
      s.mayFlow part.slice c (ctrlOwner h.ctrl) = true → s.maySlot part.slice c (ctrlOwner h.ctrl) = true →
    Completes (.executeProgram h nsid index ranges limit params) s fun t =>
      standing t h = some (.dispatched, ansSt stOk, [.invocation s.nextInv]) ∧ t.nextInv = s.nextInv + 1 ∧
      ∃ v, t.invocations = s.invocations ++ [v] ∧ v.id = s.nextInv ∧ v.hdr = h ∧ v.slice = part.slice ∧ v.index = index ∧
        v.ranges = ranges ∧ v.params = params ∧ v.limit = if limit = 0 then 4096 else limit % 65536) ∧
  (∀ (h : Hdr) (nsid index : Nat) (ranges : List MemRange) (limit : Nat) (params : List (BitVec 8)) (s : State) (x : Namespace)
      (part : NsPart), Serves s h nsid x .computational → x.parts.head? = some part →
    (16 < ranges.length ∨ 4096 < params.length ∨ 63 < index →
      Completes (.executeProgram h nsid index ranges limit params) s fun t => Answered t h (ansSt stField) ∧ OnlyChanges [.inflight] s t) ∧
    (ranges.length ≤ 16 → params.length ≤ 4096 → index ≤ 63 → s.sliceUp part.slice = true → s.available x part.slice index = false →
      Completes (.executeProgram h nsid index ranges limit params) s fun t =>
        Answered t h (ansSt stUnavailable) ∧ OnlyChanges [.inflight] s t)) ∧
  (∀ (inv : Nat) (outcome : RunOutcome) (ret : BitVec 32) (s : State) (v : Invocation) (e : RunOutcome × Nat),
      s.invocation inv = some v → v.ends outcome ret.toNat = some e →
    (16 ≤ v.index ∨ e.1 ≠ .returned → (s.inFlight v.hdr).isSome = true →
      Completes (.invocationComplete inv outcome ret) s fun t => t.invocation inv = none ∧
        Answered t v.hdr (outcomeAnswer e.1 e.2) ∧ OnlyChanges [.regs, .inflight, .slices, .invocations] s t) ∧
    (v.index < 16 → e.1 = .returned →
      (∀ r, s.deviceProgram v e.2 = some r → (r.state.inFlight v.hdr).isSome = true →
        Completes (.invocationComplete inv outcome ret) s fun t => t.invocation inv = none ∧
          Answered t v.hdr (outcomeAnswer r.outcome r.ret) ∧ OnlyChanges (footprint (.invocationComplete inv outcome ret)) s t) ∧
      (s.deviceProgram v e.2 = none → exec (.invocationComplete inv outcome ret) s = .next s))) ∧
  ∀ (inv : Nat) (s : State) (v : Invocation), s.invocation inv = some v → (s.inFlight v.hdr).isSome = true →
    Completes (.invocationLimitExpiry inv) s fun t => t.invocation inv = none ∧ Answered t v.hdr (runAnswer stOk 2 0 0) ∧
      OnlyChanges (footprint (.invocationLimitExpiry inv)) s t

/-- On a memory namespace of the requester whose slice is online: a Memory Read of up to 1 MiB that touches no poisoned line
returns the bytes of the range and changes no memory; one that touches a poisoned line fails and returns none. A Memory Write of
up to 1 MiB stores its bytes there, and a Memory Copy the bytes of its source as they were before it; every byte of slice-local
memory outside the destination range is as before. A range that does not lie in the namespace, or a read or write above 1 MiB, fails
with Invalid Field and changes nothing (R249, R250, R290, R298). -/
def Obligations.MemoryCommandsMoveBytes : Prop :=
  (∀ (h : Hdr) (nsid offset length : Nat) (s : State) (x : Namespace), Serves s h nsid x .memory → offset + length ≤ x.size * 4096 →
      s.sliceUp x.memPlace.1 = true → length ≤ 1048576 → s.memPoisoned x.memPlace.1 (x.memPlace.2 + offset) length = false →
    Completes (.memoryRead h nsid offset length) s fun t => OnlyChanges (footprint (.memoryRead h nsid offset length)) s t ∧
      Answered t h (ansData (.bytes (memRead (s.slice x.memPlace.1).slm (x.memPlace.2 + offset) length)))) ∧
  (∀ (h : Hdr) (nsid offset : Nat) (data : List (BitVec 8)) (s : State) (x : Namespace), Serves s h nsid x .memory →
      s.slices.length = 8 → offset + data.length ≤ x.size * 4096 → s.sliceUp x.memPlace.1 = true → data.length ≤ 1048576 →
    Completes (.memoryWrite h nsid offset data) s fun t => Answered t h (ansSt stOk) ∧
      memRead (t.slice x.memPlace.1).slm (x.memPlace.2 + offset) data.length = data ∧
      MemoryBut x.memPlace.1 (x.memPlace.2 + offset) data.length s t ∧ OnlyChanges (footprint (.memoryWrite h nsid offset data)) s t) ∧
  (∀ (h : Hdr) (nsid offset length : Nat) (s : State) (x : Namespace), Serves s h nsid x .memory → offset + length ≤ x.size * 4096 →
      s.sliceUp x.memPlace.1 = true → length ≤ 1048576 → s.memPoisoned x.memPlace.1 (x.memPlace.2 + offset) length = true →
    Completes (.memoryRead h nsid offset length) s fun t =>
      Answered t h (ansAt stUnrecovered nsid 0) ∧ OnlyChanges [.inflight] s t) ∧
  (∀ (h : Hdr) (nsid offset length : Nat) (data : List (BitVec 8)) (src : CopyFrom) (s : State) (x : Namespace),
      Serves s h nsid x .memory → s.sliceUp x.memPlace.1 = true →
    (x.size * 4096 < offset + length ∨ 1048576 < length →
      Completes (.memoryRead h nsid offset length) s fun t => Answered t h (ansAt stField nsid 0) ∧ OnlyChanges [.inflight] s t) ∧
    (x.size * 4096 < offset + data.length ∨ 1048576 < data.length →
      Completes (.memoryWrite h nsid offset data) s fun t => Answered t h (ansAt stField nsid 0) ∧ OnlyChanges [.inflight] s t) ∧
    (x.size * 4096 < offset →
      Completes (.memoryCopy h nsid offset src) s fun t => Answered t h (ansAt stField nsid 0) ∧ OnlyChanges [.inflight] s t)) ∧
  ∀ (h : Hdr) (nsid dest : Nat) (src : CopyFrom) (bs : List (BitVec 8)) (s : State) (x : Namespace), Serves s h nsid x .memory →
      s.slices.length = 8 → s.sliceUp x.memPlace.1 = true → s.copyBytes h x.memPlace.1 src = .ok bs →
      dest + bs.length ≤ x.size * 4096 →
    Completes (.memoryCopy h nsid dest src) s fun t => Reading t h (ansSt stOk) ∧
      memRead (t.slice x.memPlace.1).slm (x.memPlace.2 + dest) bs.length = bs ∧
      MemoryBut x.memPlace.1 (x.memPlace.2 + dest) bs.length s t ∧ OnlyChanges (footprint (.memoryCopy h nsid dest src)) s t

/-- While the endpoint answers on a bus, Read NVMe-MI Data Structure, the two polls, Configuration Get and Set, VPD Read and a
tunnelled command leave their response there: the health poll the warnings of the subsystem, the controller poll one record of
each controller from the named one on, Configuration Get the value that a Set of a supported value put, VPD Read as many bytes
as asked, a tunnelled Identify what Identify gives. An endpoint that does not answer takes no notice. In band, Send of any request
keeps the response and Receive returns it once; both are for physical function 0 of port 0 only. The dynamic address is taken, and a
clock-low time-out abandons the SMBus transaction (R53, R359, R409). -/
def Obligations.ManagementRequestsAreAnswered : Prop :=
  (∀ (bus : MiBus) (s : State), s.miReady bus = true →
    (∀ dtyp port ctrl : Nat, Completes (.readNvmeMiDataStructure bus dtyp port ctrl) s fun t =>
      t.mgmt.out = some (bus, s.miStructure dtyp port ctrl) ∧ OnlyChanges [.mgmt] s t) ∧
    (Completes (.nvmSubsystemHealthStatusPoll bus) s fun t => ∃ r fs, t.mgmt.out = some (bus, r) ∧ r.status = 0 ∧
      r.answer.data = .fields fs ∧ (1, 1, 255 - s.criticalWarning 1) ∈ fs ∧ (3, 1, s.lifeUsed 1) ∈ fs ∧
      OnlyChanges [.mgmt, .fresh] s t) ∧
    (∀ start count : Nat, Completes (.controllerHealthStatusPoll bus start count) s fun t => ∃ r, t.mgmt.out = some (bus, r) ∧
      r.status = 0 ∧ r.detail = ((s.ctrlList.filter fun c => decide (start ≤ c)).take count).length * 65536 ∧
      OnlyChanges [.mgmt, .fresh] s t) ∧
    (∀ id : Nat, Completes (.configurationGet bus id) s fun t => t.mgmt.out = some (bus, s.miGet id) ∧ OnlyChanges [.mgmt] s t) ∧
    (∀ id value : Nat, id = 1 ∧ 1 ≤ value ∧ value ≤ 3 ∨ id = 3 →
      Completes (.configurationSet bus id value) s fun t => t.mgmt.out = some (bus, miStatus 0) ∧
        t.miGet id = { miStatus 0 with detail := value } ∧ (∀ k, k ≠ id → t.miGet k = s.miGet k) ∧ OnlyChanges [.mgmt] s t) ∧
    (∀ value : Nat, value = 0 ∨ 3 < value → Completes (.configurationSet bus 1 value) s fun t =>
      t.mgmt.out = some (bus, miStatus miParameter) ∧ ∀ k, t.miGet k = s.miGet k) ∧
    (∀ offset length : Nat, Completes (.vpdRead bus offset length) s fun t => ∃ r bs, t.mgmt.out = some (bus, r) ∧ r.status = 0 ∧
      r.answer.data = .bytes bs ∧ bs.length = length ∧ OnlyChanges [.mgmt] s t) ∧
    (∀ cns nsid : Nat, Completes (.miAdminTunnel bus (.identify cns nsid)) s fun t => ∃ r, t.mgmt.out = some (bus, r) ∧
      r.status = 0 ∧ r.answer = s.identify 1 cns nsid ∧ OnlyChanges [.mgmt] s t) ∧
    (∀ opcode : Nat, Completes (.miAdminTunnel bus (.other opcode)) s fun t => t.mgmt.out = some (bus, miStatus miOpcode))) ∧
  (∀ (bus : MiBus) (a b c : Nat) (cmd : TunnelCmd) (s : State), s.miReady bus = false →
    ∀ i ∈ [Instr.readNvmeMiDataStructure bus a b c, .nvmSubsystemHealthStatusPoll bus, .controllerHealthStatusPoll bus a b,
      .configurationGet bus a, .configurationSet bus a b, .vpdRead bus a b, .miAdminTunnel bus cmd], exec i s = .next s) ∧
  (∀ (h : Hdr) (req : MiReq) (s : State), ManagerReady s h → Completes (.nvmeMiSend h req) s fun t =>
    Answered t h (ansDw0 (s.miServe req).1.status) ∧ t.mgmt.inband = some (s.miServe req).1 ∧
      OnlyChanges [.mgmt, .inflight, .fresh] s t) ∧
  (∀ (h : Hdr) (req : MiReq) (s : State), s.runnable h = true → isManager h.ctrl = false →
    ∀ i ∈ [Instr.nvmeMiSend h req, .nvmeMiReceive h],
      ∃ t, exec i s = .next t ∧ Answered t h (ansSt stOpcode) ∧ OnlyChanges [.inflight] s t) ∧
  (∀ (h : Hdr) (s : State), ManagerReady s h →
    (∀ r, s.mgmt.inband = some r → Completes (.nvmeMiReceive h) s fun t =>
      Answered t h { ansDw0 (r.status + r.detail * 256) with data := r.answer.data } ∧ t.mgmt.inband = none) ∧
    (s.mgmt.inband = none → Completes (.nvmeMiReceive h) s fun t => Answered t h (ansSt stSequence))) ∧
  (∀ (addr : BitVec 7) (s : State), s.held = false → Completes (.dynamicAddressAssignment addr) s fun t =>
    t.mgmt = { s.mgmt with i3cAddr := some addr } ∧ OnlyChanges [.mgmt] s t) ∧
  ∀ (s : State) (r : MiReply), s.mgmt.out = some (.smbus, r) → Completes .smbusClockLowTimeout s fun t =>
    t.mgmt = { s.mgmt with out := none } ∧ OnlyChanges [.mgmt] s t

/-- On the mailbox of a port that answers: DOE Discovery lists itself and CMA/SPDM. GET_VERSION gives 1.2 and starts a
negotiation; GET_CAPABILITIES follows it, and NEGOTIATE_ALGORITHMS with an offer that holds the device's algorithms completes
it. Then digests and certificate parts of slot 0, a challenge and measurements are answered, the count of 32 registers for index
0, all of them for index 0xFF; another slot or index is refused as invalid. While the entropy source has failed a challenge and
signed measurements are refused. A request that comes too early is answered with
UnexpectedRequest, and one outside the table with UnsupportedRequest; neither changes anything else (R41, R186, R320, R321). -/
def Obligations.TheSpdmResponderNegotiatesAndProves : Prop :=
  ∀ (port : Nat) (s : State), s.doePort port = true →
    (Completes (.doeDiscovery port 0) s fun t => t.spdmOut =
      some (SpdmAnswer.mk (.doe port) 0 0 (.fields [(0, 2, 1), (2, 1, 0), (3, 1, 1)])) ∧ OnlyChanges [.spdmOut] s t) ∧
    (Completes (.getVersion (.doe port)) s fun t => t.spdmOut =
      some (SpdmAnswer.mk (.doe port) 4 0 (.fields [(0, 1, 1), (1, 1, 0x12)])) ∧ t.spdmStage (.doe port) = 1 ∧
      OnlyChanges [.spdmPeers, .spdmOut] s t) ∧
    (∀ flags : Nat, 1 ≤ s.spdmStage (.doe port) → Completes (.getCapabilities (.doe port) flags) s fun t =>
      t.spdmOut = some (SpdmAnswer.mk (.doe port) 0x61 0 (.fields [(0, 4, spdmFlags)])) ∧
      t.spdmStage (.doe port) = max 2 (s.spdmStage (.doe port))) ∧
    (2 ≤ s.spdmStage (.doe port) →
      (Completes (.negotiateAlgorithms (.doe port) (AlgOffer.mk true true true true true)) s fun t =>
        t.spdmStage (.doe port) = 3 ∧ t.spdmOut.map SpdmAnswer.code = some 0x63) ∧
      Completes (.negotiateAlgorithms (.doe port) (AlgOffer.mk true false true true true)) s fun t =>
        t.spdmOut = some (SpdmAnswer.mk (.doe port) rspError spdmInvalid .none) ∧ OnlyChanges [.spdmOut] s t) ∧
    (3 ≤ s.spdmStage (.doe port) →
      (Completes (.getDigests (.doe port)) s fun t => t.spdmOut =
        some (SpdmAnswer.mk (.doe port) 1 0 (.fields [(0, 1, 1), (4, 48, s.chainDigest.toNat)])) ∧ OnlyChanges [.spdmOut] s t) ∧
      (∀ offset length : Nat, Completes (.getCertificate (.doe port) 0 offset length) s fun t => OnlyChanges [.spdmOut] s t ∧
        if offset < Config.chainLen then ∃ bs, t.spdmOut = some (SpdmAnswer.mk (.doe port) 2 0 (.bytes bs)) ∧
          bs.length = min length (Config.chainLen - offset)
        else t.spdmOut = some (SpdmAnswer.mk (.doe port) rspError spdmInvalid .none)) ∧
      (∀ nonce : BitVec 256, Completes (.challenge (.doe port) 0 nonce) s fun t =>
        if s.entropyOk = true then t.spdmOut.map SpdmAnswer.code = some 3 ∧ OnlyChanges [.spdmOut, .fresh] s t
        else t.spdmOut = some (SpdmAnswer.mk (.doe port) rspError spdmUnspecified .none) ∧ OnlyChanges [.spdmOut] s t) ∧
      (∀ nonce : BitVec 256, Completes (.getMeasurements (.doe port) 0 false nonce) s fun t =>
        t.spdmOut = some (SpdmAnswer.mk (.doe port) 0x60 0 (.fields [(0, 1, 32)])) ∧ OnlyChanges [.spdmOut] s t) ∧
      ∀ (index : Nat) (nonce : BitVec 256), 1 ≤ index → index ≤ 32 →
        Completes (.getMeasurements (.doe port) index false nonce) s fun t => ∃ fs,
          t.spdmOut = some (SpdmAnswer.mk (.doe port) 0x60 0 (.fields fs)) ∧ (4, 1, index) ∈ fs ∧
          (11, 48, ((s.meas[index - 1]?).getD 0).toNat) ∈ fs) ∧
    (3 ≤ s.spdmStage (.doe port) → ∀ (slot offset length index : Nat) (nonce : BitVec 256),
      (slot ≠ 0 → ∀ i ∈ [Instr.getCertificate (.doe port) slot offset length, .challenge (.doe port) slot nonce],
        ∃ t, exec i s = .next t ∧ t.spdmOut = some (SpdmAnswer.mk (.doe port) rspError spdmInvalid .none) ∧ OnlyChanges [.spdmOut] s t) ∧
      (32 < index → index ≠ 0xFF → ∀ signed : Bool, Completes (.getMeasurements (.doe port) index signed nonce) s fun t =>
        t.spdmOut = some (SpdmAnswer.mk (.doe port) rspError spdmInvalid .none) ∧ OnlyChanges [.spdmOut] s t) ∧
      (Completes (.getMeasurements (.doe port) 0xFF false nonce) s fun t => ∃ fs,
        t.spdmOut = some (SpdmAnswer.mk (.doe port) 0x60 0 (.fields fs)) ∧ (0, 1, 32) ∈ fs ∧
        ∀ n, n < 32 → (11 + 55 * n, 48, ((s.meas[n]?).getD 0).toNat) ∈ fs) ∧
      (index ≤ 32 → Completes (.getMeasurements (.doe port) index true nonce) s fun t =>
        if s.entropyOk = true then t.spdmOut.map SpdmAnswer.code = some 0x60 ∧ OnlyChanges [.spdmOut, .fresh] s t
        else t.spdmOut = some (SpdmAnswer.mk (.doe port) rspError spdmUnspecified .none) ∧ OnlyChanges [.spdmOut] s t)) ∧
    (s.spdmStage (.doe port) < 3 → ∀ (slot offset length index : Nat) (signed : Bool) (nonce : BitVec 256) (peer : BitVec 768),
      ∀ i ∈ [Instr.getDigests (.doe port), .getCertificate (.doe port) slot offset length, .challenge (.doe port) slot nonce,
        .getMeasurements (.doe port) index signed nonce, .keyExchange (.doe port) peer],
      ∃ t, exec i s = .next t ∧ t.spdmOut = some (SpdmAnswer.mk (.doe port) rspError spdmUnexpected .none) ∧
        OnlyChanges [.spdmOut] s t) ∧
    ∀ code : Nat, Completes (.spdmUnsupportedRequest (.doe port) code) s fun t =>
      t.spdmOut = some (SpdmAnswer.mk (.doe port) rspError spdmUnsupported .none) ∧ OnlyChanges [.spdmOut] s t

/-- KEY_EXCHANGE after the negotiation opens the lowest session number that neither transport uses, and is refused with
SessionLimitExceeded when all eight are in use. FINISH establishes a session when the requester's code verifies, and otherwise
ends it with DecryptError. In an established session HEARTBEAT is answered, KEY_UPDATE counts its updates, and END_SESSION frees
the number and leaves its four slots EMPTY; without one they are answered with InvalidSession. On the migration transport a
responder session that has been challenged asks for the peer's chain and takes one that is accepted; both requests are unsupported
on a mailbox (R90, R316, R320). -/
def Obligations.SpdmSessionsOpenAndEnd : Prop :=
  (∀ (port n : Nat) (peer : BitVec 768) (s : State), s.doePort port = true → 3 ≤ s.spdmStage (.doe port) → s.entropyOk = true →
      s.freeSession = some n →
    Completes (.keyExchange (.doe port) peer) s fun t => t.session (.doe port) n = some (SpdmSession.mk n (.doe port) false 0) ∧
      t.spdmOut.map SpdmAnswer.code = some 0x64 ∧ n < 8 ∧ s.session (.doe port) n = none) ∧
  (∀ (port : Nat) (peer : BitVec 768) (s : State), s.doePort port = true → 3 ≤ s.spdmStage (.doe port) → s.freeSession = none →
    Completes (.keyExchange (.doe port) peer) s fun t =>
      t.spdmOut = some (SpdmAnswer.mk (.doe port) rspError spdmLimit .none) ∧ OnlyChanges [.spdmOut] s t) ∧
  (∀ (port n : Nat) (macOk : Bool) (s : State) (q : SpdmSession), s.doePort port = true → 3 ≤ s.spdmStage (.doe port) →
      s.session (.doe port) n = some q → q.established = false →
    Completes (.finish (.doe port) n macOk) s fun t =>
      if macOk = true then t.session (.doe port) n = some { q with established := true } ∧
        t.spdmOut = some (SpdmAnswer.mk (.doe port) 0x65 0 .none)
      else t.session (.doe port) n = none ∧ t.spdmOut = some (SpdmAnswer.mk (.doe port) rspError spdmDecrypt .none)) ∧
  (∀ (port n : Nat) (s : State) (q : SpdmSession), s.doePort port = true → s.session (.doe port) n = some q → q.established = true →
    (Completes (.heartbeat (.doe port) n) s fun t => t.spdmOut = some (SpdmAnswer.mk (.doe port) 0x68 0 .none) ∧
      OnlyChanges [.spdmOut] s t) ∧
    (∀ op : Nat, 1 ≤ op → op ≤ 3 → Completes (.keyUpdate (.doe port) n op) s fun t =>
      t.spdmOut = some (SpdmAnswer.mk (.doe port) 0x69 0 .none) ∧ OnlyChanges [.spdmOut, .spdmSessions] s t ∧
      t.session (.doe port) n = some { q with updates := if op = 3 then q.updates else q.updates + 1 }) ∧
    Completes (.endSession (.doe port) n) s fun t => t.spdmOut = some (SpdmAnswer.mk (.doe port) 0x6C 0 .none) ∧
      t.session (.doe port) n = none ∧ ∀ k, k < 4 → (t.keySlot (4129 + 4 * n + k)).state = .empty) ∧
  (∀ (port n : Nat) (s : State), s.doePort port = true → s.session (.doe port) n = none →
    ∀ i ∈ [Instr.heartbeat (.doe port) n, .keyUpdate (.doe port) n 1, .endSession (.doe port) n],
      ∃ t, exec i s = .next t ∧ t.spdmOut = some (SpdmAnswer.mk (.doe port) rspError spdmNoSession .none) ∧
        OnlyChanges [.spdmOut] s t) ∧
  (∀ (port n : Nat) (peer : PeerChain) (s : State), s.doePort port = true →
    ∀ i ∈ [Instr.getEncapsulatedRequest (.doe port) n, .deliverEncapsulatedResponse (.doe port) n peer],
      ∃ t, exec i s = .next t ∧ t.spdmOut = some (SpdmAnswer.mk (.doe port) rspError spdmUnsupported .none) ∧
        OnlyChanges [.spdmOut] s t) ∧
  ∀ (n : Nat) (s : State) (g : MigSession), s.held = false → s.migFree n = true → s.mig n = some g → g.requester = false →
      g.progress = 4 →
    (Completes (.getEncapsulatedRequest (.migration n) n) s fun t =>
      t.mig n = some { g with outbox := g.outbox ++ [.response 0x6A none] } ∧ OnlyChanges [.migs] s t) ∧
    ∀ peer : PeerChain, PeerOk peer = true → Completes (.deliverEncapsulatedResponse (.migration n) n peer) s fun t =>
      t.mig n = some { g with progress := 6, peerId := peer.deviceId, outbox := g.outbox ++ [.response 0x6B none] } ∧
      OnlyChanges [.migs] s t

/-- For the item that runs in a slot, and whose code is not translated eBPF: SEND, ARM and EMIT in range, on what its owner holds, add
one unreleased emit and return OK, and return EMIT_FULL without effect when 8 are staged; RELEASE makes every staged emit releasable.
ALLOC that may take a slot fills a FREE one with a WAITING item of the same owner; otherwise it is queued. CTX_ALLOC opens a context in
IDLE and CTX_FREE removes it, or leaves it CLOSING while operations are queued. FLOW_OPEN opens the lowest free flow, and returns QUOTA
to an owner that may open none; FLOW_CLOSE frees one that holds no slot. CONTINUE and END return OK; on a core of a SLOT entry CONTINUE
returns the item to WAITING with its new NEED, END leaves it HELD with DONE and its code, and after either the slot is FREE where its
discard was asked for. A primitive that names a slot, context or flow that its owner does not hold returns NOT_OWNER, one out of range
RANGE; neither has another effect but NOT_OWNER's event flags (R225, R229, R230, R231, R236, R238, R239). -/
def Obligations.PrimitivesOfARunningItem : Prop :=
  ∀ (it : ItemRef) (s : State) (i : WorkItem), s.running it = some i → i.wslot = it.wslot → s.translatedItem i = false →
    (∀ (w ix : Nat) (value : BitVec 64) (aux : BitVec 32), w < 1024 → ix < 4 →
      (s.holdsSlot it i.owner w = true → i.emits.length < 8 → Completes (.send it w ix value aux) s fun t =>
        (t.cluster it.slice it.cluster).item it.wslot = some { i with emits := i.emits ++ [(.send w ix value aux, false)] } ∧
        (t.cluster it.slice it.cluster).portStatus = 0 ∧ OnlyChanges [.slices] s t) ∧
      (∀ d : EmitDesc, descInRange d = true → (∀ u c len v j, d = .engine u c len v j → s.holdsCtx it i.owner c = true) →
        8 ≤ i.emits.length → ∀ delay, 1 ≤ delay → delay < 2 ^ 32 → s.holdsSlot it i.owner w = true →
        ∀ c ∈ [Instr.send it w ix value aux, .arm it w ix delay, .emit it d], ∃ t, exec c s = .next t ∧
          (t.cluster it.slice it.cluster).items = (s.cluster it.slice it.cluster).items ∧
          (t.cluster it.slice it.cluster).portStatus = 4 ∧ t.bit (Adr.tqEvt it.slice) 3 = true) ∧
      (s.holdsSlot it i.owner w = false → ∀ delay, 1 ≤ delay → delay < 2 ^ 32 →
        ∀ c ∈ [Instr.send it w ix value aux, .arm it w ix delay, .alloc it 0xFFFF 0 value 0 (some (w, ix)) 0], ∃ t, exec c s = .next t ∧
          (t.cluster it.slice it.cluster).items = (s.cluster it.slice it.cluster).items ∧
          (t.cluster it.slice it.cluster).portStatus = 3 ∧ t.bit (Adr.tqEvt it.slice) 2 = true)) ∧
    (∀ (w ix delay kind grant : Nat) (value : BitVec 64) (aux : BitVec 32) (d : EmitDesc), 1024 ≤ w ∨ 4 ≤ ix → 4 ≤ grant →
        descInRange d = false →
      ∀ c ∈ [Instr.send it w ix value aux, .arm it w ix delay, .emit it d, .ctxAlloc it kind grant,
        .alloc it 0xFFFF 0 value 0 none grant], ∃ t, exec c s = .next t ∧
        (t.cluster it.slice it.cluster).items = (s.cluster it.slice it.cluster).items ∧
        (t.cluster it.slice it.cluster).portStatus = 5 ∧ OnlyChanges [.slices] s t) ∧
    (∀ x : Nat,
      (s.holdsCtx it i.owner x = false → Completes (.ctxFree it x) s fun t => (t.slice it.slice).contexts = (s.slice it.slice).contexts ∧
        (t.cluster it.slice it.cluster).portStatus = 3 ∧ t.bit (Adr.ctEvt it.slice) 1 = true) ∧
      (s.holdsFlow it i.owner x = false → Completes (.flowClose it x) s fun t =>
        (t.cluster it.slice it.cluster).flows = (s.cluster it.slice it.cluster).flows ∧
        (t.cluster it.slice it.cluster).portStatus = 3 ∧ t.bit (Adr.tqEvt it.slice) 2 = true)) ∧
    (s.mayFlow it.slice it.cluster i.owner = false → Completes (.flowOpen it) s fun t =>
      (t.cluster it.slice it.cluster).flows = (s.cluster it.slice it.cluster).flows ∧
      (t.cluster it.slice it.cluster).portStatus = 2 ∧ OnlyChanges [.slices] s t) ∧
    (∀ w ix delay : Nat, w < 1024 → ix < 4 → 1 ≤ delay → delay < 2 ^ 32 → s.holdsSlot it i.owner w = true → i.emits.length < 8 →
      Completes (.arm it w ix delay) s fun t =>
        (t.cluster it.slice it.cluster).item it.wslot = some { i with emits := i.emits ++ [(.arm w ix delay, false)] } ∧
        (t.cluster it.slice it.cluster).portStatus = 0 ∧ OnlyChanges [.slices] s t) ∧
    (∀ d : EmitDesc, descInRange d = true → (∀ u ix len v j, d = .engine u ix len v j → s.holdsCtx it i.owner ix = true) →
        i.emits.length < 8 →
      Completes (.emit it d) s fun t =>
        (t.cluster it.slice it.cluster).item it.wslot = some { i with emits := i.emits ++ [(.submit d, false)] } ∧
        (t.cluster it.slice it.cluster).portStatus = 0 ∧ OnlyChanges [.slices] s t) ∧
    (Completes (.release it) s fun t =>
      (t.cluster it.slice it.cluster).item it.wslot = some { i with emits := i.emits.map fun e => (e.1, true) } ∧
      (t.cluster it.slice it.cluster).portStatus = 0 ∧ OnlyChanges [.slices] s t) ∧
    (∀ need : BitVec 4, Completes (.continueRun it need) s fun t => (t.cluster it.slice it.cluster).portStatus = 0 ∧
      (i.poolCore = false → (t.cluster it.slice it.cluster).item it.wslot = if i.cutAtBudget then none else
        some { i with emits := i.emits.map fun e => (e.1, true), state := .waiting, need := need, core := none })) ∧
    (∀ code : BitVec 8, Completes (.endRun it code) s fun t => (t.cluster it.slice it.cluster).portStatus = 0 ∧
      (i.poolCore = false → (t.cluster it.slice it.cluster).item it.wslot = if i.cutAtBudget then none else
        some { i with emits := i.emits.map fun e => (e.1, true), state := .held, endStatus := 0, endCode := code, core := none })) ∧
    (∀ (flow entry : Nat) (arg : BitVec 64) (need : BitVec 4) (done : Option (Nat × Nat)) (grant : Nat), grant < 4 →
        (flow = 0xFFFF ∨ s.holdsFlow it i.owner flow = true) → (∀ d, done = some d → d.2 < 4 ∧ s.holdsSlot it i.owner d.1 = true) →
      (s.waits it i.owner = false → s.maySlot it.slice it.cluster i.owner = true →
          (∃ w, w < 1024 ∧ (s.cluster it.slice it.cluster).item w = none) →
        Completes (.alloc it flow entry arg need done grant) s fun t =>
          (t.cluster it.slice it.cluster).portStatus = 0 ∧
          ∃ w seq, (t.cluster it.slice it.cluster).portResult = w ∧ (s.cluster it.slice it.cluster).item w = none ∧
            (t.cluster it.slice it.cluster).item w =
              some (itemNew w entry arg i.owner i.ctrl i.inv (if flow = 0xFFFF then none else some flow) seq need done)) ∧
      (s.waits it i.owner = true ∨ s.maySlot it.slice it.cluster i.owner = false →
        Completes (.alloc it flow entry arg need done grant) s fun t =>
          (t.cluster it.slice it.cluster).portStatus = 1 ∧
          (t.cluster it.slice it.cluster).items = (s.cluster it.slice it.cluster).items ∧
          (t.cluster it.slice it.cluster).waiting = (s.cluster it.slice it.cluster).waiting ++
            [.slot it.wslot grant (if flow = 0xFFFF then none else some flow) entry arg need done])) ∧
    (∀ kind grant ix : Nat, 1 ≤ kind → kind ≤ 5 → grant < 4 → s.waits it i.owner = false → s.mayCtx it.slice i.owner kind = true →
        (s.slice it.slice).ctxFree (ctxSpan kind) = some ix →
      Completes (.ctxAlloc it kind grant) s fun t => (t.cluster it.slice it.cluster).portStatus = 0 ∧
        (t.cluster it.slice it.cluster).portResult = ix ∧
        ∃ k, mapGet (t.slice it.slice).contexts ix = some k ∧ k.kind = kind ∧ k.owner = i.owner ∧ k.state = 0 ∧ k.ops = 0) ∧
    (∀ ix : Nat, s.holdsCtx it i.owner ix = true → Completes (.ctxFree it ix) s fun t =>
      (t.cluster it.slice it.cluster).portStatus = 0 ∧ ∀ k, mapGet (s.slice it.slice).contexts ix = some k →
        mapGet (t.slice it.slice).contexts ix = if k.ops = 0 then none else some { k with state := 3 }) ∧
    (∀ f : Nat, s.mayFlow it.slice it.cluster i.owner = true →
        (lowestFree 4096 fun g => (mapGet (s.cluster it.slice it.cluster).flows g).isSome) = some f →
      Completes (.flowOpen it) s fun t => (t.cluster it.slice it.cluster).portStatus = 0 ∧
        (t.cluster it.slice it.cluster).portResult = f ∧
        mapGet (t.cluster it.slice it.cluster).flows f = some (Sys2Proof.Machine.Flow.mk f i.owner 0 0 false)) ∧
    ∀ (f : Nat) (g : Flow), mapGet (s.cluster it.slice it.cluster).flows f = some g → i.owner = ownerDev ∨ g.owner = i.owner →
      Completes (.flowClose it f) s fun t => (t.cluster it.slice it.cluster).portStatus = 0 ∧
        mapGet (t.cluster it.slice it.cluster).flows f =
          if (s.cluster it.slice it.cluster).items.any fun q => q.2.flow == some f then some { g with closing := true } else none

/-- The first operand to reach an index of a slot fills it and sets its HAVE bit, and so does the TIMER operand of a delay entry
that is due, which leaves the lists, while one that is not due stays; an operand for a FREE slot, or for an index that has one, is a stray.
A RUNNING item whose budget is over is cut: HELD with OVERRUN, its unreleased emits gone; within its budget it runs on. One with a
protection fault on a core of a SLOT entry is HELD with FAULT. A cipher operation that succeeds, once its blocks are through, leaves one
operation fewer on its context and keeps its slot and bytes; an encryption takes one counter value and its IV, or waits while none may be
taken; a fenced one discards the context. A stream operation that succeeds adds its bytes, an error of the stream leaves the context
FAILED, one of its lengths or its capacity leaves it as it was, and a fenced one discards it. A slice DMA transfer on a channel that serves
its owner copies its source to its destination and nothing else (R24, R25, R170, R171, R182, R200, R205, R226, R227, R231, R235, R280). -/
def Obligations.OperandsBudgetsAndStreamOperations : Prop :=
  (∀ (n c w ix : Nat) (op : Operand) (s : State), s.sliceUp n = true → c < 4 →
    (∀ i, (s.cluster n c).item w = some i → i.wslot = w → ix < 4 → i.have4.getLsbD ix = false →
      Completes (.operandArrival n c w ix op) s fun t => OnlyChanges [.slices] s t ∧
        (t.cluster n c).item w = some
          { i with operands := mapInsert i.operands ix op, have4 := i.have4 ||| BitVec.ofNat 4 (2 ^ ix), armed := i.armed.filter (· != ix) }) ∧
    ((s.cluster n c).item w = none → op.kind ≠ 7 → op.kind ≠ 8 → Completes (.operandArrival n c w ix op) s fun t =>
      t.bit (Adr.tqEvt n) 1 = true ∧ t.cluster n c = s.cluster n c ∧ OnlyChanges [.regs] s t) ∧
    (∀ i, (s.cluster n c).item w = some i → 4 ≤ ix ∨ i.have4.getLsbD ix = true → Completes (.operandArrival n c w ix op) s fun t =>
      t.bit (Adr.tqEvt n) 1 = true ∧ t.cluster n c = s.cluster n c ∧ OnlyChanges [.regs] s t)) ∧
  (∀ (n c w ix : Nat) (s : State),
      (∀ d ∈ (s.cluster n c).near ++ (s.cluster n c).far, d.wslot = w → d.index = ix → s.now < d.due) →
    exec (.delayEntryDue n c w ix) s = .next s) ∧
  (∀ (n c w ix : Nat) (s : State) (i : WorkItem) (d : Delay), d ∈ (s.cluster n c).near ++ (s.cluster n c).far → d.wslot = w →
      d.index = ix → d.due ≤ s.now → (s.cluster n c).item w = some i → i.wslot = w → ix < 4 → i.have4.getLsbD ix = false →
    Completes (.delayEntryDue n c w ix) s fun t => d ∉ (t.cluster n c).near ++ (t.cluster n c).far ∧
      ∃ j, (t.cluster n c).item w = some j ∧ j.have4 = i.have4 ||| BitVec.ofNat 4 (2 ^ ix) ∧
        mapGet j.operands ix = some (opOf 6 (BitVec.ofNat 64 s.now) 0 0 0) ∧ j.state = i.state) ∧
  (∀ (it : ItemRef) (s : State) (i : WorkItem), s.running it = some i → i.wslot = it.wslot → i.cutAtBudget = false →
      s.translatedItem i = false →
    (i.budgetOver s.now = true → Completes (.budgetExpiry it) s fun t => t.bit (Adr.tqEvt it.slice) 0 = true ∧
      (t.cluster it.slice it.cluster).item it.wslot = some
        { i with emits := i.emits.filter (fun e => e.2), state := .held, endStatus := 1, endCode := 0, core := none }) ∧
    (i.budgetOver s.now = false → exec (.budgetExpiry it) s = .next s) ∧
    Completes (.protectionFault it) s fun t => i.poolCore = false →
      (t.cluster it.slice it.cluster).item it.wslot = some
        { i with emits := i.emits.filter (fun e => e.2), state := .held, endStatus := 4, endCode := 0, core := none }) ∧
  (∀ (n ctx : Nat) (op : CipherOp) (s : State) (k : Ctx), s.sliceUp n = true → mapGet (s.slice n).contexts ctx = some k →
      k.state ≠ 3 → k.kind ≠ 5 →
    (s.cipherStatus n op = 0 → s.opRunning n ctx = false → (op.encrypt = true → s.ctrReady n op.slot = true) → Completes (.cipherOpDone n ctx op) s fun t =>
      (∃ j, mapGet (t.slice n).contexts ctx = some j ∧ j.ops = k.ops - 1 ∧ j.keySlot = op.slot ∧ j.inTotal = op.arrived ∧
        j.state = k.state ∧ j.iv = if op.encrypt = true then ivOf n op.slot (s.keyCtr n op.slot).ctr else op.iv) ∧
      (t.keyCtr n op.slot).ctr = (s.keyCtr n op.slot).ctr + (if op.encrypt then 1 else 0)) ∧
    (s.cipherStatus n op = 0 → s.opRunning n ctx = true → exec (.cipherOpDone n ctx op) s = .next s) ∧
    (s.cipherStatus n op = 0 → s.opRunning n ctx = false → op.encrypt = true → s.ctrReady n op.slot = false → Completes (.cipherOpDone n ctx op) s fun t =>
      RegsBut [Adr.ksCtrWaits] s t ∧ OnlyChanges [.regs] s t) ∧
    (s.cipherStatus n op = 6 → (op.encrypt = true → s.ctrReady n op.slot = true) → Completes (.cipherOpDone n ctx op) s fun t =>
      mapGet (t.slice n).contexts ctx = none)) ∧
  (∀ (n ctx : Nat) (op : CompressOp) (s : State) (k : Ctx), s.sliceUp n = true → mapGet (s.slice n).contexts ctx = some k →
      k.state ≠ 3 → k.kind ≠ 5 → k.index = ctx →
    (s.streamStatus n ctx op = 0 → s.opRunning n ctx = true → exec (.compressOpDone n ctx op) s = .next s) ∧
    (s.streamStatus n ctx op = 0 → s.opRunning n ctx = false → Completes (.compressOpDone n ctx op) s fun t =>
      ∃ j, mapGet (t.slice n).contexts ctx = some j ∧ j.ops = k.ops - 1 ∧ j.inTotal = k.inTotal + op.arrived ∧
        j.outTotal = k.outTotal + opOutput op ∧ j.phase = (if op.finalOp then 2 else 1) ∧ j.state = k.state ∧
        j.strm.format = op.format ∧ j.strm.ringSize = opRing op ∧ j.strm.ringPtr = op.ringPtr ∧ j.strm.check = op.check) ∧
    (s.streamStatus n ctx op ≠ 0 → Completes (.compressOpDone n ctx op) s fun t => mapGet (t.slice n).contexts ctx =
      match s.streamStatus n ctx op with
      | 2 => some { k with ops := k.ops - 1 }
      | 7 => some { k with ops := k.ops - 1 }
      | 9 => none
      | _ => some { k with ops := k.ops - 1, state := 2 })) ∧
  (∀ (n ch c w ix : Nat) (d : DmaRes) (s : State), d.discarded = false → d.fenced = false → s.sdServes n ch d.owner = false →
    exec (.sliceDmaDone n ch c w ix d) s = .next s) ∧
  ∀ (n ch c w ix : Nat) (d : DmaRes) (s : State), s.slices.length = 8 → s.sliceUp n = true → ch < 16 → s.sdServes n ch d.owner = true →
      s.ownsMem n d.owner d.src d.len = true → s.ownsMem n d.owner d.dst d.len = true → d.discarded = false → d.fenced = false →
      d.badAt = none → s.goodBytes n d.src d.len = none →
    Completes (.sliceDmaDone n ch c w ix d) s fun t =>
      memRead (t.slice n).slm d.dst d.len = memRead (s.slice n).slm d.src d.len ∧ MemoryBut n d.dst d.len s t ∧
      t.rd (Adr.sdChSts n ch) = BitVec.ofNat 32 (d.owner % 512 * 256)

/-- On a partition that the requester may use, in an array that serves searches and on cycles that its payer has left: a search says HIT
exactly when a VALID entry of the partition from START on matches, and gives the lowest one; a batch writes one such response for each key,
in order, and changes no other memory. WRITE of an entry that is not VALID stages it, VALIDATE makes a staged entry VALID, RESULT_WRITE
replaces the result of a VALID one, INVALIDATE empties it; WRITE of a VALID entry, and VALIDATE or RESULT_WRITE of an EMPTY one, are refused
with STATE. Every update leaves the other entries as they were. READ gives the entry; a response reaches its requester in order. Without a
cycle left the operation waits for the next course (how operations share cycles is log entry 75). One on a partition that its requester may not use, or outside it, ends with the status
of that check and changes no entry (R206, R207, R208, R211, R212, R213, R215). -/
def Obligations.SearchesSeeOnlyValidEntries : Prop :=
  (∀ (n r p q start : Nat) (key : BitVec 128) (s : State), n < s.slices.length → r < (s.slice n).arrays.length →
      s.searchCheck n r p q start = 0 → ServesSearches s n r → HasCycles s n r q 1 →
    Completes (.search n r p q start key) s fun t => ∃ w, (t.array n r).responses = (s.array n r).responses ++ [w] ∧
      (w.getLsbD 63 = true ↔ ∃ e ∈ (s.array n r).entries, s.partBase n r p + start ≤ e.1 ∧
        e.1 < s.partBase n r p + s.partSize n r p ∧ e.2.valid = true ∧ ((key ^^^ e.2.key) &&& e.2.mask) = 0) ∧
      w = searchWord 0 (s.partBase n r p) (matchesFrom (s.array n r).entries (s.partBase n r p) (s.partSize n r p) start key) ∧
      (t.array n r).entries = (s.array n r).entries ∧ (t.array n r).lastStatus = 0) ∧
  (∀ (n r p q start count ptr : Nat) (keys : List (BitVec 128)) (s : State), n < s.slices.length → 1 ≤ count → count ≤ 4096 →
      keys.length = count → s.searchCheck n r p q start = 0 → s.ownsMem n q ptr (8 * count) = true →
      ServesSearches s n r → HasCycles s n r q count →
    Completes (.searchBatch n r p q start count keys ptr (16 * count)) s fun t =>
      memRead (t.slice n).slm ptr (8 * count) = (keys.flatMap fun k => leBytes 8 (searchWord 0 (s.partBase n r p)
        (matchesFrom (s.array n r).entries (s.partBase n r p) (s.partSize n r p) start k)).toNat) ∧
      MemoryBut n ptr (8 * count) s t) ∧
  (∀ (n r p q off : Nat) (s : State), n < s.slices.length → r < (s.slice n).arrays.length → s.searchCheck n r p q off = 0 →
      ServesSearches s n r → HasCycles s n r q 1 →
    (∀ (key mask : BitVec 128) (result : BitVec 32),
      (∀ e, mapGet (s.array n r).entries (s.partBase n r p + off) = some e → e.valid = false) →
      Completes (.entryWrite n r p q off key mask result) s fun t => (t.array n r).lastStatus = 0 ∧
        mapGet (t.array n r).entries (s.partBase n r p + off) = some (SearchEntry.mk (key &&& mask) mask result false) ∧
        ∀ b, b ≠ s.partBase n r p + off → mapGet (t.array n r).entries b = mapGet (s.array n r).entries b) ∧
    (∀ (e : SearchEntry) (key mask : BitVec 128) (result : BitVec 32),
      mapGet (s.array n r).entries (s.partBase n r p + off) = some e → e.valid = true →
      Completes (.entryWrite n r p q off key mask result) s fun t => (t.array n r).lastStatus = 3 ∧
        (t.array n r).entries = (s.array n r).entries ∧ t.bit (Adr.asEvt n) 3 = true) ∧
    (∀ e, mapGet (s.array n r).entries (s.partBase n r p + off) = some e →
      (Completes (.validate n r p q off) s fun t => (t.array n r).lastStatus = 0 ∧
        mapGet (t.array n r).entries (s.partBase n r p + off) = some { e with valid := true } ∧
        ∀ b, b ≠ s.partBase n r p + off → mapGet (t.array n r).entries b = mapGet (s.array n r).entries b) ∧
      ∀ result : BitVec 32, e.valid = true → Completes (.resultWrite n r p q off result) s fun t => (t.array n r).lastStatus = 0 ∧
        mapGet (t.array n r).entries (s.partBase n r p + off) = some { e with result := result } ∧
        ∀ b, b ≠ s.partBase n r p + off → mapGet (t.array n r).entries b = mapGet (s.array n r).entries b) ∧
    (mapGet (s.array n r).entries (s.partBase n r p + off) = none → ∀ result : BitVec 32,
      ∀ i ∈ [Instr.validate n r p q off, .resultWrite n r p q off result],
        ∃ t, exec i s = .next t ∧ (t.array n r).lastStatus = 3 ∧ (t.array n r).entries = (s.array n r).entries) ∧
    (Completes (.invalidate n r p q off) s fun t => (t.array n r).lastStatus = 0 ∧
      mapGet (t.array n r).entries (s.partBase n r p + off) = none ∧
      ∀ b, b ≠ s.partBase n r p + off → mapGet (t.array n r).entries b = mapGet (s.array n r).entries b) ∧
    Completes (.entryRead n r p q off) s fun t => (t.array n r).lastStatus = 0 ∧
      (t.array n r).entries = (s.array n r).entries ∧
      (t.array n r).readOut.map Prod.fst = some (match mapGet (s.array n r).entries (s.partBase n r p + off) with
        | none => 0
        | some e => if e.valid then 2 else 1) ∧
      ∀ e, mapGet (s.array n r).entries (s.partBase n r p + off) = some e → (t.array n r).readOut.map Prod.snd = some e) ∧
  (∀ (n r p q off : Nat) (key mask : BitVec 128) (result : BitVec 32) (s : State), n < s.slices.length → r < (s.slice n).arrays.length →
    (s.searchCheck n r p q off = 0 → ServesSearches s n r → s.cyclesLeft n r (s.cyclePayer q) = 0 →
      ∀ o ∈ [(Instr.search n r p q off key, SearchOp.search key), (.entryWrite n r p q off key mask result, .write key mask result),
        (.validate n r p q off, .validate), (.resultWrite n r p q off result, .resultWrite result), (.invalidate n r p q off, .invalidate),
        (.entryRead n r p q off, .read)],
      ∃ t, exec o.1 s = .next t ∧ t.array n r =
        { s.array n r with jobs := (s.array n r).jobs ++ [{ part := p, requester := q, offset := off, op := o.2 }] } ∧ OnlyChanges [.slices] s t) ∧
    (s.searchCheck n r p q off ≠ 0 →
      ∀ i ∈ [Instr.search n r p q off key, .entryWrite n r p q off key mask result, .validate n r p q off, .resultWrite n r p q off result,
        .invalidate n r p q off, .entryRead n r p q off],
      ∃ t, exec i s = .next t ∧ (t.array n r).lastStatus = s.searchCheck n r p q off ∧ (t.array n r).entries = (s.array n r).entries)) ∧
  (∀ (n r c w ix : Nat) (s : State), (s.array n r).responses = [] → exec (.searchResponse n r c w ix) s = .next s) ∧
  ∀ (n r c w ix : Nat) (s : State) (v : BitVec 64) (l : List (BitVec 64)) (i : WorkItem), (s.array n r).responses = v :: l →
      (s.cluster n c).item w = some i → i.wslot = w → ix < 4 → i.have4.getLsbD ix = false →
    Completes (.searchResponse n r c w ix) s fun t => (t.array n r).responses = l ∧
      ∃ j, (t.cluster n c).item w = some j ∧ (mapGet j.operands ix).map Operand.value = some v

/-- A format that its checks allow is RUNNING, and when it ends the slice holds no data but its format metadata, its mapping unit is the one
chosen, the blocks that failed to erase are retired and the result is DONE; a refused one says why and changes no slice, and while one runs
GO is ignored. DEV_WEAR_RATE is computed anew. Discovery of a channel that trains leaves it READY and writable, one that does not leaves it in
FAULT and reported; so does a retraining that fails, and one that succeeds applies the rate that a request selects. A flash ZQ calibration
changes nothing. A poll that is due gives its operation the status that the LUN drives. An operation that is overdue is repeated once after a
LUN Reset; a second time-out, or a LUN that is not ready after its reset, has failed. A health evaluation only moves forward (the
form of its figures is log entry 69). An evacuation of
a LUN in service runs, another is REFUSED meanwhile, and once nothing valid is left on the LUN it ends EVACUATED unless it failed (R99, R136,
R138, R140, R146, R147, R148, R164, R165). -/
def Obligations.SlicesAreFormattedAndKeptHealthy : Prop :=
  (∀ (n mu : Nat) (s : State), s.held = false → s.hasSlice n = true → s.slices.length = 8 → s.fld (Adr.ftFmtSts n) 31 28 ≠ 1 →
    (s.formatCheck n mu = 1 → Completes (.sliceFormat n mu) s fun t => (t.slice n).formatting.isSome = true ∧
      (mu < 3 → (t.slice n).formatting = some mu) ∧ t.fld (Adr.ftFmtSts n) 31 28 = 1 ∧ t.fld (Adr.ftSts n) 2 0 = 1 ∧
      RegsBut [Adr.ftFmtCtl n, Adr.ftFmtSts n, Adr.ftSts n] s t) ∧
    (s.formatCheck n mu ≠ 1 → Completes (.sliceFormat n mu) s fun t => t.slices = s.slices ∧
      t.fld (Adr.ftFmtSts n) 31 28 = s.formatCheck n mu)) ∧
  (∀ (n mu : Nat) (s : State), s.held = false → s.hasSlice n = true → s.fld (Adr.ftFmtSts n) 31 28 = 1 →
    Completes (.sliceFormat n mu) s fun t => t.slices = s.slices ∧ RegsBut [Adr.ftFmtCtl n] s t ∧ OnlyChanges [.regs] s t) ∧
  (∀ (n mu : Nat) (d : MediaDesc) (fails : List (Nat × Nat)) (s : State), s.held = false → (s.slice n).formatting = some mu →
      s.desc n = some d →
    Completes (.sliceFormatDone n fails) s fun t => (t.slice n).formatting = none ∧ (t.slice n).muFmt = some mu ∧
      (t.slice n).map = [] ∧ (t.slice n).versions = [] ∧ (t.slice n).units = [] ∧ (t.slice n).supers = [] ∧
      (t.slice n).index = [] ∧ (t.slice n).objects = [] ∧ (∀ q ∈ fails, ((t.slice n).block q.1 q.2).retired = true) ∧
      (t.slice n).store.supers.length = 1 ∧ t.fld (Adr.ftFmtSts n) 31 28 = 2) ∧
  (∀ s : State, Completes .devWearRateUpdate s fun t => t = s.updateWearRate ∧ OnlyChanges [.wearRateMax] s t) ∧
  (∀ (n ch fails : Nat) (vols : List VolumeId) (s : State), s.held = false → s.mediaOn n = true → ch < 8 →
      s.fld (Adr.flChSts n ch) 2 0 = 1 →
    Completes (.channelDiscovery n ch vols fails) s fun t =>
      if fails < 4 then t.fld (Adr.flChSts n ch) 2 0 = 3 ∧ 8 * n + ch ∈ t.pins.wpN
      else t.fld (Adr.flChSts n ch) 2 0 = 4 ∧ (∃ c, (UnitId.flashCh n ch, c) ∈ t.fenceSoon) ∧ t.bit (Adr.flEvt n) 2 = true) ∧
  (∀ (n ch : Nat) (s : State), s.held = false → s.mediaOn n = true → ch < 8 → s.fld (Adr.flChSts n ch) 2 0 = 3 →
    (Completes (.flashRetrain n ch true) s fun t => OnlyChanges [.slices] s t ∧ ch ∉ (t.slice n).flash.retrain ∧
      (ch ∈ (s.slice n).flash.retrain → mapGet (t.slice n).flash.rates ch = some (s.fld (Adr.flChCtl n ch) 1 0)) ∧
      (ch ∉ (s.slice n).flash.retrain → (t.slice n).flash.rates = (s.slice n).flash.rates)) ∧
    Completes (.flashRetrain n ch false) s fun t => t.fld (Adr.flChSts n ch) 2 0 = 4 ∧
      (∃ c, (UnitId.flashCh n ch, c) ∈ t.fenceSoon) ∧ t.bit (Adr.flEvt n) 2 = true) ∧
  (∀ (n : Nat) (s : State), Completes (.flashZqShortDue n) s fun t => t = s) ∧
  (∀ (n lun : Nat) (res : PollRes) (s : State), s.mediaOn n = true →
    (∀ w, ((s.slice n).workOn lun fun v => v.stage == .busy && v.polled.isNone && decide (v.pollAt ≤ s.now)) = some w →
      Completes (.lunPollDue n lun res) s fun t => OnlyChanges [.slices] s t ∧
        { w with polled := some res } ∈ (t.slice n).flash.works ∧
        ∀ l ∈ (t.slice n).luns, l.lun = lun → res ≠ .busy → l.timeouts = 0) ∧
    (((s.slice n).workOn lun fun v => v.stage == .busy && v.polled.isNone && decide (v.pollAt ≤ s.now)) = none →
      exec (.lunPollDue n lun res) s = .next s)) ∧
  (∀ (n lun : Nat) (ready : Bool) (s : State) (d : MediaDesc) (l : Lun), s.mediaOn n = true → s.desc n = some d →
      (s.slice n).lun lun = some l → l.health ≠ .failed → l.health ≠ .evacuated →
    (∀ w, (s.slice n).workOn lun (s.overdue d) = some w → Completes (.operationTimeout n lun ready) s fun t =>
      if l.timeouts = 0 ∧ ready = true then (t.slice n).lun lun = some { l with timeouts := 1 } ∧
        w.repeated d ∈ (t.slice n).flash.works ∧ OnlyChanges [.slices] s t
      else ((t.slice n).lun lun).map Lun.health = some .failed ∧ t.bit (Adr.flEvt n) 3 = true) ∧
    ((s.slice n).workOn lun (s.overdue d) = none → exec (.operationTimeout n lun ready) s = .next s)) ∧
  (∀ (n lun r2 r4 : Nat) (s : State) (d : MediaDesc) (l : Lun), s.sliceUp n = true → s.desc n = some d →
      (s.slice n).lun lun = some l → l.good = true →
    Completes (.lunHealthEval n lun r2 r4) s fun t => ((t.slice n).lun lun).map Lun.health =
      some (if l.health.code < (s.healthOf n d l r2 r4).1.code then (s.healthOf n d l r2 r4).1 else l.health)) ∧
  (∀ (n lun : Nat) (s : State) (l : Lun), s.sliceUp n = true → (s.slice n).lun lun = some l → l.active = true → l.health ≠ .failed →
      l.health ≠ .evacuated →
    Completes (.evacuationGo n lun false) s fun t =>
      if (s.slice n).evacuating = none then (t.slice n).evacuating = some lun ∧ t.fld (Adr.ftEvacSts n) 31 30 = 1
      else t.slices = s.slices ∧ t.fld (Adr.ftEvacSts n) 31 30 = 3) ∧
  (∀ (n lun : Nat) (s : State) (l : Lun), s.sliceUp n = true → (s.slice n).lun lun = some l → l.active = true → l.health = .warn →
      (s.slice n).evacuating = none →
    (s.bit (Adr.ftEvacCtl n) 30 = true → Completes (.evacuationGo n lun true) s fun t =>
      (t.slice n).evacuating = some lun ∧ t.fld (Adr.ftEvacSts n) 31 30 = 1) ∧
    (s.bit (Adr.ftEvacCtl n) 30 = false → exec (.evacuationGo n lun true) s = .next s)) ∧
  ∀ (n lun : Nat) (s : State), s.sliceUp n = true → (s.slice n).evacuating = some lun →
    (s.bytesOn n lun = 0 → Completes (.evacuationDone n) s fun t => (t.slice n).evacuating = none ∧
      (∀ l ∈ (t.slice n).luns, l.lun = lun → l.health = .failed ∨ l.health = .evacuated) ∧ t.fld (Adr.ftEvacSts n) 31 30 = 2) ∧
    (s.bytesOn n lun ≠ 0 → exec (.evacuationDone n) s = .next s)

/-- An OPEN version that is old enough is marked for streaming, and a page that has held packed data long enough is completed with grout.
When the program of a page is confirmed, the versions that lie wholly on confirmed pages are gone, nobody waits for them, and an entry that
named one no longer does; it names the stored unit with the version's blocks. When it fails, the block is marked and the failure counted;
what lay on the page starts again with one attempt more, and the third failure under Through rules ends the waiting commands with Write
Fault. A block whose erase failed is retired. A pass is counted by its level, unless the codeword was ERASED, and delivers its pointer as a
READ_DONE operand; an uncorrectable one sets its event flag. The last good pass of a verification makes the superblock VERIFIED. A patrol
stamps its superblock, and the units on the pages above the limit are to be relocated (R106, R108, R110, R112, R116, R118, R119, R125, R157,
R160). -/
def Obligations.VersionsGoToFlashAndAreChecked : Prop :=
  (∀ (n w : Nat) (s : State) (v : Version), s.mediaOn n = true → (s.slice n).version w = some v → v.state = .wopen →
    Completes (.streamAgeTrigger n w) s fun t => OnlyChanges [.slices] s t ∧ (t.slice n).version w =
      some (if v.openedAt + s.ageCourses n ≤ s.now then { v with trigger := true } else v)) ∧
  (∀ (n sb : Nat) (s : State) (d : MediaDesc) (b : Superblock), s.mediaOn n = true → s.desc n = some d →
      (s.slice n).super sb = some b → b.state = .sopen → b.fill % max 1 (b.pageBytes d) ≠ 0 → b.filledAt + s.ageCourses n ≤ s.now →
    Completes (.flashPageAgeTimeout n sb) s fun t => ((t.slice n).super sb).map Superblock.fill =
      some (max b.fill (min (b.cap d) (roundUp b.fill (max 1 (b.pageBytes d))))) ∧ OnlyChanges [.slices] s t) ∧
  (∀ (n lun seq p : Nat) (s : State) (d : MediaDesc) (x : FlWork) (b c : Superblock), s.mediaOn n = true → s.desc n = some d →
      (s.slice n).endedOn lun .program true = some x → x.why = .page seq p → (s.slice n).super seq = some b →
      c = { b with waiting := b.waiting.filter (· != p) } →
    Completes (.programConfirmed n lun) s fun t => OnlyChanges [.inflight, .slices] s t ∧
      ((t.slice n).super seq).map Superblock.waiting = some c.waiting ∧
      (∀ v ∈ (s.slice n).versions, v.state = .streaming → v.sb = seq → c.written d v.start (unitBytes v.slen) = true →
        (t.slice n).version v.wslot = none ∧ (∀ y ∈ t.inflight, .programmed n v.wslot ∉ y.conds)) ∧
      (∀ v, (s.slice n).versions = [v] → (s.slice n).moves = [] → v.state = .streaming → v.sb = seq →
        c.written d v.start (unitBytes v.slen) = true → (s.slice n).entry v.index = .buffer v.wslot →
        ∃ u ∈ (t.slice n).units, (t.slice n).entry v.index = u.entry ∧ u.nsid = v.nsid ∧ u.lua = v.lua ∧ u.blocks = v.blocks ∧
          u.wseq = v.wseq ∧ u.keyGen = v.keyGen)) ∧
  (∀ (n lun : Nat) (s : State) (x : FlWork), s.mediaOn n = true → (s.slice n).endedOn lun .program false = some x →
      (s.slice n).lun lun ≠ none →
    Completes (.programFailed n lun x.block x.row) s fun t =>
      ((t.slice n).lun lun).any (fun l => l.failedBlocks.contains (x.block, s.now)) = true) ∧
  (∀ (n lun seq p : Nat) (s : State) (d : MediaDesc) (x : FlWork) (b : Superblock) (v : Version), s.mediaOn n = true → s.desc n = some d →
      (s.slice n).endedOn lun .program false = some x → x.why = .page seq p → (s.slice n).super seq = some b →
      p ∈ b.waiting → ((b.pageAt p).map fun q => (q.1, q.2.1)) = some (lun, x.block) →
      (∀ l, (s.slice n).lun lun = some l → l.failedBlocks.length < 15) → (s.slice n).version v.wslot = some v →
      (∀ z ∈ (s.slice n).versions, z.wslot = v.wslot → z = v) → v.state = .streaming → v.sb = seq →
      p ∈ b.span d v.start (unitBytes v.slen) →
    Completes (.programFailed n lun x.block x.row) s fun t =>
      (v.through = false ∨ v.attempts < 2 →
        ((t.slice n).version v.wslot).map (fun z => (z.state, z.attempts, z.blocks)) = some (.filling, v.attempts + 1, v.blocks)) ∧
      (v.through = true → 2 ≤ v.attempts → (v.acked = [] → (t.slice n).version v.wslot = none) ∧
        ∀ y ∈ s.inflight, .programmed n v.wslot ∈ y.conds → y.failLba = none →
          ∃ z ∈ t.inflight, z.hdr = y.hdr ∧ z.answer.status = stWriteFault ∧ .programmed n v.wslot ∉ z.conds)) ∧
  (∀ (n lun : Nat) (s : State) (x : FlWork), s.mediaOn n = true → (s.slice n).endedOn lun .erase false = some x →
    Completes (.eraseFailed n lun x.block) s fun t => ((t.slice n).block lun x.block).retired = true) ∧
  (∀ (n c w ix : Nat) (p : ReadPass) (s : State) (i : WorkItem), s.mediaOn n = true → p.lun < 512 → p.verifySb = none →
      p.uncorrectable = false → p.addrMismatch = false → p.tagOk = true →
      (s.cluster n c).item w = some i → i.wslot = w → ix < 4 → i.have4.getLsbD ix = false →
    Completes (.readPassDone n c w ix p) s fun t =>
      (∃ j, (t.cluster n c).item w = some j ∧ ∃ o, mapGet j.operands ix = some o ∧ o.value = p.ptr ∧ o.kind = 4) ∧
      (p.erased = false → t.fld (passCounter n (lunCh p.lun) p) 31 0 =
          min (2 ^ 32 - 1) (s.fld (passCounter n (lunCh p.lun) p) 31 0 + 1) ∧
        RegsBut [passCounter n (lunCh p.lun) p] s t) ∧
      (p.erased = true → t.regs = s.regs)) ∧
  (∀ (n c w ix : Nat) (p : ReadPass) (s : State), s.mediaOn n = true → p.erased = false →
      p.uncorrectable = true ∨ p.addrMismatch = true →
    Completes (.readPassDone n c w ix p) s fun t => t.bit (Adr.flEvt n) 0 = true) ∧
  (∀ (n c w ix seq : Nat) (p : ReadPass) (s : State) (b : Superblock), s.mediaOn n = true → p.lun < 512 → p.verifySb = some seq →
      p.verifyLast = true → p.level ≤ 6 → p.uncorrectable = false → p.addrMismatch = false →
      p.corrected ≤ s.fld (Adr.ftVerifyCfg n) 9 0 → (s.slice n).super seq = some b → b.state = .verifying →
      (s.slice n).verifyRead b = true →
    Completes (.readPassDone n c w ix p) s fun t =>
      ((t.slice n).super seq).map (fun z => (z.state, z.parityHeld, z.patrolAt)) = some (.verified, false, s.now)) ∧
  ∀ (n sb : Nat) (weak : List (Nat × Nat)) (s : State) (d : MediaDesc) (b : Superblock), s.mediaOn n = true → s.desc n = some d →
      (s.slice n).super sb = some b → b.state = .verified → (s.slice n).sbWithdrawn b = false →
    Completes (.patrolDue n sb weak) s fun t => ((t.slice n).super sb).map Superblock.patrolAt = some s.now ∧
      ∀ q ∈ weak, s.fld (Adr.ftVerifyCfg n) 9 0 < q.2 → ∀ u ∈ s.unitsAt n sb q.1, u.entry ∈ (t.slice n).relocs

/-- A channel start with fewer than three failed trainings and a good self-test leaves the channel READY, any other leaves it
FENCED and its slice without local memory contents. The first refresh of a course, and the second where a channel of the slice is in
high-temperature mode, keeps the longest wait that it caused; refreshes need a running course generator. A retraining that falls due, by itself or by
command, is noted with its course once; one held too long is forced; one that ends with a working setting is READY again and
raises its event, one that does not leaves the channel FENCED. A merge-buffer entry that times out is gone, and its line is
poisoned when it could not be read. A scrub starts with cleared summaries, ignores a second GO, and ends DONE with its counts or
STOPPED, with its event; STOP and the end without one change nothing. A ZQ calibration changes nothing (R26, R282, R292, R294, R295,
R296, R298, R299, R300, R301). -/
def Obligations.DramChannelsTrainServeAndAreFenced : Prop :=
  (∀ (n c fails selftest : Nat) (s : State), s.dramThere n c = true → s.dramState n c = 0 → s.fenceOf (UnitId.dramCh n c) = none →
    Completes (.dramChannelStart n c fails selftest) s fun t =>
      if fails < 3 ∧ selftest = 0 then t.dramState n c = 4 ∧ t.fences = s.fences
      else t.dramState n c = 6 ∧ t.fenceOf (UnitId.dramCh n c) = some .forFault ∧ (s.slices.length = 8 → (t.slice n).slm = [])) ∧
  (∀ (ns : Nat) (s : State), s.held = false → s.course.running = true → Completes (.dramRefresh ns) s fun t =>
    OnlyChanges [.regs, .course] s t ∧ t.course = { s.course with refreshed := s.course.refreshed + 1 } ∧
    ∀ n, s.dramThere n 0 = true →
      t.fld (Adr.dmRefMaxNs n) 15 0 =
        if s.course.refreshed = 0 ∨ s.course.refreshed = 1 ∧ (s.hotRefresh n 0 = true ∨ s.hotRefresh n 1 = true) then
          max (min ns (dramGuard + s.tRfc n)) (s.fld (Adr.dmRefMaxNs n) 15 0)
        else s.fld (Adr.dmRefMaxNs n) 15 0) ∧
  (∀ (ns : Nat) (s : State), s.held = true ∨ s.course.running = false → exec (.dramRefresh ns) s = .next s) ∧
  (∀ s : State, Completes .dramZqCal s fun t => t = s) ∧
  (∀ (n c : Nat) (s : State), s.slices.length = 8 → s.dramThere n c = true → c < (s.slice n).drams.length → s.dramState n c = 4 →
    (Completes (.dramRetrainDue n c) s fun t => (t.dram n c).due = true ∧ ((s.dram n c).due = false → (t.dram n c).dueAt = s.now) ∧
      ((s.dram n c).due = true → (t.dram n c).dueAt = (s.dram n c).dueAt) ∧ OnlyChanges [.slices] s t) ∧
    Completes (.dramRetrain n c) s fun t => (t.dram n c).due = true ∧ ((s.dram n c).due = false → (t.dram n c).dueAt = s.now) ∧
      OnlyChanges [.slices] s t) ∧
  (∀ (n c : Nat) (s : State), (s.dram n c).due = true → Completes (.retrainHoldExpiry n c) s fun t =>
    t.dram n c = { s.dram n c with forced := true } ∧ OnlyChanges [.slices] s t) ∧
  (∀ (n c : Nat) (s : State), (s.dram n c).due = false → exec (.retrainHoldExpiry n c) s = .next s) ∧
  (∀ (n c : Nat) (s : State), s.hasSlice n = true → c < 2 → s.dramState n c = 5 → s.fenceOf (UnitId.dramCh n c) = none →
    (Completes (.dramRetrainDone n c true) s fun t => t.dramState n c = 4 ∧ t.bit (Adr.dmEvt n) 1 = true ∧ t.fences = s.fences) ∧
    Completes (.dramRetrainDone n c false) s fun t => t.dramState n c = 6 ∧
      t.fenceOf (UnitId.dramCh n c) = some .forFault ∧ t.bit (Adr.dmEvt n) 0 = true) ∧
  (∀ (n c b : Nat) (readOk : Bool) (s : State) (m : MergeEntry), c < (s.slice n).drams.length →
      (s.slice n).merges.find? (fun m => m.ch == c && m.burst == b) = some m →
    Completes (.mergeEntryTimeout n c b readOk) s fun t => (t.slice n).merges = (s.slice n).merges.erase m ∧
      (readOk = false → b ∈ (t.dram n c).poisoned) ∧ (readOk = true → (t.slice n).drams = (s.slice n).drams) ∧
      OnlyChanges [.regs, .slices] s t) ∧
  (∀ (n ce : Nat) (ue : List Nat) (s : State), s.fld (Adr.dmScrubSts n) 31 30 ≠ 1 →
    exec (.scrubStop n) s = .next s ∧ exec (.scrubDone n ce ue) s = .next s) ∧
  (∀ (n : Nat) (s : State), s.dramThere n 0 = true →
    (s.fld (Adr.dmScrubSts n) 31 30 ≠ 1 → Completes (.scrubGo n) s fun t => t.fld (Adr.dmScrubSts n) 31 30 = 1 ∧
      t.rd (Adr.dmScrubCe n) = 0 ∧ t.rd (Adr.dmScrubUe n) = 0 ∧ OnlyChanges [.regs] s t) ∧
    (s.fld (Adr.dmScrubSts n) 31 30 = 1 → exec (.scrubGo n) s = .next s ∧
      (Completes (.scrubStop n) s fun t => t.fld (Adr.dmScrubSts n) 31 30 = 3 ∧ t.bit (Adr.dmEvt n) 4 = true) ∧
      ∀ (ce : Nat) (ue : List Nat), Completes (.scrubDone n ce ue) s fun t => t.fld (Adr.dmScrubSts n) 31 30 = 2 ∧
        t.rd (Adr.dmScrubCe n) = BitVec.ofNat 32 (min 0xFFFFFFFF ce) ∧
        t.rd (Adr.dmScrubUe n) = BitVec.ofNat 32 (min 0xFFFFFFFF ue.length) ∧ t.bit (Adr.dmEvt n) 4 = true))

/-- A fault report of a unit that is built fences it for fault and counts it, if it was not fenced so before, and takes it off
the reports that wait; a slice's own unit takes the slice offline. A test request that its conditions allow is the test under
way; another one while a test runs, of a unit that is not there, of one fenced for fault three times, of a last path, or of a host DMA SLOT
channel while its row has a SLOT entry, ends with its result and leaves the test. A test that passes
ends with PASS and lets a unit that was out of service return, one that fails ends with FAIL and fences the unit. A request to
take a slice offline, or the failure of its link, leaves the slice OFFLINE and its bit and event set (R377, R378, R379, R380,
R382, R383). -/
def Obligations.FencesTestsAndOfflineSlices : Prop :=
  (∀ (u : UnitId) (cause : FenceCause) (s : State), s.built u = true → u.kind ≠ 0xC →
    Completes (.faultFence u cause) s fun t => t.fenceOf u = some .forFault ∧ (∀ p ∈ t.fenceSoon, p.1 ≠ u) ∧
      (s.fenceOf u ≠ some .forFault → t.fenceTimes u = s.fenceTimes u + 1) ∧ t.namespaces = s.namespaces ∧ t.tenants = s.tenants) ∧
  (∀ (n : Nat) (s : State), s.slices.length = 8 → s.hasSlice n = true → (s.slice n).mode ≠ .off → (s.slice n).mode ≠ .offline →
    (Completes (.sliceOfflineRequest n) s fun t => (t.slice n).mode = .offline ∧ t.bit Adr.tcSts (16 + n) = true ∧
      t.bit Adr.tcEvt 3 = true ∧ (t.slice n).versions = [] ∧ (t.slice n).slm = []) ∧
    (Completes (.sliceLinkFail n) s fun t => (t.slice n).mode = .offline ∧ t.bit Adr.tcSts (16 + n) = true ∧
      t.fenceOf (UnitId.wholeSlice n) = some .forFault) ∧
    ∀ cause, Completes (.faultFence (UnitId.wholeSlice n) cause) s fun t => (t.slice n).mode = .offline) ∧
  (∀ (kind n number : Nat) (s : State),
    (s.test = none → s.testPresent ⟨kind, n, number⟩ = true →
        s.fenceTimes ⟨kind, n, number⟩ < 3 ∨ s.fenceOf ⟨kind, n, number⟩ ≠ some .forFault → s.lastPath ⟨kind, n, number⟩ = false →
        (kind = 0x21 → number < 4 → s.rowHasSlot 64 = false) →
      Completes (.onlineTestGo kind n number) s fun t => t.test = some ⟨kind, n, number⟩ ∧
        t.rd Adr.tcTestSts = BitVec.ofNat 32 (2 ^ 28 + UnitId.word ⟨kind, n, number⟩) ∧ OnlyChanges [.regs, .test] s t) ∧
    (s.test.isSome = true → Completes (.onlineTestGo kind n number) s fun t =>
      t.rd Adr.tcTestSts = BitVec.ofNat 32 (4 * 2 ^ 28 + UnitId.word ⟨kind, n, number⟩) ∧ OnlyChanges [.regs] s t) ∧
    (s.test = none → s.testPresent ⟨kind, n, number⟩ = false → Completes (.onlineTestGo kind n number) s fun t =>
      t.rd Adr.tcTestSts = BitVec.ofNat 32 (5 * 2 ^ 28 + UnitId.word ⟨kind, n, number⟩) ∧ OnlyChanges [.regs] s t) ∧
    (s.test = none → s.testPresent ⟨kind, n, number⟩ = true →
      ((3 ≤ s.fenceTimes ⟨kind, n, number⟩ ∧ s.fenceOf ⟨kind, n, number⟩ = some .forFault →
        Completes (.onlineTestGo kind n number) s fun t =>
          t.rd Adr.tcTestSts = BitVec.ofNat 32 (6 * 2 ^ 28 + UnitId.word ⟨kind, n, number⟩) ∧ OnlyChanges [.regs] s t) ∧
      (s.fenceTimes ⟨kind, n, number⟩ < 3 ∨ s.fenceOf ⟨kind, n, number⟩ ≠ some .forFault →
        (s.lastPath ⟨kind, n, number⟩ = true → Completes (.onlineTestGo kind n number) s fun t =>
          t.rd Adr.tcTestSts = BitVec.ofNat 32 (7 * 2 ^ 28 + UnitId.word ⟨kind, n, number⟩) ∧ OnlyChanges [.regs] s t) ∧
        (s.lastPath ⟨kind, n, number⟩ = false → kind = 0x21 → number < 4 → s.rowHasSlot 64 = true →
          Completes (.onlineTestGo kind n number) s fun t =>
            t.rd Adr.tcTestSts = BitVec.ofNat 32 (8 * 2 ^ 28 + UnitId.word ⟨kind, n, number⟩) ∧ OnlyChanges [.regs] s t))))) ∧
  (∀ (pass : Bool) (s : State), s.test = none → exec (.onlineTestDone pass) s = .next s) ∧
  ∀ (s : State) (u : UnitId), s.test = some u → s.built u = true → testable u.kind = true →
    (Completes (.onlineTestDone true) s fun t => t.test = none ∧ t.fld Adr.tcTestSts 31 28 = 2 ∧ t.bit Adr.tcEvt 0 = true ∧
      t.unfence = (if inService u then s.unfence else s.unfence ++ [u]) ∧ OnlyChanges [.regs, .test, .unfence] s t) ∧
    Completes (.onlineTestDone false) s fun t => t.test = none ∧ t.fld Adr.tcTestSts 31 28 = 3 ∧ t.bit Adr.tcEvt 1 = true ∧
      t.fenceOf u = some .forFault

/-- When a single channel that may move is ready and a position of the course serves it, one beat of its transfer is confirmed and nothing
else moves; the last beat frees the channel, for a transfer that waits if there is one. Where no position serves a ready channel nothing
moves. A bus error on an unmerged request ends the transfer and fails its command with Data Transfer Error; one on a merged request sets the
stop with its suspects, moves no transfer and probes the lowest; another one during a stop adds its suspects. A probe that finds a culprit
fails its command; after the last suspect the stop ends. A write of HD_CH_CTL of a pool channel waits for the next bond period boundary, is
ignored with its event when it would leave a kind without a channel, and does nothing on channels 00 to 03 (R268, R270, R273, R275, R276,
R277, R278). -/
def Obligations.HostDmaMovesBeatsAndFindsCulprits : Prop :=
  (∀ (c : Nat) (s : State) (tr : Transfer) (w : FlWindow), (s.hdCh c).cur = some tr → c < 32 → s.hdMay tr.toHost c = true →
      s.hdPosition [c] = some w →
    Completes (.hostDmaBeat [c]) s fun t => OnlyChanges [.course, .hd, .parks, .hdQueue] s t ∧
      t.course.host.cycle = max s.course.host.cycle w.start + 1 ∧
      (2 ≤ tr.beatsLeft → (t.hdCh c).cur = some { tr with beatsLeft := tr.beatsLeft - 1, confirmed := tr.confirmed + 1 } ∧
        ∀ k, k ≠ c → t.hdCh k = s.hdCh k) ∧
      (tr.beatsLeft = 1 → s.parks = [] → s.hdQueue = [] → (t.hdCh c).cur = none ∧ ∀ k, k ≠ c → t.hdCh k = s.hdCh k)) ∧
  (∀ (ready : List Nat) (s : State), s.hdPosition ready = none → exec (.hostDmaBeat ready) s = .next s) ∧
  (∀ (c : Nat) (cause : BusCause) (merged : List Nat) (s : State), (∀ m ∈ merged, m < 4 ∨ 32 ≤ m) ∨ s.bit Adr.hdCfg 0 = false →
    (∀ (tr : Transfer) (h : Hdr), (s.hdCh c).cur = some tr → tr.hdr = some h → c < 32 → tr.owner < 512 → (s.inFlight h).isSome = true →
      Completes (.busError c cause merged) s fun t => Answered t h (ansSt stTransfer) ∧ t.bit Adr.hdEvt 0 = true ∧
        t.bit Adr.hdErr 31 = true ∧ (s.parks = [] → s.hdQueue = [] → (t.hdCh c).cur = none)) ∧
    ((s.hdCh c).cur = none → exec (.busError c cause merged) s = .next s)) ∧
  (∀ (c : Nat) (cause : BusCause) (l : List Nat) (s : State), l ≠ [] → (∀ m ∈ l, 4 ≤ m ∧ m < 32) → s.bit Adr.hdCfg 0 = true →
      s.bit Adr.hdSts 31 = true →
    Completes (.busError c cause l) s fun t => RegsBut [Adr.hdSuspect] s t ∧ OnlyChanges [.regs] s t ∧
      ∀ m, m < 32 → (t.bit Adr.hdSuspect m = true ↔ s.bit Adr.hdSuspect m = true ∨ m ∈ l)) ∧
  (∀ (c k : Nat) (cause : BusCause) (l : List Nat) (s : State), (∀ m ∈ k :: l, 4 ≤ m ∧ m < 32) → s.bit Adr.hdCfg 0 = true →
      s.bit Adr.hdSts 31 = false →
    Completes (.busError c cause (k :: l)) s fun t => t.bit Adr.hdSts 31 = true ∧ t.bit Adr.hdEvt 1 = true ∧
      (∀ m, m < 32 → (t.bit Adr.hdSuspect m = true ↔ m ∈ k :: l)) ∧ t.fld Adr.hdSts 4 0 ∈ k :: l ∧
      (∀ m ∈ k :: l, t.fld Adr.hdSts 4 0 ≤ m) ∧ OnlyChanges [.regs] s t) ∧
  (∀ (ok : Bool) (cause : BusCause) (ns : Nat) (s : State), s.bit Adr.hdSts 31 = false → exec (.probeComplete ok cause ns) s = .next s) ∧
  (∀ (ok : Bool) (cause : BusCause) (ns : Nat) (s : State), s.bit Adr.hdSts 31 = true →
    Completes (.probeComplete ok cause ns) s fun t =>
      ((∀ m, s.fld Adr.hdSts 4 0 < m → m < 32 → s.bit Adr.hdSuspect m = false) → t.bit Adr.hdSts 31 = false) ∧
      (∀ m, s.fld Adr.hdSts 4 0 < m → m < 32 → s.bit Adr.hdSuspect m = true →
        (∀ j, s.fld Adr.hdSts 4 0 < j → j < m → s.bit Adr.hdSuspect j = false) →
        t.bit Adr.hdSts 31 = true ∧ t.fld Adr.hdSts 4 0 = m) ∧
      (ok = true → t.hd = s.hd ∧ t.inflight = s.inflight) ∧
      (ok = false → ∀ tr h, (s.hdCh (s.fld Adr.hdSts 4 0)).cur = some tr → tr.hdr = some h → (s.inFlight h).isSome = true →
        Answered t h (ansSt stTransfer) ∧ t.bit Adr.hdEvt 2 = true)) ∧
  ∀ (c : Nat) (v : BitVec 32) (s : State), s.hd.length = 32 →
    (4 ≤ c → c < 32 → s.hdCtlBad c v = false → Completes (.hdChCtlWrite c v) s fun t =>
      (t.hdCh c).newCtl = some (hdCtlMask v) ∧ (∀ a, t.rd a = s.rd a) ∧ OnlyChanges [.hd] s t) ∧
    (4 ≤ c → c < 32 → s.hdCtlBad c v = true → Completes (.hdChCtlWrite c v) s fun t => t.bit Adr.hdEvt 3 = true ∧
      OnlyChanges [.regs] s t) ∧
    (c < 4 ∨ 32 ≤ c → exec (.hdChCtlWrite c v) s = .next s)

/-- A sag is counted once, in the register and in NVM, and abandons a measurement; its end keeps its length; one that lasts is marked for
the supervisor, and so are a surge trip and a thermal trip of a present slice, which change nothing else; a recorded surge sets its flag.
What finds nothing to do changes nothing. A sense input out of range declares a healthy hold-up unhealthy with SENSE_RANGE. A control-loop
sample takes the temperatures, and leaves the output of every closed loop between OMIN and OMAX; between samples nothing happens. A
following-error trip opens its loop with FE_TRIP set, and LOOP_00 and LOOP_01 declare hold-up unhealthy (R322, R323, R325, R327, R328, R334,
R343, R362). -/
def Obligations.SupplyEventsAndLoopSamples : Prop :=
  (∀ s : State, s.power.sag = false → s.dumping = false → Completes .sagDetect s fun t => t.power.sag = true ∧ t.power.sagAt = s.now ∧
    t.power.sagLong = false ∧ t.power.measuring = false ∧ t.bit Adr.pwEvt 0 = true ∧ t.nvm.sagCnt = s.nvm.sagCnt + 1 ∧
    t.fld Adr.pwSagCnt 31 0 = min (2 ^ 32 - 1) (s.fld Adr.pwSagCnt 31 0 + 1) ∧ t.fld Adr.pwHuSts 15 0 = 0) ∧
  (∀ s : State, s.power.sag = true ∨ s.dumping = true → exec .sagDetect s = .next s) ∧
  (∀ (us : Nat) (s : State), s.power.sag = true → Completes (.sagEnd us) s fun t => t.power.sag = false ∧ t.power.sagLong = false ∧
    t.fld Adr.pwHuSts 15 0 = min 65535 (us / 1000) ∧ t.huMode = s.huMode) ∧
  (∀ (us : Nat) (s : State), s.power.sag = false → exec (.sagEnd us) s = .next s ∧ exec .brownOut s = .next s) ∧
  (∀ (n : Nat) (s : State), s.feCounts n = false → exec (.feTrip n) s = .next s) ∧
  (∀ (g : Nat) (s : State), s.hasSlice (g / 2) = false → exec (.thermalTrip g) s = .next s) ∧
  (∀ s : State, s.power.sag = true → Completes .brownOut s fun t => t.power = { s.power with sagLong := true } ∧
    OnlyChanges [.power] s t) ∧
  (∀ s : State, Completes .surgeRecorded s fun t => t.bit Adr.pwEvt 1 = true ∧ RegsBut [Adr.pwEvt] s t ∧ OnlyChanges [.regs] s t) ∧
  (∀ s : State, Completes .surgeTrip s fun t => t.power = { s.power with surge := true } ∧ OnlyChanges [.power] s t) ∧
  (∀ (g : Nat) (s : State), s.hasSlice (g / 2) = true → Completes (.thermalTrip g) s fun t =>
    t.power = { s.power with thermal := true } ∧ OnlyChanges [.power] s t) ∧
  (∀ (input code : Nat) (s : State),
    (s.senseOut input code = true → s.unhealthy = false → Completes (.senseFault input code) s fun t => t.unhealthy = true ∧
      t.fld Adr.pwHuSts 31 28 = 6 ∧ t.bit Adr.pwEvt 3 = true ∧ t.bit Adr.pwSts 5 = true ∧
      (s.huMode = modeCharge ∨ s.huMode = modeFloat → t.huMode = modeOff)) ∧
    (s.senseOut input code = false → exec (.senseFault input code) s = .next s)) ∧
  (∀ (meas : List (Nat × Int)) (g : Nat) (v : Int) (s : State), s.course.running = true → s.now % 4 = 0 → s.huMode ≠ modeDown →
      s.hasSlice (g / 2) = true →
    Completes (.controlLoopSample meas [(g, v)]) s fun t => t.fld (Adr.pwTj g) 15 0 = (BitVec.ofInt 16 v).toNat ∧
      ∀ n, n < 16 → s.loopClosed n = true → s.loopExists n = true → s.q (Adr.pwLoopOmin n) ≤ s.q (Adr.pwLoopOmax n) →
        s.q (Adr.pwLoopOmin n) ≤ t.q (Adr.pwLoopOut n) ∧ t.q (Adr.pwLoopOut n) ≤ s.q (Adr.pwLoopOmax n)) ∧
  (∀ (meas temps : List (Nat × Int)) (s : State), s.now % 4 ≠ 0 ∨ s.course.running = false → exec (.controlLoopSample meas temps) s = .next s) ∧
  ∀ (n : Nat) (s : State), n < 16 → s.feCounts n = true → Completes (.feTrip n) s fun t => t.loopClosed n = false ∧
    t.bit (Adr.pwLoopSts n) 7 = true ∧ (n ≤ 1 → t.unhealthy = true) ∧ ∀ k, k < 16 → k ≠ n → t.loopClosed k = s.loopClosed k

/-- At a supervisor step a surge or thermal trip enters DUMP with its reason and stops the work; OFF with hold-up enabled and
healthy goes to CHARGE, and a sag there enters DUMP with UNHEALTHY; a sag in CHARGE or FLOAT rides when the energy is enough and enters
DUMP with ENERGY when not; CHARGE ends in FLOAT at the float voltage, and FLOAT in CHARGE two bands below it unless a measurement runs; RIDE
ends in CHARGE when the sag is over, in DUMP with SAG_TIME when it lasts, with ENERGY when the energy no longer suffices, and with UNHEALTHY
when hold-up is. A charge that takes too long declares hold-up unhealthy, and CLEAR ends that when both loops are closed and the inputs
are in range. A measurement runs in FLOAT, is kept when plausible, and rejected when not, the second time in a row with hold-up unhealthy. A closed
loop goes on without a step, an opened one declares hold-up unhealthy where it holds it up. PS3 and PS4 are entered only when nothing works,
with the deepest state tolerated, PS4 only once the buffers have drained, and left to the operational state (R327, R329, R330, R332, R334,
R337, R344, R346, R347). -/
def Obligations.TheSupervisorMovesBetweenItsModes : Prop :=
  (∀ s : State, s.course.running = true → s.now % 16 = 0 → s.minimal = false → s.huMode ≤ 3 →
    (s.power.surge = true → Completes .supervisorStep s fun t => t.huMode = modeDump ∧ t.power.dumpReason = 3 ∧
      t.power.stopped = true ∧ t.invocations = [] ∧ t.digests = [] ∧ (∀ x ∈ t.inflight, x.phase = .dispatched ∧ x.conds = []) ∧
      t.nvm.dumpCnt = s.nvm.dumpCnt + 1) ∧
    (s.power.surge = false → s.power.thermal = true → Completes .supervisorStep s fun t => t.huMode = modeDump ∧
      t.power.dumpReason = 4) ∧
    (s.power.surge = false → s.power.thermal = false →
      (s.huMode = modeOff → s.power.sag = false → s.bit Adr.pwHuCtl 0 = true → s.unhealthy = false →
        Completes .supervisorStep s fun t => t.huMode = modeCharge ∧ t.power.chargeAt = s.now) ∧
      (s.huMode = modeOff ∧ s.power.sag = true ∨ s.huMode = modeRide ∧ s.unhealthy = true → Completes .supervisorStep s fun t =>
        t.huMode = modeDump ∧ t.power.dumpReason = 5) ∧
      (s.huMode = modeCharge → s.power.sag = false → Completes .supervisorStep s fun t =>
        t.huMode = if s.floatMv ≤ s.bankMv + s.bandMv then modeFloat else modeCharge) ∧
      (s.huMode = modeFloat → s.power.sag = false → Completes .supervisorStep s fun t =>
        t.huMode = if s.bankMv + 2 * s.bandMv < s.floatMv ∧ s.power.measuring = false then modeCharge else modeFloat) ∧
      (s.huMode = modeCharge ∨ s.huMode = modeFloat → s.power.sag = true → Completes .supervisorStep s fun t =>
        if s.enough = true then t.huMode = modeRide else t.huMode = modeDump ∧ t.power.dumpReason = 2) ∧
      (s.huMode = modeRide → s.unhealthy = false → Completes .supervisorStep s fun t =>
        (s.power.sag = false → t.huMode = modeCharge ∧ t.nvm.rideCnt = s.nvm.rideCnt + 1) ∧
        (s.power.sag = true → s.power.sagLong = true → t.huMode = modeDump ∧ t.power.dumpReason = 1) ∧
        (s.power.sag = true → s.power.sagLong = false →
          if s.enough = true then t.huMode = modeRide else t.huMode = modeDump ∧ t.power.dumpReason = 2)))) ∧
  (∀ s : State, s.now % 16 ≠ 0 ∨ s.course.running = false ∨ s.minimal = true → exec .supervisorStep s = .next s) ∧
  (∀ s : State, s.huMode ≠ modeCharge → exec .chargeTimeout s = .next s) ∧
  (∀ s : State, s.unhealthy = false ∨ s.loopClosed 0 = false ∨ s.loopClosed 1 = false ∨ s.power.senseBad = true →
    exec .holdupClear s = .next s) ∧
  (∀ s : State, s.huMode = modeCharge → s.unhealthy = false → Completes .chargeTimeout s fun t => t.unhealthy = true ∧
    t.fld Adr.pwHuSts 31 28 = 5 ∧ t.huMode = modeOff) ∧
  (∀ s : State, s.unhealthy = true → s.loopClosed 0 = true → s.loopClosed 1 = true → s.power.senseBad = false →
    Completes .holdupClear s fun t => t.unhealthy = false ∧ t.fld Adr.pwHuSts 31 28 = 0 ∧ t.huMode = s.huMode) ∧
  (∀ s : State, (s.huMode = modeFloat → s.power.measuring = false → s.power.sag = false →
      (Completes .measureRequest s fun t => t.power = { s.power with measureWanted := false, measuring := true } ∧
        RegsBut [Adr.pwLoopSp 0] s t ∧ OnlyChanges [.regs, .power] s t) ∧
      Completes .capacitanceMeasureDue s fun t => t.power = { s.power with measureWanted := false, measuring := true }) ∧
    (s.huMode ≠ modeFloat ∨ s.power.measuring = true ∨ s.power.sag = true →
      (Completes .measureRequest s fun t => t.power = { s.power with measureWanted := true } ∧ OnlyChanges [.power] s t) ∧
      Completes .capacitanceMeasureDue s fun t => t.power = { s.power with measureWanted := true })) ∧
  (∀ (v0 v1 v2 : Nat) (s : State), s.power.measuring = true → Completes (.capacitanceMeasureEnd v0 v1 v2) s fun t =>
    t.power.measuring = false ∧ t.bit Adr.pwEvt 4 = true ∧
    (∀ c, s.stepCap v1 v2 = some c → 10000 ≤ c → c ≤ 100000000 → t.nvm.capUf = c ∧ t.power.measureRejects = 0) ∧
    (((s.stepCap v1 v2).getD 0 < 10000 ∨ 100000000 < (s.stepCap v1 v2).getD 0) →
      t.nvm.capUf = s.nvm.capUf ∧ t.power.measureRejects = s.power.measureRejects + 1 ∧
      (2 ≤ s.power.measureRejects + 1 → t.unhealthy = true))) ∧
  (∀ (v0 v1 v2 : Nat) (s : State), s.power.measuring = false → exec (.capacitanceMeasureEnd v0 v1 v2) s = .next s) ∧
  (∀ s : State, Completes .flushRateUpdate s fun t =>
    t.power.sliceRates = s.sliceList.map (fun n => (n, (s.flushRate n).floor.toNat)) ∧
    OnlyChanges (footprint .flushRateUpdate) s t) ∧
  (∀ (n : Nat) (m : Int) (s : State), n < 16 → s.loopExists n = true → s.minimal = false → s.loopClosed n = false →
    Completes (.loopClose n m) s fun t => t.loopClosed n = true ∧ t.q (Adr.pwLoopOut n) = s.q (Adr.pwLoopOut n) ∧
      RegsBut [Adr.pwLoopCtl n, Adr.pwLoopInt n] s t ∧ OnlyChanges [.regs, .power] s t) ∧
  (∀ (n : Nat) (s : State), n < 16 → s.loopClosed n = true → Completes (.loopOpen n) s fun t => t.loopClosed n = false ∧
    (n ≤ 1 → t.unhealthy = true)) ∧
  (∀ (n : Nat) (m : Int) (s : State),
    (s.loopExists n = false ∨ s.minimal = true ∨ s.loopClosed n = true → exec (.loopClose n m) s = .next s) ∧
    (s.loopClosed n = false → exec (.loopOpen n) s = .next s)) ∧
  (∀ s : State, s.maySleep = true →
    (s.deepState = some 3 → Completes .powerStateEntry s fun t => t.fld Adr.pwSts 26 24 = 3 ∧ t.bit Adr.pwEvt 5 = true ∧
      OnlyChanges [.regs] s t) ∧
    (s.deepState = none → exec .powerStateEntry s = .next s) ∧
    (s.deepState = some 4 → (∃ x ∈ s.slices, x.versions ≠ []) → Completes .powerStateEntry s fun t => OnlyChanges [.slices] s t ∧
      ∀ n v, v ∈ (s.slice n).versions → v.isOpen = true → { v with trigger := true } ∈ (t.slice n).versions) ∧
    (s.deepState = some 4 → (∀ x ∈ s.slices, x.versions = []) → Completes .powerStateEntry s fun t => t.fld Adr.pwSts 26 24 = 4 ∧
      ∀ x ∈ t.slices, x.journal = [])) ∧
  (∀ s : State, s.maySleep = false → exec .powerStateEntry s = .next s) ∧
  (∀ (why : WakeCause) (s : State), s.asleep = false → exec (.powerStateExit why) s = .next s) ∧
  ∀ (why : WakeCause) (s : State), s.asleep = true → Completes (.powerStateExit why) s fun t =>
    t.fld Adr.pwSts 26 24 = s.fld Adr.pwSts 18 16 ∧ t.bit Adr.pwEvt 5 = true ∧ RegsBut [Adr.pwSts, Adr.pwEvt] s t

/-- When a Dump completes, its mark and reason are stored, every acknowledged version that is not named as unlanded is in the
landing region of its slice, and the mode is DOWN. In DOWN a good supply restarts the package and an exhausted bank leaves it
without power; a package reset stops the course generator and leaves no command, tenant, invocation or digest message and no
link up. RESET_N low is a package reset, put off in a Dump; power lost outside a Dump is one that stores how the attempt ended.
The start watchdog and a hub fault restart the package while a start attempt is open, and do nothing otherwise. A boundary-scan
instruction that drives the pins holds the package in reset, and the others do not (R6, R337, R340, R351, R354, R356, R386,
R401, R406). -/
def Obligations.ResetsEndTheWork : Prop :=
  (∀ (l : List (Nat × Nat)) (s : State), s.huMode = modeDump → s.slices.length = 8 → Completes (.dumpComplete l) s fun t =>
    t.nvm.dumpMark = true ∧ t.nvm.lastDump = s.power.dumpReason ∧ (s.held = false → t.huMode = modeDown) ∧
    (s.held = true → WorkGone t) ∧
    ∀ n v, s.hasSlice n = true → v ∈ (s.slice n).toLand → (n, v.wslot) ∉ l →
      ∃ w ∈ (t.slice n).landed, w.wslot = v.wslot ∧ w.nsid = v.nsid ∧ w.lua = v.lua ∧ w.blocks = v.blocks ∧ w.acked = v.acked) ∧
  (∀ (l : List (Nat × Nat)) (s : State), s.huMode ≠ modeDump → exec (.dumpComplete l) s = .next s) ∧
  (∀ s : State, s.huMode = modeDown →
    (Completes .downSupplyGood s fun t => WorkGone t ∧ t.part = s.part ∧ t.pending = s.pending) ∧
    Completes .bankExhausted s fun t => WorkGone t ∧ t.pins.powered = false ∧ t.pending = s.pending) ∧
  (∀ s : State, s.huMode ≠ modeDown → exec .downSupplyGood s = .next s ∧ exec .bankExhausted s = .next s) ∧
  (∀ s : State, (s.huMode ≠ modeDump → Completes .resetNFall s fun t => WorkGone t ∧ t.pins.resetN = false) ∧
    (s.huMode = modeDump → Completes .resetNFall s fun t => t.pins = { s.pins with resetN := false } ∧ OnlyChanges [.pins] s t)) ∧
  (∀ s : State, s.held = false → Completes .powerLostWithoutDump s fun t => WorkGone t ∧ t.pins.powered = false ∧
    (s.dumping = false → t.nvm.lastEnd = 7 ∧ t.nvm.dumpBegun = true ∧ t.nvm.dumpMark = false) ∧
    (s.dumping = true → t.nvm.lastEnd = s.nvm.lastEnd ∧ t.nvm.dumpMark = s.nvm.dumpMark)) ∧
  (∀ s : State, s.held = false → s.dumping = false →
    (s.nvm.attempt.isSome = true →
      (Completes .hubFault s fun t => WorkGone t ∧ t.nvm.cycles = s.nvm.cycles + 1) ∧
      (s.minimal = false → s.stage < 6 → Completes .startWatchdog s fun t => WorkGone t ∧ t.nvm.cycles = s.nvm.cycles + 1)) ∧
    (s.nvm.attempt = none → exec .hubFault s = .next s ∧ exec .startWatchdog s = .next s) ∧
    (s.minimal = true ∨ 6 ≤ s.stage → exec .startWatchdog s = .next s)) ∧
  ∀ (i : JtagInstr) (s : State),
    (JtagHold i = true → s.huMode ≠ modeDump → Completes (.jtagInstruction i) s fun t => WorkGone t ∧ t.pins.jtagHold = true ∧
      t.held = true) ∧
    (JtagHold i = true → s.huMode = modeDump → Completes (.jtagInstruction i) s fun t => t.pins.jtagHold = true ∧
      OnlyChanges [.pins, .regs] s t) ∧
    (JtagHold i = false → Completes (.jtagInstruction i) s fun t => RegsBut [Adr.tcSts] s t ∧ OnlyChanges [.regs] s t)

/-- RESET_N high with power opens a start attempt: the cycle count rises; with a valid state record and fewer than 3 failures
the failure count rises and the slot to boot is the active one, or the committed one as a trial, which is taken back when it was
tried; after 3 failures, or with no valid state record, the start is minimal. A valid image is verified and releases the slices,
with the course generator running, except in a follower, which waits; when neither slot is valid the start is minimal with the
links down. A released slice rebuilds, where no LUN is missing with its landed versions back in the buffer; when every slice has ended its rebuild, is
offline or late, STAGE is READY. READY long enough is a success: the failure count clears and the slot that runs is the active
one. A TAP reset ends the hold and starts; a signed unlock opens private debug in the ROM only (R129, R306, R348, R349, R350,
R352, R353, R354, R355, R358, R386). -/
def Obligations.TheStartRunsItsSteps : Prop :=
  (∀ s : State, s.pins.resetN = true → s.pins.powered = true → exec .resetNRise s = .next s) ∧
  (∀ s : State, s.pins.resetN = false ∨ s.pins.powered = false → s.pins.jtagHold = false → s.minimal = false →
    Completes .resetNRise s fun t => t.pins = { s.pins with resetN := true, powered := true } ∧
      t.nvm.cycles = s.nvm.cycles + 1 ∧ t.nvm.attempt.isSome = true ∧
      (s.nvm.stateValid = true → 3 ≤ s.nvm.failCnt → t.minimal = true ∧ t.fld Adr.stStartReason 7 0 = 1 ∧ t.nvm.failCnt = s.nvm.failCnt) ∧
      (s.nvm.stateValid = false → t.minimal = true ∧ t.fld Adr.stStartReason 7 0 = 4) ∧
      (s.nvm.stateValid = true → s.nvm.failCnt < 3 →
        (s.nvm.slots.next = none → s.slotHeader s.nvm.slots.active = true → t.stage = 1 ∧ t.minimal = false ∧
          t.start.slot = s.nvm.slots.active ∧ t.start.trial = false ∧ t.nvm.failCnt = s.nvm.failCnt + 1) ∧
        (∀ k, s.nvm.slots.next = some k → s.nvm.slots.tried = false → s.slotHeader k = true → t.stage = 1 ∧ t.minimal = false ∧
          t.start.slot = k ∧ t.start.trial = true ∧ t.nvm.slots.tried = true ∧ t.nvm.slots.active = s.nvm.slots.active) ∧
        (s.nvm.slots.next.isSome = true → s.nvm.slots.tried = true → t.nvm.slots.next = none ∧ t.nvm.slots.tried = false) ∧
        ((∀ k, s.slotHeader k = false) → t.minimal = true ∧ t.fld Adr.stStartReason 7 0 = 2 ∧ t.nvm.failCnt = s.nvm.failCnt))) ∧
  (∀ s : State, s.pins.jtagHold = true →
    (Completes .resetNRise s fun t => OnlyChanges [.pins] s t) ∧
    (s.pins.resetN = true → s.pins.powered = true → s.dumping = false → Completes .tapReset s fun t => t.held = false ∧
      t.nvm.cycles = s.nvm.cycles + 1)) ∧
  (∀ s : State, s.pins.jtagHold = false → Completes .tapReset s fun t =>
    t.fld Adr.tcSts 1 0 = (if s.fld Adr.tcSts 1 0 = 2 then 2 else 0) ∧ RegsBut [Adr.tcSts] s t ∧ OnlyChanges [.regs] s t) ∧
  (∀ s : State,
    (s.held = false → s.minimal = true ∨ s.stage ≤ 1 → Completes (.debugUnlock true) s fun t => t.fld Adr.tcSts 1 0 = 2 ∧
      (s.minimal = true → t.measSeq = s.measSeq + 1)) ∧
    (s.held = true ∨ s.minimal = false ∧ 2 ≤ s.stage → exec (.debugUnlock true) s = .next s) ∧
    exec (.debugUnlock false) s = .next s) ∧
  (∀ s : State, s.held = false → s.stage = 1 → s.minimal = false → s.slices.length = 8 →
    (s.slotValid s.start.slot = true ∨ s.slotValid (1 - s.start.slot) = true → Completes .imageVerified s fun t =>
      t.start.verified = true ∧
      t.start.slot = (if s.slotValid s.start.slot = true then s.start.slot else 1 - s.start.slot) ∧
      (t.fld Adr.ckSyncCtl 1 0 = 2 → t.stage = 2) ∧
      (t.fld Adr.ckSyncCtl 1 0 ≠ 2 → t.stage = 3 ∧ t.course.running = true ∧
        ∀ n, s.hasSlice n = true → (t.slice n).mode = .released)) ∧
    (s.slotValid s.start.slot = false → s.slotValid (1 - s.start.slot) = false → Completes .imageVerified s fun t =>
      t.minimal = true ∧ t.fld Adr.stStartReason 7 0 = 3 ∧ t.nvm.failCnt = s.start.readFail ∧ ∀ l ∈ t.links, l.up = false)) ∧
  (∀ (n : Nat) (s : State), s.slices.length = 8 → s.hasSlice n = true →
    ((s.slice n).mode = .released → Completes (.sliceRebuild n) s fun t => (t.slice n).mode = .rebuilding ∧
      t.fld (Adr.ftSts n) 2 0 = 4 ∧ t.stage = (if s.stage = 3 then 4 else s.stage) ∧
      ((∀ l ∈ (s.slice n).luns, l.active = true) → ∀ v ∈ (s.slice n).landed, ∃ w ∈ (t.slice n).versions,
        w.wslot = v.wslot ∧ w.restored = true ∧ w.blocks = v.blocks ∧ w.acked = v.acked)) ∧
    (∀ ok : Bool, (s.slice n).mode = .rebuilding → s.fld (Adr.ftSts n) 2 0 = 4 → Completes (.sliceRebuildDone n ok) s fun t =>
      (t.slice n).mode = (if ok then .online else .offline) ∧
      (3 ≤ s.stage → s.stage < 6 → (∀ m, m ≠ n → s.hasSlice m = true →
          (s.slice m).mode = .online ∨ (s.slice m).mode = .offline ∨ (s.slice m).mode = .late) →
        t.stage = 6 ∧ t.bit Adr.stEvt 1 = true ∧ t.start.readyAt = some s.now)) ∧
    ((s.slice n).mode = .released ∨ (s.slice n).mode = .rebuilding → Completes (.sliceLate n) s fun t =>
      (t.slice n).mode = .late ∧ t.bit Adr.stEvt 3 = true) ∧
    ((s.slice n).mode = .online → exec (.sliceLate n) s = .next s ∧ exec (.sliceRebuild n) s = .next s)) ∧
  ∀ (s : State) (r : Nat), s.start.readyAt = some r →
    (r + 15384616 ≤ s.now → s.dumping = false → s.minimal = false → s.stage = 6 → Completes .startSuccess s fun t =>
      t.stage = 7 ∧ t.bit Adr.stEvt 2 = true ∧ t.nvm.failCnt = 0 ∧ t.nvm.attempt = none ∧
      t.nvm.slots = SlotRecord.mk s.start.slot none false ∧
      t.nvm.svnFloor = (if s.start.commitSvn = true then max s.nvm.svnFloor s.start.svn else s.nvm.svnFloor)) ∧
    (s.now < r + 15384616 → exec .startSuccess s = .next s)

/-- Of the manager, in minimal mode too: a piece of an image is kept for the commit, or refused where it overlaps one that came. A
commit with action 0 or 1 of a valid image of which every byte has come writes it to its slot and leaves the other; the slot is
then the one to boot next, except for action 0 of a slot that is not active; action 2 only names a slot that holds a valid image.
Without a valid image the commit changes nothing, as with an action above 2 or a slot above 2. Any other controller is refused.
An activation with no committed image waiting does nothing. While a switch is under way and the buffer holds nothing
acknowledged, a valid committed image runs as a trial that was tried, in a new start attempt, and an invalid one is named no
more (R49, R67, R68, R308, R352, R359, R360). -/
def Obligations.FirmwareIsLoadedCommittedAndSwitched : Prop :=
  (∀ (h : Hdr) (im : SeedImage) (off len : Nat) (s : State), s.runnable h = true →
    (∀ d, h.ctrl = 1 → d = s.nvm.download.getD (Download.mk im [] false) →
      ((∃ p ∈ d.pieces, p.1 < off + len ∧ off < p.1 + p.2) → Completes (.firmwareImageDownload h ⟨im, off, len⟩) s fun t =>
        Answered t h (ansSt stOverlap) ∧ OnlyChanges [.inflight] s t) ∧
      ((∀ p ∈ d.pieces, off + len ≤ p.1 ∨ p.1 + p.2 ≤ off) → Completes (.firmwareImageDownload h ⟨im, off, len⟩) s fun t =>
        t.nvm = { s.nvm with download := some (Download.mk d.image (d.pieces ++ [(off, len)]) (d.mixed || decide (d.image ≠ im))) } ∧
        Answered t h (ansSt stOk) ∧ OnlyChanges (footprint (.firmwareImageDownload h ⟨im, off, len⟩)) s t)) ∧
    (h.ctrl ≠ 1 → Completes (.firmwareImageDownload h ⟨im, off, len⟩) s fun t =>
      Answered t h (ansSt stOpcode) ∧ OnlyChanges [.inflight] s t)) ∧
  (∀ (h : Hdr) (ca fs : Nat) (s : State), s.runnable h = true → h.ctrl ≠ 1 → Completes (.firmwareCommit h ca fs) s fun t =>
    Answered t h (ansSt stOpcode) ∧ OnlyChanges [.inflight] s t) ∧
  (∀ (h : Hdr) (ca fs k : Nat) (s : State), s.runnable h = true → h.ctrl = 1 →
      k = (if fs = 0 then 1 - s.nvm.slots.active else fs - 1) →
    (2 < ca → Completes (.firmwareCommit h ca fs) s fun t => Answered t h (ansSt stField) ∧ OnlyChanges [.inflight] s t) ∧
    (ca ≤ 2 → 2 < fs → Completes (.firmwareCommit h ca fs) s fun t => Answered t h (ansSt stFwSlot) ∧ OnlyChanges [.inflight] s t) ∧
    (∀ d, ca ≤ 1 → fs ≤ 2 → s.nvm.flash.length = 2 → s.nvm.slots.active ≤ 1 → s.nvm.download = some d → d.whole = true →
        s.imageOk d.image = true →
      Completes (.firmwareCommit h ca fs) s fun t => Answered t h (ansSt stOk) ∧ t.nvm.download = none ∧
        t.slotImage k = some d.image ∧ (∀ j, j ≠ k → t.slotImage j = s.slotImage j) ∧
        t.nvm.slots = (if ca = 0 ∧ k ≠ s.nvm.slots.active then s.nvm.slots
          else SlotRecord.mk s.nvm.slots.active (some k) false)) ∧
    (∀ im, ca = 2 → fs ≤ 2 → s.slotImage k = some im → s.imageOk im = true → Completes (.firmwareCommit h ca fs) s fun t =>
      Answered t h (ansSt stOk) ∧ t.nvm.flash = s.nvm.flash ∧ t.nvm.slots = SlotRecord.mk s.nvm.slots.active (some k) false) ∧
    (fs ≤ 2 → (ca = 2 ∧ (∀ im, s.slotImage k = some im → s.imageOk im = false) ∨
        ca ≤ 1 ∧ ∀ d, s.nvm.download = some d → d.whole = true → s.imageOk d.image = false) →
      Completes (.firmwareCommit h ca fs) s fun t => Answered t h (ansSt stImage) ∧ OnlyChanges [.inflight] s t)) ∧
  (∀ s : State, s.start.switching = false → s.imageWaits = false → exec .firmwareActivation s = .next s) ∧
  ∀ (s : State) (k : Nat) (im : SeedImage), s.held = false → s.dumping = false → s.start.switching = true → s.anyAcked = false →
      s.nvm.slots.next = some k → s.slotImage k = some im →
    (s.imageOk im = true → Completes .firmwareActivation s fun t => t.start.slot = k ∧ t.start.trial = true ∧
      t.start.switching = false ∧ t.nvm.slots = { s.nvm.slots with tried := true } ∧ t.stage = 6 ∧ t.bit Adr.stEvt 1 = true ∧
      t.rd Adr.hubFwLevel = BitVec.ofNat 32 im.fwLevel ∧ t.slices = s.slices ∧ t.namespaces = s.namespaces ∧
      ∃ e, t.nvm.attempt = some e ∧ e.activation = true ∧ e.trial = true ∧ e.slot = k) ∧
    (s.imageOk im = false → Completes .firmwareActivation s fun t => t.nvm.slots = { s.nvm.slots with next := none, tried := false } ∧
      t.start = { s.start with switching := false } ∧ t.slices = s.slices ∧ t.nvm.flash = s.nvm.flash)

/-- A minute boundary counts the minute and stores the allowances; if the recorder is not frozen its notices and its image, one
higher in sequence, are written, and else they are due. Every 256 courses a periodic sample goes into its bin of its series; while frozen
the period is missed and no series changes. A freeze begins unless a thaw was less than 10 s ago, which is refused with its bit.
A thaw, and the automatic one with its bit, ends the freeze: the queue is emptied, its notices wait to be written in order, and
a minute that was due is written (R83, R362, R368, R369, R372, R373, R374). -/
def Obligations.TheRecorderKeepsItsSeries : Prop :=
  (∀ s : State, s.held = false → Completes .minuteTick s fun t => t.nvm.minutes = s.nvm.minutes + 1 ∧
    t.nvm.wear = s.tenants.map (fun q => (q.ti, q.allowance)) ∧
    (s.frozen = false → t.nvm.image.map RecImage.seq = some ((s.nvm.image.map RecImage.seq).getD 0 + 1) ∧
      t.rd Adr.evImageSeq = BitVec.ofNat 32 ((s.nvm.image.map RecImage.seq).getD 0 + 1) ∧ t.recorder.toWrite = [] ∧
      t.recorder.series = s.recorder.series ∧ (s.nvm.notices.length ≤ 24576 → t.nvm.notices.length ≤ 24576)) ∧
    (s.frozen = true → t.nvm.image = s.nvm.image ∧ t.recorder = { s.recorder with minuteDue := true } ∧
      OnlyChanges [.nvm, .recorder] s t) ∧ OnlyChanges [.nvm, .recorder, .regs] s t) ∧
  (∀ (l : List (Nat × Int)) (s : State), s.held = true ∨ s.course.running = false ∨ s.now % 256 ≠ 0 →
    exec (.recorderBinning l) s = .next s) ∧
  (∀ (l : List (Nat × Int)) (s : State), s.held = false → s.course.running = true → s.now % 256 = 0 →
    (s.frozen = true → Completes (.recorderBinning l) s fun t => t.recorder = { s.recorder with missed := s.recorder.missed + 1 } ∧
      RegsBut [Adr.evMissed] s t ∧ OnlyChanges [.recorder, .regs] s t) ∧
    (s.frozen = false → Completes (.recorderBinning l) s fun t => t.recorder.series.length = s.recorder.series.length ∧
      OnlyChanges [.recorder] s t ∧
      ∀ (id : Nat) (x : Series), s.recorder.series[id]? = some x →
        ∃ y, t.recorder.series[id]? = some y ∧
          (∀ v, (l.filter fun q => s.periodic q.1 && q.1 == id) = [(id, v)] →
            y.samples = min (2 ^ 64 - 1) (x.samples + 1) ∧
            (∀ k, k ≠ binOf id v → (mapGet y.bins k).getD 0 = (mapGet x.bins k).getD 0) ∧
            (mapGet y.bins (binOf id v)).getD 0 = min (2 ^ 64 - 1) ((mapGet x.bins (binOf id v)).getD 0 + 1)) ∧
          ((l.filter fun q => s.periodic q.1 && q.1 == id) = [] → y = x))) ∧
  (∀ s : State, s.frozen = false →
    (s.recorder.thawAt.all (fun r => decide (r + coursesOfMs 10000 ≤ s.now)) = true → Completes .recorderFreeze s fun t =>
      t.frozen = true ∧ t.recorder = { s.recorder with freezeAt := s.now } ∧ RegsBut [Adr.evSts] s t ∧
      OnlyChanges [.recorder, .regs] s t) ∧
    (∀ r, s.recorder.thawAt = some r → s.now < r + coursesOfMs 10000 → Completes .recorderFreeze s fun t =>
      t.frozen = false ∧ t.bit Adr.evSts 2 = true ∧ t.recorder = s.recorder ∧ OnlyChanges [.regs] s t) ∧
    exec .recorderThaw s = .next s ∧ exec .recorderAutoThaw s = .next s) ∧
  ∀ s : State, s.frozen = true →
    exec .recorderFreeze s = .next s ∧
    (∀ c, c = .recorderThaw ∨ c = .recorderAutoThaw → Completes c s fun t => t.frozen = false ∧ t.recorder.queued = [] ∧
      t.recorder.thawAt = some s.now ∧ t.recorder.minuteDue = false ∧ OnlyChanges [.recorder, .regs, .nvm] s t ∧
      (s.recorder.minuteDue = true → t.nvm.image.map RecImage.seq = some ((s.nvm.image.map RecImage.seq).getD 0 + 1)) ∧
      (s.recorder.minuteDue = false → t.nvm = s.nvm ∧ t.recorder.toWrite = s.recorder.toWrite ++
        s.recorder.queued.filterMap fun e => match e with
          | .notice n => some n
          | .sample _ _ => none)) ∧
    (Completes .recorderThaw s fun t => t.bit Adr.evSts 1 = s.bit Adr.evSts 1) ∧
    Completes .recorderAutoThaw s fun t => t.bit Adr.evSts 1 = true

/-- Outside the 64 MiB window an access stops by name, and before the window exists it does nothing. A read of a register
returns its value with write-only bits zero, but for the percentage of a running format, a free value below 100; that of a low
half latches the high half, which is what its own read returns. An offline slice takes no write, and its registers below TS read
as 0. A write stores the writable fields, clears the bits written to one, and leaves every other register; of a shadow bank while a
commit waits it is ignored with its bit, and so is one of a locked register of a closed loop. An access that reaches no
register, comes too early or reaches a sleeping slice is completed, a read with 0, and the first one is recorded with its bit
and address, as is one of an unsupported width or alignment (R5, R35, R327, R387, R389, R391, R392, R394, R395). -/
def Obligations.TheWindowAnswersAndStores : Prop :=
  (∀ (a size : Nat) (w : Bool) (v : BitVec 32) (s : State), 0x4000000 ≤ a →
    exec (.loRegisterRead a) s = .fault .outsideWindow ∧ exec (.registerWrite a v) s = .fault .outsideWindow ∧
    exec (.reservedAccess a w) s = .fault .outsideWindow ∧ exec (.unsupportedWidthAccess a size w) s = .fault .outsideWindow) ∧
  (∀ (a size : Nat) (w : Bool) (v : BitVec 32) (s : State), a < 0x4000000 → s.windowOpen = false →
    exec (.loRegisterRead a) s = .next s ∧ exec (.registerWrite a v) s = .next s ∧ exec (.reservedAccess a w) s = .next s ∧
    exec (.unsupportedWidthAccess a size w) s = .next s) ∧
  (∀ (a : Nat) (s : State), a < 0x4000000 → a % 4 = 0 → s.windowOpen = true →
    (∀ r, s.access a = .register r →
      (isLo a = true → Completes (.loRegisterRead a) s fun t => mapGet t.latches (a + 4) = some (s.value (a + 4)) ∧
        t.busRead = s.value a &&& ~~~(BitVec.ofNat 32 r.wo) ∧ OnlyChanges [.latches, .busRead] s t) ∧
      (4 ≤ a → isLo (a - 4) = true → isLo a = false → Completes (.loRegisterRead a) s fun t =>
        t.busRead = (mapGet s.latches a).getD 0 ∧ OnlyChanges [.busRead] s t) ∧
      (∀ v, isLo a = false → isLo (a - 4) = false → v = s.value a &&& ~~~(BitVec.ofNat 32 r.wo) →
        (a < 0x1000000 ∨ (a - 0x1000000) % 0x400000 ≠ 0x100058 ∨ bits v 31 28 ≠ 1 → Completes (.loRegisterRead a) s fun t =>
          t.busRead = v ∧ OnlyChanges [.busRead] s t) ∧
        (0x1000000 ≤ a → (a - 0x1000000) % 0x400000 = 0x100058 → bits v 31 28 = 1 → Completes (.loRegisterRead a) s fun t =>
          (∃ p, p < 100 ∧ t.busRead = setBits v 7 0 p) ∧ OnlyChanges [.busRead, .fresh] s t))) ∧
    (∀ r v, s.access a = .offline r → exec (.registerWrite a v) s = .next s ∧
      ((a - 0x1000000) % 0x400000 < 0x280000 → Completes (.loRegisterRead a) s fun t => t.busRead = 0 ∧
        OnlyChanges [.busRead] s t)) ∧
    (∀ b x, (x = Access.reserved ∧ b = 31) ∨ (x = Access.asleep ∧ b = 29) ∨ (x = Access.early ∧ b = 28) → s.access a = x →
      (Completes (.reservedAccess a false) s fun t => t.busRead = 0 ∧ RegsBut [Adr.hubAccSts] s t ∧
        t.rd Adr.hubAccSts = (if s.fld Adr.hubAccSts 31 28 = 0 then BitVec.ofNat 32 (2 ^ b + a % 2 ^ 26) else s.rd Adr.hubAccSts) ∧
        OnlyChanges [.regs, .busRead] s t) ∧
      ∀ c, (∃ v, c = .registerWrite a v) ∨ c = .reservedAccess a true → Completes c s fun t => RegsBut [Adr.hubAccSts] s t ∧
        t.rd Adr.hubAccSts = (if s.fld Adr.hubAccSts 31 28 = 0 then BitVec.ofNat 32 (2 ^ b + a % 2 ^ 26) else s.rd Adr.hubAccSts) ∧
        OnlyChanges [.regs] s t)) ∧
  (∀ (a : Nat) (v : BitVec 32) (s : State) (r : RegRow), a < 0x4000000 → a % 4 = 0 → s.windowOpen = true → s.access a = .register r →
      (a < 0x1000000 ∧ a / 0x10000 ∈ [0, 1, 3, 4, 0xA] ∨ 0x1000000 ≤ a ∧ bits v 31 30 = 0) →
    Completes (.registerWrite a v) s fun t => t.rd a = r.write (s.rd a) v ∧ RegsBut [a] s t ∧ OnlyChanges [.regs] s t) ∧
  (∀ (a : Nat) (v : BitVec 32) (s : State) (r : RegRow), s.windowOpen = true → s.access a = .register r → a % 4 = 0 →
    (0x91800 ≤ a ∧ a < 0x92000 ∨ 0x98000 ≤ a ∧ a < 0xA0000 ∨ a = 0x90018 ∨ a = 0x9001C → s.bit Adr.ckCommitSts 7 = true →
      Completes (.registerWrite a v) s fun t => t.bit Adr.ckCommitSts 6 = true ∧ RegsBut [Adr.ckCommitSts] s t ∧ OnlyChanges [.regs] s t) ∧
    (∀ n k, n < 16 → a = 0x80100 + 64 * n + 4 * k → 3 ≤ k → k < 16 → r.rw ≠ 0 → s.loopClosed n = true →
      Completes (.registerWrite a v) s fun t => t.bit (Adr.pwLoopSts n) 6 = true ∧ RegsBut [Adr.pwLoopSts n] s t ∧
        OnlyChanges [.regs] s t)) ∧
  ∀ (a size : Nat) (w : Bool) (s : State), a < 0x4000000 → s.windowOpen = true → ¬((size = 4 ∨ size = 8) ∧ a % size = 0) →
    Completes (.unsupportedWidthAccess a size w) s fun t => RegsBut [Adr.hubAccSts] s t ∧
      t.rd Adr.hubAccSts = (if s.fld Adr.hubAccSts 31 28 = 0 then BitVec.ofNat 32 (2 ^ 30 + a % 2 ^ 26) else s.rd Adr.hubAccSts) ∧
      t.busRead = (if w then s.busRead else 0) ∧ OnlyChanges [.regs, .busRead] s t
end

