-- ==== Sys2Proof/Laws/Maps.lean ====
section
/-!
SUPPORT. Laws of sparse maps, of lists changed at one position and of lists of numbered records: what reading gives after writing, and
that writing keeps the canonical form. None of the reading laws needs the canonical form.
-/

namespace Sys2Proof.Laws

open Sys2Proof.Machine

universe u v

variable {α : Type u} {β : Type v}

/-! ### Reading after writing -/

theorem mapGet_mapErase (l : List (Nat × α)) (k j : Nat) : mapGet (mapErase l k) j = if j = k then none else mapGet l j := by
  induction l with
  | nil => simp [mapErase, mapGet]
  | cons p l ih =>
    obtain ⟨i, w⟩ := p
    simp only [mapErase]
    split <;> rename_i h
    · subst h
      rw [ih]
      split <;> rename_i h
      · rfl
      · simp [mapGet, h]
    · simp only [mapGet, ih]
      split <;> rename_i hj
      · subst hj; simp [Ne.symm h]
      · rfl

theorem mapGet_mapInsert (l : List (Nat × α)) (k j : Nat) (v : α) :
    mapGet (mapInsert l k v) j = if j = k then some v else mapGet l j := by
  induction l with
  | nil => simp [mapInsert, mapGet]
  | cons p l ih =>
    obtain ⟨i, w⟩ := p
    simp only [mapInsert]
    split
    · simp only [mapGet]
    · split <;> rename_i h
      · subst h
        simp only [mapGet]
        split <;> rfl
      · simp only [mapGet, ih]
        split <;> rename_i hj
        · subst hj; simp [Ne.symm h]
        · rfl

/-- Reading after writing, where an unlisted number reads as d k. -/
theorem mapGet_mapPut [DecidableEq α] (d : Nat → α) (l : List (Nat × α)) (k j : Nat) (v : α) :
    (mapGet (mapPut l (d k) k v) j).getD (d j) = if j = k then v else (mapGet l j).getD (d j) := by
  simp only [mapPut]
  split <;> rename_i h
  · rw [mapGet_mapErase]
    split <;> rename_i hj
    · subst hj; exact h.symm
    · rfl
  · rw [mapGet_mapInsert]
    split <;> rfl

@[simp] theorem modAt_length (l : List α) (n : Nat) (f : α → α) : (modAt l n f).length = l.length := by
  induction l generalizing n with
  | nil => rfl
  | cons a l ih => cases n <;> simp [modAt, ih]

theorem modAt_get (l : List α) (n k : Nat) (f : α → α) : (modAt l n f)[k]? = if k = n then l[k]?.map f else l[k]? := by
  induction l generalizing n k with
  | nil => simp [modAt]
  | cons a l ih => cases n <;> cases k <;> simp [modAt, ih]

theorem modAt_mem {l : List α} {n : Nat} {f : α → α} {x : α} (h : x ∈ modAt l n f) : x ∈ l ∨ ∃ y ∈ l, x = f y := by
  obtain ⟨k, hk⟩ := List.mem_iff_getElem?.mp h
  rw [modAt_get] at hk
  split at hk
  · obtain ⟨y, hy, e⟩ := Option.map_eq_some_iff.mp hk
    exact .inr ⟨y, List.mem_of_getElem? hy, e.symm⟩
  · exact .inl (List.mem_of_getElem? hk)

/-- What f leaves alone in an element, a change of one element leaves alone in the list. -/
theorem modAt_map (g : α → β) (l : List α) (n : Nat) (f : α → α) (h : ∀ x, g (f x) = g x) :
    (modAt l n f).map g = l.map g := by
  induction l generalizing n with
  | nil => rfl
  | cons a l ih => cases n <;> simp [modAt, ih, h]

theorem recGet_cons (key : α → Nat) (b : α) (l : List α) (k : Nat) :
    recGet key (b :: l) k = if key b = k then some b else recGet key l k := by
  simp only [recGet, List.find?_cons]
  by_cases e : key b = k
  · simp [e]
  · simp [e, beq_eq_false_iff_ne.mpr e]

theorem recGet_recPut (key : α → Nat) (l : List α) (a : α) (k : Nat) :
    recGet key (recPut key l a) k = if key a = k then some a else recGet key l k := by
  induction l with
  | nil => exact recGet_cons key a [] k
  | cons b l ih =>
    simp only [recPut]
    split
    · exact recGet_cons key a (b :: l) k
    · split <;> rename_i h
      · simp only [recGet_cons, ← h]
        split <;> rfl
      · simp only [recGet_cons, ih]
        by_cases e : key b = k
        · simp [e, show ¬key a = k from fun c => h (c.trans e.symm)]
        · simp [e]

theorem recGet_recMod (key : α → Nat) (l : List α) (n k : Nat) (f : α → α) (h : ∀ a, key (f a) = key a) :
    recGet key (recMod key l n f) k = (recGet key l k).map fun a => if k = n then f a else a := by
  induction l with
  | nil => rfl
  | cons b l ih =>
    have hb : key (if key b = n then f b else b) = key b := by split <;> simp [h]
    simp only [recMod, List.map_cons, recGet_cons, hb] at ih ⊢
    by_cases e : key b = k
    · simp [e]
    · simp [e, ih]

theorem recGet_recErase (key : α → Nat) (l : List α) (n k : Nat) :
    recGet key (recErase key l n) k = if k = n then none else recGet key l k := by
  induction l with
  | nil => simp [recErase, recGet]
  | cons b l ih =>
    simp only [recErase, List.filter_cons, recGet_cons, bne_iff_ne, ne_eq] at ih ⊢
    by_cases c : key b = n
    · simp only [c, not_true_eq_false, if_false, ih]
      by_cases e : k = n
      · simp [e]
      · simp [e, show ¬n = k from fun x => e x.symm]
    · simp only [c, not_false_eq_true, if_true, recGet_cons, ih]
      by_cases e : key b = k
      · simp [e, show ¬k = n from fun x => c (e.trans x)]
      · simp [e]

/-! ### The canonical form -/

theorem mapErase_mem {l : List (Nat × α)} {k : Nat} {p : Nat × α} (h : p ∈ mapErase l k) : p ∈ l := by
  induction l with
  | nil => exact h
  | cons q l ih =>
    obtain ⟨j, w⟩ := q
    simp only [mapErase] at h
    split at h
    · exact List.mem_cons_of_mem _ (ih h)
    · rcases List.mem_cons.mp h with e | e
      · exact e ▸ List.mem_cons_self
      · exact List.mem_cons_of_mem _ (ih e)

theorem mapInsert_mem {l : List (Nat × α)} {k : Nat} {v : α} {p : Nat × α} (h : p ∈ mapInsert l k v) : p = (k, v) ∨ p ∈ l := by
  induction l with
  | nil => exact .inl (by simpa [mapInsert] using h)
  | cons q l ih =>
    obtain ⟨j, w⟩ := q
    simp only [mapInsert] at h
    split at h
    · rcases List.mem_cons.mp h with e | e
      · exact .inl e
      · exact .inr e
    · split at h
      · rcases List.mem_cons.mp h with e | e
        · exact .inl e
        · exact .inr (List.mem_cons_of_mem _ e)
      · rcases List.mem_cons.mp h with e | e
        · exact .inr (e ▸ List.mem_cons_self)
        · rcases ih e with e | e
          · exact .inl e
          · exact .inr (List.mem_cons_of_mem _ e)

theorem mapErase_sorted {l : List (Nat × α)} (k : Nat) (h : mapSorted l = true) : mapSorted (mapErase l k) = true := by
  induction l with
  | nil => rfl
  | cons q l ih =>
    obtain ⟨j, w⟩ := q
    simp only [mapSorted, Bool.and_eq_true, List.all_eq_true, decide_eq_true_eq] at h
    simp only [mapErase]
    split
    · exact ih h.2
    · simp only [mapSorted, Bool.and_eq_true, List.all_eq_true, decide_eq_true_eq]
      exact ⟨fun p hp => h.1 p (mapErase_mem hp), ih h.2⟩

theorem mapInsert_sorted {l : List (Nat × α)} (k : Nat) (v : α) (h : mapSorted l = true) :
    mapSorted (mapInsert l k v) = true := by
  induction l with
  | nil => rfl
  | cons q l ih =>
    obtain ⟨j, w⟩ := q
    have h' := h
    simp only [mapSorted, Bool.and_eq_true, List.all_eq_true, decide_eq_true_eq] at h
    simp only [mapInsert]
    split
    · rename_i hk
      rw [mapSorted, h', Bool.and_true, List.all_eq_true]
      intro p hp
      rcases List.mem_cons.mp hp with e | e
      · subst e; simpa using hk
      · have := h.1 p e; simp only [decide_eq_true_eq]; omega
    · split
      · rename_i hk
        subst hk
        simp only [mapSorted, Bool.and_eq_true, List.all_eq_true, decide_eq_true_eq]
        exact h
      · simp only [mapSorted, Bool.and_eq_true, List.all_eq_true, decide_eq_true_eq]
        refine ⟨fun p hp => ?_, ih h.2⟩
        rcases mapInsert_mem hp with e | e
        · subst e; simp only; omega
        · exact h.1 p e

/-- A write keeps the canonical form. -/
theorem mapPut_wf [DecidableEq α] {d : Nat → α} {l : List (Nat × α)} (k : Nat) (v : α) (h : mapWf d l = true) :
    mapWf d (mapPut l (d k) k v) = true := by
  simp only [mapWf, Bool.and_eq_true, List.all_eq_true, decide_eq_true_eq] at h ⊢
  simp only [mapPut]
  split
  · exact ⟨mapErase_sorted k h.1, fun p hp => h.2 p (mapErase_mem hp)⟩
  · refine ⟨mapInsert_sorted k v h.1, fun p hp => ?_⟩
    rcases mapInsert_mem hp with e | e
    · subst e; assumption
    · exact h.2 p e

theorem mapFilter_wf [DecidableEq α] {d : Nat → α} {l : List (Nat × α)} (q : Nat × α → Bool) (h : mapWf d l = true) :
    mapWf d (l.filter q) = true := by
  simp only [mapWf, Bool.and_eq_true, List.all_eq_true, decide_eq_true_eq] at h ⊢
  refine ⟨?_, fun p hp => h.2 p (List.mem_filter.mp hp).1⟩
  have := h.1
  clear h
  induction l with
  | nil => rfl
  | cons a l ih =>
    obtain ⟨j, w⟩ := a
    simp only [mapSorted, Bool.and_eq_true, List.all_eq_true, decide_eq_true_eq] at this
    simp only [List.filter]
    split
    · simp only [mapSorted, Bool.and_eq_true, List.all_eq_true, decide_eq_true_eq]
      exact ⟨fun p hp => this.1 p (List.mem_filter.mp hp).1, ih this.2⟩
    · exact ih this.2

end Sys2Proof.Laws
end

