-- ==== Sys2Proof/Laws/Regs.lean ====
section
/-!
SUPPORT. Laws of the vendor registers: what a register, a field or a bit reads as after each of the register operations. They hold in
every state, and of every address.
-/

namespace Sys2Proof.Laws

open Sys2Proof.Machine

/-! ### Registers -/

theorem rd_wr (s : State) (a b : Nat) (v : Word) : (s.wr a v).rd b = if b = a then v else s.rd b :=
  mapGet_mapPut (resetWord s.part) s.regs a b v

@[simp] theorem rd_wr_self (s : State) (a : Nat) (v : Word) : (s.wr a v).rd a = v := by simp [rd_wr]

theorem rd_wr_of_ne {a b : Nat} (s : State) (v : Word) (h : b ≠ a) : (s.wr a v).rd b = s.rd b := by simp [rd_wr, h]

theorem rd_putF (s : State) (a b hi lo v : Nat) : (s.putF a hi lo v).rd b = if b = a then setBits (s.rd a) hi lo v else s.rd b :=
  rd_wr ..

theorem rd_setBit (s : State) (a b k : Nat) : (s.setBit a k).rd b = if b = a then s.rd a ||| BitVec.ofNat 32 (2 ^ k) else s.rd b :=
  rd_wr ..

theorem rd_clrBit (s : State) (a b k : Nat) :
    (s.clrBit a k).rd b = if b = a then s.rd a &&& ~~~(BitVec.ofNat 32 (2 ^ k)) else s.rd b :=
  rd_wr ..

theorem rd_putF_of_ne {a b : Nat} (s : State) (hi lo v : Nat) (h : b ≠ a) : (s.putF a hi lo v).rd b = s.rd b := rd_wr_of_ne _ _ h

theorem rd_setBit_of_ne {a b : Nat} (s : State) (k : Nat) (h : b ≠ a) : (s.setBit a k).rd b = s.rd b := rd_wr_of_ne _ _ h

theorem rd_clrBit_of_ne {a b : Nat} (s : State) (k : Nat) (h : b ≠ a) : (s.clrBit a k).rd b = s.rd b := rd_wr_of_ne _ _ h

theorem rd_putBit_of_ne {a b : Nat} (s : State) (k : Nat) (v : Bool) (h : b ≠ a) : (s.putBit a k v).rd b = s.rd b := by
  simp only [State.putBit]
  split
  · exact rd_setBit_of_ne _ _ h
  · exact rd_clrBit_of_ne _ _ h

theorem rd_addF_of_ne {a b : Nat} (s : State) (hi lo n : Nat) (h : b ≠ a) : (s.addF a hi lo n).rd b = s.rd b := rd_wr_of_ne _ _ h

theorem rd_inc_of_ne {a b : Nat} (s : State) (h : b ≠ a) : (s.inc a).rd b = s.rd b := rd_wr_of_ne _ _ h

theorem rd_wr64_of_ne {a b : Nat} (s : State) (v : Nat) (h : b ≠ a) (h' : b ≠ a + 4) : (s.wr64 a v).rd b = s.rd b :=
  (rd_wr_of_ne _ _ h').trans (rd_wr_of_ne _ _ h)

/-! ### Bits -/

theorem bit_setBit (s : State) (a b k j : Nat) :
    (s.setBit a k).bit b j = (s.bit b j || decide (b = a ∧ j = k ∧ k < 32)) := by
  simp only [State.bit, rd_setBit]
  split <;> rename_i h
  · subst h
    simp only [BitVec.getLsbD_or, BitVec.getLsbD_ofNat, Nat.testBit_two_pow, true_and]
    congr 1
    rw [Bool.eq_iff_iff]
    simp only [Bool.and_eq_true, decide_eq_true_eq]
    constructor
    · rintro ⟨h1, h2⟩; subst h2; exact ⟨rfl, h1⟩
    · rintro ⟨h1, h2⟩; subst h1; exact ⟨h2, rfl⟩
  · simp [h]

theorem bit_clrBit (s : State) (a b k j : Nat) :
    (s.clrBit a k).bit b j = (s.bit b j && !decide (b = a ∧ j = k)) := by
  simp only [State.bit, rd_clrBit]
  split <;> rename_i h
  · subst h
    by_cases e : j < 32
    · simp only [BitVec.getLsbD_and, BitVec.getLsbD_not, e, decide_true, BitVec.getLsbD_ofNat, Nat.testBit_two_pow,
        Bool.true_and, true_and]
      congr 2
      rw [Bool.eq_iff_iff]
      simp only [decide_eq_true_eq]
      exact eq_comm
    · simp [BitVec.getLsbD_of_ge _ _ (Nat.le_of_not_lt e)]
  · simp [h]

@[simp] theorem bit_setBit_self (s : State) (a k : Nat) (h : k < 32) : (s.setBit a k).bit a k = true := by simp [bit_setBit, h]

@[simp] theorem bit_clrBit_self (s : State) (a k : Nat) : (s.clrBit a k).bit a k = false := by simp [bit_clrBit]

@[simp] theorem bit_putBit_self (s : State) (a k : Nat) (v : Bool) (h : k < 32) : (s.putBit a k v).bit a k = v := by
  cases v <;> simp [State.putBit, h]

/-! ### Fields -/

theorem setBits_toNat (w : Word) (hi lo v : Nat) (h : hi < 32) (hl : lo ≤ hi) :
    (setBits w hi lo v).toNat = w.toNat - bits w hi lo * 2 ^ lo + (v % 2 ^ (hi - lo + 1)) * 2 ^ lo := by
  have hw := w.isLt
  simp only [setBits, bits, Nat.shiftRight_eq_div_pow, BitVec.toNat_ofNat]
  apply Nat.mod_eq_of_lt
  have e : 2 ^ 32 = 2 ^ (31 - hi) * (2 ^ (hi - lo + 1) * 2 ^ lo) := by
    rw [← Nat.pow_add, ← Nat.pow_add]; congr 1; omega
  have hm : w.toNat / 2 ^ lo % 2 ^ (hi - lo + 1) * 2 ^ lo = w.toNat % (2 ^ (hi - lo + 1) * 2 ^ lo) - w.toNat % 2 ^ lo := by
    have := Nat.mod_mul (x := w.toNat) (a := 2 ^ lo) (b := 2 ^ (hi - lo + 1))
    rw [Nat.mul_comm (2 ^ (hi - lo + 1))]
    rw [this, Nat.mul_comm (2 ^ lo)]
    omega
  have hv : v % 2 ^ (hi - lo + 1) * 2 ^ lo ≤ (2 ^ (hi - lo + 1) - 1) * 2 ^ lo :=
    Nat.mul_le_mul_right _ (Nat.le_pred_of_lt (Nat.mod_lt _ (Nat.two_pow_pos _)))
  have hq := Nat.div_add_mod w.toNat (2 ^ (hi - lo + 1) * 2 ^ lo)
  have hd : w.toNat / (2 ^ (hi - lo + 1) * 2 ^ lo) < 2 ^ (31 - hi) := by
    rw [Nat.div_lt_iff_lt_mul (Nat.mul_pos (Nat.two_pow_pos _) (Nat.two_pow_pos _)), ← e]
    exact hw
  have hlo := Nat.mod_lt w.toNat (Nat.two_pow_pos lo)
  have h1 : (2 ^ (hi - lo + 1) - 1) * 2 ^ lo + 2 ^ lo = 2 ^ (hi - lo + 1) * 2 ^ lo := by
    rw [Nat.sub_mul, Nat.one_mul, Nat.sub_add_cancel]
    exact Nat.le_mul_of_pos_left _ (Nat.two_pow_pos _)
  have h2 : (2 ^ (hi - lo + 1) * 2 ^ lo) * (w.toNat / (2 ^ (hi - lo + 1) * 2 ^ lo)) + 2 ^ (hi - lo + 1) * 2 ^ lo ≤ 2 ^ 32 := by
    rw [e, Nat.mul_comm, ← Nat.succ_mul]
    exact Nat.mul_le_mul_right _ hd
  have h3 : w.toNat % 2 ^ lo ≤ w.toNat % (2 ^ (hi - lo + 1) * 2 ^ lo) := by
    rw [Nat.mul_comm (2 ^ (hi - lo + 1)), Nat.mod_mul]
    exact Nat.le_add_right _ _
  omega

/-- A field written reads as what was written, cut to its width. -/
theorem bits_setBits (w : Word) (hi lo v : Nat) (h : hi < 32) (hl : lo ≤ hi) :
    bits (setBits w hi lo v) hi lo = v % 2 ^ (hi - lo + 1) := by
  have hn := setBits_toNat w hi lo v h hl
  simp only [bits, Nat.shiftRight_eq_div_pow] at hn ⊢
  rw [hn]
  have hP := Nat.two_pow_pos lo
  have hK := Nat.two_pow_pos (hi - lo + 1)
  generalize hk : 2 ^ (hi - lo + 1) = K at *
  generalize hp : 2 ^ lo = P at *
  have e : w.toNat - w.toNat / P % K * P = w.toNat % P + P * (K * (w.toNat / P / K)) := by
    have h1 := Nat.div_add_mod w.toNat P
    have h2 := Nat.div_add_mod (w.toNat / P) K
    have h3 : P * (w.toNat / P) = P * (K * (w.toNat / P / K)) + P * (w.toNat / P % K) := by
      rw [← Nat.mul_add, h2]
    have h4 : w.toNat / P % K * P = P * (w.toNat / P % K) := Nat.mul_comm _ _
    omega
  rw [e, Nat.add_right_comm, Nat.add_assoc, Nat.mul_comm P (K * _), ← Nat.add_mul, Nat.add_mul_div_right _ _ hP,
    Nat.div_eq_of_lt (Nat.mod_lt _ hP), Nat.zero_add, Nat.add_mul_mod_self_left, Nat.mod_mod]

theorem fld_putF_self (s : State) (a hi lo v : Nat) (h : hi < 32) (hl : lo ≤ hi) :
    (s.putF a hi lo v).fld a hi lo = v % 2 ^ (hi - lo + 1) := by
  simp only [State.fld, rd_putF, if_true]
  exact bits_setBits _ _ _ _ h hl

theorem fld_wr_of_ne {a b : Nat} (s : State) (v : Word) (hi lo : Nat) (h : b ≠ a) : (s.wr a v).fld b hi lo = s.fld b hi lo := by
  simp only [State.fld, rd_wr_of_ne _ _ h]

theorem bit_wr_of_ne {a b : Nat} (s : State) (v : Word) (k : Nat) (h : b ≠ a) : (s.wr a v).bit b k = s.bit b k := by
  simp only [State.bit, rd_wr_of_ne _ _ h]

/-- A bit outside the field that a write replaces. -/
theorem getLsbD_setBits (w : Word) (hi lo v k : Nat) (h : hi < 32) (hl : lo ≤ hi) (hk : k < lo ∨ hi < k) :
    (setBits w hi lo v).getLsbD k = w.getLsbD k := by
  have hn := setBits_toNat w hi lo v h hl
  simp only [BitVec.getLsbD, hn, bits, Nat.shiftRight_eq_div_pow]
  have hP := Nat.two_pow_pos lo
  have hK := Nat.two_pow_pos (hi - lo + 1)
  have hPK : 2 ^ (hi + 1) = 2 ^ lo * 2 ^ (hi - lo + 1) := by rw [← Nat.pow_add]; congr 1; omega
  have e : ∀ x < 2 ^ (hi - lo + 1), w.toNat - w.toNat / 2 ^ lo % 2 ^ (hi - lo + 1) * 2 ^ lo + x * 2 ^ lo =
      2 ^ (hi + 1) * (w.toNat / 2 ^ lo / 2 ^ (hi - lo + 1)) + (2 ^ lo * x + w.toNat % 2 ^ lo) := by
    intro x _
    have h1 := Nat.div_add_mod w.toNat (2 ^ lo)
    have h2 := Nat.div_add_mod (w.toNat / 2 ^ lo) (2 ^ (hi - lo + 1))
    have h3 : 2 ^ lo * (w.toNat / 2 ^ lo) = 2 ^ lo * (2 ^ (hi - lo + 1) * (w.toNat / 2 ^ lo / 2 ^ (hi - lo + 1))) +
        2 ^ lo * (w.toNat / 2 ^ lo % 2 ^ (hi - lo + 1)) := by rw [← Nat.mul_add, h2]
    rw [hPK, Nat.mul_assoc, Nat.mul_comm x]
    have h4 : w.toNat / 2 ^ lo % 2 ^ (hi - lo + 1) * 2 ^ lo = 2 ^ lo * (w.toNat / 2 ^ lo % 2 ^ (hi - lo + 1)) := Nat.mul_comm _ _
    omega
  have hx := Nat.mod_lt v hK
  have hy := Nat.mod_lt (w.toNat / 2 ^ lo) hK
  have lt : ∀ x < 2 ^ (hi - lo + 1), 2 ^ lo * x + w.toNat % 2 ^ lo < 2 ^ (hi + 1) := by
    intro x hx
    have := Nat.mod_lt w.toNat hP
    have h5 : 2 ^ lo * x + 2 ^ lo ≤ 2 ^ lo * 2 ^ (hi - lo + 1) := by
      rw [← Nat.mul_succ]; exact Nat.mul_le_mul_left _ hx
    omega
  have key : ∀ x < 2 ^ (hi - lo + 1), (w.toNat - w.toNat / 2 ^ lo % 2 ^ (hi - lo + 1) * 2 ^ lo + x * 2 ^ lo).testBit k =
      (if k < hi + 1 then (w.toNat % 2 ^ lo).testBit k else
        (w.toNat / 2 ^ lo / 2 ^ (hi - lo + 1)).testBit (k - (hi + 1))) := by
    intro x hx
    rw [e x hx, Nat.testBit_two_pow_mul_add _ (lt x hx)]
    split <;> rename_i hh
    · rw [Nat.testBit_two_pow_mul_add _ (Nat.mod_lt _ hP), if_pos (by omega)]
    · rfl
  have hself : w.toNat - w.toNat / 2 ^ lo % 2 ^ (hi - lo + 1) * 2 ^ lo + w.toNat / 2 ^ lo % 2 ^ (hi - lo + 1) * 2 ^ lo = w.toNat := by
    apply Nat.sub_add_cancel
    exact (Nat.mul_le_mul_right _ (Nat.mod_le _ _)).trans (Nat.div_mul_le_self _ _)
  rw [key _ hx, ← key _ hy, hself]

theorem bit_putF_of_out (s : State) (a hi lo v k : Nat) (h : hi < 32) (hl : lo ≤ hi) (hk : k < lo ∨ hi < k) :
    (s.putF a hi lo v).bit a k = s.bit a k := by
  simp only [State.bit, rd_putF, if_true]
  exact getLsbD_setBits _ _ _ _ _ h hl hk

/-- A field is unchanged where every bit of it is. -/
theorem bits_congr {w x : Word} {hi lo : Nat} (hl : lo ≤ hi) (h : ∀ k, lo ≤ k → k ≤ hi → w.getLsbD k = x.getLsbD k) :
    bits w hi lo = bits x hi lo := by
  apply Nat.eq_of_testBit_eq
  intro i
  simp only [bits, Nat.testBit_mod_two_pow, Nat.testBit_shiftRight]
  by_cases c : i < hi - lo + 1
  · have := h (lo + i) (by omega) (by omega)
    simp only [BitVec.getLsbD] at this
    simp [c, this]
  · simp [c]

theorem fld_putF_of_out (s : State) (a hi lo v h2 l2 : Nat) (h : hi < 32) (hl : lo ≤ hi) (h3 : l2 ≤ h2) (hk : h2 < lo ∨ hi < l2) :
    (s.putF a hi lo v).fld a h2 l2 = s.fld a h2 l2 :=
  bits_congr h3 fun k h4 h5 => bit_putF_of_out s a hi lo v k h hl (by omega)

theorem fld_setBit_of_out (s : State) (a k hi lo : Nat) (h : lo ≤ hi) (hk : k < lo ∨ hi < k) :
    (s.setBit a k).fld a hi lo = s.fld a hi lo :=
  bits_congr h fun j h1 h2 => (bit_setBit s a a k j).trans (by simp [State.bit, show ¬j = k by omega])

theorem fld_clrBit_of_out (s : State) (a k hi lo : Nat) (h : lo ≤ hi) (hk : k < lo ∨ hi < k) :
    (s.clrBit a k).fld a hi lo = s.fld a hi lo :=
  bits_congr h fun j h1 h2 => (bit_clrBit s a a k j).trans (by simp [State.bit, show ¬j = k by omega])

end Sys2Proof.Laws
end

