-- ==== Sys2Proof/Laws/Memory.lean ====
section
/-!
SUPPORT. Laws of slice-local memory (R290, R294): a read after a write gives what was written, a write leaves every other byte alone, and every
memory operation keeps the canonical form.
-/

namespace Sys2Proof.Laws

open Sys2Proof.Machine

theorem memGet_memPut (m : List Host.Cell) (a b : Nat) (v : Byte) : memGet (memPut m a v) b = if b = a then v else memGet m b :=
  mapGet_mapPut (fun _ => (0 : Byte)) m a b v

/-- Outside the bytes written, memory reads as before. -/
theorem memGet_memWrite_of_out (l : List Byte) (m : List Host.Cell) (a b : Nat) (h : b < a ∨ a + l.length ≤ b) :
    memGet (memWrite m a l) b = memGet m b := by
  induction l generalizing m a with
  | nil => rfl
  | cons v l ih =>
    simp only [List.length_cons] at h
    rw [memWrite, ih _ _ (by omega), memGet_memPut, if_neg (by omega)]

/-- The bytes written read as what was written. -/
theorem memGet_memWrite (l : List Byte) (m : List Host.Cell) (a k : Nat) (h : k < l.length) :
    memGet (memWrite m a l) (a + k) = l[k] := by
  induction l generalizing m a k with
  | nil => exact absurd h (Nat.not_lt_zero _)
  | cons v l ih =>
    cases k with
    | zero => rw [memWrite, memGet_memWrite_of_out _ _ _ _ (by omega), memGet_memPut]; simp
    | succ k =>
      rw [memWrite, show a + (k + 1) = a + 1 + k by omega]
      exact ih _ _ _ (by simpa using h)

theorem memRead_length (m : List Host.Cell) (a n : Nat) : (memRead m a n).length = n := by
  induction n generalizing a with
  | zero => rfl
  | succ n ih => simp [memRead, ih]

/-- A read returns the bytes in order. -/
theorem memRead_get (m : List Host.Cell) (a n k : Nat) (h : k < n) : (memRead m a n)[k]? = some (memGet m (a + k)) := by
  induction n generalizing a k with
  | zero => exact absurd h (Nat.not_lt_zero _)
  | succ n ih =>
    cases k with
    | zero => rfl
    | succ k => simpa [memRead, Nat.add_assoc, Nat.add_comm 1] using ih (a + 1) k (by omega)

/-- A read of what was just written gives it back. -/
theorem memRead_memWrite (l : List Byte) (m : List Host.Cell) (a : Nat) : memRead (memWrite m a l) a l.length = l := by
  apply List.ext_getElem?
  intro k
  by_cases h : k < l.length
  · rw [memRead_get _ _ _ _ h, memGet_memWrite _ _ _ _ h, List.getElem?_eq_getElem h]
  · rw [List.getElem?_eq_none (by rw [memRead_length]; omega), List.getElem?_eq_none (by omega)]

theorem memWrite_wf (l : List Byte) (m : List Host.Cell) (a : Nat) (h : Memory.wf m = true) : Memory.wf (memWrite m a l) = true := by
  induction l generalizing m a with
  | nil => exact h
  | cons b l ih => exact ih _ _ (mapPut_wf (d := fun _ => (0 : Byte)) a b h)

theorem memClear_wf (m : List Host.Cell) (a n : Nat) (h : Memory.wf m = true) : Memory.wf (memClear m a n) = true :=
  mapFilter_wf _ h

/-- A cleared byte reads as 0, and every other byte as before. -/
theorem memGet_memClear (m : List Host.Cell) (a n b : Nat) :
    memGet (memClear m a n) b = if a ≤ b ∧ b < a + n then 0 else memGet m b := by
  simp only [memGet, memClear]
  induction m with
  | nil => simp [mapGet]
  | cons p m ih =>
    obtain ⟨j, w⟩ := p
    rw [List.filter_cons]
    by_cases c : a ≤ j ∧ j < a + n
    · rw [if_neg (by simp [c]), ih]
      by_cases e : b = j
      · subst e; simp [c]
      · simp [mapGet, e]
    · rw [if_pos (by simp only [Bool.not_eq_true', Bool.and_eq_false_iff, decide_eq_false_iff_not]; omega)]
      by_cases e : b = j
      · subst e; simp [mapGet, c]
      · simp only [mapGet, if_neg e]
        exact ih

/-- The memory of every slice after reset is canonical. -/
theorem reset_slm : ∀ x ∈ State.reset.slices, Memory.wf x.slm = true := by decide

end Sys2Proof.Laws
end

