-- ==== Sys2Proof/Laws/State.lean ====
section
/-!
SUPPORT. Every field of the state after every update of one field: the field's new value, or the old one. True by unfolding, so that no
proof has to open a record update.
-/

namespace Sys2Proof.Laws

open Sys2Proof.Machine

/-! ### Numbered tables -/

theorem slice_modSlice (s : State) (n k : Nat) (f : Slice → Slice) (h : n < s.slices.length) :
    (s.modSlice n f).slice k = if k = n then f (s.slice n) else s.slice k := by
  simp only [State.slice, State.modSlice, modAt_get]
  split <;> rename_i e
  · subst e; simp [h]
  · rfl

theorem slice_modSlice_of_ne {n k : Nat} (s : State) (f : Slice → Slice) (h : k ≠ n) : (s.modSlice n f).slice k = s.slice k := by
  simp [State.slice, State.modSlice, modAt_get, h]

theorem ctrl_modCtrl (s : State) (c k : Nat) (f : Ctrl → Ctrl) :
    (s.modCtrl c f).ctrl k = if k = c then { f (s.ctrl c) with id := c } else s.ctrl k := by
  simp only [State.ctrl, State.modCtrl, recGet_recPut]
  by_cases e : k = c
  · simp [e]
  · simp [e, Ne.symm e]

theorem tenant_modTenant (s : State) (n k : Nat) (f : Tenant → Tenant) (h : ∀ t, (f t).ti = t.ti) :
    (s.modTenant n f).tenant k = (s.tenant k).map fun t => if k = n then f t else t :=
  recGet_recMod Tenant.ti s.tenants n k f h

theorem ns_modNs (s : State) (n k : Nat) (f : Namespace → Namespace) (h : ∀ x, (f x).nsid = x.nsid) :
    (s.modNs n f).ns k = (s.ns k).map fun x => if k = n then f x else x :=
  recGet_recMod Namespace.nsid s.namespaces n k f h

/-! ### wr -/

@[simp] theorem wr_part (s : State) (a : Nat) (v : Word) : (s.wr a v).part = s.part := rfl
@[simp] theorem wr_pins (s : State) (a : Nat) (v : Word) : (s.wr a v).pins = s.pins := rfl
@[simp] theorem wr_latches (s : State) (a : Nat) (v : Word) : (s.wr a v).latches = s.latches := rfl
@[simp] theorem wr_busRead (s : State) (a : Nat) (v : Word) : (s.wr a v).busRead = s.busRead := rfl
@[simp] theorem wr_course (s : State) (a : Nat) (v : Word) : (s.wr a v).course = s.course := rfl
@[simp] theorem wr_dual (s : State) (a : Nat) (v : Word) : (s.wr a v).dual = s.dual := rfl
@[simp] theorem wr_links (s : State) (a : Nat) (v : Word) : (s.wr a v).links = s.links := rfl
@[simp] theorem wr_ctrls (s : State) (a : Nat) (v : Word) : (s.wr a v).ctrls = s.ctrls := rfl
@[simp] theorem wr_inflight (s : State) (a : Nat) (v : Word) : (s.wr a v).inflight = s.inflight := rfl
@[simp] theorem wr_order (s : State) (a : Nat) (v : Word) : (s.wr a v).order = s.order := rfl
@[simp] theorem wr_namespaces (s : State) (a : Nat) (v : Word) : (s.wr a v).namespaces = s.namespaces := rfl
@[simp] theorem wr_tenants (s : State) (a : Nat) (v : Word) : (s.wr a v).tenants = s.tenants := rfl
@[simp] theorem wr_leaving (s : State) (a : Nat) (v : Word) : (s.wr a v).leaving = s.leaving := rfl
@[simp] theorem wr_deferred (s : State) (a : Nat) (v : Word) : (s.wr a v).deferred = s.deferred := rfl
@[simp] theorem wr_migs (s : State) (a : Nat) (v : Word) : (s.wr a v).migs = s.migs := rfl
@[simp] theorem wr_slotWaits (s : State) (a : Nat) (v : Word) : (s.wr a v).slotWaits = s.slotWaits := rfl
@[simp] theorem wr_slices (s : State) (a : Nat) (v : Word) : (s.wr a v).slices = s.slices := rfl
@[simp] theorem wr_invocations (s : State) (a : Nat) (v : Word) : (s.wr a v).invocations = s.invocations := rfl
@[simp] theorem wr_nextInv (s : State) (a : Nat) (v : Word) : (s.wr a v).nextInv = s.nextInv := rfl
@[simp] theorem wr_hd (s : State) (a : Nat) (v : Word) : (s.wr a v).hd = s.hd := rfl
@[simp] theorem wr_parks (s : State) (a : Nat) (v : Word) : (s.wr a v).parks = s.parks := rfl
@[simp] theorem wr_hdQueue (s : State) (a : Nat) (v : Word) : (s.wr a v).hdQueue = s.hdQueue := rfl
@[simp] theorem wr_ats (s : State) (a : Nat) (v : Word) : (s.wr a v).ats = s.ats := rfl
@[simp] theorem wr_digests (s : State) (a : Nat) (v : Word) : (s.wr a v).digests = s.digests := rfl
@[simp] theorem wr_digestWaits (s : State) (a : Nat) (v : Word) : (s.wr a v).digestWaits = s.digestWaits := rfl
@[simp] theorem wr_digestOut (s : State) (a : Nat) (v : Word) : (s.wr a v).digestOut = s.digestOut := rfl
@[simp] theorem wr_hubKey (s : State) (a : Nat) (v : Word) : (s.wr a v).hubKey = s.hubKey := rfl
@[simp] theorem wr_meas (s : State) (a : Nat) (v : Word) : (s.wr a v).meas = s.meas := rfl
@[simp] theorem wr_measLog (s : State) (a : Nat) (v : Word) : (s.wr a v).measLog = s.measLog := rfl
@[simp] theorem wr_measSeq (s : State) (a : Nat) (v : Word) : (s.wr a v).measSeq = s.measSeq := rfl
@[simp] theorem wr_staged (s : State) (a : Nat) (v : Word) : (s.wr a v).staged = s.staged := rfl
@[simp] theorem wr_spdmPeers (s : State) (a : Nat) (v : Word) : (s.wr a v).spdmPeers = s.spdmPeers := rfl
@[simp] theorem wr_spdmSessions (s : State) (a : Nat) (v : Word) : (s.wr a v).spdmSessions = s.spdmSessions := rfl
@[simp] theorem wr_spdmOut (s : State) (a : Nat) (v : Word) : (s.wr a v).spdmOut = s.spdmOut := rfl
@[simp] theorem wr_entropyOk (s : State) (a : Nat) (v : Word) : (s.wr a v).entropyOk = s.entropyOk := rfl
@[simp] theorem wr_groupAt (s : State) (a : Nat) (v : Word) : (s.wr a v).groupAt = s.groupAt := rfl
@[simp] theorem wr_groupRecs (s : State) (a : Nat) (v : Word) : (s.wr a v).groupRecs = s.groupRecs := rfl
@[simp] theorem wr_storeHdr (s : State) (a : Nat) (v : Word) : (s.wr a v).storeHdr = s.storeHdr := rfl
@[simp] theorem wr_storeNext (s : State) (a : Nat) (v : Word) : (s.wr a v).storeNext = s.storeNext := rfl
@[simp] theorem wr_wearRateMax (s : State) (a : Nat) (v : Word) : (s.wr a v).wearRateMax = s.wearRateMax := rfl
@[simp] theorem wr_nvm (s : State) (a : Nat) (v : Word) : (s.wr a v).nvm = s.nvm := rfl
@[simp] theorem wr_power (s : State) (a : Nat) (v : Word) : (s.wr a v).power = s.power := rfl
@[simp] theorem wr_start (s : State) (a : Nat) (v : Word) : (s.wr a v).start = s.start := rfl
@[simp] theorem wr_recorder (s : State) (a : Nat) (v : Word) : (s.wr a v).recorder = s.recorder := rfl
@[simp] theorem wr_fences (s : State) (a : Nat) (v : Word) : (s.wr a v).fences = s.fences := rfl
@[simp] theorem wr_fenceCounts (s : State) (a : Nat) (v : Word) : (s.wr a v).fenceCounts = s.fenceCounts := rfl
@[simp] theorem wr_fenceSoon (s : State) (a : Nat) (v : Word) : (s.wr a v).fenceSoon = s.fenceSoon := rfl
@[simp] theorem wr_test (s : State) (a : Nat) (v : Word) : (s.wr a v).test = s.test := rfl
@[simp] theorem wr_unfence (s : State) (a : Nat) (v : Word) : (s.wr a v).unfence = s.unfence := rfl
@[simp] theorem wr_mgmt (s : State) (a : Nat) (v : Word) : (s.wr a v).mgmt = s.mgmt := rfl
@[simp] theorem wr_fresh (s : State) (a : Nat) (v : Word) : (s.wr a v).fresh = s.fresh := rfl
@[simp] theorem wr_pending (s : State) (a : Nat) (v : Word) : (s.wr a v).pending = s.pending := rfl

/-! ### putF -/

@[simp] theorem putF_part (s : State) (a hi lo v : Nat) : (s.putF a hi lo v).part = s.part := rfl
@[simp] theorem putF_pins (s : State) (a hi lo v : Nat) : (s.putF a hi lo v).pins = s.pins := rfl
@[simp] theorem putF_latches (s : State) (a hi lo v : Nat) : (s.putF a hi lo v).latches = s.latches := rfl
@[simp] theorem putF_busRead (s : State) (a hi lo v : Nat) : (s.putF a hi lo v).busRead = s.busRead := rfl
@[simp] theorem putF_course (s : State) (a hi lo v : Nat) : (s.putF a hi lo v).course = s.course := rfl
@[simp] theorem putF_dual (s : State) (a hi lo v : Nat) : (s.putF a hi lo v).dual = s.dual := rfl
@[simp] theorem putF_links (s : State) (a hi lo v : Nat) : (s.putF a hi lo v).links = s.links := rfl
@[simp] theorem putF_ctrls (s : State) (a hi lo v : Nat) : (s.putF a hi lo v).ctrls = s.ctrls := rfl
@[simp] theorem putF_inflight (s : State) (a hi lo v : Nat) : (s.putF a hi lo v).inflight = s.inflight := rfl
@[simp] theorem putF_order (s : State) (a hi lo v : Nat) : (s.putF a hi lo v).order = s.order := rfl
@[simp] theorem putF_namespaces (s : State) (a hi lo v : Nat) : (s.putF a hi lo v).namespaces = s.namespaces := rfl
@[simp] theorem putF_tenants (s : State) (a hi lo v : Nat) : (s.putF a hi lo v).tenants = s.tenants := rfl
@[simp] theorem putF_leaving (s : State) (a hi lo v : Nat) : (s.putF a hi lo v).leaving = s.leaving := rfl
@[simp] theorem putF_deferred (s : State) (a hi lo v : Nat) : (s.putF a hi lo v).deferred = s.deferred := rfl
@[simp] theorem putF_migs (s : State) (a hi lo v : Nat) : (s.putF a hi lo v).migs = s.migs := rfl
@[simp] theorem putF_slotWaits (s : State) (a hi lo v : Nat) : (s.putF a hi lo v).slotWaits = s.slotWaits := rfl
@[simp] theorem putF_slices (s : State) (a hi lo v : Nat) : (s.putF a hi lo v).slices = s.slices := rfl
@[simp] theorem putF_invocations (s : State) (a hi lo v : Nat) : (s.putF a hi lo v).invocations = s.invocations := rfl
@[simp] theorem putF_nextInv (s : State) (a hi lo v : Nat) : (s.putF a hi lo v).nextInv = s.nextInv := rfl
@[simp] theorem putF_hd (s : State) (a hi lo v : Nat) : (s.putF a hi lo v).hd = s.hd := rfl
@[simp] theorem putF_parks (s : State) (a hi lo v : Nat) : (s.putF a hi lo v).parks = s.parks := rfl
@[simp] theorem putF_hdQueue (s : State) (a hi lo v : Nat) : (s.putF a hi lo v).hdQueue = s.hdQueue := rfl
@[simp] theorem putF_ats (s : State) (a hi lo v : Nat) : (s.putF a hi lo v).ats = s.ats := rfl
@[simp] theorem putF_digests (s : State) (a hi lo v : Nat) : (s.putF a hi lo v).digests = s.digests := rfl
@[simp] theorem putF_digestWaits (s : State) (a hi lo v : Nat) : (s.putF a hi lo v).digestWaits = s.digestWaits := rfl
@[simp] theorem putF_digestOut (s : State) (a hi lo v : Nat) : (s.putF a hi lo v).digestOut = s.digestOut := rfl
@[simp] theorem putF_hubKey (s : State) (a hi lo v : Nat) : (s.putF a hi lo v).hubKey = s.hubKey := rfl
@[simp] theorem putF_meas (s : State) (a hi lo v : Nat) : (s.putF a hi lo v).meas = s.meas := rfl
@[simp] theorem putF_measLog (s : State) (a hi lo v : Nat) : (s.putF a hi lo v).measLog = s.measLog := rfl
@[simp] theorem putF_measSeq (s : State) (a hi lo v : Nat) : (s.putF a hi lo v).measSeq = s.measSeq := rfl
@[simp] theorem putF_staged (s : State) (a hi lo v : Nat) : (s.putF a hi lo v).staged = s.staged := rfl
@[simp] theorem putF_spdmPeers (s : State) (a hi lo v : Nat) : (s.putF a hi lo v).spdmPeers = s.spdmPeers := rfl
@[simp] theorem putF_spdmSessions (s : State) (a hi lo v : Nat) : (s.putF a hi lo v).spdmSessions = s.spdmSessions := rfl
@[simp] theorem putF_spdmOut (s : State) (a hi lo v : Nat) : (s.putF a hi lo v).spdmOut = s.spdmOut := rfl
@[simp] theorem putF_entropyOk (s : State) (a hi lo v : Nat) : (s.putF a hi lo v).entropyOk = s.entropyOk := rfl
@[simp] theorem putF_groupAt (s : State) (a hi lo v : Nat) : (s.putF a hi lo v).groupAt = s.groupAt := rfl
@[simp] theorem putF_groupRecs (s : State) (a hi lo v : Nat) : (s.putF a hi lo v).groupRecs = s.groupRecs := rfl
@[simp] theorem putF_storeHdr (s : State) (a hi lo v : Nat) : (s.putF a hi lo v).storeHdr = s.storeHdr := rfl
@[simp] theorem putF_storeNext (s : State) (a hi lo v : Nat) : (s.putF a hi lo v).storeNext = s.storeNext := rfl
@[simp] theorem putF_wearRateMax (s : State) (a hi lo v : Nat) : (s.putF a hi lo v).wearRateMax = s.wearRateMax := rfl
@[simp] theorem putF_nvm (s : State) (a hi lo v : Nat) : (s.putF a hi lo v).nvm = s.nvm := rfl
@[simp] theorem putF_power (s : State) (a hi lo v : Nat) : (s.putF a hi lo v).power = s.power := rfl
@[simp] theorem putF_start (s : State) (a hi lo v : Nat) : (s.putF a hi lo v).start = s.start := rfl
@[simp] theorem putF_recorder (s : State) (a hi lo v : Nat) : (s.putF a hi lo v).recorder = s.recorder := rfl
@[simp] theorem putF_fences (s : State) (a hi lo v : Nat) : (s.putF a hi lo v).fences = s.fences := rfl
@[simp] theorem putF_fenceCounts (s : State) (a hi lo v : Nat) : (s.putF a hi lo v).fenceCounts = s.fenceCounts := rfl
@[simp] theorem putF_fenceSoon (s : State) (a hi lo v : Nat) : (s.putF a hi lo v).fenceSoon = s.fenceSoon := rfl
@[simp] theorem putF_test (s : State) (a hi lo v : Nat) : (s.putF a hi lo v).test = s.test := rfl
@[simp] theorem putF_unfence (s : State) (a hi lo v : Nat) : (s.putF a hi lo v).unfence = s.unfence := rfl
@[simp] theorem putF_mgmt (s : State) (a hi lo v : Nat) : (s.putF a hi lo v).mgmt = s.mgmt := rfl
@[simp] theorem putF_fresh (s : State) (a hi lo v : Nat) : (s.putF a hi lo v).fresh = s.fresh := rfl
@[simp] theorem putF_pending (s : State) (a hi lo v : Nat) : (s.putF a hi lo v).pending = s.pending := rfl

/-! ### setBit -/

@[simp] theorem setBit_part (s : State) (a k : Nat) : (s.setBit a k).part = s.part := rfl
@[simp] theorem setBit_pins (s : State) (a k : Nat) : (s.setBit a k).pins = s.pins := rfl
@[simp] theorem setBit_latches (s : State) (a k : Nat) : (s.setBit a k).latches = s.latches := rfl
@[simp] theorem setBit_busRead (s : State) (a k : Nat) : (s.setBit a k).busRead = s.busRead := rfl
@[simp] theorem setBit_course (s : State) (a k : Nat) : (s.setBit a k).course = s.course := rfl
@[simp] theorem setBit_dual (s : State) (a k : Nat) : (s.setBit a k).dual = s.dual := rfl
@[simp] theorem setBit_links (s : State) (a k : Nat) : (s.setBit a k).links = s.links := rfl
@[simp] theorem setBit_ctrls (s : State) (a k : Nat) : (s.setBit a k).ctrls = s.ctrls := rfl
@[simp] theorem setBit_inflight (s : State) (a k : Nat) : (s.setBit a k).inflight = s.inflight := rfl
@[simp] theorem setBit_order (s : State) (a k : Nat) : (s.setBit a k).order = s.order := rfl
@[simp] theorem setBit_namespaces (s : State) (a k : Nat) : (s.setBit a k).namespaces = s.namespaces := rfl
@[simp] theorem setBit_tenants (s : State) (a k : Nat) : (s.setBit a k).tenants = s.tenants := rfl
@[simp] theorem setBit_leaving (s : State) (a k : Nat) : (s.setBit a k).leaving = s.leaving := rfl
@[simp] theorem setBit_deferred (s : State) (a k : Nat) : (s.setBit a k).deferred = s.deferred := rfl
@[simp] theorem setBit_migs (s : State) (a k : Nat) : (s.setBit a k).migs = s.migs := rfl
@[simp] theorem setBit_slotWaits (s : State) (a k : Nat) : (s.setBit a k).slotWaits = s.slotWaits := rfl
@[simp] theorem setBit_slices (s : State) (a k : Nat) : (s.setBit a k).slices = s.slices := rfl
@[simp] theorem setBit_invocations (s : State) (a k : Nat) : (s.setBit a k).invocations = s.invocations := rfl
@[simp] theorem setBit_nextInv (s : State) (a k : Nat) : (s.setBit a k).nextInv = s.nextInv := rfl
@[simp] theorem setBit_hd (s : State) (a k : Nat) : (s.setBit a k).hd = s.hd := rfl
@[simp] theorem setBit_parks (s : State) (a k : Nat) : (s.setBit a k).parks = s.parks := rfl
@[simp] theorem setBit_hdQueue (s : State) (a k : Nat) : (s.setBit a k).hdQueue = s.hdQueue := rfl
@[simp] theorem setBit_ats (s : State) (a k : Nat) : (s.setBit a k).ats = s.ats := rfl
@[simp] theorem setBit_digests (s : State) (a k : Nat) : (s.setBit a k).digests = s.digests := rfl
@[simp] theorem setBit_digestWaits (s : State) (a k : Nat) : (s.setBit a k).digestWaits = s.digestWaits := rfl
@[simp] theorem setBit_digestOut (s : State) (a k : Nat) : (s.setBit a k).digestOut = s.digestOut := rfl
@[simp] theorem setBit_hubKey (s : State) (a k : Nat) : (s.setBit a k).hubKey = s.hubKey := rfl
@[simp] theorem setBit_meas (s : State) (a k : Nat) : (s.setBit a k).meas = s.meas := rfl
@[simp] theorem setBit_measLog (s : State) (a k : Nat) : (s.setBit a k).measLog = s.measLog := rfl
@[simp] theorem setBit_measSeq (s : State) (a k : Nat) : (s.setBit a k).measSeq = s.measSeq := rfl
@[simp] theorem setBit_staged (s : State) (a k : Nat) : (s.setBit a k).staged = s.staged := rfl
@[simp] theorem setBit_spdmPeers (s : State) (a k : Nat) : (s.setBit a k).spdmPeers = s.spdmPeers := rfl
@[simp] theorem setBit_spdmSessions (s : State) (a k : Nat) : (s.setBit a k).spdmSessions = s.spdmSessions := rfl
@[simp] theorem setBit_spdmOut (s : State) (a k : Nat) : (s.setBit a k).spdmOut = s.spdmOut := rfl
@[simp] theorem setBit_entropyOk (s : State) (a k : Nat) : (s.setBit a k).entropyOk = s.entropyOk := rfl
@[simp] theorem setBit_groupAt (s : State) (a k : Nat) : (s.setBit a k).groupAt = s.groupAt := rfl
@[simp] theorem setBit_groupRecs (s : State) (a k : Nat) : (s.setBit a k).groupRecs = s.groupRecs := rfl
@[simp] theorem setBit_storeHdr (s : State) (a k : Nat) : (s.setBit a k).storeHdr = s.storeHdr := rfl
@[simp] theorem setBit_storeNext (s : State) (a k : Nat) : (s.setBit a k).storeNext = s.storeNext := rfl
@[simp] theorem setBit_wearRateMax (s : State) (a k : Nat) : (s.setBit a k).wearRateMax = s.wearRateMax := rfl
@[simp] theorem setBit_nvm (s : State) (a k : Nat) : (s.setBit a k).nvm = s.nvm := rfl
@[simp] theorem setBit_power (s : State) (a k : Nat) : (s.setBit a k).power = s.power := rfl
@[simp] theorem setBit_start (s : State) (a k : Nat) : (s.setBit a k).start = s.start := rfl
@[simp] theorem setBit_recorder (s : State) (a k : Nat) : (s.setBit a k).recorder = s.recorder := rfl
@[simp] theorem setBit_fences (s : State) (a k : Nat) : (s.setBit a k).fences = s.fences := rfl
@[simp] theorem setBit_fenceCounts (s : State) (a k : Nat) : (s.setBit a k).fenceCounts = s.fenceCounts := rfl
@[simp] theorem setBit_fenceSoon (s : State) (a k : Nat) : (s.setBit a k).fenceSoon = s.fenceSoon := rfl
@[simp] theorem setBit_test (s : State) (a k : Nat) : (s.setBit a k).test = s.test := rfl
@[simp] theorem setBit_unfence (s : State) (a k : Nat) : (s.setBit a k).unfence = s.unfence := rfl
@[simp] theorem setBit_mgmt (s : State) (a k : Nat) : (s.setBit a k).mgmt = s.mgmt := rfl
@[simp] theorem setBit_fresh (s : State) (a k : Nat) : (s.setBit a k).fresh = s.fresh := rfl
@[simp] theorem setBit_pending (s : State) (a k : Nat) : (s.setBit a k).pending = s.pending := rfl

/-! ### clrBit -/

@[simp] theorem clrBit_part (s : State) (a k : Nat) : (s.clrBit a k).part = s.part := rfl
@[simp] theorem clrBit_pins (s : State) (a k : Nat) : (s.clrBit a k).pins = s.pins := rfl
@[simp] theorem clrBit_latches (s : State) (a k : Nat) : (s.clrBit a k).latches = s.latches := rfl
@[simp] theorem clrBit_busRead (s : State) (a k : Nat) : (s.clrBit a k).busRead = s.busRead := rfl
@[simp] theorem clrBit_course (s : State) (a k : Nat) : (s.clrBit a k).course = s.course := rfl
@[simp] theorem clrBit_dual (s : State) (a k : Nat) : (s.clrBit a k).dual = s.dual := rfl
@[simp] theorem clrBit_links (s : State) (a k : Nat) : (s.clrBit a k).links = s.links := rfl
@[simp] theorem clrBit_ctrls (s : State) (a k : Nat) : (s.clrBit a k).ctrls = s.ctrls := rfl
@[simp] theorem clrBit_inflight (s : State) (a k : Nat) : (s.clrBit a k).inflight = s.inflight := rfl
@[simp] theorem clrBit_order (s : State) (a k : Nat) : (s.clrBit a k).order = s.order := rfl
@[simp] theorem clrBit_namespaces (s : State) (a k : Nat) : (s.clrBit a k).namespaces = s.namespaces := rfl
@[simp] theorem clrBit_tenants (s : State) (a k : Nat) : (s.clrBit a k).tenants = s.tenants := rfl
@[simp] theorem clrBit_leaving (s : State) (a k : Nat) : (s.clrBit a k).leaving = s.leaving := rfl
@[simp] theorem clrBit_deferred (s : State) (a k : Nat) : (s.clrBit a k).deferred = s.deferred := rfl
@[simp] theorem clrBit_migs (s : State) (a k : Nat) : (s.clrBit a k).migs = s.migs := rfl
@[simp] theorem clrBit_slotWaits (s : State) (a k : Nat) : (s.clrBit a k).slotWaits = s.slotWaits := rfl
@[simp] theorem clrBit_slices (s : State) (a k : Nat) : (s.clrBit a k).slices = s.slices := rfl
@[simp] theorem clrBit_invocations (s : State) (a k : Nat) : (s.clrBit a k).invocations = s.invocations := rfl
@[simp] theorem clrBit_nextInv (s : State) (a k : Nat) : (s.clrBit a k).nextInv = s.nextInv := rfl
@[simp] theorem clrBit_hd (s : State) (a k : Nat) : (s.clrBit a k).hd = s.hd := rfl
@[simp] theorem clrBit_parks (s : State) (a k : Nat) : (s.clrBit a k).parks = s.parks := rfl
@[simp] theorem clrBit_hdQueue (s : State) (a k : Nat) : (s.clrBit a k).hdQueue = s.hdQueue := rfl
@[simp] theorem clrBit_ats (s : State) (a k : Nat) : (s.clrBit a k).ats = s.ats := rfl
@[simp] theorem clrBit_digests (s : State) (a k : Nat) : (s.clrBit a k).digests = s.digests := rfl
@[simp] theorem clrBit_digestWaits (s : State) (a k : Nat) : (s.clrBit a k).digestWaits = s.digestWaits := rfl
@[simp] theorem clrBit_digestOut (s : State) (a k : Nat) : (s.clrBit a k).digestOut = s.digestOut := rfl
@[simp] theorem clrBit_hubKey (s : State) (a k : Nat) : (s.clrBit a k).hubKey = s.hubKey := rfl
@[simp] theorem clrBit_meas (s : State) (a k : Nat) : (s.clrBit a k).meas = s.meas := rfl
@[simp] theorem clrBit_measLog (s : State) (a k : Nat) : (s.clrBit a k).measLog = s.measLog := rfl
@[simp] theorem clrBit_measSeq (s : State) (a k : Nat) : (s.clrBit a k).measSeq = s.measSeq := rfl
@[simp] theorem clrBit_staged (s : State) (a k : Nat) : (s.clrBit a k).staged = s.staged := rfl
@[simp] theorem clrBit_spdmPeers (s : State) (a k : Nat) : (s.clrBit a k).spdmPeers = s.spdmPeers := rfl
@[simp] theorem clrBit_spdmSessions (s : State) (a k : Nat) : (s.clrBit a k).spdmSessions = s.spdmSessions := rfl
@[simp] theorem clrBit_spdmOut (s : State) (a k : Nat) : (s.clrBit a k).spdmOut = s.spdmOut := rfl
@[simp] theorem clrBit_entropyOk (s : State) (a k : Nat) : (s.clrBit a k).entropyOk = s.entropyOk := rfl
@[simp] theorem clrBit_groupAt (s : State) (a k : Nat) : (s.clrBit a k).groupAt = s.groupAt := rfl
@[simp] theorem clrBit_groupRecs (s : State) (a k : Nat) : (s.clrBit a k).groupRecs = s.groupRecs := rfl
@[simp] theorem clrBit_storeHdr (s : State) (a k : Nat) : (s.clrBit a k).storeHdr = s.storeHdr := rfl
@[simp] theorem clrBit_storeNext (s : State) (a k : Nat) : (s.clrBit a k).storeNext = s.storeNext := rfl
@[simp] theorem clrBit_wearRateMax (s : State) (a k : Nat) : (s.clrBit a k).wearRateMax = s.wearRateMax := rfl
@[simp] theorem clrBit_nvm (s : State) (a k : Nat) : (s.clrBit a k).nvm = s.nvm := rfl
@[simp] theorem clrBit_power (s : State) (a k : Nat) : (s.clrBit a k).power = s.power := rfl
@[simp] theorem clrBit_start (s : State) (a k : Nat) : (s.clrBit a k).start = s.start := rfl
@[simp] theorem clrBit_recorder (s : State) (a k : Nat) : (s.clrBit a k).recorder = s.recorder := rfl
@[simp] theorem clrBit_fences (s : State) (a k : Nat) : (s.clrBit a k).fences = s.fences := rfl
@[simp] theorem clrBit_fenceCounts (s : State) (a k : Nat) : (s.clrBit a k).fenceCounts = s.fenceCounts := rfl
@[simp] theorem clrBit_fenceSoon (s : State) (a k : Nat) : (s.clrBit a k).fenceSoon = s.fenceSoon := rfl
@[simp] theorem clrBit_test (s : State) (a k : Nat) : (s.clrBit a k).test = s.test := rfl
@[simp] theorem clrBit_unfence (s : State) (a k : Nat) : (s.clrBit a k).unfence = s.unfence := rfl
@[simp] theorem clrBit_mgmt (s : State) (a k : Nat) : (s.clrBit a k).mgmt = s.mgmt := rfl
@[simp] theorem clrBit_fresh (s : State) (a k : Nat) : (s.clrBit a k).fresh = s.fresh := rfl
@[simp] theorem clrBit_pending (s : State) (a k : Nat) : (s.clrBit a k).pending = s.pending := rfl

/-! ### addF -/

@[simp] theorem addF_part (s : State) (a hi lo n : Nat) : (s.addF a hi lo n).part = s.part := rfl
@[simp] theorem addF_pins (s : State) (a hi lo n : Nat) : (s.addF a hi lo n).pins = s.pins := rfl
@[simp] theorem addF_latches (s : State) (a hi lo n : Nat) : (s.addF a hi lo n).latches = s.latches := rfl
@[simp] theorem addF_busRead (s : State) (a hi lo n : Nat) : (s.addF a hi lo n).busRead = s.busRead := rfl
@[simp] theorem addF_course (s : State) (a hi lo n : Nat) : (s.addF a hi lo n).course = s.course := rfl
@[simp] theorem addF_dual (s : State) (a hi lo n : Nat) : (s.addF a hi lo n).dual = s.dual := rfl
@[simp] theorem addF_links (s : State) (a hi lo n : Nat) : (s.addF a hi lo n).links = s.links := rfl
@[simp] theorem addF_ctrls (s : State) (a hi lo n : Nat) : (s.addF a hi lo n).ctrls = s.ctrls := rfl
@[simp] theorem addF_inflight (s : State) (a hi lo n : Nat) : (s.addF a hi lo n).inflight = s.inflight := rfl
@[simp] theorem addF_order (s : State) (a hi lo n : Nat) : (s.addF a hi lo n).order = s.order := rfl
@[simp] theorem addF_namespaces (s : State) (a hi lo n : Nat) : (s.addF a hi lo n).namespaces = s.namespaces := rfl
@[simp] theorem addF_tenants (s : State) (a hi lo n : Nat) : (s.addF a hi lo n).tenants = s.tenants := rfl
@[simp] theorem addF_leaving (s : State) (a hi lo n : Nat) : (s.addF a hi lo n).leaving = s.leaving := rfl
@[simp] theorem addF_deferred (s : State) (a hi lo n : Nat) : (s.addF a hi lo n).deferred = s.deferred := rfl
@[simp] theorem addF_migs (s : State) (a hi lo n : Nat) : (s.addF a hi lo n).migs = s.migs := rfl
@[simp] theorem addF_slotWaits (s : State) (a hi lo n : Nat) : (s.addF a hi lo n).slotWaits = s.slotWaits := rfl
@[simp] theorem addF_slices (s : State) (a hi lo n : Nat) : (s.addF a hi lo n).slices = s.slices := rfl
@[simp] theorem addF_invocations (s : State) (a hi lo n : Nat) : (s.addF a hi lo n).invocations = s.invocations := rfl
@[simp] theorem addF_nextInv (s : State) (a hi lo n : Nat) : (s.addF a hi lo n).nextInv = s.nextInv := rfl
@[simp] theorem addF_hd (s : State) (a hi lo n : Nat) : (s.addF a hi lo n).hd = s.hd := rfl
@[simp] theorem addF_parks (s : State) (a hi lo n : Nat) : (s.addF a hi lo n).parks = s.parks := rfl
@[simp] theorem addF_hdQueue (s : State) (a hi lo n : Nat) : (s.addF a hi lo n).hdQueue = s.hdQueue := rfl
@[simp] theorem addF_ats (s : State) (a hi lo n : Nat) : (s.addF a hi lo n).ats = s.ats := rfl
@[simp] theorem addF_digests (s : State) (a hi lo n : Nat) : (s.addF a hi lo n).digests = s.digests := rfl
@[simp] theorem addF_digestWaits (s : State) (a hi lo n : Nat) : (s.addF a hi lo n).digestWaits = s.digestWaits := rfl
@[simp] theorem addF_digestOut (s : State) (a hi lo n : Nat) : (s.addF a hi lo n).digestOut = s.digestOut := rfl
@[simp] theorem addF_hubKey (s : State) (a hi lo n : Nat) : (s.addF a hi lo n).hubKey = s.hubKey := rfl
@[simp] theorem addF_meas (s : State) (a hi lo n : Nat) : (s.addF a hi lo n).meas = s.meas := rfl
@[simp] theorem addF_measLog (s : State) (a hi lo n : Nat) : (s.addF a hi lo n).measLog = s.measLog := rfl
@[simp] theorem addF_measSeq (s : State) (a hi lo n : Nat) : (s.addF a hi lo n).measSeq = s.measSeq := rfl
@[simp] theorem addF_staged (s : State) (a hi lo n : Nat) : (s.addF a hi lo n).staged = s.staged := rfl
@[simp] theorem addF_spdmPeers (s : State) (a hi lo n : Nat) : (s.addF a hi lo n).spdmPeers = s.spdmPeers := rfl
@[simp] theorem addF_spdmSessions (s : State) (a hi lo n : Nat) : (s.addF a hi lo n).spdmSessions = s.spdmSessions := rfl
@[simp] theorem addF_spdmOut (s : State) (a hi lo n : Nat) : (s.addF a hi lo n).spdmOut = s.spdmOut := rfl
@[simp] theorem addF_entropyOk (s : State) (a hi lo n : Nat) : (s.addF a hi lo n).entropyOk = s.entropyOk := rfl
@[simp] theorem addF_groupAt (s : State) (a hi lo n : Nat) : (s.addF a hi lo n).groupAt = s.groupAt := rfl
@[simp] theorem addF_groupRecs (s : State) (a hi lo n : Nat) : (s.addF a hi lo n).groupRecs = s.groupRecs := rfl
@[simp] theorem addF_storeHdr (s : State) (a hi lo n : Nat) : (s.addF a hi lo n).storeHdr = s.storeHdr := rfl
@[simp] theorem addF_storeNext (s : State) (a hi lo n : Nat) : (s.addF a hi lo n).storeNext = s.storeNext := rfl
@[simp] theorem addF_wearRateMax (s : State) (a hi lo n : Nat) : (s.addF a hi lo n).wearRateMax = s.wearRateMax := rfl
@[simp] theorem addF_nvm (s : State) (a hi lo n : Nat) : (s.addF a hi lo n).nvm = s.nvm := rfl
@[simp] theorem addF_power (s : State) (a hi lo n : Nat) : (s.addF a hi lo n).power = s.power := rfl
@[simp] theorem addF_start (s : State) (a hi lo n : Nat) : (s.addF a hi lo n).start = s.start := rfl
@[simp] theorem addF_recorder (s : State) (a hi lo n : Nat) : (s.addF a hi lo n).recorder = s.recorder := rfl
@[simp] theorem addF_fences (s : State) (a hi lo n : Nat) : (s.addF a hi lo n).fences = s.fences := rfl
@[simp] theorem addF_fenceCounts (s : State) (a hi lo n : Nat) : (s.addF a hi lo n).fenceCounts = s.fenceCounts := rfl
@[simp] theorem addF_fenceSoon (s : State) (a hi lo n : Nat) : (s.addF a hi lo n).fenceSoon = s.fenceSoon := rfl
@[simp] theorem addF_test (s : State) (a hi lo n : Nat) : (s.addF a hi lo n).test = s.test := rfl
@[simp] theorem addF_unfence (s : State) (a hi lo n : Nat) : (s.addF a hi lo n).unfence = s.unfence := rfl
@[simp] theorem addF_mgmt (s : State) (a hi lo n : Nat) : (s.addF a hi lo n).mgmt = s.mgmt := rfl
@[simp] theorem addF_fresh (s : State) (a hi lo n : Nat) : (s.addF a hi lo n).fresh = s.fresh := rfl
@[simp] theorem addF_pending (s : State) (a hi lo n : Nat) : (s.addF a hi lo n).pending = s.pending := rfl

/-! ### inc -/

@[simp] theorem inc_part (s : State) (a : Nat) : (s.inc a).part = s.part := rfl
@[simp] theorem inc_pins (s : State) (a : Nat) : (s.inc a).pins = s.pins := rfl
@[simp] theorem inc_latches (s : State) (a : Nat) : (s.inc a).latches = s.latches := rfl
@[simp] theorem inc_busRead (s : State) (a : Nat) : (s.inc a).busRead = s.busRead := rfl
@[simp] theorem inc_course (s : State) (a : Nat) : (s.inc a).course = s.course := rfl
@[simp] theorem inc_dual (s : State) (a : Nat) : (s.inc a).dual = s.dual := rfl
@[simp] theorem inc_links (s : State) (a : Nat) : (s.inc a).links = s.links := rfl
@[simp] theorem inc_ctrls (s : State) (a : Nat) : (s.inc a).ctrls = s.ctrls := rfl
@[simp] theorem inc_inflight (s : State) (a : Nat) : (s.inc a).inflight = s.inflight := rfl
@[simp] theorem inc_order (s : State) (a : Nat) : (s.inc a).order = s.order := rfl
@[simp] theorem inc_namespaces (s : State) (a : Nat) : (s.inc a).namespaces = s.namespaces := rfl
@[simp] theorem inc_tenants (s : State) (a : Nat) : (s.inc a).tenants = s.tenants := rfl
@[simp] theorem inc_leaving (s : State) (a : Nat) : (s.inc a).leaving = s.leaving := rfl
@[simp] theorem inc_deferred (s : State) (a : Nat) : (s.inc a).deferred = s.deferred := rfl
@[simp] theorem inc_migs (s : State) (a : Nat) : (s.inc a).migs = s.migs := rfl
@[simp] theorem inc_slotWaits (s : State) (a : Nat) : (s.inc a).slotWaits = s.slotWaits := rfl
@[simp] theorem inc_slices (s : State) (a : Nat) : (s.inc a).slices = s.slices := rfl
@[simp] theorem inc_invocations (s : State) (a : Nat) : (s.inc a).invocations = s.invocations := rfl
@[simp] theorem inc_nextInv (s : State) (a : Nat) : (s.inc a).nextInv = s.nextInv := rfl
@[simp] theorem inc_hd (s : State) (a : Nat) : (s.inc a).hd = s.hd := rfl
@[simp] theorem inc_parks (s : State) (a : Nat) : (s.inc a).parks = s.parks := rfl
@[simp] theorem inc_hdQueue (s : State) (a : Nat) : (s.inc a).hdQueue = s.hdQueue := rfl
@[simp] theorem inc_ats (s : State) (a : Nat) : (s.inc a).ats = s.ats := rfl
@[simp] theorem inc_digests (s : State) (a : Nat) : (s.inc a).digests = s.digests := rfl
@[simp] theorem inc_digestWaits (s : State) (a : Nat) : (s.inc a).digestWaits = s.digestWaits := rfl
@[simp] theorem inc_digestOut (s : State) (a : Nat) : (s.inc a).digestOut = s.digestOut := rfl
@[simp] theorem inc_hubKey (s : State) (a : Nat) : (s.inc a).hubKey = s.hubKey := rfl
@[simp] theorem inc_meas (s : State) (a : Nat) : (s.inc a).meas = s.meas := rfl
@[simp] theorem inc_measLog (s : State) (a : Nat) : (s.inc a).measLog = s.measLog := rfl
@[simp] theorem inc_measSeq (s : State) (a : Nat) : (s.inc a).measSeq = s.measSeq := rfl
@[simp] theorem inc_staged (s : State) (a : Nat) : (s.inc a).staged = s.staged := rfl
@[simp] theorem inc_spdmPeers (s : State) (a : Nat) : (s.inc a).spdmPeers = s.spdmPeers := rfl
@[simp] theorem inc_spdmSessions (s : State) (a : Nat) : (s.inc a).spdmSessions = s.spdmSessions := rfl
@[simp] theorem inc_spdmOut (s : State) (a : Nat) : (s.inc a).spdmOut = s.spdmOut := rfl
@[simp] theorem inc_entropyOk (s : State) (a : Nat) : (s.inc a).entropyOk = s.entropyOk := rfl
@[simp] theorem inc_groupAt (s : State) (a : Nat) : (s.inc a).groupAt = s.groupAt := rfl
@[simp] theorem inc_groupRecs (s : State) (a : Nat) : (s.inc a).groupRecs = s.groupRecs := rfl
@[simp] theorem inc_storeHdr (s : State) (a : Nat) : (s.inc a).storeHdr = s.storeHdr := rfl
@[simp] theorem inc_storeNext (s : State) (a : Nat) : (s.inc a).storeNext = s.storeNext := rfl
@[simp] theorem inc_wearRateMax (s : State) (a : Nat) : (s.inc a).wearRateMax = s.wearRateMax := rfl
@[simp] theorem inc_nvm (s : State) (a : Nat) : (s.inc a).nvm = s.nvm := rfl
@[simp] theorem inc_power (s : State) (a : Nat) : (s.inc a).power = s.power := rfl
@[simp] theorem inc_start (s : State) (a : Nat) : (s.inc a).start = s.start := rfl
@[simp] theorem inc_recorder (s : State) (a : Nat) : (s.inc a).recorder = s.recorder := rfl
@[simp] theorem inc_fences (s : State) (a : Nat) : (s.inc a).fences = s.fences := rfl
@[simp] theorem inc_fenceCounts (s : State) (a : Nat) : (s.inc a).fenceCounts = s.fenceCounts := rfl
@[simp] theorem inc_fenceSoon (s : State) (a : Nat) : (s.inc a).fenceSoon = s.fenceSoon := rfl
@[simp] theorem inc_test (s : State) (a : Nat) : (s.inc a).test = s.test := rfl
@[simp] theorem inc_unfence (s : State) (a : Nat) : (s.inc a).unfence = s.unfence := rfl
@[simp] theorem inc_mgmt (s : State) (a : Nat) : (s.inc a).mgmt = s.mgmt := rfl
@[simp] theorem inc_fresh (s : State) (a : Nat) : (s.inc a).fresh = s.fresh := rfl
@[simp] theorem inc_pending (s : State) (a : Nat) : (s.inc a).pending = s.pending := rfl

/-! ### wr64 -/

@[simp] theorem wr64_part (s : State) (a v : Nat) : (s.wr64 a v).part = s.part := rfl
@[simp] theorem wr64_pins (s : State) (a v : Nat) : (s.wr64 a v).pins = s.pins := rfl
@[simp] theorem wr64_latches (s : State) (a v : Nat) : (s.wr64 a v).latches = s.latches := rfl
@[simp] theorem wr64_busRead (s : State) (a v : Nat) : (s.wr64 a v).busRead = s.busRead := rfl
@[simp] theorem wr64_course (s : State) (a v : Nat) : (s.wr64 a v).course = s.course := rfl
@[simp] theorem wr64_dual (s : State) (a v : Nat) : (s.wr64 a v).dual = s.dual := rfl
@[simp] theorem wr64_links (s : State) (a v : Nat) : (s.wr64 a v).links = s.links := rfl
@[simp] theorem wr64_ctrls (s : State) (a v : Nat) : (s.wr64 a v).ctrls = s.ctrls := rfl
@[simp] theorem wr64_inflight (s : State) (a v : Nat) : (s.wr64 a v).inflight = s.inflight := rfl
@[simp] theorem wr64_order (s : State) (a v : Nat) : (s.wr64 a v).order = s.order := rfl
@[simp] theorem wr64_namespaces (s : State) (a v : Nat) : (s.wr64 a v).namespaces = s.namespaces := rfl
@[simp] theorem wr64_tenants (s : State) (a v : Nat) : (s.wr64 a v).tenants = s.tenants := rfl
@[simp] theorem wr64_leaving (s : State) (a v : Nat) : (s.wr64 a v).leaving = s.leaving := rfl
@[simp] theorem wr64_deferred (s : State) (a v : Nat) : (s.wr64 a v).deferred = s.deferred := rfl
@[simp] theorem wr64_migs (s : State) (a v : Nat) : (s.wr64 a v).migs = s.migs := rfl
@[simp] theorem wr64_slotWaits (s : State) (a v : Nat) : (s.wr64 a v).slotWaits = s.slotWaits := rfl
@[simp] theorem wr64_slices (s : State) (a v : Nat) : (s.wr64 a v).slices = s.slices := rfl
@[simp] theorem wr64_invocations (s : State) (a v : Nat) : (s.wr64 a v).invocations = s.invocations := rfl
@[simp] theorem wr64_nextInv (s : State) (a v : Nat) : (s.wr64 a v).nextInv = s.nextInv := rfl
@[simp] theorem wr64_hd (s : State) (a v : Nat) : (s.wr64 a v).hd = s.hd := rfl
@[simp] theorem wr64_parks (s : State) (a v : Nat) : (s.wr64 a v).parks = s.parks := rfl
@[simp] theorem wr64_hdQueue (s : State) (a v : Nat) : (s.wr64 a v).hdQueue = s.hdQueue := rfl
@[simp] theorem wr64_ats (s : State) (a v : Nat) : (s.wr64 a v).ats = s.ats := rfl
@[simp] theorem wr64_digests (s : State) (a v : Nat) : (s.wr64 a v).digests = s.digests := rfl
@[simp] theorem wr64_digestWaits (s : State) (a v : Nat) : (s.wr64 a v).digestWaits = s.digestWaits := rfl
@[simp] theorem wr64_digestOut (s : State) (a v : Nat) : (s.wr64 a v).digestOut = s.digestOut := rfl
@[simp] theorem wr64_hubKey (s : State) (a v : Nat) : (s.wr64 a v).hubKey = s.hubKey := rfl
@[simp] theorem wr64_meas (s : State) (a v : Nat) : (s.wr64 a v).meas = s.meas := rfl
@[simp] theorem wr64_measLog (s : State) (a v : Nat) : (s.wr64 a v).measLog = s.measLog := rfl
@[simp] theorem wr64_measSeq (s : State) (a v : Nat) : (s.wr64 a v).measSeq = s.measSeq := rfl
@[simp] theorem wr64_staged (s : State) (a v : Nat) : (s.wr64 a v).staged = s.staged := rfl
@[simp] theorem wr64_spdmPeers (s : State) (a v : Nat) : (s.wr64 a v).spdmPeers = s.spdmPeers := rfl
@[simp] theorem wr64_spdmSessions (s : State) (a v : Nat) : (s.wr64 a v).spdmSessions = s.spdmSessions := rfl
@[simp] theorem wr64_spdmOut (s : State) (a v : Nat) : (s.wr64 a v).spdmOut = s.spdmOut := rfl
@[simp] theorem wr64_entropyOk (s : State) (a v : Nat) : (s.wr64 a v).entropyOk = s.entropyOk := rfl
@[simp] theorem wr64_groupAt (s : State) (a v : Nat) : (s.wr64 a v).groupAt = s.groupAt := rfl
@[simp] theorem wr64_groupRecs (s : State) (a v : Nat) : (s.wr64 a v).groupRecs = s.groupRecs := rfl
@[simp] theorem wr64_storeHdr (s : State) (a v : Nat) : (s.wr64 a v).storeHdr = s.storeHdr := rfl
@[simp] theorem wr64_storeNext (s : State) (a v : Nat) : (s.wr64 a v).storeNext = s.storeNext := rfl
@[simp] theorem wr64_wearRateMax (s : State) (a v : Nat) : (s.wr64 a v).wearRateMax = s.wearRateMax := rfl
@[simp] theorem wr64_nvm (s : State) (a v : Nat) : (s.wr64 a v).nvm = s.nvm := rfl
@[simp] theorem wr64_power (s : State) (a v : Nat) : (s.wr64 a v).power = s.power := rfl
@[simp] theorem wr64_start (s : State) (a v : Nat) : (s.wr64 a v).start = s.start := rfl
@[simp] theorem wr64_recorder (s : State) (a v : Nat) : (s.wr64 a v).recorder = s.recorder := rfl
@[simp] theorem wr64_fences (s : State) (a v : Nat) : (s.wr64 a v).fences = s.fences := rfl
@[simp] theorem wr64_fenceCounts (s : State) (a v : Nat) : (s.wr64 a v).fenceCounts = s.fenceCounts := rfl
@[simp] theorem wr64_fenceSoon (s : State) (a v : Nat) : (s.wr64 a v).fenceSoon = s.fenceSoon := rfl
@[simp] theorem wr64_test (s : State) (a v : Nat) : (s.wr64 a v).test = s.test := rfl
@[simp] theorem wr64_unfence (s : State) (a v : Nat) : (s.wr64 a v).unfence = s.unfence := rfl
@[simp] theorem wr64_mgmt (s : State) (a v : Nat) : (s.wr64 a v).mgmt = s.mgmt := rfl
@[simp] theorem wr64_fresh (s : State) (a v : Nat) : (s.wr64 a v).fresh = s.fresh := rfl
@[simp] theorem wr64_pending (s : State) (a v : Nat) : (s.wr64 a v).pending = s.pending := rfl

/-! ### wrQ -/

@[simp] theorem wrQ_part (s : State) (a : Nat) (v : Int) : (s.wrQ a v).part = s.part := rfl
@[simp] theorem wrQ_pins (s : State) (a : Nat) (v : Int) : (s.wrQ a v).pins = s.pins := rfl
@[simp] theorem wrQ_latches (s : State) (a : Nat) (v : Int) : (s.wrQ a v).latches = s.latches := rfl
@[simp] theorem wrQ_busRead (s : State) (a : Nat) (v : Int) : (s.wrQ a v).busRead = s.busRead := rfl
@[simp] theorem wrQ_course (s : State) (a : Nat) (v : Int) : (s.wrQ a v).course = s.course := rfl
@[simp] theorem wrQ_dual (s : State) (a : Nat) (v : Int) : (s.wrQ a v).dual = s.dual := rfl
@[simp] theorem wrQ_links (s : State) (a : Nat) (v : Int) : (s.wrQ a v).links = s.links := rfl
@[simp] theorem wrQ_ctrls (s : State) (a : Nat) (v : Int) : (s.wrQ a v).ctrls = s.ctrls := rfl
@[simp] theorem wrQ_inflight (s : State) (a : Nat) (v : Int) : (s.wrQ a v).inflight = s.inflight := rfl
@[simp] theorem wrQ_order (s : State) (a : Nat) (v : Int) : (s.wrQ a v).order = s.order := rfl
@[simp] theorem wrQ_namespaces (s : State) (a : Nat) (v : Int) : (s.wrQ a v).namespaces = s.namespaces := rfl
@[simp] theorem wrQ_tenants (s : State) (a : Nat) (v : Int) : (s.wrQ a v).tenants = s.tenants := rfl
@[simp] theorem wrQ_leaving (s : State) (a : Nat) (v : Int) : (s.wrQ a v).leaving = s.leaving := rfl
@[simp] theorem wrQ_deferred (s : State) (a : Nat) (v : Int) : (s.wrQ a v).deferred = s.deferred := rfl
@[simp] theorem wrQ_migs (s : State) (a : Nat) (v : Int) : (s.wrQ a v).migs = s.migs := rfl
@[simp] theorem wrQ_slotWaits (s : State) (a : Nat) (v : Int) : (s.wrQ a v).slotWaits = s.slotWaits := rfl
@[simp] theorem wrQ_slices (s : State) (a : Nat) (v : Int) : (s.wrQ a v).slices = s.slices := rfl
@[simp] theorem wrQ_invocations (s : State) (a : Nat) (v : Int) : (s.wrQ a v).invocations = s.invocations := rfl
@[simp] theorem wrQ_nextInv (s : State) (a : Nat) (v : Int) : (s.wrQ a v).nextInv = s.nextInv := rfl
@[simp] theorem wrQ_hd (s : State) (a : Nat) (v : Int) : (s.wrQ a v).hd = s.hd := rfl
@[simp] theorem wrQ_parks (s : State) (a : Nat) (v : Int) : (s.wrQ a v).parks = s.parks := rfl
@[simp] theorem wrQ_hdQueue (s : State) (a : Nat) (v : Int) : (s.wrQ a v).hdQueue = s.hdQueue := rfl
@[simp] theorem wrQ_ats (s : State) (a : Nat) (v : Int) : (s.wrQ a v).ats = s.ats := rfl
@[simp] theorem wrQ_digests (s : State) (a : Nat) (v : Int) : (s.wrQ a v).digests = s.digests := rfl
@[simp] theorem wrQ_digestWaits (s : State) (a : Nat) (v : Int) : (s.wrQ a v).digestWaits = s.digestWaits := rfl
@[simp] theorem wrQ_digestOut (s : State) (a : Nat) (v : Int) : (s.wrQ a v).digestOut = s.digestOut := rfl
@[simp] theorem wrQ_hubKey (s : State) (a : Nat) (v : Int) : (s.wrQ a v).hubKey = s.hubKey := rfl
@[simp] theorem wrQ_meas (s : State) (a : Nat) (v : Int) : (s.wrQ a v).meas = s.meas := rfl
@[simp] theorem wrQ_measLog (s : State) (a : Nat) (v : Int) : (s.wrQ a v).measLog = s.measLog := rfl
@[simp] theorem wrQ_measSeq (s : State) (a : Nat) (v : Int) : (s.wrQ a v).measSeq = s.measSeq := rfl
@[simp] theorem wrQ_staged (s : State) (a : Nat) (v : Int) : (s.wrQ a v).staged = s.staged := rfl
@[simp] theorem wrQ_spdmPeers (s : State) (a : Nat) (v : Int) : (s.wrQ a v).spdmPeers = s.spdmPeers := rfl
@[simp] theorem wrQ_spdmSessions (s : State) (a : Nat) (v : Int) : (s.wrQ a v).spdmSessions = s.spdmSessions := rfl
@[simp] theorem wrQ_spdmOut (s : State) (a : Nat) (v : Int) : (s.wrQ a v).spdmOut = s.spdmOut := rfl
@[simp] theorem wrQ_entropyOk (s : State) (a : Nat) (v : Int) : (s.wrQ a v).entropyOk = s.entropyOk := rfl
@[simp] theorem wrQ_groupAt (s : State) (a : Nat) (v : Int) : (s.wrQ a v).groupAt = s.groupAt := rfl
@[simp] theorem wrQ_groupRecs (s : State) (a : Nat) (v : Int) : (s.wrQ a v).groupRecs = s.groupRecs := rfl
@[simp] theorem wrQ_storeHdr (s : State) (a : Nat) (v : Int) : (s.wrQ a v).storeHdr = s.storeHdr := rfl
@[simp] theorem wrQ_storeNext (s : State) (a : Nat) (v : Int) : (s.wrQ a v).storeNext = s.storeNext := rfl
@[simp] theorem wrQ_wearRateMax (s : State) (a : Nat) (v : Int) : (s.wrQ a v).wearRateMax = s.wearRateMax := rfl
@[simp] theorem wrQ_nvm (s : State) (a : Nat) (v : Int) : (s.wrQ a v).nvm = s.nvm := rfl
@[simp] theorem wrQ_power (s : State) (a : Nat) (v : Int) : (s.wrQ a v).power = s.power := rfl
@[simp] theorem wrQ_start (s : State) (a : Nat) (v : Int) : (s.wrQ a v).start = s.start := rfl
@[simp] theorem wrQ_recorder (s : State) (a : Nat) (v : Int) : (s.wrQ a v).recorder = s.recorder := rfl
@[simp] theorem wrQ_fences (s : State) (a : Nat) (v : Int) : (s.wrQ a v).fences = s.fences := rfl
@[simp] theorem wrQ_fenceCounts (s : State) (a : Nat) (v : Int) : (s.wrQ a v).fenceCounts = s.fenceCounts := rfl
@[simp] theorem wrQ_fenceSoon (s : State) (a : Nat) (v : Int) : (s.wrQ a v).fenceSoon = s.fenceSoon := rfl
@[simp] theorem wrQ_test (s : State) (a : Nat) (v : Int) : (s.wrQ a v).test = s.test := rfl
@[simp] theorem wrQ_unfence (s : State) (a : Nat) (v : Int) : (s.wrQ a v).unfence = s.unfence := rfl
@[simp] theorem wrQ_mgmt (s : State) (a : Nat) (v : Int) : (s.wrQ a v).mgmt = s.mgmt := rfl
@[simp] theorem wrQ_fresh (s : State) (a : Nat) (v : Int) : (s.wrQ a v).fresh = s.fresh := rfl
@[simp] theorem wrQ_pending (s : State) (a : Nat) (v : Int) : (s.wrQ a v).pending = s.pending := rfl

/-! ### modSlice -/

@[simp] theorem modSlice_part (s : State) (n : Nat) (f : Slice → Slice) : (s.modSlice n f).part = s.part := rfl
@[simp] theorem modSlice_pins (s : State) (n : Nat) (f : Slice → Slice) : (s.modSlice n f).pins = s.pins := rfl
@[simp] theorem modSlice_regs (s : State) (n : Nat) (f : Slice → Slice) : (s.modSlice n f).regs = s.regs := rfl
@[simp] theorem modSlice_latches (s : State) (n : Nat) (f : Slice → Slice) : (s.modSlice n f).latches = s.latches := rfl
@[simp] theorem modSlice_busRead (s : State) (n : Nat) (f : Slice → Slice) : (s.modSlice n f).busRead = s.busRead := rfl
@[simp] theorem modSlice_course (s : State) (n : Nat) (f : Slice → Slice) : (s.modSlice n f).course = s.course := rfl
@[simp] theorem modSlice_dual (s : State) (n : Nat) (f : Slice → Slice) : (s.modSlice n f).dual = s.dual := rfl
@[simp] theorem modSlice_links (s : State) (n : Nat) (f : Slice → Slice) : (s.modSlice n f).links = s.links := rfl
@[simp] theorem modSlice_ctrls (s : State) (n : Nat) (f : Slice → Slice) : (s.modSlice n f).ctrls = s.ctrls := rfl
@[simp] theorem modSlice_inflight (s : State) (n : Nat) (f : Slice → Slice) : (s.modSlice n f).inflight = s.inflight := rfl
@[simp] theorem modSlice_order (s : State) (n : Nat) (f : Slice → Slice) : (s.modSlice n f).order = s.order := rfl
@[simp] theorem modSlice_namespaces (s : State) (n : Nat) (f : Slice → Slice) : (s.modSlice n f).namespaces = s.namespaces := rfl
@[simp] theorem modSlice_tenants (s : State) (n : Nat) (f : Slice → Slice) : (s.modSlice n f).tenants = s.tenants := rfl
@[simp] theorem modSlice_leaving (s : State) (n : Nat) (f : Slice → Slice) : (s.modSlice n f).leaving = s.leaving := rfl
@[simp] theorem modSlice_deferred (s : State) (n : Nat) (f : Slice → Slice) : (s.modSlice n f).deferred = s.deferred := rfl
@[simp] theorem modSlice_migs (s : State) (n : Nat) (f : Slice → Slice) : (s.modSlice n f).migs = s.migs := rfl
@[simp] theorem modSlice_slotWaits (s : State) (n : Nat) (f : Slice → Slice) : (s.modSlice n f).slotWaits = s.slotWaits := rfl
@[simp] theorem modSlice_slices (s : State) (n : Nat) (f : Slice → Slice) : (s.modSlice n f).slices = modAt s.slices n f := rfl
@[simp] theorem modSlice_invocations (s : State) (n : Nat) (f : Slice → Slice) : (s.modSlice n f).invocations = s.invocations := rfl
@[simp] theorem modSlice_nextInv (s : State) (n : Nat) (f : Slice → Slice) : (s.modSlice n f).nextInv = s.nextInv := rfl
@[simp] theorem modSlice_hd (s : State) (n : Nat) (f : Slice → Slice) : (s.modSlice n f).hd = s.hd := rfl
@[simp] theorem modSlice_parks (s : State) (n : Nat) (f : Slice → Slice) : (s.modSlice n f).parks = s.parks := rfl
@[simp] theorem modSlice_hdQueue (s : State) (n : Nat) (f : Slice → Slice) : (s.modSlice n f).hdQueue = s.hdQueue := rfl
@[simp] theorem modSlice_ats (s : State) (n : Nat) (f : Slice → Slice) : (s.modSlice n f).ats = s.ats := rfl
@[simp] theorem modSlice_digests (s : State) (n : Nat) (f : Slice → Slice) : (s.modSlice n f).digests = s.digests := rfl
@[simp] theorem modSlice_digestWaits (s : State) (n : Nat) (f : Slice → Slice) : (s.modSlice n f).digestWaits = s.digestWaits := rfl
@[simp] theorem modSlice_digestOut (s : State) (n : Nat) (f : Slice → Slice) : (s.modSlice n f).digestOut = s.digestOut := rfl
@[simp] theorem modSlice_hubKey (s : State) (n : Nat) (f : Slice → Slice) : (s.modSlice n f).hubKey = s.hubKey := rfl
@[simp] theorem modSlice_meas (s : State) (n : Nat) (f : Slice → Slice) : (s.modSlice n f).meas = s.meas := rfl
@[simp] theorem modSlice_measLog (s : State) (n : Nat) (f : Slice → Slice) : (s.modSlice n f).measLog = s.measLog := rfl
@[simp] theorem modSlice_measSeq (s : State) (n : Nat) (f : Slice → Slice) : (s.modSlice n f).measSeq = s.measSeq := rfl
@[simp] theorem modSlice_staged (s : State) (n : Nat) (f : Slice → Slice) : (s.modSlice n f).staged = s.staged := rfl
@[simp] theorem modSlice_spdmPeers (s : State) (n : Nat) (f : Slice → Slice) : (s.modSlice n f).spdmPeers = s.spdmPeers := rfl
@[simp] theorem modSlice_spdmSessions (s : State) (n : Nat) (f : Slice → Slice) : (s.modSlice n f).spdmSessions = s.spdmSessions := rfl
@[simp] theorem modSlice_spdmOut (s : State) (n : Nat) (f : Slice → Slice) : (s.modSlice n f).spdmOut = s.spdmOut := rfl
@[simp] theorem modSlice_entropyOk (s : State) (n : Nat) (f : Slice → Slice) : (s.modSlice n f).entropyOk = s.entropyOk := rfl
@[simp] theorem modSlice_groupAt (s : State) (n : Nat) (f : Slice → Slice) : (s.modSlice n f).groupAt = s.groupAt := rfl
@[simp] theorem modSlice_groupRecs (s : State) (n : Nat) (f : Slice → Slice) : (s.modSlice n f).groupRecs = s.groupRecs := rfl
@[simp] theorem modSlice_storeHdr (s : State) (n : Nat) (f : Slice → Slice) : (s.modSlice n f).storeHdr = s.storeHdr := rfl
@[simp] theorem modSlice_storeNext (s : State) (n : Nat) (f : Slice → Slice) : (s.modSlice n f).storeNext = s.storeNext := rfl
@[simp] theorem modSlice_wearRateMax (s : State) (n : Nat) (f : Slice → Slice) : (s.modSlice n f).wearRateMax = s.wearRateMax := rfl
@[simp] theorem modSlice_nvm (s : State) (n : Nat) (f : Slice → Slice) : (s.modSlice n f).nvm = s.nvm := rfl
@[simp] theorem modSlice_power (s : State) (n : Nat) (f : Slice → Slice) : (s.modSlice n f).power = s.power := rfl
@[simp] theorem modSlice_start (s : State) (n : Nat) (f : Slice → Slice) : (s.modSlice n f).start = s.start := rfl
@[simp] theorem modSlice_recorder (s : State) (n : Nat) (f : Slice → Slice) : (s.modSlice n f).recorder = s.recorder := rfl
@[simp] theorem modSlice_fences (s : State) (n : Nat) (f : Slice → Slice) : (s.modSlice n f).fences = s.fences := rfl
@[simp] theorem modSlice_fenceCounts (s : State) (n : Nat) (f : Slice → Slice) : (s.modSlice n f).fenceCounts = s.fenceCounts := rfl
@[simp] theorem modSlice_fenceSoon (s : State) (n : Nat) (f : Slice → Slice) : (s.modSlice n f).fenceSoon = s.fenceSoon := rfl
@[simp] theorem modSlice_test (s : State) (n : Nat) (f : Slice → Slice) : (s.modSlice n f).test = s.test := rfl
@[simp] theorem modSlice_unfence (s : State) (n : Nat) (f : Slice → Slice) : (s.modSlice n f).unfence = s.unfence := rfl
@[simp] theorem modSlice_mgmt (s : State) (n : Nat) (f : Slice → Slice) : (s.modSlice n f).mgmt = s.mgmt := rfl
@[simp] theorem modSlice_fresh (s : State) (n : Nat) (f : Slice → Slice) : (s.modSlice n f).fresh = s.fresh := rfl
@[simp] theorem modSlice_pending (s : State) (n : Nat) (f : Slice → Slice) : (s.modSlice n f).pending = s.pending := rfl

/-! ### mapSlices -/

@[simp] theorem mapSlices_part (s : State) (f : Slice → Slice) : (s.mapSlices f).part = s.part := rfl
@[simp] theorem mapSlices_pins (s : State) (f : Slice → Slice) : (s.mapSlices f).pins = s.pins := rfl
@[simp] theorem mapSlices_regs (s : State) (f : Slice → Slice) : (s.mapSlices f).regs = s.regs := rfl
@[simp] theorem mapSlices_latches (s : State) (f : Slice → Slice) : (s.mapSlices f).latches = s.latches := rfl
@[simp] theorem mapSlices_busRead (s : State) (f : Slice → Slice) : (s.mapSlices f).busRead = s.busRead := rfl
@[simp] theorem mapSlices_course (s : State) (f : Slice → Slice) : (s.mapSlices f).course = s.course := rfl
@[simp] theorem mapSlices_dual (s : State) (f : Slice → Slice) : (s.mapSlices f).dual = s.dual := rfl
@[simp] theorem mapSlices_links (s : State) (f : Slice → Slice) : (s.mapSlices f).links = s.links := rfl
@[simp] theorem mapSlices_ctrls (s : State) (f : Slice → Slice) : (s.mapSlices f).ctrls = s.ctrls := rfl
@[simp] theorem mapSlices_inflight (s : State) (f : Slice → Slice) : (s.mapSlices f).inflight = s.inflight := rfl
@[simp] theorem mapSlices_order (s : State) (f : Slice → Slice) : (s.mapSlices f).order = s.order := rfl
@[simp] theorem mapSlices_namespaces (s : State) (f : Slice → Slice) : (s.mapSlices f).namespaces = s.namespaces := rfl
@[simp] theorem mapSlices_tenants (s : State) (f : Slice → Slice) : (s.mapSlices f).tenants = s.tenants := rfl
@[simp] theorem mapSlices_leaving (s : State) (f : Slice → Slice) : (s.mapSlices f).leaving = s.leaving := rfl
@[simp] theorem mapSlices_deferred (s : State) (f : Slice → Slice) : (s.mapSlices f).deferred = s.deferred := rfl
@[simp] theorem mapSlices_migs (s : State) (f : Slice → Slice) : (s.mapSlices f).migs = s.migs := rfl
@[simp] theorem mapSlices_slotWaits (s : State) (f : Slice → Slice) : (s.mapSlices f).slotWaits = s.slotWaits := rfl
@[simp] theorem mapSlices_slices (s : State) (f : Slice → Slice) : (s.mapSlices f).slices = s.slices.map f := rfl
@[simp] theorem mapSlices_invocations (s : State) (f : Slice → Slice) : (s.mapSlices f).invocations = s.invocations := rfl
@[simp] theorem mapSlices_nextInv (s : State) (f : Slice → Slice) : (s.mapSlices f).nextInv = s.nextInv := rfl
@[simp] theorem mapSlices_hd (s : State) (f : Slice → Slice) : (s.mapSlices f).hd = s.hd := rfl
@[simp] theorem mapSlices_parks (s : State) (f : Slice → Slice) : (s.mapSlices f).parks = s.parks := rfl
@[simp] theorem mapSlices_hdQueue (s : State) (f : Slice → Slice) : (s.mapSlices f).hdQueue = s.hdQueue := rfl
@[simp] theorem mapSlices_ats (s : State) (f : Slice → Slice) : (s.mapSlices f).ats = s.ats := rfl
@[simp] theorem mapSlices_digests (s : State) (f : Slice → Slice) : (s.mapSlices f).digests = s.digests := rfl
@[simp] theorem mapSlices_digestWaits (s : State) (f : Slice → Slice) : (s.mapSlices f).digestWaits = s.digestWaits := rfl
@[simp] theorem mapSlices_digestOut (s : State) (f : Slice → Slice) : (s.mapSlices f).digestOut = s.digestOut := rfl
@[simp] theorem mapSlices_hubKey (s : State) (f : Slice → Slice) : (s.mapSlices f).hubKey = s.hubKey := rfl
@[simp] theorem mapSlices_meas (s : State) (f : Slice → Slice) : (s.mapSlices f).meas = s.meas := rfl
@[simp] theorem mapSlices_measLog (s : State) (f : Slice → Slice) : (s.mapSlices f).measLog = s.measLog := rfl
@[simp] theorem mapSlices_measSeq (s : State) (f : Slice → Slice) : (s.mapSlices f).measSeq = s.measSeq := rfl
@[simp] theorem mapSlices_staged (s : State) (f : Slice → Slice) : (s.mapSlices f).staged = s.staged := rfl
@[simp] theorem mapSlices_spdmPeers (s : State) (f : Slice → Slice) : (s.mapSlices f).spdmPeers = s.spdmPeers := rfl
@[simp] theorem mapSlices_spdmSessions (s : State) (f : Slice → Slice) : (s.mapSlices f).spdmSessions = s.spdmSessions := rfl
@[simp] theorem mapSlices_spdmOut (s : State) (f : Slice → Slice) : (s.mapSlices f).spdmOut = s.spdmOut := rfl
@[simp] theorem mapSlices_entropyOk (s : State) (f : Slice → Slice) : (s.mapSlices f).entropyOk = s.entropyOk := rfl
@[simp] theorem mapSlices_groupAt (s : State) (f : Slice → Slice) : (s.mapSlices f).groupAt = s.groupAt := rfl
@[simp] theorem mapSlices_groupRecs (s : State) (f : Slice → Slice) : (s.mapSlices f).groupRecs = s.groupRecs := rfl
@[simp] theorem mapSlices_storeHdr (s : State) (f : Slice → Slice) : (s.mapSlices f).storeHdr = s.storeHdr := rfl
@[simp] theorem mapSlices_storeNext (s : State) (f : Slice → Slice) : (s.mapSlices f).storeNext = s.storeNext := rfl
@[simp] theorem mapSlices_wearRateMax (s : State) (f : Slice → Slice) : (s.mapSlices f).wearRateMax = s.wearRateMax := rfl
@[simp] theorem mapSlices_nvm (s : State) (f : Slice → Slice) : (s.mapSlices f).nvm = s.nvm := rfl
@[simp] theorem mapSlices_power (s : State) (f : Slice → Slice) : (s.mapSlices f).power = s.power := rfl
@[simp] theorem mapSlices_start (s : State) (f : Slice → Slice) : (s.mapSlices f).start = s.start := rfl
@[simp] theorem mapSlices_recorder (s : State) (f : Slice → Slice) : (s.mapSlices f).recorder = s.recorder := rfl
@[simp] theorem mapSlices_fences (s : State) (f : Slice → Slice) : (s.mapSlices f).fences = s.fences := rfl
@[simp] theorem mapSlices_fenceCounts (s : State) (f : Slice → Slice) : (s.mapSlices f).fenceCounts = s.fenceCounts := rfl
@[simp] theorem mapSlices_fenceSoon (s : State) (f : Slice → Slice) : (s.mapSlices f).fenceSoon = s.fenceSoon := rfl
@[simp] theorem mapSlices_test (s : State) (f : Slice → Slice) : (s.mapSlices f).test = s.test := rfl
@[simp] theorem mapSlices_unfence (s : State) (f : Slice → Slice) : (s.mapSlices f).unfence = s.unfence := rfl
@[simp] theorem mapSlices_mgmt (s : State) (f : Slice → Slice) : (s.mapSlices f).mgmt = s.mgmt := rfl
@[simp] theorem mapSlices_fresh (s : State) (f : Slice → Slice) : (s.mapSlices f).fresh = s.fresh := rfl
@[simp] theorem mapSlices_pending (s : State) (f : Slice → Slice) : (s.mapSlices f).pending = s.pending := rfl

/-! ### mapNs -/

@[simp] theorem mapNs_part (s : State) (f : Namespace → Namespace) : (s.mapNs f).part = s.part := rfl
@[simp] theorem mapNs_pins (s : State) (f : Namespace → Namespace) : (s.mapNs f).pins = s.pins := rfl
@[simp] theorem mapNs_regs (s : State) (f : Namespace → Namespace) : (s.mapNs f).regs = s.regs := rfl
@[simp] theorem mapNs_latches (s : State) (f : Namespace → Namespace) : (s.mapNs f).latches = s.latches := rfl
@[simp] theorem mapNs_busRead (s : State) (f : Namespace → Namespace) : (s.mapNs f).busRead = s.busRead := rfl
@[simp] theorem mapNs_course (s : State) (f : Namespace → Namespace) : (s.mapNs f).course = s.course := rfl
@[simp] theorem mapNs_dual (s : State) (f : Namespace → Namespace) : (s.mapNs f).dual = s.dual := rfl
@[simp] theorem mapNs_links (s : State) (f : Namespace → Namespace) : (s.mapNs f).links = s.links := rfl
@[simp] theorem mapNs_ctrls (s : State) (f : Namespace → Namespace) : (s.mapNs f).ctrls = s.ctrls := rfl
@[simp] theorem mapNs_inflight (s : State) (f : Namespace → Namespace) : (s.mapNs f).inflight = s.inflight := rfl
@[simp] theorem mapNs_order (s : State) (f : Namespace → Namespace) : (s.mapNs f).order = s.order := rfl
@[simp] theorem mapNs_namespaces (s : State) (f : Namespace → Namespace) : (s.mapNs f).namespaces = s.namespaces.map f := rfl
@[simp] theorem mapNs_tenants (s : State) (f : Namespace → Namespace) : (s.mapNs f).tenants = s.tenants := rfl
@[simp] theorem mapNs_leaving (s : State) (f : Namespace → Namespace) : (s.mapNs f).leaving = s.leaving := rfl
@[simp] theorem mapNs_deferred (s : State) (f : Namespace → Namespace) : (s.mapNs f).deferred = s.deferred := rfl
@[simp] theorem mapNs_migs (s : State) (f : Namespace → Namespace) : (s.mapNs f).migs = s.migs := rfl
@[simp] theorem mapNs_slotWaits (s : State) (f : Namespace → Namespace) : (s.mapNs f).slotWaits = s.slotWaits := rfl
@[simp] theorem mapNs_slices (s : State) (f : Namespace → Namespace) : (s.mapNs f).slices = s.slices := rfl
@[simp] theorem mapNs_invocations (s : State) (f : Namespace → Namespace) : (s.mapNs f).invocations = s.invocations := rfl
@[simp] theorem mapNs_nextInv (s : State) (f : Namespace → Namespace) : (s.mapNs f).nextInv = s.nextInv := rfl
@[simp] theorem mapNs_hd (s : State) (f : Namespace → Namespace) : (s.mapNs f).hd = s.hd := rfl
@[simp] theorem mapNs_parks (s : State) (f : Namespace → Namespace) : (s.mapNs f).parks = s.parks := rfl
@[simp] theorem mapNs_hdQueue (s : State) (f : Namespace → Namespace) : (s.mapNs f).hdQueue = s.hdQueue := rfl
@[simp] theorem mapNs_ats (s : State) (f : Namespace → Namespace) : (s.mapNs f).ats = s.ats := rfl
@[simp] theorem mapNs_digests (s : State) (f : Namespace → Namespace) : (s.mapNs f).digests = s.digests := rfl
@[simp] theorem mapNs_digestWaits (s : State) (f : Namespace → Namespace) : (s.mapNs f).digestWaits = s.digestWaits := rfl
@[simp] theorem mapNs_digestOut (s : State) (f : Namespace → Namespace) : (s.mapNs f).digestOut = s.digestOut := rfl
@[simp] theorem mapNs_hubKey (s : State) (f : Namespace → Namespace) : (s.mapNs f).hubKey = s.hubKey := rfl
@[simp] theorem mapNs_meas (s : State) (f : Namespace → Namespace) : (s.mapNs f).meas = s.meas := rfl
@[simp] theorem mapNs_measLog (s : State) (f : Namespace → Namespace) : (s.mapNs f).measLog = s.measLog := rfl
@[simp] theorem mapNs_measSeq (s : State) (f : Namespace → Namespace) : (s.mapNs f).measSeq = s.measSeq := rfl
@[simp] theorem mapNs_staged (s : State) (f : Namespace → Namespace) : (s.mapNs f).staged = s.staged := rfl
@[simp] theorem mapNs_spdmPeers (s : State) (f : Namespace → Namespace) : (s.mapNs f).spdmPeers = s.spdmPeers := rfl
@[simp] theorem mapNs_spdmSessions (s : State) (f : Namespace → Namespace) : (s.mapNs f).spdmSessions = s.spdmSessions := rfl
@[simp] theorem mapNs_spdmOut (s : State) (f : Namespace → Namespace) : (s.mapNs f).spdmOut = s.spdmOut := rfl
@[simp] theorem mapNs_entropyOk (s : State) (f : Namespace → Namespace) : (s.mapNs f).entropyOk = s.entropyOk := rfl
@[simp] theorem mapNs_groupAt (s : State) (f : Namespace → Namespace) : (s.mapNs f).groupAt = s.groupAt := rfl
@[simp] theorem mapNs_groupRecs (s : State) (f : Namespace → Namespace) : (s.mapNs f).groupRecs = s.groupRecs := rfl
@[simp] theorem mapNs_storeHdr (s : State) (f : Namespace → Namespace) : (s.mapNs f).storeHdr = s.storeHdr := rfl
@[simp] theorem mapNs_storeNext (s : State) (f : Namespace → Namespace) : (s.mapNs f).storeNext = s.storeNext := rfl
@[simp] theorem mapNs_wearRateMax (s : State) (f : Namespace → Namespace) : (s.mapNs f).wearRateMax = s.wearRateMax := rfl
@[simp] theorem mapNs_nvm (s : State) (f : Namespace → Namespace) : (s.mapNs f).nvm = s.nvm := rfl
@[simp] theorem mapNs_power (s : State) (f : Namespace → Namespace) : (s.mapNs f).power = s.power := rfl
@[simp] theorem mapNs_start (s : State) (f : Namespace → Namespace) : (s.mapNs f).start = s.start := rfl
@[simp] theorem mapNs_recorder (s : State) (f : Namespace → Namespace) : (s.mapNs f).recorder = s.recorder := rfl
@[simp] theorem mapNs_fences (s : State) (f : Namespace → Namespace) : (s.mapNs f).fences = s.fences := rfl
@[simp] theorem mapNs_fenceCounts (s : State) (f : Namespace → Namespace) : (s.mapNs f).fenceCounts = s.fenceCounts := rfl
@[simp] theorem mapNs_fenceSoon (s : State) (f : Namespace → Namespace) : (s.mapNs f).fenceSoon = s.fenceSoon := rfl
@[simp] theorem mapNs_test (s : State) (f : Namespace → Namespace) : (s.mapNs f).test = s.test := rfl
@[simp] theorem mapNs_unfence (s : State) (f : Namespace → Namespace) : (s.mapNs f).unfence = s.unfence := rfl
@[simp] theorem mapNs_mgmt (s : State) (f : Namespace → Namespace) : (s.mapNs f).mgmt = s.mgmt := rfl
@[simp] theorem mapNs_fresh (s : State) (f : Namespace → Namespace) : (s.mapNs f).fresh = s.fresh := rfl
@[simp] theorem mapNs_pending (s : State) (f : Namespace → Namespace) : (s.mapNs f).pending = s.pending := rfl

/-! ### modNs -/

@[simp] theorem modNs_part (s : State) (k : Nat) (f : Namespace → Namespace) : (s.modNs k f).part = s.part := rfl
@[simp] theorem modNs_pins (s : State) (k : Nat) (f : Namespace → Namespace) : (s.modNs k f).pins = s.pins := rfl
@[simp] theorem modNs_regs (s : State) (k : Nat) (f : Namespace → Namespace) : (s.modNs k f).regs = s.regs := rfl
@[simp] theorem modNs_latches (s : State) (k : Nat) (f : Namespace → Namespace) : (s.modNs k f).latches = s.latches := rfl
@[simp] theorem modNs_busRead (s : State) (k : Nat) (f : Namespace → Namespace) : (s.modNs k f).busRead = s.busRead := rfl
@[simp] theorem modNs_course (s : State) (k : Nat) (f : Namespace → Namespace) : (s.modNs k f).course = s.course := rfl
@[simp] theorem modNs_dual (s : State) (k : Nat) (f : Namespace → Namespace) : (s.modNs k f).dual = s.dual := rfl
@[simp] theorem modNs_links (s : State) (k : Nat) (f : Namespace → Namespace) : (s.modNs k f).links = s.links := rfl
@[simp] theorem modNs_ctrls (s : State) (k : Nat) (f : Namespace → Namespace) : (s.modNs k f).ctrls = s.ctrls := rfl
@[simp] theorem modNs_inflight (s : State) (k : Nat) (f : Namespace → Namespace) : (s.modNs k f).inflight = s.inflight := rfl
@[simp] theorem modNs_order (s : State) (k : Nat) (f : Namespace → Namespace) : (s.modNs k f).order = s.order := rfl
@[simp] theorem modNs_namespaces (s : State) (k : Nat) (f : Namespace → Namespace) : (s.modNs k f).namespaces = recMod Namespace.nsid s.namespaces k f := rfl
@[simp] theorem modNs_tenants (s : State) (k : Nat) (f : Namespace → Namespace) : (s.modNs k f).tenants = s.tenants := rfl
@[simp] theorem modNs_leaving (s : State) (k : Nat) (f : Namespace → Namespace) : (s.modNs k f).leaving = s.leaving := rfl
@[simp] theorem modNs_deferred (s : State) (k : Nat) (f : Namespace → Namespace) : (s.modNs k f).deferred = s.deferred := rfl
@[simp] theorem modNs_migs (s : State) (k : Nat) (f : Namespace → Namespace) : (s.modNs k f).migs = s.migs := rfl
@[simp] theorem modNs_slotWaits (s : State) (k : Nat) (f : Namespace → Namespace) : (s.modNs k f).slotWaits = s.slotWaits := rfl
@[simp] theorem modNs_slices (s : State) (k : Nat) (f : Namespace → Namespace) : (s.modNs k f).slices = s.slices := rfl
@[simp] theorem modNs_invocations (s : State) (k : Nat) (f : Namespace → Namespace) : (s.modNs k f).invocations = s.invocations := rfl
@[simp] theorem modNs_nextInv (s : State) (k : Nat) (f : Namespace → Namespace) : (s.modNs k f).nextInv = s.nextInv := rfl
@[simp] theorem modNs_hd (s : State) (k : Nat) (f : Namespace → Namespace) : (s.modNs k f).hd = s.hd := rfl
@[simp] theorem modNs_parks (s : State) (k : Nat) (f : Namespace → Namespace) : (s.modNs k f).parks = s.parks := rfl
@[simp] theorem modNs_hdQueue (s : State) (k : Nat) (f : Namespace → Namespace) : (s.modNs k f).hdQueue = s.hdQueue := rfl
@[simp] theorem modNs_ats (s : State) (k : Nat) (f : Namespace → Namespace) : (s.modNs k f).ats = s.ats := rfl
@[simp] theorem modNs_digests (s : State) (k : Nat) (f : Namespace → Namespace) : (s.modNs k f).digests = s.digests := rfl
@[simp] theorem modNs_digestWaits (s : State) (k : Nat) (f : Namespace → Namespace) : (s.modNs k f).digestWaits = s.digestWaits := rfl
@[simp] theorem modNs_digestOut (s : State) (k : Nat) (f : Namespace → Namespace) : (s.modNs k f).digestOut = s.digestOut := rfl
@[simp] theorem modNs_hubKey (s : State) (k : Nat) (f : Namespace → Namespace) : (s.modNs k f).hubKey = s.hubKey := rfl
@[simp] theorem modNs_meas (s : State) (k : Nat) (f : Namespace → Namespace) : (s.modNs k f).meas = s.meas := rfl
@[simp] theorem modNs_measLog (s : State) (k : Nat) (f : Namespace → Namespace) : (s.modNs k f).measLog = s.measLog := rfl
@[simp] theorem modNs_measSeq (s : State) (k : Nat) (f : Namespace → Namespace) : (s.modNs k f).measSeq = s.measSeq := rfl
@[simp] theorem modNs_staged (s : State) (k : Nat) (f : Namespace → Namespace) : (s.modNs k f).staged = s.staged := rfl
@[simp] theorem modNs_spdmPeers (s : State) (k : Nat) (f : Namespace → Namespace) : (s.modNs k f).spdmPeers = s.spdmPeers := rfl
@[simp] theorem modNs_spdmSessions (s : State) (k : Nat) (f : Namespace → Namespace) : (s.modNs k f).spdmSessions = s.spdmSessions := rfl
@[simp] theorem modNs_spdmOut (s : State) (k : Nat) (f : Namespace → Namespace) : (s.modNs k f).spdmOut = s.spdmOut := rfl
@[simp] theorem modNs_entropyOk (s : State) (k : Nat) (f : Namespace → Namespace) : (s.modNs k f).entropyOk = s.entropyOk := rfl
@[simp] theorem modNs_groupAt (s : State) (k : Nat) (f : Namespace → Namespace) : (s.modNs k f).groupAt = s.groupAt := rfl
@[simp] theorem modNs_groupRecs (s : State) (k : Nat) (f : Namespace → Namespace) : (s.modNs k f).groupRecs = s.groupRecs := rfl
@[simp] theorem modNs_storeHdr (s : State) (k : Nat) (f : Namespace → Namespace) : (s.modNs k f).storeHdr = s.storeHdr := rfl
@[simp] theorem modNs_storeNext (s : State) (k : Nat) (f : Namespace → Namespace) : (s.modNs k f).storeNext = s.storeNext := rfl
@[simp] theorem modNs_wearRateMax (s : State) (k : Nat) (f : Namespace → Namespace) : (s.modNs k f).wearRateMax = s.wearRateMax := rfl
@[simp] theorem modNs_nvm (s : State) (k : Nat) (f : Namespace → Namespace) : (s.modNs k f).nvm = s.nvm := rfl
@[simp] theorem modNs_power (s : State) (k : Nat) (f : Namespace → Namespace) : (s.modNs k f).power = s.power := rfl
@[simp] theorem modNs_start (s : State) (k : Nat) (f : Namespace → Namespace) : (s.modNs k f).start = s.start := rfl
@[simp] theorem modNs_recorder (s : State) (k : Nat) (f : Namespace → Namespace) : (s.modNs k f).recorder = s.recorder := rfl
@[simp] theorem modNs_fences (s : State) (k : Nat) (f : Namespace → Namespace) : (s.modNs k f).fences = s.fences := rfl
@[simp] theorem modNs_fenceCounts (s : State) (k : Nat) (f : Namespace → Namespace) : (s.modNs k f).fenceCounts = s.fenceCounts := rfl
@[simp] theorem modNs_fenceSoon (s : State) (k : Nat) (f : Namespace → Namespace) : (s.modNs k f).fenceSoon = s.fenceSoon := rfl
@[simp] theorem modNs_test (s : State) (k : Nat) (f : Namespace → Namespace) : (s.modNs k f).test = s.test := rfl
@[simp] theorem modNs_unfence (s : State) (k : Nat) (f : Namespace → Namespace) : (s.modNs k f).unfence = s.unfence := rfl
@[simp] theorem modNs_mgmt (s : State) (k : Nat) (f : Namespace → Namespace) : (s.modNs k f).mgmt = s.mgmt := rfl
@[simp] theorem modNs_fresh (s : State) (k : Nat) (f : Namespace → Namespace) : (s.modNs k f).fresh = s.fresh := rfl
@[simp] theorem modNs_pending (s : State) (k : Nat) (f : Namespace → Namespace) : (s.modNs k f).pending = s.pending := rfl

/-! ### mapTenants -/

@[simp] theorem mapTenants_part (s : State) (f : Tenant → Tenant) : (s.mapTenants f).part = s.part := rfl
@[simp] theorem mapTenants_pins (s : State) (f : Tenant → Tenant) : (s.mapTenants f).pins = s.pins := rfl
@[simp] theorem mapTenants_regs (s : State) (f : Tenant → Tenant) : (s.mapTenants f).regs = s.regs := rfl
@[simp] theorem mapTenants_latches (s : State) (f : Tenant → Tenant) : (s.mapTenants f).latches = s.latches := rfl
@[simp] theorem mapTenants_busRead (s : State) (f : Tenant → Tenant) : (s.mapTenants f).busRead = s.busRead := rfl
@[simp] theorem mapTenants_course (s : State) (f : Tenant → Tenant) : (s.mapTenants f).course = s.course := rfl
@[simp] theorem mapTenants_dual (s : State) (f : Tenant → Tenant) : (s.mapTenants f).dual = s.dual := rfl
@[simp] theorem mapTenants_links (s : State) (f : Tenant → Tenant) : (s.mapTenants f).links = s.links := rfl
@[simp] theorem mapTenants_ctrls (s : State) (f : Tenant → Tenant) : (s.mapTenants f).ctrls = s.ctrls := rfl
@[simp] theorem mapTenants_inflight (s : State) (f : Tenant → Tenant) : (s.mapTenants f).inflight = s.inflight := rfl
@[simp] theorem mapTenants_order (s : State) (f : Tenant → Tenant) : (s.mapTenants f).order = s.order := rfl
@[simp] theorem mapTenants_namespaces (s : State) (f : Tenant → Tenant) : (s.mapTenants f).namespaces = s.namespaces := rfl
@[simp] theorem mapTenants_tenants (s : State) (f : Tenant → Tenant) : (s.mapTenants f).tenants = s.tenants.map f := rfl
@[simp] theorem mapTenants_leaving (s : State) (f : Tenant → Tenant) : (s.mapTenants f).leaving = s.leaving := rfl
@[simp] theorem mapTenants_deferred (s : State) (f : Tenant → Tenant) : (s.mapTenants f).deferred = s.deferred := rfl
@[simp] theorem mapTenants_migs (s : State) (f : Tenant → Tenant) : (s.mapTenants f).migs = s.migs := rfl
@[simp] theorem mapTenants_slotWaits (s : State) (f : Tenant → Tenant) : (s.mapTenants f).slotWaits = s.slotWaits := rfl
@[simp] theorem mapTenants_slices (s : State) (f : Tenant → Tenant) : (s.mapTenants f).slices = s.slices := rfl
@[simp] theorem mapTenants_invocations (s : State) (f : Tenant → Tenant) : (s.mapTenants f).invocations = s.invocations := rfl
@[simp] theorem mapTenants_nextInv (s : State) (f : Tenant → Tenant) : (s.mapTenants f).nextInv = s.nextInv := rfl
@[simp] theorem mapTenants_hd (s : State) (f : Tenant → Tenant) : (s.mapTenants f).hd = s.hd := rfl
@[simp] theorem mapTenants_parks (s : State) (f : Tenant → Tenant) : (s.mapTenants f).parks = s.parks := rfl
@[simp] theorem mapTenants_hdQueue (s : State) (f : Tenant → Tenant) : (s.mapTenants f).hdQueue = s.hdQueue := rfl
@[simp] theorem mapTenants_ats (s : State) (f : Tenant → Tenant) : (s.mapTenants f).ats = s.ats := rfl
@[simp] theorem mapTenants_digests (s : State) (f : Tenant → Tenant) : (s.mapTenants f).digests = s.digests := rfl
@[simp] theorem mapTenants_digestWaits (s : State) (f : Tenant → Tenant) : (s.mapTenants f).digestWaits = s.digestWaits := rfl
@[simp] theorem mapTenants_digestOut (s : State) (f : Tenant → Tenant) : (s.mapTenants f).digestOut = s.digestOut := rfl
@[simp] theorem mapTenants_hubKey (s : State) (f : Tenant → Tenant) : (s.mapTenants f).hubKey = s.hubKey := rfl
@[simp] theorem mapTenants_meas (s : State) (f : Tenant → Tenant) : (s.mapTenants f).meas = s.meas := rfl
@[simp] theorem mapTenants_measLog (s : State) (f : Tenant → Tenant) : (s.mapTenants f).measLog = s.measLog := rfl
@[simp] theorem mapTenants_measSeq (s : State) (f : Tenant → Tenant) : (s.mapTenants f).measSeq = s.measSeq := rfl
@[simp] theorem mapTenants_staged (s : State) (f : Tenant → Tenant) : (s.mapTenants f).staged = s.staged := rfl
@[simp] theorem mapTenants_spdmPeers (s : State) (f : Tenant → Tenant) : (s.mapTenants f).spdmPeers = s.spdmPeers := rfl
@[simp] theorem mapTenants_spdmSessions (s : State) (f : Tenant → Tenant) : (s.mapTenants f).spdmSessions = s.spdmSessions := rfl
@[simp] theorem mapTenants_spdmOut (s : State) (f : Tenant → Tenant) : (s.mapTenants f).spdmOut = s.spdmOut := rfl
@[simp] theorem mapTenants_entropyOk (s : State) (f : Tenant → Tenant) : (s.mapTenants f).entropyOk = s.entropyOk := rfl
@[simp] theorem mapTenants_groupAt (s : State) (f : Tenant → Tenant) : (s.mapTenants f).groupAt = s.groupAt := rfl
@[simp] theorem mapTenants_groupRecs (s : State) (f : Tenant → Tenant) : (s.mapTenants f).groupRecs = s.groupRecs := rfl
@[simp] theorem mapTenants_storeHdr (s : State) (f : Tenant → Tenant) : (s.mapTenants f).storeHdr = s.storeHdr := rfl
@[simp] theorem mapTenants_storeNext (s : State) (f : Tenant → Tenant) : (s.mapTenants f).storeNext = s.storeNext := rfl
@[simp] theorem mapTenants_wearRateMax (s : State) (f : Tenant → Tenant) : (s.mapTenants f).wearRateMax = s.wearRateMax := rfl
@[simp] theorem mapTenants_nvm (s : State) (f : Tenant → Tenant) : (s.mapTenants f).nvm = s.nvm := rfl
@[simp] theorem mapTenants_power (s : State) (f : Tenant → Tenant) : (s.mapTenants f).power = s.power := rfl
@[simp] theorem mapTenants_start (s : State) (f : Tenant → Tenant) : (s.mapTenants f).start = s.start := rfl
@[simp] theorem mapTenants_recorder (s : State) (f : Tenant → Tenant) : (s.mapTenants f).recorder = s.recorder := rfl
@[simp] theorem mapTenants_fences (s : State) (f : Tenant → Tenant) : (s.mapTenants f).fences = s.fences := rfl
@[simp] theorem mapTenants_fenceCounts (s : State) (f : Tenant → Tenant) : (s.mapTenants f).fenceCounts = s.fenceCounts := rfl
@[simp] theorem mapTenants_fenceSoon (s : State) (f : Tenant → Tenant) : (s.mapTenants f).fenceSoon = s.fenceSoon := rfl
@[simp] theorem mapTenants_test (s : State) (f : Tenant → Tenant) : (s.mapTenants f).test = s.test := rfl
@[simp] theorem mapTenants_unfence (s : State) (f : Tenant → Tenant) : (s.mapTenants f).unfence = s.unfence := rfl
@[simp] theorem mapTenants_mgmt (s : State) (f : Tenant → Tenant) : (s.mapTenants f).mgmt = s.mgmt := rfl
@[simp] theorem mapTenants_fresh (s : State) (f : Tenant → Tenant) : (s.mapTenants f).fresh = s.fresh := rfl
@[simp] theorem mapTenants_pending (s : State) (f : Tenant → Tenant) : (s.mapTenants f).pending = s.pending := rfl

/-! ### modTenant -/

@[simp] theorem modTenant_part (s : State) (k : Nat) (f : Tenant → Tenant) : (s.modTenant k f).part = s.part := rfl
@[simp] theorem modTenant_pins (s : State) (k : Nat) (f : Tenant → Tenant) : (s.modTenant k f).pins = s.pins := rfl
@[simp] theorem modTenant_regs (s : State) (k : Nat) (f : Tenant → Tenant) : (s.modTenant k f).regs = s.regs := rfl
@[simp] theorem modTenant_latches (s : State) (k : Nat) (f : Tenant → Tenant) : (s.modTenant k f).latches = s.latches := rfl
@[simp] theorem modTenant_busRead (s : State) (k : Nat) (f : Tenant → Tenant) : (s.modTenant k f).busRead = s.busRead := rfl
@[simp] theorem modTenant_course (s : State) (k : Nat) (f : Tenant → Tenant) : (s.modTenant k f).course = s.course := rfl
@[simp] theorem modTenant_dual (s : State) (k : Nat) (f : Tenant → Tenant) : (s.modTenant k f).dual = s.dual := rfl
@[simp] theorem modTenant_links (s : State) (k : Nat) (f : Tenant → Tenant) : (s.modTenant k f).links = s.links := rfl
@[simp] theorem modTenant_ctrls (s : State) (k : Nat) (f : Tenant → Tenant) : (s.modTenant k f).ctrls = s.ctrls := rfl
@[simp] theorem modTenant_inflight (s : State) (k : Nat) (f : Tenant → Tenant) : (s.modTenant k f).inflight = s.inflight := rfl
@[simp] theorem modTenant_order (s : State) (k : Nat) (f : Tenant → Tenant) : (s.modTenant k f).order = s.order := rfl
@[simp] theorem modTenant_namespaces (s : State) (k : Nat) (f : Tenant → Tenant) : (s.modTenant k f).namespaces = s.namespaces := rfl
@[simp] theorem modTenant_tenants (s : State) (k : Nat) (f : Tenant → Tenant) : (s.modTenant k f).tenants = recMod Tenant.ti s.tenants k f := rfl
@[simp] theorem modTenant_leaving (s : State) (k : Nat) (f : Tenant → Tenant) : (s.modTenant k f).leaving = s.leaving := rfl
@[simp] theorem modTenant_deferred (s : State) (k : Nat) (f : Tenant → Tenant) : (s.modTenant k f).deferred = s.deferred := rfl
@[simp] theorem modTenant_migs (s : State) (k : Nat) (f : Tenant → Tenant) : (s.modTenant k f).migs = s.migs := rfl
@[simp] theorem modTenant_slotWaits (s : State) (k : Nat) (f : Tenant → Tenant) : (s.modTenant k f).slotWaits = s.slotWaits := rfl
@[simp] theorem modTenant_slices (s : State) (k : Nat) (f : Tenant → Tenant) : (s.modTenant k f).slices = s.slices := rfl
@[simp] theorem modTenant_invocations (s : State) (k : Nat) (f : Tenant → Tenant) : (s.modTenant k f).invocations = s.invocations := rfl
@[simp] theorem modTenant_nextInv (s : State) (k : Nat) (f : Tenant → Tenant) : (s.modTenant k f).nextInv = s.nextInv := rfl
@[simp] theorem modTenant_hd (s : State) (k : Nat) (f : Tenant → Tenant) : (s.modTenant k f).hd = s.hd := rfl
@[simp] theorem modTenant_parks (s : State) (k : Nat) (f : Tenant → Tenant) : (s.modTenant k f).parks = s.parks := rfl
@[simp] theorem modTenant_hdQueue (s : State) (k : Nat) (f : Tenant → Tenant) : (s.modTenant k f).hdQueue = s.hdQueue := rfl
@[simp] theorem modTenant_ats (s : State) (k : Nat) (f : Tenant → Tenant) : (s.modTenant k f).ats = s.ats := rfl
@[simp] theorem modTenant_digests (s : State) (k : Nat) (f : Tenant → Tenant) : (s.modTenant k f).digests = s.digests := rfl
@[simp] theorem modTenant_digestWaits (s : State) (k : Nat) (f : Tenant → Tenant) : (s.modTenant k f).digestWaits = s.digestWaits := rfl
@[simp] theorem modTenant_digestOut (s : State) (k : Nat) (f : Tenant → Tenant) : (s.modTenant k f).digestOut = s.digestOut := rfl
@[simp] theorem modTenant_hubKey (s : State) (k : Nat) (f : Tenant → Tenant) : (s.modTenant k f).hubKey = s.hubKey := rfl
@[simp] theorem modTenant_meas (s : State) (k : Nat) (f : Tenant → Tenant) : (s.modTenant k f).meas = s.meas := rfl
@[simp] theorem modTenant_measLog (s : State) (k : Nat) (f : Tenant → Tenant) : (s.modTenant k f).measLog = s.measLog := rfl
@[simp] theorem modTenant_measSeq (s : State) (k : Nat) (f : Tenant → Tenant) : (s.modTenant k f).measSeq = s.measSeq := rfl
@[simp] theorem modTenant_staged (s : State) (k : Nat) (f : Tenant → Tenant) : (s.modTenant k f).staged = s.staged := rfl
@[simp] theorem modTenant_spdmPeers (s : State) (k : Nat) (f : Tenant → Tenant) : (s.modTenant k f).spdmPeers = s.spdmPeers := rfl
@[simp] theorem modTenant_spdmSessions (s : State) (k : Nat) (f : Tenant → Tenant) : (s.modTenant k f).spdmSessions = s.spdmSessions := rfl
@[simp] theorem modTenant_spdmOut (s : State) (k : Nat) (f : Tenant → Tenant) : (s.modTenant k f).spdmOut = s.spdmOut := rfl
@[simp] theorem modTenant_entropyOk (s : State) (k : Nat) (f : Tenant → Tenant) : (s.modTenant k f).entropyOk = s.entropyOk := rfl
@[simp] theorem modTenant_groupAt (s : State) (k : Nat) (f : Tenant → Tenant) : (s.modTenant k f).groupAt = s.groupAt := rfl
@[simp] theorem modTenant_groupRecs (s : State) (k : Nat) (f : Tenant → Tenant) : (s.modTenant k f).groupRecs = s.groupRecs := rfl
@[simp] theorem modTenant_storeHdr (s : State) (k : Nat) (f : Tenant → Tenant) : (s.modTenant k f).storeHdr = s.storeHdr := rfl
@[simp] theorem modTenant_storeNext (s : State) (k : Nat) (f : Tenant → Tenant) : (s.modTenant k f).storeNext = s.storeNext := rfl
@[simp] theorem modTenant_wearRateMax (s : State) (k : Nat) (f : Tenant → Tenant) : (s.modTenant k f).wearRateMax = s.wearRateMax := rfl
@[simp] theorem modTenant_nvm (s : State) (k : Nat) (f : Tenant → Tenant) : (s.modTenant k f).nvm = s.nvm := rfl
@[simp] theorem modTenant_power (s : State) (k : Nat) (f : Tenant → Tenant) : (s.modTenant k f).power = s.power := rfl
@[simp] theorem modTenant_start (s : State) (k : Nat) (f : Tenant → Tenant) : (s.modTenant k f).start = s.start := rfl
@[simp] theorem modTenant_recorder (s : State) (k : Nat) (f : Tenant → Tenant) : (s.modTenant k f).recorder = s.recorder := rfl
@[simp] theorem modTenant_fences (s : State) (k : Nat) (f : Tenant → Tenant) : (s.modTenant k f).fences = s.fences := rfl
@[simp] theorem modTenant_fenceCounts (s : State) (k : Nat) (f : Tenant → Tenant) : (s.modTenant k f).fenceCounts = s.fenceCounts := rfl
@[simp] theorem modTenant_fenceSoon (s : State) (k : Nat) (f : Tenant → Tenant) : (s.modTenant k f).fenceSoon = s.fenceSoon := rfl
@[simp] theorem modTenant_test (s : State) (k : Nat) (f : Tenant → Tenant) : (s.modTenant k f).test = s.test := rfl
@[simp] theorem modTenant_unfence (s : State) (k : Nat) (f : Tenant → Tenant) : (s.modTenant k f).unfence = s.unfence := rfl
@[simp] theorem modTenant_mgmt (s : State) (k : Nat) (f : Tenant → Tenant) : (s.modTenant k f).mgmt = s.mgmt := rfl
@[simp] theorem modTenant_fresh (s : State) (k : Nat) (f : Tenant → Tenant) : (s.modTenant k f).fresh = s.fresh := rfl
@[simp] theorem modTenant_pending (s : State) (k : Nat) (f : Tenant → Tenant) : (s.modTenant k f).pending = s.pending := rfl

/-! ### mapInflight -/

@[simp] theorem mapInflight_part (s : State) (f : InFlight → InFlight) : (s.mapInflight f).part = s.part := rfl
@[simp] theorem mapInflight_pins (s : State) (f : InFlight → InFlight) : (s.mapInflight f).pins = s.pins := rfl
@[simp] theorem mapInflight_regs (s : State) (f : InFlight → InFlight) : (s.mapInflight f).regs = s.regs := rfl
@[simp] theorem mapInflight_latches (s : State) (f : InFlight → InFlight) : (s.mapInflight f).latches = s.latches := rfl
@[simp] theorem mapInflight_busRead (s : State) (f : InFlight → InFlight) : (s.mapInflight f).busRead = s.busRead := rfl
@[simp] theorem mapInflight_course (s : State) (f : InFlight → InFlight) : (s.mapInflight f).course = s.course := rfl
@[simp] theorem mapInflight_dual (s : State) (f : InFlight → InFlight) : (s.mapInflight f).dual = s.dual := rfl
@[simp] theorem mapInflight_links (s : State) (f : InFlight → InFlight) : (s.mapInflight f).links = s.links := rfl
@[simp] theorem mapInflight_ctrls (s : State) (f : InFlight → InFlight) : (s.mapInflight f).ctrls = s.ctrls := rfl
@[simp] theorem mapInflight_inflight (s : State) (f : InFlight → InFlight) : (s.mapInflight f).inflight = s.inflight.map f := rfl
@[simp] theorem mapInflight_order (s : State) (f : InFlight → InFlight) : (s.mapInflight f).order = s.order := rfl
@[simp] theorem mapInflight_namespaces (s : State) (f : InFlight → InFlight) : (s.mapInflight f).namespaces = s.namespaces := rfl
@[simp] theorem mapInflight_tenants (s : State) (f : InFlight → InFlight) : (s.mapInflight f).tenants = s.tenants := rfl
@[simp] theorem mapInflight_leaving (s : State) (f : InFlight → InFlight) : (s.mapInflight f).leaving = s.leaving := rfl
@[simp] theorem mapInflight_deferred (s : State) (f : InFlight → InFlight) : (s.mapInflight f).deferred = s.deferred := rfl
@[simp] theorem mapInflight_migs (s : State) (f : InFlight → InFlight) : (s.mapInflight f).migs = s.migs := rfl
@[simp] theorem mapInflight_slotWaits (s : State) (f : InFlight → InFlight) : (s.mapInflight f).slotWaits = s.slotWaits := rfl
@[simp] theorem mapInflight_slices (s : State) (f : InFlight → InFlight) : (s.mapInflight f).slices = s.slices := rfl
@[simp] theorem mapInflight_invocations (s : State) (f : InFlight → InFlight) : (s.mapInflight f).invocations = s.invocations := rfl
@[simp] theorem mapInflight_nextInv (s : State) (f : InFlight → InFlight) : (s.mapInflight f).nextInv = s.nextInv := rfl
@[simp] theorem mapInflight_hd (s : State) (f : InFlight → InFlight) : (s.mapInflight f).hd = s.hd := rfl
@[simp] theorem mapInflight_parks (s : State) (f : InFlight → InFlight) : (s.mapInflight f).parks = s.parks := rfl
@[simp] theorem mapInflight_hdQueue (s : State) (f : InFlight → InFlight) : (s.mapInflight f).hdQueue = s.hdQueue := rfl
@[simp] theorem mapInflight_ats (s : State) (f : InFlight → InFlight) : (s.mapInflight f).ats = s.ats := rfl
@[simp] theorem mapInflight_digests (s : State) (f : InFlight → InFlight) : (s.mapInflight f).digests = s.digests := rfl
@[simp] theorem mapInflight_digestWaits (s : State) (f : InFlight → InFlight) : (s.mapInflight f).digestWaits = s.digestWaits := rfl
@[simp] theorem mapInflight_digestOut (s : State) (f : InFlight → InFlight) : (s.mapInflight f).digestOut = s.digestOut := rfl
@[simp] theorem mapInflight_hubKey (s : State) (f : InFlight → InFlight) : (s.mapInflight f).hubKey = s.hubKey := rfl
@[simp] theorem mapInflight_meas (s : State) (f : InFlight → InFlight) : (s.mapInflight f).meas = s.meas := rfl
@[simp] theorem mapInflight_measLog (s : State) (f : InFlight → InFlight) : (s.mapInflight f).measLog = s.measLog := rfl
@[simp] theorem mapInflight_measSeq (s : State) (f : InFlight → InFlight) : (s.mapInflight f).measSeq = s.measSeq := rfl
@[simp] theorem mapInflight_staged (s : State) (f : InFlight → InFlight) : (s.mapInflight f).staged = s.staged := rfl
@[simp] theorem mapInflight_spdmPeers (s : State) (f : InFlight → InFlight) : (s.mapInflight f).spdmPeers = s.spdmPeers := rfl
@[simp] theorem mapInflight_spdmSessions (s : State) (f : InFlight → InFlight) : (s.mapInflight f).spdmSessions = s.spdmSessions := rfl
@[simp] theorem mapInflight_spdmOut (s : State) (f : InFlight → InFlight) : (s.mapInflight f).spdmOut = s.spdmOut := rfl
@[simp] theorem mapInflight_entropyOk (s : State) (f : InFlight → InFlight) : (s.mapInflight f).entropyOk = s.entropyOk := rfl
@[simp] theorem mapInflight_groupAt (s : State) (f : InFlight → InFlight) : (s.mapInflight f).groupAt = s.groupAt := rfl
@[simp] theorem mapInflight_groupRecs (s : State) (f : InFlight → InFlight) : (s.mapInflight f).groupRecs = s.groupRecs := rfl
@[simp] theorem mapInflight_storeHdr (s : State) (f : InFlight → InFlight) : (s.mapInflight f).storeHdr = s.storeHdr := rfl
@[simp] theorem mapInflight_storeNext (s : State) (f : InFlight → InFlight) : (s.mapInflight f).storeNext = s.storeNext := rfl
@[simp] theorem mapInflight_wearRateMax (s : State) (f : InFlight → InFlight) : (s.mapInflight f).wearRateMax = s.wearRateMax := rfl
@[simp] theorem mapInflight_nvm (s : State) (f : InFlight → InFlight) : (s.mapInflight f).nvm = s.nvm := rfl
@[simp] theorem mapInflight_power (s : State) (f : InFlight → InFlight) : (s.mapInflight f).power = s.power := rfl
@[simp] theorem mapInflight_start (s : State) (f : InFlight → InFlight) : (s.mapInflight f).start = s.start := rfl
@[simp] theorem mapInflight_recorder (s : State) (f : InFlight → InFlight) : (s.mapInflight f).recorder = s.recorder := rfl
@[simp] theorem mapInflight_fences (s : State) (f : InFlight → InFlight) : (s.mapInflight f).fences = s.fences := rfl
@[simp] theorem mapInflight_fenceCounts (s : State) (f : InFlight → InFlight) : (s.mapInflight f).fenceCounts = s.fenceCounts := rfl
@[simp] theorem mapInflight_fenceSoon (s : State) (f : InFlight → InFlight) : (s.mapInflight f).fenceSoon = s.fenceSoon := rfl
@[simp] theorem mapInflight_test (s : State) (f : InFlight → InFlight) : (s.mapInflight f).test = s.test := rfl
@[simp] theorem mapInflight_unfence (s : State) (f : InFlight → InFlight) : (s.mapInflight f).unfence = s.unfence := rfl
@[simp] theorem mapInflight_mgmt (s : State) (f : InFlight → InFlight) : (s.mapInflight f).mgmt = s.mgmt := rfl
@[simp] theorem mapInflight_fresh (s : State) (f : InFlight → InFlight) : (s.mapInflight f).fresh = s.fresh := rfl
@[simp] theorem mapInflight_pending (s : State) (f : InFlight → InFlight) : (s.mapInflight f).pending = s.pending := rfl

/-! ### modCtrl -/

@[simp] theorem modCtrl_part (s : State) (c : Nat) (f : Ctrl → Ctrl) : (s.modCtrl c f).part = s.part := rfl
@[simp] theorem modCtrl_pins (s : State) (c : Nat) (f : Ctrl → Ctrl) : (s.modCtrl c f).pins = s.pins := rfl
@[simp] theorem modCtrl_regs (s : State) (c : Nat) (f : Ctrl → Ctrl) : (s.modCtrl c f).regs = s.regs := rfl
@[simp] theorem modCtrl_latches (s : State) (c : Nat) (f : Ctrl → Ctrl) : (s.modCtrl c f).latches = s.latches := rfl
@[simp] theorem modCtrl_busRead (s : State) (c : Nat) (f : Ctrl → Ctrl) : (s.modCtrl c f).busRead = s.busRead := rfl
@[simp] theorem modCtrl_course (s : State) (c : Nat) (f : Ctrl → Ctrl) : (s.modCtrl c f).course = s.course := rfl
@[simp] theorem modCtrl_dual (s : State) (c : Nat) (f : Ctrl → Ctrl) : (s.modCtrl c f).dual = s.dual := rfl
@[simp] theorem modCtrl_links (s : State) (c : Nat) (f : Ctrl → Ctrl) : (s.modCtrl c f).links = s.links := rfl
@[simp] theorem modCtrl_ctrls (s : State) (c : Nat) (f : Ctrl → Ctrl) : (s.modCtrl c f).ctrls = recPut Ctrl.id s.ctrls { f (s.ctrl c) with id := c } := rfl
@[simp] theorem modCtrl_inflight (s : State) (c : Nat) (f : Ctrl → Ctrl) : (s.modCtrl c f).inflight = s.inflight := rfl
@[simp] theorem modCtrl_order (s : State) (c : Nat) (f : Ctrl → Ctrl) : (s.modCtrl c f).order = s.order := rfl
@[simp] theorem modCtrl_namespaces (s : State) (c : Nat) (f : Ctrl → Ctrl) : (s.modCtrl c f).namespaces = s.namespaces := rfl
@[simp] theorem modCtrl_tenants (s : State) (c : Nat) (f : Ctrl → Ctrl) : (s.modCtrl c f).tenants = s.tenants := rfl
@[simp] theorem modCtrl_leaving (s : State) (c : Nat) (f : Ctrl → Ctrl) : (s.modCtrl c f).leaving = s.leaving := rfl
@[simp] theorem modCtrl_deferred (s : State) (c : Nat) (f : Ctrl → Ctrl) : (s.modCtrl c f).deferred = s.deferred := rfl
@[simp] theorem modCtrl_migs (s : State) (c : Nat) (f : Ctrl → Ctrl) : (s.modCtrl c f).migs = s.migs := rfl
@[simp] theorem modCtrl_slotWaits (s : State) (c : Nat) (f : Ctrl → Ctrl) : (s.modCtrl c f).slotWaits = s.slotWaits := rfl
@[simp] theorem modCtrl_slices (s : State) (c : Nat) (f : Ctrl → Ctrl) : (s.modCtrl c f).slices = s.slices := rfl
@[simp] theorem modCtrl_invocations (s : State) (c : Nat) (f : Ctrl → Ctrl) : (s.modCtrl c f).invocations = s.invocations := rfl
@[simp] theorem modCtrl_nextInv (s : State) (c : Nat) (f : Ctrl → Ctrl) : (s.modCtrl c f).nextInv = s.nextInv := rfl
@[simp] theorem modCtrl_hd (s : State) (c : Nat) (f : Ctrl → Ctrl) : (s.modCtrl c f).hd = s.hd := rfl
@[simp] theorem modCtrl_parks (s : State) (c : Nat) (f : Ctrl → Ctrl) : (s.modCtrl c f).parks = s.parks := rfl
@[simp] theorem modCtrl_hdQueue (s : State) (c : Nat) (f : Ctrl → Ctrl) : (s.modCtrl c f).hdQueue = s.hdQueue := rfl
@[simp] theorem modCtrl_ats (s : State) (c : Nat) (f : Ctrl → Ctrl) : (s.modCtrl c f).ats = s.ats := rfl
@[simp] theorem modCtrl_digests (s : State) (c : Nat) (f : Ctrl → Ctrl) : (s.modCtrl c f).digests = s.digests := rfl
@[simp] theorem modCtrl_digestWaits (s : State) (c : Nat) (f : Ctrl → Ctrl) : (s.modCtrl c f).digestWaits = s.digestWaits := rfl
@[simp] theorem modCtrl_digestOut (s : State) (c : Nat) (f : Ctrl → Ctrl) : (s.modCtrl c f).digestOut = s.digestOut := rfl
@[simp] theorem modCtrl_hubKey (s : State) (c : Nat) (f : Ctrl → Ctrl) : (s.modCtrl c f).hubKey = s.hubKey := rfl
@[simp] theorem modCtrl_meas (s : State) (c : Nat) (f : Ctrl → Ctrl) : (s.modCtrl c f).meas = s.meas := rfl
@[simp] theorem modCtrl_measLog (s : State) (c : Nat) (f : Ctrl → Ctrl) : (s.modCtrl c f).measLog = s.measLog := rfl
@[simp] theorem modCtrl_measSeq (s : State) (c : Nat) (f : Ctrl → Ctrl) : (s.modCtrl c f).measSeq = s.measSeq := rfl
@[simp] theorem modCtrl_staged (s : State) (c : Nat) (f : Ctrl → Ctrl) : (s.modCtrl c f).staged = s.staged := rfl
@[simp] theorem modCtrl_spdmPeers (s : State) (c : Nat) (f : Ctrl → Ctrl) : (s.modCtrl c f).spdmPeers = s.spdmPeers := rfl
@[simp] theorem modCtrl_spdmSessions (s : State) (c : Nat) (f : Ctrl → Ctrl) : (s.modCtrl c f).spdmSessions = s.spdmSessions := rfl
@[simp] theorem modCtrl_spdmOut (s : State) (c : Nat) (f : Ctrl → Ctrl) : (s.modCtrl c f).spdmOut = s.spdmOut := rfl
@[simp] theorem modCtrl_entropyOk (s : State) (c : Nat) (f : Ctrl → Ctrl) : (s.modCtrl c f).entropyOk = s.entropyOk := rfl
@[simp] theorem modCtrl_groupAt (s : State) (c : Nat) (f : Ctrl → Ctrl) : (s.modCtrl c f).groupAt = s.groupAt := rfl
@[simp] theorem modCtrl_groupRecs (s : State) (c : Nat) (f : Ctrl → Ctrl) : (s.modCtrl c f).groupRecs = s.groupRecs := rfl
@[simp] theorem modCtrl_storeHdr (s : State) (c : Nat) (f : Ctrl → Ctrl) : (s.modCtrl c f).storeHdr = s.storeHdr := rfl
@[simp] theorem modCtrl_storeNext (s : State) (c : Nat) (f : Ctrl → Ctrl) : (s.modCtrl c f).storeNext = s.storeNext := rfl
@[simp] theorem modCtrl_wearRateMax (s : State) (c : Nat) (f : Ctrl → Ctrl) : (s.modCtrl c f).wearRateMax = s.wearRateMax := rfl
@[simp] theorem modCtrl_nvm (s : State) (c : Nat) (f : Ctrl → Ctrl) : (s.modCtrl c f).nvm = s.nvm := rfl
@[simp] theorem modCtrl_power (s : State) (c : Nat) (f : Ctrl → Ctrl) : (s.modCtrl c f).power = s.power := rfl
@[simp] theorem modCtrl_start (s : State) (c : Nat) (f : Ctrl → Ctrl) : (s.modCtrl c f).start = s.start := rfl
@[simp] theorem modCtrl_recorder (s : State) (c : Nat) (f : Ctrl → Ctrl) : (s.modCtrl c f).recorder = s.recorder := rfl
@[simp] theorem modCtrl_fences (s : State) (c : Nat) (f : Ctrl → Ctrl) : (s.modCtrl c f).fences = s.fences := rfl
@[simp] theorem modCtrl_fenceCounts (s : State) (c : Nat) (f : Ctrl → Ctrl) : (s.modCtrl c f).fenceCounts = s.fenceCounts := rfl
@[simp] theorem modCtrl_fenceSoon (s : State) (c : Nat) (f : Ctrl → Ctrl) : (s.modCtrl c f).fenceSoon = s.fenceSoon := rfl
@[simp] theorem modCtrl_test (s : State) (c : Nat) (f : Ctrl → Ctrl) : (s.modCtrl c f).test = s.test := rfl
@[simp] theorem modCtrl_unfence (s : State) (c : Nat) (f : Ctrl → Ctrl) : (s.modCtrl c f).unfence = s.unfence := rfl
@[simp] theorem modCtrl_mgmt (s : State) (c : Nat) (f : Ctrl → Ctrl) : (s.modCtrl c f).mgmt = s.mgmt := rfl
@[simp] theorem modCtrl_fresh (s : State) (c : Nat) (f : Ctrl → Ctrl) : (s.modCtrl c f).fresh = s.fresh := rfl
@[simp] theorem modCtrl_pending (s : State) (c : Nat) (f : Ctrl → Ctrl) : (s.modCtrl c f).pending = s.pending := rfl

/-! ### modStart -/

@[simp] theorem modStart_part (s : State) (f : Start → Start) : (s.modStart f).part = s.part := rfl
@[simp] theorem modStart_pins (s : State) (f : Start → Start) : (s.modStart f).pins = s.pins := rfl
@[simp] theorem modStart_regs (s : State) (f : Start → Start) : (s.modStart f).regs = s.regs := rfl
@[simp] theorem modStart_latches (s : State) (f : Start → Start) : (s.modStart f).latches = s.latches := rfl
@[simp] theorem modStart_busRead (s : State) (f : Start → Start) : (s.modStart f).busRead = s.busRead := rfl
@[simp] theorem modStart_course (s : State) (f : Start → Start) : (s.modStart f).course = s.course := rfl
@[simp] theorem modStart_dual (s : State) (f : Start → Start) : (s.modStart f).dual = s.dual := rfl
@[simp] theorem modStart_links (s : State) (f : Start → Start) : (s.modStart f).links = s.links := rfl
@[simp] theorem modStart_ctrls (s : State) (f : Start → Start) : (s.modStart f).ctrls = s.ctrls := rfl
@[simp] theorem modStart_inflight (s : State) (f : Start → Start) : (s.modStart f).inflight = s.inflight := rfl
@[simp] theorem modStart_order (s : State) (f : Start → Start) : (s.modStart f).order = s.order := rfl
@[simp] theorem modStart_namespaces (s : State) (f : Start → Start) : (s.modStart f).namespaces = s.namespaces := rfl
@[simp] theorem modStart_tenants (s : State) (f : Start → Start) : (s.modStart f).tenants = s.tenants := rfl
@[simp] theorem modStart_leaving (s : State) (f : Start → Start) : (s.modStart f).leaving = s.leaving := rfl
@[simp] theorem modStart_deferred (s : State) (f : Start → Start) : (s.modStart f).deferred = s.deferred := rfl
@[simp] theorem modStart_migs (s : State) (f : Start → Start) : (s.modStart f).migs = s.migs := rfl
@[simp] theorem modStart_slotWaits (s : State) (f : Start → Start) : (s.modStart f).slotWaits = s.slotWaits := rfl
@[simp] theorem modStart_slices (s : State) (f : Start → Start) : (s.modStart f).slices = s.slices := rfl
@[simp] theorem modStart_invocations (s : State) (f : Start → Start) : (s.modStart f).invocations = s.invocations := rfl
@[simp] theorem modStart_nextInv (s : State) (f : Start → Start) : (s.modStart f).nextInv = s.nextInv := rfl
@[simp] theorem modStart_hd (s : State) (f : Start → Start) : (s.modStart f).hd = s.hd := rfl
@[simp] theorem modStart_parks (s : State) (f : Start → Start) : (s.modStart f).parks = s.parks := rfl
@[simp] theorem modStart_hdQueue (s : State) (f : Start → Start) : (s.modStart f).hdQueue = s.hdQueue := rfl
@[simp] theorem modStart_ats (s : State) (f : Start → Start) : (s.modStart f).ats = s.ats := rfl
@[simp] theorem modStart_digests (s : State) (f : Start → Start) : (s.modStart f).digests = s.digests := rfl
@[simp] theorem modStart_digestWaits (s : State) (f : Start → Start) : (s.modStart f).digestWaits = s.digestWaits := rfl
@[simp] theorem modStart_digestOut (s : State) (f : Start → Start) : (s.modStart f).digestOut = s.digestOut := rfl
@[simp] theorem modStart_hubKey (s : State) (f : Start → Start) : (s.modStart f).hubKey = s.hubKey := rfl
@[simp] theorem modStart_meas (s : State) (f : Start → Start) : (s.modStart f).meas = s.meas := rfl
@[simp] theorem modStart_measLog (s : State) (f : Start → Start) : (s.modStart f).measLog = s.measLog := rfl
@[simp] theorem modStart_measSeq (s : State) (f : Start → Start) : (s.modStart f).measSeq = s.measSeq := rfl
@[simp] theorem modStart_staged (s : State) (f : Start → Start) : (s.modStart f).staged = s.staged := rfl
@[simp] theorem modStart_spdmPeers (s : State) (f : Start → Start) : (s.modStart f).spdmPeers = s.spdmPeers := rfl
@[simp] theorem modStart_spdmSessions (s : State) (f : Start → Start) : (s.modStart f).spdmSessions = s.spdmSessions := rfl
@[simp] theorem modStart_spdmOut (s : State) (f : Start → Start) : (s.modStart f).spdmOut = s.spdmOut := rfl
@[simp] theorem modStart_entropyOk (s : State) (f : Start → Start) : (s.modStart f).entropyOk = s.entropyOk := rfl
@[simp] theorem modStart_groupAt (s : State) (f : Start → Start) : (s.modStart f).groupAt = s.groupAt := rfl
@[simp] theorem modStart_groupRecs (s : State) (f : Start → Start) : (s.modStart f).groupRecs = s.groupRecs := rfl
@[simp] theorem modStart_storeHdr (s : State) (f : Start → Start) : (s.modStart f).storeHdr = s.storeHdr := rfl
@[simp] theorem modStart_storeNext (s : State) (f : Start → Start) : (s.modStart f).storeNext = s.storeNext := rfl
@[simp] theorem modStart_wearRateMax (s : State) (f : Start → Start) : (s.modStart f).wearRateMax = s.wearRateMax := rfl
@[simp] theorem modStart_nvm (s : State) (f : Start → Start) : (s.modStart f).nvm = s.nvm := rfl
@[simp] theorem modStart_power (s : State) (f : Start → Start) : (s.modStart f).power = s.power := rfl
@[simp] theorem modStart_start (s : State) (f : Start → Start) : (s.modStart f).start = f s.start := rfl
@[simp] theorem modStart_recorder (s : State) (f : Start → Start) : (s.modStart f).recorder = s.recorder := rfl
@[simp] theorem modStart_fences (s : State) (f : Start → Start) : (s.modStart f).fences = s.fences := rfl
@[simp] theorem modStart_fenceCounts (s : State) (f : Start → Start) : (s.modStart f).fenceCounts = s.fenceCounts := rfl
@[simp] theorem modStart_fenceSoon (s : State) (f : Start → Start) : (s.modStart f).fenceSoon = s.fenceSoon := rfl
@[simp] theorem modStart_test (s : State) (f : Start → Start) : (s.modStart f).test = s.test := rfl
@[simp] theorem modStart_unfence (s : State) (f : Start → Start) : (s.modStart f).unfence = s.unfence := rfl
@[simp] theorem modStart_mgmt (s : State) (f : Start → Start) : (s.modStart f).mgmt = s.mgmt := rfl
@[simp] theorem modStart_fresh (s : State) (f : Start → Start) : (s.modStart f).fresh = s.fresh := rfl
@[simp] theorem modStart_pending (s : State) (f : Start → Start) : (s.modStart f).pending = s.pending := rfl

/-! ### modNvm -/

@[simp] theorem modNvm_part (s : State) (f : Nvm → Nvm) : (s.modNvm f).part = s.part := rfl
@[simp] theorem modNvm_pins (s : State) (f : Nvm → Nvm) : (s.modNvm f).pins = s.pins := rfl
@[simp] theorem modNvm_regs (s : State) (f : Nvm → Nvm) : (s.modNvm f).regs = s.regs := rfl
@[simp] theorem modNvm_latches (s : State) (f : Nvm → Nvm) : (s.modNvm f).latches = s.latches := rfl
@[simp] theorem modNvm_busRead (s : State) (f : Nvm → Nvm) : (s.modNvm f).busRead = s.busRead := rfl
@[simp] theorem modNvm_course (s : State) (f : Nvm → Nvm) : (s.modNvm f).course = s.course := rfl
@[simp] theorem modNvm_dual (s : State) (f : Nvm → Nvm) : (s.modNvm f).dual = s.dual := rfl
@[simp] theorem modNvm_links (s : State) (f : Nvm → Nvm) : (s.modNvm f).links = s.links := rfl
@[simp] theorem modNvm_ctrls (s : State) (f : Nvm → Nvm) : (s.modNvm f).ctrls = s.ctrls := rfl
@[simp] theorem modNvm_inflight (s : State) (f : Nvm → Nvm) : (s.modNvm f).inflight = s.inflight := rfl
@[simp] theorem modNvm_order (s : State) (f : Nvm → Nvm) : (s.modNvm f).order = s.order := rfl
@[simp] theorem modNvm_namespaces (s : State) (f : Nvm → Nvm) : (s.modNvm f).namespaces = s.namespaces := rfl
@[simp] theorem modNvm_tenants (s : State) (f : Nvm → Nvm) : (s.modNvm f).tenants = s.tenants := rfl
@[simp] theorem modNvm_leaving (s : State) (f : Nvm → Nvm) : (s.modNvm f).leaving = s.leaving := rfl
@[simp] theorem modNvm_deferred (s : State) (f : Nvm → Nvm) : (s.modNvm f).deferred = s.deferred := rfl
@[simp] theorem modNvm_migs (s : State) (f : Nvm → Nvm) : (s.modNvm f).migs = s.migs := rfl
@[simp] theorem modNvm_slotWaits (s : State) (f : Nvm → Nvm) : (s.modNvm f).slotWaits = s.slotWaits := rfl
@[simp] theorem modNvm_slices (s : State) (f : Nvm → Nvm) : (s.modNvm f).slices = s.slices := rfl
@[simp] theorem modNvm_invocations (s : State) (f : Nvm → Nvm) : (s.modNvm f).invocations = s.invocations := rfl
@[simp] theorem modNvm_nextInv (s : State) (f : Nvm → Nvm) : (s.modNvm f).nextInv = s.nextInv := rfl
@[simp] theorem modNvm_hd (s : State) (f : Nvm → Nvm) : (s.modNvm f).hd = s.hd := rfl
@[simp] theorem modNvm_parks (s : State) (f : Nvm → Nvm) : (s.modNvm f).parks = s.parks := rfl
@[simp] theorem modNvm_hdQueue (s : State) (f : Nvm → Nvm) : (s.modNvm f).hdQueue = s.hdQueue := rfl
@[simp] theorem modNvm_ats (s : State) (f : Nvm → Nvm) : (s.modNvm f).ats = s.ats := rfl
@[simp] theorem modNvm_digests (s : State) (f : Nvm → Nvm) : (s.modNvm f).digests = s.digests := rfl
@[simp] theorem modNvm_digestWaits (s : State) (f : Nvm → Nvm) : (s.modNvm f).digestWaits = s.digestWaits := rfl
@[simp] theorem modNvm_digestOut (s : State) (f : Nvm → Nvm) : (s.modNvm f).digestOut = s.digestOut := rfl
@[simp] theorem modNvm_hubKey (s : State) (f : Nvm → Nvm) : (s.modNvm f).hubKey = s.hubKey := rfl
@[simp] theorem modNvm_meas (s : State) (f : Nvm → Nvm) : (s.modNvm f).meas = s.meas := rfl
@[simp] theorem modNvm_measLog (s : State) (f : Nvm → Nvm) : (s.modNvm f).measLog = s.measLog := rfl
@[simp] theorem modNvm_measSeq (s : State) (f : Nvm → Nvm) : (s.modNvm f).measSeq = s.measSeq := rfl
@[simp] theorem modNvm_staged (s : State) (f : Nvm → Nvm) : (s.modNvm f).staged = s.staged := rfl
@[simp] theorem modNvm_spdmPeers (s : State) (f : Nvm → Nvm) : (s.modNvm f).spdmPeers = s.spdmPeers := rfl
@[simp] theorem modNvm_spdmSessions (s : State) (f : Nvm → Nvm) : (s.modNvm f).spdmSessions = s.spdmSessions := rfl
@[simp] theorem modNvm_spdmOut (s : State) (f : Nvm → Nvm) : (s.modNvm f).spdmOut = s.spdmOut := rfl
@[simp] theorem modNvm_entropyOk (s : State) (f : Nvm → Nvm) : (s.modNvm f).entropyOk = s.entropyOk := rfl
@[simp] theorem modNvm_groupAt (s : State) (f : Nvm → Nvm) : (s.modNvm f).groupAt = s.groupAt := rfl
@[simp] theorem modNvm_groupRecs (s : State) (f : Nvm → Nvm) : (s.modNvm f).groupRecs = s.groupRecs := rfl
@[simp] theorem modNvm_storeHdr (s : State) (f : Nvm → Nvm) : (s.modNvm f).storeHdr = s.storeHdr := rfl
@[simp] theorem modNvm_storeNext (s : State) (f : Nvm → Nvm) : (s.modNvm f).storeNext = s.storeNext := rfl
@[simp] theorem modNvm_wearRateMax (s : State) (f : Nvm → Nvm) : (s.modNvm f).wearRateMax = s.wearRateMax := rfl
@[simp] theorem modNvm_nvm (s : State) (f : Nvm → Nvm) : (s.modNvm f).nvm = f s.nvm := rfl
@[simp] theorem modNvm_power (s : State) (f : Nvm → Nvm) : (s.modNvm f).power = s.power := rfl
@[simp] theorem modNvm_start (s : State) (f : Nvm → Nvm) : (s.modNvm f).start = s.start := rfl
@[simp] theorem modNvm_recorder (s : State) (f : Nvm → Nvm) : (s.modNvm f).recorder = s.recorder := rfl
@[simp] theorem modNvm_fences (s : State) (f : Nvm → Nvm) : (s.modNvm f).fences = s.fences := rfl
@[simp] theorem modNvm_fenceCounts (s : State) (f : Nvm → Nvm) : (s.modNvm f).fenceCounts = s.fenceCounts := rfl
@[simp] theorem modNvm_fenceSoon (s : State) (f : Nvm → Nvm) : (s.modNvm f).fenceSoon = s.fenceSoon := rfl
@[simp] theorem modNvm_test (s : State) (f : Nvm → Nvm) : (s.modNvm f).test = s.test := rfl
@[simp] theorem modNvm_unfence (s : State) (f : Nvm → Nvm) : (s.modNvm f).unfence = s.unfence := rfl
@[simp] theorem modNvm_mgmt (s : State) (f : Nvm → Nvm) : (s.modNvm f).mgmt = s.mgmt := rfl
@[simp] theorem modNvm_fresh (s : State) (f : Nvm → Nvm) : (s.modNvm f).fresh = s.fresh := rfl
@[simp] theorem modNvm_pending (s : State) (f : Nvm → Nvm) : (s.modNvm f).pending = s.pending := rfl

/-! ### modPower -/

@[simp] theorem modPower_part (s : State) (f : Power → Power) : (s.modPower f).part = s.part := rfl
@[simp] theorem modPower_pins (s : State) (f : Power → Power) : (s.modPower f).pins = s.pins := rfl
@[simp] theorem modPower_regs (s : State) (f : Power → Power) : (s.modPower f).regs = s.regs := rfl
@[simp] theorem modPower_latches (s : State) (f : Power → Power) : (s.modPower f).latches = s.latches := rfl
@[simp] theorem modPower_busRead (s : State) (f : Power → Power) : (s.modPower f).busRead = s.busRead := rfl
@[simp] theorem modPower_course (s : State) (f : Power → Power) : (s.modPower f).course = s.course := rfl
@[simp] theorem modPower_dual (s : State) (f : Power → Power) : (s.modPower f).dual = s.dual := rfl
@[simp] theorem modPower_links (s : State) (f : Power → Power) : (s.modPower f).links = s.links := rfl
@[simp] theorem modPower_ctrls (s : State) (f : Power → Power) : (s.modPower f).ctrls = s.ctrls := rfl
@[simp] theorem modPower_inflight (s : State) (f : Power → Power) : (s.modPower f).inflight = s.inflight := rfl
@[simp] theorem modPower_order (s : State) (f : Power → Power) : (s.modPower f).order = s.order := rfl
@[simp] theorem modPower_namespaces (s : State) (f : Power → Power) : (s.modPower f).namespaces = s.namespaces := rfl
@[simp] theorem modPower_tenants (s : State) (f : Power → Power) : (s.modPower f).tenants = s.tenants := rfl
@[simp] theorem modPower_leaving (s : State) (f : Power → Power) : (s.modPower f).leaving = s.leaving := rfl
@[simp] theorem modPower_deferred (s : State) (f : Power → Power) : (s.modPower f).deferred = s.deferred := rfl
@[simp] theorem modPower_migs (s : State) (f : Power → Power) : (s.modPower f).migs = s.migs := rfl
@[simp] theorem modPower_slotWaits (s : State) (f : Power → Power) : (s.modPower f).slotWaits = s.slotWaits := rfl
@[simp] theorem modPower_slices (s : State) (f : Power → Power) : (s.modPower f).slices = s.slices := rfl
@[simp] theorem modPower_invocations (s : State) (f : Power → Power) : (s.modPower f).invocations = s.invocations := rfl
@[simp] theorem modPower_nextInv (s : State) (f : Power → Power) : (s.modPower f).nextInv = s.nextInv := rfl
@[simp] theorem modPower_hd (s : State) (f : Power → Power) : (s.modPower f).hd = s.hd := rfl
@[simp] theorem modPower_parks (s : State) (f : Power → Power) : (s.modPower f).parks = s.parks := rfl
@[simp] theorem modPower_hdQueue (s : State) (f : Power → Power) : (s.modPower f).hdQueue = s.hdQueue := rfl
@[simp] theorem modPower_ats (s : State) (f : Power → Power) : (s.modPower f).ats = s.ats := rfl
@[simp] theorem modPower_digests (s : State) (f : Power → Power) : (s.modPower f).digests = s.digests := rfl
@[simp] theorem modPower_digestWaits (s : State) (f : Power → Power) : (s.modPower f).digestWaits = s.digestWaits := rfl
@[simp] theorem modPower_digestOut (s : State) (f : Power → Power) : (s.modPower f).digestOut = s.digestOut := rfl
@[simp] theorem modPower_hubKey (s : State) (f : Power → Power) : (s.modPower f).hubKey = s.hubKey := rfl
@[simp] theorem modPower_meas (s : State) (f : Power → Power) : (s.modPower f).meas = s.meas := rfl
@[simp] theorem modPower_measLog (s : State) (f : Power → Power) : (s.modPower f).measLog = s.measLog := rfl
@[simp] theorem modPower_measSeq (s : State) (f : Power → Power) : (s.modPower f).measSeq = s.measSeq := rfl
@[simp] theorem modPower_staged (s : State) (f : Power → Power) : (s.modPower f).staged = s.staged := rfl
@[simp] theorem modPower_spdmPeers (s : State) (f : Power → Power) : (s.modPower f).spdmPeers = s.spdmPeers := rfl
@[simp] theorem modPower_spdmSessions (s : State) (f : Power → Power) : (s.modPower f).spdmSessions = s.spdmSessions := rfl
@[simp] theorem modPower_spdmOut (s : State) (f : Power → Power) : (s.modPower f).spdmOut = s.spdmOut := rfl
@[simp] theorem modPower_entropyOk (s : State) (f : Power → Power) : (s.modPower f).entropyOk = s.entropyOk := rfl
@[simp] theorem modPower_groupAt (s : State) (f : Power → Power) : (s.modPower f).groupAt = s.groupAt := rfl
@[simp] theorem modPower_groupRecs (s : State) (f : Power → Power) : (s.modPower f).groupRecs = s.groupRecs := rfl
@[simp] theorem modPower_storeHdr (s : State) (f : Power → Power) : (s.modPower f).storeHdr = s.storeHdr := rfl
@[simp] theorem modPower_storeNext (s : State) (f : Power → Power) : (s.modPower f).storeNext = s.storeNext := rfl
@[simp] theorem modPower_wearRateMax (s : State) (f : Power → Power) : (s.modPower f).wearRateMax = s.wearRateMax := rfl
@[simp] theorem modPower_nvm (s : State) (f : Power → Power) : (s.modPower f).nvm = s.nvm := rfl
@[simp] theorem modPower_power (s : State) (f : Power → Power) : (s.modPower f).power = f s.power := rfl
@[simp] theorem modPower_start (s : State) (f : Power → Power) : (s.modPower f).start = s.start := rfl
@[simp] theorem modPower_recorder (s : State) (f : Power → Power) : (s.modPower f).recorder = s.recorder := rfl
@[simp] theorem modPower_fences (s : State) (f : Power → Power) : (s.modPower f).fences = s.fences := rfl
@[simp] theorem modPower_fenceCounts (s : State) (f : Power → Power) : (s.modPower f).fenceCounts = s.fenceCounts := rfl
@[simp] theorem modPower_fenceSoon (s : State) (f : Power → Power) : (s.modPower f).fenceSoon = s.fenceSoon := rfl
@[simp] theorem modPower_test (s : State) (f : Power → Power) : (s.modPower f).test = s.test := rfl
@[simp] theorem modPower_unfence (s : State) (f : Power → Power) : (s.modPower f).unfence = s.unfence := rfl
@[simp] theorem modPower_mgmt (s : State) (f : Power → Power) : (s.modPower f).mgmt = s.mgmt := rfl
@[simp] theorem modPower_fresh (s : State) (f : Power → Power) : (s.modPower f).fresh = s.fresh := rfl
@[simp] theorem modPower_pending (s : State) (f : Power → Power) : (s.modPower f).pending = s.pending := rfl

/-! ### modCourse -/

@[simp] theorem modCourse_part (s : State) (f : Course → Course) : (s.modCourse f).part = s.part := rfl
@[simp] theorem modCourse_pins (s : State) (f : Course → Course) : (s.modCourse f).pins = s.pins := rfl
@[simp] theorem modCourse_regs (s : State) (f : Course → Course) : (s.modCourse f).regs = s.regs := rfl
@[simp] theorem modCourse_latches (s : State) (f : Course → Course) : (s.modCourse f).latches = s.latches := rfl
@[simp] theorem modCourse_busRead (s : State) (f : Course → Course) : (s.modCourse f).busRead = s.busRead := rfl
@[simp] theorem modCourse_course (s : State) (f : Course → Course) : (s.modCourse f).course = f s.course := rfl
@[simp] theorem modCourse_dual (s : State) (f : Course → Course) : (s.modCourse f).dual = s.dual := rfl
@[simp] theorem modCourse_links (s : State) (f : Course → Course) : (s.modCourse f).links = s.links := rfl
@[simp] theorem modCourse_ctrls (s : State) (f : Course → Course) : (s.modCourse f).ctrls = s.ctrls := rfl
@[simp] theorem modCourse_inflight (s : State) (f : Course → Course) : (s.modCourse f).inflight = s.inflight := rfl
@[simp] theorem modCourse_order (s : State) (f : Course → Course) : (s.modCourse f).order = s.order := rfl
@[simp] theorem modCourse_namespaces (s : State) (f : Course → Course) : (s.modCourse f).namespaces = s.namespaces := rfl
@[simp] theorem modCourse_tenants (s : State) (f : Course → Course) : (s.modCourse f).tenants = s.tenants := rfl
@[simp] theorem modCourse_leaving (s : State) (f : Course → Course) : (s.modCourse f).leaving = s.leaving := rfl
@[simp] theorem modCourse_deferred (s : State) (f : Course → Course) : (s.modCourse f).deferred = s.deferred := rfl
@[simp] theorem modCourse_migs (s : State) (f : Course → Course) : (s.modCourse f).migs = s.migs := rfl
@[simp] theorem modCourse_slotWaits (s : State) (f : Course → Course) : (s.modCourse f).slotWaits = s.slotWaits := rfl
@[simp] theorem modCourse_slices (s : State) (f : Course → Course) : (s.modCourse f).slices = s.slices := rfl
@[simp] theorem modCourse_invocations (s : State) (f : Course → Course) : (s.modCourse f).invocations = s.invocations := rfl
@[simp] theorem modCourse_nextInv (s : State) (f : Course → Course) : (s.modCourse f).nextInv = s.nextInv := rfl
@[simp] theorem modCourse_hd (s : State) (f : Course → Course) : (s.modCourse f).hd = s.hd := rfl
@[simp] theorem modCourse_parks (s : State) (f : Course → Course) : (s.modCourse f).parks = s.parks := rfl
@[simp] theorem modCourse_hdQueue (s : State) (f : Course → Course) : (s.modCourse f).hdQueue = s.hdQueue := rfl
@[simp] theorem modCourse_ats (s : State) (f : Course → Course) : (s.modCourse f).ats = s.ats := rfl
@[simp] theorem modCourse_digests (s : State) (f : Course → Course) : (s.modCourse f).digests = s.digests := rfl
@[simp] theorem modCourse_digestWaits (s : State) (f : Course → Course) : (s.modCourse f).digestWaits = s.digestWaits := rfl
@[simp] theorem modCourse_digestOut (s : State) (f : Course → Course) : (s.modCourse f).digestOut = s.digestOut := rfl
@[simp] theorem modCourse_hubKey (s : State) (f : Course → Course) : (s.modCourse f).hubKey = s.hubKey := rfl
@[simp] theorem modCourse_meas (s : State) (f : Course → Course) : (s.modCourse f).meas = s.meas := rfl
@[simp] theorem modCourse_measLog (s : State) (f : Course → Course) : (s.modCourse f).measLog = s.measLog := rfl
@[simp] theorem modCourse_measSeq (s : State) (f : Course → Course) : (s.modCourse f).measSeq = s.measSeq := rfl
@[simp] theorem modCourse_staged (s : State) (f : Course → Course) : (s.modCourse f).staged = s.staged := rfl
@[simp] theorem modCourse_spdmPeers (s : State) (f : Course → Course) : (s.modCourse f).spdmPeers = s.spdmPeers := rfl
@[simp] theorem modCourse_spdmSessions (s : State) (f : Course → Course) : (s.modCourse f).spdmSessions = s.spdmSessions := rfl
@[simp] theorem modCourse_spdmOut (s : State) (f : Course → Course) : (s.modCourse f).spdmOut = s.spdmOut := rfl
@[simp] theorem modCourse_entropyOk (s : State) (f : Course → Course) : (s.modCourse f).entropyOk = s.entropyOk := rfl
@[simp] theorem modCourse_groupAt (s : State) (f : Course → Course) : (s.modCourse f).groupAt = s.groupAt := rfl
@[simp] theorem modCourse_groupRecs (s : State) (f : Course → Course) : (s.modCourse f).groupRecs = s.groupRecs := rfl
@[simp] theorem modCourse_storeHdr (s : State) (f : Course → Course) : (s.modCourse f).storeHdr = s.storeHdr := rfl
@[simp] theorem modCourse_storeNext (s : State) (f : Course → Course) : (s.modCourse f).storeNext = s.storeNext := rfl
@[simp] theorem modCourse_wearRateMax (s : State) (f : Course → Course) : (s.modCourse f).wearRateMax = s.wearRateMax := rfl
@[simp] theorem modCourse_nvm (s : State) (f : Course → Course) : (s.modCourse f).nvm = s.nvm := rfl
@[simp] theorem modCourse_power (s : State) (f : Course → Course) : (s.modCourse f).power = s.power := rfl
@[simp] theorem modCourse_start (s : State) (f : Course → Course) : (s.modCourse f).start = s.start := rfl
@[simp] theorem modCourse_recorder (s : State) (f : Course → Course) : (s.modCourse f).recorder = s.recorder := rfl
@[simp] theorem modCourse_fences (s : State) (f : Course → Course) : (s.modCourse f).fences = s.fences := rfl
@[simp] theorem modCourse_fenceCounts (s : State) (f : Course → Course) : (s.modCourse f).fenceCounts = s.fenceCounts := rfl
@[simp] theorem modCourse_fenceSoon (s : State) (f : Course → Course) : (s.modCourse f).fenceSoon = s.fenceSoon := rfl
@[simp] theorem modCourse_test (s : State) (f : Course → Course) : (s.modCourse f).test = s.test := rfl
@[simp] theorem modCourse_unfence (s : State) (f : Course → Course) : (s.modCourse f).unfence = s.unfence := rfl
@[simp] theorem modCourse_mgmt (s : State) (f : Course → Course) : (s.modCourse f).mgmt = s.mgmt := rfl
@[simp] theorem modCourse_fresh (s : State) (f : Course → Course) : (s.modCourse f).fresh = s.fresh := rfl
@[simp] theorem modCourse_pending (s : State) (f : Course → Course) : (s.modCourse f).pending = s.pending := rfl

/-! ### modRec -/

@[simp] theorem modRec_part (s : State) (f : Recorder → Recorder) : (s.modRec f).part = s.part := rfl
@[simp] theorem modRec_pins (s : State) (f : Recorder → Recorder) : (s.modRec f).pins = s.pins := rfl
@[simp] theorem modRec_regs (s : State) (f : Recorder → Recorder) : (s.modRec f).regs = s.regs := rfl
@[simp] theorem modRec_latches (s : State) (f : Recorder → Recorder) : (s.modRec f).latches = s.latches := rfl
@[simp] theorem modRec_busRead (s : State) (f : Recorder → Recorder) : (s.modRec f).busRead = s.busRead := rfl
@[simp] theorem modRec_course (s : State) (f : Recorder → Recorder) : (s.modRec f).course = s.course := rfl
@[simp] theorem modRec_dual (s : State) (f : Recorder → Recorder) : (s.modRec f).dual = s.dual := rfl
@[simp] theorem modRec_links (s : State) (f : Recorder → Recorder) : (s.modRec f).links = s.links := rfl
@[simp] theorem modRec_ctrls (s : State) (f : Recorder → Recorder) : (s.modRec f).ctrls = s.ctrls := rfl
@[simp] theorem modRec_inflight (s : State) (f : Recorder → Recorder) : (s.modRec f).inflight = s.inflight := rfl
@[simp] theorem modRec_order (s : State) (f : Recorder → Recorder) : (s.modRec f).order = s.order := rfl
@[simp] theorem modRec_namespaces (s : State) (f : Recorder → Recorder) : (s.modRec f).namespaces = s.namespaces := rfl
@[simp] theorem modRec_tenants (s : State) (f : Recorder → Recorder) : (s.modRec f).tenants = s.tenants := rfl
@[simp] theorem modRec_leaving (s : State) (f : Recorder → Recorder) : (s.modRec f).leaving = s.leaving := rfl
@[simp] theorem modRec_deferred (s : State) (f : Recorder → Recorder) : (s.modRec f).deferred = s.deferred := rfl
@[simp] theorem modRec_migs (s : State) (f : Recorder → Recorder) : (s.modRec f).migs = s.migs := rfl
@[simp] theorem modRec_slotWaits (s : State) (f : Recorder → Recorder) : (s.modRec f).slotWaits = s.slotWaits := rfl
@[simp] theorem modRec_slices (s : State) (f : Recorder → Recorder) : (s.modRec f).slices = s.slices := rfl
@[simp] theorem modRec_invocations (s : State) (f : Recorder → Recorder) : (s.modRec f).invocations = s.invocations := rfl
@[simp] theorem modRec_nextInv (s : State) (f : Recorder → Recorder) : (s.modRec f).nextInv = s.nextInv := rfl
@[simp] theorem modRec_hd (s : State) (f : Recorder → Recorder) : (s.modRec f).hd = s.hd := rfl
@[simp] theorem modRec_parks (s : State) (f : Recorder → Recorder) : (s.modRec f).parks = s.parks := rfl
@[simp] theorem modRec_hdQueue (s : State) (f : Recorder → Recorder) : (s.modRec f).hdQueue = s.hdQueue := rfl
@[simp] theorem modRec_ats (s : State) (f : Recorder → Recorder) : (s.modRec f).ats = s.ats := rfl
@[simp] theorem modRec_digests (s : State) (f : Recorder → Recorder) : (s.modRec f).digests = s.digests := rfl
@[simp] theorem modRec_digestWaits (s : State) (f : Recorder → Recorder) : (s.modRec f).digestWaits = s.digestWaits := rfl
@[simp] theorem modRec_digestOut (s : State) (f : Recorder → Recorder) : (s.modRec f).digestOut = s.digestOut := rfl
@[simp] theorem modRec_hubKey (s : State) (f : Recorder → Recorder) : (s.modRec f).hubKey = s.hubKey := rfl
@[simp] theorem modRec_meas (s : State) (f : Recorder → Recorder) : (s.modRec f).meas = s.meas := rfl
@[simp] theorem modRec_measLog (s : State) (f : Recorder → Recorder) : (s.modRec f).measLog = s.measLog := rfl
@[simp] theorem modRec_measSeq (s : State) (f : Recorder → Recorder) : (s.modRec f).measSeq = s.measSeq := rfl
@[simp] theorem modRec_staged (s : State) (f : Recorder → Recorder) : (s.modRec f).staged = s.staged := rfl
@[simp] theorem modRec_spdmPeers (s : State) (f : Recorder → Recorder) : (s.modRec f).spdmPeers = s.spdmPeers := rfl
@[simp] theorem modRec_spdmSessions (s : State) (f : Recorder → Recorder) : (s.modRec f).spdmSessions = s.spdmSessions := rfl
@[simp] theorem modRec_spdmOut (s : State) (f : Recorder → Recorder) : (s.modRec f).spdmOut = s.spdmOut := rfl
@[simp] theorem modRec_entropyOk (s : State) (f : Recorder → Recorder) : (s.modRec f).entropyOk = s.entropyOk := rfl
@[simp] theorem modRec_groupAt (s : State) (f : Recorder → Recorder) : (s.modRec f).groupAt = s.groupAt := rfl
@[simp] theorem modRec_groupRecs (s : State) (f : Recorder → Recorder) : (s.modRec f).groupRecs = s.groupRecs := rfl
@[simp] theorem modRec_storeHdr (s : State) (f : Recorder → Recorder) : (s.modRec f).storeHdr = s.storeHdr := rfl
@[simp] theorem modRec_storeNext (s : State) (f : Recorder → Recorder) : (s.modRec f).storeNext = s.storeNext := rfl
@[simp] theorem modRec_wearRateMax (s : State) (f : Recorder → Recorder) : (s.modRec f).wearRateMax = s.wearRateMax := rfl
@[simp] theorem modRec_nvm (s : State) (f : Recorder → Recorder) : (s.modRec f).nvm = s.nvm := rfl
@[simp] theorem modRec_power (s : State) (f : Recorder → Recorder) : (s.modRec f).power = s.power := rfl
@[simp] theorem modRec_start (s : State) (f : Recorder → Recorder) : (s.modRec f).start = s.start := rfl
@[simp] theorem modRec_recorder (s : State) (f : Recorder → Recorder) : (s.modRec f).recorder = f s.recorder := rfl
@[simp] theorem modRec_fences (s : State) (f : Recorder → Recorder) : (s.modRec f).fences = s.fences := rfl
@[simp] theorem modRec_fenceCounts (s : State) (f : Recorder → Recorder) : (s.modRec f).fenceCounts = s.fenceCounts := rfl
@[simp] theorem modRec_fenceSoon (s : State) (f : Recorder → Recorder) : (s.modRec f).fenceSoon = s.fenceSoon := rfl
@[simp] theorem modRec_test (s : State) (f : Recorder → Recorder) : (s.modRec f).test = s.test := rfl
@[simp] theorem modRec_unfence (s : State) (f : Recorder → Recorder) : (s.modRec f).unfence = s.unfence := rfl
@[simp] theorem modRec_mgmt (s : State) (f : Recorder → Recorder) : (s.modRec f).mgmt = s.mgmt := rfl
@[simp] theorem modRec_fresh (s : State) (f : Recorder → Recorder) : (s.modRec f).fresh = s.fresh := rfl
@[simp] theorem modRec_pending (s : State) (f : Recorder → Recorder) : (s.modRec f).pending = s.pending := rfl

/-! ### modHd -/

@[simp] theorem modHd_part (s : State) (c : Nat) (f : HdCh → HdCh) : (s.modHd c f).part = s.part := rfl
@[simp] theorem modHd_pins (s : State) (c : Nat) (f : HdCh → HdCh) : (s.modHd c f).pins = s.pins := rfl
@[simp] theorem modHd_regs (s : State) (c : Nat) (f : HdCh → HdCh) : (s.modHd c f).regs = s.regs := rfl
@[simp] theorem modHd_latches (s : State) (c : Nat) (f : HdCh → HdCh) : (s.modHd c f).latches = s.latches := rfl
@[simp] theorem modHd_busRead (s : State) (c : Nat) (f : HdCh → HdCh) : (s.modHd c f).busRead = s.busRead := rfl
@[simp] theorem modHd_course (s : State) (c : Nat) (f : HdCh → HdCh) : (s.modHd c f).course = s.course := rfl
@[simp] theorem modHd_dual (s : State) (c : Nat) (f : HdCh → HdCh) : (s.modHd c f).dual = s.dual := rfl
@[simp] theorem modHd_links (s : State) (c : Nat) (f : HdCh → HdCh) : (s.modHd c f).links = s.links := rfl
@[simp] theorem modHd_ctrls (s : State) (c : Nat) (f : HdCh → HdCh) : (s.modHd c f).ctrls = s.ctrls := rfl
@[simp] theorem modHd_inflight (s : State) (c : Nat) (f : HdCh → HdCh) : (s.modHd c f).inflight = s.inflight := rfl
@[simp] theorem modHd_order (s : State) (c : Nat) (f : HdCh → HdCh) : (s.modHd c f).order = s.order := rfl
@[simp] theorem modHd_namespaces (s : State) (c : Nat) (f : HdCh → HdCh) : (s.modHd c f).namespaces = s.namespaces := rfl
@[simp] theorem modHd_tenants (s : State) (c : Nat) (f : HdCh → HdCh) : (s.modHd c f).tenants = s.tenants := rfl
@[simp] theorem modHd_leaving (s : State) (c : Nat) (f : HdCh → HdCh) : (s.modHd c f).leaving = s.leaving := rfl
@[simp] theorem modHd_deferred (s : State) (c : Nat) (f : HdCh → HdCh) : (s.modHd c f).deferred = s.deferred := rfl
@[simp] theorem modHd_migs (s : State) (c : Nat) (f : HdCh → HdCh) : (s.modHd c f).migs = s.migs := rfl
@[simp] theorem modHd_slotWaits (s : State) (c : Nat) (f : HdCh → HdCh) : (s.modHd c f).slotWaits = s.slotWaits := rfl
@[simp] theorem modHd_slices (s : State) (c : Nat) (f : HdCh → HdCh) : (s.modHd c f).slices = s.slices := rfl
@[simp] theorem modHd_invocations (s : State) (c : Nat) (f : HdCh → HdCh) : (s.modHd c f).invocations = s.invocations := rfl
@[simp] theorem modHd_nextInv (s : State) (c : Nat) (f : HdCh → HdCh) : (s.modHd c f).nextInv = s.nextInv := rfl
@[simp] theorem modHd_hd (s : State) (c : Nat) (f : HdCh → HdCh) : (s.modHd c f).hd = modAt s.hd c f := rfl
@[simp] theorem modHd_parks (s : State) (c : Nat) (f : HdCh → HdCh) : (s.modHd c f).parks = s.parks := rfl
@[simp] theorem modHd_hdQueue (s : State) (c : Nat) (f : HdCh → HdCh) : (s.modHd c f).hdQueue = s.hdQueue := rfl
@[simp] theorem modHd_ats (s : State) (c : Nat) (f : HdCh → HdCh) : (s.modHd c f).ats = s.ats := rfl
@[simp] theorem modHd_digests (s : State) (c : Nat) (f : HdCh → HdCh) : (s.modHd c f).digests = s.digests := rfl
@[simp] theorem modHd_digestWaits (s : State) (c : Nat) (f : HdCh → HdCh) : (s.modHd c f).digestWaits = s.digestWaits := rfl
@[simp] theorem modHd_digestOut (s : State) (c : Nat) (f : HdCh → HdCh) : (s.modHd c f).digestOut = s.digestOut := rfl
@[simp] theorem modHd_hubKey (s : State) (c : Nat) (f : HdCh → HdCh) : (s.modHd c f).hubKey = s.hubKey := rfl
@[simp] theorem modHd_meas (s : State) (c : Nat) (f : HdCh → HdCh) : (s.modHd c f).meas = s.meas := rfl
@[simp] theorem modHd_measLog (s : State) (c : Nat) (f : HdCh → HdCh) : (s.modHd c f).measLog = s.measLog := rfl
@[simp] theorem modHd_measSeq (s : State) (c : Nat) (f : HdCh → HdCh) : (s.modHd c f).measSeq = s.measSeq := rfl
@[simp] theorem modHd_staged (s : State) (c : Nat) (f : HdCh → HdCh) : (s.modHd c f).staged = s.staged := rfl
@[simp] theorem modHd_spdmPeers (s : State) (c : Nat) (f : HdCh → HdCh) : (s.modHd c f).spdmPeers = s.spdmPeers := rfl
@[simp] theorem modHd_spdmSessions (s : State) (c : Nat) (f : HdCh → HdCh) : (s.modHd c f).spdmSessions = s.spdmSessions := rfl
@[simp] theorem modHd_spdmOut (s : State) (c : Nat) (f : HdCh → HdCh) : (s.modHd c f).spdmOut = s.spdmOut := rfl
@[simp] theorem modHd_entropyOk (s : State) (c : Nat) (f : HdCh → HdCh) : (s.modHd c f).entropyOk = s.entropyOk := rfl
@[simp] theorem modHd_groupAt (s : State) (c : Nat) (f : HdCh → HdCh) : (s.modHd c f).groupAt = s.groupAt := rfl
@[simp] theorem modHd_groupRecs (s : State) (c : Nat) (f : HdCh → HdCh) : (s.modHd c f).groupRecs = s.groupRecs := rfl
@[simp] theorem modHd_storeHdr (s : State) (c : Nat) (f : HdCh → HdCh) : (s.modHd c f).storeHdr = s.storeHdr := rfl
@[simp] theorem modHd_storeNext (s : State) (c : Nat) (f : HdCh → HdCh) : (s.modHd c f).storeNext = s.storeNext := rfl
@[simp] theorem modHd_wearRateMax (s : State) (c : Nat) (f : HdCh → HdCh) : (s.modHd c f).wearRateMax = s.wearRateMax := rfl
@[simp] theorem modHd_nvm (s : State) (c : Nat) (f : HdCh → HdCh) : (s.modHd c f).nvm = s.nvm := rfl
@[simp] theorem modHd_power (s : State) (c : Nat) (f : HdCh → HdCh) : (s.modHd c f).power = s.power := rfl
@[simp] theorem modHd_start (s : State) (c : Nat) (f : HdCh → HdCh) : (s.modHd c f).start = s.start := rfl
@[simp] theorem modHd_recorder (s : State) (c : Nat) (f : HdCh → HdCh) : (s.modHd c f).recorder = s.recorder := rfl
@[simp] theorem modHd_fences (s : State) (c : Nat) (f : HdCh → HdCh) : (s.modHd c f).fences = s.fences := rfl
@[simp] theorem modHd_fenceCounts (s : State) (c : Nat) (f : HdCh → HdCh) : (s.modHd c f).fenceCounts = s.fenceCounts := rfl
@[simp] theorem modHd_fenceSoon (s : State) (c : Nat) (f : HdCh → HdCh) : (s.modHd c f).fenceSoon = s.fenceSoon := rfl
@[simp] theorem modHd_test (s : State) (c : Nat) (f : HdCh → HdCh) : (s.modHd c f).test = s.test := rfl
@[simp] theorem modHd_unfence (s : State) (c : Nat) (f : HdCh → HdCh) : (s.modHd c f).unfence = s.unfence := rfl
@[simp] theorem modHd_mgmt (s : State) (c : Nat) (f : HdCh → HdCh) : (s.modHd c f).mgmt = s.mgmt := rfl
@[simp] theorem modHd_fresh (s : State) (c : Nat) (f : HdCh → HdCh) : (s.modHd c f).fresh = s.fresh := rfl
@[simp] theorem modHd_pending (s : State) (c : Nat) (f : HdCh → HdCh) : (s.modHd c f).pending = s.pending := rfl

/-! ### free -/

@[simp] theorem free_part (s : State) : (s.free.2).part = s.part := rfl
@[simp] theorem free_pins (s : State) : (s.free.2).pins = s.pins := rfl
@[simp] theorem free_regs (s : State) : (s.free.2).regs = s.regs := rfl
@[simp] theorem free_latches (s : State) : (s.free.2).latches = s.latches := rfl
@[simp] theorem free_busRead (s : State) : (s.free.2).busRead = s.busRead := rfl
@[simp] theorem free_course (s : State) : (s.free.2).course = s.course := rfl
@[simp] theorem free_dual (s : State) : (s.free.2).dual = s.dual := rfl
@[simp] theorem free_links (s : State) : (s.free.2).links = s.links := rfl
@[simp] theorem free_ctrls (s : State) : (s.free.2).ctrls = s.ctrls := rfl
@[simp] theorem free_inflight (s : State) : (s.free.2).inflight = s.inflight := rfl
@[simp] theorem free_order (s : State) : (s.free.2).order = s.order := rfl
@[simp] theorem free_namespaces (s : State) : (s.free.2).namespaces = s.namespaces := rfl
@[simp] theorem free_tenants (s : State) : (s.free.2).tenants = s.tenants := rfl
@[simp] theorem free_leaving (s : State) : (s.free.2).leaving = s.leaving := rfl
@[simp] theorem free_deferred (s : State) : (s.free.2).deferred = s.deferred := rfl
@[simp] theorem free_migs (s : State) : (s.free.2).migs = s.migs := rfl
@[simp] theorem free_slotWaits (s : State) : (s.free.2).slotWaits = s.slotWaits := rfl
@[simp] theorem free_slices (s : State) : (s.free.2).slices = s.slices := rfl
@[simp] theorem free_invocations (s : State) : (s.free.2).invocations = s.invocations := rfl
@[simp] theorem free_nextInv (s : State) : (s.free.2).nextInv = s.nextInv := rfl
@[simp] theorem free_hd (s : State) : (s.free.2).hd = s.hd := rfl
@[simp] theorem free_parks (s : State) : (s.free.2).parks = s.parks := rfl
@[simp] theorem free_hdQueue (s : State) : (s.free.2).hdQueue = s.hdQueue := rfl
@[simp] theorem free_ats (s : State) : (s.free.2).ats = s.ats := rfl
@[simp] theorem free_digests (s : State) : (s.free.2).digests = s.digests := rfl
@[simp] theorem free_digestWaits (s : State) : (s.free.2).digestWaits = s.digestWaits := rfl
@[simp] theorem free_digestOut (s : State) : (s.free.2).digestOut = s.digestOut := rfl
@[simp] theorem free_hubKey (s : State) : (s.free.2).hubKey = s.hubKey := rfl
@[simp] theorem free_meas (s : State) : (s.free.2).meas = s.meas := rfl
@[simp] theorem free_measLog (s : State) : (s.free.2).measLog = s.measLog := rfl
@[simp] theorem free_measSeq (s : State) : (s.free.2).measSeq = s.measSeq := rfl
@[simp] theorem free_staged (s : State) : (s.free.2).staged = s.staged := rfl
@[simp] theorem free_spdmPeers (s : State) : (s.free.2).spdmPeers = s.spdmPeers := rfl
@[simp] theorem free_spdmSessions (s : State) : (s.free.2).spdmSessions = s.spdmSessions := rfl
@[simp] theorem free_spdmOut (s : State) : (s.free.2).spdmOut = s.spdmOut := rfl
@[simp] theorem free_entropyOk (s : State) : (s.free.2).entropyOk = s.entropyOk := rfl
@[simp] theorem free_groupAt (s : State) : (s.free.2).groupAt = s.groupAt := rfl
@[simp] theorem free_groupRecs (s : State) : (s.free.2).groupRecs = s.groupRecs := rfl
@[simp] theorem free_storeHdr (s : State) : (s.free.2).storeHdr = s.storeHdr := rfl
@[simp] theorem free_storeNext (s : State) : (s.free.2).storeNext = s.storeNext := rfl
@[simp] theorem free_wearRateMax (s : State) : (s.free.2).wearRateMax = s.wearRateMax := rfl
@[simp] theorem free_nvm (s : State) : (s.free.2).nvm = s.nvm := rfl
@[simp] theorem free_power (s : State) : (s.free.2).power = s.power := rfl
@[simp] theorem free_start (s : State) : (s.free.2).start = s.start := rfl
@[simp] theorem free_recorder (s : State) : (s.free.2).recorder = s.recorder := rfl
@[simp] theorem free_fences (s : State) : (s.free.2).fences = s.fences := rfl
@[simp] theorem free_fenceCounts (s : State) : (s.free.2).fenceCounts = s.fenceCounts := rfl
@[simp] theorem free_fenceSoon (s : State) : (s.free.2).fenceSoon = s.fenceSoon := rfl
@[simp] theorem free_test (s : State) : (s.free.2).test = s.test := rfl
@[simp] theorem free_unfence (s : State) : (s.free.2).unfence = s.unfence := rfl
@[simp] theorem free_mgmt (s : State) : (s.free.2).mgmt = s.mgmt := rfl
@[simp] theorem free_fresh (s : State) : (s.free.2).fresh = s.fresh + 1 := rfl
@[simp] theorem free_pending (s : State) : (s.free.2).pending = s.pending := rfl

/-! ### random -/

@[simp] theorem random_part (s : State) : (s.random.2).part = s.part := rfl
@[simp] theorem random_pins (s : State) : (s.random.2).pins = s.pins := rfl
@[simp] theorem random_regs (s : State) : (s.random.2).regs = s.regs := rfl
@[simp] theorem random_latches (s : State) : (s.random.2).latches = s.latches := rfl
@[simp] theorem random_busRead (s : State) : (s.random.2).busRead = s.busRead := rfl
@[simp] theorem random_course (s : State) : (s.random.2).course = s.course := rfl
@[simp] theorem random_dual (s : State) : (s.random.2).dual = s.dual := rfl
@[simp] theorem random_links (s : State) : (s.random.2).links = s.links := rfl
@[simp] theorem random_ctrls (s : State) : (s.random.2).ctrls = s.ctrls := rfl
@[simp] theorem random_inflight (s : State) : (s.random.2).inflight = s.inflight := rfl
@[simp] theorem random_order (s : State) : (s.random.2).order = s.order := rfl
@[simp] theorem random_namespaces (s : State) : (s.random.2).namespaces = s.namespaces := rfl
@[simp] theorem random_tenants (s : State) : (s.random.2).tenants = s.tenants := rfl
@[simp] theorem random_leaving (s : State) : (s.random.2).leaving = s.leaving := rfl
@[simp] theorem random_deferred (s : State) : (s.random.2).deferred = s.deferred := rfl
@[simp] theorem random_migs (s : State) : (s.random.2).migs = s.migs := rfl
@[simp] theorem random_slotWaits (s : State) : (s.random.2).slotWaits = s.slotWaits := rfl
@[simp] theorem random_slices (s : State) : (s.random.2).slices = s.slices := rfl
@[simp] theorem random_invocations (s : State) : (s.random.2).invocations = s.invocations := rfl
@[simp] theorem random_nextInv (s : State) : (s.random.2).nextInv = s.nextInv := rfl
@[simp] theorem random_hd (s : State) : (s.random.2).hd = s.hd := rfl
@[simp] theorem random_parks (s : State) : (s.random.2).parks = s.parks := rfl
@[simp] theorem random_hdQueue (s : State) : (s.random.2).hdQueue = s.hdQueue := rfl
@[simp] theorem random_ats (s : State) : (s.random.2).ats = s.ats := rfl
@[simp] theorem random_digests (s : State) : (s.random.2).digests = s.digests := rfl
@[simp] theorem random_digestWaits (s : State) : (s.random.2).digestWaits = s.digestWaits := rfl
@[simp] theorem random_digestOut (s : State) : (s.random.2).digestOut = s.digestOut := rfl
@[simp] theorem random_hubKey (s : State) : (s.random.2).hubKey = s.hubKey := rfl
@[simp] theorem random_meas (s : State) : (s.random.2).meas = s.meas := rfl
@[simp] theorem random_measLog (s : State) : (s.random.2).measLog = s.measLog := rfl
@[simp] theorem random_measSeq (s : State) : (s.random.2).measSeq = s.measSeq := rfl
@[simp] theorem random_staged (s : State) : (s.random.2).staged = s.staged := rfl
@[simp] theorem random_spdmPeers (s : State) : (s.random.2).spdmPeers = s.spdmPeers := rfl
@[simp] theorem random_spdmSessions (s : State) : (s.random.2).spdmSessions = s.spdmSessions := rfl
@[simp] theorem random_spdmOut (s : State) : (s.random.2).spdmOut = s.spdmOut := rfl
@[simp] theorem random_entropyOk (s : State) : (s.random.2).entropyOk = s.entropyOk := rfl
@[simp] theorem random_groupAt (s : State) : (s.random.2).groupAt = s.groupAt := rfl
@[simp] theorem random_groupRecs (s : State) : (s.random.2).groupRecs = s.groupRecs := rfl
@[simp] theorem random_storeHdr (s : State) : (s.random.2).storeHdr = s.storeHdr := rfl
@[simp] theorem random_storeNext (s : State) : (s.random.2).storeNext = s.storeNext := rfl
@[simp] theorem random_wearRateMax (s : State) : (s.random.2).wearRateMax = s.wearRateMax := rfl
@[simp] theorem random_nvm (s : State) : (s.random.2).nvm = s.nvm := rfl
@[simp] theorem random_power (s : State) : (s.random.2).power = s.power := rfl
@[simp] theorem random_start (s : State) : (s.random.2).start = s.start := rfl
@[simp] theorem random_recorder (s : State) : (s.random.2).recorder = s.recorder := rfl
@[simp] theorem random_fences (s : State) : (s.random.2).fences = s.fences := rfl
@[simp] theorem random_fenceCounts (s : State) : (s.random.2).fenceCounts = s.fenceCounts := rfl
@[simp] theorem random_fenceSoon (s : State) : (s.random.2).fenceSoon = s.fenceSoon := rfl
@[simp] theorem random_test (s : State) : (s.random.2).test = s.test := rfl
@[simp] theorem random_unfence (s : State) : (s.random.2).unfence = s.unfence := rfl
@[simp] theorem random_mgmt (s : State) : (s.random.2).mgmt = s.mgmt := rfl
@[simp] theorem random_fresh (s : State) : (s.random.2).fresh = s.fresh + 1 := rfl
@[simp] theorem random_pending (s : State) : (s.random.2).pending = s.pending := rfl

end Sys2Proof.Laws
end

