-- ==== Sys2Proof/Laws/Frame.lean ====
section
/-!
SUPPORT. What an operation may change. Frame F r s says that s came from r by changing no part of the state but those whose bit is set in
the mask F, and that the form of the state is kept. Part number i is the i-th constructor of Component, and so the i-th field of State;
bit 53 is the slice-local memory. Each operation has one lemma, whose mask says what it can change.
-/

namespace Sys2Proof.Laws

open Sys2Proof.Machine

universe u

/-- From r to s only the parts of mask F changed, and the form was kept. -/
structure Frame (F : Nat) (r s : State) : Prop where
  same : ∀ c : Component, F.testBit c.ctorIdx = false → c.Same r s
  shape : Shape r → Shape s

/-- Frame of a command's outcome: nothing is said where it stops. -/
structure FrameOut (F : Nat) (r : State) (o : Host.Outcome State Fault Refusal) : Prop where
  keeps : ∀ t, o = .next t → Frame F r t

/-- The mask of some parts. -/
def partMask (l : List Component) : Nat := l.foldl (fun m c => m ||| 2 ^ c.ctorIdx) 0

theorem Component.Same.refl (c : Component) (s : State) : c.Same s s := by cases c <;> rfl

theorem Component.Same.trans {c : Component} {r s t : State} (h : c.Same r s) (g : c.Same s t) : c.Same r t := by
  cases c <;> exact Eq.trans g h

theorem Frame.refl (F : Nat) (s : State) : Frame F s s := ⟨fun c _ => Component.Same.refl c s, id⟩

theorem bit_of_or {G F i : Nat} (m : G ||| F = F) (h : F.testBit i = false) : G.testBit i = false := by
  rw [← m, Nat.testBit_or] at h
  exact (Bool.or_eq_false_iff.mp h).1

theorem mask_or {A G F : Nat} (m : G ||| F = F) (h : A ||| G = G) : A ||| F = F := by
  rw [← m, ← Nat.or_assoc, h]

/-- What changes the parts of G comes within what changes those of F. -/
theorem Frame.comp {F G : Nat} {r s t : State} (h : Frame F r s) (g : Frame G s t) (m : G ||| F = F) : Frame F r t :=
  ⟨fun c b => Component.Same.trans (h.same c b) (g.same c (bit_of_or m b)), fun i => g.shape (h.shape i)⟩

theorem FrameOut.comp {F G : Nat} {r s : State} {o : Host.Outcome State Fault Refusal} (h : Frame F r s) (g : FrameOut G s o)
    (m : G ||| F = F) : FrameOut F r o :=
  ⟨fun t e => h.comp (g.keeps t e) m⟩

theorem Frame.next {F : Nat} {r s : State} (h : Frame F r s) : FrameOut F r (.next s) := ⟨fun _ e => by cases e; exact h⟩

theorem Frame.stop {F : Nat} {r : State} (f : Fault) : FrameOut F r (.fault f) := ⟨fun _ e => by cases e⟩

theorem Frame.ite {F : Nat} {r a b : State} {c : Prop} [Decidable c] (ha : Frame F r a) (hb : Frame F r b) :
    Frame F r (if c then a else b) := by
  split <;> assumption

theorem Frame.foldl {F : Nat} {r : State} {α : Type} {f : State → α → State} (l : List α) (s : State) (h : Frame F r s)
    (hf : ∀ t a, Frame F r t → Frame F r (f t a)) : Frame F r (l.foldl f s) := by
  induction l generalizing s with
  | nil => exact h
  | cons a l ih => exact ih _ (hf _ _ h)

/-- The state in a pair that a match took apart. -/
theorem Frame.of_snd {F : Nat} {r s : State} {α : Type} {p : α × State} {a : α} (e : p = (a, s)) (h : Frame F r p.2) : Frame F r s := by
  rw [e] at h
  exact h

theorem Frame.of_fst {F : Nat} {r s : State} {α : Type} {p : State × α} {a : α} (e : p = (s, a)) (h : Frame F r p.1) : Frame F r s := by
  rw [e] at h
  exact h

theorem Frame.foldl_fst {F : Nat} {r : State} {α β : Type} {f : State × β → α → State × β} (l : List α)
    (s : State × β)
    (h : Frame F r s.1) (hf : ∀ t a, Frame F r t.1 → Frame F r (f t a).1) : Frame F r (l.foldl f s).1 := by
  induction l generalizing s with
  | nil => exact h
  | cons a l ih => exact ih _ (hf _ _ h)

theorem Frame.foldl_snd {F : Nat} {r : State} {α β : Type} {f : β × State → α → β × State} (l : List α)
    (s : β × State)
    (h : Frame F r s.2) (hf : ∀ t a, Frame F r t.2 → Frame F r (f t a).2) : Frame F r (l.foldl f s).2 := by
  induction l generalizing s with
  | nil => exact h
  | cons a l ih => exact ih _ (hf _ _ h)

/-- A frame says which parts are the only ones that change. -/
theorem Frame.only {F : Nat} {r s : State} (h : Frame F r s) (l : List Component)
    (m : ∀ c : Component, c ∉ l → F.testBit c.ctorIdx = false) : OnlyChanges l r s :=
  fun c hc => h.same c (m c hc)

/-! ### Slices -/

/-- A change of a slice that keeps its memory canonical. -/
structure SlmOk (f : Slice → Slice) : Prop where
  keeps : ∀ x, Memory.wf x.slm = true → Memory.wf (f x).slm = true

/-- A change of a slice that leaves its memory alone. -/
structure SlmSame (f : Slice → Slice) : Prop where
  of :: same : ∀ x, (f x).slm = x.slm

theorem slmOk_nil (f : Slice → Slice) (h : ∀ x, (f x).slm = []) : SlmOk f := ⟨fun x _ => by rw [h]; rfl⟩

theorem SlmSame.ok {f : Slice → Slice} (h : SlmSame f) : SlmOk f := ⟨fun x hx => by rw [h.same]; exact hx⟩

theorem modSlice_mem {F0 : Nat} {r0 s : State} (n : Nat) (f : Slice → Slice) (hr0 : Frame F0 r0 s)
    (m0 : 0x20000000020000 ||| F0 = F0) (hf : SlmOk f) : Frame F0 r0 (s.modSlice n f) := by
  refine hr0.comp (G := 0x20000000020000) ⟨fun c h => by cases c <;> first | rfl | exact absurd h (by decide), fun i => ?_⟩ m0
  refine ⟨i.regs, (modAt_length _ _ _).trans i.slices, i.hd, i.meas, i.links, fun x hx => ?_⟩
  rcases modAt_mem hx with e | ⟨y, hy, e⟩
  · exact i.slm x e
  · exact e ▸ hf.keeps y (i.slm y hy)

theorem modSlice_frame {F0 : Nat} {r0 s : State} (n : Nat) (f : Slice → Slice) (hr0 : Frame F0 r0 s) (m0 : 0x20000 ||| F0 = F0)
    (hf : SlmSame f) : Frame F0 r0 (s.modSlice n f) := by
  refine hr0.comp (G := 0x20000) ⟨fun c h => ?_, (modSlice_mem n f (Frame.refl 0x20000000020000 s) rfl hf.ok).shape⟩ m0
  cases c <;> first | rfl | exact absurd h (by decide) | exact modAt_map _ _ _ _ hf.same

theorem mapSlices_frame {F0 : Nat} {r0 s : State} (f : Slice → Slice) (hr0 : Frame F0 r0 s) (m0 : 0x20000 ||| F0 = F0)
    (hf : SlmSame f) : Frame F0 r0 (s.mapSlices f) := by
  refine hr0.comp (G := 0x20000) ⟨fun c h => ?_, fun i => ?_⟩ m0
  · cases c <;> first | rfl | exact absurd h (by decide) | simp [Component.Same, State.mapSlices, Function.comp_def, hf.same]
  · refine ⟨i.regs, (List.length_map _).trans i.slices, i.hd, i.meas, i.links, fun x hx => ?_⟩
    obtain ⟨y, hy, e⟩ := List.mem_map.mp hx
    exact e ▸ hf.ok.keeps y (i.slm y hy)

theorem slm_foldl {α : Type} (f : Slice → α → Slice) (h : ∀ x a, (f x a).slm = x.slm) (l : List α) (x : Slice) :
    (l.foldl f x).slm = x.slm := by
  induction l generalizing x with
  | nil => rfl
  | cons a l ih => exact (ih _).trans (h x a)

theorem slm_foldr {α : Type} (f : α → Slice → Slice) (h : ∀ x a, (f a x).slm = x.slm) (l : List α) (x : Slice) :
    (l.foldr f x).slm = x.slm := by
  induction l generalizing x with
  | nil => rfl
  | cons a l ih => exact (h _ a).trans (ih x)

@[simp] theorem modBlock_slm (x : Slice) (l b : Nat) (f : BlockInfo → BlockInfo) : (x.modBlock l b f).slm = x.slm := rfl
@[simp] theorem modSuper_slm (x : Slice) (q : Nat) (f : Superblock → Superblock) : (x.modSuper q f).slm = x.slm := rfl
@[simp] theorem modReserve_slm (x : Slice) (l b : Nat) (f : ResBlock → ResBlock) : (x.modReserve l b f).slm = x.slm := rfl
@[simp] theorem modVersion_slm (x : Slice) (w : Nat) (f : Version → Version) : (x.modVersion w f).slm = x.slm := rfl
@[simp] theorem setEntry_slm (x : Slice) (i : Nat) (e : Entry) : (x.setEntry i e).slm = x.slm := rfl
@[simp] theorem switch_slm (x : Slice) (i : Nat) (e : Entry) : (x.switch i e).slm = x.slm := rfl
@[simp] theorem setTurn_slm (x : Slice) (k : Pool × CellMode × Nat) (r : Nat) : (x.setTurn k r).slm = x.slm := rfl
@[simp] theorem putIndex_slm (x : Slice) (p : Nat) (e : IndexEntry) : (x.putIndex p e).slm = x.slm := rfl
@[simp] theorem freeIndex_slm (x : Slice) (p : IndexEntry → Bool) : (x.freeIndex p).slm = x.slm := rfl
@[simp] theorem recordIngest_slm (x : Slice) (i : Nat) (l : List Nat) : (x.recordIngest i l).slm = x.slm := rfl
@[simp] theorem countWa_slm (x : Slice) (p : Pool) (a b : Nat) : (x.countWa p a b).slm = x.slm := rfl
@[simp] theorem cleanBlock_slm (x : Slice) (w b : Nat) : (x.cleanBlock w b).slm = x.slm := rfl
@[simp] theorem dropWorks_slm (x : Slice) (p : FlWork → Bool) : (x.dropWorks p).slm = x.slm := rfl
@[simp] theorem queue_slm (x : Slice) (w : FlWork) : (x.queue w).slm = x.slm := rfl
@[simp] theorem dropEngine_slm (x : Slice) (p : EngWork → Bool) : (x.dropEngine p).slm = x.slm := rfl
@[simp] theorem endEngine_slm (x : Slice) (why : EngFor) : (x.endEngine why).slm = x.slm := rfl
@[simp] theorem sweepEngines_slm (x : Slice) : x.sweepEngines.slm = x.slm := rfl
@[simp] theorem ageItems_slm (len : Nat) (x : Slice) : (x.ageItems len).slm = x.slm := rfl
@[simp] theorem giveBack_slm (x : Slice) (l k : Nat) : (x.giveBack l k).slm = x.slm := rfl
@[simp] theorem keepBack_slm (x : Slice) (d : MediaDesc) (l : Nat) (u : ResUse) (b : Bool) : (x.keepBack d l u b).slm = x.slm := by
  simp only [Slice.keepBack]
  split <;> rfl
@[simp] theorem keepMore_slm (x : Slice) (d : MediaDesc) (l : Nat) (u : ResUse) (b : Bool) (k : Nat) : (x.keepMore d l u b k).slm = x.slm := by
  exact slm_foldl _ (fun x _ => keepBack_slm x d l u b) _ _
@[simp] theorem keepFor_slm (x : Slice) (d : MediaDesc) (w : Nat) (b : Bool) (l : Lun) : (Slice.keepFor d w b x l).slm = x.slm := by
  simp only [Slice.keepFor, keepMore_slm, giveBack_slm]
@[simp] theorem useLanding_slm (x : Slice) (k : Nat) : (x.useLanding k).slm = x.slm := by
  apply slm_foldl
  intro _ _
  rfl
@[simp] theorem keepStored_slm (x : Slice) : x.keepStored.slm = x.slm := rfl
@[simp] theorem loadCheckpoint_slm (x : Slice) : x.loadCheckpoint.slm = x.slm := rfl
@[simp] theorem replayOne_slm (x : Slice) (r : Delta) : (x.replayOne r).slm = x.slm := by
  rcases r with ⟨i, e⟩ | ⟨p, _ | e⟩ | ⟨i, l⟩ <;> rfl
@[simp] theorem replay_slm (x : Slice) (l : List Delta) : (x.replay l).slm = x.slm := by
  exact slm_foldl _ replayOne_slm _ _
@[simp] theorem relocate_slm (x : Slice) (us : List StoredUnit) : (x.relocate us).slm = x.slm := rfl
@[simp] theorem reopen_slm (x : Slice) (d : MediaDesc) : (x.reopen d).slm = x.slm := rfl
@[simp] theorem rewind_slm (x : Slice) (l : Nat) : (x.rewind l).slm = x.slm := by
  simp only [Slice.rewind]
  split <;> rfl
@[simp] theorem saveSegment_slm (x : Slice) (t g : Nat) : (x.saveSegment t g).slm = x.slm := rfl
@[simp] theorem writeJournal_slm (x : Slice) : x.writeJournal.slm = x.slm := rfl
@[simp] theorem release_slm (x : Slice) : x.release.slm = x.slm := rfl
@[simp] theorem startVerify_slm (x : Slice) : x.startVerify.slm = x.slm := rfl
@[simp] theorem powered_slm (x : Slice) : x.powered.slm = [] := rfl
@[simp] theorem dropVersion_slm (x : Slice) (w : Nat) (e : Entry) : (x.dropVersion w e).slm = x.slm := by
  simp only [Slice.dropVersion]
  split
  · rfl
  · split <;> rfl
@[simp] theorem dropRecord_slm (x : Slice) (i : Nat) : (x.dropRecord i).slm = x.slm := by
  simp only [Slice.dropRecord]
  split
  · rfl
  · exact slm_foldl (fun x i => x.switch i Entry.unmapped) (fun _ _ => rfl) _ _
@[simp] theorem dropIngests_slm (x : Slice) : x.dropIngests.slm = x.slm := by
  simp only [Slice.dropIngests, freeIndex_slm]
  exact slm_foldl (fun x i => x.switch i Entry.unmapped) (fun _ _ => rfl) _ _
@[simp] theorem dropUncommitted_slm (x : Slice) (l : List Delta) : (x.dropUncommitted l).slm = x.slm := by
  exact slm_foldl (fun x i => x.setEntry i Entry.unmapped) (fun _ _ => rfl) _ _
@[simp] theorem restoreLanded_slm (x : Slice) : x.restoreLanded.slm = x.slm := by
  simp only [Slice.restoreLanded]
  apply slm_foldl
  intro _ _
  rfl
@[simp] theorem formatted_slm (x : Slice) (d : MediaDesc) (l : List (Nat × Nat)) : (x.formatted d l).slm = x.slm := by
  simp only [Slice.formatted]
  apply slm_foldl
  intro _ _
  rfl

/-! ### One or more fields replaced -/

theorem upd_regs {F0 : Nat} {r0 s : State} (v : List (Nat × Word)) (hr0 : Frame F0 r0 s) (m0 : 0x4 ||| F0 = F0)
    (hv : mapWf (resetWord s.part) s.regs = true → mapWf (resetWord s.part) v = true) : Frame F0 r0 { s with regs := v } :=
  hr0.comp ⟨fun c h => by cases c <;> first | rfl | exact absurd h (by decide),
    fun i => ⟨hv i.regs, i.slices, i.hd, i.meas, i.links, i.slm⟩⟩ m0

theorem wr_frame {F0 : Nat} {r0 s : State} (a : Nat) (v : Word) (hr0 : Frame F0 r0 s) (m0 : 0x4 ||| F0 = F0) :
    Frame F0 r0 (s.wr a v) :=
  upd_regs _ hr0 m0 fun h => mapPut_wf a v h

theorem upd_pins {F0 : Nat} {r0 s : State} (v1 : Pins) (hr0 : Frame F0 r0 s)
    (m0 : 0x2 ||| F0 = F0) :
    Frame F0 r0 { s with pins := v1 } :=
  hr0.comp ⟨fun c h => by cases c <;> first | rfl | exact absurd h (by decide),
    fun i => ⟨i.regs, i.slices, i.hd, i.meas, i.links, i.slm⟩⟩ m0

theorem upd_latches {F0 : Nat} {r0 s : State} (v3 : List (Nat × Word)) (hr0 : Frame F0 r0 s)
    (m0 : 0x8 ||| F0 = F0) :
    Frame F0 r0 { s with latches := v3 } :=
  hr0.comp ⟨fun c h => by cases c <;> first | rfl | exact absurd h (by decide),
    fun i => ⟨i.regs, i.slices, i.hd, i.meas, i.links, i.slm⟩⟩ m0

theorem upd_busRead {F0 : Nat} {r0 s : State} (v4 : Word) (hr0 : Frame F0 r0 s)
    (m0 : 0x10 ||| F0 = F0) :
    Frame F0 r0 { s with busRead := v4 } :=
  hr0.comp ⟨fun c h => by cases c <;> first | rfl | exact absurd h (by decide),
    fun i => ⟨i.regs, i.slices, i.hd, i.meas, i.links, i.slm⟩⟩ m0

theorem upd_course {F0 : Nat} {r0 s : State} (v5 : Course) (hr0 : Frame F0 r0 s)
    (m0 : 0x20 ||| F0 = F0) :
    Frame F0 r0 { s with course := v5 } :=
  hr0.comp ⟨fun c h => by cases c <;> first | rfl | exact absurd h (by decide),
    fun i => ⟨i.regs, i.slices, i.hd, i.meas, i.links, i.slm⟩⟩ m0

theorem upd_dual {F0 : Nat} {r0 s : State} (v6 : Bool) (hr0 : Frame F0 r0 s)
    (m0 : 0x40 ||| F0 = F0) :
    Frame F0 r0 { s with dual := v6 } :=
  hr0.comp ⟨fun c h => by cases c <;> first | rfl | exact absurd h (by decide),
    fun i => ⟨i.regs, i.slices, i.hd, i.meas, i.links, i.slm⟩⟩ m0

theorem upd_ctrls {F0 : Nat} {r0 s : State} (v8 : List Ctrl) (hr0 : Frame F0 r0 s)
    (m0 : 0x100 ||| F0 = F0) :
    Frame F0 r0 { s with ctrls := v8 } :=
  hr0.comp ⟨fun c h => by cases c <;> first | rfl | exact absurd h (by decide),
    fun i => ⟨i.regs, i.slices, i.hd, i.meas, i.links, i.slm⟩⟩ m0

theorem upd_inflight {F0 : Nat} {r0 s : State} (v9 : List InFlight) (hr0 : Frame F0 r0 s)
    (m0 : 0x200 ||| F0 = F0) :
    Frame F0 r0 { s with inflight := v9 } :=
  hr0.comp ⟨fun c h => by cases c <;> first | rfl | exact absurd h (by decide),
    fun i => ⟨i.regs, i.slices, i.hd, i.meas, i.links, i.slm⟩⟩ m0

theorem upd_order {F0 : Nat} {r0 s : State} (v10 : Nat) (hr0 : Frame F0 r0 s)
    (m0 : 0x400 ||| F0 = F0) :
    Frame F0 r0 { s with order := v10 } :=
  hr0.comp ⟨fun c h => by cases c <;> first | rfl | exact absurd h (by decide),
    fun i => ⟨i.regs, i.slices, i.hd, i.meas, i.links, i.slm⟩⟩ m0

theorem upd_namespaces {F0 : Nat} {r0 s : State} (v11 : List Namespace) (hr0 : Frame F0 r0 s)
    (m0 : 0x800 ||| F0 = F0) :
    Frame F0 r0 { s with namespaces := v11 } :=
  hr0.comp ⟨fun c h => by cases c <;> first | rfl | exact absurd h (by decide),
    fun i => ⟨i.regs, i.slices, i.hd, i.meas, i.links, i.slm⟩⟩ m0

theorem upd_tenants {F0 : Nat} {r0 s : State} (v12 : List Tenant) (hr0 : Frame F0 r0 s)
    (m0 : 0x1000 ||| F0 = F0) :
    Frame F0 r0 { s with tenants := v12 } :=
  hr0.comp ⟨fun c h => by cases c <;> first | rfl | exact absurd h (by decide),
    fun i => ⟨i.regs, i.slices, i.hd, i.meas, i.links, i.slm⟩⟩ m0

theorem upd_leaving {F0 : Nat} {r0 s : State} (v13 : List Tenant) (hr0 : Frame F0 r0 s)
    (m0 : 0x2000 ||| F0 = F0) :
    Frame F0 r0 { s with leaving := v13 } :=
  hr0.comp ⟨fun c h => by cases c <;> first | rfl | exact absurd h (by decide),
    fun i => ⟨i.regs, i.slices, i.hd, i.meas, i.links, i.slm⟩⟩ m0

theorem upd_deferred {F0 : Nat} {r0 s : State} (v14 : List Deferred) (hr0 : Frame F0 r0 s)
    (m0 : 0x4000 ||| F0 = F0) :
    Frame F0 r0 { s with deferred := v14 } :=
  hr0.comp ⟨fun c h => by cases c <;> first | rfl | exact absurd h (by decide),
    fun i => ⟨i.regs, i.slices, i.hd, i.meas, i.links, i.slm⟩⟩ m0

theorem upd_migs {F0 : Nat} {r0 s : State} (v15 : List MigSession) (hr0 : Frame F0 r0 s)
    (m0 : 0x8000 ||| F0 = F0) :
    Frame F0 r0 { s with migs := v15 } :=
  hr0.comp ⟨fun c h => by cases c <;> first | rfl | exact absurd h (by decide),
    fun i => ⟨i.regs, i.slices, i.hd, i.meas, i.links, i.slm⟩⟩ m0

theorem upd_slotWaits {F0 : Nat} {r0 s : State} (v16 : List SlotWait) (hr0 : Frame F0 r0 s)
    (m0 : 0x10000 ||| F0 = F0) :
    Frame F0 r0 { s with slotWaits := v16 } :=
  hr0.comp ⟨fun c h => by cases c <;> first | rfl | exact absurd h (by decide),
    fun i => ⟨i.regs, i.slices, i.hd, i.meas, i.links, i.slm⟩⟩ m0

theorem upd_invocations {F0 : Nat} {r0 s : State} (v18 : List Invocation) (hr0 : Frame F0 r0 s)
    (m0 : 0x40000 ||| F0 = F0) :
    Frame F0 r0 { s with invocations := v18 } :=
  hr0.comp ⟨fun c h => by cases c <;> first | rfl | exact absurd h (by decide),
    fun i => ⟨i.regs, i.slices, i.hd, i.meas, i.links, i.slm⟩⟩ m0

theorem upd_nextInv {F0 : Nat} {r0 s : State} (v19 : Nat) (hr0 : Frame F0 r0 s)
    (m0 : 0x80000 ||| F0 = F0) :
    Frame F0 r0 { s with nextInv := v19 } :=
  hr0.comp ⟨fun c h => by cases c <;> first | rfl | exact absurd h (by decide),
    fun i => ⟨i.regs, i.slices, i.hd, i.meas, i.links, i.slm⟩⟩ m0

theorem upd_parks {F0 : Nat} {r0 s : State} (v21 : List Park) (hr0 : Frame F0 r0 s)
    (m0 : 0x200000 ||| F0 = F0) :
    Frame F0 r0 { s with parks := v21 } :=
  hr0.comp ⟨fun c h => by cases c <;> first | rfl | exact absurd h (by decide),
    fun i => ⟨i.regs, i.slices, i.hd, i.meas, i.links, i.slm⟩⟩ m0

theorem upd_hdQueue {F0 : Nat} {r0 s : State} (v22 : List Transfer) (hr0 : Frame F0 r0 s)
    (m0 : 0x400000 ||| F0 = F0) :
    Frame F0 r0 { s with hdQueue := v22 } :=
  hr0.comp ⟨fun c h => by cases c <;> first | rfl | exact absurd h (by decide),
    fun i => ⟨i.regs, i.slices, i.hd, i.meas, i.links, i.slm⟩⟩ m0

theorem upd_ats {F0 : Nat} {r0 s : State} (v23 : List (Nat × Nat)) (hr0 : Frame F0 r0 s)
    (m0 : 0x800000 ||| F0 = F0) :
    Frame F0 r0 { s with ats := v23 } :=
  hr0.comp ⟨fun c h => by cases c <;> first | rfl | exact absurd h (by decide),
    fun i => ⟨i.regs, i.slices, i.hd, i.meas, i.links, i.slm⟩⟩ m0

theorem upd_digests {F0 : Nat} {r0 s : State} (v24 : List (Nat × DgMsg)) (hr0 : Frame F0 r0 s)
    (m0 : 0x1000000 ||| F0 = F0) :
    Frame F0 r0 { s with digests := v24 } :=
  hr0.comp ⟨fun c h => by cases c <;> first | rfl | exact absurd h (by decide),
    fun i => ⟨i.regs, i.slices, i.hd, i.meas, i.links, i.slm⟩⟩ m0

theorem upd_digestWaits {F0 : Nat} {r0 s : State} (v25 : List (Nat × Hdr)) (hr0 : Frame F0 r0 s)
    (m0 : 0x2000000 ||| F0 = F0) :
    Frame F0 r0 { s with digestWaits := v25 } :=
  hr0.comp ⟨fun c h => by cases c <;> first | rfl | exact absurd h (by decide),
    fun i => ⟨i.regs, i.slices, i.hd, i.meas, i.links, i.slm⟩⟩ m0

theorem upd_digestOut {F0 : Nat} {r0 s : State} (v26 : Option (Nat × Nat × List Byte)) (hr0 : Frame F0 r0 s)
    (m0 : 0x4000000 ||| F0 = F0) :
    Frame F0 r0 { s with digestOut := v26 } :=
  hr0.comp ⟨fun c h => by cases c <;> first | rfl | exact absurd h (by decide),
    fun i => ⟨i.regs, i.slices, i.hd, i.meas, i.links, i.slm⟩⟩ m0

theorem upd_hubKey {F0 : Nat} {r0 s : State} (v27 : Key) (hr0 : Frame F0 r0 s)
    (m0 : 0x8000000 ||| F0 = F0) :
    Frame F0 r0 { s with hubKey := v27 } :=
  hr0.comp ⟨fun c h => by cases c <;> first | rfl | exact absurd h (by decide),
    fun i => ⟨i.regs, i.slices, i.hd, i.meas, i.links, i.slm⟩⟩ m0

theorem upd_measLog {F0 : Nat} {r0 s : State} (v29 : List MeasLog) (hr0 : Frame F0 r0 s)
    (m0 : 0x20000000 ||| F0 = F0) :
    Frame F0 r0 { s with measLog := v29 } :=
  hr0.comp ⟨fun c h => by cases c <;> first | rfl | exact absurd h (by decide),
    fun i => ⟨i.regs, i.slices, i.hd, i.meas, i.links, i.slm⟩⟩ m0

theorem upd_measSeq {F0 : Nat} {r0 s : State} (v30 : Nat) (hr0 : Frame F0 r0 s)
    (m0 : 0x40000000 ||| F0 = F0) :
    Frame F0 r0 { s with measSeq := v30 } :=
  hr0.comp ⟨fun c h => by cases c <;> first | rfl | exact absurd h (by decide),
    fun i => ⟨i.regs, i.slices, i.hd, i.meas, i.links, i.slm⟩⟩ m0

theorem upd_staged {F0 : Nat} {r0 s : State} (v31 : List Digest384) (hr0 : Frame F0 r0 s)
    (m0 : 0x80000000 ||| F0 = F0) :
    Frame F0 r0 { s with staged := v31 } :=
  hr0.comp ⟨fun c h => by cases c <;> first | rfl | exact absurd h (by decide),
    fun i => ⟨i.regs, i.slices, i.hd, i.meas, i.links, i.slm⟩⟩ m0

theorem upd_spdmPeers {F0 : Nat} {r0 s : State} (v32 : List SpdmPeer) (hr0 : Frame F0 r0 s)
    (m0 : 0x100000000 ||| F0 = F0) :
    Frame F0 r0 { s with spdmPeers := v32 } :=
  hr0.comp ⟨fun c h => by cases c <;> first | rfl | exact absurd h (by decide),
    fun i => ⟨i.regs, i.slices, i.hd, i.meas, i.links, i.slm⟩⟩ m0

theorem upd_spdmSessions {F0 : Nat} {r0 s : State} (v33 : List SpdmSession) (hr0 : Frame F0 r0 s)
    (m0 : 0x200000000 ||| F0 = F0) :
    Frame F0 r0 { s with spdmSessions := v33 } :=
  hr0.comp ⟨fun c h => by cases c <;> first | rfl | exact absurd h (by decide),
    fun i => ⟨i.regs, i.slices, i.hd, i.meas, i.links, i.slm⟩⟩ m0

theorem upd_spdmOut {F0 : Nat} {r0 s : State} (v34 : Option SpdmAnswer) (hr0 : Frame F0 r0 s)
    (m0 : 0x400000000 ||| F0 = F0) :
    Frame F0 r0 { s with spdmOut := v34 } :=
  hr0.comp ⟨fun c h => by cases c <;> first | rfl | exact absurd h (by decide),
    fun i => ⟨i.regs, i.slices, i.hd, i.meas, i.links, i.slm⟩⟩ m0

theorem upd_entropyOk {F0 : Nat} {r0 s : State} (v35 : Bool) (hr0 : Frame F0 r0 s)
    (m0 : 0x800000000 ||| F0 = F0) :
    Frame F0 r0 { s with entropyOk := v35 } :=
  hr0.comp ⟨fun c h => by cases c <;> first | rfl | exact absurd h (by decide),
    fun i => ⟨i.regs, i.slices, i.hd, i.meas, i.links, i.slm⟩⟩ m0

theorem upd_groupAt {F0 : Nat} {r0 s : State} (v36 : Nat) (hr0 : Frame F0 r0 s)
    (m0 : 0x1000000000 ||| F0 = F0) :
    Frame F0 r0 { s with groupAt := v36 } :=
  hr0.comp ⟨fun c h => by cases c <;> first | rfl | exact absurd h (by decide),
    fun i => ⟨i.regs, i.slices, i.hd, i.meas, i.links, i.slm⟩⟩ m0

theorem upd_groupRecs {F0 : Nat} {r0 s : State} (v37 : Option (List (Nat × Nat × BitVec 64))) (hr0 : Frame F0 r0 s)
    (m0 : 0x2000000000 ||| F0 = F0) :
    Frame F0 r0 { s with groupRecs := v37 } :=
  hr0.comp ⟨fun c h => by cases c <;> first | rfl | exact absurd h (by decide),
    fun i => ⟨i.regs, i.slices, i.hd, i.meas, i.links, i.slm⟩⟩ m0

theorem upd_storeHdr {F0 : Nat} {r0 s : State} (v38 : Option (Option Hdr)) (hr0 : Frame F0 r0 s)
    (m0 : 0x4000000000 ||| F0 = F0) :
    Frame F0 r0 { s with storeHdr := v38 } :=
  hr0.comp ⟨fun c h => by cases c <;> first | rfl | exact absurd h (by decide),
    fun i => ⟨i.regs, i.slices, i.hd, i.meas, i.links, i.slm⟩⟩ m0

theorem upd_storeNext {F0 : Nat} {r0 s : State} (v39 : List Hdr) (hr0 : Frame F0 r0 s)
    (m0 : 0x8000000000 ||| F0 = F0) :
    Frame F0 r0 { s with storeNext := v39 } :=
  hr0.comp ⟨fun c h => by cases c <;> first | rfl | exact absurd h (by decide),
    fun i => ⟨i.regs, i.slices, i.hd, i.meas, i.links, i.slm⟩⟩ m0

theorem upd_wearRateMax {F0 : Nat} {r0 s : State} (v40 : Nat) (hr0 : Frame F0 r0 s)
    (m0 : 0x10000000000 ||| F0 = F0) :
    Frame F0 r0 { s with wearRateMax := v40 } :=
  hr0.comp ⟨fun c h => by cases c <;> first | rfl | exact absurd h (by decide),
    fun i => ⟨i.regs, i.slices, i.hd, i.meas, i.links, i.slm⟩⟩ m0

theorem upd_nvm {F0 : Nat} {r0 s : State} (v41 : Nvm) (hr0 : Frame F0 r0 s)
    (m0 : 0x20000000000 ||| F0 = F0) :
    Frame F0 r0 { s with nvm := v41 } :=
  hr0.comp ⟨fun c h => by cases c <;> first | rfl | exact absurd h (by decide),
    fun i => ⟨i.regs, i.slices, i.hd, i.meas, i.links, i.slm⟩⟩ m0

theorem upd_power {F0 : Nat} {r0 s : State} (v42 : Power) (hr0 : Frame F0 r0 s)
    (m0 : 0x40000000000 ||| F0 = F0) :
    Frame F0 r0 { s with power := v42 } :=
  hr0.comp ⟨fun c h => by cases c <;> first | rfl | exact absurd h (by decide),
    fun i => ⟨i.regs, i.slices, i.hd, i.meas, i.links, i.slm⟩⟩ m0

theorem upd_start {F0 : Nat} {r0 s : State} (v43 : Start) (hr0 : Frame F0 r0 s)
    (m0 : 0x80000000000 ||| F0 = F0) :
    Frame F0 r0 { s with start := v43 } :=
  hr0.comp ⟨fun c h => by cases c <;> first | rfl | exact absurd h (by decide),
    fun i => ⟨i.regs, i.slices, i.hd, i.meas, i.links, i.slm⟩⟩ m0

theorem upd_recorder {F0 : Nat} {r0 s : State} (v44 : Recorder) (hr0 : Frame F0 r0 s)
    (m0 : 0x100000000000 ||| F0 = F0) :
    Frame F0 r0 { s with recorder := v44 } :=
  hr0.comp ⟨fun c h => by cases c <;> first | rfl | exact absurd h (by decide),
    fun i => ⟨i.regs, i.slices, i.hd, i.meas, i.links, i.slm⟩⟩ m0

theorem upd_fences {F0 : Nat} {r0 s : State} (v45 : List (UnitId × Fence)) (hr0 : Frame F0 r0 s)
    (m0 : 0x200000000000 ||| F0 = F0) :
    Frame F0 r0 { s with fences := v45 } :=
  hr0.comp ⟨fun c h => by cases c <;> first | rfl | exact absurd h (by decide),
    fun i => ⟨i.regs, i.slices, i.hd, i.meas, i.links, i.slm⟩⟩ m0

theorem upd_fenceCounts {F0 : Nat} {r0 s : State} (v46 : List (UnitId × Nat)) (hr0 : Frame F0 r0 s)
    (m0 : 0x400000000000 ||| F0 = F0) :
    Frame F0 r0 { s with fenceCounts := v46 } :=
  hr0.comp ⟨fun c h => by cases c <;> first | rfl | exact absurd h (by decide),
    fun i => ⟨i.regs, i.slices, i.hd, i.meas, i.links, i.slm⟩⟩ m0

theorem upd_fenceSoon {F0 : Nat} {r0 s : State} (v47 : List (UnitId × FenceCause)) (hr0 : Frame F0 r0 s)
    (m0 : 0x800000000000 ||| F0 = F0) :
    Frame F0 r0 { s with fenceSoon := v47 } :=
  hr0.comp ⟨fun c h => by cases c <;> first | rfl | exact absurd h (by decide),
    fun i => ⟨i.regs, i.slices, i.hd, i.meas, i.links, i.slm⟩⟩ m0

theorem upd_test {F0 : Nat} {r0 s : State} (v48 : Option UnitId) (hr0 : Frame F0 r0 s)
    (m0 : 0x1000000000000 ||| F0 = F0) :
    Frame F0 r0 { s with test := v48 } :=
  hr0.comp ⟨fun c h => by cases c <;> first | rfl | exact absurd h (by decide),
    fun i => ⟨i.regs, i.slices, i.hd, i.meas, i.links, i.slm⟩⟩ m0

theorem upd_unfence {F0 : Nat} {r0 s : State} (v49 : List UnitId) (hr0 : Frame F0 r0 s)
    (m0 : 0x2000000000000 ||| F0 = F0) :
    Frame F0 r0 { s with unfence := v49 } :=
  hr0.comp ⟨fun c h => by cases c <;> first | rfl | exact absurd h (by decide),
    fun i => ⟨i.regs, i.slices, i.hd, i.meas, i.links, i.slm⟩⟩ m0

theorem upd_mgmt {F0 : Nat} {r0 s : State} (v50 : MgmtPort) (hr0 : Frame F0 r0 s)
    (m0 : 0x4000000000000 ||| F0 = F0) :
    Frame F0 r0 { s with mgmt := v50 } :=
  hr0.comp ⟨fun c h => by cases c <;> first | rfl | exact absurd h (by decide),
    fun i => ⟨i.regs, i.slices, i.hd, i.meas, i.links, i.slm⟩⟩ m0

theorem upd_fresh {F0 : Nat} {r0 s : State} (v51 : Nat) (hr0 : Frame F0 r0 s)
    (m0 : 0x8000000000000 ||| F0 = F0) :
    Frame F0 r0 { s with fresh := v51 } :=
  hr0.comp ⟨fun c h => by cases c <;> first | rfl | exact absurd h (by decide),
    fun i => ⟨i.regs, i.slices, i.hd, i.meas, i.links, i.slm⟩⟩ m0

theorem upd_pending {F0 : Nat} {r0 s : State} (v52 : List Instr) (hr0 : Frame F0 r0 s)
    (m0 : 0x10000000000000 ||| F0 = F0) :
    Frame F0 r0 { s with pending := v52 } :=
  hr0.comp ⟨fun c h => by cases c <;> first | rfl | exact absurd h (by decide),
    fun i => ⟨i.regs, i.slices, i.hd, i.meas, i.links, i.slm⟩⟩ m0

theorem upd_deferred_digestWaits_storeHdr_storeNext {F0 : Nat} {r0 s : State} (v14 : List Deferred) (v25 : List (Nat × Hdr)) (v38 : Option (Option Hdr)) (v39 : List Hdr) (hr0 : Frame F0 r0 s)
    (m0 : 0xc002004000 ||| F0 = F0) :
    Frame F0 r0 { s with deferred := v14, digestWaits := v25, storeHdr := v38, storeNext := v39 } :=
  hr0.comp ⟨fun c h => by cases c <;> first | rfl | exact absurd h (by decide),
    fun i => ⟨i.regs, i.slices, i.hd, i.meas, i.links, i.slm⟩⟩ m0

theorem upd_dual_ctrls_inflight {F0 : Nat} {r0 s : State} (v6 : Bool) (v8 : List Ctrl) (v9 : List InFlight) (hr0 : Frame F0 r0 s)
    (m0 : 0x340 ||| F0 = F0) :
    Frame F0 r0 { s with dual := v6, ctrls := v8, inflight := v9 } :=
  hr0.comp ⟨fun c h => by cases c <;> first | rfl | exact absurd h (by decide),
    fun i => ⟨i.regs, i.slices, i.hd, i.meas, i.links, i.slm⟩⟩ m0

theorem upd_groupAt_groupRecs {F0 : Nat} {r0 s : State} (v36 : Nat) (v37 : Option (List (Nat × Nat × BitVec 64))) (hr0 : Frame F0 r0 s)
    (m0 : 0x3000000000 ||| F0 = F0) :
    Frame F0 r0 { s with groupAt := v36, groupRecs := v37 } :=
  hr0.comp ⟨fun c h => by cases c <;> first | rfl | exact absurd h (by decide),
    fun i => ⟨i.regs, i.slices, i.hd, i.meas, i.links, i.slm⟩⟩ m0

theorem upd_hd_parks {F0 : Nat} {r0 s : State} (v20 : List HdCh) (v21 : List Park) (hr0 : Frame F0 r0 s)
    (m0 : 0x300000 ||| F0 = F0) (hv : v20.length = s.hd.length) :
    Frame F0 r0 { s with hd := v20, parks := v21 } :=
  hr0.comp ⟨fun c h => by cases c <;> first | rfl | exact absurd h (by decide),
    fun i => ⟨i.regs, i.slices, hv.trans i.hd, i.meas, i.links, i.slm⟩⟩ m0

theorem upd_inflight_deferred_invocations_hd_parks_hdQueue_digests_digestWaits_storeHdr_storeNext {F0 : Nat} {r0 s : State} (v9 : List InFlight) (v14 : List Deferred) (v18 : List Invocation) (v20 : List HdCh) (v21 : List Park) (v22 : List Transfer) (v24 : List (Nat × DgMsg)) (v25 : List (Nat × Hdr)) (v38 : Option (Option Hdr)) (v39 : List Hdr) (hr0 : Frame F0 r0 s)
    (m0 : 0xc003744200 ||| F0 = F0) (hv : v20.length = s.hd.length) :
    Frame F0 r0 { s with inflight := v9, deferred := v14, invocations := v18, hd := v20, parks := v21, hdQueue := v22, digests := v24, digestWaits := v25, storeHdr := v38, storeNext := v39 } :=
  hr0.comp ⟨fun c h => by cases c <;> first | rfl | exact absurd h (by decide),
    fun i => ⟨i.regs, i.slices, hv.trans i.hd, i.meas, i.links, i.slm⟩⟩ m0

theorem upd_inflight_order {F0 : Nat} {r0 s : State} (v9 : List InFlight) (v10 : Nat) (hr0 : Frame F0 r0 s)
    (m0 : 0x600 ||| F0 = F0) :
    Frame F0 r0 { s with inflight := v9, order := v10 } :=
  hr0.comp ⟨fun c h => by cases c <;> first | rfl | exact absurd h (by decide),
    fun i => ⟨i.regs, i.slices, i.hd, i.meas, i.links, i.slm⟩⟩ m0

theorem upd_invocations_nextInv {F0 : Nat} {r0 s : State} (v18 : List Invocation) (v19 : Nat) (hr0 : Frame F0 r0 s)
    (m0 : 0xc0000 ||| F0 = F0) :
    Frame F0 r0 { s with invocations := v18, nextInv := v19 } :=
  hr0.comp ⟨fun c h => by cases c <;> first | rfl | exact absurd h (by decide),
    fun i => ⟨i.regs, i.slices, i.hd, i.meas, i.links, i.slm⟩⟩ m0

theorem upd_meas_measSeq {F0 : Nat} {r0 s : State} (v28 : List Digest384) (v30 : Nat) (hr0 : Frame F0 r0 s)
    (m0 : 0x50000000 ||| F0 = F0) (hv : v28.length = s.meas.length) :
    Frame F0 r0 { s with meas := v28, measSeq := v30 } :=
  hr0.comp ⟨fun c h => by cases c <;> first | rfl | exact absurd h (by decide),
    fun i => ⟨i.regs, i.slices, i.hd, hv.trans i.meas, i.links, i.slm⟩⟩ m0

theorem upd_parks_hdQueue {F0 : Nat} {r0 s : State} (v21 : List Park) (v22 : List Transfer) (hr0 : Frame F0 r0 s)
    (m0 : 0x600000 ||| F0 = F0) :
    Frame F0 r0 { s with parks := v21, hdQueue := v22 } :=
  hr0.comp ⟨fun c h => by cases c <;> first | rfl | exact absurd h (by decide),
    fun i => ⟨i.regs, i.slices, i.hd, i.meas, i.links, i.slm⟩⟩ m0

theorem upd_tenants_leaving {F0 : Nat} {r0 s : State} (v12 : List Tenant) (v13 : List Tenant) (hr0 : Frame F0 r0 s)
    (m0 : 0x3000 ||| F0 = F0) :
    Frame F0 r0 { s with tenants := v12, leaving := v13 } :=
  hr0.comp ⟨fun c h => by cases c <;> first | rfl | exact absurd h (by decide),
    fun i => ⟨i.regs, i.slices, i.hd, i.meas, i.links, i.slm⟩⟩ m0

theorem upd_hd {F0 : Nat} {r0 s : State} (v20 : List HdCh) (hr0 : Frame F0 r0 s)
    (m0 : 0x100000 ||| F0 = F0) (hv : v20.length = s.hd.length) :
    Frame F0 r0 { s with hd := v20 } :=
  hr0.comp ⟨fun c h => by cases c <;> first | rfl | exact absurd h (by decide),
    fun i => ⟨i.regs, i.slices, hv.trans i.hd, i.meas, i.links, i.slm⟩⟩ m0

theorem upd_links {F0 : Nat} {r0 s : State} (v7 : List Link) (hr0 : Frame F0 r0 s)
    (m0 : 0x80 ||| F0 = F0) (hv : v7.length = s.links.length) :
    Frame F0 r0 { s with links := v7 } :=
  hr0.comp ⟨fun c h => by cases c <;> first | rfl | exact absurd h (by decide),
    fun i => ⟨i.regs, i.slices, i.hd, i.meas, hv.trans i.links, i.slm⟩⟩ m0

/-! ### Package reset (R6) -/

/-- A package reset may change every part but which part the package is and the waiting commands, and leaves the form. -/
theorem packageReset_frame {F0 : Nat} {r0 : State} (s : State) (hr0 : Frame F0 r0 s) (m0 : 0x2ffffffffffffe ||| F0 = F0) :
    Frame F0 r0 s.packageReset := by
  refine hr0.comp (G := 0x2ffffffffffffe) ⟨fun c h => by cases c <;> first | rfl | exact absurd h (by decide), fun i => ?_⟩ m0
  refine ⟨rfl, ?_, rfl, rfl, rfl, ?_⟩
  · simp [State.packageReset, i.slices]
  · intro x hx
    simp only [State.packageReset, List.mem_map] at hx
    obtain ⟨y, _, e⟩ := hx
    rw [← e, powered_slm]
    rfl

end Sys2Proof.Laws
end

