-- ==== Sys2Proof/Laws/FrameBase.lean ====
section
/-!
SUPPORT. What each operation may change: registers, tables, units, keys, the host port, the cipher path and the flash works.
-/

namespace Sys2Proof.Laws

open Sys2Proof.Machine

variable {F0 : Nat} {r0 : State}

/-! ### Ops -/

/-- May change regs. -/
theorem putF_frame (s : State) (a hi lo v : Nat) (hr0 : Frame F0 r0 s) (m0 : 0x4 ||| F0 = F0) :
    Frame F0 r0 (State.putF s a hi lo v) := by
  refine Frame.comp hr0 ?_ m0
  unfold State.putF
  repeat' (first | with_reducible exact Frame.refl _ _ | with_reducible apply wr_frame | exact Eq.refl _)

/-- May change regs. -/
theorem setBit_frame (s : State) (a k : Nat) (hr0 : Frame F0 r0 s) (m0 : 0x4 ||| F0 = F0) :
    Frame F0 r0 (State.setBit s a k) := by
  refine Frame.comp hr0 ?_ m0
  unfold State.setBit
  repeat' (first | with_reducible exact Frame.refl _ _ | with_reducible apply wr_frame | exact Eq.refl _)

/-- May change regs. -/
theorem clrBit_frame (s : State) (a k : Nat) (hr0 : Frame F0 r0 s) (m0 : 0x4 ||| F0 = F0) :
    Frame F0 r0 (State.clrBit s a k) := by
  refine Frame.comp hr0 ?_ m0
  unfold State.clrBit
  repeat' (first | with_reducible exact Frame.refl _ _ | with_reducible apply wr_frame | exact Eq.refl _)

/-- May change regs. -/
theorem putBit_frame (s : State) (a k : Nat) (b : Bool) (hr0 : Frame F0 r0 s) (m0 : 0x4 ||| F0 = F0) :
    Frame F0 r0 (State.putBit s a k b) := by
  refine Frame.comp hr0 ?_ m0
  unfold State.putBit
  repeat' (first
    | with_reducible exact Frame.refl _ _ | with_reducible apply setBit_frame | with_reducible apply clrBit_frame
    | with_reducible apply Frame.ite | split | exact Eq.refl _)

/-- May change regs. -/
theorem addF_frame (s : State) (a hi lo n : Nat) (hr0 : Frame F0 r0 s) (m0 : 0x4 ||| F0 = F0) :
    Frame F0 r0 (State.addF s a hi lo n) := by
  refine Frame.comp hr0 ?_ m0
  unfold State.addF
  repeat' (first | with_reducible exact Frame.refl _ _ | with_reducible apply putF_frame | exact Eq.refl _)

/-- May change regs. -/
theorem inc_frame (s : State) (a : Nat) (hr0 : Frame F0 r0 s) (m0 : 0x4 ||| F0 = F0) :
    Frame F0 r0 (State.inc s a) := by
  refine Frame.comp hr0 ?_ m0
  unfold State.inc
  repeat' (first | with_reducible exact Frame.refl _ _ | with_reducible apply addF_frame | exact Eq.refl _)

/-- May change regs. -/
theorem wr64_frame (s : State) (a v : Nat) (hr0 : Frame F0 r0 s) (m0 : 0x4 ||| F0 = F0) :
    Frame F0 r0 (State.wr64 s a v) := by
  refine Frame.comp hr0 ?_ m0
  unfold State.wr64
  repeat' (first | with_reducible exact Frame.refl _ _ | with_reducible apply wr_frame | exact Eq.refl _)

/-- May change regs. -/
theorem add64_frame (s : State) (a n : Nat) (hr0 : Frame F0 r0 s) (m0 : 0x4 ||| F0 = F0) :
    Frame F0 r0 (State.add64 s a n) := by
  refine Frame.comp hr0 ?_ m0
  unfold State.add64
  repeat' (first | with_reducible exact Frame.refl _ _ | with_reducible apply wr64_frame | exact Eq.refl _)

/-- May change regs. -/
theorem wrQ_frame (s : State) (a : Nat) (v : Int) (hr0 : Frame F0 r0 s) (m0 : 0x4 ||| F0 = F0) :
    Frame F0 r0 (State.wrQ s a v) := by
  refine Frame.comp hr0 ?_ m0
  unfold State.wrQ
  repeat' (first | with_reducible exact Frame.refl _ _ | with_reducible apply wr_frame | exact Eq.refl _)

/-- May change namespaces. -/
theorem mapNs_frame (s : State) (f : Namespace → Namespace) (hr0 : Frame F0 r0 s) (m0 : 0x800 ||| F0 = F0) :
    Frame F0 r0 (State.mapNs s f) := by
  refine Frame.comp hr0 ?_ m0
  unfold State.mapNs
  repeat' (first | with_reducible exact Frame.refl _ _ | exact Eq.refl _ | with_reducible apply upd_namespaces)

/-- May change tenants. -/
theorem mapTenants_frame (s : State) (f : Tenant → Tenant) (hr0 : Frame F0 r0 s) (m0 : 0x1000 ||| F0 = F0) :
    Frame F0 r0 (State.mapTenants s f) := by
  refine Frame.comp hr0 ?_ m0
  unfold State.mapTenants
  repeat' (first | with_reducible exact Frame.refl _ _ | exact Eq.refl _ | with_reducible apply upd_tenants)

/-- May change inflight. -/
theorem mapInflight_frame (s : State) (f : InFlight → InFlight) (hr0 : Frame F0 r0 s) (m0 : 0x200 ||| F0 = F0) :
    Frame F0 r0 (State.mapInflight s f) := by
  refine Frame.comp hr0 ?_ m0
  unfold State.mapInflight
  repeat' (first | with_reducible exact Frame.refl _ _ | exact Eq.refl _ | with_reducible apply upd_inflight)

/-- May change ctrls. -/
theorem modCtrl_frame (s : State) (c : Nat) (f : Ctrl → Ctrl) (hr0 : Frame F0 r0 s) (m0 : 0x100 ||| F0 = F0) :
    Frame F0 r0 (State.modCtrl s c f) := by
  refine Frame.comp hr0 ?_ m0
  unfold State.modCtrl
  dsimp only
  repeat' (first | with_reducible exact Frame.refl _ _ | exact Eq.refl _ | with_reducible apply upd_ctrls)

/-- May change tenants. -/
theorem modTenant_frame (s : State) (ti : Nat) (f : Tenant → Tenant) (hr0 : Frame F0 r0 s) (m0 : 0x1000 ||| F0 = F0) :
    Frame F0 r0 (State.modTenant s ti f) := by
  refine Frame.comp hr0 ?_ m0
  unfold State.modTenant
  repeat' (first | with_reducible exact Frame.refl _ _ | exact Eq.refl _ | with_reducible apply upd_tenants)

/-- May change namespaces. -/
theorem modNs_frame (s : State) (nsid : Nat) (f : Namespace → Namespace) (hr0 : Frame F0 r0 s) (m0 : 0x800 ||| F0 = F0) :
    Frame F0 r0 (State.modNs s nsid f) := by
  refine Frame.comp hr0 ?_ m0
  unfold State.modNs
  repeat' (first | with_reducible exact Frame.refl _ _ | exact Eq.refl _ | with_reducible apply upd_namespaces)

/-- May change start. -/
theorem modStart_frame (s : State) (f : Start → Start) (hr0 : Frame F0 r0 s) (m0 : 0x80000000000 ||| F0 = F0) :
    Frame F0 r0 (State.modStart s f) := by
  refine Frame.comp hr0 ?_ m0
  unfold State.modStart
  repeat' (first | with_reducible exact Frame.refl _ _ | exact Eq.refl _ | with_reducible apply upd_start)

/-- May change nvm. -/
theorem modNvm_frame (s : State) (f : Nvm → Nvm) (hr0 : Frame F0 r0 s) (m0 : 0x20000000000 ||| F0 = F0) :
    Frame F0 r0 (State.modNvm s f) := by
  refine Frame.comp hr0 ?_ m0
  unfold State.modNvm
  repeat' (first | with_reducible exact Frame.refl _ _ | exact Eq.refl _ | with_reducible apply upd_nvm)

/-- May change power. -/
theorem modPower_frame (s : State) (f : Power → Power) (hr0 : Frame F0 r0 s) (m0 : 0x40000000000 ||| F0 = F0) :
    Frame F0 r0 (State.modPower s f) := by
  refine Frame.comp hr0 ?_ m0
  unfold State.modPower
  repeat' (first | with_reducible exact Frame.refl _ _ | exact Eq.refl _ | with_reducible apply upd_power)

/-- May change course. -/
theorem modCourse_frame (s : State) (f : Course → Course) (hr0 : Frame F0 r0 s) (m0 : 0x20 ||| F0 = F0) :
    Frame F0 r0 (State.modCourse s f) := by
  refine Frame.comp hr0 ?_ m0
  unfold State.modCourse
  repeat' (first | with_reducible exact Frame.refl _ _ | exact Eq.refl _ | with_reducible apply upd_course)

/-- May change recorder. -/
theorem modRec_frame (s : State) (f : Recorder → Recorder) (hr0 : Frame F0 r0 s) (m0 : 0x100000000000 ||| F0 = F0) :
    Frame F0 r0 (State.modRec s f) := by
  refine Frame.comp hr0 ?_ m0
  unfold State.modRec
  repeat' (first | with_reducible exact Frame.refl _ _ | exact Eq.refl _ | with_reducible apply upd_recorder)

/-- May change fresh. -/
theorem free_frame (s : State) (hr0 : Frame F0 r0 s) (m0 : 0x8000000000000 ||| F0 = F0) :
    Frame F0 r0 (State.free s).2 := by
  refine Frame.comp hr0 ?_ m0
  unfold State.free
  dsimp only
  repeat' (first | with_reducible exact Frame.refl _ _ | exact Eq.refl _ | with_reducible apply upd_fresh)

/-- May change fresh. -/
theorem random_frame (s : State) (hr0 : Frame F0 r0 s) (m0 : 0x8000000000000 ||| F0 = F0) :
    Frame F0 r0 (State.random s).2 := by
  refine Frame.comp hr0 ?_ m0
  unfold State.random
  dsimp only
  repeat' (first | with_reducible exact Frame.refl _ _ | exact Eq.refl _ | with_reducible apply upd_fresh)

/-- May change fences. -/
theorem setFence_frame (s : State) (u : UnitId) (f : Option Fence) (hr0 : Frame F0 r0 s) (m0 : 0x200000000000 ||| F0 = F0) :
    Frame F0 r0 (State.setFence s u f) := by
  refine Frame.comp hr0 ?_ m0
  unfold State.setFence
  dsimp only
  repeat' (first | with_reducible exact Frame.refl _ _ | split | exact Eq.refl _ | with_reducible apply upd_fences)

/-- May change links. -/
theorem linkError_frame (s : State) (fatal : Bool) (hr0 : Frame F0 r0 s) (m0 : 0x80 ||| F0 = F0) :
    Frame F0 r0 (State.linkError s fatal) := by
  refine Frame.comp hr0 ?_ m0
  unfold State.linkError
  repeat' (first
    | with_reducible exact Frame.refl _ _ | with_reducible apply Frame.ite | split | exact Eq.refl _
    | with_reducible apply upd_links | exact modAt_length _ _ _ | exact List.length_map _)

/-- May change fenceSoon. -/
theorem report_frame (s : State) (u : UnitId) (c : FenceCause) (hr0 : Frame F0 r0 s) (m0 : 0x800000000000 ||| F0 = F0) :
    Frame F0 r0 (State.report s u c) := by
  refine Frame.comp hr0 ?_ m0
  unfold State.report
  repeat' (first
    | with_reducible exact Frame.refl _ _ | with_reducible apply Frame.ite | split | exact Eq.refl _
    | with_reducible apply upd_fenceSoon)

/-- May change recorder. -/
theorem recordBin_frame (s : State) (id bin : Nat) (v : Option Int) (hr0 : Frame F0 r0 s) (m0 : 0x100000000000 ||| F0 = F0) :
    Frame F0 r0 (State.recordBin s id bin v) := by
  refine Frame.comp hr0 ?_ m0
  unfold State.recordBin
  repeat' (first | with_reducible exact Frame.refl _ _ | with_reducible apply modRec_frame | exact Eq.refl _)

/-- May change recorder. -/
theorem record_frame (s : State) (id : Nat) (v : Int) (hr0 : Frame F0 r0 s) (m0 : 0x100000000000 ||| F0 = F0) :
    Frame F0 r0 (State.record s id v) := by
  refine Frame.comp hr0 ?_ m0
  unfold State.record
  repeat' (first | with_reducible exact Frame.refl _ _ | with_reducible apply recordBin_frame | exact Eq.refl _)

/-- May change regs, recorder. -/
theorem recordNotice_frame (s : State) (n : Notice) (hr0 : Frame F0 r0 s) (m0 : 0x100000000004 ||| F0 = F0) :
    Frame F0 r0 (State.recordNotice s n) := by
  refine Frame.comp hr0 ?_ m0
  unfold State.recordNotice
  repeat' (first
    | with_reducible exact Frame.refl _ _ | with_reducible apply addF_frame | with_reducible apply modRec_frame
    | exact Eq.refl _)

/-- May change regs, recorder. -/
theorem event_frame (s : State) (e : EventSample) (hr0 : Frame F0 r0 s) (m0 : 0x100000000004 ||| F0 = F0) :
    Frame F0 r0 (State.event s e) := by
  refine Frame.comp hr0 ?_ m0
  unfold State.event
  repeat' (first
    | with_reducible exact Frame.refl _ _ | with_reducible apply modRec_frame | with_reducible apply addF_frame
    | with_reducible apply record_frame | with_reducible apply recordNotice_frame | with_reducible apply Frame.ite | split
    | exact Eq.refl _)

/-- May change regs, recorder. -/
theorem notice_frame (s : State) (kind source first last : Nat) (hr0 : Frame F0 r0 s) (m0 : 0x100000000004 ||| F0 = F0) :
    Frame F0 r0 (State.notice s kind source first last) := by
  refine Frame.comp hr0 ?_ m0
  unfold State.notice
  repeat' (first | with_reducible exact Frame.refl _ _ | with_reducible apply event_frame | exact Eq.refl _)

/-- May change recorder. -/
theorem openInterval_frame (s : State) (kind source : Nat) (hr0 : Frame F0 r0 s) (m0 : 0x100000000000 ||| F0 = F0) :
    Frame F0 r0 (State.openInterval s kind source) := by
  refine Frame.comp hr0 ?_ m0
  unfold State.openInterval
  repeat' (first
    | with_reducible exact Frame.refl _ _ | with_reducible apply modRec_frame | with_reducible apply Frame.ite | split
    | exact Eq.refl _)

/-- May change regs, recorder. -/
theorem endInterval_frame (s : State) (kind source last : Nat) (hr0 : Frame F0 r0 s) (m0 : 0x100000000004 ||| F0 = F0) :
    Frame F0 r0 (State.endInterval s kind source last) := by
  refine Frame.comp hr0 ?_ m0
  unfold State.endInterval
  repeat' (first
    | with_reducible exact Frame.refl _ _ | with_reducible apply notice_frame | with_reducible apply modRec_frame | split
    | exact Eq.refl _)

/-- May change regs, recorder. -/
theorem closeInterval_frame (s : State) (kind source : Nat) (hr0 : Frame F0 r0 s) (m0 : 0x100000000004 ||| F0 = F0) :
    Frame F0 r0 (State.closeInterval s kind source) := by
  refine Frame.comp hr0 ?_ m0
  unfold State.closeInterval
  repeat' (first | with_reducible exact Frame.refl _ _ | with_reducible apply endInterval_frame | exact Eq.refl _)

/-- May change regs, recorder. -/
theorem closeAllIntervals_frame (s : State) (hr0 : Frame F0 r0 s) (m0 : 0x100000000004 ||| F0 = F0) :
    Frame F0 r0 (State.closeAllIntervals s) := by
  refine Frame.comp hr0 ?_ m0
  unfold State.closeAllIntervals
  repeat' (first
    | with_reducible exact Frame.refl _ _ | (intro _) | with_reducible assumption | with_reducible apply closeInterval_frame
    | with_reducible apply Frame.foldl | exact Eq.refl _)

/-- May change recorder. -/
theorem sealedOut_frame (s : State) (source : Nat) (hr0 : Frame F0 r0 s) (m0 : 0x100000000000 ||| F0 = F0) :
    Frame F0 r0 (State.sealedOut s source) := by
  refine Frame.comp hr0 ?_ m0
  unfold State.sealedOut
  repeat' (first | with_reducible exact Frame.refl _ _ | with_reducible apply openInterval_frame | exact Eq.refl _)

/-- May change regs, recorder. -/
theorem sealedIn_frame (s : State) (source : Nat) (hr0 : Frame F0 r0 s) (m0 : 0x100000000004 ||| F0 = F0) :
    Frame F0 r0 (State.sealedIn s source) := by
  refine Frame.comp hr0 ?_ m0
  unfold State.sealedIn
  repeat' (first | with_reducible exact Frame.refl _ _ | with_reducible apply endInterval_frame | exact Eq.refl _)

/-! ### KeyOps -/

/-- May change regs, nvm. -/
theorem putKey_frame (s : State) (n : Nat) (k : KeySlot) (hr0 : Frame F0 r0 s) (m0 : 0x20000000004 ||| F0 = F0) :
    Frame F0 r0 (State.putKey s n k) := by
  refine Frame.comp hr0 ?_ m0
  unfold State.putKey
  dsimp only
  repeat' (first
    | with_reducible exact Frame.refl _ _ | with_reducible apply modNvm_frame | with_reducible apply setBit_frame
    | with_reducible apply Frame.ite | split | exact Eq.refl _)

/-- May change slices, nvm. -/
theorem zeroCounters_frame (s : State) (n : Nat) (hr0 : Frame F0 r0 s) (m0 : 0x20000020000 ||| F0 = F0) :
    Frame F0 r0 (State.zeroCounters s n) := by
  refine Frame.comp hr0 ?_ m0
  unfold State.zeroCounters
  dsimp only
  repeat' (first
    | with_reducible exact Frame.refl _ _ | with_reducible apply mapSlices_frame | with_reducible apply modNvm_frame
    | exact SlmSame.of fun _ => rfl | exact Eq.refl _)

/-- May change regs, slices, nvm. -/
theorem loadKey_frame (s : State) (n use : Nat) (k : Key) (hr0 : Frame F0 r0 s) (m0 : 0x20000020004 ||| F0 = F0) :
    Frame F0 r0 (State.loadKey s n use k) := by
  refine Frame.comp hr0 ?_ m0
  unfold State.loadKey
  dsimp only
  repeat' (first
    | with_reducible exact Frame.refl _ _ | with_reducible apply zeroCounters_frame | with_reducible apply putKey_frame | split
    | exact Eq.refl _)

/-- May change regs, nvm. -/
theorem loadInternal_frame (s : State) (n use : Nat) (k : Key) (hr0 : Frame F0 r0 s) (m0 : 0x20000000004 ||| F0 = F0) :
    Frame F0 r0 (State.loadInternal s n use k) := by
  refine Frame.comp hr0 ?_ m0
  unfold State.loadInternal
  repeat' (first | with_reducible exact Frame.refl _ _ | with_reducible apply putKey_frame | exact Eq.refl _)

/-- May change regs, nvm. -/
theorem emptySlot_frame (s : State) (n : Nat) (hr0 : Frame F0 r0 s) (m0 : 0x20000000004 ||| F0 = F0) :
    Frame F0 r0 (State.emptySlot s n) := by
  refine Frame.comp hr0 ?_ m0
  unfold State.emptySlot
  dsimp only
  repeat' (first | with_reducible exact Frame.refl _ _ | with_reducible apply putKey_frame | exact Eq.refl _)

/-- May change namespaces. -/
theorem unbind_frame (s : State) (n : Nat) (hr0 : Frame F0 r0 s) (m0 : 0x800 ||| F0 = F0) :
    Frame F0 r0 (State.unbind s n) := by
  refine Frame.comp hr0 ?_ m0
  unfold State.unbind
  repeat' (first
    | with_reducible exact Frame.refl _ _ | with_reducible apply mapNs_frame | with_reducible apply Frame.ite | split
    | exact Eq.refl _)

/-- May change nvm. -/
theorem setCtrP_frame (s : State) (sl n : Nat) (v : BitVec 64) (hr0 : Frame F0 r0 s) (m0 : 0x20000000000 ||| F0 = F0) :
    Frame F0 r0 (State.setCtrP s sl n v) := by
  refine Frame.comp hr0 ?_ m0
  unfold State.setCtrP
  repeat' (first | with_reducible exact Frame.refl _ _ | with_reducible apply modNvm_frame | exact Eq.refl _)

/-- May change slices. -/
theorem takeCtr_frame (s : State) (sl n : Nat) (hr0 : Frame F0 r0 s) (m0 : 0x20000 ||| F0 = F0) :
    Frame F0 r0 (State.takeCtr s sl n).2 := by
  refine Frame.comp hr0 ?_ m0
  unfold State.takeCtr
  dsimp only
  repeat' (first
    | with_reducible exact Frame.refl _ _ | with_reducible apply modSlice_frame | exact SlmSame.of fun _ => rfl
    | exact Eq.refl _)

/-! ### HostOps -/

/-- May change inflight. -/
theorem modIn_frame (s : State) (h : Hdr) (f : InFlight → InFlight) (hr0 : Frame F0 r0 s) (m0 : 0x200 ||| F0 = F0) :
    Frame F0 r0 (State.modIn s h f) := by
  refine Frame.comp hr0 ?_ m0
  unfold State.modIn
  repeat' (first
    | with_reducible exact Frame.refl _ _ | with_reducible apply mapInflight_frame | with_reducible apply Frame.ite | split
    | exact Eq.refl _)

/-- May change inflight. -/
theorem answer_frame (s : State) (h : Hdr) (a : Answer) (conds : List Cond) (hr0 : Frame F0 r0 s) (m0 : 0x200 ||| F0 = F0) :
    Frame F0 r0 (State.answer s h a conds) := by
  refine Frame.comp hr0 ?_ m0
  unfold State.answer
  repeat' (first | with_reducible exact Frame.refl _ _ | with_reducible apply modIn_frame | exact Eq.refl _)

/-- May change inflight. -/
theorem finish_frame (s : State) (h : Hdr) (a : Answer) (hr0 : Frame F0 r0 s) (m0 : 0x200 ||| F0 = F0) :
    Frame F0 r0 (State.finish s h a) := by
  refine Frame.comp hr0 ?_ m0
  unfold State.finish
  repeat' (first | with_reducible exact Frame.refl _ _ | with_reducible apply answer_frame | exact Eq.refl _)

/-- May change inflight. -/
theorem hold_frame (s : State) (h : Hdr) (hr0 : Frame F0 r0 s) (m0 : 0x200 ||| F0 = F0) :
    Frame F0 r0 (State.hold s h) := by
  refine Frame.comp hr0 ?_ m0
  unfold State.hold
  repeat' (first | with_reducible exact Frame.refl _ _ | with_reducible apply modIn_frame | exact Eq.refl _)

/-- May change nothing. -/
theorem run_frame (s : State) (h : Hdr) (f : State → State) (hr0 : Frame F0 r0 s) (m0 : 0x0 ||| F0 = F0) (h_f : ∀ t, Frame F0 r0
    t → Frame F0 r0 (f t)) :
    Frame F0 r0 (State.run s h f) := by
  unfold State.run
  repeat' (first
    | with_reducible exact hr0 | with_reducible apply h_f | (intro _) | with_reducible assumption
    | with_reducible apply Frame.ite | split | exact mask_or ‹_› rfl)

/-- May change inflight. -/
theorem clearCond_frame (s : State) (c : Cond) (hr0 : Frame F0 r0 s) (m0 : 0x200 ||| F0 = F0) :
    Frame F0 r0 (State.clearCond s c) := by
  refine Frame.comp hr0 ?_ m0
  unfold State.clearCond
  repeat' (first | with_reducible exact Frame.refl _ _ | with_reducible apply mapInflight_frame | exact Eq.refl _)

/-- May change inflight. -/
theorem failCond_frame (s : State) (c : Cond) (a : Answer) (hr0 : Frame F0 r0 s) (m0 : 0x200 ||| F0 = F0) :
    Frame F0 r0 (State.failCond s c a) := by
  refine Frame.comp hr0 ?_ m0
  unfold State.failCond
  repeat' (first
    | with_reducible exact Frame.refl _ _ | with_reducible apply mapInflight_frame | with_reducible apply Frame.ite | split
    | exact Eq.refl _)

/-- May change inflight. -/
theorem discard_frame (s : State) (c : Nat) (hr0 : Frame F0 r0 s) (m0 : 0x200 ||| F0 = F0) :
    Frame F0 r0 (State.discard s c) := by
  refine Frame.comp hr0 ?_ m0
  unfold State.discard
  repeat' (first | with_reducible exact Frame.refl _ _ | exact Eq.refl _ | with_reducible apply upd_inflight)

/-- May change ctrls, inflight. -/
theorem raise_frame (s : State) (c : Nat) (e : AsyncEvent) (hr0 : Frame F0 r0 s) (m0 : 0x300 ||| F0 = F0) :
    Frame F0 r0 (State.raise s c e) := by
  refine Frame.comp hr0 ?_ m0
  unfold State.raise
  repeat' (first
    | with_reducible exact Frame.refl _ _ | with_reducible apply modIn_frame | with_reducible apply modCtrl_frame | split
    | exact Eq.refl _)

/-- May change nvm. -/
theorem unfault_frame (s : State) (nsid lba : Nat) (hr0 : Frame F0 r0 s) (m0 : 0x20000000000 ||| F0 = F0) :
    Frame F0 r0 (State.unfault s nsid lba) := by
  refine Frame.comp hr0 ?_ m0
  unfold State.unfault
  repeat' (first
    | with_reducible exact Frame.refl _ _ | with_reducible apply modNvm_frame | with_reducible apply Frame.ite | split
    | exact Eq.refl _)

/-- May change ctrls, inflight, nvm. -/
theorem deferFault_frame (s : State) (owner cause nsid slba nlb : Nat) (hr0 : Frame F0 r0 s) (m0 : 0x20000000300 ||| F0 = F0) :
    Frame F0 r0 (State.deferFault s owner cause nsid slba nlb) := by
  refine Frame.comp hr0 ?_ m0
  unfold State.deferFault
  dsimp only
  repeat' (first
    | with_reducible exact Frame.refl _ _ | (intro _) | with_reducible assumption | with_reducible apply modNvm_frame
    | with_reducible apply raise_frame | with_reducible apply modCtrl_frame | with_reducible apply Frame.ite
    | with_reducible apply Frame.foldl | split | exact Eq.refl _)

/-- May change nvm. -/
theorem clearPending_frame (s : State) (owner nsid : Nat) (hr0 : Frame F0 r0 s) (m0 : 0x20000000000 ||| F0 = F0) :
    Frame F0 r0 (State.clearPending s owner nsid) := by
  refine Frame.comp hr0 ?_ m0
  unfold State.clearPending
  repeat' (first
    | with_reducible exact Frame.refl _ _ | with_reducible apply modNvm_frame | with_reducible apply Frame.ite | split
    | exact Eq.refl _)

/-! ### DramOps -/

/-- May change slices. -/
theorem dramPut_frame (s : State) (n c port owner ca pieces : Nat) (write : Bool) (hr0 : Frame F0 r0 s) (m0 : 0x20000 ||| F0 =
    F0) :
    Frame F0 r0 (State.dramPut s n c port owner ca pieces write) := by
  refine Frame.comp hr0 ?_ m0
  unfold State.dramPut
  repeat' (first
    | with_reducible exact Frame.refl _ _ | with_reducible apply modSlice_frame | with_reducible apply Frame.ite
    | exact SlmSame.of fun _ => rfl | split | exact Eq.refl _)

/-- May change slices. -/
theorem dramAt_frame (s : State) (n c port owner ca len : Nat) (write : Bool) (hr0 : Frame F0 r0 s) (m0 : 0x20000 ||| F0 = F0) :
    Frame F0 r0 (State.dramAt s n c port owner ca len write) := by
  refine Frame.comp hr0 ?_ m0
  unfold State.dramAt
  repeat' (first
    | with_reducible exact Frame.refl _ _ | with_reducible apply dramPut_frame | with_reducible apply Frame.ite | split
    | exact Eq.refl _)

/-- May change slices. -/
theorem dramAsk_frame (s : State) (n port owner a len : Nat) (write : Bool) (hr0 : Frame F0 r0 s) (m0 : 0x20000 ||| F0 = F0) :
    Frame F0 r0 (State.dramAsk s n port owner a len write) := by
  refine Frame.comp hr0 ?_ m0
  unfold State.dramAsk
  dsimp only
  repeat' (first
    | with_reducible exact Frame.refl _ _ | (intro _) | with_reducible assumption | with_reducible apply dramAt_frame
    | with_reducible apply dramPut_frame | with_reducible apply Frame.ite | with_reducible apply Frame.foldl | split
    | exact Eq.refl _)

/-- May change slices. -/
theorem dramCopies_frame (s : State) (n w b owner : Nat) (chans : List Nat) (hr0 : Frame F0 r0 s) (m0 : 0x20000 ||| F0 = F0) :
    Frame F0 r0 (State.dramCopies s n w b owner chans) := by
  refine Frame.comp hr0 ?_ m0
  unfold State.dramCopies
  repeat' (first
    | with_reducible exact Frame.refl _ _ | (intro _) | with_reducible assumption | with_reducible apply dramAt_frame
    | with_reducible apply Frame.foldl | exact Eq.refl _)

/-- May change slices. -/
theorem dramStream_frame (s : State) (n w r owner bytes : Nat) (chans : List Nat) (hr0 : Frame F0 r0 s) (m0 : 0x20000 ||| F0 =
    F0) :
    Frame F0 r0 (State.dramStream s n w r owner bytes chans) := by
  refine Frame.comp hr0 ?_ m0
  unfold State.dramStream
  dsimp only
  repeat' (first
    | with_reducible exact Frame.refl _ _ | with_reducible apply dramAt_frame | with_reducible apply Frame.ite | split
    | exact Eq.refl _)

/-! ### CtxOps -/

/-- May change slices. -/
theorem newCtx_frame (s : State) (n c ix kind owner : Nat) (inv : Option Nat) (flow : Nat) (hr0 : Frame F0 r0 s) (m0 : 0x20000
    ||| F0 = F0) :
    Frame F0 r0 (State.newCtx s n c ix kind owner inv flow) := by
  refine Frame.comp hr0 ?_ m0
  unfold State.newCtx
  dsimp only
  repeat' (first
    | with_reducible exact Frame.refl _ _ | with_reducible apply modSlice_frame | exact SlmSame.of fun _ => rfl
    | exact Eq.refl _)

/-- May change slices. -/
theorem dropCtx_frame (s : State) (n ix : Nat) (hr0 : Frame F0 r0 s) (m0 : 0x20000 ||| F0 = F0) :
    Frame F0 r0 (State.dropCtx s n ix) := by
  refine Frame.comp hr0 ?_ m0
  unfold State.dropCtx
  repeat' (first
    | with_reducible exact Frame.refl _ _ | with_reducible apply modSlice_frame | exact SlmSame.of fun _ => rfl
    | exact Eq.refl _)

/-! ### CipherPath -/

/-- May change regs. -/
theorem evalPaths_frame (s : State) (n : Nat) (hr0 : Frame F0 r0 s) (m0 : 0x4 ||| F0 = F0) :
    Frame F0 r0 (State.evalPaths s n) := by
  refine Frame.comp hr0 ?_ m0
  unfold State.evalPaths
  repeat' (first
    | with_reducible exact Frame.refl _ _ | (intro _) | with_reducible assumption | with_reducible apply setBit_frame
    | with_reducible apply putF_frame | with_reducible apply Frame.ite | with_reducible apply Frame.foldl | split
    | exact Eq.refl _)

/-- May change slices. -/
theorem maskDraw_frame (s : State) (n u : Nat) (hr0 : Frame F0 r0 s) (m0 : 0x20000 ||| F0 = F0) :
    Frame F0 r0 (State.maskDraw s n u).2 := by
  refine Frame.comp hr0 ?_ m0
  unfold State.maskDraw
  dsimp only
  repeat' (first
    | with_reducible exact Frame.refl _ _ | with_reducible apply modSlice_frame | exact SlmSame.of fun _ => rfl
    | exact Eq.refl _)

/-- May change slices, fresh. -/
theorem turnGenerators_frame (s : State) (n : Nat) (hr0 : Frame F0 r0 s) (m0 : 0x8000000020000 ||| F0 = F0) :
    Frame F0 r0 (State.turnGenerators s n) := by
  refine Frame.comp hr0 ?_ m0
  unfold State.turnGenerators
  dsimp only
  repeat' (first
    | with_reducible exact Frame.refl _ _ | (intro _) | with_reducible assumption | with_reducible apply random_frame
    | with_reducible apply modSlice_frame | with_reducible apply maskDraw_frame | with_reducible apply Frame.ite
    | with_reducible apply Frame.foldl | exact SlmSame.of fun _ => rfl | split | exact Eq.refl _)

/-- May change course, fresh. -/
theorem turnHubSeed_frame (s : State) (hr0 : Frame F0 r0 s) (m0 : 0x8000000000020 ||| F0 = F0) :
    Frame F0 r0 (State.turnHubSeed s) := by
  refine Frame.comp hr0 ?_ m0
  unfold State.turnHubSeed
  dsimp only
  repeat' (first
    | with_reducible exact Frame.refl _ _ | with_reducible apply random_frame | with_reducible apply modCourse_frame
    | with_reducible apply Frame.ite | split | exact Eq.refl _)

/-- May change regs, slices. -/
theorem keyUse_frame (s : State) (n r k : Nat) (hr0 : Frame F0 r0 s) (m0 : 0x20004 ||| F0 = F0) :
    Frame F0 r0 (State.keyUse s n r k) := by
  refine Frame.comp hr0 ?_ m0
  unfold State.keyUse
  dsimp only
  repeat' (first
    | with_reducible exact Frame.refl _ _ | with_reducible apply inc_frame | with_reducible apply maskDraw_frame
    | with_reducible apply modSlice_frame | with_reducible apply Frame.ite | exact SlmSame.of fun _ => rfl | split
    | exact Eq.refl _)

/-- May change slices. -/
theorem purgeKeys_frame (s : State) (n : Nat) (hr0 : Frame F0 r0 s) (m0 : 0x20000 ||| F0 = F0) :
    Frame F0 r0 (State.purgeKeys s n) := by
  refine Frame.comp hr0 ?_ m0
  unfold State.purgeKeys
  repeat' (first
    | with_reducible exact Frame.refl _ _ | with_reducible apply modSlice_frame | exact SlmSame.of fun _ => rfl
    | exact Eq.refl _)

/-- May change slices. -/
theorem addWork_frame (s : State) (n : Nat) (w : EngWork) (hr0 : Frame F0 r0 s) (m0 : 0x20000 ||| F0 = F0) :
    Frame F0 r0 (State.addWork s n w).2 := by
  refine Frame.comp hr0 ?_ m0
  unfold State.addWork
  dsimp only
  repeat' (first
    | with_reducible exact Frame.refl _ _ | with_reducible apply modSlice_frame | exact SlmSame.of fun _ => rfl
    | exact Eq.refl _)

/-- May change slices. -/
theorem transient_frame (s : State) (n : Nat) (hr0 : Frame F0 r0 s) (m0 : 0x20000 ||| F0 = F0) :
    Frame F0 r0 (State.transient s n).2 := by
  refine Frame.comp hr0 ?_ m0
  unfold State.transient
  repeat' (first
    | with_reducible exact Frame.refl _ _ | with_reducible apply newCtx_frame | with_reducible apply Frame.ite | split
    | exact Eq.refl _)

/-- May change regs, slices. -/
theorem cipherWork_frame (s : State) (n r owner key bytes : Nat) (why : EngFor) (hr0 : Frame F0 r0 s) (m0 : 0x20004 ||| F0 = F0)
    :
    Frame F0 r0 (State.cipherWork s n r owner key bytes why).2 := by
  refine Frame.comp hr0 ?_ m0
  unfold State.cipherWork
  dsimp only
  repeat' (first
    | with_reducible exact Frame.refl _ _ | with_reducible apply transient_frame | with_reducible apply addWork_frame
    | with_reducible apply keyUse_frame | with_reducible apply Frame.ite | split | exact Eq.refl _)

/-! ### MediaOps -/

/-- May change slices. -/
theorem erase_frame (s : State) (n lun b : Nat) (m : CellMode) (rate : Nat) (hr0 : Frame F0 r0 s) (m0 : 0x20000 ||| F0 = F0) :
    Frame F0 r0 (State.erase s n lun b m rate) := by
  refine Frame.comp hr0 ?_ m0
  unfold State.erase
  repeat' (first
    | with_reducible exact Frame.refl _ _ | with_reducible apply modSlice_frame | exact SlmSame.of fun _ => rfl
    | exact Eq.refl _)

/-- May change regs, slices. -/
theorem evalSpare_frame (s : State) (n : Nat) (hr0 : Frame F0 r0 s) (m0 : 0x20004 ||| F0 = F0) :
    Frame F0 r0 (State.evalSpare s n) := by
  refine Frame.comp hr0 ?_ m0
  unfold State.evalSpare
  dsimp only
  repeat' (first
    | with_reducible exact Frame.refl _ _ | (intro _) | with_reducible assumption | with_reducible apply modSlice_frame
    | with_reducible apply setBit_frame | with_reducible apply putBit_frame | with_reducible apply putF_frame
    | with_reducible apply Frame.ite | with_reducible apply Frame.foldl | exact SlmSame.of fun _ => rfl | split
    | exact Eq.refl _)

/-- May change wearRateMax. -/
theorem updateWearRate_frame (s : State) (hr0 : Frame F0 r0 s) (m0 : 0x10000000000 ||| F0 = F0) :
    Frame F0 r0 (State.updateWearRate s) := by
  refine Frame.comp hr0 ?_ m0
  unfold State.updateWearRate
  dsimp only
  repeat' (first | with_reducible exact Frame.refl _ _ | exact Eq.refl _ | with_reducible apply upd_wearRateMax)

/-- May change slices. -/
theorem queueErase_frame (s : State) (n lun b : Nat) (m : CellMode) (rate : Nat) (why : FlFor) (hr0 : Frame F0 r0 s) (m0 :
    0x20000 ||| F0 = F0) :
    Frame F0 r0 (State.queueErase s n lun b m rate why) := by
  refine Frame.comp hr0 ?_ m0
  unfold State.queueErase
  repeat' (first
    | with_reducible exact Frame.refl _ _ | with_reducible apply modSlice_frame | exact SlmSame.of fun _ => rfl
    | exact Eq.refl _)

/-- May change slices. -/
theorem queueProgram_frame (s : State) (n : Nat) (d : MediaDesc) (lun b row : Nat) (m : CellMode) (rate : Nat) (why : FlFor)
    (user : Option Nat) (hr0 : Frame F0 r0 s) (m0 : 0x20000 ||| F0 = F0) :
    Frame F0 r0 (State.queueProgram s n d lun b row m rate why user) := by
  refine Frame.comp hr0 ?_ m0
  unfold State.queueProgram
  repeat' (first
    | with_reducible exact Frame.refl _ _ | with_reducible apply modSlice_frame | exact SlmSame.of fun _ => rfl
    | exact Eq.refl _)

/-- May change slices. -/
theorem queueRead_frame (s : State) (n lun b row : Nat) (m : CellMode) (rate cws : Nat) (why : FlFor) (user : Option Nat) (hr0 :
    Frame F0 r0 s) (m0 : 0x20000 ||| F0 = F0) :
    Frame F0 r0 (State.queueRead s n lun b row m rate cws why user) := by
  refine Frame.comp hr0 ?_ m0
  unfold State.queueRead
  repeat' (first
    | with_reducible exact Frame.refl _ _ | with_reducible apply modSlice_frame | exact SlmSame.of fun _ => rfl
    | exact Eq.refl _)

/-- May change slices. -/
theorem allocSuper_frame (s : State) (n g : Nat) (d : MediaDesc) (p : Pool) (m : CellMode) (rate : Nat) (gc : Bool) (hr0 : Frame
    F0 r0 s) (m0 : 0x20000 ||| F0 = F0) :
    Frame F0 r0 (State.allocSuper s n g d p m rate gc) := by
  refine Frame.comp hr0 ?_ m0
  unfold State.allocSuper
  dsimp only
  repeat' (first
    | with_reducible exact Frame.refl _ _ | (intro _) | with_reducible assumption | with_reducible apply modSlice_frame
    | with_reducible apply queueErase_frame | with_reducible apply Frame.foldl | exact SlmSame.of fun _ => rfl
    | exact Eq.refl _)

/-- May change slices. -/
theorem parityPage_frame (s : State) (n : Nat) (d : MediaDesc) (sb : Superblock) (k : Stripe) (hr0 : Frame F0 r0 s) (m0 :
    0x20000 ||| F0 = F0) :
    Frame F0 r0 (State.parityPage s n d sb k) := by
  refine Frame.comp hr0 ?_ m0
  unfold State.parityPage
  dsimp only
  repeat' (first
    | with_reducible exact Frame.refl _ _ | (intro _) | with_reducible assumption | with_reducible apply modSlice_frame
    | with_reducible apply queueErase_frame | with_reducible apply queueProgram_frame | with_reducible apply Frame.ite
    | with_reducible apply Frame.foldl | exact SlmSame.of fun _ => rfl
    | (refine SlmSame.of fun x => ?_; simp [apply_ite Slice.slm]; done)
    | (refine SlmSame.of fun x => ?_; (try dsimp only); apply slm_foldl; intro _ _; simp; done)
    | (refine SlmSame.of fun x => ?_; (repeat' (first | rfl | (simp [apply_ite Slice.slm]; done) | split)); done) | split
    | exact Eq.refl _)

/-- May change slices. -/
theorem parityDue_frame (s : State) (n : Nat) (d : MediaDesc) (seq : Nat) (hr0 : Frame F0 r0 s) (m0 : 0x20000 ||| F0 = F0) :
    Frame F0 r0 (State.parityDue s n d seq) := by
  refine Frame.comp hr0 ?_ m0
  unfold State.parityDue
  repeat' (first
    | with_reducible exact Frame.refl _ _ | (intro _) | with_reducible assumption | with_reducible apply parityPage_frame
    | with_reducible apply Frame.ite | with_reducible apply Frame.foldl | split | exact Eq.refl _)

/-- May change slices. -/
theorem issue_frame (s : State) (n : Nat) (d : MediaDesc) (seq upto : Nat) (user : Option Nat) (hr0 : Frame F0 r0 s) (m0 :
    0x20000 ||| F0 = F0) :
    Frame F0 r0 (State.issue s n d seq upto user) := by
  refine Frame.comp hr0 ?_ m0
  unfold State.issue
  dsimp only
  repeat' (first
    | with_reducible exact Frame.refl _ _ | (intro _) | with_reducible assumption | with_reducible apply modSlice_frame
    | with_reducible apply queueProgram_frame | with_reducible apply parityDue_frame | with_reducible apply Frame.foldl
    | exact SlmSame.of fun _ => rfl | split | exact Eq.refl _)

/-- May change slices. -/
theorem groutTo_frame (s : State) (n seq stop : Nat) (hr0 : Frame F0 r0 s) (m0 : 0x20000 ||| F0 = F0) :
    Frame F0 r0 (State.groutTo s n seq stop) := by
  refine Frame.comp hr0 ?_ m0
  unfold State.groutTo
  repeat' (first
    | with_reducible exact Frame.refl _ _ | with_reducible apply modSlice_frame | with_reducible apply Frame.ite
    | exact SlmSame.of fun _ => rfl | (refine SlmSame.of fun x => ?_; simp [apply_ite Slice.slm]; done)
    | (refine SlmSame.of fun x => ?_; (try dsimp only); apply slm_foldl; intro _ _; simp; done)
    | (refine SlmSame.of fun x => ?_; (repeat' (first | rfl | (simp [apply_ite Slice.slm]; done) | split)); done) | split
    | exact Eq.refl _)

/-- May change slices. -/
theorem groutPage_frame (s : State) (n : Nat) (d : MediaDesc) (seq : Nat) (user : Option Nat) (hr0 : Frame F0 r0 s) (m0 :
    0x20000 ||| F0 = F0) :
    Frame F0 r0 (State.groutPage s n d seq user) := by
  refine Frame.comp hr0 ?_ m0
  unfold State.groutPage
  dsimp only
  repeat' (first
    | with_reducible exact Frame.refl _ _ | with_reducible apply issue_frame | with_reducible apply groutTo_frame | split
    | exact Eq.refl _)

/-- May change slices. -/
theorem finishSuper_frame (s : State) (n : Nat) (d : MediaDesc) (seq : Nat) (hr0 : Frame F0 r0 s) (m0 : 0x20000 ||| F0 = F0) :
    Frame F0 r0 (State.finishSuper s n d seq) := by
  refine Frame.comp hr0 ?_ m0
  unfold State.finishSuper
  repeat' (first
    | with_reducible exact Frame.refl _ _ | with_reducible apply issue_frame | with_reducible apply groutTo_frame | split
    | exact Eq.refl _)

/-- May change slices. -/
theorem pack_frame (s : State) (n : Nat) (d : MediaDesc) (seq start size : Nat) (user : Option Nat) (hr0 : Frame F0 r0 s) (m0 :
    0x20000 ||| F0 = F0) :
    Frame F0 r0 (State.pack s n d seq start size user) := by
  refine Frame.comp hr0 ?_ m0
  unfold State.pack
  dsimp only
  repeat' (first
    | with_reducible exact Frame.refl _ _ | with_reducible apply modSlice_frame | with_reducible apply groutTo_frame
    | with_reducible apply issue_frame | with_reducible apply Frame.ite | exact SlmSame.of fun _ => rfl | split
    | exact Eq.refl _)

/-- May change slices. -/
theorem targetSuper_frame (s : State) (n : Nat) (d : MediaDesc) (p : Pool) (m : CellMode) (rate region size : Nat) (gc : Bool)
    (tried : List Nat) (again : Bool) (hr0 : Frame F0 r0 s) (m0 : 0x20000 ||| F0 = F0) :
    Frame F0 r0 (State.targetSuper s n d p m rate region size gc tried again).1 := by
  refine Frame.comp hr0 ?_ m0
  unfold State.targetSuper
  dsimp only
  repeat' (first
    | with_reducible exact Frame.refl _ _ | with_reducible apply finishSuper_frame | with_reducible apply allocSuper_frame
    | with_reducible apply Frame.ite | split | exact Eq.refl _)

/-- May change slices. -/
theorem bufferBlock_frame (s : State) (n nsid lua i b : Nat) (d : Block) (writer : Nat) (hr0 : Frame F0 r0 s) (m0 : 0x20000 |||
    F0 = F0) :
    Frame F0 r0 (State.bufferBlock s n nsid lua i b d writer).2 := by
  refine Frame.comp hr0 ?_ m0
  unfold State.bufferBlock
  dsimp only
  repeat' (first
    | with_reducible exact Frame.refl _ _ | with_reducible apply dramCopies_frame | with_reducible apply modSlice_frame
    | with_reducible apply Frame.ite | exact SlmSame.of fun _ => rfl | split | exact Eq.refl _)

/-- May change slices. -/
theorem supersede_frame (s : State) (n i : Nat) (e : Entry) (hr0 : Frame F0 r0 s) (m0 : 0x20000 ||| F0 = F0) :
    Frame F0 r0 (State.supersede s n i e).2 := by
  refine Frame.comp hr0 ?_ m0
  unfold State.supersede
  dsimp only
  repeat' (first
    | with_reducible exact Frame.refl _ _ | with_reducible apply modSlice_frame | with_reducible apply Frame.ite
    | exact SlmSame.of fun _ => rfl | split | exact Eq.refl _)

/-- May change slices. -/
theorem countReads_frame (s : State) (n lun block k : Nat) (hr0 : Frame F0 r0 s) (m0 : 0x20000 ||| F0 = F0) :
    Frame F0 r0 (State.countReads s n lun block k) := by
  refine Frame.comp hr0 ?_ m0
  unfold State.countReads
  dsimp only
  repeat' (first
    | with_reducible exact Frame.refl _ _ | with_reducible apply modSlice_frame | with_reducible apply Frame.ite
    | exact SlmSame.of fun _ => rfl | split | exact Eq.refl _)

/-- May change slices. -/
theorem senseUnit_frame (s : State) (n : Nat) (u : StoredUnit) (why : FlFor) (user : Option Nat) (hr0 : Frame F0 r0 s) (m0 :
    0x20000 ||| F0 = F0) :
    Frame F0 r0 (State.senseUnit s n u why user) := by
  refine Frame.comp hr0 ?_ m0
  unfold State.senseUnit
  repeat' (first
    | with_reducible exact Frame.refl _ _ | (intro _) | with_reducible assumption | with_reducible apply queueRead_frame
    | with_reducible apply countReads_frame | with_reducible apply Frame.foldl | split | exact Eq.refl _)

/-- May change regs, slices. -/
theorem openUnit_frame (s : State) (n : Nat) (u : StoredUnit) (owner : Nat) (why : EngFor) (hr0 : Frame F0 r0 s) (m0 : 0x20004
    ||| F0 = F0) :
    Frame F0 r0 (State.openUnit s n u owner why) := by
  refine Frame.comp hr0 ?_ m0
  unfold State.openUnit
  dsimp only
  repeat' (first
    | with_reducible exact Frame.refl _ _ | with_reducible apply cipherWork_frame | with_reducible apply addWork_frame
    | with_reducible apply setBit_frame | with_reducible apply inc_frame | with_reducible apply Frame.ite | split
    | exact Eq.refl _)

/-- May change regs, inflight, slices. -/
theorem countRead_frame (s : State) (n : Nat) (u : StoredUnit) (h : Hdr) (user : Option Nat) (hr0 : Frame F0 r0 s) (m0 : 0x20204
    ||| F0 = F0) :
    Frame F0 r0 (State.countRead s n u h user) := by
  refine Frame.comp hr0 ?_ m0
  unfold State.countRead
  dsimp only
  repeat' (first
    | with_reducible exact Frame.refl _ _ | with_reducible apply senseUnit_frame | with_reducible apply openUnit_frame
    | with_reducible apply modIn_frame | with_reducible apply Frame.ite | split | exact Eq.refl _)

/-- May change inflight, slices. -/
theorem pagedLookup_frame (s : State) (n i : Nat) (h : Hdr) (user : Option Nat) (hr0 : Frame F0 r0 s) (m0 : 0x20200 ||| F0 = F0)
    :
    Frame F0 r0 (State.pagedLookup s n i h user) := by
  refine Frame.comp hr0 ?_ m0
  unfold State.pagedLookup
  dsimp only
  repeat' (first
    | with_reducible exact Frame.refl _ _ | with_reducible apply modSlice_frame | with_reducible apply queueRead_frame
    | with_reducible apply modIn_frame | with_reducible apply Frame.ite | exact SlmSame.of fun _ => rfl | split
    | exact Eq.refl _)

/-! ### FlashOps -/

/-- May change slices. -/
theorem channelCourse_frame (s : State) (n ch : Nat) (hr0 : Frame F0 r0 s) (m0 : 0x20000 ||| F0 = F0) :
    Frame F0 r0 (State.channelCourse s n ch) := by
  refine Frame.comp hr0 ?_ m0
  unfold State.channelCourse
  dsimp only
  repeat' (first
    | with_reducible exact Frame.refl _ _ | (intro _) | with_reducible assumption | with_reducible apply modSlice_frame
    | with_reducible apply Frame.ite | with_reducible apply Frame.foldl | exact SlmSame.of fun _ => rfl | split
    | exact Eq.refl _)

/-- May change slices. -/
theorem flashCourse_frame (s : State) (n : Nat) (hr0 : Frame F0 r0 s) (m0 : 0x20000 ||| F0 = F0) :
    Frame F0 r0 (State.flashCourse s n) := by
  refine Frame.comp hr0 ?_ m0
  unfold State.flashCourse
  dsimp only
  repeat' (first
    | with_reducible exact Frame.refl _ _ | (intro _) | with_reducible assumption | with_reducible apply channelCourse_frame
    | with_reducible apply modSlice_frame | with_reducible apply Frame.foldl | exact SlmSame.of fun _ => rfl | exact Eq.refl _)

/-- May change inflight. -/
theorem clearSensed_frame (s : State) (n : Nat) (hr0 : Frame F0 r0 s) (m0 : 0x200 ||| F0 = F0) :
    Frame F0 r0 (State.clearSensed s n) := by
  refine Frame.comp hr0 ?_ m0
  unfold State.clearSensed
  repeat' (first
    | with_reducible exact Frame.refl _ _ | with_reducible apply mapInflight_frame | with_reducible apply Frame.ite | split
    | exact Eq.refl _)

/-! ### PipeOps -/

/-- May change slices. -/
theorem unitCourse_frame (s : State) (n u : Nat) (hr0 : Frame F0 r0 s) (m0 : 0x20000 ||| F0 = F0) :
    Frame F0 r0 (State.unitCourse s n u) := by
  refine Frame.comp hr0 ?_ m0
  unfold State.unitCourse
  dsimp only
  repeat' (first
    | with_reducible exact Frame.refl _ _ | (intro _) | with_reducible assumption | with_reducible apply modSlice_frame
    | with_reducible apply Frame.ite | with_reducible apply Frame.foldl | exact SlmSame.of fun _ => rfl | split
    | exact Eq.refl _)

/-- May change slices, fresh. -/
theorem savePoint_frame (s : State) (n : Nat) (w : EngWork) (hr0 : Frame F0 r0 s) (m0 : 0x8000000020000 ||| F0 = F0) :
    Frame F0 r0 (State.savePoint s n w) := by
  refine Frame.comp hr0 ?_ m0
  unfold State.savePoint
  dsimp only
  repeat' (first
    | with_reducible exact Frame.refl _ _ | with_reducible apply free_frame | with_reducible apply maskDraw_frame
    | with_reducible apply modSlice_frame | with_reducible apply Frame.ite | exact SlmSame.of fun _ => rfl
    | (refine SlmSame.of fun x => ?_; simp [apply_ite Slice.slm]; done)
    | (refine SlmSame.of fun x => ?_; (try dsimp only); apply slm_foldl; intro _ _; simp; done)
    | (refine SlmSame.of fun x => ?_; (repeat' (first | rfl | (simp [apply_ite Slice.slm]; done) | split)); done) | split
    | exact Eq.refl _)

/-- May change slices. -/
theorem reroute_frame (s : State) (n : Nat) (hr0 : Frame F0 r0 s) (m0 : 0x20000 ||| F0 = F0) :
    Frame F0 r0 (State.reroute s n) := by
  refine Frame.comp hr0 ?_ m0
  unfold State.reroute
  dsimp only
  repeat' (first
    | with_reducible exact Frame.refl _ _ | (intro _) | with_reducible assumption | with_reducible apply modSlice_frame
    | with_reducible apply Frame.ite | with_reducible apply Frame.foldl | exact SlmSame.of fun _ => rfl | split
    | exact Eq.refl _)

/-- May change slices, fresh. -/
theorem engineCourse_frame (s : State) (n : Nat) (hr0 : Frame F0 r0 s) (m0 : 0x8000000020000 ||| F0 = F0) :
    Frame F0 r0 (State.engineCourse s n) := by
  refine Frame.comp hr0 ?_ m0
  unfold State.engineCourse
  dsimp only
  repeat' (first
    | with_reducible exact Frame.refl _ _ | (intro _) | with_reducible assumption | with_reducible apply reroute_frame
    | with_reducible apply unitCourse_frame | with_reducible apply savePoint_frame | with_reducible apply modSlice_frame
    | with_reducible apply Frame.ite | with_reducible apply Frame.foldl | exact SlmSame.of fun _ => rfl | split
    | exact Eq.refl _)

end Sys2Proof.Laws
end

