-- ==== Sys2Proof/Laws/FrameMedia.lean ====
section
/-!
SUPPORT. What each operation may change: streaming, moves and repair of the media.
-/

namespace Sys2Proof.Laws

open Sys2Proof.Machine

variable {F0 : Nat} {r0 : State}

/-! ### StreamOps -/

/-- May change regs, slices, fenceSoon. -/
theorem verifyMismatch_frame (s : State) (n e : Nat) (hr0 : Frame F0 r0 s) (m0 : 0x800000020004 ||| F0 = F0) :
    Frame F0 r0 (State.verifyMismatch s n e) := by
  refine Frame.comp hr0 ?_ m0
  unfold State.verifyMismatch
  dsimp only
  repeat' (first
    | with_reducible exact Frame.refl _ _ | with_reducible apply setBit_frame | with_reducible apply inc_frame
    | with_reducible apply modSlice_frame | with_reducible apply report_frame | with_reducible apply Frame.ite
    | exact SlmSame.of fun _ => rfl | split | exact Eq.refl _)

/-- May change regs, slices, fenceSoon, fresh. -/
theorem storedForm_frame (s : State) (n e : Nat) (bs : List Block) (hr0 : Frame F0 r0 s) (m0 : 0x8800000020004 ||| F0 = F0) :
    Frame F0 r0 (State.storedForm s n e bs).1 := by
  refine Frame.comp hr0 ?_ m0
  unfold State.storedForm
  dsimp only
  repeat' (first
    | with_reducible exact Frame.refl _ _ | with_reducible apply add64_frame | with_reducible apply inc_frame
    | with_reducible apply verifyMismatch_frame | with_reducible apply Frame.ite | split | exact Eq.refl _
    | with_reducible apply upd_fresh)

/-- May change ctrls, inflight, nvm. -/
theorem deferRuns_frame (s : State) (n owner nsid lua : Nat) (bs : List Nat) (cause : Nat) (hr0 : Frame F0 r0 s) (m0 :
    0x20000000300 ||| F0 = F0) :
    Frame F0 r0 (State.deferRuns s n owner nsid lua bs cause) := by
  refine Frame.comp hr0 ?_ m0
  unfold State.deferRuns
  dsimp only
  repeat' (first
    | with_reducible exact Frame.refl _ _ | (intro _) | with_reducible assumption | with_reducible apply deferFault_frame
    | with_reducible apply Frame.foldl | split | exact Eq.refl _)

/-- May change ctrls, inflight, nvm. -/
theorem deferVersion_frame (s : State) (n : Nat) (v : Version) (cause : Nat) (hr0 : Frame F0 r0 s) (m0 : 0x20000000300 ||| F0 =
    F0) :
    Frame F0 r0 (State.deferVersion s n v cause) := by
  refine Frame.comp hr0 ?_ m0
  unfold State.deferVersion
  repeat' (first | with_reducible exact Frame.refl _ _ | with_reducible apply deferRuns_frame | exact Eq.refl _)

/-- May change inflight. -/
theorem failBlocks_frame (s : State) (n : Nat) (x : Namespace) (v : Version) (bs : List Nat) (hr0 : Frame F0 r0 s) (m0 : 0x200
    ||| F0 = F0) :
    Frame F0 r0 (State.failBlocks s n x v bs) := by
  refine Frame.comp hr0 ?_ m0
  unfold State.failBlocks
  dsimp only
  repeat' (first
    | with_reducible exact Frame.refl _ _ | (intro _) | with_reducible assumption | with_reducible apply mapInflight_frame
    | with_reducible apply Frame.foldl | split | exact Eq.refl _)

/-- May change ctrls, inflight, slices, nvm. -/
theorem losePoisoned_frame (s : State) (n : Nat) (v : Version) (hr0 : Frame F0 r0 s) (m0 : 0x20000020300 ||| F0 = F0) :
    Frame F0 r0 (State.losePoisoned s n v) := by
  refine Frame.comp hr0 ?_ m0
  unfold State.losePoisoned
  dsimp only
  repeat' (first
    | with_reducible exact Frame.refl _ _ | with_reducible apply deferRuns_frame | with_reducible apply failBlocks_frame
    | with_reducible apply clearCond_frame | with_reducible apply modSlice_frame | with_reducible apply Frame.ite
    | exact SlmSame.of fun _ => rfl | (refine SlmSame.of fun x => ?_; simp [apply_ite Slice.slm]; done)
    | (refine SlmSame.of fun x => ?_; (try dsimp only); apply slm_foldl; intro _ _; simp; done)
    | (refine SlmSame.of fun x => ?_; (repeat' (first | rfl | (simp [apply_ite Slice.slm]; done) | split)); done) | split
    | exact Eq.refl _)

/-- May change slices. -/
theorem regionTarget_frame (s : State) (n : Nat) (d : MediaDesc) (x : Namespace) (r size : Nat) (tried : List Nat) (again :
    Bool) (hr0 : Frame F0 r0 s) (m0 : 0x20000 ||| F0 = F0) :
    Frame F0 r0 (State.regionTarget s n d x r size tried again).1 := by
  refine Frame.comp hr0 ?_ m0
  unfold State.regionTarget
  dsimp only
  repeat' (first
    | with_reducible exact Frame.refl _ _ | with_reducible apply targetSuper_frame | with_reducible apply Frame.ite | split
    | exact Eq.refl _)

/-- May change slices. -/
theorem firstTarget_frame (s : State) (n : Nat) (d : MediaDesc) (x : Namespace) (size : Nat) (tried : List Nat) (z1 : List (Nat
    × Bool)) (hr0 : Frame F0 r0 s) (m0 : 0x20000 ||| F0 = F0) :
    Frame F0 r0 (State.firstTarget s n d x size tried z1).1 := by
  induction z1 generalizing s with
  | nil => exact hr0
  | cons q l ih =>
    unfold State.firstTarget
    dsimp only
    repeat' (first
      | with_reducible exact hr0 | with_reducible assumption | with_reducible apply ih
      | with_reducible apply regionTarget_frame | split | exact mask_or m0 rfl)

/-- May change slices. -/
theorem openLanding_frame (s : State) (n : Nat) (d : MediaDesc) (p : Pool) (hr0 : Frame F0 r0 s) (m0 : 0x20000 ||| F0 = F0) :
    Frame F0 r0 (State.openLanding s n d p) := by
  refine Frame.comp hr0 ?_ m0
  unfold State.openLanding
  dsimp only
  repeat' (first
    | with_reducible exact Frame.refl _ _ | (intro _) | with_reducible assumption | with_reducible apply modSlice_frame
    | with_reducible apply Frame.foldl | exact SlmSame.of fun _ => rfl
    | (refine SlmSame.of fun x => ?_; simp [apply_ite Slice.slm]; done)
    | (refine SlmSame.of fun x => ?_; (try dsimp only); apply slm_foldl; intro _ _; simp; done)
    | (refine SlmSame.of fun x => ?_; (repeat' (first | rfl | (simp [apply_ite Slice.slm]; done) | split)); done) | split
    | exact Eq.refl _)

/-- May change slices. -/
theorem landingTarget_frame (s : State) (n : Nat) (d : MediaDesc) (p : Pool) (size : Nat) (hr0 : Frame F0 r0 s) (m0 : 0x20000
    ||| F0 = F0) :
    Frame F0 r0 (State.landingTarget s n d p size).1 := by
  refine Frame.comp hr0 ?_ m0
  unfold State.landingTarget
  dsimp only
  repeat' (first
    | with_reducible exact Frame.refl _ _ | (intro _) | with_reducible assumption | with_reducible apply openLanding_frame
    | with_reducible apply finishSuper_frame | with_reducible apply Frame.foldl | split | exact Eq.refl _)

/-- May change slices. -/
theorem hostTarget_frame (s : State) (n : Nat) (d : MediaDesc) (x : Namespace) (v : Version) (size : Nat) (hr0 : Frame F0 r0 s)
    (m0 : 0x20000 ||| F0 = F0) :
    Frame F0 r0 (State.hostTarget s n d x v size).1 := by
  refine Frame.comp hr0 ?_ m0
  unfold State.hostTarget
  dsimp only
  repeat' (first
    | with_reducible exact Frame.refl _ _ | with_reducible apply firstTarget_frame | with_reducible apply modSlice_frame
    | with_reducible apply landingTarget_frame | with_reducible apply Frame.ite | exact SlmSame.of fun _ => rfl | split
    | exact Eq.refl _)

/-- May change regs, ctrls, inflight, slices, nvm. -/
theorem startStream_frame (s : State) (n : Nat) (v : Version) (hr0 : Frame F0 r0 s) (m0 : 0x20000020304 ||| F0 = F0) :
    Frame F0 r0 (State.startStream s n v) := by
  refine Frame.comp hr0 ?_ m0
  unfold State.startStream
  dsimp only
  repeat' (first
    | with_reducible exact Frame.refl _ _ | with_reducible apply losePoisoned_frame | with_reducible apply modSlice_frame
    | with_reducible apply senseUnit_frame | with_reducible apply openUnit_frame | exact SlmSame.of fun _ => rfl | split
    | exact Eq.refl _)

/-- May change regs, slices. -/
theorem sealVersion_frame (s : State) (n : Nat) (v : Version) (k : Nat) (hr0 : Frame F0 r0 s) (m0 : 0x20004 ||| F0 = F0) :
    Frame F0 r0 (State.sealVersion s n v k) := by
  refine Frame.comp hr0 ?_ m0
  unfold State.sealVersion
  dsimp only
  repeat' (first
    | with_reducible exact Frame.refl _ _ | with_reducible apply inc_frame | with_reducible apply takeCtr_frame
    | with_reducible apply cipherWork_frame | with_reducible apply modSlice_frame | with_reducible apply Frame.ite
    | exact SlmSame.of fun _ => rfl | split | exact Eq.refl _)

/-- May change regs, slices. -/
theorem formVersion_frame (s : State) (n : Nat) (v : Version) (hr0 : Frame F0 r0 s) (m0 : 0x20004 ||| F0 = F0) :
    Frame F0 r0 (State.formVersion s n v) := by
  refine Frame.comp hr0 ?_ m0
  unfold State.formVersion
  dsimp only
  repeat' (first
    | with_reducible exact Frame.refl _ _ | with_reducible apply hostTarget_frame | with_reducible apply dramStream_frame
    | with_reducible apply modSlice_frame | with_reducible apply addWork_frame | with_reducible apply sealVersion_frame
    | with_reducible apply Frame.ite | exact SlmSame.of fun _ => rfl | split | exact Eq.refl _)

/-- May change regs, slices, fenceSoon, fresh. -/
theorem formed_frame (s : State) (n : Nat) (v : Version) (hr0 : Frame F0 r0 s) (m0 : 0x8800000020004 ||| F0 = F0) :
    Frame F0 r0 (State.formed s n v) := by
  refine Frame.comp hr0 ?_ m0
  unfold State.formed
  dsimp only
  repeat' (first
    | with_reducible exact Frame.refl _ _ | with_reducible apply modSlice_frame | with_reducible apply storedForm_frame
    | with_reducible apply sealVersion_frame | with_reducible apply Frame.ite | exact SlmSame.of fun _ => rfl | split
    | exact Eq.refl _)

/-- May change slices. -/
theorem placeVersion_frame (s : State) (n : Nat) (v : Version) (hr0 : Frame F0 r0 s) (m0 : 0x20000 ||| F0 = F0) :
    Frame F0 r0 (State.placeVersion s n v) := by
  refine Frame.comp hr0 ?_ m0
  unfold State.placeVersion
  dsimp only
  repeat' (first
    | with_reducible exact Frame.refl _ _ | with_reducible apply modSlice_frame | with_reducible apply firstTarget_frame
    | with_reducible apply hostTarget_frame | with_reducible apply pack_frame | with_reducible apply groutPage_frame
    | with_reducible apply Frame.ite | exact SlmSame.of fun _ => rfl | split | exact Eq.refl _)

/-- May change regs, slices, fenceSoon, fresh. -/
theorem advanceVersion_frame (s : State) (n : Nat) (v : Version) (hr0 : Frame F0 r0 s) (m0 : 0x8800000020004 ||| F0 = F0) :
    Frame F0 r0 (State.advanceVersion s n v) := by
  refine Frame.comp hr0 ?_ m0
  unfold State.advanceVersion
  repeat' (first
    | with_reducible exact Frame.refl _ _ | with_reducible apply formVersion_frame | with_reducible apply sealVersion_frame
    | with_reducible apply formed_frame | with_reducible apply placeVersion_frame | with_reducible apply Frame.ite | split
    | exact Eq.refl _)

/-- May change regs, ctrls, inflight, slices, nvm, fenceSoon, fresh. -/
theorem streamStarts_frame (s : State) (n : Nat) (hr0 : Frame F0 r0 s) (m0 : 0x8820000020304 ||| F0 = F0) :
    Frame F0 r0 (State.streamStarts s n) := by
  refine Frame.comp hr0 ?_ m0
  unfold State.streamStarts
  dsimp only
  repeat' (first
    | with_reducible exact Frame.refl _ _ | (intro _) | with_reducible assumption | with_reducible apply startStream_frame
    | with_reducible apply advanceVersion_frame | with_reducible apply modSlice_frame | with_reducible apply Frame.ite
    | with_reducible apply Frame.foldl | exact SlmSame.of fun _ => rfl | split | exact Eq.refl _)

/-- May change slices. -/
theorem drain_frame (s : State) (n : Nat) (hr0 : Frame F0 r0 s) (m0 : 0x20000 ||| F0 = F0) :
    Frame F0 r0 (State.drain s n) := by
  refine Frame.comp hr0 ?_ m0
  unfold State.drain
  repeat' (first
    | with_reducible exact Frame.refl _ _ | with_reducible apply modSlice_frame | with_reducible apply Frame.ite
    | exact SlmSame.of fun _ => rfl | split | exact Eq.refl _)

/-- May change inflight, slices. -/
theorem confirm_frame (s : State) (n : Nat) (v : Version) (hr0 : Frame F0 r0 s) (m0 : 0x20200 ||| F0 = F0) :
    Frame F0 r0 (State.confirm s n v) := by
  refine Frame.comp hr0 ?_ m0
  unfold State.confirm
  dsimp only
  repeat' (first
    | with_reducible exact Frame.refl _ _ | with_reducible apply modSlice_frame | with_reducible apply clearCond_frame
    | exact SlmSame.of fun _ => rfl | (refine SlmSame.of fun x => ?_; simp [apply_ite Slice.slm]; done)
    | (refine SlmSame.of fun x => ?_; (try dsimp only); apply slm_foldl; intro _ _; simp; done)
    | (refine SlmSame.of fun x => ?_; (repeat' (first | rfl | (simp [apply_ite Slice.slm]; done) | split)); done) | split
    | exact Eq.refl _)

/-- May change slices. -/
theorem finishMove_frame (s : State) (n : Nat) (m : Move) (hr0 : Frame F0 r0 s) (m0 : 0x20000 ||| F0 = F0) :
    Frame F0 r0 (State.finishMove s n m) := by
  refine Frame.comp hr0 ?_ m0
  unfold State.finishMove
  dsimp only
  repeat' (first
    | with_reducible exact Frame.refl _ _ | with_reducible apply modSlice_frame | with_reducible apply Frame.ite
    | exact SlmSame.of fun _ => rfl | (refine SlmSame.of fun x => ?_; simp [apply_ite Slice.slm]; done)
    | (refine SlmSame.of fun x => ?_; (try dsimp only); apply slm_foldl; intro _ _; simp; done)
    | (refine SlmSame.of fun x => ?_; (repeat' (first | rfl | (simp [apply_ite Slice.slm]; done) | split)); done) | split
    | exact Eq.refl _)

/-- May change slices. -/
theorem closeDone_frame (s : State) (n seq : Nat) (hr0 : Frame F0 r0 s) (m0 : 0x20000 ||| F0 = F0) :
    Frame F0 r0 (State.closeDone s n seq) := by
  refine Frame.comp hr0 ?_ m0
  unfold State.closeDone
  repeat' (first
    | with_reducible exact Frame.refl _ _ | with_reducible apply modSlice_frame | with_reducible apply Frame.ite
    | exact SlmSame.of fun _ => rfl | split | exact Eq.refl _)

/-- May change inflight, slices. -/
theorem settlePages_frame (s : State) (n : Nat) (d : MediaDesc) (seq : Nat) (hr0 : Frame F0 r0 s) (m0 : 0x20200 ||| F0 = F0) :
    Frame F0 r0 (State.settlePages s n d seq) := by
  refine Frame.comp hr0 ?_ m0
  unfold State.settlePages
  dsimp only
  repeat' (first
    | with_reducible exact Frame.refl _ _ | (intro _) | with_reducible assumption | with_reducible apply closeDone_frame
    | with_reducible apply finishMove_frame | with_reducible apply confirm_frame | with_reducible apply Frame.foldl | split
    | exact Eq.refl _)

/-- May change inflight, slices. -/
theorem pageDone_frame (s : State) (n seq p : Nat) (hr0 : Frame F0 r0 s) (m0 : 0x20200 ||| F0 = F0) :
    Frame F0 r0 (State.pageDone s n seq p) := by
  refine Frame.comp hr0 ?_ m0
  unfold State.pageDone
  repeat' (first
    | with_reducible exact Frame.refl _ _ | with_reducible apply settlePages_frame | with_reducible apply modSlice_frame
    | exact SlmSame.of fun _ => rfl | split | exact Eq.refl _)

/-- May change regs, slices. -/
theorem retireBlock_frame (s : State) (n lun b : Nat) (hr0 : Frame F0 r0 s) (m0 : 0x20004 ||| F0 = F0) :
    Frame F0 r0 (State.retireBlock s n lun b) := by
  refine Frame.comp hr0 ?_ m0
  unfold State.retireBlock
  dsimp only
  repeat' (first
    | with_reducible exact Frame.refl _ _ | with_reducible apply evalSpare_frame | with_reducible apply modSlice_frame
    | with_reducible apply Frame.ite | exact SlmSame.of fun _ => rfl | split | exact Eq.refl _)

/-- May change regs, slices. -/
theorem markBlock_frame (s : State) (n lun b : Nat) (hr0 : Frame F0 r0 s) (m0 : 0x20004 ||| F0 = F0) :
    Frame F0 r0 (State.markBlock s n lun b) := by
  refine Frame.comp hr0 ?_ m0
  unfold State.markBlock
  dsimp only
  repeat' (first
    | with_reducible exact Frame.refl _ _ | with_reducible apply modSlice_frame | with_reducible apply retireBlock_frame
    | with_reducible apply Frame.ite | exact SlmSame.of fun _ => rfl | split | exact Eq.refl _)

/-- May change inflight, slices. -/
theorem failedVersion_frame (s : State) (n group : Nat) (v : Version) (hr0 : Frame F0 r0 s) (m0 : 0x20200 ||| F0 = F0) :
    Frame F0 r0 (State.failedVersion s n group v) := by
  refine Frame.comp hr0 ?_ m0
  unfold State.failedVersion
  dsimp only
  repeat' (first
    | with_reducible exact Frame.refl _ _ | with_reducible apply failCond_frame | with_reducible apply modSlice_frame
    | with_reducible apply Frame.ite | exact SlmSame.of fun _ => rfl
    | (refine SlmSame.of fun x => ?_; simp [apply_ite Slice.slm]; done)
    | (refine SlmSame.of fun x => ?_; (try dsimp only); apply slm_foldl; intro _ _; simp; done)
    | (refine SlmSame.of fun x => ?_; (repeat' (first | rfl | (simp [apply_ite Slice.slm]; done) | split)); done) | split
    | exact Eq.refl _)

/-- May change slices. -/
theorem failedMove_frame (s : State) (n group : Nat) (m : Move) (hr0 : Frame F0 r0 s) (m0 : 0x20000 ||| F0 = F0) :
    Frame F0 r0 (State.failedMove s n group m) := by
  refine Frame.comp hr0 ?_ m0
  unfold State.failedMove
  dsimp only
  repeat' (first
    | with_reducible exact Frame.refl _ _ | with_reducible apply modSlice_frame | with_reducible apply senseUnit_frame
    | exact SlmSame.of fun _ => rfl | exact Eq.refl _)

/-- May change inflight, slices. -/
theorem sweepFailed_frame (s : State) (n : Nat) (d : MediaDesc) (sb : Superblock) (ps : List Nat) (hr0 : Frame F0 r0 s) (m0 :
    0x20200 ||| F0 = F0) :
    Frame F0 r0 (State.sweepFailed s n d sb ps) := by
  refine Frame.comp hr0 ?_ m0
  unfold State.sweepFailed
  dsimp only
  repeat' (first
    | with_reducible exact Frame.refl _ _ | (intro _) | with_reducible assumption | with_reducible apply failedMove_frame
    | with_reducible apply failedVersion_frame | with_reducible apply Frame.foldl | exact Eq.refl _)

/-- May change regs, inflight, slices. -/
theorem failBlock_frame (s : State) (n seq lun b : Nat) (hr0 : Frame F0 r0 s) (m0 : 0x20204 ||| F0 = F0) :
    Frame F0 r0 (State.failBlock s n seq lun b) := by
  refine Frame.comp hr0 ?_ m0
  unfold State.failBlock
  dsimp only
  repeat' (first
    | with_reducible exact Frame.refl _ _ | with_reducible apply modSlice_frame | with_reducible apply closeDone_frame
    | with_reducible apply sweepFailed_frame | with_reducible apply markBlock_frame | exact SlmSame.of fun _ => rfl | split
    | exact Eq.refl _)

/-! ### RepairOps -/

/-- May change slices. -/
theorem loseUnit_frame (s : State) (n lun : Nat) (u : StoredUnit) (hr0 : Frame F0 r0 s) (m0 : 0x20000 ||| F0 = F0) :
    Frame F0 r0 (State.loseUnit s n lun u) := by
  refine Frame.comp hr0 ?_ m0
  unfold State.loseUnit
  dsimp only
  repeat' (first
    | with_reducible exact Frame.refl _ _ | with_reducible apply modSlice_frame | with_reducible apply Frame.ite
    | exact SlmSame.of fun _ => rfl | (refine SlmSame.of fun x => ?_; simp [apply_ite Slice.slm]; done)
    | (refine SlmSame.of fun x => ?_; (try dsimp only); apply slm_foldl; intro _ _; simp; done)
    | (refine SlmSame.of fun x => ?_; (repeat' (first | rfl | (simp [apply_ite Slice.slm]; done) | split)); done) | split
    | exact Eq.refl _)

/-- May change slices. -/
theorem loseBare_frame (s : State) (n lun : Nat) (hr0 : Frame F0 r0 s) (m0 : 0x20000 ||| F0 = F0) :
    Frame F0 r0 (State.loseBare s n lun) := by
  refine Frame.comp hr0 ?_ m0
  unfold State.loseBare
  dsimp only
  repeat' (first
    | with_reducible exact Frame.refl _ _ | (intro _) | with_reducible assumption | with_reducible apply loseUnit_frame
    | with_reducible apply Frame.foldl | exact Eq.refl _)

/-- May change ctrls, inflight, slices, nvm. -/
theorem settleLost_frame (s : State) (n : Nat) (hr0 : Frame F0 r0 s) (m0 : 0x20000020300 ||| F0 = F0) :
    Frame F0 r0 (State.settleLost s n) := by
  refine Frame.comp hr0 ?_ m0
  unfold State.settleLost
  dsimp only
  repeat' (first
    | with_reducible exact Frame.refl _ _ | (intro _) | with_reducible assumption | with_reducible apply loseUnit_frame
    | with_reducible apply deferRuns_frame | with_reducible apply Frame.foldl | exact Eq.refl _)

/-- May change ctrls, inflight, slices, nvm. -/
theorem losePage_frame (s : State) (n seq p : Nat) (hr0 : Frame F0 r0 s) (m0 : 0x20000020300 ||| F0 = F0) :
    Frame F0 r0 (State.losePage s n seq p) := by
  refine Frame.comp hr0 ?_ m0
  unfold State.losePage
  dsimp only
  repeat' (first
    | with_reducible exact Frame.refl _ _ | with_reducible apply settleLost_frame | with_reducible apply modSlice_frame
    | with_reducible apply Frame.ite | exact SlmSame.of fun _ => rfl | split | exact Eq.refl _)

/-- May change regs. -/
theorem evalExposed_frame (s : State) (n : Nat) (hr0 : Frame F0 r0 s) (m0 : 0x4 ||| F0 = F0) :
    Frame F0 r0 (State.evalExposed s n) := by
  refine Frame.comp hr0 ?_ m0
  unfold State.evalExposed
  repeat' (first | with_reducible exact Frame.refl _ _ | with_reducible apply putBit_frame | exact Eq.refl _)

/-- May change slices. -/
theorem keepFor_frame (s : State) (n : Nat) (d : MediaDesc) (want : Nat) (ready : Bool) (good : List Lun)
    (hr0 : Frame F0 r0 s) (m0 : 0x20000 ||| F0 = F0) :
    Frame F0 r0 (s.modSlice n fun x => good.foldl (Slice.keepFor d want ready) x) :=
  modSlice_frame _ _ hr0 m0 (SlmSame.of fun _ => slm_foldl _ (keepFor_slm · _ _ _ ·) _ _)

/-- May change slices. -/
theorem sizeReserve_frame (s : State) (n : Nat) (ready : Bool) (hr0 : Frame F0 r0 s) (m0 : 0x20000 ||| F0 = F0) :
    Frame F0 r0 (State.sizeReserve s n ready) := by
  unfold State.sizeReserve
  split
  · exact hr0
  · split
    · exact hr0
    · exact keepFor_frame _ _ _ _ _ _ hr0 m0

/-- May change regs, slices. -/
theorem sizeBuffer_frame (s : State) (n wbMib : Nat) (hr0 : Frame F0 r0 s) (m0 : 0x20004 ||| F0 = F0) :
    Frame F0 r0 (State.sizeBuffer s n wbMib) := by
  refine Frame.comp hr0 ?_ m0
  unfold State.sizeBuffer
  repeat' (first
    | with_reducible exact Frame.refl _ _ | with_reducible apply evalSpare_frame | with_reducible apply sizeReserve_frame
    | with_reducible apply putF_frame | exact Eq.refl _)

/-- May change slices. -/
theorem eraseReserve_frame (s : State) (n : Nat) (hr0 : Frame F0 r0 s) (m0 : 0x20000 ||| F0 = F0) :
    Frame F0 r0 (State.eraseReserve s n) := by
  refine Frame.comp hr0 ?_ m0
  unfold State.eraseReserve
  repeat' (first
    | with_reducible exact Frame.refl _ _ | (intro _) | with_reducible assumption | with_reducible apply queueErase_frame
    | with_reducible apply Frame.foldl | exact Eq.refl _)

/-- May change regs, slices. -/
theorem releaseParity_frame (s : State) (n seq : Nat) (hr0 : Frame F0 r0 s) (m0 : 0x20004 ||| F0 = F0) :
    Frame F0 r0 (State.releaseParity s n seq) := by
  refine Frame.comp hr0 ?_ m0
  unfold State.releaseParity
  dsimp only
  repeat' (first
    | with_reducible exact Frame.refl _ _ | (intro _) | with_reducible assumption | with_reducible apply modSlice_frame
    | with_reducible apply retireBlock_frame | with_reducible apply Frame.ite | with_reducible apply Frame.foldl
    | exact SlmSame.of fun _ => rfl | (refine SlmSame.of fun x => ?_; simp [apply_ite Slice.slm]; done)
    | (refine SlmSame.of fun x => ?_; (try dsimp only); apply slm_foldl; intro _ _; simp; done)
    | (refine SlmSame.of fun x => ?_; (repeat' (first | rfl | (simp [apply_ite Slice.slm]; done) | split)); done) | split
    | exact Eq.refl _)

/-- May change regs, slices. -/
theorem freeSuper_frame (s : State) (n seq : Nat) (hr0 : Frame F0 r0 s) (m0 : 0x20004 ||| F0 = F0) :
    Frame F0 r0 (State.freeSuper s n seq) := by
  refine Frame.comp hr0 ?_ m0
  unfold State.freeSuper
  dsimp only
  repeat' (first
    | with_reducible exact Frame.refl _ _ | (intro _) | with_reducible assumption | with_reducible apply releaseParity_frame
    | with_reducible apply modSlice_frame | with_reducible apply retireBlock_frame | with_reducible apply evalSpare_frame
    | with_reducible apply Frame.ite | with_reducible apply Frame.foldl | exact SlmSame.of fun _ => rfl | split
    | exact Eq.refl _)

/-- May change regs, slices. -/
theorem freeDone_frame (s : State) (n : Nat) (hr0 : Frame F0 r0 s) (m0 : 0x20004 ||| F0 = F0) :
    Frame F0 r0 (State.freeDone s n) := by
  refine Frame.comp hr0 ?_ m0
  unfold State.freeDone
  repeat' (first
    | with_reducible exact Frame.refl _ _ | (intro _) | with_reducible assumption | with_reducible apply freeSuper_frame
    | with_reducible apply Frame.foldl | exact Eq.refl _)

/-- May change slices. -/
theorem startMove_frame (s : State) (n : Nat) (u : StoredUnit) (hr0 : Frame F0 r0 s) (m0 : 0x20000 ||| F0 = F0) :
    Frame F0 r0 (State.startMove s n u) := by
  refine Frame.comp hr0 ?_ m0
  unfold State.startMove
  dsimp only
  repeat' (first
    | with_reducible exact Frame.refl _ _ | (intro _) | with_reducible assumption | with_reducible apply loseUnit_frame
    | with_reducible apply modSlice_frame | with_reducible apply senseUnit_frame | with_reducible apply Frame.ite
    | with_reducible apply Frame.foldl | exact SlmSame.of fun _ => rfl | split | exact Eq.refl _)

/-- May change slices. -/
theorem moveTarget_frame (s : State) (n : Nat) (d : MediaDesc) (old : Superblock) (size : Nat) (tried : List Nat) (hr0 : Frame
    F0 r0 s) (m0 : 0x20000 ||| F0 = F0) :
    Frame F0 r0 (State.moveTarget s n d old size tried).1 := by
  refine Frame.comp hr0 ?_ m0
  unfold State.moveTarget
  dsimp only
  repeat' (first
    | with_reducible exact Frame.refl _ _ | with_reducible apply targetSuper_frame | with_reducible apply Frame.ite | split
    | exact Eq.refl _)

/-- May change slices. -/
theorem placeMove_frame (s : State) (n : Nat) (m : Move) (hr0 : Frame F0 r0 s) (m0 : 0x20000 ||| F0 = F0) :
    Frame F0 r0 (State.placeMove s n m) := by
  refine Frame.comp hr0 ?_ m0
  unfold State.placeMove
  dsimp only
  repeat' (first
    | with_reducible exact Frame.refl _ _ | with_reducible apply modSlice_frame | with_reducible apply moveTarget_frame
    | with_reducible apply pack_frame | with_reducible apply Frame.ite | exact SlmSame.of fun _ => rfl | split
    | exact Eq.refl _)

/-- May change regs, slices. -/
theorem pumpMoves_frame (s : State) (n : Nat) (hr0 : Frame F0 r0 s) (m0 : 0x20004 ||| F0 = F0) :
    Frame F0 r0 (State.pumpMoves s n) := by
  refine Frame.comp hr0 ?_ m0
  unfold State.pumpMoves
  dsimp only
  repeat' (first
    | with_reducible exact Frame.refl _ _ | (intro _) | with_reducible assumption | with_reducible apply startMove_frame
    | with_reducible apply modSlice_frame | with_reducible apply freeDone_frame | with_reducible apply placeMove_frame
    | with_reducible apply Frame.foldl | exact SlmSame.of fun _ => rfl | exact Eq.refl _)

/-- May change slices. -/
theorem verifyRow_frame (s : State) (n : Nat) (d : MediaDesc) (sb : Superblock) (hr0 : Frame F0 r0 s) (m0 : 0x20000 ||| F0 = F0)
    :
    Frame F0 r0 (State.verifyRow s n d sb) := by
  refine Frame.comp hr0 ?_ m0
  unfold State.verifyRow
  dsimp only
  repeat' (first
    | with_reducible exact Frame.refl _ _ | (intro _) | with_reducible assumption | with_reducible apply queueRead_frame
    | with_reducible apply countReads_frame | with_reducible apply modSlice_frame | with_reducible apply Frame.foldl
    | exact SlmSame.of fun _ => rfl | split | exact Eq.refl _)

/-- May change slices. -/
theorem pumpVerify_frame (s : State) (n : Nat) (hr0 : Frame F0 r0 s) (m0 : 0x20000 ||| F0 = F0) :
    Frame F0 r0 (State.pumpVerify s n) := by
  refine Frame.comp hr0 ?_ m0
  unfold State.pumpVerify
  repeat' (first
    | with_reducible exact Frame.refl _ _ | (intro _) | with_reducible assumption | with_reducible apply verifyRow_frame
    | with_reducible apply Frame.ite | with_reducible apply Frame.foldl | split | exact Eq.refl _)

/-- May change regs, slices. -/
theorem verified_frame (s : State) (n seq : Nat) (hr0 : Frame F0 r0 s) (m0 : 0x20004 ||| F0 = F0) :
    Frame F0 r0 (State.verified s n seq) := by
  refine Frame.comp hr0 ?_ m0
  unfold State.verified
  repeat' (first
    | with_reducible exact Frame.refl _ _ | with_reducible apply releaseParity_frame | with_reducible apply modSlice_frame
    | exact SlmSame.of fun _ => rfl | exact Eq.refl _)

/-- May change slices. -/
theorem collect_frame (s : State) (n : Nat) (p : Pool) (hr0 : Frame F0 r0 s) (m0 : 0x20000 ||| F0 = F0) :
    Frame F0 r0 (State.collect s n p) := by
  refine Frame.comp hr0 ?_ m0
  unfold State.collect
  dsimp only
  repeat' (first
    | with_reducible exact Frame.refl _ _ | (intro _) | with_reducible assumption | with_reducible apply modSlice_frame
    | with_reducible apply Frame.ite | with_reducible apply Frame.foldl | exact SlmSame.of fun _ => rfl | split
    | exact Eq.refl _)

/-- May change regs. -/
theorem targetFailed_frame (s : State) (n lun cause : Nat) (hr0 : Frame F0 r0 s) (m0 : 0x4 ||| F0 = F0) :
    Frame F0 r0 (State.targetFailed s n lun cause) := by
  refine Frame.comp hr0 ?_ m0
  unfold State.targetFailed
  dsimp only
  repeat' (first
    | with_reducible exact Frame.refl _ _ | with_reducible apply putF_frame | with_reducible apply Frame.ite | split
    | exact Eq.refl _)

/-- May change inflight, slices. -/
theorem stopSuper_frame (s : State) (n : Nat) (d : MediaDesc) (st : SbState) (p : FlWork → Bool) (sb : Superblock) (hr0 : Frame
    F0 r0 s) (m0 : 0x20200 ||| F0 = F0) :
    Frame F0 r0 (State.stopSuper s n d st p sb) := by
  refine Frame.comp hr0 ?_ m0
  unfold State.stopSuper
  dsimp only
  repeat' (first
    | with_reducible exact Frame.refl _ _ | with_reducible apply modSlice_frame | with_reducible apply sweepFailed_frame
    | with_reducible apply Frame.ite | exact SlmSame.of fun _ => rfl | split | exact Eq.refl _)

/-- May change slices. -/
theorem closeStripe_frame (s : State) (n : Nat) (d : MediaDesc) (seq : Nat) (hr0 : Frame F0 r0 s) (m0 : 0x20000 ||| F0 = F0) :
    Frame F0 r0 (State.closeStripe s n d seq) := by
  refine Frame.comp hr0 ?_ m0
  unfold State.closeStripe
  repeat' (first
    | with_reducible exact Frame.refl _ _ | with_reducible apply parityPage_frame | with_reducible apply Frame.ite | split
    | exact Eq.refl _)

/-- May change regs, ctrls, inflight, slices, nvm. -/
theorem lunFailed_frame (s : State) (n lun cause : Nat) (hr0 : Frame F0 r0 s) (m0 : 0x20000020304 ||| F0 = F0) :
    Frame F0 r0 (State.lunFailed s n lun cause) := by
  refine Frame.comp hr0 ?_ m0
  unfold State.lunFailed
  dsimp only
  repeat' (first
    | with_reducible exact Frame.refl _ _ | (intro _) | with_reducible assumption | with_reducible apply modSlice_frame
    | with_reducible apply setBit_frame | with_reducible apply targetFailed_frame | with_reducible apply stopSuper_frame
    | with_reducible apply loseBare_frame | with_reducible apply evalExposed_frame | with_reducible apply evalSpare_frame
    | with_reducible apply sizeReserve_frame | with_reducible apply settleLost_frame | with_reducible apply Frame.ite
    | with_reducible apply Frame.foldl | exact SlmSame.of fun _ => rfl
    | (refine SlmSame.of fun x => ?_; simp [apply_ite Slice.slm]; done)
    | (refine SlmSame.of fun x => ?_; (try dsimp only); apply slm_foldl; intro _ _; simp; done)
    | (refine SlmSame.of fun x => ?_; (repeat' (first | rfl | (simp [apply_ite Slice.slm]; done) | split)); done) | split
    | exact Eq.refl _)

/-- May change regs, ctrls, inflight, slices, nvm. -/
theorem countFailure_frame (s : State) (n lun b : Nat) (hr0 : Frame F0 r0 s) (m0 : 0x20000020304 ||| F0 = F0) :
    Frame F0 r0 (State.countFailure s n lun b) := by
  refine Frame.comp hr0 ?_ m0
  unfold State.countFailure
  dsimp only
  repeat' (first
    | with_reducible exact Frame.refl _ _ | with_reducible apply modSlice_frame | with_reducible apply lunFailed_frame
    | with_reducible apply Frame.ite | exact SlmSame.of fun _ => rfl | split | exact Eq.refl _)

/-- May change slices. -/
theorem landVersion_frame (s : State) (n : Nat) (v : Version) (hr0 : Frame F0 r0 s) (m0 : 0x20000 ||| F0 = F0) :
    Frame F0 r0 (State.landVersion s n v) := by
  refine Frame.comp hr0 ?_ m0
  unfold State.landVersion
  dsimp only
  repeat' (first
    | with_reducible exact Frame.refl _ _ | with_reducible apply modSlice_frame | with_reducible apply takeCtr_frame
    | exact SlmSame.of fun _ => rfl | split | exact Eq.refl _)

/-- May change ctrls, inflight, slices, nvm. -/
theorem landSlice_frame (s : State) (n : Nat) (unlanded : List Nat) (hr0 : Frame F0 r0 s) (m0 : 0x20000020300 ||| F0 = F0) :
    Frame F0 r0 (State.landSlice s n unlanded) := by
  refine Frame.comp hr0 ?_ m0
  unfold State.landSlice
  dsimp only
  repeat' (first
    | with_reducible exact Frame.refl _ _ | (intro _) | with_reducible assumption | with_reducible apply deferVersion_frame
    | with_reducible apply modSlice_frame | with_reducible apply landVersion_frame | with_reducible apply Frame.ite
    | with_reducible apply Frame.foldl | exact SlmSame.of fun _ => rfl
    | (refine SlmSame.of fun x => ?_; simp [apply_ite Slice.slm]; done)
    | (refine SlmSame.of fun x => ?_; (try dsimp only); apply slm_foldl; intro _ _; simp; done)
    | (refine SlmSame.of fun x => ?_; (repeat' (first | rfl | (simp [apply_ite Slice.slm]; done) | split)); done) | split
    | exact Eq.refl _)

/-- May change slices. -/
theorem endLanding_frame (s : State) (n : Nat) (hr0 : Frame F0 r0 s) (m0 : 0x20000 ||| F0 = F0) :
    Frame F0 r0 (State.endLanding s n) := by
  refine Frame.comp hr0 ?_ m0
  unfold State.endLanding
  dsimp only
  repeat' (first
    | with_reducible exact Frame.refl _ _ | with_reducible apply modSlice_frame | with_reducible apply Frame.ite
    | exact SlmSame.of fun _ => rfl | split | exact Eq.refl _)

/-- May change slices. -/
theorem openMeta_frame (s : State) (n : Nat) (d : MediaDesc) (hr0 : Frame F0 r0 s) (m0 : 0x20000 ||| F0 = F0) :
    Frame F0 r0 (State.openMeta s n d) := by
  refine Frame.comp hr0 ?_ m0
  unfold State.openMeta
  dsimp only
  repeat' (first
    | with_reducible exact Frame.refl _ _ | (intro _) | with_reducible assumption | with_reducible apply modSlice_frame
    | with_reducible apply queueErase_frame | with_reducible apply Frame.ite | with_reducible apply Frame.foldl
    | exact SlmSame.of fun _ => rfl | split | exact Eq.refl _)

/-- May change slices. -/
theorem writeSegment_frame (s : State) (n : Nat) (d : MediaDesc) (hr0 : Frame F0 r0 s) (m0 : 0x20000 ||| F0 = F0) :
    Frame F0 r0 (State.writeSegment s n d) := by
  refine Frame.comp hr0 ?_ m0
  unfold State.writeSegment
  dsimp only
  repeat' (first
    | with_reducible exact Frame.refl _ _ | (intro _) | with_reducible assumption | with_reducible apply openMeta_frame
    | with_reducible apply takeCtr_frame | with_reducible apply modSlice_frame | with_reducible apply queueProgram_frame
    | with_reducible apply Frame.ite | with_reducible apply Frame.foldl | exact SlmSame.of fun _ => rfl | split
    | exact Eq.refl _)

/-- May change slices. -/
theorem sealSegment_frame (s : State) (n : Nat) (d : MediaDesc) (hr0 : Frame F0 r0 s) (m0 : 0x20000 ||| F0 = F0) :
    Frame F0 r0 (State.sealSegment s n d) := by
  refine Frame.comp hr0 ?_ m0
  unfold State.sealSegment
  repeat' (first
    | with_reducible exact Frame.refl _ _ | with_reducible apply writeSegment_frame | with_reducible apply modSlice_frame
    | with_reducible apply addWork_frame | with_reducible apply Frame.ite | exact SlmSame.of fun _ => rfl | split
    | exact Eq.refl _)

/-- May change slices. -/
theorem checkpoint_frame (s : State) (n : Nat) (hr0 : Frame F0 r0 s) (m0 : 0x20000 ||| F0 = F0) :
    Frame F0 r0 (State.checkpoint s n) := by
  refine Frame.comp hr0 ?_ m0
  unfold State.checkpoint
  dsimp only
  repeat' (first
    | with_reducible exact Frame.refl _ _ | (intro _) | with_reducible assumption | with_reducible apply sealSegment_frame
    | with_reducible apply writeSegment_frame | with_reducible apply Frame.ite | with_reducible apply Frame.foldl | split
    | exact Eq.refl _)

/-- May change regs. -/
theorem evacProgress_frame (s : State) (n : Nat) (hr0 : Frame F0 r0 s) (m0 : 0x4 ||| F0 = F0) :
    Frame F0 r0 (State.evacProgress s n) := by
  refine Frame.comp hr0 ?_ m0
  unfold State.evacProgress
  dsimp only
  repeat' (first
    | with_reducible exact Frame.refl _ _ | with_reducible apply putF_frame | with_reducible apply Frame.ite | split
    | exact Eq.refl _)

/-- May change regs, slices, fresh. -/
theorem cacheSecond_frame (s : State) (n : Nat) (hr0 : Frame F0 r0 s) (m0 : 0x8000000020004 ||| F0 = F0) :
    Frame F0 r0 (State.cacheSecond s n) := by
  refine Frame.comp hr0 ?_ m0
  unfold State.cacheSecond
  dsimp only
  repeat' (first
    | with_reducible exact Frame.refl _ _ | with_reducible apply free_frame | with_reducible apply modSlice_frame
    | with_reducible apply putF_frame | with_reducible apply Frame.ite | exact SlmSame.of fun _ => rfl | split
    | exact Eq.refl _)

/-- May change slices. -/
theorem scanHeaders_frame (s : State) (n : Nat) (hr0 : Frame F0 r0 s) (m0 : 0x20000 ||| F0 = F0) :
    Frame F0 r0 (State.scanHeaders s n) := by
  refine Frame.comp hr0 ?_ m0
  unfold State.scanHeaders
  dsimp only
  repeat' (first
    | with_reducible exact Frame.refl _ _ | (intro _) | with_reducible assumption | with_reducible apply modSlice_frame
    | with_reducible apply Frame.ite | with_reducible apply Frame.foldl | exact SlmSame.of fun _ => rfl | split
    | exact Eq.refl _)

/-- May change slices. -/
theorem rebuildMap_frame (s : State) (n : Nat) (hr0 : Frame F0 r0 s) (m0 : 0x20000 ||| F0 = F0) :
    Frame F0 r0 (State.rebuildMap s n) := by
  refine Frame.comp hr0 ?_ m0
  unfold State.rebuildMap
  dsimp only
  repeat' (first
    | with_reducible exact Frame.refl _ _ | with_reducible apply modSlice_frame | with_reducible apply scanHeaders_frame
    | exact SlmSame.of fun _ => rfl | (refine SlmSame.of fun x => ?_; simp [apply_ite Slice.slm]; done)
    | (refine SlmSame.of fun x => ?_; (try dsimp only); apply slm_foldl; intro _ _; simp; done)
    | (refine SlmSame.of fun x => ?_; (repeat' (first | rfl | (simp [apply_ite Slice.slm]; done) | split)); done) | split
    | exact Eq.refl _)

end Sys2Proof.Laws
end

