-- ==== Sys2Proof/Laws/FrameStart.lean ====
section
/-!
SUPPORT. What each operation may change: the recorder, power, start and bond operations.
-/

namespace Sys2Proof.Laws

open Sys2Proof.Machine

variable {F0 : Nat} {r0 : State}

/-! ### RecorderOps -/

/-- May change recorder. -/
theorem dropNotice_frame (s : State) (hr0 : Frame F0 r0 s) (m0 : 0x100000000000 ||| F0 = F0) :
    Frame F0 r0 (State.dropNotice s) := by
  refine Frame.comp hr0 ?_ m0
  unfold State.dropNotice
  repeat' (first | with_reducible exact Frame.refl _ _ | with_reducible apply modRec_frame | exact Eq.refl _)

/-- May change nvm, recorder. -/
theorem flushNotices_frame (s : State) (hr0 : Frame F0 r0 s) (m0 : 0x120000000000 ||| F0 = F0) :
    Frame F0 r0 (State.flushNotices s) := by
  refine Frame.comp hr0 ?_ m0
  unfold State.flushNotices
  dsimp only
  repeat' (first
    | with_reducible exact Frame.refl _ _ | (intro _) | with_reducible assumption | with_reducible apply modNvm_frame
    | with_reducible apply modRec_frame | with_reducible apply dropNotice_frame | with_reducible apply Frame.ite
    | with_reducible apply Frame.foldl | split | exact Eq.refl _)

/-- May change regs, nvm. -/
theorem writeImage_frame (s : State) (hr0 : Frame F0 r0 s) (m0 : 0x20000000004 ||| F0 = F0) :
    Frame F0 r0 (State.writeImage s) := by
  refine Frame.comp hr0 ?_ m0
  unfold State.writeImage
  dsimp only
  repeat' (first
    | with_reducible exact Frame.refl _ _ | with_reducible apply modNvm_frame | with_reducible apply wr_frame | exact Eq.refl _)

/-- May change regs, nvm, recorder. -/
theorem writeRecorder_frame (s : State) (hr0 : Frame F0 r0 s) (m0 : 0x120000000004 ||| F0 = F0) :
    Frame F0 r0 (State.writeRecorder s) := by
  refine Frame.comp hr0 ?_ m0
  unfold State.writeRecorder
  repeat' (first
    | with_reducible exact Frame.refl _ _ | with_reducible apply writeImage_frame | with_reducible apply flushNotices_frame
    | exact Eq.refl _)

/-- May change regs, nvm, recorder. -/
theorem thaw_frame (s : State) (hr0 : Frame F0 r0 s) (m0 : 0x120000000004 ||| F0 = F0) :
    Frame F0 r0 (State.thaw s) := by
  refine Frame.comp hr0 ?_ m0
  unfold State.thaw
  dsimp only
  repeat' (first
    | with_reducible exact Frame.refl _ _ | (intro _) | with_reducible assumption | with_reducible apply modRec_frame
    | with_reducible apply clrBit_frame | with_reducible apply event_frame | with_reducible apply writeRecorder_frame
    | with_reducible apply Frame.ite | with_reducible apply Frame.foldl | split | exact Eq.refl _)

/-- May change regs, recorder. -/
theorem loadRecorder_frame (s : State) (hr0 : Frame F0 r0 s) (m0 : 0x100000000004 ||| F0 = F0) :
    Frame F0 r0 (State.loadRecorder s) := by
  refine Frame.comp hr0 ?_ m0
  unfold State.loadRecorder
  dsimp only
  repeat' (first
    | with_reducible exact Frame.refl _ _ | with_reducible apply modRec_frame | with_reducible apply wr_frame | split
    | exact Eq.refl _)

/-! ### PowerOps -/

/-- May change pins. -/
theorem drivePwm_frame (s : State) (hr0 : Frame F0 r0 s) (m0 : 0x2 ||| F0 = F0) :
    Frame F0 r0 (State.drivePwm s) := by
  refine Frame.comp hr0 ?_ m0
  unfold State.drivePwm
  dsimp only
  repeat' (first
    | with_reducible exact Frame.refl _ _ | with_reducible apply Frame.ite | split | exact Eq.refl _
    | with_reducible apply upd_pins)

/-- May change pins, regs. -/
theorem openLoop_frame (s : State) (n : Nat) (hr0 : Frame F0 r0 s) (m0 : 0x6 ||| F0 = F0) :
    Frame F0 r0 (State.openLoop s n) := by
  refine Frame.comp hr0 ?_ m0
  unfold State.openLoop
  dsimp only
  repeat' (first
    | with_reducible exact Frame.refl _ _ | with_reducible apply clrBit_frame | with_reducible apply drivePwm_frame
    | with_reducible apply wrQ_frame | with_reducible apply Frame.ite | split | exact Eq.refl _)

/-- May change regs, power. -/
theorem closeLoop_frame (s : State) (n : Nat) (m : Int) (hr0 : Frame F0 r0 s) (m0 : 0x40000000004 ||| F0 = F0) :
    Frame F0 r0 (State.closeLoop s n m) := by
  refine Frame.comp hr0 ?_ m0
  unfold State.closeLoop
  dsimp only
  repeat' (first
    | with_reducible exact Frame.refl _ _ | with_reducible apply setBit_frame | with_reducible apply modPower_frame
    | with_reducible apply wrQ_frame | exact Eq.refl _)

/-- May change pins, regs, power. -/
theorem setMode_frame (s : State) (m : Nat) (hr0 : Frame F0 r0 s) (m0 : 0x40000000006 ||| F0 = F0) :
    Frame F0 r0 (State.setMode s m) := by
  refine Frame.comp hr0 ?_ m0
  unfold State.setMode
  dsimp only
  repeat' (first
    | with_reducible exact Frame.refl _ _ | with_reducible apply modPower_frame | with_reducible apply putF_frame
    | with_reducible apply wrQ_frame | with_reducible apply drivePwm_frame | with_reducible apply Frame.ite | split
    | exact Eq.refl _)

/-- May change regs, power. -/
theorem takeRates_frame (s : State) (hr0 : Frame F0 r0 s) (m0 : 0x40000000004 ||| F0 = F0) :
    Frame F0 r0 (State.takeRates s) := by
  refine Frame.comp hr0 ?_ m0
  unfold State.takeRates
  dsimp only
  repeat' (first
    | with_reducible exact Frame.refl _ _ | with_reducible apply wr_frame | with_reducible apply modPower_frame
    | exact Eq.refl _)

/-- May change regs, tenants, slices. -/
theorem resizeBuffers_frame (s : State) (measured : Bool) (hr0 : Frame F0 r0 s) (m0 : 0x21004 ||| F0 = F0) :
    Frame F0 r0 (State.resizeBuffers s measured) := by
  refine Frame.comp hr0 ?_ m0
  unfold State.resizeBuffers
  dsimp only
  repeat' (first
    | with_reducible exact Frame.refl _ _ | (intro _) | with_reducible assumption | with_reducible apply wr_frame
    | with_reducible apply mapTenants_frame | with_reducible apply sizeBuffer_frame | with_reducible apply putF_frame
    | with_reducible apply Frame.ite | with_reducible apply Frame.foldl | split | exact Eq.refl _)

/-- May change regs. -/
theorem evalArmed_frame (s : State) (atStep : Bool) (hr0 : Frame F0 r0 s) (m0 : 0x4 ||| F0 = F0) :
    Frame F0 r0 (State.evalArmed s atStep) := by
  refine Frame.comp hr0 ?_ m0
  unfold State.evalArmed
  dsimp only
  repeat' (first
    | with_reducible exact Frame.refl _ _ | with_reducible apply putBit_frame | with_reducible apply setBit_frame
    | with_reducible apply clrBit_frame | with_reducible apply Frame.ite | split | exact Eq.refl _)

/-- May change pins, regs, power, recorder. -/
theorem declareUnhealthy_frame (s : State) (cause : Nat) (hr0 : Frame F0 r0 s) (m0 : 0x140000000006 ||| F0 = F0) :
    Frame F0 r0 (State.declareUnhealthy s cause) := by
  refine Frame.comp hr0 ?_ m0
  unfold State.declareUnhealthy
  dsimp only
  repeat' (first
    | with_reducible exact Frame.refl _ _ | with_reducible apply setBit_frame | with_reducible apply putF_frame
    | with_reducible apply modPower_frame | with_reducible apply openInterval_frame | with_reducible apply setMode_frame
    | with_reducible apply evalArmed_frame | with_reducible apply Frame.ite | split | exact Eq.refl _)

/-- May change regs. -/
theorem capSetpoint_frame (s : State) (hr0 : Frame F0 r0 s) (m0 : 0x4 ||| F0 = F0) :
    Frame F0 r0 (State.capSetpoint s) := by
  refine Frame.comp hr0 ?_ m0
  unfold State.capSetpoint
  repeat' (first | with_reducible exact Frame.refl _ _ | with_reducible apply wrQ_frame | exact Eq.refl _)

/-- May change regs, inflight, deferred, slices, invocations, hd, parks, hdQueue, digests, digestWaits, storeHdr, storeNext, power.
-/
theorem stopWork_frame (s : State) (hr0 : Frame F0 r0 s) (m0 : 0x4c003764204 ||| F0 = F0) :
    Frame F0 r0 (State.stopWork s) := by
  refine Frame.comp hr0 ?_ m0
  unfold State.stopWork
  dsimp only
  repeat' (first
    | with_reducible exact Frame.refl _ _ | with_reducible apply modPower_frame | with_reducible apply mapSlices_frame
    | with_reducible apply clrBit_frame | exact SlmSame.of fun _ => rfl
    | (refine SlmSame.of fun x => ?_; simp [apply_ite Slice.slm]; done)
    | (refine SlmSame.of fun x => ?_; (try dsimp only); apply slm_foldl; intro _ _; simp; done)
    | (refine SlmSame.of fun x => ?_; (repeat' (first | rfl | (simp [apply_ite Slice.slm]; done) | split)); done)
    | exact Eq.refl _
    | with_reducible apply upd_inflight_deferred_invocations_hd_parks_hdQueue_digests_digestWaits_storeHdr_storeNext
    | exact modAt_length _ _ _ | exact List.length_map _)

/-- May change pins, regs, inflight, deferred, slices, invocations, hd, parks, hdQueue, digests, digestWaits, storeHdr, storeNext,
nvm, power, recorder. -/
theorem enterDump_frame (s : State) (reason : Nat) (hr0 : Frame F0 r0 s) (m0 : 0x16c003764206 ||| F0 = F0) :
    Frame F0 r0 (State.enterDump s reason) := by
  refine Frame.comp hr0 ?_ m0
  unfold State.enterDump
  dsimp only
  repeat' (first
    | with_reducible exact Frame.refl _ _ | with_reducible apply thaw_frame | with_reducible apply event_frame
    | with_reducible apply closeAllIntervals_frame | with_reducible apply modPower_frame | with_reducible apply setMode_frame
    | with_reducible apply inc_frame | with_reducible apply modNvm_frame | with_reducible apply evalArmed_frame
    | with_reducible apply stopWork_frame | exact Eq.refl _)

/-! ### StartOps -/

/-- May change regs, meas, measLog, measSeq. -/
theorem extend_frame (s : State) (ix source : Nat) (d : Digest384) (hr0 : Frame F0 r0 s) (m0 : 0x70000004 ||| F0 = F0) :
    Frame F0 r0 (State.extend s ix source d) := by
  refine Frame.comp hr0 ?_ m0
  unfold State.extend
  dsimp only
  repeat' (first
    | with_reducible exact Frame.refl _ _ | with_reducible apply setBit_frame | with_reducible apply putF_frame
    | with_reducible apply clrBit_frame | with_reducible apply inc_frame | with_reducible apply Frame.ite | split
    | exact Eq.refl _ | with_reducible apply upd_measLog | with_reducible apply upd_meas_measSeq | exact modAt_length _ _ _
    | exact List.length_map _)

/-- May change regs, meas, measLog, measSeq. -/
theorem extendImage_frame (s : State) (im : SeedImage) (source : Nat) (hr0 : Frame F0 r0 s) (m0 : 0x70000004 ||| F0 = F0) :
    Frame F0 r0 (State.extendImage s im source) := by
  refine Frame.comp hr0 ?_ m0
  unfold State.extendImage
  dsimp only
  repeat' (first | with_reducible exact Frame.refl _ _ | with_reducible apply extend_frame | exact Eq.refl _)

/-- May change regs, meas, measLog, measSeq. -/
theorem extendMode_frame (s : State) (minimal : Bool) (hr0 : Frame F0 r0 s) (m0 : 0x70000004 ||| F0 = F0) :
    Frame F0 r0 (State.extendMode s minimal) := by
  refine Frame.comp hr0 ?_ m0
  unfold State.extendMode
  repeat' (first | with_reducible exact Frame.refl _ _ | with_reducible apply extend_frame | exact Eq.refl _)

/-- May change nvm. -/
theorem noteEnd_frame (s : State) (cause : Nat) (hr0 : Frame F0 r0 s) (m0 : 0x20000000000 ||| F0 = F0) :
    Frame F0 r0 (State.noteEnd s cause) := by
  refine Frame.comp hr0 ?_ m0
  unfold State.noteEnd
  repeat' (first
    | with_reducible exact Frame.refl _ _ | with_reducible apply modNvm_frame | with_reducible apply Frame.ite | split
    | exact Eq.refl _)

/-- May change regs, nvm, recorder. -/
theorem closeAttempt_frame (s : State) (hr0 : Frame F0 r0 s) (m0 : 0x120000000004 ||| F0 = F0) :
    Frame F0 r0 (State.closeAttempt s) := by
  refine Frame.comp hr0 ?_ m0
  unfold State.closeAttempt
  dsimp only
  repeat' (first
    | with_reducible exact Frame.refl _ _ | with_reducible apply modNvm_frame | with_reducible apply notice_frame
    | with_reducible apply Frame.ite | split | exact Eq.refl _)

/-- May change regs, nvm. -/
theorem setStage_frame (s : State) (k : Nat) (hr0 : Frame F0 r0 s) (m0 : 0x20000000004 ||| F0 = F0) :
    Frame F0 r0 (State.setStage s k) := by
  refine Frame.comp hr0 ?_ m0
  unfold State.setStage
  repeat' (first
    | with_reducible exact Frame.refl _ _ | with_reducible apply modNvm_frame | with_reducible apply putF_frame
    | exact Eq.refl _)

/-- May change start. -/
theorem reject_frame (s : State) (k : Nat) (hr0 : Frame F0 r0 s) (m0 : 0x80000000000 ||| F0 = F0) :
    Frame F0 r0 (State.reject s k) := by
  refine Frame.comp hr0 ?_ m0
  unfold State.reject
  dsimp only
  repeat' (first | with_reducible exact Frame.refl _ _ | with_reducible apply modStart_frame | split | exact Eq.refl _)

/-- May change nvm. -/
theorem putSlots_frame (s : State) (r : SlotRecord) (hr0 : Frame F0 r0 s) (m0 : 0x20000000000 ||| F0 = F0) :
    Frame F0 r0 (State.putSlots s r) := by
  refine Frame.comp hr0 ?_ m0
  unfold State.putSlots
  repeat' (first | with_reducible exact Frame.refl _ _ | with_reducible apply modNvm_frame | exact Eq.refl _)

/-- May change regs, nvm. -/
theorem pickSlot_frame (s : State) (hr0 : Frame F0 r0 s) (m0 : 0x20000000004 ||| F0 = F0) :
    Frame F0 r0 (State.pickSlot s).1 := by
  refine Frame.comp hr0 ?_ m0
  unfold State.pickSlot
  dsimp only
  repeat' (first
    | with_reducible exact Frame.refl _ _ | with_reducible apply setBit_frame | with_reducible apply putSlots_frame
    | with_reducible apply Frame.ite | split | exact Eq.refl _)

/-- May change regs, dual, ctrls, inflight, meas, measLog, measSeq, nvm, recorder. -/
theorem enterMinimal_frame (s : State) (reason : Nat) (hr0 : Frame F0 r0 s) (m0 : 0x120070000344 ||| F0 = F0) :
    Frame F0 r0 (State.enterMinimal s reason) := by
  refine Frame.comp hr0 ?_ m0
  unfold State.enterMinimal
  dsimp only
  repeat' (first
    | with_reducible exact Frame.refl _ _ | with_reducible apply modNvm_frame | with_reducible apply putF_frame
    | with_reducible apply setBit_frame | with_reducible apply notice_frame | with_reducible apply extendMode_frame
    | exact Eq.refl _ | with_reducible apply upd_dual_ctrls_inflight)

/-- May change regs, nvm, start. -/
theorem bootSlot_frame (s : State) (k : Nat) (trial : Bool) (hr0 : Frame F0 r0 s) (m0 : 0xa0000000004 ||| F0 = F0) :
    Frame F0 r0 (State.bootSlot s k trial) := by
  refine Frame.comp hr0 ?_ m0
  unfold State.bootSlot
  dsimp only
  repeat' (first
    | with_reducible exact Frame.refl _ _ | with_reducible apply modStart_frame | with_reducible apply modNvm_frame
    | with_reducible apply putBit_frame | split | exact Eq.refl _)

/-- May change nvm, start. -/
theorem openAttempt_frame (s : State) (c : Nat) (hr0 : Frame F0 r0 s) (m0 : 0xa0000000000 ||| F0 = F0) :
    Frame F0 r0 (State.openAttempt s c) := by
  refine Frame.comp hr0 ?_ m0
  unfold State.openAttempt
  dsimp only
  repeat' (first
    | with_reducible exact Frame.refl _ _ | with_reducible apply modStart_frame | with_reducible apply modNvm_frame
    | with_reducible apply Frame.ite | split | exact Eq.refl _)

/-- May change regs, dual, ctrls, inflight, meas, measLog, measSeq, nvm, start, recorder. -/
theorem chooseImage_frame (s : State) (c : Nat) (hr0 : Frame F0 r0 s) (m0 : 0x1a0070000344 ||| F0 = F0) :
    Frame F0 r0 (State.chooseImage s c) := by
  refine Frame.comp hr0 ?_ m0
  unfold State.chooseImage
  dsimp only
  repeat' (first
    | with_reducible exact Frame.refl _ _ | with_reducible apply pickSlot_frame | with_reducible apply setStage_frame
    | with_reducible apply bootSlot_frame | with_reducible apply reject_frame | with_reducible apply enterMinimal_frame
    | with_reducible apply modNvm_frame | with_reducible apply Frame.ite | split | exact Eq.refl _
    | with_reducible apply upd_dual)

/-- May change regs, dual, ctrls, inflight, meas, measLog, measSeq, nvm, start, recorder. -/
theorem beginStart_frame (s : State) (hr0 : Frame F0 r0 s) (m0 : 0x1a0070000344 ||| F0 = F0) :
    Frame F0 r0 (State.beginStart s) := by
  refine Frame.comp hr0 ?_ m0
  unfold State.beginStart
  dsimp only
  repeat' (first
    | with_reducible exact Frame.refl _ _ | with_reducible apply loadRecorder_frame | with_reducible apply closeAttempt_frame
    | with_reducible apply modNvm_frame | with_reducible apply record_frame | with_reducible apply putKey_frame
    | with_reducible apply putF_frame | with_reducible apply extend_frame | with_reducible apply enterMinimal_frame
    | with_reducible apply openAttempt_frame | with_reducible apply chooseImage_frame | with_reducible apply Frame.ite | split
    | exact Eq.refl _)

/-- May change pins, regs, latches, busRead, course, dual, links, ctrls, inflight, order, namespaces, tenants, leaving, deferred,
migs, slotWaits, slices, invocations, nextInv, hd, parks, hdQueue, ats, digests, digestWaits, digestOut, hubKey, meas, measLog,
measSeq, staged, spdmPeers, spdmSessions, spdmOut, entropyOk, groupAt, groupRecs, storeHdr, storeNext, wearRateMax, nvm, power,
start, recorder, fences, fenceCounts, fenceSoon, test, unfence, mgmt, fresh, slice-local memory. -/
theorem restart_frame (s : State) (cause : Nat) (hr0 : Frame F0 r0 s) (m0 : 0x2ffffffffffffe ||| F0 = F0) :
    Frame F0 r0 (State.restart s cause) := by
  refine Frame.comp hr0 ?_ m0
  unfold State.restart
  dsimp only
  repeat' (first
    | with_reducible exact Frame.refl _ _ | with_reducible apply packageReset_frame | with_reducible apply noteEnd_frame
    | with_reducible apply beginStart_frame | with_reducible apply Frame.ite | split | exact Eq.refl _)

/-- May change regs. -/
theorem applyField_frame (s : State) (q : Nat × Word) (hr0 : Frame F0 r0 s) (m0 : 0x4 ||| F0 = F0) :
    Frame F0 r0 (State.applyField s q) := by
  refine Frame.comp hr0 ?_ m0
  unfold State.applyField
  dsimp only
  repeat' (first | with_reducible exact Frame.refl _ _ | with_reducible apply wr_frame | split | exact Eq.refl _)

/-- May change regs. -/
theorem applyConfig_frame (s : State) (slices : Bool) (hr0 : Frame F0 r0 s) (m0 : 0x4 ||| F0 = F0) :
    Frame F0 r0 (State.applyConfig s slices) := by
  refine Frame.comp hr0 ?_ m0
  unfold State.applyConfig
  dsimp only
  repeat' (first
    | with_reducible exact Frame.refl _ _ | (intro _) | with_reducible assumption | with_reducible apply applyField_frame
    | with_reducible apply Frame.foldl | exact Eq.refl _)

/-- May change regs, course. -/
theorem applyBond_frame (s : State) (hr0 : Frame F0 r0 s) (m0 : 0x24 ||| F0 = F0) :
    Frame F0 r0 (State.applyBond s) := by
  refine Frame.comp hr0 ?_ m0
  unfold State.applyBond
  dsimp only
  repeat' (first
    | with_reducible exact Frame.refl _ _ | (intro _) | with_reducible assumption | with_reducible apply wr_frame
    | with_reducible apply modCourse_frame | with_reducible apply Frame.ite | with_reducible apply Frame.foldl | split
    | exact Eq.refl _)

/-- May change slices. -/
theorem startCounters_frame (s : State) (hr0 : Frame F0 r0 s) (m0 : 0x20000 ||| F0 = F0) :
    Frame F0 r0 (State.startCounters s) := by
  refine Frame.comp hr0 ?_ m0
  unfold State.startCounters
  dsimp only
  repeat' (first
    | with_reducible exact Frame.refl _ _ | (intro _) | with_reducible assumption | with_reducible apply modSlice_frame
    | with_reducible apply Frame.foldl | exact SlmSame.of fun _ => rfl | exact Eq.refl _)

/-- May change regs. -/
theorem startArrays_frame (s : State) (hr0 : Frame F0 r0 s) (m0 : 0x4 ||| F0 = F0) :
    Frame F0 r0 (State.startArrays s) := by
  refine Frame.comp hr0 ?_ m0
  unfold State.startArrays
  repeat' (first
    | with_reducible exact Frame.refl _ _ | (intro _) | with_reducible assumption | with_reducible apply wr_frame
    | with_reducible apply Frame.foldl | exact Eq.refl _)

/-- May change regs. -/
theorem startDiscovery_frame (s : State) (n : Nat) (hr0 : Frame F0 r0 s) (m0 : 0x4 ||| F0 = F0) :
    Frame F0 r0 (State.startDiscovery s n) := by
  refine Frame.comp hr0 ?_ m0
  unfold State.startDiscovery
  dsimp only
  repeat' (first
    | with_reducible exact Frame.refl _ _ | (intro _) | with_reducible assumption | with_reducible apply putF_frame
    | with_reducible apply Frame.foldl | exact Eq.refl _)

/-- May change regs, course, slices, nvm. -/
theorem releaseSlices_frame (s : State) (hr0 : Frame F0 r0 s) (m0 : 0x20000020024 ||| F0 = F0) :
    Frame F0 r0 (State.releaseSlices s) := by
  refine Frame.comp hr0 ?_ m0
  unfold State.releaseSlices
  dsimp only
  repeat' (first
    | with_reducible exact Frame.refl _ _ | (intro _) | with_reducible assumption | with_reducible apply modCourse_frame
    | with_reducible apply startArrays_frame | with_reducible apply applyConfig_frame | with_reducible apply setStage_frame
    | with_reducible apply startDiscovery_frame | with_reducible apply modSlice_frame | with_reducible apply Frame.foldl
    | exact SlmSame.of fun _ => rfl | exact Eq.refl _)

/-- May change regs, course, slices, nvm. -/
theorem startCourse_frame (s : State) (hr0 : Frame F0 r0 s) (m0 : 0x20000020024 ||| F0 = F0) :
    Frame F0 r0 (State.startCourse s) := by
  refine Frame.comp hr0 ?_ m0
  unfold State.startCourse
  repeat' (first
    | with_reducible exact Frame.refl _ _ | with_reducible apply releaseSlices_frame | with_reducible apply putF_frame | split
    | exact Eq.refl _)

/-- May change regs. -/
theorem loadNvmRegs_frame (s : State) (hr0 : Frame F0 r0 s) (m0 : 0x4 ||| F0 = F0) :
    Frame F0 r0 (State.loadNvmRegs s) := by
  refine Frame.comp hr0 ?_ m0
  unfold State.loadNvmRegs
  dsimp only
  repeat' (first
    | with_reducible exact Frame.refl _ _ | with_reducible apply putF_frame | with_reducible apply wr_frame | exact Eq.refl _)

/-- May change regs, power. -/
theorem closeLoops_frame (s : State) (hr0 : Frame F0 r0 s) (m0 : 0x40000000004 ||| F0 = F0) :
    Frame F0 r0 (State.closeLoops s) := by
  refine Frame.comp hr0 ?_ m0
  unfold State.closeLoops
  repeat' (first
    | with_reducible exact Frame.refl _ _ | (intro _) | with_reducible assumption | with_reducible apply closeLoop_frame
    | with_reducible apply Frame.foldl | exact Eq.refl _)

/-- May change pins, regs, course, tenants, slices, meas, measLog, measSeq, nvm, power, recorder. -/
theorem hubStart_frame (s : State) (hr0 : Frame F0 r0 s) (m0 : 0x160070021026 ||| F0 = F0) :
    Frame F0 r0 (State.hubStart s) := by
  refine Frame.comp hr0 ?_ m0
  unfold State.hubStart
  dsimp only
  repeat' (first
    | with_reducible exact Frame.refl _ _ | with_reducible apply wr_frame | with_reducible apply startCounters_frame
    | with_reducible apply loadNvmRegs_frame | with_reducible apply wr64_frame | with_reducible apply setBit_frame
    | with_reducible apply putBit_frame | with_reducible apply applyBond_frame | with_reducible apply applyConfig_frame
    | with_reducible apply notice_frame | with_reducible apply extend_frame | with_reducible apply closeLoops_frame
    | with_reducible apply capSetpoint_frame | with_reducible apply resizeBuffers_frame | with_reducible apply takeRates_frame
    | with_reducible apply modPower_frame | with_reducible apply setMode_frame | with_reducible apply startCourse_frame
    | with_reducible apply evalArmed_frame | with_reducible apply Frame.ite | split | exact Eq.refl _)

/-- May change pins, regs, course, tenants, slices, meas, measLog, measSeq, nvm, power, start, recorder. -/
theorem imageValid_frame (s : State) (hr0 : Frame F0 r0 s) (m0 : 0x1e0070021026 ||| F0 = F0) :
    Frame F0 r0 (State.imageValid s) := by
  refine Frame.comp hr0 ?_ m0
  unfold State.imageValid
  repeat' (first
    | with_reducible exact Frame.refl _ _ | with_reducible apply hubStart_frame | with_reducible apply setStage_frame
    | with_reducible apply modStart_frame | with_reducible apply extendMode_frame | with_reducible apply extendImage_frame
    | split | exact Eq.refl _)

/-- May change pins, regs, course, dual, links, ctrls, inflight, tenants, slices, meas, measLog, measSeq, nvm, power, start,
recorder. -/
theorem imageVerified_frame (s : State) (hr0 : Frame F0 r0 s) (m0 : 0x1e00700213e6 ||| F0 = F0) :
    Frame F0 r0 (State.imageVerified s) := by
  refine Frame.comp hr0 ?_ m0
  unfold State.imageVerified
  dsimp only
  repeat' (first
    | with_reducible exact Frame.refl _ _ | with_reducible apply imageValid_frame | with_reducible apply reject_frame
    | with_reducible apply bootSlot_frame | with_reducible apply modNvm_frame | with_reducible apply enterMinimal_frame
    | with_reducible apply noteEnd_frame | with_reducible apply closeAttempt_frame | with_reducible apply Frame.ite | split
    | exact Eq.refl _ | with_reducible apply upd_links | exact modAt_length _ _ _ | exact List.length_map _)

/-- May change ctrls. -/
theorem evalReady_frame (s : State) (hr0 : Frame F0 r0 s) (m0 : 0x100 ||| F0 = F0) :
    Frame F0 r0 (State.evalReady s) := by
  refine Frame.comp hr0 ?_ m0
  unfold State.evalReady
  repeat' (first
    | with_reducible exact Frame.refl _ _ | with_reducible apply Frame.ite | split | exact Eq.refl _
    | with_reducible apply upd_ctrls)

/-- May change regs, ctrls, nvm, start, fresh. -/
theorem reachReady_frame (s : State) (hr0 : Frame F0 r0 s) (m0 : 0x80a0000000104 ||| F0 = F0) :
    Frame F0 r0 (State.reachReady s) := by
  refine Frame.comp hr0 ?_ m0
  unfold State.reachReady
  dsimp only
  repeat' (first
    | with_reducible exact Frame.refl _ _ | with_reducible apply setBit_frame | with_reducible apply setStage_frame
    | with_reducible apply free_frame | with_reducible apply wr_frame | with_reducible apply modNvm_frame
    | with_reducible apply evalReady_frame | with_reducible apply modStart_frame | with_reducible apply Frame.ite | split
    | exact Eq.refl _)

/-- May change regs, nvm, recorder. -/
theorem startSuccess_frame (s : State) (hr0 : Frame F0 r0 s) (m0 : 0x120000000004 ||| F0 = F0) :
    Frame F0 r0 (State.startSuccess s) := by
  refine Frame.comp hr0 ?_ m0
  unfold State.startSuccess
  dsimp only
  repeat' (first
    | with_reducible exact Frame.refl _ _ | with_reducible apply setBit_frame | with_reducible apply setStage_frame
    | with_reducible apply modNvm_frame | with_reducible apply closeAttempt_frame | with_reducible apply Frame.ite | split
    | exact Eq.refl _)

/-! ### BondOps -/

/-- May change course. -/
theorem turnCuts_frame (s : State) (hr0 : Frame F0 r0 s) (m0 : 0x20 ||| F0 = F0) :
    Frame F0 r0 (State.turnCuts s) := by
  refine Frame.comp hr0 ?_ m0
  unfold State.turnCuts
  repeat' (first | with_reducible exact Frame.refl _ _ | with_reducible apply modCourse_frame | exact Eq.refl _)

/-- May change regs, course. -/
theorem applyBanks_frame (s : State) (hr0 : Frame F0 r0 s) (m0 : 0x24 ||| F0 = F0) :
    Frame F0 r0 (State.applyBanks s) := by
  refine Frame.comp hr0 ?_ m0
  unfold State.applyBanks
  dsimp only
  repeat' (first
    | with_reducible exact Frame.refl _ _ | exact fun h => mapFilter_wf _ h | (intro _) | with_reducible assumption
    | with_reducible apply wr_frame | with_reducible apply modCourse_frame | with_reducible apply Frame.ite
    | with_reducible apply Frame.foldl | split | exact Eq.refl _ | with_reducible apply upd_regs)

end Sys2Proof.Laws
end

