-- ==== Sys2Proof/Laws/FrameEngines.lean ====
section
/-!
SUPPORT. What each operation may change: the schedulers, search, the digest unit, fences, the slice engines.
-/

namespace Sys2Proof.Laws

open Sys2Proof.Machine

variable {F0 : Nat} {r0 : State}

/-! ### SchedOps -/

/-- May change slices. -/
theorem modCluster_frame (s : State) (n c : Nat) (f : Cluster → Cluster) (hr0 : Frame F0 r0 s) (m0 : 0x20000 ||| F0 = F0) :
    Frame F0 r0 (State.modCluster s n c f) := by
  refine Frame.comp hr0 ?_ m0
  unfold State.modCluster
  repeat' (first
    | with_reducible exact Frame.refl _ _ | with_reducible apply modSlice_frame | exact SlmSame.of fun _ => rfl
    | exact Eq.refl _)

/-- May change slices. -/
theorem modItem_frame (s : State) (n c w : Nat) (f : WorkItem → WorkItem) (hr0 : Frame F0 r0 s) (m0 : 0x20000 ||| F0 = F0) :
    Frame F0 r0 (State.modItem s n c w f) := by
  refine Frame.comp hr0 ?_ m0
  unfold State.modItem
  dsimp only
  repeat' (first | with_reducible exact Frame.refl _ _ | with_reducible apply modCluster_frame | split | exact Eq.refl _)

/-- May change regs, slices. -/
theorem port_frame (s : State) (it : ItemRef) (status result : Nat) (hr0 : Frame F0 r0 s) (m0 : 0x20004 ||| F0 = F0) :
    Frame F0 r0 (State.port s it status result) := by
  refine Frame.comp hr0 ?_ m0
  unfold State.port
  dsimp only
  repeat' (first
    | with_reducible exact Frame.refl _ _ | with_reducible apply modCluster_frame | with_reducible apply setBit_frame
    | with_reducible apply Frame.ite | split | exact Eq.refl _)

/-- May change fresh. -/
theorem choose_frame (s : State) (l : List Nat) (hr0 : Frame F0 r0 s) (m0 : 0x8000000000000 ||| F0 = F0) :
    Frame F0 r0 (State.choose s l).2 := by
  refine Frame.comp hr0 ?_ m0
  unfold State.choose
  repeat' (first | with_reducible exact Frame.refl _ _ | with_reducible apply free_frame | split | exact Eq.refl _)

/-- May change slices. -/
theorem closeCtx_frame (s : State) (n ix : Nat) (hr0 : Frame F0 r0 s) (m0 : 0x20000 ||| F0 = F0) :
    Frame F0 r0 (State.closeCtx s n ix) := by
  refine Frame.comp hr0 ?_ m0
  unfold State.closeCtx
  repeat' (first
    | with_reducible exact Frame.refl _ _ | with_reducible apply modSlice_frame | with_reducible apply Frame.ite
    | exact SlmSame.of fun _ => rfl | (refine SlmSame.of fun x => ?_; simp [apply_ite Slice.slm]; done)
    | (refine SlmSame.of fun x => ?_; (try dsimp only); apply slm_foldl; intro _ _; simp; done)
    | (refine SlmSame.of fun x => ?_; (repeat' (first | rfl | (simp [apply_ite Slice.slm]; done) | split)); done) | split
    | exact Eq.refl _)

/-- May change slices, fresh. -/
theorem allocSlot_frame (s : State) (n c entry : Nat) (arg : BitVec 64) (owner : Nat) (ctrl inv flow : Option Nat) (need :
    BitVec 4) (done : Option (Nat × Nat)) (hr0 : Frame F0 r0 s) (m0 : 0x8000000020000 ||| F0 = F0) :
    Frame F0 r0 (State.allocSlot s n c entry arg owner ctrl inv flow need done).2 := by
  refine Frame.comp hr0 ?_ m0
  unfold State.allocSlot
  dsimp only
  repeat' (first
    | with_reducible exact Frame.refl _ _ | with_reducible apply choose_frame | with_reducible apply modCluster_frame | split
    | exact Eq.refl _)

/-- May change slices. -/
theorem openFlow_frame (s : State) (n c owner : Nat) (hr0 : Frame F0 r0 s) (m0 : 0x20000 ||| F0 = F0) :
    Frame F0 r0 (State.openFlow s n c owner).2 := by
  refine Frame.comp hr0 ?_ m0
  unfold State.openFlow
  repeat' (first | with_reducible exact Frame.refl _ _ | with_reducible apply modCluster_frame | split | exact Eq.refl _)

/-- May change regs. -/
theorem stray_frame (s : State) (n : Nat) (hr0 : Frame F0 r0 s) (m0 : 0x4 ||| F0 = F0) :
    Frame F0 r0 (State.stray s n) := by
  refine Frame.comp hr0 ?_ m0
  unfold State.stray
  repeat' (first
    | with_reducible exact Frame.refl _ _ | with_reducible apply setBit_frame | with_reducible apply inc_frame
    | exact Eq.refl _)

/-- May change regs, slices. -/
theorem deliver_frame (s : State) (n c w ix : Nat) (op : Operand) (hr0 : Frame F0 r0 s) (m0 : 0x20004 ||| F0 = F0) :
    Frame F0 r0 (State.deliver s n c w ix op) := by
  refine Frame.comp hr0 ?_ m0
  unfold State.deliver
  dsimp only
  repeat' (first
    | with_reducible exact Frame.refl _ _ | with_reducible apply modCluster_frame | with_reducible apply dropCtx_frame
    | with_reducible apply stray_frame | with_reducible apply Frame.ite | split | exact Eq.refl _)

/-- May change slices. -/
theorem submitEngine_frame (s : State) (n c unit ix len : Nat) (hr0 : Frame F0 r0 s) (m0 : 0x20000 ||| F0 = F0) :
    Frame F0 r0 (State.submitEngine s n c unit ix len) := by
  refine Frame.comp hr0 ?_ m0
  unfold State.submitEngine
  dsimp only
  repeat' (first
    | with_reducible exact Frame.refl _ _ | with_reducible apply addWork_frame | with_reducible apply Frame.ite | split
    | exact Eq.refl _)

/-- May change regs, inflight, slices. -/
theorem emitNow_frame (s : State) (n c w : Nat) (e : Emit) (hr0 : Frame F0 r0 s) (m0 : 0x20204 ||| F0 = F0) :
    Frame F0 r0 (State.emitNow s n c w e) := by
  refine Frame.comp hr0 ?_ m0
  unfold State.emitNow
  dsimp only
  repeat' (first
    | with_reducible exact Frame.refl _ _ | with_reducible apply deliver_frame | with_reducible apply stray_frame
    | with_reducible apply modCluster_frame | with_reducible apply finish_frame | with_reducible apply modSlice_frame
    | with_reducible apply submitEngine_frame | with_reducible apply Frame.ite | exact SlmSame.of fun _ => rfl
    | (refine SlmSame.of fun x => ?_; simp [apply_ite Slice.slm]; done)
    | (refine SlmSame.of fun x => ?_; (try dsimp only); apply slm_foldl; intro _ _; simp; done)
    | (refine SlmSame.of fun x => ?_; (repeat' (first | rfl | (simp [apply_ite Slice.slm]; done) | split)); done) | split
    | exact Eq.refl _)

/-- May change regs, inflight, slices. -/
theorem releaseEmits_frame (s : State) (n c w : Nat) (hr0 : Frame F0 r0 s) (m0 : 0x20204 ||| F0 = F0) :
    Frame F0 r0 (State.releaseEmits s n c w) := by
  refine Frame.comp hr0 ?_ m0
  unfold State.releaseEmits
  dsimp only
  repeat' (first
    | with_reducible exact Frame.refl _ _ | (intro _) | with_reducible assumption | with_reducible apply modItem_frame
    | with_reducible apply emitNow_frame | with_reducible apply Frame.ite | with_reducible apply Frame.foldl | split
    | exact Eq.refl _)

/-- May change regs, slices. -/
theorem freeSlot_frame (s : State) (n c w : Nat) (hr0 : Frame F0 r0 s) (m0 : 0x20004 ||| F0 = F0) :
    Frame F0 r0 (State.freeSlot s n c w) := by
  refine Frame.comp hr0 ?_ m0
  unfold State.freeSlot
  dsimp only
  repeat' (first
    | with_reducible exact Frame.refl _ _ | with_reducible apply modCluster_frame | with_reducible apply deliver_frame | split
    | exact Eq.refl _)

/-- May change regs, inflight, slices. -/
theorem releaseFlow_frame (s : State) (n c f z1 : Nat) (hr0 : Frame F0 r0 s) (m0 : 0x20204 ||| F0 = F0) :
    Frame F0 r0 (State.releaseFlow s n c f z1) := by
  induction z1 generalizing s with
  | zero => exact hr0
  | succ k ih =>
    unfold State.releaseFlow
    dsimp only
    repeat' (first
      | with_reducible exact hr0 | with_reducible assumption | with_reducible apply ih | with_reducible apply modCluster_frame
      | with_reducible apply releaseEmits_frame | with_reducible apply freeSlot_frame | with_reducible apply Frame.ite | split
      | exact mask_or m0 rfl)

/-- May change regs, inflight, slices. -/
theorem releaseStep_frame (s : State) (n c : Nat) (hr0 : Frame F0 r0 s) (m0 : 0x20204 ||| F0 = F0) :
    Frame F0 r0 (State.releaseStep s n c) := by
  refine Frame.comp hr0 ?_ m0
  unfold State.releaseStep
  dsimp only
  repeat' (first
    | with_reducible exact Frame.refl _ _ | (intro _) | with_reducible assumption | with_reducible apply releaseFlow_frame
    | with_reducible apply releaseEmits_frame | with_reducible apply freeSlot_frame | with_reducible apply Frame.ite
    | with_reducible apply Frame.foldl | split | exact Eq.refl _)

/-- May change regs, slices. -/
theorem delayTick_frame (s : State) (n c : Nat) (hr0 : Frame F0 r0 s) (m0 : 0x20004 ||| F0 = F0) :
    Frame F0 r0 (State.delayTick s n c) := by
  refine Frame.comp hr0 ?_ m0
  unfold State.delayTick
  dsimp only
  repeat' (first
    | with_reducible exact Frame.refl _ _ | (intro _) | with_reducible assumption | with_reducible apply modCluster_frame
    | with_reducible apply modItem_frame | with_reducible apply deliver_frame | with_reducible apply Frame.foldl
    | exact Eq.refl _)

/-- May change regs, slices, fresh. -/
theorem grant_frame (s : State) (n c : Nat) (q : Waiting) (hr0 : Frame F0 r0 s) (m0 : 0x8000000020004 ||| F0 = F0) :
    Frame F0 r0 (State.grant s n c q).2 := by
  refine Frame.comp hr0 ?_ m0
  unfold State.grant
  dsimp only
  repeat' (first
    | with_reducible exact Frame.refl _ _ | with_reducible apply allocSlot_frame | with_reducible apply deliver_frame
    | with_reducible apply newCtx_frame | with_reducible apply Frame.ite | split | exact Eq.refl _)

/-- May change regs, slices, fresh. -/
theorem grants_frame (s : State) (n c : Nat) (hr0 : Frame F0 r0 s) (m0 : 0x8000000020004 ||| F0 = F0) :
    Frame F0 r0 (State.grants s n c) := by
  refine Frame.comp hr0 ?_ m0
  unfold State.grants
  dsimp only
  repeat' (first
    | with_reducible exact Frame.refl _ _ | (intro _) | with_reducible assumption | with_reducible apply grant_frame
    | with_reducible apply modCluster_frame | with_reducible apply Frame.ite | with_reducible apply Frame.foldl
    | with_reducible apply Frame.foldl_fst | split | exact Eq.refl _)

/-- May change slices. -/
theorem holdItem_frame (s : State) (n c w status : Nat) (code : BitVec 8) (hr0 : Frame F0 r0 s) (m0 : 0x20000 ||| F0 = F0) :
    Frame F0 r0 (State.holdItem s n c w status code) := by
  refine Frame.comp hr0 ?_ m0
  unfold State.holdItem
  repeat' (first | with_reducible exact Frame.refl _ _ | with_reducible apply modItem_frame | exact Eq.refl _)

/-- May change regs, slices. -/
theorem discardSlot_frame (s : State) (n c w : Nat) (hr0 : Frame F0 r0 s) (m0 : 0x20004 ||| F0 = F0) :
    Frame F0 r0 (State.discardSlot s n c w) := by
  refine Frame.comp hr0 ?_ m0
  unfold State.discardSlot
  repeat' (first
    | with_reducible exact Frame.refl _ _ | with_reducible apply freeSlot_frame | with_reducible apply modItem_frame
    | exact Eq.refl _)

/-- May change regs, slices. -/
theorem discardItems_frame (s : State) (n c : Nat) (p : WorkItem → Bool) (hr0 : Frame F0 r0 s) (m0 : 0x20004 ||| F0 = F0) :
    Frame F0 r0 (State.discardItems s n c p) := by
  refine Frame.comp hr0 ?_ m0
  unfold State.discardItems
  dsimp only
  repeat' (first
    | with_reducible exact Frame.refl _ _ | (intro _) | with_reducible assumption | with_reducible apply setBit_frame
    | with_reducible apply modItem_frame | with_reducible apply discardSlot_frame | with_reducible apply Frame.ite
    | with_reducible apply Frame.foldl | split | exact Eq.refl _)

/-- May change regs, slices. -/
theorem discardSlice_frame (s : State) (n : Nat) (p : WorkItem → Bool) (hr0 : Frame F0 r0 s) (m0 : 0x20004 ||| F0 = F0) :
    Frame F0 r0 (State.discardSlice s n p) := by
  refine Frame.comp hr0 ?_ m0
  unfold State.discardSlice
  repeat' (first
    | with_reducible exact Frame.refl _ _ | (intro _) | with_reducible assumption | with_reducible apply discardItems_frame
    | with_reducible apply Frame.foldl | exact Eq.refl _)

/-- May change regs, slices. -/
theorem discardAll_frame (s : State) (p : WorkItem → Bool) (hr0 : Frame F0 r0 s) (m0 : 0x20004 ||| F0 = F0) :
    Frame F0 r0 (State.discardAll s p) := by
  refine Frame.comp hr0 ?_ m0
  unfold State.discardAll
  repeat' (first
    | with_reducible exact Frame.refl _ _ | (intro _) | with_reducible assumption | with_reducible apply discardSlice_frame
    | with_reducible apply Frame.foldl | exact Eq.refl _)

/-- May change slices. -/
theorem closeCtxs_frame (s : State) (p : Ctx → Bool) (hr0 : Frame F0 r0 s) (m0 : 0x20000 ||| F0 = F0) :
    Frame F0 r0 (State.closeCtxs s p) := by
  refine Frame.comp hr0 ?_ m0
  unfold State.closeCtxs
  repeat' (first
    | with_reducible exact Frame.refl _ _ | (intro _) | with_reducible assumption | with_reducible apply closeCtx_frame
    | with_reducible apply Frame.foldl | exact Eq.refl _)

/-- May change regs, slices. -/
theorem cutCore_frame (s : State) (n core : Nat) (hr0 : Frame F0 r0 s) (m0 : 0x20004 ||| F0 = F0) :
    Frame F0 r0 (State.cutCore s n core) := by
  refine Frame.comp hr0 ?_ m0
  unfold State.cutCore
  dsimp only
  repeat' (first
    | with_reducible exact Frame.refl _ _ | with_reducible apply inc_frame | with_reducible apply modItem_frame
    | with_reducible apply setBit_frame | with_reducible apply holdItem_frame | with_reducible apply Frame.ite | split
    | exact Eq.refl _)

/-- May change slices. -/
theorem makeReady_frame (s : State) (n c : Nat) (hr0 : Frame F0 r0 s) (m0 : 0x20000 ||| F0 = F0) :
    Frame F0 r0 (State.makeReady s n c) := by
  refine Frame.comp hr0 ?_ m0
  unfold State.makeReady
  repeat' (first
    | with_reducible exact Frame.refl _ _ | (intro _) | with_reducible assumption | with_reducible apply modItem_frame
    | with_reducible apply Frame.foldl | exact Eq.refl _)

/-- May change regs, slices. -/
theorem dispatchOn_frame (s : State) (n c w core : Nat) (pool mid : Bool) (hr0 : Frame F0 r0 s) (m0 : 0x20004 ||| F0 = F0) :
    Frame F0 r0 (State.dispatchOn s n c w core pool mid) := by
  refine Frame.comp hr0 ?_ m0
  unfold State.dispatchOn
  repeat' (first
    | with_reducible exact Frame.refl _ _ | with_reducible apply add64_frame | with_reducible apply modItem_frame
    | exact Eq.refl _)

/-- May change regs, slices. -/
theorem fillCores_frame (s : State) (n c : Nat) (cores : List Nat) (pool : Bool) (items : List WorkItem) (hr0 : Frame F0 r0 s)
    (m0 : 0x20004 ||| F0 = F0) :
    Frame F0 r0 (State.fillCores s n c cores pool items) := by
  refine Frame.comp hr0 ?_ m0
  unfold State.fillCores
  dsimp only
  repeat' (first
    | with_reducible exact Frame.refl _ _ | (intro _) | with_reducible assumption | with_reducible apply dispatchOn_frame
    | with_reducible apply Frame.foldl | exact Eq.refl _)

/-- May change regs, slices. -/
theorem dispatch_frame (s : State) (n c : Nat) (hr0 : Frame F0 r0 s) (m0 : 0x20004 ||| F0 = F0) :
    Frame F0 r0 (State.dispatch s n c) := by
  refine Frame.comp hr0 ?_ m0
  unfold State.dispatch
  dsimp only
  repeat' (first
    | with_reducible exact Frame.refl _ _ | with_reducible apply fillCores_frame | with_reducible apply Frame.ite | split
    | exact Eq.refl _)

/-- May change regs, slices. -/
theorem cutItem_frame (s : State) (n c w : Nat) (hr0 : Frame F0 r0 s) (m0 : 0x20004 ||| F0 = F0) :
    Frame F0 r0 (State.cutItem s n c w) := by
  refine Frame.comp hr0 ?_ m0
  unfold State.cutItem
  repeat' (first
    | with_reducible exact Frame.refl _ _ | with_reducible apply discardSlot_frame | with_reducible apply setBit_frame
    | with_reducible apply inc_frame | with_reducible apply holdItem_frame | with_reducible apply Frame.ite | split
    | exact Eq.refl _)

/-- May change regs, slices. -/
theorem cutBudgets_frame (s : State) (n c : Nat) (hr0 : Frame F0 r0 s) (m0 : 0x20004 ||| F0 = F0) :
    Frame F0 r0 (State.cutBudgets s n c) := by
  refine Frame.comp hr0 ?_ m0
  unfold State.cutBudgets
  repeat' (first
    | with_reducible exact Frame.refl _ _ | (intro _) | with_reducible assumption | with_reducible apply cutItem_frame
    | with_reducible apply Frame.foldl | exact Eq.refl _)

/-- May change regs, slices, fresh. -/
theorem refill_frame (s : State) (n c core : Nat) (hr0 : Frame F0 r0 s) (m0 : 0x8000000020004 ||| F0 = F0) :
    Frame F0 r0 (State.refill s n c core) := by
  refine Frame.comp hr0 ?_ m0
  unfold State.refill
  dsimp only
  repeat' (first
    | with_reducible exact Frame.refl _ _ | with_reducible apply free_frame | with_reducible apply dispatchOn_frame
    | with_reducible apply Frame.ite | split | exact Eq.refl _)

/-- May change regs, inflight, slices, fresh. -/
theorem clusterBoundary_frame (s : State) (n c : Nat) (hr0 : Frame F0 r0 s) (m0 : 0x8000000020204 ||| F0 = F0) :
    Frame F0 r0 (State.clusterBoundary s n c) := by
  refine Frame.comp hr0 ?_ m0
  unfold State.clusterBoundary
  dsimp only
  repeat' (first
    | with_reducible exact Frame.refl _ _ | with_reducible apply cutBudgets_frame | with_reducible apply delayTick_frame
    | with_reducible apply releaseStep_frame | with_reducible apply grants_frame | with_reducible apply makeReady_frame
    | with_reducible apply dispatch_frame | exact Eq.refl _)

/-! ### SearchOps -/

/-- May change slices. -/
theorem wholeLine_frame (s : State) (n a : Nat) (hr0 : Frame F0 r0 s) (m0 : 0x20000 ||| F0 = F0) :
    Frame F0 r0 (State.wholeLine s n a) := by
  refine Frame.comp hr0 ?_ m0
  unfold State.wholeLine
  dsimp only
  repeat' (first
    | with_reducible exact Frame.refl _ _ | with_reducible apply modSlice_frame | exact SlmSame.of fun _ => rfl
    | exact Eq.refl _)

/-- May change regs, slices. -/
theorem gatherLine_frame (s : State) (n a : Nat) (bs : List Byte) (hr0 : Frame F0 r0 s) (m0 : 0x20004 ||| F0 = F0) :
    Frame F0 r0 (State.gatherLine s n a bs) := by
  refine Frame.comp hr0 ?_ m0
  unfold State.gatherLine
  dsimp only
  repeat' (first
    | with_reducible exact Frame.refl _ _ | (intro _) | with_reducible assumption | with_reducible apply wholeLine_frame
    | with_reducible apply modSlice_frame | with_reducible apply inc_frame | with_reducible apply Frame.ite
    | with_reducible apply Frame.foldl | exact SlmSame.of fun _ => rfl | split | exact Eq.refl _)

/-- May change regs, slices. -/
theorem gather_frame (s : State) (n a : Nat) (bs : List Byte) (z1 : Nat) (hr0 : Frame F0 r0 s) (m0 : 0x20004 ||| F0 = F0) :
    Frame F0 r0 (State.gather s n a bs z1) := by
  induction z1 generalizing s a bs with
  | zero => exact hr0
  | succ k ih =>
    unfold State.gather
    dsimp only
    repeat' (first
      | with_reducible exact hr0 | with_reducible assumption | with_reducible apply ih | with_reducible apply wholeLine_frame
      | with_reducible apply gatherLine_frame | with_reducible apply Frame.ite | split | exact mask_or m0 rfl)

/-- May change regs, slices, slice-local memory. -/
theorem memStore_frame (s : State) (n a : Nat) (bs : List Byte) (hr0 : Frame F0 r0 s) (m0 : 0x20000000020004 ||| F0 = F0) :
    Frame F0 r0 (State.memStore s n a bs) := by
  refine Frame.comp hr0 ?_ m0
  unfold State.memStore
  repeat' (first
    | with_reducible exact Frame.refl _ _ | with_reducible apply gather_frame | with_reducible apply modSlice_mem
    | exact SlmSame.of fun _ => rfl | exact ⟨fun x h => memWrite_wf _ _ _ h⟩ | exact Eq.refl _)

/-- May change slices, slice-local memory. -/
theorem memZero_frame (s : State) (n a len : Nat) (hr0 : Frame F0 r0 s) (m0 : 0x20000000020000 ||| F0 = F0) :
    Frame F0 r0 (State.memZero s n a len) := by
  refine Frame.comp hr0 ?_ m0
  unfold State.memZero
  repeat' (first
    | with_reducible exact Frame.refl _ _ | with_reducible apply modSlice_mem | exact SlmSame.of fun _ => rfl
    | exact ⟨fun x h => memClear_wf _ _ _ h⟩ | exact Eq.refl _)

/-- May change slices. -/
theorem modArray_frame (s : State) (n r : Nat) (f : SearchArray → SearchArray) (hr0 : Frame F0 r0 s) (m0 : 0x20000 ||| F0 = F0)
    :
    Frame F0 r0 (State.modArray s n r f) := by
  refine Frame.comp hr0 ?_ m0
  unfold State.modArray
  repeat' (first
    | with_reducible exact Frame.refl _ _ | with_reducible apply modSlice_frame | exact SlmSame.of fun _ => rfl
    | exact Eq.refl _)

/-- May change regs. -/
theorem putPart_frame (s : State) (n r p kind owner size base : Nat) (hr0 : Frame F0 r0 s) (m0 : 0x4 ||| F0 = F0) :
    Frame F0 r0 (State.putPart s n r p kind owner size base) := by
  refine Frame.comp hr0 ?_ m0
  unfold State.putPart
  repeat' (first | with_reducible exact Frame.refl _ _ | with_reducible apply wr_frame | exact Eq.refl _)

/-- May change regs, slices. -/
theorem newPart_frame (s : State) (n r kind owner blocks : Nat) (hr0 : Frame F0 r0 s) (m0 : 0x20004 ||| F0 = F0) :
    Frame F0 r0 (State.newPart s n r kind owner blocks).2 := by
  refine Frame.comp hr0 ?_ m0
  unfold State.newPart
  dsimp only
  repeat' (first
    | with_reducible exact Frame.refl _ _ | with_reducible apply putPart_frame | with_reducible apply modArray_frame
    | with_reducible apply Frame.ite | split | exact Eq.refl _)

/-- May change regs, slices. -/
theorem dropPart_frame (s : State) (n r p : Nat) (hr0 : Frame F0 r0 s) (m0 : 0x20004 ||| F0 = F0) :
    Frame F0 r0 (State.dropPart s n r p) := by
  refine Frame.comp hr0 ?_ m0
  unfold State.dropPart
  dsimp only
  repeat' (first
    | with_reducible exact Frame.refl _ _ | (intro _) | with_reducible assumption | with_reducible apply modArray_frame
    | with_reducible apply wr_frame | with_reducible apply putPart_frame | with_reducible apply Frame.foldl | exact Eq.refl _)

/-- May change regs, slices, fresh. -/
theorem sealPart_frame (s : State) (n ti : Nat) (hr0 : Frame F0 r0 s) (m0 : 0x8000000020004 ||| F0 = F0) :
    Frame F0 r0 (State.sealPart s n ti) := by
  refine Frame.comp hr0 ?_ m0
  unfold State.sealPart
  dsimp only
  repeat' (first
    | with_reducible exact Frame.refl _ _ | (intro _) | with_reducible assumption | with_reducible apply free_frame
    | with_reducible apply newPart_frame | with_reducible apply Frame.ite | with_reducible apply Frame.foldl | split
    | exact Eq.refl _)

/-- May change regs, slices. -/
theorem unsealPart_frame (s : State) (n ti : Nat) (hr0 : Frame F0 r0 s) (m0 : 0x20004 ||| F0 = F0) :
    Frame F0 r0 (State.unsealPart s n ti) := by
  refine Frame.comp hr0 ?_ m0
  unfold State.unsealPart
  repeat' (first
    | with_reducible exact Frame.refl _ _ | (intro _) | with_reducible assumption | with_reducible apply dropPart_frame
    | with_reducible apply Frame.ite | with_reducible apply Frame.foldl | split | exact Eq.refl _)

/-- May change regs, slices, fresh. -/
theorem openPools_frame (s : State) (n : Nat) (hr0 : Frame F0 r0 s) (m0 : 0x8000000020004 ||| F0 = F0) :
    Frame F0 r0 (State.openPools s n) := by
  refine Frame.comp hr0 ?_ m0
  unfold State.openPools
  repeat' (first
    | with_reducible exact Frame.refl _ _ | (intro _) | with_reducible assumption | with_reducible apply sealPart_frame
    | with_reducible apply Frame.foldl | exact Eq.refl _)

/-- May change regs. -/
theorem searchError_frame (s : State) (n r p status offset : Nat) (hr0 : Frame F0 r0 s) (m0 : 0x4 ||| F0 = F0) :
    Frame F0 r0 (State.searchError s n r p status offset) := by
  refine Frame.comp hr0 ?_ m0
  unfold State.searchError
  repeat' (first
    | with_reducible exact Frame.refl _ _ | with_reducible apply wr_frame | with_reducible apply Frame.ite | split
    | exact Eq.refl _)

/-- May change regs, slices. -/
theorem searchEnd_frame (s : State) (n r p status offset : Nat) (hr0 : Frame F0 r0 s) (m0 : 0x20004 ||| F0 = F0) :
    Frame F0 r0 (State.searchEnd s n r p status offset) := by
  refine Frame.comp hr0 ?_ m0
  unfold State.searchEnd
  dsimp only
  repeat' (first
    | with_reducible exact Frame.refl _ _ | with_reducible apply modArray_frame | with_reducible apply searchError_frame
    | with_reducible apply Frame.ite | split | exact Eq.refl _)

/-- May change regs. -/
theorem countSearches_frame (s : State) (n r k : Nat) (onCores : Bool) (hr0 : Frame F0 r0 s) (m0 : 0x4 ||| F0 = F0) :
    Frame F0 r0 (State.countSearches s n r k onCores) := by
  refine Frame.comp hr0 ?_ m0
  unfold State.countSearches
  repeat' (first
    | with_reducible exact Frame.refl _ _ | with_reducible apply setBit_frame | with_reducible apply addF_frame
    | with_reducible apply add64_frame | with_reducible apply Frame.ite | split | exact Eq.refl _)

/-- May change regs, slices. -/
theorem searchUpdate_frame (s : State) (n r p requester offset : Nat) (f : Option SearchEntry → Except Nat (Option SearchEntry))
    (hr0 : Frame F0 r0 s) (m0 : 0x20004 ||| F0 = F0) :
    Frame F0 r0 (State.searchUpdate s n r p requester offset f) := by
  refine Frame.comp hr0 ?_ m0
  unfold State.searchUpdate
  dsimp only
  repeat' (first
    | with_reducible exact Frame.refl _ _ | with_reducible apply searchEnd_frame | with_reducible apply setBit_frame
    | with_reducible apply modArray_frame | with_reducible apply Frame.ite | split | exact Eq.refl _)

/-- May change regs, slices. -/
theorem reloadArray_frame (s : State) (n r : Nat) (hr0 : Frame F0 r0 s) (m0 : 0x20004 ||| F0 = F0) :
    Frame F0 r0 (State.reloadArray s n r) := by
  refine Frame.comp hr0 ?_ m0
  unfold State.reloadArray
  dsimp only
  repeat' (first
    | with_reducible exact Frame.refl _ _ | with_reducible apply setBit_frame | with_reducible apply modArray_frame
    | exact Eq.refl _)

/-- May change slices. -/
theorem spendCycles_frame (s : State) (n r k : Nat) (payer : Option Nat) (hr0 : Frame F0 r0 s) (m0 : 0x20000 ||| F0 = F0) :
    Frame F0 r0 (State.spendCycles s n r k payer) := by
  refine Frame.comp hr0 ?_ m0
  unfold State.spendCycles
  repeat' (first | with_reducible exact Frame.refl _ _ | with_reducible apply modArray_frame | exact Eq.refl _)

/-- May change regs, slices. -/
theorem searchOne_frame (s : State) (n r : Nat) (j : SearchJob) (key : BitVec 128) (hr0 : Frame F0 r0 s) (m0 : 0x20004 ||| F0 =
    F0) :
    Frame F0 r0 (State.searchOne s n r j key) := by
  refine Frame.comp hr0 ?_ m0
  unfold State.searchOne
  dsimp only
  repeat' (first
    | with_reducible exact Frame.refl _ _ | with_reducible apply searchEnd_frame | with_reducible apply modArray_frame
    | with_reducible apply countSearches_frame | with_reducible apply Frame.ite | split | exact Eq.refl _)

/-- May change regs, slices. -/
theorem batchEnd_frame (s : State) (n r : Nat) (j : SearchJob) (written status : Nat) (hr0 : Frame F0 r0 s) (m0 : 0x20004 ||| F0
    = F0) :
    Frame F0 r0 (State.batchEnd s n r j written status) := by
  refine Frame.comp hr0 ?_ m0
  unfold State.batchEnd
  repeat' (first
    | with_reducible exact Frame.refl _ _ | with_reducible apply searchEnd_frame | with_reducible apply modArray_frame
    | exact Eq.refl _)

/-- May change regs, slices, slice-local memory. -/
theorem searchKeys_frame (s : State) (n r k : Nat) (j : SearchJob) (keys : List (BitVec 128)) (respPtr written : Nat) (hr0 :
    Frame F0 r0 s) (m0 : 0x20000000020004 ||| F0 = F0) :
    Frame F0 r0 (State.searchKeys s n r k j keys respPtr written).2 := by
  refine Frame.comp hr0 ?_ m0
  unfold State.searchKeys
  dsimp only
  repeat' (first
    | with_reducible exact Frame.refl _ _ | with_reducible apply batchEnd_frame | with_reducible apply memStore_frame
    | with_reducible apply countSearches_frame | with_reducible apply dramAsk_frame | with_reducible apply Frame.ite | split
    | exact Eq.refl _)

/-- May change regs, slices. -/
theorem searchRead_frame (s : State) (n r : Nat) (j : SearchJob) (hr0 : Frame F0 r0 s) (m0 : 0x20004 ||| F0 = F0) :
    Frame F0 r0 (State.searchRead s n r j) := by
  refine Frame.comp hr0 ?_ m0
  unfold State.searchRead
  dsimp only
  repeat' (first
    | with_reducible exact Frame.refl _ _ | with_reducible apply searchEnd_frame | with_reducible apply modArray_frame
    | with_reducible apply Frame.ite | split | exact Eq.refl _)

/-- May change regs, slices, slice-local memory. -/
theorem searchRun_frame (s : State) (n r k : Nat) (j : SearchJob) (hr0 : Frame F0 r0 s) (m0 : 0x20000000020004 ||| F0 = F0) :
    Frame F0 r0 (State.searchRun s n r k j).2 := by
  obtain ⟨p, q, o, op⟩ := j
  cases op with
  | search key => exact searchOne_frame _ _ _ _ _ hr0 (mask_or m0 rfl)
  | batch keys w v => exact searchKeys_frame _ _ _ _ _ _ _ _ hr0 (mask_or m0 rfl)
  | read => exact searchRead_frame _ _ _ _ hr0 (mask_or m0 rfl)
  | invalidate => exact searchUpdate_frame s n r p q o (entryAfter .invalidate) hr0 (mask_or m0 rfl)
  | write key m v => exact searchUpdate_frame s n r p q o (entryAfter (.write key m v)) hr0 (mask_or m0 rfl)
  | validate => exact searchUpdate_frame s n r p q o (entryAfter .validate) hr0 (mask_or m0 rfl)
  | resultWrite v => exact searchUpdate_frame s n r p q o (entryAfter (.resultWrite v)) hr0 (mask_or m0 rfl)

/-- May change regs, slices. -/
theorem clearArray_frame (s : State) (n r : Nat) (hr0 : Frame F0 r0 s) (m0 : 0x20004 ||| F0 = F0) :
    Frame F0 r0 (State.clearArray s n r) := by
  refine Frame.comp hr0 ?_ m0
  unfold State.clearArray
  repeat' (first
    | with_reducible exact Frame.refl _ _ | (intro _) | with_reducible assumption | with_reducible apply searchEnd_frame
    | with_reducible apply modArray_frame | with_reducible apply batchEnd_frame | with_reducible apply Frame.foldl | split
    | exact Eq.refl _)

/-- May change regs, slices, slice-local memory. -/
theorem searchIssue_frame (s : State) (n r : Nat) (j : SearchJob) (hr0 : Frame F0 r0 s) (m0 : 0x20000000020004 ||| F0 = F0) :
    Frame F0 r0 (State.searchIssue s n r j) := by
  refine Frame.comp hr0 ?_ m0
  unfold State.searchIssue
  dsimp only
  repeat' (first
    | with_reducible exact Frame.refl _ _ | with_reducible apply searchRun_frame | with_reducible apply modArray_frame
    | with_reducible apply spendCycles_frame | with_reducible apply Frame.ite | split | exact Eq.refl _)

/-- May change regs, slices, slice-local memory. -/
theorem arrayCourse_frame (s : State) (n r : Nat) (hr0 : Frame F0 r0 s) (m0 : 0x20000000020004 ||| F0 = F0) :
    Frame F0 r0 (State.arrayCourse s n r) := by
  refine Frame.comp hr0 ?_ m0
  unfold State.arrayCourse
  dsimp only
  repeat' (first
    | with_reducible exact Frame.refl _ _ | (intro _) | with_reducible assumption | with_reducible apply searchIssue_frame
    | with_reducible apply modArray_frame | with_reducible apply Frame.foldl | exact Eq.refl _)

/-! ### DigestOps -/

/-- May change regs. -/
theorem digestError_frame (s : State) (no owner status decl arrived : Nat) (hr0 : Frame F0 r0 s) (m0 : 0x4 ||| F0 = F0) :
    Frame F0 r0 (State.digestError s no owner status decl arrived) := by
  refine Frame.comp hr0 ?_ m0
  unfold State.digestError
  dsimp only
  repeat' (first
    | with_reducible exact Frame.refl _ _ | with_reducible apply inc_frame | with_reducible apply setBit_frame
    | with_reducible apply wr_frame | with_reducible apply wr64_frame | with_reducible apply Frame.ite | split
    | exact Eq.refl _)

/-- May change digests, fences. -/
theorem freeDigest_frame (s : State) (no : Nat) (hr0 : Frame F0 r0 s) (m0 : 0x200001000000 ||| F0 = F0) :
    Frame F0 r0 (State.freeDigest s no) := by
  refine Frame.comp hr0 ?_ m0
  unfold State.freeDigest
  dsimp only
  repeat' (first
    | with_reducible exact Frame.refl _ _ | with_reducible apply setFence_frame | with_reducible apply Frame.ite | split
    | exact Eq.refl _ | with_reducible apply upd_digests)

/-- May change regs, digests, fences. -/
theorem endDigest_frame (s : State) (no status : Nat) (hr0 : Frame F0 r0 s) (m0 : 0x200001000004 ||| F0 = F0) :
    Frame F0 r0 (State.endDigest s no status) := by
  refine Frame.comp hr0 ?_ m0
  unfold State.endDigest
  repeat' (first
    | with_reducible exact Frame.refl _ _ | with_reducible apply freeDigest_frame | with_reducible apply digestError_frame
    | split | exact Eq.refl _)

/-- May change regs, digests. -/
theorem openDigest_frame (s : State) (no owner alg : Nat) (hmac : Option Nat) (decl : Nat) (dest : DgDest) (hr0 : Frame F0 r0 s)
    (m0 : 0x1000004 ||| F0 = F0) :
    Frame F0 r0 (State.openDigest s no owner alg hmac decl dest) := by
  refine Frame.comp hr0 ?_ m0
  unfold State.openDigest
  dsimp only
  repeat' (first
    | with_reducible exact Frame.refl _ _ | with_reducible apply wr64_frame | with_reducible apply Frame.ite | split
    | exact Eq.refl _ | with_reducible apply upd_digests)

/-- May change regs, slices, digestOut, hubKey, meas, measLog, measSeq, staged, nvm, slice-local memory. -/
theorem deliverDigest_frame (s : State) (no : Nat) (m : DgMsg) (d : List Byte) (hr0 : Frame F0 r0 s) (m0 : 0x200200fc020004 |||
    F0 = F0) :
    Frame F0 r0 (State.deliverDigest s no m d) := by
  refine Frame.comp hr0 ?_ m0
  unfold State.deliverDigest
  dsimp only
  repeat' (first
    | with_reducible exact Frame.refl _ _ | with_reducible apply dramAsk_frame | with_reducible apply memStore_frame
    | with_reducible apply extend_frame | with_reducible apply loadInternal_frame | with_reducible apply Frame.ite | split
    | exact Eq.refl _ | with_reducible apply upd_hubKey | with_reducible apply upd_staged | with_reducible apply upd_digestOut)

/-- May change regs, slices, digests, digestOut, hubKey, meas, measLog, measSeq, staged, nvm, fences, slice-local memory. -/
theorem absorb_frame (s : State) (no : Nat) (data : List Byte) (final : Bool) (hr0 : Frame F0 r0 s) (m0 : 0x202200fd020004 |||
    F0 = F0) :
    Frame F0 r0 (State.absorb s no data final) := by
  refine Frame.comp hr0 ?_ m0
  unfold State.absorb
  dsimp only
  repeat' (first
    | with_reducible exact Frame.refl _ _ | with_reducible apply wr64_frame | with_reducible apply endDigest_frame
    | with_reducible apply freeDigest_frame | with_reducible apply deliverDigest_frame | with_reducible apply Frame.ite | split
    | exact Eq.refl _ | with_reducible apply upd_digests)

/-! ### ContainOps -/

/-- May change regs, slices, invocations. -/
theorem freeInvocation_frame (s : State) (v : Invocation) (hr0 : Frame F0 r0 s) (m0 : 0x60004 ||| F0 = F0) :
    Frame F0 r0 (State.freeInvocation s v) := by
  refine Frame.comp hr0 ?_ m0
  unfold State.freeInvocation
  dsimp only
  repeat' (first
    | with_reducible exact Frame.refl _ _ | (intro _) | with_reducible assumption | with_reducible apply discardSlice_frame
    | with_reducible apply closeCtxs_frame | with_reducible apply modCluster_frame | with_reducible apply dropPart_frame
    | with_reducible apply Frame.ite | with_reducible apply Frame.foldl | split | exact Eq.refl _
    | with_reducible apply upd_invocations)

/-- May change regs, inflight, slices, invocations. -/
theorem endInvocation_frame (s : State) (v : Invocation) (a : Answer) (hr0 : Frame F0 r0 s) (m0 : 0x60204 ||| F0 = F0) :
    Frame F0 r0 (State.endInvocation s v a) := by
  refine Frame.comp hr0 ?_ m0
  unfold State.endInvocation
  repeat' (first
    | with_reducible exact Frame.refl _ _ | with_reducible apply finish_frame | with_reducible apply freeInvocation_frame
    | exact Eq.refl _)

/-- May change regs, inflight, slices, invocations. -/
theorem endInvocations_frame (s : State) (p : Invocation → Bool) (a : Answer) (hr0 : Frame F0 r0 s) (m0 : 0x60204 ||| F0 = F0) :
    Frame F0 r0 (State.endInvocations s p a) := by
  refine Frame.comp hr0 ?_ m0
  unfold State.endInvocations
  repeat' (first
    | with_reducible exact Frame.refl _ _ | (intro _) | with_reducible assumption | with_reducible apply endInvocation_frame
    | with_reducible apply Frame.foldl | exact Eq.refl _)

/-- May change inflight, slices, digests, fences. -/
theorem abandon_frame (s : State) (n : Nat) (g : Ingest) (hr0 : Frame F0 r0 s) (m0 : 0x200001020200 ||| F0 = F0) :
    Frame F0 r0 (State.abandon s n g) := by
  refine Frame.comp hr0 ?_ m0
  unfold State.abandon
  dsimp only
  repeat' (first
    | with_reducible exact Frame.refl _ _ | (intro _) | with_reducible assumption | with_reducible apply clearCond_frame
    | with_reducible apply modSlice_frame | with_reducible apply freeDigest_frame | with_reducible apply Frame.foldl
    | exact SlmSame.of fun _ => rfl | (refine SlmSame.of fun x => ?_; simp [apply_ite Slice.slm]; done)
    | (refine SlmSame.of fun x => ?_; (try dsimp only); apply slm_foldl; intro _ _; simp; done)
    | (refine SlmSame.of fun x => ?_; (repeat' (first | rfl | (simp [apply_ite Slice.slm]; done) | split)); done) | split
    | exact Eq.refl _)

/-- May change inflight, slices, digests, fences. -/
theorem abandonAll_frame (s : State) (p : Ingest → Bool) (hr0 : Frame F0 r0 s) (m0 : 0x200001020200 ||| F0 = F0) :
    Frame F0 r0 (State.abandonAll s p) := by
  refine Frame.comp hr0 ?_ m0
  unfold State.abandonAll
  repeat' (first
    | with_reducible exact Frame.refl _ _ | (intro _) | with_reducible assumption | with_reducible apply abandon_frame
    | with_reducible apply Frame.foldl | exact Eq.refl _)

/-- May change slices, digests, fences. -/
theorem unpin_frame (s : State) (n : Nat) (p : Pin) (keep : Bool) (hr0 : Frame F0 r0 s) (m0 : 0x200001020000 ||| F0 = F0) :
    Frame F0 r0 (State.unpin s n p keep) := by
  refine Frame.comp hr0 ?_ m0
  unfold State.unpin
  dsimp only
  repeat' (first
    | with_reducible exact Frame.refl _ _ | with_reducible apply freeDigest_frame | with_reducible apply modSlice_frame
    | with_reducible apply Frame.ite | exact SlmSame.of fun _ => rfl
    | (refine SlmSame.of fun x => ?_; simp [apply_ite Slice.slm]; done)
    | (refine SlmSame.of fun x => ?_; (try dsimp only); apply slm_foldl; intro _ _; simp; done)
    | (refine SlmSame.of fun x => ?_; (repeat' (first | rfl | (simp [apply_ite Slice.slm]; done) | split)); done) | split
    | exact Eq.refl _)

/-- May change inflight. -/
theorem failParts_frame (s : State) (n : Nat) (ls : List Nat) (a : Answer) (hr0 : Frame F0 r0 s) (m0 : 0x200 ||| F0 = F0) :
    Frame F0 r0 (State.failParts s n ls a) := by
  refine Frame.comp hr0 ?_ m0
  unfold State.failParts
  repeat' (first
    | with_reducible exact Frame.refl _ _ | (intro _) | with_reducible assumption | with_reducible apply failCond_frame
    | with_reducible apply Frame.foldl | exact Eq.refl _)

/-- May change regs, inflight, slices, digests, fences. -/
theorem endInstance_frame (s : State) (no status : Nat) (a : Option Answer) (hr0 : Frame F0 r0 s) (m0 : 0x200001020204 ||| F0 =
    F0) :
    Frame F0 r0 (State.endInstance s no status a) := by
  refine Frame.comp hr0 ?_ m0
  unfold State.endInstance
  dsimp only
  repeat' (first
    | with_reducible exact Frame.refl _ _ | (intro _) | with_reducible assumption | with_reducible apply endDigest_frame
    | with_reducible apply failParts_frame | with_reducible apply abandon_frame | with_reducible apply unpin_frame
    | with_reducible apply Frame.foldl | split | exact Eq.refl _)

/-- May change regs, inflight, slices. -/
theorem withdraw_frame (s : State) (n : Nat) (p : Nat → Bool) (hr0 : Frame F0 r0 s) (m0 : 0x20204 ||| F0 = F0) :
    Frame F0 r0 (State.withdraw s n p) := by
  refine Frame.comp hr0 ?_ m0
  unfold State.withdraw
  dsimp only
  repeat' (first
    | with_reducible exact Frame.refl _ _ | (intro _) | with_reducible assumption | with_reducible apply modSlice_frame
    | with_reducible apply closeStripe_frame | with_reducible apply stopSuper_frame | with_reducible apply evalSpare_frame
    | with_reducible apply Frame.ite | with_reducible apply Frame.foldl | exact SlmSame.of fun _ => rfl | split
    | exact Eq.refl _)

/-- May change regs, inflight, slices, invocations, recorder, slice-local memory. -/
theorem dramFenced_frame (s : State) (n c : Nat) (hr0 : Frame F0 r0 s) (m0 : 0x20100000060204 ||| F0 = F0) :
    Frame F0 r0 (State.dramFenced s n c) := by
  refine Frame.comp hr0 ?_ m0
  unfold State.dramFenced
  dsimp only
  repeat' (first
    | with_reducible exact Frame.refl _ _ | with_reducible apply setBit_frame | with_reducible apply putF_frame
    | with_reducible apply notice_frame | with_reducible apply modSlice_mem | with_reducible apply endInvocations_frame
    | with_reducible apply Frame.ite | exact SlmSame.of fun _ => rfl | exact slmOk_nil _ fun _ => rfl | split | exact Eq.refl _)

/-- May change pins, regs, ctrls, inflight, power, recorder. -/
theorem lostData_frame (s : State) (ns : List Nat) (hr0 : Frame F0 r0 s) (m0 : 0x140000000306 ||| F0 = F0) :
    Frame F0 r0 (State.lostData s ns) := by
  refine Frame.comp hr0 ?_ m0
  unfold State.lostData
  dsimp only
  repeat' (first
    | with_reducible exact Frame.refl _ _ | (intro _) | with_reducible assumption | with_reducible apply declareUnhealthy_frame
    | with_reducible apply raise_frame | with_reducible apply Frame.ite | with_reducible apply Frame.foldl | split
    | exact Eq.refl _)

/-- May change pins, regs, ctrls, inflight, slices, invocations, digests, nvm, power, recorder, fences, slice-local memory. -/
theorem goOffline_frame (s : State) (n : Nat) (hr0 : Frame F0 r0 s) (m0 : 0x20360001060306 ||| F0 = F0) :
    Frame F0 r0 (State.goOffline s n) := by
  refine Frame.comp hr0 ?_ m0
  unfold State.goOffline
  dsimp only
  repeat' (first
    | with_reducible exact Frame.refl _ _ | (intro _) | with_reducible assumption | with_reducible apply landSlice_frame
    | with_reducible apply lostData_frame | with_reducible apply abandon_frame | with_reducible apply endInvocations_frame
    | with_reducible apply mapInflight_frame | with_reducible apply modSlice_mem | with_reducible apply setBit_frame
    | with_reducible apply putF_frame | with_reducible apply openLoop_frame | with_reducible apply sealedOut_frame
    | with_reducible apply Frame.ite | with_reducible apply Frame.foldl | exact SlmSame.of fun _ => rfl
    | exact slmOk_nil _ fun _ => rfl | split | exact Eq.refl _)

/-- May change pins, regs, ctrls, inflight, slices, invocations, digests, nvm, power, recorder, fences, slice-local memory. -/
theorem checkOffline_frame (s : State) (n : Nat) (hr0 : Frame F0 r0 s) (m0 : 0x20360001060306 ||| F0 = F0) :
    Frame F0 r0 (State.checkOffline s n) := by
  refine Frame.comp hr0 ?_ m0
  unfold State.checkOffline
  dsimp only
  repeat' (first
    | with_reducible exact Frame.refl _ _ | with_reducible apply goOffline_frame | with_reducible apply Frame.ite | split
    | exact Eq.refl _)

/-- May change recorder. -/
theorem sealFence_frame (s : State) (u : UnitId) (hr0 : Frame F0 r0 s) (m0 : 0x100000000000 ||| F0 = F0) :
    Frame F0 r0 (State.sealFence s u) := by
  refine Frame.comp hr0 ?_ m0
  unfold State.sealFence
  repeat' (first
    | with_reducible exact Frame.refl _ _ | with_reducible apply sealedOut_frame | with_reducible apply Frame.ite | split
    | exact Eq.refl _)

/-- May change regs, inflight, slices, invocations, digests, recorder, fences, slice-local memory. -/
theorem takeOut_frame (s : State) (u : UnitId) (hr0 : Frame F0 r0 s) (m0 : 0x20300001060204 ||| F0 = F0) :
    Frame F0 r0 (State.takeOut s u) := by
  refine Frame.comp hr0 ?_ m0
  unfold State.takeOut
  dsimp only
  repeat' (first
    | with_reducible exact Frame.refl _ _ | (intro _) | with_reducible assumption | with_reducible apply cutCore_frame
    | with_reducible apply endInvocations_frame | with_reducible apply discardItems_frame
    | with_reducible apply clearArray_frame | with_reducible apply withdraw_frame | with_reducible apply dramFenced_frame
    | with_reducible apply endInstance_frame | with_reducible apply Frame.foldl | split | exact Eq.refl _)

/-- May change regs, links, recorder, fences, fenceCounts. -/
theorem markFault_frame (s : State) (u : UnitId) (cause : FenceCause) (hr0 : Frame F0 r0 s) (m0 : 0x700000000084 ||| F0 = F0) :
    Frame F0 r0 (State.markFault s u cause) := by
  refine Frame.comp hr0 ?_ m0
  unfold State.markFault
  dsimp only
  repeat' (first
    | with_reducible exact Frame.refl _ _ | with_reducible apply setFence_frame | with_reducible apply setBit_frame
    | with_reducible apply inc_frame | with_reducible apply wr_frame | with_reducible apply sealFence_frame
    | with_reducible apply linkError_frame | with_reducible apply Frame.ite | split | exact Eq.refl _
    | with_reducible apply upd_fenceCounts)

/-- May change regs, links, inflight, slices, invocations, digests, recorder, fences, fenceCounts, slice-local memory. -/
theorem fenceOne_frame (s : State) (u : UnitId) (cause : FenceCause) (hr0 : Frame F0 r0 s) (m0 : 0x20700001060284 ||| F0 = F0) :
    Frame F0 r0 (State.fenceOne s u cause) := by
  refine Frame.comp hr0 ?_ m0
  unfold State.fenceOne
  repeat' (first
    | with_reducible exact Frame.refl _ _ | with_reducible apply takeOut_frame | with_reducible apply markFault_frame
    | with_reducible apply Frame.ite | split | exact Eq.refl _)

/-- May change regs, links, inflight, slices, invocations, digests, recorder, fences, fenceCounts, slice-local memory. -/
theorem fenceRegion_frame (s : State) (n r : Nat) (cause : FenceCause) (hr0 : Frame F0 r0 s) (m0 : 0x20700001060284 ||| F0 = F0)
    :
    Frame F0 r0 (State.fenceRegion s n r cause) := by
  refine Frame.comp hr0 ?_ m0
  unfold State.fenceRegion
  dsimp only
  repeat' (first
    | with_reducible exact Frame.refl _ _ | (intro _) | with_reducible assumption | with_reducible apply fenceOne_frame
    | with_reducible apply takeOut_frame | with_reducible apply setFence_frame | with_reducible apply Frame.ite
    | with_reducible apply Frame.foldl | split | exact Eq.refl _)

/-- May change pins, regs, links, ctrls, inflight, slices, invocations, digests, nvm, power, recorder, fences, fenceCounts,
slice-local memory. -/
theorem fenceFault_frame (s : State) (u : UnitId) (cause : FenceCause) (hr0 : Frame F0 r0 s) (m0 : 0x20760001060386 ||| F0 = F0)
    :
    Frame F0 r0 (State.fenceFault s u cause) := by
  refine Frame.comp hr0 ?_ m0
  unfold State.fenceFault
  dsimp only
  repeat' (first
    | with_reducible exact Frame.refl _ _ | with_reducible apply goOffline_frame | with_reducible apply markFault_frame
    | with_reducible apply checkOffline_frame | with_reducible apply fenceRegion_frame | with_reducible apply fenceOne_frame
    | with_reducible apply Frame.ite | split | exact Eq.refl _)

/-! ### Sched -/

/-- May change nothing. -/
theorem primitive_frame (s : State) (it : ItemRef) (f : WorkItem → State → State) (hr0 : Frame F0 r0 s) (m0 : 0x0 ||| F0 = F0)
    (h_f : ∀ a0 t, Frame F0 r0 t → Frame F0 r0 (f a0 t)) :
    Frame F0 r0 (State.primitive s it f) := by
  unfold State.primitive
  repeat' (first
    | with_reducible exact hr0 | with_reducible apply h_f | (intro _) | with_reducible assumption
    | with_reducible apply Frame.ite | split | exact mask_or ‹_› rfl)

/-- May change slices. -/
theorem queueFor_frame (s : State) (it : ItemRef) (q : Waiting) (hr0 : Frame F0 r0 s) (m0 : 0x20000 ||| F0 = F0) :
    Frame F0 r0 (State.queueFor s it q) := by
  refine Frame.comp hr0 ?_ m0
  unfold State.queueFor
  repeat' (first | with_reducible exact Frame.refl _ _ | with_reducible apply modCluster_frame | exact Eq.refl _)

/-- May change regs, slices. -/
theorem stageEmit_frame (s : State) (it : ItemRef) (i : WorkItem) (e : Emit) (hr0 : Frame F0 r0 s) (m0 : 0x20004 ||| F0 = F0) :
    Frame F0 r0 (State.stageEmit s it i e) := by
  refine Frame.comp hr0 ?_ m0
  unfold State.stageEmit
  repeat' (first
    | with_reducible exact Frame.refl _ _ | with_reducible apply port_frame | with_reducible apply modItem_frame
    | with_reducible apply Frame.ite | split | exact Eq.refl _)

/-- May change regs, slices, fresh. -/
theorem afterRun_frame (s : State) (it : ItemRef) (i : WorkItem) (hr0 : Frame F0 r0 s) (m0 : 0x8000000020004 ||| F0 = F0) :
    Frame F0 r0 (State.afterRun s it i) := by
  refine Frame.comp hr0 ?_ m0
  unfold State.afterRun
  dsimp only
  repeat' (first
    | with_reducible exact Frame.refl _ _ | with_reducible apply discardSlot_frame | with_reducible apply refill_frame
    | with_reducible apply Frame.ite | split | exact Eq.refl _)

/-- May change regs, slices, fresh. -/
theorem execAlloc_frame (it : ItemRef) (flow entry : Nat) (arg : BitVec 64) (need : BitVec 4) (done : Option (Nat × Nat)) (grant
    : Nat) (s : State) (hr0 : Frame F0 r0 s) (m0 : 0x8000000020004 ||| F0 = F0) :
    FrameOut F0 r0 (execAlloc it flow entry arg need done grant s) := by
  refine FrameOut.comp hr0 ?_ m0
  unfold execAlloc
  dsimp only
  repeat' (first
    | with_reducible exact Frame.refl _ _ | (intro _) | with_reducible assumption | with_reducible apply primitive_frame
    | with_reducible apply port_frame | with_reducible apply queueFor_frame | with_reducible apply allocSlot_frame
    | with_reducible apply Frame.next | with_reducible apply Frame.ite | split | exact Eq.refl _)

/-- May change regs, slices. -/
theorem execSend_frame (it : ItemRef) (wslot index : Nat) (value : BitVec 64) (aux : BitVec 32) (s : State) (hr0 : Frame F0 r0
    s) (m0 : 0x20004 ||| F0 = F0) :
    FrameOut F0 r0 (execSend it wslot index value aux s) := by
  refine FrameOut.comp hr0 ?_ m0
  unfold execSend
  repeat' (first
    | with_reducible exact Frame.refl _ _ | (intro _) | with_reducible assumption | with_reducible apply primitive_frame
    | with_reducible apply port_frame | with_reducible apply stageEmit_frame | with_reducible apply Frame.next
    | with_reducible apply Frame.ite | split | exact Eq.refl _)

/-- May change regs, slices. -/
theorem execArm_frame (it : ItemRef) (wslot index delay : Nat) (s : State) (hr0 : Frame F0 r0 s) (m0 : 0x20004 ||| F0 = F0) :
    FrameOut F0 r0 (execArm it wslot index delay s) := by
  refine FrameOut.comp hr0 ?_ m0
  unfold execArm
  repeat' (first
    | with_reducible exact Frame.refl _ _ | (intro _) | with_reducible assumption | with_reducible apply primitive_frame
    | with_reducible apply port_frame | with_reducible apply stageEmit_frame | with_reducible apply Frame.next
    | with_reducible apply Frame.ite | split | exact Eq.refl _)

/-- May change regs, slices. -/
theorem execEmit_frame (it : ItemRef) (desc : EmitDesc) (s : State) (hr0 : Frame F0 r0 s) (m0 : 0x20004 ||| F0 = F0) :
    FrameOut F0 r0 (execEmit it desc s) := by
  refine FrameOut.comp hr0 ?_ m0
  unfold execEmit
  dsimp only
  repeat' (first
    | with_reducible exact Frame.refl _ _ | (intro _) | with_reducible assumption | with_reducible apply primitive_frame
    | with_reducible apply port_frame | with_reducible apply stageEmit_frame | with_reducible apply Frame.next
    | with_reducible apply Frame.ite | split | exact Eq.refl _)

/-- May change regs, slices. -/
theorem execRelease_frame (it : ItemRef) (s : State) (hr0 : Frame F0 r0 s) (m0 : 0x20004 ||| F0 = F0) :
    FrameOut F0 r0 (execRelease it s) := by
  refine FrameOut.comp hr0 ?_ m0
  unfold execRelease
  repeat' (first
    | with_reducible exact Frame.refl _ _ | (intro _) | with_reducible assumption | with_reducible apply primitive_frame
    | with_reducible apply port_frame | with_reducible apply modItem_frame | with_reducible apply Frame.next | exact Eq.refl _)

/-- May change regs, slices, fresh. -/
theorem execContinueRun_frame (it : ItemRef) (need : BitVec 4) (s : State) (hr0 : Frame F0 r0 s) (m0 : 0x8000000020004 ||| F0 =
    F0) :
    FrameOut F0 r0 (execContinueRun it need s) := by
  refine FrameOut.comp hr0 ?_ m0
  unfold execContinueRun
  dsimp only
  repeat' (first
    | with_reducible exact Frame.refl _ _ | (intro _) | with_reducible assumption | with_reducible apply primitive_frame
    | with_reducible apply afterRun_frame | with_reducible apply port_frame | with_reducible apply modItem_frame
    | with_reducible apply Frame.next | exact Eq.refl _)

/-- May change regs, slices, fresh. -/
theorem execEndRun_frame (it : ItemRef) (code : BitVec 8) (s : State) (hr0 : Frame F0 r0 s) (m0 : 0x8000000020004 ||| F0 = F0) :
    FrameOut F0 r0 (execEndRun it code s) := by
  refine FrameOut.comp hr0 ?_ m0
  unfold execEndRun
  repeat' (first
    | with_reducible exact Frame.refl _ _ | (intro _) | with_reducible assumption | with_reducible apply primitive_frame
    | with_reducible apply afterRun_frame | with_reducible apply port_frame | with_reducible apply holdItem_frame
    | with_reducible apply modItem_frame | with_reducible apply Frame.next | exact Eq.refl _)

/-- May change regs, slices. -/
theorem execCtxAlloc_frame (it : ItemRef) (kind grant : Nat) (s : State) (hr0 : Frame F0 r0 s) (m0 : 0x20004 ||| F0 = F0) :
    FrameOut F0 r0 (execCtxAlloc it kind grant s) := by
  refine FrameOut.comp hr0 ?_ m0
  unfold execCtxAlloc
  dsimp only
  repeat' (first
    | with_reducible exact Frame.refl _ _ | (intro _) | with_reducible assumption | with_reducible apply primitive_frame
    | with_reducible apply port_frame | with_reducible apply setBit_frame | with_reducible apply queueFor_frame
    | with_reducible apply newCtx_frame | with_reducible apply Frame.next | with_reducible apply Frame.ite | split
    | exact Eq.refl _)

/-- May change regs, slices. -/
theorem execCtxFree_frame (it : ItemRef) (ctx : Nat) (s : State) (hr0 : Frame F0 r0 s) (m0 : 0x20004 ||| F0 = F0) :
    FrameOut F0 r0 (execCtxFree it ctx s) := by
  refine FrameOut.comp hr0 ?_ m0
  unfold execCtxFree
  repeat' (first
    | with_reducible exact Frame.refl _ _ | (intro _) | with_reducible assumption | with_reducible apply primitive_frame
    | with_reducible apply setBit_frame | with_reducible apply port_frame | with_reducible apply closeCtx_frame
    | with_reducible apply Frame.next | with_reducible apply Frame.ite | split | exact Eq.refl _)

/-- May change regs, slices. -/
theorem execFlowOpen_frame (it : ItemRef) (s : State) (hr0 : Frame F0 r0 s) (m0 : 0x20004 ||| F0 = F0) :
    FrameOut F0 r0 (execFlowOpen it s) := by
  refine FrameOut.comp hr0 ?_ m0
  unfold execFlowOpen
  dsimp only
  repeat' (first
    | with_reducible exact Frame.refl _ _ | (intro _) | with_reducible assumption | with_reducible apply primitive_frame
    | with_reducible apply port_frame | with_reducible apply openFlow_frame | with_reducible apply Frame.next
    | with_reducible apply Frame.ite | split | exact Eq.refl _)

/-- May change regs, slices. -/
theorem execFlowClose_frame (it : ItemRef) (flow : Nat) (s : State) (hr0 : Frame F0 r0 s) (m0 : 0x20004 ||| F0 = F0) :
    FrameOut F0 r0 (execFlowClose it flow s) := by
  refine FrameOut.comp hr0 ?_ m0
  unfold execFlowClose
  repeat' (first
    | with_reducible exact Frame.refl _ _ | (intro _) | with_reducible assumption | with_reducible apply primitive_frame
    | with_reducible apply port_frame | with_reducible apply modCluster_frame | with_reducible apply Frame.next
    | with_reducible apply Frame.ite | split | exact Eq.refl _)

/-- May change regs, slices. -/
theorem execOperandArrival_frame (slice cluster wslot index : Nat) (op : Operand) (s : State) (hr0 : Frame F0 r0 s) (m0 :
    0x20004 ||| F0 = F0) :
    FrameOut F0 r0 (execOperandArrival slice cluster wslot index op s) := by
  refine FrameOut.comp hr0 ?_ m0
  unfold execOperandArrival
  repeat' (first
    | with_reducible exact Frame.refl _ _ | with_reducible apply deliver_frame | with_reducible apply Frame.next
    | with_reducible apply Frame.ite | split | exact Eq.refl _)

/-- May change regs, slices. -/
theorem execBudgetExpiry_frame (it : ItemRef) (s : State) (hr0 : Frame F0 r0 s) (m0 : 0x20004 ||| F0 = F0) :
    FrameOut F0 r0 (execBudgetExpiry it s) := by
  refine FrameOut.comp hr0 ?_ m0
  unfold execBudgetExpiry
  repeat' (first
    | with_reducible exact Frame.refl _ _ | (intro _) | with_reducible assumption | with_reducible apply primitive_frame
    | with_reducible apply cutItem_frame | with_reducible apply Frame.next | with_reducible apply Frame.ite | split
    | exact Eq.refl _)

/-- May change regs, slices, fresh. -/
theorem execProtectionFault_frame (it : ItemRef) (s : State) (hr0 : Frame F0 r0 s) (m0 : 0x8000000020004 ||| F0 = F0) :
    FrameOut F0 r0 (execProtectionFault it s) := by
  refine FrameOut.comp hr0 ?_ m0
  unfold execProtectionFault
  repeat' (first
    | with_reducible exact Frame.refl _ _ | (intro _) | with_reducible assumption | with_reducible apply primitive_frame
    | with_reducible apply afterRun_frame | with_reducible apply holdItem_frame | with_reducible apply Frame.next
    | exact Eq.refl _)

/-- May change regs, slices. -/
theorem execDelayEntryDue_frame (slice cluster wslot index : Nat) (s : State) (hr0 : Frame F0 r0 s) (m0 : 0x20004 ||| F0 = F0) :
    FrameOut F0 r0 (execDelayEntryDue slice cluster wslot index s) := by
  refine FrameOut.comp hr0 ?_ m0
  unfold execDelayEntryDue
  dsimp only
  repeat' (first
    | with_reducible exact Frame.refl _ _ | with_reducible apply modCluster_frame | with_reducible apply modItem_frame
    | with_reducible apply deliver_frame | with_reducible apply Frame.next | with_reducible apply Frame.ite | split
    | exact Eq.refl _)

/-! ### Engines -/

/-- May change slices. -/
theorem takeOp_frame (s : State) (n ix : Nat) (hr0 : Frame F0 r0 s) (m0 : 0x20000 ||| F0 = F0) :
    Frame F0 r0 (State.takeOp s n ix) := by
  refine Frame.comp hr0 ?_ m0
  unfold State.takeOp
  dsimp only
  repeat' (first
    | with_reducible exact Frame.refl _ _ | with_reducible apply modSlice_frame | exact SlmSame.of fun _ => rfl
    | (refine SlmSame.of fun x => ?_; simp [apply_ite Slice.slm]; done)
    | (refine SlmSame.of fun x => ?_; (try dsimp only); apply slm_foldl; intro _ _; simp; done)
    | (refine SlmSame.of fun x => ?_; (repeat' (first | rfl | (simp [apply_ite Slice.slm]; done) | split)); done) | split
    | exact Eq.refl _)

/-- May change regs, slices. -/
theorem engineDone_frame (s : State) (n : Nat) (o : Option EngineOp) (bytes st unit : Nat) (hr0 : Frame F0 r0 s) (m0 : 0x20004
    ||| F0 = F0) :
    Frame F0 r0 (State.engineDone s n o bytes st unit) := by
  refine Frame.comp hr0 ?_ m0
  unfold State.engineDone
  repeat' (first | with_reducible exact Frame.refl _ _ | with_reducible apply deliver_frame | split | exact Eq.refl _)

/-- May change slices. -/
theorem opEnded_frame (s : State) (n ix : Nat) (f : Ctx → Ctx) (hr0 : Frame F0 r0 s) (m0 : 0x20000 ||| F0 = F0) :
    Frame F0 r0 (State.opEnded s n ix f) := by
  refine Frame.comp hr0 ?_ m0
  unfold State.opEnded
  dsimp only
  repeat' (first
    | with_reducible exact Frame.refl _ _ | with_reducible apply modSlice_frame | with_reducible apply takeOp_frame
    | with_reducible apply Frame.ite | exact SlmSame.of fun _ => rfl
    | (refine SlmSame.of fun x => ?_; simp [apply_ite Slice.slm]; done)
    | (refine SlmSame.of fun x => ?_; (try dsimp only); apply slm_foldl; intro _ _; simp; done)
    | (refine SlmSame.of fun x => ?_; (repeat' (first | rfl | (simp [apply_ite Slice.slm]; done) | split)); done) | split
    | exact Eq.refl _)

/-- May change slices. -/
theorem opFenced_frame (s : State) (n ix : Nat) (hr0 : Frame F0 r0 s) (m0 : 0x20000 ||| F0 = F0) :
    Frame F0 r0 (State.opFenced s n ix) := by
  refine Frame.comp hr0 ?_ m0
  unfold State.opFenced
  dsimp only
  repeat' (first
    | with_reducible exact Frame.refl _ _ | with_reducible apply modSlice_frame | exact SlmSame.of fun _ => rfl
    | exact Eq.refl _)

/-- May change regs. -/
theorem cipherRecord_frame (s : State) (n ix st : Nat) (o : CipherOp) (hr0 : Frame F0 r0 s) (m0 : 0x4 ||| F0 = F0) :
    Frame F0 r0 (State.cipherRecord s n ix st o) := by
  refine Frame.comp hr0 ?_ m0
  unfold State.cipherRecord
  repeat' (first
    | with_reducible exact Frame.refl _ _ | with_reducible apply wr64_frame | with_reducible apply wr_frame
    | with_reducible apply Frame.ite | split | exact Eq.refl _)

/-- May change regs. -/
theorem cipherCount_frame (s : State) (n st : Nat) (hr0 : Frame F0 r0 s) (m0 : 0x4 ||| F0 = F0) :
    Frame F0 r0 (State.cipherCount s n st) := by
  refine Frame.comp hr0 ?_ m0
  unfold State.cipherCount
  repeat' (first
    | with_reducible exact Frame.refl _ _ | with_reducible apply setBit_frame | with_reducible apply inc_frame
    | with_reducible apply Frame.ite | split | exact Eq.refl _)

/-- May change regs, slices. -/
theorem execCipherOpDone_frame (slice ctx : Nat) (op : CipherOp) (s : State) (hr0 : Frame F0 r0 s) (m0 : 0x20004 ||| F0 = F0) :
    FrameOut F0 r0 (execCipherOpDone slice ctx op s) := by
  refine FrameOut.comp hr0 ?_ m0
  unfold execCipherOpDone
  dsimp only
  repeat' (first
    | with_reducible exact Frame.refl _ _ | with_reducible apply inc_frame | with_reducible apply takeCtr_frame
    | with_reducible apply keyUse_frame | with_reducible apply cipherCount_frame | with_reducible apply cipherRecord_frame
    | with_reducible apply maskDraw_frame | with_reducible apply opFenced_frame | with_reducible apply opEnded_frame
    | with_reducible apply engineDone_frame | with_reducible apply Frame.next | with_reducible apply Frame.ite | split
    | exact Eq.refl _)

/-- May change regs. -/
theorem streamRecord_frame (s : State) (n ix st : Nat) (o : CompressOp) (hr0 : Frame F0 r0 s) (m0 : 0x4 ||| F0 = F0) :
    Frame F0 r0 (State.streamRecord s n ix st o) := by
  refine Frame.comp hr0 ?_ m0
  unfold State.streamRecord
  repeat' (first
    | with_reducible exact Frame.refl _ _ | with_reducible apply wr64_frame | with_reducible apply wr_frame
    | with_reducible apply Frame.ite | split | exact Eq.refl _)

/-- May change regs, slices. -/
theorem execCompressOpDone_frame (slice ctx : Nat) (op : CompressOp) (s : State) (hr0 : Frame F0 r0 s) (m0 : 0x20004 ||| F0 =
    F0) :
    FrameOut F0 r0 (execCompressOpDone slice ctx op s) := by
  refine FrameOut.comp hr0 ?_ m0
  unfold execCompressOpDone
  dsimp only
  repeat' (first
    | with_reducible exact Frame.refl _ _ | with_reducible apply streamRecord_frame | with_reducible apply setBit_frame
    | with_reducible apply opFenced_frame | with_reducible apply opEnded_frame | with_reducible apply engineDone_frame
    | with_reducible apply Frame.next | with_reducible apply Frame.ite | split | exact Eq.refl _)

/-- May change fresh. -/
theorem dmaEnd_frame (s : State) (n : Nat) (d : DmaRes) (hr0 : Frame F0 r0 s) (m0 : 0x8000000000000 ||| F0 = F0) :
    Frame F0 r0 (State.dmaEnd s n d).2.2 := by
  refine Frame.comp hr0 ?_ m0
  unfold State.dmaEnd
  dsimp only
  repeat' (first
    | with_reducible exact Frame.refl _ _ | with_reducible apply free_frame | with_reducible apply Frame.ite | split
    | exact Eq.refl _)

/-- May change slices. -/
theorem takeDma_frame (s : State) (n ch : Nat) (d : DmaRes) (hr0 : Frame F0 r0 s) (m0 : 0x20000 ||| F0 = F0) :
    Frame F0 r0 (State.takeDma s n ch d) := by
  refine Frame.comp hr0 ?_ m0
  unfold State.takeDma
  repeat' (first
    | with_reducible exact Frame.refl _ _ | with_reducible apply modSlice_frame | exact SlmSame.of fun _ => rfl
    | (refine SlmSame.of fun x => ?_; simp [apply_ite Slice.slm]; done)
    | (refine SlmSame.of fun x => ?_; (try dsimp only); apply slm_foldl; intro _ _; simp; done)
    | (refine SlmSame.of fun x => ?_; (repeat' (first | rfl | (simp [apply_ite Slice.slm]; done) | split)); done) | split
    | exact Eq.refl _)

/-- May change regs, slices, fresh, slice-local memory. -/
theorem execSliceDmaDone_frame (slice ch cluster wslot index : Nat) (dma : DmaRes) (s : State) (hr0 : Frame F0 r0 s) (m0 :
    0x28000000020004 ||| F0 = F0) :
    FrameOut F0 r0 (execSliceDmaDone slice ch cluster wslot index dma s) := by
  refine FrameOut.comp hr0 ?_ m0
  unfold execSliceDmaDone
  dsimp only
  repeat' (first
    | with_reducible exact Frame.refl _ _ | with_reducible apply dmaEnd_frame | with_reducible apply memStore_frame
    | with_reducible apply takeDma_frame | with_reducible apply dramAsk_frame | with_reducible apply wr_frame
    | with_reducible apply setBit_frame | with_reducible apply deliver_frame | with_reducible apply Frame.next
    | with_reducible apply Frame.ite | split | exact Eq.refl _)

/-! ### Search -/

/-- May change regs, slices, slice-local memory. -/
theorem execSearch_frame (slice array part requester start : Nat) (key : BitVec 128) (s : State) (hr0 : Frame F0 r0 s) (m0 :
    0x20000000020004 ||| F0 = F0) :
    FrameOut F0 r0 (execSearch slice array part requester start key s) := by
  refine FrameOut.comp hr0 ?_ m0
  unfold execSearch
  repeat' (first
    | with_reducible exact Frame.refl _ _ | with_reducible apply searchIssue_frame | with_reducible apply Frame.next
    | exact Eq.refl _)

/-- May change regs, slices, slice-local memory. -/
theorem execSearchBatch_frame (slice array part requester start count : Nat) (keys : List (BitVec 128)) (respPtr arrived : Nat)
    (s : State) (hr0 : Frame F0 r0 s) (m0 : 0x20000000020004 ||| F0 = F0) :
    FrameOut F0 r0 (execSearchBatch slice array part requester start count keys respPtr arrived s) := by
  refine FrameOut.comp hr0 ?_ m0
  unfold execSearchBatch
  dsimp only
  repeat' (first
    | with_reducible exact Frame.refl _ _ | with_reducible apply searchEnd_frame | with_reducible apply modArray_frame
    | with_reducible apply wr_frame | with_reducible apply memZero_frame | with_reducible apply searchIssue_frame
    | with_reducible apply Frame.next | with_reducible apply Frame.ite | split | exact Eq.refl _)

/-- May change regs, slices, slice-local memory. -/
theorem execInvalidate_frame (slice array part requester offset : Nat) (s : State) (hr0 : Frame F0 r0 s) (m0 : 0x20000000020004
    ||| F0 = F0) :
    FrameOut F0 r0 (execInvalidate slice array part requester offset s) := by
  refine FrameOut.comp hr0 ?_ m0
  unfold execInvalidate
  repeat' (first
    | with_reducible exact Frame.refl _ _ | with_reducible apply searchIssue_frame | with_reducible apply Frame.next
    | exact Eq.refl _)

/-- May change regs, slices, slice-local memory. -/
theorem execEntryWrite_frame (slice array part requester offset : Nat) (key mask : BitVec 128) (result : BitVec 32) (s : State)
    (hr0 : Frame F0 r0 s) (m0 : 0x20000000020004 ||| F0 = F0) :
    FrameOut F0 r0 (execEntryWrite slice array part requester offset key mask result s) := by
  refine FrameOut.comp hr0 ?_ m0
  unfold execEntryWrite
  repeat' (first
    | with_reducible exact Frame.refl _ _ | with_reducible apply searchIssue_frame | with_reducible apply Frame.next
    | exact Eq.refl _)

/-- May change regs, slices, slice-local memory. -/
theorem execValidate_frame (slice array part requester offset : Nat) (s : State) (hr0 : Frame F0 r0 s) (m0 : 0x20000000020004
    ||| F0 = F0) :
    FrameOut F0 r0 (execValidate slice array part requester offset s) := by
  refine FrameOut.comp hr0 ?_ m0
  unfold execValidate
  repeat' (first
    | with_reducible exact Frame.refl _ _ | with_reducible apply searchIssue_frame | with_reducible apply Frame.next
    | exact Eq.refl _)

/-- May change regs, slices, slice-local memory. -/
theorem execResultWrite_frame (slice array part requester offset : Nat) (result : BitVec 32) (s : State) (hr0 : Frame F0 r0 s)
    (m0 : 0x20000000020004 ||| F0 = F0) :
    FrameOut F0 r0 (execResultWrite slice array part requester offset result s) := by
  refine FrameOut.comp hr0 ?_ m0
  unfold execResultWrite
  repeat' (first
    | with_reducible exact Frame.refl _ _ | with_reducible apply searchIssue_frame | with_reducible apply Frame.next
    | exact Eq.refl _)

/-- May change regs, slices, slice-local memory. -/
theorem execEntryRead_frame (slice array part requester offset : Nat) (s : State) (hr0 : Frame F0 r0 s) (m0 : 0x20000000020004
    ||| F0 = F0) :
    FrameOut F0 r0 (execEntryRead slice array part requester offset s) := by
  refine FrameOut.comp hr0 ?_ m0
  unfold execEntryRead
  repeat' (first
    | with_reducible exact Frame.refl _ _ | with_reducible apply searchIssue_frame | with_reducible apply Frame.next
    | exact Eq.refl _)

/-- May change regs, slices. -/
theorem execSearchResponse_frame (slice array cluster wslot index : Nat) (s : State) (hr0 : Frame F0 r0 s) (m0 : 0x20004 ||| F0
    = F0) :
    FrameOut F0 r0 (execSearchResponse slice array cluster wslot index s) := by
  refine FrameOut.comp hr0 ?_ m0
  unfold execSearchResponse
  dsimp only
  repeat' (first
    | with_reducible exact Frame.refl _ _ | with_reducible apply modArray_frame | with_reducible apply deliver_frame
    | with_reducible apply Frame.next | split | exact Eq.refl _)

/-! ### Digest -/

/-- May change regs, digests. -/
theorem execDigestOpen_frame (inst : DgRef) (owner alg : Nat) (hmac : Option Nat) (decl : Nat) (dest : DgDest) (s : State) (hr0
    : Frame F0 r0 s) (m0 : 0x1000004 ||| F0 = F0) :
    FrameOut F0 r0 (execDigestOpen inst owner alg hmac decl dest s) := by
  refine FrameOut.comp hr0 ?_ m0
  unfold execDigestOpen
  dsimp only
  repeat' (first
    | with_reducible exact Frame.refl _ _ | with_reducible apply openDigest_frame | with_reducible apply digestError_frame
    | with_reducible apply Frame.next | with_reducible apply Frame.ite | split | exact Eq.refl _)

/-- May change regs, slices, digests, digestOut, hubKey, meas, measLog, measSeq, staged, nvm, fences, slice-local memory. -/
theorem execDigestData_frame (inst : DgRef) (data : List (BitVec 8)) (final : Bool) (s : State) (hr0 : Frame F0 r0 s) (m0 :
    0x202200fd020004 ||| F0 = F0) :
    FrameOut F0 r0 (execDigestData inst data final s) := by
  refine FrameOut.comp hr0 ?_ m0
  unfold execDigestData
  repeat' (first
    | with_reducible exact Frame.refl _ _ | with_reducible apply absorb_frame | with_reducible apply Frame.next
    | exact Eq.refl _)

/-- May change regs, meas, measLog, measSeq. -/
theorem measExtend_frame (s : State) (hr0 : Frame F0 r0 s) (m0 : 0x70000004 ||| F0 = F0) :
    Frame F0 r0 (State.measExtend s) := by
  refine Frame.comp hr0 ?_ m0
  unfold State.measExtend
  dsimp only
  repeat' (first
    | with_reducible exact Frame.refl _ _ | with_reducible apply putF_frame | with_reducible apply setBit_frame
    | with_reducible apply extend_frame | with_reducible apply Frame.ite | split | exact Eq.refl _)

/-- May change regs, meas, measLog, measSeq. -/
theorem execMeasExtend_frame (s : State) (hr0 : Frame F0 r0 s) (m0 : 0x70000004 ||| F0 = F0) :
    FrameOut F0 r0 (execMeasExtend s) := by
  refine FrameOut.comp hr0 ?_ m0
  unfold execMeasExtend
  repeat' (first
    | with_reducible exact Frame.refl _ _ | with_reducible apply measExtend_frame | with_reducible apply Frame.next
    | exact Eq.refl _)

/-- May change regs. -/
theorem execMeasExtendDone_frame (s : State) (hr0 : Frame F0 r0 s) (m0 : 0x4 ||| F0 = F0) :
    FrameOut F0 r0 (execMeasExtendDone s) := by
  refine FrameOut.comp hr0 ?_ m0
  unfold execMeasExtendDone
  repeat' (first
    | with_reducible exact Frame.refl _ _ | with_reducible apply putF_frame | with_reducible apply clrBit_frame
    | with_reducible apply Frame.next | with_reducible apply Frame.ite | split | exact Eq.refl _)

end Sys2Proof.Laws
end

