-- ==== Sys2Proof/Laws/FramePackage.lean ====
section
/-!
SUPPORT. What each operation may change: power, the recorder, start, containment, host DMA and local DRAM.
-/

namespace Sys2Proof.Laws

open Sys2Proof.Machine

variable {F0 : Nat} {r0 : State}

/-! ### Power -/

/-- May change regs, power. -/
theorem stopMeasure_frame (s : State) (hr0 : Frame F0 r0 s) (m0 : 0x40000000004 ||| F0 = F0) :
    Frame F0 r0 (State.stopMeasure s) := by
  refine Frame.comp hr0 ?_ m0
  unfold State.stopMeasure
  repeat' (first
    | with_reducible exact Frame.refl _ _ | with_reducible apply wrQ_frame | with_reducible apply modPower_frame
    | with_reducible apply Frame.ite | split | exact Eq.refl _)

/-- May change regs, nvm, power. -/
theorem execSagDetect_frame (s : State) (hr0 : Frame F0 r0 s) (m0 : 0x60000000004 ||| F0 = F0) :
    FrameOut F0 r0 (execSagDetect s) := by
  refine FrameOut.comp hr0 ?_ m0
  unfold execSagDetect
  dsimp only
  repeat' (first
    | with_reducible exact Frame.refl _ _ | with_reducible apply inc_frame | with_reducible apply setBit_frame
    | with_reducible apply modNvm_frame | with_reducible apply modPower_frame | with_reducible apply stopMeasure_frame
    | with_reducible apply putF_frame | with_reducible apply Frame.next | with_reducible apply Frame.ite | split
    | exact Eq.refl _)

/-- May change regs, power, recorder. -/
theorem execSagEnd_frame (us : Nat) (s : State) (hr0 : Frame F0 r0 s) (m0 : 0x140000000004 ||| F0 = F0) :
    FrameOut F0 r0 (execSagEnd us s) := by
  refine FrameOut.comp hr0 ?_ m0
  unfold execSagEnd
  dsimp only
  repeat' (first
    | with_reducible exact Frame.refl _ _ | with_reducible apply modPower_frame | with_reducible apply event_frame
    | with_reducible apply putF_frame | with_reducible apply Frame.next | with_reducible apply Frame.ite | split
    | exact Eq.refl _)

/-- May change power. -/
theorem execBrownOut_frame (s : State) (hr0 : Frame F0 r0 s) (m0 : 0x40000000000 ||| F0 = F0) :
    FrameOut F0 r0 (execBrownOut s) := by
  refine FrameOut.comp hr0 ?_ m0
  unfold execBrownOut
  repeat' (first
    | with_reducible exact Frame.refl _ _ | with_reducible apply modPower_frame | with_reducible apply Frame.next
    | with_reducible apply Frame.ite | split | exact Eq.refl _)

/-- May change regs. -/
theorem execSurgeRecorded_frame (s : State) (hr0 : Frame F0 r0 s) (m0 : 0x4 ||| F0 = F0) :
    FrameOut F0 r0 (execSurgeRecorded s) := by
  refine FrameOut.comp hr0 ?_ m0
  unfold execSurgeRecorded
  repeat' (first
    | with_reducible exact Frame.refl _ _ | with_reducible apply setBit_frame | with_reducible apply Frame.next
    | exact Eq.refl _)

/-- May change power. -/
theorem execSurgeTrip_frame (s : State) (hr0 : Frame F0 r0 s) (m0 : 0x40000000000 ||| F0 = F0) :
    FrameOut F0 r0 (execSurgeTrip s) := by
  refine FrameOut.comp hr0 ?_ m0
  unfold execSurgeTrip
  repeat' (first
    | with_reducible exact Frame.refl _ _ | with_reducible apply modPower_frame | with_reducible apply Frame.next
    | exact Eq.refl _)

/-- May change pins, regs, power, recorder. -/
theorem execSenseFault_frame (input code : Nat) (s : State) (hr0 : Frame F0 r0 s) (m0 : 0x140000000006 ||| F0 = F0) :
    FrameOut F0 r0 (execSenseFault input code s) := by
  refine FrameOut.comp hr0 ?_ m0
  unfold execSenseFault
  repeat' (first
    | with_reducible exact Frame.refl _ _ | with_reducible apply declareUnhealthy_frame | with_reducible apply modPower_frame
    | with_reducible apply Frame.next | with_reducible apply Frame.ite | split | exact Eq.refl _)

/-- May change power. -/
theorem execThermalTrip_frame (sensor : Nat) (s : State) (hr0 : Frame F0 r0 s) (m0 : 0x40000000000 ||| F0 = F0) :
    FrameOut F0 r0 (execThermalTrip sensor s) := by
  refine FrameOut.comp hr0 ?_ m0
  unfold execThermalTrip
  repeat' (first
    | with_reducible exact Frame.refl _ _ | with_reducible apply modPower_frame | with_reducible apply Frame.next
    | with_reducible apply Frame.ite | split | exact Eq.refl _)

/-- May change regs, power. -/
theorem loopStep_frame (s : State) (n : Nat) (m : Int) (hr0 : Frame F0 r0 s) (m0 : 0x40000000004 ||| F0 = F0) :
    Frame F0 r0 (State.loopStep s n m) := by
  refine Frame.comp hr0 ?_ m0
  unfold State.loopStep
  dsimp only
  repeat' (first
    | with_reducible exact Frame.refl _ _ | with_reducible apply setBit_frame | with_reducible apply wrQ_frame
    | with_reducible apply modPower_frame | with_reducible apply Frame.ite | split | exact Eq.refl _)

/-- May change regs, power. -/
theorem takeSense_frame (s : State) (meas : List (Nat × Int)) (hr0 : Frame F0 r0 s) (m0 : 0x40000000004 ||| F0 = F0) :
    Frame F0 r0 (State.takeSense s meas) := by
  refine Frame.comp hr0 ?_ m0
  unfold State.takeSense
  dsimp only
  repeat' (first
    | with_reducible exact Frame.refl _ _ | with_reducible apply putF_frame | with_reducible apply wr_frame
    | with_reducible apply modPower_frame | split | exact Eq.refl _)

/-- May change regs. -/
theorem takeTemps_frame (s : State) (temps : List (Nat × Int)) (hr0 : Frame F0 r0 s) (m0 : 0x4 ||| F0 = F0) :
    Frame F0 r0 (State.takeTemps s temps) := by
  refine Frame.comp hr0 ?_ m0
  unfold State.takeTemps
  repeat' (first
    | with_reducible exact Frame.refl _ _ | (intro _) | with_reducible assumption | with_reducible apply putF_frame
    | with_reducible apply Frame.ite | with_reducible apply Frame.foldl | split | exact Eq.refl _)

/-- May change slices. -/
theorem takeRateSteps_frame (s : State) (hr0 : Frame F0 r0 s) (m0 : 0x20000 ||| F0 = F0) :
    Frame F0 r0 (State.takeRateSteps s) := by
  refine Frame.comp hr0 ?_ m0
  unfold State.takeRateSteps
  dsimp only
  repeat' (first
    | with_reducible exact Frame.refl _ _ | (intro _) | with_reducible assumption | with_reducible apply modArray_frame
    | with_reducible apply Frame.ite | with_reducible apply Frame.foldl | split | exact Eq.refl _)

/-- May change regs, slices, power. -/
theorem execControlLoopSample_frame (meas temps : List (Nat × Int)) (s : State) (hr0 : Frame F0 r0 s) (m0 : 0x40000020004 ||| F0
    = F0) :
    FrameOut F0 r0 (execControlLoopSample meas temps s) := by
  refine FrameOut.comp hr0 ?_ m0
  unfold execControlLoopSample
  dsimp only
  repeat' (first
    | with_reducible exact Frame.refl _ _ | (intro _) | with_reducible assumption | with_reducible apply takeTemps_frame
    | with_reducible apply takeSense_frame | with_reducible apply loopStep_frame | with_reducible apply takeRateSteps_frame
    | with_reducible apply Frame.next | with_reducible apply Frame.ite | with_reducible apply Frame.foldl | split
    | exact Eq.refl _)

/-- May change pins, regs, power, recorder. -/
theorem execFeTrip_frame (loop : Nat) (s : State) (hr0 : Frame F0 r0 s) (m0 : 0x140000000006 ||| F0 = F0) :
    FrameOut F0 r0 (execFeTrip loop s) := by
  refine FrameOut.comp hr0 ?_ m0
  unfold execFeTrip
  dsimp only
  repeat' (first
    | with_reducible exact Frame.refl _ _ | with_reducible apply openLoop_frame | with_reducible apply setBit_frame
    | with_reducible apply declareUnhealthy_frame | with_reducible apply Frame.next | with_reducible apply Frame.ite | split
    | exact Eq.refl _)

/-- May change regs, power. -/
theorem loopClose_frame (s : State) (n : Nat) (m : Int) (hr0 : Frame F0 r0 s) (m0 : 0x40000000004 ||| F0 = F0) :
    Frame F0 r0 (State.loopClose s n m) := by
  refine Frame.comp hr0 ?_ m0
  unfold State.loopClose
  repeat' (first
    | with_reducible exact Frame.refl _ _ | with_reducible apply closeLoop_frame | with_reducible apply Frame.ite | split
    | exact Eq.refl _)

/-- May change pins, regs, power, recorder. -/
theorem loopOpen_frame (s : State) (n : Nat) (hr0 : Frame F0 r0 s) (m0 : 0x140000000006 ||| F0 = F0) :
    Frame F0 r0 (State.loopOpen s n) := by
  refine Frame.comp hr0 ?_ m0
  unfold State.loopOpen
  dsimp only
  repeat' (first
    | with_reducible exact Frame.refl _ _ | with_reducible apply openLoop_frame | with_reducible apply declareUnhealthy_frame
    | with_reducible apply Frame.ite | split | exact Eq.refl _)

/-- May change regs, power. -/
theorem execLoopClose_frame (loop : Nat) (meas : Int) (s : State) (hr0 : Frame F0 r0 s) (m0 : 0x40000000004 ||| F0 = F0) :
    FrameOut F0 r0 (execLoopClose loop meas s) := by
  refine FrameOut.comp hr0 ?_ m0
  unfold execLoopClose
  repeat' (first
    | with_reducible exact Frame.refl _ _ | with_reducible apply loopClose_frame | with_reducible apply Frame.next
    | exact Eq.refl _)

/-- May change pins, regs, power, recorder. -/
theorem execLoopOpen_frame (loop : Nat) (s : State) (hr0 : Frame F0 r0 s) (m0 : 0x140000000006 ||| F0 = F0) :
    FrameOut F0 r0 (execLoopOpen loop s) := by
  refine FrameOut.comp hr0 ?_ m0
  unfold execLoopOpen
  repeat' (first
    | with_reducible exact Frame.refl _ _ | with_reducible apply loopOpen_frame | with_reducible apply Frame.next
    | exact Eq.refl _)

/-- May change regs, power. -/
theorem beginMeasure_frame (s : State) (hr0 : Frame F0 r0 s) (m0 : 0x40000000004 ||| F0 = F0) :
    Frame F0 r0 (State.beginMeasure s) := by
  refine Frame.comp hr0 ?_ m0
  unfold State.beginMeasure
  repeat' (first
    | with_reducible exact Frame.refl _ _ | with_reducible apply wrQ_frame | with_reducible apply modPower_frame
    | with_reducible apply Frame.ite | split | exact Eq.refl _)

/-- May change regs, power. -/
theorem wantMeasure_frame (s : State) (hr0 : Frame F0 r0 s) (m0 : 0x40000000004 ||| F0 = F0) :
    Frame F0 r0 (State.wantMeasure s) := by
  refine Frame.comp hr0 ?_ m0
  unfold State.wantMeasure
  repeat' (first
    | with_reducible exact Frame.refl _ _ | with_reducible apply beginMeasure_frame | with_reducible apply modPower_frame
    | exact Eq.refl _)

/-- May change regs, power. -/
theorem execMeasureRequest_frame (s : State) (hr0 : Frame F0 r0 s) (m0 : 0x40000000004 ||| F0 = F0) :
    FrameOut F0 r0 (execMeasureRequest s) := by
  refine FrameOut.comp hr0 ?_ m0
  unfold execMeasureRequest
  repeat' (first
    | with_reducible exact Frame.refl _ _ | with_reducible apply wantMeasure_frame | with_reducible apply Frame.next
    | exact Eq.refl _)

/-- May change regs, power. -/
theorem execCapacitanceMeasureDue_frame (s : State) (hr0 : Frame F0 r0 s) (m0 : 0x40000000004 ||| F0 = F0) :
    FrameOut F0 r0 (execCapacitanceMeasureDue s) := by
  refine FrameOut.comp hr0 ?_ m0
  unfold execCapacitanceMeasureDue
  repeat' (first
    | with_reducible exact Frame.refl _ _ | with_reducible apply wantMeasure_frame | with_reducible apply Frame.next
    | exact Eq.refl _)

/-- May change pins, regs, power, recorder. -/
theorem checkEnergy_frame (s : State) (hr0 : Frame F0 r0 s) (m0 : 0x140000000006 ||| F0 = F0) :
    Frame F0 r0 (State.checkEnergy s) := by
  refine Frame.comp hr0 ?_ m0
  unfold State.checkEnergy
  repeat' (first
    | with_reducible exact Frame.refl _ _ | with_reducible apply declareUnhealthy_frame | with_reducible apply Frame.ite
    | split | exact Eq.refl _)

/-- May change pins, regs, tenants, slices, nvm, power, recorder. -/
theorem execCapacitanceMeasureEnd_frame (v0 v1 v2 : Nat) (s : State) (hr0 : Frame F0 r0 s) (m0 : 0x160000021006 ||| F0 = F0) :
    FrameOut F0 r0 (execCapacitanceMeasureEnd v0 v1 v2 s) := by
  refine FrameOut.comp hr0 ?_ m0
  unfold execCapacitanceMeasureEnd
  dsimp only
  repeat' (first
    | with_reducible exact Frame.refl _ _ | with_reducible apply setBit_frame | with_reducible apply stopMeasure_frame
    | with_reducible apply modPower_frame | with_reducible apply declareUnhealthy_frame | with_reducible apply modNvm_frame
    | with_reducible apply putF_frame | with_reducible apply wr_frame | with_reducible apply evalArmed_frame
    | with_reducible apply checkEnergy_frame | with_reducible apply resizeBuffers_frame | with_reducible apply Frame.next
    | with_reducible apply Frame.ite | split | exact Eq.refl _)

/-- May change regs, slices, recorder, fresh. -/
theorem takeWaHour_frame (s : State) (n : Nat) (hr0 : Frame F0 r0 s) (m0 : 0x8100000020004 ||| F0 = F0) :
    Frame F0 r0 (State.takeWaHour s n) := by
  refine Frame.comp hr0 ?_ m0
  unfold State.takeWaHour
  dsimp only
  repeat' (first
    | with_reducible exact Frame.refl _ _ | with_reducible apply free_frame | with_reducible apply event_frame
    | with_reducible apply modSlice_frame | with_reducible apply Frame.ite | exact SlmSame.of fun _ => rfl | split
    | exact Eq.refl _)

/-- May change pins, regs, tenants, slices, power, recorder, fresh. -/
theorem execFlushRateUpdate_frame (s : State) (hr0 : Frame F0 r0 s) (m0 : 0x8140000021006 ||| F0 = F0) :
    FrameOut F0 r0 (execFlushRateUpdate s) := by
  refine FrameOut.comp hr0 ?_ m0
  unfold execFlushRateUpdate
  dsimp only
  repeat' (first
    | with_reducible exact Frame.refl _ _ | (intro _) | with_reducible assumption | with_reducible apply checkEnergy_frame
    | with_reducible apply resizeBuffers_frame | with_reducible apply takeRates_frame | with_reducible apply takeWaHour_frame
    | with_reducible apply Frame.next | with_reducible apply Frame.foldl | exact Eq.refl _)

/-- May change pins, regs, power, recorder. -/
theorem execChargeTimeout_frame (s : State) (hr0 : Frame F0 r0 s) (m0 : 0x140000000006 ||| F0 = F0) :
    FrameOut F0 r0 (execChargeTimeout s) := by
  refine FrameOut.comp hr0 ?_ m0
  unfold execChargeTimeout
  repeat' (first
    | with_reducible exact Frame.refl _ _ | with_reducible apply declareUnhealthy_frame | with_reducible apply Frame.next
    | with_reducible apply Frame.ite | split | exact Eq.refl _)

/-- May change regs. -/
theorem holdupClear_frame (s : State) (hr0 : Frame F0 r0 s) (m0 : 0x4 ||| F0 = F0) :
    Frame F0 r0 (State.holdupClear s) := by
  refine Frame.comp hr0 ?_ m0
  unfold State.holdupClear
  repeat' (first
    | with_reducible exact Frame.refl _ _ | with_reducible apply evalArmed_frame | with_reducible apply putF_frame
    | with_reducible apply clrBit_frame | with_reducible apply Frame.ite | split | exact Eq.refl _)

/-- May change regs. -/
theorem execHoldupClear_frame (s : State) (hr0 : Frame F0 r0 s) (m0 : 0x4 ||| F0 = F0) :
    FrameOut F0 r0 (execHoldupClear s) := by
  refine FrameOut.comp hr0 ?_ m0
  unfold execHoldupClear
  repeat' (first
    | with_reducible exact Frame.refl _ _ | with_reducible apply holdupClear_frame | with_reducible apply Frame.next
    | exact Eq.refl _)

/-- May change regs. -/
theorem superFigures_frame (s : State) (hr0 : Frame F0 r0 s) (m0 : 0x4 ||| F0 = F0) :
    Frame F0 r0 (State.superFigures s) := by
  refine Frame.comp hr0 ?_ m0
  unfold State.superFigures
  dsimp only
  repeat' (first
    | with_reducible exact Frame.refl _ _ | with_reducible apply wr_frame | with_reducible apply putF_frame | exact Eq.refl _)

/-- May change pins, regs, power. -/
theorem enterCharge_frame (s : State) (hr0 : Frame F0 r0 s) (m0 : 0x40000000006 ||| F0 = F0) :
    Frame F0 r0 (State.enterCharge s) := by
  refine Frame.comp hr0 ?_ m0
  unfold State.enterCharge
  repeat' (first
    | with_reducible exact Frame.refl _ _ | with_reducible apply modPower_frame | with_reducible apply setMode_frame
    | exact Eq.refl _)

/-- May change pins, regs, inflight, deferred, slices, invocations, hd, parks, hdQueue, digests, digestWaits, storeHdr, storeNext,
nvm, power, recorder. -/
theorem superMove_frame (s : State) (hr0 : Frame F0 r0 s) (m0 : 0x16c003764206 ||| F0 = F0) :
    Frame F0 r0 (State.superMove s) := by
  refine Frame.comp hr0 ?_ m0
  unfold State.superMove
  dsimp only
  repeat' (first
    | with_reducible exact Frame.refl _ _ | with_reducible apply enterDump_frame | with_reducible apply enterCharge_frame
    | with_reducible apply setMode_frame | with_reducible apply modPower_frame | with_reducible apply modNvm_frame
    | with_reducible apply inc_frame | with_reducible apply setBit_frame | with_reducible apply Frame.ite | split
    | exact Eq.refl _)

/-- May change regs, power, recorder. -/
theorem closeUnhealthy_frame (s : State) (hr0 : Frame F0 r0 s) (m0 : 0x140000000004 ||| F0 = F0) :
    Frame F0 r0 (State.closeUnhealthy s) := by
  refine Frame.comp hr0 ?_ m0
  unfold State.closeUnhealthy
  repeat' (first
    | with_reducible exact Frame.refl _ _ | with_reducible apply modPower_frame | with_reducible apply closeInterval_frame
    | with_reducible apply Frame.ite | split | exact Eq.refl _)

/-- May change regs. -/
theorem holdSetpoint_frame (s : State) (hr0 : Frame F0 r0 s) (m0 : 0x4 ||| F0 = F0) :
    Frame F0 r0 (State.holdSetpoint s) := by
  refine Frame.comp hr0 ?_ m0
  unfold State.holdSetpoint
  repeat' (first
    | with_reducible exact Frame.refl _ _ | with_reducible apply wrQ_frame | with_reducible apply Frame.ite | split
    | exact Eq.refl _)

/-- May change pins, regs, inflight, deferred, slices, invocations, hd, parks, hdQueue, digests, digestWaits, storeHdr, storeNext,
nvm, power, recorder. -/
theorem execSupervisorStep_frame (s : State) (hr0 : Frame F0 r0 s) (m0 : 0x16c003764206 ||| F0 = F0) :
    FrameOut F0 r0 (execSupervisorStep s) := by
  refine FrameOut.comp hr0 ?_ m0
  unfold execSupervisorStep
  dsimp only
  repeat' (first
    | with_reducible exact Frame.refl _ _ | with_reducible apply putF_frame | with_reducible apply superFigures_frame
    | with_reducible apply superMove_frame | with_reducible apply beginMeasure_frame
    | with_reducible apply closeUnhealthy_frame | with_reducible apply evalArmed_frame
    | with_reducible apply holdSetpoint_frame | with_reducible apply Frame.next | with_reducible apply Frame.ite | split
    | exact Eq.refl _)

/-- May change nvm. -/
theorem dumpCause_frame (s : State) (hr0 : Frame F0 r0 s) (m0 : 0x20000000000 ||| F0 = F0) :
    Frame F0 r0 (State.dumpCause s) := by
  refine Frame.comp hr0 ?_ m0
  unfold State.dumpCause
  repeat' (first
    | with_reducible exact Frame.refl _ _ | with_reducible apply modNvm_frame | with_reducible apply noteEnd_frame
    | with_reducible apply Frame.ite | split | exact Eq.refl _)

/-- May change nvm. -/
theorem storeWear_frame (s : State) (hr0 : Frame F0 r0 s) (m0 : 0x20000000000 ||| F0 = F0) :
    Frame F0 r0 (State.storeWear s) := by
  refine Frame.comp hr0 ?_ m0
  unfold State.storeWear
  repeat' (first | with_reducible exact Frame.refl _ _ | with_reducible apply modNvm_frame | exact Eq.refl _)

/-- May change pins, regs, latches, busRead, course, dual, links, ctrls, inflight, order, namespaces, tenants, leaving, deferred,
migs, slotWaits, slices, invocations, nextInv, hd, parks, hdQueue, ats, digests, digestWaits, digestOut, hubKey, meas, measLog,
measSeq, staged, spdmPeers, spdmSessions, spdmOut, entropyOk, groupAt, groupRecs, storeHdr, storeNext, wearRateMax, nvm, power,
start, recorder, fences, fenceCounts, fenceSoon, test, unfence, mgmt, fresh, slice-local memory. -/
theorem resetIfLow_frame (s : State) (hr0 : Frame F0 r0 s) (m0 : 0x2ffffffffffffe ||| F0 = F0) :
    Frame F0 r0 (State.resetIfLow s) := by
  refine Frame.comp hr0 ?_ m0
  unfold State.resetIfLow
  repeat' (first
    | with_reducible exact Frame.refl _ _ | with_reducible apply packageReset_frame | with_reducible apply Frame.ite | split
    | exact Eq.refl _)

/-- May change pins, regs, latches, busRead, course, dual, links, ctrls, inflight, order, namespaces, tenants, leaving, deferred,
migs, slotWaits, slices, invocations, nextInv, hd, parks, hdQueue, ats, digests, digestWaits, digestOut, hubKey, meas, measLog,
measSeq, staged, spdmPeers, spdmSessions, spdmOut, entropyOk, groupAt, groupRecs, storeHdr, storeNext, wearRateMax, nvm, power,
start, recorder, fences, fenceCounts, fenceSoon, test, unfence, mgmt, fresh, slice-local memory. -/
theorem execDumpComplete_frame (unlanded : List (Nat × Nat)) (s : State) (hr0 : Frame F0 r0 s) (m0 : 0x2ffffffffffffe ||| F0 =
    F0) :
    FrameOut F0 r0 (execDumpComplete unlanded s) := by
  refine FrameOut.comp hr0 ?_ m0
  unfold execDumpComplete
  dsimp only
  repeat' (first
    | with_reducible exact Frame.refl _ _ | (intro _) | with_reducible assumption | with_reducible apply landSlice_frame
    | with_reducible apply storeWear_frame | with_reducible apply dumpCause_frame | with_reducible apply modNvm_frame
    | with_reducible apply writeRecorder_frame | with_reducible apply notice_frame | with_reducible apply resetIfLow_frame
    | with_reducible apply setMode_frame | with_reducible apply Frame.next | with_reducible apply Frame.ite
    | with_reducible apply Frame.foldl | split | exact Eq.refl _ | with_reducible apply upd_pins)

/-- May change pins, regs, latches, busRead, course, dual, links, ctrls, inflight, order, namespaces, tenants, leaving, deferred,
migs, slotWaits, slices, invocations, nextInv, hd, parks, hdQueue, ats, digests, digestWaits, digestOut, hubKey, meas, measLog,
measSeq, staged, spdmPeers, spdmSessions, spdmOut, entropyOk, groupAt, groupRecs, storeHdr, storeNext, wearRateMax, nvm, power,
start, recorder, fences, fenceCounts, fenceSoon, test, unfence, mgmt, fresh, slice-local memory. -/
theorem execDownSupplyGood_frame (s : State) (hr0 : Frame F0 r0 s) (m0 : 0x2ffffffffffffe ||| F0 = F0) :
    FrameOut F0 r0 (execDownSupplyGood s) := by
  refine FrameOut.comp hr0 ?_ m0
  unfold execDownSupplyGood
  repeat' (first
    | with_reducible exact Frame.refl _ _ | with_reducible apply restart_frame | with_reducible apply Frame.next
    | with_reducible apply Frame.ite | split | exact Eq.refl _)

/-- May change pins, regs, latches, busRead, course, dual, links, ctrls, inflight, order, namespaces, tenants, leaving, deferred,
migs, slotWaits, slices, invocations, nextInv, hd, parks, hdQueue, ats, digests, digestWaits, digestOut, hubKey, meas, measLog,
measSeq, staged, spdmPeers, spdmSessions, spdmOut, entropyOk, groupAt, groupRecs, storeHdr, storeNext, wearRateMax, nvm, power,
start, recorder, fences, fenceCounts, fenceSoon, test, unfence, mgmt, fresh, slice-local memory. -/
theorem execBankExhausted_frame (s : State) (hr0 : Frame F0 r0 s) (m0 : 0x2ffffffffffffe ||| F0 = F0) :
    FrameOut F0 r0 (execBankExhausted s) := by
  refine FrameOut.comp hr0 ?_ m0
  unfold execBankExhausted
  dsimp only
  repeat' (first
    | with_reducible exact Frame.refl _ _ | with_reducible apply packageReset_frame | with_reducible apply Frame.next
    | with_reducible apply Frame.ite | split | exact Eq.refl _ | with_reducible apply upd_pins)

/-! ### Recorder -/

/-- May change regs, nvm, recorder. -/
theorem execMinuteTick_frame (s : State) (hr0 : Frame F0 r0 s) (m0 : 0x120000000004 ||| F0 = F0) :
    FrameOut F0 r0 (execMinuteTick s) := by
  refine FrameOut.comp hr0 ?_ m0
  unfold execMinuteTick
  dsimp only
  repeat' (first
    | with_reducible exact Frame.refl _ _ | with_reducible apply storeWear_frame | with_reducible apply modNvm_frame
    | with_reducible apply modRec_frame | with_reducible apply writeRecorder_frame | with_reducible apply Frame.next
    | with_reducible apply Frame.ite | split | exact Eq.refl _)

/-- May change regs, recorder. -/
theorem execRecorderBinning_frame (samples : List (Nat × Int)) (s : State) (hr0 : Frame F0 r0 s) (m0 : 0x100000000004 ||| F0 =
    F0) :
    FrameOut F0 r0 (execRecorderBinning samples s) := by
  refine FrameOut.comp hr0 ?_ m0
  unfold execRecorderBinning
  repeat' (first
    | with_reducible exact Frame.refl _ _ | (intro _) | with_reducible assumption | with_reducible apply inc_frame
    | with_reducible apply modRec_frame | with_reducible apply record_frame | with_reducible apply Frame.next
    | with_reducible apply Frame.ite | with_reducible apply Frame.foldl | split | exact Eq.refl _)

/-- May change regs, recorder. -/
theorem freeze_frame (s : State) (hr0 : Frame F0 r0 s) (m0 : 0x100000000004 ||| F0 = F0) :
    Frame F0 r0 (State.freeze s) := by
  refine Frame.comp hr0 ?_ m0
  unfold State.freeze
  repeat' (first
    | with_reducible exact Frame.refl _ _ | with_reducible apply setBit_frame | with_reducible apply modRec_frame
    | with_reducible apply Frame.ite | split | exact Eq.refl _)

/-- May change regs, recorder. -/
theorem execRecorderFreeze_frame (s : State) (hr0 : Frame F0 r0 s) (m0 : 0x100000000004 ||| F0 = F0) :
    FrameOut F0 r0 (execRecorderFreeze s) := by
  refine FrameOut.comp hr0 ?_ m0
  unfold execRecorderFreeze
  repeat' (first
    | with_reducible exact Frame.refl _ _ | with_reducible apply freeze_frame | with_reducible apply Frame.next
    | exact Eq.refl _)

/-- May change regs, nvm, recorder. -/
theorem execRecorderThaw_frame (s : State) (hr0 : Frame F0 r0 s) (m0 : 0x120000000004 ||| F0 = F0) :
    FrameOut F0 r0 (execRecorderThaw s) := by
  refine FrameOut.comp hr0 ?_ m0
  unfold execRecorderThaw
  repeat' (first
    | with_reducible exact Frame.refl _ _ | with_reducible apply thaw_frame | with_reducible apply Frame.next | exact Eq.refl _)

/-- May change regs, nvm, recorder. -/
theorem execRecorderAutoThaw_frame (s : State) (hr0 : Frame F0 r0 s) (m0 : 0x120000000004 ||| F0 = F0) :
    FrameOut F0 r0 (execRecorderAutoThaw s) := by
  refine FrameOut.comp hr0 ?_ m0
  unfold execRecorderAutoThaw
  repeat' (first
    | with_reducible exact Frame.refl _ _ | with_reducible apply setBit_frame | with_reducible apply thaw_frame
    | with_reducible apply Frame.next | with_reducible apply Frame.ite | split | exact Eq.refl _)

/-! ### Start -/

/-- May change pins, regs, dual, ctrls, inflight, meas, measLog, measSeq, nvm, start, recorder. -/
theorem execResetNRise_frame (s : State) (hr0 : Frame F0 r0 s) (m0 : 0x1a0070000346 ||| F0 = F0) :
    FrameOut F0 r0 (execResetNRise s) := by
  refine FrameOut.comp hr0 ?_ m0
  unfold execResetNRise
  dsimp only
  repeat' (first
    | with_reducible exact Frame.refl _ _ | with_reducible apply beginStart_frame | with_reducible apply Frame.next
    | with_reducible apply Frame.ite | split | exact Eq.refl _ | with_reducible apply upd_pins)

/-- May change pins, regs, latches, busRead, course, dual, links, ctrls, inflight, order, namespaces, tenants, leaving, deferred,
migs, slotWaits, slices, invocations, nextInv, hd, parks, hdQueue, ats, digests, digestWaits, digestOut, hubKey, meas, measLog,
measSeq, staged, spdmPeers, spdmSessions, spdmOut, entropyOk, groupAt, groupRecs, storeHdr, storeNext, wearRateMax, nvm, power,
start, recorder, fences, fenceCounts, fenceSoon, test, unfence, mgmt, fresh, slice-local memory. -/
theorem execResetNFall_frame (s : State) (hr0 : Frame F0 r0 s) (m0 : 0x2ffffffffffffe ||| F0 = F0) :
    FrameOut F0 r0 (execResetNFall s) := by
  refine FrameOut.comp hr0 ?_ m0
  unfold execResetNFall
  dsimp only
  repeat' (first
    | with_reducible exact Frame.refl _ _ | with_reducible apply packageReset_frame | with_reducible apply Frame.next
    | with_reducible apply Frame.ite | split | exact Eq.refl _ | with_reducible apply upd_pins)

/-- May change pins, regs, latches, busRead, course, dual, links, ctrls, inflight, order, namespaces, tenants, leaving, deferred,
migs, slotWaits, slices, invocations, nextInv, hd, parks, hdQueue, ats, digests, digestWaits, digestOut, hubKey, meas, measLog,
measSeq, staged, spdmPeers, spdmSessions, spdmOut, entropyOk, groupAt, groupRecs, storeHdr, storeNext, wearRateMax, nvm, power,
start, recorder, fences, fenceCounts, fenceSoon, test, unfence, mgmt, fresh, slice-local memory. -/
theorem execPowerLostWithoutDump_frame (s : State) (hr0 : Frame F0 r0 s) (m0 : 0x2ffffffffffffe ||| F0 = F0) :
    FrameOut F0 r0 (execPowerLostWithoutDump s) := by
  refine FrameOut.comp hr0 ?_ m0
  unfold execPowerLostWithoutDump
  dsimp only
  repeat' (first
    | with_reducible exact Frame.refl _ _ | with_reducible apply modNvm_frame | with_reducible apply packageReset_frame
    | with_reducible apply Frame.next | with_reducible apply Frame.ite | split | exact Eq.refl _
    | with_reducible apply upd_pins)

/-- May change regs. -/
theorem jtagField_frame (s : State) (scan : Bool) (hr0 : Frame F0 r0 s) (m0 : 0x4 ||| F0 = F0) :
    Frame F0 r0 (State.jtagField s scan) := by
  refine Frame.comp hr0 ?_ m0
  unfold State.jtagField
  repeat' (first
    | with_reducible exact Frame.refl _ _ | with_reducible apply putF_frame | with_reducible apply Frame.ite | split
    | exact Eq.refl _)

/-- May change pins, regs, latches, busRead, course, dual, links, ctrls, inflight, order, namespaces, tenants, leaving, deferred,
migs, slotWaits, slices, invocations, nextInv, hd, parks, hdQueue, ats, digests, digestWaits, digestOut, hubKey, meas, measLog,
measSeq, staged, spdmPeers, spdmSessions, spdmOut, entropyOk, groupAt, groupRecs, storeHdr, storeNext, wearRateMax, nvm, power,
start, recorder, fences, fenceCounts, fenceSoon, test, unfence, mgmt, fresh, slice-local memory. -/
theorem execJtagInstruction_frame (instr : JtagInstr) (s : State) (hr0 : Frame F0 r0 s) (m0 : 0x2ffffffffffffe ||| F0 = F0) :
    FrameOut F0 r0 (execJtagInstruction instr s) := by
  refine FrameOut.comp hr0 ?_ m0
  unfold execJtagInstruction
  dsimp only
  repeat' (first
    | with_reducible exact Frame.refl _ _ | with_reducible apply jtagField_frame | with_reducible apply packageReset_frame
    | with_reducible apply Frame.next | with_reducible apply Frame.ite | split | exact Eq.refl _
    | with_reducible apply upd_pins)

/-- May change pins, regs, dual, ctrls, inflight, meas, measLog, measSeq, nvm, start, recorder. -/
theorem execTapReset_frame (s : State) (hr0 : Frame F0 r0 s) (m0 : 0x1a0070000346 ||| F0 = F0) :
    FrameOut F0 r0 (execTapReset s) := by
  refine FrameOut.comp hr0 ?_ m0
  unfold execTapReset
  dsimp only
  repeat' (first
    | with_reducible exact Frame.refl _ _ | with_reducible apply jtagField_frame | with_reducible apply beginStart_frame
    | with_reducible apply Frame.next | with_reducible apply Frame.ite | split | exact Eq.refl _
    | with_reducible apply upd_pins)

/-- May change regs, meas, measLog, measSeq. -/
theorem execDebugUnlock_frame (signed : Bool) (s : State) (hr0 : Frame F0 r0 s) (m0 : 0x70000004 ||| F0 = F0) :
    FrameOut F0 r0 (execDebugUnlock signed s) := by
  refine FrameOut.comp hr0 ?_ m0
  unfold execDebugUnlock
  dsimp only
  repeat' (first
    | with_reducible exact Frame.refl _ _ | with_reducible apply putF_frame | with_reducible apply extendMode_frame
    | with_reducible apply Frame.next | with_reducible apply Frame.ite | split | exact Eq.refl _)

/-- May change pins, regs, course, dual, links, ctrls, inflight, tenants, slices, meas, measLog, measSeq, nvm, power, start,
recorder. -/
theorem execImageVerified_frame (s : State) (hr0 : Frame F0 r0 s) (m0 : 0x1e00700213e6 ||| F0 = F0) :
    FrameOut F0 r0 (execImageVerified s) := by
  refine FrameOut.comp hr0 ?_ m0
  unfold execImageVerified
  repeat' (first
    | with_reducible exact Frame.refl _ _ | with_reducible apply imageVerified_frame | with_reducible apply Frame.next
    | with_reducible apply Frame.ite | split | exact Eq.refl _)

/-- May change regs, ctrls, inflight, slices, nvm. -/
theorem missingLuns_frame (s : State) (n : Nat) (hr0 : Frame F0 r0 s) (m0 : 0x20000020304 ||| F0 = F0) :
    Frame F0 r0 (State.missingLuns s n) := by
  refine Frame.comp hr0 ?_ m0
  unfold State.missingLuns
  dsimp only
  repeat' (first
    | with_reducible exact Frame.refl _ _ | (intro _) | with_reducible assumption | with_reducible apply lunFailed_frame
    | with_reducible apply Frame.foldl | exact Eq.refl _)

/-- May change pins, regs, ctrls, inflight, slices, nvm, power, recorder. -/
theorem rebuild_frame (s : State) (n : Nat) (hr0 : Frame F0 r0 s) (m0 : 0x160000020306 ||| F0 = F0) :
    Frame F0 r0 (State.rebuild s n) := by
  refine Frame.comp hr0 ?_ m0
  unfold State.rebuild
  dsimp only
  repeat' (first
    | with_reducible exact Frame.refl _ _ | with_reducible apply setStage_frame | with_reducible apply putF_frame
    | with_reducible apply sizeReserve_frame | with_reducible apply missingLuns_frame | with_reducible apply rebuildMap_frame
    | with_reducible apply notice_frame | with_reducible apply lostData_frame | with_reducible apply Frame.ite | split
    | exact Eq.refl _)

/-- May change pins, regs, ctrls, inflight, slices, nvm, power, recorder. -/
theorem execSliceRebuild_frame (slice : Nat) (s : State) (hr0 : Frame F0 r0 s) (m0 : 0x160000020306 ||| F0 = F0) :
    FrameOut F0 r0 (execSliceRebuild slice s) := by
  refine FrameOut.comp hr0 ?_ m0
  unfold execSliceRebuild
  repeat' (first
    | with_reducible exact Frame.refl _ _ | with_reducible apply rebuild_frame | with_reducible apply modSlice_frame
    | with_reducible apply Frame.next | with_reducible apply Frame.ite | exact SlmSame.of fun _ => rfl | split
    | exact Eq.refl _)

/-- May change pins, regs, ctrls, inflight, slices, invocations, digests, wearRateMax, nvm, power, start, recorder, fences, fresh,
slice-local memory. -/
theorem execSliceRebuildDone_frame (slice : Nat) (ok : Bool) (s : State) (hr0 : Frame F0 r0 s) (m0 : 0x283f0001060306 ||| F0 =
    F0) :
    FrameOut F0 r0 (execSliceRebuildDone slice ok s) := by
  refine FrameOut.comp hr0 ?_ m0
  unfold execSliceRebuildDone
  dsimp only
  repeat' (first
    | with_reducible exact Frame.refl _ _ | with_reducible apply closeInterval_frame | with_reducible apply modSlice_frame
    | with_reducible apply updateWearRate_frame | with_reducible apply openPools_frame | with_reducible apply evalSpare_frame
    | with_reducible apply putF_frame | with_reducible apply goOffline_frame | with_reducible apply reachReady_frame
    | with_reducible apply Frame.next | with_reducible apply Frame.ite | exact SlmSame.of fun _ => rfl | split
    | exact Eq.refl _)

/-- May change regs, ctrls, slices, nvm, start, recorder, fresh. -/
theorem execSliceLate_frame (slice : Nat) (s : State) (hr0 : Frame F0 r0 s) (m0 : 0x81a0000020104 ||| F0 = F0) :
    FrameOut F0 r0 (execSliceLate slice s) := by
  refine FrameOut.comp hr0 ?_ m0
  unfold execSliceLate
  dsimp only
  repeat' (first
    | with_reducible exact Frame.refl _ _ | with_reducible apply reachReady_frame | with_reducible apply openInterval_frame
    | with_reducible apply setBit_frame | with_reducible apply modSlice_frame | with_reducible apply Frame.next
    | with_reducible apply Frame.ite | exact SlmSame.of fun _ => rfl | split | exact Eq.refl _)

/-- May change pins, regs, latches, busRead, course, dual, links, ctrls, inflight, order, namespaces, tenants, leaving, deferred,
migs, slotWaits, slices, invocations, nextInv, hd, parks, hdQueue, ats, digests, digestWaits, digestOut, hubKey, meas, measLog,
measSeq, staged, spdmPeers, spdmSessions, spdmOut, entropyOk, groupAt, groupRecs, storeHdr, storeNext, wearRateMax, nvm, power,
start, recorder, fences, fenceCounts, fenceSoon, test, unfence, mgmt, fresh, slice-local memory. -/
theorem execStartWatchdog_frame (s : State) (hr0 : Frame F0 r0 s) (m0 : 0x2ffffffffffffe ||| F0 = F0) :
    FrameOut F0 r0 (execStartWatchdog s) := by
  refine FrameOut.comp hr0 ?_ m0
  unfold execStartWatchdog
  repeat' (first
    | with_reducible exact Frame.refl _ _ | with_reducible apply restart_frame | with_reducible apply Frame.next
    | with_reducible apply Frame.ite | split | exact Eq.refl _)

/-- May change pins, regs, latches, busRead, course, dual, links, ctrls, inflight, order, namespaces, tenants, leaving, deferred,
migs, slotWaits, slices, invocations, nextInv, hd, parks, hdQueue, ats, digests, digestWaits, digestOut, hubKey, meas, measLog,
measSeq, staged, spdmPeers, spdmSessions, spdmOut, entropyOk, groupAt, groupRecs, storeHdr, storeNext, wearRateMax, nvm, power,
start, recorder, fences, fenceCounts, fenceSoon, test, unfence, mgmt, fresh, slice-local memory. -/
theorem execHubFault_frame (s : State) (hr0 : Frame F0 r0 s) (m0 : 0x2ffffffffffffe ||| F0 = F0) :
    FrameOut F0 r0 (execHubFault s) := by
  refine FrameOut.comp hr0 ?_ m0
  unfold execHubFault
  repeat' (first
    | with_reducible exact Frame.refl _ _ | with_reducible apply restart_frame | with_reducible apply Frame.next
    | with_reducible apply Frame.ite | split | exact Eq.refl _)

/-- May change regs, nvm, recorder. -/
theorem execStartSuccess_frame (s : State) (hr0 : Frame F0 r0 s) (m0 : 0x120000000004 ||| F0 = F0) :
    FrameOut F0 r0 (execStartSuccess s) := by
  refine FrameOut.comp hr0 ?_ m0
  unfold execStartSuccess
  repeat' (first
    | with_reducible exact Frame.refl _ _ | with_reducible apply startSuccess_frame | with_reducible apply Frame.next
    | with_reducible apply Frame.ite | split | exact Eq.refl _)

/-- May change pins, regs, latches, busRead, course, dual, links, ctrls, inflight, order, namespaces, tenants, leaving, deferred,
migs, slotWaits, slices, invocations, nextInv, hd, parks, hdQueue, ats, digests, digestWaits, digestOut, hubKey, meas, measLog,
measSeq, staged, spdmPeers, spdmSessions, spdmOut, entropyOk, groupAt, groupRecs, storeHdr, storeNext, wearRateMax, nvm, power,
start, recorder, fences, fenceCounts, fenceSoon, test, unfence, mgmt, fresh, slice-local memory. -/
theorem packageFault_frame (s : State) (hr0 : Frame F0 r0 s) (m0 : 0x2ffffffffffffe ||| F0 = F0) :
    Frame F0 r0 (State.packageFault s) := by
  refine Frame.comp hr0 ?_ m0
  unfold State.packageFault
  dsimp only
  repeat' (first
    | with_reducible exact Frame.refl _ _ | (intro _) | with_reducible assumption | with_reducible apply stopWork_frame
    | with_reducible apply linkError_frame | with_reducible apply landSlice_frame | with_reducible apply modNvm_frame
    | with_reducible apply restart_frame | with_reducible apply Frame.ite | with_reducible apply Frame.foldl | split
    | exact Eq.refl _)

/-- May change course. -/
theorem clockStops_frame (s : State) (hr0 : Frame F0 r0 s) (m0 : 0x20 ||| F0 = F0) :
    Frame F0 r0 (State.clockStops s) := by
  refine Frame.comp hr0 ?_ m0
  unfold State.clockStops
  repeat' (first
    | with_reducible exact Frame.refl _ _ | with_reducible apply modCourse_frame | with_reducible apply Frame.ite | split
    | exact Eq.refl _)

/-- May change pins, regs, latches, busRead, course, dual, links, ctrls, inflight, order, namespaces, tenants, leaving, deferred,
migs, slotWaits, slices, invocations, nextInv, hd, parks, hdQueue, ats, digests, digestWaits, digestOut, hubKey, meas, measLog,
measSeq, staged, spdmPeers, spdmSessions, spdmOut, entropyOk, groupAt, groupRecs, storeHdr, storeNext, wearRateMax, nvm, power,
start, recorder, fences, fenceCounts, fenceSoon, test, unfence, mgmt, fresh, slice-local memory. -/
theorem execRefclkLost_frame (s : State) (hr0 : Frame F0 r0 s) (m0 : 0x2ffffffffffffe ||| F0 = F0) :
    FrameOut F0 r0 (execRefclkLost s) := by
  refine FrameOut.comp hr0 ?_ m0
  unfold execRefclkLost
  repeat' (first
    | with_reducible exact Frame.refl _ _ | with_reducible apply packageFault_frame | with_reducible apply clockStops_frame
    | with_reducible apply Frame.next | exact Eq.refl _)

/-- May change pins, regs, latches, busRead, course, dual, links, ctrls, inflight, order, namespaces, tenants, leaving, deferred,
migs, slotWaits, slices, invocations, nextInv, hd, parks, hdQueue, ats, digests, digestWaits, digestOut, hubKey, meas, measLog,
measSeq, staged, spdmPeers, spdmSessions, spdmOut, entropyOk, groupAt, groupRecs, storeHdr, storeNext, wearRateMax, nvm, power,
start, recorder, fences, fenceCounts, fenceSoon, test, unfence, mgmt, fresh, slice-local memory. -/
theorem execPackageFault_frame (kind : PkgFault) (s : State) (hr0 : Frame F0 r0 s) (m0 : 0x2ffffffffffffe ||| F0 = F0) :
    FrameOut F0 r0 (execPackageFault kind s) := by
  refine FrameOut.comp hr0 ?_ m0
  unfold execPackageFault
  repeat' (first
    | with_reducible exact Frame.refl _ _ | with_reducible apply packageFault_frame | with_reducible apply clockStops_frame
    | with_reducible apply Frame.next | split | exact Eq.refl _)

/-! ### Contain -/

/-- May change regs, inflight, slices, digests, fences. -/
theorem execDigestIdleTimeout_frame (inst : DgRef) (s : State) (hr0 : Frame F0 r0 s) (m0 : 0x200001020204 ||| F0 = F0) :
    FrameOut F0 r0 (execDigestIdleTimeout inst s) := by
  refine FrameOut.comp hr0 ?_ m0
  unfold execDigestIdleTimeout
  repeat' (first
    | with_reducible exact Frame.refl _ _ | with_reducible apply endInstance_frame | with_reducible apply Frame.next
    | exact Eq.refl _)

/-- May change regs, fresh. -/
theorem countSram_frame (s : State) (u : UnitId) (hr0 : Frame F0 r0 s) (m0 : 0x8000000000004 ||| F0 = F0) :
    Frame F0 r0 (State.countSram s u) := by
  refine Frame.comp hr0 ?_ m0
  unfold State.countSram
  dsimp only
  repeat' (first
    | with_reducible exact Frame.refl _ _ | with_reducible apply setBit_frame | with_reducible apply inc_frame
    | with_reducible apply free_frame | with_reducible apply wr64_frame | with_reducible apply wr_frame
    | with_reducible apply Frame.ite | split | exact Eq.refl _)

/-- May change pins, regs, links, ctrls, inflight, slices, invocations, digests, nvm, power, recorder, fences, fenceCounts,
fenceSoon, fresh, slice-local memory. -/
theorem faultNow_frame (s : State) (u : UnitId) (cause : FenceCause) (hr0 : Frame F0 r0 s) (m0 : 0x28f60001060386 ||| F0 = F0) :
    Frame F0 r0 (State.faultNow s u cause) := by
  refine Frame.comp hr0 ?_ m0
  unfold State.faultNow
  dsimp only
  repeat' (first
    | with_reducible exact Frame.refl _ _ | with_reducible apply countSram_frame | with_reducible apply fenceFault_frame
    | with_reducible apply Frame.ite | split | exact Eq.refl _ | with_reducible apply upd_fenceSoon)

/-- May change pins, regs, links, ctrls, inflight, slices, invocations, digests, nvm, power, recorder, fences, fenceCounts,
fenceSoon, fresh, slice-local memory. -/
theorem execFaultFence_frame (u : UnitId) (cause : FenceCause) (s : State) (hr0 : Frame F0 r0 s) (m0 : 0x28f60001060386 ||| F0 =
    F0) :
    FrameOut F0 r0 (execFaultFence u cause s) := by
  refine FrameOut.comp hr0 ?_ m0
  unfold execFaultFence
  repeat' (first
    | with_reducible exact Frame.refl _ _ | with_reducible apply faultNow_frame | with_reducible apply Frame.next
    | with_reducible apply Frame.stop | exact Eq.refl _)

/-- May change regs, test. -/
theorem testGo_frame (s : State) (u : UnitId) (hr0 : Frame F0 r0 s) (m0 : 0x1000000000004 ||| F0 = F0) :
    Frame F0 r0 (State.testGo s u) := by
  refine Frame.comp hr0 ?_ m0
  unfold State.testGo
  dsimp only
  repeat' (first
    | with_reducible exact Frame.refl _ _ | with_reducible apply wr_frame | with_reducible apply Frame.ite | split
    | exact Eq.refl _ | with_reducible apply upd_test)

/-- May change regs, test. -/
theorem execOnlineTestGo_frame (kind slice number : Nat) (s : State) (hr0 : Frame F0 r0 s) (m0 : 0x1000000000004 ||| F0 = F0) :
    FrameOut F0 r0 (execOnlineTestGo kind slice number s) := by
  refine FrameOut.comp hr0 ?_ m0
  unfold execOnlineTestGo
  repeat' (first
    | with_reducible exact Frame.refl _ _ | with_reducible apply testGo_frame | with_reducible apply Frame.next
    | exact Eq.refl _)

/-- May change regs, inflight, slices, invocations, digests, recorder, fences, slice-local memory. -/
theorem testFence_frame (s : State) (hr0 : Frame F0 r0 s) (m0 : 0x20300001060204 ||| F0 = F0) :
    Frame F0 r0 (State.testFence s) := by
  refine Frame.comp hr0 ?_ m0
  unfold State.testFence
  repeat' (first
    | with_reducible exact Frame.refl _ _ | with_reducible apply sealFence_frame | with_reducible apply takeOut_frame
    | with_reducible apply setFence_frame | with_reducible apply Frame.ite | split | exact Eq.refl _)

/-- May change regs, slices, fences, unfence. -/
theorem testReturn_frame (s : State) (hr0 : Frame F0 r0 s) (m0 : 0x2200000020004 ||| F0 = F0) :
    Frame F0 r0 (State.testReturn s) := by
  refine Frame.comp hr0 ?_ m0
  unfold State.testReturn
  dsimp only
  repeat' (first
    | with_reducible exact Frame.refl _ _ | (intro _) | with_reducible assumption | with_reducible apply setFence_frame
    | with_reducible apply reloadArray_frame | with_reducible apply Frame.ite | with_reducible apply Frame.foldl | split
    | exact Eq.refl _ | with_reducible apply upd_unfence)

/-- May change pins, regs, links, ctrls, inflight, slices, invocations, digests, nvm, power, recorder, fences, fenceCounts,
fenceSoon, test, unfence, fresh, slice-local memory. -/
theorem execOnlineTestDone_frame (pass : Bool) (s : State) (hr0 : Frame F0 r0 s) (m0 : 0x2bf60001060386 ||| F0 = F0) :
    FrameOut F0 r0 (execOnlineTestDone pass s) := by
  refine FrameOut.comp hr0 ?_ m0
  unfold execOnlineTestDone
  dsimp only
  repeat' (first
    | with_reducible exact Frame.refl _ _ | with_reducible apply putF_frame | with_reducible apply setBit_frame
    | with_reducible apply faultNow_frame | with_reducible apply Frame.next | with_reducible apply Frame.stop
    | with_reducible apply Frame.ite | split | exact Eq.refl _ | with_reducible apply upd_unfence
    | with_reducible apply upd_test)

/-- May change pins, regs, ctrls, inflight, slices, invocations, digests, nvm, power, recorder, fences, slice-local memory. -/
theorem execSliceOfflineRequest_frame (slice : Nat) (s : State) (hr0 : Frame F0 r0 s) (m0 : 0x20360001060306 ||| F0 = F0) :
    FrameOut F0 r0 (execSliceOfflineRequest slice s) := by
  refine FrameOut.comp hr0 ?_ m0
  unfold execSliceOfflineRequest
  repeat' (first
    | with_reducible exact Frame.refl _ _ | with_reducible apply goOffline_frame | with_reducible apply Frame.next
    | exact Eq.refl _)

/-- May change pins, regs, links, ctrls, inflight, slices, invocations, digests, nvm, power, recorder, fences, fenceCounts,
fenceSoon, fresh, slice-local memory. -/
theorem execSliceLinkFail_frame (slice : Nat) (s : State) (hr0 : Frame F0 r0 s) (m0 : 0x28f60001060386 ||| F0 = F0) :
    FrameOut F0 r0 (execSliceLinkFail slice s) := by
  refine FrameOut.comp hr0 ?_ m0
  unfold execSliceLinkFail
  repeat' (first
    | with_reducible exact Frame.refl _ _ | with_reducible apply faultNow_frame | with_reducible apply Frame.next
    | with_reducible apply Frame.stop | exact Eq.refl _)

/-! ### HdOps -/

/-- May change hd. -/
theorem modHd_frame (s : State) (c : Nat) (f : HdCh → HdCh) (hr0 : Frame F0 r0 s) (m0 : 0x100000 ||| F0 = F0) :
    Frame F0 r0 (State.modHd s c f) := by
  refine Frame.comp hr0 ?_ m0
  unfold State.modHd
  repeat' (first
    | with_reducible exact Frame.refl _ _ | exact Eq.refl _ | with_reducible apply upd_hd | exact modAt_length _ _ _
    | exact List.length_map _)

/-- May change hd. -/
theorem hdCarry_frame (s : State) (c : Nat) (t : Transfer) (hr0 : Frame F0 r0 s) (m0 : 0x100000 ||| F0 = F0) :
    Frame F0 r0 (State.hdCarry s c t) := by
  refine Frame.comp hr0 ?_ m0
  unfold State.hdCarry
  repeat' (first | with_reducible exact Frame.refl _ _ | with_reducible apply modHd_frame | exact Eq.refl _)

/-- May change hd, parks, hdQueue. -/
theorem hdPlace_frame (s : State) (t : Transfer) (hr0 : Frame F0 r0 s) (m0 : 0x700000 ||| F0 = F0) :
    Frame F0 r0 (State.hdPlace s t) := by
  refine Frame.comp hr0 ?_ m0
  unfold State.hdPlace
  repeat' (first
    | with_reducible exact Frame.refl _ _ | with_reducible apply hdCarry_frame | with_reducible apply Frame.ite | split
    | exact Eq.refl _ | with_reducible apply upd_hdQueue | with_reducible apply upd_parks)

/-- May change hd, parks, hdQueue. -/
theorem hdRefill_frame (s : State) (hr0 : Frame F0 r0 s) (m0 : 0x700000 ||| F0 = F0) :
    Frame F0 r0 (State.hdRefill s) := by
  refine Frame.comp hr0 ?_ m0
  unfold State.hdRefill
  dsimp only
  repeat' (first
    | with_reducible exact Frame.refl _ _ | (intro _) | with_reducible assumption | with_reducible apply hdPlace_frame
    | with_reducible apply Frame.foldl | exact Eq.refl _ | with_reducible apply upd_parks_hdQueue)

/-- May change course, hd, parks, hdQueue. -/
theorem hdTurn_frame (s : State) (hr0 : Frame F0 r0 s) (m0 : 0x700020 ||| F0 = F0) :
    Frame F0 r0 (State.hdTurn s) := by
  refine Frame.comp hr0 ?_ m0
  unfold State.hdTurn
  dsimp only
  repeat' (first
    | with_reducible exact Frame.refl _ _ | (intro _) | with_reducible assumption | with_reducible apply hdPlace_frame
    | with_reducible apply modCourse_frame | with_reducible apply Frame.foldl | exact Eq.refl _
    | with_reducible apply upd_hd_parks | exact modAt_length _ _ _ | exact List.length_map _
    | (simp only [List.length_append, List.length_map, List.length_take, List.length_drop]; omega))

/-- May change regs. -/
theorem hdNextProbe_frame (s : State) (c : Nat) (hr0 : Frame F0 r0 s) (m0 : 0x4 ||| F0 = F0) :
    Frame F0 r0 (State.hdNextProbe s c) := by
  refine Frame.comp hr0 ?_ m0
  unfold State.hdNextProbe
  repeat' (first
    | with_reducible exact Frame.refl _ _ | with_reducible apply putF_frame | with_reducible apply clrBit_frame | split
    | exact Eq.refl _)

/-- May change regs, hd. -/
theorem hdFree_frame (s : State) (c : Nat) (hr0 : Frame F0 r0 s) (m0 : 0x100004 ||| F0 = F0) :
    Frame F0 r0 (State.hdFree s c) := by
  refine Frame.comp hr0 ?_ m0
  unfold State.hdFree
  dsimp only
  repeat' (first
    | with_reducible exact Frame.refl _ _ | with_reducible apply modHd_frame | with_reducible apply clrBit_frame
    | with_reducible apply hdNextProbe_frame | with_reducible apply Frame.ite | split | exact Eq.refl _)

/-- May change regs, hd, parks, hdQueue. -/
theorem hdDrop_frame (s : State) (p : Transfer → Bool) (hr0 : Frame F0 r0 s) (m0 : 0x700004 ||| F0 = F0) :
    Frame F0 r0 (State.hdDrop s p) := by
  refine Frame.comp hr0 ?_ m0
  unfold State.hdDrop
  dsimp only
  repeat' (first
    | with_reducible exact Frame.refl _ _ | (intro _) | with_reducible assumption | with_reducible apply hdFree_frame
    | with_reducible apply Frame.foldl | exact Eq.refl _ | with_reducible apply upd_parks_hdQueue)

/-- May change regs, hd, parks, hdQueue. -/
theorem hdEnd_frame (s : State) (h : Hdr) (hr0 : Frame F0 r0 s) (m0 : 0x700004 ||| F0 = F0) :
    Frame F0 r0 (State.hdEnd s h) := by
  refine Frame.comp hr0 ?_ m0
  unfold State.hdEnd
  repeat' (first
    | with_reducible exact Frame.refl _ _ | with_reducible apply hdRefill_frame | with_reducible apply hdDrop_frame
    | exact Eq.refl _)

/-- May change ats. -/
theorem translate_frame (s : State) (c : Nat) (bufs : List (Nat × Nat)) (hr0 : Frame F0 r0 s) (m0 : 0x800000 ||| F0 = F0) :
    Frame F0 r0 (State.translate s c bufs) := by
  refine Frame.comp hr0 ?_ m0
  unfold State.translate
  dsimp only
  repeat' (first | with_reducible exact Frame.refl _ _ | exact Eq.refl _ | with_reducible apply upd_ats)

/-- May change regs, hd, parks, hdQueue, ats. -/
theorem hdStart_frame (s : State) (h : Hdr) (kind : Nat) (toHost : Bool) (bufs : List (Nat × Nat)) (hr0 : Frame F0 r0 s) (m0 :
    0xf00004 ||| F0 = F0) :
    Frame F0 r0 (State.hdStart s h kind toHost bufs) := by
  refine Frame.comp hr0 ?_ m0
  unfold State.hdStart
  repeat' (first
    | with_reducible exact Frame.refl _ _ | with_reducible apply hdPlace_frame | with_reducible apply translate_frame
    | with_reducible apply hdEnd_frame | exact Eq.refl _)

/-- May change regs, hd, parks, hdQueue, ats. -/
theorem dataIn_frame (s : State) (h : Hdr) (bytes : Nat) (hr0 : Frame F0 r0 s) (m0 : 0xf00004 ||| F0 = F0) :
    Frame F0 r0 (State.dataIn s h bytes) := by
  refine Frame.comp hr0 ?_ m0
  unfold State.dataIn
  repeat' (first
    | with_reducible exact Frame.refl _ _ | with_reducible apply hdStart_frame | with_reducible apply Frame.ite | split
    | exact Eq.refl _)

/-- May change regs, hd, parks, hdQueue, ats. -/
theorem dataOut_frame (s : State) (h : Hdr) (bytes : Nat) (hr0 : Frame F0 r0 s) (m0 : 0xf00004 ||| F0 = F0) :
    Frame F0 r0 (State.dataOut s h bytes) := by
  refine Frame.comp hr0 ?_ m0
  unfold State.dataOut
  repeat' (first
    | with_reducible exact Frame.refl _ _ | with_reducible apply hdStart_frame | with_reducible apply Frame.ite | split
    | exact Eq.refl _)

/-- May change regs, hd. -/
theorem hdAccount_frame (s : State) (hr0 : Frame F0 r0 s) (m0 : 0x100004 ||| F0 = F0) :
    Frame F0 r0 (State.hdAccount s) := by
  refine Frame.comp hr0 ?_ m0
  unfold State.hdAccount
  dsimp only
  repeat' (first
    | with_reducible exact Frame.refl _ _ | (intro _) | with_reducible assumption | with_reducible apply putF_frame
    | with_reducible apply modHd_frame | with_reducible apply Frame.ite | with_reducible apply Frame.foldl | split
    | exact Eq.refl _)

/-- May change regs. -/
theorem hdRecord_frame (s : State) (c : Nat) (cause : BusCause) (merged : Bool) (owner : Nat) (hr0 : Frame F0 r0 s) (m0 : 0x4
    ||| F0 = F0) :
    Frame F0 r0 (State.hdRecord s c cause merged owner) := by
  refine Frame.comp hr0 ?_ m0
  unfold State.hdRecord
  repeat' (first
    | with_reducible exact Frame.refl _ _ | with_reducible apply wr_frame | with_reducible apply Frame.ite | split
    | exact Eq.refl _)

/-- May change slices, nvm. -/
theorem undoBlock_frame (s : State) (q : Undo) (hr0 : Frame F0 r0 s) (m0 : 0x20000020000 ||| F0 = F0) :
    Frame F0 r0 (State.undoBlock s q) := by
  refine Frame.comp hr0 ?_ m0
  unfold State.undoBlock
  dsimp only
  repeat' (first
    | with_reducible exact Frame.refl _ _ | with_reducible apply modNvm_frame | with_reducible apply modSlice_frame
    | with_reducible apply Frame.ite | exact SlmSame.of fun _ => rfl
    | (refine SlmSame.of fun x => ?_; simp [apply_ite Slice.slm]; done)
    | (refine SlmSame.of fun x => ?_; (try dsimp only); apply slm_foldl; intro _ _; simp; done)
    | (refine SlmSame.of fun x => ?_; (repeat' (first | rfl | (simp [apply_ite Slice.slm]; done) | split)); done) | split
    | exact Eq.refl _)

/-- May change slices, nvm. -/
theorem undoWrite_frame (s : State) (h : Hdr) (lines : Nat) (hr0 : Frame F0 r0 s) (m0 : 0x20000020000 ||| F0 = F0) :
    Frame F0 r0 (State.undoWrite s h lines) := by
  refine Frame.comp hr0 ?_ m0
  unfold State.undoWrite
  dsimp only
  repeat' (first
    | with_reducible exact Frame.refl _ _ | (intro _) | with_reducible assumption | with_reducible apply undoBlock_frame
    | with_reducible apply Frame.foldl | split | exact Eq.refl _)

/-- May change inflight, slices, hd, parks, hdQueue, nvm. -/
theorem hdFail_frame (s : State) (c : Nat) (hr0 : Frame F0 r0 s) (m0 : 0x20000720200 ||| F0 = F0) :
    Frame F0 r0 (State.hdFail s c) := by
  refine Frame.comp hr0 ?_ m0
  unfold State.hdFail
  dsimp only
  repeat' (first
    | with_reducible exact Frame.refl _ _ | with_reducible apply modHd_frame | with_reducible apply hdRefill_frame
    | with_reducible apply finish_frame | with_reducible apply undoWrite_frame | split | exact Eq.refl _)

/-- May change regs, hd. -/
theorem hdCtlWrite_frame (s : State) (ch : Nat) (v : Word) (hr0 : Frame F0 r0 s) (m0 : 0x100004 ||| F0 = F0) :
    Frame F0 r0 (State.hdCtlWrite s ch v) := by
  refine Frame.comp hr0 ?_ m0
  unfold State.hdCtlWrite
  repeat' (first
    | with_reducible exact Frame.refl _ _ | with_reducible apply setBit_frame | with_reducible apply modHd_frame
    | with_reducible apply Frame.ite | split | exact Eq.refl _)

/-- May change regs, hd. -/
theorem hdApplyCtl_frame (s : State) (hr0 : Frame F0 r0 s) (m0 : 0x100004 ||| F0 = F0) :
    Frame F0 r0 (State.hdApplyCtl s) := by
  refine Frame.comp hr0 ?_ m0
  unfold State.hdApplyCtl
  repeat' (first
    | with_reducible exact Frame.refl _ _ | (intro _) | with_reducible assumption | with_reducible apply modHd_frame
    | with_reducible apply wr_frame | with_reducible apply Frame.foldl | split | exact Eq.refl _)

/-- May change course, hd, parks, hdQueue. -/
theorem hdMove_frame (s : State) (c : Nat) (hr0 : Frame F0 r0 s) (m0 : 0x700020 ||| F0 = F0) :
    Frame F0 r0 (State.hdMove s c) := by
  refine Frame.comp hr0 ?_ m0
  unfold State.hdMove
  dsimp only
  repeat' (first
    | with_reducible exact Frame.refl _ _ | with_reducible apply modCourse_frame | with_reducible apply modHd_frame
    | with_reducible apply hdRefill_frame | with_reducible apply Frame.ite | split | exact Eq.refl _)

/-- May change course, hd, parks, hdQueue. -/
theorem hdGrant_frame (s : State) (w : FlWindow) (toHost : Bool) (ready : List Nat) (hr0 : Frame F0 r0 s) (m0 : 0x700020 ||| F0
    = F0) :
    Frame F0 r0 (State.hdGrant s w toHost ready) := by
  refine Frame.comp hr0 ?_ m0
  unfold State.hdGrant
  dsimp only
  repeat' (first
    | with_reducible exact Frame.refl _ _ | (intro _) | with_reducible assumption | with_reducible apply hdMove_frame
    | with_reducible apply modHd_frame | with_reducible apply Frame.ite | with_reducible apply Frame.foldl | split
    | exact Eq.refl _)

/-- May change course, hd, parks, hdQueue. -/
theorem hdBeat_frame (s : State) (ready : List Nat) (hr0 : Frame F0 r0 s) (m0 : 0x700020 ||| F0 = F0) :
    Frame F0 r0 (State.hdBeat s ready) := by
  refine Frame.comp hr0 ?_ m0
  unfold State.hdBeat
  dsimp only
  repeat' (first
    | with_reducible exact Frame.refl _ _ | with_reducible apply modCourse_frame | with_reducible apply hdGrant_frame | split
    | exact Eq.refl _)

/-! ### Dram -/

/-- May change slices. -/
theorem modDram_frame (s : State) (n c : Nat) (f : Dram → Dram) (hr0 : Frame F0 r0 s) (m0 : 0x20000 ||| F0 = F0) :
    Frame F0 r0 (State.modDram s n c f) := by
  refine Frame.comp hr0 ?_ m0
  unfold State.modDram
  repeat' (first
    | with_reducible exact Frame.refl _ _ | with_reducible apply modSlice_frame | exact SlmSame.of fun _ => rfl
    | exact Eq.refl _)

/-- May change regs, slices. -/
theorem noteTraining_frame (s : State) (n c : Nat) (hr0 : Frame F0 r0 s) (m0 : 0x20004 ||| F0 = F0) :
    Frame F0 r0 (State.noteTraining s n c) := by
  refine Frame.comp hr0 ?_ m0
  unfold State.noteTraining
  dsimp only
  repeat' (first
    | with_reducible exact Frame.refl _ _ | with_reducible apply modDram_frame | with_reducible apply putF_frame
    | exact Eq.refl _)

/-- May change pins, regs, links, ctrls, inflight, slices, invocations, digests, nvm, power, recorder, fences, fenceCounts,
slice-local memory. -/
theorem execDramChannelStart_frame (slice ch trainFails selftest : Nat) (s : State) (hr0 : Frame F0 r0 s) (m0 : 0x20760001060386
    ||| F0 = F0) :
    FrameOut F0 r0 (execDramChannelStart slice ch trainFails selftest s) := by
  refine FrameOut.comp hr0 ?_ m0
  unfold execDramChannelStart
  dsimp only
  repeat' (first
    | with_reducible exact Frame.refl _ _ | with_reducible apply putF_frame | with_reducible apply fenceFault_frame
    | with_reducible apply setBit_frame | with_reducible apply noteTraining_frame | with_reducible apply Frame.next
    | with_reducible apply Frame.ite | split | exact Eq.refl _)

/-- May change regs, course. -/
theorem execDramRefresh_frame (waitNs : Nat) (s : State) (hr0 : Frame F0 r0 s) (m0 : 0x24 ||| F0 = F0) :
    FrameOut F0 r0 (execDramRefresh waitNs s) := by
  refine FrameOut.comp hr0 ?_ m0
  unfold execDramRefresh
  dsimp only
  repeat' (first
    | with_reducible exact Frame.refl _ _ | (intro _) | with_reducible assumption | with_reducible apply modCourse_frame
    | with_reducible apply wr_frame | with_reducible apply Frame.next | with_reducible apply Frame.ite
    | with_reducible apply Frame.foldl | split | exact Eq.refl _)

/-- May change regs, slices. -/
theorem dramCourse_frame (s : State) (n c : Nat) (hr0 : Frame F0 r0 s) (m0 : 0x20004 ||| F0 = F0) :
    Frame F0 r0 (State.dramCourse s n c) := by
  refine Frame.comp hr0 ?_ m0
  unfold State.dramCourse
  dsimp only
  repeat' (first
    | with_reducible exact Frame.refl _ _ | (intro _) | with_reducible assumption | with_reducible apply modDram_frame
    | with_reducible apply inc_frame | with_reducible apply setBit_frame | with_reducible apply Frame.ite
    | with_reducible apply Frame.foldl | split | exact Eq.refl _)

/-- May change slices. -/
theorem drainWrites_frame (s : State) (n c : Nat) (hr0 : Frame F0 r0 s) (m0 : 0x20000 ||| F0 = F0) :
    Frame F0 r0 (State.drainWrites s n c) := by
  refine Frame.comp hr0 ?_ m0
  unfold State.drainWrites
  repeat' (first | with_reducible exact Frame.refl _ _ | with_reducible apply modDram_frame | exact Eq.refl _)

/-- May change nothing. -/
theorem execDramZqCal_frame (s : State) (hr0 : Frame F0 r0 s) (m0 : 0x0 ||| F0 = F0) :
    FrameOut F0 r0 (execDramZqCal s) := by
  refine FrameOut.comp hr0 ?_ m0
  unfold execDramZqCal
  repeat' (first | with_reducible exact Frame.refl _ _ | with_reducible apply Frame.next | exact Eq.refl _)

/-- May change slices. -/
theorem dueRetrain_frame (s : State) (n c : Nat) (hr0 : Frame F0 r0 s) (m0 : 0x20000 ||| F0 = F0) :
    Frame F0 r0 (State.dueRetrain s n c) := by
  refine Frame.comp hr0 ?_ m0
  unfold State.dueRetrain
  repeat' (first
    | with_reducible exact Frame.refl _ _ | with_reducible apply modDram_frame | with_reducible apply Frame.ite | split
    | exact Eq.refl _)

/-- May change slices. -/
theorem execDramRetrainDue_frame (slice ch : Nat) (s : State) (hr0 : Frame F0 r0 s) (m0 : 0x20000 ||| F0 = F0) :
    FrameOut F0 r0 (execDramRetrainDue slice ch s) := by
  refine FrameOut.comp hr0 ?_ m0
  unfold execDramRetrainDue
  repeat' (first
    | with_reducible exact Frame.refl _ _ | with_reducible apply dueRetrain_frame | with_reducible apply Frame.next
    | exact Eq.refl _)

/-- May change slices. -/
theorem execDramRetrain_frame (slice ch : Nat) (s : State) (hr0 : Frame F0 r0 s) (m0 : 0x20000 ||| F0 = F0) :
    FrameOut F0 r0 (execDramRetrain slice ch s) := by
  refine FrameOut.comp hr0 ?_ m0
  unfold execDramRetrain
  repeat' (first
    | with_reducible exact Frame.refl _ _ | with_reducible apply dueRetrain_frame | with_reducible apply Frame.next
    | exact Eq.refl _)

/-- May change slices. -/
theorem execRetrainHoldExpiry_frame (slice ch : Nat) (s : State) (hr0 : Frame F0 r0 s) (m0 : 0x20000 ||| F0 = F0) :
    FrameOut F0 r0 (execRetrainHoldExpiry slice ch s) := by
  refine FrameOut.comp hr0 ?_ m0
  unfold execRetrainHoldExpiry
  repeat' (first
    | with_reducible exact Frame.refl _ _ | with_reducible apply modDram_frame | with_reducible apply Frame.next
    | with_reducible apply Frame.ite | split | exact Eq.refl _)

/-- May change regs, slices. -/
theorem openRetrains_frame (s : State) (hr0 : Frame F0 r0 s) (m0 : 0x20004 ||| F0 = F0) :
    Frame F0 r0 (State.openRetrains s) := by
  refine Frame.comp hr0 ?_ m0
  unfold State.openRetrains
  repeat' (first
    | with_reducible exact Frame.refl _ _ | (intro _) | with_reducible assumption | with_reducible apply modDram_frame
    | with_reducible apply putF_frame | with_reducible apply drainWrites_frame | with_reducible apply Frame.ite
    | with_reducible apply Frame.foldl | split | exact Eq.refl _)

/-- May change pins, regs, links, ctrls, inflight, slices, invocations, digests, nvm, power, recorder, fences, fenceCounts,
slice-local memory. -/
theorem execDramRetrainDone_frame (slice ch : Nat) (working : Bool) (s : State) (hr0 : Frame F0 r0 s) (m0 : 0x20760001060386 |||
    F0 = F0) :
    FrameOut F0 r0 (execDramRetrainDone slice ch working s) := by
  refine FrameOut.comp hr0 ?_ m0
  unfold execDramRetrainDone
  repeat' (first
    | with_reducible exact Frame.refl _ _ | with_reducible apply setBit_frame | with_reducible apply noteTraining_frame
    | with_reducible apply putF_frame | with_reducible apply fenceFault_frame | with_reducible apply addF_frame
    | with_reducible apply Frame.next | with_reducible apply Frame.ite | split | exact Eq.refl _)

/-- May change regs, slices. -/
theorem refreshModes_frame (s : State) (hot : List Nat) (hr0 : Frame F0 r0 s) (m0 : 0x20004 ||| F0 = F0) :
    Frame F0 r0 (State.refreshModes s hot) := by
  refine Frame.comp hr0 ?_ m0
  unfold State.refreshModes
  dsimp only
  repeat' (first
    | with_reducible exact Frame.refl _ _ | (intro _) | with_reducible assumption | with_reducible apply modDram_frame
    | with_reducible apply setBit_frame | with_reducible apply putBit_frame | with_reducible apply Frame.ite
    | with_reducible apply Frame.foldl | split | exact Eq.refl _)

/-- May change regs. -/
theorem countUe_frame (s : State) (n c burst : Nat) (hr0 : Frame F0 r0 s) (m0 : 0x4 ||| F0 = F0) :
    Frame F0 r0 (State.countUe s n c burst) := by
  refine Frame.comp hr0 ?_ m0
  unfold State.countUe
  dsimp only
  repeat' (first
    | with_reducible exact Frame.refl _ _ | with_reducible apply setBit_frame | with_reducible apply inc_frame
    | with_reducible apply wr64_frame | with_reducible apply wr_frame | with_reducible apply Frame.ite | split
    | exact Eq.refl _)

/-- May change regs, slices. -/
theorem execMergeEntryTimeout_frame (slice ch burst : Nat) (readOk : Bool) (s : State) (hr0 : Frame F0 r0 s) (m0 : 0x20004 |||
    F0 = F0) :
    FrameOut F0 r0 (execMergeEntryTimeout slice ch burst readOk s) := by
  refine FrameOut.comp hr0 ?_ m0
  unfold execMergeEntryTimeout
  dsimp only
  repeat' (first
    | with_reducible exact Frame.refl _ _ | with_reducible apply modSlice_frame | with_reducible apply inc_frame
    | with_reducible apply modDram_frame | with_reducible apply countUe_frame | with_reducible apply Frame.next
    | with_reducible apply Frame.ite | exact SlmSame.of fun _ => rfl | split | exact Eq.refl _)

/-- May change regs. -/
theorem scrubGo_frame (s : State) (n : Nat) (hr0 : Frame F0 r0 s) (m0 : 0x4 ||| F0 = F0) :
    Frame F0 r0 (State.scrubGo s n) := by
  refine Frame.comp hr0 ?_ m0
  unfold State.scrubGo
  dsimp only
  repeat' (first
    | with_reducible exact Frame.refl _ _ | (intro _) | with_reducible assumption | with_reducible apply wr_frame
    | with_reducible apply wr64_frame | with_reducible apply Frame.ite | with_reducible apply Frame.foldl | split
    | exact Eq.refl _)

/-- May change regs. -/
theorem execScrubGo_frame (slice : Nat) (s : State) (hr0 : Frame F0 r0 s) (m0 : 0x4 ||| F0 = F0) :
    FrameOut F0 r0 (execScrubGo slice s) := by
  refine FrameOut.comp hr0 ?_ m0
  unfold execScrubGo
  repeat' (first
    | with_reducible exact Frame.refl _ _ | with_reducible apply scrubGo_frame | with_reducible apply Frame.next
    | exact Eq.refl _)

/-- May change regs, fresh. -/
theorem scrubStop_frame (s : State) (n : Nat) (hr0 : Frame F0 r0 s) (m0 : 0x8000000000004 ||| F0 = F0) :
    Frame F0 r0 (State.scrubStop s n) := by
  refine Frame.comp hr0 ?_ m0
  unfold State.scrubStop
  dsimp only
  repeat' (first
    | with_reducible exact Frame.refl _ _ | (intro _) | with_reducible assumption | with_reducible apply free_frame
    | with_reducible apply wr_frame | with_reducible apply wr64_frame | with_reducible apply setBit_frame
    | with_reducible apply Frame.ite | with_reducible apply Frame.foldl | split | exact Eq.refl _)

/-- May change regs, fresh. -/
theorem execScrubStop_frame (slice : Nat) (s : State) (hr0 : Frame F0 r0 s) (m0 : 0x8000000000004 ||| F0 = F0) :
    FrameOut F0 r0 (execScrubStop slice s) := by
  refine FrameOut.comp hr0 ?_ m0
  unfold execScrubStop
  repeat' (first
    | with_reducible exact Frame.refl _ _ | with_reducible apply scrubStop_frame | with_reducible apply Frame.next
    | exact Eq.refl _)

/-- May change regs, fresh. -/
theorem countCe_frame (s : State) (n ce : Nat) (hr0 : Frame F0 r0 s) (m0 : 0x8000000000004 ||| F0 = F0) :
    Frame F0 r0 (State.countCe s n ce) := by
  refine Frame.comp hr0 ?_ m0
  unfold State.countCe
  dsimp only
  repeat' (first
    | with_reducible exact Frame.refl _ _ | (intro _) | with_reducible assumption | with_reducible apply free_frame
    | with_reducible apply setBit_frame | with_reducible apply addF_frame | with_reducible apply Frame.ite
    | with_reducible apply Frame.foldl | with_reducible apply Frame.foldl_fst | split | exact Eq.refl _)

/-- May change regs, fresh. -/
theorem scrubbed_frame (s : State) (n ce : Nat) (ue : List Nat) (hr0 : Frame F0 r0 s) (m0 : 0x8000000000004 ||| F0 = F0) :
    Frame F0 r0 (State.scrubbed s n ce ue) := by
  refine Frame.comp hr0 ?_ m0
  unfold State.scrubbed
  dsimp only
  repeat' (first
    | with_reducible exact Frame.refl _ _ | (intro _) | with_reducible assumption | with_reducible apply countCe_frame
    | with_reducible apply wr_frame | with_reducible apply wr64_frame | with_reducible apply countUe_frame
    | with_reducible apply Frame.foldl | exact Eq.refl _)

/-- May change regs, fresh. -/
theorem execScrubDone_frame (slice ce : Nat) (ue : List Nat) (s : State) (hr0 : Frame F0 r0 s) (m0 : 0x8000000000004 ||| F0 =
    F0) :
    FrameOut F0 r0 (execScrubDone slice ce ue s) := by
  refine FrameOut.comp hr0 ?_ m0
  unfold execScrubDone
  dsimp only
  repeat' (first
    | with_reducible exact Frame.refl _ _ | with_reducible apply wr_frame | with_reducible apply setBit_frame
    | with_reducible apply scrubbed_frame | with_reducible apply Frame.next | with_reducible apply Frame.ite | split
    | exact Eq.refl _)

/-! ### HostDma -/

/-- May change course, hd, parks, hdQueue. -/
theorem execHostDmaBeat_frame (ready : List Nat) (s : State) (hr0 : Frame F0 r0 s) (m0 : 0x700020 ||| F0 = F0) :
    FrameOut F0 r0 (execHostDmaBeat ready s) := by
  refine FrameOut.comp hr0 ?_ m0
  unfold execHostDmaBeat
  repeat' (first
    | with_reducible exact Frame.refl _ _ | with_reducible apply hdBeat_frame | with_reducible apply Frame.next
    | exact Eq.refl _)

/-- May change regs, inflight, slices, hd, parks, hdQueue, nvm. -/
theorem hdDataError_frame (s : State) (ch : Nat) (cause : BusCause) (hr0 : Frame F0 r0 s) (m0 : 0x20000720204 ||| F0 = F0) :
    Frame F0 r0 (State.hdDataError s ch cause) := by
  refine Frame.comp hr0 ?_ m0
  unfold State.hdDataError
  repeat' (first
    | with_reducible exact Frame.refl _ _ | with_reducible apply hdFail_frame | with_reducible apply hdRecord_frame
    | with_reducible apply setBit_frame | split | exact Eq.refl _)

/-- May change regs. -/
theorem hdStop_frame (s : State) (suspects : List Nat) (hr0 : Frame F0 r0 s) (m0 : 0x4 ||| F0 = F0) :
    Frame F0 r0 (State.hdStop s suspects) := by
  refine Frame.comp hr0 ?_ m0
  unfold State.hdStop
  dsimp only
  repeat' (first
    | with_reducible exact Frame.refl _ _ | with_reducible apply wr_frame | with_reducible apply inc_frame
    | with_reducible apply setBit_frame | with_reducible apply putF_frame | with_reducible apply Frame.ite | split
    | exact Eq.refl _)

/-- May change regs, inflight, slices, hd, parks, hdQueue, nvm. -/
theorem execBusError_frame (ch : Nat) (cause : BusCause) (merged : List Nat) (s : State) (hr0 : Frame F0 r0 s) (m0 :
    0x20000720204 ||| F0 = F0) :
    FrameOut F0 r0 (execBusError ch cause merged s) := by
  refine FrameOut.comp hr0 ?_ m0
  unfold execBusError
  dsimp only
  repeat' (first
    | with_reducible exact Frame.refl _ _ | with_reducible apply hdDataError_frame | with_reducible apply hdStop_frame
    | with_reducible apply Frame.next | with_reducible apply Frame.ite | split | exact Eq.refl _)

/-- May change regs, inflight, slices, hd, parks, hdQueue, nvm. -/
theorem execProbeComplete_frame (ok : Bool) (cause : BusCause) (ns : Nat) (s : State) (hr0 : Frame F0 r0 s) (m0 : 0x20000720204
    ||| F0 = F0) :
    FrameOut F0 r0 (execProbeComplete ok cause ns s) := by
  refine FrameOut.comp hr0 ?_ m0
  unfold execProbeComplete
  dsimp only
  repeat' (first
    | with_reducible exact Frame.refl _ _ | with_reducible apply hdFail_frame | with_reducible apply hdRecord_frame
    | with_reducible apply inc_frame | with_reducible apply setBit_frame | with_reducible apply hdNextProbe_frame
    | with_reducible apply wr_frame | with_reducible apply Frame.next | with_reducible apply Frame.ite | split
    | exact Eq.refl _)

/-- May change regs, hd. -/
theorem execHdChCtlWrite_frame (ch : Nat) (value : BitVec 32) (s : State) (hr0 : Frame F0 r0 s) (m0 : 0x100004 ||| F0 = F0) :
    FrameOut F0 r0 (execHdChCtlWrite ch value s) := by
  refine FrameOut.comp hr0 ?_ m0
  unfold execHdChCtlWrite
  repeat' (first
    | with_reducible exact Frame.refl _ _ | with_reducible apply hdCtlWrite_frame | with_reducible apply Frame.next
    | exact Eq.refl _)

end Sys2Proof.Laws
end

