-- ==== Sys2Proof/Laws/FrameHost.lean ====
section
/-!
SUPPORT. What each operation may change: tenants, migration, the host port and the block commands.
-/

namespace Sys2Proof.Laws

open Sys2Proof.Machine

variable {F0 : Nat} {r0 : State}

theorem written_foldl {F : Nat} {r : State} {α : Type} {f : Machine.Written → α → Machine.Written} (l : List α)
    (s : Machine.Written)
    (h : Frame F r s.state) (hf : ∀ t a, Frame F r t.state → Frame F r (f t a).state) : Frame F r (l.foldl f s).state := by
  induction l generalizing s with
  | nil => exact h
  | cons a l ih => exact ih _ (hf _ _ h)

/-! ### TenantOps -/

/-- May change inflight. -/
theorem managed_frame (s : State) (h : Hdr) (f : State → State) (hr0 : Frame F0 r0 s) (m0 : 0x200 ||| F0 = F0) (h_f : ∀ t, Frame
    F0 r0 t → Frame F0 r0 (f t)) :
    Frame F0 r0 (State.managed s h f) := by
  unfold State.managed
  repeat' (first
    | with_reducible exact hr0 | with_reducible apply h_f | (intro _) | with_reducible assumption
    | with_reducible apply run_frame | with_reducible apply finish_frame | with_reducible apply Frame.ite | split
    | exact mask_or ‹_› rfl)

/-- May change inflight. -/
theorem serial_frame (s : State) (h : Hdr) (f : State → State) (hr0 : Frame F0 r0 s) (m0 : 0x200 ||| F0 = F0) (h_f : ∀ t, Frame
    F0 r0 t → Frame F0 r0 (f t)) :
    Frame F0 r0 (State.serial s h f) := by
  unfold State.serial
  repeat' (first
    | with_reducible exact hr0 | with_reducible apply h_f | (intro _) | with_reducible assumption
    | with_reducible apply managed_frame | with_reducible apply hold_frame | with_reducible apply Frame.ite | split
    | exact mask_or ‹_› rfl)

/-- May change inflight. -/
theorem failTm_frame (s : State) (h : Hdr) (k : Nat) (hr0 : Frame F0 r0 s) (m0 : 0x200 ||| F0 = F0) :
    Frame F0 r0 (State.failTm s h k) := by
  refine Frame.comp hr0 ?_ m0
  unfold State.failTm
  repeat' (first | with_reducible exact Frame.refl _ _ | with_reducible apply finish_frame | exact Eq.refl _)

/-- May change inflight. -/
theorem tmAct_frame (s : State) (h : Hdr) (ti : Nat) (ok : TiState → Option Nat) (f : State → State) (hr0 : Frame F0 r0 s) (m0 :
    0x200 ||| F0 = F0) (h_f : ∀ t, Frame F0 r0 t → Frame F0 r0 (f t)) :
    Frame F0 r0 (State.tmAct s h ti ok f) := by
  unfold State.tmAct
  repeat' (first
    | with_reducible exact hr0 | with_reducible apply h_f | (intro _) | with_reducible assumption
    | with_reducible apply serial_frame | with_reducible apply failTm_frame | with_reducible apply Frame.ite | split
    | exact mask_or ‹_› rfl)

/-- May change regs, inflight, deferred, slices, invocations, hd, parks, hdQueue, digests, digestWaits, storeHdr, storeNext, fences.
-/
theorem dropWork_frame (s : State) (c : Nat) (hr0 : Frame F0 r0 s) (m0 : 0x20c003764204 ||| F0 = F0) :
    Frame F0 r0 (State.dropWork s c) := by
  refine Frame.comp hr0 ?_ m0
  unfold State.dropWork
  dsimp only
  repeat' (first
    | with_reducible exact Frame.refl _ _ | (intro _) | with_reducible assumption | with_reducible apply freeInvocation_frame
    | with_reducible apply discardAll_frame | with_reducible apply abandonAll_frame | with_reducible apply hdRefill_frame
    | with_reducible apply hdDrop_frame | with_reducible apply Frame.foldl | exact Eq.refl _
    | with_reducible apply upd_deferred_digestWaits_storeHdr_storeNext)

/-- May change regs, ctrls, inflight, deferred, slices, invocations, hd, parks, hdQueue, digests, digestWaits, storeHdr, storeNext,
fences. -/
theorem resetCtrl_frame (s : State) (c : Nat) (hr0 : Frame F0 r0 s) (m0 : 0x20c003764304 ||| F0 = F0) :
    Frame F0 r0 (State.resetCtrl s c) := by
  refine Frame.comp hr0 ?_ m0
  unfold State.resetCtrl
  repeat' (first
    | with_reducible exact Frame.refl _ _ | with_reducible apply modCtrl_frame | with_reducible apply discard_frame
    | with_reducible apply dropWork_frame | exact Eq.refl _)

/-- May change regs, ctrls, inflight, deferred, slices, invocations, hd, parks, hdQueue, digests, digestWaits, storeHdr, storeNext,
fences. -/
theorem resetTenant_frame (s : State) (ti : Nat) (hr0 : Frame F0 r0 s) (m0 : 0x20c003764304 ||| F0 = F0) :
    Frame F0 r0 (State.resetTenant s ti) := by
  refine Frame.comp hr0 ?_ m0
  unfold State.resetTenant
  repeat' (first
    | with_reducible exact Frame.refl _ _ | (intro _) | with_reducible assumption | with_reducible apply resetCtrl_frame
    | with_reducible apply Frame.foldl | exact Eq.refl _)

/-- May change regs. -/
theorem nextGen_frame (s : State) (ti : Nat) (hr0 : Frame F0 r0 s) (m0 : 0x4 ||| F0 = F0) :
    Frame F0 r0 (State.nextGen s ti) := by
  refine Frame.comp hr0 ?_ m0
  unfold State.nextGen
  repeat' (first | with_reducible exact Frame.refl _ _ | with_reducible apply wr_frame | exact Eq.refl _)

/-- May change regs, course. -/
theorem requestCommit_frame (s : State) (hr0 : Frame F0 r0 s) (m0 : 0x24 ||| F0 = F0) :
    Frame F0 r0 (State.requestCommit s) := by
  refine Frame.comp hr0 ?_ m0
  unfold State.requestCommit
  repeat' (first
    | with_reducible exact Frame.refl _ _ | with_reducible apply setBit_frame | with_reducible apply modCourse_frame
    | with_reducible apply Frame.ite | split | exact Eq.refl _)

/-- May change regs, course, inflight, deferred. -/
theorem deferAct_frame (s : State) (h : Hdr) (act : TenantAct) (commits : Bool) (hr0 : Frame F0 r0 s) (m0 : 0x4224 ||| F0 = F0)
    :
    Frame F0 r0 (State.deferAct s h act commits) := by
  refine Frame.comp hr0 ?_ m0
  unfold State.deferAct
  dsimp only
  repeat' (first
    | with_reducible exact Frame.refl _ _ | with_reducible apply failTm_frame | with_reducible apply setBit_frame
    | with_reducible apply requestCommit_frame | with_reducible apply answer_frame | with_reducible apply Frame.ite | split
    | exact Eq.refl _ | with_reducible apply upd_deferred)

/-- May change regs, namespaces, slotWaits, nvm. -/
theorem zeroizeSlot_frame (s : State) (k : Nat) (hr0 : Frame F0 r0 s) (m0 : 0x20000010804 ||| F0 = F0) :
    Frame F0 r0 (State.zeroizeSlot s k) := by
  refine Frame.comp hr0 ?_ m0
  unfold State.zeroizeSlot
  repeat' (first
    | with_reducible exact Frame.refl _ _ | with_reducible apply unbind_frame | with_reducible apply emptySlot_frame | split
    | exact Eq.refl _ | with_reducible apply upd_slotWaits)

/-- May change regs, tenants. -/
theorem evalWear_frame (s : State) (hr0 : Frame F0 r0 s) (m0 : 0x1004 ||| F0 = F0) :
    Frame F0 r0 (State.evalWear s) := by
  refine Frame.comp hr0 ?_ m0
  unfold State.evalWear
  dsimp only
  repeat' (first
    | with_reducible exact Frame.refl _ _ | with_reducible apply mapTenants_frame | with_reducible apply setBit_frame
    | with_reducible apply Frame.ite | split | exact Eq.refl _)

/-- May change regs, slices. -/
theorem freeGroups_frame (s : State) (gs : List (Nat × Nat)) (hr0 : Frame F0 r0 s) (m0 : 0x20004 ||| F0 = F0) :
    Frame F0 r0 (State.freeGroups s gs) := by
  refine Frame.comp hr0 ?_ m0
  unfold State.freeGroups
  dsimp only
  repeat' (first
    | with_reducible exact Frame.refl _ _ | (intro _) | with_reducible assumption | with_reducible apply freeSuper_frame
    | with_reducible apply evalSpare_frame | with_reducible apply Frame.foldl | exact Eq.refl _)

/-- May change regs, namespaces, tenants, slotWaits, slices, nvm. -/
theorem applyAct_frame (s : State) (act : TenantAct) (hr0 : Frame F0 r0 s) (m0 : 0x20000031804 ||| F0 = F0) :
    Frame F0 r0 (State.applyAct s act).1 := by
  refine Frame.comp hr0 ?_ m0
  unfold State.applyAct
  dsimp only
  repeat' (first
    | with_reducible exact Frame.refl _ _ | (intro _) | with_reducible assumption | with_reducible apply evalWear_frame
    | with_reducible apply zeroizeSlot_frame | with_reducible apply freeGroups_frame | with_reducible apply modTenant_frame
    | with_reducible apply Frame.foldl | split | exact Eq.refl _ | with_reducible apply upd_tenants)

/-- May change regs, inflight, namespaces, tenants, deferred, slotWaits, slices, nvm. -/
theorem settle_frame (s : State) (d : Deferred) (passed : Bool) (hr0 : Frame F0 r0 s) (m0 : 0x20000035a04 ||| F0 = F0) :
    Frame F0 r0 (State.settle s d passed) := by
  refine Frame.comp hr0 ?_ m0
  unfold State.settle
  dsimp only
  repeat' (first
    | with_reducible exact Frame.refl _ _ | with_reducible apply applyAct_frame | with_reducible apply modIn_frame
    | with_reducible apply failTm_frame | with_reducible apply Frame.ite | split | exact Eq.refl _
    | with_reducible apply upd_deferred)

/-- May change course. -/
theorem checkCommit_frame (s : State) (hr0 : Frame F0 r0 s) (m0 : 0x20 ||| F0 = F0) :
    Frame F0 r0 (State.checkCommit s) := by
  refine Frame.comp hr0 ?_ m0
  unfold State.checkCommit
  repeat' (first | with_reducible exact Frame.refl _ _ | with_reducible apply modCourse_frame | exact Eq.refl _)

/-- May change regs, course. -/
theorem commitNow_frame (s : State) (v : Verdict) (hr0 : Frame F0 r0 s) (m0 : 0x24 ||| F0 = F0) :
    Frame F0 r0 (State.commitNow s v) := by
  refine Frame.comp hr0 ?_ m0
  unfold State.commitNow
  dsimp only
  repeat' (first
    | with_reducible exact Frame.refl _ _ | with_reducible apply modCourse_frame | with_reducible apply wr_frame
    | with_reducible apply applyBanks_frame | with_reducible apply Frame.ite | split | exact Eq.refl _)

/-- May change regs, course, inflight, namespaces, tenants, deferred, slotWaits, slices, nvm. -/
theorem boundaryActs_frame (s : State) (hr0 : Frame F0 r0 s) (m0 : 0x20000035a24 ||| F0 = F0) :
    Frame F0 r0 (State.boundaryActs s) := by
  refine Frame.comp hr0 ?_ m0
  unfold State.boundaryActs
  dsimp only
  repeat' (first
    | with_reducible exact Frame.refl _ _ | (intro _) | with_reducible assumption | with_reducible apply commitNow_frame
    | with_reducible apply settle_frame | with_reducible apply Frame.ite | with_reducible apply Frame.foldl | split
    | exact Eq.refl _)

/-! ### Tenants -/

/-- May change regs, course, inflight, deferred. -/
theorem execCreate_frame (h : Hdr) (no : BitVec 8) (sealedMode : Bool) (desc : TenantDesc) (s : State) (hr0 : Frame F0 r0 s) (m0
    : 0x4224 ||| F0 = F0) :
    FrameOut F0 r0 (execCreate h no sealedMode desc s) := by
  refine FrameOut.comp hr0 ?_ m0
  unfold execCreate
  dsimp only
  repeat' (first
    | with_reducible exact Frame.refl _ _ | (intro _) | with_reducible assumption | with_reducible apply tmAct_frame
    | with_reducible apply failTm_frame | with_reducible apply deferAct_frame | with_reducible apply Frame.next | split
    | exact Eq.refl _)

/-- May change regs, course, inflight, deferred. -/
theorem execResize_frame (h : Hdr) (no : BitVec 8) (desc : TenantDesc) (s : State) (hr0 : Frame F0 r0 s) (m0 : 0x4224 ||| F0 =
    F0) :
    FrameOut F0 r0 (execResize h no desc s) := by
  refine FrameOut.comp hr0 ?_ m0
  unfold execResize
  dsimp only
  repeat' (first
    | with_reducible exact Frame.refl _ _ | (intro _) | with_reducible assumption | with_reducible apply tmAct_frame
    | with_reducible apply failTm_frame | with_reducible apply deferAct_frame | with_reducible apply Frame.next | split
    | exact Eq.refl _)

/-- May change regs, course, inflight, deferred. -/
theorem execSetMode_frame (h : Hdr) (no : BitVec 8) (sealedMode : Bool) (s : State) (hr0 : Frame F0 r0 s) (m0 : 0x4224 ||| F0 =
    F0) :
    FrameOut F0 r0 (execSetMode h no sealedMode s) := by
  refine FrameOut.comp hr0 ?_ m0
  unfold execSetMode
  dsimp only
  repeat' (first
    | with_reducible exact Frame.refl _ _ | (intro _) | with_reducible assumption | with_reducible apply tmAct_frame
    | with_reducible apply failTm_frame | with_reducible apply deferAct_frame | with_reducible apply Frame.next
    | with_reducible apply Frame.ite | split | exact Eq.refl _)

/-- May change tenants. -/
theorem turnAt_frame (s : State) (ti : Nat) (st : TiState) (hr0 : Frame F0 r0 s) (m0 : 0x1000 ||| F0 = F0) :
    Frame F0 r0 (State.turnAt s ti st) := by
  refine Frame.comp hr0 ?_ m0
  unfold State.turnAt
  repeat' (first | with_reducible exact Frame.refl _ _ | with_reducible apply modTenant_frame | exact Eq.refl _)

/-- May change inflight, tenants. -/
theorem execQuiesce_frame (h : Hdr) (no : BitVec 8) (s : State) (hr0 : Frame F0 r0 s) (m0 : 0x1200 ||| F0 = F0) :
    FrameOut F0 r0 (execQuiesce h no s) := by
  refine FrameOut.comp hr0 ?_ m0
  unfold execQuiesce
  dsimp only
  repeat' (first
    | with_reducible exact Frame.refl _ _ | (intro _) | with_reducible assumption | with_reducible apply tmAct_frame
    | with_reducible apply answer_frame | with_reducible apply turnAt_frame | with_reducible apply Frame.next | split
    | exact Eq.refl _)

/-- May change regs, tenants. -/
theorem execQuiescedReached_frame (ti : Nat) (s : State) (hr0 : Frame F0 r0 s) (m0 : 0x1004 ||| F0 = F0) :
    FrameOut F0 r0 (execQuiescedReached ti s) := by
  refine FrameOut.comp hr0 ?_ m0
  unfold execQuiescedReached
  repeat' (first
    | with_reducible exact Frame.refl _ _ | with_reducible apply setBit_frame | with_reducible apply modTenant_frame
    | with_reducible apply Frame.next | with_reducible apply Frame.ite | split | exact Eq.refl _)

/-- May change inflight, tenants. -/
theorem execResume_frame (h : Hdr) (no : BitVec 8) (s : State) (hr0 : Frame F0 r0 s) (m0 : 0x1200 ||| F0 = F0) :
    FrameOut F0 r0 (execResume h no s) := by
  refine FrameOut.comp hr0 ?_ m0
  unfold execResume
  dsimp only
  repeat' (first
    | with_reducible exact Frame.refl _ _ | (intro _) | with_reducible assumption | with_reducible apply tmAct_frame
    | with_reducible apply answer_frame | with_reducible apply turnAt_frame | with_reducible apply Frame.next | split
    | exact Eq.refl _)

/-- May change inflight, tenants. -/
theorem execFreeze_frame (h : Hdr) (no : BitVec 8) (s : State) (hr0 : Frame F0 r0 s) (m0 : 0x1200 ||| F0 = F0) :
    FrameOut F0 r0 (execFreeze h no s) := by
  refine FrameOut.comp hr0 ?_ m0
  unfold execFreeze
  dsimp only
  repeat' (first
    | with_reducible exact Frame.refl _ _ | (intro _) | with_reducible assumption | with_reducible apply tmAct_frame
    | with_reducible apply finish_frame | with_reducible apply modTenant_frame | with_reducible apply Frame.next | split
    | exact Eq.refl _)

/-- May change regs, ctrls, inflight, tenants, deferred, slices, invocations, hd, parks, hdQueue, digests, digestWaits, storeHdr,
storeNext, fences. -/
theorem execReset_frame (h : Hdr) (no : BitVec 8) (s : State) (hr0 : Frame F0 r0 s) (m0 : 0x20c003765304 ||| F0 = F0) :
    FrameOut F0 r0 (execReset h no s) := by
  refine FrameOut.comp hr0 ?_ m0
  unfold execReset
  dsimp only
  repeat' (first
    | with_reducible exact Frame.refl _ _ | (intro _) | with_reducible assumption | with_reducible apply tmAct_frame
    | with_reducible apply finish_frame | with_reducible apply modTenant_frame | with_reducible apply nextGen_frame
    | with_reducible apply resetTenant_frame | with_reducible apply Frame.next | split | exact Eq.refl _)

/-- May change regs, inflight, slices, invocations, hd, parks, hdQueue, digests, fences. -/
theorem discardTenant_frame (s : State) (ti : Nat) (hr0 : Frame F0 r0 s) (m0 : 0x200001760204 ||| F0 = F0) :
    Frame F0 r0 (State.discardTenant s ti) := by
  refine Frame.comp hr0 ?_ m0
  unfold State.discardTenant
  dsimp only
  repeat' (first
    | with_reducible exact Frame.refl _ _ | (intro _) | with_reducible assumption | with_reducible apply freeInvocation_frame
    | with_reducible apply discardAll_frame | with_reducible apply closeCtxs_frame | with_reducible apply mapSlices_frame
    | with_reducible apply abandonAll_frame | with_reducible apply endDigest_frame | with_reducible apply hdRefill_frame
    | with_reducible apply hdDrop_frame | with_reducible apply Frame.foldl | exact SlmSame.of fun _ => rfl | exact Eq.refl _)

/-- May change regs, ctrls, inflight, namespaces, tenants, leaving, deferred, slices, invocations, hd, parks, hdQueue, digests,
digestWaits, storeHdr, storeNext, fences. -/
theorem removeTenant_frame (s : State) (t : Tenant) (hr0 : Frame F0 r0 s) (m0 : 0x20c003767b04 ||| F0 = F0) :
    Frame F0 r0 (State.removeTenant s t) := by
  refine Frame.comp hr0 ?_ m0
  unfold State.removeTenant
  dsimp only
  repeat' (first
    | with_reducible exact Frame.refl _ _ | (intro _) | with_reducible assumption | with_reducible apply resetTenant_frame
    | with_reducible apply discardTenant_frame | with_reducible apply mapNs_frame | with_reducible apply Frame.foldl
    | exact Eq.refl _ | with_reducible apply upd_tenants_leaving | with_reducible apply upd_ctrls)

/-- May change regs, ctrls, inflight, namespaces, tenants, leaving, deferred, slotWaits, slices, invocations, hd, parks, hdQueue,
digests, digestWaits, storeHdr, storeNext, nvm, fences. -/
theorem execRemove_frame (h : Hdr) (no : BitVec 8) (migrated : Bool) (s : State) (hr0 : Frame F0 r0 s) (m0 : 0x22c003777b04 |||
    F0 = F0) :
    FrameOut F0 r0 (execRemove h no migrated s) := by
  refine FrameOut.comp hr0 ?_ m0
  unfold execRemove
  dsimp only
  repeat' (first
    | with_reducible exact Frame.refl _ _ | (intro _) | with_reducible assumption | with_reducible apply tmAct_frame
    | with_reducible apply failTm_frame | with_reducible apply removeTenant_frame | with_reducible apply answer_frame
    | with_reducible apply zeroizeSlot_frame | with_reducible apply Frame.next | with_reducible apply Frame.ite
    | with_reducible apply Frame.foldl | split | exact Eq.refl _)

/-- May change regs, inflight, hd, parks, hdQueue, ats. -/
theorem execGet_frame (h : Hdr) (no : BitVec 8) (s : State) (hr0 : Frame F0 r0 s) (m0 : 0xf00204 ||| F0 = F0) :
    FrameOut F0 r0 (execGet h no s) := by
  refine FrameOut.comp hr0 ?_ m0
  unfold execGet
  dsimp only
  repeat' (first
    | with_reducible exact Frame.refl _ _ | (intro _) | with_reducible assumption | with_reducible apply serial_frame
    | with_reducible apply finish_frame | with_reducible apply dataOut_frame | with_reducible apply Frame.next
    | exact Eq.refl _)

/-- May change inflight. -/
theorem virt_frame (s : State) (h : Hdr) (c : Nat) (f : Nat → State → State) (hr0 : Frame F0 r0 s) (m0 : 0x200 ||| F0 = F0) (h_f
    : ∀ a0 t, Frame F0 r0 t → Frame F0 r0 (f a0 t)) :
    Frame F0 r0 (State.virt s h c f) := by
  unfold State.virt
  repeat' (first
    | with_reducible exact hr0 | with_reducible apply h_f | (intro _) | with_reducible assumption
    | with_reducible apply managed_frame | with_reducible apply finish_frame | with_reducible apply hold_frame
    | with_reducible apply Frame.ite | split | exact mask_or ‹_› rfl)

/-- May change ctrls, inflight, tenants. -/
theorem execSecondaryControllerOnline_frame (h : Hdr) (cntlid : Nat) (s : State) (hr0 : Frame F0 r0 s) (m0 : 0x1300 ||| F0 = F0)
    :
    FrameOut F0 r0 (execSecondaryControllerOnline h cntlid s) := by
  refine FrameOut.comp hr0 ?_ m0
  unfold execSecondaryControllerOnline
  repeat' (first
    | with_reducible exact Frame.refl _ _ | (intro _) | with_reducible assumption | with_reducible apply virt_frame
    | with_reducible apply finish_frame | with_reducible apply evalReady_frame | with_reducible apply modTenant_frame
    | with_reducible apply failTm_frame | with_reducible apply Frame.next | split | exact Eq.refl _)

/-- May change regs, ctrls, inflight, tenants, deferred, slices, invocations, hd, parks, hdQueue, digests, digestWaits, storeHdr,
storeNext, fences. -/
theorem execSecondaryControllerOffline_frame (h : Hdr) (cntlid : Nat) (s : State) (hr0 : Frame F0 r0 s) (m0 : 0x20c003765304 |||
    F0 = F0) :
    FrameOut F0 r0 (execSecondaryControllerOffline h cntlid s) := by
  refine FrameOut.comp hr0 ?_ m0
  unfold execSecondaryControllerOffline
  repeat' (first
    | with_reducible exact Frame.refl _ _ | (intro _) | with_reducible assumption | with_reducible apply virt_frame
    | with_reducible apply failTm_frame | with_reducible apply finish_frame | with_reducible apply modTenant_frame
    | with_reducible apply resetTenant_frame | with_reducible apply Frame.next | split | exact Eq.refl _)

/-- May change inflight, tenants. -/
theorem execSecondaryControllerAssign_frame (h : Hdr) (cntlid : Nat) (res : AssignRes) (count : Nat) (s : State) (hr0 : Frame F0
    r0 s) (m0 : 0x1200 ||| F0 = F0) :
    FrameOut F0 r0 (execSecondaryControllerAssign h cntlid res count s) := by
  refine FrameOut.comp hr0 ?_ m0
  unfold execSecondaryControllerAssign
  repeat' (first
    | with_reducible exact Frame.refl _ _ | (intro _) | with_reducible assumption | with_reducible apply virt_frame
    | with_reducible apply failTm_frame | with_reducible apply finish_frame | with_reducible apply modTenant_frame
    | with_reducible apply Frame.next | with_reducible apply Frame.ite | split | exact Eq.refl _)

/-- May change slices, slice-local memory. -/
theorem zeroMem_frame (s : State) (x : Namespace) (hr0 : Frame F0 r0 s) (m0 : 0x20000000020000 ||| F0 = F0) :
    Frame F0 r0 (State.zeroMem s x) := by
  refine Frame.comp hr0 ?_ m0
  unfold State.zeroMem
  repeat' (first
    | with_reducible exact Frame.refl _ _ | (intro _) | with_reducible assumption | with_reducible apply modSlice_mem
    | with_reducible apply Frame.ite | with_reducible apply Frame.foldl | exact SlmSame.of fun _ => rfl
    | exact ⟨fun x h => memClear_wf _ _ _ h⟩ | split | exact Eq.refl _)

/-- May change namespaces, slices, slice-local memory. -/
theorem attachTo_frame (s : State) (x : Namespace) (c : Nat) (hr0 : Frame F0 r0 s) (m0 : 0x20000000020800 ||| F0 = F0) :
    Frame F0 r0 (State.attachTo s x c) := by
  refine Frame.comp hr0 ?_ m0
  unfold State.attachTo
  dsimp only
  repeat' (first
    | with_reducible exact Frame.refl _ _ | with_reducible apply zeroMem_frame | with_reducible apply modNs_frame
    | with_reducible apply Frame.ite | split | exact Eq.refl _)

/-- May change inflight, namespaces, slices, slice-local memory. -/
theorem execNamespaceAttach_frame (h : Hdr) (nsid : Nat) (ctrls : List Nat) (s : State) (hr0 : Frame F0 r0 s) (m0 :
    0x20000000020a00 ||| F0 = F0) :
    FrameOut F0 r0 (execNamespaceAttach h nsid ctrls s) := by
  refine FrameOut.comp hr0 ?_ m0
  unfold execNamespaceAttach
  dsimp only
  repeat' (first
    | with_reducible exact Frame.refl _ _ | (intro _) | with_reducible assumption | with_reducible apply serial_frame
    | with_reducible apply finish_frame | with_reducible apply attachTo_frame | with_reducible apply Frame.next
    | with_reducible apply Frame.ite | with_reducible apply Frame.foldl | split | exact Eq.refl _)

/-- May change inflight, namespaces. -/
theorem execNamespaceDetach_frame (h : Hdr) (nsid : Nat) (ctrls : List Nat) (s : State) (hr0 : Frame F0 r0 s) (m0 : 0xa00 ||| F0
    = F0) :
    FrameOut F0 r0 (execNamespaceDetach h nsid ctrls s) := by
  refine FrameOut.comp hr0 ?_ m0
  unfold execNamespaceDetach
  repeat' (first
    | with_reducible exact Frame.refl _ _ | (intro _) | with_reducible assumption | with_reducible apply serial_frame
    | with_reducible apply finish_frame | with_reducible apply modNs_frame | with_reducible apply Frame.next
    | with_reducible apply Frame.ite | with_reducible apply Frame.foldl | split | exact Eq.refl _)

/-! ### Migration -/

/-- May change migs. -/
theorem putMig_frame (s : State) (m : MigSession) (hr0 : Frame F0 r0 s) (m0 : 0x8000 ||| F0 = F0) :
    Frame F0 r0 (State.putMig s m) := by
  refine Frame.comp hr0 ?_ m0
  unfold State.putMig
  repeat' (first | with_reducible exact Frame.refl _ _ | exact Eq.refl _ | with_reducible apply upd_migs)

/-- May change regs, nvm, fresh. -/
theorem sessionKeys_frame (s : State) (n : Nat) (which : List Nat) (hr0 : Frame F0 r0 s) (m0 : 0x8020000000004 ||| F0 = F0) :
    Frame F0 r0 (State.sessionKeys s n which) := by
  refine Frame.comp hr0 ?_ m0
  unfold State.sessionKeys
  dsimp only
  repeat' (first
    | with_reducible exact Frame.refl _ _ | (intro _) | with_reducible assumption | with_reducible apply random_frame
    | with_reducible apply loadInternal_frame | with_reducible apply Frame.foldl | exact Eq.refl _)

/-- May change regs, nvm. -/
theorem dropSessionKeys_frame (s : State) (n : Nat) (hr0 : Frame F0 r0 s) (m0 : 0x20000000004 ||| F0 = F0) :
    Frame F0 r0 (State.dropSessionKeys s n) := by
  refine Frame.comp hr0 ?_ m0
  unfold State.dropSessionKeys
  repeat' (first
    | with_reducible exact Frame.refl _ _ | (intro _) | with_reducible assumption | with_reducible apply emptySlot_frame
    | with_reducible apply Frame.ite | with_reducible apply Frame.foldl | split | exact Eq.refl _)

/-- May change regs, migs, nvm. -/
theorem endMig_frame (s : State) (n : Nat) (hr0 : Frame F0 r0 s) (m0 : 0x20000008004 ||| F0 = F0) :
    Frame F0 r0 (State.endMig s n) := by
  refine Frame.comp hr0 ?_ m0
  unfold State.endMig
  dsimp only
  repeat' (first
    | with_reducible exact Frame.refl _ _ | with_reducible apply dropSessionKeys_frame | with_reducible apply emptySlot_frame
    | with_reducible apply Frame.ite | split | exact Eq.refl _ | with_reducible apply upd_migs)

/-- May change regs, migs, nvm, fresh. -/
theorem migServe_frame (s : State) (g : MigSession) (m : SpdmMsg) (hr0 : Frame F0 r0 s) (m0 : 0x8020000008004 ||| F0 = F0) :
    Frame F0 r0 (State.migServe s g m) := by
  refine Frame.comp hr0 ?_ m0
  unfold State.migServe
  dsimp only
  repeat' (first
    | with_reducible exact Frame.refl _ _ | with_reducible apply putMig_frame | with_reducible apply sessionKeys_frame
    | with_reducible apply loadInternal_frame | with_reducible apply endMig_frame | with_reducible apply Frame.ite | split
    | exact Eq.refl _)

/-- May change regs, migs, nvm, fresh. -/
theorem migTake_frame (s : State) (g : MigSession) (m : SpdmMsg) (hr0 : Frame F0 r0 s) (m0 : 0x8020000008004 ||| F0 = F0) :
    Frame F0 r0 (State.migTake s g m) := by
  refine Frame.comp hr0 ?_ m0
  unfold State.migTake
  dsimp only
  repeat' (first
    | with_reducible exact Frame.refl _ _ | with_reducible apply endMig_frame | with_reducible apply sessionKeys_frame
    | with_reducible apply putMig_frame | with_reducible apply Frame.ite | split | exact Eq.refl _)

/-- May change regs, inflight, migs, nvm, fresh. -/
theorem execMigSend_frame (h : Hdr) (session : Nat) (msg : SpdmMsg) (s : State) (hr0 : Frame F0 r0 s) (m0 : 0x8020000008204 |||
    F0 = F0) :
    FrameOut F0 r0 (execMigSend h session msg s) := by
  refine FrameOut.comp hr0 ?_ m0
  unfold execMigSend
  dsimp only
  repeat' (first
    | with_reducible exact Frame.refl _ _ | (intro _) | with_reducible assumption | with_reducible apply serial_frame
    | with_reducible apply failTm_frame | with_reducible apply finish_frame | with_reducible apply migTake_frame
    | with_reducible apply migServe_frame | with_reducible apply Frame.next | with_reducible apply Frame.ite | split
    | exact Eq.refl _)

/-- May change inflight, migs. -/
theorem execMigRecv_frame (h : Hdr) (session : Nat) (s : State) (hr0 : Frame F0 r0 s) (m0 : 0x8200 ||| F0 = F0) :
    FrameOut F0 r0 (execMigRecv h session s) := by
  refine FrameOut.comp hr0 ?_ m0
  unfold execMigRecv
  dsimp only
  repeat' (first
    | with_reducible exact Frame.refl _ _ | (intro _) | with_reducible assumption | with_reducible apply serial_frame
    | with_reducible apply failTm_frame | with_reducible apply finish_frame | with_reducible apply putMig_frame
    | with_reducible apply Frame.next | with_reducible apply Frame.ite | split | exact Eq.refl _)

/-- May change regs, inflight, tenants, migs, hd, parks, hdQueue, ats, nvm, fresh. -/
theorem execSave_frame (h : Hdr) (no : BitVec 8) (session : Nat) (s : State) (hr0 : Frame F0 r0 s) (m0 : 0x8020000f09204 ||| F0
    = F0) :
    FrameOut F0 r0 (execSave h no session s) := by
  refine FrameOut.comp hr0 ?_ m0
  unfold execSave
  dsimp only
  repeat' (first
    | with_reducible exact Frame.refl _ _ | (intro _) | with_reducible assumption | with_reducible apply tmAct_frame
    | with_reducible apply failTm_frame | with_reducible apply finish_frame | with_reducible apply random_frame
    | with_reducible apply free_frame | with_reducible apply putMig_frame | with_reducible apply emptySlot_frame
    | with_reducible apply loadInternal_frame | with_reducible apply modTenant_frame | with_reducible apply dataOut_frame
    | with_reducible apply Frame.next | with_reducible apply Frame.stop | with_reducible apply Frame.ite | split
    | exact Eq.refl _)

/-- May change ctrls, inflight. -/
theorem restoreCtrls_frame (s : State) (ti : Nat) (b : Blob) (hr0 : Frame F0 r0 s) (m0 : 0x300 ||| F0 = F0) :
    Frame F0 r0 (State.restoreCtrls s ti b) := by
  refine Frame.comp hr0 ?_ m0
  unfold State.restoreCtrls
  dsimp only
  repeat' (first
    | with_reducible exact Frame.refl _ _ | (intro _) | with_reducible assumption | with_reducible apply modCtrl_frame
    | with_reducible apply Frame.foldl | exact Eq.refl _ | with_reducible apply upd_inflight)

/-- May change regs, ctrls, inflight, namespaces, tenants, slices, nvm, slice-local memory. -/
theorem rebuildTenant_frame (s : State) (b : Blob) (keys : List (Nat × Nat × Key)) (m : List (Nat × Nat)) (t : Tenant) (hr0 :
    Frame F0 r0 s) (m0 : 0x20020000021b04 ||| F0 = F0) :
    Frame F0 r0 (State.rebuildTenant s b keys m t) := by
  refine Frame.comp hr0 ?_ m0
  unfold State.rebuildTenant
  dsimp only
  repeat' (first
    | with_reducible exact Frame.refl _ _ | (intro _) | with_reducible assumption | with_reducible apply loadKey_frame
    | with_reducible apply wr_frame | with_reducible apply attachTo_frame | with_reducible apply evalWear_frame
    | with_reducible apply nextGen_frame | with_reducible apply evalReady_frame | with_reducible apply restoreCtrls_frame
    | with_reducible apply Frame.foldl | exact Eq.refl _ | with_reducible apply upd_tenants)

/-- May change regs, ctrls, inflight, namespaces, tenants, migs, slices, nvm, slice-local memory. -/
theorem execRestore_frame (h : Hdr) (no : BitVec 8) (session : Nat) (blob : Blob) (desc : TenantDesc) (nsmap : List (Nat × Nat))
    (s : State) (hr0 : Frame F0 r0 s) (m0 : 0x20020000029b04 ||| F0 = F0) :
    FrameOut F0 r0 (execRestore h no session blob desc nsmap s) := by
  refine FrameOut.comp hr0 ?_ m0
  unfold execRestore
  dsimp only
  repeat' (first
    | with_reducible exact Frame.refl _ _ | (intro _) | with_reducible assumption | with_reducible apply serial_frame
    | with_reducible apply endMig_frame | with_reducible apply failTm_frame | with_reducible apply finish_frame
    | with_reducible apply setBit_frame | with_reducible apply rebuildTenant_frame | with_reducible apply Frame.next
    | with_reducible apply Frame.ite | split | exact Eq.refl _)

/-! ### Host -/

/-- May change links. -/
theorem setLink_frame (s : State) (port : Nat) (l : Link) (hr0 : Frame F0 r0 s) (m0 : 0x80 ||| F0 = F0) :
    Frame F0 r0 (State.setLink s port l) := by
  refine Frame.comp hr0 ?_ m0
  unfold State.setLink
  repeat' (first
    | with_reducible exact Frame.refl _ _ | exact Eq.refl _ | with_reducible apply upd_links | exact modAt_length _ _ _
    | exact List.length_map _)

/-- May change regs, nvm, fresh. -/
theorem firstLink_frame (s : State) (hr0 : Frame F0 r0 s) (m0 : 0x8020000000004 ||| F0 = F0) :
    Frame F0 r0 (State.firstLink s) := by
  refine Frame.comp hr0 ?_ m0
  unfold State.firstLink
  dsimp only
  repeat' (first
    | with_reducible exact Frame.refl _ _ | with_reducible apply free_frame | with_reducible apply modNvm_frame
    | with_reducible apply wr_frame | with_reducible apply Frame.ite | split | exact Eq.refl _)

/-- May change pins, regs, links, nvm, fresh. -/
theorem execLinkTraining_frame (port gen : Nat) (link : LinkSize) (s : State) (hr0 : Frame F0 r0 s) (m0 : 0x8020000000086 ||| F0 =
    F0) :
    FrameOut F0 r0 (execLinkTraining port gen link s) := by
  refine FrameOut.comp hr0 ?_ m0
  unfold execLinkTraining
  dsimp only
  repeat' (first
    | with_reducible exact Frame.refl _ _ | with_reducible apply firstLink_frame | with_reducible apply setLink_frame
    | with_reducible apply Frame.next | with_reducible apply Frame.ite | split | exact Eq.refl _
    | with_reducible apply upd_pins)

/-- May change ctrls, slices, start. -/
theorem beginSwitch_frame (s : State) (hr0 : Frame F0 r0 s) (m0 : 0x80000020100 ||| F0 = F0) :
    Frame F0 r0 (State.beginSwitch s) := by
  refine Frame.comp hr0 ?_ m0
  unfold State.beginSwitch
  dsimp only
  repeat' (first
    | with_reducible exact Frame.refl _ _ | (intro _) | with_reducible assumption | with_reducible apply modStart_frame
    | with_reducible apply drain_frame | with_reducible apply Frame.foldl | exact Eq.refl _ | with_reducible apply upd_ctrls)

/-- May change pins, regs, latches, busRead, course, dual, links, ctrls, inflight, order, namespaces, tenants, leaving, deferred,
migs, slotWaits, slices, invocations, nextInv, hd, parks, hdQueue, ats, digests, digestWaits, digestOut, hubKey, meas, measLog,
measSeq, staged, spdmPeers, spdmSessions, spdmOut, entropyOk, groupAt, groupRecs, storeHdr, storeNext, wearRateMax, nvm, power,
start, recorder, fences, fenceCounts, fenceSoon, test, unfence, mgmt, fresh, slice-local memory. -/
theorem resetFn_frame (s : State) (c : Nat) (hr0 : Frame F0 r0 s) (m0 : 0x2ffffffffffffe ||| F0 = F0) :
    Frame F0 r0 (State.resetFn s c) := by
  refine Frame.comp hr0 ?_ m0
  unfold State.resetFn
  dsimp only
  repeat' (first
    | with_reducible exact Frame.refl _ _ | with_reducible apply restart_frame | with_reducible apply resetCtrl_frame
    | with_reducible apply modNvm_frame | with_reducible apply beginSwitch_frame | with_reducible apply Frame.ite | split
    | exact Eq.refl _)

/-- May change pins, regs, latches, busRead, course, dual, links, ctrls, inflight, order, namespaces, tenants, leaving, deferred,
migs, slotWaits, slices, invocations, nextInv, hd, parks, hdQueue, ats, digests, digestWaits, digestOut, hubKey, meas, measLog,
measSeq, staged, spdmPeers, spdmSessions, spdmOut, entropyOk, groupAt, groupRecs, storeHdr, storeNext, wearRateMax, nvm, power,
start, recorder, fences, fenceCounts, fenceSoon, test, unfence, mgmt, fresh, slice-local memory. -/
theorem ctrlResets_frame (s : State) (p : Nat → Bool) (hr0 : Frame F0 r0 s) (m0 : 0x2ffffffffffffe ||| F0 = F0) :
    Frame F0 r0 (State.ctrlResets s p) := by
  refine Frame.comp hr0 ?_ m0
  unfold State.ctrlResets
  dsimp only
  repeat' (first
    | with_reducible exact Frame.refl _ _ | (intro _) | with_reducible assumption | with_reducible apply resetCtrl_frame
    | with_reducible apply resetFn_frame | with_reducible apply Frame.ite | with_reducible apply Frame.foldl | split
    | exact Eq.refl _)

/-- May change pins, regs, latches, busRead, course, dual, links, ctrls, inflight, order, namespaces, tenants, leaving, deferred,
migs, slotWaits, slices, invocations, nextInv, hd, parks, hdQueue, ats, digests, digestWaits, digestOut, hubKey, meas, measLog,
measSeq, staged, spdmPeers, spdmSessions, spdmOut, entropyOk, groupAt, groupRecs, storeHdr, storeNext, wearRateMax, nvm, power,
start, recorder, fences, fenceCounts, fenceSoon, test, unfence, mgmt, fresh, slice-local memory. -/
theorem execPerstAssert_frame (port : Nat) (s : State) (hr0 : Frame F0 r0 s) (m0 : 0x2ffffffffffffe ||| F0 = F0) :
    FrameOut F0 r0 (execPerstAssert port s) := by
  refine FrameOut.comp hr0 ?_ m0
  unfold execPerstAssert
  dsimp only
  repeat' (first
    | with_reducible exact Frame.refl _ _ | with_reducible apply setLink_frame | with_reducible apply ctrlResets_frame
    | with_reducible apply Frame.next | with_reducible apply Frame.ite | split | exact Eq.refl _
    | with_reducible apply upd_pins)

/-- May change pins, regs, latches, busRead, course, dual, links, ctrls, inflight, order, namespaces, tenants, leaving, deferred,
migs, slotWaits, slices, invocations, nextInv, hd, parks, hdQueue, ats, digests, digestWaits, digestOut, hubKey, meas, measLog,
measSeq, staged, spdmPeers, spdmSessions, spdmOut, entropyOk, groupAt, groupRecs, storeHdr, storeNext, wearRateMax, nvm, power,
start, recorder, fences, fenceCounts, fenceSoon, test, unfence, mgmt, fresh, slice-local memory. -/
theorem execControllerDisable_frame (ctrl : Nat) (s : State) (hr0 : Frame F0 r0 s) (m0 : 0x2ffffffffffffe ||| F0 = F0) :
    FrameOut F0 r0 (execControllerDisable ctrl s) := by
  refine FrameOut.comp hr0 ?_ m0
  unfold execControllerDisable
  repeat' (first
    | with_reducible exact Frame.refl _ _ | with_reducible apply resetFn_frame | with_reducible apply Frame.next
    | with_reducible apply Frame.ite | split | exact Eq.refl _)

/-- May change fresh. -/
theorem within_frame (s : State) (lo hi n : Nat) (hr0 : Frame F0 r0 s) (m0 : 0x8000000000000 ||| F0 = F0) :
    Frame F0 r0 (State.within s lo hi n).2 := by
  refine Frame.comp hr0 ?_ m0
  unfold State.within
  repeat' (first
    | with_reducible exact Frame.refl _ _ | with_reducible apply free_frame | with_reducible apply Frame.ite | split
    | exact Eq.refl _)

/-- May change ctrls, fresh. -/
theorem execControllerEnable_frame (cc : CtrlConfig) (s : State) (hr0 : Frame F0 r0 s) (m0 : 0x8000000000100 ||| F0
    = F0) :
    FrameOut F0 r0 (execControllerEnable cc s) := by
  refine FrameOut.comp hr0 ?_ m0
  unfold execControllerEnable
  dsimp only
  repeat' (first
    | with_reducible exact Frame.refl _ _ | with_reducible apply within_frame | with_reducible apply evalReady_frame
    | with_reducible apply modCtrl_frame | with_reducible apply Frame.next | with_reducible apply Frame.ite | split
    | exact Eq.refl _)

/-- May change pins, regs, latches, busRead, course, dual, links, ctrls, inflight, order, namespaces, tenants, leaving, deferred,
migs, slotWaits, slices, invocations, nextInv, hd, parks, hdQueue, ats, digests, digestWaits, digestOut, hubKey, meas, measLog,
measSeq, staged, spdmPeers, spdmSessions, spdmOut, entropyOk, groupAt, groupRecs, storeHdr, storeNext, wearRateMax, nvm, power,
start, recorder, fences, fenceCounts, fenceSoon, test, unfence, mgmt, fresh, slice-local memory. -/
theorem execNvmSubsystemReset_frame (s : State) (hr0 : Frame F0 r0 s) (m0 : 0x2ffffffffffffe ||| F0 = F0) :
    FrameOut F0 r0 (execNvmSubsystemReset s) := by
  refine FrameOut.comp hr0 ?_ m0
  unfold execNvmSubsystemReset
  repeat' (first
    | with_reducible exact Frame.refl _ _ | with_reducible apply ctrlResets_frame | with_reducible apply Frame.next
    | with_reducible apply Frame.ite | split | exact Eq.refl _)

/-- May change regs, ctrls, inflight, deferred, slices, invocations, hd, parks, hdQueue, ats, digests, digestWaits, storeHdr,
storeNext, fences. -/
theorem flrClear_frame (s : State) (c : Nat) (hr0 : Frame F0 r0 s) (m0 : 0x20c003f64304 ||| F0 = F0) :
    Frame F0 r0 (State.flrClear s c) := by
  refine Frame.comp hr0 ?_ m0
  unfold State.flrClear
  dsimp only
  repeat' (first
    | with_reducible exact Frame.refl _ _ | with_reducible apply modCtrl_frame | with_reducible apply resetCtrl_frame
    | exact Eq.refl _ | with_reducible apply upd_ats)

/-- May change pins, regs, latches, busRead, course, dual, links, ctrls, inflight, order, namespaces, tenants, leaving, deferred,
migs, slotWaits, slices, invocations, nextInv, hd, parks, hdQueue, ats, digests, digestWaits, digestOut, hubKey, meas, measLog,
measSeq, staged, spdmPeers, spdmSessions, spdmOut, entropyOk, groupAt, groupRecs, storeHdr, storeNext, wearRateMax, nvm, power,
start, recorder, fences, fenceCounts, fenceSoon, test, unfence, mgmt, fresh, slice-local memory. -/
theorem execFunctionLevelReset_frame (ctrl : Nat) (s : State) (hr0 : Frame F0 r0 s) (m0 : 0x2ffffffffffffe ||| F0 = F0) :
    FrameOut F0 r0 (execFunctionLevelReset ctrl s) := by
  refine FrameOut.comp hr0 ?_ m0
  unfold execFunctionLevelReset
  dsimp only
  repeat' (first
    | with_reducible exact Frame.refl _ _ | with_reducible apply flrClear_frame | with_reducible apply resetFn_frame
    | with_reducible apply modCtrl_frame | with_reducible apply nextGen_frame | with_reducible apply modTenant_frame
    | with_reducible apply Frame.next | with_reducible apply Frame.ite | split | exact Eq.refl _)

/-- May change slices. -/
theorem dropUnacked_frame (s : State) (c : Nat) (hr0 : Frame F0 r0 s) (m0 : 0x20000 ||| F0 = F0) :
    Frame F0 r0 (State.dropUnacked s c) := by
  refine Frame.comp hr0 ?_ m0
  unfold State.dropUnacked
  dsimp only
  repeat' (first
    | with_reducible exact Frame.refl _ _ | (intro _) | with_reducible assumption | with_reducible apply modSlice_frame
    | with_reducible apply Frame.ite | with_reducible apply Frame.foldl | exact SlmSame.of fun _ => rfl
    | (refine SlmSame.of fun x => ?_; simp [apply_ite Slice.slm]; done)
    | (refine SlmSame.of fun x => ?_; (try dsimp only); apply slm_foldl; intro _ _; simp; done)
    | (refine SlmSame.of fun x => ?_; (repeat' (first | rfl | (simp [apply_ite Slice.slm]; done) | split)); done) | split
    | exact Eq.refl _)

/-- May change regs, ctrls, inflight, deferred, slices, invocations, hd, parks, hdQueue, ats, digests, digestWaits, storeHdr,
storeNext, fences. -/
theorem execFlrComplete_frame (ctrl : Nat) (s : State) (hr0 : Frame F0 r0 s) (m0 : 0x20c003f64304 ||| F0 = F0) :
    FrameOut F0 r0 (execFlrComplete ctrl s) := by
  refine FrameOut.comp hr0 ?_ m0
  unfold execFlrComplete
  dsimp only
  repeat' (first
    | with_reducible exact Frame.refl _ _ | (intro _) | with_reducible assumption | with_reducible apply dropUnacked_frame
    | with_reducible apply endDigest_frame | with_reducible apply setBit_frame | with_reducible apply modCtrl_frame
    | with_reducible apply flrClear_frame | with_reducible apply Frame.next | with_reducible apply Frame.ite
    | with_reducible apply Frame.foldl | split | exact Eq.refl _)

/-- May change ats. -/
theorem execAtsInvalidate_frame (fn addr : Nat) (s : State) (hr0 : Frame F0 r0 s) (m0 : 0x800000 ||| F0 = F0) :
    FrameOut F0 r0 (execAtsInvalidate fn addr s) := by
  refine FrameOut.comp hr0 ?_ m0
  unfold execAtsInvalidate
  repeat' (first
    | with_reducible exact Frame.refl _ _ | with_reducible apply Frame.next | exact Eq.refl _ | with_reducible apply upd_ats)

/-- May change ctrls, slices. -/
theorem execShutdown_frame (ctrl : Nat) (abrupt : Bool) (s : State) (hr0 : Frame F0 r0 s) (m0 : 0x20100 ||| F0 = F0) :
    FrameOut F0 r0 (execShutdown ctrl abrupt s) := by
  refine FrameOut.comp hr0 ?_ m0
  unfold execShutdown
  dsimp only
  repeat' (first
    | with_reducible exact Frame.refl _ _ | with_reducible apply modCtrl_frame | with_reducible apply mapSlices_frame
    | with_reducible apply Frame.next | with_reducible apply Frame.ite | exact SlmSame.of fun _ => rfl | split
    | exact Eq.refl _)

/-- May change ctrls. -/
theorem execShutdownComplete_frame (ctrl : Nat) (s : State) (hr0 : Frame F0 r0 s) (m0 : 0x100 ||| F0 = F0) :
    FrameOut F0 r0 (execShutdownComplete ctrl s) := by
  refine FrameOut.comp hr0 ?_ m0
  unfold execShutdownComplete
  repeat' (first
    | with_reducible exact Frame.refl _ _ | with_reducible apply modCtrl_frame | with_reducible apply Frame.next
    | with_reducible apply Frame.ite | split | exact Eq.refl _)

/-- May change ctrls. -/
theorem execSqTailDoorbell_frame (ctrl qid tail : Nat) (s : State) (hr0 : Frame F0 r0 s) (m0 : 0x100 ||| F0 = F0) :
    FrameOut F0 r0 (execSqTailDoorbell ctrl qid tail s) := by
  refine FrameOut.comp hr0 ?_ m0
  unfold execSqTailDoorbell
  repeat' (first
    | with_reducible exact Frame.refl _ _ | with_reducible apply modCtrl_frame | with_reducible apply Frame.next
    | with_reducible apply Frame.ite | split | exact Eq.refl _)

/-- May change ctrls. -/
theorem execCqHeadDoorbell_frame (ctrl qid head : Nat) (s : State) (hr0 : Frame F0 r0 s) (m0 : 0x100 ||| F0 = F0) :
    FrameOut F0 r0 (execCqHeadDoorbell ctrl qid head s) := by
  refine FrameOut.comp hr0 ?_ m0
  unfold execCqHeadDoorbell
  repeat' (first
    | with_reducible exact Frame.refl _ _ | with_reducible apply modCtrl_frame | with_reducible apply Frame.next
    | with_reducible apply Frame.ite | split | exact Eq.refl _)

/-- May change inflight, nvm. -/
theorem meetFault_frame (s : State) (h : Hdr) (nsid : Nat) (hr0 : Frame F0 r0 s) (m0 : 0x20000000200 ||| F0 = F0) :
    Frame F0 r0 (State.meetFault s h nsid) := by
  refine Frame.comp hr0 ?_ m0
  unfold State.meetFault
  dsimp only
  repeat' (first
    | with_reducible exact Frame.refl _ _ | (intro _) | with_reducible assumption | with_reducible apply finish_frame
    | with_reducible apply clearPending_frame | with_reducible apply Frame.ite | with_reducible apply Frame.foldl | split
    | exact Eq.refl _)

/-- May change regs, ctrls, inflight, order, hd, parks, hdQueue, ats, nvm. -/
theorem execCommandFetch_frame (fetch : FetchCmd) (s : State) (hr0 : Frame F0 r0 s) (m0 : 0x20000f00704 ||| F0 = F0) :
    FrameOut F0 r0 (execCommandFetch fetch s) := by
  refine FrameOut.comp hr0 ?_ m0
  unfold execCommandFetch
  dsimp only
  repeat' (first
    | with_reducible exact Frame.refl _ _ | with_reducible apply modCtrl_frame | with_reducible apply meetFault_frame
    | with_reducible apply hdStart_frame | with_reducible apply Frame.next | with_reducible apply Frame.ite | split
    | exact Eq.refl _ | with_reducible apply upd_inflight_order)

/-- May change slices. -/
theorem acknowledge_frame (s : State) (w : Nat × Nat × List Nat) (hr0 : Frame F0 r0 s) (m0 : 0x20000 ||| F0 = F0) :
    Frame F0 r0 (State.acknowledge s w) := by
  refine Frame.comp hr0 ?_ m0
  unfold State.acknowledge
  dsimp only
  repeat' (first
    | with_reducible exact Frame.refl _ _ | with_reducible apply modSlice_frame | exact SlmSame.of fun _ => rfl
    | exact Eq.refl _)

/-- May change inflight, slices. -/
theorem waitThrough_frame (s : State) (h : Hdr) (l : List (Nat × Nat)) (hr0 : Frame F0 r0 s) (m0 : 0x20200 ||| F0 = F0) :
    Frame F0 r0 (State.waitThrough s h l) := by
  refine Frame.comp hr0 ?_ m0
  unfold State.waitThrough
  repeat' (first
    | with_reducible exact Frame.refl _ _ | (intro _) | with_reducible assumption | with_reducible apply modSlice_frame
    | with_reducible apply modIn_frame | with_reducible apply Frame.foldl | exact SlmSame.of fun _ => rfl | exact Eq.refl _)

/-- May change ctrls, inflight, order, slices, hd, parks, hdQueue, ats. -/
theorem execCompletionPost_frame (h : Hdr) (s : State) (hr0 : Frame F0 r0 s) (m0 : 0xf20700 ||| F0 = F0) :
    FrameOut F0 r0 (execCompletionPost h s) := by
  refine FrameOut.comp hr0 ?_ m0
  unfold execCompletionPost
  dsimp only
  repeat' (first
    | with_reducible exact Frame.refl _ _ | (intro _) | with_reducible assumption | with_reducible apply waitThrough_frame
    | with_reducible apply hdPlace_frame | with_reducible apply translate_frame | with_reducible apply acknowledge_frame
    | with_reducible apply modCtrl_frame | with_reducible apply Frame.next | with_reducible apply Frame.ite
    | with_reducible apply Frame.foldl | split | exact Eq.refl _ | with_reducible apply upd_inflight_order)

/-- May change ctrls. -/
theorem execMsiXTableWrite_frame (ctrl vector : Nat) (masked : Bool) (addr data : Nat) (s : State) (hr0 : Frame F0 r0 s) (m0 :
    0x100 ||| F0 = F0) :
    FrameOut F0 r0 (execMsiXTableWrite ctrl vector masked addr data s) := by
  refine FrameOut.comp hr0 ?_ m0
  unfold execMsiXTableWrite
  dsimp only
  repeat' (first
    | with_reducible exact Frame.refl _ _ | with_reducible apply modCtrl_frame | with_reducible apply Frame.next
    | with_reducible apply Frame.ite | split | exact Eq.refl _)

/-- May change inflight. -/
theorem execUnsupportedOpcode_frame (h : Hdr) (op : OpAction) (s : State) (hr0 : Frame F0 r0 s) (m0 : 0x200 ||| F0 = F0) :
    FrameOut F0 r0 (execUnsupportedOpcode h op s) := by
  refine FrameOut.comp hr0 ?_ m0
  unfold execUnsupportedOpcode
  repeat' (first
    | with_reducible exact Frame.refl _ _ | (intro _) | with_reducible assumption | with_reducible apply run_frame
    | with_reducible apply finish_frame | with_reducible apply Frame.next | with_reducible apply Frame.ite | split
    | exact Eq.refl _)

/-- May change inflight. -/
theorem firmwareCmd_frame (s : State) (h : Hdr) (f : State → State) (hr0 : Frame F0 r0 s) (m0 : 0x200 ||| F0 = F0) (h_f : ∀ t,
    Frame F0 r0 t → Frame F0 r0 (f t)) :
    Frame F0 r0 (State.firmwareCmd s h f) := by
  unfold State.firmwareCmd
  repeat' (first
    | with_reducible exact hr0 | with_reducible apply h_f | (intro _) | with_reducible assumption
    | with_reducible apply run_frame | with_reducible apply finish_frame | with_reducible apply Frame.ite | split
    | exact mask_or ‹_› rfl)

/-- May change regs, inflight, hd, parks, hdQueue, ats, nvm. -/
theorem execFirmwareImageDownload_frame (h : Hdr) (piece : ImagePiece) (s : State) (hr0 : Frame F0 r0 s)
    (m0 : 0x20000f00204 ||| F0 = F0) :
    FrameOut F0 r0 (execFirmwareImageDownload h piece s) := by
  refine FrameOut.comp hr0 ?_ m0
  unfold execFirmwareImageDownload
  dsimp only
  repeat' (first
    | with_reducible exact Frame.refl _ _ | (intro _) | with_reducible assumption | with_reducible apply firmwareCmd_frame
    | with_reducible apply finish_frame | with_reducible apply dataIn_frame | with_reducible apply modNvm_frame
    | with_reducible apply Frame.next | with_reducible apply Frame.ite | split | exact Eq.refl _)

/-- May change nvm, start. -/
theorem commitSlot_frame (s : State) (ca k : Nat) (hr0 : Frame F0 r0 s) (m0 : 0xa0000000000 ||| F0 = F0) :
    Frame F0 r0 (State.commitSlot s ca k) := by
  refine Frame.comp hr0 ?_ m0
  unfold State.commitSlot
  dsimp only
  repeat' (first
    | with_reducible exact Frame.refl _ _ | with_reducible apply putSlots_frame | with_reducible apply modStart_frame
    | with_reducible apply modNvm_frame | with_reducible apply Frame.ite | split | exact Eq.refl _)

/-- May change inflight, nvm, start. -/
theorem execFirmwareCommit_frame (h : Hdr) (ca fs : Nat) (s : State) (hr0 : Frame F0 r0 s) (m0 : 0xa0000000200 ||| F0 = F0) :
    FrameOut F0 r0 (execFirmwareCommit h ca fs s) := by
  refine FrameOut.comp hr0 ?_ m0
  unfold execFirmwareCommit
  dsimp only
  repeat' (first
    | with_reducible exact Frame.refl _ _ | (intro _) | with_reducible assumption | with_reducible apply firmwareCmd_frame
    | with_reducible apply finish_frame | with_reducible apply modNvm_frame | with_reducible apply commitSlot_frame
    | with_reducible apply Frame.next | with_reducible apply Frame.ite | split | exact Eq.refl _)

/-- May change ctrls, start. -/
theorem endSwitch_frame (s : State) (hr0 : Frame F0 r0 s) (m0 : 0x80000000100 ||| F0 = F0) :
    Frame F0 r0 (State.endSwitch s) := by
  refine Frame.comp hr0 ?_ m0
  unfold State.endSwitch
  repeat' (first
    | with_reducible exact Frame.refl _ _ | with_reducible apply evalReady_frame | with_reducible apply modStart_frame
    | exact Eq.refl _)

/-- May change regs, ctrls, meas, measLog, measSeq, nvm, start, recorder. -/
theorem switchTo_frame (s : State) (k : Nat) (im : SeedImage) (hr0 : Frame F0 r0 s) (m0 : 0x1a0070000104 ||| F0 = F0) :
    Frame F0 r0 (State.switchTo s k im) := by
  refine Frame.comp hr0 ?_ m0
  unfold State.switchTo
  dsimp only
  repeat' (first
    | with_reducible exact Frame.refl _ _ | with_reducible apply closeAttempt_frame | with_reducible apply putSlots_frame
    | with_reducible apply openAttempt_frame | with_reducible apply modNvm_frame | with_reducible apply bootSlot_frame
    | with_reducible apply extend_frame | with_reducible apply extendImage_frame | with_reducible apply wr_frame
    | with_reducible apply addF_frame | with_reducible apply modStart_frame | with_reducible apply setStage_frame
    | with_reducible apply endSwitch_frame | with_reducible apply setBit_frame | exact Eq.refl _)

/-- May change pins, regs, latches, busRead, course, dual, links, ctrls, inflight, order, namespaces, tenants, leaving, deferred,
migs, slotWaits, slices, invocations, nextInv, hd, parks, hdQueue, ats, digests, digestWaits, digestOut, hubKey, meas, measLog,
measSeq, staged, spdmPeers, spdmSessions, spdmOut, entropyOk, groupAt, groupRecs, storeHdr, storeNext, wearRateMax, nvm, power,
start, recorder, fences, fenceCounts, fenceSoon, test, unfence, mgmt, fresh, slice-local memory. -/
theorem execFirmwareActivation_frame (s : State) (hr0 : Frame F0 r0 s) (m0 : 0x2ffffffffffffe ||| F0 = F0) :
    FrameOut F0 r0 (execFirmwareActivation s) := by
  refine FrameOut.comp hr0 ?_ m0
  unfold execFirmwareActivation
  dsimp only
  repeat' (first
    | with_reducible exact Frame.refl _ _ | with_reducible apply resetFn_frame | with_reducible apply switchTo_frame
    | with_reducible apply endSwitch_frame | with_reducible apply notice_frame | with_reducible apply putSlots_frame
    | with_reducible apply Frame.next | with_reducible apply Frame.ite | split | exact Eq.refl _)

/-! ### IoCmd -/

/-- May change inflight. -/
theorem ioCmd_frame (s : State) (h : Hdr) (nsid : Nat) (kind : NsKind) (f : Namespace → State → State) (hr0 : Frame F0 r0 s) (m0
    : 0x200 ||| F0 = F0) (h_f : ∀ a0 t, Frame F0 r0 t → Frame F0 r0 (f a0 t)) :
    Frame F0 r0 (State.ioCmd s h nsid kind f) := by
  unfold State.ioCmd
  repeat' (first
    | with_reducible exact hr0 | with_reducible apply h_f | (intro _) | with_reducible assumption
    | with_reducible apply run_frame | with_reducible apply finish_frame | with_reducible apply Frame.ite | split
    | exact mask_or ‹_› rfl)

/-- May change inflight. -/
theorem blockCmd_frame (s : State) (h : Hdr) (x : Namespace) (ranges : List (Nat × Nat)) (f : State → State) (hr0 : Frame F0 r0
    s) (m0 : 0x200 ||| F0 = F0) (h_f : ∀ t, Frame F0 r0 t → Frame F0 r0 (f t)) :
    Frame F0 r0 (State.blockCmd s h x ranges f) := by
  unfold State.blockCmd
  dsimp only
  repeat' (first
    | with_reducible exact hr0 | with_reducible apply h_f | (intro _) | with_reducible assumption
    | with_reducible apply finish_frame | with_reducible apply hold_frame | with_reducible apply Frame.ite | split
    | exact mask_or ‹_› rfl)

/-- May change regs, inflight, slices. -/
theorem senseBlocks_frame (s : State) (h : Hdr) (n i : Nat) (bs : List Nat) (hr0 : Frame F0 r0 s) (m0 : 0x20204 ||| F0 = F0) :
    Frame F0 r0 (State.senseBlocks s h n i bs) := by
  refine Frame.comp hr0 ?_ m0
  unfold State.senseBlocks
  dsimp only
  repeat' (first
    | with_reducible exact Frame.refl _ _ | with_reducible apply pagedLookup_frame | with_reducible apply countRead_frame
    | split | exact Eq.refl _)

/-- May change regs, inflight, slices. -/
theorem countRange_frame (s : State) (h : Hdr) (x : Namespace) (slba nlb : Nat) (hr0 : Frame F0 r0 s) (m0 : 0x20204 ||| F0 = F0)
    :
    Frame F0 r0 (State.countRange s h x slba nlb) := by
  refine Frame.comp hr0 ?_ m0
  unfold State.countRange
  dsimp only
  repeat' (first
    | with_reducible exact Frame.refl _ _ | (intro _) | with_reducible assumption | with_reducible apply senseBlocks_frame
    | with_reducible apply Frame.foldl | exact Eq.refl _)

/-- May change regs, ctrls, inflight, slices, hd, parks, hdQueue, ats. -/
theorem execRead_frame (h : Hdr) (nsid slba nlb : Nat) (s : State) (hr0 : Frame F0 r0 s) (m0 : 0xf20304 ||| F0 = F0) :
    FrameOut F0 r0 (execRead h nsid slba nlb s) := by
  refine FrameOut.comp hr0 ?_ m0
  unfold execRead
  dsimp only
  repeat' (first
    | with_reducible exact Frame.refl _ _ | (intro _) | with_reducible assumption | with_reducible apply ioCmd_frame
    | with_reducible apply finish_frame | with_reducible apply blockCmd_frame | with_reducible apply modCtrl_frame
    | with_reducible apply countRange_frame | with_reducible apply dataOut_frame | with_reducible apply Frame.next
    | with_reducible apply Frame.ite | split | exact Eq.refl _)

/-- May change regs, inflight, slices. -/
theorem execVerify_frame (h : Hdr) (nsid slba nlb : Nat) (s : State) (hr0 : Frame F0 r0 s) (m0 : 0x20204 ||| F0 = F0) :
    FrameOut F0 r0 (execVerify h nsid slba nlb s) := by
  refine FrameOut.comp hr0 ?_ m0
  unfold execVerify
  dsimp only
  repeat' (first
    | with_reducible exact Frame.refl _ _ | (intro _) | with_reducible assumption | with_reducible apply ioCmd_frame
    | with_reducible apply blockCmd_frame | with_reducible apply countRange_frame | with_reducible apply finish_frame
    | with_reducible apply Frame.next | split | exact Eq.refl _)

/-- May change regs, ctrls, inflight, slices, hd, parks, hdQueue, ats. -/
theorem execCompare_frame (h : Hdr) (nsid slba : Nat) (data : List Block) (s : State) (hr0 : Frame F0 r0 s) (m0 : 0xf20304 |||
    F0 = F0) :
    FrameOut F0 r0 (execCompare h nsid slba data s) := by
  refine FrameOut.comp hr0 ?_ m0
  unfold execCompare
  dsimp only
  repeat' (first
    | with_reducible exact Frame.refl _ _ | (intro _) | with_reducible assumption | with_reducible apply ioCmd_frame
    | with_reducible apply finish_frame | with_reducible apply blockCmd_frame | with_reducible apply modCtrl_frame
    | with_reducible apply dataIn_frame | with_reducible apply countRange_frame | with_reducible apply Frame.next
    | with_reducible apply Frame.ite | split | exact Eq.refl _)

/-- May change tenants, slices, fresh. -/
theorem charge_frame (s : State) (owner n : Nat) (p : Pool) (bytes : Nat) (hr0 : Frame F0 r0 s) (m0 : 0x8000000021000 ||| F0 =
    F0) :
    Frame F0 r0 (State.charge s owner n p bytes) := by
  refine Frame.comp hr0 ?_ m0
  unfold State.charge
  dsimp only
  repeat' (first
    | with_reducible exact Frame.refl _ _ | with_reducible apply free_frame | with_reducible apply modTenant_frame
    | with_reducible apply modSlice_frame | exact SlmSame.of fun _ => rfl | split | exact Eq.refl _)

/-- May change regs, tenants, slices, fresh. -/
theorem charges_frame (s : State) (h : Hdr) (x : Namespace) (lbas : List Nat) (hr0 : Frame F0 r0 s) (m0 : 0x8000000021004 ||| F0
    = F0) :
    Frame F0 r0 (State.charges s h x lbas) := by
  refine Frame.comp hr0 ?_ m0
  unfold State.charges
  repeat' (first
    | with_reducible exact Frame.refl _ _ | (intro _) | with_reducible assumption | with_reducible apply evalWear_frame
    | with_reducible apply charge_frame | with_reducible apply Frame.foldl | exact Eq.refl _)

/-- May change slices, nvm. -/
theorem writeBlock_frame (s : State) (x : Namespace) (owner lba : Nat) (d : Block) (hr0 : Frame F0 r0 s) (m0 : 0x20000020000 |||
    F0 = F0) :
    Frame F0 r0 (State.writeBlock s x owner lba d).2 := by
  refine Frame.comp hr0 ?_ m0
  unfold State.writeBlock
  dsimp only
  repeat' (first
    | with_reducible exact Frame.refl _ _ | with_reducible apply bufferBlock_frame | with_reducible apply unfault_frame
    | with_reducible apply Frame.ite | split | exact Eq.refl _)

/-- May change slices, nvm. -/
theorem writeBlocks_frame (s : State) (x : Namespace) (owner : Nat) (l : List (Nat × Block)) (hr0 : Frame F0 r0 s) (m0 :
    0x20000020000 ||| F0 = F0) :
    Frame F0 r0 (State.writeBlocks s x owner l).state := by
  refine Frame.comp hr0 ?_ m0
  unfold State.writeBlocks
  dsimp only
  repeat' (first
    | with_reducible exact Frame.refl _ _ | (intro _) | with_reducible assumption | with_reducible apply writeBlock_frame
    | with_reducible apply Frame.foldl | with_reducible apply written_foldl | split | exact Eq.refl _)

/-- May change slices. -/
theorem throughNow_frame (s : State) (h : Hdr) (x : Namespace) (fua : Bool) (wrote : List (Nat × Nat × List Nat)) (hr0 : Frame
    F0 r0 s) (m0 : 0x20000 ||| F0 = F0) :
    Frame F0 r0 (State.throughNow s h x fua wrote).2 := by
  refine Frame.comp hr0 ?_ m0
  unfold State.throughNow
  dsimp only
  repeat' (first
    | with_reducible exact Frame.refl _ _ | (intro _) | with_reducible assumption | with_reducible apply modSlice_frame
    | with_reducible apply Frame.foldl | exact SlmSame.of fun _ => rfl | exact Eq.refl _)

/-- May change regs, ctrls, inflight, tenants, slices, nvm, fresh. -/
theorem writeOut_frame (s : State) (h : Hdr) (x : Namespace) (fua : Bool) (l : List (Nat × Block)) (hr0 : Frame F0 r0 s) (m0 :
    0x8020000021304 ||| F0 = F0) :
    Frame F0 r0 (State.writeOut s h x fua l) := by
  refine Frame.comp hr0 ?_ m0
  unfold State.writeOut
  dsimp only
  repeat' (first
    | with_reducible exact Frame.refl _ _ | with_reducible apply charges_frame | with_reducible apply writeBlocks_frame
    | with_reducible apply throughNow_frame | with_reducible apply modCtrl_frame | with_reducible apply modIn_frame
    | with_reducible apply answer_frame | split | exact Eq.refl _)

/-- May change inflight. -/
theorem writeCmd_frame (s : State) (h : Hdr) (x : Namespace) (fua : Bool) (slba : Nat) (buffered : List Nat) (f : State → State)
    (hr0 : Frame F0 r0 s) (m0 : 0x200 ||| F0 = F0) (h_f : ∀ t, Frame F0 r0 t → Frame F0 r0 (f t)) :
    Frame F0 r0 (State.writeCmd s h x fua slba buffered f) := by
  unfold State.writeCmd
  repeat' (first
    | with_reducible exact hr0 | with_reducible apply h_f | (intro _) | with_reducible assumption
    | with_reducible apply finish_frame | with_reducible apply hold_frame | with_reducible apply Frame.ite | split
    | exact mask_or ‹_› rfl)

/-- May change regs, ctrls, inflight, tenants, slices, hd, parks, hdQueue, ats, nvm, fresh. -/
theorem execWrite_frame (h : Hdr) (nsid slba : Nat) (data : List Block) (fua : Bool) (s : State) (hr0 : Frame F0 r0 s) (m0 :
    0x8020000f21304 ||| F0 = F0) :
    FrameOut F0 r0 (execWrite h nsid slba data fua s) := by
  refine FrameOut.comp hr0 ?_ m0
  unfold execWrite
  dsimp only
  repeat' (first
    | with_reducible exact Frame.refl _ _ | (intro _) | with_reducible assumption | with_reducible apply ioCmd_frame
    | with_reducible apply finish_frame | with_reducible apply blockCmd_frame | with_reducible apply writeCmd_frame
    | with_reducible apply writeOut_frame | with_reducible apply dataIn_frame | with_reducible apply Frame.next
    | with_reducible apply Frame.ite | split | exact Eq.refl _)

/-- May change inflight, slices, nvm. -/
theorem clearUnit_frame (s : State) (x : Namespace) (lba : Nat) (e : Entry) (hr0 : Frame F0 r0 s) (m0 : 0x20000020200 ||| F0 =
    F0) :
    Frame F0 r0 (State.clearUnit s x lba e) := by
  refine Frame.comp hr0 ?_ m0
  unfold State.clearUnit
  dsimp only
  repeat' (first
    | with_reducible exact Frame.refl _ _ | (intro _) | with_reducible assumption | with_reducible apply supersede_frame
    | with_reducible apply clearCond_frame | with_reducible apply unfault_frame | with_reducible apply Frame.foldl
    | exact Eq.refl _)

/-- May change regs, ctrls, inflight, tenants, slices, nvm, fresh. -/
theorem execWriteZeroes_frame (h : Hdr) (nsid slba nlb : Nat) (deac fua : Bool) (s : State) (hr0 : Frame F0 r0 s) (m0 :
    0x8020000021304 ||| F0 = F0) :
    FrameOut F0 r0 (execWriteZeroes h nsid slba nlb deac fua s) := by
  refine FrameOut.comp hr0 ?_ m0
  unfold execWriteZeroes
  dsimp only
  repeat' (first
    | with_reducible exact Frame.refl _ _ | (intro _) | with_reducible assumption | with_reducible apply ioCmd_frame
    | with_reducible apply finish_frame | with_reducible apply blockCmd_frame | with_reducible apply writeCmd_frame
    | with_reducible apply clearUnit_frame | with_reducible apply writeOut_frame | with_reducible apply modIn_frame
    | with_reducible apply Frame.next | with_reducible apply Frame.ite | with_reducible apply Frame.foldl | split
    | exact Eq.refl _)

/-- May change regs, inflight, slices, hd, parks, hdQueue, ats, nvm. -/
theorem execDatasetManagement_frame (h : Hdr) (nsid : Nat) (ad : Bool) (ranges : List (Nat × Nat)) (s : State) (hr0 : Frame F0
    r0 s) (m0 : 0x20000f20204 ||| F0 = F0) :
    FrameOut F0 r0 (execDatasetManagement h nsid ad ranges s) := by
  refine FrameOut.comp hr0 ?_ m0
  unfold execDatasetManagement
  dsimp only
  repeat' (first
    | with_reducible exact Frame.refl _ _ | (intro _) | with_reducible assumption | with_reducible apply ioCmd_frame
    | with_reducible apply blockCmd_frame | with_reducible apply dataIn_frame | with_reducible apply finish_frame
    | with_reducible apply clearUnit_frame | with_reducible apply Frame.next | with_reducible apply Frame.ite
    | with_reducible apply Frame.foldl | split | exact Eq.refl _)

/-- May change regs, ctrls, inflight, tenants, slices, nvm, fresh. -/
theorem execCopy_frame (h : Hdr) (nsid format sdlba : Nat) (sources : List CopySource) (fua : Bool) (s : State) (hr0 : Frame F0
    r0 s) (m0 : 0x8020000021304 ||| F0 = F0) :
    FrameOut F0 r0 (execCopy h nsid format sdlba sources fua s) := by
  refine FrameOut.comp hr0 ?_ m0
  unfold execCopy
  dsimp only
  repeat' (first
    | with_reducible exact Frame.refl _ _ | (intro _) | with_reducible assumption | with_reducible apply ioCmd_frame
    | with_reducible apply finish_frame | with_reducible apply blockCmd_frame | with_reducible apply writeCmd_frame
    | with_reducible apply writeOut_frame | with_reducible apply countRange_frame | with_reducible apply Frame.next
    | with_reducible apply Frame.ite | with_reducible apply Frame.foldl | split | exact Eq.refl _)

/-- May change inflight, slices. -/
theorem flushOf_frame (s : State) (h : Hdr) (nsids : List Nat) (hr0 : Frame F0 r0 s) (m0 : 0x20200 ||| F0 = F0) :
    Frame F0 r0 (State.flushOf s h nsids) := by
  refine Frame.comp hr0 ?_ m0
  unfold State.flushOf
  dsimp only
  repeat' (first
    | with_reducible exact Frame.refl _ _ | (intro _) | with_reducible assumption | with_reducible apply modSlice_frame
    | with_reducible apply answer_frame | with_reducible apply Frame.foldl | exact SlmSame.of fun _ => rfl | exact Eq.refl _)

/-- May change inflight, slices. -/
theorem execFlush_frame (h : Hdr) (nsid : Nat) (s : State) (hr0 : Frame F0 r0 s) (m0 : 0x20200 ||| F0 = F0) :
    FrameOut F0 r0 (execFlush h nsid s) := by
  refine FrameOut.comp hr0 ?_ m0
  unfold execFlush
  repeat' (first
    | with_reducible exact Frame.refl _ _ | (intro _) | with_reducible assumption | with_reducible apply run_frame
    | with_reducible apply flushOf_frame | with_reducible apply finish_frame | with_reducible apply Frame.next
    | with_reducible apply Frame.ite | split | exact Eq.refl _)

end Sys2Proof.Laws
end

