-- ==== Sys2Proof/Laws/FrameAdmin.lean ====
section
/-!
SUPPORT. What each operation may change: logs, administration, namespaces, keys and the store.
-/

namespace Sys2Proof.Laws

open Sys2Proof.Machine

variable {F0 : Nat} {r0 : State}

/-! ### LogOps -/

/-- May change fresh. -/
theorem smartLog_frame (s : State) (c : Nat) (hr0 : Frame F0 r0 s) (m0 : 0x8000000000000 ||| F0 = F0) :
    Frame F0 r0 (State.smartLog s c).2 := by
  refine Frame.comp hr0 ?_ m0
  unfold State.smartLog
  dsimp only
  repeat' (first
    | with_reducible exact Frame.refl _ _ | (intro _) | with_reducible assumption | with_reducible apply free_frame
    | with_reducible apply Frame.ite | with_reducible apply Frame.foldl | split | exact Eq.refl _)

/-- May change fresh. -/
theorem logPage_frame (s : State) (c lid : Nat) (hr0 : Frame F0 r0 s) (m0 : 0x8000000000000 ||| F0 = F0) :
    Frame F0 r0 (State.logPage s c lid).2 := by
  refine Frame.comp hr0 ?_ m0
  unfold State.logPage
  dsimp only
  repeat' (first
    | with_reducible exact Frame.refl _ _ | with_reducible apply smartLog_frame | with_reducible apply Frame.ite | split
    | exact Eq.refl _)

/-! ### Admin -/

/-- May change inflight. -/
theorem adminCmd_frame (s : State) (h : Hdr) (f : State → State) (hr0 : Frame F0 r0 s) (m0 : 0x200 ||| F0 = F0) (h_f : ∀ t,
    Frame F0 r0 t → Frame F0 r0 (f t)) :
    Frame F0 r0 (State.adminCmd s h f) := by
  unfold State.adminCmd
  repeat' (first
    | with_reducible exact hr0 | with_reducible apply h_f | (intro _) | with_reducible assumption
    | with_reducible apply run_frame | with_reducible apply finish_frame | with_reducible apply Frame.ite | split
    | exact mask_or ‹_› rfl)

/-- May change inflight. -/
theorem managerFeature_frame (s : State) (h : Hdr) (f : State → State) (hr0 : Frame F0 r0 s) (m0 : 0x200 ||| F0 = F0) (h_f : ∀
    t, Frame F0 r0 t → Frame F0 r0 (f t)) :
    Frame F0 r0 (State.managerFeature s h f) := by
  unfold State.managerFeature
  repeat' (first
    | with_reducible exact hr0 | with_reducible apply h_f | (intro _) | with_reducible assumption
    | with_reducible apply adminCmd_frame | with_reducible apply finish_frame | with_reducible apply Frame.ite | split
    | exact mask_or ‹_› rfl)

/-- May change regs, inflight, hd, parks, hdQueue, ats. -/
theorem execIdentify_frame (h : Hdr) (cns nsid : Nat) (s : State) (hr0 : Frame F0 r0 s) (m0 : 0xf00204 ||| F0 = F0) :
    FrameOut F0 r0 (execIdentify h cns nsid s) := by
  refine FrameOut.comp hr0 ?_ m0
  unfold execIdentify
  dsimp only
  repeat' (first
    | with_reducible exact Frame.refl _ _ | (intro _) | with_reducible assumption | with_reducible apply run_frame
    | with_reducible apply finish_frame | with_reducible apply dataOut_frame | with_reducible apply Frame.next
    | with_reducible apply Frame.ite | split | exact Eq.refl _)

/-- May change regs, inflight, hd, parks, hdQueue, ats, fresh. -/
theorem execGetLogPage_frame (h : Hdr) (lid : Nat) (s : State) (hr0 : Frame F0 r0 s) (m0 : 0x8000000f00204 ||| F0 = F0) :
    FrameOut F0 r0 (execGetLogPage h lid s) := by
  refine FrameOut.comp hr0 ?_ m0
  unfold execGetLogPage
  dsimp only
  repeat' (first
    | with_reducible exact Frame.refl _ _ | (intro _) | with_reducible assumption | with_reducible apply run_frame
    | with_reducible apply logPage_frame | with_reducible apply finish_frame | with_reducible apply dataOut_frame
    | with_reducible apply Frame.next | with_reducible apply Frame.ite | split | exact Eq.refl _)

/-- May change inflight. -/
theorem execGetFeatures_frame (h : Hdr) (fid nsid : Nat) (s : State) (hr0 : Frame F0 r0 s) (m0 : 0x200 ||| F0 = F0) :
    FrameOut F0 r0 (execGetFeatures h fid nsid s) := by
  refine FrameOut.comp hr0 ?_ m0
  unfold execGetFeatures
  repeat' (first
    | with_reducible exact Frame.refl _ _ | (intro _) | with_reducible assumption | with_reducible apply adminCmd_frame
    | with_reducible apply finish_frame | with_reducible apply Frame.next | exact Eq.refl _)

/-- May change ctrls, fresh. -/
theorem takeApst_frame (s : State) (c value : Nat) (hr0 : Frame F0 r0 s) (m0 : 0x8000000000100 ||| F0 = F0) :
    Frame F0 r0 (State.takeApst s c value) := by
  refine Frame.comp hr0 ?_ m0
  unfold State.takeApst
  dsimp only
  repeat' (first
    | with_reducible exact Frame.refl _ _ | with_reducible apply free_frame | with_reducible apply modCtrl_frame
    | with_reducible apply Frame.ite | split | exact Eq.refl _)

/-- May change ctrls, inflight, fresh. -/
theorem execSetFeatures_frame (h : Hdr) (fid value : Nat) (s : State) (hr0 : Frame F0 r0 s) (m0 : 0x8000000000300 ||| F0 = F0) :
    FrameOut F0 r0 (execSetFeatures h fid value s) := by
  refine FrameOut.comp hr0 ?_ m0
  unfold execSetFeatures
  dsimp only
  repeat' (first
    | with_reducible exact Frame.refl _ _ | (intro _) | with_reducible assumption | with_reducible apply adminCmd_frame
    | with_reducible apply finish_frame | with_reducible apply modCtrl_frame | with_reducible apply takeApst_frame
    | with_reducible apply Frame.next | with_reducible apply Frame.ite | split | exact Eq.refl _)

/-- May change ctrls, inflight. -/
theorem execSetFeaturesVolatileWriteCache_frame (h : Hdr) (wce : Bool) (s : State) (hr0 : Frame F0 r0 s) (m0 : 0x300 ||| F0 =
    F0) :
    FrameOut F0 r0 (execSetFeaturesVolatileWriteCache h wce s) := by
  refine FrameOut.comp hr0 ?_ m0
  unfold execSetFeaturesVolatileWriteCache
  repeat' (first
    | with_reducible exact Frame.refl _ _ | (intro _) | with_reducible assumption | with_reducible apply adminCmd_frame
    | with_reducible apply finish_frame | with_reducible apply modCtrl_frame | with_reducible apply Frame.next
    | exact Eq.refl _)

/-- May change inflight, namespaces. -/
theorem execSetFeaturesInlineCompression_frame (h : Hdr) (nsid : Nat) (enable : Bool) (s : State) (hr0 : Frame F0 r0 s) (m0 :
    0xa00 ||| F0 = F0) :
    FrameOut F0 r0 (execSetFeaturesInlineCompression h nsid enable s) := by
  refine FrameOut.comp hr0 ?_ m0
  unfold execSetFeaturesInlineCompression
  repeat' (first
    | with_reducible exact Frame.refl _ _ | (intro _) | with_reducible assumption | with_reducible apply managerFeature_frame
    | with_reducible apply finish_frame | with_reducible apply modNs_frame | with_reducible apply Frame.next | split
    | exact Eq.refl _)

/-- May change inflight, namespaces. -/
theorem execSetFeaturesDurability_frame (h : Hdr) (nsid : Nat) (through : Bool) (s : State) (hr0 : Frame F0 r0 s) (m0 : 0xa00
    ||| F0 = F0) :
    FrameOut F0 r0 (execSetFeaturesDurability h nsid through s) := by
  refine FrameOut.comp hr0 ?_ m0
  unfold execSetFeaturesDurability
  repeat' (first
    | with_reducible exact Frame.refl _ _ | (intro _) | with_reducible assumption | with_reducible apply managerFeature_frame
    | with_reducible apply finish_frame | with_reducible apply modNs_frame | with_reducible apply Frame.next | split
    | exact Eq.refl _)

/-- May change ctrls, inflight. -/
theorem execSetFeaturesLatencyTolerance_frame (h : Hdr) (cntlid tolerance : Nat) (s : State) (hr0 : Frame F0 r0 s) (m0 : 0x300
    ||| F0 = F0) :
    FrameOut F0 r0 (execSetFeaturesLatencyTolerance h cntlid tolerance s) := by
  refine FrameOut.comp hr0 ?_ m0
  unfold execSetFeaturesLatencyTolerance
  repeat' (first
    | with_reducible exact Frame.refl _ _ | (intro _) | with_reducible assumption | with_reducible apply managerFeature_frame
    | with_reducible apply finish_frame | with_reducible apply modCtrl_frame | with_reducible apply Frame.next
    | with_reducible apply Frame.ite | split | exact Eq.refl _)

/-- May change inflight, power. -/
theorem execSetFeaturesPowerManagement_frame (h : Hdr) (ps : Nat) (s : State) (hr0 : Frame F0 r0 s) (m0 : 0x40000000200 ||| F0 =
    F0) :
    FrameOut F0 r0 (execSetFeaturesPowerManagement h ps s) := by
  refine FrameOut.comp hr0 ?_ m0
  unfold execSetFeaturesPowerManagement
  repeat' (first
    | with_reducible exact Frame.refl _ _ | (intro _) | with_reducible assumption | with_reducible apply managerFeature_frame
    | with_reducible apply finish_frame | with_reducible apply modPower_frame | with_reducible apply Frame.next
    | with_reducible apply Frame.ite | split | exact Eq.refl _)

/-- May change ctrls, inflight. -/
theorem execCreateIoCompletionQueue_frame (h : Hdr) (qid size vector : Nat) (mem : QueueMem) (s : State) (hr0 : Frame F0
    r0 s) (m0 : 0x300 ||| F0 = F0) :
    FrameOut F0 r0 (execCreateIoCompletionQueue h qid size vector mem s) := by
  refine FrameOut.comp hr0 ?_ m0
  unfold execCreateIoCompletionQueue
  dsimp only
  repeat' (first
    | with_reducible exact Frame.refl _ _ | (intro _) | with_reducible assumption | with_reducible apply adminCmd_frame
    | with_reducible apply finish_frame | with_reducible apply modCtrl_frame | with_reducible apply Frame.next
    | with_reducible apply Frame.ite | split | exact Eq.refl _)

/-- May change ctrls, inflight. -/
theorem execCreateIoSubmissionQueue_frame (h : Hdr) (qid size cqid prio : Nat) (mem : QueueMem) (s : State) (hr0 : Frame
    F0 r0 s) (m0 : 0x300 ||| F0 = F0) :
    FrameOut F0 r0 (execCreateIoSubmissionQueue h qid size cqid prio mem s) := by
  refine FrameOut.comp hr0 ?_ m0
  unfold execCreateIoSubmissionQueue
  dsimp only
  repeat' (first
    | with_reducible exact Frame.refl _ _ | (intro _) | with_reducible assumption | with_reducible apply adminCmd_frame
    | with_reducible apply finish_frame | with_reducible apply modCtrl_frame | with_reducible apply Frame.next
    | with_reducible apply Frame.ite | split | exact Eq.refl _)

/-- May change ctrls, inflight. -/
theorem execDeleteIoSubmissionQueue_frame (h : Hdr) (qid : Nat) (s : State) (hr0 : Frame F0 r0 s) (m0 : 0x300 ||| F0 = F0) :
    FrameOut F0 r0 (execDeleteIoSubmissionQueue h qid s) := by
  refine FrameOut.comp hr0 ?_ m0
  unfold execDeleteIoSubmissionQueue
  dsimp only
  repeat' (first
    | with_reducible exact Frame.refl _ _ | (intro _) | with_reducible assumption | with_reducible apply adminCmd_frame
    | with_reducible apply finish_frame | with_reducible apply modCtrl_frame | with_reducible apply Frame.next
    | with_reducible apply Frame.ite | with_reducible apply Frame.foldl | split | exact Eq.refl _)

/-- May change ctrls, inflight. -/
theorem execDeleteIoCompletionQueue_frame (h : Hdr) (qid : Nat) (s : State) (hr0 : Frame F0 r0 s) (m0 : 0x300 ||| F0 = F0) :
    FrameOut F0 r0 (execDeleteIoCompletionQueue h qid s) := by
  refine FrameOut.comp hr0 ?_ m0
  unfold execDeleteIoCompletionQueue
  dsimp only
  repeat' (first
    | with_reducible exact Frame.refl _ _ | (intro _) | with_reducible assumption | with_reducible apply adminCmd_frame
    | with_reducible apply finish_frame | with_reducible apply modCtrl_frame | with_reducible apply Frame.next
    | with_reducible apply Frame.ite | split | exact Eq.refl _)

/-- May change inflight. -/
theorem execAbort_frame (h : Hdr) (sqid cid : Nat) (s : State) (hr0 : Frame F0 r0 s) (m0 : 0x200 ||| F0 = F0) :
    FrameOut F0 r0 (execAbort h sqid cid s) := by
  refine FrameOut.comp hr0 ?_ m0
  unfold execAbort
  dsimp only
  repeat' (first
    | with_reducible exact Frame.refl _ _ | (intro _) | with_reducible assumption | with_reducible apply adminCmd_frame
    | with_reducible apply finish_frame | with_reducible apply modIn_frame | with_reducible apply Frame.next
    | with_reducible apply Frame.ite | split | exact Eq.refl _)

/-- May change ctrls, inflight. -/
theorem execAsynchronousEventRequest_frame (h : Hdr) (s : State) (hr0 : Frame F0 r0 s) (m0 : 0x300 ||| F0 = F0) :
    FrameOut F0 r0 (execAsynchronousEventRequest h s) := by
  refine FrameOut.comp hr0 ?_ m0
  unfold execAsynchronousEventRequest
  repeat' (first
    | with_reducible exact Frame.refl _ _ | (intro _) | with_reducible assumption | with_reducible apply adminCmd_frame
    | with_reducible apply finish_frame | with_reducible apply modCtrl_frame | with_reducible apply modIn_frame
    | with_reducible apply Frame.next | with_reducible apply Frame.ite | split | exact Eq.refl _)

/-! ### Namespaces -/

/-- May change regs, inflight, namespaces, slices, fresh. -/
theorem execNamespaceCreate_frame (h : Hdr) (csi nsze ncap flbas : Nat) (desc : CreateDesc) (s : State) (hr0 : Frame F0 r0 s)
    (m0 : 0x8000000020a04 ||| F0 = F0) :
    FrameOut F0 r0 (execNamespaceCreate h csi nsze ncap flbas desc s) := by
  refine FrameOut.comp hr0 ?_ m0
  unfold execNamespaceCreate
  dsimp only
  repeat' (first
    | with_reducible exact Frame.refl _ _ | (intro _) | with_reducible assumption | with_reducible apply managed_frame
    | with_reducible apply finish_frame | with_reducible apply evalSpare_frame | with_reducible apply sealPart_frame
    | with_reducible apply Frame.next | with_reducible apply Frame.ite | with_reducible apply Frame.foldl | split
    | exact Eq.refl _ | with_reducible apply upd_namespaces)

/-- May change inflight, slices. -/
theorem dropVersions_frame (s : State) (n nsid : Nat) (hr0 : Frame F0 r0 s) (m0 : 0x20200 ||| F0 = F0) :
    Frame F0 r0 (State.dropVersions s n nsid) := by
  refine Frame.comp hr0 ?_ m0
  unfold State.dropVersions
  dsimp only
  repeat' (first
    | with_reducible exact Frame.refl _ _ | (intro _) | with_reducible assumption | with_reducible apply modSlice_frame
    | with_reducible apply clearCond_frame | with_reducible apply Frame.foldl | exact SlmSame.of fun _ => rfl
    | (refine SlmSame.of fun x => ?_; simp [apply_ite Slice.slm]; done)
    | (refine SlmSame.of fun x => ?_; (try dsimp only); apply slm_foldl; intro _ _; simp; done)
    | (refine SlmSame.of fun x => ?_; apply slm_foldr; intro _ _; simp; done)
    | (refine SlmSame.of fun x => ?_; (repeat' (first | rfl | (simp [apply_ite Slice.slm]; done) | split)); done)
    | exact Eq.refl _)

/-- May change slices. -/
theorem dropEntries_frame (s : State) (n : Nat) (q : NsPart) (nsid : Nat) (hr0 : Frame F0 r0 s) (m0 : 0x20000 ||| F0 = F0) :
    Frame F0 r0 (State.dropEntries s n q nsid) := by
  refine Frame.comp hr0 ?_ m0
  unfold State.dropEntries
  dsimp only
  repeat' (first
    | with_reducible exact Frame.refl _ _ | (intro _) | with_reducible assumption | with_reducible apply modSlice_frame
    | with_reducible apply Frame.foldl | exact SlmSame.of fun _ => rfl
    | (refine SlmSame.of fun x => ?_; simp [apply_ite Slice.slm]; done)
    | (refine SlmSame.of fun x => ?_; (try dsimp only); apply slm_foldl; intro _ _; simp; done)
    | (refine SlmSame.of fun x => ?_; (repeat' (first | rfl | (simp [apply_ite Slice.slm]; done) | split)); done)
    | exact Eq.refl _)

/-- May change inflight, slices, digests, fences. -/
theorem dropObjects_frame (s : State) (n nsid : Nat) (hr0 : Frame F0 r0 s) (m0 : 0x200001020200 ||| F0 = F0) :
    Frame F0 r0 (State.dropObjects s n nsid) := by
  refine Frame.comp hr0 ?_ m0
  unfold State.dropObjects
  dsimp only
  repeat' (first
    | with_reducible exact Frame.refl _ _ | (intro _) | with_reducible assumption | with_reducible apply abandon_frame
    | with_reducible apply unpin_frame | with_reducible apply modSlice_frame | with_reducible apply Frame.foldl
    | exact SlmSame.of fun _ => rfl | exact Eq.refl _)

/-- May change nvm. -/
theorem dropRanges_frame (s : State) (nsid : Nat) (hr0 : Frame F0 r0 s) (m0 : 0x20000000000 ||| F0 = F0) :
    Frame F0 r0 (State.dropRanges s nsid) := by
  refine Frame.comp hr0 ?_ m0
  unfold State.dropRanges
  repeat' (first | with_reducible exact Frame.refl _ _ | with_reducible apply modNvm_frame | exact Eq.refl _)

/-- May change inflight, slices, digests, nvm, fences, slice-local memory. -/
theorem clearNs_frame (s : State) (x : Namespace) (erase : Bool) (hr0 : Frame F0 r0 s) (m0 : 0x20220001020200 ||| F0 = F0) :
    Frame F0 r0 (State.clearNs s x erase) := by
  refine Frame.comp hr0 ?_ m0
  unfold State.clearNs
  dsimp only
  repeat' (first
    | with_reducible exact Frame.refl _ _ | (intro _) | with_reducible assumption | with_reducible apply dropObjects_frame
    | with_reducible apply dropVersions_frame | with_reducible apply dropEntries_frame | with_reducible apply dropRanges_frame
    | with_reducible apply zeroMem_frame | with_reducible apply Frame.ite | with_reducible apply Frame.foldl | split
    | exact Eq.refl _)

/-- May change regs, inflight, namespaces, slices, invocations, digests, nvm, fences, slice-local memory. -/
theorem deleteNs_frame (s : State) (x : Namespace) (hr0 : Frame F0 r0 s) (m0 : 0x20220001060a04 ||| F0 = F0) :
    Frame F0 r0 (State.deleteNs s x) := by
  refine Frame.comp hr0 ?_ m0
  unfold State.deleteNs
  dsimp only
  repeat' (first
    | with_reducible exact Frame.refl _ _ | (intro _) | with_reducible assumption | with_reducible apply endInvocations_frame
    | with_reducible apply clearNs_frame | with_reducible apply modNvm_frame | with_reducible apply unsealPart_frame
    | with_reducible apply evalSpare_frame | with_reducible apply Frame.ite | with_reducible apply Frame.foldl | split
    | exact Eq.refl _ | with_reducible apply upd_namespaces)

/-- May change regs, inflight, namespaces, slices, invocations, digests, nvm, fences, slice-local memory. -/
theorem execNamespaceDelete_frame (h : Hdr) (nsid : Nat) (s : State) (hr0 : Frame F0 r0 s) (m0 : 0x20220001060a04 ||| F0 = F0) :
    FrameOut F0 r0 (execNamespaceDelete h nsid s) := by
  refine FrameOut.comp hr0 ?_ m0
  unfold execNamespaceDelete
  repeat' (first
    | with_reducible exact Frame.refl _ _ | (intro _) | with_reducible assumption | with_reducible apply managed_frame
    | with_reducible apply finish_frame | with_reducible apply deleteNs_frame | with_reducible apply Frame.next
    | with_reducible apply Frame.ite | with_reducible apply Frame.foldl | split | exact Eq.refl _)

/-- May change regs, slotWaits, slices, nvm, fresh. -/
theorem regenerate_frame (s : State) (x : Namespace) (hr0 : Frame F0 r0 s) (m0 : 0x8020000030004 ||| F0 = F0) :
    Frame F0 r0 (State.regenerate s x).1 := by
  refine Frame.comp hr0 ?_ m0
  unfold State.regenerate
  dsimp only
  repeat' (first
    | with_reducible exact Frame.refl _ _ | with_reducible apply random_frame | with_reducible apply loadKey_frame | split
    | exact Eq.refl _ | with_reducible apply upd_slotWaits)

/-- May change regs, inflight, slotWaits, slices, digests, nvm, fences, fresh, slice-local memory. -/
theorem execFormatNvm_frame (h : Hdr) (nsid ses lbaf pi mset : Nat) (s : State) (hr0 : Frame F0 r0 s) (m0 : 0x28220001030204 |||
    F0 = F0) :
    FrameOut F0 r0 (execFormatNvm h nsid ses lbaf pi mset s) := by
  refine FrameOut.comp hr0 ?_ m0
  unfold execFormatNvm
  dsimp only
  repeat' (first
    | with_reducible exact Frame.refl _ _ | (intro _) | with_reducible assumption | with_reducible apply managed_frame
    | with_reducible apply finish_frame | with_reducible apply clearNs_frame | with_reducible apply regenerate_frame
    | with_reducible apply answer_frame | with_reducible apply Frame.next | with_reducible apply Frame.ite
    | with_reducible apply Frame.foldl | with_reducible apply Frame.foldl_fst | split | exact Eq.refl _)

/-! ### Keys -/

/-- May change inflight. -/
theorem failKey_frame (s : State) (h : Hdr) (k : Nat) (hr0 : Frame F0 r0 s) (m0 : 0x200 ||| F0 = F0) :
    Frame F0 r0 (State.failKey s h k) := by
  refine Frame.comp hr0 ?_ m0
  unfold State.failKey
  repeat' (first | with_reducible exact Frame.refl _ _ | with_reducible apply finish_frame | exact Eq.refl _)

/-- May change regs, inflight, slices, nvm, fresh. -/
theorem execGenerate_frame (h : Hdr) (slot use : Nat) (s : State) (hr0 : Frame F0 r0 s) (m0 : 0x8020000020204 ||| F0 = F0) :
    FrameOut F0 r0 (execGenerate h slot use s) := by
  refine FrameOut.comp hr0 ?_ m0
  unfold execGenerate
  dsimp only
  repeat' (first
    | with_reducible exact Frame.refl _ _ | (intro _) | with_reducible assumption | with_reducible apply serial_frame
    | with_reducible apply failKey_frame | with_reducible apply random_frame | with_reducible apply finish_frame
    | with_reducible apply loadKey_frame | with_reducible apply Frame.next | with_reducible apply Frame.ite | split
    | exact Eq.refl _)

/-- May change regs, inflight, slices, hd, parks, hdQueue, ats, nvm. -/
theorem execImportKey_frame (h : Hdr) (slot kek use : Nat) (wrapped : List (BitVec 8)) (s : State) (hr0 : Frame F0 r0 s) (m0 :
    0x20000f20204 ||| F0 = F0) :
    FrameOut F0 r0 (execImportKey h slot kek use wrapped s) := by
  refine FrameOut.comp hr0 ?_ m0
  unfold execImportKey
  dsimp only
  repeat' (first
    | with_reducible exact Frame.refl _ _ | (intro _) | with_reducible assumption | with_reducible apply serial_frame
    | with_reducible apply failKey_frame | with_reducible apply dataIn_frame | with_reducible apply setBit_frame
    | with_reducible apply finish_frame | with_reducible apply loadKey_frame | with_reducible apply Frame.next
    | with_reducible apply Frame.ite | split | exact Eq.refl _)

/-- May change regs, inflight, namespaces, nvm. -/
theorem execZeroize_frame (h : Hdr) (slot : Nat) (s : State) (hr0 : Frame F0 r0 s) (m0 : 0x20000000a04 ||| F0 = F0) :
    FrameOut F0 r0 (execZeroize h slot s) := by
  refine FrameOut.comp hr0 ?_ m0
  unfold execZeroize
  repeat' (first
    | with_reducible exact Frame.refl _ _ | (intro _) | with_reducible assumption | with_reducible apply serial_frame
    | with_reducible apply failKey_frame | with_reducible apply finish_frame | with_reducible apply unbind_frame
    | with_reducible apply emptySlot_frame | with_reducible apply Frame.next | with_reducible apply Frame.ite | split
    | exact Eq.refl _)

/-- May change inflight, namespaces. -/
theorem execBind_frame (h : Hdr) (slot nsid : Nat) (s : State) (hr0 : Frame F0 r0 s) (m0 : 0xa00 ||| F0 = F0) :
    FrameOut F0 r0 (execBind h slot nsid s) := by
  refine FrameOut.comp hr0 ?_ m0
  unfold execBind
  repeat' (first
    | with_reducible exact Frame.refl _ _ | (intro _) | with_reducible assumption | with_reducible apply serial_frame
    | with_reducible apply failKey_frame | with_reducible apply finish_frame | with_reducible apply modNs_frame
    | with_reducible apply Frame.next | split | exact Eq.refl _)

/-- May change regs, inflight, nvm. -/
theorem execImportKek_frame (h : Hdr) (kek session : Nat) (authentic : Bool) (key : BitVec 256) (s : State) (hr0 : Frame F0 r0
    s) (m0 : 0x20000000204 ||| F0 = F0) :
    FrameOut F0 r0 (execImportKek h kek session authentic key s) := by
  refine FrameOut.comp hr0 ?_ m0
  unfold execImportKek
  dsimp only
  repeat' (first
    | with_reducible exact Frame.refl _ _ | (intro _) | with_reducible assumption | with_reducible apply serial_frame
    | with_reducible apply failKey_frame | with_reducible apply setBit_frame | with_reducible apply finish_frame
    | with_reducible apply loadInternal_frame | with_reducible apply Frame.next | with_reducible apply Frame.ite | split
    | exact Eq.refl _)

/-- May change regs, inflight, hd, parks, hdQueue, ats. -/
theorem execStatus_frame (h : Hdr) (slot : Nat) (s : State) (hr0 : Frame F0 r0 s) (m0 : 0xf00204 ||| F0 = F0) :
    FrameOut F0 r0 (execStatus h slot s) := by
  refine FrameOut.comp hr0 ?_ m0
  unfold execStatus
  repeat' (first
    | with_reducible exact Frame.refl _ _ | (intro _) | with_reducible assumption | with_reducible apply serial_frame
    | with_reducible apply failKey_frame | with_reducible apply finish_frame | with_reducible apply dataOut_frame
    | with_reducible apply Frame.next | with_reducible apply Frame.ite | split | exact Eq.refl _)

/-- May change regs, inflight, namespaces, slices, nvm, fresh. -/
theorem slotAction_frame (s : State) (w : SlotWait) (hr0 : Frame F0 r0 s) (m0 : 0x8020000020a04 ||| F0 = F0) :
    Frame F0 r0 (State.slotAction s w) := by
  refine Frame.comp hr0 ?_ m0
  unfold State.slotAction
  dsimp only
  repeat' (first
    | with_reducible exact Frame.refl _ _ | with_reducible apply failCond_frame | with_reducible apply random_frame
    | with_reducible apply loadKey_frame | with_reducible apply unbind_frame | with_reducible apply emptySlot_frame
    | with_reducible apply Frame.ite | split | exact Eq.refl _)

/-- May change regs, inflight, namespaces, slotWaits, slices, nvm, fresh. -/
theorem execSlotRetiringEnd_frame (slot : Nat) (s : State) (hr0 : Frame F0 r0 s) (m0 : 0x8020000030a04 ||| F0 = F0) :
    FrameOut F0 r0 (execSlotRetiringEnd slot s) := by
  refine FrameOut.comp hr0 ?_ m0
  unfold execSlotRetiringEnd
  dsimp only
  repeat' (first
    | with_reducible exact Frame.refl _ _ | (intro _) | with_reducible assumption | with_reducible apply putKey_frame
    | with_reducible apply clearCond_frame | with_reducible apply slotAction_frame | with_reducible apply Frame.next
    | with_reducible apply Frame.foldl | split | exact Eq.refl _ | with_reducible apply upd_slotWaits)

/-- May change regs, entropyOk. -/
theorem execEntropyFail_frame (s : State) (hr0 : Frame F0 r0 s) (m0 : 0x800000004 ||| F0 = F0) :
    FrameOut F0 r0 (execEntropyFail s) := by
  refine FrameOut.comp hr0 ?_ m0
  unfold execEntropyFail
  dsimp only
  repeat' (first
    | with_reducible exact Frame.refl _ _ | with_reducible apply setBit_frame | with_reducible apply clrBit_frame
    | with_reducible apply Frame.next | exact Eq.refl _ | with_reducible apply upd_entropyOk)

/-- May change regs, entropyOk. -/
theorem execEntropyRetest_frame (pass : Bool) (s : State) (hr0 : Frame F0 r0 s) (m0 : 0x800000004 ||| F0 = F0) :
    FrameOut F0 r0 (execEntropyRetest pass s) := by
  refine FrameOut.comp hr0 ?_ m0
  unfold execEntropyRetest
  dsimp only
  repeat' (first
    | with_reducible exact Frame.refl _ _ | with_reducible apply setBit_frame | with_reducible apply clrBit_frame
    | with_reducible apply Frame.next | with_reducible apply Frame.ite | split | exact Eq.refl _
    | with_reducible apply upd_entropyOk)

/-- May change groupAt, groupRecs. -/
theorem execCounterGroupStore_frame (s : State) (hr0 : Frame F0 r0 s) (m0 : 0x3000000000 ||| F0 = F0) :
    FrameOut F0 r0 (execCounterGroupStore s) := by
  refine FrameOut.comp hr0 ?_ m0
  unfold execCounterGroupStore
  dsimp only
  repeat' (first
    | with_reducible exact Frame.refl _ _ | with_reducible apply Frame.next | with_reducible apply Frame.ite | split
    | exact Eq.refl _ | with_reducible apply upd_groupAt_groupRecs)

/-- May change regs, slices, groupRecs, nvm. -/
theorem execGroupStoreDone_frame (s : State) (hr0 : Frame F0 r0 s) (m0 : 0x22000020004 ||| F0 = F0) :
    FrameOut F0 r0 (execGroupStoreDone s) := by
  refine FrameOut.comp hr0 ?_ m0
  unfold execGroupStoreDone
  dsimp only
  repeat' (first
    | with_reducible exact Frame.refl _ _ | (intro _) | with_reducible assumption | with_reducible apply setCtrP_frame
    | with_reducible apply mapSlices_frame | with_reducible apply modNvm_frame | with_reducible apply wr64_frame
    | with_reducible apply wr_frame | with_reducible apply Frame.next | with_reducible apply Frame.foldl
    | exact SlmSame.of fun _ => rfl | split | exact Eq.refl _ | with_reducible apply upd_groupRecs)

/-! ### Store -/

/-- May change regs, inflight, storeHdr. -/
theorem endStore_frame (s : State) (o : Option Hdr) (k : Nat) (hr0 : Frame F0 r0 s) (m0 : 0x4000000204 ||| F0 = F0) :
    Frame F0 r0 (State.endStore s o k) := by
  refine Frame.comp hr0 ?_ m0
  unfold State.endStore
  dsimp only
  repeat' (first
    | with_reducible exact Frame.refl _ _ | with_reducible apply setBit_frame | with_reducible apply clrBit_frame
    | with_reducible apply putF_frame | with_reducible apply finish_frame | split | exact Eq.refl _
    | with_reducible apply upd_storeHdr)

/-- May change regs, inflight, storeHdr, nvm. -/
theorem beginStore_frame (s : State) (o : Option Hdr) (hr0 : Frame F0 r0 s) (m0 : 0x24000000204 ||| F0 = F0) :
    Frame F0 r0 (State.beginStore s o) := by
  refine Frame.comp hr0 ?_ m0
  unfold State.beginStore
  dsimp only
  repeat' (first
    | with_reducible exact Frame.refl _ _ | with_reducible apply endStore_frame | with_reducible apply setBit_frame
    | with_reducible apply modNvm_frame | with_reducible apply answer_frame | with_reducible apply Frame.ite | split
    | exact Eq.refl _ | with_reducible apply upd_storeHdr)

/-- May change regs, inflight, storeHdr, storeNext, nvm. -/
theorem nextStore_frame (s : State) (hr0 : Frame F0 r0 s) (m0 : 0x2c000000204 ||| F0 = F0) :
    Frame F0 r0 (State.nextStore s) := by
  refine Frame.comp hr0 ?_ m0
  unfold State.nextStore
  repeat' (first
    | with_reducible exact Frame.refl _ _ | with_reducible apply beginStore_frame | split | exact Eq.refl _
    | with_reducible apply upd_storeNext)

/-- May change regs, inflight, storeHdr, storeNext, nvm. -/
theorem execSettingsStore_frame (h : Hdr) (s : State) (hr0 : Frame F0 r0 s) (m0 : 0x2c000000204 ||| F0 = F0) :
    FrameOut F0 r0 (execSettingsStore h s) := by
  refine FrameOut.comp hr0 ?_ m0
  unfold execSettingsStore
  repeat' (first
    | with_reducible exact Frame.refl _ _ | (intro _) | with_reducible assumption | with_reducible apply managed_frame
    | with_reducible apply answer_frame | with_reducible apply serial_frame | with_reducible apply beginStore_frame
    | with_reducible apply Frame.next | with_reducible apply Frame.ite | split | exact Eq.refl _
    | with_reducible apply upd_storeNext)

/-- May change regs, inflight, storeHdr, nvm. -/
theorem storeGo_frame (s : State) (hr0 : Frame F0 r0 s) (m0 : 0x24000000204 ||| F0 = F0) :
    Frame F0 r0 (State.storeGo s) := by
  refine Frame.comp hr0 ?_ m0
  unfold State.storeGo
  repeat' (first
    | with_reducible exact Frame.refl _ _ | with_reducible apply setBit_frame | with_reducible apply beginStore_frame
    | with_reducible apply Frame.ite | split | exact Eq.refl _)

/-- May change regs, inflight, storeHdr, nvm. -/
theorem execNvStoreGo_frame (s : State) (hr0 : Frame F0 r0 s) (m0 : 0x24000000204 ||| F0 = F0) :
    FrameOut F0 r0 (execNvStoreGo s) := by
  refine FrameOut.comp hr0 ?_ m0
  unfold execNvStoreGo
  repeat' (first
    | with_reducible exact Frame.refl _ _ | with_reducible apply storeGo_frame | with_reducible apply Frame.next
    | exact Eq.refl _)

/-- May change regs, nvm, recorder. -/
theorem retirePages_frame (s : State) (partition first z1 : Nat) (hr0 : Frame F0 r0 s) (m0 : 0x120000000004 ||| F0 = F0) :
    Frame F0 r0 (State.retirePages s partition first z1).2 := by
  induction z1 generalizing s with
  | zero => exact hr0
  | succ k ih =>
    unfold State.retirePages
    dsimp only
    repeat' (first
      | with_reducible exact hr0 | with_reducible assumption | with_reducible apply ih | with_reducible apply notice_frame
      | with_reducible apply setBit_frame | with_reducible apply modNvm_frame | with_reducible apply Frame.ite | split
      | exact mask_or m0 rfl)

/-- May change regs, inflight, storeHdr, storeNext, nvm, recorder. -/
theorem execStoreDone_frame (badPages recordBytes : Nat) (s : State) (hr0 : Frame F0 r0 s) (m0 : 0x12c000000204 ||| F0 = F0) :
    FrameOut F0 r0 (execStoreDone badPages recordBytes s) := by
  refine FrameOut.comp hr0 ?_ m0
  unfold execStoreDone
  dsimp only
  repeat' (first
    | with_reducible exact Frame.refl _ _ | with_reducible apply nextStore_frame | with_reducible apply endStore_frame
    | with_reducible apply retirePages_frame | with_reducible apply modNvm_frame | with_reducible apply Frame.next
    | with_reducible apply Frame.ite | split | exact Eq.refl _)

/-- May change nvm. -/
theorem execStoreTokenRefill_frame (s : State) (hr0 : Frame F0 r0 s) (m0 : 0x20000000000 ||| F0 = F0) :
    FrameOut F0 r0 (execStoreTokenRefill s) := by
  refine FrameOut.comp hr0 ?_ m0
  unfold execStoreTokenRefill
  repeat' (first
    | with_reducible exact Frame.refl _ _ | with_reducible apply modNvm_frame | with_reducible apply Frame.next
    | exact Eq.refl _)

end Sys2Proof.Laws
end

