-- ==== Sys2Proof/Laws/FrameUse.lean ====
section
/-!
SUPPORT. What each operation may change: objects, management and programs.
-/

namespace Sys2Proof.Laws

open Sys2Proof.Machine

variable {F0 : Nat} {r0 : State}

/-! ### ObjectOps -/

/-- May change regs. -/
theorem cacheLookup_frame (s : State) (q : KeyPlace) (x : Namespace) (k : KvKey) (hr0 : Frame F0 r0 s) (m0 : 0x4 ||| F0 = F0) :
    Frame F0 r0 (State.cacheLookup s q x k).2 := by
  refine Frame.comp hr0 ?_ m0
  unfold State.cacheLookup
  dsimp only
  repeat' (first
    | with_reducible exact Frame.refl _ _ | with_reducible apply addF_frame | with_reducible apply countSearches_frame
    | with_reducible apply Frame.ite | split | exact Eq.refl _)

/-- May change slices, fresh. -/
theorem cacheInsert_frame (s : State) (q : KeyPlace) (x : Namespace) (k : KvKey) (place : Nat) (hr0 : Frame F0 r0 s) (m0 :
    0x8000000020000 ||| F0 = F0) :
    Frame F0 r0 (State.cacheInsert s q x k place) := by
  refine Frame.comp hr0 ?_ m0
  unfold State.cacheInsert
  dsimp only
  repeat' (first
    | with_reducible exact Frame.refl _ _ | with_reducible apply free_frame | with_reducible apply modArray_frame
    | with_reducible apply Frame.ite | split | exact Eq.refl _)

/-- May change slices. -/
theorem cacheDrop_frame (s : State) (q : KeyPlace) (k : KvKey) (place : Nat) (hr0 : Frame F0 r0 s) (m0 : 0x20000 ||| F0 = F0) :
    Frame F0 r0 (State.cacheDrop s q k place) := by
  refine Frame.comp hr0 ?_ m0
  unfold State.cacheDrop
  dsimp only
  repeat' (first
    | with_reducible exact Frame.refl _ _ | with_reducible apply modArray_frame | with_reducible apply Frame.ite | split
    | exact Eq.refl _)

/-- May change regs, slices, fresh. -/
theorem lookup_frame (s : State) (q : KeyPlace) (x : Namespace) (k : KvKey) (hr0 : Frame F0 r0 s) (m0 : 0x8000000020004 ||| F0 =
    F0) :
    Frame F0 r0 (State.lookup s q x k).2 := by
  refine Frame.comp hr0 ?_ m0
  unfold State.lookup
  dsimp only
  repeat' (first
    | with_reducible exact Frame.refl _ _ | with_reducible apply cacheLookup_frame | with_reducible apply cacheInsert_frame
    | split | exact Eq.refl _)

/-- May change regs, inflight, slices. -/
theorem countObject_frame (s : State) (h : Hdr) (n : Nat) (o : ObjRecord) (offset len : Nat) (hr0 : Frame F0 r0 s) (m0 : 0x20204
    ||| F0 = F0) :
    Frame F0 r0 (State.countObject s h n o offset len) := by
  refine Frame.comp hr0 ?_ m0
  unfold State.countObject
  dsimp only
  repeat' (first
    | with_reducible exact Frame.refl _ _ | (intro _) | with_reducible assumption | with_reducible apply senseBlocks_frame
    | with_reducible apply Frame.foldl | exact Eq.refl _)

/-- May change regs, digests. -/
theorem takeInstance_frame (s : State) (inst : Option Nat) (owner alg total : Nat) (hr0 : Frame F0 r0 s) (m0 : 0x1000004 ||| F0
    = F0) :
    Frame F0 r0 (State.takeInstance s inst owner alg total) := by
  refine Frame.comp hr0 ?_ m0
  unfold State.takeInstance
  repeat' (first | with_reducible exact Frame.refl _ _ | with_reducible apply openDigest_frame | split | exact Eq.refl _)

/-- May change regs, digests. -/
theorem feedInstance_frame (s : State) (inst : Option Nat) (bs : List Byte) (hr0 : Frame F0 r0 s) (m0 : 0x1000004 ||| F0 = F0) :
    Frame F0 r0 (State.feedInstance s inst bs) := by
  refine Frame.comp hr0 ?_ m0
  unfold State.feedInstance
  dsimp only
  repeat' (first
    | with_reducible exact Frame.refl _ _ | with_reducible apply wr64_frame | split | exact Eq.refl _
    | with_reducible apply upd_digests)

/-- May change digests, fences. -/
theorem leaveInstance_frame (s : State) (inst : Option Nat) (hr0 : Frame F0 r0 s) (m0 : 0x200001000000 ||| F0 = F0) :
    Frame F0 r0 (State.leaveInstance s inst) := by
  refine Frame.comp hr0 ?_ m0
  unfold State.leaveInstance
  repeat' (first | with_reducible exact Frame.refl _ _ | with_reducible apply freeDigest_frame | split | exact Eq.refl _)

/-- May change inflight, digestWaits. -/
theorem withPlace_frame (s : State) (h : Hdr) (alg n : Nat) (store : Bool) (f : Option Nat → State → State) (hr0 : Frame F0 r0
    s) (m0 : 0x2000200 ||| F0 = F0) (h_f : ∀ a0 t, Frame F0 r0 t → Frame F0 r0 (f a0 t)) :
    Frame F0 r0 (State.withPlace s h alg n store f) := by
  unfold State.withPlace
  dsimp only
  repeat' (first
    | with_reducible exact hr0 | with_reducible apply h_f | (intro _) | with_reducible assumption
    | with_reducible apply hold_frame | with_reducible apply finish_frame | with_reducible apply Frame.ite | split
    | exact mask_or ‹_› rfl | with_reducible apply upd_digestWaits)

/-- May change inflight. -/
theorem keyCmd_frame (s : State) (h : Hdr) (nsid : Nat) (key : KvKey) (f : Namespace → KvKey → KeyPlace → State → State) (hr0 :
    Frame F0 r0 s) (m0 : 0x200 ||| F0 = F0) (h_f : ∀ a0 a1 a2 t, Frame F0 r0 t → Frame F0 r0 (f a0 a1 a2 t)) :
    Frame F0 r0 (State.keyCmd s h nsid key f) := by
  unfold State.keyCmd
  dsimp only
  repeat' (first
    | with_reducible exact hr0 | with_reducible apply h_f | (intro _) | with_reducible assumption
    | with_reducible apply ioCmd_frame | with_reducible apply finish_frame | with_reducible apply hold_frame
    | with_reducible apply Frame.ite | split | exact mask_or ‹_› rfl)

/-- May change slices. -/
theorem writeUnit_frame (s : State) (q : KeyPlace) (nsid owner i : Nat) (bs : List Byte) (hr0 : Frame F0 r0 s) (m0 : 0x20000 |||
    F0 = F0) :
    Frame F0 r0 (State.writeUnit s q nsid owner i bs).2 := by
  refine Frame.comp hr0 ?_ m0
  unfold State.writeUnit
  dsimp only
  repeat' (first
    | with_reducible exact Frame.refl _ _ | (intro _) | with_reducible assumption | with_reducible apply bufferBlock_frame
    | with_reducible apply Frame.foldl | with_reducible apply Frame.foldl_snd | exact Eq.refl _)

/-- May change slices. -/
theorem writeUnits_frame (s : State) (q : KeyPlace) (nsid owner : Nat) (l : List (Nat × List Byte)) (hr0 : Frame F0 r0 s) (m0 :
    0x20000 ||| F0 = F0) :
    Frame F0 r0 (State.writeUnits s q nsid owner l).2 := by
  refine Frame.comp hr0 ?_ m0
  unfold State.writeUnits
  dsimp only
  repeat' (first
    | with_reducible exact Frame.refl _ _ | (intro _) | with_reducible assumption | with_reducible apply writeUnit_frame
    | with_reducible apply Frame.foldl | with_reducible apply Frame.foldl_snd | exact Eq.refl _)

/-- May change inflight, slices. -/
theorem retireRecord_frame (s : State) (n id : Nat) (hr0 : Frame F0 r0 s) (m0 : 0x20200 ||| F0 = F0) :
    Frame F0 r0 (State.retireRecord s n id) := by
  refine Frame.comp hr0 ?_ m0
  unfold State.retireRecord
  dsimp only
  repeat' (first
    | with_reducible exact Frame.refl _ _ | (intro _) | with_reducible assumption | with_reducible apply clearCond_frame
    | with_reducible apply modSlice_frame | with_reducible apply Frame.ite | with_reducible apply Frame.foldl
    | exact SlmSame.of fun _ => rfl | (refine SlmSame.of fun x => ?_; simp [apply_ite Slice.slm]; done)
    | (refine SlmSame.of fun x => ?_; (try dsimp only); apply slm_foldl; intro _ _; simp; done)
    | (refine SlmSame.of fun x => ?_; (repeat' (first | rfl | (simp [apply_ite Slice.slm]; done) | split)); done) | split
    | exact Eq.refl _)

/-- May change inflight, slices. -/
theorem commitObject_frame (s : State) (q : KeyPlace) (x : Namespace) (k : KvKey) (owner place : Nat) (value : List Byte) (luas
    : List Nat) (recordLua : Nat) (digest : List Byte) (hr0 : Frame F0 r0 s) (m0 : 0x20200 ||| F0 = F0) :
    Frame F0 r0 (State.commitObject s q x k owner place value luas recordLua digest).2 := by
  refine Frame.comp hr0 ?_ m0
  unfold State.commitObject
  dsimp only
  repeat' (first
    | with_reducible exact Frame.refl _ _ | with_reducible apply modSlice_frame | with_reducible apply writeUnits_frame
    | with_reducible apply retireRecord_frame | exact SlmSame.of fun _ => rfl | split | exact Eq.refl _)

/-! ### Objects -/

/-- May change ctrls, inflight, slices. -/
theorem storeOut_frame (s : State) (h : Hdr) (x : Namespace) (n bytes : Nat) (wrote : List (Nat × Nat × List Nat)) (luas : List
    Nat) (hr0 : Frame F0 r0 s) (m0 : 0x20300 ||| F0 = F0) :
    Frame F0 r0 (State.storeOut s h x n bytes wrote luas) := by
  refine Frame.comp hr0 ?_ m0
  unfold State.storeOut
  dsimp only
  repeat' (first
    | with_reducible exact Frame.refl _ _ | with_reducible apply throughNow_frame | with_reducible apply answer_frame
    | with_reducible apply modCtrl_frame | with_reducible apply modIn_frame | exact Eq.refl _)

/-- May change regs, ctrls, inflight, tenants, slices, hd, parks, hdQueue, ats, digests, digestWaits, fences, fresh. -/
theorem storeWhole_frame (s : State) (h : Hdr) (x : Namespace) (k : KvKey) (q : KeyPlace) (opt : StoreOpt) (value : List Byte)
    (hr0 : Frame F0 r0 s) (m0 : 0x8200003f21304 ||| F0 = F0) :
    Frame F0 r0 (State.storeWhole s h x k q opt value) := by
  refine Frame.comp hr0 ?_ m0
  unfold State.storeWhole
  dsimp only
  repeat' (first
    | with_reducible exact Frame.refl _ _ | (intro _) | with_reducible assumption | with_reducible apply lookup_frame
    | with_reducible apply finish_frame | with_reducible apply hold_frame | with_reducible apply withPlace_frame
    | with_reducible apply leaveInstance_frame | with_reducible apply feedInstance_frame
    | with_reducible apply takeInstance_frame | with_reducible apply dataIn_frame | with_reducible apply evalWear_frame
    | with_reducible apply charge_frame | with_reducible apply modSlice_frame | with_reducible apply writeUnits_frame
    | with_reducible apply commitObject_frame | with_reducible apply storeOut_frame | with_reducible apply Frame.ite
    | exact SlmSame.of fun _ => rfl | split | exact Eq.refl _)

/-- May change regs, ctrls, inflight, tenants, slices, hd, parks, hdQueue, ats, digests, fences, fresh. -/
theorem segment_frame (s : State) (h : Hdr) (x : Namespace) (k : KvKey) (q : KeyPlace) (g : Ingest) (value : List Byte) (hr0 :
    Frame F0 r0 s) (m0 : 0x8200001f21304 ||| F0 = F0) :
    Frame F0 r0 (State.segment s h x k q g value) := by
  refine Frame.comp hr0 ?_ m0
  unfold State.segment
  dsimp only
  repeat' (first
    | with_reducible exact Frame.refl _ _ | with_reducible apply feedInstance_frame | with_reducible apply dataIn_frame
    | with_reducible apply finish_frame | with_reducible apply abandon_frame | with_reducible apply evalWear_frame
    | with_reducible apply charge_frame | with_reducible apply writeUnits_frame | with_reducible apply modSlice_frame
    | with_reducible apply leaveInstance_frame | with_reducible apply commitObject_frame | with_reducible apply storeOut_frame
    | with_reducible apply Frame.ite | exact SlmSame.of fun _ => rfl | split | exact Eq.refl _)

/-- May change regs, ctrls, inflight, tenants, slices, hd, parks, hdQueue, ats, digests, digestWaits, fences, fresh. -/
theorem openIngest_frame (s : State) (h : Hdr) (x : Namespace) (k : KvKey) (q : KeyPlace) (opt : StoreOpt) (total : Nat) (value
    : List Byte) (hr0 : Frame F0 r0 s) (m0 : 0x8200003f21304 ||| F0 = F0) :
    Frame F0 r0 (State.openIngest s h x k q opt total value) := by
  refine Frame.comp hr0 ?_ m0
  unfold State.openIngest
  dsimp only
  repeat' (first
    | with_reducible exact Frame.refl _ _ | (intro _) | with_reducible assumption | with_reducible apply lookup_frame
    | with_reducible apply finish_frame | with_reducible apply hold_frame | with_reducible apply withPlace_frame
    | with_reducible apply takeInstance_frame | with_reducible apply modSlice_frame | with_reducible apply segment_frame
    | with_reducible apply Frame.ite | with_reducible apply Frame.foldl | exact SlmSame.of fun _ => rfl | split
    | exact Eq.refl _)

/-- May change regs, ctrls, inflight, tenants, slices, hd, parks, hdQueue, ats, digests, fences, fresh. -/
theorem laterSegment_frame (s : State) (h : Hdr) (x : Namespace) (k : KvKey) (q : KeyPlace) (seg : Nat) (value : List Byte) (hr0
    : Frame F0 r0 s) (m0 : 0x8200001f21304 ||| F0 = F0) :
    Frame F0 r0 (State.laterSegment s h x k q seg value) := by
  refine Frame.comp hr0 ?_ m0
  unfold State.laterSegment
  repeat' (first
    | with_reducible exact Frame.refl _ _ | with_reducible apply finish_frame | with_reducible apply hold_frame
    | with_reducible apply segment_frame | with_reducible apply Frame.ite | split | exact Eq.refl _)

/-- May change regs, ctrls, inflight, tenants, slices, hd, parks, hdQueue, ats, digests, digestWaits, fences, fresh. -/
theorem execStore_frame (h : Hdr) (nsid : Nat) (key : KvKey) (opt : StoreOpt) (seg : Option Nat) (total : Nat) (value : List
    (BitVec 8)) (s : State) (hr0 : Frame F0 r0 s) (m0 : 0x8200003f21304 ||| F0 = F0) :
    FrameOut F0 r0 (execStore h nsid key opt seg total value s) := by
  refine FrameOut.comp hr0 ?_ m0
  unfold execStore
  repeat' (first
    | with_reducible exact Frame.refl _ _ | (intro _) | with_reducible assumption | with_reducible apply keyCmd_frame
    | with_reducible apply finish_frame | with_reducible apply storeWhole_frame | with_reducible apply openIngest_frame
    | with_reducible apply laterSegment_frame | with_reducible apply Frame.next | with_reducible apply Frame.ite | split
    | exact Eq.refl _)

/-- May change inflight, slices, digests, fences. -/
theorem execIngestIdleTimeout_frame (nsid : Nat) (key : KvKey) (s : State) (hr0 : Frame F0 r0 s) (m0 : 0x200001020200 ||| F0 =
    F0) :
    FrameOut F0 r0 (execIngestIdleTimeout nsid key s) := by
  refine FrameOut.comp hr0 ?_ m0
  unfold execIngestIdleTimeout
  repeat' (first
    | with_reducible exact Frame.refl _ _ | with_reducible apply abandonAll_frame | with_reducible apply Frame.next
    | exact Eq.refl _)

/-- May change regs, ctrls, inflight, slices, hd, parks, hdQueue, ats, fresh. -/
theorem execRetrieve_frame (h : Hdr) (nsid : Nat) (key : KvKey) (offset size : Nat) (info : Bool) (s : State) (hr0 : Frame F0 r0
    s) (m0 : 0x8000000f20304 ||| F0 = F0) :
    FrameOut F0 r0 (execRetrieve h nsid key offset size info s) := by
  refine FrameOut.comp hr0 ?_ m0
  unfold execRetrieve
  dsimp only
  repeat' (first
    | with_reducible exact Frame.refl _ _ | (intro _) | with_reducible assumption | with_reducible apply keyCmd_frame
    | with_reducible apply finish_frame | with_reducible apply lookup_frame | with_reducible apply modCtrl_frame
    | with_reducible apply dataOut_frame | with_reducible apply countObject_frame | with_reducible apply Frame.next
    | with_reducible apply Frame.ite | split | exact Eq.refl _)

/-- May change regs, inflight, slices, fresh. -/
theorem execExist_frame (h : Hdr) (nsid : Nat) (key : KvKey) (s : State) (hr0 : Frame F0 r0 s) (m0 : 0x8000000020204 ||| F0 =
    F0) :
    FrameOut F0 r0 (execExist h nsid key s) := by
  refine FrameOut.comp hr0 ?_ m0
  unfold execExist
  dsimp only
  repeat' (first
    | with_reducible exact Frame.refl _ _ | (intro _) | with_reducible assumption | with_reducible apply keyCmd_frame
    | with_reducible apply lookup_frame | with_reducible apply finish_frame | with_reducible apply Frame.next | split
    | exact Eq.refl _)

/-- May change regs, inflight, slices, digests, fences, fresh. -/
theorem execDelete_frame (h : Hdr) (nsid : Nat) (key : KvKey) (s : State) (hr0 : Frame F0 r0 s) (m0 : 0x8200001020204 ||| F0 =
    F0) :
    FrameOut F0 r0 (execDelete h nsid key s) := by
  refine FrameOut.comp hr0 ?_ m0
  unfold execDelete
  dsimp only
  repeat' (first
    | with_reducible exact Frame.refl _ _ | (intro _) | with_reducible assumption | with_reducible apply keyCmd_frame
    | with_reducible apply lookup_frame | with_reducible apply abandonAll_frame | with_reducible apply finish_frame
    | with_reducible apply modSlice_frame | with_reducible apply cacheDrop_frame | with_reducible apply retireRecord_frame
    | with_reducible apply Frame.next | exact SlmSame.of fun _ => rfl | split | exact Eq.refl _)

/-- May change regs, inflight, hd, parks, hdQueue, ats. -/
theorem execList_frame (h : Hdr) (nsid : Nat) (key : KvKey) (size : Nat) (s : State) (hr0 : Frame F0 r0 s) (m0 : 0xf00204 ||| F0
    = F0) :
    FrameOut F0 r0 (execList h nsid key size s) := by
  refine FrameOut.comp hr0 ?_ m0
  unfold execList
  dsimp only
  repeat' (first
    | with_reducible exact Frame.refl _ _ | (intro _) | with_reducible assumption | with_reducible apply ioCmd_frame
    | with_reducible apply finish_frame | with_reducible apply hold_frame | with_reducible apply dataOut_frame
    | with_reducible apply Frame.next | with_reducible apply Frame.ite | split | exact Eq.refl _)

/-- May change regs, recorder. -/
theorem exportRun_frame (n nsid size sliceIx : Nat) (l : List (Nat × Nat)) (offset : Nat) (a : Exporting)
    (hr0 : Frame F0 r0 a.state) (m0 : 0x100000000004 ||| F0 = F0) : Frame F0 r0 (exportRun n nsid size sliceIx l offset a).state := by
  induction l generalizing offset a with
  | nil => exact hr0
  | cons q l ih =>
    obtain ⟨place, id⟩ := q
    unfold exportRun
    dsimp only
    split
    · exact hr0
    · split
      · exact ih _ _ hr0
      · split
        · exact hr0
        · split
          · exact hr0
          · apply ih
            dsimp only
            split
            · exact notice_frame _ _ _ _ _ hr0 m0
            · exact hr0

/-- May change inflight, slices. -/
theorem repin_frame (s : State) (n : Nat) (old new : Option Pin) (hr0 : Frame F0 r0 s) (m0 : 0x20200 ||| F0 = F0) :
    Frame F0 r0 (State.repin s n old new) := by
  refine Frame.comp hr0 ?_ m0
  unfold State.repin
  dsimp only
  repeat' (first
    | with_reducible exact Frame.refl _ _ | with_reducible apply modSlice_frame | with_reducible apply retireRecord_frame
    | with_reducible apply Frame.ite | exact SlmSame.of fun _ => rfl | split | exact Eq.refl _)

/-- May change regs, inflight, slices, hd, parks, hdQueue, ats, digests, digestWaits, recorder, fences. -/
theorem execObjectExport_frame (h : Hdr) (nsid size cursor endBucket : Nat) (s : State) (hr0 : Frame F0 r0 s) (m0 :
    0x300003f20204 ||| F0 = F0) :
    FrameOut F0 r0 (execObjectExport h nsid size cursor endBucket s) := by
  refine FrameOut.comp hr0 ?_ m0
  unfold execObjectExport
  dsimp only
  repeat' (first
    | with_reducible exact Frame.refl _ _ | (intro _) | with_reducible assumption | with_reducible apply ioCmd_frame
    | with_reducible apply finish_frame | with_reducible apply unpin_frame | with_reducible apply exportRun_frame
    | with_reducible apply repin_frame | with_reducible apply leaveInstance_frame | with_reducible apply takeInstance_frame
    | with_reducible apply dataOut_frame | with_reducible apply countObject_frame | with_reducible apply withPlace_frame
    | with_reducible apply Frame.next | with_reducible apply Frame.ite | with_reducible apply Frame.foldl | split
    | exact Eq.refl _)

/-- May change slices, digests, fences. -/
theorem execExportPinTimeout_frame (nsid sliceIx endBucket : Nat) (s : State) (hr0 : Frame F0 r0 s) (m0 : 0x200001020000 ||| F0
    = F0) :
    FrameOut F0 r0 (execExportPinTimeout nsid sliceIx endBucket s) := by
  refine FrameOut.comp hr0 ?_ m0
  unfold execExportPinTimeout
  repeat' (first
    | with_reducible exact Frame.refl _ _ | with_reducible apply unpin_frame | with_reducible apply Frame.next | split
    | exact Eq.refl _)

/-! ### Mgmt -/

/-- May change fresh. -/
theorem compositeTemp_frame (s : State) (hr0 : Frame F0 r0 s) (m0 : 0x8000000000000 ||| F0 = F0) :
    Frame F0 r0 (State.compositeTemp s).2 := by
  refine Frame.comp hr0 ?_ m0
  unfold State.compositeTemp
  dsimp only
  repeat' (first | with_reducible exact Frame.refl _ _ | with_reducible apply free_frame | exact Eq.refl _)

/-- May change fresh. -/
theorem miHealth_frame (s : State) (hr0 : Frame F0 r0 s) (m0 : 0x8000000000000 ||| F0 = F0) :
    Frame F0 r0 (State.miHealth s).2 := by
  refine Frame.comp hr0 ?_ m0
  unfold State.miHealth
  dsimp only
  repeat' (first
    | with_reducible exact Frame.refl _ _ | with_reducible apply compositeTemp_frame | with_reducible apply free_frame
    | with_reducible apply Frame.ite | split | exact Eq.refl _)

/-- May change fresh. -/
theorem miControllers_frame (s : State) (start count : Nat) (hr0 : Frame F0 r0 s) (m0 : 0x8000000000000 ||| F0 = F0) :
    Frame F0 r0 (State.miControllers s start count).2 := by
  refine Frame.comp hr0 ?_ m0
  unfold State.miControllers
  dsimp only
  repeat' (first | with_reducible exact Frame.refl _ _ | with_reducible apply compositeTemp_frame | exact Eq.refl _)

/-- May change mgmt. -/
theorem miSet_frame (s : State) (id value : Nat) (hr0 : Frame F0 r0 s) (m0 : 0x4000000000000 ||| F0 = F0) :
    Frame F0 r0 (State.miSet s id value).2 := by
  refine Frame.comp hr0 ?_ m0
  unfold State.miSet
  dsimp only
  repeat' (first
    | with_reducible exact Frame.refl _ _ | with_reducible apply Frame.ite | split | exact Eq.refl _
    | with_reducible apply upd_mgmt)

/-- May change fresh. -/
theorem miTunnel_frame (s : State) (cmd : TunnelCmd) (hr0 : Frame F0 r0 s) (m0 : 0x8000000000000 ||| F0 = F0) :
    Frame F0 r0 (State.miTunnel s cmd).2 := by
  refine Frame.comp hr0 ?_ m0
  unfold State.miTunnel
  dsimp only
  repeat' (first | with_reducible exact Frame.refl _ _ | with_reducible apply logPage_frame | split | exact Eq.refl _)

/-- May change mgmt, fresh. -/
theorem miServe_frame (s : State) (r : MiReq) (hr0 : Frame F0 r0 s) (m0 : 0xc000000000000 ||| F0 = F0) :
    Frame F0 r0 (State.miServe s r).2 := by
  refine Frame.comp hr0 ?_ m0
  unfold State.miServe
  repeat' (first
    | with_reducible exact Frame.refl _ _ | with_reducible apply miHealth_frame | with_reducible apply miControllers_frame
    | with_reducible apply miSet_frame | with_reducible apply miTunnel_frame | split | exact Eq.refl _)

/-- May change mgmt, fresh. -/
theorem miBus_frame (s : State) (bus : MiBus) (r : MiReq) (hr0 : Frame F0 r0 s) (m0 : 0xc000000000000 ||| F0 = F0) :
    Frame F0 r0 (State.miBus s bus r) := by
  refine Frame.comp hr0 ?_ m0
  unfold State.miBus
  dsimp only
  repeat' (first
    | with_reducible exact Frame.refl _ _ | with_reducible apply miServe_frame | with_reducible apply Frame.ite | split
    | exact Eq.refl _ | with_reducible apply upd_mgmt)

/-- May change inflight, mgmt, fresh. -/
theorem execNvmeMiSend_frame (h : Hdr) (req : MiReq) (s : State) (hr0 : Frame F0 r0 s) (m0 : 0xc000000000200 ||| F0 = F0) :
    FrameOut F0 r0 (execNvmeMiSend h req s) := by
  refine FrameOut.comp hr0 ?_ m0
  unfold execNvmeMiSend
  dsimp only
  repeat' (first
    | with_reducible exact Frame.refl _ _ | (intro _) | with_reducible assumption | with_reducible apply run_frame
    | with_reducible apply finish_frame | with_reducible apply miServe_frame | with_reducible apply Frame.next
    | with_reducible apply Frame.ite | split | exact Eq.refl _ | with_reducible apply upd_mgmt)

/-- May change inflight, mgmt. -/
theorem execNvmeMiReceive_frame (h : Hdr) (s : State) (hr0 : Frame F0 r0 s) (m0 : 0x4000000000200 ||| F0 = F0) :
    FrameOut F0 r0 (execNvmeMiReceive h s) := by
  refine FrameOut.comp hr0 ?_ m0
  unfold execNvmeMiReceive
  dsimp only
  repeat' (first
    | with_reducible exact Frame.refl _ _ | (intro _) | with_reducible assumption | with_reducible apply run_frame
    | with_reducible apply finish_frame | with_reducible apply Frame.next | with_reducible apply Frame.ite | split
    | exact Eq.refl _ | with_reducible apply upd_mgmt)

/-- May change mgmt, fresh. -/
theorem execReadNvmeMiDataStructure_frame (bus : MiBus) (dtyp port ctrl : Nat) (s : State) (hr0 : Frame F0 r0 s) (m0 :
    0xc000000000000 ||| F0 = F0) :
    FrameOut F0 r0 (execReadNvmeMiDataStructure bus dtyp port ctrl s) := by
  refine FrameOut.comp hr0 ?_ m0
  unfold execReadNvmeMiDataStructure
  repeat' (first
    | with_reducible exact Frame.refl _ _ | with_reducible apply miBus_frame | with_reducible apply Frame.next
    | exact Eq.refl _)

/-- May change mgmt, fresh. -/
theorem execNvmSubsystemHealthStatusPoll_frame (bus : MiBus) (s : State) (hr0 : Frame F0 r0 s) (m0 : 0xc000000000000 ||| F0 =
    F0) :
    FrameOut F0 r0 (execNvmSubsystemHealthStatusPoll bus s) := by
  refine FrameOut.comp hr0 ?_ m0
  unfold execNvmSubsystemHealthStatusPoll
  repeat' (first
    | with_reducible exact Frame.refl _ _ | with_reducible apply miBus_frame | with_reducible apply Frame.next
    | exact Eq.refl _)

/-- May change mgmt, fresh. -/
theorem execControllerHealthStatusPoll_frame (bus : MiBus) (start max : Nat) (s : State) (hr0 : Frame F0 r0 s) (m0 :
    0xc000000000000 ||| F0 = F0) :
    FrameOut F0 r0 (execControllerHealthStatusPoll bus start max s) := by
  refine FrameOut.comp hr0 ?_ m0
  unfold execControllerHealthStatusPoll
  repeat' (first
    | with_reducible exact Frame.refl _ _ | with_reducible apply miBus_frame | with_reducible apply Frame.next
    | exact Eq.refl _)

/-- May change mgmt, fresh. -/
theorem execConfigurationGet_frame (bus : MiBus) (id : Nat) (s : State) (hr0 : Frame F0 r0 s) (m0 : 0xc000000000000 ||| F0 = F0)
    :
    FrameOut F0 r0 (execConfigurationGet bus id s) := by
  refine FrameOut.comp hr0 ?_ m0
  unfold execConfigurationGet
  repeat' (first
    | with_reducible exact Frame.refl _ _ | with_reducible apply miBus_frame | with_reducible apply Frame.next
    | exact Eq.refl _)

/-- May change mgmt, fresh. -/
theorem execConfigurationSet_frame (bus : MiBus) (id value : Nat) (s : State) (hr0 : Frame F0 r0 s) (m0 : 0xc000000000000 ||| F0
    = F0) :
    FrameOut F0 r0 (execConfigurationSet bus id value s) := by
  refine FrameOut.comp hr0 ?_ m0
  unfold execConfigurationSet
  repeat' (first
    | with_reducible exact Frame.refl _ _ | with_reducible apply miBus_frame | with_reducible apply Frame.next
    | exact Eq.refl _)

/-- May change mgmt, fresh. -/
theorem execVpdRead_frame (bus : MiBus) (offset length : Nat) (s : State) (hr0 : Frame F0 r0 s) (m0 : 0xc000000000000 ||| F0 =
    F0) :
    FrameOut F0 r0 (execVpdRead bus offset length s) := by
  refine FrameOut.comp hr0 ?_ m0
  unfold execVpdRead
  repeat' (first
    | with_reducible exact Frame.refl _ _ | with_reducible apply miBus_frame | with_reducible apply Frame.next
    | exact Eq.refl _)

/-- May change mgmt, fresh. -/
theorem execMiAdminTunnel_frame (bus : MiBus) (cmd : TunnelCmd) (s : State) (hr0 : Frame F0 r0 s) (m0 : 0xc000000000000 ||| F0 =
    F0) :
    FrameOut F0 r0 (execMiAdminTunnel bus cmd s) := by
  refine FrameOut.comp hr0 ?_ m0
  unfold execMiAdminTunnel
  repeat' (first
    | with_reducible exact Frame.refl _ _ | with_reducible apply miBus_frame | with_reducible apply Frame.next
    | exact Eq.refl _)

/-- May change mgmt. -/
theorem execDynamicAddressAssignment_frame (addr : BitVec 7) (s : State) (hr0 : Frame F0 r0 s) (m0 : 0x4000000000000 ||| F0 =
    F0) :
    FrameOut F0 r0 (execDynamicAddressAssignment addr s) := by
  refine FrameOut.comp hr0 ?_ m0
  unfold execDynamicAddressAssignment
  dsimp only
  repeat' (first
    | with_reducible exact Frame.refl _ _ | with_reducible apply Frame.next | with_reducible apply Frame.ite | split
    | exact Eq.refl _ | with_reducible apply upd_mgmt)

/-- May change mgmt. -/
theorem execSmbusClockLowTimeout_frame (s : State) (hr0 : Frame F0 r0 s) (m0 : 0x4000000000000 ||| F0 = F0) :
    FrameOut F0 r0 (execSmbusClockLowTimeout s) := by
  refine FrameOut.comp hr0 ?_ m0
  unfold execSmbusClockLowTimeout
  dsimp only
  repeat' (first
    | with_reducible exact Frame.refl _ _ | with_reducible apply Frame.next | with_reducible apply Frame.ite | split
    | exact Eq.refl _ | with_reducible apply upd_mgmt)

/-! ### Bpf -/

/-- May change regs, slices, slice-local memory. -/
theorem vmStore_frame (s : State) (v : Invocation) (m : Vm) (a : Nat) (bs : List Byte) (p : Vm × State)
    (hr0 : Frame F0 r0 s) (m0 : 0x20000000020004 ||| F0 = F0) (e : State.vmStore s v m a bs = some p) : Frame F0 r0 p.2 := by
  unfold State.vmStore at e
  split at e
  · cases e; exact hr0
  · cases e; exact dramAsk_frame _ _ _ _ _ _ _ (memStore_frame _ _ _ _ hr0 (mask_or m0 rfl)) (mask_or m0 rfl)
  · cases e

/-- May change regs, slices, slice-local memory. -/
theorem vmMemory_frame (s : State) (v : Invocation) (m : Vm) (i : BpfInsn) (m' : Vm) (t : State) (hr0 : Frame F0 r0 s)
    (m0 : 0x20000000020004 ||| F0 = F0) (e : State.vmMemory s v m i = .run m' t) : Frame F0 r0 t := by
  have put (a : Nat) (w : BitVec 64) (f : Vm → Vm) (h : (match s.vmStore v m a (leBytes i.size w.toNat) with
      | none => VmNext.fault
      | some (m, s) => .run ((f m).skip 1) s) = .run m' t) : Frame F0 r0 t := by
    split at h
    · cases h
    · rename_i m2 s2 g
      cases h
      exact vmStore_frame s v m _ _ (m2, t) hr0 m0 g
  unfold State.vmMemory at e
  dsimp only at e
  split at e
  · split at e
    · cases e
    · cases e; exact hr0
  · exact put _ _ _ e
  · split at e
    · exact put _ _ _ e
    · split at e
      · cases e
      · exact put _ _ _ e

/-- May change regs, slices, slice-local memory. -/
theorem vmStep_frame (s : State) (v : Invocation) (m : Vm) (i : BpfInsn) (m' : Vm) (t : State) (hr0 : Frame F0 r0 s)
    (m0 : 0x20000000020004 ||| F0 = F0) (e : State.vmStep s v m i = .run m' t) : Frame F0 r0 t := by
  unfold State.vmStep at e
  repeat' (first | exact vmMemory_frame s v m i m' t hr0 m0 e | (cases e; exact hr0) | (cases e; done) | split at e)

/-! ### ProgOps -/

/-- May change fresh. -/
theorem helperResult_frame (s : State) (m : Vm) (w : BitVec 64) (hr0 : Frame F0 r0 s) (m0 : 0x8000000000000 ||| F0 = F0) :
    Frame F0 r0 (State.helperResult s m w).2 := by
  refine Frame.comp hr0 ?_ m0
  unfold State.helperResult
  dsimp only
  repeat' (first
    | with_reducible exact Frame.refl _ _ | (intro _) | with_reducible assumption | with_reducible apply free_frame
    | with_reducible apply Frame.foldl | with_reducible apply Frame.foldl_snd | exact Eq.refl _)

/-- May change regs, inflight, slices, slice-local memory. -/
theorem helpRead_frame (s : State) (v : Invocation) (nsid lba count a : Nat) (hr0 : Frame F0 r0 s) (m0 : 0x20000000020204 ||| F0
    = F0) :
    Frame F0 r0 (State.helpRead s v nsid lba count a).2 := by
  refine Frame.comp hr0 ?_ m0
  unfold State.helpRead
  dsimp only
  repeat' (first
    | with_reducible exact Frame.refl _ _ | with_reducible apply countRange_frame | with_reducible apply memStore_frame
    | with_reducible apply Frame.ite | split | exact Eq.refl _)

/-- May change regs, inflight, slices, fresh, slice-local memory. -/
theorem helpObject_frame (s : State) (v : Invocation) (m : Vm) (nsid key offset a len : Nat) (hr0 : Frame F0 r0 s) (m0 :
    0x28000000020204 ||| F0 = F0) :
    Frame F0 r0 (State.helpObject s v m nsid key offset a len).2 := by
  refine Frame.comp hr0 ?_ m0
  unfold State.helpObject
  dsimp only
  repeat' (first
    | with_reducible exact Frame.refl _ _ | with_reducible apply lookup_frame | with_reducible apply countObject_frame
    | with_reducible apply memStore_frame | with_reducible apply Frame.ite | split | exact Eq.refl _)

/-- May change regs, tenants, slices, nvm, fresh. -/
theorem helpWrite_frame (s : State) (v : Invocation) (nsid lba count a : Nat) (p : BitVec 64 × List Nat × State)
    (hr0 : Frame F0 r0 s) (m0 : 0x8020000021004 ||| F0 = F0) (e : State.helpWrite s v nsid lba count a = some p) : Frame F0 r0 p.2.2 := by
  unfold State.helpWrite at e
  dsimp only at e
  split at e
  · cases e; exact hr0
  · split at e
    · cases e; exact hr0
    · split at e
      · cases e
      · cases e
        exact throughNow_frame _ _ _ _ _ (writeBlocks_frame _ _ _ _ (charges_frame _ _ _ _ hr0 (mask_or m0 rfl)) (mask_or m0 rfl))
          (mask_or m0 rfl)

/-- May change regs, slices. -/
theorem loadFilter_frame (s : State) (n owner r : Nat) (rules : List SearchEntry) (hr0 : Frame F0 r0 s) (m0 : 0x20004 ||| F0 =
    F0) :
    Frame F0 r0 (State.loadFilter s n owner r rules).2 := by
  refine Frame.comp hr0 ?_ m0
  unfold State.loadFilter
  dsimp only
  repeat' (first
    | with_reducible exact Frame.refl _ _ | (intro _) | with_reducible assumption | with_reducible apply newPart_frame
    | with_reducible apply modArray_frame | with_reducible apply Frame.ite | with_reducible apply Frame.foldl | split
    | exact Eq.refl _)

/-- May change regs, slices, digests, fences, slice-local memory. -/
theorem helpDigest_frame (s : State) (v : Invocation) (alg src len a : Nat) (p : BitVec 64 × State)
    (hr0 : Frame F0 r0 s) (m0 : 0x20200001020004 ||| F0 = F0) (e : State.helpDigest s v alg src len a = some p) : Frame F0 r0 p.2 := by
  unfold State.helpDigest at e
  dsimp only at e
  split at e
  · cases e; exact hr0
  · split at e
    · cases e
    · cases e
      exact memStore_frame _ _ _ _ (leaveInstance_frame _ _ (feedInstance_frame _ _ _ (takeInstance_frame _ _ _ _ _ hr0
        (mask_or m0 rfl)) (mask_or m0 rfl)) (mask_or m0 rfl)) (mask_or m0 rfl)

/-- What a helper leaves in the state that it answers with. -/
def HelperDone.Within (F : Nat) (r : State) (d : HelperDone) : Prop :=
  (∀ w v t, d = .result w v t → Frame F r t) ∧ ∀ t, d = .waits t → Frame F r t

theorem HelperDone.within_result {F : Nat} {r t : State} (w : BitVec 64) (v : Invocation) (h : Frame F r t) :
    HelperDone.Within F r (.result w v t) := ⟨fun _ _ _ e => by injection e with _ _ e; exact e ▸ h, fun _ e => (nomatch e)⟩

theorem HelperDone.within_waits {F : Nat} {r t : State} (h : Frame F r t) : HelperDone.Within F r (.waits t) :=
  ⟨fun _ _ _ e => (nomatch e), fun _ e => by injection e with e; exact e ▸ h⟩

theorem HelperDone.within_stop {F : Nat} {r : State} (d : HelperDone) (h : d = .fault ∨ d = .yields) : HelperDone.Within F r d := by
  rcases h with h | h <;> subst h <;> exact ⟨fun _ _ _ e => (nomatch e), fun _ e => (nomatch e)⟩

/-- May change regs, inflight, slices, slice-local memory. -/
theorem helperCall_frame (s : State) (v : Invocation) (m : Vm) (c w ix k : Nat) (hr0 : Frame F0 r0 s)
    (m0 : 0x20000000020204 ||| F0 = F0) : HelperDone.Within F0 r0 (State.helperCall s v m c w ix k) := by
  unfold State.helperCall
  dsimp only
  repeat' (first
    | exact HelperDone.within_result _ _ hr0 | exact HelperDone.within_waits hr0 | exact HelperDone.within_stop _ (.inl rfl)
    | exact HelperDone.within_stop _ (.inr rfl)
    | exact HelperDone.within_result _ _ (newCtx_frame _ _ _ _ _ _ _ _ hr0 (mask_or m0 rfl))
    | exact HelperDone.within_result _ _ (closeCtx_frame _ _ _ hr0 (mask_or m0 rfl))
    | exact HelperDone.within_result _ _ (loadFilter_frame _ _ _ _ _ hr0 (mask_or m0 rfl))
    | exact HelperDone.within_waits (emitNow_frame _ _ _ _ _ hr0 (mask_or m0 rfl))
    | exact HelperDone.within_waits (searchIssue_frame _ _ _ _ hr0 (mask_or m0 rfl))
    | exact HelperDone.within_result _ _ (vmStore_frame _ _ _ _ _ _ hr0 (mask_or m0 rfl) (by assumption))
    | split)

/-- May change regs, inflight, tenants, slices, digests, nvm, fences, fresh, slice-local memory. -/
theorem helperReturn_frame (s : State) (v : Invocation) (m : Vm) (k : Nat) (op : Operand) (p : BitVec 64 × List Nat × State)
    (hr0 : Frame F0 r0 s) (m0 : 0x28220001021204 ||| F0 = F0) (e : State.helperReturn s v m k op = some p) : Frame F0 r0 p.2.2 := by
  unfold State.helperReturn at e
  dsimp only at e
  split at e
  · cases e; exact hr0
  · split at e
    · cases e; exact helpRead_frame _ _ _ _ _ _ hr0 (mask_or m0 rfl)
    · exact helpWrite_frame _ _ _ _ _ _ _ hr0 (mask_or m0 rfl) e
    · cases e; exact helpObject_frame _ _ _ _ _ _ _ _ hr0 (mask_or m0 rfl)
    · obtain ⟨q, g, rfl⟩ := Option.map_eq_some_iff.mp e
      exact helpDigest_frame _ _ _ _ _ _ _ hr0 (mask_or m0 rfl) g
    · cases e; exact hr0

/-- May change regs, inflight, slices, fresh, slice-local memory. -/
theorem vmGo_frame (c w ix more fuel left : Nat) (v : Invocation) (m : Vm) (s : State) (hr0 : Frame F0 r0 s)
    (m0 : 0x28000000020204 ||| F0 = F0) : Frame F0 r0 (vmGo c w ix more fuel left v m s).2.2.2 := by
  induction fuel generalizing left v m s with
  | zero => exact hr0
  | succ fuel ih =>
    unfold vmGo
    dsimp only
    split
    · exact hr0
    · rename_i i _
      split
      · exact hr0
      · split
        · exact hr0
        · split
          · exact ih _ _ _ _ (vmStep_frame s v m i _ _ hr0 (mask_or m0 rfl) (by assumption))
          · exact hr0
          · exact hr0
          · rename_i k _
            have hc : HelperDone.Within F0 r0 (s.helperCall v m c w ix k) := helperCall_frame s v m c w ix k hr0 (mask_or m0 rfl)
            split
            · exact hr0
            · exact helperResult_frame _ _ _ (free_frame _ hr0 (mask_or m0 rfl)) (mask_or m0 rfl)
            · exact hc.2 _ (by assumption)
            · exact ih _ _ _ _ (helperResult_frame _ _ _ (hc.1 _ _ _ (by assumption)) (mask_or m0 rfl))

/-- May change regs, inflight, tenants, slices, digests, nvm, fences, fresh, slice-local memory. -/
theorem vmReturn_frame (s : State) (v : Invocation) (m : Vm) (c : Nat) (i : WorkItem) (p : Vm × State)
    (hr0 : Frame F0 r0 s) (m0 : 0x28220001021204 ||| F0 = F0) (e : State.vmReturn s v m c i = some p) : Frame F0 r0 p.2 := by
  unfold State.vmReturn at e
  dsimp only at e
  split at e
  · split at e
    · cases e
    · cases e; exact hr0
  · split at e
    · cases e
    · split at e
      · cases e
      · rename_i x waits t g
        have ht : Frame F0 r0 t := helperReturn_frame s v m _ _ (x, waits, t) hr0 (mask_or m0 rfl) g
        cases e
        dsimp only
        apply helperResult_frame
        · exact modItem_frame _ _ _ _ _ ht (mask_or m0 rfl)
        · exact mask_or m0 rfl

/-- May change slices, invocations. -/
theorem vmEnd_frame (s : State) (c w : Nat) (e : VmEnd) (v : Invocation) (m : Vm) (hr0 : Frame F0 r0 s) (m0 : 0x60000 ||| F0 =
    F0) :
    Frame F0 r0 (State.vmEnd s c w e v m) := by
  refine Frame.comp hr0 ?_ m0
  unfold State.vmEnd
  dsimp only
  repeat' (first
    | with_reducible exact Frame.refl _ _ | with_reducible apply modItem_frame | with_reducible apply holdItem_frame | split
    | exact Eq.refl _ | with_reducible apply upd_invocations)

/-- May change regs, inflight, tenants, slices, invocations, digests, nvm, fences, fresh, slice-local memory. -/
theorem vmRun_frame (s : State) (n c len : Nat) (i : WorkItem) (hr0 : Frame F0 r0 s) (m0 : 0x28220001061204 ||| F0 = F0) :
    Frame F0 r0 (State.vmRun s n c len i) := by
  unfold State.vmRun
  dsimp only
  split
  · exact hr0
  · split
    · exact hr0
    · split
      · exact hr0
      · split
        · exact vmEnd_frame _ _ _ _ _ _ hr0 (mask_or m0 rfl)
        · rename_i v hv _ m hm hi _ m2 t g
          have ht : Frame F0 r0 t := vmReturn_frame s v m c i (m2, t) hr0 (mask_or m0 rfl) g
          split
          · exact vmEnd_frame _ _ _ _ _ _ ht (mask_or m0 rfl)
          · exact vmEnd_frame _ _ _ _ _ _ (vmGo_frame _ _ _ _ _ _ _ _ _ ht (mask_or m0 rfl)) (mask_or m0 rfl)

/-- May change regs, inflight, tenants, slices, invocations, digests, nvm, fences, fresh, slice-local memory. -/
theorem runPrograms_frame (s : State) (n : Nat) (hr0 : Frame F0 r0 s) (m0 : 0x28220001061204 ||| F0 = F0) :
    Frame F0 r0 (State.runPrograms s n) := by
  refine Frame.comp hr0 ?_ m0
  unfold State.runPrograms
  repeat' (first
    | with_reducible exact Frame.refl _ _ | (intro _) | with_reducible assumption | with_reducible apply vmRun_frame
    | with_reducible apply Frame.foldl | exact Eq.refl _)

/-- May change fresh. -/
theorem startVm_frame (s : State) (v : Invocation) (image : List Byte) (hr0 : Frame F0 r0 s) (m0 : 0x8000000000000 ||| F0 = F0)
    :
    Frame F0 r0 (State.startVm s v image).2 := by
  refine Frame.comp hr0 ?_ m0
  unfold State.startVm
  dsimp only
  repeat' (first
    | with_reducible exact Frame.refl _ _ | (intro _) | with_reducible assumption | with_reducible apply free_frame
    | with_reducible apply Frame.foldl | with_reducible apply Frame.foldl_snd | exact Eq.refl _)

/-- May change regs, inflight, slices, fresh. -/
theorem progInput_frame (s : State) (v : Invocation) (p : ParamHdr) (q : List Byte × Option ObjRecord × State)
    (hr0 : Frame F0 r0 s) (m0 : 0x8000000020204 ||| F0 = F0) (e : State.progInput s v p = some q) : Frame F0 r0 q.2.2 := by
  unfold State.progInput at e
  dsimp only at e
  split at e
  · obtain ⟨b, _, rfl⟩ := Option.map_eq_some_iff.mp e
    exact hr0
  · split at e
    · cases e
    · split at e
      · cases e
      · cases e; exact countRange_frame _ _ _ _ _ hr0 (mask_or m0 rfl)
  · split at e
    · cases e
    · split at e
      · cases e
      · split at e
        · cases e
        · split at e
          · cases e
          · cases e; exact countObject_frame _ _ _ _ _ _ (lookup_frame _ _ _ _ hr0 (mask_or m0 rfl)) (mask_or m0 rfl)
  · cases e

/-- May change nothing. -/
theorem progFault_frame (s : State) (hr0 : Frame F0 r0 s) (m0 : 0x0 ||| F0 = F0) :
    Frame F0 r0 (State.progFault s).state := by
  refine Frame.comp hr0 ?_ m0
  unfold State.progFault
  dsimp only
  repeat' (first | with_reducible exact Frame.refl _ _ | exact Eq.refl _)

/-- May change regs, slices, slice-local memory. -/
theorem progWrite_frame (s : State) (v : Invocation) (p : ParamHdr) (bs : List Byte) (ret : Nat) (hr0 : Frame F0 r0 s) (m0 :
    0x20000000020004 ||| F0 = F0) :
    Frame F0 r0 (State.progWrite s v p bs ret).state := by
  refine Frame.comp hr0 ?_ m0
  unfold State.progWrite
  repeat' (first
    | with_reducible exact Frame.refl _ _ | with_reducible apply progFault_frame | with_reducible apply memStore_frame
    | with_reducible apply Frame.ite | split | exact Eq.refl _)

/-- May change regs, slices, slice-local memory. -/
theorem recordFilter_frame (s : State) (v : Invocation) (p : ParamHdr) (input : List Byte) (hr0 : Frame F0 r0 s) (m0 :
    0x20000000020004 ||| F0 = F0) :
    Frame F0 r0 (State.recordFilter s v p input).state := by
  refine Frame.comp hr0 ?_ m0
  unfold State.recordFilter
  dsimp only
  repeat' (first
    | with_reducible exact Frame.refl _ _ | with_reducible apply progFault_frame | with_reducible apply countSearches_frame
    | with_reducible apply progWrite_frame | with_reducible apply Frame.ite | split | exact Eq.refl _)

/-- May change regs, slices, slice-local memory. -/
theorem patternSearch_frame (s : State) (v : Invocation) (p : ParamHdr) (input : List Byte) (hr0 : Frame F0 r0 s) (m0 :
    0x20000000020004 ||| F0 = F0) :
    Frame F0 r0 (State.patternSearch s v p input).state := by
  refine Frame.comp hr0 ?_ m0
  unfold State.patternSearch
  dsimp only
  repeat' (first
    | with_reducible exact Frame.refl _ _ | with_reducible apply progFault_frame | with_reducible apply progWrite_frame
    | with_reducible apply Frame.ite | split | exact Eq.refl _)

/-- May change regs, slices, fresh, slice-local memory. -/
theorem streamProgram_frame (s : State) (v : Invocation) (p : ParamHdr) (input : List Byte) (hr0 : Frame F0 r0 s) (m0 :
    0x28000000020004 ||| F0 = F0) :
    Frame F0 r0 (State.streamProgram s v p input).state := by
  refine Frame.comp hr0 ?_ m0
  unfold State.streamProgram
  dsimp only
  repeat' (first
    | with_reducible exact Frame.refl _ _ | with_reducible apply free_frame | with_reducible apply progFault_frame
    | with_reducible apply progWrite_frame | with_reducible apply Frame.ite | split | exact Eq.refl _)

/-- May change regs, digests, fences. -/
theorem passInstance_frame (s : State) (v : Invocation) (i : Option Nat) (alg : Nat) (bs : List Byte) (hr0 : Frame F0 r0 s) (m0
    : 0x200001000004 ||| F0 = F0) :
    Frame F0 r0 (State.passInstance s v i alg bs) := by
  refine Frame.comp hr0 ?_ m0
  unfold State.passInstance
  repeat' (first
    | with_reducible exact Frame.refl _ _ | with_reducible apply leaveInstance_frame | with_reducible apply feedInstance_frame
    | with_reducible apply takeInstance_frame | exact Eq.refl _)

/-- May change regs, slices, digests, fences, slice-local memory. -/
theorem fixityProgram_frame (s : State) (v : Invocation) (p : ParamHdr) (input : List Byte) (o : Option ObjRecord) (q : ProgEnd)
    (hr0 : Frame F0 r0 s) (m0 : 0x20200001020004 ||| F0 = F0) (e : State.fixityProgram s v p input o = some q) : Frame F0 r0 q.state := by
  unfold State.fixityProgram at e
  dsimp only at e
  split at e
  · cases e; exact progFault_frame _ hr0 (mask_or m0 rfl)
  · obtain ⟨i, _, rfl⟩ := Option.map_eq_some_iff.mp e
    exact progWrite_frame _ _ _ _ _ (passInstance_frame _ _ _ _ _ hr0 (mask_or m0 rfl)) (mask_or m0 rfl)

/-- May change regs, slices, digests, fences, slice-local memory. -/
theorem objectSeal_frame (s : State) (v : Invocation) (p : ParamHdr) (o : Option ObjRecord) (value : List Byte) (q : ProgEnd)
    (hr0 : Frame F0 r0 s) (m0 : 0x20200001020004 ||| F0 = F0) (e : State.objectSeal s v p o value = some q) : Frame F0 r0 q.state := by
  unfold State.objectSeal at e
  dsimp only at e
  split at e
  · cases e; exact progFault_frame _ hr0 (mask_or m0 rfl)
  · split at e
    · cases e; exact progFault_frame _ hr0 (mask_or m0 rfl)
    · split at e
      · cases e
      · obtain ⟨i, _, rfl⟩ := Option.map_eq_some_iff.mp e
        exact progWrite_frame _ _ _ _ _ (passInstance_frame _ _ _ _ _ (takeCtr_frame _ _ _ hr0 (mask_or m0 rfl)) (mask_or m0 rfl))
          (mask_or m0 rfl)

/-- May change regs, inflight, tenants, slices, digests, fences, fresh. -/
theorem unsealStore_frame (s : State) (v : Invocation) (nsid : Nat) (k : KvKey) (value : List Byte) (q : Nat × State)
    (hr0 : Frame F0 r0 s) (m0 : 0x8200001021204 ||| F0 = F0) (e : State.unsealStore s v nsid k value = some q) : Frame F0 r0 q.2 := by
  unfold State.unsealStore at e
  dsimp only at e
  split at e
  · cases e; exact free_frame _ hr0 (mask_or m0 rfl)
  · split at e
    · cases e; exact free_frame _ hr0 (mask_or m0 rfl)
    · split at e
      · cases e; exact free_frame _ (lookup_frame _ _ _ _ hr0 (mask_or m0 rfl)) (mask_or m0 rfl)
      · split at e
        · cases e
        · obtain ⟨i, _, rfl⟩ := Option.map_eq_some_iff.mp e
          dsimp only
          repeat' (first
            | with_reducible exact hr0 | with_reducible apply commitObject_frame | with_reducible apply writeUnits_frame
            | with_reducible apply modSlice_frame | with_reducible apply evalWear_frame | with_reducible apply charge_frame
            | with_reducible apply passInstance_frame | with_reducible apply lookup_frame | exact SlmSame.of fun _ => rfl
            | exact mask_or m0 rfl)

/-- May change regs, inflight, tenants, slices, digests, fences, fresh, slice-local memory. -/
theorem objectUnseal_frame (s : State) (v : Invocation) (p : ParamHdr) (input : List Byte) (q : ProgEnd)
    (hr0 : Frame F0 r0 s) (m0 : 0x28200001021204 ||| F0 = F0) (e : State.objectUnseal s v p input = some q) : Frame F0 r0 q.state := by
  unfold State.objectUnseal at e
  dsimp only at e
  split at e
  · cases e; exact progFault_frame _ hr0 (mask_or m0 rfl)
  · split at e
    · cases e; exact hr0
    · split at e
      · cases e; exact hr0
      · split at e
        · cases e
        · have hs (i : Option Nat) (alg : Nat) (bs : List Byte) : Frame F0 r0 (s.passInstance v i alg bs) :=
            passInstance_frame _ _ _ _ _ hr0 (mask_or m0 rfl)
          split at e
          · cases e; exact hs _ _ _
          · split at e
            · cases e; exact progWrite_frame _ _ _ _ _ (hs _ _ _) (mask_or m0 rfl)
            · obtain ⟨r, g, rfl⟩ := Option.map_eq_some_iff.mp e
              exact unsealStore_frame _ _ _ _ _ r (hs _ _ _) (mask_or m0 rfl) g

/-- May change regs, slices, fresh, slice-local memory. -/
theorem indexProgram_frame (s : State) (v : Invocation) (p : ParamHdr) (input : List Byte) (ret : Nat) (hr0 : Frame F0 r0 s) (m0
    : 0x28000000020004 ||| F0 = F0) :
    Frame F0 r0 (State.indexProgram s v p input ret).state := by
  refine Frame.comp hr0 ?_ m0
  unfold State.indexProgram
  dsimp only
  repeat' (first
    | with_reducible exact Frame.refl _ _ | with_reducible apply progFault_frame | with_reducible apply free_frame
    | with_reducible apply progWrite_frame | split | exact Eq.refl _)

/-- May change regs, inflight, tenants, slices, digests, fences, fresh, slice-local memory. -/
theorem deviceProgram_frame (s : State) (v : Invocation) (ret : Nat) (q : ProgEnd) (hr0 : Frame F0 r0 s)
    (m0 : 0x28200001021204 ||| F0 = F0) (e : State.deviceProgram s v ret = some q) : Frame F0 r0 q.state := by
  unfold State.deviceProgram at e
  dsimp only at e
  split at e
  · cases e; exact progFault_frame _ hr0 (mask_or m0 rfl)
  · rename_i input o t g
    have hs : Frame F0 r0 t := progInput_frame s v _ (input, o, t) hr0 (mask_or m0 rfl) g
    split at e
    · cases e; exact recordFilter_frame _ _ _ _ hs (mask_or m0 rfl)
    · cases e; exact patternSearch_frame _ _ _ _ hs (mask_or m0 rfl)
    · cases e; exact streamProgram_frame _ _ _ _ hs (mask_or m0 rfl)
    · cases e; exact streamProgram_frame _ _ _ _ hs (mask_or m0 rfl)
    · exact fixityProgram_frame _ _ _ _ _ _ hs (mask_or m0 rfl) e
    · exact objectSeal_frame _ _ _ _ _ _ hs (mask_or m0 rfl) e
    · exact objectUnseal_frame _ _ _ _ _ hs (mask_or m0 rfl) e
    · cases e; exact indexProgram_frame _ _ _ _ _ hs (mask_or m0 rfl)

/-- May change regs, slices. -/
theorem openFilters_frame (s : State) (v : Invocation) (hr0 : Frame F0 r0 s) (m0 : 0x20004 ||| F0 = F0) :
    Frame F0 r0 (State.openFilters s v).2 := by
  refine Frame.comp hr0 ?_ m0
  unfold State.openFilters
  dsimp only
  repeat' (first
    | with_reducible exact Frame.refl _ _ | (intro _) | with_reducible assumption | with_reducible apply loadFilter_frame
    | with_reducible apply Frame.ite | with_reducible apply Frame.foldl | with_reducible apply Frame.foldl_snd | split
    | exact Eq.refl _)

/-! ### Programs -/

/-- May change namespaces. -/
theorem putProgram_frame (s : State) (nsid index : Nat) (p : Option Program) (hr0 : Frame F0 r0 s) (m0 : 0x800 ||| F0 = F0) :
    Frame F0 r0 (State.putProgram s nsid index p) := by
  refine Frame.comp hr0 ?_ m0
  unfold State.putProgram
  repeat' (first | with_reducible exact Frame.refl _ _ | with_reducible apply modNs_frame | split | exact Eq.refl _)

/-- May change inflight, namespaces. -/
theorem failLoad_frame (s : State) (h : Hdr) (nsid index reason : Nat) (hr0 : Frame F0 r0 s) (m0 : 0xa00 ||| F0 = F0) :
    Frame F0 r0 (State.failLoad s h nsid index reason) := by
  refine Frame.comp hr0 ?_ m0
  unfold State.failLoad
  repeat' (first
    | with_reducible exact Frame.refl _ _ | with_reducible apply finish_frame | with_reducible apply putProgram_frame
    | exact Eq.refl _)

/-- May change regs, inflight, namespaces, hd, parks, hdQueue, ats. -/
theorem execLoadProgram_frame (h : Hdr) (nsid index : Nat) (ptype : ProgType) (total offset : Nat) (piece : List (BitVec 8)) (s
    : State) (hr0 : Frame F0 r0 s) (m0 : 0xf00a04 ||| F0 = F0) :
    FrameOut F0 r0 (execLoadProgram h nsid index ptype total offset piece s) := by
  refine FrameOut.comp hr0 ?_ m0
  unfold execLoadProgram
  dsimp only
  repeat' (first
    | with_reducible exact Frame.refl _ _ | (intro _) | with_reducible assumption | with_reducible apply ioCmd_frame
    | with_reducible apply finish_frame | with_reducible apply dataIn_frame | with_reducible apply failLoad_frame
    | with_reducible apply putProgram_frame | with_reducible apply Frame.next | with_reducible apply Frame.ite | split
    | exact Eq.refl _)

/-- May change inflight, namespaces. -/
theorem execProgramActivationManagement_frame (h : Hdr) (nsid index : Nat) (activate : Bool) (s : State) (hr0 : Frame F0 r0 s)
    (m0 : 0xa00 ||| F0 = F0) :
    FrameOut F0 r0 (execProgramActivationManagement h nsid index activate s) := by
  refine FrameOut.comp hr0 ?_ m0
  unfold execProgramActivationManagement
  repeat' (first
    | with_reducible exact Frame.refl _ _ | (intro _) | with_reducible assumption | with_reducible apply ioCmd_frame
    | with_reducible apply finish_frame | with_reducible apply putProgram_frame | with_reducible apply Frame.next
    | with_reducible apply Frame.ite | split | exact Eq.refl _)

/-- May change fresh. -/
theorem translated_frame (s : State) (x : Namespace) (v : Invocation) (hr0 : Frame F0 r0 s) (m0 : 0x8000000000000 ||| F0 = F0) :
    Frame F0 r0 (State.translated s x v).2 := by
  refine Frame.comp hr0 ?_ m0
  unfold State.translated
  dsimp only
  repeat' (first | with_reducible exact Frame.refl _ _ | with_reducible apply startVm_frame | split | exact Eq.refl _)

/-- May change regs, inflight, slices, invocations, nextInv, hd, parks, hdQueue, ats, fresh. -/
theorem execExecuteProgram_frame (h : Hdr) (nsid index : Nat) (ranges : List MemRange) (limit : Nat) (params : List (BitVec 8))
    (s : State) (hr0 : Frame F0 r0 s) (m0 : 0x8000000fe0204 ||| F0 = F0) :
    FrameOut F0 r0 (execExecuteProgram h nsid index ranges limit params s) := by
  refine FrameOut.comp hr0 ?_ m0
  unfold execExecuteProgram
  dsimp only
  repeat' (first
    | with_reducible exact Frame.refl _ _ | (intro _) | with_reducible assumption | with_reducible apply ioCmd_frame
    | with_reducible apply finish_frame | with_reducible apply choose_frame | with_reducible apply hold_frame
    | with_reducible apply dataIn_frame | with_reducible apply openFlow_frame | with_reducible apply free_frame
    | with_reducible apply allocSlot_frame | with_reducible apply openFilters_frame | with_reducible apply translated_frame
    | with_reducible apply answer_frame | with_reducible apply Frame.next | with_reducible apply Frame.ite | split
    | exact Eq.refl _ | with_reducible apply upd_invocations_nextInv)

/-- May change regs, inflight, tenants, slices, invocations, digests, fences, fresh, slice-local memory. -/
theorem execInvocationComplete_frame (inv : Nat) (outcome : RunOutcome) (ret : BitVec 32) (s : State) (hr0 : Frame F0 r0 s)
    (m0 : 0x28200001061204 ||| F0 = F0) : FrameOut F0 r0 (execInvocationComplete inv outcome ret s) := by
  refine FrameOut.comp hr0 ?_ m0
  unfold execInvocationComplete
  apply Frame.next
  repeat' (first
    | with_reducible exact Frame.refl _ _ | with_reducible apply endInvocation_frame
    | exact deviceProgram_frame _ _ _ _ (Frame.refl _ _) rfl (by assumption) | split | exact Eq.refl _)

/-- May change regs, inflight, slices, invocations. -/
theorem execInvocationLimitExpiry_frame (inv : Nat) (s : State) (hr0 : Frame F0 r0 s) (m0 : 0x60204 ||| F0 = F0) :
    FrameOut F0 r0 (execInvocationLimitExpiry inv s) := by
  refine FrameOut.comp hr0 ?_ m0
  unfold execInvocationLimitExpiry
  repeat' (first
    | with_reducible exact Frame.refl _ _ | with_reducible apply endInvocation_frame | with_reducible apply Frame.next | split
    | exact Eq.refl _)

end Sys2Proof.Laws
end

