-- ==== Sys2Proof/Laws/FrameRest.lean ====
section
/-!
SUPPORT. What each operation may change: course boundaries, memory commands, SPDM, media, power states and the register window.
-/

namespace Sys2Proof.Laws

open Sys2Proof.Machine

variable {F0 : Nat} {r0 : State}

/-! ### Course -/

/-- May change ctrls. -/
theorem ringRecorded_frame (s : State) (ti : Nat) (hr0 : Frame F0 r0 s) (m0 : 0x100 ||| F0 = F0) :
    Frame F0 r0 (State.ringRecorded s ti) := by
  refine Frame.comp hr0 ?_ m0
  unfold State.ringRecorded
  repeat' (first
    | with_reducible exact Frame.refl _ _ | (intro _) | with_reducible assumption | with_reducible apply modCtrl_frame
    | with_reducible apply Frame.foldl | exact Eq.refl _)

/-- May change ctrls, tenants. -/
theorem turnTenant_frame (s : State) (t : Tenant) (hr0 : Frame F0 r0 s) (m0 : 0x1100 ||| F0 = F0) :
    Frame F0 r0 (State.turnTenant s t) := by
  refine Frame.comp hr0 ?_ m0
  unfold State.turnTenant
  dsimp only
  repeat' (first
    | with_reducible exact Frame.refl _ _ | with_reducible apply modTenant_frame | with_reducible apply ringRecorded_frame
    | with_reducible apply Frame.ite | split | exact Eq.refl _)

/-- May change regs, inflight, hd, parks, hdQueue. -/
theorem flrDiscard_frame (s : State) (hr0 : Frame F0 r0 s) (m0 : 0x700204 ||| F0 = F0) :
    Frame F0 r0 (State.flrDiscard s) := by
  refine Frame.comp hr0 ?_ m0
  unfold State.flrDiscard
  dsimp only
  repeat' (first
    | with_reducible exact Frame.refl _ _ | with_reducible apply hdRefill_frame | with_reducible apply hdDrop_frame | split
    | exact Eq.refl _ | with_reducible apply upd_inflight)

/-- May change regs, fenceSoon. -/
theorem lateUnit_frame (s : State) (u : UnitId) (hr0 : Frame F0 r0 s) (m0 : 0x800000000004 ||| F0 = F0) :
    Frame F0 r0 (State.lateUnit s u) := by
  refine Frame.comp hr0 ?_ m0
  unfold State.lateUnit
  repeat' (first
    | with_reducible exact Frame.refl _ _ | with_reducible apply report_frame | with_reducible apply inc_frame
    | with_reducible apply setBit_frame | with_reducible apply Frame.ite | split | exact Eq.refl _)

/-- May change regs, tenants. -/
theorem replenish_frame (s : State) (hr0 : Frame F0 r0 s) (m0 : 0x1004 ||| F0 = F0) :
    Frame F0 r0 (State.replenish s) := by
  refine Frame.comp hr0 ?_ m0
  unfold State.replenish
  repeat' (first
    | with_reducible exact Frame.refl _ _ | with_reducible apply evalWear_frame | with_reducible apply mapTenants_frame
    | exact Eq.refl _)

/-- May change regs, slices. -/
theorem turnRate_frame (s : State) (n r : Nat) (hr0 : Frame F0 r0 s) (m0 : 0x20004 ||| F0 = F0) :
    Frame F0 r0 (State.turnRate s n r) := by
  refine Frame.comp hr0 ?_ m0
  unfold State.turnRate
  dsimp only
  repeat' (first
    | with_reducible exact Frame.refl _ _ | with_reducible apply modArray_frame | with_reducible apply putF_frame
    | with_reducible apply setBit_frame | with_reducible apply Frame.ite | split | exact Eq.refl _)

/-- May change regs. -/
theorem countThrottle_frame (s : State) (n : Nat) (hr0 : Frame F0 r0 s) (m0 : 0x4 ||| F0 = F0) :
    Frame F0 r0 (State.countThrottle s n) := by
  refine Frame.comp hr0 ?_ m0
  unfold State.countThrottle
  repeat' (first
    | with_reducible exact Frame.refl _ _ | (intro _) | with_reducible assumption | with_reducible apply inc_frame
    | with_reducible apply Frame.ite | with_reducible apply Frame.foldl | split | exact Eq.refl _)

/-- May change slices. -/
theorem endErases_frame (s : State) (n : Nat) (hr0 : Frame F0 r0 s) (m0 : 0x20000 ||| F0 = F0) :
    Frame F0 r0 (State.endErases s n) := by
  refine Frame.comp hr0 ?_ m0
  unfold State.endErases
  dsimp only
  repeat' (first
    | with_reducible exact Frame.refl _ _ | (intro _) | with_reducible assumption | with_reducible apply modSlice_frame
    | with_reducible apply erase_frame | with_reducible apply Frame.ite | with_reducible apply Frame.foldl
    | exact SlmSame.of fun _ => rfl | split | exact Eq.refl _)

/-- May change inflight, slices, fresh. -/
theorem flashTurn_frame (s : State) (n : Nat) (hr0 : Frame F0 r0 s) (m0 : 0x8000000020200 ||| F0 = F0) :
    Frame F0 r0 (State.flashTurn s n) := by
  refine Frame.comp hr0 ?_ m0
  unfold State.flashTurn
  repeat' (first
    | with_reducible exact Frame.refl _ _ | with_reducible apply clearSensed_frame | with_reducible apply engineCourse_frame
    | with_reducible apply endErases_frame | with_reducible apply flashCourse_frame | with_reducible apply Frame.ite | split
    | exact Eq.refl _)

/-- May change regs, ctrls, inflight, slices, nvm, fenceSoon, fresh. -/
theorem mediaBoundary_frame (s : State) (n : Nat) (hr0 : Frame F0 r0 s) (m0 : 0x8820000020304 ||| F0 = F0) :
    Frame F0 r0 (State.mediaBoundary s n) := by
  refine Frame.comp hr0 ?_ m0
  unfold State.mediaBoundary
  dsimp only
  repeat' (first
    | with_reducible exact Frame.refl _ _ | (intro _) | with_reducible assumption | with_reducible apply pumpMoves_frame
    | with_reducible apply streamStarts_frame | with_reducible apply eraseReserve_frame | with_reducible apply checkpoint_frame
    | with_reducible apply pumpVerify_frame | with_reducible apply cacheSecond_frame | with_reducible apply evacProgress_frame
    | with_reducible apply endLanding_frame | with_reducible apply collect_frame | with_reducible apply Frame.foldl
    | exact Eq.refl _)

/-- May change regs, ctrls, inflight, slices, nvm, fenceSoon, fresh. -/
theorem sliceBoundary_frame (s : State) (n : Nat) (hr0 : Frame F0 r0 s) (m0 : 0x8820000020304 ||| F0 = F0) :
    Frame F0 r0 (State.sliceBoundary s n) := by
  refine Frame.comp hr0 ?_ m0
  unfold State.sliceBoundary
  dsimp only
  repeat' (first
    | with_reducible exact Frame.refl _ _ | with_reducible apply turnGenerators_frame | with_reducible apply purgeKeys_frame
    | with_reducible apply evalPaths_frame | with_reducible apply modSlice_frame | with_reducible apply countThrottle_frame
    | with_reducible apply turnRate_frame | with_reducible apply mediaBoundary_frame | with_reducible apply Frame.ite
    | exact SlmSame.of fun _ => rfl | split | exact Eq.refl _)

/-- May change regs, course, inflight, slices, hd, parks, hdQueue, fresh, slice-local memory. -/
theorem dividedWork_frame (s : State) (hr0 : Frame F0 r0 s) (m0 : 0x28000000720224 ||| F0 = F0) :
    Frame F0 r0 (State.dividedWork s) := by
  refine Frame.comp hr0 ?_ m0
  unfold State.dividedWork
  dsimp only
  repeat' (first
    | with_reducible exact Frame.refl _ _ | (intro _) | with_reducible assumption | with_reducible apply clusterBoundary_frame
    | with_reducible apply arrayCourse_frame | with_reducible apply hdAccount_frame | with_reducible apply hdTurn_frame
    | with_reducible apply Frame.ite | with_reducible apply Frame.foldl | split | exact Eq.refl _)

/-- May change regs, recorder. -/
theorem sealedIntervals_frame (s : State) (hr0 : Frame F0 r0 s) (m0 : 0x100000000004 ||| F0 = F0) :
    Frame F0 r0 (State.sealedIntervals s) := by
  refine Frame.comp hr0 ?_ m0
  unfold State.sealedIntervals
  dsimp only
  repeat' (first
    | with_reducible exact Frame.refl _ _ | (intro _) | with_reducible assumption | with_reducible apply sealedOut_frame
    | with_reducible apply sealedIn_frame | with_reducible apply Frame.ite | with_reducible apply Frame.foldl | split
    | exact Eq.refl _)

/-- May change course. -/
theorem turnTrim_frame (s : State) (hr0 : Frame F0 r0 s) (m0 : 0x20 ||| F0 = F0) :
    Frame F0 r0 (State.turnTrim s) := by
  refine Frame.comp hr0 ?_ m0
  unfold State.turnTrim
  dsimp only
  repeat' (first
    | with_reducible exact Frame.refl _ _ | with_reducible apply modCourse_frame | with_reducible apply Frame.ite | split
    | exact Eq.refl _)

/-- May change pins, regs, course, links, ctrls, inflight, tenants, slices, invocations, hd, parks, hdQueue, digests, nvm, power,
recorder, fences, fenceCounts, fenceSoon, fresh, slice-local memory. -/
theorem execCourseBoundary_frame (late : List UnitId) (s : State) (hr0 : Frame F0 r0 s) (m0 : 0x28f600017613a6 ||| F0 = F0) :
    FrameOut F0 r0 (execCourseBoundary late s) := by
  refine FrameOut.comp hr0 ?_ m0
  unfold execCourseBoundary
  dsimp only
  repeat' (first
    | with_reducible exact Frame.refl _ _ | (intro _) | with_reducible assumption | with_reducible apply flashTurn_frame
    | with_reducible apply dramCourse_frame | with_reducible apply runPrograms_frame | with_reducible apply mapSlices_frame
    | with_reducible apply turnTrim_frame | with_reducible apply modCourse_frame | with_reducible apply faultNow_frame
    | with_reducible apply lateUnit_frame | with_reducible apply turnTenant_frame | with_reducible apply mapInflight_frame
    | with_reducible apply flrDiscard_frame | with_reducible apply checkCommit_frame | with_reducible apply replenish_frame
    | with_reducible apply turnCuts_frame | with_reducible apply turnHubSeed_frame | with_reducible apply sliceBoundary_frame
    | with_reducible apply dividedWork_frame | with_reducible apply sealedIntervals_frame | with_reducible apply Frame.next
    | with_reducible apply Frame.stop | with_reducible apply Frame.ite | with_reducible apply Frame.foldl
    | exact SlmSame.of fun _ => rfl | split | exact Eq.refl _ | with_reducible apply upd_pins)

/-- May change regs, recorder. -/
theorem slotsMoved_frame (s : State) (old : List (Nat × Word)) (hr0 : Frame F0 r0 s) (m0 : 0x100000000004 ||| F0 = F0) :
    Frame F0 r0 (State.slotsMoved s old) := by
  refine Frame.comp hr0 ?_ m0
  unfold State.slotsMoved
  repeat' (first
    | with_reducible exact Frame.refl _ _ | (intro _) | with_reducible assumption | with_reducible apply notice_frame
    | with_reducible apply Frame.ite | with_reducible apply Frame.foldl | split | exact Eq.refl _)

/-- May change regs, power. -/
theorem turnPower_frame (s : State) (hr0 : Frame F0 r0 s) (m0 : 0x40000000004 ||| F0 = F0) :
    Frame F0 r0 (State.turnPower s) := by
  refine Frame.comp hr0 ?_ m0
  unfold State.turnPower
  dsimp only
  repeat' (first
    | with_reducible exact Frame.refl _ _ | with_reducible apply capSetpoint_frame | with_reducible apply modPower_frame
    | with_reducible apply putF_frame | with_reducible apply setBit_frame | with_reducible apply Frame.ite | split
    | exact Eq.refl _)

/-- May change regs, slices, fresh. -/
theorem takeWa_frame (s : State) (n : Nat) (hr0 : Frame F0 r0 s) (m0 : 0x8000000020004 ||| F0 = F0) :
    Frame F0 r0 (State.takeWa s n) := by
  refine Frame.comp hr0 ?_ m0
  unfold State.takeWa
  dsimp only
  repeat' (first
    | with_reducible exact Frame.refl _ _ | (intro _) | with_reducible assumption | with_reducible apply free_frame
    | with_reducible apply modSlice_frame | with_reducible apply putF_frame | with_reducible apply Frame.ite
    | with_reducible apply Frame.foldl | exact SlmSame.of fun _ => rfl | split | exact Eq.refl _)

/-- May change regs, ctrls, namespaces, tenants, start. -/
theorem restoreTenants_frame (s : State) (hr0 : Frame F0 r0 s) (m0 : 0x80000001904 ||| F0 = F0) :
    Frame F0 r0 (State.restoreTenants s) := by
  refine Frame.comp hr0 ?_ m0
  unfold State.restoreTenants
  dsimp only
  repeat' (first
    | with_reducible exact Frame.refl _ _ | with_reducible apply modStart_frame | with_reducible apply mapNs_frame
    | with_reducible apply mapTenants_frame | with_reducible apply evalReady_frame | with_reducible apply evalWear_frame
    | with_reducible apply Frame.ite | split | exact Eq.refl _ | with_reducible apply upd_tenants)

/-- May change regs, course. -/
theorem turnSync_frame (s : State) (hr0 : Frame F0 r0 s) (m0 : 0x24 ||| F0 = F0) :
    Frame F0 r0 (State.turnSync s) := by
  refine Frame.comp hr0 ?_ m0
  unfold State.turnSync
  dsimp only
  repeat' (first
    | with_reducible exact Frame.refl _ _ | with_reducible apply modCourse_frame | with_reducible apply wr_frame
    | with_reducible apply putF_frame | with_reducible apply Frame.ite | split | exact Eq.refl _)

/-- May change pins, regs, course, ctrls, inflight, namespaces, tenants, leaving, deferred, slotWaits, slices, invocations, hd,
parks, hdQueue, digests, nvm, power, start, recorder, fences, unfence, fresh, slice-local memory. -/
theorem execBondPeriodBoundary_frame (hot : List Nat) (s : State) (hr0 : Frame F0 r0 s) (m0 : 0x2a3e0001777b26 ||| F0 = F0) :
    FrameOut F0 r0 (execBondPeriodBoundary hot s) := by
  refine FrameOut.comp hr0 ?_ m0
  unfold execBondPeriodBoundary
  dsimp only
  repeat' (first
    | with_reducible exact Frame.refl _ _ | (intro _) | with_reducible assumption | with_reducible apply modCourse_frame
    | with_reducible apply turnSync_frame | with_reducible apply boundaryActs_frame | with_reducible apply mapSlices_frame
    | with_reducible apply slotsMoved_frame | with_reducible apply hdApplyCtl_frame | with_reducible apply testFence_frame
    | with_reducible apply testReturn_frame | with_reducible apply turnPower_frame | with_reducible apply restoreTenants_frame
    | with_reducible apply takeWa_frame | with_reducible apply evalPaths_frame | with_reducible apply openRetrains_frame
    | with_reducible apply refreshModes_frame | with_reducible apply dividedWork_frame
    | with_reducible apply sealedIntervals_frame | with_reducible apply Frame.next | with_reducible apply Frame.ite
    | with_reducible apply Frame.foldl | exact SlmSame.of fun _ => rfl | split | exact Eq.refl _
    | with_reducible apply upd_leaving | with_reducible apply upd_pins)

/-- May change regs, course. -/
theorem execCommitGo_frame (s : State) (hr0 : Frame F0 r0 s) (m0 : 0x24 ||| F0 = F0) :
    FrameOut F0 r0 (execCommitGo s) := by
  refine FrameOut.comp hr0 ?_ m0
  unfold execCommitGo
  repeat' (first
    | with_reducible exact Frame.refl _ _ | with_reducible apply requestCommit_frame | with_reducible apply Frame.next
    | with_reducible apply Frame.ite | split | exact Eq.refl _)

/-- May change regs. -/
theorem setSync_frame (s : State) (k : Nat) (hr0 : Frame F0 r0 s) (m0 : 0x4 ||| F0 = F0) :
    Frame F0 r0 (State.setSync s k) := by
  refine Frame.comp hr0 ?_ m0
  unfold State.setSync
  repeat' (first | with_reducible exact Frame.refl _ _ | with_reducible apply putF_frame | exact Eq.refl _)

/-- May change regs, course, slices, nvm. -/
theorem execSyncPulse_frame (phase : Int) (s : State) (hr0 : Frame F0 r0 s) (m0 : 0x20000020024 ||| F0 = F0) :
    FrameOut F0 r0 (execSyncPulse phase s) := by
  refine FrameOut.comp hr0 ?_ m0
  unfold execSyncPulse
  dsimp only
  repeat' (first
    | with_reducible exact Frame.refl _ _ | with_reducible apply releaseSlices_frame | with_reducible apply modCourse_frame
    | with_reducible apply setSync_frame | with_reducible apply putF_frame | with_reducible apply setBit_frame
    | with_reducible apply Frame.next | with_reducible apply Frame.ite | split | exact Eq.refl _)

/-- May change regs, course. -/
theorem execSyncPulseMissing_frame (s : State) (hr0 : Frame F0 r0 s) (m0 : 0x24 ||| F0 = F0) :
    FrameOut F0 r0 (execSyncPulseMissing s) := by
  refine FrameOut.comp hr0 ?_ m0
  unfold execSyncPulseMissing
  dsimp only
  repeat' (first
    | with_reducible exact Frame.refl _ _ | with_reducible apply modCourse_frame | with_reducible apply setSync_frame
    | with_reducible apply Frame.next | with_reducible apply Frame.ite | split | exact Eq.refl _)

/-- May change regs, course, slices, nvm. -/
theorem execSyncWaitTimeout_frame (s : State) (hr0 : Frame F0 r0 s) (m0 : 0x20000020024 ||| F0 = F0) :
    FrameOut F0 r0 (execSyncWaitTimeout s) := by
  refine FrameOut.comp hr0 ?_ m0
  unfold execSyncWaitTimeout
  repeat' (first
    | with_reducible exact Frame.refl _ _ | with_reducible apply releaseSlices_frame | with_reducible apply setBit_frame
    | with_reducible apply setSync_frame | with_reducible apply Frame.next | with_reducible apply Frame.ite | split
    | exact Eq.refl _)

/-- May change pins, regs. -/
theorem execSyncConflict_frame (s : State) (hr0 : Frame F0 r0 s) (m0 : 0x6 ||| F0 = F0) :
    FrameOut F0 r0 (execSyncConflict s) := by
  refine FrameOut.comp hr0 ?_ m0
  unfold execSyncConflict
  dsimp only
  repeat' (first
    | with_reducible exact Frame.refl _ _ | with_reducible apply setBit_frame | with_reducible apply setSync_frame
    | with_reducible apply Frame.next | with_reducible apply Frame.ite | split | exact Eq.refl _
    | with_reducible apply upd_pins)

/-! ### Memory -/

/-- May change inflight. -/
theorem memCmd_frame (s : State) (h : Hdr) (nsid offset length : Nat) (f : Nat → Nat → State → State) (hr0 : Frame F0 r0 s) (m0
    : 0x200 ||| F0 = F0) (h_f : ∀ a0 a1 t, Frame F0 r0 t → Frame F0 r0 (f a0 a1 t)) :
    Frame F0 r0 (State.memCmd s h nsid offset length f) := by
  unfold State.memCmd
  dsimp only
  repeat' (first
    | with_reducible exact hr0 | with_reducible apply h_f | (intro _) | with_reducible assumption
    | with_reducible apply ioCmd_frame | with_reducible apply finish_frame | with_reducible apply Frame.ite | split
    | exact mask_or ‹_› rfl)

/-- May change regs, inflight, slices, hd, parks, hdQueue, ats. -/
theorem execMemoryRead_frame (h : Hdr) (nsid offset length : Nat) (s : State) (hr0 : Frame F0 r0 s) (m0 : 0xf20204 ||| F0 = F0)
    :
    FrameOut F0 r0 (execMemoryRead h nsid offset length s) := by
  refine FrameOut.comp hr0 ?_ m0
  unfold execMemoryRead
  repeat' (first
    | with_reducible exact Frame.refl _ _ | (intro _) | with_reducible assumption | with_reducible apply memCmd_frame
    | with_reducible apply finish_frame | with_reducible apply dramAsk_frame | with_reducible apply dataOut_frame
    | with_reducible apply Frame.next | with_reducible apply Frame.ite | split | exact Eq.refl _)

/-- May change regs, inflight, slices, hd, parks, hdQueue, ats, slice-local memory. -/
theorem execMemoryWrite_frame (h : Hdr) (nsid offset : Nat) (data : List (BitVec 8)) (s : State) (hr0 : Frame F0 r0 s) (m0 :
    0x20000000f20204 ||| F0 = F0) :
    FrameOut F0 r0 (execMemoryWrite h nsid offset data s) := by
  refine FrameOut.comp hr0 ?_ m0
  unfold execMemoryWrite
  repeat' (first
    | with_reducible exact Frame.refl _ _ | (intro _) | with_reducible assumption | with_reducible apply memCmd_frame
    | with_reducible apply finish_frame | with_reducible apply dramAsk_frame | with_reducible apply memStore_frame
    | with_reducible apply dataIn_frame | with_reducible apply Frame.next | with_reducible apply Frame.ite | split
    | exact Eq.refl _)

/-- May change regs, inflight, slices. -/
theorem copySense_frame (s : State) (h : Hdr) (src : CopyFrom) (hr0 : Frame F0 r0 s) (m0 : 0x20204 ||| F0 = F0) :
    Frame F0 r0 (State.copySense s h src) := by
  refine Frame.comp hr0 ?_ m0
  unfold State.copySense
  repeat' (first | with_reducible exact Frame.refl _ _ | with_reducible apply countRange_frame | split | exact Eq.refl _)

/-- May change regs, inflight, slices, slice-local memory. -/
theorem execMemoryCopy_frame (h : Hdr) (nsid dest : Nat) (src : CopyFrom) (s : State) (hr0 : Frame F0 r0 s) (m0 :
    0x20000000020204 ||| F0 = F0) :
    FrameOut F0 r0 (execMemoryCopy h nsid dest src s) := by
  refine FrameOut.comp hr0 ?_ m0
  unfold execMemoryCopy
  repeat' (first
    | with_reducible exact Frame.refl _ _ | (intro _) | with_reducible assumption | with_reducible apply memCmd_frame
    | with_reducible apply finish_frame | with_reducible apply copySense_frame | with_reducible apply dramAsk_frame
    | with_reducible apply memStore_frame | with_reducible apply Frame.next | with_reducible apply Frame.ite | split
    | exact Eq.refl _)

/-! ### Spdm -/

/-- May change spdmOut. -/
theorem spdmSay_frame (s : State) (t : Transport) (code : Nat) (body : Data) (hr0 : Frame F0 r0 s) (m0 : 0x400000000 ||| F0 =
    F0) :
    Frame F0 r0 (State.spdmSay s t code body) := by
  refine Frame.comp hr0 ?_ m0
  unfold State.spdmSay
  repeat' (first | with_reducible exact Frame.refl _ _ | exact Eq.refl _ | with_reducible apply upd_spdmOut)

/-- May change spdmOut. -/
theorem spdmError_frame (s : State) (t : Transport) (error : Nat) (hr0 : Frame F0 r0 s) (m0 : 0x400000000 ||| F0 = F0) :
    Frame F0 r0 (State.spdmError s t error) := by
  refine Frame.comp hr0 ?_ m0
  unfold State.spdmError
  repeat' (first | with_reducible exact Frame.refl _ _ | exact Eq.refl _ | with_reducible apply upd_spdmOut)

/-- May change spdmPeers. -/
theorem setSpdmStage_frame (s : State) (t : Transport) (k : Nat) (hr0 : Frame F0 r0 s) (m0 : 0x100000000 ||| F0 = F0) :
    Frame F0 r0 (State.setSpdmStage s t k) := by
  refine Frame.comp hr0 ?_ m0
  unfold State.setSpdmStage
  repeat' (first | with_reducible exact Frame.refl _ _ | exact Eq.refl _ | with_reducible apply upd_spdmPeers)

/-- May change migs. -/
theorem spdmMig_frame (s : State) (session : Nat) (f : MigSession → State → State) (hr0 : Frame F0 r0 s) (m0 : 0x8000 ||| F0 =
    F0) (h_f : ∀ a0 t, Frame F0 r0 t → Frame F0 r0 (f a0 t)) :
    Frame F0 r0 (State.spdmMig s session f) := by
  unfold State.spdmMig
  dsimp only
  repeat' (first
    | with_reducible exact hr0 | with_reducible apply h_f | (intro _) | with_reducible assumption
    | with_reducible apply putMig_frame | with_reducible apply Frame.ite | split | exact mask_or ‹_› rfl)

/-- May change migs. -/
theorem migSay_frame (s : State) (g : MigSession) (code : Nat) (hr0 : Frame F0 r0 s) (m0 : 0x8000 ||| F0 = F0) :
    Frame F0 r0 (State.migSay s g code) := by
  refine Frame.comp hr0 ?_ m0
  unfold State.migSay
  repeat' (first | with_reducible exact Frame.refl _ _ | with_reducible apply putMig_frame | exact Eq.refl _)

/-- May change regs, migs, spdmOut, nvm, fresh. -/
theorem spdm_frame (s : State) (t : Transport) (need : Nat) (m : SpdmMsg) (f : State → State) (hr0 : Frame F0 r0 s) (m0 :
    0x8020400008004 ||| F0 = F0) (h_f : ∀ t, Frame F0 r0 t → Frame F0 r0 (f t)) :
    Frame F0 r0 (State.spdm s t need m f) := by
  unfold State.spdm
  repeat' (first
    | with_reducible exact hr0 | with_reducible apply h_f | (intro _) | with_reducible assumption
    | with_reducible apply spdmMig_frame | with_reducible apply migServe_frame | with_reducible apply spdmError_frame
    | with_reducible apply Frame.ite | split | exact mask_or ‹_› rfl)

/-- May change spdmOut. -/
theorem execDoeDiscovery_frame (port index : Nat) (s : State) (hr0 : Frame F0 r0 s) (m0 : 0x400000000 ||| F0 = F0) :
    FrameOut F0 r0 (execDoeDiscovery port index s) := by
  refine FrameOut.comp hr0 ?_ m0
  unfold execDoeDiscovery
  dsimp only
  repeat' (first
    | with_reducible exact Frame.refl _ _ | with_reducible apply spdmSay_frame | with_reducible apply Frame.next
    | with_reducible apply Frame.ite | split | exact Eq.refl _)

/-- May change regs, migs, spdmPeers, spdmOut, nvm, fresh. -/
theorem execGetVersion_frame (t : Transport) (s : State) (hr0 : Frame F0 r0 s) (m0 : 0x8020500008004 ||| F0 = F0) :
    FrameOut F0 r0 (execGetVersion t s) := by
  refine FrameOut.comp hr0 ?_ m0
  unfold execGetVersion
  repeat' (first
    | with_reducible exact Frame.refl _ _ | (intro _) | with_reducible assumption | with_reducible apply spdm_frame
    | with_reducible apply spdmSay_frame | with_reducible apply setSpdmStage_frame | with_reducible apply Frame.next
    | exact Eq.refl _)

/-- May change regs, migs, spdmPeers, spdmOut, nvm, fresh. -/
theorem execGetCapabilities_frame (t : Transport) (_flags : Nat) (s : State) (hr0 : Frame F0 r0 s) (m0 : 0x8020500008004 ||| F0
    = F0) :
    FrameOut F0 r0 (execGetCapabilities t _flags s) := by
  refine FrameOut.comp hr0 ?_ m0
  unfold execGetCapabilities
  repeat' (first
    | with_reducible exact Frame.refl _ _ | (intro _) | with_reducible assumption | with_reducible apply spdm_frame
    | with_reducible apply spdmSay_frame | with_reducible apply setSpdmStage_frame | with_reducible apply Frame.next
    | exact Eq.refl _)

/-- May change regs, migs, spdmPeers, spdmOut, nvm, fresh. -/
theorem execNegotiateAlgorithms_frame (t : Transport) (offer : AlgOffer) (s : State) (hr0 : Frame F0 r0 s) (m0 : 0x8020500008004
    ||| F0 = F0) :
    FrameOut F0 r0 (execNegotiateAlgorithms t offer s) := by
  refine FrameOut.comp hr0 ?_ m0
  unfold execNegotiateAlgorithms
  repeat' (first
    | with_reducible exact Frame.refl _ _ | (intro _) | with_reducible assumption | with_reducible apply spdm_frame
    | with_reducible apply spdmSay_frame | with_reducible apply setSpdmStage_frame | with_reducible apply spdmError_frame
    | with_reducible apply Frame.next | with_reducible apply Frame.ite | split | exact Eq.refl _)

/-- May change regs, migs, spdmOut, nvm, fresh. -/
theorem execGetDigests_frame (t : Transport) (s : State) (hr0 : Frame F0 r0 s) (m0 : 0x8020400008004 ||| F0 = F0) :
    FrameOut F0 r0 (execGetDigests t s) := by
  refine FrameOut.comp hr0 ?_ m0
  unfold execGetDigests
  repeat' (first
    | with_reducible exact Frame.refl _ _ | (intro _) | with_reducible assumption | with_reducible apply spdm_frame
    | with_reducible apply spdmSay_frame | with_reducible apply Frame.next | exact Eq.refl _)

/-- May change regs, migs, spdmOut, nvm, fresh. -/
theorem execGetCertificate_frame (t : Transport) (slot offset length : Nat) (s : State) (hr0 : Frame F0 r0 s) (m0 :
    0x8020400008004 ||| F0 = F0) :
    FrameOut F0 r0 (execGetCertificate t slot offset length s) := by
  refine FrameOut.comp hr0 ?_ m0
  unfold execGetCertificate
  repeat' (first
    | with_reducible exact Frame.refl _ _ | (intro _) | with_reducible assumption | with_reducible apply spdm_frame
    | with_reducible apply spdmError_frame | with_reducible apply spdmSay_frame | with_reducible apply Frame.next
    | with_reducible apply Frame.ite | split | exact Eq.refl _)

/-- May change regs, migs, spdmOut, nvm, fresh. -/
theorem execChallenge_frame (t : Transport) (slot : Nat) (nonce : BitVec 256) (s : State) (hr0 : Frame F0 r0 s) (m0 :
    0x8020400008004 ||| F0 = F0) :
    FrameOut F0 r0 (execChallenge t slot nonce s) := by
  refine FrameOut.comp hr0 ?_ m0
  unfold execChallenge
  dsimp only
  repeat' (first
    | with_reducible exact Frame.refl _ _ | (intro _) | with_reducible assumption | with_reducible apply spdm_frame
    | with_reducible apply spdmError_frame | with_reducible apply random_frame | with_reducible apply spdmSay_frame
    | with_reducible apply Frame.next | with_reducible apply Frame.ite | split | exact Eq.refl _)

/-- May change regs, migs, spdmOut, nvm, fresh. -/
theorem execGetMeasurements_frame (t : Transport) (index : Nat) (signed : Bool) (nonce : BitVec 256) (s : State) (hr0 : Frame F0
    r0 s) (m0 : 0x8020400008004 ||| F0 = F0) :
    FrameOut F0 r0 (execGetMeasurements t index signed nonce s) := by
  refine FrameOut.comp hr0 ?_ m0
  unfold execGetMeasurements
  dsimp only
  repeat' (first
    | with_reducible exact Frame.refl _ _ | (intro _) | with_reducible assumption | with_reducible apply spdmMig_frame
    | with_reducible apply migSay_frame | with_reducible apply spdm_frame | with_reducible apply spdmError_frame
    | with_reducible apply random_frame | with_reducible apply spdmSay_frame | with_reducible apply Frame.next
    | with_reducible apply Frame.ite | split | exact Eq.refl _)

/-- May change regs, spdmSessions, nvm. -/
theorem endSession_frame (s : State) (n : Nat) (hr0 : Frame F0 r0 s) (m0 : 0x20200000004 ||| F0 = F0) :
    Frame F0 r0 (State.endSession s n) := by
  refine Frame.comp hr0 ?_ m0
  unfold State.endSession
  repeat' (first
    | with_reducible exact Frame.refl _ _ | with_reducible apply dropSessionKeys_frame | exact Eq.refl _
    | with_reducible apply upd_spdmSessions)

/-- May change regs, migs, spdmSessions, spdmOut, nvm, fresh. -/
theorem execKeyExchange_frame (t : Transport) (peer : BitVec 768) (s : State) (hr0 : Frame F0 r0 s) (m0 : 0x8020600008004 ||| F0
    = F0) :
    FrameOut F0 r0 (execKeyExchange t peer s) := by
  refine FrameOut.comp hr0 ?_ m0
  unfold execKeyExchange
  dsimp only
  repeat' (first
    | with_reducible exact Frame.refl _ _ | (intro _) | with_reducible assumption | with_reducible apply spdm_frame
    | with_reducible apply spdmError_frame | with_reducible apply random_frame | with_reducible apply spdmSay_frame
    | with_reducible apply sessionKeys_frame | with_reducible apply Frame.next | with_reducible apply Frame.ite | split
    | exact Eq.refl _ | with_reducible apply upd_spdmSessions)

/-- May change regs, migs, spdmSessions, spdmOut, nvm, fresh. -/
theorem execFinish_frame (t : Transport) (session : Nat) (macOk : Bool) (s : State) (hr0 : Frame F0 r0 s) (m0 : 0x8020600008004
    ||| F0 = F0) :
    FrameOut F0 r0 (execFinish t session macOk s) := by
  refine FrameOut.comp hr0 ?_ m0
  unfold execFinish
  repeat' (first
    | with_reducible exact Frame.refl _ _ | (intro _) | with_reducible assumption | with_reducible apply spdmMig_frame
    | with_reducible apply sessionKeys_frame | with_reducible apply migSay_frame | with_reducible apply spdm_frame
    | with_reducible apply spdmError_frame | with_reducible apply endSession_frame | with_reducible apply spdmSay_frame
    | with_reducible apply Frame.next | with_reducible apply Frame.ite | split | exact Eq.refl _
    | with_reducible apply upd_spdmSessions)

/-- May change migs, spdmOut. -/
theorem inSession_frame (s : State) (t : Transport) (session code : Nat) (f : SpdmSession → State → State) (hr0 : Frame F0 r0 s)
    (m0 : 0x400008000 ||| F0 = F0) (h_f : ∀ a0 t, Frame F0 r0 t → Frame F0 r0 (f a0 t)) :
    Frame F0 r0 (State.inSession s t session code f) := by
  unfold State.inSession
  repeat' (first
    | with_reducible exact hr0 | with_reducible apply h_f | (intro _) | with_reducible assumption
    | with_reducible apply spdmMig_frame | with_reducible apply migSay_frame | with_reducible apply spdmError_frame
    | with_reducible apply Frame.ite | split | exact mask_or ‹_› rfl)

/-- May change migs, spdmOut. -/
theorem execHeartbeat_frame (t : Transport) (session : Nat) (s : State) (hr0 : Frame F0 r0 s) (m0 : 0x400008000 ||| F0 = F0) :
    FrameOut F0 r0 (execHeartbeat t session s) := by
  refine FrameOut.comp hr0 ?_ m0
  unfold execHeartbeat
  repeat' (first
    | with_reducible exact Frame.refl _ _ | (intro _) | with_reducible assumption | with_reducible apply inSession_frame
    | with_reducible apply spdmSay_frame | with_reducible apply Frame.next | exact Eq.refl _)

/-- May change migs, spdmSessions, spdmOut. -/
theorem execKeyUpdate_frame (t : Transport) (session op : Nat) (s : State) (hr0 : Frame F0 r0 s) (m0 : 0x600008000 ||| F0 = F0)
    :
    FrameOut F0 r0 (execKeyUpdate t session op s) := by
  refine FrameOut.comp hr0 ?_ m0
  unfold execKeyUpdate
  dsimp only
  repeat' (first
    | with_reducible exact Frame.refl _ _ | (intro _) | with_reducible assumption | with_reducible apply inSession_frame
    | with_reducible apply spdmError_frame | with_reducible apply spdmSay_frame | with_reducible apply Frame.next
    | with_reducible apply Frame.ite | split | exact Eq.refl _ | with_reducible apply upd_spdmSessions)

/-- May change regs, migs, spdmSessions, spdmOut, nvm. -/
theorem execEndSession_frame (t : Transport) (session : Nat) (s : State) (hr0 : Frame F0 r0 s) (m0 : 0x20600008004 ||| F0 = F0)
    :
    FrameOut F0 r0 (execEndSession t session s) := by
  refine FrameOut.comp hr0 ?_ m0
  unfold execEndSession
  repeat' (first
    | with_reducible exact Frame.refl _ _ | (intro _) | with_reducible assumption | with_reducible apply endMig_frame
    | with_reducible apply inSession_frame | with_reducible apply spdmSay_frame | with_reducible apply endSession_frame
    | with_reducible apply Frame.next | with_reducible apply Frame.ite | split | exact Eq.refl _)

/-- May change migs, spdmOut. -/
theorem execGetEncapsulatedRequest_frame (t : Transport) (session : Nat) (s : State) (hr0 : Frame F0 r0 s) (m0 : 0x400008000 |||
    F0 = F0) :
    FrameOut F0 r0 (execGetEncapsulatedRequest t session s) := by
  refine FrameOut.comp hr0 ?_ m0
  unfold execGetEncapsulatedRequest
  repeat' (first
    | with_reducible exact Frame.refl _ _ | (intro _) | with_reducible assumption | with_reducible apply spdmMig_frame
    | with_reducible apply migSay_frame | with_reducible apply spdmError_frame | with_reducible apply Frame.next
    | with_reducible apply Frame.ite | split | exact Eq.refl _)

/-- May change migs, spdmOut. -/
theorem execDeliverEncapsulatedResponse_frame (t : Transport) (session : Nat) (peer : PeerChain) (s : State) (hr0 : Frame F0 r0
    s) (m0 : 0x400008000 ||| F0 = F0) :
    FrameOut F0 r0 (execDeliverEncapsulatedResponse t session peer s) := by
  refine FrameOut.comp hr0 ?_ m0
  unfold execDeliverEncapsulatedResponse
  repeat' (first
    | with_reducible exact Frame.refl _ _ | (intro _) | with_reducible assumption | with_reducible apply spdmMig_frame
    | with_reducible apply migSay_frame | with_reducible apply spdmError_frame | with_reducible apply Frame.next
    | with_reducible apply Frame.ite | split | exact Eq.refl _)

/-- May change migs, spdmOut. -/
theorem execSpdmUnsupportedRequest_frame (t : Transport) (code : Nat) (s : State) (hr0 : Frame F0 r0 s) (m0 : 0x400008000 ||| F0
    = F0) :
    FrameOut F0 r0 (execSpdmUnsupportedRequest t code s) := by
  refine FrameOut.comp hr0 ?_ m0
  unfold execSpdmUnsupportedRequest
  repeat' (first
    | with_reducible exact Frame.refl _ _ | (intro _) | with_reducible assumption | with_reducible apply spdmMig_frame
    | with_reducible apply migSay_frame | with_reducible apply spdmError_frame | with_reducible apply Frame.next
    | with_reducible apply Frame.ite | split | exact Eq.refl _)

/-! ### Media -/

/-- May change regs. -/
theorem putTarget_frame (s : State) (n t st luns : Nat) (hr0 : Frame F0 r0 s) (m0 : 0x4 ||| F0 = F0) :
    Frame F0 r0 (State.putTarget s n t st luns) := by
  refine Frame.comp hr0 ?_ m0
  unfold State.putTarget
  dsimp only
  repeat' (first
    | with_reducible exact Frame.refl _ _ | (intro _) | with_reducible assumption | with_reducible apply putF_frame
    | with_reducible apply Frame.ite | with_reducible apply Frame.foldl | split | exact Eq.refl _)

/-- May change regs. -/
theorem evalFl_frame (s : State) (n : Nat) (hr0 : Frame F0 r0 s) (m0 : 0x4 ||| F0 = F0) :
    Frame F0 r0 (State.evalFl s n) := by
  refine Frame.comp hr0 ?_ m0
  unfold State.evalFl
  dsimp only
  repeat' (first
    | with_reducible exact Frame.refl _ _ | with_reducible apply putF_frame | with_reducible apply Frame.ite | split
    | exact Eq.refl _)

/-- May change regs. -/
theorem putGeom_frame (s : State) (n : Nat) (hr0 : Frame F0 r0 s) (m0 : 0x4 ||| F0 = F0) :
    Frame F0 r0 (State.putGeom s n) := by
  refine Frame.comp hr0 ?_ m0
  unfold State.putGeom
  repeat' (first | with_reducible exact Frame.refl _ _ | with_reducible apply wr_frame | split | exact Eq.refl _)

/-- May change regs. -/
theorem seedRated_frame (s : State) (n : Nat) (hr0 : Frame F0 r0 s) (m0 : 0x4 ||| F0 = F0) :
    Frame F0 r0 (State.seedRated s n) := by
  refine Frame.comp hr0 ?_ m0
  unfold State.seedRated
  dsimp only
  repeat' (first
    | with_reducible exact Frame.refl _ _ | with_reducible apply putF_frame | with_reducible apply Frame.ite | split
    | exact Eq.refl _)

/-- May change regs, fenceSoon. -/
theorem channelFault_frame (s : State) (n j : Nat) (hr0 : Frame F0 r0 s) (m0 : 0x800000000004 ||| F0 = F0) :
    Frame F0 r0 (State.channelFault s n j) := by
  refine Frame.comp hr0 ?_ m0
  unfold State.channelFault
  dsimp only
  repeat' (first
    | with_reducible exact Frame.refl _ _ | with_reducible apply setBit_frame | with_reducible apply putF_frame
    | with_reducible apply report_frame | with_reducible apply evalFl_frame | exact Eq.refl _)

/-- May change regs, slices. -/
theorem foundVolume_frame (s : State) (n ch v : Nat) (id : VolumeId) (hr0 : Frame F0 r0 s) (m0 : 0x20004 ||| F0 = F0) :
    Frame F0 r0 (State.foundVolume s n ch v id) := by
  refine Frame.comp hr0 ?_ m0
  unfold State.foundVolume
  dsimp only
  repeat' (first
    | with_reducible exact Frame.refl _ _ | (intro _) | with_reducible assumption | with_reducible apply modSlice_frame
    | with_reducible apply putTarget_frame | with_reducible apply setBit_frame | with_reducible apply Frame.ite
    | with_reducible apply Frame.foldl | exact SlmSame.of fun _ => rfl | split | exact Eq.refl _)

/-- May change regs, slices. -/
theorem settleTargets_frame (s : State) (n : Nat) (hr0 : Frame F0 r0 s) (m0 : 0x20004 ||| F0 = F0) :
    Frame F0 r0 (State.settleTargets s n) := by
  refine Frame.comp hr0 ?_ m0
  unfold State.settleTargets
  dsimp only
  repeat' (first
    | with_reducible exact Frame.refl _ _ | (intro _) | with_reducible assumption | with_reducible apply modSlice_frame
    | with_reducible apply foundVolume_frame | with_reducible apply putF_frame | with_reducible apply evalFl_frame
    | with_reducible apply seedRated_frame | with_reducible apply putGeom_frame | with_reducible apply Frame.foldl
    | exact SlmSame.of fun _ => rfl | exact Eq.refl _)

/-- May change pins, regs, slices, fenceSoon. -/
theorem execChannelDiscovery_frame (slice ch : Nat) (vols : List VolumeId) (trainFails : Nat) (s : State) (hr0 : Frame F0 r0 s)
    (m0 : 0x800000020006 ||| F0 = F0) :
    FrameOut F0 r0 (execChannelDiscovery slice ch vols trainFails s) := by
  refine FrameOut.comp hr0 ?_ m0
  unfold execChannelDiscovery
  dsimp only
  repeat' (first
    | with_reducible exact Frame.refl _ _ | with_reducible apply modSlice_frame | with_reducible apply putF_frame
    | with_reducible apply channelFault_frame | with_reducible apply settleTargets_frame | with_reducible apply Frame.next
    | with_reducible apply Frame.ite | exact SlmSame.of fun _ => rfl | split | exact Eq.refl _ | with_reducible apply upd_pins)

/-- May change regs, slices, fenceSoon. -/
theorem execFlashRetrain_frame (slice ch : Nat) (ok : Bool) (s : State) (hr0 : Frame F0 r0 s) (m0 : 0x800000020004 ||| F0 = F0)
    :
    FrameOut F0 r0 (execFlashRetrain slice ch ok s) := by
  refine FrameOut.comp hr0 ?_ m0
  unfold execFlashRetrain
  dsimp only
  repeat' (first
    | with_reducible exact Frame.refl _ _ | with_reducible apply modSlice_frame | with_reducible apply channelFault_frame
    | with_reducible apply addF_frame | with_reducible apply Frame.next | with_reducible apply Frame.ite
    | exact SlmSame.of fun _ => rfl | split | exact Eq.refl _)

/-- May change nothing. -/
theorem execFlashZqShortDue_frame (_slice : Nat) (s : State) (hr0 : Frame F0 r0 s) (m0 : 0x0 ||| F0 = F0) :
    FrameOut F0 r0 (execFlashZqShortDue _slice s) := by
  refine FrameOut.comp hr0 ?_ m0
  unfold execFlashZqShortDue
  repeat' (first | with_reducible exact Frame.refl _ _ | with_reducible apply Frame.next | exact Eq.refl _)

/-- May change slices. -/
theorem execStreamAgeTrigger_frame (slice wslot : Nat) (s : State) (hr0 : Frame F0 r0 s) (m0 : 0x20000 ||| F0 = F0) :
    FrameOut F0 r0 (execStreamAgeTrigger slice wslot s) := by
  refine FrameOut.comp hr0 ?_ m0
  unfold execStreamAgeTrigger
  repeat' (first
    | with_reducible exact Frame.refl _ _ | with_reducible apply modSlice_frame | with_reducible apply Frame.next
    | with_reducible apply Frame.ite | exact SlmSame.of fun _ => rfl | split | exact Eq.refl _)

/-- May change slices. -/
theorem execFlashPageAgeTimeout_frame (slice sb : Nat) (s : State) (hr0 : Frame F0 r0 s) (m0 : 0x20000 ||| F0 = F0) :
    FrameOut F0 r0 (execFlashPageAgeTimeout slice sb s) := by
  refine FrameOut.comp hr0 ?_ m0
  unfold execFlashPageAgeTimeout
  repeat' (first
    | with_reducible exact Frame.refl _ _ | with_reducible apply groutPage_frame | with_reducible apply Frame.next
    | with_reducible apply Frame.ite | split | exact Eq.refl _)

/-- May change slices. -/
theorem dropWork1_frame (s : State) (n id : Nat) (hr0 : Frame F0 r0 s) (m0 : 0x20000 ||| F0 = F0) :
    Frame F0 r0 (State.dropWork1 s n id) := by
  refine Frame.comp hr0 ?_ m0
  unfold State.dropWork1
  repeat' (first
    | with_reducible exact Frame.refl _ _ | with_reducible apply modSlice_frame | exact SlmSame.of fun _ => rfl
    | exact Eq.refl _)

/-- May change inflight, slices. -/
theorem execProgramConfirmed_frame (slice lun : Nat) (s : State) (hr0 : Frame F0 r0 s) (m0 : 0x20200 ||| F0 = F0) :
    FrameOut F0 r0 (execProgramConfirmed slice lun s) := by
  refine FrameOut.comp hr0 ?_ m0
  unfold execProgramConfirmed
  dsimp only
  repeat' (first
    | with_reducible exact Frame.refl _ _ | with_reducible apply dropWork1_frame | with_reducible apply pageDone_frame
    | with_reducible apply Frame.next | with_reducible apply Frame.ite | split | exact Eq.refl _)

/-- May change regs, slices. -/
theorem failParity_frame (s : State) (n lun b : Nat) (hr0 : Frame F0 r0 s) (m0 : 0x20004 ||| F0 = F0) :
    Frame F0 r0 (State.failParity s n lun b) := by
  refine Frame.comp hr0 ?_ m0
  unfold State.failParity
  dsimp only
  repeat' (first
    | with_reducible exact Frame.refl _ _ | (intro _) | with_reducible assumption | with_reducible apply modSlice_frame
    | with_reducible apply markBlock_frame | with_reducible apply parityDue_frame | with_reducible apply Frame.foldl
    | exact SlmSame.of fun _ => rfl | split | exact Eq.refl _)

/-- May change regs, ctrls, inflight, slices, nvm. -/
theorem execProgramFailed_frame (slice lun block row : Nat) (s : State) (hr0 : Frame F0 r0 s) (m0 : 0x20000020304 ||| F0 = F0) :
    FrameOut F0 r0 (execProgramFailed slice lun block row s) := by
  refine FrameOut.comp hr0 ?_ m0
  unfold execProgramFailed
  dsimp only
  repeat' (first
    | with_reducible exact Frame.refl _ _ | with_reducible apply dropWork1_frame | with_reducible apply failBlock_frame
    | with_reducible apply failParity_frame | with_reducible apply modSlice_frame | with_reducible apply parityDue_frame
    | with_reducible apply markBlock_frame | with_reducible apply countFailure_frame | with_reducible apply Frame.next
    | with_reducible apply Frame.ite | exact SlmSame.of fun _ => rfl
    | (refine SlmSame.of fun x => ?_; simp [apply_ite Slice.slm]; done)
    | (refine SlmSame.of fun x => ?_; (try dsimp only); apply slm_foldl; intro _ _; simp; done)
    | (refine SlmSame.of fun x => ?_; (repeat' (first | rfl | (simp [apply_ite Slice.slm]; done) | split)); done) | split
    | exact Eq.refl _)

/-- May change regs, slices. -/
theorem replaceBlock_frame (s : State) (n seq lun b : Nat) (m : CellMode) (rate : Nat) (hr0 : Frame F0 r0 s) (m0 : 0x20004 |||
    F0 = F0) :
    Frame F0 r0 (State.replaceBlock s n seq lun b m rate) := by
  refine Frame.comp hr0 ?_ m0
  unfold State.replaceBlock
  dsimp only
  repeat' (first
    | with_reducible exact Frame.refl _ _ | with_reducible apply queueErase_frame | with_reducible apply modSlice_frame
    | with_reducible apply freeSuper_frame | with_reducible apply Frame.ite | exact SlmSame.of fun _ => rfl | split
    | exact Eq.refl _)

/-- May change regs, ctrls, inflight, slices, nvm. -/
theorem execEraseFailed_frame (slice lun block : Nat) (s : State) (hr0 : Frame F0 r0 s) (m0 : 0x20000020304 ||| F0 = F0) :
    FrameOut F0 r0 (execEraseFailed slice lun block s) := by
  refine FrameOut.comp hr0 ?_ m0
  unfold execEraseFailed
  dsimp only
  repeat' (first
    | with_reducible exact Frame.refl _ _ | with_reducible apply retireBlock_frame | with_reducible apply dropWork1_frame
    | with_reducible apply replaceBlock_frame | with_reducible apply sizeReserve_frame | with_reducible apply modSlice_frame
    | with_reducible apply countFailure_frame | with_reducible apply Frame.next | with_reducible apply Frame.ite
    | exact SlmSame.of fun _ => rfl | (refine SlmSame.of fun x => ?_; simp [apply_ite Slice.slm]; done)
    | (refine SlmSame.of fun x => ?_; (try dsimp only); apply slm_foldl; intro _ _; simp; done)
    | (refine SlmSame.of fun x => ?_; (repeat' (first | rfl | (simp [apply_ite Slice.slm]; done) | split)); done) | split
    | exact Eq.refl _)

/-- May change regs, ctrls, inflight, slices, nvm. -/
theorem countUncorr_frame (s : State) (n : Nat) (p : ReadPass) (hr0 : Frame F0 r0 s) (m0 : 0x20000020304 ||| F0 = F0) :
    Frame F0 r0 (State.countUncorr s n p) := by
  refine Frame.comp hr0 ?_ m0
  unfold State.countUncorr
  dsimp only
  repeat' (first
    | with_reducible exact Frame.refl _ _ | with_reducible apply modSlice_frame | with_reducible apply setBit_frame
    | with_reducible apply lunFailed_frame | with_reducible apply Frame.ite | exact SlmSame.of fun _ => rfl | split
    | exact Eq.refl _)

/-- May change slices. -/
theorem keepLevel_frame (s : State) (n : Nat) (p : ReadPass) (hr0 : Frame F0 r0 s) (m0 : 0x20000 ||| F0 = F0) :
    Frame F0 r0 (State.keepLevel s n p) := by
  refine Frame.comp hr0 ?_ m0
  unfold State.keepLevel
  repeat' (first
    | with_reducible exact Frame.refl _ _ | with_reducible apply modSlice_frame | with_reducible apply Frame.ite
    | exact SlmSame.of fun _ => rfl | split | exact Eq.refl _)

/-- May change ctrls, inflight, slices, nvm. -/
theorem spoilUnits_frame (s : State) (n : Nat) (p : ReadPass) (hr0 : Frame F0 r0 s) (m0 : 0x20000020300 ||| F0 = F0) :
    Frame F0 r0 (State.spoilUnits s n p) := by
  refine Frame.comp hr0 ?_ m0
  unfold State.spoilUnits
  dsimp only
  repeat' (first
    | with_reducible exact Frame.refl _ _ | with_reducible apply modSlice_frame | with_reducible apply losePage_frame
    | with_reducible apply Frame.ite | exact SlmSame.of fun _ => rfl | split | exact Eq.refl _)

/-- May change regs, ctrls, inflight, slices, nvm. -/
theorem verifyPass_frame (s : State) (n seq : Nat) (p : ReadPass) (hr0 : Frame F0 r0 s) (m0 : 0x20000020304 ||| F0 = F0) :
    Frame F0 r0 (State.verifyPass s n seq p) := by
  refine Frame.comp hr0 ?_ m0
  unfold State.verifyPass
  dsimp only
  repeat' (first
    | with_reducible exact Frame.refl _ _ | with_reducible apply modSlice_frame | with_reducible apply setBit_frame
    | with_reducible apply losePage_frame | with_reducible apply markBlock_frame | with_reducible apply verified_frame
    | with_reducible apply Frame.ite | exact SlmSame.of fun _ => rfl | split | exact Eq.refl _)

/-- May change recorder. -/
theorem recordPass_frame (s : State) (p : ReadPass) (hr0 : Frame F0 r0 s) (m0 : 0x100000000000 ||| F0 = F0) :
    Frame F0 r0 (State.recordPass s p) := by
  refine Frame.comp hr0 ?_ m0
  unfold State.recordPass
  repeat' (first
    | with_reducible exact Frame.refl _ _ | with_reducible apply recordBin_frame | with_reducible apply Frame.ite | split
    | exact Eq.refl _)

/-- May change regs, ctrls, inflight, slices, nvm, recorder, fresh. -/
theorem execReadPassDone_frame (slice cluster wslot index : Nat) (pass : ReadPass) (s : State) (hr0 : Frame F0 r0 s) (m0 :
    0x8120000020304 ||| F0 = F0) :
    FrameOut F0 r0 (execReadPassDone slice cluster wslot index pass s) := by
  refine FrameOut.comp hr0 ?_ m0
  unfold execReadPassDone
  dsimp only
  repeat' (first
    | with_reducible exact Frame.refl _ _ | with_reducible apply recordPass_frame | with_reducible apply inc_frame
    | with_reducible apply setBit_frame | with_reducible apply countUncorr_frame | with_reducible apply keepLevel_frame
    | with_reducible apply verifyPass_frame | with_reducible apply spoilUnits_frame | with_reducible apply free_frame
    | with_reducible apply deliver_frame | with_reducible apply Frame.next | with_reducible apply Frame.ite | split
    | exact Eq.refl _)

/-- May change slices. -/
theorem execPatrolDue_frame (slice sb : Nat) (weak : List (Nat × Nat)) (s : State) (hr0 : Frame F0 r0 s) (m0 : 0x20000 ||| F0 =
    F0) :
    FrameOut F0 r0 (execPatrolDue slice sb weak s) := by
  refine FrameOut.comp hr0 ?_ m0
  unfold execPatrolDue
  dsimp only
  repeat' (first
    | with_reducible exact Frame.refl _ _ | (intro _) | with_reducible assumption | with_reducible apply queueRead_frame
    | with_reducible apply countReads_frame | with_reducible apply modSlice_frame | with_reducible apply Frame.next
    | with_reducible apply Frame.ite | with_reducible apply Frame.foldl | exact SlmSame.of fun _ => rfl | split
    | exact Eq.refl _)

/-- May change regs, slices. -/
theorem evacuate_frame (s : State) (n lun : Nat) (hr0 : Frame F0 r0 s) (m0 : 0x20004 ||| F0 = F0) :
    Frame F0 r0 (State.evacuate s n lun) := by
  refine Frame.comp hr0 ?_ m0
  unfold State.evacuate
  dsimp only
  repeat' (first
    | with_reducible exact Frame.refl _ _ | with_reducible apply putF_frame | with_reducible apply modSlice_frame
    | with_reducible apply Frame.ite | exact SlmSame.of fun _ => rfl | split | exact Eq.refl _)

/-- May change regs, slices. -/
theorem execEvacuationGo_frame (slice lun : Nat) (auto : Bool) (s : State) (hr0 : Frame F0 r0 s) (m0 : 0x20004 ||| F0 = F0) :
    FrameOut F0 r0 (execEvacuationGo slice lun auto s) := by
  refine FrameOut.comp hr0 ?_ m0
  unfold execEvacuationGo
  repeat' (first
    | with_reducible exact Frame.refl _ _ | with_reducible apply evacuate_frame | with_reducible apply putF_frame
    | with_reducible apply Frame.next | with_reducible apply Frame.ite | split | exact Eq.refl _)

/-- May change regs, slices. -/
theorem execEvacuationDone_frame (slice : Nat) (s : State) (hr0 : Frame F0 r0 s) (m0 : 0x20004 ||| F0 = F0) :
    FrameOut F0 r0 (execEvacuationDone slice s) := by
  refine FrameOut.comp hr0 ?_ m0
  unfold execEvacuationDone
  dsimp only
  repeat' (first
    | with_reducible exact Frame.refl _ _ | with_reducible apply modSlice_frame | with_reducible apply putF_frame
    | with_reducible apply evalExposed_frame | with_reducible apply evalSpare_frame | with_reducible apply sizeReserve_frame
    | with_reducible apply Frame.next | with_reducible apply Frame.ite | exact SlmSame.of fun _ => rfl
    | (refine SlmSame.of fun x => ?_; simp [apply_ite Slice.slm]; done)
    | (refine SlmSame.of fun x => ?_; (try dsimp only); apply slm_foldl; intro _ _; simp; done)
    | (refine SlmSame.of fun x => ?_; (repeat' (first | rfl | (simp [apply_ite Slice.slm]; done) | split)); done) | split
    | exact Eq.refl _)

/-- May change regs, slices. -/
theorem execLunHealthEval_frame (slice lun retry2 retry4 : Nat) (s : State) (hr0 : Frame F0 r0 s) (m0 : 0x20004 ||| F0 = F0) :
    FrameOut F0 r0 (execLunHealthEval slice lun retry2 retry4 s) := by
  refine FrameOut.comp hr0 ?_ m0
  unfold execLunHealthEval
  dsimp only
  repeat' (first
    | with_reducible exact Frame.refl _ _ | with_reducible apply modSlice_frame | with_reducible apply evalExposed_frame
    | with_reducible apply setBit_frame | with_reducible apply evacuate_frame | with_reducible apply Frame.next
    | with_reducible apply Frame.ite | exact SlmSame.of fun _ => rfl | split | exact Eq.refl _)

/-- May change regs, ctrls, inflight, slices, nvm. -/
theorem execOperationTimeout_frame (slice lun : Nat) (ready : Bool) (s : State) (hr0 : Frame F0 r0 s) (m0 : 0x20000020304 ||| F0
    = F0) :
    FrameOut F0 r0 (execOperationTimeout slice lun ready s) := by
  refine FrameOut.comp hr0 ?_ m0
  unfold execOperationTimeout
  dsimp only
  repeat' (first
    | with_reducible exact Frame.refl _ _ | with_reducible apply lunFailed_frame | with_reducible apply modSlice_frame
    | with_reducible apply Frame.next | with_reducible apply Frame.ite | exact SlmSame.of fun _ => rfl | split
    | exact Eq.refl _)

/-- May change slices. -/
theorem execLunPollDue_frame (slice lun : Nat) (res : PollRes) (s : State) (hr0 : Frame F0 r0 s) (m0 : 0x20000 ||| F0 = F0) :
    FrameOut F0 r0 (execLunPollDue slice lun res s) := by
  refine FrameOut.comp hr0 ?_ m0
  unfold execLunPollDue
  dsimp only
  repeat' (first
    | with_reducible exact Frame.refl _ _ | with_reducible apply modSlice_frame | with_reducible apply Frame.next
    | with_reducible apply Frame.ite | exact SlmSame.of fun _ => rfl | split | exact Eq.refl _)

/-- May change wearRateMax. -/
theorem execDevWearRateUpdate_frame (s : State) (hr0 : Frame F0 r0 s) (m0 : 0x10000000000 ||| F0 = F0) :
    FrameOut F0 r0 (execDevWearRateUpdate s) := by
  refine FrameOut.comp hr0 ?_ m0
  unfold execDevWearRateUpdate
  repeat' (first
    | with_reducible exact Frame.refl _ _ | with_reducible apply updateWearRate_frame | with_reducible apply Frame.next
    | exact Eq.refl _)

/-- May change regs, slices. -/
theorem startFormat_frame (s : State) (n muReq : Nat) (hr0 : Frame F0 r0 s) (m0 : 0x20004 ||| F0 = F0) :
    Frame F0 r0 (State.startFormat s n muReq) := by
  refine Frame.comp hr0 ?_ m0
  unfold State.startFormat
  dsimp only
  repeat' (first
    | with_reducible exact Frame.refl _ _ | with_reducible apply putF_frame | with_reducible apply modSlice_frame
    | with_reducible apply Frame.ite | exact SlmSame.of fun _ => rfl | split | exact Eq.refl _)

/-- May change regs, slices. -/
theorem execSliceFormat_frame (slice muReq : Nat) (s : State) (hr0 : Frame F0 r0 s) (m0 : 0x20004 ||| F0 = F0) :
    FrameOut F0 r0 (execSliceFormat slice muReq s) := by
  refine FrameOut.comp hr0 ?_ m0
  unfold execSliceFormat
  repeat' (first
    | with_reducible exact Frame.refl _ _ | with_reducible apply startFormat_frame | with_reducible apply Frame.next
    | with_reducible apply Frame.ite | split | exact Eq.refl _)

/-- May change slices. -/
theorem formatStore_frame (s : State) (n : Nat) (d : MediaDesc) (hr0 : Frame F0 r0 s) (m0 : 0x20000 ||| F0 = F0) :
    Frame F0 r0 (State.formatStore s n d) := by
  refine Frame.comp hr0 ?_ m0
  unfold State.formatStore
  dsimp only
  repeat' (first
    | with_reducible exact Frame.refl _ _ | with_reducible apply modSlice_frame | exact SlmSame.of fun _ => rfl
    | exact Eq.refl _)

/-- May change regs, slices. -/
theorem execSliceFormatDone_frame (slice : Nat) (eraseFails : List (Nat × Nat)) (s : State) (hr0 : Frame F0 r0 s) (m0 : 0x20004
    ||| F0 = F0) :
    FrameOut F0 r0 (execSliceFormatDone slice eraseFails s) := by
  refine FrameOut.comp hr0 ?_ m0
  unfold execSliceFormatDone
  dsimp only
  repeat' (first
    | with_reducible exact Frame.refl _ _ | with_reducible apply modSlice_frame | with_reducible apply putF_frame
    | with_reducible apply evalSpare_frame | with_reducible apply formatStore_frame | with_reducible apply sizeReserve_frame
    | with_reducible apply evalExposed_frame | with_reducible apply Frame.next | with_reducible apply Frame.ite
    | exact SlmSame.of fun _ => rfl | (refine SlmSame.of fun x => ?_; simp [apply_ite Slice.slm]; done)
    | (refine SlmSame.of fun x => ?_; (try dsimp only); apply slm_foldl; intro _ _; simp; done)
    | (refine SlmSame.of fun x => ?_; (repeat' (first | rfl | (simp [apply_ite Slice.slm]; done) | split)); done) | split
    | exact Eq.refl _)

/-! ### PowerStates -/

/-- May change regs. -/
theorem setPstate_frame (s : State) (k : Nat) (hr0 : Frame F0 r0 s) (m0 : 0x4 ||| F0 = F0) :
    Frame F0 r0 (State.setPstate s k) := by
  refine Frame.comp hr0 ?_ m0
  unfold State.setPstate
  repeat' (first
    | with_reducible exact Frame.refl _ _ | with_reducible apply setBit_frame | with_reducible apply putF_frame
    | exact Eq.refl _)

/-- May change slices. -/
theorem drainForSleep_frame (s : State) (hr0 : Frame F0 r0 s) (m0 : 0x20000 ||| F0 = F0) :
    Frame F0 r0 (State.drainForSleep s) := by
  refine Frame.comp hr0 ?_ m0
  unfold State.drainForSleep
  repeat' (first
    | with_reducible exact Frame.refl _ _ | with_reducible apply mapSlices_frame | with_reducible apply Frame.ite
    | exact SlmSame.of fun _ => rfl | split | exact Eq.refl _)

/-- May change regs, slices. -/
theorem execPowerStateEntry_frame (s : State) (hr0 : Frame F0 r0 s) (m0 : 0x20004 ||| F0 = F0) :
    FrameOut F0 r0 (execPowerStateEntry s) := by
  refine FrameOut.comp hr0 ?_ m0
  unfold execPowerStateEntry
  dsimp only
  repeat' (first
    | with_reducible exact Frame.refl _ _ | (intro _) | with_reducible assumption | with_reducible apply drainForSleep_frame
    | with_reducible apply drainWrites_frame | with_reducible apply mapSlices_frame | with_reducible apply setPstate_frame
    | with_reducible apply Frame.next | with_reducible apply Frame.ite | with_reducible apply Frame.foldl
    | exact SlmSame.of fun _ => rfl | split | exact Eq.refl _)

/-- May change regs. -/
theorem execPowerStateExit_frame (_why : WakeCause) (s : State) (hr0 : Frame F0 r0 s) (m0 : 0x4 ||| F0 = F0) :
    FrameOut F0 r0 (execPowerStateExit _why s) := by
  refine FrameOut.comp hr0 ?_ m0
  unfold execPowerStateExit
  repeat' (first
    | with_reducible exact Frame.refl _ _ | with_reducible apply setPstate_frame | with_reducible apply Frame.next
    | with_reducible apply Frame.ite | split | exact Eq.refl _)

/-! ### Window -/

/-- May change regs. -/
theorem flagAccess_frame (s : State) (bit a : Nat) (hr0 : Frame F0 r0 s) (m0 : 0x4 ||| F0 = F0) :
    Frame F0 r0 (State.flagAccess s bit a) := by
  refine Frame.comp hr0 ?_ m0
  unfold State.flagAccess
  repeat' (first
    | with_reducible exact Frame.refl _ _ | with_reducible apply wr_frame | with_reducible apply Frame.ite | split
    | exact Eq.refl _)

/-- May change regs. -/
theorem flagged_frame (s : State) (a : Nat) (x : Access) (hr0 : Frame F0 r0 s) (m0 : 0x4 ||| F0 = F0) :
    Frame F0 r0 (State.flagged s a x) := by
  refine Frame.comp hr0 ?_ m0
  unfold State.flagged
  repeat' (first | with_reducible exact Frame.refl _ _ | with_reducible apply flagAccess_frame | split | exact Eq.refl _)

/-- May change fresh. -/
theorem readValue_frame (s : State) (a : Nat) (r : RegRow) (hr0 : Frame F0 r0 s) (m0 : 0x8000000000000 ||| F0 = F0) :
    Frame F0 r0 (State.readValue s a r).1 := by
  refine Frame.comp hr0 ?_ m0
  unfold State.readValue
  dsimp only
  repeat' (first
    | with_reducible exact Frame.refl _ _ | with_reducible apply free_frame | with_reducible apply Frame.ite | split
    | exact Eq.refl _)

/-- May change busRead. -/
theorem answerRead_frame (s : State) (v : Word) (hr0 : Frame F0 r0 s) (m0 : 0x10 ||| F0 = F0) :
    Frame F0 r0 (State.answerRead s v) := by
  refine Frame.comp hr0 ?_ m0
  unfold State.answerRead
  repeat' (first | with_reducible exact Frame.refl _ _ | exact Eq.refl _ | with_reducible apply upd_busRead)

/-- May change regs, latches, busRead, fresh. -/
theorem readReg_frame (s : State) (a : Nat) (hr0 : Frame F0 r0 s) (m0 : 0x800000000001c ||| F0 = F0) :
    Frame F0 r0 (State.readReg s a) := by
  refine Frame.comp hr0 ?_ m0
  unfold State.readReg
  dsimp only
  repeat' (first
    | with_reducible exact Frame.refl _ _ | with_reducible apply readValue_frame | with_reducible apply answerRead_frame
    | with_reducible apply flagged_frame | with_reducible apply Frame.ite | split | exact Eq.refl _
    | with_reducible apply upd_latches)

/-- May change regs. -/
theorem plainWrite_frame (s : State) (a : Nat) (r : RegRow) (v : Word) (hr0 : Frame F0 r0 s) (m0 : 0x4 ||| F0 = F0) :
    Frame F0 r0 (State.plainWrite s a r v) := by
  refine Frame.comp hr0 ?_ m0
  unfold State.plainWrite
  repeat' (first | with_reducible exact Frame.refl _ _ | with_reducible apply wr_frame | exact Eq.refl _)

/-- May change regs, course. -/
theorem writeCk_frame (s : State) (a off : Nat) (r : RegRow) (v : Word) (hr0 : Frame F0 r0 s) (m0 : 0x24 ||| F0 = F0) :
    Frame F0 r0 (State.writeCk s a off r v) := by
  refine Frame.comp hr0 ?_ m0
  unfold State.writeCk
  dsimp only
  repeat' (first
    | with_reducible exact Frame.refl _ _ | with_reducible apply setBit_frame | with_reducible apply requestCommit_frame
    | with_reducible apply modCourse_frame | with_reducible apply plainWrite_frame | with_reducible apply Frame.ite | split
    | exact Eq.refl _)

/-- May change regs. -/
theorem cfgIgnored_frame (s : State) (n : Nat) (hr0 : Frame F0 r0 s) (m0 : 0x4 ||| F0 = F0) :
    Frame F0 r0 (State.cfgIgnored s n) := by
  refine Frame.comp hr0 ?_ m0
  unfold State.cfgIgnored
  repeat' (first | with_reducible exact Frame.refl _ _ | with_reducible apply setBit_frame | exact Eq.refl _)

/-- May change pins, regs, power, recorder. -/
theorem writeLoopCtl_frame (s : State) (n : Nat) (v : Word) (hr0 : Frame F0 r0 s) (m0 : 0x140000000006 ||| F0 = F0) :
    Frame F0 r0 (State.writeLoopCtl s n v) := by
  refine Frame.comp hr0 ?_ m0
  unfold State.writeLoopCtl
  dsimp only
  repeat' (first
    | with_reducible exact Frame.refl _ _ | with_reducible apply putF_frame | with_reducible apply cfgIgnored_frame
    | with_reducible apply loopClose_frame | with_reducible apply loopOpen_frame | with_reducible apply Frame.ite | split
    | exact Eq.refl _)

/-- May change pins, regs, power, recorder. -/
theorem writeLoop_frame (s : State) (a n place : Nat) (r : RegRow) (v : Word) (hr0 : Frame F0 r0 s) (m0 : 0x140000000006 ||| F0
    = F0) :
    Frame F0 r0 (State.writeLoop s a n place r v) := by
  refine Frame.comp hr0 ?_ m0
  unfold State.writeLoop
  repeat' (first
    | with_reducible exact Frame.refl _ _ | with_reducible apply writeLoopCtl_frame | with_reducible apply plainWrite_frame
    | with_reducible apply cfgIgnored_frame | with_reducible apply Frame.ite | split | exact Eq.refl _)

/-- May change pins, regs, power, recorder. -/
theorem writePw_frame (s : State) (a off : Nat) (r : RegRow) (v : Word) (hr0 : Frame F0 r0 s) (m0 : 0x140000000006 ||| F0 = F0)
    :
    Frame F0 r0 (State.writePw s a off r v) := by
  refine Frame.comp hr0 ?_ m0
  unfold State.writePw
  dsimp only
  repeat' (first
    | with_reducible exact Frame.refl _ _ | with_reducible apply writeLoop_frame | with_reducible apply evalArmed_frame
    | with_reducible apply plainWrite_frame | with_reducible apply holdupClear_frame | with_reducible apply wantMeasure_frame
    | with_reducible apply wrQ_frame | with_reducible apply capSetpoint_frame | with_reducible apply Frame.ite | split
    | exact Eq.refl _)

/-- May change pins, regs, course, ctrls, inflight, slices, invocations, hd, digests, meas, measLog, measSeq, storeHdr, nvm, power,
recorder, fences, test, slice-local memory. -/
theorem writeHub_frame (s : State) (a : Nat) (r : RegRow) (v : Word) (hr0 : Frame F0 r0 s) (m0 : 0x21364071160326 ||| F0 = F0) :
    Frame F0 r0 (State.writeHub s a r v) := by
  refine Frame.comp hr0 ?_ m0
  unfold State.writeHub
  dsimp only
  repeat' (first
    | with_reducible exact Frame.refl _ _ | with_reducible apply hdCtlWrite_frame | with_reducible apply plainWrite_frame
    | with_reducible apply measExtend_frame | with_reducible apply freeze_frame | with_reducible apply thaw_frame
    | with_reducible apply storeGo_frame | with_reducible apply writePw_frame | with_reducible apply writeCk_frame
    | with_reducible apply testGo_frame | with_reducible apply goOffline_frame | with_reducible apply Frame.ite | split
    | exact Eq.refl _)

/-- May change slices. -/
theorem askRetrain_frame (s : State) (n ch : Nat) (hr0 : Frame F0 r0 s) (m0 : 0x20000 ||| F0 = F0) :
    Frame F0 r0 (State.askRetrain s n ch) := by
  refine Frame.comp hr0 ?_ m0
  unfold State.askRetrain
  dsimp only
  repeat' (first
    | with_reducible exact Frame.refl _ _ | with_reducible apply modSlice_frame | with_reducible apply Frame.ite
    | exact SlmSame.of fun _ => rfl | split | exact Eq.refl _)

/-- May change regs, slices, fresh. -/
theorem writeSlice_frame (s : State) (a : Nat) (r : RegRow) (v : Word) (hr0 : Frame F0 r0 s) (m0 : 0x8000000020004 ||| F0 = F0)
    :
    Frame F0 r0 (State.writeSlice s a r v) := by
  refine Frame.comp hr0 ?_ m0
  unfold State.writeSlice
  dsimp only
  repeat' (first
    | with_reducible exact Frame.refl _ _ | with_reducible apply plainWrite_frame | with_reducible apply dueRetrain_frame
    | with_reducible apply askRetrain_frame | with_reducible apply scrubGo_frame | with_reducible apply scrubStop_frame
    | with_reducible apply evacuate_frame | with_reducible apply startFormat_frame | with_reducible apply Frame.ite | split
    | exact Eq.refl _)

/-- May change pins, regs, course, ctrls, inflight, slices, invocations, hd, digests, meas, measLog, measSeq, storeHdr, nvm, power,
recorder, fences, test, fresh, slice-local memory. -/
theorem writeReg_frame (s : State) (a : Nat) (v : Word) (hr0 : Frame F0 r0 s) (m0 : 0x29364071160326 ||| F0 = F0) :
    Frame F0 r0 (State.writeReg s a v) := by
  refine Frame.comp hr0 ?_ m0
  unfold State.writeReg
  repeat' (first
    | with_reducible exact Frame.refl _ _ | with_reducible apply writeHub_frame | with_reducible apply writeSlice_frame
    | with_reducible apply flagged_frame | with_reducible apply Frame.ite | split | exact Eq.refl _)

/-- May change nothing. -/
theorem inWindow_frame (s : State) (a : Nat) (f : State → State) (hr0 : Frame F0 r0 s) (m0 : 0x0 ||| F0 = F0) (h_f : ∀ t, Frame
    F0 r0 t → Frame F0 r0 (f t)) :
    FrameOut F0 r0 (State.inWindow s a f) := by
  unfold State.inWindow
  repeat' (first
    | with_reducible exact hr0 | with_reducible apply h_f | (intro _) | with_reducible assumption
    | with_reducible apply Frame.next | with_reducible apply Frame.stop | with_reducible apply Frame.ite | split
    | exact mask_or ‹_› rfl)

/-- May change regs, busRead. -/
theorem badWidth_frame (s : State) (a : Nat) (isWrite : Bool) (hr0 : Frame F0 r0 s) (m0 : 0x14 ||| F0 = F0) :
    Frame F0 r0 (State.badWidth s a isWrite) := by
  refine Frame.comp hr0 ?_ m0
  unfold State.badWidth
  dsimp only
  repeat' (first
    | with_reducible exact Frame.refl _ _ | with_reducible apply flagAccess_frame | with_reducible apply answerRead_frame
    | with_reducible apply Frame.ite | split | exact Eq.refl _)

/-- May change regs, latches, busRead, fresh. -/
theorem execLoRegisterRead_frame (addr : Nat) (s : State) (hr0 : Frame F0 r0 s) (m0 : 0x800000000001c ||| F0 = F0) :
    FrameOut F0 r0 (execLoRegisterRead addr s) := by
  refine FrameOut.comp hr0 ?_ m0
  unfold execLoRegisterRead
  repeat' (first
    | with_reducible exact Frame.refl _ _ | (intro _) | with_reducible assumption | with_reducible apply inWindow_frame
    | with_reducible apply badWidth_frame | with_reducible apply readReg_frame | with_reducible apply Frame.next
    | with_reducible apply Frame.ite | split | exact Eq.refl _)

/-- May change regs, busRead. -/
theorem execUnsupportedWidthAccess_frame (addr size : Nat) (isWrite : Bool) (s : State) (hr0 : Frame F0 r0 s) (m0 : 0x14 ||| F0
    = F0) :
    FrameOut F0 r0 (execUnsupportedWidthAccess addr size isWrite s) := by
  refine FrameOut.comp hr0 ?_ m0
  unfold execUnsupportedWidthAccess
  repeat' (first
    | with_reducible exact Frame.refl _ _ | (intro _) | with_reducible assumption | with_reducible apply inWindow_frame
    | with_reducible apply badWidth_frame | with_reducible apply Frame.next | with_reducible apply Frame.ite | split
    | exact Eq.refl _)

/-- May change regs, latches, busRead, fresh. -/
theorem execReservedAccess_frame (addr : Nat) (isWrite : Bool) (s : State) (hr0 : Frame F0 r0 s) (m0 : 0x800000000001c ||| F0 =
    F0) :
    FrameOut F0 r0 (execReservedAccess addr isWrite s) := by
  refine FrameOut.comp hr0 ?_ m0
  unfold execReservedAccess
  repeat' (first
    | with_reducible exact Frame.refl _ _ | (intro _) | with_reducible assumption | with_reducible apply inWindow_frame
    | with_reducible apply badWidth_frame | with_reducible apply flagged_frame | with_reducible apply readReg_frame
    | with_reducible apply Frame.next | with_reducible apply Frame.ite | split | exact Eq.refl _)

/-- May change pins, regs, busRead, course, ctrls, inflight, slices, invocations, hd, digests, meas, measLog, measSeq, storeHdr,
nvm, power, recorder, fences, test, fresh, slice-local memory. -/
theorem execRegisterWrite_frame (addr : Nat) (value : BitVec 32) (s : State) (hr0 : Frame F0 r0 s) (m0 : 0x29364071160336 ||| F0
    = F0) :
    FrameOut F0 r0 (execRegisterWrite addr value s) := by
  refine FrameOut.comp hr0 ?_ m0
  unfold execRegisterWrite
  repeat' (first
    | with_reducible exact Frame.refl _ _ | (intro _) | with_reducible assumption | with_reducible apply inWindow_frame
    | with_reducible apply badWidth_frame | with_reducible apply writeReg_frame | with_reducible apply Frame.next
    | with_reducible apply Frame.ite | split | exact Eq.refl _)

end Sys2Proof.Laws
end

