-- ==== Sys2Proof/Tests/States.lean ====
section
/-!
SUPPORT. Small concrete states for the tests: each is a package that runs, with the one thing that a test is about put into it.
-/

namespace Sys2Proof.Tests

open Sys2Proof.Machine

/-- The next state of an outcome. -/
def after (o : Host.Outcome State Fault Refusal) : Option State := match o with
  | .next t => some t
  | _ => none

/-- A Yarrow in SUCCESS: the slices online, port 0 up at Gen5 x16, the course generator at course 128. -/
def up : State := ({ State.reset with
  pins := { State.pinsReset with resetN := true }
  links := [{ State.linkDown with up := true, gen := 5, width := 16 }, State.linkDown]
  slices := List.replicate 8 { State.sliceReset with mode := .online }
  course := { State.courseReset with running := true, count := 128 } } : State).putF Adr.stSts 2 0 7

/-- The same package in another course. -/
def at_ (n : Nat) (s : State) : State := { s with course := { s.course with count := n } }

/-- An admin command of the manager. -/
def hm : Hdr := ⟨1, 0, 7⟩
/-- An I/O command of physical function 0. -/
def hi : Hdr := ⟨1, 1, 9⟩
/-- An I/O command of the controller of TI 4. -/
def hv : Hdr := ⟨6, 1, 3⟩
/-- An admin command of that controller. -/
def ha : Hdr := ⟨6, 0, 5⟩

/-- A submission queue with two entries rung, and its completion queue. -/
def sq (k : Nat) : SubQ := ⟨k, 32, 4096, k, 0, 0, 2, none⟩
def cq (k : Nat) : ComQ := ⟨k, 32, 8192, 0, 0, 0, true, []⟩

/-- A controller enabled and ready, with its admin queues and one pair of I/O queues. -/
def hostOn (c : Nat) (s : State) : State :=
  s.modCtrl c fun k => { k with en := true, rdy := true, sqs := [sq 0, sq 1], cqs := [cq 0, cq 1] }

/-- What a command's entry names. -/
def entry0 : SqEntry := ⟨1, [], none, []⟩

/-- A command in its command slot, fetched as order number 1. -/
def fetched (h : Hdr) (s : State) : State := { s with inflight := fetchedNow h h.sq 1 entry0 :: s.inflight, order := 2 }

/-- The package with controllers 1 and 6 on, and one command of the manager, or of physical function 0, fetched. -/
def adm : State := fetched hm (hostOn 6 (hostOn 1 up))
def io : State := fetched hi (hostOn 6 (hostOn 1 up))

/-- A creation descriptor: local to slice 0, QLC at the lowest rate, for any tenant. -/
def desc0 : CreateDesc := ⟨1, 0, 0, 0, 0, 0, 8, 0xFFFF, 0⟩

/-- A namespace in slice 0, attached to physical function 0 and to TI 4. -/
def nsOf (kind : NsKind) : Namespace :=
  { nsid := 1, kind := kind, size := 16, desc := desc0, parts := [⟨0, 0, 16, 0, 0, 0⟩], slot := some 4096, through := false, compress := false,
    attachedTis := [4], attachedPfs := [1], lastOwner := none, programs := [] }

/-- A tenant without limits, in a state. -/
def tenantIn (st : TiState) : Tenant :=
  { ti := 4, state := st, isSealed := false, wbq := 0, ctxq := 0, wiq := 0, dgMask := 0, keyBase := 0, keyCount := 0, wearBurst := 0, wearRate := 0,
    lunsets := 0, vq := 4, vi := 4, saved := false, allowance := 1, wearLimited := false, next := none }

/-- The package with a namespace, with TI 4. -/
def withNs (x : Namespace) (s : State) : State := { s with namespaces := [x] }
def withTi (st : TiState) (s : State) : State := { s with tenants := [tenantIn st] }

/-- A version in slot 3 that holds block 0 of entry 0, acknowledged and not yet streamed. -/
def version0 : Version :=
  { wslot := 3, nsid := 1, lua := 0, index := 0, blocks := [(0, 5)], lostMap := 0, acked := [0], ackAt := some 0, writer := ownerPf, openedAt := 0,
    state := .wopen, through := false, trigger := false, restored := false, attempts := 0, tried := [], grout := false, dead := false, region := 0,
    sb := 0, start := 0, under := .unmapped, wseq := 0, keySlot := 4096, keyGen := 0, comp := false, slen := 0, objRec := false, chans := [] }

/-- A slice changed. -/
def inSlice (n : Nat) (f : Slice → Slice) (s : State) : State := s.modSlice n f

/-- Hold-up in a mode. -/
def mode (m : Nat) (s : State) : State := s.putF Adr.pwSts 2 0 m

end Sys2Proof.Tests
end

