-- ==== Sys2Proof/Tests/Slice0.lean ====
section
/-!
SUPPORT. Tests: ill-formed terms that the checks of WellFormed refuse, for each statement states and operands that meet its hypotheses, and
single steps whose result the spec gives.
-/

namespace Sys2Proof.Tests

open Sys2Proof.Machine

/-! ### Well-formedness: each check refuses an ill-formed term -/

theorem test_wf_accepts : Instr.wf (.write hi 1 0 [0] false) = true ∧ Instr.wf (.registerWrite 0x90018 5) = true ∧
    Instr.wf (.controllerEnable ⟨1, 0, 0, 0, 4096, 4096, 4096, 8192⟩) = true ∧ Instr.wf (.linkTraining 1 6 ⟨16, 4096, 128⟩) = true := by decide
theorem test_wf_header : Instr.wf (.flush ⟨0, 1, 1⟩ 1) = false ∧ Instr.wf (.flush ⟨0x102, 1, 1⟩ 1) = false ∧
    Instr.wf (.flush ⟨1, 65536, 1⟩ 1) = false ∧ Instr.wf (.flush ⟨1, 1, 65536⟩ 1) = false := by decide
theorem test_wf_namespace : Instr.wf (.flush hi 0x100000000) = false ∧ Instr.wf (.commandFetch ⟨hi, 0x100000000, [], none, []⟩) = false := by decide
theorem test_wf_buffer : Instr.wf (.commandFetch ⟨hi, 1, [], none, [(2 ^ 64, 1)]⟩) = false := by decide
theorem test_wf_block_range : Instr.wf (.read hi 1 (2 ^ 64) 1) = false ∧ Instr.wf (.read hi 1 0 0) = false ∧
    Instr.wf (.read hi 1 0 65537) = false ∧ Instr.wf (.write hi 1 0 [] false) = false := by decide
theorem test_wf_range_lists : Instr.wf (.datasetManagement hi 1 true []) = false ∧ Instr.wf (.datasetManagement hi 1 true [(0, 2 ^ 32)]) = false ∧
    Instr.wf (.copy hi 1 0 0 [] false) = false ∧ Instr.wf (.copy hi 1 0 0 [⟨1, 0, 0⟩] false) = false := by decide
theorem test_wf_queue_number : Instr.wf (.sqTailDoorbell 1 1536 0) = false ∧ Instr.wf (.createIoSubmissionQueue hm 1 2 1 4 ⟨0, true⟩) = false := by decide
theorem test_wf_unit : Instr.wf (.courseBoundary [⟨256, 0, 0⟩]) = false ∧ Instr.wf (.faultFence ⟨1, 256, 0⟩ .late) = false ∧
    Instr.wf (.onlineTestGo 1 0 256) = false := by decide
theorem test_wf_link : Instr.wf (.linkTraining 2 5 ⟨16, 128, 128⟩) = false ∧ Instr.wf (.linkTraining 0 7 ⟨16, 128, 128⟩) = false ∧
    Instr.wf (.linkTraining 0 5 ⟨3, 128, 128⟩) = false ∧ Instr.wf (.linkTraining 0 5 ⟨16, 100, 128⟩) = false := by decide
theorem test_wf_enable : Instr.wf (.controllerEnable ⟨1, 8, 0, 0, 2, 2, 0, 0⟩) = false ∧
    Instr.wf (.controllerEnable ⟨1, 0, 0, 0, 4097, 2, 0, 0⟩) = false ∧ Instr.wf (.controllerEnable ⟨1, 0, 0, 0, 2, 0, 0, 0⟩) = false := by decide
theorem test_wf_descriptors : Instr.wf (.namespaceCreate hm 0 1 1 0 ⟨0, 256, 0, 0, 0, 0, 0, 0, 0⟩) = false ∧
    Instr.wf (.create hm 4 false ⟨0, 0, 65536, 0, 0, 0, 0, 0, 0, 0, 0, 0⟩) = false := by decide
theorem test_wf_object_key : Instr.wf (.exist hi 1 ⟨256, []⟩) = false ∧ Instr.wf (.exist hi 1 ⟨16, List.replicate 17 0⟩) = false := by decide
theorem test_wf_memory : Instr.wf (.executeProgram hi 1 16 [⟨1, 2 ^ 64, 0⟩] 0 []) = false ∧
    Instr.wf (.memoryCopy hi 1 0 (.blocks 1 0 0)) = false ∧ Instr.wf (.memoryCopy hi 1 0 (.memory (2 ^ 32) 0 0)) = false := by decide
theorem test_wf_transport : Instr.wf (.getVersion (.doe 2)) = false ∧ Instr.wf (.getVersion (.migration 256)) = false ∧
    Instr.wf (.challenge (.doe 0) 16 0) = false := by decide
theorem test_wf_media : Instr.wf (.sliceFormat 8 0) = false ∧ Instr.wf (.programFailed 0 512 0 0) = false ∧ Instr.wf (.flashRetrain 0 8 true) = false ∧
    Instr.wf (.readPassDone 0 0 0 0 ⟨0, 0, 0, 0, 9, false, false, false, 0, true, false, 0, none, false⟩) = false := by decide
theorem test_wf_scheduler : Instr.wf (.release ⟨0, 4, 0⟩) = false ∧ Instr.wf (.emit ⟨0, 0, 0⟩ (.dma 16 0 0 0)) = false ∧
    Instr.wf (.operandArrival 0 0 0 256 ⟨0, 0, 0, 0, 0⟩) = false ∧ Instr.wf (.search 0 2 0 0 0 0) = false := by decide
theorem test_wf_hub : Instr.wf (.digestOpen (.inst 16) 0 0 none 0 .keyRegister) = false ∧
    Instr.wf (.digestOpen .service 0 0 none 0 (.meas 32)) = false ∧ Instr.wf (.busError 32 .ur []) = false ∧
    Instr.wf (.storeDone 321 0) = false ∧ Instr.wf (.quiescedReached 256) = false ∧ Instr.wf (.feTrip 16) = false := by decide
theorem test_wf_window : Instr.wf (.loRegisterRead 0x4000000) = false ∧ Instr.wf (.loRegisterRead 2) = false ∧
    Instr.wf (.msiXTableWrite 0 0 false 0 0) = false := by decide

/-! ### The hypotheses of the statements are met: one small state for each clause -/

theorem test_witness_StepRunsTheFrontCommand : State.reset.pending = [] := by decide

/-- The reset state has the form, and a step of it with a GO in front reaches a next state. -/
theorem test_witness_EveryStepKeepsTheShape : Shape State.reset ∧ (after (step { State.reset with pending := [.commitGo] })).isSome = true :=
  ⟨⟨by decide, by decide, by decide, by decide, by decide, by decide⟩, by decide⟩

theorem test_witness_CommandsChangeOnlyTheirFootprint : (after (exec .sagDetect up)).isSome = true := by decide

theorem test_witness_RegisterAndMemoryReadAfterWrite : Memory.wf [(4, 7)] = true := by decide

theorem test_witness_CourseAndBondBoundariesCountAndCommit :
    (up.held = false ∧ up.course.running = true ∧ up.now % 64 = 0 ∧ up.course.bondAt ≠ up.now) ∧ State.reset.course.running = false ∧
    (let v : Verdict := ⟨2, 4159, 255, true⟩; v.cell < 4160 ∧ v.ti < 256 ∧ v.result < 8 ∧ v.result ≠ 1) ∧
    (at_ 0 up).course.bondAt = (at_ 0 up).now := by decide

theorem test_witness_CommitTakesTheShadowBanks : mapWf (resetWord up.part) up.regs = true := by decide

theorem test_witness_CommitRequestsWaitForTheirBoundary :
    (up.held = false ∧ up.minimal = false ∧ up.linkUp 0 = true ∧ 2 ≤ up.stage ∧ up.bit Adr.ckCommitSts 7 = false) ∧
    ((at_ 191 up).now % 64 = 63 ∧ (at_ 191 up).bit Adr.ckCommitSts 7 = false) ∧
    (let s := up.setBit Adr.ckCommitSts 7; s.held = false ∧ s.minimal = false ∧ s.linkUp 0 = true ∧ 2 ≤ s.stage ∧ s.bit Adr.ckCommitSts 7 = true) ∧
    State.reset.held = true := by decide

/-- A follower in each state of CK_SYNC_STS. -/
def follower (st : Nat) : State := (up.putF Adr.ckSyncCtl 1 0 2).putF Adr.ckSyncSts 2 0 st

theorem test_witness_FollowersTrackThePulse : ∀ st ∈ [2, 3, 4, 5],
    (follower st).held = false ∧ (follower st).fld Adr.ckSyncCtl 1 0 = 2 ∧ (follower st).fld Adr.ckSyncSts 2 0 = st := by decide

theorem test_witness_ASecondMasterLeavesTheLine :
    (up.putF Adr.ckSyncSts 2 0 1).held = false ∧ (up.putF Adr.ckSyncSts 2 0 1).fld Adr.ckSyncSts 2 0 = 1 := by decide

theorem test_witness_PackageFaultsResetThePackage : (up.held = false ∧ up.dumping = false) ∧
    (mode modeDump up).held = false ∧ (mode modeDump up).dumping = true := by decide

theorem test_witness_LinksTrainAndFall :
    (up.held = false ∧ up.stage ≠ 0 ∧ up.minimal = false ∧ (up.links[0]?).isSome = true) ∧
    (let s := { up with dual := true }; s.held = false ∧ s.stage ≠ 0 ∧ s.minimal = false ∧ (s.links[1]?).isSome = true ∧ s.dual = true) ∧
    (let s := up.setBit Adr.stSts 7; s.held = false ∧ s.minimal = true ∧ 0 < s.links.length) ∧
    (up.dumping = false ∧ up.start.minimalCommit = false ∧ 0 < up.links.length) ∧
    (mode modeDown up).held = false ∧ (mode modeDown up).dumping = true := by decide

/-- A dispatched write of physical function 0 whose version lies in slot 3 of slice 0. -/
def posting (conds : List Cond) : State :=
  { hostOn 1 up with
    inflight := [{ fetchedNow hi 1 1 entry0 with phase := .dispatched, conds := conds, wrote := [(0, 3, [0])] }], order := 2 }

theorem test_witness_DoorbellsFetchAndCompletion :
    (let s := hostOn 1 up; s.held = false ∧ (s.ctrl 1).en = true ∧ s.flrOn 1 = false ∧ recGet SubQ.qid (s.ctrl 1).sqs 1 = some (sq 1) ∧
      31 < (sq 1).size ∧ recGet ComQ.qid (s.ctrl 1).cqs 1 = some (cq 1) ∧ 0 < (cq 1).size ∧ (cq 1).freed 0 ≤ (cq 1).entries.length) ∧
    (let s := withTi .quiescing (hostOn 6 up); s.fetchStopped 6 = true ∧ (s.ctrl 6).en = true ∧ s.flrOn 6 = false) ∧
    (let s := hostOn 1 up; ((s.ctrl 1).pick).map Prod.fst = some 1 ∧ recGet SubQ.qid (s.ctrl 1).sqs 1 = some (sq 1) ∧ s.mayFetch 1 = true ∧
      s.inFlight hi = none ∧ s.slotFree 1 = true ∧ ∀ n ∈ s.namedBy 1 1, (ctrlOwner 1, n) ∉ s.nvm.faultPairs) ∧
    (let s := ((withNs (nsOf .block) (hostOn 1 up)).modCtrl 1 fun k => { k with sqs := [{ sq 0 with tail := 0 }, sq 1] }).modNvm
        fun v => { v with faultPairs := [(ownerPf, 1)] };
      ((s.ctrl 1).pick).map Prod.fst = some 1 ∧ recGet SubQ.qid (s.ctrl 1).sqs 1 = some (sq 1) ∧ s.mayFetch 1 = true ∧ s.inFlight hi = none ∧
        s.slotFree 1 = true ∧ hi.sq ≠ 0 ∧ s.namedBy 1 1 = [1] ∧ (ctrlOwner 1, 1) ∈ s.nvm.faultPairs) ∧
    (let s := posting []; s.held = false ∧ (s.inFlight hi).any (fun x => x.phase == .dispatched && x.conds == [] && x.cqid == 1) = true ∧
      recGet ComQ.qid (s.ctrl 1).cqs 1 = some (cq 1) ∧ (cq 1).entries.length + 1 < (cq 1).size ∧ s.flrOn 1 = false ∧ s.moving hi = false ∧
      s.hdOpen 1 kComplete = true ∧ (s.inFlight hi).all (fun x => s.overridden x == []) = true) ∧
    (let s := inSlice 0 (fun x => { x with versions := [version0] }) ((posting []).setBit Adr.pwSts 5);
      (s.inFlight hi).any (fun x => x.answer.status.good && s.overridden x != []) = true ∧ s.held = false ∧ s.moving hi = false ∧
        s.hdOpen 1 kComplete = true ∧ s.flrOn 1 = false) := by decide

theorem test_witness_ControllersAreEnabledAndReset :
    (up.held = false ∧ up.ctrlExists 1 = true ∧ (up.ctrl 1).en = false ∧ up.flrOn 1 = false ∧ up.mayServe 1 = true) ∧
    (let s := hostOn 1 up; (s.ctrl 1).en = true ∧ s.flrOn 1 = false ∧ s.start.minimalCommit = false ∧ s.nvm.slots.next = none) ∧
    up.dumping = false ∧ up.start.minimalCommit = false := by decide

/-- A Function Level Reset of a controller in progress. -/
def resetting (c : Nat) (s : State) : State := s.modCtrl c fun k => { k with flr := some 128 }

theorem test_witness_FunctionLevelResetsRunInTheirSteps :
    (let s := withTi .frozen up; s.held = false ∧ s.ctrlExists 6 = true ∧ isPf 6 = false ∧ (s.tenant (ctrlFn 6 - 1)).map Tenant.state = some .frozen) ∧
    (up.ctrlExists 1 = true ∧ isPf 1 = true ∧ up.start.minimalCommit = false ∧ up.nvm.slots.next = none) ∧
    (resetting 6 up).flrOn 6 = true ∧
    ((hostOn 1 up).held = false ∧ ((hostOn 1 up).ctrl 1).en = true ∧ (hostOn 1 up).flrOn 1 = false) ∧
    (let s := up.modCtrl 1 fun k => { k with shst := 1 }; (s.ctrl 1).shst = 1 ∧ ∀ x ∈ s.slices, x.versions = []) := by decide

theorem test_witness_MsiXEntriesAndUnsupportedOpcodes :
    (up.held = false ∧ up.ctrlExists 1 = true ∧ up.flrOn 1 = false ∧ isPf 1 = true) ∧
    (up.ctrlExists 6 = true ∧ isPf 6 = false ∧ (256 < 257)) ∧
    ((withTi .online up).tenant (ctrlFn 6 - 1)).all (fun x => decide (x.vi ≤ 4)) = true ∧
    (adm.runnable hm = true ∧ reservedAction 0xFF 0 = false ∧ adm.minimal = false ∧ hm.ctrl = 1 ∧ hm.sq = 0 ∧ reservedAction 0xC5 0x7F = true) := by
  decide

/-- A namespace of a kind, an I/O command fetched, and enough buffer for its writes. -/
def ioNs (kind : NsKind) : State := withNs (nsOf kind) io

theorem test_witness_AWrittenBlockReadsBack :
    (let s := ioNs .block; let x := nsOf .block; s.slices.length = 8 ∧ s.nsUp x (x.route 15).1 = true ∧ (14 : Nat) ≠ 15 ∧
      (s.place x 14).1 = (s.place x 15).1 ∧ (s.place x 14).2.1 = (s.place x 15).2.1 ∧ (s.place x 14).2.2 ≠ (s.place x 15).2.2) ∧
    (let s := ioNs .block; Serves s hi 1 (nsOf .block) .block ∧ Reaches s hi (nsOf .block) 15 1 ∧ Accepts s hi (nsOf .block) true [15]) := by
  unfold Serves Reaches Accepts; decide

theorem test_witness_BlockCommandsComplete :
    (let s := ioNs .block; let x := nsOf .block; Serves s hi 1 x .block ∧ Reaches s hi x 0 16 ∧ Reaches s hi x 14 2 ∧
      s.readLba x 15 = .ok 0 ∧ (0 : Block) ≠ 5 ∧ Accepts s hi x true [14, 15] ∧
      (∀ r ∈ [CopySource.mk 1 0 2], r.nsid = 1 ∧ r.slba + r.nlb ≤ x.size) ∧
      s.behind hi [(1, 14, 2), (1, 0, 2)] = false ∧ s.readLba x 0 = .ok 0 ∧ s.readLba x 1 = .ok 0) ∧
    (let s := inSlice 0 (fun y => { y with map := [(0, .lost 0 0)] }) (ioNs .block); s.readLba (nsOf .block) 3 = .fail stUnrecovered) := by
  unfold Serves Reaches Accepts; decide +kernel

theorem test_witness_ZeroesDeallocateAndFlush :
    (let s := ioNs .block; let x := nsOf .block; s.slices.length = 8 ∧ s.nsUp x (x.route 15).1 = true ∧ s.mu (x.route 15).1 = 16 ∧
      Serves s hi 1 x .block ∧ Reaches s hi x 0 16 ∧ s.readOnlyNs x = false ∧
      s.mayWrite hi x true (((List.range 16).map fun k => 0 + k).filter fun l =>
        !s.unitCovered x l fun b => decide (0 ≤ b) && decide (b < 0 + 16)) = true ∧
      (∀ k < 16, s.nsUp x (x.route k).1 = true) ∧ s.behind hi [(1, 0, 16)] = false ∧
      s.unitCovered x 3 (fun b => [(0, 16)].any fun r => decide (r.1 ≤ b) && decide (b < r.1 + r.2)) = true ∧
      s.runnable hi = true ∧ (s.inFlight hi).isSome = true ∧ ∀ p ∈ x.parts, s.nsUp x p.slice = true) ∧
    (let s := inSlice 0 (fun y => { y with mode := .offline }) (ioNs .block); Serves s hi 1 (nsOf .block) .block ∧
      (nsOf .block).desc.placement = 0 ∧ ∀ p ∈ (nsOf .block).parts, s.nsUp (nsOf .block) p.slice = false) := by
  unfold Serves Reaches; decide

theorem test_witness_QueuesAreCreatedAndDeleted :
    (AdminReady adm hm ∧ (∀ q ∈ (adm.ctrl 1).cqs, q.qid ≠ 2) ∧ (∀ q ∈ (adm.ctrl 1).sqs, q.qid ≠ 2) ∧ adm.overPairs 1 2 = false ∧
      (1024 : Nat) < adm.vectors 1 ∧ ((adm.ctrl 1).cqs.map ComQ.qid).contains 1 = true ∧ ((adm.ctrl 1).sqs.map SubQ.qid).contains 1 = true) ∧
    (let s := adm.modCtrl 1 fun k => { k with sqs := [sq 0] }; AdminReady s hm ∧ ((s.ctrl 1).cqs.map ComQ.qid).contains 1 = true ∧
      ∀ q ∈ (s.ctrl 1).sqs, q.cqid ≠ 1) := by
  unfold AdminReady; decide

theorem test_witness_FeaturesReadBackAsSet :
    (AdminReady adm hm ∧ ManagerReady adm hm ∧ plainFeature 0x01 = true ∧ plainFeature 0xFF = false ∧ adm.ctrlExists 6 = true ∧
      adm.ctrlExists 0 = false ∧ adm.ns 1 = none) ∧ (withNs (nsOf .block) adm).ns 1 = some (nsOf .block) ∧
    (let s := fetched ha (hostOn 6 (withTi .online up)); AdminReady s ha ∧ ha.ctrl ≠ 1) := by
  unfold AdminReady ManagerReady; decide

theorem test_witness_IdentifyAndLogsReport : adm.runnable hm = true ∧ adm.minimal = false ∧ ManagerReady adm hm ∧
    (fetched ha (hostOn 6 (withTi .online up))).runnable ha = true ∧ ha.ctrl ≠ 1 := by
  unfold ManagerReady; decide

/-- Some Aborts of the manager that are not complete. -/
def aborting (n : Nat) : State :=
  { adm with inflight := adm.inflight ++ (List.range n).map fun k => { fetchedNow ⟨1, 0, 100 + k⟩ 0 (3 + k) entry0 with isAbort := true } }

theorem test_witness_AbortsAndEventRequests :
    (AdminReady (aborting 3) hm ∧ (aborting 3).abortsOpen 1 < 4 ∧ Hdr.mk 1 0 102 ≠ hm ∧ (aborting 3).undispatched ⟨1, 0, 102⟩ = true ∧
      (aborting 3).undispatched ⟨1, 0, 99⟩ = false) ∧ (AdminReady (aborting 4) hm ∧ 4 ≤ (aborting 4).abortsOpen 1) ∧
    (let s := adm.modCtrl 1 fun k => { k with events := [⟨0, 0, 1⟩] }; AdminReady s hm ∧ (s.ctrl 1).events = [⟨0, 0, 1⟩]) ∧
    (adm.ctrl 1).events = [] := by
  unfold AdminReady; decide

/-- A namespace with no attachment, whose key slot physical function 0 may use. -/
def freeNs : Namespace := { nsOf .block with slot := some 5, attachedTis := [], attachedPfs := [] }

theorem test_witness_NamespacesAreCreatedAttachedAndDeleted :
    (let d := adm.descOf .computational desc0; ManagerReady adm hm ∧ kindOf 4 = some .computational ∧ adm.descOk .computational d = true ∧
      adm.fifthProfile .computational d = false ∧ (∀ y ∈ adm.namespaces, y.nsid ≠ 4095 + 1) ∧
      ∀ n ∈ adm.newSlices d, (adm.newPart? n .computational d (shareBlocks .computational d.placement 1 (adm.newSlices d).length)).isSome = true) ∧
    (let s := withTi .online (withNs freeNs adm); ItsTurn s hm ∧ s.ns 1 = some freeNs ∧ s.listOk [1] = true ∧ freeNs.attached 1 = false ∧
      s.mayAttachPf freeNs = true) ∧
    (let s := withTi .online (withNs (nsOf .block) adm); s.listOk [1, 6] = true ∧ (nsOf .block).attached 1 = true ∧
      (nsOf .block).attached 6 = true ∧ s.named 1 ≠ [] ∧ s.named 0xFFFFFFFF ≠ []) := by
  unfold ItsTurn ManagerReady; decide

/-- A namespace bound to slot 5, which is in a state. -/
def bound (st : SlotState) : State :=
  (withNs { nsOf .block with slot := some 5 } adm).modNvm fun v => { v with keys := (5, ⟨st, 1, 3, 9, 0⟩) :: v.keys }

theorem test_witness_FormatsEraseWithTheKeyOrTheMap :
    (ManagerReady (withNs (nsOf .block) adm) hm ∧ (withNs (nsOf .block) adm).named 1 ≠ []) ∧
    (∀ st ∈ [SlotState.active, .retiring], ManagerReady (bound st) hm ∧ ((bound st).ns 1).map Namespace.slot = some (some 5) ∧
      ((bound st).keySlot 5).state = st ∧ ((bound st).keySlot 5).generation < 0xFFFF ∧ (bound st).entropyOk = true) ∧
    ((withNs { nsOf .block with slot := none } adm).ns 1).map Namespace.slot = some none ∧ 0 < adm.slices.length := by
  unfold ManagerReady; decide

/-- A descriptor that divides nothing. -/
def tdesc0 : TenantDesc := ⟨0x7F, 1, 0, 0, 0, 0, 0, 0, 100, 10, 0, 0⟩

theorem test_witness_DivisionsWaitForTheirBoundary :
    (let s := { adm with wearRateMax := 1000 }; ItsTurn s hm ∧ s.tiState 255 = .absent ∧ s.flrOf 255 = false ∧
      s.divisionFails tdesc0 allFields none (tenantOf 255 false tdesc0) (s.floorSlices 255) = none) ∧
    (let s := { withTi .online adm with wearRateMax := 1000 }; let x := tenantIn .online; ItsTurn s hm ∧ s.tenant 4 = some x ∧
      x.state ≠ .frozen ∧ x.state ≠ .absent ∧ s.flrOf 4 = false ∧
      s.divisionFails tdesc0 tdesc0.valid (some x) (x.give tdesc0 tdesc0.valid) (s.floorSlices 4) = none) ∧
    (let s := { adm with tenants := [{ tenantIn .quiesced with lunsets := 1 }] }; ItsTurn s hm ∧
      s.tenant 4 = some { tenantIn .quiesced with lunsets := 1 } ∧ s.flrOf 4 = false ∧ ∀ y ∈ s.namespaces, 4 ∉ y.attachedTis) := by
  unfold ItsTurn ManagerReady; decide

theorem test_witness_TenantsMoveBetweenTheirStates :
    (∀ st ∈ [TiState.online, .quiesced, .frozen, .offline], ItsTurn (withTi st adm) hm ∧ (withTi st adm).tenant 4 = some (tenantIn st) ∧
      (withTi st adm).flrOf 4 = false ∧ (withTi st adm).ctrlExists 6 = true ∧ isPf 6 = false ∧ ctrlFn 6 - 1 = 4 ∧ (tenantIn st).next = none) ∧
    (let s := { up with tenants := [{ tenantIn .online with next := some (128, .quiescing) }] };
      (s.tenant 4).map Tenant.next = some (some (s.now, .quiescing)) ∧ ((s.tenant 4).map Tenant.next).any Option.isSome = true) ∧
    ((withTi .quiescing up).inflightOf 4 = 0 ∧ (withTi .quiescing up).workOf 4 = 0) ∧
    (let s := withTi .offline adm; s.pairsOf 4 ≤ 256 ∧ 256 ≤ s.pairsLeft 4 ∧ s.vectorUsed 4 257 = false) := by
  unfold ItsTurn ManagerReady; decide

theorem test_witness_RemoveTakesTheTenantAway :
    (∀ st ∈ [TiState.quiesced, .frozen, .offline], let s := withTi st adm; ItsTurn s hm ∧ (s.tenant 4).isSome = true ∧ s.flrOf 4 = false ∧
      s.slotNames 4 = false) ∧ adm.tenant 4 = none := by
  unfold ItsTurn ManagerReady; decide

theorem test_witness_RemovingAnUnsavedSourceFails : ∀ saved : Bool,
    let s := { adm with tenants := [{ tenantIn .frozen with saved := saved }] }
    ItsTurn s hm ∧ s.tenant 4 = some { tenantIn .frozen with saved := saved } ∧ s.flrOf 4 = false := by
  unfold ItsTurn ManagerReady; decide

/-- A migration session, and a blob of TI 4 for a package that nothing has named yet. -/
def mig0 : MigSession := ⟨2, false, true, 6, 0, some 11, [.getDigests]⟩
def blob0 : Blob := ⟨true, 1, 0, 0, 4, 0, 0, 0, 0, 11, true, familyCode, tdesc0, false, [], [], [], [], [], 0, []⟩
def withMig (s : State) : State := { s with migs := [mig0] }

theorem test_witness_MigrationSavesAndRestores :
    (let s := withMig adm; ItsTurn s hm ∧ s.migFree 2 = true ∧ s.mig 2 = some mig0 ∧ mig0.outbox = [.getDigests]) ∧
    (ItsTurn adm hm ∧ adm.migFree 7 = true ∧ adm.mig 7 = none) ∧
    (let s := withMig (withTi .frozen adm); s.tenant 4 = some (tenantIn .frozen) ∧ s.flrOf 4 = false ∧ mig0.established = true ∧
      (∀ p ∈ s.nvm.faultPairs, p.1 ≠ 4) ∧ s.entropyOk = true) ∧
    (let s := { withMig adm with wearRateMax := 1000 }; s.tiState 9 = .absent ∧ s.flrOf 9 = false ∧
      (s.restoreFails 2 blob0 tdesc0 [] (tenantOf 9 false tdesc0)) = none ∧
      (s.restoreFails 2 { blob0 with intact := false } tdesc0 [] (tenantOf 9 false tdesc0)).isSome = true) := by
  unfold ItsTurn ManagerReady; decide

theorem test_witness_KeysEnterAndLeaveTheirSlots :
    (ItsTurn adm hm ∧ adm.keyRefused 4095 1 = none ∧ adm.entropyOk = true ∧ adm.keyRefused 4096 0 = some krBadSlot ∧
      (adm.keySlot 4097).generation < 0xFFFF ∧ (4607 : Nat) ≤ 4607) ∧
    (let s := adm.modNvm fun v => { v with keys := (4097, ⟨.active, 2, 1, 0, 0⟩) :: v.keys }; ItsTurn s hm ∧ s.keyRefused 0 0 = none ∧
      (s.keySlot (4097 + 16 % 16)).state ≠ .empty) ∧
    (let s := adm.modNvm fun v => { v with keys := (4095, ⟨.active, 0, 3, 9, 0⟩) :: v.keys }; ItsTurn s hm ∧ (4095 : Nat) < 4096 ∧
      (s.keySlot 4095).state = .active ∧ s.boundAttached 4095 = false ∧ (withNs freeNs s).bindRefused 4095 1 = none ∧
      (withNs freeNs s).ns 1 = some freeNs) ∧
    (let s := { adm with spdmSessions := [⟨7, .doe 0, true, 0⟩] }; ItsTurn s hm ∧ s.doeSession 7 = true) ∧
    (bound .retiring).keySlot 5 = ⟨.retiring, 1, 3, 9, 0⟩ ∧ (∀ w ∈ (bound .retiring).slotWaits, w.slot ≠ 5) := by
  unfold ItsTurn ManagerReady; decide

/-- A slice 0 whose key context of slot 5 is due. -/
def counted : State := at_ 200000 (inSlice 0 (fun x => { x with counters := [⟨5, 200000, true⟩] }) up)

theorem test_witness_EntropyAndTheCounterRing :
    (let s := { adm with entropyOk := false }; ItsTurn s hm ∧ s.keyRefused 0 0 = none ∧ s.entropyOk = false) ∧
    (0 < up.slices.length) ∧ (counted.groupMay = true ∧ counted.dueRecords = [(0, 5, 200000)]) ∧
    ({ counted with groupRecs := some [(0, 5, 200000)] } : State).groupRecs = some [(0, 5, 200000)] := by
  unfold ItsTurn ManagerReady; decide

/-- A Store that is BUSY, of the manager's command. -/
def storing : State := { adm with storeHdr := some (some hm) }

theorem test_witness_StoresWriteTheOtherBank :
    (ItsTurn adm hm ∧ adm.storeHdr = none ∧ adm.nvm.tokens ≠ 0) ∧
    (adm.modNvm fun v => { v with tokens := 0 }).nvm.tokens = 0 ∧
    (ManagerReady storing hm ∧ storing.storeHdr = some (some hm) ∧ (262144 : Nat) ≤ 262144 ∧ 320 ≤ storing.nvm.spareLeft ∧
      (262144 : Nat) < 262145 ∧ storing.nvm.spareLeft < 321 ∧ storing.storeNext = [] ∧ (storing.inFlight hm).isSome = true) := by
  unfold ItsTurn ManagerReady; decide

/-- A message of 64 bytes declared, none arrived, at instance 3. -/
def digesting : State := { up with digests := [(3, ⟨ownerPf, 1, none, 64, 0, [], .buffer 4096⟩)] }

theorem test_witness_DigestsRunFromOpenToDelivery :
    (up.digestCheck (dgNo (.inst 3)) ownerPf 1 none 64 (.buffer 4096) = 0 ∧ up.digestCheck (dgNo (.inst 3)) ownerPf 1 none 0 (.buffer 4096) ≠ 0) ∧
    (digesting.digestMsg (dgNo (.inst 3)) = some ⟨ownerPf, 1, none, 64, 0, [], .buffer 4096⟩ ∧ 0 + (List.replicate 64 (0 : Byte)).length ≤ 64 ∧
      (List.replicate 64 (0 : Byte)).length % digestBlock 1 = 0 ∧ 64 < 0 + (List.replicate 65 (0 : Byte)).length) := by decide

/-- MS_EXT_IDX set, and some entries in the log. -/
def measuring (ix logged : Nat) : State := { up.putF Adr.msExtIdx 4 0 ix with measLog := List.replicate logged ⟨0, 0, 0, 0, 0⟩ }

set_option maxRecDepth 8000 in
theorem test_witness_MeasurementsExtend :
    (∀ ix ∈ [16, 31], (measuring ix 959).meas.length = 32 ∧ 16 ≤ (measuring ix 959).fld Adr.msExtIdx 4 0 ∧
      (measuring ix 959).bit Adr.msExtSts 31 = false ∧ (measuring ix 959).measLog.length ≤ 959) ∧
    (measuring 15 0).fld Adr.msExtIdx 4 0 < 16 ∧ 960 ≤ (measuring 16 960).measLog.length ∧
    (up.setBit Adr.msExtSts 31).bit Adr.msExtSts 31 = true := by decide

/-- An object namespace whose index has one bucket, so that the place of a key does not depend on the hash. -/
def objNs : Namespace := { nsOf .object with desc := { desc0 with indexLog2 := 0 }, parts := [⟨0, 0, 64, 0, 0, 0⟩] }
def key1 : KvKey := ⟨2, [0x61, 0x62]⟩

theorem place_objNs (k : KvKey) : ∃ r, r < 2 ∧ placeKey objNs k = ⟨0, r, 0, 1, 0, 0, 64⟩ :=
  ⟨(Config.xxh64 (leBytes 4 1 ++ k.bytes)).toNat / 2 ^ 55 % 2, Nat.mod_lt _ (by decide), by simp [placeKey, objNs, nsOf, desc0, Nat.mod_one]⟩

/-- The package with that namespace and one object command fetched; with an object of 3 bytes under the key. -/
def objIo : State := withNs objNs io
def entry1 : IndexEntry := ⟨1, key1, .live, 4, 0⟩
def rec1 : ObjRecord := ⟨0, 1, key1, 0, 4, [7, 8, 9], [], 3, [], 0⟩
def objHeld : State := inSlice 0 (fun x => { x with index := [(0, entry1)], objects := [(0, rec1)] }) objIo

theorem test_witness_ObjectCommandsOnOneKey :
    (ServesKey objIo hi 1 objNs key1 ∧ ∀ e ∈ (objIo.slice 0).index, e.2.holds 1 (keyNorm key1) = true → e.2.state ≠ .live) ∧
    (let q := placeKey objNs (keyNorm key1);
      ServesKey objHeld hi 1 objNs key1 ∧ objHeld.slices.length = 8 ∧
      (probeFor (objHeld.slice q.slice).index 1 (keyNorm key1) q.probes).isSome = true ∧
      (objHeld.lookup q objNs (keyNorm key1)).1 = some 0 ∧ (objHeld.slice q.slice).recordAt 0 = some rec1 ∧ 3 ≤ rec1.value.length ∧
      ((objHeld.lookup q objNs (keyNorm key1)).2.readObject q.slice rec1 3 (min 16 (rec1.value.length - 3))).toOption.isSome = true ∧
      mapGet (objHeld.slice q.slice).index 0 = some entry1) ∧
    (Serves objHeld hi 1 objNs .object ∧ (∀ p ∈ objNs.parts, objHeld.nsUp objNs p.slice = true) ∧ key1.len ≤ 16 ∧
      objHeld.behindKey hi 1 (keyNorm key1) = false) := by
  unfold ServesKey Serves
  obtain ⟨r, hr, e⟩ := place_objNs (keyNorm key1)
  rw [e]
  obtain rfl | rfl : r = 0 ∨ r = 1 := by omega
  all_goals decide

/-- An ingest of the key that expects a segment, of two or three in all. -/
def ingest1 (next total : Nat) : Ingest := ⟨1, 1, key1, ownerPf, 1, 0, total, next, [], [], none, false⟩
def ingesting (next total : Nat) : State := inSlice 0 (fun x => { x with ingests := [ingest1 next total] }) objIo
/-- Physical function 0 writes under Through rules. -/
def plain (s : State) : State := s.modCtrl 1 fun k => { k with wce := false }

theorem test_witness_StoresCommitTheirObjects :
    (let s := plain objIo; let q := placeKey objNs (keyNorm key1); ServesKey s hi 1 objNs key1 ∧ s.slices.length = 8 ∧
      (∀ total ∈ [3, 1048577], (match (s.lookup q objNs (keyNorm key1)).2.openStore objNs (keyNorm key1) q .none total ownerPf
          (s.lookup q objNs (keyNorm key1)).1 with
        | .ok o => (s.lookup q objNs (keyNorm key1)).2.objectRoom hi objNs q.slice (max o.luas.length 17) &&
          (s.lookup q objNs (keyNorm key1)).2.waitsOf (ctrlOwner hi.ctrl) == [] &&
          ((s.lookup q objNs (keyNorm key1)).2.freePlace (ctrlOwner hi.ctrl) objNs.desc.fixity q.slice true).isSome
        | .error _ => false) = true)) ∧
    (∀ p ∈ [(1, 1048577), (1, 2097153)], let s := plain (ingesting p.1 p.2); let q := placeKey objNs (keyNorm key1);
      ServesKey s hi 1 objNs key1 ∧ (s.slice q.slice).ingestOf 1 (keyNorm key1) = some (ingest1 p.1 p.2) ∧
      s.objectRoom hi objNs q.slice (s.segSlots q.slice [1]) = true) ∧
    (ingest1 1 1048577).nextSeg + 1 = segCount 1048577 ∧ (ingest1 1 2097153).nextSeg + 1 ≠ segCount 2097153 ∧
    (objIo.slice 0).ingestOf 1 (keyNorm key1) = none := by
  unfold ServesKey Serves
  obtain ⟨r, hr, e⟩ := place_objNs (keyNorm key1)
  rw [e]
  obtain rfl | rfl : r = 0 ∨ r = 1 := by omega
  all_goals decide

/-- The stream of slice index 0 up to bucket 1, pinned at place 0. -/
def pin1 (lost : Bool) : Pin := ⟨1, 0, 1, 0, if lost then none else some 0, none, lost⟩
def pinned (lost : Bool) : State := inSlice 0 (fun x => { x with pins := [pin1 lost] }) objHeld

set_option maxRecDepth 8000 in
theorem test_witness_ExportsStreamObjects :
    (Serves objHeld hi 1 objNs .object ∧ objNs.parts[0 / 2 ^ 61 % 8]? = some ⟨0, 0, 64, 0, 0, 0⟩ ∧ objHeld.nsUp objNs 0 = true ∧
      (objHeld.slice 0).pinOf 1 0 1 = none ∧ objNs.desc.fixity = 0 ∧ objHeld.exportList 0 objNs ⟨0, 0, 64, 0, 0, 0⟩ 0 1 none = [(0, 0)] ∧
      (objHeld.exportEntry 0 rec1).toOption.isSome = true ∧ (1 : Nat) % 2 ^ 32 ≠ 0 ∧ 1 / 2 ^ 32 % 4 = 0) ∧
    (∀ lost : Bool, Serves (pinned lost) hi 1 objNs .object ∧ ((pinned lost).slice 0).pinOf 1 0 1 = some (pin1 lost) ∧
      (pin1 lost).lost = lost ∧ (pin1 lost).pos = 4 * (1 / 2 ^ 36 % 2 ^ 25) + 1 / 2 ^ 34 % 4 ∧ (pinned lost).ns 1 = some objNs) ∧
    (exportRun 0 1 512 0 ((pinned false).exportList 0 objNs ⟨0, 0, 64, 0, 0, 0⟩ 0 1 (some 0)) 1
      (Exporting.mk [] [] none none none (pinned false))).failed.isNone = true ∧
    (exportRun 0 1 512 0 (objHeld.exportList 0 objNs ⟨0, 0, 64, 0, 0, 0⟩ 0 1 none) 0 (Exporting.mk [] [] none none none objHeld)).failed.isNone = true ∧
    objNs.parts[2 ^ 61 / 2 ^ 61 % 8]? = none := by
  unfold Serves
  decide

/-- A computational namespace with a program of 8 bytes of which 4 have come at index 16, and one that is verified at index 63. -/
def compNs : Namespace := { nsOf .computational with
  programs := [⟨16, .ebpf, 8, [1, 2, 3, 4], false, false⟩, ⟨63, .ebpf, 8, [1, 2, 3, 4, 5, 6, 7, 8], true, true⟩] }
def compIo : State := withNs compNs io
/-- An invocation of a program, whose command is dispatched. -/
def inv1 (index : Nat) : Invocation := ⟨0, hi, 0, ownerPf, 1, index, [], [], 4096, 128, 0, none, [], none⟩
def invoked (index : Nat) : State := { compIo with invocations := [inv1 index], nextInv := 1 }

theorem test_witness_ProgramsLoadActivateAndRun :
    (Serves compIo hi 1 compNs .computational ∧ [1, 2, 3, 4].length + [(5 : Byte), 6, 7, 8].length ≤ 8 ∧ 8 ≤ imageLimit .ebpf ∧
      compNs.program 16 = some ⟨16, .ebpf, 8, [1, 2, 3, 4], false, false⟩ ∧ imageLimit .ebpf < 262145 ∧
      ((compNs.program 16).all fun p => p.image.length != 5) = true ∧ (compNs.program 63).any Program.verified = true ∧
      (compNs.program 16).filter Program.verified = none) ∧
    (compNs.parts.head? = some ⟨0, 0, 16, 0, 0, 0⟩ ∧ compIo.sliceUp 0 = true ∧ compIo.available compNs 0 63 = true ∧
      compIo.available compNs 0 16 = false ∧ ([] : List MemRange).all (compIo.rangeOk 0 (ctrlOwner hi.ctrl)) = true ∧
      compIo.active (UnitId.cluster 0 3) = true ∧ compIo.mayFlow 0 3 (ctrlOwner hi.ctrl) = true ∧ compIo.maySlot 0 3 (ctrlOwner hi.ctrl) = true) ∧
    ((invoked 16).invocation 0 = some (inv1 16) ∧ (inv1 16).ends .fault 0 = some (.fault, 0) ∧ ((invoked 16).inFlight hi).isSome = true) ∧
    ((invoked 0).invocation 0 = some (inv1 0) ∧ (inv1 0).ends .returned 0 = some (.returned, 0)) := by
  unfold Serves; decide

/-- A memory namespace of 64 KiB at the start of slice-local memory; its first line poisoned. -/
def memIo : State := withNs (nsOf .memory) io
def memBad : State := inSlice 0 (fun x => { x with drams := x.drams.map fun d => { d with poisoned := [0] } }) memIo

theorem test_witness_MemoryCommandsMoveBytes :
    (let x := nsOf .memory; Serves memIo hi 1 x .memory ∧ 65535 + 1 ≤ x.size * 4096 ∧ memIo.sliceUp x.memPlace.1 = true ∧
      memIo.memPoisoned x.memPlace.1 (x.memPlace.2 + 65535) 1 = false ∧ memIo.slices.length = 8 ∧ x.size * 4096 < 65536 + 1) ∧
    (let x := nsOf .memory; Serves memBad hi 1 x .memory ∧ memBad.memPoisoned x.memPlace.1 (x.memPlace.2 + 0) 64 = true) ∧
    ((memIo.copyBytes hi 0 (.memory 1 0 4)).toOption = some [0, 0, 0, 0]) := by
  unfold Serves; decide

theorem test_witness_ManagementRequestsAreAnswered :
    (up.miReady .smbus = true ∧ State.reset.miReady .i3c = false ∧ ManagerReady adm hm ∧ up.held = false) ∧
    (let s := fetched ha (hostOn 6 (withTi .online up)); s.runnable ha = true ∧ isManager ha.ctrl = false) ∧
    (let s : State := { adm with mgmt := { adm.mgmt with inband := some (miStatus 0), out := some (.smbus, miStatus 0) } }
     ManagerReady s hm ∧ s.mgmt.inband = some (miStatus 0) ∧ s.mgmt.out = some (.smbus, miStatus 0)) ∧
    adm.mgmt.inband = none := by
  unfold ManagerReady; decide

/-- The mailbox of port 0 after some steps of its negotiation, and sessions over it. -/
def doe (stage : Nat) (sessions : List SpdmSession) : State :=
  { up with spdmPeers := [⟨.doe 0, stage⟩], spdmSessions := sessions }
def doeQ (n : Nat) (est : Bool) : SpdmSession := ⟨n, .doe 0, est, 0⟩

theorem test_witness_TheSpdmResponderNegotiatesAndProves :
    (∀ k ∈ [0, 1, 2, 3], (doe k []).doePort 0 = true ∧ (doe k []).spdmStage (.doe 0) = k) ∧ { up with dual := true }.doePort 1 = true ∧
    (doe 3 []).entropyOk = true := by decide

theorem test_witness_SpdmSessionsOpenAndEnd :
    ((doe 3 []).freeSession = some 0 ∧ (doe 3 ((List.range 7).map (doeQ · true))).freeSession = some 7 ∧
      (doe 3 ((List.range 8).map (doeQ · true))).freeSession = none) ∧
    (∀ est : Bool, (doe 3 [doeQ 7 est]).doePort 0 = true ∧ (doe 3 [doeQ 7 est]).session (.doe 0) 7 = some (doeQ 7 est)) ∧
    (doe 3 []).session (.doe 0) 7 = none ∧
    (let s := { up with migs := [⟨2, false, false, 4, 0, none, []⟩] };
      s.held = false ∧ s.migFree 2 = true ∧ s.mig 2 = some ⟨2, false, false, 4, 0, none, []⟩ ∧ PeerOk ⟨true, true, 5⟩ = true) := by
  decide

/-- An item of TI 4 that runs in slot 1023, with some emits staged, beside a context, a flow and an idle slot of TI 4, and slot 6 of TI 5. -/
def it0 : ItemRef := ⟨0, 3, 1023⟩
def item0 (emits : Nat) (startedAt : Nat) : WorkItem :=
  { itemNew 1023 0 0 4 (some 6) none none 0 0 none with
    state := .running, core := some 9, startedAt := startedAt, emits := List.replicate emits (.send 5 0 0 0, false) }
def ctx0 (ops : Nat) : Ctx := ⟨4, 1, 0, 4, none, 0, 3, ops, 0, 0, 0, 0, 0, 0, 0, 0, cipherIdle, streamIdle⟩
def sched (emits startedAt : Nat) : State :=
  inSlice 0 (fun x => { x with
    contexts := [(4, ctx0 1)]
    clusters := modAt x.clusters 3 fun k => { k with
      items := [(5, itemNew 5 0 0 4 none none none 0 15 none), (6, itemNew 6 0 0 5 none none none 0 15 none), (1023, item0 emits startedAt)]
      flows := [(2, ⟨2, 4, 0, 0, false⟩)] } }) (withTi .online up)

theorem test_witness_PrimitivesOfARunningItem :
    (∀ k ∈ [0, 7, 8], (sched k 127).running it0 = some (item0 k 127) ∧ (item0 k 127).wslot = it0.wslot ∧
      (sched k 127).translatedItem (item0 k 127) = false) ∧
    (let s := sched 0 127; s.holdsSlot it0 4 5 = true ∧ s.holdsSlot it0 4 6 = false ∧ s.holdsSlot it0 4 1022 = false ∧ s.holdsCtx it0 4 4 = true ∧
      s.holdsCtx it0 4 9 = false ∧ s.holdsFlow it0 4 2 = true ∧ s.holdsFlow it0 4 3 = false ∧ descInRange (.engine 0 4 0 5 3) = true ∧
      descInRange (.dma 16 0 0 1) = false ∧ descInRange (.dma 15 0 0 (2 ^ 24)) = true ∧ s.waits it0 4 = false ∧
      s.maySlot 0 3 4 = true ∧ s.mayFlow 0 3 4 = true ∧ s.mayCtx 0 4 5 = true ∧ (s.slice 0).ctxFree (ctxSpan 5) = some 0 ∧
      (s.cluster 0 3).item 0 = none ∧ (lowestFree 4096 fun g => (mapGet (s.cluster 0 3).flows g).isSome) = some 0) ∧
    (let s := { sched 0 127 with tenants := [{ tenantIn .online with isSealed := true }] };
      s.maySlot 0 3 4 = false ∧ s.mayFlow 0 3 4 = false ∧ s.running it0 = some (item0 0 127)) := by decide +kernel

/-- A cipher operation of 64 bytes under slot 5, and a stream operation of 64 bytes, as they end. -/
def cipher0 (encrypt fenced : Bool) : CipherOp := ⟨0, ownerPf, 5, encrypt, 3, 96, 128, 256, 0, 64, 64, false, 0, 0, 0, false, fenced⟩
def stream0 (arrived : Nat) (fenced : Bool) : CompressOp :=
  ⟨0, 0, 1, false, false, 64, arrived, 100, 40, 0, 0, false, false, false, false, 0, 0, fenced⟩
def engineWork (ctx : Nat) : EngWork := ⟨0, 0, 0, 4, some ctx, .strm ctx, none, 0, 10, 10, 0⟩
def ciphering (running : Bool) (ctr : BitVec 64) : State :=
  (inSlice 0 (fun x => { x with
    contexts := [(4, { ctx0 1 with owner := ownerDev })], counters := [⟨5, ctr, false⟩],
    pipe := { x.pipe with works := if running then [engineWork 4] else [] } }) up).modNvm fun v =>
      { v with keys := (5, ⟨.active, 0, 3, 9, 0⟩) :: v.keys }
/-- A delay entry of an item that waits, due in course 128. -/
def delayed (due : Nat) : State := inSlice 0 (fun x => { x with
  clusters := modAt x.clusters 3 fun k => { k with items := [(5, itemNew 5 0 0 4 none none none 0 15 none)], near := [⟨due, 5, 3⟩] } }) up

theorem test_witness_OperandsBudgetsAndStreamOperations :
    (let s := sched 0 127; s.sliceUp 0 = true ∧ (s.cluster 0 3).item 5 = some (itemNew 5 0 0 4 none none none 0 15 none) ∧
      (itemNew 5 0 0 4 none none none 0 15 none).have4.getLsbD 3 = false ∧ (s.cluster 0 3).item 9 = none) ∧
    (delayed 129).now < 129 ∧ (delayed 128).now = 128 ∧
    (((sched 0 127).running it0).map (fun i => (i.cutAtBudget, i.budgetOver (sched 0 127).now)) = some (false, true) ∧
      ((sched 0 128).running it0).map (fun i => i.budgetOver (sched 0 128).now) = some false) ∧
    (let s := ciphering false 7; s.sliceUp 0 = true ∧ (mapGet (s.slice 0).contexts 4).map (fun k => (k.state, k.kind, k.index)) = some (0, 1, 4) ∧
      s.cipherStatus 0 (cipher0 true false) = 0 ∧ s.opRunning 0 4 = false ∧ s.ctrReady 0 5 = true ∧ s.cipherStatus 0 (cipher0 true true) = 6 ∧
      s.streamStatus 0 4 (stream0 64 false) = 0 ∧ s.streamStatus 0 4 (stream0 63 false) = 2 ∧ s.streamStatus 0 4 (stream0 64 true) = 9) ∧
    (ciphering true 7).opRunning 0 4 = true ∧ (ciphering false (2 ^ 20)).ctrReady 0 5 = false ∧
    (let d : DmaRes := ⟨ownerDev, 0, 4096, 64, none, false, false⟩; up.sliceUp 0 = true ∧ up.slices.length = 8 ∧ up.sdServes 0 15 d.owner = true ∧
      up.ownsMem 0 d.owner d.src d.len = true ∧ up.ownsMem 0 d.owner d.dst d.len = true ∧ up.goodBytes 0 d.src d.len = none) ∧
    { up with tenants := [{ tenantIn .online with isSealed := true }] }.sdServes 0 15 4 = false := by decide

/-- Array 1 of slice 0 with partition 0 of 256 entries, of which the last holds an entry. -/
def searching (valid : Bool) (spent : Nat) : State :=
  (inSlice 0 (fun x => { x with arrays := modAt x.arrays 1 fun a => { a with
    entries := [(255, ⟨5, BitVec.allOnes 128, 9, valid⟩)], spent := [(none, spent)], responses := [77] } }) (delayed 128)).wr (Adr.asPart 0 1 0)
      (BitVec.ofNat 32 (1 * 2 ^ 29 + 1 * 2 ^ 8))

theorem test_witness_SearchesSeeOnlyValidEntries :
    (∀ valid : Bool, let s := searching valid 0; 0 < s.slices.length ∧ 1 < (s.slice 0).arrays.length ∧ s.searchCheck 0 1 0 ownerDev 255 = 0 ∧
      ServesSearches s 0 1 ∧ HasCycles s 0 1 ownerDev 1 ∧ HasCycles s 0 1 ownerDev 2 ∧
      (mapGet (s.array 0 1).entries (s.partBase 0 1 0 + 255)).map SearchEntry.valid = some valid ∧
      mapGet (s.array 0 1).entries (s.partBase 0 1 0 + 0) = none ∧ s.ownsMem 0 ownerDev 0 16 = true) ∧
    (let s := searching true 4000; s.searchCheck 0 1 0 ownerDev 0 = 0 ∧ ServesSearches s 0 1 ∧ s.cyclesLeft 0 1 (s.cyclePayer ownerDev) = 0) ∧
    (searching true 0).searchCheck 0 1 0 ownerDev 256 ≠ 0 ∧ (up.array 0 1).responses = [] ∧
    (((searching true 0).array 0 1).responses = [77] ∧
      ((searching true 0).cluster 0 3).item 5 = some (itemNew 5 0 0 4 none none none 0 15 none)) := by
  unfold ServesSearches HasCycles; decide

/-- A NAND of 16 KiB pages, one plane, 4 rows a block, 64 blocks a LUN; an image that lists it. -/
def nand : MediaDesc := ⟨1, 2, 16, 2048, 1, 4, 64, 1, 4, [10000, 20000, 30000], [20000, 40000, 60000], [100000, 300000, 800000],
  [200000, 600000, 1600000], [3000000, 3000000, 3000000], [6000000, 6000000, 6000000], [], 0x84, 0xD2, [], 1, [1000, 100, 30]⟩
def image1 : SeedImage := ⟨true, 4096, true, true, 1, 3, false, true, true, 0x10, 0x3030303030303031, 0, false, 0x100, 0, [0], [], [nand], []⟩
def lun0 (k : Nat) : Lun := ⟨k, true, .good, false, 64, 0, [], [], 0, [], 0, 0, 0, 0⟩
/-- Slice 0 with four LUNs of that NAND. -/
def med : State := inSlice 0 (fun x => { x with descIx := some 0, luns := [0, 64, 128, 192].map lun0 })
  (up.modNvm fun v => { v with flash := [some image1, none] })
/-- A superblock of group 0 in a state: pSLC, four rows; its pages up to due given to the flash. -/
def super0 (st : SbState) (fill due : Nat) (waiting : List Nat) : Superblock :=
  { newSuper 0 0 .slice .pslc 0 4 0 false false [(0, 5), (1, 6), (2, 7), (3, 8)] with
    state := st, fill := fill, due := due, waiting := waiting, verifyAt := due }
/-- An array operation on LUN 0, block 5, busy until course 100. -/
def work0 (op : FlOp) (stage : FlStage) (why : FlFor) : FlWork :=
  ⟨0, 0, 5, 0, op, .pslc, 0, why, none, 100, 0, stage, none, 0, 100, none, 0, 0⟩
/-- A version that streams to the start of superblock 0; a stored unit there. -/
def streaming (through : Bool) (attempts : Nat) : Version :=
  { version0 with state := .streaming, slen := 16384, through := through, attempts := attempts, acked := if through then [] else [0] }
def unit0 : StoredUnit := ⟨0, 80, 0, 4, 0, ownerPf, 1, 0, 0, 16384, 0, 0, 4096, 0, [(0, 5)], none, true, true, 0⟩
def medWith (works : List FlWork) (sbs : List Superblock) (vs : List Version) (us : List StoredUnit) : State :=
  inSlice 0 (fun x => { x with
    flash := { x.flash with works := works, nextWork := 1 }
    supers := sbs
    nextSb := 1
    versions := vs
    units := us
    map := vs.map fun v => (v.index, Entry.buffer v.wslot) }) med

theorem test_witness_SlicesAreFormattedAndKeptHealthy :
    (med.held = false ∧ med.hasSlice 0 = true ∧ med.slices.length = 8 ∧ med.fld (Adr.ftFmtSts 0) 31 28 ≠ 1 ∧ med.formatCheck 0 2 = 1 ∧
      med.formatCheck 0 3 = 1 ∧ up.formatCheck 0 0 ≠ 1 ∧ (med.putF (Adr.ftFmtSts 0) 31 28 1).fld (Adr.ftFmtSts 0) 31 28 = 1) ∧
    (let s := inSlice 0 (fun x => { x with formatting := some 2 }) med; s.held = false ∧ (s.slice 0).formatting = some 2 ∧ s.desc 0 = some nand) ∧
    ((med.putF (Adr.flChSts 0 7) 2 0 1).mediaOn 0 = true ∧ (med.putF (Adr.flChSts 0 7) 2 0 1).fld (Adr.flChSts 0 7) 2 0 = 1 ∧
      (med.putF (Adr.flChSts 0 7) 2 0 3).fld (Adr.flChSts 0 7) 2 0 = 3) ∧
    (let s := medWith [work0 .program .busy .reserve] [] [] []; s.mediaOn 0 = true ∧
      ((s.slice 0).workOn 0 fun v => v.stage == .busy && v.polled.isNone && decide (v.pollAt ≤ s.now)) = some (work0 .program .busy .reserve) ∧
      (s.slice 0).lun 0 = some (lun0 0) ∧ (s.slice 0).workOn 0 (s.overdue nand) = some (work0 .program .busy .reserve)) ∧
    ((med.slice 0).workOn 0 (med.overdue nand) = none ∧ (lun0 0).health ≠ .failed ∧ (lun0 0).health ≠ .evacuated) ∧
    (med.sliceUp 0 = true ∧ (lun0 0).good = true ∧ (lun0 0).active = true ∧ (med.slice 0).evacuating = none) ∧
    (∀ b : Bool, let s := (inSlice 0 (fun x => { x with luns := [{ lun0 0 with health := .warn }] }) med).putBit (Adr.ftEvacCtl 0) 30 b;
      (s.slice 0).lun 0 = some { lun0 0 with health := .warn } ∧ s.bit (Adr.ftEvacCtl 0) 30 = b ∧ (s.slice 0).evacuating = none) ∧
    (let s := inSlice 0 (fun x => { x with evacuating := some 0 }) med; (s.slice 0).evacuating = some 0 ∧ s.bytesOn 0 0 = 0) ∧
    (let s := inSlice 0 (fun x => { x with evacuating := some 0, map := [(0, unit0.entry)] }) (medWith [] [super0 .verified 16640 2 []] [] [unit0]); s.bytesOn 0 0 ≠ 0) := by
  decide

theorem test_witness_VersionsGoToFlashAndAreChecked :
    (let s := at_ 100000000 (medWith [] [] [version0] []); s.mediaOn 0 = true ∧ (s.slice 0).version 3 = some version0 ∧ version0.state = .wopen ∧
      version0.openedAt + s.ageCourses 0 ≤ s.now) ∧
    (let b := super0 .sopen 100 0 []; let s := at_ 100000000 (medWith [] [b] [] []); s.desc 0 = some nand ∧ (s.slice 0).super 0 = some b ∧
      b.fill % max 1 (b.pageBytes nand) ≠ 0 ∧ b.filledAt + s.ageCourses 0 ≤ s.now) ∧
    (let b := super0 .sopen 16640 2 [0]; let v := streaming false 0; let s := medWith [work0 .program (.ended true) (.page 0 0)] [b] [v] [];
      (s.slice 0).endedOn 0 .program true = some (work0 .program (.ended true) (.page 0 0)) ∧ (s.slice 0).super 0 = some b ∧
      ({ b with waiting := b.waiting.filter (· != 0) } : Superblock).written nand v.start (unitBytes v.slen) = true ∧
      (s.slice 0).versions = [v] ∧ (s.slice 0).moves = [] ∧ (s.slice 0).entry v.index = .buffer v.wslot) ∧
    (∀ p ∈ [(false, 0), (true, 2)],
      let b := super0 .sopen 16640 2 [0]; let v := streaming p.1 p.2; let s := medWith [work0 .program (.ended false) (.page 0 0)] [b] [v] [];
      s.mediaOn 0 = true ∧ (s.slice 0).endedOn 0 .program false = some (work0 .program (.ended false) (.page 0 0)) ∧ (s.slice 0).lun 0 ≠ none ∧
      0 ∈ b.waiting ∧ ((b.pageAt 0).map fun q => (q.1, q.2.1)) = some (0, 5) ∧ ((s.slice 0).lun 0).all (fun l => l.failedBlocks.length < 15) = true ∧
      (s.slice 0).version 3 = some v ∧ (∀ z ∈ (s.slice 0).versions, z.wslot = v.wslot → z = v) ∧ 0 ∈ b.span nand v.start (unitBytes v.slen)) ∧
    (medWith [work0 .erase (.ended false) (.block 0)] [] [] []).mediaOn 0 = true ∧
    (((medWith [work0 .erase (.ended false) (.block 0)] [] [] []).slice 0).endedOn 0 .erase false).isSome = true ∧
    (delayed 128).mediaOn 0 = true ∧ ((delayed 128).cluster 0 3).item 5 = some (itemNew 5 0 0 4 none none none 0 15 none) ∧
    (let b := super0 .verifying 16640 2 []; let s := medWith [] [b] [] []; (s.slice 0).super 0 = some b ∧ (s.slice 0).verifyRead b = true ∧
      0 ≤ s.fld (Adr.ftVerifyCfg 0) 9 0) ∧
    (let b := super0 .verified 16640 2 []; let s := medWith [] [b] [] [unit0]; s.desc 0 = some nand ∧ (s.slice 0).super 0 = some b ∧
      (s.slice 0).sbWithdrawn b = false ∧ s.fld (Adr.ftVerifyCfg 0) 9 0 < 1023 ∧ s.unitsAt 0 0 0 = [unit0]) := by
  decide +kernel

/-- DRAM channel 1 of slice 0 in a state. -/
def dramIn (st : Nat) : State := up.putF (Adr.dmChSts 0 1) 2 0 st

theorem test_witness_DramChannelsTrainServeAndAreFenced :
    (∀ st ∈ [0, 4, 5], (dramIn st).dramThere 0 1 = true ∧ (dramIn st).dramState 0 1 = st ∧ (dramIn st).fenceOf (UnitId.dramCh 0 1) = none ∧
      (dramIn st).hasSlice 0 = true ∧ 1 < ((dramIn st).slice 0).drams.length ∧ (dramIn st).slices.length = 8) ∧
    (up.held = false ∧ up.course.running = true ∧ up.dramThere 0 0 = true ∧ State.reset.held = true) ∧
    (let s := inSlice 0 (fun x => { x with drams := x.drams.map fun d => { d with due := true } }) up; (s.dram 0 1).due = true) ∧
    (up.dram 0 1).due = false ∧
    (let s := inSlice 0 (fun x => { x with merges := [⟨1, 9, [(0, 1)], 100⟩] }) up;
      (s.slice 0).merges.find? (fun m => m.ch == 1 && m.burst == 9) = some ⟨1, 9, [(0, 1)], 100⟩) ∧
    up.fld (Adr.dmScrubSts 0) 31 30 ≠ 1 ∧ (up.putF (Adr.dmScrubSts 0) 31 30 1).fld (Adr.dmScrubSts 0) 31 30 = 1 := by decide

/-- Digest instance 15 fenced for fault so often. -/
def fencedDg (times : Nat) : State := { up with fences := [(UnitId.digest 15, .forFault)], fenceCounts := [(UnitId.digest 15, times)] }
/-- A test of it under way. -/
def tested : State := { fencedDg 1 with test := some (UnitId.digest 15) }

theorem test_witness_FencesTestsAndOfflineSlices :
    (up.built (UnitId.digest 15) = true ∧ (UnitId.digest 15).kind ≠ 0xC) ∧
    (up.slices.length = 8 ∧ up.hasSlice 7 = true ∧ (up.slice 7).mode ≠ .off ∧ (up.slice 7).mode ≠ .offline) ∧
    (let u := UnitId.digest 15; let s := fencedDg 2; s.test = none ∧ s.testPresent ⟨u.kind, u.slice, u.number⟩ = true ∧ s.fenceTimes u < 3 ∧
      s.lastPath u = false) ∧
    ((fencedDg 3).testPresent (UnitId.digest 15) = true ∧ 3 ≤ (fencedDg 3).fenceTimes (UnitId.digest 15) ∧
      (fencedDg 3).fenceOf (UnitId.digest 15) = some .forFault) ∧
    (up.testPresent ⟨0x20, 0xFF, 16⟩ = false) ∧
    (let s := { up with fences := [(UnitId.pipe 0 0, .forFault), (UnitId.byteSerial 0, .forFault)] }; s.testPresent (UnitId.pipe 0 1) = true ∧
      s.lastPath (UnitId.pipe 0 1) = true) ∧
    (let s := up.wr (Adr.ckBondActive 64) (BitVec.ofNat 32 (2 ^ 14 + 4)); s.testPresent ⟨0x21, 0xFF, 3⟩ = true ∧ s.lastPath ⟨0x21, 0xFF, 3⟩ = false ∧
      s.rowHasSlot 64 = true) ∧
    (tested.test = some (UnitId.digest 15) ∧ tested.built (UnitId.digest 15) = true ∧ testable (UnitId.digest 15).kind = true) := by decide

/-- Pool channel 31 with a transfer of some beats for a command of physical function 0. -/
def transfer0 (beats : Nat) : Transfer := ⟨2, false, ownerPf, some hi, [⟨4096, 64, 15, 15⟩], beats, 0⟩
def moving (beats : Nat) : State := { posting [] with hd := modAt State.reset.hd 31 fun c => { c with cur := some (transfer0 beats), creditIn := 64 } }
/-- Only channel 31 serves any kind of the pool. -/
def onlyLast : State := (List.range 27).foldl (fun s k => s.wr (Adr.hdChCtl (4 + k)) 0) up
/-- A stop with suspects 4 and 31, the probe at 4. -/
def stopped (sus : Nat) : State :=
  ((moving 2).wr Adr.hdSts (BitVec.ofNat 32 (2 ^ 31 + sus))).wr Adr.hdSuspect (BitVec.ofNat 32 (2 ^ 31 + 2 ^ 4))

theorem test_witness_HostDmaMovesBeatsAndFindsCulprits :
    (∀ b ∈ [1, 2], ((moving b).hdCh 31).cur = some (transfer0 b) ∧ (moving b).hdMay false 31 = true ∧ ((moving b).hdPosition [31]).isSome = true ∧
      (moving b).parks = [] ∧ (moving b).hdQueue = [] ∧ ((moving b).inFlight hi).isSome = true ∧ (transfer0 b).owner < 512) ∧
    (moving 1).hdPosition [] = none ∧ (up.hdCh 31).cur = none ∧ up.bit Adr.hdCfg 0 = true ∧ (up.clrBit Adr.hdCfg 0).bit Adr.hdCfg 0 = false ∧
    ((∀ m ∈ [4, 31], 4 ≤ m ∧ m < 32) ∧ up.bit Adr.hdSts 31 = false ∧ (stopped 4).bit Adr.hdSts 31 = true) ∧
    ((stopped 4).fld Adr.hdSts 4 0 = 4 ∧ (stopped 4).bit Adr.hdSuspect 31 = true ∧ (∀ j < 31, 4 < j → (stopped 4).bit Adr.hdSuspect j = false)) ∧
    ((stopped 31).fld Adr.hdSts 4 0 = 31 ∧ ((stopped 31).hdCh 31).cur = some (transfer0 2) ∧ ((stopped 31).inFlight hi).isSome = true) ∧
    (up.hd.length = 32 ∧ up.hdCtlBad 31 0x3F = false ∧ onlyLast.hdCtlBad 31 0 = true) := by
  decide

/-- A loop closed at the unit that its CTL names. -/
def loop (n src : Nat) (s : State) : State := s.wr (Adr.pwLoopCtl n) (BitVec.ofNat 32 (2 ^ 31 + src * 2 ^ 29))

theorem test_witness_SupplyEventsAndLoopSamples :
    (up.power.sag = false ∧ up.dumping = false) ∧ (up.modPower fun p => { p with sag := true }).power.sag = true ∧
    (mode modeDump up).dumping = true ∧ up.feCounts 15 = false ∧ up.hasSlice (15 / 2) = true ∧ up.hasSlice (16 / 2) = false ∧
    (up.senseOut 2 4095 = true ∧ up.unhealthy = false ∧ up.senseOut 2 4094 = false) ∧
    (up.course.running = true ∧ up.now % 4 = 0 ∧ up.huMode ≠ modeDown ∧ (at_ 129 up).now % 4 ≠ 0) ∧
    (let s := loop 3 0 up; s.loopClosed 3 = true ∧ s.loopExists 3 = true ∧ s.q (Adr.pwLoopOmin 3) ≤ s.q (Adr.pwLoopOmax 3)) ∧
    (let s := at_ 200000 (loop 1 1 up); s.feCounts 1 = true ∧ (1 : Nat) < 16) := by decide

/-- Hold-up in a mode, with supply conditions. -/
def supply (m : Nat) (sag surge thermal long : Bool) : State :=
  (mode m up).modPower fun p => { p with sag := sag, surge := surge, thermal := thermal, sagLong := long }
/-- A controller that tolerates some latency in each of which its APST takes it. -/
def tolerant (us apst : Nat) (s : State) : State :=
  (hostOn 1 s).modCtrl 1 fun k => { k with latency := us, features := [(0x0C, 1), (0x20C, apst)] }

theorem test_witness_TheSupervisorMovesBetweenItsModes :
    (up.course.running = true ∧ up.now % 16 = 0 ∧ up.minimal = false ∧ ∀ m ∈ [modeOff, modeCharge, modeFloat, modeRide], (mode m up).huMode = m ∧ m ≤ 3) ∧
    (supply modeOff false true false false).power.surge = true ∧
    (supply modeFloat true false true false).power.thermal = true ∧
    (let s := (supply modeOff false false false false).setBit Adr.pwHuCtl 0; s.bit Adr.pwHuCtl 0 = true ∧ s.unhealthy = false ∧ s.huMode = modeOff) ∧
    ((supply modeRide true false false false).setBit Adr.pwSts 4).unhealthy = true ∧
    (supply modeRide true false false true).power.sagLong = true ∧
    ((at_ 129 up).now % 16 ≠ 0 ∧ up.huMode ≠ modeCharge ∧ (mode modeCharge up).huMode = modeCharge) ∧
    (let s := (loop 0 0 (loop 1 0 up)).setBit Adr.pwSts 4; s.unhealthy = true ∧ s.loopClosed 0 = true ∧ s.loopClosed 1 = true ∧
      s.power.senseBad = false) ∧
    (let s := mode modeFloat up; s.huMode = modeFloat ∧ s.power.measuring = false ∧ s.power.sag = false) ∧
    (let s := up.modPower fun p => { p with measuring := true, measureRejects := 1 }; s.power.measuring = true ∧ 2 ≤ s.power.measureRejects + 1 ∧
      (s.stepCap 30000 29000).any (fun c => decide (10000 ≤ c) && decide (c ≤ 100000000)) = true ∧ (s.stepCap 29000 30000).getD 0 < 10000) ∧
    (up.loopExists 15 = true ∧ up.loopClosed 15 = false ∧ (loop 15 0 up).loopClosed 15 = true ∧ up.loopExists 16 = false) ∧
    (let s := mode modeFloat up; s.maySleep = true ∧ s.deepState = some 4 ∧ ∀ x ∈ s.slices, x.versions = []) ∧
    (let s := inSlice 0 (fun x => { x with versions := [version0] }) (mode modeFloat up); s.maySleep = true ∧ s.deepState = some 4 ∧
      (s.slices.any fun x => !x.versions.isEmpty) = true ∧ version0.isOpen = true) ∧
    (let s := tolerant 399999 2 (mode modeFloat up); s.maySleep = true ∧ s.deepState = some 3) ∧
    (let s := tolerant 4999 1 (mode modeFloat up); s.maySleep = true ∧ s.deepState = none) ∧
    up.maySleep = false ∧ up.asleep = false ∧ (up.putF Adr.pwSts 26 24 3).asleep = true := by decide

theorem test_witness_ResetsEndTheWork :
    (let s := inSlice 0 (fun x => { x with versions := [version0] }) (mode modeDump up); s.huMode = modeDump ∧ s.slices.length = 8 ∧ s.held = false ∧
      s.hasSlice 0 = true ∧ (s.slice 0).toLand = [version0] ∧ (0, version0.wslot) ∉ ([] : List (Nat × Nat))) ∧
    (mode modeDump { up with pins := { up.pins with resetN := false } }).held = true ∧ up.huMode ≠ modeDump ∧ up.huMode ≠ modeDown ∧
    (mode modeDown up).huMode = modeDown ∧ (up.held = false ∧ up.dumping = false) ∧ up.nvm.attempt = none ∧ 6 ≤ up.stage ∧
    (let s := (up.modNvm fun v => { v with attempt := some ⟨1, 0, 0, false, false, false, 0, 0, 0, 0, 0⟩ }).putF Adr.stSts 2 0 5;
      s.nvm.attempt.isSome = true ∧ s.minimal = false ∧ s.stage < 6) ∧
    JtagHold .extest = true ∧ JtagHold .idcode = false := by decide +kernel

/-- A package that is powered and held in reset, with an image in slot 0 and perhaps one in slot 1 to boot next. -/
def cold (fail : Nat) (next : Option Nat) (tried : Bool) : State :=
  State.reset.modNvm fun v => { v with flash := [some image1, some image1], failCnt := fail, slots := ⟨0, next, tried⟩ }
/-- The start at a stage, the slices in a mode. -/
def starting (stage : Nat) (m : SliceMode) (s : State) : State :=
  let t : State := { s with slices := s.slices.map fun (x : Slice) => { x with mode := m } }
  t.putF Adr.stSts 2 0 stage

theorem test_witness_TheStartRunsItsSteps :
    (up.pins.resetN = true ∧ up.pins.powered = true) ∧
    (let s := cold 2 none false; s.pins.resetN = false ∧ s.pins.jtagHold = false ∧ s.minimal = false ∧ s.nvm.stateValid = true ∧ s.nvm.failCnt < 3 ∧
      s.nvm.slots.next = none ∧ s.slotHeader s.nvm.slots.active = true) ∧
    ((cold 0 (some 1) false).slotHeader 1 = true ∧ (cold 0 (some 1) false).nvm.slots.tried = false ∧ (cold 0 (some 1) true).nvm.slots.tried = true) ∧
    3 ≤ (cold 3 none false).nvm.failCnt ∧ (State.reset.modNvm fun v => { v with stateValid := false }).nvm.stateValid = false ∧
    (∀ k < 2, State.reset.slotHeader k = false) ∧
    (let s : State := { up with pins := { up.pins with jtagHold := true } }; s.pins.jtagHold = true ∧ s.pins.resetN = true ∧ s.pins.powered = true ∧
      s.dumping = false) ∧
    (let s := starting 1 .off med; s.held = false ∧ s.stage ≤ 1 ∧ s.stage = 1 ∧ s.minimal = false ∧ s.slices.length = 8 ∧ s.slotValid s.start.slot = true) ∧
    (let s := starting 1 .off up; s.slotValid s.start.slot = false ∧ s.slotValid (1 - s.start.slot) = false) ∧
    (2 ≤ up.stage ∧ State.reset.held = true) ∧
    (let s := inSlice 7 (fun x => { x with landed := [version0] }) (starting 3 .released med); s.hasSlice 7 = true ∧ (s.slice 7).mode = .released ∧
      (∀ l ∈ (s.slice 7).luns, l.active = true) ∧ version0 ∈ (s.slice 7).landed) ∧
    (let s := (inSlice 7 (fun x => { x with mode := .rebuilding }) (starting 5 .online med)).putF (Adr.ftSts 7) 2 0 4; (s.slice 7).mode = .rebuilding ∧
      s.fld (Adr.ftSts 7) 2 0 = 4 ∧ 3 ≤ s.stage ∧ s.stage < 6 ∧ ∀ m < 8, m ≠ 7 → (s.slice m).mode = .online) ∧
    (up.slice 7).mode = .online ∧
    (let s := at_ 15384616 (starting 6 .online (up.modStart fun t => { t with readyAt := some 0 })); s.start.readyAt = some 0 ∧ 0 + 15384616 ≤ s.now ∧
      s.dumping = false ∧ s.minimal = false ∧ s.stage = 6) ∧
    (at_ 15384615 up).now < 0 + 15384616 := by decide +kernel

/-- The manager has a firmware command; pieces of an image have come. -/
def loading (pieces : List (Nat × Nat)) : State :=
  adm.modNvm fun v => { v with flash := [some image1, some image1], download := some ⟨image1, pieces, false⟩ }

theorem test_witness_FirmwareIsLoadedCommittedAndSwitched :
    (adm.runnable hm = true ∧ hm.ctrl = 1 ∧ (fetched ha (hostOn 6 (withTi .online up))).runnable ha = true ∧ ha.ctrl ≠ 1) ∧
    (let d : Download := ⟨image1, [(0, 4096)], false⟩; (∃ p ∈ d.pieces, p.1 < 4095 + 1 ∧ 4095 < p.1 + p.2) ∧
      (∀ p ∈ d.pieces, 4096 + 1 ≤ p.1 ∨ p.1 + p.2 ≤ 4096) ∧ d.whole = true) ∧
    (let s := loading [(0, 4096)]; s.nvm.flash.length = 2 ∧ s.nvm.slots.active ≤ 1 ∧ s.nvm.download = some ⟨image1, [(0, 4096)], false⟩ ∧
      s.imageOk image1 = true ∧ s.slotImage 1 = some image1) ∧
    (adm.slotImage 1 = none ∧ adm.nvm.download = none) ∧ (up.start.switching = false ∧ up.imageWaits = false) ∧
    (let s := (med.modNvm fun v => { v with flash := [some image1, some image1], slots := ⟨0, some 1, false⟩ }).modStart fun t =>
        { t with switching := true };
      s.held = false ∧ s.dumping = false ∧ s.start.switching = true ∧ s.anyAcked = false ∧ s.nvm.slots.next = some 1 ∧ s.slotImage 1 = some image1 ∧
      s.imageOk image1 = true ∧ s.imageOk { image1 with svn := 0, sectionsOk := false } = false) := by decide

/-- A frozen recorder, with a minute due or not. -/
def frozen (due : Bool) : State := { up.setBit Adr.evSts 0 with recorder := { State.recorderReset with minuteDue := due } }

theorem test_witness_TheRecorderKeepsItsSeries :
    (up.held = false ∧ up.frozen = false ∧ (frozen true).frozen = true ∧ up.nvm.notices.length ≤ 24576) ∧
    ((at_ 256 up).course.running = true ∧ (at_ 256 up).now % 256 = 0 ∧ up.now % 256 ≠ 0 ∧ (at_ 256 (frozen false)).frozen = true) ∧
    (up.periodic 0xE = true ∧ (up.recorder.series[0xE]?).isSome = true ∧
      ([(0xE, (64 : Int))].filter fun q => up.periodic q.1 && q.1 == 0xE) = [(0xE, 64)]) ∧
    up.recorder.thawAt = none ∧
    (let s : State := { up with recorder := { up.recorder with thawAt := some 0 } };
      s.recorder.thawAt = some 0 ∧ s.now < 0 + coursesOfMs 10000 ∧ (at_ 2564103 s).now ≥ 0 + coursesOfMs 10000) := by decide

theorem test_witness_TheWindowAnswersAndStores :
    (0x4000000 ≤ 0x4000000) ∧ (State.reset.windowOpen = false ∧ up.windowOpen = true) ∧
    ((match up.access (Adr.ckCommitSts) with | .register _ => true | _ => false) = true ∧ Adr.ckCommitSts % 4 = 0 ∧ isLo Adr.ckCommitSts = false) ∧
    ((match up.access Adr.dgErrDeclLo with | .register _ => isLo Adr.dgErrDeclLo | _ => false) = true ∧ isLo (Adr.dgErrDeclLo + 4) = false) ∧
    (let s := up.putF (Adr.ftFmtSts 0) 31 28 1;
      (Adr.ftFmtSts 0 - 0x1000000) % 0x400000 = 0x100058 ∧ bits (s.value (Adr.ftFmtSts 0)) 31 28 = 1) ∧
    ((match (inSlice 0 (fun x => { x with mode := .offline }) up).access (Adr.ftFmtSts 0) with | .offline _ => true | _ => false) = true) ∧
    (up.access 0x3FFFFFC = .reserved ∧ (up.putF Adr.pwSts 26 24 3).access (Adr.ftFmtSts 0) = .asleep ∧
      (up.putF Adr.stSts 2 0 1).access (Adr.ftFmtSts 0) = .early) ∧
    ((match up.access 0xA0000 with | .register _ => true | _ => false) = true ∧ 0xA0000 / 0x10000 ∈ [0, 1, 3, 4, 0xA]) ∧
    ((match (up.setBit Adr.ckCommitSts 7).access 0x91800 with | .register _ => true | _ => false) = true) ∧
    ((match (loop 15 0 up).access (0x80100 + 64 * 15 + 4 * 3) with | .register r => r.rw != 0 | _ => false) = true ∧ (loop 15 0 up).loopClosed 15 = true) ∧
    ¬((8 = 4 ∨ 8 = 8) ∧ 0x90004 % 8 = 0) := by decide


/-! ### Effects on one step: the expected values are read off the rules -/

/-- What the next state of a command shows. -/
def shows {α : Type} (i : Instr) (s : State) (f : State → α) : Option α := (after (exec i s)).map f

/-- The answer that a command in flight has. -/
def answerOf (h : Hdr) (s : State) : Option (Status × Data) := (s.inflight.find? fun x => x.hdr == h).map fun x => (x.answer.status, x.answer.data)

/-- A register of the window is written (R5). -/
theorem test_effect_register_write : shows (.registerWrite 0x90018 5) up (fun s => s.rd 0x90018) = some 5 := by decide
/-- A register that software only reads takes no write (R5). -/
theorem test_effect_register_write_ro : shows (.registerWrite Adr.ckCommitSts 0xFFFFFFFF) up (fun s => s.rd Adr.ckCommitSts) = some 0 := by decide
/-- GO is PENDING until its boundary (R34). -/
theorem test_effect_commit_go : shows .commitGo up (fun s => s.bit Adr.ckCommitSts 7) = some true := by decide
set_option maxRecDepth 8000 in
/-- The course count rises by one at a boundary (R21). -/
theorem test_effect_course_boundary : shows (.courseBoundary []) up (fun s => s.course.count) = some 129 := by decide
/-- A sag is counted; the supervisor acts on it at its next step (R323, R332). -/
theorem test_effect_sag : shows .sagDetect up (fun s => (s.rd Adr.pwSagCnt, s.huMode)) = some (1, up.huMode) := by decide
/-- A block that was never written reads as zeros (R48). -/
theorem test_effect_read_unmapped :
    shows (.read hi 1 3 1) (withNs (nsOf .block) io) (answerOf hi) = some (some (stOk, .blocks [some 0])) := by decide +kernel
/-- A block beyond the namespace is LBA Out of Range (R70). -/
theorem test_effect_read_beyond :
    (shows (.read hi 1 16 1) (withNs (nsOf .block) io) fun s => (answerOf hi s).map (·.1)) = some (some stRange) := by decide
/-- A write that finds no room in the buffer waits in the hub for room, and holds no block (R127). -/
theorem test_effect_write_waits_for_room :
    shows (.write hi 1 3 [7] false) (withNs (nsOf .block) io) (fun s => ((s.slice 0).versions.length, s.inflight.map fun x => (x.phase, x.conds))) =
      some (0, [(.held, [.room])]) := by decide
set_option maxRecDepth 8000 in
/-- A disabled controller is not ready (R65). -/
theorem test_effect_controller_disable :
    shows (.controllerDisable 1) (hostOn 1 up) (fun s => (s.ctrl 1).rdy) = some false := by decide

end Sys2Proof.Tests
end

section
/-!
The statements of 00_scope.md about every command: what it may change, the form it keeps, and the state after reset. They rest on the
frame of each operation (Laws/Frame.lean and the files after it).
-/

namespace Sys2Proof.Proofs

open Sys2Proof.Machine Sys2Proof.Laws

/-! ### The mask of a list of parts -/

theorem ctorIdx_injective : Function.Injective Component.ctorIdx :=
  Function.LeftInverse.injective Component.ofNat_ctorIdx

theorem testBit_foldl_parts (l : List Component) (m : Nat) (c : Component) (h : c ∉ l) (hm : m.testBit c.ctorIdx = false) :
    (l.foldl (fun m c => m ||| 2 ^ c.ctorIdx) m).testBit c.ctorIdx = false := by
  induction l generalizing m with
  | nil => exact hm
  | cons d l ih =>
    obtain ⟨hd, hl⟩ := not_or.mp (mt List.mem_cons.mpr h)
    have hne : d.ctorIdx ≠ c.ctorIdx := fun e => hd (ctorIdx_injective e).symm
    refine ih _ hl ?_
    rw [Nat.testBit_or, hm, Nat.testBit_two_pow_of_ne hne, Bool.false_or]

/-- The bit of a part that is not listed is clear in the mask of the list. -/
theorem testBit_partMask {l : List Component} {c : Component} (h : c ∉ l) : (partMask l).testBit c.ctorIdx = false :=
  testBit_foldl_parts l 0 c h (Nat.zero_testBit _)

/-! ### Every command stays within its footprint and keeps the form -/

/-- Each command has the frame of its meaning, and that frame lies within the command's footprint. -/
theorem exec_frame (c : Instr) (s : State) : FrameOut (partMask (footprint c)) s (exec c s) := by
  cases c <;> dsimp only [footprint]
  case courseBoundary late => exact execCourseBoundary_frame late s (Frame.refl _ s) rfl
  case bondPeriodBoundary hot => exact execBondPeriodBoundary_frame hot s (Frame.refl _ s) rfl
  case commitGo => exact execCommitGo_frame s (Frame.refl _ s) rfl
  case syncPulse phase => exact execSyncPulse_frame phase s (Frame.refl _ s) rfl
  case syncPulseMissing => exact execSyncPulseMissing_frame s (Frame.refl _ s) rfl
  case syncWaitTimeout => exact execSyncWaitTimeout_frame s (Frame.refl _ s) rfl
  case syncConflict => exact execSyncConflict_frame s (Frame.refl _ s) rfl
  case refclkLost => exact execRefclkLost_frame s (Frame.refl _ s) rfl
  case packageFault kind => exact execPackageFault_frame kind s (Frame.refl _ s) rfl
  case linkTraining port gen link => exact execLinkTraining_frame port gen link s (Frame.refl _ s) rfl
  case perstAssert port => exact execPerstAssert_frame port s (Frame.refl _ s) rfl
  case sqTailDoorbell ctrl qid tail => exact execSqTailDoorbell_frame ctrl qid tail s (Frame.refl _ s) rfl
  case cqHeadDoorbell ctrl qid head => exact execCqHeadDoorbell_frame ctrl qid head s (Frame.refl _ s) rfl
  case commandFetch fetch => exact execCommandFetch_frame fetch s (Frame.refl _ s) rfl
  case completionPost h => exact execCompletionPost_frame h s (Frame.refl _ s) rfl
  case flush h nsid => exact execFlush_frame h nsid s (Frame.refl _ s) rfl
  case write h nsid slba data fua => exact execWrite_frame h nsid slba data fua s (Frame.refl _ s) rfl
  case read h nsid slba nlb => exact execRead_frame h nsid slba nlb s (Frame.refl _ s) rfl
  case compare h nsid slba data => exact execCompare_frame h nsid slba data s (Frame.refl _ s) rfl
  case writeZeroes h nsid slba nlb deac fua => exact execWriteZeroes_frame h nsid slba nlb deac fua s (Frame.refl _ s) rfl
  case datasetManagement h nsid ad ranges => exact execDatasetManagement_frame h nsid ad ranges s (Frame.refl _ s) rfl
  case verify h nsid slba nlb => exact execVerify_frame h nsid slba nlb s (Frame.refl _ s) rfl
  case copy h nsid format sdlba sources fua => exact execCopy_frame h nsid format sdlba sources fua s (Frame.refl _ s) rfl
  case identify h cns nsid => exact execIdentify_frame h cns nsid s (Frame.refl _ s) rfl
  case getLogPage h lid => exact execGetLogPage_frame h lid s (Frame.refl _ s) rfl
  case getFeatures h fid nsid => exact execGetFeatures_frame h fid nsid s (Frame.refl _ s) rfl
  case setFeatures h fid value => exact execSetFeatures_frame h fid value s (Frame.refl _ s) rfl
  case setFeaturesVolatileWriteCache h wce => exact execSetFeaturesVolatileWriteCache_frame h wce s (Frame.refl _ s) rfl
  case setFeaturesInlineCompression h nsid enable => exact execSetFeaturesInlineCompression_frame h nsid enable s (Frame.refl _ s) rfl
  case setFeaturesDurability h nsid through => exact execSetFeaturesDurability_frame h nsid through s (Frame.refl _ s) rfl
  case setFeaturesLatencyTolerance h cntlid tolerance =>
    exact execSetFeaturesLatencyTolerance_frame h cntlid tolerance s (Frame.refl _ s) rfl
  case setFeaturesPowerManagement h ps => exact execSetFeaturesPowerManagement_frame h ps s (Frame.refl _ s) rfl
  case createIoSubmissionQueue h qid size cqid prio mem =>
    exact execCreateIoSubmissionQueue_frame h qid size cqid prio mem s (Frame.refl _ s) rfl
  case createIoCompletionQueue h qid size vector mem => exact execCreateIoCompletionQueue_frame h qid size vector mem s (Frame.refl _ s) rfl
  case deleteIoSubmissionQueue h qid => exact execDeleteIoSubmissionQueue_frame h qid s (Frame.refl _ s) rfl
  case deleteIoCompletionQueue h qid => exact execDeleteIoCompletionQueue_frame h qid s (Frame.refl _ s) rfl
  case abort h sqid cid => exact execAbort_frame h sqid cid s (Frame.refl _ s) rfl
  case asynchronousEventRequest h => exact execAsynchronousEventRequest_frame h s (Frame.refl _ s) rfl
  case namespaceCreate h csi nsze ncap flbas desc => exact execNamespaceCreate_frame h csi nsze ncap flbas desc s (Frame.refl _ s) rfl
  case namespaceDelete h nsid => exact execNamespaceDelete_frame h nsid s (Frame.refl _ s) rfl
  case namespaceAttach h nsid ctrls => exact execNamespaceAttach_frame h nsid ctrls s (Frame.refl _ s) rfl
  case namespaceDetach h nsid ctrls => exact execNamespaceDetach_frame h nsid ctrls s (Frame.refl _ s) rfl
  case secondaryControllerOnline h cntlid => exact execSecondaryControllerOnline_frame h cntlid s (Frame.refl _ s) rfl
  case secondaryControllerOffline h cntlid => exact execSecondaryControllerOffline_frame h cntlid s (Frame.refl _ s) rfl
  case secondaryControllerAssign h cntlid res count => exact execSecondaryControllerAssign_frame h cntlid res count s (Frame.refl _ s) rfl
  case formatNvm h nsid ses lbaf pi mset => exact execFormatNvm_frame h nsid ses lbaf pi mset s (Frame.refl _ s) rfl
  case firmwareImageDownload h piece => exact execFirmwareImageDownload_frame h piece s (Frame.refl _ s) rfl
  case firmwareCommit h ca fs => exact execFirmwareCommit_frame h ca fs s (Frame.refl _ s) rfl
  case firmwareActivation => exact execFirmwareActivation_frame s (Frame.refl _ s) rfl
  case nvmeMiSend h req => exact execNvmeMiSend_frame h req s (Frame.refl _ s) rfl
  case nvmeMiReceive h => exact execNvmeMiReceive_frame h s (Frame.refl _ s) rfl
  case readNvmeMiDataStructure bus dtyp port ctrl => exact execReadNvmeMiDataStructure_frame bus dtyp port ctrl s (Frame.refl _ s) rfl
  case nvmSubsystemHealthStatusPoll bus => exact execNvmSubsystemHealthStatusPoll_frame bus s (Frame.refl _ s) rfl
  case controllerHealthStatusPoll bus start max => exact execControllerHealthStatusPoll_frame bus start max s (Frame.refl _ s) rfl
  case configurationGet bus id => exact execConfigurationGet_frame bus id s (Frame.refl _ s) rfl
  case configurationSet bus id value => exact execConfigurationSet_frame bus id value s (Frame.refl _ s) rfl
  case vpdRead bus offset length => exact execVpdRead_frame bus offset length s (Frame.refl _ s) rfl
  case miAdminTunnel bus cmd => exact execMiAdminTunnel_frame bus cmd s (Frame.refl _ s) rfl
  case controllerDisable ctrl => exact execControllerDisable_frame ctrl s (Frame.refl _ s) rfl
  case controllerEnable cc => exact execControllerEnable_frame cc s (Frame.refl _ s) rfl
  case shutdown ctrl abrupt => exact execShutdown_frame ctrl abrupt s (Frame.refl _ s) rfl
  case shutdownComplete ctrl => exact execShutdownComplete_frame ctrl s (Frame.refl _ s) rfl
  case nvmSubsystemReset => exact execNvmSubsystemReset_frame s (Frame.refl _ s) rfl
  case functionLevelReset ctrl => exact execFunctionLevelReset_frame ctrl s (Frame.refl _ s) rfl
  case flrComplete ctrl => exact execFlrComplete_frame ctrl s (Frame.refl _ s) rfl
  case atsInvalidate fn addr => exact execAtsInvalidate_frame fn addr s (Frame.refl _ s) rfl
  case create h ti sealedMode desc => exact execCreate_frame h ti sealedMode desc s (Frame.refl _ s) rfl
  case resize h ti desc => exact execResize_frame h ti desc s (Frame.refl _ s) rfl
  case setMode h ti sealedMode => exact execSetMode_frame h ti sealedMode s (Frame.refl _ s) rfl
  case quiesce h ti => exact execQuiesce_frame h ti s (Frame.refl _ s) rfl
  case quiescedReached ti => exact execQuiescedReached_frame ti s (Frame.refl _ s) rfl
  case resume h ti => exact execResume_frame h ti s (Frame.refl _ s) rfl
  case freeze h ti => exact execFreeze_frame h ti s (Frame.refl _ s) rfl
  case reset h ti => exact execReset_frame h ti s (Frame.refl _ s) rfl
  case remove h ti migrated => exact execRemove_frame h ti migrated s (Frame.refl _ s) rfl
  case restore h ti session blob desc nsmap => exact execRestore_frame h ti session blob desc nsmap s (Frame.refl _ s) rfl
  case migSend h session msg => exact execMigSend_frame h session msg s (Frame.refl _ s) rfl
  case get h ti => exact execGet_frame h ti s (Frame.refl _ s) rfl
  case save h ti session => exact execSave_frame h ti session s (Frame.refl _ s) rfl
  case migRecv h session => exact execMigRecv_frame h session s (Frame.refl _ s) rfl
  case generate h slot use => exact execGenerate_frame h slot use s (Frame.refl _ s) rfl
  case importKey h slot kek use wrapped => exact execImportKey_frame h slot kek use wrapped s (Frame.refl _ s) rfl
  case zeroize h slot => exact execZeroize_frame h slot s (Frame.refl _ s) rfl
  case bind h slot nsid => exact execBind_frame h slot nsid s (Frame.refl _ s) rfl
  case importKek h kek session authentic key => exact execImportKek_frame h kek session authentic key s (Frame.refl _ s) rfl
  case status h slot => exact execStatus_frame h slot s (Frame.refl _ s) rfl
  case slotRetiringEnd slot => exact execSlotRetiringEnd_frame slot s (Frame.refl _ s) rfl
  case settingsStore h => exact execSettingsStore_frame h s (Frame.refl _ s) rfl
  case nvStoreGo => exact execNvStoreGo_frame s (Frame.refl _ s) rfl
  case storeDone badPages recordBytes => exact execStoreDone_frame badPages recordBytes s (Frame.refl _ s) rfl
  case storeTokenRefill => exact execStoreTokenRefill_frame s (Frame.refl _ s) rfl
  case store h nsid key opt seg total value => exact execStore_frame h nsid key opt seg total value s (Frame.refl _ s) rfl
  case ingestIdleTimeout nsid key => exact execIngestIdleTimeout_frame nsid key s (Frame.refl _ s) rfl
  case retrieve h nsid key offset size info => exact execRetrieve_frame h nsid key offset size info s (Frame.refl _ s) rfl
  case delete h nsid key => exact execDelete_frame h nsid key s (Frame.refl _ s) rfl
  case exist h nsid key => exact execExist_frame h nsid key s (Frame.refl _ s) rfl
  case list h nsid key size => exact execList_frame h nsid key size s (Frame.refl _ s) rfl
  case objectExport h nsid size cursor endBucket => exact execObjectExport_frame h nsid size cursor endBucket s (Frame.refl _ s) rfl
  case exportPinTimeout nsid sliceIx endBucket => exact execExportPinTimeout_frame nsid sliceIx endBucket s (Frame.refl _ s) rfl
  case loadProgram h nsid index ptype total offset piece =>
    exact execLoadProgram_frame h nsid index ptype total offset piece s (Frame.refl _ s) rfl
  case programActivationManagement h nsid index activate =>
    exact execProgramActivationManagement_frame h nsid index activate s (Frame.refl _ s) rfl
  case executeProgram h nsid index ranges limit params =>
    exact execExecuteProgram_frame h nsid index ranges limit params s (Frame.refl _ s) rfl
  case invocationLimitExpiry inv => exact execInvocationLimitExpiry_frame inv s (Frame.refl _ s) rfl
  case invocationComplete inv outcome ret => exact execInvocationComplete_frame inv outcome ret s (Frame.refl _ s) rfl
  case memoryRead h nsid offset length => exact execMemoryRead_frame h nsid offset length s (Frame.refl _ s) rfl
  case memoryWrite h nsid offset data => exact execMemoryWrite_frame h nsid offset data s (Frame.refl _ s) rfl
  case memoryCopy h nsid dest src => exact execMemoryCopy_frame h nsid dest src s (Frame.refl _ s) rfl
  case doeDiscovery port index => exact execDoeDiscovery_frame port index s (Frame.refl _ s) rfl
  case getVersion t => exact execGetVersion_frame t s (Frame.refl _ s) rfl
  case getCapabilities t flags => exact execGetCapabilities_frame t flags s (Frame.refl _ s) rfl
  case negotiateAlgorithms t offer => exact execNegotiateAlgorithms_frame t offer s (Frame.refl _ s) rfl
  case getDigests t => exact execGetDigests_frame t s (Frame.refl _ s) rfl
  case getCertificate t slot offset length => exact execGetCertificate_frame t slot offset length s (Frame.refl _ s) rfl
  case challenge t slot nonce => exact execChallenge_frame t slot nonce s (Frame.refl _ s) rfl
  case getMeasurements t index signed nonce => exact execGetMeasurements_frame t index signed nonce s (Frame.refl _ s) rfl
  case keyExchange t peer => exact execKeyExchange_frame t peer s (Frame.refl _ s) rfl
  case finish t session macOk => exact execFinish_frame t session macOk s (Frame.refl _ s) rfl
  case heartbeat t session => exact execHeartbeat_frame t session s (Frame.refl _ s) rfl
  case keyUpdate t session op => exact execKeyUpdate_frame t session op s (Frame.refl _ s) rfl
  case endSession t session => exact execEndSession_frame t session s (Frame.refl _ s) rfl
  case getEncapsulatedRequest t session => exact execGetEncapsulatedRequest_frame t session s (Frame.refl _ s) rfl
  case deliverEncapsulatedResponse t session peer => exact execDeliverEncapsulatedResponse_frame t session peer s (Frame.refl _ s) rfl
  case spdmUnsupportedRequest t code => exact execSpdmUnsupportedRequest_frame t code s (Frame.refl _ s) rfl
  case sliceFormat slice muReq => exact execSliceFormat_frame slice muReq s (Frame.refl _ s) rfl
  case sliceFormatDone slice eraseFails => exact execSliceFormatDone_frame slice eraseFails s (Frame.refl _ s) rfl
  case evacuationGo slice lun auto => exact execEvacuationGo_frame slice lun auto s (Frame.refl _ s) rfl
  case evacuationDone slice => exact execEvacuationDone_frame slice s (Frame.refl _ s) rfl
  case streamAgeTrigger slice wslot => exact execStreamAgeTrigger_frame slice wslot s (Frame.refl _ s) rfl
  case flashPageAgeTimeout slice sb => exact execFlashPageAgeTimeout_frame slice sb s (Frame.refl _ s) rfl
  case programConfirmed slice lun => exact execProgramConfirmed_frame slice lun s (Frame.refl _ s) rfl
  case programFailed slice lun block row => exact execProgramFailed_frame slice lun block row s (Frame.refl _ s) rfl
  case eraseFailed slice lun block => exact execEraseFailed_frame slice lun block s (Frame.refl _ s) rfl
  case readPassDone slice cluster wslot index pass => exact execReadPassDone_frame slice cluster wslot index pass s (Frame.refl _ s) rfl
  case patrolDue slice sb weak => exact execPatrolDue_frame slice sb weak s (Frame.refl _ s) rfl
  case lunHealthEval slice lun retry2 retry4 => exact execLunHealthEval_frame slice lun retry2 retry4 s (Frame.refl _ s) rfl
  case operationTimeout slice lun ready => exact execOperationTimeout_frame slice lun ready s (Frame.refl _ s) rfl
  case devWearRateUpdate => exact execDevWearRateUpdate_frame s (Frame.refl _ s) rfl
  case channelDiscovery slice ch vols trainFails => exact execChannelDiscovery_frame slice ch vols trainFails s (Frame.refl _ s) rfl
  case flashRetrain slice ch ok => exact execFlashRetrain_frame slice ch ok s (Frame.refl _ s) rfl
  case flashZqShortDue slice => exact execFlashZqShortDue_frame slice s (Frame.refl _ s) rfl
  case lunPollDue slice lun res => exact execLunPollDue_frame slice lun res s (Frame.refl _ s) rfl
  case counterGroupStore => exact execCounterGroupStore_frame s (Frame.refl _ s) rfl
  case groupStoreDone => exact execGroupStoreDone_frame s (Frame.refl _ s) rfl
  case entropyFail => exact execEntropyFail_frame s (Frame.refl _ s) rfl
  case entropyRetest pass => exact execEntropyRetest_frame pass s (Frame.refl _ s) rfl
  case cipherOpDone slice ctx op => exact execCipherOpDone_frame slice ctx op s (Frame.refl _ s) rfl
  case compressOpDone slice ctx op => exact execCompressOpDone_frame slice ctx op s (Frame.refl _ s) rfl
  case search slice array part requester start key => exact execSearch_frame slice array part requester start key s (Frame.refl _ s) rfl
  case searchBatch slice array part requester start count keys respPtr arrived =>
    exact execSearchBatch_frame slice array part requester start count keys respPtr arrived s (Frame.refl _ s) rfl
  case invalidate slice array part requester offset => exact execInvalidate_frame slice array part requester offset s (Frame.refl _ s) rfl
  case entryWrite slice array part requester offset key mask result =>
    exact execEntryWrite_frame slice array part requester offset key mask result s (Frame.refl _ s) rfl
  case validate slice array part requester offset => exact execValidate_frame slice array part requester offset s (Frame.refl _ s) rfl
  case resultWrite slice array part requester offset result =>
    exact execResultWrite_frame slice array part requester offset result s (Frame.refl _ s) rfl
  case entryRead slice array part requester offset => exact execEntryRead_frame slice array part requester offset s (Frame.refl _ s) rfl
  case searchResponse slice array cluster wslot index =>
    exact execSearchResponse_frame slice array cluster wslot index s (Frame.refl _ s) rfl
  case alloc it flow entry arg need done grant => exact execAlloc_frame it flow entry arg need done grant s (Frame.refl _ s) rfl
  case send it wslot index value aux => exact execSend_frame it wslot index value aux s (Frame.refl _ s) rfl
  case arm it wslot index delay => exact execArm_frame it wslot index delay s (Frame.refl _ s) rfl
  case emit it desc => exact execEmit_frame it desc s (Frame.refl _ s) rfl
  case release it => exact execRelease_frame it s (Frame.refl _ s) rfl
  case continueRun it need => exact execContinueRun_frame it need s (Frame.refl _ s) rfl
  case endRun it code => exact execEndRun_frame it code s (Frame.refl _ s) rfl
  case ctxAlloc it kind grant => exact execCtxAlloc_frame it kind grant s (Frame.refl _ s) rfl
  case ctxFree it ctx => exact execCtxFree_frame it ctx s (Frame.refl _ s) rfl
  case flowOpen it => exact execFlowOpen_frame it s (Frame.refl _ s) rfl
  case flowClose it flow => exact execFlowClose_frame it flow s (Frame.refl _ s) rfl
  case operandArrival slice cluster wslot index op => exact execOperandArrival_frame slice cluster wslot index op s (Frame.refl _ s) rfl
  case budgetExpiry it => exact execBudgetExpiry_frame it s (Frame.refl _ s) rfl
  case protectionFault it => exact execProtectionFault_frame it s (Frame.refl _ s) rfl
  case delayEntryDue slice cluster wslot index => exact execDelayEntryDue_frame slice cluster wslot index s (Frame.refl _ s) rfl
  case hostDmaBeat ready => exact execHostDmaBeat_frame ready s (Frame.refl _ s) rfl
  case busError ch cause merged => exact execBusError_frame ch cause merged s (Frame.refl _ s) rfl
  case probeComplete ok cause ns => exact execProbeComplete_frame ok cause ns s (Frame.refl _ s) rfl
  case hdChCtlWrite ch value => exact execHdChCtlWrite_frame ch value s (Frame.refl _ s) rfl
  case sliceDmaDone slice ch cluster wslot index dma => exact execSliceDmaDone_frame slice ch cluster wslot index dma s (Frame.refl _ s) rfl
  case dramChannelStart slice ch trainFails selftest => exact execDramChannelStart_frame slice ch trainFails selftest s (Frame.refl _ s) rfl
  case dramRefresh waitNs => exact execDramRefresh_frame waitNs s (Frame.refl _ s) rfl
  case dramZqCal => exact execDramZqCal_frame s (Frame.refl _ s) rfl
  case dramRetrainDue slice ch => exact execDramRetrainDue_frame slice ch s (Frame.refl _ s) rfl
  case dramRetrain slice ch => exact execDramRetrain_frame slice ch s (Frame.refl _ s) rfl
  case retrainHoldExpiry slice ch => exact execRetrainHoldExpiry_frame slice ch s (Frame.refl _ s) rfl
  case dramRetrainDone slice ch working => exact execDramRetrainDone_frame slice ch working s (Frame.refl _ s) rfl
  case mergeEntryTimeout slice ch burst readOk => exact execMergeEntryTimeout_frame slice ch burst readOk s (Frame.refl _ s) rfl
  case scrubGo slice => exact execScrubGo_frame slice s (Frame.refl _ s) rfl
  case scrubStop slice => exact execScrubStop_frame slice s (Frame.refl _ s) rfl
  case scrubDone slice ce ue => exact execScrubDone_frame slice ce ue s (Frame.refl _ s) rfl
  case digestOpen inst owner alg hmac decl dest => exact execDigestOpen_frame inst owner alg hmac decl dest s (Frame.refl _ s) rfl
  case digestData inst data final => exact execDigestData_frame inst data final s (Frame.refl _ s) rfl
  case digestIdleTimeout inst => exact execDigestIdleTimeout_frame inst s (Frame.refl _ s) rfl
  case measExtend => exact execMeasExtend_frame s (Frame.refl _ s) rfl
  case measExtendDone => exact execMeasExtendDone_frame s (Frame.refl _ s) rfl
  case sagDetect => exact execSagDetect_frame s (Frame.refl _ s) rfl
  case sagEnd us => exact execSagEnd_frame us s (Frame.refl _ s) rfl
  case brownOut => exact execBrownOut_frame s (Frame.refl _ s) rfl
  case surgeRecorded => exact execSurgeRecorded_frame s (Frame.refl _ s) rfl
  case surgeTrip => exact execSurgeTrip_frame s (Frame.refl _ s) rfl
  case senseFault input code => exact execSenseFault_frame input code s (Frame.refl _ s) rfl
  case controlLoopSample meas temps => exact execControlLoopSample_frame meas temps s (Frame.refl _ s) rfl
  case feTrip loop => exact execFeTrip_frame loop s (Frame.refl _ s) rfl
  case thermalTrip sensor => exact execThermalTrip_frame sensor s (Frame.refl _ s) rfl
  case supervisorStep => exact execSupervisorStep_frame s (Frame.refl _ s) rfl
  case chargeTimeout => exact execChargeTimeout_frame s (Frame.refl _ s) rfl
  case holdupClear => exact execHoldupClear_frame s (Frame.refl _ s) rfl
  case measureRequest => exact execMeasureRequest_frame s (Frame.refl _ s) rfl
  case capacitanceMeasureDue => exact execCapacitanceMeasureDue_frame s (Frame.refl _ s) rfl
  case capacitanceMeasureEnd v0 v1 v2 => exact execCapacitanceMeasureEnd_frame v0 v1 v2 s (Frame.refl _ s) rfl
  case flushRateUpdate => exact execFlushRateUpdate_frame s (Frame.refl _ s) rfl
  case loopClose loop meas => exact execLoopClose_frame loop meas s (Frame.refl _ s) rfl
  case loopOpen loop => exact execLoopOpen_frame loop s (Frame.refl _ s) rfl
  case dumpComplete unlanded => exact execDumpComplete_frame unlanded s (Frame.refl _ s) rfl
  case downSupplyGood => exact execDownSupplyGood_frame s (Frame.refl _ s) rfl
  case bankExhausted => exact execBankExhausted_frame s (Frame.refl _ s) rfl
  case powerStateEntry => exact execPowerStateEntry_frame s (Frame.refl _ s) rfl
  case powerStateExit why => exact execPowerStateExit_frame why s (Frame.refl _ s) rfl
  case resetNRise => exact execResetNRise_frame s (Frame.refl _ s) rfl
  case resetNFall => exact execResetNFall_frame s (Frame.refl _ s) rfl
  case imageVerified => exact execImageVerified_frame s (Frame.refl _ s) rfl
  case sliceRebuild slice => exact execSliceRebuild_frame slice s (Frame.refl _ s) rfl
  case sliceRebuildDone slice ok => exact execSliceRebuildDone_frame slice ok s (Frame.refl _ s) rfl
  case sliceLate slice => exact execSliceLate_frame slice s (Frame.refl _ s) rfl
  case startWatchdog => exact execStartWatchdog_frame s (Frame.refl _ s) rfl
  case hubFault => exact execHubFault_frame s (Frame.refl _ s) rfl
  case startSuccess => exact execStartSuccess_frame s (Frame.refl _ s) rfl
  case minuteTick => exact execMinuteTick_frame s (Frame.refl _ s) rfl
  case recorderBinning samples => exact execRecorderBinning_frame samples s (Frame.refl _ s) rfl
  case recorderFreeze => exact execRecorderFreeze_frame s (Frame.refl _ s) rfl
  case recorderThaw => exact execRecorderThaw_frame s (Frame.refl _ s) rfl
  case recorderAutoThaw => exact execRecorderAutoThaw_frame s (Frame.refl _ s) rfl
  case onlineTestGo kind slice number => exact execOnlineTestGo_frame kind slice number s (Frame.refl _ s) rfl
  case onlineTestDone pass => exact execOnlineTestDone_frame pass s (Frame.refl _ s) rfl
  case faultFence u cause => exact execFaultFence_frame u cause s (Frame.refl _ s) rfl
  case sliceOfflineRequest slice => exact execSliceOfflineRequest_frame slice s (Frame.refl _ s) rfl
  case sliceLinkFail slice => exact execSliceLinkFail_frame slice s (Frame.refl _ s) rfl
  case jtagInstruction instr => exact execJtagInstruction_frame instr s (Frame.refl _ s) rfl
  case tapReset => exact execTapReset_frame s (Frame.refl _ s) rfl
  case debugUnlock signed => exact execDebugUnlock_frame signed s (Frame.refl _ s) rfl
  case loRegisterRead addr => exact execLoRegisterRead_frame addr s (Frame.refl _ s) rfl
  case unsupportedWidthAccess addr size isWrite => exact execUnsupportedWidthAccess_frame addr size isWrite s (Frame.refl _ s) rfl
  case reservedAccess addr isWrite => exact execReservedAccess_frame addr isWrite s (Frame.refl _ s) rfl
  case registerWrite addr value => exact execRegisterWrite_frame addr value s (Frame.refl _ s) rfl
  case powerLostWithoutDump => exact execPowerLostWithoutDump_frame s (Frame.refl _ s) rfl
  case unsupportedOpcode h op => exact execUnsupportedOpcode_frame h op s (Frame.refl _ s) rfl
  case dynamicAddressAssignment addr => exact execDynamicAddressAssignment_frame addr s (Frame.refl _ s) rfl
  case smbusClockLowTimeout => exact execSmbusClockLowTimeout_frame s (Frame.refl _ s) rfl
  case msiXTableWrite ctrl vector masked addr data => exact execMsiXTableWrite_frame ctrl vector masked addr data s (Frame.refl _ s) rfl
/-- The waiting commands are no part of the form. -/
theorem shape_withPending {s : State} (h : Shape s) (l : List Instr) : Shape { s with pending := l } :=
  (upd_pending l (Frame.refl 0x10000000000000 s) rfl).shape h

/-- Settles O4: the frame of each command lies within its footprint, whose mask has the bit of no other part. -/
theorem commandsChangeOnlyTheirFootprint : Obligations.CommandsChangeOnlyTheirFootprint := fun c s t h =>
  ((exec_frame c s).keeps t h).only (footprint c) fun _ hc => testBit_partMask hc

/-- Settles O3: an idle step changes nothing, and the frame of every command carries the form from state to state. -/
theorem everyStepKeepsTheShape : Obligations.EveryStepKeepsTheShape := by
  intro s t hs h
  unfold step at h
  split at h
  next => cases h; exact hs
  next c rest _ => exact ((exec_frame c _).keeps t h).shape (shape_withPending hs rest)

/-! ### The state after reset -/

/-- With no register listed, each reads its Reset value. -/
theorem rd_reset (a : Nat) : State.reset.rd a = resetWord .yarrow a := rfl

theorem workGone_reset : WorkGone State.reset :=
  ⟨rfl, rfl, rfl, rfl, rfl, rfl, by decide⟩

theorem shape_reset : Shape State.reset :=
  ⟨rfl, rfl, rfl, rfl, rfl, reset_slm⟩

/-- Settles O2, part by part of the state after reset. -/
theorem resetLeavesTheResetValues : Obligations.ResetLeavesTheResetValues :=
  ⟨rd_reset, workGone_reset, rfl, shape_reset⟩

/-! ### Reading what was written -/

/-- Settles O6, from the laws of the two sparse maps: registers and slice-local memory. -/
theorem registerAndMemoryReadAfterWrite : Obligations.RegisterAndMemoryReadAfterWrite := by
  refine ⟨fun s a b v => ⟨rd_wr_self s a v, rd_wr_of_ne s v⟩, fun m a b v hm => ⟨?_, fun hb => ?_, ?_⟩⟩
  · rw [memGet_memPut, if_pos rfl]
  · rw [memGet_memPut, if_neg hb]
  · exact memWrite_wf [v] m a hm

end Sys2Proof.Proofs
end

section
/-!
The statements of 00_scope.md about package reset (R6, R340, R385): the work is gone after it, and the start that follows brings none
back.
-/

namespace Sys2Proof.Proofs

open Sys2Proof.Machine Sys2Proof.Laws

variable {F : Nat} {s t : State}

/-- A frame whose mask is that of a list of parts. -/
theorem onlyChanges_of_frame {l : List Component} (h : Frame (partMask l) s t) : OnlyChanges l s t :=
  h.only l fun _ hc => testBit_partMask hc

/-! ### Nothing is under way -/

/-- The parts of the state, besides the commands in flight, that show work under way. -/
def workParts : List Component := [.course, .tenants, .invocations, .digests, .power, .links]

/-- What changes none of these parts brings no work back, as long as it leaves no command in flight. -/
theorem workGone_of_frame (g : WorkGone s) (h : Frame F s t) (m : ∀ c ∈ workParts, F.testBit c.ctorIdx = false)
    (hi : t.inflight = []) : WorkGone t where
  course := (h.same .course (m _ (by decide))).trans g.course
  inflight := hi
  tenants := (h.same .tenants (m _ (by decide))).trans g.tenants
  invocations := (h.same .invocations (m _ (by decide))).trans g.invocations
  digests := (h.same .digests (m _ (by decide))).trans g.digests
  power := (h.same .power (m _ (by decide))).trans g.power
  links := (h.same .links (m _ (by decide))) ▸ g.links

theorem workGone_packageReset (s : State) : WorkGone s.packageReset :=
  ⟨rfl, rfl, rfl, rfl, rfl, rfl, workGone_reset.links⟩

/-! ### The start that follows a reset -/

/-- What steps 1 and 2 of the start do before the attempt opens (R348). -/
def startOpening (s : State) : State :=
  let s := s.loadRecorder
  let s := s.closeAttempt
  let s := s.modNvm fun v => { v with cycles := v.cycles + 1 }
  let s := (s.record 0x11 s.nvm.endedHow).modNvm fun v => { v with lastEnd := 0 }
  let s := s.putKey 4096 { state := .active, use := 3, generation := 1, key := 0, retireAt := 0 }
  let s := (s.putF Adr.stStartReason 23 16 s.nvm.lastCause).putF Adr.stStartReason 10 8 s.nvm.lastStage
  (s.extend 0 0 (Config.recordDigest 0 [])).extend 0 0 (Config.recordDigest 1 [s.nvm.svnFloor, s.part.code])

/-- From s to t the start brings no command in flight, and the number of the power cycle stands (R348, R354). -/
structure StartStep (s t : State) : Prop where
  idle : s.inflight = [] → t.inflight = []
  cycles : t.nvm.cycles = s.nvm.cycles

theorem StartStep.refl (s : State) : StartStep s s := ⟨id, rfl⟩

theorem StartStep.trans {u : State} (h : StartStep s t) (g : StartStep t u) : StartStep s u :=
  ⟨fun i => g.idle (h.idle i), g.cycles.trans h.cycles⟩

theorem startStep_of_frame (h : Frame F s t) (mi : F.testBit 9 = false) (mn : F.testBit 41 = false) : StartStep s t :=
  ⟨fun i => (h.same .inflight mi).trans i, congrArg Nvm.cycles (h.same .nvm mn)⟩

theorem startStep_modNvm (s : State) (f : Nvm → Nvm) (h : (f s.nvm).cycles = s.nvm.cycles) : StartStep s (s.modNvm f) := ⟨id, h⟩

theorem startStep_setStage (s : State) (k : Nat) : StartStep s (s.setStage k) := ⟨id, rfl⟩

theorem startStep_reject (s : State) (k : Nat) : StartStep s (s.reject k) :=
  startStep_of_frame (reject_frame s k (Frame.refl 0x80000000000 s) rfl) rfl rfl

theorem startStep_openAttempt (s : State) (c : Nat) : StartStep s (s.openAttempt c) := ⟨id, rfl⟩

theorem startStep_putBit (s : State) (a k : Nat) (b : Bool) : StartStep s (s.putBit a k b) :=
  startStep_of_frame (putBit_frame s a k b (Frame.refl 0x4 s) rfl) rfl rfl

theorem startStep_notice (s : State) (kind source first last : Nat) : StartStep s (s.notice kind source first last) :=
  startStep_of_frame (notice_frame s kind source first last (Frame.refl 0x100000000004 s) rfl) rfl rfl

theorem startStep_extendMode (s : State) (minimal : Bool) : StartStep s (s.extendMode minimal) :=
  startStep_of_frame (extendMode_frame s minimal (Frame.refl 0x70000004 s) rfl) rfl rfl

theorem startStep_putSlots (s : State) (r : SlotRecord) : StartStep s (s.putSlots r) := ⟨id, rfl⟩

theorem startStep_setBit (s : State) (a k : Nat) : StartStep s (s.setBit a k) := ⟨id, rfl⟩

theorem startStep_pickSlot (s : State) : StartStep s s.pickSlot.1 := by
  unfold State.pickSlot
  dsimp only
  split
  · exact .refl s
  · split
    · exact (startStep_putSlots s _).trans (startStep_setBit _ _ _)
    · exact startStep_putSlots s _

theorem startStep_bootSlot (s : State) (k : Nat) (trial : Bool) : StartStep s (s.bootSlot k trial) := by
  unfold State.bootSlot
  split
  · exact .refl s
  · dsimp only
    refine .trans (.trans (.trans ?_ (startStep_modNvm _ _ rfl)) (startStep_putBit _ _ _ _)) (startStep_putBit _ _ _ _)
    exact ⟨id, rfl⟩

/-- Minimal mode leaves no command in flight (R358). -/
theorem startStep_enterMinimal (s : State) (reason : Nat) : StartStep s (s.enterMinimal reason) := by
  unfold State.enterMinimal
  dsimp only
  refine .trans (.trans (.trans ?_ (startStep_modNvm _ _ rfl)) (startStep_extendMode _ _)) (startStep_notice _ _ _ _ _)
  exact ⟨fun _ => rfl, rfl⟩

/-- A slot is booted at stage 1, with the port mode of its image (R306, R348, R349). -/
theorem startStep_boot (s : State) (k : Nat) (trial dual : Bool) :
    StartStep s { (s.bootSlot k trial).setStage 1 with dual := dual } := by
  refine .trans (.trans (startStep_bootSlot s k trial) (startStep_setStage _ 1)) ?_
  exact ⟨id, rfl⟩

/-- A slot is booted, or with neither slot fit the start is minimal (R306, R348, R355). -/
theorem startStep_chooseImage (s : State) (c : Nat) : StartStep s (s.chooseImage c) := by
  unfold State.chooseImage
  refine (startStep_pickSlot s).trans ?_
  dsimp only
  split
  · exact startStep_boot _ _ _ _
  · refine (startStep_reject _ s.pickSlot.2.1).trans ?_
    split
    · exact startStep_boot _ _ _ _
    · exact ((startStep_reject _ _).trans (startStep_modNvm _ _ rfl)).trans (startStep_enterMinimal _ _)

theorem startStep_closeAttempt (s : State) : StartStep s s.closeAttempt := by
  unfold State.closeAttempt
  split
  · exact .refl s
  · dsimp only
    split
    · exact startStep_modNvm _ _ rfl
    · exact ((startStep_modNvm _ _ rfl).trans (startStep_modNvm _ _ rfl)).trans (startStep_notice _ _ _ _ _)

theorem startStep_putKey (s : State) (n : Nat) (k : KeySlot) : StartStep s (s.putKey n k) := by
  unfold State.putKey
  dsimp only
  split
  · exact startStep_modNvm _ _ rfl
  · exact (startStep_modNvm _ _ rfl).trans (startStep_setBit _ _ _)

theorem startStep_loadRecorder (s : State) : StartStep s s.loadRecorder :=
  startStep_of_frame (loadRecorder_frame s (Frame.refl 0x100000000004 s) rfl) rfl rfl

theorem startStep_record (s : State) (id : Nat) (v : Int) : StartStep s (s.record id v) :=
  startStep_of_frame (record_frame s id v (Frame.refl 0x100000000000 s) rfl) rfl rfl

theorem startStep_extend (s : State) (ix source : Nat) (d : Digest384) : StartStep s (s.extend ix source d) :=
  startStep_of_frame (extend_frame s ix source d (Frame.refl 0x70000004 s) rfl) rfl rfl

theorem startStep_putF (s : State) (a hi lo v : Nat) : StartStep s (s.putF a hi lo v) := ⟨id, rfl⟩

/-- The power cycle is counted first; nothing after it in the start changes the count (R348, R354). -/
theorem startStep_startOpening (s : State) :
    StartStep (s.loadRecorder.closeAttempt.modNvm fun v => { v with cycles := v.cycles + 1 }) (startOpening s) := by
  unfold startOpening
  dsimp only
  refine .trans (.trans (.trans (.trans (.trans (.trans ?_ (startStep_modNvm _ _ rfl)) (startStep_putKey _ _ _))
    (startStep_putF _ _ _ _ _)) (startStep_putF _ _ _ _ _)) (startStep_extend _ _ _ _)) (startStep_extend _ _ _ _)
  exact startStep_record _ _ _

/-- Once the attempt opens, the start goes on in minimal mode or with the choice of an image (R348, R354, R358). -/
theorem startStep_beginStart (s : State) : StartStep (startOpening s) s.beginStart := by
  unfold State.beginStart
  change StartStep (startOpening s) (if !(startOpening s).nvm.stateValid then _
    else if 3 ≤ (startOpening s).nvm.failCnt then _ else _)
  split
  · exact ((startStep_openAttempt _ _).trans (startStep_modNvm _ _ rfl)).trans (startStep_enterMinimal _ _)
  · split
    · exact (startStep_openAttempt _ _).trans (startStep_enterMinimal _ _)
    · exact (startStep_openAttempt _ _).trans (startStep_chooseImage _ _)

theorem beginStart_inflight (h : s.inflight = []) : s.beginStart.inflight = [] :=
  (startStep_beginStart s).idle ((startStep_startOpening s).idle
    (((startStep_loadRecorder s).trans (startStep_closeAttempt _)).idle h))

theorem beginStart_cycles (s : State) : s.beginStart.nvm.cycles = s.nvm.cycles + 1 :=
  ((startStep_startOpening s).trans (startStep_beginStart s)).cycles.trans
    (congrArg (· + 1) ((startStep_loadRecorder s).trans (startStep_closeAttempt _)).cycles)

/-- A start brings no work back (R348). -/
theorem workGone_beginStart (h : WorkGone s) : WorkGone s.beginStart :=
  workGone_of_frame h (beginStart_frame s (Frame.refl 0x1a0070000344 s) rfl) (by decide) (beginStart_inflight h.inflight)

/-! ### A package reset that the package performs itself (R340, R351, R385) -/

theorem workGone_restart (s : State) (cause : Nat) : WorkGone (s.restart cause) := by
  unfold State.restart
  dsimp only
  split
  · exact workGone_packageReset _
  · exact workGone_beginStart (workGone_packageReset _)

/-- A restart in a package that is not held counts one more power cycle (R354). -/
theorem restart_cycles (cause : Nat) (h : s.held = false) : (s.restart cause).nvm.cycles = s.nvm.cycles + 1 := by
  have hh : (s.noteEnd cause).packageReset.held = false := h
  unfold State.restart
  dsimp only
  rw [hh]
  exact beginStart_cycles _

theorem restart_part (s : State) (cause : Nat) : (s.restart cause).part = s.part :=
  (restart_frame s cause (Frame.refl 0x2ffffffffffffe s) rfl).same .part rfl

theorem restart_pending (s : State) (cause : Nat) : (s.restart cause).pending = s.pending :=
  (restart_frame s cause (Frame.refl 0x2ffffffffffffe s) rfl).same .pending rfl

/-! ### Package faults (R385, R405) -/

theorem packageFault_of_dumping (h : s.dumping = true) : s.packageFault = s := by
  simp only [State.packageFault, h, Bool.or_true, if_true]

theorem workGone_packageFault (h : s.held = false) (hd : s.dumping = false) : WorkGone s.packageFault := by
  unfold State.packageFault
  rw [h, hd]
  exact workGone_restart _ 3

theorem packageFault_part (s : State) : s.packageFault.part = s.part :=
  (packageFault_frame s (Frame.refl 0x2ffffffffffffe s) rfl).same .part rfl

theorem clockStops_of_running (h : s.held = false) : s.clockStops = s.modCourse fun c => { c with running := false } := by
  simp only [State.clockStops, h, Bool.false_eq_true, if_false]

/-- The loss of the clock is a package fault of a package whose course generator stopped (R21, R405). -/
theorem workGone_clockFault (h : s.held = false) (hd : s.dumping = false) :
    WorkGone s.clockStops.packageFault ∧ s.clockStops.packageFault.part = s.part := by
  rw [clockStops_of_running h]
  exact ⟨workGone_packageFault h hd, packageFault_part _⟩

/-- In a Dump the loss of the clock stops the course generator and nothing else (R338; log entry 72). -/
theorem clockFault_of_dumping (h : s.held = false) (hd : s.dumping = true) :
    s.clockStops.packageFault = s.modCourse fun c => { c with running := false } := by
  rw [clockStops_of_running h]
  exact packageFault_of_dumping hd

/-- Settles O12: every package fault ends in a restart, whatever it lands first; in a Dump it leaves the landing alone. -/
theorem packageFaultsResetThePackage : Obligations.PackageFaultsResetThePackage := by
  refine ⟨fun s h hd => ⟨_, rfl, workGone_clockFault h hd⟩, fun k s h hd => ?_, fun s hd => ?_, fun s h hd c hc => ?_⟩
  · cases k
    case clock => exact ⟨_, rfl, workGone_clockFault h hd⟩
    case hubMemory => exact ⟨_, rfl, workGone_packageFault h hd, packageFault_part s⟩
    case romCheck => exact ⟨_, rfl, workGone_packageFault h hd, packageFault_part s⟩
  · exact ⟨congrArg _ (packageFault_of_dumping hd), congrArg _ (packageFault_of_dumping hd)⟩
  · have he : exec c s = .next (s.modCourse fun k => { k with running := false }) := by
      rcases List.mem_pair.mp hc with rfl | rfl
      · exact congrArg _ (clockFault_of_dumping h hd)
      · exact congrArg _ (clockFault_of_dumping h hd)
    exact ⟨_, he, rfl, onlyChanges_of_frame (modCourse_frame s _ (Frame.refl (partMask [.course]) s) rfl)⟩

end Sys2Proof.Proofs
end

section
/-!
The end of a Dump (R128, R337, R340): what a landing puts into the landing region, and what step 7 stores.
-/

namespace Sys2Proof.Proofs

open Sys2Proof.Machine Sys2Proof.Laws

variable {s t : State}

/-! ### Landing (R128, R337) -/

/-- A version of the landing region holds the blocks of a version of the buffer (R128). -/
structure LandedAs (v w : Version) : Prop where
  wslot : w.wslot = v.wslot
  nsid : w.nsid = v.nsid
  lua : w.lua = v.lua
  blocks : w.blocks = v.blocks
  acked : w.acked = v.acked

theorem slices_length_modSlice (s : State) (n : Nat) (f : Slice → Slice) : (s.modSlice n f).slices.length = s.slices.length :=
  modAt_length s.slices n f

theorem slice_modSlice_self {n : Nat} (f : Slice → Slice) (h : n < s.slices.length) : (s.modSlice n f).slice n = f (s.slice n) := by
  rw [slice_modSlice s n n f h, if_pos rfl]

theorem slice_congr (h : t.slices = s.slices) (n : Nat) : t.slice n = s.slice n := by
  unfold State.slice
  rw [h]

theorem deferVersion_slices (s : State) (n : Nat) (v : Version) (cause : Nat) : (s.deferVersion n v cause).slices = s.slices :=
  (deferVersion_frame s n v cause (Frame.refl 0x20000000300 s) rfl).same .slices rfl

theorem slices_foldl_deferVersion (l : List Version) (s : State) (n cause : Nat) :
    (l.foldl (fun s v => s.deferVersion n v cause) s).slices = s.slices := by
  induction l generalizing s with
  | nil => rfl
  | cons v l ih => exact (ih _).trans (deferVersion_slices s n v cause)

theorem takeCtr_landed {n : Nat} (key : Nat) (h : n < s.slices.length) :
    ((s.takeCtr n key).2.slice n).landed = (s.slice n).landed := by
  unfold State.takeCtr
  dsimp only
  rw [slice_modSlice_self _ h]

/-- A version landed is appended to the landing region of its slice, with its blocks (R128). -/
theorem landVersion_cases (s : State) (n : Nat) (v : Version) :
    ∃ (p : State) (w : Version), LandedAs v w ∧ p.slices.length = s.slices.length ∧ (∀ k ≠ n, p.slice k = s.slice k) ∧
      (n < s.slices.length → (p.slice n).landed = (s.slice n).landed) ∧
      s.landVersion n v = p.modSlice n fun x => { x with landed := x.landed ++ [w] } := by
  unfold State.landVersion
  split
  · exact ⟨s, v, ⟨rfl, rfl, rfl, rfl, rfl⟩, rfl, fun _ _ => rfl, fun _ => rfl, rfl⟩
  · next key _ =>
    refine ⟨(s.takeCtr n key).2, { v with wseq := (s.takeCtr n key).1, keySlot := key, keyGen := (s.keySlot key).generation },
      ⟨rfl, rfl, rfl, rfl, rfl⟩, slices_length_modSlice _ _ _, fun k hk => slice_modSlice_of_ne _ _ hk, fun hn => ?_, rfl⟩
    exact takeCtr_landed key hn

theorem landVersion_slices_length (s : State) (n : Nat) (v : Version) : (s.landVersion n v).slices.length = s.slices.length := by
  obtain ⟨p, w, -, hl, -, -, e⟩ := landVersion_cases s n v
  rw [e, slices_length_modSlice, hl]

theorem landVersion_slice_of_ne {n k : Nat} (s : State) (v : Version) (h : k ≠ n) : (s.landVersion n v).slice k = s.slice k := by
  obtain ⟨p, w, -, -, hk, -, e⟩ := landVersion_cases s n v
  rw [e, slice_modSlice_of_ne _ _ h, hk k h]

theorem landVersion_landed {n : Nat} (v : Version) (h : n < s.slices.length) :
    ∃ w, LandedAs v w ∧ ((s.landVersion n v).slice n).landed = (s.slice n).landed ++ [w] := by
  obtain ⟨p, w, hw, hl, -, hp, e⟩ := landVersion_cases s n v
  refine ⟨w, hw, ?_⟩
  rw [e, slice_modSlice_self _ (hl ▸ h), hp h]

theorem slices_length_foldl_landVersion (l : List Version) (s : State) (n : Nat) :
    (l.foldl (fun s v => s.landVersion n v) s).slices.length = s.slices.length := by
  induction l generalizing s with
  | nil => rfl
  | cons v l ih => exact (ih _).trans (landVersion_slices_length s n v)

theorem slice_foldl_landVersion_of_ne {n k : Nat} (l : List Version) (s : State) (h : k ≠ n) :
    (l.foldl (fun s v => s.landVersion n v) s).slice k = s.slice k := by
  induction l generalizing s with
  | nil => rfl
  | cons v l ih => exact (ih _).trans (landVersion_slice_of_ne s v h)

/-- Landing more versions removes none. -/
theorem landed_subset_foldl_landVersion {n : Nat} (l : List Version) (s : State) (h : n < s.slices.length) :
    (s.slice n).landed ⊆ ((l.foldl (fun s v => s.landVersion n v) s).slice n).landed := by
  induction l generalizing s with
  | nil => exact List.Subset.refl _
  | cons v l ih =>
    obtain ⟨w, -, e⟩ := landVersion_landed v h
    have hs : (s.slice n).landed ⊆ ((s.landVersion n v).slice n).landed := by
      rw [e]
      exact List.subset_append_left _ _
    exact List.Subset.trans hs (ih _ (by rw [landVersion_slices_length]; exact h))

theorem mem_foldl_landVersion {n : Nat} (l : List Version) (s : State) (h : n < s.slices.length) {v : Version} (hv : v ∈ l) :
    ∃ w ∈ ((l.foldl (fun s v => s.landVersion n v) s).slice n).landed, LandedAs v w := by
  induction l generalizing s with
  | nil => cases hv
  | cons u l ih =>
    have hl : n < (s.landVersion n u).slices.length := by rw [landVersion_slices_length]; exact h
    rcases List.mem_cons.mp hv with rfl | hv
    · obtain ⟨w, hw, e⟩ := landVersion_landed v h
      have hm : w ∈ ((s.landVersion n v).slice n).landed := by rw [e]; exact List.mem_append_right _ (List.mem_singleton_self w)
      exact ⟨w, landed_subset_foldl_landVersion l _ hl hm, hw⟩
    · exact ih _ hl hv

/-- Landing blocks are taken, or none where there are none; what has landed stays. -/
theorem ite_useLanding_landed (c : Prop) [Decidable c] (x : Slice) (k : Nat) :
    (if c then x else x.useLanding k).landed = x.landed := by
  split
  · rfl
  · unfold Slice.useLanding
    generalize (x.landing.filter ResBlock.ready).take k = l
    induction l generalizing x with
    | nil => rfl
    | cons r l ih => exact ih (x.modReserve r.lun r.block fun r => { r with ready := false })

/-- A landing, once its faults are recorded and older copies are gone, lands the versions that are left, in its own slice (R128, R337). -/
theorem landSlice_cases (s : State) (n : Nat) (u : List Nat) :
    ∃ (p : State) (f : Slice → Slice), p.slices.length = s.slices.length ∧ (∀ k ≠ n, p.slice k = s.slice k) ∧
      (∀ x, (f x).landed = x.landed) ∧
      s.landSlice n u =
        (((s.slice n).toLand.filter fun v => !u.contains v.wslot).foldl (fun s v => s.landVersion n v) p).modSlice n f := by
  unfold State.landSlice
  dsimp only
  refine ⟨_, _, ?_, fun k hk => ?_, fun x => ?_, rfl⟩
  · rw [slices_length_modSlice, slices_foldl_deferVersion]
  · rw [slice_modSlice_of_ne _ _ hk]
    exact slice_congr (slices_foldl_deferVersion _ s n 3) k
  · exact ite_useLanding_landed _ x _

/-- A landing leaves the other slices alone (R128). -/
theorem landSlice_slice_of_ne {n k : Nat} (s : State) (u : List Nat) (h : k ≠ n) : (s.landSlice n u).slice k = s.slice k := by
  obtain ⟨p, f, -, hk, -, e⟩ := landSlice_cases s n u
  rw [e, slice_modSlice_of_ne _ _ h, slice_foldl_landVersion_of_ne _ _ h, hk k h]

theorem landSlice_slices_length (s : State) (n : Nat) (u : List Nat) : (s.landSlice n u).slices.length = s.slices.length := by
  obtain ⟨p, f, hl, -, -, e⟩ := landSlice_cases s n u
  rw [e, slices_length_modSlice, slices_length_foldl_landVersion, hl]

/-- Every acknowledged version that is not named as unlanded is in the landing region afterwards (R128, R337). -/
theorem mem_landSlice {n : Nat} (u : List Nat) (h : n < s.slices.length) {v : Version} (hv : v ∈ (s.slice n).toLand)
    (hu : v.wslot ∉ u) : ∃ w ∈ ((s.landSlice n u).slice n).landed, LandedAs v w := by
  obtain ⟨p, f, hl, -, hf, e⟩ := landSlice_cases s n u
  have hg : v ∈ (s.slice n).toLand.filter fun v => !u.contains v.wslot := by simpa using ⟨hv, hu⟩
  obtain ⟨w, hw, hvw⟩ := mem_foldl_landVersion (n := n) _ p (hl ▸ h) hg
  rw [e, slice_modSlice_self f (by rw [slices_length_foldl_landVersion, hl]; exact h), hf]
  exact ⟨w, hw, hvw⟩

/-- Every slice of a list landed, with its own versions that could not be (R337). -/
def landAll (unlanded : List (Nat × Nat)) (ns : List Nat) (s : State) : State :=
  ns.foldl (fun s n => s.landSlice n ((unlanded.filter fun u => u.1 == n).map (·.2))) s

theorem landAll_slices_length (u : List (Nat × Nat)) (ns : List Nat) (s : State) :
    (landAll u ns s).slices.length = s.slices.length := by
  induction ns generalizing s with
  | nil => rfl
  | cons m ns ih => exact (ih _).trans (landSlice_slices_length s m _)

theorem landAll_slice_of_notMem {n : Nat} (u : List (Nat × Nat)) (ns : List Nat) (s : State) (h : n ∉ ns) :
    (landAll u ns s).slice n = s.slice n := by
  induction ns generalizing s with
  | nil => rfl
  | cons m ns ih =>
    obtain ⟨hm, hns⟩ := not_or.mp (mt List.mem_cons.mpr h)
    exact (ih _ hns).trans (landSlice_slice_of_ne s _ hm)

theorem mem_landAll {n : Nat} (u : List (Nat × Nat)) (ns : List Nat) (s : State) (hd : ns.Nodup) (hn : n ∈ ns)
    (h : n < s.slices.length) {v : Version} (hv : v ∈ (s.slice n).toLand) (hu : (n, v.wslot) ∉ u) :
    ∃ w ∈ ((landAll u ns s).slice n).landed, LandedAs v w := by
  induction ns generalizing s with
  | nil => cases hn
  | cons m ns ih =>
    obtain ⟨hm, hns⟩ := List.nodup_cons.mp hd
    by_cases e : n = m
    · subst e
      have hw : v.wslot ∉ (u.filter fun q => q.1 == n).map (·.2) := by simpa using hu
      obtain ⟨w, hl, hvw⟩ := mem_landSlice _ h hv hw
      exact ⟨w, (congrArg Slice.landed (landAll_slice_of_notMem u ns _ hm)).symm ▸ hl, hvw⟩
    · refine ih (s.landSlice m _) hns ((List.mem_cons.mp hn).resolve_left e) ?_ ?_
      · rw [landSlice_slices_length]; exact h
      · rw [landSlice_slice_of_ne s _ e]; exact hv

end Sys2Proof.Proofs
end

section
/-!
The end of a Dump, and the resets after it and of a start (R337, R340, R351, R356, R386, R401, R406).
-/

namespace Sys2Proof.Proofs

open Sys2Proof.Machine Sys2Proof.Laws

variable {s t : State}

/-! ### The recorder written (R370, R372, R373) -/

theorem flushNotices_nvm (s : State) : ∃ l, s.flushNotices.nvm = { s.nvm with notices := l } := by
  unfold State.flushNotices
  generalize s.recorder.toWrite.drop 512 = rest
  dsimp only
  refine List.foldlRecOn (motive := fun t : State => ∃ l, t.nvm = { s.nvm with notices := l }) rest _ ⟨_, rfl⟩ fun t ht n _ => ?_
  obtain ⟨l, hl⟩ := ht
  split
  · exact ⟨_, congrArg (fun v : Nvm => { v with notices := (mergeNotice n t.nvm.notices.reverse).2.reverse }) hl⟩
  · exact ⟨l, hl⟩

/-- Writing the recorder touches its ring, its image and the wear of their pages. -/
theorem writeRecorder_nvm (s : State) :
    ∃ l p im, s.writeRecorder.nvm = { s.nvm with notices := l, pageWear := p, image := im } := by
  obtain ⟨l, hl⟩ := flushNotices_nvm s
  refine ⟨l, _, _, congrArg (fun v : Nvm => { v.wearPages _ with image := some s.flushNotices.liveImage }) hl⟩

/-! ### Step 7 of a Dump (R337, R356, R373) -/

/-- What step 7 of a Dump stores, once the slices have landed: the cause, the allowances, the mark, the notice and the recorder. -/
def dumpStored (s : State) : State :=
  let s := { s with pins := { s.pins with wpN := [] } }
  let s := (s.dumpCause).storeWear
  let s := s.modNvm fun v => { v with dumpMark := true, lastDump := s.power.dumpReason, lastEnd := s.power.dumpReason }
  (s.notice 3 s.power.dumpReason s.power.dumpAt s.now).writeRecorder

theorem execDumpComplete_eq (u : List (Nat × Nat)) (h : s.huMode = modeDump) :
    exec (.dumpComplete u) s = .next ((dumpStored (landAll u s.sliceList s)).setMode modeDown).resetIfLow :=
  if_neg (not_not_intro h)

theorem dumpStored_frame (s : State) : Frame 0x120000000006 s (dumpStored s) := by
  unfold dumpStored
  dsimp only
  refine writeRecorder_frame _ (notice_frame _ _ _ _ _ (modNvm_frame _ _ (storeWear_frame _ (dumpCause_frame _ ?_ ?_) ?_) ?_) ?_) ?_
  · exact upd_pins _ (Frame.refl _ _) rfl
  all_goals rfl

theorem notice_nvm (s : State) (kind source first last : Nat) : (s.notice kind source first last).nvm = s.nvm :=
  (notice_frame s kind source first last (Frame.refl 0x100000000004 s) rfl).same .nvm rfl

theorem writeRecorder_dumpMark (s : State) : s.writeRecorder.nvm.dumpMark = s.nvm.dumpMark := by
  obtain ⟨l, p, im, e⟩ := writeRecorder_nvm s
  rw [e]

theorem writeRecorder_lastDump (s : State) : s.writeRecorder.nvm.lastDump = s.nvm.lastDump := by
  obtain ⟨l, p, im, e⟩ := writeRecorder_nvm s
  rw [e]

theorem dumpStored_dumpMark (s : State) : (dumpStored s).nvm.dumpMark = true := by
  unfold dumpStored
  dsimp only
  rw [writeRecorder_dumpMark, notice_nvm]
  rfl

theorem dumpStored_lastDump (s : State) : (dumpStored s).nvm.lastDump = s.power.dumpReason := by
  unfold dumpStored
  dsimp only
  rw [writeRecorder_lastDump, notice_nvm]
  exact congrArg Power.dumpReason
    ((storeWear_frame _ (dumpCause_frame _ (upd_pins _ (Frame.refl 0x20000000002 s) rfl) rfl) rfl).same .power rfl)

theorem held_congr (h : t.pins = s.pins) : t.held = s.held := by
  unfold State.held
  rw [h]

theorem dumpStored_held (s : State) : (dumpStored s).held = s.held := by
  unfold dumpStored
  dsimp only
  refine held_congr (s := { s with pins := { s.pins with wpN := [] } }) ?_
  exact (writeRecorder_frame _ (notice_frame _ _ _ _ _ (modNvm_frame _ _ (storeWear_frame _ (dumpCause_frame _
    (Frame.refl 0x120000000004 _) rfl) rfl) rfl) rfl) rfl).same .pins rfl

/-! ### The mode changes (R326, R332) -/

theorem fld_wrQ_of_ne {a b : Nat} (s : State) (v : Int) (hi lo : Nat) (h : b ≠ a) : (s.wrQ a v).fld b hi lo = s.fld b hi lo :=
  fld_wr_of_ne s _ hi lo h

/-- A mode change sets MODE, and after it registers of LOOP_01 alone; the pins follow last. -/
theorem setMode_cases (s : State) (m : Nat) :
    ∃ p : State, p.pins = s.pins ∧ p.fld Adr.pwSts 2 0 = (s.putF Adr.pwSts 2 0 m).fld Adr.pwSts 2 0 ∧ s.setMode m = p.drivePwm := by
  have sp : Adr.pwSts ≠ Adr.pwLoopSp 1 := by decide
  have int : Adr.pwSts ≠ Adr.pwLoopInt 1 := by decide
  unfold State.setMode
  dsimp only
  split
  · refine ⟨_, ?_, ?_, rfl⟩
    · rfl
    · exact fld_wrQ_of_ne _ _ _ _ sp
  · refine ⟨_, ?_, ?_, rfl⟩
    · rfl
    · rw [fld_wrQ_of_ne _ _ _ _ int]
      exact fld_wrQ_of_ne _ _ _ _ sp

theorem drivePwm_held (s : State) : s.drivePwm.held = s.held := rfl

theorem setMode_held (s : State) (m : Nat) : (s.setMode m).held = s.held := by
  obtain ⟨p, hp, -, e⟩ := setMode_cases s m
  rw [e, drivePwm_held]
  exact held_congr hp

theorem setMode_huMode (s : State) (m : Nat) : (s.setMode m).huMode = m % 8 := by
  obtain ⟨p, -, hf, e⟩ := setMode_cases s m
  rw [e]
  exact hf.trans (fld_putF_self s _ 2 0 m (by decide) (by decide))

theorem setMode_nvm (s : State) (m : Nat) : (s.setMode m).nvm = s.nvm :=
  (setMode_frame s m (Frame.refl 0x40000000006 s) rfl).same .nvm rfl

theorem setMode_slices (s : State) (m : Nat) : (s.setMode m).slices = s.slices :=
  (setMode_frame s m (Frame.refl 0x40000000006 s) rfl).same .slices rfl

/-! ### A reset that a Dump put off (R386, R406) -/

theorem resetIfLow_of_held (h : s.held = true) : s.resetIfLow = s.packageReset := if_pos h

theorem resetIfLow_of_not_held (h : s.held = false) : s.resetIfLow = s := by
  simp only [State.resetIfLow, h, Bool.false_eq_true, if_false]

/-- What has landed stays through a package reset (R129, R338). -/
theorem packageReset_landed {n : Nat} (h : n < s.slices.length) : (s.packageReset.slice n).landed = (s.slice n).landed := by
  have e : s.packageReset.slice n = (s.slice n).powered := by
    simp [State.slice, State.packageReset, h]
  rw [e]
  rfl

theorem resetIfLow_landed {n : Nat} (h : n < s.slices.length) : (s.resetIfLow.slice n).landed = (s.slice n).landed := by
  unfold State.resetIfLow
  split
  · exact packageReset_landed h
  · rfl

theorem resetIfLow_mark (s : State) : s.resetIfLow.nvm.dumpMark = s.nvm.dumpMark ∧ s.resetIfLow.nvm.lastDump = s.nvm.lastDump := by
  unfold State.resetIfLow
  split
  · exact ⟨rfl, rfl⟩
  · exact ⟨rfl, rfl⟩

/-! ### A Dump completes -/

theorem landAll_frame (u : List (Nat × Nat)) (ns : List Nat) (s : State) : Frame 0x20000020300 s (landAll u ns s) :=
  Frame.foldl ns s (Frame.refl _ s) fun t n h => landSlice_frame t n _ h rfl

/-- No part of the package has more than 8 slices (R1). -/
theorem part_slices_le (p : Part) : p.slices ≤ 8 := by cases p <;> decide

/-- What the end of a Dump leaves (R337, R338, R356). -/
theorem dumpComplete_completes (u : List (Nat × Nat)) (hm : s.huMode = modeDump) (h8 : s.slices.length = 8) :
    Completes (.dumpComplete u) s fun t =>
      t.nvm.dumpMark = true ∧ t.nvm.lastDump = s.power.dumpReason ∧ (s.held = false → t.huMode = modeDown) ∧
      (s.held = true → WorkGone t) ∧
      ∀ n v, s.hasSlice n = true → v ∈ (s.slice n).toLand → (n, v.wslot) ∉ u → ∃ w ∈ (t.slice n).landed, LandedAs v w := by
  have hl := landAll_frame u s.sliceList s
  generalize hp : (dumpStored (landAll u s.sliceList s)).setMode modeDown = p
  have hheld : p.held = s.held := by
    rw [← hp, setMode_held, dumpStored_held]
    exact held_congr (hl.same .pins rfl)
  have hslices : p.slices = (landAll u s.sliceList s).slices := by
    rw [← hp, setMode_slices]
    exact (dumpStored_frame _).same .slices rfl
  have hlen : p.slices.length = 8 := by rw [hslices, landAll_slices_length, h8]
  obtain ⟨hmark, hlast⟩ := resetIfLow_mark p
  refine ⟨p.resetIfLow, hp ▸ execDumpComplete_eq u hm, ?_, ?_, fun hh => ?_, fun hh => ?_, fun n v hn hv hu => ?_⟩
  · rw [hmark, ← hp, setMode_nvm, dumpStored_dumpMark]
  · rw [hlast, ← hp, setMode_nvm, dumpStored_lastDump]
    exact congrArg Power.dumpReason (hl.same .power rfl)
  · rw [resetIfLow_of_not_held (hheld.trans hh), ← hp, setMode_huMode]
    rfl
  · rw [resetIfLow_of_held (hheld.trans hh)]
    exact workGone_packageReset p
  · have hn8 : n < 8 := Nat.lt_of_lt_of_le (of_decide_eq_true hn) (part_slices_le s.part)
    rw [resetIfLow_landed (hlen ▸ hn8), slice_congr hslices]
    exact mem_landAll u s.sliceList s List.nodup_range (List.mem_range.mpr (of_decide_eq_true hn)) (h8 ▸ hn8) hv hu

/-! ### DOWN, RESET_N, power (R340, R369, R401, R406) -/

theorem exec_of_not_down (h : s.huMode ≠ modeDown) : exec .downSupplyGood s = .next s ∧ exec .bankExhausted s = .next s :=
  ⟨congrArg Host.Outcome.next (if_neg h), if_pos h⟩

/-- A good supply in DOWN is a restart (R340). -/
theorem downSupplyGood_completes (h : s.huMode = modeDown) :
    Completes .downSupplyGood s fun t => WorkGone t ∧ t.part = s.part ∧ t.pending = s.pending :=
  ⟨_, congrArg Host.Outcome.next (if_pos h), workGone_restart s 1, restart_part s 1, restart_pending s 1⟩

/-- Pins show no work. -/
theorem workGone_withPins (h : WorkGone s) (p : Pins) : WorkGone { s with pins := p } :=
  ⟨h.course, h.inflight, h.tenants, h.invocations, h.digests, h.power, h.links⟩

/-- A bank that is exhausted in DOWN is a package reset without power (R340). -/
theorem bankExhausted_completes (h : s.huMode = modeDown) :
    Completes .bankExhausted s fun t => WorkGone t ∧ t.pins.powered = false ∧ t.pending = s.pending :=
  ⟨_, if_neg (not_not_intro h), workGone_withPins (workGone_packageReset s) _, rfl, rfl⟩

theorem resetNFall_completes (h : s.huMode ≠ modeDump) :
    Completes .resetNFall s fun t => WorkGone t ∧ t.pins.resetN = false :=
  ⟨_, congrArg Host.Outcome.next (if_neg h), workGone_packageReset _, rfl⟩

theorem resetNFall_of_dump (h : s.huMode = modeDump) :
    Completes .resetNFall s fun t => t.pins = { s.pins with resetN := false } ∧ OnlyChanges [.pins] s t :=
  ⟨_, congrArg Host.Outcome.next (if_pos h), rfl, onlyChanges_of_frame (upd_pins _ (Frame.refl (partMask [.pins]) s) rfl)⟩

/-- Power lost while a Dump runs leaves what the Dump has stored; at any other time it is stored as such an end (R354, R369). -/
theorem powerLost_completes (h : s.held = false) :
    Completes .powerLostWithoutDump s fun t => WorkGone t ∧ t.pins.powered = false ∧
      (s.dumping = false → t.nvm.lastEnd = 7 ∧ t.nvm.dumpBegun = true ∧ t.nvm.dumpMark = false) ∧
      (s.dumping = true → t.nvm.lastEnd = s.nvm.lastEnd ∧ t.nvm.dumpMark = s.nvm.dumpMark) := by
  have e : exec .powerLostWithoutDump s = execPowerLostWithoutDump s := rfl
  unfold Completes
  rw [e, execPowerLostWithoutDump, h]
  cases hd : s.dumping with
  | false => exact ⟨_, rfl, workGone_packageReset _, rfl, fun _ => ⟨rfl, rfl, rfl⟩, fun c => absurd c Bool.false_ne_true⟩
  | true => exact ⟨_, rfl, workGone_packageReset _, rfl, fun c => absurd c.symm Bool.false_ne_true, fun _ => ⟨rfl, rfl⟩⟩

/-! ### A start attempt fails (R351) -/

/-- While an attempt is open the start watchdog and a hub fault are restarts that count a power cycle (R351, R354). -/
theorem startFaults_restart (h : s.held = false) (hd : s.dumping = false) (ha : s.nvm.attempt.isSome = true) :
    (Completes .hubFault s fun t => WorkGone t ∧ t.nvm.cycles = s.nvm.cycles + 1) ∧
      (s.minimal = false → s.stage < 6 →
        Completes .startWatchdog s fun t => WorkGone t ∧ t.nvm.cycles = s.nvm.cycles + 1) := by
  refine ⟨⟨_, congrArg Host.Outcome.next (if_pos ?_), workGone_restart s 3, restart_cycles 3 h⟩, fun hmin hst =>
    ⟨_, congrArg Host.Outcome.next (if_pos ?_), workGone_restart s 4, restart_cycles 4 h⟩⟩
  · rw [h, hd, ha]
    rfl
  · rw [h, hd, ha, hmin, decide_eq_true hst]
    rfl

theorem startFaults_without_attempt (ha : s.nvm.attempt = none) :
    exec .hubFault s = .next s ∧ exec .startWatchdog s = .next s := by
  refine ⟨congrArg Host.Outcome.next (if_neg ?_), congrArg Host.Outcome.next (if_neg ?_)⟩
  · simp [ha]
  · simp [ha]

theorem startWatchdog_after_ready (h : s.minimal = true ∨ 6 ≤ s.stage) : exec .startWatchdog s = .next s := by
  refine congrArg Host.Outcome.next (if_neg ?_)
  rcases h with h | h
  · simp [h]
  · simp [Nat.not_lt.mpr h]

/-! ### Boundary scan (R386) -/

theorem rd_jtagField_of_ne {a : Nat} (s : State) (scan : Bool) (h : a ≠ Adr.tcSts) : (s.jtagField scan).rd a = s.rd a := by
  unfold State.jtagField
  split
  · rfl
  · exact rd_putF_of_ne s _ _ _ h

theorem jtagField_pins (s : State) (scan : Bool) : (s.jtagField scan).pins = s.pins :=
  (jtagField_frame s scan (Frame.refl 0x4 s) rfl).same .pins rfl

theorem workGone_jtagField (h : WorkGone s) (scan : Bool) : WorkGone (s.jtagField scan) :=
  have f := jtagField_frame s scan (Frame.refl 0x4 s) rfl
  workGone_of_frame h f (by decide) ((f.same .inflight rfl).trans h.inflight)

/-- An instruction that drives the pins is a package reset, in which the package is held (R386). -/
theorem jtagHold_completes {i : JtagInstr} (hi : JtagHold i = true) (h : s.huMode ≠ modeDump) :
    Completes (.jtagInstruction i) s fun t => WorkGone t ∧ t.pins.jtagHold = true ∧ t.held = true := by
  generalize hp : { s with pins := { s.pins with jtagHold := true } } = p
  have e : exec (.jtagInstruction i) s = .next (p.packageReset.jtagField true) := by
    have hm : p.huMode ≠ modeDump := hp ▸ h
    exact (if_pos hi).trans (congrArg _ (by dsimp only; rw [hp, if_neg hm]))
  have hj : (p.packageReset.jtagField true).pins.jtagHold = true := by rw [jtagField_pins, ← hp]; rfl
  exact ⟨_, e, workGone_jtagField (workGone_packageReset p) true, hj, by simp [State.held, hj]⟩

/-- In a Dump the hold is put off until DOWN (R386, R406). -/
theorem jtagHold_of_dump {i : JtagInstr} (hi : JtagHold i = true) (h : s.huMode = modeDump) :
    Completes (.jtagInstruction i) s fun t => t.pins.jtagHold = true ∧ OnlyChanges [.pins, .regs] s t := by
  generalize hp : { s with pins := { s.pins with jtagHold := true } } = p
  have e : exec (.jtagInstruction i) s = .next (p.jtagField true) := by
    have hm : p.huMode = modeDump := hp ▸ h
    exact (if_pos hi).trans (congrArg _ (by dsimp only; rw [hp, if_pos hm]))
  have hf : Frame (partMask [.pins, .regs]) s p := hp ▸ upd_pins _ (Frame.refl _ s) rfl
  exact ⟨_, e, by rw [jtagField_pins, ← hp], onlyChanges_of_frame (jtagField_frame p true hf rfl)⟩

/-- The other instructions show in TC_STS alone (R386). -/
theorem jtagFree_completes {i : JtagInstr} (hi : JtagHold i = false) :
    Completes (.jtagInstruction i) s fun t => RegsBut [Adr.tcSts] s t ∧ OnlyChanges [.regs] s t := by
  have e : exec (.jtagInstruction i) s = .next (s.jtagField (s.pins.jtagHold || i == JtagInstr.samplePreload)) :=
    if_neg (by rw [hi]; exact Bool.false_ne_true)
  exact ⟨_, e, fun a ha => rd_jtagField_of_ne s _ (by simpa using ha),
    onlyChanges_of_frame (jtagField_frame s _ (Frame.refl (partMask [.regs]) s) rfl)⟩

/-- Settles O55, clause by clause. -/
theorem resetsEndTheWork : Obligations.ResetsEndTheWork := by
  refine ⟨fun l s hm h8 => ?_, fun l s h => if_pos h, fun s h => ⟨downSupplyGood_completes h, bankExhausted_completes h⟩,
    fun s h => exec_of_not_down h, fun s => ⟨resetNFall_completes, resetNFall_of_dump⟩, fun s h => powerLost_completes h,
    fun s h hd => ⟨startFaults_restart h hd, startFaults_without_attempt, startWatchdog_after_ready⟩,
    fun i s => ⟨jtagHold_completes, jtagHold_of_dump, jtagFree_completes⟩⟩
  obtain ⟨t, e, hmark, hlast, hdown, hgone, hland⟩ := dumpComplete_completes l hm h8
  refine ⟨t, e, hmark, hlast, hdown, hgone, fun n v hn hv hu => ?_⟩
  obtain ⟨w, hw, h⟩ := hland n v hn hv hu
  exact ⟨w, hw, h.wslot, h.nsid, h.lua, h.blocks, h.acked⟩

end Sys2Proof.Proofs
end

section
/-!
The vendor window (R5, R35, R327, R387 to R395): what reads of it answer, what writes store, and how an access that reaches no register
is recorded.
-/

namespace Sys2Proof.Proofs

open Sys2Proof.Machine Sys2Proof.Laws

variable {s : State} {a : Nat}

/-! ### Accesses of the window (R387, R389) -/

theorem inWindow_outside (f : State → State) (h : 0x4000000 ≤ a) : s.inWindow a f = .fault .outsideWindow := if_pos h

theorem inWindow_inside (f : State → State) (h : a < 0x4000000) : s.inWindow a f = .next (if s.windowOpen then f s else s) :=
  if_neg (Nat.not_le.mpr h)

theorem inWindow_closed (f : State → State) (h : a < 0x4000000) (hc : s.windowOpen = false) : s.inWindow a f = .next s := by
  rw [inWindow_inside f h, hc]
  rfl

theorem inWindow_open {f : State → State} {t : State} (h : a < 0x4000000) (ho : s.windowOpen = true) (e : f s = t) :
    s.inWindow a f = .next t := by
  rw [inWindow_inside f h, ho, ← e]
  rfl

theorem exec_loRegisterRead_inWindow (s : State) (a : Nat) : exec (.loRegisterRead a) s =
    s.inWindow a fun s => if a % 4 ≠ 0 then s.badWidth a false else s.readReg a := rfl

theorem exec_registerWrite_inWindow (s : State) (a : Nat) (v : BitVec 32) : exec (.registerWrite a v) s =
    s.inWindow a fun s => if a % 4 ≠ 0 then s.badWidth a true else s.writeReg a v := rfl

theorem exec_reservedAccess_inWindow (s : State) (a : Nat) (w : Bool) : exec (.reservedAccess a w) s =
    s.inWindow a fun s => if a % 4 ≠ 0 then s.badWidth a w else if w then s.flagged a (s.access a) else s.readReg a := rfl

theorem exec_unsupportedWidth_inWindow (s : State) (a size : Nat) (w : Bool) : exec (.unsupportedWidthAccess a size w) s =
    s.inWindow a fun s => if (size = 4 ∨ size = 8) ∧ a % size = 0 then s else s.badWidth a w := rfl

section
variable (h : a < 0x4000000) (ho : s.windowOpen = true)
include h ho

theorem exec_loRegisterRead (h4 : a % 4 = 0) : exec (.loRegisterRead a) s = .next (s.readReg a) := by
  rw [exec_loRegisterRead_inWindow]
  exact inWindow_open h ho (if_neg (not_not_intro h4))

theorem exec_registerWrite (v : BitVec 32) (h4 : a % 4 = 0) : exec (.registerWrite a v) s = .next (s.writeReg a v) := by
  rw [exec_registerWrite_inWindow]
  exact inWindow_open h ho (if_neg (not_not_intro h4))

theorem exec_reservedRead (h4 : a % 4 = 0) : exec (.reservedAccess a false) s = .next (s.readReg a) := by
  rw [exec_reservedAccess_inWindow]
  exact inWindow_open h ho (if_neg (not_not_intro h4))

theorem exec_reservedWrite (h4 : a % 4 = 0) : exec (.reservedAccess a true) s = .next (s.flagged a (s.access a)) := by
  rw [exec_reservedAccess_inWindow]
  exact inWindow_open h ho (if_neg (not_not_intro h4))

theorem exec_unsupportedWidth (size : Nat) (w : Bool) (hw : ¬((size = 4 ∨ size = 8) ∧ a % size = 0)) :
    exec (.unsupportedWidthAccess a size w) s = .next (s.badWidth a w) := by
  rw [exec_unsupportedWidth_inWindow]
  exact inWindow_open h ho (if_neg hw)

end

/-! ### Low and high halves (R392) -/

/-- The offsets, in the hub or in a slice's window, of the low halves. -/
theorem isLo_iff (a : Nat) : isLo a = true ↔
    (a < 0x1000000 ∧ (a ∈ [0x8, 0x30010, 0x40018, 0x40020, 0x90008] ∨ 0x40100 ≤ a ∧ a < 0x40200 ∧ a % 16 = 8)) ∨
      0x1000000 ≤ a ∧ ((a - 0x1000000) % 0x400000 ∈
          [0x40308, 0x40310, 0x100038, 0x100040, 0x140018, 0x140020, 0x160018, 0x160020, 0x160030, 0x160038, 0x180020, 0x180028,
            0x1C0110, 0x1C0150, 0x1C0190, 0x1C01D0, 0x240014, 0x280044] ∨
        0x40340 ≤ (a - 0x1000000) % 0x400000 ∧ (a - 0x1000000) % 0x400000 < 0x403C0 ∧ (a - 0x1000000) % 0x400000 % 8 = 0) := by
  unfold isLo
  split
  · next h => simp [h, Nat.not_le.mpr h, and_assoc]
  · next h => simp [h, Nat.not_lt.mp h, and_assoc]

/-- No low half lies right above another. -/
theorem isLo_sub_four (h : isLo a = true) : isLo (a - 4) = false := by
  rw [← Bool.not_eq_true]
  intro h'
  rw [isLo_iff] at h h'
  simp only [List.mem_cons, List.not_mem_nil, or_false] at h h'
  omega

/-- FT_FMT_STS is no low half. -/
theorem isLo_fmtSts (h : isLo a = true) : ¬(0x1000000 ≤ a ∧ (a - 0x1000000) % 0x400000 = 0x100058) := by
  intro h'
  rw [isLo_iff] at h
  simp only [List.mem_cons, List.not_mem_nil, or_false] at h
  omega

/-! ### Reads (R5, R392, R394) -/

/-- A read of a low half returns its value and latches the high half (R392). -/
theorem readReg_of_lo {r : RegRow} (hr : s.access a = .register r) (hl : isLo a = true) :
    s.readReg a = ({ s with latches := mapInsert s.latches (a + 4) (s.value (a + 4)) } : State).answerRead
      (s.value a &&& ~~~(BitVec.ofNat 32 r.wo)) := by
  have hq : s.readValue a r = (s, s.value a &&& ~~~(BitVec.ofNat 32 r.wo)) := by
    have hf := isLo_fmtSts hl
    unfold State.readValue
    dsimp only
    rw [if_neg (by simp [isLo_sub_four hl]), if_neg (fun c => hf ⟨c.1, c.2.1⟩)]
  unfold State.readReg
  rw [hr]
  dsimp only
  rw [hq, if_pos hl]

/-- A register that is no low half reads as readValue says. -/
theorem readReg_of_not_lo {r : RegRow} (hr : s.access a = .register r) (hl : isLo a = false) :
    s.readReg a = (s.readValue a r).1.answerRead (s.readValue a r).2 := by
  unfold State.readReg
  rw [hr]
  dsimp only
  rw [if_neg (by simp [hl])]

/-- A read of a high half returns what the last read of its low half latched (R392; log entry 44). -/
theorem readReg_of_hi {r : RegRow} (hr : s.access a = .register r) (h4 : 4 ≤ a) (hh : isLo (a - 4) = true) (hl : isLo a = false) :
    s.readReg a = s.answerRead ((mapGet s.latches a).getD 0) := by
  rw [readReg_of_not_lo hr hl, State.readValue, if_pos ⟨h4, hh⟩]

/-- Is it FT_FMT_STS of a slice whose format runs, so that PCT is free (log entry 4)? -/
def formatRuns (a : Nat) (v : Word) : Prop := 0x1000000 ≤ a ∧ (a - 0x1000000) % 0x400000 = 0x100058 ∧ bits v 31 28 = 1

theorem readReg_of_plain {r : RegRow} {v : Word} (hr : s.access a = .register r) (hl : isLo a = false) (hh : isLo (a - 4) = false)
    (hv : v = s.value a &&& ~~~(BitVec.ofNat 32 r.wo)) (hf : ¬formatRuns a v) : s.readReg a = s.answerRead v := by
  unfold formatRuns at hf
  rw [readReg_of_not_lo hr hl, State.readValue, if_neg (by simp [hh]), ← hv]
  dsimp only
  rw [if_neg hf]

theorem readReg_of_format {r : RegRow} {v : Word} (hr : s.access a = .register r) (hl : isLo a = false) (hh : isLo (a - 4) = false)
    (hv : v = s.value a &&& ~~~(BitVec.ofNat 32 r.wo)) (hf : formatRuns a v) :
    s.readReg a = s.free.2.answerRead (setBits v 7 0 (s.free.1 % 100)) := by
  unfold formatRuns at hf
  rw [readReg_of_not_lo hr hl, State.readValue, if_neg (by simp [hh]), ← hv]
  dsimp only
  rw [if_pos hf]

/-- An offline slice answers for TS and EC alone (R394). -/
theorem readReg_of_offline {r : RegRow} (hr : s.access a = .offline r) (h : (a - 0x1000000) % 0x400000 < 0x280000) :
    s.readReg a = s.answerRead 0 := by
  unfold State.readReg
  rw [hr]
  exact if_neg (Nat.not_le.mpr h)

theorem onlyChanges_answerRead (s : State) (v : Word) : OnlyChanges [.busRead] s (s.answerRead v) :=
  onlyChanges_of_frame (answerRead_frame s v (Frame.refl (partMask [.busRead]) s) rfl)

/-! ### Accesses that reach no register (R391, R394, R395) -/

/-- The flag that HUB_ACC_STS shows of an access that reaches no register (R394, R395). -/
def flagOf (x : Access) (b : Nat) : Prop := x = .reserved ∧ b = 31 ∨ x = .asleep ∧ b = 29 ∨ x = .early ∧ b = 28

/-- The first access that is flagged is recorded with its flag and address, and no later one. -/
theorem rd_flagAccess (s : State) (b a : Nat) : (s.flagAccess b a).rd Adr.hubAccSts =
    if s.fld Adr.hubAccSts 31 28 = 0 then BitVec.ofNat 32 (2 ^ b + a % 2 ^ 26) else s.rd Adr.hubAccSts := by
  unfold State.flagAccess
  by_cases h : s.fld Adr.hubAccSts 31 28 = 0
  · rw [if_neg (not_not_intro h), if_pos h, rd_wr_self]
  · rw [if_pos h, if_neg h]

theorem regsBut_flagAccess (s : State) (b a : Nat) : RegsBut [Adr.hubAccSts] s (s.flagAccess b a) := by
  intro c hc
  unfold State.flagAccess
  split
  · rfl
  · exact rd_wr_of_ne s _ (by simpa using hc)

theorem flagged_eq {x : Access} {b : Nat} (h : flagOf x b) (s : State) (a : Nat) : s.flagged a x = s.flagAccess b a := by
  rcases h with ⟨rfl, rfl⟩ | ⟨rfl, rfl⟩ | ⟨rfl, rfl⟩ <;> rfl

theorem readReg_of_flagged {b : Nat} (h : flagOf (s.access a) b) : s.readReg a = (s.flagAccess b a).answerRead 0 := by
  rw [← flagged_eq h s a]
  unfold State.readReg
  rcases h with ⟨hx, -⟩ | ⟨hx, -⟩ | ⟨hx, -⟩ <;> rw [hx]

theorem writeReg_of_flagged {b : Nat} (h : flagOf (s.access a) b) (v : Word) : s.writeReg a v = s.flagAccess b a := by
  rw [← flagged_eq h s a]
  unfold State.writeReg
  rcases h with ⟨hx, -⟩ | ⟨hx, -⟩ | ⟨hx, -⟩ <;> rw [hx]

theorem onlyChanges_flagAccess (s : State) (b a : Nat) : OnlyChanges [.regs] s (s.flagAccess b a) :=
  onlyChanges_of_frame (flagAccess_frame s b a (Frame.refl (partMask [.regs]) s) rfl)

theorem onlyChanges_badWidth (s : State) (a : Nat) (w : Bool) : OnlyChanges [.regs, .busRead] s (s.badWidth a w) :=
  onlyChanges_of_frame (badWidth_frame s a w (Frame.refl (partMask [.regs, .busRead]) s) rfl)

/-! ### Writes (R5, R35, R327) -/

theorem testBit_bits (w : Word) (hi lo i : Nat) : (bits w hi lo).testBit i = (decide (i < hi - lo + 1) && w.getLsbD (lo + i)) := by
  simp only [bits, Nat.testBit_mod_two_pow, Nat.testBit_shiftRight, BitVec.getLsbD]

/-- A field that is 0 has no bit. -/
theorem getLsbD_of_bits_zero {w : Word} {hi lo k : Nat} (h : bits w hi lo = 0) (hl : lo ≤ k) (hk : k ≤ hi) : w.getLsbD k = false := by
  have e := testBit_bits w hi lo (k - lo)
  rw [h, Nat.zero_testBit, decide_eq_true (by omega), Bool.true_and, Nat.add_sub_cancel' hl] at e
  exact e.symm

/-- A write to a slice without bits 31 and 30 stores and asks for nothing more. -/
theorem writeSlice_of_no_action (s : State) (a : Nat) (r : RegRow) {v : Word} (h : bits v 31 30 = 0) :
    s.writeSlice a r v = s.plainWrite a r v := by
  have h31 : v.getLsbD 31 = false := getLsbD_of_bits_zero h (by decide) (by decide)
  have h30 : v.getLsbD 30 = false := getLsbD_of_bits_zero h (by decide) (by decide)
  simp only [State.writeSlice, h31, h30, Bool.false_eq_true, and_false, if_false, ite_self]

/-- The hub blocks CFG, FN, KS, DG and ST have no register whose write does more than store. -/
theorem writeHub_of_plain (s : State) (r : RegRow) (v : Word) (h : a / 0x10000 ∈ [0, 1, 3, 4, 0xA]) :
    s.writeHub a r v = s.plainWrite a r v := by
  simp only [List.mem_cons, List.not_mem_nil, or_false] at h
  unfold State.writeHub
  rcases h with h | h | h | h | h <;>
    (rw [h]; rfl)

theorem writeReg_hub {r : RegRow} (hr : s.access a = .register r) (ha : a < 0x1000000) (v : Word) :
    s.writeReg a v = s.writeHub a r v := by
  unfold State.writeReg
  rw [hr]
  exact if_pos ha

theorem writeReg_slice {r : RegRow} (hr : s.access a = .register r) (ha : 0x1000000 ≤ a) (v : Word) :
    s.writeReg a v = s.writeSlice a r v := by
  unfold State.writeReg
  rw [hr]
  exact if_neg (Nat.not_lt.mpr ha)

theorem writeReg_plain {r : RegRow} {v : Word} (hr : s.access a = .register r)
    (h : a < 0x1000000 ∧ a / 0x10000 ∈ [0, 1, 3, 4, 0xA] ∨ 0x1000000 ≤ a ∧ bits v 31 30 = 0) :
    s.writeReg a v = s.plainWrite a r v := by
  rcases h with ⟨ha, hb⟩ | ⟨ha, hb⟩
  · rw [writeReg_hub hr ha, writeHub_of_plain s r v hb]
  · rw [writeReg_slice hr ha, writeSlice_of_no_action s a r hb]

theorem writeReg_of_offline {r : RegRow} (hr : s.access a = .offline r) (v : Word) : s.writeReg a v = s := by
  unfold State.writeReg
  rw [hr]

theorem onlyChanges_wr (s : State) (a : Nat) (v : Word) : OnlyChanges [.regs] s (s.wr a v) :=
  onlyChanges_of_frame (wr_frame a v (Frame.refl (partMask [.regs]) s) rfl)

theorem regsBut_wr (s : State) (a : Nat) (v : Word) : RegsBut [a] s (s.wr a v) :=
  fun _ hb => rd_wr_of_ne s v (by simpa using hb)

/-- The registers of the bond table, the weights and CK_DEVWGT that a commit takes (R35). -/
def shadowReg (a : Nat) : Prop := 0x91800 ≤ a ∧ a < 0x92000 ∨ 0x98000 ≤ a ∧ a < 0xA0000 ∨ a = 0x90018 ∨ a = 0x9001C

/-- While a commit waits, a write of what it will take is ignored (R35). -/
theorem writeReg_of_shadow {r : RegRow} (hr : s.access a = .register r) (h : shadowReg a) (hp : s.bit Adr.ckCommitSts 7 = true)
    (v : Word) : s.writeReg a v = s.setBit Adr.ckCommitSts 6 := by
  unfold shadowReg at h
  have hblk : a / 0x10000 = 9 := by omega
  have hs : (decide (0x1800 ≤ a % 0x10000) && decide (a % 0x10000 < 0x2000) || decide (0x8000 ≤ a % 0x10000) ||
      a % 0x10000 == 0x18 || a % 0x10000 == 0x1C) = true := by
    simp only [Bool.or_eq_true, Bool.and_eq_true, decide_eq_true_eq, beq_iff_eq]
    omega
  rw [writeReg_hub hr (by omega)]
  unfold State.writeHub
  rw [hblk]
  dsimp only
  unfold State.writeCk
  dsimp only
  rw [hs, hp]
  rfl

/-- A register of a closed loop from KP on is locked (R327). -/
theorem writeReg_of_locked {r : RegRow} {n k : Nat} (hr : s.access a = .register r) (hn : n < 16)
    (ha : a = 0x80100 + 64 * n + 4 * k) (h3 : 3 ≤ k) (hk : k < 16) (hrw : r.rw ≠ 0) (hc : s.loopClosed n = true) (v : Word) :
    s.writeReg a v = s.setBit (Adr.pwLoopSts n) 6 := by
  have hblk : a / 0x10000 = 8 := by omega
  have hreg : loopReg (a % 0x10000) = some (n, 4 * k) := by
    have hnum : (a % 0x10000 - 0x100) / 64 = n := by omega
    have hplace : (a % 0x10000 - 0x100) % 64 = 4 * k := by omega
    unfold loopReg
    rw [if_pos (by omega), hnum, hplace]
  have hloop : s.writeLoop a n (4 * k) r v = s.cfgIgnored n := by
    unfold State.writeLoop
    split
    · omega
    · omega
    · omega
    · simp [hc, hrw]
  rw [writeReg_hub hr (by omega)]
  unfold State.writeHub
  rw [hblk]
  dsimp only
  unfold State.writePw
  rw [hreg]
  exact hloop

/-! ### The statement, clause by clause -/

/-- Reads of a register that answers (R5, R392; log entries 4 and 44). -/
theorem reads_of_register {r : RegRow} (h : a < 0x4000000) (h4 : a % 4 = 0) (ho : s.windowOpen = true)
    (hr : s.access a = .register r) :
    (isLo a = true → Completes (.loRegisterRead a) s fun t => mapGet t.latches (a + 4) = some (s.value (a + 4)) ∧
      t.busRead = s.value a &&& ~~~(BitVec.ofNat 32 r.wo) ∧ OnlyChanges [.latches, .busRead] s t) ∧
    (4 ≤ a → isLo (a - 4) = true → isLo a = false → Completes (.loRegisterRead a) s fun t =>
      t.busRead = (mapGet s.latches a).getD 0 ∧ OnlyChanges [.busRead] s t) ∧
    (∀ v, isLo a = false → isLo (a - 4) = false → v = s.value a &&& ~~~(BitVec.ofNat 32 r.wo) →
      (a < 0x1000000 ∨ (a - 0x1000000) % 0x400000 ≠ 0x100058 ∨ bits v 31 28 ≠ 1 → Completes (.loRegisterRead a) s fun t =>
        t.busRead = v ∧ OnlyChanges [.busRead] s t) ∧
      (0x1000000 ≤ a → (a - 0x1000000) % 0x400000 = 0x100058 → bits v 31 28 = 1 → Completes (.loRegisterRead a) s fun t =>
        (∃ p, p < 100 ∧ t.busRead = setBits v 7 0 p) ∧ OnlyChanges [.busRead, .fresh] s t)) := by
  have e := exec_loRegisterRead h ho h4
  refine ⟨fun hl => ?_, fun hge hh hl => ?_, fun v hl hh hv => ⟨fun hf => ?_, fun hge hoff hrun => ?_⟩⟩
  · refine ⟨_, e.trans (congrArg _ (readReg_of_lo hr hl)), ?_, rfl, ?_⟩
    · exact (mapGet_mapInsert s.latches (a + 4) (a + 4) _).trans (if_pos rfl)
    · exact onlyChanges_of_frame
        (answerRead_frame _ _ (upd_latches _ (Frame.refl (partMask [.latches, .busRead]) s) rfl) rfl)
  · exact ⟨_, e.trans (congrArg _ (readReg_of_hi hr hge hh hl)), rfl, onlyChanges_answerRead s _⟩
  · have hn : ¬formatRuns a v := fun ⟨hge, hoff, hrun⟩ => by
      rcases hf with hf | hf | hf
      · exact Nat.not_le.mpr hf hge
      · exact hf hoff
      · exact hf hrun
    exact ⟨_, e.trans (congrArg _ (readReg_of_plain hr hl hh hv hn)), rfl, onlyChanges_answerRead s v⟩
  · refine ⟨_, e.trans (congrArg _ (readReg_of_format hr hl hh hv ⟨hge, hoff, hrun⟩)), ⟨_, Nat.mod_lt _ (by decide), rfl⟩, ?_⟩
    exact onlyChanges_of_frame (answerRead_frame _ _ (free_frame s (Frame.refl (partMask [.busRead, .fresh]) s) rfl) rfl)

/-- Accesses of an offline slice's registers (R394). -/
theorem accesses_of_offline {r : RegRow} (h : a < 0x4000000) (h4 : a % 4 = 0) (ho : s.windowOpen = true)
    (hr : s.access a = .offline r) (v : BitVec 32) :
    exec (.registerWrite a v) s = .next s ∧ ((a - 0x1000000) % 0x400000 < 0x280000 →
      Completes (.loRegisterRead a) s fun t => t.busRead = 0 ∧ OnlyChanges [.busRead] s t) :=
  ⟨(exec_registerWrite h ho v h4).trans (congrArg _ (writeReg_of_offline hr v)), fun hoff =>
    ⟨_, (exec_loRegisterRead h ho h4).trans (congrArg _ (readReg_of_offline hr hoff)), rfl, onlyChanges_answerRead s 0⟩⟩

/-- An access that reaches no register completes, a read with 0, and is recorded (R394, R395). -/
theorem accesses_flagged {b : Nat} (h : a < 0x4000000) (h4 : a % 4 = 0) (ho : s.windowOpen = true) (hf : flagOf (s.access a) b) :
    (Completes (.reservedAccess a false) s fun t => t.busRead = 0 ∧ RegsBut [Adr.hubAccSts] s t ∧
      t.rd Adr.hubAccSts = (if s.fld Adr.hubAccSts 31 28 = 0 then BitVec.ofNat 32 (2 ^ b + a % 2 ^ 26) else s.rd Adr.hubAccSts) ∧
      OnlyChanges [.regs, .busRead] s t) ∧
    ∀ c, (∃ v, c = .registerWrite a v) ∨ c = .reservedAccess a true → Completes c s fun t => RegsBut [Adr.hubAccSts] s t ∧
      t.rd Adr.hubAccSts = (if s.fld Adr.hubAccSts 31 28 = 0 then BitVec.ofNat 32 (2 ^ b + a % 2 ^ 26) else s.rd Adr.hubAccSts) ∧
      OnlyChanges [.regs] s t := by
  constructor
  · refine ⟨_, (exec_reservedRead h ho h4).trans (congrArg _ (readReg_of_flagged hf)), rfl, regsBut_flagAccess s b a,
      rd_flagAccess s b a, ?_⟩
    exact onlyChanges_of_frame (answerRead_frame _ _ (flagAccess_frame s b a (Frame.refl (partMask [.regs, .busRead]) s) rfl) rfl)
  · intro c hc
    have e : exec c s = .next (s.flagAccess b a) := by
      rcases hc with ⟨v, rfl⟩ | rfl
      · exact (exec_registerWrite h ho v h4).trans (congrArg _ (writeReg_of_flagged hf v))
      · exact (exec_reservedWrite h ho h4).trans (congrArg _ (flagged_eq hf s a))
    exact ⟨_, e, regsBut_flagAccess s b a, rd_flagAccess s b a, onlyChanges_flagAccess s b a⟩

/-- A write of a register that only stores (R5). -/
theorem writes_stored {r : RegRow} {v : BitVec 32} (h : a < 0x4000000) (h4 : a % 4 = 0) (ho : s.windowOpen = true)
    (hr : s.access a = .register r)
    (hp : a < 0x1000000 ∧ a / 0x10000 ∈ [0, 1, 3, 4, 0xA] ∨ 0x1000000 ≤ a ∧ bits v 31 30 = 0) :
    Completes (.registerWrite a v) s fun t => t.rd a = r.write (s.rd a) v ∧ RegsBut [a] s t ∧ OnlyChanges [.regs] s t :=
  ⟨_, (exec_registerWrite h ho v h4).trans (congrArg _ (writeReg_plain hr hp)), rd_wr_self s a _, regsBut_wr s a _,
    onlyChanges_wr s a _⟩

/-- A write that is ignored shows as one bit (R35, R327). -/
theorem writes_ignored {v : BitVec 32} {c k : Nat} (h : a < 0x4000000) (h4 : a % 4 = 0) (ho : s.windowOpen = true) (hk : k < 32)
    (e : s.writeReg a v = s.setBit c k) :
    Completes (.registerWrite a v) s fun t => t.bit c k = true ∧ RegsBut [c] s t ∧ OnlyChanges [.regs] s t :=
  ⟨_, (exec_registerWrite h ho v h4).trans (congrArg _ e), bit_setBit_self s c k hk, regsBut_wr s c _, onlyChanges_wr s c _⟩

/-- An access of an unsupported width or alignment is recorded with WIDTH; a read returns 0 (R391). -/
theorem unsupportedWidth_completes (size : Nat) (w : Bool) (h : a < 0x4000000) (ho : s.windowOpen = true)
    (hw : ¬((size = 4 ∨ size = 8) ∧ a % size = 0)) :
    Completes (.unsupportedWidthAccess a size w) s fun t => RegsBut [Adr.hubAccSts] s t ∧
      t.rd Adr.hubAccSts = (if s.fld Adr.hubAccSts 31 28 = 0 then BitVec.ofNat 32 (2 ^ 30 + a % 2 ^ 26) else s.rd Adr.hubAccSts) ∧
      t.busRead = (if w then s.busRead else 0) ∧ OnlyChanges [.regs, .busRead] s t := by
  refine ⟨_, exec_unsupportedWidth h ho size w hw, ?_⟩
  have hb : (s.flagAccess 30 a).busRead = s.busRead := (flagAccess_frame s 30 a (Frame.refl 0x4 s) rfl).same .busRead rfl
  cases w with
  | false => exact ⟨regsBut_flagAccess s 30 a, rd_flagAccess s 30 a, rfl, onlyChanges_badWidth s a false⟩
  | true => exact ⟨regsBut_flagAccess s 30 a, rd_flagAccess s 30 a, hb, onlyChanges_badWidth s a true⟩

/-- Settles O59, clause by clause. -/
theorem theWindowAnswersAndStores : Obligations.TheWindowAnswersAndStores := by
  refine ⟨fun a size w v s h => ?_, fun a size w v s h hc => ?_, fun a s h h4 ho => ⟨fun r hr => ?_, fun r v hr => ?_, ?_⟩,
    fun a v s r h h4 ho hr hp => writes_stored h h4 ho hr hp, fun a v s r ho hr h4 => ⟨fun hs hp => ?_, ?_⟩,
    fun a size w s h ho hw => unsupportedWidth_completes size w h ho hw⟩
  · rw [exec_loRegisterRead_inWindow, exec_registerWrite_inWindow, exec_reservedAccess_inWindow, exec_unsupportedWidth_inWindow]
    exact ⟨inWindow_outside _ h, inWindow_outside _ h, inWindow_outside _ h, inWindow_outside _ h⟩
  · rw [exec_loRegisterRead_inWindow, exec_registerWrite_inWindow, exec_reservedAccess_inWindow, exec_unsupportedWidth_inWindow]
    exact ⟨inWindow_closed _ h hc, inWindow_closed _ h hc, inWindow_closed _ h hc, inWindow_closed _ h hc⟩
  · exact reads_of_register h h4 ho hr
  · exact accesses_of_offline h h4 ho hr v
  · intro b x hx hax
    exact accesses_flagged h h4 ho (hax ▸ hx)
  · exact writes_ignored (by omega) h4 ho (by decide) (writeReg_of_shadow hr hs hp v)
  · intro n k hn ha h3 hk hrw hc
    exact writes_ignored (by omega) h4 ho (by decide) (writeReg_of_locked hr hn ha h3 hk hrw hc v)

end Sys2Proof.Proofs
end

section
/-!
What a command meets before its own meaning (R49, R69, R72, R364): the gates that it passes, and how its record in flight stands once it is
dispatched.
-/

namespace Sys2Proof.Proofs

open Sys2Proof.Machine Sys2Proof.Laws

variable {s t : State} {h : Hdr}

/-! ### Records in flight -/

theorem inFlight_congr (e : t.inflight = s.inflight) (g : Hdr) : t.inFlight g = s.inFlight g := by
  unfold State.inFlight
  rw [e]

/-- Which commands have a record: those whose header is listed. -/
theorem inFlight_isSome (s : State) (h : Hdr) : (s.inFlight h).isSome = (s.inflight.map InFlight.hdr).contains h := by
  unfold State.inFlight
  rw [List.isSome_find?, List.contains_map]
  simp [BEq.comm]

theorem inFlight_isSome_of_runnable (r : s.runnable h = true) : (s.inFlight h).isSome = true := by
  have u : (s.inFlight h).any InFlight.waits = true := (Bool.and_eq_true_iff.mp r).1
  exact Option.isSome_of_any u

theorem inFlight_isSome_of_ready (r : ManagerReady s h) : (s.inFlight h).isSome = true := inFlight_isSome_of_runnable r.1

theorem inFlight_isSome_of_turn (r : ItsTurn s h) : (s.inFlight h).isSome = true := inFlight_isSome_of_ready r.1

theorem inFlight_modIn_self (s : State) (h : Hdr) (f : InFlight → InFlight) (hf : ∀ x, (f x).hdr = x.hdr) :
    (s.modIn h f).inFlight h = (s.inFlight h).map f := by
  unfold State.inFlight State.modIn
  rw [mapInflight_inflight, List.find?_map]
  have e : ((fun x : InFlight => x.hdr == h) ∘ fun x => if x.hdr = h then f x else x) = fun x => x.hdr == h := by
    funext x
    simp only [Function.comp]
    split <;> simp [hf]
  rw [e]
  cases hx : s.inflight.find? fun x => x.hdr == h with
  | none => rfl
  | some x =>
    have hh : x.hdr = h := by simpa using List.find?_some hx
    simp [hh]

/-- A command that has a record stands as its answer says. -/
theorem standing_answer (hx : (s.inFlight h).isSome = true) (a : Answer) (cs : List Cond) :
    standing (s.answer h a cs) h = some (.dispatched, a, cs) := by
  obtain ⟨x, e⟩ := Option.isSome_iff_exists.mp hx
  unfold standing State.answer
  rw [inFlight_modIn_self, e]
  · rfl
  · exact fun _ => rfl

theorem answered_finish (hx : (s.inFlight h).isSome = true) (a : Answer) : Answered (s.finish h a) h a :=
  standing_answer hx a []

/-! ### Gates -/

theorem managed_of_ready (r : ManagerReady s h) (f : State → State) : s.managed h f = f s := by
  obtain ⟨run, one, full⟩ := r
  simp [State.managed, State.run, isManager, run, one, full]

theorem serial_of_turn (r : ItsTurn s h) (f : State → State) : s.serial h f = f s := by
  obtain ⟨ready, alone⟩ := r
  simp [State.serial, managed_of_ready ready, alone]

theorem ioCmd_of_serves {nsid : Nat} {x : Namespace} {kind : NsKind} (r : Serves s h nsid x kind) (f : Namespace → State → State) :
    s.ioCmd h nsid kind f = f x s := by
  obtain ⟨run, attached, is⟩ := r
  simp [State.ioCmd, State.run, run, attached, is]

theorem blockCmd_of_reaches {x : Namespace} {slba nlb : Nat} (r : Reaches s h x slba nlb) (f : State → State) :
    s.blockCmd h x [(slba, nlb)] f = f s := by
  obtain ⟨within, first⟩ := r
  simp [State.blockCmd, first, Nat.not_lt.mpr within]

theorem writeCmd_of_accepts {x : Namespace} {fua : Bool} {lbas : List Nat} (r : Accepts s h x fua lbas) (slba : Nat)
    (f : State → State) : s.writeCmd h x fua slba lbas f = f s := by
  obtain ⟨writable, room, -⟩ := r
  simp [State.writeCmd, writable, room]

end Sys2Proof.Proofs
end

section
/-!
What one block reads as (R13, R60, R384): whether its slice serves the namespace, what the write buffer holds of it, and the flash beneath.
-/

namespace Sys2Proof.Proofs

open Sys2Proof.Machine Sys2Proof.Laws

variable {s t u : State} {x : Namespace} {n : Nat}

/-! ### Which slices serve a namespace (R381, R384) -/

/-- A change of one slice changes that slice, or nothing where there is no such slice. -/
theorem slice_modSlice_cases (s : State) (n k : Nat) (f : Slice → Slice) :
    (s.modSlice n f).slice k = f (s.slice k) ∨ (s.modSlice n f).slice k = s.slice k := by
  by_cases e : k = n
  · subst e
    by_cases l : k < s.slices.length
    · exact .inl (slice_modSlice_self f l)
    · exact .inr (by simp [State.slice, State.modSlice, modAt_get, List.getElem?_eq_none (Nat.le_of_not_lt l)])
  · exact .inr (slice_modSlice_of_ne s f e)

/-- What a change of one slice keeps of it, it keeps of every slice. -/
theorem modSlice_keeps {α : Type} (g : Slice → α) (s : State) (n k : Nat) (f : Slice → Slice) (h : ∀ y, g (f y) = g y) :
    g ((s.modSlice n f).slice k) = g (s.slice k) := by
  rcases slice_modSlice_cases s n k f with e | e <;> rw [e]
  exact h _

/-- Both states serve the same namespaces from the same slices. -/
structure ServesAlike (s t : State) : Prop where
  part : t.part = s.part
  mode : ∀ n, (t.slice n).mode = (s.slice n).mode
  luns : ∀ n, (t.slice n).luns = (s.slice n).luns
  pool : ∀ n g, t.poolOf n g = s.poolOf n g
  isSealed : ∀ ti, t.isSealed ti = s.isSealed ti

theorem ServesAlike.refl (s : State) : ServesAlike s s := ⟨rfl, fun _ => rfl, fun _ => rfl, fun _ _ => rfl, fun _ => rfl⟩

theorem ServesAlike.trans (h : ServesAlike s t) (g : ServesAlike t u) : ServesAlike s u where
  part := g.part.trans h.part
  mode n := (g.mode n).trans (h.mode n)
  luns n := (g.luns n).trans (h.luns n)
  pool n k := (g.pool n k).trans (h.pool n k)
  isSealed ti := (g.isSealed ti).trans (h.isSealed ti)

theorem ServesAlike.nsUp (h : ServesAlike s t) (x : Namespace) (n : Nat) : t.nsUp x n = s.nsUp x n := by
  simp only [State.nsUp, State.sliceUp, State.hasSlice, Slice.up, h.part, h.mode, h.luns, h.pool, h.isSealed]

theorem servesAlike_foldl {α : Type} (f : State → α → State) (h : ∀ s a, ServesAlike s (f s a)) (l : List α) (s : State) :
    ServesAlike s (l.foldl f s) := by
  induction l generalizing s with
  | nil => exact ServesAlike.refl s
  | cons a l ih => exact (h s a).trans (ih _)

/-- What leaves slices and tenants alone. -/
theorem servesAlike_of_parts (hp : t.part = s.part) (hs : t.slices = s.slices) (ht : t.tenants = s.tenants)
    (hl : t.leaving = s.leaving) : ServesAlike s t where
  part := hp
  mode n := by rw [slice_congr hs]
  luns n := by rw [slice_congr hs]
  pool n g := by simp only [State.poolOf, State.holders, ht, hl]
  isSealed ti := by simp only [State.isSealed, State.tenant, ht]

theorem servesAlike_modSlice (s : State) (n : Nat) (f : Slice → Slice) (hm : ∀ y, (f y).mode = y.mode)
    (hl : ∀ y, (f y).luns = y.luns) : ServesAlike s (s.modSlice n f) where
  part := rfl
  mode k := modSlice_keeps Slice.mode s n k f hm
  luns k := modSlice_keeps Slice.luns s n k f hl
  pool _ _ := rfl
  isSealed _ := rfl

/-- What changes neither number, LUN sets nor kind of a tenant. -/
theorem servesAlike_mapTenants (s : State) (f : Tenant → Tenant) (hi : ∀ t, (f t).ti = t.ti) (hl : ∀ t, (f t).lunsets = t.lunsets)
    (hs : ∀ t, (f t).isSealed = t.isSealed) : ServesAlike s (s.mapTenants f) where
  part := rfl
  mode _ := rfl
  luns _ := rfl
  pool n g := by
    have e : (s.mapTenants f).holders.find? (fun t => t.lunsets.testBit (32 * n + g)) =
        ((s.tenants.find? fun t => t.lunsets.testBit (32 * n + g)).map f).or (s.leaving.find? fun t => t.lunsets.testBit (32 * n + g)) := by
      simp [State.holders, State.mapTenants, List.find?_append, List.find?_map, hl]
    unfold State.poolOf
    rw [e, State.holders, List.find?_append]
    cases s.tenants.find? fun t => t.lunsets.testBit (32 * n + g) with
    | none => rfl
    | some t => exact congrArg Pool.tenant (hi t)
  isSealed ti := by
    have e : (s.mapTenants f).tenant ti = (s.tenant ti).map f := by
      simp [State.tenant, recGet, State.mapTenants, List.find?_map, hi]
    unfold State.isSealed
    rw [e, Option.map_map]
    exact congrArg (fun g => (Option.map g (s.tenant ti)).getD false) (funext hs)

theorem servesAlike_modTenant (s : State) (k : Nat) (f : Tenant → Tenant) (hi : ∀ t, (f t).ti = t.ti)
    (hl : ∀ t, (f t).lunsets = t.lunsets) (hs : ∀ t, (f t).isSealed = t.isSealed) : ServesAlike s (s.modTenant k f) :=
  servesAlike_mapTenants s (fun t => if t.ti = k then f t else t) (fun t => by split <;> simp [hi]) (fun t => by split <;> simp [hl])
    fun t => by split <;> simp [hs]

/-! ### What the write buffer holds (R106) -/

/-- What a version holds of a block: nothing, its data, or data that is lost. -/
def heldBy (v : Version) (b : Nat) : Option BlockRead :=
  (mapGet v.blocks b).map fun d => if v.lostMap.testBit b then .fail stUnrecovered else .ok d

/-- What the write buffer of a slice holds of a block of a unit: what its newest version does. -/
def held (y : Slice) (i b : Nat) : Option BlockRead := (y.newest i).bind fun v => heldBy v b

/-- The entry under what the write buffer holds of a unit. -/
def beneath (y : Slice) (i : Nat) : Entry := ((y.newest i).map Version.under).getD (y.entry i)

/-- A block reads as the write buffer holds it, else as the flash beneath gives it (R13, R60). -/
theorem readBlock_eq (s : State) (n i b : Nat) :
    s.readBlock n i b = (held (s.slice n) i b).getD (s.readEntry n (beneath (s.slice n) i) b) := by
  unfold State.readBlock held beneath
  cases (s.slice n).newest i with
  | none => rfl
  | some v =>
    simp only [Option.bind_some, heldBy, Option.map_some, Option.getD_some]
    cases mapGet v.blocks b <;> rfl

/-- A version with a block put into it, as bufferBlock puts it. -/
def putBlock (b : Nat) (d : Block) (writer : Nat) (v : Version) : Version :=
  { v with blocks := mapInsert v.blocks b d, lostMap := v.lostMap &&& ((2 ^ 16 - 1) ^^^ (1 <<< b)), writer := writer }

theorem testBit_clear {b k : Nat} (m : Nat) (hk : k < 16) :
    (m &&& ((2 ^ 16 - 1) ^^^ (1 <<< b))).testBit k = (m.testBit k && !decide (b = k)) := by
  rw [Nat.testBit_and, Nat.testBit_xor, Nat.testBit_two_pow_sub_one, Nat.one_shiftLeft, Nat.testBit_two_pow]
  simp [hk]

theorem heldBy_putBlock {b k : Nat} (hk : k < 16) (d : Block) (writer : Nat) (v : Version) :
    heldBy (putBlock b d writer v) k = if k = b then some (.ok d) else heldBy v k := by
  unfold heldBy putBlock
  dsimp only
  rw [mapGet_mapInsert, testBit_clear _ hk]
  by_cases e : k = b
  · simp [e]
  · simp [e, Ne.symm e]

theorem newest_modVersion (y : Slice) (w i : Nat) (f : Version → Version) (hi : ∀ v, (f v).index = v.index)
    (hd : ∀ v, (f v).dead = v.dead) : (y.modVersion w f).newest i = (y.newest i).map fun v => if v.wslot = w then f v else v := by
  have e : ((fun v : Version => v.index == i && !v.dead) ∘ fun v => if v.wslot = w then f v else v) =
      fun v => v.index == i && !v.dead := by
    funext v
    simp only [Function.comp]
    split <;> simp [hi, hd]
  unfold Slice.newest Slice.modVersion recMod
  rw [List.filter_map, List.getLast?_map, e]

/-- The newest of a unit is the version that came last. -/
theorem newest_of_append {y : Slice} {l : List Version} {v : Version} {i : Nat} (h : y.versions = l ++ [v]) (hi : v.index = i)
    (hd : v.dead = false) : y.newest i = some v := by
  unfold Slice.newest
  rw [h, List.filter_append]
  simp [hi, hd]

/-! ### The flash beneath (R101, R102) -/

/-- Both slices have the same flash and the same units on it. -/
structure FlashAlike (y z : Slice) : Prop where
  mode : z.mode = y.mode
  descIx : z.descIx = y.descIx
  luns : z.luns = y.luns
  supers : z.supers = y.supers
  units : z.units = y.units
  parity : z.parity = y.parity

theorem FlashAlike.refl (y : Slice) : FlashAlike y y := ⟨rfl, rfl, rfl, rfl, rfl, rfl⟩

theorem FlashAlike.trans {y z w : Slice} (h : FlashAlike y z) (g : FlashAlike z w) : FlashAlike y w where
  mode := g.mode.trans h.mode
  descIx := g.descIx.trans h.descIx
  luns := g.luns.trans h.luns
  supers := g.supers.trans h.supers
  units := g.units.trans h.units
  parity := g.parity.trans h.parity

/-- Both states read the flash of slice n alike. -/
structure ReadsAlike (n : Nat) (s t : State) : Prop where
  part : t.part = s.part
  regs : t.regs = s.regs
  fences : t.fences = s.fences
  start : t.start = s.start
  flash : t.nvm.flash = s.nvm.flash
  keys : t.nvm.keys = s.nvm.keys
  slice : FlashAlike (s.slice n) (t.slice n)

theorem ReadsAlike.mu (h : ReadsAlike n s t) (k : Nat) : t.mu k = s.mu k := by
  simp only [State.mu, State.fld, State.rd, h.part, h.regs]

theorem ReadsAlike.desc (h : ReadsAlike n s t) : t.desc n = s.desc n := by
  simp only [State.desc, State.image, h.start, h.flash, h.slice.descIx]

theorem ReadsAlike.active (h : ReadsAlike n s t) (v : UnitId) : t.active v = s.active v := by
  simp only [State.active, State.built, State.hasSlice, State.fenceOf, h.part, h.fences]

theorem ReadsAlike.super (h : ReadsAlike n s t) (q : Nat) : (t.slice n).super q = (s.slice n).super q := by
  simp only [Slice.super, h.slice.supers]

theorem ReadsAlike.touches (h : ReadsAlike n s t) (v : StoredUnit) (l : Nat) : t.touches n v l = s.touches n v l := by
  simp only [State.touches, h.desc, h.super]

theorem ReadsAlike.unitGone (h : ReadsAlike n s t) (v : StoredUnit) : t.unitGone n v = s.unitGone n v := by
  have lost : (t.slice n).pageLost = (s.slice n).pageLost := by
    funext sb p
    simp only [Slice.pageLost, Slice.lun, h.slice.luns]
  have rebuilt : (t.slice n).rebuildable = (s.slice n).rebuildable := by
    funext sb p
    simp only [Slice.rebuildable, lost, Slice.lun, h.slice.luns, h.slice.parity]
  simp only [State.unitGone, h.desc, h.super, lost, rebuilt]

theorem ReadsAlike.keySlot (h : ReadsAlike n s t) (k : Nat) : t.keySlot k = s.keySlot k := by
  simp only [State.keySlot, h.keys]

theorem ReadsAlike.cipherPath (h : ReadsAlike n s t) : t.cipherPath n = s.cipherPath n := by
  simp only [State.cipherPath, h.active]

theorem ReadsAlike.decompPath (h : ReadsAlike n s t) : t.decompPath n = s.decompPath n := by
  simp only [State.decompPath, h.active, State.bit, State.rd, h.part, h.regs]

theorem ReadsAlike.readStored (h : ReadsAlike n s t) (v : StoredUnit) (b : Nat) : t.readStored n v b = s.readStored n v b := by
  unfold State.readStored
  rw [h.slice.luns, funext (h.touches v), h.keySlot, h.unitGone, h.cipherPath, h.decompPath]

/-- An entry reads the same where the flash does. -/
theorem ReadsAlike.readEntry (h : ReadsAlike n s t) (e : Entry) (b : Nat) : t.readEntry n e b = s.readEntry n e b := by
  cases e with
  | flash lun cw off span comp => simp only [State.readEntry, Slice.unitAt, h.slice.units, h.readStored]
  | _ => rfl

end Sys2Proof.Proofs
end

section
/-!
A block written: into the buffer of its slice, out of the deferred-fault ranges, and what the block and its neighbours read as afterwards
(R13, R56, R58, R63, R106).
-/

namespace Sys2Proof.Proofs

open Sys2Proof.Machine Sys2Proof.Laws

variable {s t : State} {x : Namespace} {n : Nat}

/-! ### The copies in DRAM (R106, R291) -/

/-- Both slices differ in their DRAM queues only. -/
def DramsOnly (y z : Slice) : Prop := ∃ ds, z = { y with drams := ds }

theorem dramPut_drams (s : State) (n c port owner ca pieces : Nat) (write : Bool) (k : Nat) :
    DramsOnly (s.slice k) ((s.dramPut n c port owner ca pieces write).slice k) := by
  unfold State.dramPut
  split
  · exact ⟨_, rfl⟩
  · rcases slice_modSlice_cases s n k _ with e | e <;> rw [e] <;> exact ⟨_, rfl⟩

theorem dramCopies_drams (s : State) (n w b owner : Nat) (chans : List Nat) (k : Nat) :
    DramsOnly (s.slice k) ((s.dramCopies n w b owner chans).slice k) := by
  unfold State.dramCopies
  induction chans generalizing s with
  | nil => exact ⟨_, rfl⟩
  | cons c cs ih =>
    obtain ⟨ds, e⟩ := dramPut_drams s n c portHost owner (Config.slotBase w + 4096 * b) _ true k
    obtain ⟨es, g⟩ := ih (s.dramAt n c portHost owner (Config.slotBase w + 4096 * b) 4096 true)
    exact ⟨es, g.trans (congrArg (fun y : Slice => { y with drams := es }) e)⟩

theorem DramsOnly.flash {y z : Slice} (h : DramsOnly y z) : FlashAlike y z := by
  obtain ⟨ds, rfl⟩ := h
  exact ⟨rfl, rfl, rfl, rfl, rfl, rfl⟩

theorem DramsOnly.newest {y z : Slice} (h : DramsOnly y z) (i : Nat) : z.newest i = y.newest i := by
  obtain ⟨ds, rfl⟩ := h
  rfl

/-! ### A block buffered (R106) -/

/-- Buffering changes the slice and queues copies of the block: the newest version of the unit is then one that has the block put into what
the buffer held, over the same entry. -/
theorem bufferBlock_cases (s : State) (n nsid lua i b : Nat) (d : Block) (writer : Nat) :
    ∃ (f : Slice → Slice) (w : Nat) (chans : List Nat) (v : Version),
      (s.bufferBlock n nsid lua i b d writer).2 = (s.modSlice n f).dramCopies n w b writer chans ∧
      (∀ y, FlashAlike y (f y)) ∧ (f (s.slice n)).newest i = some (putBlock b d writer v) ∧
      (∀ k, heldBy v k = held (s.slice n) i k) ∧ v.under = beneath (s.slice n) i := by
  unfold State.bufferBlock
  dsimp only
  split
  next v e =>
    have hh : ∀ k, heldBy v k = held (s.slice n) i k := fun k => by simp [held, e]
    have hu : v.under = beneath (s.slice n) i := by simp [beneath, e]
    split
    · refine ⟨fun y => (y.modVersion v.wslot (putBlock b d writer)).cleanBlock v.wslot b, v.wslot, v.chans, v, rfl,
        fun _ => ⟨rfl, rfl, rfl, rfl, rfl, rfl⟩, ?_, hh, hu⟩
      refine (newest_modVersion (s.slice n) v.wslot i (putBlock b d writer) (fun _ => rfl) fun _ => rfl).trans ?_
      rw [e, Option.map_some, if_pos rfl]
    · exact ⟨_, _, _, { newVersion (s.slice n).nextWslot nsid lua i writer s.now v.under (s.copyChans n writer) with
        blocks := v.blocks, lostMap := v.lostMap, keySlot := v.keySlot, keyGen := v.keyGen, objRec := v.objRec }, rfl,
        fun _ => ⟨rfl, rfl, rfl, rfl, rfl, rfl⟩, newest_of_append rfl rfl rfl, hh, hu⟩
  next e =>
    have hh : ∀ k, held (s.slice n) i k = none := fun k => by simp [held, e]
    have hu : beneath (s.slice n) i = (s.slice n).entry i := by simp [beneath, e]
    exact ⟨_, _, _, _, rfl, fun _ => ⟨rfl, rfl, rfl, rfl, rfl, rfl⟩, newest_of_append rfl rfl rfl, fun k => (hh k).symm, hu.symm⟩

/-- The buffer then holds the block, and of the unit's other blocks what it held. -/
theorem held_bufferBlock {k : Nat} (h : n < s.slices.length) (nsid lua i b : Nat) (d : Block) (writer : Nat) (hk : k < 16) :
    held ((s.bufferBlock n nsid lua i b d writer).2.slice n) i k = if k = b then some (.ok d) else held (s.slice n) i k := by
  obtain ⟨f, w, chans, v, e, -, hv, hh, -⟩ := bufferBlock_cases s n nsid lua i b d writer
  rw [e, held, (dramCopies_drams _ n w b writer chans n).newest, slice_modSlice_self f h, hv, Option.bind_some,
    heldBy_putBlock hk, hh]

theorem beneath_bufferBlock (h : n < s.slices.length) (nsid lua i b : Nat) (d : Block) (writer : Nat) :
    beneath ((s.bufferBlock n nsid lua i b d writer).2.slice n) i = beneath (s.slice n) i := by
  obtain ⟨f, w, chans, v, e, -, hv, -, hu⟩ := bufferBlock_cases s n nsid lua i b d writer
  rw [e, beneath, (dramCopies_drams _ n w b writer chans n).newest, slice_modSlice_self f h, hv]
  exact hu

theorem bufferBlock_flash (s : State) (n nsid lua i b : Nat) (d : Block) (writer k : Nat) :
    FlashAlike (s.slice k) ((s.bufferBlock n nsid lua i b d writer).2.slice k) := by
  obtain ⟨f, w, chans, v, e, hf, -, -, -⟩ := bufferBlock_cases s n nsid lua i b d writer
  rw [e]
  refine FlashAlike.trans ?_ (dramCopies_drams _ n w b writer chans k).flash
  rcases slice_modSlice_cases s n k f with g | g <;> rw [g]
  · exact hf _
  · exact FlashAlike.refl _

/-! ### Deferred-fault ranges (R63) -/

/-- A range without a block holds the blocks that it held, but that one. -/
theorem any_cutRange (nsid lba m k : Nat) (r : Nat × Nat × Nat) :
    (cutRange nsid lba r).any (fun q => inRange q m k) = (inRange r m k && !decide (m = nsid ∧ k = lba)) := by
  obtain ⟨a, lo, len⟩ := r
  rw [Bool.eq_iff_iff]
  unfold cutRange inRange
  dsimp only
  split
  next c =>
    simp only [Bool.and_eq_true, beq_iff_eq, decide_eq_true_eq] at c
    rw [List.any_append]
    split <;> split <;> simp <;> omega
  next c =>
    simp only [Bool.and_eq_true, beq_iff_eq, decide_eq_true_eq] at c
    simp
    omega

/-- A block removed from the ranges is in none; every other block is where it was. -/
theorem faulted_unfault (s : State) (nsid lba m k : Nat) :
    (s.unfault nsid lba).faulted m k = (s.faulted m k && !decide (m = nsid ∧ k = lba)) := by
  unfold State.unfault
  split
  · have e : (fun r => (cutRange nsid lba r).any fun q => inRange q m k) =
        fun r => inRange r m k && !decide (m = nsid ∧ k = lba) := funext (any_cutRange nsid lba m k)
    unfold State.faulted
    rw [modNvm_nvm, List.any_flatMap, e]
    cases decide (m = nsid ∧ k = lba) <;> simp
  next c =>
    by_cases g : m = nsid ∧ k = lba
    · obtain ⟨rfl, rfl⟩ := g
      simp [c]
    · simp [g]

/-- Only the deferred-fault ranges change. -/
theorem unfault_cases (s : State) (nsid lba : Nat) : ∃ l, s.unfault nsid lba = s.modNvm fun v => { v with ranges := l } := by
  unfold State.unfault
  split
  · exact ⟨_, rfl⟩
  · exact ⟨s.nvm.ranges, rfl⟩

/-! ### A block written -/

theorem mu_pos (s : State) (n : Nat) : 0 < s.mu n := by
  unfold State.mu muBlocks
  split
  · decide
  · split <;> decide

/-- A mapping unit has at most 16 blocks (R97). -/
theorem mu_le (s : State) (n : Nat) : s.mu n ≤ 16 := by
  unfold State.mu muBlocks
  split
  · decide
  · split <;> decide

theorem place_lt (s : State) (x : Namespace) (lba : Nat) : (s.place x lba).2.2 < 16 :=
  Nat.lt_of_lt_of_le (Nat.mod_lt _ (mu_pos s _)) (mu_le s _)

/-- A slice that serves a namespace is one of the eight (R1). -/
theorem nsUp_lt (h8 : s.slices.length = 8) (h : s.nsUp x n = true) : n < s.slices.length := by
  have up : s.sliceUp n = true := (Bool.and_eq_true_iff.mp h).1
  have hn : n < s.part.slices := of_decide_eq_true (Bool.and_eq_true_iff.mp up).1
  rw [h8]
  refine Nat.lt_of_lt_of_le hn ?_
  cases s.part <;> decide

theorem writeBlock_of_up {lba : Nat} (h : s.nsUp x (s.place x lba).1 = true) (owner : Nat) (d : Block) :
    s.writeBlock x owner lba d =
      let p := s.place x lba
      let r := s.bufferBlock p.1 x.nsid (s.luaOf x lba) p.2.1 p.2.2 d owner
      (some (p.1, r.1, p.2.2), r.2.unfault x.nsid lba) := by
  simp [State.writeBlock, h]

theorem writeBlock_slice {lba : Nat} (h : s.nsUp x (s.place x lba).1 = true) (owner : Nat) (d : Block) (k : Nat) :
    (s.writeBlock x owner lba d).2.slice k =
      (s.bufferBlock (s.place x lba).1 x.nsid (s.luaOf x lba) (s.place x lba).2.1 (s.place x lba).2.2 d owner).2.slice k := by
  rw [writeBlock_of_up h]
  exact slice_congr ((unfault_frame _ _ _ (Frame.refl 0x20000000000 _) rfl).same .slices rfl) k

theorem writeBlock_faulted {lba : Nat} (h : s.nsUp x (s.place x lba).1 = true) (owner : Nat) (d : Block) (m k : Nat) :
    (s.writeBlock x owner lba d).2.faulted m k = (s.faulted m k && !decide (m = x.nsid ∧ k = lba)) := by
  rw [writeBlock_of_up h]
  refine (faulted_unfault _ x.nsid lba m k).trans ?_
  unfold State.faulted
  rw [(bufferBlock_frame s _ _ _ _ _ d owner (Frame.refl 0x20000 s) rfl).same .nvm rfl]

theorem writeBlock_readsAlike {lba : Nat} (h : s.nsUp x (s.place x lba).1 = true) (owner : Nat) (d : Block) (k : Nat) :
    ReadsAlike k s (s.writeBlock x owner lba d).2 := by
  have fr : Frame 0x20000020000 s (s.writeBlock x owner lba d).2 := writeBlock_frame s x owner lba d (Frame.refl _ s) rfl
  have nv : ∃ l, (s.writeBlock x owner lba d).2.nvm = { s.nvm with ranges := l } := by
    rw [writeBlock_of_up h]
    obtain ⟨l, e⟩ := unfault_cases
      (s.bufferBlock (s.place x lba).1 x.nsid (s.luaOf x lba) (s.place x lba).2.1 (s.place x lba).2.2 d owner).2 x.nsid lba
    refine ⟨l, (congrArg State.nvm e).trans ?_⟩
    rw [modNvm_nvm, (bufferBlock_frame s _ _ _ _ _ d owner (Frame.refl 0x20000 s) rfl).same .nvm rfl]
  obtain ⟨l, e⟩ := nv
  exact {
    part := fr.same .part rfl
    regs := fr.same .regs rfl
    fences := fr.same .fences rfl
    start := fr.same .start rfl
    flash := by rw [e]
    keys := by rw [e]
    slice := by rw [writeBlock_slice h]; exact bufferBlock_flash .. }

theorem writeBlock_servesAlike {lba : Nat} (h : s.nsUp x (s.place x lba).1 = true) (owner : Nat) (d : Block) :
    ServesAlike s (s.writeBlock x owner lba d).2 := by
  have fr : Frame 0x20000020000 s (s.writeBlock x owner lba d).2 := writeBlock_frame s x owner lba d (Frame.refl _ s) rfl
  have ht : (s.writeBlock x owner lba d).2.tenants = s.tenants := fr.same .tenants rfl
  have hl : (s.writeBlock x owner lba d).2.leaving = s.leaving := fr.same .leaving rfl
  exact {
    part := fr.same .part rfl
    mode k := (writeBlock_readsAlike h owner d k).slice.mode
    luns k := (writeBlock_readsAlike h owner d k).slice.luns
    pool k g := by simp only [State.poolOf, State.holders, ht, hl]
    isSealed ti := by simp only [State.isSealed, State.tenant, ht] }

/-- A block reads by its place: offline, faulted, or as its unit has it (R54, R63, R384). -/
theorem readLba_eq (s : State) (x : Namespace) (lba : Nat) :
    s.readLba x lba =
      if !s.nsUp x (s.place x lba).1 then .fail stOffline
      else if s.faulted x.nsid lba then .fail stUnrecovered
      else s.readBlock (s.place x lba).1 (s.place x lba).2.1 (s.place x lba).2.2 := rfl

theorem place_congr (hp : t.part = s.part) (hr : t.regs = s.regs) (x : Namespace) (lba : Nat) : t.place x lba = s.place x lba := by
  simp only [State.place, State.mu, State.fld, State.rd, hp, hr]

/-- The buffer of the slice holds the written block, and of the others in its unit what it held. -/
theorem held_writeBlock {lba k : Nat} (h8 : s.slices.length = 8) (h : s.nsUp x (s.place x lba).1 = true) (owner : Nat) (d : Block)
    (hk : k < 16) :
    held ((s.writeBlock x owner lba d).2.slice (s.place x lba).1) (s.place x lba).2.1 k =
      if k = (s.place x lba).2.2 then some (.ok d) else held (s.slice (s.place x lba).1) (s.place x lba).2.1 k := by
  rw [writeBlock_slice h, held_bufferBlock (nsUp_lt h8 h) _ _ _ _ d owner hk]

/-- A block that the buffer holds, in no deferred-fault range, reads as the buffer has it (R13, R60). -/
theorem readLba_of_held {lba : Nat} {r : BlockRead} (up : s.nsUp x (s.place x lba).1 = true) (hf : s.faulted x.nsid lba = false)
    (hh : held (s.slice (s.place x lba).1) (s.place x lba).2.1 (s.place x lba).2.2 = some r) : s.readLba x lba = r := by
  rw [readLba_eq, readBlock_eq, up, hf, hh]
  rfl

/-- The written block reads as what was written. -/
theorem readLba_writeBlock_self {lba : Nat} (h8 : s.slices.length = 8) (h : s.nsUp x (s.place x lba).1 = true) (owner : Nat)
    (d : Block) : (s.writeBlock x owner lba d).2.readLba x lba = .ok d := by
  have ra := writeBlock_readsAlike h owner d 0
  have hp : (s.writeBlock x owner lba d).2.place x lba = s.place x lba := place_congr ra.part ra.regs x lba
  apply readLba_of_held
  · rw [hp, (writeBlock_servesAlike h owner d).nsUp, h]
  · rw [writeBlock_faulted h]
    simp
  · rw [hp, held_writeBlock h8 h owner d (place_lt s x lba), if_pos rfl]

/-- Every other block of the unit reads as before. -/
theorem readLba_writeBlock_neighbour {lba k : Nat} (h8 : s.slices.length = 8) (h : s.nsUp x (s.place x lba).1 = true) (owner : Nat)
    (d : Block) (hk : k ≠ lba) (hn : (s.place x k).1 = (s.place x lba).1) (hi : (s.place x k).2.1 = (s.place x lba).2.1)
    (hb : (s.place x k).2.2 ≠ (s.place x lba).2.2) : (s.writeBlock x owner lba d).2.readLba x k = s.readLba x k := by
  have ra := writeBlock_readsAlike h owner d (s.place x lba).1
  have hp : (s.writeBlock x owner lba d).2.place x k = s.place x k := place_congr ra.part ra.regs x k
  have hr : (s.writeBlock x owner lba d).2.readBlock (s.place x k).1 (s.place x k).2.1 (s.place x k).2.2 =
      s.readBlock (s.place x k).1 (s.place x k).2.1 (s.place x k).2.2 := by
    rw [readBlock_eq, readBlock_eq, hn, hi, held_writeBlock h8 h owner d (place_lt s x k), if_neg hb, ra.readEntry, writeBlock_slice h,
      beneath_bufferBlock (nsUp_lt h8 h)]
  rw [readLba_eq, readLba_eq, hp, hr, (writeBlock_servesAlike h owner d).nsUp, writeBlock_faulted h]
  simp [hk]

end Sys2Proof.Proofs
end

section
/-!
A Write of one block (R55 to R58): what it is charged for and what it waits for leave the written block in the buffer.
-/

namespace Sys2Proof.Proofs

open Sys2Proof.Machine Sys2Proof.Laws

variable {s t : State} {x : Namespace} {h : Hdr} {n lba : Nat}

/-! ### The charge (R83) -/

theorem charge_servesAlike (s : State) (owner n : Nat) (p : Pool) (bytes : Nat) : ServesAlike s (s.charge owner n p bytes) := by
  have taken : ∀ (u : State) r, ServesAlike u ((u.modSlice n fun y => y.countWa p bytes 0).modTenant owner fun t =>
      { t with allowance := t.allowance - r }) := fun u r =>
    (servesAlike_modSlice u n (fun y => y.countWa p bytes 0) (fun _ => rfl) fun _ => rfl).trans
      (servesAlike_modTenant _ owner _ (by intro; rfl) (by intro; rfl) (by intro; rfl))
  unfold State.charge
  dsimp only
  split
  · exact taken s _
  · have drawn : ServesAlike s s.free.2 := servesAlike_of_parts rfl rfl rfl rfl
    exact drawn.trans (taken s.free.2 _)

theorem evalWear_servesAlike (s : State) : ServesAlike s s.evalWear := by
  have judged : ServesAlike s (s.mapTenants fun t => { t with wearLimited := decide (t.allowance ≤ 0) }) :=
    servesAlike_mapTenants s _ (fun _ => rfl) (fun _ => rfl) fun _ => rfl
  unfold State.evalWear
  dsimp only
  split
  · exact judged.trans (servesAlike_of_parts rfl rfl rfl rfl)
  · exact judged

theorem charges_servesAlike (s : State) (h : Hdr) (x : Namespace) (lbas : List Nat) : ServesAlike s (s.charges h x lbas) :=
  (servesAlike_foldl _ (fun _ _ => charge_servesAlike ..) _ s).trans (evalWear_servesAlike _)

theorem charge_slices_length (s : State) (owner n : Nat) (p : Pool) (bytes : Nat) :
    (s.charge owner n p bytes).slices.length = s.slices.length := by
  unfold State.charge
  dsimp only
  split <;> exact slices_length_modSlice _ _ _

theorem slices_length_foldl {α : Type} (f : State → α → State) (hf : ∀ s a, (f s a).slices.length = s.slices.length) (l : List α)
    (s : State) : (l.foldl f s).slices.length = s.slices.length := by
  induction l generalizing s with
  | nil => rfl
  | cons a l ih => exact (ih _).trans (hf s a)

theorem charges_slices_length (s : State) (h : Hdr) (x : Namespace) (lbas : List Nat) :
    (s.charges h x lbas).slices.length = s.slices.length :=
  (congrArg List.length ((evalWear_frame _ (Frame.refl 0x1004 _) rfl).same .slices rfl)).trans
    (slices_length_foldl _ (fun _ _ => charge_slices_length ..) _ s)

/-! ### Streaming under Through rules (R56, R108) -/

/-- Marking versions as Through changes no block of the buffer. -/
theorem held_modVersion_through (y : Slice) (w i b : Nat) :
    held (y.modVersion w fun v => { v with through := true }) i b = held y i b := by
  have e := newest_modVersion y w i (fun v => { v with through := true }) (fun _ => rfl) fun _ => rfl
  unfold held
  rw [e]
  cases y.newest i with
  | none => rfl
  | some v =>
    simp only [Option.map_some, Option.bind_some]
    split <;> rfl

theorem throughNow_held (s : State) (h : Hdr) (x : Namespace) (fua : Bool) (wrote : List (Nat × Nat × List Nat)) (n i b : Nat) :
    held ((s.throughNow h x fua wrote).2.slice n) i b = held (s.slice n) i b := by
  unfold State.throughNow
  dsimp only
  generalize wrote.filter (fun w => s.writesThrough h x fua w.1) = l
  induction l generalizing s with
  | nil => rfl
  | cons w l ih =>
    exact (ih _).trans (modSlice_keeps (held · i b) s w.1 n _ fun y => held_modVersion_through y w.2.1 i b)

theorem throughNow_servesAlike (s : State) (h : Hdr) (x : Namespace) (fua : Bool) (wrote : List (Nat × Nat × List Nat)) :
    ServesAlike s (s.throughNow h x fua wrote).2 := by
  unfold State.throughNow
  exact servesAlike_foldl _ (fun s w => servesAlike_modSlice s _ _ (by intro; rfl) (by intro; rfl)) _ s

/-- A write waits for versions to be programmed, and for nothing else (R56). -/
theorem throughNow_conds (s : State) (h : Hdr) (x : Namespace) (fua : Bool) (wrote : List (Nat × Nat × List Nat)) :
    ∀ c ∈ (s.throughNow h x fua wrote).1, ∃ n w, c = .programmed n w := by
  intro c hc
  obtain ⟨w, -, rfl⟩ := List.mem_map.mp hc
  exact ⟨_, _, rfl⟩

/-! ### A Write of one block -/

theorem writeBlocks_single (up : s.nsUp x (s.place x lba).1 = true) (owner : Nat) (d : Block) :
    ∃ wrote undo, s.writeBlocks x owner [(lba, d)] = ⟨wrote, undo, none, (s.writeBlock x owner lba d).2⟩ := by
  unfold State.writeBlocks
  simp only [List.zipIdx_cons, List.zipIdx_nil, List.foldl_cons, List.foldl_nil]
  rw [writeBlock_of_up up]
  exact ⟨_, _, rfl⟩

/-- The state in which one block of a write is charged for and in the buffer. -/
def oneWritten (s : State) (h : Hdr) (x : Namespace) (lba : Nat) (d : Block) : State :=
  ((s.charges h x [lba]).writeBlock x (ctrlOwner h.ctrl) lba d).2

theorem writeOut_single (up : (s.charges h x [lba]).nsUp x ((s.charges h x [lba]).place x lba).1 = true) (d : Block) (fua : Bool) :
    ∃ (wrote : List (Nat × Nat × List Nat)) (f : InFlight → InFlight) (g : Ctrl → Ctrl), (∀ y, (f y).hdr = y.hdr) ∧
      s.writeOut h x fua [(lba, d)] =
        ((((oneWritten s h x lba d).throughNow h x fua wrote).2.modIn h f).modCtrl h.ctrl g).answer h (ansSt stOk)
          ((oneWritten s h x lba d).throughNow h x fua wrote).1 := by
  obtain ⟨wrote, undo, e⟩ := writeBlocks_single up (ctrlOwner h.ctrl) d
  refine ⟨wrote, fun y => { y with wrote := wrote, undo := undo, failLba := none }, fun k => k.countWrite 1, fun _ => rfl, ?_⟩
  unfold State.writeOut
  simp only [List.map_cons, List.map_nil, e]
  rfl

/-- A block reads the same whatever becomes of the controllers and of the commands in flight. -/
theorem readLba_of_frame (fr : Frame 0x300 s t) (x : Namespace) (lba : Nat) : t.readLba x lba = s.readLba x lba := by
  have hp : t.place x lba = s.place x lba := place_congr (fr.same .part rfl) (fr.same .regs rfl) x lba
  have hs : ∀ n, t.slice n = s.slice n := slice_congr (fr.same .slices rfl)
  have hn : t.nvm = s.nvm := fr.same .nvm rfl
  have up := (servesAlike_of_parts (fr.same .part rfl) (fr.same .slices rfl) (fr.same .tenants rfl) (fr.same .leaving rfl)).nsUp x
  have ra : ∀ n, ReadsAlike n s t := fun n =>
    ⟨fr.same .part rfl, fr.same .regs rfl, fr.same .fences rfl, fr.same .start rfl, by rw [hn], by rw [hn],
      by rw [hs]; exact FlashAlike.refl _⟩
  rw [readLba_eq, readLba_eq, readBlock_eq, readBlock_eq, hp, up, hs, (ra _).readEntry, State.faulted, State.faulted, hn]

theorem nsUp_charged (up : s.nsUp x (x.route lba).1 = true) : (s.charges h x [lba]).nsUp x (x.route lba).1 = true :=
  ((charges_servesAlike s h x [lba]).nsUp x _).trans up

/-- The written block reads as what was written, whatever the completion waits for. -/
theorem readLba_writeOut (h8 : s.slices.length = 8) (up : s.nsUp x (x.route lba).1 = true) (d : Block) (fua : Bool) :
    (s.writeOut h x fua [(lba, d)]).readLba x lba = .ok d := by
  have upc := nsUp_charged (h := h) up
  have h8c := (charges_slices_length s h x [lba]).trans h8
  obtain ⟨wrote, f, g, -, e⟩ := writeOut_single upc d fua
  rw [e]
  generalize hw : oneWritten s h x lba d = w
  have wa : ServesAlike (s.charges h x [lba]) w := hw ▸ writeBlock_servesAlike upc (ctrlOwner h.ctrl) d
  have ra : ReadsAlike 0 (s.charges h x [lba]) w := hw ▸ writeBlock_readsAlike upc (ctrlOwner h.ctrl) d 0
  have hp : w.place x lba = (s.charges h x [lba]).place x lba := place_congr ra.part ra.regs x lba
  have hf : w.faulted x.nsid lba = false := by
    rw [← hw, oneWritten, writeBlock_faulted upc]
    simp
  have hh : held (w.slice (w.place x lba).1) (w.place x lba).2.1 (w.place x lba).2.2 = some (.ok d) := by
    rw [hp, ← hw, oneWritten, held_writeBlock h8c upc (ctrlOwner h.ctrl) d (place_lt _ x lba), if_pos rfl]
  have fr := throughNow_frame w h x fua wrote (Frame.refl 0x20000 w) rfl
  have ht : (w.throughNow h x fua wrote).2.place x lba = w.place x lba := place_congr (fr.same .part rfl) (fr.same .regs rfl) x lba
  have rd : (w.throughNow h x fua wrote).2.readLba x lba = .ok d := by
    apply readLba_of_held
    · rw [ht, (throughNow_servesAlike w h x fua wrote).nsUp, wa.nsUp]
      exact upc
    · rw [State.faulted, fr.same .nvm rfl]
      exact hf
    · rw [ht, throughNow_held]
      exact hh
  refine (readLba_of_frame ?_ x lba).trans rd
  exact answer_frame _ h _ _ (modCtrl_frame _ _ _ (modIn_frame _ h f (Frame.refl 0x300 _) rfl) rfl) rfl

theorem written_writeOut (hx : (s.inFlight h).isSome = true) (up : s.nsUp x (x.route lba).1 = true) (d : Block) (fua : Bool) :
    Sys2Proof.Written (s.writeOut h x fua [(lba, d)]) h := by
  obtain ⟨wrote, f, g, hf, e⟩ := writeOut_single (nsUp_charged (h := h) up) d fua
  rw [e]
  refine ⟨_, standing_answer ?_ _ _, throughNow_conds _ h x fua wrote⟩
  have fr : Frame 0x8020000021004 s ((oneWritten s h x lba d).throughNow h x fua wrote).2 :=
    throughNow_frame _ h x fua wrote (writeBlock_frame _ x _ lba d (charges_frame s h x [lba] (Frame.refl _ s) rfl) rfl) rfl
  rw [inFlight_congr (modCtrl_inflight ..), inFlight_modIn_self _ h f hf, Option.isSome_map, inFlight_congr (fr.same .inflight rfl)]
  exact hx

theorem exec_write_single {nsid : Nat} {fua : Bool} (serves : Serves s h nsid x .block) (reaches : Reaches s h x lba 1)
    (accepts : Accepts s h x fua [lba]) (d : Block) :
    exec (.write h nsid lba [d] fua) s = .next ((s.dataIn h 4096).writeOut h x fua [(lba, d)]) := by
  change execWrite h nsid lba [d] fua s = _
  unfold execWrite
  rw [ioCmd_of_serves serves]
  simp only [List.length_singleton, Nat.reduceLT, if_false]
  rw [blockCmd_of_reaches reaches]
  exact congrArg Host.Outcome.next (writeCmd_of_accepts accepts lba _)

/-- Settles O18: a block taken into the buffer is the newest version's, its neighbours keep what lies under them, and a Write leaves
its block there. -/
theorem aWrittenBlockReadsBack : Obligations.AWrittenBlockReadsBack := by
  refine ⟨fun s x owner lba d h8 up => ⟨readLba_writeBlock_self h8 up owner d, fun k hk hn hi hb =>
    readLba_writeBlock_neighbour h8 up owner d hk hn hi hb⟩, ?_⟩
  intro h nsid lba d fua s x h8 serves reaches accepts
  obtain ⟨-, -, online⟩ := id accepts
  have fr : Frame 0xf00004 s (s.dataIn h 4096) := dataIn_frame s h 4096 (Frame.refl _ s) rfl
  have alike : ServesAlike s (s.dataIn h 4096) :=
    servesAlike_of_parts (fr.same .part rfl) (fr.same .slices rfl) (fr.same .tenants rfl) (fr.same .leaving rfl)
  have up : (s.dataIn h 4096).nsUp x (x.route lba).1 = true := by
    rw [alike.nsUp]
    exact online lba (List.mem_singleton_self lba)
  have h8' : (s.dataIn h 4096).slices.length = 8 := (congrArg List.length (fr.same .slices rfl)).trans h8
  have record : ((s.dataIn h 4096).inFlight h).isSome = true := by
    rw [inFlight_congr (fr.same .inflight rfl)]
    exact inFlight_isSome_of_runnable serves.1
  exact ⟨_, exec_write_single serves reaches accepts d, written_writeOut record up d fua, readLba_writeOut h8' up d fua⟩

end Sys2Proof.Proofs
end

section
/-!
Namespaces created, attached and detached (R10, R51, R73, R188, R249).
-/

namespace Sys2Proof.Proofs

open Sys2Proof.Machine Sys2Proof.Laws

variable {s t : State} {x : Namespace} {h : Hdr}

theorem ns_congr (e : t.namespaces = s.namespaces) (m : Nat) : t.ns m = s.ns m := by
  unfold State.ns
  rw [e]

theorem ns_nsid {nsid : Nat} (e : s.ns nsid = some x) : x.nsid = nsid := by
  simpa using List.find?_some e

/-- No namespace has an NSID that none lists. -/
theorem ns_eq_none {nsid : Nat} (e : ∀ y ∈ s.namespaces, y.nsid ≠ nsid) : s.ns nsid = none :=
  List.find?_eq_none.mpr fun y hy => by simpa using e y hy

/-! ### Creation (R51) -/

theorem lowestFree_isSome {n i : Nat} {p : Nat → Bool} (hi : i < n) (hp : p i = false) : (lowestFree n p).isSome = true := by
  unfold lowestFree
  rw [List.isSome_find?, List.any_eq_true]
  exact ⟨i, List.mem_range.mpr hi, by simp [hp]⟩

theorem lowestFree_spec {n i : Nat} {p : Nat → Bool} (e : lowestFree n p = some i) : i < n ∧ p i = false := by
  unfold lowestFree at e
  exact ⟨List.mem_range.mp (List.mem_of_find?_eq_some e), by simpa using List.find?_some e⟩

/-- A namespace as it is created (R51). -/
def createdNs (nsid : Nat) (k : NsKind) (size : Nat) (d : CreateDesc) (parts : List NsPart) : Namespace :=
  { nsid := nsid, kind := k, size := size, desc := d, parts := parts, slot := none, through := false,
    compress := true, attachedTis := [], attachedPfs := [], lastOwner := none, programs := [] }

/-- A creation that passes every check puts the namespace under a free NSID; beyond that, spare figures and partitions follow in the
slices. -/
theorem execNamespaceCreate_accepted {csi nsze flbas : Nat} {desc : CreateDesc} {k : NsKind} (ready : ManagerReady s h)
    (hk : kindOf csi = some k) (hz : nsze ≠ 0) (hb : k = .block → flbas = 0) (hm : k = .memory → nsze % 512 = 0)
    (ok : s.descOk k (s.descOf k desc) = true) (profile : s.fifthProfile k (s.descOf k desc) = false)
    (room : ∀ n ∈ s.newSlices (s.descOf k desc), (s.newPart? n k (s.descOf k desc)
      (shareBlocks k (s.descOf k desc).placement nsze (s.newSlices (s.descOf k desc)).length)).isSome = true)
    (free : ∃ i, i < 4096 ∧ ∀ y ∈ s.namespaces, y.nsid ≠ i + 1) :
    ∃ i parts u, i < 4096 ∧ s.ns (i + 1) = none ∧ parts.length = (s.newSlices (s.descOf k desc)).length ∧
      Frame 0x8000000020004
        { s with namespaces := recPut Namespace.nsid s.namespaces (createdNs (i + 1) k nsze (s.descOf k desc) parts) } u ∧
      execNamespaceCreate h csi nsze nsze flbas desc s = .next (u.finish h (ansDw0 (i + 1))) := by
  obtain ⟨i0, hi0, fresh⟩ := free
  have hfree : (lowestFree 4096 fun i => (s.namespaces.map Namespace.nsid).contains (i + 1)).isSome = true :=
    lowestFree_isSome hi0 (by simpa using fresh)
  obtain ⟨i, e⟩ := Option.isSome_iff_exists.mp hfree
  obtain ⟨hi, unused⟩ := lowestFree_spec e
  have hnone : s.ns (i + 1) = none := ns_eq_none (by simpa using unused)
  unfold execNamespaceCreate
  rw [managed_of_ready ready, hk]
  dsimp only
  generalize s.descOf k desc = d at *
  generalize hp : shareBlocks k d.placement nsze (s.newSlices d).length = share at *
  have parted : ((s.newSlices d).map fun n => s.newPart? n k d share).any Option.isNone = false := by
    simpa [Option.isSome_iff_ne_none] using room
  have count : (((s.newSlices d).map fun n => s.newPart? n k d share).filterMap id).length = (s.newSlices d).length := by
    rw [List.filterMap_map]
    exact List.filterMap_length_eq_length.mpr room
  rw [if_neg (by simpa [hz, ok, profile] using ⟨hb, hm⟩), if_neg (by rw [parted, e]; simp), e]
  refine ⟨i, _, _, hi, hnone, count, ?_, rfl⟩
  refine Frame.ite (Frame.foldl _ _ (Frame.foldl _ _ (Frame.refl _ _) ?_) ?_) (Frame.foldl _ _ (Frame.refl _ _) ?_)
  · exact fun t n fr => evalSpare_frame t n fr rfl
  · exact fun t n fr => sealPart_frame t n _ fr rfl
  · exact fun t n fr => evalSpare_frame t n fr rfl

/-! ### Attachment (R73, R249) -/

/-- Do both controllers share an attachment: they are one, or belong to one tenant (R73)? -/
def SameSeat (d c : Nat) : Prop := d = c ∨ isPf c = false ∧ isPf d = false ∧ ctrlOwner d = ctrlOwner c

theorem isPf_of_sameSeat {d c : Nat} (e : SameSeat d c) : isPf d = isPf c := by
  rcases e with rfl | ⟨hc, hd, -⟩
  · rfl
  · rw [hc, hd]

theorem not_sameSeat {d c : Nat} (e : isPf d ≠ isPf c) : ¬SameSeat d c := mt isPf_of_sameSeat e

theorem sameSeat_of_pf {d c : Nat} (hc : isPf c = true) : SameSeat d c ↔ d = c := by
  simp [SameSeat, hc]

theorem sameSeat_of_vf {d c : Nat} (hd : isPf d = false) (hc : isPf c = false) : SameSeat d c ↔ ctrlOwner d = ctrlOwner c := by
  simp only [SameSeat, hc, hd, true_and]
  exact ⟨fun e => e.elim (fun e => e ▸ rfl) id, .inr⟩

/-- A namespace with a controller's attachment, as attachTo gives it. -/
def attachSeat (y : Namespace) (c : Nat) : Namespace :=
  let y := { y with lastOwner := some (ctrlOwner c) }
  if isPf c then { y with attachedPfs := if y.attachedPfs.contains c then y.attachedPfs else y.attachedPfs ++ [c] }
  else { y with attachedTis := if y.attachedTis.contains (ctrlOwner c) then y.attachedTis else y.attachedTis ++ [ctrlOwner c] }

theorem attached_of_pf {c : Nat} (hc : isPf c = true) (y : Namespace) : y.attached c = true ↔ c ∈ y.attachedPfs := by
  simp [Namespace.attached, hc]

theorem attached_of_vf {c : Nat} (hc : isPf c = false) (y : Namespace) : y.attached c = true ↔ ctrlOwner c ∈ y.attachedTis := by
  simp [Namespace.attached, ctrlOwner, hc]

theorem mem_added {l : List Nat} {a b : Nat} : b ∈ (if l.contains a then l else l ++ [a]) ↔ b ∈ l ∨ a = b := by
  split
  next m => exact ⟨.inl, fun e => e.elim id fun e => e ▸ List.contains_iff_mem.mp m⟩
  next => rw [List.mem_append, List.mem_singleton, eq_comm (a := b)]

theorem mem_removed {l : List Nat} {a b : Nat} : b ∈ l.filter (· != a) ↔ b ∈ l ∧ ¬a = b := by
  rw [List.mem_filter, bne_iff_ne, ne_eq, eq_comm (a := b)]

theorem attached_attachSeat (y : Namespace) (d c : Nat) : (attachSeat y d).attached c = true ↔ y.attached c = true ∨ SameSeat d c := by
  unfold attachSeat
  cases hd : isPf d <;> cases hc : isPf c
  · rw [sameSeat_of_vf hd hc, attached_of_vf hc, attached_of_vf hc]
    exact mem_added
  · rw [or_iff_left (not_sameSeat (by simp [hd, hc])), attached_of_pf hc, attached_of_pf hc]
    rfl
  · rw [or_iff_left (not_sameSeat (by simp [hd, hc])), attached_of_vf hc, attached_of_vf hc]
    rfl
  · rw [sameSeat_of_pf hc, attached_of_pf hc, attached_of_pf hc]
    exact mem_added

theorem attached_detach (y : Namespace) (d c : Nat) : (y.detach d).attached c = true ↔ y.attached c = true ∧ ¬SameSeat d c := by
  unfold Namespace.detach
  cases hd : isPf d <;> cases hc : isPf c
  · rw [sameSeat_of_vf hd hc, attached_of_vf hc, attached_of_vf hc]
    exact mem_removed
  · rw [and_iff_left (not_sameSeat (by simp [hd, hc])), attached_of_pf hc, attached_of_pf hc]
    rfl
  · rw [and_iff_left (not_sameSeat (by simp [hd, hc])), attached_of_vf hc, attached_of_vf hc]
    rfl
  · rw [sameSeat_of_pf hc, attached_of_pf hc, attached_of_pf hc]
    exact mem_removed

theorem attached_foldl_attachSeat (l : List Nat) (y : Namespace) (c : Nat) :
    (l.foldl attachSeat y).attached c = true ↔ y.attached c = true ∨ ∃ d ∈ l, SameSeat d c := by
  induction l generalizing y with
  | nil => simp
  | cons d l ih => simp [ih, attached_attachSeat, or_assoc]

theorem attached_foldl_detach (l : List Nat) (y : Namespace) (c : Nat) :
    (l.foldl Namespace.detach y).attached c = true ↔ y.attached c = true ∧ ∀ d ∈ l, ¬SameSeat d c := by
  induction l generalizing y with
  | nil => simp
  | cons d l ih => simp [ih, attached_detach, and_assoc]

/-- Both are one namespace but for its attachments. -/
structure SameButSeats (y z : Namespace) : Prop where
  nsid : z.nsid = y.nsid
  size : z.size = y.size
  slot : z.slot = y.slot
  parts : z.parts = y.parts

theorem sameButSeats_foldl (f : Namespace → Nat → Namespace) (hf : ∀ y c, SameButSeats y (f y c)) (l : List Nat) (y : Namespace) :
    SameButSeats y (l.foldl f y) := by
  induction l generalizing y with
  | nil => exact ⟨rfl, rfl, rfl, rfl⟩
  | cons c l ih =>
    have a := hf y c
    have b := ih (f y c)
    exact ⟨b.nsid.trans a.nsid, b.size.trans a.size, b.slot.trans a.slot, b.parts.trans a.parts⟩

theorem attachSeat_sameButSeats (y : Namespace) (c : Nat) : SameButSeats y (attachSeat y c) := by
  unfold attachSeat
  dsimp only
  split <;> exact ⟨rfl, rfl, rfl, rfl⟩

theorem detach_sameButSeats (y : Namespace) (c : Nat) : SameButSeats y (y.detach c) := by
  unfold Namespace.detach
  split <;> exact ⟨rfl, rfl, rfl, rfl⟩

theorem ns_attachTo (s : State) (x : Namespace) (c m : Nat) :
    (s.attachTo x c).ns m = (s.ns m).map fun y => if m = x.nsid then attachSeat y c else y := by
  unfold State.attachTo
  dsimp only
  refine (ns_modNs _ x.nsid m (fun y => attachSeat y c) fun y => (attachSeat_sameButSeats y c).nsid).trans ?_
  congr 1
  split
  · exact ns_congr ((zeroMem_frame s x (Frame.refl 0x20000000020000 s) rfl).same .namespaces rfl) m
  · rfl

theorem ns_foldl_attachTo (l : List Nat) (s : State) (x : Namespace) (m : Nat) :
    (l.foldl (fun s c => s.attachTo x c) s).ns m = (s.ns m).map fun y => if m = x.nsid then l.foldl attachSeat y else y := by
  induction l generalizing s with
  | nil => simp
  | cons c l ih =>
    rw [List.foldl_cons, ih, ns_attachTo, Option.map_map]
    congr 1
    funext y
    simp only [Function.comp]
    split <;> rfl

/-- A controller of a tenant counts for the tenant, which is not physical function 0. -/
theorem ctrlOwner_ne_ownerPf {c : Nat} (hv : isPf c = false) (hc : s.ctrlExists c = true) : ctrlOwner c ≠ ownerPf := by
  simp only [State.ctrlExists, Bool.and_eq_true, decide_eq_true_eq] at hc
  obtain ⟨⟨⟨-, hf⟩, -⟩, -⟩ := hc
  simp only [ctrlOwner, hv, ownerPf, Bool.false_eq_true, if_false]
  omega

theorem eraseDups_length_le_one {l : List Nat} (e : ∀ a ∈ l, ∀ b ∈ l, a = b) : l.eraseDups.length ≤ 1 := by
  cases l with
  | nil => simp
  | cons a l =>
    have none : l.filter (fun b => !b == a) = [] := by
      rw [List.filter_eq_nil_iff]
      intro b hb
      simpa using e b (List.mem_cons_of_mem a hb) a List.mem_cons_self
    rw [List.eraseDups_cons, none]
    simp

theorem execNamespaceAttach_accepted {nsid : Nat} {ctrls : List Nat} (turn : ItsTurn s h) (hx : s.ns nsid = some x) (hne : ctrls ≠ [])
    (listed : s.listOk ctrls = true) (apart : ∀ c ∈ ctrls, x.attached c = false)
    (may : ∀ c ∈ ctrls, if isPf c then s.mayAttachPf x = true else ∃ y, s.tenant (ctrlOwner c) = some y ∧ s.mayAttachTi y x = true)
    (one : x.kind = .memory → ∀ c ∈ ctrls, ∀ d ∈ ctrls, ctrlOwner c = ctrlOwner d) :
    execNamespaceAttach h nsid ctrls s = .next ((ctrls.foldl (fun s c => s.attachTo x c) s).finish h (ansSt stOk)) := by
  have owned : ((ctrls.map ctrlOwner).eraseDups.all fun o =>
      if o = ownerPf then s.mayAttachPf x else (s.tenant o).any fun t => s.mayAttachTi t x) = true := by
    rw [List.all_eq_true]
    intro o ho
    obtain ⟨c, hc, rfl⟩ := List.mem_map.mp (List.mem_eraseDups.mp ho)
    have allowed := may c hc
    cases hp : isPf c with
    | true => simpa [ctrlOwner, hp] using allowed
    | false =>
      have present : s.ctrlExists c = true := (Bool.and_eq_true_iff.mp (List.all_eq_true.mp listed c hc)).1
      rw [hp] at allowed
      obtain ⟨y, hy, ok⟩ := allowed
      simp [ctrlOwner_ne_ownerPf hp present, hy, ok]
  have single : x.kind = .memory → (ctrls.map ctrlOwner).eraseDups.length ≤ 1 := fun hk =>
    eraseDups_length_le_one (by simpa using one hk)
  have free : ctrls.any x.attached = false := by simpa using apart
  unfold execNamespaceAttach
  rw [serial_of_turn turn, hx]
  dsimp only
  rw [if_neg hne, if_neg (by simp [listed]), if_neg (by simp [free]), if_neg (by rw [owned]; simpa using single)]

theorem execNamespaceDetach_accepted {nsid : Nat} {ctrls : List Nat} (turn : ItsTurn s h) (hx : s.ns nsid = some x) (hne : ctrls ≠ [])
    (listed : s.listOk ctrls = true) (seated : ∀ c ∈ ctrls, x.attached c = true) :
    execNamespaceDetach h nsid ctrls s =
      .next ((s.modNs nsid fun y => ctrls.foldl Namespace.detach y).finish h (ansSt stOk)) := by
  have all : ctrls.all x.attached = true := List.all_eq_true.mpr seated
  unfold execNamespaceDetach
  rw [serial_of_turn turn, hx]
  dsimp only
  rw [if_neg hne, if_neg (by simp [listed]), if_neg (by simp [all])]

end Sys2Proof.Proofs
end

section
/-!
Namespaces deleted (R63, R93, R249, R255): what a deletion takes away, and that the command which deletes keeps its record meanwhile.
-/

namespace Sys2Proof.Proofs

open Sys2Proof.Machine Sys2Proof.Laws

variable {s t u : State} {x : Namespace} {h : Hdr}

/-! ### Records kept -/

/-- Both states have records of the same commands. -/
def SameRecords (s t : State) : Prop := t.inflight.map InFlight.hdr = s.inflight.map InFlight.hdr

theorem SameRecords.refl (s : State) : SameRecords s s := rfl

theorem SameRecords.trans (a : SameRecords s t) (b : SameRecords t u) : SameRecords s u := Eq.trans b a

theorem SameRecords.isSome (e : SameRecords s t) (h : Hdr) : (t.inFlight h).isSome = (s.inFlight h).isSome := by
  rw [inFlight_isSome, inFlight_isSome, e]

theorem sameRecords_of_inflight (e : t.inflight = s.inflight) : SameRecords s t := congrArg (List.map InFlight.hdr) e

theorem sameRecords_of_frame {F : Nat} (fr : Frame F s t) (m : F.testBit Component.inflight.ctorIdx = false) : SameRecords s t :=
  sameRecords_of_inflight (fr.same .inflight m)

theorem sameRecords_mapInflight (s : State) (f : InFlight → InFlight) (hf : ∀ y, (f y).hdr = y.hdr) :
    SameRecords s (s.mapInflight f) := by
  unfold SameRecords
  rw [mapInflight_inflight, List.map_map]
  exact congrArg (fun g => s.inflight.map g) (funext hf)

theorem sameRecords_foldl {α : Type} (f : State → α → State) (hf : ∀ s a, SameRecords s (f s a)) (l : List α) (s : State) :
    SameRecords s (l.foldl f s) := by
  induction l generalizing s with
  | nil => exact SameRecords.refl s
  | cons a l ih => exact (hf s a).trans (ih _)

theorem sameRecords_clearCond (s : State) (c : Cond) : SameRecords s (s.clearCond c) := sameRecords_mapInflight s _ fun _ => rfl

theorem sameRecords_finish (s : State) (h : Hdr) (a : Answer) : SameRecords s (s.finish h a) :=
  sameRecords_mapInflight s _ fun y => by split <;> rfl

theorem sameRecords_endInvocations (s : State) (p : Invocation → Bool) (a : Answer) : SameRecords s (s.endInvocations p a) :=
  sameRecords_foldl _ (fun s v => (sameRecords_of_frame (freeInvocation_frame s v (Frame.refl 0x60004 s) rfl) rfl).trans
    (sameRecords_finish _ v.hdr a)) _ s

theorem sameRecords_abandon (s : State) (n : Nat) (g : Ingest) : SameRecords s (s.abandon n g) := by
  unfold State.abandon
  dsimp only
  have cleared := fun s => sameRecords_foldl (fun (s : State) (v : Version) => s.clearCond (.programmed n v.wslot))
    (fun s v => sameRecords_clearCond s _) ((s.slice n).versions.filter fun v => g.luas.contains v.index) s
  split
  · exact (cleared s).trans (sameRecords_of_inflight (modSlice_inflight ..))
  · exact ((cleared s).trans (sameRecords_of_inflight (modSlice_inflight ..))).trans
      (sameRecords_of_frame (freeDigest_frame _ _ (Frame.refl 0x200001000000 _) rfl) rfl)

theorem sameRecords_dropObjects (s : State) (n nsid : Nat) : SameRecords s (s.dropObjects n nsid) := by
  unfold State.dropObjects
  exact ((sameRecords_foldl _ (fun s g => sameRecords_abandon s n g) _ s).trans (sameRecords_foldl _ (fun s p =>
    sameRecords_of_frame (unpin_frame s n p false (Frame.refl 0x200001020000 s) rfl) rfl) _ _)).trans (sameRecords_of_inflight rfl)

theorem sameRecords_dropVersions (s : State) (n nsid : Nat) : SameRecords s (s.dropVersions n nsid) := by
  unfold State.dropVersions
  refine SameRecords.trans ?_ (sameRecords_foldl _ (fun s v => sameRecords_clearCond s _) _ _)
  exact sameRecords_of_inflight rfl

/-! ### What a namespace holds, dropped (R63) -/

/-- What a namespace holds in one of its slices, dropped with its table entries. -/
def dropPart (x : Namespace) (s : State) (q : NsPart) : State :=
  ((s.dropObjects q.slice x.nsid).dropVersions q.slice x.nsid).dropEntries q.slice q x.nsid

theorem dropPart_frame (s : State) (x : Namespace) (q : NsPart) : Frame 0x200001020200 s (dropPart x s q) :=
  dropEntries_frame _ _ _ _ (dropVersions_frame _ _ _ (dropObjects_frame _ _ _ (Frame.refl _ s) rfl) rfl) rfl

theorem sameRecords_dropPart (s : State) (x : Namespace) (q : NsPart) : SameRecords s (dropPart x s q) :=
  ((sameRecords_dropObjects s q.slice x.nsid).trans (sameRecords_dropVersions _ q.slice x.nsid)).trans
    (sameRecords_of_frame (dropEntries_frame _ q.slice q x.nsid (Frame.refl 0x20000 _) rfl) rfl)

/-- What a namespace holds in its slices, dropped. -/
def dropParts (s : State) (x : Namespace) : State := x.parts.foldl (dropPart x) s

theorem clearNs_erase (s : State) (x : Namespace) : s.clearNs x true = ((dropParts s x).zeroMem x).dropRanges x.nsid := rfl

theorem dropParts_frame (s : State) (x : Namespace) : Frame 0x200001020200 s (dropParts s x) :=
  Frame.foldl _ _ (Frame.refl _ s) fun u q fr => fr.comp (dropPart_frame u x q) rfl

theorem sameRecords_dropParts (s : State) (x : Namespace) : SameRecords s (dropParts s x) :=
  sameRecords_foldl (dropPart x) (fun s q => sameRecords_dropPart s x q) x.parts s

theorem sameRecords_clearNs (s : State) (x : Namespace) : SameRecords s (s.clearNs x true) := by
  rw [clearNs_erase]
  exact (sameRecords_dropParts s x).trans
    (sameRecords_of_frame (dropRanges_frame _ _ (zeroMem_frame _ x (Frame.refl 0x20020000020000 _) rfl) rfl) rfl)

theorem clearNs_nvm (s : State) (x : Namespace) :
    (s.clearNs x true).nvm = { s.nvm with ranges := s.nvm.ranges.filter fun r => r.1 != x.nsid } := by
  have kept : ((dropParts s x).zeroMem x).nvm = s.nvm :=
    (zeroMem_frame _ x ((Frame.refl 0x20200001020200 s).comp (dropParts_frame s x) rfl) rfl).same .nvm rfl
  rw [clearNs_erase, State.dropRanges, modNvm_nvm, kept]

/-! ### Deletion -/

/-- What is gone with the namespaces of some NSIDs: they, their deferred-fault ranges and their pending faults; no other namespace. -/
structure Deleted (gone : Nat → Prop) (s t : State) : Prop where
  away : ∀ m, gone m → t.ns m = none
  kept : ∀ m, ¬gone m → t.ns m = s.ns m
  ranges : ∀ r ∈ t.nvm.ranges, r ∈ s.nvm.ranges ∧ ¬gone r.1
  pairs : ∀ p ∈ t.nvm.faultPairs, p ∈ s.nvm.faultPairs ∧ ¬gone p.2

/-- A namespace's contents and deferred-fault ranges gone, and its programs' runs ended. -/
def emptied (s : State) (x : Namespace) : State :=
  (s.endInvocations (fun v => v.nsid == x.nsid) (ansSt stNamespace)).clearNs x true

/-- A namespace's pending faults gone, and itself. -/
def unlisted (s : State) (x : Namespace) : State :=
  let s := s.modNvm fun v =>
    { v with faultPairs := v.faultPairs.filter (fun p => p.2 != x.nsid),
             faults := v.faults.map fun f => if f.nsid = x.nsid then { f with pending := false } else f }
  { s with namespaces := recErase Namespace.nsid s.namespaces x.nsid }

/-- A deletion empties the namespace and takes it off the lists; beyond that, spare figures and partitions follow in the slices. -/
theorem deleteNs_frame_unlisted (s : State) (x : Namespace) : Frame 0x20004 (unlisted (emptied s x) x) (s.deleteNs x) :=
  Frame.foldl (f := fun (s : State) (q : NsPart) => (s.evalSpare q.slice).unsealPart q.slice x.desc.sealedTi) x.parts
    (unlisted (emptied s x) x) (Frame.refl _ _) fun t q fr => unsealPart_frame _ _ _ (evalSpare_frame t q.slice fr rfl) rfl

theorem emptied_namespaces (s : State) (x : Namespace) : (emptied s x).namespaces = s.namespaces :=
  (clearNs_frame _ x true (endInvocations_frame s (fun v => v.nsid == x.nsid) (ansSt stNamespace)
    (Frame.refl 0x20220001060204 s) rfl) rfl).same .namespaces rfl

theorem emptied_nvm (s : State) (x : Namespace) :
    (emptied s x).nvm = { s.nvm with ranges := s.nvm.ranges.filter fun r => r.1 != x.nsid } := by
  have kept : (s.endInvocations (fun v => v.nsid == x.nsid) (ansSt stNamespace)).nvm = s.nvm :=
    (endInvocations_frame s _ _ (Frame.refl 0x60204 s) rfl).same .nvm rfl
  rw [emptied, clearNs_nvm, kept]

theorem emptied_faultPairs (s : State) (x : Namespace) : (emptied s x).nvm.faultPairs = s.nvm.faultPairs := by
  rw [emptied_nvm]

theorem sameRecords_deleteNs (s : State) (x : Namespace) : SameRecords s (s.deleteNs x) := by
  have cleared : SameRecords s (emptied s x) := (sameRecords_endInvocations s _ _).trans (sameRecords_clearNs _ x)
  have off : SameRecords (emptied s x) (unlisted (emptied s x) x) := sameRecords_of_inflight rfl
  exact (cleared.trans off).trans (sameRecords_of_frame (deleteNs_frame_unlisted s x) rfl)

theorem deleted_deleteNs (s : State) (x : Namespace) : Deleted (x.nsid = ·) s (s.deleteNs x) := by
  have fr := deleteNs_frame_unlisted s x
  have hn : ∀ m, (s.deleteNs x).ns m = if m = x.nsid then none else s.ns m := fun m => by
    have e : (s.deleteNs x).namespaces = recErase Namespace.nsid s.namespaces x.nsid :=
      (fr.same .namespaces rfl).trans (congrArg (recErase Namespace.nsid · x.nsid) (emptied_namespaces s x))
    rw [State.ns, e, recGet_recErase]
    rfl
  have hr : (s.deleteNs x).nvm.ranges = s.nvm.ranges.filter fun r => r.1 != x.nsid :=
    (congrArg Nvm.ranges (fr.same .nvm rfl)).trans (congrArg Nvm.ranges (emptied_nvm s x))
  have hp : (s.deleteNs x).nvm.faultPairs = s.nvm.faultPairs.filter fun p => p.2 != x.nsid :=
    (congrArg Nvm.faultPairs (fr.same .nvm rfl)).trans
      (congrArg (List.filter fun (p : Nat × Nat) => p.2 != x.nsid) (emptied_faultPairs s x))
  refine ⟨fun m e => by rw [hn, if_pos e.symm], fun m e => by rw [hn, if_neg (Ne.symm e)], fun r hm => ?_, fun p hm => ?_⟩
  · rw [hr, List.mem_filter, bne_iff_ne] at hm
    exact ⟨hm.1, hm.2.symm⟩
  · rw [hp, List.mem_filter, bne_iff_ne] at hm
    exact ⟨hm.1, hm.2.symm⟩

theorem deleted_foldl (l : List Namespace) (s : State) : Deleted (fun m => ∃ x ∈ l, x.nsid = m) s (l.foldl State.deleteNs s) := by
  induction l generalizing s with
  | nil => exact ⟨fun m e => by simp at e, fun _ _ => rfl, fun r hr => ⟨hr, by simp⟩, fun p hp => ⟨hp, by simp⟩⟩
  | cons y l ih =>
    have one := deleted_deleteNs s y
    have rest := ih (s.deleteNs y)
    simp only [List.mem_cons, exists_eq_or_imp, List.foldl_cons]
    refine ⟨fun m e => ?_, fun m e => ?_, fun r hr => ?_, fun p hp => ?_⟩
    · by_cases later : ∃ x ∈ l, x.nsid = m
      · exact rest.away m later
      · exact (rest.kept m later).trans (one.away m (e.resolve_right later))
    · obtain ⟨now, later⟩ := not_or.mp e
      exact (rest.kept m later).trans (one.kept m now)
    · obtain ⟨hm, later⟩ := rest.ranges r hr
      obtain ⟨hs, now⟩ := one.ranges r hm
      exact ⟨hs, not_or.mpr ⟨now, later⟩⟩
    · obtain ⟨hm, later⟩ := rest.pairs p hp
      obtain ⟨hs, now⟩ := one.pairs p hm
      exact ⟨hs, not_or.mpr ⟨now, later⟩⟩

theorem execNamespaceDelete_accepted {nsid : Nat} (ready : ManagerReady s h) (hne : s.named nsid ≠ []) :
    execNamespaceDelete h nsid s = .next (((s.named nsid).foldl State.deleteNs s).finish h (ansSt stOk)) := by
  unfold execNamespaceDelete
  rw [managed_of_ready ready, if_neg hne]

/-! ### The statement, clause by clause -/

/-- Creation (R10, R51). -/
theorem create_completes {csi nsze flbas : Nat} {desc : CreateDesc} {k : NsKind} (ready : ManagerReady s h)
    (hk : kindOf csi = some k) (hz : nsze ≠ 0) (hb : k = .block → flbas = 0) (hm : k = .memory → nsze % 512 = 0)
    (ok : s.descOk k (s.descOf k desc) = true) (profile : s.fifthProfile k (s.descOf k desc) = false)
    (room : ∀ n ∈ s.newSlices (s.descOf k desc), (s.newPart? n k (s.descOf k desc)
      (shareBlocks k (s.descOf k desc).placement nsze (s.newSlices (s.descOf k desc)).length)).isSome = true)
    (free : ∃ i, i < 4096 ∧ ∀ y ∈ s.namespaces, y.nsid ≠ i + 1) :
    Completes (.namespaceCreate h csi nsze nsze flbas desc) s fun t => ∃ nsid x, 0 < nsid ∧ nsid ≤ 4096 ∧ s.ns nsid = none ∧
      Answered t h (ansDw0 nsid) ∧ t.ns nsid = some x ∧ x.kind = k ∧ x.size = nsze ∧ x.slot = none ∧ x.attachedTis = [] ∧
      x.attachedPfs = [] ∧ x.parts.length = (s.newSlices (s.descOf k desc)).length ∧ ∀ m, m ≠ nsid → t.ns m = s.ns m := by
  obtain ⟨i, parts, u, hi, unused, count, fr, e⟩ := execNamespaceCreate_accepted ready hk hz hb hm ok profile room free
  have hn : ∀ m, (u.finish h (ansDw0 (i + 1))).ns m =
      if i + 1 = m then some (createdNs (i + 1) k nsze (s.descOf k desc) parts) else s.ns m := fun m =>
    (ns_congr (fr.same .namespaces rfl) m).trans (recGet_recPut ..)
  have record : (u.inFlight h).isSome = true := by
    rw [inFlight_congr (fr.same .inflight rfl)]
    exact inFlight_isSome_of_ready ready
  exact ⟨_, e, i + 1, createdNs (i + 1) k nsze (s.descOf k desc) parts, by omega, by omega, unused, answered_finish record _,
    (hn _).trans (if_pos rfl), rfl, rfl, rfl, rfl, rfl, count, fun m hm => (hn m).trans (if_neg hm.symm)⟩

/-- Attachment (R73, R188, R249). -/
theorem attach_completes {nsid : Nat} {ctrls : List Nat} (turn : ItsTurn s h) (hx : s.ns nsid = some x) (hne : ctrls ≠ [])
    (listed : s.listOk ctrls = true) (apart : ∀ c ∈ ctrls, x.attached c = false)
    (may : ∀ c ∈ ctrls, if isPf c then s.mayAttachPf x = true else ∃ y, s.tenant (ctrlOwner c) = some y ∧ s.mayAttachTi y x = true)
    (one : x.kind = .memory → ∀ c ∈ ctrls, ∀ d ∈ ctrls, ctrlOwner c = ctrlOwner d) :
    Completes (.namespaceAttach h nsid ctrls) s fun t => Answered t h (ansSt stOk) ∧
      (∀ m, m ≠ nsid → t.ns m = s.ns m) ∧ ∃ y, t.ns nsid = some y ∧ y.size = x.size ∧ y.slot = x.slot ∧ y.parts = x.parts ∧
        (∀ c ∈ ctrls, y.attached c = true) ∧ (∀ c, x.attached c = true → y.attached c = true) ∧
        ∀ c, y.attached c = true → x.attached c = true ∨
          ∃ d ∈ ctrls, d = c ∨ isPf c = false ∧ isPf d = false ∧ ctrlOwner d = ctrlOwner c := by
  have fr : Frame 0x20000000020800 s (ctrls.foldl (fun s c => s.attachTo x c) s) :=
    Frame.foldl _ _ (Frame.refl _ s) fun t c fr => attachTo_frame t x c fr rfl
  have hn : ∀ m, ((ctrls.foldl (fun s c => s.attachTo x c) s).finish h (ansSt stOk)).ns m =
      (s.ns m).map fun y => if m = nsid then ctrls.foldl attachSeat y else y := by
    rw [← ns_nsid hx]
    exact ns_foldl_attachTo ctrls s x
  have record : ((ctrls.foldl (fun s c => s.attachTo x c) s).inFlight h).isSome = true := by
    rw [inFlight_congr (fr.same .inflight rfl)]
    exact inFlight_isSome_of_turn turn
  have same := sameButSeats_foldl attachSeat attachSeat_sameButSeats ctrls x
  refine ⟨_, execNamespaceAttach_accepted turn hx hne listed apart may one, answered_finish record _, fun m hm => ?_,
    ctrls.foldl attachSeat x, ?_, same.size, same.slot, same.parts, fun c hc => ?_, fun c hc => ?_, fun c hc => ?_⟩
  · rw [hn]
    simp [hm]
  · rw [hn, hx]
    simp
  · exact (attached_foldl_attachSeat ctrls x c).mpr (.inr ⟨c, hc, .inl rfl⟩)
  · exact (attached_foldl_attachSeat ctrls x c).mpr (.inl hc)
  · exact (attached_foldl_attachSeat ctrls x c).mp hc

/-- Detachment (R73). -/
theorem detach_completes {nsid : Nat} {ctrls : List Nat} (turn : ItsTurn s h) (hx : s.ns nsid = some x) (hne : ctrls ≠ [])
    (listed : s.listOk ctrls = true) (seated : ∀ c ∈ ctrls, x.attached c = true) :
    Completes (.namespaceDetach h nsid ctrls) s fun t => Answered t h (ansSt stOk) ∧ OnlyChanges [.inflight, .namespaces] s t ∧
      (∀ m, m ≠ nsid → t.ns m = s.ns m) ∧ ∃ y, t.ns nsid = some y ∧ y.size = x.size ∧ y.slot = x.slot ∧ y.parts = x.parts ∧
        (∀ c ∈ ctrls, y.attached c = false) ∧ (∀ c, y.attached c = true → x.attached c = true) ∧
        ∀ c, x.attached c = true → y.attached c = true ∨
          ∃ d ∈ ctrls, d = c ∨ isPf c = false ∧ isPf d = false ∧ ctrlOwner d = ctrlOwner c := by
  have e : exec (.namespaceDetach h nsid ctrls) s = _ := execNamespaceDetach_accepted turn hx hne listed seated
  have hn : ∀ m, ((s.modNs nsid fun y => ctrls.foldl Namespace.detach y).finish h (ansSt stOk)).ns m =
      (s.ns m).map fun y => if m = nsid then ctrls.foldl Namespace.detach y else y := fun m =>
    ns_modNs s nsid m _ fun y => (sameButSeats_foldl _ detach_sameButSeats ctrls y).nsid
  have record : ((s.modNs nsid fun y => ctrls.foldl Namespace.detach y).inFlight h).isSome = true :=
    inFlight_isSome_of_turn turn
  have same := sameButSeats_foldl _ detach_sameButSeats ctrls x
  have seats := attached_foldl_detach ctrls x
  refine ⟨_, e, answered_finish record _, commandsChangeOnlyTheirFootprint _ s _ e, fun m hm => ?_,
    ctrls.foldl Namespace.detach x, ?_, same.size, same.slot, same.parts, fun c hc => ?_, fun c hc => ((seats c).mp hc).1,
    fun c hc => ?_⟩
  · rw [hn]
    simp [hm]
  · rw [hn, hx]
    simp
  · exact Bool.eq_false_iff.mpr fun a => ((seats c).mp a).2 c hc (.inl rfl)
  · by_cases shared : ∃ d ∈ ctrls, SameSeat d c
    · exact .inr shared
    · exact .inl ((seats c).mpr ⟨hc, fun d hd e => shared ⟨d, hd, e⟩⟩)

/-- Deletion (R63). -/
theorem delete_completes {nsid : Nat} (ready : ManagerReady s h) (hne : s.named nsid ≠ []) :
    Completes (.namespaceDelete h nsid) s fun t => Answered t h (ansSt stOk) ∧
      (∀ x ∈ s.named nsid, t.ns x.nsid = none ∧ (∀ r ∈ t.nvm.ranges, r.1 ≠ x.nsid) ∧ ∀ p ∈ t.nvm.faultPairs, p.2 ≠ x.nsid) ∧
      ∀ m, (∀ x ∈ s.named nsid, x.nsid ≠ m) → t.ns m = s.ns m := by
  have gone := deleted_foldl (s.named nsid) s
  have record : (((s.named nsid).foldl State.deleteNs s).inFlight h).isSome = true := by
    rw [(sameRecords_foldl _ sameRecords_deleteNs (s.named nsid) s).isSome]
    exact inFlight_isSome_of_ready ready
  refine ⟨_, execNamespaceDelete_accepted ready hne, answered_finish record _, fun x hx =>
    ⟨gone.away _ ⟨x, hx, rfl⟩, fun r hr e => (gone.ranges r hr).2 ⟨x, hx, e.symm⟩, fun p hp e => (gone.pairs p hp).2 ⟨x, hx, e.symm⟩⟩,
    fun m hm => gone.kept m fun ⟨x, hx, e⟩ => hm x hx e⟩

/-- Settles O25, clause by clause. -/
theorem namespacesAreCreatedAttachedAndDeleted : Obligations.NamespacesAreCreatedAttachedAndDeleted :=
  ⟨fun _ _ _ _ _ _ _ ready hk hz hb hm ok profile room free => create_completes ready hk hz hb hm ok profile room free,
    fun _ _ _ _ _ turn hx hne listed apart may one => attach_completes turn hx hne listed apart may one,
    fun _ _ _ _ _ turn hx hne listed seated => detach_completes turn hx hne listed seated,
    fun _ _ _ ready hne => delete_completes ready hne⟩

end Sys2Proof.Proofs
end

section
/-!
The front of the queue (R69) and the commit of the bond table (02_course_and_bond.md): the banks, the verdict, the request (R28, R34, R35).
-/

namespace Sys2Proof.Proofs

open Sys2Proof.Machine Sys2Proof.Laws

variable {s t : State} {a b : Nat}

/-- Settles O1: by the two cases of the queue. -/
theorem stepRunsTheFrontCommand : Obligations.StepRunsTheFrontCommand :=
  ⟨fun _ _ _ => rfl, fun s h => by unfold step; rw [h]⟩

/-! ### Writes in a row, and the map of registers -/

theorem rd_foldl_wr_of_not_mem (l : List (Nat × Word)) (s : State) (h : ∀ p ∈ l, p.1 ≠ a) :
    (l.foldl (fun s p => s.wr p.1 p.2) s).rd a = s.rd a := by
  induction l generalizing s with
  | nil => rfl
  | cons p l ih =>
    obtain ⟨hp, hl⟩ := List.forall_mem_cons.mp h
    exact (ih _ hl).trans (rd_wr_of_ne s p.2 hp.symm)

theorem rd_foldl_wr_of_all {v : Word} (l : List (Nat × Word)) (s : State) (h : ∀ p ∈ l, p.1 = a → p.2 = v)
    (hm : ∃ p ∈ l, p.1 = a) : (l.foldl (fun s p => s.wr p.1 p.2) s).rd a = v := by
  induction l generalizing s with
  | nil => exact absurd hm (by simp)
  | cons p l ih =>
    obtain ⟨hp, hl⟩ := List.forall_mem_cons.mp h
    by_cases later : ∃ q ∈ l, q.1 = a
    · exact ih _ hl later
    · have here : p.1 = a := by simpa [later] using hm
      have rest := rd_foldl_wr_of_not_mem l (s.wr p.1 p.2) fun q hq e => later ⟨q, hq, e⟩
      exact rest.trans (by rw [← here, rd_wr_self, hp here])

theorem mapGet_of_not_mem {α : Type} {l : List (Nat × α)} (h : ∀ p ∈ l, p.1 ≠ a) : mapGet l a = none := by
  induction l with
  | nil => rfl
  | cons p l ih =>
    obtain ⟨hp, hl⟩ := List.forall_mem_cons.mp h
    exact (if_neg hp.symm).trans (ih hl)

theorem mapGet_of_mem {α : Type} {l : List (Nat × α)} (h : mapSorted l = true) {p : Nat × α} (hp : p ∈ l) :
    mapGet l p.1 = some p.2 := by
  induction l with
  | nil => cases hp
  | cons q l ih =>
    simp only [mapSorted, Bool.and_eq_true, List.all_eq_true, decide_eq_true_eq] at h
    rcases List.mem_cons.mp hp with rfl | hp
    · exact if_pos rfl
    · exact (if_neg (Nat.ne_of_gt (h.1 p hp))).trans (ih h.2 hp)

/-- A filter of a map that keeps a key leaves what the key maps to. -/
theorem mapGet_filter {α : Type} (l : List (Nat × α)) (q : Nat → Bool) (h : q a = true) :
    mapGet (l.filter fun p => q p.1) a = mapGet l a := by
  induction l with
  | nil => rfl
  | cons p l ih =>
    rw [List.filter_cons]
    by_cases e : a = p.1
    · rw [if_pos (e ▸ h)]
      exact (if_pos e).trans (if_pos e).symm
    · rw [show mapGet (p :: l) a = mapGet l a from if_neg e]
      split
      · exact (if_neg e).trans ih
      · exact ih

/-- A listed register reads what the list says. -/
theorem rd_of_mem (hs : mapSorted s.regs = true) {p : Nat × Word} (hp : p ∈ s.regs) : s.rd p.1 = p.2 := by
  unfold State.rd
  rw [mapGet_of_mem hs hp]
  rfl

/-- An unlisted register reads its Reset value. -/
theorem rd_of_not_mem (h : ∀ p ∈ s.regs, p.1 ≠ a) : s.rd a = resetWord s.part a := by
  unfold State.rd
  rw [mapGet_of_not_mem h]
  rfl

/-! ### The banks (R28, R34) -/

/-- Does a register lie outside the active banks? -/
def outsideActive (a : Nat) : Bool :=
  !(decide (0x91000 ≤ a) && decide (a < 0x91800)) && !(decide (0x92000 ≤ a) && decide (a < 0x98000))

/-- The active register that takes a shadow register's value when a commit applies. -/
def activeOf (a : Nat) : Option Nat :=
  if 0x91800 ≤ a ∧ a < 0x92000 then some (a - 0x800)
  else if 0x98000 ≤ a then (if a < 0x98000 + 4 * 4160 then some (a - 0x6000) else none)
  else none

/-- The listed shadow registers, each under the address of its active one. -/
def bankCopies (l : List (Nat × Word)) : List (Nat × Word) := l.filterMap fun p => (activeOf p.1).map fun a => (a, p.2)

/-- The state with the active banks emptied, and then filled from the shadow banks. -/
def filledBanks (s : State) : State :=
  (bankCopies s.regs).foldl (fun s p => s.wr p.1 p.2) { s with regs := s.regs.filter fun p => outsideActive p.1 }

theorem applyBanks_eq (s : State) : s.applyBanks =
    (filledBanks s).modCourse fun c => { c with devwgt := (filledBanks s).rd Adr.ckDevwgt, devwgtH := (filledBanks s).rd Adr.ckDevwgtH } := by
  have copies : (s.regs.filterMap fun p =>
      if 0x91800 ≤ p.1 ∧ p.1 < 0x92000 then some (p.1 - 0x800, p.2)
      else if 0x98000 ≤ p.1 then (if p.1 < 0x98000 + 4 * 4160 then some (p.1 - 0x6000, p.2) else none)
      else none) = bankCopies s.regs :=
    List.filterMap_congr fun p _ => by
      unfold activeOf
      split
      · rfl
      · split
        · split <;> rfl
        · rfl
  unfold State.applyBanks
  rw [copies]
  rfl

theorem mem_bankCopies {l : List (Nat × Word)} {p : Nat × Word} :
    p ∈ bankCopies l ↔ ∃ q ∈ l, activeOf q.1 = some p.1 ∧ q.2 = p.2 := by
  unfold bankCopies
  simp only [List.mem_filterMap, Option.map_eq_some_iff, Prod.ext_iff]
  exact exists_congr fun q => and_congr_right fun _ => by simp

/-- A shadow register's active one lies in the active banks, and no other shadow register has the same. -/
theorem activeOf_eq_some : activeOf a = some b ↔ 0x91000 ≤ b ∧ b < 0x91800 ∧ a = b + 0x800 ∨
    0x92000 ≤ b ∧ b < 0x92000 + 4 * 4160 ∧ a = b + 0x6000 := by
  unfold activeOf
  split
  · simp only [Option.some.injEq]; omega
  · split
    · split
      · simp only [Option.some.injEq]; omega
      · simp only [reduceCtorEq, false_iff]; omega
    · simp only [reduceCtorEq, false_iff]; omega

theorem rd_filledBanks_of_outside (s : State) (h : outsideActive a = true) : (filledBanks s).rd a = s.rd a := by
  have kept : ({ s with regs := s.regs.filter fun p => outsideActive p.1 } : State).rd a = s.rd a := by
    unfold State.rd
    rw [mapGet_filter s.regs outsideActive h]
  refine (rd_foldl_wr_of_not_mem _ _ fun p hp e => ?_).trans kept
  obtain ⟨q, -, hq, -⟩ := mem_bankCopies.mp hp
  simp only [outsideActive, ← e, Bool.and_eq_true, Bool.not_eq_true', Bool.and_eq_false_iff, decide_eq_false_iff_not] at h
  rcases activeOf_eq_some.mp hq with hb | hb <;> omega

/-- An active register reads what its shadow read, where both have one Reset value. -/
theorem rd_filledBanks_of_active (hs : mapSorted s.regs = true) (h : activeOf a = some b)
    (hr : resetWord s.part b = resetWord s.part a) : (filledBanks s).rd b = s.rd a := by
  have same : ∀ q, activeOf q = some b → q = a := fun q hq => by
    have := activeOf_eq_some.mp hq
    have := activeOf_eq_some.mp h
    omega
  by_cases listed : ∃ p ∈ s.regs, p.1 = a
  · refine rd_foldl_wr_of_all _ _ (fun p hp e => ?_) ?_
    · obtain ⟨q, hq, hqa, hv⟩ := mem_bankCopies.mp hp
      rw [← hv, ← same _ (e ▸ hqa), rd_of_mem hs hq]
    · obtain ⟨p, hp, rfl⟩ := listed
      exact ⟨(b, p.2), mem_bankCopies.mpr ⟨p, hp, h, rfl⟩, rfl⟩
  · have unlisted : ∀ p ∈ s.regs, p.1 ≠ a := fun p hp e => listed ⟨p, hp, e⟩
    have noCopy : ∀ p ∈ bankCopies s.regs, p.1 ≠ b := fun p hp e => by
      obtain ⟨q, hq, hqa, -⟩ := mem_bankCopies.mp hp
      exact unlisted q hq (same _ (e ▸ hqa))
    have emptied : ∀ p ∈ s.regs.filter fun p => outsideActive p.1, p.1 ≠ b := fun p hp e => by
      have out := (List.mem_filter.mp hp).2
      have := activeOf_eq_some.mp h
      simp only [outsideActive, e, Bool.and_eq_true, Bool.not_eq_true', Bool.and_eq_false_iff, decide_eq_false_iff_not] at out
      omega
    rw [rd_of_not_mem unlisted, ← hr]
    exact (rd_foldl_wr_of_not_mem _ _ noCopy).trans (rd_of_not_mem emptied)

/-! ### Reset values of the banks (CK registers) -/

theorem absentReg_ck (p : Part) {o : Nat} (h : o < 0x10000) : absentReg p (0x90000 + o) = false := by
  cases p
  · rfl
  · simp [absentReg, absentVetch, show 0x90000 + o < 0x1000000 by omega]
    omega
  · simp [absentReg, absentHalf]
    omega

/-- A register of the CK block has the Reset value of its row. -/
theorem resetWord_ck (p : Part) {o : Nat} {r : RegRow} (h : o < 0x10000) (hr : rowsCk.find? (RegRow.covers · o) = some r) :
    resetWord p (0x90000 + o) = BitVec.ofNat 32 r.reset := by
  have row : rowOf p (0x90000 + o) = some r := by
    unfold rowOf
    rw [absentReg_ck p h, if_neg Bool.false_ne_true, if_pos (by omega), show (0x90000 + o) / 0x10000 = 9 by omega,
      show (0x90000 + o) % 0x10000 = o by omega]
    exact hr
  have plain : resetByNumber p (0x90000 + o) = none := by
    unfold resetByNumber
    rw [if_pos (by omega), show (0x90000 + o) / 0x10000 = 9 by omega]
    rfl
  unfold resetWord
  rw [row, plain]
  rfl

/-- The rows of the bank that holds an offset, as the first of the CK rows that covers it. -/
theorem find_rowsCk {o : Nat} {r : RegRow} {pre post : List RegRow} (e : rowsCk = pre ++ r :: post)
    (hpre : ∀ q ∈ pre, q.covers o = false) (hr : r.covers o = true) : rowsCk.find? (RegRow.covers · o) = some r :=
  List.find?_eq_some_iff_append.mpr ⟨hr, pre, post, e, fun q hq => by rw [hpre q hq]; rfl⟩

theorem resetWord_bond (p : Part) {i : Nat} (h : i < 4160) :
    resetWord p (Adr.ckBondActive i) = resetWord p (Adr.ckBondShadow i) := by
  have active : rowsCk.find? (RegRow.covers · (0x2000 + 4 * i)) = some ⟨0x2000, 4160, 4, 1, 1, 0, 0, 0, 0⟩ := by
    refine find_rowsCk (pre := rowsCk.take 4) (post := rowsCk.drop 5) rfl ?_ ?_
    · simp [rowsCk, RegRow.covers]
      omega
    · simp [RegRow.covers]
      omega
  have shadow : rowsCk.find? (RegRow.covers · (0x8000 + 4 * i)) = some ⟨0x8000, 4160, 4, 1, 1, 0, 0xFFFFFFFF, 0, 0⟩ := by
    refine find_rowsCk (pre := rowsCk.take 5) (post := rowsCk.drop 6) rfl ?_ ?_
    · simp [rowsCk, RegRow.covers]
      omega
    · simp [RegRow.covers]
      omega
  have ea : Adr.ckBondActive i = 0x90000 + (0x2000 + 4 * i) := by unfold Adr.ckBondActive; omega
  have es : Adr.ckBondShadow i = 0x90000 + (0x8000 + 4 * i) := by unfold Adr.ckBondShadow; omega
  rw [ea, es, resetWord_ck p (by omega) active, resetWord_ck p (by omega) shadow]

theorem resetWord_weight (p : Part) {ti : Nat} (h : ti < 256) :
    resetWord p (Adr.ckWeightActive ti) = resetWord p (Adr.ckWeightShadow ti) := by
  have active : rowsCk.find? (RegRow.covers · (0x1000 + 8 * ti)) = some ⟨0x1000, 256, 8, 1, 1, 0x10101010, 0, 0, 0⟩ := by
    refine find_rowsCk (pre := []) (post := rowsCk.drop 1) rfl (by simp) ?_
    simp [RegRow.covers]
    omega
  have shadow : rowsCk.find? (RegRow.covers · (0x1800 + 8 * ti)) = some ⟨0x1800, 256, 8, 1, 1, 0x10101010, 0xFFFFFFFF, 0, 0⟩ := by
    refine find_rowsCk (pre := rowsCk.take 2) (post := rowsCk.drop 3) rfl ?_ ?_
    · simp [rowsCk, RegRow.covers]
      omega
    · simp [RegRow.covers]
      omega
  have ea : Adr.ckWeightActive ti = 0x90000 + (0x1000 + 8 * ti) := by unfold Adr.ckWeightActive; omega
  have es : Adr.ckWeightShadow ti = 0x90000 + (0x1800 + 8 * ti) := by unfold Adr.ckWeightShadow; omega
  rw [ea, es, resetWord_ck p (by omega) active, resetWord_ck p (by omega) shadow]

/-! ### The banks applied -/

theorem rd_applyBanks (s : State) (a : Nat) : s.applyBanks.rd a = (filledBanks s).rd a := by rw [applyBanks_eq]; rfl

theorem rd_applyBanks_of_outside (s : State) (h : outsideActive a = true) : s.applyBanks.rd a = s.rd a :=
  (rd_applyBanks s a).trans (rd_filledBanks_of_outside s h)

theorem rd_applyBanks_bond (hs : mapSorted s.regs = true) {i : Nat} (h : i < 4160) :
    s.applyBanks.rd (Adr.ckBondActive i) = s.rd (Adr.ckBondShadow i) := by
  refine (rd_applyBanks s _).trans (rd_filledBanks_of_active hs (activeOf_eq_some.mpr (.inr ?_)) (resetWord_bond s.part h))
  simp only [Adr.ckBondActive, Adr.ckBondShadow]
  omega

theorem rd_applyBanks_weight (hs : mapSorted s.regs = true) {ti : Nat} (h : ti < 256) :
    s.applyBanks.rd (Adr.ckWeightActive ti) = s.rd (Adr.ckWeightShadow ti) := by
  refine (rd_applyBanks s _).trans (rd_filledBanks_of_active hs (activeOf_eq_some.mpr (.inl ?_)) (resetWord_weight s.part h))
  simp only [Adr.ckWeightActive, Adr.ckWeightShadow]
  omega

theorem applyBanks_devwgt (s : State) :
    s.applyBanks.course.devwgt = s.rd Adr.ckDevwgt ∧ s.applyBanks.course.devwgtH = s.rd Adr.ckDevwgtH := by
  rw [applyBanks_eq]
  exact ⟨rd_filledBanks_of_outside s (by decide), rd_filledBanks_of_outside s (by decide)⟩

/-- Settles O8: each active register takes the copy of its shadow, which is the only one under its address. -/
theorem commitTakesTheShadowBanks : Obligations.CommitTakesTheShadowBanks := by
  intro s wf
  have sorted : mapSorted s.regs = true := (Bool.and_eq_true_iff.mp wf).1
  refine ⟨fun i h => rd_applyBanks_bond sorted h, fun ti h => rd_applyBanks_weight sorted h, fun a h => ?_, applyBanks_devwgt s⟩
  refine rd_applyBanks_of_outside s ?_
  simp only [outsideActive, Bool.and_eq_true, Bool.not_eq_true', Bool.and_eq_false_iff, decide_eq_false_iff_not]
  omega

end Sys2Proof.Proofs
end

section
/-!
The commit of the bond table (R34, R35): its verdict as it becomes visible, and the request.
-/

namespace Sys2Proof.Proofs

open Sys2Proof.Machine Sys2Proof.Laws

variable {s t : State}

/-! ### The verdict -/

/-- CK_COMMIT_STS as a verdict leaves it, WR_IGNORED being what it was. -/
def verdictWord (s : State) (v : Verdict) : Nat :=
  v.cell * 2 ^ 16 + v.ti * 2 ^ 8 + bit01 (s.bit Adr.ckCommitSts 6) * 2 ^ 6 + bit01 v.tiValid * 2 ^ 5 + v.result

theorem bit01_le (b : Bool) : bit01 b ≤ 1 := by cases b <;> decide

theorem bit01_eq_one (b : Bool) : decide (bit01 b = 1) = b := by cases b <;> rfl

/-- A verdict other than APPLIED changes CK_COMMIT_STS alone. -/
theorem commitNow_refused (s : State) {v : Verdict} (h : v.result ≠ 1) :
    s.commitNow v = (s.modCourse fun c => { c with commit := none }).wr Adr.ckCommitSts (BitVec.ofNat 32 (verdictWord s v)) := by
  unfold State.commitNow
  dsimp only
  rw [if_neg h]
  rfl

theorem filledBanks_course (s : State) : (filledBanks s).course = s.course := by
  unfold filledBanks
  generalize bankCopies s.regs = l
  suffices h : ∀ r : State, (l.foldl (fun s p => s.wr p.1 p.2) r).course = r.course from h _
  induction l with
  | nil => exact fun _ => rfl
  | cons p l ih => exact fun r => ih (r.wr p.1 p.2)

theorem commitNow_commit (s : State) (v : Verdict) : (s.commitNow v).course.commit = none := by
  by_cases h : v.result = 1
  · unfold State.commitNow
    dsimp only
    rw [if_pos h, applyBanks_eq]
    rw [modCourse_course, filledBanks_course]
    rfl
  · rw [commitNow_refused s h]
    rfl

theorem commitNow_status {v : Verdict} (hr : v.result < 8) (h : v.result ≠ 1) :
    (s.commitNow v).fld Adr.ckCommitSts 3 0 = v.result ∧ (s.commitNow v).bit Adr.ckCommitSts 7 = false ∧
      (s.commitNow v).bit Adr.ckCommitSts 6 = s.bit Adr.ckCommitSts 6 ∧ RegsBut [Adr.ckCommitSts] s (s.commitNow v) := by
  have ignored := bit01_le (s.bit Adr.ckCommitSts 6)
  have valid := bit01_le v.tiValid
  have result : verdictWord s v % 2 ^ 32 % 2 ^ 4 = v.result := by unfold verdictWord; omega
  have pending : verdictWord s v / 2 ^ 7 % 2 = 0 := by unfold verdictWord; omega
  have kept : verdictWord s v / 2 ^ 6 % 2 = bit01 (s.bit Adr.ckCommitSts 6) := by unfold verdictWord; omega
  rw [commitNow_refused s h]
  refine ⟨?_, ?_, ?_, regsBut_wr _ _ _⟩
  · rw [State.fld, rd_wr_self, bits, BitVec.toNat_ofNat]
    exact result
  · rw [State.bit, rd_wr_self, BitVec.getLsbD_ofNat, Nat.testBit_eq_decide_div_mod_eq, pending]
    rfl
  · rw [State.bit, rd_wr_self, BitVec.getLsbD_ofNat, Nat.testBit_eq_decide_div_mod_eq, kept, bit01_eq_one]
    rfl

/-! ### The request -/

theorem regsBut_setBit (s : State) (a k : Nat) : RegsBut [a] s (s.setBit a k) :=
  fun _ hb => rd_setBit_of_ne s k fun e => hb (e ▸ List.mem_singleton_self _)

/-- The CK block answers a write to CK_COMMIT (R394). -/
theorem execCommitGo_of_open (hh : s.held = false) (hm : s.minimal = false) (hl : s.linkUp 0 = true) (hs : 2 ≤ s.stage) :
    exec .commitGo s = .next s.requestCommit := by
  have go : exec .commitGo s = execCommitGo s := rfl
  rw [go, execCommitGo, hh, hm, hl, decide_eq_false (by omega)]
  rfl

theorem execCommitGo_of_closed (h : s.held = true ∨ s.minimal = true ∨ s.linkUp 0 = false ∨ s.stage < 2) :
    exec .commitGo s = .next s := by
  have go : exec .commitGo s = execCommitGo s := rfl
  rw [go, execCommitGo, if_pos]
  rcases h with h | h | h | h <;> simp [h]

theorem requestCommit_of_idle (h : s.bit Adr.ckCommitSts 7 = false) : s.requestCommit =
    (s.setBit Adr.ckCommitSts 7).modCourse fun c => { c with commit := some { due := (s.setBit Adr.ckCommitSts 7).commitDue, verdict := none } } := by
  unfold State.requestCommit
  rw [h]
  rfl

theorem requestCommit_of_pending (h : s.bit Adr.ckCommitSts 7 = true) : s.requestCommit = s.setBit Adr.ckCommitSts 6 := by
  unfold State.requestCommit
  rw [h]
  rfl

/-- Settles O9: by whether the CK block answers, and whether a commit is pending. -/
theorem commitRequestsWaitForTheirBoundary : Obligations.CommitRequestsWaitForTheirBoundary := by
  refine ⟨fun s hh hm hl hs idle => ⟨_, execCommitGo_of_open hh hm hl hs, ?_⟩, fun s hh hm hl hs pending =>
    ⟨_, execCommitGo_of_open hh hm hl hs, ?_⟩, fun s => execCommitGo_of_closed⟩
  · rw [requestCommit_of_idle idle]
    exact ⟨bit_setBit_self s _ 7 (by decide), regsBut_setBit s _ 7, rfl, rfl, rfl⟩
  · rw [requestCommit_of_pending pending]
    exact ⟨bit_setBit_self s _ 6 (by decide), rfl, regsBut_setBit s _ 6⟩

end Sys2Proof.Proofs
end

section
/-!
COURSE_SYNC (R37 to R39): a follower's states, and the start of the course generator that some of them bring (R348).
-/

namespace Sys2Proof.Proofs

open Sys2Proof.Machine Sys2Proof.Laws

variable {s t : State} {a : Nat}

/-! ### Reading a register through a fold -/

theorem rd_foldl {α : Type} {f : State → α → State} (l : List α) (s : State) (hf : ∀ r, ∀ x ∈ l, (f r x).rd a = r.rd a) :
    (l.foldl f s).rd a = s.rd a := by
  induction l generalizing s with
  | nil => rfl
  | cons x l ih => exact (ih _ fun r y hy => hf r y (List.mem_cons_of_mem _ hy)).trans (hf s x List.mem_cons_self)

theorem rd_of_regs (hr : t.regs = s.regs) (hp : t.part = s.part) (a : Nat) : t.rd a = s.rd a := by
  unfold State.rd
  rw [hr, hp]

/-! ### The slices released (R348) -/

theorem rd_applyField_of_ne {q : Nat × Word} (s : State) (h : a ≠ q.1) : (s.applyField q).rd a = s.rd a := by
  unfold State.applyField
  split
  · rfl
  · exact rd_wr_of_ne _ _ h

theorem rd_applyConfig_of_hub (s : State) (h : a < 0x1000000) : (s.applyConfig true).rd a = s.rd a := by
  refine rd_foldl _ _ fun r q hq => rd_applyField_of_ne r fun e => ?_
  have := (List.mem_filter.mp hq).2
  simp only [beq_true, decide_eq_true_eq] at this
  omega

theorem rd_startArrays_of_hub (s : State) (h : a < 0x1000000) : s.startArrays.rd a = s.rd a :=
  rd_foldl _ _ fun r n _ => rd_foldl _ _ fun r k _ => rd_wr_of_ne r _ (by unfold Adr.asPart sliceAdr; omega)

theorem rd_startDiscovery_of_hub (s : State) (n : Nat) (h : a < 0x1000000) : (s.startDiscovery n).rd a = s.rd a := by
  have sts : a ≠ Adr.flSts n := by unfold Adr.flSts sliceAdr; omega
  refine (rd_putF_of_ne _ _ _ _ sts).trans ((rd_putF_of_ne _ _ _ _ sts).trans (rd_foldl _ _ fun r j _ => ?_))
  exact rd_putF_of_ne r _ _ _ (by unfold Adr.flChSts sliceAdr; omega)

theorem rd_setStage_of_ne (s : State) (k : Nat) (h : a ≠ Adr.stSts) : (s.setStage k).rd a = s.rd a := rd_putF_of_ne s _ _ _ h

/-- Of the hub's registers, the release of the slices changes ST_STS only. -/
theorem rd_releaseSlices_of_hub (s : State) (h : a < 0x1000000) (hs : a ≠ Adr.stSts) : s.releaseSlices.rd a = s.rd a := by
  refine (rd_setStage_of_ne _ _ hs).trans ((rd_foldl _ _ fun r n _ => ?_).trans ((rd_startArrays_of_hub _ h).trans ?_))
  · exact rd_startDiscovery_of_hub (r.modSlice n Slice.release) n h
  · exact rd_applyConfig_of_hub _ h

theorem fld_releaseSlices_sync (s : State) (hi lo : Nat) : s.releaseSlices.fld Adr.ckSyncSts hi lo = s.fld Adr.ckSyncSts hi lo := by
  unfold State.fld
  rw [rd_releaseSlices_of_hub s (by decide) (by decide)]

theorem bit_releaseSlices_sync (s : State) (k : Nat) : s.releaseSlices.bit Adr.ckSyncSts k = s.bit Adr.ckSyncSts k := by
  unfold State.bit
  rw [rd_releaseSlices_of_hub s (by decide) (by decide)]

/-- The course generator runs from course 0 on. -/
theorem releaseSlices_course (s : State) : s.releaseSlices.course = { s.course with running := true, count := 0 } := by
  unfold State.releaseSlices
  refine ((setStage_frame _ 3 (Frame.refl 0x20000000004 _) rfl).same .course rfl).trans ?_
  have slices : ∀ r : State, (r.sliceList.foldl (fun s n => (s.modSlice n Slice.release).startDiscovery n) r).course = r.course := fun r =>
    (Frame.foldl (F := 0x20004) _ _ (Frame.refl _ r) fun t n ht =>
      startDiscovery_frame _ n (modSlice_frame n Slice.release ht rfl (SlmSame.of fun _ => rfl)) rfl).same .course rfl
  refine (slices _).trans (((startArrays_frame _ (Frame.refl 0x4 _) rfl).same .course rfl).trans ?_)
  exact (applyConfig_frame _ true (Frame.refl 0x4 _) rfl).same .course rfl

/-! ### A follower that tracks the pulse (R38) -/

theorem fld_setSync (s : State) (k : Nat) : (s.setSync k).fld Adr.ckSyncSts 2 0 = k % 8 :=
  fld_putF_self s _ 2 0 k (by decide) (by decide)

theorem regsBut_setSync (s : State) (k : Nat) : RegsBut [Adr.ckSyncSts] s (s.setSync k) :=
  fun _ h => rd_putF_of_ne s _ _ _ fun e => h (e ▸ List.mem_singleton_self _)

/-- The phase error of a pulse, less DELAY, the shorter way round. -/
@[reducible] def syncError (s : State) (phase : Int) : Int := phaseWrap (phase - (s.fld Adr.ckSyncCtl 15 8 : Int))

theorem phaseWrap_bounds (e : Int) : -199680 ≤ phaseWrap e ∧ phaseWrap e < 199680 := by
  unfold phaseWrap bondSteps
  omega

theorem trimFor_natAbs_le {e : Int} {lim : Nat} : (trimFor e lim).natAbs ≤ lim := by
  unfold trimFor
  omega

/-- The state with PHASE_ERR and the error noted. -/
def noted (s : State) (e : Int) : State :=
  (s.putF Adr.ckSyncSts 23 16 (BitVec.ofInt 8 (max (-128) (min 127 e))).toNat).modCourse fun c => { c with phase := e }

/-- The state after a pulse at an error e: the error noted, LOST set where lock is lost, the state of CK_SYNC_STS, the errors in a row, and
the trim of that state. -/
def tracked (s : State) (e : Int) (lost : Bool) (next good : Nat) : State :=
  ((if lost then (noted s e).setBit Adr.ckSyncSts 6 else noted s e).setSync next).modCourse fun c =>
    { c with good := good, trim := trimFor e (trimLimit next) }

theorem tracked_course (s : State) (e : Int) (lost : Bool) (next good : Nat) :
    (tracked s e lost next good).course = { s.course with phase := e, good := good, trim := trimFor e (trimLimit next) } := by
  cases lost <;> rfl

theorem tracked_rd (s : State) (e : Int) (lost : Bool) (next good a : Nat) : (tracked s e lost next good).rd a =
    ((if lost then (noted s e).setBit Adr.ckSyncSts 6 else noted s e).setSync next).rd a := rfl

theorem tracked_state (s : State) (e : Int) (lost : Bool) (next good : Nat) :
    (tracked s e lost next good).fld Adr.ckSyncSts 2 0 = next % 8 := by
  rw [State.fld, tracked_rd]
  exact fld_setSync _ next

theorem tracked_lost (s : State) (e : Int) (next good : Nat) : (tracked s e true next good).bit Adr.ckSyncSts 6 = true := by
  rw [State.bit, tracked_rd]
  exact (bit_putF_of_out _ _ 2 0 next 6 (by decide) (by decide) (by decide)).trans (bit_setBit_self _ _ 6 (by decide))

theorem noted_regsBut (s : State) (e : Int) : RegsBut [Adr.ckSyncSts] s (noted s e) := fun a ha =>
  (rd_of_regs rfl rfl a).trans (regsBut_wr s Adr.ckSyncSts (setBits (s.rd Adr.ckSyncSts) 23 16 _) a ha)

theorem tracked_regsBut (s : State) (e : Int) (lost : Bool) (next good : Nat) :
    RegsBut [Adr.ckSyncSts] s (tracked s e lost next good) := by
  intro a ha
  rw [tracked_rd]
  cases lost
  · exact (regsBut_setSync _ next a ha).trans (noted_regsBut s e a ha)
  · exact (regsBut_setSync _ next a ha).trans ((regsBut_setBit _ _ 6 a ha).trans (noted_regsBut s e a ha))

/-! ### What a pulse does in each state (R38) -/

theorem follower_of_role (h : s.fld Adr.ckSyncCtl 1 0 = 2) : s.follower = true := beq_iff_eq.mpr h

theorem far_iff (e : Int) : (phaseWide < (e.natAbs : Int)) ↔ 32 < e.natAbs := by unfold phaseWide; omega

theorem near_iff (e : Int) : ((e.natAbs : Int) ≤ phaseNear) ↔ e.natAbs ≤ 16 := by unfold phaseNear; omega

theorem execSyncPulse_wait (phase : Int) (hh : s.held = false) (hr : s.fld Adr.ckSyncCtl 1 0 = 2) (hs : s.fld Adr.ckSyncSts 2 0 = 2) :
    exec (.syncPulse phase) s =
      .next ((s.setSync 4).modCourse fun c => { c with trim := 0, good := 0, phase := 0 }).releaseSlices := by
  have e : exec (.syncPulse phase) s = execSyncPulse phase s := rfl
  rw [e, execSyncPulse, hs, hh, follower_of_role hr]
  rfl

theorem execSyncPulse_locked (phase : Int) (hh : s.held = false) (hr : s.fld Adr.ckSyncCtl 1 0 = 2) (hs : s.fld Adr.ckSyncSts 2 0 = 4) :
    exec (.syncPulse phase) s = .next (tracked s (syncError s phase) (decide (32 < (syncError s phase).natAbs))
      (if 32 < (syncError s phase).natAbs then 3 else 4) 0) := by
  have e : exec (.syncPulse phase) s = execSyncPulse phase s := rfl
  rw [e, execSyncPulse, hs, hh, follower_of_role hr]
  by_cases far : 32 < (syncError s phase).natAbs
  · simp only [(far_iff _).mpr far, far, decide_true, if_true]
    rfl
  · simp only [mt (far_iff _).mp far, far, decide_false, if_false]
    rfl

theorem execSyncPulse_holdover (phase : Int) (hh : s.held = false) (hr : s.fld Adr.ckSyncCtl 1 0 = 2) (hs : s.fld Adr.ckSyncSts 2 0 = 5) :
    exec (.syncPulse phase) s = .next (tracked s (syncError s phase) false (if 32 < (syncError s phase).natAbs then 3 else 4) 0) := by
  have e : exec (.syncPulse phase) s = execSyncPulse phase s := rfl
  rw [e, execSyncPulse, hs, hh, follower_of_role hr]
  by_cases far : 32 < (syncError s phase).natAbs
  · simp only [(far_iff _).mpr far, far, decide_true, if_true]
    rfl
  · simp only [mt (far_iff _).mp far, far, decide_false, if_false]
    rfl

theorem execSyncPulse_acquire_near (phase : Int) (hh : s.held = false) (hr : s.fld Adr.ckSyncCtl 1 0 = 2) (hs : s.fld Adr.ckSyncSts 2 0 = 3)
    (near : (syncError s phase).natAbs ≤ 16) : exec (.syncPulse phase) s = .next (tracked s (syncError s phase) false
      (if 3 ≤ s.course.good then 4 else 3) (if 3 ≤ s.course.good then 0 else s.course.good + 1)) := by
  have e : exec (.syncPulse phase) s = execSyncPulse phase s := rfl
  rw [e, execSyncPulse, hs, hh, follower_of_role hr]
  simp only [(near_iff _).mpr near, decide_true]
  by_cases full : 3 ≤ s.course.good
  · have four : 4 ≤ s.course.good + 1 := by omega
    simp [tracked, noted, full, four]
  · have four : ¬4 ≤ s.course.good + 1 := by omega
    simp [tracked, noted, full, four]

theorem execSyncPulse_acquire_far (phase : Int) (hh : s.held = false) (hr : s.fld Adr.ckSyncCtl 1 0 = 2) (hs : s.fld Adr.ckSyncSts 2 0 = 3)
    (far : ¬(syncError s phase).natAbs ≤ 16) : exec (.syncPulse phase) s = .next (tracked s (syncError s phase) false 3 0) := by
  have e : exec (.syncPulse phase) s = execSyncPulse phase s := rfl
  rw [e, execSyncPulse, hs, hh, follower_of_role hr]
  simp only [mt (near_iff _).mp far, decide_false]
  rfl

/-! ### What a missing pulse does (R38), and a second master (R39) -/

theorem execSyncPulseMissing_tracking (hh : s.held = false) (hr : s.fld Adr.ckSyncCtl 1 0 = 2)
    (hs : s.fld Adr.ckSyncSts 2 0 = 3 ∨ s.fld Adr.ckSyncSts 2 0 = 4) :
    exec .syncPulseMissing s = .next ((s.setSync 5).modCourse fun c => { c with good := 0 }) := by
  have e : exec .syncPulseMissing s = execSyncPulseMissing s := rfl
  rw [e, execSyncPulseMissing, hh, follower_of_role hr]
  exact if_pos hs

theorem execSyncPulseMissing_holdover (hh : s.held = false) (hr : s.fld Adr.ckSyncCtl 1 0 = 2) (hs : s.fld Adr.ckSyncSts 2 0 = 5) :
    exec .syncPulseMissing s = .next ((s.setSync 6).modCourse fun c => { c with trim := 0, good := 0 }) := by
  have e : exec .syncPulseMissing s = execSyncPulseMissing s := rfl
  rw [e, execSyncPulseMissing, hh, follower_of_role hr, hs]
  rfl

theorem execSyncWaitTimeout_waiting (hh : s.held = false) (hr : s.fld Adr.ckSyncCtl 1 0 = 2) (hs : s.fld Adr.ckSyncSts 2 0 = 2) :
    exec .syncWaitTimeout s = .next ((s.setSync 6).setBit Adr.ckSyncSts 6).releaseSlices := by
  have e : exec .syncWaitTimeout s = execSyncWaitTimeout s := rfl
  rw [e, execSyncWaitTimeout, hh, follower_of_role hr, hs]
  rfl

theorem execSyncConflict_master (hh : s.held = false) (hs : s.fld Adr.ckSyncSts 2 0 = 1) : exec .syncConflict s =
    .next ((State.setSync { s with pins := { s.pins with courseSync := false } } 6).setBit Adr.ckSyncSts 7) := by
  have e : exec .syncConflict s = execSyncConflict s := rfl
  rw [e, execSyncConflict, hh, hs]
  rfl

/-- STATE of CK_SYNC_STS set and a flag above it raised: both read so. -/
theorem setSync_flag (s : State) (k : Nat) {j : Nat} (h3 : 3 ≤ j) (h32 : j < 32) :
    ((s.setSync k).setBit Adr.ckSyncSts j).fld Adr.ckSyncSts 2 0 = k % 8 ∧ ((s.setSync k).setBit Adr.ckSyncSts j).bit Adr.ckSyncSts j = true :=
  ⟨(fld_setBit_of_out _ _ j 2 0 (by decide) (by omega)).trans (fld_setSync s k), bit_setBit_self _ _ j h32⟩

/-- Settles O10, by the states of a follower. -/
theorem followersTrackThePulse : Obligations.FollowersTrackThePulse := by
  refine ⟨fun phase s hh hr hs => ⟨_, execSyncPulse_wait phase hh hr hs, ?_⟩, fun phase s hh hr hs =>
    ⟨_, execSyncPulse_locked phase hh hr hs, ?_⟩, fun phase s hh hr hs => ?_, fun phase s hh hr hs =>
    ⟨_, execSyncPulse_holdover phase hh hr hs, ?_⟩, fun s hh hr hs => ⟨_, execSyncPulseMissing_tracking hh hr hs, ?_⟩,
    fun s hh hr hs => ⟨_, execSyncPulseMissing_holdover hh hr hs, ?_⟩, fun s hh hr hs => ⟨_, execSyncWaitTimeout_waiting hh hr hs, ?_⟩⟩
  · dsimp only
    rw [fld_releaseSlices_sync, releaseSlices_course]
    exact ⟨fld_setSync s 4, rfl, rfl⟩
  · obtain ⟨low, high⟩ := phaseWrap_bounds (phase - (s.fld Adr.ckSyncCtl 15 8 : Int))
    dsimp only
    rw [tracked_state, tracked_course]
    refine ⟨low, high, rfl, rfl, tracked_regsBut _ _ _ _ _, ?_⟩
    by_cases far : 32 < (syncError s phase).natAbs
    · rw [if_pos far, if_pos far, decide_eq_true far]
      exact ⟨rfl, tracked_lost _ _ 3 _, trimFor_natAbs_le (lim := 8)⟩
    · rw [if_neg far, if_neg far]
      exact ⟨rfl, trimFor_natAbs_le (lim := 1)⟩
  · by_cases near : (syncError s phase).natAbs ≤ 16
    · refine ⟨_, execSyncPulse_acquire_near phase hh hr hs near, ?_⟩
      dsimp only
      rw [if_pos near, tracked_state, tracked_course]
      exact ⟨by split <;> rfl, fun few => if_neg (by omega)⟩
    · refine ⟨_, execSyncPulse_acquire_far phase hh hr hs near, ?_⟩
      dsimp only
      rw [if_neg near, tracked_state, tracked_course]
      exact ⟨rfl, rfl⟩
  · dsimp only
    rw [tracked_state]
    split <;> rfl
  · exact ⟨fld_setSync s 5, rfl, regsBut_setSync s 5⟩
  · exact ⟨fld_setSync s 6, rfl, regsBut_setSync s 6⟩
  · obtain ⟨state, lost⟩ := setSync_flag s 6 (j := 6) (by decide) (by decide)
    rw [fld_releaseSlices_sync, bit_releaseSlices_sync, releaseSlices_course]
    exact ⟨state, lost, rfl, rfl⟩

/-- Settles O11. -/
theorem aSecondMasterLeavesTheLine : Obligations.ASecondMasterLeavesTheLine := by
  intro s hh hs
  obtain ⟨state, conflict⟩ := setSync_flag { s with pins := { s.pins with courseSync := false } } 6 (j := 7) (by decide) (by decide)
  refine ⟨_, execSyncConflict_master hh hs, rfl, conflict, state, fun a ha => ?_, rfl⟩
  exact (regsBut_setBit _ _ 7 a ha).trans (regsBut_setSync _ 6 a ha)

end Sys2Proof.Proofs
end

section
/-!
Course boundaries and bond period boundaries (R20 to R22, R34): what they do to the course count.
-/

namespace Sys2Proof.Proofs

open Sys2Proof.Machine Sys2Proof.Laws

variable {F : Nat} {s t u : State}

/-! ### The count through a boundary -/

/-- The course count, and the boundary that was marked as done, are those of an earlier state. -/
structure SameCount (s t : State) : Prop where
  count : t.course.count = s.course.count
  bondAt : t.course.bondAt = s.course.bondAt

theorem SameCount.refl (s : State) : SameCount s s := ⟨rfl, rfl⟩

theorem SameCount.trans (h : SameCount s t) (g : SameCount t u) : SameCount s u :=
  ⟨g.count.trans h.count, g.bondAt.trans h.bondAt⟩

theorem sameCount_of_frame (h : Frame F s t) (m : F.testBit 5 = false) : SameCount s t := by
  have e : t.course = s.course := h.same .course m
  exact ⟨by rw [e], by rw [e]⟩

theorem sameCount_foldl {α : Type} (f : State → α → State) (hf : ∀ r a, SameCount r (f r a)) (l : List α) (s : State) :
    SameCount s (l.foldl f s) := by
  induction l generalizing s with
  | nil => exact .refl s
  | cons a l ih => exact (hf s a).trans (ih _)

theorem sameCount_checkCommit (s : State) : SameCount s s.checkCommit := ⟨rfl, rfl⟩

theorem sameCount_turnCuts (s : State) : SameCount s s.turnCuts := ⟨rfl, rfl⟩

theorem sameCount_turnTrim (s : State) : SameCount s s.turnTrim := ⟨rfl, rfl⟩

theorem sameCount_turnHubSeed (s : State) : SameCount s s.turnHubSeed := by
  unfold State.turnHubSeed
  split
  · exact .refl s
  · exact ⟨rfl, rfl⟩

theorem sameCount_hdTurn (s : State) : SameCount s s.hdTurn := by
  have placed : ∀ (l : List Transfer) (r : State), SameCount r (l.foldl (fun s t => s.hdPlace t) r) := fun l r =>
    sameCount_foldl _ (fun r t => sameCount_of_frame (hdPlace_frame r t (Frame.refl 0x700000 r) rfl) rfl) l r
  obtain ⟨count, bondAt⟩ := placed (((List.range 4).filterMap fun c => (s.hdCh c).cur) ++ s.parks.map Park.tr)
    { s with parks := [], hd := (s.hd.take 4).map HdCh.ended ++ s.hd.drop 4 }
  exact ⟨count, bondAt⟩

/-- The TASK clusters at a boundary that divides the slices. -/
def clustersBoundary (s : State) : State :=
  s.sliceList.foldl (fun s n => if s.sliceUp n then (List.range 4).foldl (fun s c => s.clusterBoundary n c) s else s) s

/-- The search arrays at that boundary. -/
def arraysCourse (s : State) : State :=
  s.sliceList.foldl (fun s n => if s.sliceUp n then (s.arrayCourse n 0).arrayCourse n 1 else s) s

theorem sameCount_clustersBoundary (s : State) : SameCount s (clustersBoundary s) := by
  refine sameCount_foldl _ (fun r n => ?_) _ s
  split
  · exact sameCount_foldl _ (fun r c => sameCount_of_frame (clusterBoundary_frame r n c (Frame.refl 0x8000000020204 r) rfl) rfl) _ r
  · exact .refl r

theorem sameCount_arraysCourse (s : State) : SameCount s (arraysCourse s) := by
  have array : ∀ (r : State) (n a : Nat), SameCount r (r.arrayCourse n a) := fun r n a =>
    sameCount_of_frame (arrayCourse_frame r n a (Frame.refl 0x20000000020004 r) rfl) rfl
  refine sameCount_foldl _ (fun r n => ?_) _ s
  split
  · exact (array r n 0).trans (array _ n 1)
  · exact .refl r

theorem sameCount_dividedWork (s : State) : SameCount s s.dividedWork := by
  have shape : s.dividedWork = (arraysCourse (clustersBoundary s)).hdTurn.hdAccount := rfl
  rw [shape]
  exact (sameCount_clustersBoundary s).trans ((sameCount_arraysCourse _).trans ((sameCount_hdTurn _).trans
    (sameCount_of_frame (hdAccount_frame _ (Frame.refl 0x100004 _) rfl) rfl)))

theorem sameCount_sealedIntervals (s : State) : SameCount s s.sealedIntervals :=
  sameCount_of_frame (sealedIntervals_frame s (Frame.refl 0x100000000004 s) rfl) rfl

/-! ### A course boundary (R20, R22) -/

/-- The work of the course that ends, before the count rises. -/
def endCourse (s : State) : State :=
  let s := s.sliceList.foldl State.flashTurn s
  let s := s.sliceList.foldl (fun s n => (s.dramCourse n 0).dramCourse n 1) s
  let s := s.sliceList.foldl State.runPrograms s
  (s.turnTrim).mapSlices (Slice.ageItems s.courseLen)

/-- The fences that waited for the course that begins, and the units that are late in it. -/
def turnFences (late : List UnitId) (s : State) : State :=
  let s : State := { s with pins := { s.pins with courseSync := false } }
  late.foldl State.lateUnit (s.fenceSoon.foldl (fun s p => s.faultNow p.1 p.2) s)

/-- The tenants and the commands that waited for the course that begins. -/
def turnTenants (s : State) : State :=
  let s := s.tenants.foldl State.turnTenant s
  let s := s.mapInflight fun x => { x with conds := x.conds.filter fun c =>
    match c with
    | .course n => decide (s.now < n)
    | _ => true }
  s.flrDiscard

/-- The rest of a course boundary: the bond check, the slices, and what the bond table divides. -/
def shareCourse (s : State) : State :=
  let s := if s.now % 64 = 63 ∧ s.course.commit.any (fun k => k.due == s.now + 1) then s.checkCommit else s
  let s := s.replenish
  let s := ((s.sliceList.foldl State.sliceBoundary s).turnHubSeed).turnCuts
  if s.now % 64 = 0 then s else s.sealedIntervals.dividedWork

theorem execCourseBoundary_running (late : List UnitId) (hh : s.held = false) (hr : s.course.running = true) :
    exec (.courseBoundary late) s = .next
      (shareCourse (turnTenants (turnFences late ((endCourse s).modCourse fun c => { c with count := c.count + 1, refreshed := 0 })))) := by
  have e : exec (.courseBoundary late) s = execCourseBoundary late s := rfl
  rw [e, execCourseBoundary, hh, hr]
  rfl

theorem execCourseBoundary_stopped (late : List UnitId) (hr : s.course.running = false) :
    exec (.courseBoundary late) s = .next s := by
  have e : exec (.courseBoundary late) s = execCourseBoundary late s := rfl
  rw [e, execCourseBoundary, hr, Bool.not_false, Bool.or_true]
  rfl

theorem sameCount_endCourse (s : State) : SameCount s (endCourse s) := by
  have flash : ∀ r : State, SameCount r (r.sliceList.foldl State.flashTurn r) := fun r => sameCount_foldl _
    (fun r n => sameCount_of_frame (flashTurn_frame r n (Frame.refl 0x8000000020200 r) rfl) rfl) _ r
  have channel : ∀ (r : State) (n c : Nat), SameCount r (r.dramCourse n c) := fun r n c =>
    sameCount_of_frame (dramCourse_frame r n c (Frame.refl 0x20004 r) rfl) rfl
  have dram : ∀ r : State, SameCount r (r.sliceList.foldl (fun s n => (s.dramCourse n 0).dramCourse n 1) r) := fun r => sameCount_foldl _
    (fun r n => (channel r n 0).trans (channel _ n 1)) _ r
  have programs : ∀ r : State, SameCount r (r.sliceList.foldl State.runPrograms r) := fun r => sameCount_foldl _
    (fun r n => sameCount_of_frame (runPrograms_frame r n (Frame.refl 0x28220001061204 r) rfl) rfl) _ r
  exact (flash s).trans ((dram _).trans ((programs _).trans ((sameCount_turnTrim _).trans ⟨rfl, rfl⟩)))

theorem sameCount_turnFences (late : List UnitId) (s : State) : SameCount s (turnFences late s) := by
  have fences : ∀ (l : List (UnitId × FenceCause)) (r : State), SameCount r (l.foldl (fun s p => s.faultNow p.1 p.2) r) := fun l r =>
    sameCount_foldl _ (fun r p => sameCount_of_frame (faultNow_frame r p.1 p.2 (Frame.refl 0x28f60001060386 r) rfl) rfl) l r
  have lates : ∀ r : State, SameCount r (late.foldl State.lateUnit r) := fun r =>
    sameCount_foldl _ (fun r v => sameCount_of_frame (lateUnit_frame r v (Frame.refl 0x800000000004 r) rfl) rfl) late r
  have start : SameCount s { s with pins := { s.pins with courseSync := false } } := ⟨rfl, rfl⟩
  exact start.trans ((fences s.fenceSoon _).trans (lates _))

theorem sameCount_turnTenants (s : State) : SameCount s (turnTenants s) := by
  have tenants : SameCount s (s.tenants.foldl State.turnTenant s) :=
    sameCount_foldl _ (fun r v => sameCount_of_frame (turnTenant_frame r v (Frame.refl 0x1100 r) rfl) rfl) _ s
  exact tenants.trans (sameCount_of_frame (flrDiscard_frame _ (mapInflight_frame _ _ (Frame.refl 0x700204 _) rfl) rfl) rfl)

theorem sameCount_shareCourse (s : State) : SameCount s (shareCourse s) := by
  have check : SameCount s (if s.now % 64 = 63 ∧ s.course.commit.any (fun k => k.due == s.now + 1) then s.checkCommit else s) := by
    split
    · exact sameCount_checkCommit s
    · exact .refl s
  have wear : ∀ r : State, SameCount r r.replenish := fun r => sameCount_of_frame (replenish_frame r (Frame.refl 0x1004 r) rfl) rfl
  have slices : ∀ r : State, SameCount r (r.sliceList.foldl State.sliceBoundary r) := fun r => sameCount_foldl _
    (fun r n => sameCount_of_frame (sliceBoundary_frame r n (Frame.refl 0x8820000020304 r) rfl) rfl) _ r
  have divided : ∀ r : State, SameCount r (if r.now % 64 = 0 then r else r.sealedIntervals.dividedWork) := fun r => by
    split
    · exact .refl r
    · exact (sameCount_sealedIntervals r).trans (sameCount_dividedWork _)
  exact check.trans ((wear _).trans ((slices _).trans ((sameCount_turnHubSeed _).trans ((sameCount_turnCuts _).trans (divided _)))))

theorem courseBoundary_counts (late : List UnitId) (hh : s.held = false) (hr : s.course.running = true) :
    Completes (.courseBoundary late) s fun t => t.course.count = s.course.count + 1 ∧ t.course.bondAt = s.course.bondAt := by
  obtain ⟨count, bondAt⟩ := sameCount_endCourse s
  obtain ⟨count', bondAt'⟩ := ((sameCount_turnFences late
    ((endCourse s).modCourse fun c => { c with count := c.count + 1, refreshed := 0 })).trans (sameCount_turnTenants _)).trans
      (sameCount_shareCourse _)
  exact ⟨_, execCourseBoundary_running late hh hr, count'.trans (congrArg (· + 1) count), bondAt'.trans bondAt⟩

/-! ### A bond period boundary (R21, R34) -/

/-- The boundary marked as done for its course, and what is sampled there. -/
def openPeriod (s : State) : State :=
  let s := (s.modCourse fun c => { c with bondAt := c.count }).turnSync
  { s with pins := { s.pins with courseSync := s.fld Adr.ckSyncSts 2 0 == 1 } }

/-- The resources of removed tenants are returned (R79). -/
def noneLeaving (s : State) : State := { s with leaving := [] }

/-- The commit and the divisions take effect, and what waited for them. -/
def movePeriod (s : State) : State :=
  let old := s.bondCells
  let s := noneLeaving s.boundaryActs
  let s := s.mapSlices fun x => { x with bondWait := false }
  (((s.slotsMoved old).turnPower.testReturn).testFence).hdApplyCtl

/-- The paths and the figures of the slices at the period that begins. -/
def figuresPeriod (s : State) : State := s.sliceList.foldl State.takeWa (s.sliceList.foldl State.evalPaths s)

/-- The work of the period that begins, before what the bond table divides. -/
def workPeriod (hot : List Nat) (s : State) : State := (((figuresPeriod s).refreshModes hot).openRetrains).sealedIntervals

theorem execBondPeriodBoundary_due (hot : List Nat) (hh : s.held = false) (hr : s.course.running = true) (hn : s.now % 64 = 0)
    (hb : s.course.bondAt ≠ s.now) :
    exec (.bondPeriodBoundary hot) s = .next (workPeriod hot (movePeriod (openPeriod s)).restoreTenants).dividedWork := by
  have e : exec (.bondPeriodBoundary hot) s = execBondPeriodBoundary hot s := rfl
  have new : (s.course.bondAt == s.now) = false := beq_false_of_ne hb
  rw [e, execBondPeriodBoundary, hh, hr, hn, new]
  rfl

theorem execBondPeriodBoundary_done (hot : List Nat) (hb : s.course.bondAt = s.now) : exec (.bondPeriodBoundary hot) s = .next s := by
  have e : exec (.bondPeriodBoundary hot) s = execBondPeriodBoundary hot s := rfl
  have done : (s.course.bondAt == s.now) = true := beq_iff_eq.mpr hb
  rw [e, execBondPeriodBoundary, done, Bool.or_true]
  rfl

theorem sameCount_turnSync (s : State) : SameCount s s.turnSync := by
  unfold State.turnSync
  split
  · exact .refl s
  · dsimp only
    split_ifs <;> exact ⟨rfl, rfl⟩

theorem openPeriod_course (s : State) : (openPeriod s).course.bondAt = s.course.count ∧ (openPeriod s).course.count = s.course.count := by
  obtain ⟨count, bondAt⟩ := sameCount_turnSync (s.modCourse fun c => { c with bondAt := c.count })
  exact ⟨bondAt, count⟩

theorem sameCount_applyBanks (s : State) : SameCount s s.applyBanks := by
  constructor <;> rw [applyBanks_eq, modCourse_course, filledBanks_course]

theorem sameCount_commitNow (s : State) (v : Verdict) : SameCount s (s.commitNow v) := by
  by_cases h : v.result = 1
  · unfold State.commitNow
    dsimp only
    rw [if_pos h]
    obtain ⟨count, bondAt⟩ := sameCount_applyBanks
      ((s.modCourse fun c => { c with commit := none }).wr Adr.ckCommitSts (BitVec.ofNat 32 (verdictWord s v)))
    exact ⟨count, bondAt⟩
  · rw [commitNow_refused s h]
    exact ⟨rfl, rfl⟩

theorem sameCount_boundaryActs (s : State) : SameCount s s.boundaryActs := by
  have acts : ∀ (l : List Deferred) (r : State) (p : Bool), SameCount r (l.foldl (fun s d => s.settle d p) r) := fun l r p =>
    sameCount_foldl _ (fun r d => sameCount_of_frame (settle_frame r d p (Frame.refl 0x20000035a04 r) rfl) rfl) l r
  unfold State.boundaryActs
  refine SameCount.trans ?_ (acts _ _ _)
  split
  · exact .refl s
  · split
    · exact .refl s
    · exact (sameCount_commitNow s _).trans (acts _ _ _)

/-- What `movePeriod` does after the commit and the divisions leaves the count, the leaving tenants and the restore alone. -/
theorem movePeriod_frame (s : State) : ∃ r, SameCount s r ∧ r.leaving = [] ∧ Frame 0x22340001160204 r (movePeriod s) := by
  obtain ⟨count, bondAt⟩ := sameCount_boundaryActs s
  refine ⟨noneLeaving s.boundaryActs, ⟨count, bondAt⟩, rfl, ?_⟩
  have waits := mapSlices_frame (fun x => { x with bondWait := false })
    (Frame.refl 0x22340001160204 (noneLeaving s.boundaryActs)) rfl (SlmSame.of fun _ => rfl)
  exact hdApplyCtl_frame _ (testFence_frame _ (testReturn_frame _ (turnPower_frame _ (slotsMoved_frame _ _ waits rfl) rfl) rfl) rfl) rfl

theorem restoreTenants_restore (s : State) : s.restoreTenants.start.restore = false := by
  unfold State.restoreTenants
  split
  next h => exact Bool.not_eq_true' _ |>.mp h
  dsimp only
  split
  · rfl
  · exact congrArg Start.restore ((evalReady_frame _ (evalWear_frame _ (Frame.refl 0x1104 _) rfl) rfl).same .start rfl)

theorem figuresPeriod_frame (s : State) : Frame 0x8100000020004 s (figuresPeriod s) := by
  have paths : Frame 0x8100000020004 s (s.sliceList.foldl State.evalPaths s) :=
    Frame.foldl _ s (Frame.refl _ s) fun _ n h => evalPaths_frame _ n h rfl
  exact Frame.foldl s.sliceList _ paths fun r n h => takeWa_frame r n h rfl

theorem workPeriod_frame (hot : List Nat) (s : State) : Frame 0x8100000020004 s (workPeriod hot s) :=
  sealedIntervals_frame _ (openRetrains_frame _ (refreshModes_frame _ hot (figuresPeriod_frame s) rfl) rfl) rfl

theorem bondPeriodBoundary_marks (hot : List Nat) (hh : s.held = false) (hr : s.course.running = true) (hn : s.now % 64 = 0)
    (hb : s.course.bondAt ≠ s.now) :
    Completes (.bondPeriodBoundary hot) s fun t => t.course.bondAt = s.now ∧ t.course.count = s.course.count ∧ t.leaving = [] ∧
      t.start.restore = false := by
  refine ⟨_, execBondPeriodBoundary_due hot hh hr hn hb, ?_⟩
  obtain ⟨openBond, openCount⟩ := openPeriod_course s
  obtain ⟨r, acted, leaving, moved⟩ := movePeriod_frame (openPeriod s)
  have restored := restoreTenants_frame (movePeriod (openPeriod s)) (Frame.refl 0x80000001904 _) rfl
  have worked := workPeriod_frame hot (movePeriod (openPeriod s)).restoreTenants
  have divided := dividedWork_frame (workPeriod hot (movePeriod (openPeriod s)).restoreTenants) (Frame.refl 0x28000000720224 _) rfl
  obtain ⟨count, bondAt⟩ := acted.trans ((sameCount_of_frame moved rfl).trans ((sameCount_of_frame restored rfl).trans
    ((sameCount_of_frame worked rfl).trans (sameCount_dividedWork _))))
  refine ⟨bondAt.trans openBond, count.trans openCount, ?_, ?_⟩
  · have same : (workPeriod hot (movePeriod (openPeriod s)).restoreTenants).leaving = r.leaving :=
      (worked.same .leaving rfl).trans ((restored.same .leaving rfl).trans (moved.same .leaving rfl))
    exact (divided.same .leaving rfl).trans (same.trans leaving)
  · have same : (workPeriod hot (movePeriod (openPeriod s)).restoreTenants).start = (movePeriod (openPeriod s)).restoreTenants.start :=
      worked.same .start rfl
    rw [divided.same .start rfl, same]
    exact restoreTenants_restore _

/-- Settles O7: the count rises once, between the course that ends and the one that begins. -/
theorem courseAndBondBoundariesCountAndCommit : Obligations.CourseAndBondBoundariesCountAndCommit :=
  ⟨fun late _ hh hr => courseBoundary_counts late hh hr, fun late _ hr => execCourseBoundary_stopped late hr,
    fun hot _ hh hr hn hb => bondPeriodBoundary_marks hot hh hr hn hb, fun hot _ hb => execBondPeriodBoundary_done hot hb,
    fun v s _ _ hr => ⟨commitNow_commit s v, commitNow_status hr⟩⟩

end Sys2Proof.Proofs
end

section
/-!
Operands, delay entries and budgets of the task schedulers (R24, R25, R226, R227, R231, R235).
-/

namespace Sys2Proof.Proofs

open Sys2Proof.Machine Sys2Proof.Laws

variable {s t : State} {n c w ix : Nat} {i : WorkItem}

/-! ### A scheduler that exists -/

/-- The slice and its scheduler exist. -/
structure HasCluster (s : State) (n c : Nat) : Prop where
  slice : n < s.slices.length
  cluster : c < (s.slice n).clusters.length

/-- A slot is filled only in a scheduler that exists. -/
theorem hasCluster_of_item (h : (s.cluster n c).item w = some i) : HasCluster s n c := by
  have filled : s.cluster n c ≠ State.clusterEmpty := fun e => by
    rw [e] at h
    exact Option.some_ne_none i h.symm
  constructor
  · by_contra hn
    have off : s.slice n = State.sliceReset := by rw [State.slice, List.getElem?_eq_none (by omega)]; rfl
    refine filled ?_
    rw [State.cluster, off]
    rcases c with _ | _ | _ | _ | c <;> rfl
  · by_contra hc
    refine filled ?_
    rw [State.cluster, List.getElem?_eq_none (by omega)]
    rfl

theorem cluster_modCluster (h : HasCluster s n c) (f : Cluster → Cluster) : (s.modCluster n c f).cluster n c = f (s.cluster n c) := by
  obtain ⟨hn, hc⟩ := h
  rw [State.cluster, State.cluster, State.modCluster, slice_modSlice_self _ hn]
  simp only [modAt_get, if_true, List.getElem?_eq_getElem hc, Option.map_some, Option.getD_some]

theorem cluster_congr (h : t.slices = s.slices) : t.cluster n c = s.cluster n c := by
  rw [State.cluster, State.cluster, slice_congr h]

theorem item_put (k : Cluster) (i : WorkItem) : (k.put i).item i.wslot = some i := by
  rw [Cluster.item, Cluster.put, mapGet_mapInsert, if_pos rfl]

/-- The scheduler after a change of an item that it holds. -/
theorem cluster_modItem (h : (s.cluster n c).item w = some i) (f : WorkItem → WorkItem) :
    (s.modItem n c w f).cluster n c = (s.cluster n c).put { f i with wslot := w } := by
  rw [State.modItem, cluster_modCluster (hasCluster_of_item h), h]

theorem item_modItem (h : (s.cluster n c).item w = some i) (f : WorkItem → WorkItem) :
    ((s.modItem n c w f).cluster n c).item w = some { f i with wslot := w } := by
  rw [cluster_modItem h]
  exact item_put _ { f i with wslot := w }

/-! ### Operands (R226, R227) -/

theorem stray_bit (s : State) (n : Nat) : (s.stray n).bit (Adr.tqEvt n) 1 = true := bit_setBit_self _ _ _ (by decide)

theorem onlyChanges_stray (s : State) (n : Nat) : OnlyChanges [.regs] s (s.stray n) :=
  onlyChanges_of_frame (stray_frame s n (Frame.refl (partMask [.regs]) s) rfl)

/-- An item with an operand at an index that was empty. -/
@[reducible] def filled (i : WorkItem) (ix : Nat) (op : Operand) : WorkItem :=
  { i with operands := mapInsert i.operands ix op, have4 := i.have4 ||| BitVec.ofNat 4 (2 ^ ix), armed := i.armed.filter (· != ix) }

theorem deliver_of_open (op : Operand) (h : (s.cluster n c).item w = some i) (hx : ix < 4) (he : i.have4.getLsbD ix = false) :
    s.deliver n c w ix op = s.modCluster n c fun k => (k.put (filled i ix op)).disarm w ix := by
  rw [State.deliver, h]
  dsimp only
  rw [if_neg (by simp [he]; omega)]

theorem deliver_of_taken (op : Operand) (h : (s.cluster n c).item w = some i) (hx : 4 ≤ ix ∨ i.have4.getLsbD ix = true) :
    s.deliver n c w ix op = s.stray n := by
  rw [State.deliver, h]
  dsimp only
  rw [if_pos hx]

/-- An operand that is no grant and meets a FREE slot. -/
theorem deliver_of_free (op : Operand) (h : (s.cluster n c).item w = none) (h7 : op.kind ≠ 7) (h8 : op.kind ≠ 8) :
    s.deliver n c w ix op = s.stray n := by
  rw [State.deliver, h]
  dsimp only
  rw [if_neg h7, if_neg h8]

/-- The scheduler after an operand filled its index. -/
theorem cluster_deliver (op : Operand) (h : (s.cluster n c).item w = some i) (hx : ix < 4) (he : i.have4.getLsbD ix = false) :
    (s.deliver n c w ix op).cluster n c = ((s.cluster n c).put (filled i ix op)).disarm w ix := by
  rw [deliver_of_open op h hx he, cluster_modCluster (hasCluster_of_item h)]

theorem execOperandArrival_up (op : Operand) (hu : s.sliceUp n = true) (hc : c < 4) :
    exec (.operandArrival n c w ix op) s = .next (s.deliver n c w ix op) := by
  have e : exec (.operandArrival n c w ix op) s = execOperandArrival n c w ix op s := rfl
  rw [e, execOperandArrival, hu, decide_eq_false (by omega)]
  rfl

theorem operandArrival_strays {op : Operand} (hu : s.sliceUp n = true) (hc : c < 4) (hd : s.deliver n c w ix op = s.stray n) :
    Completes (.operandArrival n c w ix op) s fun t =>
      t.bit (Adr.tqEvt n) 1 = true ∧ t.cluster n c = s.cluster n c ∧ OnlyChanges [.regs] s t :=
  ⟨_, (execOperandArrival_up op hu hc).trans (congrArg _ hd), stray_bit s n, cluster_congr rfl, onlyChanges_stray s n⟩

theorem operandArrival_fills (op : Operand) (hu : s.sliceUp n = true) (hc : c < 4) (h : (s.cluster n c).item w = some i)
    (hw : i.wslot = w) (hx : ix < 4) (he : i.have4.getLsbD ix = false) :
    Completes (.operandArrival n c w ix op) s fun t => OnlyChanges [.slices] s t ∧
      (t.cluster n c).item w = some (filled i ix op) := by
  refine ⟨_, execOperandArrival_up op hu hc, ?_, ?_⟩
  · rw [deliver_of_open op h hx he]
    exact onlyChanges_of_frame (modCluster_frame s n c _ (Frame.refl (partMask [.slices]) s) rfl)
  · rw [cluster_deliver op h hx he, ← hw]
    exact item_put _ (filled i ix op)

/-! ### Delay entries (R235) -/

theorem execDelayEntryDue_early (h : ∀ d ∈ (s.cluster n c).near ++ (s.cluster n c).far, d.wslot = w → d.index = ix → s.now < d.due) :
    exec (.delayEntryDue n c w ix) s = .next s := by
  have e : exec (.delayEntryDue n c w ix) s = execDelayEntryDue n c w ix s := rfl
  rw [e, execDelayEntryDue]
  dsimp only
  rw [if_neg]
  simp only [List.any_eq_true, Bool.and_eq_true, beq_iff_eq, decide_eq_true_eq, not_exists, not_and]
  intro d hd hdw hdx
  have := h d hd hdw.1 hdw.2
  omega

/-- The state with the timers of an index cancelled, and its item no longer armed there. -/
def disarmed (s : State) (n c w ix : Nat) : State :=
  (s.modCluster n c fun k => k.disarm w ix).modItem n c w fun i => { i with armed := i.armed.filter (· != ix) }

theorem execDelayEntryDue_due {d : Delay} (hd : d ∈ (s.cluster n c).near ++ (s.cluster n c).far) (hw : d.wslot = w) (hx : d.index = ix)
    (ht : d.due ≤ s.now) :
    exec (.delayEntryDue n c w ix) s =
      .next ((disarmed s n c w ix).deliver n c w ix (opOf 6 (BitVec.ofNat 64 s.now) 0 0 0)) := by
  have e : exec (.delayEntryDue n c w ix) s = execDelayEntryDue n c w ix s := rfl
  have due : ((s.cluster n c).near ++ (s.cluster n c).far).any
      (fun d => d.wslot == w && d.index == ix && decide (d.due ≤ s.now)) = true :=
    List.any_eq_true.mpr ⟨d, hd, by simp [hw, hx, ht]⟩
  rw [e, execDelayEntryDue]
  dsimp only
  rw [if_pos due]
  rfl

/-- No timer of a disarmed index is left. -/
theorem not_mem_disarm {k : Cluster} {d : Delay} (hw : d.wslot = w) (hx : d.index = ix) :
    d ∉ (k.disarm w ix).near ++ (k.disarm w ix).far := by
  simp [Cluster.disarm, hw, hx]

theorem delayEntryDue_fires {d : Delay} (hd : d ∈ (s.cluster n c).near ++ (s.cluster n c).far) (hdw : d.wslot = w) (hdx : d.index = ix)
    (ht : d.due ≤ s.now) (h : (s.cluster n c).item w = some i) (hx : ix < 4) (he : i.have4.getLsbD ix = false) :
    Completes (.delayEntryDue n c w ix) s fun t => d ∉ (t.cluster n c).near ++ (t.cluster n c).far ∧
      ∃ j, (t.cluster n c).item w = some j ∧ j.have4 = i.have4 ||| BitVec.ofNat 4 (2 ^ ix) ∧
        mapGet j.operands ix = some (opOf 6 (BitVec.ofNat 64 s.now) 0 0 0) ∧ j.state = i.state := by
  have held : ((s.modCluster n c fun k => k.disarm w ix).cluster n c).item w = some i := by
    rw [cluster_modCluster (hasCluster_of_item h)]
    exact h
  have item : ((disarmed s n c w ix).cluster n c).item w = some { i with armed := i.armed.filter (· != ix), wslot := w } :=
    item_modItem held _
  refine ⟨_, execDelayEntryDue_due hd hdw hdx ht, ?_,
    filled { i with armed := i.armed.filter (· != ix), wslot := w } ix (opOf 6 (BitVec.ofNat 64 s.now) 0 0 0), ?_, rfl, ?_, rfl⟩
  · rw [cluster_deliver _ item hx he]
    exact not_mem_disarm hdw hdx
  · rw [cluster_deliver _ item hx he]
    exact item_put _ _
  · rw [mapGet_mapInsert, if_pos rfl]

/-! ### The end of a run (R24, R25, R231) -/

section

variable {it : ItemRef}

theorem item_of_running (h : s.running it = some i) : (s.cluster it.slice it.cluster).item it.wslot = some i ∧ i.state = .running := by
  obtain ⟨item, run⟩ := Option.filter_eq_some_iff.mp h
  exact ⟨item, beq_iff_eq.mp run⟩

theorem primitive_of_running (f : WorkItem → State → State) (h : s.running it = some i) (ht : s.translatedItem i = false) :
    s.primitive it f = f i s := by
  rw [State.primitive, h]
  dsimp only
  rw [ht]
  rfl

/-- An item HELD with a status, its unreleased emits gone. -/
@[reducible] def heldWith (i : WorkItem) (status : Nat) : WorkItem :=
  { i with emits := i.emits.filter (fun e => e.2), state := .held, endStatus := status, endCode := 0, core := none }

theorem item_holdItem (status : Nat) (h : (s.cluster n c).item w = some i) (hw : i.wslot = w) :
    ((s.holdItem n c w status 0).cluster n c).item w = some (heldWith i status) := by
  subst hw
  exact item_modItem h _

theorem cutItem_of_kept (h : (s.cluster n c).item w = some i) (hk : i.cutAtBudget = false) :
    s.cutItem n c w = ((s.holdItem n c w 1 0).inc (Adr.tqOverruns n)).setBit (Adr.tqEvt n) 0 := by
  rw [State.cutItem, h]
  dsimp only
  rw [hk]
  rfl

theorem execBudgetExpiry_running (h : s.running it = some i) (ht : s.translatedItem i = false) :
    exec (.budgetExpiry it) s = .next (if i.budgetOver s.now then s.cutItem it.slice it.cluster it.wslot else s) := by
  have e : exec (.budgetExpiry it) s = execBudgetExpiry it s := rfl
  rw [e, execBudgetExpiry, primitive_of_running _ h ht]

theorem budgetExpiry_cuts (h : s.running it = some i) (hw : i.wslot = it.wslot) (hk : i.cutAtBudget = false)
    (ht : s.translatedItem i = false) (hb : i.budgetOver s.now = true) :
    Completes (.budgetExpiry it) s fun t => t.bit (Adr.tqEvt it.slice) 0 = true ∧
      (t.cluster it.slice it.cluster).item it.wslot = some (heldWith i 1) := by
  have item := (item_of_running h).1
  refine ⟨_, execBudgetExpiry_running h ht, ?_⟩
  rw [if_pos hb, cutItem_of_kept item hk]
  exact ⟨bit_setBit_self _ _ _ (by decide), (congrArg (Cluster.item · _) (cluster_congr rfl)).trans (item_holdItem 1 item hw)⟩

theorem protectionFault_holds (h : s.running it = some i) (hw : i.wslot = it.wslot) (hk : i.cutAtBudget = false)
    (ht : s.translatedItem i = false) :
    Completes (.protectionFault it) s fun t => i.poolCore = false →
      (t.cluster it.slice it.cluster).item it.wslot = some (heldWith i 4) := by
  refine ⟨_, rfl, fun hp => ?_⟩
  rw [primitive_of_running _ h ht]
  have after : ∀ r : State, r.afterRun it i = r := fun r => by
    rw [State.afterRun, hk, hp]
    split <;> rfl
  rw [after]
  exact item_holdItem 4 (item_of_running h).1 hw

end

end Sys2Proof.Proofs
end

section
/-!
Cipher and compression operations as they end: the context, its counts and the key's counter (R170, R171, R182, R197, R200, R205, R236).
-/

namespace Sys2Proof.Proofs

open Sys2Proof.Machine Sys2Proof.Laws

variable {s t u : State} {n ctx : Nat} {k : Ctx}

/-! ### What keeps the contexts and the counters of a slice -/

/-- The contexts and the write counters of a slice are those of an earlier state. -/
structure SameCtxs (n : Nat) (s t : State) : Prop where
  contexts : (t.slice n).contexts = (s.slice n).contexts
  counters : (t.slice n).counters = (s.slice n).counters

theorem SameCtxs.refl (n : Nat) (s : State) : SameCtxs n s s := ⟨rfl, rfl⟩

theorem SameCtxs.trans (h : SameCtxs n s t) (g : SameCtxs n t u) : SameCtxs n s u :=
  ⟨g.contexts.trans h.contexts, g.counters.trans h.counters⟩

theorem sameCtxs_of_slices (h : t.slices = s.slices) : SameCtxs n s t := by
  constructor <;> rw [slice_congr h]

theorem sameCtxs_modSlice (s : State) (n : Nat) (f : Slice → Slice) (hc : ∀ x, (f x).contexts = x.contexts)
    (hk : ∀ x, (f x).counters = x.counters) : SameCtxs n s (s.modSlice n f) :=
  ⟨modSlice_keeps Slice.contexts s n n f hc, modSlice_keeps Slice.counters s n n f hk⟩

theorem sameCtxs_maskDraw (s : State) (n p : Nat) : SameCtxs n s (s.maskDraw n p).2 :=
  sameCtxs_modSlice s n _ (fun _ => rfl) fun _ => rfl

theorem sameCtxs_keyUse (s : State) (n r k : Nat) : SameCtxs n s (s.keyUse n r k) := by
  have cached : ∀ (p : Nat) (g : List KcEntry → List KcEntry),
      SameCtxs n s ((s.maskDraw n p).2.modSlice n fun x => { x with kcache := modAt x.kcache p g }) := fun p _ =>
    (sameCtxs_maskDraw s n p).trans (sameCtxs_modSlice _ n _ (fun _ => rfl) fun _ => rfl)
  have counted : ∀ (r : State) (a : Nat), SameCtxs n r (r.inc a) := fun _ _ => sameCtxs_of_slices rfl
  unfold State.keyUse
  dsimp only
  split
  · exact .refl n s
  · split
    · exact counted s _
    · split
      · exact cached _ _
      · exact (cached _ _).trans (counted _ _)

/-- An operand that is no grant of a context. -/
theorem sameCtxs_deliver (s : State) (n c w ix : Nat) {op : Operand} (h8 : op.kind ≠ 8) : SameCtxs n s (s.deliver n c w ix op) := by
  have changes : ∀ (r : State) (f : Cluster → Cluster), SameCtxs n r (r.modCluster n c f) := fun r f =>
    sameCtxs_modSlice r n _ (fun _ => rfl) fun _ => rfl
  have strays : ∀ r : State, SameCtxs n r (r.stray n) := fun r => sameCtxs_of_slices rfl
  unfold State.deliver
  split
  · dsimp only
    rw [if_neg h8]
    split
    · exact (changes s _).trans (strays _)
    · exact strays s
  · split
    · exact strays s
    · exact changes s _

theorem sameCtxs_engineDone (s : State) (n : Nat) (o : Option EngineOp) (bytes st unit : Nat) :
    SameCtxs n s (s.engineDone n o bytes st unit) := by
  unfold State.engineDone
  split
  · exact sameCtxs_deliver _ _ _ _ _ (show (3 : BitVec 8) ≠ 8 by decide)
  · exact .refl n s

theorem keyCtr_congr (h : (t.slice n).counters = (s.slice n).counters) (k : Nat) : t.keyCtr n k = s.keyCtr n k := by
  rw [State.keyCtr, State.keyCtr, h]

/-- A slice that holds a context exists. -/
theorem slice_of_ctx (h : mapGet (s.slice n).contexts ctx = some k) : n < s.slices.length := by
  by_contra hn
  rw [State.slice, List.getElem?_eq_none (by omega)] at h
  exact Option.some_ne_none k h.symm

/-! ### A context after an operation (R229, R236) -/

/-- A context that stands stays through a filter that it satisfies. -/
theorem mapGet_filter_of_kept {l : List (Nat × Ctx)} (p : Nat × Ctx → Bool) (h : mapGet l ctx = some k) (hp : p (ctx, k) = true) :
    mapGet (l.filter p) ctx = some k := by
  induction l with
  | nil => exact absurd h (by simp [mapGet])
  | cons q l ih =>
    obtain ⟨j, v⟩ := q
    rw [List.filter_cons]
    by_cases e : ctx = j
    · subst e
      have hv : v = k := by simpa [mapGet] using h
      subst hv
      rw [if_pos hp, mapGet, if_pos rfl]
    · have tail := ih (by rwa [mapGet, if_neg e] at h)
      split
      · rwa [mapGet, if_neg e]
      · exact tail

theorem ctx_dropEngine {x : Slice} (p : EngWork → Bool) (h : mapGet x.contexts ctx = some k) (h5 : k.kind ≠ 5) :
    mapGet (x.dropEngine p).contexts ctx = some k :=
  mapGet_filter_of_kept _ h (by simp [h5])

theorem ctx_takeOp (h : mapGet (s.slice n).contexts ctx = some k) (h5 : k.kind ≠ 5) :
    mapGet ((s.takeOp n ctx).slice n).contexts ctx = some k := by
  rw [State.takeOp, slice_modSlice_self _ (slice_of_ctx h)]
  dsimp only
  cases (s.slice n).engFor (.strm ctx) <;> cases (s.slice n).firstOp ctx
  case none.none | none.some => exact h
  case some.none | some.some => exact ctx_dropEngine _ h h5

/-- A context that another operation may follow, after one that did not close it. -/
theorem ctx_opEnded (f : Ctx → Ctx) (h : mapGet (s.slice n).contexts ctx = some k) (h5 : k.kind ≠ 5)
    (hf3 : (f { k with ops := k.ops - 1 }).state ≠ 3) (hf5 : (f { k with ops := k.ops - 1 }).kind ≠ 5) :
    mapGet ((s.opEnded n ctx f).slice n).contexts ctx = some { f { k with ops := k.ops - 1 } with index := ctx } := by
  have taken := ctx_takeOp h h5
  rw [State.opEnded, slice_modSlice_self _ (slice_of_ctx taken), taken]
  simp only [beq_eq_false_iff_ne.mpr hf3, beq_eq_false_iff_ne.mpr hf5, Bool.or_self, Bool.and_false, Bool.false_eq_true, if_false]
  rw [mapGet_mapInsert, if_pos rfl]

theorem counters_opEnded (s : State) (n ctx : Nat) (f : Ctx → Ctx) :
    ((s.opEnded n ctx f).slice n).counters = (s.slice n).counters := by
  have taken : ((s.takeOp n ctx).slice n).counters = (s.slice n).counters := by
    refine modSlice_keeps Slice.counters s n n _ fun x => ?_
    cases x.engFor (.strm ctx) <;> cases x.firstOp ctx <;> rfl
  refine (modSlice_keeps Slice.counters _ n n _ fun x => ?_).trans taken
  split
  · rfl
  · dsimp only
    split <;> rfl

/-- A fenced operation takes its context away. -/
theorem ctx_opFenced (h : n < s.slices.length) : mapGet ((s.opFenced n ctx).slice n).contexts ctx = none := by
  rw [State.opFenced, slice_modSlice_self _ h]
  dsimp only
  rw [mapGet_mapErase, if_pos rfl]

/-! ### The write counter (R170) -/

theorem keyCtr_slot (s : State) (n k : Nat) : (s.keyCtr n k).slot = k := by
  rw [State.keyCtr]
  cases found : recGet KeyCtr.slot (s.slice n).counters k with
  | none => rfl
  | some c =>
    have hc : (c.slot == k) = true := List.find?_some (p := fun c : KeyCtr => c.slot == k) found
    exact beq_iff_eq.mp hc

theorem keyCtr_takeCtr (h : n < s.slices.length) (k : Nat) : ((s.takeCtr n k).2.keyCtr n k).ctr = (s.keyCtr n k).ctr + 1 := by
  rw [State.keyCtr, State.takeCtr, slice_modSlice_self _ h]
  dsimp only
  rw [recGet_recPut, if_pos (keyCtr_slot s n k)]
  rfl

theorem contexts_takeCtr (s : State) (n k : Nat) : ((s.takeCtr n k).2.slice n).contexts = (s.slice n).contexts :=
  modSlice_keeps Slice.contexts s n n _ fun _ => rfl

/-! ### Cipher operations -/

section

variable {op : CipherOp}

/-- Does an operation take a counter value as it ends (R170)? -/
def takesCtr (s : State) (n : Nat) (op : CipherOp) : Bool :=
  op.encrypt && (s.cipherStatus n op == 0 || s.cipherStatus n op == 2 || s.cipherStatus n op == 6)

/-- The counter value that an operation takes, and the state with it taken. -/
def ctrTaken (s : State) (n : Nat) (op : CipherOp) : BitVec 64 × State := if takesCtr s n op then s.takeCtr n op.slot else (0, s)

/-- The state with an operation's counter value, key, error record and counters accounted for. -/
def cipherNoted (s : State) (n ctx : Nat) (op : CipherOp) : State :=
  let st := s.cipherStatus n op
  let u := (ctrTaken s n op).2
  let u := if st != 3 && st != 4 && st != 5 && decide (op.unit < 2) then u.keyUse n op.unit op.slot else u
  (u.cipherRecord n ctx st op).cipherCount n st

/-- What an operation makes of its context. -/
def cipherCtx (s : State) (n ctx : Nat) (op : CipherOp) (k : Ctx) : Ctx :=
  let iv : BitVec 96 := if takesCtr s n op then ivOf n op.slot (ctrTaken s n op).1 else op.iv
  let key := (cipherNoted s n ctx op).keySlot op.slot
  k.afterCipher (s.cipherStatus n op) op iv key.generation key.key ((cipherNoted s n ctx op).maskDraw n (op.unit % 3)).1

/-- The context of an operation ended, or taken away where the engine was fenced (R182). -/
def cipherEnded (s : State) (n ctx : Nat) (op : CipherOp) : State :=
  let u := cipherNoted s n ctx op
  if s.cipherStatus n op = 6 then (if u.ctxKind n ctx = 5 then u else u.opFenced n ctx)
  else (u.maskDraw n (op.unit % 3)).2.opEnded n ctx (cipherCtx s n ctx op)

/-- A cipher operation that neither runs nor waits for a counter value ends. -/
theorem execCipherOpDone_ends (hu : s.sliceUp n = true) (hr : s.cipherStatus n op ≤ 1 → s.opRunning n ctx = false)
    (hc : takesCtr s n op = true → s.ctrReady n op.slot = true) :
    exec (.cipherOpDone n ctx op) s = .next ((cipherEnded s n ctx op).engineDone n ((s.slice n).firstOp ctx)
      (if s.cipherStatus n op = 0 then op.payDecl else 0) (s.cipherStatus n op) op.unit) := by
  have runs : ¬ (decide (s.cipherStatus n op ≤ 1) && s.opRunning n ctx) = true := by
    rw [Bool.and_eq_true, decide_eq_true_eq]
    exact fun h => absurd h.2 (by rw [hr h.1]; decide)
  have waits : ¬ (takesCtr s n op && !s.ctrReady n op.slot) = true := by
    rw [Bool.and_eq_true]
    exact fun h => absurd h.2 (by rw [hc h.1]; decide)
  have e : exec (.cipherOpDone n ctx op) s = execCipherOpDone n ctx op s := rfl
  rw [e, execCipherOpDone]
  dsimp only
  rw [hu, if_neg (by decide), if_neg runs]
  exact congrArg _ (if_neg waits)

theorem execCipherOpDone_runs (hu : s.sliceUp n = true) (hs : s.cipherStatus n op = 0) (hr : s.opRunning n ctx = true) :
    exec (.cipherOpDone n ctx op) s = .next s := by
  have e : exec (.cipherOpDone n ctx op) s = execCipherOpDone n ctx op s := rfl
  rw [e, execCipherOpDone]
  dsimp only
  rw [hu, hs, hr]
  rfl

theorem execCipherOpDone_waits (hu : s.sliceUp n = true) (hs : s.cipherStatus n op = 0) (hr : s.opRunning n ctx = false)
    (he : op.encrypt = true) (hc : s.ctrReady n op.slot = false) : exec (.cipherOpDone n ctx op) s = .next (s.inc Adr.ksCtrWaits) := by
  have e : exec (.cipherOpDone n ctx op) s = execCipherOpDone n ctx op s := rfl
  rw [e, execCipherOpDone]
  dsimp only
  rw [hu, hs, hr, he, hc]
  rfl

theorem sameCtxs_cipherNoted (s : State) (n ctx : Nat) (op : CipherOp) : SameCtxs n (ctrTaken s n op).2 (cipherNoted s n ctx op) := by
  have used : ∀ r : State, SameCtxs n r
      (if s.cipherStatus n op != 3 && s.cipherStatus n op != 4 && s.cipherStatus n op != 5 && decide (op.unit < 2)
        then r.keyUse n op.unit op.slot else r) := fun r => by
    split
    · exact sameCtxs_keyUse r n _ _
    · exact .refl n r
  have recorded : ∀ r : State, SameCtxs n r (r.cipherRecord n ctx (s.cipherStatus n op) op) := fun r =>
    sameCtxs_of_slices ((cipherRecord_frame r n ctx _ op (Frame.refl 0x4 r) rfl).same .slices rfl)
  have counted : ∀ r : State, SameCtxs n r (r.cipherCount n (s.cipherStatus n op)) := fun r =>
    sameCtxs_of_slices ((cipherCount_frame r n _ (Frame.refl 0x4 r) rfl).same .slices rfl)
  exact (used _).trans ((recorded _).trans (counted _))

theorem contexts_cipherNoted (s : State) (n ctx : Nat) (op : CipherOp) :
    ((cipherNoted s n ctx op).slice n).contexts = (s.slice n).contexts := by
  refine (sameCtxs_cipherNoted s n ctx op).contexts.trans ?_
  rw [ctrTaken]
  split
  · exact contexts_takeCtr s n _
  · rfl

theorem takesCtr_of_ok (h : s.cipherStatus n op = 0) : takesCtr s n op = op.encrypt := by
  rw [takesCtr, h]
  exact Bool.and_true _

theorem keyCtr_ctrTaken (hn : n < s.slices.length) (h : s.cipherStatus n op = 0) :
    ((ctrTaken s n op).2.keyCtr n op.slot).ctr = (s.keyCtr n op.slot).ctr + (if op.encrypt then 1 else 0) := by
  rw [ctrTaken, takesCtr_of_ok h]
  split
  · exact keyCtr_takeCtr hn _
  · exact (BitVec.add_zero _).symm

theorem ivOf_ctrTaken (h : s.cipherStatus n op = 0) :
    (if takesCtr s n op then ivOf n op.slot (ctrTaken s n op).1 else op.iv) =
      if op.encrypt = true then ivOf n op.slot (s.keyCtr n op.slot).ctr else op.iv := by
  rw [ctrTaken, takesCtr_of_ok h]
  split <;> rfl

theorem cipherCtx_of_ok (hs : s.cipherStatus n op = 0) (k : Ctx) :
    (cipherCtx s n ctx op k).ops = k.ops ∧ (cipherCtx s n ctx op k).kind = k.kind ∧ (cipherCtx s n ctx op k).state = k.state ∧
      (cipherCtx s n ctx op k).keySlot = op.slot ∧ (cipherCtx s n ctx op k).inTotal = op.arrived ∧
      (cipherCtx s n ctx op k).iv = if op.encrypt = true then ivOf n op.slot (s.keyCtr n op.slot).ctr else op.iv := by
  rw [cipherCtx, hs]
  exact ⟨rfl, rfl, rfl, rfl, rfl, ivOf_ctrTaken hs⟩

theorem cipherEnded_of_ok (h : mapGet (s.slice n).contexts ctx = some k) (h3 : k.state ≠ 3) (h5 : k.kind ≠ 5)
    (hs : s.cipherStatus n op = 0) :
    mapGet ((cipherEnded s n ctx op).slice n).contexts ctx = some { cipherCtx s n ctx op { k with ops := k.ops - 1 } with index := ctx } ∧
      ((cipherEnded s n ctx op).slice n).counters = ((ctrTaken s n op).2.slice n).counters := by
  have drawn := sameCtxs_maskDraw (cipherNoted s n ctx op) n (op.unit % 3)
  have held : mapGet (((cipherNoted s n ctx op).maskDraw n (op.unit % 3)).2.slice n).contexts ctx = some k := by
    rw [drawn.contexts, contexts_cipherNoted]
    exact h
  have ended : cipherEnded s n ctx op =
      ((cipherNoted s n ctx op).maskDraw n (op.unit % 3)).2.opEnded n ctx (cipherCtx s n ctx op) := by
    rw [cipherEnded]
    exact if_neg (by rw [hs]; decide)
  obtain ⟨-, kind, state, -⟩ := cipherCtx_of_ok (s := s) (ctx := ctx) hs { k with ops := k.ops - 1 }
  rw [ended]
  exact ⟨ctx_opEnded _ held h5 (fun e => h3 (state.symm.trans e)) (fun e => h5 (kind.symm.trans e)),
    (counters_opEnded _ n ctx _).trans (drawn.counters.trans (sameCtxs_cipherNoted s n ctx op).counters)⟩

theorem cipherOpDone_succeeds (hu : s.sliceUp n = true) (h : mapGet (s.slice n).contexts ctx = some k) (h3 : k.state ≠ 3)
    (h5 : k.kind ≠ 5) (hs : s.cipherStatus n op = 0) (hr : s.opRunning n ctx = false)
    (hc : op.encrypt = true → s.ctrReady n op.slot = true) :
    Completes (.cipherOpDone n ctx op) s fun t =>
      (∃ j, mapGet (t.slice n).contexts ctx = some j ∧ j.ops = k.ops - 1 ∧ j.keySlot = op.slot ∧ j.inTotal = op.arrived ∧
        j.state = k.state ∧ j.iv = if op.encrypt = true then ivOf n op.slot (s.keyCtr n op.slot).ctr else op.iv) ∧
      (t.keyCtr n op.slot).ctr = (s.keyCtr n op.slot).ctr + (if op.encrypt then 1 else 0) := by
  refine ⟨_, execCipherOpDone_ends hu (fun _ => hr) (fun ht => hc (takesCtr_of_ok hs ▸ ht)), ?_⟩
  obtain ⟨contexts, counters⟩ := sameCtxs_engineDone (cipherEnded s n ctx op) n ((s.slice n).firstOp ctx)
    (if s.cipherStatus n op = 0 then op.payDecl else 0) (s.cipherStatus n op) op.unit
  obtain ⟨ended, taken⟩ := cipherEnded_of_ok h h3 h5 hs
  obtain ⟨ops, -, state, slot, total, iv⟩ := cipherCtx_of_ok (s := s) (ctx := ctx) hs { k with ops := k.ops - 1 }
  exact ⟨⟨_, (congrArg (mapGet · ctx) contexts).trans ended, ops, slot, total, state, iv⟩,
    (congrArg KeyCtr.ctr (keyCtr_congr (counters.trans taken) _)).trans (keyCtr_ctrTaken (slice_of_ctx h) hs)⟩

theorem cipherOpDone_fenced (hu : s.sliceUp n = true) (h : mapGet (s.slice n).contexts ctx = some k) (h5 : k.kind ≠ 5)
    (hs : s.cipherStatus n op = 6) (hc : op.encrypt = true → s.ctrReady n op.slot = true) :
    Completes (.cipherOpDone n ctx op) s fun t => mapGet (t.slice n).contexts ctx = none := by
  have takes : takesCtr s n op = op.encrypt := by
    rw [takesCtr, hs]
    exact Bool.and_true _
  refine ⟨_, execCipherOpDone_ends hu (fun h => absurd h (by omega)) (fun ht => hc (takes ▸ ht)), ?_⟩
  have held : mapGet ((cipherNoted s n ctx op).slice n).contexts ctx = some k := by
    rw [contexts_cipherNoted]
    exact h
  have kind : ¬ (cipherNoted s n ctx op).ctxKind n ctx = 5 := by
    rw [State.ctxKind, held]
    exact h5
  have ended : cipherEnded s n ctx op = (cipherNoted s n ctx op).opFenced n ctx := by
    rw [cipherEnded]
    exact (if_pos hs).trans (if_neg kind)
  refine (congrArg (mapGet · ctx) (sameCtxs_engineDone _ n _ _ _ _).contexts).trans ?_
  rw [ended]
  exact ctx_opFenced (slice_of_ctx held)

end

/-! ### Compression operations -/

section

variable {op : CompressOp}

/-- The state with an operation's error record and events. -/
def streamNoted (s : State) (n ctx : Nat) (op : CompressOp) : State :=
  let st := s.streamStatus n ctx op
  let u := s.streamRecord n ctx st op
  if st = 7 then u.setBit (Adr.czEvt n) 5 else if st = 2 then u.setBit (Adr.czEvt n) 4 else u

/-- The context of an operation ended, or taken away where the engine was fenced (R205). -/
def streamEnded (s : State) (n ctx : Nat) (op : CompressOp) : State :=
  let st := s.streamStatus n ctx op
  if st = 9 then (streamNoted s n ctx op).opFenced n ctx else (streamNoted s n ctx op).opEnded n ctx fun k => k.afterStream st op

theorem execCompressOpDone_ends (hu : s.sliceUp n = true) (hr : s.streamStatus n ctx op = 0 → s.opRunning n ctx = false) :
    exec (.compressOpDone n ctx op) s = .next ((streamEnded s n ctx op).engineDone n ((s.slice n).firstOp ctx)
      (if s.streamStatus n ctx op = 0 then opOutput op else 0) (s.streamStatus n ctx op) op.unit) := by
  have runs : ¬ (decide (s.streamStatus n ctx op = 0) && s.opRunning n ctx) = true := by
    rw [Bool.and_eq_true, decide_eq_true_eq]
    exact fun h => absurd h.2 (by rw [hr h.1]; decide)
  have e : exec (.compressOpDone n ctx op) s = execCompressOpDone n ctx op s := rfl
  rw [e, execCompressOpDone]
  dsimp only
  rw [hu, if_neg (by decide), if_neg runs]
  rfl

theorem execCompressOpDone_runs (hu : s.sliceUp n = true) (hs : s.streamStatus n ctx op = 0) (hr : s.opRunning n ctx = true) :
    exec (.compressOpDone n ctx op) s = .next s := by
  have e : exec (.compressOpDone n ctx op) s = execCompressOpDone n ctx op s := rfl
  rw [e, execCompressOpDone]
  dsimp only
  rw [hu, hs, hr]
  rfl

theorem contexts_streamNoted (s : State) (n ctx : Nat) (op : CompressOp) :
    ((streamNoted s n ctx op).slice n).contexts = (s.slice n).contexts := by
  have recorded : (s.streamRecord n ctx (s.streamStatus n ctx op) op).slices = s.slices :=
    (streamRecord_frame s n ctx _ op (Frame.refl 0x4 s) rfl).same .slices rfl
  have noted : (streamNoted s n ctx op).slices = s.slices := by
    rw [streamNoted]
    split
    · exact recorded
    · split <;> exact recorded
  rw [slice_congr noted]

/-- The context after a stream operation, fenced or not. -/
theorem ctx_streamEnded (h : mapGet (s.slice n).contexts ctx = some k) (h3 : k.state ≠ 3) (h5 : k.kind ≠ 5) :
    mapGet ((streamEnded s n ctx op).slice n).contexts ctx = if s.streamStatus n ctx op = 9 then none
      else some { ({ k with ops := k.ops - 1 } : Ctx).afterStream (s.streamStatus n ctx op) op with index := ctx } := by
  have held : mapGet ((streamNoted s n ctx op).slice n).contexts ctx = some k := by
    rw [contexts_streamNoted]
    exact h
  have open3 : (({ k with ops := k.ops - 1 } : Ctx).afterStream (s.streamStatus n ctx op) op).state ≠ 3 := by
    unfold Ctx.afterStream
    split
    · exact h3
    · split
      · exact h3
      · exact (by decide : 2 ≠ 3)
  have open5 : (({ k with ops := k.ops - 1 } : Ctx).afterStream (s.streamStatus n ctx op) op).kind ≠ 5 := by
    unfold Ctx.afterStream
    split_ifs <;> exact h5
  rw [streamEnded]
  dsimp only
  split
  · exact ctx_opFenced (slice_of_ctx held)
  · exact ctx_opEnded _ held h5 open3 open5

theorem compressOpDone_ends (hu : s.sliceUp n = true) (h : mapGet (s.slice n).contexts ctx = some k) (h3 : k.state ≠ 3)
    (h5 : k.kind ≠ 5) (hr : s.streamStatus n ctx op = 0 → s.opRunning n ctx = false) :
    Completes (.compressOpDone n ctx op) s fun t => mapGet (t.slice n).contexts ctx = if s.streamStatus n ctx op = 9 then none
      else some { ({ k with ops := k.ops - 1 } : Ctx).afterStream (s.streamStatus n ctx op) op with index := ctx } :=
  ⟨_, execCompressOpDone_ends hu hr, (congrArg (mapGet · ctx) (sameCtxs_engineDone _ n _ _ _ _).contexts).trans (ctx_streamEnded h h3 h5)⟩

theorem compressOpDone_succeeds (hu : s.sliceUp n = true) (h : mapGet (s.slice n).contexts ctx = some k) (h3 : k.state ≠ 3)
    (h5 : k.kind ≠ 5) (hs : s.streamStatus n ctx op = 0) (hr : s.opRunning n ctx = false) :
    Completes (.compressOpDone n ctx op) s fun t =>
      ∃ j, mapGet (t.slice n).contexts ctx = some j ∧ j.ops = k.ops - 1 ∧ j.inTotal = k.inTotal + op.arrived ∧
        j.outTotal = k.outTotal + opOutput op ∧ j.phase = (if op.finalOp then 2 else 1) ∧ j.state = k.state ∧
        j.strm.format = op.format ∧ j.strm.ringSize = opRing op ∧ j.strm.ringPtr = op.ringPtr ∧ j.strm.check = op.check := by
  obtain ⟨t, e, ht⟩ := compressOpDone_ends (op := op) hu h h3 h5 fun _ => hr
  rw [hs, if_neg (by decide)] at ht
  exact ⟨t, e, _, ht, rfl, rfl, rfl, rfl, rfl, rfl, rfl, rfl, rfl⟩

theorem compressOpDone_fails (hu : s.sliceUp n = true) (h : mapGet (s.slice n).contexts ctx = some k) (h3 : k.state ≠ 3)
    (h5 : k.kind ≠ 5) (hk : k.index = ctx) (hs : s.streamStatus n ctx op ≠ 0) :
    Completes (.compressOpDone n ctx op) s fun t => mapGet (t.slice n).contexts ctx =
      match s.streamStatus n ctx op with
      | 2 => some { k with ops := k.ops - 1 }
      | 7 => some { k with ops := k.ops - 1 }
      | 9 => none
      | _ => some { k with ops := k.ops - 1, state := 2 } := by
  obtain ⟨t, e, ht⟩ := compressOpDone_ends (op := op) hu h h3 h5 fun h0 => absurd h0 hs
  refine ⟨t, e, ht.trans ?_⟩
  subst hk
  by_cases h9 : s.streamStatus n k.index op = 9
  · rw [h9]
    rfl
  by_cases h2 : s.streamStatus n k.index op = 2
  · rw [h2]
    rfl
  by_cases h7 : s.streamStatus n k.index op = 7
  · rw [h7]
    rfl
  rw [if_neg h9, Ctx.afterStream, if_neg hs, if_neg (not_or.mpr ⟨h2, h7⟩)]
  dsimp only
  rw [if_neg h3]
  split
  next e => exact absurd e h2
  next e => exact absurd e h7
  next e => exact absurd e h9
  next => rfl

end

end Sys2Proof.Proofs
end

section
/-!
Slice DMA transfers as they end (R280), and the statement about operands, budgets and the operations of the engines.
-/

namespace Sys2Proof.Proofs

open Sys2Proof.Machine Sys2Proof.Laws

variable {F : Nat} {s t u : State} {n c w ix ch : Nat} {d : DmaRes}

/-! ### The memory of a slice through an operation -/

theorem slm_of_frame (h : Frame F s t) (m : F.testBit 53 = false) (j : Nat) : (t.slice j).slm = (s.slice j).slm := by
  have same : (t.slices.map Slice.slm)[j]? = (s.slices.map Slice.slm)[j]? := congrArg (·[j]?) (h.same .memory m)
  have read : ∀ l : List Slice, ((l[j]?).getD State.sliceReset).slm = ((l.map Slice.slm)[j]?).getD [] := fun l => by
    rw [List.getElem?_map]
    cases l[j]? <;> rfl
  rw [State.slice, State.slice, read, read, same]

/-- Bytes stored stand in the memory of their slice, and the rest of the memory is as it was. -/
theorem slm_memStore (hn : n < s.slices.length) (a : Nat) (bs : List Byte) (j : Nat) :
    ((s.memStore n a bs).slice j).slm = if j = n then memWrite (s.slice n).slm a bs else (s.slice j).slm := by
  have gathered := slm_of_frame (gather_frame (s.modSlice n fun x => { x with slm := memWrite x.slm a bs }) n a bs (bs.length / 64 + 2)
    (Frame.refl 0x20004 _) rfl) rfl j
  rw [State.memStore, gathered, slice_modSlice s n j _ hn]
  split <;> rfl

/-! ### A transfer (R280) -/

theorem lt_slices_of_sliceUp (h8 : s.slices.length = 8) (hu : s.sliceUp n = true) : n < s.slices.length := by
  have has : n < s.part.slices := of_decide_eq_true (Bool.and_eq_true_iff.mp hu).1
  have := part_slices_le s.part
  omega

theorem rd_deliver_of_ne (s : State) (n c w ix : Nat) (op : Operand) {a : Nat} (hs : a ≠ Adr.tqStray n) (he : a ≠ Adr.tqEvt n) :
    (s.deliver n c w ix op).rd a = s.rd a := by
  have strays : ∀ r : State, (r.stray n).rd a = r.rd a := fun r => (rd_setBit_of_ne _ 1 he).trans (rd_inc_of_ne r hs)
  unfold State.deliver
  split
  · refine (strays _).trans ?_
    split
    · rfl
    · split <;> rfl
  · split
    · exact strays s
    · rfl

/-- The bytes of a transfer in place, and what its two ends ask of the DRAM channels. -/
def dmaMoved (s : State) (n ch c : Nat) (d : DmaRes) : State :=
  let r := (s.takeDma n ch d).memStore n d.dst (memRead (s.slice n).slm d.src d.len)
  (r.dramAsk n (portCore c) d.owner d.src d.len false).dramAsk n (portCore c) d.owner d.dst d.len true

theorem slm_dmaMoved (hn : n < s.slices.length) (j : Nat) :
    ((dmaMoved s n ch c d).slice j).slm =
      if j = n then memWrite (s.slice n).slm d.dst (memRead (s.slice n).slm d.src d.len) else (s.slice j).slm := by
  have taken := slm_of_frame (takeDma_frame s n ch d (Frame.refl 0x20000 s) rfl) rfl
  have hn' : n < (s.takeDma n ch d).slices.length := (slices_length_modSlice s n _).symm ▸ hn
  have asked : ∀ (r : State) (a : Nat) (wr : Bool), ((r.dramAsk n (portCore c) d.owner a d.len wr).slice j).slm = (r.slice j).slm :=
    fun r a wr => slm_of_frame (dramAsk_frame r n (portCore c) d.owner a d.len wr (Frame.refl 0x20000 r) rfl) rfl j
  rw [dmaMoved, asked, asked, slm_memStore hn', taken n, taken j]

theorem dmaEnd_ok (hs : s.ownsMem n d.owner d.src d.len = true) (hd : s.ownsMem n d.owner d.dst d.len = true)
    (h1 : d.discarded = false) (h2 : d.fenced = false) (hb : d.badAt = none) (hg : s.goodBytes n d.src d.len = none) :
    s.dmaEnd n d = (0, d.len, s) := by
  rw [State.dmaEnd, hs, hd, h1, h2, hb, hg]
  rfl

theorem execSliceDmaDone_ok (hu : s.sliceUp n = true) (hc : ch < 16) (hv : s.sdServes n ch d.owner = true)
    (he : s.dmaEnd n d = (0, d.len, s)) :
    exec (.sliceDmaDone n ch c w ix d) s = .next (((dmaMoved s n ch c d).wr (Adr.sdChSts n ch)
      (BitVec.ofNat 32 (0 * 2 ^ 24 + d.owner % 512 * 2 ^ 8))).deliver n c w ix (opOf 2 (BitVec.ofNat 64 d.len) (BitVec.ofNat 32 0) 0 ch)) := by
  have e : exec (.sliceDmaDone n ch c w ix d) s = execSliceDmaDone n ch c w ix d s := rfl
  rw [e, execSliceDmaDone, hu, hv, he, decide_eq_false (by omega), Bool.or_true]
  rfl

theorem execSliceDmaDone_waits (h1 : d.discarded = false) (h2 : d.fenced = false) (hv : s.sdServes n ch d.owner = false) :
    exec (.sliceDmaDone n ch c w ix d) s = .next s := by
  have e : exec (.sliceDmaDone n ch c w ix d) s = execSliceDmaDone n ch c w ix d s := rfl
  rw [e, execSliceDmaDone, hv, h1, h2, Bool.or_self, Bool.or_self, Bool.not_false, Bool.or_true]
  rfl

theorem sdChSts_ne (n : Nat) (h : ch < 16) : Adr.sdChSts n ch ≠ Adr.tqStray n ∧ Adr.sdChSts n ch ≠ Adr.tqEvt n := by
  unfold Adr.sdChSts Adr.tqStray Adr.tqEvt sliceAdr
  omega

theorem sliceDmaDone_copies (h8 : s.slices.length = 8) (hu : s.sliceUp n = true) (hc : ch < 16) (hv : s.sdServes n ch d.owner = true)
    (he : s.dmaEnd n d = (0, d.len, s)) :
    Completes (.sliceDmaDone n ch c w ix d) s fun t =>
      memRead (t.slice n).slm d.dst d.len = memRead (s.slice n).slm d.src d.len ∧ MemoryBut n d.dst d.len s t ∧
      t.rd (Adr.sdChSts n ch) = BitVec.ofNat 32 (d.owner % 512 * 256) := by
  refine ⟨_, execSliceDmaDone_ok hu hc hv he, ?_⟩
  generalize hw : (dmaMoved s n ch c d).wr (Adr.sdChSts n ch) (BitVec.ofNat 32 (0 * 2 ^ 24 + d.owner % 512 * 2 ^ 8)) = r
  have moved : ∀ j, ((r.deliver n c w ix (opOf 2 (BitVec.ofNat 64 d.len) (BitVec.ofNat 32 0) 0 ch)).slice j).slm =
      if j = n then memWrite (s.slice n).slm d.dst (memRead (s.slice n).slm d.src d.len) else (s.slice j).slm := fun j => by
    rw [slm_of_frame (deliver_frame r n c w ix _ (Frame.refl 0x20004 r) rfl) rfl, ← hw]
    exact slm_dmaMoved (lt_slices_of_sliceUp h8 hu) j
  have length := memRead_length (s.slice n).slm d.src d.len
  obtain ⟨stray, evt⟩ := sdChSts_ne n hc
  refine ⟨?_, fun j b => ?_, ?_⟩
  · have read := memRead_memWrite (memRead (s.slice n).slm d.src d.len) (s.slice n).slm d.dst
    rw [length] at read
    rw [moved, if_pos rfl, read]
  · by_cases h : j = n ∧ d.dst ≤ b ∧ b < d.dst + d.len
    · exact .inl h
    · refine .inr ?_
      rw [moved]
      split
      next e =>
        subst e
        exact memGet_memWrite_of_out _ _ _ _ (by rw [length]; omega)
      next => rfl
  · rw [rd_deliver_of_ne _ _ _ _ _ _ stray evt, ← hw, rd_wr_self]
    exact congrArg _ (Nat.zero_add _)

/-- Settles O46: operands and budgets by the slot's item, the operations by what they make of their context and of memory. -/
theorem operandsBudgetsAndStreamOperations : Obligations.OperandsBudgetsAndStreamOperations := by
  refine ⟨fun n c w ix op s hu hc => ⟨fun i h hw hx he => operandArrival_fills op hu hc h hw hx he,
    fun h h7 h8 => operandArrival_strays hu hc (deliver_of_free op h h7 h8),
    fun i h hx => operandArrival_strays hu hc (deliver_of_taken op h hx)⟩,
    fun n c w ix s h => execDelayEntryDue_early h,
    fun n c w ix s i d hd hdw hdx ht h _ hx he => delayEntryDue_fires hd hdw hdx ht h hx he,
    fun it s i h hw hk ht => ⟨fun hb => budgetExpiry_cuts h hw hk ht hb,
      fun hb => (execBudgetExpiry_running h ht).trans (congrArg _ (if_neg (by rw [hb]; decide))),
      protectionFault_holds h hw hk ht⟩,
    fun n ctx op s k hu h h3 h5 => ⟨fun hs hr hc => cipherOpDone_succeeds hu h h3 h5 hs hr hc, execCipherOpDone_runs hu,
      fun hs hr he hc => ⟨_, execCipherOpDone_waits hu hs hr he hc, regsBut_wr _ _ _, onlyChanges_wr _ _ _⟩,
      fun hs hc => cipherOpDone_fenced hu h h5 hs hc⟩,
    fun n ctx op s k hu h h3 h5 hk => ⟨execCompressOpDone_runs hu, fun hs hr => compressOpDone_succeeds hu h h3 h5 hs hr,
      fun hs => compressOpDone_fails hu h h3 h5 hk hs⟩,
    fun n ch c w ix d s h1 h2 hv => execSliceDmaDone_waits h1 h2 hv,
    fun n ch c w ix d s h8 hu hc hv hs hd h1 h2 hb hg => sliceDmaDone_copies h8 hu hc hv (dmaEnd_ok hs hd h1 h2 hb hg)⟩

end Sys2Proof.Proofs
end

section
/-!
What the fence of a DRAM channel leaves (R296): the channel's registers, its fence and the cleared memory stay as the rest of the
containment runs, the invocations that end and the slice that goes offline (R243, R244, R382, R383).
-/

namespace Sys2Proof.Proofs

open Sys2Proof.Machine Sys2Proof.Laws

variable {F : Nat} {s t u : State} {n : Nat}

/-! ### What stays -/

/-- Is an address one of a slice's DRAM registers from DM_EVT on? -/
def dramReg (n a : Nat) : Prop := Adr.dmEvt n ≤ a ∧ a < sliceAdr n 0x80000

/-- The DRAM registers of a slice and the fences of DRAM channels stay, and memory that is clear stays clear. -/
structure KeepsFenced (n : Nat) (s t : State) : Prop where
  regs : ∀ a, dramReg n a → t.rd a = s.rd a
  fences : ∀ v : UnitId, v.kind = 9 → t.fenceOf v = s.fenceOf v
  memory : (s.slice n).slm = [] → (t.slice n).slm = []

theorem KeepsFenced.refl (n : Nat) (s : State) : KeepsFenced n s s := ⟨fun _ _ => rfl, fun _ _ => rfl, id⟩

theorem KeepsFenced.trans (h : KeepsFenced n s t) (g : KeepsFenced n t u) : KeepsFenced n s u :=
  ⟨fun a ha => (g.regs a ha).trans (h.regs a ha), fun v hv => (g.fences v hv).trans (h.fences v hv), fun hs => g.memory (h.memory hs)⟩

theorem keepsFenced_foldl {α : Type} (f : State → α → State) (l : List α) (hf : ∀ r, ∀ a ∈ l, KeepsFenced n r (f r a)) (s : State) :
    KeepsFenced n s (l.foldl f s) := by
  induction l generalizing s with
  | nil => exact .refl n s
  | cons a l ih => exact (hf s a List.mem_cons_self).trans (ih (fun r b hb => hf r b (List.mem_cons_of_mem a hb)) _)

theorem fenceOf_congr (h : t.fences = s.fences) (v : UnitId) : t.fenceOf v = s.fenceOf v := by
  rw [State.fenceOf, State.fenceOf, h]

/-- What keeps the registers, the fences and the memory. -/
theorem keepsFenced_of_frame (h : Frame F s t) (m : F &&& 0x20200000000005 = 0) : KeepsFenced n s t := by
  have clear : ∀ i, (0x20200000000005).testBit i = true → F.testBit i = false := fun i hi => by
    have both := congrArg (Nat.testBit · i) m
    simpa [hi] using both
  exact ⟨fun _ _ => rd_of_regs (h.same .regs (clear 2 rfl)) (h.same .part (clear 0 rfl)) _,
    fun v _ => fenceOf_congr (h.same .fences (clear 45 rfl)) v, fun hs => (slm_of_frame h (clear 53 rfl) n).trans hs⟩

theorem keepsFenced_of_eq (hr : t.regs = s.regs) (hp : t.part = s.part) (hf : t.fences = s.fences) (hs : t.slices = s.slices) :
    KeepsFenced n s t :=
  ⟨fun a _ => rd_of_regs hr hp a, fun v _ => fenceOf_congr hf v, fun h => (congrArg Slice.slm (slice_congr hs n)).trans h⟩

theorem keepsFenced_wr (s : State) {b : Nat} (v : Word) (hb : ¬ dramReg n b) : KeepsFenced n s (s.wr b v) :=
  ⟨fun _ ha => rd_wr_of_ne s v fun e => hb (e ▸ ha), fun _ _ => rfl, id⟩

/-- A register below the slices' is none of theirs. -/
theorem not_dramReg_of_hub {b : Nat} (h : b < 0x1000000) : ¬ dramReg n b := by
  unfold dramReg Adr.dmEvt sliceAdr
  omega

theorem keepsFenced_wr_hub (n : Nat) (s : State) {b : Nat} (v : Word) (hb : b < 0x1000000) : KeepsFenced n s (s.wr b v) :=
  keepsFenced_wr s v (not_dramReg_of_hub hb)

/-- Nor is one above the DRAM registers of the slice. -/
theorem not_dramReg_of_above {b : Nat} (h : sliceAdr n 0x80000 ≤ b) : ¬ dramReg n b := fun hd => absurd hd.2 (by omega)

theorem keepsFenced_modSlice (s : State) (n : Nat) (f : Slice → Slice) (h : ∀ x, x.slm = [] → (f x).slm = []) :
    KeepsFenced n s (s.modSlice n f) := by
  refine ⟨fun _ _ => rfl, fun _ _ => rfl, fun hs => ?_⟩
  rcases slice_modSlice_cases s n n f with e | e <;> rw [e]
  · exact h _ hs
  · exact hs

/-! ### The end of an invocation (R239, R243, R244) -/

theorem keepsFenced_modCluster (s : State) (n c : Nat) (f : Cluster → Cluster) : KeepsFenced n s (s.modCluster n c f) :=
  keepsFenced_of_frame (modCluster_frame s n c f (Frame.refl 0x20000 s) rfl) rfl

theorem keepsFenced_deliver (s : State) (n c w ix : Nat) (op : Operand) : KeepsFenced n s (s.deliver n c w ix op) := by
  have frame := deliver_frame s n c w ix op (Frame.refl 0x20004 s) rfl
  refine ⟨fun a ha => rd_deliver_of_ne s n c w ix op ?_ ?_, fun v _ => fenceOf_congr (frame.same .fences rfl) v,
    fun hs => (slm_of_frame frame rfl n).trans hs⟩
  · exact fun e => not_dramReg_of_above (by unfold Adr.tqStray sliceAdr; omega) (e ▸ ha)
  · exact fun e => not_dramReg_of_above (by unfold Adr.tqEvt sliceAdr; omega) (e ▸ ha)

theorem keepsFenced_freeSlot (s : State) (n c w : Nat) : KeepsFenced n s (s.freeSlot n c w) := by
  unfold State.freeSlot
  split
  · exact .refl n s
  · dsimp only
    split
    · exact keepsFenced_modCluster s n c _
    · exact (keepsFenced_modCluster s n c _).trans (keepsFenced_deliver _ _ _ _ _ _)

theorem keepsFenced_modItem (s : State) (n c w : Nat) (f : WorkItem → WorkItem) : KeepsFenced n s (s.modItem n c w f) :=
  keepsFenced_modCluster s n c _

theorem keepsFenced_discardItems (s : State) (n c : Nat) (p : WorkItem → Bool) : KeepsFenced n s (s.discardItems n c p) := by
  unfold State.discardItems
  dsimp only
  split
  · exact .refl n s
  · refine (keepsFenced_foldl _ _ (fun r q _ => ?_) s).trans
      (keepsFenced_wr _ _ (not_dramReg_of_above (by unfold Adr.tqEvt sliceAdr; omega)))
    split
    · exact keepsFenced_modItem r n c q.1 _
    · exact (keepsFenced_modItem r n c q.1 _).trans (keepsFenced_freeSlot _ n c q.1)

theorem keepsFenced_dropPart (s : State) (n r p : Nat) : KeepsFenced n s (s.dropPart n r p) := by
  have above : ∀ q, ¬ dramReg n (Adr.asPart n r q) := fun q => not_dramReg_of_above (by unfold Adr.asPart sliceAdr; omega)
  unfold State.dropPart
  exact (keepsFenced_of_frame (modArray_frame s n r _ (Frame.refl 0x20000 s) rfl) rfl).trans
    ((keepsFenced_wr _ _ (above p)).trans (keepsFenced_wr _ _ (above 0)))

theorem keepsFenced_freeInvocation (s : State) (v : Invocation) : KeepsFenced v.slice s (s.freeInvocation v) := by
  have items : ∀ r : State, KeepsFenced v.slice r (r.discardSlice v.slice fun i => i.inv == some v.id) := fun r =>
    keepsFenced_foldl _ _ (fun r c _ => keepsFenced_discardItems r v.slice c _) r
  have ctxs : ∀ r : State, KeepsFenced v.slice r (r.closeCtxs fun k => k.inv == some v.id) := fun r =>
    keepsFenced_of_frame (closeCtxs_frame r _ (Frame.refl 0x20000 r) rfl) rfl
  have parts : ∀ r : State, KeepsFenced v.slice r (v.filters.foldl (fun s q => s.dropPart v.slice q.1 q.2) r) := fun r =>
    keepsFenced_foldl _ _ (fun r q _ => keepsFenced_dropPart r v.slice q.1 q.2) r
  have listed : ∀ r : State, KeepsFenced v.slice r { r with invocations := recErase Invocation.id r.invocations v.id } := fun r =>
    keepsFenced_of_eq rfl rfl rfl rfl
  unfold State.freeInvocation
  refine (items s).trans ((ctxs _).trans (KeepsFenced.trans ?_ ((parts _).trans (listed _))))
  split
  · exact .refl _ _
  · exact keepsFenced_modCluster _ _ _ _

/-- The invocations of a slice end. -/
theorem keepsFenced_endInvocations (s : State) (n : Nat) (a : Answer) :
    KeepsFenced n s (s.endInvocations (fun v => v.slice == n) a) := by
  refine keepsFenced_foldl _ _ (fun r v hv => ?_) s
  have here : v.slice = n := beq_iff_eq.mp (List.mem_filter.mp hv).2
  exact (here ▸ keepsFenced_freeInvocation r v).trans (keepsFenced_of_frame (finish_frame _ v.hdr a (Frame.refl 0x200 _) rfl) rfl)

/-! ### A slice that goes offline (R382, R383) -/

theorem fenceOf_freeDigest (s : State) (no : Nat) {v : UnitId} (hv : v.kind = 9) : (s.freeDigest no).fenceOf v = s.fenceOf v := by
  have other : UnitId.digest no ≠ v := fun e => absurd hv (by rw [← e]; exact show ¬ (0x20 = 9) by decide)
  have kept : ∀ l : List (UnitId × Fence), (l.filter fun p => p.1 != UnitId.digest no).find? (fun p => p.1 == v) =
      l.find? fun p => p.1 == v := fun l => by
    rw [List.find?_filter]
    congr 1
    funext p
    by_cases e : p.1 = v
    · simp [e, other.symm]
    · simp [e]
  unfold State.freeDigest
  dsimp only
  split
  · simp only [State.fenceOf, State.setFence, List.find?_append, kept, List.find?_cons, beq_false_of_ne other, List.find?_nil,
      Option.or_none]
  · rfl

theorem keepsFenced_abandon (s : State) (n : Nat) (g : Ingest) : KeepsFenced n s (s.abandon n g) := by
  have frame := abandon_frame s n g (Frame.refl 0x200001020200 s) rfl
  refine ⟨fun a _ => rd_of_regs (frame.same .regs rfl) (frame.same .part rfl) a, fun v hv => ?_,
    fun hs => (slm_of_frame frame rfl n).trans hs⟩
  have cleared : ∀ (l : List Version) (r : State),
      (l.foldl (fun s w => s.clearCond (.programmed n w.wslot)) r).fences = r.fences := fun l r =>
    (Frame.foldl l r (Frame.refl 0x200 r) fun t w h => clearCond_frame t _ h rfl).same .fences rfl
  unfold State.abandon
  dsimp only
  split
  · exact fenceOf_congr (cleared _ s) v
  · exact (fenceOf_freeDigest _ _ hv).trans (fenceOf_congr (cleared _ s) v)

theorem keepsFenced_drivePwm (n : Nat) (s : State) : KeepsFenced n s s.drivePwm := keepsFenced_of_eq rfl rfl rfl rfl

theorem keepsFenced_modPower (n : Nat) (s : State) (f : Power → Power) : KeepsFenced n s (s.modPower f) := keepsFenced_of_eq rfl rfl rfl rfl

theorem keepsFenced_setMode (n : Nat) (s : State) (m : Nat) : KeepsFenced n s (s.setMode m) := by
  have pointed : ∀ (f : Power → Power) (v : Int), KeepsFenced n s (((s.putF Adr.pwSts 2 0 m).modPower f).wrQ (Adr.pwLoopSp 1) v) :=
    fun f _ => (keepsFenced_wr_hub n s _ (by decide)).trans ((keepsFenced_modPower n _ f).trans (keepsFenced_wr_hub n _ _ (by decide)))
  unfold State.setMode
  refine .trans ?_ (keepsFenced_drivePwm n _)
  split
  · exact pointed _ _
  · exact (pointed _ _).trans (keepsFenced_wr_hub n _ _ (by decide))

theorem keepsFenced_evalArmed (n : Nat) (s : State) : KeepsFenced n s (s.evalArmed false) := by
  have shown : ∀ b, KeepsFenced n s (s.putBit Adr.pwSts 3 b) := fun b => by
    cases b <;> exact keepsFenced_wr_hub n s _ (by decide)
  unfold State.evalArmed
  dsimp only
  split
  · exact (shown _).trans (keepsFenced_wr_hub n _ _ (by decide))
  · exact shown _

theorem keepsFenced_openInterval (n : Nat) (s : State) (k source : Nat) : KeepsFenced n s (s.openInterval k source) :=
  keepsFenced_of_frame (openInterval_frame s k source (Frame.refl 0x100000000000 s) rfl) rfl

theorem keepsFenced_declareUnhealthy (n : Nat) (s : State) (cause : Nat) : KeepsFenced n s (s.declareUnhealthy cause) := by
  have noted : ∀ f : Power → Power, KeepsFenced n s
      (((((s.setBit Adr.pwSts 4).putF Adr.pwHuSts 31 28 cause).setBit Adr.pwEvt 3).openInterval 2 cause).modPower f) := fun f =>
    (keepsFenced_wr_hub n s _ (by decide)).trans ((keepsFenced_wr_hub n _ _ (by decide)).trans
      ((keepsFenced_wr_hub n _ _ (by decide)).trans ((keepsFenced_openInterval n _ _ _).trans (keepsFenced_modPower n _ f))))
  unfold State.declareUnhealthy
  split
  · exact .refl n s
  · refine .trans ?_ (keepsFenced_evalArmed n _)
    split
    · exact (noted _).trans (keepsFenced_modPower n _ _)
    · split
      · exact (noted _).trans (keepsFenced_setMode n _ _)
      · exact noted _

theorem keepsFenced_lostData (n : Nat) (s : State) (ns : List Nat) : KeepsFenced n s (s.lostData ns) := by
  have raised : ∀ (l : List Nat) (e : AsyncEvent) (r : State), KeepsFenced n r (l.foldl (fun s c => s.raise c e) r) := fun l e r =>
    keepsFenced_foldl _ l (fun r c _ => keepsFenced_of_frame (raise_frame r c e (Frame.refl 0x300 r) rfl) rfl) r
  unfold State.lostData
  exact .trans (keepsFenced_declareUnhealthy n s 8) (keepsFenced_foldl _ _ (fun r o _ => raised _ _ r) _)

theorem keepsFenced_openLoop {k : Nat} (n : Nat) (s : State) (hk : k < 0x1000) : KeepsFenced n s (s.openLoop k) := by
  have closed : KeepsFenced n s (s.clrBit (Adr.pwLoopCtl k) 31) := keepsFenced_wr_hub n s _ (by unfold Adr.pwLoopCtl; omega)
  have out : ∀ (r : State) (v : Int), KeepsFenced n r (r.wrQ (Adr.pwLoopOut k) v) := fun r v =>
    keepsFenced_wr_hub n r _ (by unfold Adr.pwLoopOut; omega)
  unfold State.openLoop
  dsimp only
  split
  · exact closed.trans ((out _ _).trans (keepsFenced_drivePwm n _))
  · split
    · exact closed.trans (out _ _)
    · exact closed

/-- The data of a slice that goes offline: landed, or lost. -/
def landedOrLost (s : State) (n : Nat) : State :=
  if s.canLand n then s.landSlice n [] else if (s.slice n).versions.any fun v => !v.acked.isEmpty then s.lostData [n] else s

/-- The ingests, the invocations and the commands that wait for a slice that goes offline end. -/
def workEnded (s : State) (n : Nat) : State :=
  let s := ((s.slice n).ingests).foldl (fun s g => s.abandon n g) s
  let s := s.endInvocations (fun v => v.slice == n) (ansSt stOffline)
  s.mapInflight fun x =>
    if x.conds.any fun q => match q with
        | .programmed m _ => m == n
        | _ => false
    then { x with answer := ansSt stOffline, conds := [] } else x

/-- The slice off, and what shows it. -/
def shownOffline (s : State) (n : Nat) : State :=
  let s := s.modSlice n fun x => { x.powered with mode := .offline }
  let s := (s.putF Adr.tcSts 23 16 (s.fld Adr.tcSts 23 16 ||| 2 ^ n)).setBit Adr.tcEvt 3
  let s := s.openLoop (n + 3)
  [2 * n, 2 * n + 1].foldl (fun s g =>
    if (List.range 4).any fun k => (List.range 64).any fun c =>
        let w := s.rd (Adr.ckBondActive (cellIx c (bondRow g k)))
        entKind (entryA w) == 1 || entKind (entryB w) == 1
    then s.sealedOut g else s) s

theorem goOffline_eq (s : State) (n : Nat) : s.goOffline n =
    if !s.hasSlice n || (s.slice n).mode == SliceMode.offline || (s.slice n).mode == SliceMode.off then s
    else shownOffline (workEnded (landedOrLost s n) n) n := rfl

theorem keepsFenced_landedOrLost (s : State) (n : Nat) : KeepsFenced n s (landedOrLost s n) := by
  unfold landedOrLost
  split
  · exact keepsFenced_of_frame (landSlice_frame s n [] (Frame.refl 0x20000020300 s) rfl) rfl
  · split
    · exact keepsFenced_lostData n s [n]
    · exact .refl n s

theorem keepsFenced_workEnded (s : State) (n : Nat) : KeepsFenced n s (workEnded s n) := by
  have mapped : ∀ (f : InFlight → InFlight) (r : State), KeepsFenced n r (r.mapInflight f) := fun f r => keepsFenced_of_eq rfl rfl rfl rfl
  exact (keepsFenced_foldl _ _ (fun r g _ => keepsFenced_abandon r n g) s).trans
    ((keepsFenced_endInvocations _ n _).trans (mapped _ _))

theorem keepsFenced_shownOffline (s : State) (h : n < 0x800) : KeepsFenced n s (shownOffline s n) := by
  have off : KeepsFenced n s (s.modSlice n fun x => { x.powered with mode := .offline }) := keepsFenced_modSlice s n _ fun _ _ => rfl
  have sealedOut : ∀ (r : State) (g : Nat), KeepsFenced n r (r.sealedOut g) := fun r g => keepsFenced_openInterval n r 1 g
  refine .trans ?_ (keepsFenced_foldl _ _ (fun r g _ => ?_) _)
  · exact off.trans ((keepsFenced_wr_hub n _ _ (by decide)).trans ((keepsFenced_wr_hub n _ _ (by decide)).trans
      (keepsFenced_openLoop n _ (by omega))))
  · split
    · exact sealedOut r g
    · exact .refl n r

theorem keepsFenced_goOffline (s : State) (n : Nat) : KeepsFenced n s (s.goOffline n) := by
  rw [goOffline_eq]
  split
  next => exact .refl n s
  next h =>
    have has : n < s.part.slices := by
      simp only [Bool.or_eq_true, Bool.not_eq_true', not_or, Bool.not_eq_false] at h
      exact of_decide_eq_true h.1.1
    have few := part_slices_le s.part
    exact (keepsFenced_landedOrLost s n).trans ((keepsFenced_workEnded _ n).trans (keepsFenced_shownOffline _ (by omega)))

theorem keepsFenced_checkOffline (s : State) (n : Nat) : KeepsFenced n s (s.checkOffline n) := by
  unfold State.checkOffline
  dsimp only
  split
  · exact keepsFenced_goOffline s n
  · exact .refl n s

end Sys2Proof.Proofs
end

section
/-!
DRAM channels that start or end a retraining (R294 to R296, R300): READY, or FENCED for fault.
-/

namespace Sys2Proof.Proofs

open Sys2Proof.Machine Sys2Proof.Laws

variable {F : Nat} {s t u : State} {n c : Nat}

/-! ### The fence of a channel (R296, R377) -/

theorem fenceOf_setFence (s : State) (v : UnitId) (f : Fence) : (s.setFence v (some f)).fenceOf v = some f := by
  have gone : (s.fences.filter fun p => p.1 != v).find? (fun p => p.1 == v) = none := by
    rw [List.find?_filter]
    exact List.find?_eq_none.mpr fun p _ => by by_cases e : p.1 = v <;> simp [e]
  simp only [State.fenceOf, State.setFence, List.find?_append, gone, Option.none_or, List.find?_cons, beq_self_eq_true, Option.map_some]

theorem fenceOf_markFault (s : State) (v : UnitId) (cause : FenceCause) : (s.markFault v cause).fenceOf v = some .forFault := by
  have counted : ∀ (r : State) (a : Nat), (if v.slice < 8 then r.inc a else r).fences = r.fences := fun r a => by
    split <;> rfl
  have noted : ∀ (r : State) (w : Word), (if r.bit Adr.tcFaultLast 31 then r else r.wr Adr.tcFaultLast w).fences = r.fences := fun r w => by
    split <;> rfl
  have marked : (s.markFault v cause).fences = (s.setFence v (some .forFault)).fences := by
    unfold State.markFault
    refine ((sealFence_frame _ v (Frame.refl 0x100000000000 _) rfl).same .fences rfl).trans ?_
    exact (noted _ _).trans (counted _ _)
  rw [fenceOf_congr marked]
  exact fenceOf_setFence s v .forFault

/-- A DRAM channel out of service: FENCED, its event set, fenced for fault (R296). -/
structure ChannelOut (n c : Nat) (s : State) : Prop where
  state : s.dramState n c = 6
  event : s.bit (Adr.dmEvt n) 0 = true
  fence : s.fenceOf (UnitId.dramCh n c) = some .forFault

theorem channelOut_of_keeps (h : ChannelOut n c s) (hc : c < 2) (k : KeepsFenced n s t) : ChannelOut n c t := by
  obtain ⟨state, event, fence⟩ := h
  have status : t.rd (Adr.dmChSts n c) = s.rd (Adr.dmChSts n c) :=
    k.regs _ (by unfold dramReg Adr.dmChSts Adr.dmEvt sliceAdr; omega)
  have events : t.rd (Adr.dmEvt n) = s.rd (Adr.dmEvt n) := k.regs _ (by unfold dramReg Adr.dmEvt sliceAdr; omega)
  refine ⟨?_, ?_, (k.fences _ rfl).trans fence⟩
  · rw [State.dramState, State.fld, status]
    exact state
  · rw [State.bit, events]
    exact event

/-- The registers that show a fenced channel. -/
def shownFenced (s : State) (n c : Nat) : State :=
  let s := (s.putF (Adr.dmChSts n c) 2 0 6).setBit (Adr.dmEvt n) 0
  let s := s.setBit (Adr.dmSts n) 0
  let both := (s.fenceOf (UnitId.dramCh n (1 - c))).isSome
  let s := if both then s.setBit (Adr.dmSts n) 1 else s
  let s := (s.setBit (Adr.ftSts n) 6).setBit (Adr.ftEvt n) 1
  if s.fld (Adr.ftSts n) 2 0 = 2 then s.putF (Adr.ftSts n) 2 0 3 else s

theorem keepsFenced_notice (n : Nat) (s : State) (kind source first last : Nat) : KeepsFenced n s (s.notice kind source first last) := by
  have raised : ∀ (r : State) (f : Recorder → Recorder) (a : Nat), a < 0x1000000 → KeepsFenced n r ((r.modRec f).addF a 31 0 1) :=
    fun r f a ha => (keepsFenced_of_eq (s := r) (t := r.modRec f) rfl rfl rfl rfl).trans (keepsFenced_wr_hub n (r.modRec f) _ ha)
  unfold State.notice State.event
  split
  · split
    · exact keepsFenced_of_eq rfl rfl rfl rfl
    · exact raised s _ _ (by decide)
  · exact raised s _ _ (by decide)

/-- Only DM_STS, FT_STS and FT_EVT change beyond the channel's status and its event. -/
theorem rd_shownFenced {a : Nat} (s : State) (hd : a ≠ Adr.dmSts n) (hs : a ≠ Adr.ftSts n) (he : a ≠ Adr.ftEvt n) :
    (shownFenced s n c).rd a = ((s.putF (Adr.dmChSts n c) 2 0 6).setBit (Adr.dmEvt n) 0).rd a := by
  have both : ∀ (r : State) (b : Bool), (if b then r.setBit (Adr.dmSts n) 1 else r).rd a = r.rd a := fun r b => by
    split
    · exact rd_setBit_of_ne r 1 hd
    · rfl
  have through : ∀ r : State, (if r.fld (Adr.ftSts n) 2 0 = 2 then r.putF (Adr.ftSts n) 2 0 3 else r).rd a = r.rd a := fun r => by
    split
    · exact rd_putF_of_ne r 2 0 3 hs
    · rfl
  exact (through _).trans ((rd_setBit_of_ne _ 1 he).trans ((rd_setBit_of_ne _ 6 hs).trans ((both _ _).trans (rd_setBit_of_ne _ 0 hd))))

theorem fences_shownFenced (s : State) (n c : Nat) : (shownFenced s n c).fences = s.fences := by
  have set : ∀ (r : State) (a k : Nat), (r.setBit a k).fences = r.fences := fun _ _ _ => rfl
  have both : ∀ (r : State) (b : Bool), (if b then r.setBit (Adr.dmSts n) 1 else r).fences = r.fences := fun r b => by
    split <;> rfl
  have through : ∀ r : State, (if r.fld (Adr.ftSts n) 2 0 = 2 then r.putF (Adr.ftSts n) 2 0 3 else r).fences = r.fences := fun r => by
    split <;> rfl
  exact (through _).trans ((set _ _ _).trans ((set _ _ _).trans ((both _ _).trans ((set _ _ _).trans (set _ _ _)))))

theorem shownFenced_shows (s : State) (n : Nat) (hc : c < 2) :
    (shownFenced s n c).dramState n c = 6 ∧ (shownFenced s n c).bit (Adr.dmEvt n) 0 = true := by
  constructor
  · rw [State.dramState, State.fld, rd_shownFenced s, rd_setBit_of_ne]
    · exact fld_putF_self s _ 2 0 6 (by decide) (by decide)
    all_goals unfold Adr.dmChSts
    · unfold Adr.dmEvt sliceAdr
      omega
    · unfold Adr.dmSts sliceAdr
      omega
    · unfold Adr.ftSts sliceAdr
      omega
    · unfold Adr.ftEvt sliceAdr
      omega
  · rw [State.bit, rd_shownFenced s]
    · exact bit_setBit_self _ _ _ (by decide)
    all_goals unfold Adr.dmEvt
    · unfold Adr.dmSts sliceAdr
      omega
    · unfold Adr.ftSts sliceAdr
      omega
    · unfold Adr.ftEvt sliceAdr
      omega

theorem slm_cleared (s : State) (n : Nat) (f : Slice → Slice) (h : ∀ x, (f x).slm = []) : ((s.modSlice n f).slice n).slm = [] := by
  by_cases hn : n < s.slices.length
  · rw [slice_modSlice_self f hn]
    exact h _
  · rw [State.slice, List.getElem?_eq_none (by rw [slices_length_modSlice]; omega)]
    rfl

/-- What the fence of a channel takes out of its slice, with the notice of it. -/
def memoryFenced (s : State) (n c : Nat) : State :=
  (s.notice 6 (2 * n + c) s.now 0).modSlice n fun x =>
    { x with slm := [], merges := x.merges.filter (fun m => m.ch != c), drams := modAt x.drams c fun d => { d with queue := [] } }

theorem dramFenced_eq (s : State) (n c : Nat) : s.dramFenced n c =
    (memoryFenced (shownFenced s n c) n c).endInvocations (fun v => v.slice == n) (runAnswer stInternal 6 0 0) := rfl

theorem dramFenced_out (hc : c < 2) (hf : s.fenceOf (UnitId.dramCh n c) = some .forFault) :
    ChannelOut n c (s.dramFenced n c) ∧ ((s.dramFenced n c).slice n).slm = [] := by
  obtain ⟨state, event⟩ := shownFenced_shows s n hc
  have shown : ChannelOut n c (shownFenced s n c) := ⟨state, event, (fenceOf_congr (fences_shownFenced s n c) _).trans hf⟩
  have cleared : KeepsFenced n (shownFenced s n c) (memoryFenced (shownFenced s n c) n c) :=
    (keepsFenced_notice n _ _ _ _ _).trans (keepsFenced_modSlice _ n _ fun _ _ => rfl)
  have ended := keepsFenced_endInvocations (memoryFenced (shownFenced s n c) n c) n (runAnswer stInternal 6 0 0)
  rw [dramFenced_eq]
  exact ⟨channelOut_of_keeps shown hc (cleared.trans ended), ended.memory (slm_cleared _ n _ fun _ => rfl)⟩

theorem built_dramCh (hs : s.hasSlice n = true) (hc : c < 2) : s.built (UnitId.dramCh n c) = true := by
  have number : decide (c < kindCount 9) = true := decide_eq_true hc
  exact Bool.and_eq_true_iff.mpr ⟨number, hs⟩

/-- A fault report of a channel in service takes it out. -/
theorem fenceFault_dramCh (cause : FenceCause) (hs : s.hasSlice n = true) (hc : c < 2) (hf : s.fenceOf (UnitId.dramCh n c) = none) :
    ChannelOut n c (s.fenceFault (UnitId.dramCh n c) cause) ∧ ((s.fenceFault (UnitId.dramCh n c) cause).slice n).slm = [] := by
  have one : s.fenceOne (UnitId.dramCh n c) cause = (s.markFault (UnitId.dramCh n c) cause).dramFenced n c := by
    unfold State.fenceOne
    rw [built_dramCh hs hc, hf]
    rfl
  obtain ⟨out, clear⟩ := dramFenced_out hc (fenceOf_markFault s (UnitId.dramCh n c) cause)
  have fault : s.fenceFault (UnitId.dramCh n c) cause =
      if n < 8 ∧ (s.fenceOne (UnitId.dramCh n c) cause).hasSlice n ∧ ((s.fenceOne (UnitId.dramCh n c) cause).slice n).mode ≠ .off
      then (s.fenceOne (UnitId.dramCh n c) cause).checkOffline n else s.fenceOne (UnitId.dramCh n c) cause := rfl
  rw [fault, one]
  split
  · have kept := keepsFenced_checkOffline ((s.markFault (UnitId.dramCh n c) cause).dramFenced n c) n
    exact ⟨channelOut_of_keeps out hc kept, kept.memory clear⟩
  · exact ⟨out, clear⟩

/-- The same where the channel's registers were written first. -/
theorem fenceFault_dramCh_of_regs (cause : FenceCause) (hp : t.part = s.part) (hfs : t.fences = s.fences) (hs : s.hasSlice n = true)
    (hc : c < 2) (hf : s.fenceOf (UnitId.dramCh n c) = none) :
    ChannelOut n c (t.fenceFault (UnitId.dramCh n c) cause) ∧ ((t.fenceFault (UnitId.dramCh n c) cause).slice n).slm = [] := by
  refine fenceFault_dramCh cause ?_ hc ((fenceOf_congr hfs _).trans hf)
  rw [State.hasSlice, hp]
  exact hs

/-! ### Start and retraining (R294, R295, R300) -/

theorem dramThere_has (h : s.dramThere n c = true) : s.hasSlice n = true ∧ c < 2 := by
  obtain ⟨both, -⟩ := Bool.and_eq_true_iff.mp h
  obtain ⟨has, hc⟩ := Bool.and_eq_true_iff.mp both
  exact ⟨has, of_decide_eq_true hc⟩

/-- A channel that is READY after a training. -/
def readied (s : State) (n c : Nat) : State := (s.putF (Adr.dmChSts n c) 2 0 4).noteTraining n c

theorem rd_modDram (s : State) (n c : Nat) (f : Dram → Dram) (a : Nat) : (s.modDram n c f).rd a = s.rd a := rfl

theorem dramState_readied (s : State) (n c : Nat) : (readied s n c).dramState n c = 4 := by
  rw [State.dramState, State.fld, readied, State.noteTraining, rd_modDram]
  refine (fld_putF_of_out _ (Adr.dmChSts n c) 31 24 _ 2 0 (by decide) (by decide) (by decide) (by decide)).trans ?_
  exact fld_putF_self s _ 2 0 4 (by decide) (by decide)

theorem fences_readied (s : State) (n c : Nat) : (readied s n c).fences = s.fences :=
  (noteTraining_frame _ n c (putF_frame s (Adr.dmChSts n c) 2 0 4 (Frame.refl 0x20004 s) rfl) rfl).same .fences rfl

theorem execDramChannelStart_due (fails selftest : Nat) (ht : s.dramThere n c = true) (h0 : s.dramState n c = 0) :
    exec (.dramChannelStart n c fails selftest) s = .next (
      if 3 ≤ fails then (s.putF (Adr.dmChSts n c) 23 16 (min 3 fails)).fenceFault (UnitId.dramCh n c) .train
      else if selftest ≠ 0 then
        (((s.putF (Adr.dmChSts n c) 23 16 (min 3 fails)).putF (Adr.dmChSts n c) 15 8 selftest).setBit (Adr.ecSum n) 6).fenceFault
          (UnitId.dramCh n c) .train
      else readied (s.putF (Adr.dmChSts n c) 23 16 (min 3 fails)) n c) := by
  have e : exec (.dramChannelStart n c fails selftest) s = execDramChannelStart n c fails selftest s := rfl
  rw [e, execDramChannelStart, ht, h0]
  dsimp only
  rw [if_neg (by decide)]
  split_ifs <;> rfl

theorem dramChannelStart_ends (fails selftest : Nat) (ht : s.dramThere n c = true) (h0 : s.dramState n c = 0)
    (hf : s.fenceOf (UnitId.dramCh n c) = none) :
    Completes (.dramChannelStart n c fails selftest) s fun t =>
      if fails < 3 ∧ selftest = 0 then t.dramState n c = 4 ∧ t.fences = s.fences
      else t.dramState n c = 6 ∧ t.fenceOf (UnitId.dramCh n c) = some .forFault ∧ (s.slices.length = 8 → (t.slice n).slm = []) := by
  obtain ⟨has, hc⟩ := dramThere_has ht
  refine ⟨_, execDramChannelStart_due fails selftest ht h0, ?_⟩
  beta_reduce
  by_cases h3 : 3 ≤ fails
  · obtain ⟨⟨state, -, fence⟩, clear⟩ :=
      fenceFault_dramCh_of_regs .train (putF_part s (Adr.dmChSts n c) 23 16 (min 3 fails)) (putF_fences _ _ _ _ _) has hc hf
    rw [if_pos h3, if_neg (by omega)]
    exact ⟨state, fence, fun _ => clear⟩
  rw [if_neg h3]
  by_cases hs : selftest = 0
  · rw [if_neg (not_not.mpr hs), if_pos ⟨by omega, hs⟩]
    exact ⟨dramState_readied _ n c, (fences_readied _ n c).trans (putF_fences s _ _ _ _)⟩
  · obtain ⟨⟨state, -, fence⟩, clear⟩ := fenceFault_dramCh_of_regs (t := ((s.putF (Adr.dmChSts n c) 23 16 (min 3 fails)).putF
      (Adr.dmChSts n c) 15 8 selftest).setBit (Adr.ecSum n) 6) .train (by rw [setBit_part, putF_part, putF_part])
      (by rw [setBit_fences, putF_fences, putF_fences]) has hc hf
    rw [if_pos hs, if_neg fun h => hs h.2]
    exact ⟨state, fence, fun _ => clear⟩

theorem dramRetrainDone_works (h5 : s.dramState n c = 5) :
    Completes (.dramRetrainDone n c true) s fun t => t.dramState n c = 4 ∧ t.bit (Adr.dmEvt n) 1 = true ∧ t.fences = s.fences := by
  have e : exec (.dramRetrainDone n c true) s = .next ((readied s n c).setBit (Adr.dmEvt n) 1) := by
    have e : exec (.dramRetrainDone n c true) s = execDramRetrainDone n c true s := rfl
    rw [e, execDramRetrainDone, h5]
    rfl
  have other : Adr.dmChSts n c ≠ Adr.dmEvt n := by
    unfold Adr.dmChSts Adr.dmEvt sliceAdr
    omega
  refine ⟨_, e, ?_, bit_setBit_self _ _ _ (by decide), (setBit_fences _ _ _).trans (fences_readied s n c)⟩
  rw [State.dramState, State.fld, rd_setBit_of_ne _ 1 other]
  exact dramState_readied s n c

theorem dramRetrainDone_fails (h5 : s.dramState n c = 5) (hs : s.hasSlice n = true) (hc : c < 2)
    (hf : s.fenceOf (UnitId.dramCh n c) = none) :
    Completes (.dramRetrainDone n c false) s fun t => t.dramState n c = 6 ∧
      t.fenceOf (UnitId.dramCh n c) = some .forFault ∧ t.bit (Adr.dmEvt n) 0 = true := by
  have e : exec (.dramRetrainDone n c false) s = .next ((s.addF (Adr.dmChSts n c) 23 16 1).fenceFault (UnitId.dramCh n c) .train) := by
    have e : exec (.dramRetrainDone n c false) s = execDramRetrainDone n c false s := rfl
    rw [e, execDramRetrainDone, h5]
    rfl
  obtain ⟨⟨state, event, fence⟩, -⟩ := fenceFault_dramCh_of_regs (t := s.addF (Adr.dmChSts n c) 23 16 1) .train (addF_part s _ _ _ _)
    (addF_fences s _ _ _ _) hs hc hf
  exact ⟨_, e, state, fence, event⟩

end Sys2Proof.Proofs
end

section
/-!
Refreshes, retrainings that fall due, and the merge buffer (R26, R292, R295, R299).
-/

namespace Sys2Proof.Proofs

open Sys2Proof.Machine Sys2Proof.Laws

variable {s t : State} {n m c : Nat}

/-! ### Refreshes (R26, R292) -/

/-- Does the refresh of an index in its course count for a slice (R292)? -/
def refreshes (s : State) (k n : Nat) : Bool := s.dramThere n 0 && (k == 0 || (k == 1 && (s.hotRefresh n 0 || s.hotRefresh n 1)))

/-- The longest refresh-caused wait of a slice after a refresh. -/
def refreshMax (s : State) (ns k n : Nat) : Nat :=
  if refreshes s k n then max (min ns (dramGuard + s.tRfc n)) (s.fld (Adr.dmRefMaxNs n) 15 0) else s.fld (Adr.dmRefMaxNs n) 15 0

/-- The refresh noted for one slice. -/
def noteRefresh (ns k : Nat) (s : State) (n : Nat) : State :=
  if refreshes s k n then
    s.wr (Adr.dmRefMaxNs n) (BitVec.ofNat 32 (max (min ns (dramGuard + s.tRfc n)) (s.fld (Adr.dmRefMaxNs n) 15 0)))
  else s

theorem noteRefresh_frame (ns k : Nat) (s : State) (n : Nat) : Frame 0x4 s (noteRefresh ns k s n) := by
  unfold noteRefresh
  split
  · exact wr_frame _ _ (Frame.refl 0x4 s) rfl
  · exact Frame.refl 0x4 s

theorem rd_noteRefresh_of_ne {a : Nat} (ns k : Nat) (s : State) (h : a ≠ Adr.dmRefMaxNs m) : (noteRefresh ns k s m).rd a = s.rd a := by
  unfold noteRefresh
  split
  · exact rd_wr_of_ne s _ h
  · rfl

theorem fld_noteRefresh_self (ns k : Nat) (s : State) (n : Nat) :
    (noteRefresh ns k s n).fld (Adr.dmRefMaxNs n) 15 0 = refreshMax s ns k n := by
  unfold noteRefresh refreshMax
  split
  · have old : s.fld (Adr.dmRefMaxNs n) 15 0 < 2 ^ 16 := Nat.mod_lt _ (by decide)
    have wait : dramGuard + s.tRfc n < 2 ^ 16 := by
      unfold dramGuard State.tRfc
      split <;> decide
    rw [State.fld, rd_wr_self, bits, BitVec.toNat_ofNat]
    change _ % 2 ^ 32 % 2 ^ 16 = _
    omega
  · rfl

/-- The refresh of another slice changes nothing that a slice's own depends on. -/
theorem refreshMax_noteRefresh (ns k : Nat) (s : State) (h : n ≠ m) : refreshMax (noteRefresh ns k s m) ns k n = refreshMax s ns k n := by
  have frame := noteRefresh_frame ns k s m
  have status : (noteRefresh ns k s m).rd (Adr.dmSts n) = s.rd (Adr.dmSts n) :=
    rd_noteRefresh_of_ne ns k s (by unfold Adr.dmSts Adr.dmRefMaxNs sliceAdr; omega)
  have config : (noteRefresh ns k s m).rd (Adr.dmCfg n) = s.rd (Adr.dmCfg n) :=
    rd_noteRefresh_of_ne ns k s (by unfold Adr.dmCfg Adr.dmRefMaxNs sliceAdr; omega)
  have wait : (noteRefresh ns k s m).rd (Adr.dmRefMaxNs n) = s.rd (Adr.dmRefMaxNs n) :=
    rd_noteRefresh_of_ne ns k s (by unfold Adr.dmRefMaxNs sliceAdr; omega)
  have there : (noteRefresh ns k s m).dramThere n 0 = s.dramThere n 0 := by
    rw [State.dramThere, State.dramThere, State.hasSlice, State.hasSlice, slice_congr (frame.same .slices rfl), frame.same .part rfl]
  have hot : ∀ c, (noteRefresh ns k s m).hotRefresh n c = s.hotRefresh n c := fun c => congrArg (BitVec.getLsbD · (2 + c)) status
  have time : (noteRefresh ns k s m).tRfc n = s.tRfc n := by
    rw [State.tRfc, State.tRfc, State.fld, State.fld, config]
  have counts : refreshes (noteRefresh ns k s m) k n = refreshes s k n := by
    rw [refreshes, refreshes, there, hot, hot]
  rw [refreshMax, refreshMax, counts, time, State.fld, State.fld, wait]

/-- Each slice of a list has its longest wait after the refresh. -/
theorem fld_foldl_noteRefresh (ns k : Nat) (l : List Nat) (hl : l.Nodup) (s : State) (hn : n ∈ l) :
    (l.foldl (noteRefresh ns k) s).fld (Adr.dmRefMaxNs n) 15 0 = refreshMax s ns k n := by
  induction l generalizing s with
  | nil => exact absurd hn List.not_mem_nil
  | cons m l ih =>
    obtain ⟨notIn, rest⟩ := List.nodup_cons.mp hl
    by_cases e : n = m
    · subst e
      have kept : (l.foldl (noteRefresh ns k) (noteRefresh ns k s n)).rd (Adr.dmRefMaxNs n) = (noteRefresh ns k s n).rd (Adr.dmRefMaxNs n) :=
        rd_foldl l _ fun r x hx => rd_noteRefresh_of_ne ns k r fun ha => notIn (by
          have same : n = x := by unfold Adr.dmRefMaxNs sliceAdr at ha; omega
          exact same ▸ hx)
      rw [List.foldl_cons, State.fld, kept]
      exact fld_noteRefresh_self ns k s n
    · rw [List.foldl_cons, ih rest _ ((List.mem_cons.mp hn).resolve_left e), refreshMax_noteRefresh ns k s e]

theorem execDramRefresh_running (ns : Nat) (hh : s.held = false) (hr : s.course.running = true) :
    exec (.dramRefresh ns) s = .next (s.sliceList.foldl (noteRefresh ns s.course.refreshed)
      (s.modCourse fun c => { c with refreshed := s.course.refreshed + 1 })) := by
  have e : exec (.dramRefresh ns) s = execDramRefresh ns s := rfl
  rw [e, execDramRefresh, hh, hr]
  rfl

theorem execDramRefresh_idle (ns : Nat) (h : s.held = true ∨ s.course.running = false) : exec (.dramRefresh ns) s = .next s := by
  have e : exec (.dramRefresh ns) s = execDramRefresh ns s := rfl
  rw [e, execDramRefresh]
  rcases h with h | h <;> rw [h]
  · rfl
  · rw [Bool.not_false, Bool.or_true]
    rfl

theorem dramRefresh_notes (ns : Nat) (hh : s.held = false) (hr : s.course.running = true) :
    Completes (.dramRefresh ns) s fun t =>
      OnlyChanges [.regs, .course] s t ∧ t.course = { s.course with refreshed := s.course.refreshed + 1 } ∧
      ∀ n, s.dramThere n 0 = true →
        t.fld (Adr.dmRefMaxNs n) 15 0 =
          if s.course.refreshed = 0 ∨ s.course.refreshed = 1 ∧ (s.hotRefresh n 0 = true ∨ s.hotRefresh n 1 = true) then
            max (min ns (dramGuard + s.tRfc n)) (s.fld (Adr.dmRefMaxNs n) 15 0)
          else s.fld (Adr.dmRefMaxNs n) 15 0 := by
  have run := execDramRefresh_running ns hh hr
  refine ⟨_, run, ?_, ?_, fun n hn => ?_⟩
  · exact onlyChanges_of_frame ((execDramRefresh_frame ns s (Frame.refl (partMask [.regs, .course]) s) rfl).keeps _ run)
  · exact (Frame.foldl _ _ (Frame.refl 0x4 _) fun r n h => h.comp (noteRefresh_frame ns _ r n) rfl).same .course rfl
  · have has : n < s.part.slices := of_decide_eq_true (dramThere_has hn).1
    rw [fld_foldl_noteRefresh ns _ s.sliceList List.nodup_range _ (List.mem_range.mpr has)]
    have same : refreshMax (s.modCourse fun c => { c with refreshed := s.course.refreshed + 1 }) ns s.course.refreshed n =
        refreshMax s ns s.course.refreshed n := rfl
    rw [same, refreshMax, refreshes, hn]
    simp only [Bool.true_and, Bool.or_eq_true, Bool.and_eq_true, beq_iff_eq]

/-! ### Retrainings that fall due (R295) -/

theorem dram_modDram (hn : n < s.slices.length) (hc : c < (s.slice n).drams.length) (f : Dram → Dram) :
    (s.modDram n c f).dram n c = f (s.dram n c) := by
  rw [State.dram, State.dram, State.modDram, slice_modSlice_self _ hn]
  simp only [modAt_get, if_true, List.getElem?_eq_getElem hc, Option.map_some, Option.getD_some]

/-- A retraining noted as due, with the course in which it first was. -/
def dueNow (now : Nat) (d : Dram) : Dram := if d.due then d else { d with due := true, dueAt := now }

theorem dueNow_of_due {d : Dram} (now : Nat) (h : d.due = true) : dueNow now d = d := if_pos h

theorem dueNow_of_new {d : Dram} (now : Nat) (h : d.due = false) : dueNow now d = { d with due := true, dueAt := now } :=
  if_neg (by rw [h]; decide)

theorem dueRetrain_ready (ht : s.dramThere n c = true) (h4 : s.dramState n c = 4) : s.dueRetrain n c = s.modDram n c (dueNow s.now) := by
  rw [State.dueRetrain, ht, h4]
  rfl

theorem dueRetrain_notes (h8 : s.slices.length = 8) (ht : s.dramThere n c = true) (hc : c < (s.slice n).drams.length)
    (h4 : s.dramState n c = 4) :
    ((s.dueRetrain n c).dram n c).due = true ∧ ((s.dram n c).due = false → ((s.dueRetrain n c).dram n c).dueAt = s.now) ∧
      ((s.dram n c).due = true → ((s.dueRetrain n c).dram n c).dueAt = (s.dram n c).dueAt) ∧ OnlyChanges [.slices] s (s.dueRetrain n c) := by
  have has : n < s.part.slices := of_decide_eq_true (dramThere_has ht).1
  have few := part_slices_le s.part
  have noted : (s.dueRetrain n c).dram n c = dueNow s.now (s.dram n c) := by
    rw [dueRetrain_ready ht h4, dram_modDram (by omega) hc]
  have only := onlyChanges_of_frame (dueRetrain_frame s n c (Frame.refl (partMask [.slices]) s) rfl)
  rw [noted]
  cases due : (s.dram n c).due with
  | false =>
    rw [dueNow_of_new _ due]
    exact ⟨rfl, fun _ => rfl, fun h => absurd h (by decide), only⟩
  | true =>
    rw [dueNow_of_due _ due]
    exact ⟨due, fun h => absurd h (by decide), fun _ => rfl, only⟩

/-- A retraining is due only on a channel that exists. -/
theorem lt_of_due (h : (s.dram n c).due = true) : n < s.slices.length ∧ c < (s.slice n).drams.length := by
  constructor
  · by_contra hn
    have off : s.slice n = State.sliceReset := by rw [State.slice, List.getElem?_eq_none (by omega)]; rfl
    rw [State.dram, off] at h
    rcases c with _ | _ | c <;> exact absurd h Bool.false_ne_true
  · by_contra hc
    rw [State.dram, List.getElem?_eq_none (by omega)] at h
    exact absurd h (by decide)

theorem retrainHoldExpiry_forces (h : (s.dram n c).due = true) :
    Completes (.retrainHoldExpiry n c) s fun t => t.dram n c = { s.dram n c with forced := true } ∧ OnlyChanges [.slices] s t := by
  have e : exec (.retrainHoldExpiry n c) s = .next (s.modDram n c fun d => { d with forced := true }) := by
    have e : exec (.retrainHoldExpiry n c) s = execRetrainHoldExpiry n c s := rfl
    rw [e, execRetrainHoldExpiry, h]
    rfl
  obtain ⟨hn, hc⟩ := lt_of_due h
  exact ⟨_, e, dram_modDram hn hc _, onlyChanges_of_frame (modDram_frame s n c _ (Frame.refl (partMask [.slices]) s) rfl)⟩

theorem execRetrainHoldExpiry_idle (h : (s.dram n c).due = false) : exec (.retrainHoldExpiry n c) s = .next s := by
  have e : exec (.retrainHoldExpiry n c) s = execRetrainHoldExpiry n c s := rfl
  rw [e, execRetrainHoldExpiry, h]
  rfl

/-! ### The merge buffer (R299) -/

section

variable {b : Nat} {e : MergeEntry}

/-- The entry read and written back. -/
def mergedBack (s : State) (n c : Nat) (e : MergeEntry) : State :=
  (s.inc (Adr.dmRmwCnt n c)).modSlice n fun x => { x with merges := x.merges.erase e }

/-- A burst of a channel poisoned. -/
@[reducible] def poisonedAt (b : Nat) (d : Dram) : Dram :=
  { d with poisoned := if d.poisoned.contains b then d.poisoned else d.poisoned ++ [b] }

/-- The entry merged with a line that could not be read, which is poisoned. -/
def mergedPoisoned (s : State) (n c b : Nat) (e : MergeEntry) : State :=
  (((mergedBack s n c e).countUe n c b).inc (Adr.ecPoison n c)).modDram n c (poisonedAt b)

theorem execMergeEntryTimeout_found (readOk : Bool) (h : (s.slice n).merges.find? (fun m => m.ch == c && m.burst == b) = some e) :
    exec (.mergeEntryTimeout n c b readOk) s = .next (if readOk then mergedBack s n c e else mergedPoisoned s n c b e) := by
  have run : exec (.mergeEntryTimeout n c b readOk) s = execMergeEntryTimeout n c b readOk s := rfl
  rw [run, execMergeEntryTimeout, h]
  cases readOk <;> rfl

theorem slice_of_merge (h : (s.slice n).merges.find? (fun m => m.ch == c && m.burst == b) = some e) : n < s.slices.length := by
  by_contra hn
  rw [State.slice, List.getElem?_eq_none (by omega)] at h
  exact Option.some_ne_none e h.symm

theorem merges_mergedBack (hn : n < s.slices.length) : ((mergedBack s n c e).slice n).merges = (s.slice n).merges.erase e :=
  congrArg Slice.merges (slice_modSlice_self (s := s.inc (Adr.dmRmwCnt n c)) _ hn)

theorem drams_mergedBack (s : State) (n c : Nat) (e : MergeEntry) : ((mergedBack s n c e).slice n).drams = (s.slice n).drams :=
  modSlice_keeps Slice.drams (s.inc (Adr.dmRmwCnt n c)) n n _ fun _ => rfl

theorem mem_poisonedAt (b : Nat) (d : Dram) : b ∈ (poisonedAt b d).poisoned := by
  dsimp only
  split
  next h => exact List.contains_iff_mem.mp h
  next => exact List.mem_append_right _ (List.mem_singleton_self b)

/-- The counts of an uncorrectable burst are registers. -/
theorem slices_counted (s : State) (n c b : Nat) (e : MergeEntry) :
    (((mergedBack s n c e).countUe n c b).inc (Adr.ecPoison n c)).slices = (mergedBack s n c e).slices :=
  (countUe_frame _ n c b (Frame.refl 0x4 (mergedBack s n c e)) rfl).same .slices rfl

theorem merges_mergedPoisoned (hn : n < s.slices.length) :
    ((mergedPoisoned s n c b e).slice n).merges = (s.slice n).merges.erase e := by
  refine (modSlice_keeps Slice.merges (((mergedBack s n c e).countUe n c b).inc (Adr.ecPoison n c)) n n
    (fun x => { x with drams := modAt x.drams c (poisonedAt b) }) fun _ => rfl).trans ?_
  rw [slice_congr (slices_counted s n c b e)]
  exact merges_mergedBack hn

theorem mem_mergedPoisoned (hn : n < s.slices.length) (hc : c < (s.slice n).drams.length) :
    b ∈ ((mergedPoisoned s n c b e).dram n c).poisoned := by
  have here : n < (((mergedBack s n c e).countUe n c b).inc (Adr.ecPoison n c)).slices.length := by
    rw [slices_counted]
    exact (slices_length_modSlice (s.inc (Adr.dmRmwCnt n c)) n _).symm ▸ hn
  have channel : c < ((((mergedBack s n c e).countUe n c b).inc (Adr.ecPoison n c)).slice n).drams.length := by
    rw [slice_congr (slices_counted s n c b e), drams_mergedBack]
    exact hc
  rw [mergedPoisoned, dram_modDram here channel]
  exact mem_poisonedAt b _

theorem mergeEntryTimeout_ends (readOk : Bool) (hc : c < (s.slice n).drams.length)
    (h : (s.slice n).merges.find? (fun m => m.ch == c && m.burst == b) = some e) :
    Completes (.mergeEntryTimeout n c b readOk) s fun t => (t.slice n).merges = (s.slice n).merges.erase e ∧
      (readOk = false → b ∈ (t.dram n c).poisoned) ∧ (readOk = true → (t.slice n).drams = (s.slice n).drams) ∧
      OnlyChanges [.regs, .slices] s t := by
  have run := execMergeEntryTimeout_found readOk h
  have only := onlyChanges_of_frame ((execMergeEntryTimeout_frame n c b readOk s (Frame.refl (partMask [.regs, .slices]) s) rfl).keeps _ run)
  have hn := slice_of_merge h
  refine ⟨_, run, ?_⟩
  cases readOk with
  | true => exact ⟨merges_mergedBack hn, fun h => absurd h (by decide), fun _ => drams_mergedBack s n c e, only⟩
  | false => exact ⟨merges_mergedPoisoned hn, fun _ => mem_mergedPoisoned hn hc, fun h => absurd h (by decide), only⟩

end

end Sys2Proof.Proofs
end

section
/-!
The DRAM scrubber (R298, R301), and the statement about the DRAM channels.
-/

namespace Sys2Proof.Proofs

open Sys2Proof.Machine Sys2Proof.Laws

variable {s t : State} {n a : Nat}

/-! ### Registers below the scrubber's address list -/

theorem rd_free (s : State) (a : Nat) : s.free.2.rd a = s.rd a := rfl

theorem rd_scrubAddr (s : State) (k v : Nat) (h : a < sliceAdr n 0x40340) : (s.wr64 (Adr.dmScrubAddrLo n k) v).rd a = s.rd a :=
  rd_wr64_of_ne s v (by unfold Adr.dmScrubAddrLo sliceAdr at *; omega) (by unfold Adr.dmScrubAddrLo sliceAdr at *; omega)

theorem rd_foldl_fst {α β : Type} {f : State × β → α → State × β} (l : List α) (p : State × β)
    (hf : ∀ q x, (f q x).1.rd a = q.1.rd a) : (l.foldl f p).1.rd a = p.1.rd a := by
  induction l generalizing p with
  | nil => rfl
  | cons x l ih => exact (ih _).trans (hf p x)

/-- The counts of corrected bursts stand among the slice's error registers. -/
theorem rd_countCe (s : State) (ce : Nat) (h : a < sliceAdr n 0x280000) : (s.countCe n ce).rd a = s.rd a := by
  refine rd_foldl_fst _ (s, ce) fun q k => ?_
  dsimp only
  generalize (if k = 39 then q.2 else q.1.free.1 % (q.2 + 1)) = v
  split
  · exact rd_free q.1 a
  · have sum : a ≠ Adr.ecSum n := by unfold Adr.ecSum; omega
    have lane : a ≠ Adr.ecDevce n (k / 10) (k % 10) := by unfold Adr.ecDevce sliceAdr at *; omega
    have channel : a ≠ Adr.ecDramCe n (k / 20) := by unfold Adr.ecDramCe sliceAdr at *; omega
    exact (rd_setBit_of_ne _ _ sum).trans ((rd_putF_of_ne _ _ _ _ channel).trans ((rd_putF_of_ne _ _ _ _ lane).trans (rd_free q.1 a)))

/-- So do those of an uncorrectable one. -/
theorem rd_countUe (s : State) (c b : Nat) (h : a < sliceAdr n 0x280000) : (s.countUe n c b).rd a = s.rd a := by
  have count : a ≠ Adr.ecDramUe n c := by unfold Adr.ecDramUe sliceAdr at *; omega
  have sum : a ≠ Adr.ecSum n := by unfold Adr.ecSum; omega
  have source : a ≠ Adr.ecFirstSrc n := by unfold Adr.ecFirstSrc sliceAdr at *; omega
  have address : a ≠ Adr.ecFirstAddrLo n ∧ a ≠ Adr.ecFirstAddrLo n + 4 := by unfold Adr.ecFirstAddrLo sliceAdr at *; omega
  have counted : ((s.inc (Adr.ecDramUe n c)).setBit (Adr.ecSum n) (1 + 2 * c)).rd a = s.rd a :=
    (rd_setBit_of_ne _ _ sum).trans (rd_inc_of_ne s count)
  unfold State.countUe
  dsimp only
  split
  · exact counted
  · exact (rd_wr64_of_ne _ _ address.1 address.2).trans ((rd_wr_of_ne _ _ source).trans counted)

/-! ### A pass (R301) -/

/-- A pass shown: its state, and what it found. -/
def scrubShown (s : State) (n : Nat) (status ce ue : Word) : State :=
  ((s.wr (Adr.dmScrubSts n) status).wr (Adr.dmScrubCe n) ce).wr (Adr.dmScrubUe n) ue

/-- What a pass shows stays where only its addresses and the error registers follow. -/
structure ScrubShows (n : Nat) (status ce ue : Word) (s : State) : Prop where
  status : s.rd (Adr.dmScrubSts n) = status
  ce : s.rd (Adr.dmScrubCe n) = ce
  ue : s.rd (Adr.dmScrubUe n) = ue

theorem scrubShows_shown (s : State) (n : Nat) (status ce ue : Word) : ScrubShows n status ce ue (scrubShown s n status ce ue) := by
  have order : Adr.dmScrubSts n ≠ Adr.dmScrubCe n ∧ Adr.dmScrubSts n ≠ Adr.dmScrubUe n ∧ Adr.dmScrubCe n ≠ Adr.dmScrubUe n := by
    unfold Adr.dmScrubSts Adr.dmScrubCe Adr.dmScrubUe sliceAdr
    omega
  obtain ⟨hc, hu, hcu⟩ := order
  exact ⟨(rd_wr_of_ne _ _ hu).trans ((rd_wr_of_ne _ _ hc).trans (rd_wr_self _ _ _)), (rd_wr_of_ne _ _ hcu).trans (rd_wr_self _ _ _),
    rd_wr_self _ _ _⟩

theorem scrubShows_of_rd {status ce ue : Word} (h : ScrubShows n status ce ue s)
    (k : ∀ a, Adr.dmEvt n < a → a < sliceAdr n 0x40340 → t.rd a = s.rd a) : ScrubShows n status ce ue t := by
  obtain ⟨hs, hc, hu⟩ := h
  have place : ∀ o, 0x40008 < o → o < 0x40340 → t.rd (sliceAdr n o) = s.rd (sliceAdr n o) := fun o hl hr =>
    k _ (by unfold Adr.dmEvt sliceAdr; omega) (by unfold sliceAdr; omega)
  exact ⟨(place 0x40304 (by decide) (by decide)).trans hs, (place 0x40318 (by decide) (by decide)).trans hc,
    (place 0x4031C (by decide) (by decide)).trans hu⟩

/-- The end of a pass: its event. -/
theorem scrubShows_ended {status ce ue : Word} (h : ScrubShows n status ce ue s) : ScrubShows n status ce ue (s.setBit (Adr.dmEvt n) 4) :=
  scrubShows_of_rd h fun _ he _ => rd_setBit_of_ne s 4 (by omega)

theorem scrubGo_starts (ht : s.dramThere n 0 = true) (h : s.fld (Adr.dmScrubSts n) 31 30 ≠ 1) :
    Completes (.scrubGo n) s fun t => t.fld (Adr.dmScrubSts n) 31 30 = 1 ∧ t.rd (Adr.dmScrubCe n) = 0 ∧ t.rd (Adr.dmScrubUe n) = 0 ∧
      OnlyChanges [.regs] s t := by
  have go : s.scrubGo n = (List.range 16).foldl (fun s k => s.wr64 (Adr.dmScrubAddrLo n k) 0) (scrubShown s n 0x40000000#32 0 0) := by
    rw [State.scrubGo, ht]
    exact if_neg (by simp [h])
  have shows := scrubShows_of_rd (t := s.scrubGo n) (scrubShows_shown s n 0x40000000#32 0 0) fun a _ ha => by
    rw [go]
    exact rd_foldl _ _ fun r k _ => rd_scrubAddr r k 0 ha
  obtain ⟨status, ce, ue⟩ := shows
  refine ⟨s.scrubGo n, rfl, ?_, ce, ue, onlyChanges_of_frame (scrubGo_frame s n (Frame.refl (partMask [.regs]) s) rfl)⟩
  rw [State.fld, status]
  rfl

theorem execScrubGo_running (h : s.fld (Adr.dmScrubSts n) 31 30 = 1) : exec (.scrubGo n) s = .next s := by
  have go : s.scrubGo n = s := if_pos (by rw [h]; simp)
  exact congrArg _ go

theorem execScrubStop_idle (h : s.fld (Adr.dmScrubSts n) 31 30 ≠ 1) : exec (.scrubStop n) s = .next s := by
  have stop : s.scrubStop n = s := if_pos h
  exact congrArg _ stop

theorem execScrubDone_idle (ce : Nat) (ue : List Nat) (h : s.fld (Adr.dmScrubSts n) 31 30 ≠ 1) : exec (.scrubDone n ce ue) s = .next s := by
  have e : exec (.scrubDone n ce ue) s = execScrubDone n ce ue s := rfl
  rw [e, execScrubDone, if_pos h]

/-- One address of a stopped pass, which is free (log entry 4). -/
def freeAddr (n : Nat) (s : State) (k : Nat) : State := s.free.2.wr64 (Adr.dmScrubAddrLo n k) (s.free.1 % 2 ^ 30 * 64)

/-- STATE of a stopped pass, whatever its progress. -/
theorem bits_stopped (p : Nat) : bits (BitVec.ofNat 32 (0xC0000000 + p % 101)) 31 30 = 3 := by
  rw [bits, BitVec.toNat_ofNat, Nat.shiftRight_eq_div_pow]
  omega

theorem scrubStop_ends (h : s.fld (Adr.dmScrubSts n) 31 30 = 1) :
    Completes (.scrubStop n) s fun t => t.fld (Adr.dmScrubSts n) 31 30 = 3 ∧ t.bit (Adr.dmEvt n) 4 = true := by
  obtain ⟨p, c, u, r, stop⟩ : ∃ p c u r, s.scrubStop n = ((List.range (min 16 (u % 2 ^ 32))).foldl (freeAddr n)
      (scrubShown r n (BitVec.ofNat 32 (0xC0000000 + p % 101)) (BitVec.ofNat 32 c) (BitVec.ofNat 32 u))).setBit (Adr.dmEvt n) 4 :=
    ⟨s.free.1, s.free.2.free.1, s.free.2.free.2.free.1, s.free.2.free.2.free.2, if_neg (not_not.mpr h)⟩
  have listed := scrubShows_of_rd (scrubShows_shown r n (BitVec.ofNat 32 (0xC0000000 + p % 101)) (BitVec.ofNat 32 c) (BitVec.ofNat 32 u))
    fun a _ ha => rd_foldl (f := freeAddr n) (List.range (min 16 (u % 2 ^ 32))) _ fun r k _ => (rd_scrubAddr _ k _ ha).trans (rd_free r a)
  refine ⟨s.scrubStop n, rfl, ?_, ?_⟩
  · rw [stop, State.fld, (scrubShows_ended listed).status]
    exact bits_stopped p
  · rw [stop]
    exact bit_setBit_self _ _ _ (by decide)

theorem scrubDone_ends (ce : Nat) (ue : List Nat) (h : s.fld (Adr.dmScrubSts n) 31 30 = 1) :
    Completes (.scrubDone n ce ue) s fun t => t.fld (Adr.dmScrubSts n) 31 30 = 2 ∧
      t.rd (Adr.dmScrubCe n) = BitVec.ofNat 32 (min 0xFFFFFFFF ce) ∧
      t.rd (Adr.dmScrubUe n) = BitVec.ofNat 32 (min 0xFFFFFFFF ue.length) ∧ t.bit (Adr.dmEvt n) 4 = true := by
  have run : exec (.scrubDone n ce ue) s =
      .next (((s.wr (Adr.dmScrubSts n) (BitVec.ofNat 32 (0x80000000 + 100))).scrubbed n ce ue).setBit (Adr.dmEvt n) 4) := by
    have e : exec (.scrubDone n ce ue) s = execScrubDone n ce ue s := rfl
    rw [e, execScrubDone, if_neg (not_not.mpr h)]
  have found := scrubShows_of_rd (t := (s.wr (Adr.dmScrubSts n) (BitVec.ofNat 32 (0x80000000 + 100))).scrubbed n ce ue)
    (scrubShows_shown s n (BitVec.ofNat 32 (0x80000000 + 100)) (BitVec.ofNat 32 (min 0xFFFFFFFF ce))
      (BitVec.ofNat 32 (min 0xFFFFFFFF ue.length))) fun a _ ha => by
    have low : a < sliceAdr n 0x280000 := by unfold sliceAdr at *; omega
    refine (rd_foldl ue _ fun r x _ => rd_countUe r _ _ low).trans ?_
    exact (rd_foldl _ _ fun r q _ => rd_scrubAddr r q.1 q.2 ha).trans (rd_countCe _ ce low)
  obtain ⟨status, ce, ue⟩ := scrubShows_ended found
  refine ⟨_, run, ?_, ce, ue, bit_setBit_self _ _ _ (by decide)⟩
  rw [State.fld, status]
  rfl

/-- Settles O50: a channel in or out of service by its registers, its fence and its slice's memory; the scrubber by what it shows. -/
theorem dramChannelsTrainServeAndAreFenced : Obligations.DramChannelsTrainServeAndAreFenced := by
  refine ⟨fun n c fails selftest s ht h0 hf => dramChannelStart_ends fails selftest ht h0 hf,
    fun ns s hh hr => dramRefresh_notes ns hh hr, fun ns s h => execDramRefresh_idle ns h, fun s => ⟨s, rfl, rfl⟩,
    fun n c s h8 ht hc h4 => ?_, fun n c s h => retrainHoldExpiry_forces h, fun n c s h => execRetrainHoldExpiry_idle h,
    fun n c s hs hc h5 hf => ⟨dramRetrainDone_works h5, dramRetrainDone_fails h5 hs hc hf⟩,
    fun n c b readOk s m hc h => mergeEntryTimeout_ends readOk hc h,
    fun n ce ue s h => ⟨execScrubStop_idle h, execScrubDone_idle ce ue h⟩,
    fun n s ht => ⟨fun h => scrubGo_starts ht h, fun h => ⟨execScrubGo_running h, scrubStop_ends h, fun ce ue => scrubDone_ends ce ue h⟩⟩⟩
  obtain ⟨due, new, old, only⟩ := dueRetrain_notes h8 ht hc h4
  exact ⟨⟨s.dueRetrain n c, rfl, due, new, old, only⟩, ⟨s.dueRetrain n c, rfl, due, new, only⟩⟩

end Sys2Proof.Proofs
end

section
/-!
Records in flight and the gates of the admin commands (R47, R49, R69, R359): what a change of one command's record leaves of the others,
and which commands their controller, the manager and minimal mode let through.
-/

namespace Sys2Proof.Proofs

open Sys2Proof.Machine Sys2Proof.Laws

variable {s t : State} {h g : Hdr}

/-! ### Records of other commands -/

theorem inFlight_modIn_of_ne (s : State) (f : InFlight → InFlight) (hf : ∀ x, (f x).hdr = x.hdr) (hg : g ≠ h) :
    (s.modIn h f).inFlight g = s.inFlight g := by
  unfold State.inFlight State.modIn
  rw [mapInflight_inflight]
  induction s.inflight with
  | nil => rfl
  | cons y l ih =>
    rw [List.map_cons, List.find?_cons, List.find?_cons, ih]
    by_cases e : y.hdr = h
    · have other : (h == g) = false := beq_eq_false_iff_ne.mpr hg.symm
      simp [e, hf, other]
    · simp [e]

/-- A change of its record leaves a command a record. -/
theorem inFlight_isSome_modIn (s : State) (h : Hdr) (f : InFlight → InFlight) (hf : ∀ x, (f x).hdr = x.hdr) :
    ((s.modIn h f).inFlight h).isSome = (s.inFlight h).isSome := by
  rw [inFlight_modIn_self s h f hf, Option.isSome_map]

theorem inFlight_answer_of_ne (s : State) (a : Answer) (cs : List Cond) (hg : g ≠ h) :
    (s.answer h a cs).inFlight g = s.inFlight g :=
  inFlight_modIn_of_ne s _ (fun _ => rfl) hg

theorem inFlight_finish_of_ne (s : State) (a : Answer) (hg : g ≠ h) : (s.finish h a).inFlight g = s.inFlight g :=
  inFlight_answer_of_ne s a [] hg

theorem undispatched_congr (e : t.inFlight g = s.inFlight g) : t.undispatched g = s.undispatched g :=
  congrArg (Option.any InFlight.waits) e

theorem answered_congr (e : t.inFlight g = s.inFlight g) {a : Answer} : Answered t g a ↔ Answered s g a := by
  unfold Answered standing
  rw [e]

theorem inFlight_isSome_of_undispatched (u : s.undispatched g = true) : (s.inFlight g).isSome = true := Option.isSome_of_any u

theorem ctrl_congr (e : t.ctrls = s.ctrls) (c : Nat) : t.ctrl c = s.ctrl c := by
  unfold State.ctrl
  rw [e]

theorem ctrl_modCtrl_self (s : State) (c : Nat) (f : Ctrl → Ctrl) : (s.modCtrl c f).ctrl c = { f (s.ctrl c) with id := c } :=
  (ctrl_modCtrl s c c f).trans (if_pos rfl)

theorem ctrl_modCtrl_of_ne {c d : Nat} (s : State) (f : Ctrl → Ctrl) (hd : d ≠ c) : (s.modCtrl c f).ctrl d = s.ctrl d :=
  (ctrl_modCtrl s c d f).trans (if_neg hd)

/-- What only finishes a command changes nothing but records in flight. -/
theorem onlyChanges_finish (s : State) (h : Hdr) (a : Answer) : OnlyChanges [.inflight] s (s.finish h a) :=
  onlyChanges_of_frame (l := [.inflight]) (finish_frame s h a (Frame.refl _ s) rfl)

theorem ctrl_modCtrl_finish_of_ne {c d : Nat} (s : State) (f : Ctrl → Ctrl) (h : Hdr) (a : Answer) (hd : d ≠ c) :
    ((s.modCtrl c f).finish h a).ctrl d = s.ctrl d :=
  ctrl_modCtrl_of_ne s f hd

theorem onlyChanges_modCtrl_finish (s : State) (c : Nat) (f : Ctrl → Ctrl) (h : Hdr) (a : Answer) :
    OnlyChanges [.ctrls, .inflight] s ((s.modCtrl c f).finish h a) :=
  onlyChanges_of_frame (l := [.ctrls, .inflight]) (finish_frame _ h a (modCtrl_frame s c f (Frame.refl _ s) rfl) rfl)

/-! ### Gates -/

theorem run_of_runnable (r : s.runnable h = true) (f : State → State) : s.run h f = f s := if_pos r

theorem adminCmd_of_ready (r : AdminReady s h) (f : State → State) : s.adminCmd h f = f s := by
  obtain ⟨run, full⟩ := r
  rw [State.adminCmd, run_of_runnable run, full]
  rfl

theorem adminReady_of_manager (r : ManagerReady s h) : AdminReady s h := ⟨r.1, r.2.2⟩

theorem managerFeature_of_manager (r : ManagerReady s h) (f : State → State) : s.managerFeature h f = f s := by
  obtain ⟨-, one, -⟩ := id r
  rw [State.managerFeature, adminCmd_of_ready (adminReady_of_manager r), isManager, one]
  rfl

theorem managerFeature_of_other (r : AdminReady s h) (one : h.ctrl ≠ 1) (f : State → State) :
    s.managerFeature h f = s.finish h (ansSt stField) := by
  rw [State.managerFeature, adminCmd_of_ready r]
  exact if_neg (by simpa [isManager] using one)

theorem inFlight_isSome_of_admin (r : AdminReady s h) : (s.inFlight h).isSome = true := inFlight_isSome_of_runnable r.1

/-- A command that ends by finishing in a state that keeps its record is answered. -/
theorem completes_finish {c : Instr} {u : State} {a : Answer} {P : State → Prop} (e : exec c s = .next (u.finish h a))
    (record : (u.inFlight h).isSome = true) (rest : Answered (u.finish h a) h a → OnlyChanges (footprint c) s (u.finish h a) → P (u.finish h a)) :
    Completes c s P :=
  ⟨_, e, rest (answered_finish record a) (commandsChangeOnlyTheirFootprint c s _ e)⟩

/-- A command that does nothing but finish is answered, and nothing else changes. -/
theorem completes_finished {c : Instr} {a : Answer} (e : exec c s = .next (s.finish h a)) (record : (s.inFlight h).isSome = true) :
    Completes c s fun t => Answered t h a ∧ OnlyChanges [.inflight] s t :=
  ⟨_, e, answered_finish record a, onlyChanges_finish s h a⟩

end Sys2Proof.Proofs
end

section
/-!
Aborts and Asynchronous Event Requests (R61, R69, R70).
-/

namespace Sys2Proof.Proofs

open Sys2Proof.Machine Sys2Proof.Laws

variable {s t : State} {h g : Hdr} {sqid cid : Nat}

/-- The state in which a command's record says that it is an Abort (R69). -/
def markedAbort (s : State) (h : Hdr) : State := s.modIn h fun x => { x with isAbort := true }

theorem inFlight_markedAbort (hg : g ≠ h) : (markedAbort s h).inFlight g = s.inFlight g := inFlight_modIn_of_ne s _ (fun _ => rfl) hg

theorem inFlight_isSome_markedAbort (record : (s.inFlight h).isSome = true) : ((markedAbort s h).inFlight h).isSome = true :=
  (inFlight_isSome_modIn s h _ (by intro; rfl)).trans record

theorem execAbort_limit (r : AdminReady s h) (four : 4 ≤ s.abortsOpen h.ctrl) :
    exec (.abort h sqid cid) s = .next (s.finish h (ansSt stAbortLimit)) :=
  congrArg Host.Outcome.next ((adminCmd_of_ready r _).trans (if_pos four))

theorem execAbort_ends (r : AdminReady s h) (four : s.abortsOpen h.ctrl < 4) (ne : Hdr.mk h.ctrl sqid cid ≠ h)
    (waits : s.undispatched ⟨h.ctrl, sqid, cid⟩ = true) :
    exec (.abort h sqid cid) s =
      .next (((markedAbort s h).finish ⟨h.ctrl, sqid, cid⟩ (ansSt stAborted)).finish h (ansDw0 0)) := by
  have u : (markedAbort s h).undispatched ⟨h.ctrl, sqid, cid⟩ = true := (undispatched_congr (inFlight_markedAbort ne)).trans waits
  refine congrArg Host.Outcome.next ((adminCmd_of_ready r _).trans ((if_neg (Nat.not_le.mpr four)).trans (if_pos ?_)))
  exact Bool.and_eq_true_iff.mpr ⟨bne_iff_ne.mpr ne, u⟩

theorem execAbort_leaves (r : AdminReady s h) (four : s.abortsOpen h.ctrl < 4)
    (none : Hdr.mk h.ctrl sqid cid = h ∨ s.undispatched ⟨h.ctrl, sqid, cid⟩ = false) :
    exec (.abort h sqid cid) s = .next ((markedAbort s h).finish h (ansDw0 1)) := by
  refine congrArg Host.Outcome.next ((adminCmd_of_ready r _).trans ((if_neg (Nat.not_le.mpr four)).trans (if_neg fun c => ?_)))
  obtain ⟨ne, waits⟩ := Bool.and_eq_true_iff.mp c
  have u := (undispatched_congr (inFlight_markedAbort (s := s) (bne_iff_ne.mp ne))).symm.trans waits
  rcases none with e | e
  · exact bne_iff_ne.mp ne e
  · exact Bool.false_ne_true (e.symm.trans u)

theorem execAsynchronousEventRequest_kept {e : AsyncEvent} {l : List AsyncEvent} (r : AdminReady s h) (kept : (s.ctrl h.ctrl).events = e :: l) :
    exec (.asynchronousEventRequest h) s = .next ((s.modCtrl h.ctrl fun k => { k with events := l }).finish h (ansDw0 e.dw0)) := by
  refine congrArg Host.Outcome.next ((adminCmd_of_ready r _).trans ?_)
  rw [kept]

theorem execAsynchronousEventRequest_none (r : AdminReady s h) (none : (s.ctrl h.ctrl).events = []) :
    exec (.asynchronousEventRequest h) s =
      .next (if Config.aerl < s.heldRequests h.ctrl then s.finish h (ansSt stAerLimit)
        else s.modIn h fun x => { x with phase := .held, conds := [.event] }) := by
  refine congrArg Host.Outcome.next ((adminCmd_of_ready r _).trans ?_)
  rw [none]

/-- Settles O24, by what the hub holds of the command that is to end and of the events. -/
theorem abortsAndEventRequests : Obligations.AbortsAndEventRequests := by
  refine ⟨fun h sqid cid s r four ne waits => ?_, fun h sqid cid s r four none => ?_, fun h sqid cid s r four => ?_,
    fun h e l s r kept => ?_, fun h s r none => ?_⟩
  · refine completes_finish (execAbort_ends r four ne waits) ?_ fun done only =>
      ⟨(answered_congr (inFlight_finish_of_ne _ _ ne)).mpr (answered_finish ?_ _), done, fun g hg hn => ?_, only⟩
    · rw [inFlight_finish_of_ne _ _ ne.symm]
      exact inFlight_isSome_markedAbort (inFlight_isSome_of_admin r)
    · rw [inFlight_markedAbort ne]
      exact inFlight_isSome_of_undispatched waits
    · rw [inFlight_finish_of_ne _ _ hg, inFlight_finish_of_ne _ _ hn, inFlight_markedAbort hg]
  · refine completes_finish (execAbort_leaves r four none) (inFlight_isSome_markedAbort (inFlight_isSome_of_admin r)) fun done only =>
      ⟨done, fun g hg => ?_, only⟩
    rw [inFlight_finish_of_ne _ _ hg, inFlight_markedAbort hg]
  · exact completes_finish (execAbort_limit r four) (inFlight_isSome_of_admin r) fun done only =>
      ⟨done, fun g hg => inFlight_finish_of_ne _ _ hg, only⟩
  · refine completes_finish (execAsynchronousEventRequest_kept r kept) (inFlight_isSome_of_admin r) fun done only => ⟨done, ?_, only⟩
    exact congrArg Ctrl.events (ctrl_modCtrl_self s h.ctrl fun k => { k with events := l })
  · by_cases full : Config.aerl < s.heldRequests h.ctrl
    · obtain ⟨u, e, done, only⟩ := completes_finished ((execAsynchronousEventRequest_none r none).trans (by rw [if_pos full]))
        (inFlight_isSome_of_admin r)
      exact ⟨u, e, only, by rwa [if_neg (Nat.not_le.mpr full)]⟩
    · obtain ⟨x, hx⟩ := Option.isSome_iff_exists.mp (inFlight_isSome_of_admin r)
      have e := (execAsynchronousEventRequest_none r none).trans (by rw [if_neg full])
      refine ⟨_, e, onlyChanges_of_frame (l := [.inflight]) (modIn_frame s h _ (Frame.refl _ s) rfl), ?_⟩
      rw [if_pos (Nat.le_of_not_lt full), standing, inFlight_modIn_self s h _ (by intro; rfl), hx]
      exact ⟨x.answer, rfl⟩

end Sys2Proof.Proofs
end

section
/-!
Features set and read back (R49, R57, R196, R341, R345, R346): what Set Features stores, and who may set what.
-/

namespace Sys2Proof.Proofs

open Sys2Proof.Machine Sys2Proof.Laws

variable {s t : State} {h : Hdr} {fid value nsid : Nat}

/-! ### Features of a controller (R49, R346) -/

/-- The state with a feature stored for a controller, as Set Features stores it (R49). -/
def featureStored (s : State) (c fid value : Nat) : State :=
  s.modCtrl c fun k => { k with features := mapPut k.features 0 fid value }

/-- What a controller reports of a stored feature. -/
def storedFeature (s : State) (c fid : Nat) : Nat := (mapGet (s.ctrl c).features fid).getD 0

theorem feature_of_plain (plain : plainFeature fid = true) (s : State) (c nsid : Nat) :
    s.feature c fid nsid = ansDw0 (storedFeature s c fid) := if_pos plain

theorem storedFeature_featureStored (s : State) (c k fid value : Nat) :
    storedFeature (featureStored s c fid value) c k = if k = fid then value else storedFeature s c k := by
  rw [storedFeature, featureStored, ctrl_modCtrl_self]
  exact mapGet_mapPut (fun _ => 0) _ fid k value

/-- The two figures that APST keeps are stored as two more features, under numbers that no feature has (R346). -/
theorem takeApst_cases (s : State) (c value : Nat) :
    s.takeApst c value = s ∨ ∃ (u : State) (a b : Nat), u.ctrls = s.ctrls ∧ u.inflight = s.inflight ∧
      s.takeApst c value = u.modCtrl c fun k => { k with features := mapPut (mapPut k.features 0 0x20C a) 0 0x30C b } := by
  unfold State.takeApst
  split
  · exact .inl rfl
  · exact .inr ⟨s.free.2.free.2, s.free.1, s.free.2.free.1, rfl, rfl, rfl⟩

theorem storedFeature_takeApst (s : State) (c value : Nat) (plain : plainFeature fid = true) :
    storedFeature (s.takeApst c value) c fid = storedFeature s c fid := by
  have far : fid ≠ 0x20C ∧ fid ≠ 0x30C := ⟨by rintro rfl; exact absurd plain (by decide), by rintro rfl; exact absurd plain (by decide)⟩
  obtain e | ⟨u, a, b, hc, -, e⟩ := takeApst_cases s c value <;> rw [e]
  rw [storedFeature, ctrl_modCtrl_self]
  refine ((mapGet_mapPut (fun _ => 0) _ 0x30C fid b).trans (if_neg far.2)).trans ?_
  refine ((mapGet_mapPut (fun _ => 0) _ 0x20C fid a).trans (if_neg far.1)).trans ?_
  rw [ctrl_congr hc, storedFeature]

theorem ctrl_takeApst_of_ne {c d : Nat} (s : State) (value : Nat) (hd : d ≠ c) : (s.takeApst c value).ctrl d = s.ctrl d := by
  obtain e | ⟨u, a, b, hc, -, e⟩ := takeApst_cases s c value <;> rw [e]
  rw [ctrl_modCtrl_of_ne u _ hd, ctrl_congr hc]

theorem inflight_takeApst (s : State) (c value : Nat) : (s.takeApst c value).inflight = s.inflight := by
  obtain e | ⟨u, a, b, -, hi, e⟩ := takeApst_cases s c value <;> rw [e]
  exact hi

/-- The state in which Set Features of a plain feature finishes: APST has two more figures to keep (R346). -/
def plainSet (s : State) (c fid value : Nat) : State :=
  if fid = 0x0C then (featureStored s c fid value).takeApst c value else featureStored s c fid value

theorem storedFeature_plainSet (s : State) (c value : Nat) (plain : plainFeature fid = true) :
    storedFeature (plainSet s c fid value) c fid = value := by
  have stored : storedFeature (featureStored s c fid value) c fid = value := (storedFeature_featureStored ..).trans (if_pos rfl)
  unfold plainSet
  split
  · exact (storedFeature_takeApst _ c value plain).trans stored
  · exact stored

theorem ctrl_plainSet_of_ne {c d : Nat} (s : State) (fid value : Nat) (hd : d ≠ c) : (plainSet s c fid value).ctrl d = s.ctrl d := by
  have stored : (featureStored s c fid value).ctrl d = s.ctrl d := ctrl_modCtrl_of_ne s _ hd
  unfold plainSet
  split
  · exact (ctrl_takeApst_of_ne _ value hd).trans stored
  · exact stored

theorem inflight_plainSet (s : State) (c fid value : Nat) : (plainSet s c fid value).inflight = s.inflight := by
  unfold plainSet
  split
  · exact inflight_takeApst _ c value
  · rfl

/-! ### What each command does -/

theorem execGetFeatures_ready (r : AdminReady s h) : exec (.getFeatures h fid nsid) s = .next (s.finish h (s.feature h.ctrl fid nsid)) :=
  congrArg Host.Outcome.next (adminCmd_of_ready r _)

theorem execSetFeatures_plain (r : AdminReady s h) (plain : plainFeature fid = true) :
    exec (.setFeatures h fid value) s = .next ((plainSet s h.ctrl fid value).finish h (ansSt stOk)) := by
  have queues : fid ≠ 0x07 := by rintro rfl; exact absurd plain (by decide)
  have cache : fid ≠ 0x06 := by rintro rfl; exact absurd plain (by decide)
  exact congrArg Host.Outcome.next
    ((adminCmd_of_ready r _).trans ((if_neg queues).trans ((if_neg cache).trans (if_pos plain))))

theorem execSetFeatures_cache (r : AdminReady s h) :
    exec (.setFeatures h 0x06 value) s =
      .next ((s.modCtrl h.ctrl fun k => { k with wce := value % 2 == 1 }).finish h (ansSt stOk)) :=
  congrArg Host.Outcome.next (adminCmd_of_ready r _)

theorem execSetFeatures_queues (r : AdminReady s h) :
    exec (.setFeatures h 0x07 value) s = .next (s.finish h (ansDw0 (s.queuesDw0 h.ctrl))) :=
  congrArg Host.Outcome.next (adminCmd_of_ready r _)

theorem execSetFeatures_unknown (r : AdminReady s h) (plain : plainFeature fid = false) (cache : fid ≠ 0x06) (queues : fid ≠ 0x07) :
    exec (.setFeatures h fid value) s = .next (s.finish h (ansSt stField)) :=
  congrArg Host.Outcome.next
    ((adminCmd_of_ready r _).trans ((if_neg queues).trans ((if_neg cache).trans (if_neg (Bool.eq_false_iff.mp plain)))))

theorem execSetFeaturesVolatileWriteCache_ready (r : AdminReady s h) (wce : Bool) :
    exec (.setFeaturesVolatileWriteCache h wce) s = .next ((s.modCtrl h.ctrl fun k => { k with wce := wce }).finish h (ansSt stOk)) :=
  congrArg Host.Outcome.next (adminCmd_of_ready r _)

theorem execSetFeaturesInlineCompression_set {x : Namespace} (r : ManagerReady s h) (hx : s.ns nsid = some x) (enable : Bool) :
    exec (.setFeaturesInlineCompression h nsid enable) s =
      .next ((s.modNs nsid fun x => { x with compress := enable }).finish h (ansSt stOk)) := by
  refine congrArg Host.Outcome.next ((managerFeature_of_manager r _).trans ?_)
  rw [hx]

theorem execSetFeaturesDurability_set {x : Namespace} (r : ManagerReady s h) (hx : s.ns nsid = some x) (through : Bool) :
    exec (.setFeaturesDurability h nsid through) s =
      .next ((s.modNs nsid fun x => { x with through := through }).finish h (ansSt stOk)) := by
  refine congrArg Host.Outcome.next ((managerFeature_of_manager r _).trans ?_)
  rw [hx]

theorem execSetFeaturesLatencyTolerance_set {c : Nat} (r : ManagerReady s h) (hc : s.ctrlExists c = true) (tolerance : Nat) :
    exec (.setFeaturesLatencyTolerance h c tolerance) s =
      .next ((s.modCtrl c fun k => { k with latency := tolerance }).finish h (ansSt stOk)) :=
  congrArg Host.Outcome.next ((managerFeature_of_manager r _).trans (if_neg (by simp [hc])))

theorem execSetFeaturesPowerManagement_set {ps : Nat} (r : ManagerReady s h) (hps : ps ≤ 2) :
    exec (.setFeaturesPowerManagement h ps) s = .next ((s.modPower fun w => { w with opNext := some ps }).finish h (ansSt stOk)) :=
  congrArg Host.Outcome.next ((managerFeature_of_manager r _).trans (if_neg (Nat.not_lt.mpr hps)))

/-- What only the manager may set is refused to every other controller, and nothing changes (R49). -/
theorem managerFeatures_refused (r : AdminReady s h) (one : h.ctrl ≠ 1) (c tolerance ps : Nat) (b : Bool) :
    ∀ i ∈ [Instr.setFeaturesInlineCompression h nsid b, .setFeaturesDurability h nsid b, .setFeaturesLatencyTolerance h c tolerance,
        .setFeaturesPowerManagement h ps], exec i s = .next (s.finish h (ansSt stField)) := by
  simp only [List.mem_cons, List.not_mem_nil, or_false]
  rintro i (rfl | rfl | rfl | rfl) <;> exact congrArg Host.Outcome.next (managerFeature_of_other r one _)

/-- A namespace that does not exist has no features to set (R49). -/
theorem namespaceFeatures_refused (r : ManagerReady s h) (hx : s.ns nsid = none) (b : Bool) :
    ∀ i ∈ [Instr.setFeaturesInlineCompression h nsid b, .setFeaturesDurability h nsid b],
      exec i s = .next (s.finish h (ansSt stNamespace)) := by
  simp only [List.mem_cons, List.not_mem_nil, or_false]
  rintro i (rfl | rfl) <;>
  · refine congrArg Host.Outcome.next ((managerFeature_of_manager r _).trans ?_)
    rw [hx]

/-- Neither a power state above PS2 nor the tolerance of a controller that does not exist is set (R345, R346). -/
theorem figures_refused {ps c : Nat} (r : ManagerReady s h) (hps : 2 < ps) (hc : s.ctrlExists c = false) (tolerance : Nat) :
    ∀ i ∈ [Instr.setFeaturesPowerManagement h ps, .setFeaturesLatencyTolerance h c tolerance],
      exec i s = .next (s.finish h (ansSt stField)) := by
  have absent : (!s.ctrlExists c) = true := by rw [hc]; rfl
  simp only [List.mem_cons, List.not_mem_nil, or_false]
  rintro i (rfl | rfl)
  · exact congrArg Host.Outcome.next ((managerFeature_of_manager r _).trans (if_pos hps))
  · exact congrArg Host.Outcome.next ((managerFeature_of_manager r _).trans (if_pos absent))

/-- Changing one namespace shows in that one and leaves the others. -/
theorem ns_modNs_self {x : Namespace} (f : Namespace → Namespace) (hf : ∀ y, (f y).nsid = y.nsid) (hx : s.ns nsid = some x) :
    (s.modNs nsid f).ns nsid = some (f x) ∧ ∀ k, k ≠ nsid → (s.modNs nsid f).ns k = s.ns k := by
  refine ⟨by rw [ns_modNs s nsid nsid f hf, hx]; simp, fun k hk => ?_⟩
  rw [ns_modNs s nsid k f hf]
  simp [hk]

theorem wce_set (s : State) (c : Nat) (w : Bool) : ((s.modCtrl c fun k => { k with wce := w }).ctrl c).wce = w :=
  congrArg Ctrl.wce (ctrl_modCtrl_self s c fun k => { k with wce := w })

/-- Settles O22: what Set Features stores, read back from the controller, the namespace or what waits for the boundary. -/
theorem featuresReadBackAsSet : Obligations.FeaturesReadBackAsSet := by
  refine ⟨fun h fid nsid s r => completes_finished (execGetFeatures_ready r) (inFlight_isSome_of_admin r),
    fun h fid value s r plain => ?_, fun h value s r => ?_,
    fun h fid value s r plain cache queues =>
      completes_finished (execSetFeatures_unknown r plain cache queues) (inFlight_isSome_of_admin r),
    fun h value s r => ?_, fun h wce s r => ?_, fun h nsid enable s x r hx => ?_, fun h nsid through s x r hx => ?_,
    fun h c tolerance s r hc => ?_, fun h ps s r hps => ?_,
    fun h ps c tolerance s r hps hc i hi =>
      completes_finished (figures_refused r hps hc tolerance i hi) (inFlight_isSome_of_ready r),
    fun h nsid b s r hx i hi => completes_finished (namespaceFeatures_refused r hx b i hi) (inFlight_isSome_of_ready r),
    fun h nsid c tolerance ps b s r one i hi => completes_finished (managerFeatures_refused r one c tolerance ps b i hi)
      (inFlight_isSome_of_admin r)⟩
  · have record : ((plainSet s h.ctrl fid value).inFlight h).isSome = true := by
      rw [inFlight_congr (inflight_plainSet ..)]
      exact inFlight_isSome_of_admin r
    refine completes_finish (execSetFeatures_plain r plain) record fun done only =>
      ⟨done, ?_, fun c hc => ctrl_plainSet_of_ne s fid value hc, only⟩
    exact (feature_of_plain plain _ _ _).trans (congrArg ansDw0 (storedFeature_plainSet s h.ctrl value plain))
  · exact completes_finish (execSetFeatures_cache r) (inFlight_isSome_of_admin r) fun done _ =>
      ⟨done, wce_set s h.ctrl _, onlyChanges_modCtrl_finish s _ _ h _⟩
  · obtain ⟨u, e, done, only⟩ := completes_finished (execSetFeatures_queues (value := value) r) (inFlight_isSome_of_admin r)
    exact ⟨u, e, only, done⟩
  · exact completes_finish (execSetFeaturesVolatileWriteCache_ready r wce) (inFlight_isSome_of_admin r) fun done only =>
      ⟨done, wce_set s h.ctrl wce, congrArg (fun b => ansDw0 (bit01 b)) (wce_set s h.ctrl wce), only⟩
  · have set := ns_modNs_self (fun x => { x with compress := enable }) (fun _ => rfl) hx
    exact completes_finish (execSetFeaturesInlineCompression_set r hx enable) (inFlight_isSome_of_ready r)
      fun done only => ⟨done, set.1, set.2, only⟩
  · have set := ns_modNs_self (fun x => { x with through := through }) (fun _ => rfl) hx
    exact completes_finish (execSetFeaturesDurability_set r hx through) (inFlight_isSome_of_ready r)
      fun done only => ⟨done, set.1, set.2, only⟩
  · exact completes_finish (execSetFeaturesLatencyTolerance_set r hc tolerance) (inFlight_isSome_of_ready r)
      fun done only => ⟨done, ctrl_modCtrl_self s c fun k => { k with latency := tolerance },
        fun d hd => ctrl_modCtrl_finish_of_ne s _ h _ hd, only⟩
  · exact completes_finish (execSetFeaturesPowerManagement_set r hps) (inFlight_isSome_of_ready r)
      fun done only => ⟨done, rfl, only⟩

end Sys2Proof.Proofs
end

section
/-!
Identify and the log pages (R52, R64, R137, R319, R357, R375, R422): what they report, and who may read which page.
-/

namespace Sys2Proof.Proofs

open Sys2Proof.Machine Sys2Proof.Laws

variable {s t : State} {h : Hdr} {lid : Nat}

/-! ### Data given as fields -/

/-- Every field of a record stands in the data, at the record's place. -/
theorem mem_recordsAt {off size k : Nat} {l : List (List (Nat × Nat × Nat))} {r : List (Nat × Nat × Nat)} {p : Nat × Nat × Nat}
    (hr : l[k]? = some r) (hp : p ∈ r) : (off + size * k + p.1, p.2) ∈ recordsAt off size l :=
  List.mem_flatMap.mpr ⟨(r, k), List.mk_mem_zipIdx_iff_getElem?.mpr hr, List.mem_map.mpr ⟨p, hp, rfl⟩⟩

/-! ### Identify (R52) -/

/-- The state with the data of a command on its way to the host, where it succeeds. -/
def dataSent (s : State) (h : Hdr) (a : Answer) (bytes : Nat) : State := if a.status.good then s.dataOut h bytes else s

theorem inflight_dataSent (s : State) (h : Hdr) (a : Answer) (bytes : Nat) : (dataSent s h a bytes).inflight = s.inflight := by
  unfold dataSent
  split
  · exact (dataOut_frame s h bytes (Frame.refl 0xf00004 s) rfl).same .inflight rfl
  · rfl

theorem identify_completes (r : s.runnable h = true) (cns nsid : Nat) :
    Completes (.identify h cns nsid) s fun t => Answered t h (s.identify h.ctrl cns nsid) ∧
      OnlyChanges (footprint (.identify h cns nsid)) s t := by
  have e : exec (.identify h cns nsid) s =
      .next ((dataSent s h (s.identify h.ctrl cns nsid) 4096).finish h (s.identify h.ctrl cns nsid)) :=
    congrArg Host.Outcome.next (run_of_runnable r _)
  refine completes_finish e ?_ fun done only => ⟨done, only⟩
  rw [inFlight_congr (inflight_dataSent ..)]
  exact inFlight_isSome_of_runnable r

theorem identify_ctrl (s : State) (c nsid : Nat) : s.identify c 1 nsid = ansData (.fields (s.idCtrl c)) := by simp [State.identify]

/-- What Identify Controller says of the controller and its package (R43, R52). -/
theorem idCtrl_reports (s : State) (c : Nat) : (78, 2, c) ∈ s.idCtrl c ∧ (3074, 1, s.part.capSlice % 256) ∈ s.idCtrl c ∧
    (3075, 1, s.slicesOnline) ∈ s.idCtrl c ∧ (3089, 1, bit01 s.dual) ∈ s.idCtrl c ∧ (3093, 1, bit01 s.minimal) ∈ s.idCtrl c := by
  have vendor : ∀ p ∈ s.vendorId c, p ∈ s.idCtrl c := fun p hp => List.mem_append_right _ hp
  refine ⟨?_, vendor _ ?_, vendor _ ?_, vendor _ ?_, vendor _ ?_⟩
  · simp [State.idCtrl]
  all_goals simp [State.vendorId]

/-! ### Log pages -/

theorem inflight_logPage (s : State) (c lid : Nat) : (s.logPage c lid).2.inflight = s.inflight :=
  (logPage_frame s c lid (Frame.refl 0x8000000000000 s) rfl).same .inflight rfl

theorem execGetLogPage_eq (r : s.runnable h = true) (lid : Nat) :
    exec (.getLogPage h lid) s = .next ((dataSent (s.logPage h.ctrl lid).2 h (s.logPage h.ctrl lid).1 (logBytes lid)).finish h
      (s.logPage h.ctrl lid).1) :=
  congrArg Host.Outcome.next (run_of_runnable r _)

theorem logPage_completes (r : s.runnable h = true) (lid : Nat) :
    Completes (.getLogPage h lid) s fun t => Answered t h (s.logPage h.ctrl lid).1 ∧
      OnlyChanges (footprint (.getLogPage h lid)) s t := by
  refine completes_finish (execGetLogPage_eq r lid) ?_ fun done only => ⟨done, only⟩
  rw [inFlight_congr (inflight_dataSent ..), inFlight_congr (inflight_logPage ..)]
  exact inFlight_isSome_of_runnable r

theorem logPage_errors (s : State) (c : Nat) : s.logPage c 1 = (ansData (.fields (s.ctrl c).errorLog), s) := by simp [State.logPage]

theorem logPage_faults (full : s.minimal = false) (c : Nat) : s.logPage c 0xC1 = (ansData (.fields (s.faultLog c)), s) := by
  simp [State.logPage, full]

/-- The device logs, which only the manager reads (R64, R137, R319, R357, R375). -/
def deviceLogs : List Nat := [0xC0, 0xC2, 0xC3, 0xC4, 0xC5]

theorem logPage_device_manager (full : s.minimal = false) (hl : lid ∈ deviceLogs) : (s.logPage 1 lid).1.status = stOk := by
  simp only [deviceLogs, List.mem_cons, List.not_mem_nil, or_false] at hl
  rcases hl with rfl | rfl | rfl | rfl | rfl <;> simp [State.logPage, isManager, full] <;> rfl

theorem logPage_device_other {c : Nat} (one : c ≠ 1) (hl : lid ∈ deviceLogs) : s.logPage c lid = (ansSt stField, s) := by
  have other : isManager c = false := by simpa [isManager] using one
  simp only [deviceLogs, List.mem_cons, List.not_mem_nil, or_false] at hl
  rcases hl with rfl | rfl | rfl | rfl | rfl <;> simp [State.logPage, other]

/-- The faults that a controller may read: the manager all of them, any other those of its own tenant or physical function (R64). -/
def faultsOf (s : State) (c : Nat) : List DeferredFault :=
  if c = 1 then s.nvm.faults else s.nvm.faults.filter fun f => f.ti == faultTi (ctrlOwner c)

theorem faultLog_entry {c k : Nat} {e : DeferredFault} (he : (faultsOf s c)[k]? = some e) {p : Nat × Nat × Nat}
    (hp : p ∈ [(0, 2, e.ti), (2, 2, e.cause), (4, 4, e.nsid), (8, 8, e.slba), (16, 4, e.nlb), (20, 1, bit01 e.pending), (24, 8, e.course)]) :
    (32 * k + p.1, p.2) ∈ s.faultLog c := by
  have mine : (if isManager c then s.nvm.faults else s.nvm.faults.filter fun f => f.ti == faultTi (ctrlOwner c)) = faultsOf s c := by
    simp [isManager, faultsOf]
  unfold State.faultLog
  rw [mine]
  have place : 32 * k + p.1 = 0 + 32 * k + p.1 := by omega
  rw [place]
  exact mem_recordsAt (by rw [List.getElem?_map, he]; rfl) hp

/-- Settles O23, by what each page gives and to whom. -/
theorem identifyAndLogsReport : Obligations.IdentifyAndLogsReport := by
  refine ⟨fun h cns nsid s r => identify_completes r cns nsid, fun h lid s r => logPage_completes r lid, fun h nsid s r => ?_,
    fun h s r => ?_, fun h s r full => ?_, fun h s lid r hl => ?_, fun h s lid r one hl => ?_⟩
  · obtain ⟨t, e, done, -⟩ := identify_completes r 1 nsid
    rw [identify_ctrl] at done
    exact ⟨t, e, s.idCtrl h.ctrl, done, idCtrl_reports s h.ctrl⟩
  · obtain ⟨t, e, done, only⟩ := logPage_completes r 1
    rw [logPage_errors] at done
    exact ⟨t, e, done, only .ctrls (by simp [footprint])⟩
  · obtain ⟨t, e, done, -⟩ := logPage_completes r 0xC1
    rw [logPage_faults full] at done
    exact ⟨t, e, s.faultLog h.ctrl, done, fun k f hf => ⟨faultLog_entry hf (p := (0, _)) (by simp), faultLog_entry hf (p := (4, _)) (by simp),
      faultLog_entry hf (p := (8, _)) (by simp), faultLog_entry hf (p := (16, _)) (by simp)⟩⟩
  · obtain ⟨run, one, full⟩ := r
    obtain ⟨t, e, done, only⟩ := logPage_completes run lid
    refine ⟨t, e, ⟨_, [], done, ?_⟩, only .nvm (by simp [footprint]), only .measLog (by simp [footprint])⟩
    rw [one]
    exact logPage_device_manager full hl
  · have page := logPage_device_other (s := s) one hl
    exact completes_finished ((execGetLogPage_eq r lid).trans (by rw [page]; rfl)) (inFlight_isSome_of_runnable r)

end Sys2Proof.Proofs
end

section
/-!
I/O queues created and deleted (R44, R45, R70, R78).
-/

namespace Sys2Proof.Proofs

open Sys2Proof.Machine Sys2Proof.Laws

variable {s t : State} {h g : Hdr} {qid size base : Nat}

/-! ### Creation (R44, R45) -/

theorem not_any_qid {α : Type} {key : α → Nat} {l : List α} (free : ∀ q ∈ l, key q ≠ qid) : l.any (fun q => key q == qid) = false := by
  simpa using free

theorem any_qid {α : Type} {key : α → Nat} {l : List α} (held : ∃ q ∈ l, key q = qid) : l.any (fun q => key q == qid) = true := by
  simpa using held

theorem execCreateIoCompletionQueue_accepted {vector : Nat} (r : AdminReady s h) (hq : qid ≠ 0)
    (free : ∀ q ∈ (s.ctrl h.ctrl).cqs, q.qid ≠ qid)
    (pairs : s.overPairs h.ctrl (max ((s.ctrl h.ctrl).sqs.filter fun q => q.qid != 0).length
      (((s.ctrl h.ctrl).cqs.filter fun q => q.qid != 0).length + 1)) = false)
    (two : 2 ≤ size) (most : size ≤ 65536) (hv : vector < s.vectors h.ctrl) :
    exec (.createIoCompletionQueue h qid size vector ⟨base, true⟩) s =
      .next ((s.modCtrl h.ctrl fun k => { k with cqs := recPut ComQ.qid k.cqs (ComQ.mk qid size base vector 0 0 true []) }).finish h
        (ansSt stOk)) := by
  have unused := not_any_qid free
  refine congrArg Host.Outcome.next ((adminCmd_of_ready r _).trans ?_)
  dsimp only
  rw [if_neg (by simp), if_neg (by simp [hq, unused, pairs]), if_neg (by simp only [capOf]; omega), if_neg (Nat.not_le.mpr hv)]

theorem execCreateIoSubmissionQueue_accepted {cqid : Nat} (r : AdminReady s h) (hq : qid ≠ 0)
    (free : ∀ q ∈ (s.ctrl h.ctrl).sqs, q.qid ≠ qid)
    (pairs : s.overPairs h.ctrl (max (((s.ctrl h.ctrl).sqs.filter fun q => q.qid != 0).length + 1)
      ((s.ctrl h.ctrl).cqs.filter fun q => q.qid != 0).length) = false)
    (two : 2 ≤ size) (most : size ≤ 65536) (hc : cqid ≠ 0) (there : ∃ q ∈ (s.ctrl h.ctrl).cqs, q.qid = cqid) (prio : Nat) :
    exec (.createIoSubmissionQueue h qid size cqid prio ⟨base, true⟩) s =
      .next ((s.modCtrl h.ctrl fun k => { k with sqs := recPut SubQ.qid k.sqs (SubQ.mk qid size base cqid prio 0 0 none) }).finish h
        (ansSt stOk)) := by
  have unused := not_any_qid free
  have posts := any_qid there
  refine congrArg Host.Outcome.next ((adminCmd_of_ready r _).trans ?_)
  dsimp only
  rw [if_neg (by simp), if_neg (by simp [hq, unused, pairs]), if_neg (by simp only [capOf]; omega), if_neg hc, if_neg (by simp [posts])]

/-! ### Deletion (R70) -/

/-- A record of a command that is dispatched with an answer, and waits for its completion entry alone. -/
def finished (a : Answer) (x : InFlight) : InFlight := { x with phase := .dispatched, answer := a, conds := [] }

theorem inFlight_finish (s : State) (h : Hdr) (a : Answer) (g : Hdr) :
    (s.finish h a).inFlight g = (s.inFlight g).map fun x => if g = h then finished a x else x := by
  by_cases e : g = h
  · subst e
    simp only [if_true]
    exact inFlight_modIn_self s g _ (by intro; rfl)
  · simp [e, inFlight_finish_of_ne]

/-- Commands of a list finished alike: each has the answer, and every other record stands. -/
theorem inFlight_foldl_finish (l : List Hdr) (s : State) (a : Answer) (g : Hdr) :
    (l.foldl (fun s k => s.finish k a) s).inFlight g = (s.inFlight g).map fun x => if g ∈ l then finished a x else x := by
  induction l generalizing s with
  | nil => simp
  | cons k l ih =>
    rw [List.foldl_cons, ih, inFlight_finish, Option.map_map]
    congr 1
    funext x
    by_cases e : g = k <;> by_cases m : g ∈ l <;> simp [e, m, finished]

theorem ctrls_foldl_finish (l : List Hdr) (s : State) (a : Answer) : (l.foldl (fun s k => s.finish k a) s).ctrls = s.ctrls :=
  (Frame.foldl l s (Frame.refl 0x200 s) fun u k fr => finish_frame u k a fr rfl).same .ctrls rfl

/-- The commands of a submission queue that are fetched and not dispatched (R69). -/
def waitingOn (s : State) (c qid : Nat) : List Hdr :=
  (s.inflight.filter fun x => x.hdr.ctrl == c && x.hdr.sq == qid && x.waits).map InFlight.hdr

theorem mem_waitingOn {c : Nat} (m : g ∈ waitingOn s c qid) : g.ctrl = c ∧ g.sq = qid := by
  obtain ⟨x, hx, rfl⟩ := List.mem_map.mp m
  have p := (List.mem_filter.mp hx).2
  simp only [Bool.and_eq_true, beq_iff_eq] at p
  exact p.1

theorem mem_waitingOn_of_undispatched (hs : g.sq = qid) (u : s.undispatched g = true) : g ∈ waitingOn s g.ctrl qid := by
  obtain ⟨x, hx, waits⟩ := (Option.any_eq_true ..).mp u
  have hg : x.hdr = g := by simpa using List.find?_some hx
  refine List.mem_map.mpr ⟨x, List.mem_filter.mpr ⟨List.mem_of_find?_eq_some hx, ?_⟩, hg⟩
  simp [hg, hs, waits]

/-- The state in which the commands that wait on a submission queue are finished, and it is gone. -/
def queueGone (s : State) (c qid : Nat) : State :=
  ((waitingOn s c qid).foldl (fun s g => s.finish g (ansSt stSqDeleted)) s).modCtrl c fun k =>
    { k with sqs := recErase SubQ.qid k.sqs qid }

theorem inFlight_queueGone (s : State) (c qid : Nat) (g : Hdr) :
    (queueGone s c qid).inFlight g =
      (s.inFlight g).map fun x => if g ∈ waitingOn s c qid then finished (ansSt stSqDeleted) x else x :=
  inFlight_foldl_finish ..

theorem execDeleteIoSubmissionQueue_accepted (r : AdminReady s h) (hq : qid ≠ 0) (there : ∃ q ∈ (s.ctrl h.ctrl).sqs, q.qid = qid) :
    exec (.deleteIoSubmissionQueue h qid) s = .next ((queueGone s h.ctrl qid).finish h (ansSt stOk)) := by
  have held := any_qid there
  exact congrArg Host.Outcome.next ((adminCmd_of_ready r _).trans (if_neg (by simp [hq, held])))

theorem execDeleteIoCompletionQueue_accepted (r : AdminReady s h) (hq : qid ≠ 0) (there : ∃ q ∈ (s.ctrl h.ctrl).cqs, q.qid = qid)
    (alone : ∀ q ∈ (s.ctrl h.ctrl).sqs, q.cqid ≠ qid) :
    exec (.deleteIoCompletionQueue h qid) s =
      .next ((s.modCtrl h.ctrl fun k => { k with cqs := recErase ComQ.qid k.cqs qid }).finish h (ansSt stOk)) := by
  have held := any_qid there
  have unused := not_any_qid alone
  refine congrArg Host.Outcome.next ((adminCmd_of_ready r _).trans ?_)
  dsimp only
  rw [if_neg (by simp [hq, held]), if_neg (by rw [unused]; exact Bool.false_ne_true)]

theorem not_mem_recErase {α : Type} (key : α → Nat) (l : List α) : ∀ q ∈ recErase key l qid, key q ≠ qid := fun q hq => by
  simpa using (List.mem_filter.mp hq).2

/-- Deleting a submission queue (R70). -/
theorem deleteSq_completes (r : AdminReady s h) (hq : qid ≠ 0) (there : ∃ q ∈ (s.ctrl h.ctrl).sqs, q.qid = qid) :
    Completes (.deleteIoSubmissionQueue h qid) s fun t => Answered t h (ansSt stOk) ∧ (∀ q ∈ (t.ctrl h.ctrl).sqs, q.qid ≠ qid) ∧
      (∀ g : Hdr, g ≠ h → g.ctrl = h.ctrl → g.sq = qid → s.undispatched g = true → Answered t g (ansSt stSqDeleted)) ∧
      (∀ g : Hdr, g ≠ h → g.ctrl ≠ h.ctrl ∨ g.sq ≠ qid → t.inFlight g = s.inFlight g) ∧ OnlyChanges [.ctrls, .inflight] s t := by
  have record : ((queueGone s h.ctrl qid).inFlight h).isSome = true := by
    rw [inFlight_queueGone, Option.isSome_map]
    exact inFlight_isSome_of_admin r
  refine completes_finish (execDeleteIoSubmissionQueue_accepted r hq there) record fun done only =>
    ⟨done, ?_, fun g hg hc hs u => ?_, fun g hg away => ?_, only⟩
  · have left : (((queueGone s h.ctrl qid).finish h (ansSt stOk)).ctrl h.ctrl).sqs = recErase SubQ.qid (s.ctrl h.ctrl).sqs qid := by
      refine (congrArg Ctrl.sqs (ctrl_modCtrl_self _ h.ctrl fun k => { k with sqs := recErase SubQ.qid k.sqs qid })).trans ?_
      rw [ctrl_congr (ctrls_foldl_finish ..)]
    rw [left]
    exact not_mem_recErase SubQ.qid _
  · obtain ⟨x, hx⟩ := Option.isSome_iff_exists.mp (inFlight_isSome_of_undispatched u)
    have m : g ∈ waitingOn s h.ctrl qid := hc ▸ mem_waitingOn_of_undispatched hs u
    rw [Answered, standing, inFlight_finish_of_ne _ _ hg, inFlight_queueGone, hx]
    simp [m, finished]
  · have out : g ∉ waitingOn s h.ctrl qid := fun m => away.elim (· (mem_waitingOn m).1) (· (mem_waitingOn m).2)
    rw [inFlight_finish_of_ne _ _ hg, inFlight_queueGone]
    simp [out]

/-- Settles O21: what each command puts on the controller's lists or takes off, and whom it finishes. -/
theorem queuesAreCreatedAndDeleted : Obligations.QueuesAreCreatedAndDeleted := by
  refine ⟨fun h qid size base vector s r hq free pairs two most hv => ?_,
    fun h qid size base cqid prio s r hq free pairs two most hc there => ?_,
    fun h qid s r hq there => deleteSq_completes r hq there, fun h qid s r hq there alone => ?_⟩
  · have made := ctrl_modCtrl_self s h.ctrl fun k => { k with cqs := recPut ComQ.qid k.cqs (ComQ.mk qid size base vector 0 0 true []) }
    refine completes_finish (execCreateIoCompletionQueue_accepted r hq free pairs two most hv) (inFlight_isSome_of_admin r)
      fun done only => ⟨done, ?_, fun c hc => ctrl_modCtrl_finish_of_ne s _ h _ hc, only⟩
    exact (congrArg (fun k => recGet ComQ.qid (Ctrl.cqs k) qid) made).trans ((recGet_recPut ..).trans (if_pos rfl))
  · have made := ctrl_modCtrl_self s h.ctrl fun k => { k with sqs := recPut SubQ.qid k.sqs (SubQ.mk qid size base cqid prio 0 0 none) }
    refine completes_finish (execCreateIoSubmissionQueue_accepted r hq free pairs two most hc there prio) (inFlight_isSome_of_admin r)
      fun done only => ⟨done, ?_, fun c hc => ctrl_modCtrl_finish_of_ne s _ h _ hc, only⟩
    exact (congrArg (fun k => recGet SubQ.qid (Ctrl.sqs k) qid) made).trans ((recGet_recPut ..).trans (if_pos rfl))
  · have left := ctrl_modCtrl_self s h.ctrl fun k => { k with cqs := recErase ComQ.qid k.cqs qid }
    refine completes_finish (execDeleteIoCompletionQueue_accepted r hq there alone) (inFlight_isSome_of_admin r) fun done only =>
      ⟨done, fun q m => ?_, only⟩
    exact not_mem_recErase ComQ.qid _ q ((congrArg Ctrl.cqs left) ▸ m)

end Sys2Proof.Proofs
end

section
/-!
The management endpoint (R53, R359, R409): a request on a bus that it answers leaves its response there, and in band it is kept for one
Receive.
-/

namespace Sys2Proof.Proofs

open Sys2Proof.Machine Sys2Proof.Laws

variable {s t : State} {h : Hdr} {bus : MiBus} {r : MiReq}

/-! ### A request on a bus -/

/-- The state in which a request's response waits on a bus. -/
def replied (s : State) (bus : MiBus) (r : MiReq) : State :=
  { (s.miServe r).2 with mgmt := { (s.miServe r).2.mgmt with out := some (bus, (s.miServe r).1) } }

theorem miBus_ready (answers : s.miReady bus = true) (r : MiReq) : s.miBus bus r = replied s bus r :=
  if_neg (by rw [answers]; exact Bool.false_ne_true)

theorem miBus_silent (silent : s.miReady bus = false) (r : MiReq) : s.miBus bus r = s := if_pos (by rw [silent]; rfl)

theorem onlyChanges_replied {l : List Component} (fr : Frame (partMask l) s (s.miServe r).2) (m : 0x4000000000000 ||| partMask l = partMask l) :
    OnlyChanges l s (replied s bus r) := onlyChanges_of_frame (upd_mgmt _ fr m)

/-- Serving a request changes nothing but the endpoint and the free values. -/
theorem miServe_keeps (s : State) (r : MiReq) : Frame 0xc000000000000 s (s.miServe r).2 := miServe_frame s r (Frame.refl _ s) rfl

/-- A request whose answer takes nothing changes the endpoint alone. -/
theorem onlyChanges_replied_of_pure (e : (s.miServe r).2 = s) : OnlyChanges [.mgmt] s (replied s bus r) :=
  onlyChanges_replied (l := [.mgmt]) (by rw [e]; exact Frame.refl _ s) rfl

theorem onlyChanges_replied_of_drawing (s : State) (bus : MiBus) (r : MiReq) : OnlyChanges [.mgmt, .fresh] s (replied s bus r) :=
  onlyChanges_replied (l := [.mgmt, .fresh]) (miServe_keeps s r) rfl

/-! ### Configurations (R53, R409) -/

/-- Is the value one that Configuration Set takes for the identifier? -/
def ConfigTaken (id value : Nat) : Prop := id = 1 ∧ 1 ≤ value ∧ value ≤ 3 ∨ id = 3

theorem miSet_taken {id value : Nat} (v : ConfigTaken id value) (s : State) :
    s.miSet id value = (miStatus 0, { s with mgmt := { s.mgmt with config := mapInsert s.mgmt.config id value } }) := by
  obtain ⟨rfl, lo, hi⟩ | rfl := v <;> unfold State.miSet
  · rw [if_neg (by simp [miConfigs, mapGet, lo, hi]), if_neg (by decide)]
  · rw [if_neg (by simp [miConfigs, mapGet]), if_neg (by decide)]

theorem miSet_refused {value : Nat} (v : value = 0 ∨ 3 < value) (s : State) : s.miSet 1 value = (miStatus miParameter, s) := by
  unfold State.miSet
  rw [if_pos (by simp [miConfigs, mapGet]; omega)]

theorem miGet_congr (e : t.mgmt.config = s.mgmt.config) (k : Nat) : t.miGet k = s.miGet k := by
  unfold State.miGet
  rw [e]

theorem miGet_inserted {id value : Nat} (e : t.mgmt.config = mapInsert s.mgmt.config id value) :
    t.miGet id = { miStatus 0 with detail := value } ∧ ∀ k, k ≠ id → t.miGet k = s.miGet k := by
  constructor
  · simp [State.miGet, e, mapGet_mapInsert]
  · intro k hk
    simp [State.miGet, e, mapGet_mapInsert, hk]

/-! ### What each request leaves on the bus -/

/-- The answers on a bus that the endpoint serves (R53). -/
theorem requests_answered (answers : s.miReady bus = true) :
    (∀ dtyp port ctrl : Nat, Completes (.readNvmeMiDataStructure bus dtyp port ctrl) s fun t =>
      t.mgmt.out = some (bus, s.miStructure dtyp port ctrl) ∧ OnlyChanges [.mgmt] s t) ∧
    (Completes (.nvmSubsystemHealthStatusPoll bus) s fun t => ∃ r fs, t.mgmt.out = some (bus, r) ∧ r.status = 0 ∧
      r.answer.data = .fields fs ∧ (1, 1, 255 - s.criticalWarning 1) ∈ fs ∧ (3, 1, s.lifeUsed 1) ∈ fs ∧
      OnlyChanges [.mgmt, .fresh] s t) ∧
    (∀ start count : Nat, Completes (.controllerHealthStatusPoll bus start count) s fun t => ∃ r, t.mgmt.out = some (bus, r) ∧
      r.status = 0 ∧ r.detail = ((s.ctrlList.filter fun c => decide (start ≤ c)).take count).length * 65536 ∧
      OnlyChanges [.mgmt, .fresh] s t) ∧
    (∀ id : Nat, Completes (.configurationGet bus id) s fun t => t.mgmt.out = some (bus, s.miGet id) ∧ OnlyChanges [.mgmt] s t) ∧
    (∀ id value : Nat, ConfigTaken id value →
      Completes (.configurationSet bus id value) s fun t => t.mgmt.out = some (bus, miStatus 0) ∧
        t.miGet id = { miStatus 0 with detail := value } ∧ (∀ k, k ≠ id → t.miGet k = s.miGet k) ∧ OnlyChanges [.mgmt] s t) ∧
    (∀ value : Nat, value = 0 ∨ 3 < value → Completes (.configurationSet bus 1 value) s fun t =>
      t.mgmt.out = some (bus, miStatus miParameter) ∧ ∀ k, t.miGet k = s.miGet k) ∧
    (∀ offset length : Nat, Completes (.vpdRead bus offset length) s fun t => ∃ r bs, t.mgmt.out = some (bus, r) ∧ r.status = 0 ∧
      r.answer.data = .bytes bs ∧ bs.length = length ∧ OnlyChanges [.mgmt] s t) ∧
    (∀ cns nsid : Nat, Completes (.miAdminTunnel bus (.identify cns nsid)) s fun t => ∃ r, t.mgmt.out = some (bus, r) ∧
      r.status = 0 ∧ r.answer = s.identify 1 cns nsid ∧ OnlyChanges [.mgmt] s t) ∧
    ∀ opcode : Nat, Completes (.miAdminTunnel bus (.other opcode)) s fun t => t.mgmt.out = some (bus, miStatus miOpcode) := by
  have run : ∀ r, Host.Outcome.next (s.miBus bus r) = Host.Outcome.next (φ := Fault) (ρ := Refusal) (replied s bus r) := fun r =>
    congrArg Host.Outcome.next (miBus_ready answers r)
  refine ⟨fun dtyp port ctrl => ⟨_, run _, rfl, onlyChanges_replied_of_pure rfl⟩,
    ⟨_, run _, _, _, rfl, rfl, rfl, by simp, by simp, onlyChanges_replied_of_drawing s bus _⟩,
    fun start count => ⟨_, run _, _, rfl, rfl, rfl, onlyChanges_replied_of_drawing s bus _⟩,
    fun id => ⟨_, run _, rfl, onlyChanges_replied_of_pure rfl⟩, fun id value v => ?_, fun value v => ?_,
    fun offset length => ⟨_, run _, _, _, rfl, rfl, rfl, by simp, onlyChanges_replied_of_pure rfl⟩,
    fun cns nsid => ⟨_, run _, _, rfl, rfl, rfl, onlyChanges_replied_of_pure rfl⟩, fun opcode => ⟨_, run _, rfl⟩⟩
  · have e : s.miServe (.configSet id value) = _ := miSet_taken v s
    have config : (replied s bus (.configSet id value)).mgmt.config = mapInsert s.mgmt.config id value := by rw [replied, e]
    obtain ⟨shown, others⟩ := miGet_inserted config
    refine ⟨_, run _, by rw [replied, e], shown, others, ?_⟩
    refine onlyChanges_replied (l := [.mgmt]) ?_ rfl
    rw [e]
    exact upd_mgmt _ (Frame.refl _ s) rfl
  · have e : s.miServe (.configSet 1 value) = _ := miSet_refused v s
    exact ⟨_, run _, by rw [replied, e], fun k => miGet_congr (by rw [replied, e]) k⟩

theorem requests_ignored (silent : s.miReady bus = false) (a b c : Nat) (cmd : TunnelCmd) :
    ∀ i ∈ [Instr.readNvmeMiDataStructure bus a b c, .nvmSubsystemHealthStatusPoll bus, .controllerHealthStatusPoll bus a b,
      .configurationGet bus a, .configurationSet bus a b, .vpdRead bus a b, .miAdminTunnel bus cmd], exec i s = .next s := by
  simp only [List.mem_cons, List.not_mem_nil, or_false]
  rintro i (rfl | rfl | rfl | rfl | rfl | rfl | rfl) <;> exact congrArg Host.Outcome.next (miBus_silent silent _)

/-! ### In band (R53) -/

/-- The state in which the response to a request is kept for a Receive. -/
def keptInBand (s : State) (r : MiReq) : State :=
  { (s.miServe r).2 with mgmt := { (s.miServe r).2.mgmt with inband := some (s.miServe r).1 } }

theorem execNvmeMiSend_manager (m : ManagerReady s h) (r : MiReq) :
    exec (.nvmeMiSend h r) s = .next ((keptInBand s r).finish h (ansDw0 (s.miServe r).1.status)) := by
  obtain ⟨run, one, -⟩ := m
  exact congrArg Host.Outcome.next ((run_of_runnable run _).trans (if_neg (by simp [isManager, one])))

theorem execNvmeMi_other (run : s.runnable h = true) (other : isManager h.ctrl = false) (r : MiReq) :
    ∀ i ∈ [Instr.nvmeMiSend h r, .nvmeMiReceive h], exec i s = .next (s.finish h (ansSt stOpcode)) := by
  simp only [List.mem_cons, List.not_mem_nil, or_false]
  rintro i (rfl | rfl) <;> exact congrArg Host.Outcome.next ((run_of_runnable run _).trans (if_pos (by rw [other]; rfl)))

theorem execNvmeMiReceive_kept {a : MiReply} (m : ManagerReady s h) (kept : s.mgmt.inband = some a) :
    exec (.nvmeMiReceive h) s = .next (({ s with mgmt := { s.mgmt with inband := none } } : State).finish h
      { ansDw0 (a.status + a.detail * 256) with data := a.answer.data }) := by
  obtain ⟨run, one, -⟩ := m
  refine congrArg Host.Outcome.next ((run_of_runnable run _).trans ((if_neg (by simp [isManager, one])).trans ?_))
  rw [kept]

theorem execNvmeMiReceive_none (m : ManagerReady s h) (none : s.mgmt.inband = none) :
    exec (.nvmeMiReceive h) s = .next (s.finish h (ansSt stSequence)) := by
  obtain ⟨run, one, -⟩ := m
  refine congrArg Host.Outcome.next ((run_of_runnable run _).trans ((if_neg (by simp [isManager, one])).trans ?_))
  rw [none]

/-- Settles O42, request by request on a bus and in band. -/
theorem managementRequestsAreAnswered : Obligations.ManagementRequestsAreAnswered := by
  refine ⟨fun bus s answers => requests_answered answers, fun bus a b c cmd s silent => requests_ignored silent a b c cmd,
    fun h req s m => ?_, fun h req s run other i hi =>
      completes_finished (execNvmeMi_other run other req i hi) (inFlight_isSome_of_runnable run),
    fun h s m => ⟨fun a kept => ?_, fun none => ?_⟩, fun addr s up => ?_, fun s a out => ?_⟩
  · have e := execNvmeMiSend_manager m req
    have record : ((keptInBand s req).inFlight h).isSome = true := by
      have kept : (keptInBand s req).inflight = s.inflight := (miServe_keeps s req).same .inflight rfl
      rw [inFlight_congr kept]
      exact inFlight_isSome_of_ready m
    refine ⟨_, e, answered_finish record _, rfl, ?_⟩
    refine onlyChanges_of_frame (l := [.mgmt, .inflight, .fresh]) (finish_frame _ h _ (upd_mgmt _ ?_ rfl) rfl)
    exact miServe_frame s req (Frame.refl _ s) rfl
  · have record : (({ s with mgmt := { s.mgmt with inband := none } } : State).inFlight h).isSome = true := inFlight_isSome_of_ready m
    exact ⟨_, execNvmeMiReceive_kept m kept, answered_finish record _, rfl⟩
  · exact ⟨_, execNvmeMiReceive_none m none, answered_finish (inFlight_isSome_of_ready m) _⟩
  · exact ⟨_, congrArg Host.Outcome.next (if_neg (by rw [up]; exact Bool.false_ne_true)), rfl,
      onlyChanges_of_frame (l := [.mgmt]) (upd_mgmt _ (Frame.refl _ s) rfl)⟩
  · exact ⟨_, congrArg Host.Outcome.next (if_pos (by rw [out]; rfl)), rfl,
      onlyChanges_of_frame (l := [.mgmt]) (upd_mgmt _ (Frame.refl _ s) rfl)⟩

end Sys2Proof.Proofs
end

section
/-!
Controllers enabled and reset (R45, R65, R68, R348, R407): what a reset of a controller leaves of it, of the others and of the package, as
long as it is no package reset.
-/

namespace Sys2Proof.Proofs

open Sys2Proof.Machine Sys2Proof.Laws

variable {s t : State} {c d : Nat}

/-! ### A change of every controller -/

theorem ctrl_map {f : Ctrl → Ctrl} (hid : ∀ k, (f k).id = k.id) (hreset : ∀ c, f (State.ctrlReset c) = State.ctrlReset c) (s : State)
    (c : Nat) : ({ s with ctrls := s.ctrls.map f } : State).ctrl c = f (s.ctrl c) := by
  have found : recGet Ctrl.id (s.ctrls.map f) c = (recGet Ctrl.id s.ctrls c).map f := by
    unfold recGet
    rw [List.find?_map]
    congr 2
    funext k
    simp [hid]
  change (recGet Ctrl.id (s.ctrls.map f) c).getD _ = f ((recGet Ctrl.id s.ctrls c).getD _)
  rw [found]
  cases recGet Ctrl.id s.ctrls c with
  | none => exact (hreset c).symm
  | some k => rfl

theorem ctrl_id (s : State) (c : Nat) : (s.ctrl c).id = c := by
  unfold State.ctrl
  cases e : recGet Ctrl.id s.ctrls c with
  | none => rfl
  | some k => simpa using List.find?_some e

/-- A controller once readiness is judged: it is ready where it is enabled and may serve (R348). -/
def judged (s : State) (k : Ctrl) : Ctrl := if k.en ∧ s.mayServe k.id then { k with rdy := true } else k

theorem ctrl_evalReady (s : State) (c : Nat) : s.evalReady.ctrl c = judged s (s.ctrl c) :=
  ctrl_map (f := judged s) (fun k => by unfold judged; split <;> rfl) (fun _ => if_neg (by simp [State.ctrlReset])) s c

theorem judged_cases (s : State) (k : Ctrl) : ∃ b, judged s k = { k with rdy := b } := by
  unfold judged
  split
  · exact ⟨true, rfl⟩
  · exact ⟨k.rdy, rfl⟩

/-! ### A controller reset (R65) -/

/-- A controller that is not enabled, and has no queue (R65). -/
structure Disabled (k : Ctrl) : Prop where
  en : k.en = false
  rdy : k.rdy = false
  sqs : k.sqs = []
  cqs : k.cqs = []

theorem disabled_ctrlReset (c : Nat) : Disabled (State.ctrlReset c) := ⟨rfl, rfl, rfl, rfl⟩

/-- A controller that is not listed has its reset values. -/
theorem ctrl_of_not_listed (h : c ∉ s.ctrls.map Ctrl.id) : s.ctrl c = State.ctrlReset c := by
  have none : recGet Ctrl.id s.ctrls c = none :=
    List.find?_eq_none.mpr fun k hk => by simpa using fun e => h (List.mem_map.mpr ⟨k, hk, e⟩)
  rw [State.ctrl, none]
  rfl

theorem ctrls_dropWork (s : State) (c : Nat) : ((s.dropWork c).discard c).ctrls = s.ctrls :=
  (discard_frame _ c (dropWork_frame s c (Frame.refl 0x20c003764204 s) rfl) rfl).same .ctrls rfl

theorem ctrl_resetCtrl_self (s : State) (c : Nat) : (s.resetCtrl c).ctrl c = (s.ctrl c).cleared := by
  refine (ctrl_modCtrl_self _ c _).trans ?_
  rw [ctrl_congr (ctrls_dropWork s c), Ctrl.cleared, ctrl_id]
  rfl

theorem ctrl_resetCtrl_of_ne (s : State) (hd : d ≠ c) : (s.resetCtrl c).ctrl d = s.ctrl d :=
  (ctrl_modCtrl_of_ne _ _ hd).trans (ctrl_congr (ctrls_dropWork s c) d)

theorem disabled_resetCtrl_self (s : State) (c : Nat) : Disabled ((s.resetCtrl c).ctrl c) := by
  rw [ctrl_resetCtrl_self]
  exact ⟨rfl, rfl, rfl, rfl⟩

theorem disabled_resetCtrl (h : Disabled (s.ctrl d)) : Disabled ((s.resetCtrl c).ctrl d) := by
  by_cases e : d = c
  · subst e
    exact disabled_resetCtrl_self s d
  · rwa [ctrl_resetCtrl_of_ne s e]

/-- No command of the controller is left in flight. -/
theorem inflight_resetCtrl (s : State) (c : Nat) : ∀ x ∈ (s.resetCtrl c).inflight, x.hdr.ctrl ≠ c := fun x hx => by
  have kept := (List.mem_filter.mp (show x ∈ (s.dropWork c).inflight.filter fun x => x.hdr.ctrl != c from hx)).2
  simpa using kept

theorem disabled_foldl_resetCtrl_of (l : List Nat) (h : Disabled (s.ctrl d)) : Disabled ((l.foldl State.resetCtrl s).ctrl d) := by
  induction l generalizing s with
  | nil => exact h
  | cons c l ih => exact ih (disabled_resetCtrl h)

/-- Every controller of the list is disabled. -/
theorem disabled_foldl_resetCtrl (l : List Nat) (s : State) (hc : c ∈ l) : Disabled ((l.foldl State.resetCtrl s).ctrl c) := by
  induction l generalizing s with
  | nil => exact absurd hc List.not_mem_nil
  | cons b l ih =>
    rcases List.mem_cons.mp hc with rfl | hc
    · exact disabled_foldl_resetCtrl_of l (disabled_resetCtrl_self s c)
    · exact ih _ hc

/-! ### The reset of a function (R65, R68, R360) -/

/-- A reset of this controller is no package reset: no image was committed in minimal mode (R360). -/
def NoRestart (s : State) (c : Nat) : Prop := ¬(c = 1 ∧ s.minimal ∧ s.start.minimalCommit)

theorem noRestart_of_none (h : s.start.minimalCommit = false) (c : Nat) : NoRestart s c := fun r => by simp [h] at r

/-- What a controller's reset takes with it: of the manager's, also what of an image was downloaded (R65; log entry 8). -/
def resetTaken (s : State) (c : Nat) : State :=
  if c = 1 then (s.resetCtrl c).modNvm fun v => { v with download := none } else s.resetCtrl c

theorem resetFn_eq (n : NoRestart s c) :
    s.resetFn c = if c = 1 ∧ (resetTaken s c).imageWaits then (resetTaken s c).beginSwitch else resetTaken s c := if_neg n

/-- A reset of a function that is no package reset keeps within the commands, controllers and work of the package (R65, R68). -/
theorem resetFn_keeps (n : NoRestart s c) : Frame 0x2ac003764304 s (s.resetFn c) := by
  have taken : Frame 0x2ac003764304 s (resetTaken s c) :=
    Frame.ite (modNvm_frame _ _ (resetCtrl_frame s c (Frame.refl _ s) rfl) rfl) (resetCtrl_frame s c (Frame.refl _ s) rfl)
  rw [resetFn_eq n]
  exact Frame.ite (beginSwitch_frame _ taken rfl) taken

theorem ctrls_resetTaken (s : State) (c : Nat) : (resetTaken s c).ctrls = (s.resetCtrl c).ctrls := by
  unfold resetTaken
  split <;> rfl

theorem inflight_resetTaken (s : State) (c : Nat) : (resetTaken s c).inflight = (s.resetCtrl c).inflight := by
  unfold resetTaken
  split <;> rfl

/-- An activation that begins takes readiness from every controller, and no queue (R68). -/
theorem ctrl_beginSwitch (s : State) (c : Nat) : s.beginSwitch.ctrl c = { s.ctrl c with rdy := false } := by
  have drained : ((s.modStart fun t => { t with switching := true }).sliceList.foldl State.drain
      (s.modStart fun t => { t with switching := true })).ctrls = s.ctrls :=
    (Frame.foldl _ _ (modStart_frame s _ (Frame.refl 0x80000020000 s) rfl) fun u n fr => drain_frame u n fr rfl).same .ctrls rfl
  refine (ctrl_map (f := fun k => { k with rdy := false }) (by intro; rfl) (fun _ => rfl) _ c).trans ?_
  exact congrArg (fun k : Ctrl => { k with rdy := false }) (ctrl_congr drained c)

theorem disabled_resetFn_self (n : NoRestart s c) : Disabled ((s.resetFn c).ctrl c) := by
  have taken : Disabled ((resetTaken s c).ctrl c) := by
    rw [ctrl_congr (ctrls_resetTaken s c)]
    exact disabled_resetCtrl_self s c
  rw [resetFn_eq n]
  split
  · rw [ctrl_beginSwitch]
    exact ⟨taken.en, rfl, taken.sqs, taken.cqs⟩
  · exact taken

theorem disabled_resetFn (n : NoRestart s c) (h : Disabled (s.ctrl d)) : Disabled ((s.resetFn c).ctrl d) := by
  have taken : Disabled ((resetTaken s c).ctrl d) := by
    rw [ctrl_congr (ctrls_resetTaken s c)]
    exact disabled_resetCtrl h
  rw [resetFn_eq n]
  split
  · rw [ctrl_beginSwitch]
    exact ⟨taken.en, rfl, taken.sqs, taken.cqs⟩
  · exact taken

theorem inflight_resetFn (n : NoRestart s c) : ∀ x ∈ (s.resetFn c).inflight, x.hdr.ctrl ≠ c := by
  have same : (s.resetFn c).inflight = (s.resetCtrl c).inflight := by
    rw [resetFn_eq n]
    split
    · exact ((beginSwitch_frame _ (Frame.refl 0x80000020100 _) rfl).same .inflight rfl).trans (inflight_resetTaken s c)
    · exact inflight_resetTaken s c
  rw [same]
  exact inflight_resetCtrl s c

/-- Without an image that waits for it, a reset of a function is a reset of its controller, and of nothing else than it (R65, R68). -/
theorem resetFn_of_no_image (n : NoRestart s c) (h : c ≠ 1 ∨ s.nvm.slots.next = none) : s.resetFn c = resetTaken s c := by
  rw [resetFn_eq n]
  refine if_neg fun ⟨one, waits⟩ => ?_
  have same : (resetTaken s c).nvm.slots = s.nvm.slots := by
    have reset : (s.resetCtrl c).nvm = s.nvm := (resetCtrl_frame s c (Frame.refl 0x20c003764304 s) rfl).same .nvm rfl
    rw [resetTaken, if_pos one, modNvm_nvm, reset]
  rw [State.imageWaits, same, h.resolve_left (not_not.mpr one)] at waits
  simp at waits

/-! ### Several controllers reset (R65, R407) -/

/-- The controllers of a set that are listed or have commands, but the manager's (R65). -/
def resetList (s : State) (p : Nat → Bool) : List Nat :=
  (((s.ctrls.map Ctrl.id) ++ (s.inflight.map fun x => x.hdr.ctrl)).eraseDups).filter fun c => p c && c != 1

theorem ctrlResets_eq (s : State) (p : Nat → Bool) :
    s.ctrlResets p = if p 1 then ((resetList s p).foldl State.resetCtrl s).resetFn 1 else (resetList s p).foldl State.resetCtrl s := rfl

theorem resets_keep (l : List Nat) (s : State) : Frame 0x20c003764304 s (l.foldl State.resetCtrl s) :=
  Frame.foldl l s (Frame.refl _ s) fun u c fr => resetCtrl_frame u c fr rfl

theorem noRestart_resets (l : List Nat) (h : s.start.minimalCommit = false) (c : Nat) : NoRestart (l.foldl State.resetCtrl s) c :=
  noRestart_of_none ((congrArg Start.minimalCommit ((resets_keep l s).same .start rfl)).trans h) c

theorem ctrlResets_keeps (h : s.start.minimalCommit = false) (p : Nat → Bool) : Frame 0x2ac003764304 s (s.ctrlResets p) := by
  have reset := (Frame.refl 0x2ac003764304 s).comp (resets_keep (resetList s p) s) rfl
  rw [ctrlResets_eq]
  exact Frame.ite (reset.comp (resetFn_keeps (noRestart_resets _ h 1)) rfl) reset

/-- Every controller of the set is disabled. -/
theorem disabled_ctrlResets (h : s.start.minimalCommit = false) {p : Nat → Bool} (hp : p c = true) : Disabled ((s.ctrlResets p).ctrl c) := by
  rw [ctrlResets_eq]
  have n := noRestart_resets (resetList s p) h 1
  by_cases one : c = 1
  · subst one
    rw [if_pos hp]
    exact disabled_resetFn_self n
  · have reset : Disabled (((resetList s p).foldl State.resetCtrl s).ctrl c) := by
      by_cases listed : c ∈ s.ctrls.map Ctrl.id
      · refine disabled_foldl_resetCtrl _ s (List.mem_filter.mpr ⟨?_, by simp [hp, one]⟩)
        exact List.mem_eraseDups.mpr (List.mem_append_left _ listed)
      · refine disabled_foldl_resetCtrl_of _ ?_
        rw [ctrl_of_not_listed listed]
        exact disabled_ctrlReset c
    split
    · exact disabled_resetFn n reset
    · exact reset

/-! ### Enabled (R45, R348) -/

theorem within_keeps (s : State) (lo hi n : Nat) : Frame 0x8000000000000 s (s.within lo hi n).2 := within_frame s lo hi n (Frame.refl _ s) rfl

theorem within_of_in {lo hi n : Nat} (s : State) (h : lo ≤ n) (h' : n ≤ hi) : s.within lo hi n = (n, s) := if_pos ⟨h, h'⟩

theorem mayServe_of_frame (fr : Frame 0x8000000000100 s t) (c : Nat) : t.mayServe c = s.mayServe c := by
  have rd : ∀ a, t.rd a = s.rd a := fun a => by rw [State.rd, State.rd, fr.same .regs rfl, fr.same .part rfl]
  have stage : t.stage = s.stage := by rw [State.stage, State.stage, State.fld, State.fld, rd]
  have minimal : t.minimal = s.minimal := congrArg (BitVec.getLsbD · 7) (rd _)
  have there : t.ctrlExists c = s.ctrlExists c := by
    unfold State.ctrlExists
    rw [minimal, fr.same .dual rfl]
  have state : t.tiState (ctrlFn c - 1) = s.tiState (ctrlFn c - 1) := by
    unfold State.tiState State.tenant
    rw [fr.same .tenants rfl]
  unfold State.mayServe
  rw [there, minimal, stage, state, fr.same .power rfl, fr.same .start rfl]

/-- Enabling gives a controller its admin queues, of the sizes that were asked for where they are allowed, in a state that has drawn free values
for those that are not (R45; log entry 4). -/
theorem execControllerEnable_eq {cc : CtrlConfig} (up : s.held = false) (there : s.ctrlExists cc.ctrl = true)
    (off : (s.ctrl cc.ctrl).en = false) (still : s.flrOn cc.ctrl = false) :
    ∃ (u : State) (ams mps sq cq : Nat), Frame 0x8000000000000 s u ∧
      (2 ≤ cc.asqSize → cc.asqSize ≤ 4096 → sq = cc.asqSize) ∧ (2 ≤ cc.acqSize → cc.acqSize ≤ 4096 → cq = cc.acqSize) ∧
      exec (.controllerEnable cc) s = .next ((u.modCtrl cc.ctrl fun k =>
        { k.withAdmin sq cc.asq cq cc.acq with en := true, shn := 0, shst := 0, ams := ams, mps := mps, css := cc.css }).evalReady) := by
  have ams := within_keeps s 0 (capOf cc.ctrl).ams cc.ams
  have mps := ams.comp (within_keeps _ (capOf cc.ctrl).mpsmin (capOf cc.ctrl).mpsmax cc.mps) rfl
  have sq := mps.comp (within_keeps _ 2 4096 cc.asqSize) rfl
  refine ⟨_, _, _, _, _, sq.comp (within_keeps _ 2 4096 cc.acqSize) rfl, fun h h' => ?_, fun h h' => ?_, if_neg ?_⟩
  · rw [within_of_in _ h h']
  · rw [within_of_in _ h h']
  · simp [up, there, off, still]

/-- Settles O15: CC.EN set and cleared, the reset of every controller, and a translation taken away. -/
theorem controllersAreEnabledAndReset : Obligations.ControllersAreEnabledAndReset := by
  refine ⟨?_, fun c s on still away => ?_, fun s up dump none => ?_, fun fn addr s => ?_⟩
  · rintro c cc s rfl up there off still
    obtain ⟨u, ams, mps, sq, cq, fr, hsq, hcq, e⟩ := execControllerEnable_eq up there off still
    generalize hf : (fun k : Ctrl =>
      ({ k.withAdmin sq cc.asq cq cc.acq with en := true, shn := 0, shst := 0, ams := ams, mps := mps, css := cc.css } : Ctrl)) = f at e
    have serves := mayServe_of_frame (modCtrl_frame u cc.ctrl f ((Frame.refl 0x8000000000100 s).comp fr rfl) rfl) cc.ctrl
    have shown := (ctrl_evalReady (u.modCtrl cc.ctrl f) cc.ctrl).trans (congrArg _ (ctrl_modCtrl_self u cc.ctrl f))
    obtain ⟨b, kept⟩ := judged_cases (u.modCtrl cc.ctrl f) { f (u.ctrl cc.ctrl) with id := cc.ctrl }
    refine ⟨_, e, ?_, ?_, ?_, fun may => ?_, commandsChangeOnlyTheirFootprint _ s _ e, fun h h' => ?_, fun h h' => ?_⟩
    · rw [shown, kept, ← hf]
    · rw [shown, kept, ← hf]
      rfl
    · rw [shown, kept, ← hf]
      rfl
    · rw [shown, judged, if_pos ⟨by rw [← hf], serves.trans may⟩]
    · rw [shown, kept, ← hf, ← hsq h h']
      rfl
    · rw [shown, kept, ← hf, ← hcq h h']
      rfl
  · have n : NoRestart s c := fun ⟨one, _, commit⟩ => by
      obtain ⟨none, -⟩ := away.resolve_left (not_not.mpr one)
      simp [none] at commit
    have e : exec (.controllerDisable c) s = .next (s.resetFn c) := congrArg Host.Outcome.next (if_pos (by simp [on, still]))
    have off := disabled_resetFn_self n
    have ctrls : (s.resetFn c).ctrls = (s.resetCtrl c).ctrls := by
      rw [resetFn_of_no_image n (away.imp_right And.right)]
      exact ctrls_resetTaken s c
    refine ⟨_, e, off.en, off.rdy, off.sqs, off.cqs, inflight_resetFn n, ?_, fun d hd => ?_⟩
    · rw [ctrl_congr ctrls, ctrl_resetCtrl_self]
      rfl
    · rw [ctrl_congr ctrls, ctrl_resetCtrl_of_ne s hd]
  · have e : exec .nvmSubsystemReset s = .next (s.ctrlResets fun _ => true) :=
      congrArg Host.Outcome.next (if_neg (by simp [up, dump]))
    refine ⟨_, e, fun c => ?_⟩
    have off := disabled_ctrlResets none (p := fun _ => true) (c := c) rfl
    exact ⟨off.en, off.sqs, off.cqs⟩
  · refine ⟨_, rfl, onlyChanges_of_frame (l := [.ats]) (upd_ats _ (Frame.refl _ s) rfl), by simp, fun p hp => ?_⟩
    have other : ¬(p.1 = fn ∧ p.2 = addr) := fun e => hp (Prod.ext e.1 e.2)
    simpa [-not_and, not_and_or] using fun _ => not_and_or.mp other

end Sys2Proof.Proofs
end

section
/-!
Links (R40, R41, R359, R407): what training gives a port, and what PERST takes from it.
-/

namespace Sys2Proof.Proofs

open Sys2Proof.Machine Sys2Proof.Laws

variable {s t : State} {port gen : Nat} {size : LinkSize}

/-! ### The links of the package -/

theorem links_setLink_self (s : State) (l : Link) : (s.setLink port l).links[port]? = s.links[port]?.map fun _ => l :=
  (modAt_get ..).trans (if_pos rfl)

theorem links_setLink_of_ne (s : State) (l : Link) {k : Nat} (hk : k ≠ port) : (s.setLink port l).links[k]? = s.links[k]? :=
  (modAt_get ..).trans (if_neg hk)

/-! ### A link that trains (R40, R41) -/

/-- A link that came up, of some generation and width, with the sizes that the host programs (R41). -/
def trained (l : Link) (gen width : Nat) (size : LinkSize) : Link :=
  { l with up := true, gen := gen, width := width, mps := max 128 (min 512 size.mps), mrrs := max 128 (min 4096 size.mrrs) }

/-- A package whose port is out of PERST or in it. -/
def withPerst (s : State) (port : Nat) (b : Bool) : State :=
  { s with pins := if port = 0 then { s.pins with perst0 := b } else { s.pins with perst1 := b } }

theorem perst_withPerst (s : State) (port : Nat) (b : Bool) :
    if port = 0 then (withPerst s port b).pins.perst0 = b else (withPerst s port b).pins.perst1 = b := by
  unfold withPerst
  split <;> rfl

/-- The link of a port after training: Gen1 x1 in minimal mode, and else what both partners support (R40, R359). -/
def trainedLink (s : State) (port gen : Nat) (size : LinkSize) : Link :=
  trained ((s.links[port]?).getD State.linkDown) (if s.minimal then 1 else min 6 gen) (if s.minimal then 1 else min s.maxWidth size.width) size

theorem execLinkTraining_of_starts (up : s.held = false) (starts : s.minimal = true ∨ s.stage ≠ 0)
    (there : port = 0 ∨ s.minimal = false ∧ port = 1 ∧ s.dual = true) :
    exec (.linkTraining port gen size) s =
      .next (((withPerst s port false).setLink port (trainedLink s port gen size)).firstLink) := by
  refine if_neg ?_
  rcases there with rfl | ⟨full, rfl, dual⟩
  · rcases starts with minimal | later
    · simp [up, minimal]
    · simp [up, later]
  · simp [up, full, dual, starts.resolve_left (by simp [full])]

/-- Training puts the link on its port, takes PERST back, and leaves the other port's link. -/
theorem completes_linkTraining (up : s.held = false) (starts : s.minimal = true ∨ s.stage ≠ 0)
    (there : port = 0 ∨ s.minimal = false ∧ port = 1 ∧ s.dual = true) :
    Completes (.linkTraining port gen size) s fun t =>
      t.links[port]? = s.links[port]?.map (fun _ => trainedLink s port gen size) ∧ (∀ k, k ≠ port → t.links[k]? = s.links[k]?) ∧
        (if port = 0 then t.pins.perst0 = false else t.pins.perst1 = false) := by
  have first := firstLink_frame ((withPerst s port false).setLink port (trainedLink s port gen size)) (Frame.refl 0x8020000000004 _) rfl
  refine ⟨_, execLinkTraining_of_starts up starts there, ?_, fun k hk => ?_, ?_⟩
  · rw [first.same .links rfl]
    exact links_setLink_self _ _
  · rw [first.same .links rfl]
    exact links_setLink_of_ne _ _ hk
  · rw [first.same .pins rfl]
    exact perst_withPerst s port false

/-! ### PERST (R65, R407) -/

theorem execPerstAssert_of_port (up : s.held = false) (dump : s.dumping = false) (there : port = 0 ∨ port = 1 ∧ s.dual = true) :
    exec (.perstAssert port) s = .next ((withPerst (s.setLink port State.linkDown) port true).ctrlResets fun c => ctrlPort c == port) := by
  refine if_neg ?_
  rcases there with rfl | ⟨rfl, dual⟩
  · simp [up, dump]
  · simp [up, dump, dual]

/-- Settles O13: training on both ports, in minimal mode, and PERST. -/
theorem linksTrainAndFall : Obligations.LinksTrainAndFall := by
  refine ⟨fun port gen width mps mrrs s l up later full link there => ?_, fun gen width mps mrrs s up minimal ports => ?_,
    fun port s up dump commit ports there => ?_, fun port s up dump => if_pos (by simp [up, dump])⟩
  · obtain ⟨t, e, own, other, perst⟩ := completes_linkTraining (gen := gen) (size := ⟨width, mps, mrrs⟩) up (.inr later)
      (there.imp_right fun h => ⟨full, h⟩)
    refine ⟨t, e, own.trans ?_, other, perst⟩
    simp [trainedLink, trained, link, full, State.maxWidth]
  · obtain ⟨t, e, own, -, -⟩ := completes_linkTraining (gen := gen) (size := ⟨width, mps, mrrs⟩) up (.inl minimal) (.inl rfl)
    refine ⟨t, e, trainedLink s 0 gen ⟨width, mps, mrrs⟩, ?_, rfl, if_pos minimal, if_pos minimal, ?_, ?_⟩
    · rw [own, List.getElem?_eq_getElem ports]
      rfl
    · exact max_le (by decide) (min_le_left 512 mps)
    · exact max_le (by decide) (min_le_left 4096 mrrs)
  · have keeps := ctrlResets_keeps (s := withPerst (s.setLink port State.linkDown) port true) commit fun c => ctrlPort c == port
    refine ⟨_, execPerstAssert_of_port up dump there, ?_, rfl, fun k hk => ?_, ?_, fun c hc => ?_⟩
    · rw [keeps.same .links rfl]
      refine (links_setLink_self s State.linkDown).trans ?_
      rw [List.getElem?_eq_getElem ports]
      rfl
    · rw [keeps.same .links rfl]
      exact links_setLink_of_ne s _ hk
    · rw [keeps.same .pins rfl]
      exact perst_withPerst _ port true
    · have off := disabled_ctrlResets (s := withPerst (s.setLink port State.linkDown) port true) (p := fun c => ctrlPort c == port) (c := c)
        commit (by simpa using hc)
      exact ⟨off.en, off.sqs, off.cqs⟩

end Sys2Proof.Proofs
end

section
/-!
Function Level Reset and shutdown (R66, R88, R89): what each step does to the controller, its tenant and the slices.
-/

namespace Sys2Proof.Proofs

open Sys2Proof.Machine Sys2Proof.Laws

variable {s t : State} {c : Nat}

/-! ### The steps of a Function Level Reset (R88) -/

/-- A function after step 5 of its Function Level Reset (R88). -/
structure FunctionCleared (t : State) (c : Nat) : Prop where
  en : (t.ctrl c).en = false
  sqs : (t.ctrl c).sqs = []
  msix : (t.ctrl c).msix = []
  inflight : ∀ x ∈ t.inflight, x.hdr.ctrl ≠ c
  ats : ∀ p ∈ t.ats, p.1 ≠ c

/-- A change of a controller that keeps its identifier gives what it makes of it. -/
theorem ctrl_modCtrl_of_id {f : Ctrl → Ctrl} (hid : ∀ k, (f k).id = k.id) (s : State) (c : Nat) : (s.modCtrl c f).ctrl c = f (s.ctrl c) := by
  rw [ctrl_modCtrl_self]
  have id : (f (s.ctrl c)).id = c := (hid _).trans (ctrl_id s c)
  generalize f (s.ctrl c) = k at id
  subst id
  rfl

/-- A controller without its MSI-X table. -/
def untabled (k : Ctrl) : Ctrl := { k with msix := [] }

theorem ctrl_flrClear_self (s : State) (c : Nat) : (s.flrClear c).ctrl c = untabled (s.ctrl c).cleared := by
  have same : (s.flrClear c).ctrls = ((s.resetCtrl c).modCtrl c untabled).ctrls := rfl
  rw [ctrl_congr same, ctrl_modCtrl_of_id (by intro; rfl), ctrl_resetCtrl_self]

theorem functionCleared_flrClear (s : State) (c : Nat) : FunctionCleared (s.flrClear c) c where
  en := by rw [ctrl_flrClear_self]; rfl
  sqs := by rw [ctrl_flrClear_self]; rfl
  msix := by rw [ctrl_flrClear_self]; rfl
  inflight := inflight_resetCtrl s c
  ats p hp := by simpa using (List.mem_filter.mp hp).2

/-- A controller whose Function Level Reset is in progress since the time given, or since it began before. -/
def resetting (now : Nat) (k : Ctrl) : Ctrl := { k with flr := some (k.flr.getD now) }

/-- A controller whose Function Level Reset is over. -/
def resetOver (k : Ctrl) : Ctrl := { k with flr := none }

/-- A virtual function's tenant when a Function Level Reset begins: what was saved of a frozen one no longer counts (R89). -/
def unsaved (x : Tenant) : Tenant := if x.state = .frozen then { x with saved := false } else x

theorem unsaved_ti (x : Tenant) : (unsaved x).ti = x.ti := by
  unfold unsaved
  split <;> rfl

/-- A Function Level Reset of a virtual function is shown, counted, and takes SAVED from a frozen tenant (R88, R89). -/
def flrBegun (s : State) (c : Nat) : State :=
  ((s.nextGen (ctrlFn c - 1)).modCtrl c (resetting s.now)).modTenant (ctrlFn c - 1) unsaved

theorem functionLevelReset_of_vf (up : s.held = false) (there : s.ctrlExists c = true) (vf : isPf c = false) :
    exec (.functionLevelReset c) s = .next (flrBegun s c) :=
  (if_neg (by simp [up, there])).trans (if_neg (by simp [vf]))

theorem functionLevelReset_of_pf (up : s.held = false) (there : s.ctrlExists c = true) (pf : isPf c = true) :
    exec (.functionLevelReset c) s = .next ((s.resetFn c).flrClear c) :=
  (if_neg (by simp [up, there])).trans (if_pos pf)

theorem ctrl_resetOver (u : State) (a k c : Nat) : ((u.modCtrl c resetOver).setBit a k).ctrl c = resetOver (u.ctrl c) :=
  (ctrl_congr (setBit_ctrls ..) c).trans (ctrl_modCtrl_of_id (by intro; rfl) u c)

/-- A function that is cleared stays so when its reset is over. -/
theorem FunctionCleared.over {u : State} (cleared : FunctionCleared u c) (a k : Nat) :
    FunctionCleared ((u.modCtrl c resetOver).setBit a k) c where
  en := by rw [ctrl_resetOver]; exact cleared.en
  sqs := by rw [ctrl_resetOver]; exact cleared.sqs
  msix := by rw [ctrl_resetOver]; exact cleared.msix
  inflight := cleared.inflight
  ats := cleared.ats

/-- A package when the Function Level Reset of a controller ends: its unacknowledged writes left the buffer, its messages ended (R88, R315). -/
def flrSettled (s : State) (c : Nat) : State :=
  (((s.dropUnacked c).digests.filter fun q => q.2.owner == ctrlFn c - 1).map (·.1)).foldl (fun s no => s.endDigest no 8) (s.dropUnacked c)

theorem flrComplete_of_on (on : s.flrOn c = true) :
    exec (.flrComplete c) s =
      .next ((((flrSettled s c).flrClear c).modCtrl c resetOver).setBit Adr.fnEvt 2) :=
  if_neg (by simp [on])

/-! ### Shutdown (R66) -/

/-- A version that a shutdown of the controller waits for is programmed as soon as it can be. -/
def triggered (c : Nat) (v : Version) : Version := if shutScope c v then { v with trigger := true } else v

theorem trigger_of_scope {v : Version} (old : v.acked ≠ [] → isPf c = true ∨ v.writer = ctrlOwner c → shutScope c v = true) :
    (triggered c v).acked ≠ [] → isPf c = true ∨ (triggered c v).writer = ctrlOwner c → (triggered c v).trigger = true := by
  unfold triggered
  split
  case isTrue => exact fun _ _ => rfl
  case isFalse out => exact fun acked mine => absurd (old acked mine) out

theorem shutScope_iff {v : Version} : shutScope c v = true ↔ v.acked ≠ [] ∧ (isPf c = true ∨ v.writer = ctrlOwner c) := by
  simp [shutScope]

/-- Settles O16: the reset of a virtual and of a physical function, its end, and a shutdown's two steps. -/
theorem functionLevelResetsRunInTheirSteps : Obligations.FunctionLevelResetsRunInTheirSteps := by
  refine ⟨fun c s up there vf => ?_, fun c s up there pf away => ?_, fun c s on => ?_, fun c abrupt s up on still => ?_,
    fun c s begun none => ?_⟩
  · have keeps : Frame 0x1104 s (flrBegun s c) :=
      modTenant_frame _ _ _ (modCtrl_frame _ _ _ (nextGen_frame s _ (Frame.refl _ s) rfl) rfl) rfl
    refine ⟨_, functionLevelReset_of_vf up there vf, ?_, rd_wr_self s _ _, fun x hx frozen => ?_, regsBut_wr s _ _,
      onlyChanges_of_frame (l := [.regs, .ctrls, .tenants]) keeps⟩
    · have same : (flrBegun s c).ctrls = ((s.nextGen (ctrlFn c - 1)).modCtrl c (resetting s.now)).ctrls := rfl
      rw [State.flrOn, ctrl_congr same, ctrl_modCtrl_of_id (by intro; rfl)]
      rfl
    · refine (congrArg (Option.map Tenant.saved) (tenant_modTenant _ _ _ unsaved unsaved_ti)).trans ?_
      change ((s.tenant (ctrlFn c - 1)).map _).map _ = _
      simp [hx, unsaved, frozen]
  · have cleared := functionCleared_flrClear (s.resetFn c) c
    exact ⟨_, functionLevelReset_of_pf up there pf, cleared.en, cleared.sqs, cleared.msix, cleared.inflight, cleared.ats⟩
  · have cleared := (functionCleared_flrClear (flrSettled s c) c).over Adr.fnEvt 2
    refine ⟨_, flrComplete_of_on on, ?_, bit_setBit_self _ _ _ (by decide), cleared.en, cleared.sqs, cleared.msix, cleared.inflight, cleared.ats⟩
    rw [State.flrOn, ctrl_resetOver]
    rfl
  · have e : exec (.shutdown c abrupt) s =
        .next ((s.modCtrl c fun k => { k with shn := if abrupt then 2 else 1, shst := 1 }).mapSlices fun x =>
          { x with versions := x.versions.map (triggered c) }) := if_neg (by simp [up, on, still])
    have shown := ctrl_modCtrl_self s c fun k => { k with shn := if abrupt then 2 else 1, shst := 1 }
    refine ⟨_, e, congrArg Ctrl.shst shown, congrArg Ctrl.shn shown, fun x hx v hv acked mine => ?_, commandsChangeOnlyTheirFootprint _ s _ e⟩
    obtain ⟨y, -, rfl⟩ := List.mem_map.mp hx
    obtain ⟨w, -, rfl⟩ := List.mem_map.mp hv
    exact trigger_of_scope (fun acked mine => shutScope_iff.mpr ⟨acked, mine⟩) acked mine
  · have out : ∀ x ∈ s.slices, ∀ v ∈ x.versions, shutScope c v = false := fun x hx v hv => by
      refine Bool.eq_false_iff.mpr fun scope => ?_
      obtain ⟨acked, mine⟩ := shutScope_iff.mp scope
      obtain ⟨vf, other⟩ := (none x hx v hv).resolve_left acked
      exact mine.elim (by simp [vf]) other
    have e : exec (.shutdownComplete c) s = .next (s.modCtrl c fun k => { k with shst := 2 }) :=
      if_pos ⟨begun, by simpa using out⟩
    exact ⟨_, e, congrArg Ctrl.shst (ctrl_modCtrl_self s c fun k => { k with shst := 2 }), commandsChangeOnlyTheirFootprint _ s _ e⟩

end Sys2Proof.Proofs
end

section
/-!
The MSI-X table of a controller, and commands that no controller supports (R70, R76, R388).
-/

namespace Sys2Proof.Proofs

open Sys2Proof.Machine Sys2Proof.Laws

variable {s t : State} {c v : Nat}

/-! ### The MSI-X table (R388) -/

/-- A controller with an entry of its MSI-X table written. -/
def withVector (m : Msix) (k : Ctrl) : Ctrl := { k with msix := recPut Msix.vector k.msix m }

theorem vector_withVector (m : Msix) (k : Ctrl) : (withVector m k).vector m.vector = m := by
  rw [Ctrl.vector, withVector, recGet_recPut, if_pos rfl]
  rfl

theorem execMsiXTableWrite_of_fits {masked : Bool} {addr data : Nat} (up : s.held = false) (there : s.ctrlExists c = true)
    (still : s.flrOn c = false) (fits : if isPf c then v < 1025 else v < 257 ∧ masked = true) :
    exec (.msiXTableWrite c v masked addr data) s =
      .next (s.modCtrl c (withVector ⟨v, masked, addr, data, ((s.ctrl c).vector v).pending && masked⟩)) := by
  refine if_neg ?_
  cases pf : isPf c
  case false =>
    obtain ⟨inside, rfl⟩ : v < 257 ∧ masked = true := by simpa [pf] using fits
    simp [up, there, still, inside]
  case true =>
    have inside : v < 1025 := by simpa [pf] using fits
    simp [up, there, still, Nat.not_le.mpr inside]

/-- A vector count that a virtual function has none above is a count that no vector of its table is below. -/
theorem execMsiXTableWrite_of_unmask {addr data : Nat} (vf : isPf c = false) (beyond : ∀ x, s.tenant (ctrlFn c - 1) = some x → x.vi ≤ v) :
    exec (.msiXTableWrite c v false addr data) s = .next s := by
  refine if_pos ?_
  have count : ((s.tenant (ctrlFn c - 1)).map Tenant.vi).getD 0 ≤ v := by
    cases there : s.tenant (ctrlFn c - 1) with
    | none => exact Nat.zero_le v
    | some x => exact beyond x there
  simp [vf, count]

/-! ### Opcodes that are not supported (R70, R76) -/

theorem execUnsupportedOpcode_of_runnable {h : Hdr} (op : OpAction) (hr : s.runnable h = true) :
    exec (.unsupportedOpcode h op) s = .next (s.finish h
      (ansSt (if isManager h.ctrl && !s.minimal && h.sq == 0 && reservedAction op.opcode op.action then stField else stOpcode))) :=
  congrArg Host.Outcome.next (run_of_runnable hr _)

/-- Settles O17: table writes that show, that are ignored, and opcodes and actions that nothing supports. -/
theorem msiXEntriesAndUnsupportedOpcodes : Obligations.MsiXEntriesAndUnsupportedOpcodes := by
  refine ⟨fun c v masked addr data s up there still fits => ?_, fun c v addr data s => execMsiXTableWrite_of_unmask,
    fun h opcode action s hr known => ?_, fun h opcode action s ready admin reserved => ?_⟩
  · have e := execMsiXTableWrite_of_fits (addr := addr) (data := data) up there still fits
    refine ⟨_, e, commandsChangeOnlyTheirFootprint _ s _ e, ?_⟩
    rw [ctrl_modCtrl_of_id (by intro; rfl)]
    exact vector_withVector _ _
  · have e := execUnsupportedOpcode_of_runnable ⟨opcode, action⟩ hr
    simp only [known, Bool.and_false] at e
    exact completes_finished e (inFlight_isSome_of_runnable hr)
  · obtain ⟨hr, manager, full⟩ := ready
    have e := execUnsupportedOpcode_of_runnable ⟨opcode, action⟩ hr
    simp only [isManager, manager, full, admin, reserved] at e
    exact completes_finished e (inFlight_isSome_of_runnable hr)

end Sys2Proof.Proofs
end

section
/-!
Doorbells, fetch and completion (R46, R47, R56, R62, R85): what each does to its queue, to the record of its command and to others.
-/

namespace Sys2Proof.Proofs

open Sys2Proof.Machine Sys2Proof.Laws

variable {s t : State} {c qid : Nat} {h g : Hdr}

/-! ### Doorbells (R85, R387) -/

/-- A queue of a controller that changes is the old one, changed. -/
theorem sq_modSq {f : SubQ → SubQ} (hid : ∀ q, (f q).qid = q.qid) (k : Ctrl) (qid : Nat) :
    recGet SubQ.qid (k.modSq qid f).sqs qid = (recGet SubQ.qid k.sqs qid).map f := by
  refine (recGet_recMod SubQ.qid k.sqs qid qid f hid).trans ?_
  simp

theorem cq_modCq {f : ComQ → ComQ} (hid : ∀ q, (f q).qid = q.qid) (k : Ctrl) (qid : Nat) :
    recGet ComQ.qid (k.modCq qid f).cqs qid = (recGet ComQ.qid k.cqs qid).map f := by
  refine (recGet_recMod ComQ.qid k.cqs qid qid f hid).trans ?_
  simp

/-- A submission queue after its tail doorbell: moved, or the tail recorded while fetch is stopped. -/
def SubQ.rung (stopped : Bool) (tail : Nat) (q : SubQ) : SubQ :=
  if q.size ≤ tail then q else if stopped then { q with recorded := some tail } else { q with tail := tail }

theorem SubQ.rung_qid (stopped : Bool) (tail : Nat) (q : SubQ) : (SubQ.rung stopped tail q).qid = q.qid := by
  unfold SubQ.rung
  split
  · rfl
  · split <;> rfl

/-- A completion queue after its head doorbell: the entries up to it are released. -/
def ComQ.rung (head : Nat) (q : ComQ) : ComQ :=
  if q.size ≤ head ∨ q.entries.length < q.freed head then q else { q with head := head, entries := q.entries.drop (q.freed head) }

theorem ComQ.rung_qid (head : Nat) (q : ComQ) : (ComQ.rung head q).qid = q.qid := by
  unfold ComQ.rung
  split <;> rfl

theorem execSqTailDoorbell_eq (up : s.held = false) (on : (s.ctrl c).en = true) (still : s.flrOn c = false) (tail : Nat) :
    exec (.sqTailDoorbell c qid tail) s = .next (s.modCtrl c fun k => k.modSq qid (SubQ.rung (s.fetchStopped c) tail)) :=
  if_neg (by simp [up, on, still])

theorem execCqHeadDoorbell_eq (up : s.held = false) (on : (s.ctrl c).en = true) (still : s.flrOn c = false) (head : Nat) :
    exec (.cqHeadDoorbell c qid head) s = .next (s.modCtrl c fun k => k.modCq qid (ComQ.rung head)) :=
  if_neg (by simp [up, on, still])

/-! ### Fetch (R46, R47, R62) -/

/-- A controller from whose queue an entry was taken. -/
def taken (qid : Nat) (a : Arb) (k : Ctrl) : Ctrl := { k.modSq qid (fun q => { q with head := (q.head + 1) % q.size }) with arb := a }

/-- A package in which a command has come into a command slot, and its entry is read from the host (R46, R47). -/
def fetchedInto (s : State) (h : Hdr) (e : SqEntry) (q : SubQ) (a : Arb) : State :=
  { s.modCtrl h.ctrl (taken h.sq a) with order := s.order + 1, inflight := s.inflight ++ [fetchedNow h q.cqid (s.order + 1) e] }

/-- What a fetch comes to before a fault is met. -/
def fetched (s : State) (h : Hdr) (e : SqEntry) (q : SubQ) (a : Arb) : State :=
  (fetchedInto s h e q a).hdStart h kFetch false [(q.base + 64 * q.head, 64)]

/-- Arbitration serves this queue of the controller, which has an entry, a slot and leave to fetch it (R46, R47). -/
structure MayTake (s : State) (h : Hdr) (q : SubQ) (a : Arb) : Prop where
  pick : (s.ctrl h.ctrl).pick = some (h.sq, a)
  queue : recGet SubQ.qid (s.ctrl h.ctrl).sqs h.sq = some q
  may : s.mayFetch h.ctrl = true
  new : s.inFlight h = none
  slot : s.slotFree h.ctrl = true

variable {e : SqEntry} {q : SubQ} {a : Arb}

theorem execCommandFetch_eq (m : MayTake s h q a) : exec (.commandFetch ⟨h, e⟩) s = .next ((fetched s h e q a).meetFault h e.nsid) := by
  change execCommandFetch ⟨h, e⟩ s = _
  unfold execCommandFetch
  dsimp only
  rw [m.pick, m.queue]
  exact if_neg (by simp [m.may, m.new, m.slot])

theorem fetched_keeps (s : State) (h : Hdr) (e : SqEntry) (q : SubQ) (a : Arb) : Frame 0xf00004 (fetchedInto s h e q a) (fetched s h e q a) :=
  hdStart_frame _ h kFetch false _ (Frame.refl _ _) rfl

theorem inFlight_fetched_self (new : s.inFlight h = none) : (fetched s h e q a).inFlight h = some (fetchedNow h q.cqid (s.order + 1) e) := by
  have found : (s.inflight ++ [fetchedNow h q.cqid (s.order + 1) e]).find? (fun x => x.hdr == h) = some (fetchedNow h q.cqid (s.order + 1) e) := by
    rw [List.find?_append, show s.inflight.find? (fun x => x.hdr == h) = none from new]
    simp [fetchedNow]
  exact (inFlight_congr ((fetched_keeps s h e q a).same .inflight rfl) h).trans found

theorem inFlight_fetched_of_ne (hg : g ≠ h) : (fetched s h e q a).inFlight g = s.inFlight g := by
  have other : (s.inflight ++ [fetchedNow h q.cqid (s.order + 1) e]).find? (fun x => x.hdr == g) = s.inFlight g := by
    rw [List.find?_append]
    simp [fetchedNow, hg.symm, State.inFlight]
  exact (inFlight_congr ((fetched_keeps s h e q a).same .inflight rfl) g).trans other

theorem ctrl_fetched (s : State) (h : Hdr) (e : SqEntry) (q : SubQ) (a : Arb) :
    (fetched s h e q a).ctrl h.ctrl = taken h.sq a (s.ctrl h.ctrl) :=
  (ctrl_congr ((fetched_keeps s h e q a).same .ctrls rfl) _).trans (ctrl_modCtrl_of_id (by intro; rfl) s h.ctrl)

theorem namedBy_fetched (c n : Nat) : (fetched s h e q a).namedBy c n = s.namedBy c n := by
  have same : (fetched s h e q a).namespaces = s.namespaces := (fetched_keeps s h e q a).same .namespaces rfl
  rw [State.namedBy, same]
  rfl

/-- The pairs of a command whose faults are pending; an admin command has none (R62). -/
def pendingOf (s : State) (h : Hdr) (nsid : Nat) : List Nat :=
  if h.sq = 0 then [] else (s.namedBy h.ctrl nsid).filter fun n => s.nvm.faultPairs.contains (ctrlOwner h.ctrl, n)

theorem meetFault_of_none {nsid : Nat} (none : pendingOf s h nsid = []) : s.meetFault h nsid = s := by
  unfold State.meetFault
  dsimp only
  rw [show (if h.sq = 0 then [] else _) = _ from none]

theorem meetFault_of_pending {nsid n : Nat} {l : List Nat} (first : pendingOf s h nsid = n :: l) :
    s.meetFault h nsid = ((s.namedBy h.ctrl nsid).foldl (fun s k => s.clearPending (ctrlOwner h.ctrl) k) s).finish h { ansSt stDeferred with nsid := n } := by
  unfold State.meetFault
  dsimp only
  rw [show (if h.sq = 0 then [] else _) = _ from first]

theorem pendingOf_fetched (n : Nat) : pendingOf (fetched s h e q a) h n = pendingOf s h n := by
  have same : (fetched s h e q a).nvm = s.nvm := (fetched_keeps s h e q a).same .nvm rfl
  rw [pendingOf, namedBy_fetched, same]
  rfl

theorem faultPairs_clearPending (s : State) (owner n : Nat) : (owner, n) ∉ (s.clearPending owner n).nvm.faultPairs := fun mem => by
  have kept := (List.mem_filter.mp (show (owner, n) ∈ s.nvm.faultPairs.filter (· != (owner, n)) from mem)).2
  simp at kept

/-! ### Completion (R56) -/

/-- A package that sends the entry of a completion, and the message of its vector, to the host (R267). -/
def sending (s : State) (h : Hdr) (q : ComQ) : State :=
  (s.translate h.ctrl ((s.ctrl h.ctrl).postBufs q)).hdPlace
    (transferOf kComplete true (ctrlOwner h.ctrl) none (s.requests (ctrlPort h.ctrl) true ((s.ctrl h.ctrl).postBufs q)))

/-- A package in which a command has left its slot. -/
def unslotted (s : State) (h : Hdr) : State := { s with order := s.order + 1, inflight := s.inflight.filter fun y => y.hdr != h }

/-- A package in which the blocks that a successful command wrote are acknowledged (R56). -/
def acknowledged (s : State) (x : InFlight) : State := if x.answer.status.good then x.wrote.foldl State.acknowledge s else s

/-- A controller whose completion queue has got the entry of a command. -/
def posted (h : Hdr) (x : InFlight) (q : ComQ) (k : Ctrl) : Ctrl :=
  ((k.modCq x.cqid fun q => q.post h x.answer).interrupt q.vector).noteError h x.answer

/-- A command is dispatched, waits for nothing, has moved its data, and its completion queue has room (R46, R56). -/
structure MayPost (s : State) (h : Hdr) (x : InFlight) (q : ComQ) : Prop where
  up : s.held = false
  record : s.inFlight h = some x
  phase : x.phase = .dispatched
  conds : x.conds = []
  queue : recGet ComQ.qid (s.ctrl h.ctrl).cqs x.cqid = some q
  room : q.entries.length + 1 < q.size
  still : s.flrOn h.ctrl = false
  moved : s.moving h = false
  gate : s.hdOpen h.ctrl kComplete = true

variable {x : InFlight} {p : ComQ}

theorem execCompletionPost_eq (m : MayPost s h x p) :
    exec (.completionPost h) s = if x.answer.status.good && s.overridden x != [] then .next (s.waitThrough h (s.overridden x)) else
      .next ((acknowledged (unslotted (sending s h p) h) x).modCtrl h.ctrl (posted h x p)) := by
  change execCompletionPost h s = _
  unfold execCompletionPost
  rw [m.record]
  dsimp only
  rw [m.phase, m.conds, m.queue]
  exact if_neg (by simp [m.up, m.room, m.still, m.moved, m.gate])

theorem acknowledged_keeps (s : State) (x : InFlight) : Frame 0x20000 s (acknowledged s x) :=
  Frame.ite (Frame.foldl _ _ (Frame.refl _ s) fun u w fr => acknowledge_frame u w fr rfl) (Frame.refl _ s)

theorem sending_keeps (s : State) (h : Hdr) (q : ComQ) : Frame 0xf00000 s (sending s h q) :=
  hdPlace_frame _ _ (translate_frame s _ _ (Frame.refl _ s) rfl) rfl

/-- Until its queue takes the entry, a completion keeps the controllers as they were. -/
theorem ctrl_unslotted_sending (s : State) (h : Hdr) (q : ComQ) (x : InFlight) (c : Nat) :
    (acknowledged (unslotted (sending s h q) h) x).ctrl c = s.ctrl c :=
  (ctrl_congr ((acknowledged_keeps _ x).same .ctrls rfl) c).trans (ctrl_congr (s := s) ((sending_keeps s h q).same .ctrls rfl) c)

theorem inflight_posted (s : State) (h : Hdr) (q : ComQ) (x : InFlight) :
    ((acknowledged (unslotted (sending s h q) h) x).modCtrl h.ctrl (posted h x q)).inflight = s.inflight.filter fun y => y.hdr != h := by
  refine ((acknowledged_keeps (unslotted (sending s h q) h) x).same .inflight rfl).trans ?_
  exact congrArg (List.filter _) ((sending_keeps s h q).same .inflight rfl)

theorem order_posted (s : State) (h : Hdr) (q : ComQ) (x : InFlight) :
    ((acknowledged (unslotted (sending s h q) h) x).modCtrl h.ctrl (posted h x q)).order = s.order + 1 := by
  refine ((acknowledged_keeps (unslotted (sending s h q) h) x).same .order rfl).trans ?_
  exact congrArg (· + 1) ((sending_keeps s h q).same .order rfl)

/-- A command that leaves its slot has no record, and every other one keeps its own. -/
theorem inFlight_of_unslotted (left : t.inflight = s.inflight.filter fun y => y.hdr != h) (g : Hdr) :
    t.inFlight g = if g = h then none else s.inFlight g := by
  rw [State.inFlight, left, List.find?_filter]
  split
  case isTrue same =>
    subst same
    exact List.find?_eq_none.mpr fun y _ => by simp
  case isFalse other =>
    refine List.find?_congr fun y _ => ?_
    by_cases own : y.hdr = g
    · simp [own, other]
    · simp [own]

/-- An interrupt keeps a controller's identifier and its completion queues. -/
theorem interrupt_keeps (k : Ctrl) (v : Nat) : (k.interrupt v).id = k.id ∧ (k.interrupt v).cqs = k.cqs := by
  unfold Ctrl.interrupt
  dsimp only
  split <;> exact ⟨rfl, rfl⟩

/-- An entry of its Error Information log keeps a controller's identifier and its completion queues. -/
theorem noteError_keeps (k : Ctrl) (h : Hdr) (a : Answer) : (k.noteError h a).id = k.id ∧ (k.noteError h a).cqs = k.cqs := by
  unfold Ctrl.noteError
  split
  · exact ⟨rfl, rfl⟩
  · dsimp only
    split <;> exact ⟨rfl, rfl⟩

theorem posted_id (h : Hdr) (x : InFlight) (q : ComQ) (k : Ctrl) : (posted h x q k).id = k.id :=
  (noteError_keeps _ h x.answer).1.trans (interrupt_keeps (k.modCq x.cqid fun q => q.post h x.answer) q.vector).1

theorem cq_posted (h : Hdr) (x : InFlight) (q : ComQ) (k : Ctrl) :
    recGet ComQ.qid (posted h x q k).cqs x.cqid = (recGet ComQ.qid k.cqs x.cqid).map fun q => q.post h x.answer := by
  rw [posted, (noteError_keeps _ _ _).2, (interrupt_keeps _ _).2, cq_modCq (by intro; rfl)]

/-- Versions that a completion waits for change no record but its own. -/
theorem inflight_waitThrough (s : State) (h : Hdr) (l : List (Nat × Nat)) :
    (s.waitThrough h l).inflight = (s.modIn h fun x => { x with conds := l.map fun w => Cond.programmed w.1 w.2 }).inflight := by
  have keeps : Frame 0x20000 (s.modIn h fun x => { x with conds := l.map fun w => Cond.programmed w.1 w.2 }) (s.waitThrough h l) :=
    Frame.foldl l _ (Frame.refl _ _) fun u w fr => modSlice_frame _ _ fr rfl (SlmSame.of fun _ => rfl)
  exact keeps.same .inflight rfl

/-- Settles O14: both doorbells, a fetch with and without a fault to report, and a completion with and without a program to wait for. -/
theorem doorbellsFetchAndCompletion : Obligations.DoorbellsFetchAndCompletion := by
  refine ⟨fun c qid tail s q up on still queue inside => ?_, fun c qid head s q up on still queue inside posted => ?_,
    fun h e s q a pick queue may new slot clear => ?_, fun h e s q a n pick queue may new slot io hn one named pending => ?_,
    fun h s x q up record phase conds queue room still moved gate through => ?_,
    fun h s x q up record phase conds queue room still moved gate good through => ?_⟩
  · have e := execSqTailDoorbell_eq (qid := qid) up on still tail
    refine ⟨_, e, commandsChangeOnlyTheirFootprint _ s _ e, fun d hd => ctrl_modCtrl_of_ne s _ hd, ?_⟩
    rw [ctrl_modCtrl_of_id (by intro; rfl), sq_modSq (SubQ.rung_qid _ _), queue, Option.map_some, SubQ.rung, if_neg (Nat.not_le.mpr inside)]
  · have e := execCqHeadDoorbell_eq (qid := qid) up on still head
    refine ⟨_, e, commandsChangeOnlyTheirFootprint _ s _ e, fun d hd => ctrl_modCtrl_of_ne s _ hd, ?_⟩
    rw [ctrl_modCtrl_of_id (by intro; rfl), cq_modCq (ComQ.rung_qid _), queue, Option.map_some, ComQ.rung, if_neg (by omega)]
  · have none : pendingOf s h e.nsid = [] := by
      rcases clear with admin | clear
      · exact if_pos admin
      · unfold pendingOf
        split
        · rfl
        · exact List.filter_eq_nil_iff.mpr fun n hn => by simpa using clear n hn
    have e' := execCommandFetch_eq (e := e) ⟨pick, queue, may, new, slot⟩
    rw [meetFault_of_none ((pendingOf_fetched _).trans none)] at e'
    refine ⟨_, e', inFlight_fetched_self new, (fetched_keeps s h e q a).same .order rfl, ?_, fun g hg => inFlight_fetched_of_ne hg⟩
    rw [ctrl_fetched]
    refine (sq_modSq (by intro; rfl) _ _).trans ?_
    rw [queue]
    rfl
  · subst hn
    have first : pendingOf s h e.nsid = [e.nsid] := by simp [pendingOf, io, named, pending]
    have e' := execCommandFetch_eq (e := e) ⟨pick, queue, may, new, slot⟩
    rw [meetFault_of_pending ((pendingOf_fetched _).trans first), namedBy_fetched, named] at e'
    refine ⟨_, e', answered_finish ?_ _, faultPairs_clearPending _ _ _⟩
    exact (congrArg Option.isSome (inFlight_fetched_self new)).trans rfl
  · have m : MayPost s h x q := ⟨up, record, phase, conds, queue, room, still, moved, gate⟩
    have e := (execCompletionPost_eq m).trans (if_neg (by rcases through with bad | none <;> simp [*]))
    have left := inFlight_of_unslotted (inflight_posted s h q x)
    refine ⟨_, e, (left h).trans (if_pos rfl), order_posted s h q x, ?_, fun g hg => (left g).trans (if_neg hg)⟩
    rw [ctrl_modCtrl_of_id (posted_id h x q), cq_posted, ctrl_unslotted_sending, queue]
    rfl
  · have m : MayPost s h x q := ⟨up, record, phase, conds, queue, room, still, moved, gate⟩
    have e := (execCompletionPost_eq m).trans (if_pos (by simp [good, through]))
    refine ⟨_, e, onlyChanges_of_frame (l := [.inflight, .slices]) (waitThrough_frame s h _ (Frame.refl _ s) rfl), ?_⟩
    rw [inFlight_congr (inflight_waitThrough s h _), inFlight_modIn_self s h _ (by intro; rfl), record]
    rfl

end Sys2Proof.Proofs
end

section
/-!
Firmware (R67, R68, R308, R352, R360): what a download keeps, what a commit writes, and what a switch runs.
-/

namespace Sys2Proof.Proofs

open Sys2Proof.Machine Sys2Proof.Laws

variable {s t : State} {h : Hdr} {k : Nat} {im : SeedImage}

/-! ### The gate of the firmware commands (R49, R359) -/

theorem firmwareCmd_of_manager (hr : s.runnable h = true) (one : h.ctrl = 1) (f : State → State) : s.firmwareCmd h f = f s :=
  (run_of_runnable hr _).trans (if_pos (by simp [isManager, one]))

theorem firmwareCmd_of_other (hr : s.runnable h = true) (other : h.ctrl ≠ 1) (f : State → State) :
    s.firmwareCmd h f = s.finish h (ansSt stOpcode) :=
  (run_of_runnable hr _).trans (if_neg (by simp [isManager, other]))

/-! ### Download (R67, R70) -/

/-- What of an image has come, or the download that its first piece begins. -/
def downloadOf (s : State) (im : SeedImage) : Download := s.nvm.download.getD ⟨im, [], false⟩

/-- A download with one more piece. -/
def Download.with (d : Download) (p : ImagePiece) : Download :=
  { d with pieces := d.pieces ++ [(p.offset, p.length)], mixed := d.mixed || decide (d.image ≠ p.image) }

variable {p : ImagePiece}

theorem overlaps_iff {d : Download} {off len : Nat} : d.overlaps off len = true ↔ ∃ q ∈ d.pieces, q.1 < off + len ∧ off < q.1 + q.2 := by
  simp [Download.overlaps]

theorem execFirmwareImageDownload_overlap (hr : s.runnable h = true) (one : h.ctrl = 1)
    (overlap : (downloadOf s p.image).overlaps p.offset p.length = true) :
    exec (.firmwareImageDownload h p) s = .next (s.finish h (ansSt stOverlap)) :=
  congrArg Host.Outcome.next ((firmwareCmd_of_manager hr one _).trans (if_pos overlap))

/-- A package that keeps a piece for the commit, and reads it from the host. -/
def pieceKept (s : State) (h : Hdr) (p : ImagePiece) : State :=
  (s.modNvm fun v => { v with download := some (Download.with (downloadOf s p.image) p) }).dataIn h p.length

theorem execFirmwareImageDownload_keeps (hr : s.runnable h = true) (one : h.ctrl = 1)
    (apart : (downloadOf s p.image).overlaps p.offset p.length = false) :
    exec (.firmwareImageDownload h p) s = .next ((pieceKept s h p).finish h (ansSt stOk)) :=
  congrArg Host.Outcome.next ((firmwareCmd_of_manager hr one _).trans (if_neg (Bool.eq_false_iff.mp apart)))

theorem nvm_pieceKept (s : State) (h : Hdr) (p : ImagePiece) :
    (pieceKept s h p).nvm = { s.nvm with download := some (Download.with (downloadOf s p.image) p) } :=
  (dataIn_frame _ h p.length (Frame.refl 0xf00004 _) rfl).same .nvm rfl

theorem inFlight_pieceKept (s : State) (h : Hdr) (p : ImagePiece) : (pieceKept s h p).inFlight h = s.inFlight h :=
  inFlight_congr ((dataIn_frame _ h p.length (Frame.refl 0xf00004 _) rfl).same .inflight rfl) h

/-! ### Commit (R67, R308, R352) -/

/-- The slot that a commit names: of FS 0, the one that is not ACTIVE. -/
def commitTarget (s : State) (fs : Nat) : Nat := if fs = 0 then 1 - s.nvm.slots.active else fs - 1

/-- The image that a commit is about: of action 2, the slot's, and else what was downloaded as a whole. -/
def commitImage (s : State) (ca k : Nat) : Option SeedImage :=
  if ca = 2 then s.slotImage k else (s.nvm.download.filter Download.whole).map Download.image

/-- A package whose boot flash has a downloaded image in a slot. -/
def imageStored (s : State) (k : Nat) (im : SeedImage) : State :=
  s.modNvm fun v => { v with flash := modAt v.flash k fun _ => some im, download := none }

section
variable {ca fs : Nat} (hr : s.runnable h = true) (one : h.ctrl = 1)
include hr one

theorem execFirmwareCommit_action (big : 2 < ca) : exec (.firmwareCommit h ca fs) s = .next (s.finish h (ansSt stField)) :=
  congrArg Host.Outcome.next ((firmwareCmd_of_manager hr one _).trans (if_pos big))

theorem execFirmwareCommit_slot (small : ca ≤ 2) (big : 2 < fs) : exec (.firmwareCommit h ca fs) s = .next (s.finish h (ansSt stFwSlot)) :=
  congrArg Host.Outcome.next ((firmwareCmd_of_manager hr one _).trans ((if_neg (Nat.not_lt.mpr small)).trans (if_pos big)))

theorem execFirmwareCommit_of_valid (small : ca ≤ 2) (slot : fs ≤ 2) (image : commitImage s ca (commitTarget s fs) = some im)
    (valid : s.imageOk im = true) :
    exec (.firmwareCommit h ca fs) s = .next
      (((if ca = 2 then s else imageStored s (commitTarget s fs) im).commitSlot ca (commitTarget s fs)).finish h (ansSt stOk)) := by
  refine congrArg Host.Outcome.next ((firmwareCmd_of_manager hr one _).trans ?_)
  rw [if_neg (Nat.not_lt.mpr small), if_neg (Nat.not_lt.mpr slot)]
  dsimp only
  unfold commitImage commitTarget at image
  rw [image]
  exact if_neg (by simp [valid])

theorem execFirmwareCommit_of_invalid (small : ca ≤ 2) (slot : fs ≤ 2)
    (invalid : ∀ im, commitImage s ca (commitTarget s fs) = some im → s.imageOk im = false) :
    exec (.firmwareCommit h ca fs) s = .next (s.finish h (ansSt stImage)) := by
  refine congrArg Host.Outcome.next ((firmwareCmd_of_manager hr one _).trans ?_)
  rw [if_neg (Nat.not_lt.mpr small), if_neg (Nat.not_lt.mpr slot)]
  dsimp only
  unfold commitImage commitTarget at invalid
  split
  · rfl
  · exact if_pos (by simp [invalid _ ‹_›])

end

/-- A commit keeps the boot flash and what was downloaded, and its slot is the one to boot next, but for action 0 of a slot that is not active
(R352, R360). -/
structure CommitRecord (s t : State) (ca k : Nat) : Prop where
  slots : t.nvm.slots = if ca = 0 ∧ k ≠ s.nvm.slots.active then s.nvm.slots else ⟨s.nvm.slots.active, some k, false⟩
  flash : t.nvm.flash = s.nvm.flash
  download : t.nvm.download = s.nvm.download

theorem commitRecord_commitSlot (s : State) (ca k : Nat) : CommitRecord s (s.commitSlot ca k) ca k := by
  unfold State.commitSlot
  dsimp only
  split
  case isTrue only => exact ⟨(if_pos only).symm, rfl, rfl⟩
  case isFalse names => split <;> exact ⟨(if_neg names).symm, rfl, rfl⟩

theorem slotImage_congr (e : t.nvm.flash = s.nvm.flash) (k : Nat) : t.slotImage k = s.slotImage k := by
  rw [State.slotImage, State.slotImage, e]

theorem slotImage_imageStored (s : State) (k j : Nat) (im : SeedImage) :
    (imageStored s k im).slotImage j = if j = k then s.nvm.flash[j]?.bind fun _ => some im else s.slotImage j := by
  have found : (imageStored s k im).slotImage j = ((modAt s.nvm.flash k fun _ => some im)[j]?).getD none := rfl
  rw [found, modAt_get]
  split
  · cases s.nvm.flash[j]? <;> rfl
  · rfl

theorem commitTarget_lt {fs : Nat} (slot : fs ≤ 2) : commitTarget s fs < 2 := by
  unfold commitTarget
  split <;> omega

/-- A commit keeps the command's record until it is answered. -/
theorem inFlight_commitSlot (s : State) (ca k : Nat) (h : Hdr) : (s.commitSlot ca k).inFlight h = s.inFlight h :=
  inFlight_congr ((commitSlot_frame s ca k (Frame.refl 0xa0000000000 s) rfl).same .inflight rfl) h

/-! ### The switch (R68, R352) -/

theorem closeAttempt_slots (s : State) : s.closeAttempt.nvm.slots = s.nvm.slots ∧ s.closeAttempt.nvm.flash = s.nvm.flash := by
  unfold State.closeAttempt
  split
  · exact ⟨rfl, rfl⟩
  · dsimp only
    split
    · exact ⟨rfl, rfl⟩
    · rw [notice_nvm]
      exact ⟨rfl, rfl⟩

/-- The start attempt that a switch opens, with TRIED set (R352). -/
def attemptOpened (s : State) : State :=
  (s.closeAttempt.openAttempt s.closeAttempt.nvm.failCnt).putSlots { s.closeAttempt.nvm.slots with tried := true }

/-- The trial that a switch boots. -/
def trialBooted (s : State) (k : Nat) : State :=
  ((attemptOpened s).bootSlot k true).modNvm fun v => { v with attempt := v.attempt.map fun e => { e with activation := true } }

/-- The measurements that a switch takes of the image it runs. -/
def trialMeasured (s : State) (k : Nat) (im : SeedImage) : State :=
  (((((trialBooted s k).extendImage im 2).extend 8 2 (Config.recordDigest 4 [(s.rd Adr.hubFwLevel).toNat, im.fwLevel, k])).addF Adr.msSts 15 8 1).wr
    Adr.hubFwLevel (BitVec.ofNat 32 im.fwLevel))

/-- A switch carried through: stage 6, what runs, and its event. -/
def trialRuns (s : State) (fwRev : BitVec 64) : State :=
  ((s.setStage 6).modStart fun t => { t with activation := true, fwRev := some fwRev, readyAt := some s.now }).setBit Adr.stEvt 1

theorem switchTo_eq (s : State) (k : Nat) (im : SeedImage) : s.switchTo k im = (trialRuns (trialMeasured s k im) im.fwRev).endSwitch := rfl

/-- An image of a slot runs as a trial that was tried, in a start attempt of an activation (R352). -/
structure Trial (t : State) (r : SlotRecord) (k : Nat) : Prop where
  slot : t.start.slot = k
  trial : t.start.trial = true
  slots : t.nvm.slots = r
  attempt : ∃ e, t.nvm.attempt = some e ∧ e.activation = true ∧ e.trial = true ∧ e.slot = k

/-- A slot with an image that is booted as a trial runs, and its start attempt says so. -/
theorem bootSlot_of_image (image : s.slotImage k = some im) :
    (s.bootSlot k true).start.slot = k ∧ (s.bootSlot k true).start.trial = true ∧
      (s.bootSlot k true).nvm = { s.nvm with attempt := s.nvm.attempt.map fun e => { e with slot := k, trial := true } } := by
  unfold State.bootSlot
  rw [image]
  dsimp only
  generalize hu : State.modNvm _ _ = u
  have shown := putBit_frame _ Adr.stSts 11 true (putBit_frame u Adr.stSts 10 (k == 1) (Frame.refl 0x4 u) rfl) rfl
  rw [shown.same .start rfl, shown.same .nvm rfl, ← hu]
  exact ⟨rfl, rfl, rfl⟩

theorem attempt_opens (s : State) (c : Nat) (r : SlotRecord) : ∃ e, ((s.openAttempt c).putSlots r).nvm.attempt = some e := ⟨_, rfl⟩

theorem flash_opens (s : State) (c : Nat) (r : SlotRecord) : ((s.openAttempt c).putSlots r).nvm.flash = s.nvm.flash := rfl

theorem slots_putSlots (s : State) (r : SlotRecord) : (s.putSlots r).nvm.slots = r := rfl

theorem trial_trialBooted (image : s.slotImage k = some im) : Trial (trialBooted s k) { s.nvm.slots with tried := true } k := by
  obtain ⟨slots, flash⟩ := closeAttempt_slots s
  obtain ⟨e, opened⟩ := attempt_opens s.closeAttempt s.closeAttempt.nvm.failCnt { s.closeAttempt.nvm.slots with tried := true }
  have record : (attemptOpened s).nvm.slots = { s.nvm.slots with tried := true } := by rw [attemptOpened, slots_putSlots, slots]
  obtain ⟨slot, trial, nvm⟩ := bootSlot_of_image (s := attemptOpened s) ((slotImage_congr ((flash_opens ..).trans flash) k).trans image)
  refine ⟨slot, trial, ?_, { e with slot := k, trial := true, activation := true }, ?_, rfl, rfl, rfl⟩
  · rw [trialBooted, modNvm_nvm, nvm, record]
  · rw [trialBooted, modNvm_nvm, nvm, attemptOpened, opened]
    rfl

theorem Trial.congr {r : SlotRecord} (h : Trial s r k) (start : t.start = s.start) (nvm : t.nvm = s.nvm) : Trial t r k where
  slot := by rw [start, h.slot]
  trial := by rw [start, h.trial]
  slots := by rw [nvm, h.slots]
  attempt := by rw [nvm]; exact h.attempt

theorem trialMeasured_keeps (s : State) (k : Nat) (im : SeedImage) : Frame 0x70000004 (trialBooted s k) (trialMeasured s k im) :=
  wr_frame _ _ (addF_frame _ _ _ _ _ (extend_frame _ _ _ _ (extendImage_frame _ im 2 (Frame.refl _ _) rfl) rfl) rfl) rfl

theorem Trial.runs {r : SlotRecord} (h : Trial s r k) (fwRev : BitVec 64) : Trial (trialRuns s fwRev) r k := by
  obtain ⟨e, there, activation, trial, slot⟩ := h.attempt
  refine ⟨h.slot, h.trial, h.slots, { e with stage := max e.stage 6 }, ?_, activation, trial, slot⟩
  exact congrArg (Option.map fun e : StartEntry => { e with stage := max e.stage 6 }) there

theorem stage_trialRuns (s : State) (fwRev : BitVec 64) : (trialRuns s fwRev).stage = 6 :=
  (fld_wr_of_ne _ _ 2 0 (by decide)).trans (fld_putF_self s Adr.stSts 2 0 6 (by decide) (by decide))

theorem rd_trialRuns {a : Nat} (s : State) (fwRev : BitVec 64) (ha : a ≠ Adr.stEvt) (ha' : a ≠ Adr.stSts) :
    (trialRuns s fwRev).rd a = s.rd a :=
  (rd_setBit_of_ne _ 1 ha).trans (rd_putF_of_ne s 2 0 6 ha')

theorem rd_congr (regs : t.regs = s.regs) (part : t.part = s.part) (a : Nat) : t.rd a = s.rd a := by
  rw [State.rd, State.rd, regs, part]

/-- The end of an activation only shows in the controllers and the flag of the activation (R68). -/
theorem endSwitch_keeps (s : State) : s.endSwitch.start = { s.start with switching := false } ∧ s.endSwitch.nvm = s.nvm ∧
    ∀ a, s.endSwitch.rd a = s.rd a := by
  have ready := evalReady_frame (s.modStart fun t => { t with switching := false }) (Frame.refl 0x100 _) rfl
  exact ⟨ready.same .start rfl, ready.same .nvm rfl, rd_congr (ready.same .regs rfl) (ready.same .part rfl)⟩

/-- Settles O57: pieces kept and refused, the commits and their refusals, and the switch. -/
theorem firmwareIsLoadedCommittedAndSwitched : Obligations.FirmwareIsLoadedCommittedAndSwitched := by
  refine ⟨fun h im off len s hr => ⟨fun d one hd => ⟨fun overlap => ?_, fun apart => ?_⟩, fun other => ?_⟩, fun h ca fs s hr other => ?_,
    fun h ca fs k s hr one hk => ⟨fun big => ?_, fun small big => ?_, fun d action slot flash active there whole valid => ?_,
      fun im action slot image valid => ?_, fun slot invalid => ?_⟩, fun s still waits => ?_,
    fun s k im up dump switching drained next image => ⟨fun valid => ?_, fun invalid => ?_⟩⟩
  · subst hd
    exact completes_finished (execFirmwareImageDownload_overlap hr one (overlaps_iff.mpr overlap)) (inFlight_isSome_of_runnable hr)
  · subst hd
    have apart : (downloadOf s im).overlaps off len = false := Bool.eq_false_iff.mpr fun overlap => by
      obtain ⟨q, hq, before, after⟩ := overlaps_iff.mp overlap
      have := apart q hq
      omega
    refine completes_finish (execFirmwareImageDownload_keeps (p := ⟨im, off, len⟩) hr one apart) ?_ fun answered only => ⟨?_, answered, only⟩
    · rw [inFlight_pieceKept]
      exact inFlight_isSome_of_runnable hr
    · exact nvm_pieceKept s h ⟨im, off, len⟩
  · exact completes_finished (congrArg Host.Outcome.next (firmwareCmd_of_other hr other _)) (inFlight_isSome_of_runnable hr)
  · exact completes_finished (congrArg Host.Outcome.next (firmwareCmd_of_other hr other _)) (inFlight_isSome_of_runnable hr)
  · exact completes_finished (execFirmwareCommit_action hr one big) (inFlight_isSome_of_runnable hr)
  · exact completes_finished (execFirmwareCommit_slot hr one small big) (inFlight_isSome_of_runnable hr)
  · subst hk
    have download : commitImage s ca (commitTarget s fs) = some d.image := by
      rw [commitImage, if_neg (by omega), there]
      simp [whole]
    have e := execFirmwareCommit_of_valid hr one (by omega) slot download valid
    rw [if_neg (by omega)] at e
    have record := commitRecord_commitSlot (imageStored s (commitTarget s fs) d.image) ca (commitTarget s fs)
    have stored := fun j => (slotImage_congr record.flash j).trans (slotImage_imageStored s (commitTarget s fs) j d.image)
    refine completes_finish e ?_ fun answered _ => ⟨answered, record.download, (stored _).trans ?_, fun j hj => (stored j).trans (if_neg hj),
      record.slots⟩
    · rw [inFlight_commitSlot]
      exact inFlight_isSome_of_runnable hr
    · have inside : commitTarget s fs < s.nvm.flash.length := by rw [flash]; exact commitTarget_lt slot
      refine (if_pos rfl).trans ?_
      change s.nvm.flash[commitTarget s fs]?.bind _ = _
      rw [List.getElem?_eq_getElem inside]
      rfl
  · subst hk
    have e := execFirmwareCommit_of_valid (h := h) (fs := fs) hr one (by omega) slot ((if_pos action).trans image) valid
    rw [if_pos action] at e
    have record := commitRecord_commitSlot s ca (commitTarget s fs)
    refine completes_finish e ?_ fun answered _ => ⟨answered, record.flash, record.slots.trans (if_neg (by omega))⟩
    rw [inFlight_commitSlot]
    exact inFlight_isSome_of_runnable hr
  · subst hk
    have none : ∀ im, commitImage s ca (commitTarget s fs) = some im → s.imageOk im = false := fun im image => by
      rcases invalid with ⟨action, invalid⟩ | ⟨action, invalid⟩
      · exact invalid im ((if_pos action).symm.trans image)
      · rw [commitImage, if_neg (by omega), Option.map_eq_some_iff] at image
        obtain ⟨d, there, rfl⟩ := image
        obtain ⟨there, whole⟩ := Option.filter_eq_some_iff.mp there
        exact invalid d there whole
    exact completes_finished (execFirmwareCommit_of_invalid hr one (by omega) slot none) (inFlight_isSome_of_runnable hr)
  · change execFirmwareActivation s = _
    unfold execFirmwareActivation
    split
    · rfl
    · rw [still, waits]
      dsimp only [Bool.false_eq_true, if_false]
      split
      · rfl
      · exact if_pos (by simp [still])
  · have e : exec .firmwareActivation s = .next (s.switchTo k im) := by
      change execFirmwareActivation s = _
      unfold execFirmwareActivation
      simp [up, dump, switching, drained, next, image, valid]
    have keeps := switchTo_frame s k im (Frame.refl 0x1a0070000104 s) rfl
    have measured := trialMeasured_keeps s k im
    have runs := ((trial_trialBooted image).congr (measured.same .start rfl) (measured.same .nvm rfl)).runs im.fwRev
    obtain ⟨start, nvm, rd⟩ := endSwitch_keeps (trialRuns (trialMeasured s k im) im.fwRev)
    rw [← switchTo_eq] at start nvm rd
    refine ⟨_, e, ?_, ?_, ?_, ?_, ?_, ?_, ?_, keeps.same .slices rfl, keeps.same .namespaces rfl, ?_⟩
    · rw [start, runs.slot]
    · rw [start, runs.trial]
    · rw [start]
    · rw [nvm, runs.slots]
    · rw [State.stage, State.fld, rd]
      exact stage_trialRuns _ _
    · rw [State.bit, rd]
      exact bit_setBit_self _ Adr.stEvt 1 (by decide)
    · rw [rd, rd_trialRuns _ _ (by decide) (by decide)]
      exact rd_wr_self _ _ _
    · rw [nvm]
      exact runs.attempt
  · have e : exec .firmwareActivation s =
        .next (((s.putSlots { s.nvm.slots with next := none, tried := false }).notice 4 k s.now 0).endSwitch) := by
      change execFirmwareActivation s = _
      unfold execFirmwareActivation
      simp [up, dump, switching, drained, next, image, invalid]
    have noted := notice_frame (s.putSlots { s.nvm.slots with next := none, tried := false }) 4 k s.now 0 (Frame.refl 0x100000000004 _) rfl
    have kept := endSwitch_frame _ (notice_frame _ 4 k s.now 0
      (putSlots_frame s { s.nvm.slots with next := none, tried := false } (Frame.refl 0x1a0000000104 s) rfl) rfl) rfl
    obtain ⟨start, nvm, -⟩ := endSwitch_keeps ((s.putSlots { s.nvm.slots with next := none, tried := false }).notice 4 k s.now 0)
    refine ⟨_, e, ?_, ?_, ?_, ?_⟩
    · rw [nvm, notice_nvm]
      rfl
    · rw [start, noted.same .start rfl]
      rfl
    · exact kept.same .slices rfl
    · rw [nvm, notice_nvm]
      rfl

end Sys2Proof.Proofs
end

section
/-!
The flash reads that a block command waits for, and what its range reads as (R23, R55, R60, R131).
-/

namespace Sys2Proof.Proofs

open Sys2Proof.Machine Sys2Proof.Laws

variable {s t u : State} {x : Namespace} {h : Hdr} {a : Answer} {cs : List Cond}

/-! ### Waiting for flash reads (R23, R131) -/

theorem standing_congr (e : t.inflight = s.inflight) (h : Hdr) : standing t h = standing s h := by
  rw [standing, standing, inFlight_congr e]

/-- From s to t a command has come to wait for flash reads, and stands otherwise as it did. -/
structure AwaitsReads (h : Hdr) (s t : State) : Prop where
  stands : ∀ p a cs, standing s h = some (p, a, cs) → ∃ more, standing t h = some (p, a, cs ++ more) ∧ ∀ c ∈ more, ∃ n, c = .sensed n

theorem AwaitsReads.refl (h : Hdr) (s : State) : AwaitsReads h s s := ⟨fun _ _ _ e => ⟨[], by simpa using e, by simp⟩⟩

theorem AwaitsReads.trans (first : AwaitsReads h s t) (second : AwaitsReads h t u) : AwaitsReads h s u where
  stands p a cs e := by
    obtain ⟨l, stands, reads⟩ := first.stands p a cs e
    obtain ⟨m, stands', reads'⟩ := second.stands p a _ stands
    exact ⟨l ++ m, by rw [stands', List.append_assoc], fun c hc => (List.mem_append.mp hc).elim (reads c) (reads' c)⟩

theorem awaitsReads_of_inflight (e : t.inflight = s.inflight) (h : Hdr) : AwaitsReads h s t where
  stands _ _ _ stands := ⟨[], by rw [standing_congr e, stands, List.append_nil], by simp⟩

theorem AwaitsReads.foldl {α : Type} {f : State → α → State} (each : ∀ s a, AwaitsReads h s (f s a)) (l : List α) (s : State) :
    AwaitsReads h s (l.foldl f s) := by
  induction l generalizing s with
  | nil => exact AwaitsReads.refl h s
  | cons a l ih => exact (each s a).trans (ih _)

/-- A record that waits for the flash reads of a slice too. -/
def sensing (n : Nat) (x : InFlight) : InFlight := { x with conds := if x.conds.contains (.sensed n) then x.conds else x.conds ++ [.sensed n] }

theorem awaitsReads_sensing (s : State) (h : Hdr) (n : Nat) : AwaitsReads h s (s.modIn h (sensing n)) where
  stands p a cs e := by
    obtain ⟨x, record, stands⟩ := Option.map_eq_some_iff.mp e
    cases stands
    have now : standing (s.modIn h (sensing n)) h = some (x.phase, x.answer, (sensing n x).conds) := by
      rw [standing, inFlight_modIn_self s h _ (by intro; rfl), record]
      rfl
    by_cases waits : x.conds.contains (.sensed n)
    · exact ⟨[], by rw [now, sensing, if_pos waits, List.append_nil], by simp⟩
    · exact ⟨[.sensed n], by rw [now, sensing, if_neg waits], by simp⟩

theorem awaitsReads_queueRead (s : State) (n lun b row : Nat) (m : CellMode) (rate cws : Nat) (why : FlFor) (user : Option Nat) :
    AwaitsReads h s (s.queueRead n lun b row m rate cws why user) :=
  awaitsReads_of_inflight ((queueRead_frame s n lun b row m rate cws why user (Frame.refl 0x20000 s) rfl).same .inflight rfl) h

theorem awaitsReads_modSlice (s : State) (n : Nat) (f : Slice → Slice) : AwaitsReads h s (s.modSlice n f) :=
  awaitsReads_of_inflight (modSlice_inflight s n f) h

theorem awaitsReads_pagedLookup (s : State) (n i : Nat) (h : Hdr) (user : Option Nat) : AwaitsReads h s (s.pagedLookup n i h user) := by
  unfold State.pagedLookup
  split
  · exact AwaitsReads.refl h s
  · dsimp only
    split
    · exact awaitsReads_modSlice s n _
    · split
      · exact awaitsReads_modSlice s n _
      · split
        · exact awaitsReads_modSlice s n _
        · refine AwaitsReads.trans ?_ (awaitsReads_sensing _ h n)
          exact (awaitsReads_modSlice s n _).trans (awaitsReads_queueRead ..)

theorem awaitsReads_countRead (s : State) (n : Nat) (v : StoredUnit) (h : Hdr) (user : Option Nat) : AwaitsReads h s (s.countRead n v h user) := by
  have opened : AwaitsReads h s ((s.openUnit n v (ctrlOwner h.ctrl) (.opening h)).senseUnit n v (.command h) user) :=
    awaitsReads_of_inflight ((senseUnit_frame _ n v _ user (openUnit_frame s n v _ _ (Frame.refl 0x20004 s) rfl) rfl).same .inflight rfl) h
  unfold State.countRead
  dsimp only
  split
  · exact opened.trans (awaitsReads_sensing _ h n)
  · exact opened

theorem awaitsReads_senseBlocks (s : State) (h : Hdr) (n i : Nat) (bs : List Nat) : AwaitsReads h s (s.senseBlocks h n i bs) := by
  unfold State.senseBlocks
  dsimp only
  split
  · exact (awaitsReads_pagedLookup ..).trans (awaitsReads_countRead ..)
  · exact awaitsReads_pagedLookup ..

/-- The flash reads of a range change nothing of a command but what it waits for (R60). -/
theorem awaitsReads_countRange (s : State) (h : Hdr) (x : Namespace) (slba nlb : Nat) : AwaitsReads h s (s.countRange h x slba nlb) :=
  AwaitsReads.foldl (fun _ _ => awaitsReads_senseBlocks ..) _ s

/-- A command that has its answer waits for the flash reads of its range alone. -/
theorem reading_countRange (record : (s.inFlight h).isSome = true) (a : Answer) (x : Namespace) (slba nlb : Nat) :
    Reading ((s.finish h a).countRange h x slba nlb) h a := by
  obtain ⟨more, stands, reads⟩ := (awaitsReads_countRange (s.finish h a) h x slba nlb).stands _ _ _ (answered_finish record a)
  exact ⟨more, stands, reads⟩

/-! ### A range as it reads (R55, R60) -/

/-- The block of a read, where it has one. -/
def dataOf : BlockRead → Option Block
  | .ok b => some b
  | .fail _ => none

/-- The failure of a read at an address, where it failed. -/
def failureAt (lba : Nat) : BlockRead → Option (Status × Nat)
  | .ok _ => none
  | .fail st => some (st, lba)

/-- What comes first in a list of those that give something: those before give nothing. -/
theorem findSome?_of_first {α β : Type} {f : α → Option β} {l : List α} {k : Nat} {b : β} (hk : k < l.length) (here : f l[k] = some b)
    (before : ∀ j (hj : j < k), f (l[j]'(by omega)) = none) : l.findSome? f = some b := by
  rw [List.findSome?_eq_some_iff]
  refine ⟨l.take k, l[k], l.drop (k + 1), ?_, here, fun y hy => ?_⟩
  · rw [← List.drop_eq_getElem_cons hk, List.take_append_drop]
  · obtain ⟨j, hj, rfl⟩ := List.mem_iff_getElem.mp hy
    rw [List.getElem_take]
    exact before j (by simp at hj; omega)

/-- The reads of a range, lowest address first. -/
def rangeReads (s : State) (x : Namespace) (slba nlb : Nat) : List (Nat × BlockRead) :=
  (List.range nlb).map fun k => (slba + k, s.readLba x (slba + k))

theorem readRange_eq (s : State) (x : Namespace) (slba nlb : Nat) : s.readRange x slba nlb =
    ((rangeReads s x slba nlb).map fun r => dataOf r.2, (rangeReads s x slba nlb).findSome? fun r => failureAt r.1 r.2) := by
  unfold State.readRange
  refine Prod.ext (congrArg (List.map · _) (funext fun r => ?_)) (congrArg (List.findSome? · _) (funext fun r => ?_))
  · cases r.2 <;> rfl
  · cases r.2 <;> rfl

variable {slba nlb k : Nat}

theorem length_readRange (s : State) (x : Namespace) (slba nlb : Nat) : (s.readRange x slba nlb).1.length = nlb := by
  simp [readRange_eq, rangeReads]

theorem getElem?_readRange {b : Block} (hk : k < nlb) (ok : s.readLba x (slba + k) = .ok b) :
    (s.readRange x slba nlb).1[k]? = some (some b) := by
  simp [readRange_eq, rangeReads, hk, ok, dataOf]

/-- A range that reads throughout fails nowhere. -/
theorem readRange_of_readable (readable : ∀ k, k < nlb → ∃ b, s.readLba x (slba + k) = .ok b) : (s.readRange x slba nlb).2 = none := by
  rw [readRange_eq]
  refine List.findSome?_eq_none_iff.mpr fun r hr => ?_
  obtain ⟨k, hk, rfl⟩ := List.mem_map.mp hr
  obtain ⟨b, ok⟩ := readable k (List.mem_range.mp hk)
  simp [ok, failureAt]

/-- A range fails at the lowest block that fails. -/
theorem readRange_of_fail {st : Status} (hk : k < nlb) (before : ∀ j, j < k → ∃ b, s.readLba x (slba + j) = .ok b)
    (fails : s.readLba x (slba + k) = .fail st) : (s.readRange x slba nlb).2 = some (st, slba + k) := by
  rw [readRange_eq]
  refine findSome?_of_first (k := k) (by simpa [rangeReads] using hk) (by simp [rangeReads, fails, failureAt]) fun j hj => ?_
  obtain ⟨b, ok⟩ := before j hj
  simp [rangeReads, ok, failureAt]

/-! ### A Compare (R48, R63) -/

theorem firstDiffer_of_equal {data : List Block} (equal : ∀ k b, data[k]? = some b → s.readLba x (slba + k) = .ok b) :
    s.firstDiffer x slba data = none := by
  refine List.findSome?_eq_none_iff.mpr fun q hq => ?_
  obtain ⟨k, hk, rfl⟩ := List.mem_iff_getElem.mp hq
  have inside : k < data.length := by simpa using hk
  have ok := equal k data[k] (List.getElem?_eq_getElem inside)
  simp [ok]

theorem firstDiffer_of_first {b c : Block} {l : List Block} (reads : s.readLba x slba = .ok c) (other : c ≠ b) :
    s.firstDiffer x slba (b :: l) = some (stCompare, slba) := by
  unfold State.firstDiffer
  rw [List.length_cons, List.range_succ_eq_map, List.zip_cons_cons, List.findSome?_cons]
  simp [reads, other]

end Sys2Proof.Proofs
end

section
/-!
Read, Compare, Verify, Write and Copy (R48, R54 to R56, R60, R421).
-/

namespace Sys2Proof.Proofs

open Sys2Proof.Machine Sys2Proof.Laws

variable {s t u : State} {x : Namespace} {h : Hdr} {nsid slba nlb : Nat}

/-! ### Reads and compares -/

/-- The answer of a command that meets a failure, or none. -/
def answerOf (nsid : Nat) (e : Option (Status × Nat)) : Answer :=
  match e with
  | none => ansSt stOk
  | some e => ansAt e.1 nsid e.2

/-- A package that sends what a Read returns to the host, and counts it. -/
def readSent (s : State) (h : Hdr) (nlb : Nat) : State := (s.modCtrl h.ctrl fun k => k.countRead nlb).dataOut h (4096 * nlb)

theorem exec_read {nsid : Nat} (serves : Serves s h nsid x .block) (few : nlb ≤ 256) (reaches : Reaches s h x slba nlb) :
    exec (.read h nsid slba nlb) s = .next (((readSent s h nlb).finish h
      { answerOf nsid (s.readRange x slba nlb).2 with data := .blocks (s.readRange x slba nlb).1 }).countRange h x slba nlb) := by
  refine congrArg Host.Outcome.next ((ioCmd_of_serves serves _).trans ((if_neg (Nat.not_lt.mpr few)).trans ?_))
  exact blockCmd_of_reaches reaches _

theorem exec_verify {nsid : Nat} (serves : Serves s h nsid x .block) (reaches : Reaches s h x slba nlb) :
    exec (.verify h nsid slba nlb) s = .next ((s.finish h (answerOf nsid (s.readRange x slba nlb).2)).countRange h x slba nlb) :=
  congrArg Host.Outcome.next ((ioCmd_of_serves serves _).trans (blockCmd_of_reaches reaches _))

/-- A package that fetches the data of a Compare from the host, and counts what it reads. -/
def comparing (s : State) (h : Hdr) (n : Nat) : State := (s.dataIn h (4096 * n)).modCtrl h.ctrl fun k => k.countRead n

theorem exec_compare {nsid : Nat} {data : List Block} (serves : Serves s h nsid x .block) (few : data.length ≤ 256)
    (reaches : Reaches s h x slba data.length) :
    exec (.compare h nsid slba data) s = .next
      (((comparing s h data.length).finish h (answerOf nsid (s.firstDiffer x slba data))).countRange h x slba data.length) := by
  refine congrArg Host.Outcome.next ((ioCmd_of_serves serves _).trans ((if_neg (Nat.not_lt.mpr few)).trans ?_))
  exact blockCmd_of_reaches reaches _

theorem inFlight_readSent (s : State) (h : Hdr) (n : Nat) : (readSent s h n).inFlight h = s.inFlight h :=
  inFlight_congr ((dataOut_frame (s.modCtrl h.ctrl fun k => k.countRead n) h (4096 * n) (Frame.refl 0xf00004 _) rfl).same .inflight rfl) h

theorem inFlight_comparing (s : State) (h : Hdr) (n : Nat) : (comparing s h n).inFlight h = s.inFlight h :=
  inFlight_congr ((dataIn_frame s h (4096 * n) (Frame.refl 0xf00004 s) rfl).same .inflight rfl) h

/-! ### Writes (R55 to R58) -/

/-- One block of a write more. -/
def writeStep (x : Namespace) (owner : Nat) (a : Machine.Written) (q : (Nat × Block) × Nat) : Machine.Written :=
  let r := a.state.writeBlock x owner q.1.1 q.1.2
  match r.1 with
  | none => { a with failed := some (a.failed.getD q.1.1), state := r.2 }
  | some p => { a with wrote := addWrote a.wrote p.1 p.2.1 p.2.2, undo := a.undo ++ [a.state.undoOf x q.2 q.1.1 p.2.1 q.1.2], state := r.2 }

theorem writeBlocks_eq (s : State) (x : Namespace) (owner : Nat) (l : List (Nat × Block)) :
    s.writeBlocks x owner l = l.zipIdx.foldl (writeStep x owner) ⟨[], [], none, s⟩ := rfl

theorem state_writeStep (x : Namespace) (owner : Nat) (a : Machine.Written) (q : (Nat × Block) × Nat) :
    (writeStep x owner a q).state = (a.state.writeBlock x owner q.1.1 q.1.2).2 := by
  unfold writeStep
  dsimp only
  split <;> rfl

theorem failed_writeStep {owner : Nat} {a : Machine.Written} {q : (Nat × Block) × Nat}
    (up : a.state.nsUp x (a.state.place x q.1.1).1 = true) : (writeStep x owner a q).failed = a.failed := by
  unfold writeStep
  rw [writeBlock_of_up up]

/-- A block written leaves the same slices serving. -/
theorem servesAlike_writeBlock (s : State) (x : Namespace) (owner lba : Nat) (d : Block) : ServesAlike s (s.writeBlock x owner lba d).2 := by
  by_cases up : s.nsUp x (s.place x lba).1 = true
  · exact writeBlock_servesAlike up owner d
  · rw [State.writeBlock, if_pos (by simpa using up)]
    exact ServesAlike.refl s

/-- Blocks of which every slice serves the namespace are all written. -/
theorem failed_writeBlocks {l : List (Nat × Block)} (owner : Nat) (up : ∀ q ∈ l, s.nsUp x (x.route q.1).1 = true) :
    (s.writeBlocks x owner l).failed = none := by
  have all : ∀ (m : List ((Nat × Block) × Nat)) (a : Machine.Written), ServesAlike s a.state → (∀ q ∈ m, s.nsUp x (x.route q.1.1).1 = true) →
      (m.foldl (writeStep x owner) a).failed = a.failed := fun m => by
    induction m with
    | nil => exact fun _ _ _ => rfl
    | cons q m ih =>
      intro a alike up
      have here := failed_writeStep (owner := owner) ((alike.nsUp x _).trans (up q List.mem_cons_self))
      refine (ih _ ?_ fun q hq => up q (List.mem_cons_of_mem _ hq)).trans here
      rw [state_writeStep]
      exact alike.trans (servesAlike_writeBlock ..)
  rw [writeBlocks_eq]
  exact all _ _ (ServesAlike.refl s) fun q hq => up q.1 (List.fst_mem_of_mem_zipIdx hq)

/-- What a write has charged for and put into the buffer. -/
def buffered (s : State) (h : Hdr) (x : Namespace) (l : List (Nat × Block)) : Machine.Written :=
  (s.charges h x (l.map Prod.fst)).writeBlocks x (ctrlOwner h.ctrl) l

theorem failed_buffered {l : List (Nat × Block)} (up : ∀ q ∈ l, s.nsUp x (x.route q.1).1 = true) : (buffered s h x l).failed = none :=
  failed_writeBlocks _ fun q hq => ((charges_servesAlike s h x _).nsUp x _).trans (up q hq)

/-- A write whose slices all serve is dispatched with success, and waits for what Through rules have programmed (R56). -/
theorem written_writeOut_all {l : List (Nat × Block)} (record : (s.inFlight h).isSome = true)
    (up : ∀ q ∈ l, s.nsUp x (x.route q.1).1 = true) (fua : Bool) : Sys2Proof.Written (s.writeOut h x fua l) h := by
  have fr : Frame 0x8020000021004 s ((buffered s h x l).state.throughNow h x fua (buffered s h x l).wrote).2 :=
    throughNow_frame _ h x fua _ (writeBlocks_frame _ x _ l (charges_frame s h x _ (Frame.refl _ s) rfl) rfl) rfl
  unfold State.writeOut
  dsimp only
  rw [show (State.writeBlocks _ x _ l).failed = none from failed_buffered up]
  refine ⟨_, standing_answer ?_ _ _, throughNow_conds _ h x fua _⟩
  rw [inFlight_congr (modCtrl_inflight ..), inFlight_isSome_modIn _ h _ (by intro; rfl)]
  exact (congrArg Option.isSome (inFlight_congr (fr.same .inflight rfl) h)).trans record

theorem mem_blocksFrom {data : List Block} {q : Nat × Block} (hq : q ∈ blocksFrom slba data) : ∃ k, k < data.length ∧ q.1 = slba + k := by
  obtain ⟨k, hk, e⟩ := List.mem_map.mp (List.of_mem_zip (show (q.1, q.2) ∈ _ from hq)).1
  exact ⟨k, List.mem_range.mp hk, e.symm⟩

theorem exec_write {data : List Block} {fua : Bool} (serves : Serves s h nsid x .block) (few : data.length ≤ 256)
    (reaches : Reaches s h x slba data.length) (accepts : Accepts s h x fua ((List.range data.length).map fun k => slba + k)) :
    exec (.write h nsid slba data fua) s = .next ((s.dataIn h (4096 * data.length)).writeOut h x fua (blocksFrom slba data)) := by
  refine congrArg Host.Outcome.next ((ioCmd_of_serves serves _).trans ((if_neg (Nat.not_lt.mpr few)).trans ?_))
  exact (blockCmd_of_reaches reaches _).trans (writeCmd_of_accepts accepts slba _)

/-- The move of a command's data changes neither the slices that serve nor the command's record. -/
theorem dataIn_alike (s : State) (h : Hdr) (n : Nat) : ServesAlike s (s.dataIn h n) ∧ (s.dataIn h n).inFlight h = s.inFlight h := by
  have fr : Frame 0xf00004 s (s.dataIn h n) := dataIn_frame s h n (Frame.refl _ s) rfl
  exact ⟨servesAlike_of_parts (fr.same .part rfl) (fr.same .slices rfl) (fr.same .tenants rfl) (fr.same .leaving rfl),
    inFlight_congr (fr.same .inflight rfl) h⟩

/-! ### Copy (R421) -/

/-- The source blocks of a Copy, in order. -/
def sourceLbas (rs : List CopySource) : List Nat := rs.flatMap fun r => (List.range r.nlb).map fun k => r.slba + k

theorem length_sourceLbas (rs : List CopySource) : (sourceLbas rs).length = (rs.map CopySource.nlb).sum := by
  simp [sourceLbas, List.length_flatMap]

/-- Readable sources give at most as many blocks as they name. -/
theorem copySources_of_readable {rs : List CopySource} (readable : ∀ r ∈ rs, ∀ k, k < r.nlb → ∃ b, s.readLba x (r.slba + k) = .ok b) :
    ∃ bs, s.copySources x rs = .ok bs ∧ bs.length ≤ (rs.map CopySource.nlb).sum := by
  unfold State.copySources
  dsimp only
  split
  next e fails =>
    obtain ⟨l, hl, failed⟩ := List.exists_of_findSome?_eq_some fails
    obtain ⟨r, hr, hl⟩ := List.mem_flatMap.mp hl
    obtain ⟨k, hk, rfl⟩ := List.mem_map.mp hl
    obtain ⟨b, ok⟩ := readable r hr k (List.mem_range.mp hk)
    simp [ok] at failed
  next => exact ⟨_, rfl, (List.length_filterMap_le ..).trans (length_sourceLbas rs).le⟩

/-- A write that then waits for flash reads too is a Copy's. -/
theorem copied_of_written (written : Sys2Proof.Written s h) (reads : AwaitsReads h s t) : Copied t h := by
  obtain ⟨cs, stands, programs⟩ := written
  obtain ⟨more, stands', sensed⟩ := reads.stands _ _ _ stands
  exact ⟨cs ++ more, stands', fun c hc => (List.mem_append.mp hc).imp (programs c) (sensed c)⟩

theorem exec_copy {sdlba : Nat} {sources : List CopySource} {fua : Bool} {bs : List Block} (serves : Serves s h nsid x .block)
    (few : sources.length ≤ 128) (inside : ∀ r ∈ sources, r.nsid = nsid ∧ r.slba + r.nlb ≤ x.size)
    (fits : sdlba + (sources.map CopySource.nlb).sum ≤ x.size)
    (first : s.behind h ((sdlba, (sources.map CopySource.nlb).sum) :: sources.map (fun r => (r.slba, r.nlb)) |>.map fun r => (x.nsid, r.1, r.2)) = false)
    (accepts : Accepts s h x fua ((List.range (sources.map CopySource.nlb).sum).map fun k => sdlba + k))
    (read : s.copySources x sources = .ok bs) :
    exec (.copy h nsid 0 sdlba sources fua) s = .next
      (sources.foldl (fun t r => t.countRange h x r.slba r.nlb) (s.writeOut h x fua (blocksFrom sdlba bs))) := by
  refine congrArg Host.Outcome.next ((ioCmd_of_serves serves _).trans ((if_neg ?_).trans ((if_neg ?_).trans ((if_neg ?_).trans
    ((writeCmd_of_accepts accepts sdlba _).trans ?_)))))
  · have same : ∀ r ∈ sources, r.nsid = nsid := fun r hr => (inside r hr).1
    simpa [few] using same
  · simpa using ⟨fits, fun r hr => (inside r hr).2⟩
  · exact Bool.eq_false_iff.mp first
  · dsimp only
    rw [read]

/-- Settles O19: what Read returns and where it fails, Compare both ways, Verify, and Write and Copy over all their blocks. -/
theorem blockCommandsComplete : Obligations.BlockCommandsComplete := by
  refine ⟨fun h nsid slba nlb s x serves few reaches => ?_, fun h nsid slba data s x serves few reaches => ?_,
    fun h nsid slba nlb s x serves reaches readable => ?_, fun h nsid slba data fua s x serves few reaches accepts => ?_,
    fun h nsid sdlba sources fua s x serves few inside fits first accepts readable => ?_⟩
  · have e := exec_read serves few reaches
    have only := commandsChangeOnlyTheirFootprint _ s _ e
    refine ⟨_, e, only .namespaces (by simp [footprint]), only .nvm (by simp [footprint]), only .tenants (by simp [footprint]),
      _, _, reading_countRange ?_ _ x slba nlb, rfl, length_readRange s x slba nlb, fun k b hk ok => getElem?_readRange hk ok, fun all => ?_,
      fun k st hk before fails => ?_⟩
    · rw [inFlight_readSent]
      exact inFlight_isSome_of_runnable serves.1
    · rw [readRange_of_readable all]
      rfl
    · rw [readRange_of_fail hk before fails]
      exact ⟨rfl, rfl⟩
  · have e := exec_compare serves few reaches
    have record : ((comparing s h data.length).inFlight h).isSome = true := by
      rw [inFlight_comparing]
      exact inFlight_isSome_of_runnable serves.1
    have reading := reading_countRange record (answerOf nsid (s.firstDiffer x slba data)) x slba data.length
    refine ⟨_, e, fun equal => ?_, fun b c l hd reads other => ?_⟩
    · rw [firstDiffer_of_equal equal] at reading ⊢
      exact reading
    · subst hd
      rw [firstDiffer_of_first reads other] at reading ⊢
      exact reading
  · have e := exec_verify serves reaches
    have only := commandsChangeOnlyTheirFootprint _ s _ e
    refine ⟨_, e, ?_, only .namespaces (by simp [footprint]), only .nvm (by simp [footprint]), only .tenants (by simp [footprint])⟩
    rw [readRange_of_readable readable]
    exact reading_countRange (inFlight_isSome_of_runnable serves.1) (ansSt stOk) x slba nlb
  · obtain ⟨alike, record⟩ := dataIn_alike s h (4096 * data.length)
    refine ⟨_, exec_write serves few reaches accepts, written_writeOut_all ?_ (fun q hq => ?_) fua⟩
    · rw [record]
      exact inFlight_isSome_of_runnable serves.1
    · obtain ⟨k, hk, at_⟩ := mem_blocksFrom hq
      rw [alike.nsUp]
      exact accepts.2.2 q.1 (List.mem_map.mpr ⟨k, List.mem_range.mpr hk, at_.symm⟩)
  · obtain ⟨bs, read, short⟩ := copySources_of_readable readable
    refine ⟨_, exec_copy serves few inside fits first accepts read, copied_of_written (written_writeOut_all
      (inFlight_isSome_of_runnable serves.1) (fun q hq => ?_) fua) (AwaitsReads.foldl (fun _ _ => awaitsReads_countRange ..) _ _)⟩
    obtain ⟨k, hk, at_⟩ := mem_blocksFrom hq
    exact accepts.2.2 q.1 (List.mem_map.mpr ⟨k, List.mem_range.mpr (by omega), at_.symm⟩)

end Sys2Proof.Proofs
end

section
/-!
Format NVM (R48, R63, R113, R184, R185): entries that become UNMAPPED and stay so, and keys that take a new generation.
-/

namespace Sys2Proof.Proofs

open Sys2Proof.Machine Sys2Proof.Laws

variable {s t u : State} {x : Namespace} {h : Hdr} {n i : Nat}

/-! ### Table entries (R101, R110) -/

theorem entry_switch (y : Slice) (i k : Nat) (e : Entry) : (y.switch i e).entry k = if k = i then e else y.entry k :=
  mapGet_mapPut (fun _ => Entry.unmapped) y.map i k e

/-- Entries that are switched to UNMAPPED are, and the others are as they were. -/
theorem entry_foldl_switch (l : List Nat) (y : Slice) (k : Nat) :
    (l.foldl (fun (y : Slice) i => y.switch i .unmapped) y).entry k = if k ∈ l then .unmapped else y.entry k := by
  induction l generalizing y with
  | nil => simp
  | cons i l ih =>
    rw [List.foldl_cons, ih, entry_switch]
    by_cases here : k = i <;> by_cases later : k ∈ l <;> simp [here, later]

/-- A change of a slice after which every UNMAPPED entry still is. -/
def KeepsUnmapped (f : Slice → Slice) : Prop := ∀ y i, y.entry i = .unmapped → (f y).entry i = .unmapped

theorem keepsUnmapped_of_map {f : Slice → Slice} (same : ∀ y, (f y).map = y.map) : KeepsUnmapped f := fun y i e => by
  rw [Slice.entry, same]
  exact e

theorem keepsUnmapped_switch (l : List Nat) : KeepsUnmapped fun y => l.foldl (fun (y : Slice) i => y.switch i .unmapped) y := fun y i e => by
  dsimp only
  rw [entry_foldl_switch]
  split
  · rfl
  · exact e

theorem KeepsUnmapped.comp {f g : Slice → Slice} (hf : KeepsUnmapped f) (hg : KeepsUnmapped g) : KeepsUnmapped fun y => g (f y) :=
  fun y i e => hg _ i (hf y i e)

/-- A version that leaves the buffer changes an entry only where the entry names it. -/
theorem keepsUnmapped_dropVersion (w : Nat) (e : Entry) : KeepsUnmapped fun y => y.dropVersion w e := fun y i unmapped => by
  dsimp only
  unfold Slice.dropVersion
  split
  · exact unmapped
  next v _ =>
    dsimp only
    split
    next names =>
      rw [entry_switch, if_neg]
      · exact unmapped
      · rintro rfl
        rw [unmapped] at names
        cases names
    next => exact unmapped

theorem keepsUnmapped_dropVersions (l : List Version) : KeepsUnmapped fun y => l.foldr (fun v y => y.dropVersion v.wslot v.under) y := by
  induction l with
  | nil => exact fun _ _ e => e
  | cons v l ih => exact ih.comp (keepsUnmapped_dropVersion v.wslot v.under)

theorem keepsUnmapped_dropRecord (id : Nat) : KeepsUnmapped fun y => y.dropRecord id := fun y i e => by
  dsimp only
  unfold Slice.dropRecord
  split
  · exact e
  next o _ => exact keepsUnmapped_switch (o.recordLua :: o.luas) y i e

/-! ### Entries that stay UNMAPPED (R63) -/

/-- From s to t every entry that is UNMAPPED stays so, in the same slices. -/
structure StaysUnmapped (s t : State) : Prop where
  length : t.slices.length = s.slices.length
  entry : ∀ n i, (s.slice n).entry i = .unmapped → (t.slice n).entry i = .unmapped

theorem StaysUnmapped.refl (s : State) : StaysUnmapped s s := ⟨rfl, fun _ _ e => e⟩

theorem StaysUnmapped.trans (a : StaysUnmapped s t) (b : StaysUnmapped t u) : StaysUnmapped s u :=
  ⟨b.length.trans a.length, fun n i e => b.entry n i (a.entry n i e)⟩

theorem staysUnmapped_of_slices (e : t.slices = s.slices) : StaysUnmapped s t where
  length := by rw [e]
  entry n i unmapped := by rw [slice_congr e]; exact unmapped

theorem StaysUnmapped.foldl {α : Type} {f : State → α → State} (each : ∀ s a, StaysUnmapped s (f s a)) (l : List α) (s : State) :
    StaysUnmapped s (l.foldl f s) := by
  induction l generalizing s with
  | nil => exact StaysUnmapped.refl s
  | cons a l ih => exact (each s a).trans (ih _)

theorem staysUnmapped_modSlice (s : State) (n : Nat) {f : Slice → Slice} (hf : KeepsUnmapped f) : StaysUnmapped s (s.modSlice n f) where
  length := slices_length_modSlice s n f
  entry k i unmapped := by
    rcases slice_modSlice_cases s n k f with e | e <;> rw [e]
    · exact hf _ i unmapped
    · exact unmapped

theorem staysUnmapped_clearCond (s : State) (c : Cond) : StaysUnmapped s (s.clearCond c) := staysUnmapped_of_slices rfl

theorem staysUnmapped_freeDigest (s : State) (no : Nat) : StaysUnmapped s (s.freeDigest no) :=
  staysUnmapped_of_slices ((freeDigest_frame s no (Frame.refl 0x200001000000 s) rfl).same .slices rfl)

theorem staysUnmapped_abandon (s : State) (n : Nat) (g : Ingest) : StaysUnmapped s (s.abandon n g) := by
  unfold State.abandon
  dsimp only
  have cleared := StaysUnmapped.foldl (fun (s : State) (v : Version) => staysUnmapped_clearCond s (.programmed n v.wslot))
    ((s.slice n).versions.filter fun v => g.luas.contains v.index) s
  split
  · exact cleared.trans (staysUnmapped_modSlice _ n fun y => keepsUnmapped_switch g.luas y)
  · refine StaysUnmapped.trans ?_ (staysUnmapped_freeDigest _ _)
    exact cleared.trans (staysUnmapped_modSlice _ n fun y => keepsUnmapped_switch g.luas y)

theorem staysUnmapped_unpin (s : State) (n : Nat) (p : Pin) (keep : Bool) : StaysUnmapped s (s.unpin n p keep) := by
  unfold State.unpin
  refine StaysUnmapped.trans (t := match p.inst with
    | none => s
    | some i => s.freeDigest i) ?_ (staysUnmapped_modSlice _ n fun y i e => ?_)
  · split
    · exact StaysUnmapped.refl s
    · exact staysUnmapped_freeDigest s _
  · dsimp only
    split
    · exact e
    · split
      · exact e
      · exact keepsUnmapped_dropRecord _ _ i e

theorem staysUnmapped_dropObjects (s : State) (n nsid : Nat) : StaysUnmapped s (s.dropObjects n nsid) := by
  unfold State.dropObjects
  exact ((StaysUnmapped.foldl (fun s g => staysUnmapped_abandon s n g) _ s).trans
    (StaysUnmapped.foldl (fun s p => staysUnmapped_unpin s n p false) _ _)).trans
    (staysUnmapped_modSlice _ n (keepsUnmapped_of_map fun _ => rfl))

theorem staysUnmapped_dropVersions (s : State) (n nsid : Nat) : StaysUnmapped s (s.dropVersions n nsid) := by
  unfold State.dropVersions
  dsimp only
  refine StaysUnmapped.trans ?_ (StaysUnmapped.foldl (fun s v => staysUnmapped_clearCond s _) _ _)
  refine StaysUnmapped.trans ?_ (staysUnmapped_modSlice _ n (keepsUnmapped_of_map (by intro; rfl)))
  exact staysUnmapped_modSlice s n (keepsUnmapped_dropVersions _)

/-! ### The entries of a range (R63) -/

/-- The places listed in a part's table range. -/
def listedIn (y : Slice) (q : NsPart) : List Nat :=
  (y.map.filter fun e => decide (q.base ≤ e.1) && decide (e.1 < q.base + q.len)).map Prod.fst

/-- A slice whose entries of a range are UNMAPPED, and that stores no unit of a namespace. -/
def emptiedRange (q : NsPart) (nsid : Nat) (y : Slice) : Slice :=
  let z := (listedIn y q).foldl (fun (y : Slice) i => y.switch i .unmapped) y
  { z with units := z.units.filter fun u => u.nsid != nsid }

theorem dropEntries_eq (s : State) (n : Nat) (q : NsPart) (nsid : Nat) : s.dropEntries n q nsid = s.modSlice n (emptiedRange q nsid) := by
  unfold State.dropEntries emptiedRange listedIn
  dsimp only
  congr 1
  funext y
  rw [List.foldl_map]

theorem mem_of_mapGet {α : Type} {l : List (Nat × α)} {k : Nat} {v : α} (h : mapGet l k = some v) : (k, v) ∈ l := by
  induction l with
  | nil => cases h
  | cons p l ih =>
    rw [mapGet] at h
    split at h
    next same => exact List.mem_cons.mpr (.inl (Prod.ext same (Option.some.inj h).symm))
    next => exact List.mem_cons_of_mem _ (ih h)

theorem entry_emptiedRange {q : NsPart} (nsid : Nat) (y : Slice) (low : q.base ≤ i) (high : i < q.base + q.len) :
    (emptiedRange q nsid y).entry i = .unmapped := by
  refine (entry_foldl_switch (listedIn y q) y i).trans ?_
  split
  · rfl
  next unlisted =>
    unfold Slice.entry
    cases found : mapGet y.map i with
    | none => rfl
    | some e => exact absurd (List.mem_map.mpr ⟨(i, e), List.mem_filter.mpr ⟨mem_of_mapGet found, by simp [low, high]⟩, rfl⟩) unlisted

theorem keepsUnmapped_emptiedRange (q : NsPart) (nsid : Nat) : KeepsUnmapped (emptiedRange q nsid) := fun y =>
  keepsUnmapped_switch (listedIn y q) y

/-- In a slice that is there, the entries of the range are UNMAPPED and no unit of the namespace is stored. -/
theorem dropEntries_empties {q : NsPart} {nsid : Nat} (there : n < s.slices.length) (low : q.base ≤ i) (high : i < q.base + q.len) :
    ((s.dropEntries n q nsid).slice n).entry i = .unmapped ∧ ∀ u ∈ ((s.dropEntries n q nsid).slice n).units, u.nsid ≠ nsid := by
  rw [dropEntries_eq, slice_modSlice_self _ there]
  exact ⟨entry_emptiedRange nsid _ low high, fun u hu => by simpa using (List.mem_filter.mp hu).2⟩

/-! ### The contents of a namespace (R63, R113, R185) -/

theorem staysUnmapped_dropEntries (s : State) (n : Nat) (q : NsPart) (nsid : Nat) : StaysUnmapped s (s.dropEntries n q nsid) := by
  rw [dropEntries_eq]
  exact staysUnmapped_modSlice s n (keepsUnmapped_emptiedRange q nsid)

theorem staysUnmapped_dropPart (s : State) (x : Namespace) (q : NsPart) : StaysUnmapped s (dropPart x s q) :=
  ((staysUnmapped_dropObjects s q.slice x.nsid).trans (staysUnmapped_dropVersions _ q.slice x.nsid)).trans
    (staysUnmapped_dropEntries _ q.slice q x.nsid)

/-- Memory that is cleared leaves the tables as they are. -/
theorem staysUnmapped_zeroMem (s : State) (x : Namespace) : StaysUnmapped s (s.zeroMem x) := by
  unfold State.zeroMem
  split
  · exact StaysUnmapped.refl s
  · exact StaysUnmapped.foldl (fun s (p : NsPart) => staysUnmapped_modSlice s p.slice (keepsUnmapped_of_map (by intro; rfl))) _ s

/-- Each part that is dropped has its entries UNMAPPED in the end. -/
theorem entry_dropParts {l : List NsPart} {q : NsPart} (hq : q ∈ l) (there : q.slice < s.slices.length) (low : q.base ≤ i)
    (high : i < q.base + q.len) : ((l.foldl (dropPart x) s).slice q.slice).entry i = .unmapped := by
  induction l generalizing s with
  | nil => exact absurd hq List.not_mem_nil
  | cons p l ih =>
    have one := staysUnmapped_dropPart s x p
    rcases List.mem_cons.mp hq with rfl | later
    · have before := (staysUnmapped_dropObjects s q.slice x.nsid).trans (staysUnmapped_dropVersions _ q.slice x.nsid)
      have now := (dropEntries_empties (nsid := x.nsid) (before.length.symm ▸ there) low high).1
      exact (StaysUnmapped.foldl (fun s p => staysUnmapped_dropPart s x p) l _).entry _ _ now
    · exact ih later (one.length.symm ▸ there)

theorem staysUnmapped_clearNs (s : State) (x : Namespace) : StaysUnmapped s (s.clearNs x true) := by
  rw [clearNs_erase]
  exact ((StaysUnmapped.foldl (fun s p => staysUnmapped_dropPart s x p) x.parts s).trans (staysUnmapped_zeroMem _ x)).trans
    (staysUnmapped_of_slices rfl)

theorem entry_clearNs {q : NsPart} (hq : q ∈ x.parts) (there : q.slice < s.slices.length) (low : q.base ≤ i) (high : i < q.base + q.len) :
    ((s.clearNs x true).slice q.slice).entry i = .unmapped := by
  rw [clearNs_erase]
  exact ((staysUnmapped_zeroMem _ x).trans (staysUnmapped_of_slices (s := (dropParts s x).zeroMem x) rfl)).entry _ _
    (entry_dropParts hq there low high)

/-- What formatting some namespaces through the map keeps and takes away (R63). -/
structure Formatted (l : List Namespace) (s t : State) : Prop where
  namespaces : t.namespaces = s.namespaces
  keys : t.nvm.keys = s.nvm.keys
  records : SameRecords s t
  stays : StaysUnmapped s t
  ranges : ∀ r ∈ t.nvm.ranges, r ∈ s.nvm.ranges ∧ ∀ x ∈ l, r.1 ≠ x.nsid
  entries : ∀ x ∈ l, ∀ q ∈ x.parts, q.slice < s.slices.length → ∀ i, q.base ≤ i → i < q.base + q.len → (t.slice q.slice).entry i = .unmapped

theorem formatted_nil (s : State) : Formatted [] s s :=
  ⟨rfl, rfl, SameRecords.refl s, StaysUnmapped.refl s, fun r hr => ⟨hr, by simp⟩, by simp⟩

theorem namespaces_clearNs (s : State) (x : Namespace) (erase : Bool) : (s.clearNs x erase).namespaces = s.namespaces :=
  (clearNs_frame s x erase (Frame.refl 0x20220001020200 s) rfl).same .namespaces rfl

theorem Formatted.cons {l : List Namespace} (rest : Formatted l (s.clearNs x true) t) : Formatted (x :: l) s t where
  namespaces := rest.namespaces.trans (namespaces_clearNs s x true)
  keys := rest.keys.trans (by rw [clearNs_nvm])
  records := (sameRecords_clearNs s x).trans rest.records
  stays := (staysUnmapped_clearNs s x).trans rest.stays
  ranges r hr := by
    obtain ⟨kept, later⟩ := rest.ranges r hr
    rw [clearNs_nvm, List.mem_filter] at kept
    refine ⟨kept.1, fun y hy => ?_⟩
    rcases List.mem_cons.mp hy with rfl | hy
    · simpa using kept.2
    · exact later y hy
  entries y hy q hq there i low high := by
    rcases List.mem_cons.mp hy with rfl | hy
    · exact rest.stays.entry _ _ (entry_clearNs hq there low high)
    · exact rest.entries y hy q hq ((staysUnmapped_clearNs s x).length.symm ▸ there) i low high

theorem formatted_foldl (l : List Namespace) (s : State) : Formatted l s (l.foldl (fun s x => s.clearNs x true) s) := by
  induction l generalizing s with
  | nil => exact formatted_nil s
  | cons x l ih => exact (ih _).cons

/-! ### Cryptographic erase (R184, R185) -/

/-- What a namespace holds in one of its slices, dropped, its stored units left for their key's generation to make invalid. -/
def dropBuffered (x : Namespace) (s : State) (q : NsPart) : State := (s.dropObjects q.slice x.nsid).dropVersions q.slice x.nsid

theorem clearNs_keep (s : State) (x : Namespace) : s.clearNs x false = ((x.parts.foldl (dropBuffered x) s).zeroMem x).dropRanges x.nsid := rfl

theorem dropBuffered_keeps (s : State) (x : Namespace) : Frame 0x20200001020200 s ((x.parts.foldl (dropBuffered x) s).zeroMem x) :=
  zeroMem_frame _ x (Frame.foldl _ _ (Frame.refl _ s) fun _ _ fr => dropVersions_frame _ _ _ (dropObjects_frame _ _ _ fr rfl) rfl) rfl

theorem sameRecords_clearNs_keep (s : State) (x : Namespace) : SameRecords s (s.clearNs x false) := by
  rw [clearNs_keep]
  exact (sameRecords_foldl (dropBuffered x) (fun s q => (sameRecords_dropObjects s q.slice x.nsid).trans
    (sameRecords_dropVersions _ q.slice x.nsid)) x.parts s).trans
    (sameRecords_of_frame (dropRanges_frame _ _ (zeroMem_frame _ x (Frame.refl 0x20020000020000 _) rfl) rfl) rfl)

theorem nvm_clearNs_keep (s : State) (x : Namespace) :
    (s.clearNs x false).nvm = { s.nvm with ranges := s.nvm.ranges.filter fun r => r.1 != x.nsid } := by
  rw [clearNs_keep, State.dropRanges, modNvm_nvm, (dropBuffered_keeps s x).same .nvm rfl]

theorem keySlot_congr (e : t.nvm.keys = s.nvm.keys) (k : Nat) : t.keySlot k = s.keySlot k := by
  rw [State.keySlot, State.keySlot, e]

theorem nvm_putKey (s : State) (n : Nat) (k : KeySlot) : (s.putKey n k).nvm = { s.nvm with keys := mapInsert s.nvm.keys n k } := by
  unfold State.putKey
  dsimp only
  split <;> rfl

/-- A new key's slot has the generation after the old one, and the deferred-fault ranges are as they were (R184). -/
theorem loadKey_raises (s : State) (n use : Nat) (k : Key) :
    ((s.loadKey n use k).keySlot n).generation = (s.keySlot n).generation + 1 ∧ (s.loadKey n use k).nvm.ranges = s.nvm.ranges := by
  unfold State.loadKey State.zeroCounters
  dsimp only
  refine ⟨?_, ?_⟩
  · rw [State.keySlot, modNvm_nvm, mapSlices_nvm, nvm_putKey, mapGet_mapInsert, if_pos rfl]
    rfl
  · rw [modNvm_nvm, mapSlices_nvm, nvm_putKey]

/-- A unit stored under another generation than its tenant slot's is invalid (R113). -/
theorem unitValid_of_old {n k : Nat} {u : StoredUnit} (slot : u.keySlot = k) (tenant : k < 4096) (old : (t.keySlot k).generation ≠ u.keyGen) :
    t.unitValid n u = false := by
  subst slot
  have stale : ((t.keySlot u.keySlot).generation == u.keyGen) = false := beq_eq_false_iff_ne.mpr old
  rw [State.unitValid, stale, decide_eq_false (Nat.not_le.mpr tenant)]
  exact Bool.and_false _

theorem keys_clearNs_keep (s : State) (x : Namespace) : (s.clearNs x false).nvm.keys = s.nvm.keys := by rw [nvm_clearNs_keep]

theorem named_of_ns {nsid : Nat} (one : nsid ≠ 0xFFFFFFFF) (hx : s.ns nsid = some x) : s.named nsid = [x] := by
  rw [State.named, if_neg one, hx]
  rfl

/-- Cryptographic erase of one namespace that may take a new key: its contents go, then its key is regenerated. -/
theorem execFormatNvm_key {nsid : Nat} (ready : ManagerReady s h) (one : nsid ≠ 0xFFFFFFFF) (hx : s.ns nsid = some x)
    (may : s.mayRegenerate x = none) :
    exec (.formatNvm h nsid 2 0 0 0) s =
      .next (((s.clearNs x false).regenerate x).1.answer h (ansSt stOk) ((s.clearNs x false).regenerate x).2) := by
  refine congrArg Host.Outcome.next ((managed_of_ready ready _).trans ?_)
  dsimp only
  rw [named_of_ns one hx]
  simp [may]

theorem execFormatNvm_map {nsid ses : Nat} (ready : ManagerReady s h) (some_ : s.named nsid ≠ []) (map : ses ≤ 1) :
    exec (.formatNvm h nsid ses 0 0 0) s = .next (((s.named nsid).foldl (fun s x => s.clearNs x true) s).finish h (ansSt stOk)) := by
  refine congrArg Host.Outcome.next ((managed_of_ready ready _).trans ?_)
  dsimp only
  rw [if_neg some_, if_neg (by omega), if_pos (by omega)]

/-- The command keeps its record while the contents go. -/
theorem record_clearNs_keep (ready : ManagerReady s h) (x : Namespace) : ((s.clearNs x false).inFlight h).isSome = true := by
  rw [(sameRecords_clearNs_keep s x).isSome]
  exact inFlight_isSome_of_ready ready

theorem ranges_clearNs_keep (s : State) (x : Namespace) : ∀ r ∈ (s.clearNs x false).nvm.ranges, r.1 ≠ x.nsid := fun r hr => by
  rw [nvm_clearNs_keep] at hr
  simpa using (List.mem_filter.mp hr).2

/-- A key that is not RETIRING is regenerated at once. -/
theorem regenerate_at_once {k : Nat} (slot : x.slot = some k) (live : (s.keySlot k).state ≠ .retiring) :
    s.regenerate x = (s.random.2.loadKey k (s.keySlot k).use s.random.1, []) := by
  unfold State.regenerate
  rw [slot]
  dsimp only
  split
  · exact absurd ‹_› live
  · rfl

theorem regenerate_waits {k : Nat} (slot : x.slot = some k) (retiring : (s.keySlot k).state = .retiring) :
    s.regenerate x = ({ s with slotWaits := s.slotWaits ++ [{ slot := k, format := true }] }, [.slotActive k]) := by
  unfold State.regenerate
  rw [slot]
  dsimp only
  rw [retiring]

theorem regenerate_of_no_slot (slot : x.slot = none) : s.regenerate x = (s, []) := by
  unfold State.regenerate
  rw [slot]

/-- Settles O26: a format through the map, one through the key, one without a key, and the entries of a range. -/
theorem formatsEraseWithTheKeyOrTheMap : Obligations.FormatsEraseWithTheKeyOrTheMap := by
  refine ⟨fun h nsid ses s ready some_ map => ?_, fun h nsid k s x ready one hx slot more entropy => ?_,
    fun h nsid s x ready one hx slot => ?_, fun s n i q nsid there low high => dropEntries_empties there low high⟩
  · have done := formatted_foldl (s.named nsid) s
    refine ⟨_, execFormatNvm_map ready some_ map, answered_finish ?_ _, done.namespaces, done.keys, fun x hx =>
      ⟨fun r hr => (done.ranges r hr).2 x hx, fun q hq there i low high => done.entries x hx q hq there i low high⟩⟩
    rw [done.records.isSome]
    exact inFlight_isSome_of_ready ready
  · have may : s.mayRegenerate x = none := by
      unfold State.mayRegenerate
      rw [slot]
      dsimp only
      rw [if_neg (by omega), if_neg (by simp [entropy])]
    have e := execFormatNvm_key ready one hx may
    have key : (s.clearNs x false).keySlot k = s.keySlot k := keySlot_congr (keys_clearNs_keep s x) k
    have record := record_clearNs_keep ready x
    have cut := ranges_clearNs_keep s x
    rw [ns_nsid hx] at cut
    by_cases retiring : (s.keySlot k).state = .retiring
    · rw [regenerate_waits slot (key.symm ▸ retiring)] at e
      refine ⟨_, e, cut, ?_⟩
      rw [if_pos retiring]
      refine ⟨standing_answer record _ _, ?_, ?_⟩
      · exact congrArg (· ++ [SlotWait.mk k true]) ((clearNs_frame s x false (Frame.refl 0x20220001020200 s) rfl).same .slotWaits rfl)
      · exact keys_clearNs_keep s x
    · rw [regenerate_at_once slot (key.symm ▸ retiring)] at e
      obtain ⟨raised, ranges⟩ := loadKey_raises (s.clearNs x false).random.2 k ((s.clearNs x false).keySlot k).use (s.clearNs x false).random.1
      have gen := raised.trans (congrArg (fun q : KeySlot => q.generation + 1) key)
      refine ⟨_, e, fun r hr => cut r (Eq.mp (congrArg (r ∈ ·) ranges) hr), ?_⟩
      rw [if_neg retiring]
      refine ⟨answered_finish ?_ _, gen, fun n u slot tenant old => unitValid_of_old slot tenant (gen.trans_ne (by omega))⟩
      rw [inFlight_congr ((loadKey_frame _ k _ _ (Frame.refl 0x20000020004 _) rfl).same .inflight rfl)]
      exact record
  · have may : s.mayRegenerate x = none := by
      unfold State.mayRegenerate
      rw [slot]
    have e := execFormatNvm_key ready one hx may
    rw [regenerate_of_no_slot slot] at e
    have cut := ranges_clearNs_keep s x
    rw [ns_nsid hx] at cut
    exact ⟨_, e, answered_finish (record_clearNs_keep ready x) _, cut, keys_clearNs_keep s x⟩

end Sys2Proof.Proofs
end

section
/-!
Where a mapping unit lies (R54, R97, R100), and the changes of a slice's buffer and table that leave zeros where there are zeros.
-/

namespace Sys2Proof.Proofs

open Sys2Proof.Machine Sys2Proof.Laws

variable {s t u : State} {x : Namespace} {n i b l : Nat}

/-! ### The first block of a mapping unit (R54, R97) -/

/-- A mapping unit is a part of a stripe of 256 blocks. -/
theorem mu_dvd (s : State) (n : Nat) : s.mu n ∣ 256 := by
  unfold State.mu muBlocks
  split
  · decide
  · split <;> decide

/-- Within a stripe a block's number in its slice has the remainder of its address. -/
theorem route_mod {m : Nat} (hm : m ∣ 256) (x : Namespace) (l : Nat) : (x.route l).2.2 % m = l % m := by
  unfold Namespace.route
  dsimp only
  split
  · obtain ⟨c, hc⟩ := hm
    rw [show l / 256 / x.parts.length * 256 = m * (l / 256 / x.parts.length * c) by rw [hc]; ring, Nat.mul_add_mod]
    exact Nat.mod_mod_of_dvd l ⟨c, hc⟩
  · rfl

/-- The first block of a unit lies in the same part, by as many blocks before. -/
theorem route_first {m : Nat} (hm : m ∣ 256) (x : Namespace) (l : Nat) :
    x.route (l - l % m) = ((x.route l).1, (x.route l).2.1, (x.route l).2.2 - l % m) := by
  have inside : l % m ≤ l % 256 := by
    rw [← Nat.mod_mod_of_dvd l hm]
    exact Nat.mod_le _ _
  have stripe : (l - l % m) / 256 = l / 256 := by omega
  have rest : (l - l % m) % 256 = l % 256 - l % m := by omega
  unfold Namespace.route
  dsimp only
  rw [stripe, rest]
  split
  · simp only [Nat.add_sub_assoc inside]
  · rfl

/-- The first block of the unit that a block lies in. -/
def unitFirst (s : State) (x : Namespace) (l : Nat) : Nat := l - (s.place x l).2.2

theorem block_place (s : State) (x : Namespace) (l : Nat) : (s.place x l).2.2 = l % s.mu (x.route l).1 := route_mod (mu_dvd s _) x l

theorem place_unitFirst (s : State) (x : Namespace) (l : Nat) :
    s.place x (unitFirst s x l) = ((s.place x l).1, (s.place x l).2.1, 0) := by
  have route : x.route (unitFirst s x l) = ((x.route l).1, (x.route l).2.1, (x.route l).2.2 - (x.route l).2.2 % s.mu (x.route l).1) := by
    rw [unitFirst, block_place, route_first (mu_dvd s _), route_mod (mu_dvd s _)]
  have whole : (x.route l).2.2 - (x.route l).2.2 % s.mu (x.route l).1 = s.mu (x.route l).1 * ((x.route l).2.2 / s.mu (x.route l).1) := by
    have := Nat.div_add_mod (x.route l).2.2 (s.mu (x.route l).1)
    omega
  unfold State.place
  rw [route]
  dsimp only
  rw [whole, Nat.mul_div_cancel_left _ (mu_pos s _), Nat.mul_mod_right]

theorem unitFirst_le (s : State) (x : Namespace) (l : Nat) : unitFirst s x l ≤ l := Nat.sub_le _ _

theorem lt_unitFirst_add (s : State) (x : Namespace) (l : Nat) : l < unitFirst s x l + s.mu (x.route l).1 := by
  have small : (s.place x l).2.2 < s.mu (x.route l).1 := Nat.mod_lt _ (mu_pos s _)
  have low : (s.place x l).2.2 ≤ l := by
    rw [block_place]
    exact Nat.mod_le _ _
  unfold unitFirst
  omega

theorem place_of_mu (units : ∀ n, t.mu n = s.mu n) (x : Namespace) (l : Nat) : t.place x l = s.place x l := by
  simp only [State.place, units]

/-! ### Zeros in the buffer and the table (R101, R106, R134) -/

/-- The buffer holds zeros for a block, or nothing, over an entry without data. -/
def ZeroIn (y : Slice) (i b : Nat) : Prop :=
  held y i b = some (.ok 0) ∨ held y i b = none ∧ (beneath y i = .zero ∨ beneath y i = .unmapped)

/-- What a block reads as depends on the newest version of its unit and on its entry. -/
theorem ZeroIn.congr {y z : Slice} (zero : ZeroIn y i b) (newest : z.newest i = y.newest i) (entry : z.entry i = y.entry i) : ZeroIn z i b := by
  unfold ZeroIn held beneath at *
  rw [newest, entry]
  exact zero

theorem ZeroIn.of_slice {y z : Slice} (zero : ZeroIn y i b) (versions : z.versions = y.versions) (map : z.map = y.map) : ZeroIn z i b :=
  zero.congr (by rw [Slice.newest, Slice.newest, versions]) (by rw [Slice.entry, Slice.entry, map])

/-- Versions that hold no less, over the same entries, leave zeros where there are zeros. -/
theorem ZeroIn.modVersion {y : Slice} {f : Version → Version} (zero : ZeroIn y i b) (w : Nat) (index : ∀ v, (f v).index = v.index)
    (dead : ∀ v, (f v).dead = v.dead) (under : ∀ v, (f v).under = v.under) (kept : ∀ v, heldBy (f v) b = heldBy v b ∨ heldBy (f v) b = some (.ok 0)) :
    ZeroIn (y.modVersion w f) i b := by
  have newest := newest_modVersion y w i f index dead
  unfold ZeroIn held beneath at *
  rw [newest]
  cases old : y.newest i with
  | none =>
    rw [old] at zero
    exact zero
  | some v =>
    rw [old] at zero
    simp only [Option.map_some, Option.bind_some, Option.getD_some] at zero ⊢
    split
    · rw [under]
      rcases kept v with same | put
      · rw [same]
        exact zero
      · exact .inl put
    · exact zero

/-- A block of zeros put into a version. -/
theorem ZeroIn.put {y : Slice} (zero : ZeroIn y i b) (small : b < 16) (w c writer : Nat) : ZeroIn (y.modVersion w (putBlock c 0 writer)) i b := by
  refine zero.modVersion w (by intro; rfl) (by intro; rfl) (by intro; rfl) fun v => ?_
  rw [heldBy_putBlock small]
  split
  · exact .inr rfl
  · exact .inl rfl

/-- The newest of another unit is not the version that comes last. -/
theorem newest_of_append_ne {y : Slice} {m : List Version} {v : Version} {k : Nat} (h : y.versions = m ++ [v]) (hk : v.index ≠ k) :
    y.newest k = ((m.filter fun v => v.index == k && !v.dead)).getLast? := by
  unfold Slice.newest
  rw [h, List.filter_append]
  simp [hk]

theorem entry_setEntry (y : Slice) (i k : Nat) (e : Entry) : (y.setEntry i e).entry k = if k = i then e else y.entry k :=
  mapGet_mapPut (fun _ => Entry.unmapped) y.map i k e

/-- A new version with a block of zeros, seeded with what the buffer held over the same entry, leaves zeros where there are zeros. -/
theorem ZeroIn.append {y z : Slice} {k c writer : Nat} {v : Version} (zero : ZeroIn y i b) (small : b < 16)
    (versions : z.versions = y.versions ++ [putBlock c 0 writer v]) (e : Entry) (map : z.map = mapPut y.map .unmapped k e) (index : v.index = k)
    (live : v.dead = false) (holds : ∀ j, heldBy v j = held y k j) (under : v.under = beneath y k) : ZeroIn z i b := by
  by_cases own : i = k
  · subst own
    have newest : z.newest i = some (putBlock c 0 writer v) := newest_of_append versions index live
    unfold ZeroIn
    rw [held, beneath, newest, Option.bind_some, heldBy_putBlock small, holds]
    split
    · exact .inl rfl
    · refine zero.imp_right fun ⟨empty, bare⟩ => ⟨empty, ?_⟩
      change v.under = _ ∨ v.under = _
      rwa [under]
  · have entry : z.entry i = y.entry i := by
      rw [Slice.entry, map]
      exact (entry_setEntry y k i e).trans (if_neg own)
    refine zero.congr ?_ entry
    rw [newest_of_append_ne versions (fun e => own (e.symm.trans index))]
    rfl

/-- A block of zeros taken into the buffer leaves zeros where there are zeros (R106). -/
theorem zeroIn_bufferBlock (s : State) (n nsid lua j c writer : Nat) (k : Nat) (small : b < 16) (zero : ZeroIn (s.slice k) i b) :
    ZeroIn ((s.bufferBlock n nsid lua j c 0 writer).2.slice k) i b := by
  have copied : ∀ (f : Slice → Slice) (w : Nat) (chans : List Nat), ZeroIn (f (s.slice n)) i b ∨ k ≠ n →
      ZeroIn (((s.modSlice n f).dramCopies n w c writer chans).slice k) i b := fun f w chans put => by
    obtain ⟨ds, e⟩ := dramCopies_drams (s.modSlice n f) n w c writer chans k
    have kept : ZeroIn ((s.modSlice n f).slice k) i b := by
      by_cases own : k = n
      · subst own
        rcases slice_modSlice_cases s k k f with e | e <;> rw [e]
        · exact put.resolve_right (not_not.mpr rfl)
        · exact zero
      · rw [slice_modSlice_of_ne s f own]
        exact zero
    exact kept.of_slice (by rw [e]) (by rw [e])
  by_cases own : k = n
  case neg =>
    unfold State.bufferBlock
    dsimp only
    split
    · split
      · exact copied _ _ _ (.inr own)
      · exact copied _ _ _ (.inr own)
    · exact copied _ _ _ (.inr own)
  case pos =>
    subst own
    unfold State.bufferBlock
    dsimp only
    split
    next v e =>
      have holds : ∀ j', heldBy v j' = held (s.slice k) j j' := fun j' => by simp [held, e]
      have under : v.under = beneath (s.slice k) j := by simp [beneath, e]
      split
      · exact copied _ _ _ (.inl ((zero.put small v.wslot c writer).of_slice rfl rfl))
      · exact copied _ _ _ (.inl (zero.append (k := j) (v := { newVersion (s.slice k).nextWslot nsid lua j writer s.now v.under (s.copyChans k writer) with
          blocks := v.blocks, lostMap := v.lostMap, keySlot := v.keySlot, keyGen := v.keyGen, objRec := v.objRec }) small rfl
          (.buffer (s.slice k).nextWslot) rfl rfl rfl holds under))
    next e =>
      have holds : ∀ j', held (s.slice k) j j' = none := fun j' => by simp [held, e]
      have under : beneath (s.slice k) j = (s.slice k).entry j := by simp [beneath, e]
      exact copied _ _ _ (.inl (zero.append (k := j) (v := newVersion (s.slice k).nextWslot nsid lua j writer s.now ((s.slice k).entry j)
        (s.copyChans k writer)) small rfl (.buffer (s.slice k).nextWslot) rfl rfl rfl
        (fun j' => (holds j').symm) under.symm))

/-- A slice of which a unit is superseded: no version of it counts, and its entry is the new one (R134). -/
def superseded (i : Nat) (e : Entry) (y : Slice) : Slice :=
  Slice.switch { y with versions := (y.versions.filter fun v => !(v.index == i && v.isOpen)).map fun v =>
    if v.index = i then { v with dead := true, acked := [] } else v } i e

theorem supersede_state (s : State) (n i : Nat) (e : Entry) : (s.supersede n i e).2 = s.modSlice n (superseded i e) := rfl

theorem newest_superseded (y : Slice) (i k : Nat) (e : Entry) : (superseded i e y).newest k = if k = i then none else y.newest k := by
  have versions : (superseded i e y).newest k = (((y.versions.filter fun v => !(v.index == i && v.isOpen)).map fun v =>
      if v.index = i then { v with dead := true, acked := [] } else v).filter fun v => v.index == k && !v.dead).getLast? := rfl
  rw [versions]
  split
  case isTrue own =>
    subst own
    rw [List.filter_eq_nil_iff.mpr, List.getLast?_nil]
    intro v hv
    obtain ⟨w, -, rfl⟩ := List.mem_map.mp hv
    split
    · simp
    · simp [*]
  case isFalse other =>
    unfold Slice.newest
    rw [List.filter_map, List.getLast?_map, List.filter_filter]
    have same : (fun v : Version => ((fun v => v.index == k && !v.dead) ∘ fun v : Version =>
        if v.index = i then { v with dead := true, acked := [] } else v) v && !(v.index == i && v.isOpen)) = fun v => v.index == k && !v.dead := by
      funext v
      by_cases own : v.index = i
      · have off : v.index ≠ k := fun e => other (e.symm.trans own)
        simp [own, Ne.symm other]
      · simp [own]
    rw [same]
    cases found : (y.versions.filter fun v => v.index == k && !v.dead).getLast? with
    | none => rfl
    | some v =>
      have kept := (List.mem_filter.mp (List.mem_of_getLast? found)).2
      have off : v.index ≠ i := fun e => other (by simp at kept; exact kept.1.symm.trans e)
      simp [off]

theorem entry_superseded (y : Slice) (i k : Nat) (e : Entry) : (superseded i e y).entry k = if k = i then e else y.entry k := entry_switch _ i k e

/-- A unit that becomes ZERO or UNMAPPED is zeros. -/
theorem zeroIn_superseded_self (y : Slice) (i b : Nat) {e : Entry} (he : e = .zero ∨ e = .unmapped) : ZeroIn (superseded i e y) i b := by
  have none := (newest_superseded y i i e).trans (if_pos rfl)
  have entry := (entry_superseded y i i e).trans (if_pos rfl)
  refine .inr ⟨by rw [held, none]; rfl, ?_⟩
  rw [beneath, none, entry]
  exact he

theorem ZeroIn.superseded {y : Slice} {e : Entry} (zero : ZeroIn y i b) (k : Nat) (he : e = .zero ∨ e = .unmapped) :
    ZeroIn (superseded k e y) i b := by
  by_cases own : i = k
  · subst own
    exact zeroIn_superseded_self y i b he
  · exact zero.congr ((newest_superseded y k i e).trans (if_neg own)) ((entry_superseded y k i e).trans (if_neg own))

end Sys2Proof.Proofs
end

section
/-!
Blocks that read as zeros, and what leaves them so (R13, R60, R83, R106, R134).
-/

namespace Sys2Proof.Proofs

open Sys2Proof.Machine Sys2Proof.Laws

variable {s t u : State} {x : Namespace} {h : Hdr} {l : Nat}

/-! ### Blocks that read as zeros -/

/-- A block that its slice serves, in no deferred-fault range, and zeros in the buffer or beneath it. -/
structure ReadsZero (s : State) (x : Namespace) (l : Nat) : Prop where
  up : s.nsUp x (x.route l).1 = true
  sound : s.faulted x.nsid l = false
  zero : ZeroIn (s.slice (s.place x l).1) (s.place x l).2.1 (s.place x l).2.2

theorem ReadsZero.readLba (r : ReadsZero s x l) : s.readLba x l = .ok 0 := by
  have up : s.nsUp x (s.place x l).1 = true := r.up
  rw [readLba_eq, readBlock_eq, up, r.sound]
  rcases r.zero with holds | ⟨empty, bare | bare⟩
  · rw [holds]
    rfl
  · rw [empty, bare]
    rfl
  · rw [empty, bare]
    rfl

/-- From s to t the same slices serve, and blocks of a namespace that read as zeros do so still. -/
structure KeepsZeros (x : Namespace) (s t : State) : Prop where
  units : ∀ n, t.mu n = s.mu n
  serves : ServesAlike s t
  length : t.slices.length = s.slices.length
  sound : ∀ l, s.faulted x.nsid l = false → t.faulted x.nsid l = false
  zeros : ∀ n i b, b < 16 → ZeroIn (s.slice n) i b → ZeroIn (t.slice n) i b

theorem KeepsZeros.refl (x : Namespace) (s : State) : KeepsZeros x s s :=
  ⟨fun _ => rfl, ServesAlike.refl s, rfl, fun _ e => e, fun _ _ _ _ z => z⟩

theorem KeepsZeros.trans (a : KeepsZeros x s t) (b : KeepsZeros x t u) : KeepsZeros x s u where
  units n := (b.units n).trans (a.units n)
  serves := a.serves.trans b.serves
  length := b.length.trans a.length
  sound l e := b.sound l (a.sound l e)
  zeros n i k small z := b.zeros n i k small (a.zeros n i k small z)

theorem KeepsZeros.foldl {α : Type} {f : State → α → State} (each : ∀ s a, KeepsZeros x s (f s a)) (m : List α) (s : State) :
    KeepsZeros x s (m.foldl f s) := by
  induction m generalizing s with
  | nil => exact KeepsZeros.refl x s
  | cons a m ih => exact (each s a).trans (ih _)

theorem KeepsZeros.reads (k : KeepsZeros x s t) (r : ReadsZero s x l) : ReadsZero t x l where
  up := (k.serves.nsUp x _).trans r.up
  sound := k.sound l r.sound
  zero := by
    rw [place_of_mu k.units]
    exact k.zeros _ _ _ (place_lt s x l) r.zero

theorem mu_of_regs (part : t.part = s.part) (regs : t.regs = s.regs) (n : Nat) : t.mu n = s.mu n := by
  rw [State.mu, State.mu, State.fld, State.fld, rd_congr regs part]

theorem faulted_congr (e : t.nvm = s.nvm) (m l : Nat) : t.faulted m l = s.faulted m l := by
  rw [State.faulted, State.faulted, e]

/-- What leaves the slices alone. -/
theorem keepsZeros_of_slices (units : ∀ n, t.mu n = s.mu n) (serves : ServesAlike s t) (slices : t.slices = s.slices) (nvm : t.nvm = s.nvm) :
    KeepsZeros x s t where
  units := units
  serves := serves
  length := by rw [slices]
  sound l e := (faulted_congr nvm x.nsid l).trans e
  zeros n i b _ z := by rw [slice_congr slices]; exact z

theorem keepsZeros_modSlice (s : State) (n : Nat) {f : Slice → Slice} (mode : ∀ y, (f y).mode = y.mode) (luns : ∀ y, (f y).luns = y.luns)
    (zeros : ∀ y i b, b < 16 → ZeroIn y i b → ZeroIn (f y) i b) : KeepsZeros x s (s.modSlice n f) where
  units _ := rfl
  serves := servesAlike_modSlice s n f mode luns
  length := slices_length_modSlice s n f
  sound _ e := e
  zeros k i b small z := by
    rcases slice_modSlice_cases s n k f with e | e <;> rw [e]
    · exact zeros _ i b small z
    · exact z

/-! ### What a write is charged for and what it streams (R56, R83) -/

theorem keepsZeros_charge (s : State) (owner n : Nat) (p : Pool) (bytes : Nat) : KeepsZeros x s (s.charge owner n p bytes) := by
  have taken : ∀ (u : State) r, KeepsZeros x u ((u.modSlice n fun y => y.countWa p bytes 0).modTenant owner fun t =>
      { t with allowance := t.allowance - r }) := fun u r =>
    (keepsZeros_modSlice u n (f := fun y => y.countWa p bytes 0) (by intro; rfl) (by intro; rfl) fun y i b _ z => z.of_slice rfl rfl).trans
      (keepsZeros_of_slices (fun _ => rfl) (servesAlike_modTenant _ owner _ (by intro; rfl) (by intro; rfl) (by intro; rfl)) rfl rfl)
  unfold State.charge
  dsimp only
  split
  · exact taken s _
  · have drawn : KeepsZeros x s s.free.2 := keepsZeros_of_slices (fun _ => rfl) (servesAlike_of_parts rfl rfl rfl rfl) rfl rfl
    exact drawn.trans (taken s.free.2 _)

/-- The register of the mapping unit is a slice's. -/
theorem ftCfg_ge (n : Nat) : 0x1000000 ≤ Adr.ftCfg n := by
  unfold Adr.ftCfg sliceAdr
  omega

theorem mu_of_rd (rd : ∀ a, 0x1000000 ≤ a → t.rd a = s.rd a) (n : Nat) : t.mu n = s.mu n := by
  rw [State.mu, State.mu, State.fld, State.fld, rd _ (ftCfg_ge n)]

theorem keepsZeros_evalWear (s : State) : KeepsZeros x s s.evalWear := by
  have fr := evalWear_frame s (Frame.refl 0x1004 s) rfl
  refine keepsZeros_of_slices (mu_of_rd fun a high => ?_) (evalWear_servesAlike s) (fr.same .slices rfl) (fr.same .nvm rfl)
  have off : a ≠ Adr.fnEvt := fun e => by rw [e] at high; exact absurd high (by decide)
  unfold State.evalWear
  dsimp only
  split
  · exact rd_setBit_of_ne _ 3 off
  · rfl

theorem keepsZeros_charges (s : State) (h : Hdr) (x : Namespace) (lbas : List Nat) : KeepsZeros x s (s.charges h x lbas) :=
  (KeepsZeros.foldl (fun _ _ => keepsZeros_charge ..) _ s).trans (keepsZeros_evalWear _)

theorem keepsZeros_throughNow (s : State) (h : Hdr) (x : Namespace) (fua : Bool) (wrote : List (Nat × Nat × List Nat)) :
    KeepsZeros x s (s.throughNow h x fua wrote).2 :=
  KeepsZeros.foldl (fun s (w : Nat × Nat × List Nat) => keepsZeros_modSlice s w.1
    (f := fun y => y.modVersion w.2.1 fun v => { v with through := true }) (by intro; rfl) (by intro; rfl) fun y _ _ _ z =>
    z.modVersion w.2.1 (f := fun v => { v with through := true }) (by intro; rfl) (by intro; rfl) (by intro; rfl) fun _ => .inl rfl) _ s

/-! ### Blocks of zeros written (R58, R106) -/

theorem slices_length_bufferBlock (s : State) (n nsid lua i b : Nat) (d : Block) (writer : Nat) :
    (s.bufferBlock n nsid lua i b d writer).2.slices.length = s.slices.length := by
  have put : ∀ (u : State) (c port owner ca pieces : Nat) (write : Bool), (u.dramPut n c port owner ca pieces write).slices.length = u.slices.length := by
    intros
    unfold State.dramPut
    split
    · rfl
    · exact slices_length_modSlice _ _ _
  have copies : ∀ (u : State) (w : Nat) (chans : List Nat), (u.dramCopies n w b writer chans).slices.length = u.slices.length :=
    fun u w chans => slices_length_foldl _ (fun u c => put u _ _ _ _ _ _) chans u
  obtain ⟨f, w, chans, v, e, -, -, -, -⟩ := bufferBlock_cases s n nsid lua i b d writer
  rw [e, copies, slices_length_modSlice]

theorem keepsZeros_writeBlock (s : State) (x : Namespace) (owner l : Nat) : KeepsZeros x s (s.writeBlock x owner l 0).2 := by
  by_cases up : s.nsUp x (s.place x l).1 = true
  case neg =>
    rw [State.writeBlock, if_pos (by simpa using up)]
    exact KeepsZeros.refl x s
  case pos =>
    have fr : Frame 0x20000020000 s (s.writeBlock x owner l 0).2 := writeBlock_frame s x owner l 0 (Frame.refl _ s) rfl
    refine ⟨mu_of_regs (fr.same .part rfl) (fr.same .regs rfl), writeBlock_servesAlike up owner 0, ?_, fun k sound => ?_, fun n i b small zero => ?_⟩
    · rw [writeBlock_of_up up]
      exact (congrArg List.length ((unfault_frame _ x.nsid l (Frame.refl 0x20000000000 _) rfl).same .slices rfl)).trans
        (slices_length_bufferBlock ..)
    · rw [writeBlock_faulted up, sound]
      rfl
    · rw [writeBlock_slice up]
      exact zeroIn_bufferBlock s _ _ _ _ _ owner n small zero

theorem readsZero_writeBlock (h8 : s.slices.length = 8) (up : s.nsUp x (x.route l).1 = true) (owner : Nat) :
    ReadsZero (s.writeBlock x owner l 0).2 x l where
  up := ((writeBlock_servesAlike up owner 0).nsUp x _).trans up
  sound := by
    rw [writeBlock_faulted up]
    simp
  zero := by
    rw [place_of_mu (keepsZeros_writeBlock s x owner l).units]
    exact .inl ((held_writeBlock h8 up owner 0 (place_lt s x l)).trans (if_pos rfl))

/-- Zeros written block by block. -/
def zeroed (x : Namespace) (owner : Nat) (s : State) (m : List (Nat × Block)) : State := m.foldl (fun s q => (s.writeBlock x owner q.1 0).2) s

theorem keepsZeros_zeroed (s : State) (x : Namespace) (owner : Nat) (m : List (Nat × Block)) : KeepsZeros x s (zeroed x owner s m) :=
  KeepsZeros.foldl (fun _ _ => keepsZeros_writeBlock ..) m s

theorem readsZero_zeroed {m : List (Nat × Block)} {q : Nat × Block} (hq : q ∈ m) (h8 : s.slices.length = 8)
    (up : ∀ q ∈ m, s.nsUp x (x.route q.1).1 = true) (owner : Nat) : ReadsZero (zeroed x owner s m) x q.1 := by
  induction m generalizing s with
  | nil => exact absurd hq List.not_mem_nil
  | cons p m ih =>
    have one := keepsZeros_writeBlock s x owner p.1
    rcases List.mem_cons.mp hq with rfl | later
    · exact (keepsZeros_zeroed _ x owner m).reads (readsZero_writeBlock h8 (up q List.mem_cons_self) owner)
    · exact ih later (one.length.trans h8) fun q hq => (one.serves.nsUp x _).trans (up q (List.mem_cons_of_mem _ hq))

/-- A write of zeros leaves what it writes block by block. -/
theorem state_writeBlocks_zero {m : List (Nat × Block)} (zeros : ∀ q ∈ m, q.2 = 0) (s : State) (x : Namespace) (owner : Nat) :
    (s.writeBlocks x owner m).state = zeroed x owner s m := by
  have all : ∀ (m : List (Nat × Block)) (k : Nat) (a : Machine.Written), (∀ q ∈ m, q.2 = 0) →
      ((m.zipIdx k).foldl (writeStep x owner) a).state = zeroed x owner a.state m := fun m => by
    induction m with
    | nil => exact fun _ _ _ => rfl
    | cons q m ih =>
      intro k a zeros
      rw [List.zipIdx_cons, List.foldl_cons, ih (k + 1) _ fun q hq => zeros q (List.mem_cons_of_mem _ hq), state_writeStep,
        zeros q List.mem_cons_self]
      rfl
  rw [writeBlocks_eq]
  exact all m 0 _ zeros

/-- A package after the blocks of a write are in the buffer differs in the write's record and its controller's counts only. -/
theorem writeOut_frame_of_throughNow (s : State) (h : Hdr) (x : Namespace) (fua : Bool) (m : List (Nat × Block)) :
    Frame 0x300 ((buffered s h x m).state.throughNow h x fua (buffered s h x m).wrote).2 (s.writeOut h x fua m) := by
  unfold State.writeOut
  dsimp only
  split
  · exact answer_frame _ h _ _ (modCtrl_frame _ _ _ (modIn_frame _ h _ (Frame.refl 0x300 _) rfl) rfl) rfl
  · exact answer_frame _ h _ _ (modCtrl_frame _ _ _ (modIn_frame _ h _ (Frame.refl 0x300 _) rfl) rfl) rfl

theorem keepsZeros_of_frame (fr : Frame 0x300 s t) : KeepsZeros x s t :=
  keepsZeros_of_slices (mu_of_regs (fr.same .part rfl) (fr.same .regs rfl))
    (servesAlike_of_parts (fr.same .part rfl) (fr.same .slices rfl) (fr.same .tenants rfl) (fr.same .leaving rfl)) (fr.same .slices rfl)
    (fr.same .nvm rfl)

/-- A write of zeros leaves zeros where there are zeros, and the blocks that it writes. -/
theorem writeOut_zero {m : List (Nat × Block)} (zeros : ∀ q ∈ m, q.2 = 0) (h8 : s.slices.length = 8)
    (up : ∀ q ∈ m, s.nsUp x (x.route q.1).1 = true) (fua : Bool) :
    KeepsZeros x s (s.writeOut h x fua m) ∧ ∀ q ∈ m, ReadsZero (s.writeOut h x fua m) x q.1 := by
  have charged := keepsZeros_charges s h x (m.map Prod.fst)
  have state : (buffered s h x m).state = zeroed x (ctrlOwner h.ctrl) (s.charges h x (m.map Prod.fst)) m := state_writeBlocks_zero zeros _ x _
  have after : KeepsZeros x (buffered s h x m).state (s.writeOut h x fua m) :=
    (keepsZeros_throughNow _ h x fua _).trans (keepsZeros_of_frame (writeOut_frame_of_throughNow s h x fua m))
  rw [state] at after
  exact ⟨(charged.trans (keepsZeros_zeroed _ x _ m)).trans after, fun q hq => after.reads (readsZero_zeroed hq (charged.length.trans h8)
    (fun q hq => (charged.serves.nsUp x _).trans (up q hq)) _)⟩

/-! ### Units superseded (R134) -/

/-- A unit superseded in its slice, with nothing waiting for its versions. -/
def unitGone (s : State) (x : Namespace) (l : Nat) (e : Entry) : State :=
  (s.supersede (s.place x l).1 (s.place x l).2.1 e).1.foldl (fun s w => s.clearCond (.programmed (s.place x l).1 w))
    (s.supersede (s.place x l).1 (s.place x l).2.1 e).2

/-- Some blocks from an address on taken out of the deferred-fault ranges. -/
def unfaulted (s : State) (nsid first n : Nat) : State := (List.range n).foldl (fun s k => s.unfault nsid (first + k)) s

end Sys2Proof.Proofs
end

section
/-!
Units cleared by Write Zeroes and Deallocate (R63, R134).
-/

namespace Sys2Proof.Proofs

open Sys2Proof.Machine Sys2Proof.Laws

variable {s t u : State} {x : Namespace} {h : Hdr} {l k : Nat} {e : Entry}

/-! ### Deferred-fault ranges without a unit (R63) -/

theorem slices_unfault (s : State) (m l : Nat) : (s.unfault m l).slices = s.slices :=
  (unfault_frame s m l (Frame.refl 0x20000000000 s) rfl).same .slices rfl

theorem slices_unfaulted (s : State) (m first n : Nat) : (unfaulted s m first n).slices = s.slices := by
  unfold unfaulted
  induction List.range n generalizing s with
  | nil => rfl
  | cons a r ih => exact (ih _).trans (slices_unfault ..)

theorem keepsZeros_unfault (s : State) (m l : Nat) : KeepsZeros x s (s.unfault m l) where
  units := by
    obtain ⟨r, e⟩ := unfault_cases s m l
    rw [e]
    exact fun _ => rfl
  serves := by
    obtain ⟨r, e⟩ := unfault_cases s m l
    rw [e]
    exact servesAlike_of_parts rfl rfl rfl rfl
  length := by rw [slices_unfault]
  sound k sound := by rw [faulted_unfault, sound, Bool.false_and]
  zeros n i b _ z := by rwa [slice_congr (slices_unfault s m l)]

theorem keepsZeros_unfaulted (s : State) (m first n : Nat) : KeepsZeros x s (unfaulted s m first n) :=
  KeepsZeros.foldl (fun _ _ => keepsZeros_unfault ..) _ s

/-- A block of the unit is in no deferred-fault range any more. -/
theorem faulted_unfaulted {first n : Nat} (s : State) (x : Namespace) (low : first ≤ k) (high : k < first + n) :
    (unfaulted s x.nsid first n).faulted x.nsid k = false := by
  have all : ∀ (r : List Nat) (s : State), k - first ∈ r → (r.foldl (fun s j => s.unfault x.nsid (first + j)) s).faulted x.nsid k = false := by
    intro r
    induction r with
    | nil => exact fun _ hk => absurd hk List.not_mem_nil
    | cons j r ih =>
      intro s hk
      rcases List.mem_cons.mp hk with here | later
      · refine (KeepsZeros.foldl (x := x) (fun _ _ => keepsZeros_unfault ..) r _).sound k ?_
        rw [faulted_unfault, ← here, Nat.add_sub_cancel' low]
        simp
      · exact ih _ later
  exact all _ s (List.mem_range.mpr (by omega))

/-! ### A unit cleared (R134) -/

theorem clearUnit_eq (s : State) (x : Namespace) (l : Nat) (e : Entry) :
    s.clearUnit x l e = unfaulted (unitGone s x l e) x.nsid (unitFirst s x l) ((unitGone s x l e).mu (s.place x l).1) := rfl

theorem keepsZeros_clearCond (s : State) (c : Cond) : KeepsZeros x s (s.clearCond c) :=
  keepsZeros_of_slices (fun _ => rfl) (servesAlike_of_parts rfl rfl rfl rfl) rfl rfl

theorem keepsZeros_unitGone (s : State) (x : Namespace) (l : Nat) (he : e = .zero ∨ e = .unmapped) : KeepsZeros x s (unitGone s x l e) := by
  unfold unitGone
  rw [supersede_state]
  exact (keepsZeros_modSlice s _ (by intro; rfl) (by intro; rfl) fun y _ _ _ z => z.superseded _ he).trans
    (KeepsZeros.foldl (fun _ _ => keepsZeros_clearCond ..) _ _)

theorem slices_unitGone (s : State) (x : Namespace) (l : Nat) (e : Entry) :
    (unitGone s x l e).slices = (s.modSlice (s.place x l).1 (superseded (s.place x l).2.1 e)).slices := by
  have cleared : ∀ (ws : List Nat) (n : Nat) (u : State), (ws.foldl (fun s w => s.clearCond (.programmed n w)) u).slices = u.slices := by
    intro ws
    induction ws with
    | nil => exact fun _ _ => rfl
    | cons w ws ih => exact fun n u => ih n _
  exact cleared _ _ _

theorem keepsZeros_clearUnit (s : State) (x : Namespace) (l : Nat) (he : e = .zero ∨ e = .unmapped) : KeepsZeros x s (s.clearUnit x l e) :=
  (keepsZeros_unitGone s x l he).trans (keepsZeros_unfaulted ..)

/-- Every block of a unit cleared reads as zeros. -/
theorem readsZero_clearUnit (he : e = .zero ∨ e = .unmapped) (h8 : s.slices.length = 8) (up : s.nsUp x (x.route l).1 = true)
    (slice : (s.place x k).1 = (s.place x l).1) (index : (s.place x k).2.1 = (s.place x l).2.1) (low : unitFirst s x l ≤ k)
    (high : k < unitFirst s x l + s.mu (x.route l).1) : ReadsZero (s.clearUnit x l e) x k where
  up := by
    rw [show (x.route k).1 = (x.route l).1 from slice]
    exact ((keepsZeros_clearUnit s x l he).serves.nsUp x _).trans up
  sound := by
    rw [clearUnit_eq, (keepsZeros_unitGone s x l he).units]
    exact faulted_unfaulted _ x low high
  zero := by
    have own : (s.clearUnit x l e).slice (s.place x l).1 = superseded (s.place x l).2.1 e (s.slice (s.place x l).1) :=
      (slice_congr ((slices_unfaulted ..).trans (slices_unitGone s x l e)) _).trans (slice_modSlice_self _ (nsUp_lt h8 up))
    rw [place_of_mu (keepsZeros_clearUnit s x l he).units, slice, index, own]
    exact zeroIn_superseded_self _ _ _ he

theorem sameRecords_clearUnit (s : State) (x : Namespace) (l : Nat) (e : Entry) : SameRecords s (s.clearUnit x l e) := by
  have gone : SameRecords s (unitGone s x l e) := sameRecords_foldl _ (fun s w => sameRecords_clearCond s _) _ _
  exact gone.trans (sameRecords_foldl _ (fun s j => sameRecords_of_frame (unfault_frame s _ _ (Frame.refl 0x20000000000 s) rfl) rfl) _ _)

/-! ### The units of a covering (R134) -/

/-- Units cleared one after another. -/
def cleared (x : Namespace) (e : Entry) (s : State) (m : List Nat) : State := m.foldl (fun s l => s.clearUnit x l e) s

theorem keepsZeros_cleared (s : State) (x : Namespace) (m : List Nat) (he : e = .zero ∨ e = .unmapped) : KeepsZeros x s (cleared x e s m) :=
  KeepsZeros.foldl (fun _ _ => keepsZeros_clearUnit _ x _ he) m s

theorem sameRecords_cleared (s : State) (x : Namespace) (m : List Nat) (e : Entry) : SameRecords s (cleared x e s m) :=
  sameRecords_foldl _ (fun _ _ => sameRecords_clearUnit ..) m s

theorem route_unitFirst (s : State) (x : Namespace) (l : Nat) : (x.route (unitFirst s x l)).1 = (x.route l).1 := by
  rw [unitFirst, block_place, route_first (mu_dvd s _)]

theorem unitFirst_unitFirst (s : State) (x : Namespace) (l : Nat) : unitFirst s x (unitFirst s x l) = unitFirst s x l := by
  rw [unitFirst, place_unitFirst]
  rfl

/-- A block whose unit's first block is among those cleared reads as zeros. -/
theorem readsZero_cleared {m : List Nat} (he : e = .zero ∨ e = .unmapped) (h8 : s.slices.length = 8) (up : s.nsUp x (x.route l).1 = true)
    (first : unitFirst s x l ∈ m) : ReadsZero (cleared x e s m) x l := by
  induction m generalizing s with
  | nil => exact absurd first List.not_mem_nil
  | cons a m ih =>
    have one := keepsZeros_clearUnit s x a he
    rcases List.mem_cons.mp first with rfl | later
    · have place := place_unitFirst s x l
      have route := route_unitFirst s x l
      have same := unitFirst_unitFirst s x l
      refine (keepsZeros_cleared _ x m he).reads (readsZero_clearUnit he h8 (by rw [route]; exact up) (by rw [place]) (by rw [place]) ?_ ?_)
      · rw [same]
        exact unitFirst_le s x l
      · rw [same, route]
        exact lt_unitFirst_add s x l
    · refine ih (one.length.trans h8) ((one.serves.nsUp x _).trans up) ?_
      rwa [unitFirst, place_of_mu one.units]

theorem unitCovered_iff {p : Nat → Bool} :
    s.unitCovered x l p = true ↔ ∀ j, j < s.mu (x.route l).1 → unitFirst s x l + j < x.size ∧ p (unitFirst s x l + j) = true := by
  simp [State.unitCovered, unitFirst]

/-- The first block of a unit that is covered wholly stands for it. -/
theorem unitFirst_mem_wholeUnits {p : Nat → Bool} {lbas : List Nat} (up : s.nsUp x (x.route l).1 = true) (covered : s.unitCovered x l p = true)
    (all : ∀ j, p j = true → j ∈ lbas) : unitFirst s x l ∈ s.wholeUnits x lbas p := by
  have place := place_unitFirst s x l
  have route := route_unitFirst s x l
  have same := unitFirst_unitFirst s x l
  have first := (unitCovered_iff.mp covered 0 (mu_pos s _)).2
  have whole : s.unitCovered x (unitFirst s x l) p = true := by
    rw [unitCovered_iff, same, route]
    exact unitCovered_iff.mp covered
  refine List.mem_filter.mpr ⟨all _ first, ?_⟩
  have serves : s.nsUp x (s.place x l).1 = true := up
  rw [whole, place, serves]
  rfl

/-- The units that a covering holds wholly read as zeros once they are cleared. -/
theorem readsZero_covered {p : Nat → Bool} {lbas : List Nat} (he : e = .zero ∨ e = .unmapped) (h8 : s.slices.length = 8)
    (up : s.nsUp x (x.route l).1 = true) (covered : s.unitCovered x l p = true) (all : ∀ j, p j = true → j ∈ lbas) :
    ReadsZero (cleared x e s (s.wholeUnits x lbas p)) x l :=
  readsZero_cleared he h8 up (unitFirst_mem_wholeUnits up covered all)

end Sys2Proof.Proofs
end

section
/-!
Write Zeroes and Dataset Management (R48, R63, R134).
-/

namespace Sys2Proof.Proofs

open Sys2Proof.Machine Sys2Proof.Laws

variable {s t u : State} {x : Namespace} {h : Hdr} {l k a : Nat} {e : Entry}

/-! ### The mapping units while a command's data moves (R239, R271) -/

theorem rd_of_frame {F : Nat} (fr : Frame F s t) (regs : F.testBit Component.regs.ctorIdx = false) (part : F.testBit Component.part.ctorIdx = false) :
    t.rd a = s.rd a := by
  rw [rd_congr (fr.same .regs regs) (fr.same .part part)]

/-- Above the hub's registers, a transfer's channel freed changes none. -/
theorem rd_hdFree (s : State) (c : Nat) (high : 0x1000000 ≤ a) : (s.hdFree c).rd a = s.rd a := by
  have sts : a ≠ Adr.hdSts := fun e => by rw [e] at high; exact absurd high (by decide)
  have suspect : a ≠ Adr.hdSuspect := fun e => by rw [e] at high; exact absurd high (by decide)
  have probe : ∀ u : State, (u.hdNextProbe c).rd a = u.rd a := fun u => by
    unfold State.hdNextProbe
    split
    · exact rd_putF_of_ne _ _ _ _ sts
    · exact rd_clrBit_of_ne _ _ sts
  unfold State.hdFree
  dsimp only
  split
  · split
    · exact (probe _).trans (rd_clrBit_of_ne _ _ suspect)
    · exact rd_clrBit_of_ne _ _ suspect
  · rfl

theorem rd_dataIn (s : State) (h : Hdr) (n : Nat) (high : 0x1000000 ≤ a) : (s.dataIn h n).rd a = s.rd a := by
  have freed : ∀ (m : List Nat) (u : State), (m.foldl (fun s c => s.hdFree c) u).rd a = u.rd a := fun m => by
    induction m with
    | nil => exact fun _ => rfl
    | cons c m ih => exact fun u => (ih _).trans (rd_hdFree u c high)
  have dropped : (s.hdDrop fun t => t.hdr == some h).rd a = s.rd a := freed _ _
  have ended : (s.hdEnd h).rd a = s.rd a :=
    (rd_of_frame (hdRefill_frame (s.hdDrop fun t => t.hdr == some h) (Frame.refl 0x700000 _) rfl) rfl rfl).trans dropped
  have placed : ∀ (bufs : List (Nat × Nat)) (m : Transfer), (((s.hdEnd h).translate h.ctrl bufs).hdPlace m).rd a = s.rd a :=
    fun bufs _ => (rd_of_frame (hdPlace_frame _ _ (translate_frame (s.hdEnd h) h.ctrl bufs (Frame.refl 0xf00000 _) rfl) rfl) rfl rfl).trans ended
  unfold State.dataIn State.hdStart
  exact placed _ _

theorem keepsZeros_dataIn (s : State) (h : Hdr) (n : Nat) : KeepsZeros x s (s.dataIn h n) := by
  have fr : Frame 0xf00004 s (s.dataIn h n) := dataIn_frame s h n (Frame.refl _ s) rfl
  exact keepsZeros_of_slices (mu_of_rd fun _ high => rd_dataIn s h n high) (dataIn_alike s h n).1 (fr.same .slices rfl) (fr.same .nvm rfl)

/-! ### Write Zeroes (R134) -/

/-- Some blocks from an address on. -/
def spanLbas (slba nlb : Nat) : List Nat := (List.range nlb).map fun k => slba + k

/-- Is a block among some from an address on? -/
def inSpan (slba nlb l : Nat) : Bool := decide (slba ≤ l) && decide (l < slba + nlb)

theorem mem_spanLbas {slba nlb : Nat} : l ∈ spanLbas slba nlb ↔ inSpan slba nlb l = true := by
  simp only [spanLbas, inSpan, List.mem_map, List.mem_range, Bool.and_eq_true, decide_eq_true_eq]
  exact ⟨fun ⟨k, hk, e⟩ => by omega, fun ⟨low, high⟩ => ⟨l - slba, by omega, by omega⟩⟩

/-- The blocks of a Write Zeroes that take zeros through the buffer: their units are not covered wholly. -/
def edgeLbas (s : State) (x : Namespace) (slba nlb : Nat) : List Nat :=
  (spanLbas slba nlb).filter fun l => !s.unitCovered x l (inSpan slba nlb)

/-- A package whose units that a range covers wholly are cleared. -/
def spanCleared (s : State) (x : Namespace) (slba nlb : Nat) : State :=
  cleared x .zero s (s.wholeUnits x (spanLbas slba nlb) (inSpan slba nlb))

theorem exec_writeZeroes {nsid slba nlb : Nat} {deac fua : Bool} (serves : Serves s h nsid x .block) (few : nlb ≤ 65536)
    (reaches : Reaches s h x slba nlb) (accepts : Accepts s h x fua (edgeLbas s x slba nlb))
    (up : ∀ l ∈ spanLbas slba nlb, s.nsUp x (x.route l).1 = true) :
    exec (.writeZeroes h nsid slba nlb deac fua) s = .next
      ((spanCleared s x slba nlb).writeOut h x fua ((edgeLbas s x slba nlb).map fun l => (l, (0 : Block)))) := by
  have kept : KeepsZeros x s (spanCleared s x slba nlb) := keepsZeros_cleared s x _ (.inl rfl)
  have none : ((spanLbas slba nlb).find? fun l => !(spanCleared s x slba nlb).nsUp x ((spanCleared s x slba nlb).place x l).1) = none := by
    refine List.find?_eq_none.mpr fun l hl => ?_
    have serves := (kept.serves.nsUp x (x.route l).1).trans (up l hl)
    simpa [State.place] using serves
  refine congrArg Host.Outcome.next ((ioCmd_of_serves serves _).trans ((if_neg (Nat.not_lt.mpr few)).trans
    ((blockCmd_of_reaches reaches _).trans ((writeCmd_of_accepts accepts slba _).trans ?_))))
  dsimp only
  split
  · rfl
  next found => exact absurd (none.symm.trans found) nofun

/-- A Write Zeroes of an accepted range succeeds, and every block of the range reads as zeros. -/
theorem writeZeroes_reads_zero {nsid slba nlb : Nat} {deac fua : Bool} (h8 : s.slices.length = 8) (serves : Serves s h nsid x .block)
    (few : nlb ≤ 65536) (reaches : Reaches s h x slba nlb) (writable : s.readOnlyNs x = false)
    (room : s.mayWrite h x fua (edgeLbas s x slba nlb) = true) (up : ∀ k, k < nlb → s.nsUp x (x.route (slba + k)).1 = true) :
    Completes (.writeZeroes h nsid slba nlb deac fua) s fun t =>
      Sys2Proof.Written t h ∧ ∀ k, k < nlb → t.readLba x (slba + k) = .ok 0 := by
  have all : ∀ l ∈ spanLbas slba nlb, s.nsUp x (x.route l).1 = true := fun l hl => by
    obtain ⟨k, hk, rfl⟩ := List.mem_map.mp hl
    exact up k (List.mem_range.mp hk)
  have kept : KeepsZeros x s (spanCleared s x slba nlb) := keepsZeros_cleared s x _ (.inl rfl)
  have record : ((spanCleared s x slba nlb).inFlight h).isSome = true :=
    ((sameRecords_cleared s x _ _).isSome h).trans (inFlight_isSome_of_runnable serves.1)
  have edges : ∀ q ∈ (edgeLbas s x slba nlb).map fun l => (l, (0 : Block)), (spanCleared s x slba nlb).nsUp x (x.route q.1).1 = true := by
    intro q hq
    obtain ⟨l, hl, rfl⟩ := List.mem_map.mp hq
    exact (kept.serves.nsUp x _).trans (all l (List.mem_filter.mp hl).1)
  have zeros : ∀ q ∈ (edgeLbas s x slba nlb).map fun l => (l, (0 : Block)), q.2 = 0 := by
    intro q hq
    obtain ⟨l, -, rfl⟩ := List.mem_map.mp hq
    rfl
  obtain ⟨keeps, reads⟩ := writeOut_zero (h := h) zeros (kept.length.trans h8) edges fua
  refine ⟨_, exec_writeZeroes serves few reaches ⟨writable, room, fun l hl => all l (List.mem_filter.mp hl).1⟩ all,
    written_writeOut_all record edges fua, fun k hk => ?_⟩
  have here : slba + k ∈ spanLbas slba nlb := List.mem_map.mpr ⟨k, List.mem_range.mpr hk, rfl⟩
  by_cases whole : s.unitCovered x (slba + k) (inSpan slba nlb) = true
  · exact (keeps.reads (readsZero_covered (.inl rfl) h8 (up k hk) whole fun j => mem_spanLbas.mpr)).readLba
  · have edge : slba + k ∈ edgeLbas s x slba nlb := List.mem_filter.mpr ⟨here, by simpa using whole⟩
    exact (reads (slba + k, 0) (List.mem_map.mpr ⟨_, edge, rfl⟩)).readLba

/-! ### Dataset Management (R48, R134) -/

/-- Is a block in one of some ranges? -/
def inRanges (ranges : List (Nat × Nat)) (l : Nat) : Bool := ranges.any fun r => decide (r.1 ≤ l) && decide (l < r.1 + r.2)

/-- The blocks of some ranges, each once. -/
def rangeLbas (ranges : List (Nat × Nat)) : List Nat := (ranges.flatMap fun r => (List.range r.2).map fun k => r.1 + k).eraseDups

theorem mem_rangeLbas {ranges : List (Nat × Nat)} : l ∈ rangeLbas ranges ↔ ∃ r ∈ ranges, ∃ k, k < r.2 ∧ r.1 + k = l := by
  simp [rangeLbas]

theorem mem_rangeLbas_of_inRanges {ranges : List (Nat × Nat)} (inside : inRanges ranges l = true) : l ∈ rangeLbas ranges := by
  obtain ⟨r, hr, within⟩ := List.any_eq_true.mp inside
  simp only [Bool.and_eq_true, decide_eq_true_eq] at within
  exact mem_rangeLbas.mpr ⟨r, hr, l - r.1, by omega, by omega⟩

/-- A package whose units that some ranges cover wholly are cleared. -/
def rangesCleared (s : State) (x : Namespace) (ranges : List (Nat × Nat)) : State :=
  cleared x .unmapped s (s.wholeUnits x (rangeLbas ranges) (inRanges ranges))

theorem blockCmd_of_within {ranges : List (Nat × Nat)} (within : ∀ r ∈ ranges, r.1 + r.2 ≤ x.size)
    (first : s.behind h (ranges.map fun r => (x.nsid, r.1, r.2)) = false) (f : State → State) : s.blockCmd h x ranges f = f s := by
  refine (if_neg ?_).trans (if_neg (Bool.eq_false_iff.mp first))
  simpa using within

/-- Without Deallocate, or on a read-only namespace, Dataset Management only completes. -/
theorem exec_datasetManagement_hint {nsid : Nat} {ad : Bool} {ranges : List (Nat × Nat)} (serves : Serves s h nsid x .block)
    (within : ∀ r ∈ ranges, r.1 + r.2 ≤ x.size) (first : s.behind h (ranges.map fun r => (x.nsid, r.1, r.2)) = false)
    (hint : (!ad || (s.dataIn h (16 * ranges.length)).readOnlyNs x) = true) :
    exec (.datasetManagement h nsid ad ranges) s = .next ((s.dataIn h (16 * ranges.length)).finish h (ansSt stOk)) :=
  congrArg Host.Outcome.next ((ioCmd_of_serves serves _).trans ((blockCmd_of_within within first _).trans (if_pos hint)))

theorem exec_datasetManagement_deallocate {nsid : Nat} {ad : Bool} {ranges : List (Nat × Nat)} (serves : Serves s h nsid x .block)
    (within : ∀ r ∈ ranges, r.1 + r.2 ≤ x.size) (first : s.behind h (ranges.map fun r => (x.nsid, r.1, r.2)) = false)
    (up : ∀ r ∈ ranges, ∀ k, k < r.2 → s.nsUp x (x.route (r.1 + k)).1 = true)
    (acts : ¬ (!ad || (s.dataIn h (16 * ranges.length)).readOnlyNs x) = true) :
    exec (.datasetManagement h nsid ad ranges) s =
      .next ((rangesCleared (s.dataIn h (16 * ranges.length)) x ranges).finish h (ansSt stOk)) := by
  have kept : KeepsZeros x s (rangesCleared (s.dataIn h (16 * ranges.length)) x ranges) :=
    (keepsZeros_dataIn s h _).trans (keepsZeros_cleared _ x _ (.inr rfl))
  have none : ((rangeLbas ranges).filter fun l => !(rangesCleared (s.dataIn h (16 * ranges.length)) x ranges).nsUp x
      ((rangesCleared (s.dataIn h (16 * ranges.length)) x ranges).place x l).1) = [] := by
    refine List.filter_eq_nil_iff.mpr fun l hl => ?_
    obtain ⟨r, hr, k, hk, rfl⟩ := mem_rangeLbas.mp hl
    have serves := (kept.serves.nsUp x (x.route (r.1 + k)).1).trans (up r hr k hk)
    simpa [State.place] using serves
  refine congrArg Host.Outcome.next ((ioCmd_of_serves serves _).trans ((blockCmd_of_within within first _).trans ((if_neg acts).trans ?_)))
  dsimp only
  split
  · rfl
  next found => exact absurd (none.symm.trans found) nofun

end Sys2Proof.Proofs
end

section
/-!
What Flush marks and waits for (R57, R108, R384), and the obligation on Write Zeroes, Dataset Management and Flush.
-/

namespace Sys2Proof.Proofs

open Sys2Proof.Machine Sys2Proof.Laws

variable {s t u : State} {x : Namespace} {h : Hdr} {y : InFlight} {n : Nat} {v : Version}

/-! ### Dataset Management completes (R48, R63, R134, R135) -/

theorem datasetManagement_completes {nsid : Nat} {ad : Bool} {ranges : List (Nat × Nat)} (h8 : s.slices.length = 8)
    (serves : Serves s h nsid x .block) (within : ∀ r ∈ ranges, r.1 + r.2 ≤ x.size)
    (first : s.behind h (ranges.map fun r => (x.nsid, r.1, r.2)) = false)
    (up : ∀ r ∈ ranges, ∀ k, k < r.2 → s.nsUp x (x.route (r.1 + k)).1 = true) :
    Completes (.datasetManagement h nsid ad ranges) s fun t => Answered t h (ansSt stOk) ∧
      (ad = false → t.slices = s.slices ∧ t.nvm = s.nvm) ∧
      (ad = true → s.readOnlyNs x = false → ∀ l, (∃ r ∈ ranges, r.1 ≤ l ∧ l < r.1 + r.2) →
        s.unitCovered x l (inRanges ranges) = true → t.readLba x l = .ok 0) := by
  have fr : Frame 0xf00004 s (s.dataIn h (16 * ranges.length)) := dataIn_frame s h _ (Frame.refl _ s) rfl
  have moved : KeepsZeros x s (s.dataIn h (16 * ranges.length)) := keepsZeros_dataIn s h _
  have record : ((s.dataIn h (16 * ranges.length)).inFlight h).isSome = true := by
    rw [(dataIn_alike s h _).2]
    exact inFlight_isSome_of_runnable serves.1
  by_cases hint : (!ad || (s.dataIn h (16 * ranges.length)).readOnlyNs x) = true
  · refine ⟨_, exec_datasetManagement_hint serves within first hint, answered_finish record _, fun _ => ⟨fr.same .slices rfl, fr.same .nvm rfl⟩,
      fun deallocate writable => ?_⟩
    have locked : s.readOnlyNs x = true := by
      subst deallocate
      simpa only [State.readOnlyNs, slice_congr (fr.same .slices rfl), Bool.not_true, Bool.false_or] using hint
    exact absurd (locked.symm.trans writable) nofun
  · refine ⟨_, exec_datasetManagement_deallocate serves within first up hint, answered_finish ?_ _, fun off => ?_, fun _ _ l inside covered => ?_⟩
    · exact ((sameRecords_cleared _ x _ _).isSome h).trans record
    · subst off
      exact absurd rfl hint
    · obtain ⟨r, hr, low, high⟩ := inside
      have here : s.nsUp x (x.route l).1 = true := by
        have := up r hr (l - r.1) (by omega)
        rwa [Nat.add_sub_cancel' low] at this
      have whole : (s.dataIn h (16 * ranges.length)).unitCovered x l (inRanges ranges) = true := by
        rwa [State.unitCovered, moved.units, place_of_mu moved.units]
      have reads : ReadsZero (rangesCleared (s.dataIn h (16 * ranges.length)) x ranges) x l :=
        readsZero_covered (.inr rfl) (moved.length.trans h8) ((moved.serves.nsUp x _).trans here) whole fun j => mem_rangeLbas_of_inRanges
      exact ((keepsZeros_of_frame (finish_frame _ h (ansSt stOk) (Frame.refl 0x300 _) rfl)).reads reads).readLba

/-! ### Versions marked for programming (R57, R108) -/

/-- A version marked for programming. -/
def marked (v : Version) : Version := { v with trigger := true }

/-- A version of a slice marked, by the slice's number and its own. -/
def markVersion (s : State) (p : Nat × Nat) : State := s.modSlice p.1 fun y => y.modVersion p.2 marked

theorem lt_of_mem_versions (hv : v ∈ (s.slice n).versions) : n < s.slices.length := by
  by_contra out
  rw [State.slice, List.getElem?_eq_none (Nat.le_of_not_lt out)] at hv
  exact absurd hv List.not_mem_nil

theorem mem_markVersion (hv : v ∈ (s.slice n).versions) (p : Nat × Nat) :
    (if p = (n, v.wslot) then marked v else v) ∈ ((markVersion s p).slice n).versions := by
  by_cases own : p.1 = n
  · subst own
    rw [markVersion, slice_modSlice_self _ (lt_of_mem_versions hv)]
    refine List.mem_map.mpr ⟨v, hv, ?_⟩
    by_cases same : v.wslot = p.2
    · rw [if_pos same, if_pos (by rw [same])]
    · rw [if_neg same, if_neg fun e => same (congrArg Prod.snd e).symm]
  · rw [markVersion, slice_modSlice_of_ne s _ (Ne.symm own), if_neg fun e => own (congrArg Prod.fst e)]
    exact hv

theorem marked_mem_markVersion (hv : marked v ∈ (s.slice n).versions) (p : Nat × Nat) : marked v ∈ ((markVersion s p).slice n).versions := by
  have := mem_markVersion hv p
  rwa [show marked (marked v) = marked v from rfl, ite_self] at this

/-- Every version that a list of marks names is marked, once or more. -/
theorem marked_mem_foldl {m : List (Nat × Nat)} (named : (n, v.wslot) ∈ m) (hv : v ∈ (s.slice n).versions) :
    marked v ∈ ((m.foldl markVersion s).slice n).versions := by
  have kept : ∀ (m : List (Nat × Nat)) (u : State), marked v ∈ (u.slice n).versions → marked v ∈ ((m.foldl markVersion u).slice n).versions := by
    intro m
    induction m with
    | nil => exact fun _ hv => hv
    | cons p m ih => exact fun u hv => ih _ (marked_mem_markVersion hv p)
  induction m generalizing s with
  | nil => exact absurd named List.not_mem_nil
  | cons p m ih =>
    have next := mem_markVersion hv p
    by_cases here : p = (n, v.wslot)
    · rw [if_pos here] at next
      exact kept m _ next
    · rw [if_neg here] at next
      exact ih ((List.mem_cons.mp named).resolve_left (Ne.symm here)) next

/-! ### Flush (R57) -/

theorem mem_flushSlots {nsids : List Nat} {w : Nat} :
    (n, w) ∈ s.flushSlots nsids y.fetchedAt ↔ ∃ v, FlushCovers s nsids y n v ∧ v.wslot = w := by
  have acked : ∀ v : Version, (v.ackAt.any fun a => decide (a < y.fetchedAt)) = true ↔ ∃ a, v.ackAt = some a ∧ a < y.fetchedAt := by
    simp [Option.any_eq_true]
  have covers : ∀ v : Version, FlushCovers s nsids y n v ↔ n < s.part.slices ∧ v ∈ (s.slice n).versions ∧
      (nsids.contains v.nsid && v.ackAt.any (fun a => decide (a < y.fetchedAt)) && !v.acked.isEmpty) = true := fun v => by
    simp only [FlushCovers, State.hasSlice, decide_eq_true_eq, Bool.and_eq_true, acked, List.contains_iff_mem, Bool.not_eq_true', List.isEmpty_eq_false_iff]
    tauto
  simp only [State.flushSlots, State.sliceList, List.mem_flatMap, List.mem_range, List.mem_map, List.mem_filter, Prod.mk.injEq, covers]
  constructor
  · rintro ⟨i, hi, v, ⟨hv, c⟩, rfl, rfl⟩
    exact ⟨v, ⟨hi, hv, c⟩, rfl⟩
  · rintro ⟨v, ⟨hi, hv, c⟩, rfl⟩
    exact ⟨n, hi, v, ⟨hv, c⟩, rfl, rfl⟩

theorem flushOf_eq (found : s.inFlight h = some y) (nsids : List Nat) :
    s.flushOf h nsids = ((s.flushSlots nsids y.fetchedAt).foldl markVersion s).answer h (ansSt stOk)
      ((s.flushSlots nsids y.fetchedAt).map fun p => Cond.programmed p.1 p.2) := by
  unfold State.flushOf
  rw [found]
  rfl

/-- A Flush marks what it covers, and waits for exactly that. -/
theorem flushes_flushOf (found : s.inFlight h = some y) (nsids : List Nat) : Flushes s (s.flushOf h nsids) h nsids y := by
  have same : ∀ m : List (Nat × Nat), SameRecords s (m.foldl markVersion s) := fun m =>
    sameRecords_foldl markVersion (fun _ _ => sameRecords_of_inflight rfl) m s
  have record : (((s.flushSlots nsids y.fetchedAt).foldl markVersion s).inFlight h).isSome = true := by
    rw [(same _).isSome, found]
    rfl
  rw [flushOf_eq found]
  refine ⟨⟨_, standing_answer record _ _, fun c => ?_⟩, fun n v covers => marked_mem_foldl (mem_flushSlots.mpr ⟨v, covers, rfl⟩) covers.2.1⟩
  constructor
  · intro hc
    obtain ⟨⟨n, w⟩, hp, rfl⟩ := List.mem_map.mp hc
    obtain ⟨v, covers, rfl⟩ := mem_flushSlots.mp hp
    exact ⟨n, v, covers, rfl⟩
  · rintro ⟨n, v, covers, rfl⟩
    exact List.mem_map.mpr ⟨(n, v.wslot), mem_flushSlots.mpr ⟨v, covers, rfl⟩, rfl⟩

theorem completes_flush {nsid : Nat} {nsids : List Nat} (e : exec (.flush h nsid) s = .next (s.flushOf h nsids)) (found : s.inFlight h = some y) :
    Completes (.flush h nsid) s fun t => Flushes s t h nsids y ∧ OnlyChanges [.inflight, .slices] s t :=
  ⟨_, e, flushes_flushOf found nsids, commandsChangeOnlyTheirFootprint _ s _ e⟩

/-- A Flush of a namespace covers it, unless it is local and a slice of it does not serve. -/
theorem exec_flush {nsid : Nat} {kind : NsKind} (one : nsid ≠ 0xFFFFFFFF) (serves : Serves s h nsid x kind) :
    exec (.flush h nsid) s = .next
      (if x.desc.placement = 0 ∧ x.parts.any (fun p => !s.nsUp x p.slice) then s.finish h (ansAt stOffline nsid 0) else s.flushOf h [nsid]) := by
  obtain ⟨runnable, attached, -⟩ := serves
  refine congrArg Host.Outcome.next ((run_of_runnable runnable _).trans ((if_neg one).trans ?_))
  rw [attached]

theorem exec_flush_all (runnable : s.runnable h = true) :
    exec (.flush h 0xFFFFFFFF) s = .next (s.flushOf h ((s.namespaces.filter fun x => x.attached h.ctrl).map Namespace.nsid)) :=
  congrArg Host.Outcome.next ((run_of_runnable runnable _).trans (if_pos rfl))

/-- Settles O20: units cleared read as zeros, Write Zeroes and Dataset Management reach every unit that they cover, and a Flush waits for
what it marks. -/
theorem zeroesDeallocateAndFlush : Obligations.ZeroesDeallocateAndFlush := by
  refine ⟨fun s x l k e he h8 up slice index low high => ?_, fun h nsid slba nlb deac fua s x h8 serves few reaches writable room up => ?_,
    fun h nsid ad ranges s x h8 serves within first up => ?_, fun h nsid s x y one found serves up => ?_, fun h s y found runnable => ?_,
    fun h nsid s x p one serves near hp down => ?_⟩
  · have reads := readsZero_clearUnit he h8 up slice index low high
    exact ⟨reads.readLba, reads.sound⟩
  · exact writeZeroes_reads_zero h8 serves few reaches writable room up
  · exact datasetManagement_completes h8 serves within first up
  · refine completes_flush ((exec_flush one serves).trans (congrArg Host.Outcome.next (if_neg ?_))) found
    rintro ⟨near, off⟩
    obtain ⟨p, hp, down⟩ := List.any_eq_true.mp off
    rw [up near p hp] at down
    exact absurd down nofun
  · exact completes_flush (exec_flush_all runnable) found
  · refine completes_finished ((exec_flush one serves).trans (congrArg Host.Outcome.next (if_pos ⟨near, ?_⟩)))
      (inFlight_isSome_of_runnable serves.1)
    exact List.any_eq_true.mpr ⟨p, hp, by rw [down]; rfl⟩

end Sys2Proof.Proofs
end

section
/-!
Actions on tenants (R74, R77, R79, R82, R83, R93, R364, R419): the gate that each action passes, divisions that wait for their bond period
boundary and take effect there, and the removal of a source that is not saved.
-/

namespace Sys2Proof.Proofs

open Sys2Proof.Machine Sys2Proof.Laws

variable {s t : State} {h : Hdr} {x y : Tenant} {ti : Nat} {d : TenantDesc}

/-! ### Tenants by their number (R74) -/

theorem toNat_tenantNo (small : ti < 256) : (ti : BitVec 8).toNat = ti := Nat.mod_eq_of_lt small

theorem tenant_congr (e : t.tenants = s.tenants) (k : Nat) : t.tenant k = s.tenant k := by
  rw [State.tenant, State.tenant, e]

theorem tenant_ti (found : s.tenant ti = some x) : x.ti = ti := by
  simpa using List.find?_some found

theorem tiState_of_tenant (found : s.tenant ti = some x) : s.tiState ti = x.state := by
  rw [State.tiState, found]
  rfl

/-- Every tenant changed: a number keeps its tenant, as changed. -/
theorem tenant_mapTenants {f : Tenant → Tenant} (number : ∀ z, (f z).ti = z.ti) (s : State) (k : Nat) :
    (s.mapTenants f).tenant k = (s.tenant k).map f := by
  rw [State.tenant, State.tenant, recGet, recGet, mapTenants_tenants, List.find?_map]
  exact congrArg (fun p => (s.tenants.find? p).map f) (funext fun z => congrArg (· == k) (number z))

/-- A tenant replaced by another of its number. -/
theorem tenant_modTenant_replaced (found : s.tenant ti = some x) (number : y.ti = ti) : (s.modTenant ti fun _ => y).tenant ti = some y := by
  have e : (s.modTenant ti fun _ => y) = s.modTenant ti fun z => { y with ti := z.ti } := by
    unfold State.modTenant recMod
    congr 1
    refine List.map_congr_left fun z _ => ?_
    split
    · next same =>
      show y = { y with ti := z.ti }
      rw [same, ← number]
    · rfl
  rw [e]
  refine (tenant_modTenant s ti ti (fun z => { y with ti := z.ti }) fun _ => rfl).trans ?_
  rw [found, Option.map_some, if_pos rfl, tenant_ti found, ← number]

/-! ### The gate of an action (R74, R364, R419) -/

/-- An action is carried out once no reset of the tenant's functions is in progress and the tenant's state allows it. -/
theorem tmAct_of_allowed {ok : TiState → Option Nat} (turn : ItsTurn s h) (still : s.flrOf ti = false) (allowed : ok (s.tiState ti) = none)
    (f : State → State) : s.tmAct h ti ok f = f s := by
  rw [State.tmAct, serial_of_turn turn, still, allowed]
  rfl

theorem answered_failTm (record : (s.inFlight h).isSome = true) (k : Nat) : Answered (s.failTm h k) h (ansReason (reasonSt k) k) :=
  answered_finish record _

/-- A command that was given an answer is not answered with another one. -/
theorem not_answered_answer {a b : Answer} (other : a ≠ b) (cs : List Cond) : ¬Answered (s.answer h a cs) h b := fun answered => by
  unfold Answered standing State.answer at answered
  rw [inFlight_modIn_self s h (fun z => { z with phase := .dispatched, answer := a, conds := cs }) fun _ => rfl, Option.map_map] at answered
  obtain ⟨z, -, e⟩ := Option.map_eq_some_iff.mp answered
  exact other (congrArg (fun p : Phase × Answer × List Cond => p.2.1) e)

/-! ### Divisions wait for their boundary (R79) -/

/-- A division that is accepted waits for its boundary, unless it commits the banks while a commit is pending. -/
theorem waitsForBoundary_deferAct (record : (s.inFlight h).isSome = true) (act : TenantAct) (commits : Bool) :
    WaitsForBoundary s (s.deferAct h act commits) h act commits := by
  unfold WaitsForBoundary State.deferAct
  by_cases refused : commits = true ∧ s.bit Adr.ckCommitSts 7 = true
  · rw [if_pos refused, if_pos (by simpa using refused)]
    exact ⟨answered_failTm (s := s.setBit Adr.ckCommitSts 6) record tmBond, rfl, bit_setBit_self s _ 6 (by decide)⟩
  · rw [if_neg refused, if_neg (by simpa using refused)]
    cases commits with
    | false => exact ⟨standing_answer (s := { s with deferred := _ }) record _ _, rfl, rfl, fun commits => absurd commits nofun⟩
    | true =>
      have idle : s.bit Adr.ckCommitSts 7 = false := by simpa using refused
      dsimp only
      rw [if_pos rfl, if_pos rfl, if_pos rfl, requestCommit_of_idle idle]
      exact ⟨standing_answer (s := { s with deferred := _ }) record _ _, rfl, rfl, fun _ => ⟨bit_setBit_self s _ 7 (by decide), rfl⟩⟩

theorem exec_create {m : Bool} (turn : ItsTurn s h) (small : ti < 256) (absent : s.tiState ti = .absent) (still : s.flrOf ti = false)
    (fits : s.divisionFails d allFields none (tenantOf ti m d) (s.floorSlices ti) = none) :
    exec (.create h ti m d) s = .next (s.deferAct h (.create ti m d) (d.flags.testBit 0)) := by
  show execCreate h ti m d s = _
  rw [execCreate, toNat_tenantNo small, tmAct_of_allowed turn still (by rw [absent]), fits]

theorem exec_resize (turn : ItsTurn s h) (small : ti < 256) (found : s.tenant ti = some x) (thawed : x.state ≠ .frozen)
    (present : x.state ≠ .absent) (still : s.flrOf ti = false)
    (fits : s.divisionFails d d.valid (some x) (x.give d d.valid) (s.floorSlices ti) = none) :
    exec (.resize h ti d) s = .next (s.deferAct h (.resize ti d) (d.flags.testBit 0)) := by
  show execResize h ti d s = _
  rw [execResize, toNat_tenantNo small, tmAct_of_allowed turn still]
  · rw [found]
    dsimp only
    rw [fits]
  · rw [tiState_of_tenant found]
    revert thawed present
    cases x.state <;> simp

theorem exec_setMode {m : Bool} (turn : ItsTurn s h) (small : ti < 256) (found : s.tenant ti = some x)
    (quiet : x.state = .offline ∨ x.state = .quiesced) (still : s.flrOf ti = false)
    (complete : m = true → x.lunsets ≠ 0 ∧ ∀ z ∈ s.namespaces, ti ∉ z.attachedTis) :
    exec (.setMode h ti m) s = .next (s.deferAct h (.setMode ti m) true) := by
  show execSetMode h ti m s = _
  rw [execSetMode, toNat_tenantNo small, tmAct_of_allowed turn still]
  · refine congrArg Host.Outcome.next (if_neg ?_)
    cases m with
    | false => exact nofun
    | true =>
      obtain ⟨some_, detached⟩ := complete rfl
      simpa [found, some_] using detached
  · rw [tiState_of_tenant found]
    rcases quiet with e | e <;> rw [e]

/-! ### Divisions take effect (R74, R77, R82, R83) -/

/-- A tenant whose allowance has been judged (R83). -/
def wearJudged (x : Tenant) : Tenant := { x with wearLimited := decide (x.allowance ≤ 0) }

theorem tenant_evalWear (s : State) (k : Nat) : s.evalWear.tenant k = (s.tenant k).map wearJudged := by
  have judged := tenant_mapTenants (f := wearJudged) (fun _ => rfl) s k
  unfold State.evalWear
  dsimp only
  split <;> exact judged

/-- A change of a tenant that is made only where its field is given. -/
def changedIf (b : Bool) (f : Tenant → Tenant) (x : Tenant) : Tenant := if b then f x else x

theorem field_changedIf {α : Type} (g : Tenant → α) (b : Bool) (f : Tenant → Tenant) (x : Tenant) :
    g (changedIf b f x) = if b then g (f x) else g x := apply_ite g ..

theorem give_eq (x : Tenant) (d : TenantDesc) (mask : Nat) : x.give d mask =
    changedIf (mask.testBit 6) (fun t => { t with lunsets := d.lunsets })
    (changedIf (mask.testBit 5) (fun t => { t with wearBurst := d.wearBurst, wearRate := d.wearRate })
    (changedIf (mask.testBit 4) (fun t => { t with keyBase := d.keyBase, keyCount := d.keyCount })
    (changedIf (mask.testBit 3) (fun t => { t with dgMask := d.dgMask })
    (changedIf (mask.testBit 2) (fun t => { t with wiq := d.wiq })
    (changedIf (mask.testBit 1) (fun t => { t with ctxq := d.ctxq })
    (changedIf (mask.testBit 0) (fun t => { t with wbq := d.wbq }) x)))))) := rfl

/-- A tenant has taken from a descriptor the fields that a mask marks (R77). -/
structure Took (mask : Nat) (d : TenantDesc) (x y : Tenant) : Prop where
  ti : y.ti = x.ti
  state : y.state = x.state
  wbq : y.wbq = if mask.testBit 0 then d.wbq else x.wbq
  ctxq : y.ctxq = if mask.testBit 1 then d.ctxq else x.ctxq
  wiq : y.wiq = if mask.testBit 2 then d.wiq else x.wiq
  dgMask : y.dgMask = if mask.testBit 3 then d.dgMask else x.dgMask
  keyBase : y.keyBase = if mask.testBit 4 then d.keyBase else x.keyBase
  keyCount : y.keyCount = if mask.testBit 4 then d.keyCount else x.keyCount
  wearBurst : y.wearBurst = if mask.testBit 5 then d.wearBurst else x.wearBurst
  wearRate : y.wearRate = if mask.testBit 5 then d.wearRate else x.wearRate
  lunsets : y.lunsets = if mask.testBit 6 then d.lunsets else x.lunsets

/-- Each change writes its own fields, so a field is read through the others. -/
theorem took_give (mask : Nat) (d : TenantDesc) (x : Tenant) : Took mask d x (x.give d mask) where
  ti := by simp only [give_eq, field_changedIf Tenant.ti, ite_self]
  state := by simp only [give_eq, field_changedIf Tenant.state, ite_self]
  wbq := by simp only [give_eq, field_changedIf Tenant.wbq, ite_self]
  ctxq := by simp only [give_eq, field_changedIf Tenant.ctxq, ite_self]
  wiq := by simp only [give_eq, field_changedIf Tenant.wiq, ite_self]
  dgMask := by simp only [give_eq, field_changedIf Tenant.dgMask, ite_self]
  keyBase := by simp only [give_eq, field_changedIf Tenant.keyBase, ite_self]
  keyCount := by simp only [give_eq, field_changedIf Tenant.keyCount, ite_self]
  wearBurst := by simp only [give_eq, field_changedIf Tenant.wearBurst, ite_self]
  wearRate := by simp only [give_eq, field_changedIf Tenant.wearRate, ite_self]
  lunsets := by simp only [give_eq, field_changedIf Tenant.lunsets, ite_self]

theorem tenant_applyAct_create (s : State) (ti : Nat) (m : Bool) (d : TenantDesc) :
    (s.applyAct (.create ti m d)).1.tenant ti = some (wearJudged (tenantOf ti m d)) := by
  have put : recGet Tenant.ti (recPut Tenant.ti s.tenants (tenantOf ti m d)) ti = some (tenantOf ti m d) :=
    (recGet_recPut ..).trans (if_pos rfl)
  exact (tenant_evalWear _ ti).trans (congrArg (Option.map wearJudged) put)

theorem tenant_applyAct_setMode (found : s.tenant ti = some x) (m : Bool) :
    (s.applyAct (.setMode ti m)).1.tenant ti = some { x with isSealed := m } := by
  refine (tenant_modTenant s ti ti (fun z => { z with isSealed := m }) fun _ => rfl).trans ?_
  rw [found, Option.map_some, if_pos rfl]

/-- A tenant resized: the marked fields, and an allowance within the burst (R83). -/
def resized (x : Tenant) (d : TenantDesc) : Tenant :=
  { x.give d d.valid with allowance := min (x.give d d.valid).allowance ((x.give d d.valid).wearBurst : Rat) }

theorem applyAct_resize (found : s.tenant ti = some x) (d : TenantDesc) : (s.applyAct (.resize ti d)).1 =
    ((((keysLeft x (resized x d)).foldl State.zeroizeSlot s).modTenant ti fun _ => resized x d).freeGroups
      (lunsLeft x (resized x d))).evalWear := by
  unfold State.applyAct
  dsimp only
  rw [found]
  rfl

theorem tenant_applyAct_resize (found : s.tenant ti = some x) (d : TenantDesc) :
    (s.applyAct (.resize ti d)).1.tenant ti = some (wearJudged (resized x d)) := by
  have number : (resized x d).ti = ti := (took_give d.valid d x).ti.trans (tenant_ti found)
  have emptied : ∀ ks : List Nat, (ks.foldl State.zeroizeSlot s).tenants = s.tenants := fun ks =>
    (Frame.foldl (F := 0x20000010804) ks s (Frame.refl _ s) fun u k fr => zeroizeSlot_frame u k fr rfl).same .tenants rfl
  rw [applyAct_resize found, tenant_evalWear, tenant_congr ((freeGroups_frame _ _ (Frame.refl 0x20004 _) rfl).same .tenants rfl),
    tenant_modTenant_replaced ((tenant_congr (emptied _) ti).trans found) number]
  rfl

/-- Settles O27: each action passes its checks and is deferred; each, applied, makes its tenant. -/
theorem divisionsWaitForTheirBoundary : Obligations.DivisionsWaitForTheirBoundary := by
  refine ⟨fun h ti m d s turn small absent still fits => ?_, fun h ti d s x turn small found thawed present still fits => ?_,
    fun h ti m s x turn small found quiet still complete => ?_, fun ti m d s => ?_, fun ti m s x found => tenant_applyAct_setMode found m,
    fun ti d s x found => ?_⟩
  · exact ⟨_, exec_create turn small absent still fits, waitsForBoundary_deferAct (inFlight_isSome_of_turn turn) _ _⟩
  · exact ⟨_, exec_resize turn small found thawed present still fits, waitsForBoundary_deferAct (inFlight_isSome_of_turn turn) _ _⟩
  · exact ⟨_, exec_setMode turn small found quiet still complete, waitsForBoundary_deferAct (inFlight_isSome_of_turn turn) _ _⟩
  · exact ⟨_, tenant_applyAct_create s ti m d, rfl, rfl, rfl, rfl, rfl, rfl, rfl, rfl, rfl, rfl, rfl, rfl⟩
  · have took := took_give d.valid d x
    exact ⟨_, tenant_applyAct_resize found d, took.state, took.wbq, took.ctxq, took.wiq, took.dgMask, took.keyBase, took.keyCount,
      took.wearBurst, took.wearRate, took.lunsets⟩

/-! ### REMOVE of a migrated source (R74, R93) -/

/-- A tenant in a state that allows REMOVE. -/
def Removable (x : Tenant) : Prop := x.state = .quiesced ∨ x.state = .frozen ∨ x.state = .offline

/-- REMOVE with MIGRATED asks first that the tenant is still saved, then that no SLOT entry names it. -/
theorem exec_remove_migrated (turn : ItsTurn s h) (small : ti < 256) (found : s.tenant ti = some x) (still : s.flrOf ti = false)
    (quiet : Removable x) : exec (.remove h ti true) s = .next
      (if x.saved = false then s.failTm h tmNotSaved
      else if s.slotNames ti = true then s.failTm h tmSlots
      else (x.keySlots.foldl State.zeroizeSlot (s.removeTenant x)).answer h (ansSt stOk) (s.retiringOf x.keySlots)) := by
  show execRemove h ti true s = _
  rw [execRemove, toNat_tenantNo small, tmAct_of_allowed turn still]
  · rw [found]
    dsimp only
    cases x.saved <;> rfl
  · rw [tiState_of_tenant found]
    rcases quiet with e | e | e <;> rw [e] <;> rfl

/-- Settles O30: the failure where SAVED is 0, and another answer wherever it is 1. -/
theorem removingAnUnsavedSourceFails : Obligations.RemovingAnUnsavedSourceFails := by
  intro h ti s x turn small found still quiet
  refine ⟨_, exec_remove_migrated turn small found still quiet, ?_⟩
  cases x.saved with
  | false => exact ⟨answered_failTm (inFlight_isSome_of_turn turn) tmNotSaved, onlyChanges_finish s h _⟩
  | true =>
    show ¬Answered _ h _
    rw [if_neg (by decide)]
    split
    · exact not_answered_answer (by decide) []
    · exact not_answered_answer (by decide) _

end Sys2Proof.Proofs
end

section
/-!
The event recorder (R83, R362, R368, R369, R372 to R374): what a write of it leaves, what a sample does to its series, and the end of a freeze.
-/

namespace Sys2Proof.Proofs

open Sys2Proof.Machine Sys2Proof.Laws

variable {s t u : State} {x : Series}

/-! ### The notice ring (R372, R373) -/

theorem length_mergeNotice (n : Notice) (l : List Notice) : (mergeNotice n l).2.length = l.length := by
  induction l with
  | nil => rfl
  | cons m l ih =>
    unfold mergeNotice
    split
    · rfl
    · exact congrArg (· + 1) ih

theorem length_ringAdd_le {ring : List Notice} (fits : ring.length ≤ 24576) (new : List Notice) : (ringAdd ring new).length ≤ 24576 := by
  unfold ringAdd
  split
  · exact fits
  · rw [List.length_drop]
    omega

/-- Writing the waiting notices never grows the ring beyond its 192 pages. -/
theorem notices_flushNotices_le (fits : s.nvm.notices.length ≤ 24576) : s.flushNotices.nvm.notices.length ≤ 24576 := by
  unfold State.flushNotices
  dsimp only
  refine List.foldlRecOn (motive := fun t : State => t.nvm.notices.length ≤ 24576) _ _ (length_ringAdd_le fits _) fun t ht n _ => ?_
  split
  · exact (List.length_reverse.trans ((length_mergeNotice n _).trans List.length_reverse)).trans_le ht
  · exact ht

/-- Of the recorder, writing the notices empties the list of those that wait, and may count dropped ones. -/
theorem flushNotices_recorder (s : State) : ∃ k, s.flushNotices.recorder = { s.recorder with toWrite := [], dropped := k } := by
  unfold State.flushNotices
  dsimp only
  refine List.foldlRecOn (motive := fun t : State => ∃ k, t.recorder = { s.recorder with toWrite := [], dropped := k }) _ _ ⟨_, rfl⟩
    fun t ⟨k, ht⟩ n _ => ?_
  split
  · exact ⟨k, ht⟩
  · exact ⟨_, congrArg (fun r : Recorder => { r with dropped := min (2 ^ 64 - 1) (r.dropped + 1) }) ht⟩

/-! ### The recorder written (R368, R372, R373) -/

/-- The sequence number of the next image. -/
def nextSeq (s : State) : Nat := (s.nvm.image.map RecImage.seq).getD 0 + 1

theorem nextSeq_flushNotices (s : State) : nextSeq s.flushNotices = nextSeq s := by
  obtain ⟨l, e⟩ := flushNotices_nvm s
  rw [nextSeq, nextSeq, e]

/-- The image that is written is one higher in sequence, and EV_IMAGE_SEQ says so. -/
theorem writeRecorder_image (s : State) : s.writeRecorder.nvm.image.map RecImage.seq = some (nextSeq s) ∧
    s.writeRecorder.rd Adr.evImageSeq = BitVec.ofNat 32 (nextSeq s) := by
  rw [← nextSeq_flushNotices]
  exact ⟨rfl, rd_wr_self _ _ _⟩

theorem notices_writeRecorder_le (fits : s.nvm.notices.length ≤ 24576) : s.writeRecorder.nvm.notices.length ≤ 24576 :=
  notices_flushNotices_le fits

theorem writeRecorder_recorder (s : State) : ∃ k, s.writeRecorder.recorder = { s.recorder with toWrite := [], dropped := k } :=
  flushNotices_recorder s

theorem rd_writeRecorder_of_ne {a : Nat} (s : State) (other : a ≠ Adr.evImageSeq) : s.writeRecorder.rd a = s.rd a :=
  (rd_wr_of_ne _ _ other).trans (rd_of_frame (F := 0x120000000000)
    (modNvm_frame _ _ (flushNotices_frame s (Frame.refl _ s) rfl) rfl) rfl rfl)

/-! ### The minute boundary (R83, R362, R372, R374) -/

/-- A minute counted, and the allowances stored. -/
def minuteCounted (s : State) : State := (s.modNvm fun v => { v with minutes := v.minutes + 1 }).storeWear

theorem minuteCounted_frame {F : Nat} (s : State) (m : 0x20000000000 ||| F = F) : Frame F s (minuteCounted s) :=
  storeWear_frame _ (modNvm_frame s _ (Frame.refl F s) m) m

/-- The minute counted, its writing put off until the thaw. -/
def minuteAwaited (s : State) : State := (minuteCounted s).modRec fun r => { r with minuteDue := true }

theorem exec_minuteTick (up : s.held = false) : exec .minuteTick s = .next (if s.frozen then minuteAwaited s else (minuteCounted s).writeRecorder) := by
  show execMinuteTick s = _
  rw [execMinuteTick, up]
  rfl

theorem minuteTick_frozen (up : s.held = false) (frozen : s.frozen = true) : exec .minuteTick s = .next (minuteAwaited s) := by
  rw [exec_minuteTick up, if_pos frozen]

theorem minuteTick_writes (up : s.held = false) (thawed : s.frozen = false) : exec .minuteTick s = .next (minuteCounted s).writeRecorder := by
  rw [exec_minuteTick up, thawed]
  rfl

/-- A minute written: the count and the allowances as counted, the next image, no notice waiting. -/
theorem minute_written (s : State) :
    (minuteCounted s).writeRecorder.nvm.minutes = s.nvm.minutes + 1 ∧
    (minuteCounted s).writeRecorder.nvm.wear = s.tenants.map (fun q => (q.ti, q.allowance)) ∧
    ((minuteCounted s).writeRecorder.nvm.image.map RecImage.seq = some (nextSeq s) ∧
      (minuteCounted s).writeRecorder.rd Adr.evImageSeq = BitVec.ofNat 32 (nextSeq s) ∧ (minuteCounted s).writeRecorder.recorder.toWrite = [] ∧
      (minuteCounted s).writeRecorder.recorder.series = s.recorder.series ∧
      (s.nvm.notices.length ≤ 24576 → (minuteCounted s).writeRecorder.nvm.notices.length ≤ 24576)) ∧
    Frame (partMask [.nvm, .recorder, .regs]) s (minuteCounted s).writeRecorder := by
  obtain ⟨l, p, im, nvm⟩ := writeRecorder_nvm (minuteCounted s)
  obtain ⟨k, recorder⟩ := writeRecorder_recorder (minuteCounted s)
  obtain ⟨image, seq⟩ := writeRecorder_image (minuteCounted s)
  refine ⟨congrArg Nvm.minutes nvm, congrArg Nvm.wear nvm, ⟨image, seq, ?_, ?_, fun fits => notices_writeRecorder_le fits⟩,
    writeRecorder_frame _ (minuteCounted_frame s rfl) rfl⟩
  · rw [recorder]
  · rw [recorder]
    rfl

/-! ### One sample of a series (R369, R373) -/

theorem samples_take (x : Series) (b : Nat) (v : Option Int) (p : Nat × Nat) : (x.take b v p).samples = min (2 ^ 64 - 1) (x.samples + 1) := by
  unfold Series.take
  cases v with
  | none => rfl
  | some v =>
    dsimp only
    split <;> split <;> rfl

theorem bins_take (x : Series) (b : Nat) (v : Option Int) (p : Nat × Nat) :
    (x.take b v p).bins = mapPut x.bins 0 b (min (2 ^ 64 - 1) ((mapGet x.bins b).getD 0 + 1)) := by
  unfold Series.take
  cases v with
  | none => rfl
  | some v =>
    dsimp only
    split <;> split <;> rfl

/-- The count of a bin after a sample. -/
theorem bin_take (x : Series) (b k : Nat) (v : Option Int) (p : Nat × Nat) : (mapGet (x.take b v p).bins k).getD 0 =
    if k = b then min (2 ^ 64 - 1) ((mapGet x.bins b).getD 0 + 1) else (mapGet x.bins k).getD 0 := by
  rw [bins_take]
  exact mapGet_mapPut (fun _ => 0) x.bins b k _

/-! ### A binning period (R26, R369, R374) -/

/-- The periodic samples of a list recorded. -/
def binned (s : State) (l : List (Nat × Int)) : State := l.foldl (fun s p => if s.periodic p.1 then s.record p.1 p.2 else s) s

/-- The samples of a list that go into one series. -/
def samplesOf (s : State) (l : List (Nat × Int)) (id : Nat) : List (Nat × Int) := l.filter fun q => s.periodic q.1 && q.1 == id

/-- Each series takes its own samples, and no other. -/
theorem series_binned (l : List (Nat × Int)) (s : State) (id : Nat) : (binned s l).recorder.series[id]? =
    (s.recorder.series[id]?).map fun x => (samplesOf s l id).foldl (fun x q => x.take (binOf id q.2) (some q.2) s.stamp) x := by
  induction l generalizing s with
  | nil => exact Option.map_id'.symm
  | cons q l ih =>
    have step : binned s (q :: l) = binned (if s.periodic q.1 then s.record q.1 q.2 else s) l := rfl
    rw [step, samplesOf, List.filter_cons]
    cases periodic : s.periodic q.1 with
    | false => exact ih s
    | true =>
      refine (ih (s.record q.1 q.2)).trans ?_
      have taken : (s.record q.1 q.2).recorder.series[id]? =
          if id = q.1 then (s.recorder.series[id]?).map fun x => x.take (binOf q.1 q.2) (some q.2) s.stamp else s.recorder.series[id]? :=
        modAt_get ..
      rw [taken]
      by_cases e : id = q.1
      · subst e
        rw [if_pos rfl, Option.map_map, beq_self_eq_true]
        rfl
      · rw [if_neg e, beq_eq_false_iff_ne.mpr (Ne.symm e)]
        rfl

theorem length_series_binned (l : List (Nat × Int)) (s : State) : (binned s l).recorder.series.length = s.recorder.series.length := by
  induction l generalizing s with
  | nil => rfl
  | cons q l ih =>
    refine (ih _).trans ?_
    dsimp only
    split
    · exact modAt_length ..
    · rfl

theorem onlyChanges_binned (l : List (Nat × Int)) (s : State) : OnlyChanges [.recorder] s (binned s l) :=
  onlyChanges_of_frame (l := [.recorder]) (Frame.foldl l s (Frame.refl _ s) fun u q fr => Frame.ite (record_frame u q.1 q.2 fr rfl) fr)

theorem recorderBinning_idle (l : List (Nat × Int)) (idle : s.held = true ∨ s.course.running = false ∨ s.now % 256 ≠ 0) :
    exec (.recorderBinning l) s = .next s := by
  refine if_pos ?_
  rcases idle with e | e | e <;> simp [e]

theorem exec_recorderBinning (l : List (Nat × Int)) (up : s.held = false) (runs : s.course.running = true) (due : s.now % 256 = 0) :
    exec (.recorderBinning l) s = .next
      (if s.frozen then (s.modRec fun r => { r with missed := r.missed + 1 }).inc Adr.evMissed else binned s l) := by
  refine (if_neg (by simp [up, runs, due])).trans ?_
  cases s.frozen <;> rfl

/-! ### A freeze begins (R374) -/

/-- A thaw at least as long ago as the wait is not within it. -/
theorem not_any_within {o : Option Nat} {now wait : Nat} (old : o.all (fun r => decide (r + wait ≤ now)) = true) :
    (o.any fun r => decide (now < r + wait)) = false := by
  cases o with
  | none => rfl
  | some r => simpa using old

theorem freeze_begins (thawed : s.frozen = false) (old : s.recorder.thawAt.all (fun r => decide (r + coursesOfMs 10000 ≤ s.now)) = true) :
    s.freeze = (s.setBit Adr.evSts 0).modRec fun r => { r with freezeAt := s.now } := by
  rw [State.freeze, thawed, not_any_within old]
  rfl

theorem any_within {o : Option Nat} {r now wait : Nat} (at_ : o = some r) (soon : now < r + wait) :
    (o.any fun r => decide (now < r + wait)) = true := by
  rw [at_]
  exact decide_eq_true soon

theorem freeze_refused {r : Nat} (thawed : s.frozen = false) (at_ : s.recorder.thawAt = some r) (soon : s.now < r + coursesOfMs 10000) :
    s.freeze = s.setBit Adr.evSts 2 := by
  rw [State.freeze, thawed, any_within at_ soon]
  rfl

theorem frozen_setBit_of_ne (s : State) {k : Nat} (other : k ≠ 0) : (s.setBit Adr.evSts k).frozen = s.frozen := by
  rw [State.frozen, State.frozen, bit_setBit, decide_eq_false fun same => other same.2.1.symm, Bool.or_false]

/-! ### A freeze ends (R372, R374) -/

/-- The notice that an event sample may be. -/
def noticeOf : EventSample → Option Notice
  | .notice n => some n
  | .sample _ _ => none

/-- Event samples have been recorded: their notices wait in their order, and the recorder is as unfrozen as before. -/
structure Recorded (l : List EventSample) (s t : State) : Prop where
  sts : t.rd Adr.evSts = s.rd Adr.evSts
  nvm : t.nvm = s.nvm
  queued : t.recorder.queued = s.recorder.queued
  thawAt : t.recorder.thawAt = s.recorder.thawAt
  minuteDue : t.recorder.minuteDue = s.recorder.minuteDue
  toWrite : t.recorder.toWrite = s.recorder.toWrite ++ l.filterMap noticeOf

theorem frozen_congr (e : t.rd Adr.evSts = s.rd Adr.evSts) : t.frozen = s.frozen := by
  rw [State.frozen, State.frozen, State.bit, State.bit, e]

theorem recorded_event (thawed : s.frozen = false) (e : EventSample) : Recorded [e] s (s.event e) := by
  unfold State.event
  rw [thawed]
  cases e with
  | sample id v => exact ⟨rfl, rfl, rfl, rfl, rfl, (List.append_nil _).symm⟩
  | notice n => exact ⟨rd_addF_of_ne _ _ _ _ (by decide), rfl, rfl, rfl, rfl, rfl⟩

theorem Recorded.trans {l m : List EventSample} (a : Recorded l s t) (b : Recorded m t u) : Recorded (l ++ m) s u where
  sts := b.sts.trans a.sts
  nvm := b.nvm.trans a.nvm
  queued := b.queued.trans a.queued
  thawAt := b.thawAt.trans a.thawAt
  minuteDue := b.minuteDue.trans a.minuteDue
  toWrite := by rw [b.toWrite, a.toWrite, List.filterMap_append, List.append_assoc]

theorem recorded_events (l : List EventSample) (thawed : s.frozen = false) : Recorded l s (l.foldl State.event s) := by
  induction l generalizing s with
  | nil => exact ⟨rfl, rfl, rfl, rfl, rfl, (List.append_nil _).symm⟩
  | cons e l ih =>
    have first := recorded_event thawed e
    exact first.trans (ih ((frozen_congr first.sts).trans thawed))

/-- The freeze is over, and its queue taken out. -/
def unfrozen (s : State) : State := (s.clrBit Adr.evSts 0).modRec fun r => { r with queued := [], thawAt := some s.now }

/-- The events that a freeze had queued recorded. -/
def applied (s : State) : State := s.recorder.queued.foldl State.event (unfrozen s)

theorem recorded_applied (s : State) : Recorded s.recorder.queued (unfrozen s) (applied s) :=
  recorded_events _ (bit_clrBit_self s Adr.evSts 0)

theorem thaw_eq (frozen : s.frozen = true) : s.thaw =
    if (applied s).recorder.minuteDue then ((applied s).modRec fun r => { r with minuteDue := false }).writeRecorder else applied s := by
  rw [State.thaw, frozen]
  rfl

theorem thaw_of_thawed (thawed : s.frozen = false) : s.thaw = s := by
  rw [State.thaw, thawed]
  rfl

/-- What the end of a freeze leaves. -/
structure Thawed (s t : State) : Prop where
  sts : t.rd Adr.evSts = (s.clrBit Adr.evSts 0).rd Adr.evSts
  queued : t.recorder.queued = []
  thawAt : t.recorder.thawAt = some s.now
  minuteDue : t.recorder.minuteDue = false
  minute : s.recorder.minuteDue = true → t.nvm.image.map RecImage.seq = some (nextSeq s)
  waits : s.recorder.minuteDue = false → t.nvm = s.nvm ∧ t.recorder.toWrite = s.recorder.toWrite ++ s.recorder.queued.filterMap noticeOf

theorem thawed_thaw (frozen : s.frozen = true) : Thawed s s.thaw := by
  have events := recorded_applied s
  rw [thaw_eq frozen, events.minuteDue]
  cases due : s.recorder.minuteDue with
  | false =>
    rw [if_neg (by simpa [unfrozen] using due)]
    exact ⟨events.sts, events.queued, events.thawAt, events.minuteDue.trans due, fun e => absurd (due.symm.trans e) nofun,
      fun _ => ⟨events.nvm, events.toWrite⟩⟩
  | true =>
    rw [if_pos (by simpa [unfrozen] using due)]
    obtain ⟨k, written⟩ := writeRecorder_recorder ((applied s).modRec fun r => { r with minuteDue := false })
    refine ⟨(rd_writeRecorder_of_ne _ (by decide)).trans events.sts, ?_, ?_, ?_, fun _ => ?_, fun e => absurd (due.symm.trans e) nofun⟩
    · rw [written]
      exact events.queued
    · rw [written]
      exact events.thawAt
    · rw [written]
      rfl
    · rw [(writeRecorder_image _).1, nextSeq, modRec_nvm, events.nvm]
      rfl

theorem Thawed.frozen (thawed : Thawed s t) : t.frozen = false := (frozen_congr thawed.sts).trans (bit_clrBit_self s Adr.evSts 0)

theorem Thawed.autoBit (thawed : Thawed s t) : t.bit Adr.evSts 1 = s.bit Adr.evSts 1 := by
  have kept : (s.clrBit Adr.evSts 0).bit Adr.evSts 1 = s.bit Adr.evSts 1 := by simp [bit_clrBit]
  rw [State.bit, thawed.sts]
  exact kept

theorem exec_recorderAutoThaw (frozen : s.frozen = true) : exec .recorderAutoThaw s = .next (s.thaw.setBit Adr.evSts 1) := by
  show execRecorderAutoThaw s = _
  rw [execRecorderAutoThaw, frozen]
  rfl

/-- A thaw and the automatic one both end the freeze, and differ in the status bit only. -/
theorem thaw_completes {c : Instr} (frozen : s.frozen = true) (thaws : c = .recorderThaw ∨ c = .recorderAutoThaw) :
    Completes c s fun t => t.frozen = false ∧ t.recorder.queued = [] ∧ t.recorder.thawAt = some s.now ∧ t.recorder.minuteDue = false ∧
      OnlyChanges [.recorder, .regs, .nvm] s t ∧ (s.recorder.minuteDue = true → t.nvm.image.map RecImage.seq = some (nextSeq s)) ∧
      (s.recorder.minuteDue = false → t.nvm = s.nvm ∧ t.recorder.toWrite = s.recorder.toWrite ++ s.recorder.queued.filterMap noticeOf) := by
  have thawed := thawed_thaw frozen
  have fr : Frame (partMask [.recorder, .regs, .nvm]) s s.thaw := thaw_frame s (Frame.refl _ s) rfl
  rcases thaws with rfl | rfl
  · exact ⟨s.thaw, rfl, thawed.frozen, thawed.queued, thawed.thawAt, thawed.minuteDue, onlyChanges_of_frame fr, thawed.minute, thawed.waits⟩
  · exact ⟨_, exec_recorderAutoThaw frozen, (frozen_setBit_of_ne _ (by decide)).trans thawed.frozen, thawed.queued, thawed.thawAt,
      thawed.minuteDue, onlyChanges_of_frame (setBit_frame _ _ _ fr rfl), thawed.minute, thawed.waits⟩

/-- Settles O58: the minute boundary, the binning period, a freeze begun or refused, and both ends of a freeze. -/
theorem theRecorderKeepsItsSeries : Obligations.TheRecorderKeepsItsSeries := by
  refine ⟨fun s up => ?_, fun l s idle => recorderBinning_idle l idle, fun l s up runs due => ⟨fun frozen => ?_, fun thawed => ?_⟩,
    fun s thawed => ⟨fun old => ?_, fun r at_ soon => ?_, ?_, ?_⟩, fun s frozen => ⟨?_, fun c thaws => ?_, ?_, ?_⟩⟩
  · cases frozen : s.frozen with
    | false =>
      obtain ⟨minutes, wear, writes, fr⟩ := minute_written s
      exact ⟨_, minuteTick_writes up frozen, minutes, wear, fun _ => writes, fun e => absurd e nofun, onlyChanges_of_frame fr⟩
    | true =>
      have fr : Frame (partMask [.nvm, .recorder]) s (minuteAwaited s) := modRec_frame _ _ (minuteCounted_frame s rfl) rfl
      exact ⟨_, minuteTick_frozen up frozen, rfl, rfl, fun e => absurd e nofun, fun _ => ⟨rfl, rfl, onlyChanges_of_frame fr⟩,
        onlyChanges_of_frame (l := [.nvm, .recorder, .regs]) (Frame.comp (Frame.refl _ s) fr rfl)⟩
  · refine ⟨_, (exec_recorderBinning l up runs due).trans (congrArg _ (if_pos frozen)), rfl, fun a ha => ?_, ?_⟩
    · exact rd_inc_of_ne _ (by simpa using ha)
    · exact onlyChanges_of_frame (l := [.recorder, .regs]) (inc_frame _ _ (modRec_frame s _ (Frame.refl _ s) rfl) rfl)
  · refine ⟨_, (exec_recorderBinning l up runs due).trans (congrArg _ (if_neg (by simp [thawed]))), length_series_binned l s,
      onlyChanges_binned l s, fun id x found => ⟨_, (series_binned l s id).trans (congrArg _ found), fun v only => ?_, fun none => ?_⟩⟩
    · rw [show samplesOf s l id = [(id, v)] from only]
      simp only [List.foldl_cons, List.foldl_nil]
      exact ⟨samples_take x .., fun k other => (bin_take x ..).trans (if_neg other), (bin_take x ..).trans (if_pos rfl)⟩
    · rw [show samplesOf s l id = [] from none]
      rfl
  · refine ⟨_, congrArg Host.Outcome.next (freeze_begins thawed old), bit_setBit_self s Adr.evSts 0 (by decide), rfl, regsBut_setBit s Adr.evSts 0, ?_⟩
    exact onlyChanges_of_frame (l := [.recorder, .regs]) (modRec_frame _ _ (setBit_frame s _ _ (Frame.refl _ s) rfl) rfl)
  · exact ⟨_, congrArg Host.Outcome.next (freeze_refused thawed at_ soon), (frozen_setBit_of_ne s (by decide)).trans thawed,
      bit_setBit_self s Adr.evSts 2 (by decide), rfl, onlyChanges_of_frame (l := [.regs]) (setBit_frame s _ _ (Frame.refl _ s) rfl)⟩
  · exact congrArg Host.Outcome.next (thaw_of_thawed thawed)
  · exact congrArg Host.Outcome.next (if_neg (by simp [thawed]))
  · exact congrArg Host.Outcome.next (if_pos frozen)
  · have notices : noticeOf = fun e => match e with
        | .notice n => some n
        | .sample _ _ => none := rfl
    exact notices ▸ thaw_completes frozen thaws
  · exact ⟨_, rfl, (thawed_thaw frozen).autoBit⟩
  · exact ⟨_, exec_recorderAutoThaw frozen, bit_setBit_self _ Adr.evSts 1 (by decide)⟩

end Sys2Proof.Proofs
end

section
/-!
Migration (R76, R90 to R92, R186): the messages of a session, the blob of a saved tenant, and a tenant restored.
-/

namespace Sys2Proof.Proofs

open Sys2Proof.Machine Sys2Proof.Laws

variable {s t : State} {h : Hdr} {x : Tenant} {n ti : Nat} {g : MigSession} {b : Blob} {d : TenantDesc} {m : List (Nat × Nat)}

/-! ### Sessions by their number (R90) -/

theorem mig_congr (e : t.migs = s.migs) (k : Nat) : t.mig k = s.mig k := by
  rw [State.mig, State.mig, e]

theorem mig_number (found : s.mig n = some g) : g.number = n := by
  simpa using List.find?_some found

theorem mig_putMig (s : State) (number : g.number = n) : (s.putMig g).mig n = some g :=
  (recGet_recPut MigSession.number s.migs g n).trans (if_pos number)

/-- A session that has ended is open no more. -/
theorem mig_endMig (s : State) (n : Nat) : (s.endMig n).mig n = none := by
  have erased : ({ s with migs := recErase MigSession.number s.migs n } : State).mig n = none :=
    (recGet_recErase MigSession.number s.migs n n).trans (if_pos rfl)
  unfold State.endMig
  dsimp only
  rw [mig_congr ?_ n, erased]
  have dropped := dropSessionKeys_frame { s with migs := recErase MigSession.number s.migs n } n (Frame.refl 0x20000000004 _) rfl
  exact (Frame.ite dropped (emptySlot_frame _ _ dropped rfl)).same .migs rfl

/-! ### Key slots written (R184, R418) -/

theorem keySlot_putKey (s : State) (j : Nat) (k : KeySlot) (i : Nat) : (s.putKey j k).keySlot i = if i = j then k else s.keySlot i := by
  rw [State.keySlot, nvm_putKey, mapGet_mapInsert, State.keySlot]
  split <;> rfl

theorem keySlot_emptySlot (s : State) (j : Nat) : ((s.emptySlot j).keySlot j).state = .empty := by
  rw [State.emptySlot, keySlot_putKey, if_pos rfl]

/-! ### Messages (R76, R90) -/

theorem exec_migRecv {a : SpdmMsg} {l : List SpdmMsg} (turn : ItsTurn s h) (free : s.migFree n = true)
    (session : (s.mig n).getD (migOpen n true [.getVersion]) = g) (first : g.outbox = a :: l) :
    exec (.migRecv h n) s = .next ((s.putMig { g with outbox := l }).finish h (ansData (.spdm a))) := by
  show execMigRecv h n s = _
  rw [execMigRecv, serial_of_turn turn, free]
  refine congrArg Host.Outcome.next ((if_neg (by decide)).trans ?_)
  dsimp only
  rw [session, first]

/-- The oldest message leaves its session for the peer. -/
theorem migRecv_completes {a : SpdmMsg} {l : List SpdmMsg} (turn : ItsTurn s h) (free : s.migFree n = true)
    (session : (s.mig n).getD (migOpen n true [.getVersion]) = g) (number : g.number = n) (first : g.outbox = a :: l) :
    Completes (.migRecv h n) s fun t => Answered t h (ansData (.spdm a)) ∧ t.mig n = some { g with outbox := l } ∧
      OnlyChanges [.inflight, .migs] s t :=
  ⟨_, exec_migRecv turn free session first, answered_finish (s := s.putMig _) (inFlight_isSome_of_turn turn) _, mig_putMig s number,
    onlyChanges_of_frame (l := [.inflight, .migs]) (finish_frame _ h _ (putMig_frame s _ (Frame.refl _ s) rfl) rfl)⟩

/-- A message from the peer taken by its session, which it opens as responder where none is open. -/
def migTaken (s : State) (n : Nat) (msg : SpdmMsg) : State :=
  let g := (s.mig n).getD (migOpen n false [])
  if g.requester then s.migTake g msg else s.migServe g msg

theorem migTaken_frame (s : State) (n : Nat) (msg : SpdmMsg) : Frame 0x8020000008004 s (migTaken s n msg) :=
  Frame.ite (migTake_frame s _ msg (Frame.refl _ s) rfl) (migServe_frame s _ msg (Frame.refl _ s) rfl)

theorem exec_migSend (turn : ItsTurn s h) (free : s.migFree n = true) (msg : SpdmMsg) :
    exec (.migSend h n msg) s = .next ((migTaken s n msg).finish h (ansSt stOk)) := by
  show execMigSend h n msg s = _
  rw [execMigSend, serial_of_turn turn, free]
  rfl

theorem record_migTaken (turn : ItsTurn s h) (msg : SpdmMsg) : ((migTaken s n msg).inFlight h).isSome = true := by
  rw [inFlight_congr ((migTaken_frame s n msg).same .inflight rfl)]
  exact inFlight_isSome_of_turn turn

/-- A GET_VERSION opens an unused number as responder, and is answered. -/
theorem migTaken_getVersion (unused : s.mig n = none) :
    migTaken s n .getVersion = s.putMig { migOpen n false [.response 4 none] with progress := 1 } := by
  unfold migTaken
  rw [unused]
  rfl

/-! ### SAVE (R90, R91, R186) -/

/-- What a SAVE draws: a new migration key, an IV, and the length that the spec leaves open. -/
def saveDrawn (s : State) : State := s.random.2.random.2.free.2

/-- The blob that a SAVE returns. -/
def savedBlob (s : State) (x : Tenant) (g : MigSession) : Blob :=
  (saveDrawn s).blobOf x g s.random.1 (s.random.2.random.1.setWidth 96) s.random.2.random.2.free.1

/-- The migration key handed to the peer in the session, and its slot empty again. -/
def keyHanded (s : State) (n : Nat) (g : MigSession) : State :=
  (((saveDrawn s).putMig { g with outbox := g.outbox ++ [.migrationKey s.random.1] }).loadInternal (4121 + n) 3 s.random.1).emptySlot (4121 + n)

/-- The tenant saved, and its blob on its way. -/
def savedState (s : State) (h : Hdr) (ti n : Nat) (g : MigSession) : State :=
  ((keyHanded s n g).modTenant ti fun t => { t with saved := true }).dataOut h 65536

theorem exec_save (turn : ItsTurn s h) (small : ti < 256) (found : s.tenant ti = some x) (still : s.flrOf ti = false)
    (frozen : x.state = .frozen) (session : s.mig n = some g) (established : g.established = true)
    (settled : ∀ p ∈ s.nvm.faultPairs, p.1 ≠ ti) (entropy : s.entropyOk = true) :
    exec (.save h ti n) s = .next ((savedState s h ti n g).finish h (ansData (.blob (savedBlob s x g)))) := by
  show execSave h ti n s = _
  rw [execSave, toNat_tenantNo small, tmAct_of_allowed turn still (by rw [tiState_of_tenant found, frozen])]
  rw [found, session]
  refine congrArg Host.Outcome.next ((if_neg ?_).trans ((if_neg ?_).trans (if_neg ?_)))
  · rw [List.any_eq_true]
    rintro ⟨p, hp, same⟩
    exact settled p hp (beq_iff_eq.mp same)
  · simp [established]
  · simp [entropy]

theorem keyHanded_frame (s : State) (n : Nat) (g : MigSession) : Frame 0x8020000008004 s (keyHanded s n g) :=
  emptySlot_frame _ _ (loadInternal_frame _ _ _ _ (putMig_frame _ _ (free_frame _ (random_frame _ (random_frame s (Frame.refl _ s) rfl) rfl) rfl)
    rfl) rfl) rfl

theorem mig_keyHanded (s : State) (number : g.number = n) :
    (keyHanded s n g).mig n = some { g with outbox := g.outbox ++ [.migrationKey s.random.1] } := by
  have kept := fun u : State => emptySlot_frame _ (4121 + n) (loadInternal_frame u (4121 + n) 3 s.random.1 (Frame.refl 0x20000000004 u) rfl) rfl
  exact (mig_congr ((kept _).same .migs rfl) n).trans (mig_putMig _ number)

/-- From the migration key handed over to the end, only the tenant and the transfer change. -/
theorem savedState_frame (s : State) (h : Hdr) (ti n : Nat) (g : MigSession) : Frame 0xf01004 (keyHanded s n g) (savedState s h ti n g) :=
  dataOut_frame _ h 65536 (modTenant_frame _ ti _ (Frame.refl _ _) rfl) rfl

theorem tenant_savedState (found : s.tenant ti = some x) (h : Hdr) (n : Nat) (g : MigSession) :
    (savedState s h ti n g).tenant ti = some { x with saved := true } := by
  have sent := dataOut_frame ((keyHanded s n g).modTenant ti fun t => { t with saved := true }) h 65536 (Frame.refl 0xf00004 _) rfl
  rw [savedState, tenant_congr (sent.same .tenants rfl), tenant_modTenant _ _ _ (fun t => { t with saved := true }) fun _ => rfl,
    tenant_congr ((keyHanded_frame s n g).same .tenants rfl), found, Option.map_some, if_pos rfl]

theorem save_completes (turn : ItsTurn s h) (small : ti < 256) (found : s.tenant ti = some x) (still : s.flrOf ti = false)
    (frozen : x.state = .frozen) (session : s.mig n = some g) (established : g.established = true)
    (settled : ∀ p ∈ s.nvm.faultPairs, p.1 ≠ ti) (entropy : s.entropyOk = true) :
    Completes (.save h ti n) s fun t => ∃ b : Blob, Answered t h (ansData (.blob b)) ∧ b.srcTi = ti ∧ b.intact = true ∧
      b.srcId = s.nvm.packageId ∧ b.dstId = g.peerId ∧ b.body = x.desc ∧
      (t.mig n).map MigSession.outbox = some (g.outbox ++ [.migrationKey b.sealKey]) ∧
      (t.tenant ti).map Tenant.saved = some true ∧ (t.keySlot (4121 + n)).state = .empty := by
  have last := savedState_frame s h ti n g
  refine ⟨_, exec_save turn small found still frozen session established settled entropy, savedBlob s x g, answered_finish ?_ _,
    tenant_ti found, rfl, rfl, rfl, rfl, ?_, ?_, ?_⟩
  · rw [inFlight_congr (last.same .inflight rfl), inFlight_congr ((keyHanded_frame s n g).same .inflight rfl)]
    exact inFlight_isSome_of_turn turn
  · exact congrArg (Option.map MigSession.outbox) ((mig_congr (last.same .migs rfl) n).trans (mig_keyHanded s (mig_number session)))
  · exact congrArg (Option.map Tenant.saved) (tenant_savedState found h n g)
  · refine (congrArg KeySlot.state (keySlot_congr (congrArg Nvm.keys (last.same .nvm rfl)) (4121 + n))).trans ?_
    rw [keyHanded, keySlot_emptySlot]

/-! ### RESTORE (R92) -/

/-- Why a RESTORE fails, if it does: FLR_ACTIVE, then the state rules, then its own checks. -/
def restoreRefused (s : State) (ti n : Nat) (b : Blob) (d : TenantDesc) (m : List (Nat × Nat)) : Option Nat :=
  if s.flrOf ti then some tmFlr
  else if s.tiState ti ≠ .absent then some tmBadState
  else s.restoreFails n b d m (tenantOf ti b.sealedMode d)

theorem restoreRefused_of_absent (still : s.flrOf ti = false) (absent : s.tiState ti = .absent) :
    restoreRefused s ti n b d m = s.restoreFails n b d m (tenantOf ti b.sealedMode d) := by
  rw [restoreRefused, still, absent]
  rfl

/-- The session that a RESTORE names ended, if it is open. -/
def migEnded (s : State) (n : Nat) : State := if (s.mig n).isSome then s.endMig n else s

theorem mig_migEnded (s : State) (n : Nat) : (migEnded s n).mig n = none := by
  unfold migEnded
  split
  · exact mig_endMig s n
  · next none => exact Option.not_isSome_iff_eq_none.mp none

theorem migEnded_frame (s : State) (n : Nat) : Frame 0x20000008004 s (migEnded s n) :=
  Frame.ite (endMig_frame s n (Frame.refl _ s) rfl) (Frame.refl _ s)

theorem record_migEnded (turn : ItsTurn s h) (n : Nat) : ((migEnded s n).inFlight h).isSome = true := by
  rw [inFlight_congr ((migEnded_frame s n).same .inflight rfl)]
  exact inFlight_isSome_of_turn turn

/-- The keys of a blob as the session's migration key opens them. -/
def blobKeys (s : State) (n : Nat) (b : Blob) : List (Nat × Nat × Key) := (((s.mig n).bind MigSession.key).bind (openKeys b)).getD []

/-- The tenant rebuilt from its blob, and shown. -/
def restored (s : State) (ti n : Nat) (b : Blob) (d : TenantDesc) (m : List (Nat × Nat)) : State :=
  ((migEnded s n).rebuildTenant b (blobKeys s n b) m (tenantOf ti b.sealedMode d)).setBit Adr.fnEvt 0

theorem exec_restore_fails {no : BitVec 8} {k : Nat} (turn : ItsTurn s h) (refused : restoreRefused s no.toNat n b d m = some k) :
    exec (.restore h no n b d m) s = .next ((migEnded s n).failTm h k) := by
  show execRestore h no n b d m s = _
  unfold restoreRefused at refused
  rw [execRestore, serial_of_turn turn]
  dsimp only
  rw [refused]
  rfl

theorem exec_restore_passes {no : BitVec 8} (turn : ItsTurn s h) (passes : restoreRefused s no.toNat n b d m = none) :
    exec (.restore h no n b d m) s = .next ((restored s no.toNat n b d m).finish h (ansSt stOk)) := by
  show execRestore h no n b d m s = _
  unfold restoreRefused at passes
  rw [execRestore, serial_of_turn turn]
  dsimp only
  rw [passes]
  rfl

/-- A tenant as RESTORE makes it: FROZEN, with what is left of its allowance (R83, R92). -/
def frozenFrom (b : Blob) (x : Tenant) : Tenant := { x with state := .frozen, allowance := (min b.allowance x.wearBurst : Nat) }

/-- A tenant listed under its number. -/
def listed (s : State) (x : Tenant) : State := { s with tenants := recPut Tenant.ti s.tenants x }

/-- A tenant listed with its keys, its weights and its namespaces. -/
def seated (s : State) (b : Blob) (keys : List (Nat × Nat × Key)) (m : List (Nat × Nat)) (x : Tenant) : State :=
  let s := (keys.filter fun q => decide (q.1 < x.keyCount)).foldl (fun s q => s.loadKey (x.keyBase + q.1) q.2.1 q.2.2) (listed s x)
  let w (k : Nat) : Word := (b.weights[k]?).getD 0
  let s := ((s.wr (Adr.ckWeightActive x.ti) (w 0)).wr (Adr.ckWeight1Active x.ti) (w 1)).wr (Adr.ckWeightShadow x.ti) (w 0)
  let s := s.wr (Adr.ckWeight1Shadow x.ti) (w 1)
  (m.filterMap fun p => s.ns p.2).foldl (fun s y => s.attachTo y (cntlid 0 (x.ti + 1))) s

theorem rebuildTenant_eq (s : State) (b : Blob) (keys : List (Nat × Nat × Key)) (m : List (Nat × Nat)) (x : Tenant) :
    s.rebuildTenant b keys m x =
      (((seated s b keys m (frozenFrom b x)).restoreCtrls x.ti b).evalReady.nextGen x.ti).evalWear := rfl

theorem seated_frame (s : State) (b : Blob) (keys : List (Nat × Nat × Key)) (m : List (Nat × Nat)) (x : Tenant) :
    Frame 0x20020000020804 (listed s x) (seated s b keys m x) :=
  Frame.foldl _ _ (wr_frame _ _ (wr_frame _ _ (wr_frame _ _ (wr_frame _ _
    (Frame.foldl _ _ (Frame.refl _ _) fun u _ fr => loadKey_frame u _ _ _ fr rfl) rfl) rfl) rfl) rfl)
    fun u y fr => attachTo_frame u y _ fr rfl

/-- A restored tenant's held event requests come after the records that are there. -/
theorem record_restoreCtrls (record : (s.inFlight h).isSome = true) (ti : Nat) (b : Blob) : ((s.restoreCtrls ti b).inFlight h).isSome = true := by
  refine List.foldlRecOn (motive := fun t : State => (t.inFlight h).isSome = true) _ _ record fun t kept c _ => ?_
  rw [State.inFlight] at kept ⊢
  dsimp only [modCtrl_inflight]
  rw [List.find?_append, Option.isSome_or, kept]
  rfl

theorem record_rebuildTenant (record : (s.inFlight h).isSome = true) (b : Blob) (keys : List (Nat × Nat × Key)) (m : List (Nat × Nat)) (x : Tenant) :
    ((s.rebuildTenant b keys m x).inFlight h).isSome = true := by
  have ends := fun u : State => evalWear_frame _ (nextGen_frame _ x.ti (evalReady_frame u (Frame.refl 0x1104 u) rfl) rfl) rfl
  rw [rebuildTenant_eq, inFlight_congr ((ends _).same .inflight rfl)]
  refine record_restoreCtrls ?_ _ _
  rw [inFlight_congr ((seated_frame s b keys m (frozenFrom b x)).same .inflight rfl)]
  exact record

theorem tenant_rebuildTenant (s : State) (b : Blob) (keys : List (Nat × Nat × Key)) (m : List (Nat × Nat)) (x : Tenant) :
    (s.rebuildTenant b keys m x).tenant x.ti = some (wearJudged (frozenFrom b x)) := by
  have ends := fun u : State => nextGen_frame _ x.ti (evalReady_frame _ (restoreCtrls_frame u x.ti b (Frame.refl 0x304 u) rfl) rfl) rfl
  have put : (listed s (frozenFrom b x)).tenant x.ti = some (frozenFrom b x) := (recGet_recPut ..).trans (if_pos rfl)
  rw [rebuildTenant_eq, tenant_evalWear, tenant_congr ((ends _).same .tenants rfl), tenant_congr ((seated_frame s b keys m _).same .tenants rfl),
    put]
  rfl

theorem mig_restored (s : State) (ti n : Nat) (b : Blob) (d : TenantDesc) (m : List (Nat × Nat)) : (restored s ti n b d m).mig n = none := by
  have rebuilt := rebuildTenant_frame (migEnded s n) b (blobKeys s n b) m (tenantOf ti b.sealedMode d) (Frame.refl 0x20020000021b04 _) rfl
  exact (mig_congr (rebuilt.same .migs rfl) n).trans (mig_migEnded s n)

theorem tiState_restored (s : State) (ti n : Nat) (b : Blob) (d : TenantDesc) (m : List (Nat × Nat)) :
    (restored s ti n b d m).tiState ti = .frozen :=
  tiState_of_tenant (tenant_rebuildTenant (migEnded s n) b (blobKeys s n b) m (tenantOf ti b.sealedMode d))

/-- Settles O31: the messages of a session, SAVE, and RESTORE both ways, which ends its session. -/
theorem migrationSavesAndRestores : Obligations.MigrationSavesAndRestores := by
  refine ⟨fun h n s g a l turn free session first => ?_, fun h n s turn free unused => ⟨?_, ?_⟩, fun h n msg s turn free => ?_,
    fun h ti n s x g turn small found still frozen session established settled entropy =>
      save_completes turn small found still frozen session established settled entropy,
    fun h ti n b d m s turn small still absent passes => ?_, fun h ti n b d m s k turn small still absent refused => ?_,
    fun h ti n b d m s turn => ?_⟩
  · exact migRecv_completes turn free (by rw [session]; rfl) (mig_number session) first
  · obtain ⟨t, e, answered, opened, -⟩ := migRecv_completes (g := migOpen n true [.getVersion]) turn free (by rw [unused]; rfl) rfl rfl
    exact ⟨t, e, answered, congrArg (Option.map MigSession.requester) opened⟩
  · have opened : (migTaken s n .getVersion).mig n = some { migOpen n false [.response 4 none] with progress := 1 } := by
      rw [migTaken_getVersion unused]
      exact mig_putMig s rfl
    exact ⟨_, exec_migSend turn free _, answered_finish (record_migTaken turn _) _, congrArg (Option.map MigSession.requester) opened,
      congrArg (Option.map MigSession.outbox) opened⟩
  · have taken := migTaken_frame s n msg
    exact ⟨_, exec_migSend turn free msg, answered_finish (record_migTaken turn msg) _, taken.same .tenants rfl, taken.same .namespaces rfl⟩
  · rw [← restoreRefused_of_absent still absent, ← toNat_tenantNo small] at passes
    refine ⟨_, exec_restore_passes turn passes, answered_finish (record_rebuildTenant (record_migEnded turn n) _ _ _ _) _, ?_,
      mig_restored s _ n b d m⟩
    rw [toNat_tenantNo small]
    exact tiState_restored s ti n b d m
  · rw [← restoreRefused_of_absent still absent, ← toNat_tenantNo small] at refused
    exact ⟨_, exec_restore_fails turn refused, answered_failTm (record_migEnded turn n) k, (migEnded_frame s n).same .tenants rfl, mig_migEnded s n⟩
  · cases refused : restoreRefused s (ti : BitVec 8).toNat n b d m with
    | some k => exact ⟨_, exec_restore_fails turn refused, mig_migEnded s n⟩
    | none => exact ⟨_, exec_restore_passes turn refused, mig_restored s _ n b d m⟩

end Sys2Proof.Proofs
end

section
/-!
SPDM sessions (R90, R316, R320): the sessions by their number, what a request in a session does, and the requests of the migration
transport.
-/

namespace Sys2Proof.Proofs

open Sys2Proof.Machine Sys2Proof.Laws

variable {s t : State} {tr : Transport} {port n need : Nat} {q : SpdmSession} {g : MigSession}

/-! ### Sessions by their number (R320) -/

theorem session_congr (e : t.spdmSessions = s.spdmSessions) (tr : Transport) (k : Nat) : t.session tr k = s.session tr k := by
  rw [State.session, State.session, e]

theorem session_spec (found : s.session tr n = some q) : q.number = n ∧ q.transport = tr := by
  simpa using List.find?_some found

/-- A session listed under its number, in place of the one that it replaces. -/
def sessionPut (s : State) (q : SpdmSession) : State := { s with spdmSessions := recPut SpdmSession.number s.spdmSessions q }

/-- The first record that satisfies a condition is the first that satisfies more, where it does. -/
theorem find?_and {α : Type} {l : List α} {p r : α → Bool} {a : α} (first : l.find? p = some a) (more : r a = true) :
    (l.find? fun x => p x && r x) = some a := by
  induction l with
  | nil => exact first
  | cons b l ih =>
    rw [List.find?_cons] at first ⊢
    cases hp : p b with
    | true =>
      rw [hp] at first
      obtain rfl : b = a := Option.some.inj first
      simp [more]
    | false =>
      rw [hp] at first
      exact ih first

theorem session_sessionPut (s : State) (q : SpdmSession) : (sessionPut s q).session q.transport q.number = some q :=
  find?_and ((recGet_recPut SpdmSession.number s.spdmSessions q q.number).trans (if_pos rfl)) (beq_self_eq_true q.transport)

/-- A free session number is one of the eight, and no session of either transport has it. -/
theorem freeSession_spec (free : s.freeSession = some n) : n < 8 ∧ ∀ tr, s.session tr n = none := by
  obtain ⟨small, unused⟩ := lowestFree_spec free
  obtain ⟨none_, -⟩ := Bool.or_eq_false_iff.mp unused
  refine ⟨small, fun tr => List.find?_eq_none.mpr fun p hp same => ?_⟩
  exact List.any_eq_false.mp none_ p hp (Bool.and_eq_true_iff.mp same).1

/-! ### The keys of a session (R316, R418) -/

/-- A key slot emptied, if it is not empty yet. -/
def slotEmptied (s : State) (j : Nat) : State := if (s.keySlot j).state = .empty then s else s.emptySlot j

theorem slotEmptied_empties (s : State) (j : Nat) : ((slotEmptied s j).keySlot j).state = .empty := by
  unfold slotEmptied
  split
  · next empty => exact empty
  · exact keySlot_emptySlot s j

theorem slotEmptied_keeps {i : Nat} (empty : (s.keySlot i).state = .empty) (j : Nat) : ((slotEmptied s j).keySlot i).state = .empty := by
  by_cases e : i = j
  · exact e ▸ slotEmptied_empties s i
  · unfold slotEmptied
    split
    · exact empty
    · rw [State.emptySlot, keySlot_putKey, if_neg e]
      exact empty

/-- Of a list of slots that are emptied, each one is empty. -/
theorem slotEmptied_all (slots : List Nat) (s : State) {j : Nat} (listed : j ∈ slots) :
    ((slots.foldl slotEmptied s).keySlot j).state = .empty := by
  have stays : ∀ (l : List Nat) (u : State), (u.keySlot j).state = .empty → ((l.foldl slotEmptied u).keySlot j).state = .empty := fun l u e =>
    List.foldlRecOn (motive := fun t : State => (t.keySlot j).state = .empty) l _ e fun t kept k _ => slotEmptied_keeps kept k
  induction slots generalizing s with
  | nil => exact absurd listed nofun
  | cons k l ih =>
    rcases List.mem_cons.mp listed with rfl | later
    · exact stays l _ (slotEmptied_empties s j)
    · exact ih (slotEmptied s k) later

theorem dropSessionKeys_eq (s : State) (n : Nat) : s.dropSessionKeys n = ([0, 1, 2, 3].map (4129 + 4 * n + ·)).foldl slotEmptied s := by
  rw [List.foldl_map]
  rfl

/-- A session that has ended leaves its number free and its four slots empty. -/
theorem endSession_spec (s : State) (n : Nat) : (∀ tr, (s.endSession n).session tr n = none) ∧
    ∀ k, k < 4 → ((s.endSession n).keySlot (4129 + 4 * n + k)).state = .empty := by
  have dropped := dropSessionKeys_frame { s with spdmSessions := recErase SpdmSession.number s.spdmSessions n } n
    (Frame.refl 0x20000000004 _) rfl
  refine ⟨fun tr => ?_, fun k small => ?_⟩
  · refine (session_congr (dropped.same .spdmSessions rfl) tr n).trans (List.find?_eq_none.mpr fun p hp same => ?_)
    have other : p.number ≠ n := by simpa using (List.mem_filter.mp hp).2
    exact other (by simpa using (Bool.and_eq_true_iff.mp same).1)
  · rw [State.endSession, dropSessionKeys_eq]
    exact slotEmptied_all _ _ (List.mem_map.mpr ⟨k, by simp; omega, rfl⟩)

/-! ### The gates of a request (R41, R320) -/

theorem spdm_of_reached (open_ : s.doePort port = true) (reached : need ≤ s.spdmStage (.doe port)) (m : SpdmMsg) (f : State → State) :
    s.spdm (.doe port) need m f = f s := by
  unfold State.spdm
  dsimp only
  rw [open_]
  exact if_neg (Nat.not_lt.mpr reached)

theorem inSession_of_established (open_ : s.doePort port = true) (found : s.session (.doe port) n = some q) (established : q.established = true)
    (code : Nat) (f : SpdmSession → State → State) : s.inSession (.doe port) n code f = f q s := by
  unfold State.inSession
  dsimp only
  rw [open_, found, Option.filter_some, if_pos established]
  rfl

theorem inSession_of_none (open_ : s.doePort port = true) (none_ : s.session (.doe port) n = none) (code : Nat)
    (f : SpdmSession → State → State) : s.inSession (.doe port) n code f = s.spdmError (.doe port) spdmNoSession := by
  unfold State.inSession
  dsimp only
  rw [open_, none_]
  rfl

theorem session_spdmSay (s : State) (tr : Transport) (code : Nat) (body : Data) (tr' : Transport) (k : Nat) :
    (s.spdmSay tr code body).session tr' k = s.session tr' k :=
  session_congr rfl tr' k

theorem keySlot_spdmSay (s : State) (tr : Transport) (code : Nat) (body : Data) (j : Nat) : (s.spdmSay tr code body).keySlot j = s.keySlot j :=
  rfl

theorem session_spdmError (s : State) (tr : Transport) (error : Nat) (tr' : Transport) (k : Nat) :
    (s.spdmError tr error).session tr' k = s.session tr' k :=
  session_congr rfl tr' k

theorem onlyChanges_spdmSay (s : State) (tr : Transport) (code : Nat) (body : Data) : OnlyChanges [.spdmOut] s (s.spdmSay tr code body) :=
  onlyChanges_of_frame (l := [.spdmOut]) (spdmSay_frame s tr code body (Frame.refl _ s) rfl)

theorem onlyChanges_spdmError (s : State) (tr : Transport) (error : Nat) : OnlyChanges [.spdmOut] s (s.spdmError tr error) :=
  onlyChanges_of_frame (l := [.spdmOut]) (spdmError_frame s tr error (Frame.refl _ s) rfl)

/-- A request that is refused gives its error, and changes nothing else. -/
theorem refused_with {c : Instr} {error : Nat} (e : exec c s = .next (s.spdmError tr error)) :
    Completes c s fun t => t.spdmOut = some (SpdmAnswer.mk tr rspError error .none) ∧ OnlyChanges [.spdmOut] s t :=
  ⟨_, e, rfl, onlyChanges_spdmError s tr error⟩

/-! ### KEY_EXCHANGE and FINISH (R316, R320) -/

/-- A session opened and its first keys derived. -/
def keysExchanged (s : State) (tr : Transport) (n : Nat) : State := (sessionPut s ⟨n, tr, false, 0⟩).random.2.sessionKeys n [0, 2, 3]

theorem session_sessionKeys (s : State) (n : Nat) (which : List Nat) (tr : Transport) (k : Nat) :
    (s.sessionKeys n which).session tr k = s.session tr k :=
  session_congr ((sessionKeys_frame s n which (Frame.refl 0x8020000000004 s) rfl).same .spdmSessions rfl) tr k

theorem session_keysExchanged (s : State) (tr : Transport) (n : Nat) : (keysExchanged s tr n).session tr n = some ⟨n, tr, false, 0⟩ :=
  (session_sessionKeys ..).trans (session_sessionPut s ⟨n, tr, false, 0⟩)

/-- What KEY_EXCHANGE answers with: the session's number, a fresh value, and the signature over the exchange. -/
def keyExchangeBody (s : State) (tr : Transport) (n : Nat) (peer : BitVec 768) : Data :=
  let r := (sessionPut s ⟨n, tr, false, 0⟩).random
  .fields [(0, 1, 0), (2, 2, n), (4, 32, r.1.toNat), (36, 96, signature [peer.toNat, r.1.toNat, s.chainDigest.toNat])]

theorem exec_keyExchange_opens (open_ : s.doePort port = true) (reached : 3 ≤ s.spdmStage (.doe port)) (entropy : s.entropyOk = true)
    (free : s.freeSession = some n) (peer : BitVec 768) : exec (.keyExchange (.doe port) peer) s =
      .next ((keysExchanged s (.doe port) n).spdmSay (.doe port) 0x64 (keyExchangeBody s (.doe port) n peer)) := by
  refine congrArg Host.Outcome.next ((spdm_of_reached open_ reached _ _).trans ?_)
  rw [free]
  exact if_neg (by simp [entropy])

theorem exec_keyExchange_full (open_ : s.doePort port = true) (reached : 3 ≤ s.spdmStage (.doe port)) (full : s.freeSession = none)
    (peer : BitVec 768) : exec (.keyExchange (.doe port) peer) s = .next (s.spdmError (.doe port) spdmLimit) := by
  refine congrArg Host.Outcome.next ((spdm_of_reached open_ reached _ _).trans ?_)
  rw [full]

theorem exec_finish (open_ : s.doePort port = true) (reached : 3 ≤ s.spdmStage (.doe port)) (found : s.session (.doe port) n = some q)
    (opening : q.established = false) (macOk : Bool) : exec (.finish (.doe port) n macOk) s = .next
      (if macOk = true then ((sessionPut s { q with established := true }).sessionKeys n [1]).spdmSay (.doe port) 0x65 .none
      else (s.endSession n).spdmError (.doe port) spdmDecrypt) := by
  refine congrArg Host.Outcome.next ((spdm_of_reached open_ reached _ _).trans ?_)
  rw [found]
  refine (if_neg (by simp [opening])).trans ?_
  cases macOk <;> rfl

/-! ### Requests in a session (R316, R320) -/

/-- The session after a KEY_UPDATE: an update is counted, a verification of the new key is not. -/
def keyUpdated (q : SpdmSession) (op : Nat) : SpdmSession := { q with updates := if op = 3 then q.updates else q.updates + 1 }

theorem exec_heartbeat (open_ : s.doePort port = true) (found : s.session (.doe port) n = some q) (established : q.established = true) :
    exec (.heartbeat (.doe port) n) s = .next (s.spdmSay (.doe port) 0x68 .none) :=
  congrArg Host.Outcome.next (inSession_of_established open_ found established _ _)

theorem exec_keyUpdate {op : Nat} (open_ : s.doePort port = true) (found : s.session (.doe port) n = some q) (established : q.established = true)
    (low : 1 ≤ op) (high : op ≤ 3) :
    exec (.keyUpdate (.doe port) n op) s = .next ((sessionPut s (keyUpdated q op)).spdmSay (.doe port) 0x69 .none) := by
  refine congrArg Host.Outcome.next ((inSession_of_established open_ found established _ _).trans ((if_neg (by omega)).trans ?_))
  unfold keyUpdated
  by_cases verify : op = 3
  · rw [if_pos verify, if_pos verify]
    rfl
  · rw [if_neg verify, if_neg verify]
    rfl

theorem exec_endSession (open_ : s.doePort port = true) (found : s.session (.doe port) n = some q) (established : q.established = true) :
    exec (.endSession (.doe port) n) s = .next ((s.endSession n).spdmSay (.doe port) 0x6C .none) :=
  congrArg Host.Outcome.next (inSession_of_established open_ found established _ _)

/-- Without a session, its requests are answered with InvalidSession. -/
theorem sessionRequests_refused (open_ : s.doePort port = true) (none_ : s.session (.doe port) n = none) :
    ∀ i ∈ [Instr.heartbeat (.doe port) n, .keyUpdate (.doe port) n 1, .endSession (.doe port) n],
      exec i s = .next (s.spdmError (.doe port) spdmNoSession) := by
  simp only [List.forall_mem_cons, List.not_mem_nil, false_imp_iff, implies_true, and_true]
  exact ⟨congrArg Host.Outcome.next (inSession_of_none open_ none_ _ _), congrArg Host.Outcome.next (inSession_of_none open_ none_ _ _),
    congrArg Host.Outcome.next (inSession_of_none open_ none_ _ _)⟩

/-! ### Mutual authentication (R90, R320) -/

/-- A mailbox supports neither of the encapsulated requests. -/
theorem encapsulated_unsupported (open_ : s.doePort port = true) (n : Nat) (peer : PeerChain) :
    ∀ i ∈ [Instr.getEncapsulatedRequest (.doe port) n, .deliverEncapsulatedResponse (.doe port) n peer],
      exec i s = .next (s.spdmError (.doe port) spdmUnsupported) := by
  simp only [List.forall_mem_cons, List.not_mem_nil, false_imp_iff, implies_true, and_true]
  exact ⟨congrArg Host.Outcome.next (if_pos open_), congrArg Host.Outcome.next (if_pos open_)⟩

theorem spdmMig_of_responder (up : s.held = false) (free : s.migFree n = true) (found : s.mig n = some g) (responder : g.requester = false)
    (f : MigSession → State → State) : s.spdmMig n f = f g (s.putMig g) := by
  unfold State.spdmMig
  rw [up, free, found]
  dsimp only [Option.getD_some]
  rw [responder]
  rfl

/-- An answer of a migration session waits in it, and nothing else changes. -/
theorem migSay_completes {c : Instr} {code : Nat} {k : MigSession} (e : exec c s = .next ((s.putMig g).migSay k code)) (number : k.number = n) :
    Completes c s fun t => t.mig n = some { k with outbox := k.outbox ++ [.response code none] } ∧ OnlyChanges [.migs] s t :=
  ⟨_, e, mig_putMig _ number,
    onlyChanges_of_frame (l := [.migs]) (migSay_frame _ k code (putMig_frame s g (Frame.refl _ s) rfl) rfl)⟩

theorem exec_getEncapsulatedRequest (up : s.held = false) (free : s.migFree n = true) (found : s.mig n = some g) (responder : g.requester = false)
    (challenged : g.progress = 4) : exec (.getEncapsulatedRequest (.migration n) n) s = .next ((s.putMig g).migSay g 0x6A) := by
  refine congrArg Host.Outcome.next ((spdmMig_of_responder up free found responder _).trans ?_)
  rw [if_pos (by simp [challenged])]

theorem exec_deliverEncapsulatedResponse {peer : PeerChain} (up : s.held = false) (free : s.migFree n = true) (found : s.mig n = some g)
    (responder : g.requester = false) (challenged : g.progress = 4) (accepted : PeerOk peer = true) :
    exec (.deliverEncapsulatedResponse (.migration n) n peer) s =
      .next ((s.putMig g).migSay { g with progress := 6, peerId := peer.deviceId } 0x6B) := by
  refine congrArg Host.Outcome.next ((spdmMig_of_responder up free found responder _).trans ?_)
  rw [if_pos (by simp [challenged, accepted])]

/-- Settles O44: sessions opened, refused, established and ended, the requests in one and without one, and the peer's chain. -/
theorem spdmSessionsOpenAndEnd : Obligations.SpdmSessionsOpenAndEnd := by
  refine ⟨fun port n peer s open_ reached entropy free => ?_,
    fun port peer s open_ reached full => refused_with (exec_keyExchange_full open_ reached full peer),
    fun port n macOk s q open_ reached found opening => ?_, fun port n s q open_ found established => ⟨?_, fun op low high => ?_, ?_⟩,
    fun port n s open_ none_ i hi => refused_with (sessionRequests_refused open_ none_ i hi),
    fun port n peer s open_ i hi => refused_with (encapsulated_unsupported open_ n peer i hi),
    fun n s g up free found responder challenged => ⟨?_, fun peer accepted => ?_⟩⟩
  · obtain ⟨small, unused⟩ := freeSession_spec free
    exact ⟨_, exec_keyExchange_opens open_ reached entropy free peer,
      (session_spdmSay ..).trans (session_keysExchanged s (.doe port) n), rfl, small, unused _⟩
  · refine ⟨_, exec_finish open_ reached found opening macOk, ?_⟩
    obtain ⟨rfl, transport⟩ := session_spec found
    cases macOk with
    | true =>
      exact ⟨(session_spdmSay ..).trans ((session_sessionKeys ..).trans
        (transport ▸ session_sessionPut s { q with established := true })), rfl⟩
    | false => exact ⟨(session_spdmError ..).trans ((endSession_spec s _).1 _), rfl⟩
  · exact ⟨_, exec_heartbeat open_ found established, rfl, onlyChanges_spdmSay s _ _ _⟩
  · obtain ⟨rfl, transport⟩ := session_spec found
    exact ⟨_, exec_keyUpdate open_ found established low high, rfl,
      onlyChanges_of_frame (l := [.spdmOut, .spdmSessions]) (spdmSay_frame _ _ _ _ (upd_spdmSessions _ (Frame.refl _ s) rfl) rfl),
      (session_spdmSay ..).trans (transport ▸ session_sessionPut s (keyUpdated q op))⟩
  · obtain ⟨gone, empty⟩ := endSession_spec s n
    exact ⟨_, exec_endSession open_ found established, rfl, (session_spdmSay ..).trans (gone _),
      fun k small => (congrArg KeySlot.state (keySlot_spdmSay ..)).trans (empty k small)⟩
  · exact migSay_completes (exec_getEncapsulatedRequest up free found responder challenged) (mig_number found)
  · exact migSay_completes (exec_deliverEncapsulatedResponse up free found responder challenged accepted) (show g.number = n from mig_number found)

end Sys2Proof.Proofs
end

section
/-!
The start (R129, R147, R348): why a rebuild need not leave FT_STS.STATE at REBUILD. A LUN is a record with any number, and the status of its
target lies at 4 bytes for each target from FL_TGT_STS_000 on, so that the target of a LUN above 511 lies among other registers.
-/

namespace Sys2Proof.Proofs

open Sys2Proof.Machine Sys2Proof.Laws

theorem exec_sliceRebuild_of_released {n : Nat} {s : State} (present : s.hasSlice n = true) (released : (s.slice n).mode = .released) :
    exec (.sliceRebuild n) s = .next ((s.modSlice n fun x => { x with mode := .rebuilding }).rebuild n) := by
  change execSliceRebuild n s = _
  simp [execSliceRebuild, present, released]

/-- A number of a LUN, above those that a slice has (R103). -/
def strayLun : Nat := 0x7FC04

/-- The status of its target is FT_STS of the slice. -/
theorem flTgtSts_strayLun (n : Nat) : Adr.flTgtSts n (lunTarget strayLun) = Adr.ftSts n := rfl

/-- A package at reset with slice 0 released: its only LUN has that number, is listed by the format metadata, is served by no target, and lies on
a channel that reads READY. -/
def strayRebuild : State :=
  (State.reset.modSlice 0 fun x =>
      { x with mode := .released, luns := [{ lunNew strayLun with active := false, goodAtFormat := 1 }] }).putF
    (Adr.flChSts 0 (lunCh strayLun)) 2 0 3

theorem strayRebuild_released :
    strayRebuild.slices.length = 8 ∧ strayRebuild.hasSlice 0 = true ∧ (strayRebuild.slice 0).mode = .released := by
  decide +kernel

/-- The LUN is missing and fails (R147), and with it its target: its state 3 is written over the state 4, REBUILD, of the slice. -/
theorem strayRebuild_state :
    ((strayRebuild.modSlice 0 fun x => { x with mode := .rebuilding }).rebuild 0).fld (Adr.ftSts 0) 2 0 = 7 := by
  decide +kernel

/-- Refutes O56: the rebuild of a released slice does not leave FT_STS.STATE at 4 where a missing LUN has a number above 511. -/
theorem not_theStartRunsItsSteps : ¬ Obligations.TheStartRunsItsSteps := by
  rintro ⟨-, -, -, -, -, -, rebuilds, -⟩
  obtain ⟨eight, present, released⟩ := strayRebuild_released
  obtain ⟨t, step, -, state, -⟩ := (rebuilds 0 strayRebuild eight present).1 released
  cases (exec_sliceRebuild_of_released present released).symm.trans step
  rw [strayRebuild_state] at state
  exact absurd state (by decide)

end Sys2Proof.Proofs
end


section
/-!
What the repairs of the flash leave alone (R118 to R121, R147, R148): a register, a LUN and a block after each of them. They rest on the laws of
numbered records and of slices changed.
-/

namespace Sys2Proof.Proofs

open Sys2Proof.Machine Sys2Proof.Laws

variable {s t u : State} {n : Nat}

/-! ### Slices and registers -/

/-- What every step of a sequence leaves alone is as before it. -/
theorem foldl_keeps {α β : Type} (g : State → β) {f : State → α → State} (h : ∀ r x, g (f r x) = g r) (l : List α) (s : State) :
    g (l.foldl f s) = g s := by
  induction l generalizing s with
  | nil => rfl
  | cons x l ih => exact (ih _).trans (h s x)

theorem sliceAdr_ne {a b : Nat} (h : a ≠ b) : sliceAdr n a ≠ sliceAdr n b := by
  unfold sliceAdr
  omega

theorem fld_putF_of_ne {a b : Nat} (s : State) (hi lo v h l : Nat) (ne : b ≠ a) : (s.putF a hi lo v).fld b h l = s.fld b h l :=
  fld_wr_of_ne _ _ _ _ ne

theorem fld_of_rd {a : Nat} (e : t.rd a = s.rd a) (hi lo : Nat) : t.fld a hi lo = s.fld a hi lo := by
  unfold State.fld
  rw [e]

theorem bit_of_rd {a : Nat} (e : t.rd a = s.rd a) (k : Nat) : t.bit a k = s.bit a k := by
  unfold State.bit
  rw [e]

theorem bit_setBit_of_set {a b j k : Nat} (h : s.bit a j = true) : (s.setBit b k).bit a j = true := by
  rw [bit_setBit, h, Bool.true_or]

/-- A slice that is not as a package reset leaves it is one of the package. -/
theorem slice_lt_of_ne_reset (h : s.slice n ≠ State.sliceReset) : n < s.slices.length := by
  refine Nat.lt_of_not_le fun l => h ?_
  unfold State.slice
  rw [List.getElem?_eq_none l, Option.getD_none]

theorem slice_lt_of_mediaOn (h : s.mediaOn n = true) : n < s.slices.length := by
  refine slice_lt_of_ne_reset fun e => ?_
  have off : (s.slice n).mode = .off := congrArg Slice.mode e
  simp [State.mediaOn, off] at h

theorem slice_lt_of_sliceUp (h : s.sliceUp n = true) : n < s.slices.length := by
  refine slice_lt_of_ne_reset fun e => ?_
  have off : (s.slice n).mode = .off := congrArg Slice.mode e
  simp [State.sliceUp, Slice.up, off] at h

theorem slice_putF (s : State) (a hi lo v k : Nat) : (s.putF a hi lo v).slice k = s.slice k := rfl

theorem slice_putBit (s : State) (a b : Nat) (v : Bool) (k : Nat) : (s.putBit a b v).slice k = s.slice k := by
  cases v <;> rfl

theorem desc_modSlice (s : State) (n k : Nat) (f : Slice → Slice) (h : ∀ x, (f x).descIx = x.descIx) : (s.modSlice n f).desc k = s.desc k := by
  unfold State.desc
  rw [modSlice_keeps Slice.descIx s n k f h]
  rfl

/-- The descriptor of a slice depends on the image that runs and on what discovery matched. -/
theorem desc_congr (nvm : t.nvm = s.nvm) (start : t.start = s.start) (h : (t.slice n).descIx = (s.slice n).descIx) : t.desc n = s.desc n := by
  unfold State.desc State.image
  rw [nvm, start, h]

/-! ### Records of LUNs and blocks -/

theorem lun_recMod (x : Slice) (k j : Nat) (f : Lun → Lun) (hf : ∀ l, (f l).lun = l.lun) :
    recGet Lun.lun (recMod Lun.lun x.luns k f) j = (x.lun j).map fun l => if j = k then f l else l :=
  recGet_recMod Lun.lun x.luns k j f hf

theorem block_key (x : Slice) (l b : Nat) : (x.block l b).lun = l ∧ (x.block l b).block = b := by
  unfold Slice.block
  cases h : x.blocks.find? fun i => i.lun == l && i.block == b with
  | none => exact ⟨rfl, rfl⟩
  | some i => simpa using List.find?_some h

/-- A block after what is known of one block changed. -/
theorem block_modBlock (x : Slice) (l b k c : Nat) (f : BlockInfo → BlockInfo) (hf : ∀ i, (f i).lun = i.lun ∧ (f i).block = i.block) :
    (x.modBlock l b f).block k c = if k = l ∧ c = b then f (x.block l b) else x.block k c := by
  obtain ⟨hl, hb⟩ := block_key x l b
  unfold Slice.modBlock
  generalize x.block l b = i at *
  have key : ((f i).lun == k && (f i).block == c) = decide (k = l ∧ c = b) := by
    rw [(hf _).1, (hf _).2, hl, hb, Bool.eq_iff_iff]
    simp [eq_comm (a := l), eq_comm (a := b)]
  unfold Slice.block
  dsimp only
  rw [List.find?_append, List.find?_filter, List.find?_singleton, key]
  by_cases e : k = l ∧ c = b
  · obtain ⟨rfl, rfl⟩ := e
    have none_ : (x.blocks.find? fun j => decide ((!(j.lun == k && j.block == c)) = true ∧ (j.lun == k && j.block == c) = true)) = none :=
      List.find?_eq_none.mpr fun j _ => by cases (j.lun == k && j.block == c) <;> decide
    rw [none_]
    simp
  · rw [if_neg e, decide_eq_false e, if_neg (by simp), Option.or_none]
    refine congrArg (Option.getD · _) (congrArg (List.find? · x.blocks) (funext fun i => Bool.eq_iff_iff.mpr ?_))
    simp only [Bool.and_eq_true, Bool.not_eq_true', Bool.and_eq_false_iff, beq_iff_eq, beq_eq_false_iff_ne, decide_eq_true_eq]
    constructor
    · exact fun h => h.2
    · rintro ⟨rfl, rfl⟩
      exact ⟨not_and_or.mp e, rfl, rfl⟩

theorem block_congr {x y : Slice} (h : y.blocks = x.blocks) (l b : Nat) : y.block l b = x.block l b := by
  unfold Slice.block
  rw [h]

/-- A block stays retired where a change of what is known of one block keeps it so. -/
theorem retired_modBlock {x : Slice} {k c : Nat} (l b : Nat) {f : BlockInfo → BlockInfo}
    (hf : ∀ i, (f i).lun = i.lun ∧ (f i).block = i.block) (hr : ∀ i, i.retired = true → (f i).retired = true)
    (h : (x.block k c).retired = true) : ((x.modBlock l b f).block k c).retired = true := by
  rw [block_modBlock x l b k c f hf]
  split
  · next e => exact hr _ (e.1 ▸ e.2 ▸ h)
  · exact h

end Sys2Proof.Proofs
end


section
/-!
What becomes known of a slice's flash stays known through every repair (R115 to R121, R148): which LUNs have failed, which of their blocks did,
which blocks are retired, and the event flags of the flash interface.
-/

namespace Sys2Proof.Proofs

open Sys2Proof.Machine Sys2Proof.Laws

variable {s t u : State} {n : Nat}

/-! ### Operations queued, blocks kept back, parity pages -/

/-- Of the slices only the channel queues, the kept-back blocks and the parity pages changed, and nothing else of the package. -/
structure QueuesOnly (s t : State) : Prop where
  frame : Frame 0x20000 s t
  slices : ∀ k, ∃ f r p, t.slice k = { s.slice k with flash := f, reserve := r, parity := p }

theorem QueuesOnly.refl (s : State) : QueuesOnly s s := ⟨.refl _ s, fun _ => ⟨_, _, _, rfl⟩⟩

theorem QueuesOnly.trans (h : QueuesOnly s t) (g : QueuesOnly t u) : QueuesOnly s u := by
  refine ⟨h.frame.comp g.frame rfl, fun k => ?_⟩
  obtain ⟨_, _, _, e⟩ := h.slices k
  obtain ⟨_, _, _, e'⟩ := g.slices k
  exact ⟨_, _, _, by rw [e', e]⟩

/-- What does not depend on the queues, the kept-back blocks and the parity pages of a slice is as before. -/
theorem QueuesOnly.keeps {α : Type} (h : QueuesOnly s t) (g : Slice → α) (hg : ∀ x f r p, g { x with flash := f, reserve := r, parity := p } = g x)
    (k : Nat) : g (t.slice k) = g (s.slice k) := by
  obtain ⟨_, _, _, e⟩ := h.slices k
  rw [e, hg]

theorem QueuesOnly.rd (h : QueuesOnly s t) (a : Nat) : t.rd a = s.rd a :=
  rd_of_regs (h.frame.same .regs rfl) (h.frame.same .part rfl) a

theorem queuesOnly_foldl {α : Type} (f : State → α → State) (hf : ∀ r a, QueuesOnly r (f r a)) (l : List α) (s : State) :
    QueuesOnly s (l.foldl f s) := by
  induction l generalizing s with
  | nil => exact .refl s
  | cons a l ih => exact (hf s a).trans (ih _)

theorem queuesOnly_modSlice (s : State) (n : Nat) (f : Slice → Slice)
    (hf : ∀ x, ∃ q r p, f x = { x with flash := q, reserve := r, parity := p }) : QueuesOnly s (s.modSlice n f) := by
  refine ⟨modSlice_frame n f (.refl _ s) rfl (.of fun x => ?_), fun k => ?_⟩
  · obtain ⟨_, _, _, e⟩ := hf x
    rw [e]
  · rcases slice_modSlice_cases s n k f with e | e <;> rw [e]
    · exact hf _
    · exact ⟨_, _, _, rfl⟩

theorem queuesOnly_queueErase (s : State) (n lun b : Nat) (m : CellMode) (rate : Nat) (why : FlFor) :
    QueuesOnly s (s.queueErase n lun b m rate why) :=
  queuesOnly_modSlice s n _ fun _ => ⟨_, _, _, rfl⟩

theorem queuesOnly_queueProgram (s : State) (n : Nat) (d : MediaDesc) (lun b row : Nat) (m : CellMode) (rate : Nat) (why : FlFor)
    (user : Option Nat) : QueuesOnly s (s.queueProgram n d lun b row m rate why user) :=
  queuesOnly_modSlice s n _ fun _ => ⟨_, _, _, rfl⟩

theorem queuesOnly_queueRead (s : State) (n lun b row : Nat) (m : CellMode) (rate cws : Nat) (why : FlFor) (user : Option Nat) :
    QueuesOnly s (s.queueRead n lun b row m rate cws why user) :=
  queuesOnly_modSlice s n _ fun _ => ⟨_, _, _, rfl⟩

theorem reserve_keepBack (x : Slice) (d : MediaDesc) (lun : Nat) (use : ResUse) (ready : Bool) :
    ∃ r, x.keepBack d lun use ready = { x with reserve := r } := by
  unfold Slice.keepBack
  split
  · exact ⟨_, rfl⟩
  · exact ⟨_, rfl⟩

theorem reserve_keepMore (x : Slice) (d : MediaDesc) (lun : Nat) (use : ResUse) (ready : Bool) (k : Nat) :
    ∃ r, x.keepMore d lun use ready k = { x with reserve := r } := by
  unfold Slice.keepMore
  induction List.range k generalizing x with
  | nil => exact ⟨_, rfl⟩
  | cons i l ih =>
    obtain ⟨r, e⟩ := reserve_keepBack x d lun use ready
    obtain ⟨r', e'⟩ := ih { x with reserve := r }
    exact ⟨r', by rw [List.foldl_cons, e, e']⟩

theorem reserve_foldl_keepFor (d : MediaDesc) (want : Nat) (ready : Bool) (l : List Lun) (x : Slice) :
    ∃ r, l.foldl (Slice.keepFor d want ready) x = { x with reserve := r } := by
  induction l generalizing x with
  | nil => exact ⟨_, rfl⟩
  | cons a l ih =>
    have kept : ∃ r, Slice.keepFor d want ready x a = { x with reserve := r } := by
      obtain ⟨r, e⟩ := reserve_keepMore x d a.lun .landing ready (want - x.keptOn a.lun .landing)
      obtain ⟨q, e'⟩ := reserve_keepMore
        (Slice.giveBack { x with reserve := r } a.lun (x.keptOn a.lun .landing - want)) d a.lun .parity ready
        (2 - (Slice.giveBack { x with reserve := r } a.lun (x.keptOn a.lun .landing - want)).keptOn a.lun .parity)
      exact ⟨q, by unfold Slice.keepFor; dsimp only; rw [e, e']; rfl⟩
    obtain ⟨r, e⟩ := kept
    obtain ⟨q, e'⟩ := ih { x with reserve := r }
    exact ⟨q, by rw [List.foldl_cons, e, e']⟩

theorem queuesOnly_sizeReserve (s : State) (n : Nat) (ready : Bool) : QueuesOnly s (s.sizeReserve n ready) := by
  unfold State.sizeReserve
  split
  · exact .refl s
  · dsimp only
    split
    · exact .refl s
    · refine queuesOnly_modSlice s n _ fun x => ?_
      obtain ⟨r, e⟩ := reserve_foldl_keepFor _ _ ready _ x
      exact ⟨_, r, _, e⟩

theorem queuesOnly_parityPage (s : State) (n : Nat) (d : MediaDesc) (sb : Superblock) (k : Stripe) :
    QueuesOnly s (s.parityPage n d sb k) := by
  unfold State.parityPage
  extract_lets x lun per count fits grown room
  have roomy : QueuesOnly s room := by
    have kept : QueuesOnly s grown := queuesOnly_modSlice s n _ fun x => by
      obtain ⟨r, e⟩ := reserve_keepBack x d lun .parity true
      exact ⟨_, r, _, e⟩
    dsimp only [room]
    split
    · exact .refl s
    · split
      · exact kept.trans (queuesOnly_queueErase _ n _ _ _ _ _)
      · exact kept
  split
  · exact roomy
  · refine (roomy.trans ?_).trans (queuesOnly_foldl _ (fun r i => queuesOnly_queueProgram r ..) _ _)
    exact queuesOnly_modSlice room n _ fun x => ⟨_, _, _, rfl⟩

theorem queuesOnly_parityDue (s : State) (n : Nat) (d : MediaDesc) (seq : Nat) : QueuesOnly s (s.parityDue n d seq) := by
  unfold State.parityDue
  split
  · exact .refl s
  · refine queuesOnly_foldl _ (fun r k => ?_) _ s
    split
    · exact .refl r
    · exact queuesOnly_parityPage r n d _ k

/-! ### What is known to have failed -/

/-- What is known to have failed in a slice is still known, and the time is the same. -/
structure KeepsFailures (n : Nat) (s t : State) : Prop where
  course : t.course = s.course
  blocks : ∀ k, ((t.slice n).lun k).map Lun.failedBlocks = ((s.slice n).lun k).map Lun.failedBlocks
  failed : ∀ k, ((s.slice n).lun k).map Lun.health = some .failed → ((t.slice n).lun k).map Lun.health = some .failed
  retired : ∀ l b, ((s.slice n).block l b).retired = true → ((t.slice n).block l b).retired = true
  events : ∀ k, s.bit (Adr.flEvt n) k = true → t.bit (Adr.flEvt n) k = true

theorem KeepsFailures.refl (n : Nat) (s : State) : KeepsFailures n s s := ⟨rfl, fun _ => rfl, fun _ => id, fun _ _ => id, fun _ => id⟩

theorem KeepsFailures.trans (h : KeepsFailures n s t) (g : KeepsFailures n t u) : KeepsFailures n s u where
  course := g.course.trans h.course
  blocks k := (g.blocks k).trans (h.blocks k)
  failed k := g.failed k ∘ h.failed k
  retired l b := g.retired l b ∘ h.retired l b
  events k := g.events k ∘ h.events k

theorem keepsFailures_foldl {α : Type} (f : State → α → State) (hf : ∀ r a, KeepsFailures n r (f r a)) (l : List α) (s : State) :
    KeepsFailures n s (l.foldl f s) := by
  induction l generalizing s with
  | nil => exact .refl n s
  | cons a l ih => exact (hf s a).trans (ih _)

/-- Where neither the registers nor the slices change, nor the time. -/
theorem keepsFailures_of_frame {F : Nat} (h : Frame F s t) (mp : F.testBit 0 = false) (mr : F.testBit 2 = false) (mc : F.testBit 5 = false)
    (ms : F.testBit 17 = false) : KeepsFailures n s t := by
  have slices : t.slice n = s.slice n := slice_congr (h.same .slices ms) n
  refine ⟨h.same .course mc, fun k => by rw [slices], fun k => by rw [slices]; exact id, fun l b => by rw [slices]; exact id, fun k => ?_⟩
  rw [bit_of_rd (rd_of_regs (h.same .regs mr) (h.same .part mp) _)]
  exact id

theorem QueuesOnly.failures (h : QueuesOnly s t) : KeepsFailures n s t := by
  have luns := h.keeps Slice.luns (fun _ _ _ _ => rfl) n
  have blocks := h.keeps Slice.blocks (fun _ _ _ _ => rfl) n
  refine ⟨h.frame.same .course rfl, fun k => by rw [Slice.lun, luns, Slice.lun], fun k => by rw [Slice.lun, Slice.lun, luns]; exact id,
    fun l b => by rw [block_congr blocks]; exact id, fun k => ?_⟩
  rw [bit_of_rd (h.rd _)]
  exact id

/-- A change of the slice that keeps what is known of its LUNs and its blocks. -/
theorem keepsFailures_modSlice (s : State) (f : Slice → Slice)
    (hb : ∀ x k, ((f x).lun k).map Lun.failedBlocks = (x.lun k).map Lun.failedBlocks)
    (hf : ∀ x k, (x.lun k).map Lun.health = some .failed → ((f x).lun k).map Lun.health = some .failed)
    (hr : ∀ x l b, (x.block l b).retired = true → ((f x).block l b).retired = true) : KeepsFailures n s (s.modSlice n f) := by
  rcases slice_modSlice_cases s n n f with e | e
  · exact ⟨rfl, fun k => by rw [e]; exact hb _ k, fun k => by rw [e]; exact hf _ k, fun l b => by rw [e]; exact hr _ l b, fun _ => id⟩
  · exact ⟨rfl, fun k => by rw [e], fun k => by rw [e]; exact id, fun l b => by rw [e]; exact id, fun _ => id⟩

/-- A change of the slice that leaves its LUNs and what is known of its blocks alone. -/
theorem keepsFailures_of_same (s : State) (f : Slice → Slice) (hl : ∀ x, (f x).luns = x.luns) (hb : ∀ x, (f x).blocks = x.blocks) :
    KeepsFailures n s (s.modSlice n f) :=
  keepsFailures_modSlice s f (fun x k => by rw [Slice.lun, hl, Slice.lun]) (fun x k => by rw [Slice.lun, Slice.lun, hl]; exact id)
    fun x l b => by rw [block_congr (hb x)]; exact id

/-- A change of a LUN that keeps what failed on it. -/
theorem keepsFailures_modLun (s : State) (f : Slice → Slice) (lun : Nat) (g : Lun → Lun)
    (hl : ∀ x, (f x).luns = recMod Lun.lun x.luns lun g) (hr : ∀ x l b, (x.block l b).retired = true → ((f x).block l b).retired = true)
    (key : ∀ l, (g l).lun = l.lun) (failed : ∀ l, (g l).failedBlocks = l.failedBlocks)
    (health : ∀ l, l.health = .failed → (g l).health = .failed) : KeepsFailures n s (s.modSlice n f) := by
  have lun_ : ∀ x k, (f x).lun k = (x.lun k).map fun l => if k = lun then g l else l := fun x k => by
    rw [Slice.lun, hl, lun_recMod x lun k g key]
  refine keepsFailures_modSlice s f (fun x k => ?_) (fun x k h => ?_) hr
  · rw [lun_, Option.map_map]
    refine Option.map_congr fun l _ => ?_
    rw [Function.comp_apply, apply_ite Lun.failedBlocks, failed, ite_self]
  · obtain ⟨l, e, hl⟩ := Option.map_eq_some_iff.mp h
    rw [lun_, e]
    refine congrArg some ?_
    dsimp only
    split
    · exact health l hl
    · exact hl

/-- A change of what is known of a block that keeps it retired. -/
theorem keepsFailures_modBlock (s : State) (lun b : Nat) (g : BlockInfo → BlockInfo)
    (key : ∀ i, (g i).lun = i.lun ∧ (g i).block = i.block) (retired : ∀ i, i.retired = true → (g i).retired = true) :
    KeepsFailures n s (s.modSlice n fun x => x.modBlock lun b g) :=
  keepsFailures_modSlice s _ (fun _ _ => rfl) (fun _ _ => id) fun _ _ _ => retired_modBlock lun b key retired

theorem keepsFailures_wr (s : State) {a : Nat} (v : Word) (h : Adr.flEvt n ≠ a) : KeepsFailures n s (s.wr a v) :=
  ⟨rfl, fun _ => rfl, fun _ => id, fun _ _ => id, fun k => by rw [bit_wr_of_ne s v k h]; exact id⟩

theorem keepsFailures_setBit (s : State) (a k : Nat) : KeepsFailures n s (s.setBit a k) :=
  ⟨rfl, fun _ => rfl, fun _ => id, fun _ _ => id, fun _ => bit_setBit_of_set⟩

theorem keepsFailures_putBit (s : State) {a : Nat} (k : Nat) (v : Bool) (h : Adr.flEvt n ≠ a) : KeepsFailures n s (s.putBit a k v) := by
  cases v
  · exact keepsFailures_wr s _ h
  · exact keepsFailures_setBit s a k

theorem flEvt_ne_ft {off : Nat} (h : 0x80010 < off) : Adr.flEvt n ≠ sliceAdr n off := sliceAdr_ne (Nat.ne_of_lt h)

/-! ### Spares, blocks, reads -/

theorem keepsFailures_evalExposed (s : State) : KeepsFailures n s (s.evalExposed n) :=
  keepsFailures_putBit s 4 _ (flEvt_ne_ft (by decide))

theorem keepsFailures_ite {c : Prop} [Decidable c] (h : KeepsFailures n s t) (g : KeepsFailures n s u) :
    KeepsFailures n s (if c then t else u) := by
  split
  · exact h
  · exact g

theorem keepsFailures_evalSpare (s : State) : KeepsFailures n s (s.evalSpare n) := by
  unfold State.evalSpare
  refine keepsFailures_ite (.refl n s) ?_
  dsimp only
  have spare : Adr.flEvt n ≠ Adr.ftSpare n := flEvt_ne_ft (by decide)
  have sts : Adr.flEvt n ≠ Adr.ftSts n := flEvt_ne_ft (by decide)
  refine .trans (.trans ?_ (keepsFailures_wr _ _ spare)) (keepsFailures_wr _ _ spare)
  refine .trans (.trans ?_ (keepsFailures_putBit _ 5 _ sts)) (keepsFailures_putBit _ 7 _ sts)
  refine .trans ?_ (keepsFailures_ite (keepsFailures_setBit _ _ 3) (.refl n _))
  refine .trans ?_ (keepsFailures_ite (keepsFailures_setBit _ _ 2) (.refl n _))
  exact keepsFailures_of_same s _ (fun _ => rfl) fun _ => rfl

theorem keepsFailures_retireBlock (s : State) (lun b : Nat) : KeepsFailures n s (s.retireBlock n lun b) := by
  unfold State.retireBlock
  split
  · exact .refl n s
  · refine .trans ?_ (keepsFailures_evalSpare _)
    exact keepsFailures_modLun s _ lun _ (fun _ => rfl)
      (fun x _ _ => retired_modBlock (x := x) lun b (f := fun i => { i with retired := true, marked := true }) (fun _ => ⟨rfl, rfl⟩) fun _ _ => rfl)
      (fun _ => rfl) (fun _ => rfl) fun _ => id

theorem keepsFailures_markBlock (s : State) (lun b : Nat) : KeepsFailures n s (s.markBlock n lun b) := by
  unfold State.markBlock
  have marked := keepsFailures_modBlock (n := n) s lun b (fun i => { i with marked := true }) (fun _ => ⟨rfl, rfl⟩) fun _ => id
  dsimp only
  split
  · exact marked
  · exact marked.trans (keepsFailures_retireBlock _ lun b)

theorem keepsFailures_countReads (s : State) (lun b k : Nat) : KeepsFailures n s (s.countReads n lun b k) := by
  unfold State.countReads
  have counted := keepsFailures_modBlock (n := n) s lun b (fun i => { i with reads := i.reads + k }) (fun _ => ⟨rfl, rfl⟩) fun _ => id
  dsimp only
  split
  · exact counted
  · split
    · exact counted.trans (keepsFailures_of_same _ _ (fun _ => rfl) fun _ => rfl)
    · exact counted

theorem keepsFailures_readPage (s : State) (lun b row : Nat) (m : CellMode) (rate cws : Nat) (why : FlFor) (user : Option Nat) :
    KeepsFailures n s ((s.countReads n lun b 1).queueRead n lun b row m rate cws why user) :=
  (keepsFailures_countReads s lun b 1).trans (queuesOnly_queueRead ..).failures

theorem keepsFailures_senseUnit (s : State) (v : StoredUnit) (why : FlFor) (user : Option Nat) :
    KeepsFailures n s (s.senseUnit n v why user) := by
  unfold State.senseUnit
  split
  · refine keepsFailures_foldl _ (fun r q => ?_) _ s
    split
    · exact .refl n r
    · exact keepsFailures_readPage r ..
  · exact .refl n s

/-! ### Versions and moves that start again (R119, R120) -/

theorem luns_dropVersion (x : Slice) (w : Nat) (e : Entry) : (x.dropVersion w e).luns = x.luns := by
  unfold Slice.dropVersion
  dsimp only
  split
  · rfl
  · split <;> rfl

theorem blocks_dropVersion (x : Slice) (w : Nat) (e : Entry) : (x.dropVersion w e).blocks = x.blocks := by
  unfold Slice.dropVersion
  dsimp only
  split
  · rfl
  · split <;> rfl

theorem keepsFailures_mapInflight (s : State) (f : InFlight → InFlight) : KeepsFailures n s (s.mapInflight f) :=
  ⟨rfl, fun _ => rfl, fun _ => id, fun _ _ => id, fun _ => id⟩

theorem keepsFailures_failedVersion (s : State) (group : Nat) (v : Version) : KeepsFailures n s (s.failedVersion n group v) := by
  unfold State.failedVersion
  dsimp only
  split
  · refine .trans (keepsFailures_mapInflight s _) (keepsFailures_of_same _ _ (fun x => ?_) fun x => ?_)
    · split
      · exact luns_dropVersion x _ _
      · rfl
    · split
      · exact blocks_dropVersion x _ _
      · rfl
  · exact keepsFailures_of_same s _ (fun _ => rfl) fun _ => rfl

theorem keepsFailures_failedMove (s : State) (group : Nat) (m : Move) : KeepsFailures n s (s.failedMove n group m) := by
  refine .trans ?_ (keepsFailures_senseUnit _ _ _ _)
  exact keepsFailures_of_same s _ (fun _ => rfl) fun _ => rfl

theorem keepsFailures_sweepFailed (s : State) (d : MediaDesc) (sb : Superblock) (ps : List Nat) :
    KeepsFailures n s (s.sweepFailed n d sb ps) :=
  (keepsFailures_foldl _ (fun r v => keepsFailures_failedVersion r sb.group v) _ s).trans
    (keepsFailures_foldl _ (fun r m => keepsFailures_failedMove r sb.group m) _ _)

/-! ### Losses (R115, R117, R121) -/

theorem luns_ite_switch (x : Slice) (c : Prop) [Decidable c] (i : Nat) (e : Entry) : (if c then x.switch i e else x).luns = x.luns := by
  split <;> rfl

theorem blocks_ite_switch (x : Slice) (c : Prop) [Decidable c] (i : Nat) (e : Entry) : (if c then x.switch i e else x).blocks = x.blocks := by
  split <;> rfl

theorem keepsFailures_loseUnit (s : State) (lun : Nat) (v : StoredUnit) : KeepsFailures n s (s.loseUnit n lun v) := by
  refine keepsFailures_modLun s _ lun (fun l => { l with lostBytes := l.lostBytes + unitBytes v.slen }) (fun x => ?_) (fun x l b h => ?_)
    (fun _ => rfl) (fun _ => rfl) fun _ => id
  · dsimp only
    rw [luns_ite_switch]
  · refine (congrArg BlockInfo.retired (block_congr (x := x) ?_ l b)).trans h
    exact blocks_ite_switch x _ _ _

theorem keepsFailures_loseBare (s : State) (lun : Nat) : KeepsFailures n s (s.loseBare n lun) :=
  keepsFailures_foldl _ (fun r v => keepsFailures_loseUnit r lun v) _ s

theorem keepsFailures_deferRuns (s : State) (owner nsid lua : Nat) (bs : List Nat) (cause : Nat) :
    KeepsFailures n s (s.deferRuns n owner nsid lua bs cause) :=
  keepsFailures_of_frame (deferRuns_frame s n owner nsid lua bs cause (.refl 0x20000000300 s) rfl) rfl rfl rfl rfl

theorem keepsFailures_settleLost (s : State) : KeepsFailures n s (s.settleLost n) :=
  keepsFailures_foldl _ (fun r v => (keepsFailures_deferRuns r ..).trans (keepsFailures_loseUnit _ _ v)) _ s

/-! ### A LUN declared failed (R121, R148) -/

theorem keepsFailures_stopSuper (s : State) (d : MediaDesc) (st : SbState) (p : FlWork → Bool) (sb : Superblock) :
    KeepsFailures n s (s.stopSuper n d st p sb) := by
  refine .trans ?_ (keepsFailures_sweepFailed _ d sb _)
  exact keepsFailures_of_same s _ (fun _ => rfl) fun _ => rfl

theorem luns_rewind (x : Slice) (lun : Nat) : (x.rewind lun).luns = x.luns := by
  unfold Slice.rewind
  split <;> rfl

theorem blocks_rewind (x : Slice) (lun : Nat) : (x.rewind lun).blocks = x.blocks := by
  unfold Slice.rewind
  split <;> rfl

theorem flEvt_ne_flTgtSts (k : Nat) : Adr.flEvt n ≠ Adr.flTgtSts n k := sliceAdr_ne (by omega)

theorem keepsFailures_targetFailed (s : State) (lun cause : Nat) : KeepsFailures n s (s.targetFailed n lun cause) := by
  unfold State.targetFailed
  dsimp only
  have put (r : State) (v : Word) := keepsFailures_wr (n := n) r v (flEvt_ne_flTgtSts (lunTarget lun))
  split
  · exact ((put _ _).trans (put _ _)).trans (put _ _)
  · exact (put _ _).trans (put _ _)

/-- The LUN's record where it is declared failed. -/
def lunMarked (s : State) (n lun : Nat) : State :=
  s.modSlice n fun x =>
    { x with luns := recMod Lun.lun x.luns lun fun l => { l with health := .failed, changedAt := s.now, cause := l.cause ||| 8 } }

/-- The flags of the failure, raised before what lay on the LUN is dealt with. -/
def lunFlagged (s : State) (n lun cause : Nat) : State :=
  (((lunMarked s n lun).targetFailed n lun cause).setBit (Adr.ftEvt n) 5).setBit (Adr.flEvt n) 3

/-- Is LUN k of a slice in service still: neither failed nor evacuated? -/
def lunServes (x : Slice) (k : Nat) : Bool := (x.lun k).any fun l => !(l.health == .failed) && !(l.health == .evacuated)

theorem lunFailed_of_gone {lun : Nat} (cause : Nat) (h : lunServes (s.slice n) lun = false) : s.lunFailed n lun cause = s := by
  unfold lunServes at h
  rw [State.lunFailed, h]
  rfl

/-- Once a LUN is marked as failed and the flags are raised, what is left of the declaration keeps all that. -/
theorem keepsFailures_of_flagged {lun : Nat} (cause : Nat) (h : lunServes (s.slice n) lun = true) :
    KeepsFailures n (lunFlagged s n lun cause) (s.lunFailed n lun cause) := by
  unfold lunServes at h
  rw [State.lunFailed, if_neg (by rw [h]; decide)]
  extract_lets marked flagged stopped left
  have stops : KeepsFailures n flagged stopped := by
    dsimp only [stopped]
    split
    · exact .refl n _
    · exact keepsFailures_foldl _ (fun r sb => keepsFailures_stopSuper r _ _ _ sb) _ _
  have leaves : KeepsFailures n stopped left :=
    (keepsFailures_loseBare stopped lun).trans
      (keepsFailures_of_same _ _ (fun x => luns_rewind _ lun) fun x => blocks_rewind _ lun)
  exact stops.trans (leaves.trans ((((keepsFailures_settleLost left).trans (queuesOnly_sizeReserve _ n false).failures).trans
    (keepsFailures_evalSpare _)).trans (keepsFailures_evalExposed _)))

theorem keepsFailures_lunMarked (s : State) (lun : Nat) : KeepsFailures n s (lunMarked s n lun) :=
  keepsFailures_modLun s _ lun _ (fun _ => rfl) (fun _ _ _ => id) (fun _ => rfl) (fun _ => rfl) fun _ _ => rfl

theorem keepsFailures_lunFlagged (s : State) (lun cause : Nat) : KeepsFailures n s (lunFlagged s n lun cause) :=
  (((keepsFailures_lunMarked s lun).trans (keepsFailures_targetFailed _ lun cause)).trans (keepsFailures_setBit _ _ 5)).trans
    (keepsFailures_setBit _ _ 3)

theorem keepsFailures_lunFailed (s : State) (lun cause : Nat) : KeepsFailures n s (s.lunFailed n lun cause) := by
  cases h : lunServes (s.slice n) lun with
  | false =>
    rw [lunFailed_of_gone cause h]
    exact .refl n s
  | true => exact (keepsFailures_lunFlagged s lun cause).trans (keepsFailures_of_flagged cause h)

/-- A LUN in service that is declared failed has failed, and the flag of it is raised (R148). -/
theorem lunFailed_fails {lun : Nat} {l : Lun} (hn : n < s.slices.length) (found : (s.slice n).lun lun = some l) (failed : l.health ≠ .failed)
    (evacuated : l.health ≠ .evacuated) (cause : Nat) :
    (((s.lunFailed n lun cause).slice n).lun lun).map Lun.health = some .failed ∧ (s.lunFailed n lun cause).bit (Adr.flEvt n) 3 = true := by
  have keeps := keepsFailures_of_flagged (s := s) (n := n) (lun := lun) cause (by simp [lunServes, found, failed, evacuated])
  have marked : ((lunMarked s n lun).slice n).lun lun = some { l with health := .failed, changedAt := s.now, cause := l.cause ||| 8 } := by
    unfold lunMarked
    rw [slice_modSlice_self _ hn]
    refine (lun_recMod (s.slice n) lun lun _ ?_).trans ?_
    · exact fun _ => rfl
    · rw [found, Option.map_some, if_pos rfl]
  have flags : KeepsFailures n (lunMarked s n lun) (lunFlagged s n lun cause) :=
    ((keepsFailures_targetFailed _ lun cause).trans (keepsFailures_setBit _ _ 5)).trans (keepsFailures_setBit _ _ 3)
  exact ⟨keeps.failed lun (flags.failed lun (by rw [marked]; rfl)), keeps.events 3 (bit_setBit_self _ _ 3 (by decide))⟩

end Sys2Proof.Proofs
end


section
/-!
Slice format (R98, R99): a request is checked, and the slice that a format leaves holds its format metadata only.
-/

namespace Sys2Proof.Proofs

open Sys2Proof.Machine Sys2Proof.Laws

variable {s t : State} {n mu : Nat}

/-! ### A request (R99) -/

theorem rd_modSlice (s : State) (n a : Nat) (f : Slice → Slice) : (s.modSlice n f).rd a = s.rd a := rfl

theorem fld_modSlice (s : State) (n a hi lo : Nat) (f : Slice → Slice) : (s.modSlice n f).fld a hi lo = s.fld a hi lo := rfl

theorem slices_putF (s : State) (a hi lo v : Nat) : (s.putF a hi lo v).slices = s.slices := rfl

/-- The request's mapping unit is no part of what the checks look at. -/
theorem formatCheck_putF_ctl (s : State) (n v mu : Nat) : (s.putF (Adr.ftFmtCtl n) 1 0 v).formatCheck n mu = s.formatCheck n mu := by
  have other : ∀ off, off ≠ 0x100054 → ∀ hi lo, (s.putF (Adr.ftFmtCtl n) 1 0 v).fld (sliceAdr n off) hi lo = s.fld (sliceAdr n off) hi lo :=
    fun off h hi lo => fld_putF_of_ne s 1 0 v hi lo (sliceAdr_ne h)
  have sts := other 0x100004 (by decide)
  have dram := other 0x40000 (by decide)
  have channel : ∀ j hi lo, (s.putF (Adr.ftFmtCtl n) 1 0 v).fld (Adr.flChSts n j) hi lo = s.fld (Adr.flChSts n j) hi lo :=
    fun j => other (0x80104 + 64 * j) (by omega)
  simp only [State.formatCheck, State.smallestMu, State.tableFits, State.dramBytes, Adr.ftSts, Adr.dmCfg, sts, dram, channel]
  rfl

theorem formatCheck_lt (s : State) (n mu : Nat) : s.formatCheck n mu < 2 ^ (31 - 28 + 1) := by
  unfold State.formatCheck
  dsimp only
  split_ifs <;> decide

/-- The request's mapping unit is no part of the format's result. -/
theorem formatResult_putF_ctl (s : State) (n v : Nat) : (s.putF (Adr.ftFmtCtl n) 1 0 v).fld (Adr.ftFmtSts n) 31 28 = s.fld (Adr.ftFmtSts n) 31 28 :=
  fld_putF_of_ne s 1 0 v 31 28 (sliceAdr_ne (by decide))

theorem exec_sliceFormat (up : s.held = false) (present : s.hasSlice n = true) (mu : Nat) :
    exec (.sliceFormat n mu) s = .next (s.startFormat n mu) :=
  congrArg Host.Outcome.next (if_neg (by simp [up, present]))

theorem startFormat_of_running (running : s.fld (Adr.ftFmtSts n) 31 28 = 1) : s.startFormat n mu = s.putF (Adr.ftFmtCtl n) 1 0 mu := by
  refine if_pos ?_
  rw [formatResult_putF_ctl, running]

theorem startFormat_of_refused (idle : s.fld (Adr.ftFmtSts n) 31 28 ≠ 1) (refused : s.formatCheck n mu ≠ 1) :
    s.startFormat n mu =
      (let t := (s.putF (Adr.ftFmtCtl n) 1 0 mu).putF (Adr.ftFmtSts n) 31 28 (s.formatCheck n mu)
       if s.formatCheck n mu = 6 then t.putF (Adr.ftSts n) 2 0 5 else t) := by
  unfold State.startFormat
  dsimp only
  rw [formatResult_putF_ctl, if_neg idle, formatCheck_putF_ctl, if_pos refused]

theorem startFormat_of_allowed (idle : s.fld (Adr.ftFmtSts n) 31 28 ≠ 1) (allowed : s.formatCheck n mu = 1) :
    ∃ m, (mu < 3 → m = mu) ∧ s.startFormat n mu =
      (((((s.putF (Adr.ftFmtCtl n) 1 0 mu).putF (Adr.ftFmtSts n) 31 28 1).modSlice n fun x => { x with formatting := some m }).putF
        (Adr.ftFmtSts n) 7 0 0).putF (Adr.ftSts n) 2 0 1) := by
  unfold State.startFormat
  dsimp only
  rw [formatResult_putF_ctl, if_neg idle, formatCheck_putF_ctl, allowed]
  exact ⟨_, fun h => if_pos h, rfl⟩

/-- A format that its checks allow is RUNNING (R99). -/
theorem sliceFormat_runs (up : s.held = false) (present : s.hasSlice n = true) (eight : s.slices.length = 8)
    (idle : s.fld (Adr.ftFmtSts n) 31 28 ≠ 1) (allowed : s.formatCheck n mu = 1) :
    Completes (.sliceFormat n mu) s fun t => (t.slice n).formatting.isSome = true ∧ (mu < 3 → (t.slice n).formatting = some mu) ∧
      t.fld (Adr.ftFmtSts n) 31 28 = 1 ∧ t.fld (Adr.ftSts n) 2 0 = 1 ∧
      RegsBut [Adr.ftFmtCtl n, Adr.ftFmtSts n, Adr.ftSts n] s t := by
  obtain ⟨m, chosen, e⟩ := startFormat_of_allowed idle allowed
  refine ⟨_, exec_sliceFormat up present mu, ?_⟩
  rw [e]
  have bound : n < s.slices.length := by
    have := part_slices_le s.part
    simp only [State.hasSlice, decide_eq_true_eq] at present
    omega
  have stored := slice_modSlice_self (s := (s.putF (Adr.ftFmtCtl n) 1 0 mu).putF (Adr.ftFmtSts n) 31 28 1) (n := n)
    (fun x => { x with formatting := some m }) (by rw [slices_putF, slices_putF]; exact bound)
  have formatting : ((((((s.putF (Adr.ftFmtCtl n) 1 0 mu).putF (Adr.ftFmtSts n) 31 28 1).modSlice n fun x => { x with formatting := some m }).putF
      (Adr.ftFmtSts n) 7 0 0).putF (Adr.ftSts n) 2 0 1).slice n).formatting = some m := by
    rw [slice_putF, slice_putF, stored]
  have sts : Adr.ftFmtSts n ≠ Adr.ftSts n := sliceAdr_ne (by decide)
  refine ⟨congrArg Option.isSome formatting, fun h => formatting.trans (congrArg some (chosen h)), ?_, fld_putF_self _ _ 2 0 1 (by decide) (by decide),
    fun a ha => ?_⟩
  · rw [fld_putF_of_ne _ _ _ _ _ _ sts, fld_putF_of_out _ _ 7 0 0 31 28 (by decide) (by decide) (by decide) (by decide), fld_modSlice]
    exact fld_putF_self _ _ 31 28 1 (by decide) (by decide)
  · simp only [List.mem_cons, List.not_mem_nil, or_false, not_or] at ha
    obtain ⟨ctl, fmt, sts⟩ := ha
    rw [rd_putF_of_ne _ _ _ _ sts, rd_putF_of_ne _ _ _ _ fmt, rd_modSlice, rd_putF_of_ne _ _ _ _ fmt, rd_putF_of_ne _ _ _ _ ctl]

/-- A refused one says why, and changes no slice (R99). -/
theorem sliceFormat_refused (up : s.held = false) (present : s.hasSlice n = true) (idle : s.fld (Adr.ftFmtSts n) 31 28 ≠ 1)
    (refused : s.formatCheck n mu ≠ 1) :
    Completes (.sliceFormat n mu) s fun t => t.slices = s.slices ∧ t.fld (Adr.ftFmtSts n) 31 28 = s.formatCheck n mu := by
  refine ⟨_, exec_sliceFormat up present mu, ?_⟩
  rw [startFormat_of_refused idle refused]
  have fits : s.formatCheck n mu % 2 ^ (31 - 28 + 1) = s.formatCheck n mu := Nat.mod_eq_of_lt (formatCheck_lt s n mu)
  generalize s.formatCheck n mu = r at fits ⊢
  have result : ∀ t : State, (t.putF (Adr.ftFmtSts n) 31 28 r).fld (Adr.ftFmtSts n) 31 28 = r := fun t =>
    (fld_putF_self t _ 31 28 r (by decide) (by decide)).trans fits
  have sts : Adr.ftFmtSts n ≠ Adr.ftSts n := sliceAdr_ne (by decide)
  dsimp only
  split
  · exact ⟨by rw [slices_putF, slices_putF, slices_putF], (fld_putF_of_ne _ _ _ _ _ _ sts).trans (result _)⟩
  · exact ⟨by rw [slices_putF, slices_putF], result _⟩

/-- GO while one runs is ignored (R99). -/
theorem sliceFormat_ignored (up : s.held = false) (present : s.hasSlice n = true) (running : s.fld (Adr.ftFmtSts n) 31 28 = 1) :
    Completes (.sliceFormat n mu) s fun t => t.slices = s.slices ∧ RegsBut [Adr.ftFmtCtl n] s t ∧ OnlyChanges [.regs] s t := by
  refine ⟨_, exec_sliceFormat up present mu, ?_⟩
  rw [startFormat_of_running running]
  exact ⟨rfl, regsBut_wr s _ _, onlyChanges_wr s _ _⟩

/-! ### The slice that a format leaves (R99) -/

theorem retired_foldl_retire (l : List (Nat × Nat)) (x : Slice) {k c : Nat} (h : (x.block k c).retired = true ∨ (k, c) ∈ l) :
    ((l.foldl (fun (x : Slice) q => x.modBlock q.1 q.2 fun i => { i with retired := true }) x).block k c).retired = true := by
  induction l generalizing x with
  | nil => exact h.resolve_right List.not_mem_nil
  | cons q l ih =>
    refine ih _ ?_
    rcases h with h | h
    · exact .inl (retired_modBlock q.1 q.2 (fun _ => ⟨rfl, rfl⟩) (fun _ _ => rfl) h)
    · rcases List.mem_cons.mp h with rfl | h
      · exact .inl (by rw [block_modBlock x k c k c (fun i => { i with retired := true }) fun _ => ⟨rfl, rfl⟩, if_pos ⟨rfl, rfl⟩])
      · exact .inr h

theorem retired_map {x y : Slice} {k c : Nat} (f : BlockInfo → BlockInfo) (hb : y.blocks = x.blocks.map f)
    (hf : ∀ i, (f i).lun = i.lun ∧ (f i).block = i.block ∧ (f i).retired = i.retired) :
    (y.block k c).retired = (x.block k c).retired := by
  have same : (fun i => (f i).lun == k && (f i).block == c) = fun (i : BlockInfo) => i.lun == k && i.block == c := funext fun i => by
    rw [(hf i).1, (hf i).2.1]
  unfold Slice.block
  rw [hb, List.find?_map]
  change (((x.blocks.find? fun i => (f i).lun == k && (f i).block == c).map f).getD _).retired = _
  rw [same]
  cases x.blocks.find? fun i => i.lun == k && i.block == c with
  | none => rfl
  | some i => exact (hf i).2.2

/-- The blocks that failed to erase are retired (R99). -/
theorem formatted_retired (x : Slice) (d : MediaDesc) {fails : List (Nat × Nat)} {q : Nat × Nat} (h : q ∈ fails) :
    ((x.formatted d fails).block q.1 q.2).retired = true := by
  rw [retired_map (x := fails.foldl (fun (x : Slice) q => x.modBlock q.1 q.2 fun i => { i with retired := true }) x)
    (fun (b : BlockInfo) => { b with reads := 0, mode := none, level := 0, marked := b.retired }) rfl fun _ => ⟨rfl, rfl, rfl⟩]
  exact retired_foldl_retire fails x (.inr h)

theorem rd_evalSpare_of_ne (s : State) {a : Nat} (sts : a ≠ Adr.ftSts n) (evt : a ≠ Adr.ftEvt n) (spare : a ≠ Adr.ftSpare n) :
    (s.evalSpare n).rd a = s.rd a := by
  have flagged : ∀ (r : State) (c : Prop) [Decidable c] (k : Nat), (if c then r.setBit (Adr.ftEvt n) k else r).rd a = r.rd a := by
    intro r c _ k
    split
    · exact rd_setBit_of_ne r k evt
    · rfl
  unfold State.evalSpare
  split
  · rfl
  · dsimp only
    rw [rd_putF_of_ne _ _ _ _ spare, rd_putF_of_ne _ _ _ _ spare, rd_putBit_of_ne _ _ _ sts, rd_putBit_of_ne _ _ _ sts, flagged, flagged]
    rfl

/-- Spares evaluated again: of the slices, only which pools are read-only. -/
theorem slice_evalSpare (s : State) (n k : Nat) : ∃ r, (s.evalSpare n).slice k = { s.slice k with readOnly := r } := by
  have flagged : ∀ (r : State) (c : Prop) [Decidable c] (a b : Nat), (if c then r.setBit a b else r).slice k = r.slice k := by
    intro r c _ a b
    split <;> rfl
  unfold State.evalSpare
  split
  · exact ⟨_, rfl⟩
  · dsimp only
    rw [slice_putF, slice_putF, slice_putBit, slice_putBit, flagged, flagged]
    rcases slice_modSlice_cases s n k fun x => { x with readOnly := _ } with e | e
    · exact ⟨_, e⟩
    · exact ⟨_, e⟩

/-- What a format in progress with a mapping unit leaves, but for its last evaluations. -/
def formatSized (s : State) (n mu : Nat) (d : MediaDesc) (fails : List (Nat × Nat)) : State :=
  let s := s.modSlice n fun x => x.formatted d fails
  let log2 := indexSize (s.dramBytes n)
  s.modSlice n fun x =>
    { x with muFmt := some mu, indexLog2 := some log2, metaBlocks := s.metaBlocksOf n d mu log2, metaLuns := (x.luns.filter Lun.good).length,
             spareRef := s.fld (Adr.ftSpareCfg n) 23 16, goodBlocks := ((x.luns.filter Lun.good).map Lun.goodAtFormat).sum }

/-- The registers of the slice at the end of a format. -/
def formatShown (s : State) (n mu : Nat) : State :=
  (((s.putF (Adr.ftCfg n) 1 0 mu).putF (Adr.ftSts n) 2 0 2).putF (Adr.ftFmtSts n) 31 28 2).putF (Adr.ftFmtSts n) 7 0 100

theorem slices_evalExposed (s : State) (n : Nat) : (s.evalExposed n).slices = s.slices := by
  unfold State.evalExposed State.putBit
  split <;> rfl

theorem slices_length_formatSized (s : State) (n mu : Nat) (d : MediaDesc) (fails : List (Nat × Nat)) :
    (formatSized s n mu d fails).slices.length = s.slices.length :=
  (slices_length_modSlice _ n _).trans (slices_length_modSlice s n _)

theorem slices_length_sizeReserve (s : State) (n : Nat) (ready : Bool) : (s.sizeReserve n ready).slices.length = s.slices.length := by
  unfold State.sizeReserve
  split
  · rfl
  · dsimp only
    split
    · rfl
    · exact slices_length_modSlice s n _

theorem exec_sliceFormatDone {d : MediaDesc} (up : s.held = false) (formatting : (s.slice n).formatting = some mu) (described : s.desc n = some d)
    (fails : List (Nat × Nat)) :
    exec (.sliceFormatDone n fails) s =
      .next (((((formatShown (formatSized s n mu d fails) n mu).evalExposed n).sizeReserve n true).formatStore n d).evalSpare n) := by
  change execSliceFormatDone n fails s = _
  unfold execSliceFormatDone
  rw [formatting, described]
  exact congrArg Host.Outcome.next (if_neg (by rw [up]; decide))

theorem slice_formatSized {d : MediaDesc} (fails : List (Nat × Nat)) (bound : n < s.slices.length) :
    ∃ i m l r g, (formatSized s n mu d fails).slice n =
      { (s.slice n).formatted d fails with muFmt := some mu, indexLog2 := i, metaBlocks := m, metaLuns := l, spareRef := r, goodBlocks := g } := by
  unfold formatSized
  dsimp only
  rw [slice_modSlice_self _ (by rw [slices_length_modSlice]; exact bound), slice_modSlice_self _ bound]
  exact ⟨_, _, _, _, _, rfl⟩

/-- The metadata that a format writes: one superblock of the metadata store. -/
theorem slice_formatStore {d : MediaDesc} (here : n < s.slices.length) :
    ∃ k st, (s.formatStore n d).slice n = { s.slice n with nextSb := k, store := st } ∧ st.supers.length = 1 :=
  ⟨_, _, slice_modSlice_self _ here, rfl⟩

/-- When a format ends, the slice holds its format metadata and nothing else (R99). -/
theorem sliceFormatDone_completes {d : MediaDesc} (fails : List (Nat × Nat)) (up : s.held = false) (formatting : (s.slice n).formatting = some mu)
    (described : s.desc n = some d) :
    Completes (.sliceFormatDone n fails) s fun t => (t.slice n).formatting = none ∧ (t.slice n).muFmt = some mu ∧
      (t.slice n).map = [] ∧ (t.slice n).versions = [] ∧ (t.slice n).units = [] ∧ (t.slice n).supers = [] ∧
      (t.slice n).index = [] ∧ (t.slice n).objects = [] ∧ (∀ q ∈ fails, ((t.slice n).block q.1 q.2).retired = true) ∧
      (t.slice n).store.supers.length = 1 ∧ t.fld (Adr.ftFmtSts n) 31 28 = 2 := by
  have bound : n < s.slices.length := slice_lt_of_ne_reset fun e => by
    rw [e] at formatting
    cases formatting
  refine ⟨_, exec_sliceFormatDone up formatting described fails, ?_⟩
  obtain ⟨_, _, _, _, _, sized⟩ := slice_formatSized (mu := mu) (d := d) fails bound
  generalize hp : (formatShown (formatSized s n mu d fails) n mu).evalExposed n = p
  have shown_ : p.slices = (formatSized s n mu d fails).slices := by
    rw [← hp]
    exact slices_evalExposed _ n
  obtain ⟨_, _, _, reserved⟩ := (queuesOnly_sizeReserve p n true).slices n
  generalize hq : p.sizeReserve n true = q at reserved
  have long : n < q.slices.length := by
    rw [← hq, slices_length_sizeReserve, shown_]
    exact (slices_length_formatSized s n mu d fails).symm ▸ bound
  obtain ⟨_, st, stored, one⟩ := slice_formatStore (d := d) long
  obtain ⟨_, spared⟩ := slice_evalSpare (q.formatStore n d) n n
  have final := spared.trans (by rw [stored, reserved, slice_congr shown_, sized])
  have result : ((q.formatStore n d).evalSpare n).rd (Adr.ftFmtSts n) = (formatShown (formatSized s n mu d fails) n mu).rd (Adr.ftFmtSts n) := by
    have sts : Adr.ftFmtSts n ≠ Adr.ftSts n := sliceAdr_ne (by decide)
    have evt : Adr.ftFmtSts n ≠ Adr.ftEvt n := sliceAdr_ne (by decide)
    have spare : Adr.ftFmtSts n ≠ Adr.ftSpare n := sliceAdr_ne (by decide)
    rw [rd_evalSpare_of_ne _ sts evt spare, State.formatStore, rd_modSlice, ← hq, (queuesOnly_sizeReserve p n true).rd, ← hp, State.evalExposed,
      rd_putBit_of_ne _ _ _ sts]
  rw [final]
  refine ⟨rfl, rfl, rfl, rfl, rfl, rfl, rfl, rfl, fun q' h => formatted_retired _ d h, one, ?_⟩
  rw [fld_of_rd result, formatShown, fld_putF_of_out _ _ 7 0 100 31 28 (by decide) (by decide) (by decide) (by decide)]
  exact fld_putF_self _ _ 31 28 2 (by decide) (by decide)

end Sys2Proof.Proofs
end

section
/-!
Flash channels (R145 to R147, R164, R165): what discovery, training and a poll of a LUN leave.
-/

namespace Sys2Proof.Proofs

open Sys2Proof.Machine Sys2Proof.Laws

variable {s t : State} {n ch : Nat}

/-! ### The state of a channel, and the registers that a settling writes -/

theorem flChSts_ne_flTgtSts (h : ch < 8) (k : Nat) : Adr.flChSts n ch ≠ Adr.flTgtSts n k := sliceAdr_ne (by omega)

theorem flChSts_ne {off : Nat} (h : off < 0x80104 ∨ 0x80400 ≤ off) (hc : ch < 8) : Adr.flChSts n ch ≠ sliceAdr n off := sliceAdr_ne (by omega)

theorem rd_putTarget_of_ne (s : State) (k st luns : Nat) {a : Nat} (h : a ≠ Adr.flTgtSts n k) : (s.putTarget n k st luns).rd a = s.rd a := by
  unfold State.putTarget
  extract_lets b gone st' t
  have put : ∀ (r : State) (l : Nat), (r.putF b (17 + 2 * l) (16 + 2 * l) (if (st' ≠ 1 ∧ st' ≠ 3) ∨ luns ≤ l then 0 else if gone l then 2 else 1)).rd a =
      r.rd a := fun r l => rd_putF_of_ne r _ _ _ h
  exact (rd_foldl _ t fun r l _ => put r l).trans (rd_putF_of_ne s _ _ _ h)

theorem rd_foundVolume_of_ne (s : State) (c v : Nat) (id : VolumeId) {a : Nat} (target : ∀ k, a ≠ Adr.flTgtSts n k) (evt : a ≠ Adr.flEvt n) :
    (s.foundVolume n c v id).rd a = s.rd a := by
  have mismatch : ((s.putTarget n (16 * c + v) 2 0).setBit (Adr.flEvt n) 1).rd a = s.rd a :=
    (rd_setBit_of_ne _ _ evt).trans (rd_putTarget_of_ne s _ _ _ (target _))
  unfold State.foundVolume
  dsimp only
  split
  · split
    · exact rd_putTarget_of_ne _ _ _ _ (target _)
    · exact mismatch
  · exact mismatch

theorem rd_putGeom_of_ne (s : State) {a : Nat} (geom : a ≠ Adr.flGeom n) (geom2 : a ≠ Adr.flGeom2 n) : (s.putGeom n).rd a = s.rd a := by
  unfold State.putGeom
  split
  · rfl
  · exact (rd_wr_of_ne _ _ geom2).trans (rd_wr_of_ne s _ geom)

theorem rd_seedRated_of_ne (s : State) {a : Nat} (pe : a ≠ Adr.ftPeCfg n) : (s.seedRated n).rd a = s.rd a := by
  unfold State.seedRated
  dsimp only
  split
  · rfl
  · split
    · rfl
    · exact (rd_putF_of_ne _ _ _ _ pe).trans ((rd_putF_of_ne _ _ _ _ pe).trans (rd_putF_of_ne s _ _ _ pe))

theorem rd_evalFl_of_ne (s : State) {a : Nat} (sts : a ≠ Adr.flSts n) : (s.evalFl n).rd a = s.rd a := by
  unfold State.evalFl
  dsimp only
  exact (rd_putF_of_ne _ _ _ _ sts).trans ((rd_putF_of_ne _ _ _ _ sts).trans ((rd_putF_of_ne _ _ _ _ sts).trans (rd_putF_of_ne s _ _ _ sts)))

/-- The count of a channel's ACTIVE targets is no part of its state. -/
theorem chState_putCount (s : State) (a b v : Nat) : (s.putF b 31 24 v).fld a 2 0 = s.fld a 2 0 := by
  by_cases e : a = b
  · subst e
    exact fld_putF_of_out s a 31 24 v 2 0 (by decide) (by decide) (by decide) (by decide)
  · exact fld_putF_of_ne s _ _ _ _ _ e

/-- The targets settled leave every channel's state as it is (R145, R147). -/
theorem chState_settleTargets (s : State) (hc : ch < 8) : (s.settleTargets n).fld (Adr.flChSts n ch) 2 0 = s.fld (Adr.flChSts n ch) 2 0 := by
  unfold State.settleTargets
  dsimp only
  rw [fld_of_rd (rd_evalFl_of_ne _ (flChSts_ne (by decide) hc)), fld_of_rd (rd_seedRated_of_ne _ (flChSts_ne (by decide) hc)),
    fld_of_rd (rd_putGeom_of_ne _ (flChSts_ne (by decide) hc) (flChSts_ne (by decide) hc))]
  refine (foldl_keeps (fun r : State => r.fld (Adr.flChSts n ch) 2 0) (fun r c => ?_) _ _).trans (fld_modSlice ..)
  refine (chState_putCount _ _ _ _).trans (foldl_keeps (fun r : State => r.fld (Adr.flChSts n ch) 2 0) (fun q p => ?_) _ r)
  exact fld_of_rd (rd_foundVolume_of_ne q _ _ _ (fun k => flChSts_ne_flTgtSts hc k) (flChSts_ne (by decide) hc)) 2 0

/-! ### A channel in FAULT (R146, R165) -/

theorem fenceSoon_report (s : State) (u : UnitId) (c : FenceCause) : ∃ c', (u, c') ∈ (s.report u c).fenceSoon := by
  unfold State.report
  split
  · next h =>
    obtain ⟨⟨v, c'⟩, mem, e⟩ := List.any_eq_true.mp h
    exact ⟨c', by simpa [← beq_iff_eq.mp e] using mem⟩
  · exact ⟨c, List.mem_append_right _ (List.mem_singleton_self _)⟩

theorem rd_report (s : State) (u : UnitId) (c : FenceCause) (a : Nat) : (s.report u c).rd a = s.rd a := by
  unfold State.report
  split <;> rfl

/-- A channel in FAULT is reported to containment, and its event flag is raised. -/
theorem channelFault_faults (s : State) (hc : ch < 8) :
    (s.channelFault n ch).fld (Adr.flChSts n ch) 2 0 = 4 ∧ (∃ c, (UnitId.flashCh n ch, c) ∈ (s.channelFault n ch).fenceSoon) ∧
      (s.channelFault n ch).bit (Adr.flEvt n) 2 = true := by
  have evt : Adr.flEvt n ≠ Adr.flSts n := sliceAdr_ne (by decide)
  have sts : Adr.flChSts n ch ≠ Adr.flEvt n := flChSts_ne (by decide) hc
  unfold State.channelFault
  dsimp only
  refine ⟨?_, fenceSoon_report _ _ _, ?_⟩
  · rw [fld_of_rd (rd_report _ _ _ _), fld_of_rd (rd_evalFl_of_ne _ (flChSts_ne (by decide) hc)),
      fld_of_rd (rd_setBit_of_ne _ _ sts)]
    exact fld_putF_self s _ 2 0 4 (by decide) (by decide)
  · rw [bit_of_rd (rd_report _ _ _ _), bit_of_rd (rd_evalFl_of_ne _ evt)]
    exact bit_setBit_self _ _ 2 (by decide)

/-! ### Discovery and training -/

theorem held_serves (up : s.held = false) (media : s.mediaOn n = true) (hc : ch < 8) {c : Nat} (state : s.fld (Adr.flChSts n ch) 2 0 = c) :
    (s.held || !s.mediaOn n || decide (8 ≤ ch) || s.fld (Adr.flChSts n ch) 2 0 != c) = false := by
  simp [up, media, hc, state]

/-- Discovery of a channel that trains leaves it READY and writable, one that does not leaves it in FAULT and reported (R146). -/
theorem channelDiscovery_completes (vols : List VolumeId) (fails : Nat) (up : s.held = false) (media : s.mediaOn n = true) (hc : ch < 8)
    (training : s.fld (Adr.flChSts n ch) 2 0 = 1) :
    Completes (.channelDiscovery n ch vols fails) s fun t =>
      if fails < 4 then t.fld (Adr.flChSts n ch) 2 0 = 3 ∧ 8 * n + ch ∈ t.pins.wpN
      else t.fld (Adr.flChSts n ch) 2 0 = 4 ∧ (∃ c, (UnitId.flashCh n ch, c) ∈ t.fenceSoon) ∧ t.bit (Adr.flEvt n) 2 = true := by
  refine ⟨_, congrArg Host.Outcome.next (if_neg (by rw [held_serves up media hc training]; decide)), ?_⟩
  dsimp only
  by_cases few : fails < 4
  · rw [if_pos few, if_neg (Nat.not_le.mpr few)]
    refine ⟨(chState_settleTargets _ hc).trans (fld_putF_self _ _ 2 0 3 (by decide) (by decide)), ?_⟩
    rw [(settleTargets_frame _ n (.refl 0x20004 _) rfl).same .pins rfl]
    exact List.mem_append_right _ (List.mem_singleton_self _)
  · rw [if_neg few, if_pos (Nat.not_lt.mp few)]
    exact channelFault_faults _ hc

theorem onlyChanges_modSlice (s : State) (n : Nat) (f : Slice → Slice) (hf : ∀ x, (f x).slm = x.slm) : OnlyChanges [.slices] s (s.modSlice n f) :=
  onlyChanges_of_frame (modSlice_frame n f (.refl (partMask [.slices]) s) rfl (.of hf))

/-- The training of a channel in use, with its rate where a request asked for it (R165). -/
def retrained (s : State) (n ch : Nat) (ok : Bool) : State :=
  s.modSlice n fun x => { x with flash := { x.flash with
    retrain := x.flash.retrain.filter (· != ch),
    rates := if (s.slice n).flash.retrain.contains ch && ok then mapInsert x.flash.rates ch (s.fld (Adr.flChCtl n ch) 1 0) else x.flash.rates } }

theorem exec_flashRetrain (ok : Bool) (up : s.held = false) (media : s.mediaOn n = true) (hc : ch < 8) (ready : s.fld (Adr.flChSts n ch) 2 0 = 3) :
    exec (.flashRetrain n ch ok) s =
      .next (if ok then retrained s n ch ok else ((retrained s n ch ok).addF (Adr.flChSts n ch) 15 8 1).channelFault n ch) :=
  congrArg Host.Outcome.next (if_neg (by rw [held_serves up media hc ready]; decide))

/-- A retraining that succeeds applies the rate that a request selects (R165). -/
theorem flashRetrain_succeeds (up : s.held = false) (media : s.mediaOn n = true) (hc : ch < 8) (ready : s.fld (Adr.flChSts n ch) 2 0 = 3) :
    Completes (.flashRetrain n ch true) s fun t => OnlyChanges [.slices] s t ∧ ch ∉ (t.slice n).flash.retrain ∧
      (ch ∈ (s.slice n).flash.retrain → mapGet (t.slice n).flash.rates ch = some (s.fld (Adr.flChCtl n ch) 1 0)) ∧
      (ch ∉ (s.slice n).flash.retrain → (t.slice n).flash.rates = (s.slice n).flash.rates) := by
  refine ⟨_, exec_flashRetrain true up media hc ready, ?_⟩
  rw [if_pos rfl]
  refine ⟨onlyChanges_modSlice s n _ fun _ => rfl, ?_⟩
  unfold retrained
  rw [slice_modSlice_self _ (slice_lt_of_mediaOn media)]
  dsimp only
  refine ⟨by simp, fun asked => ?_, fun asked => ?_⟩
  · rw [List.contains_iff_mem.mpr asked, Bool.and_true, if_pos rfl, mapGet_mapInsert, if_pos rfl]
  · rw [List.contains_eq_mem, decide_eq_false asked, if_neg (by decide)]

/-- A retraining that fails leaves the channel in FAULT (R146, R165). -/
theorem flashRetrain_fails (up : s.held = false) (media : s.mediaOn n = true) (hc : ch < 8) (ready : s.fld (Adr.flChSts n ch) 2 0 = 3) :
    Completes (.flashRetrain n ch false) s fun t => t.fld (Adr.flChSts n ch) 2 0 = 4 ∧
      (∃ c, (UnitId.flashCh n ch, c) ∈ t.fenceSoon) ∧ t.bit (Adr.flEvt n) 2 = true :=
  ⟨_, exec_flashRetrain false up media hc ready, channelFault_faults _ hc⟩

/-! ### Polls (R164) -/

theorem workOn_mem {x : Slice} {lun : Nat} {p : FlWork → Bool} {w : FlWork} (h : x.workOn lun p = some w) : w ∈ x.flash.works :=
  List.mem_of_find?_eq_some h

/-- Where an operation is known by its number, it is changed. -/
theorem changed_work_mem {l : List FlWork} {w : FlWork} (f : FlWork → FlWork) (h : w ∈ l) : f w ∈ l.map fun v => if v.id = w.id then f v else v :=
  List.mem_map.mpr ⟨w, h, if_pos rfl⟩

/-- A poll that is due gives its operation the status that the LUN drives; one that ends it clears the time-outs (R148, R164). -/
theorem lunPollDue_completes {lun : Nat} {w : FlWork} (res : PollRes) (media : s.mediaOn n = true)
    (due : ((s.slice n).workOn lun fun v => v.stage == .busy && v.polled.isNone && decide (v.pollAt ≤ s.now)) = some w) :
    Completes (.lunPollDue n lun res) s fun t => OnlyChanges [.slices] s t ∧ { w with polled := some res } ∈ (t.slice n).flash.works ∧
      ∀ l ∈ (t.slice n).luns, l.lun = lun → res ≠ .busy → l.timeouts = 0 := by
  have executed : exec (.lunPollDue n lun res) s = .next (s.modSlice n fun x =>
      { x with luns := recMod Lun.lun x.luns lun fun l => if res = .busy then l else { l with timeouts := 0 },
               flash := { x.flash with works := x.flash.works.map fun v => if v.id = w.id then { v with polled := some res } else v } }) := by
    change execLunPollDue n lun res s = _
    rw [execLunPollDue, if_neg (by simp [media]), due]
  refine ⟨_, executed, onlyChanges_modSlice s n _ fun _ => rfl, ?_⟩
  rw [slice_modSlice_self _ (slice_lt_of_mediaOn media)]
  refine ⟨changed_work_mem (fun v => { v with polled := some res }) (workOn_mem due), fun l hl number answered => ?_⟩
  obtain ⟨k, _, rfl⟩ := List.mem_map.mp hl
  dsimp only at number ⊢
  split at number <;> rename_i same
  · rw [if_pos same, if_neg answered]
  · exact absurd number same

theorem lunPollDue_of_none {lun : Nat} (res : PollRes) (media : s.mediaOn n = true)
    (none_ : ((s.slice n).workOn lun fun v => v.stage == .busy && v.polled.isNone && decide (v.pollAt ≤ s.now)) = none) :
    exec (.lunPollDue n lun res) s = .next s := by
  change execLunPollDue n lun res s = _
  rw [execLunPollDue, if_neg (by simp [media]), none_]

end Sys2Proof.Proofs
end

section
/-!
LUNs of a slice (R136, R138, R148): time-outs of their operations, their health, and their evacuation.
-/

namespace Sys2Proof.Proofs

open Sys2Proof.Machine Sys2Proof.Laws

variable {s t : State} {n lun : Nat}

/-! ### Time-outs (R148) -/

theorem exec_operationTimeout {d : MediaDesc} {l : Lun} {w : FlWork} (ready : Bool) (media : s.mediaOn n = true) (described : s.desc n = some d)
    (found : (s.slice n).lun lun = some l) (failed : l.health ≠ .failed) (evacuated : l.health ≠ .evacuated)
    (late : (s.slice n).workOn lun (s.overdue d) = some w) :
    exec (.operationTimeout n lun ready) s =
      .next (if !ready then s.lunFailed n lun 3
        else if 1 ≤ l.timeouts then s.lunFailed n lun 1
        else s.modSlice n fun x =>
          { x with luns := recMod Lun.lun x.luns lun fun l => { l with timeouts := 1 },
                   flash := { x.flash with works := x.flash.works.map fun v => if v.id = w.id then v.repeated d else v } }) := by
  change execOperationTimeout n lun ready s = _
  rw [execOperationTimeout, described, found]
  dsimp only
  rw [late]
  exact congrArg Host.Outcome.next (if_neg (by simp [media, failed, evacuated]))

/-- An operation that is overdue is repeated once after a LUN Reset; a second time-out, or a LUN that is not ready, has failed (R148). -/
theorem operationTimeout_completes {d : MediaDesc} {l : Lun} {w : FlWork} (ready : Bool) (media : s.mediaOn n = true) (described : s.desc n = some d)
    (found : (s.slice n).lun lun = some l) (failed : l.health ≠ .failed) (evacuated : l.health ≠ .evacuated)
    (late : (s.slice n).workOn lun (s.overdue d) = some w) :
    Completes (.operationTimeout n lun ready) s fun t =>
      if l.timeouts = 0 ∧ ready = true then (t.slice n).lun lun = some { l with timeouts := 1 } ∧
        w.repeated d ∈ (t.slice n).flash.works ∧ OnlyChanges [.slices] s t
      else ((t.slice n).lun lun).map Lun.health = some .failed ∧ t.bit (Adr.flEvt n) 3 = true := by
  have here := slice_lt_of_mediaOn media
  refine ⟨_, exec_operationTimeout ready media described found failed evacuated late, ?_⟩
  cases ready with
  | false =>
    rw [if_neg (fun h : l.timeouts = 0 ∧ false = true => Bool.noConfusion h.2), if_pos (show (!false) = true from rfl)]
    exact lunFailed_fails here found failed evacuated 3
  | true =>
    rw [if_neg (show ¬(!true) = true by decide)]
    by_cases again : 1 ≤ l.timeouts
    · rw [if_pos again, if_neg (fun h : l.timeouts = 0 ∧ true = true => absurd h.1 (by omega))]
      exact lunFailed_fails here found failed evacuated 1
    · rw [if_neg again, if_pos ⟨Nat.eq_zero_of_not_pos again, rfl⟩]
      refine ⟨?_, ?_, onlyChanges_modSlice s n _ fun _ => rfl⟩
      · rw [slice_modSlice_self _ here]
        refine (lun_recMod (s.slice n) lun lun _ ?_).trans ?_
        · exact fun _ => rfl
        · rw [found, Option.map_some, if_pos rfl]
      · rw [slice_modSlice_self _ here]
        exact changed_work_mem (fun v => v.repeated d) (workOn_mem late)

theorem operationTimeout_of_none {d : MediaDesc} {l : Lun} (ready : Bool) (described : s.desc n = some d) (found : (s.slice n).lun lun = some l)
    (none_ : (s.slice n).workOn lun (s.overdue d) = none) : exec (.operationTimeout n lun ready) s = .next s := by
  change execOperationTimeout n lun ready s = _
  rw [execOperationTimeout, described, found]
  dsimp only
  rw [none_]

/-! ### Evacuations (R138) -/

theorem luns_evacuate (s : State) (n lun : Nat) (k : Nat) : ((s.evacuate n lun).slice k).luns = (s.slice k).luns := by
  unfold State.evacuate
  extract_lets bad bytes left under
  split
  · rw [slice_putF]
  · rw [slice_putF, slice_putF, slice_putF]
    refine .trans ?_ (show (left.slice k).luns = _ from ?_)
    · exact modSlice_keeps Slice.luns left n k _ fun _ => rfl
    dsimp only [left]
    split
    · rfl
    · exact modSlice_keeps Slice.luns s n k _ fun _ => rfl

/-- A request for a LUN in service is REFUSED while another runs, and runs otherwise (R138). -/
theorem evacuate_answers {l : Lun} (here : n < s.slices.length) (found : (s.slice n).lun lun = some l) (active : l.active = true)
    (failed : l.health ≠ .failed) (evacuated : l.health ≠ .evacuated) :
    if (s.slice n).evacuating = none then
      ((s.evacuate n lun).slice n).evacuating = some lun ∧ (s.evacuate n lun).fld (Adr.ftEvacSts n) 31 30 = 1
    else (s.evacuate n lun).slices = s.slices ∧ (s.evacuate n lun).fld (Adr.ftEvacSts n) 31 30 = 3 := by
  unfold State.evacuate
  extract_lets bad bytes left under
  have serves : bad = false := by simp [bad, found, active, failed, evacuated]
  split
  · next idle =>
    rw [idle, serves, if_neg (by decide)]
    have there : n < left.slices.length := by
      dsimp only [left]
      split
      · exact here
      · exact (slices_length_modSlice s n _).symm ▸ here
    refine ⟨?_, ?_⟩
    · rw [slice_putF, slice_putF, slice_putF, slice_modSlice_self _ there]
    · rw [fld_putF_of_out _ _ 8 0 lun 31 30 (by decide) (by decide) (by decide) (by decide),
        fld_putF_of_out _ _ 23 16 0 31 30 (by decide) (by decide) (by decide) (by decide)]
      exact fld_putF_self _ _ 31 30 1 (by decide) (by decide)
  · next busy =>
    rw [if_pos (by simp [Option.isSome_iff_ne_none.mpr busy])]
    exact ⟨slices_putF s _ _ _ _, fld_putF_self s _ 31 30 3 (by decide) (by decide)⟩

theorem evacuationGo_completes {l : Lun} (up : s.sliceUp n = true) (found : (s.slice n).lun lun = some l) (active : l.active = true)
    (failed : l.health ≠ .failed) (evacuated : l.health ≠ .evacuated) :
    Completes (.evacuationGo n lun false) s fun t =>
      if (s.slice n).evacuating = none then (t.slice n).evacuating = some lun ∧ t.fld (Adr.ftEvacSts n) 31 30 = 1
      else t.slices = s.slices ∧ t.fld (Adr.ftEvacSts n) 31 30 = 3 :=
  ⟨_, congrArg Host.Outcome.next (if_neg (by simp [up])),
    evacuate_answers (s := s.putF (Adr.ftEvacCtl n) 8 0 lun) (slice_lt_of_sliceUp up) found active failed evacuated⟩

/-- A LUN in WARN is evacuated of the device's own accord where AUTO says so (R138). -/
theorem evacuationGo_of_auto {l : Lun} (up : s.sliceUp n = true) (found : (s.slice n).lun lun = some l) (active : l.active = true)
    (warned : l.health = .warn) (idle : (s.slice n).evacuating = none) :
    (s.bit (Adr.ftEvacCtl n) 30 = true → Completes (.evacuationGo n lun true) s fun t =>
      (t.slice n).evacuating = some lun ∧ t.fld (Adr.ftEvacSts n) 31 30 = 1) ∧
    (s.bit (Adr.ftEvacCtl n) 30 = false → exec (.evacuationGo n lun true) s = .next s) := by
  have executed : exec (.evacuationGo n lun true) s = .next (if s.bit (Adr.ftEvacCtl n) 30 then s.evacuate n lun else s) := by
    change execEvacuationGo n lun true s = _
    rw [execEvacuationGo, if_neg (by simp [up]), if_pos rfl, found]
    simp [warned]
  refine ⟨fun auto => ⟨_, executed, ?_⟩, fun manual => ?_⟩
  · have runs := evacuate_answers (slice_lt_of_sliceUp up) found active (by rw [warned]; decide) (by rw [warned]; decide)
    rw [if_pos idle] at runs
    rw [if_pos auto]
    exact runs
  · rw [executed, manual]
    rfl

/-! ### The end of an evacuation (R121, R138) -/

/-- A LUN's record where its evacuation ends. -/
def lunLeft (now : Nat) (l : Lun) : Lun := if l.health = .failed then l else { l with health := .evacuated, changedAt := now }

theorem lunLeft_health (now : Nat) (l : Lun) : (lunLeft now l).health = .failed ∨ (lunLeft now l).health = .evacuated := by
  unfold lunLeft
  split
  · next h => exact .inl h
  · exact .inr rfl

/-- The LUN retired as EVACUATED, before the slice's reserve and its figures are settled. -/
def evacuationShown (s : State) (n lun : Nat) : State :=
  (((s.modSlice n fun x =>
      { (x.rewind lun) with
        evacuating := none, reserve := x.reserve.filter fun r => r.lun != lun, luns := recMod Lun.lun x.luns lun (lunLeft s.now) }).putF
    (Adr.flTgtSts n (lunTarget lun)) (17 + 2 * (lun % 4)) (16 + 2 * (lun % 4)) 2).putF (Adr.ftEvacSts n) 31 30 2).putF (Adr.ftEvacSts n) 23 16 100

theorem exec_evacuationDone (up : s.sliceUp n = true) (under : (s.slice n).evacuating = some lun) (empty : s.bytesOn n lun = 0) :
    exec (.evacuationDone n) s = .next ((((evacuationShown s n lun).sizeReserve n false).evalSpare n).evalExposed n) := by
  change execEvacuationDone n s = _
  rw [execEvacuationDone, under]
  exact congrArg Host.Outcome.next (if_neg (by simp [up, empty]))

theorem evacuationDone_of_valid (under : (s.slice n).evacuating = some lun) (left : s.bytesOn n lun ≠ 0) :
    exec (.evacuationDone n) s = .next s := by
  change execEvacuationDone n s = _
  rw [execEvacuationDone, under]
  exact congrArg Host.Outcome.next (if_pos (by simp [left]))

/-- Once nothing valid is left on the LUN, it ends EVACUATED unless it failed (R121, R138). -/
theorem evacuationDone_completes (up : s.sliceUp n = true) (under : (s.slice n).evacuating = some lun) (empty : s.bytesOn n lun = 0) :
    Completes (.evacuationDone n) s fun t => (t.slice n).evacuating = none ∧
      (∀ l ∈ (t.slice n).luns, l.lun = lun → l.health = .failed ∨ l.health = .evacuated) ∧ t.fld (Adr.ftEvacSts n) 31 30 = 2 := by
  refine ⟨_, exec_evacuationDone up under empty, ?_⟩
  have sized := queuesOnly_sizeReserve (evacuationShown s n lun) n false
  obtain ⟨_, spared⟩ := slice_evalSpare ((evacuationShown s n lun).sizeReserve n false) n n
  obtain ⟨_, _, _, kept⟩ := sized.slices n
  have shown_ : (evacuationShown s n lun).slice n = { ((s.slice n).rewind lun) with
      evacuating := none, reserve := (s.slice n).reserve.filter fun r => r.lun != lun,
      luns := recMod Lun.lun (s.slice n).luns lun (lunLeft s.now) } := by
    unfold evacuationShown
    rw [slice_putF, slice_putF, slice_putF]
    exact slice_modSlice_self _ (slice_lt_of_sliceUp up)
  have final := (slice_congr (slices_evalExposed _ n) n).trans (spared.trans (by rw [kept, shown_]))
  have result : ((((evacuationShown s n lun).sizeReserve n false).evalSpare n).evalExposed n).rd (Adr.ftEvacSts n) =
      (evacuationShown s n lun).rd (Adr.ftEvacSts n) := by
    have sts : Adr.ftEvacSts n ≠ Adr.ftSts n := sliceAdr_ne (by decide)
    have evt : Adr.ftEvacSts n ≠ Adr.ftEvt n := sliceAdr_ne (by decide)
    have spare : Adr.ftEvacSts n ≠ Adr.ftSpare n := sliceAdr_ne (by decide)
    rw [State.evalExposed, rd_putBit_of_ne _ _ _ sts, rd_evalSpare_of_ne _ sts evt spare, sized.rd]
  dsimp only
  rw [final, fld_of_rd result]
  refine ⟨rfl, fun l hl number => ?_, ?_⟩
  · obtain ⟨k, _, rfl⟩ := List.mem_map.mp hl
    split at number <;> rename_i same
    · rw [if_pos same]
      exact lunLeft_health _ k
    · exact absurd number same
  · unfold evacuationShown
    rw [fld_putF_of_out _ _ 23 16 100 31 30 (by decide) (by decide) (by decide) (by decide)]
    exact fld_putF_self _ _ 31 30 2 (by decide) (by decide)

/-! ### Health (R136, R137) -/

/-- A LUN's record after an evaluation that gave h. -/
def lunEvaluated (now : Nat) (h : Health × Nat) (forward : Bool) (l : Lun) : Lun :=
  { l with health := if forward then h.1 else l.health, cause := l.cause ||| h.2, changedAt := if forward then now else l.changedAt }

theorem exec_lunHealthEval {d : MediaDesc} {l : Lun} (r2 r4 : Nat) (up : s.sliceUp n = true) (described : s.desc n = some d)
    (found : (s.slice n).lun lun = some l) (good : l.good = true) :
    ∃ t, exec (.lunHealthEval n lun r2 r4) s = .next t ∧ (t.slice n).luns =
      ((s.modSlice n fun x => { x with luns := recMod Lun.lun x.luns lun (lunEvaluated s.now (s.healthOf n d l r2 r4)
        (decide (l.health.code < (s.healthOf n d l r2 r4).1.code))) }).slice n).luns := by
  change ∃ t, execLunHealthEval n lun r2 r4 s = _ ∧ _
  rw [execLunHealthEval, described, found]
  refine ⟨_, congrArg Host.Outcome.next (if_neg (by simp [up, good])), ?_⟩
  extract_lets h forward marked exposed warned
  have same : (exposed.slice n).luns = (marked.slice n).luns := congrArg Slice.luns (slice_congr (slices_evalExposed _ n) n)
  split
  · split
    · exact (luns_evacuate warned n lun n).trans same
    · exact same
  · exact same

/-- A health evaluation only moves forward (R136). -/
theorem lunHealthEval_completes {d : MediaDesc} {l : Lun} (r2 r4 : Nat) (up : s.sliceUp n = true) (described : s.desc n = some d)
    (found : (s.slice n).lun lun = some l) (good : l.good = true) :
    Completes (.lunHealthEval n lun r2 r4) s fun t => ((t.slice n).lun lun).map Lun.health =
      some (if l.health.code < (s.healthOf n d l r2 r4).1.code then (s.healthOf n d l r2 r4).1 else l.health) := by
  obtain ⟨t, executed, luns⟩ := exec_lunHealthEval r2 r4 up described found good
  refine ⟨t, executed, ?_⟩
  rw [slice_modSlice_self _ (slice_lt_of_sliceUp up)] at luns
  have evaluated : (t.slice n).lun lun = some (lunEvaluated s.now (s.healthOf n d l r2 r4)
      (decide (l.health.code < (s.healthOf n d l r2 r4).1.code)) l) := by
    rw [Slice.lun, luns]
    refine (lun_recMod (s.slice n) lun lun _ ?_).trans ?_
    · exact fun _ => rfl
    · rw [found, Option.map_some, if_pos rfl]
  dsimp only
  rw [evaluated]
  by_cases forward : l.health.code < (s.healthOf n d l r2 r4).1.code
  · simp [lunEvaluated, forward]
  · simp [lunEvaluated, forward]

end Sys2Proof.Proofs
end

section
namespace Sys2Proof.Proofs

open Sys2Proof.Machine Sys2Proof.Laws

/-- Settles O48: a format's request and its end, discovery and training, polls, time-outs, health and evacuation, each by the law of its command. -/
theorem slicesAreFormattedAndKeptHealthy : Obligations.SlicesAreFormattedAndKeptHealthy := by
  unfold Obligations.SlicesAreFormattedAndKeptHealthy
  refine ⟨fun n mu s up present eight idle => ⟨sliceFormat_runs up present eight idle, sliceFormat_refused up present idle⟩,
    fun n mu s up present running => sliceFormat_ignored up present running,
    fun n mu d fails s up formatting described => sliceFormatDone_completes fails up formatting described,
    fun s => ⟨_, rfl, rfl, commandsChangeOnlyTheirFootprint .devWearRateUpdate s _ rfl⟩,
    fun n ch fails vols s up media hc training => channelDiscovery_completes vols fails up media hc training,
    fun n ch s up media hc ready => ⟨flashRetrain_succeeds up media hc ready, flashRetrain_fails up media hc ready⟩,
    fun n s => ⟨s, rfl, rfl⟩,
    fun n lun res s media => ⟨fun w due => lunPollDue_completes res media due, lunPollDue_of_none res media⟩,
    fun n lun ready s d l media described found failed evacuated =>
      ⟨fun w late => operationTimeout_completes ready media described found failed evacuated late, operationTimeout_of_none ready described found⟩,
    fun n lun r2 r4 s d l up described found good => lunHealthEval_completes r2 r4 up described found good,
    fun n lun s l up found active failed evacuated => evacuationGo_completes up found active failed evacuated,
    fun n lun s l up found active warned idle => evacuationGo_of_auto up found active warned idle,
    fun n lun s up under => ⟨evacuationDone_completes up under, evacuationDone_of_valid under⟩⟩

end Sys2Proof.Proofs
end

section
/-!
Programs, erases and reads that fail (R115 to R119, R148): what they make known stays known through the repairs that follow.
-/

namespace Sys2Proof.Proofs

open Sys2Proof.Machine Sys2Proof.Laws

variable {s t : State} {n lun : Nat}

/-! ### Repairs that keep what is known to have failed -/

theorem keepsFailures_dropWork1 (s : State) (id : Nat) : KeepsFailures n s (s.dropWork1 n id) :=
  keepsFailures_of_same s _ (fun _ => rfl) fun _ => rfl

theorem keepsFailures_closeDone (s : State) (seq : Nat) : KeepsFailures n s (s.closeDone n seq) :=
  keepsFailures_of_same s _ (fun _ => rfl) fun _ => rfl

theorem keepsFailures_parityDue (s : State) (d : MediaDesc) (seq : Nat) : KeepsFailures n s (s.parityDue n d seq) :=
  (queuesOnly_parityDue s n d seq).failures

theorem keepsFailures_rewind (s : State) (lun : Nat) : KeepsFailures n s (s.modSlice n fun x => x.rewind lun) :=
  keepsFailures_of_same s _ (fun x => luns_rewind x lun) fun x => blocks_rewind x lun

theorem keepsFailures_failBlock (s : State) (seq b : Nat) : KeepsFailures n s (s.failBlock n seq lun b) := by
  unfold State.failBlock
  split
  · dsimp only
    refine (KeepsFailures.trans ?_ (keepsFailures_markBlock _ lun b)).trans
      ((keepsFailures_sweepFailed _ _ _ _).trans (keepsFailures_closeDone _ seq))
    exact keepsFailures_of_same s _ (fun _ => rfl) fun _ => rfl
  · exact .refl n s

theorem keepsFailures_failParity (s : State) (b : Nat) : KeepsFailures n s (s.failParity n lun b) := by
  unfold State.failParity
  extract_lets ws dropped hit redo marked
  have marks : KeepsFailures n s marked := by
    refine .trans (.trans (t := dropped) ?_ ?_) (keepsFailures_markBlock _ lun b)
    · exact keepsFailures_of_same s _ (fun _ => rfl) fun _ => rfl
    · exact keepsFailures_of_same dropped _ (fun _ => rfl) fun _ => rfl
  split
  · exact marks
  · exact marks.trans (keepsFailures_foldl _ (fun r q => keepsFailures_parityDue r _ q) _ _)

theorem keepsFailures_keepMore (s : State) (d : MediaDesc) (lun : Nat) (use : ResUse) (ready : Bool) (k : Slice → Nat) :
    KeepsFailures n s (s.modSlice n fun x => x.keepMore d lun use ready (k x)) := by
  refine keepsFailures_of_same s _ (fun x => ?_) fun x => ?_
  · obtain ⟨r, e⟩ := reserve_keepMore x d lun use ready (k x)
    rw [e]
  · obtain ⟨r, e⟩ := reserve_keepMore x d lun use ready (k x)
    rw [e]

theorem keepsFailures_releaseParity (s : State) (seq : Nat) : KeepsFailures n s (s.releaseParity n seq) := by
  unfold State.releaseParity
  dsimp only
  refine .trans ?_ (keepsFailures_foldl _ (fun r q => ?_) _ _)
  · exact keepsFailures_of_same s _ (fun _ => rfl) fun _ => rfl
  · split
    · exact .refl n r
    · split
      · have retired := keepsFailures_retireBlock (n := n) r q.1 q.2
        split
        · exact retired
        · exact retired.trans (keepsFailures_keepMore _ _ q.1 _ _ _)
      · refine keepsFailures_of_same r _ (fun x => ?_) fun x => ?_
        · split <;> rfl
        · split <;> rfl

theorem keepsFailures_freeSuper (s : State) (seq : Nat) : KeepsFailures n s (s.freeSuper n seq) := by
  unfold State.freeSuper
  split
  · exact .refl n s
  · dsimp only
    refine .trans (.trans (.trans (keepsFailures_releaseParity s seq) ?_) (keepsFailures_foldl _ (fun r q => ?_) _ _)) (keepsFailures_evalSpare _)
    · exact keepsFailures_of_same _ _ (fun _ => rfl) fun _ => rfl
    · split
      · exact keepsFailures_retireBlock r q.1 q.2
      · exact .refl n r

theorem keepsFailures_replaceBlock (s : State) (seq b : Nat) (m : CellMode) (rate : Nat) :
    KeepsFailures n s (s.replaceBlock n seq lun b m rate) := by
  unfold State.replaceBlock
  split
  · exact .refl n s
  · split
    · refine .trans ?_ (queuesOnly_queueErase _ n lun _ m rate _).failures
      exact keepsFailures_of_same s _ (fun _ => rfl) fun _ => rfl
    · extract_lets left
      have leaves : KeepsFailures n s left := keepsFailures_of_same s _ (fun _ => rfl) fun _ => rfl
      split
      · exact leaves.trans (keepsFailures_freeSuper _ seq)
      · exact leaves

/-! ### A failure counted (R148) -/

/-- A LUN's record with the failure of a block. -/
def lunCounted (now b : Nat) (l : Lun) : Lun :=
  { l with failedBlocks := l.failedBlocks.filter (fun q => q.1 != b && decide (now < q.2 + dayCourses)) ++ [(b, now)] }

/-- The failure of a block on its LUN's record. -/
def failureCounted (s : State) (n lun b : Nat) : State :=
  s.modSlice n fun x => { x with luns := recMod Lun.lun x.luns lun (lunCounted s.now b) }

theorem lun_failureCounted (here : n < s.slices.length) (lun b : Nat) :
    ((failureCounted s n lun b).slice n).lun lun = ((s.slice n).lun lun).map (lunCounted s.now b) := by
  unfold failureCounted
  rw [slice_modSlice_self _ here]
  refine (lun_recMod (s.slice n) lun lun _ ?_).trans ?_
  · exact fun _ => rfl
  · simp

theorem countFailure_eq (s : State) (n lun b : Nat) :
    s.countFailure n lun b = if ((failureCounted s n lun b).slice n).lun lun |>.any fun l => decide (16 ≤ l.failedBlocks.length)
      then (failureCounted s n lun b).lunFailed n lun 2 else failureCounted s n lun b := rfl

theorem keepsFailures_afterCounted (s : State) (lun b : Nat) : KeepsFailures n (failureCounted s n lun b) (s.countFailure n lun b) := by
  rw [countFailure_eq]
  split
  · exact keepsFailures_lunFailed _ lun 2
  · exact .refl n _

/-- A failure counted is on its LUN's record (R148). -/
theorem countFailure_counts {b : Nat} (here : n < s.slices.length) (known : (s.slice n).lun lun ≠ none) :
    (((s.countFailure n lun b).slice n).lun lun).any (fun l => l.failedBlocks.contains (b, s.now)) = true := by
  obtain ⟨l, found⟩ := Option.ne_none_iff_exists'.mp known
  have kept := (keepsFailures_afterCounted (n := n) s lun b).blocks lun
  rw [lun_failureCounted here, found, Option.map_some, Option.map_some] at kept
  obtain ⟨k, e, failed⟩ := Option.map_eq_some_iff.mp kept
  rw [e, Option.any_some, failed]
  simp [lunCounted]

theorem countFailure_retired (s : State) (lun b k c : Nat) (h : ((s.slice n).block k c).retired = true) :
    (((s.countFailure n lun b).slice n).block k c).retired = true := by
  refine (keepsFailures_afterCounted (n := n) s lun b).retired k c ?_
  unfold failureCounted
  refine (modSlice_keeps (fun x : Slice => (x.block k c).retired) s n n _ ?_).trans h
  exact fun _ => rfl

/-! ### A failed program (R119) -/

/-- The repairs of a failed program, before the failure is counted. -/
def programRepaired (s : State) (n lun : Nat) (w : FlWork) : State :=
  let t := s.dropWork1 n w.id
  match w.why with
  | .page seq _ => t.failBlock n seq lun w.block
  | .parity seq seg k =>
    let u := t.failParity n lun w.block
    let u := u.modSlice n fun x => { x with parity := x.parity.filter fun p => !(p.sb == seq && p.seg == seg && p.k == k && p.block == w.block) }
    match u.desc n with
    | none => u
    | some d => u.parityDue n d seq
  | .metadata => (t.modSlice n fun x => x.rewind lun).markBlock n lun w.block
  | _ => t

theorem exec_programFailed {x : FlWork} (media : s.mediaOn n = true) (ended : (s.slice n).endedOn lun .program false = some x) :
    exec (.programFailed n lun x.block x.row) s = .next ((programRepaired s n lun x).countFailure n lun x.block) := by
  change execProgramFailed n lun x.block x.row s = _
  rw [execProgramFailed, ended]
  exact congrArg Host.Outcome.next (if_neg (by simp [media]))

theorem keepsFailures_programRepaired (s : State) (lun : Nat) (w : FlWork) : KeepsFailures n s (programRepaired s n lun w) := by
  unfold programRepaired
  extract_lets t
  have dropped : KeepsFailures n s t := keepsFailures_dropWork1 s w.id
  split
  · exact dropped.trans (keepsFailures_failBlock _ _ _)
  · next seq seg k _ =>
    dsimp only
    have failed := dropped.trans (keepsFailures_failParity (lun := lun) t w.block)
    have redone := failed.trans (keepsFailures_of_same (n := n) (t.failParity n lun w.block)
      (fun x => { x with parity := x.parity.filter fun p => !(p.sb == seq && p.seg == seg && p.k == k && p.block == w.block) })
      (fun _ => rfl) fun _ => rfl)
    split
    · exact redone
    · exact redone.trans (keepsFailures_parityDue _ _ seq)
  · exact dropped.trans ((keepsFailures_rewind t lun).trans (keepsFailures_markBlock _ lun w.block))
  · exact dropped

theorem slice_lt_of_lun (known : (s.slice n).lun lun ≠ none) : n < s.slices.length := by
  refine slice_lt_of_ne_reset fun e => known ?_
  rw [e]
  rfl

theorem KeepsFailures.known (h : KeepsFailures n s t) (known : (s.slice n).lun lun ≠ none) : (t.slice n).lun lun ≠ none := fun none_ => by
  have blocks := h.blocks lun
  rw [none_] at blocks
  exact known (Option.map_eq_none_iff.mp blocks.symm)

/-- When a program fails, its block is on the record of the failures of its LUN (R119, R148). -/
theorem programFailed_counts {x : FlWork} (media : s.mediaOn n = true) (ended : (s.slice n).endedOn lun .program false = some x)
    (known : (s.slice n).lun lun ≠ none) :
    Completes (.programFailed n lun x.block x.row) s fun t =>
      ((t.slice n).lun lun).any (fun l => l.failedBlocks.contains (x.block, s.now)) = true := by
  refine ⟨_, exec_programFailed media ended, ?_⟩
  have repairs := keepsFailures_programRepaired (n := n) s lun x
  have counted := countFailure_counts (b := x.block) (slice_lt_of_lun (repairs.known known)) (repairs.known known)
  rwa [State.now, repairs.course] at counted

/-! ### A failed erase (R118) -/

/-- What takes the place of a block that failed to erase. -/
def eraseRepaired (s : State) (n lun : Nat) (w : FlWork) : State :=
  let t := (s.dropWork1 n w.id).retireBlock n lun w.block
  match w.why with
  | .block seq => t.replaceBlock n seq lun w.block w.mode w.rate
  | .reserve => t.sizeReserve n false
  | .metadata => t.modSlice n fun x => x.rewind lun
  | _ => t

theorem exec_eraseFailed {x : FlWork} (media : s.mediaOn n = true) (ended : (s.slice n).endedOn lun .erase false = some x) :
    exec (.eraseFailed n lun x.block) s = .next ((eraseRepaired s n lun x).countFailure n lun x.block) := by
  change execEraseFailed n lun x.block s = _
  rw [execEraseFailed, ended]
  exact congrArg Host.Outcome.next (if_neg (by simp [media]))

theorem retireBlock_retires {b : Nat} (here : n < s.slices.length) : (((s.retireBlock n lun b).slice n).block lun b).retired = true := by
  unfold State.retireBlock
  split
  · assumption
  · refine (keepsFailures_evalSpare _).retired lun b ?_
    rw [slice_modSlice_self _ here]
    refine (congrArg BlockInfo.retired (block_congr (x := (s.slice n).modBlock lun b fun i => { i with retired := true, marked := true }) rfl lun b)).trans ?_
    refine (congrArg BlockInfo.retired (block_modBlock (s.slice n) lun b lun b _ ?_)).trans ?_
    · exact fun _ => ⟨rfl, rfl⟩
    · rw [if_pos ⟨rfl, rfl⟩]

/-- A block whose erase failed is retired (R118). -/
theorem eraseFailed_retires {x : FlWork} (media : s.mediaOn n = true) (ended : (s.slice n).endedOn lun .erase false = some x) :
    Completes (.eraseFailed n lun x.block) s fun t => ((t.slice n).block lun x.block).retired = true := by
  refine ⟨_, exec_eraseFailed media ended, countFailure_retired _ lun x.block lun x.block ?_⟩
  unfold eraseRepaired
  extract_lets t
  have retired : ((t.slice n).block lun x.block).retired = true :=
    retireBlock_retires ((slices_length_modSlice s n _).symm ▸ slice_lt_of_mediaOn media)
  split
  · exact (keepsFailures_replaceBlock t _ _ _ _).retired _ _ retired
  · exact (queuesOnly_sizeReserve t n false).failures.retired _ _ retired
  · exact (keepsFailures_rewind t lun).retired _ _ retired
  · exact retired

end Sys2Proof.Proofs
end

section
/-!
Codewords decoded (R116, R148, R157 to R160): counted by their level, delivered or checked, and the flags of those that are uncorrectable.
-/

namespace Sys2Proof.Proofs

open Sys2Proof.Machine Sys2Proof.Laws

variable {s t : State} {n c w ix : Nat} {p : ReadPass}

/-! ### A codeword counted -/

/-- The codeword recorded and counted by its level. -/
def passLevelled (s : State) (n : Nat) (p : ReadPass) : State :=
  let s := s.recordPass p
  let s := if p.erased then s else s.inc (passCounter n (lunCh p.lun) p)
  if p.addrMismatch then s.setBit (Adr.flEvt n) 4 else s

/-- The codeword counted, for its channel, its block and its LUN. -/
def passCounted (s : State) (n : Nat) (p : ReadPass) : State := ((passLevelled s n p).keepLevel n p).countUncorr n p

/-- The READ_DONE operand of a codeword. -/
def readDone (s : State) (p : ReadPass) : Operand := opOf 4 p.ptr (BitVec.ofNat 32 s.free.1) 0 (lunCh p.lun)

/-- The READ_DONE operand of a codeword, delivered. -/
def passDelivered (s : State) (n c w ix : Nat) (p : ReadPass) : State := s.free.2.deliver n c w ix (readDone s p)

theorem exec_readPassDone (media : s.mediaOn n = true) :
    exec (.readPassDone n c w ix p) s = .next (match p.verifySb with
      | some seq => (passCounted s n p).verifyPass n seq p
      | none => passDelivered (if badPass p || !p.tagOk then (passCounted s n p).spoilUnits n p else passCounted s n p) n c w ix p) :=
  congrArg Host.Outcome.next (if_neg (by simp [media]))

theorem badPass_of_good (correctable : p.uncorrectable = false) (addressed : p.addrMismatch = false) : badPass p = false := by
  simp [badPass, correctable, addressed]

theorem badPass_of_bad (written : p.erased = false) (bad : p.uncorrectable = true ∨ p.addrMismatch = true) : badPass p = true := by
  simp [badPass, written, bad]

theorem rd_recordPass (s : State) (p : ReadPass) (a : Nat) : (s.recordPass p).rd a = s.rd a := by
  have kept := recordPass_frame s p (.refl 0x100000000000 s) rfl
  exact rd_of_regs (kept.same .regs rfl) (kept.same .part rfl) a

theorem slices_recordPass (s : State) (p : ReadPass) : (s.recordPass p).slices = s.slices :=
  (recordPass_frame s p (.refl 0x100000000000 s) rfl).same .slices rfl

theorem slices_passLevelled (s : State) (n : Nat) (p : ReadPass) : (passLevelled s n p).slices = s.slices := by
  have recorded := slices_recordPass s p
  unfold passLevelled
  dsimp only
  split <;> split <;> exact recorded

/-- A good codeword's level and the end of a run of bad ones are known of its block and its LUN only. -/
theorem countUncorr_keepLevel_of_good (s : State) (n : Nat) (good : badPass p = false) :
    Frame 0x20000 s ((s.keepLevel n p).countUncorr n p) ∧
      ∀ k, ∃ l b, ((s.keepLevel n p).countUncorr n p).slice k = { s.slice k with luns := l, blocks := b } := by
  have levelled : ∀ k, ∃ b, (s.keepLevel n p).slice k = { s.slice k with blocks := b } := fun k => by
    unfold State.keepLevel
    split
    · exact ⟨_, rfl⟩
    · rcases slice_modSlice_cases s n k fun x => x.modBlock p.lun p.block fun i => { i with level := p.level } with e | e
      · exact ⟨_, e⟩
      · exact ⟨_, e⟩
  rw [State.countUncorr, good, if_pos (by decide)]
  refine ⟨modSlice_frame n _ (keepLevel_frame s n p (.refl 0x20000 s) rfl) rfl (.of fun _ => rfl), fun k => ?_⟩
  obtain ⟨b, e⟩ := levelled k
  rcases slice_modSlice_cases (s.keepLevel n p) n k fun x =>
    { x with luns := recMod Lun.lun x.luns p.lun fun l => { l with uncorrRun := 0, uncorrBlocks := [] } } with e' | e'
  · exact ⟨_, b, e'.trans (by rw [e])⟩
  · exact ⟨_, b, e'.trans e⟩

/-- A good codeword in the slices: the level of its block and the run of its LUN. -/
theorem slice_passCounted (s : State) (n k : Nat) (good : badPass p = false) :
    ∃ l b, (passCounted s n p).slice k = { s.slice k with luns := l, blocks := b } := by
  obtain ⟨l, b, e⟩ := (countUncorr_keepLevel_of_good (passLevelled s n p) n good).2 k
  exact ⟨l, b, by rw [passCounted, e, slice_congr (slices_passLevelled s n p)]⟩

/-- A good codeword in the registers: the counter of its level, unless it was ERASED. -/
theorem passCounted_of_good (s : State) (n : Nat) (good : badPass p = false) (addressed : p.addrMismatch = false) :
    Frame 0x20000 (if p.erased then s.recordPass p else (s.recordPass p).inc (passCounter n (lunCh p.lun) p)) (passCounted s n p) := by
  have counted := (countUncorr_keepLevel_of_good (passLevelled s n p) n good).1
  have levelled : passLevelled s n p = if p.erased then s.recordPass p else (s.recordPass p).inc (passCounter n (lunCh p.lun) p) := by
    rw [passLevelled, addressed]
    rfl
  exact levelled ▸ counted

theorem now_passCounted (s : State) (n : Nat) (good : badPass p = false) (addressed : p.addrMismatch = false) :
    (passCounted s n p).now = s.now := by
  have recorded : (s.recordPass p).course = s.course := (recordPass_frame s p (.refl 0x100000000000 s) rfl).same .course rfl
  have counted := (passCounted_of_good s n good addressed).same .course rfl
  refine congrArg Course.count (counted.trans ?_)
  split <;> exact recorded

theorem rd_passCounted_of_written (s : State) (n a : Nat) (good : badPass p = false) (addressed : p.addrMismatch = false)
    (written : p.erased = false) : (passCounted s n p).rd a = ((s.recordPass p).inc (passCounter n (lunCh p.lun) p)).rd a := by
  have counted := passCounted_of_good s n good addressed
  rw [written] at counted
  exact rd_of_regs (counted.same .regs rfl) (counted.same .part rfl) a

/-! ### A codeword delivered (R157, R225) -/

theorem fld_inc_self (s : State) (a : Nat) : (s.inc a).fld a 31 0 = min (2 ^ 32 - 1) (s.fld a 31 0 + 1) := by
  refine (fld_putF_self s a 31 0 _ (by decide) (by decide)).trans (Nat.mod_eq_of_lt ?_)
  have : min (2 ^ (31 - 0 + 1) - 1) (s.fld a 31 0 + 1) ≤ 2 ^ (31 - 0 + 1) - 1 := Nat.min_le_left _ _
  omega

/-- A good codeword that no verification asked for reaches its item; it is counted by its level unless it was ERASED (R157, R160, R225). -/
theorem readPassDone_delivers {i : WorkItem} (media : s.mediaOn n = true) (asked : p.verifySb = none) (correctable : p.uncorrectable = false)
    (addressed : p.addrMismatch = false) (tagged : p.tagOk = true) (held : (s.cluster n c).item w = some i) (slot : i.wslot = w) (hx : ix < 4)
    (vacant : i.have4.getLsbD ix = false) :
    Completes (.readPassDone n c w ix p) s fun t =>
      (∃ j, (t.cluster n c).item w = some j ∧ ∃ o, mapGet j.operands ix = some o ∧ o.value = p.ptr ∧ o.kind = 4) ∧
      (p.erased = false → t.fld (passCounter n (lunCh p.lun) p) 31 0 =
          min (2 ^ 32 - 1) (s.fld (passCounter n (lunCh p.lun) p) 31 0 + 1) ∧
        RegsBut [passCounter n (lunCh p.lun) p] s t) ∧
      (p.erased = true → t.regs = s.regs) := by
  have good := badPass_of_good correctable addressed
  refine ⟨_, exec_readPassDone media, ?_⟩
  dsimp only
  rw [asked, good, tagged, if_neg (by decide)]
  dsimp only
  obtain ⟨l, b, e⟩ := slice_passCounted s n n good
  have held : ((passCounted s n p).free.2.cluster n c).item w = some i := by
    refine .trans (congrArg (Cluster.item · w) ?_) held
    change ((((passCounted s n p).slice n).clusters)[c]?).getD _ = _
    rw [e]
    rfl
  have regs : (passDelivered (passCounted s n p) n c w ix p).regs = (passCounted s n p).regs := by
    rw [passDelivered, deliver_of_open _ held hx vacant]
    rfl
  have part : (passDelivered (passCounted s n p) n c w ix p).part = (passCounted s n p).part := by
    rw [passDelivered, deliver_of_open _ held hx vacant]
    rfl
  refine ⟨⟨filled i ix (readDone (passCounted s n p) p), ?_, readDone (passCounted s n p) p, ?_, rfl, rfl⟩, fun written => ?_, fun erased => ?_⟩
  · rw [passDelivered, cluster_deliver _ held hx vacant, ← slot]
    exact item_put _ (filled i ix _)
  · rw [mapGet_mapInsert, if_pos rfl]
  · have rd : ∀ a, (passDelivered (passCounted s n p) n c w ix p).rd a = ((s.recordPass p).inc (passCounter n (lunCh p.lun) p)).rd a := fun a =>
      (rd_of_regs regs part a).trans (rd_passCounted_of_written s n a good addressed written)
    refine ⟨?_, fun a ha => ?_⟩
    · rw [fld_of_rd (rd _), fld_inc_self, fld_of_rd (rd_recordPass s p _)]
    · rw [rd, rd_inc_of_ne _ (by simpa using ha), rd_recordPass]
  · have counted := (passCounted_of_good s n good addressed).same .regs rfl
    rw [erased] at counted
    exact regs.trans (counted.trans ((recordPass_frame s p (.refl 0x100000000000 s) rfl).same .regs rfl))

/-! ### An uncorrectable codeword (R115, R148, R160) -/

theorem keepsFailures_losePage (s : State) (seq k : Nat) : KeepsFailures n s (s.losePage n seq k) := by
  unfold State.losePage
  split
  · exact .refl n s
  · split
    · exact .refl n s
    · refine .trans ?_ (keepsFailures_settleLost _)
      exact keepsFailures_of_same s _ (fun _ => rfl) fun _ => rfl

theorem keepsFailures_spoilUnits (s : State) (p : ReadPass) : KeepsFailures n s (s.spoilUnits n p) := by
  unfold State.spoilUnits
  split
  · next sb k _ _ =>
    extract_lets us rebuilt spoiled
    have spoils : KeepsFailures n s spoiled := keepsFailures_of_same s _ (fun _ => rfl) fun _ => rfl
    split
    · exact spoils.trans (keepsFailures_losePage _ sb.seq k)
    · exact spoils
  · exact .refl n s

theorem keepsFailures_verified (s : State) (seq : Nat) : KeepsFailures n s (s.verified n seq) := by
  refine .trans ?_ (keepsFailures_releaseParity _ seq)
  exact keepsFailures_of_same s _ (fun _ => rfl) fun _ => rfl

theorem keepsFailures_verifyPass (s : State) (seq : Nat) (p : ReadPass) : KeepsFailures n s (s.verifyPass n seq p) := by
  unfold State.verifyPass
  extract_lets weak flagged moved checked
  have flags : KeepsFailures n s flagged := by
    refine (keepsFailures_setBit s (Adr.ftEvt n) 0).trans ?_
    exact keepsFailures_modLun _ _ p.lun (fun l => { l with verifyFails := l.verifyFails ++ [s.now] }) (fun _ => rfl) (fun _ _ _ => id) (fun _ => rfl)
      (fun _ => rfl) fun _ => id
  have moves : KeepsFailures n flagged moved := by
    dsimp only [moved]
    split
    · exact .refl n flagged
    · next q _ =>
      have relocated := keepsFailures_of_same (n := n) flagged (fun x => x.relocate (flagged.unitsAt n q.1.seq q.2)) (fun _ => rfl) fun _ => rfl
      split
      · exact relocated.trans (keepsFailures_losePage _ q.1.seq q.2)
      · exact relocated
  have checks : KeepsFailures n s checked := by
    dsimp only [checked]
    split
    · exact (flags.trans moves).trans (keepsFailures_markBlock moved p.lun p.block)
    · exact .refl n s
  split
  · exact checks
  · split
    · exact checks.trans (keepsFailures_verified _ seq)
    · exact checks

theorem countUncorr_flags (s : State) (n : Nat) (bad : badPass p = true) : (s.countUncorr n p).bit (Adr.flEvt n) 0 = true := by
  rw [State.countUncorr, bad, if_neg (by decide)]
  dsimp only
  have flagged : (s.setBit (Adr.flEvt n) 0).bit (Adr.flEvt n) 0 = true := bit_setBit_self s _ 0 (by decide)
  split
  · exact (keepsFailures_lunFailed _ p.lun 4).events 0 flagged
  · exact flagged

theorem bit_passDelivered (s : State) (n c w ix : Nat) (p : ReadPass) (k : Nat) :
    (passDelivered s n c w ix p).bit (Adr.flEvt n) k = s.bit (Adr.flEvt n) k := by
  have stray : Adr.flEvt n ≠ Adr.tqStray n := sliceAdr_ne (by decide)
  have evt : Adr.flEvt n ≠ Adr.tqEvt n := sliceAdr_ne (by decide)
  exact bit_of_rd (rd_deliver_of_ne s.free.2 n c w ix _ stray evt) k

/-- An uncorrectable codeword sets its event flag (R148). -/
theorem readPassDone_flags (media : s.mediaOn n = true) (written : p.erased = false) (bad : p.uncorrectable = true ∨ p.addrMismatch = true) :
    Completes (.readPassDone n c w ix p) s fun t => t.bit (Adr.flEvt n) 0 = true := by
  refine ⟨_, exec_readPassDone media, ?_⟩
  have flagged : (passCounted s n p).bit (Adr.flEvt n) 0 = true := countUncorr_flags _ n (badPass_of_bad written bad)
  dsimp only
  split
  · exact (keepsFailures_verifyPass _ _ p).events 0 flagged
  · rw [bit_passDelivered]
    split
    · exact (keepsFailures_spoilUnits _ p).events 0 flagged
    · exact flagged

end Sys2Proof.Proofs
end

section
/-!
Superblocks checked (R116, R125): the last good pass of a verification, and a patrol.
-/

namespace Sys2Proof.Proofs

open Sys2Proof.Machine Sys2Proof.Laws

variable {s t : State} {n c w ix seq : Nat} {p : ReadPass}

theorem super_spec {x : Slice} {k : Nat} {b : Superblock} (h : x.super k = some b) : b ∈ x.supers ∧ b.seq = k :=
  ⟨List.mem_of_find?_eq_some h, by simpa using List.find?_some h⟩

theorem super_modSuper (x : Slice) (k j : Nat) (f : Superblock → Superblock) (hf : ∀ b, (f b).seq = b.seq) :
    (x.modSuper k f).super j = (x.super j).map fun b => if j = k then f b else b :=
  recGet_recMod Superblock.seq x.supers k j f hf

theorem super_congr {x y : Slice} (h : y.supers = x.supers) (k : Nat) : y.super k = x.super k := by
  unfold Slice.super
  rw [h]

/-! ### The last good pass of a verification (R116) -/

theorem slice_lt_of_super {b : Superblock} (found : (s.slice n).super seq = some b) : n < s.slices.length := by
  refine slice_lt_of_ne_reset fun e => ?_
  rw [e] at found
  cases found

theorem supers_evalSpare (s : State) (n : Nat) : ((s.evalSpare n).slice n).supers = (s.slice n).supers := by
  obtain ⟨r, e⟩ := slice_evalSpare s n n
  rw [e]

theorem supers_retireBlock (s : State) (n lun b : Nat) : ((s.retireBlock n lun b).slice n).supers = (s.slice n).supers := by
  unfold State.retireBlock
  split
  · rfl
  · rw [supers_evalSpare]
    refine modSlice_keeps Slice.supers s n n _ ?_
    exact fun _ => rfl

theorem supers_releaseParity (s : State) (n seq : Nat) : ((s.releaseParity n seq).slice n).supers = (s.slice n).supers := by
  unfold State.releaseParity
  refine (foldl_keeps (fun r : State => (r.slice n).supers) (fun r q => ?_) _ _).trans ?_
  · dsimp only
    split
    · rfl
    · split
      · have retired := supers_retireBlock r n q.1 q.2
        split
        · exact retired
        · refine (modSlice_keeps Slice.supers _ n n _ fun x => ?_).trans retired
          obtain ⟨v, e⟩ := reserve_keepMore x _ q.1 .parity false (2 - x.keptOn q.1 .parity)
          rw [e]
      · refine modSlice_keeps Slice.supers r n n _ fun x => ?_
        split <;> rfl
  · refine modSlice_keeps Slice.supers s n n _ ?_
    exact fun _ => rfl

/-- What a superblock is once it is verified. -/
def sbVerified (now : Nat) (b : Superblock) : Superblock := { b with state := .verified, parityHeld := false, patrolAt := now }

theorem super_verified {b : Superblock} (found : (s.slice n).super seq = some b) :
    ((s.verified n seq).slice n).super seq = some (sbVerified s.now b) := by
  rw [State.verified, super_congr (supers_releaseParity _ n seq), slice_modSlice_self _ (slice_lt_of_super found)]
  refine (super_modSuper (s.slice n) seq seq _ ?_).trans ?_
  · exact fun _ => rfl
  · rw [found, Option.map_some, if_pos rfl]
    rfl

theorem ftVerifyCfg_ne_passCounter (p : ReadPass) (h : p.lun < 512) : Adr.ftVerifyCfg n ≠ passCounter n (lunCh p.lun) p := by
  have channel : lunCh p.lun < 8 := Nat.div_lt_of_lt_mul h
  unfold passCounter
  split
  · exact sliceAdr_ne (by omega)
  · split
    · exact sliceAdr_ne (by omega)
    · split
      · exact sliceAdr_ne (by omega)
      · exact sliceAdr_ne (by omega)

/-- The limit of verification does not depend on the codewords counted. -/
theorem fld_ftVerifyCfg_passCounted (s : State) (good : badPass p = false) (addressed : p.addrMismatch = false) (h : p.lun < 512) (hi lo : Nat) :
    (passCounted s n p).fld (Adr.ftVerifyCfg n) hi lo = s.fld (Adr.ftVerifyCfg n) hi lo := by
  refine fld_of_rd ?_ hi lo
  have counted := passCounted_of_good s n good addressed
  refine (rd_of_regs (counted.same .regs rfl) (counted.same .part rfl) _).trans ?_
  split
  · exact rd_recordPass s p _
  · exact (rd_inc_of_ne _ (ftVerifyCfg_ne_passCounter p h)).trans (rd_recordPass s p _)

/-- The last good pass of a verification makes the superblock VERIFIED (R116). -/
theorem readPassDone_verifies {b : Superblock} (media : s.mediaOn n = true) (number : p.lun < 512) (asked : p.verifySb = some seq)
    (last : p.verifyLast = true) (hard : p.level ≤ 6) (correctable : p.uncorrectable = false) (addressed : p.addrMismatch = false)
    (few : p.corrected ≤ s.fld (Adr.ftVerifyCfg n) 9 0) (found : (s.slice n).super seq = some b) (verifying : b.state = .verifying)
    (read : (s.slice n).verifyRead b = true) :
    Completes (.readPassDone n c w ix p) s fun t =>
      ((t.slice n).super seq).map (fun z => (z.state, z.parityHeld, z.patrolAt)) = some (.verified, false, s.now) := by
  have good := badPass_of_good correctable addressed
  obtain ⟨l, k, e⟩ := slice_passCounted s n n good
  have counted : ((passCounted s n p).slice n).super seq = some b := by
    rw [e]
    exact found
  have checked : (passCounted s n p).verifyPass n seq p = (passCounted s n p).verified n seq := by
    have strong : (badPass p || decide (6 < p.level) || decide ((passCounted s n p).fld (Adr.ftVerifyCfg n) 9 0 < p.corrected)) = false := by
      rw [good, fld_ftVerifyCfg_passCounted s good addressed number, decide_eq_false (by omega), decide_eq_false (by omega)]
      rfl
    have done : ((passCounted s n p).slice n).verifyRead b = true := by
      rw [e]
      exact read
    unfold State.verifyPass
    dsimp only
    rw [strong, if_neg (by decide), counted]
    exact if_pos (by simp [last, verifying, done])
  refine ⟨_, exec_readPassDone media, ?_⟩
  dsimp only
  rw [asked]
  dsimp only
  rw [checked, super_verified counted, now_passCounted s n good addressed]
  rfl

/-! ### Patrol (R125) -/

/-- What a patrol's reads leave alone: what decides which units a page holds. -/
structure KeepsUnits (n : Nat) (s t : State) : Prop where
  frame : Frame 0x20000 s t
  descIx : (t.slice n).descIx = (s.slice n).descIx
  supers : (t.slice n).supers = (s.slice n).supers
  units : (t.slice n).units = (s.slice n).units

theorem KeepsUnits.refl (n : Nat) (s : State) : KeepsUnits n s s := ⟨.refl _ s, rfl, rfl, rfl⟩

theorem KeepsUnits.trans {u : State} (h : KeepsUnits n s t) (g : KeepsUnits n t u) : KeepsUnits n s u :=
  ⟨h.frame.comp g.frame rfl, g.descIx.trans h.descIx, g.supers.trans h.supers, g.units.trans h.units⟩

theorem keepsUnits_modSlice (s : State) (f : Slice → Slice) (slm : ∀ x, (f x).slm = x.slm) (descIx : ∀ x, (f x).descIx = x.descIx)
    (supers : ∀ x, (f x).supers = x.supers) (units : ∀ x, (f x).units = x.units) : KeepsUnits n s (s.modSlice n f) :=
  ⟨modSlice_frame n f (.refl _ s) rfl (.of slm), modSlice_keeps Slice.descIx s n n f descIx, modSlice_keeps Slice.supers s n n f supers,
    modSlice_keeps Slice.units s n n f units⟩

theorem keepsUnits_foldl {α : Type} {f : State → α → State} (h : ∀ r x, KeepsUnits n r (f r x)) (l : List α) (s : State) :
    KeepsUnits n s (l.foldl f s) := by
  induction l generalizing s with
  | nil => exact .refl n s
  | cons x l ih => exact (h s x).trans (ih _)

theorem KeepsUnits.unitsAt (h : KeepsUnits n s t) (seq k : Nat) : t.unitsAt n seq k = s.unitsAt n seq k := by
  have described : t.desc n = s.desc n := desc_congr (h.frame.same .nvm rfl) (h.frame.same .start rfl) h.descIx
  unfold State.unitsAt
  rw [described, super_congr h.supers, h.units]

theorem keepsUnits_countReads (s : State) (lun b k : Nat) : KeepsUnits n s (s.countReads n lun b k) := by
  unfold State.countReads
  have counted : KeepsUnits n s (s.modSlice n fun x => x.modBlock lun b fun i => { i with reads := i.reads + k }) :=
    keepsUnits_modSlice s _ (fun _ => rfl) (fun _ => rfl) (fun _ => rfl) fun _ => rfl
  dsimp only
  split
  · exact counted
  · split
    · exact counted.trans (keepsUnits_modSlice _ _ (fun _ => rfl) (fun _ => rfl) (fun _ => rfl) fun _ => rfl)
    · exact counted

theorem QueuesOnly.keepsUnits (h : QueuesOnly s t) : KeepsUnits n s t :=
  ⟨h.frame, h.keeps Slice.descIx (fun _ _ _ _ => rfl) n, h.keeps Slice.supers (fun _ _ _ _ => rfl) n, h.keeps Slice.units (fun _ _ _ _ => rfl) n⟩

/-- The reads of a patrol, given to the flash. -/
def patrolRead (s : State) (n sb : Nat) (d : MediaDesc) (b : Superblock) : State :=
  (List.range b.due).foldl (fun s p =>
    match b.pageAt p with
    | none => s
    | some a => (s.countReads n a.1 a.2.1 1).queueRead n a.1 a.2.1 a.2.2 b.mode b.rate (d.cwPerPage b.mode b.rate) (.patrol sb) none) s

theorem keepsUnits_patrolRead (s : State) (n sb : Nat) (d : MediaDesc) (b : Superblock) : KeepsUnits n s (patrolRead s n sb d b) := by
  refine keepsUnits_foldl (fun r k => ?_) _ s
  split
  · exact .refl n r
  · exact (keepsUnits_countReads r ..).trans (queuesOnly_queueRead ..).keepsUnits

/-- The units that a patrol moves: those on the pages above the limit. -/
def patrolMoves (s : State) (n sb : Nat) (weak : List (Nat × Nat)) : List StoredUnit :=
  (weak.filter fun q => decide (s.fld (Adr.ftVerifyCfg n) 9 0 < q.2)).flatMap fun q => s.unitsAt n sb q.1

theorem exec_patrolDue {sb : Nat} {d : MediaDesc} {b : Superblock} (weak : List (Nat × Nat)) (media : s.mediaOn n = true) (described : s.desc n = some d)
    (found : (s.slice n).super sb = some b) (verified : b.state = .verified) (serving : (s.slice n).sbWithdrawn b = false) :
    exec (.patrolDue n sb weak) s = .next ((patrolRead s n sb d b).modSlice n fun x =>
      (x.relocate (patrolMoves (patrolRead s n sb d b) n sb weak)).modSuper sb fun z => { z with patrolAt := (patrolRead s n sb d b).now }) := by
  change execPatrolDue n sb weak s = _
  rw [execPatrolDue, described, found]
  exact congrArg Host.Outcome.next (if_neg (by simp [media, verified, serving]))

theorem mem_relocate {x : Slice} {us : List StoredUnit} {u : StoredUnit} (h : u ∈ us) : u.entry ∈ (x.relocate us).relocs := by
  by_cases known : u.entry ∈ x.relocs
  · exact List.mem_append_left _ known
  · exact List.mem_append_right _ (List.mem_filter.mpr ⟨List.mem_map_of_mem h, by simpa using known⟩)

/-- A patrol stamps its superblock, and the units on the pages above the limit are to be relocated (R125). -/
theorem patrolDue_completes {sb : Nat} {d : MediaDesc} {b : Superblock} (weak : List (Nat × Nat)) (media : s.mediaOn n = true)
    (described : s.desc n = some d) (found : (s.slice n).super sb = some b) (verified : b.state = .verified)
    (serving : (s.slice n).sbWithdrawn b = false) :
    Completes (.patrolDue n sb weak) s fun t => ((t.slice n).super sb).map Superblock.patrolAt = some s.now ∧
      ∀ q ∈ weak, s.fld (Adr.ftVerifyCfg n) 9 0 < q.2 → ∀ u ∈ s.unitsAt n sb q.1, u.entry ∈ (t.slice n).relocs := by
  refine ⟨_, exec_patrolDue weak media described found verified serving, ?_⟩
  have kept := keepsUnits_patrolRead s n sb d b
  have now : (patrolRead s n sb d b).now = s.now := congrArg Course.count (kept.frame.same .course rfl)
  have moves : patrolMoves (patrolRead s n sb d b) n sb weak = patrolMoves s n sb weak := by
    have limit : ∀ hi lo, (patrolRead s n sb d b).fld (Adr.ftVerifyCfg n) hi lo = s.fld (Adr.ftVerifyCfg n) hi lo :=
      fld_of_rd (rd_of_regs (kept.frame.same .regs rfl) (kept.frame.same .part rfl) _)
    unfold patrolMoves
    simp only [limit, kept.unitsAt]
  generalize patrolRead s n sb d b = r at kept now moves
  have there : (r.slice n).super sb = some b := (super_congr kept.supers sb).trans found
  dsimp only
  rw [moves, now, slice_modSlice_self _ (slice_lt_of_super there)]
  refine ⟨?_, fun q hq weak_ u hu => mem_relocate (List.mem_flatMap.mpr ⟨q, List.mem_filter.mpr ⟨hq, by simpa using weak_⟩, hu⟩)⟩
  refine (congrArg (Option.map Superblock.patrolAt)
    (super_modSuper ((r.slice n).relocate (patrolMoves s n sb weak)) sb sb (fun b => { b with patrolAt := s.now }) fun _ => rfl)).trans ?_
  change (((r.slice n).super sb).map _).map _ = _
  rw [there, Option.map_some, Option.map_some, if_pos rfl]

end Sys2Proof.Proofs
end

section
/-!
Pages filled and programs confirmed (R106, R108, R110, R112): what becomes of the versions on them.
-/

namespace Sys2Proof.Proofs

open Sys2Proof.Machine Sys2Proof.Laws

variable {s t u : State} {n seq : Nat}

/-! ### Versions that have waited (R108) -/

theorem version_spec {x : Slice} {w : Nat} {v : Version} (h : x.version w = some v) : v ∈ x.versions ∧ v.wslot = w :=
  ⟨List.mem_of_find?_eq_some h, by simpa using List.find?_some h⟩

theorem version_modVersion (x : Slice) (w j : Nat) (f : Version → Version) (hf : ∀ v, (f v).wslot = v.wslot) :
    (x.modVersion w f).version j = (x.version j).map fun v => if j = w then f v else v :=
  recGet_recMod Version.wslot x.versions w j f hf

/-- A version that is marked for streaming where it is OPEN and old enough. -/
def aged (now age : Nat) (v : Version) : Version := if v.isOpen && decide (v.openedAt + age ≤ now) then { v with trigger := true } else v

theorem aged_wslot (now age : Nat) (v : Version) : (aged now age v).wslot = v.wslot := by
  unfold aged
  split <;> rfl

/-- An OPEN version that is old enough is marked for streaming (R108). -/
theorem streamAgeTrigger_completes {w : Nat} {v : Version} (media : s.mediaOn n = true) (found : (s.slice n).version w = some v)
    (opened : v.state = .wopen) :
    Completes (.streamAgeTrigger n w) s fun t => OnlyChanges [.slices] s t ∧ (t.slice n).version w =
      some (if v.openedAt + s.ageCourses n ≤ s.now then { v with trigger := true } else v) := by
  have executed : exec (.streamAgeTrigger n w) s = .next (s.modSlice n fun x => x.modVersion w (aged s.now (s.ageCourses n))) :=
    congrArg Host.Outcome.next (if_neg (by simp [media]))
  refine ⟨_, executed, onlyChanges_modSlice s n _ fun _ => rfl, ?_⟩
  rw [slice_modSlice_self _ (slice_lt_of_mediaOn media), version_modVersion _ w w _ (aged_wslot _ _), found, Option.map_some, if_pos rfl]
  simp [aged, Version.isOpen, opened]

/-! ### A page completed with grout (R112) -/

theorem super_groutTo {b : Superblock} (stop : Nat) (found : (s.slice n).super seq = some b) :
    (((s.groutTo n seq stop).slice n).super seq).map Superblock.fill = some (max b.fill stop) := by
  unfold State.groutTo
  rw [slice_modSlice_self _ (slice_lt_of_super found), found]
  dsimp only
  split
  · next full => rw [found, Option.map_some, Nat.max_eq_left full]
  · next partial_ =>
    refine (congrArg (Option.map Superblock.fill) (super_modSuper (s.slice n) seq seq
      (fun b => { b with fill := stop, grouts := b.grouts ++ [(b.fill, stop - b.fill)] }) fun _ => rfl)).trans ?_
    rw [found, Option.map_some, Option.map_some, if_pos rfl, Nat.max_eq_right (by omega)]

/-- Pages given to the flash do not change what is packed on their superblock. -/
theorem fill_issue (s : State) (n : Nat) (d : MediaDesc) (seq upto : Nat) (user : Option Nat) :
    (((s.issue n d seq upto user).slice n).super seq).map Superblock.fill = ((s.slice n).super seq).map Superblock.fill := by
  unfold State.issue
  split
  · rfl
  · next sb _ =>
    extract_lets ps live given queued
    have queues : QueuesOnly given (queued.parityDue n d seq) := by
      refine .trans (queuesOnly_foldl _ (fun r p => ?_) live given) (queuesOnly_parityDue queued n d seq)
      split
      · exact .refl r
      · exact queuesOnly_queueProgram ..
    rw [super_congr (queues.keeps Slice.supers (fun _ _ _ _ => rfl) n)]
    refine modSlice_keeps (fun x : Slice => (x.super seq).map Superblock.fill) s n n _ fun x => ?_
    refine (congrArg (Option.map Superblock.fill) (super_modSuper x seq seq _ ?_)).trans ?_
    · exact fun _ => rfl
    · rw [Option.map_map]
      refine Option.map_congr fun b _ => ?_
      rw [Function.comp_apply, if_pos rfl]

/-- A page that has held packed data long enough is completed with grout (R112). -/
theorem flashPageAgeTimeout_completes {d : MediaDesc} {b : Superblock} (media : s.mediaOn n = true) (described : s.desc n = some d)
    (found : (s.slice n).super seq = some b) (opened : b.state = .sopen) (packing : b.fill % max 1 (b.pageBytes d) ≠ 0)
    (old : b.filledAt + s.ageCourses n ≤ s.now) :
    Completes (.flashPageAgeTimeout n seq) s fun t => ((t.slice n).super seq).map Superblock.fill =
      some (max b.fill (min (b.cap d) (roundUp b.fill (max 1 (b.pageBytes d))))) ∧ OnlyChanges [.slices] s t := by
  have executed : exec (.flashPageAgeTimeout n seq) s = .next (s.groutPage n d seq none) := by
    change execFlashPageAgeTimeout n seq s = _
    rw [execFlashPageAgeTimeout, described, found]
    exact congrArg Host.Outcome.next (if_neg (by simp [media, opened, packing, old]))
  refine ⟨_, executed, ?_, commandsChangeOnlyTheirFootprint (.flashPageAgeTimeout n seq) s _ executed⟩
  rw [State.groutPage, found]
  exact (fill_issue _ n d seq _ none).trans (super_groutTo _ found)

end Sys2Proof.Proofs
end

section
/-!
A program confirmed (R106, R110): the versions and the moves that lie wholly on confirmed pages are done.
-/

namespace Sys2Proof.Proofs

open Sys2Proof.Machine Sys2Proof.Laws

variable {s t u : State} {n seq : Nat} {d : MediaDesc}

/-! ### What settling pages keeps, and what stays gone through it -/

/-- No version stands in the slot, and nobody waits for one. -/
structure VersionGone (n w : Nat) (s : State) : Prop where
  slot : ∀ z ∈ (s.slice n).versions, z.wslot ≠ w
  waits : ∀ y ∈ s.inflight, Cond.programmed n w ∉ y.conds

/-- The superblocks and the media are as before, and what is gone stays gone. -/
structure Settles (n : Nat) (s t : State) : Prop where
  desc : t.desc n = s.desc n
  supers : (t.slice n).supers = (s.slice n).supers
  gone : ∀ w, VersionGone n w s → VersionGone n w t

theorem Settles.refl (n : Nat) (s : State) : Settles n s s := ⟨rfl, rfl, fun _ => id⟩

theorem Settles.trans (h : Settles n s t) (g : Settles n t u) : Settles n s u :=
  ⟨g.desc.trans h.desc, g.supers.trans h.supers, fun w => g.gone w ∘ h.gone w⟩

theorem settles_foldl {α : Type} {f : State → α → State} (h : ∀ r x, Settles n r (f r x)) (l : List α) (s : State) : Settles n s (l.foldl f s) := by
  induction l generalizing s with
  | nil => exact .refl n s
  | cons x l ih => exact (h s x).trans (ih _)

/-- Every version of the second slice stands in a slot that a version of the first one holds. -/
def SlotsFrom (x y : Slice) : Prop := ∀ z ∈ y.versions, ∃ v ∈ x.versions, v.wslot = z.wslot

theorem settles_modSlice (s : State) (f : Slice → Slice) (descIx : ∀ x, (f x).descIx = x.descIx) (supers : ∀ x, (f x).supers = x.supers)
    (slots : ∀ x, SlotsFrom x (f x)) : Settles n s (s.modSlice n f) := by
  refine ⟨desc_modSlice s n n f descIx, modSlice_keeps Slice.supers s n n f supers, fun w gone => ⟨fun z hz => ?_, gone.waits⟩⟩
  rcases slice_modSlice_cases s n n f with e | e
  · obtain ⟨v, hv, same⟩ := slots _ z (e ▸ hz)
    exact same ▸ gone.slot v hv
  · exact gone.slot z (e ▸ hz)

theorem settles_clearCond (s : State) (c : Cond) : Settles n s (s.clearCond c) := by
  refine ⟨desc_congr rfl rfl rfl, rfl, fun w gone => ⟨gone.slot, fun y hy => ?_⟩⟩
  obtain ⟨z, hz, rfl⟩ := List.mem_map.mp hy
  exact fun waits => gone.waits z hz (List.mem_of_mem_filter waits)

/-! ### A version dropped from its slot -/

theorem supers_dropVersion (x : Slice) (w : Nat) (e : Entry) : (x.dropVersion w e).supers = x.supers := by
  unfold Slice.dropVersion
  dsimp only
  split
  · rfl
  · split <;> rfl

theorem descIx_dropVersion (x : Slice) (w : Nat) (e : Entry) : (x.dropVersion w e).descIx = x.descIx := by
  unfold Slice.dropVersion
  dsimp only
  split
  · rfl
  · split <;> rfl

/-- The versions that a dropped one leaves: those of the other slots, as they are but for what they stand over. -/
theorem mem_dropVersion {x : Slice} {w : Nat} {e : Entry} {z : Version} (h : z ∈ (x.dropVersion w e).versions) :
    z.wslot ≠ w ∧ ∃ v ∈ x.versions, v.wslot = z.wslot := by
  unfold Slice.dropVersion at h
  split at h
  · next none_ => exact ⟨fun same => List.find?_eq_none.mp none_ z h (beq_iff_eq.mpr same), z, h, rfl⟩
  · next v _ =>
    extract_lets y seeded y' at h
    have left : z ∈ y'.versions := by
      split at h
      · exact h
      · exact h
    obtain ⟨a, ha, rfl⟩ := List.mem_map.mp left
    obtain ⟨mem, other⟩ := List.mem_filter.mp ha
    have slot : (if seeded a then { a with under := e } else a).wslot = a.wslot := by split <;> rfl
    have kept : a.wslot ≠ w := by simpa using other
    exact ⟨fun same => kept (slot.symm.trans same), a, mem, slot.symm⟩

/-- The entry that named a version no longer does. -/
theorem entry_dropVersion {x : Slice} {w : Nat} {v : Version} (e : Entry) (found : x.version w = some v) (named : x.entry v.index = .buffer w) :
    (x.dropVersion w e).entry v.index = e := by
  unfold Slice.dropVersion
  rw [found]
  dsimp only
  rw [if_pos named, entry_switch, if_pos rfl]

/-! ### Versions and moves that are done -/

/-- The slice after a version became its stored unit. -/
def confirmedSlice (v : Version) (u : StoredUnit) (x : Slice) : Slice :=
  let y := x.dropVersion v.wslot u.entry
  { y with units := (y.units.filter fun w =>
      w.nsid != v.nsid || w.lua != v.lua || w.object.isSome || w.entry == y.entry v.index ||
        y.versions.any fun z => z.index == v.index && z.under == w.entry) ++ [u] }

theorem confirm_eq {v : Version} {b : Superblock} (described : s.desc n = some d) (found : (s.slice n).super v.sb = some b) :
    s.confirm n v = (s.modSlice n (confirmedSlice v (v.unit d b))).clearCond (.programmed n v.wslot) := by
  unfold State.confirm
  rw [described, found]
  rfl

theorem settles_confirm (s : State) (v : Version) : Settles n s (s.confirm n v) := by
  cases described : s.desc n with
  | none =>
    rw [State.confirm, described]
    exact .refl n s
  | some d =>
    cases found : (s.slice n).super v.sb with
    | none =>
      rw [State.confirm, described, found]
      exact .refl n s
    | some b =>
      rw [confirm_eq described found]
      refine .trans ?_ (settles_clearCond _ _)
      exact settles_modSlice s _ (fun x => descIx_dropVersion x _ _) (fun x => supers_dropVersion x _ _) fun x z hz => (mem_dropVersion hz).2

theorem confirm_gone {v : Version} {b : Superblock} (described : s.desc n = some d) (found : (s.slice n).super v.sb = some b) :
    VersionGone n v.wslot (s.confirm n v) := by
  rw [confirm_eq described found]
  refine ⟨fun z hz => ?_, fun y hy waits => ?_⟩
  · change z ∈ ((s.modSlice n (confirmedSlice v (v.unit d b))).slice n).versions at hz
    rw [slice_modSlice_self _ (slice_lt_of_super found)] at hz
    exact (mem_dropVersion hz).1
  · obtain ⟨a, _, rfl⟩ := List.mem_map.mp hy
    simp at waits

theorem settles_finishMove (s : State) (m : Move) : Settles n s (s.finishMove n m) := by
  unfold State.finishMove
  split
  · dsimp only
    refine settles_modSlice s _ (fun x => ?_) (fun x => ?_) fun x z hz => ?_
    · dsimp only
      split <;> rfl
    · dsimp only
      split <;> rfl
    · obtain ⟨v, hv, rfl⟩ := List.mem_map.mp hz
      refine ⟨v, ?_, ?_⟩
      · split at hv <;> exact hv
      · split <;> rfl
  · exact settles_modSlice s _ (fun _ => rfl) (fun _ => rfl) fun x z hz => ⟨z, hz, rfl⟩

/-- Every version of a list whose superblocks exist is gone once the list is confirmed. -/
theorem foldl_confirm_gone {l : List Version} {v : Version} (described : s.desc n = some d)
    (found : ∀ w ∈ l, ∃ b, (s.slice n).super w.sb = some b) (h : v ∈ l) : VersionGone n v.wslot (l.foldl (fun s v => s.confirm n v) s) := by
  induction l generalizing s with
  | nil => exact absurd h List.not_mem_nil
  | cons a l ih =>
    obtain ⟨b, here⟩ := found a List.mem_cons_self
    have step := settles_confirm (n := n) s a
    rcases List.mem_cons.mp h with rfl | later
    · exact (settles_foldl (fun r v => settles_confirm r v) l _).gone _ (confirm_gone described here)
    · refine ih (step.desc.trans described) (fun w hw => ?_) later
      rw [super_congr step.supers]
      exact found w (List.mem_cons_of_mem a hw)

/-! ### The program of a page confirmed -/

/-- The state in which the pages of a superblock are settled: the program has left the queues, and its page no longer waits. -/
def pageConfirmed (s : State) (n id seq p : Nat) : State :=
  (s.dropWork1 n id).modSlice n fun x => x.modSuper seq fun sb => { sb with waiting := sb.waiting.filter (· != p) }

/-- What a page confirmed leaves of the slice, but for the queues and the superblock's page. -/
theorem slice_pageConfirmed (here : n < s.slices.length) (id p : Nat) :
    ∃ f, (pageConfirmed s n id seq p).slice n =
      ({ s.slice n with flash := f } : Slice).modSuper seq fun sb => { sb with waiting := sb.waiting.filter (· != p) } := by
  unfold pageConfirmed State.dropWork1
  rw [slice_modSlice_self _ ((slices_length_modSlice s n _).symm ▸ here), slice_modSlice_self _ here]
  exact ⟨_, rfl⟩

theorem desc_dropWork1 (s : State) (n id : Nat) : (s.dropWork1 n id).desc n = s.desc n := by
  refine desc_modSlice s n n _ ?_
  exact fun _ => rfl

theorem desc_pageConfirmed (s : State) (n id seq p : Nat) : (pageConfirmed s n id seq p).desc n = s.desc n := by
  refine (desc_modSlice (s.dropWork1 n id) n n _ ?_).trans (desc_dropWork1 s n id)
  exact fun _ => rfl

theorem exec_programConfirmed {lun p : Nat} {x : FlWork} (media : s.mediaOn n = true) (described : s.desc n = some d)
    (ended : (s.slice n).endedOn lun .program true = some x) (page : x.why = .page seq p) :
    exec (.programConfirmed n lun) s = .next ((pageConfirmed s n x.id seq p).settlePages n d seq) := by
  have here : (s.dropWork1 n x.id).desc n = some d := (desc_dropWork1 s n x.id).trans described
  change execProgramConfirmed n lun s = _
  rw [execProgramConfirmed, ended]
  dsimp only
  rw [if_neg (by simp [media]), page]
  dsimp only
  rw [State.pageDone, here]
  rfl

/-- The versions that lie wholly on confirmed pages of a superblock. -/
def writtenVersions (x : Slice) (d : MediaDesc) (seq : Nat) (b : Superblock) : List Version :=
  x.versions.filter fun v => v.state == .streaming && v.sb == seq && b.written d v.start (unitBytes v.slen)

theorem settlePages_eq {b : Superblock} (found : (s.slice n).super seq = some b) :
    ∃ ms : List Move, (∀ m ∈ ms, m ∈ (s.slice n).moves) ∧ s.settlePages n d seq =
      (ms.foldl (fun s m => s.finishMove n m) ((writtenVersions (s.slice n) d seq b).foldl (fun s v => s.confirm n v) s)).closeDone n seq := by
  unfold State.settlePages
  rw [found]
  exact ⟨_, fun m hm => List.mem_of_mem_filter hm, rfl⟩

theorem waiting_closeDone (s : State) (n seq : Nat) :
    (((s.closeDone n seq).slice n).super seq).map Superblock.waiting = ((s.slice n).super seq).map Superblock.waiting := by
  refine modSlice_keeps (fun x : Slice => (x.super seq).map Superblock.waiting) s n n _ fun x => ?_
  refine (congrArg (Option.map Superblock.waiting) (super_modSuper x seq seq _ fun b => ?_)).trans ?_
  · split <;> rfl
  · rw [Option.map_map]
    refine Option.map_congr fun b _ => ?_
    rw [Function.comp_apply, if_pos rfl]
    split <;> rfl

theorem units_closeDone (s : State) (n seq : Nat) : ((s.closeDone n seq).slice n).units = (s.slice n).units := by
  refine modSlice_keeps Slice.units s n n _ ?_
  exact fun _ => rfl

theorem entry_closeDone (s : State) (n seq i : Nat) : ((s.closeDone n seq).slice n).entry i = (s.slice n).entry i := by
  refine modSlice_keeps (fun x : Slice => x.entry i) s n n _ ?_
  exact fun _ => rfl

theorem gone_closeDone (s : State) (n seq w : Nat) (gone : VersionGone n w s) : VersionGone n w (s.closeDone n seq) := by
  refine ⟨fun z hz => gone.slot z ?_, gone.waits⟩
  have kept : ((s.closeDone n seq).slice n).versions = (s.slice n).versions := modSlice_keeps Slice.versions s n n _ fun _ => rfl
  exact kept ▸ hz

/-- Where one version alone is written, its entry names the stored unit. -/
theorem confirm_stores {v : Version} {b : Superblock} (described : s.desc n = some d) (found : (s.slice n).super v.sb = some b)
    (alone : (s.slice n).versions = [v]) (named : (s.slice n).entry v.index = .buffer v.wslot) :
    v.unit d b ∈ ((s.confirm n v).slice n).units ∧ ((s.confirm n v).slice n).entry v.index = (v.unit d b).entry := by
  have there : (s.slice n).version v.wslot = some v := by
    rw [Slice.version, alone, recGet_cons, if_pos rfl]
  have slice : (s.confirm n v).slice n = confirmedSlice v (v.unit d b) (s.slice n) := by
    rw [confirm_eq described found]
    exact slice_modSlice_self _ (slice_lt_of_super found)
  rw [slice]
  exact ⟨List.mem_append_right _ (List.mem_singleton_self _), entry_dropVersion _ there named⟩

/-- When the program of a page is confirmed, the versions on confirmed pages are gone and nobody waits for them; an entry that named one names
the stored unit with the version's blocks (R106, R110). -/
theorem programConfirmed_completes {lun p : Nat} {x : FlWork} {b c : Superblock} (media : s.mediaOn n = true) (described : s.desc n = some d)
    (ended : (s.slice n).endedOn lun .program true = some x) (page : x.why = .page seq p) (found : (s.slice n).super seq = some b)
    (left : c = { b with waiting := b.waiting.filter (· != p) }) :
    Completes (.programConfirmed n lun) s fun t => OnlyChanges [.inflight, .slices] s t ∧
      ((t.slice n).super seq).map Superblock.waiting = some c.waiting ∧
      (∀ v ∈ (s.slice n).versions, v.state = .streaming → v.sb = seq → c.written d v.start (unitBytes v.slen) = true →
        (t.slice n).version v.wslot = none ∧ (∀ y ∈ t.inflight, .programmed n v.wslot ∉ y.conds)) ∧
      (∀ v, (s.slice n).versions = [v] → (s.slice n).moves = [] → v.state = .streaming → v.sb = seq →
        c.written d v.start (unitBytes v.slen) = true → (s.slice n).entry v.index = .buffer v.wslot →
        ∃ u ∈ (t.slice n).units, (t.slice n).entry v.index = u.entry ∧ u.nsid = v.nsid ∧ u.lua = v.lua ∧ u.blocks = v.blocks ∧
          u.wseq = v.wseq ∧ u.keyGen = v.keyGen) := by
  have executed := exec_programConfirmed media described ended page
  refine ⟨_, executed, commandsChangeOnlyTheirFootprint (.programConfirmed n lun) s _ executed, ?_⟩
  obtain ⟨f, slice⟩ := slice_pageConfirmed (seq := seq) (slice_lt_of_mediaOn media) x.id p
  have known : (pageConfirmed s n x.id seq p).desc n = some d := (desc_pageConfirmed s n x.id seq p).trans described
  generalize pageConfirmed s n x.id seq p = r at slice known
  have super : (r.slice n).super seq = some c := by
    rw [slice]
    refine (super_modSuper { s.slice n with flash := f } seq seq (fun sb => { sb with waiting := sb.waiting.filter (· != p) }) fun _ => rfl).trans ?_
    change ((s.slice n).super seq).map _ = _
    rw [found, Option.map_some, if_pos rfl, left]
  have versions : (r.slice n).versions = (s.slice n).versions := by rw [slice]; rfl
  obtain ⟨ms, moves, settled⟩ := settlePages_eq (d := d) super
  rw [settled]
  have confirms := settles_foldl (fun q v => settles_confirm (n := n) q v) (writtenVersions (r.slice n) d seq c) r
  have finishes := settles_foldl (fun q m => settles_finishMove (n := n) q m) ms
    ((writtenVersions (r.slice n) d seq c).foldl (fun q v => q.confirm n v) r)
  refine ⟨?_, fun v hv streaming on written => ?_, fun v alone none_ streaming on written named => ?_⟩
  · rw [waiting_closeDone, super_congr (confirms.trans finishes).supers, super]
    rfl
  · have mem : v ∈ writtenVersions (r.slice n) d seq c := List.mem_filter.mpr ⟨versions ▸ hv, by simp [streaming, on, written]⟩
    have gone := gone_closeDone _ n seq _ (finishes.gone _ (foldl_confirm_gone known (fun w hw => ⟨c, ?_⟩) mem))
    · exact ⟨List.find?_eq_none.mpr fun z hz => by simpa using gone.slot z hz, gone.waits⟩
    · have here : w.sb = seq := by
        have kept := (List.mem_filter.mp hw).2
        simp only [Bool.and_eq_true, beq_iff_eq] at kept
        exact kept.1.2
      rw [here, super]
  · have still : ms = [] := List.eq_nil_iff_forall_not_mem.mpr fun m hm => by
      have none_' : (r.slice n).moves = [] := by rw [slice]; exact none_
      exact absurd (none_' ▸ moves m hm) List.not_mem_nil
    have one : writtenVersions (r.slice n) d seq c = [v] := by
      rw [writtenVersions, versions, alone]
      simp [streaming, on, written]
    have stored := confirm_stores known (on ▸ super) (versions.trans alone) (by rw [slice]; exact named)
    rw [still, one]
    refine ⟨v.unit d c, ?_, ?_, rfl, rfl, rfl, rfl, rfl⟩
    · exact (units_closeDone (r.confirm n v) n seq).symm ▸ stored.1
    · exact (entry_closeDone (r.confirm n v) n seq v.index).trans stored.2

end Sys2Proof.Proofs
end

section
/-!
What lay on a page whose program failed (R58, R119): it starts again with one attempt more, or its commands end with Write Fault.
-/

namespace Sys2Proof.Proofs

open Sys2Proof.Machine Sys2Proof.Laws

variable {s t u : State} {n seq lun : Nat} {d : MediaDesc} {v : Version}

/-- Where every step keeps P, the step of one element brings Q about, and every step keeps Q, the sequence reaches Q. -/
theorem foldl_reaches {α σ : Type} {f : σ → α → σ} {P Q : σ → Prop} {l : List α} {a : α} (keep : ∀ r, ∀ x ∈ l, P r → P (f r x))
    (step : ∀ r, P r → Q (f r a)) (stay : ∀ r, ∀ x ∈ l, Q r → Q (f r x)) (mem : a ∈ l) {r : σ} (start : P r) : Q (l.foldl f r) := by
  have stays : ∀ (k : List α) (q : σ), (∀ x ∈ k, x ∈ l) → Q q → Q (k.foldl f q) := fun k q sub hq =>
    List.foldlRecOn k f hq fun q hq x hx => stay q x (sub x hx) hq
  obtain ⟨k, j, rfl⟩ := List.append_of_mem mem
  rw [List.foldl_append, List.foldl_cons]
  refine stays j _ (fun x hx => List.mem_append_right k (List.mem_cons_of_mem a hx)) (step _ ?_)
  exact List.foldlRecOn k f start fun q hq x hx => keep q x (List.mem_append_left _ hx) hq

/-! ### What happens to a version whose page failed -/

/-- Does the failure end the version's commands (R58)? -/
def givesUp (v : Version) : Bool := v.through && decide (2 ≤ v.attempts)

/-- The version streamed again, elsewhere. -/
def retried (v : Version) (group : Nat) (y : Version) : Version :=
  { y.again with attempts := v.attempts + 1, tried := v.tried.filter (· != group) ++ [group] }

/-- The slice after a version's page failed. -/
def failedSlice (group : Nat) (x : Slice) (v : Version) : Slice :=
  if givesUp v then
    if v.acked.isEmpty then x.dropVersion v.wslot v.under else x.modVersion v.wslot fun y => { retried v group y with through := false }
  else x.modVersion v.wslot (retried v group)

theorem failedVersion_eq (s : State) (n group : Nat) (v : Version) :
    ∃ lba, s.failedVersion n group v =
      (if givesUp v then s.failCond (.programmed n v.wslot) (ansAt stWriteFault v.nsid lba) else s).modSlice n fun x => failedSlice group x v := by
  unfold State.failedVersion failedSlice givesUp
  cases h : v.through && decide (2 ≤ v.attempts) with
  | true => exact ⟨_, rfl⟩
  | false => exact ⟨0, rfl⟩

/-! ### The versions of a slice -/

/-- What a failure changes of a version, and its blocks. -/
def core (z : Version) : WbState × Nat × List (Nat × Block) := (z.state, z.attempts, z.blocks)

theorem core_modVersion_of_ne {x : Slice} {w k : Nat} (f : Version → Version) (hf : ∀ z, (f z).wslot = z.wslot) (h : k ≠ w) :
    ((x.modVersion w f).version k).map core = (x.version k).map core := by
  rw [version_modVersion x w k f hf]
  simp [h]

theorem version_dropVersion_self (x : Slice) (w : Nat) (e : Entry) : (x.dropVersion w e).version w = none :=
  List.find?_eq_none.mpr fun z hz => by simpa using (mem_dropVersion hz).1

/-- A change of versions that keeps their slots, states, attempts and blocks. -/
theorem core_find_map (l : List Version) (k : Nat) (f : Version → Version) (slot : ∀ z, (f z).wslot = z.wslot) (same : ∀ z, core (f z) = core z) :
    (recGet Version.wslot (l.map f) k).map core = (recGet Version.wslot l k).map core := by
  have key : ((fun z : Version => z.wslot == k) ∘ f) = fun z => z.wslot == k := funext fun z => by rw [Function.comp_apply, slot]
  have cores : core ∘ f = core := funext same
  rw [recGet, List.find?_map, key, Option.map_map, cores]
  rfl

theorem core_dropVersion_of_ne {x : Slice} {w k : Nat} (e : Entry) (h : k ≠ w) :
    ((x.dropVersion w e).version k).map core = (x.version k).map core := by
  unfold Slice.dropVersion
  split
  · rfl
  · next v _ =>
    extract_lets y seeded y'
    have left : (y'.version k).map core = (x.version k).map core := by
      refine (core_find_map _ k _ (fun z => ?_) fun z => ?_).trans ?_
      · split <;> rfl
      · split <;> rfl
      · rw [recGet_recErase, if_neg h]
        rfl
    split
    · exact left
    · exact left

theorem retried_wslot (v : Version) (group : Nat) (y : Version) : (retried v group y).wslot = y.wslot := rfl

/-- The failure of one version leaves every other as it is. -/
theorem core_failedSlice_of_ne (group : Nat) (x : Slice) {k : Nat} (h : k ≠ v.wslot) :
    ((failedSlice group x v).version k).map core = (x.version k).map core := by
  unfold failedSlice
  split
  · split
    · exact core_dropVersion_of_ne _ h
    · refine core_modVersion_of_ne _ ?_ h
      exact retried_wslot v group
  · exact core_modVersion_of_ne _ (retried_wslot v group) h

/-- The blocks of a version's record. -/
def coreBlocks (q : WbState × Nat × List (Nat × Block)) : List (Nat × Block) := q.2.2

/-- A version that does not give up starts again with one attempt more. -/
theorem core_failedSlice_self (group : Nat) {x : Slice} {bs : List (Nat × Block)} (retry : givesUp v = false)
    (found : ((x.version v.wslot).map core).map coreBlocks = some bs) :
    ((failedSlice group x v).version v.wslot).map core = some (.filling, v.attempts + 1, bs) := by
  rw [failedSlice, retry, if_neg (by decide), version_modVersion x v.wslot v.wslot _ (retried_wslot v group)]
  cases h : x.version v.wslot with
  | none =>
    rw [h] at found
    cases found
  | some z =>
    rw [h] at found
    cases found
    rw [Option.map_some, if_pos rfl]
    rfl

/-- One that gives up with nothing acknowledged is discarded. -/
theorem version_failedSlice_self (group : Nat) (x : Slice) (last : givesUp v = true) (none_ : v.acked = []) :
    (failedSlice group x v).version v.wslot = none := by
  rw [failedSlice, last, if_pos rfl, none_, if_pos (show [].isEmpty = true from rfl)]
  exact version_dropVersion_self x _ _

section
variable {l : List Version} (single : ∀ z ∈ l, z.wslot = v.wslot → z = v)
include single

theorem foldl_failedSlice_retries (group : Nat) {x : Slice} (retry : givesUp v = false) (mem : v ∈ l) (found : x.version v.wslot = some v) :
    ((l.foldl (failedSlice group) x).version v.wslot).map core = some (.filling, v.attempts + 1, v.blocks) := by
  have blocks : ∀ y : Slice, ((y.version v.wslot).map core) = some (.filling, v.attempts + 1, v.blocks) →
      ((y.version v.wslot).map core).map coreBlocks = some v.blocks := fun y h => by rw [h]; rfl
  refine foldl_reaches (P := fun y : Slice => ((y.version v.wslot).map core).map coreBlocks = some v.blocks)
    (Q := fun y : Slice => (y.version v.wslot).map core = some (WbState.filling, v.attempts + 1, v.blocks)) (fun r a ha kept => ?_)
    (fun r kept => core_failedSlice_self group retry kept) (fun r a ha done => ?_) mem (by rw [found]; rfl)
  · by_cases slot : a.wslot = v.wslot
    · rw [single a ha slot]
      exact blocks _ (core_failedSlice_self group retry kept)
    · rw [core_failedSlice_of_ne group r (Ne.symm slot)]
      exact kept
  · by_cases slot : a.wslot = v.wslot
    · rw [single a ha slot]
      exact core_failedSlice_self group retry (blocks r done)
    · rw [core_failedSlice_of_ne group r (Ne.symm slot)]
      exact done

theorem foldl_failedSlice_drops (group : Nat) (x : Slice) (last : givesUp v = true) (none_ : v.acked = []) (mem : v ∈ l) :
    (l.foldl (failedSlice group) x).version v.wslot = none := by
  refine foldl_reaches (P := fun _ => True) (Q := fun y : Slice => y.version v.wslot = none) (fun _ _ _ _ => trivial)
    (fun r _ => version_failedSlice_self group r last none_) (fun r a ha done => ?_) mem trivial
  by_cases slot : a.wslot = v.wslot
  · rw [single a ha slot]
    exact version_failedSlice_self group r last none_
  · have kept := core_failedSlice_of_ne group r (Ne.symm slot)
    rw [done] at kept
    exact Option.map_eq_none_iff.mp kept

end

/-! ### The commands that wait (R55, R58) -/

/-- A command that waited for a program: it still waits for it, or has failed with Write Fault. -/
structure WaitsOrFailed (c : Cond) (y z : InFlight) : Prop where
  hdr : z.hdr = y.hdr
  waits : z.failLba = none → c ∈ z.conds
  failed : z.failLba ≠ none → z.answer.status = stWriteFault

/-- The failure of a condition with Write Fault. -/
theorem waitsOrFailed_fail {c e : Cond} {y z : InFlight} (nsid lba : Nat) (h : WaitsOrFailed c y z) :
    WaitsOrFailed c y (if e ∈ z.conds then ({ z with conds := z.conds.filter (· != e) } : InFlight).failPart (ansAt stWriteFault nsid lba) else z) := by
  obtain ⟨hdr, waits, failed⟩ := h
  split
  · unfold InFlight.failPart
    split
    · next lower =>
      have set_ : z.failLba ≠ none := fun none_ => by
        simp only [none_] at lower
        cases lower
      exact ⟨hdr, fun none_ => absurd none_ set_, fun _ => failed set_⟩
    · exact ⟨hdr, fun none_ => (by cases none_), fun _ => rfl⟩
  · exact ⟨hdr, waits, failed⟩

theorem mem_conds_fail {c e : Cond} {z : InFlight} (a : Answer)
    (h : c ∈ (if e ∈ z.conds then ({ z with conds := z.conds.filter (· != e) } : InFlight).failPart a else z).conds) : c ∈ z.conds ∧ c ≠ e := by
  split at h
  · have kept : c ∈ z.conds.filter (· != e) := by
      unfold InFlight.failPart at h
      split at h <;> exact h
    simpa using kept
  · next other => exact ⟨h, fun same => other (same ▸ h)⟩

theorem inflight_failedVersion (s : State) (n group : Nat) (v : Version) :
    (s.failedVersion n group v).inflight = s.inflight ∨ ∃ lba, (s.failedVersion n group v).inflight =
      s.inflight.map fun z => if Cond.programmed n v.wslot ∈ z.conds then
        ({ z with conds := z.conds.filter (· != .programmed n v.wslot) } : InFlight).failPart (ansAt stWriteFault v.nsid lba) else z := by
  obtain ⟨lba, e⟩ := failedVersion_eq s n group v
  rw [e]
  cases givesUp v with
  | true => exact .inr ⟨lba, rfl⟩
  | false => exact .inl rfl

/-- Through the failure of any version, a command that waited for a program waits for it or has failed. -/
theorem failedVersion_waitsOrFailed {c : Cond} {y : InFlight} (group : Nat) (v : Version) (h : ∃ z ∈ s.inflight, WaitsOrFailed c y z) :
    ∃ z ∈ (s.failedVersion n group v).inflight, WaitsOrFailed c y z := by
  obtain ⟨z, mem, state⟩ := h
  rcases inflight_failedVersion s n group v with e | ⟨lba, e⟩ <;> rw [e]
  · exact ⟨z, mem, state⟩
  · exact ⟨_, List.mem_map_of_mem mem, waitsOrFailed_fail v.nsid lba state⟩

/-- Once it no longer waits, it does not wait again. -/
theorem failedVersion_failed {c : Cond} {y : InFlight} (group : Nat) (v : Version) (h : ∃ z ∈ s.inflight, WaitsOrFailed c y z ∧ c ∉ z.conds) :
    ∃ z ∈ (s.failedVersion n group v).inflight, WaitsOrFailed c y z ∧ c ∉ z.conds := by
  obtain ⟨z, mem, state, gone⟩ := h
  rcases inflight_failedVersion s n group v with e | ⟨lba, e⟩ <;> rw [e]
  · exact ⟨z, mem, state, gone⟩
  · exact ⟨_, List.mem_map_of_mem mem, waitsOrFailed_fail v.nsid lba state, fun still => gone (mem_conds_fail _ still).1⟩

/-- A version that gives up ends the wait for its program. -/
theorem failedVersion_ends {y : InFlight} (group : Nat) (last : givesUp v = true)
    (h : ∃ z ∈ s.inflight, WaitsOrFailed (.programmed n v.wslot) y z) :
    ∃ z ∈ (s.failedVersion n group v).inflight, WaitsOrFailed (.programmed n v.wslot) y z ∧ .programmed n v.wslot ∉ z.conds := by
  obtain ⟨z, mem, state⟩ := h
  obtain ⟨lba, e⟩ := failedVersion_eq s n group v
  rw [e, last]
  exact ⟨_, List.mem_map_of_mem mem, waitsOrFailed_fail v.nsid lba state, fun still => (mem_conds_fail _ still).2 rfl⟩

theorem foldl_failedVersion_ends {l : List Version} {y : InFlight} (group : Nat) (last : givesUp v = true) (mem : v ∈ l) (hy : y ∈ s.inflight)
    (waits : .programmed n v.wslot ∈ y.conds) (whole : y.failLba = none) :
    ∃ z ∈ (l.foldl (fun s v => s.failedVersion n group v) s).inflight,
      z.hdr = y.hdr ∧ z.answer.status = stWriteFault ∧ .programmed n v.wslot ∉ z.conds := by
  have ended := foldl_reaches (f := fun s v => s.failedVersion n group v) (l := l) (r := s)
    (P := fun r : State => ∃ z ∈ r.inflight, WaitsOrFailed (.programmed n v.wslot) y z)
    (Q := fun r : State => ∃ z ∈ r.inflight, WaitsOrFailed (.programmed n v.wslot) y z ∧ .programmed n v.wslot ∉ z.conds)
    (fun r a _ => failedVersion_waitsOrFailed group a) (fun r => failedVersion_ends group last) (fun r a _ => failedVersion_failed group a) mem
    ⟨y, hy, rfl, fun _ => waits, fun h => absurd whole h⟩
  obtain ⟨z, hz, state, gone⟩ := ended
  exact ⟨z, hz, state.hdr, state.failed fun none_ => gone (state.waits none_), gone⟩

end Sys2Proof.Proofs
end

section
/-!
The failure of a page's program (R119), from the operation that failed to what becomes of a version on the page.
-/

namespace Sys2Proof.Proofs

open Sys2Proof.Machine Sys2Proof.Laws

variable {s t u : State} {n seq lun : Nat} {d : MediaDesc} {v : Version}

/-! ### Repairs that leave versions and commands alone -/

/-- Neither a command in flight nor a version of the slice changed. -/
structure KeepsVersions (n : Nat) (s t : State) : Prop where
  inflight : t.inflight = s.inflight
  versions : (t.slice n).versions = (s.slice n).versions

theorem KeepsVersions.refl (n : Nat) (s : State) : KeepsVersions n s s := ⟨rfl, rfl⟩

theorem KeepsVersions.trans (h : KeepsVersions n s t) (g : KeepsVersions n t u) : KeepsVersions n s u :=
  ⟨g.inflight.trans h.inflight, g.versions.trans h.versions⟩

theorem keepsVersions_foldl {α : Type} {f : State → α → State} (h : ∀ r x, KeepsVersions n r (f r x)) (l : List α) (s : State) :
    KeepsVersions n s (l.foldl f s) :=
  List.foldlRecOn l f (.refl n s) fun r hr x _ => hr.trans (h r x)

theorem keepsVersions_modSlice (s : State) (f : Slice → Slice) (h : ∀ x, (f x).versions = x.versions) : KeepsVersions n s (s.modSlice n f) :=
  ⟨rfl, modSlice_keeps Slice.versions s n n f h⟩

theorem keepsVersions_evalSpare (s : State) : KeepsVersions n s (s.evalSpare n) := by
  obtain ⟨r, e⟩ := slice_evalSpare s n n
  exact ⟨(evalSpare_frame s n (.refl 0x20004 s) rfl).same .inflight rfl, by rw [e]⟩

theorem keepsVersions_markBlock (s : State) (lun b : Nat) : KeepsVersions n s (s.markBlock n lun b) := by
  unfold State.markBlock
  extract_lets marked
  have marks : KeepsVersions n s marked := keepsVersions_modSlice s _ fun _ => rfl
  split
  · exact marks
  · unfold State.retireBlock
    split
    · exact marks
    · refine (marks.trans ?_).trans (keepsVersions_evalSpare _)
      exact keepsVersions_modSlice marked _ fun _ => rfl

theorem keepsVersions_countReads (s : State) (lun b k : Nat) : KeepsVersions n s (s.countReads n lun b k) := by
  unfold State.countReads
  extract_lets counted
  have counts : KeepsVersions n s counted := keepsVersions_modSlice s _ fun _ => rfl
  split
  · exact counts
  · split
    · exact counts.trans (keepsVersions_modSlice counted _ fun _ => rfl)
    · exact counts

theorem QueuesOnly.keepsVersions (h : QueuesOnly s t) : KeepsVersions n s t :=
  ⟨h.frame.same .inflight rfl, h.keeps Slice.versions (fun _ _ _ _ => rfl) n⟩

theorem keepsVersions_failedMove (s : State) (group : Nat) (m : Move) : KeepsVersions n s (s.failedMove n group m) := by
  unfold State.failedMove
  extract_lets restarted
  have restarts : KeepsVersions n s restarted := keepsVersions_modSlice s _ fun _ => rfl
  refine restarts.trans ?_
  unfold State.senseUnit
  split
  · refine keepsVersions_foldl (fun r q => ?_) _ _
    split
    · exact .refl n r
    · exact (keepsVersions_countReads r ..).trans (queuesOnly_queueRead ..).keepsVersions
  · exact .refl n _

theorem keepsVersions_closeDone (s : State) (seq : Nat) : KeepsVersions n s (s.closeDone n seq) := keepsVersions_modSlice s _ fun _ => rfl

/-! ### The versions on the failed pages -/

/-- The versions that stream to some pages of a superblock. -/
def hitVersions (x : Slice) (d : MediaDesc) (b : Superblock) (ps : List Nat) : List Version :=
  x.versions.filter fun v => v.state == .streaming && v.sb == b.seq && (b.span d v.start (unitBytes v.slen)).any ps.contains

/-- The versions and the commands after a sweep of failed pages. -/
theorem keepsVersions_sweepFailed (s : State) (d : MediaDesc) (b : Superblock) (ps : List Nat) :
    KeepsVersions n ((hitVersions (s.slice n) d b ps).foldl (fun s v => s.failedVersion n b.group v) s) (s.sweepFailed n d b ps) :=
  keepsVersions_foldl (fun r m => keepsVersions_failedMove r b.group m) _ _

theorem slice_failedVersion (here : n < s.slices.length) (group : Nat) (v : Version) :
    (s.failedVersion n group v).slice n = failedSlice group (s.slice n) v := by
  obtain ⟨lba, e⟩ := failedVersion_eq s n group v
  rw [e]
  cases givesUp v with
  | true => exact slice_modSlice_self _ here
  | false => exact slice_modSlice_self _ here

theorem slices_length_failedVersion (s : State) (n group : Nat) (v : Version) : (s.failedVersion n group v).slices.length = s.slices.length := by
  obtain ⟨lba, e⟩ := failedVersion_eq s n group v
  rw [e, slices_length_modSlice]
  cases givesUp v <;> rfl

theorem slice_foldl_failedVersion (here : n < s.slices.length) (group : Nat) (l : List Version) :
    (l.foldl (fun s v => s.failedVersion n group v) s).slice n = l.foldl (failedSlice group) (s.slice n) := by
  induction l generalizing s with
  | nil => rfl
  | cons a l ih =>
    rw [List.foldl_cons, List.foldl_cons, ih ((slices_length_failedVersion s n group a).symm ▸ here), slice_failedVersion here]

/-- The pages of a block that wait for their programs. -/
def pagesOf (b : Superblock) (lun k : Nat) : List Nat := b.waiting.filter fun p => (b.pageAt p).any fun q => q.1 == lun && q.2.1 == k

/-- The state with the block's pages lost to their superblock, and its units to be relocated. -/
def pagesLost (s : State) (n seq lun k : Nat) (d : MediaDesc) (ps : List Nat) : State :=
  s.modSlice n fun x =>
    ((x.dropWorks fun w => match w.why with
      | .page q p => q == seq && ps.contains p
      | _ => false).modSuper seq fun sb =>
        { (sb.without d fun i => lunAt sb.group i == lun) with
          waiting := sb.waiting.filter fun p => !ps.contains p, lost := sb.lost ++ ps }).relocate (s.unitsOn n lun k)

theorem failBlock_eq {b : Superblock} (lun k : Nat) (described : s.desc n = some d) (found : (s.slice n).super seq = some b) :
    s.failBlock n seq lun k =
      ((((pagesLost s n seq lun k d (pagesOf b lun k)).markBlock n lun k).sweepFailed n d b (pagesOf b lun k)).closeDone n seq) := by
  rw [State.failBlock, described, found]
  rfl

theorem mem_pagesOf {b : Superblock} {k p : Nat} (waits : p ∈ b.waiting) (page : ((b.pageAt p).map fun q => (q.1, q.2.1)) = some (lun, k)) :
    p ∈ pagesOf b lun k := by
  obtain ⟨q, here, place⟩ := Option.map_eq_some_iff.mp page
  refine List.mem_filter.mpr ⟨waits, ?_⟩
  rw [here, Option.any_some]
  simp [Prod.mk.inj place]

/-- The state in which the failed pages of a block are swept. -/
def beforeSweep (s : State) (n id seq lun k : Nat) (d : MediaDesc) (b : Superblock) : State :=
  (pagesLost (s.dropWork1 n id) n seq lun k d (pagesOf b lun k)).markBlock n lun k

theorem keepsVersions_beforeSweep (s : State) (n id seq lun k : Nat) (d : MediaDesc) (b : Superblock) :
    KeepsVersions n s (beforeSweep s n id seq lun k d b) := by
  refine .trans (.trans (t := s.dropWork1 n id) ?_ ?_) (keepsVersions_markBlock _ lun k)
  · exact keepsVersions_modSlice s _ fun _ => rfl
  · exact keepsVersions_modSlice _ _ fun _ => rfl

theorem programRepaired_of_page {x : FlWork} {b : Superblock} {p : Nat} (described : s.desc n = some d) (page : x.why = .page seq p)
    (found : (s.slice n).super seq = some b) :
    programRepaired s n lun x =
      ((beforeSweep s n x.id seq lun x.block d b).sweepFailed n d b (pagesOf b lun x.block)).closeDone n seq := by
  have here : ((s.dropWork1 n x.id).slice n).super seq = some b := by
    refine (modSlice_keeps (fun y : Slice => y.super seq) s n n _ ?_).trans found
    exact fun _ => rfl
  rw [programRepaired, page]
  exact failBlock_eq lun x.block ((desc_dropWork1 s n x.id).trans described) here

/-- Where few of the LUN's blocks have failed, the failure is counted and no more. -/
theorem countFailure_of_few (s : State) (n lun b : Nat) (few : ∀ l, (s.slice n).lun lun = some l → l.failedBlocks.length < 15) :
    s.countFailure n lun b = failureCounted s n lun b := by
  refine (countFailure_eq s n lun b).trans (if_neg fun many => ?_)
  cases e : ((failureCounted s n lun b).slice n).lun lun with
  | none =>
    rw [e] at many
    cases many
  | some k =>
    have here : n < s.slices.length :=
      (slices_length_modSlice s n _) ▸ slice_lt_of_lun (s := failureCounted s n lun b) (by rw [e]; exact Option.some_ne_none k)
    rw [e, Option.any_some, decide_eq_true_eq] at many
    rw [lun_failureCounted here] at e
    obtain ⟨l, found, rfl⟩ := Option.map_eq_some_iff.mp e
    have kept := List.length_filter_le (fun q : Nat × Nat => q.1 != b && decide (s.now < q.2 + dayCourses)) l.failedBlocks
    have := few l found
    simp only [lunCounted, List.length_append, List.length_singleton] at many
    omega

theorem keepsVersions_failureCounted (s : State) (lun b : Nat) : KeepsVersions n s (failureCounted s n lun b) :=
  keepsVersions_modSlice s _ fun _ => rfl

theorem slice_lt_of_version {w : Nat} (found : (s.slice n).version w = some v) : n < s.slices.length := by
  refine slice_lt_of_ne_reset fun e => ?_
  rw [e] at found
  cases found

/-- What lay on a page whose program failed starts again with one attempt more; the third failure under Through rules ends the waiting commands
with Write Fault (R58, R119). -/
theorem programFailed_sweeps {x : FlWork} {b : Superblock} {p : Nat} (media : s.mediaOn n = true) (described : s.desc n = some d)
    (ended : (s.slice n).endedOn lun .program false = some x) (page : x.why = .page seq p) (found : (s.slice n).super seq = some b)
    (waits : p ∈ b.waiting) (place : ((b.pageAt p).map fun q => (q.1, q.2.1)) = some (lun, x.block))
    (few : ∀ l, (s.slice n).lun lun = some l → l.failedBlocks.length < 15) (there : (s.slice n).version v.wslot = some v)
    (single : ∀ z ∈ (s.slice n).versions, z.wslot = v.wslot → z = v) (streaming : v.state = .streaming) (on : v.sb = seq)
    (hit : p ∈ b.span d v.start (unitBytes v.slen)) :
    Completes (.programFailed n lun x.block x.row) s fun t =>
      (v.through = false ∨ v.attempts < 2 →
        ((t.slice n).version v.wslot).map (fun z => (z.state, z.attempts, z.blocks)) = some (.filling, v.attempts + 1, v.blocks)) ∧
      (v.through = true → 2 ≤ v.attempts → (v.acked = [] → (t.slice n).version v.wslot = none) ∧
        ∀ y ∈ s.inflight, .programmed n v.wslot ∈ y.conds → y.failLba = none →
          ∃ z ∈ t.inflight, z.hdr = y.hdr ∧ z.answer.status = stWriteFault ∧ .programmed n v.wslot ∉ z.conds) := by
  refine ⟨_, exec_programFailed media ended, ?_⟩
  have fewer : ∀ l, ((programRepaired s n lun x).slice n).lun lun = some l → l.failedBlocks.length < 15 := fun l hl => by
    have blocks := (keepsFailures_programRepaired (n := n) s lun x).blocks lun
    rw [hl, Option.map_some] at blocks
    obtain ⟨k, known, same⟩ := Option.map_eq_some_iff.mp blocks.symm
    exact same ▸ few k known
  have before := keepsVersions_beforeSweep s n x.id seq lun x.block d b
  have after := (keepsVersions_sweepFailed (beforeSweep s n x.id seq lun x.block d b) d b (pagesOf b lun x.block)).trans
    ((keepsVersions_closeDone _ seq).trans (keepsVersions_failureCounted (n := n) _ lun x.block))
  rw [countFailure_of_few _ n lun x.block fewer, programRepaired_of_page described page found]
  generalize beforeSweep s n x.id seq lun x.block d b = r at before after
  generalize failureCounted _ n lun x.block = t at after
  have version : (r.slice n).version v.wslot = some v := (congrArg (recGet Version.wslot · v.wslot) before.versions).trans there
  have number : b.seq = seq := (super_spec found).2
  have mem : v ∈ hitVersions (r.slice n) d b (pagesOf b lun x.block) := by
    refine List.mem_filter.mpr ⟨(version_spec version).1, ?_⟩
    have pages : (b.span d v.start (unitBytes v.slen)).any (pagesOf b lun x.block).contains = true :=
      List.any_eq_true.mpr ⟨p, hit, List.contains_iff_mem.mpr (mem_pagesOf waits place)⟩
    rw [pages, streaming, on, number]
    simp
  have alone : ∀ z ∈ hitVersions (r.slice n) d b (pagesOf b lun x.block), z.wslot = v.wslot → z = v := fun z hz =>
    single z (before.versions ▸ List.mem_of_mem_filter hz)
  have swept : (t.slice n).version v.wslot =
      ((hitVersions (r.slice n) d b (pagesOf b lun x.block)).foldl (failedSlice b.group) (r.slice n)).version v.wslot := by
    rw [← slice_foldl_failedVersion (slice_lt_of_version version)]
    exact congrArg (recGet Version.wslot · v.wslot) after.versions
  refine ⟨fun again => ?_, fun through many => ⟨fun none_ => ?_, fun y hy waiting whole => ?_⟩⟩
  · have retry : givesUp v = false := by
      rcases again with h | h
      · simp [givesUp, h]
      · simp [givesUp, Nat.not_le.mpr h]
    rw [swept]
    exact foldl_failedSlice_retries alone b.group retry mem version
  · rw [swept]
    exact foldl_failedSlice_drops alone b.group _ (by simp [givesUp, through, many]) none_ mem
  · rw [after.inflight]
    exact foldl_failedVersion_ends b.group (by simp [givesUp, through, many]) mem (before.inflight.symm ▸ hy) waiting whole

end Sys2Proof.Proofs
end

section
namespace Sys2Proof.Proofs

open Sys2Proof.Machine Sys2Proof.Laws

/-- Settles O49: versions that age, pages that fill, programs confirmed and failed, failed erases, codewords and patrols, each by the law of its
command. -/
theorem versionsGoToFlashAndAreChecked : Obligations.VersionsGoToFlashAndAreChecked := by
  unfold Obligations.VersionsGoToFlashAndAreChecked
  refine ⟨fun n w s v media found opened => streamAgeTrigger_completes media found opened,
    fun n sb s d b media described found opened packing old => flashPageAgeTimeout_completes media described found opened packing old,
    fun n lun seq p s d x b c media described ended page found left => programConfirmed_completes media described ended page found left,
    fun n lun s x media ended known => programFailed_counts media ended known,
    fun n lun seq p s d x b v media described ended page found waits place few there single streaming on hit =>
      programFailed_sweeps media described ended page found waits place few there single streaming on hit,
    fun n lun s x media ended => eraseFailed_retires media ended,
    fun n c w ix p s i media _ asked correctable addressed tagged held slot hx vacant =>
      readPassDone_delivers media asked correctable addressed tagged held slot hx vacant,
    fun n c w ix p s media written bad => readPassDone_flags media written bad,
    fun n c w ix seq p s b media number asked last hard correctable addressed few found verifying read =>
      readPassDone_verifies media number asked last hard correctable addressed few found verifying read,
    fun n sb weak s d b media described found verified serving => patrolDue_completes weak media described found verified serving⟩

end Sys2Proof.Proofs
end

section
/-!
Key slots and write counters through the key store's operations (R170, R183, R184, R418): what a slot holds once a key enters it or leaves
it, and what is left of the counters of its key contexts.
-/

namespace Sys2Proof.Proofs

open Sys2Proof.Machine Sys2Proof.Laws

/-! ### A key loaded (R184, R418) -/

/-- A slot after a new key: ACTIVE from EMPTY and RETIRING for two courses otherwise, under the next generation (R184). -/
def keyLoaded (s : State) (n use : Nat) (k : Key) : KeySlot :=
  { state := if (s.keySlot n).state = .empty then .active else .retiring, use := use, generation := (s.keySlot n).generation + 1,
    key := k, retireAt := s.now + 2 }

theorem keySlot_zeroCounters (s : State) (n i : Nat) : (s.zeroCounters n).keySlot i = s.keySlot i := rfl

theorem keySlot_loadKey (s : State) (n use : Nat) (k : Key) (i : Nat) :
    (s.loadKey n use k).keySlot i = if i = n then keyLoaded s n use k else s.keySlot i := by
  unfold State.loadKey
  dsimp only
  rw [keySlot_zeroCounters, keySlot_putKey, keyLoaded]
  cases (s.keySlot n).state <;> rfl

theorem keySlot_loadKey_self (s : State) (n use : Nat) (k : Key) : (s.loadKey n use k).keySlot n = keyLoaded s n use k := by
  rw [keySlot_loadKey, if_pos rfl]

theorem keySlot_loadKey_of_ne {i n : Nat} (s : State) (use : Nat) (k : Key) (other : i ≠ n) : (s.loadKey n use k).keySlot i = s.keySlot i := by
  rw [keySlot_loadKey, if_neg other]

theorem inFlight_loadKey (s : State) (n use : Nat) (k : Key) (h : Hdr) : (s.loadKey n use k).inFlight h = s.inFlight h :=
  inFlight_congr ((loadKey_frame s n use k (Frame.refl 0x20000020004 s) rfl).same .inflight rfl) h

theorem keySlot_loadInternal_self (s : State) (n use : Nat) (k : Key) :
    (s.loadInternal n use k).keySlot n = ⟨.active, use, (s.keySlot n).generation + 1, k, 0⟩ := by
  rw [State.loadInternal, keySlot_putKey, if_pos rfl]

theorem inFlight_loadInternal (s : State) (n use : Nat) (k : Key) (h : Hdr) : (s.loadInternal n use k).inFlight h = s.inFlight h :=
  inFlight_congr ((loadInternal_frame s n use k (Frame.refl 0x20000000004 s) rfl).same .inflight rfl) h

/-! ### A slot emptied and unbound (R184, R423) -/

/-- A slot without its key: EMPTY, its generation kept (R184). -/
def slotErased (s : State) (n : Nat) : KeySlot := { s.keySlot n with state := .empty, key := 0 }

theorem keySlot_emptySlot_self (s : State) (n : Nat) : (s.emptySlot n).keySlot n = slotErased s n := by
  rw [State.emptySlot, keySlot_putKey, if_pos rfl, slotErased]

theorem keySlot_emptySlot_of_ne {i n : Nat} (s : State) (other : i ≠ n) : (s.emptySlot n).keySlot i = s.keySlot i := by
  rw [State.emptySlot, keySlot_putKey, if_neg other]

theorem inFlight_emptySlot (s : State) (n : Nat) (h : Hdr) : (s.emptySlot n).inFlight h = s.inFlight h :=
  inFlight_congr ((emptySlot_frame s n (Frame.refl 0x20000000004 s) rfl).same .inflight rfl) h

theorem slot_of_mem_unbind {s : State} {n : Nat} {x : Namespace} (hx : x ∈ (s.unbind n).namespaces) : x.slot ≠ some n := by
  obtain ⟨y, -, rfl⟩ := List.mem_map.mp hx
  split
  · exact nofun
  · assumption

/-! ### Write counters (R170, R184) -/

theorem slice_mapSlices {n : Nat} (s : State) (f : Slice → Slice) (here : n < s.slices.length) : (s.mapSlices f).slice n = f (s.slice n) := by
  rw [State.slice, State.slice, mapSlices_slices, List.getElem?_map, List.getElem?_eq_getElem here]
  rfl

/-- The counters of a key start again in every slice: a context that is not listed has not been used (R170). -/
theorem keyCtr_zeroCounters (s : State) (n k : Nat) : ((s.zeroCounters k).keyCtr n k).ctr = 0 := by
  have unlisted : recGet KeyCtr.slot ((s.zeroCounters k).slice n).counters k = none := by
    show recGet KeyCtr.slot ((s.mapSlices fun x => { x with counters := recErase KeyCtr.slot x.counters k }).slice n).counters k = none
    by_cases here : n < s.slices.length
    · rw [slice_mapSlices s _ here]
      exact (recGet_recErase ..).trans (if_pos rfl)
    · rw [State.slice, mapSlices_slices, List.getElem?_eq_none (by simpa using here)]
      rfl
  rw [State.keyCtr, unlisted]
  rfl

theorem keyCtr_loadKey (s : State) (n k use : Nat) (key : Key) : ((s.loadKey k use key).keyCtr n k).ctr = 0 := keyCtr_zeroCounters ..

end Sys2Proof.Proofs
end

section
/-!
Key Management (R187): GENERATE, IMPORT, ZEROIZE, BIND, IMPORT_KEK and STATUS, and the end of RETIRING (R184).
-/

namespace Sys2Proof.Proofs

open Sys2Proof.Machine Sys2Proof.Laws

variable {s : State} {h : Hdr} {slot use kek session nsid k : Nat} {w : List (BitVec 8)}

theorem answered_failKey (record : (s.inFlight h).isSome = true) (k : Nat) : Answered (s.failKey h k) h (ansReason (keyStatus k) k) :=
  answered_finish record _

/-! ### A new key for a tenant slot (R184, R186) -/

theorem exec_generate (turn : ItsTurn s h) (may : s.keyRefused slot use = none) :
    exec (.generate h slot use) s = .next
      (if s.entropyOk = true then (s.random.2.loadKey slot use s.random.1).finish h (ansSt stOk) else s.failKey h krEntropy) := by
  refine congrArg Host.Outcome.next ((serial_of_turn turn _).trans ?_)
  rw [may]
  cases s.entropyOk <;> rfl

/-- A check that refuses a new key refuses it to GENERATE and to IMPORT. -/
theorem exec_newKey_refused (turn : ItsTurn s h) (refused : s.keyRefused slot use = some k) :
    ∀ i ∈ [Instr.generate h slot use, .importKey h slot kek use w], exec i s = .next (s.failKey h k) := by
  simp only [List.mem_cons, List.not_mem_nil, or_false]
  rintro i (rfl | rfl)
  · refine congrArg Host.Outcome.next ((serial_of_turn turn _).trans ?_)
    rw [refused]
  · refine congrArg Host.Outcome.next ((serial_of_turn turn _).trans ?_)
    rw [refused]

theorem generate_completes (turn : ItsTurn s h) (may : s.keyRefused slot use = none) (entropy : s.entropyOk = true) :
    Completes (.generate h slot use) s fun t => Answered t h (ansSt stOk) ∧
      (t.keySlot slot).generation = (s.keySlot slot).generation + 1 ∧ (t.keySlot slot).use = use ∧
      (t.keySlot slot).state = (if (s.keySlot slot).state = .empty then .active else .retiring) ∧
      (∀ n, (t.keyCtr n slot).ctr = 0) ∧ ∀ k, k ≠ slot → t.keySlot k = s.keySlot k := by
  have loaded := keySlot_loadKey_self s.random.2 slot use s.random.1
  refine ⟨_, (exec_generate turn may).trans (congrArg _ (if_pos entropy)), answered_finish ?_ _, congrArg KeySlot.generation loaded,
    congrArg KeySlot.use loaded, congrArg KeySlot.state loaded, fun n => keyCtr_loadKey s.random.2 n slot use s.random.1,
    fun k other => keySlot_loadKey_of_ne s.random.2 use s.random.1 other⟩
  rw [inFlight_loadKey]
  exact inFlight_isSome_of_turn turn

/-- A failed entropy source lets no key be generated (R186). -/
theorem generate_without_entropy (turn : ItsTurn s h) (may : s.keyRefused slot use = none) (failed : s.entropyOk = false) :
    Completes (.generate h slot use) s fun t => Answered t h (ansReason stInternal 6) ∧ OnlyChanges [.inflight] s t :=
  completes_finished ((exec_generate turn may).trans (congrArg _ (if_neg (by simp [failed])))) (inFlight_isSome_of_turn turn)

/-! ### An imported key (R184, R187) -/

/-- What an IMPORT gives: the unwrapped key, or nothing where it is not 40 bytes or its unwrapping fails. -/
def unwrapped (s : State) (kek : Nat) (w : List (BitVec 8)) : Option Key :=
  if w.length = 40 then Config.unwrap (s.keySlot (4097 + kek % 16)).key w else none

/-- How an IMPORT ends once its bytes are in, with the key that they gave (R184, R187). -/
def imported (s : State) (h : Hdr) (slot use : Nat) : Option Key → State
  | none => (s.setBit Adr.ksEvt 1).failKey h krUnwrap
  | some v => (s.loadKey slot use v).finish h (ansSt stOk)

theorem exec_importKey (turn : ItsTurn s h) (may : s.keyRefused slot use = none) (present : (s.keySlot (4097 + kek % 16)).state ≠ .empty) :
    exec (.importKey h slot kek use w) s = .next (imported (s.dataIn h w.length) h slot use (unwrapped s kek w)) := by
  refine congrArg Host.Outcome.next ((serial_of_turn turn _).trans ?_)
  rw [may]
  refine (if_neg present).trans ?_
  rw [← unwrapped]
  cases unwrapped s kek w <;> rfl

theorem importKey_completes (turn : ItsTurn s h) (may : s.keyRefused slot use = none)
    (present : (s.keySlot (4097 + kek % 16)).state ≠ .empty) :
    Completes (.importKey h slot kek use w) s fun t =>
      (∀ k, k ≠ slot → t.keySlot k = s.keySlot k) ∧
      match unwrapped s kek w with
      | none => Answered t h (ansReason stField 3) ∧ t.nvm = s.nvm ∧ t.bit Adr.ksEvt 1 = true
      | some v => Answered t h (ansSt stOk) ∧ (t.keySlot slot).key = v ∧ (t.keySlot slot).use = use ∧
          (t.keySlot slot).generation = (s.keySlot slot).generation + 1 := by
  have nvm : (s.dataIn h w.length).nvm = s.nvm := (dataIn_frame s h w.length (Frame.refl 0xf00004 s) rfl).same .nvm rfl
  have keys : ∀ k, (s.dataIn h w.length).keySlot k = s.keySlot k := keySlot_congr (congrArg Nvm.keys nvm)
  have record : ((s.dataIn h w.length).inFlight h).isSome = true :=
    (congrArg Option.isSome (dataIn_alike s h w.length).2).trans (inFlight_isSome_of_turn turn)
  refine ⟨_, exec_importKey turn may present, ?_⟩
  generalize s.dataIn h w.length = u at nvm keys record ⊢
  cases unwrapped s kek w with
  | none =>
    exact ⟨fun k _ => keys k, answered_failKey (s := u.setBit Adr.ksEvt 1) record krUnwrap, nvm, bit_setBit_self u Adr.ksEvt 1 (by decide)⟩
  | some v =>
    have loaded := keySlot_loadKey_self u slot use v
    refine ⟨fun k other => (keySlot_loadKey_of_ne u use v other).trans (keys k), answered_finish (s := u.loadKey slot use v) ?_ _,
      congrArg KeySlot.key loaded, congrArg KeySlot.use loaded,
      (congrArg KeySlot.generation loaded).trans (congrArg (fun q : KeySlot => q.generation + 1) (keys slot))⟩
    rw [inFlight_loadKey]
    exact record

/-! ### Slots emptied and bound (R184, R423) -/

theorem exec_zeroize (turn : ItsTurn s h) (tenant : slot < 4096) (active : (s.keySlot slot).state = .active)
    (detached : s.boundAttached slot = false) :
    exec (.zeroize h slot) s = .next (((s.emptySlot slot).unbind slot).finish h (ansSt stOk)) := by
  refine congrArg Host.Outcome.next ((serial_of_turn turn _).trans ((if_neg (by simp [tenantSlot, tenant])).trans ?_))
  rw [active]
  exact if_neg (by simp [detached])

theorem zeroize_completes (turn : ItsTurn s h) (tenant : slot < 4096) (active : (s.keySlot slot).state = .active)
    (detached : s.boundAttached slot = false) :
    Completes (.zeroize h slot) s fun t => Answered t h (ansSt stOk) ∧ (t.keySlot slot).state = .empty ∧ (t.keySlot slot).key = 0 ∧
      (t.keySlot slot).generation = (s.keySlot slot).generation ∧ (∀ x ∈ t.namespaces, x.slot ≠ some slot) ∧
      ∀ k, k ≠ slot → t.keySlot k = s.keySlot k := by
  have emptied := keySlot_emptySlot_self s slot
  refine ⟨_, exec_zeroize turn tenant active detached, answered_finish ?_ _, congrArg KeySlot.state emptied, congrArg KeySlot.key emptied,
    (congrArg KeySlot.generation emptied :), fun x hx => slot_of_mem_unbind hx, fun k other => keySlot_emptySlot_of_ne s other⟩
  exact (congrArg Option.isSome (inFlight_emptySlot s slot h)).trans (inFlight_isSome_of_turn turn)

/-- No other namespace is bound to a slot that BIND accepts. -/
theorem alone_of_bindable {y : Namespace} (may : s.bindRefused slot nsid = none) (hy : y ∈ s.namespaces) (bound : y.slot = some slot) :
    y.nsid = nsid := by
  by_contra other
  have shared : (s.namespaces.any fun y => y.slot == some slot && y.nsid != nsid) = true :=
    List.any_eq_true.mpr ⟨y, hy, by simp [bound, other]⟩
  unfold State.bindRefused at may
  simp only [shared, Bool.or_true, if_true] at may
  split at may
  · cases may
  · split at may
    · cases may
    · split at may <;> cases may

/-- A namespace bound to a slot (R423). -/
def boundTo (slot : Nat) (x : Namespace) : Namespace := { x with slot := some slot }

theorem exec_bind (turn : ItsTurn s h) (may : s.bindRefused slot nsid = none) :
    exec (.bind h slot nsid) s = .next ((s.modNs nsid (boundTo slot)).finish h (ansSt stOk)) := by
  refine congrArg Host.Outcome.next ((serial_of_turn turn _).trans ?_)
  rw [may]
  rfl

theorem bind_completes {x : Namespace} (turn : ItsTurn s h) (found : s.ns nsid = some x) (may : s.bindRefused slot nsid = none) :
    Completes (.bind h slot nsid) s fun t => Answered t h (ansSt stOk) ∧ t.ns nsid = some { x with slot := some slot } ∧
      (∀ y ∈ t.namespaces, y.slot = some slot → y.nsid = nsid) ∧ OnlyChanges [.inflight, .namespaces] s t := by
  refine ⟨_, exec_bind turn may, answered_finish (inFlight_isSome_of_turn turn) _, (ns_modNs_self (boundTo slot) (fun _ => rfl) found).1, ?_,
    onlyChanges_of_frame (finish_frame _ h _ (modNs_frame s nsid (boundTo slot) (Frame.refl _ s) rfl) rfl)⟩
  intro y hy slots
  obtain ⟨z, hz, rfl⟩ := List.mem_map.mp hy
  by_cases this : z.nsid = nsid
  · rw [if_pos this]
    exact this
  · rw [if_neg this] at slots ⊢
    exact alone_of_bindable may hz slots

/-! ### Import KEKs (R418) -/

theorem exec_importKek {key : BitVec 256} (turn : ItsTurn s h) (left : (s.keySlot (4097 + kek % 16)).generation < 0xFFFF)
    (entropy : s.entropyOk = true) (doe : s.doeSession session = true) :
    exec (.importKek h kek session true key) s = .next ((s.loadInternal (4097 + kek % 16) 2 key).finish h (ansSt stOk)) :=
  congrArg Host.Outcome.next ((serial_of_turn turn _).trans ((if_neg (by omega)).trans ((if_neg (by simp [entropy])).trans
    (if_neg (by simp [doe])))))

theorem importKek_completes {key : BitVec 256} (turn : ItsTurn s h) (left : (s.keySlot (4097 + kek % 16)).generation < 0xFFFF)
    (entropy : s.entropyOk = true) (doe : s.doeSession session = true) :
    Completes (.importKek h kek session true key) s fun t => Answered t h (ansSt stOk) ∧
      t.keySlot (4097 + kek % 16) = KeySlot.mk .active 2 ((s.keySlot (4097 + kek % 16)).generation + 1) key 0 := by
  refine ⟨_, exec_importKek turn left entropy doe, answered_finish ?_ _, keySlot_loadInternal_self s (4097 + kek % 16) 2 key⟩
  rw [inFlight_loadInternal]
  exact inFlight_isSome_of_turn turn

/-! ### STATUS (R187) -/

/-- The records that STATUS gives from a slot on. -/
def slotWords (s : State) (slot : Nat) : List Word := (List.range 1024).map fun i => s.slotWord (slot + i)

theorem slotWords_get (s : State) (slot : Nat) {i : Nat} (small : i < 1024) : (slotWords s slot)[i]? = some (s.slotWord (slot + i)) := by
  rw [slotWords, List.getElem?_map, List.getElem?_range small, Option.map_some]

theorem exec_status (turn : ItsTurn s h) (inside : slot ≤ 4607) :
    exec (.status h slot) s = .next ((s.dataOut h 4096).finish h (ansData (.words (slotWords s slot)))) :=
  congrArg Host.Outcome.next ((serial_of_turn turn _).trans (if_neg (Nat.not_lt.mpr inside)))

theorem status_completes (turn : ItsTurn s h) (inside : slot ≤ 4607) :
    Completes (.status h slot) s fun t => t.nvm = s.nvm ∧ ∃ ws, Answered t h (ansData (.words ws)) ∧ ws.length = 1024 ∧
      ∀ i, i < 1024 → ws[i]? = some (if 4160 < slot + i then 0 else (s.keySlot (slot + i)).word) := by
  have sent := dataOut_frame s h 4096 (Frame.refl 0xf00004 s) rfl
  refine ⟨_, exec_status turn inside, sent.same .nvm rfl, slotWords s slot, answered_finish ?_ _, by simp [slotWords],
    fun i small => slotWords_get s slot small⟩
  rw [inFlight_congr (sent.same .inflight rfl)]
  exact inFlight_isSome_of_turn turn

/-! ### The end of RETIRING (R184) -/

/-- A slot ACTIVE again, with no action waiting for it any more. -/
def slotRetired (s : State) (slot : Nat) : State :=
  { s.putKey slot { s.keySlot slot with state := .active } with
    slotWaits := (s.putKey slot { s.keySlot slot with state := .active }).slotWaits.filter fun w => w.slot != slot }

theorem slotWaits_putKey (s : State) (n : Nat) (q : KeySlot) : (s.putKey n q).slotWaits = s.slotWaits :=
  (putKey_frame s n q (Frame.refl 0x20000000004 s) rfl).same .slotWaits rfl

theorem exec_slotRetiringEnd (retiring : (s.keySlot slot).state = .retiring) :
    exec (.slotRetiringEnd slot) s = .next
      (((s.slotWaits.filter fun w => w.slot == slot).foldl State.slotAction (slotRetired s slot)).clearCond (.slotActive slot)) := by
  show execSlotRetiringEnd slot s = _
  rw [← slotWaits_putKey s slot { s.keySlot slot with state := .active }]
  unfold execSlotRetiringEnd
  rw [retiring]
  rfl

theorem conds_clearCond {x : InFlight} (s : State) (c : Cond) (hx : x ∈ (s.clearCond c).inflight) : c ∉ x.conds := by
  obtain ⟨y, -, rfl⟩ := List.mem_map.mp hx
  simp

theorem slotRetiringEnd_completes (retiring : (s.keySlot slot).state = .retiring) :
    Completes (.slotRetiringEnd slot) s fun t => (∀ x ∈ t.inflight, .slotActive slot ∉ x.conds) ∧
      ((∀ w ∈ s.slotWaits, w.slot ≠ slot) → t.keySlot slot = { s.keySlot slot with state := .active } ∧
        ∀ k, k ≠ slot → t.keySlot k = s.keySlot k) := by
  refine ⟨_, exec_slotRetiringEnd retiring, fun x hx => conds_clearCond _ _ hx, fun idle => ?_⟩
  have nothing : (s.slotWaits.filter fun w => w.slot == slot) = [] := List.filter_eq_nil_iff.mpr fun w hw => by simpa using idle w hw
  have put := keySlot_putKey s slot { s.keySlot slot with state := .active }
  rw [nothing]
  exact ⟨(put slot).trans (if_pos rfl), fun k other => (put k).trans (if_neg other)⟩

/-- Settles O32: a key generated, imported, refused, zeroized, bound, a KEK imported, the records reported and RETIRING over, each by the law
of its command. -/
theorem keysEnterAndLeaveTheirSlots : Obligations.KeysEnterAndLeaveTheirSlots := by
  unfold Obligations.KeysEnterAndLeaveTheirSlots
  refine ⟨fun h slot use s turn may entropy => generate_completes turn may entropy,
    fun h slot kek use w s turn may present => importKey_completes turn may present,
    fun h slot kek use k w s turn refused i hi => ⟨_, exec_newKey_refused turn refused i hi, answered_failKey (inFlight_isSome_of_turn turn) k,
      onlyChanges_finish s h _⟩,
    fun h slot s turn tenant active detached => zeroize_completes turn tenant active detached,
    fun h slot nsid s x turn found may => bind_completes turn found may,
    fun h kek session key s turn left entropy doe => importKek_completes turn left entropy doe,
    fun h slot s turn inside => status_completes turn inside,
    fun slot s retiring => slotRetiringEnd_completes retiring⟩

end Sys2Proof.Proofs
end

section
/-!
The entropy source (R186), and the counter ring that makes the write counters persistent (R170 to R172).
-/

namespace Sys2Proof.Proofs

open Sys2Proof.Machine Sys2Proof.Laws

variable {s : State}

/-! ### The entropy source (R186) -/

/-- A failed source: the DRBG stands, both failure bits and the event are set, and READY is clear. -/
def entropyFailed (s : State) : State :=
  (((({ s with entropyOk := false } : State).setBit Adr.ksSts 3).setBit Adr.ksSts 4).clrBit Adr.ksSts 2).setBit Adr.ksEvt 2

/-- A source that passes its retest: both failure bits are clear and READY is set. -/
def entropyBack (s : State) : State := ((({ s with entropyOk := true } : State).clrBit Adr.ksSts 3).clrBit Adr.ksSts 4).setBit Adr.ksSts 2

theorem regsBut_entropyFailed (s : State) : RegsBut [Adr.ksSts, Adr.ksEvt] s (entropyFailed s) := fun a ha => by
  obtain ⟨sts, evt⟩ : a ≠ Adr.ksSts ∧ a ≠ Adr.ksEvt := by simpa using ha
  rw [entropyFailed, rd_setBit_of_ne _ _ evt, rd_clrBit_of_ne _ _ sts, rd_setBit_of_ne _ _ sts, rd_setBit_of_ne _ _ sts]
  rfl

theorem regsBut_entropyBack (s : State) : RegsBut [Adr.ksSts] s (entropyBack s) := fun a ha => by
  have sts : a ≠ Adr.ksSts := by simpa using ha
  rw [entropyBack, rd_setBit_of_ne _ _ sts, rd_clrBit_of_ne _ _ sts, rd_clrBit_of_ne _ _ sts]
  rfl

theorem bits_entropyFailed (s : State) : (entropyFailed s).bit Adr.ksSts 2 = false ∧ (entropyFailed s).bit Adr.ksSts 3 = true ∧
    (entropyFailed s).bit Adr.ksSts 4 = true ∧ (entropyFailed s).bit Adr.ksEvt 2 = true := by
  have apart : Adr.ksSts ≠ Adr.ksEvt := by decide
  simp [entropyFailed, bit_setBit, bit_clrBit, apart]

theorem bits_entropyBack (s : State) :
    (entropyBack s).bit Adr.ksSts 2 = true ∧ (entropyBack s).bit Adr.ksSts 3 = false ∧ (entropyBack s).bit Adr.ksSts 4 = false := by
  simp [entropyBack, bit_setBit, bit_clrBit]

theorem exec_entropyRetest_passes (failed : s.entropyOk = false) : exec (.entropyRetest true) s = .next (entropyBack s) :=
  if_neg (by simp [failed])

theorem exec_entropyRetest_fails (s : State) : exec (.entropyRetest false) s = .next s := if_pos (by simp)

/-! ### The values that the ring keeps (R171) -/

/-- Is a record one of a key context? -/
def ofContext (a b : Nat) (p : Nat × Nat × BitVec 64) : Bool := p.1 == a && p.2.1 == b

theorem ctrP_setCtrP (s : State) (a b : Nat) (v : BitVec 64) (c d : Nat) :
    (s.setCtrP a b v).ctrP c d = if c = a ∧ d = b then v.toNat else s.ctrP c d := by
  have list : (s.setCtrP a b v).ctrP c d =
      (((s.nvm.ctrP.filter (fun p => !ofContext a b p) ++ [(a, b, v)]).find? (ofContext c d)).map fun p => p.2.2.toNat).getD 0 := rfl
  rw [list, List.find?_append, List.find?_filter, List.find?_singleton]
  by_cases same : c = a ∧ d = b
  · obtain ⟨rfl, rfl⟩ := same
    have here : ofContext c d (c, d, v) = true := by simp [ofContext]
    rw [List.find?_eq_none.mpr (by simp), if_pos here]
    exact (if_pos ⟨rfl, rfl⟩).symm
  · have apart : ∀ p, ofContext c d p = true → ofContext a b p = false := fun p hp => by
      obtain ⟨rfl, rfl⟩ : p.1 = c ∧ p.2.1 = d := by simpa [ofContext] using hp
      simpa [ofContext] using same
    have others : (fun p => decide ((!ofContext a b p) = true ∧ ofContext c d p = true)) = ofContext c d := by
      funext p
      cases hp : ofContext c d p with
      | false => simp
      | true => simp [apart p hp]
    have gone : ¬ ofContext c d (a, b, v) = true := fun hp => by simpa [ofContext] using apart _ hp
    rw [if_neg same, others, if_neg gone, Option.or_none]
    rfl

/-- The records of a group store kept, one after the other. -/
def recordsKept (s : State) (rs : List (Nat × Nat × BitVec 64)) : State := rs.foldl (fun s r => s.setCtrP r.1 r.2.1 r.2.2) s

/-- A key context's value after a group store: its record's, where all of its records agree. -/
theorem ctrP_recordsKept {a b v : Nat} (rs : List (Nat × Nat × BitVec 64)) (agree : ∀ q ∈ rs, q.1 = a → q.2.1 = b → q.2.2.toNat = v)
    (s : State) (holds : s.ctrP a b = v ∨ ∃ q ∈ rs, q.1 = a ∧ q.2.1 = b) : (recordsKept s rs).ctrP a b = v := by
  induction rs generalizing s with
  | nil => exact holds.resolve_right (by simp)
  | cons q rs ih =>
    refine ih (fun p hp => agree p (List.mem_cons_of_mem q hp)) (s.setCtrP q.1 q.2.1 q.2.2) ?_
    rw [ctrP_setCtrP]
    by_cases mine : a = q.1 ∧ b = q.2.1
    · rw [if_pos mine]
      exact .inl (agree q List.mem_cons_self mine.1.symm mine.2.symm)
    · rw [if_neg mine]
      refine holds.imp_right fun ⟨p, hp, slice, slot⟩ => ⟨p, (List.mem_cons.mp hp).resolve_left ?_, slice, slot⟩
      rintro rfl
      exact mine ⟨slice.symm, slot.symm⟩

/-- A group store's records are kept without moving the ring. -/
theorem ring_recordsKept (rs : List (Nat × Nat × BitVec 64)) (s : State) :
    (recordsKept s rs).nvm.ringPage = s.nvm.ringPage ∧ (recordsKept s rs).nvm.ringStores = s.nvm.ringStores :=
  List.foldlRecOn (motive := fun t : State => t.nvm.ringPage = s.nvm.ringPage ∧ t.nvm.ringStores = s.nvm.ringStores)
    rs _ ⟨rfl, rfl⟩ fun _ kept _ _ => kept

/-! ### A group store (R171, R172) -/

theorem exec_counterGroupStore (may : s.groupMay = true) (due : s.dueRecords ≠ []) :
    exec .counterGroupStore s = .next { s with groupAt := s.now, groupRecs := some s.dueRecords } :=
  if_neg (by simp [may, due])

/-- No context of any slice waits for its first group store any more. -/
def waitsOver (s : State) : State := s.mapSlices fun x => { x with counters := x.counters.map fun c => { c with waiting := false } }

theorem waiting_waitsOver {x : Slice} (hx : x ∈ (waitsOver s).slices) : ∀ c ∈ x.counters, c.waiting = false := by
  obtain ⟨y, -, rfl⟩ := List.mem_map.mp hx
  intro c hc
  obtain ⟨d, -, rfl⟩ := List.mem_map.mp hc
  rfl

/-- The ring's next pages are written. -/
def ringAdvanced (pages : Nat) (v : Nvm) : Nvm :=
  { v.wearPages ((List.range pages).map fun i => 448 + (v.ringPage + i) % 1024) with
    ringPage := (v.ringPage + pages) % 1024, ringStores := v.ringStores + pages }

/-- A group store that has ended, before the ring's registers show it. -/
def groupStored (s : State) (rs : List (Nat × Nat × BitVec 64)) : State :=
  { (waitsOver (recordsKept s rs)).modNvm (ringAdvanced ((rs.length + 255) / 256)) with groupRecs := none }

/-- KS_RING and KS_STORES show the ring. -/
def ringShown (s : State) : State := (s.wr Adr.ksRing (BitVec.ofNat 32 s.nvm.ringPage)).wr64 Adr.ksStoresLo s.nvm.ringStores

theorem nvm_ringShown (s : State) : (ringShown s).nvm = s.nvm := rfl

theorem slices_ringShown (s : State) : (ringShown s).slices = s.slices := rfl

theorem groupRecs_ringShown (s : State) : (ringShown s).groupRecs = s.groupRecs := rfl

theorem nvm_groupStored (s : State) (rs : List (Nat × Nat × BitVec 64)) :
    (groupStored s rs).nvm = ringAdvanced ((rs.length + 255) / 256) (recordsKept s rs).nvm := rfl

theorem ctrP_of_ringAdvanced {t : State} {pages : Nat} (kept : t.nvm = ringAdvanced pages s.nvm) (a b : Nat) : t.ctrP a b = s.ctrP a b := by
  rw [State.ctrP, kept]
  rfl

theorem exec_groupStoreDone {rs : List (Nat × Nat × BitVec 64)} (begun : s.groupRecs = some rs) :
    exec .groupStoreDone s = .next (ringShown (groupStored s rs)) := by
  show execGroupStoreDone s = _
  unfold execGroupStoreDone
  rw [begun]
  rfl

theorem groupStoreDone_completes {rs : List (Nat × Nat × BitVec 64)} (begun : s.groupRecs = some rs) :
    Completes .groupStoreDone s fun t => t.groupRecs = none ∧ (∀ x ∈ t.slices, ∀ c ∈ x.counters, c.waiting = false) ∧
      t.nvm.ringPage = (s.nvm.ringPage + (rs.length + 255) / 256) % 1024 ∧
      t.nvm.ringStores = s.nvm.ringStores + (rs.length + 255) / 256 ∧
      ∀ r ∈ rs, (∀ q ∈ rs, q.1 = r.1 → q.2.1 = r.2.1 → q = r) → t.ctrP r.1 r.2.1 = r.2.2.toNat := by
  obtain ⟨page, stores⟩ := ring_recordsKept rs s
  have nvm := (nvm_ringShown (groupStored s rs)).trans (nvm_groupStored s rs)
  refine ⟨_, exec_groupStoreDone begun, groupRecs_ringShown _, fun x hx => waiting_waitsOver ((slices_ringShown (groupStored s rs)) ▸ hx), ?_, ?_,
    fun r hr alone => ?_⟩
  · rw [nvm, ringAdvanced, page]
  · rw [nvm, ringAdvanced, stores]
  · rw [ctrP_of_ringAdvanced nvm]
    exact ctrP_recordsKept rs (fun q hq slice slot => by rw [alone q hq slice slot]) s (.inr ⟨r, hr, rfl, rfl⟩)

/-- Settles O33: the source that fails and comes back, and a group store's beginning and end, each by the law of its command; a counter value
taken, by the law of takeCtr. -/
theorem entropyAndTheCounterRing : Obligations.EntropyAndTheCounterRing := by
  unfold Obligations.EntropyAndTheCounterRing
  refine ⟨fun s => ?_, fun h slot use s turn may failed => generate_without_entropy turn may failed, fun s failed => ?_,
    fun s _ => exec_entropyRetest_fails s, fun s n k here => ⟨rfl, keyCtr_takeCtr here k⟩, fun s may due => ?_,
    fun s rs begun => groupStoreDone_completes begun⟩
  · obtain ⟨ready, failure, stopped, event⟩ := bits_entropyFailed s
    exact ⟨entropyFailed s, rfl, rfl, ready, failure, stopped, event, regsBut_entropyFailed s,
      commandsChangeOnlyTheirFootprint .entropyFail s _ rfl⟩
  · obtain ⟨ready, failure, stopped⟩ := bits_entropyBack s
    exact ⟨_, exec_entropyRetest_passes failed, rfl, ready, failure, stopped, regsBut_entropyBack s⟩
  · have run := exec_counterGroupStore may due
    exact ⟨_, run, rfl, rfl, commandsChangeOnlyTheirFootprint .counterGroupStore s _ run⟩

end Sys2Proof.Proofs
end

section
/-!
Associative search arrays (R206 to R215): an operation that its array serves runs on the cycles of its payer, and each kind of operation has
its law of what the array then holds.
-/

namespace Sys2Proof.Proofs

open Sys2Proof.Machine Sys2Proof.Laws

variable {s t : State} {n r p q off : Nat}

/-! ### An array that exists -/

/-- The slice and its array exist. -/
structure HasArray (s : State) (n r : Nat) : Prop where
  slice : n < s.slices.length
  array : r < (s.slice n).arrays.length

theorem array_congr (h : t.slices = s.slices) : t.array n r = s.array n r := by
  rw [State.array, State.array, slice_congr h]

theorem array_modArray (here : HasArray s n r) (f : SearchArray → SearchArray) : (s.modArray n r f).array n r = f (s.array n r) := by
  obtain ⟨hn, hr⟩ := here
  rw [State.array, State.array, State.modArray, slice_modSlice_self _ hn]
  simp only [modAt_get, if_true, List.getElem?_eq_getElem hr, Option.map_some, Option.getD_some]

theorem hasArray_modArray (here : HasArray s n r) (f : SearchArray → SearchArray) : HasArray (s.modArray n r f) n r where
  slice := (slices_length_modSlice s n _).symm ▸ here.slice
  array := by
    rw [State.modArray, slice_modSlice_self _ here.slice]
    exact (modAt_length _ r f).symm ▸ here.array

theorem hasArray_congr (h : t.slices = s.slices) (here : HasArray s n r) : HasArray t n r where
  slice := h ▸ here.slice
  array := (slice_congr h n).symm ▸ here.array

/-- What a change of an array leaves alone in it, whether or not the array exists. -/
theorem modArray_keeps {α : Type} (g : SearchArray → α) {f : SearchArray → SearchArray} (h : ∀ a, g (f a) = g a) :
    g ((s.modArray n r f).array n r) = g (s.array n r) :=
  modSlice_keeps (fun x => g ((x.arrays[r]?).getD State.arrayEmpty)) s n n _ fun x => by
    rw [modAt_get, if_pos rfl]
    cases x.arrays[r]? with
    | none => rfl
    | some a => exact h a

/-! ### How an operation ends -/

theorem slices_searchError (s : State) (n r p status off : Nat) : (s.searchError n r p status off).slices = s.slices :=
  (searchError_frame s n r p status off (Frame.refl 0x4 s) rfl).same .slices rfl

theorem array_searchEnd (here : HasArray s n r) (p status off : Nat) :
    (s.searchEnd n r p status off).array n r = { s.array n r with lastStatus := status } := by
  rw [State.searchEnd]
  split
  · exact array_modArray here _
  · exact (array_congr (slices_searchError ..)).trans (array_modArray here _)

theorem bit_searchEnd_of_ne (s : State) (r p status off k : Nat) {a : Nat} (h : a ≠ Adr.asErrSts n) :
    (s.searchEnd n r p status off).bit a k = s.bit a k := by
  rw [State.searchEnd]
  split
  · rfl
  · rw [State.searchError]
    split
    · rfl
    · exact bit_wr_of_ne _ _ _ h

/-! ### An operation that its array serves -/

/-- The checks of an operation pass and its array carries it out (R211, R221, R222). -/
structure Served (s : State) (n r p q off : Nat) : Prop where
  check : s.searchCheck n r p q off = 0
  active : s.active (UnitId.array n r) = true
  rate : s.searchRate n r ≠ 3

theorem Served.of (check : s.searchCheck n r p q off = 0) (serves : ServesSearches s n r) : Served s n r p q off :=
  ⟨check, serves.1, serves.2⟩

theorem Served.offArray (h : Served s n r p q off) (op : SearchOp) : s.offArray n r ⟨p, q, off, op⟩ = false := by
  rw [State.offArray, h.check, h.active, beq_eq_false_iff_ne.mpr h.rate]
  rfl

theorem Served.searchView (h : Served s n r p q off) : s.searchView n r = some ((s.array n r).entries, false) :=
  if_pos h.active

/-- An array that serves is not suspended. -/
theorem Served.not_suspended (h : Served s n r p q off) : (s.searchRate n r == 3) = false := beq_eq_false_iff_ne.mpr h.rate

/-! ### Cycles (R213) -/

/-- The state in which an operation of a requester runs: k cycles are charged to its payer. -/
def issued (s : State) (n r k q : Nat) : State := s.spendCycles n r k (s.cyclePayer q)

theorem issued_keeps {α : Type} (g : SearchArray → α) (k : Nat) (h : ∀ a l, g { a with spent := l } = g a) :
    g ((issued s n r k q).array n r) = g (s.array n r) :=
  modArray_keeps g fun a => h a _

theorem entries_issued (s : State) (n r k q : Nat) : ((issued s n r k q).array n r).entries = (s.array n r).entries :=
  issued_keeps SearchArray.entries k fun _ _ => rfl

theorem Served.issued (h : Served s n r p q off) (k : Nat) : Served (issued s n r k q) n r p q off := ⟨h.check, h.active, h.rate⟩

theorem hasArray_issued (here : HasArray s n r) (k : Nat) : HasArray (issued s n r k q) n r := hasArray_modArray here _

/-- An operation on cycles that its payer has runs at once. -/
theorem searchIssue_runs {op : SearchOp} {k : Nat} (h : Served s n r p q off) (need : (⟨p, q, off, op⟩ : SearchJob).cycles = k) (pos : 0 < k)
    (left : HasCycles s n r q k) (whole : ((issued s n r k q).searchRun n r k ⟨p, q, off, op⟩).1 = none) :
    s.searchIssue n r ⟨p, q, off, op⟩ = ((issued s n r k q).searchRun n r k ⟨p, q, off, op⟩).2 := by
  obtain ⟨enough, free⟩ := left
  rw [issued] at whole
  rw [State.searchIssue, h.offArray op, need]
  dsimp only
  rw [free, Nat.min_eq_left enough, whole, Bool.or_false, decide_eq_false (by omega)]
  rfl

/-- Without a cycle left an operation waits. -/
theorem searchIssue_waits (op : SearchOp) (h : Served s n r p q off) (spent : s.cyclesLeft n r (s.cyclePayer q) = 0) :
    s.searchIssue n r ⟨p, q, off, op⟩ = s.modArray n r fun a => { a with jobs := a.jobs ++ [⟨p, q, off, op⟩] } := by
  rw [State.searchIssue, h.offArray op]
  dsimp only
  rw [spent, Nat.min_zero]
  rfl

/-- An operation that its checks refuse ends at once. -/
theorem searchIssue_refused (op : SearchOp) (h : s.searchCheck n r p q off ≠ 0) :
    s.searchIssue n r ⟨p, q, off, op⟩ = (s.searchRun n r (⟨p, q, off, op⟩ : SearchJob).cycles ⟨p, q, off, op⟩).2 := by
  have refused : s.offArray n r ⟨p, q, off, op⟩ = true := by
    rw [State.offArray, bne_iff_ne.mpr h]
    rfl
  rw [State.searchIssue, refused]
  rfl

/-- The operations of one cycle: all but a batch. -/
def SingleCycle (op : SearchOp) : Prop := ∀ keys ptr written, op ≠ .batch keys ptr written

theorem cycles_of_single {op : SearchOp} (single : SingleCycle op) : (⟨p, q, off, op⟩ : SearchJob).cycles = 1 := by
  cases op with
  | batch keys ptr written => exact absurd rfl (single keys ptr written)
  | _ => rfl

theorem searchRun_of_single {op : SearchOp} (single : SingleCycle op) (k : Nat) : (s.searchRun n r k ⟨p, q, off, op⟩).1 = none := by
  cases op with
  | batch keys ptr written => exact absurd rfl (single keys ptr written)
  | _ => rfl

theorem single_completes {i : Instr} {op : SearchOp} {P : State → Prop} (run : exec i s = .next (s.searchIssue n r ⟨p, q, off, op⟩))
    (single : SingleCycle op) (h : Served s n r p q off) (left : HasCycles s n r q 1)
    (holds : P ((issued s n r 1 q).searchRun n r 1 ⟨p, q, off, op⟩).2) : Completes i s P :=
  ⟨_, run.trans (congrArg _ (searchIssue_runs h (cycles_of_single single) Nat.one_pos left (searchRun_of_single single 1))), holds⟩

/-! ### Searches (R207, R208) -/

theorem matchesFrom_ne_nil_iff (l : List (Nat × SearchEntry)) (base size start : Nat) (key : BitVec 128) :
    matchesFrom l base size start key ≠ [] ↔ ∃ e ∈ l, base + start ≤ e.1 ∧ e.1 < base + size ∧ e.2.valid = true ∧
      ((key ^^^ e.2.key) &&& e.2.mask) = 0 := by
  rw [matchesFrom, Ne, List.filter_eq_nil_iff]
  simp [SearchEntry.hits, and_assoc]

/-- MATCH is bit 63 of the response; the offsets within a partition stay below it. -/
theorem match_searchWord {l : List (Nat × SearchEntry)} {base : Nat} (near : ∀ e ∈ l, e.1 - base < 2 ^ 14) :
    (searchWord 0 base l).getLsbD 63 = true ↔ l ≠ [] := by
  cases l with
  | nil => exact iff_of_false (by simp [searchWord]) fun h => h rfl
  | cons e more =>
    have offset := near e List.mem_cons_self
    have result := e.2.result.isLt
    have below : (if more = [] then 0 else 2 ^ 62) + 0 * 2 ^ 56 + (e.1 - base) * 2 ^ 32 + e.2.result.toNat < 2 ^ 63 := by
      split <;> omega
    refine iff_of_true ?_ (List.cons_ne_nil e more)
    rw [searchWord, BitVec.getLsbD_ofNat, Nat.add_assoc, Nat.add_assoc, Nat.add_assoc, Nat.testBit_two_pow_add_eq, ← Nat.add_assoc,
      ← Nat.add_assoc, Nat.testBit_lt_two_pow below]
    rfl

theorem partSize_lt (s : State) (n r p : Nat) : s.partSize n r p < 2 ^ 14 := by
  have field : s.fld (Adr.asPart n r p) 13 8 < 2 ^ (13 - 8 + 1) := Nat.mod_lt _ (Nat.two_pow_pos _)
  rw [State.partSize]
  omega

/-- The response of a search of a partition. -/
def searchAnswer (s : State) (n r p start : Nat) (key : BitVec 128) : BitVec 64 :=
  searchWord 0 (s.partBase n r p) (matchesFrom (s.array n r).entries (s.partBase n r p) (s.partSize n r p) start key)

theorem match_searchAnswer (s : State) (n r p start : Nat) (key : BitVec 128) :
    (searchAnswer s n r p start key).getLsbD 63 = true ↔ ∃ e ∈ (s.array n r).entries, s.partBase n r p + start ≤ e.1 ∧
      e.1 < s.partBase n r p + s.partSize n r p ∧ e.2.valid = true ∧ ((key ^^^ e.2.key) &&& e.2.mask) = 0 := by
  refine (match_searchWord fun e he => ?_).trans (matchesFrom_ne_nil_iff _ _ _ _ _)
  have size := partSize_lt s n r p
  have inside := (List.mem_filter.mp he).2
  simp only [Bool.and_eq_true, decide_eq_true_eq] at inside
  omega

theorem searchAnswer_issued (s : State) (n r p q k start : Nat) (key : BitVec 128) :
    searchAnswer (issued s n r k q) n r p start key = searchAnswer s n r p start key := by
  rw [searchAnswer, entries_issued]
  rfl

theorem slices_countSearches (s : State) (n r k : Nat) (onCores : Bool) : (s.countSearches n r k onCores).slices = s.slices :=
  (countSearches_frame s n r k onCores (Frame.refl 0x4 s) rfl).same .slices rfl

/-- The array after a search that it served. -/
theorem array_searchOne {op : SearchOp} (here : HasArray s n r) (h : Served s n r p q off) (key : BitVec 128) :
    (s.searchOne n r ⟨p, q, off, op⟩ key).array n r =
      { s.array n r with responses := (s.array n r).responses ++ [searchAnswer s n r p off key], lastStatus := 0 } := by
  have same := slices_countSearches s n r 1 false
  have counted := hasArray_congr same here
  rw [State.searchOne]
  dsimp only
  rw [h.check, if_neg (not_not_intro rfl), h.searchView]
  dsimp only
  rw [h.not_suspended, Bool.and_false, if_neg Bool.false_ne_true, array_searchEnd (hasArray_modArray counted _), array_modArray counted,
    array_congr same, searchAnswer]

theorem search_answers (here : HasArray s n r) (h : Served s n r p q off) (left : HasCycles s n r q 1) (key : BitVec 128) :
    Completes (.search n r p q off key) s fun t => ∃ w, (t.array n r).responses = (s.array n r).responses ++ [w] ∧
      (w.getLsbD 63 = true ↔ ∃ e ∈ (s.array n r).entries, s.partBase n r p + off ≤ e.1 ∧
        e.1 < s.partBase n r p + s.partSize n r p ∧ e.2.valid = true ∧ ((key ^^^ e.2.key) &&& e.2.mask) = 0) ∧
      w = searchAnswer s n r p off key ∧ (t.array n r).entries = (s.array n r).entries ∧ (t.array n r).lastStatus = 0 := by
  refine single_completes (op := .search key) rfl nofun h left ⟨_, ?_, match_searchAnswer s n r p off key, rfl, ?_⟩
  all_goals
    have run := array_searchOne (op := .search key) (hasArray_issued (q := q) here 1) (h.issued 1) key
    rw [searchAnswer_issued] at run
  · exact (congrArg SearchArray.responses run).trans (congrArg (· ++ _) (issued_keeps SearchArray.responses 1 fun _ _ => rfl))
  · exact ⟨(congrArg SearchArray.entries run).trans (entries_issued s n r 1 q), congrArg SearchArray.lastStatus run⟩

/-! ### What an update makes of an entry (Entry states) -/

theorem entryAfter_write_of_open {old : Option SearchEntry} (h : ∀ e, old = some e → e.valid = false) (key mask : BitVec 128)
    (result : BitVec 32) : entryAfter (.write key mask result) old = .ok (some ⟨key &&& mask, mask, result, false⟩) := by
  refine if_neg ?_
  cases old with
  | none => exact Bool.false_ne_true
  | some e => exact Bool.eq_false_iff.mp (h e rfl)

theorem entryAfter_write_of_valid {e : SearchEntry} (h : e.valid = true) (key mask : BitVec 128) (result : BitVec 32) :
    entryAfter (.write key mask result) (some e) = .error 3 := if_pos h

theorem entryAfter_resultWrite_of_valid {e : SearchEntry} (h : e.valid = true) (result : BitVec 32) :
    entryAfter (.resultWrite result) (some e) = .ok (some { e with result := result }) := if_pos h

/-! ### Updates (R206, R215) -/

/-- The address of an entry within its array. -/
abbrev entryAt (s : State) (n r p off : Nat) : Nat := s.partBase n r p + off

/-- An operation that ended OK made the entry at an address v, and left the other entries as they were. -/
def EntryBecomes (s t : State) (n r a : Nat) (v : Option SearchEntry) : Prop :=
  (t.array n r).lastStatus = 0 ∧ mapGet (t.array n r).entries a = v ∧
    ∀ b, b ≠ a → mapGet (t.array n r).entries b = mapGet (s.array n r).entries b

/-- An operation that ended with ENTRY_STATE changed no entry and raised the flag. -/
def RefusedByState (s t : State) (n r : Nat) : Prop :=
  (t.array n r).lastStatus = 3 ∧ (t.array n r).entries = (s.array n r).entries ∧ t.bit (Adr.asEvt n) 3 = true

theorem EntryBecomes.of_issued {a k : Nat} {v : Option SearchEntry} (h : EntryBecomes (issued s n r k q) t n r a v) :
    EntryBecomes s t n r a v := by
  rw [EntryBecomes, entries_issued] at h
  exact h

theorem RefusedByState.of_issued {k : Nat} (h : RefusedByState (issued s n r k q) t n r) : RefusedByState s t n r := by
  rw [RefusedByState, entries_issued] at h
  exact h

section

variable {f : Option SearchEntry → Except Nat (Option SearchEntry)}

theorem searchUpdate_moves {v : Option SearchEntry} (here : HasArray s n r) (h : Served s n r p q off)
    (moves : f (mapGet (s.array n r).entries (entryAt s n r p off)) = .ok v) :
    EntryBecomes s (s.searchUpdate n r p q off f) n r (entryAt s n r p off) v := by
  rw [State.searchUpdate]
  dsimp only
  rw [h.check, if_neg (not_not_intro rfl), h.active, h.not_suspended, Bool.and_false, if_neg Bool.false_ne_true, if_pos rfl, moves]
  dsimp only
  rw [EntryBecomes, array_searchEnd (hasArray_modArray here _), array_modArray here]
  refine ⟨rfl, ?_⟩
  dsimp only
  rw [if_pos rfl]
  cases v with
  | none => exact ⟨(mapGet_mapErase ..).trans (if_pos rfl), fun b hb => (mapGet_mapErase ..).trans (if_neg hb)⟩
  | some e => exact ⟨(mapGet_mapInsert ..).trans (if_pos rfl), fun b hb => (mapGet_mapInsert ..).trans (if_neg hb)⟩

theorem asEvt_ne_asErrSts (n : Nat) : Adr.asEvt n ≠ Adr.asErrSts n := by
  unfold Adr.asEvt Adr.asErrSts sliceAdr
  omega

theorem searchUpdate_refused (here : HasArray s n r) (h : Served s n r p q off)
    (refused : f (mapGet (s.array n r).entries (entryAt s n r p off)) = .error 3) :
    RefusedByState s (s.searchUpdate n r p q off f) n r := by
  rw [State.searchUpdate]
  dsimp only
  rw [h.check, if_neg (not_not_intro rfl), h.active, h.not_suspended, Bool.and_false, if_neg Bool.false_ne_true, if_pos rfl, refused]
  dsimp only
  have same := setBit_slices s (Adr.asEvt n) 3
  rw [if_pos rfl, RefusedByState, array_searchEnd (hasArray_congr same here), array_congr same,
    bit_searchEnd_of_ne _ _ _ _ _ _ (asEvt_ne_asErrSts n)]
  exact ⟨rfl, rfl, bit_setBit_self _ _ _ (by decide)⟩

end

/-- An operation that updates an entry: it takes one cycle, and its run is the update that Entry states gives. -/
structure Updates (op : SearchOp) : Prop where
  single : SingleCycle op
  run : ∀ (s : State) (n r k p q off : Nat), s.searchRun n r k ⟨p, q, off, op⟩ = (none, s.searchUpdate n r p q off (entryAfter op))

theorem updates_write (key mask : BitVec 128) (result : BitVec 32) : Updates (.write key mask result) := ⟨nofun, fun _ _ _ _ _ _ _ => rfl⟩

theorem updates_validate : Updates .validate := ⟨nofun, fun _ _ _ _ _ _ _ => rfl⟩

theorem updates_resultWrite (result : BitVec 32) : Updates (.resultWrite result) := ⟨nofun, fun _ _ _ _ _ _ _ => rfl⟩

theorem updates_invalidate : Updates .invalidate := ⟨nofun, fun _ _ _ _ _ _ _ => rfl⟩

theorem update_moves {i : Instr} {op : SearchOp} {v : Option SearchEntry} (run : exec i s = .next (s.searchIssue n r ⟨p, q, off, op⟩))
    (updates : Updates op) (here : HasArray s n r) (h : Served s n r p q off) (left : HasCycles s n r q 1)
    (moves : entryAfter op (mapGet (s.array n r).entries (entryAt s n r p off)) = .ok v) :
    Completes i s fun t => EntryBecomes s t n r (entryAt s n r p off) v := by
  refine single_completes run updates.single h left ?_
  rw [updates.run]
  refine .of_issued (searchUpdate_moves (s := issued s n r 1 q) (hasArray_issued here 1) (h.issued 1) ?_)
  rw [entries_issued]
  exact moves

theorem update_refused {i : Instr} {op : SearchOp} (run : exec i s = .next (s.searchIssue n r ⟨p, q, off, op⟩))
    (updates : Updates op) (here : HasArray s n r) (h : Served s n r p q off) (left : HasCycles s n r q 1)
    (refused : entryAfter op (mapGet (s.array n r).entries (entryAt s n r p off)) = .error 3) :
    Completes i s fun t => RefusedByState s t n r := by
  refine single_completes run updates.single h left ?_
  rw [updates.run]
  refine .of_issued (searchUpdate_refused (s := issued s n r 1 q) (hasArray_issued here 1) (h.issued 1) ?_)
  rw [entries_issued]
  exact refused

/-- What Entry states has no row for on an EMPTY entry is refused. -/
theorem update_of_empty_refused {i : Instr} {op : SearchOp} (run : exec i s = .next (s.searchIssue n r ⟨p, q, off, op⟩))
    (updates : Updates op) (here : HasArray s n r) (h : Served s n r p q off) (left : HasCycles s n r q 1)
    (empty : mapGet (s.array n r).entries (entryAt s n r p off) = none) (refused : entryAfter op none = .error 3) :
    ∃ t, exec i s = .next t ∧ (t.array n r).lastStatus = 3 ∧ (t.array n r).entries = (s.array n r).entries := by
  rw [← empty] at refused
  obtain ⟨t, next, status, entries, -⟩ := update_refused run updates here h left refused
  exact ⟨t, next, status, entries⟩

/-! ### Reads -/

/-- What READ returns of an entry: its state and itself. -/
theorem array_searchRead {op : SearchOp} (here : HasArray s n r) (h : Served s n r p q off) :
    ∃ out : Nat × SearchEntry, (s.searchRead n r ⟨p, q, off, op⟩).array n r = { s.array n r with readOut := some out, lastStatus := 0 } ∧
      out.1 = (match mapGet (s.array n r).entries (entryAt s n r p off) with
        | none => 0
        | some e => if e.valid then 2 else 1) ∧
      ∀ e, mapGet (s.array n r).entries (entryAt s n r p off) = some e → out.2 = e := by
  rw [State.searchRead]
  dsimp only
  rw [h.check, if_neg (not_not_intro rfl), h.searchView]
  dsimp only
  rw [h.not_suspended, Bool.and_false, if_neg Bool.false_ne_true]
  refine ⟨_, (array_searchEnd (hasArray_modArray here _) _ _ _).trans (by rw [array_modArray here]), ?_, fun e he => ?_⟩
  · cases mapGet (s.array n r).entries (entryAt s n r p off) <;> rfl
  · rw [he]

theorem entryRead_answers (here : HasArray s n r) (h : Served s n r p q off) (left : HasCycles s n r q 1) :
    Completes (.entryRead n r p q off) s fun t => (t.array n r).lastStatus = 0 ∧ (t.array n r).entries = (s.array n r).entries ∧
      (t.array n r).readOut.map Prod.fst = some (match mapGet (s.array n r).entries (entryAt s n r p off) with
        | none => 0
        | some e => if e.valid then 2 else 1) ∧
      ∀ e, mapGet (s.array n r).entries (entryAt s n r p off) = some e → (t.array n r).readOut.map Prod.snd = some e := by
  have entries := entries_issued s n r 1 q
  obtain ⟨out, run, state, entry⟩ := array_searchRead (op := .read) (hasArray_issued (q := q) here 1) (h.issued 1)
  rw [entries] at state entry
  refine single_completes (op := .read) rfl nofun h left ?_
  rw [show (issued s n r 1 q).searchRun n r 1 ⟨p, q, off, .read⟩ = (none, (issued s n r 1 q).searchRead n r ⟨p, q, off, .read⟩) from rfl, run]
  exact ⟨rfl, entries, congrArg some state, fun e he => congrArg some (entry e he)⟩

/-! ### Batches (R213, R214) -/

theorem length_leBytes (k w : Nat) : (leBytes k w).length = k := by
  induction k generalizing w with
  | zero => rfl
  | succ k ih => rw [leBytes, List.length_cons, ih]

theorem length_responses (words : List (BitVec 64)) : (words.flatMap fun w => leBytes 8 w.toNat).length = 8 * words.length := by
  rw [List.length_flatMap, List.map_congr_left fun w _ => length_leBytes 8 w.toNat, List.map_const', List.sum_replicate, smul_eq_mul,
    Nat.mul_comm]

/-- A whole batch ends at once, and the memory of every slice is as before but for its responses. -/
theorem searchKeys_whole {op : SearchOp} (slice : n < s.slices.length) (h : Served s n r p q off) (keys : List (BitVec 128)) (ptr : Nat) :
    (s.searchKeys n r keys.length ⟨p, q, off, op⟩ keys ptr 0).1 = none ∧
    ∀ j, ((s.searchKeys n r keys.length ⟨p, q, off, op⟩ keys ptr 0).2.slice j).slm =
      if j = n then memWrite (s.slice n).slm ptr ((keys.map (searchAnswer s n r p off)).flatMap fun w => leBytes 8 w.toNat)
      else (s.slice j).slm := by
  rw [State.searchKeys, h.searchView]
  dsimp only
  rw [h.not_suspended, Bool.and_false, if_neg Bool.false_ne_true, List.take_length, List.drop_length]
  refine ⟨rfl, fun j => ?_⟩
  have slices := slices_countSearches s n r keys.length false
  rw [slm_of_frame (batchEnd_frame _ n r _ _ _ (dramAsk_frame _ n _ _ _ _ true (Frame.refl 0x20004 _) rfl) rfl) rfl, List.length_map,
    slm_memStore (slices.symm ▸ slice), slice_congr slices, slice_congr slices]
  rfl

theorem exec_searchBatch {count ptr : Nat} {keys : List (BitVec 128)} (pos : 1 ≤ count) (few : count ≤ 4096) (all : keys.length = count)
    (check : s.searchCheck n r p q off = 0) (owns : s.ownsMem n q ptr (8 * count) = true) :
    exec (.searchBatch n r p q off count keys ptr (16 * count)) s = .next (s.searchIssue n r ⟨p, q, off, .batch keys ptr 0⟩) := by
  show execSearchBatch n r p q off count keys ptr (16 * count) s = _
  have range : ¬(count = 0 ∨ 4096 < count) := by omega
  rw [execSearchBatch]
  dsimp only
  rw [if_neg range, check, owns, List.take_of_length_le all.le, if_neg (not_not_intro rfl), if_neg (by decide), if_neg (not_not_intro rfl)]

/-- Bytes written to one slice read back, and the rest of the memory is as it was. -/
theorem memRead_of_written {a : Nat} {bs : List Byte}
    (written : ∀ j, (t.slice j).slm = if j = n then memWrite (s.slice n).slm a bs else (s.slice j).slm) :
    memRead (t.slice n).slm a bs.length = bs ∧ MemoryBut n a bs.length s t := by
  constructor
  · rw [written, if_pos rfl, memRead_memWrite]
  · intro j b
    by_cases inside : j = n ∧ a ≤ b ∧ b < a + bs.length
    · exact .inl inside
    · refine .inr ?_
      rw [written]
      split
      next e =>
        subst e
        exact memGet_memWrite_of_out _ _ _ _ (by omega)
      next => rfl

theorem searchBatch_answers {count ptr : Nat} {keys : List (BitVec 128)} (slice : n < s.slices.length) (pos : 1 ≤ count)
    (few : count ≤ 4096) (all : keys.length = count) (owns : s.ownsMem n q ptr (8 * count) = true) (h : Served s n r p q off)
    (left : HasCycles s n r q count) :
    Completes (.searchBatch n r p q off count keys ptr (16 * count)) s fun t =>
      memRead (t.slice n).slm ptr (8 * count) = (keys.flatMap fun k => leBytes 8 (searchAnswer s n r p off k).toNat) ∧
      MemoryBut n ptr (8 * count) s t := by
  subst all
  have slice' : n < (issued s n r keys.length q).slices.length := (slices_length_modSlice s n _).symm ▸ slice
  have kept : ∀ j, ((issued s n r keys.length q).slice j).slm = (s.slice j).slm := fun j => modSlice_keeps Slice.slm s n j _ fun _ => rfl
  have same : searchAnswer (issued s n r keys.length q) n r p off = searchAnswer s n r p off :=
    funext (searchAnswer_issued s n r p q _ off)
  obtain ⟨whole, memory⟩ := searchKeys_whole (op := .batch keys ptr 0) slice' (h.issued keys.length) keys ptr
  simp only [kept, same] at memory
  have stored := memRead_of_written memory
  rw [length_responses, List.length_map, List.flatMap_map] at stored
  exact ⟨_, (exec_searchBatch pos few rfl h.check owns).trans (congrArg _ (searchIssue_runs h rfl pos left whole)), stored⟩

/-! ### Operations that wait, and operations refused (R211, R213) -/

/-- The commands of one cycle on an entry or from an offset, each with the operation that it asks for. -/
def singleCommands (n r p q off : Nat) (key mask : BitVec 128) (result : BitVec 32) : List (Instr × SearchOp) :=
  [(.search n r p q off key, .search key), (.entryWrite n r p q off key mask result, .write key mask result),
    (.validate n r p q off, .validate), (.resultWrite n r p q off result, .resultWrite result), (.invalidate n r p q off, .invalidate),
    (.entryRead n r p q off, .read)]

theorem exec_singleCommand {key mask : BitVec 128} {result : BitVec 32} {o : Instr × SearchOp}
    (ho : o ∈ singleCommands n r p q off key mask result) :
    SingleCycle o.2 ∧ exec o.1 s = .next (s.searchIssue n r ⟨p, q, off, o.2⟩) := by
  simp only [singleCommands, List.mem_cons, List.not_mem_nil, or_false] at ho
  rcases ho with rfl | rfl | rfl | rfl | rfl | rfl <;> exact ⟨nofun, rfl⟩

theorem singleCommand_waits {key mask : BitVec 128} {result : BitVec 32} {o : Instr × SearchOp} (here : HasArray s n r)
    (h : Served s n r p q off) (spent : s.cyclesLeft n r (s.cyclePayer q) = 0) (ho : o ∈ singleCommands n r p q off key mask result) :
    ∃ t, exec o.1 s = .next t ∧ t.array n r = { s.array n r with jobs := (s.array n r).jobs ++ [⟨p, q, off, o.2⟩] } ∧
      OnlyChanges [.slices] s t :=
  ⟨_, (exec_singleCommand ho).2.trans (congrArg _ (searchIssue_waits o.2 h spent)), array_modArray here _,
    onlyChanges_of_frame (modArray_frame s n r _ (Frame.refl (partMask [.slices]) s) rfl)⟩

/-- An operation of one cycle that its checks refuse ends with their status. -/
theorem searchRun_refused {op : SearchOp} (single : SingleCycle op) (here : HasArray s n r) (k : Nat) (h : s.searchCheck n r p q off ≠ 0) :
    ((s.searchRun n r k ⟨p, q, off, op⟩).2.array n r).lastStatus = s.searchCheck n r p q off ∧
      ((s.searchRun n r k ⟨p, q, off, op⟩).2.array n r).entries = (s.array n r).entries := by
  have ended := array_searchEnd here p (s.searchCheck n r p q off) off
  have update : Updates op → ((s.searchRun n r k ⟨p, q, off, op⟩).2.array n r).lastStatus = s.searchCheck n r p q off ∧
      ((s.searchRun n r k ⟨p, q, off, op⟩).2.array n r).entries = (s.array n r).entries := fun updates => by
    rw [updates.run, State.searchUpdate, if_pos h, ended]
    exact ⟨rfl, rfl⟩
  cases op with
  | batch keys ptr written => exact absurd rfl (single keys ptr written)
  | search key =>
    have run : (s.searchRun n r k ⟨p, q, off, .search key⟩).2 = (s.modArray n r fun a => { a with
        responses := a.responses ++ [searchWord (s.searchCheck n r p q off) 0 []] }).searchEnd n r p (s.searchCheck n r p q off) off := if_pos h
    rw [run, array_searchEnd (hasArray_modArray here _), array_modArray here]
    exact ⟨rfl, rfl⟩
  | read =>
    have run : (s.searchRun n r k ⟨p, q, off, .read⟩).2 = s.searchEnd n r p (s.searchCheck n r p q off) off := if_pos h
    rw [run, ended]
    exact ⟨rfl, rfl⟩
  | write key mask result => exact update (updates_write key mask result)
  | validate => exact update updates_validate
  | resultWrite result => exact update (updates_resultWrite result)
  | invalidate => exact update updates_invalidate

theorem singleCommand_refused {key mask : BitVec 128} {result : BitVec 32} {i : Instr} (here : HasArray s n r)
    (h : s.searchCheck n r p q off ≠ 0) (hi : i ∈ (singleCommands n r p q off key mask result).map Prod.fst) :
    ∃ t, exec i s = .next t ∧ (t.array n r).lastStatus = s.searchCheck n r p q off ∧ (t.array n r).entries = (s.array n r).entries := by
  obtain ⟨o, ho, rfl⟩ := List.mem_map.mp hi
  obtain ⟨single, run⟩ := exec_singleCommand (s := s) ho
  exact ⟨_, run.trans (congrArg _ (searchIssue_refused o.2 h)), searchRun_refused single here _ h⟩

/-! ### Responses on their way (R213) -/

theorem exec_searchResponse_none {c w ix : Nat} (h : (s.array n r).responses = []) : exec (.searchResponse n r c w ix) s = .next s := by
  show execSearchResponse n r c w ix s = _
  rw [execSearchResponse, h]

/-- A response stands only in an array that exists. -/
theorem hasArray_of_response {v : BitVec 64} {l : List (BitVec 64)} (slice : n < s.slices.length) (h : (s.array n r).responses = v :: l) :
    HasArray s n r where
  slice := slice
  array := by
    by_contra absent
    rw [State.array, List.getElem?_eq_none (by omega)] at h
    exact List.cons_ne_nil v l h.symm

theorem array_modCluster (s : State) (n r c : Nat) (f : Cluster → Cluster) : (s.modCluster n c f).array n r = s.array n r :=
  modSlice_keeps (fun x => (x.arrays[r]?).getD State.arrayEmpty) s n n _ fun _ => rfl

theorem cluster_modArray (s : State) (n r c : Nat) (f : SearchArray → SearchArray) : (s.modArray n r f).cluster n c = s.cluster n c :=
  modSlice_keeps (fun x => (x.clusters[c]?).getD State.clusterEmpty) s n n _ fun _ => rfl

theorem searchResponse_delivers {c w ix : Nat} {v : BitVec 64} {l : List (BitVec 64)} {i : WorkItem} (h : (s.array n r).responses = v :: l)
    (held : (s.cluster n c).item w = some i) (slot : i.wslot = w) (hx : ix < 4) (vacant : i.have4.getLsbD ix = false) :
    Completes (.searchResponse n r c w ix) s fun t => (t.array n r).responses = l ∧
      ∃ j, (t.cluster n c).item w = some j ∧ (mapGet j.operands ix).map Operand.value = some v := by
  have here := hasArray_of_response (hasCluster_of_item held).slice h
  have run : exec (.searchResponse n r c w ix) s = .next ((s.modArray n r fun a => { a with responses := l }).deliver n c w ix
      (opOf 3 v 0 (v.toNat / 2 ^ 56 % 16) r)) := by
    show execSearchResponse n r c w ix s = _
    rw [execSearchResponse, h]
  have held' : ((s.modArray n r fun a => { a with responses := l }).cluster n c).item w = some i := by
    rw [cluster_modArray]
    exact held
  refine ⟨_, run, ?_, filled i ix (opOf 3 v 0 (v.toNat / 2 ^ 56 % 16) r), ?_, ?_⟩
  · rw [deliver_of_open _ held' hx vacant, array_modCluster, array_modArray here]
  · rw [cluster_deliver _ held' hx vacant, ← slot]
    exact item_put _ _
  · rw [mapGet_mapInsert, if_pos rfl]
    rfl

/-- Settles O47: searches and batches by their answers, the updates by the Entry states table, and the operations that wait or are refused by
what their issue does. -/
theorem searchesSeeOnlyValidEntries : Obligations.SearchesSeeOnlyValidEntries := by
  unfold Obligations.SearchesSeeOnlyValidEntries
  refine ⟨fun n r p q start key s hn hr check serves left => search_answers ⟨hn, hr⟩ (.of check serves) left key,
    fun n r p q start count ptr keys s hn pos few all check owns serves left =>
      searchBatch_answers hn pos few all owns (.of check serves) left,
    fun n r p q off s hn hr check serves left => ?_,
    fun n r p q off key mask result s hn hr => ⟨fun check serves spent o ho => singleCommand_waits ⟨hn, hr⟩ (.of check serves) spent ho,
      fun check i hi => singleCommand_refused (key := key) (mask := mask) (result := result) ⟨hn, hr⟩ check hi⟩,
    fun n r c w ix s h => exec_searchResponse_none h,
    fun n r c w ix s v l i h held slot hx vacant => searchResponse_delivers h held slot hx vacant⟩
  have here : HasArray s n r := ⟨hn, hr⟩
  have served : Served s n r p q off := .of check serves
  refine ⟨fun key mask result notValid => ?_, fun e key mask result he valid => ?_, fun e he => ⟨?_, fun result valid => ?_⟩,
    fun empty result i hi => ?_, ?_, entryRead_answers here served left⟩
  · refine update_moves rfl (updates_write key mask result) here served left ?_
    exact entryAfter_write_of_open notValid key mask result
  · refine update_refused rfl (updates_write key mask result) here served left ?_
    rw [he]
    exact entryAfter_write_of_valid valid key mask result
  · refine update_moves rfl updates_validate here served left ?_
    rw [he]
    rfl
  · refine update_moves rfl (updates_resultWrite result) here served left ?_
    rw [he]
    exact entryAfter_resultWrite_of_valid valid result
  · simp only [List.mem_cons, List.not_mem_nil, or_false] at hi
    rcases hi with rfl | rfl
    · exact update_of_empty_refused rfl updates_validate here served left empty rfl
    · exact update_of_empty_refused rfl (updates_resultWrite result) here served left empty rfl
  · exact update_moves rfl updates_invalidate here served left rfl

end Sys2Proof.Proofs
end

section
/-!
The end of a run whose discard was asked for (R231, R233, R239): why its slot need not be FREE. The freed slot sends ITEM_END to the item's DONE
target, and the item that takes an operand is put into the slot that it names, which in a state of the model need not be the slot that holds it.
-/

namespace Sys2Proof.Proofs

open Sys2Proof.Machine Sys2Proof.Laws

variable {s : State} {n c w t ix : Nat} {i j : WorkItem} {it : ItemRef}

/-! ### The other slots of a scheduler -/

theorem item_modItem_of_ne (h : (s.cluster n c).item w = some i) (f : WorkItem → WorkItem) (ne : t ≠ w) :
    ((s.modItem n c w f).cluster n c).item t = (s.cluster n c).item t := by
  rw [cluster_modItem h, Cluster.item, Cluster.put, mapGet_mapInsert, if_neg ne]
  rfl

theorem item_port_ok (here : HasCluster s it.slice it.cluster) (r w : Nat) :
    ((s.port it psOk r).cluster it.slice it.cluster).item w = (s.cluster it.slice it.cluster).item w := by
  show ((s.modCluster it.slice it.cluster _).cluster it.slice it.cluster).item w = _
  rw [cluster_modCluster here]
  rfl

/-! ### A slot freed (R231, R233, R239) -/

/-- The item that takes ITEM_END comes to stand in the slot that it names. -/
theorem item_freeSlot_of_target (h : (s.cluster n c).item w = some i) (target : i.done = some (t, ix)) (ne : t ≠ w)
    (taker : (s.cluster n c).item t = some j) (hx : ix < 4) (vacant : j.have4.getLsbD ix = false) :
    ∃ op, ((s.freeSlot n c w).cluster n c).item j.wslot = some (filled j ix op) := by
  have kept : ∀ f : Cluster → Cluster, (f (s.cluster n c)).items = mapErase (s.cluster n c).items w →
      ((s.modCluster n c f).cluster n c).item t = some j := fun f erased => by
    rw [cluster_modCluster (hasCluster_of_item h), Cluster.item, erased, mapGet_mapErase, if_neg ne]
    exact taker
  refine ⟨opOf 9 0 (i.endCode.zeroExtend 32) i.endStatus w, ?_⟩
  rw [State.freeSlot, h]
  dsimp only
  rw [target]
  dsimp only
  rw [cluster_deliver _ (kept _ rfl) hx vacant]
  exact item_put _ (filled j ix _)

theorem item_discardSlot_of_target (h : (s.cluster n c).item w = some i) (target : i.done = some (t, ix)) (ne : t ≠ w)
    (taker : (s.cluster n c).item t = some j) (hx : ix < 4) (vacant : j.have4.getLsbD ix = false) :
    ∃ op, ((s.discardSlot n c w).cluster n c).item j.wslot = some (filled j ix op) :=
  item_freeSlot_of_target (item_modItem h _) target ne ((item_modItem_of_ne h _ ne).trans taker) hx vacant

/-! ### CONTINUE (R229, R231, R239) -/

theorem afterRun_of_discarded (cut : i.cutAtBudget = true) (slotCore : i.poolCore = false) :
    s.afterRun it i = s.discardSlot it.slice it.cluster it.wslot := by
  rw [State.afterRun, cut, slotCore]
  split <;> rfl

theorem continueRun_of_discarded (need : BitVec 4) (h : s.running it = some i) (own : s.translatedItem i = false)
    (cut : i.cutAtBudget = true) (slotCore : i.poolCore = false) (target : i.done = some (t, ix)) (ne : t ≠ it.wslot)
    (taker : (s.cluster it.slice it.cluster).item t = some j) (hx : ix < 4) (vacant : j.have4.getLsbD ix = false) :
    Completes (.continueRun it need) s fun u => ∃ op, (u.cluster it.slice it.cluster).item j.wslot = some (filled j ix op) := by
  have held := (item_of_running h).1
  have waiting := item_modItem held fun k => { k.releasePoint with state := .waiting, need := need, core := none }
  have here := hasCluster_of_item waiting
  refine ⟨_, rfl, ?_⟩
  rw [primitive_of_running _ h own, afterRun_of_discarded cut slotCore]
  exact item_discardSlot_of_target ((item_port_ok here 0 _).trans waiting) target ne
    ((item_port_ok here 0 t).trans ((item_modItem_of_ne held _ ne).trans taker)) hx vacant

/-! ### A state in which an item names another slot than its own -/

/-- Slot 1 of the first scheduler. -/
def cutSlot : ItemRef := ⟨0, 0, 1⟩

/-- An item that names slot 1. -/
def strayItem : WorkItem := itemNew 1 0 0 ownerPf none none none 0 0 none

/-- The item that runs in slot 1 on a core of a SLOT entry, its discard asked for; its DONE target is index 0 of slot 0. -/
def cutRun : WorkItem :=
  { itemNew 1 0 0 ownerPf none none none 0 0 (some (0, 0)) with state := .running, core := some 0, cutAtBudget := true }

/-- A package at reset with that item in slot 1, and in slot 0 the one that names slot 1. -/
def strayTarget : State :=
  State.reset.modCluster 0 0 fun k => { k with items := [(0, strayItem), (1, cutRun)] }

theorem strayTarget_runs : strayTarget.running cutSlot = some cutRun ∧ strayTarget.translatedItem cutRun = false ∧
    (strayTarget.cluster 0 0).item 0 = some strayItem := by
  decide +kernel

/-- Refutes O45: after CONTINUE of an item whose discard was asked for, its slot is not FREE where the item that takes its ITEM_END names that
slot as its own. -/
theorem not_primitivesOfARunningItem : ¬ Obligations.PrimitivesOfARunningItem := by
  intro holds
  obtain ⟨runs, own, taker⟩ := strayTarget_runs
  obtain ⟨-, -, -, -, -, -, -, continues, -⟩ := holds cutSlot strayTarget cutRun runs rfl own
  obtain ⟨u, step, -, freed⟩ := continues 0
  obtain ⟨v, step', op, stands⟩ := continueRun_of_discarded (it := cutSlot) 0 runs own rfl rfl (t := 0) (ix := 0) rfl (by decide) taker
    (by decide) rfl
  cases step.symm.trans step'
  exact Option.some_ne_none _ (stands.symm.trans (freed rfl))

end Sys2Proof.Proofs
end

section
/-!
Subsystem Local Memory (R249, R250, R290, R298): ranges of a memory namespace that are read, written and copied, and ranges that are refused.
-/

namespace Sys2Proof.Proofs

open Sys2Proof.Machine Sys2Proof.Laws

variable {s : State} {x : Namespace} {h : Hdr} {nsid offset length : Nat} {data : List (BitVec 8)}

/-! ### What a memory command meets first (R250, R384) -/

theorem memCmd_of_inside (serves : Serves s h nsid x .memory) (inside : offset + length ≤ x.size * 4096)
    (up : s.sliceUp x.memPlace.1 = true) (f : Nat → Nat → State → State) :
    s.memCmd h nsid offset length f = f x.memPlace.1 (x.memPlace.2 + offset) s := by
  simp [State.memCmd, ioCmd_of_serves serves, Nat.not_lt.mpr inside, up]

theorem memCmd_of_outside (serves : Serves s h nsid x .memory) (outside : x.size * 4096 < offset + length) (f : Nat → Nat → State → State) :
    s.memCmd h nsid offset length f = s.finish h (ansAt stField nsid 0) := by
  simp [State.memCmd, ioCmd_of_serves serves, outside]

/-- A namespace that serves a command is the one of its NSID. -/
theorem ns_of_serves {kind : NsKind} (serves : Serves s h nsid x kind) : s.ns nsid = some x :=
  (Option.filter_eq_some_iff.mp serves.2.1).1

/-- A command that only fails changes nothing but its own record. -/
theorem answered_only_finish (record : (s.inFlight h).isSome = true) (a : Answer) :
    Answered (s.finish h a) h a ∧ OnlyChanges [.inflight] s (s.finish h a) :=
  ⟨answered_finish record a, onlyChanges_finish s h a⟩

/-! ### Memory Read (R249, R298) -/

/-- The bytes of a read on their way to the host, asked of the DRAM channels. -/
def memSent (s : State) (h : Hdr) (n a length : Nat) : State :=
  (s.dataOut h length).dramAsk n portHost (ctrlOwner h.ctrl) a length false

theorem inFlight_memSent (s : State) (h : Hdr) (n a length : Nat) : (memSent s h n a length).inFlight h = s.inFlight h :=
  inFlight_congr ((dramAsk_frame _ n portHost _ a length false (dataOut_frame s h length (Frame.refl 0xf20004 s) rfl) rfl).same .inflight rfl) h

theorem execMemoryRead_of_inside (serves : Serves s h nsid x .memory) (inside : offset + length ≤ x.size * 4096)
    (up : s.sliceUp x.memPlace.1 = true) (few : length ≤ 1048576) :
    exec (.memoryRead h nsid offset length) s = .next
      (if s.memPoisoned x.memPlace.1 (x.memPlace.2 + offset) length then s.finish h (ansAt stUnrecovered nsid 0)
       else (memSent s h x.memPlace.1 (x.memPlace.2 + offset) length).finish h
        (ansData (.bytes (memRead (s.slice x.memPlace.1).slm (x.memPlace.2 + offset) length)))) := by
  show execMemoryRead h nsid offset length s = _
  rw [execMemoryRead, memCmd_of_inside serves inside up, if_neg (Nat.not_lt.mpr few)]
  rfl

theorem memoryRead_returns (serves : Serves s h nsid x .memory) (inside : offset + length ≤ x.size * 4096)
    (up : s.sliceUp x.memPlace.1 = true) (few : length ≤ 1048576)
    (good : s.memPoisoned x.memPlace.1 (x.memPlace.2 + offset) length = false) :
    Completes (.memoryRead h nsid offset length) s fun t => OnlyChanges (footprint (.memoryRead h nsid offset length)) s t ∧
      Answered t h (ansData (.bytes (memRead (s.slice x.memPlace.1).slm (x.memPlace.2 + offset) length))) := by
  have e := execMemoryRead_of_inside serves inside up few
  rw [good, if_neg Bool.false_ne_true] at e
  refine ⟨_, e, commandsChangeOnlyTheirFootprint _ _ _ e, answered_finish ?_ _⟩
  rw [inFlight_memSent]
  exact inFlight_isSome_of_runnable serves.1

theorem memoryRead_poisoned (serves : Serves s h nsid x .memory) (inside : offset + length ≤ x.size * 4096)
    (up : s.sliceUp x.memPlace.1 = true) (few : length ≤ 1048576)
    (bad : s.memPoisoned x.memPlace.1 (x.memPlace.2 + offset) length = true) :
    Completes (.memoryRead h nsid offset length) s fun t =>
      Answered t h (ansAt stUnrecovered nsid 0) ∧ OnlyChanges [.inflight] s t := by
  have e := execMemoryRead_of_inside serves inside up few
  rw [bad, if_pos rfl] at e
  exact ⟨_, e, answered_only_finish (inFlight_isSome_of_runnable serves.1) _⟩

theorem memoryRead_refused (serves : Serves s h nsid x .memory) (up : s.sliceUp x.memPlace.1 = true)
    (bad : x.size * 4096 < offset + length ∨ 1048576 < length) :
    Completes (.memoryRead h nsid offset length) s fun t => Answered t h (ansAt stField nsid 0) ∧ OnlyChanges [.inflight] s t := by
  refine ⟨_, ?_, answered_only_finish (inFlight_isSome_of_runnable serves.1) _⟩
  show execMemoryRead h nsid offset length s = _
  rw [execMemoryRead]
  by_cases inside : offset + length ≤ x.size * 4096
  · rw [memCmd_of_inside serves inside up, if_pos (by omega)]
  · rw [memCmd_of_outside serves (by omega)]

/-! ### Bytes stored (R249, R290) -/

/-- Bytes stored in a slice's memory, and asked of its DRAM channels. -/
def memPlaced (s : State) (h : Hdr) (n a : Nat) (bs : List (BitVec 8)) : State :=
  (s.memStore n a bs).dramAsk n portHost (ctrlOwner h.ctrl) a bs.length true

theorem memPlaced_frame (s : State) (h : Hdr) (n a : Nat) (bs : List (BitVec 8)) : Frame 0x20000000020004 s (memPlaced s h n a bs) :=
  dramAsk_frame _ n portHost _ a bs.length true (memStore_frame s n a bs (Frame.refl _ s) rfl) rfl

theorem slm_memPlaced {n : Nat} (here : n < s.slices.length) (a : Nat) (bs : List (BitVec 8)) (j : Nat) :
    ((memPlaced s h n a bs).slice j).slm = if j = n then memWrite (s.slice n).slm a bs else (s.slice j).slm :=
  (slm_of_frame (dramAsk_frame _ n portHost (ctrlOwner h.ctrl) a bs.length true (Frame.refl 0x20000 _) rfl) rfl j).trans
    (slm_memStore here a bs j)

theorem memoryWrite_stores (serves : Serves s h nsid x .memory) (h8 : s.slices.length = 8)
    (inside : offset + data.length ≤ x.size * 4096) (up : s.sliceUp x.memPlace.1 = true) (few : data.length ≤ 1048576) :
    Completes (.memoryWrite h nsid offset data) s fun t => Answered t h (ansSt stOk) ∧
      memRead (t.slice x.memPlace.1).slm (x.memPlace.2 + offset) data.length = data ∧
      MemoryBut x.memPlace.1 (x.memPlace.2 + offset) data.length s t ∧ OnlyChanges (footprint (.memoryWrite h nsid offset data)) s t := by
  have e : exec (.memoryWrite h nsid offset data) s = .next
      ((memPlaced (s.dataIn h data.length) h x.memPlace.1 (x.memPlace.2 + offset) data).finish h (ansSt stOk)) := by
    show execMemoryWrite h nsid offset data s = _
    rw [execMemoryWrite, memCmd_of_inside serves inside up, if_neg (Nat.not_lt.mpr few)]
    rfl
  have sent := dataIn_frame s h data.length (Frame.refl 0xf00004 s) rfl
  have slices : (s.dataIn h data.length).slices = s.slices := sent.same .slices rfl
  have here := lt_slices_of_sliceUp h8 up
  obtain ⟨read, rest⟩ := memRead_of_written (s := s) (n := x.memPlace.1) (a := x.memPlace.2 + offset) (bs := data)
    (t := (memPlaced (s.dataIn h data.length) h x.memPlace.1 (x.memPlace.2 + offset) data).finish h (ansSt stOk)) fun j => by
      have placed := slm_memPlaced (h := h) (slices.symm ▸ here) (x.memPlace.2 + offset) data j
      rw [slm_of_frame sent rfl, slm_of_frame sent rfl] at placed
      exact placed
  refine ⟨_, e, answered_finish ?_ _, read, rest, commandsChangeOnlyTheirFootprint _ _ _ e⟩
  rw [inFlight_congr (((memPlaced_frame ..).same .inflight rfl).trans (sent.same .inflight rfl))]
  exact inFlight_isSome_of_runnable serves.1

theorem memoryWrite_refused (serves : Serves s h nsid x .memory) (up : s.sliceUp x.memPlace.1 = true)
    (bad : x.size * 4096 < offset + data.length ∨ 1048576 < data.length) :
    Completes (.memoryWrite h nsid offset data) s fun t => Answered t h (ansAt stField nsid 0) ∧ OnlyChanges [.inflight] s t := by
  refine ⟨_, ?_, answered_only_finish (inFlight_isSome_of_runnable serves.1) _⟩
  show execMemoryWrite h nsid offset data s = _
  rw [execMemoryWrite]
  by_cases inside : offset + data.length ≤ x.size * 4096
  · rw [memCmd_of_inside serves inside up, if_pos (by omega)]
  · rw [memCmd_of_outside serves (by omega)]

/-! ### Memory Copy (R250) -/

theorem awaitsReads_copySense (s : State) (h : Hdr) (src : CopyFrom) : AwaitsReads h s (s.copySense h src) := by
  cases src with
  | memory nsid offset length => exact AwaitsReads.refl h s
  | blocks nsid slba nlb =>
    dsimp only [State.copySense]
    split
    · exact AwaitsReads.refl h s
    · exact awaitsReads_countRange ..

theorem memoryCopy_copies {dest : Nat} {src : CopyFrom} {bs : List (BitVec 8)} (serves : Serves s h nsid x .memory) (h8 : s.slices.length = 8)
    (up : s.sliceUp x.memPlace.1 = true) (source : s.copyBytes h x.memPlace.1 src = .ok bs) (inside : dest + bs.length ≤ x.size * 4096) :
    Completes (.memoryCopy h nsid dest src) s fun t => Reading t h (ansSt stOk) ∧
      memRead (t.slice x.memPlace.1).slm (x.memPlace.2 + dest) bs.length = bs ∧
      MemoryBut x.memPlace.1 (x.memPlace.2 + dest) bs.length s t ∧ OnlyChanges (footprint (.memoryCopy h nsid dest src)) s t := by
  have e : exec (.memoryCopy h nsid dest src) s = .next
      (((memPlaced s h x.memPlace.1 (x.memPlace.2 + dest) bs).finish h (ansSt stOk)).copySense h src) := by
    show execMemoryCopy h nsid dest src s = _
    rw [execMemoryCopy, memCmd_of_inside serves (by omega) up, source, ns_of_serves serves]
    exact congrArg _ (if_neg (Nat.not_lt.mpr inside))
  have record : ((memPlaced s h x.memPlace.1 (x.memPlace.2 + dest) bs).inFlight h).isSome = true := by
    rw [inFlight_congr ((memPlaced_frame ..).same .inflight rfl)]
    exact inFlight_isSome_of_runnable serves.1
  obtain ⟨reads, stands, each⟩ := (awaitsReads_copySense _ h src).stands _ _ _ (answered_finish record (ansSt stOk))
  obtain ⟨read, rest⟩ := memRead_of_written (s := s) (n := x.memPlace.1) (a := x.memPlace.2 + dest) (bs := bs)
    (t := ((memPlaced s h x.memPlace.1 (x.memPlace.2 + dest) bs).finish h (ansSt stOk)).copySense h src) fun j =>
      (slm_of_frame (copySense_frame _ h src (Frame.refl 0x20204 _) rfl) rfl j).trans
        (slm_memPlaced (lt_slices_of_sliceUp h8 up) (x.memPlace.2 + dest) bs j)
  exact ⟨_, e, ⟨_, stands, each⟩, read, rest, commandsChangeOnlyTheirFootprint _ _ _ e⟩

theorem memoryCopy_refused {src : CopyFrom} (serves : Serves s h nsid x .memory) (bad : x.size * 4096 < offset) :
    Completes (.memoryCopy h nsid offset src) s fun t => Answered t h (ansAt stField nsid 0) ∧ OnlyChanges [.inflight] s t :=
  ⟨_, congrArg Host.Outcome.next (memCmd_of_outside (length := 0) serves bad _), answered_only_finish (inFlight_isSome_of_runnable serves.1) _⟩

/-- Settles O41: a range read, stored and copied, and the ranges that are refused. -/
theorem memoryCommandsMoveBytes : Obligations.MemoryCommandsMoveBytes :=
  ⟨fun _ _ _ _ _ _ serves inside up few good => memoryRead_returns serves inside up few good,
    fun _ _ _ _ _ _ serves h8 inside up few => memoryWrite_stores serves h8 inside up few,
    fun _ _ _ _ _ _ serves inside up few bad => memoryRead_poisoned serves inside up few bad,
    fun _ _ _ _ _ _ _ _ serves up => ⟨memoryRead_refused serves up, memoryWrite_refused serves up, memoryCopy_refused serves⟩,
    fun _ _ _ _ _ _ _ serves h8 up source inside => memoryCopy_copies serves h8 up source inside⟩

end Sys2Proof.Proofs
end

section
/-!
Computational programs (R240 to R244, R251): images that are loaded piece by piece, activation, and invocations from their start to their end.
-/

namespace Sys2Proof.Proofs

open Sys2Proof.Machine Sys2Proof.Laws

variable {s : State} {x : Namespace} {h : Hdr} {nsid index total offset : Nat} {ptype : ProgType} {held piece : List (BitVec 8)}

/-! ### The program of an index -/

theorem program_putProgram (found : s.ns nsid = some x) {p : Option Program} (own : ∀ q, p = some q → q.index = index) :
    ((s.putProgram nsid index p).ns nsid).bind (·.program index) = p := by
  rw [State.putProgram, ns_modNs _ _ _ _ (by cases p <;> exact fun _ => rfl), found]
  cases p with
  | none => simp [Namespace.program, recGet_recErase]
  | some q => simp [Namespace.program, recGet_recPut, own q rfl]

theorem inFlight_putProgram (s : State) (nsid index : Nat) (p : Option Program) (g : Hdr) :
    (s.putProgram nsid index p).inFlight g = s.inFlight g :=
  inFlight_congr ((putProgram_frame s nsid index p (Frame.refl 0x800 s) rfl).same .inflight rfl) g

/-- A command that puts a program under an index, or takes it away, and has its answer. -/
theorem answered_putProgram (found : s.ns nsid = some x) (record : (s.inFlight h).isSome = true) {p : Option Program}
    (own : ∀ q, p = some q → q.index = index) (a : Answer) :
    Answered ((s.putProgram nsid index p).finish h a) h a ∧
      (((s.putProgram nsid index p).finish h a).ns nsid).bind (·.program index) = p :=
  ⟨answered_finish ((congrArg Option.isSome (inFlight_putProgram s nsid index p h)).trans record) a, program_putProgram found own⟩

theorem answered_failLoad (found : s.ns nsid = some x) (record : (s.inFlight h).isSome = true) (reason : Nat) :
    Answered (s.failLoad h nsid index reason) h (ansReason stField reason) ∧
      ((s.failLoad h nsid index reason).ns nsid).bind (·.program index) = none :=
  answered_putProgram found record (by simp) _

/-! ### Load Program (R240, R241) -/

theorem dataIn_keepsNs (s : State) (h : Hdr) (n nsid : Nat) : (s.dataIn h n).ns nsid = s.ns nsid :=
  ns_congr ((dataIn_frame s h n (Frame.refl 0xf00004 s) rfl).same .namespaces rfl) nsid

theorem isSome_dataIn (record : (s.inFlight h).isSome = true) (n : Nat) : ((s.dataIn h n).inFlight h).isSome = true :=
  (congrArg Option.isSome (dataIn_alike s h n).2).trans record

theorem loadReason_dataIn (s : State) (h : Hdr) (n : Nat) (t : ProgType) (bs : List (BitVec 8)) :
    (s.dataIn h n).loadReason t bs = s.loadReason t bs := by
  have kept := dataIn_frame s h n (Frame.refl 0xf00004 s) rfl
  have image : (s.dataIn h n).image = s.image := by
    rw [State.image, State.image, kept.same .nvm rfl, kept.same .start rfl]
  cases t with
  | ebpf => rfl
  | native => rw [State.loadReason, State.loadReason, image]
  | other n => rfl

/-- What a piece makes of the index that it is loaded under, once it continues its image. -/
def pieceKeptAs (s : State) (h : Hdr) (nsid index : Nat) (t : ProgType) (total : Nat) (image : List (BitVec 8)) : State :=
  if image.length < total then (s.putProgram nsid index (some ⟨index, t, total, image, false, false⟩)).finish h (ansSt stOk)
  else if s.loadReason t image ≠ 0 then s.failLoad h nsid index (s.loadReason t image)
  else (s.putProgram nsid index (some ⟨index, t, total, image, true, false⟩)).finish h (ansSt stOk)

/-- The image that a piece at an offset is to continue. -/
def heldImage (x : Namespace) (index offset : Nat) : List (BitVec 8) :=
  if offset = 0 then [] else ((x.program index).map Program.image).getD []

/-- Load Program of an index for loaded programs and a type of image that there is: its size, then its order, then the piece. -/
theorem execLoadProgram_of_loadable (serves : Serves s h nsid x .computational) (low : 16 ≤ index) (high : index ≤ 63)
    (known : ptype = .ebpf ∨ ptype = .native) :
    exec (.loadProgram h nsid index ptype total offset piece) s = .next
      (if imageLimit ptype < total ∨ total < offset + piece.length then (s.dataIn h piece.length).failLoad h nsid index 1
       else if (heldImage x index offset).length ≠ offset ∨
          (offset ≠ 0 ∧ !(x.program index).any fun p => p.ptype == ptype && p.total == total && !p.verified) then
        (s.dataIn h piece.length).failLoad h nsid index 9
       else pieceKeptAs (s.dataIn h piece.length) h nsid index ptype total (heldImage x index offset ++ piece)) := by
  show execLoadProgram h nsid index ptype total offset piece s = _
  rw [execLoadProgram, ioCmd_of_serves serves]
  have loadable : ¬(index < 16 ∨ 63 < index) := by omega
  rcases known with rfl | rfl
  · exact congrArg Host.Outcome.next (if_neg loadable)
  · exact congrArg Host.Outcome.next (if_neg loadable)

theorem loadProgram_continues (act : Bool) (serves : Serves s h nsid x .computational) (low : 16 ≤ index) (high : index ≤ 63)
    (known : ptype = .ebpf ∨ ptype = .native) (small : total ≤ imageLimit ptype) (fits : held.length + piece.length ≤ total)
    (begun : held = [] ∨ x.program index = some (Program.mk index ptype total held false act)) :
    Completes (.loadProgram h nsid index ptype total held.length piece) s fun t =>
      if held.length + piece.length < total then Answered t h (ansSt stOk) ∧
        (t.ns nsid).bind (·.program index) = some (Program.mk index ptype total (held ++ piece) false false)
      else if s.loadReason ptype (held ++ piece) = 0 then Answered t h (ansSt stOk) ∧
        (t.ns nsid).bind (·.program index) = some (Program.mk index ptype total (held ++ piece) true false)
      else Answered t h (ansReason stField (s.loadReason ptype (held ++ piece))) ∧ (t.ns nsid).bind (·.program index) = none := by
  have image : heldImage x index held.length = held := by
    unfold heldImage
    split
    next none => exact (List.length_eq_zero_iff.mp none).symm
    next some =>
      rw [begun.resolve_left fun e => some (e ▸ rfl)]
      rfl
  have order : ¬((heldImage x index held.length).length ≠ held.length ∨
      (held.length ≠ 0 ∧ !(x.program index).any fun p => p.ptype == ptype && p.total == total && !p.verified)) := by
    rw [image]
    rintro (other | ⟨some, bad⟩)
    · exact other rfl
    · rw [begun.resolve_left fun e => some (e ▸ rfl)] at bad
      simp at bad
  have e := execLoadProgram_of_loadable (total := total) (offset := held.length) (piece := piece) serves low high known
  rw [if_neg (by omega), if_neg order, image] at e
  refine ⟨_, e, ?_⟩
  have found : (s.dataIn h piece.length).ns nsid = some x := (dataIn_keepsNs s h piece.length nsid).trans (ns_of_serves serves)
  have record := isSome_dataIn (inFlight_isSome_of_runnable serves.1) piece.length
  unfold pieceKeptAs
  beta_reduce
  rw [loadReason_dataIn, List.length_append]
  by_cases more : held.length + piece.length < total
  · rw [if_pos more, if_pos more]
    exact answered_putProgram found record (by rintro _ ⟨⟩; rfl) _
  · rw [if_neg more, if_neg more]
    by_cases good : s.loadReason ptype (held ++ piece) = 0
    · rw [if_neg (not_not_intro good), if_pos good]
      exact answered_putProgram found record (by rintro _ ⟨⟩; rfl) _
    · rw [if_pos good, if_neg good]
      exact answered_failLoad found record _

theorem loadProgram_elsewhere (serves : Serves s h nsid x .computational) (out : index < 16 ∨ 63 < index) :
    Completes (.loadProgram h nsid index ptype total offset piece) s fun t => Answered t h (ansSt stField) ∧ OnlyChanges [.inflight] s t := by
  refine ⟨_, ?_, answered_only_finish (inFlight_isSome_of_runnable serves.1) _⟩
  show execLoadProgram h nsid index ptype total offset piece s = _
  rw [execLoadProgram, ioCmd_of_serves serves]
  cases ptype with
  | ebpf => exact congrArg Host.Outcome.next (if_pos out)
  | native => exact congrArg Host.Outcome.next (if_pos out)
  | other n => rfl

theorem loadProgram_tooLarge (serves : Serves s h nsid x .computational) (low : 16 ≤ index) (high : index ≤ 63)
    (known : ptype = .ebpf ∨ ptype = .native) (large : imageLimit ptype < total ∨ total < offset + piece.length) :
    Completes (.loadProgram h nsid index ptype total offset piece) s fun t =>
      Answered t h (ansReason stField 1) ∧ (t.ns nsid).bind (·.program index) = none :=
  ⟨_, (execLoadProgram_of_loadable serves low high known).trans (congrArg _ (if_pos large)),
    answered_failLoad ((dataIn_keepsNs ..).trans (ns_of_serves serves)) (isSome_dataIn (inFlight_isSome_of_runnable serves.1) _) _⟩

theorem loadProgram_outOfOrder (serves : Serves s h nsid x .computational) (low : 16 ≤ index) (high : index ≤ 63)
    (known : ptype = .ebpf ∨ ptype = .native) (small : total ≤ imageLimit ptype) (fits : offset + piece.length ≤ total) (later : offset ≠ 0)
    (gap : ∀ p, x.program index = some p → p.image.length ≠ offset) :
    Completes (.loadProgram h nsid index ptype total offset piece) s fun t =>
      Answered t h (ansReason stField 9) ∧ (t.ns nsid).bind (·.program index) = none := by
  have other : (heldImage x index offset).length ≠ offset := by
    rw [heldImage, if_neg later]
    cases e : x.program index with
    | none => exact later.symm
    | some p => exact gap p e
  have e := execLoadProgram_of_loadable (total := total) (offset := offset) (piece := piece) serves low high known
  rw [if_neg (by omega), if_pos (.inl other)] at e
  exact ⟨_, e, answered_failLoad ((dataIn_keepsNs ..).trans (ns_of_serves serves)) (isSome_dataIn (inFlight_isSome_of_runnable serves.1) _) _⟩

/-! ### Activation (R241) -/

theorem activation_sets {p : Program} (serves : Serves s h nsid x .computational) (low : 16 ≤ index) (high : index ≤ 63) (activate : Bool)
    (loaded : x.program index = some p) (verified : p.verified = true) :
    Completes (.programActivationManagement h nsid index activate) s fun t => Answered t h (ansSt stOk) ∧
      (t.ns nsid).bind (·.program index) = some { p with active := activate } ∧ OnlyChanges [.inflight, .namespaces] s t := by
  have e : exec (.programActivationManagement h nsid index activate) s = .next
      ((s.putProgram nsid index (some { p with active := activate })).finish h (ansSt stOk)) := by
    show execProgramActivationManagement h nsid index activate s = _
    rw [execProgramActivationManagement, ioCmd_of_serves serves, if_neg (by omega), loaded, Option.filter_some, if_pos verified]
  have own : p.index = index := beq_iff_eq.mp (List.find?_some loaded :)
  obtain ⟨answered, put⟩ := answered_putProgram (p := some { p with active := activate }) (ns_of_serves serves)
    (inFlight_isSome_of_runnable serves.1) (by rintro _ ⟨⟩; exact own) (ansSt stOk)
  exact ⟨_, e, answered, put, commandsChangeOnlyTheirFootprint _ _ _ e⟩

theorem activation_unloaded (serves : Serves s h nsid x .computational) (low : 16 ≤ index) (high : index ≤ 63) (activate : Bool)
    (none : (x.program index).filter Program.verified = none) :
    Completes (.programActivationManagement h nsid index activate) s fun t =>
      Answered t h (ansSt (if activate then stUnavailable else stOk)) ∧ OnlyChanges [.inflight] s t := by
  refine ⟨_, ?_, answered_only_finish (inFlight_isSome_of_runnable serves.1) _⟩
  show execProgramActivationManagement h nsid index activate s = _
  rw [execProgramActivationManagement, ioCmd_of_serves serves, if_neg (by omega), none]

theorem activation_elsewhere (serves : Serves s h nsid x .computational) (out : index < 16 ∨ 63 < index) (activate : Bool) :
    Completes (.programActivationManagement h nsid index activate) s fun t => Answered t h (ansSt stField) ∧ OnlyChanges [.inflight] s t := by
  refine ⟨_, ?_, answered_only_finish (inFlight_isSome_of_runnable serves.1) _⟩
  show execProgramActivationManagement h nsid index activate s = _
  rw [execProgramActivationManagement, ioCmd_of_serves serves, if_pos out]

/-! ### Execute Program (R242) -/

variable {part : NsPart} {c n limit inv : Nat} {ranges : List MemRange} {params : List (BitVec 8)}

theorem choose_isSome {l : List Nat} (m : c ∈ l) (s : State) : (s.choose l).1.isSome = true := by
  cases l with
  | nil => exact absurd m List.not_mem_nil
  | cons a l =>
    show ((a :: l)[s.free.1 % (a :: l).length]?).isSome = true
    simpa using Nat.mod_lt _ (Nat.succ_pos l.length)

/-- The flow that an invocation gets on a cluster, and the state with its entry item queued there (R242). -/
def entryQueued (s : State) (h : Hdr) (n c : Nat) : Option Nat × State :=
  let f := s.openFlow n c (ctrlOwner h.ctrl)
  let e := f.2.free
  (f.1, (e.2.allocSlot n c e.1 (BitVec.ofNat 64 s.nextInv) (ctrlOwner h.ctrl) (some h.ctrl) (some s.nextInv) f.1 0 none).2)

theorem entryQueued_frame (s : State) (h : Hdr) (n c : Nat) : Frame 0x8000000020000 s (entryQueued s h n c).2 := by
  unfold entryQueued
  dsimp only
  exact allocSlot_frame _ n c _ _ _ _ _ _ _ _ (free_frame _ (openFlow_frame s n c _ (Frame.refl _ s) rfl) rfl) rfl

/-- The invocation that a command starts on a cluster, with no partition and nothing translated yet. -/
def invocationOf (s : State) (h : Hdr) (n c nsid index : Nat) (ranges : List MemRange) (limit : Nat) (params : List (BitVec 8)) : Invocation :=
  { id := s.nextInv, hdr := h, slice := n, owner := ctrlOwner h.ctrl, nsid := nsid, index := index, ranges := ranges, params := params,
    limit := if limit = 0 then 4096 else limit % 65536, startedAt := s.now, cluster := c, flow := (entryQueued s h n c).1, filters := [],
    vm := none }

/-- An invocation with its FILTER partitions and its translated code (R246, R252). -/
def prepared (s : State) (x : Namespace) (v : Invocation) : Invocation × State :=
  let p := s.openFilters v
  let m := p.2.translated x v
  ({ v with filters := p.1, vm := m.1 }, m.2)

theorem prepared_frame (s : State) (x : Namespace) (v : Invocation) : Frame 0x8000000020004 s (prepared s x v).2 :=
  translated_frame _ x v (openFilters_frame s v (Frame.refl _ s) rfl) rfl

/-- The invocations with a new one under the next number. -/
def withInvocation (s : State) (p : Invocation × State) : State :=
  { p.2 with invocations := p.2.invocations ++ [p.1], nextInv := s.nextInv + 1 }

/-- The state in which the command that was dispatched has its invocation. -/
def invocationStarted (s : State) (h : Hdr) (x : Namespace) (n c nsid index : Nat) (ranges : List MemRange) (limit : Nat)
    (params : List (BitVec 8)) : State :=
  withInvocation s (prepared (entryQueued s h n c).2 x (invocationOf s h n c nsid index ranges limit params))

/-- The clusters of a slice that take a flow and an item of a controller's owner. -/
def takers (s : State) (h : Hdr) (n : Nat) : List Nat :=
  (List.range 4).filter fun c => s.active (UnitId.cluster n c) && s.mayFlow n c (ctrlOwner h.ctrl) && s.maySlot n c (ctrlOwner h.ctrl)

/-- Execute Program on a namespace that serves it: its checks in turn, then the first cluster chosen of those that take it. -/
theorem execExecuteProgram_of_serves (serves : Serves s h nsid x .computational) (first : x.parts.head? = some part) :
    exec (.executeProgram h nsid index ranges limit params) s = .next
      (if 16 < ranges.length ∨ 4096 < params.length ∨ 63 < index then s.finish h (ansSt stField)
       else if !s.sliceUp part.slice then s.finish h (ansSt stOffline)
       else if !s.available x part.slice index then s.finish h (ansSt stUnavailable)
       else if !ranges.all (s.rangeOk part.slice (ctrlOwner h.ctrl)) then s.finish h (ansSt stField)
       else (s.choose (takers s h part.slice)).1.elim (s.hold h) fun c =>
        (invocationStarted ((s.choose (takers s h part.slice)).2.dataIn h params.length) h x part.slice c nsid index ranges limit params).answer h
          (ansSt stOk) [.invocation ((s.choose (takers s h part.slice)).2.dataIn h params.length).nextInv]) := by
  show execExecuteProgram h nsid index ranges limit params s = _
  have at_ : ((x.parts.head?).map NsPart.slice).getD 8 = part.slice := by rw [first]; rfl
  rw [execExecuteProgram, ioCmd_of_serves serves, at_]
  refine congrArg Host.Outcome.next (if_congr Iff.rfl rfl (if_congr Iff.rfl rfl (if_congr Iff.rfl rfl (if_congr Iff.rfl rfl ?_))))
  unfold takers
  generalize s.choose _ = r
  obtain ⟨_ | c, r⟩ := r
  · rfl
  · dsimp only [Option.elim, invocationStarted, withInvocation, prepared, invocationOf, entryQueued]

theorem invocationStarted_facts (s : State) (h : Hdr) (x : Namespace) (n c nsid index : Nat) (ranges : List MemRange) (limit : Nat)
    (params : List (BitVec 8)) :
    ∃ v, (invocationStarted s h x n c nsid index ranges limit params).invocations = s.invocations ++ [v] ∧ v.id = s.nextInv ∧ v.hdr = h ∧
      v.slice = n ∧ v.index = index ∧ v.ranges = ranges ∧ v.params = params ∧ v.limit = if limit = 0 then 4096 else limit % 65536 := by
  have kept := prepared_frame (entryQueued s h n c).2 x (invocationOf s h n c nsid index ranges limit params)
  refine ⟨_, congrArg (· ++ [_]) ((kept.same .invocations rfl).trans ((entryQueued_frame s h n c).same .invocations rfl)), ?_⟩
  exact ⟨rfl, rfl, rfl, rfl, rfl, rfl, rfl⟩

theorem inFlight_invocationStarted (s : State) (h : Hdr) (x : Namespace) (n c nsid index : Nat) (ranges : List MemRange) (limit : Nat)
    (params : List (BitVec 8)) (g : Hdr) : (invocationStarted s h x n c nsid index ranges limit params).inFlight g = s.inFlight g :=
  inFlight_congr (((prepared_frame ..).same .inflight rfl).trans ((entryQueued_frame s h n c).same .inflight rfl)) g

theorem executeProgram_starts (serves : Serves s h nsid x .computational) (first : x.parts.head? = some part) (few : ranges.length ≤ 16)
    (short : params.length ≤ 4096) (high : index ≤ 63) (up : s.sliceUp part.slice = true) (able : s.available x part.slice index = true)
    (own : ranges.all (s.rangeOk part.slice (ctrlOwner h.ctrl)) = true) (hc : c < 4) (active : s.active (UnitId.cluster part.slice c) = true)
    (flow : s.mayFlow part.slice c (ctrlOwner h.ctrl) = true) (slot : s.maySlot part.slice c (ctrlOwner h.ctrl) = true) :
    Completes (.executeProgram h nsid index ranges limit params) s fun t =>
      standing t h = some (.dispatched, ansSt stOk, [.invocation s.nextInv]) ∧ t.nextInv = s.nextInv + 1 ∧
      ∃ v, t.invocations = s.invocations ++ [v] ∧ v.id = s.nextInv ∧ v.hdr = h ∧ v.slice = part.slice ∧ v.index = index ∧
        v.ranges = ranges ∧ v.params = params ∧ v.limit = if limit = 0 then 4096 else limit % 65536 := by
  have mem : c ∈ takers s h part.slice := List.mem_filter.mpr ⟨List.mem_range.mpr hc, by rw [active, flow, slot]; rfl⟩
  obtain ⟨k, chosen⟩ := Option.isSome_iff_exists.mp (choose_isSome mem s)
  have e := execExecuteProgram_of_serves (index := index) (ranges := ranges) (limit := limit) (params := params) serves first
  rw [if_neg (by omega), up, able, own, chosen] at e
  have kept := dataIn_frame _ h params.length (choose_frame s (takers s h part.slice) (Frame.refl 0x8000000f00004 s) rfl) rfl
  have next : ((s.choose (takers s h part.slice)).2.dataIn h params.length).nextInv = s.nextInv := kept.same .nextInv rfl
  have record : ((invocationStarted ((s.choose (takers s h part.slice)).2.dataIn h params.length) h x part.slice k nsid index ranges limit
      params).inFlight h).isSome = true := by
    rw [inFlight_invocationStarted, inFlight_congr (kept.same .inflight rfl)]
    exact inFlight_isSome_of_runnable serves.1
  have stands := standing_answer record (ansSt stOk)
    [.invocation ((s.choose (takers s h part.slice)).2.dataIn h params.length).nextInv]
  obtain ⟨v, all, id, rest⟩ := invocationStarted_facts ((s.choose (takers s h part.slice)).2.dataIn h params.length) h x part.slice k nsid
    index ranges limit params
  rw [show ((s.choose (takers s h part.slice)).2.dataIn h params.length).invocations = s.invocations from kept.same .invocations rfl] at all
  rw [next] at stands id
  exact ⟨_, e, next ▸ stands, congrArg (· + 1) next, v, all, id, rest⟩

theorem executeProgram_refused (serves : Serves s h nsid x .computational) (first : x.parts.head? = some part)
    (bad : 16 < ranges.length ∨ 4096 < params.length ∨ 63 < index) :
    Completes (.executeProgram h nsid index ranges limit params) s fun t => Answered t h (ansSt stField) ∧ OnlyChanges [.inflight] s t :=
  ⟨_, (execExecuteProgram_of_serves serves first).trans (congrArg _ (if_pos bad)),
    answered_only_finish (inFlight_isSome_of_runnable serves.1) _⟩

theorem executeProgram_unavailable (serves : Serves s h nsid x .computational) (first : x.parts.head? = some part) (few : ranges.length ≤ 16)
    (short : params.length ≤ 4096) (high : index ≤ 63) (up : s.sliceUp part.slice = true) (lacks : s.available x part.slice index = false) :
    Completes (.executeProgram h nsid index ranges limit params) s fun t =>
      Answered t h (ansSt stUnavailable) ∧ OnlyChanges [.inflight] s t := by
  have e := execExecuteProgram_of_serves (index := index) (ranges := ranges) (limit := limit) (params := params) serves first
  rw [if_neg (by omega), up, lacks] at e
  exact ⟨_, e, answered_only_finish (inFlight_isSome_of_runnable serves.1) _⟩

/-! ### Ends of invocations (R243, R244, R251) -/

variable {outcome : RunOutcome} {ret : BitVec 32} {v : Invocation} {e : RunOutcome × Nat}

theorem id_of_invocation (runs : s.invocation inv = some v) : v.id = inv := beq_iff_eq.mp (List.find?_some runs :)

/-- An invocation that ends is gone, and its command has its answer. -/
theorem endInvocation_ends (record : (s.inFlight v.hdr).isSome = true) (a : Answer) :
    (s.endInvocation v a).invocation v.id = none ∧ Answered (s.endInvocation v a) v.hdr a := by
  have gone : (s.freeInvocation v).invocation v.id = none := by
    unfold State.invocation State.freeInvocation
    exact (recGet_recErase ..).trans (if_pos rfl)
  have kept : (s.freeInvocation v).inFlight v.hdr = s.inFlight v.hdr :=
    inFlight_congr ((freeInvocation_frame s v (Frame.refl 0x60004 s) rfl).same .inflight rfl) v.hdr
  exact ⟨gone, answered_finish (kept ▸ record) a⟩

theorem invocationComplete_ends (runs : s.invocation inv = some v) (ends : v.ends outcome ret.toNat = some e)
    (plain : 16 ≤ v.index ∨ e.1 ≠ .returned) (record : (s.inFlight v.hdr).isSome = true) :
    Completes (.invocationComplete inv outcome ret) s fun t => t.invocation inv = none ∧
      Answered t v.hdr (outcomeAnswer e.1 e.2) ∧ OnlyChanges [.regs, .inflight, .slices, .invocations] s t := by
  obtain rfl := id_of_invocation runs
  have e' : exec (.invocationComplete v.id outcome ret) s = .next (s.endInvocation v (outcomeAnswer e.1 e.2)) := by
    show execInvocationComplete v.id outcome ret s = _
    rw [execInvocationComplete, runs]
    dsimp only
    rw [ends]
    exact congrArg _ (if_neg fun both => plain.elim (Nat.not_le.mpr both.1) (· both.2))
  obtain ⟨gone, answered⟩ := endInvocation_ends record (outcomeAnswer e.1 e.2)
  exact ⟨_, e', gone, answered, onlyChanges_of_frame (endInvocation_frame s v _ (Frame.refl _ s) rfl)⟩

/-- A device-defined program that returns: what it does first decides how its invocation ends. -/
theorem execInvocationComplete_device (runs : s.invocation inv = some v) (ends : v.ends outcome ret.toNat = some e) (device : v.index < 16)
    (returned : e.1 = .returned) :
    exec (.invocationComplete inv outcome ret) s = .next
      ((s.deviceProgram v e.2).elim s fun r => r.state.endInvocation v (outcomeAnswer r.outcome r.ret)) := by
  show execInvocationComplete inv outcome ret s = _
  rw [execInvocationComplete, runs]
  dsimp only
  rw [ends]
  dsimp only
  rw [if_pos ⟨device, returned⟩]
  cases s.deviceProgram v e.2 <;> rfl

theorem invocationComplete_device {r : ProgEnd} (runs : s.invocation inv = some v) (ends : v.ends outcome ret.toNat = some e)
    (device : v.index < 16) (returned : e.1 = .returned) (does : s.deviceProgram v e.2 = some r)
    (record : (r.state.inFlight v.hdr).isSome = true) :
    Completes (.invocationComplete inv outcome ret) s fun t => t.invocation inv = none ∧
      Answered t v.hdr (outcomeAnswer r.outcome r.ret) ∧ OnlyChanges (footprint (.invocationComplete inv outcome ret)) s t := by
  have e' := execInvocationComplete_device runs ends device returned
  rw [does] at e'
  obtain ⟨gone, answered⟩ := endInvocation_ends record (outcomeAnswer r.outcome r.ret)
  exact ⟨_, e', id_of_invocation runs ▸ gone, answered, commandsChangeOnlyTheirFootprint _ _ _ e'⟩

theorem invocationLimitExpiry_ends (runs : s.invocation inv = some v) (record : (s.inFlight v.hdr).isSome = true) :
    Completes (.invocationLimitExpiry inv) s fun t => t.invocation inv = none ∧ Answered t v.hdr (runAnswer stOk 2 0 0) ∧
      OnlyChanges (footprint (.invocationLimitExpiry inv)) s t := by
  have e' : exec (.invocationLimitExpiry inv) s = .next (s.endInvocation v (outcomeAnswer .timeLimit 0)) := by
    show execInvocationLimitExpiry inv s = _
    rw [execInvocationLimitExpiry, runs]
  obtain ⟨gone, answered⟩ := endInvocation_ends record (outcomeAnswer .timeLimit 0)
  exact ⟨_, e', id_of_invocation runs ▸ gone, answered, commandsChangeOnlyTheirFootprint _ _ _ e'⟩

/-- Settles O40: pieces, activation, the start of an invocation and its ends. -/
theorem programsLoadActivateAndRun : Obligations.ProgramsLoadActivateAndRun :=
  ⟨fun _ _ _ _ _ _ _ act _ _ serves low high known small fits begun => loadProgram_continues act serves low high known small fits begun,
    fun _ _ _ _ _ _ _ _ _ serves => ⟨loadProgram_elsewhere serves, loadProgram_tooLarge serves, loadProgram_outOfOrder serves⟩,
    fun _ _ _ activate _ _ serves low high =>
      ⟨fun _ loaded verified => activation_sets serves low high activate loaded verified, activation_unloaded serves low high activate⟩,
    fun _ _ _ activate _ _ serves out => activation_elsewhere serves out activate,
    fun _ _ _ _ _ _ _ _ _ _ serves first few short high up able own hc active flow slot =>
      executeProgram_starts serves first few short high up able own hc active flow slot,
    fun _ _ _ _ _ _ _ _ _ serves first => ⟨executeProgram_refused serves first, executeProgram_unavailable serves first⟩,
    fun _ _ _ _ _ _ runs ends => ⟨invocationComplete_ends runs ends, fun device returned =>
      ⟨fun _ does record => invocationComplete_device runs ends device returned does record,
        fun waits => (execInvocationComplete_device runs ends device returned).trans (by rw [waits]; rfl)⟩⟩,
    fun _ _ _ runs record => invocationLimitExpiry_ends runs record⟩

end Sys2Proof.Proofs
end

section
/-!
The tables of the object service (R217, R218, R254 to R258): what a command on a key meets first, where it finds its key, and what leaves the index,
the records and the ingests of the slices alone.
-/

namespace Sys2Proof.Proofs

open Sys2Proof.Machine Sys2Proof.Laws

variable {s t u : State} {x : Namespace} {h : Hdr} {nsid n p : Nat} {key k : KvKey} {q : KeyPlace} {e : IndexEntry}

/-! ### The tables of a slice -/

/-- The index, the records and the open ingests of a slice. -/
def objectTables (y : Slice) : List (Nat × IndexEntry) × List (Nat × ObjRecord) × List Ingest := (y.index, y.objects, y.ingests)

/-- Both states have the same objects, index entries and ingests in as many slices. -/
structure SameTables (s t : State) : Prop where
  tables : ∀ n, objectTables (t.slice n) = objectTables (s.slice n)
  count : t.slices.length = s.slices.length

theorem SameTables.index (a : SameTables s t) (n : Nat) : (t.slice n).index = (s.slice n).index := congrArg (·.1) (a.tables n)

theorem SameTables.objects (a : SameTables s t) (n : Nat) : (t.slice n).objects = (s.slice n).objects := congrArg (·.2.1) (a.tables n)

theorem SameTables.ingests (a : SameTables s t) (n : Nat) : (t.slice n).ingests = (s.slice n).ingests := congrArg (·.2.2) (a.tables n)

theorem SameTables.refl (s : State) : SameTables s s := ⟨fun _ => rfl, rfl⟩

theorem SameTables.trans (a : SameTables s t) (b : SameTables t u) : SameTables s u :=
  ⟨fun n => (b.tables n).trans (a.tables n), b.count.trans a.count⟩

theorem sameTables_of_slices (e : t.slices = s.slices) : SameTables s t :=
  ⟨fun n => by rw [State.slice, State.slice, e], congrArg List.length e⟩

theorem sameTables_of_frame {F : Nat} (fr : Frame F s t) (m : F.testBit Component.slices.ctorIdx = false) : SameTables s t :=
  sameTables_of_slices (fr.same .slices m)

theorem sameTables_modSlice (s : State) (n : Nat) (f : Slice → Slice) (hf : ∀ y, objectTables (f y) = objectTables y) :
    SameTables s (s.modSlice n f) :=
  ⟨fun k => modSlice_keeps objectTables s n k f hf, slices_length_modSlice s n f⟩

theorem SameTables.foldl {α : Type} {f : State → α → State} (each : ∀ s a, SameTables s (f s a)) (l : List α) (s : State) :
    SameTables s (l.foldl f s) := by
  induction l generalizing s with
  | nil => exact SameTables.refl s
  | cons a l ih => exact (each s a).trans (ih _)

/-! ### A key found (R217, R218, R255) -/

theorem sameTables_cacheLookup (s : State) (q : KeyPlace) (x : Namespace) (k : KvKey) : SameTables s (s.cacheLookup q x k).2 :=
  sameTables_of_frame (cacheLookup_frame s q x k (Frame.refl 0x4 s) rfl) rfl

theorem sameTables_modArray (s : State) (n r : Nat) (f : SearchArray → SearchArray) : SameTables s (s.modArray n r f) :=
  sameTables_modSlice s n _ fun _ => rfl

theorem sameTables_cacheInsert (s : State) (q : KeyPlace) (x : Namespace) (k : KvKey) (p : Nat) : SameTables s (s.cacheInsert q x k p) := by
  unfold State.cacheInsert
  split
  · exact SameTables.refl s
  · dsimp only
    split
    · exact SameTables.refl s
    · have drawn : SameTables s s.free.2 := sameTables_of_slices rfl
      exact drawn.trans (sameTables_modArray ..)

/-- A lookup changes the hot cache and its counters only (R217, R218). -/
theorem sameTables_lookup (s : State) (q : KeyPlace) (x : Namespace) (k : KvKey) : SameTables s (s.lookup q x k).2 := by
  have cached := sameTables_cacheLookup s q x k
  unfold State.lookup
  dsimp only
  split
  · exact cached
  · split
    · exact cached
    · exact cached.trans (sameTables_cacheInsert ..)

theorem sameRecords_lookup (s : State) (q : KeyPlace) (x : Namespace) (k : KvKey) : SameRecords s (s.lookup q x k).2 :=
  sameRecords_of_frame (lookup_frame s q x k (Frame.refl 0x8000000020004 s) rfl) rfl

theorem recordAt_lookup (s : State) (q : KeyPlace) (x : Namespace) (k : KvKey) (n p : Nat) :
    ((s.lookup q x k).2.slice n).recordAt p = (s.slice n).recordAt p := by
  have same := sameTables_lookup s q x k
  rw [Slice.recordAt, Slice.recordAt, same.index, same.objects]

/-- A LIVE entry of a key. -/
def LiveOf (nsid : Nat) (k : KvKey) (e : IndexEntry) : Prop := e.holds nsid k = true ∧ e.state = .live

theorem liveOf_iff : (e.holds nsid k && e.state == .live) = true ↔ LiveOf nsid k e := by
  rw [Bool.and_eq_true, beq_iff_eq, LiveOf]

theorem live_of_probeFor {ix : List (Nat × IndexEntry)} {l : List Nat} (found : probeFor ix nsid k l = some p) :
    ∃ e, mapGet ix p = some e ∧ LiveOf nsid k e := by
  induction l with
  | nil => exact absurd found (Option.some_ne_none p).symm
  | cons a l ih =>
    rw [probeFor] at found
    cases at_ : mapGet ix a with
    | none => simp [at_] at found
    | some e =>
      simp only [at_] at found
      split at found
      next live =>
        cases found
        exact ⟨e, at_, liveOf_iff.mp live⟩
      next => exact ih found

theorem live_of_cacheLookup (found : (s.cacheLookup q x k).1 = some p) :
    ∃ e, mapGet (s.slice q.slice).index p = some e ∧ LiveOf x.nsid k e := by
  unfold State.cacheLookup at found
  split at found
  · cases found
  · split at found
    · cases found
    · obtain ⟨hit, first, rfl⟩ := Option.map_eq_some_iff.mp found
      have good := List.find?_some first
      obtain ⟨e, at_, good⟩ := (Option.any_eq_true _ _).mp good
      exact ⟨e, at_, liveOf_iff.mp good⟩

/-- The place that a lookup gives holds a LIVE entry of the key. -/
theorem live_of_lookup (found : (s.lookup q x k).1 = some p) : ∃ e, mapGet (s.slice q.slice).index p = some e ∧ LiveOf x.nsid k e := by
  unfold State.lookup at found
  dsimp only at found
  split at found
  · exact live_of_cacheLookup found
  · split at found
    · cases found
    next m probed =>
      cases found
      obtain ⟨e, at_, live⟩ := live_of_probeFor probed
      exact ⟨e, (sameTables_cacheLookup s q x k).index q.slice ▸ at_, live⟩

/-- A key without a LIVE entry in its slice is not found. -/
theorem lookup_none_of_no_live
    (dead : ∀ e ∈ (s.slice q.slice).index, e.2.holds x.nsid k = true → e.2.state ≠ .live) : (s.lookup q x k).1 = none :=
  Option.eq_none_iff_forall_ne_some.mpr fun p found => by
    obtain ⟨e, at_, holds, live⟩ := live_of_lookup found
    exact dead (p, e) (mem_of_mapGet at_) holds live

/-- A key whose LIVE entry the probed places hold is found. -/
theorem lookup_isSome_of_probed (probed : (probeFor (s.slice q.slice).index x.nsid k q.probes).isSome = true) :
    (s.lookup q x k).1.isSome = true := by
  obtain ⟨p, at_⟩ := Option.isSome_iff_exists.mp probed
  unfold State.lookup
  dsimp only
  split
  next cached => rw [cached]; rfl
  · rw [(sameTables_cacheLookup s q x k).index, at_]
    rfl

/-! ### What a command on a key meets first (R59, R258, R264, R384) -/

theorem keyCmd_of_serves (serves : ServesKey s h nsid x key) (f : Namespace → KvKey → KeyPlace → State → State) :
    s.keyCmd h nsid key f = f x (keyNorm key) (placeKey x (keyNorm key)) s := by
  obtain ⟨at_, ok, first, up⟩ := serves
  rw [State.keyCmd, ioCmd_of_serves at_]
  simp [ok, first, up]

theorem nsid_of_serves {kind : NsKind} (serves : Serves s h nsid x kind) : x.nsid = nsid :=
  beq_iff_eq.mp (List.find?_some (ns_of_serves serves) :)

theorem isSome_of_servesKey (serves : ServesKey s h nsid x key) : (s.inFlight h).isSome = true := inFlight_isSome_of_runnable serves.1.1

theorem slice_of_servesKey (serves : ServesKey s h nsid x key) (h8 : s.slices.length = 8) :
    (placeKey x (keyNorm key)).slice < s.slices.length :=
  lt_slices_of_sliceUp h8 (Bool.and_eq_true_iff.mp serves.2.2.2).1

end Sys2Proof.Proofs
end

section
/-!
Exist, Retrieve, Delete and List (R261, R262, R263): the obligation O37.
-/

namespace Sys2Proof.Proofs

open Sys2Proof.Machine Sys2Proof.Laws

variable {s t u : State} {x : Namespace} {h : Hdr} {nsid n p size offset : Nat} {key k : KvKey} {q : KeyPlace} {e : IndexEntry} {info : Bool}

/-! ### Exist (R262) -/

theorem exec_exist (serves : ServesKey s h nsid x key) :
    exec (.exist h nsid key) s = .next ((s.lookup (placeKey x (keyNorm key)) x (keyNorm key)).2.finish h
      ((s.lookup (placeKey x (keyNorm key)) x (keyNorm key)).1.elim (ansAt stNoKey nsid 0) fun _ => ansSt stOk)) := by
  refine congrArg Host.Outcome.next ((keyCmd_of_serves serves _).trans ?_)
  dsimp only
  cases (s.lookup (placeKey x (keyNorm key)) x (keyNorm key)).1 <;> rfl

theorem isSome_lookup (serves : ServesKey s h nsid x key) (q : KeyPlace) (k : KvKey) : ((s.lookup q x k).2.inFlight h).isSome = true :=
  ((sameRecords_lookup s q x k).isSome h).trans (isSome_of_servesKey serves)

theorem exist_found (serves : ServesKey s h nsid x key)
    (probed : (probeFor (s.slice (placeKey x (keyNorm key)).slice).index nsid (keyNorm key) (placeKey x (keyNorm key)).probes).isSome = true) :
    Completes (.exist h nsid key) s fun t => Answered t h (ansSt stOk) ∧ OnlyChanges (footprint (.exist h nsid key)) s t := by
  rw [← nsid_of_serves serves.1] at probed
  obtain ⟨p, found⟩ := Option.isSome_iff_exists.mp (lookup_isSome_of_probed probed)
  have run := exec_exist serves
  rw [found] at run
  exact completes_finish run (isSome_lookup serves _ _) fun answered only => ⟨answered, only⟩

/-! ### A key that is not there (R261, R262) -/

theorem lookup_none_of_serves (serves : ServesKey s h nsid x key)
    (dead : ∀ e ∈ (s.slice (placeKey x (keyNorm key)).slice).index, e.2.holds nsid (keyNorm key) = true → e.2.state ≠ .live) :
    (s.lookup (placeKey x (keyNorm key)) x (keyNorm key)).1 = none :=
  lookup_none_of_no_live (by rwa [nsid_of_serves serves.1])

theorem exist_missing (serves : ServesKey s h nsid x key) (missing : (s.lookup (placeKey x (keyNorm key)) x (keyNorm key)).1 = none) :
    Completes (.exist h nsid key) s fun t => Answered t h (ansAt stNoKey nsid 0) := by
  have run := exec_exist serves
  rw [missing] at run
  exact completes_finish run (isSome_lookup serves _ _) fun answered _ => answered

theorem sameRecords_abandonAll (s : State) (pick : Ingest → Bool) : SameRecords s (s.abandonAll pick) :=
  sameRecords_foldl _ (fun s n => sameRecords_foldl _ (fun s g => sameRecords_abandon s n g) _ s) _ s

/-- A Delete once its key is looked up and its ingest abandoned. -/
def deleteBegun (s : State) (x : Namespace) (nsid : Nat) (k : KvKey) : State :=
  (s.lookup (placeKey x k) x k).2.abandonAll fun g => g.nsid == nsid && g.key == k

theorem isSome_deleteBegun (serves : ServesKey s h nsid x key) (k : KvKey) : ((deleteBegun s x nsid k).inFlight h).isSome = true :=
  ((sameRecords_abandonAll _ _).isSome h).trans (isSome_lookup serves _ k)

theorem delete_missing (serves : ServesKey s h nsid x key) (missing : (s.lookup (placeKey x (keyNorm key)) x (keyNorm key)).1 = none) :
    Completes (.delete h nsid key) s fun t => Answered t h (ansAt stNoKey nsid 0) := by
  have run : exec (.delete h nsid key) s = .next ((deleteBegun s x nsid (keyNorm key)).finish h (ansAt stNoKey nsid 0)) := by
    refine congrArg Host.Outcome.next ((keyCmd_of_serves serves _).trans ?_)
    dsimp only
    rw [missing]
    rfl
  exact completes_finish run (isSome_deleteBegun serves _) fun answered _ => answered

theorem retrieve_missing (serves : ServesKey s h nsid x key) (fits : size ≤ 1048576)
    (missing : (s.lookup (placeKey x (keyNorm key)) x (keyNorm key)).1 = none) :
    Completes (.retrieve h nsid key offset size info) s fun t => Answered t h (ansAt stNoKey nsid 0) := by
  have run : exec (.retrieve h nsid key offset size info) s =
      .next ((s.lookup (placeKey x (keyNorm key)) x (keyNorm key)).2.finish h (ansAt stNoKey nsid 0)) := by
    refine congrArg Host.Outcome.next ((keyCmd_of_serves serves _).trans ((if_neg (Nat.not_lt.mpr fits)).trans ?_))
    dsimp only
    rw [missing]
    rfl
  exact completes_finish run (isSome_lookup serves _ _) fun answered _ => answered

/-! ### Retrieve (R261) -/

theorem awaitsReads_countObject (s : State) (h : Hdr) (n : Nat) (o : ObjRecord) (offset len : Nat) :
    AwaitsReads h s (s.countObject h n o offset len) :=
  AwaitsReads.foldl (fun _ _ => awaitsReads_senseBlocks ..) _ s

/-- The bytes of a Retrieve on their way to the host. -/
def retrieveSent (s : State) (h : Hdr) (len bytes : Nat) : State :=
  (s.modCtrl h.ctrl fun c => c.countRead ((len + 4095) / 4096)).dataOut h bytes

theorem sameRecords_dataOut (s : State) (h : Hdr) (bytes : Nat) : SameRecords s (s.dataOut h bytes) :=
  sameRecords_of_frame (dataOut_frame s h bytes (Frame.refl 0xf00004 s) rfl) rfl

theorem isSome_retrieveSent (record : (s.inFlight h).isSome = true) (len bytes : Nat) :
    ((retrieveSent s h len bytes).inFlight h).isSome = true :=
  ((sameRecords_dataOut _ h bytes).isSome h).trans record

theorem retrieve_found {o : ObjRecord} {r v : List (BitVec 8)} (serves : ServesKey s h nsid x key) (fits : size ≤ 1048576)
    (found : (s.lookup (placeKey x (keyNorm key)) x (keyNorm key)).1 = some p)
    (record : (s.slice (placeKey x (keyNorm key)).slice).recordAt p = some o) (within : info = true ∨ offset ≤ o.value.length)
    (reads : (s.lookup (placeKey x (keyNorm key)) x (keyNorm key)).2.readObject (placeKey x (keyNorm key)).slice o offset
      (if info then 0 else min size (o.value.length - offset)) = .ok (r, v)) :
    Completes (.retrieve h nsid key offset size info) s fun t =>
      Reading t h { ansData (.bytes (if info then r.take size else v)) with dw0 := o.value.length, dw1 := o.version.toNat } ∧
      t.namespaces = s.namespaces ∧ t.nvm = s.nvm := by
  have inside : (!info && decide (o.value.length < offset)) = false := by
    rcases within with all | below
    · rw [all]
      rfl
    · rw [decide_eq_false (Nat.not_lt.mpr below), Bool.and_false]
  have run : exec (.retrieve h nsid key offset size info) s =
      .next (((retrieveSent (s.lookup (placeKey x (keyNorm key)) x (keyNorm key)).2 h (if info then 0 else min size (o.value.length - offset))
        (if info then r.take size else v).length).finish h
          { ansData (.bytes (if info then r.take size else v)) with dw0 := o.value.length, dw1 := o.version.toNat }).countObject h
            (placeKey x (keyNorm key)).slice o offset (if info then 0 else min size (o.value.length - offset))) := by
    refine congrArg Host.Outcome.next ((keyCmd_of_serves serves _).trans ((if_neg (Nat.not_lt.mpr fits)).trans ?_))
    dsimp only
    rw [found, Option.bind_some, recordAt_lookup, record]
    simp only [inside, reads]
    rfl
  have sent := isSome_retrieveSent (isSome_lookup serves (placeKey x (keyNorm key)) (keyNorm key))
    (if info then 0 else min size (o.value.length - offset)) (if info then r.take size else v).length
  have only := commandsChangeOnlyTheirFootprint _ _ _ run
  obtain ⟨more, stands, sensed⟩ := (awaitsReads_countObject _ h (placeKey x (keyNorm key)).slice o offset _).stands _ _ _ (answered_finish sent _)
  exact ⟨_, run, ⟨more, stands, sensed⟩, only .namespaces (by simp [footprint]), only .nvm (by simp [footprint])⟩

/-! ### The index of a slice while ingests go (R256, R262) -/

/-- An entry that the filter keeps is found after it as before. -/
theorem mapGet_filter_kept {α : Type} {l : List (Nat × α)} {v : α} (keep : Nat × α → Bool) (found : mapGet l p = some v)
    (kept : keep (p, v) = true) : mapGet (l.filter keep) p = some v := by
  induction l with
  | nil => cases found
  | cons a l ih =>
    rw [mapGet] at found
    split at found
    next same =>
      cases found
      subst same
      rw [List.filter_cons_of_pos kept, mapGet, if_pos rfl]
    next other =>
      rw [List.filter_cons]
      split
      · rw [mapGet, if_neg other]
        exact ih found
      · exact ih found

/-- Every index entry that is not PENDING stands in the second state as in the first. -/
structure KeepsEntries (s t : State) : Prop where
  stands : ∀ n p e, mapGet (s.slice n).index p = some e → e.state ≠ .pending → mapGet (t.slice n).index p = some e
  count : t.slices.length = s.slices.length

theorem SameTables.keepsEntries (same : SameTables s t) : KeepsEntries s t :=
  ⟨fun n _ _ found _ => (same.index n).symm ▸ found, same.count⟩

theorem KeepsEntries.trans (a : KeepsEntries s t) (b : KeepsEntries t u) : KeepsEntries s u :=
  ⟨fun n p e found other => b.stands n p e (a.stands n p e found other) other, b.count.trans a.count⟩

theorem KeepsEntries.foldl {α : Type} {f : State → α → State} (each : ∀ s a, KeepsEntries s (f s a)) (l : List α) (s : State) :
    KeepsEntries s (l.foldl f s) := by
  induction l generalizing s with
  | nil => exact (SameTables.refl s).keepsEntries
  | cons a l ih => exact (each s a).trans (ih _)

theorem keepsEntries_modSlice (s : State) (n : Nat) {f : Slice → Slice}
    (kept : ∀ y p e, mapGet y.index p = some e → e.state ≠ .pending → mapGet (f y).index p = some e) : KeepsEntries s (s.modSlice n f) where
  stands k p e found other := by
    rcases slice_modSlice_cases s n k f with now | now <;> rw [now]
    · exact kept _ p e found other
    · exact found
  count := slices_length_modSlice s n f

theorem index_unmapAll (l : List Nat) (y : Slice) : (l.foldl (fun y i => y.switch i .unmapped) y).index = y.index := by
  induction l generalizing y with
  | nil => rfl
  | cons i l ih => exact ih _

theorem sameTables_clearConds {α : Type} (c : α → Cond) (l : List α) (s : State) : SameTables s (l.foldl (fun s v => s.clearCond (c v)) s) :=
  SameTables.foldl (fun s v => sameTables_of_slices (t := s.clearCond (c v)) rfl) l s

/-- A slice without an ingest: its units UNMAPPED, its PENDING entry FREE (R256). -/
def withoutIngest (g : Ingest) (y : Slice) : Slice :=
  let y := (g.luas.foldl (fun y i => y.switch i .unmapped) y).freeIndex fun e => e.nsid == g.nsid && e.key == g.key && e.state == .pending
  { y with versions := y.versions.filter fun v => !(g.luas.contains v.index), ingests := recErase Ingest.id y.ingests g.id }

/-- An ingest gone from its slice, its digest still held. -/
def ingestDropped (s : State) (n : Nat) (g : Ingest) : State :=
  (((s.slice n).versions.filter fun v => g.luas.contains v.index).foldl (fun s v => s.clearCond (.programmed n v.wslot)) s).modSlice n
    (withoutIngest g)

theorem abandon_eq (s : State) (n : Nat) (g : Ingest) :
    s.abandon n g = g.digestInst.elim (ingestDropped s n g) fun i => (ingestDropped s n g).freeDigest i := by
  unfold State.abandon
  cases g.digestInst <;> rfl

/-- Freeing the digest leaves the tables as they are without the ingest. -/
theorem sameTables_abandon (s : State) (n : Nat) (g : Ingest) : SameTables (ingestDropped s n g) (s.abandon n g) := by
  rw [abandon_eq]
  cases g.digestInst with
  | none => exact SameTables.refl _
  | some i => exact sameTables_of_frame (freeDigest_frame _ i (Frame.refl 0x200001000000 _) rfl) rfl

theorem keepsEntries_abandon (s : State) (n : Nat) (g : Ingest) : KeepsEntries s (s.abandon n g) := by
  have cleared := (sameTables_clearConds (fun v : Version => .programmed n v.wslot)
    ((s.slice n).versions.filter fun v => g.luas.contains v.index) s).keepsEntries
  refine (cleared.trans (keepsEntries_modSlice _ n fun y p e found other => ?_)).trans (sameTables_abandon s n g).keepsEntries
  exact mapGet_filter_kept _ (by rwa [index_unmapAll]) (by simp [other])

theorem keepsEntries_abandonAll (s : State) (pick : Ingest → Bool) : KeepsEntries s (s.abandonAll pick) :=
  KeepsEntries.foldl (fun s n => KeepsEntries.foldl (fun s g => keepsEntries_abandon s n g) _ s) _ s

/-! ### Delete (R262) -/

theorem sameTables_cacheDrop (s : State) (q : KeyPlace) (k : KvKey) (p : Nat) : SameTables s (s.cacheDrop q k p) := by
  unfold State.cacheDrop
  split
  · exact SameTables.refl s
  · exact sameTables_modArray ..

theorem sameRecords_cacheDrop (s : State) (q : KeyPlace) (k : KvKey) (p : Nat) : SameRecords s (s.cacheDrop q k p) :=
  sameRecords_of_frame (cacheDrop_frame s q k p (Frame.refl 0x20000 s) rfl) rfl

theorem index_dropRecord (y : Slice) (id : Nat) : (y.dropRecord id).index = y.index := by
  unfold Slice.dropRecord
  split
  · rfl
  · exact index_unmapAll ..

/-- A record that goes leaves the index as it is (R259, R262). -/
theorem index_retireRecord (s : State) (n id m : Nat) : ((s.retireRecord n id).slice m).index = (s.slice m).index := by
  unfold State.retireRecord
  split
  · rfl
  · exact (modSlice_keeps Slice.index _ n m _ fun y => index_dropRecord y id).trans
      ((sameTables_clearConds (fun v : Version => .programmed n v.wslot) _ s).index m)

theorem sameRecords_retireRecord (s : State) (n id : Nat) : SameRecords s (s.retireRecord n id) := by
  unfold State.retireRecord
  split
  · exact SameRecords.refl s
  · exact (sameRecords_foldl _ (fun s v => sameRecords_clearCond s _) _ s).trans (sameRecords_of_inflight (modSlice_inflight ..))

/-- A Delete with its entry made a TOMB and its record gone. -/
def deleteDone (s : State) (q : KeyPlace) (k : KvKey) (p : Nat) (e : IndexEntry) : State :=
  ((s.cacheDrop q k p).modSlice q.slice fun y => y.putIndex p { e with state := .tomb }).retireRecord q.slice e.record

theorem sameRecords_deleteDone (s : State) (q : KeyPlace) (k : KvKey) (p : Nat) (e : IndexEntry) : SameRecords s (deleteDone s q k p e) :=
  ((sameRecords_cacheDrop s q k p).trans (sameRecords_of_inflight (modSlice_inflight ..))).trans (sameRecords_retireRecord ..)

theorem tomb_of_deleteDone (inside : q.slice < s.slices.length) (k : KvKey) (p : Nat) (e : IndexEntry) :
    mapGet ((deleteDone s q k p e).slice q.slice).index p = some { e with state := .tomb } := by
  rw [deleteDone, index_retireRecord, slice_modSlice_self _ (by rwa [(sameTables_cacheDrop s q k p).count])]
  exact (mapGet_mapInsert ..).trans (if_pos rfl)

theorem keepsEntries_deleteBegun (s : State) (x : Namespace) (nsid : Nat) (k : KvKey) : KeepsEntries s (deleteBegun s x nsid k) :=
  (sameTables_lookup s _ x k).keepsEntries.trans (keepsEntries_abandonAll ..)

theorem delete_found (serves : ServesKey s h nsid x key) (h8 : s.slices.length = 8)
    (found : (s.lookup (placeKey x (keyNorm key)) x (keyNorm key)).1 = some p)
    (entry : mapGet (s.slice (placeKey x (keyNorm key)).slice).index p = some e) :
    Completes (.delete h nsid key) s fun t => Answered t h (ansSt stOk) ∧
      mapGet (t.slice (placeKey x (keyNorm key)).slice).index p = some { e with state := .tomb } := by
  have live : e.state = .live := by
    obtain ⟨e', same, live⟩ := live_of_lookup found
    rw [entry] at same
    cases same
    exact live.2
  have kept := keepsEntries_deleteBegun s x nsid (keyNorm key)
  have stands := kept.stands _ p e entry (by rw [live]; decide)
  have run : exec (.delete h nsid key) s =
      .next ((deleteDone (deleteBegun s x nsid (keyNorm key)) (placeKey x (keyNorm key)) (keyNorm key) p e).finish h (ansSt stOk)) := by
    refine congrArg Host.Outcome.next ((keyCmd_of_serves serves _).trans ?_)
    dsimp only
    rw [deleteBegun] at stands
    rw [found]
    dsimp only
    rw [stands]
    rfl
  refine completes_finish run (((sameRecords_deleteDone ..).isSome h).trans (isSome_deleteBegun serves _)) fun answered _ => ⟨answered, ?_⟩
  exact tomb_of_deleteDone (by rw [kept.count]; exact slice_of_servesKey serves h8) (keyNorm key) p e

/-! ### List (R263) -/

/-- The keys that a List gives, from the beginning or from its key on. -/
def listedKeys (s : State) (x : Namespace) (key : KvKey) : List KvKey :=
  if key.len = 0 then (s.liveEntries x).map fun e => e.2.2.key
  else ((s.liveEntries x).map fun e => e.2.2.key).dropWhile fun k => k != keyNorm key

/-- The number of keys, and the keys, as a List of so many bytes gives them. -/
def listBytes (size : Nat) (ks : List KvKey) : List (BitVec 8) := leBytes 4 (fitKeys (size - 4) ks).length ++ (fitKeys (size - 4) ks).flatten

theorem exec_list (serves : Serves s h nsid x .object) (up : ∀ p ∈ x.parts, s.nsUp x p.slice = true) (short : key.len ≤ 16)
    (first : key.len = 0 ∨ s.behindKey h nsid (keyNorm key) = false) :
    exec (.list h nsid key size) s = .next (if key.len ≠ 0 ∧ listedKeys s x key = [] then s.finish h (ansAt stNoKey nsid 0)
      else (s.dataOut h (listBytes size (listedKeys s x key)).length).finish h
        (ansData (.bytes ((listBytes size (listedKeys s x key)).take size)))) := by
  have soon : ¬ (key.len ≠ 0 ∧ s.behindKey h nsid (keyNorm key) = true) := by
    rintro ⟨long, behind⟩
    rcases first with all | free
    · exact long all
    · exact absurd behind (by simp [free])
  have online : (x.parts.any fun p => !s.nsUp x p.slice) = false := by simpa using up
  refine congrArg Host.Outcome.next ((ioCmd_of_serves serves _).trans ?_)
  dsimp only
  rw [if_neg (Nat.not_lt.mpr short), if_neg soon, online]
  rfl

theorem list_lists (serves : Serves s h nsid x .object) (up : ∀ p ∈ x.parts, s.nsUp x p.slice = true) (short : key.len ≤ 16)
    (first : key.len = 0 ∨ s.behindKey h nsid (keyNorm key) = false) :
    Completes (.list h nsid key size) s fun t =>
      if key.len ≠ 0 ∧ listedKeys s x key = [] then Answered t h (ansAt stNoKey nsid 0) ∧ OnlyChanges [.inflight] s t
      else Answered t h (ansData (.bytes ((listBytes size (listedKeys s x key)).take size))) ∧ t.slices = s.slices ∧ t.nvm = s.nvm := by
  have record := inFlight_isSome_of_runnable serves.1
  refine ⟨_, exec_list serves up short first, ?_⟩
  split
  · exact answered_only_finish record _
  · have sent := dataOut_frame s h (listBytes size (listedKeys s x key)).length (Frame.refl 0xf00004 s) rfl
    exact ⟨answered_finish (((sameRecords_dataOut s h _).isSome h).trans record) _, sent.same .slices rfl, sent.same .nvm rfl⟩

/-- Settles O37: a key is found when its probed places hold a LIVE entry, and only such an entry is found; each command answers from the place
found, and List from the LIVE entries. -/
theorem objectCommandsOnOneKey : Obligations.ObjectCommandsOnOneKey := by
  unfold Obligations.ObjectCommandsOnOneKey
  refine ⟨fun h nsid key s x serves => ⟨exist_found serves, fun dead => ?_⟩, ?_, ?_, ?_⟩
  · have missing := lookup_none_of_serves serves dead
    exact ⟨exist_missing serves missing, delete_missing serves missing, fun _ _ _ fits => retrieve_missing serves fits missing⟩
  · exact fun h nsid key offset size info s x p o r v serves fits found record within reads =>
      retrieve_found serves fits found record within reads
  · exact fun h nsid key s x p e serves h8 found entry => delete_found serves h8 found entry
  · exact fun h nsid size key s x serves up short first => list_lists serves up short first

end Sys2Proof.Proofs
end

section
/-!
What a Store passes before its object commits (R56, R83, R127, R140, R257 to R260): each step keeps the tables of the object service and the records
of the commands in flight; then the commit itself, and the dispatch of the command.
-/

namespace Sys2Proof.Proofs

open Sys2Proof.Machine Sys2Proof.Laws

variable {s t u : State} {x : Namespace} {h : Hdr} {n p : Nat} {k : KvKey} {q : KeyPlace} {e : IndexEntry}

/-! ### The tables and the commands in flight -/

/-- The object service holds the same, and the same commands are in flight. -/
structure SameService (s t : State) : Prop where
  tables : SameTables s t
  records : SameRecords s t

theorem SameService.trans (a : SameService s t) (b : SameService t u) : SameService s u :=
  ⟨a.tables.trans b.tables, a.records.trans b.records⟩

theorem SameService.refl (s : State) : SameService s s := ⟨SameTables.refl s, SameRecords.refl s⟩

theorem SameService.foldl {α : Type} {f : State → α → State} (each : ∀ s a, SameService s (f s a)) (l : List α) (s : State) :
    SameService s (l.foldl f s) :=
  ⟨SameTables.foldl (fun s a => (each s a).tables) l s, sameRecords_foldl f (fun s a => (each s a).records) l s⟩

theorem sameService_of_frame {F : Nat} (fr : Frame F s t) (slices : F.testBit Component.slices.ctorIdx = false)
    (inflight : F.testBit Component.inflight.ctorIdx = false) : SameService s t :=
  ⟨sameTables_of_frame fr slices, sameRecords_of_frame fr inflight⟩

theorem sameService_modSlice (s : State) (n : Nat) (f : Slice → Slice) (hf : ∀ y, objectTables (f y) = objectTables y) :
    SameService s (s.modSlice n f) :=
  ⟨sameTables_modSlice s n f hf, sameRecords_of_inflight (modSlice_inflight s n f)⟩

theorem sameService_lookup (s : State) (q : KeyPlace) (x : Namespace) (k : KvKey) : SameService s (s.lookup q x k).2 :=
  ⟨sameTables_lookup .., sameRecords_lookup ..⟩

/-! ### Data, digest and wear (R140, R260) -/

theorem sameService_dataIn (s : State) (h : Hdr) (bytes : Nat) : SameService s (s.dataIn h bytes) :=
  sameService_of_frame (dataIn_frame s h bytes (Frame.refl 0xf00004 s) rfl) rfl rfl

theorem sameService_takeInstance (s : State) (inst : Option Nat) (owner alg total : Nat) : SameService s (s.takeInstance inst owner alg total) :=
  sameService_of_frame (takeInstance_frame s inst owner alg total (Frame.refl 0x1000004 s) rfl) rfl rfl

theorem sameService_feedInstance (s : State) (inst : Option Nat) (bs : List (BitVec 8)) : SameService s (s.feedInstance inst bs) :=
  sameService_of_frame (feedInstance_frame s inst bs (Frame.refl 0x1000004 s) rfl) rfl rfl

theorem sameService_leaveInstance (s : State) (inst : Option Nat) : SameService s (s.leaveInstance inst) :=
  sameService_of_frame (leaveInstance_frame s inst (Frame.refl 0x200001000000 s) rfl) rfl rfl

theorem sameTables_charge (s : State) (owner n : Nat) (pool : Pool) (bytes : Nat) : SameTables s (s.charge owner n pool bytes) := by
  have counted (r : State) : SameTables r (r.modSlice n fun x => x.countWa pool bytes 0) := sameTables_modSlice r n _ fun _ => rfl
  unfold State.charge
  dsimp only
  split
  · exact (counted s).trans (sameTables_of_slices rfl)
  · have drawn : SameTables s s.free.2 := sameTables_of_slices rfl
    exact (drawn.trans (counted _)).trans (sameTables_of_slices rfl)

/-- The wear that a part of an object costs, charged to its owner (R83, R140). -/
theorem sameService_charged (s : State) (owner n : Nat) (pool : Pool) (bytes : Nat) :
    SameService s (s.charge owner n pool bytes).evalWear :=
  SameService.trans ⟨sameTables_charge .., sameRecords_of_frame (charge_frame s owner n pool bytes (Frame.refl 0x8000000021000 s) rfl) rfl⟩
    (sameService_of_frame (evalWear_frame _ (Frame.refl 0x1004 _) rfl) rfl rfl)

/-! ### Units written (R106, R257) -/

theorem sameTables_dramPut (s : State) (n c port owner ca pieces : Nat) (write : Bool) :
    SameTables s (s.dramPut n c port owner ca pieces write) := by
  unfold State.dramPut
  split
  · exact SameTables.refl s
  · exact sameTables_modSlice s n _ fun _ => rfl

theorem sameTables_dramCopies (s : State) (n w b owner : Nat) (chans : List Nat) : SameTables s (s.dramCopies n w b owner chans) :=
  SameTables.foldl (fun _ _ => sameTables_dramPut ..) chans s

/-- A slice changed outside its tables, with the block copied to DRAM. -/
theorem sameTables_buffered {f : Slice → Slice} (hf : ∀ y, objectTables (f y) = objectTables y) (s : State) (n w b owner : Nat) (chans : List Nat) :
    SameTables s ((s.modSlice n f).dramCopies n w b owner chans) :=
  (sameTables_modSlice s n f hf).trans (sameTables_dramCopies ..)

theorem sameTables_bufferBlock (s : State) (n nsid lua i b : Nat) (d : Block) (writer : Nat) :
    SameTables s (s.bufferBlock n nsid lua i b d writer).2 := by
  unfold State.bufferBlock
  dsimp only
  split
  · split
    · exact sameTables_buffered (by intro; rfl) ..
    · exact sameTables_buffered (by intro; rfl) ..
  · exact sameTables_buffered (by intro; rfl) ..

/-- A fold that carries a result beside the state keeps the tables when each of its steps does. -/
theorem sameTables_foldl_snd {α β : Type} {f : β × State → α → β × State} (each : ∀ b s a, SameTables s (f (b, s) a).2) (l : List α) (b : β)
    (s : State) : SameTables s (l.foldl f (b, s)).2 := by
  induction l generalizing b s with
  | nil => exact SameTables.refl s
  | cons a l ih => exact (each b s a).trans (ih _ _)

theorem sameTables_writeUnit (s : State) (q : KeyPlace) (nsid owner i : Nat) (bs : List (BitVec 8)) :
    SameTables s (s.writeUnit q nsid owner i bs).2 :=
  sameTables_foldl_snd (fun _ _ _ => sameTables_bufferBlock ..) _ _ s

theorem sameService_writeUnits (s : State) (q : KeyPlace) (nsid owner : Nat) (l : List (Nat × List (BitVec 8))) :
    SameService s (s.writeUnits q nsid owner l).2 :=
  ⟨sameTables_foldl_snd (fun _ _ _ => sameTables_writeUnit ..) l [] s,
    sameRecords_of_frame (writeUnits_frame s q nsid owner l (Frame.refl 0x20000 s) rfl) rfl⟩

/-! ### The commit (R255, R257, R259) -/

/-- The LIVE entry of a key at a place. -/
def liveAt (s : State) (q : KeyPlace) (x : Namespace) (k : KvKey) (place : Nat) : Option IndexEntry :=
  (mapGet (s.slice q.slice).index place).filter fun e => e.holds x.nsid k && e.state == .live

/-- The record that a commit makes: the next VERSION of what it replaces, or 1. -/
def newObject (s : State) (q : KeyPlace) (x : Namespace) (k : KvKey) (place : Nat) (value : List (BitVec 8)) (luas : List Nat) (recordLua : Nat)
    (digest : List (BitVec 8)) : ObjRecord :=
  { id := (s.slice q.slice).nextObject, nsid := x.nsid, key := k, alg := x.desc.fixity,
    version := (liveAt s q x k place).elim 1 fun e => e.version + 1, value := value, luas := luas, recordLua := recordLua, digest := digest,
    commitCourse := s.now }

/-- A record written, and the index entry switched to it. -/
def objectPlaced (s : State) (q : KeyPlace) (owner place : Nat) (o : ObjRecord) : State :=
  ((s.modSlice q.slice fun y => { y with objects := mapInsert y.objects o.id o }).writeUnits q o.nsid owner
    [(o.recordLua, o.bytes q.lua)]).2.modSlice q.slice fun y =>
      y.putIndex place { nsid := o.nsid, key := o.key, state := .live, version := o.version, record := o.id }

theorem commitObject_eq (s : State) (q : KeyPlace) (x : Namespace) (k : KvKey) (owner place : Nat) (value : List (BitVec 8)) (luas : List Nat)
    (recordLua : Nat) (digest : List (BitVec 8)) :
    (s.commitObject q x k owner place value luas recordLua digest).2 =
      (liveAt s q x k place).elim (objectPlaced s q owner place (newObject s q x k place value luas recordLua digest)) fun e =>
        (objectPlaced s q owner place (newObject s q x k place value luas recordLua digest)).retireRecord q.slice e.record := by
  unfold State.commitObject objectPlaced newObject liveAt
  dsimp only
  cases (mapGet (s.slice q.slice).index place).filter fun e => e.holds x.nsid k && e.state == .live <;> rfl

theorem sameRecords_objectPlaced (s : State) (q : KeyPlace) (owner place : Nat) (o : ObjRecord) : SameRecords s (objectPlaced s q owner place o) :=
  ((sameRecords_of_inflight (modSlice_inflight ..)).trans (sameService_writeUnits ..).records).trans (sameRecords_of_inflight (modSlice_inflight ..))

theorem sameRecords_commitObject (s : State) (q : KeyPlace) (x : Namespace) (k : KvKey) (owner place : Nat) (value : List (BitVec 8))
    (luas : List Nat) (recordLua : Nat) (digest : List (BitVec 8)) :
    SameRecords s (s.commitObject q x k owner place value luas recordLua digest).2 := by
  rw [commitObject_eq]
  cases liveAt s q x k place with
  | none => exact sameRecords_objectPlaced ..
  | some e => exact (sameRecords_objectPlaced ..).trans (sameRecords_retireRecord ..)

theorem index_objectPlaced (inside : q.slice < s.slices.length) (owner place : Nat) (o : ObjRecord) :
    mapGet ((objectPlaced s q owner place o).slice q.slice).index place =
      some { nsid := o.nsid, key := o.key, state := .live, version := o.version, record := o.id } := by
  have count := (sameService_writeUnits (s.modSlice q.slice fun y => { y with objects := mapInsert y.objects o.id o }) q o.nsid owner
    [(o.recordLua, o.bytes q.lua)]).tables.count
  rw [objectPlaced, slice_modSlice_self _ (by rwa [count, slices_length_modSlice])]
  exact (mapGet_mapInsert ..).trans (if_pos rfl)

theorem objects_objectPlaced (inside : q.slice < s.slices.length) (owner place : Nat) (o : ObjRecord) :
    mapGet ((objectPlaced s q owner place o).slice q.slice).objects o.id = some o := by
  have written := (sameService_writeUnits (s.modSlice q.slice fun y => { y with objects := mapInsert y.objects o.id o }) q o.nsid owner
    [(o.recordLua, o.bytes q.lua)]).tables.objects q.slice
  rw [objectPlaced, modSlice_keeps Slice.objects _ q.slice q.slice _ (by intro; rfl), written, slice_modSlice_self _ inside]
  exact (mapGet_mapInsert ..).trans (if_pos rfl)

/-- The place then holds a LIVE entry of the key, of the VERSION of the new record. -/
theorem index_commitObject (inside : q.slice < s.slices.length) (owner place : Nat) (value : List (BitVec 8)) (luas : List Nat) (recordLua : Nat)
    (digest : List (BitVec 8)) :
    mapGet ((s.commitObject q x k owner place value luas recordLua digest).2.slice q.slice).index place =
      some { nsid := x.nsid, key := k, state := .live, version := (liveAt s q x k place).elim 1 fun e => e.version + 1,
             record := (s.slice q.slice).nextObject } := by
  have placed := index_objectPlaced inside owner place (newObject s q x k place value luas recordLua digest)
  rw [commitObject_eq]
  cases old : liveAt s q x k place with
  | none => simpa [newObject, old] using placed
  | some e =>
    rw [Option.elim_some, index_retireRecord, placed]
    simp [newObject, old]

/-- Where no version of the key was, the new record holds the value. -/
theorem value_commitObject (inside : q.slice < s.slices.length) {place : Nat} (new : liveAt s q x k place = none) (owner : Nat)
    (value : List (BitVec 8)) (luas : List Nat) (recordLua : Nat) (digest : List (BitVec 8)) :
    (mapGet ((s.commitObject q x k owner place value luas recordLua digest).2.slice q.slice).objects (s.slice q.slice).nextObject).map
      ObjRecord.value = some value := by
  have placed := objects_objectPlaced inside owner place (newObject s q x k place value luas recordLua digest)
  rw [commitObject_eq, new, Option.elim_none]
  exact congrArg (Option.map ObjRecord.value) placed

/-! ### The command dispatched (R56, R259) -/

theorem sameTables_throughNow (s : State) (h : Hdr) (x : Namespace) (fua : Bool) (wrote : List (Nat × Nat × List Nat)) :
    SameTables s (s.throughNow h x fua wrote).2 :=
  SameTables.foldl (fun s (w : Nat × Nat × List Nat) =>
    sameTables_modSlice s w.1 (fun y => y.modVersion w.2.1 fun v => { v with through := true }) fun _ => rfl) _ s

theorem sameTables_storeOut (s : State) (h : Hdr) (x : Namespace) (n bytes : Nat) (wrote : List (Nat × Nat × List Nat)) (luas : List Nat) :
    SameTables s (s.storeOut h x n bytes wrote luas) :=
  (sameTables_throughNow s h x false _).trans (sameTables_of_slices rfl)

theorem succeeds_storeOut (record : (s.inFlight h).isSome = true) (x : Namespace) (n bytes : Nat) (wrote : List (Nat × Nat × List Nat))
    (luas : List Nat) : Succeeds (s.storeOut h x n bytes wrote luas) h := by
  refine ⟨ansSt stOk, _, standing_answer ?_ _ _, rfl⟩
  refine (inFlight_isSome_modIn _ h _ (by intro; rfl)).trans (Eq.trans ?_ record)
  exact (sameRecords_of_frame (throughNow_frame s h x false _ (Frame.refl 0x20000 s) rfl) rfl).isSome h

end Sys2Proof.Proofs
end

section
/-!
Store (R255 to R260): a whole value, the segments of an ingest, and an ingest that is idle too long: the obligation O38.
-/

namespace Sys2Proof.Proofs

open Sys2Proof.Machine Sys2Proof.Laws

variable {s t u : State} {x : Namespace} {h : Hdr} {nsid n p seg total : Nat} {key k : KvKey} {q : KeyPlace} {opt : StoreOpt} {o : Opening} {g : Ingest}
  {value : List (BitVec 8)} {inst : Option Nat}

/-! ### A place taken at once (R260) -/

/-- A command with nobody of its owner before it, no longer among the requests that wait for a place. -/
def placeTaken (s : State) (h : Hdr) : State :=
  { s with digestWaits := (s.digestWaits.filter fun w => w.1 != ctrlOwner h.ctrl || ([] : List Hdr).contains w.2).filter fun w => w.2 != h }

theorem withPlace_of_free {alg : Nat} (idle : s.waitsOf (ctrlOwner h.ctrl) = []) (free : s.freePlace (ctrlOwner h.ctrl) alg n true = some inst)
    (f : Option Nat → State → State) : s.withPlace h alg n true f = f inst (placeTaken s h) := by
  have still (ds : List (Nat × Hdr)) : State.freePlace { s with digestWaits := ds } (ctrlOwner h.ctrl) alg n true = some inst := free
  unfold State.withPlace
  dsimp only
  rw [idle, List.head?_nil, Option.all_none, if_pos rfl, still]
  rfl

theorem sameService_placeTaken (s : State) (h : Hdr) : SameService s (placeTaken s h) :=
  ⟨sameTables_of_slices rfl, sameRecords_of_inflight rfl⟩

/-! ### An opening found (R255, R256) -/

/-- What an opening Store has found: no ingest of the key is open, and its place is that of the key's LIVE entry or else a free one. -/
theorem found_of_openStore {len owner : Nat} {live : Option Nat} (opens : s.openStore x k q opt len owner live = .ok o) :
    (s.slice q.slice).ingestOf x.nsid k = none ∧ o.isNew = live.isNone ∧
      (live.orElse fun _ => probeFree (s.slice q.slice).index q.probes) = some o.place := by
  unfold State.openStore at opens
  dsimp only at opens
  split at opens
  · cases opens
  split at opens
  · cases opens
  split at opens
  · cases opens
  split at opens
  · cases opens
  next unopened =>
  split at opens
  · cases opens
  split at opens
  next place luas found _ =>
    cases opens
    exact ⟨by simpa using unopened, rfl, found⟩
  · cases opens

theorem tomb_of_probeFree {ix : List (Nat × IndexEntry)} {l : List Nat} (found : probeFree ix l = some p) :
    (mapGet ix p).all (fun e => e.state == .tomb) = true := by
  have free := List.find?_some found
  exact free

/-- A place found free holds no LIVE entry. -/
theorem liveAt_of_probeFree {l : List Nat} (found : probeFree (s.slice q.slice).index l = some p) : liveAt s q x k p = none := by
  have free := tomb_of_probeFree found
  unfold liveAt
  cases at_ : mapGet (s.slice q.slice).index p with
  | none => rfl
  | some e =>
    rw [at_] at free
    have tomb : e.state = .tomb := by simpa using free
    simp [tomb]

theorem liveAt_congr (same : SameTables s t) (q : KeyPlace) (x : Namespace) (k : KvKey) (p : Nat) : liveAt t q x k p = liveAt s q x k p := by
  rw [liveAt, same.index, liveAt]

theorem liveAt_of_lookup (found : (s.lookup q x k).1 = some p) : liveAt s q x k p = mapGet (s.slice q.slice).index p := by
  obtain ⟨e, at_, live⟩ := live_of_lookup found
  rw [liveAt, at_]
  exact Option.filter_eq_some_iff.mpr ⟨rfl, liveOf_iff.mpr live⟩

/-! ### A Store of one command (R257 to R260) -/

/-- The value of a Store of one command taken in: its data, its digest, its wear, its LUAs and its units. -/
def wholeTaken (s : State) (h : Hdr) (x : Namespace) (q : KeyPlace) (inst : Option Nat) (luas : List Nat) (value : List (BitVec 8)) :
    List (Nat × Nat × List Nat) × State :=
  let s := (((s.dataIn h value.length).takeInstance inst (ctrlOwner h.ctrl) x.desc.fixity value.length).feedInstance inst value).leaveInstance inst
  let s := ((s.charge (ctrlOwner h.ctrl) q.slice x.pool value.length).evalWear).modSlice q.slice fun y => y.recordIngest 0 luas
  s.writeUnits q x.nsid (ctrlOwner h.ctrl) (cutUnits (s.mu q.slice * 4096) 0 luas.dropLast value)

theorem sameService_wholeTaken (s : State) (h : Hdr) (x : Namespace) (q : KeyPlace) (inst : Option Nat) (luas : List Nat)
    (value : List (BitVec 8)) : SameService s (wholeTaken s h x q inst luas value).2 := by
  have data := (((sameService_dataIn s h value.length).trans (sameService_takeInstance _ inst (ctrlOwner h.ctrl) x.desc.fixity value.length)).trans
    (sameService_feedInstance _ inst value)).trans (sameService_leaveInstance _ inst)
  have paid := data.trans (sameService_charged _ (ctrlOwner h.ctrl) q.slice x.pool value.length)
  exact (paid.trans (sameService_modSlice _ q.slice (fun y => y.recordIngest 0 luas) fun _ => rfl)).trans (sameService_writeUnits ..)

/-- The object of a Store of one command committed. -/
def wholeStored (s : State) (h : Hdr) (x : Namespace) (k : KvKey) (q : KeyPlace) (inst : Option Nat) (o : Opening) (value : List (BitVec 8)) :
    List (Nat × Nat × List Nat) × State :=
  (wholeTaken s h x q inst o.luas value).2.commitObject q x k (ctrlOwner h.ctrl) o.place value o.luas.dropLast ((o.luas.getLast?).getD 0)
    (fixityOf x.desc.fixity value)

theorem storeWhole_eq (opens : (s.lookup q x k).2.openStore x k q opt value.length (ctrlOwner h.ctrl) (s.lookup q x k).1 = .ok o)
    (room : (s.lookup q x k).2.objectRoom h x q.slice o.luas.length = true) (idle : (s.lookup q x k).2.waitsOf (ctrlOwner h.ctrl) = [])
    (free : (s.lookup q x k).2.freePlace (ctrlOwner h.ctrl) x.desc.fixity q.slice true = some inst) :
    ∃ u wrote, SameService s u ∧
      s.storeWhole h x k q opt value = (wholeStored u h x k q inst o value).2.storeOut h x q.slice value.length wrote o.luas := by
  unfold State.storeWhole
  dsimp only
  rw [opens]
  exact ⟨_, _, (sameService_lookup s q x k).trans (sameService_placeTaken _ h), (if_neg (by simp [room])).trans (withPlace_of_free idle free _)⟩

theorem storeWhole_commits (inside : q.slice < s.slices.length) (record : (s.inFlight h).isSome = true)
    (opens : (s.lookup q x k).2.openStore x k q opt value.length (ctrlOwner h.ctrl) (s.lookup q x k).1 = .ok o)
    (room : (s.lookup q x k).2.objectRoom h x q.slice o.luas.length = true) (idle : (s.lookup q x k).2.waitsOf (ctrlOwner h.ctrl) = [])
    (free : ((s.lookup q x k).2.freePlace (ctrlOwner h.ctrl) x.desc.fixity q.slice true).isSome = true) :
    Succeeds (s.storeWhole h x k q opt value) h ∧
      ∃ e, mapGet ((s.storeWhole h x k q opt value).slice q.slice).index o.place = some e ∧ e.nsid = x.nsid ∧ e.key = k ∧ e.state = .live ∧
        (o.isNew = true → e.version = 1 ∧
          (mapGet ((s.storeWhole h x k q opt value).slice q.slice).objects e.record).map ObjRecord.value = some value) ∧
        (o.isNew = false → ∀ e0, mapGet (s.slice q.slice).index o.place = some e0 → e.version = e0.version + 1) := by
  obtain ⟨-, fresh, found⟩ := found_of_openStore opens
  obtain ⟨inst, free⟩ := Option.isSome_iff_exists.mp free
  obtain ⟨u, wrote, begun, run⟩ := storeWhole_eq opens room idle free
  have taken := begun.trans (sameService_wholeTaken u h x q inst o.luas value)
  have within : q.slice < (wholeTaken u h x q inst o.luas value).2.slices.length := by rwa [taken.tables.count]
  have same := sameTables_storeOut (wholeStored u h x k q inst o value).2 h x q.slice value.length wrote o.luas
  have old := liveAt_congr taken.tables q x k o.place
  rw [run]
  refine ⟨succeeds_storeOut (((sameRecords_commitObject ..).isSome h).trans ((taken.records.isSome h).trans record)) .., _,
    (same.index q.slice).symm ▸ index_commitObject within .., rfl, rfl, rfl, fun new => ?_, fun replaces e0 at_ => ?_⟩
  · have missing : (s.lookup q x k).1 = none := by rwa [new, eq_comm, Option.isNone_iff_eq_none] at fresh
    rw [missing, Option.orElse_none] at found
    have gone : liveAt (wholeTaken u h x q inst o.luas value).2 q x k o.place = none := by
      rw [old, ← liveAt_congr (sameTables_lookup s q x k), liveAt_of_probeFree found]
    exact ⟨by rw [gone]; rfl, by rw [same.objects]; exact value_commitObject within gone ..⟩
  · obtain ⟨p, hit⟩ := Option.isSome_iff_exists.mp (by rwa [replaces, eq_comm, Option.isNone_eq_false_iff] at fresh)
    rw [hit] at found
    cases found
    rw [old, liveAt_of_lookup hit, at_]
    rfl

/-! ### A segment in order (R258, R259) -/

/-- A segment's data and digest taken in. -/
def segmentFed (s : State) (h : Hdr) (g : Ingest) (value : List (BitVec 8)) : State :=
  (s.dataIn h value.length).feedInstance g.digestInst value

theorem sameService_segmentFed (s : State) (h : Hdr) (g : Ingest) (value : List (BitVec 8)) : SameService s (segmentFed s h g value) :=
  (sameService_dataIn ..).trans (sameService_feedInstance ..)

/-- A segment paid for, and its units written. -/
def segmentTaken (s : State) (h : Hdr) (x : Namespace) (q : KeyPlace) (g : Ingest) (value : List (BitVec 8)) :
    List (Nat × Nat × List Nat) × State :=
  let s := ((segmentFed s h g value).charge g.owner q.slice x.pool value.length).evalWear
  s.writeUnits q x.nsid g.owner (cutUnits (s.mu q.slice * 4096) (g.nextSeg * segBytes / (s.mu q.slice * 4096)) g.luas.dropLast value)

theorem sameService_segmentTaken (s : State) (h : Hdr) (x : Namespace) (q : KeyPlace) (g : Ingest) (value : List (BitVec 8)) :
    SameService s (segmentTaken s h x q g value).2 :=
  ((sameService_segmentFed s h g value).trans (sameService_charged ..)).trans (sameService_writeUnits ..)

/-- An ingest with one more segment. -/
def advanced (arrived : List (BitVec 8)) (g : Ingest) : Ingest := { g with nextSeg := g.nextSeg + 1, value := arrived }

/-- A segment that is not the last: the ingest advances in its slice (R258). -/
def segmentKept (s : State) (h : Hdr) (x : Namespace) (q : KeyPlace) (g : Ingest) (value : List (BitVec 8)) : State :=
  (segmentTaken s h x q g value).2.modSlice q.slice fun y =>
    { y with ingests := recMod Ingest.id y.ingests g.id (advanced (g.value ++ value)) }

theorem segment_of_more (more : g.nextSeg + 1 ≠ segCount g.total) (s : State) (h : Hdr) (x : Namespace) (k : KvKey) (q : KeyPlace)
    (value : List (BitVec 8)) :
    ∃ wrote luas, s.segment h x k q g value = (segmentKept s h x q g value).storeOut h x q.slice value.length wrote luas := by
  have open_ : (g.nextSeg + 1 == segCount g.total) = false := beq_eq_false_iff_ne.mpr more
  unfold State.segment
  dsimp only
  rw [open_, Bool.false_and]
  exact ⟨_, _, rfl⟩

theorem ingestOf_recMod {y z : Slice} (found : y.ingestOf nsid k = some g) {f : Ingest → Ingest} (same : ∀ i, (f i).nsid = i.nsid ∧ (f i).key = i.key)
    (modified : z.ingests = recMod Ingest.id y.ingests g.id f) : z.ingestOf nsid k = some (f g) := by
  have named : (fun i : Ingest => i.nsid == nsid && i.key == k) ∘ (fun i => if i.id = g.id then f i else i) =
      fun i => i.nsid == nsid && i.key == k := by
    funext i
    simp only [Function.comp]
    split
    · rw [(same i).1, (same i).2]
    · rfl
  rw [Slice.ingestOf] at found
  rw [Slice.ingestOf, modified, recMod, List.find?_map, named, found, Option.map_some, if_pos rfl]

/-- A segment in order that is not the last succeeds, and its bytes are the ingest's (R258). -/
theorem segment_advances (inside : q.slice < s.slices.length) (record : (s.inFlight h).isSome = true)
    (opened : (s.slice q.slice).ingestOf nsid k = some g) (more : g.nextSeg + 1 ≠ segCount g.total) (x : Namespace) (value : List (BitVec 8)) :
    Succeeds (s.segment h x k q g value) h ∧
      ((s.segment h x k q g value).slice q.slice).ingestOf nsid k = some (advanced (g.value ++ value) g) := by
  have taken := sameService_segmentTaken s h x q g value
  obtain ⟨wrote, luas, run⟩ := segment_of_more more s h x k q value
  have kept : SameRecords s (segmentKept s h x q g value) := taken.records.trans (sameRecords_of_inflight (modSlice_inflight ..))
  rw [run]
  refine ⟨succeeds_storeOut ((kept.isSome h).trans record) .., ingestOf_recMod opened (fun _ => ⟨rfl, rfl⟩) ?_⟩
  rw [(sameTables_storeOut ..).ingests, segmentKept, slice_modSlice_self _ (by rwa [taken.tables.count]), taken.tables.ingests]

theorem segment_mismatch (last : g.nextSeg + 1 = segCount g.total) (wrong : (g.value ++ value).length ≠ g.total)
    (record : (s.inFlight h).isSome = true) (x : Namespace) (k : KvKey) (q : KeyPlace) :
    Answered (s.segment h x k q g value) h { ansAt stLength x.nsid 0 with info := ((g.value ++ value).length : Int) - g.total } := by
  have run : s.segment h x k q g value = ((segmentFed s h g value).abandon q.slice g).finish h
      { ansAt stLength x.nsid 0 with info := ((g.value ++ value).length : Int) - g.total } := by
    have off : ((g.nextSeg + 1 == segCount g.total) && (g.value ++ value).length != g.total) = true :=
      Bool.and_eq_true_iff.mpr ⟨beq_iff_eq.mpr last, bne_iff_ne.mpr wrong⟩
    exact if_pos off
  rw [run]
  exact answered_finish (((sameRecords_abandon ..).isSome h).trans (((sameService_segmentFed s h g value).records.isSome h).trans record)) _

/-- An ingest whose last segment is in, gone from its slice with its digest free again. -/
def ingestEnded (s : State) (n : Nat) (g : Ingest) : State :=
  (s.leaveInstance g.digestInst).modSlice n fun y => { y with ingests := recErase Ingest.id y.ingests g.id }

theorem sameRecords_ingestEnded (s : State) (n : Nat) (g : Ingest) : SameRecords s (ingestEnded s n g) :=
  (sameService_leaveInstance ..).records.trans (sameRecords_of_inflight (modSlice_inflight ..))

theorem segment_completes (last : g.nextSeg + 1 = segCount g.total) (whole : (g.value ++ value).length = g.total)
    (record : (s.inFlight h).isSome = true) (x : Namespace) (k : KvKey) (q : KeyPlace) : Succeeds (s.segment h x k q g value) h := by
  have run : ∃ place luas lua digest wrote,
      s.segment h x k q g value = ((ingestEnded (segmentTaken s h x q g value).2 q.slice g).commitObject q x k g.owner place (g.value ++ value) luas
        lua digest).2.storeOut h x q.slice value.length wrote g.luas := by
    have end_ : (g.nextSeg + 1 == segCount g.total) = true := beq_iff_eq.mpr last
    have equal : ((g.value ++ value).length != g.total) = false := by rw [whole, bne_self_eq_false]
    unfold State.segment
    dsimp only
    rw [end_, equal, Bool.and_false]
    exact ⟨_, _, _, _, _, rfl⟩
  obtain ⟨place, luas, lua, digest, wrote, run⟩ := run
  have kept : SameRecords s _ := ((sameService_segmentTaken s h x q g value).records.trans (sameRecords_ingestEnded _ q.slice g)).trans
    (sameRecords_commitObject _ q x k g.owner place (g.value ++ value) luas lua digest)
  rw [run]
  exact succeeds_storeOut ((kept.isSome h).trans record) ..

/-! ### Segment 0 (R256, R258, R260) -/

/-- The ingest that a first segment opens. -/
def openedIngest (s : State) (h : Hdr) (x : Namespace) (k : KvKey) (q : KeyPlace) (total : Nat) (inst : Option Nat) (o : Opening) : Ingest :=
  { id := (s.slice q.slice).ingests.foldl (fun m g => max m (g.id + 1)) 1, nsid := x.nsid, key := k, owner := ctrlOwner h.ctrl, ctrl := h.ctrl,
    slice := q.slice, total := total, nextSeg := 0, value := [], luas := o.luas, digestInst := inst, hadOld := !o.isNew }

/-- A slice with an ingest more, and a PENDING entry where its key is new. -/
def withIngest (g : Ingest) (o : Opening) (y : Slice) : Slice :=
  let y := y.recordIngest g.id o.luas
  let y := { y with ingests := y.ingests ++ [g] }
  if o.isNew then y.putIndex o.place { nsid := g.nsid, key := g.key, state := .pending, version := 0, record := 0 } else y

theorem ingests_withIngest (g : Ingest) (o : Opening) (y : Slice) : (withIngest g o y).ingests = y.ingests ++ [g] := by
  unfold withIngest
  dsimp only
  split <;> rfl

/-- The ingest open in its slice. -/
def ingestOpened (s : State) (h : Hdr) (x : Namespace) (k : KvKey) (q : KeyPlace) (total : Nat) (inst : Option Nat) (o : Opening) : State :=
  (s.takeInstance inst (ctrlOwner h.ctrl) x.desc.fixity total).modSlice q.slice
    (withIngest (openedIngest (s.takeInstance inst (ctrlOwner h.ctrl) x.desc.fixity total) h x k q total inst o) o)

theorem openIngest_eq (opens : (s.lookup q x k).2.openStore x k q opt total (ctrlOwner h.ctrl) (s.lookup q x k).1 = .ok o)
    (room : (s.lookup q x k).2.objectRoom h x q.slice ((s.lookup q x k).2.segSlots q.slice value) = true)
    (idle : (s.lookup q x k).2.waitsOf (ctrlOwner h.ctrl) = [])
    (free : (s.lookup q x k).2.freePlace (ctrlOwner h.ctrl) x.desc.fixity q.slice true = some inst) :
    ∃ u, SameService s u ∧ s.openIngest h x k q opt total value = (ingestOpened u h x k q total inst o).segment h x k q
      (openedIngest (u.takeInstance inst (ctrlOwner h.ctrl) x.desc.fixity total) h x k q total inst o) value := by
  unfold State.openIngest
  dsimp only
  rw [opens]
  exact ⟨_, (sameService_lookup s q x k).trans (sameService_placeTaken _ h), (if_neg (by simp [room])).trans (withPlace_of_free idle free _)⟩

theorem ingestOf_append {y z : Slice} (vacant : y.ingestOf nsid k = none) (appended : z.ingests = y.ingests ++ [g]) (own : g.nsid = nsid ∧ g.key = k) :
    z.ingestOf nsid k = some g := by
  rw [Slice.ingestOf] at vacant
  rw [Slice.ingestOf, appended, List.find?_append, vacant, Option.none_or, List.find?_singleton, own.1, own.2]
  simp

/-- A value of more than one segment's bytes has more than one segment. -/
theorem one_lt_segCount (large : 1048576 < total) : 1 < segCount total := by
  unfold segCount segBytes
  omega

theorem openIngest_opens (inside : q.slice < s.slices.length) (record : (s.inFlight h).isSome = true) (large : 1048576 < total)
    (opens : (s.lookup q x k).2.openStore x k q opt total (ctrlOwner h.ctrl) (s.lookup q x k).1 = .ok o)
    (room : (s.lookup q x k).2.objectRoom h x q.slice ((s.lookup q x k).2.segSlots q.slice value) = true)
    (idle : (s.lookup q x k).2.waitsOf (ctrlOwner h.ctrl) = [])
    (free : ((s.lookup q x k).2.freePlace (ctrlOwner h.ctrl) x.desc.fixity q.slice true).isSome = true) :
    Succeeds (s.openIngest h x k q opt total value) h ∧
      ∃ g, ((s.openIngest h x k q opt total value).slice q.slice).ingestOf x.nsid k = some g ∧ g.nextSeg = 1 ∧ g.value = value ∧ g.total = total := by
  obtain ⟨unopened, -, -⟩ := found_of_openStore opens
  obtain ⟨inst, free⟩ := Option.isSome_iff_exists.mp free
  obtain ⟨u, begun, run⟩ := openIngest_eq opens room idle free
  have taken := begun.trans (sameService_takeInstance u inst (ctrlOwner h.ctrl) x.desc.fixity total)
  have within : q.slice < (u.takeInstance inst (ctrlOwner h.ctrl) x.desc.fixity total).slices.length := by rwa [taken.tables.count]
  have vacant : ((u.takeInstance inst (ctrlOwner h.ctrl) x.desc.fixity total).slice q.slice).ingestOf x.nsid k = none := by
    rwa [Slice.ingestOf, taken.tables.ingests, ← (sameTables_lookup s q x k).ingests]
  have opened : ((ingestOpened u h x k q total inst o).slice q.slice).ingestOf x.nsid k =
      some (openedIngest (u.takeInstance inst (ctrlOwner h.ctrl) x.desc.fixity total) h x k q total inst o) :=
    ingestOf_append vacant (by rw [ingestOpened, slice_modSlice_self _ within, ingests_withIngest]) ⟨rfl, rfl⟩
  have kept : SameRecords s (ingestOpened u h x k q total inst o) := taken.records.trans (sameRecords_of_inflight (modSlice_inflight ..))
  have advances := segment_advances (by rwa [ingestOpened, slices_length_modSlice]) ((kept.isSome h).trans record) opened
    (Nat.ne_of_lt (one_lt_segCount large)) x value
  rw [run]
  exact ⟨advances.1, _, advances.2, rfl, rfl, rfl⟩

/-! ### The commands (R258) -/

theorem exec_store_whole (serves : ServesKey s h nsid x key) (fits : value.length ≤ 1048576) :
    exec (.store h nsid key opt none total value) s =
      .next (s.storeWhole h x (keyNorm key) (placeKey x (keyNorm key)) opt value) :=
  congrArg Host.Outcome.next ((keyCmd_of_serves serves _).trans (if_neg (Nat.not_lt.mpr fits)))

theorem exec_store_first (serves : ServesKey s h nsid x key) (fits : value.length ≤ 1048576) (small : total < 2 ^ 32) :
    exec (.store h nsid key opt (some 0) total value) s =
      .next (s.openIngest h x (keyNorm key) (placeKey x (keyNorm key)) opt total value) :=
  congrArg Host.Outcome.next ((keyCmd_of_serves serves _).trans ((if_neg (Nat.not_le.mpr small)).trans ((if_neg (Nat.not_lt.mpr fits)).trans
    (if_pos rfl))))

theorem exec_store_later (serves : ServesKey s h nsid x key) (fits : value.length ≤ 1048576) (small : total < 2 ^ 32) (later : seg ≠ 0) :
    exec (.store h nsid key opt (some seg) total value) s =
      .next (s.laterSegment h x (keyNorm key) (placeKey x (keyNorm key)) seg value) :=
  congrArg Host.Outcome.next ((keyCmd_of_serves serves _).trans ((if_neg (Nat.not_le.mpr small)).trans ((if_neg (Nat.not_lt.mpr fits)).trans
    (if_neg later))))

theorem laterSegment_out_of_order (off : ∀ g, (s.slice q.slice).ingestOf x.nsid k = some g → g.nextSeg ≠ seg) :
    s.laterSegment h x k q seg value = s.finish h (ansAt stSequence x.nsid 0) := by
  unfold State.laterSegment
  cases found : (s.slice q.slice).ingestOf x.nsid k with
  | none => rfl
  | some g => exact if_pos (off g found)

theorem laterSegment_in_order (found : (s.slice q.slice).ingestOf x.nsid k = some g) (next : g.nextSeg = seg)
    (room : s.objectRoom h x q.slice (s.segSlots q.slice value) = true) : s.laterSegment h x k q seg value = s.segment h x k q g value := by
  unfold State.laterSegment
  rw [found]
  dsimp only
  exact (if_neg (not_not_intro next)).trans (if_neg (by simp [room]))

/-! ### An ingest that is idle too long (R258) -/

/-- Every ingest that the second state holds, the first one holds in the same slice. -/
def FewerIngests (s t : State) : Prop := ∀ n, ∀ g ∈ (t.slice n).ingests, g ∈ (s.slice n).ingests

theorem FewerIngests.trans (a : FewerIngests s t) (b : FewerIngests t u) : FewerIngests s u := fun n g present => a n g (b n g present)

theorem FewerIngests.foldl {α : Type} {f : State → α → State} (each : ∀ s a, FewerIngests s (f s a)) (l : List α) (s : State) :
    FewerIngests s (l.foldl f s) := by
  induction l generalizing s with
  | nil => exact fun _ _ present => present
  | cons a l ih => exact (each s a).trans (ih _)

/-- Abandoning an ingest takes it out of its slice, and changes no other slice's ingests (R258). -/
theorem ingests_abandon (s : State) (n m : Nat) (g : Ingest) :
    ((s.abandon n g).slice m).ingests = if m = n then recErase Ingest.id (s.slice m).ingests g.id else (s.slice m).ingests := by
  have cleared := (sameTables_clearConds (fun v : Version => .programmed n v.wslot)
    ((s.slice n).versions.filter fun v => g.luas.contains v.index) s)
  have unmapped (l : List Nat) (y : Slice) : (l.foldl (fun y i => y.switch i .unmapped) y).ingests = y.ingests := by
    induction l generalizing y with
    | nil => rfl
    | cons i l ih => exact ih _
  rw [(sameTables_abandon s n g).ingests, ingestDropped]
  split
  next same =>
    subst same
    by_cases inside : m < s.slices.length
    · rw [slice_modSlice_self _ (by rwa [cleared.count]), ← cleared.ingests m]
      exact congrArg (recErase Ingest.id · g.id) (unmapped g.luas _)
    · rw [State.slice, List.getElem?_eq_none (by rw [slices_length_modSlice, cleared.count]; omega), State.slice,
        List.getElem?_eq_none (Nat.le_of_not_lt inside)]
      rfl
  next other => rw [slice_modSlice_of_ne _ _ other, cleared.ingests m]

theorem fewerIngests_abandon (s : State) (n : Nat) (g : Ingest) : FewerIngests s (s.abandon n g) := fun m i present => by
  rw [ingests_abandon] at present
  split at present
  · exact List.mem_of_mem_filter present
  · exact present

/-- The ingests of a list abandoned in their slice. -/
def abandonEach (n : Nat) (l : List Ingest) (s : State) : State := l.foldl (fun s g => s.abandon n g) s

theorem not_mem_abandonEach {l : List Ingest} (listed : g ∈ l) (s : State) (n : Nat) : g ∉ ((abandonEach n l s).slice n).ingests := by
  induction l generalizing s with
  | nil => cases listed
  | cons a l ih =>
    rcases List.mem_cons.mp listed with rfl | tail
    · intro present
      have still := FewerIngests.foldl (fun s g => fewerIngests_abandon s n g) l (s.abandon n g) n g present
      rw [ingests_abandon, if_pos rfl, recErase] at still
      simpa using List.of_mem_filter still
    · exact ih tail (s.abandon n a)

theorem fewerIngests_abandonEach (n : Nat) (l : List Ingest) (s : State) : FewerIngests s (abandonEach n l s) :=
  FewerIngests.foldl (fun s g => fewerIngests_abandon s n g) l s

/-- No ingest that is picked stays in the slice whose ingests are gone through. -/
theorem not_picked_abandonEach (s : State) (n : Nat) (pick : Ingest → Bool) :
    ∀ g ∈ ((abandonEach n ((s.slice n).ingests.filter pick) s).slice n).ingests, pick g = false := fun g present => by
  by_contra picked
  have before := fewerIngests_abandonEach n _ s n g present
  exact not_mem_abandonEach (List.mem_filter.mpr ⟨before, by simpa using picked⟩) s n present

theorem not_picked_abandonAll (has : s.hasSlice n = true) (pick : Ingest → Bool) : ∀ g ∈ ((s.abandonAll pick).slice n).ingests, pick g = false := by
  have through (l : List Nat) (s : State) (listed : n ∈ l) :
      ∀ g ∈ ((l.foldl (fun s n => abandonEach n ((s.slice n).ingests.filter pick) s) s).slice n).ingests, pick g = false := by
    induction l generalizing s with
    | nil => cases listed
    | cons a l ih =>
      rcases List.mem_cons.mp listed with rfl | tail
      · exact fun g present => not_picked_abandonEach s n pick g
          (FewerIngests.foldl (fun s n => fewerIngests_abandonEach n _ s) l (abandonEach n _ s) n g present)
      · exact ih _ tail
  exact through s.sliceList s (List.mem_range.mpr (of_decide_eq_true has))

theorem idle_abandons (nsid : Nat) (key : KvKey) (s : State) :
    Completes (.ingestIdleTimeout nsid key) s fun t => OnlyChanges (footprint (.ingestIdleTimeout nsid key)) s t ∧
      ∀ n, s.hasSlice n = true → (t.slice n).ingestOf nsid (keyNorm key) = none :=
  ⟨_, rfl, commandsChangeOnlyTheirFootprint (.ingestIdleTimeout nsid key) s _ rfl, fun _ has =>
    List.find?_eq_none.mpr fun g present => by rw [not_picked_abandonAll has _ g present]; exact Bool.false_ne_true⟩

/-! ### The obligation -/

theorem store_whole_commits (serves : ServesKey s h nsid x key) (h8 : s.slices.length = 8) (fits : value.length ≤ 1048576)
    (opens : Opens s h x key opt value.length o.luas.length o) :
    Completes (.store h nsid key opt none total value) s fun t => Succeeds t h ∧
      ∃ e, mapGet (t.slice (placeKey x (keyNorm key)).slice).index o.place = some e ∧ e.nsid = nsid ∧ e.key = keyNorm key ∧ e.state = .live ∧
        (o.isNew = true → e.version = 1 ∧
          (mapGet (t.slice (placeKey x (keyNorm key)).slice).objects e.record).map ObjRecord.value = some value) ∧
        (o.isNew = false → ∀ e0, mapGet (s.slice (placeKey x (keyNorm key)).slice).index o.place = some e0 → e.version = e0.version + 1) := by
  obtain ⟨found, room, idle, free⟩ := opens
  have own := nsid_of_serves serves.1
  subst own
  exact ⟨_, exec_store_whole serves fits,
    storeWhole_commits (slice_of_servesKey serves h8) (isSome_of_servesKey serves) found room idle free⟩

theorem store_first_opens (serves : ServesKey s h nsid x key) (h8 : s.slices.length = 8) (fits : value.length ≤ 1048576) (large : 1048576 < total)
    (small : total < 2 ^ 32) (opens : Opens s h x key opt total
      ((s.lookup (placeKey x (keyNorm key)) x (keyNorm key)).2.segSlots (placeKey x (keyNorm key)).slice value) o) :
    Completes (.store h nsid key opt (some 0) total value) s fun t => Succeeds t h ∧
      ∃ g, (t.slice (placeKey x (keyNorm key)).slice).ingestOf nsid (keyNorm key) = some g ∧ g.nextSeg = 1 ∧ g.value = value ∧ g.total = total := by
  obtain ⟨found, room, idle, free⟩ := opens
  have own := nsid_of_serves serves.1
  subst own
  exact ⟨_, exec_store_first serves fits small,
    openIngest_opens (slice_of_servesKey serves h8) (isSome_of_servesKey serves) large found room idle free⟩

theorem store_out_of_order (serves : ServesKey s h nsid x key) (fits : value.length ≤ 1048576) (small : total < 2 ^ 32) (later : seg ≠ 0)
    (off : ∀ g, (s.slice (placeKey x (keyNorm key)).slice).ingestOf nsid (keyNorm key) = some g → g.nextSeg ≠ seg) :
    Completes (.store h nsid key opt (some seg) total value) s fun t => Answered t h (ansAt stSequence nsid 0) ∧ OnlyChanges [.inflight] s t := by
  have own := nsid_of_serves serves.1
  subst own
  refine ⟨_, exec_store_later serves fits small later, ?_⟩
  rw [laterSegment_out_of_order off]
  exact answered_only_finish (isSome_of_servesKey serves) _

theorem exec_store_in_order (serves : ServesKey s h nsid x key) (fits : value.length ≤ 1048576) (small : total < 2 ^ 32) (later : seg ≠ 0)
    (found : (s.slice (placeKey x (keyNorm key)).slice).ingestOf nsid (keyNorm key) = some g) (next : g.nextSeg = seg)
    (room : s.objectRoom h x (placeKey x (keyNorm key)).slice (s.segSlots (placeKey x (keyNorm key)).slice value) = true) :
    exec (.store h nsid key opt (some seg) total value) s =
      .next (s.segment h x (keyNorm key) (placeKey x (keyNorm key)) g value) := by
  rw [← nsid_of_serves serves.1] at found
  rw [exec_store_later serves fits small later, laterSegment_in_order found next room]

theorem store_last_ends (serves : ServesKey s h nsid x key) (fits : value.length ≤ 1048576) (small : total < 2 ^ 32) (later : seg ≠ 0)
    (found : (s.slice (placeKey x (keyNorm key)).slice).ingestOf nsid (keyNorm key) = some g) (next : g.nextSeg = seg)
    (last : seg + 1 = segCount g.total)
    (room : s.objectRoom h x (placeKey x (keyNorm key)).slice (s.segSlots (placeKey x (keyNorm key)).slice value) = true) :
    Completes (.store h nsid key opt (some seg) total value) s fun t =>
      if (g.value ++ value).length = g.total then Succeeds t h
      else Answered t h { ansAt stLength nsid 0 with info := ((g.value ++ value).length : Int) - g.total } := by
  refine ⟨_, exec_store_in_order serves fits small later found next room, ?_⟩
  subst next
  split
  next whole => exact segment_completes last whole (isSome_of_servesKey serves) ..
  next wrong => exact nsid_of_serves serves.1 ▸ segment_mismatch last wrong (isSome_of_servesKey serves) x ..

theorem store_next_advances (h8 : s.slices.length = 8) (serves : ServesKey s h nsid x key) (fits : value.length ≤ 1048576) (small : total < 2 ^ 32)
    (later : seg ≠ 0) (found : (s.slice (placeKey x (keyNorm key)).slice).ingestOf nsid (keyNorm key) = some g) (next : g.nextSeg = seg)
    (more : seg + 1 ≠ segCount g.total)
    (room : s.objectRoom h x (placeKey x (keyNorm key)).slice (s.segSlots (placeKey x (keyNorm key)).slice value) = true) :
    Completes (.store h nsid key opt (some seg) total value) s fun t => Succeeds t h ∧
      ∃ g', (t.slice (placeKey x (keyNorm key)).slice).ingestOf nsid (keyNorm key) = some g' ∧ g'.nextSeg = seg + 1 ∧
        g'.value = g.value ++ value ∧ g'.total = g.total := by
  refine ⟨_, exec_store_in_order serves fits small later found next room, ?_⟩
  subst next
  obtain ⟨succeeds, advances⟩ := segment_advances (slice_of_servesKey serves h8) (isSome_of_servesKey serves) found more x value
  exact ⟨succeeds, _, advances, rfl, rfl, rfl⟩

/-- Settles O38: every step of a Store keeps the tables of the object service until the commit writes the entry and the record, or the ingest
advances; an idle ingest is taken out of each slice in turn. -/
theorem storesCommitTheirObjects : Obligations.StoresCommitTheirObjects := by
  unfold Obligations.StoresCommitTheirObjects
  refine ⟨?_, ?_, ?_, ?_, ?_, idle_abandons⟩
  · exact fun _ _ _ _ _ _ _ _ _ serves h8 fits opens => store_whole_commits serves h8 fits opens
  · exact fun _ _ _ _ _ _ _ _ _ serves h8 fits large small opens => store_first_opens serves h8 fits large small opens
  · exact fun _ _ _ _ _ _ _ _ _ serves fits small later off => store_out_of_order serves fits small later off
  · exact fun _ _ _ _ _ _ _ _ _ _ serves fits small later found next last room => store_last_ends serves fits small later found next last room
  · exact fun _ _ _ _ _ _ _ _ _ _ h8 serves fits small later found next more room =>
      store_next_advances h8 serves fits small later found next more room

end Sys2Proof.Proofs
end
